-- ==== Sys2Proof/Word.lean ====
section
/-! DEFINITION. The word widths of the register pages (R242, R9), the two managers (chapter "Scope", Parties) and a
pair of values, one per manager. -/

namespace Sys2Proof

/-- One byte. -/
abbrev Byte := BitVec 8
/-- A 16-bit value. -/
abbrev Half := BitVec 16
/-- A register word of 32 bits. -/
abbrev Word := BitVec 32
/-- A 64-bit register pair, a token, a challenge. -/
abbrev DWord := BitVec 64

/-- Managers A and B (PCIE0 and PCIE1). -/
inductive Mgr where
  | a
  | b
  deriving DecidableEq, Repr

/-- The other manager. -/
def Mgr.other : Mgr → Mgr
  | .a => .b
  | .b => .a

/-- One value per manager. -/
structure PerMgr (α : Type) where
  a : α
  b : α
  deriving DecidableEq, Repr

/-- The value of one manager. -/
def PerMgr.get {α : Type} (p : PerMgr α) : Mgr → α
  | .a => p.a
  | .b => p.b

/-- Replace the value of one manager. -/
def PerMgr.set {α : Type} (p : PerMgr α) (m : Mgr) (x : α) : PerMgr α :=
  match m with
  | .a => { p with a := x }
  | .b => { p with b := x }

/-- The same value for both managers. -/
def PerMgr.both {α : Type} (x : α) : PerMgr α := { a := x, b := x }

/-- Origin of an Ovdel command: manager, submission queue, command identifier (R211, R216). -/
structure Src where
  mgr : Mgr
  sq : Byte
  cid : Half
  deriving DecidableEq, Repr

end Sys2Proof
end

