-- ==== Sys2Proof/Machine/Store.lean ====
section
/-! DEFINITION. Byte stores (image, KEEP and SCRATCH bytes, staged objects), keyed maps of plain data, and the
bit-field and byte-order helpers (R9). -/

namespace Sys2Proof.Machine

/-! ## Bit fields and bytes -/

/-- Bits [hi:lo] of a number. -/
def field (w hi lo : Nat) : Nat := (w >>> lo) % 2 ^ (hi + 1 - lo)

/-- Bit i of a number. -/
def bit (w i : Nat) : Bool := w.testBit i

/-- 1 for true, 0 for false: a one-bit field's value. -/
def bval (b : Bool) : Nat := if b then 1 else 0

/-- A word from (position, value) fields: each value shifted to its lowest bit. -/
def pack (fs : List (Nat × Nat)) : Nat := fs.foldr (fun f acc => acc + f.2 <<< f.1) 0

/-- The first n bytes of a value, lowest first (R9: multi-byte values are little-endian). -/
def leBytes : Nat → Nat → List Byte
  | 0, _ => []
  | n + 1, v => BitVec.ofNat 8 v :: leBytes n (v / 256)

/-- The value of a byte string, lowest byte first (R9). -/
def ofLe : List Byte → Nat
  | [] => 0
  | b :: bs => b.toNat + 256 * ofLe bs

/-- The n bytes at offset off of a byte string; a byte beyond its end is zero. -/
def slice (bs : List Byte) (off n : Nat) : List Byte :=
  (List.range n).map fun i => bs.getD (off + i) 0

/-- Big-endian value of a byte string (R192). -/
def ofBe (bs : List Byte) : Nat := bs.foldl (fun a b => a * 256 + b.toNat) 0

/-- The n bytes of a big-endian value. -/
def beBytes (n v : Nat) : List Byte := (leBytes n v).reverse

/-- The little-endian value of the n bytes at offset off. -/
def leAt (bs : List Byte) (off n : Nat) : Nat := ofLe (slice bs off n)

/-- A byte string with the bytes xs written from offset off; short strings are completed with zeros. -/
def splice (bs : List Byte) (off : Nat) (xs : List Byte) : List Byte :=
  let pre := bs.take off
  pre ++ List.replicate (off - pre.length) 0 ++ xs ++ bs.drop (off + xs.length)

/-- n bytes of 0xFF: an unanswered read (R59, R36, R92) or an erased range. -/
def ones (n : Nat) : List Byte := List.replicate n 0xFF

/-- A saturating count of one in a w-bit counter. -/
def satInc {w : Nat} (x : BitVec w) : BitVec w := if x = BitVec.allOnes w then x else x + 1

/-- Smaller power-of-two exponent: the exponent of a power of two, none otherwise. -/
def log2Exact (n : Nat) : Option Nat :=
  if n = 2 ^ n.log2 then some n.log2 else none

/-- Quotient rounded up. -/
def ceilDiv (a b : Nat) : Nat := (a + b - 1) / b

/-! ## Byte stores -/

/-- What a byte that nothing has written reads as: 0xFF (R95, R96, R52; log entry 3). -/
def Memory.unwritten : Byte := 0xFF

/-- Sparse bytes: (address, byte) cells, addresses strictly rising, no cell equal to the unwritten byte. -/
abbrev Memory := List Host.Cell

/-- The canonical form of a byte store. -/
abbrev Memory.wf (m : Memory) : Prop :=
  List.Pairwise (fun a b => a.1 < b.1) m ∧ ∀ c ∈ m, c.2 ≠ Memory.unwritten

/-- Read one byte. -/
def Memory.read : Memory → Nat → Byte
  | [], _ => Memory.unwritten
  | (k, v) :: m, a => if k = a then v else Memory.read m a

/-- Remove the cell at an address. -/
def Memory.erase (m : Memory) (a : Nat) : Memory := m.filter fun c => c.1 ≠ a

/-- Put a cell in its place among strictly rising addresses. -/
def Memory.insert (m : Memory) (a : Nat) (v : Byte) : Memory :=
  match m with
  | [] => [(a, v)]
  | (k, w) :: t =>
    if a < k then (a, v) :: (k, w) :: t
    else if a = k then (a, v) :: t
    else (k, w) :: Memory.insert t a v

/-- Write one byte: the unwritten value removes the cell. -/
def Memory.write (m : Memory) (a : Nat) (v : Byte) : Memory :=
  if v = Memory.unwritten then m.erase a else m.insert a v

/-- Write a byte string at an address. -/
def Memory.writeList (m : Memory) (a : Nat) : List Byte → Memory
  | [] => m
  | v :: vs => Memory.writeList (m.write a v) (a + 1) vs

/-- Read n bytes at an address. -/
def Memory.readList (m : Memory) (a : Nat) (n : Nat) : List Byte :=
  (List.range n).map fun i => m.read (a + i)

/-- AND a byte string into the store (R95: a PAGE PROGRAM clears bits). -/
def Memory.andList (m : Memory) (a : Nat) : List Byte → Memory
  | [] => m
  | v :: vs => Memory.andList (m.write a (m.read a &&& v)) (a + 1) vs

/-- Set n bytes to 0xFF: the cells of the range go. -/
def Memory.eraseRange (m : Memory) (a n : Nat) : Memory := m.filter fun c => c.1 < a ∨ a + n ≤ c.1

/-! ## Keyed maps: keys strictly rising -/

/-- A finite map from numbers to plain data, keys strictly rising. -/
abbrev SMap (α : Type) := List (Nat × α)

/-- The value at a key. -/
def SMap.get? {α : Type} : SMap α → Nat → Option α
  | [], _ => none
  | (k, v) :: m, a => if k = a then some v else SMap.get? m a

/-- Put a value at a key, in its place. -/
def SMap.put {α : Type} (m : SMap α) (a : Nat) (v : α) : SMap α :=
  match m with
  | [] => [(a, v)]
  | (k, w) :: t =>
    if a < k then (a, v) :: (k, w) :: t
    else if a = k then (a, v) :: t
    else (k, w) :: SMap.put t a v

/-- Drop a key. -/
def SMap.del {α : Type} (m : SMap α) (a : Nat) : SMap α := m.filter fun e => e.1 ≠ a

/-- Put an element before the first one that does not come before it. -/
def putOrdered {α : Type} (le : α → α → Bool) (x : α) : List α → List α
  | [] => [x]
  | y :: l => if le x y then x :: y :: l else y :: putOrdered le x l

/-- A list in order; equals keep their places. -/
def ordered {α : Type} (le : α → α → Bool) (l : List α) : List α := l.foldr (putOrdered le) []

/-- Replace the entry at i of a list, if there is one. -/
def listSet {α : Type} (l : List α) (i : Nat) (x : α) : List α := l.set i x

/-- The positions of a vector whose value meets a test, in rising order. -/
def indices {α : Type} {n : Nat} (v : Vector α n) (p : α → Bool) : List (Fin n) :=
  (List.finRange n).filter fun i => p (v.get i)

end Sys2Proof.Machine
end

