-- ==== Sys2Proof/Machine/HostTypes.lean ====
section
/-! DEFINITION. Plain data of the host port, the mailbox, the Stencil and the flash-side port (chapters "Host channels
and the virtual flash" and "Stencil filtering and flash-side ports"). -/

namespace Sys2Proof.Machine

/-- A 48-byte SHA-384 value. -/
abbrev Digest := Vector Byte 48

/-- 48 zero bytes. -/
def Digest.zero : Digest := Vector.replicate 48 0

/-- What keeps WIP set on a channel (R28, R30, R75). -/
inductive HostOp where
  /-- an accepted program or erase of the device's own stores -/
  | own
  /-- a refused program or erase (R28): erase or program, SUPPLY or PROTECTED -/
  | refused (erase supply : Bool)
  /-- a program or erase forwarded to the local flash (R75) -/
  | forwarded (erase : Bool)
  deriving DecidableEq, Repr

/-- What a host reads of its channel's identity stays as it was at the release, whatever a commit or a rediscovery changes meanwhile
(R34): log2 of the virtual flash size, JEDEC ID bytes, advertised default dummy counts by protocol, the generated SFDP space. -/
structure Ident where
  log2 : Option Nat
  jedec : List Byte
  dummies : List Nat
  sfdp : List Byte
  deriving DecidableEq, Repr

/-- The channel island of a host channel (R23-R40). CR_IO holds 0 to 3. -/
structure HostPort where
  crIo : Byte
  crDummy : Byte
  addr4 : Bool
  crDrive : BitVec 2
  wel : Bool
  eraseFail : Bool
  programFail : Bool
  supplyFail : Bool
  protFail : Bool
  op : Option HostOp
  dpd : Bool
  resetArmed : Bool
  /-- device time at which a host reset ends (R40) -/
  resetEnd : Option Nat
  /-- an overcurrent cut-off: device time at which commands are decoded again (R302) -/
  cutEnd : Option Nat
  period : Half
  ddr : Bool
  shortDummy : Byte
  undecoded : Byte
  ignored : Byte
  boundary : Byte
  /-- the bytes of the last data phase -/
  reply : List Byte
  /-- the DQ lines, by bit, and whether CHn_DQS, that the device drove during it; at all other times every one of them is
  at high impedance (R23) -/
  driven : Byte
  dqsDriven : Bool
  /-- CS# is still low after the last read: its burst is in progress (R67) -/
  burstOpen : Bool
  /-- the identity that stands since the release (R34); none while the channel is not released -/
  ident : Option Ident
  deriving DecidableEq, Repr

/-- R25's reset values; counters 0 (CHn_MBX_ERRS); 0 where the page says live. -/
def HostPort.reset : HostPort :=
  { crIo := 0, crDummy := 0, addr4 := false, crDrive := 1, wel := false, eraseFail := false, programFail := false,
    supplyFail := false, protFail := false, op := none, dpd := false, resetArmed := false, resetEnd := none,
    cutEnd := none, period := 0, ddr := false, shortDummy := 0, undecoded := 0, ignored := 0, boundary := 0, reply := [],
    driven := 0, dqsDriven := false, burstOpen := false, ident := none }

/-- A host-to-manager message, latched with its device time (R48). -/
structure HostMsg where
  seq : Word
  time : Nat
  bytes : List Byte
  deriving DecidableEq, Repr

/-- A mailbox field that waits for the control cluster (R18). -/
inductive LatchedAct where
  | proofAccept (value : DWord)
  | updOpen (value : DWord)
  | updCommit
  | updAbort
  | hostMessage (seq : Word) (bytes : List Byte)
  deriving DecidableEq, Repr

/-- One PAGE PROGRAM's fields that wait for the control cluster: its device time, whether the phase was RUN then (R49), whether it has
been counted as ignored already (R41), and the fields in their order. -/
structure Latched where
  time : Nat
  inRun : Bool
  counted : Bool
  acts : List LatchedAct
  deriving DecidableEq, Repr

/-- Mailbox of one channel (R41-R49). SESSION: 0 IDLE, 1 OPEN, 2 VERIFYING, 3 DONE, 4 FAILED. -/
structure Mailbox where
  rev : Byte
  /-- the device's copy of the CDI; empty when zeroed (R47, R173) -/
  cdi : List Byte
  cdiTaken : Bool
  bootDone : Bool
  /-- the alias certificate's DER (R174); its length stands before it in the area -/
  cert : List Byte
  session : BitVec 3
  updPlate : Byte
  updStatus : Half
  updLeaves : Word
  updLen : Word
  h2mLen : Word
  h2mSeq : Word
  h2mAck : Word
  h2mData : SMap Byte
  posted : Option HostMsg
  m2hLen : Word
  m2hSeq : Word
  m2hAck : Word
  m2hData : List Byte
  meas : Vector Digest 8
  /-- writes latched during a control-cluster restart, oldest first (R18) -/
  latched : List Latched
  deriving DecidableEq, Repr

def Mailbox.reset : Mailbox :=
  { rev := 1, cdi := [], cdiTaken := true, bootDone := false, cert := [], session := 0, updPlate := 0, updStatus := 0,
    updLeaves := 0, updLen := 0, h2mLen := 0, h2mSeq := 0, h2mAck := 0, h2mData := [], posted := none, m2hLen := 0,
    m2hSeq := 0, m2hAck := 0, m2hData := [], meas := Vector.replicate 8 Digest.zero, latched := [] }

/-- Host phases (CHn_STN_STAT.PHASE). -/
inductive Phase where
  | boot
  | run
  | update
  | recovery
  deriving DecidableEq, Repr

/-- Register images of one Stencil table: windows, buckets, rules and BOOT_TMO (CHn_STN 0x04C, 0x200-0x6FF). -/
structure STable where
  winBase : Vector Word 32
  winSize : Vector Word 32
  winAcc : Vector Word 32
  winMap : Vector Word 32
  pbkt : Vector Word 32
  ebkt : Vector Word 32
  ruleA : Vector Word 64
  ruleB : Vector Word 64
  bootTmo : Half
  deriving DecidableEq, Repr

/-- A table with every window unused, every rule OFF, every bucket OFF (the policy Reset of chapter "Scope"). -/
def STable.reset : STable :=
  { winBase := Vector.replicate 32 0, winSize := Vector.replicate 32 0, winAcc := Vector.replicate 32 0,
    winMap := Vector.replicate 32 0, pbkt := Vector.replicate 32 0, ebkt := Vector.replicate 32 0,
    ruleA := Vector.replicate 64 0, ruleB := Vector.replicate 64 0, bootTmo := 0 }

/-- Live content of one token bucket (R60): tokens and, while the timer runs, the device time it started. -/
structure Bucket where
  tokens : Half
  start : Option Nat
  deriving DecidableEq, Repr

def Bucket.reset : Bucket := { tokens := 0, start := none }

/-- A manager's shadow of a Stencil table: its copy and the register offsets written since (R63). -/
structure Shadow where
  tbl : STable
  marks : List Nat
  deriving DecidableEq, Repr

def Shadow.reset : Shadow := { tbl := STable.reset, marks := [] }

/-- Reasons of CHn_STN_LASTDENY. -/
inductive Reason where
  | rule
  | window
  | permission
  | bucket
  | supply
  | pass
  | span
  deriving DecidableEq, Repr

/-- The Stencil of one channel (R51-R69). -/
structure Stencil where
  tbl : STable
  shadow : PerMgr Shadow
  pTok : Vector Bucket 32
  eTok : Vector Bucket 32
  phase : Phase
  tmoHit : Bool
  reqResult : PerMgr (BitVec 2)
  epoch : Word
  /-- the persistent overlay of the ledger (R68): register offset, mask and value, by rising offset -/
  overlay : SMap (Word × Word)
  polver : Word
  oldCmd : Bool
  deniedRead : Half
  protectedCnt : Half
  ruleDeny : Half
  bucketCnt : Half
  supplyCnt : Half
  passOther : Half
  lastDeny : Word
  lastAddr : Word
  deriving DecidableEq, Repr

/-- Epoch 1 at device start (R63's chapter text); counters 0. -/
def Stencil.reset : Stencil :=
  { tbl := STable.reset, shadow := PerMgr.both Shadow.reset, pTok := Vector.replicate 32 Bucket.reset,
    eTok := Vector.replicate 32 Bucket.reset, phase := Phase.boot, tmoHit := false, reqResult := PerMgr.both 0,
    epoch := 1, overlay := [], polver := 0, oldCmd := false, deniedRead := 0, protectedCnt := 0, ruleDeny := 0,
    bucketCnt := 0, supplyCnt := 0, passOther := 0, lastDeny := 0, lastAddr := 0 }

/-- A program or erase that the local flash is running (R73, R75). -/
structure LocalOp where
  erase : Bool
  /-- for the host (R75); otherwise for the device -/
  host : Bool
  start : Nat
  /-- SFDP maximum of the operation, at most 4 s, in ns (R73) -/
  bound : Nat
  deriving DecidableEq, Repr

/-- A command that a flash-side port issues to its local flash (R56, R57, R74, R75): opcode, address if it has one, dummy cycles,
bytes in. -/
structure LocalCmd where
  op : Nat
  addr : Option Nat
  dummy : Nat
  data : List Byte
  deriving DecidableEq, Repr

/-- Flash-side port FPn (R70-R75, page FPn). STATE: 0 OFF, 1 DISCOVERING, 2 READY, 3 FAULT. -/
structure FlashPort where
  state : BitVec 3
  fault : Byte
  user : BitVec 2
  localOp : Option LocalOp
  /-- what the port issued for the host's last command in a PASS window, in order -/
  issued : List LocalCmd
  passProto : BitVec 2
  devMhz : Byte
  densLog2 : Byte
  /-- log2 of the density that the last discovery found, whatever it ended in; 0: no power of two from 16 MiB to 1 GiB (R31) -/
  found : Option Nat
  passDummy : Byte
  maxMhz : Byte
  pageLog2 : BitVec 4
  xspi : Bool
  progUs : Half
  erase4Ms : Half
  erase64Ms : Half
  id : List Byte
  /-- the local flash's own SFDP, read at discovery (R33) -/
  sfdp : List Byte
  wipTimeouts : Byte
  localFails : Byte
  discFails : Byte
  deriving DecidableEq, Repr

def FlashPort.reset : FlashPort :=
  { state := 0, fault := 0, user := 0, localOp := none, issued := [], passProto := 0, devMhz := 0, densLog2 := 0, found := none, passDummy := 0,
    maxMhz := 0, pageLog2 := 0, xspi := false, progUs := 0, erase4Ms := 0, erase64Ms := 0, id := [], sfdp := [],
    wipTimeouts := 0, localFails := 0, discFails := 0 }

end Sys2Proof.Machine
end

