-- ==== Sys2Proof/Machine/ImageTypes.lean ====
section
/-! DEFINITION. Plain data of impressions, image memory, the front cache, the hash farm's service state, the pool,
the plates, the ledger's two-copy records and the device firmware (chapters "Impressions, image memory and the pool"
and "Plates, proof boot and recovery"). -/

namespace Sys2Proof.Machine

/-! ## Two-copy ledger records (R108, R109) -/

/-- One ledger copy: entirely zero, with a CHECK that does not match, or valid with its SEQ. -/
inductive LCopy (α : Type) where
  | zero
  | invalid
  | valid (seq : Nat) (x : α)
  deriving DecidableEq, Repr

/-- The two copies of a ledger record. -/
structure LPair (α : Type) where
  c0 : LCopy α
  c1 : LCopy α
  deriving DecidableEq, Repr

/-! ## Plates -/

/-- Plate names. -/
inductive PlateId where
  | a
  | b
  | recov
  deriving DecidableEq, Repr

/-- Plate states (R105). -/
inductive PState where
  | empty
  | staging
  | staged
  | proof
  | active
  | previous
  | rejected
  | bad
  deriving DecidableEq, Repr

/-- A plate entry of 96 bytes (R107). -/
structure Plate where
  state : PState
  src : Byte
  attempts : Byte
  adv : Bool
  tie : Bool
  host : Bool
  svn : Word
  build : DWord
  leaves : Word
  locBase : Word
  family : List Byte
  root : List Byte
  deriving DecidableEq, Repr

def Plate.empty : Plate :=
  { state := .empty, src := 0, attempts := 0, adv := false, tie := false, host := false, svn := 0, build := 0,
    leaves := 0, locBase := 0, family := [], root := [] }

/-- The plates and FLAGS of one plate table record (R107); SEQ stands in the copy. -/
structure PTable where
  conflict : Bool
  a : Plate
  b : Plate
  recov : Plate
  deriving DecidableEq, Repr

def PTable.empty : PTable := { conflict := false, a := .empty, b := .empty, recov := .empty }

/-- Who has claimed a plate in STAGING (R112, R50). -/
inductive Claim where
  | manager (m : Mgr)
  | hostSession
  deriving DecidableEq, Repr

/-- The bytes of a staging in progress: those written so far, by offset. -/
structure Staging where
  claim : Option Claim
  man : SMap Byte
  img : SMap Byte
  deriving DecidableEq, Repr

def Staging.reset : Staging := { claim := none, man := [], img := [] }

/-- One value per plate. -/
structure PerPlate (α : Type) where
  a : α
  b : α
  recov : α
  deriving DecidableEq, Repr

/-- What a PLATE_ARM_PROOF or HOST_ARM sequence waits for (R115). -/
structure Arming where
  plate : PlateId
  /-- step 1 held a channel that was not held before -/
  live : Bool
  /-- PROOF committed (step 3 made) -/
  committed : Bool
  deriving DecidableEq, Repr

/-- Everything one channel keeps about its plates. -/
structure PlateSt where
  table : LPair PTable
  staging : PerPlate Staging
  /-- the manifest of a stored plate in local flash (its bytes lie outside the part; this is what was written) -/
  localMan : PerPlate (List Byte)
  /-- local plates confirmed since the last device start (R84) -/
  confirmed : PerPlate Bool
  challenge : DWord
  /-- proof deadline in device time; it starts at the release that begins the attempt (R116) -/
  deadline : Option Nat
  /-- an acceptance latched with its device time, waiting for its commit (R117, R18) -/
  accepted : Option Nat
  /-- device time of the channel watchdog's first expiry during the attempt (R117) -/
  firstExpiry : Option Nat
  arming : Option Arming
  /-- CH_STATE.PROOF outside a proof: 0 NONE, 2 ACCEPTED, 3 REVERTED -/
  show_ : BitVec 4
  /-- the next release follows a revert -/
  revertNext : Bool
  /-- a revert commit waits for the supply or the control cluster (R118, R17) -/
  revertWaits : Bool
  /-- the proof failed while the control cluster was absent, by this row of R117's table: 1 deadline, 2 watchdog expiry (R17) -/
  absentFail : Option Nat
  deriving DecidableEq, Repr

def PlateSt.reset : PlateSt :=
  { table := { c0 := .zero, c1 := .zero }, staging := { a := .reset, b := .reset, recov := .reset },
    localMan := { a := [], b := [], recov := [] }, confirmed := { a := false, b := false, recov := false },
    challenge := 0, deadline := none, accepted := none, firstExpiry := none, arming := none, show_ := 0,
    revertNext := false, revertWaits := false, absentFail := none }

/-- The minimum table (R119): DEVFW_MIN and up to 64 families. -/
structure MinTable where
  devfw : Word
  fams : List (List Byte × Word)
  deriving DecidableEq, Repr

/-- Header of a Runil device-firmware package: MAGIC, VERSION, SVN, BUILD, LENGTH, FLAGS bit 0, the SHA-384 of the body. -/
structure FwHeader where
  magic : Nat
  version : Nat
  svn : Nat
  build : Nat
  length : Nat
  selfAccept : Bool
  digest : List Byte
  deriving DecidableEq, Repr, Inhabited

/-- A staged or stored device-firmware package and its plate table (R122-R124). -/
structure DevFw where
  table : LPair PTable
  pkgA : SMap Byte
  pkgB : SMap Byte
  claim : Option Mgr
  /-- the plate the control cluster runs -/
  running : PlateId
  /-- end of the 60 s proof; it starts when the restart completes (R123) -/
  deadline : Option Nat
  onProof : Bool
  deriving DecidableEq, Repr

def DevFw.reset : DevFw :=
  { table := { c0 := .zero, c1 := .zero }, pkgA := [], pkgB := [], claim := none, running := .a, deadline := none,
    onProof := false }

/-! ## Impressions and image memory -/

/-- States of a directory entry (IMM_DIR_INFO.STATE). -/
inductive DirState where
  | free
  | taking
  | resident
  | damaged
  | relocating
  deriving DecidableEq, Repr

/-- Where a take reads its leaves (R83). -/
inductive Source where
  | pool
  | flash (chan : Nat) (plate : PlateId)
  deriving DecidableEq, Repr

/-- An image memory extent of 2 MiB that an impression holds (R87, R88): its number, the generation it had at its allocation, and whether
it records the 7-channel layout. -/
structure Extent where
  num : Nat
  gen : Word
  seven : Bool
  deriving DecidableEq, Repr

/-- One entry of the impression directory (R81-R86). -/
structure Impression where
  state : DirState
  family : List Byte
  root : List Byte
  leaves : Word
  svn : Word
  enc : Bool
  source : Source
  patmis : Half
  /-- the verified plaintext -/
  bytes : Memory
  /-- its extents, in the order of its leaves: 512 leaves in each (R88) -/
  extents : List Extent
  /-- leaves whose lines answer as a tag failure until repaired (R92) -/
  badLeaves : List Nat
  /-- its resident leaf-digest table failed its LEAF_ROOT: the whole impression is to be retaken (R94) -/
  tableBad : Bool
  /-- its lines lie on an image memory channel that was taken out (R104) -/
  lost : Bool
  /-- the manifest the take was made from -/
  man : List Byte
  /-- device time of the last unbinding (R85) -/
  idleSince : Nat
  deriving DecidableEq, Repr

def Impression.free : Impression :=
  { state := .free, family := [], root := [], leaves := 0, svn := 0, enc := false, source := .pool, patmis := 0,
    bytes := [], extents := [], badLeaves := [], tableBad := false, lost := false, man := [], idleSince := 0 }

/-- Image memory (pages IMM, R81-R94, R104). -/
structure ImageMem where
  dir : Vector Impression 256
  /-- extent generations by extent number: they rise at each allocation, 0 where none is listed (R87) -/
  gens : SMap Word
  chIn : Byte
  keyValid : Bool
  relocating : Bool
  periodH : Byte
  pause : Bool
  passes : Half
  patPos : Word
  tagFail : Half
  patrolMismatch : Half
  repaired : Byte
  transient : Byte
  lostLine : Half
  tfLimit : Half
  tfAction : Bool
  dirSel : Byte
  deriving DecidableEq, Repr

/-- Before training no channel is in service and no key is drawn (R87). -/
def ImageMem.reset : ImageMem :=
  { dir := Vector.replicate 256 Impression.free, gens := [], chIn := 0, keyValid := false, relocating := false, periodH := 24,
    pause := false, passes := 0, patPos := 0, tagFail := 0, patrolMismatch := 0, repaired := 0, transient := 0,
    lostLine := 0, tfLimit := 0, tfAction := false, dirSel := 0 }

/-- One sealed KEEP snapshot in the pool (R97): sequence number, the vault salt's generation, the 4 KiB bytes. -/
structure KeepCopy where
  seq : Nat
  salt : Nat
  bytes : List Byte
  deriving DecidableEq, Repr

/-- The two alternating pool copies of one KEEP block. -/
structure KeepCopies where
  c0 : Option KeepCopy
  c1 : Option KeepCopy
  deriving DecidableEq, Repr

/-- KEEP and SCRATCH areas of one channel (R95-R97). -/
structure Areas where
  keep : Memory
  scratch : Memory
  /-- changed KEEP blocks with the device time of their first change -/
  dirty : SMap Nat
  copies : SMap KeepCopies
  /-- KEEP restored since the last device start -/
  restored : Bool
  deriving DecidableEq, Repr

def Areas.reset : Areas := { keep := [], scratch := [], dirty := [], copies := [], restored := false }

/-- Front cache (page FCA, R91): cached lines, most recently used first, as (directory entry, line). -/
structure FrontCache where
  lines : List (Nat × Nat)
  hit : Word
  miss : Word
  tfailPinned : Half
  tfailCached : Half
  deriving DecidableEq, Repr

def FrontCache.reset : FrontCache := { lines := [], hit := 0, miss := 0, tfailPinned := 0, tfailCached := 0 }

/-- Hash lanes and AES pipelines in service (page HSH, R22, R103). -/
structure Farm where
  lanes : BitVec 40
  aesIn : BitVec 12
  aesBound : BitVec 12
  intervalS : Byte
  lastFailed : Byte
  fails : Half
  deriving DecidableEq, Repr

/-- Every lane and pipeline in service, eight pipelines bound (R21); LAST_FAILED 0xFF. -/
def Farm.reset : Farm :=
  { lanes := BitVec.allOnes 40, aesIn := BitVec.allOnes 12, aesBound := 0xFF, intervalS := 60, lastFailed := 0xFF, fails := 0 }

/-- One pool channel. State: 0 OFF, 1 TRAINING, 2 IN, 3 OUT, 4 RETURNING (POLk_STAT). -/
structure PoolChan where
  state : BitVec 3
  targets : BitVec 4
  mode : BitVec 4
  mts : Half
  factory : Half
  grown : Half
  corrected : Half
  rebuilt : Half
  maxPe : Half
  /-- blocks of its targets, and those of the spare reserve that are left (R99, R100) -/
  blocks : Nat
  spare : Nat
  deriving DecidableEq, Repr

def PoolChan.reset : PoolChan :=
  { state := 0, targets := 0, mode := 0, mts := 0, factory := 0, grown := 0, corrected := 0, rebuilt := 0, maxPe := 0, blocks := 0,
    spare := 0 }

/-- SPARE_PCT: the spare reserve left, as a share of the channel's blocks rounded down. DESIGN CHOICE (log entry 53): of its blocks. -/
def PoolChan.sparePct (c : PoolChan) : Nat := c.spare * 100 / max c.blocks 1

/-- A complete object stored once in the pool (R99): its manifest and its bytes as stored, written in stripes across the channels that were
in service then. -/
structure PoolObj where
  family : List Byte
  root : List Byte
  man : List Byte
  img : Memory
  /-- the pool channels of its stripes; W is their number -/
  chans : List Nat
  /-- leaves that parity cannot rebuild -/
  badLeaves : List Nat
  deriving DecidableEq, Repr

/-- Pool work that waits for the end of low-supply inhibit (R102), by channel. -/
inductive PoolWork where
  /-- rewrite a weak page -/
  | refresh (k : Nat)
  /-- retire a block -/
  | retire (k : Nat)
  /-- move data for wear, to the given highest count -/
  | move (k maxPe : Nat)
  deriving DecidableEq, Repr

/-- The pool (pages POL, POLk, R98-R102). -/
structure Pool where
  chans : Vector PoolChan 16
  mounted : BitVec 3
  /-- the pool map does not have the map root that the ledger holds (R98) -/
  mapBad : Bool
  objs : List PoolObj
  waiting : List PoolWork
  capMib : Word
  freeMib : Word
  eccDays : Byte
  auditDays : Byte
  refreshed : Half
  deriving DecidableEq, Repr

def Pool.reset : Pool :=
  { chans := Vector.replicate 16 PoolChan.reset, mounted := 0, mapBad := false, objs := [], waiting := [], capMib := 0, freeMib := 0,
    eccDays := 7, auditDays := 30, refreshed := 0 }

end Sys2Proof.Machine
end

