-- ==== Sys2Proof/Machine/ControlTypes.lean ====
section
/-! DEFINITION. Plain data of platform control and the watchdogs (chapters "Holding, releasing and switching hosts"
and "Challenge watchdogs"). -/

namespace Sys2Proof.Machine

/-- Channel states, with the codes of CHn_CTL_STATE.STATE in order. -/
inductive ChState where
  | off
  | held
  | taking
  | ready
  | running
  | proof
  | recovery
  | quarantined
  | safe
  deriving DecidableEq, Repr

/-- Kinds of a hold (R131), with the codes of HOLD_KIND in order. -/
inductive HoldKind where
  | none
  | manager
  | sequence
  | pgood
  | tagLimit
  | impressionLost
  | device
  | config
  | standby
  deriving DecidableEq, Repr

/-- Causes of a transition (CHn_CTL_STATE.CAUSE), codes in order. -/
inductive Cause where
  | none
  | start
  | manager
  | pgood
  | restart
  | powerCycle
  | tagLimit
  | proof
  | recovery
  | quarantine
  | safe
  | device
  | impressionLost
  | config
  | pgoodTimeout
  deriving DecidableEq, Repr

/-- Channel orders in the code order of CHn_CTL_ORDER (R137). -/
inductive Order where
  | hold
  | release
  | quarantine
  | readmit
  | restart
  deriving DecidableEq, Repr

/-- What a SEQUENCE hold is (R131): restart (R138), power cycle on a line (R139), arming (R115), revert (R118), or a
proof held while the control cluster is absent (R17). -/
inductive SeqKind where
  | restart
  | power (line : Nat)
  | arming
  | revert
  | absent
  deriving DecidableEq, Repr

/-- A selection that waits for a take or a local confirmation (R113): plates already found unavailable or failed in
this pass with their statuses, the entry awaited (256: the local confirmation of the plate) and its plate. -/
structure SelWait where
  excluded : List (PlateId × BitVec 15)
  failed : List (PlateId × BitVec 15)
  entry : Nat
  plate : PlateId
  deriving DecidableEq, Repr

/-- CHn_CTL_ORDRES of one manager. -/
structure OrdRes where
  status : BitVec 15
  done : Bool
  order : BitVec 3
  deriving DecidableEq, Repr

def OrdRes.reset : OrdRes := { status := 0, done := false, order := 0 }

/-- Platform control of one channel (R125-R139, page CHn_CTL). -/
structure Ctl where
  state : ChState
  kind : HoldKind
  cause : Cause
  /-- CHn_HOLD# sinks -/
  sink : Bool
  /-- a hold has been ordered and its hold instant is still to come (R130) -/
  holdWait : Bool
  holdT : Nat
  relT : Nat
  releases : Half
  holds : Half
  seq : Option SeqKind
  /-- the sequence's re-release waits for PG_OK or PG_TMO after a pulse: the timeout's device time (R139) -/
  pgTmoAt : Option Nat
  /-- filtered CHn_PGOOD, and since when it has been high (R127) -/
  pgood : Bool
  pgRise : Nat
  pgOk : Bool
  /-- a release has been requested (R135) -/
  relAsked : Bool
  /-- bound to this directory entry (R85), as this plate -/
  bound : Option Nat
  plate : Option PlateId
  /-- the SVN of that plate's manifest -/
  svn : Word
  /-- pinned ranges in force for this release (R38, R91): virtual flash base and length in 4 KiB units -/
  pins : List (Nat × Nat)
  sel : Option SelWait
  /-- the channel's first release after the device start has not come -/
  firstRelease : Bool
  /-- running when STANDBY was entered (R311) -/
  standbyRun : Bool
  /-- held by CONFIG with a rank: released by its rank at START (R136) -/
  ranked : Bool
  tagFails : List Nat
  tagTotal : Word
  ordRes : PerMgr OrdRes
  deriving DecidableEq, Repr

/-- From power-on the sink is latched (R126); no state yet: OFF (R141). PGOOD low until it is sampled. -/
def Ctl.reset : Ctl :=
  { state := .off, kind := .none, cause := .none, sink := true, holdWait := false, holdT := 0, relT := 0, releases := 0,
    holds := 0, seq := Option.none, pgTmoAt := Option.none, pgood := false, pgRise := 0, pgOk := false, relAsked := false,
    bound := Option.none, plate := Option.none, svn := 0, pins := [], sel := Option.none, firstRelease := true, standbyRun := false,
    ranked := false, tagFails := [], tagTotal := 0, ordRes := PerMgr.both OrdRes.reset }

/-- One tripwire line (R128, R139): sequence steps. -/
inductive TwStep where
  | idle
  /-- step 1: waiting for the last HOLD# of these channels -/
  | holding (chans : List Nat)
  /-- step 2: sinking since -/
  | sinking (since : Nat) (chans : List Nat)
  /-- step 3: released; PG_TMO runs for those of the channels that still wait for PG_OK -/
  | waiting (chans : List Nat)
  deriving DecidableEq, Repr

/-- Platform control of the device: lines, ranks, release limiter (R128, R135, R136, R139, R141). -/
structure Platform where
  lines : Vector TwStep 16
  force : PerMgr Half
  /-- the backup lines asserted at the entry to SAFE_HOLD or STANDBY, which keep their state there (R141) -/
  kept : Half
  pulses : Half
  merged : Half
  failOn : Bool
  failUntil : Option Nat
  /-- releases requested and not granted, in order (R135) -/
  queue : List Nat
  /-- release instants of the last SPACING_MS -/
  instants : List Nat
  /-- start ranks are being released: time of the next boundary, next rank -/
  ranksActive : Bool
  ranksBegun : Bool
  nextBoundary : Nat
  nextRank : Nat
  /-- ranked channels that became READY after their rank's boundary, in that order -/
  late : List Nat
  deriving DecidableEq, Repr

def Platform.reset : Platform :=
  { lines := Vector.replicate 16 .idle, force := PerMgr.both 0, kept := 0, pulses := 0, merged := 0, failOn := false,
    failUntil := none, queue := [], instants := [], ranksActive := false, ranksBegun := false, nextBoundary := 0,
    nextRank := 0, late := [] }

/-- The ledger's watchdog record of a channel (R158). -/
structure WdgRec where
  total : Word
  consec : Byte
  cause : Byte
  startNum : Half
  time : DWord
  deriving DecidableEq, Repr

def WdgRec.zero : WdgRec := { total := 0, consec := 0, cause := 0, startNum := 0, time := 0 }

/-- Causes of an expiry (R158). -/
inductive ExpCause where
  | close
  | early
  | badToken
  | clockLost
  deriving DecidableEq, Repr

/-- Channel watchdog (R144-R159, page CHn_WDG). -/
structure Wdg where
  clksel : Bool
  keyed : Bool
  counted : Bool
  violN : BitVec 4
  ladder : Bool
  auto : Bool
  prescale : BitVec 4
  open_ : Half
  close_ : Half
  armed : Bool
  /-- running: counts from the edge numbered `ref` of the 1 µs grid of device time on, `base` ticks having been counted before; stopped: it
  holds those (R144) -/
  counting : Bool
  ref : Nat
  base : Nat
  /-- frozen with this many ticks counted (R168) -/
  frozen : Option Nat
  viols : BitVec 4
  ext : Word
  extUsed : Bool
  chal : DWord
  seq : DWord
  last : BitVec 3
  step : BitVec 3
  clkFault : Bool
  vEarly : Half
  vBad : Half
  xGranted : Half
  xRefused : Half
  /-- counts as the registers show them, and as the ledger holds them -/
  shown : WdgRec
  ledger : WdgRec
  pending : Bool
  /-- K_wdg[n] under KEY_SRC = 0 -/
  key : List Byte
  deriving DecidableEq, Repr

/-- Reset values of page CHn_WDG. -/
def Wdg.reset : Wdg :=
  { clksel := false, keyed := false, counted := false, violN := 1, ladder := true, auto := false, prescale := 10,
    open_ := 0, close_ := 0, armed := false, counting := false, ref := 0, base := 0, frozen := none, viols := 0, ext := 0,
    extUsed := false, chal := 0, seq := 0, last := 0, step := 0, clkFault := false, vEarly := 0, vBad := 0, xGranted := 0,
    xRefused := 0, shown := .zero, ledger := .zero, pending := false, key := [] }

/-- Manager watchdog (R160-R162, page MWD). -/
structure Mwd where
  armed : Bool
  lost : Bool
  keyed : Bool
  prescale : BitVec 4
  auto : Bool
  /-- AUTO has loaded and armed it since the last cold reset (R160) -/
  loaded : Bool
  open_ : Half
  close_ : Half
  ref : Nat
  /-- the ticks counted when the manager became lost, where c stands until the reclaim (R161) -/
  stopped : Nat
  chal : DWord
  seq : DWord
  last : BitVec 3
  tokenLo : Word
  lostCnt : Half
  badCnt : Nat
  deriving DecidableEq, Repr

def Mwd.reset : Mwd :=
  { armed := false, lost := false, keyed := false, prescale := 10, auto := false, loaded := false, open_ := 0, close_ := 0, ref := 0,
    stopped := 0, chal := 0, seq := 0, last := 0, tokenLo := 0, lostCnt := 0, badCnt := 0 }

/-- Internal watchdogs and the internal ladder (R163-R167). -/
structure IntWdg where
  src : BitVec 3
  step : BitVec 3
  consec : BitVec 3
  total : Half
  ltime : DWord
  /-- device time since which the device has been RUNNING without an internal expiry -/
  cleanFrom : Nat
  halted : Bool
  deriving DecidableEq, Repr

def IntWdg.reset : IntWdg :=
  { src := 0, step := 0, consec := 0, total := 0, ltime := 0, cleanFrom := 0, halted := false }

end Sys2Proof.Machine
end

