-- ==== Sys2Proof/Machine/AttestTypes.lean ====
section
/-! DEFINITION. Plain data of Tracing, the quote, the SPDM responder and the observer ports (chapter "Tracing,
measurement and identity"). -/

namespace Sys2Proof.Machine

/-- A Tracing record before it is numbered (R177): what its type's row lists, in the row's order, and v. -/
structure TraceEvt where
  time : Nat
  /-- start count at the event (R158) -/
  start : Word
  type : Half
  ch : Half
  /-- 0 to 7: the register it extends; 0xFF otherwise -/
  meas : Byte
  info : List Nat
  v : Digest
  deriving DecidableEq, Repr

/-- A record in the ring. -/
structure TraceRec where
  seq : Nat
  epoch : Word
  evt : TraceEvt
  deriving DecidableEq, Repr

/-- The ring header's content (R179); NEWEST stands in the role of SEQ. -/
structure TraceHdr where
  oldest : Nat
  epoch : Word
  base : Digest
  run : Digest
  deriving DecidableEq, Repr

/-- Tracing (R177-R181, page ATT). -/
structure Tracing where
  hdr : LPair TraceHdr
  ring : List TraceRec
  queue : List TraceEvt
  /-- records that found the queue full: count, time of the first and of the last -/
  lost : Nat
  lostFrom : Nat
  lostTo : Nat
  mark : PerMgr DWord
  gaps : Half
  unreadLost : Half
  /-- summary counters (R178): type, channel ↦ count, first and last time, count last written and when -/
  summaries : List ((Nat × Nat) × (Nat × Nat × Nat) × (Nat × Nat))
  deriving DecidableEq, Repr

def Tracing.reset : Tracing :=
  { hdr := { c0 := .zero, c1 := .zero }, ring := [], queue := [], lost := 0, lostFrom := 0, lostTo := 0,
    mark := PerMgr.both 0, gaps := 0, unreadLost := 0, summaries := [] }

/-- The TCG DiceTcbInfo extension of a certificate (R170, R174). -/
structure TcbInfo where
  vendor : String
  model : String
  layer : Nat
  index : Option Nat
  fwids : List Byte
  svn : Nat
  debug : Bool
  deriving DecidableEq, Repr

/-- What a certificate that the device issues holds (R170, R174): the subject's public key, the serial number and the validity where they are
stated, DiceTcbInfo, and of a host certificate FAMILY and POLVER in Larmany's extension. -/
structure CertBody where
  key : List Byte
  serial : Option (List Byte)
  validity : Option (String × String)
  tcb : TcbInfo
  host : Option (List Byte × Nat)
  deriving DecidableEq, Repr

/-- Per-manager part of page ATT (R176, R190). -/
structure AttView where
  extData : Vector Word 12
  extRelt : Word
  extStatus : BitVec 15
  extDone : Bool
  deriving DecidableEq, Repr

def AttView.reset : AttView :=
  { extData := Vector.replicate 12 0, extRelt := 0, extStatus := 0, extDone := false }

/-- Identity and attestation of the device (R169-R171, page ATT). -/
structure Attest where
  idValid : Bool
  keysReady : Bool
  hFw : Digest
  wall : DWord
  quotes : Half
  spdmSigns : Half
  views : PerMgr AttView
  /-- the alias certificates of the ledger, ECDSA and ML-DSA-65, and the H_fw that they carry; none before the first start -/
  certs : Option (Digest × List Byte × List Byte)
  deriving DecidableEq, Repr

def Attest.reset : Attest :=
  { idValid := false, keysReady := false, hFw := Digest.zero, wall := 0, quotes := 0,
    spdmSigns := 0, views := PerMgr.both AttView.reset, certs := none }

/-- SPDM error codes the spec names (R171, R185-R188). -/
inductive SpdmError where
  | unsupportedRequest
  | unspecified
  | invalidRequest
  | sessionLimitExceeded
  /-- DSP0274's own: a request out of its order, another version, a response that goes out in chunks -/
  | unexpectedRequest
  | versionMismatch
  | largeResponse
  deriving DecidableEq, Repr

/-- A measurement block: index, DMTF value type, digest (R187). -/
structure MeasBlock where
  index : Nat
  vtype : Nat
  value : Digest
  deriving DecidableEq, Repr

/-- What an SPDM response carries (R185-R188); byte layouts are DSP0274's. -/
inductive SpdmReply where
  | none
  | version (v12 v13 : Bool)
  | capabilities (flags : List Nat) (dataTransferSize maxMsg : Nat)
  | algorithms (asym hash meas spec dhe aead sched : Nat)
  | digests (slotMask : Nat) (d : Digest)
  | certificate (portion : List Byte) (remainder : Nat)
  | challengeAuth (summary : Digest) (sig : List Byte)
  | measurements (count : Nat) (blocks : List MeasBlock) (sig : Option (List Byte))
  | keyExchange (session heartbeat : Nat) (sig : List Byte)
  | finish
  | heartbeatAck
  | endSessionAck
  | chunkSendAck (last : Bool)
  | chunk (data : List Byte) (last : Bool)
  | doeTypes (types : List Nat)
  | error (e : SpdmError)
  deriving DecidableEq, Repr

/-- A secured session (R188). -/
structure Session where
  id : Nat
  established : Bool
  lastMsg : Nat
  deriving DecidableEq, Repr

/-- An Ovdel response over MCTP (R236): the completion entry's fields, and the data in place of DPTR. -/
structure OvdelReply where
  cid : Half
  status : BitVec 15
  more : Bool
  info : Word
  result : List Byte
  data : List Byte
  deriving DecidableEq, Repr

/-- One of the eight SPDM endpoints (R185): 0 and 1 DOE of functions A and B, 2 and 3 MCTP of functions A and B, 4 to 7 MCTP of
I3C ports 0 to 3. -/
structure Endpoint where
  /-- 0 none, 12 or 13 once a version is in use -/
  version : Nat
  versioned : Bool
  caps : Bool
  algs : Bool
  sessions : List Session
  /-- bytes of a large request gathered so far, and the sequence number of the next chunk -/
  chunkIn : List Byte
  chunkSeq : Nat
  /-- bytes of a large response still to be fetched by CHUNK_GET -/
  chunkOut : List Byte
  chunkOutSeq : Nat
  reply : SpdmReply
  /-- version of the Ovdel messages on this MCTP endpoint (R236) -/
  ovdel : Half
  /-- Ovdel responses sent, newest last -/
  answers : List OvdelReply
  deriving DecidableEq, Repr

def Endpoint.reset : Endpoint :=
  { version := 0, versioned := false, caps := false, algs := false, sessions := [], chunkIn := [], chunkSeq := 0,
    chunkOut := [], chunkOutSeq := 0, reply := .none, ovdel := 0x0103, answers := [] }

end Sys2Proof.Machine
end

