-- ==== Sys2Proof/Machine/RingTypes.lean ====
section
/-! DEFINITION. Plain data of the Ovdel rings, events, outputs to the managers, Burin, the hash farm's jobs and the
DRBG (chapters "Ovdel rings and command set", "Register pages" and "Burin public-key engine and hash farm"). -/

namespace Sys2Proof.Machine

/-! ## Rings (R208-R224) -/

/-- A consumed command that has not completed (R217): CID, opcode, first unit, units, FENCE. -/
structure InFlight where
  cid : Half
  opc : Half
  start : Nat
  units : Nat
  fence : Bool
  fast : Bool
  done : Bool
  /-- its units as consumed: the SQ copy (R217) -/
  raw : List Byte
  deriving DecidableEq, Repr

/-- A submission queue. Positions count units from 0 to DEPTH - 1. -/
structure Sq where
  depth : Nat
  base : DWord
  cq : Byte
  cls : BitVec 2
  tail : Nat
  cons : Nat
  head : Nat
  phase : Bool
  retracted : Bool
  prefetch : Nat
  fault : Bool
  promoted : Bool
  /-- the tail doorbells that still cover units from CONS on: TAIL and device time, oldest first -/
  posts : List (Nat × Nat)
  /-- device time since which the ring engine has fetched nothing that it could (R163) -/
  fetchFrom : Nat
  /-- times of the re-reads still due after a unit with a wrong phase (R213) -/
  rereads : List Nat
  flight : List InFlight
  /-- fast-path entries consumed out of order during a restart (R19): their first units -/
  early : List Nat
  /-- DELETE_SQ waits for completions -/
  deleting : Bool
  /-- the entry at CONS is not to be consumed now: a wrong phase (R213) -/
  held : Bool
  /-- the entry at CONS waits for earlier entries, by a FENCE (R216) -/
  fenced : Bool
  /-- CIDs of posted entries that an ABORT has met before they were consumed (R233) -/
  toAbort : List Half
  deriving DecidableEq, Repr

/-- Where the arbitration of one class stands (R222): the half served last, and the last queue served of each half. -/
structure ArbClass where
  last : Mgr
  queue : PerMgr Nat
  deriving DecidableEq, Repr

/-- A completion queue. -/
structure Cq where
  depth : Nat
  base : DWord
  vector : Nat
  ien : Bool
  event : Bool
  coalN : Nat
  coalUs : Nat
  tail : Nat
  head : Nat
  phase : Bool
  reserved : Nat
  fault : Bool
  /-- entries written since the last signal, and when the first of them was -/
  unsignalled : Nat
  firstAt : Nat
  deriving DecidableEq, Repr

/-- An event's data: code, channel and the words of its data field (R238). -/
structure Event where
  code : Half
  ch : Half
  data : List Nat
  deriving DecidableEq, Repr

/-- A pending event slot (R221). -/
structure EvtSlot where
  ev : Event
  time : Nat
  count : Half
  deriving DecidableEq, Repr

/-- A completion entry (R218). -/
structure Completion where
  result : List Byte
  sqhd : Half
  sqid : Half
  cid : Half
  status : BitVec 15
  more : Bool
  info : Word
  phase : Bool
  deriving DecidableEq, Repr

/-- The 32 bytes of a CQ entry (R218). -/
def Completion.bytes (c : Completion) : List Byte :=
  slice c.result 0 16 ++ leBytes 2 c.sqhd.toNat ++ leBytes 2 c.sqid.toNat ++ leBytes 2 c.cid.toNat ++
    leBytes 2 (c.status.toNat + 0x8000 * c.more.toNat) ++ leBytes 4 c.info.toNat ++ [0, 0, 0, if c.phase then 0x80 else 0]

/-- What the device has sent to a manager, newest last. A completion stands for its 32 bytes, `Completion.bytes`. -/
inductive Output where
  | completion (cq : Byte) (at_ : Nat) (c : Completion)
  | eventEntry (cq : Byte) (at_ : Nat) (slot : EvtSlot) (phase : Bool)
  /-- bytes written to the command's DPTR or RPTR buffer -/
  | buffer (sq : Byte) (cid : Half) (data : List Byte)
  | msix (vector : Nat)
  deriving DecidableEq, Repr

/-- One line of the ERROR log page. -/
structure ErrLine where
  time : Nat
  sq : Half
  cid : Half
  opc : Half
  status : BitVec 15
  info : Word
  deriving DecidableEq, Repr

/-- One manager's half of the ring engine and its EVT page. -/
structure Ring where
  en : Bool
  rdy : Bool
  fatal : Bool
  asqDepth : BitVec 13
  acqDepth : BitVec 13
  asq : DWord
  acq : DWord
  /-- version in force: 0x0103 before NEGOTIATE -/
  version : Half
  sqs : SMap Sq
  cqs : SMap Cq
  dbIgnored : Byte
  badEntry : Byte
  dmaErr : Byte
  errQid : Byte
  errSq : Bool
  errReason : BitVec 3
  qselQid : Byte
  qselCq : Bool
  slots : List EvtSlot
  evtCq : Option Byte
  mask : Byte
  evtLost : Half
  errLog : List ErrLine
  deriving DecidableEq, Repr

def Ring.reset : Ring :=
  { en := false, rdy := false, fatal := false, asqDepth := 0, acqDepth := 0, asq := 0, acq := 0, version := 0x0103,
    sqs := [], cqs := [], dbIgnored := 0, badEntry := 0, dmaErr := 0, errQid := 0, errSq := false, errReason := 0,
    qselQid := 0, qselCq := false, slots := [], evtCq := none, mask := 0xFF, evtLost := 0, errLog := [] }

/-- The common page header of one view of one page (R245). -/
structure Hdr where
  view : Bool
  irqEn : BitVec 2
  shdDone : Bool
  ignored : Bool
  size : Bool
  errOffset : BitVec 12
  result : BitVec 4
  shdErr : Word
  deriving DecidableEq, Repr

def Hdr.reset : Hdr :=
  { view := false, irqEn := 0, shdDone := false, ignored := false, size := false, errOffset := 0, result := 0, shdErr := 0 }

/-- One MSI-X table entry: masked or not, and its pending bit (R252). -/
structure MsixEntry where
  addr : DWord
  data : Word
  masked : Bool
  pend : Bool
  deriving DecidableEq, Repr

/-- The configuration space of a function (R240), as PCIe Base 5.0 numbers its fields: Command, Status, BAR0, Device Control 2, D3hot, MSI-X
Enable and Function Mask, the Uncorrectable Error Status of AER. -/
structure PciCfg where
  command : Half
  status : Half
  bar : DWord
  devCtl2 : Half
  d3 : Bool
  msixEn : Bool
  msixMask : Bool
  aerUncor : Word
  deriving DecidableEq, Repr

def PciCfg.reset : PciCfg :=
  { command := 0, status := 0, bar := 0, devCtl2 := 0, d3 := false, msixEn := false, msixMask := false, aerUncor := 0 }

/-- Memory Space Enable and Bus Master Enable, in D0. -/
def PciCfg.memory (c : PciCfg) : Bool := c.command.getLsbD 1 && !c.d3
def PciCfg.master (c : PciCfg) : Bool := c.command.getLsbD 2 && !c.d3

/-- A register of the configuration space: those with state, the ones that R240 fixes, and any other by its offset. -/
inductive CfgReg where
  | id
  | commandStatus
  | bar0Lo
  | bar0Hi
  | devCtl2
  | powerState
  | msixControl
  | msixTable
  | msixPba
  | aerUncor
  | other (off : Nat)
  deriving DecidableEq, Repr

/-- The state of one manager's view outside its rings: GLB_IRQ_CFG, latches of 64-bit pairs, link and PCI page,
MSI-X entries written so far. -/
structure View where
  irqVector : BitVec 9
  irqEn : Bool
  /-- BAR0 offset of a _HI word ↦ the latched value (R242) -/
  latch : SMap Word
  /-- BAR0 offset of a _LO word ↦ the held value (R242) -/
  held : SMap Word
  linkUp : Bool
  linkSpeed : BitVec 3
  linkWidth : BitVec 4
  retrains : Half
  cfg : PciCfg
  dmaErr : Half
  dmaKind : BitVec 3
  dmaAddr : DWord
  /-- failures logged in AER (R254): kinds, newest last -/
  aer : List Nat
  unmapped : Half
  sizeErr : Half
  eid : Byte
  eidValid : Bool
  msgs : Half
  /-- the last configuration request's answer: Request Retry Status or normal (R244), and the value that it read -/
  cfgRetry : Bool
  cfgValue : Word
  msix : SMap MsixEntry
  /-- PCIEn_WAKE# asserted (R311) -/
  wake : Bool
  out : List Output
  /-- the value a BAR0 read returned last -/
  readValue : Word
  deriving DecidableEq, Repr

def View.reset : View :=
  { irqVector := 0, irqEn := false, latch := [], held := [], linkUp := false, linkSpeed := 1, linkWidth := 1,
    retrains := 0, cfg := PciCfg.reset, dmaErr := 0, dmaKind := 0, dmaAddr := 0, aer := [], unmapped := 0, sizeErr := 0,
    eid := 0, eidValid := false, msgs := 0, cfgRetry := true, cfgValue := 0, msix := [], wake := false, out := [], readValue := 0 }

/-! ## Burin, hash farm jobs, DRBG -/

/-- Owner of a job: INTERNAL, or a manager and the queue that carried it. -/
inductive Owner where
  | none
  | internal
  | queue (m : Mgr) (q : Byte)
  deriving DecidableEq, Repr

/-- One operand entry with its bytes as read (R192): ROLE and bytes. -/
structure Operand where
  role : Byte
  bytes : List Byte
  deriving DecidableEq, Repr

/-- A Burin job (R192-R205). `cls`: 0 BULK, 1 NORMAL, 2 URGENT, 3 SYSTEM. -/
structure BurinJob where
  id : Nat
  owner : Owner
  cid : Half
  cls : BitVec 2
  arrived : Nat
  promoted : Bool
  op : Byte
  pset : Byte
  flags : Byte
  keySlot : Half
  outSlot : Half
  hash : Byte
  modbits : Word
  expbits : Word
  operands : List Operand
  /-- the key taken from KEY_SLOT when the job loaded -/
  key : List Byte
  loaded : Bool
  /-- the slot's key counter when the command was checked -/
  keyStamp : Nat
  /-- computation time in ns before its last yield, and since when it computes now -/
  ran : Nat
  since : Nat
  deriving DecidableEq, Repr

/-- One Burin core. STATE: 0 IDLE, 1 RUNNING, 2 WIPING, 3 SELFTEST, 4 OUT. -/
structure Core where
  state : BitVec 3
  job : Option BurinJob
  /-- sealed contexts, at most two -/
  susp : List BurinJob
  lastOwner : Owner
  lastCycles : Word
  jobs : Half
  yields : Half
  faults : Byte
  aborts : Byte
  wipes : Half
  /-- leaves service after its running job (TAKE_OUT) -/
  outAfter : Bool
  /-- the operand memory holds zero -/
  wiped : Bool
  /-- device time at which a self-test ends, and whether one has failed since the device start (R201) -/
  testEnd : Nat
  dead : Bool
  /-- device time at which its last wipe of 8 µs ends (R204) -/
  wipeEnd : Nat
  deriving DecidableEq, Repr

def Core.reset : Core :=
  { state := 0, job := none, susp := [], lastOwner := .none, lastCycles := 0, jobs := 0, yields := 0, faults := 0,
    aborts := 0, wipes := 0, outAfter := false, wiped := true, testEnd := 0, dead := false, wipeEnd := 0 }

/-- Burin as a whole. -/
structure Burin where
  cores : Vector Core 4
  waiting : List BurinJob
  nextId : Nat
  /-- device times of recent faults (R202) -/
  recent : List Nat
  deriving DecidableEq, Repr

def Burin.reset : Burin := { cores := Vector.replicate 4 Core.reset, waiting := [], nextId := 0, recent := [] }

/-- A sealed hash context of a manager (R195): ALG, key, bytes so far. -/
structure HashCtx where
  alg : Byte
  key : List Byte
  data : List Byte
  deriving DecidableEq, Repr

/-- A queued HASH_OP job. -/
structure HashJob where
  mgr : Mgr
  sq : Byte
  cid : Half
  alg : Byte
  mode : Byte
  ctx : Byte
  key : List Byte
  outLen : Nat
  data : List Byte
  /-- the class of its SQ (R222) -/
  cls : BitVec 2
  /-- a device warm reset closed its context: a START opens it again when the job runs again (R196, R217) -/
  again : Bool
  deriving DecidableEq, Repr

/-- One manager's hash work: contexts, jobs, counters (page HSH from 0x060). -/
structure HashWork where
  ctxs : SMap HashCtx
  jobs : List HashJob
  done : Half
  bytes : DWord
  deriving DecidableEq, Repr

def HashWork.reset : HashWork := { ctxs := [], jobs := [], done := 0, bytes := 0 }

/-- The DRBG and its entropy source (page DRB). KEY_STATE: 0 INIT, 1 READY, 2 BLOCKED; GEN_STATE: 0 INIT, 1 READY,
2 UNSEEDED. -/
structure Drbg where
  keyState : BitVec 2
  genState : BitVec 2
  rctFail : Bool
  aptFail : Bool
  startupFail : Bool
  reseeds : Half
  healthFails : Half
  /-- requests that GENERAL has served since its last reseed (R206, R207) -/
  genReqs : Nat
  lastReseed : Nat
  lastTest : Nat
  deriving DecidableEq, Repr

def Drbg.reset : Drbg :=
  { keyState := 0, genState := 0, rctFail := false, aptFail := false, startupFail := false, reseeds := 0,
    healthFails := 0, genReqs := 0, lastReseed := 0, lastTest := 0 }

end Sys2Proof.Machine
end

