-- ==== Sys2Proof/Machine/SecurityTypes.lean ====
section
/-! DEFINITION. Plain data of policy bundles, the standing configuration, the key store and vault, tamper, the OTP
array, power, clocks and the device state (chapters "Stencil filtering and flash-side ports", "Challenge watchdogs",
"Plates, proof boot and recovery", "Key store, key updates and tamper", "OTP, lifecycle and calibration" and "Power,
reset, clocks and configuration"). -/

namespace Sys2Proof.Machine

/-! ## Owner policy (R69, R78, R111, R155, R269). The bundle's byte layout is not in the spec (log entry 20). -/

/-- Watchdog section (R155). -/
structure WdgPol where
  autoArm : Bool
  clksel : Bool
  keyed : Bool
  counted : Bool
  ladder : Bool
  violN : BitVec 4
  prescale : BitVec 4
  open_ : Half
  close_ : Half
  restarts : BitVec 4
  safeN : BitVec 4
  cleanMin : BitVec 11
  extMax : Half
  keySrc : Bool
  keySlot : Byte
  debug : Bool
  deriving DecidableEq, Repr

/-- The defaults of R155's table. -/
def WdgPol.default : WdgPol :=
  { autoArm := false, clksel := false, keyed := false, counted := false, ladder := true, violN := 1, prescale := 10,
    open_ := 0, close_ := 0, restarts := 1, safeN := 3, cleanMin := 60, extMax := 0, keySrc := false, keySlot := 0,
    debug := false }

/-- Plate policy section: sources, local regions (base, length in 4 KiB units), proof settings. -/
structure PlatePol where
  family : List Byte
  srcA : Byte
  srcB : Byte
  srcRec : Byte
  locA : Nat × Nat
  locB : Nat × Nat
  locRec : Nat × Nat
  proofTmo : Half
  proofTries : Byte
  hostArm : Bool
  deriving DecidableEq, Repr

/-- The defaults of the plate policy table. -/
def PlatePol.default : PlatePol :=
  { family := [], srcA := 1, srcB := 1, srcRec := 0, locA := (0, 0), locB := (0, 0), locRec := (0, 0), proofTmo := 300,
    proofTries := 2, hostArm := false }

/-- Image-family section: SIGNERS as (ECDSA digest, ML-DSA digest), REQUIRE_PQ, REQUIRE_ENC, ADV_ON_ACCEPT. -/
structure FamPol where
  family : List Byte
  signers : List (List Byte × List Byte)
  requirePq : Bool
  requireEnc : Bool
  advOnAccept : Bool
  deriving DecidableEq, Repr

def FamPol.default : FamPol :=
  { family := [], signers := [], requirePq := false, requireEnc := false, advOnAccept := false }

/-- Everything a bundle sets for one channel. -/
structure ChanPol where
  present : Bool
  tbl : STable
  hostUpd : BitVec 3
  recEntry : Bool
  wdg : WdgPol
  plate : PlatePol
  fam : FamPol
  /-- version and digest of the bundle that last set the section -/
  version : Word
  digest : Digest
  deriving DecidableEq, Repr

/-- A channel with no section (R69, the policy Reset of chapter "Scope"). -/
def ChanPol.default : ChanPol :=
  { present := false, tbl := STable.reset, hostUpd := 0, recEntry := false, wdg := .default, plate := .default,
    fam := .default, version := 0, digest := Digest.zero }

/-- Tamper section: LEVEL of the ten sources, LOOP_N. -/
structure TamperPol where
  levels : BitVec 20
  loopN : Nat
  /-- version and digest of the bundle whose tamper section is in force (R187) -/
  bundle : Option (Word × Digest)
  deriving DecidableEq, Repr

/-- Floors of R267 (MESH 3, LIGHT 2), LOOP_N 2. -/
def TamperPol.default : TamperPol := { levels := 0x00203, loopN := 2, bundle := none }

/-- A signature block (R78): ECDSA key and signature, ML-DSA-65 key and signature (empty when absent). -/
structure SigBlock where
  ecKey : List Byte
  ecSig : List Byte
  pqKey : List Byte
  pqSig : List Byte
  deriving DecidableEq, Repr

/-- A Runil policy bundle, by content. `body` are the signed bytes. -/
structure Bundle where
  format : Nat
  version : Word
  identity : List Byte
  bitmap : BitVec 128
  sections : List (Fin 128 × ChanPol)
  tamper : Option TamperPol
  body : List Byte
  sig : SigBlock
  deriving DecidableEq, Repr

/-! ## Standing configuration (R312-R317) -/

/-- A channel profile of 96 bytes. -/
structure ChanCfg where
  enabled : Bool
  isLocal : Bool
  rgrpEn : Bool
  bgrpEn : Bool
  pgGate : Bool
  pgAct : Bool
  idOverride : Bool
  vfLog2 : Nat
  rank : Nat
  rgrp : Nat
  bgrp : Nat
  pgSettle : Nat
  pgTmo : Nat
  passProto : Nat
  devMhz : Nat
  keepBlk : Nat
  scrBlk : Nat
  /-- pinned ranges: base and length in 4 KiB units -/
  pins : List (Nat × Nat)
  jedec : List Byte
  deriving DecidableEq, Repr

/-- A disabled profile of the factory defaults (R317). -/
def ChanCfg.default : ChanCfg :=
  { enabled := false, isLocal := false, rgrpEn := false, bgrpEn := false, pgGate := false, pgAct := false,
    idOverride := false, vfLog2 := 0, rank := 0xFF, rgrp := 0, bgrp := 0, pgSettle := 0, pgTmo := 0, passProto := 0,
    devMhz := 0, keepBlk := 0, scrBlk := 0, pins := [], jedec := [] }

/-- The device section of 256 bytes. -/
structure DevCfg where
  primary : Nat
  mwdAuto : PerMgr Bool
  mwdSlot : PerMgr Nat
  spacingMs : Nat
  relWaitS : Nat
  failMode : Bool
  tries : Nat
  failPulseMs : Nat
  cleanS : Nat
  stbyS : Nat
  periodH : Nat
  eccDays : Nat
  auditDays : Nat
  katS : Nat
  faultN : Nat
  faultS : Nat
  reseedMs : Nat
  tfLimit : Nat
  tfAction : Bool
  obsSecure : Bool
  loopN : Nat
  i3c : List Nat
  /-- TWL_CFGt images -/
  twl : List Nat
  levels : Nat
  /-- WARN_OFS, BROWN_OFS of each rail -/
  rails : List (Nat × Nat)
  tampLow : Nat
  tampHigh : Nat
  mwdWin : PerMgr Nat
  mwdMode : PerMgr Nat
  deriving DecidableEq, Repr

/-- The factory defaults (R317). -/
def DevCfg.default : DevCfg :=
  { primary := 0, mwdAuto := PerMgr.both false, mwdSlot := PerMgr.both 0, spacingMs := 20, relWaitS := 2,
    failMode := false, tries := 3, failPulseMs := 0, cleanS := 600, stbyS := 3600, periodH := 24, eccDays := 7,
    auditDays := 30, katS := 60, faultN := 3, faultS := 60, reseedMs := 1000, tfLimit := 0, tfAction := false,
    obsSecure := true, loopN := 2, i3c := List.replicate 4 0, twl := List.replicate 16 0, levels := 0,
    rails := List.replicate 21 (0, 0), tampLow := 0, tampHigh := 0, mwdWin := PerMgr.both 0, mwdMode := PerMgr.both 0 }

/-! ## Keys, vault, tamper -/

/-- A key-store slot (R255-R258). Material absent: a descriptor only. ORIGIN: 0 none, 1 key update, 2 OUT_TO_SLOT by A,
3 by B, 4 device. -/
structure KeySlot where
  type : Byte
  usage : Half
  access : BitVec 3
  persist : Bool
  origin : BitVec 4
  label : List Byte
  material : Option (List Byte)
  uses : Half
  /-- rises at every change of the slot (R205) -/
  stamp : Nat
  deriving DecidableEq, Repr

def KeySlot.empty : KeySlot :=
  { type := 0, usage := 0, access := 0, persist := false, origin := 0, label := [], material := none, uses := 0, stamp := 0 }

/-- The keys that the DEVICE slots hold (R255). -/
inductive DevKey where
  | img
  | tag
  | keep
  | idEc
  | idPq
  | aliasEc
  | aliasPq
  | cdi
  | vaultRoot
  | kupdEc
  | kupdPq
  /-- the seal key of a Burin core (R203) -/
  | seal (core : Fin 4)
  deriving DecidableEq, Repr

/-- The slot of a DEVICE key. DESIGN CHOICE (log entry 77): the order of R255, with one seal key for each core and slot 15 empty. -/
def DevKey.slot : DevKey → Fin 256
  | .img => 0 | .tag => 1 | .keep => 2 | .idEc => 3 | .idPq => 4 | .aliasEc => 5 | .aliasPq => 6 | .cdi => 7 | .vaultRoot => 8
  | .kupdEc => 9 | .kupdPq => 10 | .seal k => ⟨11 + k.1, by omega⟩

/-- TYPE and USAGE of a DEVICE key. DESIGN CHOICE (log entry 77): the type of R256 that fits its material, with a usage of that type. -/
def DevKey.kind : DevKey → Byte × Half
  | .img => (0x51, 0x80)
  | .tag | .keep | .seal _ => (0x50, 0x100)
  | .idEc | .aliasEc => (0x02, 1)
  | .idPq | .aliasPq => (0x21, 1)
  | .cdi | .vaultRoot => (0x60, 0x20)
  | .kupdEc => (0x02, 4)
  | .kupdPq => (0x31, 0x10)

/-- A vault entry: slot number and slot. -/
structure VaultRec where
  counter : DWord
  /-- which draw of the KEY DRBG made SALT; none: all 0xFF (zeroised) -/
  salt : Option Nat
  entries : List (Nat × KeySlot)
  deriving DecidableEq, Repr

/-- The key store and the vault in the ledger (R255-R266, page KEY). -/
structure KeyStore where
  slots : Vector KeySlot 256
  vault : LPair VaultRec
  /-- the raw COUNTER fields of invalid copies (R260) -/
  rawCounter : DWord
  sel : Byte
  accepted : Half
  refused : Half
  lastStatus : BitVec 15
  transport : Bool
  /-- K_keep's salt, when one is derived (R87) -/
  keepSalt : Option Nat
  deriving DecidableEq, Repr

def KeyStore.reset : KeyStore :=
  { slots := Vector.replicate 256 KeySlot.empty, vault := { c0 := .zero, c1 := .zero }, rawCounter := 0, sel := 0,
    accepted := 0, refused := 0, lastStatus := 0, transport := false, keepSalt := none }

/-- Tamper (R267-R274, page TMP). -/
structure Tamper where
  active : BitVec 10
  latched : BitVec 10
  lock : Bool
  /-- the ledger word of R269: LOCK and LATCHED -/
  ledger : Bool × BitVec 10
  loopKind : Vector (BitVec 3) 4
  loopFails : Vector Nat 4
  trips : Half
  burnishes : Half
  last : BitVec 5
  btime : DWord
  /-- a Burnish since the last device start (R272, R273) -/
  burnt : Bool
  deriving DecidableEq, Repr

/-- LAST reads 0x1F. -/
def Tamper.reset : Tamper :=
  { active := 0, latched := 0, lock := false, ledger := (false, 0), loopKind := Vector.replicate 4 0,
    loopFails := Vector.replicate 4 0, trips := 0, burnishes := 0, last := 0x1F, btime := 0, burnt := false }

/-! ## OTP, power, clocks, device -/

/-- Region integrity (R281), codes of OTP_RSTAT. -/
inductive RegionState where
  | blank
  | open_
  | finalising
  | good
  | marginal
  | failed
  deriving DecidableEq, Repr

/-- The fuse array at both margins (a word that nothing has blown is 0) and the shadow (R275-R293, page OTP, LCS). -/
structure Otp where
  normal : SMap Word
  strict : SMap Word
  shadow : SMap Word
  regions : Vector RegionState 6
  state : BitVec 3
  region : BitVec 3
  vppOk : Bool
  pumpReady : Bool
  marg : Half
  repulses : Half
  pulses : Half
  failed : Half
  pumpOnly : Bool
  lastStatus : BitVec 15
  lastRegion : BitVec 3
  fwKey : BitVec 2
  /-- firmware keys 1 to 3 and owner entries that class K makes unusable, as at the last entry to SHADOW (R279) -/
  fwUnusable : BitVec 4
  ownUnusable : BitVec 4
  /-- the LPO trim is unusable (R280, R282) -/
  lpoUnusable : Bool
  /-- DEV has been left since the last SHADOW (R292) -/
  debugLeft : Bool
  /-- the OTP command on which Graver makes no progress, and its region (R163) -/
  busy : Option (Src × Nat)
  deriving DecidableEq, Repr

/-- What the resolved VARIANT region enables (R280, R282). -/
structure Part where
  hosts : Nat
  fps : Nat
  pools : Nat
  pcie1 : Bool
  pq : Bool
  debug : Bool
  deriving DecidableEq, Repr

/-- Supplies (pages PWR, CAL; R296-R302). -/
structure Power where
  inhibit : Bool
  pwrWarn : Bool
  sysPgood : Bool
  warn : BitVec 21
  seen : BitVec 21
  sel : Byte
  calSel : Byte
  warns : Half
  /-- rail of a BROWNOUT reset, reported at the start that follows (R301) -/
  brownRail : Option Nat
  deriving DecidableEq, Repr

/-- Nominal voltage of the rails in mV, by index (R296). -/
def railNominals : List Nat :=
  [750, 800, 800, 1800, 1800, 1800, 1800, 1800, 1800, 1800, 1800, 1800, 1800, 1800, 1800, 1200, 1800, 1050, 500, 850, 1800]

/-- No rail has been at WARN, SYS_PGOOD is high. -/
def Power.reset : Power :=
  { inhibit := false, pwrWarn := false, sysPgood := true, warn := 0, seen := 0, sel := 0,
    calSel := 0, warns := 0, brownRail := none }

/-- Clocks (page CLK). -/
structure Clk where
  refclk : Bool
  fabric : Bool
  mem : Bool
  pool : Bool
  pcie : PerMgr Bool
  lpoTrimmed : Bool
  deriving DecidableEq, Repr

def Clk.reset : Clk :=
  { refclk := false, fabric := false, mem := false, pool := false, pcie := PerMgr.both false, lpoTrimmed := false }

/-- Ledger work that waits for the supply (R300), in the order requested. -/
inductive LedgerWork where
  | watchdog (n : Nat)
  | accept (n : Nat)
  | revert (n : Nat)
  | plateBad (n : Nat) (p : PlateId) (status : Nat)
  /-- a CH_RELEASE of a SAFE channel: its clear of CONSEC, before the channel moves to TAKING (R159) -/
  | release (n : Nat)
  /-- the REJECTED commit of the device firmware's proof plate (R123) -/
  | devfw
  /-- its acceptance, by a manager or by the self-test (R123) -/
  | devfwAccept (by_ : Nat)
  deriving DecidableEq, Repr

/-- The ledger as a unit (page LED). -/
structure Ledger where
  ready : Bool
  waiting : List LedgerWork
  /-- the check value of the ledger key that the ledger holds (R284); none before the first start -/
  keyCheck : Option DWord
  /-- the root of the pool map that the ledger holds (R98); none before the pool is first written -/
  mapRoot : Option Digest
  /-- the SQ and CID of the command that made the last commit, as the ledger records them with it (R19) -/
  last : Option Src
  commits : Word
  checkFail : Half
  conflict : Half
  deriving DecidableEq, Repr

def Ledger.reset : Ledger := { ready := false, waiting := [], keyCheck := none, mapRoot := none, last := none, commits := 0, checkFail := 0, conflict := 0 }

/-- One I3C target port (page I3C, R189). -/
structure I3cPort where
  dynAddr : BitVec 7
  daValid : Bool
  staticAddr : BitVec 7
  saEn : Bool
  ibiEn : Bool
  rx : Half
  dropped : Half
  protocol : Half
  refused : Half
  lastQuote : Option Nat
  deriving DecidableEq, Repr

def I3cPort.reset : I3cPort :=
  { dynAddr := 0, daValid := false, staticAddr := 0, saEn := false, ibiEn := false, rx := 0, dropped := 0, protocol := 0,
    refused := 0, lastQuote := none }

/-- Device states (GLB_STATE.STATE codes in order). -/
inductive DevState where
  | por
  | shadow
  | rom
  | deviceRecovery
  | start
  | running
  | safeHold
  | standby
  deriving DecidableEq, Repr

/-- The device as a whole (R235, R304, page GLB). -/
structure Device where
  state : DevState
  resetCause : BitVec 4
  warm : Half
  startCount : Word
  zeroised : Bool
  configDefaulted : Bool
  /-- the control cluster is absent: restarting (R16) -/
  ccAbsent : Bool
  /-- a warm reset held while the main clock is lost (R165), and the device time of the loss -/
  clockHeld : Bool
  clockLostAt : Nat
  /-- device time at which STANDBY was entered (R166) -/
  standbySince : Nat
  /-- a cold reset is pending: the start that follows is cold -/
  cold : Bool
  /-- device time at which the device last reached RUNNING -/
  runSince : Nat
  /-- device time since which no command has been in flight (R311) -/
  idleSince : Nat
  fallback : Bool
  /-- SAFE_HOLD was entered; only a cold reset ends it (R164) -/
  safeLatch : Bool
  /-- CHn_WDG_CFG and WIN have been loaded from the policy since the last cold reset (R154) -/
  wdgLoaded : Bool
  deriving DecidableEq, Repr

def Device.reset : Device :=
  { state := .por, resetCause := 0, warm := 0, startCount := 0, zeroised := false, configDefaulted := false,
    ccAbsent := false, clockHeld := false, clockLostAt := 0, standbySince := 0, cold := true, runSince := 0, idleSince := 0, fallback := false, safeLatch := false, wdgLoaded := false }

end Sys2Proof.Machine
end

