-- ==== Sys2Proof/Syntax.lean ====
section
/-! DEFINITION. The commands of the block: operand types and the one inductive `Instr`, a constructor per row of
spec/opcode_table.json. The table gives no bits to any row; operands are the values the row's rule names. -/

namespace Sys2Proof

open Sys2Proof.Machine

/-- A host command with an address and a data phase out of the device: the address as sent, the bytes clocked, the
CHn_SCK period of the address phase in 0.25 ns (R36), what the local flash drives if it is read (R74), and, when a
line's tag fails its check (R92), the index of that line among the lines of the burst; `csLow`: CS# stays low after these bytes, the burst still
open (R67). -/
structure ReadArgs where
  addr : Nat
  len : Nat
  period : Nat
  localData : List Byte
  upset : Option Nat
  csLow : Bool
  deriving DecidableEq, Repr

/-- A host read of a register without an address of its own: the bytes clocked, and the CHn_SCK period of the address phase that Octal DDR
gives it, in 0.25 ns (R26, R36). -/
structure RegRead where
  len : Nat
  period : Nat
  deriving DecidableEq, Repr

/-- CHn_PGOOD high at a channel's filter: it rises there or, `settled`, has been high for PG_SETTLE since (R127). -/
structure PgHigh where
  chan : Fin 128
  settled : Bool
  deriving DecidableEq, Repr

/-- What discovery of a local flash finds (R70): RDID bytes, SFDP bytes as read at 50 MHz, whether the re-read in
PASS_PROTO agrees, and the values the parameter tables give. -/
structure DiscReport where
  id : List Byte
  sfdp : List Byte
  major : Nat
  minor : Nat
  density : Nat
  pageSize : Nat
  erase4 : Bool
  /-- PASS_PROTO is supported by the local flash -/
  protoOk : Bool
  entryOk : Bool
  xspi : Bool
  passDummy : Byte
  maxMhz : Byte
  progUs : Half
  erase4Ms : Half
  erase64Ms : Half
  deriving DecidableEq, Repr

/-- How a take ends (R81, R82, R99): the leaves of the pool whose codeword stays uncorrectable and the stripes whose parity leaf does, the
bytes a local flash delivered, and the first lane's digest failures cured by a second lane (lane numbers). -/
structure TakeEv where
  undelivered : List Nat
  badParity : List Nat
  localData : Option (List Byte)
  badLanes : List Nat
  deriving DecidableEq, Repr

/-- Every leaf is read, and every first digest stands. -/
def TakeEv.clean : TakeEv := { undelivered := [], badParity := [], localData := none, badLanes := [] }

/-- A retaken copy of directory entry `entry`, and how its take ends (R86). -/
structure Recopy where
  entry : Fin 256
  ev : TakeEv
  deriving DecidableEq, Repr

/-- What is handed to the device to be verified, and the runs of that verification on Burin whose check fails (R201). -/
structure Verified (α : Type) where
  what : α
  faults : Nat
  deriving DecidableEq, Repr

/-- How much OTP_READ asks for; `stuck`: Graver completes no read of it, and its watchdog ends the command (R163). -/
structure OtpLen where
  len : Nat
  stuck : Bool
  deriving DecidableEq, Repr

/-- A write of ATT_EXT.GO (R176): its value, the other manager's write of one slot, and the channels whose release instant falls in that
slot. -/
structure ExtGo where
  value : Word
  rival : Option Word
  released : List Nat
  deriving DecidableEq, Repr

/-- An SPDM request's sender: the endpoint it comes through, and the session that it comes in, 0 for none (R188). -/
structure Sender where
  ep : Fin 8
  session : Nat
  deriving DecidableEq, Repr

/-- How the device's copy of a host session ends (R112): the bytes of a PASS staging window as read from the local
flash, and whether the plate's storage took them. -/
structure CopyEv where
  passData : List Byte
  stored : Bool
  deriving DecidableEq, Repr

/-- A hash lane or an AES pipeline. -/
inductive FarmUnit where
  | lane (i : Fin 40)
  | pipe (i : Fin 12)
  deriving DecidableEq, Repr

/-- What a pool patrol read of a page finds (R101, R100). -/
structure EccEv where
  corrected : Nat
  weak : Bool
  uncorrectable : Bool
  stillWeak : Bool
  /-- the last leaf of the check of a channel that is RETURNING (R103) -/
  last : Bool
  deriving DecidableEq, Repr

/-- Wear of a pool channel's blocks (R100). -/
structure WearEv where
  minPe : Nat
  maxPe : Nat
  blockFailed : Bool
  deriving DecidableEq, Repr

/-- A DMA that fails on the link (R254): KIND of PCI_DMAERR, the failing address, and the bytes written before it (R194). -/
structure DmaFail where
  kind : BitVec 3
  addr : DWord
  wrote : Nat
  deriving DecidableEq, Repr

/-- What can win over a release in its slot (R137): an order of the other manager, and a hold of the device. -/
structure Against where
  rival : Option Order
  deviceHold : Bool
  deriving DecidableEq, Repr

/-- A PCI Express configuration request (R240, R244): of a manager's function, for a register; `write`: the value written, none for a
read. -/
structure CfgRequest where
  mgr : Mgr
  reg : CfgReg
  write : Option Word
  deriving DecidableEq, Repr

/-- A ring DMA that fails (R239): of a submission queue (else of a completion queue), with KIND of PCI_DMAERR and the address (R254). -/
structure RingFault where
  sq : Bool
  kind : BitVec 3
  addr : DWord
  deriving DecidableEq, Repr

/-- The physical end of a Burin job: whether its output check, or the seal of a resumed context, failed (R201, R203), the attempt slots an
ML-DSA signature used and whether all 256 were rejected (R198), and how the link took the result. -/
structure JobEv where
  fault : Bool
  slots : Half
  exhausted : Bool
  /-- none: the link took the result; else how its DMA failed (R254) -/
  dma : Option DmaFail
  deriving DecidableEq, Repr

/-- Which entropy test failed (R206). -/
inductive EntropyTest where
  | repetition
  | proportion
  | startup
  deriving DecidableEq, Repr

/-- What NEGOTIATE_ALGORITHMS offers (R186): P-384, SHA-384, secp384r1, AES-256-GCM, DMTF measurements, SPDM schedule. -/
structure AlgOffer where
  p384 : Bool
  sha384 : Bool
  secp384r1 : Bool
  aes256gcm : Bool
  dmtf : Bool
  spdmSchedule : Bool
  deriving DecidableEq, Repr

/-- Whose DMA failed (R194, R228, R254): a command and the byte offset of its pointer, or its Burin operand's index. -/
structure DmaUser where
  sq : Byte
  cid : Half
  info : Word
  deriving DecidableEq, Repr

/-- CREATE_CQ's fields (R229). -/
structure CqFields where
  qid : Half
  depth : Nat
  vector : Nat
  ien : Bool
  event : Bool
  base : DWord
  coalN : Nat
  coalUs : Nat
  deriving DecidableEq, Repr

/-- CREATE_SQ's fields (R229). -/
structure SqFields where
  qid : Half
  depth : Nat
  cqid : Half
  cls : Byte
  base : DWord
  deriving DecidableEq, Repr

/-- One STENCIL_TIGHTEN change of 12 bytes (R230). -/
structure Change where
  offset : Nat
  mask : Word
  value : Word
  deriving DecidableEq, Repr

/-- How the fuses take pulses (R288): bits (word address × 32 + bit) that never pass STRICT, and bits that need more
than one pulse. -/
structure PulseEv where
  never : List Nat
  again : List Nat
  /-- the low-supply inhibit began after this many bits -/
  inhibitedAfter : Option Nat
  /-- Graver makes no more progress after this many bits: its watchdog ends the command (R163) -/
  stuckAfter : Option Nat
  deriving DecidableEq, Repr

/-- A NAND target as the mount finds it (R98): whether a copy of its parameter page has a good CRC, whether it is ONFI 5.0 or later on
NV-LPDDR4, its page and spare bytes, native SLC or the feature address and parameters P1-P4 of its SLC mode, the timing modes it declares
with their rates in MT/s, and whether GET FEATURES confirms what SET FEATURES set. -/
structure PoolTarget where
  paramOk : Bool
  nvLpddr4 : Bool
  page : Nat
  spare : Nat
  slc : Bool
  slcMode : Option (Byte × List Byte)
  modes : List (BitVec 4 × Nat)
  confirms : Bool
  deriving DecidableEq, Repr

/-- One pool channel as the mount finds it (R98): training, targets by CE#, bad blocks, wear, blocks and those left of the spare
reserve. -/
structure MountChan where
  trained : Bool
  targets : List (Option PoolTarget)
  factory : Half
  grown : Half
  maxPe : Half
  blocks : Nat
  spare : Nat
  deriving DecidableEq, Repr

/-- What the hardware answers during a device start (R307): entropy start-up test, trained image memory channels, pool
channels, pool map, DMA-free measurements and tamper samples taken at POR (R274). -/
structure StartReport where
  entropyOk : Bool
  imgChannels : Byte
  pool : List MountChan
  /-- the root of the pool map as read from the map blocks (R98) -/
  mapRoot : Digest
  capMib : Word
  /-- slots of the vault entries whose tag fails as they are unwrapped (R259) -/
  vaultBad : List Nat
  tamper : BitVec 10
  deriving DecidableEq, Repr

/-- Why the device wakes (R311). -/
inductive WakeCause where
  | sysPgood
  | doorbell
  | mwdExpiry
  | clockLost
  | stbyLimit
  | tamper
  deriving DecidableEq, Repr

/-- One constructor per row of spec/opcode_table.json. `n` names a host channel, `m` the manager whose view or half is
used, `src` the Ovdel command's origin; other operands are the fields the row's rule names, or the outcome of a physical
measurement (docstrings of the operand types). -/
inductive Instr where
  /-- READ (R26) -/
  | read (n : Fin 128) (four : Bool) (q : ReadArgs)
  /-- FAST_READ (R26) -/
  | fastRead (n : Fin 128) (four : Bool) (q : ReadArgs)
  /-- QUAD_OUTPUT_READ (R26) -/
  | quadOutputRead (n : Fin 128) (four : Bool) (q : ReadArgs)
  /-- QUAD_IO_READ (R26) -/
  | quadIoRead (n : Fin 128) (four : Bool) (q : ReadArgs)
  /-- OCTAL_DDR_READ (R26) -/
  | octalDdrRead (n : Fin 128) (q : ReadArgs)
  /-- READ_STATUS (R26) -/
  | readStatus (n : Fin 128) (q : RegRead)
  /-- READ_FLAG_STATUS (R26) -/
  | readFlagStatus (n : Fin 128) (q : RegRead)
  /-- CLEAR_FLAG_STATUS (R26) -/
  | clearFlagStatus (n : Fin 128)
  /-- READ_ID (R32) -/
  | readId (n : Fin 128) (q : RegRead)
  /-- READ_SFDP (R33) -/
  | readSfdp (n : Fin 128) (addr len period : Nat)
  /-- READ_CONFIG (R25) -/
  | readConfig (n : Fin 128) (addr len period : Nat)
  /-- WRITE_CONFIG (R25) -/
  | writeConfig (n : Fin 128) (addr : Nat) (data : Byte) (period : Nat)
  /-- WRITE_ENABLE (R28) -/
  | writeEnable (n : Fin 128)
  /-- WRITE_DISABLE (R26) -/
  | writeDisable (n : Fin 128)
  /-- WRITE_STATUS (R28) -/
  | writeStatus (n : Fin 128) (data : Byte)
  /-- PAGE_PROGRAM (R28) -/
  | pageProgram (n : Fin 128) (four : Bool) (addr : Nat) (data : List Byte) (period : Nat)
  /-- ERASE_4_KIB (R29) -/
  | erase4Kib (n : Fin 128) (four : Bool) (addr period : Nat)
  /-- ERASE_64_KIB (R29) -/
  | erase64Kib (n : Fin 128) (four : Bool) (addr period : Nat)
  /-- CHIP_ERASE (R29) -/
  | chipErase (n : Fin 128) (opcode : Byte)
  /-- ENTER_4_BYTE_ADDRESS (R26) -/
  | enter4ByteAddress (n : Fin 128)
  /-- EXIT_4_BYTE_ADDRESS (R26) -/
  | exit4ByteAddress (n : Fin 128)
  /-- RESET_ENABLE (R40) -/
  | resetEnable (n : Fin 128)
  /-- RESET (R40) -/
  | reset (n : Fin 128)
  /-- DEEP_POWER_DOWN (R27) -/
  | deepPowerDown (n : Fin 128)
  /-- RELEASE_FROM_DEEP_POWER_DOWN (R27) -/
  | releaseFromDeepPowerDown (n : Fin 128)
  /-- UNDECODED_OPCODE (R27) -/
  | undecodedOpcode (n : Fin 128) (op : Byte) (second : Byte)
  /-- ALLOW_FRAME_COMMAND (R56) -/
  | allowFrameCommand (n : Fin 128) (op : Byte) (q : ReadArgs) (data : List Byte)
  /-- PROGRAM_ERASE_DONE (R30) -/
  | programEraseDone (n : Fin 128)
  /-- REFUSAL_WIP_END (R28) -/
  | refusalWipEnd (n : Fin 128)
  /-- HOST_RST_PULSE (R40) -/
  | hostRstPulse (n : Fin 128) (lowNs : Nat)
  /-- HOST_RESET_RECOVERED (R40) -/
  | hostResetRecovered (n : Fin 128)
  /-- PGOOD_FALL (R127) -/
  | pgoodFall (n : Fin 128)
  /-- PG_OK_SETTLED (R127) -/
  | pgOkSettled (q : PgHigh)
  /-- MBX_SELECT (R44) -/
  | mbxSelect (n : Fin 128) (v : Word)
  /-- WDG_TOKEN (R148) -/
  | wdgToken (n : Fin 128) (token : DWord)
  /-- WDG_EXTEND (R153) -/
  | wdgExtend (n : Fin 128) (token : DWord) (units : Word)
  /-- PROOF_ACCEPT (R117) -/
  | proofAccept (n : Fin 128) (v : DWord)
  /-- BOOT_DONE (R46) -/
  | bootDone (n : Fin 128) (v : Word)
  /-- UPD_OPEN (R49) -/
  | updOpen (n : Fin 128) (v : DWord)
  /-- UPD_COMMIT (R49) -/
  | updCommit (n : Fin 128) (v : Word)
  /-- UPD_ABORT (R49) -/
  | updAbort (n : Fin 128) (v : Word)
  /-- UPD_VERIFY_DONE (R112) -/
  | updVerifyDone (n : Fin 128) (ev : CopyEv)
  /-- HOST_MESSAGE_POST (R48) -/
  | hostMessagePost (n : Fin 128) (seq : Word)
  /-- M2H_ACK (R48) -/
  | m2hAck (n : Fin 128) (ack : Word)
  /-- BOOT_TMO_EXPIRY (R53) -/
  | bootTmoExpiry (n : Fin 128)
  /-- SHD_COMMIT (R63) -/
  | shdCommit (m : Mgr) (n : Fin 128) (rival : Bool)
  /-- SHD_DISCARD (R63) -/
  | shdDiscard (m : Mgr) (n : Fin 128)
  /-- ENTER_RECOVERY (R53) -/
  | enterRecovery (m : Mgr) (n : Fin 128) (rival : Bool)
  /-- EXIT_RECOVERY (R53) -/
  | exitRecovery (m : Mgr) (n : Fin 128) (rival : Bool)
  /-- BUCKET_REFILL (R60) -/
  | bucketRefill (n : Fin 128) (w : Fin 32) (erase : Bool)
  /-- FP_REDISCOVER (R70) -/
  | fpRediscover (m : Mgr) (f : Fin 64)
  /-- FP_DISCOVERY (R70) -/
  | fpDiscovery (f : Fin 64) (rep : DiscReport)
  /-- FP_ERRCLR (R70) -/
  | fpErrclr (m : Mgr) (f : Fin 64)
  /-- LOCAL_OP_COMPLETE (R75) -/
  | localOpComplete (f : Fin 64) (failed : Bool)
  /-- LOCAL_WIP_TIMEOUT (R75) -/
  | localWipTimeout (f : Fin 64)
  /-- HOLD_INSTANT (R130) -/
  | holdInstant (n : Fin 128)
  /-- IMPRESSION_TAKE_DONE (R81) -/
  | impressionTakeDone (i : Fin 256) (ev : TakeEv)
  /-- LOCAL_CONFIRMATION_DONE (R84) -/
  | localConfirmationDone (n : Fin 128) (p : PlateId) (data : Option (List Byte))
  /-- IMPRESSION_COPY_SWITCH (R86) -/
  | impressionCopySwitch (q : Recopy)
  /-- LEAF_REVERIFY_DONE (R92) -/
  | leafReverifyDone (i : Fin 256) (leaf : Nat) (copyOk : Bool) (source : Option (List Byte))
  /-- PATROL_LEAF (R94) -/
  | patrolLeaf (i : Fin 256) (leaf : Nat) (leafOk tableOk : Bool)
  /-- PATROL_PAUSE (R94) -/
  | patrolPause (m : Mgr) (v : Word)
  /-- KEEP_WRITEBACK (R97) -/
  | keepWriteback (n : Fin 128) (blk : Nat)
  /-- IMM_CHANNEL_OUT (R104) -/
  | immChannelOut (c : Fin 8)
  /-- HASH_LANE_KAT (R103) -/
  | hashLaneKat (unit : FarmUnit) (pass : Bool)
  /-- POOL_CHANNEL_OUT (R103) -/
  | poolChannelOut (k : Fin 16) (reason : Nat)
  /-- POL_TAKE_OUT (R103) -/
  | polTakeOut (m : Mgr) (k : Fin 16)
  /-- POL_RETURN (R103) -/
  | polReturn (m : Mgr) (k : Fin 16) (trained : Bool)
  /-- POOL_ECC_PATROL (R101) -/
  | poolEccPatrol (k : Fin 16) (ev : EccEv)
  /-- POOL_AUDIT (R101) -/
  | poolAudit (family root : List Byte) (badLeaf : Option Nat)
  /-- POOL_WEAR_LEVEL (R100) -/
  | poolWearLevel (k : Fin 16) (ev : WearEv)
  /-- FCA_FLUSH (R91) -/
  | fcaFlush (m : Mgr)
  /-- FCA_CNTCLR (R91) -/
  | fcaCntclr (m : Mgr)
  /-- CHANNEL_READY (R129) -/
  | channelReady (n : Fin 128)
  /-- RELEASE_INSTANT (R132) -/
  | releaseInstant (n : Fin 128)
  /-- RANKS_BEGIN (R136) -/
  | ranksBegin
  /-- RANK_BOUNDARY (R136) -/
  | rankBoundary
  /-- PROOF_DEADLINE (R117) -/
  | proofDeadline (n : Fin 128)
  /-- DEVFW_PROOF_DEADLINE (R123) -/
  | devfwProofDeadline
  /-- DEVFW_SELFTEST_DONE (R123) -/
  | devfwSelftestDone (pass : Bool)
  /-- CH_HOLD (R137) -/
  | chHold (src : Src) (ch : Half) (rival : Option Order)
  /-- CH_RELEASE (R137) -/
  | chRelease (src : Src) (ch : Half) (against : Against)
  /-- CH_STATUS (R229) -/
  | chStatus (src : Src) (ch : Half)
  /-- CH_QUARANTINE (R137) -/
  | chQuarantine (src : Src) (ch : Half) (rival : Option Order)
  /-- CH_READMIT (R137) -/
  | chReadmit (src : Src) (ch : Half) (rival : Option Order)
  /-- CH_RESTART (R138) -/
  | chRestart (src : Src) (ch : Half) (rival : Option Order)
  /-- CTL_ORDER_HOLD (R137) -/
  | ctlOrderHold (m : Mgr) (n : Fin 128) (rival : Option Order)
  /-- CTL_ORDER_RELEASE (R137) -/
  | ctlOrderRelease (m : Mgr) (n : Fin 128) (against : Against)
  /-- CTL_ORDER_QUARANTINE (R137) -/
  | ctlOrderQuarantine (m : Mgr) (n : Fin 128) (rival : Option Order)
  /-- CTL_ORDER_READMIT (R137) -/
  | ctlOrderReadmit (m : Mgr) (n : Fin 128) (rival : Option Order)
  /-- CTL_ORDER_RESTART (R137) -/
  | ctlOrderRestart (m : Mgr) (n : Fin 128) (rival : Option Order)
  /-- TWL_PULSE (R139) -/
  | twlPulse (m : Mgr) (v : Word)
  /-- TWL_FORCE (R128) -/
  | twlForce (m : Mgr) (v : Word)
  /-- TW_PULSE_END (R139) -/
  | twPulseEnd (t : Fin 16)
  /-- PGOOD_TIMEOUT (R139) -/
  | pgoodTimeout (n : Fin 128)
  /-- WDG_CLOSE (R156) -/
  | wdgClose (n : Fin 128)
  /-- WDG_CLOCK_STOP (R146) -/
  | wdgClockStop (n : Fin 128)
  /-- WDG_CFG_WRITE (R154) -/
  | wdgCfgWrite (m : Mgr) (n : Fin 128) (v : Word)
  /-- WDG_WIN_WRITE (R147) -/
  | wdgWinWrite (m : Mgr) (n : Fin 128) (v : Word)
  /-- WDG_FREEZE (R168) -/
  | wdgFreeze (m : Mgr) (n : Fin 128)
  /-- WDG_THAW (R168) -/
  | wdgThaw (m : Mgr) (n : Fin 128)
  /-- CLEAN_RUN (R159) -/
  | cleanRun (n : Fin 128)
  /-- MWD_TOKEN (R160) -/
  | mwdToken (m : Mgr) (hi : Word)
  /-- MWD_CFG_WRITE (R160) -/
  | mwdCfgWrite (m : Mgr) (v : Word)
  /-- MWD_WIN_WRITE (R160) -/
  | mwdWinWrite (m : Mgr) (v : Word)
  /-- MWD_EXPIRY (R161) -/
  | mwdExpiry (m : Mgr)
  /-- CC_WATCHDOG_EXPIRY (R164) -/
  | ccWatchdogExpiry
  /-- LOCKSTEP_MISMATCH (R12) -/
  | lockstepMismatch (pair : Fin 4)
  /-- BURIN_CORE_WATCHDOG (R163) -/
  | burinCoreWatchdog (k : Fin 4)
  /-- GRAVER_WATCHDOG (R163) -/
  | graverWatchdog
  /-- RING_ENGINE_WATCHDOG (R163) -/
  | ringEngineWatchdog (m : Mgr)
  /-- MAIN_CLOCK_LOSS (R165) -/
  | mainClockLoss
  /-- MAIN_CLOCK_RETURN (R165) -/
  | mainClockReturn
  /-- INT_CLEAN (R164) -/
  | intClean
  /-- MWD_CNTCLR (R164) -/
  | mwdCntclr (m : Mgr)
  /-- CC_RESTART_DONE (R17) -/
  | ccRestartDone
  /-- ATT_EXT_GO (R176) -/
  | attExtGo (m : Mgr) (q : ExtGo)
  /-- ATT_WALL_WRITE (R190) -/
  | attWallWrite (m : Mgr) (hi : Word) (rival : Option Word)
  /-- TRACE_RECORD_WRITE (R180) -/
  | traceRecordWrite
  /-- GET_VERSION (R185) -/
  | getVersion (ep : Fin 8) (session : Nat)
  /-- GET_CAPABILITIES (R186) -/
  | getCapabilities (ep : Fin 8) (version : Nat)
  /-- NEGOTIATE_ALGORITHMS (R186) -/
  | negotiateAlgorithms (ep : Fin 8) (offer : AlgOffer)
  /-- GET_DIGESTS (R186) -/
  | getDigests (who : Sender)
  /-- GET_CERTIFICATE (R186) -/
  | getCertificate (who : Sender) (slot offset len : Nat)
  /-- CHALLENGE (R187) -/
  | challenge (who : Sender) (nonce : List Byte) (summary : Nat)
  /-- GET_MEASUREMENTS (R187) -/
  | getMeasurements (who : Sender) (index : Nat) (signed : Bool) (nonce : List Byte)
  /-- KEY_EXCHANGE (R188) -/
  | keyExchange (ep : Fin 8) (exchange : List Byte)
  /-- FINISH (R185) -/
  | finish (ep : Fin 8) (session : Nat)
  /-- HEARTBEAT (R188) -/
  | heartbeat (ep : Fin 8) (session : Nat)
  /-- END_SESSION (R185) -/
  | endSession (ep : Fin 8) (session : Nat)
  /-- CHUNK_SEND (R185) -/
  | chunkSend (who : Sender) (seq : Nat) (data : List Byte) (last : Bool)
  /-- CHUNK_GET (R185) -/
  | chunkGet (who : Sender) (seq : Nat)
  /-- UNSUPPORTED_SPDM_REQUEST (R185) -/
  | unsupportedSpdmRequest (ep : Fin 8) (session : Nat)
  /-- SPDM_SESSION_TIMEOUT (R188) -/
  | spdmSessionTimeout (ep : Fin 8) (session : Nat)
  /-- ENTDAA (R189) -/
  | entdaa (p : Fin 4) (addr : BitVec 7)
  /-- SETDASA (R189) -/
  | setdasa (p : Fin 4) (addr : BitVec 7)
  /-- MCTP_OVDEL_REQUEST (R236) -/
  | mctpOvdelRequest (ep : Fin 8) (units : List Byte) (session : Nat)
  /-- BURIN_JOB_DONE (R197) -/
  | burinJobDone (k : Fin 4) (ev : JobEv)
  /-- BURIN_YIELD (R203) -/
  | burinYield (k : Fin 4)
  /-- BURIN_PROMOTION (R203) -/
  | burinPromotion (id : Nat)
  /-- BURIN_SELFTEST_DONE (R201) -/
  | burinSelftestDone (k : Fin 4) (pass : Bool)
  /-- BUR_TAKE_OUT (R201) -/
  | burTakeOut (m : Mgr) (k : Fin 4)
  /-- BUR_RETURN (R201) -/
  | burReturn (m : Mgr) (k : Fin 4)
  /-- BUR_CNTCLR (R201) -/
  | burCntclr (m : Mgr) (k : Fin 4)
  /-- HASH_JOB_DONE (R196) -/
  | hashJobDone (m : Mgr)
  /-- ENTROPY_HEALTH_FAIL (R207) -/
  | entropyHealthFail (test : EntropyTest)
  /-- ENTROPY_RETEST (R207) -/
  | entropyRetest (pass : Bool)
  /-- DRB_RETEST (R207) -/
  | drbRetest (m : Mgr) (pass : Bool)
  /-- DRBG_RESEED (R206) -/
  | drbgReseed
  /-- RING_ENABLE (R209) -/
  | ringEnable (m : Mgr)
  /-- RING_DISABLE (R210) -/
  | ringDisable (m : Mgr)
  /-- FUNCTION_RESET (R210) -/
  | functionReset (m : Mgr)
  /-- SQ_TAIL_DOORBELL (R214) -/
  | sqTailDoorbell (m : Mgr) (q : Byte) (v : Word)
  /-- SQ_TAIL_RETRACT (R215) -/
  | sqTailRetract (m : Mgr) (q : Byte) (v : Word)
  /-- CQ_HEAD_DOORBELL (R220) -/
  | cqHeadDoorbell (m : Mgr) (q : Byte) (v : Word)
  /-- SQ_PHASE_REREAD (R213) -/
  | sqPhaseReread (m : Mgr) (q : Byte) (units : List Byte)
  /-- SQ_ENTRY_CONSUME (R211) -/
  | sqEntryConsume (m : Mgr) (q : Byte) (units : List Byte)
  /-- BULK_AGEING (R222) -/
  | bulkAgeing (m : Mgr) (q : Byte)
  /-- EVENT_SLOT_WRITE (R221) -/
  | eventSlotWrite (m : Mgr)
  /-- CQ_INTERRUPT (R224) -/
  | cqInterrupt (m : Mgr) (q : Byte)
  /-- RING_DMA_FAULT (R239) -/
  | ringDmaFault (m : Mgr) (q : Byte) (fault : RingFault)
  /-- DMA_FAILURE (R254) -/
  | dmaFailure (m : Mgr) (kind : BitVec 3) (addr : DWord) (who : Option DmaUser)
  /-- PAD (R212) -/
  | pad (m : Mgr) (q : Byte) (units : List Byte)
  /-- IDENTIFY (R231) -/
  | identify (src : Src) (cns : Byte) (ch : Half) (len : Nat)
  /-- NEGOTIATE (R226) -/
  | negotiate (src : Src) (proposed : Half)
  /-- CREATE_CQ (R232) -/
  | createCq (src : Src) (f : CqFields)
  /-- CREATE_SQ (R232) -/
  | createSq (src : Src) (f : SqFields)
  /-- DELETE_SQ (R232) -/
  | deleteSq (src : Src) (qid : Half)
  /-- DELETE_CQ (R232) -/
  | deleteCq (src : Src) (qid : Half)
  /-- SET_EVENT_RING (R232) -/
  | setEventRing (src : Src) (cqid : Half) (mask : Word)
  /-- ABORT (R233). `posted`: a posted entry of the SQ that has not been consumed carries the CID -/
  | abort (src : Src) (sqid : Half) (cid : Half) (posted : Option Half)
  /-- GET_LOG (R234) -/
  | getLog (src : Src) (page : Byte) (sel : Half) (offset len : Nat)
  /-- SET_FEATURE (R234) -/
  | setFeature (src : Src) (fid : Byte) (sel : Half) (value : Word) (data : List Byte)
  /-- GET_FEATURE (R234) -/
  | getFeature (src : Src) (fid : Byte) (sel : Half)
  /-- IMAGE_STAGE (R112) -/
  | imageStage (src : Src) (ch : Half) (plate part : Byte) (offset : Nat) (data : List Byte)
  /-- IMAGE_COMMIT (R112) -/
  | imageCommit (src : Src) (ch : Half) (plate : Byte) (image : Verified (Option (List Byte)))
  /-- PLATE_ARM_PROOF (R115) -/
  | plateArmProof (src : Src) (ch : Half) (plate : Byte)
  /-- PLATE_STATUS (R229) -/
  | plateStatus (src : Src) (ch : Half) (len : Nat)
  /-- ADVANCE_MIN_VERSION (R119) -/
  | advanceMinVersion (src : Src) (ch : Half) (family : List Byte) (newMin : Word)
  /-- PLATE_ERASE (R112) -/
  | plateErase (src : Src) (ch : Half) (plate : Byte)
  /-- POLICY_LOAD (R69) -/
  | policyLoad (src : Src) (bundle : Verified Bundle)
  /-- STENCIL_TIGHTEN (R68) -/
  | stencilTighten (src : Src) (ch : Half) (persist : Bool) (lenField : Nat) (changes : List Change) (rival : Bool)
  /-- CONFIG_WRITE (R314) -/
  | configWrite (src : Src) (img : List Byte)
  /-- CONFIG_READ (R229) -/
  | configRead (src : Src) (len : Nat)
  /-- BURIN_OP (R193) -/
  | burinOp (src : Src) (desc : List Byte) (resLen : Nat) (operands : List (List Byte))
  /-- HASH_OP (R195) -/
  | hashOp (src : Src) (desc : List Byte) (outLen : Nat) (segs : List (List Byte))
  /-- RANDOM (R207) -/
  | random (src : Src) (len : Nat)
  /-- QUOTE (R182) -/
  | quote (src : Src) (nonce : List Byte) (len : Nat)
  /-- TRACING_READ (R231) -/
  | tracingRead (src : Src) (fromSeq : DWord) (advance header : Bool) (len : Nat)
  /-- KEY_UPDATE (R264) -/
  | keyUpdate (src : Src) (msg : Verified (List Byte))
  /-- KEY_INFO (R261) -/
  | keyInfo (src : Src) (slot : Half) (len : Nat)
  /-- ZEROIZE (R271) -/
  | zeroize (src : Src) (confirm : Word)
  /-- OTP_READ (R286) -/
  | otpRead (src : Src) (region : Half) (bitOffset : Nat) (q : OtpLen)
  /-- OTP_PROGRAM (R287) -/
  | otpProgram (src : Src) (region : Half) (bitOffset : Nat) (bitmap : List Byte) (ev : PulseEv)
  /-- OTP_FINALISE (R289) -/
  | otpFinalise (src : Src) (region : Half) (ev : PulseEv)
  /-- DEVICE_FW_STAGE (R122) -/
  | deviceFwStage (src : Src) (offset : Nat) (data : List Byte)
  /-- DEVICE_FW_COMMIT (R122) -/
  | deviceFwCommit (src : Src) (activate : Bool)
  /-- DEVICE_FW_ACCEPT (R123) -/
  | deviceFwAccept (src : Src)
  /-- REGISTER_WRITE (R11) -/
  | registerWrite (m : Mgr) (offset : Nat) (v : Word)
  /-- BAR0_BAD_ACCESS (R241) -/
  | bar0BadAccess (m : Mgr) (offset : Nat)
  /-- BAR0_UNMAPPED_ACCESS (R241) -/
  | bar0UnmappedAccess (m : Mgr) (offset : Nat)
  /-- LOW_WORD_READ (R242) -/
  | lowWordRead (m : Mgr) (offset : Nat)
  /-- LOCK_WRITE (R249) -/
  | lockWrite (m : Mgr) (page : Nat) (v : Word)
  /-- IRQ_CLR (R245) -/
  | irqClr (m : Mgr) (page : Nat) (v : Word)
  /-- ERR_INFO_CLEAR (R245) -/
  | errInfoClear (m : Mgr) (page : Nat) (v : Word)
  /-- MBX_ERRCLR (R41) -/
  | mbxErrclr (m : Mgr) (n : Fin 128) (v : Word)
  /-- STN_CNTCLR (R59) -/
  | stnCntclr (m : Mgr) (n : Fin 128) (v : Word)
  /-- EVT_LOSTCLR (R221) -/
  | evtLostclr (m : Mgr) (v : Word)
  /-- RNG_ERRCLR (R214) -/
  | rngErrclr (m : Mgr) (v : Word)
  /-- PWR_SEEN_CLEAR (R299) -/
  | pwrSeenClear (m : Mgr) (v : Word)
  /-- TAMPER_TRIP (R269) -/
  | tamperTrip (sources : BitVec 10)
  /-- LOOP_SAMPLE (R268) -/
  | loopSample (i : Fin 4) (kind : BitVec 3)
  /-- TAMPER_INACTIVE (R267) -/
  | tamperInactive (i : Fin 10)
  /-- TMP_CLEAR (R270) -/
  | tmpClear (m : Mgr)
  /-- TMP_REARM (R273) -/
  | tmpRearm (m : Mgr)
  /-- POR_RELEASE (R297) -/
  | porRelease
  /-- DEVICE_START (R307) -/
  | deviceStart (rep : StartReport)
  /-- SUPPLY_WARN (R299) -/
  | supplyWarn (rail : Option (Fin 21))
  /-- SUPPLY_OK (R300) -/
  | supplyOk
  /-- BROWNOUT (R301) -/
  | brownout (rail : Fin 21)
  /-- RESET_PIN (R305) -/
  | resetPin (lowNs : Nat)
  /-- POOL_PLL_UNLOCK (R309) -/
  | poolPllUnlock
  /-- LINK_DOWN (R309) -/
  | linkDown (m : Mgr)
  /-- SYS_PGOOD_LOW (R310) -/
  | sysPgoodLow
  /-- STANDBY_WAKE (R311) -/
  | standbyWake (cause : WakeCause)
  /-- STANDBY_RETURN (R311) -/
  | standbyReturn
  /-- SEQUENCE_HOLD_ELAPSED (R138) -/
  | sequenceHoldElapsed (n : Fin 128)
  /-- OUTPUT_OVERCURRENT (R302) -/
  | outputOvercurrent (n : Fin 128)
  /-- OVERCURRENT_HOLDOFF_END (R302) -/
  | overcurrentHoldoffEnd (n : Fin 128)
  /-- IO_BANK_SUPPLY_UP (R126) -/
  | ioBankSupplyUp (bank : Fin 8)
  /-- FAIL_PULSE_END (R141) -/
  | failPulseEnd
  /-- DEBUGGER_HALT (R167) -/
  | debuggerHalt
  /-- DEBUGGER_RESUME (R167) -/
  | debuggerResume
  /-- POOL_OPERATION_DONE (R99) -/
  | poolOperationDone (k : Fin 16) (failed : Bool)
  /-- LINK_UP (R311) -/
  | linkUp (m : Mgr) (speed : BitVec 3) (width : BitVec 4)
  /-- CONFIGURATION_REQUEST (R244) -/
  | configurationRequest (q : CfgRequest)
  /-- DOE_DISCOVERY (R185) -/
  | doeDiscovery (m : Mgr)
  /-- SET_ENDPOINT_ID (R236) -/
  | setEndpointId (m : Mgr) (eid : Byte)
  /-- IBI_ENABLE (R189) -/
  | ibiEnable (p : Fin 4) (on : Bool)
  /-- I3C_TARGET_ERROR (R189) -/
  | i3cTargetError (p : Fin 4) (badPec : Bool)
  deriving DecidableEq, Repr

end Sys2Proof
end

