-- ==== Sys2Proof/Decode.lean ====
section
/-! DEFINITION. Decoding of the opcode table's words: spec/opcode_table.json gives no bits to any row, so no word
spells a command (log entry 4). -/

namespace Sys2Proof

/-- The command that a word spells by the table's bits: the table gives bits to no row, so none. -/
def decodeTableWord (_nbits _w : Nat) : Option Instr := none

end Sys2Proof
end

