-- ==== Sys2Proof/Config.lean ====
section
/-! DEFINITION. The functions that external standards fix and the spec only names (hashes, ciphers, signatures,
encodings), and the values it leaves open: constants without a body, so that a claim holds whatever they are. -/

namespace Sys2Proof.Config

open Sys2Proof.Machine

/-! ## Hashes and keyed functions (FIPS 180-4, 202, 198-1) -/

/-- SHA-384 of a byte string. -/
opaque sha384 : List Byte → Digest
/-- HMAC-SHA-512: key, message. -/
opaque hmac512 : List Byte → List Byte → List Byte

/-- HMAC-SHA-384: key, message. -/
opaque hmac384 : List Byte → List Byte → Digest

/-! ## Signatures and ciphers (FIPS 186-5, 204, IEEE 1619): public key, message, signature -/

/-- ECDSA P-384 with SHA-384 verifies. -/
opaque ecdsaOk : List Byte → List Byte → List Byte → Bool
/-- ML-DSA-65, pure mode, empty context, verifies. -/
opaque mldsaOk : List Byte → List Byte → List Byte → Bool
/-- AES-256-XTS decryption of one leaf: key, leaf index, ciphertext (R80). -/
opaque xtsDecrypt : List Byte → Nat → List Byte → List Byte

/-! ## Encodings that external standards fix -/

/-- What R33 does not state of the generated SFDP space, by the local flash's own SFDP (empty with pool backing), from which the generation
starts: DWORD i of table k, how many DWORDs a table has beyond those with a stated field, the DWORDs before table k and their bytes,
revision and access-protocol bytes, and the upper byte of the vendor's identifier. -/
opaque sfdpWord : List Byte → Nat → Nat → BitVec 32
opaque sfdpExtra : List Byte → Nat → Fin 64
opaque sfdpGap : List Byte → Nat → Fin 64
opaque sfdpFill : List Byte → Nat → Nat → Byte
opaque sfdpRev : List Byte → Nat → Byte
opaque sfdpVendorMsb : Byte

/-- X.509 v3 (R170, R174): what the issuer signs of a certificate, and the certificate in DER of that and the signature. -/
opaque certTbs : CertBody → List Byte
opaque certDer : List Byte → List Byte → List Byte

/-- The DeviceID certificates that Larmany's CA issued, ECDSA and ML-DSA-65, and the root's certificate (R169, R186). -/
opaque deviceCerts : List Byte × List Byte
opaque rootCert : List Byte
/-- ECDSA P-384 with SHA-384 under a scalar, and ML-DSA-65 in pure mode with an empty context under a seed (R184): key, message, draw. -/
opaque ecdsaSign : List Byte → List Byte → Nat → Vector Byte 96
opaque mldsaSign : List Byte → List Byte → Nat → Vector Byte 3309
/-- SPDM signatures (DSP0274): the alias scalar, the requester's bytes, the measurement blocks (index, type, digest), draw. -/
opaque spdmSign : List Byte → List Byte → List (Nat × Nat × Digest) → Nat → List Byte
/-- The measurement summary hash of DSP0274, and a MEASUREMENTS response as bytes. -/
opaque spdmSummary : List (Nat × Nat × Digest) → Digest
opaque spdmMeasurements : List (Nat × Nat × Digest) → List Byte → List Byte
/-- MCTP packets of an SPDM request on an I3C port, by device time. -/
opaque spdmPackets : Nat → Half
/-- The DATA field of a Tracing record by type (R177): what it lists is in the spec, its places are not. -/
opaque traceData : Nat → List Nat → Vector Byte 96
/-- The number that stands in an event's DATA for what the spec names there in words only (R238, log entry 32): unit kinds, reasons,
causes, tests. The argument is the model's own index of these words. -/
opaque eventWord : Nat → Nat
/-- The digest of a channel overlay (R68, R187): its bytes are not in the spec. -/
opaque overlayDigest : SMap (Word × Word) → Digest

/-! ## Burin and the hash farm (R191-R200): what the standards named there compute, by parameter-set code -/

/-- The order of a curve's group: n of P-256, P-384, P-521, L of Ed25519 and Ed448. -/
opaque groupOrder : Nat → Nat
/-- An encoded point lies on the curve and is not the point at infinity. -/
opaque pointOk : Nat → List Byte → Bool
/-- A public key decodes: EdDSA, ML-KEM (modulus check), ML-DSA (t1). -/
opaque keyDecodes : Nat → List Byte → Bool
/-- R of an EdDSA signature decodes. -/
opaque edPointDecodes : Nat → List Byte → Bool
/-- The signature verifies: OP, PSET, HASH, FLAGS, (ROLE, bytes) of the operands, key taken from a slot. -/
opaque burinVerifies : Nat → Nat → Nat → Nat → List (Nat × List Byte) → List Byte → Bool
/-- The public result and the secret result of an operation, with its draw. -/
opaque burinResult : Nat → Nat → Nat → Nat → List (Nat × List Byte) → List Byte → Nat → List Byte
opaque burinSecret : Nat → Nat → List (Nat × List Byte) → List Byte → Nat → List Byte
/-- Computation time in ns of LMS_VERIFY and XMSS_VERIFY in the cases that R197 does not state, by OP, length of the signature and hash lanes. -/
opaque hashSigTime : Nat → Nat → Nat → Nat
/-- The length of an LMS (0x40) or XMSS (0x41) public key or signature under SP 800-208. -/
opaque hashSigKeyLen : Nat → Nat → Bool
opaque hashSigLen : Nat → Nat → Bool
/-- A digest by ALG code of R195 other than SHA-384 and the HMACs with an operator of their own: key, bytes, output length. -/
opaque hashOf : Nat → List Byte → List Byte → Nat → List Byte

/-! ## Keys (R255-R266) -/

/-- The public part of an asymmetric key by TYPE and material. -/
opaque publicPart : Nat → List Byte → List Byte
/-- The x coordinate of an ECDH P-384 product (scalar, point; none: no point to agree on) and the ML-KEM-1024 shared secret (seed,
ciphertext) of R263. -/
opaque ecdhX : List Byte → List Byte → Option (List Byte)
opaque mlkemDecaps : List Byte → List Byte → List Byte
/-- AES-256-GCM: key, nonce, additional data, ciphertext, tag; none: the tag fails. -/
opaque gcmOpen : List Byte → List Byte → List Byte → List Byte → List Byte → Option (List Byte)

/-! ## Placement inside the device that the spec leaves to it -/

/-- The set of a front cache line (R91): number of cache banks, directory entry, line. -/
opaque cacheSet : Nat → Nat → Nat → Nat

/-- How far the members of a stripe are rotated over the pool channels of its object (R99 fixes stripes, not their placement): FAMILY,
LEAF_ROOT, stripe. -/
opaque stripeShift : List Byte → List Byte → Nat → Nat

/-- The root of the pool map (R98: its form is not in the spec), by the objects that the pool holds: their FAMILY and LEAF_ROOT. -/
opaque mapRoot : List (List Byte × List Byte) → Digest

/-! ## Values that the part carries and the spec does not print -/

/-- Digests of Larmany firmware key 0 in the boot ROM mask (R280): ECDSA and ML-DSA-65. -/
opaque romKey : Digest × Digest

/-- The ledger key of a voted ledger key seed (R284), and the ledger's 64-bit check value of a key. -/
opaque ledgerKey : List Byte → List Byte
opaque keyCheck : List Byte → DWord

/-- The mid-scale value of PHY_TRIM (R280). -/
opaque phyMid : Word

/-- Larmany's PCI vendor identifier, the device identifier, and I3C_PID_LO (pages PCI, I3C). -/
opaque pciVendor : BitVec 16
opaque pciDevice : BitVec 16
opaque i3cPid : BitVec 32
/-- A register of the configuration space that PCIe Base 5.0 lays out and R240 does not fix, by offset. -/
opaque pciConfig : Nat → BitVec 32
/-- Byte 0x037 of IDENTIFY's device structure for an observer, which is neither manager (R231). -/
opaque observerFunction : Byte

/-- A fuse bit that failed STRICT after three pulses reads 1 at NORMAL margin (R288 leaves it as it is): word address × 32 + bit. -/
opaque partBlown : Nat → Bool

/-- The fields of a device-firmware package header (chapter "Plates", Device firmware): the spec names them, not their places. -/
opaque fwHeader : List Byte → FwHeader

/-! ## Free values: outputs of the DRBG by draw number (R206) -/

/-- The draw behind a challenge, below 2^64 - 1: zero is excluded. -/
opaque challengeDraw : Nat → Fin 18446744073709551615

/-- A challenge: a 64-bit draw other than zero (R149, R115). -/
def challenge (i : Nat) : DWord := BitVec.ofNat 64 ((challengeDraw i).1 + 1)

/-- Byte i of the output of RANDOM, by draw. -/
opaque randomByte : Nat → Nat → Byte

/-! ## Measurements that the registers show (log entry 5) -/

/-- The voltage of a rail in mV, by the 10 µs refresh and the rail (R294). -/
opaque railMv : Nat → Nat → BitVec 12
/-- The die temperature, coded as degrees + 64, by device time. -/
opaque dieTemp : Nat → Byte
/-- The measured offset of the LPO in ppm, by device time. -/
opaque lpoPpm : Nat → Half

/-! ## The LPO (R145): a tick within 2 % of 1 MHz -/

/-- What the LPO runs above 98 % of 1 MHz, in ppm, during the count that starts at a reference edge. -/
opaque lpoDrift : Nat → Fin 40001

/-- The LPO's rate in ppm of 1 MHz: 98 % to 102 %. -/
def lpoRate (ref : Nat) : Nat := 980000 + (lpoDrift ref).1

end Sys2Proof.Config
end

