-- ==== Sys2Proof/Machine/State.lean ====
section
/-! DEFINITION. The state of the block, everything the spec gives it, as plain data, and its value at power-on. -/

namespace Sys2Proof.Machine

/-- No command faults: the spec gives every row of the table an effect, and refused accesses, failed commands and
errors are effects on the state (INVENTORY.md, Faults). -/
inductive Fault where
  deriving DecidableEq, Repr

/-- Raised only by a row that has no meaning yet; it stops the model (safe). -/
inductive Refusal where
  /-- raised by an arm of `exec` whose meaning is not written; safe -/
  | notModelled (mnemonic : String)
  deriving DecidableEq, Repr

/-- Who waits for an order or a command to complete: an Ovdel command from a ring or over MCTP, or a register order (R137). -/
inductive Asker where
  | cmd (src : Src)
  | mctp (ep : Fin 8) (cid : Half)
  | reg (m : Mgr) (order : Order)
  deriving DecidableEq, Repr

/-- What completes it. -/
inductive AwaitKind where
  /-- CH_HOLD: the hold instant -/
  | hold
  /-- CH_RESTART: the hold instant -/
  | restart
  /-- CH_RELEASE: READY, or RECOVERY -/
  | release
  /-- PLATE_ARM_PROOF: the release -/
  | arm
  /-- a register order that waits for the control cluster (R16) -/
  | order
  /-- DELETE_SQ: the completions of the queue's commands -/
  | delSq (qid : Nat)
  deriving DecidableEq, Repr

/-- A command or order whose completion is still to come. -/
structure Await where
  who : Asker
  ch : Nat
  kind : AwaitKind
  deriving DecidableEq, Repr

/-- The whole block. Vectors of 128 are indexed by host channel, of 64 by flash-side port. -/
structure State where
  /-- device time in ns (R253) -/
  now : Nat
  ports : Vector HostPort 128
  mbx : Vector Mailbox 128
  stn : Vector Stencil 128
  ctl : Vector Ctl 128
  plt : Vector PlateSt 128
  wdg : Vector Wdg 128
  areas : Vector Areas 128
  fps : Vector FlashPort 64
  /-- policy sections in force, and as the ledger holds them (R69) -/
  pol : Vector ChanPol 128
  polLedger : Vector ChanPol 128
  polMin : Word
  tamperPol : TamperPol
  /-- channel profiles in force, and as the standing configuration in use has them (R315) -/
  prof : Vector ChanCfg 128
  profCfg : Vector ChanCfg 128
  dcfg : DevCfg
  /-- restart and backup line images in force -/
  twl : List Nat
  poolProf : List Byte
  /-- the two ledger copies of the configuration image (bytes that are not zero) -/
  cfgImg : LPair (SMap Byte)
  imm : ImageMem
  fca : FrontCache
  farm : Farm
  pool : Pool
  mins : LPair MinTable
  devfw : DevFw
  plat : Platform
  mwd : PerMgr Mwd
  intw : IntWdg
  trace : Tracing
  att : Attest
  spdm : Vector Endpoint 8
  i3c : Vector I3cPort 4
  rings : PerMgr Ring
  /-- arbitration among SQs: classes BULK, NORMAL, URGENT (R222) -/
  arb : Vector ArbClass 3
  views : PerMgr View
  /-- commands and orders whose completion waits for an event, oldest first -/
  awaits : List Await
  /-- page headers by BAR0 page number (R245) -/
  hdrs : Vector (PerMgr Hdr) 1024
  burin : Burin
  hash : PerMgr HashWork
  drbg : Drbg
  /-- draws made so far from the DRBG: the model's own counter, the argument of Config's free values -/
  drawn : Nat
  keys : KeyStore
  tamper : Tamper
  otp : Otp
  part : Part
  power : Power
  clk : Clk
  led : Ledger
  dev : Device
  /-- commands that wait, first in first out -/
  pending : List Instr
  deriving DecidableEq, Repr

/-- The fuse array of a finalised SKD-12864 has VARIANT word 0 = 0 (R285); the model's array at power-on is blank but
for the part number (log entry 6). -/
def Otp.reset : Otp :=
  { normal := [], strict := [], shadow := [], regions := Vector.replicate 6 .blank, state := 0, region := 0,
    vppOk := false, pumpReady := true, marg := 0, repulses := 0, pulses := 0, failed := 0, pumpOnly := false,
    lastStatus := 0, lastRegion := 0, fwKey := 0, fwUnusable := 0, ownUnusable := 0, lpoUnusable := false, debugLeft := false, busy := none }

/-- The SKD-12864's resources (R3): what the channels of the model are numbered by before the first SHADOW. -/
def Part.full : Part := { hosts := 128, fps := 64, pools := 16, pcie1 := true, pq := true, debug := false }

/-- The state at power-on, before POR release: device time 0, every register at its Reset value. -/
def State.reset : State :=
  { now := 0, ports := Vector.replicate 128 HostPort.reset, mbx := Vector.replicate 128 Mailbox.reset,
    stn := Vector.replicate 128 Stencil.reset, ctl := Vector.replicate 128 Ctl.reset,
    plt := Vector.replicate 128 PlateSt.reset, wdg := Vector.replicate 128 Wdg.reset,
    areas := Vector.replicate 128 Areas.reset, fps := Vector.replicate 64 FlashPort.reset,
    pol := Vector.replicate 128 ChanPol.default, polLedger := Vector.replicate 128 ChanPol.default, polMin := 0,
    tamperPol := TamperPol.default, prof := Vector.replicate 128 ChanCfg.default,
    profCfg := Vector.replicate 128 ChanCfg.default, dcfg := DevCfg.default, twl := List.replicate 16 0,
    poolProf := List.replicate 16 0, cfgImg := { c0 := .zero, c1 := .zero }, imm := ImageMem.reset,
    fca := FrontCache.reset, farm := Farm.reset, pool := Pool.reset, mins := { c0 := .zero, c1 := .zero },
    devfw := DevFw.reset, plat := Platform.reset, mwd := PerMgr.both Mwd.reset, intw := IntWdg.reset,
    trace := Tracing.reset, att := Attest.reset, spdm := Vector.replicate 8 Endpoint.reset,
    i3c := Vector.replicate 4 I3cPort.reset, rings := PerMgr.both Ring.reset, arb := Vector.replicate 3 { last := .b, queue := PerMgr.both 0 }, views := PerMgr.both View.reset,
    awaits := [],    hdrs := Vector.replicate 1024 (PerMgr.both Hdr.reset), burin := Burin.reset, hash := PerMgr.both HashWork.reset,
    drbg := Drbg.reset, drawn := 0, keys := KeyStore.reset, tamper := Tamper.reset, otp := Otp.reset, part := Part.full,
    power := Power.reset, clk := Clk.reset, led := Ledger.reset, dev := Device.reset, pending := [] }

end Sys2Proof.Machine
end

