-- ==== Sys2Proof/Machine/Ops.lean ====
section
/-! DEFINITION. Named operations over the state that every family uses: access to indexed parts, draws, Tracing's
hardware queue, pending event slots, MSI-X and page interrupts, and the status codes of R237. -/

namespace Sys2Proof.Machine

/-- What a command answers. -/
abbrev Out := Host.Outcome State Fault Refusal

/-! ## Indexed parts -/

/-- Element i. -/
def vget {α : Type} {k : Nat} (v : Vector α k) (i : Fin k) : α := v[i.1]'i.2

/-- Replace element i. -/
def vset {α : Type} {k : Nat} (v : Vector α k) (i : Fin k) (x : α) : Vector α k := v.set i.1 x i.2

/-- Set or clear bit i. -/
def putBit {w : Nat} (x : BitVec w) (i : Nat) (b : Bool) : BitVec w :=
  if b then x ||| BitVec.ofNat w (2 ^ i) else x &&& ~~~BitVec.ofNat w (2 ^ i)

/-- Change element i. -/
def vmod {α : Type} {k : Nat} (v : Vector α k) (i : Fin k) (f : α → α) : Vector α k := vset v i (f (vget v i))

/-- A number as an index below k, if it is one. -/
def fin? (k i : Nat) : Option (Fin k) := if h : i < k then some ⟨i, h⟩ else none

def State.modPort (s : State) (n : Fin 128) (f : HostPort → HostPort) : State := { s with ports := vmod s.ports n f }
def State.modMbx (s : State) (n : Fin 128) (f : Mailbox → Mailbox) : State := { s with mbx := vmod s.mbx n f }
def State.modStn (s : State) (n : Fin 128) (f : Stencil → Stencil) : State := { s with stn := vmod s.stn n f }
def State.modCtl (s : State) (n : Fin 128) (f : Ctl → Ctl) : State := { s with ctl := vmod s.ctl n f }
def State.modPlt (s : State) (n : Fin 128) (f : PlateSt → PlateSt) : State := { s with plt := vmod s.plt n f }
def State.modWdg (s : State) (n : Fin 128) (f : Wdg → Wdg) : State := { s with wdg := vmod s.wdg n f }
def State.modAreas (s : State) (n : Fin 128) (f : Areas → Areas) : State := { s with areas := vmod s.areas n f }
def State.modFp (s : State) (n : Fin 64) (f : FlashPort → FlashPort) : State := { s with fps := vmod s.fps n f }
def State.modPol (s : State) (n : Fin 128) (f : ChanPol → ChanPol) : State := { s with pol := vmod s.pol n f }
def State.modRing (s : State) (m : Mgr) (f : Ring → Ring) : State := { s with rings := s.rings.set m (f (s.rings.get m)) }
def State.modView (s : State) (m : Mgr) (f : View → View) : State := { s with views := s.views.set m (f (s.views.get m)) }
def State.modMwd (s : State) (m : Mgr) (f : Mwd → Mwd) : State := { s with mwd := s.mwd.set m (f (s.mwd.get m)) }
def State.modHash (s : State) (m : Mgr) (f : HashWork → HashWork) : State := { s with hash := s.hash.set m (f (s.hash.get m)) }
def State.modAttView (s : State) (m : Mgr) (f : AttView → AttView) : State :=
  { s with att := { s.att with views := s.att.views.set m (f (s.att.views.get m)) } }
def State.modDir (s : State) (i : Fin 256) (f : Impression → Impression) : State :=
  { s with imm := { s.imm with dir := vmod s.imm.dir i f } }
def State.modCore (s : State) (k : Fin 4) (f : Core → Core) : State :=
  { s with burin := { s.burin with cores := vmod s.burin.cores k f } }
def State.modPool (s : State) (k : Fin 16) (f : PoolChan → PoolChan) : State :=
  { s with pool := { s.pool with chans := vmod s.pool.chans k f } }
def State.modEp (s : State) (e : Fin 8) (f : Endpoint → Endpoint) : State := { s with spdm := vmod s.spdm e f }
def State.modI3c (s : State) (p : Fin 4) (f : I3cPort → I3cPort) : State := { s with i3c := vmod s.i3c p f }
def State.modSlot (s : State) (k : Fin 256) (f : KeySlot → KeySlot) : State :=
  { s with keys := { s.keys with slots := vmod s.keys.slots k f } }

def State.port (s : State) (n : Fin 128) : HostPort := vget s.ports n
def State.mb (s : State) (n : Fin 128) : Mailbox := vget s.mbx n
def State.st (s : State) (n : Fin 128) : Stencil := vget s.stn n
def State.ch (s : State) (n : Fin 128) : Ctl := vget s.ctl n
def State.pl (s : State) (n : Fin 128) : PlateSt := vget s.plt n
def State.wd (s : State) (n : Fin 128) : Wdg := vget s.wdg n
def State.area (s : State) (n : Fin 128) : Areas := vget s.areas n
def State.fp (s : State) (n : Fin 64) : FlashPort := vget s.fps n
def State.polOf (s : State) (n : Fin 128) : ChanPol := vget s.pol n
def State.profOf (s : State) (n : Fin 128) : ChanCfg := vget s.prof n
def State.dirE (s : State) (i : Fin 256) : Impression := vget s.imm.dir i
def State.core (s : State) (k : Fin 4) : Core := vget s.burin.cores k
def State.ep (s : State) (e : Fin 8) : Endpoint := vget s.spdm e
def State.slot (s : State) (k : Fin 256) : KeySlot := vget s.keys.slots k
/-- Material of a DEVICE key open to use: none once the key is gone, or locked (R169). -/
def State.devKey (s : State) (k : DevKey) : Option (List Byte) :=
  if (s.slot k.slot).access.getLsbD 2 then (s.slot k.slot).material else none
/-- A DEVICE key takes its slot: for internal use, from the device (R255-R257). -/
def State.putDevKey (s : State) (k : DevKey) (bytes : List Byte) : State :=
  s.modSlot k.slot fun x =>
    { KeySlot.empty with type := k.kind.1, usage := k.kind.2, access := 4, origin := 4, material := some bytes, stamp := x.stamp + 1 }
/-- A DEVICE key locks against every use. -/
def State.lockDevKey (s : State) (k : DevKey) : State := s.modSlot k.slot fun x => { x with access := 0 }
def State.ring (s : State) (m : Mgr) : Ring := s.rings.get m
def State.view (s : State) (m : Mgr) : View := s.views.get m

/-- Apply a change to every channel in ascending order. -/
def State.forChans (s : State) (f : Fin 128 → State → State) : State :=
  (List.finRange 128).foldl (fun s n => f n s) s

/-- Apply a change for each element of a list in order. -/
def State.forAll {α : Type} (s : State) (l : List α) (f : α → State → State) : State := l.foldl (fun s x => f x s) s

/-- Apply a change if a condition holds. -/
def State.when (s : State) (c : Bool) (f : State → State) : State := if c then f s else s

/-! ## Presence (R3, R5) -/

/-- Host channel n is enabled by the part number. -/
def State.chanOn (s : State) (n : Fin 128) : Bool := n.1 < s.part.hosts

/-- Flash-side port f is enabled by the part number. -/
def State.fpOn (s : State) (f : Fin 64) : Bool := f.1 < s.part.fps

/-- Pool channel k is enabled by the part number. -/
def State.poolOn (s : State) (k : Fin 16) : Bool := k.1 < s.part.pools

/-- The manager's link is enabled by the part number (R7). -/
def State.mgrOn (s : State) (m : Mgr) : Bool := match m with | .a => true | .b => s.part.pcie1

/-- The number of a manager in events and records: 0 A, 1 B. -/
def mgrNum : Mgr → Nat
  | .a => 0
  | .b => 1

/-- The flash-side port that serves channel n (R4): FPn. -/
def portOf (n : Fin 128) : Option (Fin 64) := fin? 64 n.1

/-! ## Draws from the DRBG: free values -/

/-- n bytes that a draw gave. -/
def drawBytes (draw n : Nat) : List Byte := (List.range n).map (Config.randomByte draw)

/-- The index of the next draw; the counter advances. -/
def State.draw (s : State) : Nat × State := (s.drawn, { s with drawn := s.drawn + 1 })

/-- k requests to GENERAL, which counts them (R206, R207); `draw` itself is a request to KEY. -/
def State.drawGeneral (s : State) (k : Nat := 1) : State :=
  { s with drawn := s.drawn + k, drbg := { s.drbg with genReqs := s.drbg.genReqs + k } }

/-- A new 64-bit challenge: a draw from GENERAL that is never zero (R149, R115). -/
def State.drawChallenge (s : State) : DWord × State := (Config.challenge s.drawn, s.drawGeneral)

/-! ## Device time (R253) -/

/-- Device time passes. -/
def State.pass (s : State) (ns : Nat) : State := { s with now := s.now + ns }

/-- A timed event falls at its due time: where the clock has not come to it, device time passes until then (DESIGN CHOICE, log
entry 2). -/
def State.until (s : State) (t : Nat) : State := { s with now := max s.now t }

/-! ## Tracing's hardware queue (R180) -/

/-- The queue with a record: among the records of its device time it stands in ascending channel order, device records last (R180). DESIGN
CHOICE (log entry 2): for this the commands of one device time fall in one slot. -/
def enqueue (e : TraceEvt) : List TraceEvt → List TraceEvt
  | [] => [e]
  | x :: q => if x.time = e.time ∧ e.ch < x.ch then e :: x :: q else x :: enqueue e q

/-- Queue a record; a full queue counts it lost. -/
def State.pushTrace (s : State) (e : TraceEvt) : State :=
  if s.trace.queue.length < 4096 then { s with trace := { s.trace with queue := enqueue e s.trace.queue } }
  else
    { s with trace := { s.trace with lost := s.trace.lost + 1,
                                     lostFrom := if s.trace.lost = 0 then e.time else s.trace.lostFrom,
                                     lostTo := e.time } }

/-- Queue a record that extends no measurement register. CH 0xFFFF names the device. -/
def State.log (s : State) (type ch : Nat) (info : List Nat) : State :=
  s.pushTrace { time := s.now, start := s.dev.startCount, type := BitVec.ofNat 16 type, ch := BitVec.ofNat 16 ch, meas := 0xFF, info := info, v := Digest.zero }

/-- Queue a record that extends MEASi with v. -/
def State.logMeas (s : State) (type ch i : Nat) (info : List Nat) (v : Digest) : State :=
  s.pushTrace { time := s.now, start := s.dev.startCount, type := BitVec.ofNat 16 type, ch := BitVec.ofNat 16 ch, meas := BitVec.ofNat 8 i, info := info, v := v }

/-- Device records name no channel. -/
def devCh : Nat := 0xFFFF

/-- Extend MEASi of a channel with v and record it (R175). -/
def State.extend (s : State) (n : Fin 128) (i : Fin 8) (type : Nat) (info : List Nat) (v : Digest) : State :=
  (s.modMbx n fun b =>
    { b with meas := vmod b.meas i fun d => Config.sha384 (d.toList ++ v.toList) }).logMeas type n.1 i.1 info v

/-- One second in ns. -/
def second : Nat := 1000000000

/-- One millisecond in ns. -/
def msec : Nat := 1000000

/-- One microsecond in ns. -/
def usec : Nat := 1000

/-- The summary entry of a type and channel (R178): (count, first, last), (count last written, when + 1 or 0). -/
def summaryOf (l : List ((Nat × Nat) × (Nat × Nat × Nat) × (Nat × Nat))) (k : Nat × Nat) :
    (Nat × Nat × Nat) × (Nat × Nat) :=
  ((l.find? fun e => e.1 = k).map fun e => e.2).getD ((0, 0, 0), (0, 0))

/-- Write the summary records that are due: count changed, and at most one a second per channel (R178). -/
def State.flushSummaries (s : State) : State :=
  s.forAll s.trace.summaries fun e s =>
    if e.2.1.1 ≠ e.2.2.1 ∧ (e.2.2.2 = 0 ∨ e.2.2.2 - 1 + second ≤ s.now) then
      let s := s.log e.1.1 e.1.2 [e.2.1.1, e.2.1.2.1, e.2.1.2.2]
      { s with trace := { s.trace with summaries := s.trace.summaries.map fun x =>
          if x.1 = e.1 then (x.1, x.2.1, (x.2.1.1, s.now + 1)) else x } }
    else s

/-- One REFCLK edge passes (R308, R253), and the summary records that are due by then are written (R178). -/
def State.tick (s : State) : State := (s.pass 10).flushSummaries

/-- Count one occurrence of a summary type on a channel (R178). -/
def State.summary (s : State) (type ch : Nat) : State :=
  let o := summaryOf s.trace.summaries (type, ch)
  let e := ((type, ch), (o.1.1 + 1, (if o.1.1 = 0 then s.now else o.1.2.1), s.now), o.2)
  State.flushSummaries
    { s with trace := { s.trace with summaries := (s.trace.summaries.filter fun x => x.1 ≠ (type, ch)) ++ [e] } }

/-! ## Events (R221, R238) -/

/-- The class of an event code: c in 0x0c00. -/
def eventClass (code : Half) : Nat := code.toNat / 256

/-- Take an event into one manager's pending slots. -/
def raiseAt (now : Nat) (e : Event) (r : Ring) : Ring :=
  if ¬ r.mask.getLsbD (eventClass e.code - 1) then r
  else if r.slots.any fun x => x.ev.code = e.code ∧ x.ev.ch = e.ch then
    { r with slots := r.slots.map fun x =>
        if x.ev.code = e.code ∧ x.ev.ch = e.ch then { x with ev := e, count := satInc x.count } else x }
  else if r.slots.length < 64 then { r with slots := r.slots ++ [{ ev := e, time := now, count := 1 }] }
  else { r with evtLost := satInc r.evtLost }

/-- Raise an event to both managers. -/
def State.raise (s : State) (code ch : Nat) (data : List Nat) : State :=
  let e : Event := { code := BitVec.ofNat 16 code, ch := BitVec.ofNat 16 ch, data := data }
  { s with rings := { a := raiseAt s.now e s.rings.a, b := raiseAt s.now e s.rings.b } }

/-! ## MSI-X (R252) and page interrupts (R250) -/

/-- An MSI-X entry that nothing has written: masked, as PCIe Base 5.0 resets it. -/
def MsixEntry.fresh : MsixEntry := { addr := 0, data := 0, masked := true, pend := false }

/-- Messages may go out: MSI-X Enable and Bus Master Enable set, Function Mask clear. -/
def PciCfg.signals (c : PciCfg) : Bool := c.msixEn && !c.msixMask && c.master

/-- Signal a vector of a manager's function (R252): a message, or the pending bit of a vector that is masked, by itself or with the function.
PRESUMED (log entry 96): without MSI-X Enable neither, and without Bus Master Enable as if masked. -/
def State.msix (s : State) (m : Mgr) (vec : Nat) : State :=
  s.modView m fun v =>
    let e := (SMap.get? v.msix vec).getD MsixEntry.fresh
    if !v.cfg.msixEn then v
    else if e.masked || !v.cfg.signals then { v with msix := SMap.put v.msix vec { e with pend := true } }
    else { v with out := v.out ++ [.msix vec] }

/-- The vectors that pend and are masked no longer send their messages. -/
def View.flushMsix (v : View) : View :=
  if v.cfg.signals then
    { v with out := v.out ++ (v.msix.filter fun e => e.2.pend && !e.2.masked).map fun e => .msix e.1,
             msix := v.msix.map fun e => (e.1, { e.2 with pend := e.2.pend && e.2.masked }) }
  else v

/-- PAGE_STAT.ERR of a view (R245). -/
def Hdr.err (h : Hdr) : Bool := h.ignored || h.size

/-- IRQ_RAW (R245). -/
def Hdr.irqRaw (h : Hdr) : BitVec 2 := (if h.err then 1 else 0) ||| (if h.shdDone then 2 else 0)

/-- IRQ_STAT = IRQ_RAW AND IRQ_EN. -/
def Hdr.irqStat (h : Hdr) : BitVec 2 := h.irqRaw &&& h.irqEn

/-- Change a page header of a view; IRQ_STAT leaving zero sends one message (R250). -/
def State.modHdr (s : State) (m : Mgr) (page : Fin 1024) (f : Hdr → Hdr) : State :=
  let h := (vget s.hdrs page).get m
  let h' := f h
  let s := { s with hdrs := vmod s.hdrs page fun p => p.set m h' }
  if h.irqStat = 0 ∧ h'.irqStat ≠ 0 ∧ (s.view m).irqEn then s.msix m (s.view m).irqVector.toNat else s

/-- Record an ignored write (R11): ERR_INFO bit 0 and OFFSET. -/
def State.ignoredWrite (s : State) (m : Mgr) (off : Nat) : State :=
  match fin? 1024 (off / 4096) with
  | some p => s.modHdr m p fun h => { h with ignored := true, errOffset := BitVec.ofNat 12 (off % 4096) }
  | none => s

/-- BAR0 offset of CHn_CTL (0), CHn_STN (1), CHn_WDG (2) and CHn_MBX (3) (R240). -/
def chanPage (n : Fin 128) (j : Nat) : Nat := 0x100000 + n.1 * 0x4000 + j * 0x1000

/-- Page number of CHn_STN. -/
def stnPage (n : Fin 128) : Fin 1024 := ⟨0x101 + 4 * n.1, by omega⟩

/-- A COMMIT of the manager awaits its slot: RESULT is PENDING (R67, R246). -/
def State.shdPending (s : State) (m : Mgr) (n : Fin 128) : Bool := ((vget s.hdrs (stnPage n)).get m).result = 1

/-- BAR0 offset of page FPn. -/
def fpPage (f : Fin 64) : Nat := 0x300000 + f.1 * 0x1000

/-- BAR0 offset of page POLk. -/
def polPage (k : Fin 16) : Nat := 0x340000 + k.1 * 0x1000

/-! ## Status codes (R237) -/

abbrev Status := BitVec 15

def stSuccess : Status := 0x0000
def stInvalidOpcode : Status := 0x0001
def stInvalidField : Status := 0x0002
def stSuperseded : Status := 0x0003
def stAborted : Status := 0x0004
def stNotPermitted : Status := 0x0005
def stSignatureFailed : Status := 0x0006
def stCounterStale : Status := 0x0007
def stVersionRollback : Status := 0x0008
def stBusy : Status := 0x0009
def stResourceExhausted : Status := 0x000A
def stInputRange : Status := 0x0010
def stPointInvalid : Status := 0x0011
def stKeyInvalid : Status := 0x0012
def stSigInvalid : Status := 0x0013
def stResultInvalid : Status := 0x0014
def stModulusInvalid : Status := 0x0015
def stFaultDetected : Status := 0x0016
def stDigestMismatch : Status := 0x0020
def stImageIncomplete : Status := 0x0021
def stPlateConflict : Status := 0x0022
def stWriteInhibited : Status := 0x0030
def stOtpLocked : Status := 0x0031
def stOtpMarginal : Status := 0x0032
def stVersionUnsupported : Status := 0x0040

/-! ## Managers (R161, R162, R225) -/

/-- The fallback is in force (R162; on a one-link part manager A alone decides, R7). -/
def State.fallback (s : State) : Bool := s.dev.fallback

/-- The primary manager that the standing configuration names (R225; B is ignored without its link, R7). -/
def State.primary (s : State) : Option Mgr :=
  match s.dcfg.primary with
  | 1 => some .a
  | 2 => if s.part.pcie1 then some .b else none
  | _ => none

/-- The manager is the secondary while the primary is not lost (R225). -/
def State.isSecondary (s : State) (m : Mgr) : Bool :=
  match s.primary with
  | some p => p ≠ m && !(s.mwd.get p).lost
  | none => false

/-! ## Ledger commits (R108, R300) -/

/-- Ledger writes are forbidden now: low-supply inhibit. -/
def State.inhibited (s : State) : Bool := s.power.inhibit

/-- No plate commit can be made now: low-supply inhibit (R108), or the control cluster is absent (R16). -/
def State.noCommit (s : State) : Bool := s.power.inhibit || s.dev.ccAbsent

/-- Count one record commit (LED_COMMITS). -/
def State.committed (s : State) : State := { s with led := { s.led with commits := s.led.commits + 1 } }

/-- SEQ of a copy: none for a copy that is zero or invalid. -/
def LCopy.seq? {α : Type} : LCopy α → Option Nat
  | .valid q _ => some q
  | _ => none

/-- Two valid copies with equal sequence numbers (R109). -/
def LPair.tied {α : Type} (p : LPair α) : Bool :=
  match p.c0, p.c1 with
  | .valid q0 _, .valid q1 _ => q0 = q1
  | _, _ => false

/-- Neither copy is valid, and they are not both entirely zero. -/
def LPair.lost {α : Type} (p : LPair α) : Bool :=
  match p.c0, p.c1 with
  | .valid _ _, _ | _, .valid _ _ | .zero, .zero => false
  | _, _ => true

/-- Content of a copy. -/
def LCopy.val? {α : Type} : LCopy α → Option α
  | .valid _ x => some x
  | _ => none

/-- SEQ of the copy in use: the higher of the valid ones (R109). -/
def LPair.seq {α : Type} (p : LPair α) : Nat := max (p.c0.seq?.getD 0) (p.c1.seq?.getD 0)

/-- The record in use: the valid copy with the higher SEQ (R109). -/
def LPair.cur {α : Type} (p : LPair α) : Option α :=
  match p.c0, p.c1 with
  | .valid q0 x0, .valid q1 x1 => if q1 ≤ q0 then some x0 else some x1
  | .valid _ x0, _ => some x0
  | _, .valid _ x1 => some x1
  | _, _ => none

/-- Commit a record with the next SEQ over the copy that is not in use (R108). -/
def LPair.commit {α : Type} (p : LPair α) (x : α) : LPair α :=
  let new := LCopy.valid (p.seq + 1) x
  match p.c0, p.c1 with
  | .valid q0 _, .valid q1 _ => if q1 ≤ q0 then { p with c1 := new } else { p with c0 := new }
  | .valid _ _, _ => { p with c1 := new }
  | _, _ => { p with c0 := new }

/-! ## Burin's cores (R201, R203, R204) -/

/-- A wipe of a core's operand memory: 8 µs from a device time (R204). -/
def Core.wipe (c : Core) (start : Nat) : Core := { c with wipes := satInc c.wipes, wiped := true, wipeEnd := start + 8 * usec }

/-- The core that a job of an owner takes: among the idle ones, one whose last owner it was. -/
def State.coreFor (s : State) (o : Owner) : Option (Fin 4) :=
  let idle := (List.finRange 4).filter fun k => (s.core k).state = 0
  (idle.find? fun k => (s.core k).lastOwner = o).or idle.head?

/-- A job of the device itself, of a computation time in ns: it wipes a core of another owner, runs on it at once, and leaves it as its last
owner. DESIGN CHOICE (log entry 72): where no core is idle it leaves no trace on the cores. -/
def State.internalRun (s : State) (time : Nat) : State :=
  match s.coreFor .internal with
  | none => s
  | some k => s.modCore k fun c =>
    let c := if c.lastOwner = .none ∨ c.lastOwner = .internal then c else c.wipe s.now
    { c with lastOwner := .internal, jobs := satInc c.jobs, lastCycles := BitVec.ofNat 32 time, wiped := false }

/-! ## Device state -/

/-- Change the device state: event DEVICE_STATE and a DEVICE record (R238, R178). -/
def DevState.code : DevState → Nat
  | .por => 0 | .shadow => 1 | .rom => 2 | .deviceRecovery => 3 | .start => 4 | .running => 5 | .safeHold => 6 | .standby => 7

def State.setDev (s : State) (d : DevState) : State :=
  if s.dev.state = d then s
  else
    let c := s.dev.state.code
    let s := { s with dev := { s.dev with state := d } }
    (s.raise 0x0801 devCh [c, d.code]).log 0x0005 devCh [c, d.code]

end Sys2Proof.Machine
end

