-- ==== Sys2Proof/Machine/Complete.lean ====
section
/-! DEFINITION. Completions (R218-R220): posting an entry, releasing SQ units, the error log, and the orders and commands
whose completion waits for an event. -/

namespace Sys2Proof.Machine

/-- The queue's next write position and phase after one entry (R219); the entry counts as not yet signalled (R224). -/
def Cq.advance (now : Nat) (q : Cq) : Cq :=
  let wrap := q.tail + 1 = q.depth
  { q with tail := if wrap then 0 else q.tail + 1, phase := if wrap then !q.phase else q.phase,
           unsignalled := q.unsignalled + 1, firstAt := if q.unsignalled = 0 then now else q.firstAt }

/-- Free entries of a CQ (R220). -/
def Cq.free (q : Cq) : Nat := q.depth - 1 - (q.tail + q.depth - q.head) % q.depth - q.reserved

/-- Release leading entries that have completed (R211: HEAD). Entries taken early during a restart lie beyond CONS and
do not move HEAD (R19). -/
def Sq.release (q : Sq) : Sq :=
  let flight := q.flight.dropWhile fun f => f.done && !(q.early.contains f.start)
  let ahead := flight.filter fun f => !(q.early.contains f.start)
  { q with flight := flight, head := match ahead with
      | [] => q.cons
      | f :: _ => f.start }

/-- Sixteen result bytes. -/
def res16 (bs : List Byte) : List Byte := (bs ++ List.replicate 16 0).take 16

/-- A DMA of manager m's function fails on the link (R254): logged in AER, with the bits that PCIe Base 5.0 gives a requester (PRESUMED, log
entry 96), counted, its address kept. -/
def State.dmaFailed (s : State) (m : Mgr) (kind : BitVec 3) (addr : DWord) : State :=
  s.modView m fun v =>
    { v with aer := v.aer ++ [kind.toNat], dmaErr := satInc v.dmaErr, dmaKind := kind, dmaAddr := addr,
             cfg := { v.cfg with status := v.cfg.status ||| BitVec.ofNat 16 ([0, 0x2000, 0x1000].getD kind.toNat 0),
                                 aerUncor := v.cfg.aerUncor ||| BitVec.ofNat 32 ([0, 0, 0, 0x1000, 0x4000].getD kind.toNat 0) } }

/-- A DMA of a command or a queue of manager m fails: RNG_ERR counts it too. -/
def State.ringDmaFailed (s : State) (m : Mgr) (kind : BitVec 3) (addr : DWord) : State :=
  (s.dmaFailed m kind addr).modRing m fun r => { r with dmaErr := satInc r.dmaErr }

/-- The function may start a DMA (R254): the link is up, and Bus Master Enable is set. -/
def State.dmaUp (s : State) (m : Mgr) : Bool := (s.view m).linkUp && (s.view m).cfg.master

/-- A queue in fault; a CQ takes its SQs with it, queue 0 the half (R239). -/
def State.queueFault (s : State) (m : Mgr) (q : Byte) (sq : Bool) : State :=
  let s := s.modRing m fun r =>
    { r with
      sqs := r.sqs.map fun e => if (sq && e.1 = q.toNat) || (!sq && e.2.cq = q) then (e.1, { e.2 with fault := true }) else e,
      cqs := r.cqs.map fun e => if !sq && e.1 = q.toNat then (e.1, { e.2 with fault := true }) else e,
      fatal := r.fatal || q = 0, errQid := q, errSq := sq, errReason := 6 }
  s.raise 0x0810 devCh [mgrNum m, q.toNat, bval sq]

/-- Post the completion of a command into the CQ of its SQ; the slot reserved for it is used and its units are released
(R217, R220). A failed command enters the error log. Nothing is posted for a queue that does not exist, nothing is written to a CQ in fault,
and a CQ that no DMA reaches goes into fault (R239, R254). -/
def State.post (s : State) (src : Src) (st : Status) (info : Nat) (result : List Byte) (more : Bool) : State :=
  let r := s.ring src.mgr
  match SMap.get? r.sqs src.sq.toNat with
  | none => s
  | some q =>
    let hit := q.flight.find? fun f => f.cid = src.cid && !f.done
    let flight := match hit with
      | none => q.flight
      | some f => q.flight.map fun x => if x = f then { x with done := true } else x
    let q := Sq.release { q with flight := flight, fenced := false }
    let r := { r with sqs := SMap.put r.sqs src.sq.toNat q }
    let r := if st = stSuccess then r else
      let e : ErrLine :=
        { time := s.now, sq := src.sq.zeroExtend 16, cid := src.cid,
          opc := (hit.map fun f => f.opc).getD 0, status := st, info := BitVec.ofNat 32 info }
      { r with errLog := (e :: r.errLog).take 64 }
    match SMap.get? r.cqs q.cq.toNat with
    | none => s.modRing src.mgr fun _ => r
    | some c =>
      let e : Completion :=
        { result := res16 result, sqhd := BitVec.ofNat 16 q.head, sqid := src.sq.zeroExtend 16,
          cid := src.cid, status := st, more := more, info := BitVec.ofNat 32 info, phase := c.phase }
      let used := { c with reserved := if hit.isSome then c.reserved - 1 else c.reserved }
      let put := fun (c : Cq) => s.modRing src.mgr fun _ => { r with cqs := SMap.put r.cqs q.cq.toNat c }
      if c.fault then put used
      else if s.dmaUp src.mgr then
        (put (used.advance s.now)).modView src.mgr fun v => { v with out := v.out ++ [.completion q.cq c.tail e] }
      else ((put used).ringDmaFailed src.mgr 5 (c.base + BitVec.ofNat 64 (32 * c.tail))).queueFault src.mgr q.cq false

/-- A queue that DELETE_SQ has marked goes once its commands have completed; the DELETE_SQ command then completes (R232). -/
def State.reapSq (s : State) (m : Mgr) (qid : Nat) : State :=
  match SMap.get? (s.ring m).sqs qid with
  | some q =>
    if q.deleting && q.flight.isEmpty then
      let s := s.modRing m fun r => { r with sqs := SMap.del r.sqs qid }
      match s.awaits.find? fun a => a.kind = .delSq qid && (match a.who with | .cmd src => src.mgr = m | .mctp _ _ | .reg _ _ => false) with
      | some a =>
        let s := { s with awaits := s.awaits.filter fun x => x ≠ a }
        match a.who with
        | .cmd src => s.post src stSuccess 0 [] false
        | .mctp _ _ | .reg _ _ => s
      | none => s
    else s
  | none => s

/-- Complete an Ovdel command. -/
def State.finish (s : State) (src : Src) (st : Status) (info : Nat := 0) (result : List Byte := []) (more : Bool := false) : State :=
  let s := { s with dev := { s.dev with idleSince := s.now } }
  (s.post src st info result more).reapSq src.mgr src.sq.toNat

/-- Write bytes to the command's buffer in the manager's memory, where a DMA reaches it. -/
def State.toBuffer (s : State) (src : Src) (data : List Byte) : State :=
  if s.dmaUp src.mgr then s.modView src.mgr fun v => { v with out := v.out ++ [.buffer src.sq src.cid data] } else s

/-- Code of a register order in CHn_CTL_ORDER. -/
def Order.code : Order → BitVec 3
  | .hold => 1 | .release => 2 | .quarantine => 3 | .readmit => 4 | .restart => 5

/-- Send an Ovdel response on an MCTP endpoint (R236): at most 65,536 bytes of data, a longer result sets MORE. -/
def State.mctpReply (s : State) (e : Fin 8) (r : OvdelReply) : State :=
  let r := { r with result := res16 r.result, more := r.more || 65536 < r.data.length, data := r.data.take 65536 }
  s.modEp e fun x => { x with answers := x.answers ++ [r] }

/-- Complete whoever asked: a command by a completion or a response, a register order in CHn_CTL_ORDRES (R137). -/
def State.answer (s : State) (who : Asker) (n : Fin 128) (st : Status) (info : Nat := 0) (result : List Byte := []) : State :=
  match who with
  | .cmd src => s.finish src st info result
  | .mctp e cid =>
    s.mctpReply e { cid := cid, status := st, more := false, info := BitVec.ofNat 32 info, result := result, data := [] }
  | .reg m o => s.modCtl n fun c => { c with ordRes := c.ordRes.set m { status := st, done := true, order := o.code } }

/-- Wait for an event of channel n. -/
def State.wait (s : State) (who : Asker) (n : Fin 128) (k : AwaitKind) : State :=
  { s with awaits := s.awaits ++ [{ who := who, ch := n.1, kind := k }] }

/-- Complete every waiter of channel n whose kind meets a test, oldest first. -/
def State.answerAll (s : State) (n : Fin 128) (k : AwaitKind → Bool) (st : Status) (info : Nat) (result : List Byte) : State :=
  let hit := s.awaits.filter fun a => a.ch = n.1 && k a.kind
  let s := { s with awaits := s.awaits.filter fun a => !(a.ch = n.1 && k a.kind) }
  s.forAll hit fun a s => s.answer a.who n st info result

end Sys2Proof.Machine
end

