-- ==== Sys2Proof/Machine/Bar0.lean ====
section
/-! DEFINITION. Where BAR0 offsets lie and which pages respond (R240, R241, R244). -/

namespace Sys2Proof.Machine

/-- What lies at a BAR0 offset (R240, page index). -/
inductive Area where
  /-- global page by number, 0 to 0x19 -/
  | global (k : Nat)
  /-- page j of channel n's block: 0 CTL, 1 STN, 2 WDG, 3 MBX -/
  | chan (n : Fin 128) (j : Fin 4)
  | fp (f : Fin 64)
  | pool (k : Fin 16)
  | doorbell
  | msix
  | unmapped
  deriving DecidableEq, Repr

/-- The layout of BAR0. -/
def areaAt (off : Nat) : Area :=
  if off < 0x01A000 then .global (off / 4096)
  else if 0x100000 ≤ off ∧ off < 0x300000 then
    match fin? 128 ((off - 0x100000) / 0x4000), fin? 4 (off / 4096 % 4) with
    | some n, some j => .chan n j
    | _, _ => .unmapped
  else if 0x300000 ≤ off ∧ off < 0x340000 then
    match fin? 64 ((off - 0x300000) / 4096) with | some f => .fp f | none => .unmapped
  else if 0x340000 ≤ off ∧ off < 0x350000 then
    match fin? 16 ((off - 0x340000) / 4096) with | some k => .pool k | none => .unmapped
  else if 0x400000 ≤ off ∧ off < 0x401000 then .doorbell
  else if 0x410000 ≤ off ∧ off < 0x412040 then .msix
  else .unmapped

/-- Whether the resource is present in the part (R5). -/
def State.present (s : State) : Area → Bool
  | .global _ | .doorbell | .msix => true
  | .chan n _ => s.chanOn n
  | .fp f => s.fpOn f
  | .pool k => s.poolOn k
  | .unmapped => false

/-- Whether a present page responds in the device state (R244). In POR, SHADOW and ROM of a warm reset GLB, the doorbells and MSI-X;
in DEVICE_RECOVERY PCI and RNG as well; from START onwards every page. -/
def State.responds (s : State) (a : Area) : Bool :=
  match s.dev.state with
  | .start | .running | .safeHold | .standby => true
  | .por | .shadow | .rom => a = .global 0 || a = .doorbell || a = .msix
  | .deviceRecovery =>
    a = .global 0 || a = .global 0x18 || a = .global 0x9 || a = .global 0xA || a = .doorbell || a = .msix

/-- A manager's accesses reach BAR0: its link is enabled, Memory Space Enable is set (R240), and it is not before the first START, when
configuration requests are still answered with Request Retry Status (R7, R244). -/
def State.barOpen (s : State) (m : Mgr) : Bool :=
  s.mgrOn m && (s.view m).cfg.memory && !(s.dev.cold && (s.dev.state = .por || s.dev.state = .shadow || s.dev.state = .rom))

/-- An access at this offset finds a page that responds. -/
def State.mapped (s : State) (off : Nat) : Bool := s.present (areaAt off) && s.responds (areaAt off)

/-- Count an access to an unmapped or absent offset in PCI_ACCESS (R241). -/
def State.countUnmapped (s : State) (m : Mgr) : State := s.modView m fun v => { v with unmapped := satInc v.unmapped }

/-- A write of the register at an offset: it has its effect, or is counted where nothing responds. -/
def State.regW (s : State) (m : Mgr) (off : Nat) (body : State → State) : State :=
  if !s.barOpen m then s else if s.mapped off then body s else s.countUnmapped m

end Sys2Proof.Machine
end

