-- ==== Sys2Proof/Machine/Operands.lean ====
section
/-! DEFINITION. Operand forms of host commands: the fields of the Stencil's register images, windows, rules and frames
(R51, R55-R57, R339), the virtual flash size and addresses (R31), dummy counts (R35), and ownership of the port (R72). -/

namespace Sys2Proof.Machine

/-! ## Fields of the register images -/

def STable.base (t : STable) (w : Fin 32) : Nat := field (vget t.winBase w).toNat 17 0
def STable.size (t : STable) (w : Fin 32) : Nat := field (vget t.winSize w).toNat 18 0
/-- Treatment code: 0 DENY, 1 IMPRESSION, 2 PASS, 3 KEEP, 4 SCRATCH, 5 MAILBOX. -/
def STable.treat (t : STable) (w : Fin 32) : Nat := field (vget t.winAcc w).toNat 2 0
def STable.staging (t : STable) (w : Fin 32) : Bool := bit (vget t.winAcc w).toNat 3
def STable.map (t : STable) (w : Fin 32) : Nat := field (vget t.winMap w).toNat 17 0
def STable.used (t : STable) (w : Fin 32) : Bool := t.size w ≠ 0

/-- Code of a phase. -/
def Phase.code : Phase → Nat
  | .boot => 0 | .run => 1 | .update => 2 | .recovery => 3

/-- PERM bit of a phase and a class: 0 READ, 1 PROGRAM, 2 ERASE. -/
def STable.perm (t : STable) (w : Fin 32) (p cls : Nat) : Bool := bit (vget t.winAcc w).toNat (4 + 3 * p + cls)

def STable.rOp (t : STable) (r : Fin 64) : Nat := field (vget t.ruleA r).toNat 7 0
def STable.rProto (t : STable) (r : Fin 64) : Nat := field (vget t.ruleA r).toNat 11 8
def STable.rPhase (t : STable) (r : Fin 64) : Nat := field (vget t.ruleA r).toNat 15 12
/-- ACTION: 0 OFF, 1 ALLOW, 2 DENY, 3 TRANSLATE. -/
def STable.rAction (t : STable) (r : Fin 64) : Nat := field (vget t.ruleA r).toNat 17 16
def STable.rWin (t : STable) (r : Fin 64) : Nat := field (vget t.ruleA r).toNat 22 18
def STable.rWinEn (t : STable) (r : Fin 64) : Bool := bit (vget t.ruleA r).toNat 23
def STable.rTarget (t : STable) (r : Fin 64) : Nat := field (vget t.ruleA r).toNat 31 24
def STable.rAddr (t : STable) (r : Fin 64) : Nat := field (vget t.ruleB r).toNat 1 0
def STable.rDummy (t : STable) (r : Fin 64) : Nat := field (vget t.ruleB r).toNat 7 2
def STable.rDir (t : STable) (r : Fin 64) : Nat := field (vget t.ruleB r).toNat 9 8
def STable.rWren (t : STable) (r : Fin 64) : Bool := bit (vget t.ruleB r).toNat 10
def STable.rClass (t : STable) (r : Fin 64) : Nat := field (vget t.ruleB r).toNat 12 11

/-- Fields of a bucket image. -/
def bktDepth (x : Word) : Nat := field x.toNat 15 0
def bktInterval (x : Word) : Nat := field x.toNat 27 16
def bktUnit (x : Word) : Bool := bit x.toNat 28
def bktOn (x : Word) : Bool := bit x.toNat 31
/-- The interval in ns (R60). -/
def bktNs (x : Word) : Nat := bktInterval x * (if bktUnit x then msec else 10 * usec)

/-! ## Windows (R51, R58) -/

/-- Where a range lies: in one window, wholly in uncovered addresses, or neither. -/
inductive Where where
  | win (w : Fin 32)
  | uncovered
  | span
  deriving DecidableEq, Repr

/-- The window of a range of len bytes from address a (R58: window_of). -/
def STable.windowOf (t : STable) (a len : Nat) : Where :=
  match (List.finRange 32).find? fun w => t.used w && t.base w * 4096 ≤ a && a + len ≤ (t.base w + t.size w) * 4096 with
  | some w => .win w
  | none =>
    if (List.finRange 32).any fun w => t.used w && t.base w * 4096 < a + len && a < (t.base w + t.size w) * 4096 then .span
    else .uncovered

/-- The window that covers one address. -/
def STable.windowAt (t : STable) (a : Nat) : Option (Fin 32) :=
  (List.finRange 32).find? fun w => t.used w && t.base w * 4096 ≤ a && a < (t.base w + t.size w) * 4096

/-- The MAILBOX window. -/
def STable.mailbox (t : STable) : Option (Fin 32) := (List.finRange 32).find? fun w => t.used w && t.treat w = 5

/-- Byte address of the MAILBOX window. -/
def STable.mbxBase (t : STable) : Nat := (t.mailbox.map fun w => t.base w * 4096).getD 0

/-- A used window has a treatment. -/
def STable.has (t : STable) (code : Nat) : Bool := (List.finRange 32).any fun w => t.used w && t.treat w = code

/-- The staging window (R49). -/
def STable.stagingWin (t : STable) : Option (Fin 32) := (List.finRange 32).find? fun w => t.used w && t.staging w

/-! ## Command rules (R55, R339) -/

/-- The window that a rule is tested against: a command without an address takes the rule's own WIN. -/
inductive CmdWin where
  | noAddress
  | inWindow (w : Option (Fin 32))
  deriving DecidableEq, Repr

/-- Opcode, protocol and phase match (R55). -/
def STable.ruleOp (t : STable) (r : Fin 64) (op io ph : Nat) : Bool :=
  t.rAction r ≠ 0 && t.rOp r = op && (t.rProto r).testBit io && (t.rPhase r).testBit ph

/-- The whole rule matches. -/
def STable.ruleHit (t : STable) (r : Fin 64) (op io ph : Nat) (w : CmdWin) : Bool :=
  t.ruleOp r op io ph && (!t.rWinEn r || match w with
    | .noAddress => true
    | .inWindow (some w) => w.1 = t.rWin r
    | .inWindow none => false)

/-- The lowest-numbered matching rule. -/
def STable.findRule (t : STable) (op io ph : Nat) (w : CmdWin) : Option (Fin 64) :=
  (List.finRange 64).find? fun r => t.ruleHit r op io ph w

/-! ## The host command set (R24, R26) -/

/-- The opcode belongs to the host command set in protocol io (CR_IO). -/
def inHostSet (op io : Nat) : Bool :=
  if io = 3 then
    [0xEE, 0x05, 0x70, 0x50, 0x9F, 0x5A, 0x65, 0x72, 0x06, 0x04, 0x01, 0x12, 0x21, 0xDC, 0x60, 0x66, 0x99, 0xB9, 0xAB].contains op
  else
    [0x0B, 0x0C, 0x05, 0x70, 0x50, 0x9F, 0x5A, 0x65, 0x72, 0x06, 0x04, 0x01, 0x02, 0x12, 0x20, 0x21, 0xD8, 0xDC, 0x60, 0xC7,
     0xB7, 0xE9, 0x66, 0x99, 0xB9, 0xAB].contains op ||
    (io = 0 && [0x03, 0x13, 0x6B, 0x6C, 0xEB, 0xEC].contains op) || (io = 1 && [0xEB, 0xEC].contains op)

/-- Classes of host opcodes with an array address. -/
inductive ArrayClass where
  | read
  | program
  | erase (len : Nat)
  | chip
  | none
  deriving DecidableEq, Repr

/-- The class of a host opcode. -/
def arrayClass (op : Nat) : ArrayClass :=
  if [0x03, 0x13, 0x0B, 0x0C, 0x6B, 0x6C, 0xEB, 0xEC, 0xEE].contains op then .read
  else if [0x02, 0x12].contains op then .program
  else if [0x20, 0x21].contains op then .erase 0x1000
  else if [0xD8, 0xDC].contains op then .erase 0x10000
  else if [0x60, 0xC7].contains op then .chip
  else .none

/-- Opcodes that fix a four-byte address. -/
def fourByteOp (op : Nat) : Bool := [0x13, 0x0C, 0x6C, 0xEC, 0xEE, 0x12, 0x21, 0xDC].contains op

/-- Commands of the configuration and SFDP spaces, whose address is no array address. -/
def spaceOp (op : Nat) : Bool := [0x5A, 0x65, 0x72].contains op

/-- Status and identity reads, which take four ignored address bytes in Octal DDR. -/
def islandOp (op : Nat) : Bool := [0x05, 0x70, 0x9F].contains op

/-- The address length that a host opcode's own frame gives (R26): 0 none, 1 three bytes, 2 four bytes, 3 as CR_ADDR. -/
def ownAddr (op io : Nat) : Nat :=
  if spaceOp op then (if io = 3 then 2 else 1)
  else if islandOp op then (if io = 3 then 2 else 0)
  else if arrayClass op = .none || arrayClass op = .chip then 0
  else if op = 0x03 then 1
  else if io = 3 || fourByteOp op then 2 else 3

/-- The effective address of R31: the upper byte is zero in 3-byte addressing, then modulo S. -/
def effAddr (form : Nat) (addr4 : Bool) (size addr : Nat) : Nat :=
  (if form = 1 || (form = 3 && !addr4) then addr % 2 ^ 24 else addr % 2 ^ 32) % size

/-! ## Size and dummy counts -/

/-- log2 of S as the profile in force and the discovery give it now (R31); none while it is not fixed (R338). -/
def State.liveLog2? (s : State) (n : Fin 128) : Option Nat :=
  let p := s.profOf n
  if !p.enabled then none
  else if p.isLocal then
    if p.vfLog2 ≠ 0 then some p.vfLog2
    else match portOf n with
      | some f => if (s.fp f).state = 2 then some (s.fp f).densLog2.toNat else none
      | none => none
  else some p.vfLog2

/-- log2 of the virtual flash size S: that of the release while the channel is released (R34), else the live one. -/
def State.vfLog2? (s : State) (n : Fin 128) : Option Nat :=
  match (s.port n).ident with
  | some i => i.log2
  | none => s.liveLog2? n

/-- The virtual flash size S in bytes; 1 GiB where it is not fixed (R338). -/
def State.vfSize (s : State) (n : Fin 128) : Nat := 2 ^ ((s.vfLog2? n).getD 30)

/-- The local flash's own dummy count, zero without a port. -/
def State.localDummy (s : State) (n : Fin 128) : Nat :=
  match portOf n with
  | some f => (s.fp f).passDummy.toNat
  | none => 0

/-- Protocol of PASS commands. -/
def State.passProto (s : State) (n : Fin 128) : Nat :=
  match portOf n with
  | some f => (s.fp f).passProto.toNat
  | none => 0

/-- The default dummy count of a protocol as the table and the port in force need it (R35): T1, and T2 where the channel has a PASS
window in that protocol. -/
def State.needDummy (s : State) (n : Fin 128) (io : Nat) : Nat :=
  let t1 := if io = 3 then 32 else 18
  if (s.st n).tbl.has 2 && s.passProto n = io then max t1 (s.localDummy n + 6) else t1

/-- The advertised default dummy count of a protocol (R34, R35). -/
def State.advDummy (s : State) (n : Fin 128) (io : Nat) : Nat :=
  match (s.port n).ident with
  | some i => i.dummies.getD io 0
  | none => s.needDummy n io

/-- The effective dummy count of the protocol in force (R25). -/
def State.effDummy (s : State) (n : Fin 128) : Nat :=
  let p := s.port n
  if p.crDummy = 0 then s.advDummy n p.crIo.toNat else p.crDummy.toNat

/-- 4-byte addressing is in force: always in Octal DDR (R25). -/
def HostPort.four (p : HostPort) : Bool := p.addr4 || p.crIo = 3

/-! ## Ownership of the port (R72) -/

/-- The channel is released. -/
def Ctl.released (c : Ctl) : Bool := c.state = .running || c.state = .proof

/-- The host owns FPn. -/
def State.hostOwns (s : State) (n : Fin 128) : Bool :=
  (s.ch n).released && (s.st n).tbl.has 2 && (s.mb n).session ≠ 2

/-- Two entries of plates per channel by plate name. -/
def PerPlate.get {α : Type} (x : PerPlate α) : PlateId → α
  | .a => x.a
  | .b => x.b
  | .recov => x.recov

def PerPlate.set {α : Type} (x : PerPlate α) (p : PlateId) (v : α) : PerPlate α :=
  match p with
  | .a => { x with a := v }
  | .b => { x with b := v }
  | .recov => { x with recov := v }

def PTable.get (t : PTable) : PlateId → Plate
  | .a => t.a
  | .b => t.b
  | .recov => t.recov

def PTable.set (t : PTable) (p : PlateId) (x : Plate) : PTable :=
  match p with
  | .a => { t with a := x }
  | .b => { t with b := x }
  | .recov => { t with recov := x }

/-- Plate number: 0 A, 1 B, 2 REC. -/
def PlateId.code : PlateId → Nat
  | .a => 0 | .b => 1 | .recov => 2

/-- The plate that a PLATE field names. -/
def plateOf : Nat → Option PlateId
  | 0 => some .a
  | 1 => some .b
  | 2 => some .recov
  | _ => none

/-- Codes of R105. -/
def PState.code : PState → Nat
  | .empty => 0 | .staging => 1 | .staged => 2 | .proof => 3 | .active => 4 | .previous => 5 | .rejected => 6 | .bad => 7

/-- The plate table record in use (R109): all plates EMPTY where both copies are invalid. -/
def State.plates (s : State) (n : Fin 128) : PTable := ((s.pl n).table.cur).getD PTable.empty

/-- The plate on proof. -/
def PTable.onProof (t : PTable) : Option PlateId :=
  if t.a.state = .proof then some .a else if t.b.state = .proof then some .b else none

/-- A plate of the channel is on proof; a revert whose commit waits counts as ended (R118). -/
def State.onProof (s : State) (n : Fin 128) : Bool := (s.plates n).onProof.isSome && !(s.pl n).revertWaits

/-- R2: the policy in force grants no IMPRESSION window. A commit that turns its windows to DENY exempts no channel. -/
def State.exempt (s : State) (n : Fin 128) : Bool := (s.polOf n).present && !(s.polOf n).tbl.has 1

/-- The local flash of a channel with local-flash backing stands in FAULT, or its discovery has not ended in READY (R70, R338). -/
def State.portDown (s : State) (n : Fin 128) : Bool :=
  (s.profOf n).isLocal && (match portOf n with | some f => (s.fp f).state ≠ 2 | none => false)

/-- It stands in FAULT. -/
def State.portFault (s : State) (n : Fin 128) : Bool :=
  (s.profOf n).isLocal && (match portOf n with | some f => (s.fp f).state = 3 | none => false)

end Sys2Proof.Machine
end

