-- ==== Sys2Proof/Machine/Flags.lean ====
section
/-! DEFINITION. Status bytes and status words computed from the state: RDSR and RDFSR (chapter "Host channels and the
virtual flash"), the words that CH_STATUS and IDENTIFY return, and the watchdog count (R147, R148). -/

namespace Sys2Proof.Machine

/-! ## Host status bytes -/

/-- WIP: a program, erase or refusal in progress, or a hold that waits for the local flash (R28, R130). -/
def State.wip (s : State) (n : Fin 128) : Bool := (s.port n).op.isSome || (s.ch n).holdWait

/-- The status register: [0] WIP, [1] WEL. -/
def State.rdsr (s : State) (n : Fin 128) : Byte :=
  BitVec.ofNat 8 (pack [(0, bval (s.wip n)), (1, bval (s.port n).wel)])

/-- The flag status register. -/
def State.rdfsr (s : State) (n : Fin 128) : Byte :=
  let p := s.port n
  BitVec.ofNat 8 (pack [(7, bval !(s.wip n)), (5, bval p.eraseFail), (4, bval p.programFail), (3, bval p.supplyFail),
    (1, bval p.protFail), (0, bval p.four)])

/-! ## Ownership of the device -/

/-- State of a region as at the last entry to SHADOW. -/
def Otp.region? (o : Otp) (r : Nat) : RegionState := match fin? 6 r with | some i => vget o.regions i | none => .blank

/-- The device is unowned (R283). -/
def State.unowned (s : State) : Bool :=
  match s.otp.region? 4 with
  | .blank | .open_ | .finalising => true
  | _ => false

/-! ## Watchdog counts -/

/-- The watchdog ticks from the LPO, which has to be trimmed (R145). -/
def State.onLpo (s : State) (w : Wdg) : Bool := w.clksel && s.clk.lpoTrimmed

/-- Tick edges of a counting watchdog's selected tick since its reference edge (R145). The reference edge stands on the 1 µs grid of device
time, and the LPO's rate is free within its 2 % for each count and steady during it (log entry 11). -/
def State.wdgRun (s : State) (w : Wdg) : Nat :=
  if s.onLpo w then (s.now - 1000 * w.ref) * Config.lpoRate w.ref / 1000000000 else s.now / 1000 - w.ref

/-- The ticks that a watchdog has counted: frozen and stopped ones hold theirs (R168, R144). -/
def State.wdgTicks (s : State) (w : Wdg) : Nat :=
  match w.frozen with
  | some k => k
  | none => if w.counting then w.base + s.wdgRun w else w.base

/-- The count at a tick edge: whole units since the reference edge (R148). -/
def countAt (edge ref prescale : Nat) : Nat := (edge - ref) / 2 ^ prescale

/-- c as it stands now. -/
def State.wdgCount (s : State) (n : Fin 128) : Nat := s.wdgTicks (s.wd n) / 2 ^ (s.wd n).prescale.toNat

/-- The number of the next edge of the 1 µs grid of device time. -/
def State.nextEdge (s : State) : Nat := s.now / 1000 + 1

/-- CLOSE_EFF: CLOSE plus the extension granted in the window (R147). -/
def Wdg.closeEff (w : Wdg) : Nat := w.close_.toNat + w.ext.toNat

/-- STATE of CHn_WDG_STAT: 0 OFF, 1 ARMED_WAIT, 2 COUNTING, 3 FROZEN. -/
def Wdg.state (w : Wdg) : Nat :=
  if !w.armed then 0 else if w.frozen.isSome then 3 else if w.counting then 2 else 1

/-- CHn_WDG_STAT. -/
def State.wdgStat (s : State) (n : Fin 128) : Nat :=
  let w := s.wd n
  pack [(0, w.state), (3, bval (w.clksel && !s.clk.lpoTrimmed)), (4, bval w.clkFault), (5, bval w.extUsed), (6, bval w.pending),
    (8, w.viols.toNat), (12, w.last.toNat), (16, w.step.toNat)]

/-- CHn_WDG_CFG. -/
def Wdg.cfgWord (w : Wdg) : Nat :=
  pack [(0, bval w.armed), (1, bval w.clksel), (2, bval w.keyed), (3, bval w.counted), (4, w.violN.toNat), (8, bval w.ladder),
    (9, bval w.auto), (16, w.prescale.toNat)]

/-- CHn_WDG_WIN. -/
def Wdg.winWord (w : Wdg) : Nat := pack [(0, w.open_.toNat), (16, w.close_.toNat)]

/-- CHn_WDG_ACT of a policy. -/
def WdgPol.actWord (p : WdgPol) : Nat := pack [(0, p.restarts.toNat), (4, p.safeN.toNat), (8, p.cleanMin.toNat)]

/-- CHn_WDG_EXT of a policy. -/
def WdgPol.extWord (p : WdgPol) : Nat :=
  pack [(0, p.extMax.toNat), (16, bval p.debug), (17, bval p.keySrc), (18, p.keySlot.toNat)]

/-! ## Channel state words -/

/-- Codes of CHn_CTL_STATE.STATE. -/
def ChState.code : ChState → Nat
  | .off => 0 | .held => 1 | .taking => 2 | .ready => 3 | .running => 4 | .proof => 5 | .recovery => 6 | .quarantined => 7 | .safe => 8

/-- Codes of HOLD_KIND. -/
def HoldKind.code : HoldKind → Nat
  | .none => 0 | .manager => 1 | .sequence => 2 | .pgood => 3 | .tagLimit => 4 | .impressionLost => 5 | .device => 6 | .config => 7
  | .standby => 8

/-- Codes of CAUSE. -/
def Cause.code : Cause → Nat
  | .none => 0 | .start => 1 | .manager => 2 | .pgood => 3 | .restart => 4 | .powerCycle => 5 | .tagLimit => 6 | .proof => 7
  | .recovery => 8 | .quarantine => 9 | .safe => 10 | .device => 11 | .impressionLost => 12 | .config => 13 | .pgoodTimeout => 14

/-- The limiter has no room: eight release instants lie in the last SPACING_MS (R135). -/
def State.limiterFull (s : State) : Bool :=
  8 ≤ (s.plat.instants.filter fun t => s.now < t + s.dcfg.spacingMs * msec).length

/-- PG_GATE keeps the channel from being released (R134). -/
def State.gated (s : State) (n : Fin 128) : Bool := (s.profOf n).pgGate && !(s.ch n).pgOk

/-- REL_PENDING: a release has been requested and waits on PG_GATE or the limiter (R134, R135). -/
def State.relPending (s : State) (n : Fin 128) : Bool :=
  (s.ch n).state = .ready && (s.ch n).relAsked && (s.gated n || s.limiterFull)

/-- CHn_CTL_STATE. -/
def State.ctlState (s : State) (n : Fin 128) : Nat :=
  let c := s.ch n
  pack [(0, c.state.code), (4, bval c.sink), (5, bval c.pgood), (6, bval c.pgOk), (7, bval (s.relPending n)), (8, bval (s.onProof n)),
    (9, bval (c.kind = .sequence)), (10, bval (c.kind = .manager)), (11, bval c.bound.isSome), (12, c.kind.code), (16, c.cause.code)]

/-- CHn_CTL_CFG. -/
def ChanCfg.ctlCfg (p : ChanCfg) : Nat :=
  pack [(0, p.rank), (8, p.rgrp), (12, bval p.rgrpEn), (13, p.bgrp), (17, bval p.bgrpEn), (18, bval p.pgGate), (19, bval p.pgAct),
    (20, bval p.enabled)]

/-- A policy section waits for the channel's next hold (R69): the ledger's section is not the one in force. -/
def State.deferred (s : State) (n : Fin 128) : Bool := vget s.polLedger n ≠ vget s.pol n

/-- CHn_STN_STAT. -/
def State.stnStat (s : State) (n : Fin 128) : Nat :=
  let t := s.st n
  pack [(0, t.phase.code), (2, bval (s.shdPending .a n || s.shdPending .b n)), (3, bval t.oldCmd), (4, bval s.power.inhibit), (5, bval !t.overlay.isEmpty), (6, bval (s.deferred n)),
    (7, bval ((portOf n).isSome && !s.hostOwns n))]

/-- FPn_STAT. -/
def FlashPort.statWord (f : FlashPort) : Nat :=
  pack [(0, f.state.toNat), (3, bval f.localOp.isSome), (4, f.user.toNat), (8, f.fault.toNat)]

/-- CH_STATE.PROOF: 1 ON_PROOF while the plate is on proof, else what the last proof left. -/
def State.proofField (s : State) (n : Fin 128) : Nat := if s.onProof n then 1 else (s.pl n).show_.toNat

/-- Proof time left in ms, 0 when not on proof. -/
def State.proofLeft (s : State) (n : Fin 128) : Nat :=
  match (s.pl n).deadline with
  | some d => if s.onProof n then (d - s.now) / msec else 0
  | none => 0

/-- The plate in service: 0 A, 1 B, 2 REC, 0xF when not bound. -/
def State.plateField (s : State) (n : Fin 128) (none_ : Nat) : Nat :=
  match (s.ch n).bound, (s.ch n).plate with
  | some _, some p => p.code
  | _, _ => none_

/-- UPD_STATUS of the mailbox (R43). -/
def Mailbox.updWord (b : Mailbox) : Nat :=
  pack [(0, b.session.toNat), (8, b.updPlate.toNat), (16, b.updStatus.toNat % 2 ^ 15), (32, b.updLeaves.toNat)]

end Sys2Proof.Machine
end

