-- ==== Sys2Proof/Machine/StencilOps.lean ====
section
/-! DEFINITION. Operations on Stencil tables: registers by offset, the conditions on a table (R51, R56, R57, R60, R338,
R339), tightenings (R64, R341), commits and merges (R63, R65, R247), adoption of a table (R60, R61, R67), phases (R53). -/

namespace Sys2Proof.Machine

/-! ## Registers of a table by offset -/

/-- A register of CHn_STN that a shadow holds. -/
inductive SReg where
  | cfg
  | ruleA (r : Fin 64)
  | ruleB (r : Fin 64)
  | base (w : Fin 32)
  | size (w : Fin 32)
  | acc (w : Fin 32)
  | map (w : Fin 32)
  | pbkt (w : Fin 32)
  | ebkt (w : Fin 32)
  deriving DecidableEq, Repr

/-- The RWS register at an offset of the page. -/
def sregOf (off : Nat) : Option SReg :=
  if off = 0x04C then some .cfg
  else if off % 4 ≠ 0 then none
  else if 0x200 ≤ off ∧ off < 0x400 then
    (fin? 64 ((off - 0x200) / 8)).map fun r => if (off - 0x200) % 8 = 0 then .ruleA r else .ruleB r
  else if 0x400 ≤ off ∧ off < 0x600 then
    (fin? 32 ((off - 0x400) / 16)).map fun w => match (off - 0x400) % 16 / 4 with
      | 0 => .base w | 1 => .size w | 2 => .acc w | _ => .map w
  else if 0x600 ≤ off ∧ off < 0x700 then
    (fin? 32 ((off - 0x600) / 8)).map fun w => if (off - 0x600) % 8 = 0 then .pbkt w else .ebkt w
  else none

/-- The offset of a register. -/
def SReg.off : SReg → Nat
  | .cfg => 0x04C
  | .ruleA r => 0x200 + 8 * r.1 | .ruleB r => 0x204 + 8 * r.1
  | .base w => 0x400 + 16 * w.1 | .size w => 0x404 + 16 * w.1 | .acc w => 0x408 + 16 * w.1 | .map w => 0x40C + 16 * w.1
  | .pbkt w => 0x600 + 8 * w.1 | .ebkt w => 0x604 + 8 * w.1

/-- The fields of a register as (highest bit, lowest bit); each PERM bit is a field (R64). -/
def SReg.fields : SReg → List (Nat × Nat)
  | .cfg => [(15, 0)]
  | .ruleA _ => [(7, 0), (11, 8), (15, 12), (17, 16), (22, 18), (23, 23), (31, 24)]
  | .ruleB _ => [(1, 0), (7, 2), (9, 8), (10, 10), (12, 11)]
  | .base _ => [(17, 0)]
  | .size _ => [(18, 0)]
  | .acc _ => [(2, 0), (3, 3)] ++ (List.range 12).map fun i => (4 + i, 4 + i)
  | .map _ => [(17, 0)]
  | .pbkt _ | .ebkt _ => [(15, 0), (27, 16), (28, 28), (31, 31)]

/-- Reserved bits of a register read as zero (R10). -/
def SReg.clean (g : SReg) (v : Word) : Word :=
  BitVec.ofNat 32 (pack (g.fields.map fun f => (f.2, field v.toNat f.1 f.2)))

/-- The image of a register. -/
def STable.get (t : STable) : SReg → Word
  | .cfg => t.bootTmo.zeroExtend 32
  | .ruleA r => vget t.ruleA r | .ruleB r => vget t.ruleB r
  | .base w => vget t.winBase w | .size w => vget t.winSize w | .acc w => vget t.winAcc w | .map w => vget t.winMap w
  | .pbkt w => vget t.pbkt w | .ebkt w => vget t.ebkt w

/-- Write a register image. -/
def STable.put (t : STable) (g : SReg) (v : Word) : STable :=
  match g with
  | .cfg => { t with bootTmo := v.truncate 16 }
  | .ruleA r => { t with ruleA := vset t.ruleA r (g.clean v) }
  | .ruleB r => { t with ruleB := vset t.ruleB r (g.clean v) }
  | .base w => { t with winBase := vset t.winBase w (g.clean v) }
  | .size w => { t with winSize := vset t.winSize w (g.clean v) }
  | .acc w => { t with winAcc := vset t.winAcc w (g.clean v) }
  | .map w => { t with winMap := vset t.winMap w (g.clean v) }
  | .pbkt w => { t with pbkt := vset t.pbkt w (g.clean v) }
  | .ebkt w => { t with ebkt := vset t.ebkt w (g.clean v) }

/-- Every register of a table, by rising offset. -/
def allRegs : List SReg :=
  [.cfg] ++ ((List.finRange 64).flatMap fun r => [.ruleA r, .ruleB r]) ++
  ((List.finRange 32).flatMap fun w => [.base w, .size w, .acc w, .map w]) ++
  ((List.finRange 32).flatMap fun w => [.pbkt w, .ebkt w])

/-- The register images as bytes, for digests. -/
def STable.bytes (t : STable) : List Byte := allRegs.flatMap fun g => leBytes 4 (t.get g).toNat

/-! ## Conditions on a table: which fields take part in a breach -/

/-- Two used windows overlap (R51). -/
def STable.overlap (t : STable) (w v : Fin 32) : Bool :=
  w ≠ v && t.used w && t.used v && t.base w < t.base v + t.size v && t.base v < t.base w + t.size w

/-- The number of used windows that meet a test. -/
def STable.countWin (t : STable) (p : Fin 32 → Bool) : Nat := ((List.finRange 32).filter fun w => t.used w && p w).length

/-- The range conditions of R51 and R338 on window w, for a virtual flash of S bytes. -/
def STable.badRange (t : STable) (s : Nat) (w : Fin 32) : Bool :=
  t.used w && ((t.base w + t.size w) * 4096 > s || (List.finRange 32).any fun v => t.overlap w v)

/-- The number of used MAILBOX windows is not one (R51). -/
def STable.badMailbox (t : STable) : Bool := t.countWin (fun w => t.treat w = 5) ≠ 1

/-- A rule's action leaves its frame fields unused (R56), so they must be zero. R56 names ADDR, DUMMY and DIR as the frame, and R57 counts
WREN and CLASS in it: all five (DEDUCED, log entry 90). -/
def STable.frameless (t : STable) (r : Fin 64) : Bool :=
  t.rAction r = 2 || t.rAction r = 3 ||
  (t.rAction r = 1 && (List.range 4).any fun io => (t.rProto r).testBit io && inHostSet (t.rOp r) io)

/-- The address length of a rule's frame: the frame of TARGET for TRANSLATE, ADDR for ALLOW on another opcode, the
opcode's own otherwise. -/
def STable.ruleAddr (t : STable) (r : Fin 64) (io : Nat) : Nat :=
  if t.rAction r = 3 then ownAddr (t.rTarget r) io
  else if inHostSet (t.rOp r) io then ownAddr (t.rOp r) io else t.rAddr r

/-- Two address lengths are one (R339): in Octal DDR every array address has four bytes. -/
def sameAddr (io a b : Nat) : Bool := a = b || (io = 3 && ((a = 2 && b = 3) || (a = 3 && b = 2)))

/-- R339's condition between rule r and every other rule of its opcode, and the opcode's own frame. -/
def STable.badAddr (t : STable) (r : Fin 64) : Bool :=
  (t.rAction r = 1 || t.rAction r = 3) && (List.range 4).any fun io =>
    (t.rProto r).testBit io &&
    ((inHostSet (t.rOp r) io && !sameAddr io (t.ruleAddr r io) (ownAddr (t.rOp r) io)) ||
     (List.finRange 64).any fun q => (t.rAction q = 1 || t.rAction q = 3) && t.rOp q = t.rOp r &&
       (t.rProto q).testBit io && (t.rPhase q &&& t.rPhase r) ≠ 0 && !sameAddr io (t.ruleAddr q io) (t.ruleAddr r io))

/-- TARGET is missing from the host command set of a protocol in PROTO (R56). -/
def STable.badTarget (t : STable) (r : Fin 64) : Bool :=
  t.rAction r = 3 && (List.range 4).any fun io => (t.rProto r).testBit io && !inHostSet (t.rTarget r) io

/-- The frame fields of RULEr_B: its reserved bits are none. -/
def STable.frameBits (t : STable) (r : Fin 64) : Nat := field (vget t.ruleB r).toNat 12 0

/-- The field of register g with lowest bit lo takes part in a breach of R51, R56, R57, R60, R338 or R339. A window with SIZE = 0 is
no window: what R51 says of the STAGING flag and of an IMPRESSION window's permissions is judged on used windows only (DESIGN CHOICE,
log entry 90). -/
def STable.breach (t : STable) (s : Nat) (g : SReg) (lo : Nat) : Bool :=
  match g with
  | .cfg => false
  | .base w => t.badRange s w || (t.used w && t.treat w = 5 && t.base w % 16 ≠ 0)
  | .size w => t.badRange s w || (t.used w && t.treat w = 5 && t.size w ≠ 16) ||
      (t.badMailbox && (t.treat w = 5 || t.countWin (fun v => t.treat v = 5) = 0))
  | .acc w =>
    if lo = 0 then
      t.treat w ≥ 6 || (t.badMailbox && (t.treat w = 5 || t.countWin (fun v => t.treat v = 5) = 0)) ||
      (t.used w && t.staging w && t.treat w ≠ 2 && t.treat w ≠ 4) ||
      (t.used w && t.treat w = 1 && (List.range 4).any fun p => t.perm w p 1 || t.perm w p 2) ||
      (t.used w && (t.treat w = 0 || t.treat w = 2 || t.treat w = 5) && t.map w ≠ 0)
    else if lo = 3 then
      t.used w && t.staging w && (t.countWin (fun v => t.staging v) > 1 || (t.treat w ≠ 2 && t.treat w ≠ 4))
    else
      t.used w && ((t.treat w = 1 && (lo - 4) % 3 ≠ 0 && bit (t.get g).toNat lo) ||
        (t.treat w = 5 && (bit (t.get g).toNat lo ≠ ((lo - 4) % 3 ≠ 2))))
  | .map w => t.used w && (t.treat w = 0 || t.treat w = 2 || t.treat w = 5) && t.map w ≠ 0
  | .ruleA r =>
    if lo = 0 || lo = 8 || lo = 12 || lo = 16 then
      t.badAddr r || t.badTarget r || (t.frameless r && t.frameBits r ≠ 0)
    else if lo = 24 then t.badTarget r || (t.rAction r = 3 && t.badAddr r)
    else false
  | .ruleB r =>
    (t.frameless r && field (vget t.ruleB r).toNat (if lo = 0 then 1 else if lo = 2 then 7 else if lo = 8 then 9 else if lo = 10 then 10 else 12) lo ≠ 0) ||
    (t.rAction r = 1 && ((lo = 8 && t.rDir r = 3) || (lo = 11 && t.rClass r = 3) || (lo = 2 && t.rDummy r > 40) ||
      (lo = 0 && t.badAddr r)))
  | .pbkt w =>
    let x := vget t.pbkt w
    bktOn x && ((bktDepth x = 0 && (lo = 0 || lo = 31)) || (bktInterval x = 0 && (lo = 16 || lo = 31)))
  | .ebkt w =>
    let x := vget t.ebkt w
    bktOn x && ((bktDepth x = 0 && (lo = 0 || lo = 31)) || (bktInterval x = 0 && (lo = 16 || lo = 31)))

/-- The table meets every condition. -/
def STable.valid (t : STable) (s : Nat) : Bool :=
  allRegs.all fun g => g.fields.all fun f => !t.breach s g f.2

/-! ## Tightenings (R64, R341) -/

/-- Bits of x are among the bits of y. -/
def subBits (x y : Nat) : Bool := x &&& y = x

/-- The range of window w in b lies within its range in a. -/
def STable.narrowed (a b : STable) (w : Fin 32) : Bool :=
  b.size w = 0 || (a.base w ≤ b.base w && b.base w + b.size w ≤ a.base w + a.size w)

/-- The match of rule r in b is that in a, or wider. -/
def STable.widened (a b : STable) (r : Fin 64) : Bool :=
  a.rOp r = b.rOp r && subBits (a.rProto r) (b.rProto r) && subBits (a.rPhase r) (b.rPhase r) &&
  (!b.rWinEn r || (a.rWinEn r && a.rWin r = b.rWin r))

/-- A bucket field's change from x to y with lowest bit lo is a tightening. -/
def bktTighter (x y : Word) (lo : Nat) : Bool :=
  if lo = 31 then bktOn y
  else !bktOn y || !bktOn x || (if lo = 0 then bktDepth y < bktDepth x else bktNs x < bktNs y)

/-- The change of the field of g with lowest bit lo from table a to table b is a tightening. -/
def tighter (a b : STable) (g : SReg) (lo : Nat) : Bool :=
  match g with
  | .cfg => a.bootTmo = 0 || (b.bootTmo ≠ 0 && b.bootTmo.toNat < a.bootTmo.toNat)
  | .base w | .size w => a.narrowed b w
  | .acc w =>
    if lo = 0 then b.treat w = 0 && a.treat w ≠ 5
    else if lo = 3 then b.treat w = 0 && a.treat w ≠ 0
    else !(bit (b.get g).toNat lo)
  | .map w => b.treat w = 0 && a.treat w ≠ 0
  | .ruleA r =>
    if lo = 16 then (b.rAction r = 2 && a.widened b r) || (a.rAction r = 1 && b.rAction r = 0)
    else if b.rAction r = 0 then true
    else if lo = 18 then !b.rWinEn r || (b.rAction r = 1 && !a.rWinEn r)
    else if lo = 8 then (b.rAction r = 2 && subBits (a.rProto r) (b.rProto r)) || (b.rAction r = 1 && subBits (b.rProto r) (a.rProto r))
    else if lo = 12 then (b.rAction r = 2 && subBits (a.rPhase r) (b.rPhase r)) || (b.rAction r = 1 && subBits (b.rPhase r) (a.rPhase r))
    else if lo = 23 then (b.rAction r = 2 && !b.rWinEn r) || (b.rAction r = 1 && b.rWinEn r)
    else false
  | .ruleB r => b.rAction r = 0
  | .pbkt w => bktTighter (vget a.pbkt w) (vget b.pbkt w) lo
  | .ebkt w => bktTighter (vget a.ebkt w) (vget b.ebkt w) lo

/-- The value of a field in a table. -/
def STable.fieldVal (t : STable) (g : SReg) (f : Nat × Nat) : Nat := field (t.get g).toNat f.1 f.2

/-- The changed fields of b against a, by rising offset and bit. -/
def changed (a b : STable) : List (SReg × (Nat × Nat)) :=
  allRegs.flatMap fun g => (g.fields.filter fun f => a.fieldVal g f ≠ b.fieldVal g f).map fun f => (g, f)

/-- The first changed field whose change loosens. -/
def firstLoose (a b : STable) : Option (SReg × (Nat × Nat)) := (changed a b).find? fun x => !tighter a b x.1 x.2.2

/-! ## Commits (R63, R65, R246, R247) -/

/-- Results of a commit (R246). -/
inductive CommitRes where
  | committed
  | mismatch (g : SReg) (lo : Nat)
  | loosens (g : SReg) (lo : Nat)
  | superseded (g : SReg) (lo : Nat)
  deriving DecidableEq, Repr

def CommitRes.code : CommitRes → BitVec 4
  | .committed => 2 | .mismatch _ _ => 3 | .loosens _ _ => 4 | .superseded _ _ => 5

/-- SHD_ERR (R247): OFFSET, BIT, REASON; zero after COMMITTED. -/
def CommitRes.err : CommitRes → Word
  | .committed => 0
  | .mismatch g lo => BitVec.ofNat 32 (pack [(0, g.off), (12, lo), (17, 3)])
  | .loosens g lo => BitVec.ofNat 32 (pack [(0, g.off), (12, lo), (17, 4)])
  | .superseded g lo => BitVec.ofNat 32 (pack [(0, g.off), (12, lo), (17, 5)])

/-- The table with a shadow's marked registers. -/
def Shadow.apply (sh : Shadow) (t : STable) : STable :=
  sh.marks.foldl (fun t off => match sregOf off with
    | some g => t.put g (sh.tbl.get g)
    | none => t) t

/-- The first field, among the registers marked, that takes part in a breach of table b. -/
def firstBreach (b : STable) (s : Nat) (marks : List Nat) : Option (SReg × Nat) :=
  (allRegs.flatMap fun g => if marks.contains g.off then (g.fields.map fun f => (g, f.2)) else []).find? fun x => b.breach s x.1 x.2

/-- Judge the written registers `marks` that turn table a into table b (R63): every condition on the whole of table b counts. Where no
written field takes part in a breach, as on a channel whose table had no MAILBOX window before, the first changed field is named (log
entry 91). -/
def judge (a b : STable) (s : Nat) (marks : List Nat) : CommitRes :=
  match firstLoose a b with
  | some x => .loosens x.1 x.2.2
  | none =>
    if changed a b = [] then .committed
    else match firstBreach b s marks with
      | some x => .mismatch x.1 x.2
      | none => if b.valid s then .committed else match (changed a b).head? with
        | some x => .mismatch x.1 x.2.2
        | none => .committed

/-- Merge of two commits in one slot (R65): the merged table and both results, each having passed alone against a. `alone`: what
manager A's commit gives by itself. -/
def mergeCommits (a alone x y : STable) (s : Nat) (mx my : List Nat) : STable × CommitRes × CommitRes :=
  let both := allRegs.filter fun g => mx.contains g.off && my.contains g.off
  let clash := both.flatMap fun g => (g.fields.filter fun f => x.fieldVal g f ≠ y.fieldVal g f).map fun f => (g, f)
  -- B's value of a clashing field is taken when it is the tighter of the two
  let bWins := fun (c : SReg × (Nat × Nat)) => tighter x y c.1 c.2.2 && !tighter y x c.1 c.2.2
  let t0 := allRegs.foldl (fun t g => if mx.contains g.off then t.put g (x.get g)
    else if my.contains g.off then t.put g (y.get g) else t) a
  let m := clash.foldl (fun t c => if bWins c then
      let g := c.1
      let rest := pack ((g.fields.filter fun f => f ≠ c.2).map fun f => (f.2, t.fieldVal g f))
      t.put g (BitVec.ofNat 32 (rest + (y.fieldVal g c.2) <<< c.2.2))
    else t) t0
  if m.valid s then
    (m, (match clash.find? bWins with | some c => .superseded c.1 c.2.2 | none => .committed),
        (match clash.find? fun c => !bWins c with | some c => .superseded c.1 c.2.2 | none => .committed))
  else
    (alone, .committed, match firstBreach m s my with
      | some f => .superseded f.1 f.2
      | none => match my.head? with
        | some o => (match sregOf o with | some g => .superseded g 0 | none => .committed)
        | none => .committed)

/-! ## Phases (R53, R175) and the CDI area (R47) -/

/-- Close the CDI area: the device zeroes its copy (R47, R173). -/
def State.closeCdi (s : State) (n : Fin 128) : State := s.modMbx n fun b => { b with cdi := [], cdiTaken := true }

/-- Change the phase: event, MEAS3 extension and PHASE record; leaving BOOT closes the CDI area. -/
def State.setPhase (s : State) (n : Fin 128) (p : Phase) : State :=
  let old := (s.st n).phase
  if old = p then s
  else
    let s := s.modStn n fun t => { t with phase := p }
    let s := s.raise 0x010D n.1 [old.code, p.code]
    let s := s.extend n 3 0x0015 [old.code, p.code] (Config.sha384 [BitVec.ofNat 8 p.code])
    if old = .boot then s.closeCdi n else s

/-! ## Adopting a table (R60, R61, R67) -/

/-- A bucket after its image changes from x to y (R60, R61). -/
def Bucket.adopt (now : Nat) (x y : Word) (b : Bucket) : Bucket :=
  if !bktOn y then { tokens := 0, start := none }
  else if !bktOn x then { tokens := BitVec.ofNat 16 (bktDepth y), start := none }
  else if bktDepth x = bktDepth y ∧ bktNs x = bktNs y then b
  else
    let k := min b.tokens.toNat (bktDepth y)
    { tokens := BitVec.ofNat 16 k,
      start := if k = bktDepth y then none else if bktNs x ≠ bktNs y then some now
               else match b.start with | some t => some t | none => some now }

/-- A full bucket, as at each release (R61). -/
def Bucket.full (x : Word) : Bucket := { tokens := if bktOn x then BitVec.ofNat 16 (bktDepth x) else 0, start := none }

/-- MEAS1's v: SHA-384(le4(epoch) ‖ the active table's register images) (R175). -/
def meas1 (epoch : Word) (t : STable) : Digest := Config.sha384 (leBytes 4 epoch.toNat ++ t.bytes)

/-- A command that has been decided is in progress: a burst whose CS# is low, or a program or erase forwarded to the local flash (R67). -/
def HostPort.inProgress (p : HostPort) : Bool :=
  p.burstOpen || match p.op with | some (.forwarded _) => true | _ => false

/-- The Stencil adopts a table: buckets, epoch + 1, OLD_CMD, MEAS1 and the EPOCH record; a BOOT_TMO already passed moves the phase
to RUN (R53). -/
def State.adopt (s : State) (n : Fin 128) (t : STable) : State :=
  let old := s.st n
  let s := s.modStn n fun x =>
    { x with tbl := t, epoch := x.epoch + 1,
             pTok := Vector.ofFn fun w => (vget x.pTok w).adopt s.now (vget old.tbl.pbkt w) (vget t.pbkt w),
             eTok := Vector.ofFn fun w => (vget x.eTok w).adopt s.now (vget old.tbl.ebkt w) (vget t.ebkt w),
             oldCmd := (s.port n).inProgress }
  let e := (s.st n).epoch
  let s := s.extend n 1 0x0013 [e.toNat] (meas1 e t)
  if old.phase = .boot ∧ (s.ch n).released ∧ t.bootTmo ≠ 0 ∧ old.tbl.bootTmo ≠ t.bootTmo ∧
     (s.ch n).relT + t.bootTmo.toNat * second ≤ s.now then
    (s.setPhase n .run).modStn n fun x => { x with tmoHit := true }
  else s

/-- The overlay's register writes on a table (R68). -/
def applyOverlay (t : STable) (o : SMap (Word × Word)) : STable :=
  o.foldl (fun t e => match sregOf e.1 with | some g => t.put g ((t.get g &&& ~~~e.2.1) ||| (e.2.2 &&& e.2.1)) | none => t) t

/-- Apply the ledger's policy section to its channel, in its own epoch (R69). -/
def State.applySection (s : State) (n : Fin 128) : State :=
  let p := vget s.polLedger n
  let s := { s with pol := vset s.pol n p }
  (s.modStn n fun t => { t with polver := p.version }).adopt n (applyOverlay p.tbl (s.st n).overlay)

end Sys2Proof.Machine
end

