-- ==== Sys2Proof/Machine/ImageOps.lean ====
section
/-! DEFINITION. Operations on manifests (R76-R79), the impression directory, extents and eviction (R83, R85, R88), takes
(R81), binding, pins and the front cache (R91), and the KEEP and SCRATCH areas (R95-R97). -/

namespace Sys2Proof.Machine

/-! ## Manifests (R76-R78) -/

def manMagic (m : List Byte) : Nat := leAt m 0x000 4
def manVersion (m : List Byte) : Nat := leAt m 0x004 2
def manFamily (m : List Byte) : List Byte := slice m 0x008 16
def manSvn (m : List Byte) : Nat := leAt m 0x018 4
def manEncrypted (m : List Byte) : Bool := bit (leAt m 0x01C 4) 0
def manBuild (m : List Byte) : Nat := leAt m 0x020 8
def manImageLen (m : List Byte) : Nat := leAt m 0x028 4
def manLeaves (m : List Byte) : Nat := leAt m 0x02C 4
def manRoot (m : List Byte) : List Byte := slice m 0x030 48
def manEncSlot (m : List Byte) : Nat := leAt m 0x0C8 2
def manSigOffset (m : List Byte) : Nat := 0x100 + 48 * manLeaves m
def manTable (m : List Byte) : List Byte := slice m 0x100 (48 * manLeaves m)
/-- The digest of leaf i (R77). -/
def manLeaf (m : List Byte) (i : Nat) : List Byte := slice m (0x100 + 48 * i) 48
/-- The length of the whole manifest (R78). -/
def manLength (m : List Byte) : Nat := manSigOffset m + if manVersion m = 2 then 193 else 5454
/-- The stored bytes of leaf i (R77): 4,096, fewer in a last leaf that the image ends in. -/
def manLeafLen (m : List Byte) (i : Nat) : Nat := min 4096 (manImageLen m - 4096 * i)
/-- The image's offset M in a staged object (R111). -/
def manImageBase (m : List Byte) : Nat := ceilDiv (manLength m) 4096 * 4096

/-! ## Minimums and keys -/

/-- The minimum table in use (R109): every minimum 0 where both copies are invalid. -/
def State.minTable (s : State) : MinTable := (s.mins.cur).getD { devfw := 0, fams := [] }

/-- The minimum SVN of a family (R119): 0 without an entry. -/
def State.familyMin (s : State) (fam : List Byte) : Nat :=
  match s.minTable.fams.find? fun e => e.1 = fam with
  | some e => e.2.toNat
  | none => 0

/-- An OWNER slot number (R255): 144-255. -/
def ownerSlot (k : Nat) : Bool := 144 ≤ k && k ≤ 255

/-- USAGE bit of a slot (R256). -/
def KeySlot.has (k : KeySlot) (usage : Nat) : Bool := k.usage = BitVec.ofNat 16 (2 ^ usage)

/-- The slot holds a key with a usage bit, open to internal use (R257). -/
def State.internalKey (s : State) (k usage : Nat) : Option (List Byte) :=
  match fin? 256 k with
  | some k =>
    let x := s.slot k
    if ownerSlot k.1 && x.has usage && x.access.getLsbD 2 then x.material else none
  | none => none

/-! ## Manifest checks (R79) -/

/-- The outcome of a plate check (R113): availability, verification, or a version below the minimum. -/
inductive Verdict where
  | ok
  | unavailable (st : Status)
  | failed (st : Status)
  | rollback
  deriving DecidableEq, Repr

/-- Step 4: signatures by a key of the channel's image family (R78, R79). -/
def sigOk (pq : Bool) (f : FamPol) (m : List Byte) : Bool :=
  let o := manSigOffset m
  let key := slice m o 97
  let sig := slice m (o + 97) 96
  let pkey := slice m (o + 193) 1952
  let psig := slice m (o + 193 + 1952) 3309
  let hdr := slice m 0 256
  let signer := slice m 0x060 48
  (Config.sha384 key).toList = signer && Config.ecdsaOk key hdr sig &&
  !(f.requirePq && (manVersion m = 2 || !pq)) &&
  f.signers.any fun e => e.1 = signer &&
    (manVersion m = 2 || !pq ||
      ((Config.sha384 pkey).toList = slice m 0x090 48 && e.2 = slice m 0x090 48 && Config.mldsaOk pkey hdr psig))

/-- The checks of R79 in order, for channel n. -/
def State.checkManifest (s : State) (n : Fin 128) (m : List Byte) : Verdict :=
  let pol := s.polOf n
  let len := manImageLen m
  if manMagic m ≠ 0x4D4C4E52 ∨ (manVersion m ≠ 2 ∧ manVersion m ≠ 3) then .failed stVersionUnsupported
  else if leAt m 0x006 2 ≠ 0x100 ∨ len = 0 ∨ manLeaves m ≠ ceilDiv len 4096 ∨ leAt m 0x0C0 4 ≠ 0x100 ∨
      leAt m 0x0C4 4 ≠ manSigOffset m ∨ ofLe (slice m 0x0CA 54) ≠ 0 ∨ leAt m 0x01C 4 > 1 ∨
      (manEncrypted m ∧ manVersion m = 2) ∨ len > 268435456 ∨ len > s.vfSize n then .failed stInvalidField
  else if manFamily m ≠ pol.plate.family then .failed stNotPermitted
  else if !sigOk s.part.pq pol.fam m then .failed stSignatureFailed
  else if manSvn m < s.familyMin (manFamily m) then .rollback
  else if (Config.sha384 (manTable m)).toList ≠ manRoot m then .failed stDigestMismatch
  else if pol.fam.requireEnc && !manEncrypted m then .failed stNotPermitted
  else if manEncrypted m then
    match fin? 256 (manEncSlot m) with
    | some k =>
      if !ownerSlot k.1 then .failed stNotPermitted
      else if (s.slot k).material.isNone then .unavailable stNotPermitted
      else if (s.internalKey k.1 7).isNone then .failed stNotPermitted else .ok
    | none => .failed stNotPermitted
  else .ok

/-- The status that a command reports for a verdict. -/
def Verdict.status : Verdict → Status
  | .ok => stSuccess
  | .unavailable st => st
  | .failed st => st
  | .rollback => stVersionRollback

/-! ## The directory (R83, R85, R88) -/

/-- Channels bound to entry i. -/
def State.refs (s : State) (i : Fin 256) : Nat := ((List.finRange 128).filter fun n => (s.ch n).bound = some i.1).length

/-- Extents of an impression (R88). -/
def extentsOf (leaves : Nat) : Nat := ceilDiv leaves 512

/-- Extents in the layout in force: seven-eighths while a channel is out (R88, R104). -/
def State.totalExtents (s : State) : Nat := if s.imm.chIn = 0xFF then 13824 else 12096

/-- Extents held by entries that meet a test. -/
def State.extentsHeld (s : State) (p : Fin 256 → Bool) : Nat :=
  ((List.finRange 256).filter fun i => (s.dirE i).state ≠ .free && p i).foldl (fun a i => a + extentsOf (s.dirE i).leaves.toNat) 0

/-- Free extents. -/
def State.freeExtents (s : State) : Nat := s.totalExtents - s.extentsHeld fun _ => true

/-- The entry of a pair (R83). -/
def State.lookupPair (s : State) (fam root : List Byte) : Option (Fin 256) :=
  (List.finRange 256).find? fun i =>
    let e := s.dirE i
    e.state ≠ .free && e.family = fam && e.root = root

/-- Some channel waits for the entry, so that a bind has claimed it (R85). -/
def State.claimed (s : State) (i : Fin 256) : Bool :=
  (List.finRange 128).any fun n => match (s.ch n).sel with
    | some w => w.entry = i.1
    | none => false

/-- An idle impression: resident, bound to no channel and claimed by none. -/
def State.idle (s : State) (i : Fin 256) : Bool :=
  ((s.dirE i).state = .resident || (s.dirE i).state = .damaged) && s.refs i = 0 && !s.claimed i

/-- States of the plates, on any channel, that name the entry's pair. -/
def State.namedBy (s : State) (i : Fin 256) : List (PlateId × PState) :=
  let e := s.dirE i
  (List.finRange 128).flatMap fun n =>
    ([PlateId.a, .b, .recov].filter fun p =>
      let x := (s.plates n).get p
      x.state ≠ .empty && x.family = e.family && x.root = e.root).map fun p => (p, ((s.plates n).get p).state)

/-- The least recently unbound of some entries. -/
def State.oldest (s : State) : List (Fin 256) → Option (Fin 256)
  | [] => none
  | i :: l => match s.oldest l with
    | none => some i
    | some j => if (s.dirE j).idleSince < (s.dirE i).idleSince then some j else some i

/-- The entry to evict next (R85). -/
def State.evictee (s : State) : Option (Fin 256) :=
  let idle := (List.finRange 256).filter fun i => s.idle i
  match s.oldest (idle.filter fun i => (s.namedBy i).isEmpty) with
  | some i => some i
  | none => s.oldest (idle.filter fun i => (s.namedBy i).all fun x =>
      x.1 = .recov || x.2 = .staged || x.2 = .previous || x.2 = .rejected)

/-- Drop an entry's lines from the front cache (R91). -/
def State.dropLines (s : State) (i : Fin 256) : State :=
  { s with fca := { s.fca with lines := s.fca.lines.filter fun l => l.1 ≠ i.1 } }

/-! ## Extents (R87, R88) -/

/-- Numbers of the extents held in the layout in force. -/
def State.usedExtents (s : State) : List Nat :=
  (List.finRange 256).flatMap fun i => ((s.dirE i).extents.filter fun x => x.seven = (s.imm.chIn ≠ 0xFF)).map fun x => x.num

/-- The lowest-numbered extents that are free, `need` of them, from number k on. -/
def freeFrom (used : List Nat) : Nat → Nat → Nat → List Nat
  | 0, _, _ => []
  | _ + 1, 0, _ => []
  | fuel + 1, need + 1, k =>
    if used.contains k then freeFrom used fuel (need + 1) (k + 1) else k :: freeFrom used fuel need (k + 1)

/-- The generation of an extent (R87). -/
def State.extentGen (s : State) (k : Nat) : Word := (SMap.get? s.imm.gens k).getD 0

/-- Allocate extents for the leaves of entry i in the layout in force: their generations rise (R87). DESIGN CHOICE (log entry 53): the
lowest-numbered free ones. -/
def State.allocExtents (s : State) (i : Fin 256) (leaves : Nat) : State :=
  let nums := freeFrom s.usedExtents s.totalExtents (extentsOf leaves) 0
  let gens := nums.foldl (fun g k => SMap.put g k ((SMap.get? g k).getD 0 + 1)) s.imm.gens
  let s := { s with imm := { s.imm with gens := gens } }
  s.modDir i fun e => { e with extents := nums.map fun k => { num := k, gen := s.extentGen k, seven := s.imm.chIn ≠ 0xFF } }

/-- The extent of a leaf has been freed and reallocated since: its lines fail their tags (R87). -/
def State.staleLeaf (s : State) (e : Impression) (leaf : Nat) : Bool :=
  match e.extents[leaf / 512]? with
  | some x => x.gen ≠ s.extentGen x.num
  | none => false

/-- Free an entry. `why` is the IMPRESSION record's first word: 1 take failed, 2 eviction. -/
def State.freeEntry (s : State) (i : Fin 256) (why : Nat) : State :=
  let e := s.dirE i
  ((s.modDir i fun _ => Impression.free).dropLines i).log 0x0010 devCh [why, i.1, ofLe e.family, ofLe e.root]

/-- Evict until an entry and `need` extents are free; none if eviction cannot cure the shortage. DESIGN CHOICE (log entry 53): of several
free entries the lowest-numbered one is used (R81). -/
def State.makeRoom (need : Nat) : Nat → State → Option (Fin 256 × State)
  | 0, _ => none
  | fuel + 1, s =>
    match (List.finRange 256).find? (fun i => (s.dirE i).state = .free), decide (need ≤ s.freeExtents) with
    | some i, true => some (i, s)
    | _, _ => match s.evictee with
      | some j => makeRoom need fuel (s.freeEntry j 2)
      | none => none

/-- Pool channels in service. -/
def State.poolIn (s : State) : Nat := ((List.finRange 16).filter fun k => (vget s.pool.chans k).state = 2).length

/-- W of a new stripe (R99, R100): channels in service that have a spare block left. -/
def State.writeChans (s : State) : List Nat :=
  ((List.finRange 16).filter fun k => (vget s.pool.chans k).state = 2 && (vget s.pool.chans k).spare ≠ 0).map fun k => k.1

/-- The pool refuses new writes (R98, R99): fewer than three channels take them, or its map fails its root. -/
def State.poolFull (s : State) : Bool := s.writeChans.length < 3 || s.pool.mapBad

/-- A stored object of the pool (R99). DESIGN CHOICE (log entry 53): none is usable while the pool map fails its map root (R98). -/
def State.poolObj (s : State) (fam root : List Byte) : Option PoolObj :=
  if s.pool.mapBad then none else s.pool.objs.find? fun o => o.family = fam && o.root = root

/-- The pool is FAILED (POL_STAT.STATE, R113): fewer than three channels in service, or a map that fails its root. -/
def State.poolFailed (s : State) : Bool := s.poolIn < 3 || s.pool.mapBad

/-- Where a take of a pair reads (R83): the pool wherever it holds the pair, else a local plate of it. DESIGN CHOICE (log entry 90): of
several local plates, that of the lowest channel, and of its plates A, B, then REC. -/
def State.sourceOf (s : State) (fam root : List Byte) : Option Source :=
  if (s.poolObj fam root).isSome then some .pool
  else
    ((List.finRange 128).flatMap fun n => ([PlateId.a, .b, .recov].filter fun p =>
        let x := (s.plates n).get p
        x.src = 2 && x.family = fam && x.root = root && x.state ≠ .empty && !s.hostOwns n &&
          (match portOf n with | some f => (s.fp f).state = 2 | none => false)).map fun p => Source.flash n.1 p).head?

/-- Begin a take (R81 steps 1 to 3): the entry taking, or why it cannot begin. -/
def State.beginTake (s : State) (m : List Byte) : (Fin 256 × State) ⊕ Status :=
  match s.sourceOf (manFamily m) (manRoot m) with
  | none => .inr stImageIncomplete
  | some src =>
    if !s.imm.keyValid || (src = .pool && s.poolFailed) then .inr stImageIncomplete
    else match State.makeRoom (extentsOf (manLeaves m)) 257 s with
      | none => .inr stResourceExhausted
      | some (i, s) => .inl (i, (s.modDir i fun _ =>
          { Impression.free with
            state := .taking, family := manFamily m, root := manRoot m, leaves := BitVec.ofNat 32 (manLeaves m),
            svn := BitVec.ofNat 32 (manSvn m), enc := manEncrypted m, source := src, man := m, idleSince := s.now }).allocExtents i (manLeaves m))

/-! ## Stripes of the pool (R99) -/

/-- Data leaves of a full stripe: W - 1. -/
def PoolObj.dataWidth (o : PoolObj) : Nat := max (o.chans.length - 1) 1

/-- The pool channel of member p of stripe q: data leaves first, the parity leaf last. -/
def PoolObj.chanAt (o : PoolObj) (q p : Nat) : Nat :=
  o.chans.getD ((p + Config.stripeShift o.family o.root q) % max o.chans.length 1) 16

/-- The pool channel of leaf i. -/
def PoolObj.chanOf (o : PoolObj) (i : Nat) : Nat := o.chanAt (i / o.dataWidth) (i % o.dataWidth)

/-- Pool channel k delivers leaves to a take: it is in service, and not RETURNING (R103). -/
def State.poolReads (s : State) (k : Nat) : Bool :=
  match fin? 16 k with
  | some k => (vget s.pool.chans k).state = 2
  | none => false

/-- Leaf i is read without its stripe. -/
def State.leafReads (s : State) (o : PoolObj) (ev : TakeEv) (i : Nat) : Bool :=
  s.poolReads (o.chanOf i) && !ev.undelivered.contains i

/-- Leaf i is rebuilt: every other data leaf of its stripe and its parity leaf are read (R99). -/
def State.leafRebuilds (s : State) (o : PoolObj) (ev : TakeEv) (i : Nat) : Bool :=
  let w := o.dataWidth
  let q := i / w
  s.poolReads (o.chanAt q w) && !ev.badParity.contains q &&
  (List.range w).all fun p => q * w + p = i || manLeaves o.man ≤ q * w + p || s.leafReads o ev (q * w + p)

/-- The leaves of object o that a take delivers (R81, R99). -/
def State.leafDelivered (s : State) (o : PoolObj) (ev : TakeEv) (i : Nat) : Bool :=
  !o.badLeaves.contains i && (s.leafReads o ev i || s.leafRebuilds o ev i)

/-! ## Leaves (R77, R80, R81) -/

/-- 4,096 bytes of leaf i from a list of bytes. -/
def leafOf (d : List Byte) (i : Nat) : List Byte := (List.range 4096).map fun k => d.getD (4096 * i + k) 0xFF

/-- The stored bytes of leaf i, or none where the source does not deliver them. -/
def State.leafStored (s : State) (obj : Option PoolObj) (ev : TakeEv) (src : Source) (i : Nat) : Option (List Byte) :=
  match src with
  | .pool => match obj with
    | some o => if s.leafDelivered o ev i then some (o.img.readList (4096 * i) 4096) else none
    | none => none
  | .flash _ _ => ev.localData.map fun d => leafOf d i

/-- The plaintext of leaf i of a manifest (R77, R80): what is stored of it, decrypted, then completed with 0xFF. DEDUCED (log entry 94):
the ciphertext of a last leaf that is not whole has the length of its plaintext. -/
def leafPlain (m : List Byte) (key : Option (List Byte)) (i : Nat) (stored : List Byte) : List Byte :=
  let d := stored.take (manLeafLen m i)
  let plain := if manEncrypted m then Config.xtsDecrypt (key.getD []) i d else d
  (plain ++ List.replicate 4096 0xFF).take 4096

/-- The plaintext of a whole object, or the first failure with its leaf (R81): IMAGE_INCOMPLETE or DIGEST_MISMATCH. -/
def streamLeaves (m : List Byte) (key : Option (List Byte)) (get : Nat → Option (List Byte)) :
    Nat → Memory → Except (Status × Nat) Memory
  | 0, mem => .ok mem
  | k + 1, mem =>
    let i := manLeaves m - (k + 1)
    match get i with
    | none => .error (stImageIncomplete, i)
    | some stored =>
      let plain := leafPlain m key i stored
      if (Config.sha384 plain).toList = manLeaf m i then streamLeaves m key get k (mem.writeList (4096 * i) plain)
      else .error (stDigestMismatch, i)

/-- The plate key that a manifest names. -/
def State.plateKey (s : State) (m : List Byte) : Option (List Byte) :=
  if manEncrypted m then s.internalKey (manEncSlot m) 7 else none

/-! ## Binding (R85) and pins (R38, R91) -/

/-- The pinned (entry, impression unit) pairs that ranges of channel n reach on entry i. -/
def State.pinUnitsOf (s : State) (n : Fin 128) (i : Nat) (ranges : List (Nat × Nat)) : List (Nat × Nat) :=
  let t := (s.st n).tbl
  ranges.flatMap fun r => match t.windowAt (r.1 * 4096) with
    | some w => if t.treat w = 1 then (List.range r.2).map fun u => (i, r.1 + u - t.base w + t.map w) else []
    | none => []

/-- Pinned units device-wide, each line of an impression counted once (FCA_STAT.PIN_UNITS). -/
def State.pinUnits (s : State) : List (Nat × Nat) :=
  ((List.finRange 128).flatMap fun n => match (s.ch n).bound with
    | some i => s.pinUnitsOf n i (s.ch n).pins
    | none => []).eraseDups

/-- The ranges among `ranges` that fit the 28 pin banks beside what is pinned, in order (R91). -/
def State.pinsThatFit (s : State) (n : Fin 128) (i : Nat) (ranges : List (Nat × Nat)) : List (Nat × Nat) :=
  (ranges.foldl (fun (a : List (Nat × Nat) × List (Nat × Nat)) r =>
    let new := (a.2 ++ s.pinUnitsOf n i [r]).eraseDups
    if new.length ≤ 7168 then (a.1 ++ [r], new) else a) ([], (s.modCtl n fun c => { c with pins := [] }).pinUnits)).1

/-- The profile's pins all fit when channel n is bound to entry i. -/
def State.pinsFit (s : State) (n : Fin 128) (i : Nat) : Bool :=
  s.pinsThatFit n i (s.profOf n).pins = (s.profOf n).pins

/-- Take the channel off its impression; an impression left by its last channel becomes idle now. -/
def State.unbind (s : State) (n : Fin 128) : State :=
  match (s.ch n).bound with
  | none => s
  | some i =>
    let s := s.modCtl n fun c => { c with bound := none, plate := none, pins := [] }
    match fin? 256 i with
    | some i => if s.refs i = 0 then s.modDir i fun e => { e with idleSince := s.now } else s
    | none => s

/-- Place the channel on an impression as a plate. -/
def State.bind (s : State) (n : Fin 128) (i : Fin 256) (p : PlateId) : State :=
  let svn := ((s.plates n).get p).svn
  (s.unbind n).modCtl n fun c => { c with bound := some i.1, plate := some p, svn := svn }

/-- The impression that the channel is bound to. -/
def State.boundTo (s : State) (n : Fin 128) : Option (Fin 256) :=
  match (s.ch n).bound with
  | some i => fin? 256 i
  | none => none

/-- SVN of the plate that the channel is bound as (R43, R174, R175, R183); 0 while it is bound to none. -/
def State.boundSvn (s : State) (n : Fin 128) : Nat :=
  match s.boundTo n with
  | some _ => (s.ch n).svn.toNat
  | none => 0

/-! ## Front cache (R91) -/

/-- Banks holding pins. -/
def State.pinBanks (s : State) : Nat := ceilDiv s.pinUnits.length 256

/-- The line is pinned. -/
def State.pinned (s : State) (i line : Nat) : Bool := s.pinUnits.contains (i, line / 64)

/-- The set of a line: one of 1,024 for each cache bank of 1 MiB, 16 lines of 64 bytes in each. -/
def State.lineSet (s : State) (i line : Nat) : Nat :=
  let banks := 32 - s.pinBanks
  Config.cacheSet banks i line % (banks * 1024)

/-- Place a line in the cache as the most recently used of its 16-way set; a pinned line has its place in a pin bank. -/
def State.placeLine (s : State) (i line : Nat) : State :=
  if s.pinned i line then s
  else
    let rest := s.fca.lines.filter fun l => l ≠ (i, line)
    let same := rest.filter fun l => s.lineSet l.1 l.2 = s.lineSet i line
    let keep := if same.length < 16 then rest
      else match same.getLast? with
        | some v => rest.filter fun l => l ≠ v
        | none => rest
    { s with fca := { s.fca with lines := (i, line) :: keep } }

/-- The line is in the front cache, pinned or cached. -/
def State.inFront (s : State) (i line : Nat) : Bool := s.pinned i line || s.fca.lines.contains (i, line)

/-- A host reads a line: a hit, or a miss; delivered, it is placed. -/
def State.touchLine (s : State) (i line : Nat) : State :=
  let f := s.fca
  let s := if s.inFront i line then { s with fca := { f with hit := f.hit + 1 } } else { s with fca := { f with miss := f.miss + 1 } }
  s.placeLine i line

/-! ## KEEP and SCRATCH (R95-R97) -/

/-- Note that a KEEP block changed, with the time of its first change. -/
def Areas.markDirty (now : Nat) (a : Areas) (blk : Nat) : Areas :=
  match SMap.get? a.dirty blk with
  | some _ => a
  | none => { a with dirty := SMap.put a.dirty blk now }

/-- AND bytes into the KEEP area at an address (R95). -/
def Areas.keepProgram (now : Nat) (a : Areas) (addr : Nat) (data : List Byte) : Areas :=
  Areas.markDirty now { a with keep := a.keep.andList addr data } (addr / 4096)

/-- Set a range of the KEEP area to 0xFF. -/
def Areas.keepErase (now : Nat) (a : Areas) (addr len : Nat) : Areas :=
  (List.range (ceilDiv len 4096)).foldl (fun a k => Areas.markDirty now a (addr / 4096 + k))
    { a with keep := a.keep.eraseRange addr len }

/-- The valid copy with the higher sequence number (R97), sealed under the KEEP key in force. -/
def KeepCopies.best (salt : Option Nat) (k : KeepCopies) : Option KeepCopy :=
  let ok := fun (c : Option KeepCopy) => match c with
    | some c => if some c.salt = salt then some c else none
    | none => none
  match ok k.c0, ok k.c1 with
  | some a, some b => if a.seq < b.seq then some b else some a
  | some a, none => some a
  | none, b => b

/-- Restore one KEEP block from its pool copy; 0xFF where none is valid. -/
def Areas.restoreBlock (salt : Option Nat) (a : Areas) (blk : Nat) : Areas :=
  let mem := a.keep.eraseRange (4096 * blk) 4096
  let a := { a with dirty := SMap.del a.dirty blk }
  match SMap.get? a.copies blk with
  | some k => match k.best salt with
    | some c => { a with keep := mem.writeList (4096 * blk) c.bytes }
    | none => { a with keep := mem }
  | none => { a with keep := mem }

/-- Restore every KEEP block that has a pool copy. -/
def Areas.restore (salt : Option Nat) (a : Areas) : Areas :=
  { a.copies.foldl (fun a c => Areas.restoreBlock salt a c.1) { a with keep := [], dirty := [] } with restored := true }

end Sys2Proof.Machine
end

