-- ==== Sys2Proof/Machine/PlateOps.lean ====
section
/-! DEFINITION. Plate table commits (R106-R109), minimums (R119, R120), channel state transitions (R129), plate checks and
selection (R113, R114). -/

namespace Sys2Proof.Machine

/-! ## Commits of a plate table -/

/-- SEQ has reached 0xFFFF_FFFF: the channel refuses every further commit (R109). -/
def State.seqFull (s : State) (n : Fin 128) : Bool := 0xFFFFFFFF ≤ (s.pl n).table.seq

/-- ADV of an ACTIVE plate whose advance has been made is cleared in the channel's next commit (R120). -/
def clearAdv (min : List Byte → Nat) (old new : Plate) : Plate :=
  if old.adv && new.adv && old.state = .active && old.svn.toNat ≤ min old.family then { new with adv := false } else new

/-- The state changes between two tables, in plate order. -/
def plateChanges (a b : PTable) : List (PlateId × PState × PState) :=
  [PlateId.a, .b, .recov].filterMap fun p =>
    if (a.get p).state = (b.get p).state then none else some (p, (a.get p).state, (b.get p).state)

/-- Causes in the PLATE record, in the order of R106's table; their numbers are the model's (log entry 31). -/
def pcStaging : Nat := 1
def pcStaged : Nat := 2
def pcArmed : Nat := 3
def pcAccepted : Nat := 4
def pcRejected : Nat := 5
def pcSelection : Nat := 6
def pcBad : Nat := 7
def pcErased : Nat := 8

/-- Commit a plate table of channel n (R108): one record, then PLATE_CHANGE and a PLATE record for each state that
changed. Nothing where SEQ is used up. The commit that resolves a conflict says so in FLAGS (R107). -/
def State.commitTable (s : State) (n : Fin 128) (t : PTable) (cause : Nat) : State :=
  let old := s.plates n
  let tied := (s.pl n).table.tied
  if s.seqFull n then s
  else
    let t : PTable := { t with conflict := tied, a := clearAdv s.familyMin old.a t.a, b := clearAdv s.familyMin old.b t.b }
    let s := (s.modPlt n fun x => { x with table := x.table.commit t }).committed
    s.forAll (plateChanges old t) fun c s =>
      let e := t.get c.1
      (s.raise 0x0401 n.1 [c.1.code, c.2.1.code, c.2.2.code, e.svn.toNat]).log 0x0011 n.1
        [c.1.code, c.2.1.code, c.2.2.code, cause, e.svn.toNat, ofLe e.root]

/-- Commit a plate table unless nothing changes and no conflict is to be resolved. -/
def State.commitPlates (s : State) (n : Fin 128) (t : PTable) (cause : Nat) : State :=
  if t = s.plates n && !(s.pl n).table.tied then s else s.commitTable n t cause

/-- The table with one plate's state replaced. -/
def PTable.withState (t : PTable) (p : PlateId) (x : PState) : PTable := t.set p { t.get p with state := x }

/-- The policy's source and local region of a plate (R111). -/
def PlatePol.srcOf (x : PlatePol) : PlateId → Byte
  | .a => x.srcA
  | .b => x.srcB
  | .recov => x.srcRec
def PlatePol.locOf (x : PlatePol) : PlateId → Nat × Nat
  | .a => x.locA
  | .b => x.locB
  | .recov => x.locRec

/-- The entry of a plate whose staging begins (R106): its source as the policy sets it now. -/
def PlatePol.stagingEntry (x : PlatePol) (p : PlateId) (host : Bool) : Plate :=
  { Plate.empty with
    state := .staging, host := host, src := x.srcOf p, locBase := if x.srcOf p = 2 then BitVec.ofNat 32 (x.locOf p).1 else 0 }

/-! ## Channel states (R129) -/

/-- Move the channel to a state: the event and, for the states that Tracing names, the CHANNEL record. Entry to RUNNING or
PROOF at a release records MEAS0 itself (R178). -/
def State.transition (s : State) (n : Fin 128) (st : ChState) (cause : Cause) : State :=
  let old := (s.ch n).state
  let s := s.modCtl n fun c => { c with state := st, cause := cause, kind := if st = .held then c.kind else .none }
  let s := s.raise 0x0101 n.1 [old.code, st.code, cause.code]
  match st with
  | .held | .recovery | .quarantined | .safe | .off => s.log 0x0014 n.1 [st.code, cause.code]
  | _ => s

/-! ## Verification failures -/

/-- Event VERIFY_FAILED and a VERIFY_FAIL record. `leaf` is 0xFFFF_FFFF where no leaf failed. -/
def State.verifyFailed (s : State) (n : Nat) (st : Status) (plate : Nat) (man : List Byte) (leaf : Nat) : State :=
  (s.raise 0x0307 n [st.toNat, plate, leaf]).log 0x0020 n [st.toNat, ofLe (manFamily man), ofLe (manRoot man), leaf]

/-! ## Checks (R113: eligibility) -/

/-- What a plate check finds. -/
inductive Chk where
  | ok (i : Fin 256)
  /-- wait for the take of a directory entry; 256: for the local confirmation of the plate (R84) -/
  | wait (entry : Nat)
  | unavailable (st : Status)
  /-- a verification failure, with the leaf, or 0xFFFF_FFFF -/
  | failed (st : Status) (leaf : Nat)
  | rollback
  deriving DecidableEq, Repr

/-- The status a command reports for a check that did not pass. -/
def Chk.status : Chk → Status
  | .ok _ | .wait _ => stSuccess
  | .unavailable st => st
  | .failed st _ => st
  | .rollback => stVersionRollback

/-- A relocating impression whose extents the layout in force can hold (R104). -/
def State.relocFits (s : State) (i : Fin 256) : Bool :=
  s.extentsHeld (fun j => j ≠ i && !(s.dirE j).lost) + extentsOf (s.dirE i).leaves.toNat ≤ s.totalExtents

/-- The pins of the channel fit when bound to entry i; a revert is always made (R91). -/
def State.pinsAllow (s : State) (n : Fin 128) (i : Fin 256) : Bool := (s.pl n).revertNext || s.pinsFit n i.1

/-- Begin a take and wait for it. -/
def State.takeAndWait (s : State) (man : List Byte) : Chk × State :=
  match s.beginTake man with
  | .inl (i, s) => (.wait i.1, s)
  | .inr st => (.unavailable st, s)

/-- The pair of a manifest as an impression to bind to (R83). -/
def State.checkPair (s : State) (n : Fin 128) (man : List Byte) : Chk × State :=
  match s.lookupPair (manFamily man) (manRoot man) with
  | none => s.takeAndWait man
  | some i =>
    match (s.dirE i).state with
    | .taking => (.wait i.1, s)
    | .damaged => if s.idle i then (s.freeEntry i 2).takeAndWait man else (.unavailable stImageIncomplete, s)
    | .relocating => if !s.relocFits i then (.unavailable stResourceExhausted, s)
        else (if s.pinsAllow n i then .ok i else .unavailable stResourceExhausted, s)
    | _ => (if s.pinsAllow n i then .ok i else .unavailable stResourceExhausted, s)

/-- Leaves of a plate (R113): a local plate needs local confirmation, then the impression. -/
def State.checkLeaves (s : State) (n : Fin 128) (p : PlateId) : Chk × State :=
  let man := (s.pl n).localMan.get p
  if ((s.plates n).get p).src = 2 && !(s.pl n).confirmed.get p then
    match portOf n with
    | some f => if (s.fp f).state = 1 || (s.fp f).state = 2 then (.wait 256, s) else (.unavailable stImageIncomplete, s)
    | none => (.unavailable stImageIncomplete, s)
  else s.checkPair n man

/-- check(p) of R113. -/
def State.checkPlate (s : State) (n : Fin 128) (p : PlateId) : Chk × State :=
  match s.checkManifest n ((s.pl n).localMan.get p) with
  | .unavailable st => (.unavailable st, s)
  | .failed st => (.failed st 0xFFFFFFFF, s)
  | .rollback => (.rollback, s)
  | .ok => s.checkLeaves n p

/-! ## Minimums (R119, R120) -/

/-- Raise a family's minimum in the table. -/
def MinTable.raiseTo (t : MinTable) (fam : List Byte) (v : Word) : MinTable :=
  if t.fams.any fun e => e.1 = fam then { t with fams := t.fams.map fun e => if e.1 = fam then (fam, v) else e }
  else { t with fams := t.fams ++ [(fam, v)] }

/-- All 64 entries are used by other families. -/
def MinTable.full (t : MinTable) (fam : List Byte) : Bool := 64 ≤ t.fams.length && !t.fams.any fun e => e.1 = fam

/-- Commit a family's minimum: ledger record and MINIMUM record. -/
def State.commitMin (s : State) (fam : List Byte) (v : Word) : State :=
  ({ s with mins := s.mins.commit (s.minTable.raiseTo fam v) }.committed).log 0x0012 devCh [ofLe fam, v.toNat]

/-- Complete the pending advances of every channel (R120); none while ledger writes are forbidden. -/
def State.completeAdvances (s : State) : State :=
  if s.noCommit then s
  else s.forChans fun n s =>
    s.forAll [PlateId.a, .b] fun p s =>
      let e := (s.plates n).get p
      if e.state = .active && e.adv && s.familyMin e.family < e.svn.toNat && !s.minTable.full e.family then
        s.commitMin e.family e.svn
      else s

/-! ## Selection (R113) -/

/-- A pass with nothing found yet. -/
def SelWait.fresh : SelWait := { excluded := [], failed := [], entry := 257, plate := .a }

/-- The pass has found the plate unusable. -/
def SelWait.has (w : SelWait) (p : PlateId) : Bool := (w.excluded ++ w.failed).any fun e => e.1 = p
def SelWait.bad (w : SelWait) (p : PlateId) : Bool := w.failed.any fun e => e.1 = p

/-- The plate on proof that selection still has to judge. -/
def State.selProof (s : State) (n : Fin 128) (w : SelWait) : Option PlateId :=
  match (s.plates n).onProof with
  | some p => if w.has p || (s.pl n).revertWaits then none else some p
  | none => none

/-- The plate that wins when A and B both claim to be newest: higher SVN, else higher BUILD, else A. -/
def tieWinner (t : PTable) : PlateId :=
  if t.a.svn.toNat < t.b.svn.toNat || (t.a.svn = t.b.svn && t.a.build.toNat < t.b.build.toNat) then .b else .a

/-- The working table: the proof plate judged, then the tie; and whether a tie was found. -/
def State.selTable (s : State) (n : Fin 128) (w : SelWait) : PTable × Bool :=
  let t := s.plates n
  let t := match t.onProof with
    | some p =>
      if w.bad p then t.withState p .bad
      else if (s.selProof n w).isSome || (s.pl n).revertWaits then t else t.withState p .rejected
    | none => t
  if t.a.state = .active ∧ t.b.state = .active then
    let win := tieWinner t
    let lose : PlateId := if win = .a then .b else .a
    ((t.withState lose .previous).set win { t.get win with tie := true }, true)
  else (t, false)

/-- The candidates in order: the ACTIVE plate, the PREVIOUS plate, REC if STAGED. -/
def candidates (t : PTable) : List PlateId :=
  ([PlateId.a, .b].filter fun p => (t.get p).state = .active) ++ ([PlateId.a, .b].filter fun p => (t.get p).state = .previous) ++
  (if t.recov.state = .staged then [.recov] else [])

/-- The table that selection commits when it ends with plate p, or with none. -/
def selFinal (t : PTable) (w : SelWait) (run : Option PlateId) : PTable :=
  let actBad := [PlateId.a, .b].any fun p => (t.get p).state = .active && w.bad p
  let t' := [PlateId.a, .b, .recov].foldl (fun x p => if w.bad p then x.withState p .bad else x) t
  match run with
  | some p => if (t.get p).state = .previous && actBad then t'.withState p .active else t'
  | none => t'

/-- A new proof attempt begins: fresh challenge, no deadline before its release (R115, R116). -/
def State.beginAttempt (s : State) (n : Fin 128) : State :=
  let d := s.drawChallenge
  d.2.modPlt n fun x => { x with challenge := d.1, deadline := none, firstExpiry := none, accepted := none }

/-- RECOVERY: no plate to run (R114), and so no CDI and nothing derived from one (R172). A CH_RELEASE that waits completes with
IMAGE_INCOMPLETE. -/
def State.enterRecoveryState (s : State) (n : Fin 128) : State :=
  let t := s.plates n
  let s := (s.modMbx n fun b => { b with cdi := [], cdiTaken := true, cert := [] }).modWdg n fun w => { w with key := [] }
  let s := (s.unbind n).transition n .recovery .recovery
  let s := s.raise 0x010B n.1 [t.a.state.code, t.b.state.code, t.recov.state.code]
  let s := s.modCtl n fun c => { c with relAsked := false, ranked := false }
  s.answerAll n (fun k => k = .release) stImageIncomplete 0 []

/-- Commit the pass's changes and place the channel: on entry i as plate p, or, with no plate, in RECOVERY if it is TAKING.
A commit waits for the supply and the control cluster, and the release with it (R113, R108, R16). -/
def State.selEnd (s : State) (n : Fin 128) (w : SelWait) (t : PTable) (tie : Bool) (run : Option (PlateId × Fin 256)) (attempt : Bool) :
    State :=
  if s.dev.ccAbsent || (t ≠ s.plates n && s.noCommit) then
    s.modCtl n fun c => { c with sel := some { w with entry := 257, plate := (run.map fun r => r.1).getD .a } }
  else
    let full := t ≠ s.plates n && s.seqFull n
    let s := if tie && !full then s.raise 0x0404 n.1 [(tieWinner t).code] else s
    let s := s.commitPlates n t pcSelection
    let s := if full then s.answerAll n (fun k => k = .release) stResourceExhausted 0 [] else s
    let s := s.modCtl n fun c => { c with sel := none }
    match run with
    | some (p, i) =>
      let s := s.bind n i p
      if attempt then s.beginAttempt n else s
    | none => if (s.ch n).state = .taking then s.enterRecoveryState n else s.unbind n

/-- Note a plate that did not pass. -/
def State.selNote (s : State) (n : Fin 128) (w : SelWait) (p : PlateId) (r : Chk) (loud : Bool) : State × SelWait :=
  match r with
  | .failed st leaf =>
    let s := s.verifyFailed n.1 st p.code ((s.pl n).localMan.get p) leaf
    (if loud then s.raise 0x0405 n.1 [p.code, st.toNat] else s, { w with failed := w.failed ++ [(p, st)] })
  | r => (s, { w with excluded := w.excluded ++ [(p, r.status)] })

/-- One pass of selection over the plates left to judge (R113); it stops where it has to wait. -/
def State.selectFrom (n : Fin 128) : Nat → SelWait → State → State
  | 0, _, s => s
  | fuel + 1, w, s =>
    match s.selProof n w with
    | some p =>
      let r := s.checkPlate n p
      match r.1 with
      | .wait e => r.2.modCtl n fun c => { c with sel := some { w with entry := e, plate := p } }
      | .ok i =>
        let x := (r.2.plates n).get p
        if x.attempts.toNat < (r.2.polOf n).plate.proofTries.toNat then
          r.2.selEnd n w ((r.2.plates n).set p { x with attempts := x.attempts + 1 }) false (some (p, i)) true
        else selectFrom n fuel { w with excluded := w.excluded ++ [(p, stSuccess)] } r.2
      | c =>
        let q := r.2.selNote n w p c false
        selectFrom n fuel q.2 q.1
    | none =>
      let t := s.selTable n w
      match (candidates t.1).find? fun p => !w.has p with
      | none => s.selEnd n w (selFinal t.1 w none) t.2 none false
      | some p =>
        let r := s.checkPlate n p
        match r.1 with
        | .wait e => r.2.modCtl n fun c => { c with sel := some { w with entry := e, plate := p } }
        | .ok i => r.2.selEnd n w (selFinal t.1 w (some p)) t.2 (some (p, i)) false
        | c =>
          let q := r.2.selNote n w p c true
          selectFrom n fuel q.2 q.1

/-- select(ch): pending advances are completed first. It waits for the control cluster (R16). -/
def State.select (s : State) (n : Fin 128) : State :=
  if s.dev.ccAbsent then s.modCtl n fun c => { c with sel := some SelWait.fresh }
  else State.selectFrom n 8 SelWait.fresh s.completeAdvances

/-- Selection goes on after a wait. -/
def State.reselect (s : State) (n : Fin 128) (w : SelWait) : State := State.selectFrom n 8 w s

end Sys2Proof.Machine
end

