-- ==== Sys2Proof/Machine/HoldOps.lean ====
section
/-! DEFINITION. Holding and releasing hosts (R129-R131, R137-R139), arming a proof (R115), acceptance and revert (R117,
R118), the power-cycle sequence of a restart line (R139) and the DEVICE hold (R141). -/

namespace Sys2Proof.Machine

/-! ## Stopping a host -/

/-- The channel's watchdog stops counting: it holds the ticks it has counted, and a freeze ends (R144, R168). -/
def State.wdgStop (s : State) (n : Fin 128) : State :=
  s.modWdg n fun w => { w with base := s.wdgTicks w, counting := false, frozen := none }

/-- The channel leaves RUNNING or PROOF, or any wait: its watchdog stops, a read burst ends, a pending re-release is dropped, no
selection goes on (a proof being armed keeps its check), and HOLD# is to sink (R130). -/
def State.stopHost (s : State) (n : Fin 128) : State :=
  let arming := match (s.pl n).arming with | some a => !a.committed | none => false
  let s := (s.wdgStop n).modPort n fun p => { p with burstOpen := false, driven := 0, dqsDriven := false }
  let s := s.modStn n fun t => { t with oldCmd := t.oldCmd && (s.port n).inProgress }
  let s := s.modCtl n fun c =>
    { c with holdWait := !c.sink, relAsked := false, pgTmoAt := none, seq := none, standbyRun := false, ranked := false,
             sel := if arming then c.sel else none }
  { s with plat := { s.plat with queue := s.plat.queue.filter fun x => x ≠ n.1, late := s.plat.late.filter fun x => x ≠ n.1 } }

/-- Hold the channel under a kind (R130, R131). A CH_RELEASE that waits for READY is stopped. -/
def State.hold (s : State) (n : Fin 128) (kind : HoldKind) (cause : Cause) (seq : Option SeqKind) : State :=
  let was := (s.ch n).state
  let s := (s.stopHost n).modCtl n fun c => { c with kind := kind, seq := seq }
  let s := if was = .taking then s.answerAll n (fun k => k = .release) stAborted 0 [] else s
  if was = .held then s else s.transition n .held cause

/-- The states from which a hold holds (R129). -/
def ChState.live : ChState → Bool
  | .taking | .ready | .running | .proof => true
  | _ => false

/-- End an arming that has not completed: its command completes with a status. -/
def State.endArming (s : State) (n : Fin 128) (st : Status) : State :=
  let s := if (s.pl n).arming.isSome then
      (s.modPlt n fun x => { x with arming := none }).modCtl n fun c => { c with sel := none }
    else s
  s.answerAll n (fun k => k = .arm) st 0 []

/-- Commit the proof plate REJECTED, or let the commit wait for the supply (R118, R300). -/
def State.rejectProof (s : State) (n : Fin 128) : State :=
  match (s.plates n).onProof with
  | none => s
  | some p =>
    let s := s.modPlt n fun x => { x with deadline := none, accepted := none, firstExpiry := none }
    if s.noCommit then
      let s := s.modPlt n fun x => { x with revertWaits := true }
      { s with led := { s.led with waiting := s.led.waiting ++ [.revert n.1] } }
    else s.commitPlates n ((s.plates n).withState p .rejected) pcRejected

/-- Leave service for OFF or QUARANTINED: a plate on proof is REJECTED, the channel is unbound (R117, R85). -/
def State.leave (s : State) (n : Fin 128) (st : ChState) (cause : Cause) : State :=
  let was := (s.ch n).state
  let s := (s.endArming n stAborted).stopHost n
  let s := if was = .taking || was = .safe then s.answerAll n (fun k => k = .release) stAborted 0 [] else s
  let s := (s.transition n st cause).unbind n
  if s.onProof n then s.rejectProof n else s

/-- Enter SAFE: HOLD# sinks, the binding stays (R129). -/
def State.enterSafe (s : State) (n : Fin 128) : State :=
  let was := (s.ch n).state
  let s := s.stopHost n
  let s := if was = .taking then s.answerAll n (fun k => k = .release) stAborted 0 [] else s
  s.transition n .safe .safe

/-! ## Starting a release -/

/-- A channel whose local flash is in FAULT stays HELD (R70, R338): what waits for its release completes with IMAGE_INCOMPLETE, as a
release that ends in RECOVERY does (R114). DESIGN CHOICE (log entry 93): the spec gives no status. -/
def State.stayHeld (s : State) (n : Fin 128) : State :=
  s.answerAll n (fun k => k = .release || k = .arm) stImageIncomplete 0 []

/-- Move to TAKING (R129). Selection runs except where R2 exempts the channel, where a plate on proof is bound already,
or while a proof is being armed. `asked`: the release is requested at READY; ranks request it at their boundary. -/
def State.startTaking (s : State) (n : Fin 128) (cause : Cause) (asked : Bool) : State :=
  if (s.ch n).state = .held && s.portFault n then s.stayHeld n
  else
  let s := s.modCtl n fun c => { c with seq := none, pgTmoAt := none, relAsked := asked, standbyRun := false }
  let s := s.transition n .taking cause
  if (s.pl n).arming.isSome then s
  else
    let s := s.modCtl n fun c => { c with sel := none }
    if s.exempt n then s.unbind n
    else if s.onProof n && (s.ch n).bound.isSome then s
    else s.select n

/-- Re-release onto the plate the host was running: no selection where the binding is in place (R115). -/
def State.takeKept (s : State) (n : Fin 128) (cause : Cause) : State :=
  if (s.ch n).bound.isSome && !s.portFault n then
    (s.modCtl n fun c => { c with seq := none, pgTmoAt := none, relAsked := true, sel := none }).transition n .taking cause
  else s.startTaking n cause true

/-! ## Arming a proof (R115) -/

/-- Arming goes no further: the command completes with the status and the host is re-released onto its plate. -/
def State.armFail (s : State) (n : Fin 128) (st : Status) : State :=
  let s := s.endArming n st
  let c := s.ch n
  if c.state = .held && c.seq = some .arming then s.takeKept n .proof
  else if c.state = .taking then s.select n else s

/-- Steps 3 to 5, then the way to the release of step 6. A channel armed while live is released only while the sequence
still holds it, and no channel outside RUNNING (R141); SAFE stays SAFE (log entry 21). -/
def State.armCommit (s : State) (n : Fin 128) (a : Arming) (i : Fin 256) : State :=
  let t := s.plates n
  let s := s.commitPlates n (t.set a.plate { t.get a.plate with state := .proof, attempts := 1 }) pcArmed
  let s := (s.bind n i a.plate).beginAttempt n
  let s := (s.modPlt n fun x => { x with arming := some { a with committed := true } }).modCtl n fun c => { c with sel := none }
  let c := s.ch n
  let go := if a.live then c.state = .held ∧ c.seq = some .arming
            else c.state = .recovery ∨ (c.state = .held ∧ c.kind ≠ .device)
  let s := s.modPlt n fun x => { x with arming := none }
  if go ∧ s.dev.state = .running then s.startTaking n .proof true else s

/-- Step 2's outcome. -/
def State.armJudge (s : State) (n : Fin 128) (a : Arming) (r : Chk) : State :=
  match r with
  | .wait e => s.modCtl n fun c => { c with sel := some { SelWait.fresh with entry := e, plate := a.plate } }
  | .ok i =>
    if s.noCommit then s.modCtl n fun c => { c with sel := some { SelWait.fresh with entry := 257, plate := a.plate } }
    else if s.seqFull n then s.armFail n stResourceExhausted
    else s.armCommit n a i
  | .failed st leaf =>
    let s := (s.verifyFailed n.1 st a.plate.code ((s.pl n).localMan.get a.plate) leaf).raise 0x0405 n.1
      [a.plate.code, st.toNat]
    let s := if s.noCommit then { s with led := { s.led with waiting := s.led.waiting ++ [.plateBad n.1 a.plate st.toNat] } }
      else s.commitPlates n ((s.plates n).withState a.plate .bad) pcBad
    s.armFail n st
  | r => s.armFail n r.status

/-- Steps 2 to 6, once the host is held; they wait for the control cluster (R16). -/
def State.armStep (s : State) (n : Fin 128) : State :=
  match (s.pl n).arming with
  | some a => if a.committed then s
    else if s.dev.ccAbsent then s.modCtl n fun c => { c with sel := some { SelWait.fresh with plate := a.plate } }
    else
      let r := s.checkPlate n a.plate
      r.2.armJudge n a r.1
  | none => s

/-- Step 1: hold the host, subject to R73. -/
def State.beginArm (s : State) (n : Fin 128) (p : PlateId) : State :=
  let live := (s.ch n).state.live
  let s := s.modPlt n fun x => { x with arming := some { plate := p, live := live, committed := false } }
  if live then
    let s := s.hold n .sequence .proof (some .arming)
    if (s.ch n).sink then s.armStep n else s
  else s.armStep n

/-! ## Acceptance and revert (R117, R118) -/

/-- Revert the proof of channel n. `why` is the row of R117's table: 1 deadline, 2 watchdog expiry, 4 minimum advanced. -/
def State.revert (s : State) (n : Fin 128) (why : Nat) : State :=
  match (s.plates n).onProof with
  | none => s
  | some p =>
    if (s.pl n).revertWaits then s
    else
      let c := s.ch n
      let stays := c.state = .held && c.kind ≠ .sequence
      let s := s.endArming n stAborted
      let s := if c.state.live then s.hold n .sequence .proof (some .revert)
        else if c.seq = some .absent || c.seq = some .arming then s.modCtl n fun c => { c with seq := some .revert }
        else s
      let s := (s.rejectProof n).modPlt n fun x => { x with revertNext := true }
      let s := s.raise 0x0407 n.1 [p.code, Config.eventWord (96 + why)]
      let c := s.ch n
      if c.state = .held then
        if c.kind = .device then s
        else if stays then s.select n
        else if c.seq = some .revert then (if c.sink then s.startTaking n .proof true else s)
        else s.select n
      else s

/-- Revert every proof whose plate is below its family's minimum (R119). -/
def State.revertBelow (s : State) : State :=
  s.forChans fun n s =>
    match (s.plates n).onProof with
    | some p => let e := (s.plates n).get p
      if e.svn.toNat < s.familyMin e.family then s.revert n 4 else s
    | none => s

/-- The acceptance commit (R117): the proof plate ACTIVE, the former ACTIVE plate PREVIOUS, in one record. `time` is the
latched device time. A channel whose SEQ is used up refuses it, and the proof goes on (R109); PROOF_ACCEPT has no completion to say so. -/
def State.acceptCommit (s : State) (n : Fin 128) (time : Nat) : State :=
  match (s.plates n).onProof with
  | none => s
  | some p =>
    if s.seqFull n then s.modPlt n fun x => { x with accepted := none }
    else
      let t := s.plates n
      let other : PlateId := if p = .a then .b else .a
      let t := if (t.get other).state = .active then t.withState other .previous else t
      let e := t.get p
      let t := t.set p { e with state := .active, adv := e.adv || (s.polOf n).fam.advOnAccept }
      let s := s.commitPlates n t pcAccepted
      let s := s.modPlt n fun x =>
        { x with deadline := none, accepted := none, firstExpiry := none, show_ := 2 }
      let s := s.raise 0x0406 n.1 [p.code, time]
      let s := if (s.ch n).state = .proof then
          let s := s.transition n .running .proof
          s.log 0x0014 n.1 [ChState.running.code, Cause.proof.code, ofLe (vget (s.mb n).meas 0).toList]
        else s
      s.completeAdvances.revertBelow

/-- A PROOF_ACCEPT latched at a device time meets R45 and R117. -/
def State.acceptOk (s : State) (n : Fin 128) (time : Nat) (value : DWord) : Bool :=
  let x := s.pl n
  s.onProof n && value = x.challenge &&
  (match x.deadline with | some d => time < d | none => true) &&
  (match x.firstExpiry with | some e => time < e | none => true)

/-- An acceptance latched before now waits for the supply (R117). -/
def State.acceptWaits (s : State) (n : Fin 128) : Bool :=
  match (s.pl n).accepted with
  | some t => t < s.now
  | none => false

/-- Judge a PROOF_ACCEPT at its latched time. Under low-supply inhibit the commit waits. -/
def State.judgeAccept (s : State) (n : Fin 128) (time : Nat) (value : DWord) : State :=
  if !s.acceptOk n time value || (s.pl n).accepted.isSome then s
  else if s.inhibited then
    let s := s.modPlt n fun x => { x with accepted := some time }
    { s with led := { s.led with waiting := s.led.waiting ++ [.accept n.1] } }
  else s.acceptCommit n time

/-- A proof fails (R117): the revert, or, while the control cluster is absent, the hold of R17, with the failure kept until its
return. An acceptance latched earlier stands. -/
def State.proofFails (s : State) (n : Fin 128) (why : Nat) : State :=
  if s.acceptWaits n then s
  else if s.dev.ccAbsent then
    let s := s.modPlt n fun x => { x with absentFail := x.absentFail.or (some why) }
    if (s.ch n).state.live then s.hold n .sequence .proof (some .absent) else s
  else s.revert n why

/-! ## Restart and power-cycle sequences (R138, R139) -/

/-- The restart sequence. -/
def State.restartSeq (s : State) (n : Fin 128) (cause : Cause) : State := s.hold n .sequence cause (some .restart)

/-- Role of a line in force: 0 unused, 1 restart, 2 backup. -/
def State.lineRole (s : State) (t : Fin 16) : Nat := field (s.twl.getD t.1 0) 1 0

/-- Pulse length of a restart line in ns. -/
def State.linePulse (s : State) (t : Fin 16) : Nat := field (s.twl.getD t.1 0) 11 2 * msec

def State.modLine (s : State) (t : Fin 16) (x : TwStep) : State :=
  { s with plat := { s.plat with lines := vset s.plat.lines t x } }

/-- Step 2: once every HOLD# of step 1 sinks, the line sinks. -/
def State.lineStep (s : State) (t : Fin 16) : State :=
  match vget s.plat.lines t with
  | .holding cs =>
    if (List.finRange 128).all fun n => !cs.contains n.1 || (s.ch n).sink then
      let s := s.modLine t (.sinking s.now cs)
      { s with plat := { s.plat with pulses := satInc s.plat.pulses } }
    else s
  | _ => s

/-- A channel still waits for its PG_OK at step 3 of line t's sequence. -/
def State.atStep3 (s : State) (t : Fin 16) (k : Nat) : Bool :=
  match fin? 128 k with
  | some n => (s.ch n).state = .held && (s.ch n).seq = some (.power t.1)
  | none => false

/-- Where line t stands: step 3 lasts while one of its channels waits for PG_OK (DESIGN CHOICE, log entry 22). -/
def State.lineAt (s : State) (t : Fin 16) : TwStep :=
  match vget s.plat.lines t with
  | .waiting cs => if cs.any (s.atStep3 t) then .waiting cs else .idle
  | x => x

/-- Step 3 for a channel that the sequence holds: PG_TMO runs, and with PG_OK it goes on to step 4, TAKING, unless its local flash is in
FAULT (R70). -/
def State.powerStep3 (s : State) (n : Fin 128) : State :=
  if (s.ch n).pgOk && s.dev.state = .running && !s.portFault n then s.startTaking n .powerCycle true
  else s.modCtl n fun c => { c with pgTmoAt := some (s.now + (s.profOf n).pgTmo * second) }

/-- The channel asks for the sequence itself and is held with it: live, or held by R17. -/
def State.joins (s : State) (own : Option (Fin 128)) (n : Fin 128) : Bool :=
  own = some n && ((s.ch n).state.live || ((s.ch n).state = .held && (s.ch n).seq = some .absent))

/-- Request the power-cycle sequence of a restart line: a new one, or a join at steps 1 to 3. A channel of its own that
has been released meanwhile and asks for the sequence is held with it (log entry 22). -/
def State.requestPulse (s : State) (t : Fin 16) (own : Option (Fin 128)) : State :=
  match s.lineAt t with
  | .idle =>
    let cs := (List.finRange 128).filter fun n =>
      (s.profOf n).rgrpEn && (s.profOf n).rgrp = t.1 && s.chanOn n && ((s.ch n).state.live || s.joins own n)
    let s := s.forAll cs fun n s => s.hold n .sequence .powerCycle (some (.power t.1))
    (s.modLine t (.holding (cs.map fun n => n.1))).lineStep t
  | l =>
    let s := { s with plat := { s.plat with merged := satInc s.plat.merged } }
    match own with
    | some n =>
      if s.joins own n then
        let s := s.hold n .sequence .powerCycle (some (.power t.1))
        match l with
        | .holding cs => (s.modLine t (.holding (cs ++ [n.1]))).lineStep t
        | .sinking since cs => s.modLine t (.sinking since (cs ++ [n.1]))
        | .waiting cs =>
          let s := s.modLine t (.waiting (cs ++ [n.1]))
          if (s.ch n).sink then s.powerStep3 n else s
        | .idle => s
      else s
    | none => s

/-- The power-cycle step of channel n: its line's sequence, or the restart sequence (R139, R156). -/
def State.powerCycle (s : State) (n : Fin 128) : State :=
  let p := s.profOf n
  if p.rgrpEn then
    match fin? 16 p.rgrp with
    | some t => if s.lineRole t = 1 then s.requestPulse t (some n) else s.restartSeq n .powerCycle
    | none => s.restartSeq n .powerCycle
  else s.restartSeq n .powerCycle

/-- Backup line t is asserted (R128); no line is asserted before START (R140). -/
def State.backupOn (s : State) (t : Fin 16) : Bool :=
  s.lineRole t = 2 &&
  ((s.plat.force.get .a).getLsbD t.1 || (s.plat.force.get .b).getLsbD t.1 ||
   (List.finRange 128).any fun n => (s.ch n).state = .safe && (s.profOf n).bgrpEn && (s.profOf n).bgrp = t.1)

/-- A pulse is in progress on line t. -/
def State.pulseOn (s : State) (t : Fin 16) : Bool := match vget s.plat.lines t with | .sinking _ _ => true | _ => false

/-- TW line t sinks: SAFE_HOLD and STANDBY keep the backup lines as they were at their entry, and a pulse ends at its time (R141). -/
def State.lineOn (s : State) (t : Fin 16) : Bool :=
  match s.dev.state with
  | .start | .running => s.backupOn t || s.pulseOn t
  | .safeHold | .standby => s.plat.kept.getLsbD t.1 || s.pulseOn t
  | .por | .shadow | .rom | .deviceRecovery => false

/-- The backup lines as they stand, to be kept. -/
def State.keepLines (s : State) : State :=
  { s with plat := { s.plat with kept := BitVec.ofNat 16 (pack ((List.finRange 16).map fun t => (t.1, bval (s.lineOn t && !s.pulseOn t)))) } }

/-! ## Hold instants (R130) -/

/-- The SFDP maximum of a program or erase of the local flash, at most 4 s, in ns (R73). -/
def FlashPort.bound (x : FlashPort) (erase : Bool) (len : Nat) : Nat :=
  min (if !erase then x.progUs.toNat * usec else if len = 0x1000 then x.erase4Ms.toNat * msec else x.erase64Ms.toNat * msec) (4 * second)

/-- The device programs or erases the local flash of channel n (R73). -/
def State.localWrite (s : State) (n : Fin 128) (erase : Bool) (len : Nat) : State :=
  match portOf n with
  | none => s
  | some f => s.modFp f fun x => { x with localOp := some { erase := erase, host := false, start := s.now, bound := x.bound erase len } }

/-- The device's own program or erase of the local flash of channel n has ended. -/
def State.localDone (s : State) (n : Fin 128) : State :=
  match portOf n with
  | none => s
  | some f => s.modFp f fun x => { x with localOp := match x.localOp with | some o => if o.host then some o else none | none => none }

/-- A local program or erase keeps HOLD# from falling: it runs, within its bound (R73). -/
def State.localBusy (s : State) (n : Fin 128) : Bool :=
  match portOf n with
  | some f => match (s.fp f).localOp with
    | some o => s.now < o.start + o.bound
    | none => false
  | none => false

/-- When a session ends or the host is held, phase UPDATE returns to RUN (R49). -/
def State.leaveUpdate (s : State) (n : Fin 128) : State := if (s.st n).phase = .update then s.setPhase n .run else s

/-- Put the update session in a state with a status: event UPD_SESSION. -/
def State.setSession (s : State) (n : Fin 128) (session : BitVec 3) (st : Status) : State :=
  let s := s.modMbx n fun b => { b with session := session, updStatus := st.zeroExtend 16 }
  s.raise 0x010C n.1 [(s.mb n).updWord]

/-- The update session ends in DONE or FAILED (R49). -/
def State.endSession (s : State) (n : Fin 128) (st : Status) : State :=
  (s.setSession n (if st = stSuccess then 3 else 4) st).leaveUpdate n

/-- An update session that is OPEN ends in FAILED with ABORTED at a hold (R121). -/
def State.endOpenSession (s : State) (n : Fin 128) (st : Status) : State :=
  if (s.mb n).session = 1 then s.endSession n st else s

/-- Start discovery: PASS_PROTO and DEV_MHZ of the standing configuration take effect now (R71, R315). -/
def State.startDiscovery (s : State) (f : Fin 64) : State :=
  let q := match fin? 128 f.1 with | some n => vget s.profCfg n | none => ChanCfg.default
  let s := match fin? 128 f.1 with
    | some n => { s with prof := vmod s.prof n fun p => { p with passProto := q.passProto, devMhz := q.devMhz } }
    | none => s
  s.modFp f fun x =>
    { x with state := 1, fault := 0, user := 0, localOp := none, found := none, passProto := BitVec.ofNat 2 q.passProto, devMhz := BitVec.ofNat 8 q.devMhz }

/-- LOCAL, VF_LOG2 and JEDEC ID of a new profile (R315). -/
def ChanCfg.withIdentity (p q : ChanCfg) : ChanCfg :=
  { p with isLocal := q.isLocal, vfLog2 := q.vfLog2, idOverride := q.idOverride, jedec := q.jedec }

/-- KEEP and SCRATCH areas and pinned ranges of a new profile (R315). -/
def ChanCfg.withAreas (p q : ChanCfg) : ChanCfg :=
  { p with keepBlk := q.keepBlk, scrBlk := q.scrBlk, pins := q.pins }

/-- The identity fields of the standing configuration take effect, with discovery where LOCAL becomes 1 (R315, R70). -/
def State.applyIdentity (s : State) (n : Fin 128) : State :=
  let old := s.profOf n
  let s := { s with prof := vmod s.prof n fun p => p.withIdentity (vget s.profCfg n) }
  if !old.isLocal && (s.profOf n).isLocal && (s.profOf n).enabled then
    match portOf n with
    | some f => s.startDiscovery f
    | none => s
  else s

/-- A policy section or identity change that waits for a hold is applied (R69, R315); it waits for the control cluster too (R16). -/
def State.applyDeferred (s : State) (n : Fin 128) : State :=
  if s.dev.ccAbsent then s else (if s.deferred n then s.applySection n else s).applyIdentity n

/-- The host port at a hold instant: nothing is in progress, and the identity of the next release may differ (R34, R39). -/
def HostPort.atHold (p : HostPort) : HostPort := { p with op := none, resetArmed := false, burstOpen := false, ident := none }

/-- HOLD# sinks now: the hold instant, and what waits for it. A revert's or an arming's own steps wait for the control cluster (R16). -/
def State.reachHold (s : State) (n : Fin 128) : State :=
  let s := s.modCtl n fun c => { c with sink := true, holdWait := false, holdT := s.now, holds := satInc c.holds }
  let s := ((s.modPort n HostPort.atHold).endOpenSession n stAborted).leaveUpdate n
  let s := (s.modStn n fun t => { t with oldCmd := false }).applyDeferred n
  let s := s.answerAll n (fun k => k = .hold || k = .restart) stSuccess 0 (leBytes 8 s.now)
  let s := s.forAll (List.finRange 16) fun t s => s.lineStep t
  match (s.ch n).seq with
  | some .arming => s.armStep n
  | some .revert => if s.dev.ccAbsent then s else s.startTaking n .proof true
  | some (.power t) => match fin? 16 t with
    | some t => (match s.lineAt t with | .waiting _ => s.powerStep3 n | _ => s)
    | none => s
  | _ => s

/-- The re-release of a held channel that something has kept back: the control cluster's absence, STANDBY, or its local flash in
FAULT (R16, R70, R141). -/
def State.resumeHeld (s : State) (n : Fin 128) : State :=
  let c := s.ch n
  if c.state ≠ .held || s.dev.ccAbsent || s.dev.state ≠ .running then s
  else match c.kind, c.seq with
    | .sequence, some .revert => if c.sink then s.startTaking n .proof true else s
    | .sequence, some .absent => if (s.pl n).absentFail.isNone then s.takeKept n .proof else s
    | .sequence, some (.power _) => if c.pgTmoAt.isSome && c.pgOk then s.startTaking n .powerCycle true else s
    | .pgood, _ => if c.pgOk && !(s.profOf n).pgAct then s.startTaking n .pgood true else s
    | _, _ => s

/-! ## The device's own holds -/

/-- Every channel under a DEVICE hold (R141, R271). -/
def State.deviceHoldAll (s : State) : State :=
  s.forChans fun n s =>
    if (s.ch n).state.live || (s.ch n).state = .held then s.hold n .device .device none else s

/-- Sink every HOLD# at once, without waiting for platform control (R165, R141). -/
def State.sinkAll (s : State) : State :=
  s.forChans fun n s =>
    if (s.ch n).sink then s
    else s.modCtl n fun c => { c with sink := true, holdWait := false, holdT := s.now, holds := satInc c.holds }

/-- FAIL# at entry to SAFE_HOLD or DEVICE_RECOVERY (R141): continuous, or a pulse. -/
def State.assertFail (s : State) : State :=
  { s with plat := { s.plat with
      failOn := true, failUntil := if s.dcfg.failMode then some (s.now + s.dcfg.failPulseMs * msec) else none } }

/-- A selection or an arming that waited for a directory entry, a confirmation or the supply goes on with an outcome for
the plate it waited for: none, or a check that failed. PLATE_BAD is raised for a candidate only, not for the proof plate (R113). -/
def State.resume (s : State) (n : Fin 128) (out : Option Chk) : State :=
  match (s.ch n).sel with
  | none => s
  | some w =>
    let s := s.modCtl n fun c => { c with sel := none }
    match (s.pl n).arming with
    | some a => (match out with
      | some r => s.armJudge n a r
      | none => s.armStep n)
    | none => (match out with
      | some r =>
        let q := s.selNote n w w.plate r (s.selProof n w ≠ some w.plate)
        q.1.reselect n q.2
      | none => s.reselect n w)

/-- Everything that waits for directory entry i goes on. -/
def State.resumeEntry (s : State) (i : Nat) (out : Option Chk) : State :=
  s.forChans fun n s =>
    match (s.ch n).sel with
    | some w => if w.entry = i then s.resume n out else s
    | none => s

/-! ## Line assignments (R315) -/

/-- The line is in no sequence. -/
def State.lineIdle (s : State) (t : Nat) : Bool :=
  match fin? 16 t with
  | some t => s.lineAt t = .idle
  | none => true

/-- A channel's restart and backup lines. -/
def ChanCfg.withLines (p q : ChanCfg) : ChanCfg := { p with rgrpEn := q.rgrpEn, rgrp := q.rgrp, bgrpEn := q.bgrpEn, bgrp := q.bgrp }

/-- Neither the restart line in force nor the new one is in a sequence. -/
def State.linesFree (s : State) (p q : ChanCfg) : Bool :=
  (!p.rgrpEn || s.lineIdle p.rgrp) && (!q.rgrpEn || s.lineIdle q.rgrp)

/-- Line assignments that waited for a sequence's end. -/
def State.settleLines (s : State) : State :=
  { s with prof := Vector.ofFn fun n => let p := vget s.prof n; let q := vget s.profCfg n; if s.linesFree p q then p.withLines q else p }

/-- Lines whose step 3 is over: they are in no sequence, and roles and assignments that waited for that are applied (R139, R315). -/
def State.endLines (s : State) : State :=
  let ended := (List.finRange 16).filter fun t => vget s.plat.lines t ≠ s.lineAt t
  if ended.isEmpty then s
  else (s.forAll ended fun t s => { s.modLine t .idle with twl := s.twl.set t.1 (s.dcfg.twl.getD t.1 0) }).settleLines

end Sys2Proof.Machine
end

