-- ==== Sys2Proof/Machine/WatchdogOps.lean ====
section
/-! DEFINITION. Operations of the channel watchdogs (R144-R159): publication, arming, services and extensions at their
sample edge, expiries and their actions, the ledger record; and tokens (R150, R151). -/

namespace Sys2Proof.Machine

/-! ## Tokens (R150, R151) -/

/-- The SIMPLE token: NOT of the challenge rotated left by SEQ mod 64. -/
def simpleToken (challenge seq : DWord) : DWord := ~~~(challenge.rotateLeft (seq.toNat % 64))

/-- The KEYED token: the first 8 bytes of HMAC-SHA-384 over challenge, SEQ and the channel byte. -/
def keyedToken (key : List Byte) (challenge seq : DWord) (ch : Byte) : DWord :=
  BitVec.ofNat 64 (ofLe ((Config.hmac384 key (leBytes 8 challenge.toNat ++ leBytes 8 seq.toNat ++ [ch])).toList.take 8))

/-- The key of channel n's watchdog: derived from the CDI, or the owner's slot of usage WDG (bit 6); none when it is lost. -/
def State.wdgKey (s : State) (n : Fin 128) : Option (List Byte) :=
  let p := (s.polOf n).wdg
  if p.keySrc then s.internalKey p.keySlot.toNat 6
  else if (s.wd n).key.isEmpty then none else some (s.wd n).key

/-- A token answers the published challenge and SEQ. -/
def State.tokenOk (s : State) (n : Fin 128) (token : DWord) : Bool :=
  let w := s.wd n
  if w.keyed then match s.wdgKey n with
    | some k => token = keyedToken k w.chal w.seq (BitVec.ofNat 8 n.1)
    | none => false
  else token = simpleToken w.chal w.seq

/-! ## Publication and arming (R149, R154) -/

/-- Publish a new challenge; SEQ rises by one. -/
def State.publish (s : State) (n : Fin 128) : State :=
  let d := s.drawChallenge
  d.2.modWdg n fun w => { w with chal := d.1, seq := w.seq + 1 }

/-- Restart the window: the reference edge is the next tick edge (log entry 9); violations and extension cleared. -/
def State.newWindow (s : State) (n : Fin 128) : State :=
  s.modWdg n fun w =>
    { w with counting := true, frozen := none, ref := s.nextEdge, base := 0, viols := 0, ext := 0, extUsed := false }

/-- MEAS2's v (R175). -/
def State.meas2 (s : State) (n : Fin 128) : Digest :=
  let w := s.wd n
  let p := (s.polOf n).wdg
  Config.sha384 ((leBytes 4 w.cfgWord) ++ leBytes 4 w.winWord ++ leBytes 4 p.actWord ++ leBytes 4 p.extWord)

/-- Arm: SEQ restarts at 1, the page locks, WDG_ARMED; MEAS2 is extended at the arming instant outside a release. -/
def State.arm (s : State) (n : Fin 128) (inRelease : Bool) : State :=
  let s := s.modWdg n fun w => { w with armed := true, seq := 0, base := 0 }
  let s := s.publish n
  let w := s.wd n
  let s := s.raise 0x0201 n.1 [w.cfgWord, w.winWord]
  if inRelease then s else s.extend n 2 0x0030 [1, w.cfgWord, w.winWord] (s.meas2 n)

/-! ## Expiry (R156-R158) -/

def ExpCause.code : ExpCause → Nat
  | .close => 1 | .early => 2 | .badToken => 3 | .clockLost => 4

/-- The ledger's record after one more expiry (R158). -/
def WdgRec.count (r : WdgRec) (cause : ExpCause) (start : Word) (time : Nat) : WdgRec :=
  { total := satInc r.total, consec := satInc r.consec, cause := BitVec.ofNat 8 cause.code, startNum := start.truncate 16,
    time := BitVec.ofNat 64 time }

/-- Write the counts, or let them wait for the supply. -/
def State.putWdgRec (s : State) (n : Fin 128) (r : WdgRec) : State :=
  if s.inhibited then
    let s := s.modWdg n fun w => { w with shown := r, pending := true }
    { s with led := { s.led with waiting := s.led.waiting ++ [.watchdog n.1] } }
  else s.modWdg n fun w => { w with shown := r, ledger := r, pending := false }

/-- CONSEC cleared (R159): word 0 of the record. -/
def State.clearConsec (s : State) (n : Fin 128) : State := s.putWdgRec n { (s.wd n).shown with consec := 0 }

/-- The actions of R156. -/
inductive WdgAct where
  | revert
  | pulse
  | safe
  | restart
  | power
  deriving DecidableEq, Repr

/-- STEP of CHn_WDG_STAT. -/
def WdgAct.code : WdgAct → Nat
  | .restart => 1 | .power => 2 | .safe => 3 | .revert => 4 | .pulse => 5

/-- The action that the rows of R156 name, for k consecutive expiries. -/
def State.wdgAction (s : State) (n : Fin 128) (k : Nat) : WdgAct :=
  let p := (s.polOf n).wdg
  if s.onProof n && !s.acceptWaits n then .revert
  else if !(s.wd n).ladder then .pulse
  else if p.safeN.toNat ≤ k then .safe
  else if k ≤ p.restarts.toNat then .restart
  else .power

/-- Take an action. -/
def State.takeAction (s : State) (n : Fin 128) (a : WdgAct) : State :=
  match a with
  | .revert => s.proofFails n 2
  | .pulse | .power => s.powerCycle n
  | .safe => s.enterSafe n
  | .restart => s.restartSeq n .restart

/-- The action asks for the power-cycle sequence of the restart line. -/
def WdgAct.cycles : WdgAct → Bool
  | .pulse | .power => true
  | .revert | .safe | .restart => false

/-- The count that an expiry of channel n leaves. -/
def State.expiryRec (s : State) (n : Fin 128) (cause : ExpCause) : WdgRec := (s.wd n).shown.count cause s.dev.startCount s.now

/-- The action that an expiry of channel n takes. -/
def State.expiryAct (s : State) (n : Fin 128) (cause : ExpCause) : WdgAct := s.wdgAction n (s.expiryRec n cause).consec.toNat

/-- Steps 1 to 3 of an expiry (R156): recorded, counted, raised and logged; STEP shows the action. -/
def State.noteExpiry (s : State) (n : Fin 128) (cause : ExpCause) : State :=
  let r := s.expiryRec n cause
  let a := s.expiryAct n cause
  let s := s.putWdgRec n r
  let s := if s.onProof n then s.modPlt n fun x =>
      { x with firstExpiry := match x.firstExpiry with | some t => some t | none => some s.now } else s
  let s := (s.modWdg n fun w => { w with step := BitVec.ofNat 3 a.code }).wdgStop n
  (s.raise 0x0204 n.1 [cause.code, r.consec.toNat, a.code]).log 0x0030 n.1 [2, cause.code, r.consec.toNat, a.code]

/-- A WDG_TOKEN or WDG_EXTEND write reaches a watchdog that counts; a frozen or stopped one discards it (R144, R168). -/
def State.watching (s : State) (n : Fin 128) : Bool := (s.wd n).counting && (s.wd n).frozen.isNone

/-- The device time of the tick edge at which c reaches CLOSE_EFF (R145, R148). -/
def State.wdgDue (s : State) (w : Wdg) : Nat :=
  let left := w.closeEff * 2 ^ w.prescale.toNat - w.base
  1000 * w.ref + (if s.onLpo w then ceilDiv (left * 1000000000) (Config.lpoRate w.ref) else 1000 * left)

/-- The other channels of channel n's restart line whose windows close on this edge too, or have closed (R157). -/
def State.coExpiring (s : State) (n : Fin 128) : List (Fin 128) :=
  let p := s.profOf n
  (List.finRange 128).filter fun k =>
    k ≠ n && p.rgrpEn && (s.profOf k).rgrpEn && (s.profOf k).rgrp = p.rgrp && (s.wd k).armed && s.watching k && !s.dev.clockHeld &&
    s.wdgDue (s.wd k) ≤ s.now

/-- An expiry (R156). Where it asks for its line's sequence, which would hold the line's other channels, their expiries on the same edge
count too (R157); the actions that do not ask for the line come first. DEDUCED (notes/assumptions/89.md). -/
def State.expire (s : State) (n : Fin 128) (cause : ExpCause) : State :=
  let a := s.expiryAct n cause
  let others := if a.cycles then (s.coExpiring n).map fun k => (k, s.expiryAct k .close) else []
  let s := s.noteExpiry n cause
  let s := s.forAll others fun x s => s.noteExpiry x.1 .close
  let s := s.forAll (others.filter fun x => !x.2.cycles) fun x s => s.takeAction x.1 x.2
  let s := s.takeAction n a
  s.forAll (others.filter fun x => x.2.cycles) fun x s => s.takeAction x.1 x.2

/-! ## Services and extensions (R148, R152, R153) -/

/-- c at the sample edge: the next tick edge (log entry 9). -/
def State.sampleCount (s : State) (n : Fin 128) : Nat :=
  let w := s.wd n
  (w.base + s.wdgRun w + (if 1000 * w.ref ≤ s.now then 1 else 0)) / 2 ^ w.prescale.toNat

/-- A violation of a kind: 2 EARLY, 3 BAD_TOKEN (R152). -/
def State.violation (s : State) (n : Fin 128) (early : Bool) : State :=
  let s := s.modWdg n fun w =>
    { w with viols := satInc w.viols, last := if early then 2 else 3,
             vEarly := if early then satInc w.vEarly else w.vEarly, vBad := if early then w.vBad else satInc w.vBad }
  let w := s.wd n
  let s := (s.raise 0x0202 n.1 [if early then 2 else 3, w.viols.toNat]).summary 0x0031 n.1
  if !w.counted || w.violN.toNat ≤ w.viols.toNat then s.expire n (if early then .early else .badToken) else s

/-- A service, judged at its sample edge in the order of R148's table. -/
def State.service (s : State) (n : Fin 128) (token : DWord) : State :=
  let w := s.wd n
  let c := s.sampleCount n
  if w.closeEff ≤ c then s.expire n .close
  else if c < w.open_.toNat then s.violation n true
  else if !s.tokenOk n token then s.violation n false
  else ((s.newWindow n).publish n).modWdg n fun w => { w with last := 1 }

/-- An extension request (R153). -/
def State.extension (s : State) (n : Fin 128) (token : DWord) (units : Word) : State :=
  let w := s.wd n
  let max := (s.polOf n).wdg.extMax
  if w.closeEff ≤ s.sampleCount n then s.expire n .close
  else if !s.tokenOk n token then s.violation n false
  else if max = 0 || w.extUsed || units = 0 then
    s.modWdg n fun w => { w with last := 5, xRefused := satInc w.xRefused }
  else
    let g := min units.toNat max.toNat
    let s := (s.modWdg n fun w =>
      { w with ext := BitVec.ofNat 32 g, extUsed := true, last := 4, xGranted := satInc w.xGranted }).publish n
    (s.raise 0x0203 n.1 [g]).log 0x0030 n.1 [3, g]

end Sys2Proof.Machine
end

