-- ==== Sys2Proof/Machine/MailboxOps.lean ====
section
/-! DEFINITION. The mailbox window (R41-R50): what its bytes read as, and what a write of each field does. -/

namespace Sys2Proof.Machine

/-! ## Reads (R42, R43) -/

/-- CH_INFO. -/
def State.chInfo (s : State) (n : Fin 128) : Nat :=
  pack [(0, n.1), (8, (s.vfLog2? n).getD 0), (16, bval (s.profOf n).isLocal), (17, bval (s.wd n).armed), (18, bval (s.wd n).keyed),
    (19, bval !(s.ch n).pins.isEmpty), (24, s.advDummy n (s.port n).crIo.toNat), (32, (s.st n).tbl.mbxBase)]

/-- CH_STATE. -/
def State.chStateWord (s : State) (n : Fin 128) : Nat :=
  pack [(0, (s.st n).phase.code), (4, s.plateField n 0xF), (8, s.proofField n), (16, (s.st n).epoch.toNat % 2 ^ 16),
    (32, s.proofLeft n % 2 ^ 32)]


/-- WDG_STATUS. -/
def State.wdgStatus (s : State) (n : Fin 128) : Nat :=
  let w := s.wd n
  pack [(0, w.last.toNat), (8, w.viols.toNat), (32, if w.state = 2 then w.closeEff - s.wdgCount n else 0)]

/-- A readable field below 0x1000: offset, size, value. -/
def State.mbxFields (s : State) (n : Fin 128) : List (Nat × Nat × Nat) :=
  let b := s.mb n
  let w := s.wd n
  let rev2 := fun v => if b.rev = 2 then v else 0
  [(0x00, 4, b.rev.toNat + 0x300), (0x08, 8, s.chInfo n), (0x10, 8, s.chStateWord n), (0x18, 8, rev2 s.now), (0x20, 4, rev2 (s.boundSvn n)),
   (0x28, 8, b.updWord), (0x40, 8, if w.armed then w.chal.toNat else 0), (0x48, 8, if w.armed then w.seq.toNat else 0),
   (0x70, 8, rev2 (s.wdgStatus n)), (0x80, 8, if s.onProof n then (s.pl n).challenge.toNat else 0)]

/-- The Tracing summary at 0x2000. -/
def State.mbxSummary (s : State) (n : Fin 128) : List Byte :=
  let r := (s.wd n).shown
  let mis := match s.boundTo n with | some i => (s.dirE i).patmis.toNat | none => 0
  leBytes 8 s.now ++ leBytes 4 (s.ch n).tagTotal.toNat ++ leBytes 4 mis ++ leBytes 4 r.total.toNat ++
  leBytes 4 (pack [(0, r.consec.toNat), (8, r.cause.toNat)]) ++ leBytes 8 r.time.toNat ++ List.replicate 32 0 ++
  (s.mb n).meas.toList.flatMap fun d => d.toList

/-- The byte at an offset of the mailbox, at one moment (R42): write-only fields and unused offsets read as zero. -/
def State.mbxByte (s : State) (n : Fin 128) (off : Nat) : Byte :=
  let b := s.mb n
  if off < 0x1000 then
    match (s.mbxFields n).find? fun f => f.1 ≤ off && off < f.1 + f.2.1 with
    | some f => BitVec.ofNat 8 (f.2.2 >>> (8 * (off - f.1)))
    | none => 0
  else if off < 0x1040 then if b.cdiTaken then 0 else b.cdi.getD (off - 0x1000) 0
  else if off < 0x1840 then (leBytes 4 b.cert.length ++ b.cert).getD (off - 0x1040) 0
  else if off < 0x2000 then 0
  else if off < 0x21C0 then (s.mbxSummary n).getD (off - 0x2000) 0
  else if off < 0xC000 then 0
  else (leBytes 4 b.m2hLen.toNat ++ leBytes 4 b.m2hSeq.toNat ++ leBytes 4 b.h2mAck.toNat ++ leBytes 4 0 ++ b.m2hData).getD (off - 0xC000) 0

/-! ## Field writes: each answers the state and whether the field was ignored (R41) -/

/-- MBX_SELECT (R44). -/
def State.mbxSelectW (s : State) (n : Fin 128) (v : Nat) : State × Bool :=
  if v % 256 = 1 ∨ v % 256 = 2 then (s.modMbx n fun b => { b with rev := BitVec.ofNat 8 v }, false) else (s, true)

/-- WDG_TOKEN (R148, R149): no effect on an unarmed watchdog; discarded while it does not count. -/
def State.wdgTokenW (s : State) (n : Fin 128) (v : Nat) : State × Bool :=
  if !(s.wd n).armed then (s, true)
  else if s.watching n then (s.service n (BitVec.ofNat 64 v), false) else (s, false)

/-- WDG_EXTEND (R153): token in bytes 0-7, units in bytes 8-11. -/
def State.wdgExtendW (s : State) (n : Fin 128) (v : Nat) : State × Bool :=
  if !(s.wd n).armed then (s, true)
  else if s.watching n then (s.extension n (BitVec.ofNat 64 v) (BitVec.ofNat 32 (v >>> 64)), false) else (s, false)

/-- Judge a PROOF_ACCEPT of a device time (R45, R117). -/
def State.proofAcceptAt (s : State) (n : Fin 128) (time : Nat) (v : DWord) : State × Bool :=
  if s.acceptOk n time v then (s.judgeAccept n time v, false) else (s, true)

/-- BOOT_DONE (R45, R46). -/
def State.bootDoneW (s : State) (n : Fin 128) (v : Nat) : State × Bool :=
  if v = 1 then
    let s := s.modMbx n fun b => { b with bootDone := true }
    (if (s.st n).phase = .boot then s.setPhase n .run else s, false)
  else (s, true)

/-- The plate that the host session holds (R50). -/
def State.sessionPlate (s : State) (n : Fin 128) : Option PlateId :=
  let b := s.mb n
  if b.session = 1 ∨ b.session = 2 then plateOf b.updPlate.toNat else none

/-- A manager is staging the plate. -/
def Staging.managed (x : Staging) : Bool :=
  match x.claim with
  | some (.manager _) => true
  | _ => false

/-- UPD_OPEN (R49, R112, R162): the status of an open for plate p. `inRun`: the phase was RUN at the device time of the write. A phase
that is no longer RUN when the write is processed refuses it too (R53 has no other way into UPDATE; log entry 92). -/
def State.openStatus (s : State) (n : Fin 128) (p : PlateId) (inRun : Bool) : Status :=
  let x := ((s.plates n).get p).state
  if !inRun || (s.st n).phase ≠ .run || s.onProof n || !(s.polOf n).hostUpd.getLsbD p.code || x = .active || x = .proof || s.fallback ||
     (s.st n).tbl.stagingWin.isNone || (p = .recov && (s.polOf n).plate.srcRec = 0) then stNotPermitted
  else if ((s.pl n).staging.get p).managed then stBusy
  else stSuccess

/-- UPD_OPEN: a plate number outside 0 to 2 is a value the field does not accept. -/
def State.updOpenAt (s : State) (n : Fin 128) (inRun : Bool) (v : DWord) : State × Bool :=
  match plateOf (v.toNat % 256) with
  | none => (s, true)
  | some p =>
    let st := s.openStatus n p inRun
    let s := s.modMbx n fun b => { b with updPlate := BitVec.ofNat 8 p.code, updLen := BitVec.ofNat 32 (v.toNat >>> 32), updLeaves := 0 }
    if st = stSuccess then ((s.setSession n 1 stSuccess).setPhase n .update, false) else (s.endSession n st, false)

/-- UPD_COMMIT of an OPEN session (R49, R112): VERIFYING; the named plate is committed STAGING with PFLAGS.HOST. -/
def State.updCommitNow (s : State) (n : Fin 128) : State × Bool :=
  match s.sessionPlate n, decide ((s.mb n).session = 1) with
  | some p, true =>
    if s.inhibited then (s.endSession n stWriteInhibited, false)
    else if s.seqFull n then (s.endSession n stResourceExhausted, false)
    else
      let s := s.setSession n 2 stSuccess
      let s := s.modPlt n fun x => { x with staging := x.staging.set p { Staging.reset with claim := some .hostSession } }
      let s := s.commitTable n ((s.plates n).set p ((s.polOf n).plate.stagingEntry p true)) pcStaging
      (if ((s.plates n).get p).src = 2 then s.localWrite n true 0 else s, false)
  | _, _ => (s, true)

/-- UPD_ABORT (R49): the session ends in FAILED with ABORTED. -/
def State.updAbortNow (s : State) (n : Fin 128) : State × Bool :=
  if (s.mb n).session = 1 ∨ (s.mb n).session = 2 then
    let s := match s.sessionPlate n with
      | some p => s.modPlt n fun x => { x with staging := x.staging.set p { x.staging.get p with claim := none } }
      | none => s
    (s.endSession n stAborted, false)
  else (s, true)

/-- The write of SEQ posts a message (R48). -/
def State.postMessageAt (s : State) (n : Fin 128) (time : Nat) (seq : Word) (bytes : List Byte) : State × Bool :=
  let b := s.mb n
  if seq = b.h2mSeq + 1 ∧ b.h2mAck = b.h2mSeq then
    let s := s.modMbx n fun b => { b with h2mSeq := seq, posted := some { seq := seq, time := time, bytes := bytes } }
    (s.raise 0x0104 n.1 [seq.toNat, bytes.length], false)
  else (s, true)

/-- The payload that the host has written, LEN bytes long. -/
def Mailbox.h2mBytes (b : Mailbox) : List Byte :=
  (List.range b.h2mLen.toNat).map fun i => (SMap.get? b.h2mData i).getD 0

/-- The phase is RUN. -/
def State.inRun (s : State) (n : Fin 128) : Bool := (s.st n).phase = .run

/-- Latch a field that needs the control cluster with its device time (R18). -/
def State.latch (s : State) (n : Fin 128) (x : LatchedAct) : State × Bool :=
  let r := s.inRun n
  (s.modMbx n fun b => { b with latched := b.latched ++ [{ time := s.now, inRun := r, counted := false, acts := [x] }] }, false)

/-- The device acts on one whole field, or ignores it. While the control cluster is absent, the fields that need it are
latched with their device time. -/
def State.fieldWrite (s : State) (n : Fin 128) (off v : Nat) : State × Bool :=
  let absent := s.dev.ccAbsent
  match off with
  | 0x0004 => s.mbxSelectW n v
  | 0x0050 => s.wdgTokenW n v
  | 0x0058 => s.wdgExtendW n v
  | 0x0088 => if absent then s.latch n (.proofAccept (BitVec.ofNat 64 v)) else s.proofAcceptAt n s.now (BitVec.ofNat 64 v)
  | 0x0100 => s.bootDoneW n v
  | 0x0200 => if absent then s.latch n (.updOpen (BitVec.ofNat 64 v)) else s.updOpenAt n (s.inRun n) (BitVec.ofNat 64 v)
  | 0x0210 => if v ≠ 1 then (s, true) else if absent then s.latch n .updCommit else s.updCommitNow n
  | 0x0220 => if v ≠ 1 then (s, true) else if absent then s.latch n .updAbort else s.updAbortNow n
  | 0x8000 => if v ≤ 16368 then (s.modMbx n fun b => { b with h2mLen := BitVec.ofNat 32 v }, false) else (s, true)
  | 0x8004 =>
    let bytes := (s.mb n).h2mBytes
    if absent then s.latch n (.hostMessage (BitVec.ofNat 32 v) bytes) else s.postMessageAt n s.now (BitVec.ofNat 32 v) bytes
  | 0x8008 => (s.modMbx n fun b => { b with m2hAck := BitVec.ofNat 32 v }, false)
  | _ => (s, true)

/-- The writable fields with more than one byte, by offset. -/
def mbxWriteFields : List (Nat × Nat) :=
  [(0x0004, 4), (0x0050, 8), (0x0058, 16), (0x0088, 8), (0x0100, 4), (0x0200, 8), (0x0210, 4), (0x0220, 4), (0x8000, 4), (0x8004, 4),
   (0x8008, 4)]

/-- Count one ignored mailbox write. -/
def State.mbxIgnored (s : State) (n : Fin 128) : State := s.modPort n fun p => { p with ignored := satInc p.ignored }

/-- The fields latched by one PAGE PROGRAM, from position `pre` on, as one entry: `counted` if the program has been counted (R41). -/
def Mailbox.joinLatched (b : Mailbox) (pre : Nat) (counted : Bool) : Mailbox :=
  match b.latched.drop pre with
  | [] => b
  | x :: xs => { b with latched := b.latched.take pre ++ [{ x with counted := counted, acts := (x :: xs).flatMap fun y => y.acts }] }

/-- A PAGE PROGRAM of the bytes `w` (offset, value) into the mailbox (R41): payload bytes are stored, then the fields act in
ascending order of offset, each only if every byte of it was written; one count if anything was ignored. -/
def State.mbxProgram (s : State) (n : Fin 128) (w : List (Nat × Byte)) : State :=
  let pre := (s.mb n).latched.length
  let val := fun off => (w.find? fun x => x.1 = off).map fun x => x.2
  let inBox := fun off => 0x8010 ≤ off && off < 0xC000
  let known := fun off => inBox off || (0x800C ≤ off && off < 0x8010) || mbxWriteFields.any fun f => f.1 ≤ off && off < f.1 + f.2
  let s := s.modMbx n fun b =>
    { b with h2mData := w.foldl (fun m x => if inBox x.1 then SMap.put m (x.1 - 0x8010) x.2 else m) b.h2mData }
  let r := mbxWriteFields.foldl (fun (a : State × Bool) f =>
    let bs := (List.range f.2).map fun i => val (f.1 + i)
    if bs.all Option.isSome then
      let q := a.1.fieldWrite n f.1 (ofLe (bs.map fun x => x.getD 0))
      (q.1, a.2 || q.2)
    else (a.1, a.2 || bs.any Option.isSome)) (s, w.any fun x => !known x.1)
  let s := r.1.modMbx n fun b => b.joinLatched pre r.2
  if r.2 then s.mbxIgnored n else s

/-- One latched field acts, judged at its latched time (R17, R18, R49). -/
def State.latchedAct (s : State) (n : Fin 128) (x : Latched) : LatchedAct → State × Bool
  | .proofAccept v => s.proofAcceptAt n x.time v
  | .updOpen v => s.updOpenAt n x.inRun v
  | .updCommit => s.updCommitNow n
  | .updAbort => s.updAbortNow n
  | .hostMessage q bs => s.postMessageAt n x.time q bs

/-- Process the latched fields of one PAGE PROGRAM; the program is counted once if anything of it is ignored (R41). -/
def State.processLatched (s : State) (n : Fin 128) (x : Latched) : State :=
  let r := x.acts.foldl (fun (a : State × Bool) f => let q := a.1.latchedAct n x f; (q.1, a.2 || q.2)) (s, false)
  if r.2 && !x.counted then r.1.mbxIgnored n else r.1

end Sys2Proof.Machine
end

