-- ==== Sys2Proof/Machine/Sfdp.lean ====
section
/-! DEFINITION. The identity that a channel shows its host: the generated SFDP space (R33), the JEDEC ID (R32), and what of
both stands from a release to the next hold (R34). -/

namespace Sys2Proof.Machine

/-! ## DWORDs with stated and open fields -/

/-- A word with a value in its bits [hi:lo]; a value that the field cannot express leaves the field's largest value (R33). -/
def putField (w hi lo v : Nat) : Nat := w - field w hi lo <<< lo + (min v (2 ^ (hi + 1 - lo) - 1)) <<< lo

/-- DWORD i (from 1) of table k: the stated fields (highest bit, lowest bit, value) over what the spec does not state. -/
def sfdpDword (loc : List Byte) (k i : Nat) (fs : List (Nat × Nat × Nat)) : Nat :=
  fs.foldl (fun w f => putField w f.1 f.2.1 f.2.2) (Config.sfdpWord loc k i).toNat

/-- DWORDs from i on of which nothing is stated. -/
def sfdpOpen (loc : List Byte) (k i n : Nat) : List Nat := (List.range n).map fun j => (Config.sfdpWord loc k (i + j)).toNat

/-! ## The tables (R33). Places of the fields in the first three: JESD216 (PRESUMED, log entry 28) -/

/-- The density DWORD: bits less one up to 2 Gbit, from 4 Gbit on the exponent with bit 31. -/
def sfdpDensity (log2 : Nat) : Nat := if log2 + 3 ≤ 31 then 2 ^ (log2 + 3) - 1 else 2 ^ 31 + (log2 + 3)

/-- Basic Flash Parameter Table: `dummy` is the Extended SPI default, given as wait states with no mode clocks. -/
def sfdpBasic (loc : List Byte) (log2 dummy : Nat) : List Nat :=
  let d := sfdpDword loc 0
  [d 1 [(1, 0, 1), (15, 8, 0x20), (16, 16, 0), (18, 17, 1), (20, 20, 0), (21, 21, 1), (22, 22, 1)],
   sfdpDensity log2,
   d 3 [(4, 0, dummy), (7, 5, 0), (15, 8, 0xEB), (20, 16, dummy), (23, 21, 0), (31, 24, 0x6B)],
   d 4 [],
   d 5 [(0, 0, 0), (4, 4, 1)],
   d 6 [],
   d 7 [(20, 16, dummy), (23, 21, 0), (31, 24, 0xEB)],
   d 8 [(7, 0, 12), (15, 8, 0x20), (23, 16, 16), (31, 24, 0xD8)],
   d 9 [(7, 0, 0), (23, 16, 0)],
   d 10 [],
   d 11 [(7, 4, 8)],
   d 12 [], d 13 [], d 14 [], d 15 [],
   d 16 [(12, 12, 1), (24, 24, 1)]] ++ sfdpOpen loc 0 17 (Config.sfdpExtra loc 0).1

/-- 4-Byte Address Instruction Table: 0x0C, 0x6C, 0xEC, 0x12 and the two erases. -/
def sfdpFourByte : List Nat :=
  [pack [(1, 1), (4, 1), (5, 1), (6, 1), (9, 1), (10, 1)], pack [(0, 0x21), (8, 0xDC)]]

/-- xSPI Profile 1.0: 0xEE, status with four address bytes and eight dummy cycles, and the dummy counts at 200, 166, 133 and 100 MHz. -/
def sfdpXspi (loc : List Byte) (counts : List Nat) : List Nat :=
  let d := sfdpDword loc 2
  let c := fun i => counts.getD i 0
  [d 1 [(15, 8, 0xEE), (28, 28, 1), (29, 29, 1)], d 2 [], d 3 [], d 4 [(11, 7, c 0)], d 5 [(31, 27, c 1), (21, 17, c 2), (11, 7, c 3)]] ++
  sfdpOpen loc 2 6 (Config.sfdpExtra loc 2).1

/-! ## The space: header, parameter headers, tables -/

/-- One parameter header: ID, length in DWORDs, pointer. -/
def sfdpHeader (loc : List Byte) (k id len ptr : Nat) : List Byte :=
  [BitVec.ofNat 8 id, Config.sfdpRev loc (2 * k), Config.sfdpRev loc (2 * k + 1), BitVec.ofNat 8 len] ++ leBytes 3 ptr ++
  [BitVec.ofNat 8 (id / 256)]

/-- Bytes between tables that the spec does not give. -/
def sfdpGap (loc : List Byte) (k : Nat) : List Byte := (List.range (4 * (Config.sfdpGap loc k).1)).map (Config.sfdpFill loc k)

/-- Tables from position `at_` on in header order (DEDUCED, log entry 28): the parameter headers and the bytes. -/
def sfdpLay (loc : List Byte) : Nat → Nat → List (Nat × List Nat) → List Byte × List Byte
  | _, _, [] => ([], [])
  | k, at_, (id, t) :: ts =>
    let g := sfdpGap loc k
    let r := sfdpLay loc (k + 1) (at_ + g.length + 4 * t.length) ts
    (sfdpHeader loc k id t.length (at_ + g.length) ++ r.1, g ++ t.flatMap (leBytes 4) ++ r.2)

/-- The generated space: `loc`, the local flash's own SFDP, from which the generation starts with local-flash backing. -/
def sfdpSpace (loc : List Byte) (log2 dummy : Nat) (counts vendor : List Nat) : List Byte :=
  let r := sfdpLay loc 0 40 [(0xFF00, sfdpBasic loc log2 dummy), (0xFF84, sfdpFourByte), (0xFF05, sfdpXspi loc counts),
    (256 * Config.sfdpVendorMsb.toNat + 0x9B, vendor)]
  leBytes 4 0x50444653 ++ [Config.sfdpRev loc 8, Config.sfdpRev loc 9, 3, Config.sfdpRev loc 10] ++ r.1 ++ r.2

/-! ## A channel's identity (R31-R34) -/

/-- The Larmany vendor table's DWORDs (R33). DWORD 4 has one SDR default for three protocols, which a PASS window may set apart: the
largest of the three (DESIGN CHOICE, log entry 90). -/
def State.vendorTable (s : State) (n : Fin 128) : List Nat :=
  let pins := (s.ch n).pins
  let t := (s.st n).tbl
  let t0 := fun v => if pins.isEmpty then 0 else v
  let need := s.needDummy n
  [pack [(0, 1), (8, 3)], t.mbxBase, pack [(0, 32), (8, 18), (16, t0 8), (24, t0 5)],
   pack [(0, if t.has 2 then s.localDummy n + 6 else 0), (8, need 3), (16, max (need 0) (max (need 1) (need 2))), (24, pins.length)]] ++
  (List.range 8).map fun i => match pins[i]? with
    | some r => pack [(0, r.1), (18, r.2)]
    | none => 0

/-- The dummy counts of Octal DDR at 200, 166, 133 and 100 MHz (R35): T1, and T2 where the channel has a PASS window in it. -/
def State.ddrCounts (s : State) (n : Fin 128) : List Nat :=
  let t2 := if (s.st n).tbl.has 2 && s.passProto n = 3 then s.localDummy n + 6 else 0
  [26, 22, 18, 13].map (max t2)

/-- JEDEC bytes completed with zeros to 20 (R32). -/
def State.liveJedec (s : State) (n : Fin 128) : List Byte :=
  let p := s.profOf n
  let bs := if p.idOverride then p.jedec
    else if p.isLocal then match portOf n with | some f => (s.fp f).id | none => []
    else [0x7F, 0x7F, 0x7F, 0x7F, 0x9B, 0x6B, BitVec.ofNat 8 ((s.liveLog2? n).getD 0)]
  (bs ++ List.replicate 20 0).take 20

/-- The identity as the profile, the table and the port in force give it now. -/
def State.liveIdent (s : State) (n : Fin 128) : Ident :=
  let loc := match portOf n with | some f => if (s.profOf n).isLocal then (s.fp f).sfdp else [] | none => []
  { log2 := s.liveLog2? n, jedec := s.liveJedec n, dummies := (List.range 4).map (s.needDummy n),
    sfdp := sfdpSpace loc ((s.liveLog2? n).getD 0) (s.needDummy n 0) (s.ddrCounts n) (s.vendorTable n) }

/-- The identity that the host reads: that of its release (R34). -/
def State.identOf (s : State) (n : Fin 128) : Ident := (s.port n).ident.getD (s.liveIdent n)

/-- READ SFDP's space: 0xFF beyond its end. -/
def State.sfdpBytes (s : State) (n : Fin 128) (addr len : Nat) : List Byte :=
  let space := (s.identOf n).sfdp
  (List.range len).map fun i => space.getD (addr + i) 0xFF

end Sys2Proof.Machine
end

