-- ==== Sys2Proof/Machine/HostOps.lean ====
section
/-! DEFINITION. How a host command is decoded, decided (R55-R59, R339) and served: reads and bursts (R36, R37, R92, R93),
programs and erases (R28-R30, R60, R95, R75), and the commands without an array address (R25-R33, R40). -/

namespace Sys2Proof.Machine

/-- A host command as it arrives: opcode, address as sent, bytes clocked out, data in, SCK period in 0.25 ns, what the
local flash would drive, the index of the line of the burst whose tag fails, if one does, and whether CS# is still low
after these bytes. -/
structure HostCmd where
  op : Nat
  addr : Nat
  len : Nat
  data : List Byte
  period : Nat
  localData : List Byte
  upset : Option Nat
  csLow : Bool
  deriving DecidableEq, Repr

/-- A command without address or data. -/
def HostCmd.bare (op : Nat) : HostCmd :=
  { op := op, addr := 0, len := 0, data := [], period := 0, localData := [], upset := none, csLow := false }

/-! ## Counters and replies -/

/-- The DQ lines of a command's data phase by opcode and protocol (R23): four in the 1S-1S-4S and 1S-4S-4S forms and in Quad, eight in
both Octal protocols, and one, DQ1, in the rest of Extended SPI (PRESUMED, log entry 16). -/
def dataLines (op io : Nat) : Byte :=
  match io with
  | 0 => if [0x6B, 0x6C, 0xEB, 0xEC].contains op then 0x0F else 0x02
  | 1 => 0x0F
  | _ => 0xFF

/-- The data phase of opcode `op` delivers these bytes on its lines, with CHn_DQS in Octal DDR (R23). -/
def State.reply (s : State) (n : Fin 128) (op : Nat) (bs : List Byte) : State :=
  s.modPort n fun p =>
    { p with reply := bs, driven := if bs.isEmpty then 0 else dataLines op p.crIo.toNat, dqsDriven := !bs.isEmpty && p.crIo = 3 }

/-- CS# of the last command has risen: every line is at high impedance, and no burst of an earlier epoch goes on; a program or erase that
was forwarded still may (R23, R67). -/
def State.csRise (s : State) (n : Fin 128) : State :=
  let fwd := match (s.port n).op with | some (.forwarded _) => true | _ => false
  (s.modPort n fun p => { p with reply := [], driven := 0, dqsDriven := false, burstOpen := false }).modStn n
    fun t => { t with oldCmd := t.oldCmd && fwd }

/-- Ignored opcodes and commands ignored while WIP = 1 (CHn_MBX_ERRS). -/
def State.undecoded (s : State) (n : Fin 128) : State :=
  s.modPort n fun p => { p with undecoded := satInc p.undecoded }

/-! ## Refusals (R59) -/

def Reason.code : Reason → Nat
  | .rule => 1 | .window => 2 | .permission => 3 | .bucket => 4 | .supply => 5 | .pass => 6 | .span => 7

/-- The rows of R59's table. -/
inductive RefClass where
  | out
  | change (erase : Bool)
  | other
  deriving DecidableEq, Repr

/-- The row of an opcode by its own class. The spec names no row for a DENY rule on an opcode outside the host command set, nor for
ENTER and EXIT 4-BYTE ADDRESS, nor (judgeCmd) for an ALLOW frame of class READ with DIR 0 or 1: the third row, ignored and counted in
RULE_DENY (DESIGN CHOICE, log entry 90). -/
def refClass (op : Nat) : RefClass :=
  match arrayClass op with
  | .read => .out
  | .program => .change false
  | .erase _ | .chip => .change true
  | .none => if [0x5A, 0x9F, 0x05, 0x70, 0x65].contains op then .out else .other

/-- Record a refusal: LASTDENY, LASTADDR, its counter, STENCIL_DENY and the summary. `win` none reads as 31. -/
def State.denied (s : State) (n : Fin 128) (op : Nat) (addr : Nat) (win : Option (Fin 32)) (r : Reason) (cls : RefClass) : State :=
  let io := (s.port n).crIo.toNat
  let s := s.modStn n fun t =>
    { t with
      lastDeny := BitVec.ofNat 32 (pack [(0, op), (8, (win.map fun w => w.1).getD 31), (13, r.code), (16, t.phase.code), (18, io),
        (20, t.epoch.toNat % 4096)])
      lastAddr := BitVec.ofNat 32 addr
      deniedRead := if cls = .out ∧ r ≠ .pass then satInc t.deniedRead else t.deniedRead
      passOther := if cls = .out ∧ r = .pass then satInc t.passOther else t.passOther
      supplyCnt := if (cls = .change true ∨ cls = .change false) ∧ r = .supply then satInc t.supplyCnt else t.supplyCnt
      bucketCnt := if (cls = .change true ∨ cls = .change false) ∧ r = .bucket then satInc t.bucketCnt else t.bucketCnt
      protectedCnt := if (cls = .change true ∨ cls = .change false) ∧ r ≠ .supply ∧ r ≠ .bucket then satInc t.protectedCnt
        else t.protectedCnt
      ruleDeny := if cls = .other then satInc t.ruleDeny else t.ruleDeny }
  (s.raise 0x0102 n.1 [(s.st n).lastDeny.toNat, addr]).summary 0x0022 n.1

/-- How the refusal appears (R59, R28): 0xFF, WIP and a fail flag, or nothing. `op`: the opcode whose frame the command is decoded with;
`wel`: the command was write-enabled. -/
def State.refuse (s : State) (n : Fin 128) (c : HostCmd) (op addr : Nat) (win : Option (Fin 32)) (r : Reason) (cls : RefClass) (wel : Bool) :
    State :=
  let s := s.denied n c.op addr win r cls
  match cls with
  | .out => s.reply n op (ones c.len)
  | .change erase => if wel then s.modPort n fun p => { p with op := some (.refused erase (r = .supply)) } else s
  | .other => s

/-! ## Tag failures (R92, R93) -/

/-- Count a channel's tag failure of now and act on the limit. -/
def State.tagFailure (s : State) (n : Fin 128) (dir line : Nat) : State :=
  let s := s.modCtl n fun c =>
    { c with tagTotal := satInc c.tagTotal, tagFails := (c.tagFails.filter fun t => s.now < t + 86400 * second) ++ [s.now] }
  let s := { s with imm := { s.imm with tagFail := satInc s.imm.tagFail } }
  let s := (s.raise 0x0301 n.1 [dir, line]).summary 0x0021 n.1
  let k := (s.ch n).tagFails.length
  if s.imm.tfLimit.toNat ≠ 0 ∧ k = s.imm.tfLimit.toNat then
    let s := s.raise 0x0302 n.1 [k]
    if s.imm.tfAction && (s.ch n).state.live then s.hold n .tagLimit .tagLimit none else s
  else s

/-! ## Bursts (R37, R42, R52, R92) -/

/-- What one byte of a burst meets. -/
inductive BCell where
  | byte (b : Byte)
  /-- a DENY, unreadable or PASS window: the burst ends there -/
  | boundary
  /-- an impression line that fails its tag: entry, line -/
  | tag (entry line : Nat)
  /-- an impression line lost with its memory channel -/
  | lost
  | keepTag (off : Nat)
  | scratchTag (off : Nat)
  deriving DecidableEq, Repr

/-- Offset of an address in the area that window w maps. -/
def STable.mapOff (t : STable) (w : Fin 32) (a : Nat) : Nat := t.map w * 4096 + (a - t.base w * 4096)

/-- The byte of an impression at an offset, or its line's failure: a line lost with its memory channel that neither a pin bank nor the
cache holds (R104), or a tag that fails (R87, R92). -/
def State.impCell (s : State) (n : Fin 128) (off : Nat) (upset : Bool) : BCell :=
  match s.boundTo n with
  | none => .byte 0xFF
  | some i =>
    let e := s.dirE i
    if e.leaves.toNat * 4096 ≤ off then .byte 0xFF
    else if e.lost && !s.inFront i.1 (off / 64) then .lost
    else if upset || e.badLeaves.contains (off / 4096) || (!e.lost && s.staleLeaf e (off / 4096)) then .tag i.1 (off / 64)
    else .byte (e.bytes.read off)

/-- The byte at an address under the table and phase of the decision; `upset`: its line fails its tag check. -/
def State.burstCell (s : State) (n : Fin 128) (a : Nat) (upset : Bool) : BCell :=
  let t := (s.st n).tbl
  match t.windowAt a with
  | none => .boundary
  | some w =>
    let off := t.mapOff w a
    if !t.perm w (s.st n).phase.code 0 then .boundary
    else match t.treat w with
      | 1 => s.impCell n off upset
      | 3 => if upset then .keepTag off else .byte ((s.area n).keep.read off)
      | 4 => if upset then .scratchTag off else .byte ((s.area n).scratch.read off)
      | 5 => .byte (s.mbxByte n (a - t.base w * 4096))
      | _ => .boundary

/-- The bytes of a burst from address a until its end, or until what stops it. Line k counts from the line of a. -/
def State.burst (s : State) (n : Fin 128) (a0 size : Nat) (upset : Option Nat) : Nat → Nat → List Byte × Option BCell
  | 0, _ => ([], none)
  | fuel + 1, a =>
    match s.burstCell n (a % size) (upset = some (a / 64 - a0 / 64)) with
    | .byte b =>
      let r := State.burst s n a0 size upset fuel (a + 1)
      (b :: r.1, r.2)
    | c => ([], some c)


/-- The impression line of window w at address x, where the impression reaches it. -/
def State.lineIn (s : State) (n : Fin 128) (x : Nat) : Option (Nat × Nat) :=
  let t := (s.st n).tbl
  match s.boundTo n, t.windowAt x with
  | some i, some w => if t.treat w = 1 ∧ t.mapOff w x < (s.dirE i).leaves.toNat * 4096 then some (i.1, t.mapOff w x / 64) else none
  | _, _ => none

/-- The impression lines that a burst delivers, in order. -/
def State.burstLines (s : State) (n : Fin 128) (a size len : Nat) : List (Nat × Nat) :=
  (List.range len).filterMap fun k =>
    let x := (a + k) % size
    if k = 0 ∨ x % 64 = 0 then s.lineIn n x else none

/-- The line that the channel has prefetched at the end of a burst of impression lines (R37, R91): the next one, where image memory or the
front cache delivers it. -/
def State.nextLine (s : State) (n : Fin 128) (a size len : Nat) : Option (Nat × Nat) :=
  let x := ((a + (len - 1)) / 64 + 1) * 64 % size
  match s.lineIn n ((a + (len - 1)) % size), s.burstCell n x false with
  | some _, .byte _ => if len = 0 then none else s.lineIn n x
  | _, _ => none

/-- A delivered burst contains a CDI byte (R47). -/
def State.burstCdi (s : State) (n : Fin 128) (a size len : Nat) : Bool :=
  let t := (s.st n).tbl
  (List.range len).any fun k =>
    let x := (a + k) % size
    let b := t.mbxBase
    t.mailbox.isSome && b + 0x1000 ≤ x && x < b + 0x1040

/-- What stopped a burst takes its effect. -/
def State.burstStop (s : State) (n : Fin 128) (c : BCell) : State :=
  match c with
  | .boundary => s.modPort n fun p => { p with boundary := satInc p.boundary }
  | .tag i line =>
    let s := if s.pinned i line then { s with fca := { s.fca with tfailPinned := satInc s.fca.tfailPinned } }
      else if s.fca.lines.contains (i, line) then { s with fca := { s.fca with tfailCached := satInc s.fca.tfailCached } }
      else s
    s.tagFailure n i line
  | .lost => { s with imm := { s.imm with lostLine := satInc s.imm.lostLine } }
  | .keepTag off =>
    let s := s.tagFailure n 0xFFFF (off / 64)
    (s.modAreas n fun x => x.restoreBlock s.keys.keepSalt (off / 4096)).raise 0x0108 n.1 [off / 4096]
  | .scratchTag off =>
    (s.tagFailure n 0xFFFF (off / 64)).modAreas n fun x => { x with scratch := x.scratch.eraseRange (off / 4096 * 4096) 4096 }
  | .byte _ => s

/-- Serve a read by a burst from address a (R37): the bytes, then 0xFF. -/
def State.serveBurst (s : State) (n : Fin 128) (c : HostCmd) (op a : Nat) : State :=
  let size := s.vfSize n
  let r := s.burst n a size c.upset c.len a
  let k := r.1.length
  let cdi := s.burstCdi n a size k
  let lines := s.burstLines n a size k
  let next := if r.2.isNone then s.nextLine n a size k else none
  let s := s.reply n op (r.1 ++ ones (c.len - k))
  let s := s.forAll lines fun l s => s.touchLine l.1 l.2
  let s := s.forAll next.toList fun l s => s.placeLine l.1 l.2
  let s := if cdi then s.closeCdi n else s
  match r.2 with
  | some x => s.burstStop n x
  | none => s

/-! ## Short reads (R36): times in 0.25 ns -/

/-- A read with no dummy phase. -/
def noDummyOp (op : Nat) : Bool := op = 0x03 || op = 0x13

/-- The dummy time of a read: half a period for READ, else the cycles. -/
def dummyTime (op cycles period : Nat) : Nat := if noDummyOp op then period / 2 else cycles * period

/-- The bound less 1 ns of a tier: T0 31 ns, T1 127 ns. -/
def tierBound (pinned : Bool) : Nat := if pinned then 124 else 508

/-- A short read: every byte 0xFF, counted, event SHORT_READ. -/
def State.shortRead (s : State) (n : Fin 128) (op len cycles : Nat) : State :=
  let s := (s.reply n op (ones len)).modPort n fun p => { p with shortDummy := satInc p.shortDummy }
  let p := s.port n
  s.raise 0x0103 n.1 [p.period.toNat + 65536 * bval p.ddr, cycles]

/-- The first line of a read at address a of IMPRESSION window w is pinned (T0). An address beyond the end of the impression is T1
(R52). -/
def State.firstPinned (s : State) (n : Fin 128) (w : Fin 32) (a : Nat) : Bool :=
  ((s.ch n).pins.any fun r => r.1 * 4096 ≤ a && a < (r.1 + r.2) * 4096) &&
  match s.boundTo n with
  | some i => (s.st n).tbl.mapOff w a < (s.dirE i).leaves.toNat * 4096
  | none => false

/-! ## PASS (R56, R57, R74, R75) -/

/-- The port issues commands to the channel's local flash, in order. -/
def State.issue (s : State) (n : Fin 128) (cs : List LocalCmd) : State :=
  match portOf n with
  | some f => s.modFp f fun x => { x with issued := cs }
  | none => s

/-- WRITE ENABLE: the local flash's own WEL is set only by the port. -/
def LocalCmd.wren : LocalCmd := { op := 0x06, addr := none, dummy := 0, data := [] }

/-- pass_ready: no program or erase forwarded for this host is pending. -/
def State.passReady (s : State) (n : Fin 128) (period : Nat) : Bool :=
  match portOf n with
  | none => false
  | some f =>
    let x := s.fp f
    s.hostOwns n && x.state = 2 && x.passProto.toNat = (s.port n).crIo.toNat && 4000 ≤ period * x.maxMhz.toNat &&
    !(match x.localOp with | some o => o.host | none => false)

/-- The bytes of a PASS burst: the local flash's until the window ends, then 0xFF (R37). -/
def State.servePass (s : State) (n : Fin 128) (c : HostCmd) (op a : Nat) (w : Fin 32) (cs : List LocalCmd) : State :=
  let t := (s.st n).tbl
  let room := (t.base w + t.size w) * 4096 - a
  let k := min c.len room
  let s := (s.issue n cs).reply n op (slice c.localData 0 k ++ ones (c.len - k))
  if room < c.len then s.modPort n fun p => { p with boundary := satInc p.boundary } else s

/-- Forward a program or erase to the local flash (R75). -/
def State.forward (s : State) (n : Fin 128) (erase : Bool) (len : Nat) (cs : List LocalCmd) : State :=
  match portOf n with
  | none => s
  | some f =>
    let b := (s.fp f).bound erase len
    ((s.issue n cs).modFp f fun x => { x with localOp := some { erase := erase, host := true, start := s.now, bound := b } }).modPort n
      fun p => { p with op := some (.forwarded erase) }

/-! ## Token buckets (R60) -/

/-- The live bucket of a window. -/
def Stencil.bucket (t : Stencil) (w : Fin 32) (erase : Bool) : Bucket := if erase then vget t.eTok w else vget t.pTok w

/-- Its image. -/
def STable.bucketImg (t : STable) (w : Fin 32) (erase : Bool) : Word := if erase then vget t.ebkt w else vget t.pbkt w

/-- The full cost is present. -/
def Stencil.tokensFor (t : Stencil) (w : Fin 32) (erase : Bool) (cost : Nat) : Bool :=
  !bktOn (t.tbl.bucketImg w erase) || cost ≤ (t.bucket w erase).tokens.toNat

/-- Take tokens: the timer starts when the count first falls below DEPTH. -/
def Bucket.take (now depth cost : Nat) (b : Bucket) : Bucket :=
  let k := b.tokens.toNat - cost
  { tokens := BitVec.ofNat 16 k, start := match b.start with | some x => some x | none => if k < depth then some now else none }

def State.takeTokens (s : State) (n : Fin 128) (w : Fin 32) (erase : Bool) (cost : Nat) : State :=
  let img := (s.st n).tbl.bucketImg w erase
  if bktOn img then
    s.modStn n fun t =>
      if erase then { t with eTok := vmod t.eTok w (Bucket.take s.now (bktDepth img) cost) }
      else { t with pTok := vmod t.pTok w (Bucket.take s.now (bktDepth img) cost) }
  else s

/-! ## Programs and erases -/

/-- The bytes that a PAGE PROGRAM writes, by address: it wraps within its 256-byte page, and a later byte replaces an
earlier one at the same place (R29). -/
def pageCells (a : Nat) (data : List Byte) : List (Nat × Byte) :=
  let page := a / 256 * 256
  (data.zipIdx.foldl (fun m x => SMap.put m (page + (a + x.2) % 256) x.1) [])

/-- A host PAGE PROGRAM as the port issues it (R75): WRITE ENABLE and the command; one that wraps in its 256-byte page is two programs
where the local page is larger. -/
def programCmds (op a pageLog2 : Nat) (data : List Byte) : List LocalCmd :=
  let cells := pageCells a data
  let hi := (cells.filter fun x => a ≤ x.1).map fun x => x.2
  let lo := (cells.filter fun x => x.1 < a).map fun x => x.2
  let one := fun at_ bs => [LocalCmd.wren, { op := op, addr := some at_, dummy := 0, data := bs }]
  if lo.isEmpty || pageLog2 ≤ 8 then one a (hi ++ lo) else one a hi ++ one (a / 256 * 256) lo

/-- What the port issues for a program or erase of the host command set in a PASS window: `op` is TARGET of a TRANSLATE rule (R56). -/
def State.changeCmds (s : State) (n : Fin 128) (c : HostCmd) (op a : Nat) (erase : Bool) : List LocalCmd :=
  if erase then [LocalCmd.wren, { op := op, addr := some a, dummy := 0, data := [] }]
  else programCmds op a (match portOf n with | some f => (s.fp f).pageLog2.toNat | none => 8) c.data

/-- What the port issues for a command with the frame of ALLOW rule r (R57): a WRITE ENABLE where WREN = 1, the rule's DUMMY cycles, and
with DIR = in at most 256 data bytes (those beyond are not forwarded: DEDUCED, log entry 91). -/
def STable.frameCmds (t : STable) (r : Fin 64) (c : HostCmd) (hasAddr : Bool) (a : Nat) : List LocalCmd :=
  (if t.rWren r then [LocalCmd.wren] else []) ++
  [{ op := c.op, addr := if hasAddr then some a else none, dummy := t.rDummy r, data := if t.rDir r = 1 then c.data.take 256 else [] }]

/-- An accepted program or erase of the device's own stores sets WIP until PROGRAM_ERASE_DONE (R30). -/
def State.ownOp (s : State) (n : Fin 128) : State := s.modPort n fun p => { p with op := some .own }

/-- A program or erase served in window w; `cs`: what the port issues in a PASS window. -/
def State.serveChange (s : State) (n : Fin 128) (c : HostCmd) (a : Nat) (w : Fin 32) (erase : Bool) (len cost : Nat) (cs : List LocalCmd) :
    State :=
  let t := (s.st n).tbl
  let s := s.takeTokens n w erase cost
  match t.treat w with
  | 2 => s.forward n erase len cs
  | 3 =>
    let s := s.ownOp n
    if erase then s.modAreas n fun x => x.keepErase s.now (t.mapOff w (a / len * len)) len
    else s.modAreas n fun x => (pageCells a c.data).foldl (fun x d => x.keepProgram s.now (t.mapOff w d.1) [d.2]) x
  | 4 =>
    let s := s.ownOp n
    if erase then s.modAreas n fun x => { x with scratch := x.scratch.eraseRange (t.mapOff w (a / len * len)) len }
    else s.modAreas n fun x =>
      { x with scratch := (pageCells a c.data).foldl (fun m d => m.andList (t.mapOff w d.1) [d.2]) x.scratch }
  | _ => s

/-! ## Commands without an array address (R25-R33, R40) -/

/-- RDCR's value (R25). -/
def HostPort.config (p : HostPort) (addr : Nat) : Byte :=
  match addr with
  | 0 => p.crIo
  | 1 => p.crDummy
  | 2 => if p.four then 1 else 0
  | 3 => p.crDrive.zeroExtend 8
  | _ => 0

/-- WRCR's effect on the configuration registers (R25). A bit 0 written to CR_ADDR in Octal DDR, where the register always reads 1, is kept
underneath and decides the address length once the host leaves Octal DDR: the spec does not say what the register holds then (DESIGN
CHOICE, log entry 90). -/
def HostPort.setConfig (p : HostPort) (addr : Nat) (v : Byte) : HostPort :=
  match addr with
  | 0 => if v.toNat ≤ 3 then { p with crIo := v, crDummy := 0 } else p
  | 1 => if v = 0 ∨ (4 ≤ v.toNat ∧ v.toNat ≤ 40) then { p with crDummy := v } else p
  | 2 => { p with addr4 := v.getLsbD 0 }
  | 3 => { p with crDrive := v.truncate 2 }
  | _ => p

/-- The reset state of R25. -/
def HostPort.toDefaults (p : HostPort) : HostPort := { p with crIo := 0, crDummy := 0, addr4 := false, crDrive := 1 }

/-- A host reset (R40): a program or erase whose command has ended completes; commands are decoded again from `until_`. -/
def HostPort.hostReset (p : HostPort) (until_ : Option Nat) : HostPort :=
  { p.toDefaults with
    wel := false, eraseFail := false, programFail := false, supplyFail := false, protFail := false, dpd := false, resetArmed := false,
    op := match p.op with | some (.refused _ _) => none | o => o, resetEnd := until_ }

/-- Execute a host-set command that has no array address. -/
def State.executeCmd (s : State) (n : Fin 128) (op : Nat) (c : HostCmd) : State :=
  let p := s.port n
  let io := p.crIo.toNat
  match op with
  | 0x05 => s.reply n op (List.replicate c.len (s.rdsr n))
  | 0x70 => s.reply n op (List.replicate c.len (s.rdfsr n))
  | 0x50 => s.modPort n fun p => { p with eraseFail := false, programFail := false, supplyFail := false, protFail := false }
  | 0x9F => s.reply n op ((List.range c.len).map fun i => (s.identOf n).jedec.getD (i % 20) 0)
  | 0x5A =>
    let cycles := if io = 3 then s.effDummy n else 8
    if cycles * c.period < tierBound false then s.shortRead n op c.len cycles else s.reply n op (s.sfdpBytes n c.addr c.len)
  | 0x65 => s.reply n op (List.replicate c.len (p.config c.addr))
  | 0x72 => s.modPort n fun p =>
      let v := c.data.headD 0
      { (if p.wel && !c.data.isEmpty then p.setConfig c.addr v else p) with wel := false }
  | 0x06 => s.modPort n fun p => { p with wel := true }
  | 0x04 => s.modPort n fun p => { p with wel := false }
  | 0x01 => s.modPort n fun p => { p with wel := false }
  | 0xB7 => s.modPort n fun p => { p with addr4 := true }
  | 0xE9 => s.modPort n fun p => { p with addr4 := false }
  | 0x66 => s.modPort n fun p => { p with resetArmed := true }
  | 0x99 => if p.resetArmed then s.modPort n fun p => p.hostReset (some (s.now + 30 * usec)) else s
  | 0xB9 => s.modPort n fun p => { p with dpd := true }
  | 0xAB => s.modPort n fun p => { p with dpd := false }
  | _ => s

/-! ## The decision (R58) -/

/-- Judge a decoded array command of class cls (0 READ, 1 PROGRAM, 2 ERASE) in window w, and serve or refuse it. `frame`: what the port
issues for a command with the frame of an ALLOW rule, which passes to PASS windows alone. -/
def State.judgeWindow (s : State) (n : Fin 128) (op : Nat) (c : HostCmd) (a : Nat) (w : Fin 32) (cls : Nat) (rc : RefClass) (wel : Bool)
    (len cost : Nat) (frame : Option (List LocalCmd)) (gate : Bool) : State :=
  let x := s.st n
  let t := x.tbl
  let ph := x.phase.code
  let pass := t.treat w = 2
  let no := fun r => s.refuse n c op a (some w) r rc wel
  if t.treat w = 0 then no .window
  else if !t.perm w ph cls then no .permission
  else if pass && !s.passReady n c.period then no .pass
  else if cls ≠ 0 && pass && s.power.inhibit then no .supply
  else if cls ≠ 0 && !x.tokensFor w (cls = 2) cost then no .bucket
  else if cls = 0 then
    match frame with
    | some cs => if rc = .out then s.servePass n c op a w cs else s.issue n cs
    | none =>
      let cycles := s.effDummy n
      if pass then
        if noDummyOp op || cycles < s.localDummy n + 6 then s.shortRead n op c.len cycles
        else s.servePass n c op a w [{ op := op, addr := some a, dummy := s.localDummy n, data := [] }]
      else if dummyTime op cycles c.period < tierBound (t.treat w = 1 && s.firstPinned n w a) then s.shortRead n op c.len cycles
      else s.serveBurst n c op a
  else if gate then s.serveChange n c a w (cls = 2) len cost (frame.getD (s.changeCmds n c op a (cls = 2)))
  else s

/-- A command at an address of the mailbox window (R41, R42): rules never apply. -/
def State.mailboxCmd (s : State) (n : Fin 128) (c : HostCmd) (a : Nat) : State :=
  let io := (s.port n).crIo.toNat
  let wel := (s.port n).wel
  if !inHostSet c.op io then s.undecoded n
  else match arrayClass c.op with
    | .read =>
      let cycles := s.effDummy n
      if dummyTime c.op cycles c.period < tierBound false then s.shortRead n c.op c.len cycles else s.serveBurst n c c.op a
    | .program =>
      let s := s.modPort n fun p => { p with wel := false }
      if wel then
        let base := (s.st n).tbl.mbxBase
        (s.ownOp n).mbxProgram n ((pageCells a c.data).map fun x => (x.1 - base, x.2))
      else s
    | .erase _ =>
      let s := s.modPort n fun p => { p with wel := false }
      if wel then s.ownOp n else s
    | _ => s

/-- Decide a command whose address is decoded, outside the mailbox window. -/
def State.judgeCmd (s : State) (n : Fin 128) (c : HostCmd) (hasAddr : Bool) (a : Nat) : State :=
  let p := s.port n
  let io := p.crIo.toNat
  let t := (s.st n).tbl
  let ph := (s.st n).phase.code
  let range := fun op => match arrayClass op with
    | .program => t.windowOf (a / 256 * 256) 256
    | .erase k => t.windowOf (a / k * k) k
    | .chip => Where.span
    | _ => match t.windowAt a with | some w => Where.win w | none => Where.uncovered
  let winOf := fun (x : Where) => match x with | .win w => some w | _ => none
  let r := t.findRule c.op io ph (if hasAddr then .inWindow (winOf (range c.op)) else .noAddress)
  let act := (r.map fun r => t.rAction r).getD 0
  let rcOwn := refClass c.op
  let clearWel := fun (s : State) op =>
    match refClass op with
    | .change _ => s.modPort n fun p => { p with wel := false }
    | _ => if op = 0x72 || op = 0x01 then s.modPort n fun p => { p with wel := false } else s
  let ruleWin := match r with
    | some r => if hasAddr then winOf (range c.op) else fin? 32 (t.rWin r)
    | none => none
  if act = 2 then clearWel (s.refuse n c c.op (if hasAddr then a else 0) ruleWin .rule rcOwn p.wel) c.op
  else
    let op := match r with
      | some r => if act = 3 then t.rTarget r else c.op
      | none => c.op
    if !inHostSet op io then
      match r with
      | some r =>
        let cls := t.rClass r
        let rc : RefClass := if cls ≠ 0 then .change (cls = 2) else if t.rDir r = 2 then .out else .other
        let w := if t.rWinEn r || !hasAddr then fin? 32 (t.rWin r) else t.windowAt a
        let addr := if hasAddr then a else 0
        match w with
        | some w =>
          if t.used w && t.treat w = 2 then
            s.judgeWindow n op c addr w cls rc true 0x10000 1 (some (t.frameCmds r c hasAddr a)) true
          else s.refuse n c op addr (some w) .rule rc true
        | none => s.refuse n c op addr none .rule rc true
      | none => s.undecoded n
    else match arrayClass op with
      | .none => s.executeCmd n op c
      | .chip => clearWel (s.refuse n c op 0 none .span (.change true) p.wel) op
      | k =>
        let rc := refClass op
        let cls := match k with | .read => 0 | .program => 1 | _ => 2
        let len := match k with | .erase x => x | _ => 256
        let cost := if len = 0x10000 then 16 else 1
        let s' := match range op with
          | .span => s.refuse n c op a none .span rc p.wel
          | .uncovered => s.refuse n c op a none .window rc p.wel
          | .win w => s.judgeWindow n op c a w cls rc p.wel len cost none p.wel
        clearWel s' op

/-! ## Decoding -/

/-- The channel decodes commands: released, powered, and not in a host reset or an overcurrent cut-off (R39, R40, R302). -/
def State.decodes (s : State) (n : Fin 128) : Bool :=
  let p := s.port n
  let past : Bool := match p.resetEnd with | some t => decide (t ≤ s.now) | none => true
  s.chanOn n && s.dev.state = .running && (s.ch n).released && (s.ch n).pgood && past && p.cutEnd.isNone

/-- A hold waits for the local flash: only RDSR and RDFSR are answered, with WIP = 1 (R130). -/
def State.waiting (s : State) (n : Fin 128) : Bool := (s.ch n).holdWait && (s.ch n).pgood && s.localBusy n

/-- Decode the address (R339 step 1) and decide. The address of READ SFDP, RDCR and WRCR, and that of RDSR, RDFSR and RDID in Octal DDR,
is no array address: for WIN_EN and in LASTADDR such a command stands as one without an address, LASTADDR 0 (DESIGN CHOICE, log entry
90). -/
def State.decodeCmd (s : State) (n : Fin 128) (c : HostCmd) : State :=
  let p := s.port n
  let io := p.crIo.toNat
  let t := (s.st n).tbl
  let ph := (s.st n).phase.code
  let r := (List.finRange 64).find? fun r => (t.rAction r = 1 || t.rAction r = 3) && t.ruleOp r c.op io ph
  let form := match r with
    | some r => t.ruleAddr r io
    | none => if inHostSet c.op io then ownAddr c.op io else 0
  let frameOp := match r with
    | some r => if t.rAction r = 3 then t.rTarget r else c.op
    | none => c.op
  let space := (spaceOp frameOp || islandOp frameOp) && inHostSet frameOp io
  let s := if form ≠ 0 then s.modPort n fun p => { p with period := BitVec.ofNat 16 c.period, ddr := io = 3 } else s
  if form = 0 || space then s.judgeCmd n c false 0
  else
    let a := effAddr form p.four (s.vfSize n) c.addr
    match t.windowAt a with
    | some w => if t.treat w = 5 then s.mailboxCmd n c a else s.judgeCmd n c true a
    | none => s.judgeCmd n c true a

/-- A host command arrives (R26-R28, R39). A command ignored in deep power-down is not counted in UNDECODED: R27 counts opcodes outside
the table (DESIGN CHOICE, log entry 90). -/
def State.host (s : State) (n : Fin 128) (c : HostCmd) : State :=
  let s := s.csRise n
  if s.decodes n then
    let armed := (s.port n).resetArmed
    let dpd := (s.port n).dpd
    let s := s.modPort n fun p => { p with resetArmed := armed && c.op = 0x99 }
    if dpd && !([0xAB, 0x66, 0x99].contains c.op) then s
    else if s.wip n && !([0x05, 0x70].contains c.op) then s.undecoded n
    else (s.decodeCmd n c).modPort n fun p => { p with burstOpen := c.csLow && !p.reply.isEmpty }
  else if s.waiting n then
    if c.op = 0x05 then s.reply n c.op (List.replicate c.len (s.rdsr n))
    else if c.op = 0x70 then s.reply n c.op (List.replicate c.len (s.rdfsr n))
    else s
  else s

end Sys2Proof.Machine
end

