-- ==== Sys2Proof/Machine/StageOps.lean ====
section
/-! DEFINITION. Operations on staged plates (R111, R112): the entry that a manifest makes, storing the object, the PLATE_CONFLICT
test, the device's copy of a host session, and the conditions on arming a proof (R115). -/

namespace Sys2Proof.Machine

/-- The STAGED entry of a manifest (R107). -/
def PlatePol.stagedEntry (x : PlatePol) (p : PlateId) (man : List Byte) (host : Bool) : Plate :=
  { x.stagingEntry p host with
    state := .staged, svn := BitVec.ofNat 32 (manSvn man), build := BitVec.ofNat 64 (manBuild man),
    leaves := BitVec.ofNat 32 (manLeaves man), family := manFamily man, root := manRoot man }

/-- SVN and BUILD equal the ACTIVE plate's, but the ROOT differs (R112). -/
def State.conflicts (s : State) (n : Fin 128) (man : List Byte) : Bool :=
  let t := s.plates n
  [PlateId.a, .b].any fun p =>
    let e := t.get p
    e.state = .active && e.svn.toNat = manSvn man && e.build.toNat = manBuild man && e.root ≠ manRoot man

/-- A local region holds manifest and image (R111). -/
def PlatePol.regionHolds (x : PlatePol) (p : PlateId) (man : List Byte) : Bool :=
  x.srcOf p ≠ 2 || manImageBase man + manImageLen man ≤ (x.locOf p).2 * 4096

/-- MiB of the pool that an object of some leaves takes. DESIGN CHOICE (log entry 53): its leaves, rounded up to whole MiB. -/
def objMib (leaves : Nat) : Nat := ceilDiv leaves 256

/-- The pool holds the pair, or has room for it (R99). -/
def State.poolHolds (s : State) (man : List Byte) : Bool :=
  (s.poolObj (manFamily man) (manRoot man)).isSome || (!s.poolFull && objMib (manLeaves man) ≤ s.pool.freeMib.toNat)

/-- The objects of the pool become `objs`; POL_FREE follows, and the ledger holds the root of the new map (R98). -/
def State.setObjects (s : State) (objs : List PoolObj) : State :=
  let used := fun l : List PoolObj => l.foldl (fun a o => a + objMib (manLeaves o.man)) 0
  { s with
    pool := { s.pool with objs := objs, freeMib := BitVec.ofNat 32 (s.pool.freeMib.toNat + used s.pool.objs - used objs) },
    led := { s.led with mapRoot := some (Config.mapRoot (objs.map fun o => (o.family, o.root))) } }

/-- Store a complete object in the pool, once, in stripes over the channels that take writes (R99). -/
def State.storePool (s : State) (man : List Byte) (img : Memory) : State :=
  if (s.poolObj (manFamily man) (manRoot man)).isSome then s
  else s.setObjects (s.pool.objs ++
    [{ family := manFamily man, root := manRoot man, man := man, img := img, chans := s.writeChans, badLeaves := [] }])

/-- Commit plate p STAGED with a manifest and release its claim. -/
def State.commitStaged (s : State) (n : Fin 128) (p : PlateId) (man : List Byte) (host : Bool) (conf : Bool) : State :=
  let e := (s.polOf n).plate.stagedEntry p man host
  let e := { e with src := ((s.plates n).get p).src, locBase := ((s.plates n).get p).locBase }
  let s := s.modPlt n fun x =>
    { x with localMan := x.localMan.set p man, staging := x.staging.set p Staging.reset, confirmed := x.confirmed.set p conf }
  s.commitPlates n ((s.plates n).set p e) pcStaged

/-! ## The device's copy of a host session (R112) -/

/-- The byte at an offset of the staging window. -/
def State.stagedByte (s : State) (n : Fin 128) (w : Fin 32) (passData : List Byte) (off : Nat) : Byte :=
  let t := (s.st n).tbl
  if (t.size w) * 4096 ≤ off then 0xFF
  else if t.treat w = 4 then (s.area n).scratch.read (t.map w * 4096 + off) else passData.getD off 0xFF

/-- The manifest at the base of the staging window. -/
def State.stagedManifest (s : State) (n : Fin 128) (w : Fin 32) (passData : List Byte) : List Byte :=
  let get := s.stagedByte n w passData
  let hdr := (List.range 256).map get
  if manMagic hdr = 0x4D4C4E52 ∧ manLength hdr ≤ (s.st n).tbl.size w * 4096 then (List.range (manLength hdr)).map get else hdr

/-- The status of the copy: supply, manifest checks, conflict, storage, then the leaves in order; with the stored image. -/
def State.copyOutcome (s : State) (n : Fin 128) (p : PlateId) (w : Fin 32) (passData : List Byte) (stored : Bool) :
    Status × List Byte × Memory × Nat :=
  let man := s.stagedManifest n w passData
  let v := s.checkManifest n man
  let get := s.stagedByte n w passData
  let leaf := fun i => (List.range 4096).map fun k => if 4096 * i + k < manImageLen man then get (manImageBase man + 4096 * i + k) else 0xFF
  if s.inhibited then (stWriteInhibited, man, [], 0xFFFFFFFF)
  else if v ≠ .ok then (v.status, man, [], 0xFFFFFFFF)
  else if s.conflicts n man then (stPlateConflict, man, [], 0xFFFFFFFF)
  else if !stored || !(s.polOf n).plate.regionHolds p man || (((s.plates n).get p).src ≠ 2 && !s.poolHolds man) || s.seqFull n then
    (stResourceExhausted, man, [], 0xFFFFFFFF)
  else match streamLeaves man (s.plateKey man) (fun i => some (leaf i)) (manLeaves man) [] with
    | .error e => (e.1, man, [], e.2)
    | .ok _ => (stSuccess, man, (List.range (manLeaves man)).foldl (fun m i => m.writeList (4096 * i) (leaf i)) [], manLeaves man)

/-! ## Arming (R115) -/

/-- The conditions on arming, in the order of the rule; `secondary`: the sender may not loosen now. -/
def State.armStatus (s : State) (n : Fin 128) (p : PlateId) (secondary : Bool) : Status :=
  let e := (s.plates n).get p
  let st := (s.ch n).state
  if (e.state ≠ .staged ∧ e.state ≠ .rejected) ∨ p = .recov ∨ e.svn.toNat < s.familyMin e.family then stNotPermitted
  else if st = .off ∨ st = .quarantined then stNotPermitted
  else if secondary then stNotPermitted
  else if (s.plates n).onProof.isSome || (s.pl n).arming.isSome then stBusy
  else if s.inhibited then stWriteInhibited
  else if s.seqFull n then stResourceExhausted
  else stSuccess

end Sys2Proof.Machine
end

