-- ==== Sys2Proof/Machine/CommitOps.lean ====
section
/-! DEFINITION. Commits of a channel's Stencil table by the managers (R63, R65, R246, R247), discards and phase requests,
and discovery of a local flash (R70). -/

namespace Sys2Proof.Machine


/-- Put the result of a commit or discard in the manager's page header; SHD_DONE is set (R246). -/
def State.shdResult (s : State) (m : Mgr) (n : Fin 128) (res : BitVec 4) (err : Word) : State :=
  s.modHdr m (stnPage n) fun h => { h with result := res, shdErr := err, shdDone := true }

/-- The shadow is discarded: marks cleared, the active table copied into it (R63). -/
def State.discardShadow (s : State) (m : Mgr) (n : Fin 128) : State :=
  s.modStn n fun t => { t with shadow := t.shadow.set m { tbl := t.tbl, marks := [] } }

/-- Adopt a table if it differs from the active one (R63: no change raises no epoch). -/
def State.adoptChanged (s : State) (n : Fin 128) (t : STable) : State := if t = (s.st n).tbl then s else s.adopt n t

/-- Two commits judged in one slot, manager A's first: the table to adopt and both results (R65). x and y are what each gives by itself,
xm and ym the same with the fields that it did not write, of registers that both wrote, at the other's values. -/
def mergeSlot (a : STable) (size : Nat) (x y xm ym : STable) (mx my : List Nat) : STable × CommitRes × CommitRes :=
  match judge a x size mx, judge a y size my with
  | .committed, .committed => mergeCommits a x xm ym size mx my
  | .committed, r => (x, .committed, r)
  | r, .committed => (y, r, .committed)
  | r, q => (a, r, q)

/-- A write of SHD_CTRL.COMMIT: RESULT becomes PENDING until the commit's slot; it is ignored while one is pending (R246). -/
def State.requestCommit (s : State) (m : Mgr) (n : Fin 128) : State :=
  if s.shdPending m n then s.ignoredWrite m (chanPage n 1 + 0x020) else s.modHdr m (stnPage n) fun h => { h with result := 1 }

/-- The slot of a COMMIT by manager m: alone, or with the other manager's (R65). RESULT reaches its final value. -/
def State.commitSlot (s : State) (m : Mgr) (n : Fin 128) (rival : Bool) : State :=
  let t := s.st n
  let size := s.vfSize n
  let mine := t.shadow.get m
  if !rival then
    let b := mine.apply t.tbl
    let r := judge t.tbl b size mine.marks
    let s := if r = .committed then s.adoptChanged n b else s
    (s.discardShadow m n).shdResult m n r.code r.err
  else
    let sa := t.shadow.get .a
    let sb := t.shadow.get .b
    let x := sa.apply t.tbl
    let y := sb.apply t.tbl
    let r := mergeSlot t.tbl size x y x y sa.marks sb.marks
    let s := s.adoptChanged n r.1
    let s := (s.discardShadow .a n).shdResult .a n r.2.1.code r.2.1.err
    (s.discardShadow .b n).shdResult .b n r.2.2.code r.2.2.err

/-! ## Phase requests (R53, R65, R66) -/

def State.reqResult (s : State) (m : Mgr) (n : Fin 128) (r : BitVec 2) : State :=
  s.modStn n fun t => { t with reqResult := t.reqResult.set m r }

/-- ENTER_RECOVERY alone: done (1) or refused (2). -/
def State.enterPhase (s : State) (m : Mgr) (n : Fin 128) : State :=
  if (s.st n).phase = .run && (s.polOf n).recEntry && !s.isSecondary m then (s.setPhase n .recovery).reqResult m n 1
  else s.reqResult m n 2

/-- EXIT_RECOVERY. -/
def State.exitPhase (s : State) (m : Mgr) (n : Fin 128) : State :=
  if (s.st n).phase = .recovery then (s.setPhase n .run).reqResult m n 1 else s.reqResult m n 2

/-! ## Discovery (R70, R338) -/

/-- Windows of a table that do not fit S (R338). -/
def STable.outside (t : STable) (size : Nat) : Bool :=
  (List.finRange 32).any fun w => t.used w && size < (t.base w + t.size w) * 4096

/-- Windows of one treatment lie within an area of 64 KiB blocks (R95). -/
def STable.areaOk (t : STable) (treat blocks : Nat) : Bool :=
  (List.finRange 32).all fun w => !(t.used w && t.treat w = treat) || t.map w + t.size w ≤ blocks * 16

/-- The section in force of channel n, and the table that its overlay and the register commits made of it (R338). -/
def State.tablesInForce (s : State) (n : Fin 128) : List STable := [(s.polOf n).tbl, (s.st n).tbl]

/-- The fault that a discovery ends in, in the order of its steps; 0: none. -/
def State.discoveryFault (s : State) (f : Fin 64) (r : DiscReport) : Nat :=
  let n := fin? 128 f.1
  let vf := match n with | some n => (s.profOf n).vfLog2 | none => 0
  let fits := match n with | some n => (s.tablesInForce n).all (fun t => !t.outside r.density) | none => true
  if r.id.all (· = 0) || r.id.all (· = 0xFF) then 1
  else if leAt r.sfdp 0 4 ≠ 0x50444653 then 2
  else if r.major ≠ 1 || r.minor < 6 then 3
  else match log2Exact r.density with
    | none => 4
    | some k =>
      if k < 24 || 30 < k || (vf ≠ 0 && vf ≠ k) || !fits then 4
      else if r.pageSize < 256 || !r.erase4 then 5
      else if !r.protoOk || ((s.fp f).passProto = 3 && !r.xspi) then 6
      else if !r.entryOk then 7
      else 0

/-- The density that discovery read from a valid SFDP (R31). -/
def discoveryFound (r : DiscReport) : Option Nat :=
  if leAt r.sfdp 0 4 ≠ 0x50444653 then none
  else match log2Exact r.density with
    | some k => if 24 ≤ k && k ≤ 30 then some k else some 0
    | none => some 0

/-- Discovery ends (R70): READY with the registers valid, and a re-release that the FAULT kept back goes on (DESIGN CHOICE, log entry 93),
or FAULT. -/
def State.endDiscovery (s : State) (f : Fin 64) (r : DiscReport) : State :=
  let code := s.discoveryFault f r
  let id := (r.id ++ List.replicate 20 0).take 20
  let s := s.modFp f fun x => { x with found := discoveryFound r }
  if code = 0 then
    let s := s.modFp f fun x =>
      { x with state := 2, fault := 0, densLog2 := BitVec.ofNat 8 r.density.log2, passDummy := r.passDummy, maxMhz := r.maxMhz,
               pageLog2 := BitVec.ofNat 4 r.pageSize.log2, xspi := r.xspi, progUs := r.progUs, erase4Ms := r.erase4Ms,
               erase64Ms := r.erase64Ms, id := id, sfdp := r.sfdp }
    match fin? 128 f.1 with
    | some n => if (s.profOf n).isLocal then (s.resumeHeld n).endLines else s
    | none => s
  else
    let s := s.modFp f fun x => { x with state := 3, fault := BitVec.ofNat 8 code, id := id, discFails := satInc x.discFails }
    let s := s.raise 0x0107 f.1 [code]
    match fin? 128 f.1 with
    | some n => match (s.ch n).sel with
      | some w => if w.entry = 256 then s.resume n (some (.unavailable stImageIncomplete)) else s
      | none => s
    | none => s

end Sys2Proof.Machine
end

