-- ==== Sys2Proof/Machine/ReleaseOps.lean ====
section
/-! DEFINITION. From TAKING to the release instant: host identity (R172-R174), READY (R129), the release limiter (R134, R135)
and what happens at the release instant (R132, R175). -/

namespace Sys2Proof.Machine

/-! ## Host identity (R151, R171-R174) -/

/-- LEAF_ROOT of the impression that the channel is bound to; 48 zero bytes under R2. -/
def State.boundRoot (s : State) (n : Fin 128) : List Byte :=
  match s.boundTo n with
  | some i => (s.dirE i).root
  | none => List.replicate 48 0

/-- FAMILY of the impression that the channel is bound to; zeros under R2. -/
def State.boundFamily (s : State) (n : Fin 128) : List Byte :=
  match s.boundTo n with
  | some i => (s.dirE i).family
  | none => List.replicate 16 0

/-- ASCII bytes. -/
def ascii (t : String) : List Byte := t.toList.map fun c => BitVec.ofNat 8 c.toNat

/-- The P-384 private scalar that a secret gives under a label, 48 bytes (R169, R174). -/
def scalarOf (secret : List Byte) (label : String) : List Byte :=
  beBytes 48 (ofBe (Config.hmac512 secret (ascii label)) % (Config.groupOrder 2 - 1) + 1)

/-- The ML-DSA-65 seed that a secret gives under a label (R169). -/
def seedOf (secret : List Byte) (label : String) : List Byte := (Config.hmac512 secret (ascii label)).take 32

/-- The uncompressed public key of a P-384 scalar, 97 bytes; the encoded one of an ML-DSA-65 seed. -/
def ecPubOf (scalar : List Byte) : List Byte := slice (Config.publicPart 2 scalar) 0 97
def pqPubOf (seed : List Byte) : List Byte := slice (Config.publicPart 0x21 seed) 0 1952

/-- A certificate signed with a P-384 scalar (R170, R174). -/
def ecCert (scalar : List Byte) (draw : Nat) (c : CertBody) : List Byte :=
  Config.certDer (Config.certTbs c) (Config.ecdsaSign scalar (Config.certTbs c) draw).toList

/-- CDI_n (R172): 64 zero bytes without an identity (R171). -/
def State.cdiOf (s : State) (n : Fin 128) : List Byte :=
  if s.att.idValid then
    Config.hmac512 ((s.devKey .cdi).getD []) (ascii "SKD-HCDI" ++ [BitVec.ofNat 8 n.1] ++ s.boundRoot n ++ leBytes 4 (s.st n).polver.toNat)
  else List.replicate 64 0

/-- K_wdg[n] under KEY_SRC = 0 (R151). -/
def wdgKeyOf (cdi : List Byte) (n : Fin 128) : List Byte :=
  (Config.hmac384 cdi (ascii "SKD-WDG" ++ [BitVec.ofNat 8 n.1])).toList.take 32

/-- The contents of channel n's host certificate (R174). -/
def State.hostCertBody (s : State) (n : Fin 128) : CertBody :=
  let pub := ecPubOf (scalarOf (s.cdiOf n) "SKD-HOST-EC")
  { key := pub, serial := some ((Config.sha384 pub).toList.take 16), validity := some ("20000101000000Z", "99991231235959Z"),
    tcb := { vendor := "", model := "", layer := 2, index := some n.1, fwids := s.boundRoot n, svn := s.boundSvn n, debug := false },
    host := some (s.boundFamily n, (s.st n).polver.toNat) }

/-- Derive CDI_n, K_wdg[n] under KEY_SRC = 0, and the host certificate under the ECDSA alias key, within TAKING (R151, R172-R174). -/
def State.deriveIdentity (s : State) (n : Fin 128) : State :=
  let cdi := s.cdiOf n
  let cert := match s.devKey .aliasEc with
    | some d => if s.att.idValid then ecCert d s.drawn (s.hostCertBody n) else []
    | none => []
  let key := if (s.polOf n).wdg.keySrc then [] else wdgKeyOf cdi n
  State.drawGeneral ((s.modMbx n fun b => { b with cdi := cdi, cdiTaken := true, cert := cert }).modWdg n fun w => { w with key := key })

/-! ## READY (R129, R229) -/

/-- Request the release of a READY channel (R135): it joins the limiter's queue. -/
def State.requestRelease (s : State) (n : Fin 128) : State :=
  let s := s.modCtl n fun c => { c with relAsked := true, ranked := false }
  if s.plat.queue.contains n.1 then s else { s with plat := { s.plat with queue := s.plat.queue ++ [n.1] } }

/-- The ranks that enabled channels have, ascending (R136). -/
def State.ranksPresent (s : State) : List Nat :=
  (List.range 128).filter fun r => (List.finRange 128).any fun n => s.chanOn n && (s.profOf n).enabled && (s.profOf n).rank = r

/-- KEEP is restored once after each device start, before the channel's first release (R97). -/
def State.restoreKeep (s : State) (n : Fin 128) : State :=
  if (s.area n).restored then s else s.modAreas n fun a => a.restore s.keys.keepSalt

/-- Areas and pinned ranges of the standing configuration take effect, the pins as they fit (R38, R91, R315). -/
def State.loadAreas (s : State) (n : Fin 128) : State :=
  let s := { s with prof := vmod s.prof n fun p => p.withAreas (vget s.profCfg n) }
  match s.boundTo n with
  | some i =>
    let pins := s.pinsThatFit n i.1 (s.profOf n).pins
    s.modCtl n fun c => { c with pins := pins }
  | none => s.modCtl n fun c => { c with pins := [] }

/-- A TAKING channel whose binding is in place becomes READY: areas and pins loaded, identity derived, KEEP restored; the release is
requested if its cause asked for it, and a ranked channel past its rank's boundary is late (R129, R136). -/
def State.becomeReady (s : State) (n : Fin 128) : State :=
  let s := ((s.loadAreas n).deriveIdentity n).restoreKeep n
  let s := s.transition n .ready (s.ch n).cause
  let c := s.ch n
  let s := if c.relAsked then s.requestRelease n
    else if c.ranked && s.plat.ranksBegun && (s.profOf n).rank < s.plat.nextRank then
      { s with plat := { s.plat with late := s.plat.late ++ [n.1] } }
    else s
  s.answerAll n (fun k => k = .release) stSuccess (bval (s.relPending n)) []

/-! ## The release instant (R132) -/

/-- The release may be granted (R130, R132, R134, R121, R302): not the limiter. No channel is released unbound except under R2, nor while
its local flash is not READY (R70). -/
def State.mayRelease (s : State) (n : Fin 128) : Bool :=
  let c := s.ch n
  c.state = .ready && c.relAsked && c.sink && !c.holdWait && (c.holdT = 0 || c.holdT + 10 * msec ≤ s.now) && !s.gated n &&
  (c.bound.isSome || s.exempt n) && !s.portDown n &&
  (s.mb n).session ≠ 2 && s.dev.state = .running && !s.tamper.burnt

/-- The request that the limiter grants next: the first of the queue that may be released. -/
def State.nextGrant (s : State) : Option Nat :=
  s.plat.queue.find? fun k => match fin? 128 k with
    | some n => s.mayRelease n
    | none => false

/-- MEAS0's v (R175). -/
def State.meas0 (s : State) (n : Fin 128) : Digest :=
  Config.sha384 (s.boundFamily n ++ s.boundRoot n ++
    leBytes 4 (s.boundSvn n) ++
    [BitVec.ofNat 8 (s.plateField n 0xF), BitVec.ofNat 8 (s.proofField n)])

/-- The watchdog at the release instant (R133, R144, R149, R154): AUTO arms it the first time, whatever its key (R151 refuses arming
writes only); armed, its window starts. -/
def State.releaseWdg (s : State) (n : Fin 128) : State :=
  let s := s.modWdg n fun w => { w with clkFault := false }
  let w := s.wd n
  if w.armed then (s.newWindow n).publish n
  else if w.auto then (s.arm n true).newWindow n
  else s

/-- Mailbox and message boxes at the release instant (R44, R47, R48). -/
def Mailbox.released (b : Mailbox) : Mailbox :=
  { b with rev := 1, bootDone := false, cdiTaken := false, h2mLen := 0, h2mSeq := 0, h2mAck := 0, h2mData := [], posted := none,
           m2hLen := 0, m2hSeq := 0, m2hAck := 0, m2hData := [] }

/-- Measurement registers at the release instant (R175): zeroed, then MEAS0, MEAS1, MEAS2 if armed, and MEAS3 for BOOT. -/
def State.releaseMeas (s : State) (n : Fin 128) (st : ChState) (cause : Cause) (old : Phase) : State :=
  let s := s.modMbx n fun b => { b with meas := Vector.replicate 8 Digest.zero }
  let s := s.extend n 0 0x0014 [st.code, cause.code] (s.meas0 n)
  let t := s.st n
  let s := s.extend n 1 0x0013 [t.epoch.toNat] (meas1 t.epoch t.tbl)
  let w := s.wd n
  let s := if w.armed then s.extend n 2 0x0030 [1, w.cfgWord, w.winWord] (s.meas2 n) else s
  let s := s.raise 0x010D n.1 [old.code, Phase.boot.code]
  s.extend n 3 0x0015 [old.code, Phase.boot.code] (Config.sha384 [BitVec.ofNat 8 Phase.boot.code])

/-- The proof at the release instant: the deadline starts with the attempt's first release (R116); CH_STATE.PROOF otherwise shows
whether this boot follows a revert (R118). -/
def State.releaseProof (s : State) (n : Fin 128) : State :=
  if s.onProof n then
    s.modPlt n fun x =>
      { x with deadline := match x.deadline with
                 | some d => some d
                 | none => some (s.now + (s.polOf n).plate.proofTmo.toNat * second),
               show_ := 0 }
  else s.modPlt n fun x => { x with show_ := if x.revertNext then 3 else 0, revertNext := false }

/-- The release instant (R132). -/
def State.release (s : State) (n : Fin 128) : State :=
  let old := (s.st n).phase
  let st := if s.onProof n then ChState.proof else .running
  let cause := (s.ch n).cause
  let s := s.modCtl n fun c =>
    { c with sink := false, relT := s.now, releases := satInc c.releases, relAsked := false, firstRelease := false, ranked := false }
  let s := { s with plat := { s.plat with queue := s.plat.queue.filter fun x => x ≠ n.1,
                                          instants := (s.plat.instants.filter fun t => s.now < t + 1000 * msec) ++ [s.now] } }
  let s := s.transition n st cause
  let s := s.modStn n fun t =>
    { t with phase := .boot, tmoHit := false, pTok := Vector.ofFn fun w => Bucket.full (vget t.tbl.pbkt w),
             eTok := Vector.ofFn fun w => Bucket.full (vget t.tbl.ebkt w) }
  let s := s.modAreas n fun a => { a with scratch := [] }
  let s := (s.loadAreas n).csRise n
  let s := s.modPort n fun p => { p.hostReset none with ident := some (s.liveIdent n) }
  let s := s.modMbx n Mailbox.released
  let s := s.releaseProof n
  let s := s.releaseWdg n
  let s := s.releaseMeas n st cause old
  let ms := match (s.pl n).deadline with | some d => if s.onProof n then (d - s.now) / msec else 0 | none => 0
  s.answerAll n (fun k => k = .arm) stSuccess ms (leBytes 8 s.now)

end Sys2Proof.Machine
end

