-- ==== Sys2Proof/Machine/OvdelOps.lean ====
section
/-! DEFINITION. What an Ovdel command meets before its own rules (R19, R225, R227, R228, R235, R162, R123), and how its answer
reaches the manager. -/

namespace Sys2Proof.Machine

/-- What a completion carries, and the bytes for the command's buffer. -/
structure Answer where
  st : Status
  info : Nat
  result : List Byte
  data : Option (List Byte)
  more : Bool
  deriving DecidableEq, Repr

/-- A completion with a status and INFO alone. -/
def ans (st : Status) (info : Nat := 0) : Answer := { st := st, info := info, result := [], data := none, more := false }

/-- SUCCESS with RESULT bytes. -/
def okAns (result : List Byte := []) (info : Nat := 0) : Answer :=
  { st := stSuccess, info := info, result := result, data := none, more := false }

/-- Send an answer for a ring command. -/
def State.deliver (s : State) (src : Src) (a : Answer) : State :=
  (match a.data with | some d => s.toBuffer src d | none => s).finish src a.st a.info a.result a.more

/-- The kind of queue an opcode may come on (R228). -/
inductive QueueKind where
  | admin
  | io
  | any
  deriving DecidableEq, Repr

/-- The opcode is on the wrong kind of queue. -/
def QueueKind.wrong (k : QueueKind) (sq : Byte) : Bool :=
  match k with
  | .admin => sq ≠ 0
  | .io => sq = 0
  | .any => false

/-- A command's row: its opcode (R228), its queue, the lowest version that permits it (R227), fast path (R19), allowed in SAFE_HOLD and in
DEVICE_RECOVERY (R235), denied in the fallback (R162) and while tamper LOCK is set (R269), BUSY while the device firmware is on proof (R123). -/
structure Gate where
  opc : Nat
  queue : QueueKind
  version : Nat
  /-- what the entry's bytes hold: first bit, bits, value (R229) -/
  fields : List (Nat × Nat × Nat) := []
  /-- the offset of the pointer whose buffer the device reads or writes at once -/
  dptr : Option Nat := none
  fast : Bool := false
  safeHold : Bool := false
  recovery : Bool := false
  fallback : Bool := false
  lock : Bool := false
  devfw : Bool := false

/-- The manager's version in force. -/
def State.version (s : State) (m : Mgr) : Nat := (s.ring m).version.toNat

/-- The device state lets the ring engine consume the command (R235); START and DEVICE_RECOVERY take only the admin queue (R124). -/
def State.consumes (s : State) (src : Src) : Bool :=
  match s.dev.state with
  | .running | .safeHold => true
  | .deviceRecovery | .start => src.sq = 0
  | .por | .shadow | .rom | .standby => false

/-- The refusal by opcode, device state, fallback, tamper LOCK or device-firmware proof; none: the command's own rules decide. -/
def State.gateStatus (s : State) (src : Src) (g : Gate) : Option Status :=
  if s.dev.state = .deviceRecovery && !g.recovery then some stNotPermitted
  else if g.queue.wrong src.sq then some stInvalidOpcode
  else if s.version src.mgr < g.version then some stInvalidOpcode
  else if s.dev.state = .safeHold && !(g.safeHold || g.queue = .admin) then some stNotPermitted
  else if g.fallback && s.fallback then some stNotPermitted
  else if g.lock && s.tamper.lock then some stNotPermitted
  else if g.devfw && s.devfw.onProof then some stBusy
  else none

/-- A consumed entry spells a command: its opcode and the operands in its bytes (R228, R229). -/
def InFlight.spells (f : InFlight) (g : Gate) : Bool :=
  f.opc.toNat = g.opc && g.fields.all fun x => (ofLe f.raw >>> x.1) % 2 ^ x.2.1 = x.2.2

/-- The consumed entry of a command that has not completed. -/
def State.inFlight? (s : State) (src : Src) : Option InFlight :=
  match SMap.get? (s.ring src.mgr).sqs src.sq.toNat with
  | some q => q.flight.find? fun f => f.cid = src.cid && !f.done
  | none => none

/-- The command is in flight: its queue has consumed an entry that spells it, and it has not completed (R217). A command of a queue that does
not exist runs and posts nothing (log entry 35). -/
def State.carried (s : State) (src : Src) (g : Gate) : Bool :=
  if (SMap.get? (s.ring src.mgr).sqs src.sq.toNat).isNone then true else (s.inFlight? src).any fun f => f.spells g

/-- The command waits: its manager is absent, its device state takes no command, the control cluster it needs is absent, or it has
completed already. -/
def State.waits (s : State) (src : Src) (g : Gate) : Bool :=
  !s.mgrOn src.mgr || !s.consumes src || (s.dev.ccAbsent && !g.fast) || !s.carried src g

/-- The ledger commits that a command has made since state s bear its SQ and CID (R19). -/
def State.noteCommit (t s : State) (src : Src) : State :=
  if t.led.commits = s.led.commits then t else { t with led := { t.led with last := some src } }

/-- Run an Ovdel command: it waits where its manager is absent (R7), its device state takes no command, or the control cluster
it needs is absent (R19); a command refused, or whose buffer no DMA can reach (R228, R254), completes as `refuse` says with a status and
INFO; otherwise its own rules run. -/
def State.ovdelOr (s : State) (src : Src) (g : Gate) (refuse : Status → Nat → State → State) (body : State → State) : State :=
  if s.waits src g then s
  else match s.gateStatus src g, g.dptr with
    | some st, _ => refuse st 0 s
    | none, some off =>
      if s.dmaUp src.mgr then (body s).noteCommit s src
      else
        let addr := match s.inFlight? src with | some f => leAt f.raw off 8 | none => 0
        refuse stAborted off (s.ringDmaFailed src.mgr 5 (BitVec.ofNat 64 addr))
    | none, none => (body s).noteCommit s src

/-- The same, of a command that completes with the status alone. -/
def State.ovdel (s : State) (src : Src) (g : Gate) (body : State → State) : State :=
  s.ovdelOr src g (fun st info s => s.deliver src (ans st info)) body

/-! ## The rows of R227, R228 and R229 -/

/-- n bytes of an entry at an offset, and n bits of it from bit b of a byte on, hold a value. -/
def byteField (off n v : Nat) : Nat × Nat × Nat := (8 * off, 8 * n, v)
def bitField (off b n v : Nat) : Nat × Nat × Nat := (8 * off + b, n, v)

/-- CH of an entry; LEN of DPTR. -/
def chField (ch : Half) : Nat × Nat × Nat := byteField 6 2 ch.toNat
def lenField (n : Nat) : Nat × Nat × Nat := byteField 24 4 n

/-- Where change i of a STENCIL_TIGHTEN stands: three in the first unit, five in each further one (R229). -/
def changePos (i : Nat) : Nat := if i < 3 then 16 + 12 * i else 64 * (1 + (i - 3) / 5) + 12 * ((i - 3) % 5)

/-- The changes of a STENCIL_TIGHTEN from number i on (R230). -/
def changeFields : Nat → List Change → List (Nat × Nat × Nat)
  | _, [] => []
  | i, c :: l =>
    byteField (changePos i) 2 c.offset :: byteField (changePos i + 4) 4 c.mask.toNat :: byteField (changePos i + 8) 4 c.value.toNat ::
      changeFields (i + 1) l

/-- A bundle's bytes. -/
def Bundle.len (b : Bundle) : Nat :=
  b.body.length + b.sig.ecKey.length + b.sig.ecSig.length + b.sig.pqKey.length + b.sig.pqSig.length

/-- The manager whose queue carries an Ovdel command, and the command's row in the tables of R19, R123, R162, R227, R228, R229, R235 and R269. -/
def gateRow : Instr → Option (Src × Gate)
  | .identify src cns ch len =>
    some (src, { opc := 0x0001, queue := .admin, version := 0x0103, fields := [byteField 8 1 cns.toNat, chField ch, lenField len],
                 dptr := some 16, recovery := true })
  | .negotiate src proposed =>
    some (src, { opc := 0x0002, queue := .admin, version := 0x0103, fields := [byteField 8 2 proposed.toNat], recovery := true })
  | .createCq src f =>
    some (src, { opc := 0x0003, queue := .admin, version := 0x0103,
                 fields := [byteField 8 2 f.qid.toNat, byteField 10 2 f.depth, byteField 12 2 f.vector, bitField 14 0 1 f.ien.toNat,
                   bitField 14 1 1 f.event.toNat, byteField 16 8 f.base.toNat, byteField 24 2 f.coalN, byteField 26 2 f.coalUs] })
  | .createSq src f =>
    some (src, { opc := 0x0004, queue := .admin, version := 0x0103,
                 fields := [byteField 8 2 f.qid.toNat, byteField 10 2 f.depth, byteField 12 2 f.cqid.toNat, byteField 14 1 f.cls.toNat,
                   byteField 16 8 f.base.toNat] })
  | .deleteSq src qid =>
    some (src, { opc := 0x0005, queue := .admin, version := 0x0103, fields := [byteField 8 2 qid.toNat] })
  | .deleteCq src qid =>
    some (src, { opc := 0x0006, queue := .admin, version := 0x0103, fields := [byteField 8 2 qid.toNat] })
  | .setEventRing src cqid mask =>
    some (src, { opc := 0x0007, queue := .admin, version := 0x0103, fields := [byteField 8 2 cqid.toNat, byteField 12 4 mask.toNat] })
  | .abort src sqid cid _ =>
    some (src, { opc := 0x0008, queue := .admin, version := 0x0103, fields := [byteField 8 2 sqid.toNat, byteField 10 2 cid.toNat] })
  | .getLog src page sel offset len =>
    some (src, { opc := 0x0009, queue := .admin, version := 0x0103,
                 fields := [byteField 8 1 page.toNat, byteField 10 2 sel.toNat, byteField 12 4 offset, lenField len], dptr := some 16,
                 recovery := true })
  | .setFeature src fid sel value data =>
    some (src, { opc := 0x000A, queue := .admin, version := 0x0103,
                 fields := [byteField 8 1 fid.toNat, byteField 10 2 sel.toNat, byteField 12 4 value.toNat] ++
                   (if fid = 3 then [lenField data.length] else []),
                 dptr := if fid = 3 then some 16 else none })
  | .getFeature src fid sel =>
    some (src, { opc := 0x000B, queue := .admin, version := 0x0103, fields := [byteField 8 1 fid.toNat, byteField 10 2 sel.toNat] })
  | .chHold src ch _ =>
    some (src, { opc := 0x0100, queue := .io, version := 0x0103, fields := [chField ch], fast := true })
  | .chRelease src ch _ =>
    some (src, { opc := 0x0101, queue := .io, version := 0x0103, fields := [chField ch] })
  | .chStatus src ch =>
    some (src, { opc := 0x0102, queue := .io, version := 0x0103, fields := [chField ch], fast := true, safeHold := true })
  | .chQuarantine src ch _ =>
    some (src, { opc := 0x0103, queue := .io, version := 0x0200, fields := [chField ch], fast := true })
  | .chReadmit src ch _ =>
    some (src, { opc := 0x0104, queue := .io, version := 0x0200, fields := [chField ch] })
  | .chRestart src ch _ =>
    some (src, { opc := 0x0105, queue := .io, version := 0x0202, fields := [chField ch] })
  | .imageStage src ch plate part offset data =>
    some (src, { opc := 0x0200, queue := .io, version := 0x0103,
                 fields := [chField ch, byteField 8 1 plate.toNat, byteField 9 1 part.toNat, byteField 12 4 offset, lenField data.length],
                 dptr := some 16, fallback := true })
  | .imageCommit src ch plate _ =>
    some (src, { opc := 0x0201, queue := .io, version := 0x0103, fields := [chField ch, byteField 8 1 plate.toNat], fallback := true })
  | .plateArmProof src ch plate =>
    some (src, { opc := 0x0202, queue := .io, version := 0x0103, fields := [chField ch, byteField 8 1 plate.toNat], fallback := true })
  | .plateStatus src ch len =>
    some (src, { opc := 0x0203, queue := .io, version := 0x0103, fields := [chField ch, lenField len], dptr := some 16, safeHold := true })
  | .advanceMinVersion src ch family newMin =>
    some (src, { opc := 0x0204, queue := .io, version := 0x0200,
                 fields := [chField ch, byteField 8 16 (ofLe (slice family 0 16)), byteField 24 4 newMin.toNat],
                 fallback := true, devfw := true })
  | .plateErase src ch plate =>
    some (src, { opc := 0x0205, queue := .io, version := 0x0200, fields := [chField ch, byteField 8 1 plate.toNat], fallback := true })
  | .policyLoad src b =>
    some (src, { opc := 0x0300, queue := .io, version := 0x0200, fields := [lenField b.what.len], dptr := some 16,
                 fallback := true, lock := true, devfw := true })
  | .stencilTighten src ch persist units changes _ =>
    some (src, { opc := 0x0301, queue := .io, version := 0x0200,
                 fields := [chField ch, bitField 2 0 3 units, bitField 8 0 1 persist.toNat, byteField 9 1 changes.length] ++
                   changeFields 0 changes })
  | .configWrite src img =>
    some (src, { opc := 0x0302, queue := .io, version := 0x0200, fields := [lenField img.length], dptr := some 16, fallback := true })
  | .configRead src len =>
    some (src, { opc := 0x0303, queue := .io, version := 0x0200, fields := [lenField len], dptr := some 16, safeHold := true })
  | .burinOp src desc resLen _ =>
    some (src, { opc := 0x0400, queue := .io, version := 0x0200, fields := [lenField desc.length, byteField 40 4 resLen], dptr := some 16 })
  | .hashOp src desc outLen _ =>
    some (src, { opc := 0x0401, queue := .io, version := 0x0200, fields := [lenField desc.length, byteField 40 4 outLen], dptr := some 16 })
  | .random src len =>
    some (src, { opc := 0x0402, queue := .io, version := 0x0200, fields := [lenField len], dptr := some 16 })
  | .quote src nonce len =>
    some (src, { opc := 0x0500, queue := .io, version := 0x0200, fields := [byteField 8 32 (ofLe (slice nonce 0 32)), byteField 48 4 len],
                 dptr := some 40, safeHold := true })
  | .tracingRead src fromSeq advance header len =>
    some (src, { opc := 0x0501, queue := .io, version := 0x0103,
                 fields := [byteField 8 8 fromSeq.toNat, bitField 28 0 1 advance.toNat, bitField 28 1 1 header.toNat, lenField len],
                 dptr := some 16, safeHold := true })
  | .keyUpdate src msg =>
    some (src, { opc := 0x0600, queue := .io, version := 0x0200, fields := [lenField msg.what.length], dptr := some 16,
                 fallback := true, devfw := true })
  | .keyInfo src slot len =>
    some (src, { opc := 0x0601, queue := .io, version := 0x0200, fields := [byteField 8 2 slot.toNat, lenField len], dptr := some 16,
                 safeHold := true })
  | .zeroize src confirm =>
    some (src, { opc := 0x0602, queue := .io, version := 0x0200, fields := [byteField 8 4 confirm.toNat], safeHold := true })
  | .otpRead src region bitOffset q =>
    some (src, { opc := 0x0700, queue := .io, version := 0x0200,
                 fields := [byteField 8 2 region.toNat, byteField 12 4 bitOffset, lenField q.len], dptr := some 16, safeHold := true })
  | .otpProgram src region bitOffset bitmap _ =>
    some (src, { opc := 0x0701, queue := .io, version := 0x0200,
                 fields := [byteField 8 2 region.toNat, byteField 12 4 bitOffset, lenField bitmap.length], dptr := some 16,
                 fallback := true, lock := true, devfw := true })
  | .otpFinalise src region _ =>
    some (src, { opc := 0x0702, queue := .io, version := 0x0200, fields := [byteField 8 2 region.toNat],
                 fallback := true, lock := true, devfw := true })
  | .deviceFwStage src offset data =>
    some (src, { opc := 0x0800, queue := .any, version := 0x0200, fields := [byteField 12 4 offset, lenField data.length], dptr := some 16,
                 recovery := true, fallback := true, lock := true, devfw := true })
  | .deviceFwCommit src activate =>
    some (src, { opc := 0x0801, queue := .any, version := 0x0200, fields := [bitField 8 0 1 activate.toNat],
                 recovery := true, fallback := true, lock := true })
  | .deviceFwAccept src =>
    some (src, { opc := 0x0802, queue := .any, version := 0x0200 })
  | _ => none

/-- The gate of a command that has one. -/
def gateOf (c : Instr) : Gate := match gateRow c with | some x => x.2 | none => { opc := 0, queue := .any, version := 0 }

/-- The opcodes of R228. -/
def knownOpc (opc : Nat) : Bool :=
  opc ≤ 0x000B || (0x0100 ≤ opc && opc ≤ 0x0105) || (0x0200 ≤ opc && opc ≤ 0x0205) || (0x0300 ≤ opc && opc ≤ 0x0303) ||
  (0x0400 ≤ opc && opc ≤ 0x0402) || opc = 0x0500 || opc = 0x0501 || (0x0600 ≤ opc && opc ≤ 0x0602) || (0x0700 ≤ opc && opc ≤ 0x0702) ||
  (0x0800 ≤ opc && opc ≤ 0x0802)

/-- Channel of a command: enabled by the part number, else INVALID_FIELD at byte 6 (R228, R5). -/
def State.withChan (s : State) (src : Src) (ch : Half) (body : Fin 128 → State → State) : State :=
  match fin? 128 ch.toNat with
  | some n => if s.chanOn n then body n s else s.deliver src (ans stInvalidField 6)
  | none => s.deliver src (ans stInvalidField 6)

/-! ## Channel orders (R137) -/

/-- Strength of an order: QUARANTINE, then HOLD, then the rest. -/
def Order.strength : Order → Nat
  | .quarantine => 3 | .hold => 2 | .readmit | .release | .restart => 1

/-- RELEASE, READMIT and RESTART loosen. -/
def Order.loosens (o : Order) : Bool := o.strength = 1

/-- The other manager's order of the same slot takes effect in place of manager m's. -/
def Order.loses (o : Order) (m : Mgr) (rival : Option Order) : Bool :=
  match rival with
  | some r => o.strength < r.strength || (o.strength = r.strength && m = .b)
  | none => false


/-- CH_HOLD (R137). It completes at the hold instant, with its device time; with 0 where the state does not change. -/
def State.orderHold (s : State) (who : Asker) (n : Fin 128) : State :=
  let c := s.ch n
  if c.state.live then
    let s := (s.wait who n .hold).hold n .manager .manager none
    if (s.ch n).sink then s.answerAll n (fun k => k = .hold) stSuccess 0 (leBytes 8 (s.ch n).holdT) else s
  else
    let s := if c.state = .held && c.kind ≠ .manager && c.kind ≠ .device then (s.hold n .manager .manager none).endLines else s
    s.answer who n stSuccess 0 []

/-- A SAFE channel is released (R159): its clear of CONSEC is written before it moves to TAKING, and waits for the supply. -/
def State.releaseSafe (s : State) (n : Fin 128) : State :=
  if s.inhibited then { s with led := { s.led with waiting := s.led.waiting ++ [.release n.1] } }
  else (s.clearConsec n).startTaking n .manager true

/-- CH_RELEASE (R137, R114, R159, R272, R283). It completes at READY. -/
def State.orderRelease (s : State) (who : Asker) (n : Fin 128) : State :=
  let c := s.ch n
  if s.tamper.burnt || s.unowned then s.answer who n stNotPermitted
  else match c.state with
    | .off | .quarantined => s.answer who n stNotPermitted
    | .taking | .ready | .running | .proof => s.answer who n stSuccess (bval (s.relPending n))
    | .recovery => (s.wait who n .release).startTaking n .manager true
    | .safe => (s.wait who n .release).releaseSafe n
    | .held => match c.kind with
      | .sequence | .impressionLost => s.answer who n stBusy
      | .device | .none => s.answer who n stNotPermitted
      | .manager | .pgood | .tagLimit | .config | .standby => (s.wait who n .release).startTaking n .manager true

/-- CH_QUARANTINE: at once (R137, R117). -/
def State.orderQuarantine (s : State) (who : Asker) (n : Fin 128) : State :=
  match (s.ch n).state with
  | .off => s.answer who n stNotPermitted
  | .quarantined => s.answer who n stSuccess
  | _ => (s.leave n .quarantined .quarantine).endLines.answer who n stSuccess

/-- CH_READMIT. -/
def State.orderReadmit (s : State) (who : Asker) (n : Fin 128) : State :=
  if (s.ch n).state = .quarantined then (s.hold n .manager .manager none).answer who n stSuccess else s.answer who n stNotPermitted

/-- CH_RESTART (R138): it completes at the hold instant. -/
def State.orderRestart (s : State) (who : Asker) (n : Fin 128) : State :=
  if (s.ch n).released then (s.wait who n .restart).restartSeq n .restart else s.answer who n stNotPermitted

/-- An order of manager m on channel n, from either path (R137, R66, R141). `deviceHold`: a hold caused by the device takes the same
slot, and wins over a RELEASE. -/
def State.order (s : State) (who : Asker) (m : Mgr) (n : Fin 128) (o : Order) (rival : Option Order) (deviceHold : Bool) : State :=
  if s.dev.state = .safeHold || (o.loosens && s.isSecondary m) then s.answer who n stNotPermitted
  else if o.loses m rival || (o = .release && deviceHold) then s.answer who n stSuperseded
  else match o with
    | .hold => s.orderHold who n
    | .release => s.orderRelease who n
    | .quarantine => s.orderQuarantine who n
    | .readmit => s.orderReadmit who n
    | .restart => s.orderRestart who n

/-- An order written to CHn_CTL_ORDER: one that needs the control cluster waits for its return (R16, R19). -/
def State.regOrder (s : State) (m : Mgr) (n : Fin 128) (o : Order) (rival : Option Order) (deviceHold : Bool) : State :=
  let s := s.modCtl n fun c => { c with ordRes := c.ordRes.set m { status := 0, done := false, order := o.code } }
  if s.dev.ccAbsent && o.loosens then s.wait (.reg m o) n .order else s.order (.reg m o) m n o rival deviceHold

/-- Register orders that waited for the control cluster. -/
def State.waitedOrders (s : State) : State :=
  let l := s.awaits.filter fun a => a.kind = AwaitKind.order
  let s := { s with awaits := s.awaits.filter fun a => decide (a.kind ≠ AwaitKind.order) }
  s.forAll l fun a s => match a.who, fin? 128 a.ch with
    | .reg m o, some n => s.order a.who m n o none false
    | _, _ => s

/-! ## CH_STATUS (R229) -/

/-- CHn_CTL_STATE, CHn_STN_EPOCH, CHn_WDG_STAT and the proof time left. -/
def State.chStatus (s : State) (n : Fin 128) : List Byte :=
  leBytes 4 (s.ctlState n) ++ leBytes 4 (s.st n).epoch.toNat ++ leBytes 4 (s.wdgStat n) ++ leBytes 4 (s.proofLeft n)

end Sys2Proof.Machine
end

