-- ==== Sys2Proof/Machine/PoolOps.lean ====
section
/-! DEFINITION. Operations on impressions and the pool that several commands share: units leaving and returning service
(R103), plates that become BAD by their stored object (R106), DAMAGED impressions (R92), the 7-channel layout (R104). -/

namespace Sys2Proof.Machine

/-! ## Units (R103): the spec gives kinds and reasons no numbers (log entry 32) -/

def unitLane : Nat := Config.eventWord 0
def unitPipe : Nat := Config.eventWord 1
def unitPool : Nat := Config.eventWord 2
def unitImage : Nat := Config.eventWord 3
def unitBurin : Nat := Config.eventWord 4

/-- Reasons of UNIT_OUT: a failed known-answer test, a digest that a second lane corrected, TAKE_OUT, a channel's failure, the PLL. -/
def outTest : Nat := Config.eventWord 16
def outDigest : Nat := Config.eventWord 17
def outTaken : Nat := Config.eventWord 18
def outChannel : Nat := Config.eventWord 19
def outPll : Nat := Config.eventWord 20
/-- Training of a pool channel failed. -/
def outTraining : Nat := Config.eventWord 21

/-- A unit leaves service: event UNIT_OUT. -/
def State.unitOut (s : State) (kind index reason : Nat) : State := s.raise 0x0804 devCh [kind, index, reason]

/-- A unit returns: event UNIT_RETURNED. -/
def State.unitBack (s : State) (kind index : Nat) : State := s.raise 0x0805 devCh [kind, index]

/-- Hash lane i leaves service. -/
def State.laneOut (s : State) (i : Fin 40) (reason : Nat) : State :=
  if s.farm.lanes.getLsbD i.1 then
    { s with farm := { s.farm with lanes := putBit s.farm.lanes i.1 false } }.unitOut unitLane i.1 reason
  else s

/-- Number of bits set. -/
def popCount {w : Nat} (x : BitVec w) : Nat := ((List.range w).filter fun i => x.getLsbD i).length

/-- An AES pipeline leaves service; a shared one is bound in the place of a bound one (R103). DESIGN CHOICE (log entry 90): the
lowest-numbered shared one. -/
def State.pipeOut (s : State) (i : Fin 12) (reason : Nat) : State :=
  if s.farm.aesIn.getLsbD i.1 then
    let inn := putBit s.farm.aesIn i.1 false
    let bound := putBit s.farm.aesBound i.1 false
    let bound := if s.farm.aesBound.getLsbD i.1 then
        match (List.range 12).find? fun j => inn.getLsbD j && !bound.getLsbD j with
        | some j => putBit bound j true
        | none => bound
      else bound
    { s with farm := { s.farm with aesIn := inn, aesBound := bound } }.unitOut unitPipe i.1 reason
  else s

/-- An AES pipeline returns: shared, or bound where fewer than eight are. -/
def State.pipeBack (s : State) (i : Fin 12) : State :=
  let f := s.farm
  let bound := if popCount f.aesBound < 8 then putBit f.aesBound i.1 true else f.aesBound
  { s with farm := { f with aesIn := putBit f.aesIn i.1 true, aesBound := bound } }.unitBack unitPipe i.1

def State.modFarm (s : State) (f : Farm → Farm) : State := { s with farm := f s.farm }

/-- A known-answer test failed: LAST_FAILED, FAILS and a VERIFY_FAIL record. -/
def State.katFailed (s : State) (code : Nat) : State :=
  (s.modFarm fun f => { f with lastFailed := BitVec.ofNat 8 code, fails := satInc f.fails }).log 0x0020 devCh
    [stDigestMismatch.toNat, 0, 0, code]

/-! ## Plates that become BAD by a stored object (R106) -/

/-- A plate of this state can become BAD. -/
def PState.canBad : PState → Bool
  | .staged | .proof | .active | .previous | .rejected => true
  | .empty | .staging | .bad => false

/-- The BAD commit of some plates of channel n; a plate on proof ends its proof. It waits only for the supply. -/
def State.plateBad (s : State) (n : Fin 128) (ps : List PlateId) (st : Status) : State :=
  if s.noCommit then
    { s with led := { s.led with waiting := s.led.waiting ++ ps.map fun p => .plateBad n.1 p st.toNat } }
  else
    let t := s.plates n
    let t' := ps.foldl (fun x p => if (x.get p).state.canBad then x.withState p .bad else x) t
    let s := s.commitPlates n t' pcBad
    if t.onProof ≠ t'.onProof then s.modPlt n fun x => { x with deadline := none, accepted := none, firstExpiry := none } else s

/-- Every plate on every channel that names a pool object becomes BAD, in ascending channel order. -/
def State.objectBad (s : State) (fam root : List Byte) (st : Status) : State :=
  s.forChans fun n s =>
    let t := s.plates n
    match [PlateId.a, .b, .recov].filter fun p =>
      let x := t.get p
      x.state.canBad && x.src = 1 && x.family = fam && x.root = root with
    | [] => s
    | ps => s.plateBad n ps st

/-! ## DAMAGED (R92) -/

/-- A list of leaves with one more. -/
def addLeaf (l : List Nat) (leaf : Nat) : List Nat := if l.contains leaf then l else l ++ [leaf]

/-- The impression becomes DAMAGED for a leaf that its source cannot supply: the event, a record, and its plates BAD. -/
def State.damage (s : State) (i : Fin 256) (leaf : Nat) : State :=
  let e := s.dirE i
  let s := s.modDir i fun e => { e with state := .damaged, badLeaves := addLeaf e.badLeaves leaf }
  let s := (s.raise 0x0304 devCh [i.1, leaf]).log 0x0010 devCh [3, i.1, ofLe e.family, ofLe e.root]
  match e.source with
  | .pool => s.objectBad e.family e.root stImageIncomplete
  | .flash ch p => match fin? 128 ch with
    | some n =>
      let x := (s.plates n).get p
      if x.state.canBad && x.src = 2 && x.family = e.family && x.root = e.root then s.plateBad n [p] stImageIncomplete else s
    | none => s

/-- Drop one leaf's lines from the front cache. -/
def State.dropLeaf (s : State) (i : Fin 256) (leaf : Nat) : State :=
  { s with fca := { s.fca with lines := s.fca.lines.filter fun l => !(l.1 = i.1 && l.2 / 64 = leaf) } }

/-! ## Pool channels (R99, R103) -/

def State.modPoolAll (s : State) (f : Pool → Pool) : State := { s with pool := f s.pool }

/-- Pool channel k leaves service. -/
def State.poolOut (s : State) (k : Fin 16) (reason : Nat) : State :=
  (s.modPool k fun x => { x with state := 3 }).unitOut unitPool k.1 reason

/-- A new stripe can be written: three channels that take writes, no low-supply inhibit (R99, R100, R102). -/
def State.poolWrites (s : State) : Bool := !s.poolFull && !s.inhibited

/-- One block of channel k is retired as grown-bad and a spare takes its place; POOL_SPARE_LOW when the reserve falls below 1 % (R100). -/
def State.retireBlock (s : State) (k : Fin 16) : State :=
  let old := vget s.pool.chans k
  let s := s.modPool k fun x => { x with grown := satInc x.grown, spare := x.spare - 1 }
  let new := vget s.pool.chans k
  if 1 ≤ old.sparePct && new.sparePct < 1 then s.raise 0x0808 devCh [k.1, new.sparePct] else s

/-- A weak page of channel k is rewritten (R101). -/
def State.refreshPage (s : State) : State := s.modPoolAll fun p => { p with refreshed := satInc p.refreshed }

/-- Pool work that programs or erases: done, or waiting while low-supply inhibit is in force (R102). -/
def State.poolDo (s : State) (w : PoolWork) : State :=
  if s.inhibited then s.modPoolAll fun p => { p with waiting := p.waiting ++ [w] }
  else match w with
    | .refresh _ => s.refreshPage
    | .retire k => match fin? 16 k with
      | some k => s.retireBlock k
      | none => s
    | .move k pe => match fin? 16 k with
      | some k => s.modPool k fun x => { x with maxPe := BitVec.ofNat 16 pe }
      | none => s

/-- The work that waited for the supply, in its order. -/
def State.flushPool (s : State) : State :=
  let l := s.pool.waiting
  State.forAll (s.modPoolAll fun p => { p with waiting := [] }) l fun w s => s.poolDo w

/-- Leaves of an object that a take rebuilt from parity, counted on their channels (R99, R103). -/
def State.countRebuilt (s : State) (o : PoolObj) (ev : TakeEv) : State :=
  s.forAll ((List.range (manLeaves o.man)).filter fun i => !s.leafReads o ev i) fun i s => match fin? 16 (o.chanOf i) with
    | some k => s.modPool k fun x => { x with rebuilt := satInc x.rebuilt }
    | none => s

/-! ## The 7-channel layout (R104) -/

/-- The impressions that are to be retaken, by descending reference count. DESIGN CHOICE (log entry 90): of equal counts, in the order of the
directory. -/
def State.lostOrder (s : State) : List (Fin 256) :=
  ordered (fun i j => s.refs j ≤ s.refs i) ((List.finRange 256).filter fun i => (s.dirE i).lost)

/-- Those that the free extents of the layout cannot hold, served in the order of lostOrder. -/
def State.noRoom (s : State) : List (Fin 256) :=
  let kept := s.extentsHeld fun i => !(s.dirE i).lost
  (s.lostOrder.foldl (fun (a : Nat × List (Fin 256)) i =>
    let e := extentsOf (s.dirE i).leaves.toNat
    if a.1 + e ≤ s.totalExtents then (a.1 + e, a.2) else (a.1, a.2 ++ [i])) (kept, [])).2

/-- Evict idle impressions while the layout cannot hold the rest. -/
def State.evictForLayout : Nat → State → State
  | 0, s => s
  | fuel + 1, s =>
    if s.extentsHeld (fun _ => true) ≤ s.totalExtents then s
    else match s.evictee with
      | some j => evictForLayout fuel (s.freeEntry j 2)
      | none => s

/-- Evict idle impressions until `need` extents are free. -/
def State.evictFor (need : Nat) : Nat → State → State
  | 0, s => s
  | fuel + 1, s =>
    if need ≤ s.freeExtents then s
    else match s.evictee with
      | some j => evictFor need fuel (s.freeEntry j 2)
      | none => s

/-- Hold every channel bound to impression i (R104 step 3). -/
def State.holdBound (s : State) (i : Fin 256) : State :=
  s.forChans fun n s =>
    if (s.ch n).bound = some i.1 then
      let s := s.raise 0x010A n.1 [i.1]
      if (s.ch n).state.live then s.hold n .impressionLost .impressionLost none else s
    else s

/-- KEEP blocks are restored from the pool, SCRATCH blocks set to 0xFF: each line lies on all eight channels (R104). -/
def State.areasLost (s : State) : State :=
  s.forChans fun n s =>
    let blocks := List.range ((s.profOf n).keepBlk * 16)
    let s := s.modAreas n fun x => { blocks.foldl (fun x b => x.restoreBlock s.keys.keepSalt b) x with scratch := [] }
    s.forAll blocks fun b s => s.raise 0x0108 n.1 [b]

end Sys2Proof.Machine
end

