-- ==== Sys2Proof/Machine/OtpOps.lean ====
section
/-! DEFINITION. The fuse array (R275-R293): regions, reads at both margins, resolution, the shadow, the part's resources, the
lifecycle, revocations and usable keys. -/

namespace Sys2Proof.Machine

/-! ## Regions (R278): 0 VARIANT, 1 FACTORY, 2 IDENTITY, 3 VENDOR, 4 OWNER, 5 LIFECYCLE -/

/-- Base word of a region. -/
def otpBase (r : Nat) : Nat := [0x000, 0x010, 0x030, 0x060, 0x0B0, 0x120].getD r 0

/-- Data words of a region. -/
def otpWords (r : Nat) : Nat := [7, 16, 36, 72, 100, 2].getD r 0

/-- First digest word of a region other than LIFECYCLE. -/
def otpDigestAt (r : Nat) : Nat := otpBase r + otpWords r

/-- Lock word of a region other than LIFECYCLE. -/
def otpLockAt (r : Nat) : Nat := otpDigestAt r + 4

/-- Words of a region with its digest and lock. -/
def otpSpan (r : Nat) : Nat := if r = 5 then 2 else otpWords r + 5

/-- A word at NORMAL margin. -/
def Otp.n (o : Otp) (a : Nat) : Word := (SMap.get? o.normal a).getD 0

/-- A word at STRICT margin: no bit reads 1 at STRICT and 0 at NORMAL (R276). -/
def Otp.s (o : Otp) (a : Nat) : Word := (SMap.get? o.strict a).getD 0 &&& o.n a

/-- A word of the shadow. -/
def Otp.shadowAt (o : Otp) (a : Nat) : Word := (SMap.get? o.shadow a).getD 0

/-- Little-endian bytes of a run of words. -/
def wordBytes (f : Nat → Word) (a k : Nat) : List Byte := (List.range k).flatMap fun i => leBytes 4 (f (a + i)).toNat

/-- The digest of a region (R278): the first 16 bytes of SHA-384 over its label, ID and data words at NORMAL margin. -/
def Otp.digest (o : Otp) (r : Nat) : List Byte :=
  (Config.sha384 (ascii "SKD-OTP" ++ [BitVec.ofNat 8 r] ++ wordBytes o.n (otpBase r) (otpWords r))).toList.take 16

/-- Word i of a region's computed digest. -/
def Otp.digestWord (o : Otp) (r i : Nat) : Word := BitVec.ofNat 32 (leAt (o.digest r) (4 * i) 4)

/-- A lock bit of the region reads 1 at NORMAL margin. -/
def Otp.locked (o : Otp) (r : Nat) : Bool := r ≠ 5 && (o.n (otpLockAt r)).toNat % 8 ≠ 0

/-- Bits of a range that read differently at the two margins. -/
def Otp.weakBits (o : Otp) (a k : Nat) : Nat := ((List.range k).map fun i => popCount (o.n (a + i) &&& ~~~o.s (a + i))).sum

/-- resolve of R281. -/
def Otp.resolve (o : Otp) (r : Nat) : RegionState :=
  let dig := fun i => o.n (otpDigestAt r + i)
  if (List.range (otpSpan r)).all fun i => o.n (otpBase r + i) = 0 then .blank
  else if !o.locked r then
    if (List.range 4).all fun i => dig i = 0 then .open_
    else if (List.range 4).all fun i => dig i &&& ~~~o.digestWord r i = 0 then .finalising else .failed
  else if !((List.range 4).all fun i => dig i = o.digestWord r i) then .failed
  else if o.weakBits (otpBase r) (otpSpan r) = 0 then .good
  else if r = 2 ∧ o.weakBits (otpBase 2) 12 ≠ 0 then .failed
  else .marginal

/-- LIFECYCLE reads GOOD, or MARGINAL where the margins differ. -/
def Otp.regionAt (o : Otp) (r : Nat) : RegionState :=
  if r = 5 then (if o.weakBits (otpBase 5) 2 = 0 then .good else .marginal) else o.resolve r

/-- Codes of OTP_RSTAT. -/
def RegionState.code : RegionState → Nat
  | .blank => 0 | .open_ => 1 | .finalising => 2 | .good => 3 | .marginal => 4 | .failed => 5

/-- The region is used with its resolved values. -/
def RegionState.ok : RegionState → Bool
  | .good | .marginal => true
  | _ => false

/-! ## Lifecycle and revocation (R291, R293) -/

/-- A LIFECYCLE bit counts as blown if any of its copies reads 1 at either margin. -/
def lcBits (w : Word) (lo0 lo1 lo2 width : Nat) : Nat :=
  field w.toNat (lo0 + width - 1) lo0 ||| field w.toNat (lo1 + width - 1) lo1 ||| field w.toNat (lo2 + width - 1) lo2

/-- State code of the transition bits: the highest blown one. -/
def lcState (bits : Nat) : Nat := if bit bits 2 then 3 else if bit bits 1 then 2 else if bit bits 0 then 1 else 0

/-- Transition bits of a LIFECYCLE word 0. -/
def lcTransitions (w : Word) : Nat := lcBits w 0 4 8 3

/-- The lifecycle in effect: 0 RAW, 1 DEV, 2 PROD, 3 RETIRED (R277, R291). -/
def Otp.lifecycle (o : Otp) : Nat := lcState (lcTransitions (o.shadowAt (otpBase 5)))

/-- Firmware keys revoked, from the command's completion onwards (R293). -/
def Otp.fwRevoked (o : Otp) : Nat := lcBits (o.n (otpBase 5)) 16 20 24 4

/-- Owner entries revoked. -/
def Otp.ownRevoked (o : Otp) : Nat := lcBits (o.n (otpBase 5 + 1)) 0 4 8 4

/-- Debug is available (R291, R292). -/
def State.debugOn (s : State) : Bool := s.otp.lifecycle = 1 && s.part.debug && !s.otp.debugLeft

/-! ## Keys (R280, R282) -/

/-- 48 bytes of a key digest from word a of the shadow. -/
def Otp.digestAt (o : Otp) (a : Nat) : List Byte := wordBytes o.shadowAt a 12

/-- ECDSA and ML-DSA-65 digests of firmware key k. -/
def Otp.fwKeyOf (o : Otp) (k : Nat) : List Byte × List Byte :=
  if k = 0 then (Config.romKey.1.toList, Config.romKey.2.toList)
  else let a := otpBase 3 + 24 * (k - 1); (o.digestAt a, o.digestAt (a + 12))

/-- Firmware key k is present and not revoked; in RAW only key 0 signs (R291). -/
def Otp.fwUsable (o : Otp) (k : Nat) : Bool :=
  !bit o.fwRevoked k && (k = 0 || (k ≤ 3 && (o.region? 3).ok && !o.fwUnusable.getLsbD k && o.lifecycle ≠ 0))

/-- Digests of owner entry k. -/
def Otp.ownKeyOf (o : Otp) (k : Nat) : List Byte × List Byte :=
  let a := otpBase 4 + 25 * k; (o.digestAt a, o.digestAt (a + 12))

/-- Roles of owner entry k: bit 0 POLICY, bit 1 KMK. -/
def Otp.ownRoles (o : Otp) (k : Nat) : Nat := field (o.shadowAt (otpBase 4 + 25 * k + 24)).toNat 1 0

/-- Owner entry k is present, usable and not revoked. -/
def Otp.ownUsable (o : Otp) (k : Nat) : Bool :=
  (o.region? 4).ok && k < 4 && !bit o.ownRevoked k && !o.ownUnusable.getLsbD k &&
  !((o.ownKeyOf k).1.all (· = 0) && (o.ownKeyOf k).2.all (· = 0))

/-- A signature block by a key with these digests over these bytes: the ECDSA part, and the ML-DSA-65 part where it is asked for. -/
def SigBlock.by (g : SigBlock) (key : List Byte × List Byte) (body : List Byte) (pq : Bool) : Bool :=
  (Config.sha384 g.ecKey).toList = key.1 && Config.ecdsaOk g.ecKey body g.ecSig &&
  (!pq || ((Config.sha384 g.pqKey).toList = key.2 && Config.mldsaOk g.pqKey body g.pqSig))

/-- The voted LKS (R279 class V): the bitwise majority of its three copies at NORMAL margin. -/
def Otp.lks (o : Otp) : List Byte :=
  let w := fun c i => o.n (otpBase 2 + 12 + 8 * c + i)
  (List.range 8).flatMap fun i => leBytes 4 ((w 0 i &&& w 1 i) ||| (w 0 i &&& w 2 i) ||| (w 1 i &&& w 2 i)).toNat

/-- CHECK of a ledger record (R107): the first 8 bytes of HMAC-SHA-384 under the ledger key. -/
def State.ledgerCheck (s : State) (rec : List Byte) : List Byte :=
  (Config.hmac384 (Config.ledgerKey s.otp.lks) rec).toList.take 8

/-! ## The shadow (R277, R279, R281, R282) -/

/-- A byte field of class D: its NORMAL value, or the restrictive one where the margins differ. -/
def classD (n s : Word) (hi lo restr : Nat) : Nat :=
  if field n.toNat hi lo = field s.toNat hi lo then field n.toNat hi lo <<< lo else restr <<< lo

/-- The resolved word at offset i of region r, read as n and s; `whole`: PHY_TRIM, one field of eight words, reads alike at both margins. -/
def otpResolved (r i : Nat) (n s : Word) (whole : Bool) : Word :=
  match r, i with
  | 0, 0 => (n &&& 0xFFFEFFFF) ||| (s &&& 0x00010000)
  | 1, 0 => BitVec.ofNat 32 (classD n s 7 0 0 + classD n s 15 8 0x80 + classD n s 23 16 0)
  | 1, 1 => BitVec.ofNat 32 (classD n s 7 0 19 + classD n s 15 8 184)
  | 1, i => if i ≤ 7 then s else if whole then n else Config.phyMid
  | 2, _ => 0
  | 4, i => if i % 25 = 24 then s else n
  | _, _ => n

/-- The word at offset i of region r in a region that R281 does not accept (R282). -/
def otpDefault (r i : Nat) (st : RegionState) (n : Word) : Word :=
  match r with
  | 0 => if i = 0 then 0x00003337 else n
  | 1 => if i = 0 then 0x00008000 else if i = 1 then 0x0000B813 else if i ≤ 7 then 0 else Config.phyMid
  | 2 => 0
  | 3 => 0
  | _ => if st = .failed then 0 else n

/-- The shadow word at offset i of region r. In lifecycle RAW a region is used as it reads. -/
def Otp.shadowWord (o : Otp) (lc r i : Nat) (st : RegionState) : Word :=
  let n := o.n (otpBase r + i)
  let s := o.s (otpBase r + i)
  if r = 5 || otpWords r ≤ i then (if r = 2 && i < 40 then 0 else n)
  else if st.ok || lc = 0 then otpResolved r i n s (o.weakBits (otpBase 1 + 8) 8 = 0) else otpDefault r i st n

/-- Entries of 24 or 25 words, of which the first 24 differ somewhere at the two margins. -/
def Otp.unusable (o : Otp) (base stride count first : Nat) : BitVec 4 :=
  BitVec.ofNat 4 (pack ((List.range count).map fun k => (k + first, bval (o.weakBits (base + stride * k) 24 ≠ 0))))

/-- Graver fills the shadow (R277). -/
def Otp.fill (o : Otp) : Otp :=
  let lc := lcState (lcTransitions (o.n (otpBase 5)))
  let rs := Vector.ofFn fun r : Fin 6 => o.regionAt r.1
  let words := (List.range 6).flatMap fun r =>
    (List.range (otpSpan r)).map fun i => (otpBase r + i, o.shadowWord lc r i (o.regionAt r))
  { o with
    shadow := words.filter fun w => w.2 ≠ 0, regions := rs,
    marg := BitVec.ofNat 16 (min 0xFFFF ((List.range 6).map fun r => o.weakBits (otpBase r) (otpSpan r)).sum),
    fwUnusable := o.unusable (otpBase 3) 24 3 1, ownUnusable := o.unusable (otpBase 4) 25 4 0,
    lpoUnusable := (!(o.regionAt 1).ok && lc ≠ 0) || field (o.n 0x10).toNat 7 0 ≠ field (o.s 0x10).toNat 7 0,
    state := 0, repulses := 0, pulses := 0, failed := 0, debugLeft := false, pumpOnly := false }

/-- What VARIANT word 0 enables (R280, R285). -/
def partOf (w : Word) : Part :=
  let hosts := if w.getLsbD 2 then 16 else if w.getLsbD 1 then 32 else if w.getLsbD 0 then 64 else 128
  { hosts := hosts, fps := min hosts (if w.getLsbD 5 then 0 else if w.getLsbD 4 then 32 else 64),
    pools := if w.getLsbD 9 then 4 else if w.getLsbD 8 then 8 else 16, pcie1 := !w.getLsbD 12, pq := !w.getLsbD 13,
    debug := w.getLsbD 16 }

/-- SHADOW (R277, R281): regions resolved, resources set, events for MARGINAL and FAILED regions; the clocks have locked (R307). -/
def State.shadowStep (s : State) : State :=
  let o := s.otp.fill
  let s := { s with otp := o, part := partOf (o.shadowAt 0), clk := { s.clk with fabric := true, mem := true, pool := true, lpoTrimmed := !o.lpoUnusable } }
  s.forAll (List.range 5) fun r s =>
    match o.region? r with
    | .marginal => s.raise 0x0702 devCh [r]
    | .failed => s.raise 0x0703 devCh [r]
    | _ => s

end Sys2Proof.Machine
end

