-- ==== Sys2Proof/Machine/ResetOps.lean ====
section
/-! DEFINITION. Device-wide resets (R304), SAFE_HOLD (R141), the control cluster's restart (R16), the device firmware's plates
(R122-R124) and the internal ladder (R164). -/

namespace Sys2Proof.Machine

/-! ## SAFE_HOLD and control-cluster restart -/

/-- Enter SAFE_HOLD (R141): every channel under a DEVICE hold, FAIL# asserted, nothing more released. -/
def State.enterSafeHold (s : State) : State :=
  if s.dev.state = .safeHold then s
  else
    let s := { s with dev := { s.dev with safeLatch := true }, plat := { s.plat with queue := [], late := [], ranksActive := false } }
    (s.keepLines.deviceHoldAll.setDev .safeHold).assertFail

/-- SPDM begins again from GET_VERSION on every endpoint (R188); the Ovdel versions of the MCTP endpoints stay. -/
def Endpoint.restart (e : Endpoint) : Endpoint := { Endpoint.reset with ovdel := e.ovdel, answers := e.answers }

/-- End every SPDM session. -/
def State.endSessions (s : State) : State := { s with spdm := s.spdm.map Endpoint.restart }

/-- The jobs of the queues, to be taken up again from their SQ copies (R217, R19). -/
def Burin.again (b : Burin) : List BurinJob :=
  ((b.cores.toList.flatMap fun c => c.job.toList ++ c.susp) ++ b.waiting).map fun j => { j with loaded := false, key := [], ran := 0 }

/-- Burin at a warm reset: contexts are lost. -/
def Burin.warm (b : Burin) : Burin := { Burin.reset with waiting := b.again, nextId := b.nextId }

/-- Burin at a control-cluster restart: the managers' jobs leave the cores, to be done again after it (R19). -/
def Burin.ccRestart (b : Burin) : Burin :=
  { b with
    waiting := b.again,
    cores := b.cores.map fun c =>
      { c with job := none, susp := [], state := if c.state = 1 then 0 else c.state,
               lastOwner := match c.job with | some j => j.owner | none => c.lastOwner } }

/-- A control-cluster restart (R16, R164): the cluster is absent until CC_RESTART_DONE; before START the boot ROM begins again. -/
def State.ccRestart (s : State) (cause : Nat) : State :=
  let s := s.endSessions.raise 0x080F devCh [Config.eventWord (64 + cause)]
  match s.dev.state with
  | .rom | .deviceRecovery => { s.setDev .rom with plat := { s.plat with failOn := false, failUntil := none } }
  | .por | .shadow => s
  | .start | .running | .safeHold | .standby =>
    { s with dev := { s.dev with ccAbsent := true }, otp := { s.otp with busy := none, state := 0 }, burin := s.burin.ccRestart }

/-! ## Device reset (R304) -/

/-- A channel at a warm reset (R129, R141): OFF unless QUARANTINED or SAFE; unbound; nothing of it waits. -/
def State.warmChan (s : State) (n : Fin 128) : State :=
  let st := (s.ch n).state
  let s := if st = .quarantined || st = .safe || st = .off then s else s.transition n .off .device
  s.modCtl n fun c =>
    { c with kind := .none, holdWait := false, seq := none, pgTmoAt := none, relAsked := false, bound := none, plate := none,
             pins := [], sel := none, firstRelease := true, standbyRun := false, ranked := false, releases := 0, holds := 0,
             tagTotal := 0 }

/-- A plate table's volatile companions at a device start: staged bytes, local confirmation and proof timing go (R110). -/
def PlateSt.restart (x : PlateSt) : PlateSt :=
  { x with staging := { a := .reset, b := .reset, recov := .reset }, confirmed := { a := false, b := false, recov := false },
           challenge := 0, deadline := none, accepted := none, firstExpiry := none, show_ := 0, revertNext := false, revertWaits := false, absentFail := none }

/-- A watchdog at a warm reset: arming and locked values stay; it does not count. -/
def Wdg.warm (w : Wdg) : Wdg :=
  { w with counting := false, frozen := none, viols := 0, vEarly := 0, vBad := 0, ext := 0, extUsed := false, key := [] }

/-- The areas at a device start: image memory is gone, KEEP is restored from the pool at TAKING (R97). -/
def Areas.restart (a : Areas) : Areas := { Areas.reset with copies := a.copies }

/-- A page header at a warm reset: RW fields, shadows and results return to their reset values (R11, R246). -/
def Hdr.warm (h : Hdr) : Hdr := { h with view := false, irqEn := 0, result := 0, shdErr := 0 }

/-- A manager's hash work at a device start: contexts are closed, its jobs run again (R196, R217). -/
def HashWork.restart (h : HashWork) : HashWork := { HashWork.reset with jobs := h.jobs.map fun j => { j with again := true } }

/-- The rings of a manager at a warm reset: queues and positions stay, RNG_QSEL returns to its reset value (R11, R217). -/
def Ring.warm (r : Ring) : Ring := { r with qselQid := 0, qselCq := false }

/-- The key store at a device start (R258): the vault stays, and the descriptors of OWNER slots that it does not hold. -/
def KeyStore.restart (k : KeyStore) : KeyStore :=
  let slot := fun (k : Fin 256) (x : KeySlot) =>
    if ownerSlot k.1 && x.type ≠ 0 && !x.persist then { x with material := none, uses := 0, stamp := x.stamp + 1 } else { KeySlot.empty with stamp := x.stamp + 1 }
  { KeyStore.reset with vault := k.vault, rawCounter := k.rawCounter, slots := Vector.ofFn fun i : Fin 256 => slot i (vget k.slots i) }

/-- A view at a warm reset: RW fields and latches return to their reset values, and what counts since start begins again. -/
def View.warm (v : View) : View :=
  { v with irqVector := 0, irqEn := false, latch := [], held := [], wake := false, retrains := 0, dmaErr := 0 }

/-- What a device warm reset clears (R304): the reset is a device start, so that what the registers count since start begins again. The
manager watchdogs' state is kept. -/
def State.warmClear (s : State) : State :=
  let s := s.sinkAll.forChans fun n s => s.warmChan n
  { s.endSessions with
    ports := s.ports.map fun p => { p.hostReset none with reply := [], cutEnd := none },
    mbx := Vector.replicate 128 Mailbox.reset,
    stn := s.stn.map fun t => { Stencil.reset with overlay := t.overlay },
    plt := s.plt.map PlateSt.restart, wdg := s.wdg.map Wdg.warm, areas := s.areas.map Areas.restart,
    fps := Vector.replicate 64 FlashPort.reset, imm := ImageMem.reset, fca := FrontCache.reset, farm := Farm.reset,
    pool := { Pool.reset with objs := s.pool.objs }, plat := Platform.reset,
    devfw := { s.devfw with claim := none, deadline := none, onProof := false },
    intw := { s.intw with halted := false },
    att := { Attest.reset with certs := s.att.certs },
    views := { a := s.views.a.warm, b := s.views.b.warm },
    hdrs := s.hdrs.map fun p => { a := p.a.warm, b := p.b.warm },
    burin := s.burin.warm,
    hash := { a := s.hash.a.restart, b := s.hash.b.restart }, rings := { a := s.rings.a.warm, b := s.rings.b.warm },
    drbg := Drbg.reset, keys := s.keys.restart,
    tamper := { s.tamper with trips := 0, burnishes := 0 }, trace := { s.trace with gaps := 0, unreadLost := 0 },
    otp := { s.otp with busy := none, state := 0, repulses := 0, pulses := 0, failed := 0 },
    power := { s.power with sel := 0, calSel := 0, seen := 0, warns := 0 },
    led := { s.led with
      ready := false, commits := 0, checkFail := 0, conflict := 0,
      waiting := s.led.waiting.filter fun w => match w with | .watchdog _ => true | _ => false },
    dev := { s.dev with ccAbsent := false, clockHeld := false, cold := false } }

/-- A device warm reset (R304): GLB_RST shows the cause (none leaves it), WARM counts, and the device is in a state before START. -/
def State.warmInto (s : State) (cause : Option Nat) (d : DevState) : State :=
  let s := s.warmClear
  { s with dev := { s.dev with resetCause := match cause with | some c => BitVec.ofNat 4 c | none => s.dev.resetCause,
                               warm := satInc s.dev.warm } }.setDev d

/-- A warm reset whose start begins at SHADOW. -/
def State.warmReset (s : State) (cause : Option Nat) : State := s.warmInto cause .shadow

/-- The rings of one manager after a cold reset: the half is disabled, what the device had sent stays sent. -/
def View.cold (v : View) : View := { View.reset with out := v.out }

/-- A device cold reset (R304): only what the ledger, the fuses, the pool, the local flash and the pins hold stays. -/
def State.coldReset (s : State) (cause : Nat) : State :=
  { State.reset with
    ctl := s.ctl.map fun c => { Ctl.reset with pgood := c.pgood },
    polLedger := s.polLedger, polMin := s.polMin, tamperPol := s.tamperPol, cfgImg := s.cfgImg, mins := s.mins,
    stn := s.stn.map fun t => { Stencil.reset with overlay := t.overlay },
    plt := s.plt.map fun x => { PlateSt.reset with table := x.table, localMan := x.localMan },
    wdg := s.wdg.map fun w => { Wdg.reset with shown := w.ledger, ledger := w.ledger },
    areas := s.areas.map Areas.restart, pool := { Pool.reset with objs := s.pool.objs },
    devfw := { s.devfw with claim := none, deadline := none, onProof := false },
    intw := { IntWdg.reset with consec := s.intw.consec, total := s.intw.total, ltime := s.intw.ltime, src := s.intw.src, step := s.intw.step },
    trace := { Tracing.reset with hdr := s.trace.hdr, ring := s.trace.ring, mark := s.trace.mark },
    att := { Attest.reset with certs := s.att.certs },
    views := { a := s.views.a.cold, b := s.views.b.cold },
    keys := s.keys.restart,
    tamper := { Tamper.reset with ledger := s.tamper.ledger },
    otp := { Otp.reset with normal := s.otp.normal, strict := s.otp.strict, vppOk := s.otp.vppOk, pumpReady := s.otp.pumpReady },
    power := { s.power with inhibit := false, pwrWarn := false, warn := 0, sel := 0, calSel := 0, seen := 0, warns := 0 },
    dev := { Device.reset with resetCause := BitVec.ofNat 4 cause, startCount := s.dev.startCount, zeroised := s.dev.zeroised },
    led := { Ledger.reset with keyCheck := s.led.keyCheck, mapRoot := s.led.mapRoot, last := s.led.last }, drawn := s.drawn, pending := s.pending }

/-! ## Device firmware (R122-R124) -/

/-- The device's plate table in use (R109). -/
def State.fwTable (s : State) : PTable := (s.devfw.table.cur).getD PTable.empty

/-- Kinds of a DEVICE record other than a state change; the numbers are the model's (log entry 33): 0x10 stage, 0x11 proof,
0x12 acceptance, 0x13 revert, 0x14 fallback entry, 0x15 fallback exit. -/
def State.logDevice (s : State) (kind : Nat) (x : Nat) : State := s.log 0x0005 devCh [kind, x]

/-- Commit the device's plate table (R108). -/
def State.commitFwTable (s : State) (t : PTable) : State :=
  { s with devfw := { s.devfw with table := s.devfw.table.commit { t with conflict := s.devfw.table.tied } } }.committed

/-- Commit the device's plate table unless nothing changes and no conflict is to be resolved. -/
def State.commitFw (s : State) (t : PTable) : State :=
  if t = s.fwTable && !s.devfw.table.tied then s else s.commitFwTable t

/-- The stored package of a plate. -/
def State.fwPkg (s : State) (p : PlateId) : SMap Byte := if p = .a then s.devfw.pkgA else s.devfw.pkgB

/-- Bytes of a stored package; a byte that nothing has written is 0xFF. -/
def fwBytes (m : SMap Byte) (off len : Nat) : List Byte := (List.range len).map fun i => (SMap.get? m (off + i)).getD 0xFF

/-- The firmware key that signed a package over its 256-byte header, if a usable one did (R122, R293). -/
def State.fwSigner (s : State) (m : SMap Byte) (h : FwHeader) : Option Nat :=
  let o := 256 + h.length
  let g : SigBlock := { ecKey := fwBytes m o 97, ecSig := fwBytes m (o + 97) 96, pqKey := fwBytes m (o + 193) 1952,
                        pqSig := fwBytes m (o + 2145) 3309 }
  (List.range 4).find? fun k => s.otp.fwUsable k && g.by (s.otp.fwKeyOf k) (fwBytes m 0 256) s.part.pq

/-- DEVFW_MIN. -/
def State.fwMin (s : State) : Nat := s.minTable.devfw.toNat

/-- The checks of R122 in order. -/
def State.fwCheck (s : State) (p : PlateId) : Status :=
  let m := s.fwPkg p
  let h := Config.fwHeader (fwBytes m 0 256)
  let sigLen := if s.part.pq then 5454 else 193
  if h.magic ≠ 0x57464452 ∨ h.version ≠ 1 ∨ 2 * 1024 * 1024 < 256 + h.length + sigLen then stInvalidField
  else if (s.fwSigner m h).isNone then stSignatureFailed
  else if h.svn < s.fwMin then stVersionRollback
  else if (Config.sha384 (fwBytes m 256 h.length)).toList ≠ h.digest then stDigestMismatch
  else stSuccess

/-- A verification failure, as against a version below the minimum (R113). -/
def fwBad (st : Status) : Bool := st ≠ stSuccess && st ≠ stVersionRollback

/-- Run plate p: its key and header are those of the running firmware. -/
def State.runFw (s : State) (p : PlateId) (proof : Bool) : State :=
  let m := s.fwPkg p
  let h := Config.fwHeader (fwBytes m 0 256)
  { s with devfw := { s.devfw with running := p, onProof := proof },
           otp := { s.otp with fwKey := BitVec.ofNat 2 ((s.fwSigner m h).getD 0) },
           att := { s.att with hFw := Config.sha384 (fwBytes m 0 256) } }

/-- A table with its proof plate REJECTED. -/
def PTable.refuseProof (t : PTable) : PTable := match t.onProof with | some p => t.withState p .rejected | none => t

/-- The device's table as the boot ROM reads it (R109). -/
def State.fwReadTable (s : State) : State :=
  let x := s.devfw.table
  if x.tied then (s.commitFw s.fwTable.refuseProof).raise 0x0402 devCh [x.seq]
  else if x.lost then s.raise 0x0403 devCh [] else s

/-- The working table after the proof plate is judged: PROOF_TRIES is 2 (R123). -/
def State.fwJudge (s : State) : PTable × Bool :=
  let t := s.fwTable
  match t.onProof with
  | some p =>
    let e := t.get p
    let st := s.fwCheck p
    if st = stSuccess ∧ e.attempts.toNat < 2 then (t.set p { e with attempts := e.attempts + 1 }, true)
    else (t.withState p (if fwBad st then .bad else .rejected), false)
  | none => (t, false)

/-- The other plate of A and B. -/
def PlateId.otherAB : PlateId → PlateId
  | .a => .b
  | _ => .a

/-- PLATE_BAD for each device plate of a list that failed its verification in the candidate loop (R113). -/
def State.noteFwBad (s : State) (l : List PlateId) : State :=
  s.forAll (l.filter fun p => fwBad (s.fwCheck p)) fun p s => s.raise 0x0405 devCh [p.code, (s.fwCheck p).toNat]

/-- select of R113 on the device table, with REC absent. The plate to run, and whether it is on proof. -/
def State.fwSelect (s : State) : State × Option (PlateId × Bool) :=
  let r := s.fwJudge
  match r.2, r.1.onProof with
  | true, some p => ((s.commitFw r.1).runFw p true, some (p, true))
  | _, _ =>
    let t := r.1
    let tie := t.a.state = .active && t.b.state = .active
    let t := if tie then
        let w := tieWinner t
        (t.withState w.otherAB .previous).set w { t.get w with tie := true }
      else t
    let s := if tie then s.raise 0x0404 devCh [(tieWinner t).code] else s
    let ok := fun p => s.fwCheck p = stSuccess
    let act := [PlateId.a, .b].filter fun p => (t.get p).state = .active
    let prev := [PlateId.a, .b].filter fun p => (t.get p).state = .previous
    match (act ++ prev).find? ok with
    | some p =>
      let tried := (act ++ prev).takeWhile fun q => q ≠ p
      let t' := tried.foldl (fun x q => if fwBad (s.fwCheck q) then x.withState q .bad else x) t
      let actBad := act.any fun q => fwBad (s.fwCheck q)
      let t' := if (t.get p).state = .previous && actBad then t'.withState p .active else t'
      (((s.noteFwBad tried).commitFw t').runFw p false, some (p, false))
    | none =>
      let t' := (act ++ prev).foldl (fun x q => if fwBad (s.fwCheck q) then x.withState q .bad else x) t
      ((s.noteFwBad (act ++ prev)).commitFw t', none)

/-- DEVICE_RECOVERY (R124): every host is held, FAIL# is asserted. -/
def State.enterRecoveryDevice (s : State) : State := (s.sinkAll.setDev .deviceRecovery).assertFail

/-- The model's index of the causes of DEVICE_FW_REVERTED and of CC_RESTART: the sources of MWD_INT_STAT, then 7 deadline, 8 self-test,
9 activation; the events' own numbers are free (log entry 32). -/
def fwDeadline : Nat := 7
def fwSelftest : Nat := 8
def fwActivate : Nat := 9

/-- The device-firmware proof fails (R123): REJECTED, and the cluster restarts onto the ACTIVE plate. Without one the device
returns to DEVICE_RECOVERY (R124). Under low-supply inhibit the commit waits. -/
def State.revertFw (s : State) (cause : Nat) : State :=
  match s.fwTable.onProof with
  | none => s
  | some p =>
    let svn := (s.fwTable.get p).svn.toNat
    let s := if s.inhibited then { s with led := { s.led with waiting := s.led.waiting ++ [.devfw] } }
      else s.commitFw (s.fwTable.withState p .rejected)
    let s := { s with devfw := { s.devfw with onProof := false, deadline := none } }
    let s := (s.raise 0x0802 devCh [svn, Config.eventWord (64 + cause)]).logDevice 0x13 svn
    match [PlateId.a, .b].find? fun q => (s.fwTable.get q).state = .active with
    | some q => (s.runFw q false).ccRestart cause
    | none => s.warmClear.enterRecoveryDevice

/-- The device firmware on proof is accepted (R123): it becomes ACTIVE and the former ACTIVE plate PREVIOUS, in one record. `by_`: 0, 1
manager A or B, 2 the self-test. -/
def State.acceptFw (s : State) (by_ : Nat) : State :=
  match s.fwTable.onProof with
  | none => s
  | some p =>
    let t := s.fwTable
    let t := if (t.get p.otherAB).state = .active then t.withState p.otherAB .previous else t
    let s := s.commitFw (t.withState p .active)
    let s := { s with devfw := { s.devfw with onProof := false, deadline := none } }
    let svn := (t.get p).svn.toNat
    (s.raise 0x0803 devCh [svn, Config.eventWord (80 + by_)]).logDevice 0x12 svn

/-- A passed self-test accepts the device firmware; under low-supply inhibit the acceptance is latched, and committed when the supply
recovers, as a channel's is (R117, R123). -/
def State.selftestAccept (s : State) : State :=
  if s.inhibited then
    { s with devfw := { s.devfw with onProof := false, deadline := none }, led := { s.led with waiting := s.led.waiting ++ [.devfwAccept 2] } }
  else s.acceptFw 2

/-! ## The internal ladder (R164) -/

/-- Count an internal expiry in the ledger. -/
def State.countInternal (s : State) (src : Nat) : State :=
  { s with intw := { s.intw with src := BitVec.ofNat 3 src, consec := satInc s.intw.consec, total := satInc s.intw.total,
                                 ltime := BitVec.ofNat 64 s.now, cleanFrom := s.now } }

/-- The step that the ladder takes: k is CONSEC_INT after the rise. -/
def State.ladderStep (s : State) : Nat :=
  if s.dcfg.tries ≤ s.intw.consec.toNat then 3 else if s.intw.consec = 1 then 1 else 2

/-- Record a step: the event INT_WDG_EXPIRED and a WATCHDOG record. -/
def State.noteStep (s : State) (src step : Nat) : State :=
  let s := { s with intw := { s.intw with step := BitVec.ofNat 3 step } }
  (s.raise 0x0209 devCh [src, step, s.intw.consec.toNat]).log 0x0030 devCh [7, src, step, s.intw.consec.toNat]

/-- An internal expiry other than a main-clock loss. `cluster`: of the control-cluster watchdog or the lockstep comparison, whose
revert of device firmware on proof takes the place of steps 1 and 2 (R123). -/
def State.internalExpiry (s : State) (src : Nat) (cluster : Bool) : State :=
  let s := s.countInternal src
  let step := s.ladderStep
  let s := s.noteStep src step
  if step = 3 then s.enterSafeHold
  else if cluster && s.devfw.onProof then s.revertFw src
  else if step = 1 then s.ccRestart src
  else s.warmReset (some 3)

/-- The control-cluster watchdog and the lockstep comparison run from ROM onwards (R164). -/
def State.clusterRuns (s : State) : Bool := s.dev.state ≠ .por && s.dev.state ≠ .shadow && !s.dev.clockHeld

end Sys2Proof.Machine
end

