-- ==== Sys2Proof/Machine/ResumeOps.lean ====
section
/-! DEFINITION. What goes on when the supply or the control cluster returns (R17, R18, R300), the manager watchdogs' operations
(R160-R162) and the fallback. -/

namespace Sys2Proof.Machine

/-! ## Ledger work that waited (R300) -/

/-- Do one waiting item. Plate commits wait for the control cluster as well; what still has to wait is queued again. -/
def State.flushOne (s : State) (w : LedgerWork) : State :=
  let again := { s with led := { s.led with waiting := s.led.waiting ++ [w] } }
  match w with
  | .watchdog n => match fin? 128 n with
    | some n => if s.inhibited then again else s.modWdg n fun w => { w with ledger := w.shown, pending := false }
    | none => s
  | .accept n => match fin? 128 n with
    | some n =>
      if s.noCommit then again
      else match (s.pl n).accepted with
        | some t => s.acceptCommit n t
        | none => s
    | none => s
  | .revert n => match fin? 128 n with
    | some n =>
      if s.noCommit then again
      else
        let s := s.modPlt n fun x => { x with revertWaits := false }
        match (s.plates n).onProof with
        | some p => s.commitPlates n ((s.plates n).withState p .rejected) pcRejected
        | none => s
    | none => s
  | .release n => match fin? 128 n with
    | some n =>
      if s.noCommit then again
      else if (s.ch n).state = .safe then (s.clearConsec n).startTaking n .manager true
      else s
    | none => s
  | .plateBad n p st => match fin? 128 n with
    | some n => if s.noCommit then again else s.plateBad n [p] (BitVec.ofNat 15 st)
    | none => s
  | .devfwAccept who => if s.noCommit then again else s.acceptFw who
  | .devfw =>
    if s.noCommit then again
    else match s.fwTable.onProof with
      | some p => if s.devfw.onProof then s else s.commitFw (s.fwTable.withState p .rejected)
      | none => s

/-- Do the waiting items in the order requested. -/
def State.flushLedger (s : State) : State :=
  let l := s.led.waiting
  State.forAll { s with led := { s.led with waiting := [] } } l fun w s => s.flushOne w

/-- Selections and armings whose commit waited go on. -/
def State.resumeCommits (s : State) : State := if s.noCommit then s else s.resumeEntry 257 none

/-! ## Channels held while the control cluster was absent (R17) -/

/-- The channel is held under R17. -/
def State.heldAbsent (s : State) (n : Fin 128) : Bool := (s.ch n).state = .held && (s.ch n).seq = some .absent

/-- Settle one channel whose proof failed in the absence (R17): a proof that is still on is reverted, whatever hold the channel is under
(R129); an accepted one, held for the failure still, is re-released onto its plate, or its watchdog's own action is taken. An acceptance
that waits for the supply is settled with its commit. -/
def State.settleAbsent (s : State) (n : Fin 128) : State :=
  match (s.pl n).absentFail with
  | none => s
  | some why =>
    if s.dev.ccAbsent || (s.pl n).accepted.isSome then s
    else
      let s := s.modPlt n fun x => { x with absentFail := none }
      if s.onProof n then s.revert n why
      else if !s.heldAbsent n then s
      else if why = 2 then
        let a := s.wdgAction n (s.wd n).shown.consec.toNat
        (s.modWdg n fun w => { w with step := BitVec.ofNat 3 a.code }).takeAction n a
      else s.takeKept n .proof

/-- Every channel of R17, in ascending order. -/
def State.settleAll (s : State) : State := s.forChans fun n s => s.settleAbsent n

/-! ## Manager watchdogs (R160, R161) -/

/-- The key of manager m's watchdog; none: services are judged as SIMPLE. -/
def State.mwdKey (s : State) (m : Mgr) : Option (List Byte) :=
  if (s.mwd.get m).keyed then s.internalKey (s.dcfg.mwdSlot.get m) 6 else none

/-- The token that manager m's challenge asks for. -/
def State.mwdTokenFor (s : State) (m : Mgr) : DWord :=
  let w := s.mwd.get m
  match s.mwdKey m with
  | some k => keyedToken k w.chal w.seq (BitVec.ofNat 8 (0x80 + mgrNum m))
  | none => simpleToken w.chal w.seq

/-- A window is valid (R147). -/
def windowOk (open_ close_ : Nat) : Bool := 1 ≤ close_ && open_ < close_

/-- The number of MAIN's last tick edge: none falls while the main clock is absent (R160, R165). -/
def State.mainTick (s : State) : Nat := (if s.dev.clockHeld then s.dev.clockLostAt else s.now) / 1000

/-- The ticks of manager m's watchdog: a lost manager's has stopped (R161). -/
def State.mwdTicks (s : State) (w : Mwd) : Nat := if w.lost then w.stopped else s.mainTick - w.ref

/-- Its count c as it stands now. -/
def State.mwdCount (s : State) (m : Mgr) : Nat := s.mwdTicks (s.mwd.get m) / 2 ^ (s.mwd.get m).prescale.toNat

/-- Publish manager m's challenge; c is 0 from the next tick edge. -/
def State.mwdPublish (s : State) (m : Mgr) : State :=
  let d := s.drawChallenge
  d.2.modMwd m fun w => { w with chal := d.1, seq := w.seq + 1, ref := s.mainTick + 1 }

/-- Arm manager m's watchdog: SEQ 1. -/
def State.mwdArm (s : State) (m : Mgr) : State := (s.modMwd m fun w => { w with armed := true, lost := false, seq := 0 }).mwdPublish m

/-- R162's condition: every manager that exists is lost. -/
def State.allLost (s : State) : Bool := s.mwd.a.lost && (!s.part.pcie1 || s.mwd.b.lost)

/-- Enter or leave the fallback: event FALLBACK and a DEVICE record (R178). -/
def State.updateFallback (s : State) : State :=
  if s.dev.fallback = s.allLost then s
  else
    let f := s.allLost
    let s := { s with dev := { s.dev with fallback := f } }
    (s.raise 0x080D devCh [bval f]).logDevice (if f then 0x14 else 0x15) 0

/-- The claims of a manager end (R112, R123). -/
def State.endClaims (s : State) (m : Mgr) : State :=
  let drop := fun x : Staging => if x.claim = some (.manager m) then { x with claim := none } else x
  { s with
    plt := s.plt.map fun x => { x with staging := { a := drop x.staging.a, b := drop x.staging.b, recov := drop x.staging.recov } },
    devfw := { s.devfw with claim := if s.devfw.claim = some m then none else s.devfw.claim } }

/-- The manager becomes lost (R161). -/
def State.mwdExpire (s : State) (m : Mgr) : State :=
  let w := s.mwd.get m
  if !w.armed || w.lost then s
  else
    let s := s.modMwd m fun w => { w with lost := true, stopped := s.mwdTicks w, lostCnt := satInc w.lostCnt }
    let s := (s.raise 0x0207 devCh [mgrNum m]).log 0x0030 devCh [5, mgrNum m]
    (s.endClaims m).updateFallback

/-- A service of manager m's watchdog, or its reclaim, at its sample edge: the next tick edge (log entry 9). -/
def State.mwdService (s : State) (m : Mgr) (token : DWord) : State :=
  let w := s.mwd.get m
  let ok := decide (token = s.mwdTokenFor m)
  let c := countAt (s.mainTick + 1) w.ref w.prescale.toNat
  if !w.armed then s
  else if w.lost then
    if ok then
      let s := (s.modMwd m fun w => { w with lost := false, last := 1 }).mwdPublish m
      ((s.raise 0x0208 devCh [mgrNum m]).log 0x0030 devCh [6, mgrNum m]).updateFallback
    else s.modMwd m fun w => { w with badCnt := w.badCnt + 1 }
  else if w.close_.toNat ≤ c then s.mwdExpire m
  else if c < w.open_.toNat then (s.modMwd m fun w => { w with last := 2 }).mwdExpire m
  else if !ok then (s.modMwd m fun w => { w with last := 3 }).mwdExpire m
  else (s.modMwd m fun w => { w with last := 1 }).mwdPublish m

/-! ## CHn_WDG writes (R154, R147) -/

/-- The fields that a write of CHn_WDG_CFG stores. -/
def Wdg.withCfg (w : Wdg) (v : Word) : Wdg :=
  { w with clksel := v.getLsbD 1, keyed := v.getLsbD 2, counted := v.getLsbD 3, violN := BitVec.ofNat 4 (field v.toNat 7 4),
           ladder := v.getLsbD 8, prescale := BitVec.ofNat 4 (field v.toNat 19 16) }

/-- An arming write is refused: window, VIOL_N, or the owner's key (R151, R154). -/
def State.armRefused (s : State) (n : Fin 128) (w : Wdg) : Bool :=
  !windowOk w.open_.toNat w.close_.toNat || (w.counted && w.violN = 0) ||
  (w.keyed && (s.polOf n).wdg.keySrc && (s.internalKey (s.polOf n).wdg.keySlot.toNat 6).isNone)

/-- Arm by a register write: a running host's watchdog counts from the next tick edge, another's from its next release. -/
def State.armByWrite (s : State) (n : Fin 128) : State :=
  let s := s.arm n false
  if (s.ch n).released then s.newWindow n else s

/-- The fields that a write of MWD_MGR_CFG stores. -/
def Mwd.withCfg (w : Mwd) (v : Word) : Mwd :=
  { w with keyed := v.getLsbD 1, prescale := BitVec.ofNat 4 (field v.toNat 5 2) }

end Sys2Proof.Machine
end

