-- ==== Sys2Proof/Machine/ConfigOps.lean ====
section
/-! DEFINITION. The standing configuration (R312-R317): its image, the checks of CONFIG_WRITE in offset order, when each field takes
effect; and the supply thresholds it calibrates (R280, R294, R295, R299). -/

namespace Sys2Proof.Machine

/-! ## The image (R313) -/

/-- Bytes of an image. -/
def cfgLen : Nat := 12632

/-- Offset of channel profile n. -/
def profAt (n : Nat) : Nat := 0x140 + 96 * n

/-- The byte at an offset of an image. -/
def byteAt (img : List Byte) (off : Nat) : Nat := leAt img off 1

/-- The device section of an image. -/
def parseDev (img : List Byte) : DevCfg :=
  let b := fun off => byteAt img (0x40 + off)
  let h := fun off => leAt img (0x40 + off) 2
  { primary := b 0, mwdAuto := { a := bit (b 1) 0, b := bit (b 1) 1 }, mwdSlot := { a := b 2, b := b 3 }, spacingMs := b 4,
    relWaitS := b 5, failMode := bit (b 6) 0, tries := b 7, failPulseMs := h 8, cleanS := h 0x0A, stbyS := h 0x0C, periodH := b 0x0E,
    eccDays := b 0x0F, auditDays := b 0x10, katS := b 0x11, faultN := b 0x12, faultS := b 0x13, reseedMs := h 0x14,
    tfLimit := h 0x16, tfAction := bit (b 0x18) 0, obsSecure := bit (b 0x19) 0, loopN := b 0x1A,
    i3c := (List.range 4).map fun p => b (0x1C + p), twl := (List.range 16).map fun t => leAt img (0x60 + 4 * t) 4,
    levels := leAt img 0xA0 4, rails := (List.range 21).map fun r => (b (0x64 + 2 * r), b (0x65 + 2 * r)), tampLow := b 0x8E,
    tampHigh := b 0x8F, mwdWin := { a := leAt img 0xD0 4, b := leAt img 0xD4 4 }, mwdMode := { a := b 0x98, b := b 0x99 } }

/-- A pinned range: base and length in 4 KiB units (R33). -/
def pinOf (w : Nat) : Nat × Nat := (field w 17 0, field w 28 18)

/-- Channel profile n of an image. -/
def parseChan (img : List Byte) (n : Nat) : ChanCfg :=
  let b := fun off => byteAt img (profAt n + off)
  { enabled := bit (b 0) 0, isLocal := bit (b 0) 1, rgrpEn := bit (b 0) 2, bgrpEn := bit (b 0) 3, pgGate := bit (b 0) 4, pgAct := bit (b 0) 5,
    idOverride := bit (b 0) 6, vfLog2 := b 1, rank := b 2, rgrp := b 3 % 16, bgrp := b 3 / 16, pgSettle := b 4, pgTmo := b 5,
    passProto := b 6, devMhz := b 7, keepBlk := leAt img (profAt n + 8) 2, scrBlk := leAt img (profAt n + 10) 2,
    pins := (List.range (min 8 (b 12))).map fun i => pinOf (leAt img (profAt n + 0x10 + 4 * i) 4),
    jedec := slice img (profAt n + 0x30) (min 20 (b 13)) }

/-- The factory defaults as (offset, byte) pairs (R317), beside zeros. -/
def defaultBytes : List (Nat × Byte) :=
  [(0x00, 0x53), (0x01, 0x4B), (0x02, 0x43), (0x03, 0x46), (0x04, 1), (0x0C, 0x58), (0x0D, 0x31), (0x44, 20), (0x45, 2), (0x47, 3),
   (0x4A, 0x58), (0x4B, 0x02), (0x4C, 0x10), (0x4D, 0x0E), (0x4E, 24), (0x4F, 7), (0x50, 30), (0x51, 60), (0x52, 3), (0x53, 60),
   (0x54, 0xE8), (0x55, 0x03), (0x59, 1), (0x5A, 2)] ++
  (List.range 128).map fun n => (profAt n + 2, 0xFF)

/-- The image that the ledger holds, or the defaults (R312): its bytes that are not zero, but for SEQ and CHECK. -/
def State.cfgMap (s : State) : SMap Byte := (s.cfgImg.cur).getD defaultBytes

/-- SEQ of the copy in use; 0 for the defaults. -/
def State.cfgSeq (s : State) : Nat := if s.cfgImg.cur.isSome then s.cfgImg.seq else 0

/-- Dense bytes [0, 0x3150) of a map whose keys rise, from offset i. -/
def denseFrom : Nat → Nat → SMap Byte → List Byte
  | 0, _, _ => []
  | k + 1, i, m => match m with
    | [] => 0 :: denseFrom k (i + 1) []
    | (a, v) :: t => if a = i then v :: denseFrom k (i + 1) t else 0 :: denseFrom k (i + 1) ((a, v) :: t)

/-- The bytes of the image in use before SEQ and CHECK are put in. -/
def State.cfgBody (s : State) : List Byte := denseFrom 0x3150 0 s.cfgMap

/-- The copy in use as CONFIG_READ returns it. -/
def State.cfgCopy (s : State) : List Byte :=
  let b := splice s.cfgBody 8 (leBytes 4 s.cfgSeq)
  b ++ s.ledgerCheck b

/-- The digest of measurement index 4 (R187): the copy less its sequence number and check word. -/
def State.cfgDigest (s : State) : Digest :=
  let b := s.cfgBody
  Config.sha384 (b.take 8 ++ b.drop 12)

/-- What a copy stores of an image. -/
def sparse (img : List Byte) : SMap Byte :=
  (List.range 0x3150).filterMap fun i =>
    let v := img.getD i 0
    if v = 0 ∨ (8 ≤ i ∧ i < 12) then none else some (i, v)

/-! ## Range checks in ascending offset (R314 step 3) -/

/-- Bytes [a, b) are zero. -/
def zerosAt (img : List Byte) (a b : Nat) : List (Nat × Bool) := (List.range (b - a)).map fun i => (a + i, byteAt img (a + i) = 0)

/-- A manager watchdog's key slot: none named, or an OWNER slot with INTERNAL access and usage WDG (R257). -/
def State.mwdSlotOk (s : State) (k : Nat) : Bool :=
  k = 0 || match fin? 256 k with
    | some i => ownerSlot k && (s.slot i).access.getLsbD 2 && (s.slot i).has 6
    | none => false

/-- A TWL_CFGt image: a role of 0 to 2, and a restart line's pulse of 1 to 1,000 ms. -/
def twlOk (w : Nat) : Bool :=
  w < 4096 && w % 4 ≠ 3 && (w % 4 ≠ 1 || (1 ≤ field w 11 2 && field w 11 2 ≤ 1000))

/-- Header and device section. -/
def State.devChecks (s : State) (img : List Byte) : List (Nat × Bool) :=
  let d := parseDev img
  let b := byteAt img
  let win := fun (auto : Bool) (w : Nat) => !auto || windowOk (field w 15 0) (field w 31 16)
  zerosAt img 6 8 ++ ([(0x0C, leAt img 0x0C 4 = cfgLen)] : List (Nat × Bool)) ++ zerosAt img 0x10 0x40 ++
  ([(0x40, d.primary ≤ 1 || (d.primary = 2 && s.part.pcie1)), (0x41, b 0x41 < 4), (0x42, s.mwdSlotOk d.mwdSlot.a),
   (0x43, s.mwdSlotOk d.mwdSlot.b), (0x44, 1 ≤ d.spacingMs), (0x45, 1 ≤ d.relWaitS && d.relWaitS ≤ 60), (0x46, b 0x46 < 2),
   (0x47, 1 ≤ d.tries && d.tries ≤ 7), (0x48, d.failPulseMs ≤ 1000 && (!d.failMode || 1 ≤ d.failPulseMs)), (0x4A, 60 ≤ d.cleanS),
   (0x4C, 1 ≤ d.stbyS && d.stbyS ≤ 3600), (0x4E, 1 ≤ d.periodH && d.periodH ≤ 168), (0x4F, 1 ≤ d.eccDays && d.eccDays ≤ 30),
   (0x50, 1 ≤ d.auditDays && d.auditDays ≤ 90), (0x51, 10 ≤ d.katS), (0x52, d.faultN < 16), (0x53, 1 ≤ d.faultS),
   (0x54, 10 ≤ d.reseedMs && d.reseedMs ≤ 10000), (0x58, b 0x58 < 2), (0x59, b 0x59 < 2), (0x5A, 1 ≤ d.loopN && d.loopN ≤ 8)] : List (Nat × Bool)) ++
  zerosAt img 0x5B 0x5C ++ (List.range 16).map (fun t => (0x60 + 4 * t, twlOk (leAt img (0x60 + 4 * t) 4))) ++
  ([(0xA0, d.levels < 2 ^ 20), (0xD0, win d.mwdAuto.a d.mwdWin.a), (0xD4, win d.mwdAuto.b d.mwdWin.b), (0xD8, b 0xD8 < 32),
   (0xD9, b 0xD9 < 32)] : List (Nat × Bool)) ++ zerosAt img 0xDA 0x140

/-- The channels that an image enables. -/
def enabledIn (img : List Byte) (n : Nat) : Bool := bit (byteAt img (profAt n)) 0

/-- Enabled profiles up to n with the rank of n (R136). -/
def rankCount (img : List Byte) (n : Nat) : Nat :=
  ((List.range (n + 1)).filter fun k => enabledIn img k && byteAt img (profAt k + 2) = byteAt img (profAt n + 2)).length

/-- KEEP and SCRATCH blocks of the enabled profiles up to n (R95). -/
def blocksUpTo (img : List Byte) (n : Nat) : Nat :=
  ((List.range (n + 1)).map fun k =>
    if enabledIn img k then leAt img (profAt k + 8) 2 + leAt img (profAt k + 10) 2 else 0).sum

/-- The tables that a profile must fit (R95, R338): those in force, and a section that the ledger holds for the channel's next hold. -/
def State.tablesHeld (s : State) (n : Fin 128) : List STable := s.tablesInForce n ++ [(vget s.polLedger n).tbl]

/-- VF_LOG2 (R31, R338): with local-flash backing, the density that discovery found, which must be one that R31 allows. -/
def State.vfOk (s : State) (n : Fin 128) (p : ChanCfg) : Bool :=
  let found := match portOf n with
    | some f => (s.fp f).found
    | none => none
  if p.isLocal && found = some 0 then false
  else if p.vfLog2 = 0 then p.isLocal
  else 24 ≤ p.vfLog2 && p.vfLog2 ≤ 30 && (!p.isLocal || found.all fun d => d = p.vfLog2) &&
    (s.tablesHeld n).all fun t => !t.outside (2 ^ p.vfLog2)

/-- Channel profile n; a disabled one is checked for its reserved bits and bytes alone. -/
def State.chanChecks (s : State) (img : List Byte) (n : Fin 128) : List (Nat × Bool) :=
  let p := parseChan img n.1
  let o := profAt n.1
  let b := fun i => byteAt img (o + i)
  let fits := fun treat blocks => (s.tablesHeld n).all fun t => t.areaOk treat blocks
  let twl := (parseDev img).twl
  let pin := fun i => leAt img (o + 0x10 + 4 * i) 4
  let on := fun (c : Bool) => !p.enabled || c
  ([(o, b 0 < 128 && on (!p.isLocal || (match portOf n with | some f => s.fpOn f | none => false))),
   (o + 1, on (s.vfOk n p)), (o + 2, on (p.rank = 0xFF || (p.rank < 128 && rankCount img n.1 ≤ 8))),
   (o + 3, on ((!p.rgrpEn || twl.getD p.rgrp 0 % 4 = 1) && (!p.bgrpEn || twl.getD p.bgrp 0 % 4 = 2))),
   (o + 5, on (1 ≤ p.pgTmo && p.pgTmo ≤ 60)), (o + 6, on (!p.isLocal || p.passProto < 4)),
   (o + 7, on (!p.isLocal || (10 ≤ p.devMhz && p.devMhz ≤ 250))),
   (o + 8, on (p.keepBlk ≤ 1024 && fits 3 p.keepBlk && blocksUpTo img n.1 ≤ 16384)),
   (o + 10, on (p.scrBlk ≤ 1024 && fits 4 p.scrBlk)), (o + 12, on (decide (b 12 ≤ 8))), (o + 13, on (decide (b 13 ≤ 20)))] : List (Nat × Bool)) ++
  zerosAt img (o + 14) (o + 16) ++
  (List.range 8).map (fun i => (o + 0x10 + 4 * i,
    pin i < 2 ^ 29 && on (if i < b 12 then 1 ≤ (pinOf (pin i)).2 && (pinOf (pin i)).2 ≤ 1024 else pin i = 0))) ++
  zerosAt img (o + 0x44) (o + 0x60)

/-- Every check in ascending offset. -/
def State.cfgChecks (s : State) (img : List Byte) : List (Nat × Bool) :=
  s.devChecks img ++ (List.finRange 128).flatMap (fun n => s.chanChecks img n) ++
  ([(0x3140, byteAt img 0x3140 < 2)] : List (Nat × Bool)) ++ zerosAt img 0x3142 0x3144 ++ zerosAt img 0x3148 0x3150

/-- The pinned 4 KiB units of one range: by image family and impression offset, or by channel (R38); none: outside one IMPRESSION
window. -/
def State.cfgPinUnits (s : State) (n : Fin 128) (r : Nat × Nat) : Option (List (Nat × Nat)) :=
  if !(s.polOf n).present then some ((List.range r.2).map fun u => (n.1, r.1 + u))
  else
    let t := (s.st n).tbl
    match t.windowOf (r.1 * 4096) (r.2 * 4096) with
    | .win w =>
      if t.treat w = 1 then
        let fam := (s.polOf n).plate.family
        some ((List.range r.2).map fun u => (128 + ofLe fam, r.1 + u - t.base w + t.map w))
      else none
    | _ => none

/-- R38's limits. -/
def State.pinsOk (s : State) (img : List Byte) : Bool :=
  let chans := (List.finRange 128).filter fun n => enabledIn img n.1
  let pins := fun n : Fin 128 => (parseChan img n.1).pins
  let units := chans.map fun n => (pins n).map fun r => s.cfgPinUnits n r
  chans.all (fun n => ((pins n).map fun r => r.2).sum ≤ 1024) &&
  units.all (fun l => l.all Option.isSome) &&
  ((units.flatMap fun l => l.flatMap fun u => u.getD []).eraseDups).length ≤ 6144

/-- The outcome of CONFIG_WRITE's checks: status and INFO (R314 steps 2 to 5). -/
def State.cfgStatus (s : State) (img : List Byte) : Status × Nat :=
  if leAt img 0 4 ≠ 0x46434B53 ∨ leAt img 4 2 ≠ 1 then (stVersionUnsupported, 0)
  else if img.length ≠ cfgLen then (stInvalidField, 0x0C)
  else match (s.cfgChecks img).find? fun c => !c.2 with
    | some c => (stInvalidField, c.1)
    | none =>
      if !s.pinsOk img then (stResourceExhausted, 0)
      else if s.inhibited then (stWriteInhibited, 0) else (stSuccess, 0)

/-! ## Supply thresholds (R280, R294) -/

/-- Nominal voltage of a rail in mV. -/
def nominalMv (r : Nat) : Nat := railNominals.getD r 0

/-- WARN_CODE and BROWN_CODE of a rail; codes 13 to 15 act as 12. -/
def State.railCodes (s : State) (r : Nat) : Nat × Nat :=
  let b := field (s.otp.shadowAt (otpBase 1 + 2 + r / 4)).toNat (8 * (r % 4) + 7) (8 * (r % 4))
  (min 12 (b % 16), min 12 (b / 16))

/-- Factory WARN and BROWNOUT in mV, rounded down. -/
def State.factoryWarn (s : State) (r : Nat) : Nat := nominalMv r * (9700 - 25 * (s.railCodes r).1) / 10000
def State.factoryBrown (s : State) (r : Nat) : Nat := nominalMv r * (9500 - 25 * (s.railCodes r).2) / 10000

/-- Thresholds asked for by factory value and offset. -/
def State.warnAsked (s : State) (r : Nat) : Nat := s.factoryWarn r + (s.dcfg.rails.getD r (0, 0)).1
def State.brownAsked (s : State) (r : Nat) : Nat := s.factoryBrown r + (s.dcfg.rails.getD r (0, 0)).2

/-- Thresholds in force, clamped to their bounds. -/
def State.warnMv (s : State) (r : Nat) : Nat := min (s.warnAsked r) (nominalMv r * 98 / 100)
def State.brownMv (s : State) (r : Nat) : Nat :=
  min (s.brownAsked r) (min (s.warnMv r - nominalMv r / 100) (nominalMv r * 95 / 100))

/-- A rail's offsets were clamped. -/
def State.railClamped (s : State) (r : Nat) : Bool := s.warnMv r ≠ s.warnAsked r || s.brownMv r ≠ s.brownAsked r

/-- Tamper temperature limits in force, coded as degrees + 64: clamped at -40 and +110 degrees. -/
def State.tampLow (s : State) : Nat := min (field (s.otp.shadowAt (otpBase 1 + 1)).toNat 7 0 + s.dcfg.tampLow) 24
def State.tampHigh (s : State) : Nat := max (field (s.otp.shadowAt (otpBase 1 + 1)).toNat 15 8 - s.dcfg.tampHigh) 174

/-- A tamper limit was clamped. -/
def State.tampClamped (s : State) : Bool :=
  24 < field (s.otp.shadowAt (otpBase 1 + 1)).toNat 7 0 + s.dcfg.tampLow ||
  field (s.otp.shadowAt (otpBase 1 + 1)).toNat 15 8 < 174 + s.dcfg.tampHigh

/-- Enter the low-supply inhibit for a rail or for PWR_WARN# (R299). The spec gives PWR_WARN# no number in the event (log entry 32). -/
def State.enterInhibit (s : State) (rail : Option (Fin 21)) : State :=
  let s := match rail with
    | some r =>
      { s with power := { s.power with warn := putBit s.power.warn r.1 true, seen := putBit s.power.seen r.1 true } }
    | none => { s with power := { s.power with pwrWarn := true } }
  if s.power.inhibit then s
  else
    let s := { s with power := { s.power with inhibit := true, warns := satInc s.power.warns } }
    s.raise 0x0501 devCh [match rail with | some r => r.1 | none => Config.eventWord 112]

/-- A WARN threshold that the settings raise above `old`'s, to the present voltage of its rail or beyond, starts the inhibit (R295). -/
def State.applyCalibration (s old : State) : State :=
  s.forAll (List.finRange 21) fun r s =>
    if old.warnMv r.1 < s.warnMv r.1 && decide ((Config.railMv (s.now / 10000) r.1).toNat ≤ s.warnMv r.1) then s.enterInhibit (some r) else s

/-! ## When fields take effect (R315) -/

/-- The device section at a commit: REL_WAIT_S and the manager watchdog fields wait for the next start. -/
def DevCfg.atCommit (old new : DevCfg) : DevCfg :=
  { new with relWaitS := old.relWaitS, mwdAuto := old.mwdAuto, mwdSlot := old.mwdSlot, mwdWin := old.mwdWin, mwdMode := old.mwdMode }

/-- The registers of device-wide settings follow the image. -/
def State.putDevCfg (s : State) (d : DevCfg) : State :=
  { s with
    dcfg := d,
    imm := { s.imm with periodH := BitVec.ofNat 8 d.periodH, tfLimit := BitVec.ofNat 16 d.tfLimit, tfAction := d.tfAction },
    pool := { s.pool with eccDays := BitVec.ofNat 8 d.eccDays, auditDays := BitVec.ofNat 8 d.auditDays },
    farm := { s.farm with intervalS := BitVec.ofNat 8 d.katS } }

/-- Channel n at a commit: PG values and ENABLED at once, its lines unless they are in a sequence, identity unless it is released. -/
def State.applyProfile (s : State) (n : Fin 128) (q : ChanCfg) : State :=
  let p := s.profOf n
  let was := p.enabled
  let p := { p with enabled := q.enabled, pgGate := q.pgGate, pgAct := q.pgAct, pgSettle := q.pgSettle, pgTmo := q.pgTmo }
  let p := if s.linesFree p q then p.withLines q else p
  let s := { s with prof := vset s.prof n p, profCfg := vset s.profCfg n q }
  let s := if (s.ch n).released then s else s.applyIdentity n
  let s := if !was && q.enabled && (s.profOf n).isLocal then match portOf n with
      | some f => if (s.fp f).state = 0 then s.startDiscovery f else s
      | none => s
    else s
  if s.chanOn n then
    if q.enabled && (s.ch n).state = .off then s.hold n .config .config none
    else if !q.enabled && (s.ch n).state ≠ .off then s.leave n .off .config
    else s
  else s

/-- A committed image takes effect. -/
def State.applyConfig (s : State) (img : List Byte) : State :=
  let d := parseDev img
  let old := s
  let s := s.putDevCfg (s.dcfg.atCommit d)
  let s := { s with twl := (List.range 16).map fun t => if s.lineIdle t then d.twl.getD t 0 else s.twl.getD t 0 }
  let s := s.forChans fun n s => s.applyProfile n (parseChan img n.1)
  s.applyCalibration old

/-- CONFIG_WRITE's commit (R314). -/
def State.commitConfig (s : State) (m : Mgr) (img : List Byte) : State :=
  let s := { s with cfgImg := s.cfgImg.commit (sparse img), dev := { s.dev with configDefaulted := false } }.committed
  let s := (s.raise 0x0705 devCh [s.cfgSeq, mgrNum m]).log 0x0004 devCh [s.cfgSeq, ofLe (Config.sha384 s.cfgCopy).toList]
  s.applyConfig img

/-! ## The wake from STANDBY (R311) -/

/-- Re-releases that STANDBY kept back go on; the channels recorded at the entry are released in the order of their ranks, once
SYS_PGOOD is high. -/
def State.resumeStandby (s : State) : State :=
  let s := s.forChans fun n s => s.resumeHeld n
  if !s.power.sysPgood then s
  else
    let s := { s with plat := { s.plat with ranksBegun := false, ranksActive := false } }
    s.forChans fun n s =>
      let c := s.ch n
      if c.standbyRun && c.state = .held && c.kind = .standby && (s.profOf n).rank < 0xFF then
        (s.startTaking n .start false).modCtl n fun c => { c with ranked := true }
      else s

/-- The ranks and REL_WAIT_S of the image in use, which a wake takes (R315). -/
def State.takeRanks (s : State) : State :=
  { s with
    prof := Vector.ofFn fun n : Fin 128 => { s.profOf n with rank := (vget s.profCfg n).rank },
    dcfg := { s.dcfg with relWaitS := ((SMap.get? s.cfgMap 0x45).getD 0).toNat } }

/-- PCIEn_WAKE# of a link that is down (R311). -/
def State.wakeLink (s : State) (m : Mgr) : State :=
  if s.mgrOn m then s.modView m fun v => { v with wake := v.wake || !v.linkUp } else s

/-- RUNNING from STANDBY. -/
def State.wake (s : State) : State :=
  let s := s.setDev .running
  State.takeRanks { s with dev := { s.dev with runSince := s.now } }

/-- A wake other than by a doorbell: PCIEn_WAKE# is asserted on the links that are down. -/
def State.wakeUp (s : State) : State :=
  if s.dev.state = .standby then ((s.wake.wakeLink .a).wakeLink .b).resumeStandby else s

end Sys2Proof.Machine
end

