-- ==== Sys2Proof/Machine/AttestOps.lean ====
section
/-! DEFINITION. Identity and quotes, measurement indices, the Tracing ring and its reader, and the SPDM responder's operations
(chapter "Tracing, measurement and identity"). -/

namespace Sys2Proof.Machine

/-! ## Identity (R169-R171) -/

/-- The UDS: IDENTITY words 0 to 11. -/
def Otp.uds (o : Otp) : List Byte := wordBytes o.n (otpBase 2) 12

/-- The identity digest (R169): SHA-384 of the DeviceID ECDSA public key. -/
def State.identity (s : State) : Digest := Config.sha384 (ecPubOf (scalarOf s.otp.uds "SKD-DEVID-EC"))

/-- Quotes and signed SPDM responses can be made (R171). -/
def State.attests (s : State) : Bool := s.att.idValid && s.att.keysReady

/-- Measurement index 3 (R187): the shadow of every region, with the UDS excluded. -/
def State.hOtp (s : State) : Digest :=
  Config.sha384 ((List.range 6).flatMap fun r =>
    if r = 2 then wordBytes s.otp.shadowAt (otpBase 2 + 12) (otpSpan 2 - 12) else wordBytes s.otp.shadowAt (otpBase r) (otpSpan r))

/-- The bundles whose sections are in force, of a channel or of tamper, (version, digest), ascending (R187). -/
def State.bundles (s : State) : List (Nat × Digest) :=
  let l := ((s.pol.toList.filter fun p => p.present).map fun p => (p.version.toNat, p.digest)) ++
    (s.tamperPol.bundle.map fun b => (b.1.toNat, b.2)).toList
  ordered (fun a b => decide (a.1 ≤ b.1)) l.eraseDups

/-- Measurement index 2. -/
def State.measPolicy (s : State) : Digest :=
  Config.sha384 ((s.bundles.flatMap fun b => leBytes 4 b.1 ++ b.2.toList) ++
    (s.stn.toList.filter fun t => !t.overlay.isEmpty).flatMap fun t => (Config.overlayDigest t.overlay).toList)

/-- Measurement indices 1 to 4. -/
def State.measDev (s : State) (i : Nat) : Digest :=
  match i with
  | 1 => s.att.hFw
  | 2 => s.measPolicy
  | 3 => s.hOtp
  | _ => s.cfgDigest

/-- CDI_D (R170). -/
def State.deviceCdi (s : State) : List Byte :=
  Config.hmac512 s.otp.uds (ascii "SKD-DCDI" ++ s.att.hFw.toList ++ s.hOtp.toList ++ [BitVec.ofNat 8 s.otp.lifecycle])

/-- The keys that the boot ROM derives from the UDS into DEVICE slots: DeviceID, CDI_D and the alias keys (R169-R171), and the transport keys
(R261). -/
def State.deriveDevice (s : State) : State :=
  if !(s.otp.region? 2).ok then { s with att := { s.att with idValid := false, keysReady := false } }
  else
    let u := s.otp.uds
    let cdi := s.deviceCdi
    let s := ((s.putDevKey .idEc (scalarOf u "SKD-DEVID-EC")).putDevKey .idPq (seedOf u "SKD-DEVID-PQ")).putDevKey .cdi cdi
    let s := (s.putDevKey .aliasEc (scalarOf cdi "SKD-ALIAS-EC")).putDevKey .aliasPq (seedOf cdi "SKD-ALIAS-PQ")
    let s := if s.otp.lifecycle = 3 then s
      else (s.putDevKey .kupdEc (scalarOf u "SKD-KUPD-EC")).putDevKey .kupdPq (Config.hmac512 u (ascii "SKD-KUPD-PQ"))
    { s with att := { s.att with idValid := true, keysReady := true }, keys := { s.keys with transport := s.otp.lifecycle ≠ 3 } }

/-- The contents of the certificate of an alias public key (R170). -/
def State.aliasCertBody (s : State) (key : List Byte) : CertBody :=
  { key := key, serial := none, validity := none,
    tcb := { vendor := "Larmany", model := "Skadom", layer := 1, index := none, fwids := s.att.hFw.toList,
             svn := (s.fwTable.get s.devfw.running).svn.toNat, debug := s.otp.lifecycle ≠ 2 },
    host := none }

/-- Issue the alias certificates again where those of the ledger do not carry the current H_fw (R170), signed by the DeviceID keys, which
only START may use. The ledger takes them where it may be written. -/
def State.issueCerts (s : State) : State :=
  match s.devKey .idEc, s.devKey .idPq, s.devKey .aliasEc, s.devKey .aliasPq with
  | some i, some j, some a, some b =>
    if s.inhibited || s.att.certs.any fun c => c.1 = s.att.hFw then s
    else
      let pq := s.aliasCertBody (pqPubOf b)
      let certs := (ecCert i s.drawn (s.aliasCertBody (ecPubOf a)),
        Config.certDer (Config.certTbs pq) (Config.mldsaSign j (Config.certTbs pq) s.drawn).toList)
      State.committed (State.drawGeneral { s with att := { s.att with certs := some (s.att.hFw, certs) } } 2)
  | _, _, _, _ => s

/-- The alias scalar, and the PQ alias seed, that sign quotes and SPDM responses. -/
def State.aliasEc (s : State) : List Byte := (s.devKey .aliasEc).getD []
def State.aliasPq (s : State) : List Byte := (s.devKey .aliasPq).getD []

/-! ## The Tracing ring (R177-R181) -/

/-- The 128 bytes of a record. -/
def TraceRec.bytes (r : TraceRec) : List Byte :=
  let data := (Config.traceData r.evt.type.toNat r.evt.info).toList
  leBytes 8 r.seq ++ leBytes 8 r.evt.time ++ leBytes 4 r.evt.start.toNat ++ leBytes 2 r.evt.type.toNat ++ leBytes 2 r.evt.ch.toNat ++
    leBytes 4 r.epoch.toNat ++ [r.evt.meas, 0, 0, 0] ++
    (if r.evt.meas = 0xFF then data else data.take 48 ++ r.evt.v.toList)

/-- The ring header in use; of a ring without one: OLDEST 1, epoch 0. -/
def State.traceHdr (s : State) : TraceHdr :=
  (s.trace.hdr.cur).getD { oldest := 1, epoch := 0, base := Digest.zero, run := Digest.zero }

/-- NEWEST. -/
def State.traceNewest (s : State) : Nat := s.trace.hdr.seq

/-- Records that the ring holds. -/
def ringSize : Nat := 16384

/-- SHA-384 of a running digest and a record. -/
def chain (d : Digest) (r : TraceRec) : Digest := Config.sha384 (d.toList ++ r.bytes)

/-- A full ring gives up the record at OLDEST: BASE takes it up, and a record above both marks is unread (R179, R180). -/
def State.dropOldest (s : State) (h : TraceHdr) : State × TraceHdr :=
  match s.trace.ring with
  | r :: rest =>
    if s.trace.ring.length < ringSize then (s, h)
    else
      let s := { s with trace := { s.trace with ring := rest } }
      let unread := s.trace.mark.a.toNat < r.seq && s.trace.mark.b.toNat < r.seq
      let s := if unread then
          State.raise { s with trace := { s.trace with unreadLost := satInc s.trace.unreadLost } } 0x080C devCh [r.seq]
        else s
      (s, { h with oldest := h.oldest + 1, base := chain h.base r })
  | [] => (s, h)

/-- Write the record at the head of the queue and commit the header (R180); space in the queue lets a GAP record in. -/
def State.writeRecord (s : State) : State :=
  match s.trace.queue with
  | [] => s
  | e :: q =>
    let d := State.dropOldest { s with trace := { s.trace with queue := q } } s.traceHdr
    let boundary := e.type = 0x0001 || e.type = 0x0060
    let r : TraceRec :=
      { seq := s.traceNewest + 1, epoch := if boundary then d.2.epoch + 1 else d.2.epoch, evt := e }
    let h := { d.2 with epoch := r.epoch, run := chain d.2.run r }
    let s := d.1
    let s := State.committed { s with trace := { s.trace with
        ring := s.trace.ring ++ [r], hdr := s.trace.hdr.commit h,
        gaps := if e.type = 0x00FF then satInc s.trace.gaps else s.trace.gaps } }
    if s.trace.lost = 0 then s
    else
      let info := [s.trace.lost, s.trace.lostFrom, s.trace.lostTo]
      State.log { s with trace := { s.trace with lost := 0 } } 0x00FF devCh info

/-- The ledger writer may start a record (R180). -/
def State.mayWrite (s : State) : Bool := s.led.ready && !s.inhibited && !s.dev.ccAbsent

/-- Write k records. -/
def State.writeRecords : Nat → State → State
  | 0, s => s
  | k + 1, s => State.writeRecords k s.writeRecord

/-- Write every record queued, and the GAP record that the space lets in. -/
def State.drainTrace (s : State) : State := State.writeRecords (s.trace.queue.length + 1) s

/-- A new ring after a loss of both header copies or a tie (R179). -/
def State.newRing (s : State) : State :=
  let q := s.traceNewest
  let h : TraceHdr := { oldest := q + 1, epoch := s.traceHdr.epoch, base := Digest.zero, run := Digest.zero }
  let s := { s with trace := { s.trace with ring := [], hdr := { c0 := .valid q h, c1 := .zero } } }
  (s.log 0x00FF devCh [0, s.now, s.now]).raise 0x080B devCh [q + 1]

/-! ## The quote (R182-R184) -/

/-- Channel entry n (R183). -/
def State.quoteEntry (s : State) (n : Fin 128) : List Byte :=
  if !s.chanOn n then 0xFF :: List.replicate 95 0
  else
    let i := s.boundTo n
    let e := i.map fun i => s.dirE i
    let w := (s.wd n).ledger
    let flags := pack [(0, bval !(s.st n).tbl.has 1), (1, bval (s.profOf n).isLocal),
      (2, bval (decide ((e.map fun e => e.state) = some .damaged))), (3, bval i.isSome)]
    [BitVec.ofNat 8 (s.ch n).state.code, BitVec.ofNat 8 (s.plateField n 0xFF), BitVec.ofNat 8 (s.proofField n),
      BitVec.ofNat 8 (s.st n).phase.code] ++
    leBytes 4 (s.boundSvn n) ++ s.boundFamily n ++ s.boundRoot n ++ leBytes 4 (s.ch n).tagTotal.toNat ++
    leBytes 4 ((e.map fun e => e.patmis.toNat).getD 0) ++ leBytes 4 w.total.toNat ++ [w.consec, w.cause] ++ leBytes 2 flags ++
    leBytes 4 (s.st n).polver.toNat ++ leBytes 4 (s.st n).epoch.toNat

/-- The quote body (R183): a snapshot, with the epoch it closes, that epoch's last SEQ and running digest. -/
def State.quoteBody (s : State) (nonce : List Byte) (epoch seq : Nat) (run : Digest) : List Byte :=
  leBytes 4 0x51444B53 ++ leBytes 2 1 ++
  leBytes 2 (pack [(0, bval s.part.pq), (1, bval s.dev.zeroised), (2, bval s.devfw.onProof), (3, bval s.dev.configDefaulted),
    (4, bval s.fallback)]) ++
  slice nonce 0 32 ++ leBytes 8 s.now ++ leBytes 8 s.att.wall.toNat ++ leBytes 4 s.dev.startCount.toNat ++
  [BitVec.ofNat 8 s.dev.state.code, BitVec.ofNat 8 s.otp.lifecycle, BitVec.ofNat 8 s.part.hosts, 0] ++ leBytes 4 s.polMin.toNat ++
  leBytes 4 epoch ++ leBytes 8 seq ++ run.toList ++ s.identity.toList ++
  ([1, 2, 3, 4].flatMap fun i => (s.measDev i).toList) ++ leBytes 4 ((s.fwTable.get s.devfw.running).svn).toNat ++
  List.replicate 12 0 ++ (List.finRange 128).flatMap fun n => s.quoteEntry n

/-- Bytes of a quote (R184). -/
def State.quoteLen (s : State) : Nat := if s.part.pq then 16077 else 12768

/-- QUOTE (R182-R184). `who`: 0, 1 manager A or B, 2 + p I3C port p. -/
def State.takeQuote (s : State) (who : Nat) (nonce : List Byte) (len : Nat) : State × Answer :=
  if len < s.quoteLen then (s, ans stInvalidField 48)
  else if !s.attests then (s, ans stNotPermitted)
  else if s.inhibited then (s, ans stWriteInhibited)
  else
    let t := s.drainTrace
    let epoch := t.traceHdr.epoch.toNat
    let body := s.quoteBody nonce epoch t.traceNewest t.traceHdr.run
    let sig := (Config.ecdsaSign s.aliasEc body t.drawn).toList ++
      (if s.part.pq then (Config.mldsaSign s.aliasPq body t.drawn).toList else [])
    let t := (t.log 0x0060 devCh [epoch, t.traceNewest, ofLe (Config.sha384 (slice nonce 0 32)).toList, who]).writeRecord
    let t := State.internalRun { t.drawGeneral with att := { t.att with quotes := satInc t.att.quotes } } 160000
    (t, { st := stSuccess, info := s.quoteLen, result := leBytes 8 t.traceNewest ++ leBytes 4 epoch, data := some (body ++ sig),
          more := false })

/-! ## TRACING_READ (R231) -/

/-- The ring header as a reply shows it. -/
def State.traceHeadBytes (s : State) : List Byte :=
  let h := s.traceHdr
  leBytes 8 h.oldest ++ leBytes 8 s.traceNewest ++ leBytes 4 h.epoch.toNat ++ List.replicate 12 0 ++ h.base.toList ++ h.run.toList

/-- TRACING_READ. `mark`: the manager whose read mark it uses; the observer has none (R180). -/
def State.readTrace (s : State) (mark : Option Mgr) (fromSeq : Nat) (advance header : Bool) (len : Nat) : State × Answer :=
  if len % 128 ≠ 0 ∨ len < (if header then 256 else 128) then (s, ans stInvalidField 24)
  else
    let m := match mark with | some m => (s.trace.mark.get m).toNat | none => 0
    let want := if fromSeq = 0 then m + 1 else fromSeq
    let first := max want s.traceHdr.oldest
    let room := len / 128 - bval header
    let recs := (s.trace.ring.filter fun r => first ≤ r.seq).take room
    let last := (recs.getLast?.map fun r => r.seq).getD 0
    let head := if header then s.traceHeadBytes else []
    let a : Answer :=
      { st := stSuccess, info := pack [(0, recs.length), (16, bval (want < s.traceHdr.oldest && !recs.isEmpty))],
        result := leBytes 8 ((recs.head?.map fun r => r.seq).getD 0) ++ leBytes 8 last,
        data := some (head ++ recs.flatMap fun r => r.bytes), more := !recs.isEmpty && last < s.traceNewest }
    let s := match mark with
      | some m =>
        if advance && (s.trace.mark.get m).toNat < last then
          { s with trace := { s.trace with mark := s.trace.mark.set m (BitVec.ofNat 64 last) } }
        else s
      | none => s
    (s, a)

/-! ## Measurement blocks (R187) -/

/-- Block i: 1 to 4 of the device, 16 + n of channel n; none for an absent index. -/
def State.measBlock (s : State) (i : Nat) : Option MeasBlock :=
  if 1 ≤ i ∧ i ≤ 4 then
    some { index := i, vtype := [1, 1, 3, 2, 3].getD i 0, value := s.measDev i }
  else if 16 ≤ i then
    match fin? 128 (i - 16) with
    | some n =>
      if s.chanOn n then
        some { index := i, vtype := 1,
               value := Config.sha384 (s.quoteEntry n ++ (s.mb n).meas.toList.flatMap fun d => d.toList) }
      else none
    | none => none
  else none

/-- Every block, ascending. -/
def State.measAll (s : State) : List MeasBlock := (List.range 144).filterMap fun i => s.measBlock i

/-- Blocks as the external encodings take them. -/
def blockData (l : List MeasBlock) : List (Nat × Nat × Digest) := l.map fun b => (b.index, b.vtype, b.value)

/-! ## SPDM (R185-R188) -/

/-- DataTransferSize and MaxSPDMmsgSize (R186). -/
def spdmTransfer : Nat := 4096
def spdmMax : Nat := 65536

/-- The endpoint exists in the part: 1 and 3 belong to PCIE1 (R7). -/
def State.epOn (s : State) (e : Fin 8) : Bool := s.part.pcie1 || (e.1 ≠ 1 && e.1 ≠ 3)

/-- Count a message on the endpoint's transport: MCTP messages of a function, packets of an I3C port. -/
def State.countMessage (s : State) (e : Fin 8) (packets : Half) : State :=
  match e.1 with
  | 2 => s.modView .a fun v => { v with msgs := v.msgs + 1 }
  | 3 => s.modView .b fun v => { v with msgs := v.msgs + 1 }
  | _ => match fin? 4 (e.1 - 4) with
    | some p => if 4 ≤ e.1 then s.modI3c p fun x => { x with rx := x.rx + packets } else s
    | none => s

/-- The responder answers: RUNNING or SAFE_HOLD, with the control cluster present (R16). -/
def State.spdmUp (s : State) (e : Fin 8) : Bool :=
  s.epOn e && (s.dev.state = .running || s.dev.state = .safeHold) && !s.dev.ccAbsent

/-- Send a reply. -/
def State.spdmSay (s : State) (e : Fin 8) (r : SpdmReply) : State := s.modEp e fun x => { x with reply := r }

/-- Answer a request on an endpoint; without a responder the request has no effect. -/
def State.spdmReq (s : State) (e : Fin 8) (body : State → State) : State :=
  if s.spdmUp e then body (s.countMessage e (Config.spdmPackets s.now)) else s

/-- Answer a request that needs attestation (R171) and negotiated algorithms (DSP0274). -/
def State.spdmFull (s : State) (e : Fin 8) (body : State → State) : State :=
  s.spdmReq e fun s =>
    if !s.attests then s.spdmSay e (.error .unspecified)
    else if !(s.ep e).algs then s.spdmSay e (.error .unexpectedRequest) else body s

/-- An SPDM signature: a Burin job of the device (R203), a draw, and its count. -/
def State.spdmSigned (s : State) : State :=
  State.internalRun { s.drawGeneral with att := { s.att with spdmSigns := satInc s.att.spdmSigns } } 160000

/-- Sessions open on every endpoint. -/
def State.sessionCount (s : State) : Nat := (s.spdm.toList.map fun e => e.sessions.length).sum

/-- A message in a session. -/
def Endpoint.touch (x : Endpoint) (id now : Nat) : Endpoint :=
  { x with sessions := x.sessions.map fun t => if t.id = id then { t with lastMsg := now } else t }

/-- The session with an id. -/
def Endpoint.session? (x : Endpoint) (id : Nat) : Option Session := x.sessions.find? fun t => t.id = id

/-- Answer a request inside a session, which takes note of the message (R188); session 0: outside any. -/
def State.spdmIn (s : State) (e : Fin 8) (session : Nat) (body : State → State) : State :=
  s.spdmFull e fun s =>
    if session = 0 then body s
    else match (s.ep e).session? session with
      | none => s.spdmSay e (.error .invalidRequest)
      | some _ => body (s.modEp e fun x => x.touch session s.now)

/-- HeartbeatPeriod in s, and how long a silent session lives (R188). -/
def heartbeatS : Nat := 60
def sessionLife : Nat := 2 * heartbeatS * second

/-- The certificate chain of slot 0 (R186), as DSP0274 lays a chain out. -/
def State.spdmChain (s : State) : List Byte :=
  let certs := Config.rootCert ++ Config.deviceCerts.1 ++ (match s.att.certs with | some c => c.2.1 | none => [])
  leBytes 2 (52 + certs.length) ++ [0, 0] ++ (Config.sha384 Config.rootCert).toList ++ certs

/-- The capability flags advertised (R186), as DSP0274 numbers them: CERT 1, CHAL 2, MEAS 3 and 4 (with signature: 4), MEAS_FRESH
5, ENCRYPT 6, MAC 7, KEY_EX 9, HBEAT 13, CHUNK 17. -/
def spdmCaps : List Nat := [1, 2, 4, 5, 6, 7, 9, 13, 17]

/-- Bytes of a MEASUREMENTS response with k blocks (DSP0274). -/
def measSize (k : Nat) (signed : Bool) : Nat := 42 + 55 * k + (if signed then 96 else 0)

/-- Send a large response in chunks: ERROR LargeResponse, and the bytes wait for CHUNK_GET. -/
def State.spdmLarge (s : State) (e : Fin 8) (bytes : List Byte) : State :=
  (s.modEp e fun x => { x with chunkOut := bytes, chunkOutSeq := 0 }).spdmSay e (.error .largeResponse)

end Sys2Proof.Machine
end

