-- ==== Sys2Proof/Machine/Attest.lean ====
section
/-! DEFINITION. Manager extensions, the wall clock, the Tracing writer, the SPDM responder, the observer ports, QUOTE and TRACING_READ
(chapter "Tracing, measurement and identity"). -/

namespace Sys2Proof.Machine

/-! ## Page ATT -/

/-- Complete a manager's extension in ATT_EXT_RES. -/
def State.extResult (s : State) (m : Mgr) (st : Status) : State := s.modAttView m fun v => { v with extStatus := st, extDone := true }

/-- A manager's write of ATT_EXT_CTRL (R176): GO asks for the extension of MEAS4 + INDEX with ATT_EXT_DATA. `released`: the channels whose
release instant falls in its slot. -/
def State.attExt (s : State) (m : Mgr) (v : Word) (released : List Nat) : State :=
  s.regW m 0x00E0F0 fun s =>
    match v.getLsbD 31, fin? 128 (field v.toNat 6 0), fin? 8 (4 + field v.toNat 9 8) with
    | true, some n, some i =>
      let c := s.ch n
      let x := s.att.views.get m
      if !c.released || released.contains n.1 then s.extResult m stNotPermitted
      else if x.extRelt ≠ 0 && x.extRelt.toNat ≠ c.relT % 2 ^ 32 then s.extResult m stSuperseded
      else
        let data : Digest := Vector.ofFn fun j : Fin 48 => BitVec.ofNat 8 (((x.extData.toList.getD (j.1 / 4) 0).toNat) >>> (8 * (j.1 % 4)))
        (s.extend n i 0x0040 [mgrNum m] data).extResult m stSuccess
    | _, _, _ => s

/-- ATT_EXT_GO: the extensions of both managers in one slot apply manager A's first. -/
def execAttExtGo (m : Mgr) (q : ExtGo) (s : State) : Out :=
  .next (match q.rival, m with
    | none, m => s.attExt m q.value q.released
    | some w, .a => (s.attExt .a q.value q.released).attExt .b w q.released
    | some w, .b => (s.attExt .a w q.released).attExt .b q.value q.released)

/-- A write of ATT_WALL_HI (R190): the offset is this view's held low word and HI. Manager A's write of the same slot wins. -/
def execAttWallWrite (m : Mgr) (hi : Word) (rival : Option Word) (s : State) : Out :=
  .next (s.regW m 0x00E06C fun s =>
    let w : Mgr × Word := match m, rival with
      | .b, some r => (.a, r)
      | _, _ => (m, hi)
    let lo := (SMap.get? (s.view w.1).held 0x00E068).getD (s.att.wall.truncate 32)
    State.log { s with att := { s.att with wall := w.2 ++ lo } } 0x0002 devCh [(w.2 ++ lo).toNat, mgrNum w.1])

/-- The ledger writer writes the next queued record (R180). -/
def execTraceRecordWrite (s : State) : Out := .next (if s.mayWrite then s.writeRecord else s)

/-! ## SPDM (R185-R188). What DSP0274 says of order and of its error codes is taken from there (PRESUMED). -/

/-- GET_VERSION: a connection begins anew; inside a session it is out of order. -/
def execGetVersion (ep : Fin 8) (session : Nat) (s : State) : Out :=
  .next (s.spdmReq ep fun s =>
    if session ≠ 0 then (s.modEp ep fun x => x.touch session s.now).spdmSay ep (.error .unexpectedRequest)
    else (s.modEp ep fun x => { x.restart with versioned := true }).spdmSay ep (.version true true))

/-- GET_CAPABILITIES: the version in use is fixed here. -/
def execGetCapabilities (ep : Fin 8) (version : Nat) (s : State) : Out :=
  .next (s.spdmReq ep fun s =>
    if !(s.ep ep).versioned || (s.ep ep).algs then s.spdmSay ep (.error .unexpectedRequest)
    else if version ≠ 12 ∧ version ≠ 13 then s.spdmSay ep (.error .versionMismatch)
    else (s.modEp ep fun x => { x with version := version, caps := true }).spdmSay ep (.capabilities spdmCaps spdmTransfer spdmMax))

/-- NEGOTIATE_ALGORITHMS: one offer of each kind is selected; an offer of none of them is refused. -/
def execNegotiateAlgorithms (ep : Fin 8) (offer : AlgOffer) (s : State) : Out :=
  .next (s.spdmReq ep fun s =>
    if !(s.ep ep).caps then s.spdmSay ep (.error .unexpectedRequest)
    else if !(offer.p384 || offer.sha384 || offer.secp384r1 || offer.aes256gcm || offer.dmtf || offer.spdmSchedule) then
      s.spdmSay ep (.error .unspecified)
    else
      let pick := fun (b : Bool) (code : Nat) => if b then code else 0
      (s.modEp ep fun x => { x with algs := true }).spdmSay ep
        (.algorithms (pick offer.p384 0x80) (pick offer.sha384 2) (pick offer.dmtf 4) (pick offer.dmtf 1) (pick offer.secp384r1 0x10)
          (pick offer.aes256gcm 2) (pick offer.spdmSchedule 1)))

/-- GET_DIGESTS: slot 0 alone is provisioned. -/
def execGetDigests (who : Sender) (s : State) : Out :=
  .next (s.spdmIn who.ep who.session fun s => s.spdmSay who.ep (.digests 1 (Config.sha384 s.spdmChain)))

/-- GET_CERTIFICATE. -/
def execGetCertificate (who : Sender) (slot offset len : Nat) (s : State) : Out :=
  .next (s.spdmIn who.ep who.session fun s =>
    let c := s.spdmChain
    if slot ≠ 0 ∨ c.length ≤ offset then s.spdmSay who.ep (.error .invalidRequest)
    else s.spdmSay who.ep (.certificate ((c.drop offset).take len) (c.length - (offset + min len (c.length - offset)))))

/-- CHALLENGE: summary types TCB (1) and All (0xFF). -/
def execChallenge (who : Sender) (nonce : List Byte) (summary : Nat) (s : State) : Out :=
  .next (s.spdmIn who.ep who.session fun s =>
    if summary ≠ 1 ∧ summary ≠ 0xFF then s.spdmSay who.ep (.error .invalidRequest)
    else
      let blocks := blockData (s.measAll.filter fun b => summary = 0xFF || b.index ≤ 4)
      let r := SpdmReply.challengeAuth (Config.spdmSummary blocks) (Config.spdmSign s.aliasEc nonce blocks s.drawn)
      s.spdmSigned.spdmSay who.ep r)

/-- GET_MEASUREMENTS: index 0 asks for their number, 0xFF for all, any other for one. -/
def execGetMeasurements (who : Sender) (index : Nat) (signed : Bool) (nonce : List Byte) (s : State) : Out :=
  .next (s.spdmIn who.ep who.session fun s =>
    let blocks := if index = 0 then [] else if index = 0xFF then s.measAll else (s.measBlock index).toList
    if index ≠ 0 ∧ blocks = [] then s.spdmSay who.ep (.error .invalidRequest)
    else
      let sig := if signed then some (Config.spdmSign s.aliasEc nonce (blockData blocks) s.drawn) else none
      let r := SpdmReply.measurements (if index = 0 then s.measAll.length else blocks.length) blocks sig
      let large := spdmTransfer < measSize blocks.length signed
      let bytes := Config.spdmMeasurements (blockData blocks) (sig.getD [])
      let s := if signed then s.spdmSigned else s
      if large then s.spdmLarge who.ep bytes else s.spdmSay who.ep r)

/-- KEY_EXCHANGE (R188, R207): its ephemeral key comes from KEY. A session's number in the model is the draw that made it. -/
def execKeyExchange (ep : Fin 8) (exchange : List Byte) (s : State) : Out :=
  .next (s.spdmFull ep fun s =>
    if 8 ≤ s.sessionCount ∨ 2 ≤ (s.ep ep).sessions.length then s.spdmSay ep (.error .sessionLimitExceeded)
    else if s.drbg.keyState ≠ 1 then s.spdmSay ep (.error .unspecified)
    else
      let id := s.drawn + 1
      let r := SpdmReply.keyExchange id heartbeatS (Config.spdmSign s.aliasEc exchange [] s.drawn)
      (s.spdmSigned.modEp ep fun x => { x with sessions := x.sessions ++ [{ id := id, established := false, lastMsg := s.now }] }).spdmSay ep r)

/-- FINISH: the session is established. -/
def execFinish (ep : Fin 8) (session : Nat) (s : State) : Out :=
  .next (s.spdmFull ep fun s => match (s.ep ep).session? session with
    | none => s.spdmSay ep (.error .invalidRequest)
    | some t =>
      let s := s.modEp ep fun x => x.touch session s.now
      if t.established then s.spdmSay ep (.error .unexpectedRequest)
      else (s.modEp ep fun x => { x with sessions := x.sessions.map fun t => if t.id = session then { t with established := true } else t }).spdmSay ep
        .finish)

/-- HEARTBEAT. -/
def execHeartbeat (ep : Fin 8) (session : Nat) (s : State) : Out :=
  .next (s.spdmFull ep fun s => match (s.ep ep).session? session with
    | none => s.spdmSay ep (.error .invalidRequest)
    | some t =>
      let s := s.modEp ep fun x => x.touch session s.now
      if t.established then s.spdmSay ep .heartbeatAck else s.spdmSay ep (.error .unexpectedRequest))

/-- END_SESSION. -/
def execEndSession (ep : Fin 8) (session : Nat) (s : State) : Out :=
  .next (s.spdmFull ep fun s => match (s.ep ep).session? session with
    | none => s.spdmSay ep (.error .invalidRequest)
    | some t =>
      if t.established then
        (s.modEp ep fun x => { x with sessions := x.sessions.filter fun t => t.id ≠ session }).spdmSay ep .endSessionAck
      else s.spdmSay ep (.error .unexpectedRequest))

/-- CHUNK_SEND: chunks of one request in order, up to MaxSPDMmsgSize. -/
def execChunkSend (who : Sender) (seq : Nat) (data : List Byte) (last : Bool) (s : State) : Out :=
  .next (s.spdmIn who.ep who.session fun s =>
    let x := s.ep who.ep
    if (seq ≠ 0 ∧ seq ≠ x.chunkSeq) ∨ spdmTransfer < data.length ∨ spdmMax < (if seq = 0 then 0 else x.chunkIn.length) + data.length then
      (s.modEp who.ep fun x => { x with chunkIn := [], chunkSeq := 0 }).spdmSay who.ep (.error .invalidRequest)
    else
      let all := (if seq = 0 then [] else x.chunkIn) ++ data
      (s.modEp who.ep fun x => { x with chunkIn := if last then [] else all, chunkSeq := if last then 0 else seq + 1 }).spdmSay who.ep
        (.chunkSendAck last))

/-- CHUNK_GET: the next chunk of the response that waits, less DSP0274's header. -/
def execChunkGet (who : Sender) (seq : Nat) (s : State) : Out :=
  .next (s.spdmIn who.ep who.session fun s =>
    let x := s.ep who.ep
    if x.chunkOut = [] then s.spdmSay who.ep (.error .unexpectedRequest)
    else if seq ≠ x.chunkOutSeq then s.spdmSay who.ep (.error .invalidRequest)
    else
      let k := spdmTransfer - (if seq = 0 then 16 else 12)
      let rest := x.chunkOut.drop k
      (s.modEp who.ep fun x => { x with chunkOut := rest, chunkOutSeq := seq + 1 }).spdmSay who.ep (.chunk (x.chunkOut.take k) rest.isEmpty))

/-- Every other request (R185); under R171 it is answered as R171 says. -/
def execUnsupportedSpdmRequest (ep : Fin 8) (session : Nat) (s : State) : Out :=
  .next (s.spdmReq ep fun s =>
    (s.modEp ep fun x => x.touch session s.now).spdmSay ep (.error (if s.attests then .unsupportedRequest else .unspecified)))

/-- A session that saw no message for twice its heartbeat period is ended (R188). -/
def execSpdmSessionTimeout (ep : Fin 8) (session : Nat) (s : State) : Out :=
  .next (match (s.ep ep).session? session with
    | some t =>
      (s.until (t.lastMsg + sessionLife)).modEp ep fun x => { x with sessions := x.sessions.filter fun t => t.id ≠ session }
    | none => s)

/-- DOE discovery (R185): discovery, CMA/SPDM, Secured CMA/SPDM. -/
def execDoeDiscovery (m : Mgr) (s : State) : Out :=
  .next (match m with
    | .a => if s.spdmUp 0 then s.spdmSay 0 (.doeTypes [0, 1, 2]) else s
    | .b => if s.spdmUp 1 then s.spdmSay 1 (.doeTypes [0, 1, 2]) else s)

/-! ## MCTP and I3C (R185, R189) -/

/-- From START the I3C targets and the MCTP endpoints are there. -/
def State.portsUp (s : State) : Bool :=
  s.dev.state = .start || s.dev.state = .running || s.dev.state = .safeHold || s.dev.state = .standby

/-- The bus owner assigns a function's endpoint identifier; 0 and 0xFF are none (DSP0236). -/
def execSetEndpointId (m : Mgr) (eid : Byte) (s : State) : Out :=
  .next (if s.mgrOn m && s.portsUp && eid ≠ 0 && eid ≠ 0xFF then s.modView m fun v => { v with eid := eid, eidValid := true, msgs := v.msgs + 1 }
    else s)

/-- ENTDAA gives a port its dynamic address. -/
def execEntdaa (p : Fin 4) (addr : BitVec 7) (s : State) : Out :=
  .next (if s.portsUp then s.modI3c p fun x => { x with dynAddr := addr, daValid := true } else s)

/-- SETDASA: from the static address of the standing configuration, which is taken at the port's next SETDASA (R315). -/
def execSetdasa (p : Fin 4) (addr : BitVec 7) (s : State) : Out :=
  .next (if !s.portsUp then s
    else
      let c := s.dcfg.i3c.getD p.1 0
      s.modI3c p fun x =>
        let x := { x with staticAddr := BitVec.ofNat 7 c, saEn := bit c 7 }
        if x.saEn then { x with dynAddr := addr, daValid := true } else x)

/-- The controller enables or disables in-band interrupts of a port. -/
def execIbiEnable (p : Fin 4) (on : Bool) (s : State) : Out :=
  .next (if s.portsUp then s.modI3c p fun x => { x with ibiEn := on } else s)

/-- A target error TE0 to TE6, or a packet dropped for a bad PEC. -/
def execI3cTargetError (p : Fin 4) (badPec : Bool) (s : State) : Out :=
  .next (if !s.portsUp then s
    else s.modI3c p fun x => if badPec then { x with dropped := satInc x.dropped } else { x with protocol := satInc x.protocol })

/-! ## QUOTE and TRACING_READ from a ring (R182-R184, R231) -/

/-- QUOTE: taken in the fallback and in SAFE_HOLD. -/
def execQuote (src : Src) (nonce : List Byte) (len : Nat) (s : State) : Out :=
  .next (s.ovdel src (gateOf (.quote src nonce len)) fun s =>
    let r := s.takeQuote (mgrNum src.mgr) nonce len
    r.1.deliver src r.2)

/-- TRACING_READ. -/
def execTracingRead (src : Src) (fromSeq : DWord) (advance header : Bool) (len : Nat) (s : State) : Out :=
  .next (s.ovdel src (gateOf (.tracingRead src fromSeq advance header len)) fun s =>
    let r := s.readTrace (some src.mgr) fromSeq.toNat advance header len
    r.1.deliver src r.2)

end Sys2Proof.Machine
end

