-- ==== Sys2Proof/Machine/RecordOps.lean ====
section
/-! DEFINITION. Ledger records as bytes (R107), staging by the managers (R112), and the version options of the plate commands
(R227). -/

namespace Sys2Proof.Machine

/-! ## The plate table record (R107) -/

/-- A plate entry of 96 bytes. -/
def Plate.bytes (e : Plate) : List Byte :=
  [BitVec.ofNat 8 e.state.code, e.src, e.attempts, BitVec.ofNat 8 (pack [(0, bval e.adv), (1, bval e.tie), (2, bval e.host)])] ++
  leBytes 4 e.svn.toNat ++ leBytes 8 e.build.toNat ++ leBytes 4 e.leaves.toNat ++ leBytes 4 e.locBase.toNat ++
  slice e.family 0 16 ++ slice e.root 0 48 ++ List.replicate 8 0

/-- A plate table record before CHECK. -/
def PTable.body (t : PTable) (seq ch : Nat) : List Byte :=
  leBytes 4 seq ++ [BitVec.ofNat 8 ch, BitVec.ofNat 8 (bval t.conflict), 0, 0] ++ t.a.bytes ++ t.b.bytes ++ t.recov.bytes

/-- The plate table record in use of channel n, 304 bytes. -/
def State.plateRecord (s : State) (n : Fin 128) : List Byte :=
  let b := (s.plates n).body (s.pl n).table.seq n.1
  b ++ s.ledgerCheck b

/-! ## Versions (R227) -/

/-- A plate command that names a pool plate under 1.3. -/
def State.poolUnder13 (s : State) (src : Src) (n : Fin 128) (p : PlateId) : Bool :=
  (s.polOf n).plate.srcOf p = 1 && s.version src.mgr < 0x0200

/-! ## Claims and staging (R112) -/

/-- Manager m's staging of plate p of channel n. -/
def State.stagesOwn (s : State) (m : Mgr) (n : Fin 128) (p : PlateId) : Bool :=
  ((s.plates n).get p).state = .staging && ((s.pl n).staging.get p).claim = some (.manager m)

/-- The source that a staging of the plate uses: the entry's, or for a new staging the policy's. -/
def State.stageSrc (s : State) (m : Mgr) (n : Fin 128) (p : PlateId) : Byte :=
  if s.stagesOwn m n p then ((s.plates n).get p).src else (s.polOf n).plate.srcOf p

/-- The plate is held by someone else: a host session, the other manager, or, where the command touches the local flash, the host through
its port (R72). -/
def State.plateHeld (s : State) (m : Mgr) (n : Fin 128) (p : PlateId) (src : Byte) : Bool :=
  s.sessionPlate n = some p || ((s.plates n).get p).state = .proof ||
  (((s.plates n).get p).state = .staging && ((s.pl n).staging.get p).claim = some (.manager m.other)) ||
  (src = 2 && s.hostOwns n)

/-- The largest manifest: 65,536 leaves, version 3. -/
def manMax : Nat := 0x100 + 48 * 65536 + 5454

/-- A map holds the k keys that follow i, and the keys below them are gone from it. -/
def coversFrom : Nat → Nat → SMap Byte → Bool
  | 0, _, _ => true
  | _ + 1, _, [] => false
  | k + 1, i, e :: m => if e.1 = i then coversFrom k (i + 1) m else false

/-- The manifest staged so far is complete: every byte from 0 to its length. -/
def Staging.manDone (x : Staging) : Bool :=
  let l := manLength (fwBytes x.man 0 256)
  coversFrom 256 0 x.man && l ≤ manMax && coversFrom l 0 x.man

/-- The staged manifest. -/
def Staging.manifest (x : Staging) : List Byte := fwBytes x.man 0 (min (manLength (fwBytes x.man 0 256)) manMax)

/-- Every image byte of the manifest has been staged. -/
def Staging.imgDone (x : Staging) : Bool := coversFrom (manImageLen x.manifest) 0 x.img

/-- The VERSION word of the manifest that a part completes, where both its bytes are staged. -/
def Staging.versionWith (x : Staging) (off : Nat) (data : List Byte) : Option Nat :=
  let at_ := fun i => if off ≤ i ∧ i < off + data.length then data[i - off]? else SMap.get? x.man i
  match at_ 4, at_ 5 with
  | some a, some b => some (a.toNat + 256 * b.toNat)
  | _, _ => none

/-- A manifest part of version 3 under a version before 2.1: an option not permitted (R227). -/
def State.stagesVersion3 (s : State) (m : Mgr) (n : Fin 128) (p : PlateId) (part : Byte) (off : Nat) (data : List Byte) : Bool :=
  let x := if s.stagesOwn m n p then (s.pl n).staging.get p else Staging.reset
  part = 0 && s.version m < 0x0201 && x.versionWith off data = some 3

/-- The pool holds the complete object of a staged manifest (OBJECT_PRESENT). -/
def State.objectPresent (s : State) (n : Fin 128) (p : PlateId) : Bool :=
  let x := (s.pl n).staging.get p
  ((s.plates n).get p).src = 1 && x.manDone && (s.poolObj (manFamily x.manifest) (manRoot x.manifest)).isSome

/-- Bytes put into a map from an offset. -/
def putBytes (m : SMap Byte) (off : Nat) (data : List Byte) : SMap Byte :=
  (data.foldl (fun (a : SMap Byte × Nat) b => (SMap.put a.1 a.2 b, a.2 + 1)) (m, off)).1

/-- A staging with one more part. -/
def Staging.withPart (g : Staging) (part : Byte) (off : Nat) (data : List Byte) : Staging :=
  if part = 0 then { g with man := putBytes g.man off data } else { g with img := putBytes g.img off data }

/-- What manager m has staged of the plate so far. -/
def State.stagedSoFar (s : State) (m : Mgr) (n : Fin 128) (p : PlateId) : Staging :=
  if s.stagesOwn m n p then (s.pl n).staging.get p else Staging.reset

/-- The image's offset in the object of a staging: M, at least 4,096 while the manifest is not complete (R111). -/
def Staging.base (x : Staging) (part : Byte) : Nat :=
  if part = 1 then (if x.manDone then manImageBase x.manifest else 4096) else 0

/-- A part begins or ends outside what it can be stored in: 256 MiB of image, the largest manifest, the region of a local plate. DEDUCED (log
entry 94): a part outside the region is INVALID_FIELD, an object that the region cannot hold RESOURCE_EXHAUSTED. -/
def State.partOutside (s : State) (m : Mgr) (n : Fin 128) (p : PlateId) (part : Byte) (upto : Nat) : Bool :=
  (part = 1 && 268435456 < upto) || (part = 0 && manMax < upto) ||
  (s.stageSrc m n p = 2 && ((s.polOf n).plate.locOf p).2 * 4096 < (s.stagedSoFar m n p).base part + upto)

/-- The byte of the command where its first faulty field lies (R219): OFFSET at 12, LEN at 24; none where both are good (R112). -/
def State.stageField (s : State) (m : Mgr) (n : Fin 128) (p : PlateId) (part : Byte) (off len : Nat) : Option Nat :=
  if (part = 1 && off % 4096 ≠ 0) || s.partOutside m n p part off then some 12
  else if len = 0 || 1048576 < len || s.partOutside m n p part (off + len) then some 24
  else none

/-- The staging storage cannot take the part (R99, R111): the pool has no room, or the region cannot hold the object of the manifest that
is complete with it. -/
def State.stageFull (s : State) (m : Mgr) (n : Fin 128) (p : PlateId) (part : Byte) (off : Nat) (data : List Byte) : Bool :=
  if s.stageSrc m n p = 2 then
    let x := (s.stagedSoFar m n p).withPart part off data
    x.manDone && !(s.polOf n).plate.regionHolds p x.manifest
  else s.poolFull || s.pool.freeMib.toNat < ceilDiv (off + data.length) 1048576

/-- Status of an IMAGE_STAGE, in the order of R112, and last the manifest version (R227). DEDUCED (notes/assumptions/88.md): its place. -/
def State.stageStatus (s : State) (m : Mgr) (n : Fin 128) (p : PlateId) (part : Byte) (off : Nat) (data : List Byte) : Status :=
  let x := (s.plates n).get p
  if p = .recov && (s.polOf n).plate.srcRec = 0 then stInvalidField
  else if x.state = .active then stNotPermitted
  else if s.plateHeld m n p (s.stageSrc m n p) then stBusy
  else if s.isSecondary m then stNotPermitted
  else if s.inhibited then stWriteInhibited
  else if (s.stageField m n p part off data.length).isSome then stInvalidField
  else if s.stageFull m n p part off data then stResourceExhausted
  else if !s.stagesOwn m n p && s.seqFull n then stResourceExhausted
  else if s.stagesVersion3 m n p part off data then stVersionUnsupported
  else stSuccess

/-- The first IMAGE_STAGE of a staging: STAGING committed and the plate claimed (R106). -/
def State.beginStaging (s : State) (m : Mgr) (n : Fin 128) (p : PlateId) : State :=
  let s := s.modPlt n fun x =>
    { x with staging := x.staging.set p { Staging.reset with claim := some (.manager m) }, confirmed := x.confirmed.set p false }
  s.commitTable n ((s.plates n).set p ((s.polOf n).plate.stagingEntry p false)) pcStaging

/-- Write one part; into a local region by programs of the local flash (R73). -/
def State.stagePart (s : State) (n : Fin 128) (p : PlateId) (part : Byte) (off : Nat) (data : List Byte) : State :=
  let s := s.modPlt n fun x => { x with staging := x.staging.set p ((x.staging.get p).withPart part off data) }
  if ((s.plates n).get p).src = 2 then s.localWrite n false data.length else s

/-! ## IMAGE_COMMIT (R112) -/

/-- What judges the leaves of a commit: the status, the leaf, and the verified plaintext where leaves were read. -/
def State.commitLeaves (s : State) (n : Fin 128) (p : PlateId) (readback : Option (List Byte)) : Status × Nat × Option Memory :=
  let x := (s.pl n).staging.get p
  let man := x.manifest
  let resident := match s.lookupPair (manFamily man) (manRoot man) with
    | some i => (s.dirE i).state = .resident
    | none => false
  if s.objectPresent n p && resident then (stSuccess, 0, none)
  else
    let get : Nat → Option (List Byte) :=
      if ((s.plates n).get p).src = 2 then fun i => readback.map fun d => leafOf d i
      else if s.objectPresent n p then s.leafStored (s.poolObj (manFamily man) (manRoot man)) TakeEv.clean .pool
      else fun i => some ((List.range 4096).map fun k =>
        if 4096 * i + k < manImageLen man then (SMap.get? x.img (4096 * i + k)).getD 0xFF else 0xFF)
    match streamLeaves man (s.plateKey man) get (manLeaves man) [] with
    | .error e => (e.1, e.2, none)
    | .ok mem => (stSuccess, 0, some mem)

/-- The conditions of an IMAGE_COMMIT before its manifest is checked: the claim, what is staged, and the manifest's version (R227). -/
def State.commitEarly (s : State) (m : Mgr) (n : Fin 128) (p : PlateId) : Option Status :=
  let x := (s.pl n).staging.get p
  if !s.stagesOwn m n p then some stNotPermitted
  else if !x.manDone || !(s.objectPresent n p || x.imgDone) then some stImageIncomplete
  else if manVersion x.manifest = 3 ∧ s.version m < 0x0201 then some stVersionUnsupported
  else none

/-- Status and leaf of an IMAGE_COMMIT, in the order of R112, with the verified plaintext. -/
def State.imageCommitStatus (s : State) (m : Mgr) (n : Fin 128) (p : PlateId) (readback : Option (List Byte)) :
    Status × Nat × Option Memory :=
  let x := (s.pl n).staging.get p
  match s.commitEarly m n p, s.checkManifest n x.manifest with
    | some st, _ => (st, 0, none)
    | none, .ok =>
      let r := s.commitLeaves n p readback
      if r.1 ≠ stSuccess then r
      else if s.conflicts n x.manifest then (stPlateConflict, 0, none)
      else if !(s.polOf n).plate.regionHolds p x.manifest || (((s.plates n).get p).src ≠ 2 && !s.poolHolds x.manifest) then
        (stResourceExhausted, 0, none)
      else if s.inhibited then (stWriteInhibited, 0, none)
      else if s.seqFull n then (stResourceExhausted, 0, none)
      else r
    | none, v => (v.status, 0, none)

/-- The image bytes of a staging, as stored. -/
def Staging.image (x : Staging) : Memory := x.img.foldl (fun m e => m.write e.1 e.2) []

/-- A pair that is not in the directory becomes RESIDENT by the commit's own take where an entry and extents are free (R112). -/
def State.keepTaken (s : State) (n : Fin 128) (p : PlateId) (man : List Byte) (mem : Option Memory) : State :=
  match mem, s.lookupPair (manFamily man) (manRoot man), (List.finRange 256).find? fun i => (s.dirE i).state = .free with
  | some mem, none, some i =>
    if s.imm.keyValid && extentsOf (manLeaves man) ≤ s.freeExtents then
      let s := s.modDir i fun _ =>
        { Impression.free with
          state := .resident, family := manFamily man, root := manRoot man, leaves := BitVec.ofNat 32 (manLeaves man),
          svn := BitVec.ofNat 32 (manSvn man), enc := manEncrypted man,
          source := if ((s.plates n).get p).src = 2 then .flash n.1 p else .pool, man := man, bytes := mem, idleSince := s.now }
      (s.allocExtents i (manLeaves man)).log 0x0010 devCh [0, i.1, ofLe (manFamily man), ofLe (manRoot man)]
    else s
  | _, _, _ => s

/-- The plate is verified: the object stored, the impression kept, STAGED committed, the claim ended. -/
def State.commitVerified (s : State) (n : Fin 128) (p : PlateId) (mem : Option Memory) : State :=
  let x := (s.pl n).staging.get p
  let man := x.manifest
  let local_ := ((s.plates n).get p).src = 2
  let s := if local_ || s.objectPresent n p then s else s.storePool man x.image
  (s.keepTaken n p man mem).commitStaged n p man false local_

/-! ## PLATE_ERASE (R112) -/

/-- Status of a PLATE_ERASE. -/
def State.eraseStatus (s : State) (m : Mgr) (n : Fin 128) (p : PlateId) : Status :=
  let x := (s.plates n).get p
  if x.state = .active then stNotPermitted
  else if s.plateHeld m n p x.src then stBusy
  else if s.isSecondary m then stNotPermitted
  else if s.inhibited then stWriteInhibited
  else if x.state ≠ .empty && s.seqFull n then stResourceExhausted
  else stSuccess

/-- An object that no plate names any more is reclaimed (R110). -/
def State.dropObject (s : State) (fam root : List Byte) : State :=
  if (List.finRange 128).any fun n => [PlateId.a, .b, .recov].any fun p =>
      let x := (s.plates n).get p
      x.state ≠ .empty && x.src = 1 && x.family = fam && x.root = root then s
  else s.setObjects (s.pool.objs.filter fun o => !(o.family = fam && o.root = root))

/-- EMPTY is committed, then the contents are erased. -/
def State.erasePlate (s : State) (n : Fin 128) (p : PlateId) : State :=
  let x := (s.plates n).get p
  let s := s.commitPlates n ((s.plates n).set p Plate.empty) pcErased
  let s := s.modPlt n fun y =>
    { y with staging := y.staging.set p Staging.reset, localMan := y.localMan.set p [], confirmed := y.confirmed.set p false }
  if x.src = 1 then s.dropObject x.family x.root else if x.src = 2 then s.localWrite n true 0 else s

/-! ## Minimums (R119) -/

/-- Status of an ADVANCE_MIN_VERSION of a family, in the order of R119. -/
def State.advanceStatus (s : State) (fam : List Byte) (v : Nat) : Status :=
  if v < s.familyMin fam then stVersionRollback
  else if v = s.familyMin fam then stSuccess
  else if (List.finRange 128).any fun n => s.chanOn n && (s.polOf n).present && (s.polOf n).plate.family = fam &&
      [PlateId.a, .b].any fun p => ((s.plates n).get p).state = .active && ((s.plates n).get p).svn.toNat < v then stNotPermitted
  else if s.minTable.full fam then stResourceExhausted
  else if s.inhibited then stWriteInhibited
  else stSuccess

/-- Status of an ADVANCE_MIN_VERSION of the device firmware. -/
def State.advanceFwStatus (s : State) (v : Nat) : Status :=
  if v < s.fwMin then stVersionRollback
  else if v = s.fwMin then stSuccess
  else if (s.fwTable.get s.devfw.running).svn.toNat < v then stNotPermitted
  else if s.inhibited then stWriteInhibited
  else stSuccess

/-- Commit DEVFW_MIN: ledger record and MINIMUM record. -/
def State.commitFwMin (s : State) (v : Nat) : State :=
  ({ s with mins := s.mins.commit { s.minTable with devfw := BitVec.ofNat 32 v } }.committed).log 0x0012 devCh [0, v]

/-! ## Staging device firmware (R122) -/

/-- The plate that DEVICE_FW_STAGE writes: the one that is not ACTIVE; where neither is, the one that is not running. -/
def State.fwTarget (s : State) : PlateId :=
  let t := s.fwTable
  if t.a.state = .active then .b else if t.b.state = .active then .a
  else if t.a.state = .proof then .b else if t.b.state = .proof then .a else .a

/-- Status of a DEVICE_FW_STAGE under the conditions of R112. -/
def State.fwStageStatus (s : State) (m : Mgr) (off len : Nat) : Status :=
  let x := s.fwTable.get s.fwTarget
  if x.state = .proof ∨ (x.state = .staging ∧ s.devfw.claim = some m.other) then stBusy
  else if s.isSecondary m then stNotPermitted
  else if s.inhibited then stWriteInhibited
  else if len = 0 ∨ 1048576 < len ∨ 2 * 1024 * 1024 < off + len then stInvalidField
  else stSuccess

/-- Write part of a package; the first part commits STAGING and claims the plate. -/
def State.fwStage (s : State) (m : Mgr) (off : Nat) (data : List Byte) : State :=
  let p := s.fwTarget
  let own := (s.fwTable.get p).state = .staging ∧ s.devfw.claim = some m
  let old := if own then s.fwPkg p else []
  let s := if own then s else (s.commitFwTable (s.fwTable.set p { Plate.empty with state := .staging, src := 3 })).logDevice 0x10 p.code
  let d := { s.devfw with claim := some m }
  { s with devfw := if p = .a then { d with pkgA := putBytes old off data } else { d with pkgB := putBytes old off data } }

/-- The staged plate's entry once its package is verified. -/
def State.fwEntry (s : State) (p : PlateId) (st : PState) (tries : Byte) : Plate :=
  let h := Config.fwHeader (fwBytes (s.fwPkg p) 0 256)
  { Plate.empty with
    state := st, src := 3, attempts := tries, svn := BitVec.ofNat 32 h.svn, build := BitVec.ofNat 64 h.build, root := h.digest }

/-- Status of a DEVICE_FW_COMMIT: the claim, the checks of R122, the supply, and a proof already in progress. -/
def State.fwCommitStatus (s : State) (m : Mgr) (activate : Bool) : Status :=
  let p := s.fwTarget
  let x := s.fwTable.get p
  let mine := x.state = .staging ∧ s.devfw.claim = some m
  if !decide mine && x.state ≠ .staged && x.state ≠ .rejected then stNotPermitted
  else if s.fwCheck p ≠ stSuccess then s.fwCheck p
  else if activate && s.fwTable.onProof.isSome then stBusy
  else if s.inhibited then stWriteInhibited
  else stSuccess

/-- Commit a staging STAGED, then, to activate, PROOF and the restart onto the plate (R122); in DEVICE_RECOVERY PROOF and a warm reset into
the ROM (R124). A plate that is STAGED or REJECTED already keeps its state until it is activated (R106). -/
def State.fwCommit (s : State) (activate : Bool) : State :=
  let p := s.fwTarget
  let s := if (s.fwTable.get p).state = .staging then s.commitFw (s.fwTable.set p (s.fwEntry p .staged 0)) else s
  let s := { s with devfw := { s.devfw with claim := none } }
  let go := activate || s.dev.state = .deviceRecovery
  if !go then s
  else
    let rec? := s.dev.state = .deviceRecovery
    let s := (s.commitFw (s.fwTable.set p (s.fwEntry p .proof (if rec? then 0 else 1)))).logDevice 0x11 (s.fwTable.get p).svn.toNat
    if rec? then s.warmReset (some 5) else (s.runFw p true).ccRestart fwActivate

end Sys2Proof.Machine
end

