-- ==== Sys2Proof/Machine/Plates.lean ====
section
/-! DEFINITION. The commands and events of plates, proofs and device firmware (chapter "Plates, proof boot and recovery"). -/

namespace Sys2Proof.Machine

/-! ## Ends of a proof -/

/-- The proof deadline passes with no acceptance latched (R117): revert, or the hold of R17. -/
def execProofDeadline (n : Fin 128) (s : State) : Out :=
  .next (match (s.pl n).deadline with
    | some d => if s.onProof n then (s.until d).proofFails n 1 else s
    | none => s)

/-- The 60 s of a device-firmware proof end unaccepted (R123). -/
def execDevfwProofDeadline (s : State) : Out :=
  .next (match s.devfw.deadline with
    | some d => if s.devfw.onProof then (s.until d).revertFw fwDeadline else s
    | none => s)

/-- SELFTEST_ACCEPT of the running package. -/
def State.selfAccepts (s : State) : Bool := (Config.fwHeader (fwBytes (s.fwPkg s.devfw.running) 0 256)).selfAccept

/-- The self-test of firmware on proof ends (R123). -/
def execDevfwSelftestDone (pass : Bool) (s : State) : Out :=
  .next (if !s.devfw.onProof || s.dev.ccAbsent then s
  else if !pass then s.revertFw fwSelftest
  else if s.selfAccepts then s.selftestAccept else s)

/-! ## Staging (R112) -/

/-- A plate number of a command: 0 to 2, else INVALID_FIELD at byte 8 (R229); under 1.3 a pool plate is an option that the version does
not permit (R227). -/
def State.withPlate (s : State) (src : Src) (n : Fin 128) (plate : Byte) (body : PlateId → State → State) : State :=
  match plateOf plate.toNat with
  | some p => if s.poolUnder13 src n p then s.deliver src (ans stVersionUnsupported) else body p s
  | none => s.deliver src (ans stInvalidField 8)

/-- IMAGE_STAGE (R112). -/
def execImageStage (src : Src) (ch : Half) (plate part : Byte) (offset : Nat) (data : List Byte) (s : State) : Out :=
  .next (s.ovdel src (gateOf (.imageStage src ch plate part offset data)) fun s =>
    s.withChan src ch fun n s => s.withPlate src n plate fun p s =>
      if 1 < part.toNat then s.deliver src (ans stInvalidField 9)
      else
        let st := s.stageStatus src.mgr n p part offset data
        if st ≠ stSuccess then
          s.deliver src (ans st (if st = stInvalidField then (s.stageField src.mgr n p part offset data.length).getD 8 else 0))
        else
          let s := if s.stagesOwn src.mgr n p then s else s.beginStaging src.mgr n p
          let s := s.stagePart n p part offset data
          s.deliver src (okAns [] (bval (s.objectPresent n p))))

/-- PLATE_ERASE (R112). -/
def execPlateErase (src : Src) (ch : Half) (plate : Byte) (s : State) : Out :=
  .next (s.ovdel src (gateOf (.plateErase src ch plate)) fun s =>
    s.withChan src ch fun n s => match plateOf plate.toNat with
      | none => s.deliver src (ans stInvalidField 8)
      | some p =>
        let st := s.eraseStatus src.mgr n p
        if st = stSuccess then (s.erasePlate n p).deliver src (okAns) else s.deliver src (ans st))

/-- PLATE_STATUS (R229, R107): the record in use. -/
def execPlateStatus (src : Src) (ch : Half) (len : Nat) (s : State) : Out :=
  .next (s.ovdel src (gateOf (.plateStatus src ch len)) fun s =>
    s.withChan src ch fun n s =>
      if len < 304 then s.deliver src (ans stInvalidField 24)
      else
        let t := s.plates n
        s.deliver src { okAns ([BitVec.ofNat 8 t.a.state.code, BitVec.ofNat 8 t.b.state.code, BitVec.ofNat 8 t.recov.state.code, 0] ++
            leBytes 4 (s.pl n).table.seq ++ [BitVec.ofNat 8 (s.plateField n 0xFF)]) with
          data := some (s.plateRecord n) })

/-! ## Proof (R115) -/

/-- The manifest of a plate: of its pool object, or as its local flash holds it. -/
def State.plateMan (s : State) (n : Fin 128) (p : PlateId) : List Byte :=
  let e := (s.plates n).get p
  if e.src = 2 then (s.pl n).localMan.get p else ((s.poolObj e.family e.root).map fun o => o.man).getD []

/-- PLATE_ARM_PROOF (R115, R227, R283): it completes at the release. -/
def execPlateArmProof (src : Src) (ch : Half) (plate : Byte) (s : State) : Out :=
  .next (s.ovdel src (gateOf (.plateArmProof src ch plate)) fun s =>
    s.withChan src ch fun n s => s.withPlate src n plate fun p s =>
      let st := if manVersion (s.plateMan n p) = 3 ∧ s.version src.mgr < 0x0201 then stVersionUnsupported
        else if s.unowned || s.tamper.burnt then stNotPermitted else s.armStatus n p (s.isSecondary src.mgr)
      if st = stSuccess then (s.wait (.cmd src) n .arm).beginArm n p else s.deliver src (ans st))

/-! ## Minimums (R119) -/

/-- ADVANCE_MIN_VERSION: a family of channel ch's policy, or the device firmware for CH 0xFFFF; either manager may tighten. -/
def execAdvanceMinVersion (src : Src) (ch : Half) (family : List Byte) (newMin : Word) (s : State) : Out :=
  .next (s.ovdel src (gateOf (.advanceMinVersion src ch family newMin)) fun s =>
    let fam := slice family 0 16
    if ch = 0xFFFF then
      if fam ≠ List.replicate 16 0 then s.deliver src (ans stInvalidField 8)
      else
        let st := s.advanceFwStatus newMin.toNat
        if st ≠ stSuccess then s.deliver src (ans st)
        else
          let s := if newMin.toNat = s.fwMin then s else s.commitFwMin newMin.toNat
          s.deliver src (okAns (leBytes 4 s.fwMin))
    else s.withChan src ch fun n s =>
      if fam ≠ (s.polOf n).plate.family then s.deliver src (ans stInvalidField 8)
      else
        let st := s.advanceStatus fam newMin.toNat
        if st ≠ stSuccess then s.deliver src (ans st)
        else
          let s := if newMin.toNat = s.familyMin fam then s else (s.commitMin fam newMin).revertBelow
          s.deliver src (okAns (leBytes 4 (s.familyMin fam))))

/-! ## Device firmware (R122, R123) -/

/-- DEVICE_FW_STAGE. -/
def execDeviceFwStage (src : Src) (offset : Nat) (data : List Byte) (s : State) : Out :=
  .next (s.ovdel src (gateOf (.deviceFwStage src offset data)) fun s =>
    let st := s.fwStageStatus src.mgr offset data.length
    if st = stSuccess then (s.fwStage src.mgr offset data).deliver src okAns
    else s.deliver src (ans st (if st ≠ stInvalidField then 0 else if data.length = 0 ∨ 1048576 < data.length then 24 else 12)))

/-- DEVICE_FW_COMMIT. It completes before the restart that it begins. -/
def execDeviceFwCommit (src : Src) (activate : Bool) (s : State) : Out :=
  .next (s.ovdel src (gateOf (.deviceFwCommit src activate)) fun s =>
    if s.isSecondary src.mgr then s.deliver src (ans stNotPermitted)
    else
      let st := s.fwCommitStatus src.mgr activate
      if st = stSuccess then
        (s.deliver src (okAns (leBytes 4 (Config.fwHeader (fwBytes (s.fwPkg s.fwTarget) 0 256)).svn))).fwCommit activate
      else s.deliver src (ans st))

/-- DEVICE_FW_ACCEPT: from either manager, subject to primacy (R225). -/
def execDeviceFwAccept (src : Src) (s : State) : Out :=
  .next (s.ovdel src (gateOf (.deviceFwAccept src)) fun s =>
    if s.isSecondary src.mgr then s.deliver src (ans stNotPermitted)
    else if !s.devfw.onProof then s.deliver src (ans stNotPermitted)
    else if s.inhibited then s.deliver src (ans stWriteInhibited)
    else (s.acceptFw (mgrNum src.mgr)).deliver src okAns)

end Sys2Proof.Machine
end

