-- ==== Sys2Proof/Machine/BurinOps.lean ====
section
/-! DEFINITION. BURIN_OP's descriptor and its checks (R192, R193), edge inputs (R199), computation times (R197), and the allocation of
cores (R203-R205). -/

namespace Sys2Proof.Machine

/-! ## Operations (R191) and lengths -/

/-- The PSET of an operation code. -/
def burinPair (op pset : Nat) : Bool :=
  match op with
  | 0x01 | 0x02 | 0x07 | 0x08 | 0x10 => 1 ≤ pset && pset ≤ 3
  | 0x03 | 0x04 => pset = 4 || pset = 5
  | 0x05 | 0x06 => pset = 0x10
  | 0x09 => pset = 0x11
  | 0x0A | 0x0B => 0x20 ≤ pset && pset ≤ 0x22
  | 0x0C | 0x0D | 0x11 => pset = 0x30 || pset = 0x31
  | 0x0E => pset = 0x40
  | 0x0F => pset = 0x41
  | _ => false

/-- Post-quantum operations (R191). -/
def burinPq (op : Nat) : Bool := (0x0A ≤ op && op ≤ 0x0F) || op = 0x11

/-- USAGE bit of a key taken by reference (R191, R256). -/
def burinUsage (op : Nat) : Option Nat :=
  match op with
  | 0x01 | 0x03 | 0x05 | 0x0A => some 0
  | 0x02 | 0x04 | 0x06 | 0x0B | 0x0E | 0x0F => some 1
  | 0x07 | 0x08 => some 2
  | 0x09 => some 3
  | 0x0D => some 4
  | _ => none

/-- Field length of a curve in bytes: a scalar. -/
def scalarLen (pset : Nat) : Nat := [0, 32, 48, 66, 32, 57].getD pset 0

/-- Public key, private key and signature lengths of a signature set; k: bytes of an RSA modulus. -/
def pubLen (pset k : Nat) : Nat :=
  match pset with
  | 1 | 2 | 3 => 1 + 2 * scalarLen pset
  | 4 | 5 => scalarLen pset
  | 0x10 => k + 4
  | 0x20 => 1312 | 0x21 => 1952 | 0x22 => 2592
  | 0x30 => 1184 | 0x31 => 1568
  | _ => 0

def privLen (pset k : Nat) : Nat :=
  match pset with
  | 1 | 2 | 3 | 4 | 5 => scalarLen pset
  | 0x10 => 5 * (k / 2)
  | 0x20 => 2560 | 0x21 => 4032 | 0x22 => 4896
  | 0x30 => 2400 | 0x31 => 3168
  | _ => 0

def sigLen (pset k : Nat) : Nat :=
  match pset with
  | 1 | 2 | 3 | 4 | 5 => 2 * scalarLen pset
  | 0x10 => k
  | 0x20 => 2420 | 0x21 => 3309 | 0x22 => 4627
  | _ => 0

def ctLen (pset : Nat) : Nat := if pset = 0x31 then 1568 else 1088

/-- Roles of the key operand that a KEY_SLOT replaces (R192). -/
def keyRole (op : Nat) : Option Nat :=
  match op with
  | 0x01 | 0x03 | 0x05 | 0x07 | 0x0A | 0x0D => some 3
  | 0x02 | 0x04 | 0x06 | 0x0B | 0x0C | 0x0E | 0x0F => some 2
  | 0x08 => some 11
  | 0x09 => some 6
  | _ => none

/-- Roles that an operation uses, its key among them (R192). The RSA public key accompanies a private one. -/
def opRoles (op : Nat) : List Nat :=
  match op with
  | 0x01 | 0x03 => [1, 3]
  | 0x02 | 0x04 | 0x06 | 0x0E | 0x0F => [1, 2, 4]
  | 0x05 => [1, 2, 3]
  | 0x07 => [3, 8]
  | 0x08 => [8, 11]
  | 0x09 => [5, 6, 7]
  | 0x0A => [1, 3, 9]
  | 0x0B => [1, 2, 4, 9]
  | 0x0C => [2]
  | 0x0D => [3, 10]
  | _ => []

/-- Digest length of a HASH code. -/
def hashLen (h : Nat) : Nat := [0, 32, 48, 64].getD h 0

/-- The length of an operand is the one required (R193). -/
def lenOk (op pset modbits expbits hashed hash role len : Nat) : Bool :=
  let k := modbits / 8
  match role with
  | 1 => if hashed = 1 then len = hashLen hash else if op = 0x03 then len ≤ 32 * 1024 else len ≤ 16 * 1024 * 1024
  | 2 => if 0x40 ≤ pset then Config.hashSigKeyLen pset len else len = pubLen pset k
  | 3 => len = privLen pset k
  | 4 => if 0x40 ≤ pset then Config.hashSigLen pset len else len = sigLen pset k
  | 5 | 7 => len = k
  | 6 => len = expbits / 8
  | 8 => len = pubLen pset 0
  | 9 => len ≤ 255
  | 10 => len = ctLen pset
  | 11 => len = scalarLen pset
  | _ => false

/-- Bytes of the operation's output: the public part under OUT_TO_SLOT (R194). -/
def outLen (op pset modbits : Nat) (toSlot : Bool) : Nat :=
  match op with
  | 0x01 | 0x03 | 0x05 | 0x0A => sigLen pset (modbits / 8)
  | 0x07 => if toSlot then 0 else scalarLen pset
  | 0x08 => pubLen pset 0
  | 0x09 => modbits / 8
  | 0x0C => ctLen pset + (if toSlot then 0 else 32)
  | 0x0D => if toSlot then 0 else 32
  | 0x10 | 0x11 => pubLen pset 0
  | _ => 0

/-- The operation yields a secret that a slot can hold (R192, R258). -/
def yieldsSecret (op : Nat) : Bool := [0x07, 0x0C, 0x0D, 0x10, 0x11].contains op

/-- TYPE of a key that an operation takes (R256). -/
def keyType (op pset : Nat) : Nat :=
  match op with
  | 0x01 | 0x07 | 0x08 => pset
  | 0x02 => pset + 3
  | 0x03 => pset + 3
  | 0x04 => pset + 5
  | 0x05 => 0x10
  | 0x06 => 0x11
  | 0x09 => 0x12
  | 0x0A => pset
  | 0x0B => pset + 3
  | 0x0D => pset
  | 0x0E | 0x0F => pset
  | _ => 0xFF

/-- TYPE of the slot that takes the secret: the private key's, or AES-256. -/
def secretType (op pset : Nat) : Nat := match op with | 0x10 | 0x11 => pset | _ => 0x50

/-! ## The descriptor (R192) -/

/-- A descriptor's fields. -/
structure BurinDesc where
  op : Nat
  pset : Nat
  flags : Nat
  keySlot : Nat
  outSlot : Nat
  hash : Nat
  nops : Nat
  modbits : Nat
  expbits : Nat
  zeros : Bool
  roles : List (Nat × Nat)

/-- Read a descriptor. -/
def burinDesc (d : List Byte) : BurinDesc :=
  let nops := leAt d 9 1
  let at_ := fun i => 0x20 + 16 * i
  { op := leAt d 0 2, pset := leAt d 2 1, flags := leAt d 3 1, keySlot := leAt d 4 2, outSlot := leAt d 6 2, hash := leAt d 8 1,
    nops := nops, modbits := leAt d 0x0C 4, expbits := leAt d 0x10 4,
    zeros := leAt d 0x0A 2 = 0 && leAt d 0x14 12 = 0 && (List.range (min nops 8)).all fun i => leAt d (at_ i + 1) 3 = 0,
    roles := (List.range (min nops 8)).map fun i => (leAt d (at_ i) 1, leAt d (at_ i + 4) 4) }

def BurinDesc.flag (d : BurinDesc) (i : Nat) : Bool := bit d.flags i

/-- Operand roles the descriptor must carry. -/
def BurinDesc.needs (d : BurinDesc) : List Nat :=
  (opRoles d.op).filter fun r => !(d.flag 1 && keyRole d.op = some r)

/-- A manager may use a slot's key for a usage (R193, R255, R257, R269). -/
def State.slotUsable (s : State) (m : Mgr) (k : Nat) (usage : Nat) (type : Nat → Bool) : Bool :=
  match fin? 256 k with
  | some i =>
    let x := s.slot i
    ownerSlot k && x.material.isSome && x.has usage && type x.type.toNat && x.access.getLsbD (mgrNum m) && !s.tamper.lock
  | none => false

/-- A manager may have a secret put into a slot (R193, R258): a descriptor without material that grants it and fits the secret. -/
def State.slotWritable (s : State) (m : Mgr) (k : Nat) (type : Nat) : Bool :=
  match fin? 256 k with
  | some i =>
    let x := s.slot i
    ownerSlot k && x.material.isNone && x.type.toNat = type && x.access.getLsbD (mgrNum m) && !s.tamper.lock
  | none => false

/-- Operations that take a HASH (R192). -/
def takesHash (op : Nat) : Bool := op = 1 || op = 2 || op = 5 || op = 6

/-- The tests of R193 in order; `len` bytes of descriptor and `resLen` of result buffer. -/
def State.burinCheck (s : State) (m : Mgr) (raw : List Byte) (resLen : Nat) : Status :=
  let d := burinDesc raw
  let keygen := d.op = 0x10 || d.op = 0x11
  let roles := d.roles.map fun r => r.1
  let rsaLike := d.pset = 0x10 || d.pset = 0x11
  let persists := match fin? 256 d.outSlot with | some i => (s.slot i).persist | none => false
  if !burinPair d.op d.pset || !d.zeros || 16 ≤ d.flags || (!keygen && d.nops = 0) || 8 < d.nops || raw.length ≠ 0x20 + 16 * d.nops ||
     !(d.needs.all fun r => roles.contains r) || !(roles.all fun r => d.needs.contains r) || roles.eraseDups.length ≠ roles.length then
    stInvalidField
  else if burinPq d.op && !s.part.pq then stNotPermitted
  else if !(d.roles.all fun r => r.1 = 1 && d.flag 0 || lenOk d.op d.pset d.modbits d.expbits 0 d.hash r.1 r.2) then stInvalidField
  else if (d.flag 0 && !(d.roles.all fun r => r.1 ≠ 1 || (r.2 = hashLen d.hash && d.hash ≠ 0))) ||
          ((d.flag 0 || d.hash ≠ 0) && !takesHash d.op) || 3 < d.hash || (takesHash d.op && d.hash = 0) then stInvalidField
  else if (if rsaLike then !([2048, 3072, 4096, 8192].contains d.modbits) else d.modbits ≠ 0) ||
          (if d.pset = 0x11 then d.expbits % 64 ≠ 0 || d.expbits < 64 || d.modbits < d.expbits else d.expbits ≠ 0) then stInvalidField
  else if resLen < outLen d.op d.pset d.modbits (d.flag 3) then stInvalidField
  else if d.flag 1 && !(match burinUsage d.op with
      | some u => s.slotUsable m d.keySlot u fun t => t = keyType d.op d.pset
      | none => false) then stNotPermitted
  else if (d.flag 3 && !(yieldsSecret d.op && s.slotWritable m d.outSlot (secretType d.op d.pset))) || (keygen && !d.flag 3) then stNotPermitted
  else if d.flag 3 && persists && s.inhibited then stWriteInhibited
  else stSuccess

/-! ## Edge inputs (R199) -/

/-- b to the power of a number's bits, lowest first, modulo m. Base 0 has the result 0, whatever the exponent (R199): `modExp`. -/
def powMod (b m : Nat) : List Bool → Nat
  | [] => 1 % m
  | x :: xs => let r := powMod (b * b % m) m xs; if x then r * b % m else r

/-- b to the power of a number's bits modulo m, as MODEXP gives it. -/
def modExp (b m : Nat) (e : List Bool) : Nat := if b = 0 then 0 else powMod b m e

/-- Bits of a big-endian byte string, lowest first. -/
def bitsOf (bs : List Byte) : List Bool := bs.reverse.flatMap fun b => (List.range 8).map fun i => b.getLsbD i

/-- Bytes of an operand; the key taken from a slot stands for its role. -/
def BurinJob.role (j : BurinJob) (r : Nat) : List Byte :=
  match j.operands.find? fun o => o.role.toNat = r with
  | some o => o.bytes
  | none => if keyRole j.op.toNat = some r then j.key else []

/-- Operands as the external functions take them. -/
def BurinJob.args (j : BurinJob) : List (Nat × List Byte) := j.operands.map fun o => (o.role.toNat, o.bytes)

/-- A number in [1, n - 1]. -/
def inRange (v n : Nat) : Bool := v ≠ 0 && v < n

/-- The status of a job's inputs: the rows of R199 in order. -/
def BurinJob.edge (j : BurinJob) : Status :=
  let op := j.op.toNat
  let pset := j.pset.toNat
  let k := j.modbits.toNat / 8
  let n := Config.groupOrder pset
  let rsa := op = 0x05 || op = 0x06
  let modulus := if rsa then (j.role 2).take k else j.role 7
  let e := ofBe ((j.role 2).drop k)
  let scalar := ofBe (j.role (if op = 0x08 then 11 else 3))
  let secret := op = 0x01 || op = 0x07 || op = 0x08
  let sig := j.role 4
  let half := scalarLen pset
  if (rsa || op = 0x09) && ofBe modulus % 2 = 0 then stModulusInvalid
  else if (op = 0x09 && ofBe modulus ≤ ofBe (j.role 5)) || (secret && n ≤ scalar) || (rsa && (e % 2 = 0 || e < 3)) then stInputRange
  else if (op = 0x02 && !Config.pointOk pset (j.role 2)) || ((op = 0x01 || op = 0x07) && scalar = 0) ||
          ((op = 0x04 || op = 0x0B || op = 0x0C) && !Config.keyDecodes pset (j.role 2)) then stKeyInvalid
  else if (op = 0x07 || op = 0x08) && !Config.pointOk pset (j.role 8) then stPointInvalid
  else if op = 0x08 && scalar = 0 then stResultInvalid
  else if (op = 0x02 && !(inRange (ofBe (sig.take half)) n && inRange (ofBe (sig.drop half)) n)) ||
          (op = 0x06 && !inRange (ofBe sig) (ofBe modulus)) ||
          (op = 0x04 && (n ≤ ofLe (sig.drop half) || !Config.edPointDecodes pset (sig.take half))) then stSigInvalid
  else if [0x02, 0x04, 0x06, 0x0B, 0x0E, 0x0F].contains op &&
          !Config.burinVerifies op pset j.hash.toNat j.flags.toNat j.args j.key then stSignatureFailed
  else stSuccess

/-- The result bytes of a job that succeeds; MODEXP in full. -/
def BurinJob.result (j : BurinJob) (draw : Nat) : List Byte :=
  let op := j.op.toNat
  let len := outLen op j.pset.toNat j.modbits.toNat (bit j.flags.toNat 3)
  if op = 0x09 then
    beBytes len (modExp (ofBe (j.role 5)) (ofBe (j.role 7)) (bitsOf (j.role 6)))
  else slice (Config.burinResult op j.pset.toNat j.hash.toNat j.flags.toNat j.args j.key draw) 0 len

/-- The secret that OUT_TO_SLOT puts into a slot (R258). -/
def BurinJob.secret (j : BurinJob) (draw : Nat) : List Byte :=
  let raw := Config.burinSecret j.op.toNat j.pset.toNat j.args j.key draw
  if j.op = 0x07 then (Config.sha384 (slice raw 0 (scalarLen j.pset.toNat))).toList.take 32
  else if j.op = 0x10 then slice raw 0 (scalarLen j.pset.toNat)
  else if j.op = 0x11 then slice raw 0 64
  else slice raw 0 32

/-! ## Times (R197), in ns: engine cycles at 1.0 GHz -/

/-- ECDSA signing and verification, point multiplication, key generation by curve. -/
def eccTime (op pset : Nat) : Nat :=
  1000 * (match op with
    | 0x01 => [0, 70, 160, 400]
    | 0x02 => [0, 95, 210, 520]
    | 0x03 => [0, 0, 0, 0, 60, 150]
    | 0x04 => [0, 0, 0, 0, 80, 190]
    | 0x10 => [0, 60, 140, 350]
    | _ => [0, 65, 150, 370]).getD pset 0

/-- Position of a modulus length in the tables. -/
def modIndex (modbits : Nat) : Nat := if modbits = 2048 then 0 else if modbits = 3072 then 1 else if modbits = 4096 then 2 else 3

/-- Bits of a number. -/
def bitLen (n : Nat) : Nat := if n = 0 then 0 else n.log2 + 1

/-- The time of an LMS or XMSS verification (R197): stated with four hash lanes for one-level LMS with SHA-256/192, H20, W4, and for
XMSS-SHA2_20_192, which SP 800-208's lengths of the signature tell apart (PRESUMED, log entry 71); open otherwise. -/
def hashSigTime (op len lanes : Nat) : Nat :=
  if op = 0x0E && (len = 1740 || len = 1744) && 4 ≤ lanes then 310000
  else if op = 0x0F && len = 1732 && 4 ≤ lanes then 420000
  else Config.hashSigTime op len lanes

/-- Computation time of a job; `slots`: the attempt slots of ML-DSA signing; `lanes`: the hash lanes in service. -/
def BurinJob.time (j : BurinJob) (slots lanes : Nat) : Nat :=
  let op := j.op.toNat
  let pset := j.pset.toNat
  let i := modIndex j.modbits.toNat
  match op with
  | 0x03 =>
    let len := (j.role 1).length
    eccTime op pset + (if pset = 4 then 2 * (ceilDiv len 128 * 8) else 2 * (ceilDiv len 136 * 10))
  | 0x05 => [1200000, 4000000, 9000000, 70000000].getD i 0
  | 0x06 => [16000, 25000, 34000, 140000].getD i 0 * bitLen (ofBe ((j.role 2).drop (j.modbits.toNat / 8))) / 17
  | 0x09 => j.expbits.toNat / 64 * [280000, 630000, 1100000, 4400000].getD i 0
  | 0x0A => slots * [30000, 45000, 70000].getD (pset - 0x20) 0
  | 0x0B => [40000, 60000, 95000].getD (pset - 0x20) 0
  | 0x0C => if pset = 0x31 then 38000 else 25000
  | 0x0D => if pset = 0x31 then 45000 else 30000
  | 0x11 => if pset = 0x31 then 30000 else 20000
  | 0x0E | 0x0F => hashSigTime op (j.role 4).length lanes
  | _ => eccTime op pset

/-- The operation has yield points (R203): those whose longest run is "whole" have none. -/
def BurinJob.yields (j : BurinJob) : Bool := !([0x06, 0x0B, 0x0C, 0x0D, 0x11].contains j.op.toNat)

/-- Computed so far at a device time. -/
def BurinJob.done (j : BurinJob) (now : Nat) : Nat := j.ran + (now - j.since)

/-! ## Completion -/

/-- Complete a job's command. -/
def State.finishJob (s : State) (j : BurinJob) (st : Status) (info : Nat := 0) (result : List Byte := []) : State :=
  match j.owner with
  | .queue m q => s.finish { mgr := m, sq := q, cid := j.cid } st info result
  | .internal | .none => s


/-- Count aborted jobs. -/
def Core.abort (c : Core) (k : Nat) : Core := { c with aborts := BitVec.ofNat 8 (min 255 (c.aborts.toNat + k)) }

/-- Every running and suspended job of a core completes with ABORTED (R205); its memory is wiped where a job was running, or `wipe` says so
(R201, R204, R271). -/
def State.abortCore (s : State) (k : Fin 4) (wipe : Bool) : State :=
  let c := s.core k
  let jobs := c.job.toList ++ c.susp
  let s := s.modCore k fun c =>
    let c' := { c with job := none, susp := [], state := if c.state = 1 then 0 else c.state,
                       lastOwner := match c.job with | some j => j.owner | none => c.lastOwner }
    let c' := c'.abort jobs.length
    if wipe || c.job.isSome then c'.wipe s.now else c'
  s.forAll jobs fun j s => s.finishJob j stAborted

/-! ## Allocation (R203) -/

/-- The class in effect. -/
def BurinJob.class (j : BurinJob) : Nat := if j.promoted && j.cls = 0 then 1 else j.cls.toNat

/-- j goes before k: a higher class, or older within it. -/
def BurinJob.before (j k : BurinJob) : Bool := k.class < j.class || (k.class = j.class && j.arrived < k.arrived)

/-- The candidate that goes first; the first of equals. -/
def bestJob : List BurinJob → Option BurinJob
  | [] => none
  | j :: l => match bestJob l with
    | some k => if k.before j then some k else some j
    | none => some j

/-- The core is in service. -/
def Core.inService (c : Core) : Bool := c.state = 0 || c.state = 1

/-- Put a job on a core, after the wipe that it is in, and a wipe of 8 µs where the owner differs from the last one's (R204). -/
def State.loadJob (s : State) (k : Fin 4) (j : BurinJob) : State :=
  s.modCore k fun c =>
    let other := c.lastOwner ≠ .none && c.lastOwner ≠ j.owner
    let c := if other then c.wipe (max s.now c.wipeEnd) else c
    { c with state := 1, job := some { j with loaded := true, since := max s.now c.wipeEnd }, lastOwner := j.owner, wiped := false }

/-- A waiting job takes a core: its key is loaded, unless the slot has changed since the command (R205). -/
def State.takeCore (s : State) (k : Fin 4) (j : BurinJob) : State :=
  let s := { s with burin := { s.burin with waiting := s.burin.waiting.filter fun x => x.id ≠ j.id } }
  if bit j.flags.toNat 1 then
    match fin? 256 j.keySlot.toNat with
    | some i =>
      let x := s.slot i
      match x.material with
      | some key =>
        if x.stamp = j.keyStamp then
          (s.modSlot i fun x => { x with uses := satInc x.uses }).loadJob k { j with key := key }
        else s.finishJob j stNotPermitted
      | none => s.finishJob j stNotPermitted
    | none => s.finishJob j stNotPermitted
  else s.loadJob k j

/-- One allocation: a suspended context of an idle core that no waiting job goes before, else the best waiting job on a core of its own
owner or the first idle one. -/
def State.allocate (s : State) : State :=
  let idle := (List.finRange 4).filter fun k => (s.core k).state = 0
  let best := bestJob s.burin.waiting
  let back := idle.find? fun k => match bestJob (s.core k).susp, best with
    | some c, some w => !w.before c
    | some _, none => true
    | none, _ => false
  match back with
  | some k => match bestJob (s.core k).susp with
    | some j => (s.modCore k fun c => { c with susp := c.susp.filter fun x => x.id ≠ j.id }).loadJob k j
    | none => s
  | none => match best with
    | some j => match s.coreFor j.owner with
      | some k => s.takeCore k j
      | none => s
    | none => s

/-- Allocate until every core is busy or nothing waits. -/
def State.allocateN : Nat → State → State
  | 0, s => s
  | k + 1, s => State.allocateN k s.allocate

/-- Cores take what waits; only while the device serves, and the control cluster is present (R19). -/
def State.dispatchJobs (s : State) : State :=
  if (s.dev.state = .running || s.dev.state = .safeHold) && !s.dev.ccAbsent then State.allocateN (s.burin.waiting.length + 12) s else s

/-- The jobs of commands that run again after a device start are judged against the slots as they are now (R205, R217). -/
def State.restampJobs (s : State) : State :=
  { s with burin := { s.burin with waiting := s.burin.waiting.map fun j => match fin? 256 j.keySlot.toNat with
      | some k => { j with keyStamp := (s.slot k).stamp }
      | none => j } }

/-! ## Output checks and draws (R198, R200, R206) -/

/-- The operation carries an output check (R200). -/
def BurinJob.checked (j : BurinJob) : Bool := !([0x02, 0x04, 0x06, 0x0B, 0x0C, 0x0E, 0x0F].contains j.op.toNat)

/-- The check that the event reports as failed exists: the output check of an operation that has an output, or the seal of a context that
yielded (R200, R203). -/
def BurinJob.canFault (j : BurinJob) (st : Status) : Bool := j.ran ≠ 0 || (j.checked && st = stSuccess)

/-- The draws of a job: a fresh one for each attempt slot of ML-DSA signing; key generation draws from KEY. -/
def State.jobDraws (s : State) (j : BurinJob) (slots : Nat) : State :=
  if j.op = 0x10 || j.op = 0x11 then s.draw.2 else s.drawGeneral (max 1 slots)

/-- The job needs KEY: key generation, or the SALT of a vault commit (R206, R207, R259). -/
def State.jobNeedsKey (s : State) (j : BurinJob) : Bool :=
  j.op = 0x10 || j.op = 0x11 || (bit j.flags.toNat 3 && (match fin? 256 j.outSlot.toNat with | some k => (s.slot k).persist | none => false))

/-! ## Hash jobs (R195, R196) -/

/-- Digest length by ALG; SHAKE has none of its own. -/
def algLen (alg : Nat) : Nat := [0, 32, 48, 64, 32, 48, 0, 0, 32, 48, 64].getD alg 0

/-- SHAKE128 or SHAKE256, and the HMACs. -/
def algShake (alg : Nat) : Bool := alg = 6 || alg = 7
def algHmac (alg : Nat) : Bool := alg = 8 || alg = 9 || alg = 10

/-- The output of an algorithm. -/
def hashOutput (alg : Nat) (key data : List Byte) (len : Nat) : List Byte :=
  match alg with
  | 2 => (Config.sha384 data).toList
  | 9 => (Config.hmac384 key data).toList
  | 10 => slice (Config.hmac512 key data) 0 64
  | _ => slice (Config.hashOf alg key data len) 0 len

end Sys2Proof.Machine
end

