-- ==== Sys2Proof/Machine/TamperOps.lean ====
section
/-! DEFINITION. Tamper levels, trips and the Burnish (R267-R274), and what follows a Burin fault (R201, R202). -/

namespace Sys2Proof.Machine

/-! ## Levels (R269, R316) -/

/-- Field i of a word of two-bit levels. -/
def level2 (w i : Nat) : Nat := field w (2 * i + 1) (2 * i)

/-- The level in force of source i: the highest of the floor, the owner policy's and the standing configuration's. -/
def State.tamperLevel (s : State) (i : Nat) : Nat :=
  max (level2 0x00203 i) (max (level2 s.tamperPol.levels.toNat i) (level2 s.dcfg.levels i))

/-- LOOP_N in force: the lower value. -/
def State.loopN (s : State) : Nat := min s.tamperPol.loopN s.dcfg.loopN

/-- Kinds of a KEY record; the numbers are the model's (log entry 34): 1 key update, 2 Burnish, 3 tamper response, 4 vault. -/
def State.logKey (s : State) (kind : Nat) (info : List Nat) : State := s.log 0x0050 devCh (kind :: info)

/-! ## The Burnish (R271) -/

/-- A channel at the Burnish: held under a DEVICE hold, and its HOLD# sinks at once through its latch. Its arming is stopped. -/
def State.burnishChan (s : State) (n : Fin 128) : State :=
  let s := s.endArming n stAborted
  let s := if (s.ch n).state.live || (s.ch n).state = .held then s.hold n .device .device none else s
  let s := if (s.ch n).sink then s else s.reachHold n
  s.modCtl n fun c => { c with bound := none, plate := none, pins := [] }

/-- Steps 3 to 5: the key store, both SALTs and Burin. -/
def State.burnishKeys (s : State) : State :=
  let salt := fun c : LCopy VaultRec => match c with
    | .valid q v => LCopy.valid q { v with salt := none }
    | c => c
  let s := { s with
    keys := { s.keys with
      slots := s.keys.slots.map fun (k : KeySlot) => { KeySlot.empty with stamp := k.stamp + 1 },
      vault := { c0 := salt s.keys.vault.c0, c1 := salt s.keys.vault.c1 }, transport := false, keepSalt := none },
    wdg := s.wdg.map fun (w : Wdg) => { w with key := [] },
    att := { s.att with keysReady := false },
    imm := { s.imm with keyValid := false }, dev := { s.dev with zeroised := true } }
  s.forAll (List.finRange 4) fun k s => s.abortCore k true

/-- Graver's command in progress ends with a status (R163, R290). OTP_LAST shows OTP_PROGRAM and OTP_FINALISE only, not a read. -/
def State.endOtp (s : State) (st : Status) : State :=
  match s.otp.busy with
  | some (src, r) =>
    let o := { s.otp with busy := none, state := 0 }
    State.deliver { s with otp := if s.otp.state = 2 then o else { o with lastStatus := st, lastRegion := BitVec.ofNat 3 r } } src (ans st)
  | none => s

/-- The Burnish. `source`: 0 to 9, or 16 for ZEROIZE. -/
def State.burnish (s : State) (source level : Nat) : State :=
  let s := { s with tamper := { s.tamper with
    last := BitVec.ofNat 5 source, burnishes := satInc s.tamper.burnishes, btime := BitVec.ofNat 64 s.now, burnt := true } }
  let s := ((s.forChans fun n s => s.burnishChan n).endOtp stAborted).burnishKeys
  let s := { s.endSessions with
    fca := { s.fca with lines := [] }, mbx := s.mbx.map fun (b : Mailbox) => { b with cdi := [], cdiTaken := true },
    hash := { a := { s.hash.a with ctxs := [] }, b := { s.hash.b with ctxs := [] } },
    imm := { s.imm with dir := Vector.replicate 256 Impression.free, relocating := false },
    areas := s.areas.map Areas.restart }
  (((s.raise 0x0601 devCh [source, level]).raise 0x0602 devCh [source]).logKey 2 [source]).dispatchJobs

/-! ## Trips (R267, R269) -/

/-- The sources of a list trip at once: each that was inactive is counted, each of a level above 0 is latched, and the highest level acts,
for the sources that have it. A trip at level 2 or 3 wakes the device from STANDBY (R274). -/
def State.trip (s : State) (sources : List Nat) : State :=
  let new := sources.filter fun i => !s.tamper.active.getLsbD i
  let lvl := new.foldl (fun a i => max a (s.tamperLevel i)) 0
  let s := s.forAll new fun i s =>
    let s := { s with tamper := { s.tamper with active := putBit s.tamper.active i true, trips := satInc s.tamper.trips } }
    let l := s.tamperLevel i
    if l = 0 then s
    else
      let s := { s with tamper := { s.tamper with latched := putBit s.tamper.latched i true } }
      if l = 3 || l < lvl then s else (s.raise 0x0601 devCh [i, l]).logKey 3 [i, l]
  let s := if lvl = 2 then { s with tamper := { s.tamper with lock := true, ledger := (true, s.tamper.latched) } } else s
  let s := match new.find? fun i => s.tamperLevel i = 3 with
    | some i => s.burnish i 3
    | none => s
  if 2 ≤ lvl then s.wakeUp else s

/-! ## Burin faults (R201, R202) -/

/-- Faults of the last FAULT_S seconds. -/
def State.recentFaults (s : State) : List Nat := s.burin.recent.filter fun t => s.now < t + s.dcfg.faultS * second

/-- A burst: FAULT_N faults within FAULT_S. -/
def State.noteFault (s : State) : State :=
  let r := s.recentFaults ++ [s.now]
  let s := { s with burin := { s.burin with recent := r } }
  if s.dcfg.faultN ≠ 0 && s.dcfg.faultN ≤ r.length then
    (s.raise 0x0603 devCh [r.length, s.dcfg.faultS]).trip [9]
  else s

/-- Reasons of a core's leaving service, beside TAKE_OUT: a fault, its engine watchdog. The spec gives them no numbers (log entry 32). -/
def coreFaultReason : Nat := Config.eventWord 32
def coreWatchdog : Nat := Config.eventWord 33
def coreTaken : Nat := Config.eventWord 18

/-- A core leaves service (R201): its suspended jobs complete with ABORTED; after a fault, and where a job was running, its memory is
wiped. -/
def State.coreOut (s : State) (k : Fin 4) (reason : Nat) (test : Bool) : State :=
  let s := s.abortCore k test
  (s.modCore k fun c => { c with state := if test then 3 else 4, outAfter := false, testEnd := s.now + 2 * msec }).unitOut unitBurin k.1 reason

/-- A check fails on core k (R201): counted, the core out of service, BURIN_FAULT. -/
def State.coreFault (s : State) (k : Fin 4) (owner : Owner) (op : Nat) : State :=
  let s := s.modCore k fun c => { c with job := none, lastOwner := owner, faults := satInc c.faults }
  ((s.coreOut k coreFaultReason true).raise 0x0806 devCh [k.1, op]).noteFault

/-- A manager's job fails its check: `j` was running on core k. It completes with FAULT_DETECTED and its RESULT. -/
def State.coreFaulted (s : State) (k : Fin 4) (j : BurinJob) (res : List Byte) : State :=
  let s := (s.modCore k fun c => { c with job := none }).finishJob j stFaultDetected 0 res
  (s.coreFault k j.owner j.op.toNat).dispatchJobs

/-- A job of the device itself, with the number of its runs whose check fails (R201): one is run once more on another core, a second fails
the operation. Answers whether it stands. -/
def State.internalJob (s : State) (op time faults : Nat) : Bool × State :=
  let fault := fun s : State => match s.coreFor .internal with
    | some k => s.coreFault k .internal op
    | none => s
  match faults with
  | 0 => (true, s.internalRun time)
  | 1 => (true, ((fault s).internalRun time).dispatchJobs)
  | _ => (false, (fault (fault s)).dispatchJobs)

end Sys2Proof.Machine
end

