-- ==== Sys2Proof/Machine/VaultOps.lean ====
section
/-! DEFINITION. The vault and key-update messages (R258-R266), slot descriptors and KEY_INFO (R261). -/

namespace Sys2Proof.Machine

/-! ## The vault (R259) -/

/-- The vault counter. -/
def State.vaultCounter (s : State) : Nat := match s.keys.vault.cur with | some v => v.counter.toNat | none => 0

/-- OWNER slots that the vault keeps. -/
def persisted (slots : Vector KeySlot 256) : List (Nat × KeySlot) :=
  ((List.finRange 256).filter fun k => ownerSlot k.1 && (vget slots k).persist).map fun k => (k.1, vget slots k)

/-- The vault root key of a SALT, and K_keep (R259). -/
def State.vaultRoot (s : State) (salt : Nat) : List Byte := Config.hmac512 s.otp.uds (ascii "SKD-VAULT" ++ drawBytes salt 32)
def keepKey (root : List Byte) : List Byte := (Config.hmac384 root (ascii "SKD-KEEP")).toList.take 32

/-- The vault root key and K_keep of a SALT take their slots (R87, R255, R259). -/
def State.putVaultKeys (s : State) (salt : Nat) : State :=
  let root := s.vaultRoot salt
  State.putDevKey (State.putDevKey { s with keys := { s.keys with keepSalt := some salt } } .vaultRoot root) .keep (keepKey root)

/-- Commit the slots' vault entries with a counter and a fresh SALT. KEEP blocks written from now on are sealed under it (R265). -/
def State.commitVault (s : State) (slots : Vector KeySlot 256) (counter : DWord) : State :=
  let d := s.draw
  let v : VaultRec := { counter := counter, salt := some d.1, entries := persisted slots }
  State.committed (State.putVaultKeys { d.2 with keys := { s.keys with vault := s.keys.vault.commit v, slots := slots } } d.1)

/-! ## Types (R256) -/

/-- The USAGE bits that a TYPE permits. -/
def typeUsages (t : Nat) : List Nat :=
  if [1, 2, 3].contains t then [0, 2]
  else if [7, 8, 0x10, 0x20, 0x21, 0x22].contains t then [0]
  else if [4, 5, 6, 9, 0x0A, 0x11, 0x23, 0x24, 0x25, 0x40, 0x41].contains t then [1]
  else if t = 0x12 then [3]
  else if t = 0x30 || t = 0x31 then [4]
  else if t = 0x50 then [8]
  else if t = 0x51 then [7]
  else if t = 0x60 then [5, 6]
  else []

/-- The material length that a TYPE takes. -/
def typeLen (t len : Nat) : Bool :=
  match t with
  | 1 | 2 | 3 => len = scalarLen t
  | 4 | 5 | 6 => len = pubLen (t - 3) 0
  | 7 | 9 => len = 32
  | 8 | 0x0A => len = 57
  | 0x10 => [2048, 3072, 4096, 8192].any fun b => len = privLen 0x10 (b / 8)
  | 0x11 => [2048, 3072, 4096, 8192].any fun b => len = pubLen 0x10 (b / 8)
  | 0x12 => 8 ≤ len && len ≤ 1024 && len % 8 = 0
  | 0x20 | 0x21 | 0x22 => len = 32
  | 0x23 | 0x24 | 0x25 => len = pubLen (t - 3) 0
  | 0x30 | 0x31 => len = 64
  | 0x40 | 0x41 => Config.hashSigKeyLen t len
  | 0x50 => len = 32
  | 0x51 => len = 64
  | 0x60 => 32 ≤ len && len ≤ 128
  | _ => false

/-! ## Key-update messages (R262-R265) -/

/-- An entry of the payload. -/
structure KeyEntry where
  op : Nat
  type : Nat
  slot : Nat
  usage : Nat
  access : Nat
  persist : Nat
  len : Nat
  zeros : Bool
  label : List Byte
  material : List Byte

/-- Read k entries, and whether they are all there and nothing is left over. -/
def keyEntries : Nat → List Byte → List KeyEntry × Bool
  | 0, bs => ([], bs.isEmpty)
  | k + 1, bs =>
    let len := leAt bs 8 2
    let size := 32 + 8 * ceilDiv len 8
    if bs.length < size then ([], false)
    else
      let e : KeyEntry :=
        { op := leAt bs 0 1, type := leAt bs 1 1, slot := leAt bs 2 2, usage := leAt bs 4 2, access := leAt bs 6 1,
          persist := leAt bs 7 1, len := len, zeros := leAt bs 0x0A 6 = 0, label := slice bs 0x10 16, material := slice bs 32 len }
      let r := keyEntries k (bs.drop size)
      (e :: r.1, r.2)

/-- Step 10 for one entry (R264, R256). -/
def KeyEntry.ok (e : KeyEntry) : Bool :=
  let desc := (typeUsages e.type).any (fun u => e.usage = 2 ^ u) && e.access < 8 && e.persist < 2
  e.zeros && 144 ≤ e.slot && e.slot ≤ 255 &&
  match e.op with
  | 0 => desc && typeLen e.type e.len && (3 < e.type || inRange (ofBe e.material) (Config.groupOrder e.type))
  | 1 => desc && e.len = 0
  | 2 => e.len = 0
  | _ => false

/-- The first entry at fault: out of form, or naming a slot a second time. -/
def badEntry (l : List KeyEntry) : Option Nat :=
  (List.range l.length).find? fun i => match l[i]? with
    | some e => !e.ok || (l.take i).any fun x => x.slot = e.slot
    | none => false

/-- An entry applied to the slots. -/
def KeyEntry.apply (e : KeyEntry) (slots : Vector KeySlot 256) : Vector KeySlot 256 :=
  match fin? 256 e.slot with
  | some i => vmod slots i fun k =>
    if e.op = 2 then { KeySlot.empty with stamp := k.stamp + 1 }
    else { type := BitVec.ofNat 8 e.type, usage := BitVec.ofNat 16 e.usage, access := BitVec.ofNat 3 e.access, persist := e.persist = 1,
           origin := 1, label := e.label, material := if e.op = 0 then some e.material else none, uses := 0, stamp := k.stamp + 1 }
  | none => slots

/-- The slots after a message (R265). -/
def applyEntries (l : List KeyEntry) (replace : Bool) (slots : Vector KeySlot 256) : Vector KeySlot 256 :=
  let slots := if replace then
      Vector.ofFn fun k : Fin 256 =>
        if ownerSlot k.1 && !(l.any fun e => e.slot = k.1) then { KeySlot.empty with stamp := (vget slots k).stamp + 1 } else vget slots k
    else slots
  l.foldl (fun v e => e.apply v) slots

/-- Bytes of the signature block of R78. -/
def sigBlockLen (pq : Bool) : Nat := if pq then 5454 else 193

/-- The signature block of R78 at an offset. -/
def sigBlockAt (m : List Byte) (o : Nat) : SigBlock :=
  { ecKey := slice m o 97, ecSig := slice m (o + 97) 96, pqKey := slice m (o + 193) 1952, pqSig := slice m (o + 2145) 3309 }

/-- An owner entry with the KMK role signed these bytes. -/
def State.kmkSigned (s : State) (g : SigBlock) (body : List Byte) : Bool :=
  (List.range 4).any fun k => s.otp.ownUsable k && bit (s.otp.ownRoles k) 1 && g.by (s.otp.ownKeyOf k) body s.part.pq

/-- The payload of a key-update message in clear (R262, R263): header, KEM block, payload. None where the tag fails, or the point of the KEM
block is none to agree with, or (DESIGN CHOICE, log entry 77) the transport keys are gone after a Burnish. -/
def State.openUpdate (s : State) (pq : Bool) (hdr kem pay : List Byte) : Option (List Byte) :=
  match s.devKey .kupdEc, s.devKey .kupdPq with
  | some d, some seed => match Config.ecdhX d (slice kem (kem.length - 97) 97) with
    | some x =>
      let secret := (if pq then Config.mlkemDecaps seed (slice kem 0 1568) else []) ++ x
      let k := (Config.hmac384 secret (ascii "SKD-KUPD" ++ (Config.sha384 (hdr ++ kem)).toList)).toList.take 32
      Config.gcmOpen k (slice pay 0 12) hdr (slice pay 12 (pay.length - 28)) (slice pay (pay.length - 16) 16)
    | none => none
  | _, _ => none

/-- KEY_UPDATE (R264): its checks in order, then R265. -/
def State.keyUpdate (s : State) (m : Mgr) (msg : List Byte) : State × Answer :=
  let flags := leAt msg 0x40 4
  let pq := bit flags 0
  let nent := leAt msg 0x44 4
  let payOff := leAt msg 0x4C 4
  let payLen := leAt msg 0x50 4
  let sigOff := leAt msg 0x54 4
  if s.isSecondary m then (s, ans stNotPermitted)
  else if !(s.otp.region? 4).ok || !(s.otp.region? 2).ok || s.drbg.keyState = 2 || s.tamper.lock then (s, ans stNotPermitted)
  else if leAt msg 0 4 ≠ 0x444B5552 || leAt msg 4 2 ≠ 1 then (s, ans stVersionUnsupported)
  else if leAt msg 6 2 ≠ 0x100 || 4 ≤ flags || nent = 0 || 112 < nent || leAt msg 0x48 4 ≠ 0x100 ||
      payOff ≠ 0x100 + (if pq then 1665 else 97) || payLen < 28 + 32 * nent || sigOff ≠ payOff + payLen ||
      !((slice msg 0x58 168).all fun b => b = 0) || msg.length ≠ sigOff + sigBlockLen pq then (s, ans stInvalidField 16)
  else if slice msg 8 48 ≠ s.identity.toList || pq ≠ s.part.pq then (s, ans stNotPermitted)
  else if !s.kmkSigned (sigBlockAt msg sigOff) (Config.sha384 (msg.take sigOff)).toList then (s, ans stSignatureFailed)
  else if leAt msg 0x38 8 ≤ s.vaultCounter then (s, ans stCounterStale)
  else if s.dev.zeroised && !bit flags 1 then (s, ans stNotPermitted)
  else match s.openUpdate pq (msg.take 0x100) (slice msg 0x100 (payOff - 0x100)) (slice msg payOff payLen) with
    | none => (s, ans stDigestMismatch)
    | some plain =>
      let l := keyEntries nent plain
      match badEntry l.1 with
      | some i => (s, ans stInvalidField i)
      | none =>
        if !l.2 then (s, ans stInvalidField (min l.1.length (nent - 1)))
        else if s.inhibited then (s, ans stWriteInhibited)
        else
          let counter := leAt msg 0x38 8
          let s := s.commitVault (applyEntries l.1 (bit flags 1) s.keys.slots) (BitVec.ofNat 64 counter)
          let s := { s with dev := { s.dev with zeroised := false } }
          ((s.raise 0x080E devCh [counter]).logKey 1 [counter], okAns (leBytes 8 counter))

/-- Count a KEY_UPDATE in KEY_CNT and KEY_LAST. -/
def State.noteKeyUpdate (s : State) (st : Status) : State :=
  { s with keys := { s.keys with
      lastStatus := st, accepted := if st = stSuccess then satInc s.keys.accepted else s.keys.accepted,
      refused := if st = stSuccess then s.keys.refused else satInc s.keys.refused } }

/-! ## Slots as KEY_DESC and KEY_INFO show them -/

/-- Class: 0 DEVICE, 1 WATCHDOG, 2 OWNER (R255). -/
def slotClass (k : Nat) : Nat := if k < 16 then 0 else if k < 144 then 1 else 2

/-- Slot k: under KEY_SRC = 0, K_wdg[n] stands in slot 16 + n as an HMAC key of usage WDG, for internal use (R255, R256). -/
def State.slotView (s : State) (k : Fin 256) : KeySlot :=
  match fin? 128 (k.1 - 16) with
  | some n =>
    if 16 ≤ k.1 && !(s.polOf n).wdg.keySrc && !(s.wd n).key.isEmpty then
      { KeySlot.empty with type := 0x60, usage := 0x40, access := 4, origin := 4, material := some (s.wd n).key }
    else s.slot k
  | none => s.slot k

/-- Asymmetric types. -/
def asymType (t : Nat) : Bool := t ≠ 0 && t ≤ 0x41 && t ≠ 0x12

/-- The 64-byte descriptor of KEY_INFO. -/
def State.slotInfo (s : State) (k : Fin 256) : List Byte :=
  let x := s.slotView k
  let len := (x.material.map fun b => b.length).getD 0
  let pub := match x.material with
    | some b => if asymType x.type.toNat then (Config.sha384 (Config.publicPart x.type.toNat b)).toList.take 32 else List.replicate 32 0
    | none => List.replicate 32 0
  leBytes 2 k.1 ++ [BitVec.ofNat 8 (slotClass k.1), x.type] ++ leBytes 2 x.usage.toNat ++ [x.access.zeroExtend 8] ++
  leBytes 1 (pack [(0, bval x.material.isSome), (1, bval x.persist)]) ++ leBytes 2 len ++ [x.origin.zeroExtend 8, 0] ++
  leBytes 4 x.uses.toNat ++ slice x.label 0 16 ++ pub

/-- The transport keys with their signature (R261). -/
def State.transportInfo (s : State) : List Byte :=
  let ec := ecPubOf ((s.devKey .kupdEc).getD [])
  let pq := slice (Config.publicPart 0x31 ((s.devKey .kupdPq).getD [])) 0 1568
  let keys := ec ++ (if s.part.pq then pq else List.replicate 1568 0)
  keys ++ (Config.ecdsaSign s.aliasEc (Config.sha384 keys).toList s.drawn).toList

end Sys2Proof.Machine
end

