-- ==== Sys2Proof/Machine/Burin.lean ====
section
/-! DEFINITION. Burin, HASH_OP, RANDOM and the entropy source (chapter "Burin public-key engine and hash farm"), and the engine watchdog
of a Burin core (R163). -/

namespace Sys2Proof.Machine

/-! ## BURIN_OP and its jobs -/

/-- The class of a manager's queue (R222, R203). -/
def State.queueClass (s : State) (src : Src) : BitVec 2 :=
  match SMap.get? (s.ring src.mgr).sqs src.sq.toNat with
  | some q => q.cls
  | none => 1

/-- BURIN_OP (R193, R194): the checks, then a job with its operands as read. -/
def execBurinOp (src : Src) (desc : List Byte) (resLen : Nat) (operands : List (List Byte)) (s : State) : Out :=
  .next (s.ovdel src (gateOf (.burinOp src desc resLen operands)) fun s =>
    let d := burinDesc desc
    if burinPq d.op && s.version src.mgr < 0x0201 then s.deliver src (ans stVersionUnsupported)
    else if desc.length < 32 || 160 < desc.length then s.deliver src (ans stInvalidField 24)
    else match s.burinCheck src.mgr desc resLen with
      | 0x0000 =>
        if (d.op = 0x10 || d.op = 0x11) && s.drbg.keyState ≠ 1 then s.deliver src (ans stNotPermitted)
        else
          let stamp := match fin? 256 d.keySlot with | some k => (s.slot k).stamp | none => 0
          let ops := (d.roles.zip operands).map fun x => { role := BitVec.ofNat 8 x.1.1, bytes := slice x.2 0 x.1.2 : Operand }
          let j : BurinJob :=
            { id := s.burin.nextId, owner := .queue src.mgr src.sq, cid := src.cid, cls := s.queueClass src, arrived := s.now,
              promoted := false, op := BitVec.ofNat 8 d.op, pset := BitVec.ofNat 8 d.pset, flags := BitVec.ofNat 8 d.flags,
              keySlot := BitVec.ofNat 16 d.keySlot, outSlot := BitVec.ofNat 16 d.outSlot, hash := BitVec.ofNat 8 d.hash,
              modbits := BitVec.ofNat 32 d.modbits, expbits := BitVec.ofNat 32 d.expbits, operands := ops, key := [], loaded := false,
              keyStamp := stamp, ran := 0, since := 0 }
          State.dispatchJobs { s with burin := { s.burin with waiting := s.burin.waiting ++ [j], nextId := s.burin.nextId + 1 } }
      | st => s.deliver src (ans st (if st = stInvalidField then
          (if s.burinCheck src.mgr desc (2 ^ 32) = stInvalidField then 16 else 40) else 0)))

/-- RESULT of BURIN_OP (R229): cycles, ML-DSA slots, core. -/
def burinResultBytes (cycles slots core : Nat) : List Byte := leBytes 4 (min cycles (2 ^ 32 - 1)) ++ leBytes 2 slots ++ leBytes 1 core

/-- The output of a job that succeeded goes to its slot and its buffer (R194, R258): the status it completes with. A write that fails on the
link leaves the buffer partly written and nothing in the slot; an operation without output writes nothing. -/
def State.jobOutput (s : State) (j : BurinJob) (slots : Nat) (dma : Option DmaFail) (res : List Byte) : State :=
  let draw := s.drawn + (max 1 slots - 1)
  let out := j.result draw
  let needsKey := s.jobNeedsKey j
  let s := s.jobDraws j slots
  match j.owner with
  | .queue m q =>
    let src : Src := { mgr := m, sq := q, cid := j.cid }
    if bit j.flags.toNat 3 && !s.slotWritable m j.outSlot.toNat (secretType j.op.toNat j.pset.toNat) then s.finish src stNotPermitted 0 res
    else if needsKey && s.drbg.keyState ≠ 1 then s.finish src stNotPermitted 0 res
    else match (if out.isEmpty then none else dma) with
    | some f =>
      let s := if f.wrote = 0 then s else s.toBuffer src (out.take f.wrote)
      (s.ringDmaFailed m f.kind f.addr).finish src stAborted 32 res
    | none =>
      let s := if bit j.flags.toNat 3 then
          match fin? 256 j.outSlot.toNat with
          | some k =>
            let slots := vmod s.keys.slots k fun x =>
              { x with material := some (j.secret draw), origin := if m = .a then 2 else 3, stamp := x.stamp + 1 }
            if (s.slot k).persist then s.commitVault slots (BitVec.ofNat 64 s.vaultCounter)
            else { s with keys := { s.keys with slots := slots } }
          | none => s
        else s
      (if out.isEmpty then s else s.toBuffer src out).finish src stSuccess 0 res
  | .internal | .none => s

/-- The commit that a secret needs waits for the supply (R258, R193). -/
def State.outWaits (s : State) (j : BurinJob) : Bool :=
  bit j.flags.toNat 3 && s.inhibited && (match fin? 256 j.outSlot.toNat with | some k => (s.slot k).persist | none => false)

/-- A job's computation ends (R197-R202) at its fixed time: its output check, its status, its output; the core takes the next. -/
def execBurinJobDone (k : Fin 4) (ev : JobEv) (s : State) : Out :=
  .next (match (s.core k).job with
    | none => s
    | some j =>
      let slots := if j.op = 0x0A then (if ev.exhausted then 256 else max 1 (min 256 ev.slots.toNat)) else 0
      let t := j.time slots (popCount s.farm.lanes)
      if s.outWaits j then s
      else
        let s := (s.until (j.since + (t - j.ran))).modCore k fun c => { c with lastCycles := BitVec.ofNat 32 (min t (2 ^ 32 - 1)), jobs := satInc c.jobs }
        let res := burinResultBytes t slots k.1
        let st := if j.op = 0x0A && ev.exhausted then stResultInvalid else j.edge
        if ev.fault && j.canFault st then (s.jobDraws j slots).coreFaulted k j res
        else
          let s := s.modCore k fun c => { c with job := none, state := 0, lastOwner := j.owner }
          let s := if st = stSuccess then s.jobOutput j slots ev.dma res else (s.jobDraws j slots).finishJob j st 0 res
          let s := if (s.core k).outAfter then s.coreOut k coreTaken false else s
          s.dispatchJobs)

/-- A running job reaches a yield point while a job of higher class waits, no core is idle and a context slot is free (R203). -/
def execBurinYield (k : Fin 4) (s : State) : Out :=
  .next (let c := s.core k
    match c.job with
    | none => s
    | some j =>
      let idle := (List.finRange 4).any fun k => (s.core k).state = 0
      let wanted := s.burin.waiting.any fun w => j.class < w.class
      if !j.yields || !wanted || idle || 2 ≤ c.susp.length then s
      else
        let s := s.until j.since
        (s.modCore k fun c =>
          { c with job := none, state := 0, yields := satInc c.yields, susp := c.susp ++ [{ j with ran := j.done s.now }],
                   lastOwner := j.owner }).dispatchJobs)

/-- A waiting BULK job is treated as NORMAL after 10 ms (R203). -/
def execBurinPromotion (id : Nat) (s : State) : Out :=
  .next (match s.burin.waiting.find? fun j => j.id = id && j.cls = 0 with
    | some w =>
      let s := s.until (w.arrived + 10 * msec)
      { s with burin := { s.burin with waiting := s.burin.waiting.map fun j => if j.id = id then { j with promoted := true } else j } }
    | none => s)

/-- A core's self-test of 2 ms ends (R201): back after a further wipe, or out until the next device start. -/
def execBurinSelftestDone (k : Fin 4) (pass : Bool) (s : State) : Out :=
  .next (let c := s.core k
    if c.state ≠ 3 then s
    else if pass then
      let s := s.until c.testEnd
      ((s.modCore k fun c => { c.wipe s.now with state := 0 }).unitBack unitBurin k.1).dispatchJobs
    else (s.until c.testEnd).modCore k fun c => { c with state := 4, dead := true })

/-- A Burin core's watchdog (R163, R205): 2^24 cycles without a progress point. -/
def execBurinCoreWatchdog (k : Fin 4) (s : State) : Out :=
  .next (match (s.core k).job with
    | some j => ((s.until (j.since + 2 ^ 24)).coreOut k coreWatchdog true).dispatchJobs.internalExpiry 3 false
    | none => s)

/-! ## IMAGE_COMMIT (R112) -/

/-- IMAGE_COMMIT (R112, R79, R81, R84). A failure leaves the plate STAGING and the claim held. -/
def execImageCommit (src : Src) (ch : Half) (plate : Byte) (image : Verified (Option (List Byte))) (s : State) : Out :=
  .next (s.ovdel src (gateOf (.imageCommit src ch plate image)) fun s =>
    s.withChan src ch fun n s => s.withPlate src n plate fun p s =>
      if s.isSecondary src.mgr then s.deliver src (ans stNotPermitted)
      else
        let man := ((s.pl n).staging.get p).manifest
        let j := if (s.commitEarly src.mgr n p).isSome then (true, s) else s.internalJob 0x02 210000 image.faults
        let s := j.2
        let r := if j.1 then s.imageCommitStatus src.mgr n p image.what else (stFaultDetected, 0, none)
        if r.1 = stSuccess then
          (s.commitVerified n p r.2.2).deliver src
            (okAns (leBytes 4 (manSvn man) ++ leBytes 4 (manLeaves man) ++ leBytes 8 (manBuild man)))
        else
          let loud := r.1 = stDigestMismatch ∨ r.1 = stSignatureFailed ∨ r.1 = stInvalidField ∨ r.1 = stVersionRollback
          let leaf := if r.1 = stDigestMismatch then r.2.1 else 0xFFFFFFFF
          let s := if loud then s.verifyFailed n.1 r.1 p.code man leaf else s
          s.deliver src (ans r.1 (if r.1 = stDigestMismatch then r.2.1 else 0)))

/-! ## BURk_CTRL -/

/-- TAKE_OUT: after its running job. Refused if no other core would remain in service. -/
def execBurTakeOut (m : Mgr) (k : Fin 4) (s : State) : Out :=
  .next (s.regW m (0x010054 + 0x1000 * k.1) fun s =>
    let others := (List.finRange 4).any fun i => i ≠ k && (s.core i).inService && !(s.core i).outAfter
    if !others then s.ignoredWrite m (0x010054 + 0x1000 * k.1)
    else match (s.core k).state with
      | 0 => (s.coreOut k coreTaken false).dispatchJobs
      | 1 => s.modCore k fun c => { c with outAfter := true }
      | _ => s)

/-- RETURN: a self-test of a core that is OUT; ignored otherwise, and after a self-test failed (R201). -/
def execBurReturn (m : Mgr) (k : Fin 4) (s : State) : Out :=
  .next (s.regW m (0x010054 + 0x1000 * k.1) fun s =>
    let c := s.core k
    if c.state = 4 && !c.dead then s.modCore k fun c => { c with state := 3, testEnd := s.now + 2 * msec }
    else s.ignoredWrite m (0x010054 + 0x1000 * k.1))

/-- CNTCLR: BURk_CNT and BURk_ERR. -/
def execBurCntclr (m : Mgr) (k : Fin 4) (s : State) : Out :=
  .next (s.regW m (0x010054 + 0x1000 * k.1) fun s =>
    s.modCore k fun c => { c with jobs := 0, yields := 0, faults := 0, aborts := 0, wipes := 0 })

/-! ## HASH_OP (R195, R196) -/

/-- The first faulty field of HASH_OP's command and descriptor (R195, R219): DPTR LEN at 24, the descriptor's contents at DPTR's 16, RPTR LEN
at 40; reserved bytes are ignored (R10). -/
def hashField (desc : List Byte) (outLen total : Nat) : Option Nat :=
  let alg := leAt desc 0 1
  let mode := leAt desc 1 1
  let nseg := leAt desc 3 1
  let ol := leAt desc 6 2
  let yields := mode = 0 || mode = 3
  if desc.length < 16 || 64 < nseg || desc.length ≠ 16 + 16 * nseg then some 24
  else if alg = 0 || 10 < alg || 4 < mode || (mode ≠ 0 && 15 < leAt desc 2 1) || (!algHmac alg && leAt desc 4 2 ≠ 0) || 2 ^ 32 ≤ total ||
      !(if !yields then ol = 0 else if algShake alg then 1 ≤ ol && ol ≤ 4096 else ol = algLen alg) then some 16
  else if outLen < ol then some 40
  else none

/-- HASH_OP's status and the key it uses (R196). -/
def State.hashCheck (s : State) (m : Mgr) (desc : List Byte) : Status × List Byte :=
  let alg := leAt desc 0 1
  let mode := leAt desc 1 1
  let slot := leAt desc 4 2
  let c := SMap.get? (s.hash.get m).ctxs (leAt desc 2 1)
  let opens := mode = 0 || mode = 1
  let keyOk := s.slotUsable m slot 5 (fun t => t = 0x60) || s.slotUsable m slot 8 (fun t => t = 0x50)
  if mode = 1 && c.isSome then (stBusy, [])
  else if !opens && c.isNone then (stNotPermitted, [])
  else if (mode = 2 || mode = 3) && (match c with | some x => x.alg.toNat ≠ alg | none => false) then (stInvalidField, [])
  else if opens && algHmac alg && !keyOk then (stNotPermitted, [])
  else (stSuccess, match fin? 256 slot with
    | some k => if opens && algHmac alg then ((s.slot k).material).getD [] else []
    | none => [])

/-- HASH_OP: the tests, then a job for a lane of the HASH_OP share. START opens its context here. -/
def execHashOp (src : Src) (desc : List Byte) (outLen : Nat) (segs : List (List Byte)) (s : State) : Out :=
  .next (s.ovdel src (gateOf (.hashOp src desc outLen segs)) fun s =>
    let alg := leAt desc 0 1
    let mode := leAt desc 1 1
    let data := ((List.range (leAt desc 3 1)).zip segs).flatMap fun x => slice x.2 0 (leAt desc (0x10 + 16 * x.1 + 8) 4)
    if mode ≠ 0 && mode ≤ 4 && s.version src.mgr < 0x0202 then s.deliver src (ans stVersionUnsupported)
    else match hashField desc outLen data.length with
    | some i => s.deliver src (ans stInvalidField i)
    | none =>
      let r := s.hashCheck src.mgr desc
      if r.1 ≠ stSuccess then s.deliver src (ans r.1 (if r.1 = stInvalidField then 16 else 0))
      else
        let s := match fin? 256 (leAt desc 4 2) with
          | some k => if r.2.isEmpty then s else s.modSlot k fun x => { x with uses := satInc x.uses }
          | none => s
        let j : HashJob :=
          { mgr := src.mgr, sq := src.sq, cid := src.cid, alg := BitVec.ofNat 8 alg, mode := BitVec.ofNat 8 mode,
            ctx := BitVec.ofNat 8 (leAt desc 2 1), key := r.2, outLen := leAt desc 6 2, data := data, cls := s.queueClass src,
            again := false }
        s.modHash src.mgr fun h =>
          { h with jobs := h.jobs ++ [j],
                   ctxs := if mode = 1 then SMap.put h.ctxs j.ctx.toNat { alg := j.alg, key := j.key, data := [] } else h.ctxs })

/-- The job of a manager that its lanes take first: the highest class, the oldest within it (R222). -/
def firstHash : List HashJob → Option HashJob
  | [] => none
  | j :: l => match firstHash l with
    | some k => if j.cls.toNat < k.cls.toNat then some k else some j
    | none => some j

/-- A manager's first job is done: ONE_SHOT and FINISH write their output, START and UPDATE extend the context, FINISH and DROP close it.
While the control cluster is absent none completes: it is done again after it (R19). -/
def execHashJobDone (m : Mgr) (s : State) : Out :=
  .next (match firstHash (s.hash.get m).jobs with
    | none => s
    | some j =>
      if s.dev.ccAbsent then s
      else
      let src : Src := { mgr := m, sq := j.sq, cid := j.cid }
      let s := s.modHash m fun h =>
        { h with jobs := h.jobs.erase j, done := h.done + 1, bytes := h.bytes + BitVec.ofNat 64 j.data.length }
      let res := leBytes 8 j.data.length
      let ctx := match SMap.get? (s.hash.get m).ctxs j.ctx.toNat with
        | some c => some c
        | none => if j.mode = 1 && j.again then some { alg := j.alg, key := j.key, data := [] } else none
      let close := s.modHash m fun h => { h with ctxs := SMap.del h.ctxs j.ctx.toNat }
      match j.mode.toNat, ctx with
      | 0, _ => (s.toBuffer src (hashOutput j.alg.toNat j.key j.data j.outLen)).finish src stSuccess 0 res
      | _, none => s.finish src stNotPermitted
      | 3, some c => (close.toBuffer src (hashOutput j.alg.toNat c.key (c.data ++ j.data) j.outLen)).finish src stSuccess 0 res
      | 4, some _ => close.finish src stSuccess 0 res
      | _, some c =>
        (s.modHash m fun h => { h with ctxs := SMap.put h.ctxs j.ctx.toNat { c with data := c.data ++ j.data } }).finish src stSuccess 0 res)

/-! ## Random numbers (R206, R207) -/

/-- RANDOM: bytes from KEY. -/
def execRandom (src : Src) (len : Nat) (s : State) : Out :=
  .next (s.ovdel src (gateOf (.random src len)) fun s =>
    if len = 0 || 4096 < len then s.deliver src (ans stInvalidField 24)
    else if s.drbg.keyState ≠ 1 then s.deliver src (ans stNotPermitted)
    else
      let d := s.draw
      d.2.deliver src { okAns with data := some ((List.range len).map fun i => Config.randomByte d.1 i) })

/-- Tests of ENTROPY_FAIL: the spec gives them no numbers (log entry 32). -/
def entropyCode : EntropyTest → Nat
  | .repetition => Config.eventWord 48 | .proportion => Config.eventWord 49 | .startup => Config.eventWord 50

/-- An entropy test fails (R207): KEY blocks, GENERAL goes on without reseeding. -/
def State.entropyFail (s : State) (t : EntropyTest) : State :=
  State.raise { s with drbg := { s.drbg with
    keyState := 2, genState := 2, rctFail := s.drbg.rctFail || decide (t = .repetition), aptFail := s.drbg.aptFail || decide (t = .proportion),
    startupFail := s.drbg.startupFail || decide (t = .startup), healthFails := satInc s.drbg.healthFails } } 0x0807 devCh [entropyCode t]

/-- A pass of the start-up test reseeds both instances and unblocks KEY. -/
def State.entropyPass (s : State) : State :=
  { s with drbg := { s.drbg with keyState := 1, genState := 1, rctFail := false, aptFail := false, startupFail := false,
                                 reseeds := satInc s.drbg.reseeds, genReqs := 0, lastReseed := s.now } }

/-- The start-up test runs again. -/
def State.entropyTest (s : State) (pass : Bool) : State :=
  let s := { s with drbg := { s.drbg with lastTest := s.now } }
  if pass then s.entropyPass else s.entropyFail .startup

/-- A health or start-up test fails; before START there is no test. -/
def execEntropyHealthFail (test : EntropyTest) (s : State) : Out :=
  .next (if s.drbg.keyState = 0 then s else State.entropyFail { s with drbg := { s.drbg with lastTest := s.now } } test)

/-- The retest every second while a failure stands. -/
def execEntropyRetest (pass : Bool) (s : State) : Out :=
  .next (if s.drbg.keyState = 2 then (s.until (s.drbg.lastTest + second)).entropyTest pass else s)

/-- DRB_CTRL.RETEST. -/
def execDrbRetest (m : Mgr) (pass : Bool) (s : State) : Out :=
  .next (s.regW m 0x00F04C fun s => if s.drbg.keyState = 0 then s else s.entropyTest pass)

/-- GENERAL reseeds every RESEED_MS and after every 2^16 requests; not while it is UNSEEDED. -/
def execDrbgReseed (s : State) : Out :=
  .next (if s.drbg.genState = 1 then
    let s := if 65536 ≤ s.drbg.genReqs then s else s.until (s.drbg.lastReseed + s.dcfg.reseedMs * msec)
    { s with drbg := { s.drbg with reseeds := satInc s.drbg.reseeds, genReqs := 0, lastReseed := s.now } }
  else s)

end Sys2Proof.Machine
end

