-- ==== Sys2Proof/Machine/Configuration.lean ====
section
/-! DEFINITION. CONFIG_WRITE and CONFIG_READ (R229, R312-R315). -/

namespace Sys2Proof.Machine

/-- CONFIG_WRITE: the image is checked in the order of R314 and committed. Primacy is tested before the image's own checks. -/
def execConfigWrite (src : Src) (img : List Byte) (s : State) : Out :=
  .next (s.ovdel src (gateOf (.configWrite src img)) fun s =>
    if s.isSecondary src.mgr then s.deliver src (ans stNotPermitted)
    else
      let r := s.cfgStatus img
      if r.1 = stSuccess then
        let s := s.commitConfig src.mgr img
        s.deliver src (okAns (leBytes 4 s.cfgSeq))
      else s.deliver src (ans r.1 r.2))

/-- CONFIG_READ: the copy in use, its SEQ and CONFIG_DEFAULTED. -/
def execConfigRead (src : Src) (len : Nat) (s : State) : Out :=
  .next (s.ovdel src (gateOf (.configRead src len)) fun s =>
    s.deliver src { okAns (leBytes 4 s.cfgSeq ++ [BitVec.ofNat 8 (bval s.dev.configDefaulted)]) with data := some (s.cfgCopy.take len) })

end Sys2Proof.Machine
end

