-- ==== Sys2Proof/Machine/HostCmd.lean ====
section
/-! DEFINITION. The commands of a host on its channel (chapter "Host channels and the virtual flash"): every opcode of R26,
frames of command rules (R56), opcodes outside the table (R27), and the pins CHn_RST# and CHn_PGOOD. -/

namespace Sys2Proof.Machine

/-- A read command of the host. -/
def readCmd (op : Nat) (q : ReadArgs) : HostCmd :=
  { op := op, addr := q.addr, len := q.len, data := [], period := q.period, localData := q.localData, upset := q.upset, csLow := q.csLow }

/-- READ, 0x03 or 0x13 (R26). -/
def execRead (n : Fin 128) (four : Bool) (q : ReadArgs) (s : State) : Out := .next (s.host n (readCmd (if four then 0x13 else 0x03) q))

/-- FAST READ, 0x0B or 0x0C (R26). -/
def execFastRead (n : Fin 128) (four : Bool) (q : ReadArgs) (s : State) : Out := .next (s.host n (readCmd (if four then 0x0C else 0x0B) q))

/-- QUAD OUTPUT READ, 0x6B or 0x6C (R26). -/
def execQuadOutputRead (n : Fin 128) (four : Bool) (q : ReadArgs) (s : State) : Out :=
  .next (s.host n (readCmd (if four then 0x6C else 0x6B) q))

/-- QUAD I/O READ, 0xEB or 0xEC (R26). -/
def execQuadIoRead (n : Fin 128) (four : Bool) (q : ReadArgs) (s : State) : Out :=
  .next (s.host n (readCmd (if four then 0xEC else 0xEB) q))

/-- OCTAL DDR READ, 0xEE 0x11 (R26). -/
def execOctalDdrRead (n : Fin 128) (q : ReadArgs) (s : State) : Out := .next (s.host n (readCmd 0xEE q))

/-- A register read of len bytes at an SCK period, which counts where the command has an address phase, in Octal DDR (R36). -/
def regCmd (op len period : Nat) : HostCmd := { HostCmd.bare op with len := len, period := period }

/-- RDSR (R26, R28). -/
def execReadStatus (n : Fin 128) (q : RegRead) (s : State) : Out := .next (s.host n (regCmd 0x05 q.len q.period))

/-- RDFSR (R26, R28). -/
def execReadFlagStatus (n : Fin 128) (q : RegRead) (s : State) : Out := .next (s.host n (regCmd 0x70 q.len q.period))

/-- CLEAR FLAG STATUS (R26). -/
def execClearFlagStatus (n : Fin 128) (s : State) : Out := .next (s.host n (HostCmd.bare 0x50))

/-- RDID (R32). -/
def execReadId (n : Fin 128) (q : RegRead) (s : State) : Out := .next (s.host n (regCmd 0x9F q.len q.period))

/-- READ SFDP (R33). -/
def execReadSfdp (n : Fin 128) (addr len period : Nat) (s : State) : Out :=
  .next (s.host n { HostCmd.bare 0x5A with addr := addr, len := len, period := period })

/-- RDCR (R25). -/
def execReadConfig (n : Fin 128) (addr len period : Nat) (s : State) : Out :=
  .next (s.host n { HostCmd.bare 0x65 with addr := addr, len := len, period := period })

/-- WRCR (R25). -/
def execWriteConfig (n : Fin 128) (addr : Nat) (data : Byte) (period : Nat) (s : State) : Out :=
  .next (s.host n { HostCmd.bare 0x72 with addr := addr, data := [data], period := period })

/-- WRITE ENABLE (R28). -/
def execWriteEnable (n : Fin 128) (s : State) : Out := .next (s.host n (HostCmd.bare 0x06))

/-- WRITE DISABLE (R26). -/
def execWriteDisable (n : Fin 128) (s : State) : Out := .next (s.host n (HostCmd.bare 0x04))

/-- WRITE STATUS: clears WEL and changes nothing else (R28). -/
def execWriteStatus (n : Fin 128) (data : Byte) (s : State) : Out := .next (s.host n { HostCmd.bare 0x01 with data := [data] })

/-- PAGE PROGRAM, 0x02 or 0x12 (R28). -/
def execPageProgram (n : Fin 128) (four : Bool) (addr : Nat) (data : List Byte) (period : Nat) (s : State) : Out :=
  .next (s.host n { HostCmd.bare (if four then 0x12 else 0x02) with addr := addr, data := data, period := period })

/-- ERASE 4 KiB, 0x20 or 0x21 (R29). -/
def execErase4Kib (n : Fin 128) (four : Bool) (addr period : Nat) (s : State) : Out :=
  .next (s.host n { HostCmd.bare (if four then 0x21 else 0x20) with addr := addr, period := period })

/-- ERASE 64 KiB, 0xD8 or 0xDC (R29). -/
def execErase64Kib (n : Fin 128) (four : Bool) (addr period : Nat) (s : State) : Out :=
  .next (s.host n { HostCmd.bare (if four then 0xDC else 0xD8) with addr := addr, period := period })

/-- CHIP ERASE: always refused with reason SPAN (R29). -/
def execChipErase (n : Fin 128) (opcode : Byte) (s : State) : Out :=
  .next (s.host n (HostCmd.bare (if opcode = 0x60 then 0x60 else 0xC7)))

/-- ENTER 4-BYTE ADDRESS (R26). -/
def execEnter4ByteAddress (n : Fin 128) (s : State) : Out := .next (s.host n (HostCmd.bare 0xB7))

/-- EXIT 4-BYTE ADDRESS (R26). -/
def execExit4ByteAddress (n : Fin 128) (s : State) : Out := .next (s.host n (HostCmd.bare 0xE9))

/-- RESET ENABLE (R40). -/
def execResetEnable (n : Fin 128) (s : State) : Out := .next (s.host n (HostCmd.bare 0x66))

/-- RESET, after RESET ENABLE (R40). -/
def execReset (n : Fin 128) (s : State) : Out := .next (s.host n (HostCmd.bare 0x99))

/-- DEEP POWER-DOWN (R27). -/
def execDeepPowerDown (n : Fin 128) (s : State) : Out := .next (s.host n (HostCmd.bare 0xB9))

/-- RELEASE FROM DEEP POWER-DOWN (R27). -/
def execReleaseFromDeepPowerDown (n : Fin 128) (s : State) : Out := .next (s.host n (HostCmd.bare 0xAB))

/-- A command whose first byte is op: in Octal DDR a second byte that is not its complement is not decoded (R24, R27), in deep
power-down either. It counts in UNDECODED where a command outside the table would. -/
def execUndecodedOpcode (n : Fin 128) (op second : Byte) (s : State) : Out :=
  .next (if (s.port n).crIo = 3 && second ≠ ~~~op then
    let s := s.csRise n
    if s.decodes n then
      let s := s.modPort n fun p => { p with resetArmed := false }
      if (s.port n).dpd then s else s.undecoded n
    else s
  else s.host n (HostCmd.bare op.toNat))

/-- A command decoded with the frame of a command rule (R56, R57). -/
def execAllowFrameCommand (n : Fin 128) (op : Byte) (q : ReadArgs) (data : List Byte) (s : State) : Out :=
  .next (s.host n { readCmd op.toNat q with data := data })

/-! ## Ends of programs, erases and refusals -/

/-- An accepted program or erase of the device's own stores ends within its bound (R30). -/
def execProgramEraseDone (n : Fin 128) (s : State) : Out :=
  .next (if (s.port n).op = some .own then s.modPort n fun p => { p with op := none } else s)

/-- The WIP of a refusal ends, and the fail flag and its cause are set (R28). -/
def execRefusalWipEnd (n : Fin 128) (s : State) : Out :=
  .next (match (s.port n).op with
    | some (.refused erase supply) =>
      s.modPort n fun p =>
        { p with op := none, eraseFail := p.eraseFail || erase, programFail := p.programFail || !erase,
                 supplyFail := p.supplyFail || supply, protFail := p.protFail || !supply }
    | _ => s)

/-! ## Pins -/

/-- CHn_RST# low for lowNs, then high: a host reset if at least 1 µs (R40). It counts only on a released, powered channel. -/
def execHostRstPulse (n : Fin 128) (lowNs : Nat) (s : State) : Out :=
  .next (if usec ≤ lowNs ∧ s.dev.state = .running ∧ (s.ch n).released ∧ (s.ch n).pgood ∧ s.chanOn n then
    (s.csRise n).modPort n fun p => p.hostReset (some (s.now + 30 * usec))
  else s)

/-- Thirty microseconds later the channel decodes commands again (R40). -/
def execHostResetRecovered (n : Fin 128) (s : State) : Out :=
  .next (match (s.port n).resetEnd with
    | some t => (s.until t).modPort n fun p => { p with resetEnd := none }
    | none => s)

/-- CHn_PGOOD falls through its filter (R127): PG_OK clears; a running host is held, to be re-released at PG_OK or by a
manager, and the command in progress is dropped (R39). -/
def execPgoodFall (n : Fin 128) (s : State) : Out :=
  .next (if (s.ch n).pgood && s.chanOn n then
    let s := (s.modCtl n fun c => { c with pgood := false, pgOk := false }).csRise n
    if (s.ch n).released && s.dev.state = .running then (s.hold n .pgood .pgood none).raise 0x0105 n.1 [] else s
  else s)

/-- CHn_PGOOD rises through its filter, or, `settled`, has been high for PG_SETTLE since (R127, R139): PG_OK sets. A PGOOD hold with
PG_ACT = 0, which the control cluster releases (R16), and a channel whose power-cycle sequence has ended its pulse go to TAKING. -/
def execPgOkSettled (q : PgHigh) (s : State) : Out :=
  .next (let n := q.chan
  if !s.chanOn n then s
  else
    let wait := (s.profOf n).pgSettle * msec
    if !q.settled then s.modCtl n fun c => { c with pgood := true, pgRise := if c.pgood then c.pgRise else s.now }
    else
      let s := if (s.ch n).pgood then s.until ((s.ch n).pgRise + wait) else s
      let s := s.modCtl n fun c => { c with pgood := true, pgRise := if c.pgood then c.pgRise else s.now - wait, pgOk := true }
      let c := s.ch n
      if s.dev.state ≠ .running then s
      else if c.state = .held && c.kind = .sequence && c.pgTmoAt.isSome then (s.startTaking n .powerCycle true).endLines
      else s.resumeHeld n)

end Sys2Proof.Machine
end

