-- ==== Sys2Proof/Machine/Images.lean ====
section
/-! DEFINITION. The events and commands of impressions, image memory, the front cache, the pool and the service units
(chapter "Impressions, image memory and the pool"). -/

namespace Sys2Proof.Machine

/-! ## Takes (R81-R85) -/

/-- The object that a take from the pool reads; a plate erased or overwritten during the take delivers nothing (R81). -/
def State.takeObj (s : State) (e : Impression) : Option PoolObj :=
  match e.source with
  | .pool => s.poolObj e.family e.root
  | .flash _ _ => none

/-- The bytes that the local flash of a take delivered; none for a port fault or a plate that no longer carries the pair. -/
def State.takeLocal (s : State) (e : Impression) (data : Option (List Byte)) : Option (List Byte) :=
  match e.source with
  | .pool => none
  | .flash ch p => match fin? 128 ch with
    | some n =>
      let x := (s.plates n).get p
      if x.src = 2 && x.family = e.family && x.root = e.root && x.state ≠ .empty && x.state ≠ .staging then data else none
    | none => none

/-- What the source of entry e delivers of each leaf. -/
def State.takeLeaf (s : State) (e : Impression) (ev : TakeEv) : Nat → Option (List Byte) :=
  s.leafStored (s.takeObj e) { ev with localData := s.takeLocal e ev.localData } e.source

/-- Lanes whose first digest of a leaf a second lane corrected leave service (R82). -/
def State.lanesCorrected (s : State) (ev : TakeEv) : State :=
  s.forAll ev.badLanes fun l s => match fin? 40 l with
    | some l => s.laneOut l outDigest
    | none => s

/-- The leaves that parity rebuilt for a take of entry e are counted. -/
def State.takeRebuilt (s : State) (e : Impression) (ev : TakeEv) : State :=
  match s.takeObj e with
  | some o => s.countRebuilt o ev
  | none => s

/-- The take of entry i fails: its extents are released, the failure recorded, and whoever waits goes on. -/
def State.takeFails (s : State) (i : Fin 256) (st : Status) (leaf : Nat) : State :=
  let e := s.dirE i
  let s := s.freeEntry i 1
  if st = stDigestMismatch then s.resumeEntry i.1 (some (.failed st leaf))
  else (s.log 0x0020 devCh [st.toNat, ofLe e.family, ofLe e.root, leaf]).resumeEntry i.1 (some (.unavailable st))

/-- A take ends (R81): every leaf matched and the impression is RESIDENT, or it fails. Lanes whose first digest a second
lane corrected leave service (R82). -/
def execImpressionTakeDone (i : Fin 256) (ev : TakeEv) (s : State) : Out :=
  .next (let e := s.dirE i
    if e.state ≠ .taking || s.dev.ccAbsent then s
    else
      let s := (s.lanesCorrected ev).takeRebuilt e ev
      match streamLeaves e.man (s.plateKey e.man) (s.takeLeaf e ev) (manLeaves e.man) [] with
      | .error x => s.takeFails i x.1 x.2
      | .ok mem =>
        let s := s.modDir i fun e => { e with state := .resident, bytes := mem }
        (s.log 0x0010 devCh [0, i.1, ofLe e.family, ofLe e.root]).resumeEntry i.1 none)

/-- A leaf checks against its table (R77, R80). -/
def leafGood (man : List Byte) (key : Option (List Byte)) (leaf : Nat) (stored : List Byte) : Bool :=
  (Config.sha384 (leafPlain man key leaf stored)).toList = manLeaf man leaf

/-- The first leaf of a local plate that does not check (R84). -/
def badLocalLeaf (man : List Byte) (key : Option (List Byte)) (data : List Byte) : Option Nat :=
  (List.range (manLeaves man)).find? fun i => !leafGood man key i (leafOf data i)

/-- A selection or an arming of channel n waits for the local confirmation of plate p. -/
def State.waitsLocal (s : State) (n : Fin 128) (p : PlateId) : Bool :=
  match (s.ch n).sel with
  | some w => w.entry = 256 && w.plate = p
  | none => false

/-- The local confirmation of a plate ends (R84): eligible, a mismatch, or a port that did not deliver (data absent). It is made
only while the device owns the port. -/
def execLocalConfirmationDone (n : Fin 128) (p : PlateId) (data : Option (List Byte)) (s : State) : Out :=
  .next (let x := (s.plates n).get p
    let man := (s.pl n).localMan.get p
    if x.src ≠ 2 || x.state = .empty || x.state = .staging || s.hostOwns n || s.dev.ccAbsent then s
    else match data with
      | none => if s.waitsLocal n p then s.resume n (some (.unavailable stImageIncomplete)) else s
      | some d => match badLocalLeaf man (s.plateKey man) d with
        | none =>
          let s := s.modPlt n fun y => { y with confirmed := y.confirmed.set p true }
          if s.waitsLocal n p then s.resume n none else s
        | some leaf =>
          let s := s.raise 0x0305 n.1 [p.code, leaf]
          if s.waitsLocal n p then s.resume n (some (.failed stDigestMismatch leaf))
          else (s.log 0x0020 n.1 [stDigestMismatch.toNat, ofLe (manFamily man), ofLe (manRoot man), leaf]).plateBad n [p] stDigestMismatch)

/-! ## Replacing copies (R86, R92, R94, R104) -/

/-- Re-release every channel that an IMPRESSION_LOST hold keeps for impression i (R104 step 3). -/
def State.releaseLost (s : State) (i : Fin 256) : State :=
  s.forChans fun n s =>
    let c := s.ch n
    if c.bound = some i.1 && c.state = .held && c.kind = .impressionLost then s.startTaking n .impressionLost true else s

/-- The new copy of a retake is in force, in extents of its own; a leaf that the source could not supply good makes it DAMAGED (R92). -/
def State.switchCopy (s : State) (i : Fin 256) (ev : TakeEv) : State :=
  let e := s.dirE i
  let get := s.takeLeaf e ev
  let bad := (List.range (manLeaves e.man)).filter fun l => !(get l).any fun d => leafGood e.man (s.plateKey e.man) l d
  let s := (s.lanesCorrected ev).takeRebuilt e ev
  let s := s.modDir i fun e => { e with state := .resident, lost := false, badLeaves := bad, tableBad := false }
  let s := ((s.allocExtents i e.leaves.toNat).dropLines i).log 0x0010 devCh [4, i.1, ofLe e.family, ofLe e.root]
  let s := s.forAll bad.head?.toList fun l s => s.damage i l
  let s := { s with imm := { s.imm with relocating := (List.finRange 256).any fun j => (s.dirE j).lost } }
  s.releaseLost i

/-- A retaken copy replaces an impression at one slot (R86): one lost with its memory channel, once the 7-channel layout can hold it, in
descending order of reference count (R104), or one whose table failed, once extents are free beside its own (R94). Every leaf is checked as
in a take. -/
def execImpressionCopySwitch (q : Recopy) (s : State) : Out :=
  .next (let i := q.entry
    let e := s.dirE i
    match s.sourceOf e.family e.root with
    | none => s
    | some src =>
      let retake := fun s : State => (s.modDir i fun e => { e with source := src }).switchCopy i q.ev
      if s.dev.ccAbsent || (src = .pool && s.poolFailed) then s
      else if e.state = .relocating then
        let s := s.evictForLayout 257
        if s.relocFits i && (s.lostOrder.find? fun j => s.relocFits j).all (fun j => s.refs j ≤ s.refs i) then retake s else s
      else if e.state = .damaged && e.tableBad then
        let s := State.evictFor (extentsOf e.leaves.toNat) 257 s
        if (s.dirE i).state = .damaged && extentsOf e.leaves.toNat ≤ s.freeExtents then retake s else s
      else s)

/-- Re-verification of a leaf ends (R92): transient, repaired from the source, or the impression DAMAGED. -/
def execLeafReverifyDone (i : Fin 256) (leaf : Nat) (copyOk : Bool) (source : Option (List Byte)) (s : State) : Out :=
  .next (let e := s.dirE i
    if (e.state ≠ .resident ∧ e.state ≠ .damaged) ∨ e.leaves.toNat ≤ leaf ∨ s.dev.ccAbsent then s
    else
      let s := s.dropLeaf i leaf
      if copyOk && !e.badLeaves.contains leaf then { s with imm := { s.imm with transient := satInc s.imm.transient } }
      else
        let good := match source with
          | some d => leafGood e.man (s.plateKey e.man) leaf d
          | none => false
        if good then
          let s := s.modDir i fun e =>
            let rest := e.badLeaves.filter fun l => l ≠ leaf
            { e with badLeaves := rest, state := if rest.isEmpty && !e.tableBad then .resident else e.state }
          { s with imm := { s.imm with repaired := satInc s.imm.repaired } }
        else s.damage i leaf)

/-! ## Patrol (R94) -/

/-- Leaves of every impression that patrol visits in one pass. -/
def State.patrolTotal (s : State) : Nat :=
  ((List.finRange 256).filter fun i => (s.dirE i).state = .resident || (s.dirE i).state = .damaged).foldl
    (fun a i => a + (s.dirE i).leaves.toNat) 0

/-- Patrol has checked one more leaf; a pass ends with its last one. -/
def State.patrolStep (s : State) : State :=
  let k := s.imm.patPos.toNat + 1
  if s.patrolTotal ≤ k then { s with imm := { s.imm with patPos := 0, passes := satInc s.imm.passes } }
  else { s with imm := { s.imm with patPos := BitVec.ofNat 32 k } }

/-- Patrol re-verifies one leaf (R94). A leaf that mismatches answers as a tag failure until it is re-verified (R92); a table that fails its
root makes the impression DAMAGED, to be retaken. -/
def execPatrolLeaf (i : Fin 256) (leaf : Nat) (leafOk tableOk : Bool) (s : State) : Out :=
  .next (let e := s.dirE i
    if (e.state ≠ .resident ∧ e.state ≠ .damaged) ∨ e.leaves.toNat ≤ leaf ∨ s.imm.pause ∨ s.dev.ccAbsent then s
    else
      let s := s.patrolStep
      let s := if leafOk then s else
        let s := (s.modDir i fun e => { e with patmis := satInc e.patmis, badLeaves := addLeaf e.badLeaves leaf }).dropLeaf i leaf
        let s := { s with imm := { s.imm with patrolMismatch := satInc s.imm.patrolMismatch } }
        (s.raise 0x0303 devCh [i.1, leaf]).log 0x0020 devCh [stDigestMismatch.toNat, ofLe e.family, ofLe e.root, leaf]
      if tableOk then s
      else (s.modDir i fun e => { e with state := .damaged, tableBad := true }).log 0x0010 devCh [3, i.1, ofLe e.family, ofLe e.root])

/-- A period within its bounds: other values are clamped. -/
def clampTo (lo hi v : Nat) : Nat := max lo (min hi v)

/-- A write of IMM_PATROL: PERIOD_H and PAUSE (R94). -/
def execPatrolPause (m : Mgr) (v : Word) (s : State) : Out :=
  .next (s.regW m 0x01504C fun s =>
    { s with imm := { s.imm with periodH := BitVec.ofNat 8 (clampTo 1 168 (field v.toNat 7 0)), pause := v.getLsbD 8 } })

/-! ## KEEP writeback (R97) -/

/-- A snapshot goes over the copy that is not the newest. -/
def KeepCopies.store (salt : Option Nat) (k : KeepCopies) (bytes : List Byte) (key : Nat) : KeepCopies :=
  let best := k.best salt
  let c : KeepCopy := { seq := (best.map fun b => b.seq).getD 0 + 1, salt := key, bytes := bytes }
  if best = k.c0 && best.isSome then { k with c1 := some c } else { k with c0 := some c }

/-- A changed KEEP block is sealed and written to the pool; paused by low supply, without K_keep, or without pool writes. -/
def execKeepWriteback (n : Fin 128) (blk : Nat) (s : State) : Out :=
  .next (match SMap.get? (s.area n).dirty blk, s.keys.keepSalt with
    | some _, some key =>
      if s.poolWrites then
        s.modAreas n fun a =>
          let old := (SMap.get? a.copies blk).getD { c0 := none, c1 := none }
          { a with dirty := SMap.del a.dirty blk,
                   copies := SMap.put a.copies blk (old.store (some key) (a.keep.readList (4096 * blk) 4096) key) }
      else s
    | _, _ => s)

/-! ## Units out of service (R103, R104) -/

/-- A take in progress goes on in extents of the layout in force, or fails for want of them (R81, R104). -/
def State.retakeTaking (s : State) (i : Fin 256) : State :=
  let e := s.dirE i
  let s' := s.modDir i fun e => { e with extents := [] }
  if s'.usedExtents.length + extentsOf e.leaves.toNat ≤ s.totalExtents then s'.allocExtents i e.leaves.toNat
  else s.takeFails i stResourceExhausted 0xFFFFFFFF

/-- An image memory channel leaves service (R104): every resident impression is to be retaken into the 7-channel layout, idle ones
are evicted for room, and channels whose impression finds none are held. -/
def execImmChannelOut (c : Fin 8) (s : State) : Out :=
  .next (if !s.imm.chIn.getLsbD c.1 then s
    else
      let s := { s with imm := { s.imm with chIn := putBit s.imm.chIn c.1 false } }.unitOut unitImage c.1 outChannel
      let s := s.evictForLayout 257
      let s := s.forAll ((List.finRange 256).filter fun i => (s.dirE i).state = .taking) fun i s => s.retakeTaking i
      let held := (List.finRange 256).filter fun i => (s.dirE i).state = .resident || (s.dirE i).state = .damaged ||
        (s.dirE i).state = .relocating
      let s := s.forAll held fun i s => s.modDir i fun e => { e with state := .relocating, lost := true, badLeaves := [] }
      let s := { s with imm := { s.imm with relocating := !held.isEmpty } }
      let s := s.forAll held fun i s => s.log 0x0010 devCh [5, i.1, ofLe (s.dirE i).family, ofLe (s.dirE i).root]
      (s.forAll s.noRoom fun i s => s.holdBound i).areasLost)

/-- A known-answer test of a lane or a pipeline (R103). -/
def execHashLaneKat (unit : FarmUnit) (pass : Bool) (s : State) : Out :=
  .next (match unit with
    | .lane i =>
      if pass then
        if s.farm.lanes.getLsbD i.1 then s
        else (s.modFarm fun f => { f with lanes := putBit f.lanes i.1 true }).unitBack unitLane i.1
      else (s.katFailed i.1).laneOut i outTest
    | .pipe i =>
      if pass then if s.farm.aesIn.getLsbD i.1 then s else s.pipeBack i
      else (s.katFailed (0x40 + i.1)).pipeOut i outTest)

/-- A pool channel leaves service (R103). -/
def execPoolChannelOut (k : Fin 16) (reason : Nat) (s : State) : Out :=
  .next (let st := (vget s.pool.chans k).state
    if s.poolOn k && (st = 1 || st = 2 || st = 4) then s.poolOut k reason else s)

/-- POLk_CTRL.TAKE_OUT: refused with ERR_INFO bit 0 if fewer than three channels would remain (R103). -/
def execPolTakeOut (m : Mgr) (k : Fin 16) (s : State) : Out :=
  .next (s.regW m (polPage k + 0x050) fun s =>
    if (vget s.pool.chans k).state ≠ 2 then s
    else if s.poolIn < 4 then s.ignoredWrite m (polPage k + 0x050)
    else s.poolOut k outTaken)

/-- POLk_CTRL.RETURN: ignored unless OUT. Retraining that succeeds makes the channel RETURNING: takes keep rebuilding its leaves until the
check of every leaf on it ends (R103). -/
def execPolReturn (m : Mgr) (k : Fin 16) (trained : Bool) (s : State) : Out :=
  .next (s.regW m (polPage k + 0x050) fun s => if (vget s.pool.chans k).state = 3 && trained then
    State.modPool { s with clk := { s.clk with pool := true } } k fun x => { x with state := 4 }
  else s)

/-! ## Pool patrol, audit and wear (R100-R102) -/

/-- A patrol read of a page: corrections counted; a weak page is rewritten, and a block that stays weak, or is uncorrectable, retired; both
wait while low-supply inhibit is in force. The last leaf of a returning channel's check returns it to service (R103). -/
def execPoolEccPatrol (k : Fin 16) (ev : EccEv) (s : State) : Out :=
  .next (let st := (vget s.pool.chans k).state
    if st ≠ 2 ∧ st ≠ 4 then s
    else
      let s := s.modPool k fun x =>
        { x with corrected := BitVec.ofNat 16 (min 0xFFFF (x.corrected.toNat + ev.corrected)),
                 rebuilt := if ev.uncorrectable then satInc x.rebuilt else x.rebuilt }
      let s := if ev.weak || ev.uncorrectable then s.poolDo (.refresh k.1) else s
      let s := if ev.uncorrectable || (ev.weak && ev.stillWeak) then s.poolDo (.retire k.1) else s
      if st = 4 && ev.last then (s.modPool k fun x => { x with state := 2 }).unitBack unitPool k.1 else s)

/-- The audit of a stored object ends; a mismatch that parity cannot cure makes every plate that names it BAD (R101, R106). -/
def execPoolAudit (family root : List Byte) (badLeaf : Option Nat) (s : State) : Out :=
  .next (match s.poolObj family root, badLeaf with
    | some _, some leaf =>
      let s := s.modPoolAll fun p => { p with objs := p.objs.map fun o =>
        if o.family = family && o.root = root && !o.badLeaves.contains leaf then { o with badLeaves := o.badLeaves ++ [leaf] } else o }
      let s := (s.raise 0x0306 devCh [leAt root 0 8, leaf]).log 0x0020 devCh [stDigestMismatch.toNat, ofLe family, ofLe root, leaf]
      s.objectBad family root stDigestMismatch
    | _, _ => s)

/-- Wear levelling of a channel: moves when the spread exceeds 1,000; a failing block is retired (R100). Under low-supply inhibit the move
waits (R102). -/
def execPoolWearLevel (k : Fin 16) (ev : WearEv) (s : State) : Out :=
  .next (if (vget s.pool.chans k).state = 2 && ev.minPe + 1000 < ev.maxPe then
    let t := s.poolDo (.move k.1 ev.maxPe)
    if ev.blockFailed && !s.inhibited then t.poolDo (.retire k.1) else t
  else s)

/-- A NAND program or erase ends; one that fails retires its block, at the end of low-supply inhibit where that is in force (R99, R100,
R102). -/
def execPoolOperationDone (k : Fin 16) (failed : Bool) (s : State) : Out :=
  .next (if s.poolOn k && failed then s.poolDo (.retire k.1) else s)

/-! ## Front cache (page FCA) -/

/-- FCA_CTRL.FLUSH: drop every unpinned line. -/
def execFcaFlush (m : Mgr) (s : State) : Out :=
  .next (s.regW m 0x016050 fun s => { s with fca := { s.fca with lines := [] } })

/-- FCA_CTRL.CNTCLR. -/
def execFcaCntclr (m : Mgr) (s : State) : Out :=
  .next (s.regW m 0x016050 fun s => { s with fca := { s.fca with hit := 0, miss := 0, tfailPinned := 0, tfailCached := 0 } })

end Sys2Proof.Machine
end

