-- ==== Sys2Proof/Machine/RingOps.lean ====
section
/-! DEFINITION. Submission and completion queues: doorbells, reading entries, arbitration and consumption (R209-R224), aborts (R233), and
disabling a half (R210). -/

namespace Sys2Proof.Machine

/-! ## Positions (R211-R215) -/

/-- (a - b) mod DEPTH. -/
def ringDist (depth a b : Nat) : Nat := (a + depth - b) % depth

/-- Units that the doorbell covers and the device has not consumed. -/
def Sq.waiting (q : Sq) : Nat := ringDist q.depth q.tail q.cons

/-- Units prefetched: up to 16 of those between CONS and TAIL. -/
def Sq.refill (q : Sq) : Sq := { q with prefetch := min 16 q.waiting }

/-- Record a doorbell write that is ignored or refused (R214, R220). -/
def Ring.ignored (r : Ring) (qid : Byte) (sq : Bool) (reason : Nat) : Ring :=
  { r with dbIgnored := satInc r.dbIgnored, errQid := qid, errSq := sq, errReason := BitVec.ofNat 3 reason }

/-- Device time since which the oldest posted entry has waited (R222). -/
def Sq.waitFrom (q : Sq) : Nat := match q.posts with | p :: _ => p.2 | [] => 0

/-- The doorbells that cover units beyond CONS. -/
def Sq.covering (q : Sq) : Sq :=
  { q with posts := q.posts.filter fun p => ringDist q.depth p.1 q.cons ≠ 0 && ringDist q.depth p.1 q.cons ≤ q.waiting }

/-- TAIL moves forward to t, at a device time. -/
def Sq.post (q : Sq) (now t : Nat) : Sq :=
  { q with tail := t, held := false, rereads := [], posts := if t = q.tail then q.posts else q.posts ++ [(t, now)],
           fetchFrom := if q.waiting = 0 then now else q.fetchFrom }

/-- TAIL is retracted to t: the units before it keep the time at which they were posted. -/
def Sq.retract (q : Sq) (t : Nat) : Sq :=
  let kept := q.posts.filter fun p => ringDist q.depth p.1 q.cons < ringDist q.depth t q.cons
  let cut := (q.posts.find? fun p => ringDist q.depth t q.cons ≤ ringDist q.depth p.1 q.cons).map fun p => (t, p.2)
  { q with tail := t, prefetch := 0, retracted := true, held := false, rereads := [],
           posts := if t = q.cons then [] else kept ++ cut.toList }

/-- A write of an SQ tail doorbell: INVAL in bit 31, TAIL in [12:0]. A queue in fault takes none (R239); it is not counted (DESIGN CHOICE, log
entry 35). -/
def Ring.tailDoorbell (r : Ring) (now : Nat) (qid : Byte) (v : Word) (inval : Bool) : Ring :=
  let t := field v.toNat 12 0
  match SMap.get? r.sqs qid.toNat with
  | none => r.ignored qid true 1
  | some q =>
    if q.fault then r
    else if q.depth ≤ t then r.ignored qid true 2
    else if inval then
      if ringDist q.depth t q.head < ringDist q.depth q.cons q.head then
        { r.ignored qid true 4 with sqs := SMap.put r.sqs qid.toNat { q with prefetch := 0, retracted := false } }
      else { r with sqs := SMap.put r.sqs qid.toNat (q.retract t) }
    else if ringDist q.depth t q.head < ringDist q.depth q.tail q.head then r.ignored qid true 3
    else { r with sqs := SMap.put r.sqs qid.toNat (q.post now t).refill }

/-- A write of a CQ head doorbell. -/
def Ring.headDoorbell (r : Ring) (qid : Byte) (v : Word) : Ring :=
  let h := field v.toNat 12 0
  match SMap.get? r.cqs qid.toNat with
  | none => r.ignored qid false 1
  | some c =>
    if c.fault then r
    else if c.depth ≤ h then r.ignored qid false 2
    else if ringDist c.depth c.tail c.head < ringDist c.depth h c.head then r.ignored qid false 5
    else { r with cqs := SMap.put r.cqs qid.toNat { c with head := h } }

/-! ## Entries (R211-R213, R216) -/

/-- An entry as read: opcode, units, FENCE, CID, channel, and its units' bytes. -/
structure Entry where
  opc : Nat
  units : Nat
  fence : Bool
  cid : Half
  ch : Half
  raw : List Byte

/-- Read the entry that begins with a unit. -/
def entryOf (units : List Byte) : Entry :=
  let b := leAt units 2 1
  let n := field b 2 0 + 1
  { opc := leAt units 0 2, units := n, fence := bit b 3, cid := BitVec.ofNat 16 (leAt units 4 2), ch := BitVec.ofNat 16 (leAt units 6 2),
    raw := slice units 0 (64 * n) }

/-- The P bit of unit i of a string of units. -/
def phaseOf (units : List Byte) (i : Nat) : Bool := bit (leAt units (64 * i + 63) 1) 7

/-- The phase expected i units beyond CONS. -/
def Sq.phaseAt (q : Sq) (i : Nat) : Bool := if q.depth ≤ q.cons + i then !q.phase else q.phase

/-- Units i to i + k - 1 beyond CONS are posted: covered by the doorbell, their phases right (R213). -/
def Sq.posted (q : Sq) (units : List Byte) (i k : Nat) : Bool :=
  i + k ≤ q.waiting && (List.range k).all fun j => 64 * (i + j + 1) ≤ units.length && phaseOf units (i + j) = q.phaseAt (i + j)

/-- CH_HOLD, CH_STATUS and CH_QUARANTINE (R19). -/
def fastOpc (opc : Nat) : Bool := opc = 0x0100 || opc = 0x0102 || opc = 0x0103

/-- FENCE lets the entry start: nothing earlier is uncompleted where it carries FENCE, and no earlier FENCE is uncompleted (R216). -/
def Sq.fenceOk (q : Sq) (fence : Bool) : Bool :=
  let open_ := q.flight.filter fun f => !f.done
  (!fence || open_.isEmpty) && !(open_.any fun f => f.fence)

/-- Move CONS over k units. -/
def Sq.advance (q : Sq) (k : Nat) : Sq :=
  if q.cons + k < q.depth then { q with cons := q.cons + k } else { q with cons := 0, phase := !q.phase }

/-- Entries taken early that CONS has reached are passed over (R19); the entries in flight are kept in ring order. -/
def Sq.skipEarly : Nat → Sq → Sq
  | 0, q => q
  | fuel + 1, q =>
    if q.early.contains q.cons then
      match q.flight.find? fun f => f.start = q.cons with
      | some f =>
        let q := { q with early := q.early.filter fun x => x ≠ q.cons }
        Sq.skipEarly fuel (q.advance f.units)
      | none => { q with early := q.early.filter fun x => x ≠ q.cons }
    else { q with flight := ordered (fun a b => decide (ringDist q.depth a.start q.head ≤ ringDist q.depth b.start q.head)) q.flight }

/-! ## Limits and arbitration (R220, R222, R223) -/

/-- Commands of a manager in flight. -/
def Ring.inFlight (r : Ring) : Nat := (r.sqs.map fun q => (q.2.flight.filter fun f => !f.done).length).sum

/-- Commands in flight on both halves. -/
def State.deviceInFlight (s : State) : Nat := s.rings.a.inFlight + s.rings.b.inFlight

/-- The manager may have one more command in flight. -/
def State.underLimit (s : State) (m : Mgr) : Bool := (s.ring m).inFlight < 3072 && s.deviceInFlight < 4096

/-- The SQ's CQ has a free entry (R220). -/
def Ring.credit (r : Ring) (q : Sq) : Bool :=
  match SMap.get? r.cqs q.cq.toNat with
  | some c => !c.fault && 0 < c.free
  | none => false

/-- Class in effect: a promoted BULK queue is NORMAL. -/
def Sq.class (q : Sq) : Nat := if q.promoted && q.cls = 0 then 1 else q.cls.toNat

/-- The SQ takes part in arbitration. -/
def State.takesPart (s : State) (m : Mgr) (e : Nat × Sq) : Bool :=
  let r := s.ring m
  let q := e.2
  r.rdy && !q.fault && !q.deleting && !q.held && !q.fenced && q.waiting ≠ 0 && r.credit q && s.underLimit m && (s.dev.state ≠ .start || e.1 = 0)

/-- Queues of a half that take part in a class, by rising number. -/
def State.takers (s : State) (m : Mgr) (cls : Nat) : List Nat :=
  ((s.ring m).sqs.filter fun e => s.takesPart m e && e.2.class = cls).map fun e => e.1

/-- The next queue of a half after the one served last, round robin. -/
def nextQueue (l : List Nat) (last : Nat) : Option Nat := (l.find? fun q => last < q).orElse fun _ => l.head?

/-- The queue that the arbitration of a class gives the turn to. -/
def State.pickClass (s : State) (cls : Nat) : Option (Mgr × Nat) :=
  let a := match fin? 3 cls with | some c => vget s.arb c | none => { last := .b, queue := PerMgr.both 0 }
  let first := a.last.other
  match nextQueue (s.takers first cls) (a.queue.get first) with
  | some q => some (first, q)
  | none => (nextQueue (s.takers first.other cls) (a.queue.get first.other)).map fun q => (first.other, q)

/-- The next SQ to consume from: URGENT, then NORMAL, then BULK. -/
def State.pickQueue (s : State) : Option (Mgr × Nat) :=
  match s.pickClass 2 with
  | some x => some x
  | none => match s.pickClass 1 with
    | some x => some x
    | none => s.pickClass 0

/-- The turn of a class has been taken. -/
def State.served (s : State) (m : Mgr) (q cls : Nat) : State :=
  match fin? 3 cls with
  | some c => { s with arb := vmod s.arb c fun a => { last := m, queue := a.queue.set m q } }
  | none => s

/-! ## Consumption -/

def State.putSq (s : State) (m : Mgr) (qid : Nat) (q : Sq) : State := s.modRing m fun r => { r with sqs := SMap.put r.sqs qid q }
def State.putCq (s : State) (m : Mgr) (qid : Nat) (c : Cq) : State := s.modRing m fun r => { r with cqs := SMap.put r.cqs qid c }

/-- The entry at CONS cannot be consumed now: a unit with a wrong phase is read again at 2, 20 and 200 µs (R213). -/
def State.holdSq (s : State) (m : Mgr) (qid : Nat) (q : Sq) : State :=
  s.putSq m qid { q with held := true, rereads := [s.now + 2 * usec, s.now + 20 * usec, s.now + 200 * usec] }

/-- A CQ slot is reserved for a command (R220). -/
def State.reserve (s : State) (m : Mgr) (q : Sq) : State :=
  match SMap.get? (s.ring m).cqs q.cq.toNat with
  | some c => s.putCq m q.cq.toNat { c with reserved := c.reserved + 1 }
  | none => s

/-- Take an entry of k units from its place: CONS moves, or, for one taken early, does not (R19). -/
def Sq.take (q : Sq) (now : Nat) (start k : Nat) (e : Entry) (early : Bool) : Sq :=
  let f : InFlight :=
    { cid := e.cid, opc := BitVec.ofNat 16 e.opc, start := start, units := k, fence := e.fence, fast := fastOpc e.opc, done := false, raw := e.raw }
  let q := { q with flight := q.flight ++ [f] }
  if early then { q with early := q.early ++ [start] }
  else
    let q := Sq.skipEarly q.early.length (q.advance k)
    { q.covering with promoted := false, fetchFrom := now }.refill

/-- Consume the entry at CONS. One that a FENCE holds back is tried again at the next completion of the queue (R216). One that runs past the end,
that an ABORT has met, or whose opcode is unknown completes at once (R212, R233, R228); ABORT never aborts an ABORT. -/
def State.consume (s : State) (m : Mgr) (qid : Nat) (q : Sq) (units : List Byte) : State :=
  let e := entryOf units
  let toEnd := q.depth - q.cons
  let past := toEnd < e.units
  let k := min e.units toEnd
  let src : Src := { mgr := m, sq := BitVec.ofNat 8 qid, cid := e.cid }
  if !q.posted units 0 k then s.holdSq m qid q
  else if e.opc = 0 then s
  else if !q.fenceOk e.fence then s.putSq m qid { q with fenced := true }
  else
    let s := (s.served m qid q.class).reserve m q
    let aborted := q.toAbort.contains e.cid && e.opc ≠ 0x0008
    let q := { q with toAbort := q.toAbort.filter fun c => c ≠ e.cid }
    let s := s.putSq m qid (q.take s.now q.cons k e false)
    if past then (s.modRing m fun r => { r with badEntry := satInc r.badEntry }).finish src stInvalidField 2
    else if aborted then s.finish src stAborted
    else if !knownOpc e.opc then s.finish src (if s.dev.state = .deviceRecovery then stNotPermitted else stInvalidOpcode)
    else s

/-- The first fast-path entry beyond CONS that has not been taken, while the control cluster is absent (R19): its offset from CONS. -/
def Sq.findFast : Nat → Sq → List Byte → Nat → Option (Nat × Entry)
  | 0, _, _, _ => none
  | fuel + 1, q, units, i =>
    let rest := units.drop (64 * i)
    let e := entryOf rest
    let pos := (q.cons + i) % q.depth
    let toEnd := q.depth - pos
    let k := if e.opc = 0 then toEnd else min e.units toEnd
    if !q.posted units i (if e.opc = 0 then 1 else k) then none
    else if fastOpc e.opc && e.units ≤ toEnd && !q.early.contains pos && !(e.fence && i ≠ 0) && q.fenceOk e.fence then some (i, e)
    else Sq.findFast fuel q units (i + k)

/-- Consume a fast-path entry during a control-cluster restart (R19). DESIGN CHOICE (log entry 90): an entry with FENCE = 1 that waits for the
cluster, not yet consumed, does not hold back a fast-path entry behind it; consumed ones do (R216). -/
def State.consumeFast (s : State) (m : Mgr) (qid : Nat) (q : Sq) (units : List Byte) : State :=
  match Sq.findFast q.waiting q units 0 with
  | some (i, e) =>
    let q' := { q with toAbort := q.toAbort.filter fun c => c ≠ e.cid }
    let s := (s.reserve m q).putSq m qid (q'.take s.now ((q.cons + i) % q.depth) e.units e (i ≠ 0))
    if q.toAbort.contains e.cid then s.finish { mgr := m, sq := BitVec.ofNat 8 qid, cid := e.cid } stAborted else s
  | none => s

/-! ## Aborts (R233) -/

/-- The command's Burin job is aborted (R205): whether there was one. -/
def State.abortBurin (s : State) (src : Src) : State × Bool :=
  let mine := fun j : BurinJob => j.owner = .queue src.mgr src.sq && j.cid = src.cid
  if s.burin.waiting.any mine then
    ({ s with burin := { s.burin with waiting := s.burin.waiting.filter fun j => !mine j } }, true)
  else
    match (List.finRange 4).find? fun k => (match (s.core k).job with | some j => mine j | none => false) || (s.core k).susp.any mine with
    | none => (s, false)
    | some k =>
      let running := match (s.core k).job with | some j => mine j | none => false
      let s := s.modCore k fun c =>
        let c := c.abort 1
        if running then
          let c := { c with job := none, state := 0, lastOwner := match c.job with | some j => j.owner | none => c.lastOwner }
          c.wipe s.now
        else { c with susp := c.susp.filter fun j => !mine j }
      let s := if running && (s.core k).outAfter then s.coreOut k coreTaken false else s
      (s.dispatchJobs, true)

/-- The command's hash job is removed; a context that START or UPDATE left open is closed (R196). -/
def State.abortHash (s : State) (src : Src) : State × Bool :=
  let mine := fun j : HashJob => j.sq = src.sq && j.cid = src.cid
  match (s.hash.get src.mgr).jobs.find? mine with
  | none => (s, false)
  | some j =>
    (s.modHash src.mgr fun h =>
      { h with jobs := h.jobs.filter fun j => !mine j,
               ctxs := if j.mode = 1 || j.mode = 2 then SMap.del h.ctxs j.ctx.toNat else h.ctxs }, true)

/-- Stop a command that has not passed its abort point: a channel order, an OTP pulse and an arming under way have (R233). Answers 0 aborted, 2
past its abort point; the completion is posted with an INFO. DESIGN CHOICE (log entry 35): a DELETE_SQ that is aborted leaves its queue in
place, to consume again. -/
def State.stopCommand (s : State) (src : Src) (info : Nat) : State × Nat :=
  let a := s.abortBurin src
  if a.2 then (a.1.finish src stAborted info, 0)
  else
    let a := s.abortHash src
    if a.2 then (a.1.finish src stAborted info, 0)
    else match s.awaits.find? fun w => w.who = .cmd src with
      | none => match s.otp.busy with
        | some (who, _) =>
          if who ≠ src then (s.finish src stAborted info, 0)
          else if s.otp.state = 2 then (State.finish { s with otp := { s.otp with busy := none, state := 0 } } src stAborted info, 0)
          else (s, 2)
        | none => (s.finish src stAborted info, 0)
      | some w =>
        match w.kind, fin? 128 w.ch with
        | .delSq qid, _ =>
          let s := { s with awaits := s.awaits.filter fun x => x ≠ w }
          let s := s.modRing src.mgr fun r => { r with sqs := r.sqs.map fun e => if e.1 = qid then (e.1, { e.2 with deleting := false }) else e }
          (s.finish src stAborted info, 0)
        | .arm, some n =>
          let begun := match (s.pl n).arming with | some x => x.live || x.committed | none => true
          if begun then (s, 2) else (s.endArming n stAborted, 0)
        | _, _ => (s, 2)

/-- Abort every uncompleted command of an SQ. -/
def State.abortSq (s : State) (m : Mgr) (qid : Nat) : State :=
  match SMap.get? (s.ring m).sqs qid with
  | some q => s.forAll (q.flight.filter fun f => !f.done) fun f s =>
      (s.stopCommand { mgr := m, sq := BitVec.ofNat 8 qid, cid := f.cid } 0).1
  | none => s

/-! ## Enabling and disabling a half (R209, R210) -/

/-- The admin queue values are good. -/
def Ring.adminOk (r : Ring) : Bool :=
  16 ≤ r.asqDepth.toNat && r.asqDepth.toNat ≤ 4096 && 16 ≤ r.acqDepth.toNat && r.acqDepth.toNat ≤ 4096 &&
  r.asq.toNat % 4096 = 0 && r.acq.toNat % 4096 = 0

/-- A new submission queue. -/
def Sq.fresh (depth : Nat) (base : DWord) (cq : Byte) (cls : BitVec 2) : Sq :=
  { depth := depth, base := base, cq := cq, cls := cls, tail := 0, cons := 0, head := 0, phase := true, retracted := false, prefetch := 0,
    fault := false, promoted := false, posts := [], fetchFrom := 0, rereads := [], flight := [], early := [], deleting := false, held := false,
    fenced := false,
    toAbort := [] }

/-- A new completion queue. -/
def Cq.fresh (depth : Nat) (base : DWord) (vector : Nat) (ien event : Bool) (coalN coalUs : Nat) : Cq :=
  { depth := depth, base := base, vector := vector, ien := ien, event := event, coalN := coalN, coalUs := coalUs, tail := 0, head := 0,
    phase := true, reserved := 0, fault := false, unsignalled := 0, firstAt := 0 }

/-- EN = 1: queue 0 is URGENT, signals on vector 0 without coalescing; the half starts under 1.3. -/
def Ring.enable (r : Ring) : Ring :=
  if r.en then r
  else if r.adminOk then
    { r with en := true, rdy := true, fatal := false, version := 0x0103, mask := 0xFF,
             sqs := [(0, Sq.fresh r.asqDepth.toNat r.asq 0 2)], cqs := [(0, Cq.fresh r.acqDepth.toNat r.acq 0 true false 0 0)] }
  else { r with en := true, rdy := false, fatal := true }

/-- The half as EN = 0 leaves it: the 1.3 profile, no queue, no pending slot. -/
def Ring.disable (r : Ring) : Ring :=
  { r with en := false, rdy := false, fatal := false, version := 0x0103, sqs := [], cqs := [], slots := [], evtCq := none }

/-- Disable a half: commands are aborted without completions, those past their abort point run on. -/
def State.disableHalf (s : State) (m : Mgr) : State :=
  let jobs := fun src s => ((State.abortBurin s src).1.abortHash src).1
  let srcs := (s.ring m).sqs.flatMap fun e =>
    (e.2.flight.filter fun f => !f.done).map fun f => ({ mgr := m, sq := BitVec.ofNat 8 e.1, cid := f.cid } : Src)
  let mine := fun w : Await => match w.who with | .cmd src => decide (src.mgr = m) | .mctp _ _ | .reg _ _ => false
  let stop := (s.awaits.filter fun w => mine w && w.kind = .arm).filterMap fun w => fin? 128 w.ch
  let s := { s.modRing m Ring.disable with dev := { s.dev with idleSince := s.now } }
  let s := s.forAll srcs jobs
  let s := { s with awaits := s.awaits.filter fun w => !mine w }
  let s := s.forAll stop fun n s => match (s.pl n).arming with
    | some x => if x.live || x.committed then s else s.endArming n stAborted
    | none => s
  s.modHash m fun h => { h with ctxs := [], jobs := [] }

end Sys2Proof.Machine
end

