-- ==== Sys2Proof/Machine/Rings.lean ====
section
/-! DEFINITION. The ring engine's commands: enabling, doorbells, consumption, events and interrupts, DMA failures, the queue commands, ABORT,
NEGOTIATE and the features (chapter "Ovdel rings and command set"). -/

namespace Sys2Proof.Machine

/-! ## Halves -/

/-- RNG_CTRL.EN = 1 (R209). -/
def execRingEnable (m : Mgr) (s : State) : Out := .next (s.regW m 0x009040 fun s => s.modRing m Ring.enable)

/-- RNG_CTRL.EN = 0 (R210). -/
def execRingDisable (m : Mgr) (s : State) : Out :=
  .next (s.regW m 0x009040 fun s => if (s.ring m).en then s.disableHalf m else s)

/-- The view of a function that FLR, hot reset or PCIEn_PERST# has reset (R243): its registers and MSI-X structures; counters of the
link, what it has sent, and the link itself stay. -/
def View.functionReset (v : View) : View :=
  { v with irqVector := 0, irqEn := false, latch := [], held := [], cfg := PciCfg.reset, eid := 0, eidValid := false, msix := [], aer := [] }

/-- FLR, hot reset of the link or PCIEn_PERST# (R210, R243): the half is disabled, this manager's copies return to reset and its
shadows to the active tables (R63); tables, locks, plate claims and its watchdog stay, and of an unarmed watchdog the configuration returns to
reset. -/
def execFunctionReset (m : Mgr) (s : State) : Out :=
  .next (if !s.mgrOn m then s
    else
      let s := (s.disableHalf m).modRing m fun _ => Ring.reset
      let s := (s.modView m View.functionReset).modAttView m fun _ => AttView.reset
      let s := s.modHash m fun _ => HashWork.reset
      let s := s.modMwd m fun w =>
        if w.armed then { w with tokenLo := 0 } else { w with tokenLo := 0, keyed := false, prescale := 10, open_ := 0, close_ := 0 }
      { s with
        hdrs := s.hdrs.map fun (p : PerMgr Hdr) => p.set m Hdr.reset,
        stn := s.stn.map fun (t : Stencil) => { t with shadow := t.shadow.set m { tbl := t.tbl, marks := [] }, reqResult := t.reqResult.set m 0 },
        ctl := s.ctl.map fun (c : Ctl) => { c with ordRes := c.ordRes.set m OrdRes.reset },
        plat := { s.plat with force := s.plat.force.set m 0 } })

/-- A half that fetches nothing with work posted (R163): 2^20 fabric cycles of 1 ns. Its prefetch goes, unfinished commands run again
from their SQ copies, and the internal ladder counts it. -/
def execRingEngineWatchdog (m : Mgr) (s : State) : Out :=
  .next (match ((s.ring m).sqs.filter fun e => s.takesPart m e).map fun e => e.2.fetchFrom with
  | t :: l =>
    let s := s.until (l.foldl min t + 2 ^ 20)
    let s := s.modRing m fun r => { r with sqs := r.sqs.map fun e => (e.1, { e.2 with prefetch := 0, fetchFrom := s.now }) }
    s.internalExpiry 5 false
  | [] => s)

/-! ## Doorbells (R214, R215, R220) -/

/-- A tail doorbell. -/
def execSqTailDoorbell (m : Mgr) (q : Byte) (v : Word) (s : State) : Out :=
  .next (s.regW m (0x400000 + 8 * q.toNat) fun s => s.modRing m fun r => r.tailDoorbell s.now q v (v.getLsbD 31))

/-- A tail doorbell with INVAL. -/
def execSqTailRetract (m : Mgr) (q : Byte) (v : Word) (s : State) : Out :=
  .next (s.regW m (0x400000 + 8 * q.toNat) fun s => s.modRing m fun r => r.tailDoorbell s.now q v true)

/-- A head doorbell. -/
def execCqHeadDoorbell (m : Mgr) (q : Byte) (v : Word) (s : State) : Out :=
  .next (s.regW m (0x400004 + 8 * q.toNat) fun s => s.modRing m fun r => r.headDoorbell q v)

/-! ## Consumption (R211-R223) -/

/-- No DMA reads the SQ's unit at CONS: it goes into fault (R239, R254). -/
def State.fetchFault (s : State) (m : Mgr) (q : Byte) (x : Sq) : State :=
  (s.ringDmaFailed m 5 (x.base + BitVec.ofNat 64 (64 * x.cons))).queueFault m q true

/-- A unit with a wrong phase is read again (R213). -/
def execSqPhaseReread (m : Mgr) (q : Byte) (units : List Byte) (s : State) : Out :=
  .next (match SMap.get? (s.ring m).sqs q.toNat with
    | some x => match x.rereads with
      | t :: rest =>
        let s := s.until t
        if x.fault then s
        else if !s.dmaUp m then s.fetchFault m q x
        else if x.posted units 0 (min (entryOf units).units (x.depth - x.cons)) then s.putSq m q.toNat { x with held := false, rereads := [] }
        else s.putSq m q.toNat { x with rereads := rest }
      | [] => s
    | none => s)

/-- The ring engine consumes the entry at CONS of the queue whose turn it is, or, while the control cluster is absent, the next fast-path
entry of the queue. `units`: the SQ's units from CONS on, in ring order. -/
def execSqEntryConsume (m : Mgr) (q : Byte) (units : List Byte) (s : State) : Out :=
  .next (match SMap.get? (s.ring m).sqs q.toNat with
    | some x =>
      if !s.mgrOn m || !s.consumes { mgr := m, sq := q, cid := 0 } || x.fault || x.deleting || !(s.ring m).credit x || !s.underLimit m then s
      else if !s.dmaUp m && (s.dev.ccAbsent || s.pickQueue = some (m, q.toNat)) then s.fetchFault m q x
      else if s.dev.ccAbsent then s.consumeFast m q.toNat x units
      else if s.pickQueue = some (m, q.toNat) then s.consume m q.toNat x units
      else s
    | none => s)

/-- PAD (R212): its own unit to the end of the ring, no CQ slot, no completion. -/
def execPad (m : Mgr) (q : Byte) (units : List Byte) (s : State) : Out :=
  .next (match SMap.get? (s.ring m).sqs q.toNat with
    | some x =>
      let e := entryOf units
      if !s.mgrOn m || !s.consumes { mgr := m, sq := q, cid := 0 } || x.fault || x.deleting || s.dev.ccAbsent || e.opc ≠ 0 then s
      else if !s.dmaUp m then s.fetchFault m q x
      else if !x.posted units 0 1 then s.holdSq m q.toNat x
      else
        let k := x.depth - x.cons
        let y := x.take s.now x.cons k e false
        let y := { y with flight := y.flight.map fun (f : InFlight) => if f.start = x.cons && f.opc = 0 then { f with done := true, fence := false } else f }
        (s.served m q.toNat x.class).putSq m q.toNat y.release
    | none => s)

/-- A BULK SQ whose oldest posted entry has waited 10 ms is treated as NORMAL (R222). -/
def execBulkAgeing (m : Mgr) (q : Byte) (s : State) : Out :=
  .next (match SMap.get? (s.ring m).sqs q.toNat with
    | some x => if x.cls = 0 && x.waiting ≠ 0 && !x.fault then (s.until (x.waitFrom + 10 * msec)).putSq m q.toNat { x with promoted := true } else s
    | none => s)

/-! ## Events and interrupts (R221, R224) -/

/-- Codes held for 1 ms (R238, C). -/
def coalesced (code : Half) : Bool := [0x0102, 0x0103, 0x0202, 0x0301, 0x0303, 0x080C].contains code.toNat

/-- Events that signal at once: class tamper, MGR_LOST, DEVICE_STATE (R224). -/
def urgentEvent (code : Half) : Bool := eventClass code = 6 || code = 0x0207 || code = 0x0801

/-- The oldest slot that is due is written to the event CQ; where none is, the oldest of those held for 1 ms, when it is. -/
def execEventSlotWrite (m : Mgr) (s : State) : Out :=
  .next (let r := s.ring m
    let due := r.slots.find? fun x => !coalesced x.ev.code || decide (x.time + msec ≤ s.now)
    match r.evtCq, due.orElse fun _ => r.slots.head? with
    | some q, some x => match SMap.get? r.cqs q.toNat with
      | some c =>
        if c.fault || c.free = 0 || !r.rdy then s
        else if !s.dmaUp m then (s.ringDmaFailed m 5 (c.base + BitVec.ofNat 64 (32 * c.tail))).queueFault m q false
        else
          let s := if coalesced x.ev.code then s.until (x.time + msec) else s
          let c' := c.advance s.now
          let now_ := urgentEvent x.ev.code && c.ien
          let c' := if now_ then { c' with unsignalled := 0 } else c'
          let s := s.modRing m fun r => { r with slots := r.slots.filter fun y => y ≠ x, cqs := SMap.put r.cqs q.toNat c' }
          let s := s.modView m fun v => { v with out := v.out ++ [.eventEntry q c.tail x c.phase] }
          if now_ then s.msix m c.vector else s
      | none => s
    | _, _ => s)

/-- When a CQ with entries not yet signalled signals (R224): at once with COAL_N of them, else COAL_US after the first. -/
def Cq.signalAt (c : Cq) : Option Nat :=
  if !c.ien || c.unsignalled = 0 then none
  else if c.coalN ≠ 0 && c.coalN ≤ c.unsignalled then some 0 else some (c.firstAt + c.coalUs * usec)

/-- A CQ signals its vector. -/
def execCqInterrupt (m : Mgr) (q : Byte) (s : State) : Out :=
  .next (match SMap.get? (s.ring m).cqs q.toNat with
    | some c => match (if c.fault then none else c.signalAt) with
      | some t => ((s.until t).putCq m q.toNat { c with unsignalled := 0 }).msix m c.vector
      | none => s
    | none => s)

/-! ## DMA failures (R239, R254) -/

/-- A DMA that reads an SQ unit or writes a CQ entry fails (R239, R254). -/
def execRingDmaFault (m : Mgr) (q : Byte) (fault : RingFault) (s : State) : Out :=
  .next (let r := s.ring m
    let here := if fault.sq then (SMap.get? r.sqs q.toNat).isSome else (SMap.get? r.cqs q.toNat).isSome
    if here then (s.ringDmaFailed m fault.kind fault.addr).queueFault m q fault.sq else s)

/-- A DMA fails on the link: AER, PCI_DMAERR, PCI_DMAADDR; the command whose buffer it was completes with ABORTED. -/
def execDmaFailure (m : Mgr) (kind : BitVec 3) (addr : DWord) (who : Option DmaUser) (s : State) : Out :=
  .next (if !s.mgrOn m then s
    else
      match who with
      | some u =>
        let s := s.ringDmaFailed m kind addr
        let src : Src := { mgr := m, sq := u.sq, cid := u.cid }
        if (s.inFlight? src).isSome then (s.stopCommand src u.info.toNat).1 else s
      | none => s.dmaFailed m kind addr)

/-! ## Queue commands (R232) -/

/-- The first field of CREATE_CQ at fault: its offset. -/
def State.badCq (s : State) (m : Mgr) (f : CqFields) : Option Nat :=
  if f.qid = 0 || 255 < f.qid.toNat || (SMap.get? (s.ring m).cqs f.qid.toNat).isSome then some 8
  else if f.depth < 16 || 4096 < f.depth then some 10
  else if 512 ≤ f.vector then some 12
  else if f.base.toNat % 4096 ≠ 0 then some 16
  else if 255 < f.coalN then some 24
  else if 1000 < f.coalUs then some 26
  else none

/-- CREATE_CQ. -/
def execCreateCq (src : Src) (f : CqFields) (s : State) : Out :=
  .next (s.ovdel src (gateOf (.createCq src f)) fun s => match s.badCq src.mgr f with
    | some off => s.deliver src (ans stInvalidField off)
    | none => (s.putCq src.mgr f.qid.toNat (Cq.fresh f.depth f.base f.vector f.ien f.event f.coalN f.coalUs)).deliver src okAns)

/-- The first field of CREATE_SQ at fault. -/
def State.badSq (s : State) (m : Mgr) (f : SqFields) : Option Nat :=
  if f.qid = 0 || 255 < f.qid.toNat || (SMap.get? (s.ring m).sqs f.qid.toNat).isSome then some 8
  else if f.depth < 16 || 4096 < f.depth then some 10
  else if (match SMap.get? (s.ring m).cqs f.cqid.toNat with | some c => c.event | none => true) then some 12
  else if 2 < f.cls.toNat then some 14
  else if f.base.toNat % 4096 ≠ 0 then some 16
  else none

/-- CREATE_SQ. -/
def execCreateSq (src : Src) (f : SqFields) (s : State) : Out :=
  .next (s.ovdel src (gateOf (.createSq src f)) fun s => match s.badSq src.mgr f with
    | some off => s.deliver src (ans stInvalidField off)
    | none =>
      let faulty := match SMap.get? (s.ring src.mgr).cqs f.cqid.toNat with | some c => c.fault | none => false
      let q := { Sq.fresh f.depth f.base (f.cqid.truncate 8) (BitVec.ofNat 2 f.cls.toNat) with fault := faulty }
      (s.putSq src.mgr f.qid.toNat q).deliver src okAns)

/-- DELETE_SQ: consumption stops, its commands are aborted, and it completes after their completions. -/
def execDeleteSq (src : Src) (qid : Half) (s : State) : Out :=
  .next (s.ovdel src (gateOf (.deleteSq src qid)) fun s => match SMap.get? (s.ring src.mgr).sqs qid.toNat with
    | some q =>
      if qid = 0 then s.deliver src (ans stInvalidField 8)
      else
        let s := (s.putSq src.mgr qid.toNat { q with deleting := true }).wait (.cmd src) 0 (.delSq qid.toNat)
        (s.abortSq src.mgr qid.toNat).reapSq src.mgr qid.toNat
    | none => s.deliver src (ans stInvalidField 8))

/-- DELETE_CQ: BUSY while an SQ names it or it is the event ring. -/
def execDeleteCq (src : Src) (qid : Half) (s : State) : Out :=
  .next (s.ovdel src (gateOf (.deleteCq src qid)) fun s =>
    let r := s.ring src.mgr
    if qid = 0 || (SMap.get? r.cqs qid.toNat).isNone then s.deliver src (ans stInvalidField 8)
    else if (r.sqs.any fun e => e.2.cq.toNat = qid.toNat) || r.evtCq.map (fun q => q.toNat) = some qid.toNat then s.deliver src (ans stBusy)
    else (s.modRing src.mgr fun r => { r with cqs := SMap.del r.cqs qid.toNat }).deliver src okAns)

/-- SET_EVENT_RING. -/
def execSetEventRing (src : Src) (cqid : Half) (mask : Word) (s : State) : Out :=
  .next (s.ovdel src (gateOf (.setEventRing src cqid mask)) fun s =>
    let evt := match SMap.get? (s.ring src.mgr).cqs cqid.toNat with | some c => c.event | none => false
    if cqid = 0xFFFF then (s.modRing src.mgr fun r => { r with evtCq := none, mask := mask.truncate 8 }).deliver src okAns
    else if !evt then s.deliver src (ans stInvalidField 8)
    else if (match SMap.get? (s.ring src.mgr).cqs cqid.toNat with | some c => c.fault | none => false) then s.deliver src (ans stNotPermitted)
    else (s.modRing src.mgr fun r => { r with evtCq := some (cqid.truncate 8), mask := mask.truncate 8 }).deliver src okAns)

/-! ## ABORT, NEGOTIATE, features -/

/-- ABORT (R233): INFO 0 aborted, 1 no such command, 2 past its abort point, which it is for an ABORT. `posted`: the opcode of the command of that
CID that is posted and not consumed. -/
def execAbort (src : Src) (sqid : Half) (cid : Half) (posted : Option Half) (s : State) : Out :=
  .next (s.ovdel src (gateOf (.abort src sqid cid posted)) fun s => match SMap.get? (s.ring src.mgr).sqs sqid.toNat with
    | none => s.deliver src (okAns [] 1)
    | some q => match q.flight.find? fun f => f.cid = cid && !f.done with
      | some f =>
        if f.opc = 0x0008 then s.deliver src (okAns [] 2)
        else
          let r := s.stopCommand { mgr := src.mgr, sq := sqid.truncate 8, cid := cid } 0
          r.1.deliver src (okAns [] r.2)
      | none =>
        match posted with
        | some opc =>
          if opc = 0x0008 then s.deliver src (okAns [] 2)
          else (s.putSq src.mgr sqid.toNat { q with toAbort := q.toAbort ++ [cid] }).deliver src (okAns [] 0)
        | none => s.deliver src (okAns [] 1))

/-- The highest version supported that is not above PROPOSED (R226). -/
def agreeVersion (proposed : Nat) : Option Nat :=
  if 0x0202 ≤ proposed then some 0x0202
  else if 0x0201 ≤ proposed then some 0x0201
  else if 0x0200 ≤ proposed then some 0x0200
  else if 0x0103 ≤ proposed then some 0x0103
  else none

/-- RESULT of NEGOTIATE: AGREED, SUPPORTED. -/
def agreeResult (v : Nat) : List Byte := leBytes 2 v ++ leBytes 2 0xF

/-- NEGOTIATE: while the manager has no I/O queue. -/
def execNegotiate (src : Src) (proposed : Half) (s : State) : Out :=
  .next (s.ovdel src (gateOf (.negotiate src proposed)) fun s => match agreeVersion proposed.toNat with
    | none => s.deliver src (ans stVersionUnsupported)
    | some v =>
      let r := s.ring src.mgr
      if (r.sqs.any fun e => e.1 ≠ 0) || (r.cqs.any fun e => e.1 ≠ 0) then s.deliver src (ans stBusy)
      else (s.modRing src.mgr fun r => { r with version := BitVec.ofNat 16 v }).deliver src (okAns (agreeResult v)))

/-- A manager posts a message to a host (R48). -/
def State.postToHost (s : State) (src : Src) (n : Fin 128) (data : List Byte) : State :=
  let b := s.mb n
  if 16368 < data.length then s.deliver src (ans stInvalidField 24)
  else if b.m2hAck ≠ b.m2hSeq then s.deliver src (ans stBusy)
  else (s.modMbx n fun b => { b with m2hSeq := b.m2hSeq + 1, m2hLen := BitVec.ofNat 32 data.length, m2hData := data }).deliver src okAns

/-- The channel that SEL names, enabled by the part number. -/
def State.selChan (s : State) (sel : Half) : Option (Fin 128) :=
  match fin? 128 sel.toNat with
  | some n => if s.chanOn n then some n else none
  | none => none

/-- SET_FEATURE. DESIGN CHOICE (log entry 35): it is NOT_PERMITTED on a queue in fault, as SET_EVENT_RING is, since neither acts on one (R239). -/
def execSetFeature (src : Src) (fid : Byte) (sel : Half) (value : Word) (data : List Byte) (s : State) : Out :=
  .next (s.ovdel src (gateOf (.setFeature src fid sel value data)) fun s =>
    let r := s.ring src.mgr
    match fid.toNat with
    | 1 => match SMap.get? r.cqs sel.toNat with
      | some c =>
        if 1000 < field value.toNat 25 16 then s.deliver src (ans stInvalidField 12)
        else if c.fault then s.deliver src (ans stNotPermitted)
        else (s.putCq src.mgr sel.toNat { c with coalN := field value.toNat 7 0, coalUs := field value.toNat 25 16 }).deliver src okAns
      | none => s.deliver src (ans stInvalidField 10)
    | 2 => (s.modRing src.mgr fun r => { r with mask := value.truncate 8 }).deliver src okAns
    | 3 =>
      if s.version src.mgr < 0x0202 then s.deliver src (ans stVersionUnsupported)
      else match s.selChan sel with
        | some n => s.postToHost src n data
        | none => s.deliver src (ans stInvalidField 10)
    | 4 => match SMap.get? r.sqs sel.toNat with
      | some q =>
        if 2 < value.toNat then s.deliver src (ans stInvalidField 12)
        else if q.fault then s.deliver src (ans stNotPermitted)
        else (s.putSq src.mgr sel.toNat { q with cls := BitVec.ofNat 2 value.toNat, promoted := false }).deliver src okAns
      | none => s.deliver src (ans stInvalidField 10)
    | _ => s.deliver src (ans stInvalidField 8))

/-- GET_FEATURE. -/
def execGetFeature (src : Src) (fid : Byte) (sel : Half) (s : State) : Out :=
  .next (s.ovdel src (gateOf (.getFeature src fid sel)) fun s =>
    let r := s.ring src.mgr
    match fid.toNat with
    | 1 => match SMap.get? r.cqs sel.toNat with
      | some c => s.deliver src (okAns (leBytes 4 (pack [(0, c.coalN), (16, c.coalUs)])))
      | none => s.deliver src (ans stInvalidField 10)
    | 2 => s.deliver src (okAns (leBytes 4 r.mask.toNat))
    | 3 =>
      if s.version src.mgr < 0x0202 then s.deliver src (ans stVersionUnsupported)
      else match s.selChan sel with
        | some n => s.deliver src (okAns (leBytes 4 (s.mb n).m2hSeq.toNat ++ leBytes 4 (s.mb n).m2hAck.toNat))
        | none => s.deliver src (ans stInvalidField 10)
    | 4 => match SMap.get? r.sqs sel.toNat with
      | some q => s.deliver src (okAns (leBytes 4 q.cls.toNat))
      | none => s.deliver src (ans stInvalidField 10)
    | _ => s.deliver src (ans stInvalidField 8))

end Sys2Proof.Machine
end

