-- ==== Sys2Proof/Machine/RegRead.lean ====
section
/-! DEFINITION. What every register of BAR0 reads as (R9, R11, R240-R245, R251 and the register tables of each chapter): a value per page
and offset in the reading manager's view. -/

namespace Sys2Proof.Machine

/-! ## Helpers -/

/-- Word w of a byte string, lowest byte first. -/
def wordOf (bs : List Byte) (w : Nat) : Nat := leAt bs (4 * w) 4

/-- The low or the high word of a 64-bit value. -/
def loWord (v : Nat) : Nat := v % 2 ^ 32
def hiWord (v : Nat) : Nat := v / 2 ^ 32 % 2 ^ 32

/-- A word with bit i set where a test holds. -/
def bitWord (k : Nat) (p : Nat → Bool) : Nat := pack ((List.range k).map fun i => (i, bval (p i)))

/-- Offset o is one of k registers that begin at `base`, `stride` apart: its index. -/
def regIndex (o base stride k : Nat) : Option Nat :=
  if base ≤ o ∧ o < base + stride * k ∧ (o - base) % stride = 0 then some ((o - base) / stride) else none

/-- Cap at a field's largest value. -/
def capped (v w : Nat) : Nat := min v (2 ^ w - 1)

/-! ## The common header (R245) -/

/-- Block type of a global page, by number (page index). -/
def blockOf (k : Nat) : Nat := if k ≤ 8 then k + 1 else if k = 9 then 0x0A else if k ≤ 0x10 then k else if k ≤ 0x13 then 0x10 else k - 3

/-- Byte offset of the last register of a global page. -/
def lastOf (k : Nat) : Nat :=
  [0x078, 0x058, 0x04C, 0x050, 0x054, 0x04C, 0x05C, 0x060, 0x048, 0x068, 0x054, 0x048, 0x094, 0x0BC, 0x0F8, 0x04C, 0x058, 0x058, 0x058,
   0x058, 0x06C, 0x0BC, 0x050, 0x050, 0x058, 0x080].getD k 0

/-- Global pages with registers of R243's list beyond the header: GLB, both RNG, EVT, MWD, TWL, ATT, HSH. -/
def viewPage (k : Nat) : Bool := [0, 0x9, 0xA, 0xB, 0xC, 0xD, 0xE, 0x14].contains k

/-- PAGE_ID of a page: BLOCK, INDEX, INSTANCE, REV. -/
def pageId : Area → Nat
  | .global k => pack [(0, 1), (8, if 0x10 ≤ k ∧ k ≤ 0x13 then k - 0x10 else 0), (16, bval (k = 0xA)), (24, blockOf k)]
  | .chan n j => pack [(0, 1), (8, n.1), (24, 0x20 + j.1)]
  | .fp f => pack [(0, 1), (8, f.1), (24, 0x24)]
  | .pool k => pack [(0, 1), (8, k.1), (24, 0x25)]
  | .doorbell | .msix | .unmapped => 0

/-- PAGE_CAP: SHADOW, VIEWS, LOCKABLE, INDEXED, END. -/
def pageCap : Area → Nat
  | .global k => pack [(1, bval (viewPage k)), (2, bval (k = 0xC)), (3, bval (0x10 ≤ k && k ≤ 0x13)), (16, lastOf k)]
  | .chan _ j => pack [(0, bval (j = 1)), (1, bval (j.1 ≤ 1)), (2, bval (j = 2)), (3, 1), (16, [0x064, 0x6FC, 0x084, 0x058].getD j.1 0)]
  | .fp _ => pack [(3, 1), (16, 0x06C)]
  | .pool _ => pack [(3, 1), (16, 0x050)]
  | .doorbell | .msix | .unmapped => 0

/-- LOCK of the page in this view (R249): set by arming alone. -/
def State.pageLocked (s : State) (m : Mgr) : Area → Bool
  | .global k => k = 0xC && (s.mwd.get m).armed
  | .chan n j => j = 2 && (s.wd n).armed
  | .fp _ | .pool _ | .doorbell | .msix | .unmapped => false

/-- PAGE_STAT.OUT: the core or the pool channel that the page describes is out of service. -/
def State.pageOut (s : State) : Area → Bool
  | .global k => 0x10 ≤ k && match fin? 4 (k - 0x10) with | some c => !(s.core c).inService | none => false
  | .pool k => (vget s.pool.chans k).state = 3
  | .chan _ _ | .fp _ | .doorbell | .msix | .unmapped => false

/-- Low 16 bits of the page's epoch. -/
def State.pageEpoch (s : State) : Area → Nat
  | .chan n j => if j = 1 then (s.st n).epoch.toNat % 2 ^ 16 else 0
  | .global _ | .fp _ | .pool _ | .doorbell | .msix | .unmapped => 0

/-- The header of the page at a BAR0 offset in a view. -/
def State.hdrAt (s : State) (m : Mgr) (off : Nat) : Hdr :=
  match fin? 1024 (off / 4096) with | some p => (vget s.hdrs p).get m | none => Hdr.reset

/-- A header register. -/
def State.headerReg (s : State) (m : Mgr) (a : Area) (h : Hdr) (o : Nat) : Nat :=
  match o with
  | 0x000 => pageId a
  | 0x004 => pageCap a
  | 0x008 => bval h.view
  | 0x00C => pack [(0, bval (h.result = 1)), (1, bval (s.pageLocked m a)), (2, bval (s.pageOut a)), (3, bval h.err)]
  | 0x010 => h.irqRaw.toNat
  | 0x014 => h.irqEn.toNat
  | 0x018 => h.irqStat.toNat
  | 0x020 => pack [(4, h.result.toNat), (8, s.pageEpoch a)]
  | 0x024 => h.shdErr.toNat
  | 0x028 => bval (s.pageLocked m a)
  | 0x02C => pack [(0, bval h.ignored), (1, bval h.size), (16, h.errOffset.toNat)]
  | _ => 0

/-! ## GLB, PWR, CLK, LED, EVT, PCI, I3C (chapter "Register pages") -/

/-- A page's IRQ_STAT is not zero in a view. -/
def State.pageIrq (s : State) (m : Mgr) (page : Nat) : Bool :=
  match fin? 1024 page with | some p => ((vget s.hdrs p).get m).irqStat ≠ 0 | none => false

/-- A page of channel i has IRQ_STAT not zero. -/
def State.chanIrq (s : State) (m : Mgr) (i : Nat) : Bool := i < 128 && (List.range 4).any fun j => s.pageIrq m (0x100 + 4 * i + j)

/-- GLB_IRQ_SUM. -/
def State.irqSum (s : State) (m : Mgr) : Nat :=
  pack (((List.range 22).map fun b => (b + 1, bval ((List.range 26).any fun k => blockOf k = b + 1 && s.pageIrq m k))) ++
    [(24, bval ((List.range 128).any (s.chanIrq m))), (25, bval ((List.range 64).any fun f => s.pageIrq m (0x300 + f))),
     (26, bval ((List.range 16).any fun k => s.pageIrq m (0x340 + k)))])

def State.glbReg (s : State) (m : Mgr) (o : Nat) : Nat :=
  match o with
  | 0x040 => pack [(0, s.dev.state.code), (4, bval s.dev.zeroised), (5, bval s.dev.configDefaulted), (6, bval s.fallback),
      (7, bval s.devfw.onProof)]
  | 0x044 => pack [(0, s.part.hosts), (8, s.part.fps), (16, s.part.pools), (21, if s.part.pcie1 then 2 else 1), (23, bval s.part.pq),
      (24, bval s.part.debug)]
  | 0x058 => ((s.fwTable.get s.devfw.running).svn).toNat
  | 0x05C => pack [(0, bval (s.devfw.running = .b)), (1, bval s.devfw.onProof),
      (16, match s.devfw.deadline with | some d => min 60000 ((d - s.now) / msec) | none => 0)]
  | 0x060 => pack [(0, s.dev.resetCause.toNat), (16, s.dev.warm.toNat)]
  | 0x064 => pack [(0, (s.view m).irqVector.toNat), (31, bval (s.view m).irqEn)]
  | 0x068 => s.irqSum m
  | _ => match regIndex o 0x048 4 4, regIndex o 0x06C 4 4 with
    | some w, _ => (s.otp.shadowAt (1 + w)).toNat
    | none, some w => bitWord 32 fun i => s.chanIrq m (32 * w + i)
    | none, none => 0

/-- The rail that PWR_SEL or CAL_SEL shows. -/
def selRail (sel : Byte) : Option (Fin 21) := fin? 21 sel.toNat

def State.pwrReg (s : State) (o : Nat) : Nat :=
  match o, selRail s.power.sel with
  | 0x040, _ => pack [(0, bval s.power.inhibit), (1, bval s.power.pwrWarn), (2, bval s.power.sysPgood)]
  | 0x044, _ => s.power.warn.toNat
  | 0x048, _ => s.power.seen.toNat
  | 0x04C, _ => s.power.sel.toNat
  | 0x050, some r => (Config.railMv (s.now / 10000) r.1).toNat
  | 0x054, some r => pack [(0, s.warnMv r.1), (16, s.brownMv r.1)]
  | 0x058, _ => s.power.warns.toNat
  | _, _ => 0

def State.clkReg (s : State) (o : Nat) : Nat :=
  match o with
  | 0x040 => pack [(0, bval s.clk.refclk), (1, bval s.clk.fabric), (2, bval s.clk.mem), (3, bval s.clk.pool), (4, bval s.clk.pcie.a),
      (5, bval s.clk.pcie.b), (6, bval s.clk.lpoTrimmed)]
  | 0x044 => loWord s.now
  | 0x048 => hiWord s.now
  | 0x04C => (Config.lpoPpm s.now).toNat
  | _ => 0

/-- Commits that wait on the inhibit: the queued ones, and the selections and armings whose commit is all they await (R253,
R300; entry 257 says so). A commit is made within the step that makes it, so none is ever in progress between steps. -/
def State.commitsWaiting (s : State) : Nat :=
  s.led.waiting.length + if s.inhibited then
    (List.finRange 128).countP fun n => match (s.ch n).sel with | some w => w.entry = 257 | none => false
  else 0

def State.ledReg (s : State) (o : Nat) : Nat :=
  match o with
  | 0x040 => pack [(0, bval s.led.ready), (2, bval s.inhibited), (8, capped s.commitsWaiting 8)]
  | 0x044 => s.led.commits.toNat
  | 0x048 => pack [(0, s.led.checkFail.toNat), (16, s.led.conflict.toNat)]
  | _ => 0

/-- Slots wait on a full or absent event CQ. -/
def Ring.eventsWait (r : Ring) : Bool :=
  !r.slots.isEmpty && match r.evtCq with
    | some q => (match SMap.get? r.cqs q.toNat with | some c => c.free = 0 | none => true)
    | none => true

def Ring.evtReg (r : Ring) (o : Nat) : Nat :=
  match o with
  | 0x040 => r.evtLost.toNat
  | 0x044 => pack [(0, r.slots.length), (7, bval r.evtCq.isSome), (8, match r.evtCq with | some q => q.toNat | none => 0),
      (16, bval r.eventsWait), (24, r.mask.toNat)]
  | _ => 0

/-- Larmany's identifiers, which the spec does not print. -/
def State.pciReg (s : State) (m : Mgr) (o : Nat) : Nat :=
  let v := s.view m
  match o with
  | 0x040 => pack [(0, Config.pciVendor.toNat), (16, Config.pciDevice.toNat)]
  | 0x044 => pack [(0, v.linkSpeed.toNat), (4, v.linkWidth.toNat), (8, bval v.linkUp), (16, v.retrains.toNat)]
  | 0x048 => pack [(0, v.dmaErr.toNat), (16, v.dmaKind.toNat)]
  | 0x04C => loWord v.dmaAddr.toNat
  | 0x050 => hiWord v.dmaAddr.toNat
  | 0x054 => pack [(0, v.unmapped.toNat), (16, v.sizeErr.toNat)]
  | 0x058 => pack [(0, v.eid.toNat), (8, bval v.eidValid), (16, v.msgs.toNat)]
  | _ => 0

/-- A secured session is open on an endpoint. -/
def Endpoint.secure (x : Endpoint) : Bool := x.sessions.any fun t => t.established

def State.i3cReg (s : State) (o : Nat) : Nat :=
  if o = 0x080 then Config.i3cPid.toNat
  else match fin? 4 ((o - 0x040) / 16), fin? 8 (4 + (o - 0x040) / 16) with
    | some p, some e =>
      let x := vget s.i3c p
      if o < 0x040 then 0
      else match o % 16 with
        | 0 => pack [(0, x.dynAddr.toNat), (7, bval x.daValid), (8, x.staticAddr.toNat), (15, bval x.saEn), (16, bval x.ibiEn),
            (17, bval (s.ep e).secure), (24, 0x06)]
        | 4 => pack [(0, x.rx.toNat), (16, x.dropped.toNat)]
        | 8 => pack [(0, x.protocol.toNat), (16, x.refused.toNat)]
        | _ => 0
    | _, _ => 0

/-! ## CAL, OTP, LCS (chapter "OTP, lifecycle and calibration") -/

/-- FACTORY's restrictive defaults are in use (R282). -/
def State.factoryDefaults (s : State) : Bool := !(s.otp.region? 1).ok && s.otp.lifecycle ≠ 0

def State.calReg (s : State) (o : Nat) : Nat :=
  let tamp := (s.otp.shadowAt (otpBase 1 + 1)).toNat
  match o, selRail s.power.calSel with
  | 0x040, _ => s.power.calSel.toNat
  | 0x044, some r => pack [(0, s.factoryWarn r.1), (16, s.factoryBrown r.1)]
  | 0x048, some r => let p := s.dcfg.rails.getD r.1 (0, 0); pack [(0, p.1), (8, p.2)]
  | 0x04C, _ => pack [(0, field tamp 7 0), (8, field tamp 15 8), (16, s.dcfg.tampLow), (24, s.dcfg.tampHigh)]
  | 0x050, _ => bitWord 21 s.railClamped + pack [(21, bval s.tampClamped), (22, bval s.factoryDefaults), (23, bval s.otp.lpoUnusable)]
  | _, _ => 0

def State.otpReg (s : State) (o : Nat) : Nat :=
  let x := s.otp
  match o with
  | 0x040 => pack [(0, x.state.toNat), (3, bval x.vppOk), (4, bval x.pumpReady), (5, bval s.inhibited), (8, x.region.toNat)]
  | 0x044 => pack ((List.range 6).map fun r => (3 * r, (x.region? r).code))
  | 0x048 => pack [(0, x.marg.toNat), (16, x.repulses.toNat)]
  | 0x04C => pack [(0, x.pulses.toNat), (16, x.failed.toNat)]
  | 0x050 => bval x.pumpOnly
  | 0x054 => pack [(0, x.lastStatus.toNat), (16, x.lastRegion.toNat)]
  | _ => 0

/-- LIFECYCLE words as seen: the OR of both margins. -/
def Otp.lcWord (o : Otp) : Nat := (o.n (otpBase 5) ||| o.s (otpBase 5)).toNat

/-- The copies of LIFECYCLE disagree with one another, or between the margins. -/
def Otp.lcSplit (o : Otp) : Bool :=
  let w := o.lcWord
  !(field w 2 0 = field w 6 4 && field w 2 0 = field w 10 8) || o.n (otpBase 5) &&& 0x777 ≠ o.s (otpBase 5) &&& 0x777

def State.lcsReg (s : State) (o : Nat) : Nat :=
  let x := s.otp
  match o with
  | 0x040 => pack [(0, x.lifecycle), (2, bval s.debugOn), (3, bval (s.debugOn || x.lifecycle = 0)), (4, bval s.unowned), (5, bval x.lcSplit)]
  | 0x044 => pack [(0, field x.lcWord 2 0), (4, field x.lcWord 6 4), (8, field x.lcWord 10 8)]
  | 0x048 => pack [(0, x.fwRevoked), (4, x.ownRevoked), (8, bitWord 4 x.fwUsable), (12, bitWord 4 x.ownUsable)]
  | 0x04C => x.fwKey.toNat
  | _ => 0

/-! ## KEY, TMP (chapter "Key store, key updates and tamper") -/

/-- The vault copy in use is zeroised (R260). -/
def State.vaultZeroised (s : State) : Bool := match s.keys.vault.cur with | some v => v.salt.isNone | none => false

def State.keyReg (s : State) (o : Nat) : Nat :=
  let used := ((List.finRange 256).filter fun k => ownerSlot k.1 && (s.slot k).type ≠ 0).length
  let d := match fin? 256 s.keys.sel.toNat with | some k => s.slotView k | none => KeySlot.empty
  match o with
  | 0x040 => pack [(0, bval s.keys.vault.cur.isSome), (1, bval s.vaultZeroised), (2, bval s.tamper.lock), (4, bval s.keys.transport),
      (8, used)]
  | 0x044 => loWord s.vaultCounter
  | 0x048 => hiWord s.vaultCounter
  | 0x04C => s.keys.sel.toNat
  | 0x050 => pack [(0, d.type.toNat), (8, bval d.material.isSome), (9, bval d.persist), (10, d.access.toNat),
      (13, slotClass s.keys.sel.toNat), (16, d.usage.toNat)]
  | 0x054 => pack [(0, match d.material with | some b => b.length | none => 0), (12, d.origin.toNat), (16, d.uses.toNat)]
  | 0x058 => pack [(0, s.keys.accepted.toNat), (16, s.keys.refused.toNat)]
  | 0x05C => s.keys.lastStatus.toNat
  | _ => 0

/-- The highest level now acting: of the sources that are active. -/
def State.maxLevel (s : State) : Nat :=
  ((List.range 10).filter fun i => s.tamper.active.getLsbD i).foldl (fun a i => max a (s.tamperLevel i)) 0

def State.tmpReg (s : State) (o : Nat) : Nat :=
  let t := s.tamper
  match o with
  | 0x040 => pack [(0, t.active.toNat), (16, t.latched.toNat), (26, s.maxLevel), (28, bval t.lock)]
  | 0x044 => pack ((List.range 10).map fun i => (2 * i, s.tamperLevel i))
  | 0x048 => pack (((List.finRange 4).map fun i => (3 * i.1, (vget t.loopKind i).toNat)) ++ [(16, s.loopN - 1)])
  | 0x04C => pack [(0, (Config.dieTemp s.now).toNat), (8, s.tampLow), (16, s.tampHigh)]
  | 0x050 => pack [(0, t.trips.toNat), (16, t.burnishes.toNat)]
  | 0x054 => t.last.toNat
  | 0x058 => loWord t.btime.toNat
  | 0x05C => hiWord t.btime.toNat
  | _ => 0

/-! ## RNG (chapter "Ovdel rings and command set") -/

def State.rngReg (s : State) (m : Mgr) (o : Nat) : Nat :=
  let r := s.ring m
  match o with
  | 0x040 => bval r.en
  | 0x044 => pack [(0, bval r.rdy), (1, bval r.fatal), (8, (r.sqs.filter fun e => e.1 ≠ 0).length), (16, r.version.toNat % 256),
      (20, r.version.toNat / 256)]
  | 0x048 => pack [(0, r.asqDepth.toNat), (16, r.acqDepth.toNat)]
  | 0x04C => loWord r.asq.toNat
  | 0x050 => hiWord r.asq.toNat
  | 0x054 => loWord r.acq.toNat
  | 0x058 => hiWord r.acq.toNat
  | 0x05C => pack [(0, r.inFlight), (16, s.deviceInFlight)]
  | 0x060 => pack [(0, r.dbIgnored.toNat), (8, r.badEntry.toNat), (16, r.dmaErr.toNat)]
  | 0x064 => pack [(0, r.errQid.toNat), (8, bval r.errSq), (9, r.errReason.toNat)]
  | _ => 0

/-- Page RNG index 1 for a submission queue. -/
def State.sqReg (s : State) (m : Mgr) (q : Sq) (o : Nat) : Nat :=
  match o with
  | 0x044 => pack [(0, q.depth), (13, 1), (14, q.cls.toNat), (18, bval q.fault)]
  | 0x048 => q.cq.toNat
  | 0x04C => pack [(0, q.head), (13, bval q.phase), (14, bval q.retracted), (16, q.cons)]
  | 0x050 => pack [(0, (q.flight.filter fun f => !f.done).length), (16, q.prefetch),
      (21, bval (match SMap.get? (s.ring m).cqs q.cq.toNat with | some c => c.free = 0 | none => false)), (22, bval q.promoted),
      (23, bval (q.waiting ≠ 0 && 3072 ≤ (s.ring m).inFlight))]
  | 0x054 => if q.waiting = 0 then 0 else capped ((s.now - q.waitFrom) / usec) 16
  | _ => 0

/-- Page RNG index 1 for a completion queue. -/
def Cq.reg (c : Cq) (o : Nat) : Nat :=
  match o with
  | 0x044 => pack [(0, c.depth), (13, 1), (16, bval c.event), (17, bval c.ien), (18, bval c.fault)]
  | 0x048 => c.vector <<< 16
  | 0x04C => pack [(0, c.head), (13, bval c.phase), (16, c.tail)]
  | 0x050 => c.reserved
  | _ => 0

def State.qselReg (s : State) (m : Mgr) (o : Nat) : Nat :=
  let r := s.ring m
  if o = 0x040 then pack [(0, r.qselQid.toNat), (8, bval r.qselCq)]
  else if r.qselCq then (match SMap.get? r.cqs r.qselQid.toNat with | some c => c.reg o | none => 0)
  else match SMap.get? r.sqs r.qselQid.toNat with | some q => s.sqReg m q o | none => 0

/-! ## MWD (chapter "Challenge watchdogs") -/

/-- STATE: 0 OFF, 1 COUNTING, 2 LOST. -/
def Mwd.state (w : Mwd) : Nat := if !w.armed then 0 else if w.lost then 2 else 1

def State.mwdReg (s : State) (m : Mgr) (o : Nat) : Nat :=
  let w := s.mwd.get m
  let x := s.mwd.get m.other
  match o with
  | 0x040 => pack [(0, bval w.armed), (1, bval w.keyed), (2, w.prescale.toNat), (6, bval w.auto)]
  | 0x044 => pack [(0, w.open_.toNat), (16, w.close_.toNat)]
  | 0x048 => pack [(0, w.state), (2, w.last.toNat), (5, bval (w.keyed && (s.mwdKey m).isNone)),
      (8, if w.armed then capped (s.mwdCount m) 17 else 0)]
  | 0x04C => loWord w.chal.toNat
  | 0x050 => hiWord w.chal.toNat
  | 0x054 => loWord w.seq.toNat
  | 0x058 => hiWord w.seq.toNat
  | 0x064 => pack [(0, x.state), (2, bval s.fallback), (3, bval (s.dcfg.primary ≠ 0)), (4, bval (s.primary = some m))]
  | 0x068 => pack [(0, w.lostCnt.toNat), (16, x.lostCnt.toNat)]
  | 0x080 => pack [(0, s.intw.src.toNat), (3, s.intw.step.toNat), (6, s.intw.consec.toNat), (16, s.intw.total.toNat)]
  | 0x084 => pack [(0, s.dcfg.tries), (3, bval (s.otp.lifecycle = 1 && s.part.debug)), (16, s.dcfg.cleanS)]
  | 0x08C => loWord s.intw.ltime.toNat
  | 0x090 => hiWord s.intw.ltime.toNat
  | 0x094 => s.dcfg.stbyS
  | _ => 0

/-! ## TWL and CHn_CTL (chapter "Holding, releasing and switching hosts") -/

/-- Releases that wait on the limiter (R135). -/
def State.limited (s : State) : Nat :=
  if s.limiterFull then (s.plat.queue.filter fun n => match fin? 128 n with | some n => !s.gated n | none => false).length else 0

def State.twlReg (s : State) (m : Mgr) (o : Nat) : Nat :=
  match o with
  | 0x040 => pack [(0, bitWord 16 fun t => match fin? 16 t with | some t => s.lineOn t | none => false),
      (16, bitWord 16 fun t => !s.lineIdle t)]
  | 0x044 => pack [(0, (s.plat.force.get m).toNat), (16, (s.plat.force.get m.other).toNat)]
  | 0x04C => pack [(0, bval s.dcfg.failMode), (1, bval s.plat.failOn), (2, s.dcfg.failPulseMs)]
  | 0x050 => pack [(0, s.dcfg.spacingMs), (8, s.dcfg.relWaitS), (16, bval s.plat.ranksActive), (24, s.limited)]
  | 0x054 => pack [(0, s.plat.pulses.toNat), (16, s.plat.merged.toNat)]
  | _ => match regIndex o 0x080 4 16 with | some t => s.twl.getD t 0 | none => 0

def State.ctlReg (s : State) (m : Mgr) (n : Fin 128) (o : Nat) : Nat :=
  let c := s.ch n
  let r := c.ordRes.get m
  match o with
  | 0x040 => s.ctlState n
  | 0x044 => (s.profOf n).ctlCfg
  | 0x048 => pack [(0, (s.profOf n).pgSettle), (8, (s.profOf n).pgTmo)]
  | 0x04C => loWord c.relT
  | 0x050 => hiWord c.relT
  | 0x054 => loWord c.holdT
  | 0x058 => hiWord c.holdT
  | 0x05C => pack [(0, c.releases.toNat), (16, c.holds.toNat)]
  | 0x064 => pack [(0, r.status.toNat), (15, bval r.done), (16, r.order.toNat)]
  | _ => 0

/-! ## ATT (chapter "Tracing, measurement and identity") -/

/-- A bit per endpoint. -/
def State.epWord (s : State) (p : Endpoint → Bool) : Nat := bitWord 8 fun i => match fin? 8 i with | some e => p (s.ep e) | none => false

def State.attReg (s : State) (m : Mgr) (o : Nat) : Nat :=
  let v := s.att.views.get m
  let mark := (s.trace.mark.get m).toNat
  match o with
  | 0x040 => pack [(0, bval s.att.idValid), (1, bval s.att.keysReady), (2, bval s.part.pq), (4, bval s.inhibited),
      (8, s.sessionCount), (16, s.trace.queue.length)]
  | 0x044 => s.traceHdr.epoch.toNat
  | 0x048 => s.dev.startCount.toNat
  | 0x04C => loWord s.traceNewest
  | 0x050 => hiWord s.traceNewest
  | 0x054 => loWord s.traceHdr.oldest
  | 0x058 => hiWord s.traceHdr.oldest
  | 0x05C => loWord mark
  | 0x060 => hiWord mark
  | 0x064 => pack [(0, s.trace.gaps.toNat), (16, s.trace.unreadLost.toNat)]
  | 0x068 => loWord s.att.wall.toNat
  | 0x06C => hiWord s.att.wall.toNat
  | 0x070 => pack [(0, s.att.quotes.toNat), (16, s.att.spdmSigns.toNat)]
  | 0x074 => pack [(0, s.epWord fun x => x.algs), (8, s.epWord Endpoint.secure), (16, s.epWord fun x => x.versioned && x.version = 13)]
  | 0x0F4 => v.extRelt.toNat
  | 0x0F8 => pack [(0, v.extStatus.toNat), (15, bval v.extDone)]
  | _ => match regIndex o 0x080 4 12, regIndex o 0x0C0 4 12 with
    | some w, _ => wordOf s.traceHdr.run.toList w
    | none, some w => (match fin? 12 w with | some w => (vget v.extData w).toNat | none => 0)
    | none, none => 0

/-! ## DRB, BURk, HSH (chapters "Burin" and "Impressions") -/

def State.drbReg (s : State) (o : Nat) : Nat :=
  let d := s.drbg
  match o with
  | 0x040 => pack [(0, d.keyState.toNat), (2, d.genState.toNat), (4, bval d.rctFail), (5, bval d.aptFail), (6, bval d.startupFail)]
  | 0x044 => pack [(0, d.reseeds.toNat), (16, d.healthFails.toNat)]
  | 0x048 => s.dcfg.reseedMs
  | _ => 0

/-- OWNER code and QID. -/
def Owner.word : Owner → Nat
  | .none => 0
  | .internal => 1
  | .queue m q => pack [(0, 2 + mgrNum m), (2, q.toNat)]

def State.burReg (s : State) (k : Fin 4) (o : Nat) : Nat :=
  let c := s.core k
  match o with
  | 0x040 => match c.job with
    | some j => pack [(0, if s.now < j.since then 2 else c.state.toNat), (3, j.class), (5, c.susp.length), (8, j.op.toNat), (16, j.pset.toNat)]
    | none => pack [(0, if c.state = 0 && s.now < c.wipeEnd then 2 else c.state.toNat), (5, c.susp.length)]
  | 0x044 => (match c.job with | some j => j.owner | none => c.lastOwner).word
  | 0x048 => c.lastCycles.toNat
  | 0x04C => pack [(0, c.jobs.toNat), (16, c.yields.toNat)]
  | 0x050 => pack [(0, c.faults.toNat), (8, c.aborts.toNat), (16, c.wipes.toNat)]
  | 0x058 => pack [(0, s.dcfg.faultN), (4, s.dcfg.faultS), (16, capped s.recentFaults.length 4)]
  | _ => 0

/-- Patrol has leaves to check (R94). -/
def State.patrolling (s : State) : Bool :=
  !s.imm.pause && s.imm.dir.toList.any fun e => (e.state = .resident || e.state = .damaged) && e.leaves ≠ 0

/-- Lanes that serve verification, HASH_OP and patrol (R22): both floors while takes are in progress, else the lanes that jobs ask for, and
for patrol one lane that neither class claims. DESIGN CHOICE (log entry 90): HASH_OP takes no more than its floor during a take. -/
def State.laneShares (s : State) : Nat × Nat × Nat :=
  let lanes := popCount s.farm.lanes
  let jobs := s.hash.a.jobs.length + s.hash.b.jobs.length
  let taking := s.imm.dir.toList.any fun e => e.state = .taking
  let ops := min (min jobs lanes) (if taking then 2 else lanes)
  (if taking then lanes - ops else 0, ops, bval (!taking && ops < lanes && s.patrolling))

/-- HASH_OP jobs of a manager that are on lanes; the others wait (R196). DESIGN CHOICE (log entry 90): of the share the two managers' jobs
get half each, manager A the odd lane, and what one leaves the other. -/
def State.hashRunning (s : State) (m : Mgr) : Nat :=
  let k := s.laneShares.2.1
  let a := s.hash.a.jobs.length
  let b := s.hash.b.jobs.length
  let onA := min a (max (k - b) ((k + 1) / 2))
  match m with
  | .a => onA
  | .b => min b (k - onA)

def State.hshReg (s : State) (m : Mgr) (o : Nat) : Nat :=
  let h := s.hash.get m
  match o with
  | 0x040 => loWord s.farm.lanes.toNat
  | 0x044 => hiWord s.farm.lanes.toNat
  | 0x048 => pack [(0, s.laneShares.1), (8, s.laneShares.2.1), (16, s.laneShares.2.2)]
  | 0x04C => pack [(0, s.farm.intervalS.toNat), (8, s.farm.lastFailed.toNat), (16, s.farm.fails.toNat)]
  | 0x050 => pack [(0, s.farm.aesIn.toNat), (16, s.farm.aesBound.toNat)]
  | 0x060 => bitWord 16 fun i => (SMap.get? h.ctxs i).isSome
  | 0x064 => pack [(0, capped (h.jobs.length - s.hashRunning m) 8), (8, capped (s.hashRunning m) 8), (16, h.done.toNat)]
  | 0x068 => loWord h.bytes.toNat
  | 0x06C => hiWord h.bytes.toNat
  | _ => 0

/-! ## IMM, FCA, POL, POLk (chapter "Impressions, image memory and the pool") -/

/-- Codes of IMM_DIR_INFO.STATE. -/
def DirState.code : DirState → Nat
  | .free => 0 | .taking => 1 | .resident => 2 | .damaged => 3 | .relocating => 4

/-- Directory entries in some state. -/
def State.dirCount (s : State) (p : DirState → Bool) : Nat := (s.imm.dir.toList.filter fun e => p e.state).length

def State.dirReg (s : State) (i : Fin 256) (o : Nat) : Nat :=
  let e := s.dirE i
  let pool : Bool := match e.source with | .pool => e.state ≠ .free | .flash _ _ => false
  match o with
  | 0x064 => pack [(0, e.state.code), (3, bval e.enc), (4, bval pool), (8, s.refs i), (16, e.patmis.toNat)]
  | 0x068 => e.leaves.toNat
  | _ => match regIndex o 0x080 4 12, regIndex o 0x0B0 4 4 with
    | some w, _ => wordOf e.root w
    | none, some w => wordOf e.family w
    | none, none => 0

def State.immReg (s : State) (o : Nat) : Nat :=
  let x := s.imm
  match o with
  | 0x040 => pack [(0, x.chIn.toNat), (8, bval (popCount x.chIn = 7)), (9, bval x.keyValid), (10, bval x.relocating),
      (16, s.dirCount fun d => d = .resident || d = .damaged), (25, capped (s.dirCount fun d => d = .taking) 7)]
  | 0x044 => pack [(0, s.freeExtents), (16, s.extentsHeld s.idle)]
  | 0x048 => pack [(0, (s.prof.toList.map fun p => p.keepBlk).sum), (16, (s.prof.toList.map fun p => p.scrBlk).sum)]
  | 0x04C => pack [(0, x.periodH.toNat), (8, bval x.pause), (16, x.passes.toNat)]
  | 0x050 => x.patPos.toNat
  | 0x054 => pack [(0, x.tagFail.toNat), (16, x.patrolMismatch.toNat)]
  | 0x058 => pack [(0, x.repaired.toNat), (8, x.transient.toNat), (16, x.lostLine.toNat)]
  | 0x05C => pack [(0, x.tfLimit.toNat), (16, bval x.tfAction)]
  | 0x060 => x.dirSel.toNat
  | _ => match fin? 256 x.dirSel.toNat with | some i => s.dirReg i o | none => 0

def State.fcaReg (s : State) (o : Nat) : Nat :=
  let f := s.fca
  match o with
  | 0x040 => pack [(0, s.pinBanks), (6, 32 - s.pinBanks), (16, s.pinUnits.length)]
  | 0x044 => f.hit.toNat
  | 0x048 => f.miss.toNat
  | 0x04C => pack [(0, f.tfailPinned.toNat), (16, f.tfailCached.toNat)]
  | _ => 0

/-- POL_STAT.STATE: a mounted pool is DEGRADED while an enabled channel is out, FAILED with fewer than three in service. -/
def State.poolState (s : State) : Nat :=
  if s.pool.mounted.toNat < 2 then s.pool.mounted.toNat
  else if s.poolFailed then 4
  else if (List.finRange 16).any fun k => s.poolOn k && (vget s.pool.chans k).state ≠ 2 then 3 else 2

def State.polReg (s : State) (o : Nat) : Nat :=
  let p := s.pool
  match o with
  | 0x040 => pack [(0, s.poolState), (3, bval s.inhibited), (8, s.writeChans.length),
      (16, bitWord 16 fun k => match fin? 16 k with | some k => (vget p.chans k).state = 2 | none => false)]
  | 0x044 => p.capMib.toNat
  | 0x048 => p.freeMib.toNat
  | 0x04C => pack [(0, p.eccDays.toNat), (8, p.auditDays.toNat), (16, p.refreshed.toNat)]
  | 0x050 => pack [(0, (s.areas.toList.map fun a => a.dirty.length).sum), (16, bval s.inhibited)]
  | _ => 0

def PoolChan.reg (c : PoolChan) (o : Nat) : Nat :=
  match o with
  | 0x040 => pack [(0, c.state.toNat), (4, c.targets.toNat), (8, c.mode.toNat), (16, c.mts.toNat)]
  | 0x044 => pack [(0, c.factory.toNat), (16, c.grown.toNat)]
  | 0x048 => pack [(0, c.corrected.toNat), (16, c.rebuilt.toNat)]
  | 0x04C => pack [(0, c.maxPe.toNat), (16, c.sparePct)]
  | _ => 0

/-! ## CHn_STN, CHn_WDG, CHn_MBX, FPn -/

/-- CHn_STN: an RWS register shows the active copy or this view's shadow, as PAGE_CTRL.VIEW selects (R245). -/
def State.stnReg (s : State) (m : Mgr) (n : Fin 128) (shadow : Bool) (o : Nat) : Nat :=
  let t := s.st n
  let tbl := if shadow then (t.shadow.get m).tbl else t.tbl
  let pol := s.polOf n
  match o with
  | 0x040 => s.stnStat n
  | 0x044 => t.epoch.toNat
  | 0x048 => pack [(0, t.phase.code), (2, bval t.tmoHit), (12, (t.reqResult.get m).toNat)]
  | 0x04C => pack [(0, tbl.bootTmo.toNat), (16, pol.hostUpd.toNat), (19, bval pol.recEntry)]
  | 0x050 => t.polver.toNat
  | 0x054 => pack [(0, t.deniedRead.toNat), (16, t.protectedCnt.toNat)]
  | 0x058 => pack [(0, t.ruleDeny.toNat), (16, t.bucketCnt.toNat)]
  | 0x05C => pack [(0, t.supplyCnt.toNat), (16, t.passOther.toNat)]
  | 0x064 => t.lastDeny.toNat
  | 0x068 => t.lastAddr.toNat
  | 0x06C => s.polMin.toNat
  | _ => match sregOf o with | some g => (tbl.get g).toNat | none => 0

def State.wdgReg (s : State) (n : Fin 128) (o : Nat) : Nat :=
  let w := s.wd n
  match o with
  | 0x040 => w.cfgWord
  | 0x044 => w.winWord
  | 0x048 => (s.polOf n).wdg.actWord
  | 0x04C => (s.polOf n).wdg.extWord
  | 0x050 => s.wdgStat n
  | 0x054 => capped (s.wdgCount n) 17
  | 0x058 => capped w.closeEff 17
  | 0x05C => loWord w.chal.toNat
  | 0x060 => hiWord w.chal.toNat
  | 0x064 => loWord w.seq.toNat
  | 0x068 => hiWord w.seq.toNat
  | 0x06C => pack [(0, w.vEarly.toNat), (16, w.vBad.toNat)]
  | 0x070 => pack [(0, w.xGranted.toNat), (16, w.xRefused.toNat)]
  | 0x074 => w.shown.total.toNat
  | 0x078 => pack [(0, w.shown.consec.toNat), (8, w.shown.cause.toNat), (16, w.shown.startNum.toNat)]
  | 0x07C => loWord w.shown.time.toNat
  | 0x080 => hiWord w.shown.time.toNat
  | _ => 0

def State.mbxReg (s : State) (n : Fin 128) (o : Nat) : Nat :=
  let b := s.mb n
  let p := s.port n
  match o with
  | 0x040 => pack [(0, b.rev.toNat), (2, p.crIo.toNat), (4, bval p.four), (5, bval b.cdiTaken), (6, bval b.bootDone), (7, bval p.dpd),
      (8, s.effDummy n), (16, s.advDummy n p.crIo.toNat)]
  | 0x044 => pack [(0, p.period.toNat), (16, bval p.ddr)]
  | 0x048 => pack [(0, p.shortDummy.toNat), (8, p.undecoded.toNat), (16, p.ignored.toNat), (24, p.boundary.toNat)]
  | 0x050 => b.h2mSeq.toNat
  | 0x054 => b.m2hSeq.toNat
  | 0x058 => b.h2mAck.toNat
  | 0x05C => b.m2hAck.toNat
  | _ => 0

def State.fpReg (s : State) (f : Fin 64) (o : Nat) : Nat :=
  let x := s.fp f
  let loc : Bool := match fin? 128 f.1 with | some n => (s.profOf n).isLocal | none => false
  match o with
  | 0x040 => x.statWord
  | 0x044 => pack [(0, x.passProto.toNat), (2, x.devMhz.toNat), (10, bval loc)]
  | 0x048 => pack [(0, x.densLog2.toNat), (8, x.passDummy.toNat), (16, x.maxMhz.toNat), (24, x.pageLog2.toNat), (28, bval x.xspi)]
  | 0x04C => pack [(0, x.progUs.toNat), (16, x.erase4Ms.toNat)]
  | 0x050 => x.erase64Ms.toNat
  | 0x068 => pack [(0, x.wipTimeouts.toNat), (8, x.localFails.toNat), (16, x.discFails.toNat)]
  | _ => match regIndex o 0x054 4 5 with | some w => wordOf x.id w | none => 0

/-! ## Doorbells and MSI-X (R251, R252) -/

def Ring.doorbellReg (r : Ring) (o : Nat) : Nat :=
  if 0x800 ≤ o then 0
  else if o % 8 = 0 then (match SMap.get? r.sqs (o / 8) with | some q => q.tail | none => 0)
  else match SMap.get? r.cqs (o / 8) with | some c => c.head | none => 0

/-- The MSI-X table and the pending-bit array at an offset from 0x41_0000. -/
def View.msixReg (v : View) (o : Nat) : Nat :=
  let e := fun k => (SMap.get? v.msix k).getD MsixEntry.fresh
  if o < 0x2000 then match o % 16 with
    | 0 => loWord (e (o / 16)).addr.toNat
    | 4 => hiWord (e (o / 16)).addr.toNat
    | 8 => (e (o / 16)).data.toNat
    | _ => bval (e (o / 16)).masked
  else bitWord 32 fun i => (e (8 * (o - 0x2000) + i)).pend

/-! ## The whole map -/

/-- The live value of the register at a BAR0 offset, in a view. -/
def State.liveReg (s : State) (m : Mgr) (off : Nat) : Nat :=
  let o := off % 4096
  let h := s.hdrAt m off
  let a := areaAt off
  match a with
  | .doorbell => (s.ring m).doorbellReg o
  | .msix => (s.view m).msixReg (off - 0x410000)
  | .unmapped => 0
  | .chan n j =>
    if o < 0x040 then s.headerReg m a h o
    else if j = 0 then s.ctlReg m n o
    else if j = 1 then s.stnReg m n h.view o
    else if j = 2 then s.wdgReg n o
    else s.mbxReg n o
  | .fp f => if o < 0x040 then s.headerReg m a h o else s.fpReg f o
  | .pool k => if o < 0x040 then s.headerReg m a h o else (vget s.pool.chans k).reg o
  | .global k =>
    if o < 0x040 then s.headerReg m a h o
    else match k with
      | 0x00 => s.glbReg m o
      | 0x01 => s.pwrReg o
      | 0x02 => s.clkReg o
      | 0x03 => s.calReg o
      | 0x04 => s.otpReg o
      | 0x05 => s.lcsReg o
      | 0x06 => s.keyReg o
      | 0x07 => s.tmpReg o
      | 0x08 => s.ledReg o
      | 0x09 => s.rngReg m o
      | 0x0A => s.qselReg m o
      | 0x0B => (s.ring m).evtReg o
      | 0x0C => s.mwdReg m o
      | 0x0D => s.twlReg m o
      | 0x0E => s.attReg m o
      | 0x0F => s.drbReg o
      | 0x10 => s.burReg 0 o
      | 0x11 => s.burReg 1 o
      | 0x12 => s.burReg 2 o
      | 0x13 => s.burReg 3 o
      | 0x14 => s.hshReg m o
      | 0x15 => s.immReg o
      | 0x16 => s.fcaReg o
      | 0x17 => s.polReg o
      | 0x18 => s.pciReg m o
      | _ => s.i3cReg o

/-- Offsets, within their pages, of the low words of 64-bit values (R242). -/
def lowWords : Area → List Nat
  | .chan _ j => [[0x04C, 0x054], [], [0x05C, 0x064, 0x07C], [0x050, 0x058]].getD j.1 []
  | .global k => match k with
    | 0x02 => [0x044]
    | 0x06 => [0x044]
    | 0x07 => [0x058]
    | 0x09 => [0x04C, 0x054]
    | 0x0C => [0x04C, 0x054, 0x08C]
    | 0x0E => [0x04C, 0x054, 0x05C, 0x068]
    | 0x14 => [0x040, 0x068]
    | 0x18 => [0x04C]
    | _ => []
  | .fp _ | .pool _ | .doorbell | .msix | .unmapped => []

/-- The register at an offset is the low word of a 64-bit value. -/
def isLowWord (off : Nat) : Bool := (lowWords (areaAt off)).contains (off % 4096)

/-- What a read of the register at an offset returns: a high word shows the value latched in the reader's view, or the live one where the
view has not read the low word since its last reset (R242). Nothing that responds reads as zero (R241). -/
def State.regRead (s : State) (m : Mgr) (off : Nat) : Word :=
  if !s.mapped off then 0
  else match 4 ≤ off && isLowWord (off - 4), SMap.get? (s.view m).latch off with
    | true, some v => v
    | _, _ => BitVec.ofNat 32 (s.liveReg m off)

end Sys2Proof.Machine
end

