-- ==== Sys2Proof/Machine/LogOps.lean ====
section
/-! DEFINITION. What IDENTIFY and GET_LOG answer (R229, R231, R234), for a manager or an observer. -/

namespace Sys2Proof.Machine

/-- Who asks: a manager, or an observer port, and the version in force for it. -/
structure Caller where
  mgr : Option Mgr
  version : Nat
  deriving DecidableEq, Repr

/-! ## IDENTIFY (R231) -/

/-- Links enabled by the part number. -/
def State.links (s : State) : Nat := if s.part.pcie1 then 2 else 1

/-- PRIMARY: 0 none, 1 A, 2 B. -/
def State.primaryCode (s : State) : Nat := match s.primary with | some .a => 1 | some .b => 2 | none => 0

/-- "This function": 0 manager A, 1 manager B; the spec gives an observer no value. -/
def Caller.function (c : Caller) : Byte := match c.mgr with | some m => BitVec.ofNat 8 (mgrNum m) | none => Config.observerFunction

/-- The device structure, 4,096 bytes. -/
def State.deviceInfo (s : State) (c : Caller) : List Byte :=
  let fw := s.fwTable.get s.devfw.running
  slice (wordBytes s.otp.shadowAt 1 4 ++ leBytes 2 s.part.hosts ++ leBytes 1 s.part.fps ++ leBytes 1 s.part.pools ++ leBytes 1 s.links ++
    leBytes 1 (pack [(0, bval s.part.pq), (1, bval s.part.debug)]) ++ leBytes 1 s.otp.lifecycle ++ leBytes 1 s.dev.state.code ++
    leBytes 4 fw.svn.toNat ++ leBytes 4 0 ++ leBytes 8 fw.build.toNat ++ leBytes 2 0xF ++ leBytes 2 c.version ++ leBytes 2 255 ++
    leBytes 2 4096 ++ leBytes 2 4096 ++ leBytes 2 3072 ++ leBytes 2 512 ++ leBytes 1 16 ++ [c.function] ++ leBytes 1 s.primaryCode ++
    leBytes 7 0 ++ s.identity.toList ++ leBytes 4 s.polMin.toNat) 0 4096

/-- The channel structure, 256 bytes. -/
def State.channelInfo (s : State) (n : Fin 128) : List Byte :=
  slice (leBytes 4 (s.ctlState n) ++ leBytes 4 (s.profOf n).ctlCfg ++ leBytes 4 (s.stnStat n) ++ leBytes 4 (s.st n).epoch.toNat ++
    leBytes 4 (s.st n).polver.toNat ++ leBytes 4 (s.wdgStat n) ++ leBytes 1 ((s.vfLog2? n).getD 0) ++ leBytes 1 (bval (s.profOf n).isLocal) ++
    leBytes 2 0 ++ leBytes 4 (match portOf n with | some f => (s.fp f).statWord | none => 0) ++ slice (s.polOf n).plate.family 0 16 ++
    slice (s.identOf n).jedec 0 20) 0 256

/-- IDENTIFY. -/
def State.identifyAns (s : State) (c : Caller) (cns : Byte) (ch : Half) (len : Nat) : Answer :=
  match cns.toNat with
  | 0 => if len < 4096 then ans stInvalidField 24 else { okAns with data := some (s.deviceInfo c) }
  | 1 => match s.selChan ch with
    | none => ans stInvalidField 6
    | some n => if len < 256 then ans stInvalidField 24 else { okAns with data := some (s.channelInfo n) }
  | _ => ans stInvalidField 8

/-! ## GET_LOG (R234) -/

/-- A line of the ERROR page. -/
def ErrLine.bytes (e : ErrLine) : List Byte :=
  leBytes 8 e.time ++ leBytes 2 e.sq.toNat ++ leBytes 2 e.cid.toNat ++ leBytes 2 e.opc.toNat ++ leBytes 2 e.status.toNat ++
  leBytes 4 e.info.toNat ++ leBytes 12 0

/-- A certificate after its length. -/
def certBytes (c : List Byte) : List Byte := leBytes 4 c.length ++ c

/-- The IDENTITY page: DeviceID and alias certificates; no ML-DSA-65 ones with post-quantum algorithms disabled. -/
def State.identityLog (s : State) : List Byte :=
  let alias_ : List Byte × List Byte := match s.att.certs with | some c => c.2 | none => ([], [])
  let pq := fun (b : List Byte) => if s.part.pq then b else []
  certBytes Config.deviceCerts.1 ++ certBytes (pq Config.deviceCerts.2) ++ certBytes alias_.1 ++ certBytes (pq alias_.2)

/-- The HOST_MESSAGE page: header and payload of the message posted, nothing if none waits. -/
def State.messageLog (s : State) (n : Fin 128) : List Byte :=
  match (s.mb n).posted with
  | some p => leBytes 4 p.bytes.length ++ leBytes 4 p.seq.toNat ++ leBytes 4 (s.mb n).m2hAck.toNat ++ leBytes 4 0 ++ p.bytes
  | none => []

/-- The UNITS page. -/
def State.unitsLog (s : State) (m : Mgr) : List Byte :=
  [0x014040, 0x014044, 0x014050, 0x015040, 0x017040, 0x010040, 0x011040, 0x012040, 0x013040].flatMap fun off =>
    leBytes 4 (s.liveReg m off)

/-- The part of a page that a command asked for. -/
def logPart (page : List Byte) (offset len : Nat) : Answer :=
  let d := (page.drop offset).take len
  { st := stSuccess, info := 0, result := leBytes 4 d.length ++ leBytes 4 page.length, data := some d, more := offset + d.length < page.length }

/-- A manager's read that ends at the end of the message acknowledges it (R48, R234). -/
def State.ackMessage (s : State) (c : Caller) (n : Fin 128) (offset len : Nat) : State :=
  let total := (s.messageLog n).length
  if c.mgr.isSome && offset < total && total ≤ offset + len then
    s.modMbx n fun b => { b with h2mAck := b.h2mSeq, posted := none }
  else s

/-- GET_LOG. -/
def State.getLogAns (s : State) (c : Caller) (page : Byte) (sel : Half) (offset len : Nat) : State × Answer :=
  match page.toNat with
  | 1 => (s, logPart (match c.mgr with | some m => (s.ring m).errLog.flatMap ErrLine.bytes | none => []) offset len)
  | 2 => (s, logPart s.identityLog offset len)
  | 3 =>
    if c.version < 0x0202 then (s, ans stVersionUnsupported)
    else match s.selChan sel with
      | some n => (s.ackMessage c n offset len, logPart (s.messageLog n) offset len)
      | none => (s, ans stInvalidField 10)
  | 4 =>
    if c.version < 0x0202 then (s, ans stVersionUnsupported)
    else (s, logPart (s.unitsLog (c.mgr.getD .a)) offset len)
  | _ => (s, ans stInvalidField 8)

/-! ## Ovdel over MCTP (R189, R236) -/

/-- Who sends on an MCTP endpoint: function A or B, or an observer. -/
def mctpSender (ep : Fin 8) : Option Mgr := match ep.1 with | 2 => some .a | 3 => some .b | _ => none

/-- The opcodes accepted on an endpoint. -/
def mctpAccepts (ep : Fin 8) (opc : Nat) : Bool :=
  [0x0001, 0x0002, 0x0102, 0x0009, 0x0501, 0x0500].contains opc || (ep.1 < 4 && [0x0100, 0x0103].contains opc)

/-- The lowest version that permits an accepted opcode (R227). -/
def mctpVersion (opc : Nat) : Nat := if opc = 0x0103 ∨ opc = 0x0500 then 0x0200 else 0x0103

/-- Admin opcodes. -/
def adminOpc (opc : Nat) : Bool := opc < 0x0100

/-- The response that carries an answer. -/
def Answer.toReply (a : Answer) (cid : Half) : OvdelReply :=
  { cid := cid, status := a.st, more := a.more, info := BitVec.ofNat 32 a.info, result := a.result, data := a.data.getD [] }

/-- Answer a request on an endpoint. -/
def State.mctpAnswer (s : State) (ep : Fin 8) (cid : Half) (a : Answer) : State := s.mctpReply ep (a.toReply cid)

/-- Count an Ovdel message refused under R189. -/
def State.i3cRefused (s : State) (ep : Fin 8) : State :=
  match fin? 4 (ep.1 - 4) with
  | some p => if 4 ≤ ep.1 then s.modI3c p fun x => { x with refused := satInc x.refused } else s
  | none => s

/-- A second QUOTE of an I3C port within a second (R189). -/
def State.quoteTooSoon (s : State) (ep : Fin 8) : Bool :=
  4 ≤ ep.1 && match fin? 4 (ep.1 - 4) with
    | some p => (match (vget s.i3c p).lastQuote with | some t => s.now < t + second | none => false)
    | none => false

/-- Note the time of an I3C port's QUOTE. -/
def State.noteQuote (s : State) (ep : Fin 8) : State :=
  match fin? 4 (ep.1 - 4) with
  | some p => if 4 ≤ ep.1 then s.modI3c p fun x => { x with lastQuote := some s.now } else s
  | none => s

/-- QUOTE over MCTP; requester numbers as on the rings: 0 A, 1 B, 2 + p port p. -/
def State.mctpQuote (s : State) (ep : Fin 8) (cid : Half) (raw : List Byte) : State :=
  if s.quoteTooSoon ep then s.mctpAnswer ep cid (ans stBusy)
  else
    let r := s.takeQuote (ep.1 - 2) (slice raw 8 32) (leAt raw 48 4)
    (if r.2.st = stSuccess then r.1.noteQuote ep else r.1).mctpAnswer ep cid r.2

/-- An order over MCTP: CH_HOLD or CH_QUARANTINE by the function's manager. -/
def State.mctpOrder (s : State) (ep : Fin 8) (e : Entry) (m : Mgr) (o : Order) : State :=
  match s.selChan e.ch with
  | some n => s.order (.mctp ep e.cid) m n o none false
  | none => s.mctpAnswer ep e.cid (ans stInvalidField 6)

/-- NEGOTIATE over MCTP: the endpoint's own version. -/
def State.mctpNegotiate (s : State) (ep : Fin 8) (e : Entry) : State :=
  match agreeVersion (leAt e.raw 8 2) with
  | none => s.mctpAnswer ep e.cid (ans stVersionUnsupported)
  | some v => (s.modEp ep fun x => { x with ovdel := BitVec.ofNat 16 v }).mctpAnswer ep e.cid (okAns (agreeResult v))

/-- Execute a request that the endpoint accepts. Buffer addresses are ignored, lengths are not. -/
def State.mctpExecute (s : State) (ep : Fin 8) (e : Entry) : State :=
  let c : Caller := { mgr := mctpSender ep, version := (s.ep ep).ovdel.toNat }
  let r := e.raw
  match e.opc with
  | 0x0001 => s.mctpAnswer ep e.cid (s.identifyAns c (BitVec.ofNat 8 (leAt r 8 1)) e.ch (leAt r 24 4))
  | 0x0002 => s.mctpNegotiate ep e
  | 0x0009 =>
    let a := s.getLogAns c (BitVec.ofNat 8 (leAt r 8 1)) (BitVec.ofNat 16 (leAt r 10 2)) (leAt r 12 4) (leAt r 24 4)
    a.1.mctpAnswer ep e.cid a.2
  | 0x0102 => match s.selChan e.ch with
    | some n => s.mctpAnswer ep e.cid (okAns (s.chStatus n))
    | none => s.mctpAnswer ep e.cid (ans stInvalidField 6)
  | 0x0500 => s.mctpQuote ep e.cid r
  | 0x0501 =>
    let a := s.readTrace c.mgr (leAt r 8 8) (bit (leAt r 28 1) 0) (bit (leAt r 28 1) 1) (leAt r 24 4)
    a.1.mctpAnswer ep e.cid a.2
  | 0x0100 => match c.mgr with | some m => s.mctpOrder ep e m .hold | none => s
  | 0x0103 => match c.mgr with | some m => s.mctpOrder ep e m .quarantine | none => s
  | _ => s

/-- The device state lets the control cluster take the request (R16, R235): in START admin commands alone; DEVICE_RECOVERY runs an
admin queue and nothing else (R124). -/
def State.mctpUp (s : State) (ep : Fin 8) (opc : Nat) : Bool :=
  s.epOn ep && 2 ≤ ep.1 && !s.dev.ccAbsent && match s.dev.state with
    | .running | .safeHold => true
    | .start => adminOpc opc
    | .por | .shadow | .rom | .deviceRecovery | .standby => false

/-- Refusal by opcode, version or device state, before a request's own rules (R189, R236, R227, R235). -/
def State.mctpGate (s : State) (ep : Fin 8) (opc : Nat) : Option Status :=
  if !mctpAccepts ep opc then some stNotPermitted
  else if (s.ep ep).ovdel.toNat < mctpVersion opc then some stInvalidOpcode
  else if s.dev.state = .safeHold && !(adminOpc opc || [0x0102, 0x0500, 0x0501].contains opc) then some stNotPermitted
  else none

end Sys2Proof.Machine
end

