-- ==== Sys2Proof/Machine/Logs.lean ====
section
/-! DEFINITION. IDENTIFY, GET_LOG and Ovdel over MCTP (chapter "Ovdel rings and command set"). -/

namespace Sys2Proof.Machine

/-- The manager of a ring command. -/
def State.caller (s : State) (src : Src) : Caller := { mgr := some src.mgr, version := s.version src.mgr }

/-- IDENTIFY (R231). -/
def execIdentify (src : Src) (cns : Byte) (ch : Half) (len : Nat) (s : State) : Out :=
  .next (s.ovdel src (gateOf (.identify src cns ch len)) fun s => s.deliver src (s.identifyAns (s.caller src) cns ch len))

/-- GET_LOG (R234). -/
def execGetLog (src : Src) (page : Byte) (sel : Half) (offset len : Nat) (s : State) : Out :=
  .next (s.ovdel src (gateOf (.getLog src page sel offset len)) fun s =>
    let a := s.getLogAns (s.caller src) page sel offset len
    a.1.deliver src a.2)

/-- An Ovdel request over MCTP (R236). `session`: the secured session of the endpoint that carried it, or 0 (R188). On an I3C port with
OBS_SECURE = 1 a message outside a session is not accepted (R189). -/
def execMctpOvdelRequest (ep : Fin 8) (units : List Byte) (session : Nat) (s : State) : Out :=
  .next (let e := entryOf units
    if !s.mctpUp ep e.opc then s
    else
      let s := s.countMessage ep (Config.spdmPackets s.now)
      let inside : Bool := match (s.ep ep).session? session with | some t => t.established | none => false
      if session ≠ 0 && !inside || decide (4 ≤ ep.1) && s.dcfg.obsSecure && !inside then s.i3cRefused ep
      else
        let s := if inside then s.modEp ep fun x => x.touch session s.now else s
        match s.mctpGate ep e.opc with
        | some st => (if mctpAccepts ep e.opc then s else s.i3cRefused ep).mctpAnswer ep e.cid (ans st)
        | none => s.mctpExecute ep e)

end Sys2Proof.Machine
end

