-- ==== Sys2Proof/Machine/Mailbox.lean ====
section
/-! DEFINITION. The mailbox fields that a host writes (R41-R50, R117, R148, R153), each as one PAGE PROGRAM of exactly that
field, and the events of the mailbox: the boot timeout (R53) and the end of the device's copy (R112). -/

namespace Sys2Proof.Machine

/-- A PAGE PROGRAM of one field of the mailbox, in the host's protocol and period. -/
def State.mbxPage (s : State) (n : Fin 128) (off : Nat) (bytes : List Byte) : State :=
  s.host n { HostCmd.bare 0x12 with addr := (s.st n).tbl.mbxBase + off, data := bytes, period := (s.port n).period.toNat }

/-- MBX_SELECT (R44). -/
def execMbxSelect (n : Fin 128) (v : Word) (s : State) : Out := .next (s.mbxPage n 0x0004 (leBytes 4 v.toNat))

/-- WDG_TOKEN: one service (R148). -/
def execWdgToken (n : Fin 128) (token : DWord) (s : State) : Out := .next (s.mbxPage n 0x0050 (leBytes 8 token.toNat))

/-- WDG_EXTEND (R153). -/
def execWdgExtend (n : Fin 128) (token : DWord) (units : Word) (s : State) : Out :=
  .next (s.mbxPage n 0x0058 (leBytes 8 token.toNat ++ leBytes 4 units.toNat ++ leBytes 4 0))

/-- PROOF_ACCEPT (R45, R117). -/
def execProofAccept (n : Fin 128) (v : DWord) (s : State) : Out := .next (s.mbxPage n 0x0088 (leBytes 8 v.toNat))

/-- BOOT_DONE (R45, R46). -/
def execBootDone (n : Fin 128) (v : Word) (s : State) : Out := .next (s.mbxPage n 0x0100 (leBytes 4 v.toNat))

/-- UPD_OPEN (R49). -/
def execUpdOpen (n : Fin 128) (v : DWord) (s : State) : Out := .next (s.mbxPage n 0x0200 (leBytes 8 v.toNat))

/-- UPD_COMMIT (R49, R112). -/
def execUpdCommit (n : Fin 128) (v : Word) (s : State) : Out := .next (s.mbxPage n 0x0210 (leBytes 4 v.toNat))

/-- UPD_ABORT (R49). -/
def execUpdAbort (n : Fin 128) (v : Word) (s : State) : Out := .next (s.mbxPage n 0x0220 (leBytes 4 v.toNat))

/-- The write of SEQ that posts a host message (R48). -/
def execHostMessagePost (n : Fin 128) (seq : Word) (s : State) : Out := .next (s.mbxPage n 0x8004 (leBytes 4 seq.toNat))

/-- M2H_ACK (R48). -/
def execM2hAck (n : Fin 128) (ack : Word) (s : State) : Out := .next (s.mbxPage n 0x8008 (leBytes 4 ack.toNat))

/-- The device's copy of a host session ends (R112): STAGED and DONE, or FAILED with the plate left STAGING. UPD_STATUS shows the leaves
that checked, up to the one that failed (R44). HOST_ARM then arms the plate, except in the fallback (R115, R162). -/
def execUpdVerifyDone (n : Fin 128) (ev : CopyEv) (s : State) : Out :=
  .next (if (s.mb n).session = 2 && !s.dev.ccAbsent then
    match s.sessionPlate n, (s.st n).tbl.stagingWin with
    | some p, some w =>
      let r := s.copyOutcome n p w ev.passData ev.stored
      let local_ := ((s.plates n).get p).src = 2
      let s := if local_ then s.localDone n else s
      let s := s.modMbx n fun b => { b with updLeaves := if r.2.2.2 = 0xFFFFFFFF then b.updLeaves else BitVec.ofNat 32 r.2.2.2 }
      if r.1 = stSuccess then
        let s := if local_ then s else s.storePool r.2.1 r.2.2.1
        let s := (s.commitStaged n p r.2.1 true false).endSession n stSuccess
        if (s.polOf n).plate.hostArm && !s.fallback && s.armStatus n p false = stSuccess then s.beginArm n p else s
      else
        let s := s.verifyFailed n.1 r.1 p.code r.2.1 r.2.2.2
        let s := s.modPlt n fun x => { x with staging := x.staging.set p { x.staging.get p with claim := none } }
        s.endSession n r.1
    | _, _ => s.endSession n stNotPermitted
  else s)

/-- BOOT_TMO passes, counted from the release: phase BOOT ends (R53, R46). -/
def execBootTmoExpiry (n : Fin 128) (s : State) : Out :=
  .next (let t := s.st n
    if t.phase = .boot && (s.ch n).released && t.tbl.bootTmo ≠ 0 then
      ((s.until ((s.ch n).relT + t.tbl.bootTmo.toNat * second)).setPhase n .run).modStn n fun x => { x with tmoHit := true }
    else s)

end Sys2Proof.Machine
end

