-- ==== Sys2Proof/Machine/Platform.lean ====
section
/-! DEFINITION. Channel states, ranks, the release limiter, manager orders and the tripwire lines (chapter "Holding, releasing
and switching hosts"). -/

namespace Sys2Proof.Machine

/-! ## TAKING to RUNNING (R129-R136) -/

/-- The selected impression is bound, the epoch and pins are loaded and KEEP is restored (R129): READY. The control cluster does this
(R16). A channel that R2 no longer exempts is selected for first. -/
def execChannelReady (n : Fin 128) (s : State) : Out :=
  .next (let c := s.ch n
    if c.state = .taking && c.sel.isNone && (s.pl n).arming.isNone && !s.tamper.burnt && !s.dev.ccAbsent then
      if c.bound.isSome || s.exempt n then s.becomeReady n else s.select n
    else s)

/-- The earliest time that R132 and the limiter leave for a release of channel n. -/
def State.releaseDue (s : State) (n : Fin 128) : Nat :=
  let c := s.ch n
  max (if c.holdT = 0 then 0 else c.holdT + 10 * msec)
    (match s.plat.instants.reverse[7]? with | some t => t + s.dcfg.spacingMs * msec | none => 0)

/-- The limiter grants the release of a READY channel (R132-R135). -/
def execReleaseInstant (n : Fin 128) (s : State) : Out :=
  .next (let t := s.until (s.releaseDue n)
    if t.mayRelease n && !t.limiterFull && t.nextGrant = some n.1 then t.release n else s)

/-- A ranked channel is still TAKING. -/
def State.rankedTaking (s : State) : Bool := (List.finRange 128).any fun n => (s.ch n).ranked && (s.ch n).state = .taking

/-- A ranked channel still waits for its request. -/
def State.rankedLeft (s : State) : Bool :=
  (List.finRange 128).any fun n => (s.ch n).ranked && ((s.ch n).state = .taking || (s.ch n).state = .ready)

/-- Ranks begin (R136): when no ranked channel is TAKING, or REL_WAIT_S after RUNNING. -/
def execRanksBegin (s : State) : Out :=
  .next (if s.dev.state = .running && !s.plat.ranksBegun then
    let s := if s.rankedTaking then s.until (s.dev.runSince + s.dcfg.relWaitS * second) else s
    { s with plat := { s.plat with ranksBegun := true, ranksActive := s.rankedLeft, nextBoundary := s.now, nextRank := 0 } }
  else s)

/-- A boundary (R136): the READY channels of the rank due are requested, then the late ones in the order they became READY. -/
def execRankBoundary (s : State) : Out :=
  .next (if s.dev.state = .running && s.plat.ranksActive then
    let s := s.until s.plat.nextBoundary
    let due := s.ranksPresent.find? fun r => s.plat.nextRank ≤ r
    let mine := (List.finRange 128).filter fun n =>
      (s.ch n).ranked && (s.ch n).state = .ready && some (s.profOf n).rank = due && !s.plat.late.contains n.1
    let late := s.plat.late.filterMap fun k => fin? 128 k
    let s := s.forAll (mine ++ late) fun n s => if (s.ch n).state = .ready then s.requestRelease n else s
    let s := { s with plat := { s.plat with late := [], nextRank := match due with | some r => r + 1 | none => 128,
                                            nextBoundary := s.plat.nextBoundary + s.dcfg.spacingMs * msec } }
    { s with plat := { s.plat with ranksActive := s.rankedLeft } }
  else s)

/-! ## Ovdel channel commands (R229, R137) -/

/-- CH_HOLD, on the fast path (R19). -/
def execChHold (src : Src) (ch : Half) (rival : Option Order) (s : State) : Out :=
  .next (s.ovdel src (gateOf (.chHold src ch rival)) fun s =>
    s.withChan src ch fun n s => s.order (.cmd src) src.mgr n .hold rival false)

/-- CH_RELEASE. -/
def execChRelease (src : Src) (ch : Half) (against : Against) (s : State) : Out :=
  .next (s.ovdel src (gateOf (.chRelease src ch against)) fun s =>
    s.withChan src ch fun n s => s.order (.cmd src) src.mgr n .release against.rival against.deviceHold)

/-- CH_STATUS, on the fast path; the one channel command of SAFE_HOLD (R141). -/
def execChStatus (src : Src) (ch : Half) (s : State) : Out :=
  .next (s.ovdel src (gateOf (.chStatus src ch)) fun s =>
    s.withChan src ch fun n s => s.deliver src (okAns (s.chStatus n)))

/-- CH_QUARANTINE, on the fast path. -/
def execChQuarantine (src : Src) (ch : Half) (rival : Option Order) (s : State) : Out :=
  .next (s.ovdel src (gateOf (.chQuarantine src ch rival)) fun s =>
    s.withChan src ch fun n s => s.order (.cmd src) src.mgr n .quarantine rival false)

/-- CH_READMIT. -/
def execChReadmit (src : Src) (ch : Half) (rival : Option Order) (s : State) : Out :=
  .next (s.ovdel src (gateOf (.chReadmit src ch rival)) fun s =>
    s.withChan src ch fun n s => s.order (.cmd src) src.mgr n .readmit rival false)

/-- CH_RESTART. -/
def execChRestart (src : Src) (ch : Half) (rival : Option Order) (s : State) : Out :=
  .next (s.ovdel src (gateOf (.chRestart src ch rival)) fun s =>
    s.withChan src ch fun n s => s.order (.cmd src) src.mgr n .restart rival false)

/-! ## CHn_CTL_ORDER (R137) -/

/-- HOLD written to CHn_CTL_ORDER. -/
def execCtlOrderHold (m : Mgr) (n : Fin 128) (rival : Option Order) (s : State) : Out :=
  .next (s.regW m (chanPage n 0 + 0x060) fun s => s.regOrder m n .hold rival false)

/-- RELEASE written to CHn_CTL_ORDER. -/
def execCtlOrderRelease (m : Mgr) (n : Fin 128) (against : Against) (s : State) : Out :=
  .next (s.regW m (chanPage n 0 + 0x060) fun s => s.regOrder m n .release against.rival against.deviceHold)

/-- QUARANTINE written to CHn_CTL_ORDER. -/
def execCtlOrderQuarantine (m : Mgr) (n : Fin 128) (rival : Option Order) (s : State) : Out :=
  .next (s.regW m (chanPage n 0 + 0x060) fun s => s.regOrder m n .quarantine rival false)

/-- READMIT written to CHn_CTL_ORDER. -/
def execCtlOrderReadmit (m : Mgr) (n : Fin 128) (rival : Option Order) (s : State) : Out :=
  .next (s.regW m (chanPage n 0 + 0x060) fun s => s.regOrder m n .readmit rival false)

/-- RESTART written to CHn_CTL_ORDER. -/
def execCtlOrderRestart (m : Mgr) (n : Fin 128) (rival : Option Order) (s : State) : Out :=
  .next (s.regW m (chanPage n 0 + 0x060) fun s => s.regOrder m n .restart rival false)

/-! ## Tripwire lines (R128, R138, R139) -/

/-- A write of TWL_PULSE: GO requests the sequence of LINE; ignored with ERR_INFO bit 0 unless its role is restart. SAFE_HOLD and
STANDBY keep the lines as they are (R141). -/
def execTwlPulse (m : Mgr) (v : Word) (s : State) : Out :=
  .next (s.regW m 0x00D048 fun s => match fin? 16 (field v.toNat 3 0), v.getLsbD 8 with
    | some t, true =>
      if s.lineRole t ≠ 1 then s.ignoredWrite m 0x00D048
      else if s.dev.state = .running then s.requestPulse t none else s
    | _, _ => s)

/-- A write of TWL_FORCE: backup lines only (R128). -/
def execTwlForce (m : Mgr) (v : Word) (s : State) : Out :=
  .next (s.regW m 0x00D044 fun s =>
    let f := BitVec.ofNat 16 (pack ((List.finRange 16).map fun t => (t.1, bval (v.getLsbD t.1 && s.lineRole t = 2))))
    { s with plat := { s.plat with force := s.plat.force.set m f } })

/-- PULSE_MS after it sank, the line is released (R139 step 3): PG_TMO starts for each channel still held by the sequence, and one
whose PG_OK is set goes on to TAKING. Where none is left at step 3, the sequence is over. -/
def execTwPulseEnd (t : Fin 16) (s : State) : Out :=
  .next (match vget s.plat.lines t with
    | .sinking since cs =>
      let s := (s.until (since + s.linePulse t)).modLine t (.waiting cs)
      (s.forChans fun n s => if cs.contains n.1 && s.atStep3 t n.1 then s.powerStep3 n else s).endLines
    | _ => s)

/-- PG_TMO passes without PG_OK (R139): a manager hold, and the event. -/
def execPgoodTimeout (n : Fin 128) (s : State) : Out :=
  .next (let c := s.ch n
    match c.pgTmoAt, c.seq with
    | some d, some (.power t) =>
      if c.state = .held && !c.pgOk then
        (((s.until d).modCtl n fun c =>
          { c with kind := .manager, cause := .pgoodTimeout, seq := none, pgTmoAt := none }).raise 0x0106 n.1 [t]).endLines
      else s
    | _, _ => s)

/-- Ten milliseconds after its hold instant, a channel held by a restart or revert sequence moves to TAKING (R138, R118). The control
cluster, not the hardware ladder, carries a revert on (R16). -/
def execSequenceHoldElapsed (n : Fin 128) (s : State) : Out :=
  .next (let c := s.ch n
    if c.state = .held && c.kind = .sequence && c.sink && s.dev.state = .running then
      match c.seq with
      | some .restart => (s.until (c.holdT + 10 * msec)).startTaking n .restart true
      | some .revert => if s.dev.ccAbsent then s else (s.until (c.holdT + 10 * msec)).startTaking n .proof true
      | _ => s
    else s)

end Sys2Proof.Machine
end

