-- ==== Sys2Proof/Machine/FuseOps.lean ====
section
/-! DEFINITION. Programming the fuse array (R286-R293): the pulses of R288, the checks of OTP_PROGRAM and OTP_FINALISE, lifecycle
transitions and revocations. -/

namespace Sys2Proof.Machine

/-! ## Pulses (R288) -/

/-- Why Graver stopped before the last bit. -/
inductive PulseStop where
  | done
  | inhibited
  | stuck
  deriving DecidableEq, Repr

/-- What Graver's work on one command has come to: bits taken up that did not read 1 at STRICT, and of these the ones that needed more
than one pulse and the ones that still fail. -/
structure PulseRun where
  otp : Otp
  bits : Nat
  again : Nat
  failing : Nat
  stop : PulseStop
  deriving DecidableEq, Repr

/-- Set bit `b` (word × 32 + bit) of a margin's words. -/
def setFuse (m : SMap Word) (b : Nat) : SMap Word :=
  SMap.put m (b / 32) ((SMap.get? m (b / 32)).getD 0 ||| BitVec.ofNat 32 (2 ^ (b % 32)))

/-- A bit reads 1 at STRICT margin. -/
def Otp.strictBit (o : Otp) (b : Nat) : Bool := (o.s (b / 32)).getLsbD (b % 32)

/-- A bit reads 1 at NORMAL margin. -/
def Otp.normalBit (o : Otp) (b : Nat) : Bool := (o.n (b / 32)).getLsbD (b % 32)

/-- A 16-bit counter that saturates. -/
def satAdd (x : Half) (k : Nat) : Half := BitVec.ofNat 16 (min 0xFFFF (x.toNat + k))

/-- Count the pulses of one bit in OTP_CNT and OTP_MARG. -/
def Otp.countPulses (o : Otp) (k : Nat) (failed : Bool) : Otp :=
  { o with pulses := satAdd o.pulses k, repulses := satAdd o.repulses (k - 1), failed := if failed then satInc o.failed else o.failed }

/-- One bit that does not read 1 at STRICT: at most three pulses. A bit that never passes may have come to read 1 at NORMAL. -/
def PulseRun.bit (ev : PulseEv) (r : PulseRun) (b : Nat) : PulseRun :=
  if ev.never.contains b then
    let o := if Config.partBlown b then { r.otp with normal := setFuse r.otp.normal b } else r.otp
    { r with otp := o.countPulses 3 true, bits := r.bits + 1, again := r.again + 1, failing := r.failing + 1 }
  else
    let k := 1 + min 2 (ev.again.count b)
    let o := { r.otp with normal := setFuse r.otp.normal b, strict := setFuse r.otp.strict b }
    { r with otp := o.countPulses k false, bits := r.bits + 1, again := if k = 1 then r.again else r.again + 1 }

/-- Graver programs bits in ascending order. -/
def PulseRun.run (ev : PulseEv) : List Nat → PulseRun → PulseRun
  | [], r => r
  | b :: t, r =>
    if r.stop ≠ .done || r.otp.strictBit b then PulseRun.run ev t r
    else if ev.inhibitedAfter = some r.bits then PulseRun.run ev t { r with stop := .inhibited }
    else if ev.stuckAfter = some r.bits then PulseRun.run ev t { r with stop := .stuck }
    else PulseRun.run ev t (r.bit ev b)

/-- Graver begins a command. -/
def State.pulseStart (s : State) : PulseRun := { otp := s.otp, bits := 0, again := 0, failing := 0, stop := .done }

/-- Bits of a list that now read 1 at STRICT, and those that do not: RESULT 0-3 and 4-7. -/
def Otp.counts (o : Otp) (l : List Nat) : List Byte :=
  let good := (l.filter o.strictBit).length
  leBytes 4 good ++ leBytes 4 (l.length - good)

/-! ## Completion -/

/-- OTP_LAST. -/
def State.noteOtp (s : State) (r : Nat) (st : Status) : State :=
  { s with otp := { s.otp with lastStatus := st, lastRegion := BitVec.ofNat 3 r } }

/-- Complete an OTP_PROGRAM or OTP_FINALISE that Graver did not take up. -/
def State.refuseOtp (s : State) (src : Src) (r : Nat) (st : Status) (info : Nat := 0) : State :=
  (s.noteOtp r st).deliver src (ans st info)

/-- Complete what Graver has worked on, or leave it to the watchdog. -/
def State.endPulses (s : State) (src : Src) (r : Nat) (code : Nat) (run : PulseRun) (l : List Nat) (st : Status) : State :=
  let s := { s with otp := run.otp }
  match run.stop with
  | .stuck => { s with otp := { s.otp with busy := some (src, r), state := BitVec.ofNat 3 code, region := BitVec.ofNat 3 r } }
  | .inhibited => (s.noteOtp r stWriteInhibited).deliver src { ans stWriteInhibited run.again with result := s.otp.counts l }
  | .done =>
    let st := if st = stSuccess && run.failing ≠ 0 then stOtpMarginal else st
    (s.noteOtp r st).deliver src { ans st run.again with result := s.otp.counts l }

/-! ## OTP_READ (R286) -/

/-- A word of a region from a source: 0 shadow, 1 NORMAL, 2 STRICT. The UDS, the LKS copies and the IDENTITY digest read as zeros (R280). -/
def Otp.readWord (o : Otp) (r source i : Nat) : Word :=
  if r = 2 && i < 40 then 0
  else match source with
    | 0 => o.shadowAt (otpBase r + i)
    | 1 => o.n (otpBase r + i)
    | _ => o.s (otpBase r + i)

/-- The bytes that OTP_READ returns, if it is in range. -/
def Otp.readBytes (o : Otp) (r source bitOffset len : Nat) : Option (List Byte) :=
  if bitOffset % 8 ≠ 0 || 4 * otpSpan r < bitOffset / 8 + len then none
  else some (slice ((List.range (otpSpan r)).flatMap fun i => leBytes 4 (o.readWord r source i).toNat) (bitOffset / 8) len)

/-! ## OTP_PROGRAM's checks (R287, R292, R293) -/

/-- Region bits that a bitmap sets. -/
def bitmapBits (bitOffset : Nat) (bitmap : List Byte) : List Nat :=
  (List.range (8 * bitmap.length)).filterMap fun i =>
    if (bitmap.getD (i / 8) 0).getLsbD (i % 8) then some (bitOffset + i) else none

/-- Word w of the bits asked for. -/
def askedWord (l : List Nat) (w : Nat) : Nat := pack ((l.filter fun b => b / 32 = w).map fun b => (b % 32, 1))

/-- Copy c of a three-copy field of `width` bits. -/
def copyOf (w lo width c : Nat) : Nat := field w (lo + 4 * c + width - 1) (lo + 4 * c)

/-- The three copies are alike. -/
def alike (w lo width : Nat) : Bool := copyOf w lo width 0 = copyOf w lo width 1 && copyOf w lo width 1 = copyOf w lo width 2

/-- All copies of transition bit t are blown at STRICT margin. -/
def Otp.allCopies (o : Otp) (t : Nat) : Bool := (List.range 3).all fun c => o.strictBit (32 * otpBase 5 + 4 * c + t)

/-- The lifecycle that the array shows (R291). -/
def Otp.arrayState (o : Otp) : Nat := lcState (lcTransitions (o.n (otpBase 5)))

/-- The transition bits asked for, in all three copies alike, are a transition's (R292): the target's bit and every lower one that is not
blown. One that some copies show is completed with the others. -/
def Otp.transitionOk (o : Otp) (asked target : Nat) : Bool :=
  o.arrayState ≤ target && (List.range 3).all fun t =>
    let blown := bit (lcTransitions (o.n (otpBase 5))) t
    if t + 1 = target then bit asked t
    else if target < t + 1 then !bit asked t
    else if !blown then bit asked t
    else !bit asked t || !o.allCopies t || o.arrayState = target

/-- Every channel is OFF or HELD. -/
def State.allStill (s : State) : Bool := (List.finRange 128).all fun n => (s.ch n).state = .off || (s.ch n).state = .held

/-- A lifecycle transition (R292). -/
def State.transitionStatus (s : State) (asked : Nat) : Status :=
  let target := lcState asked
  if !s.otp.transitionOk asked target then stInvalidField
  else if s.otp.arrayState = 0 || target < 2 then stNotPermitted
  else if target = 3 && s.otp.arrayState ≠ 3 && !(s.dev.zeroised && s.allStill) then stNotPermitted
  else stSuccess

/-- An owner entry with a role stays usable when these entries are revoked. -/
def Otp.roleLeft (o : Otp) (role revoked : Nat) : Bool :=
  (List.range 4).any fun k => o.ownUsable k && bit (o.ownRoles k) role && !bit revoked k

/-- A revocation (R293). `fw`, `own`: the keys and entries named. -/
def State.revokeStatus (s : State) (fw own : Nat) : Status :=
  if fw ≠ 0 && (bit fw s.otp.fwKey.toNat || !((List.range 4).any fun k => s.otp.fwUsable k && !bit fw k)) then stNotPermitted
  else if own ≠ 0 && !(s.otp.roleLeft 0 own && s.otp.roleLeft 1 own) then stNotPermitted
  else stSuccess

/-- Bits of LIFECYCLE asked for: only named ones, in three copies alike, and not both kinds (R292, R293). -/
def State.lifecycleStatus (s : State) (l : List Nat) : Status :=
  let w0 := askedWord l 0
  let w1 := askedWord l 1
  let tr := copyOf w0 0 3 0
  let rev := w0 / 2 ^ 16 ≠ 0 || w1 ≠ 0
  if w0 % 2 ^ 16 &&& 0xF888 ≠ 0 || w0 / 2 ^ 28 ≠ 0 || w1 / 2 ^ 12 ≠ 0 || !(alike w0 0 3 && alike w0 16 4 && alike w1 0 4) then stInvalidField
  else if tr ≠ 0 && rev then stInvalidField
  else if tr ≠ 0 then s.transitionStatus tr
  else if rev then s.revokeStatus (copyOf w0 16 4 0) (copyOf w1 0 4 0)
  else stSuccess

/-- Steps 2 to 6 of R287: status and INFO. INFO names the field at fault (R228). -/
def State.programStatus (s : State) (r : Nat) (len : Nat) (l : List Nat) : Status × Nat :=
  if 5 < r then (stInvalidField, 8)
  else if 256 < len then (stInvalidField, 24)
  else if !(r = 5 || r = 4 && (s.otp.lifecycle = 1 || s.otp.lifecycle = 2)) then (stNotPermitted, 0)
  else if l.any fun b => 32 * otpWords r ≤ b then (stInvalidField, 12)
  else if r = 4 && (s.otp.locked 4 || (List.range 4).any fun i => s.otp.n (otpDigestAt 4 + i) ≠ 0) then (stOtpLocked, 0)
  else
    let st := if r = 5 then s.lifecycleStatus l else stSuccess
    if st ≠ stSuccess then (st, if st = stInvalidField then 16 else 0)
    else if s.inhibited then (stWriteInhibited, 0) else (stSuccess, 0)

/-- What a lifecycle change does at the command's completion (R292): debug ends when DEV is left. -/
def State.lifecycleChanged (s : State) (before : Nat) : State :=
  let now := s.otp.arrayState
  if now = before then s
  else
    let s := s.raise 0x0707 devCh [before, now]
    if before = 1 then { s with otp := { s.otp with debugLeft := true }, intw := { s.intw with halted := false } } else s

/-! ## OTP_FINALISE (R289) -/

/-- Steps 2, 4 and 6 of R287 as OTP_FINALISE passes them. -/
def State.finaliseStatus (s : State) (r : Nat) : Status × Nat :=
  if 4 < r then (stInvalidField, 8)
  else if !(r = 4 && (s.otp.lifecycle = 1 || s.otp.lifecycle = 2)) then (stNotPermitted, 0)
  else if s.otp.locked r then (stOtpLocked, 0)
  else if s.inhibited then (stWriteInhibited, 0) else (stSuccess, 0)

/-- Bits of a run of words that meet a test, in ascending order. -/
def bitsIn (a k : Nat) (p : Nat → Bool) : List Nat := ((List.range (32 * k)).map fun i => 32 * a + i).filter p

/-- Step 1's bits: 1 at NORMAL and 0 at STRICT. -/
def Otp.weakList (o : Otp) (r : Nat) : List Nat := bitsIn (otpBase r) (otpWords r) fun b => o.normalBit b && !o.strictBit b

/-- The digest field holds a bit that the digest does not. -/
def Otp.digestClash (o : Otp) (r : Nat) : Bool := (List.range 4).any fun i => o.n (otpDigestAt r + i) &&& ~~~o.digestWord r i ≠ 0

/-- The 1 bits of the digest. -/
def Otp.digestBits (o : Otp) (r : Nat) : List Nat :=
  bitsIn (otpDigestAt r) 4 fun b => (o.digestWord r (b / 32 - otpDigestAt r)).getLsbD (b % 32)

/-- L0, L1, L2. -/
def lockBits (r : Nat) : List Nat := [0, 1, 2].map fun i => 32 * otpLockAt r + i

/-- The four steps of R289. -/
def State.finalise (s : State) (src : Src) (r : Nat) (ev : PulseEv) : State :=
  let weak := s.otp.weakList r
  let r1 := s.pulseStart.run ev weak
  if r1.stop ≠ .done || r1.failing ≠ 0 then s.endPulses src r 4 r1 weak stSuccess
  else if r1.otp.digestClash r then s.endPulses src r 4 r1 weak stDigestMismatch
  else
    let digest := r1.otp.digestBits r
    let r2 := r1.run ev digest
    if r2.stop ≠ .done || r2.failing ≠ 0 then s.endPulses src r 4 r2 (weak ++ digest) stSuccess
    else
      let r3 := r2.run ev (lockBits r)
      let s := s.endPulses src r 4 r3 (weak ++ digest ++ lockBits r) stSuccess
      if r3.stop = .done && r3.failing = 0 then s.raise 0x0704 devCh [r] else s

end Sys2Proof.Machine
end

