-- ==== Sys2Proof/Machine/Security.lean ====
section
/-! DEFINITION. Keys, tamper and the fuse array: KEY_UPDATE, KEY_INFO, ZEROIZE, the OTP commands, Graver's watchdog, and the tamper
sources with TMP_CTRL (chapters "Key store, key updates and tamper" and "OTP, lifecycle and calibration"). -/

namespace Sys2Proof.Machine

/-! ## Keys -/

/-- KEY_UPDATE (R264, R265). KEY_CNT and KEY_LAST show every outcome but that of an opcode not taken. -/
def execKeyUpdate (src : Src) (msg : Verified (List Byte)) (s : State) : Out :=
  .next (s.ovdelOr src (gateOf (.keyUpdate src msg))
    (fun st info s => State.deliver (if st = stInvalidOpcode then s else s.noteKeyUpdate st) src (ans st info))
    fun s =>
      let st := (s.keyUpdate src.mgr msg.what).2.st
      let runs := st = stSuccess ∨ st = stSignatureFailed ∨ st = stCounterStale ∨ st = stDigestMismatch
      let j := if runs then s.internalJob 0x07 150000 msg.faults else (true, s)
      let r := if j.1 then j.2.keyUpdate src.mgr msg.what else (j.2, ans stFaultDetected)
      (r.1.noteKeyUpdate r.2.st).deliver src r.2)

/-- KEY_INFO (R261, R258): a slot's descriptor, or with 0xFFFE the transport keys. -/
def execKeyInfo (src : Src) (slot : Half) (len : Nat) (s : State) : Out :=
  .next (s.ovdel src (gateOf (.keyInfo src slot len)) fun s =>
    if slot = 0xFFFE then
      if len < 1761 then s.deliver src (ans stInvalidField 24)
      else if !s.keys.transport then s.deliver src (ans stNotPermitted)
      else s.drawGeneral.deliver src { okAns with data := some s.transportInfo }
    else match fin? 256 slot.toNat with
      | some k =>
        if len < 64 then s.deliver src (ans stInvalidField 24) else s.deliver src { okAns with data := some (s.slotInfo k) }
      | none => s.deliver src (ans stInvalidField 8))

/-- ZEROIZE (R271): a tightening; it completes after the Burnish, whose steps the model takes at once. -/
def execZeroize (src : Src) (confirm : Word) (s : State) : Out :=
  .next (s.ovdel src (gateOf (.zeroize src confirm)) fun s =>
    if confirm ≠ 0x5A45524F then s.deliver src (ans stInvalidField 8) else (s.burnish 16 3).deliver src okAns)

/-! ## The fuse array -/

/-- OTP_READ (R286). Graver runs one command at a time; on a live read that it cannot complete it is left to its watchdog (R163). -/
def execOtpRead (src : Src) (region : Half) (bitOffset : Nat) (q : OtpLen) (s : State) : Out :=
  .next (s.ovdel src (gateOf (.otpRead src region bitOffset q)) fun s =>
    let r := field region.toNat 7 0
    let source := field region.toNat 9 8
    if s.otp.busy.isSome then s
    else if 5 < r || source = 3 then s.deliver src (ans stInvalidField 8)
    else match s.otp.readBytes r source bitOffset q.len with
      | some b =>
        if q.stuck && source ≠ 0 && q.len ≠ 0 then
          { s with otp := { s.otp with busy := some (src, r), state := 2, region := BitVec.ofNat 3 r } }
        else s.deliver src { okAns (leBytes 4 b.length) with data := some b }
      | none => s.deliver src (ans stInvalidField 12))

/-- OTP_PROGRAM and OTP_FINALISE: Graver runs one command at a time, and OTP_LAST shows every outcome but that of an opcode not taken (R287). -/
def State.otpCommand (s : State) (src : Src) (c : Instr) (r : Nat) (body : State → State) : State :=
  if s.otp.busy.isSome then s
  else s.ovdelOr src (gateOf c) (fun st info s => if st = stInvalidOpcode then s.deliver src (ans st) else s.refuseOtp src r st info)
    fun s => if s.isSecondary src.mgr then s.refuseOtp src r stNotPermitted else body s

/-- OTP_PROGRAM (R287, R288, R292, R293). -/
def execOtpProgram (src : Src) (region : Half) (bitOffset : Nat) (bitmap : List Byte) (ev : PulseEv) (s : State) : Out :=
  .next (let r := region.toNat
    s.otpCommand src (.otpProgram src region bitOffset bitmap ev) r fun s =>
          let asked := bitmapBits bitOffset bitmap
          let c := s.programStatus r bitmap.length asked
          if c.1 ≠ stSuccess then s.refuseOtp src r c.1 c.2
          else
            let bits := asked.map fun b => 32 * otpBase r + b
            let before := s.otp.arrayState
            (s.endPulses src r 3 (s.pulseStart.run ev bits) bits stSuccess).lifecycleChanged before)

/-- OTP_FINALISE (R289). -/
def execOtpFinalise (src : Src) (region : Half) (ev : PulseEv) (s : State) : Out :=
  .next (let r := region.toNat
    s.otpCommand src (.otpFinalise src region ev) r fun s =>
          let c := s.finaliseStatus r
          if c.1 ≠ stSuccess then s.refuseOtp src r c.1 c.2 else s.finalise src r ev)

/-- Graver's watchdog (R163): it counts while Graver has a read or a pulse to complete, in an OTP command or in SHADOW. The command
completes ABORTED, and the expiry feeds the internal ladder. -/
def execGraverWatchdog (s : State) : Out :=
  .next (if s.otp.busy.isSome || s.dev.state = .shadow then (s.endOtp stAborted).internalExpiry 4 false else s)

/-! ## Tamper sources (R267, R268) -/

/-- A source is watched: a loop at level 0 is not sampled (R268). -/
def State.watched (s : State) (i : Nat) : Bool := !(5 ≤ i && i ≤ 8) || s.tamperLevel i ≠ 0

/-- Tamper sources trip at once. For a loop this is its LOOP_N-th failing sample. -/
def execTamperTrip (sources : BitVec 10) (s : State) : Out :=
  .next (s.trip ((List.range 10).filter fun i => sources.getLsbD i && s.watched i))

/-- A sample of loop i. KIND: 0 passing, 1 open, 2 short to ground, 3 short to supply, 4 foreign pulse; LOOP_N failing samples in a row
trip the source. -/
def execLoopSample (i : Fin 4) (kind : BitVec 3) (s : State) : Out :=
  .next (if !s.watched (5 + i.1) || decide (4 < kind.toNat) then s
    else
      let fails := if kind = 0 then 0 else vget s.tamper.loopFails i + 1
      let s := { s with tamper := { s.tamper with
        loopKind := vset s.tamper.loopKind i kind, loopFails := vset s.tamper.loopFails i fails } }
      if fails ≠ 0 && s.loopN ≤ fails then s.trip [5 + i.1] else s)

/-- A source's condition has been absent for 10 ms. -/
def execTamperInactive (i : Fin 10) (s : State) : Out :=
  .next { s with tamper := { s.tamper with active := putBit s.tamper.active i.1 false } }

/-- A source at one of these levels is active. -/
def State.activeAt (s : State) (lo : Nat) : Bool :=
  (List.range 10).any fun i => s.tamper.active.getLsbD i && lo ≤ s.tamperLevel i

/-- TMP_CTRL.CLEAR (R270): LOCK and the LATCHED bits of inactive sources; the ledger word follows. -/
def State.tmpClear (s : State) (m : Mgr) : State :=
  if s.isSecondary m || s.activeAt 2 then s.ignoredWrite m 0x007060
  else
    let gone := (List.range 10).filter fun i => s.tamper.latched.getLsbD i && !s.tamper.active.getLsbD i
    let kept := s.tamper.latched &&& s.tamper.active
    let s := { s with tamper := { s.tamper with lock := false, latched := kept, ledger := (false, kept) } }
    s.forAll gone fun i s => s.raise 0x0604 devCh [i]

/-- TMP_CTRL.REARM (R273): a device warm reset after a Burnish; GLB_RST.CAUSE stays. -/
def State.tmpRearm (s : State) (m : Mgr) : State :=
  if s.isSecondary m || !s.tamper.burnt || s.activeAt 3 then s.ignoredWrite m 0x007060 else s.warmReset none

/-- A write of TMP_CTRL.CLEAR. -/
def execTmpClear (m : Mgr) (s : State) : Out := .next (s.regW m 0x007060 fun s => s.tmpClear m)

/-- A write of TMP_CTRL.REARM. -/
def execTmpRearm (m : Mgr) (s : State) : Out := .next (s.regW m 0x007060 fun s => s.tmpRearm m)

end Sys2Proof.Machine
end

