-- ==== Sys2Proof/Machine/Stencil.lean ====
section
/-! DEFINITION. The commands of chapter "Stencil filtering and flash-side ports" that the managers write through CHn_STN and
FPn, and the events of buckets, discovery, local operations and hold instants. -/

namespace Sys2Proof.Machine

/-- The arbiter slot of a SHD_CTRL.COMMIT of CHn_STN, pending from a write of the register or made with this command; `rival`: the other
manager's commit meets the same slot (R63, R65, R67). -/
def execShdCommit (m : Mgr) (n : Fin 128) (rival : Bool) (s : State) : Out :=
  .next (s.regW m (chanPage n 1 + 0x020) fun s => s.commitSlot m n rival)

/-- SHD_CTRL.DISCARD of CHn_STN (R63, R246). -/
def execShdDiscard (m : Mgr) (n : Fin 128) (s : State) : Out :=
  .next (s.regW m (chanPage n 1 + 0x020) fun s => (s.discardShadow m n).shdResult m n 6 0)

/-- REQ = ENTER_RECOVERY; `rival`: the other manager requests EXIT_RECOVERY in the same slot, which wins (R53, R65). -/
def execEnterRecovery (m : Mgr) (n : Fin 128) (rival : Bool) (s : State) : Out :=
  .next (s.regW m (chanPage n 1 + 0x048) fun s =>
    if rival then (s.exitPhase m.other n).reqResult m n 3 else s.enterPhase m n)

/-- REQ = EXIT_RECOVERY; `rival`: the other manager's ENTER_RECOVERY receives SUPERSEDED (R53, R65). -/
def execExitRecovery (m : Mgr) (n : Fin 128) (rival : Bool) (s : State) : Out :=
  .next (s.regW m (chanPage n 1 + 0x048) fun s =>
    if rival then (s.exitPhase m n).reqResult m.other n 3 else s.exitPhase m n)

/-- When a bucket's interval ends, while it is not full (R60). -/
def Bucket.due (img : Word) (b : Bucket) : Option Nat :=
  match b.start with
  | some t => if bktOn img ∧ b.tokens.toNat < bktDepth img then some (t + bktNs img) else none
  | none => none

/-- A bucket after a whole interval has run, at its end `t` (R60). -/
def Bucket.refill (img : Word) (t : Nat) (b : Bucket) : Bucket :=
  { tokens := b.tokens + 1, start := if b.tokens.toNat + 1 < bktDepth img then some t else none }

/-- A bucket gains one token when its interval has run (R60). -/
def execBucketRefill (n : Fin 128) (w : Fin 32) (erase : Bool) (s : State) : Out :=
  .next (let img := (s.st n).tbl.bucketImg w erase
    match (vget (if erase then (s.st n).eTok else (s.st n).pTok) w).due img with
    | some d => (s.until d).modStn n fun t =>
      if erase then { t with eTok := vmod t.eTok w (Bucket.refill img d) } else { t with pTok := vmod t.pTok w (Bucket.refill img d) }
    | none => s)

/-- FPn_CTRL.REDISCOVER: ignored unless channel n is HELD (R70). -/
def execFpRediscover (m : Mgr) (f : Fin 64) (s : State) : Out :=
  .next (s.regW m (fpPage f + 0x06C) fun s => match fin? 128 f.1 with
      | some n => if (s.ch n).state = .held then s.startDiscovery f else s.ignoredWrite m (fpPage f + 0x06C)
      | none => s)

/-- Discovery of a local flash ends (R70). -/
def execFpDiscovery (f : Fin 64) (rep : DiscReport) (s : State) : Out :=
  .next (if (s.fp f).state = 1 then s.endDiscovery f rep else s)

/-- FPn_CTRL.ERRCLR (R70). -/
def execFpErrclr (m : Mgr) (f : Fin 64) (s : State) : Out :=
  .next (s.regW m (fpPage f + 0x06C) fun s => s.modFp f fun x => { x with wipTimeouts := 0, localFails := 0, discFails := 0 })

/-- The host's part of the end of a forwarded operation: its WIP clears, and a failure sets its flag alone (R75). -/
def State.endForwarded (s : State) (f : Fin 64) (o : LocalOp) (failed : Bool) : State :=
  match fin? 128 f.1, o.host with
  | some n, true =>
    let burst := (s.port n).burstOpen
    (s.modPort n fun p =>
      { p with op := match p.op with | some (.forwarded _) => none | x => x,
               eraseFail := p.eraseFail || (failed && o.erase), programFail := p.programFail || (failed && !o.erase) }).modStn n
      fun t => { t with oldCmd := t.oldCmd && burst }
  | _, _ => s

/-- The local flash reports the end of its program or erase (R75). -/
def execLocalOpComplete (f : Fin 64) (failed : Bool) (s : State) : Out :=
  .next (match (s.fp f).localOp with
    | some o =>
      (s.modFp f fun x => { x with localOp := none, localFails := if failed then satInc x.localFails else x.localFails }).endForwarded f o failed
    | none => s)

/-- The local WIP outlasts its bound (R73, R75): the fail flag, the count, and a rediscovery. -/
def execLocalWipTimeout (f : Fin 64) (s : State) : Out :=
  .next (match (s.fp f).localOp with
    | some o =>
      let s := ((s.until (o.start + o.bound)).endForwarded f o true).startDiscovery f
      s.modFp f fun x => { x with fault := 8, wipTimeouts := satInc x.wipTimeouts }
    | none => s)

/-- HOLD# sinks once no local operation keeps it waiting (R130). -/
def execHoldInstant (n : Fin 128) (s : State) : Out :=
  .next (if (s.ch n).holdWait && !s.localBusy n then s.reachHold n else s)

/-- CHn_STN_CNTCLR.CLEAR. -/
def execStnCntclr (m : Mgr) (n : Fin 128) (v : Word) (s : State) : Out :=
  .next (s.regW m (chanPage n 1 + 0x060) fun s => if v.getLsbD 0 then
    s.modStn n fun t => { t with deniedRead := 0, protectedCnt := 0, ruleDeny := 0, bucketCnt := 0, supplyCnt := 0, passOther := 0 }
  else s)

end Sys2Proof.Machine
end

