-- ==== Sys2Proof/Machine/Watchdogs.lean ====
section
/-! DEFINITION. The commands and events of chapter "Challenge watchdogs": channel watchdogs, manager watchdogs, the internal ladder,
the main clock, the control cluster's return and the debugger. -/

namespace Sys2Proof.Machine

/-! ## Channel watchdogs -/

/-- c reaches CLOSE_EFF: an expiry with cause CLOSE (R148, R156). None while the main clock is absent (R165). -/
def execWdgClose (n : Fin 128) (s : State) : Out :=
  .next (let w := s.wd n
    if w.armed && s.watching n && !s.dev.clockHeld then (s.until (s.wdgDue w)).expire n .close else s)

/-- The clock-stop monitor trips (R146): an expiry of a counting watchdog; a fault, once per release, of one that does not count; nothing
while it is frozen. In STANDBY a trip wakes the device (R166). -/
def execWdgClockStop (n : Fin 128) (s : State) : Out :=
  .next (let w := s.wd n
    if !w.armed || s.dev.clockHeld || w.frozen.isSome then s
    else if w.counting then s.expire n .clockLost
    else if w.clkFault then s
    else ((s.modWdg n fun w => { w with clkFault := true }).raise 0x0205 n.1 [bval w.clksel]).wakeUp)

/-- A write of CHn_WDG_CFG (R154): read-only under AUTO and once armed. -/
def execWdgCfgWrite (m : Mgr) (n : Fin 128) (v : Word) (s : State) : Out :=
  .next (s.regW m (chanPage n 2 + 0x040) fun s =>
    let w := (s.wd n).withCfg v
    if w.auto || w.armed || (v.getLsbD 0 && s.armRefused n w) then s.ignoredWrite m (chanPage n 2 + 0x040)
    else
      let s := s.modWdg n fun _ => w
      if v.getLsbD 0 then s.armByWrite n else s)

/-- A write of CHn_WDG_WIN (R147, R154). -/
def execWdgWinWrite (m : Mgr) (n : Fin 128) (v : Word) (s : State) : Out :=
  .next (s.regW m (chanPage n 2 + 0x044) fun s =>
    let w := s.wd n
    if w.auto || w.armed || !windowOk (field v.toNat 15 0) (field v.toNat 31 16) then s.ignoredWrite m (chanPage n 2 + 0x044)
    else s.modWdg n fun w => { w with open_ := BitVec.ofNat 16 (field v.toNat 15 0), close_ := BitVec.ofNat 16 (field v.toNat 31 16) })

/-- CHn_WDG_CTRL.FREEZE (R168): a loosening, of a counting watchdog whose policy sets DEBUG. -/
def execWdgFreeze (m : Mgr) (n : Fin 128) (s : State) : Out :=
  .next (s.regW m (chanPage n 2 + 0x084) fun s =>
    if !(s.polOf n).wdg.debug || s.isSecondary m || !s.watching n then s.ignoredWrite m (chanPage n 2 + 0x084)
    else
      let s := s.modWdg n fun w => { w with frozen := some (s.wdgTicks w) }
      (s.raise 0x0206 n.1 [1, mgrNum m]).log 0x0030 n.1 [4, 1, mgrNum m])

/-- CHn_WDG_CTRL.THAW (R168): c resumes where it stopped, from the next tick edge. -/
def execWdgThaw (m : Mgr) (n : Fin 128) (s : State) : Out :=
  .next (s.regW m (chanPage n 2 + 0x084) fun s =>
    match (s.wd n).frozen with
    | none => s.ignoredWrite m (chanPage n 2 + 0x084)
    | some ticks =>
      let s := s.modWdg n fun w => { w with frozen := none, base := ticks, ref := s.nextEdge }
      (s.raise 0x0206 n.1 [0, mgrNum m]).log 0x0030 n.1 [4, 0, mgrNum m])

/-- CLEAN_MIN minutes since one release instant without an expiry clear CONSEC (R159). -/
def execCleanRun (n : Fin 128) (s : State) : Out :=
  .next (if (s.ch n).released && (s.wd n).shown.consec ≠ 0 then
      (s.until ((s.ch n).relT + (s.polOf n).wdg.cleanMin.toNat * 60 * second)).clearConsec n
    else s)

/-! ## Manager watchdogs -/

/-- An expiry that has made a manager lost wakes the device from STANDBY (R166). -/
def State.wakeIfLost (s : State) (m : Mgr) (was : Bool) : State := if (s.mwd.get m).lost && !was then s.wakeUp else s

/-- A write of MWD_MGR_TOKEN_HI: the service, or the reclaim (R160, R161). -/
def execMwdToken (m : Mgr) (hi : Word) (s : State) : Out :=
  .next (s.regW m 0x00C060 fun s => (s.mwdService m (hi ++ (s.mwd.get m).tokenLo)).wakeIfLost m (s.mwd.get m).lost)

/-- A write of MWD_MGR_CFG (R160): locked once armed; an arming write with a window that is not valid is ignored (R147). -/
def execMwdCfgWrite (m : Mgr) (v : Word) (s : State) : Out :=
  .next (s.regW m 0x00C040 fun s =>
    let w := s.mwd.get m
    if w.armed || (v.getLsbD 0 && !windowOk w.open_.toNat w.close_.toNat) then s.ignoredWrite m 0x00C040
    else
      let s := s.modMwd m fun w => w.withCfg v
      if v.getLsbD 0 then s.mwdArm m else s)

/-- A write of MWD_MGR_WIN (R160, R147). -/
def execMwdWinWrite (m : Mgr) (v : Word) (s : State) : Out :=
  .next (s.regW m 0x00C044 fun s =>
    if (s.mwd.get m).armed || !windowOk (field v.toNat 15 0) (field v.toNat 31 16) then s.ignoredWrite m 0x00C044
    else s.modMwd m fun w =>
      { w with open_ := BitVec.ofNat 16 (field v.toNat 15 0), close_ := BitVec.ofNat 16 (field v.toNat 31 16) })

/-- A manager watchdog's count reaches CLOSE (R161); it wakes the device from STANDBY (R166). -/
def execMwdExpiry (m : Mgr) (s : State) : Out :=
  .next (let w := s.mwd.get m
    if s.mgrOn m && !s.dev.clockHeld && w.armed && !w.lost then
      ((s.until (1000 * (w.ref + w.close_.toNat * 2 ^ w.prescale.toNat))).mwdExpire m).wakeIfLost m w.lost
    else s)

/-! ## The internal ladder (R163-R165) -/

/-- The control-cluster watchdog expires (R164); it stops for a debugger, and in STANDBY its limit is STBY_S and an ordinary wake (R166,
R167). -/
def execCcWatchdogExpiry (s : State) : Out :=
  .next (if !s.clusterRuns || s.intw.halted then s
    else if s.dev.state = .standby then (s.until (s.dev.standbySince + s.dcfg.stbyS * second)).wakeUp
    else s.internalExpiry 1 true)

/-- A lockstep pair disagrees (R12). -/
def execLockstepMismatch (_pair : Fin 4) (s : State) : Out :=
  .next (if s.clusterRuns then s.internalExpiry 2 true else s)

/-- The main clock is lost (R165): every HOLD# sinks, FAIL# is asserted, and the device is held in warm reset. -/
def execMainClockLoss (s : State) : Out :=
  .next (if s.dev.state = .por then s
    else
      let s := s.warmInto (some 4) .por
      let at_ := if s.dev.clockHeld then s.dev.clockLostAt else s.now
      State.assertFail { s with dev := { s.dev with clockHeld := true, clockLostAt := at_ } })

/-- MAIN ticks again: the manager watchdogs have counted none meanwhile (R160). -/
def State.resumeMain (s : State) : State :=
  let lost := (s.now - s.dev.clockLostAt) / 1000
  { s with mwd := { a := { s.mwd.a with ref := s.mwd.a.ref + lost }, b := { s.mwd.b with ref := s.mwd.b.ref + lost } } }

/-- The clock has been stable for 1 ms (R165): counted with cause MAIN_CLOCK; the warm reset proceeds, as step 2, or as step 3: its start
ends in SAFE_HOLD. -/
def execMainClockReturn (s : State) : Out :=
  .next (if !s.dev.clockHeld then s
    else
      let s := s.resumeMain.countInternal 6
      let step := if s.dcfg.tries ≤ s.intw.consec.toNat then 3 else 2
      let s := s.noteStep 6 step
      let s := { s with dev := { s.dev with clockHeld := false, safeLatch := s.dev.safeLatch || step = 3 } }
      let s := s.setDev .shadow
      if s.dev.safeLatch then s else { s with plat := { s.plat with failOn := false, failUntil := none } })

/-- CLEAN_S seconds of RUNNING without an internal expiry clear CONSEC_INT (R164). -/
def execIntClean (s : State) : Out :=
  .next (if s.dev.state = .running then
      let s := s.until (max s.dev.runSince s.intw.cleanFrom + s.dcfg.cleanS * second)
      { s with intw := { s.intw with consec := 0 } }
    else s)

/-- MWD_INT_CTRL.CNTCLR (R164): a loosening. -/
def execMwdCntclr (m : Mgr) (s : State) : Out :=
  .next (s.regW m 0x00C088 fun s =>
    if s.isSecondary m then s.ignoredWrite m 0x00C088 else { s with intw := { s.intw with consec := 0 } })

/-! ## The control cluster returns (R16-R18) -/

/-- Every latched mailbox write with its channel, in order of its device time. -/
def State.latchedWrites (s : State) : List (Fin 128 × Latched) :=
  ordered (fun a b => a.2.time ≤ b.2.time) ((List.finRange 128).flatMap fun n => (s.mb n).latched.map fun x => (n, x))

/-- The control cluster returns: latched mailbox writes by time, the channels held under R17, the orders, commits and selections that
waited; a proof of the device firmware begins (R123). -/
def execCcRestartDone (s : State) : Out :=
  .next (if !s.dev.ccAbsent then s
    else
      let s := { s with dev := { s.dev with ccAbsent := false } }
      let l := s.latchedWrites
      let s := s.forChans fun n s => s.modMbx n fun b => { b with latched := [] }
      let s := s.forAll l fun x s => s.processLatched x.1 x.2
      let s := s.settleAll
      let s := (s.forChans fun n s => if (s.ch n).released then s else s.applyDeferred n).flushLedger.settleAll.completeAdvances
      let s := (s.resumeCommits.forChans fun n s => s.resumeHeld n).waitedOrders.dispatchJobs
      if s.devfw.onProof && s.devfw.deadline.isNone then { s with devfw := { s.devfw with deadline := some (s.now + 60 * second) } } else s)

/-! ## Debugger (R167) -/

/-- A debugger halts a core of the cluster, which only DEV with the debug fuse allows. -/
def execDebuggerHalt (s : State) : Out := .next (if s.debugOn then { s with intw := { s.intw with halted := true } } else s)

/-- The debugger lets the cluster run. -/
def execDebuggerResume (s : State) : Out := .next { s with intw := { s.intw with halted := false } }

end Sys2Proof.Machine
end

