-- ==== Sys2Proof/Machine/PageOps.lean ====
section
/-! DEFINITION. Writes of the register pages by offset (R11, R241-R252): the common header, the registers that have no row of their own, and,
for the others, the meaning of their row. -/

namespace Sys2Proof.Machine

/-- What a meaning leaves. -/
def State.after (s : State) (f : State → Out) : State := match f s with | .next t => t | .fault _ | .refused _ => s

/-! ## Header commands of one view (R245, R249) -/

/-- The BAR0 offset of a page, by number. -/
def pageBase (page : Nat) : Nat := 4096 * page

/-- Change the header of a page by number. -/
def State.onHdr (s : State) (m : Mgr) (page : Nat) (f : Hdr → Hdr) : State :=
  match fin? 1024 page with | some p => s.modHdr m p f | none => s

/-- IRQ_CLR: bit 0 clears ERR_INFO [1:0], bit 1 clears SHD_DONE. -/
def State.irqClear (s : State) (m : Mgr) (page : Nat) (v : Word) : State :=
  s.onHdr m page fun h =>
    { h with ignored := h.ignored && !v.getLsbD 0, size := h.size && !v.getLsbD 0, shdDone := h.shdDone && !v.getLsbD 1 }

/-- ERR_INFO, W1C. -/
def State.errClear (s : State) (m : Mgr) (page : Nat) (v : Word) : State :=
  s.onHdr m page fun h => { h with ignored := h.ignored && !v.getLsbD 0, size := h.size && !v.getLsbD 1 }

/-- LOCK (R249): a manager's write is ignored on every page; on CHn_WDG and MWD only arming sets it. -/
def State.lockWritten (s : State) (m : Mgr) (page : Nat) : State := s.ignoredWrite m (pageBase page + 0x028)

/-- SHD_CTRL of a page (R246). -/
def State.shdWrite (s : State) (m : Mgr) (off : Nat) (a : Area) (v : Word) : State :=
  match a with
  | .chan n j =>
    if (v.getLsbD 0 && v.getLsbD 1) || (j ≠ 1 && (v.getLsbD 0 || v.getLsbD 1)) then s.ignoredWrite m off
    else if v.getLsbD 0 then s.requestCommit m n
    else if v.getLsbD 1 then s.after (execShdDiscard m n)
    else s
  | .global _ | .fp _ | .pool _ | .doorbell | .msix | .unmapped =>
    if v.getLsbD 0 || v.getLsbD 1 then s.ignoredWrite m off else s

/-- A header register of the page at `off`, offset o. -/
def State.headerWrite (s : State) (m : Mgr) (off : Nat) (a : Area) (o : Nat) (v : Word) : State :=
  let page := off / 4096
  match o with
  | 0x008 => s.onHdr m page fun h => { h with view := v.getLsbD 0 }
  | 0x014 => s.onHdr m page fun h => { h with irqEn := BitVec.ofNat 2 v.toNat }
  | 0x01C => s.irqClear m page v
  | 0x020 => s.shdWrite m off a v
  | 0x028 => s.lockWritten m page
  | 0x02C => s.errClear m page v
  | _ => s.ignoredWrite m off

/-! ## RWS registers (R63) -/

/-- A write to this manager's shadow: the register's fields are marked as written. -/
def State.shadowWrite (s : State) (m : Mgr) (n : Fin 128) (g : SReg) (v : Word) : State :=
  s.modStn n fun t =>
    let sh := t.shadow.get m
    let o := g.off
    let new : Shadow := { tbl := sh.tbl.put g (g.clean v), marks := if sh.marks.contains o then sh.marks else sh.marks ++ [o] }
    { t with shadow := t.shadow.set m new }

/-! ## Global pages -/

/-- A view's held low word of a 64-bit register (R242). -/
def State.holdLow (s : State) (m : Mgr) (off : Nat) (v : Word) : State :=
  s.modView m fun x => { x with held := SMap.put x.held off v }

/-- The 64-bit value that a write of a high word completes: the held low word, or the low word in force. -/
def State.joined (s : State) (m : Mgr) (lowOff : Nat) (low : Nat) (hi : Word) : DWord :=
  hi ++ (SMap.get? (s.view m).held lowOff).getD (BitVec.ofNat 32 low)

/-- RNG index 0: the admin queue registers are writable only while EN = 0. -/
def State.rngWrite (s : State) (m : Mgr) (off o : Nat) (v : Word) : State :=
  let r := s.ring m
  let whenOff := fun (f : State → State) => if r.en then s.ignoredWrite m off else f s
  match o with
  | 0x040 => if v.getLsbD 0 then s.modRing m Ring.enable else if r.en then s.disableHalf m else s
  | 0x048 => whenOff fun s => s.modRing m fun r =>
      { r with asqDepth := BitVec.ofNat 13 (field v.toNat 12 0), acqDepth := BitVec.ofNat 13 (field v.toNat 28 16) }
  | 0x04C | 0x054 => whenOff fun s => s.holdLow m off v
  | 0x050 => whenOff fun s => s.modRing m fun r => { r with asq := s.joined m (off - 4) (loWord r.asq.toNat) v }
  | 0x058 => whenOff fun s => s.modRing m fun r => { r with acq := s.joined m (off - 4) (loWord r.acq.toNat) v }
  | 0x068 => if v.getLsbD 0 then s.modRing m fun r =>
        { r with dbIgnored := 0, badEntry := 0, dmaErr := 0, errQid := 0, errSq := false, errReason := 0 }
      else s
  | _ => s.ignoredWrite m off

/-- ATT. -/
def State.attWrite (s : State) (m : Mgr) (off o : Nat) (v : Word) : State :=
  match o with
  | 0x068 => s.holdLow m off v
  | 0x06C => s.after (execAttWallWrite m v none)
  | 0x0F0 => s.after (execAttExtGo m ⟨v, none, []⟩)
  | 0x0F4 => s.modAttView m fun x => { x with extRelt := v }
  | _ => match (regIndex o 0x0C0 4 12).bind (fin? 12) with
    | some w => s.modAttView m fun x => { x with extData := vset x.extData w v }
    | none => s.ignoredWrite m off

/-- MWD. -/
def State.mwdWrite (s : State) (m : Mgr) (off o : Nat) (v : Word) : State :=
  match o with
  | 0x040 => s.after (execMwdCfgWrite m v)
  | 0x044 => s.after (execMwdWinWrite m v)
  | 0x05C => s.modMwd m fun w => { w with tokenLo := v }
  | 0x060 => s.after (execMwdToken m v)
  | 0x088 => if v.getLsbD 0 then s.after (execMwdCntclr m) else s
  | _ => s.ignoredWrite m off

/-- BURk_CTRL. RETURN and the others act each through its row. -/
def State.burWrite (s : State) (m : Mgr) (k : Fin 4) (off o : Nat) (v : Word) : State :=
  if o ≠ 0x054 then s.ignoredWrite m off
  else
    let s := if v.getLsbD 0 then s.after (execBurTakeOut m k) else s
    let s := if v.getLsbD 1 then s.after (execBurReturn m k) else s
    if v.getLsbD 2 then s.after (execBurCntclr m k) else s

/-- IMM. -/
def State.immWrite (s : State) (m : Mgr) (off o : Nat) (v : Word) : State :=
  match o with
  | 0x04C => s.after (execPatrolPause m v)
  | 0x05C => { s with imm := { s.imm with tfLimit := BitVec.ofNat 16 (field v.toNat 15 0), tfAction := v.getLsbD 16 } }
  | 0x060 => { s with imm := { s.imm with dirSel := BitVec.ofNat 8 v.toNat } }
  | _ => s.ignoredWrite m off

/-- FCA_CTRL. -/
def State.fcaWrite (s : State) (m : Mgr) (off o : Nat) (v : Word) : State :=
  if o ≠ 0x050 then s.ignoredWrite m off
  else
    let s := if v.getLsbD 0 then s.after (execFcaFlush m) else s
    if v.getLsbD 1 then s.after (execFcaCntclr m) else s

/-- TMP_CTRL: CLEAR, then REARM. -/
def State.tmpWrite (s : State) (m : Mgr) (off o : Nat) (v : Word) : State :=
  if o ≠ 0x060 then s.ignoredWrite m off
  else
    let s := if v.getLsbD 0 then s.tmpClear m else s
    if v.getLsbD 1 then s.tmpRearm m else s

/-- PWR. -/
def State.pwrWrite (s : State) (m : Mgr) (off o : Nat) (v : Word) : State :=
  match o with
  | 0x048 => { s with power := { s.power with seen := s.power.seen &&& ~~~(BitVec.ofNat 21 v.toNat) } }
  | 0x04C => { s with power := { s.power with sel := BitVec.ofNat 8 (field v.toNat 4 0) } }
  | _ => s.ignoredWrite m off

/-- A register of global page k beyond the header. RETEST of DRB_CTRL needs the test's outcome: it acts through its row. -/
def State.globalWrite (s : State) (m : Mgr) (k off o : Nat) (v : Word) : State :=
  match k, o with
  | 0x00, 0x064 => s.modView m fun x => { x with irqVector := BitVec.ofNat 9 v.toNat, irqEn := v.getLsbD 31 }
  | 0x01, _ => s.pwrWrite m off o v
  | 0x03, 0x040 => { s with power := { s.power with calSel := BitVec.ofNat 8 (field v.toNat 4 0) } }
  | 0x04, 0x050 => { s with otp := { s.otp with pumpOnly := v.getLsbD 0 } }
  | 0x06, 0x04C => { s with keys := { s.keys with sel := BitVec.ofNat 8 v.toNat } }
  | 0x07, _ => s.tmpWrite m off o v
  | 0x09, _ => s.rngWrite m off o v
  | 0x0A, 0x040 => s.modRing m fun r => { r with qselQid := BitVec.ofNat 8 v.toNat, qselCq := v.getLsbD 8 }
  | 0x0B, 0x048 => if v.getLsbD 0 then s.modRing m fun r => { r with evtLost := 0 } else s
  | 0x0C, _ => s.mwdWrite m off o v
  | 0x0D, 0x044 => s.after (execTwlForce m v)
  | 0x0D, 0x048 => s.after (execTwlPulse m v)
  | 0x0E, _ => s.attWrite m off o v
  | 0x0F, 0x04C => s
  | 0x10, _ => s.burWrite m 0 off o v
  | 0x11, _ => s.burWrite m 1 off o v
  | 0x12, _ => s.burWrite m 2 off o v
  | 0x13, _ => s.burWrite m 3 off o v
  | 0x14, 0x04C => { s with farm := { s.farm with intervalS := BitVec.ofNat 8 (clampTo 10 255 (field v.toNat 7 0)) } }
  | 0x15, _ => s.immWrite m off o v
  | 0x16, _ => s.fcaWrite m off o v
  | 0x17, 0x04C => { s with pool := { s.pool with
      eccDays := BitVec.ofNat 8 (clampTo 1 30 (field v.toNat 7 0)), auditDays := BitVec.ofNat 8 (clampTo 1 90 (field v.toNat 15 8)) } }
  | _, _ => s.ignoredWrite m off

/-! ## Channel, port and pool pages -/

/-- CHn_CTL_ORDER (R137). -/
def State.ctlWrite (s : State) (m : Mgr) (n : Fin 128) (off o : Nat) (v : Word) : State :=
  if o ≠ 0x060 then s.ignoredWrite m off
  else match field v.toNat 2 0 with
    | 1 => s.after (execCtlOrderHold m n none)
    | 2 => s.after (execCtlOrderRelease m n ⟨none, false⟩)
    | 3 => s.after (execCtlOrderQuarantine m n none)
    | 4 => s.after (execCtlOrderReadmit m n none)
    | 5 => s.after (execCtlOrderRestart m n none)
    | _ => s.ignoredWrite m off

/-- CHn_STN. -/
def State.stnWrite (s : State) (m : Mgr) (n : Fin 128) (off o : Nat) (v : Word) : State :=
  match sregOf o with
  | some g => s.shadowWrite m n g v
  | none => match o with
    | 0x048 => (match field v.toNat 9 8 with
      | 1 => s.after (execEnterRecovery m n false)
      | 2 => s.after (execExitRecovery m n false)
      | _ => s.ignoredWrite m off)
    | 0x060 => s.after (execStnCntclr m n v)
    | _ => s.ignoredWrite m off

/-- CHn_WDG. -/
def State.wdgWrite (s : State) (m : Mgr) (n : Fin 128) (off o : Nat) (v : Word) : State :=
  match o with
  | 0x040 => s.after (execWdgCfgWrite m n v)
  | 0x044 => s.after (execWdgWinWrite m n v)
  | 0x084 =>
    let s := if v.getLsbD 0 then s.after (execWdgFreeze m n) else s
    if v.getLsbD 1 then s.after (execWdgThaw m n) else s
  | _ => s.ignoredWrite m off

/-- CHn_MBX: ERRCLR alone is writable. -/
def State.mbxWrite (s : State) (m : Mgr) (n : Fin 128) (off o : Nat) (v : Word) : State :=
  if o ≠ 0x04C then s.ignoredWrite m off
  else if v.getLsbD 0 then s.modPort n fun p => { p with shortDummy := 0, undecoded := 0, ignored := 0, boundary := 0 }
  else s

/-- FPn_CTRL. -/
def State.fpWrite (s : State) (m : Mgr) (f : Fin 64) (off o : Nat) (v : Word) : State :=
  if o ≠ 0x06C then s.ignoredWrite m off
  else
    let s := if v.getLsbD 0 then s.after (execFpRediscover m f) else s
    if v.getLsbD 1 then s.after (execFpErrclr m f) else s

/-- POLk_CTRL. RETURN needs the retraining's outcome: a write here only meets its refusal. -/
def State.polWrite (s : State) (m : Mgr) (k : Fin 16) (off o : Nat) (v : Word) : State :=
  if o ≠ 0x050 then s.ignoredWrite m off
  else
    let s := if v.getLsbD 0 then s.after (execPolTakeOut m k) else s
    if v.getLsbD 1 && (vget s.pool.chans k).state ≠ 3 then s.ignoredWrite m off else s

/-! ## MSI-X and doorbells (R251, R252) -/

/-- A word of the MSI-X table; the pending-bit array is read-only. Unmasking a vector whose bit is pending sends it. -/
def View.msixWrite (x : View) (o : Nat) (v : Word) : View :=
  if 0x2000 ≤ o then x
  else
    let k := o / 16
    let e := (SMap.get? x.msix k).getD MsixEntry.fresh
    match o % 16 with
    | 0 => { x with msix := SMap.put x.msix k { e with addr := BitVec.ofNat 64 (hiWord e.addr.toNat * 2 ^ 32 + v.toNat) } }
    | 4 => { x with msix := SMap.put x.msix k { e with addr := BitVec.ofNat 64 (v.toNat * 2 ^ 32 + loWord e.addr.toNat) } }
    | 8 => { x with msix := SMap.put x.msix k { e with data := v } }
    | _ => View.flushMsix { x with msix := SMap.put x.msix k { e with masked := v.getLsbD 0 } }

/-- A doorbell: offsets from 0x800 on are ignored. -/
def State.doorbellWrite (s : State) (m : Mgr) (o : Nat) (v : Word) : State :=
  if 0x800 ≤ o then s
  else if o % 8 = 0 then s.modRing m fun r => r.tailDoorbell s.now (BitVec.ofNat 8 (o / 8)) v (v.getLsbD 31)
  else s.modRing m fun r => r.headDoorbell (BitVec.ofNat 8 (o / 8)) v

/-! ## The whole map -/

/-- A write at a BAR0 offset that responds. -/
def State.writeAt (s : State) (m : Mgr) (off : Nat) (v : Word) : State :=
  let o := off % 4096
  let a := areaAt off
  match a with
  | .doorbell => s.doorbellWrite m o v
  | .msix => s.modView m fun x => x.msixWrite (off - 0x410000) v
  | .unmapped => s
  | .chan n j =>
    if o < 0x040 then s.headerWrite m off a o v
    else match j with
      | 0 => s.ctlWrite m n off o v
      | 1 => s.stnWrite m n off o v
      | 2 => s.wdgWrite m n off o v
      | 3 => s.mbxWrite m n off o v
  | .fp f => if o < 0x040 then s.headerWrite m off a o v else s.fpWrite m f off o v
  | .pool k => if o < 0x040 then s.headerWrite m off a o v else s.polWrite m k off o v
  | .global k => if o < 0x040 then s.headerWrite m off a o v else s.globalWrite m k off o v

/-- An access of the wrong size or alignment (R241): it reads zero, counts, and sets ERR_INFO bit 1 of the page concerned. -/
def State.badAccess (s : State) (m : Mgr) (off : Nat) : State :=
  let s := s.modView m fun x => { x with sizeErr := satInc x.sizeErr, readValue := 0 }
  if s.mapped off then s.onHdr m (off / 4096) fun h => { h with size := true, errOffset := BitVec.ofNat 12 (off % 4096) }
  else s.countUnmapped m

/-- A 32-bit write: misaligned ones are of the wrong alignment, and nothing responds at an unmapped offset. -/
def State.barWrite (s : State) (m : Mgr) (off : Nat) (v : Word) : State :=
  if off % 4 ≠ 0 then s.badAccess m off else if s.mapped off then s.writeAt m off v else s.countUnmapped m

/-- A 32-bit read: the value goes to the reader; a low word latches its high word (R242). -/
def State.barRead (s : State) (m : Mgr) (off : Nat) : State :=
  if off % 4 ≠ 0 then s.badAccess m off
  else if s.mapped off then
    let s := if isLowWord off then
        s.modView m fun x => { x with latch := SMap.put x.latch (off + 4) (BitVec.ofNat 32 (s.liveReg m (off + 4))) }
      else s
    s.modView m fun x => { x with readValue := s.regRead m off }
  else (s.countUnmapped m).modView m fun x => { x with readValue := 0 }

end Sys2Proof.Machine
end

