-- ==== Sys2Proof/Machine/Pages.lean ====
section
/-! DEFINITION. The register pages' own commands (chapter "Register pages"). -/

namespace Sys2Proof.Machine

/-- A write of a register of BAR0 (R11). -/
def execRegisterWrite (m : Mgr) (offset : Nat) (v : Word) (s : State) : Out := .next (if s.barOpen m then s.barWrite m offset v else s)

/-- An access of the wrong size or alignment (R241). -/
def execBar0BadAccess (m : Mgr) (offset : Nat) (s : State) : Out := .next (if s.barOpen m then s.badAccess m offset else s)

/-- An access to an unmapped offset or to a page that is absent (R241); one that responds is not this command's. -/
def execBar0UnmappedAccess (m : Mgr) (offset : Nat) (s : State) : Out :=
  .next (if s.barOpen m && !s.mapped offset then (s.countUnmapped m).modView m fun x => { x with readValue := 0 } else s)

/-- A read, of the low word of a 64-bit value or of any other register (R241, R242). -/
def execLowWordRead (m : Mgr) (offset : Nat) (s : State) : Out := .next (if s.barOpen m then s.barRead m offset else s)

/-- A write of LOCK (R249). -/
def execLockWrite (m : Mgr) (page : Nat) (_v : Word) (s : State) : Out :=
  .next (s.regW m (pageBase page + 0x028) fun s => s.lockWritten m page)

/-- A write of IRQ_CLR (R245). -/
def execIrqClr (m : Mgr) (page : Nat) (v : Word) (s : State) : Out :=
  .next (s.regW m (pageBase page + 0x01C) fun s => s.irqClear m page v)

/-- A write of ERR_INFO (R245). -/
def execErrInfoClear (m : Mgr) (page : Nat) (v : Word) (s : State) : Out :=
  .next (s.regW m (pageBase page + 0x02C) fun s => s.errClear m page v)

/-- A write of CHn_MBX_ERRCLR. -/
def execMbxErrclr (m : Mgr) (n : Fin 128) (v : Word) (s : State) : Out :=
  .next (s.regW m (chanPage n 3 + 0x04C) fun s => s.mbxWrite m n (chanPage n 3 + 0x04C) 0x04C v)

/-- A write of EVT_CTRL (R221). -/
def execEvtLostclr (m : Mgr) (v : Word) (s : State) : Out :=
  .next (s.regW m 0x00B048 fun s => s.globalWrite m 0x0B 0x00B048 0x048 v)

/-- A write of RNG_ERRCLR (R214). -/
def execRngErrclr (m : Mgr) (v : Word) (s : State) : Out := .next (s.regW m 0x009068 fun s => s.rngWrite m 0x009068 0x068 v)

/-- A write of PWR_SEEN (R299). -/
def execPwrSeenClear (m : Mgr) (v : Word) (s : State) : Out := .next (s.regW m 0x001048 fun s => s.pwrWrite m 0x001048 0x048 v)

/-- A register of the configuration space as a read shows it (R240): the MSI-X capability names BAR0 and the offsets of its structures. -/
def PciCfg.read (c : PciCfg) : CfgReg → Word
  | .id => BitVec.ofNat 32 (Config.pciVendor.toNat + 65536 * Config.pciDevice.toNat)
  | .commandStatus => BitVec.ofNat 32 (c.command.toNat + 65536 * c.status.toNat)
  | .bar0Lo => BitVec.ofNat 32 (loWord c.bar.toNat + 4)
  | .bar0Hi => BitVec.ofNat 32 (hiWord c.bar.toNat)
  | .devCtl2 => c.devCtl2.zeroExtend 32
  | .powerState => if c.d3 then 3 else 0
  | .msixControl => BitVec.ofNat 32 (pack [(0, 511), (14, bval c.msixMask), (15, bval c.msixEn)])
  | .msixTable => 0x00410000
  | .msixPba => 0x00412000
  | .aerUncor => c.aerUncor
  | .other off => Config.pciConfig off

/-- A write of a register of the configuration space: BAR0 is 64-bit, non-prefetchable, of 8 MiB (R240); Command keeps the bits that a function
without I/O space has; Status and the error status clear by ones. PRESUMED (log entry 96) from PCIe Base 5.0. -/
def PciCfg.write (c : PciCfg) (v : Word) : CfgReg → PciCfg
  | .commandStatus => { c with command := v.truncate 16 &&& 0x0546, status := c.status &&& ~~~((v >>> 16).truncate 16) }
  | .bar0Lo => { c with bar := BitVec.ofNat 64 (4294967296 * hiWord c.bar.toNat + (v &&& 0xFF800000).toNat) }
  | .bar0Hi => { c with bar := BitVec.ofNat 64 (4294967296 * v.toNat + loWord c.bar.toNat) }
  | .devCtl2 => { c with devCtl2 := v.truncate 16 }
  | .powerState => { c with d3 := if v.toNat % 4 = 3 then true else if v.toNat % 4 = 0 then false else c.d3 }
  | .msixControl => { c with msixEn := v.getLsbD 15, msixMask := v.getLsbD 14 }
  | .aerUncor => { c with aerUncor := c.aerUncor &&& ~~~v }
  | .id | .msixTable | .msixPba | .other _ => c

/-- A configuration request (R240, R244): Request Retry Status in POR, SHADOW and ROM after a cold reset, else normal. -/
def execConfigurationRequest (q : CfgRequest) (s : State) : Out :=
  .next (let m := q.mgr
    if !s.mgrOn m then s
    else if s.dev.cold && (s.dev.state = .por || s.dev.state = .shadow || s.dev.state = .rom) then s.modView m fun x => { x with cfgRetry := true }
    else s.modView m fun x => match q.write with
      | none => { x with cfgRetry := false, cfgValue := x.cfg.read q.reg }
      | some v => View.flushMsix { x with cfgRetry := false, cfg := x.cfg.write v q.reg })

end Sys2Proof.Machine
end

