-- ==== Sys2Proof/Machine/PolicyOps.lean ====
section
/-! DEFINITION. STENCIL_TIGHTEN's changes (R68, R230) and the checks and effects of a policy bundle (R69, R340, R155, R111, R269). -/

namespace Sys2Proof.Machine

/-! ## Changes (R230) -/

/-- Byte offset of change i within its entry. -/
def changeAt (i : Nat) : Nat := if i < 3 then 16 + 12 * i else 64 * (1 + (i - 3) / 5) + 12 * ((i - 3) % 5)

/-- LEN that NCHG asks for. -/
def changeUnits (k : Nat) : Nat := if k ≤ 3 then 0 else ceilDiv (k - 3) 5

/-- The changes of one register combine: masks add, the later value where both set a bit. -/
def combine (l : List Change) : SMap (Word × Word) :=
  l.foldl (fun acc c =>
    let o := (SMap.get? acc c.offset).getD (0, 0)
    SMap.put acc c.offset (o.1 ||| c.mask, (o.2 &&& ~~~c.mask) ||| (c.value &&& c.mask))) []

/-- The bits of every field of a register with a masked bit (R63: those fields are written). -/
def SReg.written (g : SReg) (mask : Word) : Word :=
  BitVec.ofNat 32 (pack ((g.fields.filter fun f => field mask.toNat f.1 f.2 ≠ 0).map fun f => (f.2, 2 ^ (f.1 + 1 - f.2) - 1)))

/-- The written fields of combined changes. -/
def writtenFields (c : SMap (Word × Word)) : List (SReg × (Nat × Nat)) :=
  c.flatMap fun e => match sregOf e.1 with
    | some g => (g.fields.filter fun f => field e.2.1.toNat f.1 f.2 ≠ 0).map fun f => (g, f)
    | none => []

/-- Table b with the fields that combined changes do not write, of registers that the other commit wrote, at that commit's values. -/
def mixed (b y : STable) (c : SMap (Word × Word)) (my : List Nat) : STable :=
  c.foldl (fun t e => match sregOf e.1 with
    | some g =>
      let w := g.written e.2.1
      if my.contains g.off then t.put g ((t.get g &&& w) ||| (y.get g &&& ~~~w)) else t
    | none => t) b

/-- The first change that writes one of some fields. -/
def firstChange (l : List Change) (bad : List (SReg × (Nat × Nat))) : Nat :=
  ((List.range l.length).find? fun i => match l[i]? with
    | some c => bad.any fun x => x.1.off = c.offset && field c.mask.toNat x.2.1 x.2.2 ≠ 0
    | none => false).getD 0

/-- What a slot made of a tightening: the table adopted, its own result, and the other manager's commit's result if there was one. -/
structure Tightened where
  table : STable
  mine : CommitRes
  other : Option CommitRes

/-- Judge combined changes by manager m on channel n, alone or with the other manager's register commit in the slot (R65). -/
def State.judgeChanges (s : State) (m : Mgr) (n : Fin 128) (c : SMap (Word × Word)) (rival : Bool) : Tightened :=
  let t := s.st n
  let size := s.vfSize n
  let b := applyOverlay t.tbl c
  let marks := c.map fun e => e.1
  if !rival then
    let r := judge t.tbl b size marks
    { table := if r = .committed then b else t.tbl, mine := r, other := none }
  else
    let o := t.shadow.get m.other
    let y := o.apply t.tbl
    let bm := mixed b y c o.marks
    match m with
    | .a =>
      let r := mergeSlot t.tbl size b y bm y marks o.marks
      { table := r.1, mine := r.2.1, other := some r.2.2 }
    | .b =>
      let r := mergeSlot t.tbl size y b y bm o.marks marks
      { table := r.1, mine := r.2.2, other := some r.2.1 }

/-- The overlay with combined changes added, without the fields `out`. -/
def addOverlay (o c : SMap (Word × Word)) (out : List (SReg × (Nat × Nat))) : SMap (Word × Word) :=
  c.foldl (fun acc e =>
    let drop := BitVec.ofNat 32 (pack ((out.filter fun x => x.1.off = e.1).map fun x => (x.2.2, 2 ^ (x.2.1 + 1 - x.2.2) - 1)))
    let mask := e.2.1 &&& ~~~drop
    let old := (SMap.get? acc e.1).getD (0, 0)
    if mask = 0 then acc else SMap.put acc e.1 (old.1 ||| mask, (old.2 &&& ~~~mask) ||| (e.2.2 &&& mask))) o

/-- The changes of STENCIL_TIGHTEN take effect; with PERSIST they are first recorded as the channel's overlay (R68). -/
def State.tighten (s : State) (src : Src) (n : Fin 128) (persist : Bool) (l : List Change) (rival : Bool) : State :=
  let c := combine l
  let r := s.judgeChanges src.mgr n c rival
  let taken := r.mine.code = 2 || r.mine.code = 5
  let lost := if r.mine.code = 5 then
      (writtenFields c).filter fun x => r.table.fieldVal x.1 x.2 ≠ (applyOverlay (s.st n).tbl c).fieldVal x.1 x.2 else []
  let s := if persist && taken then (s.modStn n fun t => { t with overlay := addOverlay t.overlay c lost }).committed else s
  let s := s.adoptChanged n r.table
  let s := match r.other with
    | some o => (s.discardShadow src.mgr.other n).shdResult src.mgr.other n o.code o.err
    | none => s
  let epoch := leBytes 4 (s.st n).epoch.toNat
  match r.mine with
  | .committed => s.deliver src (okAns epoch)
  | .superseded _ _ => s.deliver src { ans stSuperseded (firstChange l lost) with result := epoch }
  | .loosens _ _ =>
    let a := (s.st n).tbl
    let b := applyOverlay a c
    s.deliver src (ans stNotPermitted (firstChange l ((changed a b).filter fun x => !tighter a b x.1 x.2.2)))
  | .mismatch g lo =>
    let bad := (g.fields.filter fun f => f.2 = lo).map fun f => (g, f)
    s.deliver src (ans stInvalidField (changeAt (firstChange l bad)))

/-- The first field of STENCIL_TIGHTEN at fault: NCHG, LEN, then an OFFSET that is no RWS register. -/
def badTighten (lenField : Nat) (l : List Change) : Option Nat :=
  if l.isEmpty || 38 < l.length then some 9
  else if lenField ≠ changeUnits l.length then some 2
  else ((List.range l.length).find? fun i => match l[i]? with | some c => (sregOf c.offset).isNone | none => false).map changeAt

/-! ## Sections (R69 step 4) -/

/-- Reserved bits of the register images of a section read as zero (R10). -/
def STable.cleaned (t : STable) : STable := allRegs.foldl (fun t g => t.put g (t.get g)) t

/-- The virtual flash size that a section is judged against: 1 GiB where the profile does not fix it (R338). -/
def State.sectionSize (s : State) (n : Fin 128) : Nat := s.vfSize n

/-- The watchdog section's fields (R155). -/
def WdgPol.ok (w : WdgPol) : Bool :=
  w.restarts.toNat ≤ 14 && 1 ≤ w.safeN.toNat && 1 ≤ w.cleanMin.toNat && w.cleanMin.toNat ≤ 1440 &&
  !(w.autoArm && (!windowOk w.open_.toNat w.close_.toNat || (w.counted && w.violN = 0)))

/-- Ranges, in 4 KiB units, have a unit in common. -/
def rangesMeet (a b : Nat × Nat) : Bool := a.1 < b.1 + b.2 && b.1 < a.1 + a.2

/-- Local regions of a plate policy: those of its plates with SRC = 2. -/
def PlatePol.regions (p : PlatePol) : List (Nat × Nat) :=
  [PlateId.a, .b, .recov].filterMap fun q => if p.srcOf q = 2 then some (p.locOf q) else none

/-- R111: each region inside the density, apart from the others and from every PASS window. -/
def regionsOk (regions : List (Nat × Nat)) (t : STable) (density : Option Nat) : Bool :=
  (List.range regions.length).all fun i =>
    let r := regions.getD i (0, 0)
    (match density with | some d => (r.1 + r.2) * 4096 ≤ d | none => true) &&
    ((List.range i).all fun j => !rangesMeet (regions.getD j (0, 0)) r) &&
    (List.finRange 32).all fun w => !(t.used w && t.treat w = 2 && rangesMeet (t.base w, t.size w) r)

/-- The channel can have local-flash backing (R4). -/
def State.localAllowed (s : State) (n : Fin 128) : Bool := match portOf n with | some f => s.fpOn f | none => false

/-- The density of the local flash, once discovery has read it. -/
def State.density (s : State) (n : Fin 128) : Option Nat :=
  match portOf n with
  | some f => if (s.fp f).state = 2 then some (2 ^ (s.fp f).densLog2.toNat) else none
  | none => none

/-- The plate section (chapter "Plates", R111). -/
def State.platePolOk (s : State) (n : Fin 128) (p : PlatePol) (t : STable) : Bool :=
  [p.srcA, p.srcB].all (fun x => x = 1 || x = 2) && p.srcRec.toNat ≤ 2 && 10 ≤ p.proofTmo.toNat && p.proofTmo.toNat ≤ 3600 &&
  1 ≤ p.proofTries.toNat && p.proofTries.toNat ≤ 3 && (p.regions.isEmpty || s.localAllowed n) && regionsOk p.regions t (s.density n)

/-- KEEP and SCRATCH windows lie within the areas of channel n, in force and in the copy to come (R95); a profile that is not enabled
fixes no area. DEDUCED (notes/assumptions/87.md): R338 says so of the virtual flash size. -/
def State.sectionAreasOk (s : State) (n : Fin 128) (t : STable) : Bool :=
  [s.profOf n, vget s.profCfg n].all fun p => !p.enabled || (t.areaOk 3 p.keepBlk && t.areaOk 4 p.scrBlk)

/-- A section of channel n in a bundle of a format version. -/
def State.sectionOk (s : State) (format : Nat) (n : Fin 128) (p : ChanPol) : Bool :=
  let t := p.tbl
  t.valid (s.sectionSize n) && s.sectionAreasOk n t && (!t.has 2 || ((s.profOf n).isLocal && s.localAllowed n)) &&
  !(format = 1 && (List.finRange 64).any fun r => t.rAction r = 3) && p.wdg.ok && p.fam.signers.length ≤ 4 && s.platePolOk n p.plate t

/-- Step 4: the header first (0xFF), then the sections by channel: what is at fault. -/
def State.badBundle (s : State) (b : Bundle) : Option Nat :=
  let dev := b.identity.all (· = 0) || b.identity = s.identity.toList
  let named := b.sections.all fun x => b.bitmap.getLsbD x.1.1
  let once := (b.sections.map fun x => x.1).eraseDups.length = b.sections.length
  let tamper := match b.tamper with | some t => 1 ≤ t.loopN && t.loopN ≤ 8 | none => true
  if !dev || !named || !once || !tamper then some 0xFF
  else ((List.finRange 128).find? fun n => b.sections.any fun x => x.1 = n && !s.sectionOk b.format n x.2).map fun n => n.1

/-! ## Primacy (R340) -/

/-- A change of a watchdog section loosens. -/
def WdgPol.loosens (a b : WdgPol) : Bool :=
  (a.autoArm && !b.autoArm) || a.clksel ≠ b.clksel || (a.keyed && !b.keyed) || (!a.counted && b.counted) || a.ladder ≠ b.ladder ||
  a.violN.toNat < b.violN.toNat || a.prescale ≠ b.prescale || b.open_.toNat < a.open_.toNat || a.close_.toNat < b.close_.toNat ||
  a.restarts.toNat < b.restarts.toNat || a.safeN.toNat < b.safeN.toNat || b.cleanMin.toNat < a.cleanMin.toNat ||
  a.extMax.toNat < b.extMax.toNat || a.keySrc ≠ b.keySrc || a.keySlot ≠ b.keySlot || (!a.debug && b.debug)

/-- A change of a plate section loosens. -/
def PlatePol.loosens (a b : PlatePol) : Bool :=
  a.family ≠ b.family || a.srcA ≠ b.srcA || a.srcB ≠ b.srcB || a.srcRec ≠ b.srcRec || a.locA ≠ b.locA || a.locB ≠ b.locB ||
  a.locRec ≠ b.locRec || a.proofTmo.toNat < b.proofTmo.toNat || a.proofTries.toNat < b.proofTries.toNat || (!a.hostArm && b.hostArm)

/-- A change of an image-family section loosens. -/
def FamPol.loosens (a b : FamPol) : Bool :=
  a.family ≠ b.family || !(b.signers.all fun x => a.signers.contains x) || (a.requirePq && !b.requirePq) ||
  (a.requireEnc && !b.requireEnc) || a.advOnAccept ≠ b.advOnAccept

/-- The change of channel n's policy from the section in force to p loosens a field; Stencil fields against the active table. -/
def State.sectionLoosens (s : State) (n : Fin 128) (p : ChanPol) : Bool :=
  let old := s.polOf n
  (firstLoose (s.st n).tbl p.tbl).isSome || !subBits p.hostUpd.toNat old.hostUpd.toNat || (!old.recEntry && p.recEntry) ||
  old.wdg.loosens p.wdg || old.plate.loosens p.plate || old.fam.loosens p.fam

/-- A change of the tamper section loosens: a LEVEL lowered or LOOP_N raised. -/
def TamperPol.loosens (a b : TamperPol) : Bool :=
  ((List.range 10).any fun i => level2 b.levels.toNat i < level2 a.levels.toNat i) || a.loopN < b.loopN

/-- The section that a bundle gives channel n: its own, or the defaults (R69). -/
def Bundle.sectionFor (b : Bundle) (n : Fin 128) : ChanPol :=
  let d := Config.sha384 b.body
  match b.sections.find? fun x => x.1 = n with
  | some x =>
    { x.2 with tbl := x.2.tbl.cleaned, present := true, recEntry := x.2.recEntry && b.format = 2, version := b.version, digest := d }
  | none => { ChanPol.default with version := b.version, digest := d }

/-- The load loosens a field of a channel that it names, or of the tamper section. -/
def State.bundleLoosens (s : State) (b : Bundle) : Bool :=
  ((List.finRange 128).any fun n => b.bitmap.getLsbD n.1 && s.sectionLoosens n (b.sectionFor n)) ||
  match b.tamper with
  | some t => s.tamperPol.loosens t
  | none => false

/-! ## The load (R69) -/

/-- An owner entry with the POLICY role signed the bundle. -/
def State.policySigned (s : State) (b : Bundle) : Bool :=
  (List.range 4).any fun k => s.otp.ownUsable k && bit (s.otp.ownRoles k) 0 && b.sig.by (s.otp.ownKeyOf k) b.body s.part.pq

/-- The six steps: SUCCESS, or the first status with its INFO. -/
def State.policyStatus (s : State) (m : Mgr) (b : Bundle) : Status × Nat :=
  if !(b.format = 1 ∨ b.format = 2) ∨ (b.format = 2 ∧ s.version m < 0x0201) then (stVersionUnsupported, 0)
  else if !s.policySigned b then (stSignatureFailed, 0)
  else if b.version.toNat < s.polMin.toNat then (stVersionRollback, 0)
  else match s.badBundle b with
    | some i => (stInvalidField, i)
    | none =>
      if s.isSecondary m && s.bundleLoosens b then (stNotPermitted, 0)
      else if s.inhibited then (stWriteInhibited, 0) else (stSuccess, 0)

/-- The MAILBOX window's base of a table. -/
def STable.mailboxBase (t : STable) : Option Nat := match t.mailbox with | some w => some (t.base w) | none => none

/-- A section that changes the MAILBOX window's base waits while the host runs (R69). -/
def State.defers (s : State) (n : Fin 128) : Bool :=
  (s.ch n).released && (vget s.polLedger n).tbl.mailboxBase ≠ (s.st n).tbl.mailboxBase

/-- The commit: sections, minimum, tamper section, and the overlays of the channels named go, in one record. -/
def State.commitPolicy (s : State) (b : Bundle) : State :=
  let s := { s with
    polLedger := Vector.ofFn fun n : Fin 128 => if b.bitmap.getLsbD n.1 then b.sectionFor n else vget s.polLedger n,
    stn := Vector.ofFn fun n : Fin 128 => if b.bitmap.getLsbD n.1 then { vget s.stn n with overlay := [] } else vget s.stn n,
    polMin := b.version, tamperPol := match b.tamper with
      | some t => { t with bundle := some (b.version, Config.sha384 b.body) }
      | none => s.tamperPol }
  s.committed

/-- Apply the committed sections in ascending channel order. -/
def State.applySections (s : State) (b : Bundle) : State :=
  s.forChans fun n s => if b.bitmap.getLsbD n.1 && !s.defers n then s.applySection n else s

end Sys2Proof.Machine
end

