-- ==== Sys2Proof/Machine/Policy.lean ====
section
/-! DEFINITION. POLICY_LOAD and STENCIL_TIGHTEN (chapter "Stencil filtering and flash-side ports"). -/

namespace Sys2Proof.Machine

/-- POLICY_LOAD (R69): refused while the device is unowned (R283). -/
def execPolicyLoad (src : Src) (bundle : Verified Bundle) (s : State) : Out :=
  .next (s.ovdel src (gateOf (.policyLoad src bundle)) fun s =>
    let b := bundle.what
    if s.unowned then s.deliver src (ans stNotPermitted)
    else if 1048576 < b.len then s.deliver src (ans stInvalidField 24)
    else
      let st := s.policyStatus src.mgr b
      let j := if st.1 = stSuccess ∨ st.1 = stSignatureFailed then s.internalJob 0x02 210000 bundle.faults else (true, s)
      let s := j.2
      if !j.1 then s.deliver src (ans stFaultDetected)
      else if st.1 = stSuccess then
        let s := (s.commitPolicy b).raise 0x0706 devCh [b.version.toNat, mgrNum src.mgr]
        let s := s.log 0x0003 devCh [b.version.toNat, ofLe (Config.sha384 b.body).toList, b.bitmap.toNat]
        (s.applySections b).deliver src (okAns (leBytes 4 b.version.toNat))
      else s.deliver src (ans st.1 st.2))

/-- STENCIL_TIGHTEN (R68, R230). `rival`: the other manager commits its shadow in the same slot. PERSIST needs version 2.1 and a ledger
commit. -/
def execStencilTighten (src : Src) (ch : Half) (persist : Bool) (lenField : Nat) (changes : List Change) (rival : Bool) (s : State) : Out :=
  .next (s.ovdel src (gateOf (.stencilTighten src ch persist lenField changes rival)) fun s =>
    if persist && s.version src.mgr < 0x0201 then s.deliver src (ans stVersionUnsupported)
    else s.withChan src ch fun n s => match badTighten lenField changes with
      | some off => s.deliver src (ans stInvalidField off)
      | none =>
        if persist && s.inhibited then s.deliver src (ans stWriteInhibited)
        else s.tighten src n persist changes rival)

end Sys2Proof.Machine
end

