-- ==== Sys2Proof/Machine/PowerOps.lean ====
section
/-! DEFINITION. The steps of a device start (R307): the ledger as the ROM finds it (R109, R284), the standing configuration, the policy,
the vault (R259, R260), the watchdogs (R154) and the channels (R136, R156); STANDBY (R310, R311). -/

namespace Sys2Proof.Machine

/-! ## The ledger at a start (R109, R284) -/

/-- A copy under another ledger key: its check word does not match. -/
def LCopy.spoil {α : Type} : LCopy α → LCopy α
  | .zero => .zero
  | _ => .invalid

def LPair.spoil {α : Type} (p : LPair α) : LPair α := { c0 := p.c0.spoil, c1 := p.c1.spoil }

/-- Copies that fail their check word. -/
def LPair.badCopies {α : Type} (p : LPair α) : Nat :=
  ([p.c0, p.c1].filter fun c => match c with | .invalid => true | _ => false).length

/-- The raw COUNTER field of a vault copy. -/
def LCopy.counter : LCopy VaultRec → Nat
  | .valid _ v => v.counter.toNat
  | _ => 0

/-- Every ledger record becomes a pair that is invalid: the device goes on from the empty state of each (R284). -/
def State.spoilLedger (s : State) : State :=
  let raw := max s.keys.rawCounter.toNat (max s.keys.vault.c0.counter s.keys.vault.c1.counter)
  { s with
    plt := s.plt.map fun (x : PlateSt) => { x with table := x.table.spoil },
    mins := s.mins.spoil, cfgImg := s.cfgImg.spoil, devfw := { s.devfw with table := s.devfw.table.spoil },
    trace := { s.trace with hdr := s.trace.hdr.spoil, ring := [], mark := PerMgr.both 0 },
    keys := { s.keys with vault := s.keys.vault.spoil, rawCounter := BitVec.ofNat 64 raw },
    polLedger := Vector.replicate 128 ChanPol.default, polMin := 0, tamperPol := TamperPol.default,
    stn := s.stn.map fun (t : Stencil) => { t with overlay := [] },
    wdg := s.wdg.map fun (w : Wdg) => { w with shown := .zero, ledger := .zero, pending := false },
    intw := { s.intw with consec := 0, total := 0 }, tamper := { s.tamper with ledger := (false, 0) },
    att := { s.att with certs := none } }

/-- The ledger key is derived and compared with the check value that the ledger holds (R284); a blank ledger takes the value. -/
def State.checkLedgerKey (s : State) : State :=
  let v := Config.keyCheck (Config.ledgerKey s.otp.lks)
  match s.led.keyCheck with
  | none => { s with led := { s.led with keyCheck := some v } }
  | some w => if v = w then s else s.spoilLedger.raise 0x0703 devCh [2]

/-- Copies found invalid, and pairs found with equal sequence numbers (LED_ERR). -/
def State.noteLedger (s : State) : State :=
  let bad := s.plt.toList.foldl (fun a x => a + x.table.badCopies)
    (s.mins.badCopies + s.cfgImg.badCopies + s.devfw.table.badCopies + s.trace.hdr.badCopies + s.keys.vault.badCopies)
  let tied := (s.plt.toList.filter fun x => x.table.tied).length +
    ([s.mins.tied, s.cfgImg.tied, s.devfw.table.tied, s.trace.hdr.tied, s.keys.vault.tied].filter id).length
  { s with led := { s.led with checkFail := satAdd s.led.checkFail bad, conflict := satAdd s.led.conflict tied } }

/-- Channel n's plate table as START reads it (R109). Under low-supply inhibit a proof of a tied table counts as ended. -/
def State.readPlates (s : State) (n : Fin 128) : State :=
  let x := (s.pl n).table
  if x.tied then
    let s := s.raise 0x0402 n.1 [x.seq]
    if !s.inhibited then s.commitPlates n (s.plates n).refuseProof pcRejected
    else if s.onProof n then s.rejectProof n else s
  else if x.lost then s.raise 0x0403 n.1 [] else s

/-! ## SHADOW and ROM (R274, R277, R307) -/

/-- SHADOW: the array is resolved, and every tamper source is sampled before the ROM derives a key. -/
def State.runShadow (s : State) (samples : BitVec 10) : State :=
  (s.shadowStep.trip ((List.range 10).filter fun i => samples.getLsbD i)).setDev .rom

/-- ROM (R124): the ledger key, the device plate, the device's secrets. Without a plate, DEVICE_RECOVERY. A choice that has to commit
under low-supply inhibit waits (R108, R113). -/
def State.runRom (s : State) : State :=
  let s := s.checkLedgerKey
  let r := s.fwReadTable.fwSelect
  if s.inhibited && decide (r.1.devfw.table ≠ s.devfw.table) then s
  else match r.2 with
    | none => r.1.enterRecoveryDevice
    | some _ =>
      r.1.deriveDevice.setDev .start

/-! ## Entry to START -/

/-- A channel profile as START uses it: an entry for an absent resource is ignored (R312). -/
def State.presentCfg (s : State) (n : Fin 128) (c : ChanCfg) : ChanCfg :=
  if !s.chanOn n then ChanCfg.default
  else { c with isLocal := c.isLocal && match portOf n with | some f => s.fpOn f | none => false }

/-- The standing configuration takes effect (R312, R315). -/
def State.readConfig (s : State) : State :=
  let old := s
  let img := s.cfgBody
  let s := s.putDevCfg (parseDev img)
  let cfg := Vector.ofFn fun n : Fin 128 => s.presentCfg n (parseChan img n.1)
  let lost := s.cfgImg.cur.isNone
  let s := { s with
    prof := cfg, profCfg := cfg, twl := s.dcfg.twl, poolProf := slice img 0x3140 16,
    dev := { s.dev with configDefaulted := lost } }
  let s := if lost then s.raise 0x0701 devCh [] else s
  s.applyCalibration old

/-- I3C port p takes its static address at the first START after a cold reset; later images at its next SETDASA (R315). -/
def State.staticAddr (s : State) (p : Fin 4) : State :=
  let b := s.dcfg.i3c.getD p.1 0
  s.modI3c p fun x => { x with staticAddr := BitVec.ofNat 7 b, saEn := bit b 7 }

/-- CHn_WDG_CFG and CHn_WDG_WIN from the policy (R154): loaded where AUTO_ARM is set. -/
def Wdg.load (w : Wdg) (p : WdgPol) : Wdg :=
  if p.autoArm then
    { w with auto := true, clksel := p.clksel, keyed := p.keyed, counted := p.counted, violN := p.violN, ladder := p.ladder,
             prescale := p.prescale, open_ := p.open_, close_ := p.close_ }
  else { w with auto := false }

/-- What the first START after a cold reset loads. -/
def State.coldLoad (s : State) : State :=
  if s.dev.wdgLoaded then s
  else
    let s := s.forAll (List.finRange 4) fun p s => s.staticAddr p
    { s with wdg := Vector.ofFn fun n : Fin 128 => (s.wd n).load (vget s.polLedger n).wdg, dev := { s.dev with wdgLoaded := true } }

/-- The ring of Tracing as its header leaves it, and the START record (R178, R179). -/
def State.startTrace (s : State) : State :=
  let s := if s.trace.hdr.tied || s.trace.hdr.cur.isNone then s.newRing else s
  s.log 0x0001 devCh [ofLe s.att.hFw.toList, ofLe s.hOtp.toList, s.otp.lifecycle, s.cfgSeq]

/-- Entry to START: what the ledger holds is read. -/
def State.enterStart (s : State) : State :=
  let s := { s with
    tamper := { s.tamper with burnt := false, lock := s.tamper.lock || s.tamper.ledger.1, latched := s.tamper.latched ||| s.tamper.ledger.2 },
    led := { s.led with ready := true }, dev := { s.dev with startCount := s.dev.startCount + 1 } }
  let s := s.noteLedger.readConfig.coldLoad.issueCerts.startTrace
  let s := if s.mins.cur.isNone then s.raise 0x080A devCh [] else s
  s.forChans fun n s => s.readPlates n

/-! ## START to RUNNING -/

/-- K_img and K_tag are drawn from KEY, and each core's seal key from GENERAL (R87, R203, R206); image memory is trained (R90). -/
def State.startImage (s : State) (trained : Byte) : State :=
  let d := s.drawn
  let s := (s.putDevKey .img (drawBytes d 64)).putDevKey .tag (drawBytes (d + 1) 32)
  let s := s.forAll (List.finRange 4) fun k s => s.putDevKey (.seal k) (drawBytes (d + 2 + k.1) 32)
  State.drawGeneral { s with drawn := d + 2, imm := { s.imm with keyValid := true, chIn := trained } } 4

/-- The DeviceID keys lock when the device leaves START (R169). -/
def State.lockIdentity (s : State) : State := (s.lockDevKey .idEc).lockDevKey .idPq

/-- A target's SLC mode is the one that the pool profile describes (R98): EN, then the SET FEATURES address at 1, P1-P4 at 4. -/
def profileSlc (prof : List Byte) (t : PoolTarget) : Bool :=
  leAt prof 0 1 % 2 = 1 && t.slcMode = some (BitVec.ofNat 8 (byteAt prof 1), slice prof 4 4)

/-- A target satisfies R98. -/
def targetOk (prof : List Byte) (t : PoolTarget) : Bool :=
  t.paramOk && t.nvLpddr4 && (t.page = 8192 || t.page = 16384) && t.page ≤ 8 * t.spare && (t.slc || profileSlc prof t) && t.confirms

/-- The timing modes up to 3,600 MT/s that every target declares. -/
def commonModes : List PoolTarget → List (BitVec 4 × Nat)
  | [] => []
  | t :: ts => t.modes.filter fun m => m.2 ≤ 3600 && ts.all fun u => u.modes.any fun v => v.1 = m.1

/-- The fastest of some timing modes. -/
def fastestMode (l : List (BitVec 4 × Nat)) : Option (BitVec 4 × Nat) :=
  l.foldl (fun a m => match a with | some b => if b.2 < m.2 then some m else some b | none => some m) none

/-- Mount one pool channel (R98): a target that does not satisfy R98 is left unused; a channel whose training fails, or whose targets share
no timing mode, leaves service (R103). -/
def State.mountChan (s : State) (k : Fin 16) (c : MountChan) : State :=
  let at_ := fun i => c.targets.getD i none
  let ok := fun i => (at_ i).any fun t => targetOk s.poolProf t
  let mode := fastestMode (commonModes ((List.range 4).filterMap fun i => if ok i then at_ i else none))
  let s := s.modPool k fun x =>
    { x with state := 2, targets := BitVec.ofNat 4 (bitWord 4 ok), mode := (mode.getD (0, 0)).1, mts := BitVec.ofNat 16 (mode.getD (0, 0)).2,
             factory := c.factory, grown := c.grown, maxPe := c.maxPe, blocks := c.blocks, spare := c.spare }
  let s := s.forAll ((List.range 4).filter fun i => (at_ i).isSome && !ok i) fun t s => s.raise 0x0809 devCh [k.1, t]
  if c.trained && mode.isSome then s else s.poolOut k outTraining

/-- A pool channel that does not answer. -/
def MountChan.none : MountChan := { trained := false, targets := [], factory := 0, grown := 0, maxPe := 0, blocks := 0, spare := 0 }

/-- MiB that the stored objects take. -/
def State.usedMib (s : State) : Nat := s.pool.objs.foldl (fun a o => a + objMib (manLeaves o.man)) 0

/-- Mount the pool (R98): its channels, then the map, whose root has to be the one that the ledger holds. DESIGN CHOICE (log entry 53): a
ledger that holds none takes any; a map that fails leaves the pool FAILED and none of its objects usable. -/
def State.mountPool (s : State) (rep : StartReport) : State :=
  let s := s.forAll (List.finRange 16) fun k s => if s.poolOn k then s.mountChan k (rep.pool.getD k.1 MountChan.none) else s
  { s with pool := { s.pool with
    mounted := 2, mapBad := s.led.mapRoot.any fun r => r ≠ rep.mapRoot, capMib := rep.capMib,
    freeMib := BitVec.ofNat 32 (rep.capMib.toNat - s.usedMib) } }

/-- KEEP_LOST for each channel with a KEEP area whose blocks cannot be restored (R97): the vault is zeroised, or a block's snapshots are
sealed under a former key (R265). -/
def State.noteKeepLost (s : State) : State :=
  s.forChans fun n s =>
    if s.chanOn n && (s.profOf n).keepBlk ≠ 0 &&
        (s.dev.zeroised || (s.area n).copies.any fun c => (c.2.best s.keys.keepSalt).isNone) then s.raise 0x0109 n.1 [] else s

/-- The policy and its overlays apply at epoch 1 (R68). -/
def State.startPolicy (s : State) : State :=
  { s with
    pol := s.polLedger,
    stn := Vector.ofFn fun n : Fin 128 =>
      let t := s.st n
      let p := vget s.polLedger n
      let a := applyOverlay p.tbl t.overlay
      { Stencil.reset with tbl := a, shadow := PerMgr.both { tbl := a, marks := [] }, overlay := t.overlay, polver := p.version } }

/-- Every OWNER slot empty. -/
def noOwner (slots : Vector KeySlot 256) : Vector KeySlot 256 :=
  Vector.ofFn fun k : Fin 256 => if ownerSlot k.1 then { KeySlot.empty with stamp := (vget slots k).stamp + 1 } else vget slots k

/-- The slots that a vault record fills; `bad` are the slots of entries whose tag fails (R259). -/
def VaultRec.slots (v : VaultRec) (bad : List Nat) (slots : Vector KeySlot 256) : Vector KeySlot 256 :=
  v.entries.foldl (fun a e => match fin? 256 e.1 with
    | some i => if bad.contains e.1 then a else vmod a i fun k => { e.2 with uses := 0, stamp := k.stamp + 1 }
    | none => a) slots

/-- Vault entries whose tag fails leave their slots empty: the event, with a counter of all ones, and the record that names the slot (R259). -/
def State.badEntries (s : State) (v : VaultRec) (bad : List Nat) : State :=
  s.forAll (v.entries.filter fun e => bad.contains e.1) fun e s => (s.raise 0x080E devCh [2 ^ 64 - 1]).logKey 4 [e.1]

/-- The vault at a start (R259, R260). Without a vault root key (IDENTITY not accepted, RETIRED) it is left untouched. A new vault needs
a commit, which low-supply inhibit forbids. -/
def State.startVault (s : State) (bad : List Nat) : State :=
  let k := s.keys
  let empty := noOwner k.slots
  let zeroised : Bool := match k.vault.cur with
    | some v => v.salt.isNone
    | none => k.vault.lost
  let s := { s with keys := { k with slots := empty, keepSalt := none }, dev := { s.dev with zeroised := zeroised } }
  if !(s.otp.region? 2).ok || s.otp.lifecycle = 3 then s
  else match k.vault.cur with
    | some v => if zeroised then s
      else
        let s := State.badEntries { s with keys := { s.keys with slots := v.slots bad k.slots } } v bad
        match v.salt with
        | some d => s.putVaultKeys d
        | none => s
    | none =>
      if s.inhibited then s
      else if zeroised then (s.commitVault empty k.rawCounter).logKey 4 [k.rawCounter.toNat]
      else s.commitVault empty 0

/-- Discovery of every local flash that an enabled profile names (R70). -/
def State.startPorts (s : State) : State :=
  s.forChans fun n s =>
    if s.chanOn n && (s.profOf n).enabled && (s.profOf n).isLocal then
      match portOf n with
      | some f => s.startDiscovery f
      | none => s
    else s

/-- A channel's state at START (R129, R140, R156): an enabled one becomes HELD, and SAFE from there where its ladder has run out. -/
def State.startChan (s : State) (n : Fin 128) : State :=
  if !s.chanOn n || !(s.profOf n).enabled || (s.ch n).state ≠ .off then s
  else
    let s := s.hold n .config .config none
    if (s.wd n).ladder && (s.polOf n).wdg.safeN.toNat ≤ (s.wd n).shown.consec.toNat then s.transition n .safe .safe else s

/-- The event of the brownout that caused this start (R301). -/
def State.noteBrownout (s : State) : State :=
  match s.power.brownRail with
  | some r => State.raise { s with power := { s.power with brownRail := none } } 0x0503 devCh [r]
  | none => s

/-- Steps 4 to 7 of R307, up to the choice of the device state. -/
def State.bringUp (s : State) (rep : StartReport) : State :=
  let s := ((((s.startImage rep.imgChannels).mountPool rep).startPolicy.startVault rep.vaultBad).noteKeepLost.completeAdvances).startPorts
  (s.forChans fun n s => s.startChan n).noteBrownout

/-- The start ends in SAFE_HOLD (R90, R164, R282, R291). -/
def State.startsSafe (s : State) : Bool :=
  popCount s.imm.chIn < 7 || s.dev.safeLatch || (s.otp.region? 4 = .failed && s.otp.lifecycle ≠ 0) || s.otp.lifecycle = 3

/-- MWD AUTO (R160): at the first RUNNING since the last cold reset a manager watchdog takes its window and mode from the standing
configuration, whatever its manager wrote before, and is armed. -/
def State.startMwd (s : State) (m : Mgr) : State :=
  let win := s.dcfg.mwdWin.get m
  let mode := s.dcfg.mwdMode.get m
  if !s.mgrOn m || !s.dcfg.mwdAuto.get m || (s.mwd.get m).loaded then s
  else (s.modMwd m fun w =>
    { w with auto := true, loaded := true, keyed := bit mode 0, prescale := BitVec.ofNat 4 (field mode 4 1), open_ := BitVec.ofNat 16 (field win 15 0),
             close_ := BitVec.ofNat 16 (field win 31 16) }).mwdArm m

/-- A channel with a rank begins TAKING; on an unowned device every channel stays HELD (R136, R283). -/
def State.startRanked (s : State) (n : Fin 128) : State :=
  if s.chanOn n && (s.profOf n).rank < 0xFF && (s.ch n).state = .held && !s.unowned then
    (s.startTaking n .start false).modCtl n fun c => { c with ranked := true }
  else s

/-- Whom a waiting order answers: its manager, and its order where it is one. -/
def Await.orderOf (a : Await) : Option (Mgr × Order) :=
  match a.who, a.kind with
  | .reg m o, _ => some (m, o)
  | .cmd src, .hold => some (src.mgr, .hold)
  | .cmd src, .restart => some (src.mgr, .restart)
  | .cmd src, .release => some (src.mgr, .release)
  | _, _ => none

/-- One command or order that a warm reset interrupted runs again (R217); a response to an MCTP endpoint is lost with its session. -/
def State.rerun (s : State) (a : Await) : State :=
  match a.who, fin? 128 a.ch with
  | .mctp _ _, _ | _, none => s
  | _, some n =>
    match a.orderOf with
    | some (m, o) => s.order a.who m n o none false
    | none =>
      let s := { s with awaits := s.awaits ++ [a] }
      match a.kind, (s.pl n).arming with
      | .arm, x =>
        if s.dev.state = .safeHold then s.endArming n stNotPermitted
        else match x with
          | some x => if x.committed then s else s.beginArm n x.plate
          | none => s
      | _, _ => s

/-- Everything that waited at a warm reset runs again, in its order. -/
def State.rerunAll (s : State) : State := State.forAll { s with awaits := [] } s.awaits fun a s => s.rerun a

/-! ## STANDBY (R310, R311) -/

/-- Enter STANDBY: the released channels are recorded and held. -/
def State.enterStandby (s : State) : State :=
  let s := s.keepLines.forChans fun n s =>
    if (s.ch n).released then (s.hold n .standby .device none).modCtl n fun c => { c with standbyRun := true } else s
  State.setDev { s with dev := { s.dev with standbySince := s.now } } .standby

/-! ## RUNNING -/

/-- Step 7 of R307: RUNNING, or STANDBY at once while SYS_PGOOD is low. -/
def State.enterRunning (s : State) : State :=
  let s := s.setDev .running
  let s := { s with
    dev := { s.dev with runSince := s.now, idleSince := s.now },
    devfw := { s.devfw with deadline := if s.devfw.onProof then some (s.now + 60 * second) else none } }
  let s := (((s.startMwd .a).startMwd .b).forChans fun n s => s.startRanked n).rerunAll.restampJobs.dispatchJobs
  if s.power.sysPgood then s else s.enterStandby

/-- START: the DRBG's start-up test (R206), then the rest. While the entropy source fails the device stays here (R207). -/
def State.runStart (s : State) (rep : StartReport) : State :=
  if s.dev.ccAbsent then s
  else
    let s := if s.drbg.keyState = 1 then s else s.entropyTest rep.entropyOk
    if s.drbg.keyState ≠ 1 then s
    else
      let s := (s.bringUp rep).lockIdentity
      if s.startsSafe then s.enterSafeHold.rerunAll.restampJobs.dispatchJobs else s.enterRunning

/-- ROM, and START where the ROM reaches it. -/
def State.romThenStart (s : State) (rep : StartReport) : State :=
  let s := s.runRom
  if s.dev.state = .start then s.enterStart.runStart rep else s

/-- A device start from where it stands (R307). -/
def State.start (s : State) (rep : StartReport) : State :=
  if s.dev.clockHeld then s
  else match s.dev.state with
    | .shadow => (s.runShadow rep.tamper).romThenStart rep
    | .rom => s.romThenStart rep
    | .start => s.runStart rep
    | .por | .deviceRecovery | .running | .safeHold | .standby => s

end Sys2Proof.Machine
end

