-- ==== Sys2Proof/Machine/Power.lean ====
section
/-! DEFINITION. The events of chapter "Power, reset, clocks and configuration": supplies, resets, clocks, links, STANDBY, and the
hardware's own ends of a cut-off and of a FAIL# pulse. -/

namespace Sys2Proof.Machine

/-! ## Start -/

/-- POR release (R297): the clocks lock, and SHADOW begins. -/
def execPorRelease (s : State) : Out :=
  .next (if s.dev.state = .por && !s.dev.clockHeld then
      State.setDev { s with clk := { s.clk with refclk := true, fabric := true, mem := true, pool := true } } .shadow
    else s)

/-- A device start up to the state in which it ends (R307); given again where the start waited in ROM or START, it goes on. -/
def execDeviceStart (rep : StartReport) (s : State) : Out := .next (s.start rep)

/-! ## Supplies (R299-R302) -/

/-- A rail at WARN, or PWR_WARN# (none). -/
def execSupplyWarn (rail : Option (Fin 21)) (s : State) : Out := .next (if s.dev.state = .por then s else s.enterInhibit rail)

/-- The inhibit ends (R299, R300): what waited is written in its order, and what waited for a commit goes on. The event names the first
rail that was low; the spec gives PWR_WARN# no number there (log entry 32). -/
def execSupplyOk (s : State) : Out :=
  .next (if !s.power.inhibit then s
    else
      let rail := ((List.range 21).find? fun r => s.power.warn.getLsbD r).getD (Config.eventWord 112)
      let s := { s with power := { s.power with inhibit := false, pwrWarn := false, warn := 0 } }
      (s.raise 0x0502 devCh [rail]).flushLedger.flushPool.settleAll.resumeCommits)

/-- A rail at BROWNOUT (R301). -/
def execBrownout (rail : Fin 21) (s : State) : Out :=
  .next (if s.dev.state = .por && !s.dev.clockHeld then s
    else
      let s := s.coldReset 2
      { s with power := { s.power with brownRail := some rail.1 } })

/-- RESET# low (R305): a pulse shorter than 10 µs is ignored. -/
def execResetPin (lowNs : Nat) (s : State) : Out := .next (if lowNs < 10 * usec then s else s.coldReset 1)

/-- An output drives more than 40 mA for 50 ns (R302): the channel decodes nothing until 10 ms after CS# rises. -/
def execOutputOvercurrent (n : Fin 128) (s : State) : Out :=
  .next (if s.chanOn n && (s.ch n).released then s.modPort n fun p => { p with cutEnd := some (s.now + 10 * msec), reply := [] } else s)

/-- The 10 ms end. -/
def execOvercurrentHoldoffEnd (n : Fin 128) (s : State) : Out :=
  .next (match (s.port n).cutEnd with
    | some t => (s.until t).modPort n fun p => { p with cutEnd := none }
    | none => s)

/-- A VDDIO_H bank passes 1.0 V (R126): its HOLD# latches sink. -/
def execIoBankSupplyUp (bank : Fin 8) (s : State) : Out :=
  .next (if s.dev.state = .por then
      s.forChans fun n s => if n.1 / 16 = bank.1 then s.modCtl n fun c => { c with sink := true } else s
    else s)

/-- The FAIL# pulse ends (R141). -/
def execFailPulseEnd (s : State) : Out :=
  .next (match s.plat.failUntil with
    | some t => let s := s.until t; { s with plat := { s.plat with failOn := false, failUntil := none } }
    | none => s)

/-! ## Clocks and links (R309, R311) -/

/-- The pool PLL loses lock (R309). -/
def execPoolPllUnlock (s : State) : Out :=
  .next (if !s.clk.pool then s
    else
      let s := { s with clk := { s.clk with pool := false } }
      s.forAll (List.finRange 16) fun k s => if (vget s.pool.chans k).state = 2 then s.poolOut k outPll else s)

/-- A link goes down (R309). -/
def execLinkDown (m : Mgr) (s : State) : Out :=
  .next (if !(s.view m).linkUp then s
    else State.modView { s with clk := { s.clk with pcie := s.clk.pcie.set m false } } m fun v => { v with linkUp := false })

/-- A link reaches L0 (R311): PCIEn_WAKE# is released. A link that was up has trained again. -/
def execLinkUp (m : Mgr) (speed : BitVec 3) (width : BitVec 4) (s : State) : Out :=
  .next (if !s.mgrOn m then s
    else State.modView { s with clk := { s.clk with pcie := s.clk.pcie.set m true } } m fun v =>
      { v with linkUp := true, linkSpeed := speed, linkWidth := width, wake := false,
               retrains := if v.linkUp then satInc v.retrains else v.retrains })

/-! ## STANDBY (R310, R311) -/

/-- SYS_PGOOD has been low for 1 ms (R310). -/
def execSysPgoodLow (s : State) : Out :=
  .next (let s := { s with power := { s.power with sysPgood := false } }
    if s.dev.state = .running then s.enterStandby else s)

/-- A wake (R311). SYS_PGOOD that returns while the device runs releases the channels recorded. A wake other than by a doorbell asserts
PCIEn_WAKE# on the links that are down; the STBY_S limit falls at its time. The expiries and trips that wake the device do so in their
own rows too. -/
def execStandbyWake (cause : WakeCause) (s : State) : Out :=
  .next (let s := if cause = .sysPgood then { s with power := { s.power with sysPgood := true } } else s
    match s.dev.state with
    | .standby =>
      let s := if cause = .stbyLimit then s.until (s.dev.standbySince + s.dcfg.stbyS * second) else s
      if cause = .doorbell then s.wake.resumeStandby else s.wakeUp
    | .running => if cause = .sysPgood then s.resumeStandby else s
    | _ => s)

/-- SYS_PGOOD stays low, and no command has been in flight for 1 s (R311). -/
def execStandbyReturn (s : State) : Out :=
  .next (if s.dev.state = .running && !s.power.sysPgood && s.deviceInFlight = 0 then
      (s.until (max s.dev.idleSince s.dev.runSince + second)).enterStandby
    else s)

end Sys2Proof.Machine
end

