-- ==== Sys2Proof/Machine/Dispatch.lean ====
section
/-! DEFINITION. The dispatch: one arm per command, each one direct call of its meaning. -/

namespace Sys2Proof.Machine

def exec (i : Instr) (s : State) : Host.Outcome State Fault Refusal :=
  match i with
  | .read n four q => Sys2Proof.Machine.execRead n four q s
  | .fastRead n four q => Sys2Proof.Machine.execFastRead n four q s
  | .quadOutputRead n four q => Sys2Proof.Machine.execQuadOutputRead n four q s
  | .quadIoRead n four q => Sys2Proof.Machine.execQuadIoRead n four q s
  | .octalDdrRead n q => Sys2Proof.Machine.execOctalDdrRead n q s
  | .readStatus n q => Sys2Proof.Machine.execReadStatus n q s
  | .readFlagStatus n q => Sys2Proof.Machine.execReadFlagStatus n q s
  | .clearFlagStatus n => Sys2Proof.Machine.execClearFlagStatus n s
  | .readId n q => Sys2Proof.Machine.execReadId n q s
  | .readSfdp n addr len period => Sys2Proof.Machine.execReadSfdp n addr len period s
  | .readConfig n addr len period => Sys2Proof.Machine.execReadConfig n addr len period s
  | .writeConfig n addr data period => Sys2Proof.Machine.execWriteConfig n addr data period s
  | .writeEnable n => Sys2Proof.Machine.execWriteEnable n s
  | .writeDisable n => Sys2Proof.Machine.execWriteDisable n s
  | .writeStatus n data => Sys2Proof.Machine.execWriteStatus n data s
  | .pageProgram n four addr data period => Sys2Proof.Machine.execPageProgram n four addr data period s
  | .erase4Kib n four addr period => Sys2Proof.Machine.execErase4Kib n four addr period s
  | .erase64Kib n four addr period => Sys2Proof.Machine.execErase64Kib n four addr period s
  | .chipErase n opcode => Sys2Proof.Machine.execChipErase n opcode s
  | .enter4ByteAddress n => Sys2Proof.Machine.execEnter4ByteAddress n s
  | .exit4ByteAddress n => Sys2Proof.Machine.execExit4ByteAddress n s
  | .resetEnable n => Sys2Proof.Machine.execResetEnable n s
  | .reset n => Sys2Proof.Machine.execReset n s
  | .deepPowerDown n => Sys2Proof.Machine.execDeepPowerDown n s
  | .releaseFromDeepPowerDown n => Sys2Proof.Machine.execReleaseFromDeepPowerDown n s
  | .undecodedOpcode n op second => Sys2Proof.Machine.execUndecodedOpcode n op second s
  | .allowFrameCommand n op q data => Sys2Proof.Machine.execAllowFrameCommand n op q data s
  | .programEraseDone n => Sys2Proof.Machine.execProgramEraseDone n s
  | .refusalWipEnd n => Sys2Proof.Machine.execRefusalWipEnd n s
  | .hostRstPulse n lowNs => Sys2Proof.Machine.execHostRstPulse n lowNs s
  | .hostResetRecovered n => Sys2Proof.Machine.execHostResetRecovered n s
  | .pgoodFall n => Sys2Proof.Machine.execPgoodFall n s
  | .pgOkSettled q => Sys2Proof.Machine.execPgOkSettled q s
  | .mbxSelect n v => Sys2Proof.Machine.execMbxSelect n v s
  | .wdgToken n token => Sys2Proof.Machine.execWdgToken n token s
  | .wdgExtend n token units => Sys2Proof.Machine.execWdgExtend n token units s
  | .proofAccept n v => Sys2Proof.Machine.execProofAccept n v s
  | .bootDone n v => Sys2Proof.Machine.execBootDone n v s
  | .updOpen n v => Sys2Proof.Machine.execUpdOpen n v s
  | .updCommit n v => Sys2Proof.Machine.execUpdCommit n v s
  | .updAbort n v => Sys2Proof.Machine.execUpdAbort n v s
  | .updVerifyDone n ev => Sys2Proof.Machine.execUpdVerifyDone n ev s
  | .hostMessagePost n seq => Sys2Proof.Machine.execHostMessagePost n seq s
  | .m2hAck n ack => Sys2Proof.Machine.execM2hAck n ack s
  | .bootTmoExpiry n => Sys2Proof.Machine.execBootTmoExpiry n s
  | .shdCommit m n rival => Sys2Proof.Machine.execShdCommit m n rival s
  | .shdDiscard m n => Sys2Proof.Machine.execShdDiscard m n s
  | .enterRecovery m n rival => Sys2Proof.Machine.execEnterRecovery m n rival s
  | .exitRecovery m n rival => Sys2Proof.Machine.execExitRecovery m n rival s
  | .bucketRefill n w erase => Sys2Proof.Machine.execBucketRefill n w erase s
  | .fpRediscover m f => Sys2Proof.Machine.execFpRediscover m f s
  | .fpDiscovery f rep => Sys2Proof.Machine.execFpDiscovery f rep s
  | .fpErrclr m f => Sys2Proof.Machine.execFpErrclr m f s
  | .localOpComplete f failed => Sys2Proof.Machine.execLocalOpComplete f failed s
  | .localWipTimeout f => Sys2Proof.Machine.execLocalWipTimeout f s
  | .holdInstant n => Sys2Proof.Machine.execHoldInstant n s
  | .impressionTakeDone d ev => Sys2Proof.Machine.execImpressionTakeDone d ev s
  | .localConfirmationDone n p data => Sys2Proof.Machine.execLocalConfirmationDone n p data s
  | .impressionCopySwitch q => Sys2Proof.Machine.execImpressionCopySwitch q s
  | .leafReverifyDone idx leaf copyOk source => Sys2Proof.Machine.execLeafReverifyDone idx leaf copyOk source s
  | .patrolLeaf idx leaf leafOk tableOk => Sys2Proof.Machine.execPatrolLeaf idx leaf leafOk tableOk s
  | .patrolPause m v => Sys2Proof.Machine.execPatrolPause m v s
  | .keepWriteback n blk => Sys2Proof.Machine.execKeepWriteback n blk s
  | .immChannelOut c => Sys2Proof.Machine.execImmChannelOut c s
  | .hashLaneKat unit pass => Sys2Proof.Machine.execHashLaneKat unit pass s
  | .poolChannelOut k reason => Sys2Proof.Machine.execPoolChannelOut k reason s
  | .polTakeOut m k => Sys2Proof.Machine.execPolTakeOut m k s
  | .polReturn m k trained => Sys2Proof.Machine.execPolReturn m k trained s
  | .poolEccPatrol k ev => Sys2Proof.Machine.execPoolEccPatrol k ev s
  | .poolAudit family root badLeaf => Sys2Proof.Machine.execPoolAudit family root badLeaf s
  | .poolWearLevel k ev => Sys2Proof.Machine.execPoolWearLevel k ev s
  | .fcaFlush m => Sys2Proof.Machine.execFcaFlush m s
  | .fcaCntclr m => Sys2Proof.Machine.execFcaCntclr m s
  | .channelReady n => Sys2Proof.Machine.execChannelReady n s
  | .releaseInstant n => Sys2Proof.Machine.execReleaseInstant n s
  | .ranksBegin => Sys2Proof.Machine.execRanksBegin s
  | .rankBoundary => Sys2Proof.Machine.execRankBoundary s
  | .proofDeadline n => Sys2Proof.Machine.execProofDeadline n s
  | .devfwProofDeadline => Sys2Proof.Machine.execDevfwProofDeadline s
  | .devfwSelftestDone pass => Sys2Proof.Machine.execDevfwSelftestDone pass s
  | .chHold src ch rival => Sys2Proof.Machine.execChHold src ch rival s
  | .chRelease src ch against => Sys2Proof.Machine.execChRelease src ch against s
  | .chStatus src ch => Sys2Proof.Machine.execChStatus src ch s
  | .chQuarantine src ch rival => Sys2Proof.Machine.execChQuarantine src ch rival s
  | .chReadmit src ch rival => Sys2Proof.Machine.execChReadmit src ch rival s
  | .chRestart src ch rival => Sys2Proof.Machine.execChRestart src ch rival s
  | .ctlOrderHold m n rival => Sys2Proof.Machine.execCtlOrderHold m n rival s
  | .ctlOrderRelease m n against => Sys2Proof.Machine.execCtlOrderRelease m n against s
  | .ctlOrderQuarantine m n rival => Sys2Proof.Machine.execCtlOrderQuarantine m n rival s
  | .ctlOrderReadmit m n rival => Sys2Proof.Machine.execCtlOrderReadmit m n rival s
  | .ctlOrderRestart m n rival => Sys2Proof.Machine.execCtlOrderRestart m n rival s
  | .twlPulse m v => Sys2Proof.Machine.execTwlPulse m v s
  | .twlForce m v => Sys2Proof.Machine.execTwlForce m v s
  | .twPulseEnd t => Sys2Proof.Machine.execTwPulseEnd t s
  | .pgoodTimeout n => Sys2Proof.Machine.execPgoodTimeout n s
  | .wdgClose n => Sys2Proof.Machine.execWdgClose n s
  | .wdgClockStop n => Sys2Proof.Machine.execWdgClockStop n s
  | .wdgCfgWrite m n v => Sys2Proof.Machine.execWdgCfgWrite m n v s
  | .wdgWinWrite m n v => Sys2Proof.Machine.execWdgWinWrite m n v s
  | .wdgFreeze m n => Sys2Proof.Machine.execWdgFreeze m n s
  | .wdgThaw m n => Sys2Proof.Machine.execWdgThaw m n s
  | .cleanRun n => Sys2Proof.Machine.execCleanRun n s
  | .mwdToken m hi => Sys2Proof.Machine.execMwdToken m hi s
  | .mwdCfgWrite m v => Sys2Proof.Machine.execMwdCfgWrite m v s
  | .mwdWinWrite m v => Sys2Proof.Machine.execMwdWinWrite m v s
  | .mwdExpiry m => Sys2Proof.Machine.execMwdExpiry m s
  | .ccWatchdogExpiry => Sys2Proof.Machine.execCcWatchdogExpiry s
  | .lockstepMismatch pair => Sys2Proof.Machine.execLockstepMismatch pair s
  | .burinCoreWatchdog k => Sys2Proof.Machine.execBurinCoreWatchdog k s
  | .graverWatchdog => Sys2Proof.Machine.execGraverWatchdog s
  | .ringEngineWatchdog m => Sys2Proof.Machine.execRingEngineWatchdog m s
  | .mainClockLoss => Sys2Proof.Machine.execMainClockLoss s
  | .mainClockReturn => Sys2Proof.Machine.execMainClockReturn s
  | .intClean => Sys2Proof.Machine.execIntClean s
  | .mwdCntclr m => Sys2Proof.Machine.execMwdCntclr m s
  | .ccRestartDone => Sys2Proof.Machine.execCcRestartDone s
  | .attExtGo m q => Sys2Proof.Machine.execAttExtGo m q s
  | .attWallWrite m hi rival => Sys2Proof.Machine.execAttWallWrite m hi rival s
  | .traceRecordWrite => Sys2Proof.Machine.execTraceRecordWrite s
  | .getVersion ep session => Sys2Proof.Machine.execGetVersion ep session s
  | .getCapabilities ep version => Sys2Proof.Machine.execGetCapabilities ep version s
  | .negotiateAlgorithms ep offer => Sys2Proof.Machine.execNegotiateAlgorithms ep offer s
  | .getDigests who => Sys2Proof.Machine.execGetDigests who s
  | .getCertificate who slot offset len => Sys2Proof.Machine.execGetCertificate who slot offset len s
  | .challenge who nonce summary => Sys2Proof.Machine.execChallenge who nonce summary s
  | .getMeasurements who index signed nonce => Sys2Proof.Machine.execGetMeasurements who index signed nonce s
  | .keyExchange ep exchange => Sys2Proof.Machine.execKeyExchange ep exchange s
  | .finish ep session => Sys2Proof.Machine.execFinish ep session s
  | .heartbeat ep session => Sys2Proof.Machine.execHeartbeat ep session s
  | .endSession ep session => Sys2Proof.Machine.execEndSession ep session s
  | .chunkSend who seq data last => Sys2Proof.Machine.execChunkSend who seq data last s
  | .chunkGet who seq => Sys2Proof.Machine.execChunkGet who seq s
  | .unsupportedSpdmRequest ep session => Sys2Proof.Machine.execUnsupportedSpdmRequest ep session s
  | .spdmSessionTimeout ep session => Sys2Proof.Machine.execSpdmSessionTimeout ep session s
  | .entdaa p addr => Sys2Proof.Machine.execEntdaa p addr s
  | .setdasa p addr => Sys2Proof.Machine.execSetdasa p addr s
  | .mctpOvdelRequest ep units session => Sys2Proof.Machine.execMctpOvdelRequest ep units session s
  | .burinJobDone k ev => Sys2Proof.Machine.execBurinJobDone k ev s
  | .burinYield k => Sys2Proof.Machine.execBurinYield k s
  | .burinPromotion id => Sys2Proof.Machine.execBurinPromotion id s
  | .burinSelftestDone k pass => Sys2Proof.Machine.execBurinSelftestDone k pass s
  | .burTakeOut m k => Sys2Proof.Machine.execBurTakeOut m k s
  | .burReturn m k => Sys2Proof.Machine.execBurReturn m k s
  | .burCntclr m k => Sys2Proof.Machine.execBurCntclr m k s
  | .hashJobDone m => Sys2Proof.Machine.execHashJobDone m s
  | .entropyHealthFail test => Sys2Proof.Machine.execEntropyHealthFail test s
  | .entropyRetest pass => Sys2Proof.Machine.execEntropyRetest pass s
  | .drbRetest m pass => Sys2Proof.Machine.execDrbRetest m pass s
  | .drbgReseed => Sys2Proof.Machine.execDrbgReseed s
  | .ringEnable m => Sys2Proof.Machine.execRingEnable m s
  | .ringDisable m => Sys2Proof.Machine.execRingDisable m s
  | .functionReset m => Sys2Proof.Machine.execFunctionReset m s
  | .sqTailDoorbell m q v => Sys2Proof.Machine.execSqTailDoorbell m q v s
  | .sqTailRetract m q v => Sys2Proof.Machine.execSqTailRetract m q v s
  | .cqHeadDoorbell m q v => Sys2Proof.Machine.execCqHeadDoorbell m q v s
  | .sqPhaseReread m q units => Sys2Proof.Machine.execSqPhaseReread m q units s
  | .sqEntryConsume m q units => Sys2Proof.Machine.execSqEntryConsume m q units s
  | .bulkAgeing m q => Sys2Proof.Machine.execBulkAgeing m q s
  | .eventSlotWrite m => Sys2Proof.Machine.execEventSlotWrite m s
  | .cqInterrupt m q => Sys2Proof.Machine.execCqInterrupt m q s
  | .ringDmaFault m q fault => Sys2Proof.Machine.execRingDmaFault m q fault s
  | .dmaFailure m kind addr who => Sys2Proof.Machine.execDmaFailure m kind addr who s
  | .pad m q units => Sys2Proof.Machine.execPad m q units s
  | .identify src cns ch len => Sys2Proof.Machine.execIdentify src cns ch len s
  | .negotiate src proposed => Sys2Proof.Machine.execNegotiate src proposed s
  | .createCq src f => Sys2Proof.Machine.execCreateCq src f s
  | .createSq src f => Sys2Proof.Machine.execCreateSq src f s
  | .deleteSq src qid => Sys2Proof.Machine.execDeleteSq src qid s
  | .deleteCq src qid => Sys2Proof.Machine.execDeleteCq src qid s
  | .setEventRing src cqid mask => Sys2Proof.Machine.execSetEventRing src cqid mask s
  | .abort src sqid cid posted => Sys2Proof.Machine.execAbort src sqid cid posted s
  | .getLog src page sel offset len => Sys2Proof.Machine.execGetLog src page sel offset len s
  | .setFeature src fid sel value data => Sys2Proof.Machine.execSetFeature src fid sel value data s
  | .getFeature src fid sel => Sys2Proof.Machine.execGetFeature src fid sel s
  | .imageStage src ch plate part offset data => Sys2Proof.Machine.execImageStage src ch plate part offset data s
  | .imageCommit src ch plate image => Sys2Proof.Machine.execImageCommit src ch plate image s
  | .plateArmProof src ch plate => Sys2Proof.Machine.execPlateArmProof src ch plate s
  | .plateStatus src ch len => Sys2Proof.Machine.execPlateStatus src ch len s
  | .advanceMinVersion src ch family newMin => Sys2Proof.Machine.execAdvanceMinVersion src ch family newMin s
  | .plateErase src ch plate => Sys2Proof.Machine.execPlateErase src ch plate s
  | .policyLoad src bundle => Sys2Proof.Machine.execPolicyLoad src bundle s
  | .stencilTighten src ch persist lenField changes rival => Sys2Proof.Machine.execStencilTighten src ch persist lenField changes rival s
  | .configWrite src img => Sys2Proof.Machine.execConfigWrite src img s
  | .configRead src len => Sys2Proof.Machine.execConfigRead src len s
  | .burinOp src desc resLen operands => Sys2Proof.Machine.execBurinOp src desc resLen operands s
  | .hashOp src desc outLen segs => Sys2Proof.Machine.execHashOp src desc outLen segs s
  | .random src len => Sys2Proof.Machine.execRandom src len s
  | .quote src nonce len => Sys2Proof.Machine.execQuote src nonce len s
  | .tracingRead src fromSeq advance header len => Sys2Proof.Machine.execTracingRead src fromSeq advance header len s
  | .keyUpdate src msg => Sys2Proof.Machine.execKeyUpdate src msg s
  | .keyInfo src slot len => Sys2Proof.Machine.execKeyInfo src slot len s
  | .zeroize src confirm => Sys2Proof.Machine.execZeroize src confirm s
  | .otpRead src region bitOffset q => Sys2Proof.Machine.execOtpRead src region bitOffset q s
  | .otpProgram src region bitOffset bitmap ev => Sys2Proof.Machine.execOtpProgram src region bitOffset bitmap ev s
  | .otpFinalise src region ev => Sys2Proof.Machine.execOtpFinalise src region ev s
  | .deviceFwStage src offset data => Sys2Proof.Machine.execDeviceFwStage src offset data s
  | .deviceFwCommit src activate => Sys2Proof.Machine.execDeviceFwCommit src activate s
  | .deviceFwAccept src => Sys2Proof.Machine.execDeviceFwAccept src s
  | .registerWrite m offset v => Sys2Proof.Machine.execRegisterWrite m offset v s
  | .bar0BadAccess m offset => Sys2Proof.Machine.execBar0BadAccess m offset s
  | .bar0UnmappedAccess m offset => Sys2Proof.Machine.execBar0UnmappedAccess m offset s
  | .lowWordRead m offset => Sys2Proof.Machine.execLowWordRead m offset s
  | .lockWrite m page v => Sys2Proof.Machine.execLockWrite m page v s
  | .irqClr m page v => Sys2Proof.Machine.execIrqClr m page v s
  | .errInfoClear m page v => Sys2Proof.Machine.execErrInfoClear m page v s
  | .mbxErrclr m n v => Sys2Proof.Machine.execMbxErrclr m n v s
  | .stnCntclr m n v => Sys2Proof.Machine.execStnCntclr m n v s
  | .evtLostclr m v => Sys2Proof.Machine.execEvtLostclr m v s
  | .rngErrclr m v => Sys2Proof.Machine.execRngErrclr m v s
  | .pwrSeenClear m v => Sys2Proof.Machine.execPwrSeenClear m v s
  | .tamperTrip sources => Sys2Proof.Machine.execTamperTrip sources s
  | .loopSample idx kind => Sys2Proof.Machine.execLoopSample idx kind s
  | .tamperInactive idx => Sys2Proof.Machine.execTamperInactive idx s
  | .tmpClear m => Sys2Proof.Machine.execTmpClear m s
  | .tmpRearm m => Sys2Proof.Machine.execTmpRearm m s
  | .porRelease => Sys2Proof.Machine.execPorRelease s
  | .deviceStart rep => Sys2Proof.Machine.execDeviceStart rep s
  | .supplyWarn rail => Sys2Proof.Machine.execSupplyWarn rail s
  | .supplyOk => Sys2Proof.Machine.execSupplyOk s
  | .brownout rail => Sys2Proof.Machine.execBrownout rail s
  | .resetPin lowNs => Sys2Proof.Machine.execResetPin lowNs s
  | .poolPllUnlock => Sys2Proof.Machine.execPoolPllUnlock s
  | .linkDown m => Sys2Proof.Machine.execLinkDown m s
  | .sysPgoodLow => Sys2Proof.Machine.execSysPgoodLow s
  | .standbyWake cause => Sys2Proof.Machine.execStandbyWake cause s
  | .standbyReturn => Sys2Proof.Machine.execStandbyReturn s
  | .sequenceHoldElapsed n => Sys2Proof.Machine.execSequenceHoldElapsed n s
  | .outputOvercurrent n => Sys2Proof.Machine.execOutputOvercurrent n s
  | .overcurrentHoldoffEnd n => Sys2Proof.Machine.execOvercurrentHoldoffEnd n s
  | .ioBankSupplyUp bank => Sys2Proof.Machine.execIoBankSupplyUp bank s
  | .failPulseEnd => Sys2Proof.Machine.execFailPulseEnd s
  | .debuggerHalt => Sys2Proof.Machine.execDebuggerHalt s
  | .debuggerResume => Sys2Proof.Machine.execDebuggerResume s
  | .poolOperationDone k failed => Sys2Proof.Machine.execPoolOperationDone k failed s
  | .linkUp m speed width => Sys2Proof.Machine.execLinkUp m speed width s
  | .configurationRequest q => Sys2Proof.Machine.execConfigurationRequest q s
  | .doeDiscovery m => Sys2Proof.Machine.execDoeDiscovery m s
  | .setEndpointId m eid => Sys2Proof.Machine.execSetEndpointId m eid s
  | .ibiEnable p on => Sys2Proof.Machine.execIbiEnable p on s
  | .i3cTargetError p badPec => Sys2Proof.Machine.execI3cTargetError p badPec s

end Sys2Proof.Machine
end

