-- ==== Sys2Proof/Safety.lean ====
section
/-! DEFINITION. What claims are stated in: the parts of the state and what a command may change (frames), what belongs to one
host channel, and the invariant of the byte stores. -/

namespace Sys2Proof.Machine

/-- The parts of the state, one for each field of `State`. -/
inductive Field where
  | now
  | ports
  | mbx
  | stn
  | ctl
  | plt
  | wdg
  | areas
  | fps
  | pol
  | polLedger
  | polMin
  | tamperPol
  | prof
  | profCfg
  | dcfg
  | twl
  | poolProf
  | cfgImg
  | imm
  | fca
  | farm
  | pool
  | mins
  | devfw
  | plat
  | mwd
  | intw
  | trace
  | att
  | spdm
  | i3c
  | rings
  | arb
  | views
  | awaits
  | hdrs
  | burin
  | hash
  | drbg
  | drawn
  | keys
  | tamper
  | otp
  | part
  | power
  | clk
  | led
  | dev
  | pending
  deriving DecidableEq, Repr

/-- A part of the state is the same in two states. -/
def Field.same (s t : State) : Field → Prop
  | .now => t.now = s.now
  | .ports => t.ports = s.ports
  | .mbx => t.mbx = s.mbx
  | .stn => t.stn = s.stn
  | .ctl => t.ctl = s.ctl
  | .plt => t.plt = s.plt
  | .wdg => t.wdg = s.wdg
  | .areas => t.areas = s.areas
  | .fps => t.fps = s.fps
  | .pol => t.pol = s.pol
  | .polLedger => t.polLedger = s.polLedger
  | .polMin => t.polMin = s.polMin
  | .tamperPol => t.tamperPol = s.tamperPol
  | .prof => t.prof = s.prof
  | .profCfg => t.profCfg = s.profCfg
  | .dcfg => t.dcfg = s.dcfg
  | .twl => t.twl = s.twl
  | .poolProf => t.poolProf = s.poolProf
  | .cfgImg => t.cfgImg = s.cfgImg
  | .imm => t.imm = s.imm
  | .fca => t.fca = s.fca
  | .farm => t.farm = s.farm
  | .pool => t.pool = s.pool
  | .mins => t.mins = s.mins
  | .devfw => t.devfw = s.devfw
  | .plat => t.plat = s.plat
  | .mwd => t.mwd = s.mwd
  | .intw => t.intw = s.intw
  | .trace => t.trace = s.trace
  | .att => t.att = s.att
  | .spdm => t.spdm = s.spdm
  | .i3c => t.i3c = s.i3c
  | .rings => t.rings = s.rings
  | .arb => t.arb = s.arb
  | .views => t.views = s.views
  | .awaits => t.awaits = s.awaits
  | .hdrs => t.hdrs = s.hdrs
  | .burin => t.burin = s.burin
  | .hash => t.hash = s.hash
  | .drbg => t.drbg = s.drbg
  | .drawn => t.drawn = s.drawn
  | .keys => t.keys = s.keys
  | .tamper => t.tamper = s.tamper
  | .otp => t.otp = s.otp
  | .part => t.part = s.part
  | .power => t.power = s.power
  | .clk => t.clk = s.clk
  | .led => t.led = s.led
  | .dev => t.dev = s.dev
  | .pending => t.pending = s.pending

/-- The frame of a command: from s to t nothing changes but the parts in fs. -/
def Frame (fs : List Field) (s t : State) : Prop := ∀ f, f ∉ fs → f.same s t

/-- a is part of b. -/
def Field.sub (a b : List Field) : Bool := a.all fun f => b.contains f

/-! ## What belongs to one host channel -/

/-- Everything that the state holds for channel c is the same in two states: its port, mailbox, Stencil, platform control, plates,
watchdog, KEEP and SCRATCH areas, policy section and profile. -/
def State.chanSame (c : Fin 128) (s t : State) : Prop :=
  t.port c = s.port c ∧ t.mb c = s.mb c ∧ t.st c = s.st c ∧ t.ch c = s.ch c ∧ t.pl c = s.pl c ∧ t.wd c = s.wd c ∧ t.area c = s.area c ∧
  t.polOf c = s.polOf c ∧ vget t.polLedger c = vget s.polLedger c ∧ t.profOf c = s.profOf c ∧ vget t.profCfg c = vget s.profCfg c

/-- From s to t nothing that belongs to a channel other than n changes. -/
def Others (n : Fin 128) (s t : State) : Prop := ∀ c, c ≠ n → State.chanSame c s t

/-- The parts that are not indexed by host channel. -/
def Field.shared : List Field :=
  [.now, .fps, .polMin, .tamperPol, .dcfg, .twl, .poolProf, .cfgImg, .imm, .fca, .farm, .pool, .mins, .devfw, .plat, .mwd, .intw,
  .trace, .att, .spdm, .i3c, .rings, .arb, .views, .awaits, .hdrs, .burin, .hash, .drbg, .drawn, .keys, .tamper, .otp, .part,
  .power, .clk, .led, .dev, .pending]

/-! ## The invariant of the byte stores -/

/-- KEEP and SCRATCH of every channel are in canonical form: addresses strictly rising, no cell that reads as unwritten memory does. -/
def State.memOk (s : State) : Prop := ∀ n, Memory.wf (s.area n).keep ∧ Memory.wf (s.area n).scratch

/-! ## When a command is taken -/

/-- The bytes of a host command reach its own meaning on channel n: the channel decodes, deep power-down lets the opcode through, no
program or erase runs, the opcode belongs to the host command set in the protocol in force, and no command rule names it in this
protocol and phase. -/
abbrev State.hears (s : State) (n : Fin 128) (op : Nat) : Prop :=
  s.decodes n = true ∧ ((s.port n).dpd = true → op = 0xAB ∨ op = 0x66 ∨ op = 0x99) ∧ s.wip n = false ∧
  inHostSet op (s.port n).crIo.toNat = true ∧
  ∀ r, (s.st n).tbl.ruleOp r op (s.port n).crIo.toNat (s.st n).phase.code = false

/-- A PAGE PROGRAM (0x12) at an offset of the mailbox reaches it: the command is heard, write-enabled, and its address lies in the MAILBOX
window and in the virtual flash. -/
abbrev State.mbxTakes (s : State) (n : Fin 128) (off : Nat) : Prop :=
  s.hears n 0x12 ∧ (s.port n).wel = true ∧ ((s.st n).tbl.mbxBase + off) % 2 ^ 32 % s.vfSize n = (s.st n).tbl.mbxBase + off ∧
  ∃ w, (s.st n).tbl.windowAt ((s.st n).tbl.mbxBase + off) = some w ∧ (s.st n).tbl.treat w = 5

/-- The read commands of R26, each with its opcode. -/
def readForms (n : Fin 128) (q : ReadArgs) : List (Nat × Instr) :=
  [(0x03, .read n false q), (0x13, .read n true q), (0x0B, .fastRead n false q), (0x0C, .fastRead n true q),
   (0x6B, .quadOutputRead n false q), (0x6C, .quadOutputRead n true q), (0xEB, .quadIoRead n false q), (0xEC, .quadIoRead n true q),
   (0xEE, .octalDdrRead n q)]

/-- The address that an opcode of an array command with its address bytes names (R31). -/
def State.arrayAddr (s : State) (n : Fin 128) (op addr : Nat) : Nat :=
  effAddr (ownAddr op (s.port n).crIo.toNat) (s.port n).four (s.vfSize n) addr

/-- The byte that window w of channel n shows at an address: of the bound impression (0xFF beyond it), of KEEP, of SCRATCH, or of the
mailbox. -/
def State.windowByte (s : State) (n : Fin 128) (w : Fin 32) (a : Nat) : Byte :=
  let t := (s.st n).tbl
  match t.treat w with
  | 1 => match s.boundTo n with
    | some i => if (s.dirE i).leaves.toNat * 4096 ≤ t.mapOff w a then 0xFF else (s.dirE i).bytes.read (t.mapOff w a)
    | none => 0xFF
  | 3 => (s.area n).keep.read (t.mapOff w a)
  | 4 => (s.area n).scratch.read (t.mapOff w a)
  | _ => s.mbxByte n (a - t.base w * 4096)

/-- A read of channel n from address a stays in window w, which shows the device's own bytes and may be read in this phase; its dummy
time lasts as long as tier T1 needs; and no line of the bound impression is lost, known to be bad, or in an extent given away since. -/
abbrev State.readsIn (s : State) (n : Fin 128) (op a len period : Nat) (w : Fin 32) : Prop :=
  (∀ i, i < max len 1 → (s.st n).tbl.windowAt (a + i) = some w) ∧ a + len ≤ s.vfSize n ∧ (s.st n).tbl.treat w ∈ [1, 3, 4, 5] ∧
  (s.st n).tbl.perm w (s.st n).phase.code 0 = true ∧ 508 ≤ dummyTime op (s.effDummy n) period ∧
  ∀ i, s.boundTo n = some i → (s.dirE i).lost = false ∧ (s.dirE i).badLeaves = [] ∧ ∀ k < (s.dirE i).leaves.toNat, s.staleLeaf (s.dirE i) k = false

/-- The program commands of R26, each with its opcode. -/
def programForms (n : Fin 128) (addr : Nat) (data : List Byte) (period : Nat) : List (Nat × Instr) :=
  [(0x02, .pageProgram n false addr data period), (0x12, .pageProgram n true addr data period)]

/-- The erase commands of R26 with a range, each with its opcode and its range in bytes. -/
def eraseForms (n : Fin 128) (addr period : Nat) : List (Nat × Nat × Instr) :=
  [(0x20, 0x1000, .erase4Kib n false addr period), (0x21, 0x1000, .erase4Kib n true addr period),
   (0xD8, 0x10000, .erase64Kib n false addr period), (0xDC, 0x10000, .erase64Kib n true addr period)]

/-- A program (cls 1) or erase (cls 2) at address a over len bytes lies in window w, a KEEP or SCRATCH window whose permission the
phase gives, and its bucket holds the cost. -/
abbrev State.changesIn (s : State) (n : Fin 128) (a len cls cost : Nat) (w : Fin 32) : Prop :=
  (s.st n).tbl.windowAt a = some w ∧ (s.st n).tbl.windowOf (a / len * len) len = .win w ∧ (s.st n).tbl.treat w ∈ [3, 4] ∧
  (s.st n).tbl.perm w (s.st n).phase.code cls = true ∧ (s.st n).tokensFor w (cls = 2) cost = true

/-- The bytes of an area that a KEEP (3) or SCRATCH (4) treatment names. -/
def Areas.bytesOf (a : Areas) (treat : Nat) : Memory := if treat = 3 then a.keep else a.scratch

/-- A command is seen on channel n, and changes its port by f: the data phase and the burst of the command before it are over, and RESET
ENABLE is disarmed (R23, R40, R67). -/
def State.seen (s : State) (n : Fin 128) (f : HostPort → HostPort) : State :=
  (s.modPort n fun p =>
    f { p with resetArmed := false, reply := [], driven := 0, dqsDriven := false, burstOpen := false }).modStn n fun t => { t with oldCmd := false }

/-- What a port shows of a data phase of opcode op that delivers bytes: they stand on the opcode's lines, with CHn_DQS in Octal DDR (R23). -/
def HostPort.delivers (p : HostPort) (op : Nat) (bs : List Byte) : HostPort :=
  { p with reply := bs, driven := if bs.isEmpty then 0 else dataLines op p.crIo.toNat, dqsDriven := !bs.isEmpty && p.crIo = 3 }

/-- What a port keeps of a command's address phase (R36). -/
def HostPort.addressed (p : HostPort) (period : Nat) : HostPort := { p with period := BitVec.ofNat 16 period, ddr := p.crIo.toNat = 3 }

/-- A PAGE PROGRAM of the mailbox has been taken (R28, R41): WEL is clear and WIP set. -/
def State.mbxTaken (s : State) (n : Fin 128) : State :=
  s.seen n fun p => { p with ddr := p.crIo.toNat = 3, wel := false, op := some .own }

/-- The device takes the Ovdel command of `src` and leaves the decision to the command's own rules: it waits for nothing, no gate refuses
it, and a DMA reaches the buffer that it names. -/
abbrev State.takes (s : State) (src : Src) (g : Gate) : Prop :=
  s.waits src g = false ∧ s.gateStatus src g = none ∧ (g.dptr.isSome = true → s.dmaUp src.mgr = true)

/-- A manager's write at a BAR0 offset reaches the register: its link is enabled and a page responds there. -/
abbrev State.reaches (s : State) (m : Mgr) (off : Nat) : Prop := s.barOpen m = true ∧ s.mapped off = true

end Sys2Proof.Machine

namespace Sys2Proof

open Sys2Proof.Machine

/-! ## What each command may change -/

/-- The parts of the state that a command may change. -/
def Instr.touches : Instr → List Field
  | .read _ _ _ | .fastRead _ _ _ | .quadOutputRead _ _ _ | .quadIoRead _ _ _ | .octalDdrRead _ _ | .readStatus _ _
  | .readFlagStatus _ _ | .clearFlagStatus _ | .readId _ _ | .readSfdp _ _ _ _ | .readConfig _ _ _ _ | .writeConfig _ _ _ _
  | .writeEnable _ | .writeDisable _ | .writeStatus _ _ | .erase4Kib _ _ _ _ | .erase64Kib _ _ _ _ | .chipErase _ _
  | .enter4ByteAddress _ | .exit4ByteAddress _ | .resetEnable _ | .reset _ | .deepPowerDown _ | .releaseFromDeepPowerDown _ =>
    [.ports, .mbx, .stn, .ctl, .wdg, .areas, .fps, .imm, .fca, .plat, .trace, .spdm, .rings, .views, .awaits, .dev]
  | .pageProgram _ _ _ _ _ | .undecodedOpcode _ _ _ | .allowFrameCommand _ _ _ _ | .mbxSelect _ _ | .wdgToken _ _
  | .wdgExtend _ _ _ | .proofAccept _ _ | .bootDone _ _ | .updOpen _ _ | .updCommit _ _ | .updAbort _ _ | .hostMessagePost _ _
  | .m2hAck _ _ =>
    [.ports, .mbx, .stn, .ctl, .plt, .wdg, .areas, .fps, .imm, .fca, .mins, .plat, .trace, .spdm, .rings, .views, .awaits,
    .drbg, .drawn, .led, .dev]
  | .programEraseDone _ | .refusalWipEnd _ | .outputOvercurrent _ =>
    [.ports]
  | .hostRstPulse _ _ =>
    [.ports, .stn]
  | .hostResetRecovered _ | .overcurrentHoldoffEnd _ =>
    [.now, .ports]
  | .pgoodFall _ =>
    [.ports, .stn, .ctl, .wdg, .plat, .trace, .spdm, .rings, .views, .awaits, .dev]
  | .pgOkSettled _ | .twPulseEnd _ =>
    [.now, .mbx, .ctl, .plt, .wdg, .prof, .twl, .imm, .fca, .mins, .plat, .trace, .spdm, .rings, .views, .awaits, .drbg,
    .drawn, .led, .dev]
  | .updVerifyDone _ _ =>
    [.ports, .mbx, .stn, .ctl, .plt, .wdg, .fps, .imm, .fca, .pool, .mins, .plat, .trace, .spdm, .rings, .views, .awaits,
    .drbg, .drawn, .led, .dev]
  | .bootTmoExpiry _ =>
    [.now, .mbx, .stn, .trace, .rings]
  | .shdCommit _ _ _ =>
    [.mbx, .stn, .trace, .rings, .views, .hdrs]
  | .shdDiscard _ _ =>
    [.stn, .views, .hdrs]
  | .enterRecovery _ _ _ | .exitRecovery _ _ _ =>
    [.mbx, .stn, .trace, .rings, .views]
  | .bucketRefill _ _ _ =>
    [.now, .stn]
  | .fpRediscover _ _ =>
    [.fps, .prof, .views, .hdrs]
  | .fpDiscovery _ _ =>
    [.mbx, .ctl, .plt, .wdg, .fps, .prof, .twl, .imm, .fca, .mins, .plat, .trace, .spdm, .rings, .views, .awaits, .drbg,
    .drawn, .led, .dev]
  | .fpErrclr _ _ =>
    [.fps, .views]
  | .localOpComplete _ _ =>
    [.ports, .stn, .fps]
  | .localWipTimeout _ =>
    [.now, .ports, .stn, .fps, .prof]
  | .holdInstant _ =>
    [.ports, .mbx, .stn, .ctl, .plt, .wdg, .fps, .pol, .prof, .imm, .fca, .mins, .plat, .trace, .spdm, .rings, .views,
    .awaits, .drbg, .drawn, .led, .dev]
  | .impressionTakeDone _ _ | .impressionCopySwitch _ =>
    [.mbx, .ctl, .plt, .wdg, .imm, .fca, .farm, .pool, .mins, .trace, .spdm, .rings, .views, .awaits, .drbg, .drawn, .led,
    .dev]
  | .localConfirmationDone _ _ _ =>
    [.mbx, .ctl, .plt, .wdg, .imm, .fca, .mins, .trace, .spdm, .rings, .views, .awaits, .drbg, .drawn, .led, .dev]
  | .leafReverifyDone _ _ _ _ =>
    [.plt, .imm, .fca, .trace, .rings, .led]
  | .patrolLeaf _ _ _ _ =>
    [.imm, .fca, .trace, .rings]
  | .patrolPause _ _ =>
    [.imm, .views]
  | .keepWriteback _ _ =>
    [.areas]
  | .immChannelOut _ =>
    [.ports, .mbx, .stn, .ctl, .plt, .wdg, .areas, .imm, .fca, .mins, .plat, .trace, .spdm, .rings, .views, .awaits, .drbg,
    .drawn, .led, .dev]
  | .hashLaneKat _ _ =>
    [.farm, .trace, .rings]
  | .poolChannelOut _ _ | .poolEccPatrol _ _ | .poolWearLevel _ _ | .poolOperationDone _ _ =>
    [.pool, .rings]
  | .polTakeOut _ _ =>
    [.pool, .rings, .views, .hdrs]
  | .polReturn _ _ _ =>
    [.pool, .views, .clk]
  | .poolAudit _ _ _ =>
    [.plt, .pool, .trace, .rings, .led]
  | .fcaFlush _ | .fcaCntclr _ =>
    [.fca, .views]
  | .channelReady _ =>
    [.mbx, .ctl, .plt, .wdg, .areas, .prof, .imm, .fca, .mins, .plat, .trace, .spdm, .rings, .views, .awaits, .drbg, .drawn,
    .led, .dev]
  | .releaseInstant _ =>
    [.now, .ports, .mbx, .stn, .ctl, .plt, .wdg, .areas, .prof, .plat, .trace, .spdm, .rings, .views, .awaits, .drbg, .drawn,
    .dev]
  | .ranksBegin | .failPulseEnd =>
    [.now, .plat]
  | .rankBoundary =>
    [.now, .ctl, .plat]
  | .proofDeadline _ | .wdgClose _ =>
    [.now, .ports, .mbx, .stn, .ctl, .plt, .wdg, .imm, .fca, .mins, .plat, .trace, .spdm, .rings, .views, .awaits, .drbg,
    .drawn, .led, .dev]
  | .devfwProofDeadline =>
    [.now, .ports, .mbx, .stn, .ctl, .plt, .wdg, .areas, .fps, .imm, .fca, .farm, .pool, .devfw, .plat, .intw, .trace, .att,
    .spdm, .rings, .views, .hdrs, .burin, .hash, .drbg, .keys, .tamper, .otp, .power, .led, .dev]
  | .devfwSelftestDone _ | .mainClockLoss | .tmpRearm _ =>
    [.ports, .mbx, .stn, .ctl, .plt, .wdg, .areas, .fps, .imm, .fca, .farm, .pool, .devfw, .plat, .intw, .trace, .att, .spdm,
    .rings, .views, .hdrs, .burin, .hash, .drbg, .keys, .tamper, .otp, .power, .led, .dev]
  | .chHold _ _ _ | .chRelease _ _ _ | .chQuarantine _ _ _ | .chReadmit _ _ _ | .chRestart _ _ _ | .ctlOrderHold _ _ _
  | .ctlOrderRelease _ _ _ | .ctlOrderQuarantine _ _ _ | .ctlOrderReadmit _ _ _ | .ctlOrderRestart _ _ _ =>
    [.ports, .mbx, .stn, .ctl, .plt, .wdg, .prof, .twl, .imm, .fca, .mins, .plat, .trace, .spdm, .rings, .views, .awaits,
    .drbg, .drawn, .led, .dev]
  | .chStatus _ _ | .identify _ _ _ _ | .negotiate _ _ | .createCq _ _ | .createSq _ _ | .deleteCq _ _ | .setEventRing _ _ _
  | .getFeature _ _ _ | .plateStatus _ _ _ | .configRead _ _ =>
    [.rings, .views, .awaits, .dev]
  | .twlPulse _ _ =>
    [.ports, .mbx, .stn, .ctl, .plt, .wdg, .imm, .fca, .mins, .plat, .trace, .spdm, .rings, .views, .awaits, .hdrs, .drbg,
    .drawn, .led, .dev]
  | .twlForce _ _ =>
    [.plat, .views]
  | .pgoodTimeout _ =>
    [.now, .ctl, .prof, .twl, .plat, .rings]
  | .wdgClockStop _ =>
    [.ports, .mbx, .stn, .ctl, .plt, .wdg, .prof, .dcfg, .imm, .fca, .mins, .plat, .trace, .spdm, .rings, .views, .awaits,
    .drbg, .drawn, .led, .dev]
  | .wdgCfgWrite _ _ _ =>
    [.mbx, .wdg, .trace, .rings, .views, .hdrs, .drbg, .drawn]
  | .wdgWinWrite _ _ _ =>
    [.wdg, .views, .hdrs]
  | .wdgFreeze _ _ | .wdgThaw _ _ =>
    [.wdg, .trace, .rings, .views, .hdrs]
  | .cleanRun _ =>
    [.now, .wdg, .led]
  | .mwdToken _ _ =>
    [.mbx, .ctl, .plt, .wdg, .prof, .dcfg, .imm, .fca, .mins, .devfw, .plat, .mwd, .trace, .spdm, .rings, .views, .awaits,
    .drbg, .drawn, .led, .dev]
  | .mwdCfgWrite _ _ =>
    [.mwd, .views, .hdrs, .drbg, .drawn]
  | .mwdWinWrite _ _ =>
    [.mwd, .views, .hdrs]
  | .mwdExpiry _ =>
    [.now, .mbx, .ctl, .plt, .wdg, .prof, .dcfg, .imm, .fca, .mins, .devfw, .plat, .mwd, .trace, .spdm, .rings, .views,
    .awaits, .drbg, .drawn, .led, .dev]
  | .ccWatchdogExpiry =>
    [.now, .ports, .mbx, .stn, .ctl, .plt, .wdg, .areas, .fps, .prof, .dcfg, .imm, .fca, .farm, .pool, .mins, .devfw, .plat,
    .intw, .trace, .att, .spdm, .rings, .views, .awaits, .hdrs, .burin, .hash, .drbg, .drawn, .keys, .tamper, .otp, .power,
    .led, .dev]
  | .lockstepMismatch _ | .graverWatchdog | .deviceFwCommit _ _ =>
    [.ports, .mbx, .stn, .ctl, .plt, .wdg, .areas, .fps, .imm, .fca, .farm, .pool, .devfw, .plat, .intw, .trace, .att, .spdm,
    .rings, .views, .awaits, .hdrs, .burin, .hash, .drbg, .keys, .tamper, .otp, .power, .led, .dev]
  | .burinCoreWatchdog _ | .ringEngineWatchdog _ =>
    [.now, .ports, .mbx, .stn, .ctl, .plt, .wdg, .areas, .fps, .imm, .fca, .farm, .pool, .devfw, .plat, .intw, .trace, .att,
    .spdm, .rings, .views, .awaits, .hdrs, .burin, .hash, .drbg, .keys, .tamper, .otp, .power, .led, .dev]
  | .mainClockReturn =>
    [.plat, .mwd, .intw, .trace, .rings, .dev]
  | .intClean =>
    [.now, .intw]
  | .mwdCntclr _ =>
    [.intw, .views, .hdrs]
  | .ccRestartDone =>
    [.ports, .mbx, .stn, .ctl, .plt, .wdg, .fps, .pol, .prof, .twl, .imm, .fca, .mins, .devfw, .plat, .trace, .spdm, .rings,
    .views, .awaits, .burin, .drbg, .drawn, .keys, .led, .dev]
  | .attExtGo _ _ =>
    [.mbx, .trace, .att, .views]
  | .attWallWrite _ _ _ =>
    [.trace, .att, .views]
  | .traceRecordWrite =>
    [.trace, .rings, .led]
  | .getVersion _ _ | .getCapabilities _ _ | .negotiateAlgorithms _ _ | .getDigests _ | .getCertificate _ _ _ _
  | .finish _ _ | .heartbeat _ _ | .endSession _ _ | .chunkSend _ _ _ _ | .chunkGet _ _ | .unsupportedSpdmRequest _ _ =>
    [.spdm, .i3c, .views]
  | .challenge _ _ _ | .getMeasurements _ _ _ _ | .keyExchange _ _ =>
    [.att, .spdm, .i3c, .views, .burin, .drbg, .drawn]
  | .spdmSessionTimeout _ _ =>
    [.now, .spdm]
  | .entdaa _ _ | .setdasa _ _ | .ibiEnable _ _ | .i3cTargetError _ _ =>
    [.i3c]
  | .mctpOvdelRequest _ _ _ =>
    [.ports, .mbx, .stn, .ctl, .plt, .wdg, .prof, .twl, .imm, .fca, .mins, .plat, .trace, .att, .spdm, .i3c, .rings, .views,
    .awaits, .burin, .drbg, .drawn, .led, .dev]
  | .burinJobDone _ _ =>
    [.now, .ports, .mbx, .stn, .ctl, .plt, .wdg, .areas, .fps, .pol, .prof, .dcfg, .imm, .fca, .mins, .plat, .trace, .att,
    .spdm, .rings, .views, .awaits, .burin, .hash, .drbg, .drawn, .keys, .tamper, .otp, .led, .dev]
  | .burinYield _ | .burinSelftestDone _ _ =>
    [.now, .rings, .views, .awaits, .burin, .keys, .dev]
  | .burinPromotion _ =>
    [.now, .burin]
  | .burTakeOut _ _ =>
    [.rings, .views, .awaits, .hdrs, .burin, .keys, .dev]
  | .burReturn _ _ =>
    [.views, .hdrs, .burin]
  | .burCntclr _ _ =>
    [.views, .burin]
  | .hashJobDone _ =>
    [.rings, .views, .awaits, .hash, .dev]
  | .entropyHealthFail _ =>
    [.rings, .drbg]
  | .entropyRetest _ =>
    [.now, .rings, .drbg]
  | .drbRetest _ _ =>
    [.rings, .views, .drbg]
  | .drbgReseed =>
    [.now, .drbg]
  | .ringEnable _ | .sqTailDoorbell _ _ _ | .sqTailRetract _ _ _ | .cqHeadDoorbell _ _ _ | .ringDmaFault _ _ _ =>
    [.rings, .views]
  | .ringDisable _ =>
    [.ctl, .plt, .spdm, .rings, .views, .awaits, .burin, .hash, .keys, .dev]
  | .functionReset _ =>
    [.stn, .ctl, .plt, .plat, .mwd, .att, .spdm, .rings, .views, .awaits, .hdrs, .burin, .hash, .keys, .dev]
  | .sqPhaseReread _ _ _ | .eventSlotWrite _ | .cqInterrupt _ _ =>
    [.now, .rings, .views]
  | .sqEntryConsume _ _ _ =>
    [.rings, .arb, .views, .awaits, .dev]
  | .bulkAgeing _ _ =>
    [.now, .rings]
  | .dmaFailure _ _ _ _ | .deleteSq _ _ | .abort _ _ _ _ =>
    [.ctl, .plt, .spdm, .rings, .views, .awaits, .burin, .hash, .keys, .otp, .dev]
  | .pad _ _ _ =>
    [.rings, .arb, .views]
  | .getLog _ _ _ _ _ | .setFeature _ _ _ _ _ =>
    [.mbx, .rings, .views, .awaits, .dev]
  | .imageStage _ _ _ _ _ _ =>
    [.plt, .fps, .trace, .rings, .views, .awaits, .led, .dev]
  | .imageCommit _ _ _ _ =>
    [.ports, .mbx, .stn, .ctl, .plt, .wdg, .areas, .fps, .pol, .prof, .dcfg, .imm, .fca, .pool, .mins, .plat, .trace, .att,
    .spdm, .rings, .views, .awaits, .burin, .hash, .drbg, .drawn, .keys, .tamper, .otp, .led, .dev]
  | .plateArmProof _ _ _ | .advanceMinVersion _ _ _ _ =>
    [.ports, .mbx, .stn, .ctl, .plt, .wdg, .imm, .fca, .mins, .plat, .trace, .spdm, .rings, .views, .awaits, .drbg, .drawn,
    .led, .dev]
  | .plateErase _ _ _ =>
    [.plt, .fps, .pool, .trace, .rings, .views, .awaits, .led, .dev]
  | .policyLoad _ _ =>
    [.ports, .mbx, .stn, .ctl, .plt, .wdg, .areas, .fps, .pol, .polLedger, .polMin, .tamperPol, .prof, .dcfg, .imm, .fca,
    .mins, .plat, .trace, .att, .spdm, .rings, .views, .awaits, .burin, .hash, .drbg, .drawn, .keys, .tamper, .otp, .led,
    .dev]
  | .stencilTighten _ _ _ _ _ _ =>
    [.mbx, .stn, .trace, .rings, .views, .awaits, .hdrs, .led, .dev]
  | .configWrite _ _ =>
    [.ports, .stn, .ctl, .plt, .wdg, .fps, .prof, .profCfg, .dcfg, .twl, .cfgImg, .imm, .farm, .pool, .plat, .trace, .spdm,
    .rings, .views, .awaits, .power, .led, .dev]
  | .burinOp _ _ _ _ =>
    [.rings, .views, .awaits, .burin, .keys, .dev]
  | .hashOp _ _ _ _ =>
    [.rings, .views, .awaits, .hash, .keys, .dev]
  | .random _ _ =>
    [.rings, .views, .awaits, .drawn, .dev]
  | .quote _ _ _ =>
    [.trace, .att, .rings, .views, .awaits, .burin, .drbg, .drawn, .led, .dev]
  | .tracingRead _ _ _ _ _ =>
    [.trace, .rings, .views, .awaits, .dev]
  | .keyUpdate _ _ | .tamperTrip _ | .loopSample _ _ =>
    [.ports, .mbx, .stn, .ctl, .plt, .wdg, .areas, .fps, .pol, .prof, .dcfg, .imm, .fca, .mins, .plat, .trace, .att, .spdm,
    .rings, .views, .awaits, .burin, .hash, .drbg, .drawn, .keys, .tamper, .otp, .led, .dev]
  | .keyInfo _ _ _ =>
    [.rings, .views, .awaits, .drbg, .drawn, .dev]
  | .zeroize _ _ =>
    [.ports, .mbx, .stn, .ctl, .plt, .wdg, .areas, .fps, .pol, .prof, .imm, .fca, .mins, .plat, .trace, .att, .spdm, .rings,
    .views, .awaits, .burin, .hash, .drbg, .drawn, .keys, .tamper, .otp, .led, .dev]
  | .otpRead _ _ _ _ | .otpFinalise _ _ _ =>
    [.rings, .views, .awaits, .otp, .dev]
  | .otpProgram _ _ _ _ _ =>
    [.intw, .rings, .views, .awaits, .otp, .dev]
  | .deviceFwStage _ _ _ | .deviceFwAccept _ =>
    [.devfw, .trace, .rings, .views, .awaits, .led, .dev]
  | .registerWrite _ _ _ =>
    [.ports, .mbx, .stn, .ctl, .plt, .wdg, .areas, .fps, .prof, .dcfg, .twl, .imm, .fca, .farm, .pool, .mins, .devfw, .plat,
    .mwd, .intw, .trace, .att, .spdm, .rings, .views, .awaits, .hdrs, .burin, .hash, .drbg, .drawn, .keys, .tamper, .otp,
    .power, .led, .dev]
  | .bar0BadAccess _ _ | .lowWordRead _ _ | .lockWrite _ _ _ | .irqClr _ _ _ | .errInfoClear _ _ _ =>
    [.views, .hdrs]
  | .bar0UnmappedAccess _ _ | .configurationRequest _ | .setEndpointId _ _ =>
    [.views]
  | .mbxErrclr _ _ _ =>
    [.ports, .views, .hdrs]
  | .stnCntclr _ _ _ =>
    [.stn, .views]
  | .evtLostclr _ _ =>
    [.ports, .mbx, .stn, .ctl, .plt, .wdg, .areas, .fps, .prof, .dcfg, .imm, .fca, .farm, .pool, .mins, .devfw, .plat, .mwd,
    .intw, .trace, .att, .spdm, .rings, .views, .awaits, .hdrs, .burin, .hash, .drbg, .drawn, .keys, .tamper, .otp, .power,
    .led, .dev]
  | .rngErrclr _ _ =>
    [.ctl, .plt, .spdm, .rings, .views, .awaits, .hdrs, .burin, .hash, .keys, .dev]
  | .pwrSeenClear _ _ =>
    [.views, .hdrs, .power]
  | .tamperInactive _ =>
    [.tamper]
  | .tmpClear _ =>
    [.rings, .views, .hdrs, .tamper]
  | .porRelease =>
    [.trace, .rings, .clk, .dev]
  | .deviceStart _ =>
    [.ports, .mbx, .stn, .ctl, .plt, .wdg, .areas, .fps, .pol, .polLedger, .polMin, .tamperPol, .prof, .profCfg, .dcfg, .twl,
    .poolProf, .cfgImg, .imm, .fca, .farm, .pool, .mins, .devfw, .plat, .mwd, .intw, .trace, .att, .spdm, .i3c, .rings,
    .views, .awaits, .burin, .hash, .drbg, .drawn, .keys, .tamper, .otp, .part, .power, .clk, .led, .dev]
  | .supplyWarn _ =>
    [.rings, .power]
  | .supplyOk =>
    [.ports, .mbx, .stn, .ctl, .plt, .wdg, .imm, .fca, .pool, .mins, .devfw, .plat, .trace, .spdm, .rings, .views, .awaits,
    .drbg, .drawn, .power, .led, .dev]
  | .brownout _ | .resetPin _ =>
    [.now, .ports, .mbx, .stn, .ctl, .plt, .wdg, .areas, .fps, .pol, .prof, .profCfg, .dcfg, .twl, .poolProf, .imm, .fca,
    .farm, .pool, .devfw, .plat, .mwd, .intw, .trace, .att, .spdm, .i3c, .rings, .arb, .views, .awaits, .hdrs, .burin, .hash,
    .drbg, .keys, .tamper, .otp, .part, .power, .clk, .led, .dev]
  | .poolPllUnlock =>
    [.pool, .rings, .clk]
  | .linkDown _ | .linkUp _ _ _ =>
    [.views, .clk]
  | .sysPgoodLow =>
    [.ports, .stn, .ctl, .wdg, .plat, .trace, .spdm, .rings, .views, .awaits, .power, .dev]
  | .standbyWake _ =>
    [.now, .mbx, .ctl, .plt, .wdg, .prof, .dcfg, .imm, .fca, .mins, .plat, .trace, .spdm, .rings, .views, .awaits, .drbg,
    .drawn, .power, .led, .dev]
  | .standbyReturn =>
    [.now, .ports, .stn, .ctl, .wdg, .plat, .trace, .spdm, .rings, .views, .awaits, .dev]
  | .sequenceHoldElapsed _ =>
    [.now, .mbx, .ctl, .plt, .wdg, .imm, .fca, .mins, .trace, .spdm, .rings, .views, .awaits, .drbg, .drawn, .led, .dev]
  | .ioBankSupplyUp _ =>
    [.ctl]
  | .debuggerHalt | .debuggerResume =>
    [.intw]
  | .doeDiscovery _ =>
    [.spdm]

/-- Chapters of the spec, as the rows of the table follow them. -/
inductive Chapter where
  | host
  | mailbox
  | stencil
  | image
  | control
  | watchdog
  | attest
  | engine
  | ring
  | plate
  | policy
  | key
  | page
  | power
  deriving DecidableEq, Repr

/-- The chapter that a command belongs to. -/
def Instr.chapter : Instr → Chapter
  | .read _ _ _ | .fastRead _ _ _ | .quadOutputRead _ _ _ | .quadIoRead _ _ _ | .octalDdrRead _ _ | .readStatus _ _
  | .readFlagStatus _ _ | .clearFlagStatus _ | .readId _ _ | .readSfdp _ _ _ _ | .readConfig _ _ _ _ | .writeConfig _ _ _ _
  | .writeEnable _ | .writeDisable _ | .writeStatus _ _ | .pageProgram _ _ _ _ _ | .erase4Kib _ _ _ _ | .erase64Kib _ _ _ _
  | .chipErase _ _ | .enter4ByteAddress _ | .exit4ByteAddress _ | .resetEnable _ | .reset _ | .deepPowerDown _
  | .releaseFromDeepPowerDown _ | .undecodedOpcode _ _ _ | .allowFrameCommand _ _ _ _ | .programEraseDone _ | .refusalWipEnd _
  | .hostRstPulse _ _ | .hostResetRecovered _ | .pgoodFall _ | .pgOkSettled _ => .host
  | .mbxSelect _ _ | .wdgToken _ _ | .wdgExtend _ _ _ | .proofAccept _ _ | .bootDone _ _ | .updOpen _ _ | .updCommit _ _
  | .updAbort _ _ | .updVerifyDone _ _ | .hostMessagePost _ _ | .m2hAck _ _ | .bootTmoExpiry _ => .mailbox
  | .shdCommit _ _ _ | .shdDiscard _ _ | .enterRecovery _ _ _ | .exitRecovery _ _ _ | .bucketRefill _ _ _ | .fpRediscover _ _
  | .fpDiscovery _ _ | .fpErrclr _ _ | .localOpComplete _ _ | .localWipTimeout _ => .stencil
  | .holdInstant _ | .impressionTakeDone _ _ | .localConfirmationDone _ _ _ | .impressionCopySwitch _
  | .leafReverifyDone _ _ _ _ | .patrolLeaf _ _ _ _ | .patrolPause _ _ | .keepWriteback _ _ | .immChannelOut _
  | .hashLaneKat _ _ | .poolChannelOut _ _ | .polTakeOut _ _ | .polReturn _ _ _ | .poolEccPatrol _ _ | .poolAudit _ _ _
  | .poolWearLevel _ _ | .fcaFlush _ | .fcaCntclr _ => .image
  | .channelReady _ | .releaseInstant _ | .ranksBegin | .rankBoundary | .proofDeadline _ | .devfwProofDeadline
  | .devfwSelftestDone _ | .chHold _ _ _ | .chRelease _ _ _ | .chStatus _ _ | .chQuarantine _ _ _ | .chReadmit _ _ _
  | .chRestart _ _ _ | .ctlOrderHold _ _ _ | .ctlOrderRelease _ _ _ | .ctlOrderQuarantine _ _ _ | .ctlOrderReadmit _ _ _
  | .ctlOrderRestart _ _ _ | .twlPulse _ _ | .twlForce _ _ | .twPulseEnd _ | .pgoodTimeout _ => .control
  | .wdgClose _ | .wdgClockStop _ | .wdgCfgWrite _ _ _ | .wdgWinWrite _ _ _ | .wdgFreeze _ _ | .wdgThaw _ _ | .cleanRun _
  | .mwdToken _ _ | .mwdCfgWrite _ _ | .mwdWinWrite _ _ | .mwdExpiry _ | .ccWatchdogExpiry | .lockstepMismatch _
  | .burinCoreWatchdog _ | .graverWatchdog | .ringEngineWatchdog _ | .mainClockLoss | .mainClockReturn | .intClean
  | .mwdCntclr _ | .ccRestartDone => .watchdog
  | .attExtGo _ _ | .attWallWrite _ _ _ | .traceRecordWrite | .getVersion _ _ | .getCapabilities _ _
  | .negotiateAlgorithms _ _ | .getDigests _ | .getCertificate _ _ _ _ | .challenge _ _ _ | .getMeasurements _ _ _ _
  | .keyExchange _ _ | .finish _ _ | .heartbeat _ _ | .endSession _ _ | .chunkSend _ _ _ _ | .chunkGet _ _
  | .unsupportedSpdmRequest _ _ | .spdmSessionTimeout _ _ | .entdaa _ _ | .setdasa _ _ | .mctpOvdelRequest _ _ _ => .attest
  | .burinJobDone _ _ | .burinYield _ | .burinPromotion _ | .burinSelftestDone _ _ | .burTakeOut _ _ | .burReturn _ _
  | .burCntclr _ _ | .hashJobDone _ | .entropyHealthFail _ | .entropyRetest _ | .drbRetest _ _ | .drbgReseed => .engine
  | .ringEnable _ | .ringDisable _ | .functionReset _ | .sqTailDoorbell _ _ _ | .sqTailRetract _ _ _ | .cqHeadDoorbell _ _ _
  | .sqPhaseReread _ _ _ | .sqEntryConsume _ _ _ | .bulkAgeing _ _ | .eventSlotWrite _ | .cqInterrupt _ _
  | .ringDmaFault _ _ _ | .dmaFailure _ _ _ _ | .pad _ _ _ | .identify _ _ _ _ | .negotiate _ _ | .createCq _ _
  | .createSq _ _ | .deleteSq _ _ | .deleteCq _ _ | .setEventRing _ _ _ | .abort _ _ _ _ | .getLog _ _ _ _ _
  | .setFeature _ _ _ _ _ | .getFeature _ _ _ => .ring
  | .imageStage _ _ _ _ _ _ | .imageCommit _ _ _ _ | .plateArmProof _ _ _ | .plateStatus _ _ _ | .advanceMinVersion _ _ _ _
  | .plateErase _ _ _ => .plate
  | .policyLoad _ _ | .stencilTighten _ _ _ _ _ _ | .configWrite _ _ | .configRead _ _ => .policy
  | .burinOp _ _ _ _ | .hashOp _ _ _ _ | .random _ _ => .engine
  | .quote _ _ _ | .tracingRead _ _ _ _ _ => .attest
  | .keyUpdate _ _ | .keyInfo _ _ _ | .zeroize _ _ | .otpRead _ _ _ _ | .otpProgram _ _ _ _ _ | .otpFinalise _ _ _ => .key
  | .deviceFwStage _ _ _ | .deviceFwCommit _ _ | .deviceFwAccept _ => .plate
  | .registerWrite _ _ _ | .bar0BadAccess _ _ | .bar0UnmappedAccess _ _ | .lowWordRead _ _ | .lockWrite _ _ _ | .irqClr _ _ _
  | .errInfoClear _ _ _ | .mbxErrclr _ _ _ | .stnCntclr _ _ _ | .evtLostclr _ _ | .rngErrclr _ _ | .pwrSeenClear _ _ => .page
  | .tamperTrip _ | .loopSample _ _ | .tamperInactive _ | .tmpClear _ | .tmpRearm _ => .key
  | .porRelease | .deviceStart _ | .supplyWarn _ | .supplyOk | .brownout _ | .resetPin _ | .poolPllUnlock | .linkDown _
  | .sysPgoodLow | .standbyWake _ | .standbyReturn | .sequenceHoldElapsed _ | .outputOvercurrent _ | .overcurrentHoldoffEnd _
  | .ioBankSupplyUp _ | .failPulseEnd | .debuggerHalt | .debuggerResume | .poolOperationDone _ _ | .linkUp _ _ _
  | .configurationRequest _ | .doeDiscovery _ | .setEndpointId _ _ | .ibiEnable _ _ | .i3cTargetError _ _ => .power

/-! ## Ovdel commands -/

/-- The manager whose queue carries an Ovdel command, and the command's row in the tables of R19, R123, R162, R227, R228, R229, R235 and R269. -/
abbrev Instr.gate (c : Instr) : Option (Src × Gate) := Machine.gateRow c

/-- The device takes the Ovdel command and leaves the decision to the command's own rules. -/
def Machine.State.allows (s : State) (c : Instr) : Prop := ∀ src g, c.gate = some (src, g) → s.takes src g

/-! ## Channel orders -/

/-- The two ways in which a manager gives an order on channel n: the Ovdel command, and the register (R137). `held`: the device holds the
channel in the same slot. -/
def Machine.orderForms (src : Src) (ch : Half) (n : Fin 128) (rival : Option Order) (held : Bool) : Order → List Instr
  | .hold => [.chHold src ch rival, .ctlOrderHold src.mgr n rival]
  | .release => [.chRelease src ch ⟨rival, held⟩, .ctlOrderRelease src.mgr n ⟨rival, held⟩]
  | .quarantine => [.chQuarantine src ch rival, .ctlOrderQuarantine src.mgr n rival]
  | .readmit => [.chReadmit src ch rival, .ctlOrderReadmit src.mgr n rival]
  | .restart => [.chRestart src ch rival, .ctlOrderRestart src.mgr n rival]

/-- Form c of an order on channel n comes to be judged: a command is taken; for a register write the page responds, and the control
cluster is there for an order that loosens (R16); the channel is enabled by the part number. -/
def Machine.State.orders (s : State) (src : Src) (ch : Half) (n : Fin 128) (o : Order) (c : Instr) : Prop :=
  s.allows c ∧ (c.gate = none → s.reaches src.mgr (chanPage n 0 + 0x060) ∧ (o.loosens = true → s.dev.ccAbsent = false)) ∧
  ch.toNat = n.1 ∧ s.chanOn n = true

/-- The manager may give the order, and neither an order of the other manager nor a hold of the device in the same slot wins over it (R66,
R137, R141, R225). -/
abbrev Machine.State.mayOrder (s : State) (src : Src) (o : Order) (rival : Option Order) (held : Bool) : Prop :=
  s.dev.state ≠ .safeHold ∧ (o.loosens = true → s.isSecondary src.mgr = false) ∧ o.loses src.mgr rival = false ∧
  (o = .release → held = false)

end Sys2Proof
end

