-- ==== Sys2Proof/Certificates/Slice0/Obligations.lean ====
section
/-! DEFINITION. What is claimed of the model: the statements for the provers. -/

open Sys2Proof Sys2Proof.Machine

/-! ## The machine -/

/-- What every statement about a command says of a run. -/
def Obligations.StepRunsTheFrontCommand : Prop :=
  ∀ (s : State) (c : Instr) (rest : List Instr), step { s with pending := c :: rest } = exec c { s with pending := rest }

/-- The idle step, the model's choice (log entry 1): one REFCLK edge passes, and what is due by then of the summary records is written. -/
def Obligations.StepOnAnEmptyQueuePassesTime : Prop :=
  ∀ s : State, s.pending = [] → step s = .next { s with now := s.now + 10 }.flushSummaries ∧
    ∀ t, step s = .next t → t.now = s.now + 10 ∧ t.pending = [] ∧ Frame [.now, .trace, .rings] s t

/-- The state at power-on: the Reset columns of the pages, and R126, R140, R141. -/
def Obligations.ResetIsPowerOnWithEveryHostHeld : Prop :=
  let s := State.reset
  s.dev.state = .por ∧ s.now = 0 ∧ s.pending = [] ∧
  (∀ n, (s.ch n).state = .off ∧ (s.ch n).sink = true) ∧
  (∀ n, (s.wd n).armed = false ∧ (s.wd n).prescale = 10 ∧ (s.wd n).violN = 1 ∧ (s.wd n).ladder = true) ∧
  (∀ m, (s.ring m).en = false ∧ (s.ring m).rdy = false ∧ (s.ring m).version = 0x0103 ∧ (s.ring m).mask = 0xFF ∧
    (s.ring m).sqs = [] ∧ (s.ring m).cqs = []) ∧
  s.tamper.last = 0x1F ∧ s.tamper.latched = 0 ∧ s.memOk

/-- The invariant of the byte stores. -/
def Obligations.ByteStoresStayCanonical : Prop :=
  ∀ s t : State, s.memOk → step s = .next t → t.memOk

/-- No command faults or is refused and none adds to or takes from the queue. -/
def Obligations.EveryCommandAnswersANextState : Prop :=
  ∀ (c : Instr) (s : State), ∃ t, exec c s = .next t ∧ t.pending = s.pending

/-- Device time (R253): only a cold reset sets it back. -/
def Obligations.DeviceTimeNeverGoesBack : Prop :=
  ∀ (c : Instr) (s t : State), (∀ r, c ≠ .brownout r) → (∀ l, c ≠ .resetPin l) → exec c s = .next t → s.now ≤ t.now

/-- The fuse array only gains bits, at both margins. -/
def Obligations.BlownFusesStayBlown : Prop :=
  ∀ s t : State, step s = .next t → ∀ b,
    (s.otp.normalBit b = true → t.otp.normalBit b = true) ∧ (s.otp.strictBit b = true → t.otp.strictBit b = true) ∧
    (t.otp.strictBit b = true → t.otp.normalBit b = true)

/-- R129, R132: no other event releases a host. -/
def Obligations.OnlyAReleaseInstantReleasesAHost : Prop :=
  ∀ (c : Instr) (s t : State) (n : Fin 128), exec c s = .next t → (s.ch n).released = false → (t.ch n).released = true →
    c = .releaseInstant n ∧ (s.ch n).state = .ready ∧ (s.ch n).relAsked = true ∧ (s.ch n).sink = true ∧ s.dev.state = .running ∧
    s.tamper.burnt = false ∧ (s.mb n).session ≠ 2 ∧ s.portDown n = false ∧ ((s.ch n).bound.isSome = true ∨ s.exempt n = true)

/-- The channels are separate from one another for the commands of a host. -/
def Obligations.AHostChangesOnlyItsOwnChannel : Prop :=
  ∀ (s t : State) (n : Fin 128) (q : ReadArgs) (addr len period : Nat) (op v : Byte) (c : Instr),
    c ∈ (readForms n q).map Prod.snd ++ (eraseForms n addr period).map (fun e => e.2.2) ++
      [.readStatus n ⟨len, period⟩, .readFlagStatus n ⟨len, period⟩, .clearFlagStatus n, .readId n ⟨len, period⟩, .readSfdp n addr len period,
       .readConfig n addr len period, .writeConfig n addr v period, .writeEnable n, .writeDisable n, .writeStatus n v, .chipErase n op, .enter4ByteAddress n,
       .exit4ByteAddress n, .resetEnable n, .reset n, .deepPowerDown n, .releaseFromDeepPowerDown n] →
    exec c s = .next t → Others n s t

/-- Frames: `Instr.touches` lists the parts that each command may change. -/
def Obligations.HostSideCommandsKeepTheirFrame : Prop :=
  ∀ (c : Instr) (s t : State), c.chapter ∈ [Chapter.host, Chapter.mailbox, Chapter.stencil, Chapter.image] → exec c s = .next t → Frame c.touches s t

/-- Frames: `Instr.touches` lists the parts that each command may change. -/
def Obligations.ControlCommandsKeepTheirFrame : Prop :=
  ∀ (c : Instr) (s t : State), c.chapter ∈ [Chapter.control, Chapter.watchdog, Chapter.plate, Chapter.key, Chapter.power] → exec c s = .next t → Frame c.touches s t

/-- Frames: `Instr.touches` lists the parts that each command may change. -/
def Obligations.ServiceCommandsKeepTheirFrame : Prop :=
  ∀ (c : Instr) (s t : State), c.chapter ∈ [Chapter.attest, Chapter.engine, Chapter.ring, Chapter.policy, Chapter.page] → exec c s = .next t → Frame c.touches s t

/-! ## Host commands -/

/-- RDSR, RDFSR, RDID, RDCR and READ SFDP, heard, answer the register or table that they name on the lines of the protocol, and change nothing
else but what the port records of the command (chapter "Host channels and the virtual flash"). -/
def Obligations.RegisterReadsAnswer : Prop :=
  ∀ (s : State) (n : Fin 128) (addr len period : Nat),
    let island := fun p : HostPort => if p.crIo.toNat = 3 then p.addressed period else p
    (s.hears n 0x05 → exec (.readStatus n ⟨len, period⟩) s = .next (s.seen n fun p =>
      (island p).delivers 0x05 (List.replicate len (if p.wel then 0x02 else 0x00)))) ∧
    (s.hears n 0x70 → exec (.readFlagStatus n ⟨len, period⟩) s = .next (s.seen n fun p =>
      (island p).delivers 0x70 (List.replicate len (BitVec.ofNat 8 (0x80 + (if p.eraseFail then 0x20 else 0) +
        (if p.programFail then 0x10 else 0) + (if p.supplyFail then 0x08 else 0) + (if p.protFail then 0x02 else 0) +
        if p.addr4 || p.crIo = 3 then 0x01 else 0))))) ∧
    (s.hears n 0x9F → exec (.readId n ⟨len, period⟩) s = .next (s.seen n fun p =>
      (island p).delivers 0x9F ((List.range len).map fun i => (s.identOf n).jedec.getD (i % 20) 0))) ∧
    (s.hears n 0x65 → exec (.readConfig n addr len period) s = .next (s.seen n fun p =>
      (p.addressed period).delivers 0x65 (List.replicate len (if addr = 0 then p.crIo else if addr = 1 then p.crDummy
        else if addr = 2 then (if p.addr4 || p.crIo = 3 then 1 else 0) else if addr = 3 then p.crDrive.zeroExtend 8 else 0)))) ∧
    (s.hears n 0x5A → 508 ≤ (if (s.port n).crIo.toNat = 3 then s.effDummy n else 8) * period →
      exec (.readSfdp n addr len period) s = .next (s.seen n fun p => (p.addressed period).delivers 0x5A (s.sfdpBytes n addr len)))

/-- The five reads of R26 that read a register or an identity complete for every host that they are addressed to (R25, R28, R32, R33): the
next state holds the bytes that the host reads, and differs in nothing outside the channel. -/
def Obligations.RegisterReadsComplete : Prop :=
  ∀ (s : State) (n : Fin 128) (addr len period : Nat),
    let answers := fun (c : Instr) (bytes : List Byte) =>
      ∃ t, exec c s = .next t ∧ (t.port n).reply = bytes ∧ Frame [.ports, .stn] s t ∧ ∀ k, k ≠ n → t.port k = s.port k ∧ t.st k = s.st k
    (s.hears n 0x05 → answers (.readStatus n ⟨len, period⟩) (List.replicate len (if (s.port n).wel then 2 else 0))) ∧
    (s.hears n 0x70 → answers (.readFlagStatus n ⟨len, period⟩) (List.replicate len (BitVec.ofNat 8 (0x80 +
      (if (s.port n).eraseFail then 0x20 else 0) + (if (s.port n).programFail then 0x10 else 0) + (if (s.port n).supplyFail then 0x08 else 0) +
      (if (s.port n).protFail then 0x02 else 0) + if (s.port n).four then 0x01 else 0)))) ∧
    (s.hears n 0x9F → answers (.readId n ⟨len, period⟩) ((List.range len).map fun i => (s.identOf n).jedec.getD (i % 20) 0)) ∧
    (s.hears n 0x65 → ∀ v, (addr, v) ∈ [(0, (s.port n).crIo), (1, (s.port n).crDummy), (2, if (s.port n).four then 1 else 0),
      (3, (s.port n).crDrive.zeroExtend 8)] → answers (.readConfig n addr len period) (List.replicate len v)) ∧
    (s.hears n 0x65 → 4 ≤ addr → answers (.readConfig n addr len period) (List.replicate len 0)) ∧
    (s.hears n 0x5A →
      if 508 ≤ (if (s.port n).crIo.toNat = 3 then s.effDummy n else 8) * period then answers (.readSfdp n addr len period) (s.sfdpBytes n addr len)
      else ∃ t, exec (.readSfdp n addr len period) s = .next t ∧ (t.port n).reply = List.replicate len 0xFF ∧
        (t.port n).shortDummy = satInc (s.port n).shortDummy)

/-- The 32 bytes of a completion entry hold its fields where R218 has them. -/
def Obligations.CompletionEntriesHaveTheirLayout : Prop :=
  ∀ c : Completion, let b := c.bytes
    b.length = 32 ∧ slice b 0 16 = slice c.result 0 16 ∧ leAt b 16 2 = c.sqhd.toNat ∧ leAt b 18 2 = c.sqid.toNat ∧ leAt b 20 2 = c.cid.toNat ∧
      field (leAt b 22 2) 14 0 = c.status.toNat ∧ bit (leAt b 22 2) 15 = c.more ∧ leAt b 24 4 = c.info.toNat ∧ leAt b 28 3 = 0 ∧
      bit (leAt b 31 1) 7 = c.phase ∧ field (leAt b 31 1) 6 0 = 0

/-- The commands of R26 that only set or clear a latch of the channel, and WRCR (R25, R28). -/
def Obligations.LatchCommandsSetTheirLatch : Prop :=
  ∀ (s : State) (n : Fin 128) (addr period : Nat) (v : Byte),
    (s.hears n 0x06 → exec (.writeEnable n) s = .next (s.seen n fun p => { p with wel := true })) ∧
    (s.hears n 0x04 → exec (.writeDisable n) s = .next (s.seen n fun p => { p with wel := false })) ∧
    (s.hears n 0x01 → exec (.writeStatus n v) s = .next (s.seen n fun p => { p with wel := false })) ∧
    (s.hears n 0xB7 → exec (.enter4ByteAddress n) s = .next (s.seen n fun p => { p with addr4 := true })) ∧
    (s.hears n 0xE9 → exec (.exit4ByteAddress n) s = .next (s.seen n fun p => { p with addr4 := false })) ∧
    (s.hears n 0x50 → exec (.clearFlagStatus n) s = .next (s.seen n fun p =>
      { p with eraseFail := false, programFail := false, supplyFail := false, protFail := false })) ∧
    (s.hears n 0x66 → exec (.resetEnable n) s = .next (s.seen n fun p => { p with resetArmed := true })) ∧
    (s.hears n 0xB9 → exec (.deepPowerDown n) s = .next (s.seen n fun p => { p with dpd := true })) ∧
    (s.hears n 0xAB → exec (.releaseFromDeepPowerDown n) s = .next (s.seen n fun p => { p with dpd := false })) ∧
    (s.hears n 0x72 → exec (.writeConfig n addr v period) s = .next (s.seen n fun p =>
      let p' := { p.addressed period with wel := false }
      if !p.wel then p'
      else if addr = 0 ∧ v.toNat ≤ 3 then { p' with crIo := v, crDummy := 0 }
      else if addr = 1 ∧ (v = 0 ∨ 4 ≤ v.toNat ∧ v.toNat ≤ 40) then { p' with crDummy := v }
      else if addr = 2 then { p' with addr4 := v.getLsbD 0 }
      else if addr = 3 then { p' with crDrive := v.truncate 2 }
      else p'))

/-- A host reset (R40), by pin and by command, and its end. -/
def Obligations.HostResetRestoresDefaults : Prop :=
  ∀ (s : State) (n : Fin 128) (low : Nat),
    let after := fun p : HostPort =>
      { p with
        crIo := 0, crDummy := 0, addr4 := false, crDrive := 1, wel := false, eraseFail := false, programFail := false
        supplyFail := false, protFail := false, dpd := false, resetArmed := false, resetEnd := some (s.now + 30000)
        op := match p.op with
          | some (.refused _ _) => none
          | o => o }
    (s.hears n 0x99 → (s.port n).resetArmed = true → exec (.reset n) s = .next (s.seen n after)) ∧
    (s.hears n 0x99 → (s.port n).resetArmed = false → exec (.reset n) s = .next (s.seen n id)) ∧
    (s.dev.state = .running → (s.ch n).released = true → (s.ch n).pgood = true → s.chanOn n = true →
      exec (.hostRstPulse n low) s = .next (if 1000 ≤ low then (s.csRise n).modPort n after else s)) ∧
    (s.modPort n after).decodes n = false ∧
    ∀ e, (s.port n).resetEnd = some e →
      exec (.hostResetRecovered n) s = .next ({ s with now := max s.now e }.modPort n fun p => { p with resetEnd := none })

/-- A read within one readable window of the device's own bytes (R26, R37, R42, R47, R52). -/
def Obligations.ReadDeliversTheWindowsBytes : Prop :=
  ∀ (s : State) (n : Fin 128) (q : ReadArgs) (w : Fin 32), q.upset = none → ∀ x ∈ readForms n q,
    s.hears n x.1 → s.readsIn n x.1 (s.arrayAddr n x.1 q.addr) q.len q.period w →
    ∃ t, exec x.2 s = .next t ∧
      (t.port n).reply = (List.range q.len).map (fun i => s.windowByte n w (s.arrayAddr n x.1 q.addr + i)) ∧
      (t.port n).driven = (if q.len = 0 then 0 else dataLines x.1 (s.port n).crIo.toNat) ∧
      (t.port n).wel = (s.port n).wel ∧ (t.port n).op = (s.port n).op ∧ (t.port n).resetArmed = false ∧
      (t.port n).period = BitVec.ofNat 16 q.period ∧ t.areas = s.areas ∧
      ((s.st n).tbl.treat w = 5 → (∃ i < q.len, (s.st n).tbl.mbxBase + 0x1000 ≤ s.arrayAddr n x.1 q.addr + i ∧
          s.arrayAddr n x.1 q.addr + i < (s.st n).tbl.mbxBase + 0x1040) →
        (t.mb n).cdiTaken = true ∧ (t.mb n).cdi = [])

/-- A read that the Stencil refuses (R52, R58, R59). -/
def Obligations.DeniedReadAnswersOnes : Prop :=
  ∀ (s : State) (n : Fin 128) (q : ReadArgs) (win : Option (Fin 32)) (reason : Nat), ∀ x ∈ readForms n q, s.hears n x.1 →
    let t := (s.st n).tbl
    let a := s.arrayAddr n x.1 q.addr
    t.windowAt a = win →
    (match win with
      | none => reason = 2
      | some w => (t.treat w = 0 ∧ reason = 2) ∨
          (t.treat w ≠ 0 ∧ t.treat w ≠ 5 ∧ t.perm w (s.st n).phase.code 0 = false ∧ reason = 3)) →
    ∃ u, exec x.2 s = .next u ∧ (u.port n).reply = ones q.len ∧ u.areas = s.areas ∧ u.mbx = s.mbx ∧
      (u.st n).lastAddr = BitVec.ofNat 32 a ∧
      (u.st n).lastDeny = BitVec.ofNat 32 (pack [(0, x.1), (8, (win.map fun w => w.1).getD 31), (13, reason), (16, (s.st n).phase.code),
        (18, (s.port n).crIo.toNat), (20, (s.st n).epoch.toNat % 4096)]) ∧
      (u.st n).deniedRead = satInc (s.st n).deniedRead ∧ (u.st n).tbl = t ∧ (u.st n).phase = (s.st n).phase

/-- The bytes that a PAGE PROGRAM or an erase of KEEP or SCRATCH changes, and no other (R29, R52, R95, R96). -/
def Obligations.ProgramAndEraseChangeExactlyTheirBytes : Prop :=
  ∀ (s : State) (n : Fin 128) (addr period : Nat) (data : List Byte) (w : Fin 32), (s.port n).wel = true →
    (data.length ≤ 256 → ∀ x ∈ programForms n addr data period, s.hears n x.1 →
      let a := s.arrayAddr n x.1 addr
      let tr := (s.st n).tbl.treat w
      let at_ := fun i => (s.st n).tbl.mapOff w (a / 256 * 256 + (a + i) % 256)
      s.changesIn n a 256 1 1 w →
      ∃ t, exec x.2 s = .next t ∧ (t.port n).op = some .own ∧ (t.port n).wel = false ∧
        (∀ i, (h : i < data.length) → ((t.area n).bytesOf tr).read (at_ i) = ((s.area n).bytesOf tr).read (at_ i) &&& data[i]) ∧
        (∀ o, (∀ i < data.length, at_ i ≠ o) → ((t.area n).bytesOf tr).read o = ((s.area n).bytesOf tr).read o) ∧
        (t.area n).bytesOf (7 - tr) = (s.area n).bytesOf (7 - tr)) ∧
    (∀ x ∈ eraseForms n addr period, s.hears n x.1 →
      let a := s.arrayAddr n x.1 addr
      let tr := (s.st n).tbl.treat w
      let lo := (s.st n).tbl.mapOff w (a / x.2.1 * x.2.1)
      s.changesIn n a x.2.1 2 (if x.2.1 = 0x10000 then 16 else 1) w →
      ∃ t, exec x.2.2 s = .next t ∧ (t.port n).op = some .own ∧ (t.port n).wel = false ∧
        (∀ o, ((t.area n).bytesOf tr).read o = if lo ≤ o ∧ o < lo + x.2.1 then 0xFF else ((s.area n).bytesOf tr).read o) ∧
        (t.area n).bytesOf (7 - tr) = (s.area n).bytesOf (7 - tr))

/-- A program or erase without WEL (R28). -/
def Obligations.ChangeWithoutWriteEnableIsIgnored : Prop :=
  ∀ (s : State) (n : Fin 128) (addr period : Nat) (data : List Byte) (w : Fin 32), (s.port n).wel = false →
    let seen := s.seen n fun p => p.addressed period
    (∀ x ∈ programForms n addr data period, s.hears n x.1 → s.changesIn n (s.arrayAddr n x.1 addr) 256 1 1 w → exec x.2 s = .next seen) ∧
    (∀ x ∈ eraseForms n addr period, s.hears n x.1 →
      s.changesIn n (s.arrayAddr n x.1 addr) x.2.1 2 (if x.2.1 = 0x10000 then 16 else 1) w → exec x.2.2 s = .next seen)

/-- CHIP ERASE (R29), the two ends of WIP (R28, R30), and opcodes that are not decoded (R24, R27). -/
def Obligations.RefusalsSetWipThenTheirFlag : Prop :=
  ∀ (s : State) (n : Fin 128),
    (∀ o : Byte, let op := if o = 0x60 then 0x60 else 0xC7
      s.hears n op → (s.port n).wel = true →
      ∃ t, exec (.chipErase n o) s = .next t ∧ (t.port n).op = some (.refused true false) ∧ (t.port n).wel = false ∧
        (t.st n).lastDeny = BitVec.ofNat 32 (pack [(0, op), (8, 31), (13, 7), (16, (s.st n).phase.code), (18, (s.port n).crIo.toNat),
          (20, (s.st n).epoch.toNat % 4096)]) ∧
        (t.st n).protectedCnt = satInc (s.st n).protectedCnt ∧ t.areas = s.areas ∧ t.fps = s.fps) ∧
    (∀ er su, (s.port n).op = some (.refused er su) → exec (.refusalWipEnd n) s = .next (s.modPort n fun p =>
      { p with op := none, eraseFail := p.eraseFail || er, programFail := p.programFail || !er,
               supplyFail := p.supplyFail || su, protFail := p.protFail || !su })) ∧
    ((s.port n).op = some .own → exec (.programEraseDone n) s = .next (s.modPort n fun p => { p with op := none })) ∧
    (∀ o second : Byte, s.decodes n = true → (s.port n).dpd = false →
      ((s.port n).crIo = 3 ∧ second ≠ ~~~o) ∨
        (s.wip n = false ∧ inHostSet o.toNat (s.port n).crIo.toNat = false ∧
          ∀ r, (s.st n).tbl.ruleOp r o.toNat (s.port n).crIo.toNat (s.st n).phase.code = false) →
      exec (.undecodedOpcode n o second) s = .next ((s.csRise n).modPort n fun p =>
        { p with undecoded := satInc p.undecoded, resetArmed := false }))

/-- A frame of a command rule (R56, R57, R74, R75). -/
def Obligations.AllowedFrameReachesTheLocalFlash : Prop :=
  ∀ (s : State) (n : Fin 128) (op : Byte) (q : ReadArgs) (data : List Byte) (r : Fin 64) (w : Fin 32),
    let t := (s.st n).tbl
    let sent := fun bs : List Byte => (if t.rWren r then [LocalCmd.wren] else []) ++
      [{ op := op.toNat, addr := none, dummy := t.rDummy r, data := bs }]
    s.decodes n = true → (s.port n).dpd = false → s.wip n = false → inHostSet op.toNat (s.port n).crIo.toNat = false →
    (∀ r', t.ruleOp r' op.toNat (s.port n).crIo.toNat (s.st n).phase.code = true ↔ r' = r) → t.rAction r = 1 → t.rAddr r = 0 →
    t.rWin r = w.1 → t.used w = true → t.treat w = 2 → t.perm w (s.st n).phase.code (t.rClass r) = true →
    s.passReady n q.period = true →
    (t.rClass r = 0 → t.rDir r = 2 → q.len ≤ 4096 →
      exec (.allowFrameCommand n op q data) s = .next ((s.seen n fun p =>
        { p.delivers op.toNat (slice q.localData 0 q.len) with burstOpen := q.csLow && q.len ≠ 0 }).issue n (sent []))) ∧
    (t.rClass r = 1 ∨ t.rClass r = 2 → s.power.inhibit = false → (s.st n).tokensFor w (t.rClass r = 2) 1 = true →
      ∃ u, exec (.allowFrameCommand n op q data) s = .next u ∧ (u.port n).op = some (.forwarded (t.rClass r = 2)) ∧
        u.areas = s.areas ∧ u.mbx = s.mbx ∧
        ∀ f, portOf n = some f → (u.fp f).issued = sent (if t.rDir r = 1 then data.take 256 else []) ∧
          ((u.fp f).localOp.map fun o => (o.erase, o.host, o.start)) = some (decide (t.rClass r = 2), true, s.now))

/-- CHn_PGOOD (R39, R127). -/
def Obligations.PowerGoodHoldsTheHost : Prop :=
  ∀ (s : State) (n : Fin 128), s.chanOn n = true →
    ((s.ch n).pgood = true → ∃ t, exec (.pgoodFall n) s = .next t ∧ (t.ch n).pgood = false ∧ (t.ch n).pgOk = false ∧ (t.port n).reply = [] ∧
      ((s.ch n).released = true → s.dev.state = .running → (t.ch n).state = .held ∧ (t.ch n).kind = .pgood) ∧
      ((s.ch n).released = false →
        t = (s.modCtl n fun c => { c with pgood := false, pgOk := false }).csRise n)) ∧
    exec (.pgOkSettled ⟨n, false⟩) s = .next (s.modCtl n fun c => { c with pgood := true, pgRise := if c.pgood then c.pgRise else s.now }) ∧
    (∃ t, exec (.pgOkSettled ⟨n, true⟩) s = .next t ∧ (t.ch n).pgood = true ∧ (t.ch n).pgOk = true ∧
      ((s.ch n).pgood = true → s.dev.state ≠ .running →
        t = { s with now := max s.now ((s.ch n).pgRise + (s.profOf n).pgSettle * 1000000) }.modCtl n fun c => { c with pgOk := true }))

/-! ## Mailbox commands -/

/-- MBX_REV and MBX_SELECT (R44). -/
def Obligations.MailboxRevisionIsSelected : Prop :=
  ∀ (s : State) (n : Fin 128) (v : Word),
    (List.range 4).map (s.mbxByte n) = [(s.mb n).rev, 3, 0, 0] ∧
    (s.mbxTakes n 0x0004 → exec (.mbxSelect n v) s = .next (
      if v.toNat % 256 = 1 ∨ v.toNat % 256 = 2 then (s.mbxTaken n).modMbx n fun b => { b with rev := BitVec.ofNat 8 v.toNat }
      else (s.mbxTaken n).mbxIgnored n)) ∧
    ∀ t, exec (.releaseInstant n) s = .next t → (s.ch n).released = false → (t.ch n).released = true → (t.mb n).rev = 1

/-- The two ends of phase BOOT (R46). -/
def Obligations.BootEndsByWriteOrTimeout : Prop :=
  ∀ (s : State) (n : Fin 128) (v : Word),
    (s.mbxTakes n 0x0100 →
      (v = 1 → ∃ t, exec (.bootDone n v) s = .next t ∧ (t.mb n).bootDone = true ∧
        (t.st n).phase = (if (s.st n).phase = .boot then Phase.run else (s.st n).phase) ∧ (t.port n).ignored = (s.port n).ignored) ∧
      (v ≠ 1 → exec (.bootDone n v) s = .next ((s.mbxTaken n).mbxIgnored n))) ∧
    (let bt := (s.st n).tbl.bootTmo.toNat;
      ((s.st n).phase = .boot ∧ (s.ch n).released = true ∧ bt ≠ 0 →
        ∃ t, exec (.bootTmoExpiry n) s = .next t ∧ (t.st n).phase = .run ∧ (t.st n).tmoHit = true ∧
          t.now = max s.now ((s.ch n).relT + bt * 1000000000)) ∧
      (¬((s.st n).phase = .boot ∧ (s.ch n).released = true ∧ bt ≠ 0) → exec (.bootTmoExpiry n) s = .next s))

/-- Services and extensions (R148, R149, R152, R153). -/
def Obligations.WatchdogFieldsServeAndExtend : Prop :=
  ∀ (s : State) (n : Fin 128) (token : DWord) (units : Word),
    let w := s.wd n
    let x := (s.polOf n).wdg.extMax;
    (∀ i off, (i, off) ∈ [(Instr.wdgToken n token, 0x0050), (Instr.wdgExtend n token units, 0x0058)] → s.mbxTakes n off →
      (w.armed = false → exec i s = .next ((s.mbxTaken n).mbxIgnored n)) ∧
      (w.armed = true → s.watching n = false → exec i s = .next (s.mbxTaken n))) ∧
    (w.armed = true → s.watching n = true → s.sampleCount n < w.closeEff →
      (s.mbxTakes n 0x0050 → w.open_.toNat ≤ s.sampleCount n → s.tokenOk n token = true →
        ∃ t, exec (.wdgToken n token) s = .next t ∧ t.drawn = s.drawn + 1 ∧
          t.wd n = { w with counting := true, frozen := none, ref := s.now / 1000 + 1, base := 0, viols := 0, ext := 0, extUsed := false,
                            last := 1, chal := Config.challenge s.drawn, seq := w.seq + 1 }) ∧
      (s.mbxTakes n 0x0050 → s.sampleCount n < w.open_.toNat → w.counted = true → (satInc w.viols).toNat < w.violN.toNat →
        ∃ t, exec (.wdgToken n token) s = .next t ∧ t.ctl = s.ctl ∧
          t.wd n = { w with viols := satInc w.viols, last := 2, vEarly := satInc w.vEarly }) ∧
      (s.mbxTakes n 0x0058 → s.tokenOk n token = true → x ≠ 0 → w.extUsed = false → units ≠ 0 →
        ∃ t, exec (.wdgExtend n token units) s = .next t ∧ t.drawn = s.drawn + 1 ∧
          t.wd n = { w with ext := BitVec.ofNat 32 (min units.toNat x.toNat), extUsed := true, last := 4, xGranted := satInc w.xGranted,
                            chal := Config.challenge s.drawn, seq := w.seq + 1 }) ∧
      (s.mbxTakes n 0x0058 → s.tokenOk n token = true → x = 0 ∨ w.extUsed = true ∨ units = 0 →
        ∃ t, exec (.wdgExtend n token units) s = .next t ∧ t.drawn = s.drawn ∧
          t.wd n = { w with last := 5, xRefused := satInc w.xRefused }))

/-- Acceptance of a proof (R45, R117). -/
def Obligations.ProofAcceptMakesThePlateActive : Prop :=
  ∀ (s : State) (n : Fin 128) (v : DWord), s.mbxTakes n 0x0088 → s.dev.ccAbsent = false →
    (∀ p other, (s.plates n).onProof = some p → (p = .a ∧ other = .b ∨ p = .b ∧ other = .a) → (s.pl n).revertWaits = false →
      ((s.plates n).get other).state ≠ .proof → v = (s.pl n).challenge → (∀ d, (s.pl n).deadline = some d → s.now < d) →
      (∀ e, (s.pl n).firstExpiry = some e → s.now < e) → (s.pl n).accepted = none → s.inhibited = false → s.seqFull n = false →
      (∀ m, m ≠ n → (s.plates m).onProof = none) →
      ∃ t, exec (.proofAccept n v) s = .next t ∧ ((t.plates n).get p).state = .active ∧
        ((t.plates n).get other).state =
          (if ((s.plates n).get other).state = .active then PState.previous else ((s.plates n).get other).state) ∧
        (t.pl n).deadline = none ∧ (t.pl n).show_ = 2 ∧ (t.port n).ignored = (s.port n).ignored) ∧
    (s.onProof n = false ∨ v ≠ (s.pl n).challenge → exec (.proofAccept n v) s = .next ((s.mbxTaken n).mbxIgnored n))

/-- The update session of a host (R49, R112, R121). -/
def Obligations.UpdateSessionFollowsItsFields : Prop :=
  ∀ (s : State) (n : Fin 128) (v : DWord) (p : PlateId) (w : Fin 32) (ev : CopyEv), s.dev.ccAbsent = false →
    let pst := ((s.plates n).get p).state
    let back := if (s.st n).phase = .update then Phase.run else (s.st n).phase
    (s.mbxTakes n 0x0200 → plateOf (v.toNat % 256) = some p →
      let may := s.onProof n = false ∧ (s.polOf n).hostUpd.getLsbD p.code = true ∧ pst ≠ .active ∧ pst ≠ .proof ∧ s.fallback = false ∧
        (s.st n).tbl.stagingWin.isSome = true ∧ (p = .recov → (s.polOf n).plate.srcRec ≠ 0);
      ((s.st n).phase = .run → may → ((s.pl n).staging.get p).managed = false → ∃ t, exec (.updOpen n v) s = .next t ∧
        (t.mb n).session = 1 ∧ (t.mb n).updPlate = BitVec.ofNat 8 p.code ∧ (t.st n).phase = .update) ∧
      ((s.st n).phase = .run → may → ((s.pl n).staging.get p).managed = true → ∃ t, exec (.updOpen n v) s = .next t ∧
        (t.mb n).session = 4 ∧ (t.mb n).updStatus = stBusy.zeroExtend 16 ∧ (t.st n).phase = .run) ∧
      ((s.st n).phase ≠ .run → ∃ t, exec (.updOpen n v) s = .next t ∧ (t.mb n).session = 4 ∧
        (t.mb n).updStatus = stNotPermitted.zeroExtend 16 ∧ (t.st n).phase = back)) ∧
    (s.mbxTakes n 0x0210 → (s.mb n).session = 1 → s.sessionPlate n = some p → s.inhibited = false → s.seqFull n = false →
      ∃ t, exec (.updCommit n 1) s = .next t ∧ (t.mb n).session = 2 ∧ ((t.plates n).get p).state = .staging ∧
        ((t.plates n).get p).host = true) ∧
    (s.mbxTakes n 0x0220 → (s.mb n).session = 1 ∨ (s.mb n).session = 2 →
      ∃ t, exec (.updAbort n 1) s = .next t ∧ (t.mb n).session = 4 ∧ (t.mb n).updStatus = stAborted.zeroExtend 16 ∧
        (t.st n).phase = back) ∧
    ((s.mb n).session = 2 → s.sessionPlate n = some p → (s.st n).tbl.stagingWin = some w → (s.polOf n).plate.hostArm = false →
      let r := s.copyOutcome n p w ev.passData ev.stored;
      (r.1 = stSuccess → s.seqFull n = false → ∃ t, exec (.updVerifyDone n ev) s = .next t ∧ (t.mb n).session = 3 ∧
        (t.mb n).updStatus = 0 ∧ ((t.plates n).get p).state = .staged ∧ ((t.plates n).get p).svn = BitVec.ofNat 32 (manSvn r.2.1) ∧
        (t.st n).phase = back) ∧
      (r.1 ≠ stSuccess → ∃ t, exec (.updVerifyDone n ev) s = .next t ∧ (t.mb n).session = 4 ∧
        (t.mb n).updStatus = r.1.zeroExtend 16 ∧ (t.st n).phase = back))

/-- The message boxes, from the host's side (R48). -/
def Obligations.HostMessagesArePostedInSequence : Prop :=
  ∀ (s : State) (n : Fin 128) (v : Word),
    let b := s.mb n;
    (s.mbxTakes n 0x8004 → s.dev.ccAbsent = false → exec (.hostMessagePost n v) s = .next (
      if v = b.h2mSeq + 1 ∧ b.h2mAck = b.h2mSeq then
        ((s.mbxTaken n).modMbx n fun b => { b with h2mSeq := v, posted := some { seq := v, time := s.now, bytes := b.h2mBytes } }).raise
          0x0104 n.1 [v.toNat, b.h2mLen.toNat]
      else (s.mbxTaken n).mbxIgnored n)) ∧
    (s.mbxTakes n 0x8008 → exec (.m2hAck n v) s = .next ((s.mbxTaken n).modMbx n fun b => { b with m2hAck := v }))

/-! ## Stencil and flash-side commands -/

/-- A manager's commit or discard of its Stencil shadow (R63, R64, R246, R247). -/
def Obligations.ShadowCommitOnlyTightens : Prop :=
  ∀ (s : State) (m : Mgr) (n : Fin 128), s.reaches m (chanPage n 1 + 0x020) →
    let old := (s.st n).tbl
    let mine := (s.st n).shadow.get m
    let new := mine.apply old
    let r := judge old new (s.vfSize n) mine.marks
    let hdr := fun t : State => (vget t.hdrs (stnPage n)).get m
    (∃ t, exec (.shdCommit m n false) s = .next t ∧
      (r = .committed → (t.st n).tbl = new ∧ (t.st n).epoch = (if new = old then (s.st n).epoch else (s.st n).epoch + 1) ∧
        ∀ x ∈ changed old new, tighter old new x.1 x.2.2 = true) ∧
      (r ≠ .committed → (t.st n).tbl = old ∧ (t.st n).epoch = (s.st n).epoch ∧ (t.st n).phase = (s.st n).phase ∧
        (t.st n).pTok = (s.st n).pTok ∧ (t.st n).eTok = (s.st n).eTok) ∧
      (t.st n).shadow.get m = { tbl := (t.st n).tbl, marks := [] } ∧
      (hdr t).result = r.code ∧ (hdr t).shdErr = r.err ∧ (hdr t).shdDone = true) ∧
    (∃ t, exec (.shdDiscard m n) s = .next t ∧ (t.st n).tbl = old ∧ (t.st n).epoch = (s.st n).epoch ∧
      (t.st n).shadow.get m = { tbl := old, marks := [] } ∧ (hdr t).result = 6 ∧ (hdr t).shdErr = 0 ∧ (hdr t).shdDone = true)

/-- Phase requests of the managers (R53, R65, R66). -/
def Obligations.RecoveryPhaseRequestsAreJudged : Prop :=
  ∀ (s : State) (m : Mgr) (n : Fin 128), s.reaches m (chanPage n 1 + 0x048) →
    let ph := (s.st n).phase
    let may := ph = .run ∧ (s.polOf n).recEntry = true ∧ s.isSecondary m = false;
    (∃ t, exec (.enterRecovery m n false) s = .next t ∧
      (may → (t.st n).phase = .recovery ∧ (t.st n).reqResult.get m = 1) ∧
      (¬may → (t.st n).phase = ph ∧ (t.st n).reqResult.get m = 2)) ∧
    (∃ t, exec (.exitRecovery m n false) s = .next t ∧
      (t.st n).phase = (if ph = .recovery then Phase.run else ph) ∧ (t.st n).reqResult.get m = (if ph = .recovery then 1 else 2)) ∧
    (∃ t, exec (.enterRecovery m n true) s = .next t ∧ (t.st n).phase = (if ph = .recovery then Phase.run else ph) ∧
      (t.st n).reqResult.get m = 3) ∧
    (∃ t, exec (.exitRecovery m n true) s = .next t ∧ (t.st n).phase = (if ph = .recovery then Phase.run else ph) ∧
      (t.st n).reqResult.get m = (if ph = .recovery then 1 else 2) ∧ (t.st n).reqResult.get m.other = 3)

/-- A token bucket's refill (R60). -/
def Obligations.BucketGainsOneToken : Prop :=
  ∀ (s : State) (n : Fin 128) (w : Fin 32) (erase : Bool),
    let img := (s.st n).tbl.bucketImg w erase
    let b := (s.st n).bucket w erase
    (∀ since, b.start = some since → bktOn img = true → b.tokens.toNat < bktDepth img →
      ∃ t, exec (.bucketRefill n w erase) s = .next t ∧ t.now = max s.now (since + bktNs img) ∧
        (((t.st n).bucket w erase).tokens.toNat = b.tokens.toNat + 1) ∧
        ((t.st n).bucket w erase).start = (if b.tokens.toNat + 1 < bktDepth img then some (since + bktNs img) else none) ∧
        (∀ v, v ≠ w → (t.st n).bucket v erase = (s.st n).bucket v erase) ∧
        (∀ v, (t.st n).bucket v (!erase) = (s.st n).bucket v (!erase)) ∧ (t.st n).tbl = (s.st n).tbl ∧ (t.st n).phase = (s.st n).phase) ∧
    (b.start = none ∨ bktOn img = false ∨ bktDepth img ≤ b.tokens.toNat → exec (.bucketRefill n w erase) s = .next s)

/-- Flash-side ports (R70, R73, R75). -/
def Obligations.FlashPortIsDiscoveredAndWatched : Prop :=
  ∀ (s : State) (m : Mgr) (f : Fin 64) (n : Fin 128) (r : DiscReport) (failed : Bool), n.1 = f.1 →
    let x := s.fp f
    (s.reaches m (fpPage f + 0x06C) →
      ((s.ch n).state = .held → ∃ t, exec (.fpRediscover m f) s = .next t ∧ (t.fp f).state = 1 ∧ (t.fp f).fault = 0 ∧
        (t.fp f).localOp = none ∧ t.ctl = s.ctl ∧ t.ports = s.ports) ∧
      ((s.ch n).state ≠ .held → exec (.fpRediscover m f) s = .next (s.ignoredWrite m (fpPage f + 0x06C))) ∧
      exec (.fpErrclr m f) s = .next (s.modFp f fun x => { x with wipTimeouts := 0, localFails := 0, discFails := 0 })) ∧
    (x.state = 1 → s.discoveryFault f r = 0 → ∃ t, exec (.fpDiscovery f r) s = .next t ∧ t.fp f =
      { x with found := discoveryFound r, state := 2, fault := 0, densLog2 := BitVec.ofNat 8 r.density.log2, passDummy := r.passDummy, maxMhz := r.maxMhz,
               pageLog2 := BitVec.ofNat 4 r.pageSize.log2, xspi := r.xspi, progUs := r.progUs, erase4Ms := r.erase4Ms,
               erase64Ms := r.erase64Ms, id := (r.id ++ List.replicate 20 0).take 20, sfdp := r.sfdp }) ∧
    (x.state = 1 → s.discoveryFault f r ≠ 0 → ∃ t, exec (.fpDiscovery f r) s = .next t ∧ (t.fp f).state = 3 ∧
      (t.fp f).fault = BitVec.ofNat 8 (s.discoveryFault f r) ∧ (t.fp f).discFails = satInc x.discFails) ∧
    (∀ o, x.localOp = some o →
      (∃ t, exec (.localOpComplete f failed) s = .next t ∧ (t.fp f).localOp = none ∧
        (t.fp f).localFails = (if failed then satInc x.localFails else x.localFails) ∧
        (o.host = true → t.port n = { s.port n with
          op := match (s.port n).op with
            | some (.forwarded _) => none
            | y => y
          eraseFail := (s.port n).eraseFail || (failed && o.erase)
          programFail := (s.port n).programFail || (failed && !o.erase) }) ∧
        (o.host = false → t.ports = s.ports)) ∧
      (∃ t, exec (.localWipTimeout f) s = .next t ∧ t.now = max s.now (o.start + o.bound) ∧ (t.fp f).state = 1 ∧ (t.fp f).fault = 8 ∧
        (t.fp f).localOp = none ∧ (t.fp f).wipTimeouts = satInc x.wipTimeouts ∧
        (o.host = true → (t.port n).eraseFail = ((s.port n).eraseFail || o.erase) ∧
          (t.port n).programFail = ((s.port n).programFail || !o.erase))))

/-! ## Impressions, image memory and the pool -/

/-- The end of a take (R77, R80, R81). -/
def Obligations.TakeEndsResidentOrFree : Prop :=
  ∀ (s : State) (i : Fin 256) (ev : TakeEv), (s.dirE i).state = .taking → s.dev.ccAbsent = false → s.claimed i = false →
    let e := s.dirE i
    ∃ t, exec (.impressionTakeDone i ev) s = .next t ∧ (∀ j, j ≠ i → t.dirE j = s.dirE j) ∧
      match streamLeaves e.man (s.plateKey e.man) (s.takeLeaf e ev) (manLeaves e.man) [] with
      | .ok mem => t.dirE i = { e with state := .resident, bytes := mem }
      | .error _ => t.dirE i = Impression.free

/-- Leaves after the take (R84, R86, R92, R94, R104, R106). -/
def Obligations.LeavesAreRecheckedAndRepaired : Prop :=
  ∀ (s : State) (i : Fin 256) (leaf : Nat) (ok table : Bool) (src : Option (List Byte)) (n : Fin 128) (p : PlateId) (ev : TakeEv),
    s.dev.ccAbsent = false →
    let e := s.dirE i
    let checks := ∃ d, src = some d ∧ leafGood e.man (s.plateKey e.man) leaf d = true;
    (e.state = .resident ∨ e.state = .damaged → leaf < e.leaves.toNat →
      (ok = true → leaf ∉ e.badLeaves → ∃ t, exec (.leafReverifyDone i leaf ok src) s = .next t ∧ t.dirE i = e ∧
        t.imm.transient = satInc s.imm.transient) ∧
      (ok = false ∨ leaf ∈ e.badLeaves → checks → ∃ t, exec (.leafReverifyDone i leaf ok src) s = .next t ∧
        (t.dirE i).badLeaves = e.badLeaves.filter (fun l => l ≠ leaf) ∧ t.imm.repaired = satInc s.imm.repaired ∧
        (t.dirE i).state = (if (e.badLeaves.filter fun l => l ≠ leaf).isEmpty ∧ e.tableBad = false then DirState.resident
          else e.state)) ∧
      (ok = false ∨ leaf ∈ e.badLeaves → ¬checks → ∃ t, exec (.leafReverifyDone i leaf ok src) s = .next t ∧
        (t.dirE i).state = .damaged ∧ leaf ∈ (t.dirE i).badLeaves) ∧
      (s.imm.pause = false → ∃ t, exec (.patrolLeaf i leaf ok table) s = .next t ∧
        (t.dirE i).patmis = (if ok then e.patmis else satInc e.patmis) ∧
        t.imm.patrolMismatch = (if ok then s.imm.patrolMismatch else satInc s.imm.patrolMismatch) ∧
        (t.dirE i).state = (if table then e.state else .damaged) ∧ (t.dirE i).tableBad = (e.tableBad || !table) ∧
        (t.dirE i).badLeaves = (if ok then e.badLeaves else addLeaf e.badLeaves leaf))) ∧
    (let x := (s.plates n).get p
      let man := (s.pl n).localMan.get p
      x.src = 2 → x.state ≠ .empty → x.state ≠ .staging → s.hostOwns n = false → s.waitsLocal n p = false →
      (exec (.localConfirmationDone n p none) s = .next s) ∧
      ∀ d, (badLocalLeaf man (s.plateKey man) d = none →
          exec (.localConfirmationDone n p (some d)) s = .next (s.modPlt n fun y => { y with confirmed := y.confirmed.set p true })) ∧
        (∀ l, badLocalLeaf man (s.plateKey man) d = some l → x.state.canBad = true → s.noCommit = false → s.seqFull n = false →
          ∃ t, exec (.localConfirmationDone n p (some d)) s = .next t ∧ ((t.plates n).get p).state = .bad)) ∧
    (∀ from_, s.sourceOf e.family e.root = some from_ →
      ¬(from_ = .pool ∧ s.poolFailed = true) →
      (∀ m, ¬((s.ch m).bound = some i.1 ∧ (s.ch m).state = .held ∧ (s.ch m).kind = .impressionLost)) →
      (e.state = .damaged ∧ e.tableBad = true ∧ extentsOf e.leaves.toNat ≤ s.freeExtents) ∨
        (e.state = .relocating ∧ s.extentsHeld (fun _ => true) ≤ s.totalExtents ∧ s.relocFits i = true ∧
          ∀ j, s.lostOrder.find? (fun j => s.relocFits j) = some j → s.refs j ≤ s.refs i) →
      let whole := ∀ l < manLeaves e.man, ∃ d, s.takeLeaf { e with source := from_ } ev l = some d ∧
        leafGood e.man (s.plateKey e.man) l d = true
      ∃ t, exec (.impressionCopySwitch ⟨i, ev⟩) s = .next t ∧ (t.dirE i).lost = false ∧ (t.dirE i).tableBad = false ∧
        (t.dirE i).source = from_ ∧ (whole → (t.dirE i).state = .resident ∧ (t.dirE i).badLeaves = []) ∧
        (¬whole → (t.dirE i).state = .damaged))

/-- The pool's channels and its background work (R99 to R103, R106). -/
def Obligations.PoolChannelsLeaveAndReturn : Prop :=
  ∀ (s : State) (m : Mgr) (k : Fin 16) (reason : Nat) (ecc : EccEv) (wear : WearEv),
    let x := vget s.pool.chans k
    let at_ := fun t : State => vget t.pool.chans k
    let rest := fun t : State => ∀ j, j ≠ k → vget t.pool.chans j = vget s.pool.chans j;
    (s.poolOn k = true → x.state = 1 ∨ x.state = 2 ∨ x.state = 4 →
      ∃ t, exec (.poolChannelOut k reason) s = .next t ∧ at_ t = { x with state := 3 } ∧ rest t) ∧
    (s.reaches m (polPage k + 0x050) →
      (x.state = 2 → 4 ≤ s.poolIn → ∃ t, exec (.polTakeOut m k) s = .next t ∧ at_ t = { x with state := 3 } ∧ rest t) ∧
      (x.state = 2 → s.poolIn < 4 → exec (.polTakeOut m k) s = .next (s.ignoredWrite m (polPage k + 0x050))) ∧
      (x.state = 3 → ∃ t, exec (.polReturn m k true) s = .next t ∧ at_ t = { x with state := 4 } ∧ rest t ∧ t.clk.pool = true) ∧
      exec (.polReturn m k false) s = .next s) ∧
    (x.state = 2 ∨ x.state = 4 → ∃ t, exec (.poolEccPatrol k ecc) s = .next t ∧ rest t ∧
      (at_ t).corrected = BitVec.ofNat 16 (min 0xFFFF (x.corrected.toNat + ecc.corrected)) ∧
      (at_ t).rebuilt = (if ecc.uncorrectable then satInc x.rebuilt else x.rebuilt) ∧
      (at_ t).state = (if x.state = 4 ∧ ecc.last = true then 2 else x.state) ∧
      (at_ t).grown = (if s.inhibited = false ∧ (ecc.uncorrectable = true ∨ ecc.weak = true ∧ ecc.stillWeak = true) then satInc x.grown
        else x.grown)) ∧
    (x.state = 2 → wear.minPe + 1000 < wear.maxPe → ∃ t, exec (.poolWearLevel k wear) s = .next t ∧ rest t ∧
      (s.inhibited = false → (at_ t).maxPe = BitVec.ofNat 16 wear.maxPe ∧
        (at_ t).grown = (if wear.blockFailed then satInc x.grown else x.grown)) ∧
      (s.inhibited = true → at_ t = x ∧ t.pool.waiting = s.pool.waiting ++ [.move k.1 wear.maxPe])) ∧
    (s.poolOn k = true → (∃ t, exec (.poolOperationDone k true) s = .next t ∧ rest t ∧
      (s.inhibited = false → at_ t = { x with grown := satInc x.grown, spare := x.spare - 1 }) ∧
      (s.inhibited = true → at_ t = x ∧ t.pool.waiting = s.pool.waiting ++ [.retire k.1])) ∧
      exec (.poolOperationDone k false) s = .next s) ∧
    ∀ family root o leaf, s.poolObj family root = some o → ∃ t, exec (.poolAudit family root (some leaf)) s = .next t ∧
      t.pool.chans = s.pool.chans ∧ (∃ o', t.poolObj family root = some o' ∧ leaf ∈ o'.badLeaves ∧ o'.img = o.img) ∧
      (s.noCommit = false → ∀ n p, s.seqFull n = false → ((s.plates n).get p).state.canBad = true → ((s.plates n).get p).src = 1 →
        ((s.plates n).get p).family = family → ((s.plates n).get p).root = root → ((t.plates n).get p).state = .bad)

/-- The farm, image memory, KEEP and the front cache (R91, R94, R97, R103, R104). -/
def Obligations.ImageUnitsAndCachesAreKept : Prop :=
  ∀ (s : State) (m : Mgr) (n : Fin 128) (i : Fin 40) (j : Fin 12) (c : Fin 8) (blk : Nat) (v : Word),
    (∃ t, exec (.hashLaneKat (.lane i) false) s = .next t ∧ t.farm.lanes.getLsbD i.1 = false ∧ t.farm.fails = satInc s.farm.fails ∧
      t.farm.lastFailed = BitVec.ofNat 8 i.1) ∧
    (∃ t, exec (.hashLaneKat (.lane i) true) s = .next t ∧ t.farm.lanes.getLsbD i.1 = true ∧ t.farm.fails = s.farm.fails) ∧
    (∃ t, exec (.hashLaneKat (.pipe j) false) s = .next t ∧ t.farm.aesIn.getLsbD j.1 = false ∧ t.farm.fails = satInc s.farm.fails ∧
      t.farm.lastFailed = BitVec.ofNat 8 (0x40 + j.1)) ∧
    (∃ t, exec (.hashLaneKat (.pipe j) true) s = .next t ∧ t.farm.aesIn.getLsbD j.1 = true ∧ t.farm.fails = s.farm.fails) ∧
    (s.imm.chIn.getLsbD c.1 = true → ∃ t, exec (.immChannelOut c) s = .next t ∧ t.imm.chIn.getLsbD c.1 = false ∧
      (∀ k, (s.dirE k).state = .resident ∨ (s.dirE k).state = .damaged →
        (t.dirE k).state = .free ∨ ((t.dirE k).state = .relocating ∧ (t.dirE k).lost = true) ∨
        ((t.dirE k).state = .taking ∧ ∃ j, (s.dirE j).state = .taking)) ∧
      ∀ n, (t.area n).scratch = []) ∧
    (∀ since key, SMap.get? (s.area n).dirty blk = some since → s.keys.keepSalt = some key → s.poolWrites = true →
      ∃ t, exec (.keepWriteback n blk) s = .next t ∧ (t.area n).keep = (s.area n).keep ∧ SMap.get? (t.area n).dirty blk = none ∧
        ∃ cs cp, SMap.get? (t.area n).copies blk = some cs ∧ (cs.c0 = some cp ∨ cs.c1 = some cp) ∧ cp.salt = key ∧
          cp.bytes = (s.area n).keep.readList (4096 * blk) 4096) ∧
    (s.reaches m 0x01504C → exec (.patrolPause m v) s = .next { s with imm := { s.imm with
      pause := v.getLsbD 8
      periodH := BitVec.ofNat 8 (max 1 (min 168 (v.toNat % 256))) } }) ∧
    (s.reaches m 0x016050 →
      exec (.fcaFlush m) s = .next { s with fca := { s.fca with lines := [] } } ∧
      exec (.fcaCntclr m) s = .next { s with fca := { s.fca with hit := 0, miss := 0, tfailPinned := 0, tfailCached := 0 } })

/-! ## Ovdel commands -/

/-- What every Ovdel command meets before its own rules (R19, R123, R162, R227, R228, R235, R269). -/
def Obligations.OvdelCommandsMeetTheirTable : Prop :=
  ∀ (c : Instr) (s : State) (src : Src) (g : Gate), c.gate = some (src, g) →
    (s.waits src g = true → exec c s = .next s) ∧
    (∀ st, s.waits src g = false → s.gateStatus src g = some st → s.otp.busy = none →
      ∃ t, exec c s = .next t ∧ t.rings = (s.deliver src (ans st)).rings ∧ t.views = (s.deliver src (ans st)).views ∧
        t.awaits = (s.deliver src (ans st)).awaits ∧ Frame [.rings, .views, .awaits, .dev, .keys, .otp] s t) ∧
    (∀ off f, s.waits src g = false → s.gateStatus src g = none → s.otp.busy = none → g.dptr = some off → s.dmaUp src.mgr = false →
      s.inFlight? src = some f →
      let u := (s.ringDmaFailed src.mgr 5 (BitVec.ofNat 64 (leAt f.raw off 8))).deliver src (ans stAborted off)
      ∃ t, exec c s = .next t ∧ t.rings = u.rings ∧ t.views = u.views ∧ t.awaits = u.awaits ∧
        Frame [.rings, .views, .awaits, .dev, .keys, .otp] s t)

/-! ## Platform control -/

/-- Holding a host (R129, R130, R137, R138). -/
def Obligations.HoldQuarantineAndRestartOrdersStopTheHost : Prop :=
  ∀ (s : State) (src : Src) (ch : Half) (n : Fin 128) (rival : Option Order) (held : Bool),
    (∀ o ∈ [Order.hold, .restart, .quarantine], ∀ c ∈ orderForms src ch n rival held o, s.orders src ch n o c → ∃ t, exec c s = .next t ∧
      (s.mayOrder src o rival held →
        (o = .hold → if (s.ch n).state.live then
            (t.ch n).state = .held ∧ (t.ch n).kind = .manager ∧ (t.ch n).cause = .manager ∧ (t.ch n).holdWait = !(s.ch n).sink ∧
              (t.wd n).counting = false
          else (t.ch n).state = (s.ch n).state) ∧
        (o = .restart → if (s.ch n).released then
            (t.ch n).state = .held ∧ (t.ch n).kind = .sequence ∧ (t.ch n).seq = some .restart ∧ (t.ch n).holdWait = !(s.ch n).sink ∧
              (t.wd n).counting = false
          else (t.ch n).state = (s.ch n).state) ∧
        (o = .quarantine → if (s.ch n).state = .off then (t.ch n).state = .off
          else (t.ch n).state = .quarantined ∧ ((s.ch n).state ≠ .quarantined → (t.ch n).bound = none ∧ (t.ch n).holdWait = !(s.ch n).sink))) ∧
      (¬s.mayOrder src o rival held →
        (t.ch n).state = (s.ch n).state ∧ (t.ch n).sink = (s.ch n).sink ∧ (t.ch n).holdWait = (s.ch n).holdWait ∧
          (t.ch n).bound = (s.ch n).bound)) ∧
    ((s.ch n).holdWait = true → s.localBusy n = false → ∃ t, exec (.holdInstant n) s = .next t ∧
      (t.ch n).sink = true ∧ (t.ch n).holdWait = false ∧ (t.ch n).holdT = s.now ∧ (t.ch n).holds = satInc (s.ch n).holds ∧
      (t.port n).op = none ∧ (∀ a ∈ t.awaits, a.ch = n.1 → a.kind ≠ .hold ∧ a.kind ≠ .restart) ∧
      ((s.ch n).seq = none → (t.ch n).state = (s.ch n).state))

/-- Releasing a host (R129, R132, R135, R137, R138, R172). -/
def Obligations.ReleaseOrdersLeadToTheReleaseInstant : Prop :=
  ∀ (s : State) (src : Src) (ch : Half) (n : Fin 128) (rival : Option Order) (held : Bool),
    (∀ o ∈ [Order.release, .readmit], ∀ c ∈ orderForms src ch n rival held o, s.orders src ch n o c →
      ∃ t, exec c s = .next t ∧
        (¬s.mayOrder src o rival held → (t.ch n).state = (s.ch n).state ∧ (t.ch n).sink = (s.ch n).sink) ∧
        (s.mayOrder src o rival held → o = .release → s.tamper.burnt = false → s.unowned = false →
          if (s.ch n).state = .recovery ∨ (s.ch n).state = .safe ∧ s.inhibited = false ∨
              (s.ch n).state = .held ∧ (s.ch n).kind ∈ [HoldKind.manager, .pgood, .tagLimit, .config, .standby] ∧ s.portFault n = false then
            ((t.ch n).state = .taking ∨ (t.ch n).state = .recovery) ∧ (t.ch n).sink = (s.ch n).sink
          else (t.ch n).state = (s.ch n).state) ∧
        (s.mayOrder src o rival held → o = .readmit → if (s.ch n).state = .quarantined then (t.ch n).state = .held ∧ (t.ch n).kind = .manager
          else (t.ch n).state = (s.ch n).state)) ∧
    ((s.ch n).state = .held → (s.ch n).kind = .sequence → (s.ch n).sink = true → s.dev.state = .running →
      (s.ch n).seq = some .restart ∨ (s.ch n).seq = some .revert ∧ s.dev.ccAbsent = false →
      ∃ t, exec (.sequenceHoldElapsed n) s = .next t ∧ t.now = max s.now ((s.ch n).holdT + 10 * msec) ∧ (t.ch n).sink = true ∧
        if s.portFault n then (t.ch n).state = .held else (t.ch n).state = .taking ∨ (t.ch n).state = .recovery) ∧
    (s.dev.ccAbsent = false → (s.ch n).state = .taking → (s.ch n).sel = none → (s.pl n).arming = none → (s.ch n).bound.isSome = true ∨ s.exempt n = true →
      s.tamper.burnt = false → ∃ t, exec (.channelReady n) s = .next t ∧ (t.ch n).state = .ready ∧ (t.ch n).sink = (s.ch n).sink ∧
        (t.mb n).cdi = s.cdiOf n ∧ (t.mb n).cdiTaken = true ∧ ((s.ch n).relAsked = true → n.1 ∈ t.plat.queue)) ∧
    (let u := s.until (s.releaseDue n);
      u.mayRelease n = true → u.limiterFull = false → u.nextGrant = some n.1 →
      ∃ t, exec (.releaseInstant n) s = .next t ∧ (t.ch n).state = (if s.onProof n then .proof else .running) ∧
        (t.ch n).sink = false ∧ (t.ch n).relT = u.now ∧ ((s.ch n).holdT ≠ 0 → (s.ch n).holdT + 10 * msec ≤ u.now) ∧
        (t.st n).phase = .boot ∧ (∀ w, vget (t.st n).pTok w = Bucket.full (vget (t.st n).tbl.pbkt w)) ∧
        (∀ w, vget (t.st n).eTok w = Bucket.full (vget (t.st n).tbl.ebkt w)) ∧ (t.area n).scratch = [] ∧
        (t.port n).wel = false ∧ (t.mb n).rev = 1 ∧ n.1 ∉ t.plat.queue)

/-- Lines, ranks and status (R126, R128, R135, R136, R139, R141, R229). -/
def Obligations.LinesRanksAndStatus : Prop :=
  ∀ (s : State) (m : Mgr) (n : Fin 128) (l : Fin 16) (v : Word) (src : Src) (ch : Half),
    (s.reaches m 0x00D048 → v.getLsbD 8 = true → field v.toNat 3 0 = l.1 →
      (s.lineRole l ≠ 1 → exec (.twlPulse m v) s = .next (s.ignoredWrite m 0x00D048)) ∧
      (s.lineRole l = 1 → s.dev.state = .running → s.lineAt l = .idle → ∃ t, exec (.twlPulse m v) s = .next t ∧
        vget t.plat.lines l ≠ .idle ∧
        ((s.profOf n).rgrpEn = true → (s.profOf n).rgrp = l.1 → s.chanOn n = true → (s.ch n).state.live = true →
          (t.ch n).state = .held ∧ (t.ch n).kind = .sequence ∧ (t.ch n).seq = some (.power l.1))) ∧
      (s.lineRole l = 1 → s.dev.state = .running → s.lineAt l ≠ .idle →
        exec (.twlPulse m v) s = .next { s with plat := { s.plat with merged := satInc s.plat.merged } })) ∧
    (s.reaches m 0x00D044 → ∃ t, exec (.twlForce m v) s = .next t ∧ Frame [.plat] s t ∧
      (t.plat.force.get m).getLsbD l.1 = (v.getLsbD l.1 && decide (s.lineRole l = 2))) ∧
    (∀ since cs, vget s.plat.lines l = .sinking since cs → ∃ t, exec (.twPulseEnd l) s = .next t ∧
      t.now = max s.now (since + s.linePulse l) ∧ vget t.plat.lines l = (if cs.any (t.atStep3 l) then .waiting cs else .idle) ∧
      (n.1 ∈ cs → (s.ch n).state = .held → (s.ch n).seq = some (.power l.1) →
        if (s.ch n).pgOk = true ∧ s.dev.state = .running ∧ s.portFault n = false then (t.ch n).state = .taking ∨ (t.ch n).state = .recovery
        else (t.ch n).state = .held ∧ (t.ch n).pgTmoAt = some (t.now + (s.profOf n).pgTmo * second))) ∧
    (∀ d, (s.ch n).pgTmoAt = some d → (s.ch n).seq = some (.power l.1) → (s.ch n).state = .held → (s.ch n).pgOk = false →
      ∃ t, exec (.pgoodTimeout n) s = .next t ∧ t.now = max s.now d ∧ (t.ch n).state = .held ∧ (t.ch n).kind = .manager ∧
        (t.ch n).cause = .pgoodTimeout ∧ (t.ch n).seq = none) ∧
    (s.dev.state = .running → s.plat.ranksBegun = false → ∃ t, exec .ranksBegin s = .next t ∧
      t.now = (if s.rankedTaking then max s.now (s.dev.runSince + s.dcfg.relWaitS * second) else s.now) ∧
      t.plat.ranksBegun = true ∧ t.plat.nextBoundary = t.now ∧ t.plat.nextRank = 0) ∧
    (s.dev.state = .running → s.plat.ranksActive = true → ∃ t, exec .rankBoundary s = .next t ∧
      t.now = max s.now s.plat.nextBoundary ∧ t.plat.nextBoundary = s.plat.nextBoundary + s.dcfg.spacingMs * msec ∧
      ((s.ch n).ranked = true → (s.ch n).state = .ready → s.ranksPresent.find? (fun r => s.plat.nextRank ≤ r) = some (s.profOf n).rank →
        (t.ch n).relAsked = true ∧ n.1 ∈ t.plat.queue)) ∧
    (∀ d, s.plat.failUntil = some d → ∃ t, exec .failPulseEnd s = .next t ∧ t.now = max s.now d ∧ t.plat.failOn = false ∧
      t.plat.failUntil = none) ∧
    (∀ bank : Fin 8, ∃ t, exec (.ioBankSupplyUp bank) s = .next t ∧
      (s.dev.state = .por → n.1 / 16 = bank.1 → (t.ch n).sink = true) ∧ (s.dev.state ≠ .por → t = s)) ∧
    (s.allows (.chStatus src ch) → ch.toNat = n.1 → s.chanOn n = true → exec (.chStatus src ch) s = .next (s.deliver src
      (okAns (leBytes 4 (s.ctlState n) ++ leBytes 4 (s.st n).epoch.toNat ++ leBytes 4 (s.wdgStat n) ++ leBytes 4 (s.proofLeft n)))))

/-! ## Watchdogs -/

/-- Channel watchdogs (R146, R147, R154, R156, R158, R159, R168). -/
def Obligations.ChannelWatchdogExpiresFreezesAndThaws : Prop :=
  ∀ (s : State) (m : Mgr) (n : Fin 128) (v : Word),
    let w := s.wd n
    let cfg := fun x : Wdg => { x with
      clksel := v.getLsbD 1, keyed := v.getLsbD 2, counted := v.getLsbD 3, violN := BitVec.ofNat 4 (field v.toNat 7 4),
      ladder := v.getLsbD 8, prescale := BitVec.ofNat 4 (field v.toNat 19 16) }
    (∀ c cause u, (c = .wdgClose n ∧ cause = ExpCause.close ∧ u = s.until (s.wdgDue w) ∨
        c = .wdgClockStop n ∧ cause = ExpCause.clockLost ∧ u = s) →
      w.armed = true → w.counting = true → w.frozen = none → s.dev.clockHeld = false →
      ∃ t, exec c s = .next t ∧ t.now = u.now ∧ (t.wd n).counting = false ∧
        (t.wd n).shown = { total := satInc w.shown.total, consec := satInc w.shown.consec, cause := BitVec.ofNat 8 cause.code,
                           startNum := s.dev.startCount.truncate 16, time := BitVec.ofNat 64 u.now } ∧
        (let k := (satInc w.shown.consec).toNat
         let p := (s.polOf n).wdg
         if s.onProof n = true ∧ u.acceptWaits n = false then (t.wd n).step = 4
         else if w.ladder = false then (t.wd n).step = 5
         else if p.safeN.toNat ≤ k then (t.wd n).step = 3 ∧ (t.ch n).state = .safe
         else if k ≤ p.restarts.toNat then
           (t.wd n).step = 1 ∧ (t.ch n).state = .held ∧ (t.ch n).kind = .sequence ∧ (t.ch n).seq = some .restart
         else (t.wd n).step = 2)) ∧
    (s.dev.clockHeld = false → w.armed = false ∨ w.frozen.isSome = true ∨ w.counting = false ∧ w.clkFault = true →
      exec (.wdgClockStop n) s = .next s) ∧
    (s.dev.clockHeld = false → w.armed = true → w.frozen = none → w.counting = false → w.clkFault = false →
      ∃ t, exec (.wdgClockStop n) s = .next t ∧ (t.wd n).clkFault = true ∧ (t.wd n).shown = w.shown ∧ t.dev.state ≠ .standby ∧
        (s.dev.state ≠ .standby → t.wd n = { w with clkFault := true } ∧ t.ctl = s.ctl)) ∧
    (s.reaches m (chanPage n 2 + 0x040) →
      (w.auto = true ∨ w.armed = true → exec (.wdgCfgWrite m n v) s = .next (s.ignoredWrite m (chanPage n 2 + 0x040))) ∧
      (w.auto = false → w.armed = false → v.getLsbD 0 = false → exec (.wdgCfgWrite m n v) s = .next (s.modWdg n cfg)) ∧
      (w.auto = false → w.armed = false → v.getLsbD 0 = true → s.armRefused n (cfg w) = false →
        ∃ t, exec (.wdgCfgWrite m n v) s = .next t ∧ (t.wd n).armed = true ∧ (t.wd n).seq = 1 ∧ (t.wd n).chal = Config.challenge s.drawn ∧
          (t.wd n).prescale = (cfg w).prescale ∧ ((s.ch n).released = true → (t.wd n).counting = true))) ∧
    (s.reaches m (chanPage n 2 + 0x044) → exec (.wdgWinWrite m n v) s = .next
      (if w.auto = false ∧ w.armed = false ∧ windowOk (field v.toNat 15 0) (field v.toNat 31 16) = true then
        s.modWdg n fun w => { w with open_ := BitVec.ofNat 16 (field v.toNat 15 0), close_ := BitVec.ofNat 16 (field v.toNat 31 16) }
      else s.ignoredWrite m (chanPage n 2 + 0x044))) ∧
    (s.reaches m (chanPage n 2 + 0x084) →
      (if (s.polOf n).wdg.debug = true ∧ s.isSecondary m = false ∧ w.counting = true ∧ w.frozen = none then
        ∃ t, exec (.wdgFreeze m n) s = .next t ∧ t.wd n = { w with frozen := some (s.wdgTicks w) }
      else exec (.wdgFreeze m n) s = .next (s.ignoredWrite m (chanPage n 2 + 0x084))) ∧
      (match w.frozen with
        | some ticks => ∃ t, exec (.wdgThaw m n) s = .next t ∧ t.wd n = { w with frozen := none, base := ticks, ref := s.now / 1000 + 1 }
        | none => exec (.wdgThaw m n) s = .next (s.ignoredWrite m (chanPage n 2 + 0x084)))) ∧
    ((s.ch n).released = true → w.shown.consec ≠ 0 → ∃ t, exec (.cleanRun n) s = .next t ∧ (t.wd n).shown = { w.shown with consec := 0 } ∧
      t.now = max s.now ((s.ch n).relT + (s.polOf n).wdg.cleanMin.toNat * 60 * second))

/-- Manager watchdogs, the fallback, and the clearing of the internal count (R160, R161, R162, R164, R167). -/
def Obligations.ManagerWatchdogJudgesItsManager : Prop :=
  ∀ (s : State) (m : Mgr) (v : Word),
    let w := s.mwd.get m
    let c := countAt (s.mainTick + 1) w.ref w.prescale.toNat
    let good := v ++ w.tokenLo = s.mwdTokenFor m
    let next := { w with chal := Config.challenge s.drawn, seq := w.seq + 1, ref := s.mainTick + 1 }
    let loses := fun t : State => (t.mwd.get m).lost = true ∧ (t.mwd.get m).lostCnt = satInc w.lostCnt ∧ t.dev.fallback = t.allLost ∧
      t.devfw.claim ≠ some m ∧ (∀ n, (t.pl n).staging.a.claim ≠ some (.manager m) ∧ (t.pl n).staging.b.claim ≠ some (.manager m) ∧
        (t.pl n).staging.recov.claim ≠ some (.manager m))
    (s.reaches m 0x00C060 →
      (w.armed = false → exec (.mwdToken m v) s = .next s) ∧
      (w.armed = true → w.lost = false → if good ∧ w.open_.toNat ≤ c ∧ c < w.close_.toNat then
          ∃ t, exec (.mwdToken m v) s = .next t ∧ t.mwd.get m = { next with last := 1 } ∧ Frame [.mwd, .drbg, .drawn] s t
        else ∃ t, exec (.mwdToken m v) s = .next t ∧ loses t) ∧
      (w.armed = true → w.lost = true → if good then
          ∃ t, exec (.mwdToken m v) s = .next t ∧ t.mwd.get m = { next with lost := false, last := 1 } ∧ t.dev.fallback = t.allLost
        else exec (.mwdToken m v) s = .next (s.modMwd m fun w => { w with badCnt := w.badCnt + 1 }))) ∧
    (s.reaches m 0x00C040 →
      let cfg := { w with keyed := v.getLsbD 1, prescale := BitVec.ofNat 4 (field v.toNat 5 2) };
      if w.armed = true ∨ (v.getLsbD 0 = true ∧ windowOk w.open_.toNat w.close_.toNat = false) then
        exec (.mwdCfgWrite m v) s = .next (s.ignoredWrite m 0x00C040)
      else if v.getLsbD 0 = true then ∃ t, exec (.mwdCfgWrite m v) s = .next t ∧ Frame [.mwd, .drbg, .drawn] s t ∧
        t.mwd.get m = { cfg with armed := true, lost := false, chal := Config.challenge s.drawn, seq := 1, ref := s.mainTick + 1 }
      else exec (.mwdCfgWrite m v) s = .next (s.modMwd m fun _ => cfg)) ∧
    (s.reaches m 0x00C044 → exec (.mwdWinWrite m v) s = .next
      (if w.armed = false ∧ windowOk (field v.toNat 15 0) (field v.toNat 31 16) = true then
        s.modMwd m fun w => { w with open_ := BitVec.ofNat 16 (field v.toNat 15 0), close_ := BitVec.ofNat 16 (field v.toNat 31 16) }
      else s.ignoredWrite m 0x00C044)) ∧
    (s.mgrOn m = true → s.dev.clockHeld = false → w.armed = true → w.lost = false → ∃ t, exec (.mwdExpiry m) s = .next t ∧ loses t ∧
      t.now = max s.now (1000 * (w.ref + w.close_.toNat * 2 ^ w.prescale.toNat))) ∧
    (s.reaches m 0x00C088 → exec (.mwdCntclr m) s = .next
      (if s.isSecondary m then s.ignoredWrite m 0x00C088 else { s with intw := { s.intw with consec := 0 } })) ∧
    (s.dev.state = .running → exec .intClean s = .next { s with
      now := max s.now (max s.dev.runSince s.intw.cleanFrom + s.dcfg.cleanS * second), intw := { s.intw with consec := 0 } }) ∧
    exec .debuggerHalt s = .next (if s.debugOn then { s with intw := { s.intw with halted := true } } else s) ∧
    exec .debuggerResume s = .next { s with intw := { s.intw with halted := false } }

/-- The internal ladder and the main clock (R12, R16, R18, R163, R164, R165). -/
def Obligations.InternalLadderTakesItsStep : Prop :=
  ∀ s : State,
    (∀ c src cluster, (c = .ccWatchdogExpiry ∧ src = 1 ∧ cluster = true ∧ s.clusterRuns = true ∧ s.intw.halted = false ∧ s.dev.state ≠ .standby ∨
        (∃ p, c = .lockstepMismatch p) ∧ src = 2 ∧ cluster = true ∧ s.clusterRuns = true ∨
        (∃ k, c = .burinCoreWatchdog k ∧ (s.core k).job.isSome = true) ∧ src = 3 ∧ cluster = false ∨
        c = .graverWatchdog ∧ src = 4 ∧ cluster = false ∧ (s.otp.busy.isSome = true ∨ s.dev.state = .shadow) ∨
        (∃ m, c = .ringEngineWatchdog m ∧ (s.ring m).sqs.any (s.takesPart m) = true) ∧ src = 5 ∧ cluster = false) →
      ∃ t, exec c s = .next t ∧ t.intw.src = BitVec.ofNat 3 src ∧ t.intw.consec = satInc s.intw.consec ∧ t.intw.total = satInc s.intw.total ∧
        (if s.dcfg.tries ≤ (satInc s.intw.consec).toNat then t.intw.step = 3 ∧ t.dev.state = .safeHold
         else t.intw.step = (if satInc s.intw.consec = 1 then 1 else 2) ∧
          (if cluster = true ∧ s.devfw.onProof = true then s.fwTable.onProof.isSome = true → t.devfw.onProof = false
           else if satInc s.intw.consec = 1 then
             s.dev.state ∈ [DevState.start, .running, .safeHold, .standby] → t.dev.ccAbsent = true ∧ t.dev.state = s.dev.state
           else t.dev.state = .shadow ∧ t.dev.resetCause = 3))) ∧
    (s.dev.state ≠ .por → ∃ t, exec .mainClockLoss s = .next t ∧ t.dev.state = .por ∧ t.dev.clockHeld = true ∧ t.dev.resetCause = 4 ∧
      t.plat.failOn = true ∧ ∀ n, (t.ch n).sink = true) ∧
    (s.dev.clockHeld = true → ∃ t, exec .mainClockReturn s = .next t ∧ t.dev.clockHeld = false ∧ t.dev.state = .shadow ∧ t.intw.src = 6 ∧
      t.intw.consec = satInc s.intw.consec ∧ (s.dcfg.tries ≤ (satInc s.intw.consec).toNat → t.dev.safeLatch = true)) ∧
    (s.dev.ccAbsent = true → ∃ t, exec .ccRestartDone s = .next t ∧ t.dev.ccAbsent = false ∧ (∀ n, (t.mb n).latched = []) ∧
      (t.devfw.onProof = true → t.devfw.deadline.isSome = true))

/-! ## Plates and device firmware -/

/-- Plates (R106, R107, R112, R115, R117, R118, R119). -/
def Obligations.PlateCommandsStageCommitEraseAndArm : Prop :=
  ∀ (s : State) (src : Src) (ch : Half) (n : Fin 128) (plate part : Byte) (p : PlateId) (offset len : Nat) (data : List Byte)
    (readback : Option (List Byte)) (faults : Nat) (fam : List Byte) (v : Word),
    ch.toNat = n.1 → s.chanOn n = true → plateOf plate.toNat = some p →
    (s.allows (.imageStage src ch plate part offset data) → s.poolUnder13 src n p = false → part.toNat ≤ 1 →
      (let st := s.stageStatus src.mgr n p part offset data
       if st = stSuccess then ∃ t, exec (.imageStage src ch plate part offset data) s = .next t ∧
          ((t.plates n).get p).state = .staging ∧ ((t.pl n).staging.get p).claim = some (.manager src.mgr) ∧
          (let old := if s.stagesOwn src.mgr n p then (s.pl n).staging.get p else Staging.reset
           let new := (t.pl n).staging.get p
           let pick := fun (x : Staging) => if part = 0 then x.man else x.img
           let rest := fun (x : Staging) => if part = 0 then x.img else x.man
           rest new = rest old ∧ ∀ a, SMap.get? (pick new) a =
             if offset ≤ a ∧ a < offset + data.length then data[a - offset]? else SMap.get? (pick old) a)
       else exec (.imageStage src ch plate part offset data) s = .next (s.deliver src (ans st (if st = stInvalidField then
          (s.stageField src.mgr n p part offset data.length).getD 8 else 0))))) ∧
    (s.allows (.imageCommit src ch plate ⟨readback, faults⟩) → s.poolUnder13 src n p = false → s.isSecondary src.mgr = false →
      ∃ t, exec (.imageCommit src ch plate ⟨readback, faults⟩) s = .next t ∧
        (let job := if (s.commitEarly src.mgr n p).isSome then (true, s) else s.internalJob 0x02 210000 faults
         let u := job.2
         let man := ((u.pl n).staging.get p).manifest
         let e := (t.plates n).get p
         (faults = 0 → job.1 = true ∧ Frame [.burin] s u) ∧ (2 ≤ faults → s.commitEarly src.mgr n p = none → job.1 = false) ∧
         if job.1 = true ∧ (u.imageCommitStatus src.mgr n p readback).1 = stSuccess then
           e.state = .staged ∧ e.svn.toNat = manSvn man % 2 ^ 32 ∧ e.build.toNat = manBuild man % 2 ^ 64 ∧ e.family = manFamily man ∧
             e.root = manRoot man ∧ ((t.pl n).staging.get p).claim = none ∧
             (((u.plates n).get p).src ≠ 2 → (t.poolObj (manFamily man) (manRoot man)).isSome = true)
         else t.plt = u.plt ∧ t.pool = u.pool)) ∧
    (s.allows (.plateErase src ch plate) →
      (let st := s.eraseStatus src.mgr n p
       if st = stSuccess then ∃ t, exec (.plateErase src ch plate) s = .next t ∧ ((t.plates n).get p).state = .empty ∧
          ((t.pl n).staging.get p).claim = none ∧ (t.pl n).localMan.get p = []
       else exec (.plateErase src ch plate) s = .next (s.deliver src (ans st)))) ∧
    (s.allows (.plateStatus src ch len) → exec (.plateStatus src ch len) s = .next
      (if len < 304 then s.deliver src (ans stInvalidField 24)
       else s.deliver src { okAns ([BitVec.ofNat 8 (s.plates n).a.state.code, BitVec.ofNat 8 (s.plates n).b.state.code,
          BitVec.ofNat 8 (s.plates n).recov.state.code, 0] ++ leBytes 4 (s.pl n).table.seq ++ [BitVec.ofNat 8 (s.plateField n 0xFF)]) with
          data := some (s.plateRecord n) })) ∧
    (s.allows (.plateArmProof src ch plate) → s.poolUnder13 src n p = false →
      (let st := if manVersion (s.plateMan n p) = 3 ∧ s.version src.mgr < 0x0201 then stVersionUnsupported
         else if s.unowned = true ∨ s.tamper.burnt = true then stNotPermitted else s.armStatus n p (s.isSecondary src.mgr)
       (st ≠ stSuccess → exec (.plateArmProof src ch plate) s = .next (s.deliver src (ans st))) ∧
       (st = stSuccess → ∃ t, exec (.plateArmProof src ch plate) s = .next t ∧
         ((s.ch n).state.live = true → (s.ch n).sink = false →
           (t.ch n).state = .held ∧ (t.ch n).seq = some .arming ∧ (t.ch n).holdWait = true ∧
           (t.pl n).arming = some { plate := p, live := true, committed := false } ∧ t.plates n = s.plates n ∧
           { who := .cmd src, ch := n.1, kind := .arm } ∈ t.awaits) ∧
         (∀ i, (s.ch n).state.live = false → (s.checkPlate n p).1 = .ok i → s.noCommit = false → (s.pl n).revertWaits = false →
           ((t.plates n).get p).state = .proof ∧ ((t.plates n).get p).attempts = 1 ∧ (t.pl n).challenge = Config.challenge s.drawn ∧
           ((s.ch n).state = .recovery → (t.ch n).state = .taking))))) ∧
    (s.allows (.advanceMinVersion src ch fam v) → ch ≠ 0xFFFF → slice fam 0 16 = (s.polOf n).plate.family →
      (let st := s.advanceStatus (slice fam 0 16) v.toNat
       if st = stSuccess then ∃ t, exec (.advanceMinVersion src ch fam v) s = .next t ∧ v.toNat ≤ t.familyMin (slice fam 0 16)
       else exec (.advanceMinVersion src ch fam v) s = .next (s.deliver src (ans st)))) ∧
    (∀ d, (s.pl n).deadline = some d → s.onProof n = true → (s.plates n).onProof = some p → (s.until d).acceptWaits n = false →
      s.noCommit = false → s.seqFull n = false → ∃ t, exec (.proofDeadline n) s = .next t ∧ t.now = max s.now d ∧
        ((t.plates n).get p).state = .rejected ∧
        ((s.ch n).state.live = true → (s.ch n).sink = false →
          (t.ch n).state = .held ∧ (t.ch n).seq = some .revert ∧ (t.ch n).holdWait = true))

/-- Device firmware (R122, R123, R124). -/
def Obligations.DeviceFirmwareIsStagedProvedAndAccepted : Prop :=
  ∀ (s : State) (src : Src) (offset : Nat) (data : List Byte) (activate pass : Bool),
    let p := s.fwTarget
    let h := Config.fwHeader (fwBytes (s.fwPkg p) 0 256)
    let accepted := fun (t : State) (q : PlateId) => (t.fwTable.get q).state = .active ∧ t.devfw.onProof = false ∧ t.devfw.deadline = none ∧
      ((s.fwTable.get q.otherAB).state = .active → (t.fwTable.get q.otherAB).state = .previous)
    (s.allows (.deviceFwStage src offset data) →
      (let st := s.fwStageStatus src.mgr offset data.length
       if st = stSuccess then ∃ t, exec (.deviceFwStage src offset data) s = .next t ∧ (t.fwTable.get p).state = .staging ∧
          t.devfw.claim = some src.mgr ∧
          (∀ a, SMap.get? (t.fwPkg p) a = if offset ≤ a ∧ a < offset + data.length then data[a - offset]?
            else if (s.fwTable.get p).state = .staging ∧ s.devfw.claim = some src.mgr then SMap.get? (s.fwPkg p) a else none)
       else exec (.deviceFwStage src offset data) s = .next (s.deliver src (ans st (if st ≠ stInvalidField then 0
          else if data.length = 0 ∨ 1048576 < data.length then 24 else 12))))) ∧
    (s.allows (.deviceFwCommit src activate) → s.isSecondary src.mgr = false →
      (let st := s.fwCommitStatus src.mgr activate
       if st ≠ stSuccess then exec (.deviceFwCommit src activate) s = .next (s.deliver src (ans st))
       else ∃ t, exec (.deviceFwCommit src activate) s = .next t ∧ t.devfw.claim = none ∧
          ((s.fwTable.get p).state = .staging ∨ activate = true →
            (t.fwTable.get p).svn.toNat = h.svn % 2 ^ 32 ∧ (t.fwTable.get p).build.toNat = h.build % 2 ^ 64) ∧
          (if s.dev.state = .deviceRecovery then
             (t.fwTable.get p).state = .proof ∧ (t.fwTable.get p).attempts = 0 ∧ t.dev.state = .shadow ∧ t.dev.resetCause = 5
           else if activate then (t.fwTable.get p).state = .proof ∧ (t.fwTable.get p).attempts = 1 ∧ t.devfw.running = p ∧
             t.devfw.onProof = true ∧ t.dev.ccAbsent = true
           else (t.fwTable.get p).state = (if (s.fwTable.get p).state = .staging then PState.staged else (s.fwTable.get p).state) ∧
             t.dev.state = s.dev.state))) ∧
    (∀ q, s.fwTable.onProof = some q → s.devfw.onProof = true →
      (s.allows (.deviceFwAccept src) → s.isSecondary src.mgr = false → s.inhibited = false →
        ∃ t, exec (.deviceFwAccept src) s = .next t ∧ accepted t q) ∧
      (s.dev.ccAbsent = false → s.inhibited = false → ∃ t, exec (.devfwSelftestDone pass) s = .next t ∧
        (if pass = false then (t.fwTable.get q).state = .rejected ∧ t.devfw.onProof = false
         else if s.selfAccepts then accepted t q else t = s)) ∧
      (∀ d, s.devfw.deadline = some d → s.inhibited = false → ∃ t, exec .devfwProofDeadline s = .next t ∧ t.now = max s.now d ∧
        (t.fwTable.get q).state = .rejected ∧ t.devfw.onProof = false))

/-! ## Policy and configuration -/

/-- Policy and standing configuration (R63, R68, R69, R229, R230, R312, R314, R315). -/
def Obligations.PolicyAndConfigurationTakeEffect : Prop :=
  ∀ (s : State) (src : Src) (b : Bundle) (img : List Byte) (ch : Half) (n : Fin 128) (persist : Bool) (lenField len faults : Nat)
    (changes : List Change),
    (s.allows (.policyLoad src ⟨b, faults⟩) → s.unowned = false → b.len ≤ 1048576 →
      (let st := s.policyStatus src.mgr b
       if 2 ≤ faults ∧ (st.1 = stSuccess ∨ st.1 = stSignatureFailed) then ∃ t, exec (.policyLoad src ⟨b, faults⟩) s = .next t ∧
          (s.dcfg.faultN = 0 → t.polMin = s.polMin ∧ t.polLedger = s.polLedger ∧ t.pol = s.pol ∧ t.stn = s.stn)
       else faults = 0 → if st.1 = stSuccess then ∃ t, exec (.policyLoad src ⟨b, faults⟩) s = .next t ∧ t.polMin = b.version ∧
          (if b.bitmap.getLsbD n.1 = true then
             vget t.polLedger n = b.sectionFor n ∧ (t.st n).overlay = [] ∧
             (if (s.ch n).released = true ∧ (b.sectionFor n).tbl.mailboxBase ≠ (s.st n).tbl.mailboxBase then
                t.polOf n = s.polOf n ∧ (t.st n).tbl = (s.st n).tbl
              else t.polOf n = b.sectionFor n ∧ (t.st n).tbl = (b.sectionFor n).tbl ∧ (t.st n).polver = b.version)
           else vget t.polLedger n = vget s.polLedger n ∧ t.polOf n = s.polOf n ∧ t.st n = s.st n)
       else exec (.policyLoad src ⟨b, faults⟩) s =
          .next ((if st.1 = stSignatureFailed then s.internalRun 210000 else s).deliver src (ans st.1 st.2)))) ∧
    (s.allows (.stencilTighten src ch persist lenField changes false) → ch.toNat = n.1 → s.chanOn n = true →
      (persist = true → 0x0201 ≤ s.version src.mgr ∧ s.inhibited = false) →
      match badTighten lenField changes with
      | some off => exec (.stencilTighten src ch persist lenField changes false) s = .next (s.deliver src (ans stInvalidField off))
      | none => ∃ t, exec (.stencilTighten src ch persist lenField changes false) s = .next t ∧
          (let c := combine changes
           let new := applyOverlay (s.st n).tbl c
           if judge (s.st n).tbl new (s.vfSize n) (c.map Prod.fst) = .committed then
             (t.st n).tbl = new ∧ (t.st n).overlay = (if persist then addOverlay (s.st n).overlay c [] else (s.st n).overlay)
           else (t.st n).tbl = (s.st n).tbl ∧ (t.st n).overlay = (s.st n).overlay)) ∧
    (s.allows (.configWrite src img) → s.isSecondary src.mgr = false →
      (let st := s.cfgStatus img
       let q := parseChan img n.1
       if st.1 = stSuccess then ∃ t, exec (.configWrite src img) s = .next t ∧ t.cfgImg.cur = some (sparse img) ∧
          t.cfgSeq = s.cfgImg.seq + 1 ∧ t.dev.configDefaulted = false ∧ vget t.profCfg n = q ∧ (t.profOf n).enabled = q.enabled ∧
          (s.chanOn n = true → q.enabled = true → (s.ch n).state = .off → (t.ch n).state = .held ∧ (t.ch n).kind = .config) ∧
          (s.chanOn n = true → q.enabled = false → (t.ch n).state = .off)
       else exec (.configWrite src img) s = .next (s.deliver src (ans st.1 st.2)))) ∧
    (s.allows (.configRead src len) → exec (.configRead src len) s = .next (s.deliver src
      { okAns (leBytes 4 s.cfgSeq ++ [BitVec.ofNat 8 (bval s.dev.configDefaulted)]) with data := some (s.cfgCopy.take len) }))

/-! ## Attestation -/

/-- The SPDM responder (R171, R185, R186, R187, R188). -/
def Obligations.SpdmResponderAnswersEachRequest : Prop :=
  ∀ (s : State) (m : Mgr) (ep : Fin 8) (session version slot offset len summary index seq : Nat) (offer : AlgOffer)
    (nonce exchange data : List Byte) (signed last : Bool),
    let tells := fun (c : Instr) (r : SpdmReply) (p : State → Prop) => ∃ t, exec c s = .next t ∧ (t.ep ep).reply = r ∧ p t
    let signs := fun t : State => t.att.spdmSigns = satInc s.att.spdmSigns ∧ t.drawn = s.drawn + 1
    s.spdmUp ep = true →
    tells (.getVersion ep 0) (.version true true) (fun t => (t.ep ep).versioned = true ∧ (t.ep ep).algs = false ∧ (t.ep ep).sessions = []) ∧
    (session ≠ 0 → tells (.getVersion ep session) (.error .unexpectedRequest) fun _ => True) ∧
    ((s.ep ep).versioned = true → (s.ep ep).algs = false → version = 12 ∨ version = 13 →
      tells (.getCapabilities ep version) (.capabilities spdmCaps 4096 65536) fun t => (t.ep ep).version = version ∧ (t.ep ep).caps = true) ∧
    ((s.ep ep).caps = true → (offer.p384 || offer.sha384 || offer.secp384r1 || offer.aes256gcm || offer.dmtf || offer.spdmSchedule) = true →
      ∃ a h k d g b x, tells (.negotiateAlgorithms ep offer) (.algorithms a h k d g b x) fun t => (t.ep ep).algs = true) ∧
    tells (.unsupportedSpdmRequest ep session) (.error (if s.attests then .unsupportedRequest else .unspecified)) (fun _ => True) ∧
    (s.attests = false → ∀ c ∈ [Instr.getDigests ⟨ep, session⟩, .getCertificate ⟨ep, session⟩ slot offset len, .challenge ⟨ep, session⟩ nonce summary,
      .getMeasurements ⟨ep, session⟩ index signed nonce, .keyExchange ep exchange, .finish ep session, .heartbeat ep session,
      .endSession ep session, .chunkSend ⟨ep, session⟩ seq data last, .chunkGet ⟨ep, session⟩ seq], tells c (.error .unspecified) fun _ => True) ∧
    (s.attests = true → (s.ep ep).algs = true → session ≠ 0 → (s.ep ep).session? session = none →
      ∀ c ∈ [Instr.getDigests ⟨ep, session⟩, .getCertificate ⟨ep, session⟩ slot offset len, .challenge ⟨ep, session⟩ nonce summary,
        .getMeasurements ⟨ep, session⟩ index signed nonce, .finish ep session, .heartbeat ep session, .endSession ep session,
        .chunkSend ⟨ep, session⟩ seq data last, .chunkGet ⟨ep, session⟩ seq], tells c (.error .invalidRequest) fun _ => True) ∧
    (s.attests = true → (s.ep ep).algs = true → session = 0 ∨ ((s.ep ep).session? session).isSome = true →
      tells (.getDigests ⟨ep, session⟩) (.digests 1 (Config.sha384 s.spdmChain)) (fun t => ∀ x, session ≠ 0 →
        (s.ep ep).session? session = some x → (t.ep ep).session? session = some { x with lastMsg := s.now }) ∧
      (offset < s.spdmChain.length → tells (.getCertificate ⟨ep, session⟩ 0 offset len) (.certificate ((s.spdmChain.drop offset).take len)
        (s.spdmChain.length - (offset + min len (s.spdmChain.length - offset)))) fun _ => True) ∧
      (summary = 1 ∨ summary = 0xFF → ∃ d g, tells (.challenge ⟨ep, session⟩ nonce summary) (.challengeAuth d g) signs) ∧
      (s.measAll ≠ [] → measSize s.measAll.length signed ≤ 4096 → ∃ g, tells (.getMeasurements ⟨ep, session⟩ 0xFF signed nonce)
        (.measurements s.measAll.length s.measAll g) fun t => g.isSome = signed ∧ (signed = true → signs t)) ∧
      (4096 < measSize s.measAll.length signed → tells (.getMeasurements ⟨ep, session⟩ 0xFF signed nonce) (.error .largeResponse) fun t =>
        (t.ep ep).chunkOutSeq = 0 ∧ (signed = true → signs t)) ∧
      (∀ b, s.measBlock index = some b → index ≠ 0 → index ≠ 0xFF → ∃ g, tells (.getMeasurements ⟨ep, session⟩ index signed nonce)
        (.measurements 1 [b] g) fun _ => g.isSome = signed) ∧
      (s.sessionCount < 8 → (s.ep ep).sessions.length < 2 → s.drbg.keyState = 1 → ∃ g, tells (.keyExchange ep exchange)
        (.keyExchange (s.drawn + 1) 60 g) fun t =>
          signs t ∧ (t.ep ep).sessions = (s.ep ep).sessions ++ [{ id := s.drawn + 1, established := false, lastMsg := s.now }]) ∧
      (∀ x, (s.ep ep).session? session = some x →
        (x.established = false → tells (.finish ep session) .finish fun t =>
          (t.ep ep).session? session = some { x with established := true, lastMsg := s.now }) ∧
        (x.established = true → tells (.heartbeat ep session) .heartbeatAck (fun t =>
          (t.ep ep).session? session = some { x with lastMsg := s.now }) ∧
          tells (.endSession ep session) .endSessionAck fun t => (t.ep ep).session? session = none)) ∧
      (seq = 0 ∨ seq = (s.ep ep).chunkSeq → data.length ≤ 4096 → (s.ep ep).chunkIn.length + data.length ≤ 65536 →
        tells (.chunkSend ⟨ep, session⟩ seq data last) (.chunkSendAck last) fun t => (t.ep ep).chunkIn =
          (if last then [] else (if seq = 0 then [] else (s.ep ep).chunkIn) ++ data) ∧ (t.ep ep).chunkSeq = if last then 0 else seq + 1) ∧
      ((s.ep ep).chunkOut ≠ [] → seq = (s.ep ep).chunkOutSeq →
        let k := 4096 - (if seq = 0 then 16 else 12);
        tells (.chunkGet ⟨ep, session⟩ seq) (.chunk ((s.ep ep).chunkOut.take k) ((s.ep ep).chunkOut.drop k).isEmpty) fun t =>
          (t.ep ep).chunkOut = (s.ep ep).chunkOut.drop k ∧ (t.ep ep).chunkOutSeq = seq + 1)) ∧
    (∀ x, (s.ep ep).session? session = some x → ∃ t, exec (.spdmSessionTimeout ep session) s = .next t ∧
      t.now = max s.now (x.lastMsg + 120 * second) ∧ (t.ep ep).session? session = none) ∧
    (ep.1 = mgrNum m → tells (.doeDiscovery m) (.doeTypes [0, 1, 2]) fun _ => True)

/-- Page ATT, Tracing, quotes and the observer ports (R176, R180, R182, R189, R190, R231, R236). -/
def Obligations.MeasurementsTracingAndObserversDoTheirPart : Prop :=
  ∀ (s : State) (m : Mgr) (v hi : Word) (n : Fin 128) (i : Fin 8) (src : Src) (nonce : List Byte) (len : Nat) (fromSeq : DWord)
    (advance on : Bool) (ep : Fin 8) (units : List Byte) (p : Fin 4) (addr : BitVec 7) (eid : Byte) (released : List Nat),
    (s.reaches m 0x00E0F0 → v.getLsbD 31 = true → field v.toNat 6 0 = n.1 → 4 + field v.toNat 9 8 = i.1 →
      ∃ t, exec (.attExtGo m ⟨v, none, released⟩) s = .next t ∧ (t.att.views.get m).extDone = true ∧
        (let x := s.att.views.get m
         if (s.ch n).released = true ∧ n.1 ∉ released ∧ (x.extRelt = 0 ∨ x.extRelt.toNat = (s.ch n).relT % 2 ^ 32) then
           (t.att.views.get m).extStatus = stSuccess ∧ (∀ j, j ≠ i → vget (t.mb n).meas j = vget (s.mb n).meas j) ∧
           ∃ d : List Byte, d.length = 48 ∧ vget (t.mb n).meas i = Config.sha384 ((vget (s.mb n).meas i).toList ++ d) ∧
             ∀ k, k < 48 → d[k]? = some (BitVec.ofNat 8 ((x.extData.toList.getD (k / 4) 0).toNat >>> (8 * (k % 4))))
         else (t.att.views.get m).extStatus = (if (s.ch n).released = true ∧ n.1 ∉ released then stSuperseded else stNotPermitted) ∧
           t.mbx = s.mbx)) ∧
    (exec (.attExtGo .a ⟨v, some hi, released⟩) s = exec (.attExtGo .b ⟨hi, some v, released⟩) s) ∧
    (s.reaches m 0x00E06C → ∃ t, exec (.attWallWrite m hi none) s = .next t ∧
      t.att.wall = hi ++ (SMap.get? (s.view m).held 0x00E068).getD (s.att.wall.truncate 32)) ∧
    (∀ e q, s.mayWrite = true → s.trace.queue = e :: q → ∃ t r, exec .traceRecordWrite s = .next t ∧ r.evt = e ∧
      r.seq = s.traceNewest + 1 ∧ t.traceNewest = r.seq ∧ r ∈ t.trace.ring ∧ t.traceHdr.run = chain s.traceHdr.run r ∧
      (s.trace.lost = 0 → t.trace.queue = q)) ∧
    (s.allows (.quote src nonce len) → s.quoteLen ≤ len → s.attests = true → s.inhibited = false → (s.trace.lost ≠ 0 → s.trace.queue ≠ []) →
      ∃ t epoch run sig, exec (.quote src nonce len) s = .next t ∧ t.att.quotes = satInc s.att.quotes ∧ t.trace.queue = [] ∧
        s.traceNewest < t.traceNewest ∧
        .buffer src.sq src.cid (s.quoteBody nonce epoch (t.traceNewest - 1) run ++ sig) ∈ (t.view src.mgr).out) ∧
    (s.allows (.tracingRead src fromSeq advance false len) → len % 128 = 0 → 128 ≤ len → fromSeq ≠ 0 →
      let recs := (s.trace.ring.filter fun r => max fromSeq.toNat s.traceHdr.oldest ≤ r.seq).take (len / 128);
      ∃ t, exec (.tracingRead src fromSeq advance false len) s = .next t ∧
        .buffer src.sq src.cid (recs.flatMap TraceRec.bytes) ∈ (t.view src.mgr).out ∧
        (advance = false → t.trace = s.trace) ∧
        (∀ r, advance = true → recs.getLast? = some r → r.seq < 2 ^ 64 → max (s.trace.mark.get src.mgr).toNat r.seq = (t.trace.mark.get src.mgr).toNat)) ∧
    (let e := entryOf units
     s.mctpUp ep e.opc = true → ep.1 < 4 →
      (∀ st, s.mctpGate ep e.opc = some st → ∃ t, exec (.mctpOvdelRequest ep units 0) s = .next t ∧ (t.ep ep).answers = (s.ep ep).answers ++
        [{ cid := e.cid, status := st, more := false, info := 0, result := res16 [], data := [] }]) ∧
      (∀ k, s.mctpGate ep e.opc = none → e.opc = 0x0102 → s.selChan e.ch = some k → ∃ t, exec (.mctpOvdelRequest ep units 0) s = .next t ∧
        (t.ep ep).answers = (s.ep ep).answers ++
          [{ cid := e.cid, status := stSuccess, more := false, info := 0, result := res16 (s.chStatus k), data := [] }])) ∧
    (s.portsUp = true →
      exec (.entdaa p addr) s = .next (s.modI3c p fun x => { x with dynAddr := addr, daValid := true }) ∧
      (∃ t, exec (.setdasa p addr) s = .next t ∧ Frame [.i3c] s t ∧
        (vget t.i3c p).saEn = bit (s.dcfg.i3c.getD p.1 0) 7 ∧ ((vget t.i3c p).saEn = true → (vget t.i3c p).dynAddr = addr ∧ (vget t.i3c p).daValid = true)) ∧
      exec (.ibiEnable p on) s = .next (s.modI3c p fun x => { x with ibiEn := on }) ∧
      exec (.i3cTargetError p true) s = .next (s.modI3c p fun x => { x with dropped := satInc x.dropped }) ∧
      exec (.i3cTargetError p false) s = .next (s.modI3c p fun x => { x with protocol := satInc x.protocol }) ∧
      (s.mgrOn m = true → eid ≠ 0 → eid ≠ 0xFF →
        exec (.setEndpointId m eid) s = .next (s.modView m fun v => { v with eid := eid, eidValid := true, msgs := v.msgs + 1 }))) ∧
    (s.portsUp = false → ∀ c ∈ [Instr.entdaa p addr, .setdasa p addr, .ibiEnable p on, .i3cTargetError p on, .setEndpointId m eid],
      exec c s = .next s)

/-! ## Rings -/

/-- The halves of the ring engine and their doorbells (R209, R210, R214, R215, R220, R243). -/
def Obligations.RingHalvesAndDoorbellsActAsWritten : Prop :=
  ∀ (s : State) (m : Mgr) (q : Byte) (v : Word),
    let r := s.ring m
    let pos := field v.toNat 12 0
    let ignored := fun (t : State) (sq : Bool) (why : BitVec 3) => (t.ring m).dbIgnored = satInc r.dbIgnored ∧ (t.ring m).errQid = q ∧
      (t.ring m).errSq = sq ∧ (t.ring m).errReason = why ∧ (t.ring m).cqs = r.cqs
    let moved := fun (t : State) => (t.ring m).dbIgnored = r.dbIgnored
    let own := fun (t : State) => Frame [.rings] s t ∧ t.ring m.other = s.ring m.other
    (s.reaches m 0x009040 →
      (∃ t, exec (.ringEnable m) s = .next t ∧ own t ∧
        (if r.en = true then t.ring m = r
         else if (∀ d ∈ [r.asqDepth.toNat, r.acqDepth.toNat], 16 ≤ d ∧ d ≤ 4096) ∧ r.asq.toNat % 4096 = 0 ∧ r.acq.toNat % 4096 = 0 then
           (t.ring m).en = true ∧ (t.ring m).rdy = true ∧ (t.ring m).fatal = false ∧ (t.ring m).version = 0x0103 ∧
           (∃ x, (t.ring m).sqs = [(0, x)] ∧ x.depth = r.asqDepth.toNat ∧ x.base = r.asq ∧ x.cls = 2 ∧ x.cq = 0 ∧ x.tail = 0 ∧ x.cons = 0 ∧
             x.head = 0 ∧ x.phase = true ∧ x.flight = []) ∧
           (∃ x, (t.ring m).cqs = [(0, x)] ∧ x.depth = r.acqDepth.toNat ∧ x.base = r.acq ∧ x.vector = 0 ∧ x.ien = true ∧ x.event = false ∧
             x.coalN = 0 ∧ x.coalUs = 0 ∧ x.tail = 0 ∧ x.head = 0 ∧ x.phase = true ∧ x.reserved = 0)
         else (t.ring m).en = true ∧ (t.ring m).rdy = false ∧ (t.ring m).fatal = true ∧ (t.ring m).sqs = r.sqs)) ∧
      (∃ t, exec (.ringDisable m) s = .next t ∧
        (if r.en = true then (t.ring m).en = false ∧ (t.ring m).rdy = false ∧ (t.ring m).version = 0x0103 ∧ (t.ring m).sqs = [] ∧
           (t.ring m).cqs = [] ∧ (t.hash.get m).jobs = [] ∧ (t.hash.get m).ctxs = [] ∧ ∀ n, (t.pl n).staging = (s.pl n).staging
         else t = s))) ∧
    (∃ t, exec (.functionReset m) s = .next t ∧
      (s.mgrOn m = false → t = s) ∧
      (s.mgrOn m = true → t.ring m = Ring.reset ∧ (∀ p, (vget t.hdrs p).get m = Hdr.reset) ∧ t.att.views.get m = AttView.reset ∧
        (∀ n, (t.st n).shadow.get m = { tbl := (s.st n).tbl, marks := [] } ∧ (t.st n).tbl = (s.st n).tbl ∧ (t.ch n).ordRes.get m = OrdRes.reset ∧
          (t.pl n).staging = (s.pl n).staging) ∧
        (t.view m).latch = [] ∧ (t.view m).held = [] ∧ (t.view m).msix = [] ∧ (t.view m).cfg = PciCfg.reset ∧
        (t.view m).linkUp = (s.view m).linkUp ∧
        t.mwd.get m = (if (s.mwd.get m).armed then { s.mwd.get m with tokenLo := 0 }
          else { s.mwd.get m with tokenLo := 0, keyed := false, prescale := 10, open_ := 0, close_ := 0 }))) ∧
    (s.reaches m (0x400000 + 8 * q.toNat) →
      (v.getLsbD 31 = true → exec (.sqTailDoorbell m q v) s = exec (.sqTailRetract m q v) s) ∧
      (SMap.get? r.sqs q.toNat = none → ∀ c ∈ [Instr.sqTailDoorbell m q v, .sqTailRetract m q v], ∃ t, exec c s = .next t ∧ own t ∧
        ignored t true 1 ∧ (t.ring m).sqs = r.sqs) ∧
      ∀ x, SMap.get? r.sqs q.toNat = some x →
        let dist := fun a => ringDist x.depth a x.head
        (x.fault = true → exec (.sqTailDoorbell m q v) s = .next s ∧ exec (.sqTailRetract m q v) s = .next s) ∧
        (x.fault = false → x.depth ≤ pos → ∀ c ∈ [Instr.sqTailDoorbell m q v, .sqTailRetract m q v], ∃ t, exec c s = .next t ∧ own t ∧ ignored t true 2 ∧
          (t.ring m).sqs = r.sqs) ∧
        (x.fault = false → pos < x.depth → v.getLsbD 31 = false → ∃ t, exec (.sqTailDoorbell m q v) s = .next t ∧ own t ∧
          (if dist pos < dist x.tail then ignored t true 3 ∧ (t.ring m).sqs = r.sqs
           else moved t ∧ (∀ i, i ≠ q.toNat → SMap.get? (t.ring m).sqs i = SMap.get? r.sqs i) ∧
             ∃ y, SMap.get? (t.ring m).sqs q.toNat = some y ∧ y.tail = pos ∧ y.cons = x.cons ∧ y.head = x.head ∧ y.phase = x.phase ∧
               y.flight = x.flight ∧ y.held = false)) ∧
        (x.fault = false → pos < x.depth → ∃ t, exec (.sqTailRetract m q v) s = .next t ∧ own t ∧
          (∀ i, i ≠ q.toNat → SMap.get? (t.ring m).sqs i = SMap.get? r.sqs i) ∧
          ∃ y, SMap.get? (t.ring m).sqs q.toNat = some y ∧ y.prefetch = 0 ∧ y.cons = x.cons ∧ y.head = x.head ∧ y.flight = x.flight ∧
            (if dist pos < dist x.cons then ignored t true 4 ∧ y.tail = x.tail ∧ y.retracted = false
             else moved t ∧ y.tail = pos ∧ y.retracted = true))) ∧
    (s.reaches m (0x400004 + 8 * q.toNat) → ∃ t, exec (.cqHeadDoorbell m q v) s = .next t ∧ own t ∧ (t.ring m).sqs = r.sqs ∧
      (SMap.get? r.cqs q.toNat = none → ignored t false 1) ∧
      ∀ x, SMap.get? r.cqs q.toNat = some x →
        if x.fault = true then t = s
        else if x.depth ≤ pos then ignored t false 2
        else if ringDist x.depth x.tail x.head < ringDist x.depth pos x.head then ignored t false 5
        else moved t ∧ (∀ i, i ≠ q.toNat → SMap.get? (t.ring m).cqs i = SMap.get? r.cqs i) ∧
          SMap.get? (t.ring m).cqs q.toNat = some { x with head := pos })

/-- Consumption, completions, events, interrupts and DMA failures (R211-R224, R239, R254). -/
def Obligations.QueuesAreConsumedAndAnswered : Prop :=
  ∀ (s : State) (m : Mgr) (q : Byte) (units : List Byte),
    let r := s.ring m
    let e := entryOf units
    (∀ x, SMap.get? r.sqs q.toNat = some x →
      let toEnd := x.depth - x.cons
      (s.mgrOn m = true → s.consumes { mgr := m, sq := q, cid := 0 } = true → s.dev.ccAbsent = false → s.pickQueue = some (m, q.toNat) →
          x.early = [] → x.fault = false → x.deleting = false → r.credit x = true → s.underLimit m = true → e.opc ≠ 0 →
        (s.dmaUp m = false → exec (.sqEntryConsume m q units) s =
          .next ((s.ringDmaFailed m 5 (x.base + BitVec.ofNat 64 (64 * x.cons))).queueFault m q true)) ∧
        (s.dmaUp m = true → x.posted units 0 (min e.units toEnd) = true → x.fenceOk e.fence = false →
          exec (.sqEntryConsume m q units) s = .next (s.putSq m q.toNat { x with fenced := true })) ∧
        (s.dmaUp m = true → ∃ t, exec (.sqEntryConsume m q units) s = .next t ∧
          (x.posted units 0 (min e.units toEnd) = false → Frame [.rings] s t ∧
            SMap.get? (t.ring m).sqs q.toNat = some { x with held := true, rereads := [s.now + 2000, s.now + 20000, s.now + 200000] }) ∧
          (x.posted units 0 (min e.units toEnd) = true → x.fenceOk e.fence = true → ∃ y, SMap.get? (t.ring m).sqs q.toNat = some y ∧
            y.tail = x.tail ∧
            (if x.cons + min e.units toEnd < x.depth then y.cons = x.cons + min e.units toEnd ∧ y.phase = x.phase
             else y.cons = 0 ∧ y.phase = !x.phase) ∧
            (e.units ≤ toEnd → e.cid ∉ x.toAbort → knownOpc e.opc = true → y.head = x.head ∧ ∃ f, y.flight = x.flight ++ [f] ∧ f.cid = e.cid ∧ f.start = x.cons ∧
              f.units = e.units ∧ f.fence = e.fence ∧ f.done = false ∧ (t.view m).out = (s.view m).out ∧
              ∀ c, SMap.get? r.cqs x.cq.toNat = some c → SMap.get? (t.ring m).cqs x.cq.toNat = some { c with reserved := c.reserved + 1 }) ∧
            (e.units ≤ toEnd → e.cid ∉ x.toAbort → knownOpc e.opc = false → ∃ at_ c, .completion x.cq at_ c ∈ (t.view m).out ∧
              c.cid = e.cid ∧ c.status = if s.dev.state = .deviceRecovery then stNotPermitted else stInvalidOpcode) ∧
            (toEnd < e.units → (t.ring m).badEntry = satInc r.badEntry ∧
              ∃ at_ c, .completion x.cq at_ c ∈ (t.view m).out ∧ c.cid = e.cid ∧ c.status = stInvalidField ∧ c.info = 2)))) ∧
      (s.mgrOn m = true → s.consumes { mgr := m, sq := q, cid := 0 } = true → s.dev.ccAbsent = false → x.early = [] → x.fault = false →
          x.deleting = false → e.opc = 0 → s.dmaUp m = true → x.posted units 0 1 = true → x.cons < x.depth →
        ∃ t, exec (.pad m q units) s = .next t ∧ Frame [.rings, .arb] s t ∧ (t.ring m).cqs = r.cqs ∧
          ∃ y, SMap.get? (t.ring m).sqs q.toNat = some y ∧ y.cons = 0 ∧ y.phase = !x.phase ∧ (x.flight = [] → y.head = 0 ∧ y.flight = [])) ∧
      (x.cls = 0 → x.waiting ≠ 0 → x.fault = false → exec (.bulkAgeing m q) s =
        .next ((s.until (x.waitFrom + 10000000)).putSq m q.toNat { x with promoted := true })) ∧
      (∀ at_ rest, x.rereads = at_ :: rest → x.fault = false → s.dmaUp m = true → exec (.sqPhaseReread m q units) s = .next ((s.until at_).putSq m q.toNat
        (if x.posted units 0 (min e.units toEnd) then { x with held := false, rereads := [] } else { x with rereads := rest })))) ∧
    (∀ src a x c, SMap.get? (s.ring src.mgr).sqs src.sq.toNat = some x → SMap.get? (s.ring src.mgr).cqs x.cq.toNat = some c →
      x.deleting = false → (s.inFlight? src).isSome = true → c.fault = false → s.dmaUp src.mgr = true →
      let t := s.deliver src a;
      ∃ z y, .completion x.cq c.tail z ∈ (t.view src.mgr).out ∧ z.cid = src.cid ∧ z.sqid.toNat = src.sq.toNat ∧ z.status = a.st ∧
        z.more = a.more ∧ z.info = BitVec.ofNat 32 a.info ∧ z.result = (a.result ++ List.replicate 16 0).take 16 ∧ z.phase = c.phase ∧
        SMap.get? (t.ring src.mgr).sqs src.sq.toNat = some y ∧ z.sqhd = BitVec.ofNat 16 y.head ∧ y.cons = x.cons ∧
        ∃ d, SMap.get? (t.ring src.mgr).cqs x.cq.toNat = some d ∧ d.tail = (if c.tail + 1 = c.depth then 0 else c.tail + 1) ∧
          d.phase = (if c.tail + 1 = c.depth then !c.phase else c.phase) ∧ d.reserved = c.reserved - 1 ∧
          (∀ b, a.data = some b → .buffer src.sq src.cid b ∈ (t.view src.mgr).out)) ∧
    (∀ k c x, r.evtCq = some k → SMap.get? r.cqs k.toNat = some c → c.fault = false → c.free ≠ 0 → r.rdy = true → s.dmaUp m = true → r.slots.head? = some x →
      (let due := fun y : EvtSlot => coalesced y.ev.code = false ∨ y.time + 1000000 ≤ s.now
       due x ∨ ∀ y ∈ r.slots, ¬due y) →
      ∃ t, exec (.eventSlotWrite m) s = .next t ∧ .eventEntry k c.tail x c.phase ∈ (t.view m).out ∧
        (t.ring m).slots = r.slots.filter (fun y => y ≠ x) ∧
        t.now = (if coalesced x.ev.code then max s.now (x.time + 1000000) else s.now) ∧
        ∃ d, SMap.get? (t.ring m).cqs k.toNat = some d ∧ d.tail = (if c.tail + 1 = c.depth then 0 else c.tail + 1) ∧ d.head = c.head) ∧
    (∀ c, SMap.get? r.cqs q.toNat = some c → ∃ t, exec (.cqInterrupt m q) s = .next t ∧
      (if c.ien = true ∧ c.unsignalled ≠ 0 ∧ c.fault = false then
        t.now = max s.now (if c.coalN ≠ 0 ∧ c.coalN ≤ c.unsignalled then 0 else c.firstAt + c.coalUs * 1000) ∧
        SMap.get? (t.ring m).cqs q.toNat = some { c with unsignalled := 0 } ∧
        ∀ v, SMap.get? (s.view m).msix c.vector = some v →
          if (s.view m).cfg.msixEn = false then t.view m = s.view m
          else if v.masked = true ∨ (s.view m).cfg.signals = false then
            SMap.get? (t.view m).msix c.vector = some { v with pend := true } ∧ (t.view m).out = (s.view m).out
          else (t.view m).out = (s.view m).out ++ [.msix c.vector]
       else t = s)) ∧
    (∀ x kind addr, SMap.get? r.sqs q.toNat = some x → ∃ t, exec (.ringDmaFault m q ⟨true, kind, addr⟩) s = .next t ∧
      Frame [.rings, .views] s t ∧ t.view m = (s.dmaFailed m kind addr).view m ∧
      SMap.get? (t.ring m).sqs q.toNat = some { x with fault := true } ∧ (t.ring m).cqs = r.cqs ∧ (t.ring m).dmaErr = satInc r.dmaErr ∧
      (t.ring m).errQid = q ∧ (t.ring m).errSq = true ∧ (t.ring m).errReason = 6 ∧ ((t.ring m).fatal = true ↔ r.fatal = true ∨ q = 0)) ∧
    (∀ c kind addr, SMap.get? r.cqs q.toNat = some c → ∃ t, exec (.ringDmaFault m q ⟨false, kind, addr⟩) s = .next t ∧
      Frame [.rings, .views] s t ∧ t.view m = (s.dmaFailed m kind addr).view m ∧
      SMap.get? (t.ring m).cqs q.toNat = some { c with fault := true } ∧ (t.ring m).errSq = false ∧
      (∀ i x, SMap.get? r.sqs i = some x → SMap.get? (t.ring m).sqs i = some { x with fault := x.fault || decide (x.cq = q) }) ∧
      ((t.ring m).fatal = true ↔ r.fatal = true ∨ q = 0)) ∧
    (∀ kind addr who, s.mgrOn m = true → who = none ∨ s.dmaUp m = true → ∃ t, exec (.dmaFailure m kind addr who) s = .next t ∧ (t.view m).aer = (s.view m).aer ++ [kind.toNat] ∧
      (t.view m).dmaErr = satInc (s.view m).dmaErr ∧ (t.view m).dmaKind = kind ∧ (t.view m).dmaAddr = addr ∧ (who = none → Frame [.views] s t))

/-- The queue commands, ABORT, NEGOTIATE, the features, IDENTIFY and GET_LOG (R226, R229, R231-R234). -/
def Obligations.QueueCommandsCreateDeleteAndReport : Prop :=
  ∀ (s : State) (src : Src) (cf : CqFields) (sf : SqFields) (qid sel cid : Half) (mask value : Word) (fid cns page : Byte) (data : List Byte)
    (offset len : Nat) (posted : Option Half),
    let r := s.ring src.mgr
    let done := fun (u : State) (a : Answer) => (Host.Outcome.next (u.deliver src a) : Out)
    let refuse := fun (st : Status) (info : Nat) => done s (ans st info)
    let setCqs := fun (f : SMap Cq → SMap Cq) => s.modRing src.mgr fun x => { x with cqs := f x.cqs }
    let setSqs := fun (f : SMap Sq → SMap Sq) => s.modRing src.mgr fun x => { x with sqs := f x.sqs }
    (s.allows (.createCq src cf) → exec (.createCq src cf) s =
      (if cf.qid = 0 ∨ 255 < cf.qid.toNat ∨ (SMap.get? r.cqs cf.qid.toNat).isSome then refuse stInvalidField 8
       else if cf.depth < 16 ∨ 4096 < cf.depth then refuse stInvalidField 10
       else if 512 ≤ cf.vector then refuse stInvalidField 12
       else if cf.base.toNat % 4096 ≠ 0 then refuse stInvalidField 16
       else if 255 < cf.coalN then refuse stInvalidField 24
       else if 1000 < cf.coalUs then refuse stInvalidField 26
       else done (setCqs fun l => SMap.put l cf.qid.toNat
         { depth := cf.depth, base := cf.base, vector := cf.vector, ien := cf.ien, event := cf.event, coalN := cf.coalN, coalUs := cf.coalUs,
           tail := 0, head := 0, phase := true, reserved := 0, fault := false, unsignalled := 0, firstAt := 0 }) okAns)) ∧
    (s.allows (.createSq src sf) → ∃ t, exec (.createSq src sf) s = .next t ∧
      (let bad := fun (off : Nat) => t = s.deliver src (ans stInvalidField off)
       if sf.qid = 0 ∨ 255 < sf.qid.toNat ∨ (SMap.get? r.sqs sf.qid.toNat).isSome then bad 8
       else if sf.depth < 16 ∨ 4096 < sf.depth then bad 10
       else match SMap.get? r.cqs sf.cqid.toNat with
         | none => bad 12
         | some c =>
           if c.event = true then bad 12
           else if 2 < sf.cls.toNat then bad 14
           else if sf.base.toNat % 4096 ≠ 0 then bad 16
           else ∃ y, t = (setSqs fun l => SMap.put l sf.qid.toNat y).deliver src okAns ∧ y.depth = sf.depth ∧ y.base = sf.base ∧
             y.cq.toNat = sf.cqid.toNat % 256 ∧ y.cls.toNat = sf.cls.toNat ∧ y.tail = 0 ∧ y.cons = 0 ∧ y.head = 0 ∧ y.phase = true ∧
             y.flight = [] ∧ y.fault = c.fault)) ∧
    (s.allows (.deleteSq src qid) → ∃ t, exec (.deleteSq src qid) s = .next t ∧
      (qid = 0 ∨ SMap.get? r.sqs qid.toNat = none → t = s.deliver src (ans stInvalidField 8)) ∧
      ∀ q, SMap.get? r.sqs qid.toNat = some q → qid ≠ 0 → qid.toNat ≤ 255 →
        (∀ a ∈ s.awaits, ∀ w k, a.who = .cmd w → a.kind = .delSq k → w.sq = 0) →
        (q.flight = [] → SMap.get? (t.ring src.mgr).sqs qid.toNat = none) ∧
        (∀ y, SMap.get? (t.ring src.mgr).sqs qid.toNat = some y → y.deleting = true)) ∧
    (s.allows (.deleteCq src qid) → exec (.deleteCq src qid) s =
      (if qid = 0 ∨ SMap.get? r.cqs qid.toNat = none then refuse stInvalidField 8
       else if (∃ e ∈ r.sqs, e.2.cq.toNat = qid.toNat) ∨ (r.evtCq.map fun k => k.toNat) = some qid.toNat then refuse stBusy 0
       else done (setCqs fun l => SMap.del l qid.toNat) okAns)) ∧
    (s.allows (.setEventRing src qid mask) → exec (.setEventRing src qid mask) s =
      (let set := fun k => done (s.modRing src.mgr fun x => { x with evtCq := k, mask := mask.truncate 8 }) okAns
       if qid = 0xFFFF then set none
       else if ((SMap.get? r.cqs qid.toNat).map fun c => (c.event, c.fault)) = some (true, true) then refuse stNotPermitted 0
       else if ((SMap.get? r.cqs qid.toNat).map fun c => c.event) = some true then set (some (qid.truncate 8))
       else refuse stInvalidField 8)) ∧
    (s.allows (.abort src qid cid posted) → ∃ t, exec (.abort src qid cid posted) s = .next t ∧
      (SMap.get? r.sqs qid.toNat = none → t = s.deliver src (okAns [] 1)) ∧
      ∀ q, SMap.get? r.sqs qid.toNat = some q → (∀ f ∈ q.flight, f.cid ≠ cid ∨ f.done = true) →
        t = (match posted with
          | some opc => if opc = 0x0008 then s.deliver src (okAns [] 2)
            else (setSqs fun l => SMap.put l qid.toNat { q with toAbort := q.toAbort ++ [cid] }).deliver src okAns
          | none => s.deliver src (okAns [] 1))) ∧
    (s.allows (.negotiate src sel) → ∃ t, exec (.negotiate src sel) s = .next t ∧
      (sel.toNat < 0x0103 → t = s.deliver src (ans stVersionUnsupported)) ∧
      (0x0103 ≤ sel.toNat → if (∃ e ∈ r.sqs, e.1 ≠ 0) ∨ (∃ e ∈ r.cqs, e.1 ≠ 0) then t = s.deliver src (ans stBusy)
        else ∃ v ∈ [0x0103, 0x0200, 0x0201, 0x0202], v ≤ sel.toNat ∧ (∀ w ∈ [0x0103, 0x0200, 0x0201, 0x0202], w ≤ sel.toNat → w ≤ v) ∧
          t = (s.modRing src.mgr fun x => { x with version := BitVec.ofNat 16 v }).deliver src
            (okAns [BitVec.ofNat 8 v, BitVec.ofNat 8 (v / 256), 0x0F, 0x00]))) ∧
    (s.allows (.setFeature src fid sel value data) → ∃ t, exec (.setFeature src fid sel value data) s = .next t ∧
      (fid = 1 → ∀ c, SMap.get? r.cqs sel.toNat = some c → field value.toNat 25 16 ≤ 1000 →
        t = if c.fault = true then s.deliver src (ans stNotPermitted) else (setCqs fun l => SMap.put l sel.toNat { c with coalN := field value.toNat 7 0, coalUs := field value.toNat 25 16 }).deliver src okAns) ∧
      (fid = 2 → t = (s.modRing src.mgr fun x => { x with mask := value.truncate 8 }).deliver src okAns) ∧
      (fid = 3 → 0x0202 ≤ s.version src.mgr → ∀ n, s.selChan sel = some n → data.length ≤ 16368 → (s.mb n).m2hAck = (s.mb n).m2hSeq →
        t = (s.modMbx n fun b => { b with m2hSeq := b.m2hSeq + 1, m2hLen := BitVec.ofNat 32 data.length, m2hData := data }).deliver src okAns) ∧
      (fid = 4 → ∀ q, SMap.get? r.sqs sel.toNat = some q → value.toNat ≤ 2 →
        t = if q.fault = true then s.deliver src (ans stNotPermitted) else (setSqs fun l => SMap.put l sel.toNat { q with cls := BitVec.ofNat 2 value.toNat, promoted := false }).deliver src okAns) ∧
      (fid ∉ [1, 2, 3, 4] → t = s.deliver src (ans stInvalidField 8))) ∧
    (s.allows (.getFeature src fid sel) → ∃ t, exec (.getFeature src fid sel) s = .next t ∧
      (fid = 1 → ∀ c, SMap.get? r.cqs sel.toNat = some c → t = s.deliver src (okAns (leBytes 4 (pack [(0, c.coalN), (16, c.coalUs)])))) ∧
      (fid = 2 → t = s.deliver src (okAns (leBytes 4 r.mask.toNat))) ∧
      (fid = 4 → ∀ q, SMap.get? r.sqs sel.toNat = some q → t = s.deliver src (okAns (leBytes 4 q.cls.toNat))) ∧
      (fid ∉ [1, 2, 3, 4] → t = s.deliver src (ans stInvalidField 8))) ∧
    (s.allows (.identify src cns sel len) → ∃ t, exec (.identify src cns sel len) s = .next t ∧
      (cns = 0 → 4096 ≤ len → ∃ d : List Byte, d.length = 4096 ∧ t = s.deliver src { okAns with data := some d } ∧
        ofLe (slice d 0x10 2) = s.part.hosts % 65536 ∧ ofLe (slice d 0x28 2) = 0xF ∧ ofLe (slice d 0x2A 2) = s.version src.mgr) ∧
      (cns = 1 → ∀ n, s.selChan sel = some n → 256 ≤ len → ∃ d : List Byte, d.length = 256 ∧
        t = s.deliver src { okAns with data := some d } ∧ ofLe (slice d 0 4) = s.ctlState n % 2 ^ 32) ∧
      (2 ≤ cns.toNat → t = s.deliver src (ans stInvalidField 8))) ∧
    (s.allows (.getLog src page sel offset len) → ∃ t, exec (.getLog src page sel offset len) s = .next t ∧
      (let log := fun (p : List Byte) => t = s.deliver src
         { st := stSuccess, info := 0, result := leBytes 4 (min len (p.length - offset)) ++ leBytes 4 p.length,
           data := some ((p.drop offset).take len), more := decide (offset + min len (p.length - offset) < p.length) }
       (page = 1 → log (r.errLog.flatMap ErrLine.bytes)) ∧
       (page = 2 → log s.identityLog) ∧
       (page = 4 → 0x0202 ≤ s.version src.mgr → log (s.unitsLog src.mgr)) ∧
       (page = 3 → 0x0202 ≤ s.version src.mgr → ∀ n p, s.selChan sel = some n → (s.mb n).posted = some p → offset = 0 →
         16 + p.bytes.length ≤ len → (t.mb n).posted = none ∧ (t.mb n).h2mAck = (s.mb n).h2mSeq) ∧
       (page ∉ [1, 2, 3, 4] → t = s.deliver src (ans stInvalidField 8))))

/-! ## Burin, hash farm and random numbers -/

/-- Burin (R192-R205 and page BUR). -/
def Obligations.BurinRunsItsJobs : Prop :=
  ∀ (s : State) (src : Src) (desc : List Byte) (resLen : Nat) (ops : List (List Byte)) (k : Fin 4) (ev : JobEv) (m : Mgr) (pass : Bool) (id : Nat),
    let own := Owner.queue src.mgr src.sq
    (s.allows (.burinOp src desc resLen ops) →
      let d := burinDesc desc
      let st := s.burinCheck src.mgr desc resLen
      ∃ t, exec (.burinOp src desc resLen ops) s = .next t ∧
        (if burinPq d.op = true ∧ s.version src.mgr < 0x0201 then t = s.deliver src (ans stVersionUnsupported)
         else if desc.length < 32 ∨ 160 < desc.length then t = s.deliver src (ans stInvalidField 24)
         else if st ≠ stSuccess then t = s.deliver src (ans st (if st = stInvalidField then
           (if s.burinCheck src.mgr desc (2 ^ 32) = stInvalidField then 16 else 40) else 0))
         else if (d.op = 0x10 ∨ d.op = 0x11) ∧ s.drbg.keyState ≠ 1 then t = s.deliver src (ans stNotPermitted)
         else t.burin.nextId = s.burin.nextId + 1 ∧
           burinPair d.op d.pset = true ∧ (burinPq d.op = true → s.part.pq = true) ∧ outLen d.op d.pset d.modbits (d.flag 3) ≤ resLen ∧
           (∀ r ∈ d.needs, r ∈ d.roles.map Prod.fst) ∧ (∀ r ∈ d.roles.map Prod.fst, r ∈ d.needs) ∧
           let isJob := fun j : BurinJob => j.id = s.burin.nextId ∧ j.owner = own ∧ j.cid = src.cid ∧ j.op.toNat = d.op ∧ j.pset.toNat = d.pset ∧
             j.flags.toNat = d.flags ∧ j.ran = 0 ∧ j.cls = s.queueClass src ∧
             j.operands = (d.roles.zip ops).map fun x => { role := BitVec.ofNat 8 x.1.1, bytes := slice x.2 0 x.1.2 }
           ((∀ i, (s.core i).state ≠ 0) → ∃ j, isJob j ∧ t.burin.waiting = s.burin.waiting ++ [j]) ∧
           (s.burin.waiting = [] → (∀ i, (s.core i).susp = []) → d.flag 1 = false → (∃ i, (s.core i).state = 0) →
             ∃ i j, isJob j ∧ (s.core i).state = 0 ∧ (t.core i).state = 1 ∧ (t.core i).job = some j ∧ t.burin.waiting = [] ∧
               j.since = max s.now (s.core i).wipeEnd + (if (s.core i).lastOwner ≠ .none ∧ (s.core i).lastOwner ≠ own then 8000 else 0) ∧
               ((∃ i', (s.core i').state = 0 ∧ (s.core i').lastOwner = own) → (s.core i).lastOwner = own)))) ∧
    (∀ j, (s.core k).job = some j → j.owner = own → j.cid = src.cid → s.outWaits j = false → s.dmaUp src.mgr = true →
      let slots := if j.op = 0x0A then (if ev.exhausted = true then 256 else max 1 (min 256 ev.slots.toNat)) else 0
      let time := j.time slots (popCount s.farm.lanes)
      let edge := if j.op = 0x0A ∧ ev.exhausted = true then stResultInvalid else j.edge
      let fails := ev.fault = true ∧ j.canFault edge = true
      let refused := bit j.flags.toNat 3 = true ∧ s.slotWritable src.mgr j.outSlot.toNat (secretType j.op.toNat j.pset.toNat) = false ∨
        s.jobNeedsKey j = true ∧ s.drbg.keyState ≠ 1
      let out := j.result (s.drawn + (max 1 slots - 1))
      ∃ t, exec (.burinJobDone k ev) s = .next t ∧ t.now = max s.now (j.since + (time - j.ran)) ∧
        (t.core k).jobs = satInc (s.core k).jobs ∧ (t.core k).lastCycles.toNat = min time (2 ^ 32 - 1) ∧
        (∀ x c, SMap.get? (s.ring src.mgr).sqs src.sq.toNat = some x → SMap.get? (s.ring src.mgr).cqs x.cq.toNat = some c → c.fault = false →
          ∃ z, .completion x.cq c.tail z ∈ (t.view src.mgr).out ∧ z.cid = src.cid ∧
            z.result.take 4 = leBytes 4 (min time (2 ^ 32 - 1)) ∧
            z.status = if fails then stFaultDetected else if edge ≠ stSuccess then edge else if refused then stNotPermitted
              else if out = [] ∨ ev.dma = none then stSuccess else stAborted) ∧
        (¬fails → edge = stSuccess → ¬refused → out ≠ [] →
          (ev.dma = none → .buffer src.sq src.cid out ∈ (t.view src.mgr).out) ∧
          ∀ f, ev.dma = some f → (t.view src.mgr).dmaErr = satInc (s.view src.mgr).dmaErr ∧ (t.view src.mgr).dmaAddr = f.addr ∧
            (f.wrote ≠ 0 → .buffer src.sq src.cid (out.take f.wrote) ∈ (t.view src.mgr).out)) ∧
        (fails ∨ edge ≠ stSuccess ∨ refused → ∀ b, .buffer src.sq src.cid b ∈ (t.view src.mgr).out →
          .buffer src.sq src.cid b ∈ (s.view src.mgr).out) ∧
        (fails → s.tamperLevel 9 ≠ 3 → (t.core k).state = 3 ∧ (t.core k).job = none ∧ (t.core k).susp = [] ∧
          (t.core k).faults = satInc (s.core k).faults ∧ (t.core k).testEnd = t.now + 2000000)) ∧
    (∀ j w, (s.core k).job = some j → j.yields = true → w ∈ s.burin.waiting → j.class < w.class → (∀ i, (s.core i).state ≠ 0) →
        (s.core k).susp = [] → (∀ x ∈ s.burin.waiting, bit x.flags.toNat 1 = false) → s.dev.state = .running → s.dev.ccAbsent = false →
      ∃ t y, exec (.burinYield k) s = .next t ∧ t.now = max s.now j.since ∧ (t.core k).susp = [{ j with ran := j.done t.now }] ∧
        (t.core k).yields = satInc (s.core k).yields ∧ (t.core k).job = some y ∧ j.class < y.class) ∧
    (∀ w, s.burin.waiting.find? (fun j => j.id = id && j.cls = 0) = some w → ∃ t, exec (.burinPromotion id) s = .next t ∧
      t.now = max s.now (w.arrived + 10000000) ∧ Frame [.now, .burin] s t ∧
      t.burin.waiting = s.burin.waiting.map fun j => if j.id = id then { j with promoted := true } else j) ∧
    ((s.core k).state = 3 → ∃ t, exec (.burinSelftestDone k pass) s = .next t ∧ t.now = max s.now (s.core k).testEnd ∧
      (pass = true → (t.core k).inService = true) ∧ (pass = false → (t.core k).state = 4 ∧ (t.core k).dead = true)) ∧
    (s.reaches m (0x010054 + 0x1000 * k.1) →
      (∃ t, exec (.burTakeOut m k) s = .next t ∧
        ((∃ i, i ≠ k ∧ (s.core i).inService = true ∧ (s.core i).outAfter = false) →
          ((s.core k).state = 0 → (t.core k).state = 4) ∧
          ((s.core k).state = 1 → t = s.modCore k fun c => { c with outAfter := true })) ∧
        ((∀ i, i ≠ k → (s.core i).inService = false ∨ (s.core i).outAfter = true) → t = s.ignoredWrite m (0x010054 + 0x1000 * k.1))) ∧
      exec (.burReturn m k) s = .next (if (s.core k).state = 4 ∧ (s.core k).dead = false
        then s.modCore k fun c => { c with state := 3, testEnd := s.now + 2000000 } else s.ignoredWrite m (0x010054 + 0x1000 * k.1)) ∧
      exec (.burCntclr m k) s = .next (s.modCore k fun c => { c with jobs := 0, yields := 0, faults := 0, aborts := 0, wipes := 0 }))

/-- HASH_OP, RANDOM and the entropy source (R195, R196, R206, R207). -/
def Obligations.HashAndRandomCommandsAnswer : Prop :=
  ∀ (s : State) (src : Src) (desc : List Byte) (outLen : Nat) (segs : List (List Byte)) (m : Mgr) (test : EntropyTest) (pass : Bool),
    (s.allows (.hashOp src desc outLen segs) →
      let alg := leAt desc 0 1
      let mode := leAt desc 1 1
      let data := ((List.range (leAt desc 3 1)).zip segs).flatMap fun x => slice x.2 0 (leAt desc (0x10 + 16 * x.1 + 8) 4)
      let c := SMap.get? (s.hash.get src.mgr).ctxs (leAt desc 2 1)
      let refused := fun (st : Status) (info : Nat) => exec (.hashOp src desc outLen segs) s = .next (s.deliver src (ans st info))
      (mode ≠ 0 → mode ≤ 4 → s.version src.mgr < 0x0202 → refused stVersionUnsupported 0) ∧
      (mode = 0 ∨ 0x0202 ≤ s.version src.mgr →
        (desc.length < 16 ∨ 64 < leAt desc 3 1 ∨ desc.length ≠ 16 + 16 * leAt desc 3 1 → refused stInvalidField 24) ∧
        (desc.length = 16 + 16 * leAt desc 3 1 → leAt desc 3 1 ≤ 64 → alg = 0 ∨ 10 < alg ∨ 4 < mode → refused stInvalidField 16) ∧
        (hashField desc outLen data.length = none →
          (mode = 1 → c.isSome = true → refused stBusy 0) ∧
          (2 ≤ mode → c = none → refused stNotPermitted 0) ∧
          (∀ x, mode = 2 ∨ mode = 3 → c = some x → x.alg.toNat ≠ alg → refused stInvalidField 16) ∧
          (algHmac alg = false → (mode = 0 ∨ mode = 1 ∧ c = none ∨ ∃ x, c = some x ∧ (mode = 4 ∨ 2 ≤ mode ∧ x.alg.toNat = alg)) →
            ∃ t j, exec (.hashOp src desc outLen segs) s = .next t ∧ Frame [.hash] s t ∧
              (t.hash.get src.mgr).jobs = (s.hash.get src.mgr).jobs ++ [j] ∧ j.sq = src.sq ∧ j.cid = src.cid ∧ j.alg.toNat = alg ∧
              j.mode.toNat = mode ∧ j.ctx.toNat = leAt desc 2 1 ∧ j.data = data ∧ j.outLen = leAt desc 6 2 ∧ j.cls = s.queueClass src ∧
              (mode = 1 → SMap.get? (t.hash.get src.mgr).ctxs (leAt desc 2 1) = some { alg := j.alg, key := [], data := [] }))))) ∧
    (s.dev.ccAbsent = true → exec (.hashJobDone m) s = .next s) ∧
    (∀ j before rest x c, s.dev.ccAbsent = false → s.dmaUp m = true → (s.hash.get m).jobs = before ++ j :: rest →
      (∀ k ∈ before, k.cls.toNat < j.cls.toNat) → (∀ k ∈ rest, k.cls.toNat ≤ j.cls.toNat) →
      SMap.get? (s.ring m).sqs j.sq.toNat = some x → SMap.get? (s.ring m).cqs x.cq.toNat = some c → c.fault = false →
      ∃ t z, exec (.hashJobDone m) s = .next t ∧ (t.hash.get m).jobs = before ++ rest ∧ (t.hash.get m).done = (s.hash.get m).done + 1 ∧
        .completion x.cq c.tail z ∈ (t.view m).out ∧ z.cid = j.cid ∧
        (j.mode = 0 → z.status = stSuccess ∧ z.result.take 8 = leBytes 8 j.data.length ∧ (t.hash.get m).ctxs = (s.hash.get m).ctxs ∧
          .buffer j.sq j.cid (hashOutput j.alg.toNat j.key j.data j.outLen) ∈ (t.view m).out) ∧
        (SMap.get? (s.hash.get m).ctxs j.ctx.toNat = none → j.mode ≠ 0 →
          if j.mode = 1 ∧ j.again = true then z.status = stSuccess ∧
            SMap.get? (t.hash.get m).ctxs j.ctx.toNat = some { alg := j.alg, key := j.key, data := j.data }
          else z.status = stNotPermitted) ∧
        (∀ k, SMap.get? (s.hash.get m).ctxs j.ctx.toNat = some k →
          (j.mode = 3 → z.status = stSuccess ∧ SMap.get? (t.hash.get m).ctxs j.ctx.toNat = none ∧
            .buffer j.sq j.cid (hashOutput j.alg.toNat k.key (k.data ++ j.data) j.outLen) ∈ (t.view m).out) ∧
          (j.mode = 4 → z.status = stSuccess ∧ SMap.get? (t.hash.get m).ctxs j.ctx.toNat = none) ∧
          (j.mode = 1 ∨ j.mode = 2 → z.status = stSuccess ∧
            SMap.get? (t.hash.get m).ctxs j.ctx.toNat = some { k with data := k.data ++ j.data }))) ∧
    (∀ len, s.allows (.random src len) → ∃ t, exec (.random src len) s = .next t ∧
      (if len = 0 ∨ 4096 < len then t = s.deliver src (ans stInvalidField 24)
       else if s.drbg.keyState ≠ 1 then t = s.deliver src (ans stNotPermitted)
       else ∃ b : List Byte, b.length = len ∧ t.drawn = s.drawn + 1 ∧ .buffer src.sq src.cid b ∈ (t.view src.mgr).out)) ∧
    (let failed := fun (t : State) => t.drbg.keyState = 2 ∧ t.drbg.genState = 2 ∧ t.drbg.healthFails = satInc s.drbg.healthFails
     let passed := fun (t : State) => t.drbg.keyState = 1 ∧ t.drbg.genState = 1 ∧ t.drbg.reseeds = satInc s.drbg.reseeds ∧
       t.drbg.rctFail = false ∧ t.drbg.aptFail = false ∧ t.drbg.startupFail = false
     (s.drbg.keyState ≠ 0 → ∃ t, exec (.entropyHealthFail test) s = .next t ∧ failed t ∧ (test = .repetition → t.drbg.rctFail = true) ∧
       (test = .proportion → t.drbg.aptFail = true) ∧ (test = .startup → t.drbg.startupFail = true)) ∧
     (s.drbg.keyState = 2 → ∃ t, exec (.entropyRetest pass) s = .next t ∧ t.now = max s.now (s.drbg.lastTest + 1000000000) ∧
       if pass then passed t else failed t) ∧
     (s.drbg.keyState ≠ 0 → s.reaches m 0x00F04C → ∃ t, exec (.drbRetest m pass) s = .next t ∧ t.now = s.now ∧
       if pass then passed t else failed t)) ∧
    (s.drbg.genState = 1 → ∃ t, exec .drbgReseed s = .next t ∧ Frame [.now, .drbg] s t ∧ t.drbg.reseeds = satInc s.drbg.reseeds ∧
      t.drbg.genReqs = 0 ∧ t.drbg.lastReseed = t.now ∧
      t.now = (if 65536 ≤ s.drbg.genReqs then s.now else max s.now (s.drbg.lastReseed + s.dcfg.reseedMs * 1000000)))

/-! ## Keys, fuses and tamper -/

/-- Key updates, key descriptors and the fuse array (R261, R264, R265, R286-R289). -/
def Obligations.KeyAndFuseCommandsAct : Prop :=
  ∀ (s : State) (src : Src) (msg bitmap : List Byte) (slot region : Half) (len bitOffset faults : Nat) (ev : PulseEv) (stuck : Bool),
    let r := region.toNat
    let calm := ev.never = [] ∧ ev.inhibitedAfter = none ∧ ev.stuckAfter = none
    let posted := fun (u t : State) (p : Completion → Prop) => ∀ x c, SMap.get? (u.ring src.mgr).sqs src.sq.toNat = some x →
      SMap.get? (u.ring src.mgr).cqs x.cq.toNat = some c → c.fault = false → u.dmaUp src.mgr = true → ∃ z, .completion x.cq c.tail z ∈ (t.view src.mgr).out ∧ z.cid = src.cid ∧ p z
    (s.allows (.keyUpdate src ⟨msg, faults⟩) →
      let early := (s.keyUpdate src.mgr msg).2.st
      let runs := early = stSuccess ∨ early = stSignatureFailed ∨ early = stCounterStale ∨ early = stDigestMismatch
      let job := if runs then s.internalJob 0x07 150000 faults else (true, s)
      let u := job.2
      let st := if job.1 = true then (u.keyUpdate src.mgr msg).2.st else stFaultDetected
      ∃ t, exec (.keyUpdate src ⟨msg, faults⟩) s = .next t ∧ t.keys.lastStatus = st ∧ (posted u t fun z => z.status = st) ∧
        (faults = 0 → job.1 = true ∧ Frame [.burin] s u) ∧ (2 ≤ faults → runs → job.1 = false) ∧
        (st ≠ stSuccess → t.keys.slots = u.keys.slots ∧ t.keys.vault = u.keys.vault ∧ t.keys.refused = satInc u.keys.refused) ∧
        (st = stSuccess → u.isSecondary src.mgr = false ∧ u.tamper.lock = false ∧ u.inhibited = false ∧ leAt msg 0 4 = 0x444B5552 ∧
          slice msg 8 48 = u.identity.toList ∧
          u.kmkSigned (sigBlockAt msg (leAt msg 0x54 4)) (Config.sha384 (msg.take (leAt msg 0x54 4))).toList = true ∧
          u.vaultCounter < leAt msg 0x38 8 ∧ t.vaultCounter = leAt msg 0x38 8 ∧ t.dev.zeroised = false ∧
          t.keys.accepted = satInc u.keys.accepted ∧
          ∃ l, t.keys.slots = applyEntries l (bit (leAt msg 0x40 4) 1) u.keys.slots ∧ ∀ e ∈ l, e.ok = true)) ∧
    (s.allows (.keyInfo src slot len) → ∃ t, exec (.keyInfo src slot len) s = .next t ∧
      (slot = 0xFFFE → 1761 ≤ len → s.keys.transport = true → ∃ b : List Byte, .buffer src.sq src.cid b ∈ (t.view src.mgr).out ∧ b.length = 1761) ∧
      (slot = 0xFFFE → 1761 ≤ len → s.keys.transport = false → t = s.deliver src (ans stNotPermitted)) ∧
      (∀ k, fin? 256 slot.toNat = some k → if len < 64 then t = s.deliver src (ans stInvalidField 24) else
        ∃ b : List Byte, t = s.deliver src { okAns with data := some b } ∧ b.length = 64 ∧ ofLe (slice b 0 2) = k.1 ∧
          ofLe (slice b 3 1) = (s.slotView k).type.toNat ∧ ofLe (slice b 4 2) = (s.slotView k).usage.toNat) ∧
      (256 ≤ slot.toNat → slot ≠ 0xFFFE → t = s.deliver src (ans stInvalidField 8))) ∧
    (s.allows (.otpRead src region bitOffset ⟨len, stuck⟩) → s.otp.busy = none →
      let k := field r 7 0
      let source := field r 9 8
      ∃ t, exec (.otpRead src region bitOffset ⟨len, stuck⟩) s = .next t ∧
        (5 < k ∨ source = 3 → t = s.deliver src (ans stInvalidField 8)) ∧
        (k ≤ 5 → source ≠ 3 → if bitOffset % 8 ≠ 0 ∨ 4 * otpSpan k < bitOffset / 8 + len then t = s.deliver src (ans stInvalidField 12)
          else if stuck = true ∧ source ≠ 0 ∧ len ≠ 0 then t.otp.busy = some (src, k) ∧ t.otp.state = 2 ∧ Frame [.otp] s t
          else ∃ b : List Byte, t = s.deliver src { okAns (leBytes 4 len) with data := some b } ∧ b.length = len ∧
            ∀ i, i < len → let j := bitOffset / 8 + i;
              let w := if source = 0 then s.otp.shadowAt (otpBase k + j / 4) else if source = 1 then s.otp.n (otpBase k + j / 4)
                else s.otp.s (otpBase k + j / 4)
              b[i]? = some (if k = 2 ∧ j < 160 then 0 else BitVec.ofNat 8 (w.toNat >>> (8 * (j % 4)))))) ∧
    (s.allows (.otpProgram src region bitOffset bitmap ev) → s.otp.busy = none →
      let asked := bitmapBits bitOffset bitmap
      let c := s.programStatus r bitmap.length asked
      ∃ t, exec (.otpProgram src region bitOffset bitmap ev) s = .next t ∧
        (s.isSecondary src.mgr = true ∨ c.1 ≠ stSuccess → t.otp.normal = s.otp.normal ∧ t.otp.strict = s.otp.strict ∧
          posted s t fun z => z.status = (if s.isSecondary src.mgr then stNotPermitted else c.1)) ∧
        (s.isSecondary src.mgr = false → c.1 = stSuccess →
          (∀ b, t.otp.strictBit b = true → s.otp.strictBit b = true ∨ ∃ a ∈ asked, b = 32 * otpBase r + a) ∧
          (calm → (∀ a ∈ asked, t.otp.strictBit (32 * otpBase r + a) = true) ∧
            posted s t fun z => z.status = stSuccess ∧ z.result.take 8 = leBytes 4 asked.length ++ leBytes 4 0))) ∧
    (s.allows (.otpFinalise src region ev) → s.otp.busy = none → ∃ t, exec (.otpFinalise src region ev) s = .next t ∧
      let c := s.finaliseStatus r
      (s.isSecondary src.mgr = true ∨ c.1 ≠ stSuccess → t.otp.normal = s.otp.normal ∧ t.otp.strict = s.otp.strict ∧
        posted s t fun z => z.status = (if s.isSecondary src.mgr then stNotPermitted else c.1)) ∧
      (s.isSecondary src.mgr = false → c.1 = stSuccess → calm → s.otp.digestClash r = true → t.otp.locked r = false ∧
        posted s t fun z => z.status = stDigestMismatch) ∧
      (s.isSecondary src.mgr = false → c.1 = stSuccess → calm → s.otp.digestClash r = false → t.otp.locked r = true ∧
        (∀ i < 4, t.otp.n (otpDigestAt r + i) = t.otp.digestWord r i ∧ t.otp.s (otpDigestAt r + i) = t.otp.digestWord r i) ∧
        (∀ i < otpWords r, t.otp.n (otpBase r + i) = s.otp.n (otpBase r + i) ∧ t.otp.s (otpBase r + i) = s.otp.n (otpBase r + i)) ∧
        posted s t fun z => z.status = stSuccess))

/-- Tamper (R267-R273). -/
def Obligations.TamperSourcesActAtTheirLevels : Prop :=
  ∀ (s : State) (sources : BitVec 10) (i : Fin 10) (l : Fin 4) (kind : BitVec 3) (src : Src) (confirm : Word) (m : Mgr),
    let burnished := fun (t : State) (source : Nat) => t.tamper.burnt = true ∧ t.tamper.last.toNat = source ∧
      t.tamper.burnishes = satInc s.tamper.burnishes ∧ t.dev.zeroised = true ∧ t.att.keysReady = false ∧ t.imm.keyValid = false ∧
      (∀ k, (t.slot k).material = none) ∧ (∀ q v, t.keys.vault.c0 = .valid q v ∨ t.keys.vault.c1 = .valid q v → v.salt = none) ∧
      (∀ n, (t.mb n).cdi = [] ∧ (t.wd n).key = []) ∧ (∀ k, t.dirE k = Impression.free) ∧ t.hash.a.ctxs = [] ∧ t.hash.b.ctxs = [] ∧
      ((∀ n, (s.ch n).seq = none) → ∀ n, (t.ch n).sink = true ∧ (t.ch n).bound = none ∧
        (if (s.ch n).state.live = true ∨ (s.ch n).state = .held then (t.ch n).state = .held ∧ (t.ch n).kind = .device
         else (t.ch n).state = (s.ch n).state))
    -- the sources of `new` trip at once
    let tripped := fun (t : State) (new : Fin 10 → Prop) =>
      (∀ i, t.tamper.active.getLsbD i.1 = true ↔ s.tamper.active.getLsbD i.1 = true ∨ new i) ∧
      (∀ i, t.tamper.latched.getLsbD i.1 = true ↔ s.tamper.latched.getLsbD i.1 = true ∨ new i ∧ 1 ≤ s.tamperLevel i.1) ∧
      (∀ i, new i → (∀ k, k ≠ i → ¬new k) → t.tamper.trips = satInc s.tamper.trips) ∧
      ((∀ i, new i → s.tamperLevel i.1 ≤ 1) → t.tamper.lock = s.tamper.lock ∧ t.tamper.ledger = s.tamper.ledger ∧ t.ctl = s.ctl) ∧
      ((∃ i, new i ∧ s.tamperLevel i.1 = 2) → (∀ i, new i → s.tamperLevel i.1 ≤ 2) →
        t.tamper.lock = true ∧ t.tamper.ledger = (true, t.tamper.latched) ∧ (s.dev.state ≠ .standby → t.ctl = s.ctl)) ∧
      ((∀ i, new i → s.tamperLevel i.1 ≤ 2) → t.tamper.burnt = s.tamper.burnt ∧ t.keys = s.keys) ∧
      ((∃ i, new i ∧ 2 ≤ s.tamperLevel i.1) → s.dev.state = .standby → t.dev.state = .running) ∧
      (∀ i, new i → s.tamperLevel i.1 = 3 → (∀ k, new k → s.tamperLevel k.1 = 3 → i ≤ k) →
        t.tamper.lock = s.tamper.lock ∧ burnished t i.1)
    (∃ t, exec (.tamperTrip sources) s = .next t ∧
      let new := fun i : Fin 10 => sources.getLsbD i.1 = true ∧ s.watched i.1 = true ∧ s.tamper.active.getLsbD i.1 = false
      tripped t new ∧ ((∀ i, ¬new i) → t = s)) ∧
    (s.tamperLevel (5 + l.1) = 0 → s.watched (5 + l.1) = false) ∧
    (∃ t, exec (.loopSample l kind) s = .next t ∧
      (s.watched (5 + l.1) = false ∨ 4 < kind.toNat → t = s) ∧
      (s.watched (5 + l.1) = true → kind.toNat ≤ 4 → vget t.tamper.loopKind l = kind ∧
        vget t.tamper.loopFails l = (if kind = 0 then 0 else vget s.tamper.loopFails l + 1) ∧
        (kind ≠ 0 → s.loopN ≤ vget s.tamper.loopFails l + 1 → s.tamper.active.getLsbD (5 + l.1) = false →
          tripped t fun i => i.1 = 5 + l.1) ∧
        (kind = 0 ∨ vget s.tamper.loopFails l + 1 < s.loopN → t.tamper.active = s.tamper.active ∧ t.tamper.trips = s.tamper.trips))) ∧
    (∃ t, exec (.tamperInactive i) s = .next t ∧ Frame [.tamper] s t ∧ t.tamper.active.getLsbD i.1 = false ∧
      (∀ k, k ≠ i.1 → t.tamper.active.getLsbD k = s.tamper.active.getLsbD k) ∧ t.tamper.latched = s.tamper.latched ∧
      t.tamper.lock = s.tamper.lock) ∧
    (s.allows (.zeroize src confirm) → ∃ t, exec (.zeroize src confirm) s = .next t ∧
      if confirm = 0x5A45524F then burnished t 16 else t = s.deliver src (ans stInvalidField 8)) ∧
    (s.reaches m 0x007060 →
      (let busy := fun (lo : Nat) => ∃ k < 10, s.tamper.active.getLsbD k = true ∧ lo ≤ s.tamperLevel k
       (∃ t, exec (.tmpClear m) s = .next t ∧
         (s.isSecondary m = true ∨ busy 2 → t = s.ignoredWrite m 0x007060) ∧
         (s.isSecondary m = false → ¬busy 2 → t.tamper.lock = false ∧ t.tamper.latched = s.tamper.latched &&& s.tamper.active ∧
           t.tamper.active = s.tamper.active ∧ t.tamper.ledger = (false, t.tamper.latched))) ∧
       (∃ t, exec (.tmpRearm m) s = .next t ∧
         (s.isSecondary m = true ∨ s.tamper.burnt = false ∨ busy 3 → t = s.ignoredWrite m 0x007060) ∧
         (s.isSecondary m = false → s.tamper.burnt = true → ¬busy 3 → t.dev.state = .shadow ∧ t.dev.warm = satInc s.dev.warm ∧
           t.dev.resetCause = s.dev.resetCause ∧ ∀ n, (t.ch n).sink = true))))

/-! ## Register pages -/

/-- Register pages (R11, R63, R209, R241, R242, R245, R249). -/
def Obligations.PageWritesActOrAreRefused : Prop :=
  ∀ (s : State) (m : Mgr) (off page : Nat) (v : Word) (n : Fin 128),
    let setHdr := fun (t : State) (f : Hdr → Hdr) (p : Fin 1024) => Frame [.hdrs, .views] s t ∧ (vget t.hdrs p).get m = f ((vget s.hdrs p).get m) ∧
      (vget t.hdrs p).get m.other = (vget s.hdrs p).get m.other ∧ ∀ q, q ≠ p → vget t.hdrs q = vget s.hdrs q
    let ignoredAt := fun (t : State) (o : Nat) (p : Fin 1024) => setHdr t (fun h => { h with ignored := true, errOffset := BitVec.ofNat 12 o }) p
    (s.barOpen m = false → ∀ c ∈ [Instr.registerWrite m off v, .bar0BadAccess m off, .bar0UnmappedAccess m off, .lowWordRead m off,
        .lockWrite m page v, .irqClr m page v, .errInfoClear m page v, .mbxErrclr m n v, .stnCntclr m n v, .evtLostclr m v, .rngErrclr m v,
        .pwrSeenClear m v], exec c s = .next s) ∧
    (s.barOpen m = true → s.mapped off = true → ∀ p, fin? 1024 (off / 4096) = some p → ∃ t, exec (.bar0BadAccess m off) s = .next t ∧
      setHdr t (fun h => { h with size := true, errOffset := BitVec.ofNat 12 (off % 4096) }) p ∧
      (t.view m).sizeErr = satInc (s.view m).sizeErr ∧ (t.view m).readValue = 0) ∧
    (s.barOpen m = true → s.mapped off = false → exec (.bar0UnmappedAccess m off) s = .next (s.modView m fun x =>
      { x with unmapped := satInc x.unmapped, readValue := 0 })) ∧
    (s.reaches m off → off % 4 = 0 → ∃ t, exec (.lowWordRead m off) s = .next t ∧ Frame [.views] s t ∧ t.view m.other = s.view m.other ∧
      (if isLowWord off then t.regRead m (off + 4) = BitVec.ofNat 32 (s.liveReg m (off + 4)) else (t.view m).readValue = s.regRead m off)) ∧
    (∀ p, fin? 1024 page = some p →
      (s.reaches m (pageBase page + 0x028) → ∃ t, exec (.lockWrite m page v) s = .next t ∧ ignoredAt t 0x028 p) ∧
      (s.reaches m (pageBase page + 0x01C) → ∃ t, exec (.irqClr m page v) s = .next t ∧ setHdr t (fun h =>
        { h with ignored := h.ignored && !v.getLsbD 0, size := h.size && !v.getLsbD 0, shdDone := h.shdDone && !v.getLsbD 1 }) p) ∧
      (s.reaches m (pageBase page + 0x02C) → ∃ t, exec (.errInfoClear m page v) s = .next t ∧ setHdr t (fun h =>
        { h with ignored := h.ignored && !v.getLsbD 0, size := h.size && !v.getLsbD 1 }) p)) ∧
    (s.reaches m (chanPage n 3 + 0x04C) → exec (.mbxErrclr m n v) s = .next (if v.getLsbD 0
      then s.modPort n fun x => { x with shortDummy := 0, undecoded := 0, ignored := 0, boundary := 0 } else s)) ∧
    (s.reaches m (chanPage n 1 + 0x060) → exec (.stnCntclr m n v) s = .next (if v.getLsbD 0
      then s.modStn n fun x => { x with deniedRead := 0, protectedCnt := 0, ruleDeny := 0, bucketCnt := 0, supplyCnt := 0, passOther := 0 } else s)) ∧
    (s.reaches m 0x00B048 → exec (.evtLostclr m v) s = .next (if v.getLsbD 0 then s.modRing m fun r => { r with evtLost := 0 } else s)) ∧
    (s.reaches m 0x009068 → exec (.rngErrclr m v) s = .next (if v.getLsbD 0
      then s.modRing m fun r => { r with dbIgnored := 0, badEntry := 0, dmaErr := 0, errQid := 0, errSq := false, errReason := 0 } else s)) ∧
    (s.reaches m 0x001048 → ∃ t, exec (.pwrSeenClear m v) s = .next t ∧ Frame [.power] s t ∧ t.power = { s.power with seen := t.power.seen } ∧
      ∀ i, i < 21 → t.power.seen.getLsbD i = (s.power.seen.getLsbD i && !v.getLsbD i)) ∧
    (s.barOpen m = true →
      (off % 4 ≠ 0 → exec (.registerWrite m off v) s = exec (.bar0BadAccess m off) s) ∧
      (off % 4 = 0 → s.mapped off = false → exec (.registerWrite m off v) s = .next (s.modView m fun x => { x with unmapped := satInc x.unmapped })) ∧
      (s.mapped 0x009040 = true → exec (.registerWrite m 0x009040 v) s =
        (if v.getLsbD 0 then exec (.ringEnable m) s else exec (.ringDisable m) s)) ∧
      (s.mapped 0x00C060 = true → exec (.registerWrite m 0x00C060 v) s = exec (.mwdToken m v) s) ∧
      (s.mapped 0x007060 = true → v.getLsbD 0 = true → v.getLsbD 1 = false → exec (.registerWrite m 0x007060 v) s = exec (.tmpClear m) s) ∧
      (s.mapped (chanPage n 0 + 0x060) = true → field v.toNat 2 0 = 1 →
        exec (.registerWrite m (chanPage n 0 + 0x060) v) s = exec (.ctlOrderHold m n none) s) ∧
      (s.mapped 0x009000 = true → (s.ring m).en = true → ∀ o ∈ [0x048, 0x04C, 0x050, 0x054, 0x058], ∀ p, fin? 1024 9 = some p →
        ∃ t, exec (.registerWrite m (0x009000 + o) v) s = .next t ∧ ignoredAt t o p) ∧
      (∀ o g, sregOf o = some g → s.mapped (chanPage n 1 + o) = true → ∃ t, exec (.registerWrite m (chanPage n 1 + o) v) s = .next t ∧
        Frame [.stn] s t ∧ (∀ k, k ≠ n → t.st k = s.st k) ∧ (t.st n).tbl = (s.st n).tbl ∧
        (t.st n).shadow.get m.other = (s.st n).shadow.get m.other ∧ ((t.st n).shadow.get m).tbl.get g = g.clean v ∧
        (∀ h, h ≠ g → ((t.st n).shadow.get m).tbl.get h = ((s.st n).shadow.get m).tbl.get h) ∧ o ∈ ((t.st n).shadow.get m).marks) ∧
      (s.mapped 0x000000 = true → ∀ o, 0x040 ≤ o → o < 4096 → o % 4 = 0 → o ≠ 0x064 → ∀ p, fin? 1024 0 = some p →
        ∃ t, exec (.registerWrite m o v) s = .next t ∧ ignoredAt t o p))

/-! ## Power, reset and clocks -/

/-- Supplies, resets and STANDBY (R299-R302, R304, R305, R310, R311). -/
def Obligations.SuppliesResetsAndStandbyAct : Prop :=
  ∀ (s : State) (rail : Fin 21) (lowNs : Nat) (n : Fin 128) (m : Mgr) (cause : WakeCause),
    let cold := fun (t : State) (why : Nat) =>
      t.dev.state = .por ∧ t.dev.resetCause.toNat = why ∧ t.dev.warm = 0 ∧ t.now = 0 ∧ t.dev.startCount = s.dev.startCount ∧ t.pending = s.pending ∧
      (∀ k, (t.ch k).state = .off ∧ (t.ch k).sink = true ∧ (t.ch k).bound = none) ∧ (∀ m, (t.ring m).en = false ∧ (t.ring m).sqs = []) ∧
      (∀ i, t.dirE i = State.reset.dirE i) ∧ t.mwd = State.reset.mwd ∧ t.tamper = { Tamper.reset with ledger := s.tamper.ledger } ∧
      (∀ k, (t.pl k).table = (s.pl k).table ∧ (t.wd k).ledger = (s.wd k).ledger ∧ (t.st k).overlay = (s.st k).overlay) ∧ t.mins = s.mins ∧
      t.cfgImg = s.cfgImg ∧ t.polLedger = s.polLedger ∧ t.polMin = s.polMin ∧ t.otp.normal = s.otp.normal ∧ t.otp.strict = s.otp.strict ∧
      t.pool.objs = s.pool.objs ∧ t.keys.vault = s.keys.vault
    (s.dev.state ≠ .por → ∀ r ∈ [none, some rail], ∃ t, exec (.supplyWarn r) s = .next t ∧ Frame [.power, .rings] s t ∧ t.power.inhibit = true ∧
      (r = none → t.power.pwrWarn = true) ∧ (r = some rail → t.power.warn.getLsbD rail.1 = true ∧ t.power.seen.getLsbD rail.1 = true) ∧
      t.power.warns = (if s.power.inhibit then s.power.warns else satInc s.power.warns)) ∧
    (s.power.inhibit = true → ∃ t, exec .supplyOk s = .next t ∧ t.power = { s.power with inhibit := false, pwrWarn := false, warn := 0 }) ∧
    (s.dev.state ≠ .por → ∃ t, exec (.brownout rail) s = .next t ∧ cold t 2 ∧ t.power.brownRail = some rail.1) ∧
    (∃ t, exec (.resetPin lowNs) s = .next t ∧ if 10000 ≤ lowNs then cold t 1 else t = s) ∧
    (s.chanOn n = true → (s.ch n).released = true → ∃ t, exec (.outputOvercurrent n) s = .next t ∧ Frame [.ports] s t ∧
      (t.port n).cutEnd = some (s.now + 10000000) ∧ (∀ op, ¬t.hears n op) ∧ ∀ k, k ≠ n → t.port k = s.port k) ∧
    (∀ e, (s.port n).cutEnd = some e → ∃ t, exec (.overcurrentHoldoffEnd n) s = .next t ∧ Frame [.now, .ports] s t ∧ t.now = max s.now e ∧
      t.port n = { s.port n with cutEnd := none }) ∧
    (∃ t, exec .sysPgoodLow s = .next t ∧ t.power = { s.power with sysPgood := false } ∧
      (if s.dev.state = .running then t.dev.state = .standby ∧ ∀ k, (s.ch k).released = true →
         (t.ch k).state = .held ∧ (t.ch k).kind = .standby ∧ (t.ch k).standbyRun = true ∧ (t.ch k).holdWait = !(s.ch k).sink
       else Frame [.power] s t)) ∧
    (s.dev.state = .running → s.power.sysPgood = false → s.deviceInFlight = 0 → ∃ t, exec .standbyReturn s = .next t ∧ t.dev.state = .standby ∧
      t.now = max s.now (max s.dev.idleSince s.dev.runSince + 1000000000)) ∧
    (s.dev.state = .standby → ∃ t, exec (.standbyWake cause) s = .next t ∧ t.dev.state = .running ∧ t.dev.runSince = t.now ∧
      t.now = (if cause = .stbyLimit then max s.now (s.dev.standbySince + s.dcfg.stbyS * 1000000000) else s.now) ∧
      (cause = .sysPgood → t.power.sysPgood = true) ∧
      (s.mgrOn m = true → (s.view m).linkUp = false → cause ≠ .doorbell → (t.view m).wake = true) ∧
      (cause = .doorbell → (t.view m).wake = (s.view m).wake))

/-- The device start, links and clocks (R124, R207, R244, R277, R307, R309, R311). -/
def Obligations.DeviceStartStepsAndLinksAct : Prop :=
  ∀ (s : State) (rep : StartReport) (m : Mgr) (speed : BitVec 3) (width : BitVec 4) (reg : CfgReg) (write : Option Word),
    (s.dev.state = .por → s.dev.clockHeld = false → ∃ t, exec .porRelease s = .next t ∧ t.dev.state = .shadow ∧ t.clk.refclk = true ∧
      t.clk.fabric = true ∧ t.clk.mem = true ∧ t.clk.pool = true) ∧
    (s.dev.clockHeld = true ∨ s.dev.state ∈ [DevState.por, .deviceRecovery, .running, .safeHold, .standby] →
      exec (.deviceStart rep) s = .next s) ∧
    (s.dev.clockHeld = false → s.dev.state = .shadow → let u := s.runShadow rep.tamper;
      exec (.deviceStart rep) s = exec (.deviceStart rep) u ∧ u.dev.state = .rom ∧ u.part = partOf (u.otp.shadowAt 0) ∧
        (∀ r : Fin 6, vget u.otp.regions r = s.otp.regionAt r.1) ∧ u.otp.normal = s.otp.normal ∧ u.otp.strict = s.otp.strict) ∧
    (s.dev.clockHeld = false → s.dev.state = .rom → s.inhibited = false → s.checkLedgerKey.fwReadTable.fwSelect.2 = none →
      ∃ t, exec (.deviceStart rep) s = .next t ∧ t.dev.state = .deviceRecovery ∧ t.plat.failOn = true ∧ ∀ n, (t.ch n).sink = true) ∧
    (s.dev.clockHeld = false → s.dev.state = .start → s.dev.ccAbsent = true → exec (.deviceStart rep) s = .next s) ∧
    (s.dev.clockHeld = false → s.dev.state = .start → s.dev.ccAbsent = false → ∃ t, exec (.deviceStart rep) s = .next t ∧
      (if s.drbg.keyState ≠ 1 ∧ rep.entropyOk = false then t.dev.state = .start ∧ t.drbg.keyState = 2 ∧ t.ctl = s.ctl ∧ t.imm = s.imm
       else t.drbg.keyState = 1 ∧ t.pol = s.polLedger ∧
         if popCount rep.imgChannels < 7 ∨ s.dev.safeLatch = true ∨ (s.otp.region? 4 = .failed ∧ s.otp.lifecycle ≠ 0) ∨ s.otp.lifecycle = 3 then
           t.dev.state = .safeHold ∧ t.plat.failOn = true
         else t.dev.state = (if s.power.sysPgood then .running else .standby) ∧ t.dev.runSince = s.now)) ∧
    (s.mgrOn m = true → ∃ t, exec (.linkUp m speed width) s = .next t ∧ Frame [.clk, .views] s t ∧ (t.view m).linkUp = true ∧
      (t.view m).linkSpeed = speed ∧ (t.view m).linkWidth = width ∧ (t.view m).wake = false ∧ t.clk.pcie.get m = true ∧
      (t.view m).retrains = (if (s.view m).linkUp then satInc (s.view m).retrains else (s.view m).retrains) ∧ t.view m.other = s.view m.other) ∧
    ((s.view m).linkUp = true → ∃ t, exec (.linkDown m) s = .next t ∧ Frame [.clk, .views] s t ∧ (t.view m).linkUp = false ∧
      t.clk.pcie.get m = false ∧ t.view m.other = s.view m.other) ∧
    (s.clk.pool = true → ∃ t, exec .poolPllUnlock s = .next t ∧ t.clk.pool = false ∧ ∀ k, (vget t.pool.chans k).state ≠ 2) ∧
    (s.mgrOn m = true → ∃ t, exec (.configurationRequest ⟨m, reg, write⟩) s = .next t ∧ Frame [.views] s t ∧ t.view m.other = s.view m.other ∧
      ((t.view m).cfgRetry = true ↔ s.dev.cold = true ∧ s.dev.state ∈ [DevState.por, .shadow, .rom]) ∧
      (let normal := (t.view m).cfgRetry = false
       (write = none → (t.view m).cfg = (s.view m).cfg ∧ (normal → (t.view m).cfgValue = (s.view m).cfg.read reg)) ∧
       (∀ v, write = some v → normal →
         (reg = .commandStatus → (t.view m).cfg.master = (v.getLsbD 2 && !(s.view m).cfg.d3) ∧
           (t.view m).cfg.memory = (v.getLsbD 1 && !(s.view m).cfg.d3)) ∧
         (reg = .msixControl → (t.view m).cfg.msixEn = v.getLsbD 15 ∧ (t.view m).cfg.msixMask = v.getLsbD 14) ∧
         (reg ∈ [CfgReg.id, .msixTable, .msixPba] → (t.view m).cfg = (s.view m).cfg))))
end

