-- ==== Sys2Proof/Laws/Frame.lean ====
section
/-! SUPPORT. Frames: reflexive, composing along a run of operations, kept by folds; and one lemma for each set of parts that
some operation replaces in one record update. -/

namespace Sys2Proof.Machine


theorem Field.sub_refl (a : List Field) : Field.sub a a = true := by
  simp [Field.sub, List.all_eq_true]

theorem Field.sub_trans {a b c : List Field} (h : Field.sub a b = true) (h' : Field.sub b c = true) : Field.sub a c = true := by
  simp only [Field.sub, List.all_eq_true] at *
  intro x hx
  exact h' x (by simpa using h x hx)

theorem Frame.refl (fs : List Field) (s : State) : Frame fs s s := by
  intro f _; cases f <;> rfl

theorem Frame.comp {a b : List Field} {s t u : State} (h : Frame b s t) (h' : Frame a t u) (hs : Field.sub a b = true) :
    Frame b s u := by
  intro f hf
  have h1 := h f hf
  have h2 := h' f (fun hc => hf (by simpa [Field.sub] using List.all_eq_true.mp hs f hc))
  cases f <;> exact Eq.trans h2 h1

theorem Frame.foldl {α : Type} {fs : List Field} {s₀ s : State} {l : List α} {g : State → α → State} (h₀ : Frame fs s₀ s)
    (h : ∀ s x, Frame fs s (g s x)) : Frame fs s₀ (l.foldl g s) := by
  induction l generalizing s with
  | nil => exact h₀
  | cons x l ih => exact ih (Frame.comp h₀ (h s x) (Field.sub_refl _))

theorem Frame.foldl_fst {α β : Type} {fs : List Field} {s₀ : State} {a : State × β} {l : List α} {g : State × β → α → State × β} (h₀ : Frame fs s₀ a.1)
    (h : ∀ a x, Frame fs a.1 (g a x).1) : Frame fs s₀ (l.foldl g a).1 := by
  induction l generalizing a with
  | nil => exact h₀
  | cons x l ih => exact ih (Frame.comp h₀ (h a x) (Field.sub_refl _))

theorem Frame.put_arb {fs : List Field} {s b : State} {v0} (h : Frame fs s b) (h0 : .arb ∈ fs) :
    Frame fs s { b with arb := v0 } := by
  intro f hf; cases f <;> first | exact h _ hf | exact absurd (by assumption) hf

theorem Frame.put_areas {fs : List Field} {s b : State} {v0} (h : Frame fs s b) (h0 : .areas ∈ fs) :
    Frame fs s { b with areas := v0 } := by
  intro f hf; cases f <;> first | exact h _ hf | exact absurd (by assumption) hf

theorem Frame.put_att {fs : List Field} {s b : State} {v0} (h : Frame fs s b) (h0 : .att ∈ fs) :
    Frame fs s { b with att := v0 } := by
  intro f hf; cases f <;> first | exact h _ hf | exact absurd (by assumption) hf

theorem Frame.put_awaits {fs : List Field} {s b : State} {v0} (h : Frame fs s b) (h0 : .awaits ∈ fs) :
    Frame fs s { b with awaits := v0 } := by
  intro f hf; cases f <;> first | exact h _ hf | exact absurd (by assumption) hf

theorem Frame.put_burin {fs : List Field} {s b : State} {v0} (h : Frame fs s b) (h0 : .burin ∈ fs) :
    Frame fs s { b with burin := v0 } := by
  intro f hf; cases f <;> first | exact h _ hf | exact absurd (by assumption) hf

theorem Frame.put_clk {fs : List Field} {s b : State} {v0} (h : Frame fs s b) (h0 : .clk ∈ fs) :
    Frame fs s { b with clk := v0 } := by
  intro f hf; cases f <;> first | exact h _ hf | exact absurd (by assumption) hf

theorem Frame.put_ctl {fs : List Field} {s b : State} {v0} (h : Frame fs s b) (h0 : .ctl ∈ fs) :
    Frame fs s { b with ctl := v0 } := by
  intro f hf; cases f <;> first | exact h _ hf | exact absurd (by assumption) hf

theorem Frame.put_dev {fs : List Field} {s b : State} {v0} (h : Frame fs s b) (h0 : .dev ∈ fs) :
    Frame fs s { b with dev := v0 } := by
  intro f hf; cases f <;> first | exact h _ hf | exact absurd (by assumption) hf

theorem Frame.put_devfw {fs : List Field} {s b : State} {v0} (h : Frame fs s b) (h0 : .devfw ∈ fs) :
    Frame fs s { b with devfw := v0 } := by
  intro f hf; cases f <;> first | exact h _ hf | exact absurd (by assumption) hf

theorem Frame.put_drawn {fs : List Field} {s b : State} {v0} (h : Frame fs s b) (h0 : .drawn ∈ fs) :
    Frame fs s { b with drawn := v0 } := by
  intro f hf; cases f <;> first | exact h _ hf | exact absurd (by assumption) hf

theorem Frame.put_drbg {fs : List Field} {s b : State} {v0} (h : Frame fs s b) (h0 : .drbg ∈ fs) :
    Frame fs s { b with drbg := v0 } := by
  intro f hf; cases f <;> first | exact h _ hf | exact absurd (by assumption) hf

theorem Frame.put_farm {fs : List Field} {s b : State} {v0} (h : Frame fs s b) (h0 : .farm ∈ fs) :
    Frame fs s { b with farm := v0 } := by
  intro f hf; cases f <;> first | exact h _ hf | exact absurd (by assumption) hf

theorem Frame.put_fca {fs : List Field} {s b : State} {v0} (h : Frame fs s b) (h0 : .fca ∈ fs) :
    Frame fs s { b with fca := v0 } := by
  intro f hf; cases f <;> first | exact h _ hf | exact absurd (by assumption) hf

theorem Frame.put_fps {fs : List Field} {s b : State} {v0} (h : Frame fs s b) (h0 : .fps ∈ fs) :
    Frame fs s { b with fps := v0 } := by
  intro f hf; cases f <;> first | exact h _ hf | exact absurd (by assumption) hf

theorem Frame.put_hash {fs : List Field} {s b : State} {v0} (h : Frame fs s b) (h0 : .hash ∈ fs) :
    Frame fs s { b with hash := v0 } := by
  intro f hf; cases f <;> first | exact h _ hf | exact absurd (by assumption) hf

theorem Frame.put_hdrs {fs : List Field} {s b : State} {v0} (h : Frame fs s b) (h0 : .hdrs ∈ fs) :
    Frame fs s { b with hdrs := v0 } := by
  intro f hf; cases f <;> first | exact h _ hf | exact absurd (by assumption) hf

theorem Frame.put_i3c {fs : List Field} {s b : State} {v0} (h : Frame fs s b) (h0 : .i3c ∈ fs) :
    Frame fs s { b with i3c := v0 } := by
  intro f hf; cases f <;> first | exact h _ hf | exact absurd (by assumption) hf

theorem Frame.put_imm {fs : List Field} {s b : State} {v0} (h : Frame fs s b) (h0 : .imm ∈ fs) :
    Frame fs s { b with imm := v0 } := by
  intro f hf; cases f <;> first | exact h _ hf | exact absurd (by assumption) hf

theorem Frame.put_intw {fs : List Field} {s b : State} {v0} (h : Frame fs s b) (h0 : .intw ∈ fs) :
    Frame fs s { b with intw := v0 } := by
  intro f hf; cases f <;> first | exact h _ hf | exact absurd (by assumption) hf

theorem Frame.put_keys {fs : List Field} {s b : State} {v0} (h : Frame fs s b) (h0 : .keys ∈ fs) :
    Frame fs s { b with keys := v0 } := by
  intro f hf; cases f <;> first | exact h _ hf | exact absurd (by assumption) hf

theorem Frame.put_led {fs : List Field} {s b : State} {v0} (h : Frame fs s b) (h0 : .led ∈ fs) :
    Frame fs s { b with led := v0 } := by
  intro f hf; cases f <;> first | exact h _ hf | exact absurd (by assumption) hf

theorem Frame.put_mbx {fs : List Field} {s b : State} {v0} (h : Frame fs s b) (h0 : .mbx ∈ fs) :
    Frame fs s { b with mbx := v0 } := by
  intro f hf; cases f <;> first | exact h _ hf | exact absurd (by assumption) hf

theorem Frame.put_mins {fs : List Field} {s b : State} {v0} (h : Frame fs s b) (h0 : .mins ∈ fs) :
    Frame fs s { b with mins := v0 } := by
  intro f hf; cases f <;> first | exact h _ hf | exact absurd (by assumption) hf

theorem Frame.put_mwd {fs : List Field} {s b : State} {v0} (h : Frame fs s b) (h0 : .mwd ∈ fs) :
    Frame fs s { b with mwd := v0 } := by
  intro f hf; cases f <;> first | exact h _ hf | exact absurd (by assumption) hf

theorem Frame.put_now {fs : List Field} {s b : State} {v0} (h : Frame fs s b) (h0 : .now ∈ fs) :
    Frame fs s { b with now := v0 } := by
  intro f hf; cases f <;> first | exact h _ hf | exact absurd (by assumption) hf

theorem Frame.put_otp {fs : List Field} {s b : State} {v0} (h : Frame fs s b) (h0 : .otp ∈ fs) :
    Frame fs s { b with otp := v0 } := by
  intro f hf; cases f <;> first | exact h _ hf | exact absurd (by assumption) hf

theorem Frame.put_pending {fs : List Field} {s b : State} {v0} (h : Frame fs s b) (h0 : .pending ∈ fs) :
    Frame fs s { b with pending := v0 } := by
  intro f hf; cases f <;> first | exact h _ hf | exact absurd (by assumption) hf

theorem Frame.put_plat {fs : List Field} {s b : State} {v0} (h : Frame fs s b) (h0 : .plat ∈ fs) :
    Frame fs s { b with plat := v0 } := by
  intro f hf; cases f <;> first | exact h _ hf | exact absurd (by assumption) hf

theorem Frame.put_plt {fs : List Field} {s b : State} {v0} (h : Frame fs s b) (h0 : .plt ∈ fs) :
    Frame fs s { b with plt := v0 } := by
  intro f hf; cases f <;> first | exact h _ hf | exact absurd (by assumption) hf

theorem Frame.put_pol {fs : List Field} {s b : State} {v0} (h : Frame fs s b) (h0 : .pol ∈ fs) :
    Frame fs s { b with pol := v0 } := by
  intro f hf; cases f <;> first | exact h _ hf | exact absurd (by assumption) hf

theorem Frame.put_pool {fs : List Field} {s b : State} {v0} (h : Frame fs s b) (h0 : .pool ∈ fs) :
    Frame fs s { b with pool := v0 } := by
  intro f hf; cases f <;> first | exact h _ hf | exact absurd (by assumption) hf

theorem Frame.put_ports {fs : List Field} {s b : State} {v0} (h : Frame fs s b) (h0 : .ports ∈ fs) :
    Frame fs s { b with ports := v0 } := by
  intro f hf; cases f <;> first | exact h _ hf | exact absurd (by assumption) hf

theorem Frame.put_power {fs : List Field} {s b : State} {v0} (h : Frame fs s b) (h0 : .power ∈ fs) :
    Frame fs s { b with power := v0 } := by
  intro f hf; cases f <;> first | exact h _ hf | exact absurd (by assumption) hf

theorem Frame.put_prof {fs : List Field} {s b : State} {v0} (h : Frame fs s b) (h0 : .prof ∈ fs) :
    Frame fs s { b with prof := v0 } := by
  intro f hf; cases f <;> first | exact h _ hf | exact absurd (by assumption) hf

theorem Frame.put_rings {fs : List Field} {s b : State} {v0} (h : Frame fs s b) (h0 : .rings ∈ fs) :
    Frame fs s { b with rings := v0 } := by
  intro f hf; cases f <;> first | exact h _ hf | exact absurd (by assumption) hf

theorem Frame.put_spdm {fs : List Field} {s b : State} {v0} (h : Frame fs s b) (h0 : .spdm ∈ fs) :
    Frame fs s { b with spdm := v0 } := by
  intro f hf; cases f <;> first | exact h _ hf | exact absurd (by assumption) hf

theorem Frame.put_stn {fs : List Field} {s b : State} {v0} (h : Frame fs s b) (h0 : .stn ∈ fs) :
    Frame fs s { b with stn := v0 } := by
  intro f hf; cases f <;> first | exact h _ hf | exact absurd (by assumption) hf

theorem Frame.put_tamper {fs : List Field} {s b : State} {v0} (h : Frame fs s b) (h0 : .tamper ∈ fs) :
    Frame fs s { b with tamper := v0 } := by
  intro f hf; cases f <;> first | exact h _ hf | exact absurd (by assumption) hf

theorem Frame.put_trace {fs : List Field} {s b : State} {v0} (h : Frame fs s b) (h0 : .trace ∈ fs) :
    Frame fs s { b with trace := v0 } := by
  intro f hf; cases f <;> first | exact h _ hf | exact absurd (by assumption) hf

theorem Frame.put_twl {fs : List Field} {s b : State} {v0} (h : Frame fs s b) (h0 : .twl ∈ fs) :
    Frame fs s { b with twl := v0 } := by
  intro f hf; cases f <;> first | exact h _ hf | exact absurd (by assumption) hf

theorem Frame.put_views {fs : List Field} {s b : State} {v0} (h : Frame fs s b) (h0 : .views ∈ fs) :
    Frame fs s { b with views := v0 } := by
  intro f hf; cases f <;> first | exact h _ hf | exact absurd (by assumption) hf

theorem Frame.put_wdg {fs : List Field} {s b : State} {v0} (h : Frame fs s b) (h0 : .wdg ∈ fs) :
    Frame fs s { b with wdg := v0 } := by
  intro f hf; cases f <;> first | exact h _ hf | exact absurd (by assumption) hf

theorem Frame.put_att_keys {fs : List Field} {s b : State} {v0 v1} (h : Frame fs s b) (h0 : .att ∈ fs) (h1 : .keys ∈ fs) :
    Frame fs s { b with att := v0, keys := v1 } := by
  intro f hf; cases f <;> first | exact h _ hf | exact absurd (by assumption) hf

theorem Frame.put_cfgImg_dev {fs : List Field} {s b : State} {v0 v1} (h : Frame fs s b) (h0 : .cfgImg ∈ fs) (h1 : .dev ∈ fs) :
    Frame fs s { b with cfgImg := v0, dev := v1 } := by
  intro f hf; cases f <;> first | exact h _ hf | exact absurd (by assumption) hf

theorem Frame.put_devfw_dev {fs : List Field} {s b : State} {v0 v1} (h : Frame fs s b) (h0 : .devfw ∈ fs) (h1 : .dev ∈ fs) :
    Frame fs s { b with devfw := v0, dev := v1 } := by
  intro f hf; cases f <;> first | exact h _ hf | exact absurd (by assumption) hf

theorem Frame.put_devfw_led {fs : List Field} {s b : State} {v0 v1} (h : Frame fs s b) (h0 : .devfw ∈ fs) (h1 : .led ∈ fs) :
    Frame fs s { b with devfw := v0, led := v1 } := by
  intro f hf; cases f <;> first | exact h _ hf | exact absurd (by assumption) hf

theorem Frame.put_drbg_drawn {fs : List Field} {s b : State} {v0 v1} (h : Frame fs s b) (h0 : .drbg ∈ fs) (h1 : .drawn ∈ fs) :
    Frame fs s { b with drbg := v0, drawn := v1 } := by
  intro f hf; cases f <;> first | exact h _ hf | exact absurd (by assumption) hf

theorem Frame.put_imm_drawn {fs : List Field} {s b : State} {v0 v1} (h : Frame fs s b) (h0 : .imm ∈ fs) (h1 : .drawn ∈ fs) :
    Frame fs s { b with imm := v0, drawn := v1 } := by
  intro f hf; cases f <;> first | exact h _ hf | exact absurd (by assumption) hf

theorem Frame.put_intw_otp {fs : List Field} {s b : State} {v0 v1} (h : Frame fs s b) (h0 : .intw ∈ fs) (h1 : .otp ∈ fs) :
    Frame fs s { b with intw := v0, otp := v1 } := by
  intro f hf; cases f <;> first | exact h _ hf | exact absurd (by assumption) hf

theorem Frame.put_keys_dev {fs : List Field} {s b : State} {v0 v1} (h : Frame fs s b) (h0 : .keys ∈ fs) (h1 : .dev ∈ fs) :
    Frame fs s { b with keys := v0, dev := v1 } := by
  intro f hf; cases f <;> first | exact h _ hf | exact absurd (by assumption) hf

theorem Frame.put_plat_dev {fs : List Field} {s b : State} {v0 v1} (h : Frame fs s b) (h0 : .plat ∈ fs) (h1 : .dev ∈ fs) :
    Frame fs s { b with plat := v0, dev := v1 } := by
  intro f hf; cases f <;> first | exact h _ hf | exact absurd (by assumption) hf

theorem Frame.put_plt_devfw {fs : List Field} {s b : State} {v0 v1} (h : Frame fs s b) (h0 : .plt ∈ fs) (h1 : .devfw ∈ fs) :
    Frame fs s { b with plt := v0, devfw := v1 } := by
  intro f hf; cases f <;> first | exact h _ hf | exact absurd (by assumption) hf

theorem Frame.put_pool_led {fs : List Field} {s b : State} {v0 v1} (h : Frame fs s b) (h0 : .pool ∈ fs) (h1 : .led ∈ fs) :
    Frame fs s { b with pool := v0, led := v1 } := by
  intro f hf; cases f <;> first | exact h _ hf | exact absurd (by assumption) hf

theorem Frame.put_prof_dcfg {fs : List Field} {s b : State} {v0 v1} (h : Frame fs s b) (h0 : .prof ∈ fs) (h1 : .dcfg ∈ fs) :
    Frame fs s { b with prof := v0, dcfg := v1 } := by
  intro f hf; cases f <;> first | exact h _ hf | exact absurd (by assumption) hf

theorem Frame.put_prof_profCfg {fs : List Field} {s b : State} {v0 v1} (h : Frame fs s b) (h0 : .prof ∈ fs) (h1 : .profCfg ∈ fs) :
    Frame fs s { b with prof := v0, profCfg := v1 } := by
  intro f hf; cases f <;> first | exact h _ hf | exact absurd (by assumption) hf

theorem Frame.put_stn_pol {fs : List Field} {s b : State} {v0 v1} (h : Frame fs s b) (h0 : .stn ∈ fs) (h1 : .pol ∈ fs) :
    Frame fs s { b with stn := v0, pol := v1 } := by
  intro f hf; cases f <;> first | exact h _ hf | exact absurd (by assumption) hf

theorem Frame.put_wdg_dev {fs : List Field} {s b : State} {v0 v1} (h : Frame fs s b) (h0 : .wdg ∈ fs) (h1 : .dev ∈ fs) :
    Frame fs s { b with wdg := v0, dev := v1 } := by
  intro f hf; cases f <;> first | exact h _ hf | exact absurd (by assumption) hf

theorem Frame.put_burin_otp_dev {fs : List Field} {s b : State} {v0 v1 v2} (h : Frame fs s b) (h0 : .burin ∈ fs) (h1 : .otp ∈ fs) (h2 : .dev ∈ fs) :
    Frame fs s { b with burin := v0, otp := v1, dev := v2 } := by
  intro f hf; cases f <;> first | exact h _ hf | exact absurd (by assumption) hf

theorem Frame.put_devfw_att_otp {fs : List Field} {s b : State} {v0 v1 v2} (h : Frame fs s b) (h0 : .devfw ∈ fs) (h1 : .att ∈ fs) (h2 : .otp ∈ fs) :
    Frame fs s { b with devfw := v0, att := v1, otp := v2 } := by
  intro f hf; cases f <;> first | exact h _ hf | exact absurd (by assumption) hf

theorem Frame.put_otp_part_clk {fs : List Field} {s b : State} {v0 v1 v2} (h : Frame fs s b) (h0 : .otp ∈ fs) (h1 : .part ∈ fs) (h2 : .clk ∈ fs) :
    Frame fs s { b with otp := v0, part := v1, clk := v2 } := by
  intro f hf; cases f <;> first | exact h _ hf | exact absurd (by assumption) hf

theorem Frame.put_tamper_led_dev {fs : List Field} {s b : State} {v0 v1 v2} (h : Frame fs s b) (h0 : .tamper ∈ fs) (h1 : .led ∈ fs) (h2 : .dev ∈ fs) :
    Frame fs s { b with tamper := v0, led := v1, dev := v2 } := by
  intro f hf; cases f <;> first | exact h _ hf | exact absurd (by assumption) hf

theorem Frame.put_dcfg_imm_farm_pool {fs : List Field} {s b : State} {v0 v1 v2 v3}
    (h : Frame fs s b) (h0 : .dcfg ∈ fs) (h1 : .imm ∈ fs) (h2 : .farm ∈ fs) (h3 : .pool ∈ fs) :
    Frame fs s { b with dcfg := v0, imm := v1, farm := v2, pool := v3 } := by
  intro f hf; cases f <;> first | exact h _ hf | exact absurd (by assumption) hf

theorem Frame.put_stn_ctl_plat_hdrs {fs : List Field} {s b : State} {v0 v1 v2 v3}
    (h : Frame fs s b) (h0 : .stn ∈ fs) (h1 : .ctl ∈ fs) (h2 : .plat ∈ fs) (h3 : .hdrs ∈ fs) :
    Frame fs s { b with stn := v0, ctl := v1, plat := v2, hdrs := v3 } := by
  intro f hf; cases f <;> first | exact h _ hf | exact absurd (by assumption) hf

theorem Frame.put_stn_polLedger_polMin_tamperPol {fs : List Field} {s b : State} {v0 v1 v2 v3}
    (h : Frame fs s b) (h0 : .stn ∈ fs) (h1 : .polLedger ∈ fs) (h2 : .polMin ∈ fs) (h3 : .tamperPol ∈ fs) :
    Frame fs s { b with stn := v0, polLedger := v1, polMin := v2, tamperPol := v3 } := by
  intro f hf; cases f <;> first | exact h _ hf | exact absurd (by assumption) hf

theorem Frame.put_mbx_areas_imm_fca_hash {fs : List Field} {s b : State} {v0 v1 v2 v3 v4}
    (h : Frame fs s b) (h0 : .mbx ∈ fs) (h1 : .areas ∈ fs) (h2 : .imm ∈ fs) (h3 : .fca ∈ fs) (h4 : .hash ∈ fs) :
    Frame fs s { b with mbx := v0, areas := v1, imm := v2, fca := v3, hash := v4 } := by
  intro f hf; cases f <;> first | exact h _ hf | exact absurd (by assumption) hf

theorem Frame.put_prof_profCfg_twl_poolProf_dev {fs : List Field} {s b : State} {v0 v1 v2 v3 v4}
    (h : Frame fs s b) (h0 : .prof ∈ fs) (h1 : .profCfg ∈ fs) (h2 : .twl ∈ fs) (h3 : .poolProf ∈ fs) (h4 : .dev ∈ fs) :
    Frame fs s { b with prof := v0, profCfg := v1, twl := v2, poolProf := v3, dev := v4 } := by
  intro f hf; cases f <;> first | exact h _ hf | exact absurd (by assumption) hf

theorem Frame.put_wdg_imm_att_keys_dev {fs : List Field} {s b : State} {v0 v1 v2 v3 v4}
    (h : Frame fs s b) (h0 : .wdg ∈ fs) (h1 : .imm ∈ fs) (h2 : .att ∈ fs) (h3 : .keys ∈ fs) (h4 : .dev ∈ fs) :
    Frame fs s { b with wdg := v0, imm := v1, att := v2, keys := v3, dev := v4 } := by
  intro f hf; cases f <;> first | exact h _ hf | exact absurd (by assumption) hf

theorem Frame.put_stn_plt_wdg_polLedger_polMin_tamperPol_cfgImg_mins_devfw_intw_trace_att_keys_tamper {fs : List Field} {s b : State} {v0 v1
    v2 v3 v4 v5 v6 v7 v8 v9 v10 v11 v12 v13}
    (h : Frame fs s b) (h0 : .stn ∈ fs) (h1 : .plt ∈ fs) (h2 : .wdg ∈ fs) (h3 : .polLedger ∈ fs) (h4 : .polMin ∈ fs) (h5 : .tamperPol ∈
    fs) (h6 : .cfgImg ∈ fs) (h7 : .mins ∈ fs) (h8 : .devfw ∈ fs) (h9 : .intw ∈ fs) (h10 : .trace ∈ fs) (h11 : .att ∈ fs) (h12 : .keys ∈
    fs) (h13 : .tamper ∈ fs) :
    Frame fs s { b with
        stn := v0
        plt := v1
        wdg := v2
        polLedger := v3
        polMin := v4
        tamperPol := v5
        cfgImg := v6
        mins := v7
        devfw := v8
        intw := v9
        trace := v10
        att := v11
        keys := v12
        tamper := v13 } := by
  intro f hf; cases f <;> first | exact h _ hf | exact absurd (by assumption) hf

theorem Frame.put_stn_ctl_plt_wdg_areas_pool_devfw_intw_trace_att_views_keys_tamper_otp_power_led_dev {fs : List Field} {s b : State} {v0 v1
    v2 v3 v4 v5 v6 v7 v8 v9 v10 v11 v12 v13 v14 v15 v16}
    (h : Frame fs s b) (h0 : .stn ∈ fs) (h1 : .ctl ∈ fs) (h2 : .plt ∈ fs) (h3 : .wdg ∈ fs) (h4 : .areas ∈ fs) (h5 : .pool ∈ fs) (h6 :
    .devfw ∈ fs) (h7 : .intw ∈ fs) (h8 : .trace ∈ fs) (h9 : .att ∈ fs) (h10 : .views ∈ fs) (h11 : .keys ∈ fs) (h12 : .tamper ∈ fs) (h13
    : .otp ∈ fs) (h14 : .power ∈ fs) (h15 : .led ∈ fs) (h16 : .dev ∈ fs) :
    Frame fs s { b with
        stn := v0
        ctl := v1
        plt := v2
        wdg := v3
        areas := v4
        pool := v5
        devfw := v6
        intw := v7
        trace := v8
        att := v9
        views := v10
        keys := v11
        tamper := v12
        otp := v13
        power := v14
        led := v15
        dev := v16 } := by
  intro f hf; cases f <;> first | exact h _ hf | exact absurd (by assumption) hf

theorem
    Frame.put_ports_mbx_stn_plt_wdg_areas_fps_imm_fca_farm_pool_devfw_plat_intw_trace_att_rings_views_hdrs_burin_hash_drbg_keys_tamper_otp_power_led_dev
    {fs : List Field} {s b : State} {v0 v1 v2 v3 v4 v5 v6 v7 v8 v9 v10 v11 v12 v13 v14 v15 v16 v17 v18 v19 v20 v21 v22 v23 v24 v25 v26 v27}
    (h : Frame fs s b) (h0 : .ports ∈ fs) (h1 : .mbx ∈ fs) (h2 : .stn ∈ fs) (h3 : .plt ∈ fs) (h4 : .wdg ∈ fs) (h5 : .areas ∈ fs) (h6 :
    .fps ∈ fs) (h7 : .imm ∈ fs) (h8 : .fca ∈ fs) (h9 : .farm ∈ fs) (h10 : .pool ∈ fs) (h11 : .devfw ∈ fs) (h12 : .plat ∈ fs) (h13 :
    .intw ∈ fs) (h14 : .trace ∈ fs) (h15 : .att ∈ fs) (h16 : .rings ∈ fs) (h17 : .views ∈ fs) (h18 : .hdrs ∈ fs) (h19 : .burin ∈ fs)
    (h20 : .hash ∈ fs) (h21 : .drbg ∈ fs) (h22 : .keys ∈ fs) (h23 : .tamper ∈ fs) (h24 : .otp ∈ fs) (h25 : .power ∈ fs) (h26 : .led ∈
    fs) (h27 : .dev ∈ fs) :
    Frame fs s { b with
        ports := v0
        mbx := v1
        stn := v2
        plt := v3
        wdg := v4
        areas := v5
        fps := v6
        imm := v7
        fca := v8
        farm := v9
        pool := v10
        devfw := v11
        plat := v12
        intw := v13
        trace := v14
        att := v15
        rings := v16
        views := v17
        hdrs := v18
        burin := v19
        hash := v20
        drbg := v21
        keys := v22
        tamper := v23
        otp := v24
        power := v25
        led := v26
        dev := v27 } := by
  intro f hf; cases f <;> first | exact h _ hf | exact absurd (by assumption) hf

end Sys2Proof.Machine
end

