-- ==== Sys2Proof/Laws/FramesHost.lean ====
section
/-! SUPPORT. What each shared operation can change: host ports, mailboxes, Stencils, plates, impressions and watchdogs.
`X_frame` says that the operation X changes nothing but the parts in its list; it is stated from any earlier state, so that frames
compose by application. -/

namespace Sys2Proof.Machine

theorem State.forAll_frame {α : Type} {L : List Field} {s₀ s : State} {f : α → State → State} {l : List α} (h₀ : Frame L s₀ s) (h : ∀ x s, Frame L s (f x s)) :
    Frame L s₀ (s.forAll l f) := Frame.foldl h₀ fun s x => h x s

theorem State.pushTrace_frame {fs : List Field} {s₀ : State} {s : State} {e : TraceEvt}
    (h : Frame fs s₀ s) (hs : Field.sub [.trace] fs = true) :
    Frame fs s₀ (State.pushTrace s e) := by
  refine Frame.comp h ?_ hs
  clear h hs
  unfold State.pushTrace
  (try dsimp -proj only)
  repeat' (with_reducible first
    | apply Frame.refl | decide | intro _ | split | apply Frame.put_trace)

theorem State.log_frame {fs : List Field} {s₀ : State} {s : State} {type : Nat} {ch : Nat} {info : List Nat}
    (h : Frame fs s₀ s) (hs : Field.sub [.trace] fs = true) :
    Frame fs s₀ (State.log s type ch info) := by
  refine Frame.comp h ?_ hs
  clear h hs
  unfold State.log
  (try dsimp -proj only)
  repeat' (with_reducible first
    | apply Frame.refl | apply State.pushTrace_frame | decide | intro _ | split)

theorem State.flushSummaries_frame {fs : List Field} {s₀ : State} {s : State} (h : Frame fs s₀ s) (hs : Field.sub [.trace] fs = true) :
    Frame fs s₀ (State.flushSummaries s) := by
  refine Frame.comp h ?_ hs
  clear h hs
  unfold State.flushSummaries
  (try dsimp -proj only)
  repeat' (with_reducible first
    | apply Frame.refl | apply State.forAll_frame | apply State.log_frame | decide | intro _ | split
    | apply Frame.put_trace)

theorem State.pass_frame {fs : List Field} {s₀ : State} {s : State} {ns : Nat} (h : Frame fs s₀ s) (hs : Field.sub [.now] fs = true) :
    Frame fs s₀ (State.pass s ns) := by
  refine Frame.comp h ?_ hs
  clear h hs
  unfold State.pass
  (try dsimp -proj only)
  repeat' (with_reducible first
    | apply Frame.refl | decide | intro _ | split | apply Frame.put_now)

theorem State.tick_frame {fs : List Field} {s₀ : State} {s : State} (h : Frame fs s₀ s) (hs : Field.sub [.now, .trace] fs = true) :
    Frame fs s₀ (State.tick s) := by
  refine Frame.comp h ?_ hs
  clear h hs
  unfold State.tick
  (try dsimp -proj only)
  repeat' (with_reducible first
    | apply Frame.refl | apply State.flushSummaries_frame | apply State.pass_frame | decide | intro _ | split)

theorem State.until_frame {fs : List Field} {s₀ : State} {s : State} {t1 : Nat} (h : Frame fs s₀ s) (hs : Field.sub [.now] fs = true) :
    Frame fs s₀ (State.until s t1) := by
  refine Frame.comp h ?_ hs
  clear h hs
  unfold State.until
  (try dsimp -proj only)
  repeat' (with_reducible first
    | apply Frame.refl | decide | intro _ | split | apply Frame.put_now)

theorem State.modPlt_frame {fs : List Field} {s₀ : State} {s : State} {n : Fin 128} {f : PlateSt → PlateSt}
    (h : Frame fs s₀ s) (hs : Field.sub [.plt] fs = true) :
    Frame fs s₀ (State.modPlt s n f) := by
  refine Frame.comp h ?_ hs
  clear h hs
  unfold State.modPlt
  (try dsimp -proj only)
  repeat' (with_reducible first
    | apply Frame.refl | decide | intro _ | split | apply Frame.put_plt)

theorem State.raise_frame {fs : List Field} {s₀ : State} {s : State} {code : Nat} {ch : Nat} {data : List Nat}
    (h : Frame fs s₀ s) (hs : Field.sub [.rings] fs = true) :
    Frame fs s₀ (State.raise s code ch data) := by
  refine Frame.comp h ?_ hs
  clear h hs
  unfold State.raise
  (try dsimp -proj only)
  repeat' (with_reducible first
    | apply Frame.refl | decide | intro _ | split | apply Frame.put_rings)

theorem State.modMbx_frame {fs : List Field} {s₀ : State} {s : State} {n : Fin 128} {f : Mailbox → Mailbox}
    (h : Frame fs s₀ s) (hs : Field.sub [.mbx] fs = true) :
    Frame fs s₀ (State.modMbx s n f) := by
  refine Frame.comp h ?_ hs
  clear h hs
  unfold State.modMbx
  (try dsimp -proj only)
  repeat' (with_reducible first
    | apply Frame.refl | decide | intro _ | split | apply Frame.put_mbx)

theorem State.modStn_frame {fs : List Field} {s₀ : State} {s : State} {n : Fin 128} {f : Stencil → Stencil}
    (h : Frame fs s₀ s) (hs : Field.sub [.stn] fs = true) :
    Frame fs s₀ (State.modStn s n f) := by
  refine Frame.comp h ?_ hs
  clear h hs
  unfold State.modStn
  (try dsimp -proj only)
  repeat' (with_reducible first
    | apply Frame.refl | decide | intro _ | split | apply Frame.put_stn)

theorem State.logMeas_frame {fs : List Field} {s₀ : State} {s : State} {type : Nat} {ch : Nat} {i : Nat} {info : List Nat} {v : Digest}
    (h : Frame fs s₀ s) (hs : Field.sub [.trace] fs = true) :
    Frame fs s₀ (State.logMeas s type ch i info v) := by
  refine Frame.comp h ?_ hs
  clear h hs
  unfold State.logMeas
  (try dsimp -proj only)
  repeat' (with_reducible first
    | apply Frame.refl | apply State.pushTrace_frame | decide | intro _ | split)

theorem State.extend_frame {fs : List Field} {s₀ : State} {s : State} {n : Fin 128} {i : Fin 8} {type : Nat} {info : List Nat} {v : Digest}
    (h : Frame fs s₀ s) (hs : Field.sub [.mbx, .trace] fs = true) :
    Frame fs s₀ (State.extend s n i type info v) := by
  refine Frame.comp h ?_ hs
  clear h hs
  unfold State.extend
  (try dsimp -proj only)
  repeat' (with_reducible first
    | apply Frame.refl | apply State.logMeas_frame | apply State.modMbx_frame | decide | intro _ | split)

theorem State.committed_frame {fs : List Field} {s₀ : State} {s : State} (h : Frame fs s₀ s) (hs : Field.sub [.led] fs = true) :
    Frame fs s₀ (State.committed s) := by
  refine Frame.comp h ?_ hs
  clear h hs
  unfold State.committed
  (try dsimp -proj only)
  repeat' (with_reducible first
    | apply Frame.refl | decide | intro _ | split | apply Frame.put_led)

theorem State.modWdg_frame {fs : List Field} {s₀ : State} {s : State} {n : Fin 128} {f : Wdg → Wdg}
    (h : Frame fs s₀ s) (hs : Field.sub [.wdg] fs = true) :
    Frame fs s₀ (State.modWdg s n f) := by
  refine Frame.comp h ?_ hs
  clear h hs
  unfold State.modWdg
  (try dsimp -proj only)
  repeat' (with_reducible first
    | apply Frame.refl | decide | intro _ | split | apply Frame.put_wdg)

theorem State.modPort_frame {fs : List Field} {s₀ : State} {s : State} {n : Fin 128} {f : HostPort → HostPort}
    (h : Frame fs s₀ s) (hs : Field.sub [.ports] fs = true) :
    Frame fs s₀ (State.modPort s n f) := by
  refine Frame.comp h ?_ hs
  clear h hs
  unfold State.modPort
  (try dsimp -proj only)
  repeat' (with_reducible first
    | apply Frame.refl | decide | intro _ | split | apply Frame.put_ports)

theorem State.modCtl_frame {fs : List Field} {s₀ : State} {s : State} {n : Fin 128} {f : Ctl → Ctl}
    (h : Frame fs s₀ s) (hs : Field.sub [.ctl] fs = true) :
    Frame fs s₀ (State.modCtl s n f) := by
  refine Frame.comp h ?_ hs
  clear h hs
  unfold State.modCtl
  (try dsimp -proj only)
  repeat' (with_reducible first
    | apply Frame.refl | decide | intro _ | split | apply Frame.put_ctl)

theorem State.modRing_frame {fs : List Field} {s₀ : State} {s : State} {m : Mgr} {f : Ring → Ring}
    (h : Frame fs s₀ s) (hs : Field.sub [.rings] fs = true) :
    Frame fs s₀ (State.modRing s m f) := by
  refine Frame.comp h ?_ hs
  clear h hs
  unfold State.modRing
  (try dsimp -proj only)
  repeat' (with_reducible first
    | apply Frame.refl | decide | intro _ | split | apply Frame.put_rings)

theorem State.modView_frame {fs : List Field} {s₀ : State} {s : State} {m : Mgr} {f : View → View}
    (h : Frame fs s₀ s) (hs : Field.sub [.views] fs = true) :
    Frame fs s₀ (State.modView s m f) := by
  refine Frame.comp h ?_ hs
  clear h hs
  unfold State.modView
  (try dsimp -proj only)
  repeat' (with_reducible first
    | apply Frame.refl | decide | intro _ | split | apply Frame.put_views)

theorem State.modEp_frame {fs : List Field} {s₀ : State} {s : State} {e : Fin 8} {f : Endpoint → Endpoint}
    (h : Frame fs s₀ s) (hs : Field.sub [.spdm] fs = true) :
    Frame fs s₀ (State.modEp s e f) := by
  refine Frame.comp h ?_ hs
  clear h hs
  unfold State.modEp
  (try dsimp -proj only)
  repeat' (with_reducible first
    | apply Frame.refl | decide | intro _ | split | apply Frame.put_spdm)

theorem State.forChans_frame {L : List Field} {s₀ s : State} {f : Fin 128 → State → State} (h₀ : Frame L s₀ s) (h : ∀ n s, Frame L s (f n s)) :
    Frame L s₀ (s.forChans f) := Frame.foldl h₀ fun s x => h x s

theorem State.modDir_frame {fs : List Field} {s₀ : State} {s : State} {i : Fin 256} {f : Impression → Impression}
    (h : Frame fs s₀ s) (hs : Field.sub [.imm] fs = true) :
    Frame fs s₀ (State.modDir s i f) := by
  refine Frame.comp h ?_ hs
  clear h hs
  unfold State.modDir
  (try dsimp -proj only)
  repeat' (with_reducible first
    | apply Frame.refl | decide | intro _ | split | apply Frame.put_imm)

theorem State.drawGeneral_frame {fs : List Field} {s₀ : State} {s : State} {k1 : optParam Nat 1}
    (h : Frame fs s₀ s) (hs : Field.sub [.drbg, .drawn] fs = true) :
    Frame fs s₀ (State.drawGeneral s k1) := by
  refine Frame.comp h ?_ hs
  clear h hs
  unfold State.drawGeneral
  (try dsimp -proj only)
  repeat' (with_reducible first
    | apply Frame.refl | decide | intro _ | split | apply Frame.put_drbg_drawn)

theorem State.drawChallenge_frame {fs : List Field} {s₀ : State} {s : State}
    (h : Frame fs s₀ s) (hs : Field.sub [.drbg, .drawn] fs = true) :
    Frame fs s₀ (State.drawChallenge s).2 := by
  refine Frame.comp h ?_ hs
  clear h hs
  unfold State.drawChallenge
  (try dsimp -proj only)
  repeat' (with_reducible first
    | apply Frame.refl | apply State.drawGeneral_frame | decide | intro _ | split)

theorem State.modFp_frame {fs : List Field} {s₀ : State} {s : State} {n : Fin 64} {f : FlashPort → FlashPort}
    (h : Frame fs s₀ s) (hs : Field.sub [.fps] fs = true) :
    Frame fs s₀ (State.modFp s n f) := by
  refine Frame.comp h ?_ hs
  clear h hs
  unfold State.modFp
  (try dsimp -proj only)
  repeat' (with_reducible first
    | apply Frame.refl | decide | intro _ | split | apply Frame.put_fps)

theorem State.summary_frame {fs : List Field} {s₀ : State} {s : State} {type : Nat} {ch : Nat}
    (h : Frame fs s₀ s) (hs : Field.sub [.trace] fs = true) :
    Frame fs s₀ (State.summary s type ch) := by
  refine Frame.comp h ?_ hs
  clear h hs
  unfold State.summary
  (try dsimp -proj only)
  repeat' (with_reducible first
    | apply Frame.refl | apply State.flushSummaries_frame | decide | intro _ | split | apply Frame.put_trace)

theorem State.modAreas_frame {fs : List Field} {s₀ : State} {s : State} {n : Fin 128} {f : Areas → Areas}
    (h : Frame fs s₀ s) (hs : Field.sub [.areas] fs = true) :
    Frame fs s₀ (State.modAreas s n f) := by
  refine Frame.comp h ?_ hs
  clear h hs
  unfold State.modAreas
  (try dsimp -proj only)
  repeat' (with_reducible first
    | apply Frame.refl | decide | intro _ | split | apply Frame.put_areas)

theorem State.modCore_frame {fs : List Field} {s₀ : State} {s : State} {k1 : Fin 4} {f : Core → Core}
    (h : Frame fs s₀ s) (hs : Field.sub [.burin] fs = true) :
    Frame fs s₀ (State.modCore s k1 f) := by
  refine Frame.comp h ?_ hs
  clear h hs
  unfold State.modCore
  (try dsimp -proj only)
  repeat' (with_reducible first
    | apply Frame.refl | decide | intro _ | split | apply Frame.put_burin)

theorem State.modSlot_frame {fs : List Field} {s₀ : State} {s : State} {k1 : Fin 256} {f : KeySlot → KeySlot}
    (h : Frame fs s₀ s) (hs : Field.sub [.keys] fs = true) :
    Frame fs s₀ (State.modSlot s k1 f) := by
  refine Frame.comp h ?_ hs
  clear h hs
  unfold State.modSlot
  (try dsimp -proj only)
  repeat' (with_reducible first
    | apply Frame.refl | decide | intro _ | split | apply Frame.put_keys)

theorem State.modHash_frame {fs : List Field} {s₀ : State} {s : State} {m : Mgr} {f : HashWork → HashWork}
    (h : Frame fs s₀ s) (hs : Field.sub [.hash] fs = true) :
    Frame fs s₀ (State.modHash s m f) := by
  refine Frame.comp h ?_ hs
  clear h hs
  unfold State.modHash
  (try dsimp -proj only)
  repeat' (with_reducible first
    | apply Frame.refl | decide | intro _ | split | apply Frame.put_hash)

theorem State.modI3c_frame {fs : List Field} {s₀ : State} {s : State} {p : Fin 4} {f : I3cPort → I3cPort}
    (h : Frame fs s₀ s) (hs : Field.sub [.i3c] fs = true) :
    Frame fs s₀ (State.modI3c s p f) := by
  refine Frame.comp h ?_ hs
  clear h hs
  unfold State.modI3c
  (try dsimp -proj only)
  repeat' (with_reducible first
    | apply Frame.refl | decide | intro _ | split | apply Frame.put_i3c)

theorem State.internalRun_frame {fs : List Field} {s₀ : State} {s : State} {time : Nat}
    (h : Frame fs s₀ s) (hs : Field.sub [.burin] fs = true) :
    Frame fs s₀ (State.internalRun s time) := by
  refine Frame.comp h ?_ hs
  clear h hs
  unfold State.internalRun
  (try dsimp -proj only)
  repeat' (with_reducible first
    | apply Frame.refl | apply State.modCore_frame | decide | intro _ | split)

theorem State.setDev_frame {fs : List Field} {s₀ : State} {s : State} {d : DevState}
    (h : Frame fs s₀ s) (hs : Field.sub [.trace, .rings, .dev] fs = true) :
    Frame fs s₀ (State.setDev s d) := by
  refine Frame.comp h ?_ hs
  clear h hs
  unfold State.setDev
  (try dsimp -proj only)
  repeat' (with_reducible first
    | apply Frame.refl | apply State.log_frame | apply State.raise_frame | decide | intro _ | split | apply Frame.put_dev)

theorem State.msix_frame {fs : List Field} {s₀ : State} {s : State} {m : Mgr} {vec : Nat}
    (h : Frame fs s₀ s) (hs : Field.sub [.views] fs = true) :
    Frame fs s₀ (State.msix s m vec) := by
  refine Frame.comp h ?_ hs
  clear h hs
  unfold State.msix
  (try dsimp -proj only)
  repeat' (with_reducible first
    | apply Frame.refl | apply State.modView_frame | decide | intro _ | split)

theorem State.modHdr_frame {fs : List Field} {s₀ : State} {s : State} {m : Mgr} {page : Fin 1024} {f : Hdr → Hdr}
    (h : Frame fs s₀ s) (hs : Field.sub [.views, .hdrs] fs = true) :
    Frame fs s₀ (State.modHdr s m page f) := by
  refine Frame.comp h ?_ hs
  clear h hs
  unfold State.modHdr
  (try dsimp -proj only)
  repeat' (with_reducible first
    | apply Frame.refl | apply State.msix_frame | decide | intro _ | split | apply Frame.put_hdrs)

theorem State.ignoredWrite_frame {fs : List Field} {s₀ : State} {s : State} {m : Mgr} {off : Nat}
    (h : Frame fs s₀ s) (hs : Field.sub [.views, .hdrs] fs = true) :
    Frame fs s₀ (State.ignoredWrite s m off) := by
  refine Frame.comp h ?_ hs
  clear h hs
  unfold State.ignoredWrite
  (try dsimp -proj only)
  repeat' (with_reducible first
    | apply Frame.refl | apply State.modHdr_frame | decide | intro _ | split)

theorem State.draw_frame {fs : List Field} {s₀ : State} {s : State} (h : Frame fs s₀ s) (hs : Field.sub [.drawn] fs = true) :
    Frame fs s₀ (State.draw s).2 := by
  refine Frame.comp h ?_ hs
  clear h hs
  unfold State.draw
  (try dsimp -proj only)
  repeat' (with_reducible first
    | apply Frame.refl | decide | intro _ | split | apply Frame.put_drawn)

theorem State.putDevKey_frame {fs : List Field} {s₀ : State} {s : State} {k1 : DevKey} {bytes : List Byte}
    (h : Frame fs s₀ s) (hs : Field.sub [.keys] fs = true) :
    Frame fs s₀ (State.putDevKey s k1 bytes) := by
  refine Frame.comp h ?_ hs
  clear h hs
  unfold State.putDevKey
  (try dsimp -proj only)
  repeat' (with_reducible first
    | apply Frame.refl | apply State.modSlot_frame | decide | intro _ | split)

theorem State.modMwd_frame {fs : List Field} {s₀ : State} {s : State} {m : Mgr} {f : Mwd → Mwd}
    (h : Frame fs s₀ s) (hs : Field.sub [.mwd] fs = true) :
    Frame fs s₀ (State.modMwd s m f) := by
  refine Frame.comp h ?_ hs
  clear h hs
  unfold State.modMwd
  (try dsimp -proj only)
  repeat' (with_reducible first
    | apply Frame.refl | decide | intro _ | split | apply Frame.put_mwd)

theorem State.modAttView_frame {fs : List Field} {s₀ : State} {s : State} {m : Mgr} {f : AttView → AttView}
    (h : Frame fs s₀ s) (hs : Field.sub [.att] fs = true) :
    Frame fs s₀ (State.modAttView s m f) := by
  refine Frame.comp h ?_ hs
  clear h hs
  unfold State.modAttView
  (try dsimp -proj only)
  repeat' (with_reducible first
    | apply Frame.refl | decide | intro _ | split | apply Frame.put_att)

theorem State.modPool_frame {fs : List Field} {s₀ : State} {s : State} {k1 : Fin 16} {f : PoolChan → PoolChan}
    (h : Frame fs s₀ s) (hs : Field.sub [.pool] fs = true) :
    Frame fs s₀ (State.modPool s k1 f) := by
  refine Frame.comp h ?_ hs
  clear h hs
  unfold State.modPool
  (try dsimp -proj only)
  repeat' (with_reducible first
    | apply Frame.refl | decide | intro _ | split | apply Frame.put_pool)

theorem State.lockDevKey_frame {fs : List Field} {s₀ : State} {s : State} {k1 : DevKey}
    (h : Frame fs s₀ s) (hs : Field.sub [.keys] fs = true) :
    Frame fs s₀ (State.lockDevKey s k1) := by
  refine Frame.comp h ?_ hs
  clear h hs
  unfold State.lockDevKey
  (try dsimp -proj only)
  repeat' (with_reducible first
    | apply Frame.refl | apply State.modSlot_frame | decide | intro _ | split)

theorem State.dmaFailed_frame {fs : List Field} {s₀ : State} {s : State} {m : Mgr} {kind : BitVec 3} {addr : DWord}
    (h : Frame fs s₀ s) (hs : Field.sub [.views] fs = true) :
    Frame fs s₀ (State.dmaFailed s m kind addr) := by
  refine Frame.comp h ?_ hs
  clear h hs
  unfold State.dmaFailed
  (try dsimp -proj only)
  repeat' (with_reducible first
    | apply Frame.refl | apply State.modView_frame | decide | intro _ | split)

theorem State.ringDmaFailed_frame {fs : List Field} {s₀ : State} {s : State} {m : Mgr} {kind : BitVec 3} {addr : DWord}
    (h : Frame fs s₀ s) (hs : Field.sub [.rings, .views] fs = true) :
    Frame fs s₀ (State.ringDmaFailed s m kind addr) := by
  refine Frame.comp h ?_ hs
  clear h hs
  unfold State.ringDmaFailed
  (try dsimp -proj only)
  repeat' (with_reducible first
    | apply Frame.refl | apply State.modRing_frame | apply State.dmaFailed_frame | decide | intro _ | split)

theorem State.queueFault_frame {fs : List Field} {s₀ : State} {s : State} {m : Mgr} {q : Byte} {sq : Bool}
    (h : Frame fs s₀ s) (hs : Field.sub [.rings] fs = true) :
    Frame fs s₀ (State.queueFault s m q sq) := by
  refine Frame.comp h ?_ hs
  clear h hs
  unfold State.queueFault
  (try dsimp -proj only)
  repeat' (with_reducible first
    | apply Frame.refl | apply State.modRing_frame | apply State.raise_frame | decide | intro _ | split)

theorem State.post_frame {fs : List Field} {s₀ : State} {s : State} {src : Src} {st : Status} {info : Nat} {result : List Byte} {more : Bool}
    (h : Frame fs s₀ s) (hs : Field.sub [.rings, .views] fs = true) :
    Frame fs s₀ (State.post s src st info result more) := by
  refine Frame.comp h ?_ hs
  clear h hs
  unfold State.post
  (try dsimp -proj only)
  repeat' (with_reducible first
    | apply Frame.refl | apply State.ringDmaFailed_frame | apply State.modRing_frame | apply State.modView_frame
    | apply State.queueFault_frame | decide | intro _ | split)

theorem State.reapSq_frame {fs : List Field} {s₀ : State} {s : State} {m : Mgr} {qid : Nat}
    (h : Frame fs s₀ s) (hs : Field.sub [.rings, .views, .awaits] fs = true) :
    Frame fs s₀ (State.reapSq s m qid) := by
  refine Frame.comp h ?_ hs
  clear h hs
  unfold State.reapSq
  (try dsimp -proj only)
  repeat' (with_reducible first
    | apply Frame.refl | apply State.modRing_frame | apply State.post_frame | decide | intro _ | split
    | apply Frame.put_awaits)

theorem State.finish_frame {fs : List Field} {s₀ : State} {s : State} {src : Src} {st : Status} {info : optParam Nat 0} {result : optParam (List Byte) []} {more : optParam Bool Bool.false}
    (h : Frame fs s₀ s) (hs : Field.sub [.rings, .views, .awaits, .dev] fs = true) :
    Frame fs s₀ (State.finish s src st info result more) := by
  refine Frame.comp h ?_ hs
  clear h hs
  unfold State.finish
  (try dsimp -proj only)
  repeat' (with_reducible first
    | apply Frame.refl | apply State.reapSq_frame | apply State.post_frame | decide | intro _ | split
    | apply Frame.put_dev)

theorem State.mctpReply_frame {fs : List Field} {s₀ : State} {s : State} {e : Fin 8} {r : OvdelReply}
    (h : Frame fs s₀ s) (hs : Field.sub [.spdm] fs = true) :
    Frame fs s₀ (State.mctpReply s e r) := by
  refine Frame.comp h ?_ hs
  clear h hs
  unfold State.mctpReply
  (try dsimp -proj only)
  repeat' (with_reducible first
    | apply Frame.refl | apply State.modEp_frame | decide | intro _ | split)

theorem State.answer_frame {fs : List Field} {s₀ : State} {s : State} {who : Asker} {n : Fin 128} {st : Status} {info : optParam Nat 0} {result : optParam (List Byte) []}
    (h : Frame fs s₀ s) (hs : Field.sub [.ctl, .spdm, .rings, .views, .awaits, .dev] fs = true) :
    Frame fs s₀ (State.answer s who n st info result) := by
  refine Frame.comp h ?_ hs
  clear h hs
  unfold State.answer
  (try dsimp -proj only)
  repeat' (with_reducible first
    | apply Frame.refl | apply State.finish_frame | apply State.mctpReply_frame | apply State.modCtl_frame | decide
    | intro _ | split)

theorem State.answerAll_frame {fs : List Field} {s₀ : State} {s : State} {n : Fin 128} {k2 : AwaitKind → Bool} {st : Status} {info : Nat} {result : List Byte}
    (h : Frame fs s₀ s) (hs : Field.sub [.ctl, .spdm, .rings, .views, .awaits, .dev] fs = true) :
    Frame fs s₀ (State.answerAll s n k2 st info result) := by
  refine Frame.comp h ?_ hs
  clear h hs
  unfold State.answerAll
  (try dsimp -proj only)
  repeat' (with_reducible first
    | apply Frame.refl | apply State.forAll_frame | apply State.answer_frame | decide | intro _ | split
    | apply Frame.put_awaits)

theorem State.toBuffer_frame {fs : List Field} {s₀ : State} {s : State} {src : Src} {data : List Byte}
    (h : Frame fs s₀ s) (hs : Field.sub [.views] fs = true) :
    Frame fs s₀ (State.toBuffer s src data) := by
  refine Frame.comp h ?_ hs
  clear h hs
  unfold State.toBuffer
  (try dsimp -proj only)
  repeat' (with_reducible first
    | apply Frame.refl | apply State.modView_frame | decide | intro _ | split)

theorem State.wait_frame {fs : List Field} {s₀ : State} {s : State} {who : Asker} {n : Fin 128} {k3 : AwaitKind}
    (h : Frame fs s₀ s) (hs : Field.sub [.awaits] fs = true) :
    Frame fs s₀ (State.wait s who n k3) := by
  refine Frame.comp h ?_ hs
  clear h hs
  unfold State.wait
  (try dsimp -proj only)
  repeat' (with_reducible first
    | apply Frame.refl | decide | intro _ | split | apply Frame.put_awaits)

theorem State.countUnmapped_frame {fs : List Field} {s₀ : State} {s : State} {m : Mgr}
    (h : Frame fs s₀ s) (hs : Field.sub [.views] fs = true) :
    Frame fs s₀ (State.countUnmapped s m) := by
  refine Frame.comp h ?_ hs
  clear h hs
  unfold State.countUnmapped
  (try dsimp -proj only)
  repeat' (with_reducible first
    | apply Frame.refl | apply State.modView_frame | decide | intro _ | split)

theorem State.regW_frame {fs : List Field} {s : State} {m : Mgr} {off : Nat} {body : State → State} {s₀ : State} (h₀ : Frame fs s₀ s) (hs : Field.sub [.views] fs = true)
    (h : ∀ s, Frame fs s (body s)) :
    Frame fs s₀ (State.regW s m off body) := by
  refine Frame.comp h₀ ?_ (Field.sub_refl _)
  unfold State.regW
  (try dsimp -proj only)
  repeat' (with_reducible first
    | apply Frame.refl | assumption | apply h | (refine Field.sub_trans ?_ hs; decide) | apply State.countUnmapped_frame
    | split | intro _)

theorem State.closeCdi_frame {fs : List Field} {s₀ : State} {s : State} {n : Fin 128}
    (h : Frame fs s₀ s) (hs : Field.sub [.mbx] fs = true) :
    Frame fs s₀ (State.closeCdi s n) := by
  refine Frame.comp h ?_ hs
  clear h hs
  unfold State.closeCdi
  (try dsimp -proj only)
  repeat' (with_reducible first
    | apply Frame.refl | apply State.modMbx_frame | decide | intro _ | split)

theorem State.setPhase_frame {fs : List Field} {s₀ : State} {s : State} {n : Fin 128} {p : Phase}
    (h : Frame fs s₀ s) (hs : Field.sub [.mbx, .stn, .trace, .rings] fs = true) :
    Frame fs s₀ (State.setPhase s n p) := by
  refine Frame.comp h ?_ hs
  clear h hs
  unfold State.setPhase
  (try dsimp -proj only)
  repeat' (with_reducible first
    | apply Frame.refl | apply State.closeCdi_frame | apply State.modStn_frame | apply State.extend_frame
    | apply State.raise_frame | decide | intro _ | split)

theorem State.adopt_frame {fs : List Field} {s₀ : State} {s : State} {n : Fin 128} {t2 : STable}
    (h : Frame fs s₀ s) (hs : Field.sub [.mbx, .stn, .trace, .rings] fs = true) :
    Frame fs s₀ (State.adopt s n t2) := by
  refine Frame.comp h ?_ hs
  clear h hs
  unfold State.adopt
  (try dsimp -proj only)
  repeat' (with_reducible first
    | apply Frame.refl | apply State.extend_frame | apply State.modStn_frame | apply State.setPhase_frame | decide
    | intro _ | split)

theorem State.applySection_frame {fs : List Field} {s₀ : State} {s : State} {n : Fin 128}
    (h : Frame fs s₀ s) (hs : Field.sub [.mbx, .stn, .pol, .trace, .rings] fs = true) :
    Frame fs s₀ (State.applySection s n) := by
  refine Frame.comp h ?_ hs
  clear h hs
  unfold State.applySection
  (try dsimp -proj only)
  repeat' (with_reducible first
    | apply Frame.refl | apply State.modStn_frame | apply State.adopt_frame | decide | intro _ | split
    | apply Frame.put_pol)

theorem State.allocExtents_frame {fs : List Field} {s₀ : State} {s : State} {i : Fin 256} {leaves : Nat}
    (h : Frame fs s₀ s) (hs : Field.sub [.imm] fs = true) :
    Frame fs s₀ (State.allocExtents s i leaves) := by
  refine Frame.comp h ?_ hs
  clear h hs
  unfold State.allocExtents
  (try dsimp -proj only)
  repeat' (with_reducible first
    | apply Frame.refl | apply State.modDir_frame | apply Frame.foldl | apply Frame.foldl_fst | decide | intro _ | split
    | apply Frame.put_imm)

theorem State.dropLines_frame {fs : List Field} {s₀ : State} {s : State} {i : Fin 256}
    (h : Frame fs s₀ s) (hs : Field.sub [.fca] fs = true) :
    Frame fs s₀ (State.dropLines s i) := by
  refine Frame.comp h ?_ hs
  clear h hs
  unfold State.dropLines
  (try dsimp -proj only)
  repeat' (with_reducible first
    | apply Frame.refl | decide | intro _ | split | apply Frame.put_fca)

theorem State.freeEntry_frame {fs : List Field} {s₀ : State} {s : State} {i : Fin 256} {why : Nat}
    (h : Frame fs s₀ s) (hs : Field.sub [.imm, .fca, .trace] fs = true) :
    Frame fs s₀ (State.freeEntry s i why) := by
  refine Frame.comp h ?_ hs
  clear h hs
  unfold State.freeEntry
  (try dsimp -proj only)
  repeat' (with_reducible first
    | apply Frame.refl | apply State.dropLines_frame | apply State.modDir_frame | apply State.log_frame | decide | intro _
    | split)

theorem State.makeRoom_frame {fs : List Field} {s₀ s t : State} {need fuel : Nat} {i : Fin 256} (he : State.makeRoom need fuel s = some (i, t))
    (h : Frame fs s₀ s) (hs : Field.sub [.imm, .fca, .trace] fs = true) : Frame fs s₀ t := by
  induction fuel generalizing s with
  | zero => simp [State.makeRoom] at he
  | succ k ih =>
    unfold State.makeRoom at he
    split at he
    · simp only [Option.some.injEq, Prod.mk.injEq] at he; obtain ⟨-, rfl⟩ := he; exact h
    · split at he
      · exact ih he (State.freeEntry_frame h hs)
      · simp at he

theorem State.beginTake_frame {fs : List Field} {s₀ s t : State} {m : List Byte} {i : Fin 256} (he : State.beginTake s m = .inl (i, t))
    (h : Frame fs s₀ s) (hs : Field.sub [.imm, .fca, .trace] fs = true) : Frame fs s₀ t := by
  unfold State.beginTake at he
  split at he
  · simp at he
  · split at he
    · simp at he
    · split at he
      · simp at he
      · rename_i hm
        simp only [Sum.inl.injEq, Prod.mk.injEq] at he
        obtain ⟨-, rfl⟩ := he
        exact State.allocExtents_frame (State.modDir_frame (State.makeRoom_frame hm h hs) (Field.sub_trans (by decide) hs))
          (Field.sub_trans (by decide) hs)

theorem State.unbind_frame {fs : List Field} {s₀ : State} {s : State} {n : Fin 128}
    (h : Frame fs s₀ s) (hs : Field.sub [.ctl, .imm] fs = true) :
    Frame fs s₀ (State.unbind s n) := by
  refine Frame.comp h ?_ hs
  clear h hs
  unfold State.unbind
  (try dsimp -proj only)
  repeat' (with_reducible first
    | apply Frame.refl | apply State.modCtl_frame | apply State.modDir_frame | decide | intro _ | split)

theorem State.bind_frame {fs : List Field} {s₀ : State} {s : State} {n : Fin 128} {i : Fin 256} {p : PlateId}
    (h : Frame fs s₀ s) (hs : Field.sub [.ctl, .imm] fs = true) :
    Frame fs s₀ (State.bind s n i p) := by
  refine Frame.comp h ?_ hs
  clear h hs
  unfold State.bind
  (try dsimp -proj only)
  repeat' (with_reducible first
    | apply Frame.refl | apply State.unbind_frame | apply State.modCtl_frame | decide | intro _ | split)

theorem State.placeLine_frame {fs : List Field} {s₀ : State} {s : State} {i : Nat} {line : Nat}
    (h : Frame fs s₀ s) (hs : Field.sub [.fca] fs = true) :
    Frame fs s₀ (State.placeLine s i line) := by
  refine Frame.comp h ?_ hs
  clear h hs
  unfold State.placeLine
  (try dsimp -proj only)
  repeat' (with_reducible first
    | apply Frame.refl | decide | intro _ | split | apply Frame.put_fca)

theorem State.touchLine_frame {fs : List Field} {s₀ : State} {s : State} {i : Nat} {line : Nat}
    (h : Frame fs s₀ s) (hs : Field.sub [.fca] fs = true) :
    Frame fs s₀ (State.touchLine s i line) := by
  refine Frame.comp h ?_ hs
  clear h hs
  unfold State.touchLine
  (try dsimp -proj only)
  repeat' (with_reducible first
    | apply Frame.refl | apply State.placeLine_frame | decide | intro _ | split | apply Frame.put_fca)

theorem State.verifyFailed_frame {fs : List Field} {s₀ : State} {s : State} {n : Nat} {st : Status} {plate : Nat} {man : List Byte} {leaf : Nat}
    (h : Frame fs s₀ s) (hs : Field.sub [.trace, .rings] fs = true) :
    Frame fs s₀ (State.verifyFailed s n st plate man leaf) := by
  refine Frame.comp h ?_ hs
  clear h hs
  unfold State.verifyFailed
  (try dsimp -proj only)
  repeat' (with_reducible first
    | apply Frame.refl | apply State.raise_frame | apply State.log_frame | decide | intro _ | split)

theorem State.commitTable_frame {fs : List Field} {s₀ : State} {s : State} {n : Fin 128} {t2 : PTable} {cause : Nat}
    (h : Frame fs s₀ s) (hs : Field.sub [.plt, .trace, .rings, .led] fs = true) :
    Frame fs s₀ (State.commitTable s n t2 cause) := by
  refine Frame.comp h ?_ hs
  clear h hs
  unfold State.commitTable
  (try dsimp -proj only)
  repeat' (with_reducible first
    | apply Frame.refl | apply State.modPlt_frame | apply State.committed_frame | apply State.forAll_frame
    | apply State.log_frame | apply State.raise_frame | decide | intro _ | split)

theorem State.commitPlates_frame {fs : List Field} {s₀ : State} {s : State} {n : Fin 128} {t2 : PTable} {cause : Nat}
    (h : Frame fs s₀ s) (hs : Field.sub [.plt, .trace, .rings, .led] fs = true) :
    Frame fs s₀ (State.commitPlates s n t2 cause) := by
  refine Frame.comp h ?_ hs
  clear h hs
  unfold State.commitPlates
  (try dsimp -proj only)
  repeat' (with_reducible first
    | apply Frame.refl | apply State.commitTable_frame | decide | intro _ | split)

theorem State.transition_frame {fs : List Field} {s₀ : State} {s : State} {n : Fin 128} {st : ChState} {cause : Cause}
    (h : Frame fs s₀ s) (hs : Field.sub [.ctl, .trace, .rings] fs = true) :
    Frame fs s₀ (State.transition s n st cause) := by
  refine Frame.comp h ?_ hs
  clear h hs
  unfold State.transition
  (try dsimp -proj only)
  repeat' (with_reducible first
    | apply Frame.refl | apply State.log_frame | apply State.modCtl_frame | apply State.raise_frame | decide | intro _
    | split)

theorem State.commitMin_frame {fs : List Field} {s₀ : State} {s : State} {fam : List Byte} {v : Word}
    (h : Frame fs s₀ s) (hs : Field.sub [.mins, .trace, .led] fs = true) :
    Frame fs s₀ (State.commitMin s fam v) := by
  refine Frame.comp h ?_ hs
  clear h hs
  unfold State.commitMin
  (try dsimp -proj only)
  repeat' (with_reducible first
    | apply Frame.refl | apply State.committed_frame | apply State.log_frame | decide | intro _ | split
    | apply Frame.put_mins)

theorem State.completeAdvances_frame {fs : List Field} {s₀ : State} {s : State}
    (h : Frame fs s₀ s) (hs : Field.sub [.mins, .trace, .led] fs = true) :
    Frame fs s₀ (State.completeAdvances s) := by
  refine Frame.comp h ?_ hs
  clear h hs
  unfold State.completeAdvances
  (try dsimp -proj only)
  repeat' (with_reducible first
    | apply Frame.refl | apply State.forChans_frame | apply State.forAll_frame | apply State.commitMin_frame | decide
    | intro _ | split)

theorem State.selNote_frame {fs : List Field} {s₀ : State} {s : State} {n : Fin 128} {w : SelWait} {p : PlateId} {r : Chk} {loud : Bool}
    (h : Frame fs s₀ s) (hs : Field.sub [.trace, .rings] fs = true) :
    Frame fs s₀ (State.selNote s n w p r loud).1 := by
  refine Frame.comp h ?_ hs
  clear h hs
  unfold State.selNote
  (try dsimp -proj only)
  repeat' (with_reducible first
    | apply Frame.refl | apply State.verifyFailed_frame | apply State.raise_frame | decide | intro _ | split)

theorem State.takeAndWait_frame {fs : List Field} {s₀ s : State} {man : List Byte} (h : Frame fs s₀ s)
    (hs : Field.sub [.imm, .fca, .trace] fs = true) : Frame fs s₀ (s.takeAndWait man).2 := by
  unfold State.takeAndWait
  split
  · rename_i hm; exact State.beginTake_frame hm h hs
  · exact h

theorem State.checkPair_frame {fs : List Field} {s₀ : State} {s : State} {n : Fin 128} {man : List Byte}
    (h : Frame fs s₀ s) (hs : Field.sub [.ctl, .imm, .fca, .trace] fs = true) :
    Frame fs s₀ (State.checkPair s n man).2 := by
  refine Frame.comp h ?_ hs
  clear h hs
  unfold State.checkPair
  (try dsimp -proj only)
  repeat' (with_reducible first
    | apply Frame.refl | apply State.takeAndWait_frame | apply State.modCtl_frame | apply State.freeEntry_frame | decide
    | intro _ | split)

theorem State.checkLeaves_frame {fs : List Field} {s₀ : State} {s : State} {n : Fin 128} {p : PlateId}
    (h : Frame fs s₀ s) (hs : Field.sub [.ctl, .imm, .fca, .trace] fs = true) :
    Frame fs s₀ (State.checkLeaves s n p).2 := by
  refine Frame.comp h ?_ hs
  clear h hs
  unfold State.checkLeaves
  (try dsimp -proj only)
  repeat' (with_reducible first
    | apply Frame.refl | apply State.checkPair_frame | decide | intro _ | split)

theorem State.checkPlate_frame {fs : List Field} {s₀ : State} {s : State} {n : Fin 128} {p : PlateId}
    (h : Frame fs s₀ s) (hs : Field.sub [.ctl, .imm, .fca, .trace] fs = true) :
    Frame fs s₀ (State.checkPlate s n p).2 := by
  refine Frame.comp h ?_ hs
  clear h hs
  unfold State.checkPlate
  (try dsimp -proj only)
  repeat' (with_reducible first
    | apply Frame.refl | apply State.checkLeaves_frame | decide | intro _ | split)

theorem State.enterRecoveryState_frame {fs : List Field} {s₀ : State} {s : State} {n : Fin 128}
    (h : Frame fs s₀ s) (hs : Field.sub [.mbx, .ctl, .wdg, .imm, .trace, .spdm, .rings, .views, .awaits, .dev] fs = true) :
    Frame fs s₀ (State.enterRecoveryState s n) := by
  refine Frame.comp h ?_ hs
  clear h hs
  unfold State.enterRecoveryState
  (try dsimp -proj only)
  repeat' (with_reducible first
    | apply Frame.refl | apply State.modMbx_frame | apply State.unbind_frame | apply State.transition_frame
    | apply State.raise_frame | apply State.modWdg_frame | apply State.answerAll_frame | apply State.modCtl_frame | decide
    | intro _ | split)

theorem State.beginAttempt_frame {fs : List Field} {s₀ : State} {s : State} {n : Fin 128}
    (h : Frame fs s₀ s) (hs : Field.sub [.plt, .drbg, .drawn] fs = true) :
    Frame fs s₀ (State.beginAttempt s n) := by
  refine Frame.comp h ?_ hs
  clear h hs
  unfold State.beginAttempt
  (try dsimp -proj only)
  repeat' (with_reducible first
    | apply Frame.refl | apply State.modPlt_frame | apply State.drawChallenge_frame | decide | intro _ | split)

theorem State.selEnd_frame {fs : List Field} {s₀ : State} {s : State} {n : Fin 128} {w : SelWait} {t3 : PTable} {tie : Bool} {run : Option (PlateId × Fin 256)} {attempt : Bool}
    (h : Frame fs s₀ s) (hs : Field.sub [.mbx, .ctl, .plt, .wdg, .imm, .trace, .spdm, .rings, .views, .awaits, .drbg, .drawn, .led, .dev] fs = true) :
    Frame fs s₀ (State.selEnd s n w t3 tie run attempt) := by
  refine Frame.comp h ?_ hs
  clear h hs
  unfold State.selEnd
  (try dsimp -proj only)
  repeat' (with_reducible first
    | apply Frame.refl | apply State.enterRecoveryState_frame | apply State.bind_frame | apply State.answerAll_frame
    | apply State.commitPlates_frame | apply State.beginAttempt_frame | apply State.unbind_frame
    | apply State.modCtl_frame | apply State.raise_frame | decide | intro _ | split)

theorem State.selectFrom_frame {fs : List Field} {s₀ : State} {n : Fin 128} {x : Nat} {x2 : SelWait} {x3 : State}
    (h : Frame fs s₀ x3) (hs : Field.sub [.mbx, .ctl, .plt, .wdg, .imm, .fca, .trace, .spdm, .rings, .views, .awaits, .drbg, .drawn, .led, .dev] fs = true) :
    Frame fs s₀ (State.selectFrom n x x2 x3) := by
  refine Frame.comp h ?_ hs
  clear h hs
  have key : ∀ (s₀ : State) (x2 : SelWait) (x3 : State), Frame [.mbx, .ctl, .plt, .wdg, .imm, .fca, .trace, .spdm, .rings, .views, .awaits, .drbg, .drawn, .led, .dev] s₀ x3 → Frame [.mbx, .ctl, .plt, .wdg, .imm, .fca, .trace, .spdm, .rings, .views, .awaits, .drbg, .drawn, .led, .dev] s₀ (State.selectFrom n x x2 x3) := by
    induction x with
    | zero => intro s₀ x2 x3 h; unfold State.selectFrom; exact h
    | succ k ih =>
      intro s₀ x2 x3 h; unfold State.selectFrom
      (try dsimp -proj only)
      repeat' (with_reducible first
        | assumption | apply ih | apply Frame.refl | apply State.selNote_frame | apply State.checkPlate_frame
        | apply State.modCtl_frame | apply State.selEnd_frame | decide | intro _ | split)
  exact key _ x2 x3 (Frame.refl _ _)

theorem State.select_frame {fs : List Field} {s₀ : State} {s : State} {n : Fin 128}
    (h : Frame fs s₀ s) (hs : Field.sub [.mbx, .ctl, .plt, .wdg, .imm, .fca, .mins, .trace, .spdm, .rings, .views, .awaits, .drbg, .drawn, .led, .dev] fs = true) :
    Frame fs s₀ (State.select s n) := by
  refine Frame.comp h ?_ hs
  clear h hs
  unfold State.select
  (try dsimp -proj only)
  repeat' (with_reducible first
    | apply Frame.refl | apply State.completeAdvances_frame | apply State.selectFrom_frame | apply State.modCtl_frame
    | decide | intro _ | split)

theorem State.reselect_frame {fs : List Field} {s₀ : State} {s : State} {n : Fin 128} {w : SelWait}
    (h : Frame fs s₀ s) (hs : Field.sub [.mbx, .ctl, .plt, .wdg, .imm, .fca, .trace, .spdm, .rings, .views, .awaits, .drbg, .drawn, .led, .dev] fs = true) :
    Frame fs s₀ (State.reselect s n w) := by
  refine Frame.comp h ?_ hs
  clear h hs
  unfold State.reselect
  (try dsimp -proj only)
  repeat' (with_reducible first
    | apply Frame.refl | apply State.selectFrom_frame | decide | intro _ | split)

theorem State.setSession_frame {fs : List Field} {s₀ : State} {s : State} {n : Fin 128} {session : BitVec 3} {st : Status}
    (h : Frame fs s₀ s) (hs : Field.sub [.mbx, .rings] fs = true) :
    Frame fs s₀ (State.setSession s n session st) := by
  refine Frame.comp h ?_ hs
  clear h hs
  unfold State.setSession
  (try dsimp -proj only)
  repeat' (with_reducible first
    | apply Frame.refl | apply State.modMbx_frame | apply State.raise_frame | decide | intro _ | split)

theorem State.leaveUpdate_frame {fs : List Field} {s₀ : State} {s : State} {n : Fin 128}
    (h : Frame fs s₀ s) (hs : Field.sub [.mbx, .stn, .trace, .rings] fs = true) :
    Frame fs s₀ (State.leaveUpdate s n) := by
  refine Frame.comp h ?_ hs
  clear h hs
  unfold State.leaveUpdate
  (try dsimp -proj only)
  repeat' (with_reducible first
    | apply Frame.refl | apply State.setPhase_frame | decide | intro _ | split)

theorem State.endSession_frame {fs : List Field} {s₀ : State} {s : State} {n : Fin 128} {st : Status}
    (h : Frame fs s₀ s) (hs : Field.sub [.mbx, .stn, .trace, .rings] fs = true) :
    Frame fs s₀ (State.endSession s n st) := by
  refine Frame.comp h ?_ hs
  clear h hs
  unfold State.endSession
  (try dsimp -proj only)
  repeat' (with_reducible first
    | apply Frame.refl | apply State.setSession_frame | apply State.leaveUpdate_frame | decide | intro _ | split)

theorem State.wdgStop_frame {fs : List Field} {s₀ : State} {s : State} {n : Fin 128} (h : Frame fs s₀ s) (hs : Field.sub [.wdg] fs = true) :
    Frame fs s₀ (State.wdgStop s n) := by
  refine Frame.comp h ?_ hs
  clear h hs
  unfold State.wdgStop
  (try dsimp -proj only)
  repeat' (with_reducible first
    | apply Frame.refl | apply State.modWdg_frame | decide | intro _ | split)

theorem State.stopHost_frame {fs : List Field} {s₀ : State} {s : State} {n : Fin 128}
    (h : Frame fs s₀ s) (hs : Field.sub [.ports, .stn, .ctl, .wdg, .plat] fs = true) :
    Frame fs s₀ (State.stopHost s n) := by
  refine Frame.comp h ?_ hs
  clear h hs
  unfold State.stopHost
  (try dsimp -proj only)
  repeat' (with_reducible first
    | apply Frame.refl | apply State.wdgStop_frame | apply State.modStn_frame | apply State.modPort_frame
    | apply State.modCtl_frame | decide | intro _ | split | apply Frame.put_plat)

theorem State.hold_frame {fs : List Field} {s₀ : State} {s : State} {n : Fin 128} {kind : HoldKind} {cause : Cause} {seq : Option SeqKind}
    (h : Frame fs s₀ s) (hs : Field.sub [.ports, .stn, .ctl, .wdg, .plat, .trace, .spdm, .rings, .views, .awaits, .dev] fs = true) :
    Frame fs s₀ (State.hold s n kind cause seq) := by
  refine Frame.comp h ?_ hs
  clear h hs
  unfold State.hold
  (try dsimp -proj only)
  repeat' (with_reducible first
    | apply Frame.refl | apply State.stopHost_frame | apply State.answerAll_frame | apply State.transition_frame
    | apply State.modCtl_frame | decide | intro _ | split)

theorem State.stayHeld_frame {fs : List Field} {s₀ : State} {s : State} {n : Fin 128}
    (h : Frame fs s₀ s) (hs : Field.sub [.ctl, .spdm, .rings, .views, .awaits, .dev] fs = true) :
    Frame fs s₀ (State.stayHeld s n) := by
  refine Frame.comp h ?_ hs
  clear h hs
  unfold State.stayHeld
  (try dsimp -proj only)
  repeat' (with_reducible first
    | apply Frame.refl | apply State.answerAll_frame | decide | intro _ | split)

theorem State.startTaking_frame {fs : List Field} {s₀ : State} {s : State} {n : Fin 128} {cause : Cause} {asked : Bool}
    (h : Frame fs s₀ s) (hs : Field.sub [.mbx, .ctl, .plt, .wdg, .imm, .fca, .mins, .trace, .spdm, .rings, .views, .awaits, .drbg, .drawn, .led, .dev] fs = true) :
    Frame fs s₀ (State.startTaking s n cause asked) := by
  refine Frame.comp h ?_ hs
  clear h hs
  unfold State.startTaking
  (try dsimp -proj only)
  repeat' (with_reducible first
    | apply Frame.refl | apply State.select_frame | apply State.unbind_frame | apply State.transition_frame
    | apply State.stayHeld_frame | apply State.modCtl_frame | decide | intro _ | split)

theorem State.takeKept_frame {fs : List Field} {s₀ : State} {s : State} {n : Fin 128} {cause : Cause}
    (h : Frame fs s₀ s) (hs : Field.sub [.mbx, .ctl, .plt, .wdg, .imm, .fca, .mins, .trace, .spdm, .rings, .views, .awaits, .drbg, .drawn, .led, .dev] fs = true) :
    Frame fs s₀ (State.takeKept s n cause) := by
  refine Frame.comp h ?_ hs
  clear h hs
  unfold State.takeKept
  (try dsimp -proj only)
  repeat' (with_reducible first
    | apply Frame.refl | apply State.startTaking_frame | apply State.transition_frame | apply State.modCtl_frame | decide
    | intro _ | split)

theorem State.endArming_frame {fs : List Field} {s₀ : State} {s : State} {n : Fin 128} {st : Status}
    (h : Frame fs s₀ s) (hs : Field.sub [.ctl, .plt, .spdm, .rings, .views, .awaits, .dev] fs = true) :
    Frame fs s₀ (State.endArming s n st) := by
  refine Frame.comp h ?_ hs
  clear h hs
  unfold State.endArming
  (try dsimp -proj only)
  repeat' (with_reducible first
    | apply Frame.refl | apply State.modPlt_frame | apply State.answerAll_frame | apply State.modCtl_frame | decide
    | intro _ | split)

theorem State.armFail_frame {fs : List Field} {s₀ : State} {s : State} {n : Fin 128} {st : Status}
    (h : Frame fs s₀ s) (hs : Field.sub [.mbx, .ctl, .plt, .wdg, .imm, .fca, .mins, .trace, .spdm, .rings, .views, .awaits, .drbg, .drawn, .led, .dev] fs = true) :
    Frame fs s₀ (State.armFail s n st) := by
  refine Frame.comp h ?_ hs
  clear h hs
  unfold State.armFail
  (try dsimp -proj only)
  repeat' (with_reducible first
    | apply Frame.refl | apply State.select_frame | apply State.takeKept_frame | apply State.endArming_frame | decide
    | intro _ | split)

theorem State.armCommit_frame {fs : List Field} {s₀ : State} {s : State} {n : Fin 128} {a : Arming} {i : Fin 256}
    (h : Frame fs s₀ s) (hs : Field.sub [.mbx, .ctl, .plt, .wdg, .imm, .fca, .mins, .trace, .spdm, .rings, .views, .awaits, .drbg, .drawn, .led, .dev] fs = true) :
    Frame fs s₀ (State.armCommit s n a i) := by
  refine Frame.comp h ?_ hs
  clear h hs
  unfold State.armCommit
  (try dsimp -proj only)
  repeat' (with_reducible first
    | apply Frame.refl | apply State.modPlt_frame | apply State.bind_frame | apply State.startTaking_frame
    | apply State.beginAttempt_frame | apply State.commitPlates_frame | apply State.modCtl_frame | decide | intro _
    | split)

theorem State.armJudge_frame {fs : List Field} {s₀ : State} {s : State} {n : Fin 128} {a : Arming} {r : Chk}
    (h : Frame fs s₀ s) (hs : Field.sub [.mbx, .ctl, .plt, .wdg, .imm, .fca, .mins, .trace, .spdm, .rings, .views, .awaits, .drbg, .drawn, .led, .dev] fs = true) :
    Frame fs s₀ (State.armJudge s n a r) := by
  refine Frame.comp h ?_ hs
  clear h hs
  unfold State.armJudge
  (try dsimp -proj only)
  repeat' (with_reducible first
    | apply Frame.refl | apply State.verifyFailed_frame | apply State.armFail_frame | apply State.armCommit_frame
    | apply State.raise_frame | apply State.commitPlates_frame | apply State.modCtl_frame | decide | intro _ | split
    | apply Frame.put_led)

theorem State.armStep_frame {fs : List Field} {s₀ : State} {s : State} {n : Fin 128}
    (h : Frame fs s₀ s) (hs : Field.sub [.mbx, .ctl, .plt, .wdg, .imm, .fca, .mins, .trace, .spdm, .rings, .views, .awaits, .drbg, .drawn, .led, .dev] fs = true) :
    Frame fs s₀ (State.armStep s n) := by
  refine Frame.comp h ?_ hs
  clear h hs
  unfold State.armStep
  (try dsimp -proj only)
  repeat' (with_reducible first
    | apply Frame.refl | apply State.armJudge_frame | apply State.checkPlate_frame | apply State.modCtl_frame | decide
    | intro _ | split)

theorem State.beginArm_frame {fs : List Field} {s₀ : State} {s : State} {n : Fin 128} {p : PlateId}
    (h : Frame fs s₀ s) (hs : Field.sub [.ports, .mbx, .stn, .ctl, .plt, .wdg, .imm, .fca, .mins, .plat, .trace, .spdm, .rings, .views, .awaits, .drbg, .drawn, .led, .dev] fs = true) :
    Frame fs s₀ (State.beginArm s n p) := by
  refine Frame.comp h ?_ hs
  clear h hs
  unfold State.beginArm
  (try dsimp -proj only)
  repeat' (with_reducible first
    | apply Frame.refl | apply State.modPlt_frame | apply State.hold_frame | apply State.armStep_frame | decide | intro _
    | split)

theorem State.localDone_frame {fs : List Field} {s₀ : State} {s : State} {n : Fin 128}
    (h : Frame fs s₀ s) (hs : Field.sub [.fps] fs = true) :
    Frame fs s₀ (State.localDone s n) := by
  refine Frame.comp h ?_ hs
  clear h hs
  unfold State.localDone
  (try dsimp -proj only)
  repeat' (with_reducible first
    | apply Frame.refl | apply State.modFp_frame | decide | intro _ | split)

theorem State.restartSeq_frame {fs : List Field} {s₀ : State} {s : State} {n : Fin 128} {cause : Cause}
    (h : Frame fs s₀ s) (hs : Field.sub [.ports, .stn, .ctl, .wdg, .plat, .trace, .spdm, .rings, .views, .awaits, .dev] fs = true) :
    Frame fs s₀ (State.restartSeq s n cause) := by
  refine Frame.comp h ?_ hs
  clear h hs
  unfold State.restartSeq
  (try dsimp -proj only)
  repeat' (with_reducible first
    | apply Frame.refl | apply State.hold_frame | decide | intro _ | split)

theorem State.enterSafe_frame {fs : List Field} {s₀ : State} {s : State} {n : Fin 128}
    (h : Frame fs s₀ s) (hs : Field.sub [.ports, .stn, .ctl, .wdg, .plat, .trace, .spdm, .rings, .views, .awaits, .dev] fs = true) :
    Frame fs s₀ (State.enterSafe s n) := by
  refine Frame.comp h ?_ hs
  clear h hs
  unfold State.enterSafe
  (try dsimp -proj only)
  repeat' (with_reducible first
    | apply Frame.refl | apply State.answerAll_frame | apply State.stopHost_frame | apply State.transition_frame | decide
    | intro _ | split)

theorem State.modLine_frame {fs : List Field} {s₀ : State} {s : State} {t1 : Fin 16} {x : TwStep}
    (h : Frame fs s₀ s) (hs : Field.sub [.plat] fs = true) :
    Frame fs s₀ (State.modLine s t1 x) := by
  refine Frame.comp h ?_ hs
  clear h hs
  unfold State.modLine
  (try dsimp -proj only)
  repeat' (with_reducible first
    | apply Frame.refl | decide | intro _ | split | apply Frame.put_plat)

theorem State.lineStep_frame {fs : List Field} {s₀ : State} {s : State} {t1 : Fin 16}
    (h : Frame fs s₀ s) (hs : Field.sub [.plat] fs = true) :
    Frame fs s₀ (State.lineStep s t1) := by
  refine Frame.comp h ?_ hs
  clear h hs
  unfold State.lineStep
  (try dsimp -proj only)
  repeat' (with_reducible first
    | apply Frame.refl | apply State.modLine_frame | decide | intro _ | split | apply Frame.put_plat)

theorem State.powerStep3_frame {fs : List Field} {s₀ : State} {s : State} {n : Fin 128}
    (h : Frame fs s₀ s) (hs : Field.sub [.mbx, .ctl, .plt, .wdg, .imm, .fca, .mins, .trace, .spdm, .rings, .views, .awaits, .drbg, .drawn, .led, .dev] fs = true) :
    Frame fs s₀ (State.powerStep3 s n) := by
  refine Frame.comp h ?_ hs
  clear h hs
  unfold State.powerStep3
  (try dsimp -proj only)
  repeat' (with_reducible first
    | apply Frame.refl | apply State.startTaking_frame | apply State.modCtl_frame | decide | intro _ | split)

theorem State.requestPulse_frame {fs : List Field} {s₀ : State} {s : State} {t1 : Fin 16} {own : Option (Fin 128)}
    (h : Frame fs s₀ s) (hs : Field.sub [.ports, .mbx, .stn, .ctl, .plt, .wdg, .imm, .fca, .mins, .plat, .trace, .spdm, .rings, .views, .awaits, .drbg, .drawn, .led, .dev] fs = true) :
    Frame fs s₀ (State.requestPulse s t1 own) := by
  refine Frame.comp h ?_ hs
  clear h hs
  unfold State.requestPulse
  (try dsimp -proj only)
  repeat' (with_reducible first
    | apply Frame.refl | apply State.hold_frame | apply State.forAll_frame | apply State.modLine_frame
    | apply State.lineStep_frame | apply State.powerStep3_frame | decide | intro _ | split | apply Frame.put_plat)

theorem State.powerCycle_frame {fs : List Field} {s₀ : State} {s : State} {n : Fin 128}
    (h : Frame fs s₀ s) (hs : Field.sub [.ports, .mbx, .stn, .ctl, .plt, .wdg, .imm, .fca, .mins, .plat, .trace, .spdm, .rings, .views, .awaits, .drbg, .drawn, .led, .dev] fs = true) :
    Frame fs s₀ (State.powerCycle s n) := by
  refine Frame.comp h ?_ hs
  clear h hs
  unfold State.powerCycle
  (try dsimp -proj only)
  repeat' (with_reducible first
    | apply Frame.refl | apply State.restartSeq_frame | apply State.requestPulse_frame | decide | intro _ | split)

theorem State.rejectProof_frame {fs : List Field} {s₀ : State} {s : State} {n : Fin 128}
    (h : Frame fs s₀ s) (hs : Field.sub [.plt, .trace, .rings, .led] fs = true) :
    Frame fs s₀ (State.rejectProof s n) := by
  refine Frame.comp h ?_ hs
  clear h hs
  unfold State.rejectProof
  (try dsimp -proj only)
  repeat' (with_reducible first
    | apply Frame.refl | apply State.modPlt_frame | apply State.commitPlates_frame | decide | intro _ | split
    | apply Frame.put_led)

theorem State.revert_frame {fs : List Field} {s₀ : State} {s : State} {n : Fin 128} {why : Nat}
    (h : Frame fs s₀ s) (hs : Field.sub [.ports, .mbx, .stn, .ctl, .plt, .wdg, .imm, .fca, .mins, .plat, .trace, .spdm, .rings, .views, .awaits, .drbg, .drawn, .led, .dev] fs = true) :
    Frame fs s₀ (State.revert s n why) := by
  refine Frame.comp h ?_ hs
  clear h hs
  unfold State.revert
  (try dsimp -proj only)
  repeat' (with_reducible first
    | apply Frame.refl | apply State.modPlt_frame | apply State.select_frame | apply State.hold_frame
    | apply State.startTaking_frame | apply State.endArming_frame | apply State.raise_frame
    | apply State.rejectProof_frame | apply State.modCtl_frame | decide | intro _ | split)

theorem State.proofFails_frame {fs : List Field} {s₀ : State} {s : State} {n : Fin 128} {why : Nat}
    (h : Frame fs s₀ s) (hs : Field.sub [.ports, .mbx, .stn, .ctl, .plt, .wdg, .imm, .fca, .mins, .plat, .trace, .spdm, .rings, .views, .awaits, .drbg, .drawn, .led, .dev] fs = true) :
    Frame fs s₀ (State.proofFails s n why) := by
  refine Frame.comp h ?_ hs
  clear h hs
  unfold State.proofFails
  (try dsimp -proj only)
  repeat' (with_reducible first
    | apply Frame.refl | apply State.modPlt_frame | apply State.hold_frame | apply State.revert_frame | decide | intro _
    | split)

theorem State.localWrite_frame {fs : List Field} {s₀ : State} {s : State} {n : Fin 128} {erase : Bool} {len : Nat}
    (h : Frame fs s₀ s) (hs : Field.sub [.fps] fs = true) :
    Frame fs s₀ (State.localWrite s n erase len) := by
  refine Frame.comp h ?_ hs
  clear h hs
  unfold State.localWrite
  (try dsimp -proj only)
  repeat' (with_reducible first
    | apply Frame.refl | apply State.modFp_frame | decide | intro _ | split)

theorem State.revertBelow_frame {fs : List Field} {s₀ : State} {s : State}
    (h : Frame fs s₀ s) (hs : Field.sub [.ports, .mbx, .stn, .ctl, .plt, .wdg, .imm, .fca, .mins, .plat, .trace, .spdm, .rings, .views, .awaits, .drbg, .drawn, .led, .dev] fs = true) :
    Frame fs s₀ (State.revertBelow s) := by
  refine Frame.comp h ?_ hs
  clear h hs
  unfold State.revertBelow
  (try dsimp -proj only)
  repeat' (with_reducible first
    | apply Frame.refl | apply State.revert_frame | apply State.forChans_frame | decide | intro _ | split)

theorem State.acceptCommit_frame {fs : List Field} {s₀ : State} {s : State} {n : Fin 128} {time : Nat}
    (h : Frame fs s₀ s) (hs : Field.sub [.ports, .mbx, .stn, .ctl, .plt, .wdg, .imm, .fca, .mins, .plat, .trace, .spdm, .rings, .views, .awaits, .drbg, .drawn, .led, .dev] fs = true) :
    Frame fs s₀ (State.acceptCommit s n time) := by
  refine Frame.comp h ?_ hs
  clear h hs
  unfold State.acceptCommit
  (try dsimp -proj only)
  repeat' (with_reducible first
    | apply Frame.refl | apply State.modPlt_frame | apply State.completeAdvances_frame | apply State.revertBelow_frame
    | apply State.log_frame | apply State.commitPlates_frame | apply State.transition_frame | apply State.raise_frame
    | decide | intro _ | split)

theorem State.judgeAccept_frame {fs : List Field} {s₀ : State} {s : State} {n : Fin 128} {time : Nat} {value : DWord}
    (h : Frame fs s₀ s) (hs : Field.sub [.ports, .mbx, .stn, .ctl, .plt, .wdg, .imm, .fca, .mins, .plat, .trace, .spdm, .rings, .views, .awaits, .drbg, .drawn, .led, .dev] fs = true) :
    Frame fs s₀ (State.judgeAccept s n time value) := by
  refine Frame.comp h ?_ hs
  clear h hs
  unfold State.judgeAccept
  (try dsimp -proj only)
  repeat' (with_reducible first
    | apply Frame.refl | apply State.modPlt_frame | apply State.acceptCommit_frame | decide | intro _ | split
    | apply Frame.put_led)

theorem State.startDiscovery_frame {fs : List Field} {s₀ : State} {s : State} {f : Fin 64}
    (h : Frame fs s₀ s) (hs : Field.sub [.fps, .prof] fs = true) :
    Frame fs s₀ (State.startDiscovery s f) := by
  refine Frame.comp h ?_ hs
  clear h hs
  unfold State.startDiscovery
  (try dsimp -proj only)
  repeat' (with_reducible first
    | apply Frame.refl | apply State.modFp_frame | decide | intro _ | split | apply Frame.put_prof)

theorem State.sinkAll_frame {fs : List Field} {s₀ : State} {s : State} (h : Frame fs s₀ s) (hs : Field.sub [.ctl] fs = true) :
    Frame fs s₀ (State.sinkAll s) := by
  refine Frame.comp h ?_ hs
  clear h hs
  unfold State.sinkAll
  (try dsimp -proj only)
  repeat' (with_reducible first
    | apply Frame.refl | apply State.forChans_frame | apply State.modCtl_frame | decide | intro _ | split)

theorem State.assertFail_frame {fs : List Field} {s₀ : State} {s : State} (h : Frame fs s₀ s) (hs : Field.sub [.plat] fs = true) :
    Frame fs s₀ (State.assertFail s) := by
  refine Frame.comp h ?_ hs
  clear h hs
  unfold State.assertFail
  (try dsimp -proj only)
  repeat' (with_reducible first
    | apply Frame.refl | decide | intro _ | split | apply Frame.put_plat)

theorem State.keepLines_frame {fs : List Field} {s₀ : State} {s : State} (h : Frame fs s₀ s) (hs : Field.sub [.plat] fs = true) :
    Frame fs s₀ (State.keepLines s) := by
  refine Frame.comp h ?_ hs
  clear h hs
  unfold State.keepLines
  (try dsimp -proj only)
  repeat' (with_reducible first
    | apply Frame.refl | decide | intro _ | split | apply Frame.put_plat)

theorem State.deviceHoldAll_frame {fs : List Field} {s₀ : State} {s : State}
    (h : Frame fs s₀ s) (hs : Field.sub [.ports, .stn, .ctl, .wdg, .plat, .trace, .spdm, .rings, .views, .awaits, .dev] fs = true) :
    Frame fs s₀ (State.deviceHoldAll s) := by
  refine Frame.comp h ?_ hs
  clear h hs
  unfold State.deviceHoldAll
  (try dsimp -proj only)
  repeat' (with_reducible first
    | apply Frame.refl | apply State.hold_frame | apply State.forChans_frame | decide | intro _ | split)

theorem State.endOpenSession_frame {fs : List Field} {s₀ : State} {s : State} {n : Fin 128} {st : Status}
    (h : Frame fs s₀ s) (hs : Field.sub [.mbx, .stn, .trace, .rings] fs = true) :
    Frame fs s₀ (State.endOpenSession s n st) := by
  refine Frame.comp h ?_ hs
  clear h hs
  unfold State.endOpenSession
  (try dsimp -proj only)
  repeat' (with_reducible first
    | apply Frame.refl | apply State.endSession_frame | decide | intro _ | split)

theorem State.applyIdentity_frame {fs : List Field} {s₀ : State} {s : State} {n : Fin 128}
    (h : Frame fs s₀ s) (hs : Field.sub [.fps, .prof] fs = true) :
    Frame fs s₀ (State.applyIdentity s n) := by
  refine Frame.comp h ?_ hs
  clear h hs
  unfold State.applyIdentity
  (try dsimp -proj only)
  repeat' (with_reducible first
    | apply Frame.refl | apply State.startDiscovery_frame | decide | intro _ | split | apply Frame.put_prof)

theorem State.applyDeferred_frame {fs : List Field} {s₀ : State} {s : State} {n : Fin 128}
    (h : Frame fs s₀ s) (hs : Field.sub [.mbx, .stn, .fps, .pol, .prof, .trace, .rings] fs = true) :
    Frame fs s₀ (State.applyDeferred s n) := by
  refine Frame.comp h ?_ hs
  clear h hs
  unfold State.applyDeferred
  (try dsimp -proj only)
  repeat' (with_reducible first
    | apply Frame.refl | apply State.applyIdentity_frame | apply State.applySection_frame | decide | intro _ | split)

theorem State.reachHold_frame {fs : List Field} {s₀ : State} {s : State} {n : Fin 128}
    (h : Frame fs s₀ s) (hs : Field.sub [.ports, .mbx, .stn, .ctl, .plt, .wdg, .fps, .pol, .prof, .imm, .fca, .mins, .plat, .trace, .spdm, .rings, .views, .awaits, .drbg, .drawn, .led, .dev] fs = true) :
    Frame fs s₀ (State.reachHold s n) := by
  refine Frame.comp h ?_ hs
  clear h hs
  unfold State.reachHold
  (try dsimp -proj only)
  repeat' (with_reducible first
    | apply Frame.refl | apply State.forAll_frame | apply State.lineStep_frame | apply State.endOpenSession_frame
    | apply State.applyDeferred_frame | apply State.startTaking_frame | apply State.answerAll_frame
    | apply State.powerStep3_frame | apply State.modStn_frame | apply State.modPort_frame | apply State.armStep_frame
    | apply State.leaveUpdate_frame | apply State.modCtl_frame | decide | intro _ | split)

theorem State.resumeHeld_frame {fs : List Field} {s₀ : State} {s : State} {n : Fin 128}
    (h : Frame fs s₀ s) (hs : Field.sub [.mbx, .ctl, .plt, .wdg, .imm, .fca, .mins, .trace, .spdm, .rings, .views, .awaits, .drbg, .drawn, .led, .dev] fs = true) :
    Frame fs s₀ (State.resumeHeld s n) := by
  refine Frame.comp h ?_ hs
  clear h hs
  unfold State.resumeHeld
  (try dsimp -proj only)
  repeat' (with_reducible first
    | apply Frame.refl | apply State.startTaking_frame | apply State.takeKept_frame | decide | intro _ | split)

theorem State.settleLines_frame {fs : List Field} {s₀ : State} {s : State} (h : Frame fs s₀ s) (hs : Field.sub [.prof] fs = true) :
    Frame fs s₀ (State.settleLines s) := by
  refine Frame.comp h ?_ hs
  clear h hs
  unfold State.settleLines
  (try dsimp -proj only)
  repeat' (with_reducible first
    | apply Frame.refl | decide | intro _ | split | apply Frame.put_prof)

theorem State.endLines_frame {fs : List Field} {s₀ : State} {s : State}
    (h : Frame fs s₀ s) (hs : Field.sub [.prof, .twl, .plat] fs = true) :
    Frame fs s₀ (State.endLines s) := by
  refine Frame.comp h ?_ hs
  clear h hs
  unfold State.endLines
  (try dsimp -proj only)
  repeat' (with_reducible first
    | apply Frame.refl | apply State.forAll_frame | apply State.modLine_frame | apply State.settleLines_frame | decide
    | intro _ | split | apply Frame.put_twl)

theorem State.resume_frame {fs : List Field} {s₀ : State} {s : State} {n : Fin 128} {out : Option Chk}
    (h : Frame fs s₀ s) (hs : Field.sub [.mbx, .ctl, .plt, .wdg, .imm, .fca, .mins, .trace, .spdm, .rings, .views, .awaits, .drbg, .drawn, .led, .dev] fs = true) :
    Frame fs s₀ (State.resume s n out) := by
  refine Frame.comp h ?_ hs
  clear h hs
  unfold State.resume
  (try dsimp -proj only)
  repeat' (with_reducible first
    | apply Frame.refl | apply State.armJudge_frame | apply State.selNote_frame | apply State.reselect_frame
    | apply State.armStep_frame | apply State.modCtl_frame | decide | intro _ | split)

theorem State.leave_frame {fs : List Field} {s₀ : State} {s : State} {n : Fin 128} {st : ChState} {cause : Cause}
    (h : Frame fs s₀ s) (hs : Field.sub [.ports, .stn, .ctl, .plt, .wdg, .imm, .plat, .trace, .spdm, .rings, .views, .awaits, .led, .dev] fs = true) :
    Frame fs s₀ (State.leave s n st cause) := by
  refine Frame.comp h ?_ hs
  clear h hs
  unfold State.leave
  (try dsimp -proj only)
  repeat' (with_reducible first
    | apply Frame.refl | apply State.answerAll_frame | apply State.stopHost_frame | apply State.unbind_frame
    | apply State.transition_frame | apply State.rejectProof_frame | apply State.endArming_frame | decide | intro _
    | split)

theorem State.resumeEntry_frame {fs : List Field} {s₀ : State} {s : State} {i : Nat} {out : Option Chk}
    (h : Frame fs s₀ s) (hs : Field.sub [.mbx, .ctl, .plt, .wdg, .imm, .fca, .mins, .trace, .spdm, .rings, .views, .awaits, .drbg, .drawn, .led, .dev] fs = true) :
    Frame fs s₀ (State.resumeEntry s i out) := by
  refine Frame.comp h ?_ hs
  clear h hs
  unfold State.resumeEntry
  (try dsimp -proj only)
  repeat' (with_reducible first
    | apply Frame.refl | apply State.forChans_frame | apply State.resume_frame | decide | intro _ | split)

theorem State.unitOut_frame {fs : List Field} {s₀ : State} {s : State} {kind : Nat} {index : Nat} {reason : Nat}
    (h : Frame fs s₀ s) (hs : Field.sub [.rings] fs = true) :
    Frame fs s₀ (State.unitOut s kind index reason) := by
  refine Frame.comp h ?_ hs
  clear h hs
  unfold State.unitOut
  (try dsimp -proj only)
  repeat' (with_reducible first
    | apply Frame.refl | apply State.raise_frame | decide | intro _ | split)

theorem State.modPoolAll_frame {fs : List Field} {s₀ : State} {s : State} {f : Pool → Pool}
    (h : Frame fs s₀ s) (hs : Field.sub [.pool] fs = true) :
    Frame fs s₀ (State.modPoolAll s f) := by
  refine Frame.comp h ?_ hs
  clear h hs
  unfold State.modPoolAll
  (try dsimp -proj only)
  repeat' (with_reducible first
    | apply Frame.refl | decide | intro _ | split | apply Frame.put_pool)

theorem State.plateBad_frame {fs : List Field} {s₀ : State} {s : State} {n : Fin 128} {ps : List PlateId} {st : Status}
    (h : Frame fs s₀ s) (hs : Field.sub [.plt, .trace, .rings, .led] fs = true) :
    Frame fs s₀ (State.plateBad s n ps st) := by
  refine Frame.comp h ?_ hs
  clear h hs
  unfold State.plateBad
  (try dsimp -proj only)
  repeat' (with_reducible first
    | apply Frame.refl | apply State.modPlt_frame | apply State.commitPlates_frame | apply Frame.foldl
    | apply Frame.foldl_fst | decide | intro _ | split | apply Frame.put_led)

theorem State.objectBad_frame {fs : List Field} {s₀ : State} {s : State} {fam : List Byte} {root : List Byte} {st : Status}
    (h : Frame fs s₀ s) (hs : Field.sub [.plt, .trace, .rings, .led] fs = true) :
    Frame fs s₀ (State.objectBad s fam root st) := by
  refine Frame.comp h ?_ hs
  clear h hs
  unfold State.objectBad
  (try dsimp -proj only)
  repeat' (with_reducible first
    | apply Frame.refl | apply State.forChans_frame | apply State.plateBad_frame | decide | intro _ | split)

theorem State.unitBack_frame {fs : List Field} {s₀ : State} {s : State} {kind : Nat} {index : Nat}
    (h : Frame fs s₀ s) (hs : Field.sub [.rings] fs = true) :
    Frame fs s₀ (State.unitBack s kind index) := by
  refine Frame.comp h ?_ hs
  clear h hs
  unfold State.unitBack
  (try dsimp -proj only)
  repeat' (with_reducible first
    | apply Frame.refl | apply State.raise_frame | decide | intro _ | split)

theorem State.poolOut_frame {fs : List Field} {s₀ : State} {s : State} {k1 : Fin 16} {reason : Nat}
    (h : Frame fs s₀ s) (hs : Field.sub [.pool, .rings] fs = true) :
    Frame fs s₀ (State.poolOut s k1 reason) := by
  refine Frame.comp h ?_ hs
  clear h hs
  unfold State.poolOut
  (try dsimp -proj only)
  repeat' (with_reducible first
    | apply Frame.refl | apply State.modPool_frame | apply State.unitOut_frame | decide | intro _ | split)

theorem State.damage_frame {fs : List Field} {s₀ : State} {s : State} {i : Fin 256} {leaf : Nat}
    (h : Frame fs s₀ s) (hs : Field.sub [.plt, .imm, .trace, .rings, .led] fs = true) :
    Frame fs s₀ (State.damage s i leaf) := by
  refine Frame.comp h ?_ hs
  clear h hs
  unfold State.damage
  (try dsimp -proj only)
  repeat' (with_reducible first
    | apply Frame.refl | apply State.objectBad_frame | apply State.plateBad_frame | apply State.log_frame
    | apply State.modDir_frame | apply State.raise_frame | decide | intro _ | split)

theorem State.dropLeaf_frame {fs : List Field} {s₀ : State} {s : State} {i : Fin 256} {leaf : Nat}
    (h : Frame fs s₀ s) (hs : Field.sub [.fca] fs = true) :
    Frame fs s₀ (State.dropLeaf s i leaf) := by
  refine Frame.comp h ?_ hs
  clear h hs
  unfold State.dropLeaf
  (try dsimp -proj only)
  repeat' (with_reducible first
    | apply Frame.refl | decide | intro _ | split | apply Frame.put_fca)

theorem State.refreshPage_frame {fs : List Field} {s₀ : State} {s : State} (h : Frame fs s₀ s) (hs : Field.sub [.pool] fs = true) :
    Frame fs s₀ (State.refreshPage s) := by
  refine Frame.comp h ?_ hs
  clear h hs
  unfold State.refreshPage
  (try dsimp -proj only)
  repeat' (with_reducible first
    | apply Frame.refl | apply State.modPoolAll_frame | decide | intro _ | split)

theorem State.retireBlock_frame {fs : List Field} {s₀ : State} {s : State} {k1 : Fin 16}
    (h : Frame fs s₀ s) (hs : Field.sub [.pool, .rings] fs = true) :
    Frame fs s₀ (State.retireBlock s k1) := by
  refine Frame.comp h ?_ hs
  clear h hs
  unfold State.retireBlock
  (try dsimp -proj only)
  repeat' (with_reducible first
    | apply Frame.refl | apply State.modPool_frame | apply State.raise_frame | decide | intro _ | split)

theorem State.poolDo_frame {fs : List Field} {s₀ : State} {s : State} {w : PoolWork}
    (h : Frame fs s₀ s) (hs : Field.sub [.pool, .rings] fs = true) :
    Frame fs s₀ (State.poolDo s w) := by
  refine Frame.comp h ?_ hs
  clear h hs
  unfold State.poolDo
  (try dsimp -proj only)
  repeat' (with_reducible first
    | apply Frame.refl | apply State.modPoolAll_frame | apply State.refreshPage_frame | apply State.modPool_frame
    | apply State.retireBlock_frame | decide | intro _ | split)

theorem State.evictForLayout_frame {fs : List Field} {s₀ : State} {x : Nat} {x1 : State}
    (h : Frame fs s₀ x1) (hs : Field.sub [.imm, .fca, .trace] fs = true) :
    Frame fs s₀ (State.evictForLayout x x1) := by
  refine Frame.comp h ?_ hs
  clear h hs
  have key : ∀ (s₀ : State) (x1 : State), Frame [.imm, .fca, .trace] s₀ x1 → Frame [.imm, .fca, .trace] s₀ (State.evictForLayout x x1) := by
    induction x with
    | zero => intro s₀ x1 h; unfold State.evictForLayout; exact h
    | succ k ih =>
      intro s₀ x1 h; unfold State.evictForLayout
      (try dsimp -proj only)
      repeat' (with_reducible first
        | assumption | apply ih | apply Frame.refl | apply State.freeEntry_frame | decide | intro _ | split)
  exact key _ x1 (Frame.refl _ _)

theorem State.countRebuilt_frame {fs : List Field} {s₀ : State} {s : State} {o : PoolObj} {ev : TakeEv}
    (h : Frame fs s₀ s) (hs : Field.sub [.pool] fs = true) :
    Frame fs s₀ (State.countRebuilt s o ev) := by
  refine Frame.comp h ?_ hs
  clear h hs
  unfold State.countRebuilt
  (try dsimp -proj only)
  repeat' (with_reducible first
    | apply Frame.refl | apply State.forAll_frame | apply State.modPool_frame | decide | intro _ | split)

theorem State.laneOut_frame {fs : List Field} {s₀ : State} {s : State} {i : Fin 40} {reason : Nat}
    (h : Frame fs s₀ s) (hs : Field.sub [.farm, .rings] fs = true) :
    Frame fs s₀ (State.laneOut s i reason) := by
  refine Frame.comp h ?_ hs
  clear h hs
  unfold State.laneOut
  (try dsimp -proj only)
  repeat' (with_reducible first
    | apply Frame.refl | apply State.unitOut_frame | decide | intro _ | split | apply Frame.put_farm)

theorem State.evictFor_frame {fs : List Field} {s₀ : State} {need : Nat} {x : Nat} {x2 : State}
    (h : Frame fs s₀ x2) (hs : Field.sub [.imm, .fca, .trace] fs = true) :
    Frame fs s₀ (State.evictFor need x x2) := by
  refine Frame.comp h ?_ hs
  clear h hs
  have key : ∀ (s₀ : State) (need : Nat) (x2 : State), Frame [.imm, .fca, .trace] s₀ x2 → Frame [.imm, .fca, .trace] s₀ (State.evictFor need x x2) := by
    induction x with
    | zero => intro s₀ need x2 h; unfold State.evictFor; exact h
    | succ k ih =>
      intro s₀ need x2 h; unfold State.evictFor
      (try dsimp -proj only)
      repeat' (with_reducible first
        | assumption | apply ih | apply Frame.refl | apply State.freeEntry_frame | decide | intro _ | split)
  exact key _ need x2 (Frame.refl _ _)

theorem State.holdBound_frame {fs : List Field} {s₀ : State} {s : State} {i : Fin 256}
    (h : Frame fs s₀ s) (hs : Field.sub [.ports, .stn, .ctl, .wdg, .plat, .trace, .spdm, .rings, .views, .awaits, .dev] fs = true) :
    Frame fs s₀ (State.holdBound s i) := by
  refine Frame.comp h ?_ hs
  clear h hs
  unfold State.holdBound
  (try dsimp -proj only)
  repeat' (with_reducible first
    | apply Frame.refl | apply State.hold_frame | apply State.forChans_frame | apply State.raise_frame | decide | intro _
    | split)

theorem State.areasLost_frame {fs : List Field} {s₀ : State} {s : State} (h : Frame fs s₀ s) (hs : Field.sub [.areas, .rings] fs = true) :
    Frame fs s₀ (State.areasLost s) := by
  refine Frame.comp h ?_ hs
  clear h hs
  unfold State.areasLost
  (try dsimp -proj only)
  repeat' (with_reducible first
    | apply Frame.refl | apply State.forChans_frame | apply State.forAll_frame | apply State.modAreas_frame
    | apply State.raise_frame | apply Frame.foldl | apply Frame.foldl_fst | decide | intro _ | split)

theorem State.pipeBack_frame {fs : List Field} {s₀ : State} {s : State} {i : Fin 12}
    (h : Frame fs s₀ s) (hs : Field.sub [.farm, .rings] fs = true) :
    Frame fs s₀ (State.pipeBack s i) := by
  refine Frame.comp h ?_ hs
  clear h hs
  unfold State.pipeBack
  (try dsimp -proj only)
  repeat' (with_reducible first
    | apply Frame.refl | apply State.unitBack_frame | decide | intro _ | split | apply Frame.put_farm)

theorem State.pipeOut_frame {fs : List Field} {s₀ : State} {s : State} {i : Fin 12} {reason : Nat}
    (h : Frame fs s₀ s) (hs : Field.sub [.farm, .rings] fs = true) :
    Frame fs s₀ (State.pipeOut s i reason) := by
  refine Frame.comp h ?_ hs
  clear h hs
  unfold State.pipeOut
  (try dsimp -proj only)
  repeat' (with_reducible first
    | apply Frame.refl | apply State.unitOut_frame | decide | intro _ | split | apply Frame.put_farm)

theorem State.modFarm_frame {fs : List Field} {s₀ : State} {s : State} {f : Farm → Farm}
    (h : Frame fs s₀ s) (hs : Field.sub [.farm] fs = true) :
    Frame fs s₀ (State.modFarm s f) := by
  refine Frame.comp h ?_ hs
  clear h hs
  unfold State.modFarm
  (try dsimp -proj only)
  repeat' (with_reducible first
    | apply Frame.refl | decide | intro _ | split | apply Frame.put_farm)

theorem State.katFailed_frame {fs : List Field} {s₀ : State} {s : State} {code : Nat}
    (h : Frame fs s₀ s) (hs : Field.sub [.farm, .trace] fs = true) :
    Frame fs s₀ (State.katFailed s code) := by
  refine Frame.comp h ?_ hs
  clear h hs
  unfold State.katFailed
  (try dsimp -proj only)
  repeat' (with_reducible first
    | apply Frame.refl | apply State.modFarm_frame | apply State.log_frame | decide | intro _ | split)

theorem State.flushPool_frame {fs : List Field} {s₀ : State} {s : State} (h : Frame fs s₀ s) (hs : Field.sub [.pool, .rings] fs = true) :
    Frame fs s₀ (State.flushPool s) := by
  refine Frame.comp h ?_ hs
  clear h hs
  unfold State.flushPool
  (try dsimp -proj only)
  repeat' (with_reducible first
    | apply Frame.refl | apply State.modPoolAll_frame | apply State.poolDo_frame | apply State.forAll_frame | decide
    | intro _ | split)

theorem State.newWindow_frame {fs : List Field} {s₀ : State} {s : State} {n : Fin 128}
    (h : Frame fs s₀ s) (hs : Field.sub [.wdg] fs = true) :
    Frame fs s₀ (State.newWindow s n) := by
  refine Frame.comp h ?_ hs
  clear h hs
  unfold State.newWindow
  (try dsimp -proj only)
  repeat' (with_reducible first
    | apply Frame.refl | apply State.modWdg_frame | decide | intro _ | split)

theorem State.takeAction_frame {fs : List Field} {s₀ : State} {s : State} {n : Fin 128} {a : WdgAct}
    (h : Frame fs s₀ s) (hs : Field.sub [.ports, .mbx, .stn, .ctl, .plt, .wdg, .imm, .fca, .mins, .plat, .trace, .spdm, .rings, .views, .awaits, .drbg, .drawn, .led, .dev] fs = true) :
    Frame fs s₀ (State.takeAction s n a) := by
  refine Frame.comp h ?_ hs
  clear h hs
  unfold State.takeAction
  (try dsimp -proj only)
  repeat' (with_reducible first
    | apply Frame.refl | apply State.restartSeq_frame | apply State.enterSafe_frame | apply State.powerCycle_frame
    | apply State.proofFails_frame | decide | intro _ | split)

theorem State.putWdgRec_frame {fs : List Field} {s₀ : State} {s : State} {n : Fin 128} {r : WdgRec}
    (h : Frame fs s₀ s) (hs : Field.sub [.wdg, .led] fs = true) :
    Frame fs s₀ (State.putWdgRec s n r) := by
  refine Frame.comp h ?_ hs
  clear h hs
  unfold State.putWdgRec
  (try dsimp -proj only)
  repeat' (with_reducible first
    | apply Frame.refl | apply State.modWdg_frame | decide | intro _ | split | apply Frame.put_led)

theorem State.noteExpiry_frame {fs : List Field} {s₀ : State} {s : State} {n : Fin 128} {cause : ExpCause}
    (h : Frame fs s₀ s) (hs : Field.sub [.plt, .wdg, .trace, .rings, .led] fs = true) :
    Frame fs s₀ (State.noteExpiry s n cause) := by
  refine Frame.comp h ?_ hs
  clear h hs
  unfold State.noteExpiry
  (try dsimp -proj only)
  repeat' (with_reducible first
    | apply Frame.refl | apply State.modPlt_frame | apply State.modWdg_frame | apply State.wdgStop_frame
    | apply State.putWdgRec_frame | apply State.log_frame | apply State.raise_frame | decide | intro _ | split)

theorem State.expire_frame {fs : List Field} {s₀ : State} {s : State} {n : Fin 128} {cause : ExpCause}
    (h : Frame fs s₀ s) (hs : Field.sub [.ports, .mbx, .stn, .ctl, .plt, .wdg, .imm, .fca, .mins, .plat, .trace, .spdm, .rings, .views, .awaits, .drbg, .drawn, .led, .dev] fs = true) :
    Frame fs s₀ (State.expire s n cause) := by
  refine Frame.comp h ?_ hs
  clear h hs
  unfold State.expire
  (try dsimp -proj only)
  repeat' (with_reducible first
    | apply Frame.refl | apply State.takeAction_frame | apply State.forAll_frame | apply State.noteExpiry_frame | decide
    | intro _ | split)

theorem State.publish_frame {fs : List Field} {s₀ : State} {s : State} {n : Fin 128}
    (h : Frame fs s₀ s) (hs : Field.sub [.wdg, .drbg, .drawn] fs = true) :
    Frame fs s₀ (State.publish s n) := by
  refine Frame.comp h ?_ hs
  clear h hs
  unfold State.publish
  (try dsimp -proj only)
  repeat' (with_reducible first
    | apply Frame.refl | apply State.modWdg_frame | apply State.drawChallenge_frame | decide | intro _ | split)

theorem State.violation_frame {fs : List Field} {s₀ : State} {s : State} {n : Fin 128} {early : Bool}
    (h : Frame fs s₀ s) (hs : Field.sub [.ports, .mbx, .stn, .ctl, .plt, .wdg, .imm, .fca, .mins, .plat, .trace, .spdm, .rings, .views, .awaits, .drbg, .drawn, .led, .dev] fs = true) :
    Frame fs s₀ (State.violation s n early) := by
  refine Frame.comp h ?_ hs
  clear h hs
  unfold State.violation
  (try dsimp -proj only)
  repeat' (with_reducible first
    | apply Frame.refl | apply State.modWdg_frame | apply State.expire_frame | apply State.summary_frame
    | apply State.raise_frame | decide | intro _ | split)

theorem State.service_frame {fs : List Field} {s₀ : State} {s : State} {n : Fin 128} {token : DWord}
    (h : Frame fs s₀ s) (hs : Field.sub [.ports, .mbx, .stn, .ctl, .plt, .wdg, .imm, .fca, .mins, .plat, .trace, .spdm, .rings, .views, .awaits, .drbg, .drawn, .led, .dev] fs = true) :
    Frame fs s₀ (State.service s n token) := by
  refine Frame.comp h ?_ hs
  clear h hs
  unfold State.service
  (try dsimp -proj only)
  repeat' (with_reducible first
    | apply Frame.refl | apply State.modWdg_frame | apply State.newWindow_frame | apply State.expire_frame
    | apply State.publish_frame | apply State.violation_frame | decide | intro _ | split)

theorem State.extension_frame {fs : List Field} {s₀ : State} {s : State} {n : Fin 128} {token : DWord} {units : Word}
    (h : Frame fs s₀ s) (hs : Field.sub [.ports, .mbx, .stn, .ctl, .plt, .wdg, .imm, .fca, .mins, .plat, .trace, .spdm, .rings, .views, .awaits, .drbg, .drawn, .led, .dev] fs = true) :
    Frame fs s₀ (State.extension s n token units) := by
  refine Frame.comp h ?_ hs
  clear h hs
  unfold State.extension
  (try dsimp -proj only)
  repeat' (with_reducible first
    | apply Frame.refl | apply State.modWdg_frame | apply State.expire_frame | apply State.publish_frame
    | apply State.log_frame | apply State.violation_frame | apply State.raise_frame | decide | intro _ | split)

theorem State.clearConsec_frame {fs : List Field} {s₀ : State} {s : State} {n : Fin 128}
    (h : Frame fs s₀ s) (hs : Field.sub [.wdg, .led] fs = true) :
    Frame fs s₀ (State.clearConsec s n) := by
  refine Frame.comp h ?_ hs
  clear h hs
  unfold State.clearConsec
  (try dsimp -proj only)
  repeat' (with_reducible first
    | apply Frame.refl | apply State.putWdgRec_frame | decide | intro _ | split)

theorem State.arm_frame {fs : List Field} {s₀ : State} {s : State} {n : Fin 128} {inRelease : Bool}
    (h : Frame fs s₀ s) (hs : Field.sub [.mbx, .wdg, .trace, .rings, .drbg, .drawn] fs = true) :
    Frame fs s₀ (State.arm s n inRelease) := by
  refine Frame.comp h ?_ hs
  clear h hs
  unfold State.arm
  (try dsimp -proj only)
  repeat' (with_reducible first
    | apply Frame.refl | apply State.modWdg_frame | apply State.extend_frame | apply State.publish_frame
    | apply State.raise_frame | decide | intro _ | split)

theorem State.mbxIgnored_frame {fs : List Field} {s₀ : State} {s : State} {n : Fin 128}
    (h : Frame fs s₀ s) (hs : Field.sub [.ports] fs = true) :
    Frame fs s₀ (State.mbxIgnored s n) := by
  refine Frame.comp h ?_ hs
  clear h hs
  unfold State.mbxIgnored
  (try dsimp -proj only)
  repeat' (with_reducible first
    | apply Frame.refl | apply State.modPort_frame | decide | intro _ | split)

theorem State.latch_frame {fs : List Field} {s₀ : State} {s : State} {n : Fin 128} {x : LatchedAct}
    (h : Frame fs s₀ s) (hs : Field.sub [.mbx] fs = true) :
    Frame fs s₀ (State.latch s n x).1 := by
  refine Frame.comp h ?_ hs
  clear h hs
  unfold State.latch
  (try dsimp -proj only)
  repeat' (with_reducible first
    | apply Frame.refl | apply State.modMbx_frame | decide | intro _ | split)

theorem State.wdgTokenW_frame {fs : List Field} {s₀ : State} {s : State} {n : Fin 128} {v : Nat}
    (h : Frame fs s₀ s) (hs : Field.sub [.ports, .mbx, .stn, .ctl, .plt, .wdg, .imm, .fca, .mins, .plat, .trace, .spdm, .rings, .views, .awaits, .drbg, .drawn, .led, .dev] fs = true) :
    Frame fs s₀ (State.wdgTokenW s n v).1 := by
  refine Frame.comp h ?_ hs
  clear h hs
  unfold State.wdgTokenW
  (try dsimp -proj only)
  repeat' (with_reducible first
    | apply Frame.refl | apply State.service_frame | decide | intro _ | split)

theorem State.updOpenAt_frame {fs : List Field} {s₀ : State} {s : State} {n : Fin 128} {inRun : Bool} {v : DWord}
    (h : Frame fs s₀ s) (hs : Field.sub [.mbx, .stn, .trace, .rings] fs = true) :
    Frame fs s₀ (State.updOpenAt s n inRun v).1 := by
  refine Frame.comp h ?_ hs
  clear h hs
  unfold State.updOpenAt
  (try dsimp -proj only)
  repeat' (with_reducible first
    | apply Frame.refl | apply State.setSession_frame | apply State.modMbx_frame | apply State.endSession_frame
    | apply State.setPhase_frame | decide | intro _ | split)

theorem State.updCommitNow_frame {fs : List Field} {s₀ : State} {s : State} {n : Fin 128}
    (h : Frame fs s₀ s) (hs : Field.sub [.mbx, .stn, .plt, .fps, .trace, .rings, .led] fs = true) :
    Frame fs s₀ (State.updCommitNow s n).1 := by
  refine Frame.comp h ?_ hs
  clear h hs
  unfold State.updCommitNow
  (try dsimp -proj only)
  repeat' (with_reducible first
    | apply Frame.refl | apply State.modPlt_frame | apply State.commitTable_frame | apply State.setSession_frame
    | apply State.localWrite_frame | apply State.endSession_frame | decide | intro _ | split)

theorem State.postMessageAt_frame {fs : List Field} {s₀ : State} {s : State} {n : Fin 128} {time : Nat} {seq : Word} {bytes : List Byte}
    (h : Frame fs s₀ s) (hs : Field.sub [.mbx, .rings] fs = true) :
    Frame fs s₀ (State.postMessageAt s n time seq bytes).1 := by
  refine Frame.comp h ?_ hs
  clear h hs
  unfold State.postMessageAt
  (try dsimp -proj only)
  repeat' (with_reducible first
    | apply Frame.refl | apply State.modMbx_frame | apply State.raise_frame | decide | intro _ | split)

theorem State.proofAcceptAt_frame {fs : List Field} {s₀ : State} {s : State} {n : Fin 128} {time : Nat} {v : DWord}
    (h : Frame fs s₀ s) (hs : Field.sub [.ports, .mbx, .stn, .ctl, .plt, .wdg, .imm, .fca, .mins, .plat, .trace, .spdm, .rings, .views, .awaits, .drbg, .drawn, .led, .dev] fs = true) :
    Frame fs s₀ (State.proofAcceptAt s n time v).1 := by
  refine Frame.comp h ?_ hs
  clear h hs
  unfold State.proofAcceptAt
  (try dsimp -proj only)
  repeat' (with_reducible first
    | apply Frame.refl | apply State.judgeAccept_frame | decide | intro _ | split)

theorem State.bootDoneW_frame {fs : List Field} {s₀ : State} {s : State} {n : Fin 128} {v : Nat}
    (h : Frame fs s₀ s) (hs : Field.sub [.mbx, .stn, .trace, .rings] fs = true) :
    Frame fs s₀ (State.bootDoneW s n v).1 := by
  refine Frame.comp h ?_ hs
  clear h hs
  unfold State.bootDoneW
  (try dsimp -proj only)
  repeat' (with_reducible first
    | apply Frame.refl | apply State.modMbx_frame | apply State.setPhase_frame | decide | intro _ | split)

theorem State.mbxSelectW_frame {fs : List Field} {s₀ : State} {s : State} {n : Fin 128} {v : Nat}
    (h : Frame fs s₀ s) (hs : Field.sub [.mbx] fs = true) :
    Frame fs s₀ (State.mbxSelectW s n v).1 := by
  refine Frame.comp h ?_ hs
  clear h hs
  unfold State.mbxSelectW
  (try dsimp -proj only)
  repeat' (with_reducible first
    | apply Frame.refl | apply State.modMbx_frame | decide | intro _ | split)

theorem State.wdgExtendW_frame {fs : List Field} {s₀ : State} {s : State} {n : Fin 128} {v : Nat}
    (h : Frame fs s₀ s) (hs : Field.sub [.ports, .mbx, .stn, .ctl, .plt, .wdg, .imm, .fca, .mins, .plat, .trace, .spdm, .rings, .views, .awaits, .drbg, .drawn, .led, .dev] fs = true) :
    Frame fs s₀ (State.wdgExtendW s n v).1 := by
  refine Frame.comp h ?_ hs
  clear h hs
  unfold State.wdgExtendW
  (try dsimp -proj only)
  repeat' (with_reducible first
    | apply Frame.refl | apply State.extension_frame | decide | intro _ | split)

theorem State.updAbortNow_frame {fs : List Field} {s₀ : State} {s : State} {n : Fin 128}
    (h : Frame fs s₀ s) (hs : Field.sub [.mbx, .stn, .plt, .trace, .rings] fs = true) :
    Frame fs s₀ (State.updAbortNow s n).1 := by
  refine Frame.comp h ?_ hs
  clear h hs
  unfold State.updAbortNow
  (try dsimp -proj only)
  repeat' (with_reducible first
    | apply Frame.refl | apply State.modPlt_frame | apply State.endSession_frame | decide | intro _ | split)

theorem State.fieldWrite_frame {fs : List Field} {s₀ : State} {s : State} {n : Fin 128} {off : Nat} {v : Nat}
    (h : Frame fs s₀ s) (hs : Field.sub [.ports, .mbx, .stn, .ctl, .plt, .wdg, .fps, .imm, .fca, .mins, .plat, .trace, .spdm, .rings, .views, .awaits, .drbg, .drawn, .led, .dev] fs = true) :
    Frame fs s₀ (State.fieldWrite s n off v).1 := by
  refine Frame.comp h ?_ hs
  clear h hs
  unfold State.fieldWrite
  (try dsimp -proj only)
  repeat' (with_reducible first
    | apply Frame.refl | apply State.latch_frame | apply State.wdgTokenW_frame | apply State.updOpenAt_frame
    | apply State.updCommitNow_frame | apply State.postMessageAt_frame | apply State.modMbx_frame
    | apply State.proofAcceptAt_frame | apply State.bootDoneW_frame | apply State.mbxSelectW_frame
    | apply State.wdgExtendW_frame | apply State.updAbortNow_frame | decide | intro _ | split)

theorem State.mbxProgram_frame {fs : List Field} {s₀ : State} {s : State} {n : Fin 128} {w : List (Nat × Byte)}
    (h : Frame fs s₀ s) (hs : Field.sub [.ports, .mbx, .stn, .ctl, .plt, .wdg, .fps, .imm, .fca, .mins, .plat, .trace, .spdm, .rings, .views, .awaits, .drbg, .drawn, .led, .dev] fs = true) :
    Frame fs s₀ (State.mbxProgram s n w) := by
  refine Frame.comp h ?_ hs
  clear h hs
  unfold State.mbxProgram
  (try dsimp -proj only)
  repeat' (with_reducible first
    | apply Frame.refl | apply State.mbxIgnored_frame | apply State.modMbx_frame | apply State.fieldWrite_frame
    | apply Frame.foldl | apply Frame.foldl_fst | decide | intro _ | split)

theorem State.latchedAct_frame {fs : List Field} {s₀ : State} {s : State} {n : Fin 128} {x : Latched} {x3 : LatchedAct}
    (h : Frame fs s₀ s) (hs : Field.sub [.ports, .mbx, .stn, .ctl, .plt, .wdg, .fps, .imm, .fca, .mins, .plat, .trace, .spdm, .rings, .views, .awaits, .drbg, .drawn, .led, .dev] fs = true) :
    Frame fs s₀ (State.latchedAct s n x x3).1 := by
  refine Frame.comp h ?_ hs
  clear h hs
  unfold State.latchedAct
  (try dsimp -proj only)
  repeat' (with_reducible first
    | apply Frame.refl | apply State.updCommitNow_frame | apply State.updOpenAt_frame | apply State.postMessageAt_frame
    | apply State.proofAcceptAt_frame | apply State.updAbortNow_frame | decide | intro _ | split)

theorem State.processLatched_frame {fs : List Field} {s₀ : State} {s : State} {n : Fin 128} {x : Latched}
    (h : Frame fs s₀ s) (hs : Field.sub [.ports, .mbx, .stn, .ctl, .plt, .wdg, .fps, .imm, .fca, .mins, .plat, .trace, .spdm, .rings, .views, .awaits, .drbg, .drawn, .led, .dev] fs = true) :
    Frame fs s₀ (State.processLatched s n x) := by
  refine Frame.comp h ?_ hs
  clear h hs
  unfold State.processLatched
  (try dsimp -proj only)
  repeat' (with_reducible first
    | apply Frame.refl | apply State.latchedAct_frame | apply State.mbxIgnored_frame | apply Frame.foldl
    | apply Frame.foldl_fst | decide | intro _ | split)

theorem State.reply_frame {fs : List Field} {s₀ : State} {s : State} {n : Fin 128} {op : Nat} {bs : List Byte}
    (h : Frame fs s₀ s) (hs : Field.sub [.ports] fs = true) :
    Frame fs s₀ (State.reply s n op bs) := by
  refine Frame.comp h ?_ hs
  clear h hs
  unfold State.reply
  (try dsimp -proj only)
  repeat' (with_reducible first
    | apply Frame.refl | apply State.modPort_frame | decide | intro _ | split)

theorem State.shortRead_frame {fs : List Field} {s₀ : State} {s : State} {n : Fin 128} {op : Nat} {len : Nat} {cycles : Nat}
    (h : Frame fs s₀ s) (hs : Field.sub [.ports, .rings] fs = true) :
    Frame fs s₀ (State.shortRead s n op len cycles) := by
  refine Frame.comp h ?_ hs
  clear h hs
  unfold State.shortRead
  (try dsimp -proj only)
  repeat' (with_reducible first
    | apply Frame.refl | apply State.reply_frame | apply State.modPort_frame | apply State.raise_frame | decide | intro _
    | split)

theorem State.tagFailure_frame {fs : List Field} {s₀ : State} {s : State} {n : Fin 128} {dir : Nat} {line : Nat}
    (h : Frame fs s₀ s) (hs : Field.sub [.ports, .stn, .ctl, .wdg, .imm, .plat, .trace, .spdm, .rings, .views, .awaits, .dev] fs = true) :
    Frame fs s₀ (State.tagFailure s n dir line) := by
  refine Frame.comp h ?_ hs
  clear h hs
  unfold State.tagFailure
  (try dsimp -proj only)
  repeat' (with_reducible first
    | apply Frame.refl | apply State.hold_frame | apply State.raise_frame | apply State.summary_frame
    | apply State.modCtl_frame | decide | intro _ | split | apply Frame.put_imm)

theorem State.burstStop_frame {fs : List Field} {s₀ : State} {s : State} {n : Fin 128} {c : BCell}
    (h : Frame fs s₀ s) (hs : Field.sub [.ports, .stn, .ctl, .wdg, .areas, .imm, .fca, .plat, .trace, .spdm, .rings, .views, .awaits, .dev] fs = true) :
    Frame fs s₀ (State.burstStop s n c) := by
  refine Frame.comp h ?_ hs
  clear h hs
  unfold State.burstStop
  (try dsimp -proj only)
  repeat' (with_reducible first
    | apply Frame.refl | apply State.raise_frame | apply State.tagFailure_frame | apply State.modPort_frame
    | apply State.modAreas_frame | decide | intro _ | split | apply Frame.put_imm | apply Frame.put_fca)

theorem State.serveBurst_frame {fs : List Field} {s₀ : State} {s : State} {n : Fin 128} {c : HostCmd} {op : Nat} {a : Nat}
    (h : Frame fs s₀ s) (hs : Field.sub [.ports, .mbx, .stn, .ctl, .wdg, .areas, .imm, .fca, .plat, .trace, .spdm, .rings, .views, .awaits, .dev] fs = true) :
    Frame fs s₀ (State.serveBurst s n c op a) := by
  refine Frame.comp h ?_ hs
  clear h hs
  unfold State.serveBurst
  (try dsimp -proj only)
  repeat' (with_reducible first
    | apply Frame.refl | apply State.closeCdi_frame | apply State.reply_frame | apply State.burstStop_frame
    | apply State.forAll_frame | apply State.touchLine_frame | apply State.placeLine_frame | decide | intro _ | split)

theorem State.undecoded_frame {fs : List Field} {s₀ : State} {s : State} {n : Fin 128}
    (h : Frame fs s₀ s) (hs : Field.sub [.ports] fs = true) :
    Frame fs s₀ (State.undecoded s n) := by
  refine Frame.comp h ?_ hs
  clear h hs
  unfold State.undecoded
  (try dsimp -proj only)
  repeat' (with_reducible first
    | apply Frame.refl | apply State.modPort_frame | decide | intro _ | split)

theorem State.ownOp_frame {fs : List Field} {s₀ : State} {s : State} {n : Fin 128} (h : Frame fs s₀ s) (hs : Field.sub [.ports] fs = true) :
    Frame fs s₀ (State.ownOp s n) := by
  refine Frame.comp h ?_ hs
  clear h hs
  unfold State.ownOp
  (try dsimp -proj only)
  repeat' (with_reducible first
    | apply Frame.refl | apply State.modPort_frame | decide | intro _ | split)

theorem State.mailboxCmd_frame {fs : List Field} {s₀ : State} {s : State} {n : Fin 128} {c : HostCmd} {a : Nat}
    (h : Frame fs s₀ s) (hs : Field.sub [.ports, .mbx, .stn, .ctl, .plt, .wdg, .areas, .fps, .imm, .fca, .mins, .plat, .trace, .spdm, .rings, .views, .awaits, .drbg, .drawn, .led, .dev] fs = true) :
    Frame fs s₀ (State.mailboxCmd s n c a) := by
  refine Frame.comp h ?_ hs
  clear h hs
  unfold State.mailboxCmd
  (try dsimp -proj only)
  repeat' (with_reducible first
    | apply Frame.refl | apply State.mbxProgram_frame | apply State.shortRead_frame | apply State.serveBurst_frame
    | apply State.undecoded_frame | apply State.modPort_frame | apply State.ownOp_frame | decide | intro _ | split)

theorem State.issue_frame {fs : List Field} {s₀ : State} {s : State} {n : Fin 128} {cs : List LocalCmd}
    (h : Frame fs s₀ s) (hs : Field.sub [.fps] fs = true) :
    Frame fs s₀ (State.issue s n cs) := by
  refine Frame.comp h ?_ hs
  clear h hs
  unfold State.issue
  (try dsimp -proj only)
  repeat' (with_reducible first
    | apply Frame.refl | apply State.modFp_frame | decide | intro _ | split)

theorem State.servePass_frame {fs : List Field} {s₀ : State} {s : State} {n : Fin 128} {c : HostCmd} {op : Nat} {a : Nat} {w : Fin 32} {cs : List LocalCmd}
    (h : Frame fs s₀ s) (hs : Field.sub [.ports, .fps] fs = true) :
    Frame fs s₀ (State.servePass s n c op a w cs) := by
  refine Frame.comp h ?_ hs
  clear h hs
  unfold State.servePass
  (try dsimp -proj only)
  repeat' (with_reducible first
    | apply Frame.refl | apply State.issue_frame | apply State.reply_frame | apply State.modPort_frame | decide | intro _
    | split)

theorem State.denied_frame {fs : List Field} {s₀ : State} {s : State} {n : Fin 128} {op : Nat} {addr : Nat} {win : Option (Fin 32)} {r : Reason} {cls : RefClass}
    (h : Frame fs s₀ s) (hs : Field.sub [.stn, .trace, .rings] fs = true) :
    Frame fs s₀ (State.denied s n op addr win r cls) := by
  refine Frame.comp h ?_ hs
  clear h hs
  unfold State.denied
  (try dsimp -proj only)
  repeat' (with_reducible first
    | apply Frame.refl | apply State.summary_frame | apply State.modStn_frame | apply State.raise_frame | decide | intro _
    | split)

theorem State.refuse_frame {fs : List Field} {s₀ : State} {s : State} {n : Fin 128} {c : HostCmd} {op : Nat} {addr : Nat} {win : Option (Fin 32)} {r : Reason} {cls : RefClass} {wel : Bool}
    (h : Frame fs s₀ s) (hs : Field.sub [.ports, .stn, .trace, .rings] fs = true) :
    Frame fs s₀ (State.refuse s n c op addr win r cls wel) := by
  refine Frame.comp h ?_ hs
  clear h hs
  unfold State.refuse
  (try dsimp -proj only)
  repeat' (with_reducible first
    | apply Frame.refl | apply State.denied_frame | apply State.reply_frame | apply State.modPort_frame | decide | intro _
    | split)

theorem State.forward_frame {fs : List Field} {s₀ : State} {s : State} {n : Fin 128} {erase : Bool} {len : Nat} {cs : List LocalCmd}
    (h : Frame fs s₀ s) (hs : Field.sub [.ports, .fps] fs = true) :
    Frame fs s₀ (State.forward s n erase len cs) := by
  refine Frame.comp h ?_ hs
  clear h hs
  unfold State.forward
  (try dsimp -proj only)
  repeat' (with_reducible first
    | apply Frame.refl | apply State.modFp_frame | apply State.issue_frame | apply State.modPort_frame | decide | intro _
    | split)

theorem State.takeTokens_frame {fs : List Field} {s₀ : State} {s : State} {n : Fin 128} {w : Fin 32} {erase : Bool} {cost : Nat}
    (h : Frame fs s₀ s) (hs : Field.sub [.stn] fs = true) :
    Frame fs s₀ (State.takeTokens s n w erase cost) := by
  refine Frame.comp h ?_ hs
  clear h hs
  unfold State.takeTokens
  (try dsimp -proj only)
  repeat' (with_reducible first
    | apply Frame.refl | apply State.modStn_frame | decide | intro _ | split)

theorem State.serveChange_frame {fs : List Field} {s₀ : State} {s : State} {n : Fin 128} {c : HostCmd} {a : Nat} {w : Fin 32} {erase : Bool} {len : Nat} {cost : Nat} {cs : List LocalCmd}
    (h : Frame fs s₀ s) (hs : Field.sub [.ports, .stn, .areas, .fps] fs = true) :
    Frame fs s₀ (State.serveChange s n c a w erase len cost cs) := by
  refine Frame.comp h ?_ hs
  clear h hs
  unfold State.serveChange
  (try dsimp -proj only)
  repeat' (with_reducible first
    | apply Frame.refl | apply State.forward_frame | apply State.takeTokens_frame | apply State.modAreas_frame
    | apply State.ownOp_frame | apply Frame.foldl | apply Frame.foldl_fst | decide | intro _ | split)

theorem State.judgeWindow_frame {fs : List Field} {s₀ : State} {s : State} {n : Fin 128} {op : Nat} {c : HostCmd} {a : Nat} {w : Fin 32} {cls : Nat} {rc : RefClass} {wel : Bool} {len : Nat} {cost : Nat} {frame : Option (List LocalCmd)} {gate : Bool}
    (h : Frame fs s₀ s) (hs : Field.sub [.ports, .mbx, .stn, .ctl, .wdg, .areas, .fps, .imm, .fca, .plat, .trace, .spdm, .rings, .views, .awaits, .dev] fs = true) :
    Frame fs s₀ (State.judgeWindow s n op c a w cls rc wel len cost frame gate) := by
  refine Frame.comp h ?_ hs
  clear h hs
  unfold State.judgeWindow
  (try dsimp -proj only)
  repeat' (with_reducible first
    | apply Frame.refl | apply State.issue_frame | apply State.shortRead_frame | apply State.servePass_frame
    | apply State.serveBurst_frame | apply State.refuse_frame | apply State.serveChange_frame | decide | intro _ | split)

theorem State.executeCmd_frame {fs : List Field} {s₀ : State} {s : State} {n : Fin 128} {op : Nat} {c : HostCmd}
    (h : Frame fs s₀ s) (hs : Field.sub [.ports, .rings] fs = true) :
    Frame fs s₀ (State.executeCmd s n op c) := by
  refine Frame.comp h ?_ hs
  clear h hs
  unfold State.executeCmd
  (try dsimp -proj only)
  repeat' (with_reducible first
    | apply Frame.refl | apply State.shortRead_frame | apply State.reply_frame | apply State.modPort_frame | decide
    | intro _ | split)

theorem State.judgeCmd_frame {fs : List Field} {s₀ s : State} {n : Fin 128} {c : HostCmd} {hasAddr : Bool} {a : Nat}
    (h : Frame fs s₀ s) (hs : Field.sub [.ports, .mbx, .stn, .ctl, .wdg, .areas, .fps, .imm, .fca, .plat, .trace, .spdm, .rings, .views, .awaits, .dev] fs = true) :
    Frame fs s₀ (State.judgeCmd s n c hasAddr a) := by
  refine Frame.comp h ?_ hs
  clear h hs
  unfold State.judgeCmd
  extract_lets p io t ph range winOf r act rcOwn clearWel ruleWin op addr rc
  have hc : ∀ u op, Frame [.ports, .mbx, .stn, .ctl, .wdg, .areas, .fps, .imm, .fca, .plat, .trace, .spdm, .rings, .views, .awaits, .dev] s u → Frame [.ports, .mbx, .stn, .ctl, .wdg, .areas, .fps, .imm, .fca, .plat, .trace, .spdm, .rings, .views, .awaits, .dev] s (clearWel u op) := by
    intro u op hu
    simp only [clearWel]
    repeat' (with_reducible first
      | exact hu | apply State.modPort_frame | decide | split)
  clear_value clearWel p io t ph range winOf r act rcOwn ruleWin op addr rc
  repeat' (with_reducible first
    | apply Frame.refl | apply hc | apply State.refuse_frame | apply State.judgeWindow_frame | apply State.undecoded_frame
    | apply State.executeCmd_frame | decide | (extract_lets; clear_value *) | split)

theorem State.decodeCmd_frame {fs : List Field} {s₀ : State} {s : State} {n : Fin 128} {c : HostCmd}
    (h : Frame fs s₀ s) (hs : Field.sub [.ports, .mbx, .stn, .ctl, .plt, .wdg, .areas, .fps, .imm, .fca, .mins, .plat, .trace, .spdm, .rings, .views, .awaits, .drbg, .drawn, .led, .dev] fs = true) :
    Frame fs s₀ (State.decodeCmd s n c) := by
  refine Frame.comp h ?_ hs
  clear h hs
  unfold State.decodeCmd
  (try dsimp -proj only)
  repeat' (with_reducible first
    | apply Frame.refl | apply State.mailboxCmd_frame | apply State.judgeCmd_frame | apply State.modPort_frame | decide
    | intro _ | split)

theorem State.csRise_frame {fs : List Field} {s₀ : State} {s : State} {n : Fin 128}
    (h : Frame fs s₀ s) (hs : Field.sub [.ports, .stn] fs = true) :
    Frame fs s₀ (State.csRise s n) := by
  refine Frame.comp h ?_ hs
  clear h hs
  unfold State.csRise
  (try dsimp -proj only)
  repeat' (with_reducible first
    | apply Frame.refl | apply State.modStn_frame | apply State.modPort_frame | decide | intro _ | split)

theorem State.host_frame {fs : List Field} {s₀ : State} {s : State} {n : Fin 128} {c : HostCmd}
    (h : Frame fs s₀ s) (hs : Field.sub [.ports, .mbx, .stn, .ctl, .plt, .wdg, .areas, .fps, .imm, .fca, .mins, .plat, .trace, .spdm, .rings, .views, .awaits, .drbg, .drawn, .led, .dev] fs = true) :
    Frame fs s₀ (State.host s n c) := by
  refine Frame.comp h ?_ hs
  clear h hs
  unfold State.host
  (try dsimp -proj only)
  repeat' (with_reducible first
    | apply Frame.refl | apply State.decodeCmd_frame | apply State.reply_frame | apply State.csRise_frame
    | apply State.undecoded_frame | apply State.modPort_frame | decide | intro _ | split)

theorem State.setObjects_frame {fs : List Field} {s₀ : State} {s : State} {objs : List PoolObj}
    (h : Frame fs s₀ s) (hs : Field.sub [.pool, .led] fs = true) :
    Frame fs s₀ (State.setObjects s objs) := by
  refine Frame.comp h ?_ hs
  clear h hs
  unfold State.setObjects
  (try dsimp -proj only)
  repeat' (with_reducible first
    | apply Frame.refl | apply Frame.foldl | apply Frame.foldl_fst | decide | intro _ | split | apply Frame.put_pool_led)

theorem State.storePool_frame {fs : List Field} {s₀ : State} {s : State} {man : List Byte} {img : Memory}
    (h : Frame fs s₀ s) (hs : Field.sub [.pool, .led] fs = true) :
    Frame fs s₀ (State.storePool s man img) := by
  refine Frame.comp h ?_ hs
  clear h hs
  unfold State.storePool
  (try dsimp -proj only)
  repeat' (with_reducible first
    | apply Frame.refl | apply State.setObjects_frame | decide | intro _ | split)

theorem State.commitStaged_frame {fs : List Field} {s₀ : State} {s : State} {n : Fin 128} {p : PlateId} {man : List Byte} {host : Bool} {conf : Bool}
    (h : Frame fs s₀ s) (hs : Field.sub [.plt, .trace, .rings, .led] fs = true) :
    Frame fs s₀ (State.commitStaged s n p man host conf) := by
  refine Frame.comp h ?_ hs
  clear h hs
  unfold State.commitStaged
  (try dsimp -proj only)
  repeat' (with_reducible first
    | apply Frame.refl | apply State.modPlt_frame | apply State.commitPlates_frame | decide | intro _ | split)

theorem State.endDiscovery_frame {fs : List Field} {s₀ : State} {s : State} {f : Fin 64} {r : DiscReport}
    (h : Frame fs s₀ s) (hs : Field.sub [.mbx, .ctl, .plt, .wdg, .fps, .prof, .twl, .imm, .fca, .mins, .plat, .trace, .spdm, .rings, .views, .awaits, .drbg, .drawn, .led, .dev] fs = true) :
    Frame fs s₀ (State.endDiscovery s f r) := by
  refine Frame.comp h ?_ hs
  clear h hs
  unfold State.endDiscovery
  (try dsimp -proj only)
  repeat' (with_reducible first
    | apply Frame.refl | apply State.modFp_frame | apply State.endLines_frame | apply State.resume_frame
    | apply State.resumeHeld_frame | apply State.raise_frame | decide | intro _ | split)

theorem State.shdResult_frame {fs : List Field} {s₀ : State} {s : State} {m : Mgr} {n : Fin 128} {res : BitVec 4} {err : Word}
    (h : Frame fs s₀ s) (hs : Field.sub [.views, .hdrs] fs = true) :
    Frame fs s₀ (State.shdResult s m n res err) := by
  refine Frame.comp h ?_ hs
  clear h hs
  unfold State.shdResult
  (try dsimp -proj only)
  repeat' (with_reducible first
    | apply Frame.refl | apply State.modHdr_frame | decide | intro _ | split)

theorem State.discardShadow_frame {fs : List Field} {s₀ : State} {s : State} {m : Mgr} {n : Fin 128}
    (h : Frame fs s₀ s) (hs : Field.sub [.stn] fs = true) :
    Frame fs s₀ (State.discardShadow s m n) := by
  refine Frame.comp h ?_ hs
  clear h hs
  unfold State.discardShadow
  (try dsimp -proj only)
  repeat' (with_reducible first
    | apply Frame.refl | apply State.modStn_frame | decide | intro _ | split)

theorem State.reqResult_frame {fs : List Field} {s₀ : State} {s : State} {m : Mgr} {n : Fin 128} {r : BitVec 2}
    (h : Frame fs s₀ s) (hs : Field.sub [.stn] fs = true) :
    Frame fs s₀ (State.reqResult s m n r) := by
  refine Frame.comp h ?_ hs
  clear h hs
  unfold State.reqResult
  (try dsimp -proj only)
  repeat' (with_reducible first
    | apply Frame.refl | apply State.modStn_frame | decide | intro _ | split)

theorem State.enterPhase_frame {fs : List Field} {s₀ : State} {s : State} {m : Mgr} {n : Fin 128}
    (h : Frame fs s₀ s) (hs : Field.sub [.mbx, .stn, .trace, .rings] fs = true) :
    Frame fs s₀ (State.enterPhase s m n) := by
  refine Frame.comp h ?_ hs
  clear h hs
  unfold State.enterPhase
  (try dsimp -proj only)
  repeat' (with_reducible first
    | apply Frame.refl | apply State.reqResult_frame | apply State.setPhase_frame | decide | intro _ | split)

theorem State.exitPhase_frame {fs : List Field} {s₀ : State} {s : State} {m : Mgr} {n : Fin 128}
    (h : Frame fs s₀ s) (hs : Field.sub [.mbx, .stn, .trace, .rings] fs = true) :
    Frame fs s₀ (State.exitPhase s m n) := by
  refine Frame.comp h ?_ hs
  clear h hs
  unfold State.exitPhase
  (try dsimp -proj only)
  repeat' (with_reducible first
    | apply Frame.refl | apply State.reqResult_frame | apply State.setPhase_frame | decide | intro _ | split)

theorem State.adoptChanged_frame {fs : List Field} {s₀ : State} {s : State} {n : Fin 128} {t2 : STable}
    (h : Frame fs s₀ s) (hs : Field.sub [.mbx, .stn, .trace, .rings] fs = true) :
    Frame fs s₀ (State.adoptChanged s n t2) := by
  refine Frame.comp h ?_ hs
  clear h hs
  unfold State.adoptChanged
  (try dsimp -proj only)
  repeat' (with_reducible first
    | apply Frame.refl | apply State.adopt_frame | decide | intro _ | split)

theorem State.commitSlot_frame {fs : List Field} {s₀ : State} {s : State} {m : Mgr} {n : Fin 128} {rival : Bool}
    (h : Frame fs s₀ s) (hs : Field.sub [.mbx, .stn, .trace, .rings, .views, .hdrs] fs = true) :
    Frame fs s₀ (State.commitSlot s m n rival) := by
  refine Frame.comp h ?_ hs
  clear h hs
  unfold State.commitSlot
  (try dsimp -proj only)
  repeat' (with_reducible first
    | apply Frame.refl | apply State.adoptChanged_frame | apply State.discardShadow_frame | apply State.shdResult_frame
    | decide | intro _ | split)

theorem State.requestCommit_frame {fs : List Field} {s₀ : State} {s : State} {m : Mgr} {n : Fin 128}
    (h : Frame fs s₀ s) (hs : Field.sub [.views, .hdrs] fs = true) :
    Frame fs s₀ (State.requestCommit s m n) := by
  refine Frame.comp h ?_ hs
  clear h hs
  unfold State.requestCommit
  (try dsimp -proj only)
  repeat' (with_reducible first
    | apply Frame.refl | apply State.ignoredWrite_frame | apply State.modHdr_frame | decide | intro _ | split)

theorem State.mbxPage_frame {fs : List Field} {s₀ : State} {s : State} {n : Fin 128} {off : Nat} {bytes : List Byte}
    (h : Frame fs s₀ s) (hs : Field.sub [.ports, .mbx, .stn, .ctl, .plt, .wdg, .areas, .fps, .imm, .fca, .mins, .plat, .trace, .spdm, .rings, .views, .awaits, .drbg, .drawn, .led, .dev] fs = true) :
    Frame fs s₀ (State.mbxPage s n off bytes) := by
  refine Frame.comp h ?_ hs
  clear h hs
  unfold State.mbxPage
  (try dsimp -proj only)
  repeat' (with_reducible first
    | apply Frame.refl | apply State.host_frame | decide | intro _ | split)

theorem State.endForwarded_frame {fs : List Field} {s₀ : State} {s : State} {f : Fin 64} {o : LocalOp} {failed : Bool}
    (h : Frame fs s₀ s) (hs : Field.sub [.ports, .stn] fs = true) :
    Frame fs s₀ (State.endForwarded s f o failed) := by
  refine Frame.comp h ?_ hs
  clear h hs
  unfold State.endForwarded
  (try dsimp -proj only)
  repeat' (with_reducible first
    | apply Frame.refl | apply State.modStn_frame | apply State.modPort_frame | decide | intro _ | split)

theorem State.takeRebuilt_frame {fs : List Field} {s₀ : State} {s : State} {e : Impression} {ev : TakeEv}
    (h : Frame fs s₀ s) (hs : Field.sub [.pool] fs = true) :
    Frame fs s₀ (State.takeRebuilt s e ev) := by
  refine Frame.comp h ?_ hs
  clear h hs
  unfold State.takeRebuilt
  (try dsimp -proj only)
  repeat' (with_reducible first
    | apply Frame.refl | apply State.countRebuilt_frame | decide | intro _ | split)

theorem State.releaseLost_frame {fs : List Field} {s₀ : State} {s : State} {i : Fin 256}
    (h : Frame fs s₀ s) (hs : Field.sub [.mbx, .ctl, .plt, .wdg, .imm, .fca, .mins, .trace, .spdm, .rings, .views, .awaits, .drbg, .drawn, .led, .dev] fs = true) :
    Frame fs s₀ (State.releaseLost s i) := by
  refine Frame.comp h ?_ hs
  clear h hs
  unfold State.releaseLost
  (try dsimp -proj only)
  repeat' (with_reducible first
    | apply Frame.refl | apply State.startTaking_frame | apply State.forChans_frame | decide | intro _ | split)

theorem State.lanesCorrected_frame {fs : List Field} {s₀ : State} {s : State} {ev : TakeEv}
    (h : Frame fs s₀ s) (hs : Field.sub [.farm, .rings] fs = true) :
    Frame fs s₀ (State.lanesCorrected s ev) := by
  refine Frame.comp h ?_ hs
  clear h hs
  unfold State.lanesCorrected
  (try dsimp -proj only)
  repeat' (with_reducible first
    | apply Frame.refl | apply State.laneOut_frame | apply State.forAll_frame | decide | intro _ | split)

theorem State.switchCopy_frame {fs : List Field} {s₀ : State} {s : State} {i : Fin 256} {ev : TakeEv}
    (h : Frame fs s₀ s) (hs : Field.sub [.mbx, .ctl, .plt, .wdg, .imm, .fca, .farm, .pool, .mins, .trace, .spdm, .rings, .views, .awaits, .drbg, .drawn, .led, .dev] fs = true) :
    Frame fs s₀ (State.switchCopy s i ev) := by
  refine Frame.comp h ?_ hs
  clear h hs
  unfold State.switchCopy
  (try dsimp -proj only)
  repeat' (with_reducible first
    | apply Frame.refl | apply State.forAll_frame | apply State.dropLines_frame | apply State.damage_frame
    | apply State.allocExtents_frame | apply State.log_frame | apply State.takeRebuilt_frame
    | apply State.releaseLost_frame | apply State.lanesCorrected_frame | apply State.modDir_frame | decide | intro _
    | split | apply Frame.put_imm)

theorem State.patrolStep_frame {fs : List Field} {s₀ : State} {s : State} (h : Frame fs s₀ s) (hs : Field.sub [.imm] fs = true) :
    Frame fs s₀ (State.patrolStep s) := by
  refine Frame.comp h ?_ hs
  clear h hs
  unfold State.patrolStep
  (try dsimp -proj only)
  repeat' (with_reducible first
    | apply Frame.refl | decide | intro _ | split | apply Frame.put_imm)

theorem State.takeFails_frame {fs : List Field} {s₀ : State} {s : State} {i : Fin 256} {st : Status} {leaf : Nat}
    (h : Frame fs s₀ s) (hs : Field.sub [.mbx, .ctl, .plt, .wdg, .imm, .fca, .mins, .trace, .spdm, .rings, .views, .awaits, .drbg, .drawn, .led, .dev] fs = true) :
    Frame fs s₀ (State.takeFails s i st leaf) := by
  refine Frame.comp h ?_ hs
  clear h hs
  unfold State.takeFails
  (try dsimp -proj only)
  repeat' (with_reducible first
    | apply Frame.refl | apply State.log_frame | apply State.freeEntry_frame | apply State.resumeEntry_frame | decide
    | intro _ | split)

theorem State.retakeTaking_frame {fs : List Field} {s₀ : State} {s : State} {i : Fin 256}
    (h : Frame fs s₀ s) (hs : Field.sub [.mbx, .ctl, .plt, .wdg, .imm, .fca, .mins, .trace, .spdm, .rings, .views, .awaits, .drbg, .drawn, .led, .dev] fs = true) :
    Frame fs s₀ (State.retakeTaking s i) := by
  refine Frame.comp h ?_ hs
  clear h hs
  unfold State.retakeTaking
  (try dsimp -proj only)
  repeat' (with_reducible first
    | apply Frame.refl | apply State.takeFails_frame | apply State.allocExtents_frame | apply State.modDir_frame | decide
    | intro _ | split)

end Sys2Proof.Machine
end

