-- ==== Sys2Proof/Laws/FramesControl.lean ====
section
/-! SUPPORT. What each shared operation can change: releases, Ovdel orders, resets, records, device firmware and configuration.
`X_frame` says that the operation X changes nothing but the parts in its list; it is stated from any earlier state, so that frames
compose by application. -/

namespace Sys2Proof.Machine

theorem State.requestRelease_frame {fs : List Field} {s₀ : State} {s : State} {n : Fin 128}
    (h : Frame fs s₀ s) (hs : Field.sub [.ctl, .plat] fs = true) :
    Frame fs s₀ (State.requestRelease s n) := by
  refine Frame.comp h ?_ hs
  clear h hs
  unfold State.requestRelease
  (try dsimp -proj only)
  repeat' (with_reducible first
    | apply Frame.refl | apply State.modCtl_frame | decide | intro _ | split | apply Frame.put_plat)

theorem State.loadAreas_frame {fs : List Field} {s₀ : State} {s : State} {n : Fin 128}
    (h : Frame fs s₀ s) (hs : Field.sub [.ctl, .prof] fs = true) :
    Frame fs s₀ (State.loadAreas s n) := by
  refine Frame.comp h ?_ hs
  clear h hs
  unfold State.loadAreas
  (try dsimp -proj only)
  repeat' (with_reducible first
    | apply Frame.refl | apply State.modCtl_frame | decide | intro _ | split | apply Frame.put_prof)

theorem State.restoreKeep_frame {fs : List Field} {s₀ : State} {s : State} {n : Fin 128}
    (h : Frame fs s₀ s) (hs : Field.sub [.areas] fs = true) :
    Frame fs s₀ (State.restoreKeep s n) := by
  refine Frame.comp h ?_ hs
  clear h hs
  unfold State.restoreKeep
  (try dsimp -proj only)
  repeat' (with_reducible first
    | apply Frame.refl | apply State.modAreas_frame | decide | intro _ | split)

theorem State.deriveIdentity_frame {fs : List Field} {s₀ : State} {s : State} {n : Fin 128}
    (h : Frame fs s₀ s) (hs : Field.sub [.mbx, .wdg, .drbg, .drawn] fs = true) :
    Frame fs s₀ (State.deriveIdentity s n) := by
  refine Frame.comp h ?_ hs
  clear h hs
  unfold State.deriveIdentity
  (try dsimp -proj only)
  repeat' (with_reducible first
    | apply Frame.refl | apply State.modWdg_frame | apply State.modMbx_frame | apply State.drawGeneral_frame | decide
    | intro _ | split)

theorem State.becomeReady_frame {fs : List Field} {s₀ : State} {s : State} {n : Fin 128}
    (h : Frame fs s₀ s) (hs : Field.sub [.mbx, .ctl, .wdg, .areas, .prof, .plat, .trace, .spdm, .rings, .views, .awaits, .drbg, .drawn, .dev] fs = true) :
    Frame fs s₀ (State.becomeReady s n) := by
  refine Frame.comp h ?_ hs
  clear h hs
  unfold State.becomeReady
  (try dsimp -proj only)
  repeat' (with_reducible first
    | apply Frame.refl | apply State.requestRelease_frame | apply State.transition_frame | apply State.loadAreas_frame
    | apply State.restoreKeep_frame | apply State.answerAll_frame | apply State.deriveIdentity_frame | decide | intro _
    | split | apply Frame.put_plat)

theorem State.releaseProof_frame {fs : List Field} {s₀ : State} {s : State} {n : Fin 128}
    (h : Frame fs s₀ s) (hs : Field.sub [.plt] fs = true) :
    Frame fs s₀ (State.releaseProof s n) := by
  refine Frame.comp h ?_ hs
  clear h hs
  unfold State.releaseProof
  (try dsimp -proj only)
  repeat' (with_reducible first
    | apply Frame.refl | apply State.modPlt_frame | decide | intro _ | split)

theorem State.releaseWdg_frame {fs : List Field} {s₀ : State} {s : State} {n : Fin 128}
    (h : Frame fs s₀ s) (hs : Field.sub [.mbx, .wdg, .trace, .rings, .drbg, .drawn] fs = true) :
    Frame fs s₀ (State.releaseWdg s n) := by
  refine Frame.comp h ?_ hs
  clear h hs
  unfold State.releaseWdg
  (try dsimp -proj only)
  repeat' (with_reducible first
    | apply Frame.refl | apply State.modWdg_frame | apply State.newWindow_frame | apply State.publish_frame
    | apply State.arm_frame | decide | intro _ | split)

theorem State.releaseMeas_frame {fs : List Field} {s₀ : State} {s : State} {n : Fin 128} {st : ChState} {cause : Cause} {old : Phase}
    (h : Frame fs s₀ s) (hs : Field.sub [.mbx, .trace, .rings] fs = true) :
    Frame fs s₀ (State.releaseMeas s n st cause old) := by
  refine Frame.comp h ?_ hs
  clear h hs
  unfold State.releaseMeas
  (try dsimp -proj only)
  repeat' (with_reducible first
    | apply Frame.refl | apply State.modMbx_frame | apply State.extend_frame | apply State.raise_frame | decide | intro _
    | split)

theorem State.release_frame {fs : List Field} {s₀ : State} {s : State} {n : Fin 128}
    (h : Frame fs s₀ s) (hs : Field.sub [.ports, .mbx, .stn, .ctl, .plt, .wdg, .areas, .prof, .plat, .trace, .spdm, .rings, .views, .awaits, .drbg, .drawn, .dev] fs = true) :
    Frame fs s₀ (State.release s n) := by
  refine Frame.comp h ?_ hs
  clear h hs
  unfold State.release
  (try dsimp -proj only)
  repeat' (with_reducible first
    | apply Frame.refl | apply State.releaseProof_frame | apply State.modStn_frame | apply State.loadAreas_frame
    | apply State.releaseWdg_frame | apply State.modPort_frame | apply State.modMbx_frame | apply State.csRise_frame
    | apply State.transition_frame | apply State.releaseMeas_frame | apply State.answerAll_frame
    | apply State.modAreas_frame | apply State.modCtl_frame | decide | intro _ | split | apply Frame.put_plat)

theorem State.deliver_frame {fs : List Field} {s₀ : State} {s : State} {src : Src} {a : Answer}
    (h : Frame fs s₀ s) (hs : Field.sub [.rings, .views, .awaits, .dev] fs = true) :
    Frame fs s₀ (State.deliver s src a) := by
  refine Frame.comp h ?_ hs
  clear h hs
  unfold State.deliver
  (try dsimp -proj only)
  repeat' (with_reducible first
    | apply Frame.refl | apply State.finish_frame | apply State.toBuffer_frame | decide | intro _ | split)

theorem State.noteCommit_frame {fs : List Field} {s t : State} {src : Src} (h : Frame fs s t) : Frame fs s (State.noteCommit t s src) := by
  unfold State.noteCommit
  split
  · exact h
  · rename_i hne
    by_cases hl : Field.led ∈ fs
    · exact Frame.put_led h hl
    · exact absurd (congrArg Ledger.commits (h .led hl)) hne

theorem State.ovdelOr_frame {fs : List Field} {s : State} {src : Src} {g : Gate} {refuse : Status → Nat → State → State}
    {body : State → State} {s₀ : State} (h₀ : Frame fs s₀ s) (hs : Field.sub [.rings, .views] fs = true)
    (hr : ∀ st i s, Frame fs s (refuse st i s)) (h : ∀ s, Frame fs s (body s)) : Frame fs s₀ (State.ovdelOr s src g refuse body) := by
  refine Frame.comp h₀ ?_ (Field.sub_refl _)
  unfold State.ovdelOr
  split
  · exact Frame.refl _ _
  · split
    · exact hr _ _ _
    · split
      · exact State.noteCommit_frame (h _)
      · exact Frame.comp (State.ringDmaFailed_frame (Frame.refl _ _) hs) (hr _ _ _) (Field.sub_refl _)
    · exact State.noteCommit_frame (h _)

theorem State.ovdel_frame {fs : List Field} {s : State} {src : Src} {g : Gate} {body : State → State} {s₀ : State} (h₀ : Frame fs s₀ s) (hs : Field.sub [.rings, .views, .awaits, .dev] fs = true)
    (h : ∀ s, Frame fs s (body s)) :
    Frame fs s₀ (State.ovdel s src g body) := by
  refine Frame.comp h₀ ?_ (Field.sub_refl _)
  unfold State.ovdel
  (try dsimp -proj only)
  repeat' (with_reducible first
    | apply Frame.refl | assumption | apply h | (refine Field.sub_trans ?_ hs; decide) | apply State.deliver_frame
    | apply State.ovdelOr_frame | split | intro _)

theorem State.withChan_frame {fs : List Field} {s : State} {src : Src} {ch : Half} {body : Fin 128 → State → State} {s₀ : State} (h₀ : Frame fs s₀ s) (hs : Field.sub [.rings, .views, .awaits, .dev] fs = true)
    (h : ∀ p s, Frame fs s (body p s)) :
    Frame fs s₀ (State.withChan s src ch body) := by
  refine Frame.comp h₀ ?_ (Field.sub_refl _)
  unfold State.withChan
  (try dsimp -proj only)
  repeat' (with_reducible first
    | apply Frame.refl | assumption | apply h | (refine Field.sub_trans ?_ hs; decide) | apply State.deliver_frame | split
    | intro _)

theorem State.orderQuarantine_frame {fs : List Field} {s₀ : State} {s : State} {who : Asker} {n : Fin 128}
    (h : Frame fs s₀ s) (hs : Field.sub [.ports, .stn, .ctl, .plt, .wdg, .prof, .twl, .imm, .plat, .trace, .spdm, .rings, .views, .awaits, .led, .dev] fs = true) :
    Frame fs s₀ (State.orderQuarantine s who n) := by
  refine Frame.comp h ?_ hs
  clear h hs
  unfold State.orderQuarantine
  (try dsimp -proj only)
  repeat' (with_reducible first
    | apply Frame.refl | apply State.answer_frame | apply State.endLines_frame | apply State.leave_frame | decide
    | intro _ | split)

theorem State.orderReadmit_frame {fs : List Field} {s₀ : State} {s : State} {who : Asker} {n : Fin 128}
    (h : Frame fs s₀ s) (hs : Field.sub [.ports, .stn, .ctl, .wdg, .plat, .trace, .spdm, .rings, .views, .awaits, .dev] fs = true) :
    Frame fs s₀ (State.orderReadmit s who n) := by
  refine Frame.comp h ?_ hs
  clear h hs
  unfold State.orderReadmit
  (try dsimp -proj only)
  repeat' (with_reducible first
    | apply Frame.refl | apply State.hold_frame | apply State.answer_frame | decide | intro _ | split)

theorem State.orderHold_frame {fs : List Field} {s₀ : State} {s : State} {who : Asker} {n : Fin 128}
    (h : Frame fs s₀ s) (hs : Field.sub [.ports, .stn, .ctl, .wdg, .prof, .twl, .plat, .trace, .spdm, .rings, .views, .awaits, .dev] fs = true) :
    Frame fs s₀ (State.orderHold s who n) := by
  refine Frame.comp h ?_ hs
  clear h hs
  unfold State.orderHold
  (try dsimp -proj only)
  repeat' (with_reducible first
    | apply Frame.refl | apply State.hold_frame | apply State.endLines_frame | apply State.answerAll_frame
    | apply State.answer_frame | apply State.wait_frame | decide | intro _ | split)

theorem State.releaseSafe_frame {fs : List Field} {s₀ : State} {s : State} {n : Fin 128}
    (h : Frame fs s₀ s) (hs : Field.sub [.mbx, .ctl, .plt, .wdg, .imm, .fca, .mins, .trace, .spdm, .rings, .views, .awaits, .drbg, .drawn, .led, .dev] fs = true) :
    Frame fs s₀ (State.releaseSafe s n) := by
  refine Frame.comp h ?_ hs
  clear h hs
  unfold State.releaseSafe
  (try dsimp -proj only)
  repeat' (with_reducible first
    | apply Frame.refl | apply State.startTaking_frame | apply State.clearConsec_frame | decide | intro _ | split
    | apply Frame.put_led)

theorem State.orderRelease_frame {fs : List Field} {s₀ : State} {s : State} {who : Asker} {n : Fin 128}
    (h : Frame fs s₀ s) (hs : Field.sub [.mbx, .ctl, .plt, .wdg, .imm, .fca, .mins, .trace, .spdm, .rings, .views, .awaits, .drbg, .drawn, .led, .dev] fs = true) :
    Frame fs s₀ (State.orderRelease s who n) := by
  refine Frame.comp h ?_ hs
  clear h hs
  unfold State.orderRelease
  (try dsimp -proj only)
  repeat' (with_reducible first
    | apply Frame.refl | apply State.startTaking_frame | apply State.answer_frame | apply State.releaseSafe_frame
    | apply State.wait_frame | decide | intro _ | split)

theorem State.orderRestart_frame {fs : List Field} {s₀ : State} {s : State} {who : Asker} {n : Fin 128}
    (h : Frame fs s₀ s) (hs : Field.sub [.ports, .stn, .ctl, .wdg, .plat, .trace, .spdm, .rings, .views, .awaits, .dev] fs = true) :
    Frame fs s₀ (State.orderRestart s who n) := by
  refine Frame.comp h ?_ hs
  clear h hs
  unfold State.orderRestart
  (try dsimp -proj only)
  repeat' (with_reducible first
    | apply Frame.refl | apply State.restartSeq_frame | apply State.answer_frame | apply State.wait_frame | decide
    | intro _ | split)

theorem State.order_frame {fs : List Field} {s₀ : State} {s : State} {who : Asker} {m : Mgr} {n : Fin 128} {o : Order} {rival : Option Order} {deviceHold : Bool}
    (h : Frame fs s₀ s) (hs : Field.sub [.ports, .mbx, .stn, .ctl, .plt, .wdg, .prof, .twl, .imm, .fca, .mins, .plat, .trace, .spdm, .rings, .views, .awaits, .drbg, .drawn, .led, .dev] fs = true) :
    Frame fs s₀ (State.order s who m n o rival deviceHold) := by
  refine Frame.comp h ?_ hs
  clear h hs
  unfold State.order
  (try dsimp -proj only)
  repeat' (with_reducible first
    | apply Frame.refl | apply State.orderQuarantine_frame | apply State.orderReadmit_frame | apply State.orderHold_frame
    | apply State.orderRelease_frame | apply State.answer_frame | apply State.orderRestart_frame | decide | intro _
    | split)

theorem State.regOrder_frame {fs : List Field} {s₀ : State} {s : State} {m : Mgr} {n : Fin 128} {o : Order} {rival : Option Order} {deviceHold : Bool}
    (h : Frame fs s₀ s) (hs : Field.sub [.ports, .mbx, .stn, .ctl, .plt, .wdg, .prof, .twl, .imm, .fca, .mins, .plat, .trace, .spdm, .rings, .views, .awaits, .drbg, .drawn, .led, .dev] fs = true) :
    Frame fs s₀ (State.regOrder s m n o rival deviceHold) := by
  refine Frame.comp h ?_ hs
  clear h hs
  unfold State.regOrder
  (try dsimp -proj only)
  repeat' (with_reducible first
    | apply Frame.refl | apply State.order_frame | apply State.modCtl_frame | apply State.wait_frame | decide | intro _
    | split)

theorem State.waitedOrders_frame {fs : List Field} {s₀ : State} {s : State}
    (h : Frame fs s₀ s) (hs : Field.sub [.ports, .mbx, .stn, .ctl, .plt, .wdg, .prof, .twl, .imm, .fca, .mins, .plat, .trace, .spdm, .rings, .views, .awaits, .drbg, .drawn, .led, .dev] fs = true) :
    Frame fs s₀ (State.waitedOrders s) := by
  refine Frame.comp h ?_ hs
  clear h hs
  unfold State.waitedOrders
  (try dsimp -proj only)
  repeat' (with_reducible first
    | apply Frame.refl | apply State.order_frame | apply State.forAll_frame | decide | intro _ | split
    | apply Frame.put_awaits)

theorem State.shadowStep_frame {fs : List Field} {s₀ : State} {s : State}
    (h : Frame fs s₀ s) (hs : Field.sub [.rings, .otp, .part, .clk] fs = true) :
    Frame fs s₀ (State.shadowStep s) := by
  refine Frame.comp h ?_ hs
  clear h hs
  unfold State.shadowStep
  (try dsimp -proj only)
  repeat' (with_reducible first
    | apply Frame.refl | apply State.forAll_frame | apply State.raise_frame | decide | intro _ | split
    | apply Frame.put_otp_part_clk)

theorem State.endSessions_frame {fs : List Field} {s₀ : State} {s : State} (h : Frame fs s₀ s) (hs : Field.sub [.spdm] fs = true) :
    Frame fs s₀ (State.endSessions s) := by
  refine Frame.comp h ?_ hs
  clear h hs
  unfold State.endSessions
  (try dsimp -proj only)
  repeat' (with_reducible first
    | apply Frame.refl | decide | intro _ | split | apply Frame.put_spdm)

theorem State.warmChan_frame {fs : List Field} {s₀ : State} {s : State} {n : Fin 128}
    (h : Frame fs s₀ s) (hs : Field.sub [.ctl, .trace, .rings] fs = true) :
    Frame fs s₀ (State.warmChan s n) := by
  refine Frame.comp h ?_ hs
  clear h hs
  unfold State.warmChan
  (try dsimp -proj only)
  repeat' (with_reducible first
    | apply Frame.refl | apply State.transition_frame | apply State.modCtl_frame | decide | intro _ | split)

theorem State.warmClear_frame {fs : List Field} {s₀ : State} {s : State}
    (h : Frame fs s₀ s) (hs : Field.sub [.ports, .mbx, .stn, .ctl, .plt, .wdg, .areas, .fps, .imm, .fca, .farm, .pool, .devfw, .plat, .intw, .trace, .att, .spdm, .rings, .views, .hdrs, .burin, .hash, .drbg, .keys, .tamper, .otp, .power, .led, .dev] fs = true) :
    Frame fs s₀ (State.warmClear s) := by
  refine Frame.comp h ?_ hs
  clear h hs
  unfold State.warmClear
  (try dsimp -proj only)
  repeat' (with_reducible first
    | apply Frame.refl | apply State.endSessions_frame | apply State.forChans_frame | apply State.warmChan_frame
    | apply State.sinkAll_frame | decide | intro _ | split
    | apply Frame.put_ports_mbx_stn_plt_wdg_areas_fps_imm_fca_farm_pool_devfw_plat_intw_trace_att_rings_views_hdrs_burin_hash_drbg_keys_tamper_otp_power_led_dev)

theorem State.warmInto_frame {fs : List Field} {s₀ : State} {s : State} {cause : Option Nat} {d : DevState}
    (h : Frame fs s₀ s) (hs : Field.sub [.ports, .mbx, .stn, .ctl, .plt, .wdg, .areas, .fps, .imm, .fca, .farm, .pool, .devfw, .plat, .intw, .trace, .att, .spdm, .rings, .views, .hdrs, .burin, .hash, .drbg, .keys, .tamper, .otp, .power, .led, .dev] fs = true) :
    Frame fs s₀ (State.warmInto s cause d) := by
  refine Frame.comp h ?_ hs
  clear h hs
  unfold State.warmInto
  (try dsimp -proj only)
  repeat' (with_reducible first
    | apply Frame.refl | apply State.warmClear_frame | apply State.setDev_frame | decide | intro _ | split
    | apply Frame.put_dev)

theorem State.warmReset_frame {fs : List Field} {s₀ : State} {s : State} {cause : Option Nat}
    (h : Frame fs s₀ s) (hs : Field.sub [.ports, .mbx, .stn, .ctl, .plt, .wdg, .areas, .fps, .imm, .fca, .farm, .pool, .devfw, .plat, .intw, .trace, .att, .spdm, .rings, .views, .hdrs, .burin, .hash, .drbg, .keys, .tamper, .otp, .power, .led, .dev] fs = true) :
    Frame fs s₀ (State.warmReset s cause) := by
  refine Frame.comp h ?_ hs
  clear h hs
  unfold State.warmReset
  (try dsimp -proj only)
  repeat' (with_reducible first
    | apply Frame.refl | apply State.warmInto_frame | decide | intro _ | split)

theorem State.enterSafeHold_frame {fs : List Field} {s₀ : State} {s : State}
    (h : Frame fs s₀ s) (hs : Field.sub [.ports, .stn, .ctl, .wdg, .plat, .trace, .spdm, .rings, .views, .awaits, .dev] fs = true) :
    Frame fs s₀ (State.enterSafeHold s) := by
  refine Frame.comp h ?_ hs
  clear h hs
  unfold State.enterSafeHold
  (try dsimp -proj only)
  repeat' (with_reducible first
    | apply Frame.refl | apply State.assertFail_frame | apply State.keepLines_frame | apply State.deviceHoldAll_frame
    | apply State.setDev_frame | decide | intro _ | split | apply Frame.put_plat_dev)

theorem State.noteStep_frame {fs : List Field} {s₀ : State} {s : State} {src : Nat} {step : Nat}
    (h : Frame fs s₀ s) (hs : Field.sub [.intw, .trace, .rings] fs = true) :
    Frame fs s₀ (State.noteStep s src step) := by
  refine Frame.comp h ?_ hs
  clear h hs
  unfold State.noteStep
  (try dsimp -proj only)
  repeat' (with_reducible first
    | apply Frame.refl | apply State.log_frame | apply State.raise_frame | decide | intro _ | split
    | apply Frame.put_intw)

theorem State.ccRestart_frame {fs : List Field} {s₀ : State} {s : State} {cause : Nat}
    (h : Frame fs s₀ s) (hs : Field.sub [.plat, .trace, .spdm, .rings, .burin, .otp, .dev] fs = true) :
    Frame fs s₀ (State.ccRestart s cause) := by
  refine Frame.comp h ?_ hs
  clear h hs
  unfold State.ccRestart
  (try dsimp -proj only)
  repeat' (with_reducible first
    | apply Frame.refl | apply State.endSessions_frame | apply State.setDev_frame | apply State.raise_frame | decide
    | intro _ | split | apply Frame.put_burin_otp_dev | apply Frame.put_plat)

theorem State.countInternal_frame {fs : List Field} {s₀ : State} {s : State} {src : Nat}
    (h : Frame fs s₀ s) (hs : Field.sub [.intw] fs = true) :
    Frame fs s₀ (State.countInternal s src) := by
  refine Frame.comp h ?_ hs
  clear h hs
  unfold State.countInternal
  (try dsimp -proj only)
  repeat' (with_reducible first
    | apply Frame.refl | decide | intro _ | split | apply Frame.put_intw)

theorem State.enterRecoveryDevice_frame {fs : List Field} {s₀ : State} {s : State}
    (h : Frame fs s₀ s) (hs : Field.sub [.ctl, .plat, .trace, .rings, .dev] fs = true) :
    Frame fs s₀ (State.enterRecoveryDevice s) := by
  refine Frame.comp h ?_ hs
  clear h hs
  unfold State.enterRecoveryDevice
  (try dsimp -proj only)
  repeat' (with_reducible first
    | apply Frame.refl | apply State.assertFail_frame | apply State.setDev_frame | apply State.sinkAll_frame | decide
    | intro _ | split)

theorem State.logDevice_frame {fs : List Field} {s₀ : State} {s : State} {kind : Nat} {x : Nat}
    (h : Frame fs s₀ s) (hs : Field.sub [.trace] fs = true) :
    Frame fs s₀ (State.logDevice s kind x) := by
  refine Frame.comp h ?_ hs
  clear h hs
  unfold State.logDevice
  (try dsimp -proj only)
  repeat' (with_reducible first
    | apply Frame.refl | apply State.log_frame | decide | intro _ | split)

theorem State.runFw_frame {fs : List Field} {s₀ : State} {s : State} {p : PlateId} {proof : Bool}
    (h : Frame fs s₀ s) (hs : Field.sub [.devfw, .att, .otp] fs = true) :
    Frame fs s₀ (State.runFw s p proof) := by
  refine Frame.comp h ?_ hs
  clear h hs
  unfold State.runFw
  (try dsimp -proj only)
  repeat' (with_reducible first
    | apply Frame.refl | decide | intro _ | split | apply Frame.put_devfw_att_otp)

theorem State.commitFwTable_frame {fs : List Field} {s₀ : State} {s : State} {t1 : PTable}
    (h : Frame fs s₀ s) (hs : Field.sub [.devfw, .led] fs = true) :
    Frame fs s₀ (State.commitFwTable s t1) := by
  refine Frame.comp h ?_ hs
  clear h hs
  unfold State.commitFwTable
  (try dsimp -proj only)
  repeat' (with_reducible first
    | apply Frame.refl | apply State.committed_frame | decide | intro _ | split | apply Frame.put_devfw)

theorem State.commitFw_frame {fs : List Field} {s₀ : State} {s : State} {t1 : PTable}
    (h : Frame fs s₀ s) (hs : Field.sub [.devfw, .led] fs = true) :
    Frame fs s₀ (State.commitFw s t1) := by
  refine Frame.comp h ?_ hs
  clear h hs
  unfold State.commitFw
  (try dsimp -proj only)
  repeat' (with_reducible first
    | apply Frame.refl | apply State.commitFwTable_frame | decide | intro _ | split)

theorem State.revertFw_frame {fs : List Field} {s₀ : State} {s : State} {cause : Nat}
    (h : Frame fs s₀ s) (hs : Field.sub [.ports, .mbx, .stn, .ctl, .plt, .wdg, .areas, .fps, .imm, .fca, .farm, .pool, .devfw, .plat, .intw, .trace, .att, .spdm, .rings, .views, .hdrs, .burin, .hash, .drbg, .keys, .tamper, .otp, .power, .led, .dev] fs = true) :
    Frame fs s₀ (State.revertFw s cause) := by
  refine Frame.comp h ?_ hs
  clear h hs
  unfold State.revertFw
  (try dsimp -proj only)
  repeat' (with_reducible first
    | apply Frame.refl | apply State.ccRestart_frame | apply State.warmClear_frame | apply State.raise_frame
    | apply State.enterRecoveryDevice_frame | apply State.logDevice_frame | apply State.runFw_frame
    | apply State.commitFw_frame | decide | intro _ | split | apply Frame.put_devfw | apply Frame.put_led)

theorem State.internalExpiry_frame {fs : List Field} {s₀ : State} {s : State} {src : Nat} {cluster : Bool}
    (h : Frame fs s₀ s) (hs : Field.sub [.ports, .mbx, .stn, .ctl, .plt, .wdg, .areas, .fps, .imm, .fca, .farm, .pool, .devfw, .plat, .intw, .trace, .att, .spdm, .rings, .views, .awaits, .hdrs, .burin, .hash, .drbg, .keys, .tamper, .otp, .power, .led, .dev] fs = true) :
    Frame fs s₀ (State.internalExpiry s src cluster) := by
  refine Frame.comp h ?_ hs
  clear h hs
  unfold State.internalExpiry
  (try dsimp -proj only)
  repeat' (with_reducible first
    | apply Frame.refl | apply State.warmReset_frame | apply State.enterSafeHold_frame | apply State.noteStep_frame
    | apply State.ccRestart_frame | apply State.countInternal_frame | apply State.revertFw_frame | decide | intro _
    | split)

theorem State.coldReset_frame {fs : List Field} {s₀ s : State} {cause : Nat} (h : Frame fs s₀ s)
    (hs : Field.sub [.now, .ports, .mbx, .stn, .ctl, .plt, .wdg, .areas, .fps, .pol, .prof, .profCfg, .dcfg, .twl, .poolProf, .imm, .fca, .farm, .pool, .devfw, .plat, .mwd, .intw, .trace, .att, .spdm, .i3c, .rings, .arb, .views, .awaits, .hdrs, .burin, .hash, .drbg, .keys, .tamper, .otp, .part, .power, .clk, .led, .dev] fs = true) :
    Frame fs s₀ (s.coldReset cause) := by
  refine Frame.comp h ?_ hs
  intro f hf
  cases f <;> first | exact absurd (by decide) hf | rfl

theorem State.acceptFw_frame {fs : List Field} {s₀ : State} {s : State} {by_ : Nat}
    (h : Frame fs s₀ s) (hs : Field.sub [.devfw, .trace, .rings, .led] fs = true) :
    Frame fs s₀ (State.acceptFw s by_) := by
  refine Frame.comp h ?_ hs
  clear h hs
  unfold State.acceptFw
  (try dsimp -proj only)
  repeat' (with_reducible first
    | apply Frame.refl | apply State.logDevice_frame | apply State.commitFw_frame | apply State.raise_frame | decide
    | intro _ | split | apply Frame.put_devfw)

theorem State.fwReadTable_frame {fs : List Field} {s₀ : State} {s : State}
    (h : Frame fs s₀ s) (hs : Field.sub [.devfw, .rings, .led] fs = true) :
    Frame fs s₀ (State.fwReadTable s) := by
  refine Frame.comp h ?_ hs
  clear h hs
  unfold State.fwReadTable
  (try dsimp -proj only)
  repeat' (with_reducible first
    | apply Frame.refl | apply State.commitFw_frame | apply State.raise_frame | decide | intro _ | split)

theorem State.noteFwBad_frame {fs : List Field} {s₀ : State} {s : State} {l : List PlateId}
    (h : Frame fs s₀ s) (hs : Field.sub [.rings] fs = true) :
    Frame fs s₀ (State.noteFwBad s l) := by
  refine Frame.comp h ?_ hs
  clear h hs
  unfold State.noteFwBad
  (try dsimp -proj only)
  repeat' (with_reducible first
    | apply Frame.refl | apply State.forAll_frame | apply State.raise_frame | decide | intro _ | split)

theorem State.fwSelect_frame {fs : List Field} {s₀ : State} {s : State}
    (h : Frame fs s₀ s) (hs : Field.sub [.devfw, .att, .rings, .otp, .led] fs = true) :
    Frame fs s₀ (State.fwSelect s).1 := by
  refine Frame.comp h ?_ hs
  clear h hs
  unfold State.fwSelect
  (try dsimp -proj only)
  repeat' (with_reducible first
    | apply Frame.refl | apply State.noteFwBad_frame | apply State.runFw_frame | apply State.commitFw_frame
    | apply State.raise_frame | apply Frame.foldl | apply Frame.foldl_fst | decide | intro _ | split)

theorem State.selftestAccept_frame {fs : List Field} {s₀ : State} {s : State}
    (h : Frame fs s₀ s) (hs : Field.sub [.devfw, .trace, .rings, .led] fs = true) :
    Frame fs s₀ (State.selftestAccept s) := by
  refine Frame.comp h ?_ hs
  clear h hs
  unfold State.selftestAccept
  (try dsimp -proj only)
  repeat' (with_reducible first
    | apply Frame.refl | apply State.acceptFw_frame | decide | intro _ | split | apply Frame.put_devfw_led)

theorem State.stagePart_frame {fs : List Field} {s₀ : State} {s : State} {n : Fin 128} {p : PlateId} {part : Byte} {off : Nat} {data : List Byte}
    (h : Frame fs s₀ s) (hs : Field.sub [.plt, .fps] fs = true) :
    Frame fs s₀ (State.stagePart s n p part off data) := by
  refine Frame.comp h ?_ hs
  clear h hs
  unfold State.stagePart
  (try dsimp -proj only)
  repeat' (with_reducible first
    | apply Frame.refl | apply State.modPlt_frame | apply State.localWrite_frame | decide | intro _ | split)

theorem State.beginStaging_frame {fs : List Field} {s₀ : State} {s : State} {m : Mgr} {n : Fin 128} {p : PlateId}
    (h : Frame fs s₀ s) (hs : Field.sub [.plt, .trace, .rings, .led] fs = true) :
    Frame fs s₀ (State.beginStaging s m n p) := by
  refine Frame.comp h ?_ hs
  clear h hs
  unfold State.beginStaging
  (try dsimp -proj only)
  repeat' (with_reducible first
    | apply Frame.refl | apply State.modPlt_frame | apply State.commitTable_frame | decide | intro _ | split)

theorem State.fwStage_frame {fs : List Field} {s₀ : State} {s : State} {m : Mgr} {off : Nat} {data : List Byte}
    (h : Frame fs s₀ s) (hs : Field.sub [.devfw, .trace, .led] fs = true) :
    Frame fs s₀ (State.fwStage s m off data) := by
  refine Frame.comp h ?_ hs
  clear h hs
  unfold State.fwStage
  (try dsimp -proj only)
  repeat' (with_reducible first
    | apply Frame.refl | apply State.commitFwTable_frame | apply State.logDevice_frame | decide | intro _ | split
    | apply Frame.put_devfw)

theorem State.commitFwMin_frame {fs : List Field} {s₀ : State} {s : State} {v : Nat}
    (h : Frame fs s₀ s) (hs : Field.sub [.mins, .trace, .led] fs = true) :
    Frame fs s₀ (State.commitFwMin s v) := by
  refine Frame.comp h ?_ hs
  clear h hs
  unfold State.commitFwMin
  (try dsimp -proj only)
  repeat' (with_reducible first
    | apply Frame.refl | apply State.committed_frame | apply State.log_frame | decide | intro _ | split
    | apply Frame.put_mins)

theorem State.dropObject_frame {fs : List Field} {s₀ : State} {s : State} {fam : List Byte} {root : List Byte}
    (h : Frame fs s₀ s) (hs : Field.sub [.pool, .led] fs = true) :
    Frame fs s₀ (State.dropObject s fam root) := by
  refine Frame.comp h ?_ hs
  clear h hs
  unfold State.dropObject
  (try dsimp -proj only)
  repeat' (with_reducible first
    | apply Frame.refl | apply State.setObjects_frame | decide | intro _ | split)

theorem State.erasePlate_frame {fs : List Field} {s₀ : State} {s : State} {n : Fin 128} {p : PlateId}
    (h : Frame fs s₀ s) (hs : Field.sub [.plt, .fps, .pool, .trace, .rings, .led] fs = true) :
    Frame fs s₀ (State.erasePlate s n p) := by
  refine Frame.comp h ?_ hs
  clear h hs
  unfold State.erasePlate
  (try dsimp -proj only)
  repeat' (with_reducible first
    | apply Frame.refl | apply State.modPlt_frame | apply State.commitPlates_frame | apply State.dropObject_frame
    | apply State.localWrite_frame | decide | intro _ | split)

theorem State.fwCommit_frame {fs : List Field} {s₀ : State} {s : State} {activate : Bool}
    (h : Frame fs s₀ s) (hs : Field.sub [.ports, .mbx, .stn, .ctl, .plt, .wdg, .areas, .fps, .imm, .fca, .farm, .pool, .devfw, .plat, .intw, .trace, .att, .spdm, .rings, .views, .hdrs, .burin, .hash, .drbg, .keys, .tamper, .otp, .power, .led, .dev] fs = true) :
    Frame fs s₀ (State.fwCommit s activate) := by
  refine Frame.comp h ?_ hs
  clear h hs
  unfold State.fwCommit
  (try dsimp -proj only)
  repeat' (with_reducible first
    | apply Frame.refl | apply State.ccRestart_frame | apply State.warmReset_frame | apply State.logDevice_frame
    | apply State.runFw_frame | apply State.commitFw_frame | decide | intro _ | split | apply Frame.put_devfw)

theorem State.keepTaken_frame {fs : List Field} {s₀ : State} {s : State} {n : Fin 128} {p : PlateId} {man : List Byte} {mem : Option Memory}
    (h : Frame fs s₀ s) (hs : Field.sub [.imm, .trace] fs = true) :
    Frame fs s₀ (State.keepTaken s n p man mem) := by
  refine Frame.comp h ?_ hs
  clear h hs
  unfold State.keepTaken
  (try dsimp -proj only)
  repeat' (with_reducible first
    | apply Frame.refl | apply State.allocExtents_frame | apply State.log_frame | apply State.modDir_frame | decide
    | intro _ | split)

theorem State.commitVerified_frame {fs : List Field} {s₀ : State} {s : State} {n : Fin 128} {p : PlateId} {mem : Option Memory}
    (h : Frame fs s₀ s) (hs : Field.sub [.plt, .imm, .pool, .trace, .rings, .led] fs = true) :
    Frame fs s₀ (State.commitVerified s n p mem) := by
  refine Frame.comp h ?_ hs
  clear h hs
  unfold State.commitVerified
  (try dsimp -proj only)
  repeat' (with_reducible first
    | apply Frame.refl | apply State.keepTaken_frame | apply State.storePool_frame | apply State.commitStaged_frame
    | decide | intro _ | split)

theorem State.withPlate_frame {fs : List Field} {s : State} {src : Src} {n : Fin 128} {plate : Byte} {body : PlateId → State → State} {s₀ : State} (h₀ : Frame fs s₀ s) (hs : Field.sub [.rings, .views, .awaits, .dev] fs = true)
    (h : ∀ p s, Frame fs s (body p s)) :
    Frame fs s₀ (State.withPlate s src n plate body) := by
  refine Frame.comp h₀ ?_ (Field.sub_refl _)
  unfold State.withPlate
  (try dsimp -proj only)
  repeat' (with_reducible first
    | apply Frame.refl | assumption | apply h | (refine Field.sub_trans ?_ hs; decide) | apply State.deliver_frame | split
    | intro _)

theorem State.mwdPublish_frame {fs : List Field} {s₀ : State} {s : State} {m : Mgr}
    (h : Frame fs s₀ s) (hs : Field.sub [.mwd, .drbg, .drawn] fs = true) :
    Frame fs s₀ (State.mwdPublish s m) := by
  refine Frame.comp h ?_ hs
  clear h hs
  unfold State.mwdPublish
  (try dsimp -proj only)
  repeat' (with_reducible first
    | apply Frame.refl | apply State.modMwd_frame | apply State.drawChallenge_frame | decide | intro _ | split)

theorem State.mwdArm_frame {fs : List Field} {s₀ : State} {s : State} {m : Mgr}
    (h : Frame fs s₀ s) (hs : Field.sub [.mwd, .drbg, .drawn] fs = true) :
    Frame fs s₀ (State.mwdArm s m) := by
  refine Frame.comp h ?_ hs
  clear h hs
  unfold State.mwdArm
  (try dsimp -proj only)
  repeat' (with_reducible first
    | apply Frame.refl | apply State.modMwd_frame | apply State.mwdPublish_frame | decide | intro _ | split)

theorem State.updateFallback_frame {fs : List Field} {s₀ : State} {s : State}
    (h : Frame fs s₀ s) (hs : Field.sub [.trace, .rings, .dev] fs = true) :
    Frame fs s₀ (State.updateFallback s) := by
  refine Frame.comp h ?_ hs
  clear h hs
  unfold State.updateFallback
  (try dsimp -proj only)
  repeat' (with_reducible first
    | apply Frame.refl | apply State.logDevice_frame | apply State.raise_frame | decide | intro _ | split
    | apply Frame.put_dev)

theorem State.endClaims_frame {fs : List Field} {s₀ : State} {s : State} {m : Mgr}
    (h : Frame fs s₀ s) (hs : Field.sub [.plt, .devfw] fs = true) :
    Frame fs s₀ (State.endClaims s m) := by
  refine Frame.comp h ?_ hs
  clear h hs
  unfold State.endClaims
  (try dsimp -proj only)
  repeat' (with_reducible first
    | apply Frame.refl | decide | intro _ | split | apply Frame.put_plt_devfw)

theorem State.mwdExpire_frame {fs : List Field} {s₀ : State} {s : State} {m : Mgr}
    (h : Frame fs s₀ s) (hs : Field.sub [.plt, .devfw, .mwd, .trace, .rings, .dev] fs = true) :
    Frame fs s₀ (State.mwdExpire s m) := by
  refine Frame.comp h ?_ hs
  clear h hs
  unfold State.mwdExpire
  (try dsimp -proj only)
  repeat' (with_reducible first
    | apply Frame.refl | apply State.modMwd_frame | apply State.log_frame | apply State.updateFallback_frame
    | apply State.endClaims_frame | apply State.raise_frame | decide | intro _ | split)

theorem State.armByWrite_frame {fs : List Field} {s₀ : State} {s : State} {n : Fin 128}
    (h : Frame fs s₀ s) (hs : Field.sub [.mbx, .wdg, .trace, .rings, .drbg, .drawn] fs = true) :
    Frame fs s₀ (State.armByWrite s n) := by
  refine Frame.comp h ?_ hs
  clear h hs
  unfold State.armByWrite
  (try dsimp -proj only)
  repeat' (with_reducible first
    | apply Frame.refl | apply State.newWindow_frame | apply State.arm_frame | decide | intro _ | split)

theorem State.mwdService_frame {fs : List Field} {s₀ : State} {s : State} {m : Mgr} {token : DWord}
    (h : Frame fs s₀ s) (hs : Field.sub [.plt, .devfw, .mwd, .trace, .rings, .drbg, .drawn, .dev] fs = true) :
    Frame fs s₀ (State.mwdService s m token) := by
  refine Frame.comp h ?_ hs
  clear h hs
  unfold State.mwdService
  (try dsimp -proj only)
  repeat' (with_reducible first
    | apply Frame.refl | apply State.modMwd_frame | apply State.mwdPublish_frame | apply State.log_frame
    | apply State.updateFallback_frame | apply State.mwdExpire_frame | apply State.raise_frame | decide | intro _ | split)

theorem State.flushOne_frame {fs : List Field} {s₀ : State} {s : State} {w : LedgerWork}
    (h : Frame fs s₀ s) (hs : Field.sub [.ports, .mbx, .stn, .ctl, .plt, .wdg, .imm, .fca, .mins, .devfw, .plat, .trace, .spdm, .rings, .views, .awaits, .drbg, .drawn, .led, .dev] fs = true) :
    Frame fs s₀ (State.flushOne s w) := by
  refine Frame.comp h ?_ hs
  clear h hs
  unfold State.flushOne
  (try dsimp -proj only)
  repeat' (with_reducible first
    | apply Frame.refl | apply State.modPlt_frame | apply State.acceptCommit_frame | apply State.startTaking_frame
    | apply State.plateBad_frame | apply State.clearConsec_frame | apply State.modWdg_frame | apply State.acceptFw_frame
    | apply State.commitPlates_frame | apply State.commitFw_frame | decide | intro _ | split | apply Frame.put_led)

theorem State.flushLedger_frame {fs : List Field} {s₀ : State} {s : State}
    (h : Frame fs s₀ s) (hs : Field.sub [.ports, .mbx, .stn, .ctl, .plt, .wdg, .imm, .fca, .mins, .devfw, .plat, .trace, .spdm, .rings, .views, .awaits, .drbg, .drawn, .led, .dev] fs = true) :
    Frame fs s₀ (State.flushLedger s) := by
  refine Frame.comp h ?_ hs
  clear h hs
  unfold State.flushLedger
  (try dsimp -proj only)
  repeat' (with_reducible first
    | apply Frame.refl | apply State.forAll_frame | apply State.flushOne_frame | decide | intro _ | split
    | apply Frame.put_led)

theorem State.settleAbsent_frame {fs : List Field} {s₀ : State} {s : State} {n : Fin 128}
    (h : Frame fs s₀ s) (hs : Field.sub [.ports, .mbx, .stn, .ctl, .plt, .wdg, .imm, .fca, .mins, .plat, .trace, .spdm, .rings, .views, .awaits, .drbg, .drawn, .led, .dev] fs = true) :
    Frame fs s₀ (State.settleAbsent s n) := by
  refine Frame.comp h ?_ hs
  clear h hs
  unfold State.settleAbsent
  (try dsimp -proj only)
  repeat' (with_reducible first
    | apply Frame.refl | apply State.modPlt_frame | apply State.modWdg_frame | apply State.revert_frame
    | apply State.takeAction_frame | apply State.takeKept_frame | decide | intro _ | split)

theorem State.settleAll_frame {fs : List Field} {s₀ : State} {s : State}
    (h : Frame fs s₀ s) (hs : Field.sub [.ports, .mbx, .stn, .ctl, .plt, .wdg, .imm, .fca, .mins, .plat, .trace, .spdm, .rings, .views, .awaits, .drbg, .drawn, .led, .dev] fs = true) :
    Frame fs s₀ (State.settleAll s) := by
  refine Frame.comp h ?_ hs
  clear h hs
  unfold State.settleAll
  (try dsimp -proj only)
  repeat' (with_reducible first
    | apply Frame.refl | apply State.settleAbsent_frame | apply State.forChans_frame | decide | intro _ | split)

theorem State.resumeCommits_frame {fs : List Field} {s₀ : State} {s : State}
    (h : Frame fs s₀ s) (hs : Field.sub [.mbx, .ctl, .plt, .wdg, .imm, .fca, .mins, .trace, .spdm, .rings, .views, .awaits, .drbg, .drawn, .led, .dev] fs = true) :
    Frame fs s₀ (State.resumeCommits s) := by
  refine Frame.comp h ?_ hs
  clear h hs
  unfold State.resumeCommits
  (try dsimp -proj only)
  repeat' (with_reducible first
    | apply Frame.refl | apply State.resumeEntry_frame | decide | intro _ | split)

theorem State.wakeLink_frame {fs : List Field} {s₀ : State} {s : State} {m : Mgr} (h : Frame fs s₀ s) (hs : Field.sub [.views] fs = true) :
    Frame fs s₀ (State.wakeLink s m) := by
  refine Frame.comp h ?_ hs
  clear h hs
  unfold State.wakeLink
  (try dsimp -proj only)
  repeat' (with_reducible first
    | apply Frame.refl | apply State.modView_frame | decide | intro _ | split)

theorem State.resumeStandby_frame {fs : List Field} {s₀ : State} {s : State}
    (h : Frame fs s₀ s) (hs : Field.sub [.mbx, .ctl, .plt, .wdg, .imm, .fca, .mins, .plat, .trace, .spdm, .rings, .views, .awaits, .drbg, .drawn, .led, .dev] fs = true) :
    Frame fs s₀ (State.resumeStandby s) := by
  refine Frame.comp h ?_ hs
  clear h hs
  unfold State.resumeStandby
  (try dsimp -proj only)
  repeat' (with_reducible first
    | apply Frame.refl | apply State.forChans_frame | apply State.resumeHeld_frame | apply State.startTaking_frame
    | apply State.modCtl_frame | decide | intro _ | split | apply Frame.put_plat)

theorem State.takeRanks_frame {fs : List Field} {s₀ : State} {s : State} (h : Frame fs s₀ s) (hs : Field.sub [.prof, .dcfg] fs = true) :
    Frame fs s₀ (State.takeRanks s) := by
  refine Frame.comp h ?_ hs
  clear h hs
  unfold State.takeRanks
  (try dsimp -proj only)
  repeat' (with_reducible first
    | apply Frame.refl | decide | intro _ | split | apply Frame.put_prof_dcfg)

theorem State.wake_frame {fs : List Field} {s₀ : State} {s : State}
    (h : Frame fs s₀ s) (hs : Field.sub [.prof, .dcfg, .trace, .rings, .dev] fs = true) :
    Frame fs s₀ (State.wake s) := by
  refine Frame.comp h ?_ hs
  clear h hs
  unfold State.wake
  (try dsimp -proj only)
  repeat' (with_reducible first
    | apply Frame.refl | apply State.takeRanks_frame | apply State.setDev_frame | decide | intro _ | split
    | apply Frame.put_dev)

theorem State.wakeUp_frame {fs : List Field} {s₀ : State} {s : State}
    (h : Frame fs s₀ s) (hs : Field.sub [.mbx, .ctl, .plt, .wdg, .prof, .dcfg, .imm, .fca, .mins, .plat, .trace, .spdm, .rings, .views, .awaits, .drbg, .drawn, .led, .dev] fs = true) :
    Frame fs s₀ (State.wakeUp s) := by
  refine Frame.comp h ?_ hs
  clear h hs
  unfold State.wakeUp
  (try dsimp -proj only)
  repeat' (with_reducible first
    | apply Frame.refl | apply State.wakeLink_frame | apply State.resumeStandby_frame | apply State.wake_frame | decide
    | intro _ | split)

theorem State.enterInhibit_frame {fs : List Field} {s₀ : State} {s : State} {rail : Option (Fin 21)}
    (h : Frame fs s₀ s) (hs : Field.sub [.rings, .power] fs = true) :
    Frame fs s₀ (State.enterInhibit s rail) := by
  refine Frame.comp h ?_ hs
  clear h hs
  unfold State.enterInhibit
  (try dsimp -proj only)
  repeat' (with_reducible first
    | apply Frame.refl | apply State.raise_frame | decide | intro _ | split | apply Frame.put_power)

theorem State.putDevCfg_frame {fs : List Field} {s₀ : State} {s : State} {d : DevCfg}
    (h : Frame fs s₀ s) (hs : Field.sub [.dcfg, .imm, .farm, .pool] fs = true) :
    Frame fs s₀ (State.putDevCfg s d) := by
  refine Frame.comp h ?_ hs
  clear h hs
  unfold State.putDevCfg
  (try dsimp -proj only)
  repeat' (with_reducible first
    | apply Frame.refl | decide | intro _ | split | apply Frame.put_dcfg_imm_farm_pool)

theorem State.applyCalibration_frame {fs : List Field} {s₀ : State} {s : State} {old : State}
    (h : Frame fs s₀ s) (hs : Field.sub [.rings, .power] fs = true) :
    Frame fs s₀ (State.applyCalibration s old) := by
  refine Frame.comp h ?_ hs
  clear h hs
  unfold State.applyCalibration
  (try dsimp -proj only)
  repeat' (with_reducible first
    | apply Frame.refl | apply State.enterInhibit_frame | apply State.forAll_frame | decide | intro _ | split)

theorem State.applyProfile_frame {fs : List Field} {s₀ s : State} {n : Fin 128} {q : ChanCfg}
    (h : Frame fs s₀ s) (hs : Field.sub [.ports, .stn, .ctl, .plt, .wdg, .fps, .prof, .profCfg, .imm, .plat, .trace, .spdm, .rings, .views, .awaits, .led, .dev] fs = true) :
    Frame fs s₀ (State.applyProfile s n q) := by
  refine Frame.comp h ?_ hs
  clear h hs
  unfold State.applyProfile
  extract_lets p was p1 p2 s1 s2 s3
  have h1 : Frame [.ports, .stn, .ctl, .plt, .wdg, .fps, .prof, .profCfg, .imm, .plat, .trace, .spdm, .rings, .views, .awaits, .led, .dev] s s1 :=
    Frame.put_prof_profCfg (Frame.refl _ _) (by decide) (by decide)
  clear_value s1 was
  have h2 : Frame [.ports, .stn, .ctl, .plt, .wdg, .fps, .prof, .profCfg, .imm, .plat, .trace, .spdm, .rings, .views, .awaits, .led, .dev] s s2 := by
    simp only [s2]; split
    · exact h1
    · exact State.applyIdentity_frame h1 (by decide)
  clear_value s2
  have h3 : Frame [.ports, .stn, .ctl, .plt, .wdg, .fps, .prof, .profCfg, .imm, .plat, .trace, .spdm, .rings, .views, .awaits, .led, .dev] s s3 := by
    simp only [s3]
    repeat' (with_reducible first
      | exact h2 | apply State.startDiscovery_frame | decide | split)
  clear_value s3
  repeat' (with_reducible first
    | exact h3 | apply State.hold_frame | apply State.leave_frame | decide | split)

theorem State.applyConfig_frame {fs : List Field} {s₀ : State} {s : State} {img : List Byte}
    (h : Frame fs s₀ s) (hs : Field.sub [.ports, .stn, .ctl, .plt, .wdg, .fps, .prof, .profCfg, .dcfg, .twl, .imm, .farm, .pool, .plat, .trace, .spdm, .rings, .views, .awaits, .power, .led, .dev] fs = true) :
    Frame fs s₀ (State.applyConfig s img) := by
  refine Frame.comp h ?_ hs
  clear h hs
  unfold State.applyConfig
  (try dsimp -proj only)
  repeat' (with_reducible first
    | apply Frame.refl | apply State.putDevCfg_frame | apply State.forChans_frame | apply State.applyCalibration_frame
    | apply State.applyProfile_frame | decide | intro _ | split | apply Frame.put_twl)

theorem State.commitConfig_frame {fs : List Field} {s₀ : State} {s : State} {m : Mgr} {img : List Byte}
    (h : Frame fs s₀ s) (hs : Field.sub [.ports, .stn, .ctl, .plt, .wdg, .fps, .prof, .profCfg, .dcfg, .twl, .cfgImg, .imm, .farm, .pool, .plat, .trace, .spdm, .rings, .views, .awaits, .power, .led, .dev] fs = true) :
    Frame fs s₀ (State.commitConfig s m img) := by
  refine Frame.comp h ?_ hs
  clear h hs
  unfold State.commitConfig
  (try dsimp -proj only)
  repeat' (with_reducible first
    | apply Frame.refl | apply State.committed_frame | apply State.applyConfig_frame | apply State.log_frame
    | apply State.raise_frame | decide | intro _ | split | apply Frame.put_cfgImg_dev)

end Sys2Proof.Machine
end

