-- ==== Sys2Proof/Laws/FramesService.lean ====
section
/-! SUPPORT. What each shared operation can change: attestation, Burin, the vault, rings, logs, policies, fuses, pages and power.
`X_frame` says that the operation X changes nothing but the parts in its list; it is stated from any earlier state, so that frames
compose by application. -/

namespace Sys2Proof.Machine

theorem State.dropOldest_frame {fs : List Field} {s₀ : State} {s : State} {h1 : TraceHdr}
    (h : Frame fs s₀ s) (hs : Field.sub [.trace, .rings] fs = true) :
    Frame fs s₀ (State.dropOldest s h1).1 := by
  refine Frame.comp h ?_ hs
  clear h hs
  unfold State.dropOldest
  (try dsimp -proj only)
  repeat' (with_reducible first
    | apply Frame.refl | apply State.raise_frame | decide | intro _ | split | apply Frame.put_trace)

theorem State.writeRecord_frame {fs : List Field} {s₀ : State} {s : State}
    (h : Frame fs s₀ s) (hs : Field.sub [.trace, .rings, .led] fs = true) :
    Frame fs s₀ (State.writeRecord s) := by
  refine Frame.comp h ?_ hs
  clear h hs
  unfold State.writeRecord
  (try dsimp -proj only)
  repeat' (with_reducible first
    | apply Frame.refl | apply State.committed_frame | apply State.log_frame | apply State.dropOldest_frame | decide
    | intro _ | split | apply Frame.put_trace)

theorem State.countMessage_frame {fs : List Field} {s₀ : State} {s : State} {e : Fin 8} {packets : Half}
    (h : Frame fs s₀ s) (hs : Field.sub [.i3c, .views] fs = true) :
    Frame fs s₀ (State.countMessage s e packets) := by
  refine Frame.comp h ?_ hs
  clear h hs
  unfold State.countMessage
  (try dsimp -proj only)
  repeat' (with_reducible first
    | apply Frame.refl | apply State.modI3c_frame | apply State.modView_frame | decide | intro _ | split)

theorem State.spdmReq_frame {fs : List Field} {s₀ s : State} {e : Fin 8} {body : State → State} (h₀ : Frame fs s₀ s)
    (hs : Field.sub [.i3c, .views] fs = true) (h : ∀ s, Frame fs s (body s)) : Frame fs s₀ (State.spdmReq s e body) := by
  unfold State.spdmReq
  split
  · exact Frame.comp (State.countMessage_frame h₀ (Field.sub_trans (by decide) hs)) (h _) (Field.sub_refl _)
  · exact h₀

theorem State.spdmSay_frame {fs : List Field} {s₀ : State} {s : State} {e : Fin 8} {r : SpdmReply}
    (h : Frame fs s₀ s) (hs : Field.sub [.spdm] fs = true) :
    Frame fs s₀ (State.spdmSay s e r) := by
  refine Frame.comp h ?_ hs
  clear h hs
  unfold State.spdmSay
  (try dsimp -proj only)
  repeat' (with_reducible first
    | apply Frame.refl | apply State.modEp_frame | decide | intro _ | split)

theorem State.spdmFull_frame {fs : List Field} {s : State} {e : Fin 8} {body : State → State} {s₀ : State} (h₀ : Frame fs s₀ s) (hs : Field.sub [.spdm, .i3c, .views] fs = true)
    (h : ∀ s, Frame fs s (body s)) :
    Frame fs s₀ (State.spdmFull s e body) := by
  refine Frame.comp h₀ ?_ (Field.sub_refl _)
  unfold State.spdmFull
  (try dsimp -proj only)
  repeat' (with_reducible first
    | apply Frame.refl | assumption | apply h | (refine Field.sub_trans ?_ hs; decide) | apply State.spdmReq_frame
    | apply State.spdmSay_frame | split | intro _)

theorem State.spdmSigned_frame {fs : List Field} {s₀ : State} {s : State}
    (h : Frame fs s₀ s) (hs : Field.sub [.att, .burin, .drbg, .drawn] fs = true) :
    Frame fs s₀ (State.spdmSigned s) := by
  refine Frame.comp h ?_ hs
  clear h hs
  unfold State.spdmSigned
  (try dsimp -proj only)
  repeat' (with_reducible first
    | apply Frame.refl | apply State.internalRun_frame | apply State.drawGeneral_frame | decide | intro _ | split
    | apply Frame.put_att)

theorem State.spdmIn_frame {fs : List Field} {s : State} {e : Fin 8} {session : Nat} {body : State → State} {s₀ : State}
    (h₀ : Frame fs s₀ s) (hs : Field.sub [.spdm, .i3c, .views] fs = true) (h : ∀ s, Frame fs s (body s)) :
    Frame fs s₀ (State.spdmIn s e session body) := by
  unfold State.spdmIn
  refine State.spdmFull_frame h₀ hs fun s => ?_
  split
  · exact h _
  · split
    · exact State.spdmSay_frame (Frame.refl _ _) (Field.sub_trans (by decide) hs)
    · exact Frame.comp (State.modEp_frame (Frame.refl _ _) (Field.sub_trans (by decide) hs)) (h _) (Field.sub_refl _)

theorem State.issueCerts_frame {fs : List Field} {s₀ : State} {s : State}
    (h : Frame fs s₀ s) (hs : Field.sub [.att, .drbg, .drawn, .led] fs = true) :
    Frame fs s₀ (State.issueCerts s) := by
  refine Frame.comp h ?_ hs
  clear h hs
  unfold State.issueCerts
  (try dsimp -proj only)
  repeat' (with_reducible first
    | apply Frame.refl | apply State.committed_frame | apply State.drawGeneral_frame | decide | intro _ | split
    | apply Frame.put_att)

theorem State.newRing_frame {fs : List Field} {s₀ : State} {s : State} (h : Frame fs s₀ s) (hs : Field.sub [.trace, .rings] fs = true) :
    Frame fs s₀ (State.newRing s) := by
  refine Frame.comp h ?_ hs
  clear h hs
  unfold State.newRing
  (try dsimp -proj only)
  repeat' (with_reducible first
    | apply Frame.refl | apply State.log_frame | apply State.raise_frame | decide | intro _ | split
    | apply Frame.put_trace)

theorem State.deriveDevice_frame {fs : List Field} {s₀ : State} {s : State} (h : Frame fs s₀ s) (hs : Field.sub [.att, .keys] fs = true) :
    Frame fs s₀ (State.deriveDevice s) := by
  refine Frame.comp h ?_ hs
  clear h hs
  unfold State.deriveDevice
  (try dsimp -proj only)
  repeat' (with_reducible first
    | apply Frame.refl | apply State.putDevKey_frame | decide | intro _ | split | apply Frame.put_att_keys
    | apply Frame.put_att)

theorem State.readTrace_frame {fs : List Field} {s₀ : State} {s : State} {mark : Option Mgr} {fromSeq : Nat} {advance : Bool} {header : Bool} {len : Nat}
    (h : Frame fs s₀ s) (hs : Field.sub [.trace] fs = true) :
    Frame fs s₀ (State.readTrace s mark fromSeq advance header len).1 := by
  refine Frame.comp h ?_ hs
  clear h hs
  unfold State.readTrace
  (try dsimp -proj only)
  repeat' (with_reducible first
    | apply Frame.refl | decide | intro _ | split | apply Frame.put_trace)

theorem State.writeRecords_frame {fs : List Field} {s₀ : State} {x : Nat} {x1 : State}
    (h : Frame fs s₀ x1) (hs : Field.sub [.trace, .rings, .led] fs = true) :
    Frame fs s₀ (State.writeRecords x x1) := by
  refine Frame.comp h ?_ hs
  clear h hs
  have key : ∀ (s₀ : State) (x1 : State), Frame [.trace, .rings, .led] s₀ x1 → Frame [.trace, .rings, .led] s₀ (State.writeRecords x x1) := by
    induction x with
    | zero => intro s₀ x1 h; unfold State.writeRecords; exact h
    | succ k ih =>
      intro s₀ x1 h; unfold State.writeRecords
      (try dsimp -proj only)
      repeat' (with_reducible first
        | assumption | apply ih | apply Frame.refl | apply State.writeRecord_frame | decide | intro _ | split)
  exact key _ x1 (Frame.refl _ _)

theorem State.drainTrace_frame {fs : List Field} {s₀ : State} {s : State}
    (h : Frame fs s₀ s) (hs : Field.sub [.trace, .rings, .led] fs = true) :
    Frame fs s₀ (State.drainTrace s) := by
  refine Frame.comp h ?_ hs
  clear h hs
  unfold State.drainTrace
  (try dsimp -proj only)
  repeat' (with_reducible first
    | apply Frame.refl | apply State.writeRecords_frame | decide | intro _ | split)

theorem State.takeQuote_frame {fs : List Field} {s₀ : State} {s : State} {who : Nat} {nonce : List Byte} {len : Nat}
    (h : Frame fs s₀ s) (hs : Field.sub [.trace, .att, .rings, .burin, .drbg, .drawn, .led] fs = true) :
    Frame fs s₀ (State.takeQuote s who nonce len).1 := by
  refine Frame.comp h ?_ hs
  clear h hs
  unfold State.takeQuote
  (try dsimp -proj only)
  repeat' (with_reducible first
    | apply Frame.refl | apply State.internalRun_frame | apply State.log_frame | apply State.drawGeneral_frame
    | apply State.drainTrace_frame | apply State.writeRecord_frame | decide | intro _ | split | apply Frame.put_att)

theorem State.spdmLarge_frame {fs : List Field} {s₀ : State} {s : State} {e : Fin 8} {bytes : List Byte}
    (h : Frame fs s₀ s) (hs : Field.sub [.spdm] fs = true) :
    Frame fs s₀ (State.spdmLarge s e bytes) := by
  refine Frame.comp h ?_ hs
  clear h hs
  unfold State.spdmLarge
  (try dsimp -proj only)
  repeat' (with_reducible first
    | apply Frame.refl | apply State.spdmSay_frame | apply State.modEp_frame | decide | intro _ | split)

theorem State.extResult_frame {fs : List Field} {s₀ : State} {s : State} {m : Mgr} {st : Status}
    (h : Frame fs s₀ s) (hs : Field.sub [.att] fs = true) :
    Frame fs s₀ (State.extResult s m st) := by
  refine Frame.comp h ?_ hs
  clear h hs
  unfold State.extResult
  (try dsimp -proj only)
  repeat' (with_reducible first
    | apply Frame.refl | apply State.modAttView_frame | decide | intro _ | split)

theorem State.attExt_frame {fs : List Field} {s₀ : State} {s : State} {m : Mgr} {v : Word} {released : List Nat}
    (h : Frame fs s₀ s) (hs : Field.sub [.mbx, .trace, .att, .views] fs = true) :
    Frame fs s₀ (State.attExt s m v released) := by
  refine Frame.comp h ?_ hs
  clear h hs
  unfold State.attExt
  (try dsimp -proj only)
  repeat' (with_reducible first
    | apply Frame.refl | apply State.regW_frame | apply State.extend_frame | apply State.extResult_frame | decide
    | intro _ | split)

theorem State.finishJob_frame {fs : List Field} {s₀ : State} {s : State} {j : BurinJob} {st : Status} {info : optParam Nat 0} {result : optParam (List Byte) []}
    (h : Frame fs s₀ s) (hs : Field.sub [.rings, .views, .awaits, .dev] fs = true) :
    Frame fs s₀ (State.finishJob s j st info result) := by
  refine Frame.comp h ?_ hs
  clear h hs
  unfold State.finishJob
  (try dsimp -proj only)
  repeat' (with_reducible first
    | apply Frame.refl | apply State.finish_frame | decide | intro _ | split)

theorem State.abortCore_frame {fs : List Field} {s₀ : State} {s : State} {k1 : Fin 4} {wipe : Bool}
    (h : Frame fs s₀ s) (hs : Field.sub [.rings, .views, .awaits, .burin, .dev] fs = true) :
    Frame fs s₀ (State.abortCore s k1 wipe) := by
  refine Frame.comp h ?_ hs
  clear h hs
  unfold State.abortCore
  (try dsimp -proj only)
  repeat' (with_reducible first
    | apply Frame.refl | apply State.forAll_frame | apply State.modCore_frame | apply State.finishJob_frame | decide
    | intro _ | split)

theorem State.loadJob_frame {fs : List Field} {s₀ : State} {s : State} {k1 : Fin 4} {j : BurinJob}
    (h : Frame fs s₀ s) (hs : Field.sub [.burin] fs = true) :
    Frame fs s₀ (State.loadJob s k1 j) := by
  refine Frame.comp h ?_ hs
  clear h hs
  unfold State.loadJob
  (try dsimp -proj only)
  repeat' (with_reducible first
    | apply Frame.refl | apply State.modCore_frame | decide | intro _ | split)

theorem State.takeCore_frame {fs : List Field} {s₀ : State} {s : State} {k1 : Fin 4} {j : BurinJob}
    (h : Frame fs s₀ s) (hs : Field.sub [.rings, .views, .awaits, .burin, .keys, .dev] fs = true) :
    Frame fs s₀ (State.takeCore s k1 j) := by
  refine Frame.comp h ?_ hs
  clear h hs
  unfold State.takeCore
  (try dsimp -proj only)
  repeat' (with_reducible first
    | apply Frame.refl | apply State.finishJob_frame | apply State.loadJob_frame | apply State.modSlot_frame | decide
    | intro _ | split | apply Frame.put_burin)

theorem State.allocate_frame {fs : List Field} {s₀ : State} {s : State}
    (h : Frame fs s₀ s) (hs : Field.sub [.rings, .views, .awaits, .burin, .keys, .dev] fs = true) :
    Frame fs s₀ (State.allocate s) := by
  refine Frame.comp h ?_ hs
  clear h hs
  unfold State.allocate
  (try dsimp -proj only)
  repeat' (with_reducible first
    | apply Frame.refl | apply State.takeCore_frame | apply State.loadJob_frame | apply State.modCore_frame | decide
    | intro _ | split)

theorem State.allocateN_frame {fs : List Field} {s₀ : State} {x : Nat} {x1 : State}
    (h : Frame fs s₀ x1) (hs : Field.sub [.rings, .views, .awaits, .burin, .keys, .dev] fs = true) :
    Frame fs s₀ (State.allocateN x x1) := by
  refine Frame.comp h ?_ hs
  clear h hs
  have key : ∀ (s₀ : State) (x1 : State), Frame [.rings, .views, .awaits, .burin, .keys, .dev] s₀ x1 → Frame [.rings, .views, .awaits, .burin, .keys, .dev] s₀ (State.allocateN x x1) := by
    induction x with
    | zero => intro s₀ x1 h; unfold State.allocateN; exact h
    | succ k ih =>
      intro s₀ x1 h; unfold State.allocateN
      (try dsimp -proj only)
      repeat' (with_reducible first
        | assumption | apply ih | apply Frame.refl | apply State.allocate_frame | decide | intro _ | split)
  exact key _ x1 (Frame.refl _ _)

theorem State.dispatchJobs_frame {fs : List Field} {s₀ : State} {s : State}
    (h : Frame fs s₀ s) (hs : Field.sub [.rings, .views, .awaits, .burin, .keys, .dev] fs = true) :
    Frame fs s₀ (State.dispatchJobs s) := by
  refine Frame.comp h ?_ hs
  clear h hs
  unfold State.dispatchJobs
  (try dsimp -proj only)
  repeat' (with_reducible first
    | apply Frame.refl | apply State.allocateN_frame | decide | intro _ | split)

theorem State.jobDraws_frame {fs : List Field} {s₀ : State} {s : State} {j : BurinJob} {slots : Nat}
    (h : Frame fs s₀ s) (hs : Field.sub [.drbg, .drawn] fs = true) :
    Frame fs s₀ (State.jobDraws s j slots) := by
  refine Frame.comp h ?_ hs
  clear h hs
  unfold State.jobDraws
  (try dsimp -proj only)
  repeat' (with_reducible first
    | apply Frame.refl | apply State.drawGeneral_frame | apply State.draw_frame | decide | intro _ | split)

theorem State.restampJobs_frame {fs : List Field} {s₀ : State} {s : State} (h : Frame fs s₀ s) (hs : Field.sub [.burin] fs = true) :
    Frame fs s₀ (State.restampJobs s) := by
  refine Frame.comp h ?_ hs
  clear h hs
  unfold State.restampJobs
  (try dsimp -proj only)
  repeat' (with_reducible first
    | apply Frame.refl | decide | intro _ | split | apply Frame.put_burin)

theorem State.wakeIfLost_frame {fs : List Field} {s₀ : State} {s : State} {m : Mgr} {was : Bool}
    (h : Frame fs s₀ s) (hs : Field.sub [.mbx, .ctl, .plt, .wdg, .prof, .dcfg, .imm, .fca, .mins, .plat, .trace, .spdm, .rings, .views, .awaits, .drbg, .drawn, .led, .dev] fs = true) :
    Frame fs s₀ (State.wakeIfLost s m was) := by
  refine Frame.comp h ?_ hs
  clear h hs
  unfold State.wakeIfLost
  (try dsimp -proj only)
  repeat' (with_reducible first
    | apply Frame.refl | apply State.wakeUp_frame | decide | intro _ | split)

theorem State.resumeMain_frame {fs : List Field} {s₀ : State} {s : State} (h : Frame fs s₀ s) (hs : Field.sub [.mwd] fs = true) :
    Frame fs s₀ (State.resumeMain s) := by
  refine Frame.comp h ?_ hs
  clear h hs
  unfold State.resumeMain
  (try dsimp -proj only)
  repeat' (with_reducible first
    | apply Frame.refl | decide | intro _ | split | apply Frame.put_mwd)

theorem State.coreOut_frame {fs : List Field} {s₀ : State} {s : State} {k1 : Fin 4} {reason : Nat} {test : Bool}
    (h : Frame fs s₀ s) (hs : Field.sub [.rings, .views, .awaits, .burin, .dev] fs = true) :
    Frame fs s₀ (State.coreOut s k1 reason test) := by
  refine Frame.comp h ?_ hs
  clear h hs
  unfold State.coreOut
  (try dsimp -proj only)
  repeat' (with_reducible first
    | apply Frame.refl | apply State.abortCore_frame | apply State.modCore_frame | apply State.unitOut_frame | decide
    | intro _ | split)

theorem State.endOtp_frame {fs : List Field} {s₀ : State} {s : State} {st : Status}
    (h : Frame fs s₀ s) (hs : Field.sub [.rings, .views, .awaits, .otp, .dev] fs = true) :
    Frame fs s₀ (State.endOtp s st) := by
  refine Frame.comp h ?_ hs
  clear h hs
  unfold State.endOtp
  (try dsimp -proj only)
  repeat' (with_reducible first
    | apply Frame.refl | apply State.deliver_frame | decide | intro _ | split | apply Frame.put_otp)

theorem State.burnishChan_frame {fs : List Field} {s₀ : State} {s : State} {n : Fin 128}
    (h : Frame fs s₀ s) (hs : Field.sub [.ports, .mbx, .stn, .ctl, .plt, .wdg, .fps, .pol, .prof, .imm, .fca, .mins, .plat, .trace, .spdm, .rings, .views, .awaits, .drbg, .drawn, .led, .dev] fs = true) :
    Frame fs s₀ (State.burnishChan s n) := by
  refine Frame.comp h ?_ hs
  clear h hs
  unfold State.burnishChan
  (try dsimp -proj only)
  repeat' (with_reducible first
    | apply Frame.refl | apply State.hold_frame | apply State.reachHold_frame | apply State.modCtl_frame
    | apply State.endArming_frame | decide | intro _ | split)

theorem State.burnishKeys_frame {fs : List Field} {s₀ : State} {s : State}
    (h : Frame fs s₀ s) (hs : Field.sub [.wdg, .imm, .att, .rings, .views, .awaits, .burin, .keys, .dev] fs = true) :
    Frame fs s₀ (State.burnishKeys s) := by
  refine Frame.comp h ?_ hs
  clear h hs
  unfold State.burnishKeys
  (try dsimp -proj only)
  repeat' (with_reducible first
    | apply Frame.refl | apply State.forAll_frame | apply State.abortCore_frame | decide | intro _ | split
    | apply Frame.put_wdg_imm_att_keys_dev)

theorem State.logKey_frame {fs : List Field} {s₀ : State} {s : State} {kind : Nat} {info : List Nat}
    (h : Frame fs s₀ s) (hs : Field.sub [.trace] fs = true) :
    Frame fs s₀ (State.logKey s kind info) := by
  refine Frame.comp h ?_ hs
  clear h hs
  unfold State.logKey
  (try dsimp -proj only)
  repeat' (with_reducible first
    | apply Frame.refl | apply State.log_frame | decide | intro _ | split)

theorem State.burnish_frame {fs : List Field} {s₀ : State} {s : State} {source : Nat} {level : Nat}
    (h : Frame fs s₀ s) (hs : Field.sub [.ports, .mbx, .stn, .ctl, .plt, .wdg, .areas, .fps, .pol, .prof, .imm, .fca, .mins, .plat, .trace, .att, .spdm, .rings, .views, .awaits, .burin, .hash, .drbg, .drawn, .keys, .tamper, .otp, .led, .dev] fs = true) :
    Frame fs s₀ (State.burnish s source level) := by
  refine Frame.comp h ?_ hs
  clear h hs
  unfold State.burnish
  (try dsimp -proj only)
  repeat' (with_reducible first
    | apply Frame.refl | apply State.forChans_frame | apply State.burnishChan_frame | apply State.endSessions_frame
    | apply State.burnishKeys_frame | apply State.logKey_frame | apply State.raise_frame | apply State.endOtp_frame
    | apply State.dispatchJobs_frame | decide | intro _ | split | apply Frame.put_mbx_areas_imm_fca_hash
    | apply Frame.put_tamper)

theorem State.trip_frame {fs : List Field} {s₀ : State} {s : State} {sources : List Nat}
    (h : Frame fs s₀ s) (hs : Field.sub [.ports, .mbx, .stn, .ctl, .plt, .wdg, .areas, .fps, .pol, .prof, .dcfg, .imm, .fca, .mins, .plat, .trace, .att, .spdm, .rings, .views, .awaits, .burin, .hash, .drbg, .drawn, .keys, .tamper, .otp, .led, .dev] fs = true) :
    Frame fs s₀ (State.trip s sources) := by
  refine Frame.comp h ?_ hs
  clear h hs
  unfold State.trip
  (try dsimp -proj only)
  repeat' (with_reducible first
    | apply Frame.refl | apply State.forAll_frame | apply State.burnish_frame | apply State.logKey_frame
    | apply State.raise_frame | apply State.wakeUp_frame | apply Frame.foldl | apply Frame.foldl_fst | decide | intro _
    | split | apply Frame.put_tamper)

theorem State.noteFault_frame {fs : List Field} {s₀ : State} {s : State}
    (h : Frame fs s₀ s) (hs : Field.sub [.ports, .mbx, .stn, .ctl, .plt, .wdg, .areas, .fps, .pol, .prof, .dcfg, .imm, .fca, .mins, .plat, .trace, .att, .spdm, .rings, .views, .awaits, .burin, .hash, .drbg, .drawn, .keys, .tamper, .otp, .led, .dev] fs = true) :
    Frame fs s₀ (State.noteFault s) := by
  refine Frame.comp h ?_ hs
  clear h hs
  unfold State.noteFault
  (try dsimp -proj only)
  repeat' (with_reducible first
    | apply Frame.refl | apply State.trip_frame | apply State.raise_frame | decide | intro _ | split
    | apply Frame.put_burin)

theorem State.coreFault_frame {fs : List Field} {s₀ : State} {s : State} {k1 : Fin 4} {owner : Owner} {op : Nat}
    (h : Frame fs s₀ s) (hs : Field.sub [.ports, .mbx, .stn, .ctl, .plt, .wdg, .areas, .fps, .pol, .prof, .dcfg, .imm, .fca, .mins, .plat, .trace, .att, .spdm, .rings, .views, .awaits, .burin, .hash, .drbg, .drawn, .keys, .tamper, .otp, .led, .dev] fs = true) :
    Frame fs s₀ (State.coreFault s k1 owner op) := by
  refine Frame.comp h ?_ hs
  clear h hs
  unfold State.coreFault
  (try dsimp -proj only)
  repeat' (with_reducible first
    | apply Frame.refl | apply State.noteFault_frame | apply State.coreOut_frame | apply State.modCore_frame
    | apply State.raise_frame | decide | intro _ | split)

theorem State.coreFaulted_frame {fs : List Field} {s₀ : State} {s : State} {k1 : Fin 4} {j : BurinJob} {res : List Byte}
    (h : Frame fs s₀ s) (hs : Field.sub [.ports, .mbx, .stn, .ctl, .plt, .wdg, .areas, .fps, .pol, .prof, .dcfg, .imm, .fca, .mins, .plat, .trace, .att, .spdm, .rings, .views, .awaits, .burin, .hash, .drbg, .drawn, .keys, .tamper, .otp, .led, .dev] fs = true) :
    Frame fs s₀ (State.coreFaulted s k1 j res) := by
  refine Frame.comp h ?_ hs
  clear h hs
  unfold State.coreFaulted
  (try dsimp -proj only)
  repeat' (with_reducible first
    | apply Frame.refl | apply State.coreFault_frame | apply State.dispatchJobs_frame | apply State.modCore_frame
    | apply State.finishJob_frame | decide | intro _ | split)

theorem State.internalJob_frame {fs : List Field} {s₀ : State} {s : State} {op : Nat} {time : Nat} {faults : Nat}
    (h : Frame fs s₀ s) (hs : Field.sub [.ports, .mbx, .stn, .ctl, .plt, .wdg, .areas, .fps, .pol, .prof, .dcfg, .imm, .fca, .mins, .plat, .trace, .att, .spdm, .rings, .views, .awaits, .burin, .hash, .drbg, .drawn, .keys, .tamper, .otp, .led, .dev] fs = true) :
    Frame fs s₀ (State.internalJob s op time faults).2 := by
  refine Frame.comp h ?_ hs
  clear h hs
  unfold State.internalJob
  (try dsimp -proj only)
  repeat' (with_reducible first
    | apply Frame.refl | apply State.internalRun_frame | apply State.dispatchJobs_frame | apply State.coreFault_frame
    | decide | intro _ | split)

theorem State.putVaultKeys_frame {fs : List Field} {s₀ : State} {s : State} {salt : Nat}
    (h : Frame fs s₀ s) (hs : Field.sub [.keys] fs = true) :
    Frame fs s₀ (State.putVaultKeys s salt) := by
  refine Frame.comp h ?_ hs
  clear h hs
  unfold State.putVaultKeys
  (try dsimp -proj only)
  repeat' (with_reducible first
    | apply Frame.refl | apply State.putDevKey_frame | decide | intro _ | split | apply Frame.put_keys)

theorem State.commitVault_frame {fs : List Field} {s₀ : State} {s : State} {slots : Vector KeySlot 256} {counter : DWord}
    (h : Frame fs s₀ s) (hs : Field.sub [.drawn, .keys, .led] fs = true) :
    Frame fs s₀ (State.commitVault s slots counter) := by
  refine Frame.comp h ?_ hs
  clear h hs
  unfold State.commitVault
  (try dsimp -proj only)
  repeat' (with_reducible first
    | apply Frame.refl | apply State.committed_frame | apply State.putVaultKeys_frame | apply State.draw_frame | decide
    | intro _ | split | apply Frame.put_keys)

theorem Frame.ite_fst {β : Type} {fs : List Field} {s₀ : State} {c : Prop} [Decidable c] {x y : State × β} (hx : Frame fs s₀ x.1) (hy : Frame fs s₀ y.1) :
    Frame fs s₀ (if c then x else y).1 := by split <;> assumption
theorem State.keyUpdate_frame {fs : List Field} {s₀ s : State} {m : Mgr} {msg : List Byte}
    (h : Frame fs s₀ s) (hs : Field.sub [.trace, .rings, .drawn, .keys, .led, .dev] fs = true) :
    Frame fs s₀ (State.keyUpdate s m msg).1 := by
  refine Frame.comp h ?_ hs
  clear h hs
  unfold State.keyUpdate
  extract_lets a b c d e f k
  clear_value a b c d e f k
  iterate 8 refine Frame.ite_fst (Frame.refl _ _) ?_
  split
  · exact Frame.refl _ _
  · extract_lets l
    split
    · exact Frame.refl _ _
    · refine Frame.ite_fst (Frame.refl _ _) ?_
      refine Frame.ite_fst (Frame.refl _ _) ?_
      extract_lets n s1 s2
      refine State.logKey_frame (State.raise_frame ?_ (by decide)) (by decide)
      exact Frame.put_dev (State.commitVault_frame (Frame.refl _ _) (by decide)) (by decide)

theorem State.noteKeyUpdate_frame {fs : List Field} {s₀ : State} {s : State} {st : Status}
    (h : Frame fs s₀ s) (hs : Field.sub [.keys] fs = true) :
    Frame fs s₀ (State.noteKeyUpdate s st) := by
  refine Frame.comp h ?_ hs
  clear h hs
  unfold State.noteKeyUpdate
  (try dsimp -proj only)
  repeat' (with_reducible first
    | apply Frame.refl | decide | intro _ | split | apply Frame.put_keys)

theorem State.entropyFail_frame {fs : List Field} {s₀ : State} {s : State} {t1 : EntropyTest}
    (h : Frame fs s₀ s) (hs : Field.sub [.rings, .drbg] fs = true) :
    Frame fs s₀ (State.entropyFail s t1) := by
  refine Frame.comp h ?_ hs
  clear h hs
  unfold State.entropyFail
  (try dsimp -proj only)
  repeat' (with_reducible first
    | apply Frame.refl | apply State.raise_frame | decide | intro _ | split | apply Frame.put_drbg)

theorem State.jobOutput_frame {fs : List Field} {s₀ : State} {s : State} {j : BurinJob} {slots : Nat} {dma : Option DmaFail} {res : List Byte}
    (h : Frame fs s₀ s) (hs : Field.sub [.rings, .views, .awaits, .drbg, .drawn, .keys, .led, .dev] fs = true) :
    Frame fs s₀ (State.jobOutput s j slots dma res) := by
  refine Frame.comp h ?_ hs
  clear h hs
  unfold State.jobOutput
  (try dsimp -proj only)
  repeat' (with_reducible first
    | apply Frame.refl | apply State.jobDraws_frame | apply State.commitVault_frame | apply State.ringDmaFailed_frame
    | apply State.toBuffer_frame | apply State.finish_frame | decide | intro _ | split | apply Frame.put_keys)

theorem State.entropyPass_frame {fs : List Field} {s₀ : State} {s : State} (h : Frame fs s₀ s) (hs : Field.sub [.drbg] fs = true) :
    Frame fs s₀ (State.entropyPass s) := by
  refine Frame.comp h ?_ hs
  clear h hs
  unfold State.entropyPass
  (try dsimp -proj only)
  repeat' (with_reducible first
    | apply Frame.refl | decide | intro _ | split | apply Frame.put_drbg)

theorem State.entropyTest_frame {fs : List Field} {s₀ : State} {s : State} {pass : Bool}
    (h : Frame fs s₀ s) (hs : Field.sub [.rings, .drbg] fs = true) :
    Frame fs s₀ (State.entropyTest s pass) := by
  refine Frame.comp h ?_ hs
  clear h hs
  unfold State.entropyTest
  (try dsimp -proj only)
  repeat' (with_reducible first
    | apply Frame.refl | apply State.entropyFail_frame | apply State.entropyPass_frame | decide | intro _ | split
    | apply Frame.put_drbg)

theorem State.abortBurin_frame {fs : List Field} {s₀ : State} {s : State} {src : Src}
    (h : Frame fs s₀ s) (hs : Field.sub [.rings, .views, .awaits, .burin, .keys, .dev] fs = true) :
    Frame fs s₀ (State.abortBurin s src).1 := by
  refine Frame.comp h ?_ hs
  clear h hs
  unfold State.abortBurin
  (try dsimp -proj only)
  repeat' (with_reducible first
    | apply Frame.refl | apply State.modCore_frame | apply State.coreOut_frame | apply State.dispatchJobs_frame | decide
    | intro _ | split | apply Frame.put_burin)

theorem State.abortHash_frame {fs : List Field} {s₀ : State} {s : State} {src : Src}
    (h : Frame fs s₀ s) (hs : Field.sub [.hash] fs = true) :
    Frame fs s₀ (State.abortHash s src).1 := by
  refine Frame.comp h ?_ hs
  clear h hs
  unfold State.abortHash
  (try dsimp -proj only)
  repeat' (with_reducible first
    | apply Frame.refl | apply State.modHash_frame | decide | intro _ | split)

theorem State.stopCommand_frame {fs : List Field} {s₀ : State} {s : State} {src : Src} {info : Nat}
    (h : Frame fs s₀ s) (hs : Field.sub [.ctl, .plt, .spdm, .rings, .views, .awaits, .burin, .hash, .keys, .otp, .dev] fs = true) :
    Frame fs s₀ (State.stopCommand s src info).1 := by
  refine Frame.comp h ?_ hs
  clear h hs
  unfold State.stopCommand
  (try dsimp -proj only)
  repeat' (with_reducible first
    | apply Frame.refl | apply State.abortBurin_frame | apply State.abortHash_frame | apply State.modRing_frame
    | apply State.endArming_frame | apply State.finish_frame | decide | intro _ | split | apply Frame.put_awaits
    | apply Frame.put_otp)

theorem State.abortSq_frame {fs : List Field} {s₀ : State} {s : State} {m : Mgr} {qid : Nat}
    (h : Frame fs s₀ s) (hs : Field.sub [.ctl, .plt, .spdm, .rings, .views, .awaits, .burin, .hash, .keys, .otp, .dev] fs = true) :
    Frame fs s₀ (State.abortSq s m qid) := by
  refine Frame.comp h ?_ hs
  clear h hs
  unfold State.abortSq
  (try dsimp -proj only)
  repeat' (with_reducible first
    | apply Frame.refl | apply State.stopCommand_frame | apply State.forAll_frame | decide | intro _ | split)

theorem State.putSq_frame {fs : List Field} {s₀ : State} {s : State} {m : Mgr} {qid : Nat} {q : Sq}
    (h : Frame fs s₀ s) (hs : Field.sub [.rings] fs = true) :
    Frame fs s₀ (State.putSq s m qid q) := by
  refine Frame.comp h ?_ hs
  clear h hs
  unfold State.putSq
  (try dsimp -proj only)
  repeat' (with_reducible first
    | apply Frame.refl | apply State.modRing_frame | decide | intro _ | split)

theorem State.disableHalf_frame {fs : List Field} {s₀ : State} {s : State} {m : Mgr}
    (h : Frame fs s₀ s) (hs : Field.sub [.ctl, .plt, .spdm, .rings, .views, .awaits, .burin, .hash, .keys, .dev] fs = true) :
    Frame fs s₀ (State.disableHalf s m) := by
  refine Frame.comp h ?_ hs
  clear h hs
  unfold State.disableHalf
  (try dsimp -proj only)
  repeat' (with_reducible first
    | apply Frame.refl | apply State.abortBurin_frame | apply State.forAll_frame | apply State.modHash_frame
    | apply State.abortHash_frame | apply State.modRing_frame | apply State.endArming_frame | decide | intro _ | split
    | apply Frame.put_awaits | apply Frame.put_dev)

theorem State.putCq_frame {fs : List Field} {s₀ : State} {s : State} {m : Mgr} {qid : Nat} {c : Cq}
    (h : Frame fs s₀ s) (hs : Field.sub [.rings] fs = true) :
    Frame fs s₀ (State.putCq s m qid c) := by
  refine Frame.comp h ?_ hs
  clear h hs
  unfold State.putCq
  (try dsimp -proj only)
  repeat' (with_reducible first
    | apply Frame.refl | apply State.modRing_frame | decide | intro _ | split)

theorem State.reserve_frame {fs : List Field} {s₀ : State} {s : State} {m : Mgr} {q : Sq}
    (h : Frame fs s₀ s) (hs : Field.sub [.rings] fs = true) :
    Frame fs s₀ (State.reserve s m q) := by
  refine Frame.comp h ?_ hs
  clear h hs
  unfold State.reserve
  (try dsimp -proj only)
  repeat' (with_reducible first
    | apply Frame.refl | apply State.putCq_frame | decide | intro _ | split)

theorem State.consumeFast_frame {fs : List Field} {s₀ : State} {s : State} {m : Mgr} {qid : Nat} {q : Sq} {units : List Byte}
    (h : Frame fs s₀ s) (hs : Field.sub [.rings, .views, .awaits, .dev] fs = true) :
    Frame fs s₀ (State.consumeFast s m qid q units) := by
  refine Frame.comp h ?_ hs
  clear h hs
  unfold State.consumeFast
  (try dsimp -proj only)
  repeat' (with_reducible first
    | apply Frame.refl | apply State.finish_frame | apply State.putSq_frame | apply State.reserve_frame | decide | intro _
    | split)

theorem State.holdSq_frame {fs : List Field} {s₀ : State} {s : State} {m : Mgr} {qid : Nat} {q : Sq}
    (h : Frame fs s₀ s) (hs : Field.sub [.rings] fs = true) :
    Frame fs s₀ (State.holdSq s m qid q) := by
  refine Frame.comp h ?_ hs
  clear h hs
  unfold State.holdSq
  (try dsimp -proj only)
  repeat' (with_reducible first
    | apply Frame.refl | apply State.putSq_frame | decide | intro _ | split)

theorem State.served_frame {fs : List Field} {s₀ : State} {s : State} {m : Mgr} {q : Nat} {cls : Nat}
    (h : Frame fs s₀ s) (hs : Field.sub [.arb] fs = true) :
    Frame fs s₀ (State.served s m q cls) := by
  refine Frame.comp h ?_ hs
  clear h hs
  unfold State.served
  (try dsimp -proj only)
  repeat' (with_reducible first
    | apply Frame.refl | decide | intro _ | split | apply Frame.put_arb)

theorem State.consume_frame {fs : List Field} {s₀ : State} {s : State} {m : Mgr} {qid : Nat} {q : Sq} {units : List Byte}
    (h : Frame fs s₀ s) (hs : Field.sub [.rings, .arb, .views, .awaits, .dev] fs = true) :
    Frame fs s₀ (State.consume s m qid q units) := by
  refine Frame.comp h ?_ hs
  clear h hs
  unfold State.consume
  (try dsimp -proj only)
  repeat' (with_reducible first
    | apply Frame.refl | apply State.modRing_frame | apply State.holdSq_frame | apply State.finish_frame
    | apply State.putSq_frame | apply State.served_frame | apply State.reserve_frame | decide | intro _ | split)

theorem State.postToHost_frame {fs : List Field} {s₀ : State} {s : State} {src : Src} {n : Fin 128} {data : List Byte}
    (h : Frame fs s₀ s) (hs : Field.sub [.mbx, .rings, .views, .awaits, .dev] fs = true) :
    Frame fs s₀ (State.postToHost s src n data) := by
  refine Frame.comp h ?_ hs
  clear h hs
  unfold State.postToHost
  (try dsimp -proj only)
  repeat' (with_reducible first
    | apply Frame.refl | apply State.modMbx_frame | apply State.deliver_frame | decide | intro _ | split)

theorem State.fetchFault_frame {fs : List Field} {s₀ : State} {s : State} {m : Mgr} {q : Byte} {x : Sq}
    (h : Frame fs s₀ s) (hs : Field.sub [.rings, .views] fs = true) :
    Frame fs s₀ (State.fetchFault s m q x) := by
  refine Frame.comp h ?_ hs
  clear h hs
  unfold State.fetchFault
  (try dsimp -proj only)
  repeat' (with_reducible first
    | apply Frame.refl | apply State.queueFault_frame | apply State.ringDmaFailed_frame | decide | intro _ | split)

theorem State.ackMessage_frame {fs : List Field} {s₀ : State} {s : State} {c : Caller} {n : Fin 128} {offset : Nat} {len : Nat}
    (h : Frame fs s₀ s) (hs : Field.sub [.mbx] fs = true) :
    Frame fs s₀ (State.ackMessage s c n offset len) := by
  refine Frame.comp h ?_ hs
  clear h hs
  unfold State.ackMessage
  (try dsimp -proj only)
  repeat' (with_reducible first
    | apply Frame.refl | apply State.modMbx_frame | decide | intro _ | split)

theorem State.getLogAns_frame {fs : List Field} {s₀ : State} {s : State} {c : Caller} {page : Byte} {sel : Half} {offset : Nat} {len : Nat}
    (h : Frame fs s₀ s) (hs : Field.sub [.mbx] fs = true) :
    Frame fs s₀ (State.getLogAns s c page sel offset len).1 := by
  refine Frame.comp h ?_ hs
  clear h hs
  unfold State.getLogAns
  (try dsimp -proj only)
  repeat' (with_reducible first
    | apply Frame.refl | apply State.ackMessage_frame | decide | intro _ | split)

theorem State.i3cRefused_frame {fs : List Field} {s₀ : State} {s : State} {ep : Fin 8}
    (h : Frame fs s₀ s) (hs : Field.sub [.i3c] fs = true) :
    Frame fs s₀ (State.i3cRefused s ep) := by
  refine Frame.comp h ?_ hs
  clear h hs
  unfold State.i3cRefused
  (try dsimp -proj only)
  repeat' (with_reducible first
    | apply Frame.refl | apply State.modI3c_frame | decide | intro _ | split)

theorem State.mctpAnswer_frame {fs : List Field} {s₀ : State} {s : State} {ep : Fin 8} {cid : Half} {a : Answer}
    (h : Frame fs s₀ s) (hs : Field.sub [.spdm] fs = true) :
    Frame fs s₀ (State.mctpAnswer s ep cid a) := by
  refine Frame.comp h ?_ hs
  clear h hs
  unfold State.mctpAnswer
  (try dsimp -proj only)
  repeat' (with_reducible first
    | apply Frame.refl | apply State.mctpReply_frame | decide | intro _ | split)

theorem State.mctpNegotiate_frame {fs : List Field} {s₀ : State} {s : State} {ep : Fin 8} {e : Entry}
    (h : Frame fs s₀ s) (hs : Field.sub [.spdm] fs = true) :
    Frame fs s₀ (State.mctpNegotiate s ep e) := by
  refine Frame.comp h ?_ hs
  clear h hs
  unfold State.mctpNegotiate
  (try dsimp -proj only)
  repeat' (with_reducible first
    | apply Frame.refl | apply State.mctpAnswer_frame | apply State.modEp_frame | decide | intro _ | split)

theorem State.mctpOrder_frame {fs : List Field} {s₀ : State} {s : State} {ep : Fin 8} {e : Entry} {m : Mgr} {o : Order}
    (h : Frame fs s₀ s) (hs : Field.sub [.ports, .mbx, .stn, .ctl, .plt, .wdg, .prof, .twl, .imm, .fca, .mins, .plat, .trace, .spdm, .rings, .views, .awaits, .drbg, .drawn, .led, .dev] fs = true) :
    Frame fs s₀ (State.mctpOrder s ep e m o) := by
  refine Frame.comp h ?_ hs
  clear h hs
  unfold State.mctpOrder
  (try dsimp -proj only)
  repeat' (with_reducible first
    | apply Frame.refl | apply State.order_frame | apply State.mctpAnswer_frame | decide | intro _ | split)

theorem State.noteQuote_frame {fs : List Field} {s₀ : State} {s : State} {ep : Fin 8}
    (h : Frame fs s₀ s) (hs : Field.sub [.i3c] fs = true) :
    Frame fs s₀ (State.noteQuote s ep) := by
  refine Frame.comp h ?_ hs
  clear h hs
  unfold State.noteQuote
  (try dsimp -proj only)
  repeat' (with_reducible first
    | apply Frame.refl | apply State.modI3c_frame | decide | intro _ | split)

theorem State.mctpQuote_frame {fs : List Field} {s₀ : State} {s : State} {ep : Fin 8} {cid : Half} {raw : List Byte}
    (h : Frame fs s₀ s) (hs : Field.sub [.trace, .att, .spdm, .i3c, .rings, .burin, .drbg, .drawn, .led] fs = true) :
    Frame fs s₀ (State.mctpQuote s ep cid raw) := by
  refine Frame.comp h ?_ hs
  clear h hs
  unfold State.mctpQuote
  (try dsimp -proj only)
  repeat' (with_reducible first
    | apply Frame.refl | apply State.noteQuote_frame | apply State.mctpAnswer_frame | apply State.takeQuote_frame | decide
    | intro _ | split)

theorem State.mctpExecute_frame {fs : List Field} {s₀ : State} {s : State} {ep : Fin 8} {e : Entry}
    (h : Frame fs s₀ s) (hs : Field.sub [.ports, .mbx, .stn, .ctl, .plt, .wdg, .prof, .twl, .imm, .fca, .mins, .plat, .trace, .att, .spdm, .i3c, .rings, .views, .awaits, .burin, .drbg, .drawn, .led, .dev] fs = true) :
    Frame fs s₀ (State.mctpExecute s ep e) := by
  refine Frame.comp h ?_ hs
  clear h hs
  unfold State.mctpExecute
  (try dsimp -proj only)
  repeat' (with_reducible first
    | apply Frame.refl | apply State.getLogAns_frame | apply State.mctpAnswer_frame | apply State.mctpNegotiate_frame
    | apply State.readTrace_frame | apply State.mctpOrder_frame | apply State.mctpQuote_frame | decide | intro _ | split)

theorem State.commitPolicy_frame {fs : List Field} {s₀ : State} {s : State} {b : Bundle}
    (h : Frame fs s₀ s) (hs : Field.sub [.stn, .polLedger, .polMin, .tamperPol, .led] fs = true) :
    Frame fs s₀ (State.commitPolicy s b) := by
  refine Frame.comp h ?_ hs
  clear h hs
  unfold State.commitPolicy
  (try dsimp -proj only)
  repeat' (with_reducible first
    | apply Frame.refl | apply State.committed_frame | decide | intro _ | split
    | apply Frame.put_stn_polLedger_polMin_tamperPol)

theorem State.applySections_frame {fs : List Field} {s₀ : State} {s : State} {b : Bundle}
    (h : Frame fs s₀ s) (hs : Field.sub [.mbx, .stn, .pol, .trace, .rings] fs = true) :
    Frame fs s₀ (State.applySections s b) := by
  refine Frame.comp h ?_ hs
  clear h hs
  unfold State.applySections
  (try dsimp -proj only)
  repeat' (with_reducible first
    | apply Frame.refl | apply State.forChans_frame | apply State.applySection_frame | decide | intro _ | split)

theorem State.tighten_frame {fs : List Field} {s₀ : State} {s : State} {src : Src} {n : Fin 128} {persist : Bool} {l : List Change} {rival : Bool}
    (h : Frame fs s₀ s) (hs : Field.sub [.mbx, .stn, .trace, .rings, .views, .awaits, .hdrs, .led, .dev] fs = true) :
    Frame fs s₀ (State.tighten s src n persist l rival) := by
  refine Frame.comp h ?_ hs
  clear h hs
  unfold State.tighten
  (try dsimp -proj only)
  repeat' (with_reducible first
    | apply Frame.refl | apply State.committed_frame | apply State.deliver_frame | apply State.adoptChanged_frame
    | apply State.discardShadow_frame | apply State.shdResult_frame | apply State.modStn_frame | decide | intro _ | split)

theorem State.noteOtp_frame {fs : List Field} {s₀ : State} {s : State} {r : Nat} {st : Status}
    (h : Frame fs s₀ s) (hs : Field.sub [.otp] fs = true) :
    Frame fs s₀ (State.noteOtp s r st) := by
  refine Frame.comp h ?_ hs
  clear h hs
  unfold State.noteOtp
  (try dsimp -proj only)
  repeat' (with_reducible first
    | apply Frame.refl | decide | intro _ | split | apply Frame.put_otp)

theorem State.refuseOtp_frame {fs : List Field} {s₀ : State} {s : State} {src : Src} {r : Nat} {st : Status} {info : optParam Nat 0}
    (h : Frame fs s₀ s) (hs : Field.sub [.rings, .views, .awaits, .otp, .dev] fs = true) :
    Frame fs s₀ (State.refuseOtp s src r st info) := by
  refine Frame.comp h ?_ hs
  clear h hs
  unfold State.refuseOtp
  (try dsimp -proj only)
  repeat' (with_reducible first
    | apply Frame.refl | apply State.deliver_frame | apply State.noteOtp_frame | decide | intro _ | split)

theorem State.endPulses_frame {fs : List Field} {s₀ : State} {s : State} {src : Src} {r : Nat} {code : Nat} {run : PulseRun} {l : List Nat} {st : Status}
    (h : Frame fs s₀ s) (hs : Field.sub [.rings, .views, .awaits, .otp, .dev] fs = true) :
    Frame fs s₀ (State.endPulses s src r code run l st) := by
  refine Frame.comp h ?_ hs
  clear h hs
  unfold State.endPulses
  (try dsimp -proj only)
  repeat' (with_reducible first
    | apply Frame.refl | apply State.deliver_frame | apply State.noteOtp_frame | decide | intro _ | split
    | apply Frame.put_otp)

theorem State.finalise_frame {fs : List Field} {s₀ : State} {s : State} {src : Src} {r : Nat} {ev : PulseEv}
    (h : Frame fs s₀ s) (hs : Field.sub [.rings, .views, .awaits, .otp, .dev] fs = true) :
    Frame fs s₀ (State.finalise s src r ev) := by
  refine Frame.comp h ?_ hs
  clear h hs
  unfold State.finalise
  (try dsimp -proj only)
  repeat' (with_reducible first
    | apply Frame.refl | apply State.endPulses_frame | apply State.raise_frame | decide | intro _ | split)

theorem State.lifecycleChanged_frame {fs : List Field} {s₀ : State} {s : State} {before : Nat}
    (h : Frame fs s₀ s) (hs : Field.sub [.intw, .rings, .otp] fs = true) :
    Frame fs s₀ (State.lifecycleChanged s before) := by
  refine Frame.comp h ?_ hs
  clear h hs
  unfold State.lifecycleChanged
  (try dsimp -proj only)
  repeat' (with_reducible first
    | apply Frame.refl | apply State.raise_frame | decide | intro _ | split | apply Frame.put_intw_otp)

theorem State.tmpClear_frame {fs : List Field} {s₀ : State} {s : State} {m : Mgr}
    (h : Frame fs s₀ s) (hs : Field.sub [.rings, .views, .hdrs, .tamper] fs = true) :
    Frame fs s₀ (State.tmpClear s m) := by
  refine Frame.comp h ?_ hs
  clear h hs
  unfold State.tmpClear
  (try dsimp -proj only)
  repeat' (with_reducible first
    | apply Frame.refl | apply State.forAll_frame | apply State.ignoredWrite_frame | apply State.raise_frame | decide
    | intro _ | split | apply Frame.put_tamper)

theorem State.tmpRearm_frame {fs : List Field} {s₀ : State} {s : State} {m : Mgr}
    (h : Frame fs s₀ s) (hs : Field.sub [.ports, .mbx, .stn, .ctl, .plt, .wdg, .areas, .fps, .imm, .fca, .farm, .pool, .devfw, .plat, .intw, .trace, .att, .spdm, .rings, .views, .hdrs, .burin, .hash, .drbg, .keys, .tamper, .otp, .power, .led, .dev] fs = true) :
    Frame fs s₀ (State.tmpRearm s m) := by
  refine Frame.comp h ?_ hs
  clear h hs
  unfold State.tmpRearm
  (try dsimp -proj only)
  repeat' (with_reducible first
    | apply Frame.refl | apply State.warmReset_frame | apply State.ignoredWrite_frame | decide | intro _ | split)

theorem State.otpCommand_frame {fs : List Field} {s : State} {src : Src} {c : Instr} {r : Nat} {body : State → State} {s₀ : State} (h₀ : Frame fs s₀ s) (hs : Field.sub [.rings, .views, .awaits, .otp, .dev] fs = true)
    (h : ∀ s, Frame fs s (body s)) :
    Frame fs s₀ (State.otpCommand s src c r body) := by
  refine Frame.comp h₀ ?_ (Field.sub_refl _)
  unfold State.otpCommand
  (try dsimp -proj only)
  repeat' (with_reducible first
    | apply Frame.refl | assumption | apply h | (refine Field.sub_trans ?_ hs; decide) | apply State.refuseOtp_frame
    | apply State.ovdelOr_frame | apply State.deliver_frame | split | intro _)

theorem State.onHdr_frame {fs : List Field} {s₀ : State} {s : State} {m : Mgr} {page : Nat} {f : Hdr → Hdr}
    (h : Frame fs s₀ s) (hs : Field.sub [.views, .hdrs] fs = true) :
    Frame fs s₀ (State.onHdr s m page f) := by
  refine Frame.comp h ?_ hs
  clear h hs
  unfold State.onHdr
  (try dsimp -proj only)
  repeat' (with_reducible first
    | apply Frame.refl | apply State.modHdr_frame | decide | intro _ | split)

theorem State.badAccess_frame {fs : List Field} {s₀ : State} {s : State} {m : Mgr} {off : Nat}
    (h : Frame fs s₀ s) (hs : Field.sub [.views, .hdrs] fs = true) :
    Frame fs s₀ (State.badAccess s m off) := by
  refine Frame.comp h ?_ hs
  clear h hs
  unfold State.badAccess
  (try dsimp -proj only)
  repeat' (with_reducible first
    | apply Frame.refl | apply State.modView_frame | apply State.onHdr_frame | apply State.countUnmapped_frame | decide
    | intro _ | split)

theorem State.barRead_frame {fs : List Field} {s₀ : State} {s : State} {m : Mgr} {off : Nat}
    (h : Frame fs s₀ s) (hs : Field.sub [.views, .hdrs] fs = true) :
    Frame fs s₀ (State.barRead s m off) := by
  refine Frame.comp h ?_ hs
  clear h hs
  unfold State.barRead
  (try dsimp -proj only)
  repeat' (with_reducible first
    | apply Frame.refl | apply State.badAccess_frame | apply State.modView_frame | apply State.countUnmapped_frame
    | decide | intro _ | split)

theorem State.lockWritten_frame {fs : List Field} {s₀ : State} {s : State} {m : Mgr} {page : Nat}
    (h : Frame fs s₀ s) (hs : Field.sub [.views, .hdrs] fs = true) :
    Frame fs s₀ (State.lockWritten s m page) := by
  refine Frame.comp h ?_ hs
  clear h hs
  unfold State.lockWritten
  (try dsimp -proj only)
  repeat' (with_reducible first
    | apply Frame.refl | apply State.ignoredWrite_frame | decide | intro _ | split)

theorem State.mbxWrite_frame {fs : List Field} {s₀ : State} {s : State} {m : Mgr} {n : Fin 128} {off : Nat} {o : Nat} {v : Word}
    (h : Frame fs s₀ s) (hs : Field.sub [.ports, .views, .hdrs] fs = true) :
    Frame fs s₀ (State.mbxWrite s m n off o v) := by
  refine Frame.comp h ?_ hs
  clear h hs
  unfold State.mbxWrite
  (try dsimp -proj only)
  repeat' (with_reducible first
    | apply Frame.refl | apply State.ignoredWrite_frame | apply State.modPort_frame | decide | intro _ | split)

theorem State.after_frame {L : List Field} {s₀ s : State} {f : State → Out} (h₀ : Frame L s₀ s) (h : ∀ t, f s = .next t → Frame L s t) :
    Frame L s₀ (s.after f) := by
  unfold State.after; split
  · exact Frame.comp h₀ (h _ (by assumption)) (Field.sub_refl _)
  · exact h₀
  · exact h₀

theorem State.shadowWrite_frame {fs : List Field} {s₀ : State} {s : State} {m : Mgr} {n : Fin 128} {g : SReg} {v : Word}
    (h : Frame fs s₀ s) (hs : Field.sub [.stn] fs = true) :
    Frame fs s₀ (State.shadowWrite s m n g v) := by
  refine Frame.comp h ?_ hs
  clear h hs
  unfold State.shadowWrite
  (try dsimp -proj only)
  repeat' (with_reducible first
    | apply Frame.refl | apply State.modStn_frame | decide | intro _ | split)

theorem State.doorbellWrite_frame {fs : List Field} {s₀ : State} {s : State} {m : Mgr} {o : Nat} {v : Word}
    (h : Frame fs s₀ s) (hs : Field.sub [.rings] fs = true) :
    Frame fs s₀ (State.doorbellWrite s m o v) := by
  refine Frame.comp h ?_ hs
  clear h hs
  unfold State.doorbellWrite
  (try dsimp -proj only)
  repeat' (with_reducible first
    | apply Frame.refl | apply State.modRing_frame | decide | intro _ | split)

theorem State.irqClear_frame {fs : List Field} {s₀ : State} {s : State} {m : Mgr} {page : Nat} {v : Word}
    (h : Frame fs s₀ s) (hs : Field.sub [.views, .hdrs] fs = true) :
    Frame fs s₀ (State.irqClear s m page v) := by
  refine Frame.comp h ?_ hs
  clear h hs
  unfold State.irqClear
  (try dsimp -proj only)
  repeat' (with_reducible first
    | apply Frame.refl | apply State.onHdr_frame | decide | intro _ | split)

theorem State.errClear_frame {fs : List Field} {s₀ : State} {s : State} {m : Mgr} {page : Nat} {v : Word}
    (h : Frame fs s₀ s) (hs : Field.sub [.views, .hdrs] fs = true) :
    Frame fs s₀ (State.errClear s m page v) := by
  refine Frame.comp h ?_ hs
  clear h hs
  unfold State.errClear
  (try dsimp -proj only)
  repeat' (with_reducible first
    | apply Frame.refl | apply State.onHdr_frame | decide | intro _ | split)

theorem State.holdLow_frame {fs : List Field} {s₀ : State} {s : State} {m : Mgr} {off : Nat} {v : Word}
    (h : Frame fs s₀ s) (hs : Field.sub [.views] fs = true) :
    Frame fs s₀ (State.holdLow s m off v) := by
  refine Frame.comp h ?_ hs
  clear h hs
  unfold State.holdLow
  (try dsimp -proj only)
  repeat' (with_reducible first
    | apply Frame.refl | apply State.modView_frame | decide | intro _ | split)

theorem State.rngWrite_frame {fs : List Field} {s₀ : State} {s : State} {m : Mgr} {off : Nat} {o : Nat} {v : Word}
    (h : Frame fs s₀ s) (hs : Field.sub [.ctl, .plt, .spdm, .rings, .views, .awaits, .hdrs, .burin, .hash, .keys, .dev] fs = true) :
    Frame fs s₀ (State.rngWrite s m off o v) := by
  refine Frame.comp h ?_ hs
  clear h hs
  unfold State.rngWrite
  (try dsimp -proj only)
  repeat' (with_reducible first
    | apply Frame.refl | apply State.disableHalf_frame | apply State.ignoredWrite_frame | apply State.modRing_frame
    | apply State.holdLow_frame | decide | intro _ | split)

theorem State.pwrWrite_frame {fs : List Field} {s₀ : State} {s : State} {m : Mgr} {off : Nat} {o : Nat} {v : Word}
    (h : Frame fs s₀ s) (hs : Field.sub [.views, .hdrs, .power] fs = true) :
    Frame fs s₀ (State.pwrWrite s m off o v) := by
  refine Frame.comp h ?_ hs
  clear h hs
  unfold State.pwrWrite
  (try dsimp -proj only)
  repeat' (with_reducible first
    | apply Frame.refl | apply State.ignoredWrite_frame | decide | intro _ | split | apply Frame.put_power)

theorem State.tmpWrite_frame {fs : List Field} {s₀ : State} {s : State} {m : Mgr} {off : Nat} {o : Nat} {v : Word}
    (h : Frame fs s₀ s) (hs : Field.sub [.ports, .mbx, .stn, .ctl, .plt, .wdg, .areas, .fps, .imm, .fca, .farm, .pool, .devfw, .plat, .intw, .trace, .att, .spdm, .rings, .views, .hdrs, .burin, .hash, .drbg, .keys, .tamper, .otp, .power, .led, .dev] fs = true) :
    Frame fs s₀ (State.tmpWrite s m off o v) := by
  refine Frame.comp h ?_ hs
  clear h hs
  unfold State.tmpWrite
  (try dsimp -proj only)
  repeat' (with_reducible first
    | apply Frame.refl | apply State.tmpRearm_frame | apply State.ignoredWrite_frame | apply State.tmpClear_frame | decide
    | intro _ | split)

theorem State.enterStandby_frame {fs : List Field} {s₀ : State} {s : State}
    (h : Frame fs s₀ s) (hs : Field.sub [.ports, .stn, .ctl, .wdg, .plat, .trace, .spdm, .rings, .views, .awaits, .dev] fs = true) :
    Frame fs s₀ (State.enterStandby s) := by
  refine Frame.comp h ?_ hs
  clear h hs
  unfold State.enterStandby
  (try dsimp -proj only)
  repeat' (with_reducible first
    | apply Frame.refl | apply State.hold_frame | apply State.forChans_frame | apply State.keepLines_frame
    | apply State.setDev_frame | apply State.modCtl_frame | decide | intro _ | split | apply Frame.put_dev)

theorem State.noteKeepLost_frame {fs : List Field} {s₀ : State} {s : State} (h : Frame fs s₀ s) (hs : Field.sub [.rings] fs = true) :
    Frame fs s₀ (State.noteKeepLost s) := by
  refine Frame.comp h ?_ hs
  clear h hs
  unfold State.noteKeepLost
  (try dsimp -proj only)
  repeat' (with_reducible first
    | apply Frame.refl | apply State.forChans_frame | apply State.raise_frame | decide | intro _ | split)

theorem State.startPorts_frame {fs : List Field} {s₀ : State} {s : State} (h : Frame fs s₀ s) (hs : Field.sub [.fps, .prof] fs = true) :
    Frame fs s₀ (State.startPorts s) := by
  refine Frame.comp h ?_ hs
  clear h hs
  unfold State.startPorts
  (try dsimp -proj only)
  repeat' (with_reducible first
    | apply Frame.refl | apply State.forChans_frame | apply State.startDiscovery_frame | decide | intro _ | split)

theorem State.noteBrownout_frame {fs : List Field} {s₀ : State} {s : State}
    (h : Frame fs s₀ s) (hs : Field.sub [.rings, .power] fs = true) :
    Frame fs s₀ (State.noteBrownout s) := by
  refine Frame.comp h ?_ hs
  clear h hs
  unfold State.noteBrownout
  (try dsimp -proj only)
  repeat' (with_reducible first
    | apply Frame.refl | apply State.raise_frame | decide | intro _ | split | apply Frame.put_power)

theorem State.startImage_frame {fs : List Field} {s₀ : State} {s : State} {trained : Byte}
    (h : Frame fs s₀ s) (hs : Field.sub [.imm, .drbg, .drawn, .keys] fs = true) :
    Frame fs s₀ (State.startImage s trained) := by
  refine Frame.comp h ?_ hs
  clear h hs
  unfold State.startImage
  (try dsimp -proj only)
  repeat' (with_reducible first
    | apply Frame.refl | apply State.forAll_frame | apply State.putDevKey_frame | apply State.drawGeneral_frame | decide
    | intro _ | split | apply Frame.put_imm_drawn)

theorem State.badEntries_frame {fs : List Field} {s₀ : State} {s : State} {v : VaultRec} {bad : List Nat}
    (h : Frame fs s₀ s) (hs : Field.sub [.trace, .rings] fs = true) :
    Frame fs s₀ (State.badEntries s v bad) := by
  refine Frame.comp h ?_ hs
  clear h hs
  unfold State.badEntries
  (try dsimp -proj only)
  repeat' (with_reducible first
    | apply Frame.refl | apply State.forAll_frame | apply State.logKey_frame | apply State.raise_frame | decide | intro _
    | split)

theorem State.startVault_frame {fs : List Field} {s₀ : State} {s : State} {bad : List Nat}
    (h : Frame fs s₀ s) (hs : Field.sub [.trace, .rings, .drawn, .keys, .led, .dev] fs = true) :
    Frame fs s₀ (State.startVault s bad) := by
  refine Frame.comp h ?_ hs
  clear h hs
  unfold State.startVault
  (try dsimp -proj only)
  repeat' (with_reducible first
    | apply Frame.refl | apply State.commitVault_frame | apply State.putVaultKeys_frame | apply State.logKey_frame
    | apply State.badEntries_frame | decide | intro _ | split | apply Frame.put_keys | apply Frame.put_keys_dev)

theorem State.startChan_frame {fs : List Field} {s₀ : State} {s : State} {n : Fin 128}
    (h : Frame fs s₀ s) (hs : Field.sub [.ports, .stn, .ctl, .wdg, .plat, .trace, .spdm, .rings, .views, .awaits, .dev] fs = true) :
    Frame fs s₀ (State.startChan s n) := by
  refine Frame.comp h ?_ hs
  clear h hs
  unfold State.startChan
  (try dsimp -proj only)
  repeat' (with_reducible first
    | apply Frame.refl | apply State.hold_frame | apply State.transition_frame | decide | intro _ | split)

theorem State.startPolicy_frame {fs : List Field} {s₀ : State} {s : State} (h : Frame fs s₀ s) (hs : Field.sub [.stn, .pol] fs = true) :
    Frame fs s₀ (State.startPolicy s) := by
  refine Frame.comp h ?_ hs
  clear h hs
  unfold State.startPolicy
  (try dsimp -proj only)
  repeat' (with_reducible first
    | apply Frame.refl | decide | intro _ | split | apply Frame.put_stn_pol)

theorem State.mountChan_frame {fs : List Field} {s₀ : State} {s : State} {k1 : Fin 16} {c : MountChan}
    (h : Frame fs s₀ s) (hs : Field.sub [.pool, .rings] fs = true) :
    Frame fs s₀ (State.mountChan s k1 c) := by
  refine Frame.comp h ?_ hs
  clear h hs
  unfold State.mountChan
  (try dsimp -proj only)
  repeat' (with_reducible first
    | apply Frame.refl | apply State.poolOut_frame | apply State.forAll_frame | apply State.modPool_frame
    | apply State.raise_frame | decide | intro _ | split)

theorem State.mountPool_frame {fs : List Field} {s₀ : State} {s : State} {rep : StartReport}
    (h : Frame fs s₀ s) (hs : Field.sub [.pool, .rings] fs = true) :
    Frame fs s₀ (State.mountPool s rep) := by
  refine Frame.comp h ?_ hs
  clear h hs
  unfold State.mountPool
  (try dsimp -proj only)
  repeat' (with_reducible first
    | apply Frame.refl | apply State.forAll_frame | apply State.mountChan_frame | decide | intro _ | split
    | apply Frame.put_pool)

theorem State.bringUp_frame {fs : List Field} {s₀ : State} {s : State} {rep : StartReport}
    (h : Frame fs s₀ s) (hs : Field.sub [.ports, .stn, .ctl, .wdg, .fps, .pol, .prof, .imm, .pool, .mins, .plat, .trace, .spdm, .rings, .views, .awaits, .drbg, .drawn, .keys, .power, .led, .dev] fs = true) :
    Frame fs s₀ (State.bringUp s rep) := by
  refine Frame.comp h ?_ hs
  clear h hs
  unfold State.bringUp
  (try dsimp -proj only)
  repeat' (with_reducible first
    | apply Frame.refl | apply State.noteKeepLost_frame | apply State.startPorts_frame | apply State.forChans_frame
    | apply State.noteBrownout_frame | apply State.startImage_frame | apply State.completeAdvances_frame
    | apply State.startVault_frame | apply State.startChan_frame | apply State.startPolicy_frame
    | apply State.mountPool_frame | decide | intro _ | split)

theorem State.lockIdentity_frame {fs : List Field} {s₀ : State} {s : State} (h : Frame fs s₀ s) (hs : Field.sub [.keys] fs = true) :
    Frame fs s₀ (State.lockIdentity s) := by
  refine Frame.comp h ?_ hs
  clear h hs
  unfold State.lockIdentity
  (try dsimp -proj only)
  repeat' (with_reducible first
    | apply Frame.refl | apply State.lockDevKey_frame | decide | intro _ | split)

theorem State.rerun_frame {fs : List Field} {s₀ : State} {s : State} {a : Await}
    (h : Frame fs s₀ s) (hs : Field.sub [.ports, .mbx, .stn, .ctl, .plt, .wdg, .prof, .twl, .imm, .fca, .mins, .plat, .trace, .spdm, .rings, .views, .awaits, .drbg, .drawn, .led, .dev] fs = true) :
    Frame fs s₀ (State.rerun s a) := by
  refine Frame.comp h ?_ hs
  clear h hs
  unfold State.rerun
  (try dsimp -proj only)
  repeat' (with_reducible first
    | apply Frame.refl | apply State.order_frame | apply State.endArming_frame | apply State.beginArm_frame | decide
    | intro _ | split | apply Frame.put_awaits)

theorem State.rerunAll_frame {fs : List Field} {s₀ : State} {s : State}
    (h : Frame fs s₀ s) (hs : Field.sub [.ports, .mbx, .stn, .ctl, .plt, .wdg, .prof, .twl, .imm, .fca, .mins, .plat, .trace, .spdm, .rings, .views, .awaits, .drbg, .drawn, .led, .dev] fs = true) :
    Frame fs s₀ (State.rerunAll s) := by
  refine Frame.comp h ?_ hs
  clear h hs
  unfold State.rerunAll
  (try dsimp -proj only)
  repeat' (with_reducible first
    | apply Frame.refl | apply State.forAll_frame | apply State.rerun_frame | decide | intro _ | split
    | apply Frame.put_awaits)

theorem State.startMwd_frame {fs : List Field} {s₀ : State} {s : State} {m : Mgr}
    (h : Frame fs s₀ s) (hs : Field.sub [.mwd, .drbg, .drawn] fs = true) :
    Frame fs s₀ (State.startMwd s m) := by
  refine Frame.comp h ?_ hs
  clear h hs
  unfold State.startMwd
  (try dsimp -proj only)
  repeat' (with_reducible first
    | apply Frame.refl | apply State.modMwd_frame | apply State.mwdArm_frame | decide | intro _ | split)

theorem State.startRanked_frame {fs : List Field} {s₀ : State} {s : State} {n : Fin 128}
    (h : Frame fs s₀ s) (hs : Field.sub [.mbx, .ctl, .plt, .wdg, .imm, .fca, .mins, .trace, .spdm, .rings, .views, .awaits, .drbg, .drawn, .led, .dev] fs = true) :
    Frame fs s₀ (State.startRanked s n) := by
  refine Frame.comp h ?_ hs
  clear h hs
  unfold State.startRanked
  (try dsimp -proj only)
  repeat' (with_reducible first
    | apply Frame.refl | apply State.startTaking_frame | apply State.modCtl_frame | decide | intro _ | split)

theorem State.enterRunning_frame {fs : List Field} {s₀ : State} {s : State}
    (h : Frame fs s₀ s) (hs : Field.sub [.ports, .mbx, .stn, .ctl, .plt, .wdg, .prof, .twl, .imm, .fca, .mins, .devfw, .plat, .mwd, .trace, .spdm, .rings, .views, .awaits, .burin, .drbg, .drawn, .keys, .led, .dev] fs = true) :
    Frame fs s₀ (State.enterRunning s) := by
  refine Frame.comp h ?_ hs
  clear h hs
  unfold State.enterRunning
  (try dsimp -proj only)
  repeat' (with_reducible first
    | apply Frame.refl | apply State.forChans_frame | apply State.restampJobs_frame | apply State.startMwd_frame
    | apply State.enterStandby_frame | apply State.setDev_frame | apply State.dispatchJobs_frame
    | apply State.rerunAll_frame | apply State.startRanked_frame | decide | intro _ | split | apply Frame.put_devfw_dev)

theorem State.runStart_frame {fs : List Field} {s₀ : State} {s : State} {rep : StartReport}
    (h : Frame fs s₀ s) (hs : Field.sub [.ports, .mbx, .stn, .ctl, .plt, .wdg, .fps, .pol, .prof, .twl, .imm, .fca, .pool, .mins, .devfw, .plat, .mwd, .trace, .spdm, .rings, .views, .awaits, .burin, .drbg, .drawn, .keys, .power, .led, .dev] fs = true) :
    Frame fs s₀ (State.runStart s rep) := by
  refine Frame.comp h ?_ hs
  clear h hs
  unfold State.runStart
  (try dsimp -proj only)
  repeat' (with_reducible first
    | apply Frame.refl | apply State.bringUp_frame | apply State.restampJobs_frame | apply State.lockIdentity_frame
    | apply State.dispatchJobs_frame | apply State.entropyTest_frame | apply State.rerunAll_frame
    | apply State.enterSafeHold_frame | apply State.enterRunning_frame | decide | intro _ | split)

theorem State.readPlates_frame {fs : List Field} {s₀ : State} {s : State} {n : Fin 128}
    (h : Frame fs s₀ s) (hs : Field.sub [.plt, .trace, .rings, .led] fs = true) :
    Frame fs s₀ (State.readPlates s n) := by
  refine Frame.comp h ?_ hs
  clear h hs
  unfold State.readPlates
  (try dsimp -proj only)
  repeat' (with_reducible first
    | apply Frame.refl | apply State.commitPlates_frame | apply State.rejectProof_frame | apply State.raise_frame | decide
    | intro _ | split)

theorem State.readConfig_frame {fs : List Field} {s₀ : State} {s : State}
    (h : Frame fs s₀ s) (hs : Field.sub [.prof, .profCfg, .dcfg, .twl, .poolProf, .imm, .farm, .pool, .rings, .power, .dev] fs = true) :
    Frame fs s₀ (State.readConfig s) := by
  refine Frame.comp h ?_ hs
  clear h hs
  unfold State.readConfig
  (try dsimp -proj only)
  repeat' (with_reducible first
    | apply Frame.refl | apply State.putDevCfg_frame | apply State.applyCalibration_frame | apply State.raise_frame
    | decide | intro _ | split | apply Frame.put_prof_profCfg_twl_poolProf_dev)

theorem State.noteLedger_frame {fs : List Field} {s₀ : State} {s : State} (h : Frame fs s₀ s) (hs : Field.sub [.led] fs = true) :
    Frame fs s₀ (State.noteLedger s) := by
  refine Frame.comp h ?_ hs
  clear h hs
  unfold State.noteLedger
  (try dsimp -proj only)
  repeat' (with_reducible first
    | apply Frame.refl | apply Frame.foldl | apply Frame.foldl_fst | decide | intro _ | split | apply Frame.put_led)

theorem State.staticAddr_frame {fs : List Field} {s₀ : State} {s : State} {p : Fin 4}
    (h : Frame fs s₀ s) (hs : Field.sub [.i3c] fs = true) :
    Frame fs s₀ (State.staticAddr s p) := by
  refine Frame.comp h ?_ hs
  clear h hs
  unfold State.staticAddr
  (try dsimp -proj only)
  repeat' (with_reducible first
    | apply Frame.refl | apply State.modI3c_frame | decide | intro _ | split)

theorem State.coldLoad_frame {fs : List Field} {s₀ : State} {s : State} (h : Frame fs s₀ s) (hs : Field.sub [.wdg, .i3c, .dev] fs = true) :
    Frame fs s₀ (State.coldLoad s) := by
  refine Frame.comp h ?_ hs
  clear h hs
  unfold State.coldLoad
  (try dsimp -proj only)
  repeat' (with_reducible first
    | apply Frame.refl | apply State.forAll_frame | apply State.staticAddr_frame | decide | intro _ | split
    | apply Frame.put_wdg_dev)

theorem State.startTrace_frame {fs : List Field} {s₀ : State} {s : State} (h : Frame fs s₀ s) (hs : Field.sub [.trace, .rings] fs = true) :
    Frame fs s₀ (State.startTrace s) := by
  refine Frame.comp h ?_ hs
  clear h hs
  unfold State.startTrace
  (try dsimp -proj only)
  repeat' (with_reducible first
    | apply Frame.refl | apply State.newRing_frame | apply State.log_frame | decide | intro _ | split)

theorem State.enterStart_frame {fs : List Field} {s₀ : State} {s : State}
    (h : Frame fs s₀ s) (hs : Field.sub [.plt, .wdg, .prof, .profCfg, .dcfg, .twl, .poolProf, .imm, .farm, .pool, .trace, .att, .i3c, .rings, .drbg, .drawn, .tamper, .power, .led, .dev] fs = true) :
    Frame fs s₀ (State.enterStart s) := by
  refine Frame.comp h ?_ hs
  clear h hs
  unfold State.enterStart
  (try dsimp -proj only)
  repeat' (with_reducible first
    | apply Frame.refl | apply State.readPlates_frame | apply State.forChans_frame | apply State.issueCerts_frame
    | apply State.readConfig_frame | apply State.noteLedger_frame | apply State.coldLoad_frame
    | apply State.startTrace_frame | apply State.raise_frame | decide | intro _ | split | apply Frame.put_tamper_led_dev)

theorem State.spoilLedger_frame {fs : List Field} {s₀ : State} {s : State}
    (h : Frame fs s₀ s) (hs : Field.sub [.stn, .plt, .wdg, .polLedger, .polMin, .tamperPol, .cfgImg, .mins, .devfw, .intw, .trace, .att, .keys, .tamper] fs = true) :
    Frame fs s₀ (State.spoilLedger s) := by
  refine Frame.comp h ?_ hs
  clear h hs
  unfold State.spoilLedger
  (try dsimp -proj only)
  repeat' (with_reducible first
    | apply Frame.refl | decide | intro _ | split
    | apply Frame.put_stn_plt_wdg_polLedger_polMin_tamperPol_cfgImg_mins_devfw_intw_trace_att_keys_tamper)

theorem State.checkLedgerKey_frame {fs : List Field} {s₀ : State} {s : State}
    (h : Frame fs s₀ s) (hs : Field.sub [.stn, .plt, .wdg, .polLedger, .polMin, .tamperPol, .cfgImg, .mins, .devfw, .intw, .trace, .att, .rings, .keys, .tamper, .led] fs = true) :
    Frame fs s₀ (State.checkLedgerKey s) := by
  refine Frame.comp h ?_ hs
  clear h hs
  unfold State.checkLedgerKey
  (try dsimp -proj only)
  repeat' (with_reducible first
    | apply Frame.refl | apply State.spoilLedger_frame | apply State.raise_frame | decide | intro _ | split
    | apply Frame.put_led)

theorem State.runRom_frame {fs : List Field} {s₀ : State} {s : State}
    (h : Frame fs s₀ s) (hs : Field.sub [.stn, .ctl, .plt, .wdg, .polLedger, .polMin, .tamperPol, .cfgImg, .mins, .devfw, .plat, .intw, .trace, .att, .rings, .keys, .tamper, .otp, .led, .dev] fs = true) :
    Frame fs s₀ (State.runRom s) := by
  refine Frame.comp h ?_ hs
  clear h hs
  unfold State.runRom
  (try dsimp -proj only)
  repeat' (with_reducible first
    | apply Frame.refl | apply State.enterRecoveryDevice_frame | apply State.fwReadTable_frame
    | apply State.checkLedgerKey_frame | apply State.deriveDevice_frame | apply State.setDev_frame
    | apply State.fwSelect_frame | decide | intro _ | split)

theorem State.romThenStart_frame {fs : List Field} {s₀ : State} {s : State} {rep : StartReport}
    (h : Frame fs s₀ s) (hs : Field.sub [.ports, .mbx, .stn, .ctl, .plt, .wdg, .fps, .pol, .polLedger, .polMin, .tamperPol, .prof, .profCfg, .dcfg, .twl, .poolProf, .cfgImg, .imm, .fca, .farm, .pool, .mins, .devfw, .plat, .mwd, .intw, .trace, .att, .spdm, .i3c, .rings, .views, .awaits, .burin, .drbg, .drawn, .keys, .tamper, .otp, .power, .led, .dev] fs = true) :
    Frame fs s₀ (State.romThenStart s rep) := by
  refine Frame.comp h ?_ hs
  clear h hs
  unfold State.romThenStart
  (try dsimp -proj only)
  repeat' (with_reducible first
    | apply Frame.refl | apply State.runStart_frame | apply State.enterStart_frame | apply State.runRom_frame | decide
    | intro _ | split)

theorem State.runShadow_frame {fs : List Field} {s₀ : State} {s : State} {samples : BitVec 10}
    (h : Frame fs s₀ s) (hs : Field.sub [.ports, .mbx, .stn, .ctl, .plt, .wdg, .areas, .fps, .pol, .prof, .dcfg, .imm, .fca, .mins, .plat, .trace, .att, .spdm, .rings, .views, .awaits, .burin, .hash, .drbg, .drawn, .keys, .tamper, .otp, .part, .clk, .led, .dev] fs = true) :
    Frame fs s₀ (State.runShadow s samples) := by
  refine Frame.comp h ?_ hs
  clear h hs
  unfold State.runShadow
  (try dsimp -proj only)
  repeat' (with_reducible first
    | apply Frame.refl | apply State.setDev_frame | apply State.trip_frame | apply State.shadowStep_frame | decide
    | intro _ | split)

theorem State.start_frame {fs : List Field} {s₀ : State} {s : State} {rep : StartReport}
    (h : Frame fs s₀ s) (hs : Field.sub [.ports, .mbx, .stn, .ctl, .plt, .wdg, .areas, .fps, .pol, .polLedger, .polMin, .tamperPol, .prof, .profCfg, .dcfg, .twl, .poolProf, .cfgImg, .imm, .fca, .farm, .pool, .mins, .devfw, .plat, .mwd, .intw, .trace, .att, .spdm, .i3c, .rings, .views, .awaits, .burin, .hash, .drbg, .drawn, .keys, .tamper, .otp, .part, .power, .clk, .led, .dev] fs = true) :
    Frame fs s₀ (State.start s rep) := by
  refine Frame.comp h ?_ hs
  clear h hs
  unfold State.start
  (try dsimp -proj only)
  repeat' (with_reducible first
    | apply Frame.refl | apply State.romThenStart_frame | apply State.runShadow_frame | apply State.runStart_frame
    | decide | intro _ | split)

end Sys2Proof.Machine
end

