-- ==== Sys2Proof/Laws/State.lean ====
section
/-! SUPPORT. Reading the state after one update: what is read back where an update wrote, and that every other part, and every
other index, reads as before. All are rewriting lemmas. -/

namespace Sys2Proof.Machine

@[simp] theorem vget_vset_self {α : Type} {k : Nat} (v : Vector α k) (i : Fin k) (x : α) : vget (vset v i x) i = x := by
  simp [vget, vset]

theorem vget_vset_ne {α : Type} {k : Nat} (v : Vector α k) {i j : Fin k} (x : α) (h : j ≠ i) : vget (vset v i x) j = vget v j := by
  have : i.1 ≠ j.1 := fun e => h (Fin.ext e.symm)
  simp [vget, vset, this]

@[simp] theorem vget_vmod_self {α : Type} {k : Nat} (v : Vector α k) (i : Fin k) (f : α → α) : vget (vmod v i f) i = f (vget v i) := by
  simp [vmod]

theorem vget_vmod_ne {α : Type} {k : Nat} (v : Vector α k) {i j : Fin k} (f : α → α) (h : j ≠ i) : vget (vmod v i f) j = vget v j := by
  simp [vmod, vget_vset_ne v _ h]

theorem vmod_vmod {α : Type} {k : Nat} (v : Vector α k) (i : Fin k) (f g : α → α) : vmod (vmod v i f) i g = vmod v i fun x => g (f x) := by
  ext j hj
  by_cases h : i.1 = j <;> simp [vmod, vset, vget, h]

@[simp] theorem PerMgr.get_set_self {α : Type} (p : PerMgr α) (m : Mgr) (x : α) : (p.set m x).get m = x := by cases m <;> rfl

theorem PerMgr.get_set_ne {α : Type} (p : PerMgr α) {m k : Mgr} (x : α) (h : k ≠ m) : (p.set m x).get k = p.get k := by
  cases m <;> cases k <;> first | rfl | exact absurd rfl h

theorem PerMgr.set_set {α : Type} (p : PerMgr α) (m : Mgr) (x y : α) : (p.set m x).set m y = p.set m y := by cases m <;> rfl

@[simp] theorem fin?_val (k : Nat) (i : Fin k) : fin? k i.1 = some i := by simp [fin?]

section

variable (s : State) (n : Fin 128) (f : HostPort → HostPort)

@[simp] theorem State.modPort_port : (s.modPort n f).port n = f (s.port n) := vget_vmod_self _ _ _
theorem State.modPort_port_ne {c : Fin 128} (h : c ≠ n) : (s.modPort n f).port c = s.port c := vget_vmod_ne _ _ h
@[simp] theorem State.modPort_now : (s.modPort n f).now = s.now := rfl
@[simp] theorem State.modPort_mbx : (s.modPort n f).mbx = s.mbx := rfl
@[simp] theorem State.modPort_stn : (s.modPort n f).stn = s.stn := rfl
@[simp] theorem State.modPort_ctl : (s.modPort n f).ctl = s.ctl := rfl
@[simp] theorem State.modPort_plt : (s.modPort n f).plt = s.plt := rfl
@[simp] theorem State.modPort_wdg : (s.modPort n f).wdg = s.wdg := rfl
@[simp] theorem State.modPort_areas : (s.modPort n f).areas = s.areas := rfl
@[simp] theorem State.modPort_fps : (s.modPort n f).fps = s.fps := rfl
@[simp] theorem State.modPort_pol : (s.modPort n f).pol = s.pol := rfl
@[simp] theorem State.modPort_polLedger : (s.modPort n f).polLedger = s.polLedger := rfl
@[simp] theorem State.modPort_polMin : (s.modPort n f).polMin = s.polMin := rfl
@[simp] theorem State.modPort_tamperPol : (s.modPort n f).tamperPol = s.tamperPol := rfl
@[simp] theorem State.modPort_prof : (s.modPort n f).prof = s.prof := rfl
@[simp] theorem State.modPort_profCfg : (s.modPort n f).profCfg = s.profCfg := rfl
@[simp] theorem State.modPort_dcfg : (s.modPort n f).dcfg = s.dcfg := rfl
@[simp] theorem State.modPort_twl : (s.modPort n f).twl = s.twl := rfl
@[simp] theorem State.modPort_poolProf : (s.modPort n f).poolProf = s.poolProf := rfl
@[simp] theorem State.modPort_cfgImg : (s.modPort n f).cfgImg = s.cfgImg := rfl
@[simp] theorem State.modPort_imm : (s.modPort n f).imm = s.imm := rfl
@[simp] theorem State.modPort_fca : (s.modPort n f).fca = s.fca := rfl
@[simp] theorem State.modPort_farm : (s.modPort n f).farm = s.farm := rfl
@[simp] theorem State.modPort_pool : (s.modPort n f).pool = s.pool := rfl
@[simp] theorem State.modPort_mins : (s.modPort n f).mins = s.mins := rfl
@[simp] theorem State.modPort_devfw : (s.modPort n f).devfw = s.devfw := rfl
@[simp] theorem State.modPort_plat : (s.modPort n f).plat = s.plat := rfl
@[simp] theorem State.modPort_mwd : (s.modPort n f).mwd = s.mwd := rfl
@[simp] theorem State.modPort_intw : (s.modPort n f).intw = s.intw := rfl
@[simp] theorem State.modPort_trace : (s.modPort n f).trace = s.trace := rfl
@[simp] theorem State.modPort_att : (s.modPort n f).att = s.att := rfl
@[simp] theorem State.modPort_spdm : (s.modPort n f).spdm = s.spdm := rfl
@[simp] theorem State.modPort_i3c : (s.modPort n f).i3c = s.i3c := rfl
@[simp] theorem State.modPort_rings : (s.modPort n f).rings = s.rings := rfl
@[simp] theorem State.modPort_arb : (s.modPort n f).arb = s.arb := rfl
@[simp] theorem State.modPort_views : (s.modPort n f).views = s.views := rfl
@[simp] theorem State.modPort_awaits : (s.modPort n f).awaits = s.awaits := rfl
@[simp] theorem State.modPort_hdrs : (s.modPort n f).hdrs = s.hdrs := rfl
@[simp] theorem State.modPort_burin : (s.modPort n f).burin = s.burin := rfl
@[simp] theorem State.modPort_hash : (s.modPort n f).hash = s.hash := rfl
@[simp] theorem State.modPort_drbg : (s.modPort n f).drbg = s.drbg := rfl
@[simp] theorem State.modPort_drawn : (s.modPort n f).drawn = s.drawn := rfl
@[simp] theorem State.modPort_keys : (s.modPort n f).keys = s.keys := rfl
@[simp] theorem State.modPort_tamper : (s.modPort n f).tamper = s.tamper := rfl
@[simp] theorem State.modPort_otp : (s.modPort n f).otp = s.otp := rfl
@[simp] theorem State.modPort_part : (s.modPort n f).part = s.part := rfl
@[simp] theorem State.modPort_power : (s.modPort n f).power = s.power := rfl
@[simp] theorem State.modPort_clk : (s.modPort n f).clk = s.clk := rfl
@[simp] theorem State.modPort_led : (s.modPort n f).led = s.led := rfl
@[simp] theorem State.modPort_dev : (s.modPort n f).dev = s.dev := rfl
@[simp] theorem State.modPort_pending : (s.modPort n f).pending = s.pending := rfl
@[simp] theorem State.modPort_mb (c : Fin 128) : (s.modPort n f).mb c = s.mb c := rfl
@[simp] theorem State.modPort_st (c : Fin 128) : (s.modPort n f).st c = s.st c := rfl
@[simp] theorem State.modPort_ch (c : Fin 128) : (s.modPort n f).ch c = s.ch c := rfl
@[simp] theorem State.modPort_pl (c : Fin 128) : (s.modPort n f).pl c = s.pl c := rfl
@[simp] theorem State.modPort_wd (c : Fin 128) : (s.modPort n f).wd c = s.wd c := rfl
@[simp] theorem State.modPort_area (c : Fin 128) : (s.modPort n f).area c = s.area c := rfl
@[simp] theorem State.modPort_fp (c : Fin 64) : (s.modPort n f).fp c = s.fp c := rfl
@[simp] theorem State.modPort_polOf (c : Fin 128) : (s.modPort n f).polOf c = s.polOf c := rfl
@[simp] theorem State.modPort_profOf (c : Fin 128) : (s.modPort n f).profOf c = s.profOf c := rfl
@[simp] theorem State.modPort_dirE (c : Fin 256) : (s.modPort n f).dirE c = s.dirE c := rfl
@[simp] theorem State.modPort_core (c : Fin 4) : (s.modPort n f).core c = s.core c := rfl
@[simp] theorem State.modPort_ep (c : Fin 8) : (s.modPort n f).ep c = s.ep c := rfl
@[simp] theorem State.modPort_slot (c : Fin 256) : (s.modPort n f).slot c = s.slot c := rfl
@[simp] theorem State.modPort_ring (c : Mgr) : (s.modPort n f).ring c = s.ring c := rfl
@[simp] theorem State.modPort_view (c : Mgr) : (s.modPort n f).view c = s.view c := rfl

end

section

variable (s : State) (n : Fin 128) (f : Mailbox → Mailbox)

@[simp] theorem State.modMbx_mb : (s.modMbx n f).mb n = f (s.mb n) := vget_vmod_self _ _ _
theorem State.modMbx_mb_ne {c : Fin 128} (h : c ≠ n) : (s.modMbx n f).mb c = s.mb c := vget_vmod_ne _ _ h
@[simp] theorem State.modMbx_now : (s.modMbx n f).now = s.now := rfl
@[simp] theorem State.modMbx_ports : (s.modMbx n f).ports = s.ports := rfl
@[simp] theorem State.modMbx_stn : (s.modMbx n f).stn = s.stn := rfl
@[simp] theorem State.modMbx_ctl : (s.modMbx n f).ctl = s.ctl := rfl
@[simp] theorem State.modMbx_plt : (s.modMbx n f).plt = s.plt := rfl
@[simp] theorem State.modMbx_wdg : (s.modMbx n f).wdg = s.wdg := rfl
@[simp] theorem State.modMbx_areas : (s.modMbx n f).areas = s.areas := rfl
@[simp] theorem State.modMbx_fps : (s.modMbx n f).fps = s.fps := rfl
@[simp] theorem State.modMbx_pol : (s.modMbx n f).pol = s.pol := rfl
@[simp] theorem State.modMbx_polLedger : (s.modMbx n f).polLedger = s.polLedger := rfl
@[simp] theorem State.modMbx_polMin : (s.modMbx n f).polMin = s.polMin := rfl
@[simp] theorem State.modMbx_tamperPol : (s.modMbx n f).tamperPol = s.tamperPol := rfl
@[simp] theorem State.modMbx_prof : (s.modMbx n f).prof = s.prof := rfl
@[simp] theorem State.modMbx_profCfg : (s.modMbx n f).profCfg = s.profCfg := rfl
@[simp] theorem State.modMbx_dcfg : (s.modMbx n f).dcfg = s.dcfg := rfl
@[simp] theorem State.modMbx_twl : (s.modMbx n f).twl = s.twl := rfl
@[simp] theorem State.modMbx_poolProf : (s.modMbx n f).poolProf = s.poolProf := rfl
@[simp] theorem State.modMbx_cfgImg : (s.modMbx n f).cfgImg = s.cfgImg := rfl
@[simp] theorem State.modMbx_imm : (s.modMbx n f).imm = s.imm := rfl
@[simp] theorem State.modMbx_fca : (s.modMbx n f).fca = s.fca := rfl
@[simp] theorem State.modMbx_farm : (s.modMbx n f).farm = s.farm := rfl
@[simp] theorem State.modMbx_pool : (s.modMbx n f).pool = s.pool := rfl
@[simp] theorem State.modMbx_mins : (s.modMbx n f).mins = s.mins := rfl
@[simp] theorem State.modMbx_devfw : (s.modMbx n f).devfw = s.devfw := rfl
@[simp] theorem State.modMbx_plat : (s.modMbx n f).plat = s.plat := rfl
@[simp] theorem State.modMbx_mwd : (s.modMbx n f).mwd = s.mwd := rfl
@[simp] theorem State.modMbx_intw : (s.modMbx n f).intw = s.intw := rfl
@[simp] theorem State.modMbx_trace : (s.modMbx n f).trace = s.trace := rfl
@[simp] theorem State.modMbx_att : (s.modMbx n f).att = s.att := rfl
@[simp] theorem State.modMbx_spdm : (s.modMbx n f).spdm = s.spdm := rfl
@[simp] theorem State.modMbx_i3c : (s.modMbx n f).i3c = s.i3c := rfl
@[simp] theorem State.modMbx_rings : (s.modMbx n f).rings = s.rings := rfl
@[simp] theorem State.modMbx_arb : (s.modMbx n f).arb = s.arb := rfl
@[simp] theorem State.modMbx_views : (s.modMbx n f).views = s.views := rfl
@[simp] theorem State.modMbx_awaits : (s.modMbx n f).awaits = s.awaits := rfl
@[simp] theorem State.modMbx_hdrs : (s.modMbx n f).hdrs = s.hdrs := rfl
@[simp] theorem State.modMbx_burin : (s.modMbx n f).burin = s.burin := rfl
@[simp] theorem State.modMbx_hash : (s.modMbx n f).hash = s.hash := rfl
@[simp] theorem State.modMbx_drbg : (s.modMbx n f).drbg = s.drbg := rfl
@[simp] theorem State.modMbx_drawn : (s.modMbx n f).drawn = s.drawn := rfl
@[simp] theorem State.modMbx_keys : (s.modMbx n f).keys = s.keys := rfl
@[simp] theorem State.modMbx_tamper : (s.modMbx n f).tamper = s.tamper := rfl
@[simp] theorem State.modMbx_otp : (s.modMbx n f).otp = s.otp := rfl
@[simp] theorem State.modMbx_part : (s.modMbx n f).part = s.part := rfl
@[simp] theorem State.modMbx_power : (s.modMbx n f).power = s.power := rfl
@[simp] theorem State.modMbx_clk : (s.modMbx n f).clk = s.clk := rfl
@[simp] theorem State.modMbx_led : (s.modMbx n f).led = s.led := rfl
@[simp] theorem State.modMbx_dev : (s.modMbx n f).dev = s.dev := rfl
@[simp] theorem State.modMbx_pending : (s.modMbx n f).pending = s.pending := rfl
@[simp] theorem State.modMbx_port (c : Fin 128) : (s.modMbx n f).port c = s.port c := rfl
@[simp] theorem State.modMbx_st (c : Fin 128) : (s.modMbx n f).st c = s.st c := rfl
@[simp] theorem State.modMbx_ch (c : Fin 128) : (s.modMbx n f).ch c = s.ch c := rfl
@[simp] theorem State.modMbx_pl (c : Fin 128) : (s.modMbx n f).pl c = s.pl c := rfl
@[simp] theorem State.modMbx_wd (c : Fin 128) : (s.modMbx n f).wd c = s.wd c := rfl
@[simp] theorem State.modMbx_area (c : Fin 128) : (s.modMbx n f).area c = s.area c := rfl
@[simp] theorem State.modMbx_fp (c : Fin 64) : (s.modMbx n f).fp c = s.fp c := rfl
@[simp] theorem State.modMbx_polOf (c : Fin 128) : (s.modMbx n f).polOf c = s.polOf c := rfl
@[simp] theorem State.modMbx_profOf (c : Fin 128) : (s.modMbx n f).profOf c = s.profOf c := rfl
@[simp] theorem State.modMbx_dirE (c : Fin 256) : (s.modMbx n f).dirE c = s.dirE c := rfl
@[simp] theorem State.modMbx_core (c : Fin 4) : (s.modMbx n f).core c = s.core c := rfl
@[simp] theorem State.modMbx_ep (c : Fin 8) : (s.modMbx n f).ep c = s.ep c := rfl
@[simp] theorem State.modMbx_slot (c : Fin 256) : (s.modMbx n f).slot c = s.slot c := rfl
@[simp] theorem State.modMbx_ring (c : Mgr) : (s.modMbx n f).ring c = s.ring c := rfl
@[simp] theorem State.modMbx_view (c : Mgr) : (s.modMbx n f).view c = s.view c := rfl

end

section

variable (s : State) (n : Fin 128) (f : Stencil → Stencil)

@[simp] theorem State.modStn_st : (s.modStn n f).st n = f (s.st n) := vget_vmod_self _ _ _
theorem State.modStn_st_ne {c : Fin 128} (h : c ≠ n) : (s.modStn n f).st c = s.st c := vget_vmod_ne _ _ h
@[simp] theorem State.modStn_now : (s.modStn n f).now = s.now := rfl
@[simp] theorem State.modStn_ports : (s.modStn n f).ports = s.ports := rfl
@[simp] theorem State.modStn_mbx : (s.modStn n f).mbx = s.mbx := rfl
@[simp] theorem State.modStn_ctl : (s.modStn n f).ctl = s.ctl := rfl
@[simp] theorem State.modStn_plt : (s.modStn n f).plt = s.plt := rfl
@[simp] theorem State.modStn_wdg : (s.modStn n f).wdg = s.wdg := rfl
@[simp] theorem State.modStn_areas : (s.modStn n f).areas = s.areas := rfl
@[simp] theorem State.modStn_fps : (s.modStn n f).fps = s.fps := rfl
@[simp] theorem State.modStn_pol : (s.modStn n f).pol = s.pol := rfl
@[simp] theorem State.modStn_polLedger : (s.modStn n f).polLedger = s.polLedger := rfl
@[simp] theorem State.modStn_polMin : (s.modStn n f).polMin = s.polMin := rfl
@[simp] theorem State.modStn_tamperPol : (s.modStn n f).tamperPol = s.tamperPol := rfl
@[simp] theorem State.modStn_prof : (s.modStn n f).prof = s.prof := rfl
@[simp] theorem State.modStn_profCfg : (s.modStn n f).profCfg = s.profCfg := rfl
@[simp] theorem State.modStn_dcfg : (s.modStn n f).dcfg = s.dcfg := rfl
@[simp] theorem State.modStn_twl : (s.modStn n f).twl = s.twl := rfl
@[simp] theorem State.modStn_poolProf : (s.modStn n f).poolProf = s.poolProf := rfl
@[simp] theorem State.modStn_cfgImg : (s.modStn n f).cfgImg = s.cfgImg := rfl
@[simp] theorem State.modStn_imm : (s.modStn n f).imm = s.imm := rfl
@[simp] theorem State.modStn_fca : (s.modStn n f).fca = s.fca := rfl
@[simp] theorem State.modStn_farm : (s.modStn n f).farm = s.farm := rfl
@[simp] theorem State.modStn_pool : (s.modStn n f).pool = s.pool := rfl
@[simp] theorem State.modStn_mins : (s.modStn n f).mins = s.mins := rfl
@[simp] theorem State.modStn_devfw : (s.modStn n f).devfw = s.devfw := rfl
@[simp] theorem State.modStn_plat : (s.modStn n f).plat = s.plat := rfl
@[simp] theorem State.modStn_mwd : (s.modStn n f).mwd = s.mwd := rfl
@[simp] theorem State.modStn_intw : (s.modStn n f).intw = s.intw := rfl
@[simp] theorem State.modStn_trace : (s.modStn n f).trace = s.trace := rfl
@[simp] theorem State.modStn_att : (s.modStn n f).att = s.att := rfl
@[simp] theorem State.modStn_spdm : (s.modStn n f).spdm = s.spdm := rfl
@[simp] theorem State.modStn_i3c : (s.modStn n f).i3c = s.i3c := rfl
@[simp] theorem State.modStn_rings : (s.modStn n f).rings = s.rings := rfl
@[simp] theorem State.modStn_arb : (s.modStn n f).arb = s.arb := rfl
@[simp] theorem State.modStn_views : (s.modStn n f).views = s.views := rfl
@[simp] theorem State.modStn_awaits : (s.modStn n f).awaits = s.awaits := rfl
@[simp] theorem State.modStn_hdrs : (s.modStn n f).hdrs = s.hdrs := rfl
@[simp] theorem State.modStn_burin : (s.modStn n f).burin = s.burin := rfl
@[simp] theorem State.modStn_hash : (s.modStn n f).hash = s.hash := rfl
@[simp] theorem State.modStn_drbg : (s.modStn n f).drbg = s.drbg := rfl
@[simp] theorem State.modStn_drawn : (s.modStn n f).drawn = s.drawn := rfl
@[simp] theorem State.modStn_keys : (s.modStn n f).keys = s.keys := rfl
@[simp] theorem State.modStn_tamper : (s.modStn n f).tamper = s.tamper := rfl
@[simp] theorem State.modStn_otp : (s.modStn n f).otp = s.otp := rfl
@[simp] theorem State.modStn_part : (s.modStn n f).part = s.part := rfl
@[simp] theorem State.modStn_power : (s.modStn n f).power = s.power := rfl
@[simp] theorem State.modStn_clk : (s.modStn n f).clk = s.clk := rfl
@[simp] theorem State.modStn_led : (s.modStn n f).led = s.led := rfl
@[simp] theorem State.modStn_dev : (s.modStn n f).dev = s.dev := rfl
@[simp] theorem State.modStn_pending : (s.modStn n f).pending = s.pending := rfl
@[simp] theorem State.modStn_port (c : Fin 128) : (s.modStn n f).port c = s.port c := rfl
@[simp] theorem State.modStn_mb (c : Fin 128) : (s.modStn n f).mb c = s.mb c := rfl
@[simp] theorem State.modStn_ch (c : Fin 128) : (s.modStn n f).ch c = s.ch c := rfl
@[simp] theorem State.modStn_pl (c : Fin 128) : (s.modStn n f).pl c = s.pl c := rfl
@[simp] theorem State.modStn_wd (c : Fin 128) : (s.modStn n f).wd c = s.wd c := rfl
@[simp] theorem State.modStn_area (c : Fin 128) : (s.modStn n f).area c = s.area c := rfl
@[simp] theorem State.modStn_fp (c : Fin 64) : (s.modStn n f).fp c = s.fp c := rfl
@[simp] theorem State.modStn_polOf (c : Fin 128) : (s.modStn n f).polOf c = s.polOf c := rfl
@[simp] theorem State.modStn_profOf (c : Fin 128) : (s.modStn n f).profOf c = s.profOf c := rfl
@[simp] theorem State.modStn_dirE (c : Fin 256) : (s.modStn n f).dirE c = s.dirE c := rfl
@[simp] theorem State.modStn_core (c : Fin 4) : (s.modStn n f).core c = s.core c := rfl
@[simp] theorem State.modStn_ep (c : Fin 8) : (s.modStn n f).ep c = s.ep c := rfl
@[simp] theorem State.modStn_slot (c : Fin 256) : (s.modStn n f).slot c = s.slot c := rfl
@[simp] theorem State.modStn_ring (c : Mgr) : (s.modStn n f).ring c = s.ring c := rfl
@[simp] theorem State.modStn_view (c : Mgr) : (s.modStn n f).view c = s.view c := rfl

end

section

variable (s : State) (n : Fin 128) (f : Ctl → Ctl)

@[simp] theorem State.modCtl_ch : (s.modCtl n f).ch n = f (s.ch n) := vget_vmod_self _ _ _
theorem State.modCtl_ch_ne {c : Fin 128} (h : c ≠ n) : (s.modCtl n f).ch c = s.ch c := vget_vmod_ne _ _ h
@[simp] theorem State.modCtl_now : (s.modCtl n f).now = s.now := rfl
@[simp] theorem State.modCtl_ports : (s.modCtl n f).ports = s.ports := rfl
@[simp] theorem State.modCtl_mbx : (s.modCtl n f).mbx = s.mbx := rfl
@[simp] theorem State.modCtl_stn : (s.modCtl n f).stn = s.stn := rfl
@[simp] theorem State.modCtl_plt : (s.modCtl n f).plt = s.plt := rfl
@[simp] theorem State.modCtl_wdg : (s.modCtl n f).wdg = s.wdg := rfl
@[simp] theorem State.modCtl_areas : (s.modCtl n f).areas = s.areas := rfl
@[simp] theorem State.modCtl_fps : (s.modCtl n f).fps = s.fps := rfl
@[simp] theorem State.modCtl_pol : (s.modCtl n f).pol = s.pol := rfl
@[simp] theorem State.modCtl_polLedger : (s.modCtl n f).polLedger = s.polLedger := rfl
@[simp] theorem State.modCtl_polMin : (s.modCtl n f).polMin = s.polMin := rfl
@[simp] theorem State.modCtl_tamperPol : (s.modCtl n f).tamperPol = s.tamperPol := rfl
@[simp] theorem State.modCtl_prof : (s.modCtl n f).prof = s.prof := rfl
@[simp] theorem State.modCtl_profCfg : (s.modCtl n f).profCfg = s.profCfg := rfl
@[simp] theorem State.modCtl_dcfg : (s.modCtl n f).dcfg = s.dcfg := rfl
@[simp] theorem State.modCtl_twl : (s.modCtl n f).twl = s.twl := rfl
@[simp] theorem State.modCtl_poolProf : (s.modCtl n f).poolProf = s.poolProf := rfl
@[simp] theorem State.modCtl_cfgImg : (s.modCtl n f).cfgImg = s.cfgImg := rfl
@[simp] theorem State.modCtl_imm : (s.modCtl n f).imm = s.imm := rfl
@[simp] theorem State.modCtl_fca : (s.modCtl n f).fca = s.fca := rfl
@[simp] theorem State.modCtl_farm : (s.modCtl n f).farm = s.farm := rfl
@[simp] theorem State.modCtl_pool : (s.modCtl n f).pool = s.pool := rfl
@[simp] theorem State.modCtl_mins : (s.modCtl n f).mins = s.mins := rfl
@[simp] theorem State.modCtl_devfw : (s.modCtl n f).devfw = s.devfw := rfl
@[simp] theorem State.modCtl_plat : (s.modCtl n f).plat = s.plat := rfl
@[simp] theorem State.modCtl_mwd : (s.modCtl n f).mwd = s.mwd := rfl
@[simp] theorem State.modCtl_intw : (s.modCtl n f).intw = s.intw := rfl
@[simp] theorem State.modCtl_trace : (s.modCtl n f).trace = s.trace := rfl
@[simp] theorem State.modCtl_att : (s.modCtl n f).att = s.att := rfl
@[simp] theorem State.modCtl_spdm : (s.modCtl n f).spdm = s.spdm := rfl
@[simp] theorem State.modCtl_i3c : (s.modCtl n f).i3c = s.i3c := rfl
@[simp] theorem State.modCtl_rings : (s.modCtl n f).rings = s.rings := rfl
@[simp] theorem State.modCtl_arb : (s.modCtl n f).arb = s.arb := rfl
@[simp] theorem State.modCtl_views : (s.modCtl n f).views = s.views := rfl
@[simp] theorem State.modCtl_awaits : (s.modCtl n f).awaits = s.awaits := rfl
@[simp] theorem State.modCtl_hdrs : (s.modCtl n f).hdrs = s.hdrs := rfl
@[simp] theorem State.modCtl_burin : (s.modCtl n f).burin = s.burin := rfl
@[simp] theorem State.modCtl_hash : (s.modCtl n f).hash = s.hash := rfl
@[simp] theorem State.modCtl_drbg : (s.modCtl n f).drbg = s.drbg := rfl
@[simp] theorem State.modCtl_drawn : (s.modCtl n f).drawn = s.drawn := rfl
@[simp] theorem State.modCtl_keys : (s.modCtl n f).keys = s.keys := rfl
@[simp] theorem State.modCtl_tamper : (s.modCtl n f).tamper = s.tamper := rfl
@[simp] theorem State.modCtl_otp : (s.modCtl n f).otp = s.otp := rfl
@[simp] theorem State.modCtl_part : (s.modCtl n f).part = s.part := rfl
@[simp] theorem State.modCtl_power : (s.modCtl n f).power = s.power := rfl
@[simp] theorem State.modCtl_clk : (s.modCtl n f).clk = s.clk := rfl
@[simp] theorem State.modCtl_led : (s.modCtl n f).led = s.led := rfl
@[simp] theorem State.modCtl_dev : (s.modCtl n f).dev = s.dev := rfl
@[simp] theorem State.modCtl_pending : (s.modCtl n f).pending = s.pending := rfl
@[simp] theorem State.modCtl_port (c : Fin 128) : (s.modCtl n f).port c = s.port c := rfl
@[simp] theorem State.modCtl_mb (c : Fin 128) : (s.modCtl n f).mb c = s.mb c := rfl
@[simp] theorem State.modCtl_st (c : Fin 128) : (s.modCtl n f).st c = s.st c := rfl
@[simp] theorem State.modCtl_pl (c : Fin 128) : (s.modCtl n f).pl c = s.pl c := rfl
@[simp] theorem State.modCtl_wd (c : Fin 128) : (s.modCtl n f).wd c = s.wd c := rfl
@[simp] theorem State.modCtl_area (c : Fin 128) : (s.modCtl n f).area c = s.area c := rfl
@[simp] theorem State.modCtl_fp (c : Fin 64) : (s.modCtl n f).fp c = s.fp c := rfl
@[simp] theorem State.modCtl_polOf (c : Fin 128) : (s.modCtl n f).polOf c = s.polOf c := rfl
@[simp] theorem State.modCtl_profOf (c : Fin 128) : (s.modCtl n f).profOf c = s.profOf c := rfl
@[simp] theorem State.modCtl_dirE (c : Fin 256) : (s.modCtl n f).dirE c = s.dirE c := rfl
@[simp] theorem State.modCtl_core (c : Fin 4) : (s.modCtl n f).core c = s.core c := rfl
@[simp] theorem State.modCtl_ep (c : Fin 8) : (s.modCtl n f).ep c = s.ep c := rfl
@[simp] theorem State.modCtl_slot (c : Fin 256) : (s.modCtl n f).slot c = s.slot c := rfl
@[simp] theorem State.modCtl_ring (c : Mgr) : (s.modCtl n f).ring c = s.ring c := rfl
@[simp] theorem State.modCtl_view (c : Mgr) : (s.modCtl n f).view c = s.view c := rfl

end

section

variable (s : State) (n : Fin 128) (f : PlateSt → PlateSt)

@[simp] theorem State.modPlt_pl : (s.modPlt n f).pl n = f (s.pl n) := vget_vmod_self _ _ _
theorem State.modPlt_pl_ne {c : Fin 128} (h : c ≠ n) : (s.modPlt n f).pl c = s.pl c := vget_vmod_ne _ _ h
@[simp] theorem State.modPlt_now : (s.modPlt n f).now = s.now := rfl
@[simp] theorem State.modPlt_ports : (s.modPlt n f).ports = s.ports := rfl
@[simp] theorem State.modPlt_mbx : (s.modPlt n f).mbx = s.mbx := rfl
@[simp] theorem State.modPlt_stn : (s.modPlt n f).stn = s.stn := rfl
@[simp] theorem State.modPlt_ctl : (s.modPlt n f).ctl = s.ctl := rfl
@[simp] theorem State.modPlt_wdg : (s.modPlt n f).wdg = s.wdg := rfl
@[simp] theorem State.modPlt_areas : (s.modPlt n f).areas = s.areas := rfl
@[simp] theorem State.modPlt_fps : (s.modPlt n f).fps = s.fps := rfl
@[simp] theorem State.modPlt_pol : (s.modPlt n f).pol = s.pol := rfl
@[simp] theorem State.modPlt_polLedger : (s.modPlt n f).polLedger = s.polLedger := rfl
@[simp] theorem State.modPlt_polMin : (s.modPlt n f).polMin = s.polMin := rfl
@[simp] theorem State.modPlt_tamperPol : (s.modPlt n f).tamperPol = s.tamperPol := rfl
@[simp] theorem State.modPlt_prof : (s.modPlt n f).prof = s.prof := rfl
@[simp] theorem State.modPlt_profCfg : (s.modPlt n f).profCfg = s.profCfg := rfl
@[simp] theorem State.modPlt_dcfg : (s.modPlt n f).dcfg = s.dcfg := rfl
@[simp] theorem State.modPlt_twl : (s.modPlt n f).twl = s.twl := rfl
@[simp] theorem State.modPlt_poolProf : (s.modPlt n f).poolProf = s.poolProf := rfl
@[simp] theorem State.modPlt_cfgImg : (s.modPlt n f).cfgImg = s.cfgImg := rfl
@[simp] theorem State.modPlt_imm : (s.modPlt n f).imm = s.imm := rfl
@[simp] theorem State.modPlt_fca : (s.modPlt n f).fca = s.fca := rfl
@[simp] theorem State.modPlt_farm : (s.modPlt n f).farm = s.farm := rfl
@[simp] theorem State.modPlt_pool : (s.modPlt n f).pool = s.pool := rfl
@[simp] theorem State.modPlt_mins : (s.modPlt n f).mins = s.mins := rfl
@[simp] theorem State.modPlt_devfw : (s.modPlt n f).devfw = s.devfw := rfl
@[simp] theorem State.modPlt_plat : (s.modPlt n f).plat = s.plat := rfl
@[simp] theorem State.modPlt_mwd : (s.modPlt n f).mwd = s.mwd := rfl
@[simp] theorem State.modPlt_intw : (s.modPlt n f).intw = s.intw := rfl
@[simp] theorem State.modPlt_trace : (s.modPlt n f).trace = s.trace := rfl
@[simp] theorem State.modPlt_att : (s.modPlt n f).att = s.att := rfl
@[simp] theorem State.modPlt_spdm : (s.modPlt n f).spdm = s.spdm := rfl
@[simp] theorem State.modPlt_i3c : (s.modPlt n f).i3c = s.i3c := rfl
@[simp] theorem State.modPlt_rings : (s.modPlt n f).rings = s.rings := rfl
@[simp] theorem State.modPlt_arb : (s.modPlt n f).arb = s.arb := rfl
@[simp] theorem State.modPlt_views : (s.modPlt n f).views = s.views := rfl
@[simp] theorem State.modPlt_awaits : (s.modPlt n f).awaits = s.awaits := rfl
@[simp] theorem State.modPlt_hdrs : (s.modPlt n f).hdrs = s.hdrs := rfl
@[simp] theorem State.modPlt_burin : (s.modPlt n f).burin = s.burin := rfl
@[simp] theorem State.modPlt_hash : (s.modPlt n f).hash = s.hash := rfl
@[simp] theorem State.modPlt_drbg : (s.modPlt n f).drbg = s.drbg := rfl
@[simp] theorem State.modPlt_drawn : (s.modPlt n f).drawn = s.drawn := rfl
@[simp] theorem State.modPlt_keys : (s.modPlt n f).keys = s.keys := rfl
@[simp] theorem State.modPlt_tamper : (s.modPlt n f).tamper = s.tamper := rfl
@[simp] theorem State.modPlt_otp : (s.modPlt n f).otp = s.otp := rfl
@[simp] theorem State.modPlt_part : (s.modPlt n f).part = s.part := rfl
@[simp] theorem State.modPlt_power : (s.modPlt n f).power = s.power := rfl
@[simp] theorem State.modPlt_clk : (s.modPlt n f).clk = s.clk := rfl
@[simp] theorem State.modPlt_led : (s.modPlt n f).led = s.led := rfl
@[simp] theorem State.modPlt_dev : (s.modPlt n f).dev = s.dev := rfl
@[simp] theorem State.modPlt_pending : (s.modPlt n f).pending = s.pending := rfl
@[simp] theorem State.modPlt_port (c : Fin 128) : (s.modPlt n f).port c = s.port c := rfl
@[simp] theorem State.modPlt_mb (c : Fin 128) : (s.modPlt n f).mb c = s.mb c := rfl
@[simp] theorem State.modPlt_st (c : Fin 128) : (s.modPlt n f).st c = s.st c := rfl
@[simp] theorem State.modPlt_ch (c : Fin 128) : (s.modPlt n f).ch c = s.ch c := rfl
@[simp] theorem State.modPlt_wd (c : Fin 128) : (s.modPlt n f).wd c = s.wd c := rfl
@[simp] theorem State.modPlt_area (c : Fin 128) : (s.modPlt n f).area c = s.area c := rfl
@[simp] theorem State.modPlt_fp (c : Fin 64) : (s.modPlt n f).fp c = s.fp c := rfl
@[simp] theorem State.modPlt_polOf (c : Fin 128) : (s.modPlt n f).polOf c = s.polOf c := rfl
@[simp] theorem State.modPlt_profOf (c : Fin 128) : (s.modPlt n f).profOf c = s.profOf c := rfl
@[simp] theorem State.modPlt_dirE (c : Fin 256) : (s.modPlt n f).dirE c = s.dirE c := rfl
@[simp] theorem State.modPlt_core (c : Fin 4) : (s.modPlt n f).core c = s.core c := rfl
@[simp] theorem State.modPlt_ep (c : Fin 8) : (s.modPlt n f).ep c = s.ep c := rfl
@[simp] theorem State.modPlt_slot (c : Fin 256) : (s.modPlt n f).slot c = s.slot c := rfl
@[simp] theorem State.modPlt_ring (c : Mgr) : (s.modPlt n f).ring c = s.ring c := rfl
@[simp] theorem State.modPlt_view (c : Mgr) : (s.modPlt n f).view c = s.view c := rfl

end

section

variable (s : State) (n : Fin 128) (f : Wdg → Wdg)

@[simp] theorem State.modWdg_wd : (s.modWdg n f).wd n = f (s.wd n) := vget_vmod_self _ _ _
theorem State.modWdg_wd_ne {c : Fin 128} (h : c ≠ n) : (s.modWdg n f).wd c = s.wd c := vget_vmod_ne _ _ h
@[simp] theorem State.modWdg_now : (s.modWdg n f).now = s.now := rfl
@[simp] theorem State.modWdg_ports : (s.modWdg n f).ports = s.ports := rfl
@[simp] theorem State.modWdg_mbx : (s.modWdg n f).mbx = s.mbx := rfl
@[simp] theorem State.modWdg_stn : (s.modWdg n f).stn = s.stn := rfl
@[simp] theorem State.modWdg_ctl : (s.modWdg n f).ctl = s.ctl := rfl
@[simp] theorem State.modWdg_plt : (s.modWdg n f).plt = s.plt := rfl
@[simp] theorem State.modWdg_areas : (s.modWdg n f).areas = s.areas := rfl
@[simp] theorem State.modWdg_fps : (s.modWdg n f).fps = s.fps := rfl
@[simp] theorem State.modWdg_pol : (s.modWdg n f).pol = s.pol := rfl
@[simp] theorem State.modWdg_polLedger : (s.modWdg n f).polLedger = s.polLedger := rfl
@[simp] theorem State.modWdg_polMin : (s.modWdg n f).polMin = s.polMin := rfl
@[simp] theorem State.modWdg_tamperPol : (s.modWdg n f).tamperPol = s.tamperPol := rfl
@[simp] theorem State.modWdg_prof : (s.modWdg n f).prof = s.prof := rfl
@[simp] theorem State.modWdg_profCfg : (s.modWdg n f).profCfg = s.profCfg := rfl
@[simp] theorem State.modWdg_dcfg : (s.modWdg n f).dcfg = s.dcfg := rfl
@[simp] theorem State.modWdg_twl : (s.modWdg n f).twl = s.twl := rfl
@[simp] theorem State.modWdg_poolProf : (s.modWdg n f).poolProf = s.poolProf := rfl
@[simp] theorem State.modWdg_cfgImg : (s.modWdg n f).cfgImg = s.cfgImg := rfl
@[simp] theorem State.modWdg_imm : (s.modWdg n f).imm = s.imm := rfl
@[simp] theorem State.modWdg_fca : (s.modWdg n f).fca = s.fca := rfl
@[simp] theorem State.modWdg_farm : (s.modWdg n f).farm = s.farm := rfl
@[simp] theorem State.modWdg_pool : (s.modWdg n f).pool = s.pool := rfl
@[simp] theorem State.modWdg_mins : (s.modWdg n f).mins = s.mins := rfl
@[simp] theorem State.modWdg_devfw : (s.modWdg n f).devfw = s.devfw := rfl
@[simp] theorem State.modWdg_plat : (s.modWdg n f).plat = s.plat := rfl
@[simp] theorem State.modWdg_mwd : (s.modWdg n f).mwd = s.mwd := rfl
@[simp] theorem State.modWdg_intw : (s.modWdg n f).intw = s.intw := rfl
@[simp] theorem State.modWdg_trace : (s.modWdg n f).trace = s.trace := rfl
@[simp] theorem State.modWdg_att : (s.modWdg n f).att = s.att := rfl
@[simp] theorem State.modWdg_spdm : (s.modWdg n f).spdm = s.spdm := rfl
@[simp] theorem State.modWdg_i3c : (s.modWdg n f).i3c = s.i3c := rfl
@[simp] theorem State.modWdg_rings : (s.modWdg n f).rings = s.rings := rfl
@[simp] theorem State.modWdg_arb : (s.modWdg n f).arb = s.arb := rfl
@[simp] theorem State.modWdg_views : (s.modWdg n f).views = s.views := rfl
@[simp] theorem State.modWdg_awaits : (s.modWdg n f).awaits = s.awaits := rfl
@[simp] theorem State.modWdg_hdrs : (s.modWdg n f).hdrs = s.hdrs := rfl
@[simp] theorem State.modWdg_burin : (s.modWdg n f).burin = s.burin := rfl
@[simp] theorem State.modWdg_hash : (s.modWdg n f).hash = s.hash := rfl
@[simp] theorem State.modWdg_drbg : (s.modWdg n f).drbg = s.drbg := rfl
@[simp] theorem State.modWdg_drawn : (s.modWdg n f).drawn = s.drawn := rfl
@[simp] theorem State.modWdg_keys : (s.modWdg n f).keys = s.keys := rfl
@[simp] theorem State.modWdg_tamper : (s.modWdg n f).tamper = s.tamper := rfl
@[simp] theorem State.modWdg_otp : (s.modWdg n f).otp = s.otp := rfl
@[simp] theorem State.modWdg_part : (s.modWdg n f).part = s.part := rfl
@[simp] theorem State.modWdg_power : (s.modWdg n f).power = s.power := rfl
@[simp] theorem State.modWdg_clk : (s.modWdg n f).clk = s.clk := rfl
@[simp] theorem State.modWdg_led : (s.modWdg n f).led = s.led := rfl
@[simp] theorem State.modWdg_dev : (s.modWdg n f).dev = s.dev := rfl
@[simp] theorem State.modWdg_pending : (s.modWdg n f).pending = s.pending := rfl
@[simp] theorem State.modWdg_port (c : Fin 128) : (s.modWdg n f).port c = s.port c := rfl
@[simp] theorem State.modWdg_mb (c : Fin 128) : (s.modWdg n f).mb c = s.mb c := rfl
@[simp] theorem State.modWdg_st (c : Fin 128) : (s.modWdg n f).st c = s.st c := rfl
@[simp] theorem State.modWdg_ch (c : Fin 128) : (s.modWdg n f).ch c = s.ch c := rfl
@[simp] theorem State.modWdg_pl (c : Fin 128) : (s.modWdg n f).pl c = s.pl c := rfl
@[simp] theorem State.modWdg_area (c : Fin 128) : (s.modWdg n f).area c = s.area c := rfl
@[simp] theorem State.modWdg_fp (c : Fin 64) : (s.modWdg n f).fp c = s.fp c := rfl
@[simp] theorem State.modWdg_polOf (c : Fin 128) : (s.modWdg n f).polOf c = s.polOf c := rfl
@[simp] theorem State.modWdg_profOf (c : Fin 128) : (s.modWdg n f).profOf c = s.profOf c := rfl
@[simp] theorem State.modWdg_dirE (c : Fin 256) : (s.modWdg n f).dirE c = s.dirE c := rfl
@[simp] theorem State.modWdg_core (c : Fin 4) : (s.modWdg n f).core c = s.core c := rfl
@[simp] theorem State.modWdg_ep (c : Fin 8) : (s.modWdg n f).ep c = s.ep c := rfl
@[simp] theorem State.modWdg_slot (c : Fin 256) : (s.modWdg n f).slot c = s.slot c := rfl
@[simp] theorem State.modWdg_ring (c : Mgr) : (s.modWdg n f).ring c = s.ring c := rfl
@[simp] theorem State.modWdg_view (c : Mgr) : (s.modWdg n f).view c = s.view c := rfl

end

section

variable (s : State) (n : Fin 128) (f : Areas → Areas)

@[simp] theorem State.modAreas_area : (s.modAreas n f).area n = f (s.area n) := vget_vmod_self _ _ _
theorem State.modAreas_area_ne {c : Fin 128} (h : c ≠ n) : (s.modAreas n f).area c = s.area c := vget_vmod_ne _ _ h
@[simp] theorem State.modAreas_now : (s.modAreas n f).now = s.now := rfl
@[simp] theorem State.modAreas_ports : (s.modAreas n f).ports = s.ports := rfl
@[simp] theorem State.modAreas_mbx : (s.modAreas n f).mbx = s.mbx := rfl
@[simp] theorem State.modAreas_stn : (s.modAreas n f).stn = s.stn := rfl
@[simp] theorem State.modAreas_ctl : (s.modAreas n f).ctl = s.ctl := rfl
@[simp] theorem State.modAreas_plt : (s.modAreas n f).plt = s.plt := rfl
@[simp] theorem State.modAreas_wdg : (s.modAreas n f).wdg = s.wdg := rfl
@[simp] theorem State.modAreas_fps : (s.modAreas n f).fps = s.fps := rfl
@[simp] theorem State.modAreas_pol : (s.modAreas n f).pol = s.pol := rfl
@[simp] theorem State.modAreas_polLedger : (s.modAreas n f).polLedger = s.polLedger := rfl
@[simp] theorem State.modAreas_polMin : (s.modAreas n f).polMin = s.polMin := rfl
@[simp] theorem State.modAreas_tamperPol : (s.modAreas n f).tamperPol = s.tamperPol := rfl
@[simp] theorem State.modAreas_prof : (s.modAreas n f).prof = s.prof := rfl
@[simp] theorem State.modAreas_profCfg : (s.modAreas n f).profCfg = s.profCfg := rfl
@[simp] theorem State.modAreas_dcfg : (s.modAreas n f).dcfg = s.dcfg := rfl
@[simp] theorem State.modAreas_twl : (s.modAreas n f).twl = s.twl := rfl
@[simp] theorem State.modAreas_poolProf : (s.modAreas n f).poolProf = s.poolProf := rfl
@[simp] theorem State.modAreas_cfgImg : (s.modAreas n f).cfgImg = s.cfgImg := rfl
@[simp] theorem State.modAreas_imm : (s.modAreas n f).imm = s.imm := rfl
@[simp] theorem State.modAreas_fca : (s.modAreas n f).fca = s.fca := rfl
@[simp] theorem State.modAreas_farm : (s.modAreas n f).farm = s.farm := rfl
@[simp] theorem State.modAreas_pool : (s.modAreas n f).pool = s.pool := rfl
@[simp] theorem State.modAreas_mins : (s.modAreas n f).mins = s.mins := rfl
@[simp] theorem State.modAreas_devfw : (s.modAreas n f).devfw = s.devfw := rfl
@[simp] theorem State.modAreas_plat : (s.modAreas n f).plat = s.plat := rfl
@[simp] theorem State.modAreas_mwd : (s.modAreas n f).mwd = s.mwd := rfl
@[simp] theorem State.modAreas_intw : (s.modAreas n f).intw = s.intw := rfl
@[simp] theorem State.modAreas_trace : (s.modAreas n f).trace = s.trace := rfl
@[simp] theorem State.modAreas_att : (s.modAreas n f).att = s.att := rfl
@[simp] theorem State.modAreas_spdm : (s.modAreas n f).spdm = s.spdm := rfl
@[simp] theorem State.modAreas_i3c : (s.modAreas n f).i3c = s.i3c := rfl
@[simp] theorem State.modAreas_rings : (s.modAreas n f).rings = s.rings := rfl
@[simp] theorem State.modAreas_arb : (s.modAreas n f).arb = s.arb := rfl
@[simp] theorem State.modAreas_views : (s.modAreas n f).views = s.views := rfl
@[simp] theorem State.modAreas_awaits : (s.modAreas n f).awaits = s.awaits := rfl
@[simp] theorem State.modAreas_hdrs : (s.modAreas n f).hdrs = s.hdrs := rfl
@[simp] theorem State.modAreas_burin : (s.modAreas n f).burin = s.burin := rfl
@[simp] theorem State.modAreas_hash : (s.modAreas n f).hash = s.hash := rfl
@[simp] theorem State.modAreas_drbg : (s.modAreas n f).drbg = s.drbg := rfl
@[simp] theorem State.modAreas_drawn : (s.modAreas n f).drawn = s.drawn := rfl
@[simp] theorem State.modAreas_keys : (s.modAreas n f).keys = s.keys := rfl
@[simp] theorem State.modAreas_tamper : (s.modAreas n f).tamper = s.tamper := rfl
@[simp] theorem State.modAreas_otp : (s.modAreas n f).otp = s.otp := rfl
@[simp] theorem State.modAreas_part : (s.modAreas n f).part = s.part := rfl
@[simp] theorem State.modAreas_power : (s.modAreas n f).power = s.power := rfl
@[simp] theorem State.modAreas_clk : (s.modAreas n f).clk = s.clk := rfl
@[simp] theorem State.modAreas_led : (s.modAreas n f).led = s.led := rfl
@[simp] theorem State.modAreas_dev : (s.modAreas n f).dev = s.dev := rfl
@[simp] theorem State.modAreas_pending : (s.modAreas n f).pending = s.pending := rfl
@[simp] theorem State.modAreas_port (c : Fin 128) : (s.modAreas n f).port c = s.port c := rfl
@[simp] theorem State.modAreas_mb (c : Fin 128) : (s.modAreas n f).mb c = s.mb c := rfl
@[simp] theorem State.modAreas_st (c : Fin 128) : (s.modAreas n f).st c = s.st c := rfl
@[simp] theorem State.modAreas_ch (c : Fin 128) : (s.modAreas n f).ch c = s.ch c := rfl
@[simp] theorem State.modAreas_pl (c : Fin 128) : (s.modAreas n f).pl c = s.pl c := rfl
@[simp] theorem State.modAreas_wd (c : Fin 128) : (s.modAreas n f).wd c = s.wd c := rfl
@[simp] theorem State.modAreas_fp (c : Fin 64) : (s.modAreas n f).fp c = s.fp c := rfl
@[simp] theorem State.modAreas_polOf (c : Fin 128) : (s.modAreas n f).polOf c = s.polOf c := rfl
@[simp] theorem State.modAreas_profOf (c : Fin 128) : (s.modAreas n f).profOf c = s.profOf c := rfl
@[simp] theorem State.modAreas_dirE (c : Fin 256) : (s.modAreas n f).dirE c = s.dirE c := rfl
@[simp] theorem State.modAreas_core (c : Fin 4) : (s.modAreas n f).core c = s.core c := rfl
@[simp] theorem State.modAreas_ep (c : Fin 8) : (s.modAreas n f).ep c = s.ep c := rfl
@[simp] theorem State.modAreas_slot (c : Fin 256) : (s.modAreas n f).slot c = s.slot c := rfl
@[simp] theorem State.modAreas_ring (c : Mgr) : (s.modAreas n f).ring c = s.ring c := rfl
@[simp] theorem State.modAreas_view (c : Mgr) : (s.modAreas n f).view c = s.view c := rfl

end

section

variable (s : State) (n : Fin 64) (f : FlashPort → FlashPort)

@[simp] theorem State.modFp_fp : (s.modFp n f).fp n = f (s.fp n) := vget_vmod_self _ _ _
theorem State.modFp_fp_ne {c : Fin 64} (h : c ≠ n) : (s.modFp n f).fp c = s.fp c := vget_vmod_ne _ _ h
@[simp] theorem State.modFp_now : (s.modFp n f).now = s.now := rfl
@[simp] theorem State.modFp_ports : (s.modFp n f).ports = s.ports := rfl
@[simp] theorem State.modFp_mbx : (s.modFp n f).mbx = s.mbx := rfl
@[simp] theorem State.modFp_stn : (s.modFp n f).stn = s.stn := rfl
@[simp] theorem State.modFp_ctl : (s.modFp n f).ctl = s.ctl := rfl
@[simp] theorem State.modFp_plt : (s.modFp n f).plt = s.plt := rfl
@[simp] theorem State.modFp_wdg : (s.modFp n f).wdg = s.wdg := rfl
@[simp] theorem State.modFp_areas : (s.modFp n f).areas = s.areas := rfl
@[simp] theorem State.modFp_pol : (s.modFp n f).pol = s.pol := rfl
@[simp] theorem State.modFp_polLedger : (s.modFp n f).polLedger = s.polLedger := rfl
@[simp] theorem State.modFp_polMin : (s.modFp n f).polMin = s.polMin := rfl
@[simp] theorem State.modFp_tamperPol : (s.modFp n f).tamperPol = s.tamperPol := rfl
@[simp] theorem State.modFp_prof : (s.modFp n f).prof = s.prof := rfl
@[simp] theorem State.modFp_profCfg : (s.modFp n f).profCfg = s.profCfg := rfl
@[simp] theorem State.modFp_dcfg : (s.modFp n f).dcfg = s.dcfg := rfl
@[simp] theorem State.modFp_twl : (s.modFp n f).twl = s.twl := rfl
@[simp] theorem State.modFp_poolProf : (s.modFp n f).poolProf = s.poolProf := rfl
@[simp] theorem State.modFp_cfgImg : (s.modFp n f).cfgImg = s.cfgImg := rfl
@[simp] theorem State.modFp_imm : (s.modFp n f).imm = s.imm := rfl
@[simp] theorem State.modFp_fca : (s.modFp n f).fca = s.fca := rfl
@[simp] theorem State.modFp_farm : (s.modFp n f).farm = s.farm := rfl
@[simp] theorem State.modFp_pool : (s.modFp n f).pool = s.pool := rfl
@[simp] theorem State.modFp_mins : (s.modFp n f).mins = s.mins := rfl
@[simp] theorem State.modFp_devfw : (s.modFp n f).devfw = s.devfw := rfl
@[simp] theorem State.modFp_plat : (s.modFp n f).plat = s.plat := rfl
@[simp] theorem State.modFp_mwd : (s.modFp n f).mwd = s.mwd := rfl
@[simp] theorem State.modFp_intw : (s.modFp n f).intw = s.intw := rfl
@[simp] theorem State.modFp_trace : (s.modFp n f).trace = s.trace := rfl
@[simp] theorem State.modFp_att : (s.modFp n f).att = s.att := rfl
@[simp] theorem State.modFp_spdm : (s.modFp n f).spdm = s.spdm := rfl
@[simp] theorem State.modFp_i3c : (s.modFp n f).i3c = s.i3c := rfl
@[simp] theorem State.modFp_rings : (s.modFp n f).rings = s.rings := rfl
@[simp] theorem State.modFp_arb : (s.modFp n f).arb = s.arb := rfl
@[simp] theorem State.modFp_views : (s.modFp n f).views = s.views := rfl
@[simp] theorem State.modFp_awaits : (s.modFp n f).awaits = s.awaits := rfl
@[simp] theorem State.modFp_hdrs : (s.modFp n f).hdrs = s.hdrs := rfl
@[simp] theorem State.modFp_burin : (s.modFp n f).burin = s.burin := rfl
@[simp] theorem State.modFp_hash : (s.modFp n f).hash = s.hash := rfl
@[simp] theorem State.modFp_drbg : (s.modFp n f).drbg = s.drbg := rfl
@[simp] theorem State.modFp_drawn : (s.modFp n f).drawn = s.drawn := rfl
@[simp] theorem State.modFp_keys : (s.modFp n f).keys = s.keys := rfl
@[simp] theorem State.modFp_tamper : (s.modFp n f).tamper = s.tamper := rfl
@[simp] theorem State.modFp_otp : (s.modFp n f).otp = s.otp := rfl
@[simp] theorem State.modFp_part : (s.modFp n f).part = s.part := rfl
@[simp] theorem State.modFp_power : (s.modFp n f).power = s.power := rfl
@[simp] theorem State.modFp_clk : (s.modFp n f).clk = s.clk := rfl
@[simp] theorem State.modFp_led : (s.modFp n f).led = s.led := rfl
@[simp] theorem State.modFp_dev : (s.modFp n f).dev = s.dev := rfl
@[simp] theorem State.modFp_pending : (s.modFp n f).pending = s.pending := rfl
@[simp] theorem State.modFp_port (c : Fin 128) : (s.modFp n f).port c = s.port c := rfl
@[simp] theorem State.modFp_mb (c : Fin 128) : (s.modFp n f).mb c = s.mb c := rfl
@[simp] theorem State.modFp_st (c : Fin 128) : (s.modFp n f).st c = s.st c := rfl
@[simp] theorem State.modFp_ch (c : Fin 128) : (s.modFp n f).ch c = s.ch c := rfl
@[simp] theorem State.modFp_pl (c : Fin 128) : (s.modFp n f).pl c = s.pl c := rfl
@[simp] theorem State.modFp_wd (c : Fin 128) : (s.modFp n f).wd c = s.wd c := rfl
@[simp] theorem State.modFp_area (c : Fin 128) : (s.modFp n f).area c = s.area c := rfl
@[simp] theorem State.modFp_polOf (c : Fin 128) : (s.modFp n f).polOf c = s.polOf c := rfl
@[simp] theorem State.modFp_profOf (c : Fin 128) : (s.modFp n f).profOf c = s.profOf c := rfl
@[simp] theorem State.modFp_dirE (c : Fin 256) : (s.modFp n f).dirE c = s.dirE c := rfl
@[simp] theorem State.modFp_core (c : Fin 4) : (s.modFp n f).core c = s.core c := rfl
@[simp] theorem State.modFp_ep (c : Fin 8) : (s.modFp n f).ep c = s.ep c := rfl
@[simp] theorem State.modFp_slot (c : Fin 256) : (s.modFp n f).slot c = s.slot c := rfl
@[simp] theorem State.modFp_ring (c : Mgr) : (s.modFp n f).ring c = s.ring c := rfl
@[simp] theorem State.modFp_view (c : Mgr) : (s.modFp n f).view c = s.view c := rfl

end

section

variable (s : State) (n : Fin 128) (f : ChanPol → ChanPol)

@[simp] theorem State.modPol_polOf : (s.modPol n f).polOf n = f (s.polOf n) := vget_vmod_self _ _ _
theorem State.modPol_polOf_ne {c : Fin 128} (h : c ≠ n) : (s.modPol n f).polOf c = s.polOf c := vget_vmod_ne _ _ h
@[simp] theorem State.modPol_now : (s.modPol n f).now = s.now := rfl
@[simp] theorem State.modPol_ports : (s.modPol n f).ports = s.ports := rfl
@[simp] theorem State.modPol_mbx : (s.modPol n f).mbx = s.mbx := rfl
@[simp] theorem State.modPol_stn : (s.modPol n f).stn = s.stn := rfl
@[simp] theorem State.modPol_ctl : (s.modPol n f).ctl = s.ctl := rfl
@[simp] theorem State.modPol_plt : (s.modPol n f).plt = s.plt := rfl
@[simp] theorem State.modPol_wdg : (s.modPol n f).wdg = s.wdg := rfl
@[simp] theorem State.modPol_areas : (s.modPol n f).areas = s.areas := rfl
@[simp] theorem State.modPol_fps : (s.modPol n f).fps = s.fps := rfl
@[simp] theorem State.modPol_polLedger : (s.modPol n f).polLedger = s.polLedger := rfl
@[simp] theorem State.modPol_polMin : (s.modPol n f).polMin = s.polMin := rfl
@[simp] theorem State.modPol_tamperPol : (s.modPol n f).tamperPol = s.tamperPol := rfl
@[simp] theorem State.modPol_prof : (s.modPol n f).prof = s.prof := rfl
@[simp] theorem State.modPol_profCfg : (s.modPol n f).profCfg = s.profCfg := rfl
@[simp] theorem State.modPol_dcfg : (s.modPol n f).dcfg = s.dcfg := rfl
@[simp] theorem State.modPol_twl : (s.modPol n f).twl = s.twl := rfl
@[simp] theorem State.modPol_poolProf : (s.modPol n f).poolProf = s.poolProf := rfl
@[simp] theorem State.modPol_cfgImg : (s.modPol n f).cfgImg = s.cfgImg := rfl
@[simp] theorem State.modPol_imm : (s.modPol n f).imm = s.imm := rfl
@[simp] theorem State.modPol_fca : (s.modPol n f).fca = s.fca := rfl
@[simp] theorem State.modPol_farm : (s.modPol n f).farm = s.farm := rfl
@[simp] theorem State.modPol_pool : (s.modPol n f).pool = s.pool := rfl
@[simp] theorem State.modPol_mins : (s.modPol n f).mins = s.mins := rfl
@[simp] theorem State.modPol_devfw : (s.modPol n f).devfw = s.devfw := rfl
@[simp] theorem State.modPol_plat : (s.modPol n f).plat = s.plat := rfl
@[simp] theorem State.modPol_mwd : (s.modPol n f).mwd = s.mwd := rfl
@[simp] theorem State.modPol_intw : (s.modPol n f).intw = s.intw := rfl
@[simp] theorem State.modPol_trace : (s.modPol n f).trace = s.trace := rfl
@[simp] theorem State.modPol_att : (s.modPol n f).att = s.att := rfl
@[simp] theorem State.modPol_spdm : (s.modPol n f).spdm = s.spdm := rfl
@[simp] theorem State.modPol_i3c : (s.modPol n f).i3c = s.i3c := rfl
@[simp] theorem State.modPol_rings : (s.modPol n f).rings = s.rings := rfl
@[simp] theorem State.modPol_arb : (s.modPol n f).arb = s.arb := rfl
@[simp] theorem State.modPol_views : (s.modPol n f).views = s.views := rfl
@[simp] theorem State.modPol_awaits : (s.modPol n f).awaits = s.awaits := rfl
@[simp] theorem State.modPol_hdrs : (s.modPol n f).hdrs = s.hdrs := rfl
@[simp] theorem State.modPol_burin : (s.modPol n f).burin = s.burin := rfl
@[simp] theorem State.modPol_hash : (s.modPol n f).hash = s.hash := rfl
@[simp] theorem State.modPol_drbg : (s.modPol n f).drbg = s.drbg := rfl
@[simp] theorem State.modPol_drawn : (s.modPol n f).drawn = s.drawn := rfl
@[simp] theorem State.modPol_keys : (s.modPol n f).keys = s.keys := rfl
@[simp] theorem State.modPol_tamper : (s.modPol n f).tamper = s.tamper := rfl
@[simp] theorem State.modPol_otp : (s.modPol n f).otp = s.otp := rfl
@[simp] theorem State.modPol_part : (s.modPol n f).part = s.part := rfl
@[simp] theorem State.modPol_power : (s.modPol n f).power = s.power := rfl
@[simp] theorem State.modPol_clk : (s.modPol n f).clk = s.clk := rfl
@[simp] theorem State.modPol_led : (s.modPol n f).led = s.led := rfl
@[simp] theorem State.modPol_dev : (s.modPol n f).dev = s.dev := rfl
@[simp] theorem State.modPol_pending : (s.modPol n f).pending = s.pending := rfl
@[simp] theorem State.modPol_port (c : Fin 128) : (s.modPol n f).port c = s.port c := rfl
@[simp] theorem State.modPol_mb (c : Fin 128) : (s.modPol n f).mb c = s.mb c := rfl
@[simp] theorem State.modPol_st (c : Fin 128) : (s.modPol n f).st c = s.st c := rfl
@[simp] theorem State.modPol_ch (c : Fin 128) : (s.modPol n f).ch c = s.ch c := rfl
@[simp] theorem State.modPol_pl (c : Fin 128) : (s.modPol n f).pl c = s.pl c := rfl
@[simp] theorem State.modPol_wd (c : Fin 128) : (s.modPol n f).wd c = s.wd c := rfl
@[simp] theorem State.modPol_area (c : Fin 128) : (s.modPol n f).area c = s.area c := rfl
@[simp] theorem State.modPol_fp (c : Fin 64) : (s.modPol n f).fp c = s.fp c := rfl
@[simp] theorem State.modPol_profOf (c : Fin 128) : (s.modPol n f).profOf c = s.profOf c := rfl
@[simp] theorem State.modPol_dirE (c : Fin 256) : (s.modPol n f).dirE c = s.dirE c := rfl
@[simp] theorem State.modPol_core (c : Fin 4) : (s.modPol n f).core c = s.core c := rfl
@[simp] theorem State.modPol_ep (c : Fin 8) : (s.modPol n f).ep c = s.ep c := rfl
@[simp] theorem State.modPol_slot (c : Fin 256) : (s.modPol n f).slot c = s.slot c := rfl
@[simp] theorem State.modPol_ring (c : Mgr) : (s.modPol n f).ring c = s.ring c := rfl
@[simp] theorem State.modPol_view (c : Mgr) : (s.modPol n f).view c = s.view c := rfl

end

section

variable (s : State) (m : Mgr) (f : Ring → Ring)

@[simp] theorem State.modRing_ring : (s.modRing m f).ring m = f (s.ring m) := PerMgr.get_set_self _ _ _
theorem State.modRing_ring_ne {c : Mgr} (h : c ≠ m) : (s.modRing m f).ring c = s.ring c := PerMgr.get_set_ne _ _ h
@[simp] theorem State.modRing_now : (s.modRing m f).now = s.now := rfl
@[simp] theorem State.modRing_ports : (s.modRing m f).ports = s.ports := rfl
@[simp] theorem State.modRing_mbx : (s.modRing m f).mbx = s.mbx := rfl
@[simp] theorem State.modRing_stn : (s.modRing m f).stn = s.stn := rfl
@[simp] theorem State.modRing_ctl : (s.modRing m f).ctl = s.ctl := rfl
@[simp] theorem State.modRing_plt : (s.modRing m f).plt = s.plt := rfl
@[simp] theorem State.modRing_wdg : (s.modRing m f).wdg = s.wdg := rfl
@[simp] theorem State.modRing_areas : (s.modRing m f).areas = s.areas := rfl
@[simp] theorem State.modRing_fps : (s.modRing m f).fps = s.fps := rfl
@[simp] theorem State.modRing_pol : (s.modRing m f).pol = s.pol := rfl
@[simp] theorem State.modRing_polLedger : (s.modRing m f).polLedger = s.polLedger := rfl
@[simp] theorem State.modRing_polMin : (s.modRing m f).polMin = s.polMin := rfl
@[simp] theorem State.modRing_tamperPol : (s.modRing m f).tamperPol = s.tamperPol := rfl
@[simp] theorem State.modRing_prof : (s.modRing m f).prof = s.prof := rfl
@[simp] theorem State.modRing_profCfg : (s.modRing m f).profCfg = s.profCfg := rfl
@[simp] theorem State.modRing_dcfg : (s.modRing m f).dcfg = s.dcfg := rfl
@[simp] theorem State.modRing_twl : (s.modRing m f).twl = s.twl := rfl
@[simp] theorem State.modRing_poolProf : (s.modRing m f).poolProf = s.poolProf := rfl
@[simp] theorem State.modRing_cfgImg : (s.modRing m f).cfgImg = s.cfgImg := rfl
@[simp] theorem State.modRing_imm : (s.modRing m f).imm = s.imm := rfl
@[simp] theorem State.modRing_fca : (s.modRing m f).fca = s.fca := rfl
@[simp] theorem State.modRing_farm : (s.modRing m f).farm = s.farm := rfl
@[simp] theorem State.modRing_pool : (s.modRing m f).pool = s.pool := rfl
@[simp] theorem State.modRing_mins : (s.modRing m f).mins = s.mins := rfl
@[simp] theorem State.modRing_devfw : (s.modRing m f).devfw = s.devfw := rfl
@[simp] theorem State.modRing_plat : (s.modRing m f).plat = s.plat := rfl
@[simp] theorem State.modRing_mwd : (s.modRing m f).mwd = s.mwd := rfl
@[simp] theorem State.modRing_intw : (s.modRing m f).intw = s.intw := rfl
@[simp] theorem State.modRing_trace : (s.modRing m f).trace = s.trace := rfl
@[simp] theorem State.modRing_att : (s.modRing m f).att = s.att := rfl
@[simp] theorem State.modRing_spdm : (s.modRing m f).spdm = s.spdm := rfl
@[simp] theorem State.modRing_i3c : (s.modRing m f).i3c = s.i3c := rfl
@[simp] theorem State.modRing_arb : (s.modRing m f).arb = s.arb := rfl
@[simp] theorem State.modRing_views : (s.modRing m f).views = s.views := rfl
@[simp] theorem State.modRing_awaits : (s.modRing m f).awaits = s.awaits := rfl
@[simp] theorem State.modRing_hdrs : (s.modRing m f).hdrs = s.hdrs := rfl
@[simp] theorem State.modRing_burin : (s.modRing m f).burin = s.burin := rfl
@[simp] theorem State.modRing_hash : (s.modRing m f).hash = s.hash := rfl
@[simp] theorem State.modRing_drbg : (s.modRing m f).drbg = s.drbg := rfl
@[simp] theorem State.modRing_drawn : (s.modRing m f).drawn = s.drawn := rfl
@[simp] theorem State.modRing_keys : (s.modRing m f).keys = s.keys := rfl
@[simp] theorem State.modRing_tamper : (s.modRing m f).tamper = s.tamper := rfl
@[simp] theorem State.modRing_otp : (s.modRing m f).otp = s.otp := rfl
@[simp] theorem State.modRing_part : (s.modRing m f).part = s.part := rfl
@[simp] theorem State.modRing_power : (s.modRing m f).power = s.power := rfl
@[simp] theorem State.modRing_clk : (s.modRing m f).clk = s.clk := rfl
@[simp] theorem State.modRing_led : (s.modRing m f).led = s.led := rfl
@[simp] theorem State.modRing_dev : (s.modRing m f).dev = s.dev := rfl
@[simp] theorem State.modRing_pending : (s.modRing m f).pending = s.pending := rfl
@[simp] theorem State.modRing_port (c : Fin 128) : (s.modRing m f).port c = s.port c := rfl
@[simp] theorem State.modRing_mb (c : Fin 128) : (s.modRing m f).mb c = s.mb c := rfl
@[simp] theorem State.modRing_st (c : Fin 128) : (s.modRing m f).st c = s.st c := rfl
@[simp] theorem State.modRing_ch (c : Fin 128) : (s.modRing m f).ch c = s.ch c := rfl
@[simp] theorem State.modRing_pl (c : Fin 128) : (s.modRing m f).pl c = s.pl c := rfl
@[simp] theorem State.modRing_wd (c : Fin 128) : (s.modRing m f).wd c = s.wd c := rfl
@[simp] theorem State.modRing_area (c : Fin 128) : (s.modRing m f).area c = s.area c := rfl
@[simp] theorem State.modRing_fp (c : Fin 64) : (s.modRing m f).fp c = s.fp c := rfl
@[simp] theorem State.modRing_polOf (c : Fin 128) : (s.modRing m f).polOf c = s.polOf c := rfl
@[simp] theorem State.modRing_profOf (c : Fin 128) : (s.modRing m f).profOf c = s.profOf c := rfl
@[simp] theorem State.modRing_dirE (c : Fin 256) : (s.modRing m f).dirE c = s.dirE c := rfl
@[simp] theorem State.modRing_core (c : Fin 4) : (s.modRing m f).core c = s.core c := rfl
@[simp] theorem State.modRing_ep (c : Fin 8) : (s.modRing m f).ep c = s.ep c := rfl
@[simp] theorem State.modRing_slot (c : Fin 256) : (s.modRing m f).slot c = s.slot c := rfl
@[simp] theorem State.modRing_view (c : Mgr) : (s.modRing m f).view c = s.view c := rfl

end

section

variable (s : State) (m : Mgr) (f : View → View)

@[simp] theorem State.modView_view : (s.modView m f).view m = f (s.view m) := PerMgr.get_set_self _ _ _
theorem State.modView_view_ne {c : Mgr} (h : c ≠ m) : (s.modView m f).view c = s.view c := PerMgr.get_set_ne _ _ h
@[simp] theorem State.modView_now : (s.modView m f).now = s.now := rfl
@[simp] theorem State.modView_ports : (s.modView m f).ports = s.ports := rfl
@[simp] theorem State.modView_mbx : (s.modView m f).mbx = s.mbx := rfl
@[simp] theorem State.modView_stn : (s.modView m f).stn = s.stn := rfl
@[simp] theorem State.modView_ctl : (s.modView m f).ctl = s.ctl := rfl
@[simp] theorem State.modView_plt : (s.modView m f).plt = s.plt := rfl
@[simp] theorem State.modView_wdg : (s.modView m f).wdg = s.wdg := rfl
@[simp] theorem State.modView_areas : (s.modView m f).areas = s.areas := rfl
@[simp] theorem State.modView_fps : (s.modView m f).fps = s.fps := rfl
@[simp] theorem State.modView_pol : (s.modView m f).pol = s.pol := rfl
@[simp] theorem State.modView_polLedger : (s.modView m f).polLedger = s.polLedger := rfl
@[simp] theorem State.modView_polMin : (s.modView m f).polMin = s.polMin := rfl
@[simp] theorem State.modView_tamperPol : (s.modView m f).tamperPol = s.tamperPol := rfl
@[simp] theorem State.modView_prof : (s.modView m f).prof = s.prof := rfl
@[simp] theorem State.modView_profCfg : (s.modView m f).profCfg = s.profCfg := rfl
@[simp] theorem State.modView_dcfg : (s.modView m f).dcfg = s.dcfg := rfl
@[simp] theorem State.modView_twl : (s.modView m f).twl = s.twl := rfl
@[simp] theorem State.modView_poolProf : (s.modView m f).poolProf = s.poolProf := rfl
@[simp] theorem State.modView_cfgImg : (s.modView m f).cfgImg = s.cfgImg := rfl
@[simp] theorem State.modView_imm : (s.modView m f).imm = s.imm := rfl
@[simp] theorem State.modView_fca : (s.modView m f).fca = s.fca := rfl
@[simp] theorem State.modView_farm : (s.modView m f).farm = s.farm := rfl
@[simp] theorem State.modView_pool : (s.modView m f).pool = s.pool := rfl
@[simp] theorem State.modView_mins : (s.modView m f).mins = s.mins := rfl
@[simp] theorem State.modView_devfw : (s.modView m f).devfw = s.devfw := rfl
@[simp] theorem State.modView_plat : (s.modView m f).plat = s.plat := rfl
@[simp] theorem State.modView_mwd : (s.modView m f).mwd = s.mwd := rfl
@[simp] theorem State.modView_intw : (s.modView m f).intw = s.intw := rfl
@[simp] theorem State.modView_trace : (s.modView m f).trace = s.trace := rfl
@[simp] theorem State.modView_att : (s.modView m f).att = s.att := rfl
@[simp] theorem State.modView_spdm : (s.modView m f).spdm = s.spdm := rfl
@[simp] theorem State.modView_i3c : (s.modView m f).i3c = s.i3c := rfl
@[simp] theorem State.modView_rings : (s.modView m f).rings = s.rings := rfl
@[simp] theorem State.modView_arb : (s.modView m f).arb = s.arb := rfl
@[simp] theorem State.modView_awaits : (s.modView m f).awaits = s.awaits := rfl
@[simp] theorem State.modView_hdrs : (s.modView m f).hdrs = s.hdrs := rfl
@[simp] theorem State.modView_burin : (s.modView m f).burin = s.burin := rfl
@[simp] theorem State.modView_hash : (s.modView m f).hash = s.hash := rfl
@[simp] theorem State.modView_drbg : (s.modView m f).drbg = s.drbg := rfl
@[simp] theorem State.modView_drawn : (s.modView m f).drawn = s.drawn := rfl
@[simp] theorem State.modView_keys : (s.modView m f).keys = s.keys := rfl
@[simp] theorem State.modView_tamper : (s.modView m f).tamper = s.tamper := rfl
@[simp] theorem State.modView_otp : (s.modView m f).otp = s.otp := rfl
@[simp] theorem State.modView_part : (s.modView m f).part = s.part := rfl
@[simp] theorem State.modView_power : (s.modView m f).power = s.power := rfl
@[simp] theorem State.modView_clk : (s.modView m f).clk = s.clk := rfl
@[simp] theorem State.modView_led : (s.modView m f).led = s.led := rfl
@[simp] theorem State.modView_dev : (s.modView m f).dev = s.dev := rfl
@[simp] theorem State.modView_pending : (s.modView m f).pending = s.pending := rfl
@[simp] theorem State.modView_port (c : Fin 128) : (s.modView m f).port c = s.port c := rfl
@[simp] theorem State.modView_mb (c : Fin 128) : (s.modView m f).mb c = s.mb c := rfl
@[simp] theorem State.modView_st (c : Fin 128) : (s.modView m f).st c = s.st c := rfl
@[simp] theorem State.modView_ch (c : Fin 128) : (s.modView m f).ch c = s.ch c := rfl
@[simp] theorem State.modView_pl (c : Fin 128) : (s.modView m f).pl c = s.pl c := rfl
@[simp] theorem State.modView_wd (c : Fin 128) : (s.modView m f).wd c = s.wd c := rfl
@[simp] theorem State.modView_area (c : Fin 128) : (s.modView m f).area c = s.area c := rfl
@[simp] theorem State.modView_fp (c : Fin 64) : (s.modView m f).fp c = s.fp c := rfl
@[simp] theorem State.modView_polOf (c : Fin 128) : (s.modView m f).polOf c = s.polOf c := rfl
@[simp] theorem State.modView_profOf (c : Fin 128) : (s.modView m f).profOf c = s.profOf c := rfl
@[simp] theorem State.modView_dirE (c : Fin 256) : (s.modView m f).dirE c = s.dirE c := rfl
@[simp] theorem State.modView_core (c : Fin 4) : (s.modView m f).core c = s.core c := rfl
@[simp] theorem State.modView_ep (c : Fin 8) : (s.modView m f).ep c = s.ep c := rfl
@[simp] theorem State.modView_slot (c : Fin 256) : (s.modView m f).slot c = s.slot c := rfl
@[simp] theorem State.modView_ring (c : Mgr) : (s.modView m f).ring c = s.ring c := rfl

end

section

variable (s : State) (m : Mgr) (f : Mwd → Mwd)

@[simp] theorem State.modMwd_now : (s.modMwd m f).now = s.now := rfl
@[simp] theorem State.modMwd_ports : (s.modMwd m f).ports = s.ports := rfl
@[simp] theorem State.modMwd_mbx : (s.modMwd m f).mbx = s.mbx := rfl
@[simp] theorem State.modMwd_stn : (s.modMwd m f).stn = s.stn := rfl
@[simp] theorem State.modMwd_ctl : (s.modMwd m f).ctl = s.ctl := rfl
@[simp] theorem State.modMwd_plt : (s.modMwd m f).plt = s.plt := rfl
@[simp] theorem State.modMwd_wdg : (s.modMwd m f).wdg = s.wdg := rfl
@[simp] theorem State.modMwd_areas : (s.modMwd m f).areas = s.areas := rfl
@[simp] theorem State.modMwd_fps : (s.modMwd m f).fps = s.fps := rfl
@[simp] theorem State.modMwd_pol : (s.modMwd m f).pol = s.pol := rfl
@[simp] theorem State.modMwd_polLedger : (s.modMwd m f).polLedger = s.polLedger := rfl
@[simp] theorem State.modMwd_polMin : (s.modMwd m f).polMin = s.polMin := rfl
@[simp] theorem State.modMwd_tamperPol : (s.modMwd m f).tamperPol = s.tamperPol := rfl
@[simp] theorem State.modMwd_prof : (s.modMwd m f).prof = s.prof := rfl
@[simp] theorem State.modMwd_profCfg : (s.modMwd m f).profCfg = s.profCfg := rfl
@[simp] theorem State.modMwd_dcfg : (s.modMwd m f).dcfg = s.dcfg := rfl
@[simp] theorem State.modMwd_twl : (s.modMwd m f).twl = s.twl := rfl
@[simp] theorem State.modMwd_poolProf : (s.modMwd m f).poolProf = s.poolProf := rfl
@[simp] theorem State.modMwd_cfgImg : (s.modMwd m f).cfgImg = s.cfgImg := rfl
@[simp] theorem State.modMwd_imm : (s.modMwd m f).imm = s.imm := rfl
@[simp] theorem State.modMwd_fca : (s.modMwd m f).fca = s.fca := rfl
@[simp] theorem State.modMwd_farm : (s.modMwd m f).farm = s.farm := rfl
@[simp] theorem State.modMwd_pool : (s.modMwd m f).pool = s.pool := rfl
@[simp] theorem State.modMwd_mins : (s.modMwd m f).mins = s.mins := rfl
@[simp] theorem State.modMwd_devfw : (s.modMwd m f).devfw = s.devfw := rfl
@[simp] theorem State.modMwd_plat : (s.modMwd m f).plat = s.plat := rfl
@[simp] theorem State.modMwd_intw : (s.modMwd m f).intw = s.intw := rfl
@[simp] theorem State.modMwd_trace : (s.modMwd m f).trace = s.trace := rfl
@[simp] theorem State.modMwd_att : (s.modMwd m f).att = s.att := rfl
@[simp] theorem State.modMwd_spdm : (s.modMwd m f).spdm = s.spdm := rfl
@[simp] theorem State.modMwd_i3c : (s.modMwd m f).i3c = s.i3c := rfl
@[simp] theorem State.modMwd_rings : (s.modMwd m f).rings = s.rings := rfl
@[simp] theorem State.modMwd_arb : (s.modMwd m f).arb = s.arb := rfl
@[simp] theorem State.modMwd_views : (s.modMwd m f).views = s.views := rfl
@[simp] theorem State.modMwd_awaits : (s.modMwd m f).awaits = s.awaits := rfl
@[simp] theorem State.modMwd_hdrs : (s.modMwd m f).hdrs = s.hdrs := rfl
@[simp] theorem State.modMwd_burin : (s.modMwd m f).burin = s.burin := rfl
@[simp] theorem State.modMwd_hash : (s.modMwd m f).hash = s.hash := rfl
@[simp] theorem State.modMwd_drbg : (s.modMwd m f).drbg = s.drbg := rfl
@[simp] theorem State.modMwd_drawn : (s.modMwd m f).drawn = s.drawn := rfl
@[simp] theorem State.modMwd_keys : (s.modMwd m f).keys = s.keys := rfl
@[simp] theorem State.modMwd_tamper : (s.modMwd m f).tamper = s.tamper := rfl
@[simp] theorem State.modMwd_otp : (s.modMwd m f).otp = s.otp := rfl
@[simp] theorem State.modMwd_part : (s.modMwd m f).part = s.part := rfl
@[simp] theorem State.modMwd_power : (s.modMwd m f).power = s.power := rfl
@[simp] theorem State.modMwd_clk : (s.modMwd m f).clk = s.clk := rfl
@[simp] theorem State.modMwd_led : (s.modMwd m f).led = s.led := rfl
@[simp] theorem State.modMwd_dev : (s.modMwd m f).dev = s.dev := rfl
@[simp] theorem State.modMwd_pending : (s.modMwd m f).pending = s.pending := rfl
@[simp] theorem State.modMwd_port (c : Fin 128) : (s.modMwd m f).port c = s.port c := rfl
@[simp] theorem State.modMwd_mb (c : Fin 128) : (s.modMwd m f).mb c = s.mb c := rfl
@[simp] theorem State.modMwd_st (c : Fin 128) : (s.modMwd m f).st c = s.st c := rfl
@[simp] theorem State.modMwd_ch (c : Fin 128) : (s.modMwd m f).ch c = s.ch c := rfl
@[simp] theorem State.modMwd_pl (c : Fin 128) : (s.modMwd m f).pl c = s.pl c := rfl
@[simp] theorem State.modMwd_wd (c : Fin 128) : (s.modMwd m f).wd c = s.wd c := rfl
@[simp] theorem State.modMwd_area (c : Fin 128) : (s.modMwd m f).area c = s.area c := rfl
@[simp] theorem State.modMwd_fp (c : Fin 64) : (s.modMwd m f).fp c = s.fp c := rfl
@[simp] theorem State.modMwd_polOf (c : Fin 128) : (s.modMwd m f).polOf c = s.polOf c := rfl
@[simp] theorem State.modMwd_profOf (c : Fin 128) : (s.modMwd m f).profOf c = s.profOf c := rfl
@[simp] theorem State.modMwd_dirE (c : Fin 256) : (s.modMwd m f).dirE c = s.dirE c := rfl
@[simp] theorem State.modMwd_core (c : Fin 4) : (s.modMwd m f).core c = s.core c := rfl
@[simp] theorem State.modMwd_ep (c : Fin 8) : (s.modMwd m f).ep c = s.ep c := rfl
@[simp] theorem State.modMwd_slot (c : Fin 256) : (s.modMwd m f).slot c = s.slot c := rfl
@[simp] theorem State.modMwd_ring (c : Mgr) : (s.modMwd m f).ring c = s.ring c := rfl
@[simp] theorem State.modMwd_view (c : Mgr) : (s.modMwd m f).view c = s.view c := rfl

end

section

variable (s : State) (m : Mgr) (f : HashWork → HashWork)

@[simp] theorem State.modHash_now : (s.modHash m f).now = s.now := rfl
@[simp] theorem State.modHash_ports : (s.modHash m f).ports = s.ports := rfl
@[simp] theorem State.modHash_mbx : (s.modHash m f).mbx = s.mbx := rfl
@[simp] theorem State.modHash_stn : (s.modHash m f).stn = s.stn := rfl
@[simp] theorem State.modHash_ctl : (s.modHash m f).ctl = s.ctl := rfl
@[simp] theorem State.modHash_plt : (s.modHash m f).plt = s.plt := rfl
@[simp] theorem State.modHash_wdg : (s.modHash m f).wdg = s.wdg := rfl
@[simp] theorem State.modHash_areas : (s.modHash m f).areas = s.areas := rfl
@[simp] theorem State.modHash_fps : (s.modHash m f).fps = s.fps := rfl
@[simp] theorem State.modHash_pol : (s.modHash m f).pol = s.pol := rfl
@[simp] theorem State.modHash_polLedger : (s.modHash m f).polLedger = s.polLedger := rfl
@[simp] theorem State.modHash_polMin : (s.modHash m f).polMin = s.polMin := rfl
@[simp] theorem State.modHash_tamperPol : (s.modHash m f).tamperPol = s.tamperPol := rfl
@[simp] theorem State.modHash_prof : (s.modHash m f).prof = s.prof := rfl
@[simp] theorem State.modHash_profCfg : (s.modHash m f).profCfg = s.profCfg := rfl
@[simp] theorem State.modHash_dcfg : (s.modHash m f).dcfg = s.dcfg := rfl
@[simp] theorem State.modHash_twl : (s.modHash m f).twl = s.twl := rfl
@[simp] theorem State.modHash_poolProf : (s.modHash m f).poolProf = s.poolProf := rfl
@[simp] theorem State.modHash_cfgImg : (s.modHash m f).cfgImg = s.cfgImg := rfl
@[simp] theorem State.modHash_imm : (s.modHash m f).imm = s.imm := rfl
@[simp] theorem State.modHash_fca : (s.modHash m f).fca = s.fca := rfl
@[simp] theorem State.modHash_farm : (s.modHash m f).farm = s.farm := rfl
@[simp] theorem State.modHash_pool : (s.modHash m f).pool = s.pool := rfl
@[simp] theorem State.modHash_mins : (s.modHash m f).mins = s.mins := rfl
@[simp] theorem State.modHash_devfw : (s.modHash m f).devfw = s.devfw := rfl
@[simp] theorem State.modHash_plat : (s.modHash m f).plat = s.plat := rfl
@[simp] theorem State.modHash_mwd : (s.modHash m f).mwd = s.mwd := rfl
@[simp] theorem State.modHash_intw : (s.modHash m f).intw = s.intw := rfl
@[simp] theorem State.modHash_trace : (s.modHash m f).trace = s.trace := rfl
@[simp] theorem State.modHash_att : (s.modHash m f).att = s.att := rfl
@[simp] theorem State.modHash_spdm : (s.modHash m f).spdm = s.spdm := rfl
@[simp] theorem State.modHash_i3c : (s.modHash m f).i3c = s.i3c := rfl
@[simp] theorem State.modHash_rings : (s.modHash m f).rings = s.rings := rfl
@[simp] theorem State.modHash_arb : (s.modHash m f).arb = s.arb := rfl
@[simp] theorem State.modHash_views : (s.modHash m f).views = s.views := rfl
@[simp] theorem State.modHash_awaits : (s.modHash m f).awaits = s.awaits := rfl
@[simp] theorem State.modHash_hdrs : (s.modHash m f).hdrs = s.hdrs := rfl
@[simp] theorem State.modHash_burin : (s.modHash m f).burin = s.burin := rfl
@[simp] theorem State.modHash_drbg : (s.modHash m f).drbg = s.drbg := rfl
@[simp] theorem State.modHash_drawn : (s.modHash m f).drawn = s.drawn := rfl
@[simp] theorem State.modHash_keys : (s.modHash m f).keys = s.keys := rfl
@[simp] theorem State.modHash_tamper : (s.modHash m f).tamper = s.tamper := rfl
@[simp] theorem State.modHash_otp : (s.modHash m f).otp = s.otp := rfl
@[simp] theorem State.modHash_part : (s.modHash m f).part = s.part := rfl
@[simp] theorem State.modHash_power : (s.modHash m f).power = s.power := rfl
@[simp] theorem State.modHash_clk : (s.modHash m f).clk = s.clk := rfl
@[simp] theorem State.modHash_led : (s.modHash m f).led = s.led := rfl
@[simp] theorem State.modHash_dev : (s.modHash m f).dev = s.dev := rfl
@[simp] theorem State.modHash_pending : (s.modHash m f).pending = s.pending := rfl
@[simp] theorem State.modHash_port (c : Fin 128) : (s.modHash m f).port c = s.port c := rfl
@[simp] theorem State.modHash_mb (c : Fin 128) : (s.modHash m f).mb c = s.mb c := rfl
@[simp] theorem State.modHash_st (c : Fin 128) : (s.modHash m f).st c = s.st c := rfl
@[simp] theorem State.modHash_ch (c : Fin 128) : (s.modHash m f).ch c = s.ch c := rfl
@[simp] theorem State.modHash_pl (c : Fin 128) : (s.modHash m f).pl c = s.pl c := rfl
@[simp] theorem State.modHash_wd (c : Fin 128) : (s.modHash m f).wd c = s.wd c := rfl
@[simp] theorem State.modHash_area (c : Fin 128) : (s.modHash m f).area c = s.area c := rfl
@[simp] theorem State.modHash_fp (c : Fin 64) : (s.modHash m f).fp c = s.fp c := rfl
@[simp] theorem State.modHash_polOf (c : Fin 128) : (s.modHash m f).polOf c = s.polOf c := rfl
@[simp] theorem State.modHash_profOf (c : Fin 128) : (s.modHash m f).profOf c = s.profOf c := rfl
@[simp] theorem State.modHash_dirE (c : Fin 256) : (s.modHash m f).dirE c = s.dirE c := rfl
@[simp] theorem State.modHash_core (c : Fin 4) : (s.modHash m f).core c = s.core c := rfl
@[simp] theorem State.modHash_ep (c : Fin 8) : (s.modHash m f).ep c = s.ep c := rfl
@[simp] theorem State.modHash_slot (c : Fin 256) : (s.modHash m f).slot c = s.slot c := rfl
@[simp] theorem State.modHash_ring (c : Mgr) : (s.modHash m f).ring c = s.ring c := rfl
@[simp] theorem State.modHash_view (c : Mgr) : (s.modHash m f).view c = s.view c := rfl

end

section

variable (s : State) (m : Mgr) (f : AttView → AttView)

@[simp] theorem State.modAttView_now : (s.modAttView m f).now = s.now := rfl
@[simp] theorem State.modAttView_ports : (s.modAttView m f).ports = s.ports := rfl
@[simp] theorem State.modAttView_mbx : (s.modAttView m f).mbx = s.mbx := rfl
@[simp] theorem State.modAttView_stn : (s.modAttView m f).stn = s.stn := rfl
@[simp] theorem State.modAttView_ctl : (s.modAttView m f).ctl = s.ctl := rfl
@[simp] theorem State.modAttView_plt : (s.modAttView m f).plt = s.plt := rfl
@[simp] theorem State.modAttView_wdg : (s.modAttView m f).wdg = s.wdg := rfl
@[simp] theorem State.modAttView_areas : (s.modAttView m f).areas = s.areas := rfl
@[simp] theorem State.modAttView_fps : (s.modAttView m f).fps = s.fps := rfl
@[simp] theorem State.modAttView_pol : (s.modAttView m f).pol = s.pol := rfl
@[simp] theorem State.modAttView_polLedger : (s.modAttView m f).polLedger = s.polLedger := rfl
@[simp] theorem State.modAttView_polMin : (s.modAttView m f).polMin = s.polMin := rfl
@[simp] theorem State.modAttView_tamperPol : (s.modAttView m f).tamperPol = s.tamperPol := rfl
@[simp] theorem State.modAttView_prof : (s.modAttView m f).prof = s.prof := rfl
@[simp] theorem State.modAttView_profCfg : (s.modAttView m f).profCfg = s.profCfg := rfl
@[simp] theorem State.modAttView_dcfg : (s.modAttView m f).dcfg = s.dcfg := rfl
@[simp] theorem State.modAttView_twl : (s.modAttView m f).twl = s.twl := rfl
@[simp] theorem State.modAttView_poolProf : (s.modAttView m f).poolProf = s.poolProf := rfl
@[simp] theorem State.modAttView_cfgImg : (s.modAttView m f).cfgImg = s.cfgImg := rfl
@[simp] theorem State.modAttView_imm : (s.modAttView m f).imm = s.imm := rfl
@[simp] theorem State.modAttView_fca : (s.modAttView m f).fca = s.fca := rfl
@[simp] theorem State.modAttView_farm : (s.modAttView m f).farm = s.farm := rfl
@[simp] theorem State.modAttView_pool : (s.modAttView m f).pool = s.pool := rfl
@[simp] theorem State.modAttView_mins : (s.modAttView m f).mins = s.mins := rfl
@[simp] theorem State.modAttView_devfw : (s.modAttView m f).devfw = s.devfw := rfl
@[simp] theorem State.modAttView_plat : (s.modAttView m f).plat = s.plat := rfl
@[simp] theorem State.modAttView_mwd : (s.modAttView m f).mwd = s.mwd := rfl
@[simp] theorem State.modAttView_intw : (s.modAttView m f).intw = s.intw := rfl
@[simp] theorem State.modAttView_trace : (s.modAttView m f).trace = s.trace := rfl
@[simp] theorem State.modAttView_spdm : (s.modAttView m f).spdm = s.spdm := rfl
@[simp] theorem State.modAttView_i3c : (s.modAttView m f).i3c = s.i3c := rfl
@[simp] theorem State.modAttView_rings : (s.modAttView m f).rings = s.rings := rfl
@[simp] theorem State.modAttView_arb : (s.modAttView m f).arb = s.arb := rfl
@[simp] theorem State.modAttView_views : (s.modAttView m f).views = s.views := rfl
@[simp] theorem State.modAttView_awaits : (s.modAttView m f).awaits = s.awaits := rfl
@[simp] theorem State.modAttView_hdrs : (s.modAttView m f).hdrs = s.hdrs := rfl
@[simp] theorem State.modAttView_burin : (s.modAttView m f).burin = s.burin := rfl
@[simp] theorem State.modAttView_hash : (s.modAttView m f).hash = s.hash := rfl
@[simp] theorem State.modAttView_drbg : (s.modAttView m f).drbg = s.drbg := rfl
@[simp] theorem State.modAttView_drawn : (s.modAttView m f).drawn = s.drawn := rfl
@[simp] theorem State.modAttView_keys : (s.modAttView m f).keys = s.keys := rfl
@[simp] theorem State.modAttView_tamper : (s.modAttView m f).tamper = s.tamper := rfl
@[simp] theorem State.modAttView_otp : (s.modAttView m f).otp = s.otp := rfl
@[simp] theorem State.modAttView_part : (s.modAttView m f).part = s.part := rfl
@[simp] theorem State.modAttView_power : (s.modAttView m f).power = s.power := rfl
@[simp] theorem State.modAttView_clk : (s.modAttView m f).clk = s.clk := rfl
@[simp] theorem State.modAttView_led : (s.modAttView m f).led = s.led := rfl
@[simp] theorem State.modAttView_dev : (s.modAttView m f).dev = s.dev := rfl
@[simp] theorem State.modAttView_pending : (s.modAttView m f).pending = s.pending := rfl
@[simp] theorem State.modAttView_port (c : Fin 128) : (s.modAttView m f).port c = s.port c := rfl
@[simp] theorem State.modAttView_mb (c : Fin 128) : (s.modAttView m f).mb c = s.mb c := rfl
@[simp] theorem State.modAttView_st (c : Fin 128) : (s.modAttView m f).st c = s.st c := rfl
@[simp] theorem State.modAttView_ch (c : Fin 128) : (s.modAttView m f).ch c = s.ch c := rfl
@[simp] theorem State.modAttView_pl (c : Fin 128) : (s.modAttView m f).pl c = s.pl c := rfl
@[simp] theorem State.modAttView_wd (c : Fin 128) : (s.modAttView m f).wd c = s.wd c := rfl
@[simp] theorem State.modAttView_area (c : Fin 128) : (s.modAttView m f).area c = s.area c := rfl
@[simp] theorem State.modAttView_fp (c : Fin 64) : (s.modAttView m f).fp c = s.fp c := rfl
@[simp] theorem State.modAttView_polOf (c : Fin 128) : (s.modAttView m f).polOf c = s.polOf c := rfl
@[simp] theorem State.modAttView_profOf (c : Fin 128) : (s.modAttView m f).profOf c = s.profOf c := rfl
@[simp] theorem State.modAttView_dirE (c : Fin 256) : (s.modAttView m f).dirE c = s.dirE c := rfl
@[simp] theorem State.modAttView_core (c : Fin 4) : (s.modAttView m f).core c = s.core c := rfl
@[simp] theorem State.modAttView_ep (c : Fin 8) : (s.modAttView m f).ep c = s.ep c := rfl
@[simp] theorem State.modAttView_slot (c : Fin 256) : (s.modAttView m f).slot c = s.slot c := rfl
@[simp] theorem State.modAttView_ring (c : Mgr) : (s.modAttView m f).ring c = s.ring c := rfl
@[simp] theorem State.modAttView_view (c : Mgr) : (s.modAttView m f).view c = s.view c := rfl

end

section

variable (s : State) (i : Fin 256) (f : Impression → Impression)

@[simp] theorem State.modDir_dirE : (s.modDir i f).dirE i = f (s.dirE i) := vget_vmod_self _ _ _
theorem State.modDir_dirE_ne {c : Fin 256} (h : c ≠ i) : (s.modDir i f).dirE c = s.dirE c := vget_vmod_ne _ _ h
@[simp] theorem State.modDir_now : (s.modDir i f).now = s.now := rfl
@[simp] theorem State.modDir_ports : (s.modDir i f).ports = s.ports := rfl
@[simp] theorem State.modDir_mbx : (s.modDir i f).mbx = s.mbx := rfl
@[simp] theorem State.modDir_stn : (s.modDir i f).stn = s.stn := rfl
@[simp] theorem State.modDir_ctl : (s.modDir i f).ctl = s.ctl := rfl
@[simp] theorem State.modDir_plt : (s.modDir i f).plt = s.plt := rfl
@[simp] theorem State.modDir_wdg : (s.modDir i f).wdg = s.wdg := rfl
@[simp] theorem State.modDir_areas : (s.modDir i f).areas = s.areas := rfl
@[simp] theorem State.modDir_fps : (s.modDir i f).fps = s.fps := rfl
@[simp] theorem State.modDir_pol : (s.modDir i f).pol = s.pol := rfl
@[simp] theorem State.modDir_polLedger : (s.modDir i f).polLedger = s.polLedger := rfl
@[simp] theorem State.modDir_polMin : (s.modDir i f).polMin = s.polMin := rfl
@[simp] theorem State.modDir_tamperPol : (s.modDir i f).tamperPol = s.tamperPol := rfl
@[simp] theorem State.modDir_prof : (s.modDir i f).prof = s.prof := rfl
@[simp] theorem State.modDir_profCfg : (s.modDir i f).profCfg = s.profCfg := rfl
@[simp] theorem State.modDir_dcfg : (s.modDir i f).dcfg = s.dcfg := rfl
@[simp] theorem State.modDir_twl : (s.modDir i f).twl = s.twl := rfl
@[simp] theorem State.modDir_poolProf : (s.modDir i f).poolProf = s.poolProf := rfl
@[simp] theorem State.modDir_cfgImg : (s.modDir i f).cfgImg = s.cfgImg := rfl
@[simp] theorem State.modDir_fca : (s.modDir i f).fca = s.fca := rfl
@[simp] theorem State.modDir_farm : (s.modDir i f).farm = s.farm := rfl
@[simp] theorem State.modDir_pool : (s.modDir i f).pool = s.pool := rfl
@[simp] theorem State.modDir_mins : (s.modDir i f).mins = s.mins := rfl
@[simp] theorem State.modDir_devfw : (s.modDir i f).devfw = s.devfw := rfl
@[simp] theorem State.modDir_plat : (s.modDir i f).plat = s.plat := rfl
@[simp] theorem State.modDir_mwd : (s.modDir i f).mwd = s.mwd := rfl
@[simp] theorem State.modDir_intw : (s.modDir i f).intw = s.intw := rfl
@[simp] theorem State.modDir_trace : (s.modDir i f).trace = s.trace := rfl
@[simp] theorem State.modDir_att : (s.modDir i f).att = s.att := rfl
@[simp] theorem State.modDir_spdm : (s.modDir i f).spdm = s.spdm := rfl
@[simp] theorem State.modDir_i3c : (s.modDir i f).i3c = s.i3c := rfl
@[simp] theorem State.modDir_rings : (s.modDir i f).rings = s.rings := rfl
@[simp] theorem State.modDir_arb : (s.modDir i f).arb = s.arb := rfl
@[simp] theorem State.modDir_views : (s.modDir i f).views = s.views := rfl
@[simp] theorem State.modDir_awaits : (s.modDir i f).awaits = s.awaits := rfl
@[simp] theorem State.modDir_hdrs : (s.modDir i f).hdrs = s.hdrs := rfl
@[simp] theorem State.modDir_burin : (s.modDir i f).burin = s.burin := rfl
@[simp] theorem State.modDir_hash : (s.modDir i f).hash = s.hash := rfl
@[simp] theorem State.modDir_drbg : (s.modDir i f).drbg = s.drbg := rfl
@[simp] theorem State.modDir_drawn : (s.modDir i f).drawn = s.drawn := rfl
@[simp] theorem State.modDir_keys : (s.modDir i f).keys = s.keys := rfl
@[simp] theorem State.modDir_tamper : (s.modDir i f).tamper = s.tamper := rfl
@[simp] theorem State.modDir_otp : (s.modDir i f).otp = s.otp := rfl
@[simp] theorem State.modDir_part : (s.modDir i f).part = s.part := rfl
@[simp] theorem State.modDir_power : (s.modDir i f).power = s.power := rfl
@[simp] theorem State.modDir_clk : (s.modDir i f).clk = s.clk := rfl
@[simp] theorem State.modDir_led : (s.modDir i f).led = s.led := rfl
@[simp] theorem State.modDir_dev : (s.modDir i f).dev = s.dev := rfl
@[simp] theorem State.modDir_pending : (s.modDir i f).pending = s.pending := rfl
@[simp] theorem State.modDir_port (c : Fin 128) : (s.modDir i f).port c = s.port c := rfl
@[simp] theorem State.modDir_mb (c : Fin 128) : (s.modDir i f).mb c = s.mb c := rfl
@[simp] theorem State.modDir_st (c : Fin 128) : (s.modDir i f).st c = s.st c := rfl
@[simp] theorem State.modDir_ch (c : Fin 128) : (s.modDir i f).ch c = s.ch c := rfl
@[simp] theorem State.modDir_pl (c : Fin 128) : (s.modDir i f).pl c = s.pl c := rfl
@[simp] theorem State.modDir_wd (c : Fin 128) : (s.modDir i f).wd c = s.wd c := rfl
@[simp] theorem State.modDir_area (c : Fin 128) : (s.modDir i f).area c = s.area c := rfl
@[simp] theorem State.modDir_fp (c : Fin 64) : (s.modDir i f).fp c = s.fp c := rfl
@[simp] theorem State.modDir_polOf (c : Fin 128) : (s.modDir i f).polOf c = s.polOf c := rfl
@[simp] theorem State.modDir_profOf (c : Fin 128) : (s.modDir i f).profOf c = s.profOf c := rfl
@[simp] theorem State.modDir_core (c : Fin 4) : (s.modDir i f).core c = s.core c := rfl
@[simp] theorem State.modDir_ep (c : Fin 8) : (s.modDir i f).ep c = s.ep c := rfl
@[simp] theorem State.modDir_slot (c : Fin 256) : (s.modDir i f).slot c = s.slot c := rfl
@[simp] theorem State.modDir_ring (c : Mgr) : (s.modDir i f).ring c = s.ring c := rfl
@[simp] theorem State.modDir_view (c : Mgr) : (s.modDir i f).view c = s.view c := rfl

end

section

variable (s : State) (k : Fin 4) (f : Core → Core)

@[simp] theorem State.modCore_core : (s.modCore k f).core k = f (s.core k) := vget_vmod_self _ _ _
theorem State.modCore_core_ne {c : Fin 4} (h : c ≠ k) : (s.modCore k f).core c = s.core c := vget_vmod_ne _ _ h
@[simp] theorem State.modCore_now : (s.modCore k f).now = s.now := rfl
@[simp] theorem State.modCore_ports : (s.modCore k f).ports = s.ports := rfl
@[simp] theorem State.modCore_mbx : (s.modCore k f).mbx = s.mbx := rfl
@[simp] theorem State.modCore_stn : (s.modCore k f).stn = s.stn := rfl
@[simp] theorem State.modCore_ctl : (s.modCore k f).ctl = s.ctl := rfl
@[simp] theorem State.modCore_plt : (s.modCore k f).plt = s.plt := rfl
@[simp] theorem State.modCore_wdg : (s.modCore k f).wdg = s.wdg := rfl
@[simp] theorem State.modCore_areas : (s.modCore k f).areas = s.areas := rfl
@[simp] theorem State.modCore_fps : (s.modCore k f).fps = s.fps := rfl
@[simp] theorem State.modCore_pol : (s.modCore k f).pol = s.pol := rfl
@[simp] theorem State.modCore_polLedger : (s.modCore k f).polLedger = s.polLedger := rfl
@[simp] theorem State.modCore_polMin : (s.modCore k f).polMin = s.polMin := rfl
@[simp] theorem State.modCore_tamperPol : (s.modCore k f).tamperPol = s.tamperPol := rfl
@[simp] theorem State.modCore_prof : (s.modCore k f).prof = s.prof := rfl
@[simp] theorem State.modCore_profCfg : (s.modCore k f).profCfg = s.profCfg := rfl
@[simp] theorem State.modCore_dcfg : (s.modCore k f).dcfg = s.dcfg := rfl
@[simp] theorem State.modCore_twl : (s.modCore k f).twl = s.twl := rfl
@[simp] theorem State.modCore_poolProf : (s.modCore k f).poolProf = s.poolProf := rfl
@[simp] theorem State.modCore_cfgImg : (s.modCore k f).cfgImg = s.cfgImg := rfl
@[simp] theorem State.modCore_imm : (s.modCore k f).imm = s.imm := rfl
@[simp] theorem State.modCore_fca : (s.modCore k f).fca = s.fca := rfl
@[simp] theorem State.modCore_farm : (s.modCore k f).farm = s.farm := rfl
@[simp] theorem State.modCore_pool : (s.modCore k f).pool = s.pool := rfl
@[simp] theorem State.modCore_mins : (s.modCore k f).mins = s.mins := rfl
@[simp] theorem State.modCore_devfw : (s.modCore k f).devfw = s.devfw := rfl
@[simp] theorem State.modCore_plat : (s.modCore k f).plat = s.plat := rfl
@[simp] theorem State.modCore_mwd : (s.modCore k f).mwd = s.mwd := rfl
@[simp] theorem State.modCore_intw : (s.modCore k f).intw = s.intw := rfl
@[simp] theorem State.modCore_trace : (s.modCore k f).trace = s.trace := rfl
@[simp] theorem State.modCore_att : (s.modCore k f).att = s.att := rfl
@[simp] theorem State.modCore_spdm : (s.modCore k f).spdm = s.spdm := rfl
@[simp] theorem State.modCore_i3c : (s.modCore k f).i3c = s.i3c := rfl
@[simp] theorem State.modCore_rings : (s.modCore k f).rings = s.rings := rfl
@[simp] theorem State.modCore_arb : (s.modCore k f).arb = s.arb := rfl
@[simp] theorem State.modCore_views : (s.modCore k f).views = s.views := rfl
@[simp] theorem State.modCore_awaits : (s.modCore k f).awaits = s.awaits := rfl
@[simp] theorem State.modCore_hdrs : (s.modCore k f).hdrs = s.hdrs := rfl
@[simp] theorem State.modCore_hash : (s.modCore k f).hash = s.hash := rfl
@[simp] theorem State.modCore_drbg : (s.modCore k f).drbg = s.drbg := rfl
@[simp] theorem State.modCore_drawn : (s.modCore k f).drawn = s.drawn := rfl
@[simp] theorem State.modCore_keys : (s.modCore k f).keys = s.keys := rfl
@[simp] theorem State.modCore_tamper : (s.modCore k f).tamper = s.tamper := rfl
@[simp] theorem State.modCore_otp : (s.modCore k f).otp = s.otp := rfl
@[simp] theorem State.modCore_part : (s.modCore k f).part = s.part := rfl
@[simp] theorem State.modCore_power : (s.modCore k f).power = s.power := rfl
@[simp] theorem State.modCore_clk : (s.modCore k f).clk = s.clk := rfl
@[simp] theorem State.modCore_led : (s.modCore k f).led = s.led := rfl
@[simp] theorem State.modCore_dev : (s.modCore k f).dev = s.dev := rfl
@[simp] theorem State.modCore_pending : (s.modCore k f).pending = s.pending := rfl
@[simp] theorem State.modCore_port (c : Fin 128) : (s.modCore k f).port c = s.port c := rfl
@[simp] theorem State.modCore_mb (c : Fin 128) : (s.modCore k f).mb c = s.mb c := rfl
@[simp] theorem State.modCore_st (c : Fin 128) : (s.modCore k f).st c = s.st c := rfl
@[simp] theorem State.modCore_ch (c : Fin 128) : (s.modCore k f).ch c = s.ch c := rfl
@[simp] theorem State.modCore_pl (c : Fin 128) : (s.modCore k f).pl c = s.pl c := rfl
@[simp] theorem State.modCore_wd (c : Fin 128) : (s.modCore k f).wd c = s.wd c := rfl
@[simp] theorem State.modCore_area (c : Fin 128) : (s.modCore k f).area c = s.area c := rfl
@[simp] theorem State.modCore_fp (c : Fin 64) : (s.modCore k f).fp c = s.fp c := rfl
@[simp] theorem State.modCore_polOf (c : Fin 128) : (s.modCore k f).polOf c = s.polOf c := rfl
@[simp] theorem State.modCore_profOf (c : Fin 128) : (s.modCore k f).profOf c = s.profOf c := rfl
@[simp] theorem State.modCore_dirE (c : Fin 256) : (s.modCore k f).dirE c = s.dirE c := rfl
@[simp] theorem State.modCore_ep (c : Fin 8) : (s.modCore k f).ep c = s.ep c := rfl
@[simp] theorem State.modCore_slot (c : Fin 256) : (s.modCore k f).slot c = s.slot c := rfl
@[simp] theorem State.modCore_ring (c : Mgr) : (s.modCore k f).ring c = s.ring c := rfl
@[simp] theorem State.modCore_view (c : Mgr) : (s.modCore k f).view c = s.view c := rfl

end

section

variable (s : State) (k : Fin 16) (f : PoolChan → PoolChan)

@[simp] theorem State.modPool_now : (s.modPool k f).now = s.now := rfl
@[simp] theorem State.modPool_ports : (s.modPool k f).ports = s.ports := rfl
@[simp] theorem State.modPool_mbx : (s.modPool k f).mbx = s.mbx := rfl
@[simp] theorem State.modPool_stn : (s.modPool k f).stn = s.stn := rfl
@[simp] theorem State.modPool_ctl : (s.modPool k f).ctl = s.ctl := rfl
@[simp] theorem State.modPool_plt : (s.modPool k f).plt = s.plt := rfl
@[simp] theorem State.modPool_wdg : (s.modPool k f).wdg = s.wdg := rfl
@[simp] theorem State.modPool_areas : (s.modPool k f).areas = s.areas := rfl
@[simp] theorem State.modPool_fps : (s.modPool k f).fps = s.fps := rfl
@[simp] theorem State.modPool_pol : (s.modPool k f).pol = s.pol := rfl
@[simp] theorem State.modPool_polLedger : (s.modPool k f).polLedger = s.polLedger := rfl
@[simp] theorem State.modPool_polMin : (s.modPool k f).polMin = s.polMin := rfl
@[simp] theorem State.modPool_tamperPol : (s.modPool k f).tamperPol = s.tamperPol := rfl
@[simp] theorem State.modPool_prof : (s.modPool k f).prof = s.prof := rfl
@[simp] theorem State.modPool_profCfg : (s.modPool k f).profCfg = s.profCfg := rfl
@[simp] theorem State.modPool_dcfg : (s.modPool k f).dcfg = s.dcfg := rfl
@[simp] theorem State.modPool_twl : (s.modPool k f).twl = s.twl := rfl
@[simp] theorem State.modPool_poolProf : (s.modPool k f).poolProf = s.poolProf := rfl
@[simp] theorem State.modPool_cfgImg : (s.modPool k f).cfgImg = s.cfgImg := rfl
@[simp] theorem State.modPool_imm : (s.modPool k f).imm = s.imm := rfl
@[simp] theorem State.modPool_fca : (s.modPool k f).fca = s.fca := rfl
@[simp] theorem State.modPool_farm : (s.modPool k f).farm = s.farm := rfl
@[simp] theorem State.modPool_mins : (s.modPool k f).mins = s.mins := rfl
@[simp] theorem State.modPool_devfw : (s.modPool k f).devfw = s.devfw := rfl
@[simp] theorem State.modPool_plat : (s.modPool k f).plat = s.plat := rfl
@[simp] theorem State.modPool_mwd : (s.modPool k f).mwd = s.mwd := rfl
@[simp] theorem State.modPool_intw : (s.modPool k f).intw = s.intw := rfl
@[simp] theorem State.modPool_trace : (s.modPool k f).trace = s.trace := rfl
@[simp] theorem State.modPool_att : (s.modPool k f).att = s.att := rfl
@[simp] theorem State.modPool_spdm : (s.modPool k f).spdm = s.spdm := rfl
@[simp] theorem State.modPool_i3c : (s.modPool k f).i3c = s.i3c := rfl
@[simp] theorem State.modPool_rings : (s.modPool k f).rings = s.rings := rfl
@[simp] theorem State.modPool_arb : (s.modPool k f).arb = s.arb := rfl
@[simp] theorem State.modPool_views : (s.modPool k f).views = s.views := rfl
@[simp] theorem State.modPool_awaits : (s.modPool k f).awaits = s.awaits := rfl
@[simp] theorem State.modPool_hdrs : (s.modPool k f).hdrs = s.hdrs := rfl
@[simp] theorem State.modPool_burin : (s.modPool k f).burin = s.burin := rfl
@[simp] theorem State.modPool_hash : (s.modPool k f).hash = s.hash := rfl
@[simp] theorem State.modPool_drbg : (s.modPool k f).drbg = s.drbg := rfl
@[simp] theorem State.modPool_drawn : (s.modPool k f).drawn = s.drawn := rfl
@[simp] theorem State.modPool_keys : (s.modPool k f).keys = s.keys := rfl
@[simp] theorem State.modPool_tamper : (s.modPool k f).tamper = s.tamper := rfl
@[simp] theorem State.modPool_otp : (s.modPool k f).otp = s.otp := rfl
@[simp] theorem State.modPool_part : (s.modPool k f).part = s.part := rfl
@[simp] theorem State.modPool_power : (s.modPool k f).power = s.power := rfl
@[simp] theorem State.modPool_clk : (s.modPool k f).clk = s.clk := rfl
@[simp] theorem State.modPool_led : (s.modPool k f).led = s.led := rfl
@[simp] theorem State.modPool_dev : (s.modPool k f).dev = s.dev := rfl
@[simp] theorem State.modPool_pending : (s.modPool k f).pending = s.pending := rfl
@[simp] theorem State.modPool_port (c : Fin 128) : (s.modPool k f).port c = s.port c := rfl
@[simp] theorem State.modPool_mb (c : Fin 128) : (s.modPool k f).mb c = s.mb c := rfl
@[simp] theorem State.modPool_st (c : Fin 128) : (s.modPool k f).st c = s.st c := rfl
@[simp] theorem State.modPool_ch (c : Fin 128) : (s.modPool k f).ch c = s.ch c := rfl
@[simp] theorem State.modPool_pl (c : Fin 128) : (s.modPool k f).pl c = s.pl c := rfl
@[simp] theorem State.modPool_wd (c : Fin 128) : (s.modPool k f).wd c = s.wd c := rfl
@[simp] theorem State.modPool_area (c : Fin 128) : (s.modPool k f).area c = s.area c := rfl
@[simp] theorem State.modPool_fp (c : Fin 64) : (s.modPool k f).fp c = s.fp c := rfl
@[simp] theorem State.modPool_polOf (c : Fin 128) : (s.modPool k f).polOf c = s.polOf c := rfl
@[simp] theorem State.modPool_profOf (c : Fin 128) : (s.modPool k f).profOf c = s.profOf c := rfl
@[simp] theorem State.modPool_dirE (c : Fin 256) : (s.modPool k f).dirE c = s.dirE c := rfl
@[simp] theorem State.modPool_core (c : Fin 4) : (s.modPool k f).core c = s.core c := rfl
@[simp] theorem State.modPool_ep (c : Fin 8) : (s.modPool k f).ep c = s.ep c := rfl
@[simp] theorem State.modPool_slot (c : Fin 256) : (s.modPool k f).slot c = s.slot c := rfl
@[simp] theorem State.modPool_ring (c : Mgr) : (s.modPool k f).ring c = s.ring c := rfl
@[simp] theorem State.modPool_view (c : Mgr) : (s.modPool k f).view c = s.view c := rfl

end

section

variable (s : State) (e : Fin 8) (f : Endpoint → Endpoint)

@[simp] theorem State.modEp_ep : (s.modEp e f).ep e = f (s.ep e) := vget_vmod_self _ _ _
theorem State.modEp_ep_ne {c : Fin 8} (h : c ≠ e) : (s.modEp e f).ep c = s.ep c := vget_vmod_ne _ _ h
@[simp] theorem State.modEp_now : (s.modEp e f).now = s.now := rfl
@[simp] theorem State.modEp_ports : (s.modEp e f).ports = s.ports := rfl
@[simp] theorem State.modEp_mbx : (s.modEp e f).mbx = s.mbx := rfl
@[simp] theorem State.modEp_stn : (s.modEp e f).stn = s.stn := rfl
@[simp] theorem State.modEp_ctl : (s.modEp e f).ctl = s.ctl := rfl
@[simp] theorem State.modEp_plt : (s.modEp e f).plt = s.plt := rfl
@[simp] theorem State.modEp_wdg : (s.modEp e f).wdg = s.wdg := rfl
@[simp] theorem State.modEp_areas : (s.modEp e f).areas = s.areas := rfl
@[simp] theorem State.modEp_fps : (s.modEp e f).fps = s.fps := rfl
@[simp] theorem State.modEp_pol : (s.modEp e f).pol = s.pol := rfl
@[simp] theorem State.modEp_polLedger : (s.modEp e f).polLedger = s.polLedger := rfl
@[simp] theorem State.modEp_polMin : (s.modEp e f).polMin = s.polMin := rfl
@[simp] theorem State.modEp_tamperPol : (s.modEp e f).tamperPol = s.tamperPol := rfl
@[simp] theorem State.modEp_prof : (s.modEp e f).prof = s.prof := rfl
@[simp] theorem State.modEp_profCfg : (s.modEp e f).profCfg = s.profCfg := rfl
@[simp] theorem State.modEp_dcfg : (s.modEp e f).dcfg = s.dcfg := rfl
@[simp] theorem State.modEp_twl : (s.modEp e f).twl = s.twl := rfl
@[simp] theorem State.modEp_poolProf : (s.modEp e f).poolProf = s.poolProf := rfl
@[simp] theorem State.modEp_cfgImg : (s.modEp e f).cfgImg = s.cfgImg := rfl
@[simp] theorem State.modEp_imm : (s.modEp e f).imm = s.imm := rfl
@[simp] theorem State.modEp_fca : (s.modEp e f).fca = s.fca := rfl
@[simp] theorem State.modEp_farm : (s.modEp e f).farm = s.farm := rfl
@[simp] theorem State.modEp_pool : (s.modEp e f).pool = s.pool := rfl
@[simp] theorem State.modEp_mins : (s.modEp e f).mins = s.mins := rfl
@[simp] theorem State.modEp_devfw : (s.modEp e f).devfw = s.devfw := rfl
@[simp] theorem State.modEp_plat : (s.modEp e f).plat = s.plat := rfl
@[simp] theorem State.modEp_mwd : (s.modEp e f).mwd = s.mwd := rfl
@[simp] theorem State.modEp_intw : (s.modEp e f).intw = s.intw := rfl
@[simp] theorem State.modEp_trace : (s.modEp e f).trace = s.trace := rfl
@[simp] theorem State.modEp_att : (s.modEp e f).att = s.att := rfl
@[simp] theorem State.modEp_i3c : (s.modEp e f).i3c = s.i3c := rfl
@[simp] theorem State.modEp_rings : (s.modEp e f).rings = s.rings := rfl
@[simp] theorem State.modEp_arb : (s.modEp e f).arb = s.arb := rfl
@[simp] theorem State.modEp_views : (s.modEp e f).views = s.views := rfl
@[simp] theorem State.modEp_awaits : (s.modEp e f).awaits = s.awaits := rfl
@[simp] theorem State.modEp_hdrs : (s.modEp e f).hdrs = s.hdrs := rfl
@[simp] theorem State.modEp_burin : (s.modEp e f).burin = s.burin := rfl
@[simp] theorem State.modEp_hash : (s.modEp e f).hash = s.hash := rfl
@[simp] theorem State.modEp_drbg : (s.modEp e f).drbg = s.drbg := rfl
@[simp] theorem State.modEp_drawn : (s.modEp e f).drawn = s.drawn := rfl
@[simp] theorem State.modEp_keys : (s.modEp e f).keys = s.keys := rfl
@[simp] theorem State.modEp_tamper : (s.modEp e f).tamper = s.tamper := rfl
@[simp] theorem State.modEp_otp : (s.modEp e f).otp = s.otp := rfl
@[simp] theorem State.modEp_part : (s.modEp e f).part = s.part := rfl
@[simp] theorem State.modEp_power : (s.modEp e f).power = s.power := rfl
@[simp] theorem State.modEp_clk : (s.modEp e f).clk = s.clk := rfl
@[simp] theorem State.modEp_led : (s.modEp e f).led = s.led := rfl
@[simp] theorem State.modEp_dev : (s.modEp e f).dev = s.dev := rfl
@[simp] theorem State.modEp_pending : (s.modEp e f).pending = s.pending := rfl
@[simp] theorem State.modEp_port (c : Fin 128) : (s.modEp e f).port c = s.port c := rfl
@[simp] theorem State.modEp_mb (c : Fin 128) : (s.modEp e f).mb c = s.mb c := rfl
@[simp] theorem State.modEp_st (c : Fin 128) : (s.modEp e f).st c = s.st c := rfl
@[simp] theorem State.modEp_ch (c : Fin 128) : (s.modEp e f).ch c = s.ch c := rfl
@[simp] theorem State.modEp_pl (c : Fin 128) : (s.modEp e f).pl c = s.pl c := rfl
@[simp] theorem State.modEp_wd (c : Fin 128) : (s.modEp e f).wd c = s.wd c := rfl
@[simp] theorem State.modEp_area (c : Fin 128) : (s.modEp e f).area c = s.area c := rfl
@[simp] theorem State.modEp_fp (c : Fin 64) : (s.modEp e f).fp c = s.fp c := rfl
@[simp] theorem State.modEp_polOf (c : Fin 128) : (s.modEp e f).polOf c = s.polOf c := rfl
@[simp] theorem State.modEp_profOf (c : Fin 128) : (s.modEp e f).profOf c = s.profOf c := rfl
@[simp] theorem State.modEp_dirE (c : Fin 256) : (s.modEp e f).dirE c = s.dirE c := rfl
@[simp] theorem State.modEp_core (c : Fin 4) : (s.modEp e f).core c = s.core c := rfl
@[simp] theorem State.modEp_slot (c : Fin 256) : (s.modEp e f).slot c = s.slot c := rfl
@[simp] theorem State.modEp_ring (c : Mgr) : (s.modEp e f).ring c = s.ring c := rfl
@[simp] theorem State.modEp_view (c : Mgr) : (s.modEp e f).view c = s.view c := rfl

end

section

variable (s : State) (p : Fin 4) (f : I3cPort → I3cPort)

@[simp] theorem State.modI3c_now : (s.modI3c p f).now = s.now := rfl
@[simp] theorem State.modI3c_ports : (s.modI3c p f).ports = s.ports := rfl
@[simp] theorem State.modI3c_mbx : (s.modI3c p f).mbx = s.mbx := rfl
@[simp] theorem State.modI3c_stn : (s.modI3c p f).stn = s.stn := rfl
@[simp] theorem State.modI3c_ctl : (s.modI3c p f).ctl = s.ctl := rfl
@[simp] theorem State.modI3c_plt : (s.modI3c p f).plt = s.plt := rfl
@[simp] theorem State.modI3c_wdg : (s.modI3c p f).wdg = s.wdg := rfl
@[simp] theorem State.modI3c_areas : (s.modI3c p f).areas = s.areas := rfl
@[simp] theorem State.modI3c_fps : (s.modI3c p f).fps = s.fps := rfl
@[simp] theorem State.modI3c_pol : (s.modI3c p f).pol = s.pol := rfl
@[simp] theorem State.modI3c_polLedger : (s.modI3c p f).polLedger = s.polLedger := rfl
@[simp] theorem State.modI3c_polMin : (s.modI3c p f).polMin = s.polMin := rfl
@[simp] theorem State.modI3c_tamperPol : (s.modI3c p f).tamperPol = s.tamperPol := rfl
@[simp] theorem State.modI3c_prof : (s.modI3c p f).prof = s.prof := rfl
@[simp] theorem State.modI3c_profCfg : (s.modI3c p f).profCfg = s.profCfg := rfl
@[simp] theorem State.modI3c_dcfg : (s.modI3c p f).dcfg = s.dcfg := rfl
@[simp] theorem State.modI3c_twl : (s.modI3c p f).twl = s.twl := rfl
@[simp] theorem State.modI3c_poolProf : (s.modI3c p f).poolProf = s.poolProf := rfl
@[simp] theorem State.modI3c_cfgImg : (s.modI3c p f).cfgImg = s.cfgImg := rfl
@[simp] theorem State.modI3c_imm : (s.modI3c p f).imm = s.imm := rfl
@[simp] theorem State.modI3c_fca : (s.modI3c p f).fca = s.fca := rfl
@[simp] theorem State.modI3c_farm : (s.modI3c p f).farm = s.farm := rfl
@[simp] theorem State.modI3c_pool : (s.modI3c p f).pool = s.pool := rfl
@[simp] theorem State.modI3c_mins : (s.modI3c p f).mins = s.mins := rfl
@[simp] theorem State.modI3c_devfw : (s.modI3c p f).devfw = s.devfw := rfl
@[simp] theorem State.modI3c_plat : (s.modI3c p f).plat = s.plat := rfl
@[simp] theorem State.modI3c_mwd : (s.modI3c p f).mwd = s.mwd := rfl
@[simp] theorem State.modI3c_intw : (s.modI3c p f).intw = s.intw := rfl
@[simp] theorem State.modI3c_trace : (s.modI3c p f).trace = s.trace := rfl
@[simp] theorem State.modI3c_att : (s.modI3c p f).att = s.att := rfl
@[simp] theorem State.modI3c_spdm : (s.modI3c p f).spdm = s.spdm := rfl
@[simp] theorem State.modI3c_rings : (s.modI3c p f).rings = s.rings := rfl
@[simp] theorem State.modI3c_arb : (s.modI3c p f).arb = s.arb := rfl
@[simp] theorem State.modI3c_views : (s.modI3c p f).views = s.views := rfl
@[simp] theorem State.modI3c_awaits : (s.modI3c p f).awaits = s.awaits := rfl
@[simp] theorem State.modI3c_hdrs : (s.modI3c p f).hdrs = s.hdrs := rfl
@[simp] theorem State.modI3c_burin : (s.modI3c p f).burin = s.burin := rfl
@[simp] theorem State.modI3c_hash : (s.modI3c p f).hash = s.hash := rfl
@[simp] theorem State.modI3c_drbg : (s.modI3c p f).drbg = s.drbg := rfl
@[simp] theorem State.modI3c_drawn : (s.modI3c p f).drawn = s.drawn := rfl
@[simp] theorem State.modI3c_keys : (s.modI3c p f).keys = s.keys := rfl
@[simp] theorem State.modI3c_tamper : (s.modI3c p f).tamper = s.tamper := rfl
@[simp] theorem State.modI3c_otp : (s.modI3c p f).otp = s.otp := rfl
@[simp] theorem State.modI3c_part : (s.modI3c p f).part = s.part := rfl
@[simp] theorem State.modI3c_power : (s.modI3c p f).power = s.power := rfl
@[simp] theorem State.modI3c_clk : (s.modI3c p f).clk = s.clk := rfl
@[simp] theorem State.modI3c_led : (s.modI3c p f).led = s.led := rfl
@[simp] theorem State.modI3c_dev : (s.modI3c p f).dev = s.dev := rfl
@[simp] theorem State.modI3c_pending : (s.modI3c p f).pending = s.pending := rfl
@[simp] theorem State.modI3c_port (c : Fin 128) : (s.modI3c p f).port c = s.port c := rfl
@[simp] theorem State.modI3c_mb (c : Fin 128) : (s.modI3c p f).mb c = s.mb c := rfl
@[simp] theorem State.modI3c_st (c : Fin 128) : (s.modI3c p f).st c = s.st c := rfl
@[simp] theorem State.modI3c_ch (c : Fin 128) : (s.modI3c p f).ch c = s.ch c := rfl
@[simp] theorem State.modI3c_pl (c : Fin 128) : (s.modI3c p f).pl c = s.pl c := rfl
@[simp] theorem State.modI3c_wd (c : Fin 128) : (s.modI3c p f).wd c = s.wd c := rfl
@[simp] theorem State.modI3c_area (c : Fin 128) : (s.modI3c p f).area c = s.area c := rfl
@[simp] theorem State.modI3c_fp (c : Fin 64) : (s.modI3c p f).fp c = s.fp c := rfl
@[simp] theorem State.modI3c_polOf (c : Fin 128) : (s.modI3c p f).polOf c = s.polOf c := rfl
@[simp] theorem State.modI3c_profOf (c : Fin 128) : (s.modI3c p f).profOf c = s.profOf c := rfl
@[simp] theorem State.modI3c_dirE (c : Fin 256) : (s.modI3c p f).dirE c = s.dirE c := rfl
@[simp] theorem State.modI3c_core (c : Fin 4) : (s.modI3c p f).core c = s.core c := rfl
@[simp] theorem State.modI3c_ep (c : Fin 8) : (s.modI3c p f).ep c = s.ep c := rfl
@[simp] theorem State.modI3c_slot (c : Fin 256) : (s.modI3c p f).slot c = s.slot c := rfl
@[simp] theorem State.modI3c_ring (c : Mgr) : (s.modI3c p f).ring c = s.ring c := rfl
@[simp] theorem State.modI3c_view (c : Mgr) : (s.modI3c p f).view c = s.view c := rfl

end

section

variable (s : State) (k : Fin 256) (f : KeySlot → KeySlot)

@[simp] theorem State.modSlot_slot : (s.modSlot k f).slot k = f (s.slot k) := vget_vmod_self _ _ _
theorem State.modSlot_slot_ne {c : Fin 256} (h : c ≠ k) : (s.modSlot k f).slot c = s.slot c := vget_vmod_ne _ _ h
@[simp] theorem State.modSlot_now : (s.modSlot k f).now = s.now := rfl
@[simp] theorem State.modSlot_ports : (s.modSlot k f).ports = s.ports := rfl
@[simp] theorem State.modSlot_mbx : (s.modSlot k f).mbx = s.mbx := rfl
@[simp] theorem State.modSlot_stn : (s.modSlot k f).stn = s.stn := rfl
@[simp] theorem State.modSlot_ctl : (s.modSlot k f).ctl = s.ctl := rfl
@[simp] theorem State.modSlot_plt : (s.modSlot k f).plt = s.plt := rfl
@[simp] theorem State.modSlot_wdg : (s.modSlot k f).wdg = s.wdg := rfl
@[simp] theorem State.modSlot_areas : (s.modSlot k f).areas = s.areas := rfl
@[simp] theorem State.modSlot_fps : (s.modSlot k f).fps = s.fps := rfl
@[simp] theorem State.modSlot_pol : (s.modSlot k f).pol = s.pol := rfl
@[simp] theorem State.modSlot_polLedger : (s.modSlot k f).polLedger = s.polLedger := rfl
@[simp] theorem State.modSlot_polMin : (s.modSlot k f).polMin = s.polMin := rfl
@[simp] theorem State.modSlot_tamperPol : (s.modSlot k f).tamperPol = s.tamperPol := rfl
@[simp] theorem State.modSlot_prof : (s.modSlot k f).prof = s.prof := rfl
@[simp] theorem State.modSlot_profCfg : (s.modSlot k f).profCfg = s.profCfg := rfl
@[simp] theorem State.modSlot_dcfg : (s.modSlot k f).dcfg = s.dcfg := rfl
@[simp] theorem State.modSlot_twl : (s.modSlot k f).twl = s.twl := rfl
@[simp] theorem State.modSlot_poolProf : (s.modSlot k f).poolProf = s.poolProf := rfl
@[simp] theorem State.modSlot_cfgImg : (s.modSlot k f).cfgImg = s.cfgImg := rfl
@[simp] theorem State.modSlot_imm : (s.modSlot k f).imm = s.imm := rfl
@[simp] theorem State.modSlot_fca : (s.modSlot k f).fca = s.fca := rfl
@[simp] theorem State.modSlot_farm : (s.modSlot k f).farm = s.farm := rfl
@[simp] theorem State.modSlot_pool : (s.modSlot k f).pool = s.pool := rfl
@[simp] theorem State.modSlot_mins : (s.modSlot k f).mins = s.mins := rfl
@[simp] theorem State.modSlot_devfw : (s.modSlot k f).devfw = s.devfw := rfl
@[simp] theorem State.modSlot_plat : (s.modSlot k f).plat = s.plat := rfl
@[simp] theorem State.modSlot_mwd : (s.modSlot k f).mwd = s.mwd := rfl
@[simp] theorem State.modSlot_intw : (s.modSlot k f).intw = s.intw := rfl
@[simp] theorem State.modSlot_trace : (s.modSlot k f).trace = s.trace := rfl
@[simp] theorem State.modSlot_att : (s.modSlot k f).att = s.att := rfl
@[simp] theorem State.modSlot_spdm : (s.modSlot k f).spdm = s.spdm := rfl
@[simp] theorem State.modSlot_i3c : (s.modSlot k f).i3c = s.i3c := rfl
@[simp] theorem State.modSlot_rings : (s.modSlot k f).rings = s.rings := rfl
@[simp] theorem State.modSlot_arb : (s.modSlot k f).arb = s.arb := rfl
@[simp] theorem State.modSlot_views : (s.modSlot k f).views = s.views := rfl
@[simp] theorem State.modSlot_awaits : (s.modSlot k f).awaits = s.awaits := rfl
@[simp] theorem State.modSlot_hdrs : (s.modSlot k f).hdrs = s.hdrs := rfl
@[simp] theorem State.modSlot_burin : (s.modSlot k f).burin = s.burin := rfl
@[simp] theorem State.modSlot_hash : (s.modSlot k f).hash = s.hash := rfl
@[simp] theorem State.modSlot_drbg : (s.modSlot k f).drbg = s.drbg := rfl
@[simp] theorem State.modSlot_drawn : (s.modSlot k f).drawn = s.drawn := rfl
@[simp] theorem State.modSlot_tamper : (s.modSlot k f).tamper = s.tamper := rfl
@[simp] theorem State.modSlot_otp : (s.modSlot k f).otp = s.otp := rfl
@[simp] theorem State.modSlot_part : (s.modSlot k f).part = s.part := rfl
@[simp] theorem State.modSlot_power : (s.modSlot k f).power = s.power := rfl
@[simp] theorem State.modSlot_clk : (s.modSlot k f).clk = s.clk := rfl
@[simp] theorem State.modSlot_led : (s.modSlot k f).led = s.led := rfl
@[simp] theorem State.modSlot_dev : (s.modSlot k f).dev = s.dev := rfl
@[simp] theorem State.modSlot_pending : (s.modSlot k f).pending = s.pending := rfl
@[simp] theorem State.modSlot_port (c : Fin 128) : (s.modSlot k f).port c = s.port c := rfl
@[simp] theorem State.modSlot_mb (c : Fin 128) : (s.modSlot k f).mb c = s.mb c := rfl
@[simp] theorem State.modSlot_st (c : Fin 128) : (s.modSlot k f).st c = s.st c := rfl
@[simp] theorem State.modSlot_ch (c : Fin 128) : (s.modSlot k f).ch c = s.ch c := rfl
@[simp] theorem State.modSlot_pl (c : Fin 128) : (s.modSlot k f).pl c = s.pl c := rfl
@[simp] theorem State.modSlot_wd (c : Fin 128) : (s.modSlot k f).wd c = s.wd c := rfl
@[simp] theorem State.modSlot_area (c : Fin 128) : (s.modSlot k f).area c = s.area c := rfl
@[simp] theorem State.modSlot_fp (c : Fin 64) : (s.modSlot k f).fp c = s.fp c := rfl
@[simp] theorem State.modSlot_polOf (c : Fin 128) : (s.modSlot k f).polOf c = s.polOf c := rfl
@[simp] theorem State.modSlot_profOf (c : Fin 128) : (s.modSlot k f).profOf c = s.profOf c := rfl
@[simp] theorem State.modSlot_dirE (c : Fin 256) : (s.modSlot k f).dirE c = s.dirE c := rfl
@[simp] theorem State.modSlot_core (c : Fin 4) : (s.modSlot k f).core c = s.core c := rfl
@[simp] theorem State.modSlot_ep (c : Fin 8) : (s.modSlot k f).ep c = s.ep c := rfl
@[simp] theorem State.modSlot_ring (c : Mgr) : (s.modSlot k f).ring c = s.ring c := rfl
@[simp] theorem State.modSlot_view (c : Mgr) : (s.modSlot k f).view c = s.view c := rfl

end

end Sys2Proof.Machine
end

