-- ==== Sys2Proof/Laws/Fields.lean ====
section
/-! SUPPORT. Reading the state after a shared operation: every part that its frame does not name reads as before. All are rewriting
lemmas, read off the frames. -/

namespace Sys2Proof.Machine

section

variable (s : State) (code : Nat) (ch : Nat) (data : List Nat)

theorem State.raise_same : Frame [.rings] s ((s.raise code ch data)) := State.raise_frame (Frame.refl _ s) rfl
@[simp] theorem State.raise_now : ((s.raise code ch data)).now = s.now := (State.raise_same s code ch data) .now (by decide)
@[simp] theorem State.raise_ports : ((s.raise code ch data)).ports = s.ports := (State.raise_same s code ch data) .ports (by decide)
@[simp] theorem State.raise_mbx : ((s.raise code ch data)).mbx = s.mbx := (State.raise_same s code ch data) .mbx (by decide)
@[simp] theorem State.raise_stn : ((s.raise code ch data)).stn = s.stn := (State.raise_same s code ch data) .stn (by decide)
@[simp] theorem State.raise_ctl : ((s.raise code ch data)).ctl = s.ctl := (State.raise_same s code ch data) .ctl (by decide)
@[simp] theorem State.raise_plt : ((s.raise code ch data)).plt = s.plt := (State.raise_same s code ch data) .plt (by decide)
@[simp] theorem State.raise_wdg : ((s.raise code ch data)).wdg = s.wdg := (State.raise_same s code ch data) .wdg (by decide)
@[simp] theorem State.raise_areas : ((s.raise code ch data)).areas = s.areas := (State.raise_same s code ch data) .areas (by decide)
@[simp] theorem State.raise_fps : ((s.raise code ch data)).fps = s.fps := (State.raise_same s code ch data) .fps (by decide)
@[simp] theorem State.raise_pol : ((s.raise code ch data)).pol = s.pol := (State.raise_same s code ch data) .pol (by decide)
@[simp] theorem State.raise_polLedger : ((s.raise code ch data)).polLedger = s.polLedger := (State.raise_same s code ch data) .polLedger (by decide)
@[simp] theorem State.raise_polMin : ((s.raise code ch data)).polMin = s.polMin := (State.raise_same s code ch data) .polMin (by decide)
@[simp] theorem State.raise_tamperPol : ((s.raise code ch data)).tamperPol = s.tamperPol := (State.raise_same s code ch data) .tamperPol (by decide)
@[simp] theorem State.raise_prof : ((s.raise code ch data)).prof = s.prof := (State.raise_same s code ch data) .prof (by decide)
@[simp] theorem State.raise_profCfg : ((s.raise code ch data)).profCfg = s.profCfg := (State.raise_same s code ch data) .profCfg (by decide)
@[simp] theorem State.raise_dcfg : ((s.raise code ch data)).dcfg = s.dcfg := (State.raise_same s code ch data) .dcfg (by decide)
@[simp] theorem State.raise_twl : ((s.raise code ch data)).twl = s.twl := (State.raise_same s code ch data) .twl (by decide)
@[simp] theorem State.raise_poolProf : ((s.raise code ch data)).poolProf = s.poolProf := (State.raise_same s code ch data) .poolProf (by decide)
@[simp] theorem State.raise_cfgImg : ((s.raise code ch data)).cfgImg = s.cfgImg := (State.raise_same s code ch data) .cfgImg (by decide)
@[simp] theorem State.raise_imm : ((s.raise code ch data)).imm = s.imm := (State.raise_same s code ch data) .imm (by decide)
@[simp] theorem State.raise_fca : ((s.raise code ch data)).fca = s.fca := (State.raise_same s code ch data) .fca (by decide)
@[simp] theorem State.raise_farm : ((s.raise code ch data)).farm = s.farm := (State.raise_same s code ch data) .farm (by decide)
@[simp] theorem State.raise_pool : ((s.raise code ch data)).pool = s.pool := (State.raise_same s code ch data) .pool (by decide)
@[simp] theorem State.raise_mins : ((s.raise code ch data)).mins = s.mins := (State.raise_same s code ch data) .mins (by decide)
@[simp] theorem State.raise_devfw : ((s.raise code ch data)).devfw = s.devfw := (State.raise_same s code ch data) .devfw (by decide)
@[simp] theorem State.raise_plat : ((s.raise code ch data)).plat = s.plat := (State.raise_same s code ch data) .plat (by decide)
@[simp] theorem State.raise_mwd : ((s.raise code ch data)).mwd = s.mwd := (State.raise_same s code ch data) .mwd (by decide)
@[simp] theorem State.raise_intw : ((s.raise code ch data)).intw = s.intw := (State.raise_same s code ch data) .intw (by decide)
@[simp] theorem State.raise_trace : ((s.raise code ch data)).trace = s.trace := (State.raise_same s code ch data) .trace (by decide)
@[simp] theorem State.raise_att : ((s.raise code ch data)).att = s.att := (State.raise_same s code ch data) .att (by decide)
@[simp] theorem State.raise_spdm : ((s.raise code ch data)).spdm = s.spdm := (State.raise_same s code ch data) .spdm (by decide)
@[simp] theorem State.raise_i3c : ((s.raise code ch data)).i3c = s.i3c := (State.raise_same s code ch data) .i3c (by decide)
@[simp] theorem State.raise_arb : ((s.raise code ch data)).arb = s.arb := (State.raise_same s code ch data) .arb (by decide)
@[simp] theorem State.raise_views : ((s.raise code ch data)).views = s.views := (State.raise_same s code ch data) .views (by decide)
@[simp] theorem State.raise_awaits : ((s.raise code ch data)).awaits = s.awaits := (State.raise_same s code ch data) .awaits (by decide)
@[simp] theorem State.raise_hdrs : ((s.raise code ch data)).hdrs = s.hdrs := (State.raise_same s code ch data) .hdrs (by decide)
@[simp] theorem State.raise_burin : ((s.raise code ch data)).burin = s.burin := (State.raise_same s code ch data) .burin (by decide)
@[simp] theorem State.raise_hash : ((s.raise code ch data)).hash = s.hash := (State.raise_same s code ch data) .hash (by decide)
@[simp] theorem State.raise_drbg : ((s.raise code ch data)).drbg = s.drbg := (State.raise_same s code ch data) .drbg (by decide)
@[simp] theorem State.raise_drawn : ((s.raise code ch data)).drawn = s.drawn := (State.raise_same s code ch data) .drawn (by decide)
@[simp] theorem State.raise_keys : ((s.raise code ch data)).keys = s.keys := (State.raise_same s code ch data) .keys (by decide)
@[simp] theorem State.raise_tamper : ((s.raise code ch data)).tamper = s.tamper := (State.raise_same s code ch data) .tamper (by decide)
@[simp] theorem State.raise_otp : ((s.raise code ch data)).otp = s.otp := (State.raise_same s code ch data) .otp (by decide)
@[simp] theorem State.raise_part : ((s.raise code ch data)).part = s.part := (State.raise_same s code ch data) .part (by decide)
@[simp] theorem State.raise_power : ((s.raise code ch data)).power = s.power := (State.raise_same s code ch data) .power (by decide)
@[simp] theorem State.raise_clk : ((s.raise code ch data)).clk = s.clk := (State.raise_same s code ch data) .clk (by decide)
@[simp] theorem State.raise_led : ((s.raise code ch data)).led = s.led := (State.raise_same s code ch data) .led (by decide)
@[simp] theorem State.raise_dev : ((s.raise code ch data)).dev = s.dev := (State.raise_same s code ch data) .dev (by decide)
@[simp] theorem State.raise_pending : ((s.raise code ch data)).pending = s.pending := (State.raise_same s code ch data) .pending (by decide)
@[simp] theorem State.raise_port (c : Fin 128) : ((s.raise code ch data)).port c = s.port c := by simp [State.port]
@[simp] theorem State.raise_mb (c : Fin 128) : ((s.raise code ch data)).mb c = s.mb c := by simp [State.mb]
@[simp] theorem State.raise_st (c : Fin 128) : ((s.raise code ch data)).st c = s.st c := by simp [State.st]
@[simp] theorem State.raise_ch (c : Fin 128) : ((s.raise code ch data)).ch c = s.ch c := by simp [State.ch]
@[simp] theorem State.raise_pl (c : Fin 128) : ((s.raise code ch data)).pl c = s.pl c := by simp [State.pl]
@[simp] theorem State.raise_wd (c : Fin 128) : ((s.raise code ch data)).wd c = s.wd c := by simp [State.wd]
@[simp] theorem State.raise_area (c : Fin 128) : ((s.raise code ch data)).area c = s.area c := by simp [State.area]
@[simp] theorem State.raise_fp (c : Fin 64) : ((s.raise code ch data)).fp c = s.fp c := by simp [State.fp]
@[simp] theorem State.raise_polOf (c : Fin 128) : ((s.raise code ch data)).polOf c = s.polOf c := by simp [State.polOf]
@[simp] theorem State.raise_profOf (c : Fin 128) : ((s.raise code ch data)).profOf c = s.profOf c := by simp [State.profOf]
@[simp] theorem State.raise_dirE (c : Fin 256) : ((s.raise code ch data)).dirE c = s.dirE c := by simp [State.dirE]
@[simp] theorem State.raise_core (c : Fin 4) : ((s.raise code ch data)).core c = s.core c := by simp [State.core]
@[simp] theorem State.raise_ep (c : Fin 8) : ((s.raise code ch data)).ep c = s.ep c := by simp [State.ep]
@[simp] theorem State.raise_slot (c : Fin 256) : ((s.raise code ch data)).slot c = s.slot c := by simp [State.slot]
@[simp] theorem State.raise_view (c : Mgr) : ((s.raise code ch data)).view c = s.view c := by simp [State.view]

end

section

variable (s : State) (type : Nat) (ch : Nat) (info : List Nat)

theorem State.log_same : Frame [.trace] s ((s.log type ch info)) := State.log_frame (Frame.refl _ s) rfl
@[simp] theorem State.log_now : ((s.log type ch info)).now = s.now := (State.log_same s type ch info) .now (by decide)
@[simp] theorem State.log_ports : ((s.log type ch info)).ports = s.ports := (State.log_same s type ch info) .ports (by decide)
@[simp] theorem State.log_mbx : ((s.log type ch info)).mbx = s.mbx := (State.log_same s type ch info) .mbx (by decide)
@[simp] theorem State.log_stn : ((s.log type ch info)).stn = s.stn := (State.log_same s type ch info) .stn (by decide)
@[simp] theorem State.log_ctl : ((s.log type ch info)).ctl = s.ctl := (State.log_same s type ch info) .ctl (by decide)
@[simp] theorem State.log_plt : ((s.log type ch info)).plt = s.plt := (State.log_same s type ch info) .plt (by decide)
@[simp] theorem State.log_wdg : ((s.log type ch info)).wdg = s.wdg := (State.log_same s type ch info) .wdg (by decide)
@[simp] theorem State.log_areas : ((s.log type ch info)).areas = s.areas := (State.log_same s type ch info) .areas (by decide)
@[simp] theorem State.log_fps : ((s.log type ch info)).fps = s.fps := (State.log_same s type ch info) .fps (by decide)
@[simp] theorem State.log_pol : ((s.log type ch info)).pol = s.pol := (State.log_same s type ch info) .pol (by decide)
@[simp] theorem State.log_polLedger : ((s.log type ch info)).polLedger = s.polLedger := (State.log_same s type ch info) .polLedger (by decide)
@[simp] theorem State.log_polMin : ((s.log type ch info)).polMin = s.polMin := (State.log_same s type ch info) .polMin (by decide)
@[simp] theorem State.log_tamperPol : ((s.log type ch info)).tamperPol = s.tamperPol := (State.log_same s type ch info) .tamperPol (by decide)
@[simp] theorem State.log_prof : ((s.log type ch info)).prof = s.prof := (State.log_same s type ch info) .prof (by decide)
@[simp] theorem State.log_profCfg : ((s.log type ch info)).profCfg = s.profCfg := (State.log_same s type ch info) .profCfg (by decide)
@[simp] theorem State.log_dcfg : ((s.log type ch info)).dcfg = s.dcfg := (State.log_same s type ch info) .dcfg (by decide)
@[simp] theorem State.log_twl : ((s.log type ch info)).twl = s.twl := (State.log_same s type ch info) .twl (by decide)
@[simp] theorem State.log_poolProf : ((s.log type ch info)).poolProf = s.poolProf := (State.log_same s type ch info) .poolProf (by decide)
@[simp] theorem State.log_cfgImg : ((s.log type ch info)).cfgImg = s.cfgImg := (State.log_same s type ch info) .cfgImg (by decide)
@[simp] theorem State.log_imm : ((s.log type ch info)).imm = s.imm := (State.log_same s type ch info) .imm (by decide)
@[simp] theorem State.log_fca : ((s.log type ch info)).fca = s.fca := (State.log_same s type ch info) .fca (by decide)
@[simp] theorem State.log_farm : ((s.log type ch info)).farm = s.farm := (State.log_same s type ch info) .farm (by decide)
@[simp] theorem State.log_pool : ((s.log type ch info)).pool = s.pool := (State.log_same s type ch info) .pool (by decide)
@[simp] theorem State.log_mins : ((s.log type ch info)).mins = s.mins := (State.log_same s type ch info) .mins (by decide)
@[simp] theorem State.log_devfw : ((s.log type ch info)).devfw = s.devfw := (State.log_same s type ch info) .devfw (by decide)
@[simp] theorem State.log_plat : ((s.log type ch info)).plat = s.plat := (State.log_same s type ch info) .plat (by decide)
@[simp] theorem State.log_mwd : ((s.log type ch info)).mwd = s.mwd := (State.log_same s type ch info) .mwd (by decide)
@[simp] theorem State.log_intw : ((s.log type ch info)).intw = s.intw := (State.log_same s type ch info) .intw (by decide)
@[simp] theorem State.log_att : ((s.log type ch info)).att = s.att := (State.log_same s type ch info) .att (by decide)
@[simp] theorem State.log_spdm : ((s.log type ch info)).spdm = s.spdm := (State.log_same s type ch info) .spdm (by decide)
@[simp] theorem State.log_i3c : ((s.log type ch info)).i3c = s.i3c := (State.log_same s type ch info) .i3c (by decide)
@[simp] theorem State.log_rings : ((s.log type ch info)).rings = s.rings := (State.log_same s type ch info) .rings (by decide)
@[simp] theorem State.log_arb : ((s.log type ch info)).arb = s.arb := (State.log_same s type ch info) .arb (by decide)
@[simp] theorem State.log_views : ((s.log type ch info)).views = s.views := (State.log_same s type ch info) .views (by decide)
@[simp] theorem State.log_awaits : ((s.log type ch info)).awaits = s.awaits := (State.log_same s type ch info) .awaits (by decide)
@[simp] theorem State.log_hdrs : ((s.log type ch info)).hdrs = s.hdrs := (State.log_same s type ch info) .hdrs (by decide)
@[simp] theorem State.log_burin : ((s.log type ch info)).burin = s.burin := (State.log_same s type ch info) .burin (by decide)
@[simp] theorem State.log_hash : ((s.log type ch info)).hash = s.hash := (State.log_same s type ch info) .hash (by decide)
@[simp] theorem State.log_drbg : ((s.log type ch info)).drbg = s.drbg := (State.log_same s type ch info) .drbg (by decide)
@[simp] theorem State.log_drawn : ((s.log type ch info)).drawn = s.drawn := (State.log_same s type ch info) .drawn (by decide)
@[simp] theorem State.log_keys : ((s.log type ch info)).keys = s.keys := (State.log_same s type ch info) .keys (by decide)
@[simp] theorem State.log_tamper : ((s.log type ch info)).tamper = s.tamper := (State.log_same s type ch info) .tamper (by decide)
@[simp] theorem State.log_otp : ((s.log type ch info)).otp = s.otp := (State.log_same s type ch info) .otp (by decide)
@[simp] theorem State.log_part : ((s.log type ch info)).part = s.part := (State.log_same s type ch info) .part (by decide)
@[simp] theorem State.log_power : ((s.log type ch info)).power = s.power := (State.log_same s type ch info) .power (by decide)
@[simp] theorem State.log_clk : ((s.log type ch info)).clk = s.clk := (State.log_same s type ch info) .clk (by decide)
@[simp] theorem State.log_led : ((s.log type ch info)).led = s.led := (State.log_same s type ch info) .led (by decide)
@[simp] theorem State.log_dev : ((s.log type ch info)).dev = s.dev := (State.log_same s type ch info) .dev (by decide)
@[simp] theorem State.log_pending : ((s.log type ch info)).pending = s.pending := (State.log_same s type ch info) .pending (by decide)
@[simp] theorem State.log_port (c : Fin 128) : ((s.log type ch info)).port c = s.port c := by simp [State.port]
@[simp] theorem State.log_mb (c : Fin 128) : ((s.log type ch info)).mb c = s.mb c := by simp [State.mb]
@[simp] theorem State.log_st (c : Fin 128) : ((s.log type ch info)).st c = s.st c := by simp [State.st]
@[simp] theorem State.log_ch (c : Fin 128) : ((s.log type ch info)).ch c = s.ch c := by simp [State.ch]
@[simp] theorem State.log_pl (c : Fin 128) : ((s.log type ch info)).pl c = s.pl c := by simp [State.pl]
@[simp] theorem State.log_wd (c : Fin 128) : ((s.log type ch info)).wd c = s.wd c := by simp [State.wd]
@[simp] theorem State.log_area (c : Fin 128) : ((s.log type ch info)).area c = s.area c := by simp [State.area]
@[simp] theorem State.log_fp (c : Fin 64) : ((s.log type ch info)).fp c = s.fp c := by simp [State.fp]
@[simp] theorem State.log_polOf (c : Fin 128) : ((s.log type ch info)).polOf c = s.polOf c := by simp [State.polOf]
@[simp] theorem State.log_profOf (c : Fin 128) : ((s.log type ch info)).profOf c = s.profOf c := by simp [State.profOf]
@[simp] theorem State.log_dirE (c : Fin 256) : ((s.log type ch info)).dirE c = s.dirE c := by simp [State.dirE]
@[simp] theorem State.log_core (c : Fin 4) : ((s.log type ch info)).core c = s.core c := by simp [State.core]
@[simp] theorem State.log_ep (c : Fin 8) : ((s.log type ch info)).ep c = s.ep c := by simp [State.ep]
@[simp] theorem State.log_slot (c : Fin 256) : ((s.log type ch info)).slot c = s.slot c := by simp [State.slot]
@[simp] theorem State.log_ring (c : Mgr) : ((s.log type ch info)).ring c = s.ring c := by simp [State.ring]
@[simp] theorem State.log_view (c : Mgr) : ((s.log type ch info)).view c = s.view c := by simp [State.view]

end

section

variable (s : State) (type : Nat) (ch : Nat) (i : Nat) (info : List Nat) (v : Digest)

theorem State.logMeas_same : Frame [.trace] s ((s.logMeas type ch i info v)) := State.logMeas_frame (Frame.refl _ s) rfl
@[simp] theorem State.logMeas_now : ((s.logMeas type ch i info v)).now = s.now := (State.logMeas_same s type ch i info v) .now (by decide)
@[simp] theorem State.logMeas_ports : ((s.logMeas type ch i info v)).ports = s.ports := (State.logMeas_same s type ch i info v) .ports (by decide)
@[simp] theorem State.logMeas_mbx : ((s.logMeas type ch i info v)).mbx = s.mbx := (State.logMeas_same s type ch i info v) .mbx (by decide)
@[simp] theorem State.logMeas_stn : ((s.logMeas type ch i info v)).stn = s.stn := (State.logMeas_same s type ch i info v) .stn (by decide)
@[simp] theorem State.logMeas_ctl : ((s.logMeas type ch i info v)).ctl = s.ctl := (State.logMeas_same s type ch i info v) .ctl (by decide)
@[simp] theorem State.logMeas_plt : ((s.logMeas type ch i info v)).plt = s.plt := (State.logMeas_same s type ch i info v) .plt (by decide)
@[simp] theorem State.logMeas_wdg : ((s.logMeas type ch i info v)).wdg = s.wdg := (State.logMeas_same s type ch i info v) .wdg (by decide)
@[simp] theorem State.logMeas_areas : ((s.logMeas type ch i info v)).areas = s.areas := (State.logMeas_same s type ch i info v) .areas (by decide)
@[simp] theorem State.logMeas_fps : ((s.logMeas type ch i info v)).fps = s.fps := (State.logMeas_same s type ch i info v) .fps (by decide)
@[simp] theorem State.logMeas_pol : ((s.logMeas type ch i info v)).pol = s.pol := (State.logMeas_same s type ch i info v) .pol (by decide)
@[simp] theorem State.logMeas_polLedger : ((s.logMeas type ch i info v)).polLedger = s.polLedger := (State.logMeas_same s type ch i info v) .polLedger (by decide)
@[simp] theorem State.logMeas_polMin : ((s.logMeas type ch i info v)).polMin = s.polMin := (State.logMeas_same s type ch i info v) .polMin (by decide)
@[simp] theorem State.logMeas_tamperPol : ((s.logMeas type ch i info v)).tamperPol = s.tamperPol := (State.logMeas_same s type ch i info v) .tamperPol (by decide)
@[simp] theorem State.logMeas_prof : ((s.logMeas type ch i info v)).prof = s.prof := (State.logMeas_same s type ch i info v) .prof (by decide)
@[simp] theorem State.logMeas_profCfg : ((s.logMeas type ch i info v)).profCfg = s.profCfg := (State.logMeas_same s type ch i info v) .profCfg (by decide)
@[simp] theorem State.logMeas_dcfg : ((s.logMeas type ch i info v)).dcfg = s.dcfg := (State.logMeas_same s type ch i info v) .dcfg (by decide)
@[simp] theorem State.logMeas_twl : ((s.logMeas type ch i info v)).twl = s.twl := (State.logMeas_same s type ch i info v) .twl (by decide)
@[simp] theorem State.logMeas_poolProf : ((s.logMeas type ch i info v)).poolProf = s.poolProf := (State.logMeas_same s type ch i info v) .poolProf (by decide)
@[simp] theorem State.logMeas_cfgImg : ((s.logMeas type ch i info v)).cfgImg = s.cfgImg := (State.logMeas_same s type ch i info v) .cfgImg (by decide)
@[simp] theorem State.logMeas_imm : ((s.logMeas type ch i info v)).imm = s.imm := (State.logMeas_same s type ch i info v) .imm (by decide)
@[simp] theorem State.logMeas_fca : ((s.logMeas type ch i info v)).fca = s.fca := (State.logMeas_same s type ch i info v) .fca (by decide)
@[simp] theorem State.logMeas_farm : ((s.logMeas type ch i info v)).farm = s.farm := (State.logMeas_same s type ch i info v) .farm (by decide)
@[simp] theorem State.logMeas_pool : ((s.logMeas type ch i info v)).pool = s.pool := (State.logMeas_same s type ch i info v) .pool (by decide)
@[simp] theorem State.logMeas_mins : ((s.logMeas type ch i info v)).mins = s.mins := (State.logMeas_same s type ch i info v) .mins (by decide)
@[simp] theorem State.logMeas_devfw : ((s.logMeas type ch i info v)).devfw = s.devfw := (State.logMeas_same s type ch i info v) .devfw (by decide)
@[simp] theorem State.logMeas_plat : ((s.logMeas type ch i info v)).plat = s.plat := (State.logMeas_same s type ch i info v) .plat (by decide)
@[simp] theorem State.logMeas_mwd : ((s.logMeas type ch i info v)).mwd = s.mwd := (State.logMeas_same s type ch i info v) .mwd (by decide)
@[simp] theorem State.logMeas_intw : ((s.logMeas type ch i info v)).intw = s.intw := (State.logMeas_same s type ch i info v) .intw (by decide)
@[simp] theorem State.logMeas_att : ((s.logMeas type ch i info v)).att = s.att := (State.logMeas_same s type ch i info v) .att (by decide)
@[simp] theorem State.logMeas_spdm : ((s.logMeas type ch i info v)).spdm = s.spdm := (State.logMeas_same s type ch i info v) .spdm (by decide)
@[simp] theorem State.logMeas_i3c : ((s.logMeas type ch i info v)).i3c = s.i3c := (State.logMeas_same s type ch i info v) .i3c (by decide)
@[simp] theorem State.logMeas_rings : ((s.logMeas type ch i info v)).rings = s.rings := (State.logMeas_same s type ch i info v) .rings (by decide)
@[simp] theorem State.logMeas_arb : ((s.logMeas type ch i info v)).arb = s.arb := (State.logMeas_same s type ch i info v) .arb (by decide)
@[simp] theorem State.logMeas_views : ((s.logMeas type ch i info v)).views = s.views := (State.logMeas_same s type ch i info v) .views (by decide)
@[simp] theorem State.logMeas_awaits : ((s.logMeas type ch i info v)).awaits = s.awaits := (State.logMeas_same s type ch i info v) .awaits (by decide)
@[simp] theorem State.logMeas_hdrs : ((s.logMeas type ch i info v)).hdrs = s.hdrs := (State.logMeas_same s type ch i info v) .hdrs (by decide)
@[simp] theorem State.logMeas_burin : ((s.logMeas type ch i info v)).burin = s.burin := (State.logMeas_same s type ch i info v) .burin (by decide)
@[simp] theorem State.logMeas_hash : ((s.logMeas type ch i info v)).hash = s.hash := (State.logMeas_same s type ch i info v) .hash (by decide)
@[simp] theorem State.logMeas_drbg : ((s.logMeas type ch i info v)).drbg = s.drbg := (State.logMeas_same s type ch i info v) .drbg (by decide)
@[simp] theorem State.logMeas_drawn : ((s.logMeas type ch i info v)).drawn = s.drawn := (State.logMeas_same s type ch i info v) .drawn (by decide)
@[simp] theorem State.logMeas_keys : ((s.logMeas type ch i info v)).keys = s.keys := (State.logMeas_same s type ch i info v) .keys (by decide)
@[simp] theorem State.logMeas_tamper : ((s.logMeas type ch i info v)).tamper = s.tamper := (State.logMeas_same s type ch i info v) .tamper (by decide)
@[simp] theorem State.logMeas_otp : ((s.logMeas type ch i info v)).otp = s.otp := (State.logMeas_same s type ch i info v) .otp (by decide)
@[simp] theorem State.logMeas_part : ((s.logMeas type ch i info v)).part = s.part := (State.logMeas_same s type ch i info v) .part (by decide)
@[simp] theorem State.logMeas_power : ((s.logMeas type ch i info v)).power = s.power := (State.logMeas_same s type ch i info v) .power (by decide)
@[simp] theorem State.logMeas_clk : ((s.logMeas type ch i info v)).clk = s.clk := (State.logMeas_same s type ch i info v) .clk (by decide)
@[simp] theorem State.logMeas_led : ((s.logMeas type ch i info v)).led = s.led := (State.logMeas_same s type ch i info v) .led (by decide)
@[simp] theorem State.logMeas_dev : ((s.logMeas type ch i info v)).dev = s.dev := (State.logMeas_same s type ch i info v) .dev (by decide)
@[simp] theorem State.logMeas_pending : ((s.logMeas type ch i info v)).pending = s.pending := (State.logMeas_same s type ch i info v) .pending (by decide)
@[simp] theorem State.logMeas_port (c : Fin 128) : ((s.logMeas type ch i info v)).port c = s.port c := by simp [State.port]
@[simp] theorem State.logMeas_mb (c : Fin 128) : ((s.logMeas type ch i info v)).mb c = s.mb c := by simp [State.mb]
@[simp] theorem State.logMeas_st (c : Fin 128) : ((s.logMeas type ch i info v)).st c = s.st c := by simp [State.st]
@[simp] theorem State.logMeas_ch (c : Fin 128) : ((s.logMeas type ch i info v)).ch c = s.ch c := by simp [State.ch]
@[simp] theorem State.logMeas_pl (c : Fin 128) : ((s.logMeas type ch i info v)).pl c = s.pl c := by simp [State.pl]
@[simp] theorem State.logMeas_wd (c : Fin 128) : ((s.logMeas type ch i info v)).wd c = s.wd c := by simp [State.wd]
@[simp] theorem State.logMeas_area (c : Fin 128) : ((s.logMeas type ch i info v)).area c = s.area c := by simp [State.area]
@[simp] theorem State.logMeas_fp (c : Fin 64) : ((s.logMeas type ch i info v)).fp c = s.fp c := by simp [State.fp]
@[simp] theorem State.logMeas_polOf (c : Fin 128) : ((s.logMeas type ch i info v)).polOf c = s.polOf c := by simp [State.polOf]
@[simp] theorem State.logMeas_profOf (c : Fin 128) : ((s.logMeas type ch i info v)).profOf c = s.profOf c := by simp [State.profOf]
@[simp] theorem State.logMeas_dirE (c : Fin 256) : ((s.logMeas type ch i info v)).dirE c = s.dirE c := by simp [State.dirE]
@[simp] theorem State.logMeas_core (c : Fin 4) : ((s.logMeas type ch i info v)).core c = s.core c := by simp [State.core]
@[simp] theorem State.logMeas_ep (c : Fin 8) : ((s.logMeas type ch i info v)).ep c = s.ep c := by simp [State.ep]
@[simp] theorem State.logMeas_slot (c : Fin 256) : ((s.logMeas type ch i info v)).slot c = s.slot c := by simp [State.slot]
@[simp] theorem State.logMeas_ring (c : Mgr) : ((s.logMeas type ch i info v)).ring c = s.ring c := by simp [State.ring]
@[simp] theorem State.logMeas_view (c : Mgr) : ((s.logMeas type ch i info v)).view c = s.view c := by simp [State.view]

end

section

variable (s : State) (type : Nat) (ch : Nat)

theorem State.summary_same : Frame [.trace] s ((s.summary type ch)) := State.summary_frame (Frame.refl _ s) rfl
@[simp] theorem State.summary_now : ((s.summary type ch)).now = s.now := (State.summary_same s type ch) .now (by decide)
@[simp] theorem State.summary_ports : ((s.summary type ch)).ports = s.ports := (State.summary_same s type ch) .ports (by decide)
@[simp] theorem State.summary_mbx : ((s.summary type ch)).mbx = s.mbx := (State.summary_same s type ch) .mbx (by decide)
@[simp] theorem State.summary_stn : ((s.summary type ch)).stn = s.stn := (State.summary_same s type ch) .stn (by decide)
@[simp] theorem State.summary_ctl : ((s.summary type ch)).ctl = s.ctl := (State.summary_same s type ch) .ctl (by decide)
@[simp] theorem State.summary_plt : ((s.summary type ch)).plt = s.plt := (State.summary_same s type ch) .plt (by decide)
@[simp] theorem State.summary_wdg : ((s.summary type ch)).wdg = s.wdg := (State.summary_same s type ch) .wdg (by decide)
@[simp] theorem State.summary_areas : ((s.summary type ch)).areas = s.areas := (State.summary_same s type ch) .areas (by decide)
@[simp] theorem State.summary_fps : ((s.summary type ch)).fps = s.fps := (State.summary_same s type ch) .fps (by decide)
@[simp] theorem State.summary_pol : ((s.summary type ch)).pol = s.pol := (State.summary_same s type ch) .pol (by decide)
@[simp] theorem State.summary_polLedger : ((s.summary type ch)).polLedger = s.polLedger := (State.summary_same s type ch) .polLedger (by decide)
@[simp] theorem State.summary_polMin : ((s.summary type ch)).polMin = s.polMin := (State.summary_same s type ch) .polMin (by decide)
@[simp] theorem State.summary_tamperPol : ((s.summary type ch)).tamperPol = s.tamperPol := (State.summary_same s type ch) .tamperPol (by decide)
@[simp] theorem State.summary_prof : ((s.summary type ch)).prof = s.prof := (State.summary_same s type ch) .prof (by decide)
@[simp] theorem State.summary_profCfg : ((s.summary type ch)).profCfg = s.profCfg := (State.summary_same s type ch) .profCfg (by decide)
@[simp] theorem State.summary_dcfg : ((s.summary type ch)).dcfg = s.dcfg := (State.summary_same s type ch) .dcfg (by decide)
@[simp] theorem State.summary_twl : ((s.summary type ch)).twl = s.twl := (State.summary_same s type ch) .twl (by decide)
@[simp] theorem State.summary_poolProf : ((s.summary type ch)).poolProf = s.poolProf := (State.summary_same s type ch) .poolProf (by decide)
@[simp] theorem State.summary_cfgImg : ((s.summary type ch)).cfgImg = s.cfgImg := (State.summary_same s type ch) .cfgImg (by decide)
@[simp] theorem State.summary_imm : ((s.summary type ch)).imm = s.imm := (State.summary_same s type ch) .imm (by decide)
@[simp] theorem State.summary_fca : ((s.summary type ch)).fca = s.fca := (State.summary_same s type ch) .fca (by decide)
@[simp] theorem State.summary_farm : ((s.summary type ch)).farm = s.farm := (State.summary_same s type ch) .farm (by decide)
@[simp] theorem State.summary_pool : ((s.summary type ch)).pool = s.pool := (State.summary_same s type ch) .pool (by decide)
@[simp] theorem State.summary_mins : ((s.summary type ch)).mins = s.mins := (State.summary_same s type ch) .mins (by decide)
@[simp] theorem State.summary_devfw : ((s.summary type ch)).devfw = s.devfw := (State.summary_same s type ch) .devfw (by decide)
@[simp] theorem State.summary_plat : ((s.summary type ch)).plat = s.plat := (State.summary_same s type ch) .plat (by decide)
@[simp] theorem State.summary_mwd : ((s.summary type ch)).mwd = s.mwd := (State.summary_same s type ch) .mwd (by decide)
@[simp] theorem State.summary_intw : ((s.summary type ch)).intw = s.intw := (State.summary_same s type ch) .intw (by decide)
@[simp] theorem State.summary_att : ((s.summary type ch)).att = s.att := (State.summary_same s type ch) .att (by decide)
@[simp] theorem State.summary_spdm : ((s.summary type ch)).spdm = s.spdm := (State.summary_same s type ch) .spdm (by decide)
@[simp] theorem State.summary_i3c : ((s.summary type ch)).i3c = s.i3c := (State.summary_same s type ch) .i3c (by decide)
@[simp] theorem State.summary_rings : ((s.summary type ch)).rings = s.rings := (State.summary_same s type ch) .rings (by decide)
@[simp] theorem State.summary_arb : ((s.summary type ch)).arb = s.arb := (State.summary_same s type ch) .arb (by decide)
@[simp] theorem State.summary_views : ((s.summary type ch)).views = s.views := (State.summary_same s type ch) .views (by decide)
@[simp] theorem State.summary_awaits : ((s.summary type ch)).awaits = s.awaits := (State.summary_same s type ch) .awaits (by decide)
@[simp] theorem State.summary_hdrs : ((s.summary type ch)).hdrs = s.hdrs := (State.summary_same s type ch) .hdrs (by decide)
@[simp] theorem State.summary_burin : ((s.summary type ch)).burin = s.burin := (State.summary_same s type ch) .burin (by decide)
@[simp] theorem State.summary_hash : ((s.summary type ch)).hash = s.hash := (State.summary_same s type ch) .hash (by decide)
@[simp] theorem State.summary_drbg : ((s.summary type ch)).drbg = s.drbg := (State.summary_same s type ch) .drbg (by decide)
@[simp] theorem State.summary_drawn : ((s.summary type ch)).drawn = s.drawn := (State.summary_same s type ch) .drawn (by decide)
@[simp] theorem State.summary_keys : ((s.summary type ch)).keys = s.keys := (State.summary_same s type ch) .keys (by decide)
@[simp] theorem State.summary_tamper : ((s.summary type ch)).tamper = s.tamper := (State.summary_same s type ch) .tamper (by decide)
@[simp] theorem State.summary_otp : ((s.summary type ch)).otp = s.otp := (State.summary_same s type ch) .otp (by decide)
@[simp] theorem State.summary_part : ((s.summary type ch)).part = s.part := (State.summary_same s type ch) .part (by decide)
@[simp] theorem State.summary_power : ((s.summary type ch)).power = s.power := (State.summary_same s type ch) .power (by decide)
@[simp] theorem State.summary_clk : ((s.summary type ch)).clk = s.clk := (State.summary_same s type ch) .clk (by decide)
@[simp] theorem State.summary_led : ((s.summary type ch)).led = s.led := (State.summary_same s type ch) .led (by decide)
@[simp] theorem State.summary_dev : ((s.summary type ch)).dev = s.dev := (State.summary_same s type ch) .dev (by decide)
@[simp] theorem State.summary_pending : ((s.summary type ch)).pending = s.pending := (State.summary_same s type ch) .pending (by decide)
@[simp] theorem State.summary_port (c : Fin 128) : ((s.summary type ch)).port c = s.port c := by simp [State.port]
@[simp] theorem State.summary_mb (c : Fin 128) : ((s.summary type ch)).mb c = s.mb c := by simp [State.mb]
@[simp] theorem State.summary_st (c : Fin 128) : ((s.summary type ch)).st c = s.st c := by simp [State.st]
@[simp] theorem State.summary_ch (c : Fin 128) : ((s.summary type ch)).ch c = s.ch c := by simp [State.ch]
@[simp] theorem State.summary_pl (c : Fin 128) : ((s.summary type ch)).pl c = s.pl c := by simp [State.pl]
@[simp] theorem State.summary_wd (c : Fin 128) : ((s.summary type ch)).wd c = s.wd c := by simp [State.wd]
@[simp] theorem State.summary_area (c : Fin 128) : ((s.summary type ch)).area c = s.area c := by simp [State.area]
@[simp] theorem State.summary_fp (c : Fin 64) : ((s.summary type ch)).fp c = s.fp c := by simp [State.fp]
@[simp] theorem State.summary_polOf (c : Fin 128) : ((s.summary type ch)).polOf c = s.polOf c := by simp [State.polOf]
@[simp] theorem State.summary_profOf (c : Fin 128) : ((s.summary type ch)).profOf c = s.profOf c := by simp [State.profOf]
@[simp] theorem State.summary_dirE (c : Fin 256) : ((s.summary type ch)).dirE c = s.dirE c := by simp [State.dirE]
@[simp] theorem State.summary_core (c : Fin 4) : ((s.summary type ch)).core c = s.core c := by simp [State.core]
@[simp] theorem State.summary_ep (c : Fin 8) : ((s.summary type ch)).ep c = s.ep c := by simp [State.ep]
@[simp] theorem State.summary_slot (c : Fin 256) : ((s.summary type ch)).slot c = s.slot c := by simp [State.slot]
@[simp] theorem State.summary_ring (c : Mgr) : ((s.summary type ch)).ring c = s.ring c := by simp [State.ring]
@[simp] theorem State.summary_view (c : Mgr) : ((s.summary type ch)).view c = s.view c := by simp [State.view]

end

section

variable (s : State)

theorem State.committed_same : Frame [.led] s (s.committed) := State.committed_frame (Frame.refl _ s) rfl
@[simp] theorem State.committed_now : (s.committed).now = s.now := (State.committed_same s) .now (by decide)
@[simp] theorem State.committed_ports : (s.committed).ports = s.ports := (State.committed_same s) .ports (by decide)
@[simp] theorem State.committed_mbx : (s.committed).mbx = s.mbx := (State.committed_same s) .mbx (by decide)
@[simp] theorem State.committed_stn : (s.committed).stn = s.stn := (State.committed_same s) .stn (by decide)
@[simp] theorem State.committed_ctl : (s.committed).ctl = s.ctl := (State.committed_same s) .ctl (by decide)
@[simp] theorem State.committed_plt : (s.committed).plt = s.plt := (State.committed_same s) .plt (by decide)
@[simp] theorem State.committed_wdg : (s.committed).wdg = s.wdg := (State.committed_same s) .wdg (by decide)
@[simp] theorem State.committed_areas : (s.committed).areas = s.areas := (State.committed_same s) .areas (by decide)
@[simp] theorem State.committed_fps : (s.committed).fps = s.fps := (State.committed_same s) .fps (by decide)
@[simp] theorem State.committed_pol : (s.committed).pol = s.pol := (State.committed_same s) .pol (by decide)
@[simp] theorem State.committed_polLedger : (s.committed).polLedger = s.polLedger := (State.committed_same s) .polLedger (by decide)
@[simp] theorem State.committed_polMin : (s.committed).polMin = s.polMin := (State.committed_same s) .polMin (by decide)
@[simp] theorem State.committed_tamperPol : (s.committed).tamperPol = s.tamperPol := (State.committed_same s) .tamperPol (by decide)
@[simp] theorem State.committed_prof : (s.committed).prof = s.prof := (State.committed_same s) .prof (by decide)
@[simp] theorem State.committed_profCfg : (s.committed).profCfg = s.profCfg := (State.committed_same s) .profCfg (by decide)
@[simp] theorem State.committed_dcfg : (s.committed).dcfg = s.dcfg := (State.committed_same s) .dcfg (by decide)
@[simp] theorem State.committed_twl : (s.committed).twl = s.twl := (State.committed_same s) .twl (by decide)
@[simp] theorem State.committed_poolProf : (s.committed).poolProf = s.poolProf := (State.committed_same s) .poolProf (by decide)
@[simp] theorem State.committed_cfgImg : (s.committed).cfgImg = s.cfgImg := (State.committed_same s) .cfgImg (by decide)
@[simp] theorem State.committed_imm : (s.committed).imm = s.imm := (State.committed_same s) .imm (by decide)
@[simp] theorem State.committed_fca : (s.committed).fca = s.fca := (State.committed_same s) .fca (by decide)
@[simp] theorem State.committed_farm : (s.committed).farm = s.farm := (State.committed_same s) .farm (by decide)
@[simp] theorem State.committed_pool : (s.committed).pool = s.pool := (State.committed_same s) .pool (by decide)
@[simp] theorem State.committed_mins : (s.committed).mins = s.mins := (State.committed_same s) .mins (by decide)
@[simp] theorem State.committed_devfw : (s.committed).devfw = s.devfw := (State.committed_same s) .devfw (by decide)
@[simp] theorem State.committed_plat : (s.committed).plat = s.plat := (State.committed_same s) .plat (by decide)
@[simp] theorem State.committed_mwd : (s.committed).mwd = s.mwd := (State.committed_same s) .mwd (by decide)
@[simp] theorem State.committed_intw : (s.committed).intw = s.intw := (State.committed_same s) .intw (by decide)
@[simp] theorem State.committed_trace : (s.committed).trace = s.trace := (State.committed_same s) .trace (by decide)
@[simp] theorem State.committed_att : (s.committed).att = s.att := (State.committed_same s) .att (by decide)
@[simp] theorem State.committed_spdm : (s.committed).spdm = s.spdm := (State.committed_same s) .spdm (by decide)
@[simp] theorem State.committed_i3c : (s.committed).i3c = s.i3c := (State.committed_same s) .i3c (by decide)
@[simp] theorem State.committed_rings : (s.committed).rings = s.rings := (State.committed_same s) .rings (by decide)
@[simp] theorem State.committed_arb : (s.committed).arb = s.arb := (State.committed_same s) .arb (by decide)
@[simp] theorem State.committed_views : (s.committed).views = s.views := (State.committed_same s) .views (by decide)
@[simp] theorem State.committed_awaits : (s.committed).awaits = s.awaits := (State.committed_same s) .awaits (by decide)
@[simp] theorem State.committed_hdrs : (s.committed).hdrs = s.hdrs := (State.committed_same s) .hdrs (by decide)
@[simp] theorem State.committed_burin : (s.committed).burin = s.burin := (State.committed_same s) .burin (by decide)
@[simp] theorem State.committed_hash : (s.committed).hash = s.hash := (State.committed_same s) .hash (by decide)
@[simp] theorem State.committed_drbg : (s.committed).drbg = s.drbg := (State.committed_same s) .drbg (by decide)
@[simp] theorem State.committed_drawn : (s.committed).drawn = s.drawn := (State.committed_same s) .drawn (by decide)
@[simp] theorem State.committed_keys : (s.committed).keys = s.keys := (State.committed_same s) .keys (by decide)
@[simp] theorem State.committed_tamper : (s.committed).tamper = s.tamper := (State.committed_same s) .tamper (by decide)
@[simp] theorem State.committed_otp : (s.committed).otp = s.otp := (State.committed_same s) .otp (by decide)
@[simp] theorem State.committed_part : (s.committed).part = s.part := (State.committed_same s) .part (by decide)
@[simp] theorem State.committed_power : (s.committed).power = s.power := (State.committed_same s) .power (by decide)
@[simp] theorem State.committed_clk : (s.committed).clk = s.clk := (State.committed_same s) .clk (by decide)
@[simp] theorem State.committed_dev : (s.committed).dev = s.dev := (State.committed_same s) .dev (by decide)
@[simp] theorem State.committed_pending : (s.committed).pending = s.pending := (State.committed_same s) .pending (by decide)
@[simp] theorem State.committed_port (c : Fin 128) : (s.committed).port c = s.port c := by simp [State.port]
@[simp] theorem State.committed_mb (c : Fin 128) : (s.committed).mb c = s.mb c := by simp [State.mb]
@[simp] theorem State.committed_st (c : Fin 128) : (s.committed).st c = s.st c := by simp [State.st]
@[simp] theorem State.committed_ch (c : Fin 128) : (s.committed).ch c = s.ch c := by simp [State.ch]
@[simp] theorem State.committed_pl (c : Fin 128) : (s.committed).pl c = s.pl c := by simp [State.pl]
@[simp] theorem State.committed_wd (c : Fin 128) : (s.committed).wd c = s.wd c := by simp [State.wd]
@[simp] theorem State.committed_area (c : Fin 128) : (s.committed).area c = s.area c := by simp [State.area]
@[simp] theorem State.committed_fp (c : Fin 64) : (s.committed).fp c = s.fp c := by simp [State.fp]
@[simp] theorem State.committed_polOf (c : Fin 128) : (s.committed).polOf c = s.polOf c := by simp [State.polOf]
@[simp] theorem State.committed_profOf (c : Fin 128) : (s.committed).profOf c = s.profOf c := by simp [State.profOf]
@[simp] theorem State.committed_dirE (c : Fin 256) : (s.committed).dirE c = s.dirE c := by simp [State.dirE]
@[simp] theorem State.committed_core (c : Fin 4) : (s.committed).core c = s.core c := by simp [State.core]
@[simp] theorem State.committed_ep (c : Fin 8) : (s.committed).ep c = s.ep c := by simp [State.ep]
@[simp] theorem State.committed_slot (c : Fin 256) : (s.committed).slot c = s.slot c := by simp [State.slot]
@[simp] theorem State.committed_ring (c : Mgr) : (s.committed).ring c = s.ring c := by simp [State.ring]
@[simp] theorem State.committed_view (c : Mgr) : (s.committed).view c = s.view c := by simp [State.view]

end

section

variable (s : State) (t1 : Nat)

theorem State.until_same : Frame [.now] s ((s.until t1)) := State.until_frame (Frame.refl _ s) rfl
@[simp] theorem State.until_ports : ((s.until t1)).ports = s.ports := (State.until_same s t1) .ports (by decide)
@[simp] theorem State.until_mbx : ((s.until t1)).mbx = s.mbx := (State.until_same s t1) .mbx (by decide)
@[simp] theorem State.until_stn : ((s.until t1)).stn = s.stn := (State.until_same s t1) .stn (by decide)
@[simp] theorem State.until_ctl : ((s.until t1)).ctl = s.ctl := (State.until_same s t1) .ctl (by decide)
@[simp] theorem State.until_plt : ((s.until t1)).plt = s.plt := (State.until_same s t1) .plt (by decide)
@[simp] theorem State.until_wdg : ((s.until t1)).wdg = s.wdg := (State.until_same s t1) .wdg (by decide)
@[simp] theorem State.until_areas : ((s.until t1)).areas = s.areas := (State.until_same s t1) .areas (by decide)
@[simp] theorem State.until_fps : ((s.until t1)).fps = s.fps := (State.until_same s t1) .fps (by decide)
@[simp] theorem State.until_pol : ((s.until t1)).pol = s.pol := (State.until_same s t1) .pol (by decide)
@[simp] theorem State.until_polLedger : ((s.until t1)).polLedger = s.polLedger := (State.until_same s t1) .polLedger (by decide)
@[simp] theorem State.until_polMin : ((s.until t1)).polMin = s.polMin := (State.until_same s t1) .polMin (by decide)
@[simp] theorem State.until_tamperPol : ((s.until t1)).tamperPol = s.tamperPol := (State.until_same s t1) .tamperPol (by decide)
@[simp] theorem State.until_prof : ((s.until t1)).prof = s.prof := (State.until_same s t1) .prof (by decide)
@[simp] theorem State.until_profCfg : ((s.until t1)).profCfg = s.profCfg := (State.until_same s t1) .profCfg (by decide)
@[simp] theorem State.until_dcfg : ((s.until t1)).dcfg = s.dcfg := (State.until_same s t1) .dcfg (by decide)
@[simp] theorem State.until_twl : ((s.until t1)).twl = s.twl := (State.until_same s t1) .twl (by decide)
@[simp] theorem State.until_poolProf : ((s.until t1)).poolProf = s.poolProf := (State.until_same s t1) .poolProf (by decide)
@[simp] theorem State.until_cfgImg : ((s.until t1)).cfgImg = s.cfgImg := (State.until_same s t1) .cfgImg (by decide)
@[simp] theorem State.until_imm : ((s.until t1)).imm = s.imm := (State.until_same s t1) .imm (by decide)
@[simp] theorem State.until_fca : ((s.until t1)).fca = s.fca := (State.until_same s t1) .fca (by decide)
@[simp] theorem State.until_farm : ((s.until t1)).farm = s.farm := (State.until_same s t1) .farm (by decide)
@[simp] theorem State.until_pool : ((s.until t1)).pool = s.pool := (State.until_same s t1) .pool (by decide)
@[simp] theorem State.until_mins : ((s.until t1)).mins = s.mins := (State.until_same s t1) .mins (by decide)
@[simp] theorem State.until_devfw : ((s.until t1)).devfw = s.devfw := (State.until_same s t1) .devfw (by decide)
@[simp] theorem State.until_plat : ((s.until t1)).plat = s.plat := (State.until_same s t1) .plat (by decide)
@[simp] theorem State.until_mwd : ((s.until t1)).mwd = s.mwd := (State.until_same s t1) .mwd (by decide)
@[simp] theorem State.until_intw : ((s.until t1)).intw = s.intw := (State.until_same s t1) .intw (by decide)
@[simp] theorem State.until_trace : ((s.until t1)).trace = s.trace := (State.until_same s t1) .trace (by decide)
@[simp] theorem State.until_att : ((s.until t1)).att = s.att := (State.until_same s t1) .att (by decide)
@[simp] theorem State.until_spdm : ((s.until t1)).spdm = s.spdm := (State.until_same s t1) .spdm (by decide)
@[simp] theorem State.until_i3c : ((s.until t1)).i3c = s.i3c := (State.until_same s t1) .i3c (by decide)
@[simp] theorem State.until_rings : ((s.until t1)).rings = s.rings := (State.until_same s t1) .rings (by decide)
@[simp] theorem State.until_arb : ((s.until t1)).arb = s.arb := (State.until_same s t1) .arb (by decide)
@[simp] theorem State.until_views : ((s.until t1)).views = s.views := (State.until_same s t1) .views (by decide)
@[simp] theorem State.until_awaits : ((s.until t1)).awaits = s.awaits := (State.until_same s t1) .awaits (by decide)
@[simp] theorem State.until_hdrs : ((s.until t1)).hdrs = s.hdrs := (State.until_same s t1) .hdrs (by decide)
@[simp] theorem State.until_burin : ((s.until t1)).burin = s.burin := (State.until_same s t1) .burin (by decide)
@[simp] theorem State.until_hash : ((s.until t1)).hash = s.hash := (State.until_same s t1) .hash (by decide)
@[simp] theorem State.until_drbg : ((s.until t1)).drbg = s.drbg := (State.until_same s t1) .drbg (by decide)
@[simp] theorem State.until_drawn : ((s.until t1)).drawn = s.drawn := (State.until_same s t1) .drawn (by decide)
@[simp] theorem State.until_keys : ((s.until t1)).keys = s.keys := (State.until_same s t1) .keys (by decide)
@[simp] theorem State.until_tamper : ((s.until t1)).tamper = s.tamper := (State.until_same s t1) .tamper (by decide)
@[simp] theorem State.until_otp : ((s.until t1)).otp = s.otp := (State.until_same s t1) .otp (by decide)
@[simp] theorem State.until_part : ((s.until t1)).part = s.part := (State.until_same s t1) .part (by decide)
@[simp] theorem State.until_power : ((s.until t1)).power = s.power := (State.until_same s t1) .power (by decide)
@[simp] theorem State.until_clk : ((s.until t1)).clk = s.clk := (State.until_same s t1) .clk (by decide)
@[simp] theorem State.until_led : ((s.until t1)).led = s.led := (State.until_same s t1) .led (by decide)
@[simp] theorem State.until_dev : ((s.until t1)).dev = s.dev := (State.until_same s t1) .dev (by decide)
@[simp] theorem State.until_pending : ((s.until t1)).pending = s.pending := (State.until_same s t1) .pending (by decide)
@[simp] theorem State.until_port (c : Fin 128) : ((s.until t1)).port c = s.port c := by simp [State.port]
@[simp] theorem State.until_mb (c : Fin 128) : ((s.until t1)).mb c = s.mb c := by simp [State.mb]
@[simp] theorem State.until_st (c : Fin 128) : ((s.until t1)).st c = s.st c := by simp [State.st]
@[simp] theorem State.until_ch (c : Fin 128) : ((s.until t1)).ch c = s.ch c := by simp [State.ch]
@[simp] theorem State.until_pl (c : Fin 128) : ((s.until t1)).pl c = s.pl c := by simp [State.pl]
@[simp] theorem State.until_wd (c : Fin 128) : ((s.until t1)).wd c = s.wd c := by simp [State.wd]
@[simp] theorem State.until_area (c : Fin 128) : ((s.until t1)).area c = s.area c := by simp [State.area]
@[simp] theorem State.until_fp (c : Fin 64) : ((s.until t1)).fp c = s.fp c := by simp [State.fp]
@[simp] theorem State.until_polOf (c : Fin 128) : ((s.until t1)).polOf c = s.polOf c := by simp [State.polOf]
@[simp] theorem State.until_profOf (c : Fin 128) : ((s.until t1)).profOf c = s.profOf c := by simp [State.profOf]
@[simp] theorem State.until_dirE (c : Fin 256) : ((s.until t1)).dirE c = s.dirE c := by simp [State.dirE]
@[simp] theorem State.until_core (c : Fin 4) : ((s.until t1)).core c = s.core c := by simp [State.core]
@[simp] theorem State.until_ep (c : Fin 8) : ((s.until t1)).ep c = s.ep c := by simp [State.ep]
@[simp] theorem State.until_slot (c : Fin 256) : ((s.until t1)).slot c = s.slot c := by simp [State.slot]
@[simp] theorem State.until_ring (c : Mgr) : ((s.until t1)).ring c = s.ring c := by simp [State.ring]
@[simp] theorem State.until_view (c : Mgr) : ((s.until t1)).view c = s.view c := by simp [State.view]

end

section

variable (s : State) (who : Asker) (n : Fin 128) (k3 : AwaitKind)

theorem State.wait_same : Frame [.awaits] s ((s.wait who n k3)) := State.wait_frame (Frame.refl _ s) rfl
@[simp] theorem State.wait_now : ((s.wait who n k3)).now = s.now := (State.wait_same s who n k3) .now (by decide)
@[simp] theorem State.wait_ports : ((s.wait who n k3)).ports = s.ports := (State.wait_same s who n k3) .ports (by decide)
@[simp] theorem State.wait_mbx : ((s.wait who n k3)).mbx = s.mbx := (State.wait_same s who n k3) .mbx (by decide)
@[simp] theorem State.wait_stn : ((s.wait who n k3)).stn = s.stn := (State.wait_same s who n k3) .stn (by decide)
@[simp] theorem State.wait_ctl : ((s.wait who n k3)).ctl = s.ctl := (State.wait_same s who n k3) .ctl (by decide)
@[simp] theorem State.wait_plt : ((s.wait who n k3)).plt = s.plt := (State.wait_same s who n k3) .plt (by decide)
@[simp] theorem State.wait_wdg : ((s.wait who n k3)).wdg = s.wdg := (State.wait_same s who n k3) .wdg (by decide)
@[simp] theorem State.wait_areas : ((s.wait who n k3)).areas = s.areas := (State.wait_same s who n k3) .areas (by decide)
@[simp] theorem State.wait_fps : ((s.wait who n k3)).fps = s.fps := (State.wait_same s who n k3) .fps (by decide)
@[simp] theorem State.wait_pol : ((s.wait who n k3)).pol = s.pol := (State.wait_same s who n k3) .pol (by decide)
@[simp] theorem State.wait_polLedger : ((s.wait who n k3)).polLedger = s.polLedger := (State.wait_same s who n k3) .polLedger (by decide)
@[simp] theorem State.wait_polMin : ((s.wait who n k3)).polMin = s.polMin := (State.wait_same s who n k3) .polMin (by decide)
@[simp] theorem State.wait_tamperPol : ((s.wait who n k3)).tamperPol = s.tamperPol := (State.wait_same s who n k3) .tamperPol (by decide)
@[simp] theorem State.wait_prof : ((s.wait who n k3)).prof = s.prof := (State.wait_same s who n k3) .prof (by decide)
@[simp] theorem State.wait_profCfg : ((s.wait who n k3)).profCfg = s.profCfg := (State.wait_same s who n k3) .profCfg (by decide)
@[simp] theorem State.wait_dcfg : ((s.wait who n k3)).dcfg = s.dcfg := (State.wait_same s who n k3) .dcfg (by decide)
@[simp] theorem State.wait_twl : ((s.wait who n k3)).twl = s.twl := (State.wait_same s who n k3) .twl (by decide)
@[simp] theorem State.wait_poolProf : ((s.wait who n k3)).poolProf = s.poolProf := (State.wait_same s who n k3) .poolProf (by decide)
@[simp] theorem State.wait_cfgImg : ((s.wait who n k3)).cfgImg = s.cfgImg := (State.wait_same s who n k3) .cfgImg (by decide)
@[simp] theorem State.wait_imm : ((s.wait who n k3)).imm = s.imm := (State.wait_same s who n k3) .imm (by decide)
@[simp] theorem State.wait_fca : ((s.wait who n k3)).fca = s.fca := (State.wait_same s who n k3) .fca (by decide)
@[simp] theorem State.wait_farm : ((s.wait who n k3)).farm = s.farm := (State.wait_same s who n k3) .farm (by decide)
@[simp] theorem State.wait_pool : ((s.wait who n k3)).pool = s.pool := (State.wait_same s who n k3) .pool (by decide)
@[simp] theorem State.wait_mins : ((s.wait who n k3)).mins = s.mins := (State.wait_same s who n k3) .mins (by decide)
@[simp] theorem State.wait_devfw : ((s.wait who n k3)).devfw = s.devfw := (State.wait_same s who n k3) .devfw (by decide)
@[simp] theorem State.wait_plat : ((s.wait who n k3)).plat = s.plat := (State.wait_same s who n k3) .plat (by decide)
@[simp] theorem State.wait_mwd : ((s.wait who n k3)).mwd = s.mwd := (State.wait_same s who n k3) .mwd (by decide)
@[simp] theorem State.wait_intw : ((s.wait who n k3)).intw = s.intw := (State.wait_same s who n k3) .intw (by decide)
@[simp] theorem State.wait_trace : ((s.wait who n k3)).trace = s.trace := (State.wait_same s who n k3) .trace (by decide)
@[simp] theorem State.wait_att : ((s.wait who n k3)).att = s.att := (State.wait_same s who n k3) .att (by decide)
@[simp] theorem State.wait_spdm : ((s.wait who n k3)).spdm = s.spdm := (State.wait_same s who n k3) .spdm (by decide)
@[simp] theorem State.wait_i3c : ((s.wait who n k3)).i3c = s.i3c := (State.wait_same s who n k3) .i3c (by decide)
@[simp] theorem State.wait_rings : ((s.wait who n k3)).rings = s.rings := (State.wait_same s who n k3) .rings (by decide)
@[simp] theorem State.wait_arb : ((s.wait who n k3)).arb = s.arb := (State.wait_same s who n k3) .arb (by decide)
@[simp] theorem State.wait_views : ((s.wait who n k3)).views = s.views := (State.wait_same s who n k3) .views (by decide)
@[simp] theorem State.wait_hdrs : ((s.wait who n k3)).hdrs = s.hdrs := (State.wait_same s who n k3) .hdrs (by decide)
@[simp] theorem State.wait_burin : ((s.wait who n k3)).burin = s.burin := (State.wait_same s who n k3) .burin (by decide)
@[simp] theorem State.wait_hash : ((s.wait who n k3)).hash = s.hash := (State.wait_same s who n k3) .hash (by decide)
@[simp] theorem State.wait_drbg : ((s.wait who n k3)).drbg = s.drbg := (State.wait_same s who n k3) .drbg (by decide)
@[simp] theorem State.wait_drawn : ((s.wait who n k3)).drawn = s.drawn := (State.wait_same s who n k3) .drawn (by decide)
@[simp] theorem State.wait_keys : ((s.wait who n k3)).keys = s.keys := (State.wait_same s who n k3) .keys (by decide)
@[simp] theorem State.wait_tamper : ((s.wait who n k3)).tamper = s.tamper := (State.wait_same s who n k3) .tamper (by decide)
@[simp] theorem State.wait_otp : ((s.wait who n k3)).otp = s.otp := (State.wait_same s who n k3) .otp (by decide)
@[simp] theorem State.wait_part : ((s.wait who n k3)).part = s.part := (State.wait_same s who n k3) .part (by decide)
@[simp] theorem State.wait_power : ((s.wait who n k3)).power = s.power := (State.wait_same s who n k3) .power (by decide)
@[simp] theorem State.wait_clk : ((s.wait who n k3)).clk = s.clk := (State.wait_same s who n k3) .clk (by decide)
@[simp] theorem State.wait_led : ((s.wait who n k3)).led = s.led := (State.wait_same s who n k3) .led (by decide)
@[simp] theorem State.wait_dev : ((s.wait who n k3)).dev = s.dev := (State.wait_same s who n k3) .dev (by decide)
@[simp] theorem State.wait_pending : ((s.wait who n k3)).pending = s.pending := (State.wait_same s who n k3) .pending (by decide)
@[simp] theorem State.wait_port (c : Fin 128) : ((s.wait who n k3)).port c = s.port c := by simp [State.port]
@[simp] theorem State.wait_mb (c : Fin 128) : ((s.wait who n k3)).mb c = s.mb c := by simp [State.mb]
@[simp] theorem State.wait_st (c : Fin 128) : ((s.wait who n k3)).st c = s.st c := by simp [State.st]
@[simp] theorem State.wait_ch (c : Fin 128) : ((s.wait who n k3)).ch c = s.ch c := by simp [State.ch]
@[simp] theorem State.wait_pl (c : Fin 128) : ((s.wait who n k3)).pl c = s.pl c := by simp [State.pl]
@[simp] theorem State.wait_wd (c : Fin 128) : ((s.wait who n k3)).wd c = s.wd c := by simp [State.wd]
@[simp] theorem State.wait_area (c : Fin 128) : ((s.wait who n k3)).area c = s.area c := by simp [State.area]
@[simp] theorem State.wait_fp (c : Fin 64) : ((s.wait who n k3)).fp c = s.fp c := by simp [State.fp]
@[simp] theorem State.wait_polOf (c : Fin 128) : ((s.wait who n k3)).polOf c = s.polOf c := by simp [State.polOf]
@[simp] theorem State.wait_profOf (c : Fin 128) : ((s.wait who n k3)).profOf c = s.profOf c := by simp [State.profOf]
@[simp] theorem State.wait_dirE (c : Fin 256) : ((s.wait who n k3)).dirE c = s.dirE c := by simp [State.dirE]
@[simp] theorem State.wait_core (c : Fin 4) : ((s.wait who n k3)).core c = s.core c := by simp [State.core]
@[simp] theorem State.wait_ep (c : Fin 8) : ((s.wait who n k3)).ep c = s.ep c := by simp [State.ep]
@[simp] theorem State.wait_slot (c : Fin 256) : ((s.wait who n k3)).slot c = s.slot c := by simp [State.slot]
@[simp] theorem State.wait_ring (c : Mgr) : ((s.wait who n k3)).ring c = s.ring c := by simp [State.ring]
@[simp] theorem State.wait_view (c : Mgr) : ((s.wait who n k3)).view c = s.view c := by simp [State.view]

end

section

variable (s : State) (src : Src) (data : List Byte)

theorem State.toBuffer_same : Frame [.views] s ((s.toBuffer src data)) := State.toBuffer_frame (Frame.refl _ s) rfl
@[simp] theorem State.toBuffer_now : ((s.toBuffer src data)).now = s.now := (State.toBuffer_same s src data) .now (by decide)
@[simp] theorem State.toBuffer_ports : ((s.toBuffer src data)).ports = s.ports := (State.toBuffer_same s src data) .ports (by decide)
@[simp] theorem State.toBuffer_mbx : ((s.toBuffer src data)).mbx = s.mbx := (State.toBuffer_same s src data) .mbx (by decide)
@[simp] theorem State.toBuffer_stn : ((s.toBuffer src data)).stn = s.stn := (State.toBuffer_same s src data) .stn (by decide)
@[simp] theorem State.toBuffer_ctl : ((s.toBuffer src data)).ctl = s.ctl := (State.toBuffer_same s src data) .ctl (by decide)
@[simp] theorem State.toBuffer_plt : ((s.toBuffer src data)).plt = s.plt := (State.toBuffer_same s src data) .plt (by decide)
@[simp] theorem State.toBuffer_wdg : ((s.toBuffer src data)).wdg = s.wdg := (State.toBuffer_same s src data) .wdg (by decide)
@[simp] theorem State.toBuffer_areas : ((s.toBuffer src data)).areas = s.areas := (State.toBuffer_same s src data) .areas (by decide)
@[simp] theorem State.toBuffer_fps : ((s.toBuffer src data)).fps = s.fps := (State.toBuffer_same s src data) .fps (by decide)
@[simp] theorem State.toBuffer_pol : ((s.toBuffer src data)).pol = s.pol := (State.toBuffer_same s src data) .pol (by decide)
@[simp] theorem State.toBuffer_polLedger : ((s.toBuffer src data)).polLedger = s.polLedger := (State.toBuffer_same s src data) .polLedger (by decide)
@[simp] theorem State.toBuffer_polMin : ((s.toBuffer src data)).polMin = s.polMin := (State.toBuffer_same s src data) .polMin (by decide)
@[simp] theorem State.toBuffer_tamperPol : ((s.toBuffer src data)).tamperPol = s.tamperPol := (State.toBuffer_same s src data) .tamperPol (by decide)
@[simp] theorem State.toBuffer_prof : ((s.toBuffer src data)).prof = s.prof := (State.toBuffer_same s src data) .prof (by decide)
@[simp] theorem State.toBuffer_profCfg : ((s.toBuffer src data)).profCfg = s.profCfg := (State.toBuffer_same s src data) .profCfg (by decide)
@[simp] theorem State.toBuffer_dcfg : ((s.toBuffer src data)).dcfg = s.dcfg := (State.toBuffer_same s src data) .dcfg (by decide)
@[simp] theorem State.toBuffer_twl : ((s.toBuffer src data)).twl = s.twl := (State.toBuffer_same s src data) .twl (by decide)
@[simp] theorem State.toBuffer_poolProf : ((s.toBuffer src data)).poolProf = s.poolProf := (State.toBuffer_same s src data) .poolProf (by decide)
@[simp] theorem State.toBuffer_cfgImg : ((s.toBuffer src data)).cfgImg = s.cfgImg := (State.toBuffer_same s src data) .cfgImg (by decide)
@[simp] theorem State.toBuffer_imm : ((s.toBuffer src data)).imm = s.imm := (State.toBuffer_same s src data) .imm (by decide)
@[simp] theorem State.toBuffer_fca : ((s.toBuffer src data)).fca = s.fca := (State.toBuffer_same s src data) .fca (by decide)
@[simp] theorem State.toBuffer_farm : ((s.toBuffer src data)).farm = s.farm := (State.toBuffer_same s src data) .farm (by decide)
@[simp] theorem State.toBuffer_pool : ((s.toBuffer src data)).pool = s.pool := (State.toBuffer_same s src data) .pool (by decide)
@[simp] theorem State.toBuffer_mins : ((s.toBuffer src data)).mins = s.mins := (State.toBuffer_same s src data) .mins (by decide)
@[simp] theorem State.toBuffer_devfw : ((s.toBuffer src data)).devfw = s.devfw := (State.toBuffer_same s src data) .devfw (by decide)
@[simp] theorem State.toBuffer_plat : ((s.toBuffer src data)).plat = s.plat := (State.toBuffer_same s src data) .plat (by decide)
@[simp] theorem State.toBuffer_mwd : ((s.toBuffer src data)).mwd = s.mwd := (State.toBuffer_same s src data) .mwd (by decide)
@[simp] theorem State.toBuffer_intw : ((s.toBuffer src data)).intw = s.intw := (State.toBuffer_same s src data) .intw (by decide)
@[simp] theorem State.toBuffer_trace : ((s.toBuffer src data)).trace = s.trace := (State.toBuffer_same s src data) .trace (by decide)
@[simp] theorem State.toBuffer_att : ((s.toBuffer src data)).att = s.att := (State.toBuffer_same s src data) .att (by decide)
@[simp] theorem State.toBuffer_spdm : ((s.toBuffer src data)).spdm = s.spdm := (State.toBuffer_same s src data) .spdm (by decide)
@[simp] theorem State.toBuffer_i3c : ((s.toBuffer src data)).i3c = s.i3c := (State.toBuffer_same s src data) .i3c (by decide)
@[simp] theorem State.toBuffer_rings : ((s.toBuffer src data)).rings = s.rings := (State.toBuffer_same s src data) .rings (by decide)
@[simp] theorem State.toBuffer_arb : ((s.toBuffer src data)).arb = s.arb := (State.toBuffer_same s src data) .arb (by decide)
@[simp] theorem State.toBuffer_awaits : ((s.toBuffer src data)).awaits = s.awaits := (State.toBuffer_same s src data) .awaits (by decide)
@[simp] theorem State.toBuffer_hdrs : ((s.toBuffer src data)).hdrs = s.hdrs := (State.toBuffer_same s src data) .hdrs (by decide)
@[simp] theorem State.toBuffer_burin : ((s.toBuffer src data)).burin = s.burin := (State.toBuffer_same s src data) .burin (by decide)
@[simp] theorem State.toBuffer_hash : ((s.toBuffer src data)).hash = s.hash := (State.toBuffer_same s src data) .hash (by decide)
@[simp] theorem State.toBuffer_drbg : ((s.toBuffer src data)).drbg = s.drbg := (State.toBuffer_same s src data) .drbg (by decide)
@[simp] theorem State.toBuffer_drawn : ((s.toBuffer src data)).drawn = s.drawn := (State.toBuffer_same s src data) .drawn (by decide)
@[simp] theorem State.toBuffer_keys : ((s.toBuffer src data)).keys = s.keys := (State.toBuffer_same s src data) .keys (by decide)
@[simp] theorem State.toBuffer_tamper : ((s.toBuffer src data)).tamper = s.tamper := (State.toBuffer_same s src data) .tamper (by decide)
@[simp] theorem State.toBuffer_otp : ((s.toBuffer src data)).otp = s.otp := (State.toBuffer_same s src data) .otp (by decide)
@[simp] theorem State.toBuffer_part : ((s.toBuffer src data)).part = s.part := (State.toBuffer_same s src data) .part (by decide)
@[simp] theorem State.toBuffer_power : ((s.toBuffer src data)).power = s.power := (State.toBuffer_same s src data) .power (by decide)
@[simp] theorem State.toBuffer_clk : ((s.toBuffer src data)).clk = s.clk := (State.toBuffer_same s src data) .clk (by decide)
@[simp] theorem State.toBuffer_led : ((s.toBuffer src data)).led = s.led := (State.toBuffer_same s src data) .led (by decide)
@[simp] theorem State.toBuffer_dev : ((s.toBuffer src data)).dev = s.dev := (State.toBuffer_same s src data) .dev (by decide)
@[simp] theorem State.toBuffer_pending : ((s.toBuffer src data)).pending = s.pending := (State.toBuffer_same s src data) .pending (by decide)
@[simp] theorem State.toBuffer_port (c : Fin 128) : ((s.toBuffer src data)).port c = s.port c := by simp [State.port]
@[simp] theorem State.toBuffer_mb (c : Fin 128) : ((s.toBuffer src data)).mb c = s.mb c := by simp [State.mb]
@[simp] theorem State.toBuffer_st (c : Fin 128) : ((s.toBuffer src data)).st c = s.st c := by simp [State.st]
@[simp] theorem State.toBuffer_ch (c : Fin 128) : ((s.toBuffer src data)).ch c = s.ch c := by simp [State.ch]
@[simp] theorem State.toBuffer_pl (c : Fin 128) : ((s.toBuffer src data)).pl c = s.pl c := by simp [State.pl]
@[simp] theorem State.toBuffer_wd (c : Fin 128) : ((s.toBuffer src data)).wd c = s.wd c := by simp [State.wd]
@[simp] theorem State.toBuffer_area (c : Fin 128) : ((s.toBuffer src data)).area c = s.area c := by simp [State.area]
@[simp] theorem State.toBuffer_fp (c : Fin 64) : ((s.toBuffer src data)).fp c = s.fp c := by simp [State.fp]
@[simp] theorem State.toBuffer_polOf (c : Fin 128) : ((s.toBuffer src data)).polOf c = s.polOf c := by simp [State.polOf]
@[simp] theorem State.toBuffer_profOf (c : Fin 128) : ((s.toBuffer src data)).profOf c = s.profOf c := by simp [State.profOf]
@[simp] theorem State.toBuffer_dirE (c : Fin 256) : ((s.toBuffer src data)).dirE c = s.dirE c := by simp [State.dirE]
@[simp] theorem State.toBuffer_core (c : Fin 4) : ((s.toBuffer src data)).core c = s.core c := by simp [State.core]
@[simp] theorem State.toBuffer_ep (c : Fin 8) : ((s.toBuffer src data)).ep c = s.ep c := by simp [State.ep]
@[simp] theorem State.toBuffer_slot (c : Fin 256) : ((s.toBuffer src data)).slot c = s.slot c := by simp [State.slot]
@[simp] theorem State.toBuffer_ring (c : Mgr) : ((s.toBuffer src data)).ring c = s.ring c := by simp [State.ring]

end

section

variable (s : State) (src : Src) (st : Status) (info : optParam Nat 0) (result : optParam (List Byte) []) (more : optParam Bool Bool.false)

theorem State.finish_same : Frame [.rings, .views, .awaits, .dev] s ((s.finish src st info result more)) := State.finish_frame (Frame.refl _ s) rfl
@[simp] theorem State.finish_now : ((s.finish src st info result more)).now = s.now := (State.finish_same s src st info result more) .now (by decide)
@[simp] theorem State.finish_ports : ((s.finish src st info result more)).ports = s.ports := (State.finish_same s src st info result more) .ports (by decide)
@[simp] theorem State.finish_mbx : ((s.finish src st info result more)).mbx = s.mbx := (State.finish_same s src st info result more) .mbx (by decide)
@[simp] theorem State.finish_stn : ((s.finish src st info result more)).stn = s.stn := (State.finish_same s src st info result more) .stn (by decide)
@[simp] theorem State.finish_ctl : ((s.finish src st info result more)).ctl = s.ctl := (State.finish_same s src st info result more) .ctl (by decide)
@[simp] theorem State.finish_plt : ((s.finish src st info result more)).plt = s.plt := (State.finish_same s src st info result more) .plt (by decide)
@[simp] theorem State.finish_wdg : ((s.finish src st info result more)).wdg = s.wdg := (State.finish_same s src st info result more) .wdg (by decide)
@[simp] theorem State.finish_areas : ((s.finish src st info result more)).areas = s.areas := (State.finish_same s src st info result more) .areas (by decide)
@[simp] theorem State.finish_fps : ((s.finish src st info result more)).fps = s.fps := (State.finish_same s src st info result more) .fps (by decide)
@[simp] theorem State.finish_pol : ((s.finish src st info result more)).pol = s.pol := (State.finish_same s src st info result more) .pol (by decide)
@[simp] theorem State.finish_polLedger : ((s.finish src st info result more)).polLedger = s.polLedger := (State.finish_same s src st info result more) .polLedger (by decide)
@[simp] theorem State.finish_polMin : ((s.finish src st info result more)).polMin = s.polMin := (State.finish_same s src st info result more) .polMin (by decide)
@[simp] theorem State.finish_tamperPol : ((s.finish src st info result more)).tamperPol = s.tamperPol := (State.finish_same s src st info result more) .tamperPol (by decide)
@[simp] theorem State.finish_prof : ((s.finish src st info result more)).prof = s.prof := (State.finish_same s src st info result more) .prof (by decide)
@[simp] theorem State.finish_profCfg : ((s.finish src st info result more)).profCfg = s.profCfg := (State.finish_same s src st info result more) .profCfg (by decide)
@[simp] theorem State.finish_dcfg : ((s.finish src st info result more)).dcfg = s.dcfg := (State.finish_same s src st info result more) .dcfg (by decide)
@[simp] theorem State.finish_twl : ((s.finish src st info result more)).twl = s.twl := (State.finish_same s src st info result more) .twl (by decide)
@[simp] theorem State.finish_poolProf : ((s.finish src st info result more)).poolProf = s.poolProf := (State.finish_same s src st info result more) .poolProf (by decide)
@[simp] theorem State.finish_cfgImg : ((s.finish src st info result more)).cfgImg = s.cfgImg := (State.finish_same s src st info result more) .cfgImg (by decide)
@[simp] theorem State.finish_imm : ((s.finish src st info result more)).imm = s.imm := (State.finish_same s src st info result more) .imm (by decide)
@[simp] theorem State.finish_fca : ((s.finish src st info result more)).fca = s.fca := (State.finish_same s src st info result more) .fca (by decide)
@[simp] theorem State.finish_farm : ((s.finish src st info result more)).farm = s.farm := (State.finish_same s src st info result more) .farm (by decide)
@[simp] theorem State.finish_pool : ((s.finish src st info result more)).pool = s.pool := (State.finish_same s src st info result more) .pool (by decide)
@[simp] theorem State.finish_mins : ((s.finish src st info result more)).mins = s.mins := (State.finish_same s src st info result more) .mins (by decide)
@[simp] theorem State.finish_devfw : ((s.finish src st info result more)).devfw = s.devfw := (State.finish_same s src st info result more) .devfw (by decide)
@[simp] theorem State.finish_plat : ((s.finish src st info result more)).plat = s.plat := (State.finish_same s src st info result more) .plat (by decide)
@[simp] theorem State.finish_mwd : ((s.finish src st info result more)).mwd = s.mwd := (State.finish_same s src st info result more) .mwd (by decide)
@[simp] theorem State.finish_intw : ((s.finish src st info result more)).intw = s.intw := (State.finish_same s src st info result more) .intw (by decide)
@[simp] theorem State.finish_trace : ((s.finish src st info result more)).trace = s.trace := (State.finish_same s src st info result more) .trace (by decide)
@[simp] theorem State.finish_att : ((s.finish src st info result more)).att = s.att := (State.finish_same s src st info result more) .att (by decide)
@[simp] theorem State.finish_spdm : ((s.finish src st info result more)).spdm = s.spdm := (State.finish_same s src st info result more) .spdm (by decide)
@[simp] theorem State.finish_i3c : ((s.finish src st info result more)).i3c = s.i3c := (State.finish_same s src st info result more) .i3c (by decide)
@[simp] theorem State.finish_arb : ((s.finish src st info result more)).arb = s.arb := (State.finish_same s src st info result more) .arb (by decide)
@[simp] theorem State.finish_hdrs : ((s.finish src st info result more)).hdrs = s.hdrs := (State.finish_same s src st info result more) .hdrs (by decide)
@[simp] theorem State.finish_burin : ((s.finish src st info result more)).burin = s.burin := (State.finish_same s src st info result more) .burin (by decide)
@[simp] theorem State.finish_hash : ((s.finish src st info result more)).hash = s.hash := (State.finish_same s src st info result more) .hash (by decide)
@[simp] theorem State.finish_drbg : ((s.finish src st info result more)).drbg = s.drbg := (State.finish_same s src st info result more) .drbg (by decide)
@[simp] theorem State.finish_drawn : ((s.finish src st info result more)).drawn = s.drawn := (State.finish_same s src st info result more) .drawn (by decide)
@[simp] theorem State.finish_keys : ((s.finish src st info result more)).keys = s.keys := (State.finish_same s src st info result more) .keys (by decide)
@[simp] theorem State.finish_tamper : ((s.finish src st info result more)).tamper = s.tamper := (State.finish_same s src st info result more) .tamper (by decide)
@[simp] theorem State.finish_otp : ((s.finish src st info result more)).otp = s.otp := (State.finish_same s src st info result more) .otp (by decide)
@[simp] theorem State.finish_part : ((s.finish src st info result more)).part = s.part := (State.finish_same s src st info result more) .part (by decide)
@[simp] theorem State.finish_power : ((s.finish src st info result more)).power = s.power := (State.finish_same s src st info result more) .power (by decide)
@[simp] theorem State.finish_clk : ((s.finish src st info result more)).clk = s.clk := (State.finish_same s src st info result more) .clk (by decide)
@[simp] theorem State.finish_led : ((s.finish src st info result more)).led = s.led := (State.finish_same s src st info result more) .led (by decide)
@[simp] theorem State.finish_pending : ((s.finish src st info result more)).pending = s.pending := (State.finish_same s src st info result more) .pending (by decide)
@[simp] theorem State.finish_port (c : Fin 128) : ((s.finish src st info result more)).port c = s.port c := by simp [State.port]
@[simp] theorem State.finish_mb (c : Fin 128) : ((s.finish src st info result more)).mb c = s.mb c := by simp [State.mb]
@[simp] theorem State.finish_st (c : Fin 128) : ((s.finish src st info result more)).st c = s.st c := by simp [State.st]
@[simp] theorem State.finish_ch (c : Fin 128) : ((s.finish src st info result more)).ch c = s.ch c := by simp [State.ch]
@[simp] theorem State.finish_pl (c : Fin 128) : ((s.finish src st info result more)).pl c = s.pl c := by simp [State.pl]
@[simp] theorem State.finish_wd (c : Fin 128) : ((s.finish src st info result more)).wd c = s.wd c := by simp [State.wd]
@[simp] theorem State.finish_area (c : Fin 128) : ((s.finish src st info result more)).area c = s.area c := by simp [State.area]
@[simp] theorem State.finish_fp (c : Fin 64) : ((s.finish src st info result more)).fp c = s.fp c := by simp [State.fp]
@[simp] theorem State.finish_polOf (c : Fin 128) : ((s.finish src st info result more)).polOf c = s.polOf c := by simp [State.polOf]
@[simp] theorem State.finish_profOf (c : Fin 128) : ((s.finish src st info result more)).profOf c = s.profOf c := by simp [State.profOf]
@[simp] theorem State.finish_dirE (c : Fin 256) : ((s.finish src st info result more)).dirE c = s.dirE c := by simp [State.dirE]
@[simp] theorem State.finish_core (c : Fin 4) : ((s.finish src st info result more)).core c = s.core c := by simp [State.core]
@[simp] theorem State.finish_ep (c : Fin 8) : ((s.finish src st info result more)).ep c = s.ep c := by simp [State.ep]
@[simp] theorem State.finish_slot (c : Fin 256) : ((s.finish src st info result more)).slot c = s.slot c := by simp [State.slot]

end

section

variable (s : State) (src : Src) (a : Answer)

theorem State.deliver_same : Frame [.rings, .views, .awaits, .dev] s ((s.deliver src a)) := State.deliver_frame (Frame.refl _ s) rfl
@[simp] theorem State.deliver_now : ((s.deliver src a)).now = s.now := (State.deliver_same s src a) .now (by decide)
@[simp] theorem State.deliver_ports : ((s.deliver src a)).ports = s.ports := (State.deliver_same s src a) .ports (by decide)
@[simp] theorem State.deliver_mbx : ((s.deliver src a)).mbx = s.mbx := (State.deliver_same s src a) .mbx (by decide)
@[simp] theorem State.deliver_stn : ((s.deliver src a)).stn = s.stn := (State.deliver_same s src a) .stn (by decide)
@[simp] theorem State.deliver_ctl : ((s.deliver src a)).ctl = s.ctl := (State.deliver_same s src a) .ctl (by decide)
@[simp] theorem State.deliver_plt : ((s.deliver src a)).plt = s.plt := (State.deliver_same s src a) .plt (by decide)
@[simp] theorem State.deliver_wdg : ((s.deliver src a)).wdg = s.wdg := (State.deliver_same s src a) .wdg (by decide)
@[simp] theorem State.deliver_areas : ((s.deliver src a)).areas = s.areas := (State.deliver_same s src a) .areas (by decide)
@[simp] theorem State.deliver_fps : ((s.deliver src a)).fps = s.fps := (State.deliver_same s src a) .fps (by decide)
@[simp] theorem State.deliver_pol : ((s.deliver src a)).pol = s.pol := (State.deliver_same s src a) .pol (by decide)
@[simp] theorem State.deliver_polLedger : ((s.deliver src a)).polLedger = s.polLedger := (State.deliver_same s src a) .polLedger (by decide)
@[simp] theorem State.deliver_polMin : ((s.deliver src a)).polMin = s.polMin := (State.deliver_same s src a) .polMin (by decide)
@[simp] theorem State.deliver_tamperPol : ((s.deliver src a)).tamperPol = s.tamperPol := (State.deliver_same s src a) .tamperPol (by decide)
@[simp] theorem State.deliver_prof : ((s.deliver src a)).prof = s.prof := (State.deliver_same s src a) .prof (by decide)
@[simp] theorem State.deliver_profCfg : ((s.deliver src a)).profCfg = s.profCfg := (State.deliver_same s src a) .profCfg (by decide)
@[simp] theorem State.deliver_dcfg : ((s.deliver src a)).dcfg = s.dcfg := (State.deliver_same s src a) .dcfg (by decide)
@[simp] theorem State.deliver_twl : ((s.deliver src a)).twl = s.twl := (State.deliver_same s src a) .twl (by decide)
@[simp] theorem State.deliver_poolProf : ((s.deliver src a)).poolProf = s.poolProf := (State.deliver_same s src a) .poolProf (by decide)
@[simp] theorem State.deliver_cfgImg : ((s.deliver src a)).cfgImg = s.cfgImg := (State.deliver_same s src a) .cfgImg (by decide)
@[simp] theorem State.deliver_imm : ((s.deliver src a)).imm = s.imm := (State.deliver_same s src a) .imm (by decide)
@[simp] theorem State.deliver_fca : ((s.deliver src a)).fca = s.fca := (State.deliver_same s src a) .fca (by decide)
@[simp] theorem State.deliver_farm : ((s.deliver src a)).farm = s.farm := (State.deliver_same s src a) .farm (by decide)
@[simp] theorem State.deliver_pool : ((s.deliver src a)).pool = s.pool := (State.deliver_same s src a) .pool (by decide)
@[simp] theorem State.deliver_mins : ((s.deliver src a)).mins = s.mins := (State.deliver_same s src a) .mins (by decide)
@[simp] theorem State.deliver_devfw : ((s.deliver src a)).devfw = s.devfw := (State.deliver_same s src a) .devfw (by decide)
@[simp] theorem State.deliver_plat : ((s.deliver src a)).plat = s.plat := (State.deliver_same s src a) .plat (by decide)
@[simp] theorem State.deliver_mwd : ((s.deliver src a)).mwd = s.mwd := (State.deliver_same s src a) .mwd (by decide)
@[simp] theorem State.deliver_intw : ((s.deliver src a)).intw = s.intw := (State.deliver_same s src a) .intw (by decide)
@[simp] theorem State.deliver_trace : ((s.deliver src a)).trace = s.trace := (State.deliver_same s src a) .trace (by decide)
@[simp] theorem State.deliver_att : ((s.deliver src a)).att = s.att := (State.deliver_same s src a) .att (by decide)
@[simp] theorem State.deliver_spdm : ((s.deliver src a)).spdm = s.spdm := (State.deliver_same s src a) .spdm (by decide)
@[simp] theorem State.deliver_i3c : ((s.deliver src a)).i3c = s.i3c := (State.deliver_same s src a) .i3c (by decide)
@[simp] theorem State.deliver_arb : ((s.deliver src a)).arb = s.arb := (State.deliver_same s src a) .arb (by decide)
@[simp] theorem State.deliver_hdrs : ((s.deliver src a)).hdrs = s.hdrs := (State.deliver_same s src a) .hdrs (by decide)
@[simp] theorem State.deliver_burin : ((s.deliver src a)).burin = s.burin := (State.deliver_same s src a) .burin (by decide)
@[simp] theorem State.deliver_hash : ((s.deliver src a)).hash = s.hash := (State.deliver_same s src a) .hash (by decide)
@[simp] theorem State.deliver_drbg : ((s.deliver src a)).drbg = s.drbg := (State.deliver_same s src a) .drbg (by decide)
@[simp] theorem State.deliver_drawn : ((s.deliver src a)).drawn = s.drawn := (State.deliver_same s src a) .drawn (by decide)
@[simp] theorem State.deliver_keys : ((s.deliver src a)).keys = s.keys := (State.deliver_same s src a) .keys (by decide)
@[simp] theorem State.deliver_tamper : ((s.deliver src a)).tamper = s.tamper := (State.deliver_same s src a) .tamper (by decide)
@[simp] theorem State.deliver_otp : ((s.deliver src a)).otp = s.otp := (State.deliver_same s src a) .otp (by decide)
@[simp] theorem State.deliver_part : ((s.deliver src a)).part = s.part := (State.deliver_same s src a) .part (by decide)
@[simp] theorem State.deliver_power : ((s.deliver src a)).power = s.power := (State.deliver_same s src a) .power (by decide)
@[simp] theorem State.deliver_clk : ((s.deliver src a)).clk = s.clk := (State.deliver_same s src a) .clk (by decide)
@[simp] theorem State.deliver_led : ((s.deliver src a)).led = s.led := (State.deliver_same s src a) .led (by decide)
@[simp] theorem State.deliver_pending : ((s.deliver src a)).pending = s.pending := (State.deliver_same s src a) .pending (by decide)
@[simp] theorem State.deliver_port (c : Fin 128) : ((s.deliver src a)).port c = s.port c := by simp [State.port]
@[simp] theorem State.deliver_mb (c : Fin 128) : ((s.deliver src a)).mb c = s.mb c := by simp [State.mb]
@[simp] theorem State.deliver_st (c : Fin 128) : ((s.deliver src a)).st c = s.st c := by simp [State.st]
@[simp] theorem State.deliver_ch (c : Fin 128) : ((s.deliver src a)).ch c = s.ch c := by simp [State.ch]
@[simp] theorem State.deliver_pl (c : Fin 128) : ((s.deliver src a)).pl c = s.pl c := by simp [State.pl]
@[simp] theorem State.deliver_wd (c : Fin 128) : ((s.deliver src a)).wd c = s.wd c := by simp [State.wd]
@[simp] theorem State.deliver_area (c : Fin 128) : ((s.deliver src a)).area c = s.area c := by simp [State.area]
@[simp] theorem State.deliver_fp (c : Fin 64) : ((s.deliver src a)).fp c = s.fp c := by simp [State.fp]
@[simp] theorem State.deliver_polOf (c : Fin 128) : ((s.deliver src a)).polOf c = s.polOf c := by simp [State.polOf]
@[simp] theorem State.deliver_profOf (c : Fin 128) : ((s.deliver src a)).profOf c = s.profOf c := by simp [State.profOf]
@[simp] theorem State.deliver_dirE (c : Fin 256) : ((s.deliver src a)).dirE c = s.dirE c := by simp [State.dirE]
@[simp] theorem State.deliver_core (c : Fin 4) : ((s.deliver src a)).core c = s.core c := by simp [State.core]
@[simp] theorem State.deliver_ep (c : Fin 8) : ((s.deliver src a)).ep c = s.ep c := by simp [State.ep]
@[simp] theorem State.deliver_slot (c : Fin 256) : ((s.deliver src a)).slot c = s.slot c := by simp [State.slot]

end

section

variable (s : State) (m : Mgr) (vec : Nat)

theorem State.msix_same : Frame [.views] s ((s.msix m vec)) := State.msix_frame (Frame.refl _ s) rfl
@[simp] theorem State.msix_now : ((s.msix m vec)).now = s.now := (State.msix_same s m vec) .now (by decide)
@[simp] theorem State.msix_ports : ((s.msix m vec)).ports = s.ports := (State.msix_same s m vec) .ports (by decide)
@[simp] theorem State.msix_mbx : ((s.msix m vec)).mbx = s.mbx := (State.msix_same s m vec) .mbx (by decide)
@[simp] theorem State.msix_stn : ((s.msix m vec)).stn = s.stn := (State.msix_same s m vec) .stn (by decide)
@[simp] theorem State.msix_ctl : ((s.msix m vec)).ctl = s.ctl := (State.msix_same s m vec) .ctl (by decide)
@[simp] theorem State.msix_plt : ((s.msix m vec)).plt = s.plt := (State.msix_same s m vec) .plt (by decide)
@[simp] theorem State.msix_wdg : ((s.msix m vec)).wdg = s.wdg := (State.msix_same s m vec) .wdg (by decide)
@[simp] theorem State.msix_areas : ((s.msix m vec)).areas = s.areas := (State.msix_same s m vec) .areas (by decide)
@[simp] theorem State.msix_fps : ((s.msix m vec)).fps = s.fps := (State.msix_same s m vec) .fps (by decide)
@[simp] theorem State.msix_pol : ((s.msix m vec)).pol = s.pol := (State.msix_same s m vec) .pol (by decide)
@[simp] theorem State.msix_polLedger : ((s.msix m vec)).polLedger = s.polLedger := (State.msix_same s m vec) .polLedger (by decide)
@[simp] theorem State.msix_polMin : ((s.msix m vec)).polMin = s.polMin := (State.msix_same s m vec) .polMin (by decide)
@[simp] theorem State.msix_tamperPol : ((s.msix m vec)).tamperPol = s.tamperPol := (State.msix_same s m vec) .tamperPol (by decide)
@[simp] theorem State.msix_prof : ((s.msix m vec)).prof = s.prof := (State.msix_same s m vec) .prof (by decide)
@[simp] theorem State.msix_profCfg : ((s.msix m vec)).profCfg = s.profCfg := (State.msix_same s m vec) .profCfg (by decide)
@[simp] theorem State.msix_dcfg : ((s.msix m vec)).dcfg = s.dcfg := (State.msix_same s m vec) .dcfg (by decide)
@[simp] theorem State.msix_twl : ((s.msix m vec)).twl = s.twl := (State.msix_same s m vec) .twl (by decide)
@[simp] theorem State.msix_poolProf : ((s.msix m vec)).poolProf = s.poolProf := (State.msix_same s m vec) .poolProf (by decide)
@[simp] theorem State.msix_cfgImg : ((s.msix m vec)).cfgImg = s.cfgImg := (State.msix_same s m vec) .cfgImg (by decide)
@[simp] theorem State.msix_imm : ((s.msix m vec)).imm = s.imm := (State.msix_same s m vec) .imm (by decide)
@[simp] theorem State.msix_fca : ((s.msix m vec)).fca = s.fca := (State.msix_same s m vec) .fca (by decide)
@[simp] theorem State.msix_farm : ((s.msix m vec)).farm = s.farm := (State.msix_same s m vec) .farm (by decide)
@[simp] theorem State.msix_pool : ((s.msix m vec)).pool = s.pool := (State.msix_same s m vec) .pool (by decide)
@[simp] theorem State.msix_mins : ((s.msix m vec)).mins = s.mins := (State.msix_same s m vec) .mins (by decide)
@[simp] theorem State.msix_devfw : ((s.msix m vec)).devfw = s.devfw := (State.msix_same s m vec) .devfw (by decide)
@[simp] theorem State.msix_plat : ((s.msix m vec)).plat = s.plat := (State.msix_same s m vec) .plat (by decide)
@[simp] theorem State.msix_mwd : ((s.msix m vec)).mwd = s.mwd := (State.msix_same s m vec) .mwd (by decide)
@[simp] theorem State.msix_intw : ((s.msix m vec)).intw = s.intw := (State.msix_same s m vec) .intw (by decide)
@[simp] theorem State.msix_trace : ((s.msix m vec)).trace = s.trace := (State.msix_same s m vec) .trace (by decide)
@[simp] theorem State.msix_att : ((s.msix m vec)).att = s.att := (State.msix_same s m vec) .att (by decide)
@[simp] theorem State.msix_spdm : ((s.msix m vec)).spdm = s.spdm := (State.msix_same s m vec) .spdm (by decide)
@[simp] theorem State.msix_i3c : ((s.msix m vec)).i3c = s.i3c := (State.msix_same s m vec) .i3c (by decide)
@[simp] theorem State.msix_rings : ((s.msix m vec)).rings = s.rings := (State.msix_same s m vec) .rings (by decide)
@[simp] theorem State.msix_arb : ((s.msix m vec)).arb = s.arb := (State.msix_same s m vec) .arb (by decide)
@[simp] theorem State.msix_awaits : ((s.msix m vec)).awaits = s.awaits := (State.msix_same s m vec) .awaits (by decide)
@[simp] theorem State.msix_hdrs : ((s.msix m vec)).hdrs = s.hdrs := (State.msix_same s m vec) .hdrs (by decide)
@[simp] theorem State.msix_burin : ((s.msix m vec)).burin = s.burin := (State.msix_same s m vec) .burin (by decide)
@[simp] theorem State.msix_hash : ((s.msix m vec)).hash = s.hash := (State.msix_same s m vec) .hash (by decide)
@[simp] theorem State.msix_drbg : ((s.msix m vec)).drbg = s.drbg := (State.msix_same s m vec) .drbg (by decide)
@[simp] theorem State.msix_drawn : ((s.msix m vec)).drawn = s.drawn := (State.msix_same s m vec) .drawn (by decide)
@[simp] theorem State.msix_keys : ((s.msix m vec)).keys = s.keys := (State.msix_same s m vec) .keys (by decide)
@[simp] theorem State.msix_tamper : ((s.msix m vec)).tamper = s.tamper := (State.msix_same s m vec) .tamper (by decide)
@[simp] theorem State.msix_otp : ((s.msix m vec)).otp = s.otp := (State.msix_same s m vec) .otp (by decide)
@[simp] theorem State.msix_part : ((s.msix m vec)).part = s.part := (State.msix_same s m vec) .part (by decide)
@[simp] theorem State.msix_power : ((s.msix m vec)).power = s.power := (State.msix_same s m vec) .power (by decide)
@[simp] theorem State.msix_clk : ((s.msix m vec)).clk = s.clk := (State.msix_same s m vec) .clk (by decide)
@[simp] theorem State.msix_led : ((s.msix m vec)).led = s.led := (State.msix_same s m vec) .led (by decide)
@[simp] theorem State.msix_dev : ((s.msix m vec)).dev = s.dev := (State.msix_same s m vec) .dev (by decide)
@[simp] theorem State.msix_pending : ((s.msix m vec)).pending = s.pending := (State.msix_same s m vec) .pending (by decide)
@[simp] theorem State.msix_port (c : Fin 128) : ((s.msix m vec)).port c = s.port c := by simp [State.port]
@[simp] theorem State.msix_mb (c : Fin 128) : ((s.msix m vec)).mb c = s.mb c := by simp [State.mb]
@[simp] theorem State.msix_st (c : Fin 128) : ((s.msix m vec)).st c = s.st c := by simp [State.st]
@[simp] theorem State.msix_ch (c : Fin 128) : ((s.msix m vec)).ch c = s.ch c := by simp [State.ch]
@[simp] theorem State.msix_pl (c : Fin 128) : ((s.msix m vec)).pl c = s.pl c := by simp [State.pl]
@[simp] theorem State.msix_wd (c : Fin 128) : ((s.msix m vec)).wd c = s.wd c := by simp [State.wd]
@[simp] theorem State.msix_area (c : Fin 128) : ((s.msix m vec)).area c = s.area c := by simp [State.area]
@[simp] theorem State.msix_fp (c : Fin 64) : ((s.msix m vec)).fp c = s.fp c := by simp [State.fp]
@[simp] theorem State.msix_polOf (c : Fin 128) : ((s.msix m vec)).polOf c = s.polOf c := by simp [State.polOf]
@[simp] theorem State.msix_profOf (c : Fin 128) : ((s.msix m vec)).profOf c = s.profOf c := by simp [State.profOf]
@[simp] theorem State.msix_dirE (c : Fin 256) : ((s.msix m vec)).dirE c = s.dirE c := by simp [State.dirE]
@[simp] theorem State.msix_core (c : Fin 4) : ((s.msix m vec)).core c = s.core c := by simp [State.core]
@[simp] theorem State.msix_ep (c : Fin 8) : ((s.msix m vec)).ep c = s.ep c := by simp [State.ep]
@[simp] theorem State.msix_slot (c : Fin 256) : ((s.msix m vec)).slot c = s.slot c := by simp [State.slot]
@[simp] theorem State.msix_ring (c : Mgr) : ((s.msix m vec)).ring c = s.ring c := by simp [State.ring]

end

section

variable (s : State) (m : Mgr) (page : Fin 1024) (f : Hdr → Hdr)

theorem State.modHdr_same : Frame [.views, .hdrs] s ((s.modHdr m page f)) := State.modHdr_frame (Frame.refl _ s) rfl
@[simp] theorem State.modHdr_now : ((s.modHdr m page f)).now = s.now := (State.modHdr_same s m page f) .now (by decide)
@[simp] theorem State.modHdr_ports : ((s.modHdr m page f)).ports = s.ports := (State.modHdr_same s m page f) .ports (by decide)
@[simp] theorem State.modHdr_mbx : ((s.modHdr m page f)).mbx = s.mbx := (State.modHdr_same s m page f) .mbx (by decide)
@[simp] theorem State.modHdr_stn : ((s.modHdr m page f)).stn = s.stn := (State.modHdr_same s m page f) .stn (by decide)
@[simp] theorem State.modHdr_ctl : ((s.modHdr m page f)).ctl = s.ctl := (State.modHdr_same s m page f) .ctl (by decide)
@[simp] theorem State.modHdr_plt : ((s.modHdr m page f)).plt = s.plt := (State.modHdr_same s m page f) .plt (by decide)
@[simp] theorem State.modHdr_wdg : ((s.modHdr m page f)).wdg = s.wdg := (State.modHdr_same s m page f) .wdg (by decide)
@[simp] theorem State.modHdr_areas : ((s.modHdr m page f)).areas = s.areas := (State.modHdr_same s m page f) .areas (by decide)
@[simp] theorem State.modHdr_fps : ((s.modHdr m page f)).fps = s.fps := (State.modHdr_same s m page f) .fps (by decide)
@[simp] theorem State.modHdr_pol : ((s.modHdr m page f)).pol = s.pol := (State.modHdr_same s m page f) .pol (by decide)
@[simp] theorem State.modHdr_polLedger : ((s.modHdr m page f)).polLedger = s.polLedger := (State.modHdr_same s m page f) .polLedger (by decide)
@[simp] theorem State.modHdr_polMin : ((s.modHdr m page f)).polMin = s.polMin := (State.modHdr_same s m page f) .polMin (by decide)
@[simp] theorem State.modHdr_tamperPol : ((s.modHdr m page f)).tamperPol = s.tamperPol := (State.modHdr_same s m page f) .tamperPol (by decide)
@[simp] theorem State.modHdr_prof : ((s.modHdr m page f)).prof = s.prof := (State.modHdr_same s m page f) .prof (by decide)
@[simp] theorem State.modHdr_profCfg : ((s.modHdr m page f)).profCfg = s.profCfg := (State.modHdr_same s m page f) .profCfg (by decide)
@[simp] theorem State.modHdr_dcfg : ((s.modHdr m page f)).dcfg = s.dcfg := (State.modHdr_same s m page f) .dcfg (by decide)
@[simp] theorem State.modHdr_twl : ((s.modHdr m page f)).twl = s.twl := (State.modHdr_same s m page f) .twl (by decide)
@[simp] theorem State.modHdr_poolProf : ((s.modHdr m page f)).poolProf = s.poolProf := (State.modHdr_same s m page f) .poolProf (by decide)
@[simp] theorem State.modHdr_cfgImg : ((s.modHdr m page f)).cfgImg = s.cfgImg := (State.modHdr_same s m page f) .cfgImg (by decide)
@[simp] theorem State.modHdr_imm : ((s.modHdr m page f)).imm = s.imm := (State.modHdr_same s m page f) .imm (by decide)
@[simp] theorem State.modHdr_fca : ((s.modHdr m page f)).fca = s.fca := (State.modHdr_same s m page f) .fca (by decide)
@[simp] theorem State.modHdr_farm : ((s.modHdr m page f)).farm = s.farm := (State.modHdr_same s m page f) .farm (by decide)
@[simp] theorem State.modHdr_pool : ((s.modHdr m page f)).pool = s.pool := (State.modHdr_same s m page f) .pool (by decide)
@[simp] theorem State.modHdr_mins : ((s.modHdr m page f)).mins = s.mins := (State.modHdr_same s m page f) .mins (by decide)
@[simp] theorem State.modHdr_devfw : ((s.modHdr m page f)).devfw = s.devfw := (State.modHdr_same s m page f) .devfw (by decide)
@[simp] theorem State.modHdr_plat : ((s.modHdr m page f)).plat = s.plat := (State.modHdr_same s m page f) .plat (by decide)
@[simp] theorem State.modHdr_mwd : ((s.modHdr m page f)).mwd = s.mwd := (State.modHdr_same s m page f) .mwd (by decide)
@[simp] theorem State.modHdr_intw : ((s.modHdr m page f)).intw = s.intw := (State.modHdr_same s m page f) .intw (by decide)
@[simp] theorem State.modHdr_trace : ((s.modHdr m page f)).trace = s.trace := (State.modHdr_same s m page f) .trace (by decide)
@[simp] theorem State.modHdr_att : ((s.modHdr m page f)).att = s.att := (State.modHdr_same s m page f) .att (by decide)
@[simp] theorem State.modHdr_spdm : ((s.modHdr m page f)).spdm = s.spdm := (State.modHdr_same s m page f) .spdm (by decide)
@[simp] theorem State.modHdr_i3c : ((s.modHdr m page f)).i3c = s.i3c := (State.modHdr_same s m page f) .i3c (by decide)
@[simp] theorem State.modHdr_rings : ((s.modHdr m page f)).rings = s.rings := (State.modHdr_same s m page f) .rings (by decide)
@[simp] theorem State.modHdr_arb : ((s.modHdr m page f)).arb = s.arb := (State.modHdr_same s m page f) .arb (by decide)
@[simp] theorem State.modHdr_awaits : ((s.modHdr m page f)).awaits = s.awaits := (State.modHdr_same s m page f) .awaits (by decide)
@[simp] theorem State.modHdr_burin : ((s.modHdr m page f)).burin = s.burin := (State.modHdr_same s m page f) .burin (by decide)
@[simp] theorem State.modHdr_hash : ((s.modHdr m page f)).hash = s.hash := (State.modHdr_same s m page f) .hash (by decide)
@[simp] theorem State.modHdr_drbg : ((s.modHdr m page f)).drbg = s.drbg := (State.modHdr_same s m page f) .drbg (by decide)
@[simp] theorem State.modHdr_drawn : ((s.modHdr m page f)).drawn = s.drawn := (State.modHdr_same s m page f) .drawn (by decide)
@[simp] theorem State.modHdr_keys : ((s.modHdr m page f)).keys = s.keys := (State.modHdr_same s m page f) .keys (by decide)
@[simp] theorem State.modHdr_tamper : ((s.modHdr m page f)).tamper = s.tamper := (State.modHdr_same s m page f) .tamper (by decide)
@[simp] theorem State.modHdr_otp : ((s.modHdr m page f)).otp = s.otp := (State.modHdr_same s m page f) .otp (by decide)
@[simp] theorem State.modHdr_part : ((s.modHdr m page f)).part = s.part := (State.modHdr_same s m page f) .part (by decide)
@[simp] theorem State.modHdr_power : ((s.modHdr m page f)).power = s.power := (State.modHdr_same s m page f) .power (by decide)
@[simp] theorem State.modHdr_clk : ((s.modHdr m page f)).clk = s.clk := (State.modHdr_same s m page f) .clk (by decide)
@[simp] theorem State.modHdr_led : ((s.modHdr m page f)).led = s.led := (State.modHdr_same s m page f) .led (by decide)
@[simp] theorem State.modHdr_dev : ((s.modHdr m page f)).dev = s.dev := (State.modHdr_same s m page f) .dev (by decide)
@[simp] theorem State.modHdr_pending : ((s.modHdr m page f)).pending = s.pending := (State.modHdr_same s m page f) .pending (by decide)
@[simp] theorem State.modHdr_port (c : Fin 128) : ((s.modHdr m page f)).port c = s.port c := by simp [State.port]
@[simp] theorem State.modHdr_mb (c : Fin 128) : ((s.modHdr m page f)).mb c = s.mb c := by simp [State.mb]
@[simp] theorem State.modHdr_st (c : Fin 128) : ((s.modHdr m page f)).st c = s.st c := by simp [State.st]
@[simp] theorem State.modHdr_ch (c : Fin 128) : ((s.modHdr m page f)).ch c = s.ch c := by simp [State.ch]
@[simp] theorem State.modHdr_pl (c : Fin 128) : ((s.modHdr m page f)).pl c = s.pl c := by simp [State.pl]
@[simp] theorem State.modHdr_wd (c : Fin 128) : ((s.modHdr m page f)).wd c = s.wd c := by simp [State.wd]
@[simp] theorem State.modHdr_area (c : Fin 128) : ((s.modHdr m page f)).area c = s.area c := by simp [State.area]
@[simp] theorem State.modHdr_fp (c : Fin 64) : ((s.modHdr m page f)).fp c = s.fp c := by simp [State.fp]
@[simp] theorem State.modHdr_polOf (c : Fin 128) : ((s.modHdr m page f)).polOf c = s.polOf c := by simp [State.polOf]
@[simp] theorem State.modHdr_profOf (c : Fin 128) : ((s.modHdr m page f)).profOf c = s.profOf c := by simp [State.profOf]
@[simp] theorem State.modHdr_dirE (c : Fin 256) : ((s.modHdr m page f)).dirE c = s.dirE c := by simp [State.dirE]
@[simp] theorem State.modHdr_core (c : Fin 4) : ((s.modHdr m page f)).core c = s.core c := by simp [State.core]
@[simp] theorem State.modHdr_ep (c : Fin 8) : ((s.modHdr m page f)).ep c = s.ep c := by simp [State.ep]
@[simp] theorem State.modHdr_slot (c : Fin 256) : ((s.modHdr m page f)).slot c = s.slot c := by simp [State.slot]
@[simp] theorem State.modHdr_ring (c : Mgr) : ((s.modHdr m page f)).ring c = s.ring c := by simp [State.ring]

end

section

variable (s : State) (m : Mgr) (off : Nat)

theorem State.ignoredWrite_same : Frame [.views, .hdrs] s ((s.ignoredWrite m off)) := State.ignoredWrite_frame (Frame.refl _ s) rfl
@[simp] theorem State.ignoredWrite_now : ((s.ignoredWrite m off)).now = s.now := (State.ignoredWrite_same s m off) .now (by decide)
@[simp] theorem State.ignoredWrite_ports : ((s.ignoredWrite m off)).ports = s.ports := (State.ignoredWrite_same s m off) .ports (by decide)
@[simp] theorem State.ignoredWrite_mbx : ((s.ignoredWrite m off)).mbx = s.mbx := (State.ignoredWrite_same s m off) .mbx (by decide)
@[simp] theorem State.ignoredWrite_stn : ((s.ignoredWrite m off)).stn = s.stn := (State.ignoredWrite_same s m off) .stn (by decide)
@[simp] theorem State.ignoredWrite_ctl : ((s.ignoredWrite m off)).ctl = s.ctl := (State.ignoredWrite_same s m off) .ctl (by decide)
@[simp] theorem State.ignoredWrite_plt : ((s.ignoredWrite m off)).plt = s.plt := (State.ignoredWrite_same s m off) .plt (by decide)
@[simp] theorem State.ignoredWrite_wdg : ((s.ignoredWrite m off)).wdg = s.wdg := (State.ignoredWrite_same s m off) .wdg (by decide)
@[simp] theorem State.ignoredWrite_areas : ((s.ignoredWrite m off)).areas = s.areas := (State.ignoredWrite_same s m off) .areas (by decide)
@[simp] theorem State.ignoredWrite_fps : ((s.ignoredWrite m off)).fps = s.fps := (State.ignoredWrite_same s m off) .fps (by decide)
@[simp] theorem State.ignoredWrite_pol : ((s.ignoredWrite m off)).pol = s.pol := (State.ignoredWrite_same s m off) .pol (by decide)
@[simp] theorem State.ignoredWrite_polLedger : ((s.ignoredWrite m off)).polLedger = s.polLedger := (State.ignoredWrite_same s m off) .polLedger (by decide)
@[simp] theorem State.ignoredWrite_polMin : ((s.ignoredWrite m off)).polMin = s.polMin := (State.ignoredWrite_same s m off) .polMin (by decide)
@[simp] theorem State.ignoredWrite_tamperPol : ((s.ignoredWrite m off)).tamperPol = s.tamperPol := (State.ignoredWrite_same s m off) .tamperPol (by decide)
@[simp] theorem State.ignoredWrite_prof : ((s.ignoredWrite m off)).prof = s.prof := (State.ignoredWrite_same s m off) .prof (by decide)
@[simp] theorem State.ignoredWrite_profCfg : ((s.ignoredWrite m off)).profCfg = s.profCfg := (State.ignoredWrite_same s m off) .profCfg (by decide)
@[simp] theorem State.ignoredWrite_dcfg : ((s.ignoredWrite m off)).dcfg = s.dcfg := (State.ignoredWrite_same s m off) .dcfg (by decide)
@[simp] theorem State.ignoredWrite_twl : ((s.ignoredWrite m off)).twl = s.twl := (State.ignoredWrite_same s m off) .twl (by decide)
@[simp] theorem State.ignoredWrite_poolProf : ((s.ignoredWrite m off)).poolProf = s.poolProf := (State.ignoredWrite_same s m off) .poolProf (by decide)
@[simp] theorem State.ignoredWrite_cfgImg : ((s.ignoredWrite m off)).cfgImg = s.cfgImg := (State.ignoredWrite_same s m off) .cfgImg (by decide)
@[simp] theorem State.ignoredWrite_imm : ((s.ignoredWrite m off)).imm = s.imm := (State.ignoredWrite_same s m off) .imm (by decide)
@[simp] theorem State.ignoredWrite_fca : ((s.ignoredWrite m off)).fca = s.fca := (State.ignoredWrite_same s m off) .fca (by decide)
@[simp] theorem State.ignoredWrite_farm : ((s.ignoredWrite m off)).farm = s.farm := (State.ignoredWrite_same s m off) .farm (by decide)
@[simp] theorem State.ignoredWrite_pool : ((s.ignoredWrite m off)).pool = s.pool := (State.ignoredWrite_same s m off) .pool (by decide)
@[simp] theorem State.ignoredWrite_mins : ((s.ignoredWrite m off)).mins = s.mins := (State.ignoredWrite_same s m off) .mins (by decide)
@[simp] theorem State.ignoredWrite_devfw : ((s.ignoredWrite m off)).devfw = s.devfw := (State.ignoredWrite_same s m off) .devfw (by decide)
@[simp] theorem State.ignoredWrite_plat : ((s.ignoredWrite m off)).plat = s.plat := (State.ignoredWrite_same s m off) .plat (by decide)
@[simp] theorem State.ignoredWrite_mwd : ((s.ignoredWrite m off)).mwd = s.mwd := (State.ignoredWrite_same s m off) .mwd (by decide)
@[simp] theorem State.ignoredWrite_intw : ((s.ignoredWrite m off)).intw = s.intw := (State.ignoredWrite_same s m off) .intw (by decide)
@[simp] theorem State.ignoredWrite_trace : ((s.ignoredWrite m off)).trace = s.trace := (State.ignoredWrite_same s m off) .trace (by decide)
@[simp] theorem State.ignoredWrite_att : ((s.ignoredWrite m off)).att = s.att := (State.ignoredWrite_same s m off) .att (by decide)
@[simp] theorem State.ignoredWrite_spdm : ((s.ignoredWrite m off)).spdm = s.spdm := (State.ignoredWrite_same s m off) .spdm (by decide)
@[simp] theorem State.ignoredWrite_i3c : ((s.ignoredWrite m off)).i3c = s.i3c := (State.ignoredWrite_same s m off) .i3c (by decide)
@[simp] theorem State.ignoredWrite_rings : ((s.ignoredWrite m off)).rings = s.rings := (State.ignoredWrite_same s m off) .rings (by decide)
@[simp] theorem State.ignoredWrite_arb : ((s.ignoredWrite m off)).arb = s.arb := (State.ignoredWrite_same s m off) .arb (by decide)
@[simp] theorem State.ignoredWrite_awaits : ((s.ignoredWrite m off)).awaits = s.awaits := (State.ignoredWrite_same s m off) .awaits (by decide)
@[simp] theorem State.ignoredWrite_burin : ((s.ignoredWrite m off)).burin = s.burin := (State.ignoredWrite_same s m off) .burin (by decide)
@[simp] theorem State.ignoredWrite_hash : ((s.ignoredWrite m off)).hash = s.hash := (State.ignoredWrite_same s m off) .hash (by decide)
@[simp] theorem State.ignoredWrite_drbg : ((s.ignoredWrite m off)).drbg = s.drbg := (State.ignoredWrite_same s m off) .drbg (by decide)
@[simp] theorem State.ignoredWrite_drawn : ((s.ignoredWrite m off)).drawn = s.drawn := (State.ignoredWrite_same s m off) .drawn (by decide)
@[simp] theorem State.ignoredWrite_keys : ((s.ignoredWrite m off)).keys = s.keys := (State.ignoredWrite_same s m off) .keys (by decide)
@[simp] theorem State.ignoredWrite_tamper : ((s.ignoredWrite m off)).tamper = s.tamper := (State.ignoredWrite_same s m off) .tamper (by decide)
@[simp] theorem State.ignoredWrite_otp : ((s.ignoredWrite m off)).otp = s.otp := (State.ignoredWrite_same s m off) .otp (by decide)
@[simp] theorem State.ignoredWrite_part : ((s.ignoredWrite m off)).part = s.part := (State.ignoredWrite_same s m off) .part (by decide)
@[simp] theorem State.ignoredWrite_power : ((s.ignoredWrite m off)).power = s.power := (State.ignoredWrite_same s m off) .power (by decide)
@[simp] theorem State.ignoredWrite_clk : ((s.ignoredWrite m off)).clk = s.clk := (State.ignoredWrite_same s m off) .clk (by decide)
@[simp] theorem State.ignoredWrite_led : ((s.ignoredWrite m off)).led = s.led := (State.ignoredWrite_same s m off) .led (by decide)
@[simp] theorem State.ignoredWrite_dev : ((s.ignoredWrite m off)).dev = s.dev := (State.ignoredWrite_same s m off) .dev (by decide)
@[simp] theorem State.ignoredWrite_pending : ((s.ignoredWrite m off)).pending = s.pending := (State.ignoredWrite_same s m off) .pending (by decide)
@[simp] theorem State.ignoredWrite_port (c : Fin 128) : ((s.ignoredWrite m off)).port c = s.port c := by simp [State.port]
@[simp] theorem State.ignoredWrite_mb (c : Fin 128) : ((s.ignoredWrite m off)).mb c = s.mb c := by simp [State.mb]
@[simp] theorem State.ignoredWrite_st (c : Fin 128) : ((s.ignoredWrite m off)).st c = s.st c := by simp [State.st]
@[simp] theorem State.ignoredWrite_ch (c : Fin 128) : ((s.ignoredWrite m off)).ch c = s.ch c := by simp [State.ch]
@[simp] theorem State.ignoredWrite_pl (c : Fin 128) : ((s.ignoredWrite m off)).pl c = s.pl c := by simp [State.pl]
@[simp] theorem State.ignoredWrite_wd (c : Fin 128) : ((s.ignoredWrite m off)).wd c = s.wd c := by simp [State.wd]
@[simp] theorem State.ignoredWrite_area (c : Fin 128) : ((s.ignoredWrite m off)).area c = s.area c := by simp [State.area]
@[simp] theorem State.ignoredWrite_fp (c : Fin 64) : ((s.ignoredWrite m off)).fp c = s.fp c := by simp [State.fp]
@[simp] theorem State.ignoredWrite_polOf (c : Fin 128) : ((s.ignoredWrite m off)).polOf c = s.polOf c := by simp [State.polOf]
@[simp] theorem State.ignoredWrite_profOf (c : Fin 128) : ((s.ignoredWrite m off)).profOf c = s.profOf c := by simp [State.profOf]
@[simp] theorem State.ignoredWrite_dirE (c : Fin 256) : ((s.ignoredWrite m off)).dirE c = s.dirE c := by simp [State.dirE]
@[simp] theorem State.ignoredWrite_core (c : Fin 4) : ((s.ignoredWrite m off)).core c = s.core c := by simp [State.core]
@[simp] theorem State.ignoredWrite_ep (c : Fin 8) : ((s.ignoredWrite m off)).ep c = s.ep c := by simp [State.ep]
@[simp] theorem State.ignoredWrite_slot (c : Fin 256) : ((s.ignoredWrite m off)).slot c = s.slot c := by simp [State.slot]
@[simp] theorem State.ignoredWrite_ring (c : Mgr) : ((s.ignoredWrite m off)).ring c = s.ring c := by simp [State.ring]

end

section

variable (s : State) (m : Mgr)

theorem State.countUnmapped_same : Frame [.views] s ((s.countUnmapped m)) := State.countUnmapped_frame (Frame.refl _ s) rfl
@[simp] theorem State.countUnmapped_now : ((s.countUnmapped m)).now = s.now := (State.countUnmapped_same s m) .now (by decide)
@[simp] theorem State.countUnmapped_ports : ((s.countUnmapped m)).ports = s.ports := (State.countUnmapped_same s m) .ports (by decide)
@[simp] theorem State.countUnmapped_mbx : ((s.countUnmapped m)).mbx = s.mbx := (State.countUnmapped_same s m) .mbx (by decide)
@[simp] theorem State.countUnmapped_stn : ((s.countUnmapped m)).stn = s.stn := (State.countUnmapped_same s m) .stn (by decide)
@[simp] theorem State.countUnmapped_ctl : ((s.countUnmapped m)).ctl = s.ctl := (State.countUnmapped_same s m) .ctl (by decide)
@[simp] theorem State.countUnmapped_plt : ((s.countUnmapped m)).plt = s.plt := (State.countUnmapped_same s m) .plt (by decide)
@[simp] theorem State.countUnmapped_wdg : ((s.countUnmapped m)).wdg = s.wdg := (State.countUnmapped_same s m) .wdg (by decide)
@[simp] theorem State.countUnmapped_areas : ((s.countUnmapped m)).areas = s.areas := (State.countUnmapped_same s m) .areas (by decide)
@[simp] theorem State.countUnmapped_fps : ((s.countUnmapped m)).fps = s.fps := (State.countUnmapped_same s m) .fps (by decide)
@[simp] theorem State.countUnmapped_pol : ((s.countUnmapped m)).pol = s.pol := (State.countUnmapped_same s m) .pol (by decide)
@[simp] theorem State.countUnmapped_polLedger : ((s.countUnmapped m)).polLedger = s.polLedger := (State.countUnmapped_same s m) .polLedger (by decide)
@[simp] theorem State.countUnmapped_polMin : ((s.countUnmapped m)).polMin = s.polMin := (State.countUnmapped_same s m) .polMin (by decide)
@[simp] theorem State.countUnmapped_tamperPol : ((s.countUnmapped m)).tamperPol = s.tamperPol := (State.countUnmapped_same s m) .tamperPol (by decide)
@[simp] theorem State.countUnmapped_prof : ((s.countUnmapped m)).prof = s.prof := (State.countUnmapped_same s m) .prof (by decide)
@[simp] theorem State.countUnmapped_profCfg : ((s.countUnmapped m)).profCfg = s.profCfg := (State.countUnmapped_same s m) .profCfg (by decide)
@[simp] theorem State.countUnmapped_dcfg : ((s.countUnmapped m)).dcfg = s.dcfg := (State.countUnmapped_same s m) .dcfg (by decide)
@[simp] theorem State.countUnmapped_twl : ((s.countUnmapped m)).twl = s.twl := (State.countUnmapped_same s m) .twl (by decide)
@[simp] theorem State.countUnmapped_poolProf : ((s.countUnmapped m)).poolProf = s.poolProf := (State.countUnmapped_same s m) .poolProf (by decide)
@[simp] theorem State.countUnmapped_cfgImg : ((s.countUnmapped m)).cfgImg = s.cfgImg := (State.countUnmapped_same s m) .cfgImg (by decide)
@[simp] theorem State.countUnmapped_imm : ((s.countUnmapped m)).imm = s.imm := (State.countUnmapped_same s m) .imm (by decide)
@[simp] theorem State.countUnmapped_fca : ((s.countUnmapped m)).fca = s.fca := (State.countUnmapped_same s m) .fca (by decide)
@[simp] theorem State.countUnmapped_farm : ((s.countUnmapped m)).farm = s.farm := (State.countUnmapped_same s m) .farm (by decide)
@[simp] theorem State.countUnmapped_pool : ((s.countUnmapped m)).pool = s.pool := (State.countUnmapped_same s m) .pool (by decide)
@[simp] theorem State.countUnmapped_mins : ((s.countUnmapped m)).mins = s.mins := (State.countUnmapped_same s m) .mins (by decide)
@[simp] theorem State.countUnmapped_devfw : ((s.countUnmapped m)).devfw = s.devfw := (State.countUnmapped_same s m) .devfw (by decide)
@[simp] theorem State.countUnmapped_plat : ((s.countUnmapped m)).plat = s.plat := (State.countUnmapped_same s m) .plat (by decide)
@[simp] theorem State.countUnmapped_mwd : ((s.countUnmapped m)).mwd = s.mwd := (State.countUnmapped_same s m) .mwd (by decide)
@[simp] theorem State.countUnmapped_intw : ((s.countUnmapped m)).intw = s.intw := (State.countUnmapped_same s m) .intw (by decide)
@[simp] theorem State.countUnmapped_trace : ((s.countUnmapped m)).trace = s.trace := (State.countUnmapped_same s m) .trace (by decide)
@[simp] theorem State.countUnmapped_att : ((s.countUnmapped m)).att = s.att := (State.countUnmapped_same s m) .att (by decide)
@[simp] theorem State.countUnmapped_spdm : ((s.countUnmapped m)).spdm = s.spdm := (State.countUnmapped_same s m) .spdm (by decide)
@[simp] theorem State.countUnmapped_i3c : ((s.countUnmapped m)).i3c = s.i3c := (State.countUnmapped_same s m) .i3c (by decide)
@[simp] theorem State.countUnmapped_rings : ((s.countUnmapped m)).rings = s.rings := (State.countUnmapped_same s m) .rings (by decide)
@[simp] theorem State.countUnmapped_arb : ((s.countUnmapped m)).arb = s.arb := (State.countUnmapped_same s m) .arb (by decide)
@[simp] theorem State.countUnmapped_awaits : ((s.countUnmapped m)).awaits = s.awaits := (State.countUnmapped_same s m) .awaits (by decide)
@[simp] theorem State.countUnmapped_hdrs : ((s.countUnmapped m)).hdrs = s.hdrs := (State.countUnmapped_same s m) .hdrs (by decide)
@[simp] theorem State.countUnmapped_burin : ((s.countUnmapped m)).burin = s.burin := (State.countUnmapped_same s m) .burin (by decide)
@[simp] theorem State.countUnmapped_hash : ((s.countUnmapped m)).hash = s.hash := (State.countUnmapped_same s m) .hash (by decide)
@[simp] theorem State.countUnmapped_drbg : ((s.countUnmapped m)).drbg = s.drbg := (State.countUnmapped_same s m) .drbg (by decide)
@[simp] theorem State.countUnmapped_drawn : ((s.countUnmapped m)).drawn = s.drawn := (State.countUnmapped_same s m) .drawn (by decide)
@[simp] theorem State.countUnmapped_keys : ((s.countUnmapped m)).keys = s.keys := (State.countUnmapped_same s m) .keys (by decide)
@[simp] theorem State.countUnmapped_tamper : ((s.countUnmapped m)).tamper = s.tamper := (State.countUnmapped_same s m) .tamper (by decide)
@[simp] theorem State.countUnmapped_otp : ((s.countUnmapped m)).otp = s.otp := (State.countUnmapped_same s m) .otp (by decide)
@[simp] theorem State.countUnmapped_part : ((s.countUnmapped m)).part = s.part := (State.countUnmapped_same s m) .part (by decide)
@[simp] theorem State.countUnmapped_power : ((s.countUnmapped m)).power = s.power := (State.countUnmapped_same s m) .power (by decide)
@[simp] theorem State.countUnmapped_clk : ((s.countUnmapped m)).clk = s.clk := (State.countUnmapped_same s m) .clk (by decide)
@[simp] theorem State.countUnmapped_led : ((s.countUnmapped m)).led = s.led := (State.countUnmapped_same s m) .led (by decide)
@[simp] theorem State.countUnmapped_dev : ((s.countUnmapped m)).dev = s.dev := (State.countUnmapped_same s m) .dev (by decide)
@[simp] theorem State.countUnmapped_pending : ((s.countUnmapped m)).pending = s.pending := (State.countUnmapped_same s m) .pending (by decide)
@[simp] theorem State.countUnmapped_port (c : Fin 128) : ((s.countUnmapped m)).port c = s.port c := by simp [State.port]
@[simp] theorem State.countUnmapped_mb (c : Fin 128) : ((s.countUnmapped m)).mb c = s.mb c := by simp [State.mb]
@[simp] theorem State.countUnmapped_st (c : Fin 128) : ((s.countUnmapped m)).st c = s.st c := by simp [State.st]
@[simp] theorem State.countUnmapped_ch (c : Fin 128) : ((s.countUnmapped m)).ch c = s.ch c := by simp [State.ch]
@[simp] theorem State.countUnmapped_pl (c : Fin 128) : ((s.countUnmapped m)).pl c = s.pl c := by simp [State.pl]
@[simp] theorem State.countUnmapped_wd (c : Fin 128) : ((s.countUnmapped m)).wd c = s.wd c := by simp [State.wd]
@[simp] theorem State.countUnmapped_area (c : Fin 128) : ((s.countUnmapped m)).area c = s.area c := by simp [State.area]
@[simp] theorem State.countUnmapped_fp (c : Fin 64) : ((s.countUnmapped m)).fp c = s.fp c := by simp [State.fp]
@[simp] theorem State.countUnmapped_polOf (c : Fin 128) : ((s.countUnmapped m)).polOf c = s.polOf c := by simp [State.polOf]
@[simp] theorem State.countUnmapped_profOf (c : Fin 128) : ((s.countUnmapped m)).profOf c = s.profOf c := by simp [State.profOf]
@[simp] theorem State.countUnmapped_dirE (c : Fin 256) : ((s.countUnmapped m)).dirE c = s.dirE c := by simp [State.dirE]
@[simp] theorem State.countUnmapped_core (c : Fin 4) : ((s.countUnmapped m)).core c = s.core c := by simp [State.core]
@[simp] theorem State.countUnmapped_ep (c : Fin 8) : ((s.countUnmapped m)).ep c = s.ep c := by simp [State.ep]
@[simp] theorem State.countUnmapped_slot (c : Fin 256) : ((s.countUnmapped m)).slot c = s.slot c := by simp [State.slot]
@[simp] theorem State.countUnmapped_ring (c : Mgr) : ((s.countUnmapped m)).ring c = s.ring c := by simp [State.ring]

end

section

variable (s : State) (d : DevState)

theorem State.setDev_same : Frame [.trace, .rings, .dev] s ((s.setDev d)) := State.setDev_frame (Frame.refl _ s) rfl
@[simp] theorem State.setDev_now : ((s.setDev d)).now = s.now := (State.setDev_same s d) .now (by decide)
@[simp] theorem State.setDev_ports : ((s.setDev d)).ports = s.ports := (State.setDev_same s d) .ports (by decide)
@[simp] theorem State.setDev_mbx : ((s.setDev d)).mbx = s.mbx := (State.setDev_same s d) .mbx (by decide)
@[simp] theorem State.setDev_stn : ((s.setDev d)).stn = s.stn := (State.setDev_same s d) .stn (by decide)
@[simp] theorem State.setDev_ctl : ((s.setDev d)).ctl = s.ctl := (State.setDev_same s d) .ctl (by decide)
@[simp] theorem State.setDev_plt : ((s.setDev d)).plt = s.plt := (State.setDev_same s d) .plt (by decide)
@[simp] theorem State.setDev_wdg : ((s.setDev d)).wdg = s.wdg := (State.setDev_same s d) .wdg (by decide)
@[simp] theorem State.setDev_areas : ((s.setDev d)).areas = s.areas := (State.setDev_same s d) .areas (by decide)
@[simp] theorem State.setDev_fps : ((s.setDev d)).fps = s.fps := (State.setDev_same s d) .fps (by decide)
@[simp] theorem State.setDev_pol : ((s.setDev d)).pol = s.pol := (State.setDev_same s d) .pol (by decide)
@[simp] theorem State.setDev_polLedger : ((s.setDev d)).polLedger = s.polLedger := (State.setDev_same s d) .polLedger (by decide)
@[simp] theorem State.setDev_polMin : ((s.setDev d)).polMin = s.polMin := (State.setDev_same s d) .polMin (by decide)
@[simp] theorem State.setDev_tamperPol : ((s.setDev d)).tamperPol = s.tamperPol := (State.setDev_same s d) .tamperPol (by decide)
@[simp] theorem State.setDev_prof : ((s.setDev d)).prof = s.prof := (State.setDev_same s d) .prof (by decide)
@[simp] theorem State.setDev_profCfg : ((s.setDev d)).profCfg = s.profCfg := (State.setDev_same s d) .profCfg (by decide)
@[simp] theorem State.setDev_dcfg : ((s.setDev d)).dcfg = s.dcfg := (State.setDev_same s d) .dcfg (by decide)
@[simp] theorem State.setDev_twl : ((s.setDev d)).twl = s.twl := (State.setDev_same s d) .twl (by decide)
@[simp] theorem State.setDev_poolProf : ((s.setDev d)).poolProf = s.poolProf := (State.setDev_same s d) .poolProf (by decide)
@[simp] theorem State.setDev_cfgImg : ((s.setDev d)).cfgImg = s.cfgImg := (State.setDev_same s d) .cfgImg (by decide)
@[simp] theorem State.setDev_imm : ((s.setDev d)).imm = s.imm := (State.setDev_same s d) .imm (by decide)
@[simp] theorem State.setDev_fca : ((s.setDev d)).fca = s.fca := (State.setDev_same s d) .fca (by decide)
@[simp] theorem State.setDev_farm : ((s.setDev d)).farm = s.farm := (State.setDev_same s d) .farm (by decide)
@[simp] theorem State.setDev_pool : ((s.setDev d)).pool = s.pool := (State.setDev_same s d) .pool (by decide)
@[simp] theorem State.setDev_mins : ((s.setDev d)).mins = s.mins := (State.setDev_same s d) .mins (by decide)
@[simp] theorem State.setDev_devfw : ((s.setDev d)).devfw = s.devfw := (State.setDev_same s d) .devfw (by decide)
@[simp] theorem State.setDev_plat : ((s.setDev d)).plat = s.plat := (State.setDev_same s d) .plat (by decide)
@[simp] theorem State.setDev_mwd : ((s.setDev d)).mwd = s.mwd := (State.setDev_same s d) .mwd (by decide)
@[simp] theorem State.setDev_intw : ((s.setDev d)).intw = s.intw := (State.setDev_same s d) .intw (by decide)
@[simp] theorem State.setDev_att : ((s.setDev d)).att = s.att := (State.setDev_same s d) .att (by decide)
@[simp] theorem State.setDev_spdm : ((s.setDev d)).spdm = s.spdm := (State.setDev_same s d) .spdm (by decide)
@[simp] theorem State.setDev_i3c : ((s.setDev d)).i3c = s.i3c := (State.setDev_same s d) .i3c (by decide)
@[simp] theorem State.setDev_arb : ((s.setDev d)).arb = s.arb := (State.setDev_same s d) .arb (by decide)
@[simp] theorem State.setDev_views : ((s.setDev d)).views = s.views := (State.setDev_same s d) .views (by decide)
@[simp] theorem State.setDev_awaits : ((s.setDev d)).awaits = s.awaits := (State.setDev_same s d) .awaits (by decide)
@[simp] theorem State.setDev_hdrs : ((s.setDev d)).hdrs = s.hdrs := (State.setDev_same s d) .hdrs (by decide)
@[simp] theorem State.setDev_burin : ((s.setDev d)).burin = s.burin := (State.setDev_same s d) .burin (by decide)
@[simp] theorem State.setDev_hash : ((s.setDev d)).hash = s.hash := (State.setDev_same s d) .hash (by decide)
@[simp] theorem State.setDev_drbg : ((s.setDev d)).drbg = s.drbg := (State.setDev_same s d) .drbg (by decide)
@[simp] theorem State.setDev_drawn : ((s.setDev d)).drawn = s.drawn := (State.setDev_same s d) .drawn (by decide)
@[simp] theorem State.setDev_keys : ((s.setDev d)).keys = s.keys := (State.setDev_same s d) .keys (by decide)
@[simp] theorem State.setDev_tamper : ((s.setDev d)).tamper = s.tamper := (State.setDev_same s d) .tamper (by decide)
@[simp] theorem State.setDev_otp : ((s.setDev d)).otp = s.otp := (State.setDev_same s d) .otp (by decide)
@[simp] theorem State.setDev_part : ((s.setDev d)).part = s.part := (State.setDev_same s d) .part (by decide)
@[simp] theorem State.setDev_power : ((s.setDev d)).power = s.power := (State.setDev_same s d) .power (by decide)
@[simp] theorem State.setDev_clk : ((s.setDev d)).clk = s.clk := (State.setDev_same s d) .clk (by decide)
@[simp] theorem State.setDev_led : ((s.setDev d)).led = s.led := (State.setDev_same s d) .led (by decide)
@[simp] theorem State.setDev_pending : ((s.setDev d)).pending = s.pending := (State.setDev_same s d) .pending (by decide)
@[simp] theorem State.setDev_port (c : Fin 128) : ((s.setDev d)).port c = s.port c := by simp [State.port]
@[simp] theorem State.setDev_mb (c : Fin 128) : ((s.setDev d)).mb c = s.mb c := by simp [State.mb]
@[simp] theorem State.setDev_st (c : Fin 128) : ((s.setDev d)).st c = s.st c := by simp [State.st]
@[simp] theorem State.setDev_ch (c : Fin 128) : ((s.setDev d)).ch c = s.ch c := by simp [State.ch]
@[simp] theorem State.setDev_pl (c : Fin 128) : ((s.setDev d)).pl c = s.pl c := by simp [State.pl]
@[simp] theorem State.setDev_wd (c : Fin 128) : ((s.setDev d)).wd c = s.wd c := by simp [State.wd]
@[simp] theorem State.setDev_area (c : Fin 128) : ((s.setDev d)).area c = s.area c := by simp [State.area]
@[simp] theorem State.setDev_fp (c : Fin 64) : ((s.setDev d)).fp c = s.fp c := by simp [State.fp]
@[simp] theorem State.setDev_polOf (c : Fin 128) : ((s.setDev d)).polOf c = s.polOf c := by simp [State.polOf]
@[simp] theorem State.setDev_profOf (c : Fin 128) : ((s.setDev d)).profOf c = s.profOf c := by simp [State.profOf]
@[simp] theorem State.setDev_dirE (c : Fin 256) : ((s.setDev d)).dirE c = s.dirE c := by simp [State.dirE]
@[simp] theorem State.setDev_core (c : Fin 4) : ((s.setDev d)).core c = s.core c := by simp [State.core]
@[simp] theorem State.setDev_ep (c : Fin 8) : ((s.setDev d)).ep c = s.ep c := by simp [State.ep]
@[simp] theorem State.setDev_slot (c : Fin 256) : ((s.setDev d)).slot c = s.slot c := by simp [State.slot]
@[simp] theorem State.setDev_view (c : Mgr) : ((s.setDev d)).view c = s.view c := by simp [State.view]

end

section

variable (s : State) (n : Fin 128) (op : Nat) (bs : List Byte)

theorem State.reply_same : Frame [.ports] s ((s.reply n op bs)) := State.reply_frame (Frame.refl _ s) rfl
@[simp] theorem State.reply_now : ((s.reply n op bs)).now = s.now := (State.reply_same s n op bs) .now (by decide)
@[simp] theorem State.reply_mbx : ((s.reply n op bs)).mbx = s.mbx := (State.reply_same s n op bs) .mbx (by decide)
@[simp] theorem State.reply_stn : ((s.reply n op bs)).stn = s.stn := (State.reply_same s n op bs) .stn (by decide)
@[simp] theorem State.reply_ctl : ((s.reply n op bs)).ctl = s.ctl := (State.reply_same s n op bs) .ctl (by decide)
@[simp] theorem State.reply_plt : ((s.reply n op bs)).plt = s.plt := (State.reply_same s n op bs) .plt (by decide)
@[simp] theorem State.reply_wdg : ((s.reply n op bs)).wdg = s.wdg := (State.reply_same s n op bs) .wdg (by decide)
@[simp] theorem State.reply_areas : ((s.reply n op bs)).areas = s.areas := (State.reply_same s n op bs) .areas (by decide)
@[simp] theorem State.reply_fps : ((s.reply n op bs)).fps = s.fps := (State.reply_same s n op bs) .fps (by decide)
@[simp] theorem State.reply_pol : ((s.reply n op bs)).pol = s.pol := (State.reply_same s n op bs) .pol (by decide)
@[simp] theorem State.reply_polLedger : ((s.reply n op bs)).polLedger = s.polLedger := (State.reply_same s n op bs) .polLedger (by decide)
@[simp] theorem State.reply_polMin : ((s.reply n op bs)).polMin = s.polMin := (State.reply_same s n op bs) .polMin (by decide)
@[simp] theorem State.reply_tamperPol : ((s.reply n op bs)).tamperPol = s.tamperPol := (State.reply_same s n op bs) .tamperPol (by decide)
@[simp] theorem State.reply_prof : ((s.reply n op bs)).prof = s.prof := (State.reply_same s n op bs) .prof (by decide)
@[simp] theorem State.reply_profCfg : ((s.reply n op bs)).profCfg = s.profCfg := (State.reply_same s n op bs) .profCfg (by decide)
@[simp] theorem State.reply_dcfg : ((s.reply n op bs)).dcfg = s.dcfg := (State.reply_same s n op bs) .dcfg (by decide)
@[simp] theorem State.reply_twl : ((s.reply n op bs)).twl = s.twl := (State.reply_same s n op bs) .twl (by decide)
@[simp] theorem State.reply_poolProf : ((s.reply n op bs)).poolProf = s.poolProf := (State.reply_same s n op bs) .poolProf (by decide)
@[simp] theorem State.reply_cfgImg : ((s.reply n op bs)).cfgImg = s.cfgImg := (State.reply_same s n op bs) .cfgImg (by decide)
@[simp] theorem State.reply_imm : ((s.reply n op bs)).imm = s.imm := (State.reply_same s n op bs) .imm (by decide)
@[simp] theorem State.reply_fca : ((s.reply n op bs)).fca = s.fca := (State.reply_same s n op bs) .fca (by decide)
@[simp] theorem State.reply_farm : ((s.reply n op bs)).farm = s.farm := (State.reply_same s n op bs) .farm (by decide)
@[simp] theorem State.reply_pool : ((s.reply n op bs)).pool = s.pool := (State.reply_same s n op bs) .pool (by decide)
@[simp] theorem State.reply_mins : ((s.reply n op bs)).mins = s.mins := (State.reply_same s n op bs) .mins (by decide)
@[simp] theorem State.reply_devfw : ((s.reply n op bs)).devfw = s.devfw := (State.reply_same s n op bs) .devfw (by decide)
@[simp] theorem State.reply_plat : ((s.reply n op bs)).plat = s.plat := (State.reply_same s n op bs) .plat (by decide)
@[simp] theorem State.reply_mwd : ((s.reply n op bs)).mwd = s.mwd := (State.reply_same s n op bs) .mwd (by decide)
@[simp] theorem State.reply_intw : ((s.reply n op bs)).intw = s.intw := (State.reply_same s n op bs) .intw (by decide)
@[simp] theorem State.reply_trace : ((s.reply n op bs)).trace = s.trace := (State.reply_same s n op bs) .trace (by decide)
@[simp] theorem State.reply_att : ((s.reply n op bs)).att = s.att := (State.reply_same s n op bs) .att (by decide)
@[simp] theorem State.reply_spdm : ((s.reply n op bs)).spdm = s.spdm := (State.reply_same s n op bs) .spdm (by decide)
@[simp] theorem State.reply_i3c : ((s.reply n op bs)).i3c = s.i3c := (State.reply_same s n op bs) .i3c (by decide)
@[simp] theorem State.reply_rings : ((s.reply n op bs)).rings = s.rings := (State.reply_same s n op bs) .rings (by decide)
@[simp] theorem State.reply_arb : ((s.reply n op bs)).arb = s.arb := (State.reply_same s n op bs) .arb (by decide)
@[simp] theorem State.reply_views : ((s.reply n op bs)).views = s.views := (State.reply_same s n op bs) .views (by decide)
@[simp] theorem State.reply_awaits : ((s.reply n op bs)).awaits = s.awaits := (State.reply_same s n op bs) .awaits (by decide)
@[simp] theorem State.reply_hdrs : ((s.reply n op bs)).hdrs = s.hdrs := (State.reply_same s n op bs) .hdrs (by decide)
@[simp] theorem State.reply_burin : ((s.reply n op bs)).burin = s.burin := (State.reply_same s n op bs) .burin (by decide)
@[simp] theorem State.reply_hash : ((s.reply n op bs)).hash = s.hash := (State.reply_same s n op bs) .hash (by decide)
@[simp] theorem State.reply_drbg : ((s.reply n op bs)).drbg = s.drbg := (State.reply_same s n op bs) .drbg (by decide)
@[simp] theorem State.reply_drawn : ((s.reply n op bs)).drawn = s.drawn := (State.reply_same s n op bs) .drawn (by decide)
@[simp] theorem State.reply_keys : ((s.reply n op bs)).keys = s.keys := (State.reply_same s n op bs) .keys (by decide)
@[simp] theorem State.reply_tamper : ((s.reply n op bs)).tamper = s.tamper := (State.reply_same s n op bs) .tamper (by decide)
@[simp] theorem State.reply_otp : ((s.reply n op bs)).otp = s.otp := (State.reply_same s n op bs) .otp (by decide)
@[simp] theorem State.reply_part : ((s.reply n op bs)).part = s.part := (State.reply_same s n op bs) .part (by decide)
@[simp] theorem State.reply_power : ((s.reply n op bs)).power = s.power := (State.reply_same s n op bs) .power (by decide)
@[simp] theorem State.reply_clk : ((s.reply n op bs)).clk = s.clk := (State.reply_same s n op bs) .clk (by decide)
@[simp] theorem State.reply_led : ((s.reply n op bs)).led = s.led := (State.reply_same s n op bs) .led (by decide)
@[simp] theorem State.reply_dev : ((s.reply n op bs)).dev = s.dev := (State.reply_same s n op bs) .dev (by decide)
@[simp] theorem State.reply_pending : ((s.reply n op bs)).pending = s.pending := (State.reply_same s n op bs) .pending (by decide)
@[simp] theorem State.reply_mb (c : Fin 128) : ((s.reply n op bs)).mb c = s.mb c := by simp [State.mb]
@[simp] theorem State.reply_st (c : Fin 128) : ((s.reply n op bs)).st c = s.st c := by simp [State.st]
@[simp] theorem State.reply_ch (c : Fin 128) : ((s.reply n op bs)).ch c = s.ch c := by simp [State.ch]
@[simp] theorem State.reply_pl (c : Fin 128) : ((s.reply n op bs)).pl c = s.pl c := by simp [State.pl]
@[simp] theorem State.reply_wd (c : Fin 128) : ((s.reply n op bs)).wd c = s.wd c := by simp [State.wd]
@[simp] theorem State.reply_area (c : Fin 128) : ((s.reply n op bs)).area c = s.area c := by simp [State.area]
@[simp] theorem State.reply_fp (c : Fin 64) : ((s.reply n op bs)).fp c = s.fp c := by simp [State.fp]
@[simp] theorem State.reply_polOf (c : Fin 128) : ((s.reply n op bs)).polOf c = s.polOf c := by simp [State.polOf]
@[simp] theorem State.reply_profOf (c : Fin 128) : ((s.reply n op bs)).profOf c = s.profOf c := by simp [State.profOf]
@[simp] theorem State.reply_dirE (c : Fin 256) : ((s.reply n op bs)).dirE c = s.dirE c := by simp [State.dirE]
@[simp] theorem State.reply_core (c : Fin 4) : ((s.reply n op bs)).core c = s.core c := by simp [State.core]
@[simp] theorem State.reply_ep (c : Fin 8) : ((s.reply n op bs)).ep c = s.ep c := by simp [State.ep]
@[simp] theorem State.reply_slot (c : Fin 256) : ((s.reply n op bs)).slot c = s.slot c := by simp [State.slot]
@[simp] theorem State.reply_ring (c : Mgr) : ((s.reply n op bs)).ring c = s.ring c := by simp [State.ring]
@[simp] theorem State.reply_view (c : Mgr) : ((s.reply n op bs)).view c = s.view c := by simp [State.view]

end

section

variable (s : State) (n : Fin 128) (i : Fin 8) (type : Nat) (info : List Nat) (v : Digest)

theorem State.extend_same : Frame [.mbx, .trace] s ((s.extend n i type info v)) := State.extend_frame (Frame.refl _ s) rfl
@[simp] theorem State.extend_now : ((s.extend n i type info v)).now = s.now := (State.extend_same s n i type info v) .now (by decide)
@[simp] theorem State.extend_ports : ((s.extend n i type info v)).ports = s.ports := (State.extend_same s n i type info v) .ports (by decide)
@[simp] theorem State.extend_stn : ((s.extend n i type info v)).stn = s.stn := (State.extend_same s n i type info v) .stn (by decide)
@[simp] theorem State.extend_ctl : ((s.extend n i type info v)).ctl = s.ctl := (State.extend_same s n i type info v) .ctl (by decide)
@[simp] theorem State.extend_plt : ((s.extend n i type info v)).plt = s.plt := (State.extend_same s n i type info v) .plt (by decide)
@[simp] theorem State.extend_wdg : ((s.extend n i type info v)).wdg = s.wdg := (State.extend_same s n i type info v) .wdg (by decide)
@[simp] theorem State.extend_areas : ((s.extend n i type info v)).areas = s.areas := (State.extend_same s n i type info v) .areas (by decide)
@[simp] theorem State.extend_fps : ((s.extend n i type info v)).fps = s.fps := (State.extend_same s n i type info v) .fps (by decide)
@[simp] theorem State.extend_pol : ((s.extend n i type info v)).pol = s.pol := (State.extend_same s n i type info v) .pol (by decide)
@[simp] theorem State.extend_polLedger : ((s.extend n i type info v)).polLedger = s.polLedger := (State.extend_same s n i type info v) .polLedger (by decide)
@[simp] theorem State.extend_polMin : ((s.extend n i type info v)).polMin = s.polMin := (State.extend_same s n i type info v) .polMin (by decide)
@[simp] theorem State.extend_tamperPol : ((s.extend n i type info v)).tamperPol = s.tamperPol := (State.extend_same s n i type info v) .tamperPol (by decide)
@[simp] theorem State.extend_prof : ((s.extend n i type info v)).prof = s.prof := (State.extend_same s n i type info v) .prof (by decide)
@[simp] theorem State.extend_profCfg : ((s.extend n i type info v)).profCfg = s.profCfg := (State.extend_same s n i type info v) .profCfg (by decide)
@[simp] theorem State.extend_dcfg : ((s.extend n i type info v)).dcfg = s.dcfg := (State.extend_same s n i type info v) .dcfg (by decide)
@[simp] theorem State.extend_twl : ((s.extend n i type info v)).twl = s.twl := (State.extend_same s n i type info v) .twl (by decide)
@[simp] theorem State.extend_poolProf : ((s.extend n i type info v)).poolProf = s.poolProf := (State.extend_same s n i type info v) .poolProf (by decide)
@[simp] theorem State.extend_cfgImg : ((s.extend n i type info v)).cfgImg = s.cfgImg := (State.extend_same s n i type info v) .cfgImg (by decide)
@[simp] theorem State.extend_imm : ((s.extend n i type info v)).imm = s.imm := (State.extend_same s n i type info v) .imm (by decide)
@[simp] theorem State.extend_fca : ((s.extend n i type info v)).fca = s.fca := (State.extend_same s n i type info v) .fca (by decide)
@[simp] theorem State.extend_farm : ((s.extend n i type info v)).farm = s.farm := (State.extend_same s n i type info v) .farm (by decide)
@[simp] theorem State.extend_pool : ((s.extend n i type info v)).pool = s.pool := (State.extend_same s n i type info v) .pool (by decide)
@[simp] theorem State.extend_mins : ((s.extend n i type info v)).mins = s.mins := (State.extend_same s n i type info v) .mins (by decide)
@[simp] theorem State.extend_devfw : ((s.extend n i type info v)).devfw = s.devfw := (State.extend_same s n i type info v) .devfw (by decide)
@[simp] theorem State.extend_plat : ((s.extend n i type info v)).plat = s.plat := (State.extend_same s n i type info v) .plat (by decide)
@[simp] theorem State.extend_mwd : ((s.extend n i type info v)).mwd = s.mwd := (State.extend_same s n i type info v) .mwd (by decide)
@[simp] theorem State.extend_intw : ((s.extend n i type info v)).intw = s.intw := (State.extend_same s n i type info v) .intw (by decide)
@[simp] theorem State.extend_att : ((s.extend n i type info v)).att = s.att := (State.extend_same s n i type info v) .att (by decide)
@[simp] theorem State.extend_spdm : ((s.extend n i type info v)).spdm = s.spdm := (State.extend_same s n i type info v) .spdm (by decide)
@[simp] theorem State.extend_i3c : ((s.extend n i type info v)).i3c = s.i3c := (State.extend_same s n i type info v) .i3c (by decide)
@[simp] theorem State.extend_rings : ((s.extend n i type info v)).rings = s.rings := (State.extend_same s n i type info v) .rings (by decide)
@[simp] theorem State.extend_arb : ((s.extend n i type info v)).arb = s.arb := (State.extend_same s n i type info v) .arb (by decide)
@[simp] theorem State.extend_views : ((s.extend n i type info v)).views = s.views := (State.extend_same s n i type info v) .views (by decide)
@[simp] theorem State.extend_awaits : ((s.extend n i type info v)).awaits = s.awaits := (State.extend_same s n i type info v) .awaits (by decide)
@[simp] theorem State.extend_hdrs : ((s.extend n i type info v)).hdrs = s.hdrs := (State.extend_same s n i type info v) .hdrs (by decide)
@[simp] theorem State.extend_burin : ((s.extend n i type info v)).burin = s.burin := (State.extend_same s n i type info v) .burin (by decide)
@[simp] theorem State.extend_hash : ((s.extend n i type info v)).hash = s.hash := (State.extend_same s n i type info v) .hash (by decide)
@[simp] theorem State.extend_drbg : ((s.extend n i type info v)).drbg = s.drbg := (State.extend_same s n i type info v) .drbg (by decide)
@[simp] theorem State.extend_drawn : ((s.extend n i type info v)).drawn = s.drawn := (State.extend_same s n i type info v) .drawn (by decide)
@[simp] theorem State.extend_keys : ((s.extend n i type info v)).keys = s.keys := (State.extend_same s n i type info v) .keys (by decide)
@[simp] theorem State.extend_tamper : ((s.extend n i type info v)).tamper = s.tamper := (State.extend_same s n i type info v) .tamper (by decide)
@[simp] theorem State.extend_otp : ((s.extend n i type info v)).otp = s.otp := (State.extend_same s n i type info v) .otp (by decide)
@[simp] theorem State.extend_part : ((s.extend n i type info v)).part = s.part := (State.extend_same s n i type info v) .part (by decide)
@[simp] theorem State.extend_power : ((s.extend n i type info v)).power = s.power := (State.extend_same s n i type info v) .power (by decide)
@[simp] theorem State.extend_clk : ((s.extend n i type info v)).clk = s.clk := (State.extend_same s n i type info v) .clk (by decide)
@[simp] theorem State.extend_led : ((s.extend n i type info v)).led = s.led := (State.extend_same s n i type info v) .led (by decide)
@[simp] theorem State.extend_dev : ((s.extend n i type info v)).dev = s.dev := (State.extend_same s n i type info v) .dev (by decide)
@[simp] theorem State.extend_pending : ((s.extend n i type info v)).pending = s.pending := (State.extend_same s n i type info v) .pending (by decide)
@[simp] theorem State.extend_port (c : Fin 128) : ((s.extend n i type info v)).port c = s.port c := by simp [State.port]
@[simp] theorem State.extend_st (c : Fin 128) : ((s.extend n i type info v)).st c = s.st c := by simp [State.st]
@[simp] theorem State.extend_ch (c : Fin 128) : ((s.extend n i type info v)).ch c = s.ch c := by simp [State.ch]
@[simp] theorem State.extend_pl (c : Fin 128) : ((s.extend n i type info v)).pl c = s.pl c := by simp [State.pl]
@[simp] theorem State.extend_wd (c : Fin 128) : ((s.extend n i type info v)).wd c = s.wd c := by simp [State.wd]
@[simp] theorem State.extend_area (c : Fin 128) : ((s.extend n i type info v)).area c = s.area c := by simp [State.area]
@[simp] theorem State.extend_fp (c : Fin 64) : ((s.extend n i type info v)).fp c = s.fp c := by simp [State.fp]
@[simp] theorem State.extend_polOf (c : Fin 128) : ((s.extend n i type info v)).polOf c = s.polOf c := by simp [State.polOf]
@[simp] theorem State.extend_profOf (c : Fin 128) : ((s.extend n i type info v)).profOf c = s.profOf c := by simp [State.profOf]
@[simp] theorem State.extend_dirE (c : Fin 256) : ((s.extend n i type info v)).dirE c = s.dirE c := by simp [State.dirE]
@[simp] theorem State.extend_core (c : Fin 4) : ((s.extend n i type info v)).core c = s.core c := by simp [State.core]
@[simp] theorem State.extend_ep (c : Fin 8) : ((s.extend n i type info v)).ep c = s.ep c := by simp [State.ep]
@[simp] theorem State.extend_slot (c : Fin 256) : ((s.extend n i type info v)).slot c = s.slot c := by simp [State.slot]
@[simp] theorem State.extend_ring (c : Mgr) : ((s.extend n i type info v)).ring c = s.ring c := by simp [State.ring]
@[simp] theorem State.extend_view (c : Mgr) : ((s.extend n i type info v)).view c = s.view c := by simp [State.view]

end

section

variable (s : State) (n : Fin 128) (st : ChState) (cause : Cause)

theorem State.transition_same : Frame [.ctl, .trace, .rings] s ((s.transition n st cause)) := State.transition_frame (Frame.refl _ s) rfl
@[simp] theorem State.transition_now : ((s.transition n st cause)).now = s.now := (State.transition_same s n st cause) .now (by decide)
@[simp] theorem State.transition_ports : ((s.transition n st cause)).ports = s.ports := (State.transition_same s n st cause) .ports (by decide)
@[simp] theorem State.transition_mbx : ((s.transition n st cause)).mbx = s.mbx := (State.transition_same s n st cause) .mbx (by decide)
@[simp] theorem State.transition_stn : ((s.transition n st cause)).stn = s.stn := (State.transition_same s n st cause) .stn (by decide)
@[simp] theorem State.transition_plt : ((s.transition n st cause)).plt = s.plt := (State.transition_same s n st cause) .plt (by decide)
@[simp] theorem State.transition_wdg : ((s.transition n st cause)).wdg = s.wdg := (State.transition_same s n st cause) .wdg (by decide)
@[simp] theorem State.transition_areas : ((s.transition n st cause)).areas = s.areas := (State.transition_same s n st cause) .areas (by decide)
@[simp] theorem State.transition_fps : ((s.transition n st cause)).fps = s.fps := (State.transition_same s n st cause) .fps (by decide)
@[simp] theorem State.transition_pol : ((s.transition n st cause)).pol = s.pol := (State.transition_same s n st cause) .pol (by decide)
@[simp] theorem State.transition_polLedger : ((s.transition n st cause)).polLedger = s.polLedger := (State.transition_same s n st cause) .polLedger (by decide)
@[simp] theorem State.transition_polMin : ((s.transition n st cause)).polMin = s.polMin := (State.transition_same s n st cause) .polMin (by decide)
@[simp] theorem State.transition_tamperPol : ((s.transition n st cause)).tamperPol = s.tamperPol := (State.transition_same s n st cause) .tamperPol (by decide)
@[simp] theorem State.transition_prof : ((s.transition n st cause)).prof = s.prof := (State.transition_same s n st cause) .prof (by decide)
@[simp] theorem State.transition_profCfg : ((s.transition n st cause)).profCfg = s.profCfg := (State.transition_same s n st cause) .profCfg (by decide)
@[simp] theorem State.transition_dcfg : ((s.transition n st cause)).dcfg = s.dcfg := (State.transition_same s n st cause) .dcfg (by decide)
@[simp] theorem State.transition_twl : ((s.transition n st cause)).twl = s.twl := (State.transition_same s n st cause) .twl (by decide)
@[simp] theorem State.transition_poolProf : ((s.transition n st cause)).poolProf = s.poolProf := (State.transition_same s n st cause) .poolProf (by decide)
@[simp] theorem State.transition_cfgImg : ((s.transition n st cause)).cfgImg = s.cfgImg := (State.transition_same s n st cause) .cfgImg (by decide)
@[simp] theorem State.transition_imm : ((s.transition n st cause)).imm = s.imm := (State.transition_same s n st cause) .imm (by decide)
@[simp] theorem State.transition_fca : ((s.transition n st cause)).fca = s.fca := (State.transition_same s n st cause) .fca (by decide)
@[simp] theorem State.transition_farm : ((s.transition n st cause)).farm = s.farm := (State.transition_same s n st cause) .farm (by decide)
@[simp] theorem State.transition_pool : ((s.transition n st cause)).pool = s.pool := (State.transition_same s n st cause) .pool (by decide)
@[simp] theorem State.transition_mins : ((s.transition n st cause)).mins = s.mins := (State.transition_same s n st cause) .mins (by decide)
@[simp] theorem State.transition_devfw : ((s.transition n st cause)).devfw = s.devfw := (State.transition_same s n st cause) .devfw (by decide)
@[simp] theorem State.transition_plat : ((s.transition n st cause)).plat = s.plat := (State.transition_same s n st cause) .plat (by decide)
@[simp] theorem State.transition_mwd : ((s.transition n st cause)).mwd = s.mwd := (State.transition_same s n st cause) .mwd (by decide)
@[simp] theorem State.transition_intw : ((s.transition n st cause)).intw = s.intw := (State.transition_same s n st cause) .intw (by decide)
@[simp] theorem State.transition_att : ((s.transition n st cause)).att = s.att := (State.transition_same s n st cause) .att (by decide)
@[simp] theorem State.transition_spdm : ((s.transition n st cause)).spdm = s.spdm := (State.transition_same s n st cause) .spdm (by decide)
@[simp] theorem State.transition_i3c : ((s.transition n st cause)).i3c = s.i3c := (State.transition_same s n st cause) .i3c (by decide)
@[simp] theorem State.transition_arb : ((s.transition n st cause)).arb = s.arb := (State.transition_same s n st cause) .arb (by decide)
@[simp] theorem State.transition_views : ((s.transition n st cause)).views = s.views := (State.transition_same s n st cause) .views (by decide)
@[simp] theorem State.transition_awaits : ((s.transition n st cause)).awaits = s.awaits := (State.transition_same s n st cause) .awaits (by decide)
@[simp] theorem State.transition_hdrs : ((s.transition n st cause)).hdrs = s.hdrs := (State.transition_same s n st cause) .hdrs (by decide)
@[simp] theorem State.transition_burin : ((s.transition n st cause)).burin = s.burin := (State.transition_same s n st cause) .burin (by decide)
@[simp] theorem State.transition_hash : ((s.transition n st cause)).hash = s.hash := (State.transition_same s n st cause) .hash (by decide)
@[simp] theorem State.transition_drbg : ((s.transition n st cause)).drbg = s.drbg := (State.transition_same s n st cause) .drbg (by decide)
@[simp] theorem State.transition_drawn : ((s.transition n st cause)).drawn = s.drawn := (State.transition_same s n st cause) .drawn (by decide)
@[simp] theorem State.transition_keys : ((s.transition n st cause)).keys = s.keys := (State.transition_same s n st cause) .keys (by decide)
@[simp] theorem State.transition_tamper : ((s.transition n st cause)).tamper = s.tamper := (State.transition_same s n st cause) .tamper (by decide)
@[simp] theorem State.transition_otp : ((s.transition n st cause)).otp = s.otp := (State.transition_same s n st cause) .otp (by decide)
@[simp] theorem State.transition_part : ((s.transition n st cause)).part = s.part := (State.transition_same s n st cause) .part (by decide)
@[simp] theorem State.transition_power : ((s.transition n st cause)).power = s.power := (State.transition_same s n st cause) .power (by decide)
@[simp] theorem State.transition_clk : ((s.transition n st cause)).clk = s.clk := (State.transition_same s n st cause) .clk (by decide)
@[simp] theorem State.transition_led : ((s.transition n st cause)).led = s.led := (State.transition_same s n st cause) .led (by decide)
@[simp] theorem State.transition_dev : ((s.transition n st cause)).dev = s.dev := (State.transition_same s n st cause) .dev (by decide)
@[simp] theorem State.transition_pending : ((s.transition n st cause)).pending = s.pending := (State.transition_same s n st cause) .pending (by decide)
@[simp] theorem State.transition_port (c : Fin 128) : ((s.transition n st cause)).port c = s.port c := by simp [State.port]
@[simp] theorem State.transition_mb (c : Fin 128) : ((s.transition n st cause)).mb c = s.mb c := by simp [State.mb]
@[simp] theorem State.transition_st (c : Fin 128) : ((s.transition n st cause)).st c = s.st c := by simp [State.st]
@[simp] theorem State.transition_pl (c : Fin 128) : ((s.transition n st cause)).pl c = s.pl c := by simp [State.pl]
@[simp] theorem State.transition_wd (c : Fin 128) : ((s.transition n st cause)).wd c = s.wd c := by simp [State.wd]
@[simp] theorem State.transition_area (c : Fin 128) : ((s.transition n st cause)).area c = s.area c := by simp [State.area]
@[simp] theorem State.transition_fp (c : Fin 64) : ((s.transition n st cause)).fp c = s.fp c := by simp [State.fp]
@[simp] theorem State.transition_polOf (c : Fin 128) : ((s.transition n st cause)).polOf c = s.polOf c := by simp [State.polOf]
@[simp] theorem State.transition_profOf (c : Fin 128) : ((s.transition n st cause)).profOf c = s.profOf c := by simp [State.profOf]
@[simp] theorem State.transition_dirE (c : Fin 256) : ((s.transition n st cause)).dirE c = s.dirE c := by simp [State.dirE]
@[simp] theorem State.transition_core (c : Fin 4) : ((s.transition n st cause)).core c = s.core c := by simp [State.core]
@[simp] theorem State.transition_ep (c : Fin 8) : ((s.transition n st cause)).ep c = s.ep c := by simp [State.ep]
@[simp] theorem State.transition_slot (c : Fin 256) : ((s.transition n st cause)).slot c = s.slot c := by simp [State.slot]
@[simp] theorem State.transition_view (c : Mgr) : ((s.transition n st cause)).view c = s.view c := by simp [State.view]

end

section

variable (s : State) (m : Mgr) (n : Fin 128) (res : BitVec 4) (err : Word)

theorem State.shdResult_same : Frame [.views, .hdrs] s ((s.shdResult m n res err)) := State.shdResult_frame (Frame.refl _ s) rfl
@[simp] theorem State.shdResult_now : ((s.shdResult m n res err)).now = s.now := (State.shdResult_same s m n res err) .now (by decide)
@[simp] theorem State.shdResult_ports : ((s.shdResult m n res err)).ports = s.ports := (State.shdResult_same s m n res err) .ports (by decide)
@[simp] theorem State.shdResult_mbx : ((s.shdResult m n res err)).mbx = s.mbx := (State.shdResult_same s m n res err) .mbx (by decide)
@[simp] theorem State.shdResult_stn : ((s.shdResult m n res err)).stn = s.stn := (State.shdResult_same s m n res err) .stn (by decide)
@[simp] theorem State.shdResult_ctl : ((s.shdResult m n res err)).ctl = s.ctl := (State.shdResult_same s m n res err) .ctl (by decide)
@[simp] theorem State.shdResult_plt : ((s.shdResult m n res err)).plt = s.plt := (State.shdResult_same s m n res err) .plt (by decide)
@[simp] theorem State.shdResult_wdg : ((s.shdResult m n res err)).wdg = s.wdg := (State.shdResult_same s m n res err) .wdg (by decide)
@[simp] theorem State.shdResult_areas : ((s.shdResult m n res err)).areas = s.areas := (State.shdResult_same s m n res err) .areas (by decide)
@[simp] theorem State.shdResult_fps : ((s.shdResult m n res err)).fps = s.fps := (State.shdResult_same s m n res err) .fps (by decide)
@[simp] theorem State.shdResult_pol : ((s.shdResult m n res err)).pol = s.pol := (State.shdResult_same s m n res err) .pol (by decide)
@[simp] theorem State.shdResult_polLedger : ((s.shdResult m n res err)).polLedger = s.polLedger := (State.shdResult_same s m n res err) .polLedger (by decide)
@[simp] theorem State.shdResult_polMin : ((s.shdResult m n res err)).polMin = s.polMin := (State.shdResult_same s m n res err) .polMin (by decide)
@[simp] theorem State.shdResult_tamperPol : ((s.shdResult m n res err)).tamperPol = s.tamperPol := (State.shdResult_same s m n res err) .tamperPol (by decide)
@[simp] theorem State.shdResult_prof : ((s.shdResult m n res err)).prof = s.prof := (State.shdResult_same s m n res err) .prof (by decide)
@[simp] theorem State.shdResult_profCfg : ((s.shdResult m n res err)).profCfg = s.profCfg := (State.shdResult_same s m n res err) .profCfg (by decide)
@[simp] theorem State.shdResult_dcfg : ((s.shdResult m n res err)).dcfg = s.dcfg := (State.shdResult_same s m n res err) .dcfg (by decide)
@[simp] theorem State.shdResult_twl : ((s.shdResult m n res err)).twl = s.twl := (State.shdResult_same s m n res err) .twl (by decide)
@[simp] theorem State.shdResult_poolProf : ((s.shdResult m n res err)).poolProf = s.poolProf := (State.shdResult_same s m n res err) .poolProf (by decide)
@[simp] theorem State.shdResult_cfgImg : ((s.shdResult m n res err)).cfgImg = s.cfgImg := (State.shdResult_same s m n res err) .cfgImg (by decide)
@[simp] theorem State.shdResult_imm : ((s.shdResult m n res err)).imm = s.imm := (State.shdResult_same s m n res err) .imm (by decide)
@[simp] theorem State.shdResult_fca : ((s.shdResult m n res err)).fca = s.fca := (State.shdResult_same s m n res err) .fca (by decide)
@[simp] theorem State.shdResult_farm : ((s.shdResult m n res err)).farm = s.farm := (State.shdResult_same s m n res err) .farm (by decide)
@[simp] theorem State.shdResult_pool : ((s.shdResult m n res err)).pool = s.pool := (State.shdResult_same s m n res err) .pool (by decide)
@[simp] theorem State.shdResult_mins : ((s.shdResult m n res err)).mins = s.mins := (State.shdResult_same s m n res err) .mins (by decide)
@[simp] theorem State.shdResult_devfw : ((s.shdResult m n res err)).devfw = s.devfw := (State.shdResult_same s m n res err) .devfw (by decide)
@[simp] theorem State.shdResult_plat : ((s.shdResult m n res err)).plat = s.plat := (State.shdResult_same s m n res err) .plat (by decide)
@[simp] theorem State.shdResult_mwd : ((s.shdResult m n res err)).mwd = s.mwd := (State.shdResult_same s m n res err) .mwd (by decide)
@[simp] theorem State.shdResult_intw : ((s.shdResult m n res err)).intw = s.intw := (State.shdResult_same s m n res err) .intw (by decide)
@[simp] theorem State.shdResult_trace : ((s.shdResult m n res err)).trace = s.trace := (State.shdResult_same s m n res err) .trace (by decide)
@[simp] theorem State.shdResult_att : ((s.shdResult m n res err)).att = s.att := (State.shdResult_same s m n res err) .att (by decide)
@[simp] theorem State.shdResult_spdm : ((s.shdResult m n res err)).spdm = s.spdm := (State.shdResult_same s m n res err) .spdm (by decide)
@[simp] theorem State.shdResult_i3c : ((s.shdResult m n res err)).i3c = s.i3c := (State.shdResult_same s m n res err) .i3c (by decide)
@[simp] theorem State.shdResult_rings : ((s.shdResult m n res err)).rings = s.rings := (State.shdResult_same s m n res err) .rings (by decide)
@[simp] theorem State.shdResult_arb : ((s.shdResult m n res err)).arb = s.arb := (State.shdResult_same s m n res err) .arb (by decide)
@[simp] theorem State.shdResult_awaits : ((s.shdResult m n res err)).awaits = s.awaits := (State.shdResult_same s m n res err) .awaits (by decide)
@[simp] theorem State.shdResult_burin : ((s.shdResult m n res err)).burin = s.burin := (State.shdResult_same s m n res err) .burin (by decide)
@[simp] theorem State.shdResult_hash : ((s.shdResult m n res err)).hash = s.hash := (State.shdResult_same s m n res err) .hash (by decide)
@[simp] theorem State.shdResult_drbg : ((s.shdResult m n res err)).drbg = s.drbg := (State.shdResult_same s m n res err) .drbg (by decide)
@[simp] theorem State.shdResult_drawn : ((s.shdResult m n res err)).drawn = s.drawn := (State.shdResult_same s m n res err) .drawn (by decide)
@[simp] theorem State.shdResult_keys : ((s.shdResult m n res err)).keys = s.keys := (State.shdResult_same s m n res err) .keys (by decide)
@[simp] theorem State.shdResult_tamper : ((s.shdResult m n res err)).tamper = s.tamper := (State.shdResult_same s m n res err) .tamper (by decide)
@[simp] theorem State.shdResult_otp : ((s.shdResult m n res err)).otp = s.otp := (State.shdResult_same s m n res err) .otp (by decide)
@[simp] theorem State.shdResult_part : ((s.shdResult m n res err)).part = s.part := (State.shdResult_same s m n res err) .part (by decide)
@[simp] theorem State.shdResult_power : ((s.shdResult m n res err)).power = s.power := (State.shdResult_same s m n res err) .power (by decide)
@[simp] theorem State.shdResult_clk : ((s.shdResult m n res err)).clk = s.clk := (State.shdResult_same s m n res err) .clk (by decide)
@[simp] theorem State.shdResult_led : ((s.shdResult m n res err)).led = s.led := (State.shdResult_same s m n res err) .led (by decide)
@[simp] theorem State.shdResult_dev : ((s.shdResult m n res err)).dev = s.dev := (State.shdResult_same s m n res err) .dev (by decide)
@[simp] theorem State.shdResult_pending : ((s.shdResult m n res err)).pending = s.pending := (State.shdResult_same s m n res err) .pending (by decide)
@[simp] theorem State.shdResult_port (c : Fin 128) : ((s.shdResult m n res err)).port c = s.port c := by simp [State.port]
@[simp] theorem State.shdResult_mb (c : Fin 128) : ((s.shdResult m n res err)).mb c = s.mb c := by simp [State.mb]
@[simp] theorem State.shdResult_st (c : Fin 128) : ((s.shdResult m n res err)).st c = s.st c := by simp [State.st]
@[simp] theorem State.shdResult_ch (c : Fin 128) : ((s.shdResult m n res err)).ch c = s.ch c := by simp [State.ch]
@[simp] theorem State.shdResult_pl (c : Fin 128) : ((s.shdResult m n res err)).pl c = s.pl c := by simp [State.pl]
@[simp] theorem State.shdResult_wd (c : Fin 128) : ((s.shdResult m n res err)).wd c = s.wd c := by simp [State.wd]
@[simp] theorem State.shdResult_area (c : Fin 128) : ((s.shdResult m n res err)).area c = s.area c := by simp [State.area]
@[simp] theorem State.shdResult_fp (c : Fin 64) : ((s.shdResult m n res err)).fp c = s.fp c := by simp [State.fp]
@[simp] theorem State.shdResult_polOf (c : Fin 128) : ((s.shdResult m n res err)).polOf c = s.polOf c := by simp [State.polOf]
@[simp] theorem State.shdResult_profOf (c : Fin 128) : ((s.shdResult m n res err)).profOf c = s.profOf c := by simp [State.profOf]
@[simp] theorem State.shdResult_dirE (c : Fin 256) : ((s.shdResult m n res err)).dirE c = s.dirE c := by simp [State.dirE]
@[simp] theorem State.shdResult_core (c : Fin 4) : ((s.shdResult m n res err)).core c = s.core c := by simp [State.core]
@[simp] theorem State.shdResult_ep (c : Fin 8) : ((s.shdResult m n res err)).ep c = s.ep c := by simp [State.ep]
@[simp] theorem State.shdResult_slot (c : Fin 256) : ((s.shdResult m n res err)).slot c = s.slot c := by simp [State.slot]
@[simp] theorem State.shdResult_ring (c : Mgr) : ((s.shdResult m n res err)).ring c = s.ring c := by simp [State.ring]

end

section

variable (s : State) (who : Asker) (n : Fin 128) (st : Status) (info : optParam Nat 0) (result : optParam (List Byte) [])

theorem State.answer_same : Frame [.ctl, .spdm, .rings, .views, .awaits, .dev] s ((s.answer who n st info result)) := State.answer_frame (Frame.refl _ s) rfl
@[simp] theorem State.answer_now : ((s.answer who n st info result)).now = s.now := (State.answer_same s who n st info result) .now (by decide)
@[simp] theorem State.answer_ports : ((s.answer who n st info result)).ports = s.ports := (State.answer_same s who n st info result) .ports (by decide)
@[simp] theorem State.answer_mbx : ((s.answer who n st info result)).mbx = s.mbx := (State.answer_same s who n st info result) .mbx (by decide)
@[simp] theorem State.answer_stn : ((s.answer who n st info result)).stn = s.stn := (State.answer_same s who n st info result) .stn (by decide)
@[simp] theorem State.answer_plt : ((s.answer who n st info result)).plt = s.plt := (State.answer_same s who n st info result) .plt (by decide)
@[simp] theorem State.answer_wdg : ((s.answer who n st info result)).wdg = s.wdg := (State.answer_same s who n st info result) .wdg (by decide)
@[simp] theorem State.answer_areas : ((s.answer who n st info result)).areas = s.areas := (State.answer_same s who n st info result) .areas (by decide)
@[simp] theorem State.answer_fps : ((s.answer who n st info result)).fps = s.fps := (State.answer_same s who n st info result) .fps (by decide)
@[simp] theorem State.answer_pol : ((s.answer who n st info result)).pol = s.pol := (State.answer_same s who n st info result) .pol (by decide)
@[simp] theorem State.answer_polLedger : ((s.answer who n st info result)).polLedger = s.polLedger := (State.answer_same s who n st info result) .polLedger (by decide)
@[simp] theorem State.answer_polMin : ((s.answer who n st info result)).polMin = s.polMin := (State.answer_same s who n st info result) .polMin (by decide)
@[simp] theorem State.answer_tamperPol : ((s.answer who n st info result)).tamperPol = s.tamperPol := (State.answer_same s who n st info result) .tamperPol (by decide)
@[simp] theorem State.answer_prof : ((s.answer who n st info result)).prof = s.prof := (State.answer_same s who n st info result) .prof (by decide)
@[simp] theorem State.answer_profCfg : ((s.answer who n st info result)).profCfg = s.profCfg := (State.answer_same s who n st info result) .profCfg (by decide)
@[simp] theorem State.answer_dcfg : ((s.answer who n st info result)).dcfg = s.dcfg := (State.answer_same s who n st info result) .dcfg (by decide)
@[simp] theorem State.answer_twl : ((s.answer who n st info result)).twl = s.twl := (State.answer_same s who n st info result) .twl (by decide)
@[simp] theorem State.answer_poolProf : ((s.answer who n st info result)).poolProf = s.poolProf := (State.answer_same s who n st info result) .poolProf (by decide)
@[simp] theorem State.answer_cfgImg : ((s.answer who n st info result)).cfgImg = s.cfgImg := (State.answer_same s who n st info result) .cfgImg (by decide)
@[simp] theorem State.answer_imm : ((s.answer who n st info result)).imm = s.imm := (State.answer_same s who n st info result) .imm (by decide)
@[simp] theorem State.answer_fca : ((s.answer who n st info result)).fca = s.fca := (State.answer_same s who n st info result) .fca (by decide)
@[simp] theorem State.answer_farm : ((s.answer who n st info result)).farm = s.farm := (State.answer_same s who n st info result) .farm (by decide)
@[simp] theorem State.answer_pool : ((s.answer who n st info result)).pool = s.pool := (State.answer_same s who n st info result) .pool (by decide)
@[simp] theorem State.answer_mins : ((s.answer who n st info result)).mins = s.mins := (State.answer_same s who n st info result) .mins (by decide)
@[simp] theorem State.answer_devfw : ((s.answer who n st info result)).devfw = s.devfw := (State.answer_same s who n st info result) .devfw (by decide)
@[simp] theorem State.answer_plat : ((s.answer who n st info result)).plat = s.plat := (State.answer_same s who n st info result) .plat (by decide)
@[simp] theorem State.answer_mwd : ((s.answer who n st info result)).mwd = s.mwd := (State.answer_same s who n st info result) .mwd (by decide)
@[simp] theorem State.answer_intw : ((s.answer who n st info result)).intw = s.intw := (State.answer_same s who n st info result) .intw (by decide)
@[simp] theorem State.answer_trace : ((s.answer who n st info result)).trace = s.trace := (State.answer_same s who n st info result) .trace (by decide)
@[simp] theorem State.answer_att : ((s.answer who n st info result)).att = s.att := (State.answer_same s who n st info result) .att (by decide)
@[simp] theorem State.answer_i3c : ((s.answer who n st info result)).i3c = s.i3c := (State.answer_same s who n st info result) .i3c (by decide)
@[simp] theorem State.answer_arb : ((s.answer who n st info result)).arb = s.arb := (State.answer_same s who n st info result) .arb (by decide)
@[simp] theorem State.answer_hdrs : ((s.answer who n st info result)).hdrs = s.hdrs := (State.answer_same s who n st info result) .hdrs (by decide)
@[simp] theorem State.answer_burin : ((s.answer who n st info result)).burin = s.burin := (State.answer_same s who n st info result) .burin (by decide)
@[simp] theorem State.answer_hash : ((s.answer who n st info result)).hash = s.hash := (State.answer_same s who n st info result) .hash (by decide)
@[simp] theorem State.answer_drbg : ((s.answer who n st info result)).drbg = s.drbg := (State.answer_same s who n st info result) .drbg (by decide)
@[simp] theorem State.answer_drawn : ((s.answer who n st info result)).drawn = s.drawn := (State.answer_same s who n st info result) .drawn (by decide)
@[simp] theorem State.answer_keys : ((s.answer who n st info result)).keys = s.keys := (State.answer_same s who n st info result) .keys (by decide)
@[simp] theorem State.answer_tamper : ((s.answer who n st info result)).tamper = s.tamper := (State.answer_same s who n st info result) .tamper (by decide)
@[simp] theorem State.answer_otp : ((s.answer who n st info result)).otp = s.otp := (State.answer_same s who n st info result) .otp (by decide)
@[simp] theorem State.answer_part : ((s.answer who n st info result)).part = s.part := (State.answer_same s who n st info result) .part (by decide)
@[simp] theorem State.answer_power : ((s.answer who n st info result)).power = s.power := (State.answer_same s who n st info result) .power (by decide)
@[simp] theorem State.answer_clk : ((s.answer who n st info result)).clk = s.clk := (State.answer_same s who n st info result) .clk (by decide)
@[simp] theorem State.answer_led : ((s.answer who n st info result)).led = s.led := (State.answer_same s who n st info result) .led (by decide)
@[simp] theorem State.answer_pending : ((s.answer who n st info result)).pending = s.pending := (State.answer_same s who n st info result) .pending (by decide)
@[simp] theorem State.answer_port (c : Fin 128) : ((s.answer who n st info result)).port c = s.port c := by simp [State.port]
@[simp] theorem State.answer_mb (c : Fin 128) : ((s.answer who n st info result)).mb c = s.mb c := by simp [State.mb]
@[simp] theorem State.answer_st (c : Fin 128) : ((s.answer who n st info result)).st c = s.st c := by simp [State.st]
@[simp] theorem State.answer_pl (c : Fin 128) : ((s.answer who n st info result)).pl c = s.pl c := by simp [State.pl]
@[simp] theorem State.answer_wd (c : Fin 128) : ((s.answer who n st info result)).wd c = s.wd c := by simp [State.wd]
@[simp] theorem State.answer_area (c : Fin 128) : ((s.answer who n st info result)).area c = s.area c := by simp [State.area]
@[simp] theorem State.answer_fp (c : Fin 64) : ((s.answer who n st info result)).fp c = s.fp c := by simp [State.fp]
@[simp] theorem State.answer_polOf (c : Fin 128) : ((s.answer who n st info result)).polOf c = s.polOf c := by simp [State.polOf]
@[simp] theorem State.answer_profOf (c : Fin 128) : ((s.answer who n st info result)).profOf c = s.profOf c := by simp [State.profOf]
@[simp] theorem State.answer_dirE (c : Fin 256) : ((s.answer who n st info result)).dirE c = s.dirE c := by simp [State.dirE]
@[simp] theorem State.answer_core (c : Fin 4) : ((s.answer who n st info result)).core c = s.core c := by simp [State.core]
@[simp] theorem State.answer_slot (c : Fin 256) : ((s.answer who n st info result)).slot c = s.slot c := by simp [State.slot]

end

end Sys2Proof.Machine
end

