-- ==== Sys2Proof/Laws/Host.lean ====
section
/-! SUPPORT. A host command that is heard: what decoding and the decision come to where no command rule names the opcode. -/

namespace Sys2Proof.Machine

theorem STable.findRule_none {t : STable} {op io ph : Nat} (h : ∀ r, t.ruleOp r op io ph = false) (w : CmdWin) :
    t.findRule op io ph w = none := by
  simp [STable.findRule, STable.ruleHit, h]

theorem STable.frame_none {t : STable} {op io ph : Nat} (h : ∀ r, t.ruleOp r op io ph = false) :
    ((List.finRange 64).find? fun r => (t.rAction r = 1 || t.rAction r = 3) && t.ruleOp r op io ph) = none := by
  simp [h]

theorem State.modPort_congr {s : State} {n : Fin 128} {f g : HostPort → HostPort} (h : f (s.port n) = g (s.port n)) :
    s.modPort n f = s.modPort n g := by
  simp only [State.modPort, vmod, State.port] at h ⊢; rw [h]

theorem State.modPort_id {s : State} {n : Fin 128} {f : HostPort → HostPort} (h : f (s.port n) = s.port n) : s.modPort n f = s := by
  simp only [State.modPort, vmod, State.port] at h ⊢
  rw [h]
  simp [vset, vget]

theorem State.modPort_twice (s : State) (n : Fin 128) (f g : HostPort → HostPort) :
    (s.modPort n f).modPort n g = s.modPort n fun p => g (f p) := by
  simp [State.modPort, vmod, vset, vget]

/-- The port after a command's arrival: the data phase and the burst before it are over, and only RESET keeps RESET ENABLE armed. -/
def HostPort.arrive (op : Nat) (p : HostPort) : HostPort :=
  { p with resetArmed := p.resetArmed && op = 0x99, reply := [], driven := 0, dqsDriven := false, burstOpen := false }

/-- The state after a command's arrival. -/
def State.heard (s : State) (n : Fin 128) (op : Nat) : State :=
  (s.modPort n (HostPort.arrive op)).modStn n fun t => { t with oldCmd := false }

/-- CS# stays low after a data phase, or has risen. -/
def State.keepCs (s : State) (n : Fin 128) (csLow : Bool) : State :=
  s.modPort n fun p => { p with burstOpen := csLow && !p.reply.isEmpty }

@[simp] theorem State.heard_port (s : State) (n : Fin 128) (op : Nat) : (s.heard n op).port n = HostPort.arrive op (s.port n) := by
  simp [State.heard]

@[simp] theorem State.heard_st (s : State) (n : Fin 128) (op : Nat) : (s.heard n op).st n = { s.st n with oldCmd := false } := by
  simp [State.heard]

/-- A change of a port and a change of a Stencil do not meet. -/
theorem State.modPort_modStn (s : State) (n : Fin 128) (f : HostPort → HostPort) (g : Stencil → Stencil) :
    (s.modStn n g).modPort n f = (s.modPort n f).modStn n g := rfl

/-- A command that is heard is decoded. -/
theorem State.host_of_hears {s : State} {n : Fin 128} {c : HostCmd} (h : s.hears n c.op) :
    s.host n c = ((s.heard n c.op).decodeCmd n c).keepCs n c.csLow := by
  obtain ⟨hd, hp, hw, -, -⟩ := h
  obtain ⟨ho, hh⟩ : (s.port n).op = none ∧ (s.ch n).holdWait = false := by simpa [State.wip] using hw
  have hc : s.csRise n = (s.modPort n fun p => { p with reply := [], driven := 0, dqsDriven := false, burstOpen := false }).modStn n
      fun t => { t with oldCmd := false } := by
    simp [State.csRise, ho]
  have hd' : (s.csRise n).decodes n = true := by
    rw [← hd, hc]
    unfold State.decodes
    simp
    rfl
  unfold State.host
  simp only [hd', if_true]
  have e : (s.csRise n).modPort n (fun p => { p with resetArmed := ((s.csRise n).port n).resetArmed && decide (c.op = 0x99) }) = s.heard n c.op := by
    rw [hc, State.modPort_modStn, State.modPort_twice]
    unfold State.heard
    congr 1
    refine State.modPort_congr ?_
    simp [HostPort.arrive]
  rw [e]
  have hdp : (((s.csRise n).port n).dpd && !([0xAB, 0x66, 0x99].contains c.op)) = false := by
    have : ((s.csRise n).port n).dpd = (s.port n).dpd := by rw [hc]; simp
    rw [this]
    cases hq : (s.port n).dpd
    · rfl
    · rcases hp hq with h | h | h <;> simp [h]
  have hwp : (s.heard n c.op).wip n = false := by
    simp [State.wip, HostPort.arrive, ho, hh, State.heard]
  rw [if_neg (by rw [hdp]; exact Bool.false_ne_true), if_neg (by rw [hwp]; simp)]
  rfl

/-- A host command without an array address, named by no rule, is executed. -/
theorem State.judgeCmd_plain {s : State} {n : Fin 128} {c : HostCmd} {b : Bool} {a : Nat}
    (hr : ∀ r, (s.st n).tbl.ruleOp r c.op (s.port n).crIo.toNat (s.st n).phase.code = false)
    (hs : inHostSet c.op (s.port n).crIo.toNat = true) (ha : arrayClass c.op = .none) :
    s.judgeCmd n c b a = s.executeCmd n c.op c := by
  unfold State.judgeCmd
  simp only [STable.findRule_none hr, Option.map_none, Option.getD_none, hs, ha]
  rfl

/-- A command's address phase, where it has one, is recorded in the port. -/
def State.addressed (s : State) (n : Fin 128) (op period : Nat) : State :=
  s.modPort n fun p => if ownAddr op p.crIo.toNat = 0 then p else p.addressed period

theorem ownAddr_space {op io : Nat} (ha : arrayClass op = .none) (h : ownAddr op io ≠ 0) : (spaceOp op || islandOp op) = true := by
  unfold ownAddr at h
  split at h
  · rename_i hs; simp [hs]
  · split at h
    · rename_i hs; simp [hs]
    · simp [ha] at h

/-- A command without an array address that is heard is executed. -/
theorem State.host_plain {s : State} {n : Fin 128} {c : HostCmd} (h : s.hears n c.op) (ha : arrayClass c.op = .none) :
    s.host n c = (((s.heard n c.op).addressed n c.op c.period).executeCmd n c.op c).keepCs n c.csLow := by
  rw [State.host_of_hears h]
  congr 1
  obtain ⟨-, -, -, hs, hr⟩ := h
  have hio : ((s.heard n c.op).port n).crIo = (s.port n).crIo := by simp [HostPort.arrive]
  have hr' : ∀ r, ((s.heard n c.op).st n).tbl.ruleOp r c.op ((s.heard n c.op).port n).crIo.toNat ((s.heard n c.op).st n).phase.code = false := by
    rw [hio]; simpa using hr
  generalize s.heard n c.op = u at hr' hio ⊢
  rw [← hio] at hs
  unfold State.decodeCmd
  simp only [STable.frame_none hr', hs, if_true, Bool.and_true]
  by_cases ho : ownAddr c.op (u.port n).crIo.toNat = 0
  · have e : u.addressed n c.op c.period = u := State.modPort_id (by simp [ho])
    rw [e]
    simp only [ho, ne_eq, not_true_eq_false, if_false, decide_true, Bool.true_or, if_true]
    exact State.judgeCmd_plain hr' hs ha
  · have e : (u.modPort n fun p => { p with period := BitVec.ofNat 16 c.period, ddr := (u.port n).crIo.toNat = 3 }) =
        u.addressed n c.op c.period := by
      refine State.modPort_congr ?_
      rw [if_neg ho]
      rfl
    simp only [ho, ne_eq, not_false_eq_true, if_true, e, ownAddr_space ha ho, Bool.or_true]
    exact State.judgeCmd_plain (by simpa [State.addressed, ho, HostPort.addressed] using hr')
      (by simpa [State.addressed, ho, HostPort.addressed] using hs) ha

/-- WEL ends with a program or an erase. -/
def State.endWel (s : State) (n : Fin 128) : State := s.modPort n fun p => { p with wel := false }

/-- A read that no rule names is judged in the window of its address. -/
theorem State.judgeCmd_read {s : State} {n : Fin 128} {c : HostCmd} {a : Nat}
    (hr : ∀ r, (s.st n).tbl.ruleOp r c.op (s.port n).crIo.toNat (s.st n).phase.code = false)
    (hs : inHostSet c.op (s.port n).crIo.toNat = true) (ha : arrayClass c.op = .read) :
    s.judgeCmd n c true a = match (s.st n).tbl.windowAt a with
      | some w => s.judgeWindow n c.op c a w 0 .out (s.port n).wel 256 1 none (s.port n).wel
      | none => s.refuse n c c.op a none .window .out (s.port n).wel := by
  have hc : refClass c.op = .out := by simp [refClass, ha]
  have h1 : c.op ≠ 0x72 ∧ c.op ≠ 0x01 := by constructor <;> intro e <;> rw [e] at ha <;> cases ha
  unfold State.judgeCmd
  simp only [STable.findRule_none hr, Option.map_none, Option.getD_none, hs, ha, hc]
  cases (s.st n).tbl.windowAt a <;> simp [h1.1, h1.2]

/-- A PAGE PROGRAM that no rule names is judged in the window of its page. -/
theorem State.judgeCmd_program {s : State} {n : Fin 128} {c : HostCmd} {a : Nat}
    (hr : ∀ r, (s.st n).tbl.ruleOp r c.op (s.port n).crIo.toNat (s.st n).phase.code = false)
    (hs : inHostSet c.op (s.port n).crIo.toNat = true) (ha : arrayClass c.op = .program) :
    s.judgeCmd n c true a = (match (s.st n).tbl.windowOf (a / 256 * 256) 256 with
      | .span => s.refuse n c c.op a none .span (.change false) (s.port n).wel
      | .uncovered => s.refuse n c c.op a none .window (.change false) (s.port n).wel
      | .win w => s.judgeWindow n c.op c a w 1 (.change false) (s.port n).wel 256 1 none (s.port n).wel).endWel n := by
  have hc : refClass c.op = .change false := by simp [refClass, ha]
  unfold State.judgeCmd
  simp only [STable.findRule_none hr, Option.map_none, Option.getD_none, hs, ha, hc]
  rfl

/-- An erase that no rule names is judged in the window of its range. -/
theorem State.judgeCmd_erase {s : State} {n : Fin 128} {c : HostCmd} {a k : Nat}
    (hr : ∀ r, (s.st n).tbl.ruleOp r c.op (s.port n).crIo.toNat (s.st n).phase.code = false)
    (hs : inHostSet c.op (s.port n).crIo.toNat = true) (ha : arrayClass c.op = .erase k) :
    s.judgeCmd n c true a = (match (s.st n).tbl.windowOf (a / k * k) k with
      | .span => s.refuse n c c.op a none .span (.change true) (s.port n).wel
      | .uncovered => s.refuse n c c.op a none .window (.change true) (s.port n).wel
      | .win w => s.judgeWindow n c.op c a w 2 (.change true) (s.port n).wel k (if k = 0x10000 then 16 else 1) none (s.port n).wel).endWel
        n := by
  have hc : refClass c.op = .change true := by simp [refClass, ha]
  unfold State.judgeCmd
  simp only [STable.findRule_none hr, Option.map_none, Option.getD_none, hs, ha, hc]
  rfl

/-- CHIP ERASE is refused with reason SPAN. -/
theorem State.judgeCmd_chip {s : State} {n : Fin 128} {c : HostCmd} {b : Bool} {a : Nat}
    (hr : ∀ r, (s.st n).tbl.ruleOp r c.op (s.port n).crIo.toNat (s.st n).phase.code = false)
    (hs : inHostSet c.op (s.port n).crIo.toNat = true) (ha : arrayClass c.op = .chip) :
    s.judgeCmd n c b a = (s.refuse n c c.op 0 none .span (.change true) (s.port n).wel).endWel n := by
  have hc : refClass c.op = .change true := by simp [refClass, ha]
  unfold State.judgeCmd
  simp only [STable.findRule_none hr, Option.map_none, Option.getD_none, hs, ha, hc]
  rfl

/-- The state of a command with an array address, after its address phase. -/
def State.taken (s : State) (n : Fin 128) (op period : Nat) : State := (s.heard n op).modPort n fun p => p.addressed period

/-- A command with an array address that is heard goes to the mailbox or to the Stencil's decision. -/
theorem State.host_array {s : State} {n : Fin 128} {c : HostCmd} (h : s.hears n c.op) (ha : arrayClass c.op ≠ .none)
    (hx : arrayClass c.op ≠ .chip) :
    s.host n c = (match (s.st n).tbl.windowAt (s.arrayAddr n c.op c.addr) with
      | some w =>
        if (s.st n).tbl.treat w = 5 then (s.taken n c.op c.period).mailboxCmd n c (s.arrayAddr n c.op c.addr)
        else (s.taken n c.op c.period).judgeCmd n c true (s.arrayAddr n c.op c.addr)
      | none => (s.taken n c.op c.period).judgeCmd n c true (s.arrayAddr n c.op c.addr)).keepCs n c.csLow := by
  rw [State.host_of_hears h]
  congr 1
  obtain ⟨-, -, -, hs, hr⟩ := h
  have hnot : ∀ l : List Nat, l.all (fun o => arrayClass o = .none) = true → l.contains c.op = false := by
    intro l hl
    cases hc : l.contains c.op
    · rfl
    · exact absurd (of_decide_eq_true (List.all_eq_true.mp hl _ (List.contains_iff_mem.mp hc))) ha
  have hsp : spaceOp c.op = false := hnot _ (by decide)
  have hil : islandOp c.op = false := hnot _ (by decide)
  have ho : ownAddr c.op (s.port n).crIo.toNat ≠ 0 := by
    unfold ownAddr
    simp only [hsp, hil, ha, hx, decide_false, Bool.or_self, Bool.false_eq_true, if_false]
    split
    · decide
    · split <;> decide
  unfold State.decodeCmd
  have hio : ((s.heard n c.op).port n).crIo = (s.port n).crIo := by simp [HostPort.arrive]
  have hf : ((s.heard n c.op).port n).four = (s.port n).four := by simp [HostPort.arrive, HostPort.four]
  have hvf : ∀ u : State, (u.port n).ident = (s.port n).ident → u.liveLog2? n = s.liveLog2? n → u.vfSize n = s.vfSize n := by
    intro u h1 h2
    simp only [State.vfSize, State.vfLog2?, h1, h2]
  have hvt : (s.taken n c.op c.period).vfSize n = s.vfSize n :=
    hvf _ (by simp [State.taken, HostPort.arrive, HostPort.addressed]) rfl
  have hst : ((s.heard n c.op).st n).tbl = (s.st n).tbl := by simp
  have hph : ((s.heard n c.op).st n).phase = (s.st n).phase := by simp
  have e : ((s.heard n c.op).modPort n fun p =>
      { p with period := BitVec.ofNat 16 c.period, ddr := decide ((s.port n).crIo.toNat = 3) }) = s.taken n c.op c.period := by
    refine State.modPort_congr ?_
    simp [HostPort.addressed, HostPort.arrive]
  simp only [hio, hst, hph, STable.frame_none hr, hs, if_true, ho, ne_eq, not_false_eq_true, e, hsp, hil, Bool.or_self, Bool.false_and,
    decide_false, Bool.false_eq_true, if_false, hf, hvt]
  rfl

end Sys2Proof.Machine
end

