-- ==== Sys2Proof/Laws/Memory.lean ====
section
/-! SUPPORT. Byte stores: every operation keeps the canonical form, and what is read after a write. -/

namespace Sys2Proof.Machine

/-! ## Reading after writing -/

theorem Memory.read_insert (m : Memory) (a b : Nat) (v : Byte) : (m.insert a v).read b = if a = b then v else m.read b := by
  induction m with
  | nil => simp [Memory.insert, Memory.read]
  | cons c t ih =>
    obtain ⟨k, w⟩ := c
    simp only [Memory.insert]
    split
    · simp [Memory.read]
    · split
      · subst_vars; simp only [Memory.read]; split <;> rfl
      · simp only [Memory.read, ih]
        by_cases h : k = b
        · subst h; simp; omega
        · simp [h]

theorem Memory.read_filter (m : Memory) (p : Nat → Bool) (b : Nat) :
    Memory.read (m.filter fun c => p c.1) b = if p b then m.read b else Memory.unwritten := by
  induction m with
  | nil => simp [Memory.read]
  | cons c t ih =>
    obtain ⟨k, w⟩ := c
    by_cases h : k = b
    · subst h; cases hp : p k <;> simp [hp, Memory.read, ih]
    · cases hp : p k <;> simp [hp, Memory.read, ih, h]

theorem Memory.read_erase (m : Memory) (a b : Nat) : (m.erase a).read b = if a = b then Memory.unwritten else m.read b := by
  refine (Memory.read_filter m (fun k => k ≠ a) b).trans ?_
  by_cases h : a = b
  · simp [h]
  · simp [h, Ne.symm h]

/-- A byte reads as it was written, and every other byte as before. -/
theorem Memory.read_write (m : Memory) (a b : Nat) (v : Byte) : (m.write a v).read b = if a = b then v else m.read b := by
  unfold Memory.write
  split
  · subst_vars; exact Memory.read_erase m a b
  · exact Memory.read_insert m a b v

theorem Memory.read_write_same (m : Memory) (a : Nat) (v : Byte) : (m.write a v).read a = v := by simp [Memory.read_write]

theorem Memory.read_write_ne {m : Memory} {a b : Nat} {v : Byte} (h : a ≠ b) : (m.write a v).read b = m.read b := by
  simp [Memory.read_write, h]

theorem Memory.read_eraseRange (m : Memory) (a n b : Nat) :
    (m.eraseRange a n).read b = if a ≤ b ∧ b < a + n then Memory.unwritten else m.read b := by
  refine (Memory.read_filter m (fun k => k < a ∨ a + n ≤ k) b).trans ?_
  by_cases h : b < a ∨ a + n ≤ b
  · rw [if_pos (by simpa using h), if_neg (by omega)]
  · rw [if_neg (by simpa using h), if_pos (by omega)]

/-! ## The canonical form -/

theorem Memory.wf_nil : Memory.wf [] := ⟨List.Pairwise.nil, by simp⟩

theorem Memory.wf_filter {m : Memory} (p : Host.Cell → Bool) (h : Memory.wf m) : Memory.wf (m.filter p) :=
  ⟨h.1.filter _, fun c hc => h.2 c (List.mem_filter.mp hc).1⟩

theorem Memory.wf_erase {m : Memory} (a : Nat) (h : Memory.wf m) : Memory.wf (m.erase a) := Memory.wf_filter _ h

theorem Memory.wf_eraseRange {m : Memory} (a n : Nat) (h : Memory.wf m) : Memory.wf (m.eraseRange a n) := Memory.wf_filter _ h

theorem Memory.mem_insert {m : Memory} {a : Nat} {v : Byte} {c : Host.Cell} (h : c ∈ m.insert a v) : c = (a, v) ∨ c ∈ m := by
  induction m with
  | nil => simpa [Memory.insert] using h
  | cons d t ih =>
    obtain ⟨k, w⟩ := d
    simp only [Memory.insert] at h
    split at h
    · simpa using h
    · split at h
      · rcases List.mem_cons.mp h with h | h
        · exact .inl h
        · exact .inr (List.mem_cons_of_mem _ h)
      · rcases List.mem_cons.mp h with h | h
        · exact .inr (h ▸ List.mem_cons_self)
        · exact (ih h).imp id (List.mem_cons_of_mem _)

theorem Memory.wf_insert {m : Memory} {a : Nat} {v : Byte} (hv : v ≠ Memory.unwritten) (h : Memory.wf m) : Memory.wf (m.insert a v) := by
  refine ⟨?_, fun c hc => (Memory.mem_insert hc).elim (fun e => e ▸ hv) (h.2 c)⟩
  obtain ⟨h, -⟩ := h
  induction m with
  | nil => simp [Memory.insert]
  | cons d t ih =>
    obtain ⟨k, w⟩ := d
    obtain ⟨h1, h2⟩ := List.pairwise_cons.mp h
    simp only [Memory.insert]
    split
    · refine List.pairwise_cons.mpr ⟨fun c hc => ?_, h⟩
      rcases List.mem_cons.mp hc with rfl | hc
      · assumption
      · exact Nat.lt_trans ‹_› (h1 c hc)
    · split
      · subst_vars; exact List.pairwise_cons.mpr ⟨h1, h2⟩
      · refine List.pairwise_cons.mpr ⟨fun c hc => ?_, ih h2⟩
        rcases Memory.mem_insert hc with rfl | hc
        · simp only; omega
        · exact h1 c hc

theorem Memory.wf_write {m : Memory} (a : Nat) (v : Byte) (h : Memory.wf m) : Memory.wf (m.write a v) := by
  unfold Memory.write
  split
  · exact Memory.wf_erase a h
  · exact Memory.wf_insert ‹_› h

theorem Memory.wf_writeList {m : Memory} (a : Nat) (bs : List Byte) (h : Memory.wf m) : Memory.wf (m.writeList a bs) := by
  induction bs generalizing m a with
  | nil => exact h
  | cons v vs ih => exact ih _ (Memory.wf_write a v h)

theorem Memory.wf_andList {m : Memory} (a : Nat) (bs : List Byte) (h : Memory.wf m) : Memory.wf (m.andList a bs) := by
  induction bs generalizing m a with
  | nil => exact h
  | cons v vs ih => exact ih _ (Memory.wf_write a _ h)

theorem Memory.wf_foldAnd {l : List (Nat × Byte)} {g : Nat × Byte → Nat} {m : Memory} (h : Memory.wf m) :
    Memory.wf (l.foldl (fun m d => m.andList (g d) [d.2]) m) := by
  induction l generalizing m with
  | nil => exact h
  | cons d l ih => exact ih (Memory.wf_andList _ _ h)

/-! ## KEEP and SCRATCH -/

/-- Both areas of a channel are in canonical form. -/
def Areas.ok (a : Areas) : Prop := Memory.wf a.keep ∧ Memory.wf a.scratch

theorem Areas.ok_reset : Areas.reset.ok := ⟨Memory.wf_nil, Memory.wf_nil⟩

theorem Areas.ok_restart (a : Areas) : a.restart.ok := ⟨Memory.wf_nil, Memory.wf_nil⟩

theorem Areas.ok_foldl {α : Type} {l : List α} {f : Areas → α → Areas} (h : ∀ a x, a.ok → (f a x).ok) {a : Areas} (ha : a.ok) :
    (l.foldl f a).ok := by
  induction l generalizing a with
  | nil => exact ha
  | cons x l ih => exact ih (h a x ha)

theorem Areas.ok_markDirty {now : Nat} {a : Areas} {blk : Nat} (h : a.ok) : (a.markDirty now blk).ok := by
  unfold Areas.markDirty; split <;> exact h

theorem Areas.ok_keepProgram {now : Nat} {a : Areas} {addr : Nat} {data : List Byte} (h : a.ok) : (a.keepProgram now addr data).ok :=
  Areas.ok_markDirty ⟨Memory.wf_andList _ _ h.1, h.2⟩

theorem Areas.ok_keepErase {now : Nat} {a : Areas} {addr len : Nat} (h : a.ok) : (a.keepErase now addr len).ok :=
  Areas.ok_foldl (fun _ _ ha => Areas.ok_markDirty ha) ⟨Memory.wf_eraseRange _ _ h.1, h.2⟩

theorem Areas.ok_restoreBlock {salt : Option Nat} {a : Areas} {blk : Nat} (h : a.ok) : (a.restoreBlock salt blk).ok := by
  have he := Memory.wf_eraseRange (4096 * blk) 4096 h.1
  unfold Areas.restoreBlock
  dsimp only
  split
  · split
    · exact ⟨Memory.wf_writeList _ _ he, h.2⟩
    · exact ⟨he, h.2⟩
  · exact ⟨he, h.2⟩

theorem Areas.ok_restore {salt : Option Nat} {a : Areas} (h : a.ok) : (a.restore salt).ok :=
  Areas.ok_foldl (l := a.copies) (f := fun a c => a.restoreBlock salt c.1) (fun _ _ ha => Areas.ok_restoreBlock ha)
    (a := { a with keep := [], dirty := [] }) ⟨Memory.wf_nil, h.2⟩

end Sys2Proof.Machine
end

