-- ==== Sys2Proof/Laws/KeepsMem.lean ====
section
/-! SUPPORT. Every shared operation that touches the KEEP and SCRATCH areas keeps their canonical form; one that does not follows from
its frame (`KeepsMem.of_frame`). -/

namespace Sys2Proof.Machine

/-- From s to t the byte stores keep their canonical form. -/
def KeepsMem (s t : State) : Prop := s.memOk → t.memOk

theorem KeepsMem.refl (s : State) : KeepsMem s s := id

theorem KeepsMem.comp {s t u : State} (h : KeepsMem s t) (h' : KeepsMem t u) : KeepsMem s u := fun x => h' (h x)

theorem KeepsMem.of_frame {fs : List Field} {s t : State} (h : Frame fs s t) (hf : Field.areas ∉ fs) : KeepsMem s t := by
  have e : t.areas = s.areas := h .areas hf
  intro hs n
  have := hs n
  simpa only [State.area, e] using this

theorem KeepsMem.of_all {s t : State} (h : ∀ n, (t.area n).ok) : KeepsMem s t := fun _ n => h n

theorem State.put_fca_mem {s₀ s : State} {x : FrontCache} (h : KeepsMem s₀ s) : KeepsMem s₀ { s with fca := x } := h

theorem State.put_imm_mem {s₀ s : State} {x : ImageMem} (h : KeepsMem s₀ s) : KeepsMem s₀ { s with imm := x } := h

theorem State.put_plat_mem {s₀ s : State} {x : Platform} (h : KeepsMem s₀ s) : KeepsMem s₀ { s with plat := x } := h

theorem KeepsMem.foldl {α : Type} {s₀ s : State} {l : List α} {g : State → α → State} (h₀ : KeepsMem s₀ s) (h : ∀ s x, KeepsMem s (g s x)) : KeepsMem s₀ (l.foldl g s) := by
  induction l generalizing s with
  | nil => exact h₀
  | cons x l ih => exact ih (h₀.comp (h s x))

theorem KeepsMem.foldl_fst {α β : Type} {s₀ : State} {a : State × β} {l : List α} {g : State × β → α → State × β} (h₀ : KeepsMem s₀ a.1) (h : ∀ a x, KeepsMem a.1 (g a x).1) : KeepsMem s₀ (l.foldl g a).1 := by
  induction l generalizing a with
  | nil => exact h₀
  | cons x l ih => exact ih (h₀.comp (h a x))

theorem State.forAll_mem {α : Type} {s₀ s : State} {f : α → State → State} {l : List α} (h₀ : KeepsMem s₀ s) (h : ∀ x s, KeepsMem s (f x s)) :
    KeepsMem s₀ (s.forAll l f) := KeepsMem.foldl h₀ fun s x => h x s

theorem State.raise_mem {s₀ : State} {s : State} {code : Nat} {ch : Nat} {data : List Nat} (h : KeepsMem s₀ s) : KeepsMem s₀ (State.raise s code ch data) :=
  h.comp (KeepsMem.of_frame (State.raise_frame (Frame.refl _ _) (Field.sub_refl _)) (by decide))

theorem State.modMbx_mem {s₀ : State} {s : State} {n : Fin 128} {f : Mailbox → Mailbox} (h : KeepsMem s₀ s) : KeepsMem s₀ (State.modMbx s n f) :=
  h.comp (KeepsMem.of_frame (State.modMbx_frame (Frame.refl _ _) (Field.sub_refl _)) (by decide))

theorem State.closeCdi_mem {s₀ : State} {s : State} {n : Fin 128} (h : KeepsMem s₀ s) : KeepsMem s₀ (State.closeCdi s n) :=
  h.comp (KeepsMem.of_frame (State.closeCdi_frame (Frame.refl _ _) (Field.sub_refl _)) (by decide))

theorem State.modStn_mem {s₀ : State} {s : State} {n : Fin 128} {f : Stencil → Stencil} (h : KeepsMem s₀ s) : KeepsMem s₀ (State.modStn s n f) :=
  h.comp (KeepsMem.of_frame (State.modStn_frame (Frame.refl _ _) (Field.sub_refl _)) (by decide))

theorem State.modPort_mem {s₀ : State} {s : State} {n : Fin 128} {f : HostPort → HostPort} (h : KeepsMem s₀ s) : KeepsMem s₀ (State.modPort s n f) :=
  h.comp (KeepsMem.of_frame (State.modPort_frame (Frame.refl _ _) (Field.sub_refl _)) (by decide))

theorem State.modCtl_mem {s₀ : State} {s : State} {n : Fin 128} {f : Ctl → Ctl} (h : KeepsMem s₀ s) : KeepsMem s₀ (State.modCtl s n f) :=
  h.comp (KeepsMem.of_frame (State.modCtl_frame (Frame.refl _ _) (Field.sub_refl _)) (by decide))

theorem State.answerAll_mem {s₀ : State} {s : State} {n : Fin 128} {k2 : AwaitKind → Bool} {st : Status} {info : Nat} {result : List Byte} (h : KeepsMem s₀ s) : KeepsMem s₀ (State.answerAll s n k2 st info result) :=
  h.comp (KeepsMem.of_frame (State.answerAll_frame (Frame.refl _ _) (Field.sub_refl _)) (by decide))

theorem State.transition_mem {s₀ : State} {s : State} {n : Fin 128} {st : ChState} {cause : Cause} (h : KeepsMem s₀ s) : KeepsMem s₀ (State.transition s n st cause) :=
  h.comp (KeepsMem.of_frame (State.transition_frame (Frame.refl _ _) (Field.sub_refl _)) (by decide))

theorem State.forChans_mem {s₀ s : State} {f : Fin 128 → State → State} (h₀ : KeepsMem s₀ s) (h : ∀ n s, KeepsMem s (f n s)) :
    KeepsMem s₀ (s.forChans f) := KeepsMem.foldl h₀ fun s x => h x s

theorem State.mbxProgram_mem {s₀ : State} {s : State} {n : Fin 128} {w : List (Nat × Byte)} (h : KeepsMem s₀ s) : KeepsMem s₀ (State.mbxProgram s n w) :=
  h.comp (KeepsMem.of_frame (State.mbxProgram_frame (Frame.refl _ _) (Field.sub_refl _)) (by decide))

theorem State.reply_mem {s₀ : State} {s : State} {n : Fin 128} {op : Nat} {bs : List Byte} (h : KeepsMem s₀ s) : KeepsMem s₀ (State.reply s n op bs) :=
  h.comp (KeepsMem.of_frame (State.reply_frame (Frame.refl _ _) (Field.sub_refl _)) (by decide))

theorem State.shortRead_mem {s₀ : State} {s : State} {n : Fin 128} {op : Nat} {len : Nat} {cycles : Nat} (h : KeepsMem s₀ s) : KeepsMem s₀ (State.shortRead s n op len cycles) :=
  h.comp (KeepsMem.of_frame (State.shortRead_frame (Frame.refl _ _) (Field.sub_refl _)) (by decide))

theorem State.tagFailure_mem {s₀ : State} {s : State} {n : Fin 128} {dir : Nat} {line : Nat} (h : KeepsMem s₀ s) : KeepsMem s₀ (State.tagFailure s n dir line) :=
  h.comp (KeepsMem.of_frame (State.tagFailure_frame (Frame.refl _ _) (Field.sub_refl _)) (by decide))

theorem State.modAreas_mem {s₀ s : State} {n : Fin 128} {f : Areas → Areas} (h : KeepsMem s₀ s) (hf : ∀ a, a.ok → (f a).ok) :
    KeepsMem s₀ (s.modAreas n f) := by
  refine h.comp fun hs c => ?_
  show Areas.ok _
  by_cases hc : c = n
  · subst hc; simpa using hf _ (hs c)
  · have : (s.modAreas n f).area c = s.area c := State.modAreas_area_ne _ _ _ hc
    rw [this]; exact hs c

theorem State.burstStop_mem {s₀ s : State} {n : Fin 128} {c : BCell} (h : KeepsMem s₀ s) : KeepsMem s₀ (State.burstStop s n c) := by
  refine h.comp ?_
  unfold State.burstStop
  split
  · exact State.modPort_mem (KeepsMem.refl _)
  · refine State.tagFailure_mem ?_
    split
    · exact State.put_fca_mem (KeepsMem.refl _)
    · split
      · exact State.put_fca_mem (KeepsMem.refl _)
      · exact KeepsMem.refl _
  · exact State.put_imm_mem (KeepsMem.refl _)
  · exact State.raise_mem (State.modAreas_mem (State.tagFailure_mem (KeepsMem.refl _)) fun _ ha => Areas.ok_restoreBlock ha)
  · exact State.modAreas_mem (State.tagFailure_mem (KeepsMem.refl _)) fun _ ha => ⟨ha.1, Memory.wf_eraseRange _ _ ha.2⟩
  · exact KeepsMem.refl _

theorem State.placeLine_mem {s₀ : State} {s : State} {i : Nat} {line : Nat} (h : KeepsMem s₀ s) : KeepsMem s₀ (State.placeLine s i line) :=
  h.comp (KeepsMem.of_frame (State.placeLine_frame (Frame.refl _ _) (Field.sub_refl _)) (by decide))

theorem State.touchLine_mem {s₀ : State} {s : State} {i : Nat} {line : Nat} (h : KeepsMem s₀ s) : KeepsMem s₀ (State.touchLine s i line) :=
  h.comp (KeepsMem.of_frame (State.touchLine_frame (Frame.refl _ _) (Field.sub_refl _)) (by decide))

theorem State.serveBurst_mem {s₀ : State} {s : State} {n : Fin 128} {c : HostCmd} {op : Nat} {a : Nat} (h : KeepsMem s₀ s) : KeepsMem s₀ (State.serveBurst s n c op a) := by
  refine h.comp ?_
  clear h
  unfold State.serveBurst
  (try dsimp -proj only)
  repeat' (with_reducible first
    | assumption
    | apply KeepsMem.refl
    | (apply State.modAreas_mem; rotate_left; (intro a ha; (first | exact Areas.ok_keepErase ha | exact Areas.ok_restore ha | exact Areas.ok_restoreBlock ha | exact ha | exact ⟨ha.1, Memory.wf_nil⟩ | exact ⟨ha.1, Memory.wf_eraseRange _ _ ha.2⟩ | exact Areas.ok_foldl (fun _ _ h => Areas.ok_keepProgram h) ha | exact ⟨(Areas.ok_foldl (fun _ _ h => Areas.ok_restoreBlock h) ha).1, Memory.wf_nil⟩ | exact ⟨ha.1, Memory.wf_foldAnd ha.2⟩)))
    | apply State.closeCdi_mem
    | apply State.reply_mem
    | apply State.burstStop_mem
    | apply State.forAll_mem
    | apply State.touchLine_mem
    | apply State.placeLine_mem
    | intro _
    | split)

theorem State.undecoded_mem {s₀ : State} {s : State} {n : Fin 128} (h : KeepsMem s₀ s) : KeepsMem s₀ (State.undecoded s n) :=
  h.comp (KeepsMem.of_frame (State.undecoded_frame (Frame.refl _ _) (Field.sub_refl _)) (by decide))

theorem State.ownOp_mem {s₀ : State} {s : State} {n : Fin 128} (h : KeepsMem s₀ s) : KeepsMem s₀ (State.ownOp s n) :=
  h.comp (KeepsMem.of_frame (State.ownOp_frame (Frame.refl _ _) (Field.sub_refl _)) (by decide))

theorem State.mailboxCmd_mem {s₀ : State} {s : State} {n : Fin 128} {c : HostCmd} {a : Nat} (h : KeepsMem s₀ s) : KeepsMem s₀ (State.mailboxCmd s n c a) := by
  refine h.comp ?_
  clear h
  unfold State.mailboxCmd
  (try dsimp -proj only)
  repeat' (with_reducible first
    | assumption
    | apply KeepsMem.refl
    | (apply State.modAreas_mem; rotate_left; (intro a ha; (first | exact Areas.ok_keepErase ha | exact Areas.ok_restore ha | exact Areas.ok_restoreBlock ha | exact ha | exact ⟨ha.1, Memory.wf_nil⟩ | exact ⟨ha.1, Memory.wf_eraseRange _ _ ha.2⟩ | exact Areas.ok_foldl (fun _ _ h => Areas.ok_keepProgram h) ha | exact ⟨(Areas.ok_foldl (fun _ _ h => Areas.ok_restoreBlock h) ha).1, Memory.wf_nil⟩ | exact ⟨ha.1, Memory.wf_foldAnd ha.2⟩)))
    | apply State.mbxProgram_mem
    | apply State.shortRead_mem
    | apply State.serveBurst_mem
    | apply State.undecoded_mem
    | apply State.modPort_mem
    | apply State.ownOp_mem
    | intro _
    | split)

theorem State.issue_mem {s₀ : State} {s : State} {n : Fin 128} {cs : List LocalCmd} (h : KeepsMem s₀ s) : KeepsMem s₀ (State.issue s n cs) :=
  h.comp (KeepsMem.of_frame (State.issue_frame (Frame.refl _ _) (Field.sub_refl _)) (by decide))

theorem State.servePass_mem {s₀ : State} {s : State} {n : Fin 128} {c : HostCmd} {op : Nat} {a : Nat} {w : Fin 32} {cs : List LocalCmd} (h : KeepsMem s₀ s) : KeepsMem s₀ (State.servePass s n c op a w cs) :=
  h.comp (KeepsMem.of_frame (State.servePass_frame (Frame.refl _ _) (Field.sub_refl _)) (by decide))

theorem State.refuse_mem {s₀ : State} {s : State} {n : Fin 128} {c : HostCmd} {op : Nat} {addr : Nat} {win : Option (Fin 32)} {r : Reason} {cls : RefClass} {wel : Bool} (h : KeepsMem s₀ s) : KeepsMem s₀ (State.refuse s n c op addr win r cls wel) :=
  h.comp (KeepsMem.of_frame (State.refuse_frame (Frame.refl _ _) (Field.sub_refl _)) (by decide))

theorem State.forward_mem {s₀ : State} {s : State} {n : Fin 128} {erase : Bool} {len : Nat} {cs : List LocalCmd} (h : KeepsMem s₀ s) : KeepsMem s₀ (State.forward s n erase len cs) :=
  h.comp (KeepsMem.of_frame (State.forward_frame (Frame.refl _ _) (Field.sub_refl _)) (by decide))

theorem State.takeTokens_mem {s₀ : State} {s : State} {n : Fin 128} {w : Fin 32} {erase : Bool} {cost : Nat} (h : KeepsMem s₀ s) : KeepsMem s₀ (State.takeTokens s n w erase cost) :=
  h.comp (KeepsMem.of_frame (State.takeTokens_frame (Frame.refl _ _) (Field.sub_refl _)) (by decide))

theorem State.serveChange_mem {s₀ s : State} {n : Fin 128} {c : HostCmd} {a : Nat} {w : Fin 32} {erase : Bool} {len : Nat} {cost : Nat} {cs : List LocalCmd} (h : KeepsMem s₀ s) :
    KeepsMem s₀ (State.serveChange s n c a w erase len cost cs) := by
  refine h.comp ?_
  have ht : KeepsMem s (s.takeTokens n w erase cost) := State.takeTokens_mem (KeepsMem.refl _)
  unfold State.serveChange
  dsimp only
  split
  · exact State.forward_mem ht
  · split
    · exact State.modAreas_mem (State.ownOp_mem ht) fun _ ha => Areas.ok_keepErase ha
    · exact State.modAreas_mem (State.ownOp_mem ht) fun _ ha => Areas.ok_foldl (fun _ _ h => Areas.ok_keepProgram h) ha
  · split
    · exact State.modAreas_mem (State.ownOp_mem ht) fun _ ha => ⟨ha.1, Memory.wf_eraseRange _ _ ha.2⟩
    · exact State.modAreas_mem (State.ownOp_mem ht) fun _ ha => ⟨ha.1, Memory.wf_foldAnd ha.2⟩
  · exact ht

theorem State.judgeWindow_mem {s₀ : State} {s : State} {n : Fin 128} {op : Nat} {c : HostCmd} {a : Nat} {w : Fin 32} {cls : Nat} {rc : RefClass} {wel : Bool} {len : Nat} {cost : Nat} {frame : Option (List LocalCmd)} {gate : Bool} (h : KeepsMem s₀ s) : KeepsMem s₀ (State.judgeWindow s n op c a w cls rc wel len cost frame gate) := by
  refine h.comp ?_
  clear h
  unfold State.judgeWindow
  (try dsimp -proj only)
  repeat' (with_reducible first
    | assumption
    | apply KeepsMem.refl
    | (apply State.modAreas_mem; rotate_left; (intro a ha; (first | exact Areas.ok_keepErase ha | exact Areas.ok_restore ha | exact Areas.ok_restoreBlock ha | exact ha | exact ⟨ha.1, Memory.wf_nil⟩ | exact ⟨ha.1, Memory.wf_eraseRange _ _ ha.2⟩ | exact Areas.ok_foldl (fun _ _ h => Areas.ok_keepProgram h) ha | exact ⟨(Areas.ok_foldl (fun _ _ h => Areas.ok_restoreBlock h) ha).1, Memory.wf_nil⟩ | exact ⟨ha.1, Memory.wf_foldAnd ha.2⟩)))
    | apply State.issue_mem
    | apply State.shortRead_mem
    | apply State.servePass_mem
    | apply State.serveBurst_mem
    | apply State.refuse_mem
    | apply State.serveChange_mem
    | intro _
    | split)

theorem State.executeCmd_mem {s₀ : State} {s : State} {n : Fin 128} {op : Nat} {c : HostCmd} (h : KeepsMem s₀ s) : KeepsMem s₀ (State.executeCmd s n op c) :=
  h.comp (KeepsMem.of_frame (State.executeCmd_frame (Frame.refl _ _) (Field.sub_refl _)) (by decide))

theorem State.judgeCmd_mem {s₀ s : State} {n : Fin 128} {c : HostCmd} {hasAddr : Bool} {a : Nat} (h : KeepsMem s₀ s) :
    KeepsMem s₀ (State.judgeCmd s n c hasAddr a) := by
  refine h.comp ?_
  clear h
  unfold State.judgeCmd
  extract_lets p io t ph range winOf r act rcOwn clearWel ruleWin op addr rc
  have hc : ∀ u op, KeepsMem s u → KeepsMem s (clearWel u op) := by
    intro u op hu
    simp only [clearWel]
    repeat' (with_reducible first
      | exact hu
      | apply State.modPort_mem
      | split)
  clear_value clearWel p io t ph range winOf r act rcOwn ruleWin op addr rc
  repeat' (with_reducible first
    | apply KeepsMem.refl
    | apply hc
    | apply State.refuse_mem
    | apply State.judgeWindow_mem
    | apply State.undecoded_mem
    | apply State.executeCmd_mem
    | (extract_lets; clear_value *)
    | split)

theorem State.decodeCmd_mem {s₀ : State} {s : State} {n : Fin 128} {c : HostCmd} (h : KeepsMem s₀ s) : KeepsMem s₀ (State.decodeCmd s n c) := by
  refine h.comp ?_
  clear h
  unfold State.decodeCmd
  (try dsimp -proj only)
  repeat' (with_reducible first
    | assumption
    | apply KeepsMem.refl
    | (apply State.modAreas_mem; rotate_left; (intro a ha; (first | exact Areas.ok_keepErase ha | exact Areas.ok_restore ha | exact Areas.ok_restoreBlock ha | exact ha | exact ⟨ha.1, Memory.wf_nil⟩ | exact ⟨ha.1, Memory.wf_eraseRange _ _ ha.2⟩ | exact Areas.ok_foldl (fun _ _ h => Areas.ok_keepProgram h) ha | exact ⟨(Areas.ok_foldl (fun _ _ h => Areas.ok_restoreBlock h) ha).1, Memory.wf_nil⟩ | exact ⟨ha.1, Memory.wf_foldAnd ha.2⟩)))
    | apply State.mailboxCmd_mem
    | apply State.judgeCmd_mem
    | apply State.modPort_mem
    | intro _
    | split)

theorem State.csRise_mem {s₀ : State} {s : State} {n : Fin 128} (h : KeepsMem s₀ s) : KeepsMem s₀ (State.csRise s n) :=
  h.comp (KeepsMem.of_frame (State.csRise_frame (Frame.refl _ _) (Field.sub_refl _)) (by decide))

theorem State.host_mem {s₀ : State} {s : State} {n : Fin 128} {c : HostCmd} (h : KeepsMem s₀ s) : KeepsMem s₀ (State.host s n c) := by
  refine h.comp ?_
  clear h
  unfold State.host
  (try dsimp -proj only)
  repeat' (with_reducible first
    | assumption
    | apply KeepsMem.refl
    | (apply State.modAreas_mem; rotate_left; (intro a ha; (first | exact Areas.ok_keepErase ha | exact Areas.ok_restore ha | exact Areas.ok_restoreBlock ha | exact ha | exact ⟨ha.1, Memory.wf_nil⟩ | exact ⟨ha.1, Memory.wf_eraseRange _ _ ha.2⟩ | exact Areas.ok_foldl (fun _ _ h => Areas.ok_keepProgram h) ha | exact ⟨(Areas.ok_foldl (fun _ _ h => Areas.ok_restoreBlock h) ha).1, Memory.wf_nil⟩ | exact ⟨ha.1, Memory.wf_foldAnd ha.2⟩)))
    | apply State.decodeCmd_mem
    | apply State.reply_mem
    | apply State.csRise_mem
    | apply State.undecoded_mem
    | apply State.modPort_mem
    | intro _
    | split)

theorem State.mbxPage_mem {s₀ : State} {s : State} {n : Fin 128} {off : Nat} {bytes : List Byte} (h : KeepsMem s₀ s) : KeepsMem s₀ (State.mbxPage s n off bytes) := by
  refine h.comp ?_
  clear h
  unfold State.mbxPage
  (try dsimp -proj only)
  repeat' (with_reducible first
    | assumption
    | apply KeepsMem.refl
    | (apply State.modAreas_mem; rotate_left; (intro a ha; (first | exact Areas.ok_keepErase ha | exact Areas.ok_restore ha | exact Areas.ok_restoreBlock ha | exact ha | exact ⟨ha.1, Memory.wf_nil⟩ | exact ⟨ha.1, Memory.wf_eraseRange _ _ ha.2⟩ | exact Areas.ok_foldl (fun _ _ h => Areas.ok_keepProgram h) ha | exact ⟨(Areas.ok_foldl (fun _ _ h => Areas.ok_restoreBlock h) ha).1, Memory.wf_nil⟩ | exact ⟨ha.1, Memory.wf_foldAnd ha.2⟩)))
    | apply State.host_mem
    | intro _
    | split)

theorem State.modCore_mem {s₀ : State} {s : State} {k1 : Fin 4} {f : Core → Core} (h : KeepsMem s₀ s) : KeepsMem s₀ (State.modCore s k1 f) :=
  h.comp (KeepsMem.of_frame (State.modCore_frame (Frame.refl _ _) (Field.sub_refl _)) (by decide))

theorem State.finishJob_mem {s₀ : State} {s : State} {j : BurinJob} {st : Status} {info : optParam Nat 0} {result : optParam (List Byte) []} (h : KeepsMem s₀ s) : KeepsMem s₀ (State.finishJob s j st info result) :=
  h.comp (KeepsMem.of_frame (State.finishJob_frame (Frame.refl _ _) (Field.sub_refl _)) (by decide))

theorem State.coreOut_mem {s₀ : State} {s : State} {k1 : Fin 4} {reason : Nat} {test : Bool} (h : KeepsMem s₀ s) : KeepsMem s₀ (State.coreOut s k1 reason test) :=
  h.comp (KeepsMem.of_frame (State.coreOut_frame (Frame.refl _ _) (Field.sub_refl _)) (by decide))

theorem State.dispatchJobs_mem {s₀ : State} {s : State} (h : KeepsMem s₀ s) : KeepsMem s₀ (State.dispatchJobs s) :=
  h.comp (KeepsMem.of_frame (State.dispatchJobs_frame (Frame.refl _ _) (Field.sub_refl _)) (by decide))

theorem State.internalRun_mem {s₀ : State} {s : State} {time : Nat} (h : KeepsMem s₀ s) : KeepsMem s₀ (State.internalRun s time) :=
  h.comp (KeepsMem.of_frame (State.internalRun_frame (Frame.refl _ _) (Field.sub_refl _)) (by decide))

theorem State.warmClear_mem {s₀ s : State} (h : KeepsMem s₀ s) : KeepsMem s₀ (State.warmClear s) := by
  refine h.comp (KeepsMem.of_all fun n => ?_)
  unfold State.warmClear
  simpa [State.area, vget] using Areas.ok_restart _

theorem State.setDev_mem {s₀ : State} {s : State} {d : DevState} (h : KeepsMem s₀ s) : KeepsMem s₀ (State.setDev s d) :=
  h.comp (KeepsMem.of_frame (State.setDev_frame (Frame.refl _ _) (Field.sub_refl _)) (by decide))

theorem State.warmInto_mem {s₀ : State} {s : State} {cause : Option Nat} {d : DevState} (h : KeepsMem s₀ s) : KeepsMem s₀ (State.warmInto s cause d) := by
  refine h.comp ?_
  clear h
  unfold State.warmInto
  (try dsimp -proj only)
  repeat' (with_reducible first
    | assumption
    | apply KeepsMem.refl
    | (apply State.modAreas_mem; rotate_left; (intro a ha; (first | exact Areas.ok_keepErase ha | exact Areas.ok_restore ha | exact Areas.ok_restoreBlock ha | exact ha | exact ⟨ha.1, Memory.wf_nil⟩ | exact ⟨ha.1, Memory.wf_eraseRange _ _ ha.2⟩ | exact Areas.ok_foldl (fun _ _ h => Areas.ok_keepProgram h) ha | exact ⟨(Areas.ok_foldl (fun _ _ h => Areas.ok_restoreBlock h) ha).1, Memory.wf_nil⟩ | exact ⟨ha.1, Memory.wf_foldAnd ha.2⟩)))
    | apply State.warmClear_mem
    | apply State.setDev_mem
    | intro _
    | split
    | (refine KeepsMem.comp ?_ (KeepsMem.of_frame (Frame.put_dev (fs := [.dev]) (Frame.refl _ _) (by decide)) (by decide))))

theorem State.warmReset_mem {s₀ : State} {s : State} {cause : Option Nat} (h : KeepsMem s₀ s) : KeepsMem s₀ (State.warmReset s cause) := by
  refine h.comp ?_
  clear h
  unfold State.warmReset
  (try dsimp -proj only)
  repeat' (with_reducible first
    | assumption
    | apply KeepsMem.refl
    | (apply State.modAreas_mem; rotate_left; (intro a ha; (first | exact Areas.ok_keepErase ha | exact Areas.ok_restore ha | exact Areas.ok_restoreBlock ha | exact ha | exact ⟨ha.1, Memory.wf_nil⟩ | exact ⟨ha.1, Memory.wf_eraseRange _ _ ha.2⟩ | exact Areas.ok_foldl (fun _ _ h => Areas.ok_keepProgram h) ha | exact ⟨(Areas.ok_foldl (fun _ _ h => Areas.ok_restoreBlock h) ha).1, Memory.wf_nil⟩ | exact ⟨ha.1, Memory.wf_foldAnd ha.2⟩)))
    | apply State.warmInto_mem
    | intro _
    | split)

theorem State.enterSafeHold_mem {s₀ : State} {s : State} (h : KeepsMem s₀ s) : KeepsMem s₀ (State.enterSafeHold s) :=
  h.comp (KeepsMem.of_frame (State.enterSafeHold_frame (Frame.refl _ _) (Field.sub_refl _)) (by decide))

theorem State.noteStep_mem {s₀ : State} {s : State} {src : Nat} {step : Nat} (h : KeepsMem s₀ s) : KeepsMem s₀ (State.noteStep s src step) :=
  h.comp (KeepsMem.of_frame (State.noteStep_frame (Frame.refl _ _) (Field.sub_refl _)) (by decide))

theorem State.ccRestart_mem {s₀ : State} {s : State} {cause : Nat} (h : KeepsMem s₀ s) : KeepsMem s₀ (State.ccRestart s cause) :=
  h.comp (KeepsMem.of_frame (State.ccRestart_frame (Frame.refl _ _) (Field.sub_refl _)) (by decide))

theorem State.countInternal_mem {s₀ : State} {s : State} {src : Nat} (h : KeepsMem s₀ s) : KeepsMem s₀ (State.countInternal s src) :=
  h.comp (KeepsMem.of_frame (State.countInternal_frame (Frame.refl _ _) (Field.sub_refl _)) (by decide))

theorem State.enterRecoveryDevice_mem {s₀ : State} {s : State} (h : KeepsMem s₀ s) : KeepsMem s₀ (State.enterRecoveryDevice s) :=
  h.comp (KeepsMem.of_frame (State.enterRecoveryDevice_frame (Frame.refl _ _) (Field.sub_refl _)) (by decide))

theorem State.logDevice_mem {s₀ : State} {s : State} {kind : Nat} {x : Nat} (h : KeepsMem s₀ s) : KeepsMem s₀ (State.logDevice s kind x) :=
  h.comp (KeepsMem.of_frame (State.logDevice_frame (Frame.refl _ _) (Field.sub_refl _)) (by decide))

theorem State.runFw_mem {s₀ : State} {s : State} {p : PlateId} {proof : Bool} (h : KeepsMem s₀ s) : KeepsMem s₀ (State.runFw s p proof) :=
  h.comp (KeepsMem.of_frame (State.runFw_frame (Frame.refl _ _) (Field.sub_refl _)) (by decide))

theorem State.commitFw_mem {s₀ : State} {s : State} {t1 : PTable} (h : KeepsMem s₀ s) : KeepsMem s₀ (State.commitFw s t1) :=
  h.comp (KeepsMem.of_frame (State.commitFw_frame (Frame.refl _ _) (Field.sub_refl _)) (by decide))

theorem State.revertFw_mem {s₀ : State} {s : State} {cause : Nat} (h : KeepsMem s₀ s) : KeepsMem s₀ (State.revertFw s cause) := by
  refine h.comp ?_
  clear h
  unfold State.revertFw
  (try dsimp -proj only)
  repeat' (with_reducible first
    | assumption
    | apply KeepsMem.refl
    | (apply State.modAreas_mem; rotate_left; (intro a ha; (first | exact Areas.ok_keepErase ha | exact Areas.ok_restore ha | exact Areas.ok_restoreBlock ha | exact ha | exact ⟨ha.1, Memory.wf_nil⟩ | exact ⟨ha.1, Memory.wf_eraseRange _ _ ha.2⟩ | exact Areas.ok_foldl (fun _ _ h => Areas.ok_keepProgram h) ha | exact ⟨(Areas.ok_foldl (fun _ _ h => Areas.ok_restoreBlock h) ha).1, Memory.wf_nil⟩ | exact ⟨ha.1, Memory.wf_foldAnd ha.2⟩)))
    | apply State.ccRestart_mem
    | apply State.warmClear_mem
    | apply State.raise_mem
    | apply State.enterRecoveryDevice_mem
    | apply State.logDevice_mem
    | apply State.runFw_mem
    | apply State.commitFw_mem
    | intro _
    | split
    | (refine KeepsMem.comp ?_ (KeepsMem.of_frame (Frame.put_devfw (fs := [.devfw]) (Frame.refl _ _) (by decide)) (by decide)))
    | (refine KeepsMem.comp ?_ (KeepsMem.of_frame (Frame.put_led (fs := [.led]) (Frame.refl _ _) (by decide)) (by decide))))

theorem State.internalExpiry_mem {s₀ : State} {s : State} {src : Nat} {cluster : Bool} (h : KeepsMem s₀ s) : KeepsMem s₀ (State.internalExpiry s src cluster) := by
  refine h.comp ?_
  clear h
  unfold State.internalExpiry
  (try dsimp -proj only)
  repeat' (with_reducible first
    | assumption
    | apply KeepsMem.refl
    | (apply State.modAreas_mem; rotate_left; (intro a ha; (first | exact Areas.ok_keepErase ha | exact Areas.ok_restore ha | exact Areas.ok_restoreBlock ha | exact ha | exact ⟨ha.1, Memory.wf_nil⟩ | exact ⟨ha.1, Memory.wf_eraseRange _ _ ha.2⟩ | exact Areas.ok_foldl (fun _ _ h => Areas.ok_keepProgram h) ha | exact ⟨(Areas.ok_foldl (fun _ _ h => Areas.ok_restoreBlock h) ha).1, Memory.wf_nil⟩ | exact ⟨ha.1, Memory.wf_foldAnd ha.2⟩)))
    | apply State.warmReset_mem
    | apply State.enterSafeHold_mem
    | apply State.noteStep_mem
    | apply State.ccRestart_mem
    | apply State.countInternal_mem
    | apply State.revertFw_mem
    | intro _
    | split)

theorem State.requestRelease_mem {s₀ : State} {s : State} {n : Fin 128} (h : KeepsMem s₀ s) : KeepsMem s₀ (State.requestRelease s n) :=
  h.comp (KeepsMem.of_frame (State.requestRelease_frame (Frame.refl _ _) (Field.sub_refl _)) (by decide))

theorem State.ignoredWrite_mem {s₀ : State} {s : State} {m : Mgr} {off : Nat} (h : KeepsMem s₀ s) : KeepsMem s₀ (State.ignoredWrite s m off) :=
  h.comp (KeepsMem.of_frame (State.ignoredWrite_frame (Frame.refl _ _) (Field.sub_refl _)) (by decide))

theorem State.loadAreas_mem {s₀ : State} {s : State} {n : Fin 128} (h : KeepsMem s₀ s) : KeepsMem s₀ (State.loadAreas s n) :=
  h.comp (KeepsMem.of_frame (State.loadAreas_frame (Frame.refl _ _) (Field.sub_refl _)) (by decide))

theorem State.restoreKeep_mem {s₀ : State} {s : State} {n : Fin 128} (h : KeepsMem s₀ s) : KeepsMem s₀ (State.restoreKeep s n) := by
  refine h.comp ?_
  clear h
  unfold State.restoreKeep
  (try dsimp -proj only)
  repeat' (with_reducible first
    | assumption
    | apply KeepsMem.refl
    | (apply State.modAreas_mem; rotate_left; (intro a ha; (first | exact Areas.ok_keepErase ha | exact Areas.ok_restore ha | exact Areas.ok_restoreBlock ha | exact ha | exact ⟨ha.1, Memory.wf_nil⟩ | exact ⟨ha.1, Memory.wf_eraseRange _ _ ha.2⟩ | exact Areas.ok_foldl (fun _ _ h => Areas.ok_keepProgram h) ha | exact ⟨(Areas.ok_foldl (fun _ _ h => Areas.ok_restoreBlock h) ha).1, Memory.wf_nil⟩ | exact ⟨ha.1, Memory.wf_foldAnd ha.2⟩)))
    | (apply State.modAreas_mem; rotate_left; (intro a ha; (first | exact Areas.ok_keepErase ha | exact Areas.ok_restore ha | exact Areas.ok_restoreBlock ha | exact ha | exact ⟨ha.1, Memory.wf_nil⟩ | exact ⟨ha.1, Memory.wf_eraseRange _ _ ha.2⟩ | exact Areas.ok_foldl (fun _ _ h => Areas.ok_keepProgram h) ha | exact ⟨(Areas.ok_foldl (fun _ _ h => Areas.ok_restoreBlock h) ha).1, Memory.wf_nil⟩ | exact ⟨ha.1, Memory.wf_foldAnd ha.2⟩)))
    | intro _
    | split)

theorem State.deriveIdentity_mem {s₀ : State} {s : State} {n : Fin 128} (h : KeepsMem s₀ s) : KeepsMem s₀ (State.deriveIdentity s n) :=
  h.comp (KeepsMem.of_frame (State.deriveIdentity_frame (Frame.refl _ _) (Field.sub_refl _)) (by decide))

theorem State.becomeReady_mem {s₀ : State} {s : State} {n : Fin 128} (h : KeepsMem s₀ s) : KeepsMem s₀ (State.becomeReady s n) := by
  refine h.comp ?_
  clear h
  unfold State.becomeReady
  (try dsimp -proj only)
  repeat' (with_reducible first
    | assumption
    | apply KeepsMem.refl
    | (apply State.modAreas_mem; rotate_left; (intro a ha; (first | exact Areas.ok_keepErase ha | exact Areas.ok_restore ha | exact Areas.ok_restoreBlock ha | exact ha | exact ⟨ha.1, Memory.wf_nil⟩ | exact ⟨ha.1, Memory.wf_eraseRange _ _ ha.2⟩ | exact Areas.ok_foldl (fun _ _ h => Areas.ok_keepProgram h) ha | exact ⟨(Areas.ok_foldl (fun _ _ h => Areas.ok_restoreBlock h) ha).1, Memory.wf_nil⟩ | exact ⟨ha.1, Memory.wf_foldAnd ha.2⟩)))
    | apply State.requestRelease_mem
    | apply State.transition_mem
    | apply State.loadAreas_mem
    | apply State.restoreKeep_mem
    | apply State.answerAll_mem
    | apply State.deriveIdentity_mem
    | intro _
    | split
    | (refine KeepsMem.comp ?_ (KeepsMem.of_frame (Frame.put_plat (fs := [.plat]) (Frame.refl _ _) (by decide)) (by decide))))

theorem State.logKey_mem {s₀ : State} {s : State} {kind : Nat} {info : List Nat} (h : KeepsMem s₀ s) : KeepsMem s₀ (State.logKey s kind info) :=
  h.comp (KeepsMem.of_frame (State.logKey_frame (Frame.refl _ _) (Field.sub_refl _)) (by decide))

theorem State.burnish_mem {s₀ s : State} {source level : Nat} (h : KeepsMem s₀ s) : KeepsMem s₀ (State.burnish s source level) := by
  refine h.comp ?_
  clear h
  unfold State.burnish
  dsimp only
  refine (KeepsMem.of_all fun n => ?_).comp (KeepsMem.of_frame (State.dispatchJobs_frame (State.logKey_frame (State.raise_frame (State.raise_frame (Frame.refl [.burin, .trace, .rings, .led, .views, .keys, .awaits, .dev] _) (by decide)) (by decide)) (by decide)) (by decide)) (by decide))
  simpa [State.area, vget] using Areas.ok_restart _

theorem State.wakeUp_mem {s₀ : State} {s : State} (h : KeepsMem s₀ s) : KeepsMem s₀ (State.wakeUp s) :=
  h.comp (KeepsMem.of_frame (State.wakeUp_frame (Frame.refl _ _) (Field.sub_refl _)) (by decide))

theorem State.trip_mem {s₀ : State} {s : State} {sources : List Nat} (h : KeepsMem s₀ s) : KeepsMem s₀ (State.trip s sources) := by
  refine h.comp ?_
  clear h
  unfold State.trip
  (try dsimp -proj only)
  repeat' (with_reducible first
    | assumption
    | apply KeepsMem.refl
    | (apply State.modAreas_mem; rotate_left; (intro a ha; (first | exact Areas.ok_keepErase ha | exact Areas.ok_restore ha | exact Areas.ok_restoreBlock ha | exact ha | exact ⟨ha.1, Memory.wf_nil⟩ | exact ⟨ha.1, Memory.wf_eraseRange _ _ ha.2⟩ | exact Areas.ok_foldl (fun _ _ h => Areas.ok_keepProgram h) ha | exact ⟨(Areas.ok_foldl (fun _ _ h => Areas.ok_restoreBlock h) ha).1, Memory.wf_nil⟩ | exact ⟨ha.1, Memory.wf_foldAnd ha.2⟩)))
    | apply State.forAll_mem
    | apply State.burnish_mem
    | apply State.logKey_mem
    | apply State.raise_mem
    | apply State.wakeUp_mem
    | apply KeepsMem.foldl
    | apply KeepsMem.foldl_fst
    | intro _
    | split
    | (refine KeepsMem.comp ?_ (KeepsMem.of_frame (Frame.put_tamper (fs := [.tamper]) (Frame.refl _ _) (by decide)) (by decide))))

theorem State.noteFault_mem {s₀ : State} {s : State} (h : KeepsMem s₀ s) : KeepsMem s₀ (State.noteFault s) := by
  refine h.comp ?_
  clear h
  unfold State.noteFault
  (try dsimp -proj only)
  repeat' (with_reducible first
    | assumption
    | apply KeepsMem.refl
    | (apply State.modAreas_mem; rotate_left; (intro a ha; (first | exact Areas.ok_keepErase ha | exact Areas.ok_restore ha | exact Areas.ok_restoreBlock ha | exact ha | exact ⟨ha.1, Memory.wf_nil⟩ | exact ⟨ha.1, Memory.wf_eraseRange _ _ ha.2⟩ | exact Areas.ok_foldl (fun _ _ h => Areas.ok_keepProgram h) ha | exact ⟨(Areas.ok_foldl (fun _ _ h => Areas.ok_restoreBlock h) ha).1, Memory.wf_nil⟩ | exact ⟨ha.1, Memory.wf_foldAnd ha.2⟩)))
    | apply State.trip_mem
    | apply State.raise_mem
    | intro _
    | split
    | (refine KeepsMem.comp ?_ (KeepsMem.of_frame (Frame.put_burin (fs := [.burin]) (Frame.refl _ _) (by decide)) (by decide))))

theorem State.coreFault_mem {s₀ : State} {s : State} {k1 : Fin 4} {owner : Owner} {op : Nat} (h : KeepsMem s₀ s) : KeepsMem s₀ (State.coreFault s k1 owner op) := by
  refine h.comp ?_
  clear h
  unfold State.coreFault
  (try dsimp -proj only)
  repeat' (with_reducible first
    | assumption
    | apply KeepsMem.refl
    | (apply State.modAreas_mem; rotate_left; (intro a ha; (first | exact Areas.ok_keepErase ha | exact Areas.ok_restore ha | exact Areas.ok_restoreBlock ha | exact ha | exact ⟨ha.1, Memory.wf_nil⟩ | exact ⟨ha.1, Memory.wf_eraseRange _ _ ha.2⟩ | exact Areas.ok_foldl (fun _ _ h => Areas.ok_keepProgram h) ha | exact ⟨(Areas.ok_foldl (fun _ _ h => Areas.ok_restoreBlock h) ha).1, Memory.wf_nil⟩ | exact ⟨ha.1, Memory.wf_foldAnd ha.2⟩)))
    | apply State.noteFault_mem
    | apply State.coreOut_mem
    | apply State.modCore_mem
    | apply State.raise_mem
    | intro _
    | split)

theorem State.coreFaulted_mem {s₀ : State} {s : State} {k1 : Fin 4} {j : BurinJob} {res : List Byte} (h : KeepsMem s₀ s) : KeepsMem s₀ (State.coreFaulted s k1 j res) := by
  refine h.comp ?_
  clear h
  unfold State.coreFaulted
  (try dsimp -proj only)
  repeat' (with_reducible first
    | assumption
    | apply KeepsMem.refl
    | (apply State.modAreas_mem; rotate_left; (intro a ha; (first | exact Areas.ok_keepErase ha | exact Areas.ok_restore ha | exact Areas.ok_restoreBlock ha | exact ha | exact ⟨ha.1, Memory.wf_nil⟩ | exact ⟨ha.1, Memory.wf_eraseRange _ _ ha.2⟩ | exact Areas.ok_foldl (fun _ _ h => Areas.ok_keepProgram h) ha | exact ⟨(Areas.ok_foldl (fun _ _ h => Areas.ok_restoreBlock h) ha).1, Memory.wf_nil⟩ | exact ⟨ha.1, Memory.wf_foldAnd ha.2⟩)))
    | apply State.coreFault_mem
    | apply State.dispatchJobs_mem
    | apply State.modCore_mem
    | apply State.finishJob_mem
    | intro _
    | split)

theorem State.coldReset_mem {s₀ s : State} {cause : Nat} (h : KeepsMem s₀ s) : KeepsMem s₀ (State.coldReset s cause) := by
  refine h.comp (KeepsMem.of_all fun n => ?_)
  unfold State.coldReset
  simpa [State.area, vget] using Areas.ok_restart _

theorem State.runStart_mem {s₀ : State} {s : State} {rep : StartReport} (h : KeepsMem s₀ s) : KeepsMem s₀ (State.runStart s rep) :=
  h.comp (KeepsMem.of_frame (State.runStart_frame (Frame.refl _ _) (Field.sub_refl _)) (by decide))

theorem State.romThenStart_mem {s₀ : State} {s : State} {rep : StartReport} (h : KeepsMem s₀ s) : KeepsMem s₀ (State.romThenStart s rep) :=
  h.comp (KeepsMem.of_frame (State.romThenStart_frame (Frame.refl _ _) (Field.sub_refl _)) (by decide))

theorem State.shadowStep_mem {s₀ : State} {s : State} (h : KeepsMem s₀ s) : KeepsMem s₀ (State.shadowStep s) :=
  h.comp (KeepsMem.of_frame (State.shadowStep_frame (Frame.refl _ _) (Field.sub_refl _)) (by decide))

theorem State.runShadow_mem {s₀ : State} {s : State} {samples : BitVec 10} (h : KeepsMem s₀ s) : KeepsMem s₀ (State.runShadow s samples) := by
  refine h.comp ?_
  clear h
  unfold State.runShadow
  (try dsimp -proj only)
  repeat' (with_reducible first
    | assumption
    | apply KeepsMem.refl
    | (apply State.modAreas_mem; rotate_left; (intro a ha; (first | exact Areas.ok_keepErase ha | exact Areas.ok_restore ha | exact Areas.ok_restoreBlock ha | exact ha | exact ⟨ha.1, Memory.wf_nil⟩ | exact ⟨ha.1, Memory.wf_eraseRange _ _ ha.2⟩ | exact Areas.ok_foldl (fun _ _ h => Areas.ok_keepProgram h) ha | exact ⟨(Areas.ok_foldl (fun _ _ h => Areas.ok_restoreBlock h) ha).1, Memory.wf_nil⟩ | exact ⟨ha.1, Memory.wf_foldAnd ha.2⟩)))
    | apply State.setDev_mem
    | apply State.trip_mem
    | apply State.shadowStep_mem
    | intro _
    | split)

theorem State.start_mem {s₀ : State} {s : State} {rep : StartReport} (h : KeepsMem s₀ s) : KeepsMem s₀ (State.start s rep) := by
  refine h.comp ?_
  clear h
  unfold State.start
  (try dsimp -proj only)
  repeat' (with_reducible first
    | assumption
    | apply KeepsMem.refl
    | (apply State.modAreas_mem; rotate_left; (intro a ha; (first | exact Areas.ok_keepErase ha | exact Areas.ok_restore ha | exact Areas.ok_restoreBlock ha | exact ha | exact ⟨ha.1, Memory.wf_nil⟩ | exact ⟨ha.1, Memory.wf_eraseRange _ _ ha.2⟩ | exact Areas.ok_foldl (fun _ _ h => Areas.ok_keepProgram h) ha | exact ⟨(Areas.ok_foldl (fun _ _ h => Areas.ok_restoreBlock h) ha).1, Memory.wf_nil⟩ | exact ⟨ha.1, Memory.wf_foldAnd ha.2⟩)))
    | apply State.romThenStart_mem
    | apply State.runShadow_mem
    | apply State.runStart_mem
    | intro _
    | split)

theorem State.internalJob_mem {s₀ : State} {s : State} {op : Nat} {time : Nat} {faults : Nat} (h : KeepsMem s₀ s) : KeepsMem s₀ (State.internalJob s op time faults).2 := by
  refine h.comp ?_
  clear h
  unfold State.internalJob
  (try dsimp -proj only)
  repeat' (with_reducible first
    | assumption
    | apply KeepsMem.refl
    | (apply State.modAreas_mem; rotate_left; (intro a ha; (first | exact Areas.ok_keepErase ha | exact Areas.ok_restore ha | exact Areas.ok_restoreBlock ha | exact ha | exact ⟨ha.1, Memory.wf_nil⟩ | exact ⟨ha.1, Memory.wf_eraseRange _ _ ha.2⟩ | exact Areas.ok_foldl (fun _ _ h => Areas.ok_keepProgram h) ha | exact ⟨(Areas.ok_foldl (fun _ _ h => Areas.ok_restoreBlock h) ha).1, Memory.wf_nil⟩ | exact ⟨ha.1, Memory.wf_foldAnd ha.2⟩)))
    | apply State.internalRun_mem
    | apply State.dispatchJobs_mem
    | apply State.coreFault_mem
    | intro _
    | split)

theorem State.tmpRearm_mem {s₀ : State} {s : State} {m : Mgr} (h : KeepsMem s₀ s) : KeepsMem s₀ (State.tmpRearm s m) := by
  refine h.comp ?_
  clear h
  unfold State.tmpRearm
  (try dsimp -proj only)
  repeat' (with_reducible first
    | assumption
    | apply KeepsMem.refl
    | (apply State.modAreas_mem; rotate_left; (intro a ha; (first | exact Areas.ok_keepErase ha | exact Areas.ok_restore ha | exact Areas.ok_restoreBlock ha | exact ha | exact ⟨ha.1, Memory.wf_nil⟩ | exact ⟨ha.1, Memory.wf_eraseRange _ _ ha.2⟩ | exact Areas.ok_foldl (fun _ _ h => Areas.ok_keepProgram h) ha | exact ⟨(Areas.ok_foldl (fun _ _ h => Areas.ok_restoreBlock h) ha).1, Memory.wf_nil⟩ | exact ⟨ha.1, Memory.wf_foldAnd ha.2⟩)))
    | apply State.warmReset_mem
    | apply State.ignoredWrite_mem
    | intro _
    | split)

theorem State.areasLost_mem {s₀ s : State} (h : KeepsMem s₀ s) : KeepsMem s₀ s.areasLost := by
  refine State.forChans_mem h fun n s => ?_
  refine State.forAll_mem (State.modAreas_mem (KeepsMem.refl _) fun a ha => ?_) fun b s => State.raise_mem (KeepsMem.refl _)
  exact ⟨(Areas.ok_foldl (fun _ _ h => Areas.ok_restoreBlock h) ha).1, Memory.wf_nil⟩

theorem State.releaseProof_mem {s₀ : State} {s : State} {n : Fin 128} (h : KeepsMem s₀ s) : KeepsMem s₀ (State.releaseProof s n) :=
  h.comp (KeepsMem.of_frame (State.releaseProof_frame (Frame.refl _ _) (Field.sub_refl _)) (by decide))

theorem State.releaseWdg_mem {s₀ : State} {s : State} {n : Fin 128} (h : KeepsMem s₀ s) : KeepsMem s₀ (State.releaseWdg s n) :=
  h.comp (KeepsMem.of_frame (State.releaseWdg_frame (Frame.refl _ _) (Field.sub_refl _)) (by decide))

theorem State.releaseMeas_mem {s₀ : State} {s : State} {n : Fin 128} {st : ChState} {cause : Cause} {old : Phase} (h : KeepsMem s₀ s) : KeepsMem s₀ (State.releaseMeas s n st cause old) :=
  h.comp (KeepsMem.of_frame (State.releaseMeas_frame (Frame.refl _ _) (Field.sub_refl _)) (by decide))

theorem State.release_mem {s₀ s : State} {n : Fin 128} (h : KeepsMem s₀ s) : KeepsMem s₀ (State.release s n) := by
  refine h.comp ?_
  unfold State.release
  extract_lets old st cause s1 s2 s3 s4 s5 s6 s7 s8 s9 s10 ms
  refine State.answerAll_mem (State.releaseMeas_mem (State.releaseWdg_mem (State.releaseProof_mem (State.modMbx_mem (State.modPort_mem
    (State.csRise_mem (State.loadAreas_mem ?_)))))))
  refine State.modAreas_mem ?_ fun a ha => ⟨ha.1, Memory.wf_nil⟩
  exact State.modStn_mem (State.transition_mem (State.put_plat_mem (State.modCtl_mem (KeepsMem.refl _))))

theorem State.fwCommit_mem {s₀ : State} {s : State} {activate : Bool} (h : KeepsMem s₀ s) : KeepsMem s₀ (State.fwCommit s activate) := by
  refine h.comp ?_
  clear h
  unfold State.fwCommit
  (try dsimp -proj only)
  repeat' (with_reducible first
    | assumption
    | apply KeepsMem.refl
    | (apply State.modAreas_mem; rotate_left; (intro a ha; (first | exact Areas.ok_keepErase ha | exact Areas.ok_restore ha | exact Areas.ok_restoreBlock ha | exact ha | exact ⟨ha.1, Memory.wf_nil⟩ | exact ⟨ha.1, Memory.wf_eraseRange _ _ ha.2⟩ | exact Areas.ok_foldl (fun _ _ h => Areas.ok_keepProgram h) ha | exact ⟨(Areas.ok_foldl (fun _ _ h => Areas.ok_restoreBlock h) ha).1, Memory.wf_nil⟩ | exact ⟨ha.1, Memory.wf_foldAnd ha.2⟩)))
    | apply State.ccRestart_mem
    | apply State.warmReset_mem
    | apply State.logDevice_mem
    | apply State.runFw_mem
    | apply State.commitFw_mem
    | intro _
    | split
    | (refine KeepsMem.comp ?_ (KeepsMem.of_frame (Frame.put_devfw (fs := [.devfw]) (Frame.refl _ _) (by decide)) (by decide))))

end Sys2Proof.Machine
end

