-- ==== Sys2Proof/Laws/Mailbox.lean ====
section
/-! SUPPORT. A PAGE PROGRAM of one whole field of the mailbox comes to one write of that field. -/

namespace Sys2Proof.Machine

theorem SMap.put_last {α : Type} {m : SMap α} {a : Nat} {v : α} (h : ∀ c ∈ m, c.1 < a) : SMap.put m a v = m ++ [(a, v)] := by
  induction m with
  | nil => rfl
  | cons c t ih =>
    obtain ⟨k, w⟩ := c
    have hk : k < a := h _ List.mem_cons_self
    simp only [SMap.put, List.cons_append]
    rw [if_neg (by omega), if_neg (by omega), ih fun c hc => h c (List.mem_cons_of_mem _ hc)]

/-- Bytes that stay in their page lie in order from the address. -/
theorem pageCells_run {a : Nat} {bs : List Byte} (h : a % 256 + bs.length ≤ 256) :
    pageCells a bs = bs.zipIdx.map fun x => (a + x.2, x.1) := by
  have key : ∀ (l : List Byte) (k : Nat) (m : SMap Byte), a % 256 + k + l.length ≤ 256 → (∀ c ∈ m, c.1 < a + k) →
      (l.zipIdx k).foldl (fun m x => SMap.put m (a / 256 * 256 + (a + x.2) % 256) x.1) m =
        m ++ (l.zipIdx k).map fun x => (a + x.2, x.1) := by
    intro l
    induction l with
    | nil => intro k m _ _; simp
    | cons b l ih =>
      intro k m hl hm
      simp only [List.length_cons] at hl
      have ha : a / 256 * 256 + (a + k) % 256 = a + k := by omega
      simp only [List.zipIdx_cons, List.foldl_cons, List.map_cons, ha]
      rw [SMap.put_last hm, ih (k + 1) _ (by omega)]
      · simp
      · intro c hc
        rcases List.mem_append.mp hc with hc | hc
        · have := hm c hc; omega
        · simp only [List.mem_singleton] at hc; subst hc; simp
  have := key bs 0 [] (by omega) (by simp)
  simpa [pageCells] using this

/-- The field's own write, counted where it is ignored. -/
def State.fieldProgram (s : State) (n : Fin 128) (off v : Nat) : State :=
  let q := s.fieldWrite n off v
  let u := q.1.modMbx n fun b => b.joinLatched (s.mb n).latched.length q.2
  if q.2 then u.mbxIgnored n else u

theorem STable.mbxBase_aligned (t : STable) : t.mbxBase % 4096 = 0 := by
  unfold STable.mbxBase
  cases t.mailbox <;> simp

theorem State.modMbx_id {s : State} {n : Fin 128} {f : Mailbox → Mailbox} (h : f (s.mb n) = s.mb n) : s.modMbx n f = s := by
  simp only [State.modMbx, vmod, State.mb] at h ⊢
  rw [h]
  simp [vset, vget]

/-- A PAGE PROGRAM of bytes at a mailbox offset is heard: the bytes are programmed into the mailbox. -/
theorem State.mbxPage_program {s : State} {n : Fin 128} {off : Nat} {bs : List Byte} (h : s.mbxTakes n off)
    (hb : off % 256 + bs.length ≤ 256) :
    s.mbxPage n off bs = ((s.mbxTaken n).mbxProgram n (bs.zipIdx.map fun x => (off + x.2, x.1))).keepCs n false := by
  obtain ⟨hh, hw, ha, w, hwin, ht⟩ := h
  have hal := (s.st n).tbl.mbxBase_aligned
  unfold State.mbxPage
  rw [State.host_array (c := { HostCmd.bare 0x12 with addr := (s.st n).tbl.mbxBase + off, data := bs, period := (s.port n).period.toNat }) hh
    (show arrayClass 0x12 ≠ .none by decide) (show arrayClass 0x12 ≠ .chip by decide)]
  congr 1
  have hown : ownAddr 0x12 (s.port n).crIo.toNat = 2 := by
    unfold ownAddr
    simp [arrayClass, fourByteOp, spaceOp, islandOp]
  have haddr : s.arrayAddr n 0x12 ((s.st n).tbl.mbxBase + off) = (s.st n).tbl.mbxBase + off := by
    simp only [State.arrayAddr, hown, effAddr]; simpa using ha
  have hs := hh.2.2.2.1
  have hop : (HostCmd.bare 0x12).op = 0x12 := rfl
  simp only [hop, haddr, hwin, ht, if_true]
  unfold State.mailboxCmd
  have hpt : (s.taken n 0x12 (s.port n).period.toNat).port n = ((HostPort.arrive 0x12 (s.port n)).addressed (s.port n).period.toNat) := by
    simp [State.taken]
  have hio : ((s.taken n 0x12 (s.port n).period.toNat).port n).crIo = (s.port n).crIo := by rw [hpt]; rfl
  have hwel : ((s.taken n 0x12 (s.port n).period.toNat).port n).wel = true := by rw [hpt]; exact hw
  have hbase : ((s.taken n 0x12 (s.port n).period.toNat).st n).tbl = (s.st n).tbl := by simp [State.taken]
  have hcls : arrayClass 0x12 = .program := by decide
  have hmp : (((s.taken n 0x12 (s.port n).period.toNat).modPort n fun p => { p with wel := false }).modPort n
      fun p => { p with op := some .own }) = s.mbxTaken n := by
    unfold State.taken State.mbxTaken State.seen State.heard
    simp only [State.modPort_modStn, State.modPort_twice]
    congr 1
    refine State.modPort_congr ?_
    simp [HostPort.arrive, HostPort.addressed]
  simp only [hio, hs, Bool.not_true, Bool.false_eq_true, if_false, hcls, hwel, if_true, State.ownOp, hmp, State.modPort_st, hbase]
  rw [pageCells_run (by omega), List.map_map]
  congr 1
  apply List.map_congr_left
  intro x _
  simp only [Function.comp]
  congr 1
  omega

theorem State.mbxProgram_none {s : State} {n : Fin 128} {w : List (Nat × Byte)} (h : ∀ x ∈ w, x.1 < 0x8010) :
    (s.modMbx n fun b => { b with h2mData := w.foldl (fun m x =>
      if (decide (0x8010 ≤ x.1) && decide (x.1 < 0xC000)) = true then SMap.put m (x.1 - 0x8010) x.2 else m) b.h2mData }) = s := by
  refine State.modMbx_id ?_
  have : ∀ (l : List (Nat × Byte)) (m : SMap Byte), (∀ x ∈ l, x.1 < 0x8010) →
      l.foldl (fun m x => if (decide (0x8010 ≤ x.1) && decide (x.1 < 0xC000)) = true then SMap.put m (x.1 - 0x8010) x.2 else m) m = m := by
    intro l
    induction l with
    | nil => intro m _; rfl
    | cons x l ih =>
      intro m hl
      have hx := hl x List.mem_cons_self
      rw [List.foldl_cons, if_neg (by simp; omega)]
      exact ih m fun y hy => hl y (List.mem_cons_of_mem _ hy)
  rw [this _ _ h]

/-- Fields of which no byte is written do nothing. -/
theorem fields_idle {n : Fin 128} {val : Nat → Option Byte} (fs : List (Nat × Nat))
    (h : fs.all (fun f => f.2 != 0 && !((List.range f.2).map fun i => val (f.1 + i)).any Option.isSome) = true) (a : State × Bool) :
    fs.foldl (fun (a : State × Bool) f =>
      if ((List.range f.2).map fun i => val (f.1 + i)).all Option.isSome = true then
        ((a.1.fieldWrite n f.1 (ofLe (((List.range f.2).map fun i => val (f.1 + i)).map fun x => x.getD 0))).1,
          a.2 || (a.1.fieldWrite n f.1 (ofLe (((List.range f.2).map fun i => val (f.1 + i)).map fun x => x.getD 0))).2)
      else (a.1, a.2 || ((List.range f.2).map fun i => val (f.1 + i)).any Option.isSome)) a = a := by
  induction fs generalizing a with
  | nil => rfl
  | cons f fs ih =>
    simp only [List.all_cons, Bool.and_eq_true, bne_iff_ne, ne_eq, Bool.not_eq_true'] at h
    obtain ⟨⟨h0, hn⟩, hr⟩ := h
    have hall : ((List.range f.2).map fun i => val (f.1 + i)).all Option.isSome = false := by
      cases hl : (List.range f.2).map fun i => val (f.1 + i) with
      | nil => simp at hl; exact absurd hl h0
      | cons x l =>
        rw [hl] at hn
        simp only [List.any_cons, Bool.or_eq_false_iff] at hn
        simp [hn.1]
    rw [List.foldl_cons, if_neg (by rw [hall]; exact Bool.false_ne_true), hn, Bool.or_false]
    exact ih (by simpa using hr) a

/-- The bytes of one whole field alone, with nothing of another, act as that field's write. -/
theorem State.mbxProgram_field {s : State} {n : Fin 128} {w : List (Nat × Byte)} {before after : List (Nat × Nat)} {off k v : Nat}
    (hw : ∀ x ∈ w, x.1 < 0x8010) (hl : mbxWriteFields = before ++ (off, k) :: after)
    (hb : before.all (fun f => f.2 != 0 &&
      !((List.range f.2).map fun i => (w.find? fun x => x.1 = f.1 + i).map fun x => x.2).any Option.isSome) = true)
    (ha : after.all (fun f => f.2 != 0 &&
      !((List.range f.2).map fun i => (w.find? fun x => x.1 = f.1 + i).map fun x => x.2).any Option.isSome) = true)
    (hall : ((List.range k).map fun i => (w.find? fun x => x.1 = off + i).map fun x => x.2).all Option.isSome = true)
    (hv : ofLe (((List.range k).map fun i => (w.find? fun x => x.1 = off + i).map fun x => x.2).map fun x => x.getD 0) = v)
    (hk : w.any (fun x => !(((0x8010 ≤ x.1 && x.1 < 0xC000) || (0x800C ≤ x.1 && x.1 < 0x8010)) ||
      mbxWriteFields.any fun f => f.1 ≤ x.1 && x.1 < f.1 + f.2)) = false) :
    s.mbxProgram n w = s.fieldProgram n off v := by
  unfold State.mbxProgram
  dsimp only
  rw [State.mbxProgram_none hw, hk, hl, List.foldl_append, List.foldl_cons]
  rw [fields_idle (val := fun o => (w.find? fun x => x.1 = o).map fun x => x.2) before hb, if_pos hall,
    fields_idle (val := fun o => (w.find? fun x => x.1 = o).map fun x => x.2) after ha, hv]
  simp [State.fieldProgram]

/-- The bytes of one whole field of 4 bytes alone act as that field's write. -/
theorem State.mbxProgram_four {s : State} {n : Fin 128} {off : Nat} {b0 b1 b2 b3 : Byte}
    (h : off = 0x0004 ∨ off = 0x0100 ∨ off = 0x0210 ∨ off = 0x0220 ∨ off = 0x8004 ∨ off = 0x8008) :
    s.mbxProgram n [(off, b0), (off + 1, b1), (off + 2, b2), (off + 3, b3)] = s.fieldProgram n off (ofLe [b0, b1, b2, b3]) := by
  rcases h with rfl | rfl | rfl | rfl | rfl | rfl
  · exact mbxProgram_field (before := []) (by simp) rfl rfl rfl rfl rfl rfl
  · exact mbxProgram_field (before := mbxWriteFields.take 4) (k := 4) (by simp) rfl rfl rfl rfl rfl rfl
  · exact mbxProgram_field (before := mbxWriteFields.take 6) (k := 4) (by simp) rfl rfl rfl rfl rfl rfl
  · exact mbxProgram_field (before := mbxWriteFields.take 7) (k := 4) (by simp) rfl rfl rfl rfl rfl rfl
  · exact mbxProgram_field (before := mbxWriteFields.take 9) (k := 4) (by simp) rfl rfl rfl rfl rfl rfl
  · exact mbxProgram_field (before := mbxWriteFields.take 10) (k := 4) (by simp) rfl rfl rfl rfl rfl rfl

/-- The same for a field of 8 bytes. -/
theorem State.mbxProgram_eight {s : State} {n : Fin 128} {off : Nat} {b0 b1 b2 b3 b4 b5 b6 b7 : Byte}
    (h : off = 0x0050 ∨ off = 0x0088 ∨ off = 0x0200) :
    s.mbxProgram n [(off, b0), (off + 1, b1), (off + 2, b2), (off + 3, b3), (off + 4, b4), (off + 5, b5), (off + 6, b6), (off + 7, b7)] =
      s.fieldProgram n off (ofLe [b0, b1, b2, b3, b4, b5, b6, b7]) := by
  rcases h with rfl | rfl | rfl
  · exact mbxProgram_field (before := mbxWriteFields.take 1) (k := 8) (by simp) rfl rfl rfl rfl rfl rfl
  · exact mbxProgram_field (before := mbxWriteFields.take 3) (k := 8) (by simp) rfl rfl rfl rfl rfl rfl
  · exact mbxProgram_field (before := mbxWriteFields.take 5) (k := 8) (by simp) rfl rfl rfl rfl rfl rfl

/-- The same for the field of 16 bytes. -/
theorem State.mbxProgram_sixteen {s : State} {n : Fin 128} {b0 b1 b2 b3 b4 b5 b6 b7 c0 c1 c2 c3 c4 c5 c6 c7 : Byte} :
    s.mbxProgram n ([b0, b1, b2, b3, b4, b5, b6, b7, c0, c1, c2, c3, c4, c5, c6, c7].zipIdx.map fun x => (0x0058 + x.2, x.1)) =
      s.fieldProgram n 0x0058 (ofLe [b0, b1, b2, b3, b4, b5, b6, b7, c0, c1, c2, c3, c4, c5, c6, c7]) :=
  mbxProgram_field (before := mbxWriteFields.take 2) (k := 16) (by simp) rfl rfl rfl rfl rfl rfl

theorem ofLe_leBytes (k v : Nat) : ofLe (leBytes k v) = v % 256 ^ k := by
  induction k generalizing v with
  | zero => simp [leBytes, ofLe, Nat.mod_one]
  | succ k ih =>
    rw [Nat.pow_succ', Nat.mod_mul]
    simp only [leBytes, ofLe, ih, BitVec.toNat_ofNat]

/-- A heard PAGE PROGRAM of a 4-byte field. -/
theorem State.mbxPage_four {s : State} {n : Fin 128} {off v : Nat} (h : s.mbxTakes n off)
    (ho : off = 0x0004 ∨ off = 0x0100 ∨ off = 0x0210 ∨ off = 0x0220 ∨ off = 0x8004 ∨ off = 0x8008) :
    s.mbxPage n off (leBytes 4 v) =
      ((s.mbxTaken n).fieldProgram n off (v % 2 ^ 32)).keepCs n false := by
  rw [State.mbxPage_program h (by simp [leBytes]; omega), ← show 256 ^ 4 = 2 ^ 32 by decide, ← ofLe_leBytes]
  exact congrArg (fun t => State.keepCs t n false) (State.mbxProgram_four ho)

/-- A heard PAGE PROGRAM of an 8-byte field. -/
theorem State.mbxPage_eight {s : State} {n : Fin 128} {off v : Nat} (h : s.mbxTakes n off)
    (ho : off = 0x0050 ∨ off = 0x0088 ∨ off = 0x0200) :
    s.mbxPage n off (leBytes 8 v) =
      ((s.mbxTaken n).fieldProgram n off (v % 2 ^ 64)).keepCs n false := by
  rw [State.mbxPage_program h (by simp [leBytes]; omega), ← show 256 ^ 8 = 2 ^ 64 by decide, ← ofLe_leBytes]
  exact congrArg (fun t => State.keepCs t n false) (State.mbxProgram_eight ho)

end Sys2Proof.Machine
end

