-- ==== Sys2Proof/Laws/NoneReleased.lean ====
section
/-! SUPPORT. Every shared operation that touches platform control, except the release itself, leaves each channel that is not released
not released; one that does not touch it follows from its frame (`NoneReleased.of_frame`). -/

namespace Sys2Proof.Machine

/-- No channel is released in t that is not released in s. -/
def NoneReleased (s t : State) : Prop := ∀ c, (t.ch c).released = true → (s.ch c).released = true

theorem NoneReleased.refl (s : State) : NoneReleased s s := fun _ => id

theorem NoneReleased.comp {s t u : State} (h : NoneReleased s t) (h' : NoneReleased t u) : NoneReleased s u := fun c x => h c (h' c x)

theorem NoneReleased.of_frame {fs : List Field} {s t : State} (h : Frame fs s t) (hf : Field.ctl ∉ fs) : NoneReleased s t := by
  have e : t.ctl = s.ctl := h .ctl hf
  intro c
  simp only [State.ch, e]; exact id

theorem NoneReleased.of_none {s t : State} (h : ∀ n, (t.ch n).released = false) : NoneReleased s t := fun c hc => by rw [h c] at hc; cases hc

theorem NoneReleased.foldl {α : Type} {s₀ s : State} {l : List α} {g : State → α → State} (h₀ : NoneReleased s₀ s) (h : ∀ s x, NoneReleased s (g s x)) : NoneReleased s₀ (l.foldl g s) := by
  induction l generalizing s with
  | nil => exact h₀
  | cons x l ih => exact ih (h₀.comp (h s x))

theorem NoneReleased.foldl_fst {α β : Type} {s₀ : State} {a : State × β} {l : List α} {g : State × β → α → State × β} (h₀ : NoneReleased s₀ a.1) (h : ∀ a x, NoneReleased a.1 (g a x).1) : NoneReleased s₀ (l.foldl g a).1 := by
  induction l generalizing a with
  | nil => exact h₀
  | cons x l ih => exact ih (h₀.comp (h a x))

theorem State.forAll_norel {α : Type} {s₀ s : State} {f : α → State → State} {l : List α} (h₀ : NoneReleased s₀ s) (h : ∀ x s, NoneReleased s (f x s)) :
    NoneReleased s₀ (s.forAll l f) := NoneReleased.foldl h₀ fun s x => h x s

theorem State.log_norel {s₀ : State} {s : State} {type : Nat} {ch : Nat} {info : List Nat} (h : NoneReleased s₀ s) : NoneReleased s₀ (State.log s type ch info) :=
  h.comp (NoneReleased.of_frame (State.log_frame (Frame.refl _ _) (Field.sub_refl _)) (by decide))

theorem State.modPlt_norel {s₀ : State} {s : State} {n : Fin 128} {f : PlateSt → PlateSt} (h : NoneReleased s₀ s) : NoneReleased s₀ (State.modPlt s n f) :=
  h.comp (NoneReleased.of_frame (State.modPlt_frame (Frame.refl _ _) (Field.sub_refl _)) (by decide))

theorem State.raise_norel {s₀ : State} {s : State} {code : Nat} {ch : Nat} {data : List Nat} (h : NoneReleased s₀ s) : NoneReleased s₀ (State.raise s code ch data) :=
  h.comp (NoneReleased.of_frame (State.raise_frame (Frame.refl _ _) (Field.sub_refl _)) (by decide))

theorem State.verifyFailed_norel {s₀ : State} {s : State} {n : Nat} {st : Status} {plate : Nat} {man : List Byte} {leaf : Nat} (h : NoneReleased s₀ s) : NoneReleased s₀ (State.verifyFailed s n st plate man leaf) :=
  h.comp (NoneReleased.of_frame (State.verifyFailed_frame (Frame.refl _ _) (Field.sub_refl _)) (by decide))

theorem State.modMbx_norel {s₀ : State} {s : State} {n : Fin 128} {f : Mailbox → Mailbox} (h : NoneReleased s₀ s) : NoneReleased s₀ (State.modMbx s n f) :=
  h.comp (NoneReleased.of_frame (State.modMbx_frame (Frame.refl _ _) (Field.sub_refl _)) (by decide))

theorem State.closeCdi_norel {s₀ : State} {s : State} {n : Fin 128} (h : NoneReleased s₀ s) : NoneReleased s₀ (State.closeCdi s n) :=
  h.comp (NoneReleased.of_frame (State.closeCdi_frame (Frame.refl _ _) (Field.sub_refl _)) (by decide))

theorem State.modStn_norel {s₀ : State} {s : State} {n : Fin 128} {f : Stencil → Stencil} (h : NoneReleased s₀ s) : NoneReleased s₀ (State.modStn s n f) :=
  h.comp (NoneReleased.of_frame (State.modStn_frame (Frame.refl _ _) (Field.sub_refl _)) (by decide))

theorem State.leaveUpdate_norel {s₀ : State} {s : State} {n : Fin 128} (h : NoneReleased s₀ s) : NoneReleased s₀ (State.leaveUpdate s n) :=
  h.comp (NoneReleased.of_frame (State.leaveUpdate_frame (Frame.refl _ _) (Field.sub_refl _)) (by decide))

theorem State.committed_norel {s₀ : State} {s : State} (h : NoneReleased s₀ s) : NoneReleased s₀ (State.committed s) :=
  h.comp (NoneReleased.of_frame (State.committed_frame (Frame.refl _ _) (Field.sub_refl _)) (by decide))

theorem State.commitPlates_norel {s₀ : State} {s : State} {n : Fin 128} {t2 : PTable} {cause : Nat} (h : NoneReleased s₀ s) : NoneReleased s₀ (State.commitPlates s n t2 cause) :=
  h.comp (NoneReleased.of_frame (State.commitPlates_frame (Frame.refl _ _) (Field.sub_refl _)) (by decide))

theorem State.modWdg_norel {s₀ : State} {s : State} {n : Fin 128} {f : Wdg → Wdg} (h : NoneReleased s₀ s) : NoneReleased s₀ (State.modWdg s n f) :=
  h.comp (NoneReleased.of_frame (State.modWdg_frame (Frame.refl _ _) (Field.sub_refl _)) (by decide))

theorem State.wdgStop_norel {s₀ : State} {s : State} {n : Fin 128} (h : NoneReleased s₀ s) : NoneReleased s₀ (State.wdgStop s n) :=
  h.comp (NoneReleased.of_frame (State.wdgStop_frame (Frame.refl _ _) (Field.sub_refl _)) (by decide))

theorem State.modPort_norel {s₀ : State} {s : State} {n : Fin 128} {f : HostPort → HostPort} (h : NoneReleased s₀ s) : NoneReleased s₀ (State.modPort s n f) :=
  h.comp (NoneReleased.of_frame (State.modPort_frame (Frame.refl _ _) (Field.sub_refl _)) (by decide))

theorem State.modCtl_norel {s₀ s : State} {n : Fin 128} {f : Ctl → Ctl} (h : NoneReleased s₀ s) (hf : ∀ c, (f c).state = c.state) :
    NoneReleased s₀ (s.modCtl n f) := by
  refine h.comp fun c => ?_
  by_cases hc : c = n
  · subst hc; simp [Ctl.released, hf]
  · have : (s.modCtl n f).ch c = s.ch c := State.modCtl_ch_ne _ _ _ hc
    rw [this]; exact id

theorem State.stopHost_norel {s₀ : State} {s : State} {n : Fin 128} (h : NoneReleased s₀ s) : NoneReleased s₀ (State.stopHost s n) := by
  refine h.comp ?_
  clear h
  unfold State.stopHost
  (try dsimp -proj only)
  repeat' (with_reducible first
    | assumption
    | apply NoneReleased.refl
    | apply State.wdgStop_norel
    | apply State.modStn_norel
    | apply State.modPort_norel
    | (apply State.modCtl_norel; rotate_left; (intro c; rfl))
    | intro _
    | split
    | (refine NoneReleased.comp ?_ (NoneReleased.of_frame (Frame.put_plat (fs := [.plat]) (Frame.refl _ _) (by decide)) (by decide))))

theorem State.modRing_norel {s₀ : State} {s : State} {m : Mgr} {f : Ring → Ring} (h : NoneReleased s₀ s) : NoneReleased s₀ (State.modRing s m f) :=
  h.comp (NoneReleased.of_frame (State.modRing_frame (Frame.refl _ _) (Field.sub_refl _)) (by decide))

theorem State.finish_norel {s₀ : State} {s : State} {src : Src} {st : Status} {info : optParam Nat 0} {result : optParam (List Byte) []} {more : optParam Bool Bool.false} (h : NoneReleased s₀ s) : NoneReleased s₀ (State.finish s src st info result more) :=
  h.comp (NoneReleased.of_frame (State.finish_frame (Frame.refl _ _) (Field.sub_refl _)) (by decide))

theorem State.mctpReply_norel {s₀ : State} {s : State} {e : Fin 8} {r : OvdelReply} (h : NoneReleased s₀ s) : NoneReleased s₀ (State.mctpReply s e r) :=
  h.comp (NoneReleased.of_frame (State.mctpReply_frame (Frame.refl _ _) (Field.sub_refl _)) (by decide))

theorem State.answer_norel {s₀ : State} {s : State} {who : Asker} {n : Fin 128} {st : Status} {info : optParam Nat 0} {result : optParam (List Byte) []} (h : NoneReleased s₀ s) : NoneReleased s₀ (State.answer s who n st info result) := by
  refine h.comp ?_
  clear h
  unfold State.answer
  (try dsimp -proj only)
  repeat' (with_reducible first
    | assumption
    | apply NoneReleased.refl
    | apply State.finish_norel
    | apply State.mctpReply_norel
    | (apply State.modCtl_norel; rotate_left; (intro c; rfl))
    | intro _
    | split)

theorem State.answerAll_norel {s₀ : State} {s : State} {n : Fin 128} {k2 : AwaitKind → Bool} {st : Status} {info : Nat} {result : List Byte} (h : NoneReleased s₀ s) : NoneReleased s₀ (State.answerAll s n k2 st info result) := by
  refine h.comp ?_
  clear h
  unfold State.answerAll
  (try dsimp -proj only)
  repeat' (with_reducible first
    | assumption
    | apply NoneReleased.refl
    | apply State.forAll_norel
    | apply State.answer_norel
    | intro _
    | split
    | (refine NoneReleased.comp ?_ (NoneReleased.of_frame (Frame.put_awaits (fs := [.awaits]) (Frame.refl _ _) (by decide)) (by decide))))

theorem State.transition_norel {s₀ s : State} {n : Fin 128} {st : ChState} {cause : Cause} (h : NoneReleased s₀ s) (hs : st ≠ .running ∧ st ≠ .proof) :
    NoneReleased s₀ (State.transition s n st cause) := by
  refine h.comp ?_
  have h1 : NoneReleased s (s.modCtl n fun c => { c with state := st, cause := cause, kind := if st = .held then c.kind else .none }) := by
    intro c
    by_cases hc : c = n
    · subst hc; simp [Ctl.released, hs.1, hs.2]
    · rw [State.modCtl_ch_ne _ _ _ hc]; exact id
  unfold State.transition
  dsimp only
  refine h1.comp ?_
  generalize s.modCtl n _ = u
  repeat' (with_reducible first
    | apply NoneReleased.refl
    | apply State.log_norel
    | apply State.raise_norel
    | split)

theorem State.transition_norel_live {s : State} {n : Fin 128} {st : ChState} {cause : Cause} (hr : (s.ch n).released = true) :
    NoneReleased s (State.transition s n st cause) := by
  have h1 : NoneReleased s (s.modCtl n fun c => { c with state := st, cause := cause, kind := if st = .held then c.kind else .none }) := by
    intro c
    by_cases hc : c = n
    · subst hc; exact fun _ => hr
    · rw [State.modCtl_ch_ne _ _ _ hc]; exact id
  unfold State.transition
  dsimp only
  refine h1.comp ?_
  generalize s.modCtl n _ = u
  repeat' (with_reducible first
    | apply NoneReleased.refl
    | apply State.log_norel
    | apply State.raise_norel
    | split)

theorem State.hold_norel {s₀ : State} {s : State} {n : Fin 128} {kind : HoldKind} {cause : Cause} {seq : Option SeqKind} (h : NoneReleased s₀ s) : NoneReleased s₀ (State.hold s n kind cause seq) := by
  refine h.comp ?_
  clear h
  unfold State.hold
  (try dsimp -proj only)
  repeat' (with_reducible first
    | assumption
    | apply NoneReleased.refl
    | apply State.stopHost_norel
    | apply State.answerAll_norel
    | (apply State.transition_norel; rotate_left; decide)
    | (apply State.modCtl_norel; rotate_left; (intro c; rfl))
    | intro _
    | split)

theorem State.forChans_norel {s₀ s : State} {f : Fin 128 → State → State} (h₀ : NoneReleased s₀ s) (h : ∀ n s, NoneReleased s (f n s)) :
    NoneReleased s₀ (s.forChans f) := NoneReleased.foldl h₀ fun s x => h x s

theorem State.completeAdvances_norel {s₀ : State} {s : State} (h : NoneReleased s₀ s) : NoneReleased s₀ (State.completeAdvances s) :=
  h.comp (NoneReleased.of_frame (State.completeAdvances_frame (Frame.refl _ _) (Field.sub_refl _)) (by decide))

theorem State.selNote_norel {s₀ : State} {s : State} {n : Fin 128} {w : SelWait} {p : PlateId} {r : Chk} {loud : Bool} (h : NoneReleased s₀ s) : NoneReleased s₀ (State.selNote s n w p r loud).1 :=
  h.comp (NoneReleased.of_frame (State.selNote_frame (Frame.refl _ _) (Field.sub_refl _)) (by decide))

theorem State.modDir_norel {s₀ : State} {s : State} {i : Fin 256} {f : Impression → Impression} (h : NoneReleased s₀ s) : NoneReleased s₀ (State.modDir s i f) :=
  h.comp (NoneReleased.of_frame (State.modDir_frame (Frame.refl _ _) (Field.sub_refl _)) (by decide))

theorem State.allocExtents_norel {s₀ : State} {s : State} {i : Fin 256} {leaves : Nat} (h : NoneReleased s₀ s) : NoneReleased s₀ (State.allocExtents s i leaves) :=
  h.comp (NoneReleased.of_frame (State.allocExtents_frame (Frame.refl _ _) (Field.sub_refl _)) (by decide))

theorem State.dropLines_norel {s₀ : State} {s : State} {i : Fin 256} (h : NoneReleased s₀ s) : NoneReleased s₀ (State.dropLines s i) :=
  h.comp (NoneReleased.of_frame (State.dropLines_frame (Frame.refl _ _) (Field.sub_refl _)) (by decide))

theorem State.freeEntry_norel {s₀ : State} {s : State} {i : Fin 256} {why : Nat} (h : NoneReleased s₀ s) : NoneReleased s₀ (State.freeEntry s i why) :=
  h.comp (NoneReleased.of_frame (State.freeEntry_frame (Frame.refl _ _) (Field.sub_refl _)) (by decide))

theorem State.takeAndWait_norel {s₀ : State} {s : State} {man : List Byte} (h : NoneReleased s₀ s) : NoneReleased s₀ (State.takeAndWait s man).2 :=
  h.comp (NoneReleased.of_frame (State.takeAndWait_frame (Frame.refl _ _) (Field.sub_refl _)) (by decide))

theorem State.checkPair_norel {s₀ : State} {s : State} {n : Fin 128} {man : List Byte} (h : NoneReleased s₀ s) : NoneReleased s₀ (State.checkPair s n man).2 := by
  refine h.comp ?_
  clear h
  unfold State.checkPair
  (try dsimp -proj only)
  repeat' (with_reducible first
    | assumption
    | apply NoneReleased.refl
    | apply State.takeAndWait_norel
    | (apply State.modCtl_norel; rotate_left; (intro c; rfl))
    | apply State.freeEntry_norel
    | intro _
    | split)

theorem State.checkLeaves_norel {s₀ : State} {s : State} {n : Fin 128} {p : PlateId} (h : NoneReleased s₀ s) : NoneReleased s₀ (State.checkLeaves s n p).2 := by
  refine h.comp ?_
  clear h
  unfold State.checkLeaves
  (try dsimp -proj only)
  repeat' (with_reducible first
    | assumption
    | apply NoneReleased.refl
    | apply State.checkPair_norel
    | intro _
    | split)

theorem State.checkPlate_norel {s₀ : State} {s : State} {n : Fin 128} {p : PlateId} (h : NoneReleased s₀ s) : NoneReleased s₀ (State.checkPlate s n p).2 := by
  refine h.comp ?_
  clear h
  unfold State.checkPlate
  (try dsimp -proj only)
  repeat' (with_reducible first
    | assumption
    | apply NoneReleased.refl
    | apply State.checkLeaves_norel
    | intro _
    | split)

theorem State.unbind_norel {s₀ : State} {s : State} {n : Fin 128} (h : NoneReleased s₀ s) : NoneReleased s₀ (State.unbind s n) := by
  refine h.comp ?_
  clear h
  unfold State.unbind
  (try dsimp -proj only)
  repeat' (with_reducible first
    | assumption
    | apply NoneReleased.refl
    | (apply State.modCtl_norel; rotate_left; (intro c; rfl))
    | apply State.modDir_norel
    | intro _
    | split)

theorem State.enterRecoveryState_norel {s₀ : State} {s : State} {n : Fin 128} (h : NoneReleased s₀ s) : NoneReleased s₀ (State.enterRecoveryState s n) := by
  refine h.comp ?_
  clear h
  unfold State.enterRecoveryState
  (try dsimp -proj only)
  repeat' (with_reducible first
    | assumption
    | apply NoneReleased.refl
    | apply State.modMbx_norel
    | apply State.unbind_norel
    | (apply State.transition_norel; rotate_left; decide)
    | apply State.raise_norel
    | apply State.modWdg_norel
    | apply State.answerAll_norel
    | (apply State.modCtl_norel; rotate_left; (intro c; rfl))
    | intro _
    | split)

theorem State.bind_norel {s₀ : State} {s : State} {n : Fin 128} {i : Fin 256} {p : PlateId} (h : NoneReleased s₀ s) : NoneReleased s₀ (State.bind s n i p) := by
  refine h.comp ?_
  clear h
  unfold State.bind
  (try dsimp -proj only)
  repeat' (with_reducible first
    | assumption
    | apply NoneReleased.refl
    | apply State.unbind_norel
    | (apply State.modCtl_norel; rotate_left; (intro c; rfl))
    | intro _
    | split)

theorem State.beginAttempt_norel {s₀ : State} {s : State} {n : Fin 128} (h : NoneReleased s₀ s) : NoneReleased s₀ (State.beginAttempt s n) :=
  h.comp (NoneReleased.of_frame (State.beginAttempt_frame (Frame.refl _ _) (Field.sub_refl _)) (by decide))

theorem State.selEnd_norel {s₀ : State} {s : State} {n : Fin 128} {w : SelWait} {t3 : PTable} {tie : Bool} {run : Option (PlateId × Fin 256)} {attempt : Bool} (h : NoneReleased s₀ s) : NoneReleased s₀ (State.selEnd s n w t3 tie run attempt) := by
  refine h.comp ?_
  clear h
  unfold State.selEnd
  (try dsimp -proj only)
  repeat' (with_reducible first
    | assumption
    | apply NoneReleased.refl
    | apply State.enterRecoveryState_norel
    | apply State.bind_norel
    | apply State.answerAll_norel
    | apply State.commitPlates_norel
    | apply State.beginAttempt_norel
    | apply State.unbind_norel
    | (apply State.modCtl_norel; rotate_left; (intro c; rfl))
    | apply State.raise_norel
    | intro _
    | split)

theorem State.selectFrom_norel {s₀ : State} {n : Fin 128} {x : Nat} {x2 : SelWait} {x3 : State} (h : NoneReleased s₀ x3) : NoneReleased s₀ (State.selectFrom n x x2 x3) := by
  refine h.comp ?_
  clear h
  have key : ∀ (s₀ : State) (x2 : SelWait) (x3 : State), NoneReleased s₀ x3 → NoneReleased s₀ (State.selectFrom n x x2 x3) := by
    induction x with
    | zero => intro s₀ x2 x3 h; unfold State.selectFrom; exact h
    | succ k ih =>
      intro s₀ x2 x3 h; unfold State.selectFrom
      (try dsimp -proj only)
      repeat' (with_reducible first
        | assumption
        | apply ih
        | apply NoneReleased.refl
        | apply State.selNote_norel
        | apply State.checkPlate_norel
        | (apply State.modCtl_norel; rotate_left; (intro c; rfl))
        | apply State.selEnd_norel
        | intro _
        | split)
  exact key _ x2 x3 (NoneReleased.refl _)

theorem State.select_norel {s₀ : State} {s : State} {n : Fin 128} (h : NoneReleased s₀ s) : NoneReleased s₀ (State.select s n) := by
  refine h.comp ?_
  clear h
  unfold State.select
  (try dsimp -proj only)
  repeat' (with_reducible first
    | assumption
    | apply NoneReleased.refl
    | apply State.completeAdvances_norel
    | apply State.selectFrom_norel
    | (apply State.modCtl_norel; rotate_left; (intro c; rfl))
    | intro _
    | split)

theorem State.stayHeld_norel {s₀ : State} {s : State} {n : Fin 128} (h : NoneReleased s₀ s) : NoneReleased s₀ (State.stayHeld s n) := by
  refine h.comp ?_
  clear h
  unfold State.stayHeld
  (try dsimp -proj only)
  repeat' (with_reducible first
    | assumption
    | apply NoneReleased.refl
    | apply State.answerAll_norel
    | intro _
    | split)

theorem State.startTaking_norel {s₀ : State} {s : State} {n : Fin 128} {cause : Cause} {asked : Bool} (h : NoneReleased s₀ s) : NoneReleased s₀ (State.startTaking s n cause asked) := by
  refine h.comp ?_
  clear h
  unfold State.startTaking
  (try dsimp -proj only)
  repeat' (with_reducible first
    | assumption
    | apply NoneReleased.refl
    | apply State.select_norel
    | apply State.unbind_norel
    | (apply State.transition_norel; rotate_left; decide)
    | apply State.stayHeld_norel
    | (apply State.modCtl_norel; rotate_left; (intro c; rfl))
    | intro _
    | split)

theorem State.takeKept_norel {s₀ : State} {s : State} {n : Fin 128} {cause : Cause} (h : NoneReleased s₀ s) : NoneReleased s₀ (State.takeKept s n cause) := by
  refine h.comp ?_
  clear h
  unfold State.takeKept
  (try dsimp -proj only)
  repeat' (with_reducible first
    | assumption
    | apply NoneReleased.refl
    | apply State.startTaking_norel
    | (apply State.transition_norel; rotate_left; decide)
    | (apply State.modCtl_norel; rotate_left; (intro c; rfl))
    | intro _
    | split)

theorem State.endArming_norel {s₀ : State} {s : State} {n : Fin 128} {st : Status} (h : NoneReleased s₀ s) : NoneReleased s₀ (State.endArming s n st) := by
  refine h.comp ?_
  clear h
  unfold State.endArming
  (try dsimp -proj only)
  repeat' (with_reducible first
    | assumption
    | apply NoneReleased.refl
    | apply State.modPlt_norel
    | apply State.answerAll_norel
    | (apply State.modCtl_norel; rotate_left; (intro c; rfl))
    | intro _
    | split)

theorem State.armFail_norel {s₀ : State} {s : State} {n : Fin 128} {st : Status} (h : NoneReleased s₀ s) : NoneReleased s₀ (State.armFail s n st) := by
  refine h.comp ?_
  clear h
  unfold State.armFail
  (try dsimp -proj only)
  repeat' (with_reducible first
    | assumption
    | apply NoneReleased.refl
    | apply State.select_norel
    | apply State.takeKept_norel
    | apply State.endArming_norel
    | intro _
    | split)

theorem State.armCommit_norel {s₀ : State} {s : State} {n : Fin 128} {a : Arming} {i : Fin 256} (h : NoneReleased s₀ s) : NoneReleased s₀ (State.armCommit s n a i) := by
  refine h.comp ?_
  clear h
  unfold State.armCommit
  (try dsimp -proj only)
  repeat' (with_reducible first
    | assumption
    | apply NoneReleased.refl
    | apply State.modPlt_norel
    | apply State.bind_norel
    | apply State.startTaking_norel
    | apply State.beginAttempt_norel
    | apply State.commitPlates_norel
    | (apply State.modCtl_norel; rotate_left; (intro c; rfl))
    | intro _
    | split)

theorem State.armJudge_norel {s₀ : State} {s : State} {n : Fin 128} {a : Arming} {r : Chk} (h : NoneReleased s₀ s) : NoneReleased s₀ (State.armJudge s n a r) := by
  refine h.comp ?_
  clear h
  unfold State.armJudge
  (try dsimp -proj only)
  repeat' (with_reducible first
    | assumption
    | apply NoneReleased.refl
    | apply State.verifyFailed_norel
    | apply State.armFail_norel
    | apply State.armCommit_norel
    | apply State.raise_norel
    | apply State.commitPlates_norel
    | (apply State.modCtl_norel; rotate_left; (intro c; rfl))
    | intro _
    | split
    | (refine NoneReleased.comp ?_ (NoneReleased.of_frame (Frame.put_led (fs := [.led]) (Frame.refl _ _) (by decide)) (by decide))))

theorem State.armStep_norel {s₀ : State} {s : State} {n : Fin 128} (h : NoneReleased s₀ s) : NoneReleased s₀ (State.armStep s n) := by
  refine h.comp ?_
  clear h
  unfold State.armStep
  (try dsimp -proj only)
  repeat' (with_reducible first
    | assumption
    | apply NoneReleased.refl
    | apply State.armJudge_norel
    | apply State.checkPlate_norel
    | (apply State.modCtl_norel; rotate_left; (intro c; rfl))
    | intro _
    | split)

theorem State.beginArm_norel {s₀ : State} {s : State} {n : Fin 128} {p : PlateId} (h : NoneReleased s₀ s) : NoneReleased s₀ (State.beginArm s n p) := by
  refine h.comp ?_
  clear h
  unfold State.beginArm
  (try dsimp -proj only)
  repeat' (with_reducible first
    | assumption
    | apply NoneReleased.refl
    | apply State.modPlt_norel
    | apply State.hold_norel
    | apply State.armStep_norel
    | intro _
    | split)

theorem State.modFp_norel {s₀ : State} {s : State} {n : Fin 64} {f : FlashPort → FlashPort} (h : NoneReleased s₀ s) : NoneReleased s₀ (State.modFp s n f) :=
  h.comp (NoneReleased.of_frame (State.modFp_frame (Frame.refl _ _) (Field.sub_refl _)) (by decide))

theorem State.mbxIgnored_norel {s₀ : State} {s : State} {n : Fin 128} (h : NoneReleased s₀ s) : NoneReleased s₀ (State.mbxIgnored s n) :=
  h.comp (NoneReleased.of_frame (State.mbxIgnored_frame (Frame.refl _ _) (Field.sub_refl _)) (by decide))

theorem State.latch_norel {s₀ : State} {s : State} {n : Fin 128} {x : LatchedAct} (h : NoneReleased s₀ s) : NoneReleased s₀ (State.latch s n x).1 :=
  h.comp (NoneReleased.of_frame (State.latch_frame (Frame.refl _ _) (Field.sub_refl _)) (by decide))

theorem State.newWindow_norel {s₀ : State} {s : State} {n : Fin 128} (h : NoneReleased s₀ s) : NoneReleased s₀ (State.newWindow s n) :=
  h.comp (NoneReleased.of_frame (State.newWindow_frame (Frame.refl _ _) (Field.sub_refl _)) (by decide))

theorem State.restartSeq_norel {s₀ : State} {s : State} {n : Fin 128} {cause : Cause} (h : NoneReleased s₀ s) : NoneReleased s₀ (State.restartSeq s n cause) := by
  refine h.comp ?_
  clear h
  unfold State.restartSeq
  (try dsimp -proj only)
  repeat' (with_reducible first
    | assumption
    | apply NoneReleased.refl
    | apply State.hold_norel
    | intro _
    | split)

theorem State.enterSafe_norel {s₀ : State} {s : State} {n : Fin 128} (h : NoneReleased s₀ s) : NoneReleased s₀ (State.enterSafe s n) := by
  refine h.comp ?_
  clear h
  unfold State.enterSafe
  (try dsimp -proj only)
  repeat' (with_reducible first
    | assumption
    | apply NoneReleased.refl
    | apply State.answerAll_norel
    | apply State.stopHost_norel
    | (apply State.transition_norel; rotate_left; decide)
    | intro _
    | split)

theorem State.modLine_norel {s₀ : State} {s : State} {t1 : Fin 16} {x : TwStep} (h : NoneReleased s₀ s) : NoneReleased s₀ (State.modLine s t1 x) :=
  h.comp (NoneReleased.of_frame (State.modLine_frame (Frame.refl _ _) (Field.sub_refl _)) (by decide))

theorem State.lineStep_norel {s₀ : State} {s : State} {t1 : Fin 16} (h : NoneReleased s₀ s) : NoneReleased s₀ (State.lineStep s t1) :=
  h.comp (NoneReleased.of_frame (State.lineStep_frame (Frame.refl _ _) (Field.sub_refl _)) (by decide))

theorem State.powerStep3_norel {s₀ : State} {s : State} {n : Fin 128} (h : NoneReleased s₀ s) : NoneReleased s₀ (State.powerStep3 s n) := by
  refine h.comp ?_
  clear h
  unfold State.powerStep3
  (try dsimp -proj only)
  repeat' (with_reducible first
    | assumption
    | apply NoneReleased.refl
    | apply State.startTaking_norel
    | (apply State.modCtl_norel; rotate_left; (intro c; rfl))
    | intro _
    | split)

theorem State.requestPulse_norel {s₀ : State} {s : State} {t1 : Fin 16} {own : Option (Fin 128)} (h : NoneReleased s₀ s) : NoneReleased s₀ (State.requestPulse s t1 own) := by
  refine h.comp ?_
  clear h
  unfold State.requestPulse
  (try dsimp -proj only)
  repeat' (with_reducible first
    | assumption
    | apply NoneReleased.refl
    | apply State.hold_norel
    | apply State.forAll_norel
    | apply State.modLine_norel
    | apply State.lineStep_norel
    | apply State.powerStep3_norel
    | intro _
    | split
    | (refine NoneReleased.comp ?_ (NoneReleased.of_frame (Frame.put_plat (fs := [.plat]) (Frame.refl _ _) (by decide)) (by decide))))

theorem State.powerCycle_norel {s₀ : State} {s : State} {n : Fin 128} (h : NoneReleased s₀ s) : NoneReleased s₀ (State.powerCycle s n) := by
  refine h.comp ?_
  clear h
  unfold State.powerCycle
  (try dsimp -proj only)
  repeat' (with_reducible first
    | assumption
    | apply NoneReleased.refl
    | apply State.restartSeq_norel
    | apply State.requestPulse_norel
    | intro _
    | split)

theorem State.rejectProof_norel {s₀ : State} {s : State} {n : Fin 128} (h : NoneReleased s₀ s) : NoneReleased s₀ (State.rejectProof s n) :=
  h.comp (NoneReleased.of_frame (State.rejectProof_frame (Frame.refl _ _) (Field.sub_refl _)) (by decide))

theorem State.revert_norel {s₀ : State} {s : State} {n : Fin 128} {why : Nat} (h : NoneReleased s₀ s) : NoneReleased s₀ (State.revert s n why) := by
  refine h.comp ?_
  clear h
  unfold State.revert
  (try dsimp -proj only)
  repeat' (with_reducible first
    | assumption
    | apply NoneReleased.refl
    | apply State.modPlt_norel
    | apply State.select_norel
    | apply State.hold_norel
    | apply State.startTaking_norel
    | apply State.endArming_norel
    | apply State.raise_norel
    | apply State.rejectProof_norel
    | (apply State.modCtl_norel; rotate_left; (intro c; rfl))
    | intro _
    | split)

theorem State.proofFails_norel {s₀ : State} {s : State} {n : Fin 128} {why : Nat} (h : NoneReleased s₀ s) : NoneReleased s₀ (State.proofFails s n why) := by
  refine h.comp ?_
  clear h
  unfold State.proofFails
  (try dsimp -proj only)
  repeat' (with_reducible first
    | assumption
    | apply NoneReleased.refl
    | apply State.modPlt_norel
    | apply State.hold_norel
    | apply State.revert_norel
    | intro _
    | split)

theorem State.takeAction_norel {s₀ : State} {s : State} {n : Fin 128} {a : WdgAct} (h : NoneReleased s₀ s) : NoneReleased s₀ (State.takeAction s n a) := by
  refine h.comp ?_
  clear h
  unfold State.takeAction
  (try dsimp -proj only)
  repeat' (with_reducible first
    | assumption
    | apply NoneReleased.refl
    | apply State.restartSeq_norel
    | apply State.enterSafe_norel
    | apply State.powerCycle_norel
    | apply State.proofFails_norel
    | intro _
    | split)

theorem State.noteExpiry_norel {s₀ : State} {s : State} {n : Fin 128} {cause : ExpCause} (h : NoneReleased s₀ s) : NoneReleased s₀ (State.noteExpiry s n cause) :=
  h.comp (NoneReleased.of_frame (State.noteExpiry_frame (Frame.refl _ _) (Field.sub_refl _)) (by decide))

theorem State.expire_norel {s₀ : State} {s : State} {n : Fin 128} {cause : ExpCause} (h : NoneReleased s₀ s) : NoneReleased s₀ (State.expire s n cause) := by
  refine h.comp ?_
  clear h
  unfold State.expire
  (try dsimp -proj only)
  repeat' (with_reducible first
    | assumption
    | apply NoneReleased.refl
    | apply State.takeAction_norel
    | apply State.forAll_norel
    | apply State.noteExpiry_norel
    | intro _
    | split)

theorem State.publish_norel {s₀ : State} {s : State} {n : Fin 128} (h : NoneReleased s₀ s) : NoneReleased s₀ (State.publish s n) :=
  h.comp (NoneReleased.of_frame (State.publish_frame (Frame.refl _ _) (Field.sub_refl _)) (by decide))

theorem State.summary_norel {s₀ : State} {s : State} {type : Nat} {ch : Nat} (h : NoneReleased s₀ s) : NoneReleased s₀ (State.summary s type ch) :=
  h.comp (NoneReleased.of_frame (State.summary_frame (Frame.refl _ _) (Field.sub_refl _)) (by decide))

theorem State.violation_norel {s₀ : State} {s : State} {n : Fin 128} {early : Bool} (h : NoneReleased s₀ s) : NoneReleased s₀ (State.violation s n early) := by
  refine h.comp ?_
  clear h
  unfold State.violation
  (try dsimp -proj only)
  repeat' (with_reducible first
    | assumption
    | apply NoneReleased.refl
    | apply State.modWdg_norel
    | apply State.expire_norel
    | apply State.summary_norel
    | apply State.raise_norel
    | intro _
    | split)

theorem State.service_norel {s₀ : State} {s : State} {n : Fin 128} {token : DWord} (h : NoneReleased s₀ s) : NoneReleased s₀ (State.service s n token) := by
  refine h.comp ?_
  clear h
  unfold State.service
  (try dsimp -proj only)
  repeat' (with_reducible first
    | assumption
    | apply NoneReleased.refl
    | apply State.modWdg_norel
    | apply State.newWindow_norel
    | apply State.expire_norel
    | apply State.publish_norel
    | apply State.violation_norel
    | intro _
    | split)

theorem State.wdgTokenW_norel {s₀ : State} {s : State} {n : Fin 128} {v : Nat} (h : NoneReleased s₀ s) : NoneReleased s₀ (State.wdgTokenW s n v).1 := by
  refine h.comp ?_
  clear h
  unfold State.wdgTokenW
  (try dsimp -proj only)
  repeat' (with_reducible first
    | assumption
    | apply NoneReleased.refl
    | apply State.service_norel
    | intro _
    | split)

theorem State.updOpenAt_norel {s₀ : State} {s : State} {n : Fin 128} {inRun : Bool} {v : DWord} (h : NoneReleased s₀ s) : NoneReleased s₀ (State.updOpenAt s n inRun v).1 :=
  h.comp (NoneReleased.of_frame (State.updOpenAt_frame (Frame.refl _ _) (Field.sub_refl _)) (by decide))

theorem State.updCommitNow_norel {s₀ : State} {s : State} {n : Fin 128} (h : NoneReleased s₀ s) : NoneReleased s₀ (State.updCommitNow s n).1 :=
  h.comp (NoneReleased.of_frame (State.updCommitNow_frame (Frame.refl _ _) (Field.sub_refl _)) (by decide))

theorem State.postMessageAt_norel {s₀ : State} {s : State} {n : Fin 128} {time : Nat} {seq : Word} {bytes : List Byte} (h : NoneReleased s₀ s) : NoneReleased s₀ (State.postMessageAt s n time seq bytes).1 :=
  h.comp (NoneReleased.of_frame (State.postMessageAt_frame (Frame.refl _ _) (Field.sub_refl _)) (by decide))

theorem State.revertBelow_norel {s₀ : State} {s : State} (h : NoneReleased s₀ s) : NoneReleased s₀ (State.revertBelow s) := by
  refine h.comp ?_
  clear h
  unfold State.revertBelow
  (try dsimp -proj only)
  repeat' (with_reducible first
    | assumption
    | apply NoneReleased.refl
    | apply State.revert_norel
    | apply State.forChans_norel
    | intro _
    | split)

theorem State.acceptCommit_norel {s₀ s : State} {n : Fin 128} {time : Nat} (h : NoneReleased s₀ s) : NoneReleased s₀ (State.acceptCommit s n time) := by
  refine h.comp ?_
  clear h
  unfold State.acceptCommit
  split
  · exact NoneReleased.refl _
  · split
    · exact NoneReleased.refl _
    · extract_lets t other t1 e t2 s1 s2 s3 s4 s5
      have h1 : NoneReleased s s1 := State.commitPlates_norel (NoneReleased.refl _)
      clear_value s1
      have h2 : NoneReleased s s2 := State.modPlt_norel h1
      clear_value s2
      have h3 : NoneReleased s s3 := State.raise_norel h2
      clear_value s3
      refine State.revertBelow_norel (State.completeAdvances_norel ?_)
      simp only [s5, s4]
      split
      · rename_i hp
        exact h3.comp (State.log_norel (State.transition_norel_live (by simp [Ctl.released, hp])))
      · exact h3

theorem State.judgeAccept_norel {s₀ : State} {s : State} {n : Fin 128} {time : Nat} {value : DWord} (h : NoneReleased s₀ s) : NoneReleased s₀ (State.judgeAccept s n time value) := by
  refine h.comp ?_
  clear h
  unfold State.judgeAccept
  (try dsimp -proj only)
  repeat' (with_reducible first
    | assumption
    | apply NoneReleased.refl
    | apply State.modPlt_norel
    | apply State.acceptCommit_norel
    | intro _
    | split
    | (refine NoneReleased.comp ?_ (NoneReleased.of_frame (Frame.put_led (fs := [.led]) (Frame.refl _ _) (by decide)) (by decide))))

theorem State.proofAcceptAt_norel {s₀ : State} {s : State} {n : Fin 128} {time : Nat} {v : DWord} (h : NoneReleased s₀ s) : NoneReleased s₀ (State.proofAcceptAt s n time v).1 := by
  refine h.comp ?_
  clear h
  unfold State.proofAcceptAt
  (try dsimp -proj only)
  repeat' (with_reducible first
    | assumption
    | apply NoneReleased.refl
    | apply State.judgeAccept_norel
    | intro _
    | split)

theorem State.bootDoneW_norel {s₀ : State} {s : State} {n : Fin 128} {v : Nat} (h : NoneReleased s₀ s) : NoneReleased s₀ (State.bootDoneW s n v).1 :=
  h.comp (NoneReleased.of_frame (State.bootDoneW_frame (Frame.refl _ _) (Field.sub_refl _)) (by decide))

theorem State.mbxSelectW_norel {s₀ : State} {s : State} {n : Fin 128} {v : Nat} (h : NoneReleased s₀ s) : NoneReleased s₀ (State.mbxSelectW s n v).1 :=
  h.comp (NoneReleased.of_frame (State.mbxSelectW_frame (Frame.refl _ _) (Field.sub_refl _)) (by decide))

theorem State.extension_norel {s₀ : State} {s : State} {n : Fin 128} {token : DWord} {units : Word} (h : NoneReleased s₀ s) : NoneReleased s₀ (State.extension s n token units) := by
  refine h.comp ?_
  clear h
  unfold State.extension
  (try dsimp -proj only)
  repeat' (with_reducible first
    | assumption
    | apply NoneReleased.refl
    | apply State.modWdg_norel
    | apply State.expire_norel
    | apply State.publish_norel
    | apply State.log_norel
    | apply State.violation_norel
    | apply State.raise_norel
    | intro _
    | split)

theorem State.wdgExtendW_norel {s₀ : State} {s : State} {n : Fin 128} {v : Nat} (h : NoneReleased s₀ s) : NoneReleased s₀ (State.wdgExtendW s n v).1 := by
  refine h.comp ?_
  clear h
  unfold State.wdgExtendW
  (try dsimp -proj only)
  repeat' (with_reducible first
    | assumption
    | apply NoneReleased.refl
    | apply State.extension_norel
    | intro _
    | split)

theorem State.updAbortNow_norel {s₀ : State} {s : State} {n : Fin 128} (h : NoneReleased s₀ s) : NoneReleased s₀ (State.updAbortNow s n).1 :=
  h.comp (NoneReleased.of_frame (State.updAbortNow_frame (Frame.refl _ _) (Field.sub_refl _)) (by decide))

theorem State.fieldWrite_norel {s₀ : State} {s : State} {n : Fin 128} {off : Nat} {v : Nat} (h : NoneReleased s₀ s) : NoneReleased s₀ (State.fieldWrite s n off v).1 := by
  refine h.comp ?_
  clear h
  unfold State.fieldWrite
  (try dsimp -proj only)
  repeat' (with_reducible first
    | assumption
    | apply NoneReleased.refl
    | apply State.latch_norel
    | apply State.wdgTokenW_norel
    | apply State.updOpenAt_norel
    | apply State.updCommitNow_norel
    | apply State.postMessageAt_norel
    | apply State.modMbx_norel
    | apply State.proofAcceptAt_norel
    | apply State.bootDoneW_norel
    | apply State.mbxSelectW_norel
    | apply State.wdgExtendW_norel
    | apply State.updAbortNow_norel
    | intro _
    | split)

theorem State.mbxProgram_norel {s₀ : State} {s : State} {n : Fin 128} {w : List (Nat × Byte)} (h : NoneReleased s₀ s) : NoneReleased s₀ (State.mbxProgram s n w) := by
  refine h.comp ?_
  clear h
  unfold State.mbxProgram
  (try dsimp -proj only)
  repeat' (with_reducible first
    | assumption
    | apply NoneReleased.refl
    | apply State.mbxIgnored_norel
    | apply State.modMbx_norel
    | apply State.fieldWrite_norel
    | apply NoneReleased.foldl
    | apply NoneReleased.foldl_fst
    | intro _
    | split)

theorem State.reply_norel {s₀ : State} {s : State} {n : Fin 128} {op : Nat} {bs : List Byte} (h : NoneReleased s₀ s) : NoneReleased s₀ (State.reply s n op bs) :=
  h.comp (NoneReleased.of_frame (State.reply_frame (Frame.refl _ _) (Field.sub_refl _)) (by decide))

theorem State.shortRead_norel {s₀ : State} {s : State} {n : Fin 128} {op : Nat} {len : Nat} {cycles : Nat} (h : NoneReleased s₀ s) : NoneReleased s₀ (State.shortRead s n op len cycles) :=
  h.comp (NoneReleased.of_frame (State.shortRead_frame (Frame.refl _ _) (Field.sub_refl _)) (by decide))

theorem State.tagFailure_norel {s₀ : State} {s : State} {n : Fin 128} {dir : Nat} {line : Nat} (h : NoneReleased s₀ s) : NoneReleased s₀ (State.tagFailure s n dir line) := by
  refine h.comp ?_
  clear h
  unfold State.tagFailure
  (try dsimp -proj only)
  repeat' (with_reducible first
    | assumption
    | apply NoneReleased.refl
    | apply State.hold_norel
    | apply State.raise_norel
    | apply State.summary_norel
    | (apply State.modCtl_norel; rotate_left; (intro c; rfl))
    | intro _
    | split
    | (refine NoneReleased.comp ?_ (NoneReleased.of_frame (Frame.put_imm (fs := [.imm]) (Frame.refl _ _) (by decide)) (by decide))))

theorem State.modAreas_norel {s₀ : State} {s : State} {n : Fin 128} {f : Areas → Areas} (h : NoneReleased s₀ s) : NoneReleased s₀ (State.modAreas s n f) :=
  h.comp (NoneReleased.of_frame (State.modAreas_frame (Frame.refl _ _) (Field.sub_refl _)) (by decide))

theorem State.burstStop_norel {s₀ : State} {s : State} {n : Fin 128} {c : BCell} (h : NoneReleased s₀ s) : NoneReleased s₀ (State.burstStop s n c) := by
  refine h.comp ?_
  clear h
  unfold State.burstStop
  (try dsimp -proj only)
  repeat' (with_reducible first
    | assumption
    | apply NoneReleased.refl
    | apply State.raise_norel
    | apply State.tagFailure_norel
    | apply State.modPort_norel
    | apply State.modAreas_norel
    | intro _
    | split
    | (refine NoneReleased.comp ?_ (NoneReleased.of_frame (Frame.put_imm (fs := [.imm]) (Frame.refl _ _) (by decide)) (by decide)))
    | (refine NoneReleased.comp ?_ (NoneReleased.of_frame (Frame.put_fca (fs := [.fca]) (Frame.refl _ _) (by decide)) (by decide))))

theorem State.placeLine_norel {s₀ : State} {s : State} {i : Nat} {line : Nat} (h : NoneReleased s₀ s) : NoneReleased s₀ (State.placeLine s i line) :=
  h.comp (NoneReleased.of_frame (State.placeLine_frame (Frame.refl _ _) (Field.sub_refl _)) (by decide))

theorem State.touchLine_norel {s₀ : State} {s : State} {i : Nat} {line : Nat} (h : NoneReleased s₀ s) : NoneReleased s₀ (State.touchLine s i line) :=
  h.comp (NoneReleased.of_frame (State.touchLine_frame (Frame.refl _ _) (Field.sub_refl _)) (by decide))

theorem State.serveBurst_norel {s₀ : State} {s : State} {n : Fin 128} {c : HostCmd} {op : Nat} {a : Nat} (h : NoneReleased s₀ s) : NoneReleased s₀ (State.serveBurst s n c op a) := by
  refine h.comp ?_
  clear h
  unfold State.serveBurst
  (try dsimp -proj only)
  repeat' (with_reducible first
    | assumption
    | apply NoneReleased.refl
    | apply State.closeCdi_norel
    | apply State.reply_norel
    | apply State.burstStop_norel
    | apply State.forAll_norel
    | apply State.touchLine_norel
    | apply State.placeLine_norel
    | intro _
    | split)

theorem State.undecoded_norel {s₀ : State} {s : State} {n : Fin 128} (h : NoneReleased s₀ s) : NoneReleased s₀ (State.undecoded s n) :=
  h.comp (NoneReleased.of_frame (State.undecoded_frame (Frame.refl _ _) (Field.sub_refl _)) (by decide))

theorem State.ownOp_norel {s₀ : State} {s : State} {n : Fin 128} (h : NoneReleased s₀ s) : NoneReleased s₀ (State.ownOp s n) :=
  h.comp (NoneReleased.of_frame (State.ownOp_frame (Frame.refl _ _) (Field.sub_refl _)) (by decide))

theorem State.mailboxCmd_norel {s₀ : State} {s : State} {n : Fin 128} {c : HostCmd} {a : Nat} (h : NoneReleased s₀ s) : NoneReleased s₀ (State.mailboxCmd s n c a) := by
  refine h.comp ?_
  clear h
  unfold State.mailboxCmd
  (try dsimp -proj only)
  repeat' (with_reducible first
    | assumption
    | apply NoneReleased.refl
    | apply State.mbxProgram_norel
    | apply State.shortRead_norel
    | apply State.serveBurst_norel
    | apply State.undecoded_norel
    | apply State.modPort_norel
    | apply State.ownOp_norel
    | intro _
    | split)

theorem State.issue_norel {s₀ : State} {s : State} {n : Fin 128} {cs : List LocalCmd} (h : NoneReleased s₀ s) : NoneReleased s₀ (State.issue s n cs) :=
  h.comp (NoneReleased.of_frame (State.issue_frame (Frame.refl _ _) (Field.sub_refl _)) (by decide))

theorem State.servePass_norel {s₀ : State} {s : State} {n : Fin 128} {c : HostCmd} {op : Nat} {a : Nat} {w : Fin 32} {cs : List LocalCmd} (h : NoneReleased s₀ s) : NoneReleased s₀ (State.servePass s n c op a w cs) :=
  h.comp (NoneReleased.of_frame (State.servePass_frame (Frame.refl _ _) (Field.sub_refl _)) (by decide))

theorem State.refuse_norel {s₀ : State} {s : State} {n : Fin 128} {c : HostCmd} {op : Nat} {addr : Nat} {win : Option (Fin 32)} {r : Reason} {cls : RefClass} {wel : Bool} (h : NoneReleased s₀ s) : NoneReleased s₀ (State.refuse s n c op addr win r cls wel) :=
  h.comp (NoneReleased.of_frame (State.refuse_frame (Frame.refl _ _) (Field.sub_refl _)) (by decide))

theorem State.serveChange_norel {s₀ : State} {s : State} {n : Fin 128} {c : HostCmd} {a : Nat} {w : Fin 32} {erase : Bool} {len : Nat} {cost : Nat} {cs : List LocalCmd} (h : NoneReleased s₀ s) : NoneReleased s₀ (State.serveChange s n c a w erase len cost cs) :=
  h.comp (NoneReleased.of_frame (State.serveChange_frame (Frame.refl _ _) (Field.sub_refl _)) (by decide))

theorem State.judgeWindow_norel {s₀ : State} {s : State} {n : Fin 128} {op : Nat} {c : HostCmd} {a : Nat} {w : Fin 32} {cls : Nat} {rc : RefClass} {wel : Bool} {len : Nat} {cost : Nat} {frame : Option (List LocalCmd)} {gate : Bool} (h : NoneReleased s₀ s) : NoneReleased s₀ (State.judgeWindow s n op c a w cls rc wel len cost frame gate) := by
  refine h.comp ?_
  clear h
  unfold State.judgeWindow
  (try dsimp -proj only)
  repeat' (with_reducible first
    | assumption
    | apply NoneReleased.refl
    | apply State.issue_norel
    | apply State.shortRead_norel
    | apply State.servePass_norel
    | apply State.serveBurst_norel
    | apply State.refuse_norel
    | apply State.serveChange_norel
    | intro _
    | split)

theorem State.executeCmd_norel {s₀ : State} {s : State} {n : Fin 128} {op : Nat} {c : HostCmd} (h : NoneReleased s₀ s) : NoneReleased s₀ (State.executeCmd s n op c) :=
  h.comp (NoneReleased.of_frame (State.executeCmd_frame (Frame.refl _ _) (Field.sub_refl _)) (by decide))

theorem State.judgeCmd_norel {s₀ s : State} {n : Fin 128} {c : HostCmd} {hasAddr : Bool} {a : Nat} (h : NoneReleased s₀ s) :
    NoneReleased s₀ (State.judgeCmd s n c hasAddr a) := by
  refine h.comp ?_
  clear h
  unfold State.judgeCmd
  extract_lets p io t ph range winOf r act rcOwn clearWel ruleWin op addr rc
  have hc : ∀ u op, NoneReleased s u → NoneReleased s (clearWel u op) := by
    intro u op hu
    simp only [clearWel]
    repeat' (with_reducible first
      | exact hu
      | apply State.modPort_norel
      | split)
  clear_value clearWel p io t ph range winOf r act rcOwn ruleWin op addr rc
  repeat' (with_reducible first
    | apply NoneReleased.refl
    | apply hc
    | apply State.refuse_norel
    | apply State.judgeWindow_norel
    | apply State.undecoded_norel
    | apply State.executeCmd_norel
    | (extract_lets; clear_value *)
    | split)

theorem State.decodeCmd_norel {s₀ : State} {s : State} {n : Fin 128} {c : HostCmd} (h : NoneReleased s₀ s) : NoneReleased s₀ (State.decodeCmd s n c) := by
  refine h.comp ?_
  clear h
  unfold State.decodeCmd
  (try dsimp -proj only)
  repeat' (with_reducible first
    | assumption
    | apply NoneReleased.refl
    | apply State.mailboxCmd_norel
    | apply State.judgeCmd_norel
    | apply State.modPort_norel
    | intro _
    | split)

theorem State.csRise_norel {s₀ : State} {s : State} {n : Fin 128} (h : NoneReleased s₀ s) : NoneReleased s₀ (State.csRise s n) :=
  h.comp (NoneReleased.of_frame (State.csRise_frame (Frame.refl _ _) (Field.sub_refl _)) (by decide))

theorem State.host_norel {s₀ : State} {s : State} {n : Fin 128} {c : HostCmd} (h : NoneReleased s₀ s) : NoneReleased s₀ (State.host s n c) := by
  refine h.comp ?_
  clear h
  unfold State.host
  (try dsimp -proj only)
  repeat' (with_reducible first
    | assumption
    | apply NoneReleased.refl
    | apply State.decodeCmd_norel
    | apply State.reply_norel
    | apply State.csRise_norel
    | apply State.undecoded_norel
    | apply State.modPort_norel
    | intro _
    | split)

theorem State.mbxPage_norel {s₀ : State} {s : State} {n : Fin 128} {off : Nat} {bytes : List Byte} (h : NoneReleased s₀ s) : NoneReleased s₀ (State.mbxPage s n off bytes) := by
  refine h.comp ?_
  clear h
  unfold State.mbxPage
  (try dsimp -proj only)
  repeat' (with_reducible first
    | assumption
    | apply NoneReleased.refl
    | apply State.host_norel
    | intro _
    | split)

theorem State.startDiscovery_norel {s₀ : State} {s : State} {f : Fin 64} (h : NoneReleased s₀ s) : NoneReleased s₀ (State.startDiscovery s f) :=
  h.comp (NoneReleased.of_frame (State.startDiscovery_frame (Frame.refl _ _) (Field.sub_refl _)) (by decide))

theorem State.modCore_norel {s₀ : State} {s : State} {k1 : Fin 4} {f : Core → Core} (h : NoneReleased s₀ s) : NoneReleased s₀ (State.modCore s k1 f) :=
  h.comp (NoneReleased.of_frame (State.modCore_frame (Frame.refl _ _) (Field.sub_refl _)) (by decide))

theorem State.finishJob_norel {s₀ : State} {s : State} {j : BurinJob} {st : Status} {info : optParam Nat 0} {result : optParam (List Byte) []} (h : NoneReleased s₀ s) : NoneReleased s₀ (State.finishJob s j st info result) :=
  h.comp (NoneReleased.of_frame (State.finishJob_frame (Frame.refl _ _) (Field.sub_refl _)) (by decide))

theorem State.coreOut_norel {s₀ : State} {s : State} {k1 : Fin 4} {reason : Nat} {test : Bool} (h : NoneReleased s₀ s) : NoneReleased s₀ (State.coreOut s k1 reason test) :=
  h.comp (NoneReleased.of_frame (State.coreOut_frame (Frame.refl _ _) (Field.sub_refl _)) (by decide))

theorem State.dispatchJobs_norel {s₀ : State} {s : State} (h : NoneReleased s₀ s) : NoneReleased s₀ (State.dispatchJobs s) :=
  h.comp (NoneReleased.of_frame (State.dispatchJobs_frame (Frame.refl _ _) (Field.sub_refl _)) (by decide))

theorem State.abortBurin_norel {s₀ : State} {s : State} {src : Src} (h : NoneReleased s₀ s) : NoneReleased s₀ (State.abortBurin s src).1 :=
  h.comp (NoneReleased.of_frame (State.abortBurin_frame (Frame.refl _ _) (Field.sub_refl _)) (by decide))

theorem State.modHash_norel {s₀ : State} {s : State} {m : Mgr} {f : HashWork → HashWork} (h : NoneReleased s₀ s) : NoneReleased s₀ (State.modHash s m f) :=
  h.comp (NoneReleased.of_frame (State.modHash_frame (Frame.refl _ _) (Field.sub_refl _)) (by decide))

theorem State.abortHash_norel {s₀ : State} {s : State} {src : Src} (h : NoneReleased s₀ s) : NoneReleased s₀ (State.abortHash s src).1 :=
  h.comp (NoneReleased.of_frame (State.abortHash_frame (Frame.refl _ _) (Field.sub_refl _)) (by decide))

theorem State.stopCommand_norel {s₀ : State} {s : State} {src : Src} {info : Nat} (h : NoneReleased s₀ s) : NoneReleased s₀ (State.stopCommand s src info).1 := by
  refine h.comp ?_
  clear h
  unfold State.stopCommand
  (try dsimp -proj only)
  repeat' (with_reducible first
    | assumption
    | apply NoneReleased.refl
    | apply State.abortBurin_norel
    | apply State.abortHash_norel
    | apply State.modRing_norel
    | apply State.endArming_norel
    | apply State.finish_norel
    | intro _
    | split
    | (refine NoneReleased.comp ?_ (NoneReleased.of_frame (Frame.put_awaits (fs := [.awaits]) (Frame.refl _ _) (by decide)) (by decide)))
    | (refine NoneReleased.comp ?_ (NoneReleased.of_frame (Frame.put_otp (fs := [.otp]) (Frame.refl _ _) (by decide)) (by decide))))

theorem State.abortSq_norel {s₀ : State} {s : State} {m : Mgr} {qid : Nat} (h : NoneReleased s₀ s) : NoneReleased s₀ (State.abortSq s m qid) := by
  refine h.comp ?_
  clear h
  unfold State.abortSq
  (try dsimp -proj only)
  repeat' (with_reducible first
    | assumption
    | apply NoneReleased.refl
    | apply State.stopCommand_norel
    | apply State.forAll_norel
    | intro _
    | split)

theorem State.wait_norel {s₀ : State} {s : State} {who : Asker} {n : Fin 128} {k3 : AwaitKind} (h : NoneReleased s₀ s) : NoneReleased s₀ (State.wait s who n k3) :=
  h.comp (NoneReleased.of_frame (State.wait_frame (Frame.refl _ _) (Field.sub_refl _)) (by decide))

theorem State.internalRun_norel {s₀ : State} {s : State} {time : Nat} (h : NoneReleased s₀ s) : NoneReleased s₀ (State.internalRun s time) :=
  h.comp (NoneReleased.of_frame (State.internalRun_frame (Frame.refl _ _) (Field.sub_refl _)) (by decide))

theorem State.plateBad_norel {s₀ : State} {s : State} {n : Fin 128} {ps : List PlateId} {st : Status} (h : NoneReleased s₀ s) : NoneReleased s₀ (State.plateBad s n ps st) :=
  h.comp (NoneReleased.of_frame (State.plateBad_frame (Frame.refl _ _) (Field.sub_refl _)) (by decide))

theorem State.endSessions_norel {s₀ : State} {s : State} (h : NoneReleased s₀ s) : NoneReleased s₀ (State.endSessions s) :=
  h.comp (NoneReleased.of_frame (State.endSessions_frame (Frame.refl _ _) (Field.sub_refl _)) (by decide))

theorem State.warmChan_norel {s₀ : State} {s : State} {n : Fin 128} (h : NoneReleased s₀ s) : NoneReleased s₀ (State.warmChan s n) := by
  refine h.comp ?_
  clear h
  unfold State.warmChan
  (try dsimp -proj only)
  repeat' (with_reducible first
    | assumption
    | apply NoneReleased.refl
    | (apply State.transition_norel; rotate_left; decide)
    | (apply State.modCtl_norel; rotate_left; (intro c; rfl))
    | intro _
    | split)

theorem State.sinkAll_norel {s₀ : State} {s : State} (h : NoneReleased s₀ s) : NoneReleased s₀ (State.sinkAll s) := by
  refine h.comp ?_
  clear h
  unfold State.sinkAll
  (try dsimp -proj only)
  repeat' (with_reducible first
    | assumption
    | apply NoneReleased.refl
    | apply State.forChans_norel
    | (apply State.modCtl_norel; rotate_left; (intro c; rfl))
    | intro _
    | split)

theorem State.warmClear_norel {s₀ s : State} (h : NoneReleased s₀ s) : NoneReleased s₀ (State.warmClear s) := by
  refine h.comp ?_
  have h1 : NoneReleased s ((s.sinkAll.forChans fun n s => s.warmChan n).endSessions) :=
    State.endSessions_norel (State.forChans_norel (State.sinkAll_norel (NoneReleased.refl _)) fun n s => State.warmChan_norel (NoneReleased.refl _))
  have e : (State.warmClear s).ctl = ((s.sinkAll.forChans fun n s => s.warmChan n).endSessions).ctl := by unfold State.warmClear; rfl
  intro c hc
  refine h1 c ?_
  simpa only [State.ch, e] using hc

theorem State.setDev_norel {s₀ : State} {s : State} {d : DevState} (h : NoneReleased s₀ s) : NoneReleased s₀ (State.setDev s d) :=
  h.comp (NoneReleased.of_frame (State.setDev_frame (Frame.refl _ _) (Field.sub_refl _)) (by decide))

theorem State.warmInto_norel {s₀ : State} {s : State} {cause : Option Nat} {d : DevState} (h : NoneReleased s₀ s) : NoneReleased s₀ (State.warmInto s cause d) := by
  refine h.comp ?_
  clear h
  unfold State.warmInto
  (try dsimp -proj only)
  repeat' (with_reducible first
    | assumption
    | apply NoneReleased.refl
    | apply State.warmClear_norel
    | apply State.setDev_norel
    | intro _
    | split
    | (refine NoneReleased.comp ?_ (NoneReleased.of_frame (Frame.put_dev (fs := [.dev]) (Frame.refl _ _) (by decide)) (by decide))))

theorem State.warmReset_norel {s₀ : State} {s : State} {cause : Option Nat} (h : NoneReleased s₀ s) : NoneReleased s₀ (State.warmReset s cause) := by
  refine h.comp ?_
  clear h
  unfold State.warmReset
  (try dsimp -proj only)
  repeat' (with_reducible first
    | assumption
    | apply NoneReleased.refl
    | apply State.warmInto_norel
    | intro _
    | split)

theorem State.assertFail_norel {s₀ : State} {s : State} (h : NoneReleased s₀ s) : NoneReleased s₀ (State.assertFail s) :=
  h.comp (NoneReleased.of_frame (State.assertFail_frame (Frame.refl _ _) (Field.sub_refl _)) (by decide))

theorem State.keepLines_norel {s₀ : State} {s : State} (h : NoneReleased s₀ s) : NoneReleased s₀ (State.keepLines s) :=
  h.comp (NoneReleased.of_frame (State.keepLines_frame (Frame.refl _ _) (Field.sub_refl _)) (by decide))

theorem State.deviceHoldAll_norel {s₀ : State} {s : State} (h : NoneReleased s₀ s) : NoneReleased s₀ (State.deviceHoldAll s) := by
  refine h.comp ?_
  clear h
  unfold State.deviceHoldAll
  (try dsimp -proj only)
  repeat' (with_reducible first
    | assumption
    | apply NoneReleased.refl
    | apply State.hold_norel
    | apply State.forChans_norel
    | intro _
    | split)

theorem State.enterSafeHold_norel {s₀ : State} {s : State} (h : NoneReleased s₀ s) : NoneReleased s₀ (State.enterSafeHold s) := by
  refine h.comp ?_
  clear h
  unfold State.enterSafeHold
  (try dsimp -proj only)
  repeat' (with_reducible first
    | assumption
    | apply NoneReleased.refl
    | apply State.assertFail_norel
    | apply State.keepLines_norel
    | apply State.deviceHoldAll_norel
    | apply State.setDev_norel
    | intro _
    | split
    | (refine NoneReleased.comp ?_ (NoneReleased.of_frame (Frame.put_plat_dev (fs := [.plat, .dev]) (Frame.refl _ _) (by decide) (by decide)) (by decide))))

theorem State.noteStep_norel {s₀ : State} {s : State} {src : Nat} {step : Nat} (h : NoneReleased s₀ s) : NoneReleased s₀ (State.noteStep s src step) :=
  h.comp (NoneReleased.of_frame (State.noteStep_frame (Frame.refl _ _) (Field.sub_refl _)) (by decide))

theorem State.ccRestart_norel {s₀ : State} {s : State} {cause : Nat} (h : NoneReleased s₀ s) : NoneReleased s₀ (State.ccRestart s cause) :=
  h.comp (NoneReleased.of_frame (State.ccRestart_frame (Frame.refl _ _) (Field.sub_refl _)) (by decide))

theorem State.countInternal_norel {s₀ : State} {s : State} {src : Nat} (h : NoneReleased s₀ s) : NoneReleased s₀ (State.countInternal s src) :=
  h.comp (NoneReleased.of_frame (State.countInternal_frame (Frame.refl _ _) (Field.sub_refl _)) (by decide))

theorem State.enterRecoveryDevice_norel {s₀ : State} {s : State} (h : NoneReleased s₀ s) : NoneReleased s₀ (State.enterRecoveryDevice s) := by
  refine h.comp ?_
  clear h
  unfold State.enterRecoveryDevice
  (try dsimp -proj only)
  repeat' (with_reducible first
    | assumption
    | apply NoneReleased.refl
    | apply State.assertFail_norel
    | apply State.setDev_norel
    | apply State.sinkAll_norel
    | intro _
    | split)

theorem State.logDevice_norel {s₀ : State} {s : State} {kind : Nat} {x : Nat} (h : NoneReleased s₀ s) : NoneReleased s₀ (State.logDevice s kind x) :=
  h.comp (NoneReleased.of_frame (State.logDevice_frame (Frame.refl _ _) (Field.sub_refl _)) (by decide))

theorem State.runFw_norel {s₀ : State} {s : State} {p : PlateId} {proof : Bool} (h : NoneReleased s₀ s) : NoneReleased s₀ (State.runFw s p proof) :=
  h.comp (NoneReleased.of_frame (State.runFw_frame (Frame.refl _ _) (Field.sub_refl _)) (by decide))

theorem State.commitFw_norel {s₀ : State} {s : State} {t1 : PTable} (h : NoneReleased s₀ s) : NoneReleased s₀ (State.commitFw s t1) :=
  h.comp (NoneReleased.of_frame (State.commitFw_frame (Frame.refl _ _) (Field.sub_refl _)) (by decide))

theorem State.revertFw_norel {s₀ : State} {s : State} {cause : Nat} (h : NoneReleased s₀ s) : NoneReleased s₀ (State.revertFw s cause) := by
  refine h.comp ?_
  clear h
  unfold State.revertFw
  (try dsimp -proj only)
  repeat' (with_reducible first
    | assumption
    | apply NoneReleased.refl
    | apply State.ccRestart_norel
    | apply State.warmClear_norel
    | apply State.raise_norel
    | apply State.enterRecoveryDevice_norel
    | apply State.logDevice_norel
    | apply State.runFw_norel
    | apply State.commitFw_norel
    | intro _
    | split
    | (refine NoneReleased.comp ?_ (NoneReleased.of_frame (Frame.put_devfw (fs := [.devfw]) (Frame.refl _ _) (by decide)) (by decide)))
    | (refine NoneReleased.comp ?_ (NoneReleased.of_frame (Frame.put_led (fs := [.led]) (Frame.refl _ _) (by decide)) (by decide))))

theorem State.internalExpiry_norel {s₀ : State} {s : State} {src : Nat} {cluster : Bool} (h : NoneReleased s₀ s) : NoneReleased s₀ (State.internalExpiry s src cluster) := by
  refine h.comp ?_
  clear h
  unfold State.internalExpiry
  (try dsimp -proj only)
  repeat' (with_reducible first
    | assumption
    | apply NoneReleased.refl
    | apply State.warmReset_norel
    | apply State.enterSafeHold_norel
    | apply State.noteStep_norel
    | apply State.ccRestart_norel
    | apply State.countInternal_norel
    | apply State.revertFw_norel
    | intro _
    | split)

theorem State.endOtp_norel {s₀ : State} {s : State} {st : Status} (h : NoneReleased s₀ s) : NoneReleased s₀ (State.endOtp s st) :=
  h.comp (NoneReleased.of_frame (State.endOtp_frame (Frame.refl _ _) (Field.sub_refl _)) (by decide))

theorem State.requestRelease_norel {s₀ : State} {s : State} {n : Fin 128} (h : NoneReleased s₀ s) : NoneReleased s₀ (State.requestRelease s n) := by
  refine h.comp ?_
  clear h
  unfold State.requestRelease
  (try dsimp -proj only)
  repeat' (with_reducible first
    | assumption
    | apply NoneReleased.refl
    | (apply State.modCtl_norel; rotate_left; (intro c; rfl))
    | intro _
    | split
    | (refine NoneReleased.comp ?_ (NoneReleased.of_frame (Frame.put_plat (fs := [.plat]) (Frame.refl _ _) (by decide)) (by decide))))

theorem State.ignoredWrite_norel {s₀ : State} {s : State} {m : Mgr} {off : Nat} (h : NoneReleased s₀ s) : NoneReleased s₀ (State.ignoredWrite s m off) :=
  h.comp (NoneReleased.of_frame (State.ignoredWrite_frame (Frame.refl _ _) (Field.sub_refl _)) (by decide))

theorem State.enterStandby_norel {s₀ : State} {s : State} (h : NoneReleased s₀ s) : NoneReleased s₀ (State.enterStandby s) := by
  refine h.comp ?_
  clear h
  unfold State.enterStandby
  (try dsimp -proj only)
  repeat' (with_reducible first
    | assumption
    | apply NoneReleased.refl
    | apply State.hold_norel
    | apply State.forChans_norel
    | apply State.keepLines_norel
    | apply State.setDev_norel
    | (apply State.modCtl_norel; rotate_left; (intro c; rfl))
    | intro _
    | split
    | (refine NoneReleased.comp ?_ (NoneReleased.of_frame (Frame.put_dev (fs := [.dev]) (Frame.refl _ _) (by decide)) (by decide))))

theorem State.loadAreas_norel {s₀ : State} {s : State} {n : Fin 128} (h : NoneReleased s₀ s) : NoneReleased s₀ (State.loadAreas s n) := by
  refine h.comp ?_
  clear h
  unfold State.loadAreas
  (try dsimp -proj only)
  repeat' (with_reducible first
    | assumption
    | apply NoneReleased.refl
    | (apply State.modCtl_norel; rotate_left; (intro c; rfl))
    | intro _
    | split
    | (refine NoneReleased.comp ?_ (NoneReleased.of_frame (Frame.put_prof (fs := [.prof]) (Frame.refl _ _) (by decide)) (by decide))))

theorem State.restoreKeep_norel {s₀ : State} {s : State} {n : Fin 128} (h : NoneReleased s₀ s) : NoneReleased s₀ (State.restoreKeep s n) :=
  h.comp (NoneReleased.of_frame (State.restoreKeep_frame (Frame.refl _ _) (Field.sub_refl _)) (by decide))

theorem State.deriveIdentity_norel {s₀ : State} {s : State} {n : Fin 128} (h : NoneReleased s₀ s) : NoneReleased s₀ (State.deriveIdentity s n) :=
  h.comp (NoneReleased.of_frame (State.deriveIdentity_frame (Frame.refl _ _) (Field.sub_refl _)) (by decide))

theorem State.becomeReady_norel {s₀ : State} {s : State} {n : Fin 128} (h : NoneReleased s₀ s) : NoneReleased s₀ (State.becomeReady s n) := by
  refine h.comp ?_
  clear h
  unfold State.becomeReady
  (try dsimp -proj only)
  repeat' (with_reducible first
    | assumption
    | apply NoneReleased.refl
    | apply State.requestRelease_norel
    | (apply State.transition_norel; rotate_left; decide)
    | apply State.loadAreas_norel
    | apply State.restoreKeep_norel
    | apply State.answerAll_norel
    | apply State.deriveIdentity_norel
    | intro _
    | split
    | (refine NoneReleased.comp ?_ (NoneReleased.of_frame (Frame.put_plat (fs := [.plat]) (Frame.refl _ _) (by decide)) (by decide))))

theorem State.endOpenSession_norel {s₀ : State} {s : State} {n : Fin 128} {st : Status} (h : NoneReleased s₀ s) : NoneReleased s₀ (State.endOpenSession s n st) :=
  h.comp (NoneReleased.of_frame (State.endOpenSession_frame (Frame.refl _ _) (Field.sub_refl _)) (by decide))

theorem State.applyIdentity_norel {s₀ : State} {s : State} {n : Fin 128} (h : NoneReleased s₀ s) : NoneReleased s₀ (State.applyIdentity s n) :=
  h.comp (NoneReleased.of_frame (State.applyIdentity_frame (Frame.refl _ _) (Field.sub_refl _)) (by decide))

theorem State.applyDeferred_norel {s₀ : State} {s : State} {n : Fin 128} (h : NoneReleased s₀ s) : NoneReleased s₀ (State.applyDeferred s n) :=
  h.comp (NoneReleased.of_frame (State.applyDeferred_frame (Frame.refl _ _) (Field.sub_refl _)) (by decide))

theorem State.reachHold_norel {s₀ : State} {s : State} {n : Fin 128} (h : NoneReleased s₀ s) : NoneReleased s₀ (State.reachHold s n) := by
  refine h.comp ?_
  clear h
  unfold State.reachHold
  (try dsimp -proj only)
  repeat' (with_reducible first
    | assumption
    | apply NoneReleased.refl
    | apply State.forAll_norel
    | apply State.lineStep_norel
    | apply State.endOpenSession_norel
    | apply State.applyDeferred_norel
    | apply State.startTaking_norel
    | apply State.answerAll_norel
    | apply State.powerStep3_norel
    | apply State.modStn_norel
    | apply State.modPort_norel
    | apply State.armStep_norel
    | apply State.leaveUpdate_norel
    | (apply State.modCtl_norel; rotate_left; (intro c; rfl))
    | intro _
    | split)

theorem State.burnishChan_norel {s₀ : State} {s : State} {n : Fin 128} (h : NoneReleased s₀ s) : NoneReleased s₀ (State.burnishChan s n) := by
  refine h.comp ?_
  clear h
  unfold State.burnishChan
  (try dsimp -proj only)
  repeat' (with_reducible first
    | assumption
    | apply NoneReleased.refl
    | apply State.hold_norel
    | apply State.reachHold_norel
    | (apply State.modCtl_norel; rotate_left; (intro c; rfl))
    | apply State.endArming_norel
    | intro _
    | split)

theorem State.burnishKeys_norel {s₀ : State} {s : State} (h : NoneReleased s₀ s) : NoneReleased s₀ (State.burnishKeys s) :=
  h.comp (NoneReleased.of_frame (State.burnishKeys_frame (Frame.refl _ _) (Field.sub_refl _)) (by decide))

theorem State.logKey_norel {s₀ : State} {s : State} {kind : Nat} {info : List Nat} (h : NoneReleased s₀ s) : NoneReleased s₀ (State.logKey s kind info) :=
  h.comp (NoneReleased.of_frame (State.logKey_frame (Frame.refl _ _) (Field.sub_refl _)) (by decide))

theorem State.burnish_norel {s₀ : State} {s : State} {source : Nat} {level : Nat} (h : NoneReleased s₀ s) : NoneReleased s₀ (State.burnish s source level) := by
  refine h.comp ?_
  clear h
  unfold State.burnish
  (try dsimp -proj only)
  repeat' (with_reducible first
    | assumption
    | apply NoneReleased.refl
    | apply State.forChans_norel
    | apply State.burnishChan_norel
    | apply State.endSessions_norel
    | apply State.burnishKeys_norel
    | apply State.logKey_norel
    | apply State.raise_norel
    | apply State.endOtp_norel
    | apply State.dispatchJobs_norel
    | intro _
    | split
    | (refine NoneReleased.comp ?_ (NoneReleased.of_frame (Frame.put_mbx_areas_imm_fca_hash (fs := [.mbx, .areas, .imm, .fca, .hash]) (Frame.refl _ _) (by decide) (by decide) (by decide) (by decide) (by decide)) (by decide)))
    | (refine NoneReleased.comp ?_ (NoneReleased.of_frame (Frame.put_tamper (fs := [.tamper]) (Frame.refl _ _) (by decide)) (by decide))))

theorem State.wakeLink_norel {s₀ : State} {s : State} {m : Mgr} (h : NoneReleased s₀ s) : NoneReleased s₀ (State.wakeLink s m) :=
  h.comp (NoneReleased.of_frame (State.wakeLink_frame (Frame.refl _ _) (Field.sub_refl _)) (by decide))

theorem State.resumeHeld_norel {s₀ : State} {s : State} {n : Fin 128} (h : NoneReleased s₀ s) : NoneReleased s₀ (State.resumeHeld s n) := by
  refine h.comp ?_
  clear h
  unfold State.resumeHeld
  (try dsimp -proj only)
  repeat' (with_reducible first
    | assumption
    | apply NoneReleased.refl
    | apply State.startTaking_norel
    | apply State.takeKept_norel
    | intro _
    | split)

theorem State.resumeStandby_norel {s₀ : State} {s : State} (h : NoneReleased s₀ s) : NoneReleased s₀ (State.resumeStandby s) := by
  refine h.comp ?_
  clear h
  unfold State.resumeStandby
  (try dsimp -proj only)
  repeat' (with_reducible first
    | assumption
    | apply NoneReleased.refl
    | apply State.forChans_norel
    | apply State.resumeHeld_norel
    | apply State.startTaking_norel
    | (apply State.modCtl_norel; rotate_left; (intro c; rfl))
    | intro _
    | split
    | (refine NoneReleased.comp ?_ (NoneReleased.of_frame (Frame.put_plat (fs := [.plat]) (Frame.refl _ _) (by decide)) (by decide))))

theorem State.wake_norel {s₀ : State} {s : State} (h : NoneReleased s₀ s) : NoneReleased s₀ (State.wake s) :=
  h.comp (NoneReleased.of_frame (State.wake_frame (Frame.refl _ _) (Field.sub_refl _)) (by decide))

theorem State.wakeUp_norel {s₀ : State} {s : State} (h : NoneReleased s₀ s) : NoneReleased s₀ (State.wakeUp s) := by
  refine h.comp ?_
  clear h
  unfold State.wakeUp
  (try dsimp -proj only)
  repeat' (with_reducible first
    | assumption
    | apply NoneReleased.refl
    | apply State.wakeLink_norel
    | apply State.resumeStandby_norel
    | apply State.wake_norel
    | intro _
    | split)

theorem State.trip_norel {s₀ : State} {s : State} {sources : List Nat} (h : NoneReleased s₀ s) : NoneReleased s₀ (State.trip s sources) := by
  refine h.comp ?_
  clear h
  unfold State.trip
  (try dsimp -proj only)
  repeat' (with_reducible first
    | assumption
    | apply NoneReleased.refl
    | apply State.forAll_norel
    | apply State.burnish_norel
    | apply State.logKey_norel
    | apply State.raise_norel
    | apply State.wakeUp_norel
    | apply NoneReleased.foldl
    | apply NoneReleased.foldl_fst
    | intro _
    | split
    | (refine NoneReleased.comp ?_ (NoneReleased.of_frame (Frame.put_tamper (fs := [.tamper]) (Frame.refl _ _) (by decide)) (by decide))))

theorem State.noteFault_norel {s₀ : State} {s : State} (h : NoneReleased s₀ s) : NoneReleased s₀ (State.noteFault s) := by
  refine h.comp ?_
  clear h
  unfold State.noteFault
  (try dsimp -proj only)
  repeat' (with_reducible first
    | assumption
    | apply NoneReleased.refl
    | apply State.trip_norel
    | apply State.raise_norel
    | intro _
    | split
    | (refine NoneReleased.comp ?_ (NoneReleased.of_frame (Frame.put_burin (fs := [.burin]) (Frame.refl _ _) (by decide)) (by decide))))

theorem State.coreFault_norel {s₀ : State} {s : State} {k1 : Fin 4} {owner : Owner} {op : Nat} (h : NoneReleased s₀ s) : NoneReleased s₀ (State.coreFault s k1 owner op) := by
  refine h.comp ?_
  clear h
  unfold State.coreFault
  (try dsimp -proj only)
  repeat' (with_reducible first
    | assumption
    | apply NoneReleased.refl
    | apply State.noteFault_norel
    | apply State.coreOut_norel
    | apply State.modCore_norel
    | apply State.raise_norel
    | intro _
    | split)

theorem State.coreFaulted_norel {s₀ : State} {s : State} {k1 : Fin 4} {j : BurinJob} {res : List Byte} (h : NoneReleased s₀ s) : NoneReleased s₀ (State.coreFaulted s k1 j res) := by
  refine h.comp ?_
  clear h
  unfold State.coreFaulted
  (try dsimp -proj only)
  repeat' (with_reducible first
    | assumption
    | apply NoneReleased.refl
    | apply State.coreFault_norel
    | apply State.dispatchJobs_norel
    | apply State.modCore_norel
    | apply State.finishJob_norel
    | intro _
    | split)

theorem State.disableHalf_norel {s₀ : State} {s : State} {m : Mgr} (h : NoneReleased s₀ s) : NoneReleased s₀ (State.disableHalf s m) := by
  refine h.comp ?_
  clear h
  unfold State.disableHalf
  (try dsimp -proj only)
  repeat' (with_reducible first
    | assumption
    | apply NoneReleased.refl
    | apply State.abortBurin_norel
    | apply State.forAll_norel
    | apply State.modHash_norel
    | apply State.abortHash_norel
    | apply State.modRing_norel
    | apply State.endArming_norel
    | intro _
    | split
    | (refine NoneReleased.comp ?_ (NoneReleased.of_frame (Frame.put_awaits (fs := [.awaits]) (Frame.refl _ _) (by decide)) (by decide)))
    | (refine NoneReleased.comp ?_ (NoneReleased.of_frame (Frame.put_dev (fs := [.dev]) (Frame.refl _ _) (by decide)) (by decide))))

theorem State.endLines_norel {s₀ : State} {s : State} (h : NoneReleased s₀ s) : NoneReleased s₀ (State.endLines s) :=
  h.comp (NoneReleased.of_frame (State.endLines_frame (Frame.refl _ _) (Field.sub_refl _)) (by decide))

theorem State.reselect_norel {s₀ : State} {s : State} {n : Fin 128} {w : SelWait} (h : NoneReleased s₀ s) : NoneReleased s₀ (State.reselect s n w) := by
  refine h.comp ?_
  clear h
  unfold State.reselect
  (try dsimp -proj only)
  repeat' (with_reducible first
    | assumption
    | apply NoneReleased.refl
    | apply State.selectFrom_norel
    | intro _
    | split)

theorem State.resume_norel {s₀ : State} {s : State} {n : Fin 128} {out : Option Chk} (h : NoneReleased s₀ s) : NoneReleased s₀ (State.resume s n out) := by
  refine h.comp ?_
  clear h
  unfold State.resume
  (try dsimp -proj only)
  repeat' (with_reducible first
    | assumption
    | apply NoneReleased.refl
    | apply State.armJudge_norel
    | apply State.selNote_norel
    | apply State.reselect_norel
    | apply State.armStep_norel
    | (apply State.modCtl_norel; rotate_left; (intro c; rfl))
    | intro _
    | split)

theorem State.endDiscovery_norel {s₀ : State} {s : State} {f : Fin 64} {r : DiscReport} (h : NoneReleased s₀ s) : NoneReleased s₀ (State.endDiscovery s f r) := by
  refine h.comp ?_
  clear h
  unfold State.endDiscovery
  (try dsimp -proj only)
  repeat' (with_reducible first
    | assumption
    | apply NoneReleased.refl
    | apply State.modFp_norel
    | apply State.endLines_norel
    | apply State.resume_norel
    | apply State.resumeHeld_norel
    | apply State.raise_norel
    | intro _
    | split)

theorem State.leave_norel {s₀ s : State} {n : Fin 128} {st : ChState} {cause : Cause} (h : NoneReleased s₀ s) (hs : st ≠ .running ∧ st ≠ .proof) :
    NoneReleased s₀ (State.leave s n st cause) := by
  refine h.comp ?_
  unfold State.leave
  (try dsimp -proj only)
  repeat' (with_reducible first
    | exact hs
    | apply NoneReleased.refl
    | apply State.answerAll_norel
    | apply State.endArming_norel
    | apply State.stopHost_norel
    | apply State.unbind_norel
    | apply State.rejectProof_norel
    | apply State.transition_norel
    | split)

theorem State.orderQuarantine_norel {s₀ : State} {s : State} {who : Asker} {n : Fin 128} (h : NoneReleased s₀ s) : NoneReleased s₀ (State.orderQuarantine s who n) := by
  refine h.comp ?_
  clear h
  unfold State.orderQuarantine
  (try dsimp -proj only)
  repeat' (with_reducible first
    | assumption
    | apply NoneReleased.refl
    | apply State.answer_norel
    | apply State.endLines_norel
    | (apply State.leave_norel; rotate_left; decide)
    | intro _
    | split)

theorem State.orderReadmit_norel {s₀ : State} {s : State} {who : Asker} {n : Fin 128} (h : NoneReleased s₀ s) : NoneReleased s₀ (State.orderReadmit s who n) := by
  refine h.comp ?_
  clear h
  unfold State.orderReadmit
  (try dsimp -proj only)
  repeat' (with_reducible first
    | assumption
    | apply NoneReleased.refl
    | apply State.hold_norel
    | apply State.answer_norel
    | intro _
    | split)

theorem State.orderHold_norel {s₀ : State} {s : State} {who : Asker} {n : Fin 128} (h : NoneReleased s₀ s) : NoneReleased s₀ (State.orderHold s who n) := by
  refine h.comp ?_
  clear h
  unfold State.orderHold
  (try dsimp -proj only)
  repeat' (with_reducible first
    | assumption
    | apply NoneReleased.refl
    | apply State.hold_norel
    | apply State.endLines_norel
    | apply State.answerAll_norel
    | apply State.answer_norel
    | apply State.wait_norel
    | intro _
    | split)

theorem State.clearConsec_norel {s₀ : State} {s : State} {n : Fin 128} (h : NoneReleased s₀ s) : NoneReleased s₀ (State.clearConsec s n) :=
  h.comp (NoneReleased.of_frame (State.clearConsec_frame (Frame.refl _ _) (Field.sub_refl _)) (by decide))

theorem State.releaseSafe_norel {s₀ : State} {s : State} {n : Fin 128} (h : NoneReleased s₀ s) : NoneReleased s₀ (State.releaseSafe s n) := by
  refine h.comp ?_
  clear h
  unfold State.releaseSafe
  (try dsimp -proj only)
  repeat' (with_reducible first
    | assumption
    | apply NoneReleased.refl
    | apply State.startTaking_norel
    | apply State.clearConsec_norel
    | intro _
    | split
    | (refine NoneReleased.comp ?_ (NoneReleased.of_frame (Frame.put_led (fs := [.led]) (Frame.refl _ _) (by decide)) (by decide))))

theorem State.orderRelease_norel {s₀ : State} {s : State} {who : Asker} {n : Fin 128} (h : NoneReleased s₀ s) : NoneReleased s₀ (State.orderRelease s who n) := by
  refine h.comp ?_
  clear h
  unfold State.orderRelease
  (try dsimp -proj only)
  repeat' (with_reducible first
    | assumption
    | apply NoneReleased.refl
    | apply State.startTaking_norel
    | apply State.answer_norel
    | apply State.releaseSafe_norel
    | apply State.wait_norel
    | intro _
    | split)

theorem State.orderRestart_norel {s₀ : State} {s : State} {who : Asker} {n : Fin 128} (h : NoneReleased s₀ s) : NoneReleased s₀ (State.orderRestart s who n) := by
  refine h.comp ?_
  clear h
  unfold State.orderRestart
  (try dsimp -proj only)
  repeat' (with_reducible first
    | assumption
    | apply NoneReleased.refl
    | apply State.restartSeq_norel
    | apply State.answer_norel
    | apply State.wait_norel
    | intro _
    | split)

theorem State.order_norel {s₀ : State} {s : State} {who : Asker} {m : Mgr} {n : Fin 128} {o : Order} {rival : Option Order} {deviceHold : Bool} (h : NoneReleased s₀ s) : NoneReleased s₀ (State.order s who m n o rival deviceHold) := by
  refine h.comp ?_
  clear h
  unfold State.order
  (try dsimp -proj only)
  repeat' (with_reducible first
    | assumption
    | apply NoneReleased.refl
    | apply State.orderQuarantine_norel
    | apply State.orderReadmit_norel
    | apply State.orderHold_norel
    | apply State.orderRelease_norel
    | apply State.answer_norel
    | apply State.orderRestart_norel
    | intro _
    | split)

theorem State.coldReset_norel {s₀ s : State} {cause : Nat} (h : NoneReleased s₀ s) : NoneReleased s₀ (State.coldReset s cause) := by
  refine h.comp (NoneReleased.of_none fun n => ?_)
  simp [State.ch, State.coldReset, vget, Ctl.released, Ctl.reset]

theorem State.regOrder_norel {s₀ : State} {s : State} {m : Mgr} {n : Fin 128} {o : Order} {rival : Option Order} {deviceHold : Bool} (h : NoneReleased s₀ s) : NoneReleased s₀ (State.regOrder s m n o rival deviceHold) := by
  refine h.comp ?_
  clear h
  unfold State.regOrder
  (try dsimp -proj only)
  repeat' (with_reducible first
    | assumption
    | apply NoneReleased.refl
    | apply State.order_norel
    | (apply State.modCtl_norel; rotate_left; (intro c; rfl))
    | apply State.wait_norel
    | intro _
    | split)

theorem State.acceptFw_norel {s₀ : State} {s : State} {by_ : Nat} (h : NoneReleased s₀ s) : NoneReleased s₀ (State.acceptFw s by_) :=
  h.comp (NoneReleased.of_frame (State.acceptFw_frame (Frame.refl _ _) (Field.sub_refl _)) (by decide))

theorem State.damage_norel {s₀ : State} {s : State} {i : Fin 256} {leaf : Nat} (h : NoneReleased s₀ s) : NoneReleased s₀ (State.damage s i leaf) :=
  h.comp (NoneReleased.of_frame (State.damage_frame (Frame.refl _ _) (Field.sub_refl _)) (by decide))

theorem State.takeRebuilt_norel {s₀ : State} {s : State} {e : Impression} {ev : TakeEv} (h : NoneReleased s₀ s) : NoneReleased s₀ (State.takeRebuilt s e ev) :=
  h.comp (NoneReleased.of_frame (State.takeRebuilt_frame (Frame.refl _ _) (Field.sub_refl _)) (by decide))

theorem State.releaseLost_norel {s₀ : State} {s : State} {i : Fin 256} (h : NoneReleased s₀ s) : NoneReleased s₀ (State.releaseLost s i) := by
  refine h.comp ?_
  clear h
  unfold State.releaseLost
  (try dsimp -proj only)
  repeat' (with_reducible first
    | assumption
    | apply NoneReleased.refl
    | apply State.startTaking_norel
    | apply State.forChans_norel
    | intro _
    | split)

theorem State.lanesCorrected_norel {s₀ : State} {s : State} {ev : TakeEv} (h : NoneReleased s₀ s) : NoneReleased s₀ (State.lanesCorrected s ev) :=
  h.comp (NoneReleased.of_frame (State.lanesCorrected_frame (Frame.refl _ _) (Field.sub_refl _)) (by decide))

theorem State.switchCopy_norel {s₀ : State} {s : State} {i : Fin 256} {ev : TakeEv} (h : NoneReleased s₀ s) : NoneReleased s₀ (State.switchCopy s i ev) := by
  refine h.comp ?_
  clear h
  unfold State.switchCopy
  (try dsimp -proj only)
  repeat' (with_reducible first
    | assumption
    | apply NoneReleased.refl
    | apply State.forAll_norel
    | apply State.dropLines_norel
    | apply State.damage_norel
    | apply State.allocExtents_norel
    | apply State.log_norel
    | apply State.takeRebuilt_norel
    | apply State.releaseLost_norel
    | apply State.lanesCorrected_norel
    | apply State.modDir_norel
    | intro _
    | split
    | (refine NoneReleased.comp ?_ (NoneReleased.of_frame (Frame.put_imm (fs := [.imm]) (Frame.refl _ _) (by decide)) (by decide))))

theorem State.noteKeepLost_norel {s₀ : State} {s : State} (h : NoneReleased s₀ s) : NoneReleased s₀ (State.noteKeepLost s) :=
  h.comp (NoneReleased.of_frame (State.noteKeepLost_frame (Frame.refl _ _) (Field.sub_refl _)) (by decide))

theorem State.startPorts_norel {s₀ : State} {s : State} (h : NoneReleased s₀ s) : NoneReleased s₀ (State.startPorts s) :=
  h.comp (NoneReleased.of_frame (State.startPorts_frame (Frame.refl _ _) (Field.sub_refl _)) (by decide))

theorem State.noteBrownout_norel {s₀ : State} {s : State} (h : NoneReleased s₀ s) : NoneReleased s₀ (State.noteBrownout s) :=
  h.comp (NoneReleased.of_frame (State.noteBrownout_frame (Frame.refl _ _) (Field.sub_refl _)) (by decide))

theorem State.startImage_norel {s₀ : State} {s : State} {trained : Byte} (h : NoneReleased s₀ s) : NoneReleased s₀ (State.startImage s trained) :=
  h.comp (NoneReleased.of_frame (State.startImage_frame (Frame.refl _ _) (Field.sub_refl _)) (by decide))

theorem State.startVault_norel {s₀ : State} {s : State} {bad : List Nat} (h : NoneReleased s₀ s) : NoneReleased s₀ (State.startVault s bad) :=
  h.comp (NoneReleased.of_frame (State.startVault_frame (Frame.refl _ _) (Field.sub_refl _)) (by decide))

theorem State.startChan_norel {s₀ : State} {s : State} {n : Fin 128} (h : NoneReleased s₀ s) : NoneReleased s₀ (State.startChan s n) := by
  refine h.comp ?_
  clear h
  unfold State.startChan
  (try dsimp -proj only)
  repeat' (with_reducible first
    | assumption
    | apply NoneReleased.refl
    | apply State.hold_norel
    | (apply State.transition_norel; rotate_left; decide)
    | intro _
    | split)

theorem State.startPolicy_norel {s₀ : State} {s : State} (h : NoneReleased s₀ s) : NoneReleased s₀ (State.startPolicy s) :=
  h.comp (NoneReleased.of_frame (State.startPolicy_frame (Frame.refl _ _) (Field.sub_refl _)) (by decide))

theorem State.mountPool_norel {s₀ : State} {s : State} {rep : StartReport} (h : NoneReleased s₀ s) : NoneReleased s₀ (State.mountPool s rep) :=
  h.comp (NoneReleased.of_frame (State.mountPool_frame (Frame.refl _ _) (Field.sub_refl _)) (by decide))

theorem State.bringUp_norel {s₀ : State} {s : State} {rep : StartReport} (h : NoneReleased s₀ s) : NoneReleased s₀ (State.bringUp s rep) := by
  refine h.comp ?_
  clear h
  unfold State.bringUp
  (try dsimp -proj only)
  repeat' (with_reducible first
    | assumption
    | apply NoneReleased.refl
    | apply State.noteKeepLost_norel
    | apply State.startPorts_norel
    | apply State.forChans_norel
    | apply State.noteBrownout_norel
    | apply State.startImage_norel
    | apply State.completeAdvances_norel
    | apply State.startVault_norel
    | apply State.startChan_norel
    | apply State.startPolicy_norel
    | apply State.mountPool_norel
    | intro _
    | split)

theorem State.restampJobs_norel {s₀ : State} {s : State} (h : NoneReleased s₀ s) : NoneReleased s₀ (State.restampJobs s) :=
  h.comp (NoneReleased.of_frame (State.restampJobs_frame (Frame.refl _ _) (Field.sub_refl _)) (by decide))

theorem State.lockIdentity_norel {s₀ : State} {s : State} (h : NoneReleased s₀ s) : NoneReleased s₀ (State.lockIdentity s) :=
  h.comp (NoneReleased.of_frame (State.lockIdentity_frame (Frame.refl _ _) (Field.sub_refl _)) (by decide))

theorem State.entropyTest_norel {s₀ : State} {s : State} {pass : Bool} (h : NoneReleased s₀ s) : NoneReleased s₀ (State.entropyTest s pass) :=
  h.comp (NoneReleased.of_frame (State.entropyTest_frame (Frame.refl _ _) (Field.sub_refl _)) (by decide))

theorem State.rerun_norel {s₀ : State} {s : State} {a : Await} (h : NoneReleased s₀ s) : NoneReleased s₀ (State.rerun s a) := by
  refine h.comp ?_
  clear h
  unfold State.rerun
  (try dsimp -proj only)
  repeat' (with_reducible first
    | assumption
    | apply NoneReleased.refl
    | apply State.order_norel
    | apply State.endArming_norel
    | apply State.beginArm_norel
    | intro _
    | split
    | (refine NoneReleased.comp ?_ (NoneReleased.of_frame (Frame.put_awaits (fs := [.awaits]) (Frame.refl _ _) (by decide)) (by decide))))

theorem State.rerunAll_norel {s₀ : State} {s : State} (h : NoneReleased s₀ s) : NoneReleased s₀ (State.rerunAll s) := by
  refine h.comp ?_
  clear h
  unfold State.rerunAll
  (try dsimp -proj only)
  repeat' (with_reducible first
    | assumption
    | apply NoneReleased.refl
    | apply State.forAll_norel
    | apply State.rerun_norel
    | intro _
    | split
    | (refine NoneReleased.comp ?_ (NoneReleased.of_frame (Frame.put_awaits (fs := [.awaits]) (Frame.refl _ _) (by decide)) (by decide))))

theorem State.startMwd_norel {s₀ : State} {s : State} {m : Mgr} (h : NoneReleased s₀ s) : NoneReleased s₀ (State.startMwd s m) :=
  h.comp (NoneReleased.of_frame (State.startMwd_frame (Frame.refl _ _) (Field.sub_refl _)) (by decide))

theorem State.startRanked_norel {s₀ : State} {s : State} {n : Fin 128} (h : NoneReleased s₀ s) : NoneReleased s₀ (State.startRanked s n) := by
  refine h.comp ?_
  clear h
  unfold State.startRanked
  (try dsimp -proj only)
  repeat' (with_reducible first
    | assumption
    | apply NoneReleased.refl
    | apply State.startTaking_norel
    | (apply State.modCtl_norel; rotate_left; (intro c; rfl))
    | intro _
    | split)

theorem State.enterRunning_norel {s₀ : State} {s : State} (h : NoneReleased s₀ s) : NoneReleased s₀ (State.enterRunning s) := by
  refine h.comp ?_
  clear h
  unfold State.enterRunning
  (try dsimp -proj only)
  repeat' (with_reducible first
    | assumption
    | apply NoneReleased.refl
    | apply State.forChans_norel
    | apply State.restampJobs_norel
    | apply State.startMwd_norel
    | apply State.enterStandby_norel
    | apply State.setDev_norel
    | apply State.dispatchJobs_norel
    | apply State.rerunAll_norel
    | apply State.startRanked_norel
    | intro _
    | split
    | (refine NoneReleased.comp ?_ (NoneReleased.of_frame (Frame.put_devfw_dev (fs := [.devfw, .dev]) (Frame.refl _ _) (by decide) (by decide)) (by decide))))

theorem State.runStart_norel {s₀ : State} {s : State} {rep : StartReport} (h : NoneReleased s₀ s) : NoneReleased s₀ (State.runStart s rep) := by
  refine h.comp ?_
  clear h
  unfold State.runStart
  (try dsimp -proj only)
  repeat' (with_reducible first
    | assumption
    | apply NoneReleased.refl
    | apply State.bringUp_norel
    | apply State.restampJobs_norel
    | apply State.lockIdentity_norel
    | apply State.dispatchJobs_norel
    | apply State.entropyTest_norel
    | apply State.rerunAll_norel
    | apply State.enterSafeHold_norel
    | apply State.enterRunning_norel
    | intro _
    | split)

theorem State.putDevCfg_norel {s₀ : State} {s : State} {d : DevCfg} (h : NoneReleased s₀ s) : NoneReleased s₀ (State.putDevCfg s d) :=
  h.comp (NoneReleased.of_frame (State.putDevCfg_frame (Frame.refl _ _) (Field.sub_refl _)) (by decide))

theorem State.applyCalibration_norel {s₀ : State} {s : State} {old : State} (h : NoneReleased s₀ s) : NoneReleased s₀ (State.applyCalibration s old) :=
  h.comp (NoneReleased.of_frame (State.applyCalibration_frame (Frame.refl _ _) (Field.sub_refl _)) (by decide))

theorem State.enterStart_norel {s₀ : State} {s : State} (h : NoneReleased s₀ s) : NoneReleased s₀ (State.enterStart s) :=
  h.comp (NoneReleased.of_frame (State.enterStart_frame (Frame.refl _ _) (Field.sub_refl _)) (by decide))

theorem State.fwReadTable_norel {s₀ : State} {s : State} (h : NoneReleased s₀ s) : NoneReleased s₀ (State.fwReadTable s) :=
  h.comp (NoneReleased.of_frame (State.fwReadTable_frame (Frame.refl _ _) (Field.sub_refl _)) (by decide))

theorem State.checkLedgerKey_norel {s₀ : State} {s : State} (h : NoneReleased s₀ s) : NoneReleased s₀ (State.checkLedgerKey s) :=
  h.comp (NoneReleased.of_frame (State.checkLedgerKey_frame (Frame.refl _ _) (Field.sub_refl _)) (by decide))

theorem State.deriveDevice_norel {s₀ : State} {s : State} (h : NoneReleased s₀ s) : NoneReleased s₀ (State.deriveDevice s) :=
  h.comp (NoneReleased.of_frame (State.deriveDevice_frame (Frame.refl _ _) (Field.sub_refl _)) (by decide))

theorem State.fwSelect_norel {s₀ : State} {s : State} (h : NoneReleased s₀ s) : NoneReleased s₀ (State.fwSelect s).1 :=
  h.comp (NoneReleased.of_frame (State.fwSelect_frame (Frame.refl _ _) (Field.sub_refl _)) (by decide))

theorem State.runRom_norel {s₀ : State} {s : State} (h : NoneReleased s₀ s) : NoneReleased s₀ (State.runRom s) := by
  refine h.comp ?_
  clear h
  unfold State.runRom
  (try dsimp -proj only)
  repeat' (with_reducible first
    | assumption
    | apply NoneReleased.refl
    | apply State.enterRecoveryDevice_norel
    | apply State.fwReadTable_norel
    | apply State.checkLedgerKey_norel
    | apply State.deriveDevice_norel
    | apply State.setDev_norel
    | apply State.fwSelect_norel
    | intro _
    | split)

theorem State.romThenStart_norel {s₀ : State} {s : State} {rep : StartReport} (h : NoneReleased s₀ s) : NoneReleased s₀ (State.romThenStart s rep) := by
  refine h.comp ?_
  clear h
  unfold State.romThenStart
  (try dsimp -proj only)
  repeat' (with_reducible first
    | assumption
    | apply NoneReleased.refl
    | apply State.runStart_norel
    | apply State.enterStart_norel
    | apply State.runRom_norel
    | intro _
    | split)

theorem State.shadowStep_norel {s₀ : State} {s : State} (h : NoneReleased s₀ s) : NoneReleased s₀ (State.shadowStep s) :=
  h.comp (NoneReleased.of_frame (State.shadowStep_frame (Frame.refl _ _) (Field.sub_refl _)) (by decide))

theorem State.runShadow_norel {s₀ : State} {s : State} {samples : BitVec 10} (h : NoneReleased s₀ s) : NoneReleased s₀ (State.runShadow s samples) := by
  refine h.comp ?_
  clear h
  unfold State.runShadow
  (try dsimp -proj only)
  repeat' (with_reducible first
    | assumption
    | apply NoneReleased.refl
    | apply State.setDev_norel
    | apply State.trip_norel
    | apply State.shadowStep_norel
    | intro _
    | split)

theorem State.start_norel {s₀ : State} {s : State} {rep : StartReport} (h : NoneReleased s₀ s) : NoneReleased s₀ (State.start s rep) := by
  refine h.comp ?_
  clear h
  unfold State.start
  (try dsimp -proj only)
  repeat' (with_reducible first
    | assumption
    | apply NoneReleased.refl
    | apply State.romThenStart_norel
    | apply State.runShadow_norel
    | apply State.runStart_norel
    | intro _
    | split)

theorem State.wakeIfLost_norel {s₀ : State} {s : State} {m : Mgr} {was : Bool} (h : NoneReleased s₀ s) : NoneReleased s₀ (State.wakeIfLost s m was) := by
  refine h.comp ?_
  clear h
  unfold State.wakeIfLost
  (try dsimp -proj only)
  repeat' (with_reducible first
    | assumption
    | apply NoneReleased.refl
    | apply State.wakeUp_norel
    | intro _
    | split)

theorem State.getLogAns_norel {s₀ : State} {s : State} {c : Caller} {page : Byte} {sel : Half} {offset : Nat} {len : Nat} (h : NoneReleased s₀ s) : NoneReleased s₀ (State.getLogAns s c page sel offset len).1 :=
  h.comp (NoneReleased.of_frame (State.getLogAns_frame (Frame.refl _ _) (Field.sub_refl _)) (by decide))

theorem State.internalJob_norel {s₀ : State} {s : State} {op : Nat} {time : Nat} {faults : Nat} (h : NoneReleased s₀ s) : NoneReleased s₀ (State.internalJob s op time faults).2 := by
  refine h.comp ?_
  clear h
  unfold State.internalJob
  (try dsimp -proj only)
  repeat' (with_reducible first
    | assumption
    | apply NoneReleased.refl
    | apply State.internalRun_norel
    | apply State.dispatchJobs_norel
    | apply State.coreFault_norel
    | intro _
    | split)

theorem State.mctpAnswer_norel {s₀ : State} {s : State} {ep : Fin 8} {cid : Half} {a : Answer} (h : NoneReleased s₀ s) : NoneReleased s₀ (State.mctpAnswer s ep cid a) :=
  h.comp (NoneReleased.of_frame (State.mctpAnswer_frame (Frame.refl _ _) (Field.sub_refl _)) (by decide))

theorem State.mctpNegotiate_norel {s₀ : State} {s : State} {ep : Fin 8} {e : Entry} (h : NoneReleased s₀ s) : NoneReleased s₀ (State.mctpNegotiate s ep e) :=
  h.comp (NoneReleased.of_frame (State.mctpNegotiate_frame (Frame.refl _ _) (Field.sub_refl _)) (by decide))

theorem State.readTrace_norel {s₀ : State} {s : State} {mark : Option Mgr} {fromSeq : Nat} {advance : Bool} {header : Bool} {len : Nat} (h : NoneReleased s₀ s) : NoneReleased s₀ (State.readTrace s mark fromSeq advance header len).1 :=
  h.comp (NoneReleased.of_frame (State.readTrace_frame (Frame.refl _ _) (Field.sub_refl _)) (by decide))

theorem State.mctpOrder_norel {s₀ : State} {s : State} {ep : Fin 8} {e : Entry} {m : Mgr} {o : Order} (h : NoneReleased s₀ s) : NoneReleased s₀ (State.mctpOrder s ep e m o) := by
  refine h.comp ?_
  clear h
  unfold State.mctpOrder
  (try dsimp -proj only)
  repeat' (with_reducible first
    | assumption
    | apply NoneReleased.refl
    | apply State.order_norel
    | apply State.mctpAnswer_norel
    | intro _
    | split)

theorem State.mctpQuote_norel {s₀ : State} {s : State} {ep : Fin 8} {cid : Half} {raw : List Byte} (h : NoneReleased s₀ s) : NoneReleased s₀ (State.mctpQuote s ep cid raw) :=
  h.comp (NoneReleased.of_frame (State.mctpQuote_frame (Frame.refl _ _) (Field.sub_refl _)) (by decide))

theorem State.mctpExecute_norel {s₀ : State} {s : State} {ep : Fin 8} {e : Entry} (h : NoneReleased s₀ s) : NoneReleased s₀ (State.mctpExecute s ep e) := by
  refine h.comp ?_
  clear h
  unfold State.mctpExecute
  (try dsimp -proj only)
  repeat' (with_reducible first
    | assumption
    | apply NoneReleased.refl
    | apply State.getLogAns_norel
    | apply State.mctpAnswer_norel
    | apply State.mctpNegotiate_norel
    | apply State.readTrace_norel
    | apply State.mctpOrder_norel
    | apply State.mctpQuote_norel
    | intro _
    | split)

theorem State.applyProfile_norel {s₀ s : State} {n : Fin 128} {q : ChanCfg} (h : NoneReleased s₀ s) : NoneReleased s₀ (State.applyProfile s n q) := by
  refine h.comp ?_
  clear h
  unfold State.applyProfile
  extract_lets p was p1 p2 s1 s2 s3
  have h1 : NoneReleased s s1 :=
    (NoneReleased.refl s).comp (NoneReleased.of_frame (Frame.put_prof_profCfg (fs := [.prof, .profCfg]) (Frame.refl _ _) (by decide) (by decide)) (by decide))  
  clear_value s1 was
  have h2 : NoneReleased s s2 := by
    simp only [s2]; split
    · exact h1
    · exact State.applyIdentity_norel h1
  clear_value s2
  have h3 : NoneReleased s s3 := by
    simp only [s3]
    repeat' (with_reducible first
      | exact h2
      | apply State.startDiscovery_norel
      | decide
      | split)
  clear_value s3
  repeat' (with_reducible first
    | exact h3
    | apply State.hold_norel
    | (apply State.leave_norel; rotate_left; decide)
    | decide
    | split)

theorem State.applyConfig_norel {s₀ : State} {s : State} {img : List Byte} (h : NoneReleased s₀ s) : NoneReleased s₀ (State.applyConfig s img) := by
  refine h.comp ?_
  clear h
  unfold State.applyConfig
  (try dsimp -proj only)
  repeat' (with_reducible first
    | assumption
    | apply NoneReleased.refl
    | apply State.putDevCfg_norel
    | apply State.forChans_norel
    | apply State.applyCalibration_norel
    | apply State.applyProfile_norel
    | intro _
    | split
    | (refine NoneReleased.comp ?_ (NoneReleased.of_frame (Frame.put_twl (fs := [.twl]) (Frame.refl _ _) (by decide)) (by decide))))

theorem State.commitConfig_norel {s₀ : State} {s : State} {m : Mgr} {img : List Byte} (h : NoneReleased s₀ s) : NoneReleased s₀ (State.commitConfig s m img) := by
  refine h.comp ?_
  clear h
  unfold State.commitConfig
  (try dsimp -proj only)
  repeat' (with_reducible first
    | assumption
    | apply NoneReleased.refl
    | apply State.committed_norel
    | apply State.applyConfig_norel
    | apply State.log_norel
    | apply State.raise_norel
    | intro _
    | split
    | (refine NoneReleased.comp ?_ (NoneReleased.of_frame (Frame.put_cfgImg_dev (fs := [.cfgImg, .dev]) (Frame.refl _ _) (by decide) (by decide)) (by decide))))

theorem State.tmpRearm_norel {s₀ : State} {s : State} {m : Mgr} (h : NoneReleased s₀ s) : NoneReleased s₀ (State.tmpRearm s m) := by
  refine h.comp ?_
  clear h
  unfold State.tmpRearm
  (try dsimp -proj only)
  repeat' (with_reducible first
    | assumption
    | apply NoneReleased.refl
    | apply State.warmReset_norel
    | apply State.ignoredWrite_norel
    | intro _
    | split)

theorem State.resumeEntry_norel {s₀ : State} {s : State} {i : Nat} {out : Option Chk} (h : NoneReleased s₀ s) : NoneReleased s₀ (State.resumeEntry s i out) := by
  refine h.comp ?_
  clear h
  unfold State.resumeEntry
  (try dsimp -proj only)
  repeat' (with_reducible first
    | assumption
    | apply NoneReleased.refl
    | apply State.forChans_norel
    | apply State.resume_norel
    | intro _
    | split)

theorem State.takeFails_norel {s₀ : State} {s : State} {i : Fin 256} {st : Status} {leaf : Nat} (h : NoneReleased s₀ s) : NoneReleased s₀ (State.takeFails s i st leaf) := by
  refine h.comp ?_
  clear h
  unfold State.takeFails
  (try dsimp -proj only)
  repeat' (with_reducible first
    | assumption
    | apply NoneReleased.refl
    | apply State.log_norel
    | apply State.freeEntry_norel
    | apply State.resumeEntry_norel
    | intro _
    | split)

theorem State.holdBound_norel {s₀ : State} {s : State} {i : Fin 256} (h : NoneReleased s₀ s) : NoneReleased s₀ (State.holdBound s i) := by
  refine h.comp ?_
  clear h
  unfold State.holdBound
  (try dsimp -proj only)
  repeat' (with_reducible first
    | assumption
    | apply NoneReleased.refl
    | apply State.hold_norel
    | apply State.forChans_norel
    | apply State.raise_norel
    | intro _
    | split)

theorem State.retakeTaking_norel {s₀ : State} {s : State} {i : Fin 256} (h : NoneReleased s₀ s) : NoneReleased s₀ (State.retakeTaking s i) := by
  refine h.comp ?_
  clear h
  unfold State.retakeTaking
  (try dsimp -proj only)
  repeat' (with_reducible first
    | assumption
    | apply NoneReleased.refl
    | apply State.takeFails_norel
    | apply State.allocExtents_norel
    | apply State.modDir_norel
    | intro _
    | split)

theorem State.flushOne_norel {s₀ : State} {s : State} {w : LedgerWork} (h : NoneReleased s₀ s) : NoneReleased s₀ (State.flushOne s w) := by
  refine h.comp ?_
  clear h
  unfold State.flushOne
  (try dsimp -proj only)
  repeat' (with_reducible first
    | assumption
    | apply NoneReleased.refl
    | apply State.modPlt_norel
    | apply State.acceptCommit_norel
    | apply State.startTaking_norel
    | apply State.plateBad_norel
    | apply State.clearConsec_norel
    | apply State.modWdg_norel
    | apply State.acceptFw_norel
    | apply State.commitPlates_norel
    | apply State.commitFw_norel
    | intro _
    | split
    | (refine NoneReleased.comp ?_ (NoneReleased.of_frame (Frame.put_led (fs := [.led]) (Frame.refl _ _) (by decide)) (by decide))))

theorem State.flushLedger_norel {s₀ : State} {s : State} (h : NoneReleased s₀ s) : NoneReleased s₀ (State.flushLedger s) := by
  refine h.comp ?_
  clear h
  unfold State.flushLedger
  (try dsimp -proj only)
  repeat' (with_reducible first
    | assumption
    | apply NoneReleased.refl
    | apply State.forAll_norel
    | apply State.flushOne_norel
    | intro _
    | split
    | (refine NoneReleased.comp ?_ (NoneReleased.of_frame (Frame.put_led (fs := [.led]) (Frame.refl _ _) (by decide)) (by decide))))

theorem State.settleAbsent_norel {s₀ : State} {s : State} {n : Fin 128} (h : NoneReleased s₀ s) : NoneReleased s₀ (State.settleAbsent s n) := by
  refine h.comp ?_
  clear h
  unfold State.settleAbsent
  (try dsimp -proj only)
  repeat' (with_reducible first
    | assumption
    | apply NoneReleased.refl
    | apply State.modPlt_norel
    | apply State.modWdg_norel
    | apply State.revert_norel
    | apply State.takeAction_norel
    | apply State.takeKept_norel
    | intro _
    | split)

theorem State.settleAll_norel {s₀ : State} {s : State} (h : NoneReleased s₀ s) : NoneReleased s₀ (State.settleAll s) := by
  refine h.comp ?_
  clear h
  unfold State.settleAll
  (try dsimp -proj only)
  repeat' (with_reducible first
    | assumption
    | apply NoneReleased.refl
    | apply State.settleAbsent_norel
    | apply State.forChans_norel
    | intro _
    | split)

theorem State.waitedOrders_norel {s₀ : State} {s : State} (h : NoneReleased s₀ s) : NoneReleased s₀ (State.waitedOrders s) := by
  refine h.comp ?_
  clear h
  unfold State.waitedOrders
  (try dsimp -proj only)
  repeat' (with_reducible first
    | assumption
    | apply NoneReleased.refl
    | apply State.order_norel
    | apply State.forAll_norel
    | intro _
    | split
    | (refine NoneReleased.comp ?_ (NoneReleased.of_frame (Frame.put_awaits (fs := [.awaits]) (Frame.refl _ _) (by decide)) (by decide))))

theorem State.latchedAct_norel {s₀ : State} {s : State} {n : Fin 128} {x : Latched} {x3 : LatchedAct} (h : NoneReleased s₀ s) : NoneReleased s₀ (State.latchedAct s n x x3).1 := by
  refine h.comp ?_
  clear h
  unfold State.latchedAct
  (try dsimp -proj only)
  repeat' (with_reducible first
    | assumption
    | apply NoneReleased.refl
    | apply State.updCommitNow_norel
    | apply State.updOpenAt_norel
    | apply State.postMessageAt_norel
    | apply State.proofAcceptAt_norel
    | apply State.updAbortNow_norel
    | intro _
    | split)

theorem State.processLatched_norel {s₀ : State} {s : State} {n : Fin 128} {x : Latched} (h : NoneReleased s₀ s) : NoneReleased s₀ (State.processLatched s n x) := by
  refine h.comp ?_
  clear h
  unfold State.processLatched
  (try dsimp -proj only)
  repeat' (with_reducible first
    | assumption
    | apply NoneReleased.refl
    | apply State.latchedAct_norel
    | apply State.mbxIgnored_norel
    | apply NoneReleased.foldl
    | apply NoneReleased.foldl_fst
    | intro _
    | split)

theorem State.resumeCommits_norel {s₀ : State} {s : State} (h : NoneReleased s₀ s) : NoneReleased s₀ (State.resumeCommits s) := by
  refine h.comp ?_
  clear h
  unfold State.resumeCommits
  (try dsimp -proj only)
  repeat' (with_reducible first
    | assumption
    | apply NoneReleased.refl
    | apply State.resumeEntry_norel
    | intro _
    | split)

theorem State.fwCommit_norel {s₀ : State} {s : State} {activate : Bool} (h : NoneReleased s₀ s) : NoneReleased s₀ (State.fwCommit s activate) := by
  refine h.comp ?_
  clear h
  unfold State.fwCommit
  (try dsimp -proj only)
  repeat' (with_reducible first
    | assumption
    | apply NoneReleased.refl
    | apply State.ccRestart_norel
    | apply State.warmReset_norel
    | apply State.logDevice_norel
    | apply State.runFw_norel
    | apply State.commitFw_norel
    | intro _
    | split
    | (refine NoneReleased.comp ?_ (NoneReleased.of_frame (Frame.put_devfw (fs := [.devfw]) (Frame.refl _ _) (by decide)) (by decide))))

end Sys2Proof.Machine
end

