-- ==== Sys2Proof/Laws/Others.lean ====
section
/-! SUPPORT. Operations on one host channel leave every other channel as it is (`Others`); an operation that touches no part indexed by
channel follows from its frame (`Others.of_frame`). -/

namespace Sys2Proof.Machine

theorem Others.refl (n : Fin 128) (s : State) : Others n s s := fun _ _ => ⟨rfl, rfl, rfl, rfl, rfl, rfl, rfl, rfl, rfl, rfl, rfl⟩

theorem Others.comp {n : Fin 128} {s t u : State} (h : Others n s t) (h' : Others n t u) : Others n s u := fun c hc => by
  have a := h c hc
  have b := h' c hc
  simp only [State.chanSame] at *
  simp [a, b]

theorem Others.foldl {α : Type} {n : Fin 128} {s₀ s : State} {l : List α} {g : State → α → State} (h₀ : Others n s₀ s)
    (h : ∀ s x, Others n s (g s x)) : Others n s₀ (l.foldl g s) := by
  induction l generalizing s with
  | nil => exact h₀
  | cons x l ih => exact ih (h₀.comp (h s x))

theorem Others.foldl_fst {α β : Type} {n : Fin 128} {s₀ : State} {a : State × β} {l : List α} {g : State × β → α → State × β} (h₀ : Others n s₀ a.1)
    (h : ∀ a x, Others n a.1 (g a x).1) : Others n s₀ (l.foldl g a).1 := by
  induction l generalizing a with
  | nil => exact h₀
  | cons x l ih => exact ih (h₀.comp (h a x))

theorem Others.of_frame {n : Fin 128} {s t : State} (h : Frame Field.shared s t) : Others n s t := by
  intro c _
  have e1 := h .ports (by decide)
  have e2 := h .mbx (by decide)
  have e3 := h .stn (by decide)
  have e4 := h .ctl (by decide)
  have e5 := h .plt (by decide)
  have e6 := h .wdg (by decide)
  have e7 := h .areas (by decide)
  have e8 := h .pol (by decide)
  have e9 := h .polLedger (by decide)
  have e10 := h .prof (by decide)
  have e11 := h .profCfg (by decide)
  simp only [Field.same] at *
  simp [State.chanSame, State.port, State.mb, State.st, State.ch, State.pl, State.wd, State.area, State.polOf, State.profOf, *]

theorem State.modAreas_others {n : Fin 128} {s₀ s : State} {f} (h : Others n s₀ s) : Others n s₀ (State.modAreas s n f) := by
  refine h.comp fun c hc => ?_
  simp [State.chanSame, State.modAreas, State.port, State.mb, State.st, State.ch, State.pl, State.wd, State.area, State.polOf, State.profOf, vget_vmod_ne _ _ hc]

theorem State.modCtl_others {n : Fin 128} {s₀ s : State} {f} (h : Others n s₀ s) : Others n s₀ (State.modCtl s n f) := by
  refine h.comp fun c hc => ?_
  simp [State.chanSame, State.modCtl, State.port, State.mb, State.st, State.ch, State.pl, State.wd, State.area, State.polOf, State.profOf, vget_vmod_ne _ _ hc]

theorem State.modMbx_others {n : Fin 128} {s₀ s : State} {f} (h : Others n s₀ s) : Others n s₀ (State.modMbx s n f) := by
  refine h.comp fun c hc => ?_
  simp [State.chanSame, State.modMbx, State.port, State.mb, State.st, State.ch, State.pl, State.wd, State.area, State.polOf, State.profOf, vget_vmod_ne _ _ hc]

theorem State.modPort_others {n : Fin 128} {s₀ s : State} {f} (h : Others n s₀ s) : Others n s₀ (State.modPort s n f) := by
  refine h.comp fun c hc => ?_
  simp [State.chanSame, State.modPort, State.port, State.mb, State.st, State.ch, State.pl, State.wd, State.area, State.polOf, State.profOf, vget_vmod_ne _ _ hc]

theorem State.modStn_others {n : Fin 128} {s₀ s : State} {f} (h : Others n s₀ s) : Others n s₀ (State.modStn s n f) := by
  refine h.comp fun c hc => ?_
  simp [State.chanSame, State.modStn, State.port, State.mb, State.st, State.ch, State.pl, State.wd, State.area, State.polOf, State.profOf, vget_vmod_ne _ _ hc]

theorem State.modWdg_others {n : Fin 128} {s₀ s : State} {f} (h : Others n s₀ s) : Others n s₀ (State.modWdg s n f) := by
  refine h.comp fun c hc => ?_
  simp [State.chanSame, State.modWdg, State.port, State.mb, State.st, State.ch, State.pl, State.wd, State.area, State.polOf, State.profOf, vget_vmod_ne _ _ hc]

theorem State.forAll_others {α : Type} {N : Fin 128} {s₀ s : State} {f : α → State → State} {l : List α} (h₀ : Others N s₀ s) (h : ∀ x s, Others N s (f x s)) :
    Others N s₀ (s.forAll l f) := Others.foldl h₀ fun s x => h x s

theorem State.log_others {N : Fin 128} {s₀ : State} {s : State} {type : Nat} {ch : Nat} {info : List Nat} (h : Others N s₀ s) : Others N s₀ (State.log s type ch info) :=
  h.comp (Others.of_frame (State.log_frame (Frame.refl _ _) (by decide)))

theorem State.raise_others {N : Fin 128} {s₀ : State} {s : State} {code : Nat} {ch : Nat} {data : List Nat} (h : Others N s₀ s) : Others N s₀ (State.raise s code ch data) :=
  h.comp (Others.of_frame (State.raise_frame (Frame.refl _ _) (by decide)))

theorem State.closeCdi_others {s₀ : State} {s : State} {n : Fin 128} (h : Others n s₀ s) : Others n s₀ (State.closeCdi s n) := by
  refine h.comp ?_
  clear h
  unfold State.closeCdi
  (try dsimp -proj only)
  repeat' (with_reducible first
    | assumption
    | apply Others.refl
    | apply State.modMbx_others
    | intro _
    | split)

theorem State.wdgStop_others {s₀ : State} {s : State} {n : Fin 128} (h : Others n s₀ s) : Others n s₀ (State.wdgStop s n) := by
  refine h.comp ?_
  clear h
  unfold State.wdgStop
  (try dsimp -proj only)
  repeat' (with_reducible first
    | assumption
    | apply Others.refl
    | apply State.modWdg_others
    | intro _
    | split)

theorem State.stopHost_others {s₀ : State} {s : State} {n : Fin 128} (h : Others n s₀ s) : Others n s₀ (State.stopHost s n) := by
  refine h.comp ?_
  clear h
  unfold State.stopHost
  (try dsimp -proj only)
  repeat' (with_reducible first
    | assumption
    | apply Others.refl
    | apply State.wdgStop_others
    | apply State.modStn_others
    | apply State.modPort_others
    | apply State.modCtl_others
    | intro _
    | split
    | (refine Others.comp ?_ (Others.of_frame (Frame.put_plat (Frame.refl _ _) (by decide)))))

theorem State.finish_others {N : Fin 128} {s₀ : State} {s : State} {src : Src} {st : Status} {info : optParam Nat 0} {result : optParam (List Byte) []} {more : optParam Bool Bool.false} (h : Others N s₀ s) : Others N s₀ (State.finish s src st info result more) :=
  h.comp (Others.of_frame (State.finish_frame (Frame.refl _ _) (by decide)))

theorem State.mctpReply_others {N : Fin 128} {s₀ : State} {s : State} {e : Fin 8} {r : OvdelReply} (h : Others N s₀ s) : Others N s₀ (State.mctpReply s e r) :=
  h.comp (Others.of_frame (State.mctpReply_frame (Frame.refl _ _) (by decide)))

theorem State.answer_others {s₀ : State} {s : State} {who : Asker} {n : Fin 128} {st : Status} {info : optParam Nat 0} {result : optParam (List Byte) []} (h : Others n s₀ s) : Others n s₀ (State.answer s who n st info result) := by
  refine h.comp ?_
  clear h
  unfold State.answer
  (try dsimp -proj only)
  repeat' (with_reducible first
    | assumption
    | apply Others.refl
    | apply State.finish_others
    | apply State.mctpReply_others
    | apply State.modCtl_others
    | intro _
    | split)

theorem State.answerAll_others {s₀ : State} {s : State} {n : Fin 128} {k2 : AwaitKind → Bool} {st : Status} {info : Nat} {result : List Byte} (h : Others n s₀ s) : Others n s₀ (State.answerAll s n k2 st info result) := by
  refine h.comp ?_
  clear h
  unfold State.answerAll
  (try dsimp -proj only)
  repeat' (with_reducible first
    | assumption
    | apply Others.refl
    | apply State.forAll_others
    | apply State.answer_others
    | intro _
    | split
    | (refine Others.comp ?_ (Others.of_frame (Frame.put_awaits (Frame.refl _ _) (by decide)))))

theorem State.transition_others {s₀ : State} {s : State} {n : Fin 128} {st : ChState} {cause : Cause} (h : Others n s₀ s) : Others n s₀ (State.transition s n st cause) := by
  refine h.comp ?_
  clear h
  unfold State.transition
  (try dsimp -proj only)
  repeat' (with_reducible first
    | assumption
    | apply Others.refl
    | apply State.log_others
    | apply State.modCtl_others
    | apply State.raise_others
    | intro _
    | split)

theorem State.hold_others {s₀ : State} {s : State} {n : Fin 128} {kind : HoldKind} {cause : Cause} {seq : Option SeqKind} (h : Others n s₀ s) : Others n s₀ (State.hold s n kind cause seq) := by
  refine h.comp ?_
  clear h
  unfold State.hold
  (try dsimp -proj only)
  repeat' (with_reducible first
    | assumption
    | apply Others.refl
    | apply State.stopHost_others
    | apply State.answerAll_others
    | apply State.transition_others
    | apply State.modCtl_others
    | intro _
    | split)

theorem State.modFp_others {N : Fin 128} {s₀ : State} {s : State} {n : Fin 64} {f : FlashPort → FlashPort} (h : Others N s₀ s) : Others N s₀ (State.modFp s n f) :=
  h.comp (Others.of_frame (State.modFp_frame (Frame.refl _ _) (by decide)))

theorem State.summary_others {N : Fin 128} {s₀ : State} {s : State} {type : Nat} {ch : Nat} (h : Others N s₀ s) : Others N s₀ (State.summary s type ch) :=
  h.comp (Others.of_frame (State.summary_frame (Frame.refl _ _) (by decide)))

theorem State.reply_others {s₀ : State} {s : State} {n : Fin 128} {op : Nat} {bs : List Byte} (h : Others n s₀ s) : Others n s₀ (State.reply s n op bs) := by
  refine h.comp ?_
  clear h
  unfold State.reply
  (try dsimp -proj only)
  repeat' (with_reducible first
    | assumption
    | apply Others.refl
    | apply State.modPort_others
    | intro _
    | split)

theorem State.shortRead_others {s₀ : State} {s : State} {n : Fin 128} {op : Nat} {len : Nat} {cycles : Nat} (h : Others n s₀ s) : Others n s₀ (State.shortRead s n op len cycles) := by
  refine h.comp ?_
  clear h
  unfold State.shortRead
  (try dsimp -proj only)
  repeat' (with_reducible first
    | assumption
    | apply Others.refl
    | apply State.reply_others
    | apply State.modPort_others
    | apply State.raise_others
    | intro _
    | split)

theorem State.tagFailure_others {s₀ : State} {s : State} {n : Fin 128} {dir : Nat} {line : Nat} (h : Others n s₀ s) : Others n s₀ (State.tagFailure s n dir line) := by
  refine h.comp ?_
  clear h
  unfold State.tagFailure
  (try dsimp -proj only)
  repeat' (with_reducible first
    | assumption
    | apply Others.refl
    | apply State.hold_others
    | apply State.raise_others
    | apply State.summary_others
    | apply State.modCtl_others
    | intro _
    | split
    | (refine Others.comp ?_ (Others.of_frame (Frame.put_imm (Frame.refl _ _) (by decide)))))

theorem State.burstStop_others {s₀ : State} {s : State} {n : Fin 128} {c : BCell} (h : Others n s₀ s) : Others n s₀ (State.burstStop s n c) := by
  refine h.comp ?_
  clear h
  unfold State.burstStop
  (try dsimp -proj only)
  repeat' (with_reducible first
    | assumption
    | apply Others.refl
    | apply State.raise_others
    | apply State.tagFailure_others
    | apply State.modPort_others
    | apply State.modAreas_others
    | intro _
    | split
    | (refine Others.comp ?_ (Others.of_frame (Frame.put_imm (Frame.refl _ _) (by decide))))
    | (refine Others.comp ?_ (Others.of_frame (Frame.put_fca (Frame.refl _ _) (by decide)))))

theorem State.placeLine_others {N : Fin 128} {s₀ : State} {s : State} {i : Nat} {line : Nat} (h : Others N s₀ s) : Others N s₀ (State.placeLine s i line) :=
  h.comp (Others.of_frame (State.placeLine_frame (Frame.refl _ _) (by decide)))

theorem State.touchLine_others {N : Fin 128} {s₀ : State} {s : State} {i : Nat} {line : Nat} (h : Others N s₀ s) : Others N s₀ (State.touchLine s i line) :=
  h.comp (Others.of_frame (State.touchLine_frame (Frame.refl _ _) (by decide)))

theorem State.serveBurst_others {s₀ : State} {s : State} {n : Fin 128} {c : HostCmd} {op : Nat} {a : Nat} (h : Others n s₀ s) : Others n s₀ (State.serveBurst s n c op a) := by
  refine h.comp ?_
  clear h
  unfold State.serveBurst
  (try dsimp -proj only)
  repeat' (with_reducible first
    | assumption
    | apply Others.refl
    | apply State.closeCdi_others
    | apply State.reply_others
    | apply State.burstStop_others
    | apply State.forAll_others
    | apply State.touchLine_others
    | apply State.placeLine_others
    | intro _
    | split)

theorem State.undecoded_others {s₀ : State} {s : State} {n : Fin 128} (h : Others n s₀ s) : Others n s₀ (State.undecoded s n) := by
  refine h.comp ?_
  clear h
  unfold State.undecoded
  (try dsimp -proj only)
  repeat' (with_reducible first
    | assumption
    | apply Others.refl
    | apply State.modPort_others
    | intro _
    | split)

theorem State.ownOp_others {s₀ : State} {s : State} {n : Fin 128} (h : Others n s₀ s) : Others n s₀ (State.ownOp s n) := by
  refine h.comp ?_
  clear h
  unfold State.ownOp
  (try dsimp -proj only)
  repeat' (with_reducible first
    | assumption
    | apply Others.refl
    | apply State.modPort_others
    | intro _
    | split)

theorem State.issue_others {N : Fin 128} {s₀ : State} {s : State} {n : Fin 128} {cs : List LocalCmd} (h : Others N s₀ s) : Others N s₀ (State.issue s n cs) :=
  h.comp (Others.of_frame (State.issue_frame (Frame.refl _ _) (by decide)))

theorem State.servePass_others {s₀ : State} {s : State} {n : Fin 128} {c : HostCmd} {op : Nat} {a : Nat} {w : Fin 32} {cs : List LocalCmd} (h : Others n s₀ s) : Others n s₀ (State.servePass s n c op a w cs) := by
  refine h.comp ?_
  clear h
  unfold State.servePass
  (try dsimp -proj only)
  repeat' (with_reducible first
    | assumption
    | apply Others.refl
    | apply State.issue_others
    | apply State.reply_others
    | apply State.modPort_others
    | intro _
    | split)

theorem State.denied_others {s₀ : State} {s : State} {n : Fin 128} {op : Nat} {addr : Nat} {win : Option (Fin 32)} {r : Reason} {cls : RefClass} (h : Others n s₀ s) : Others n s₀ (State.denied s n op addr win r cls) := by
  refine h.comp ?_
  clear h
  unfold State.denied
  (try dsimp -proj only)
  repeat' (with_reducible first
    | assumption
    | apply Others.refl
    | apply State.summary_others
    | apply State.modStn_others
    | apply State.raise_others
    | intro _
    | split)

theorem State.refuse_others {s₀ : State} {s : State} {n : Fin 128} {c : HostCmd} {op : Nat} {addr : Nat} {win : Option (Fin 32)} {r : Reason} {cls : RefClass} {wel : Bool} (h : Others n s₀ s) : Others n s₀ (State.refuse s n c op addr win r cls wel) := by
  refine h.comp ?_
  clear h
  unfold State.refuse
  (try dsimp -proj only)
  repeat' (with_reducible first
    | assumption
    | apply Others.refl
    | apply State.denied_others
    | apply State.reply_others
    | apply State.modPort_others
    | intro _
    | split)

theorem State.forward_others {s₀ : State} {s : State} {n : Fin 128} {erase : Bool} {len : Nat} {cs : List LocalCmd} (h : Others n s₀ s) : Others n s₀ (State.forward s n erase len cs) := by
  refine h.comp ?_
  clear h
  unfold State.forward
  (try dsimp -proj only)
  repeat' (with_reducible first
    | assumption
    | apply Others.refl
    | apply State.modFp_others
    | apply State.issue_others
    | apply State.modPort_others
    | intro _
    | split)

theorem State.takeTokens_others {s₀ : State} {s : State} {n : Fin 128} {w : Fin 32} {erase : Bool} {cost : Nat} (h : Others n s₀ s) : Others n s₀ (State.takeTokens s n w erase cost) := by
  refine h.comp ?_
  clear h
  unfold State.takeTokens
  (try dsimp -proj only)
  repeat' (with_reducible first
    | assumption
    | apply Others.refl
    | apply State.modStn_others
    | intro _
    | split)

theorem State.serveChange_others {s₀ : State} {s : State} {n : Fin 128} {c : HostCmd} {a : Nat} {w : Fin 32} {erase : Bool} {len : Nat} {cost : Nat} {cs : List LocalCmd} (h : Others n s₀ s) : Others n s₀ (State.serveChange s n c a w erase len cost cs) := by
  refine h.comp ?_
  clear h
  unfold State.serveChange
  (try dsimp -proj only)
  repeat' (with_reducible first
    | assumption
    | apply Others.refl
    | apply State.forward_others
    | apply State.takeTokens_others
    | apply State.modAreas_others
    | apply State.ownOp_others
    | apply Others.foldl
    | apply Others.foldl_fst
    | intro _
    | split)

theorem State.judgeWindow_others {s₀ : State} {s : State} {n : Fin 128} {op : Nat} {c : HostCmd} {a : Nat} {w : Fin 32} {cls : Nat} {rc : RefClass} {wel : Bool} {len : Nat} {cost : Nat} {frame : Option (List LocalCmd)} {gate : Bool} (h : Others n s₀ s) : Others n s₀ (State.judgeWindow s n op c a w cls rc wel len cost frame gate) := by
  refine h.comp ?_
  clear h
  unfold State.judgeWindow
  (try dsimp -proj only)
  repeat' (with_reducible first
    | assumption
    | apply Others.refl
    | apply State.issue_others
    | apply State.shortRead_others
    | apply State.servePass_others
    | apply State.serveBurst_others
    | apply State.refuse_others
    | apply State.serveChange_others
    | intro _
    | split)

theorem State.executeCmd_others {s₀ : State} {s : State} {n : Fin 128} {op : Nat} {c : HostCmd} (h : Others n s₀ s) : Others n s₀ (State.executeCmd s n op c) := by
  refine h.comp ?_
  clear h
  unfold State.executeCmd
  (try dsimp -proj only)
  repeat' (with_reducible first
    | assumption
    | apply Others.refl
    | apply State.shortRead_others
    | apply State.reply_others
    | apply State.modPort_others
    | intro _
    | split)

theorem State.judgeCmd_others {s₀ s : State} {n : Fin 128} {c : HostCmd} {hasAddr : Bool} {a : Nat} (h : Others n s₀ s) :
    Others n s₀ (State.judgeCmd s n c hasAddr a) := by
  refine h.comp ?_
  clear h
  unfold State.judgeCmd
  extract_lets p io t ph range winOf r act rcOwn clearWel ruleWin op addr rc
  have hc : ∀ u op, Others n s u → Others n s (clearWel u op) := by
    intro u op hu
    simp only [clearWel]
    repeat' (with_reducible first
      | exact hu
      | apply State.modPort_others
      | split)
  clear_value clearWel p io t ph range winOf r act rcOwn ruleWin op addr rc
  repeat' (with_reducible first
    | apply Others.refl
    | apply hc
    | apply State.refuse_others
    | apply State.judgeWindow_others
    | apply State.undecoded_others
    | apply State.executeCmd_others
    | (extract_lets; clear_value *)
    | split)

end Sys2Proof.Machine
end

