-- ==== Sys2Proof/WellFormed.lean ====
section
/-! DEFINITION. Which commands a sender can form: the ranges that the operand types do not express. `exec` is total on
every command; this says which of them stand for something the pins, the links or the tables can carry. -/

namespace Sys2Proof

open Sys2Proof.Machine

/-- An address of at most four bytes (R26; the opcodes that leave the form to CR_ADDR may carry four). -/
def wfAddr (addr : Nat) : Bool := addr < 2 ^ 32

/-- A host read: an address, at least one byte clocked. -/
def wfRead (q : ReadArgs) : Bool := wfAddr q.addr && 0 < q.len

/-- SQ entry bytes: one to eight units of 64 bytes (R211). -/
def wfUnits (units : List Byte) : Bool := units.length % 64 = 0 && 64 ≤ units.length && units.length ≤ 512

/-- A register's offset in the 8 MiB of BAR0, 32-bit aligned (R240, R241). -/
def wfOffset (off : Nat) : Bool := off < 0x800000 && off % 4 = 0

/-- A page number among the pages with a header (R240). -/
def wfPage (page : Nat) : Bool := page < 1024

/-- A buffer of at most n bytes (R229). -/
def wfLen (n : Nat) (data : List Byte) : Bool := 0 < data.length && data.length ≤ n

/-- Whether a sender can form the command. -/
def Instr.wellFormed : Instr → Bool
  | .read _ _ q | .fastRead _ _ q | .quadOutputRead _ _ q | .quadIoRead _ _ q => wfRead q
  | .octalDdrRead _ q => wfRead q
  | .allowFrameCommand _ _ q _ => q.addr < 2 ^ 32
  | .pageProgram _ _ addr data _ => wfAddr addr && 0 < data.length
  | .erase4Kib _ _ addr _ | .erase64Kib _ _ addr _ => wfAddr addr
  | .chipErase _ op => op = 0xC7 || op = 0x60
  | .mctpOvdelRequest _ units _ => wfUnits units
  | .sqPhaseReread _ _ units | .sqEntryConsume _ _ units | .pad _ _ units => wfUnits units
  | .imageStage _ _ _ _ _ data => wfLen 1048576 data
  | .deviceFwStage _ _ data => wfLen 1048576 data
  | .quote _ nonce _ => nonce.length = 32
  | .advanceMinVersion _ _ family _ => family.length = 16
  | .otpProgram _ _ _ bitmap _ => wfLen 256 bitmap
  | .registerWrite _ off _ => wfOffset off
  | .bar0BadAccess _ off | .bar0UnmappedAccess _ off | .lowWordRead _ off => off < 0x800000
  | .lockWrite _ page _ | .irqClr _ page _ | .errInfoClear _ page _ => wfPage page
  | .poolAudit family root _ => family.length = 16 && root.length = 48
  | _ => true

end Sys2Proof
end

