-- ==== Sys2Proof/Tests/Slice0.lean ====
section
/-! SUPPORT. The model's own tests: ill-formed commands that `wellFormed` refuses; for every statement of
Certificates/Slice0/Obligations.lean with hypotheses a state and operands that meet them; and one or two steps of each family
whose outcome the spec's text or tables give. -/

namespace Sys2Proof.Tests

open Sys2Proof Sys2Proof.Machine

set_option Elab.async false

/-! ## Small states -/

/-- A Stencil table with one window of each treatment, all of them open in every phase: 0 IMPRESSION from 0, 1 KEEP from 1 MiB,
2 SCRATCH (the staging window), 3 MAILBOX, 4 PASS, 5 DENY. -/
def tbl : STable :=
  { STable.reset with
    winBase := Vector.ofFn fun w => BitVec.ofNat 32 ([0, 0x100, 0x110, 0x120, 0x130, 0x140].getD w.1 0)
    winSize := Vector.ofFn fun w => BitVec.ofNat 32 ([0x100, 0x10, 0x10, 0x10, 0x10, 0x10].getD w.1 0)
    winAcc := Vector.ofFn fun w => BitVec.ofNat 32 ([0x2491, 0xFFF3, 0xFFFC, 0x6DB5, 0xFFF2, 0xFFF0].getD w.1 0) }

/-- A queue with the command of CID 5 in flight. -/
def sq (cq : Byte) (units : Nat) : Sq :=
  { depth := 16, base := 0, cq := cq, cls := 1, tail := units, cons := units, head := 0, phase := true, retracted := false, prefetch := 0,
    fault := false, promoted := false, posts := [], fetchFrom := 0, rereads := [], fenced := false,
    flight := [{ cid := 5, opc := 1, start := 0, units := 1, fence := false, fast := false, done := false, raw := [] }],
    early := [], deleting := false, held := false, toAbort := [] }

/-- A completion queue. -/
def cq (event : Bool) : Cq :=
  { depth := 16, base := 0, vector := 0, ien := true, event := event, coalN := 0, coalUs := 0, tail := 0, head := 0, phase := true,
    reserved := 1, fault := false, unsignalled := 0, firstAt := 0 }

/-- Manager A's ring at version 2.2 with admin queues 0, I/O queues 1 and event queue 2. -/
def ring : Ring :=
  { Ring.reset with
    en := true, rdy := true, version := 0x0202, sqs := [(0, sq 0 1), (1, sq 1 1)]
    cqs := [(0, cq false), (1, cq false), (2, cq true)], evtCq := some 2 }

/-- A function whose link is up, with Memory Space, Bus Master and MSI-X enabled. -/
def view : View :=
  { View.reset with
    linkUp := true
    cfg := { PciCfg.reset with
      command := 6
      msixEn := true } }

/-- The device runs, every host is released with power good, and manager A's link and ring are up. -/
def live : State :=
  { State.reset with
    dev := { Device.reset with state := .running, cold := false }
    rings := { a := ring, b := Ring.reset }
    views := { a := view, b := { view with linkUp := false } }
    ctl := Vector.replicate 128
      { Ctl.reset with
        state := .running, pgood := true, pgOk := true, sink := false } }

/-- Host 3 of `live` in phase RUN with the windows of `tbl` and WEL set. -/
def host : State :=
  (live.modStn 3 fun x =>
    { x with
      tbl := tbl
      phase := .run
      pTok := Vector.replicate 32 Bucket.reset }).modPort 3 fun p => { p with wel := true }

/-- Host 3 held, its sink closed. -/
def held : State := host.modCtl 3 fun c =>
  { c with
    state := .held
    kind := .manager
    sink := true }

/-- A command of manager A's I/O queue, and one of its admin queue. -/
def io : Src := { mgr := .a, sq := 1, cid := 5 }

def adm : Src := { mgr := .a, sq := 0, cid := 5 }

/-- The state that a command leaves. -/
def after (c : Instr) (s : State) : State :=
  match exec c s with
  | .next t => t
  | _ => s

/-- The command answers a next state. -/
def runs (c : Instr) (s : State) : Bool :=
  match exec c s with
  | .next _ => true
  | _ => false

theorem next_of_runs {c : Instr} {s : State} (h : runs c s = true) : exec c s = .next (after c s) := by
  unfold runs after at *
  split at h <;> simp_all

theorem steps_of_runs {c : Instr} {s : State} (h : runs c s = true) (p : s.pending = []) :
    step { s with pending := [c] } = .next (after c s) := by
  have e : ({ s with pending := [] } : State) = s := by cases s; simp_all
  show exec c { s with pending := [] } = _
  rw [e]
  exact next_of_runs h

/-- The entry of CID 5 that spells a command of this row. -/
def entryFor (g : Gate) : InFlight :=
  { cid := 5, opc := BitVec.ofNat 16 g.opc, start := 0, units := 1, fence := false, fast := g.fast, done := false,
    raw := leBytes 512 (g.fields.foldl (fun v x => v + (x.2.2 <<< x.1)) 0) }

/-- The queue of an Ovdel command has consumed its entry. -/
def carrying (c : Instr) (s : State) : State :=
  match c.gate with
  | some (src, g) => s.modRing src.mgr fun r => { r with
      sqs := r.sqs.map fun e => if e.1 = src.sq.toNat then (e.1, { e.2 with flight := [entryFor g] }) else e }
  | none => s

/-- The state that a command leaves whose entry has been consumed. -/
def given (c : Instr) (s : State) : State := after c (carrying c s)

/-- `State.allows`, for evaluation. -/
def taken (c : Instr) (s : State) : Bool :=
  match c.gate with
  | some (src, g) => decide (s.takes src g)
  | none => true

theorem allows_of {c : Instr} {s : State} (h : taken c s = true) : s.allows c := by
  intro a b e
  simp only [taken, e, decide_eq_true_eq] at h
  exact h

/-- Each command of a list is taken once its entry has been consumed. -/
theorem allows_all_of {l : List Instr} {s : State} (h : (l.all fun c => taken c (carrying c s)) = true) :
    ∀ c ∈ l, (carrying c s).allows c := fun c m => allows_of (List.all_eq_true.mp h c m)

/-- A read of 16 bytes at an address. -/
def q16 (addr : Nat) : ReadArgs := { addr := addr, len := 16, period := 160, localData := [], upset := none, csLow := false }

/-! ## Commands that no sender can form -/

theorem refuses_read_address : Instr.wellFormed (.read 0 true { q16 0 with addr := 2 ^ 32 }) = false := by decide +kernel

theorem refuses_read_of_nothing : Instr.wellFormed (.octalDdrRead 127 { q16 0 with len := 0 }) = false := by decide +kernel

theorem accepts_read_at_top : Instr.wellFormed (.fastRead 127 true (q16 (2 ^ 32 - 1))) = true := by decide +kernel

theorem refuses_rule_frame_address : Instr.wellFormed (.allowFrameCommand 0 0xC0 { q16 0 with addr := 2 ^ 32 } []) = false := by
  decide +kernel

theorem refuses_program_of_nothing : Instr.wellFormed (.pageProgram 0 false 0 [] 160) = false := by decide +kernel

theorem refuses_program_address : Instr.wellFormed (.pageProgram 0 true (2 ^ 32) [0] 160) = false := by decide +kernel

theorem refuses_erase_address : Instr.wellFormed (.erase4Kib 0 true (2 ^ 32) 160) = false ∧
    Instr.wellFormed (.erase64Kib 0 true (2 ^ 32) 160) = false := by decide +kernel

theorem refuses_chip_erase_opcode : Instr.wellFormed (.chipErase 0 0x20) = false ∧ Instr.wellFormed (.chipErase 0 0x60) = true := by
  decide +kernel

theorem refuses_entry_length : Instr.wellFormed (.sqEntryConsume .a 1 []) = false ∧
    Instr.wellFormed (.pad .a 1 (List.replicate 65 0)) = false ∧ Instr.wellFormed (.sqPhaseReread .a 1 (List.replicate 576 0)) = false ∧
    Instr.wellFormed (.mctpOvdelRequest 2 (List.replicate 63 0) 0) = false ∧
    Instr.wellFormed (.sqEntryConsume .a 1 (List.replicate 512 0)) = true := by decide +kernel

theorem refuses_stage_of_nothing : Instr.wellFormed (.imageStage io 0 0 0 0 []) = false ∧
    Instr.wellFormed (.deviceFwStage io 0 []) = false := by decide +kernel

theorem refuses_quote_nonce : Instr.wellFormed (.quote io (List.replicate 31 0) 4096) = false := by decide +kernel

theorem refuses_family_length : Instr.wellFormed (.advanceMinVersion io 0 (List.replicate 15 0) 1) = false ∧
    Instr.wellFormed (.poolAudit (List.replicate 16 0) (List.replicate 47 0) none) = false := by decide +kernel

theorem refuses_otp_bitmap : Instr.wellFormed (.otpProgram io 1 0 (List.replicate 257 0) ⟨[], [], none, none⟩) = false := by decide +kernel

theorem refuses_register_offset : Instr.wellFormed (.registerWrite .a 0x800000 0) = false ∧
    Instr.wellFormed (.registerWrite .a 0x42 0) = false ∧ Instr.wellFormed (.bar0BadAccess .a 0x800000) = false ∧
    Instr.wellFormed (.bar0UnmappedAccess .a 0x800000) = false ∧ Instr.wellFormed (.lowWordRead .a 0x800000) = false := by decide +kernel

theorem refuses_page_number : Instr.wellFormed (.lockWrite .a 1024 0) = false ∧ Instr.wellFormed (.irqClr .a 1024 0) = false ∧
    Instr.wellFormed (.errInfoClear .a 1024 0) = false := by decide +kernel

/-- The table gives no bits to any row: no word spells a command. -/
theorem test_no_word_spells_a_command : decodeTableWord 8 0x9F = none := by decide +kernel

/-! ## States and operands that meet the statements' hypotheses

`witness_X` shows a state and operands that meet the hypotheses of `Obligations.X`, clause by clause. Where a hypothesis asks for a
value of the model's opaque functions (a signature that verifies, a digest that matches), no closed term can show it: the witness then
shows the hypotheses beside it. -/

theorem witness_StepOnAnEmptyQueuePassesTime : live.pending = [] := rfl

theorem memOk_of {s : State} (h : ∀ n : Fin 128, decide (Memory.wf (s.area n).keep) && decide (Memory.wf (s.area n).scratch) = true) :
    s.memOk := by
  intro n
  have := h n
  simp only [Bool.and_eq_true, decide_eq_true_eq] at this
  exact this

/-- Host 3 with bytes in KEEP and SCRATCH. -/
def stored : State := host.modAreas 3 fun a =>
  { a with
    keep := [(0, 0x12), (7, 0x0F)]
    scratch := [(0, 0x34)] }

theorem witness_ByteStoresStayCanonical : stored.memOk ∧ ∃ t, step { stored with pending := [.pageProgram 3 true 0x100000 [0] 160] } = .next t :=
  ⟨memOk_of (by decide +kernel), _, steps_of_runs (by decide +kernel) rfl⟩

theorem witness_DeviceTimeNeverGoesBack : ∃ t, exec (.writeEnable 3) host = .next t := ⟨_, next_of_runs (by decide +kernel)⟩

theorem witness_BlownFusesStayBlown : ∃ t, step { live with pending := [.otpFinalise io 5 ⟨[], [], none, none⟩] } = .next t :=
  ⟨_, steps_of_runs (by decide +kernel) rfl⟩

/-- Host 3 READY with entry 255 bound, its release requested, its hold longer ago than 10 ms. -/
def ready : State :=
  { (host.modCtl 3 fun c =>
      { c with
        state := .ready
        sink := true
        relAsked := true
        bound := some 255
        holdT := 1 }) with
    now := 20 * msec
    plat := { Platform.reset with queue := [3] } }

theorem witness_OnlyAReleaseInstantReleasesAHost : ∃ t, exec (.releaseInstant 3) ready = .next t ∧ (ready.ch 3).released = false ∧
    (t.ch 3).released = true := ⟨_, next_of_runs (by decide +kernel), by decide +kernel⟩

theorem witness_AHostChangesOnlyItsOwnChannel :
    Instr.writeEnable 3 ∈ [Instr.writeEnable 3] ∧ ∃ t, exec (.read 3 true (q16 0x100000)) host = .next t :=
  ⟨by decide +kernel, _, next_of_runs (by decide +kernel)⟩

theorem witness_HostSideCommandsKeepTheirFrame : (∀ c ∈ [Instr.writeEnable 127, .bootDone 3 1, .bucketRefill 3 31 true, .fcaFlush .a],
    c.chapter ∈ [Chapter.host, Chapter.mailbox, Chapter.stencil, Chapter.image] ∧ runs c host = true) := by decide +kernel

theorem witness_ControlCommandsKeepTheirFrame : (∀ c ∈ [Instr.chHold io 3 none, .wdgClose 0, .plateErase io 3 1, .tmpClear .a, .supplyOk],
    c.chapter ∈ [Chapter.control, Chapter.watchdog, Chapter.plate, Chapter.key, Chapter.power] ∧ runs c host = true) := by decide +kernel

theorem witness_ServiceCommandsKeepTheirFrame :
    (∀ c ∈ [Instr.getVersion 7 0, .burTakeOut .b 3, .negotiate adm 0x0202, .configRead io 12632, .lowWordRead .a 0],
      c.chapter ∈ [Chapter.attest, Chapter.engine, Chapter.ring, Chapter.policy, Chapter.page] ∧ runs c host = true) := by decide +kernel

theorem witness_RegisterReadsAnswer :
    (∀ op ∈ [0x05, 0x70, 0x9F, 0x65, 0x5A], host.hears 3 op ∧ live.hears 127 op ∧ (host.modPort 3 fun p => { p with crIo := 3 }).hears 3 op) ∧
    508 ≤ (if (host.port 3).crIo.toNat = 3 then host.effDummy 3 else 8) * 64 := by decide +kernel

theorem witness_RegisterReadsComplete :
    (∀ op ∈ [0x05, 0x70, 0x9F, 0x65, 0x5A], host.hears 3 op) ∧
    (∀ a ∈ [0, 1, 2, 3], a ∈ [(0, (host.port 3).crIo), (1, (host.port 3).crDummy), (2, if (host.port 3).four then 1 else 0),
      (3, (host.port 3).crDrive.zeroExtend 8)].map Prod.fst) ∧
    (if (host.port 3).crIo.toNat = 3 then host.effDummy 3 else 8) * 63 < 508 := by decide +kernel

theorem witness_LatchCommandsSetTheirLatch :
    (∀ op ∈ [0x06, 0x04, 0x01, 0xB7, 0xE9, 0x50, 0x66, 0xB9, 0xAB, 0x72], host.hears 3 op ∧ live.hears 0 op) ∧
    (host.modPort 3 fun p => { p with dpd := true }).hears 3 0xAB := by decide +kernel

theorem witness_HostResetRestoresDefaults :
    (let s := host.modPort 3 fun p => { p with resetArmed := true }
     s.hears 3 0x99 ∧ (s.port 3).resetArmed = true) ∧
    (host.hears 3 0x99 ∧ (host.port 3).resetArmed = false) ∧
    (live.dev.state = .running ∧ (live.ch 127).released = true ∧ (live.ch 127).pgood = true ∧ live.chanOn 127 = true) ∧
    ((host.modPort 3 fun p => { p with resetEnd := some 30000 }).port 3).resetEnd = some 30000 := by decide +kernel

/-- Reads that stay in each treatment's window, up to its last byte; all nine read commands are heard in their protocols. -/
theorem witness_ReadDeliversTheWindowsBytes : (q16 0).upset = none ∧
    (∀ x ∈ readForms 3 (q16 0), x.1 ≠ 0xEE → host.hears 3 x.1 ∧ host.readsIn 3 x.1 0 16 1016 0) ∧
    (let s := host.modPort 3 fun p => { p with crIo := 3 }
     s.hears 3 0xEE ∧ s.readsIn 3 0xEE 0x10FFF0 16 160 1) ∧
    host.readsIn 3 0x13 0x11FFF0 16 1016 2 ∧ host.readsIn 3 0x13 0x121030 16 1016 3 ∧
    (∃ i, i < 16 ∧ (host.st 3).tbl.mbxBase + 0x1000 ≤ 0x121030 + i ∧ 0x121030 + i < (host.st 3).tbl.mbxBase + 0x1040) :=
  ⟨rfl, by decide +kernel, by decide +kernel, by decide +kernel, by decide +kernel, 0, by decide +kernel⟩

/-- Uncovered, DENY, and a KEEP window that phase RUN may not read. -/
theorem witness_DeniedReadAnswersOnes :
    host.hears 3 0x13 ∧ (host.st 3).tbl.windowAt 0x150000 = none ∧
    ((host.st 3).tbl.windowAt 0x14FFFF = some 5 ∧ (host.st 3).tbl.treat 5 = 0) ∧
    (let s := host.modStn 3 fun x => { x with tbl := { tbl with winAcc := vset tbl.winAcc 1 0xFF03 } }
     s.hears 3 0x13 ∧ (s.st 3).tbl.windowAt 0x100000 = some 1 ∧ (s.st 3).tbl.treat 1 = 3 ∧ (s.st 3).tbl.perm 1 (s.st 3).phase.code 0 = false) := by
  decide +kernel

/-- The last page of KEEP, the first page and block of SCRATCH. -/
theorem witness_ProgramAndEraseChangeExactlyTheirBytes : (host.port 3).wel = true ∧
    (∀ x ∈ programForms 3 0x10FF80 [1, 2] 160, host.hears 3 x.1 ∧ host.changesIn 3 0x10FF80 256 1 1 1 ∧ host.changesIn 3 0x110000 256 1 1 2) ∧
    (∀ x ∈ eraseForms 3 0x110000 160, host.hears 3 x.1 ∧ host.changesIn 3 0x110000 x.2.1 2 (if x.2.1 = 0x10000 then 16 else 1) 2) := by
  decide +kernel

theorem witness_ChangeWithoutWriteEnableIsIgnored :
    (let s := host.modPort 3 fun p => { p with wel := false }
     (s.port 3).wel = false ∧ (∀ x ∈ programForms 3 0x10FF80 [1, 2] 160, s.hears 3 x.1 ∧ s.changesIn 3 0x10FF80 256 1 1 1) ∧
     (∀ x ∈ eraseForms 3 0x110000 160, s.hears 3 x.1 ∧ s.changesIn 3 0x110000 x.2.1 2 (if x.2.1 = 0x10000 then 16 else 1) 2)) := by
  decide +kernel

theorem witness_RefusalsSetWipThenTheirFlag :
    (host.hears 3 0xC7 ∧ host.hears 3 0x60 ∧ (host.port 3).wel = true) ∧
    ((host.modPort 3 fun p => { p with op := some (.refused true false) }).port 3).op = some (.refused true false) ∧
    ((host.modPort 3 fun p => { p with op := some .own }).port 3).op = some .own ∧
    (host.decodes 3 = true ∧ (host.port 3).dpd = false ∧ host.wip 3 = false ∧ inHostSet 0xC0 (host.port 3).crIo.toNat = false ∧
      ∀ r, (host.st 3).tbl.ruleOp r 0xC0 (host.port 3).crIo.toNat (host.st 3).phase.code = false) ∧
    (let s := host.modPort 3 fun p => { p with crIo := 3 }
     s.decodes 3 = true ∧ (s.port 3).dpd = false ∧ (s.port 3).crIo = 3 ∧ (0x05 : Byte) ≠ ~~~0x05) := by decide +kernel

/-- Host 3 with rule 0 on opcode 0xC0: ALLOW in Single SPI in every phase, window 4, no address; `b` is the rule's second word. -/
def ruled (b : Nat) : State :=
  (host.modStn 3 fun x =>
    { x with tbl := { tbl with
      ruleA := vset tbl.ruleA 0 0x0011F1C0
      ruleB := vset tbl.ruleB 0 (BitVec.ofNat 32 b) } }).modFp 3 fun f =>
    { f with
      state := 2
      maxMhz := 100 }

/-- A read of 4096 bytes, a program and an erase. -/
theorem witness_AllowedFrameReachesTheLocalFlash : ∀ b ∈ [0x0200, 0x0800, 0x1000],
    ((ruled b).decodes 3 = true ∧ ((ruled b).port 3).dpd = false ∧ (ruled b).wip 3 = false ∧
      inHostSet 0xC0 ((ruled b).port 3).crIo.toNat = false) ∧
    (∀ r', ((ruled b).st 3).tbl.ruleOp r' 0xC0 0 1 = true ↔ r' = 0) ∧
    (((ruled b).st 3).tbl.rAction 0 = 1 ∧ ((ruled b).st 3).tbl.rAddr 0 = 0 ∧ ((ruled b).st 3).tbl.rWin 0 = 4 ∧
      ((ruled b).st 3).tbl.used 4 = true ∧ ((ruled b).st 3).tbl.treat 4 = 2 ∧
      ((ruled b).st 3).tbl.perm 4 1 (((ruled b).st 3).tbl.rClass 0) = true ∧ (ruled b).passReady 3 160 = true) ∧
    (((ruled b).st 3).tbl.rClass 0 = 0 ∧ ((ruled b).st 3).tbl.rDir 0 = 2 ∨
      (((ruled b).st 3).tbl.rClass 0 = 1 ∨ ((ruled b).st 3).tbl.rClass 0 = 2) ∧ (ruled b).power.inhibit = false ∧
        ((ruled b).st 3).tokensFor 4 (((ruled b).st 3).tbl.rClass 0 = 2) 1 = true) := by decide +kernel

theorem witness_PowerGoodHoldsTheHost : host.chanOn 3 = true ∧ (host.ch 3).pgood = true ∧
    ((host.ch 3).released = true ∧ host.dev.state = .running) ∧ (held.ch 3).released = false ∧ (held.ch 3).pgood = true ∧
    State.reset.chanOn 127 = true ∧ State.reset.dev.state ≠ .running := by decide +kernel

theorem witness_MailboxRevisionIsSelected : host.mbxTakes 3 0x0004 ∧
    ∃ t, exec (.releaseInstant 3) ready = .next t ∧ (ready.ch 3).released = false ∧ (t.ch 3).released = true :=
  ⟨by decide +kernel, _, next_of_runs (by decide +kernel), by decide +kernel⟩

theorem witness_BootEndsByWriteOrTimeout : host.mbxTakes 3 0x0100 ∧
    (let s := host.modStn 3 fun x => { x with phase := .boot, tbl := { tbl with bootTmo := 1 } }
     (s.st 3).phase = .boot ∧ (s.ch 3).released = true ∧ (s.st 3).tbl.bootTmo.toNat ≠ 0) ∧
    ¬((host.st 3).phase = .boot ∧ (host.ch 3).released = true ∧ (host.st 3).tbl.bootTmo.toNat ≠ 0) := by decide +kernel

/-- Host 3 with its watchdog armed and counting from tick 1, window [1, 3) units of 1024 ticks, at tick `tick`. -/
def watched (tick : Nat) : State :=
  { (host.modWdg 3 fun w =>
      { w with
        armed := true
        counting := true
        counted := true
        violN := 3
        open_ := 1
        close_ := 3
        ref := 1
        chal := 7
        seq := 9 }) with
    now := 1000 * tick
    pol := vmod host.pol 3 fun p => { p with wdg := { p.wdg with extMax := 2 } } }

/-- A token that is OK at c = 1; an early service at c = 0; an extension granted, and one refused because one was granted. -/
theorem witness_WatchdogFieldsServeAndExtend :
    host.mbxTakes 3 0x0050 ∧ host.mbxTakes 3 0x0058 ∧ (host.wd 3).armed = false ∧
    (let s := (watched 1024).modWdg 3 fun w => { w with counting := false }
     (s.wd 3).armed = true ∧ s.watching 3 = false ∧ s.mbxTakes 3 0x0050) ∧
    (let s := watched 1024
     s.mbxTakes 3 0x0050 ∧ s.mbxTakes 3 0x0058 ∧ (s.wd 3).armed = true ∧ s.watching 3 = true ∧ s.sampleCount 3 < (s.wd 3).closeEff ∧
     (s.wd 3).open_.toNat ≤ s.sampleCount 3 ∧ s.tokenOk 3 (simpleToken 7 9) = true ∧ (s.polOf 3).wdg.extMax ≠ 0 ∧ (s.wd 3).extUsed = false) ∧
    (let s := watched 0
     s.mbxTakes 3 0x0050 ∧ s.watching 3 = true ∧ s.sampleCount 3 < (s.wd 3).open_.toNat ∧ s.sampleCount 3 < (s.wd 3).closeEff ∧
     (s.wd 3).counted = true ∧ (satInc (s.wd 3).viols).toNat < (s.wd 3).violN.toNat) ∧
    (let s := (watched 1024).modWdg 3 fun w => { w with extUsed := true }
     s.mbxTakes 3 0x0058 ∧ s.watching 3 = true ∧ s.sampleCount 3 < (s.wd 3).closeEff ∧ s.tokenOk 3 (simpleToken 7 9) = true ∧
     (s.wd 3).extUsed = true) := by
  refine ⟨?_, ?_, ?_, ?_, ?_, ?_, ?_⟩ <;> decide +kernel

/-- Plate A of host 3 on proof with challenge 7 and a deadline, plate B ACTIVE. -/
def onProof : State := (host.modCtl 3 fun c => { c with state := .proof }).modPlt 3 fun x =>
  { x with
    table :=
      { c0 := .valid 1 { PTable.empty with
          a := { Plate.empty with state := .proof, attempts := 1 }
          b := { Plate.empty with state := .active } }
        c1 := .zero }
    challenge := 7
    deadline := some 1000 }

theorem witness_ProofAcceptMakesThePlateActive :
    (let s := onProof
     s.mbxTakes 3 0x0088 ∧ s.dev.ccAbsent = false ∧ (s.plates 3).onProof = some .a ∧ (s.pl 3).revertWaits = false ∧
     ((s.plates 3).get .b).state = .active ∧ (7 : DWord) = (s.pl 3).challenge ∧ (∀ d, (s.pl 3).deadline = some d → s.now < d) ∧
     (s.pl 3).firstExpiry = none ∧ (s.pl 3).accepted = none ∧ s.inhibited = false ∧ s.seqFull 3 = false ∧
     ∀ m, m ≠ 3 → (s.plates m).onProof = none) ∧
    (host.mbxTakes 3 0x0088 ∧ host.onProof 3 = false) ∧ (onProof.mbxTakes 3 0x0088 ∧ (8 : DWord) ≠ (onProof.pl 3).challenge) := by
  have due : ∀ d, (onProof.pl 3).deadline = some d → onProof.now < d := by
    have h : (onProof.pl 3).deadline = some 1000 := by decide +kernel
    simp only [h, Option.some.injEq, forall_eq']
    decide +kernel
  refine ⟨⟨?_, ?_, ?_, ?_, ?_, ?_, due, ?_⟩, ?_⟩ <;> decide +kernel

/-- The policy lets host 3 update plates A and REC. -/
def updates : State :=
  { host with pol := vmod host.pol 3 fun p =>
      { p with
        hostUpd := 5
        plate := { p.plate with srcRec := 1 } } }

/-- A session of host 3 for plate A, in state `state`. -/
def session (state : BitVec 3) : State :=
  (updates.modMbx 3 fun b =>
    { b with
      session := state
      updPlate := 0 }).modStn 3 fun x => { x with phase := .update }

/-- The bytes that the session has staged make no manifest: `copyOutcome` is not SUCCESS. A SUCCESS rests on a signature. -/
theorem witness_UpdateSessionFollowsItsFields :
    (∀ v ∈ [0, 2], let s := updates
      s.dev.ccAbsent = false ∧ s.mbxTakes 3 0x0200 ∧ ∃ p ∈ [PlateId.a, .recov], plateOf v = some p ∧ (s.st 3).phase = .run ∧
      s.onProof 3 = false ∧ (s.polOf 3).hostUpd.getLsbD p.code = true ∧ ((s.plates 3).get p).state = .empty ∧ s.fallback = false ∧
      (s.st 3).tbl.stagingWin.isSome = true ∧ (s.polOf 3).plate.srcRec ≠ 0 ∧ ((s.pl 3).staging.get p).managed = false) ∧
    (let s := updates.modPlt 3 fun x => { x with staging := { x.staging with a := { Staging.reset with claim := some (.manager .a) } } }
     s.mbxTakes 3 0x0200 ∧ (s.st 3).phase = .run ∧ ((s.pl 3).staging.get .a).managed = true) ∧
    ((session 1).mbxTakes 3 0x0200 ∧ ((session 1).st 3).phase ≠ .run) ∧
    ((session 1).mbxTakes 3 0x0210 ∧ ((session 1).mb 3).session = 1 ∧ (session 1).sessionPlate 3 = some .a ∧ (session 1).inhibited = false ∧
      (session 1).seqFull 3 = false) ∧
    ((session 2).mbxTakes 3 0x0220 ∧ ((session 2).mb 3).session = 2) ∧
    (let s := session 2
     s.sessionPlate 3 = some .a ∧ (s.st 3).tbl.stagingWin = some 2 ∧ (s.polOf 3).plate.hostArm = false ∧
     (s.copyOutcome 3 .a 2 [] true).1 ≠ stSuccess) := by
  refine ⟨?_, ?_, ?_, ?_, ?_, ?_⟩ <;> decide +kernel

theorem witness_HostMessagesArePostedInSequence : host.mbxTakes 3 0x8004 ∧ host.dev.ccAbsent = false ∧ host.mbxTakes 3 0x8008 := by
  decide +kernel

/-- Manager A's shadow of host 3's table with CHn_STN window 1's access word changed. -/
def shadowed (acc : Word) : State := host.modStn 3 fun x =>
  { x with shadow := { x.shadow with a := { tbl := { tbl with winAcc := vset tbl.winAcc 1 acc }, marks := [0x418] } } }

/-- A permission taken away is committed; a treatment that no code names is not. -/
theorem witness_ShadowCommitOnlyTightens :
    (∀ m ∈ [Mgr.a, .b], host.reaches m (chanPage 3 1 + 0x020) ∧ host.reaches m (chanPage 127 1 + 0x020)) ∧
    (let s := shadowed 0xFEF3
     judge (s.st 3).tbl (((s.st 3).shadow.get .a).apply (s.st 3).tbl) (s.vfSize 3) ((s.st 3).shadow.get .a).marks = .committed) ∧
    (let s := shadowed 0xFEF7
     judge (s.st 3).tbl (((s.st 3).shadow.get .a).apply (s.st 3).tbl) (s.vfSize 3) ((s.st 3).shadow.get .a).marks ≠ .committed) := by
  decide +kernel

theorem witness_RecoveryPhaseRequestsAreJudged : host.reaches .a (chanPage 3 1 + 0x048) ∧ host.reaches .b (chanPage 127 1 + 0x048) ∧
    (let s := { host with pol := vmod host.pol 3 fun p => { p with recEntry := true } }
     s.reaches .a (chanPage 3 1 + 0x048) ∧ (s.st 3).phase = .run ∧ (s.polOf 3).recEntry = true ∧ s.isSecondary .a = false) ∧
    ¬((host.polOf 3).recEntry = true) ∧ ((host.modStn 3 fun x => { x with phase := .recovery }).st 3).phase = .recovery := by
  decide +kernel

/-- Window 31's program bucket: 4 tokens, one per 10 us; it holds `tokens`. -/
def bucketed (tokens : Nat) : State := host.modStn 3 fun x =>
  { x with
    tbl := { tbl with pbkt := vset tbl.pbkt 31 0x80010004 }
    pTok := vset x.pTok 31 { tokens := BitVec.ofNat 16 tokens, start := some 0 } }

/-- The refill that leaves the bucket short and the one that fills it; a full bucket, a bucket OFF, and one whose timer does not run. -/
theorem witness_BucketGainsOneToken :
    (∀ k ∈ [0, 2, 3], let s := bucketed k
      ((s.st 3).bucket 31 false).start = some 0 ∧ bktOn ((s.st 3).tbl.bucketImg 31 false) = true ∧
      ((s.st 3).bucket 31 false).tokens.toNat < bktDepth ((s.st 3).tbl.bucketImg 31 false)) ∧
    (let s := bucketed 4
     bktDepth ((s.st 3).tbl.bucketImg 31 false) ≤ ((s.st 3).bucket 31 false).tokens.toNat) ∧
    bktOn ((host.st 3).tbl.bucketImg 0 true) = false ∧ ((host.st 3).bucket 0 true).start = none := by decide +kernel

/-- A flash of 16 MiB that discovery accepts. -/
def report : DiscReport :=
  { id := [0xEF, 0x40, 0x18], sfdp := [0x53, 0x46, 0x44, 0x50], major := 1, minor := 6, density := 2 ^ 24, pageSize := 256, erase4 := true,
    protoOk := true, entryOk := true, xspi := true, passDummy := 8, maxMhz := 100, progUs := 700, erase4Ms := 50, erase64Ms := 150 }

/-- FP 3 in a state, with a program of the host's running. -/
def flash (state : BitVec 3) (hostOp : Bool) : State := host.modFp 3 fun x =>
  { x with
    state := state
    localOp := some { erase := false, host := hostOp, start := 0, bound := 1000 } }

theorem witness_FlashPortIsDiscoveredAndWatched : (3 : Fin 128).1 = (3 : Fin 64).1 ∧
    (held.reaches .a (fpPage 3 + 0x06C) ∧ (held.ch 3).state = .held) ∧ (host.reaches .a (fpPage 3 + 0x06C) ∧ (host.ch 3).state ≠ .held) ∧
    (((flash 1 true).fp 3).state = 1 ∧ (flash 1 true).discoveryFault 3 report = 0) ∧
    ((flash 1 true).discoveryFault 3 { report with density := 2 ^ 24 + 1 } ≠ 0) ∧
    (∃ o, ((flash 2 true).fp 3).localOp = some o ∧ o.host = true) ∧ (∃ o, ((flash 2 false).fp 3).localOp = some o ∧ o.host = false) :=
  ⟨rfl, by decide +kernel, by decide +kernel, by decide +kernel, by decide +kernel, ⟨_, rfl, rfl⟩, ⟨_, rfl, rfl⟩⟩

/-- Directory entry 0 in a state, two leaves long; `bad` are its bad leaves. -/
def entry (state : DirState) (bad : List Nat) : State := held.modDir 0 fun e =>
  { e with
    state := state
    leaves := 2
    family := [1]
    root := [2]
    badLeaves := bad }

theorem witness_TakeEndsResidentOrFree : ((entry .taking []).dirE 0).state = .taking ∧ (entry .taking []).dev.ccAbsent = false ∧
    (entry .taking []).claimed 0 = false := by decide +kernel

theorem slice_left_of (xs ys : List Byte) (k n : Nat) (h : k + n ≤ xs.length) : slice (xs ++ ys) k n = slice xs k n := by
  refine List.map_congr_left fun i hi => ?_
  have hi : i < n := List.mem_range.mp hi
  simp only [List.getD_eq_getElem?_getD]
  rw [List.getElem?_append_left (by omega)]

theorem slice_right_of (xs ys : List Byte) (k n : Nat) (hk : xs.length = k) (hn : ys.length = n) : slice (xs ++ ys) k n = ys := by
  subst hk hn
  refine List.ext_getElem (by simp [slice]) ?_
  intro i h1 h2
  simp [slice, List.getD_eq_getElem?_getD, List.getElem?_append_right, h2]

/-- The manifest of an image without bytes: its one leaf is all 0xFF. -/
def oneLeaf : List Byte := List.replicate 256 0 ++ (Config.sha384 (List.replicate 4096 0xFF)).toList

theorem oneLeaf_header (off n : Nat) (h : off + n ≤ 256) : leAt oneLeaf off n = leAt (List.replicate 256 0) off n := by
  unfold leAt oneLeaf
  rw [slice_left_of _ _ _ _ (by rw [List.length_replicate]; exact h)]

theorem oneLeaf_good_of (d : List Byte) : leafGood oneLeaf none 0 d = true := by
  have e : manLeaf oneLeaf 0 = (Config.sha384 (List.replicate 4096 0xFF)).toList :=
    slice_right_of _ _ _ _ (List.length_replicate ..) (Vector.length_toList ..)
  have f : manEncrypted oneLeaf = false := by
    unfold manEncrypted
    rw [oneLeaf_header _ _ (by omega)]
    decide +kernel
  have l : manLeafLen oneLeaf 0 = 0 := by
    unfold manLeafLen manImageLen
    rw [oneLeaf_header _ _ (by omega)]
    decide +kernel
  have p : leafPlain oneLeaf none 0 d = List.replicate 4096 0xFF := by
    unfold leafPlain
    simp only [l, f, List.take_zero, Bool.false_eq_true, if_false, List.nil_append, List.take_replicate, Nat.min_self]
  unfold leafGood
  rw [p, e]
  exact decide_eq_true rfl

/-- The pool holds the pair of `entry` and serves it. -/
def pooled (s : State) : State := { s with pool := { s.pool with
  objs := [{ family := [1], root := [2], man := [], img := [], chans := [0, 1, 2], badLeaves := [] }]
  chans := Vector.replicate 16 { PoolChan.reset with
    state := 2
    blocks := 100
    spare := 5 } } }

/-- Plate A of host 3 lies in local flash, in a state. -/
def localPlate (st : PState) (s : State) : State := s.modPlt 3 fun x => { x with
  table :=
    { c0 := .valid 1 { PTable.empty with
        a := { Plate.empty with
          state := st
          src := 2
          family := [1]
          root := [2] } }
      c1 := .zero }
  localMan := { x.localMan with a := oneLeaf } }

/-- Entry 0 is DAMAGED: its table has failed, and the pool holds its pair. -/
def tableLost : State := (pooled (entry .damaged [])).modDir 0 fun e => { e with tableBad := true }

/-- The last leaf good and known bad, without a source; the manifest's leaf read again from its source; local plates; the copy switch of
a DAMAGED entry whose table failed and of a RELOCATING one. The condition that a local leaf fails rests on a digest. -/
theorem witness_LeavesAreRecheckedAndRepaired : held.dev.ccAbsent = false ∧
    (∀ st ∈ [DirState.resident, .damaged], ∀ bad ∈ [[], [1]], let s := entry st bad
      ((s.dirE 0).state = .resident ∨ (s.dirE 0).state = .damaged) ∧ 1 < (s.dirE 0).leaves.toNat ∧ s.imm.pause = false) ∧
    1 ∉ ((entry .resident []).dirE 0).badLeaves ∧ 1 ∈ ((entry .damaged [1]).dirE 0).badLeaves ∧
    (∀ d, leafGood oneLeaf none 0 d = true) ∧
    (let s := localPlate .staged held
     ((s.plates 3).get .a).src = 2 ∧ ((s.plates 3).get .a).state = .staged ∧ s.hostOwns 3 = false ∧ s.waitsLocal 3 .a = false ∧
     badLocalLeaf ((s.pl 3).localMan.get .a) (s.plateKey ((s.pl 3).localMan.get .a)) [] = none ∧ s.noCommit = false ∧ s.seqFull 3 = false) ∧
    (let s := tableLost
     s.sourceOf [1] [2] = some .pool ∧ s.poolFailed = false ∧ (∀ m, (s.ch m).bound = none) ∧ (s.dirE 0).state = .damaged ∧
     (s.dirE 0).tableBad = true ∧ extentsOf (s.dirE 0).leaves.toNat ≤ s.freeExtents ∧ manLeaves (s.dirE 0).man = 0) ∧
    (let s := (pooled (entry .relocating [])).modDir 0 fun e => { e with lost := true }
     s.sourceOf [1] [2] = some .pool ∧ s.poolFailed = false ∧ (∀ m, (s.ch m).bound = none) ∧ (s.dirE 0).state = .relocating ∧
     s.extentsHeld (fun _ => true) ≤ s.totalExtents ∧ s.relocFits 0 = true ∧ s.lostOrder.find? (fun j => s.relocFits j) = some 0) :=
  ⟨by decide +kernel, by decide +kernel, by decide +kernel, by decide +kernel, oneLeaf_good_of, by decide +kernel, by decide +kernel,
    by decide +kernel⟩

/-- Pool channel 15 in a state. -/
def poolAt (state : BitVec 3) : State := (pooled held).modPool 15 fun x => { x with state := state }

theorem witness_PoolChannelsLeaveAndReturn :
    (∀ st ∈ [1, 2, 4], let s := poolAt (BitVec.ofNat 3 st)
      s.poolOn 15 = true ∧ ((vget s.pool.chans 15).state = 1 ∨ (vget s.pool.chans 15).state = 2 ∨ (vget s.pool.chans 15).state = 4)) ∧
    ((poolAt 2).reaches .b (polPage 15 + 0x050) ∧ 4 ≤ (poolAt 2).poolIn ∧ (vget (poolAt 3).pool.chans 15).state = 3) ∧
    (let s := held.modPool 15 fun x => { x with state := 2 }
     (vget s.pool.chans 15).state = 2 ∧ s.poolIn < 4 ∧ s.inhibited = false) ∧
    (let s := pooled (localPlate .staged held)
     let s := s.modPlt 3 fun x => { x with table :=
       { c0 := .valid 1 { PTable.empty with
           a := { Plate.empty with
             state := .staged
             src := 1
             family := [1]
             root := [2] } }
         c1 := .zero } }
     (s.poolObj [1] [2]).isSome = true ∧ s.noCommit = false ∧ s.seqFull 3 = false ∧ ((s.plates 3).get .a).state.canBad = true ∧
     ((s.plates 3).get .a).src = 1 ∧ ((s.plates 3).get .a).family = [1] ∧ ((s.plates 3).get .a).root = [2]) := by decide +kernel

theorem witness_ImageUnitsAndCachesAreKept :
    (let s := { host with imm := { host.imm with chIn := 0xFF } }
     s.imm.chIn.getLsbD 7 = true) ∧
    (let s := { pooled (host.modAreas 3 fun a => { a with dirty := [(15, 7)] }) with keys := { host.keys with keepSalt := some 1 } }
     SMap.get? (s.area 3).dirty 15 = some 7 ∧ s.keys.keepSalt = some 1 ∧ s.poolWrites = true) ∧
    host.reaches .a 0x01504C ∧ host.reaches .b 0x016050 ∧ ((entry .damaged []).dirE 0).state = .damaged := by decide +kernel

/-- The control cluster is absent. -/
def absent (s : State) : State := { s with dev := { s.dev with ccAbsent := true } }

/-- The device is in SAFE_HOLD. -/
def safeHold (s : State) : State := { s with dev := { s.dev with state := .safeHold } }

/-- The OWNER region has been finalised. -/
def owned (s : State) : State := { s with otp := { s.otp with regions := vset s.otp.regions 4 .good } }

/-- The gate's answers to a command of manager A whose entry has been consumed: does it wait, and is it refused. -/
def gated (c : Instr) (s : State) : Bool × Option Status :=
  match c.gate with
  | some (src, g) => ((carrying c s).waits src g, (carrying c s).gateStatus src g)
  | none => (false, none)

/-- A command that waits for the control cluster, one whose entry has not been consumed, and commands refused for the device state, the
queue, the version and a buffer that no DMA reaches. -/
theorem witness_OvdelCommandsMeetTheirTable :
    (gated (.chRelease io 3 ⟨none, false⟩) (absent host)).1 = true ∧ taken (.chRelease io 3 ⟨none, false⟩) host = false ∧
    gated (.chRelease io 3 ⟨none, false⟩) (safeHold host) = (false, some stNotPermitted) ∧
    gated (.chHold adm 3 none) host = (false, some stInvalidOpcode) ∧
    gated (.chRestart io 3 none) (host.modRing .a fun r => { r with version := 0x0201 }) = (false, some stInvalidOpcode) ∧
    (let s := host.modView .a fun v => { v with linkUp := false }
     gated (.random io 16) s = (false, none) ∧ s.dmaUp .a = false ∧ s.otp.busy = none) := by decide +kernel

/-- Each of the ten forms comes to be judged, on the first channel and on the last. -/
theorem orders_all_of (o : Order) : ∀ n ∈ [(0 : Fin 128), 127], ∀ c ∈ orderForms io (BitVec.ofNat 16 n.1) n none false o,
    (carrying c host).orders io (BitVec.ofNat 16 n.1) n o c := by
  have taken_all : ∀ n ∈ [(0 : Fin 128), 127], ∀ c ∈ orderForms io (BitVec.ofNat 16 n.1) n none false o, taken c (carrying c host) = true := by
    cases o <;> decide +kernel
  have reach_all : ∀ n ∈ [(0 : Fin 128), 127], ∀ c ∈ orderForms io (BitVec.ofNat 16 n.1) n none false o,
      (carrying c host).reaches .a (chanPage n 0 + 0x060) ∧ (carrying c host).dev.ccAbsent = false ∧
      (BitVec.ofNat 16 n.1 : Half).toNat = n.1 ∧ (carrying c host).chanOn n = true := by cases o <;> decide +kernel
  intro n hn c hc
  have h := reach_all n hn c hc
  exact ⟨allows_of (taken_all n hn c hc), fun _ => ⟨h.1, fun _ => h.2.1⟩, h.2.2⟩

/-- Every order may be given, with and without a weaker rival; a stronger rival wins, and SAFE_HOLD refuses. -/
theorem witness_HoldQuarantineAndRestartOrdersStopTheHost :
    (∀ o ∈ [Order.hold, .restart, .quarantine], host.mayOrder io o none false ∧ host.mayOrder io o (some .readmit) true) ∧
    ¬host.mayOrder io .hold (some .quarantine) false ∧ ¬(safeHold host).mayOrder io .hold none false ∧
    (let s := held.modCtl 3 fun c => { c with holdWait := true }
     (s.ch 3).holdWait = true ∧ s.localBusy 3 = false ∧ (s.ch 3).seq = none) := by decide +kernel

/-- Host 3 held for its restart, its sink closed. -/
def restarting : State := held.modCtl 3 fun c =>
  { c with
    kind := .sequence
    seq := some .restart }

theorem witness_ReleaseOrdersLeadToTheReleaseInstant :
    (∀ o ∈ [Order.release, .readmit], (owned held).mayOrder io o none false) ∧ ¬(owned held).mayOrder io .release none true ∧
    ((owned held).tamper.burnt = false ∧ (owned held).unowned = false ∧ ((owned held).ch 3).state = .held ∧ ((owned held).ch 3).kind = .manager) ∧
    ((restarting.ch 3).state = .held ∧ (restarting.ch 3).kind = .sequence ∧ (restarting.ch 3).sink = true ∧ restarting.dev.state = .running ∧
      (restarting.ch 3).seq = some .restart) ∧
    (let s := held.modCtl 3 fun c =>
       { c with
         state := .taking
         bound := some 255 }
     (s.ch 3).state = .taking ∧ (s.ch 3).sel = none ∧ (s.pl 3).arming = none ∧ (s.ch 3).bound.isSome = true ∧ s.tamper.burnt = false) ∧
    (let u := ready.until (ready.releaseDue 3)
     u.mayRelease 3 = true ∧ u.limiterFull = false ∧ u.nextGrant = some 3) := by decide +kernel

/-- Line 15 is a restart line with a pulse of 100 ms, and a step of it is under way. -/
def lined (step : TwStep) : State :=
  { host with
    twl := List.replicate 15 0 ++ [0x191]
    plat := { host.plat with lines := vset host.plat.lines 15 step } }

/-- Host 3 held in the power cycle of line 15, with a timeout. -/
def cycled (t : Option Nat) (pg : Bool) : State := (lined (.sinking 0 [3])).modCtl 3 fun c =>
  { c with
    state := .held
    kind := .sequence
    sink := true
    seq := some (.power 15)
    pgTmoAt := t
    pgOk := pg }

theorem witness_LinesRanksAndStatus :
    (host.reaches .a 0x00D048 ∧ (0x10F : Word).getLsbD 8 = true ∧ field (0x10F : Word).toNat 3 0 = (15 : Fin 16).1 ∧ host.lineRole 15 ≠ 1) ∧
    ((lined .idle).reaches .a 0x00D048 ∧ (lined .idle).lineRole 15 = 1 ∧ (lined .idle).dev.state = .running ∧
      (lined .idle).lineAt 15 = .idle) ∧
    (let s := { lined .idle with prof := vmod host.prof 3 fun p =>
       { p with
         rgrpEn := true
         rgrp := 15 } }
     (s.profOf 3).rgrpEn = true ∧ (s.profOf 3).rgrp = 15 ∧ s.chanOn 3 = true ∧ (s.ch 3).state.live = true) ∧
    (lined (.sinking 0 [3])).lineAt 15 ≠ .idle ∧ host.reaches .a 0x00D044 ∧
    (vget (cycled none true).plat.lines 15 = .sinking 0 [3] ∧ ((cycled none true).ch 3).state = .held ∧
      ((cycled none true).ch 3).seq = some (.power 15)) ∧
    (((cycled (some 9) false).ch 3).pgTmoAt = some 9 ∧ ((cycled (some 9) false).ch 3).seq = some (.power 15) ∧
      ((cycled (some 9) false).ch 3).state = .held ∧ ((cycled (some 9) false).ch 3).pgOk = false) ∧
    (host.dev.state = .running ∧ host.plat.ranksBegun = false) ∧
    (let s := { (ready.modCtl 3 fun c => { c with ranked := true }) with
       prof := vmod host.prof 3 fun p =>
         { p with
           enabled := true
           rank := 127 }
       plat := { ready.plat with
         ranksActive := true
         nextRank := 127 } }
     s.dev.state = .running ∧ s.plat.ranksActive = true ∧ (s.ch 3).ranked = true ∧ (s.ch 3).state = .ready ∧
     s.ranksPresent.find? (fun r => s.plat.nextRank ≤ r) = some (s.profOf 3).rank) ∧
    (let s := { host with plat := { host.plat with failUntil := some 5 } }
     s.plat.failUntil = some 5) ∧
    (State.reset.dev.state = .por ∧ (127 : Fin 128).1 / 16 = (7 : Fin 8).1) ∧ host.dev.state ≠ .por := by
  refine ⟨?_, ?_, ?_, ?_, ?_, ?_, ?_, ?_, ?_, ?_, ?_, ?_⟩ <;> decide +kernel

theorem witness_LinesRanksAndStatus_status : (carrying (.chStatus io 127) live).allows (.chStatus io 127) ∧
    (127 : Half).toNat = (127 : Fin 128).1 ∧ (carrying (.chStatus io 127) live).chanOn 127 = true :=
  ⟨allows_of (by decide +kernel), by decide +kernel⟩

/-- An arming write with ENABLE, COUNTED and VIOL_N = 1: of a window that is valid, and of host 3's at reset, which is not. -/
theorem witness_ChannelWatchdogExpiresFreezesAndThaws :
    (let s := watched 0
     (s.wd 3).armed = true ∧ (s.wd 3).counting = true ∧ (s.wd 3).frozen = none ∧ s.dev.clockHeld = false ∧ s.reaches .a (chanPage 3 2 + 0x040) ∧
     s.reaches .a (chanPage 3 2 + 0x044) ∧ s.reaches .a (chanPage 3 2 + 0x084)) ∧
    (host.dev.clockHeld = false ∧ (host.wd 3).armed = false ∧ (host.wd 3).auto = false) ∧
    (let s := (watched 0).modWdg 3 fun w => { w with counting := false }
     s.dev.clockHeld = false ∧ (s.wd 3).armed = true ∧ (s.wd 3).frozen = none ∧ (s.wd 3).counting = false ∧ (s.wd 3).clkFault = false) ∧
    (let s := host.modWdg 3 fun w => { w with close_ := 1 }
     (0x000A0019 : Word).getLsbD 0 = true ∧ (0x000A0018 : Word).getLsbD 0 = false ∧ (s.wd 3).auto = false ∧ (s.wd 3).armed = false ∧
     s.armRefused 3 { s.wd 3 with counted := true } = false ∧ host.armRefused 3 { host.wd 3 with counted := true } = true) ∧
    (let s := { watched 0 with pol := vmod host.pol 3 fun p => { p with wdg := { p.wdg with debug := true } } }
     (s.polOf 3).wdg.debug = true ∧ s.isSecondary .a = false ∧ (s.wd 3).counting = true ∧ (s.wd 3).frozen = none) ∧
    (((watched 0).modWdg 3 fun w => { w with frozen := some 5 }).wd 3).frozen = some 5 ∧
    (let s := host.modWdg 3 fun w => { w with shown := { w.shown with consec := 15 } }
     (s.ch 3).released = true ∧ (s.wd 3).shown.consec ≠ 0) := by
  refine ⟨?_, ?_, ?_, ?_, ?_, ?_, ?_⟩ <;> decide +kernel

/-- Manager A's watchdog armed, window [1, 2) units, at tick 1024 or later; `lost` as given. -/
def managed (lost : Bool) : State :=
  { (host.modMwd .a fun w =>
      { w with
        armed := true
        lost := lost
        open_ := 1
        close_ := 2
        ref := 1
        chal := 7
        seq := 9
        tokenLo := (simpleToken 7 9).truncate 32 }) with now := 1024000 }

/-- The high word of the token that is asked for, inside the window and, for a lost manager, at any time; a wrong one. -/
theorem witness_ManagerWatchdogJudgesItsManager :
    (∀ lost ∈ [true, false], let s := managed lost; let w := s.mwd.get .a
      s.reaches .a 0x00C060 ∧ s.reaches .a 0x00C040 ∧ s.reaches .a 0x00C044 ∧ s.reaches .a 0x00C088 ∧ w.armed = true ∧ w.lost = lost ∧
      (BitVec.ofNat 32 ((simpleToken 7 9).toNat / 2 ^ 32) ++ w.tokenLo : DWord) = s.mwdTokenFor .a ∧
      (0 : Word) ++ w.tokenLo ≠ s.mwdTokenFor .a ∧
      w.open_.toNat ≤ countAt (s.now / 1000 + 1) w.ref w.prescale.toNat ∧ countAt (s.now / 1000 + 1) w.ref w.prescale.toNat < w.close_.toNat) ∧
    (host.reaches .b 0x00C060 ∧ (host.mwd.get .b).armed = false ∧ (0x29 : Word).getLsbD 0 = true ∧
      windowOk (host.mwd.get .b).open_.toNat (host.mwd.get .b).close_.toNat = false ∧ windowOk 0 1 = true) ∧
    ((managed false).mgrOn .a = true ∧ (managed false).dev.clockHeld = false) ∧ host.dev.state = .running ∧
    (let s := { host with dcfg := { host.dcfg with primary := 1 } }
     s.isSecondary .b = true ∧ s.isSecondary .a = false) := by decide +kernel

theorem witness_InternalLadderTakesItsStep :
    (host.clusterRuns = true ∧ host.intw.halted = false ∧ host.dev.state ≠ .standby ∧ host.dev.state ≠ .por) ∧
    (let j : BurinJob := ⟨0, .internal, 0, 0, 0, false, 0, 0, 0, 0, 0, 0, 0, 0, [], [], false, 0, 0, 0⟩
     ((host.modCore 3 fun c => { c with job := some j }).core 3).job.isSome = true) ∧
    (State.reset.dev.state ≠ .shadow ∧ ({ host with dev := { host.dev with state := .shadow } }).dev.state = .shadow) ∧
    (let s := host.modRing .a fun r => { r with sqs := [(0, sq 0 1), (1, { sq 1 1 with tail := 2 })] }
     (s.ring .a).sqs.any (s.takesPart .a) = true) ∧
    ({ host with dev := { host.dev with clockHeld := true } }).dev.clockHeld = true ∧ (absent host).dev.ccAbsent = true := by decide +kernel

theorem witness_PlateCommandsStageCommitEraseAndArm :
    ((3 : Half).toNat = (3 : Fin 128).1 ∧ host.chanOn 3 = true ∧ (∀ p : PlateId, plateOf p.code = some p) ∧ host.poolUnder13 io 3 .a = false ∧
      host.isSecondary io.mgr = false ∧ (1 : Byte).toNat ≤ 1) ∧
    (∀ c ∈ [Instr.imageStage io 3 2 1 1048575 [0], .imageCommit io 3 0 ⟨none, 0⟩, .plateErase io 3 1, .plateStatus io 3 303,
      .advanceMinVersion io 3 [] 1, .plateArmProof io 3 0], (carrying c (owned held)).allows c) ∧
    ((owned held).unowned = false ∧ (owned held).tamper.burnt = false) ∧
    (slice [] 0 16 = (({ host with pol := vmod host.pol 3 fun p => { p with plate := { p.plate with family := List.replicate 16 0 } } }).polOf
      3).plate.family) ∧
    ((onProof.pl 3).deadline = some 1000 ∧ onProof.onProof 3 = true ∧ (onProof.plates 3).onProof = some .a ∧
      (onProof.until 1000).acceptWaits 3 = false ∧ onProof.noCommit = false ∧ onProof.seqFull 3 = false ∧ (onProof.ch 3).state.live = true ∧
      (onProof.ch 3).sink = false) :=
  ⟨⟨by decide +kernel, by decide +kernel, fun p => by cases p <;> rfl, by decide +kernel⟩, allows_all_of (by decide +kernel),
    by decide +kernel⟩

/-- The device firmware of plate B is on proof. -/
def provesFw : State := { host with devfw := { host.devfw with
  table := { c0 := .valid 1 { PTable.empty with
    a := { Plate.empty with state := .active }
    b := { Plate.empty with state := .proof } }, c1 := .zero }
  running := .b
  onProof := true
  deadline := some 60 } }

theorem witness_DeviceFirmwareIsStagedProvedAndAccepted :
    (∀ c ∈ [Instr.deviceFwStage adm 1048575 [0], .deviceFwCommit io true], (carrying c host).allows c) ∧ host.isSecondary io.mgr = false ∧
    (carrying (.deviceFwAccept io) provesFw).allows (.deviceFwAccept io) ∧
    (provesFw.fwTable.onProof = some .b ∧ provesFw.devfw.onProof = true ∧ provesFw.inhibited = false ∧
      provesFw.dev.ccAbsent = false ∧ provesFw.devfw.deadline = some 60) :=
  ⟨allows_all_of (by decide +kernel), by decide +kernel, allows_of (by decide +kernel), by decide +kernel⟩

/-- A bundle without sections. -/
def emptyBundle : Bundle := ⟨2, 1, [], 0, [], none, [], ⟨[], [], [], []⟩⟩

/-- An empty bundle; a change of CHn_STN's first word of window 1, and one of a register that is no part of the table. -/
theorem witness_PolicyAndConfigurationTakeEffect :
    (let c := Instr.policyLoad io ⟨emptyBundle, 0⟩
     (carrying c (owned host)).allows c ∧ (owned host).unowned = false ∧ emptyBundle.body.length ≤ 1048576) ∧
    (∀ c ∈ [Instr.stencilTighten io 3 true 0 [⟨0x418, 0x10, 0⟩] false, .configWrite io [], .configRead io 12632], (carrying c host).allows c) ∧
    (0x0201 ≤ host.version io.mgr ∧ host.inhibited = false ∧
      badTighten 0 [⟨0x418, 0x10, 0⟩] = none ∧ badTighten 0 [⟨0x41C + 0x700, 0x10, 0⟩] ≠ none) ∧
    host.isSecondary io.mgr = false :=
  ⟨⟨allows_of (by decide +kernel), by decide +kernel⟩, allows_all_of (by decide +kernel), by decide +kernel⟩

/-- The responder is up: keys ready, endpoint 7 at its endpoint negotiated, with sessions 1 (open) and 2 (established). -/
def spoken : State :=
  { (host.modEp 7 fun e =>
      { e with
        version := 12
        versioned := true
        caps := true
        algs := true
        sessions := [{ id := 1, established := false, lastMsg := 0 }]
        chunkOut := [1]
        chunkOutSeq := 0 }).modEp 6 fun e =>
      { e with
        algs := true
        sessions := [{ id := 2, established := true, lastMsg := 0 }] } with
    att := { host.att with
      idValid := true
      keysReady := true }
    drbg := { host.drbg with keyState := 1 } }

/-- CHALLENGE's summaries, an index of a block, a certificate offset and both answers of GET_MEASUREMENTS rest on the state alone; that
the certificate chain reaches beyond the offset rests on the certificates, which are opaque. -/
theorem witness_SpdmResponderAnswersEachRequest :
    (spoken.spdmUp 7 = true ∧ spoken.spdmUp 6 = true ∧ host.spdmUp 7 = true) ∧ host.attests = false ∧ spoken.attests = true ∧
    ((spoken.ep 7).versioned = true ∧ (spoken.ep 7).caps = true ∧ (spoken.ep 7).algs = true) ∧
    (let s := spoken.modEp 7 fun e => { e with algs := false }
     (s.ep 7).versioned = true ∧ (s.ep 7).algs = false) ∧
    (spoken.sessionCount < 8 ∧ (spoken.ep 7).sessions.length < 2 ∧ spoken.drbg.keyState = 1) ∧
    ((spoken.ep 7).session? 1 = some ⟨1, false, 0⟩ ∧ (spoken.ep 6).session? 2 = some ⟨2, true, 0⟩) ∧
    ((spoken.ep 7).chunkIn.length + 4096 ≤ 65536 ∧ (spoken.ep 7).chunkOut ≠ [] ∧ 0 = (spoken.ep 7).chunkOutSeq) ∧
    (1 : Fin 8).1 = mgrNum .b ∧
    (let s := { spoken with part := { spoken.part with hosts := 64 } }
     s.measAll.isEmpty = false ∧ measSize s.measAll.length true ≤ 4096) ∧
    (4096 < measSize spoken.measAll.length false ∧ (spoken.measBlock 143).isSome = true) := by
  refine ⟨?_, ?_, ?_, ?_, ?_, ?_, ?_, ?_, ?_, ?_, ?_⟩ <;> decide +kernel

/-- An Ovdel request of CID 5 with an opcode for channel 127. -/
def request (opc : Nat) : List Byte :=
  leBytes 2 opc ++ [0x01, 0] ++ leBytes 2 5 ++ leBytes 2 127 ++ List.replicate 56 0

theorem witness_MeasurementsTracingAndObserversDoTheirPart :
    (host.reaches .a 0x00E0F0 ∧ (0x80000303 : Word).getLsbD 31 = true ∧ field (0x80000303 : Word).toNat 6 0 = (3 : Fin 128).1 ∧
      4 + field (0x80000303 : Word).toNat 9 8 = (7 : Fin 8).1 ∧ (host.ch 3).released = true ∧ (held.ch 3).released = false ∧
      host.reaches .a 0x00E06C) ∧
    (let s := { host.log 1 3 [] with led := { host.led with ready := true } }
     s.mayWrite = true ∧ s.trace.queue.length = 1) ∧
    (∀ c ∈ [Instr.quote io (List.replicate 32 0) 65536, .tracingRead io 1 true false 128], (carrying c host).allows c) ∧
    (spoken.attests = true ∧ spoken.inhibited = false ∧ spoken.trace.lost = 0) ∧
    (let e := entryOf (request 0x0102)
     e.opc = 0x0102 ∧ e.cid = 5 ∧ host.mctpUp 3 e.opc = true ∧ (3 : Fin 8).1 < 4 ∧ host.mctpGate 3 e.opc = none ∧ host.selChan e.ch = some 127) ∧
    (host.mctpUp 3 0x0300 = true ∧ (host.mctpGate 3 0x0300).isSome = true) ∧ host.portsUp = true ∧ State.reset.portsUp = false ∧ host.mgrOn .b = true :=
  ⟨by decide +kernel, by decide +kernel, allows_all_of (by decide +kernel), by decide +kernel⟩

/-- Manager A's I/O queue 1 with `k` entries waiting at position `cons`, nothing in flight. -/
def waiting (cons k : Nat) : State := host.modRing .a fun r =>
  { r with sqs := [(0, { sq 0 1 with flight := [] }), (1,
    { sq 1 1 with
      cons := cons
      tail := (cons + k) % 16
      head := cons
      flight := [] })] }

/-- The doorbells of queue 255, whose page is the last; positions at, below and beyond the depth, and behind CONS and HEAD. -/
theorem witness_RingHalvesAndDoorbellsActAsWritten :
    (host.reaches .a 0x009040 ∧ host.reaches .b 0x009040 ∧ (host.ring .a).en = true ∧ (host.ring .b).en = false) ∧
    (let s := host.modRing .b fun r =>
       { r with
         asqDepth := 4096
         acqDepth := 16 }
     (∀ d ∈ [(s.ring .b).asqDepth.toNat, (s.ring .b).acqDepth.toNat], 16 ≤ d ∧ d ≤ 4096) ∧ (s.ring .b).asq.toNat % 4096 = 0) ∧
    (host.mgrOn .a = true ∧ ({ host with part := { host.part with pcie1 := false } }).mgrOn .b = false) ∧
    (host.reaches .a (0x400000 + 8 * 255) ∧ host.reaches .a (0x400004 + 8 * 255) ∧ SMap.get? (host.ring .a).sqs 255 = none ∧
      SMap.get? (host.ring .a).cqs 255 = none) ∧
    (let s := waiting 2 4
     ∃ x, SMap.get? (s.ring .a).sqs 1 = some x ∧ x.depth ≤ field (16 : Word).toNat 12 0 ∧ field (15 : Word).toNat 12 0 < x.depth ∧
       (15 : Word).getLsbD 31 = false ∧ (0x80000003 : Word).getLsbD 31 = true ∧ ringDist x.depth 5 x.head < ringDist x.depth x.tail x.head ∧
       ringDist x.depth 1 x.head > ringDist x.depth x.cons x.head) ∧
    (∃ x, SMap.get? (host.ring .a).cqs 1 = some x ∧ x.depth ≤ field (16 : Word).toNat 12 0 ∧
       ringDist x.depth x.tail x.head < ringDist x.depth 1 x.head ∧ ¬ringDist x.depth x.tail x.head < ringDist x.depth 0 x.head) :=
  ⟨by decide +kernel, by decide +kernel, by decide +kernel, by decide +kernel, ⟨_, rfl, by decide +kernel⟩, ⟨_, rfl, by decide +kernel⟩⟩

/-- An entry of `units` units with CID 5 whose phase bits are set. -/
def posted (opc units : Nat) : List Byte :=
  leBytes 2 opc ++ leBytes 2 (units - 1) ++ leBytes 2 5 ++ List.replicate 57 0 ++ [0x80] ++
    (List.replicate (units - 1) (List.replicate 63 (0 : Byte) ++ [0x80])).flatten

/-- Queue 1's own state of `waiting`. -/
def waitingSq (cons k : Nat) : Sq :=
  { sq 1 1 with
    cons := cons
    tail := (cons + k) % 16
    head := cons
    flight := [] }

theorem witness_QueuesAreConsumedAndAnswered_entries :
    (let s := waiting 0 2
     SMap.get? (s.ring .a).sqs 1 = some (waitingSq 0 2) ∧ s.mgrOn .a = true ∧ s.consumes { mgr := .a, sq := 1, cid := 0 } = true ∧
     s.dev.ccAbsent = false ∧ s.dmaUp .a = true ∧ (s.modView .a fun v => { v with linkUp := false }).dmaUp .a = false ∧
     knownOpc 0x0100 = true ∧ knownOpc 0x0106 = false ∧ s.pickQueue = some (.a, 1) ∧ (s.ring .a).credit (waitingSq 0 2) = true ∧ s.underLimit .a = true ∧
     (entryOf (posted 0x0100 2)).opc ≠ 0 ∧ (waitingSq 0 2).posted (posted 0x0100 2) 0 2 = true ∧
     (waitingSq 0 2).posted (posted 0x0100 1) 0 2 = false ∧ (waitingSq 0 2).fenceOk true = true ∧ (entryOf (posted 0x0100 2)).units = 2) ∧
    (let s := waiting 15 1
     SMap.get? (s.ring .a).sqs 1 = some (waitingSq 15 1) ∧ s.pickQueue = some (.a, 1) ∧
     (waitingSq 15 1).posted (posted 0x0100 2) 0 1 = true ∧ (waitingSq 15 1).depth - (waitingSq 15 1).cons < (entryOf (posted 0x0100 2)).units ∧
     (entryOf (posted 0 1)).opc = 0 ∧ (waitingSq 15 1).posted (posted 0 1) 0 1 = true) ∧
    (let x := { waitingSq 0 1 with
       cls := 0
       rereads := [2000] }
     x.cls = 0 ∧ x.waiting ≠ 0) :=
  ⟨by decide +kernel, by decide +kernel, by decide +kernel⟩

/-- A slot of an event that is not coalesced, and of one that is. -/
def slotted (code : Half) : State := host.modRing .a fun r => { r with slots := [{ ev := ⟨code, 3, []⟩, time := 0, count := 1 }] }

theorem witness_QueuesAreConsumedAndAnswered :
    (SMap.get? (host.ring .a).sqs 1 = some (sq 1 1) ∧ SMap.get? (host.ring .a).cqs 1 = some (cq false) ∧ (sq 1 1).deleting = false ∧
      (host.inFlight? io).isSome = true ∧ host.dmaUp .a = true) ∧
    (let s := slotted 0x0101
     (s.ring .a).evtCq = some 2 ∧ SMap.get? (s.ring .a).cqs 2 = some (cq true) ∧ (cq true).fault = false ∧ (cq true).free ≠ 0 ∧
     (s.ring .a).rdy = true ∧ (s.ring .a).slots.head?.isSome = true ∧ coalesced 0x0101 = false) ∧
    (let s := slotted 0x0103
     (s.ring .a).slots.head?.isSome = true ∧ ∀ y ∈ (s.ring .a).slots, ¬(coalesced y.ev.code = false ∨ y.time + 1000000 ≤ s.now)) ∧
    (let c := { cq false with unsignalled := 1 }
     c.ien = true ∧ c.unsignalled ≠ 0) := by decide +kernel

/-- Manager A's ring with its I/O queue 1 empty, and admin commands. -/
def noIo : State := host.modRing .a fun r =>
  { r with
    sqs := [(0, sq 0 1)]
    cqs := [(0, cq false)]
    evtCq := none }

theorem witness_QueueCommandsCreateDeleteAndReport :
    (∀ c ∈ [Instr.createCq adm ⟨255, 4096, 511, true, false, 0, 255, 1000⟩, .createSq adm ⟨255, 16, 1, 2, 0⟩, .deleteSq adm 1,
      .deleteCq adm 2, .setEventRing adm 2 0xFF, .abort adm 1 5 none, .negotiate adm 0x0202, .setFeature adm 3 127 0 [0], .getFeature adm 4 1,
      .identify adm 1 127 256, .getLog adm 3 127 0 16], (carrying c host).allows c) ∧
    ((∃ e ∈ (host.ring .a).sqs, e.1 ≠ 0) ∧ ¬((∃ e ∈ (noIo.ring .a).sqs, e.1 ≠ 0) ∨ ∃ e ∈ (noIo.ring .a).cqs, e.1 ≠ 0)) ∧
    (SMap.get? (host.ring .a).sqs 1 = some (sq 1 1) ∧ (sq 1 1).flight ≠ [] ∧
      SMap.get? ((waiting 0 0).ring .a).sqs 1 = some (waitingSq 0 0) ∧ (waitingSq 0 0).flight = []) ∧
    (SMap.get? (host.ring .a).cqs 1 = some (cq false) ∧ field (0x03E80000 : Word).toNat 25 16 ≤ 1000 ∧ 0x0202 ≤ host.version .a ∧
      host.selChan 127 = some 127 ∧ [(0 : Byte)].length ≤ 16368 ∧ (host.mb 127).m2hAck = (host.mb 127).m2hSeq ∧ (2 : Word).toNat ≤ 2) ∧
    (let s := host.modMbx 127 fun b => { b with posted := some { seq := 1, time := 0, bytes := [] } }
     (s.mb 127).posted = some { seq := 1, time := 0, bytes := [] } ∧ s.selChan 127 = some 127) :=
  ⟨allows_all_of (by decide +kernel), by decide +kernel⟩

/-- Manager A's job of CID 5 on queue 1: class, and the time since which it computes. -/
def job (cls : BitVec 2) : BurinJob :=
  ⟨7, .queue .a 1, 5, cls, 0, false, 1, 1, 0, 0, 0, 1, 0, 0, [], [], true, 0, 0, 0⟩

/-- Every core runs a job of the given class; an URGENT job waits. -/
def busyCores (cls : BitVec 2) : State :=
  { host with burin := { host.burin with
      cores := Vector.replicate 4 { Core.reset with
        state := 1
        job := some (job cls) }
      waiting := [job 2] } }

theorem witness_BurinRunsItsJobs :
    (let c := Instr.burinOp io (List.replicate 161 0) 0 []
     (carrying c host).allows c) ∧ (burinPq (burinDesc (List.replicate 32 0)).op = false ∧
      host.burinCheck .a (List.replicate 32 0) 0 ≠ stSuccess) ∧
    ((host.burin.waiting = [] ∧ ∀ i, (host.core i).susp = []) ∧ (host.core 3).state = 0 ∧ ∀ i, ((busyCores 0).core i).state ≠ 0) ∧
    (((busyCores 1).core 3).job = some (job 1) ∧ (job 1).owner = Owner.queue io.mgr io.sq ∧ (job 1).cid = io.cid ∧
      (busyCores 1).outWaits (job 1) = false ∧ (busyCores 1).dmaUp io.mgr = true ∧ (job 1).canFault stSuccess = true ∧
      SMap.get? ((busyCores 1).ring .a).sqs 1 = some (sq 1 1) ∧ SMap.get? ((busyCores 1).ring .a).cqs 1 = some (cq false)) ∧
    ((job 0).yields = true ∧ job 2 ∈ (busyCores 0).burin.waiting ∧ (job 0).class < (job 2).class ∧ ((busyCores 0).core 0).susp = [] ∧
      (∀ x ∈ (busyCores 0).burin.waiting, bit x.flags.toNat 1 = false) ∧ (busyCores 0).dev.state = .running ∧
      (busyCores 0).dev.ccAbsent = false) ∧
    (let s := { busyCores 1 with burin := { (busyCores 1).burin with waiting := [job 0] } }
     s.burin.waiting.find? (fun j => j.id = 7 && j.cls = 0) = some (job 0)) ∧
    (let s := host.modCore 3 fun c => { c with state := 3 }
     (s.core 3).state = 3 ∧ s.reaches .a (0x010054 + 0x1000 * 3)) ∧
    ((∃ i : Fin 4, i ≠ 3 ∧ (host.core i).inService = true ∧ (host.core i).outAfter = false) ∧
      let s := { host with burin := { host.burin with cores := Vector.replicate 4 { Core.reset with state := 4 } } }
      ∀ i, i ≠ 3 → (s.core i).inService = false ∨ (s.core i).outAfter = true) :=
  ⟨allows_of (by decide +kernel), by decide +kernel⟩

/-- A HASH_OP descriptor: SHA-256, a mode, context 15, no segment; LEN 32 where the mode yields a digest. -/
def hashDesc (mode : Byte) : List Byte :=
  [1, mode, 15, 0, 0, 0, (if mode = 0 ∨ mode = 3 then 32 else 0), 0] ++ List.replicate 8 0

/-- FINISH of context 15, CID 5 of manager A's queue 1. -/
def hashJob : HashJob := ⟨.a, 1, 5, 1, 3, 15, [], 32, [], 1, false⟩

/-- Manager A's context 15 exists. -/
def hashing : State := host.modHash .a fun h =>
  { h with
    ctxs := [(15, { alg := 1, key := [], data := [] })]
    jobs := [hashJob] }

theorem witness_HashAndRandomCommandsAnswer :
    (∀ c ∈ [Instr.hashOp io (hashDesc 4) 32 [], .random io 4096], (carrying c host).allows c) ∧
    ((∀ k ∈ [0, 1, 2, 3, 4], hashField (hashDesc (BitVec.ofNat 8 k)) 32 0 = none ∧ leAt (hashDesc (BitVec.ofNat 8 k)) 1 1 = k) ∧
      0x0202 ≤ host.version .a ∧ algHmac 1 = false) ∧
    (let s := host.modRing .a fun r => { r with version := 0x0201 }
     s.version .a < 0x0202) ∧
    (SMap.get? (host.hash.get .a).ctxs 15 = none ∧ (SMap.get? (hashing.hash.get .a).ctxs 15).isSome = true) ∧
    (hashing.dev.ccAbsent = false ∧ hashing.dmaUp .a = true ∧ (hashing.hash.get .a).jobs = [] ++ hashJob :: [] ∧ SMap.get? (hashing.ring .a).sqs 1 = some (sq 1 1) ∧
      SMap.get? (hashing.ring .a).cqs 1 = some (cq false)) ∧
    (let s := hashing.modHash .a fun h =>
       { h with
         ctxs := []
         jobs := [{ hashJob with
           mode := 1
           again := true }] }
     SMap.get? (s.hash.get .a).ctxs 15 = none ∧ (absent s).dev.ccAbsent = true) ∧
    (spoken.drbg.keyState ≠ 0 ∧ spoken.reaches .a 0x00F04C) ∧
    (let s := { host with drbg := { host.drbg with
       keyState := 2
       genState := 1 } }
     s.drbg.keyState = 2 ∧ s.drbg.genState = 1) :=
  ⟨allows_all_of (by decide +kernel), by decide +kernel⟩

/-- No pulse fails. -/
def noTrouble : PulseEv := { never := [], again := [], inhibitedAfter := none, stuckAfter := none }

/-- The device in lifecycle DEV, its fuses otherwise blank. -/
def inDev : State := { host with otp := { host.otp with shadow := [(0x120, 0x111)] } }

theorem blank_digest_of : inDev.otp.digestClash 4 = false := by
  have h : ∀ i, inDev.otp.n i = 0 := fun i => rfl
  simp [Otp.digestClash, h]

/-- That a key update is accepted rests on a signature and a sealed payload, and that a digest field clashes rests on the digest. -/
theorem witness_KeyAndFuseCommandsAct :
    (∀ c ∈ [Instr.keyUpdate io ⟨[], 0⟩, .keyInfo io 0xFFFE 1761, .keyInfo io 255 63, .otpRead io 0x0105 8 ⟨4, false⟩,
      .otpProgram io 5 0 [1] noTrouble, .otpFinalise io 4 noTrouble], (carrying c host).allows c) ∧
    (host.otp.busy = none ∧ host.keys.transport = false ∧ fin? 256 (255 : Half).toNat = some 255 ∧ 256 ≤ (256 : Half).toNat) ∧
    ((host.keyUpdate .a []).2.st ≠ stSuccess ∧ host.isSecondary .a = false ∧ (host.programStatus 6 1 []).1 ≠ stSuccess ∧
      (host.finaliseStatus 5).1 ≠ stSuccess) ∧
    ((inDev.programStatus 4 256 (bitmapBits 3192 [0x80])).1 = stSuccess ∧ bitmapBits 3192 [0x80] = [3199] ∧
      (inDev.finaliseStatus 4).1 = stSuccess) ∧ inDev.otp.digestClash 4 = false ∧
    (noTrouble.never = [] ∧ noTrouble.inhibitedAfter = none ∧ noTrouble.stuckAfter = none) :=
  ⟨allows_all_of (by decide +kernel), by decide +kernel, by decide +kernel, by decide +kernel, blank_digest_of, by decide +kernel⟩

/-- Loop 3 at level `l`, with failing samples so far. -/
def looped (l fails : Nat) : State :=
  { host with
    dcfg := { host.dcfg with levels := l <<< 16 }
    tamper := { host.tamper with loopFails := vset host.tamper.loopFails 3 fails } }

theorem witness_TamperSourcesActAtTheirLevels :
    (∀ i : Fin 5, host.watched i.1 = true ∧ host.tamper.active.getLsbD i.1 = false) ∧ host.watched 9 = true ∧
    ((∀ i ∈ [0, 1, 2, 3], ∃ l ∈ [0, 1, 2, 3], (looped l 0).tamperLevel 8 = i) ∧ host.watched 8 = false ∧ (looped 1 0).watched (5 + 3) = true ∧
      (looped 1 1).loopN ≤ vget (looped 1 1).tamper.loopFails 3 + 1 ∧ vget (looped 1 0).tamper.loopFails 3 + 1 < (looped 1 0).loopN) ∧
    (let c := Instr.zeroize io 0x5A45524F
     (carrying c host).allows c) ∧ host.reaches .a 0x007060 ∧
    (let s := { host with tamper := { host.tamper with
       active := 1
       burnt := true } }
     (∃ k < 10, s.tamper.active.getLsbD k = true ∧ 3 ≤ s.tamperLevel k) ∧ s.tamper.burnt = true) ∧
    ((∀ k < 10, host.tamper.active.getLsbD k = false) ∧ host.isSecondary .a = false) :=
  ⟨by decide +kernel, by decide +kernel, by decide +kernel, allows_of (by decide +kernel), by decide +kernel,
    ⟨⟨0, by decide +kernel⟩, by decide +kernel⟩, by decide +kernel⟩

theorem witness_PageWritesActOrAreRefused :
    ({ host with dev := { host.dev with state := .rom, cold := true } }).barOpen .a = false ∧
    (host.barOpen .a = true ∧ host.mapped 0x000003 = true ∧ fin? 1024 (0x000003 / 4096) = some 0 ∧ host.mapped 0x7FFFFF = false) ∧
    (host.reaches .a 0x000088 ∧ isLowWord 0x000040 = false) ∧ (∃ off, isLowWord off = true ∧ off % 4 = 0 ∧ host.reaches .a off) ∧
    (host.reaches .b (pageBase 0 + 0x028) ∧ host.reaches .b (pageBase 0 + 0x01C) ∧ host.reaches .b (pageBase 0 + 0x02C) ∧
      fin? 1024 0 = some 0) ∧
    (host.reaches .a (chanPage 127 3 + 0x04C) ∧ host.reaches .a (chanPage 127 1 + 0x060) ∧ host.reaches .a 0x00B048 ∧
      host.reaches .a 0x009068 ∧ host.reaches .a 0x001048) ∧
    (host.mapped 0x009040 = true ∧ host.mapped 0x00C060 = true ∧ host.mapped 0x007060 = true ∧ host.mapped (chanPage 127 0 + 0x060) = true ∧
      field (1 : Word).toNat 2 0 = 1 ∧ host.mapped 0x009000 = true ∧ (host.ring .a).en = true ∧ fin? 1024 9 = some 9 ∧
      (sregOf 0x6FC).isSome = true ∧ host.mapped (chanPage 127 1 + 0x6FC) = true ∧ host.mapped 0x000000 = true) :=
  ⟨by decide +kernel, by decide +kernel, by decide +kernel, ⟨0x00E05C, by decide +kernel⟩, by decide +kernel, by decide +kernel,
    by decide +kernel⟩

theorem witness_SuppliesResetsAndStandbyAct :
    (host.dev.state ≠ .por ∧ host.chanOn 127 = true ∧ (host.ch 127).released = true ∧ host.dev.state = .running) ∧
    ({ host with power := { host.power with inhibit := true } }).power.inhibit = true ∧
    ((host.modPort 3 fun p => { p with cutEnd := some 10000000 }).port 3).cutEnd = some 10000000 ∧
    (let s := { (host.modRing .a fun _ => Ring.reset) with power := { host.power with sysPgood := false } }
     s.dev.state = .running ∧ s.power.sysPgood = false ∧ s.deviceInFlight = 0) ∧
    (let s := { host with dev := { host.dev with state := .standby } }
     s.dev.state = .standby ∧ s.mgrOn .b = true ∧ (s.view .b).linkUp = false ∧ WakeCause.sysPgood ≠ .doorbell) := by decide +kernel

theorem witness_DeviceStartStepsAndLinksAct :
    (State.reset.dev.state = .por ∧ State.reset.dev.clockHeld = false) ∧
    (∀ d ∈ [DevState.shadow, .rom, .start], let s := { State.reset with dev := { State.reset.dev with state := d } }
      s.dev.clockHeld = false ∧ s.dev.state = d ∧ s.inhibited = false ∧ s.dev.ccAbsent = false ∧ s.drbg.keyState ≠ 1) ∧
    (let s := { State.reset with dev := { State.reset.dev with state := .rom } }
     s.checkLedgerKey.fwReadTable.fwSelect.2 = none) ∧
    (absent { host with dev := { host.dev with state := .start } }).dev.ccAbsent = true ∧ host.mgrOn .b = true ∧
    ((host.modView .a fun v => { v with linkUp := true }).view .a).linkUp = true ∧
    ({ host with clk := { host.clk with pool := true } }).clk.pool = true := by decide +kernel

/-! ## Single steps -/

theorem test_rdsr_shows_wel : ((after (.readStatus 3 ⟨2, 160⟩) host).port 3).reply = [0x02, 0x02] := by decide +kernel

theorem test_rdfsr_is_ready : ((after (.readFlagStatus 3 ⟨1, 160⟩) host).port 3).reply = [0x80] := by decide +kernel

theorem test_read_shows_keep : ((after (.fastRead 3 true { q16 0x100000 with len := 8 }) stored).port 3).reply =
    [0x12, 0xFF, 0xFF, 0xFF, 0xFF, 0xFF, 0xFF, 0x0F] := by decide +kernel

/-- R36: at T1 a read needs 127 ns of dummy time: eight cycles of 15.5 ns are 124 ns. -/
theorem test_short_read_is_ones : ((after (.fastRead 3 true { q16 0x100000 with len := 1, period := 14 }) stored).port 3).reply = [0xFF] ∧
    ((after (.fastRead 3 true { q16 0x100000 with len := 1, period := 14 }) stored).port 3).shortDummy = 1 := by decide +kernel

/-- A program only clears bits, and wraps within its page. -/
theorem test_program_wraps_in_its_page : let t := after (.pageProgram 3 true 0x1000FF [0xAA, 0xF0] 160) stored
    (t.area 3).keep.read 255 = 0xAA ∧ (t.area 3).keep.read 0 = 0x10 ∧ (t.area 3).keep.read 256 = 0xFF ∧ (t.port 3).wel = false := by decide +kernel

theorem test_erase_clears_its_sector : let t := after (.erase4Kib 3 true 0x100FFF 160) stored
    (t.area 3).keep = [] ∧ (t.area 3).scratch = [(0, 0x34)] := by decide +kernel

theorem test_chip_erase_is_protected : let t := after (.refusalWipEnd 3) (after (.chipErase 3 0xC7) stored)
    (t.port 3).eraseFail = true ∧ (t.port 3).protFail = true ∧ (t.area 3).keep = (stored.area 3).keep := by decide +kernel

theorem test_denied_read_counts : let t := after (.fastRead 3 true (q16 0x140000)) host
    (t.port 3).reply = ones 16 ∧ (t.st 3).deniedRead = 1 ∧ (t.st 3).lastAddr = 0x140000 := by decide +kernel

theorem test_write_config_needs_wel : ((after (.writeConfig 3 0 2 160) host).port 3).crIo = 2 ∧
    ((after (.writeConfig 127 0 2 160) live).port 127).crIo = 0 := by decide +kernel

theorem test_write_config_reserved_protocol : ((after (.writeConfig 3 0 4 160) host).port 3).crIo = 0 := by decide +kernel

theorem test_reset_pulse_of_a_microsecond : ((after (.hostRstPulse 3 999) host).port 3).wel = true ∧
    ((after (.hostRstPulse 3 1000) host).port 3).wel = false ∧ ((after (.hostRstPulse 3 1000) host).port 3).resetEnd = some 30000 := by decide +kernel

theorem test_reset_needs_enable : ((after (.reset 3) host).port 3).wel = true ∧
    ((after (.reset 3) (after (.resetEnable 3) host)).port 3).wel = false := by decide +kernel

theorem test_deep_power_down_hears_only_its_end : ((after (.writeDisable 3) (after (.deepPowerDown 3) host)).port 3).wel = true ∧
    ((after (.releaseFromDeepPowerDown 3) (after (.deepPowerDown 3) host)).port 3).dpd = false := by decide +kernel

theorem test_octal_opcode_and_complement : let s := host.modPort 3 fun p => { p with crIo := 3 }
    ((after (.undecodedOpcode 3 0x05 0x05) s).port 3).undecoded = 1 := by decide +kernel

theorem test_power_lost_holds : ((after (.pgoodFall 3) host).ch 3).state = .held ∧ ((after (.pgoodFall 3) host).ch 3).kind = .pgood := by
  decide +kernel

theorem test_mailbox_revision : ((after (.mbxSelect 3 2) host).mb 3).rev = 2 ∧ ((after (.mbxSelect 3 3) host).mb 3).rev = 1 ∧
    ((after (.mbxSelect 3 3) host).port 3).ignored = 1 := by decide +kernel

theorem test_message_sequence_and_acknowledgement : ((after (.hostMessagePost 3 1) host).mb 3).h2mSeq = 1 ∧
    ((after (.hostMessagePost 3 2) host).mb 3).h2mSeq = 0 ∧ ((after (.m2hAck 3 9) host).mb 3).m2hAck = 9 := by decide +kernel

theorem test_boot_ends_once : let s := host.modStn 3 fun x => { x with phase := .boot }
    ((after (.bootDone 3 1) s).st 3).phase = .run ∧ ((after (.bootDone 3 2) s).st 3).phase = .boot := by decide +kernel

theorem test_early_token_is_a_violation : let t := after (.wdgToken 3 (simpleToken 7 9)) (watched 0)
    (t.wd 3).vEarly = 1 ∧ (t.wd 3).counting = true ∧ (t.wd 3).last = 2 := by decide +kernel

theorem test_extension_is_capped : ((after (.wdgExtend 3 (simpleToken 7 9) 5) (watched 1024)).wd 3).ext = 2 := by decide +kernel

theorem test_watchdog_closes_after_its_window : (after (.wdgClose 3) (watched 0)).now = 1000 * (1 + 3 * 1024) ∧
    ((after (.wdgClose 3) (watched 0)).ch 3).state = .held ∧ ((after (.wdgClose 3) (watched 0)).wd 3).shown.cause = 1 := by decide +kernel

set_option maxRecDepth 100000 in
theorem test_proof_accept : ((after (.proofAccept 3 7) onProof).plates 3).a.state = .active ∧
    ((after (.proofAccept 3 8) onProof).plates 3).a.state = .proof := by
  decide +kernel

theorem test_update_needs_policy : ((after (.updOpen 3 0) updates).mb 3).session = 1 ∧ ((after (.updOpen 3 1) updates).mb 3).session = 4 ∧
    ((after (.updOpen 3 0) updates).st 3).phase = .update := by decide +kernel

theorem test_abort_returns_to_run : ((after (.updAbort 3 1) (session 1)).mb 3).session = 4 ∧
    ((after (.updAbort 3 1) (session 1)).st 3).phase = .run := by decide +kernel

theorem test_commit_that_tightens_starts_an_epoch : ((after (.shdCommit .a 3 false) (shadowed 0xFEF3)).st 3).epoch = 2 ∧
    (vget ((after (.shdCommit .a 3 false) (shadowed 0xFEF3)).st 3).tbl.winAcc 1) = 0xFEF3 := by decide +kernel

theorem test_commit_that_loosens_is_refused : let s := (shadowed 0xFFF3).modStn 3 fun x => { x with tbl := { tbl with winAcc := vset tbl.winAcc 1 0xFEF3 } }
    ((after (.shdCommit .a 3 false) s).st 3).epoch = 1 ∧ (vget ((after (.shdCommit .a 3 false) s).st 3).tbl.winAcc 1) = 0xFEF3 := by
  decide +kernel

theorem test_recovery_needs_policy : ((after (.enterRecovery .a 3 false) host).st 3).phase = .run ∧
    ((after (.enterRecovery .a 3 false) host).st 3).reqResult.a = 2 := by decide +kernel

theorem test_bucket_refill : ((after (.bucketRefill 3 31 false) (bucketed 3)).st 3).bucket 31 false = { tokens := 4, start := none } ∧
    (after (.bucketRefill 3 31 false) (bucketed 3)).now = 10000 := by decide +kernel

theorem test_discovery : ((after (.fpDiscovery 3 report) (flash 1 false)).fp 3).state = 2 ∧
    ((after (.fpDiscovery 3 report) (flash 1 false)).fp 3).densLog2 = 24 ∧
    ((after (.fpDiscovery 3 { report with minor := 5 }) (flash 1 false)).fp 3).fault = 3 := by decide +kernel

theorem test_local_program_ends : ((after (.localOpComplete 3 true) (flash 2 false)).fp 3).localFails = 1 ∧
    ((after (.localWipTimeout 3) (flash 2 false)).fp 3).fault = 8 := by decide +kernel

theorem test_copy_switch_ends_damage : ((after (.impressionCopySwitch ⟨0, [], [], none, []⟩) tableLost).dirE 0).state = .resident := by
  decide +kernel

theorem test_hash_lane_fails : (after (.hashLaneKat (.lane 39) false) host).farm.lastFailed = 39 ∧
    (after (.hashLaneKat (.lane 39) false) host).farm.lanes.getLsbD 39 = false := by decide +kernel

theorem test_pool_keeps_three_channels : (vget (after (.polTakeOut .a 15) (poolAt 2)).pool.chans 15).state = 3 ∧
    (let s := held.modPool 15 fun x => { x with state := 2 }
     (vget (after (.polTakeOut .a 15) s).pool.chans 15).state = 2) := by decide +kernel

theorem test_front_cache_counters_clear : (after (.fcaCntclr .a) { host with fca := { host.fca with hit := 5 } }).fca.hit = 0 := by decide +kernel

theorem test_patrol_period_is_clamped : (after (.patrolPause .a 0x1FF) host).imm.periodH = 168 ∧ (after (.patrolPause .a 0x1FF) host).imm.pause = true := by
  decide +kernel

theorem test_hold_then_its_instant : let t := given (.chHold io 3 none) host
    (t.ch 3).state = .held ∧ (t.ch 3).sink = false ∧ ((after (.holdInstant 3) t).ch 3).sink = true := by decide +kernel

theorem test_quarantine_beats_hold : ((given (.chHold io 3 (some .quarantine)) host).ch 3).state = .running ∧
    ((after (.ctlOrderQuarantine .a 3 none) host).ch 3).state = .quarantined := by decide +kernel

theorem test_release_instant : ((after (.releaseInstant 3) ready).ch 3).state = .running ∧ ((after (.releaseInstant 3) ready).ch 3).sink = false ∧
    ((after (.releaseInstant 3) ready).st 3).phase = .boot := by decide +kernel

theorem test_power_cycle_pulse : (vget (after (.twlPulse .a 0x10F) (lined .idle)).plat.lines 15 ≠ .idle) ∧
    (after (.twPulseEnd 15) (lined (.sinking 0 []))).now = 100 * msec := by decide +kernel

theorem test_manager_token : ((after (.mwdToken .a (BitVec.ofNat 32 ((simpleToken 7 9).toNat / 2 ^ 32))) (managed false)).mwd.a).last = 1 ∧
    ((after (.mwdToken .a 0) (managed false)).mwd.a).lost = true := by decide +kernel

theorem test_cluster_watchdog_steps : (after .ccWatchdogExpiry host).intw.step = 1 ∧ (after .ccWatchdogExpiry host).dev.ccAbsent = true := by decide +kernel

/-- The last completion's status that manager A's queues got. -/
def status (s : State) : Option (BitVec 15) := (s.view .a).out.reverse.findSome? fun o => match o with
  | .completion _ _ c => some c.status
  | _ => none

/-- The last RESULT. -/
def resultOf (s : State) : List Byte := ((s.view .a).out.reverse.findSome? fun o => match o with
  | .completion _ _ c => some c.result
  | _ => none).getD []

theorem test_status_word_of_a_running_host : (resultOf (given (.chStatus io 3) host)).take 2 = [0x64, 0x00] := by decide +kernel

theorem test_wrong_queue : status (given (.chStatus adm 3) host) = some 0x0001 ∧ status (given (.identify io 0 0 4096) host) = some 0x0001 := by
  decide +kernel

theorem test_safe_hold_refuses : status (given (.chRelease io 3 ⟨none, false⟩) (safeHold host)) = some 0x0005 := by decide +kernel

theorem test_absent_channel : let s := { host with part := { host.part with hosts := 64 } }
    status (given (.chHold io 64 none) s) = some 0x0002 ∧ status (given (.chStatus io 63) s) = some 0 := by decide +kernel

theorem test_create_queue_limits : status (given (.createCq adm ⟨3, 15, 0, true, false, 0, 0, 0⟩) host) = some 0x0002 ∧
    status (given (.createCq adm ⟨3, 16, 511, true, false, 4096, 0, 0⟩) host) = some 0 ∧
    status (given (.createSq adm ⟨3, 16, 2, 0, 0⟩) host) = some 0x0002 := by decide +kernel

theorem test_delete_queue_in_use : status (given (.deleteCq adm 1) host) = some 0x0009 ∧ status (given (.deleteCq adm 9) host) = some 0x0002 := by
  decide +kernel

theorem test_negotiate : status (given (.negotiate adm 0x0102) noIo) = some 0x0040 ∧
    (resultOf (given (.negotiate adm 0x0210) noIo)).take 2 = [0x02, 0x02] ∧ status (given (.negotiate adm 0x0210) host) = some 0x0009 := by
  decide +kernel

theorem test_doorbell_beyond_depth : ((after (.sqTailDoorbell .a 1 16) host).ring .a).errReason = 2 ∧
    ((after (.sqTailDoorbell .a 9 0) host).ring .a).errReason = 1 ∧ ((after (.sqTailDoorbell .a 1 15) host).ring .a).dbIgnored = 0 := by
  decide +kernel

theorem test_pad_wraps : let q := (SMap.get? ((after (.pad .a 1 (posted 0 1)) (waiting 15 1)).ring .a).sqs 1).getD (sq 1 1)
    q.cons = 0 ∧ q.phase = false := by decide +kernel

theorem test_consume_checks_the_phase_bit : let q := fun u => (SMap.get? ((after (.sqEntryConsume .a 1 u) (waiting 0 1)).ring .a).sqs 1).getD (sq 1 1)
    (q (posted 0x0102 1)).cons = 1 ∧ (q (leBytes 64 0x0102)).held = true ∧ (q (leBytes 64 0x0102)).cons = 0 := by decide +kernel

theorem test_event_mask_feature : ((given (.setFeature adm 2 0 0x0F []) host).ring .a).mask = 0x0F := by decide +kernel

theorem test_spdm_version_and_error : ((after (.getVersion 7 0) spoken).ep 7).reply = .version true true ∧
    ((after (.getDigests ⟨7, 0⟩) host).ep 7).reply = .error .unspecified := by decide +kernel

theorem test_session_times_out : (after (.spdmSessionTimeout 6 2) spoken).now = 120 * second ∧
    ((after (.spdmSessionTimeout 6 2) spoken).ep 6).sessions = [] := by decide +kernel

/-- OBS_SECURE: an I3C port answers only inside a secured session. -/
theorem test_observers_are_secured : ((after (.mctpOvdelRequest 4 (request 0x0102) 0) host).ep 4).answers = [] ∧
    (vget (after (.mctpOvdelRequest 4 (request 0x0102) 0) host).i3c 0).refused = 1 ∧
    (((after (.mctpOvdelRequest 3 (request 0x0102) 0) host).ep 3).answers.map fun a => a.status) = [0] := by decide +kernel

theorem test_i3c_address : (vget (after (.entdaa 2 0x30) host).i3c 2).dynAddr = 0x30 ∧ (vget (after (.setdasa 2 0x30) host).i3c 2).daValid = false := by
  decide +kernel

/-- R197's table: ECDSA P-256 signs in 70 us; ML-DSA-65 takes 45 us a slot; a 2048-bit exponent 32 steps of 280 us. -/
theorem test_computation_times : (job 0).time 0 40 = 70000 ∧ ({ job 0 with op := 0x0A, pset := 0x21 }).time 256 40 = 11520000 ∧
    ({ job 0 with op := 0x09, pset := 0x11, modbits := 2048, expbits := 2048 }).time 0 40 = 8960000 := by decide +kernel

theorem test_burin_descriptor_length : status (given (.burinOp io (List.replicate 31 0) 0 []) host) = some 0x0002 := by decide +kernel

theorem test_yield_to_a_higher_class : ((after (.burinYield 0) (busyCores 0)).core 0).yields = 1 ∧
    ((after (.burinYield 0) (busyCores 2)).core 0).yields = 0 := by decide +kernel

theorem test_last_core_stays : let s := { host with burin := { host.burin with cores := vset (Vector.replicate 4 { Core.reset with state := 4 }) 3 Core.reset } }
    ((after (.burTakeOut .a 3) s).core 3).state = 0 ∧ ((after (.burTakeOut .a 3) host).core 3).state = 4 := by decide +kernel

theorem test_hash_context : status (given (.hashOp io (hashDesc 2) 32 []) host) = some 0x0005 ∧
    ((given (.hashOp io (hashDesc 1) 32 []) host).hash.a.ctxs.map fun c => c.1) = [15] ∧
    status (given (.hashOp io (hashDesc 1) 32 []) hashing) = some 0x0009 := by decide +kernel

theorem test_random_needs_entropy : status (given (.random io 32) host) = some 0x0005 ∧ status (given (.random io 4097) host) = some 0x0002 := by
  decide +kernel

theorem test_entropy_fails : (after (.entropyHealthFail .proportion) spoken).drbg.aptFail = true ∧
    (after (.entropyHealthFail .proportion) spoken).drbg.keyState = 2 := by decide +kernel

theorem test_zeroize_confirms : (given (.zeroize io 0x5A45524E) host).tamper.burnt = false ∧
    status (given (.zeroize io 0x5A45524E) host) = some 0x0002 := by decide +kernel

theorem test_light_locks : (after (.tamperTrip 0x10) host).tamper.lock = true ∧ (after (.tamperTrip 0x10) host).tamper.burnt = false ∧
    (after (.tamperTrip 0x10) host).tamper.latched = 0x10 := by decide +kernel

theorem test_tamper_clears : let s := after (.tamperInactive 4) (after (.tamperTrip 0x10) host)
    s.tamper.lock = true ∧ (after (.tmpClear .a) s).tamper.lock = false ∧ (after (.tmpClear .a) (after (.tamperTrip 0x10) host)).tamper.lock = true := by
  decide +kernel

theorem test_fuse_pulses : let t := given (.otpProgram io 4 0 [5] noTrouble) inDev
    t.otp.n 0x0B0 = 5 ∧ t.otp.s 0x0B0 = 5 ∧ status t = some 0 ∧ status (given (.otpProgram io 4 3200 [1] noTrouble) inDev) = some 0x0002 := by
  decide +kernel

theorem test_secrets_read_as_zero : let s := { host with otp := { host.otp with normal := [(0x030, 0xFFFFFFFF), (0x010, 0x12345678)], strict := [] } }
    ((given (.otpRead io 0x0102 0 ⟨4, false⟩) s).view .a).out.contains (.buffer 1 5 [0, 0, 0, 0]) = true ∧
    ((given (.otpRead io 0x0101 0 ⟨4, false⟩) s).view .a).out.contains (.buffer 1 5 [0x78, 0x56, 0x34, 0x12]) = true := by decide +kernel

theorem test_misaligned_access : (vget (after (.bar0BadAccess .a 0x000003) host).hdrs 0).a.size = true ∧
    ((after (.bar0BadAccess .a 0x000003) host).view .a).sizeErr = 1 ∧ ((after (.bar0UnmappedAccess .a 0x7FFFFC) host).view .a).unmapped = 1 := by
  decide +kernel

theorem test_shadow_write : let t := after (.registerWrite .a (chanPage 3 1 + 0x418) 0xFEF3) host
    (vget ((t.st 3).shadow.get .a).tbl.winAcc 1) = 0xFEF3 ∧ (vget (t.st 3).tbl.winAcc 1) = 0xFFF3 := by decide +kernel

theorem test_counters_clear : let s := host.modStn 3 fun x => { x with deniedRead := 9 }
    ((after (.stnCntclr .a 3 1) s).st 3).deniedRead = 0 ∧ ((after (.stnCntclr .a 3 2) s).st 3).deniedRead = 9 := by decide +kernel

theorem test_supply_warning : (after (.supplyWarn (some 20)) host).power.inhibit = true ∧
    (after .supplyOk (after (.supplyWarn (some 20)) host)).power.inhibit = false ∧
    status (given (.stencilTighten io 3 true 0 [⟨0x418, 0x10, 0⟩] false) (after (.supplyWarn none) host)) = some 0x0030 := by decide +kernel

theorem test_reset_pin_of_ten_microseconds : (after (.resetPin 9999) host).dev.state = .running ∧ (after (.resetPin 10000) host).dev.state = .por ∧
    (after (.resetPin 10000) host).dev.resetCause = 1 ∧ (after (.brownout 0) host).dev.resetCause = 2 := by decide +kernel

theorem test_overcurrent_cuts_off : ((after (.outputOvercurrent 3) host).port 3).cutEnd = some 10000000 ∧
    (after (.overcurrentHoldoffEnd 3) (after (.outputOvercurrent 3) host)).now = 10000000 := by decide +kernel

theorem test_wake : let s := { host with dev := { host.dev with state := .standby } }
    (after (.standbyWake .sysPgood) s).dev.state = .running ∧ ((after (.standbyWake .doorbell) s).view .a).wake = false := by decide +kernel

theorem test_start_without_firmware : let s := { State.reset with dev := { State.reset.dev with state := .rom } }
    (after (.deviceStart ⟨true, 0xFF, [], Digest.zero, 0, [], 0⟩) s).dev.state = .deviceRecovery := by decide +kernel

theorem test_link_and_configuration : ((after (.linkUp .a 5 8) host).view .a).linkWidth = 8 ∧
    ((after (.configurationRequest ⟨.a, .id, none⟩) State.reset).view .a).cfgRetry = true ∧ ((after (.configurationRequest ⟨.a, .id, none⟩) host).view .a).cfgRetry = false := by
  decide +kernel

end Sys2Proof.Tests
end

section
/-! SUPPORT. The host reset of a port, the mailbox's revision and the end of phase BOOT (chapter "Host channels and the virtual flash"). -/

namespace Sys2Proof.Machine

/-! ## The commands' meanings -/

theorem exec_reset (n : Fin 128) (s : State) : exec (.reset n) s = .next (s.host n (HostCmd.bare 0x99)) := rfl

theorem exec_hostRstPulse (n : Fin 128) (low : Nat) (s : State) : exec (.hostRstPulse n low) s = execHostRstPulse n low s := rfl

theorem exec_hostResetRecovered (n : Fin 128) (s : State) : exec (.hostResetRecovered n) s = execHostResetRecovered n s := rfl

theorem exec_mbxSelect (n : Fin 128) (v : Word) (s : State) :
    exec (.mbxSelect n v) s = .next (s.mbxPage n 0x0004 (leBytes 4 v.toNat)) := rfl

theorem exec_releaseInstant (n : Fin 128) (s : State) : exec (.releaseInstant n) s = execReleaseInstant n s := rfl

theorem exec_bootDone (n : Fin 128) (v : Word) (s : State) :
    exec (.bootDone n v) s = .next (s.mbxPage n 0x0100 (leBytes 4 v.toNat)) := rfl

theorem exec_bootTmoExpiry (n : Fin 128) (s : State) :
    exec (.bootTmoExpiry n) s = .next (
      if (s.st n).phase = .boot ∧ (s.ch n).released = true ∧ (s.st n).tbl.bootTmo.toNat ≠ 0 then
        ((s.until ((s.ch n).relT + (s.st n).tbl.bootTmo.toNat * second)).setPhase n .run).modStn n fun x => { x with tmoHit := true }
      else s) := by
  have hz : (s.st n).tbl.bootTmo ≠ 0 ↔ (s.st n).tbl.bootTmo.toNat ≠ 0 := not_congr BitVec.toNat_inj.symm
  change execBootTmoExpiry n s = _
  simp only [execBootTmoExpiry, Bool.and_eq_true, decide_eq_true_eq, and_assoc, hz]

/-! ## Host reset (R40) -/

/-- CS# that rises after a command without a burst changes nothing. -/
theorem State.keepCs_high {s : State} {n : Fin 128} (h : (s.port n).burstOpen = false) : s.keepCs n false = s := by
  refine State.modPort_id ?_
  rw [Bool.false_and, ← h]

/-- RESET acts on an armed port alone. -/
theorem State.executeCmd_reset (s : State) (n : Fin 128) (c : HostCmd) :
    s.executeCmd n 0x99 c = if (s.port n).resetArmed then s.modPort n fun p => p.hostReset (some (s.now + 30 * usec)) else s := rfl

/-- RESET has no address phase. -/
theorem State.addressed_reset (s : State) (n : Fin 128) (period : Nat) : s.addressed n 0x99 period = s :=
  State.modPort_id (if_pos (by simp [ownAddr, spaceOp, islandOp, arrayClass]))

theorem State.heard_reset_armed (s : State) (n : Fin 128) : ((s.heard n 0x99).port n).resetArmed = (s.port n).resetArmed := by
  simp [HostPort.arrive]

/-- A heard RESET after RESET ENABLE is a host reset of the port. -/
theorem State.host_reset_armed {s : State} {n : Fin 128} (h : s.hears n 0x99) (ha : (s.port n).resetArmed = true) :
    s.host n (HostCmd.bare 0x99) = s.seen n fun p => p.hostReset (some (s.now + 30 * usec)) := by
  rw [State.host_plain (c := HostCmd.bare 0x99) h (by decide)]
  simp only [HostCmd.bare, State.addressed_reset, State.executeCmd_reset, State.heard_reset_armed, ha, if_true]
  rw [State.keepCs_high (by simp [HostPort.hostReset, HostPort.toDefaults, HostPort.arrive])]
  unfold State.heard State.seen
  rw [State.modPort_modStn, State.modPort_twice]
  congr 1

/-- A heard RESET without RESET ENABLE is only seen. -/
theorem State.host_reset_unarmed {s : State} {n : Fin 128} (h : s.hears n 0x99) (ha : (s.port n).resetArmed = false) :
    s.host n (HostCmd.bare 0x99) = s.seen n id := by
  rw [State.host_plain (c := HostCmd.bare 0x99) h (by decide)]
  simp only [HostCmd.bare, State.addressed_reset, State.executeCmd_reset, State.heard_reset_armed, ha, Bool.false_eq_true, if_false]
  rw [State.keepCs_high (by simp [HostPort.arrive])]
  unfold State.heard State.seen
  congr 1
  exact State.modPort_congr (by simp [HostPort.arrive, ha])

/-- Until its reset has ended a channel decodes no command. -/
theorem State.decodes_of_resetEnd {s : State} {n : Fin 128} {e : Nat} (h : (s.port n).resetEnd = some e) (he : s.now < e) :
    s.decodes n = false := by
  simp [State.decodes, h, he]

/-! ## Programs of one field of the mailbox (R41) -/

@[simp] theorem State.mbxTaken_st (s : State) (n : Fin 128) : (s.mbxTaken n).st n = { s.st n with oldCmd := false } := by
  simp [State.mbxTaken, State.seen]

@[simp] theorem State.mbxTaken_ignored (s : State) (n : Fin 128) : ((s.mbxTaken n).port n).ignored = (s.port n).ignored := by
  simp [State.mbxTaken, State.seen]

@[simp] theorem State.mbxTaken_burstOpen (s : State) (n : Fin 128) : ((s.mbxTaken n).port n).burstOpen = false := by
  simp [State.mbxTaken, State.seen]

@[simp] theorem State.mbxIgnored_burstOpen (s : State) (n : Fin 128) : ((s.mbxIgnored n).port n).burstOpen = (s.port n).burstOpen := by
  simp [State.mbxIgnored]

/-- Where a program has latched nothing, there is nothing to join. -/
theorem Mailbox.joinLatched_length (b : Mailbox) (counted : Bool) : b.joinLatched b.latched.length counted = b := by
  simp [Mailbox.joinLatched]

/-- The program of a field whose write latches nothing is that write, counted where it is ignored. -/
theorem State.fieldProgram_unlatched {s : State} {n : Fin 128} {off v : Nat}
    (h : ((s.fieldWrite n off v).1.mb n).latched = (s.mb n).latched) :
    s.fieldProgram n off v = if (s.fieldWrite n off v).2 then (s.fieldWrite n off v).1.mbxIgnored n else (s.fieldWrite n off v).1 := by
  unfold State.fieldProgram
  dsimp only
  rw [State.modMbx_id (by rw [← h, Mailbox.joinLatched_length])]

/-- A heard PAGE PROGRAM of a word into a 4-byte field. -/
theorem State.mbxPage_word {s : State} {n : Fin 128} {off : Nat} (v : Word) (h : s.mbxTakes n off)
    (ho : off = 0x0004 ∨ off = 0x0100 ∨ off = 0x0210 ∨ off = 0x0220 ∨ off = 0x8004 ∨ off = 0x8008) :
    s.mbxPage n off (leBytes 4 v.toNat) = ((s.mbxTaken n).fieldProgram n off v.toNat).keepCs n false := by
  rw [State.mbxPage_four h ho, Nat.mod_eq_of_lt v.isLt]

/-! ## MBX_REV and MBX_SELECT (R44) -/

/-- The first four bytes of the mailbox are MBX_REV. -/
theorem State.mbxByte_mbxRev (s : State) (n : Fin 128) {off : Nat} (h : off < 4) :
    s.mbxByte n off = BitVec.ofNat 8 (((s.mb n).rev.toNat + 0x300) >>> (8 * off)) := by
  simp [State.mbxByte, State.mbxFields, h, show off < 0x1000 by omega]

theorem State.mbxRev_bytes (s : State) (n : Fin 128) : (List.range 4).map (s.mbxByte n) = [(s.mb n).rev, 3, 0, 0] := by
  have hr := (s.mb n).rev.isLt
  have h0 : BitVec.ofNat 8 ((s.mb n).rev.toNat + 0x300) = (s.mb n).rev := BitVec.eq_of_toNat_eq (by simp; omega)
  have h1 : ((s.mb n).rev.toNat + 0x300) / 256 = 3 := by omega
  have h2 : ((s.mb n).rev.toNat + 0x300) / 65536 = 0 := by omega
  have h3 : ((s.mb n).rev.toNat + 0x300) / 16777216 = 0 := by omega
  simp [List.range_succ, State.mbxByte_mbxRev, Nat.shiftRight_eq_div_pow, h0, h1, h2, h3]

theorem State.fieldProgram_select (s : State) (n : Fin 128) (v : Nat) :
    s.fieldProgram n 0x0004 v =
      if v % 256 = 1 ∨ v % 256 = 2 then s.modMbx n fun b => { b with rev := BitVec.ofNat 8 v } else s.mbxIgnored n := by
  have hw : s.fieldWrite n 0x0004 v = s.mbxSelectW n v := rfl
  by_cases hv : v % 256 = 1 ∨ v % 256 = 2
  · rw [State.fieldProgram_unlatched (by simp [hw, State.mbxSelectW, hv])]
    simp [hw, State.mbxSelectW, hv]
  · rw [State.fieldProgram_unlatched (by simp [hw, State.mbxSelectW, hv])]
    simp [hw, State.mbxSelectW, hv]

/-! ## What a release leaves of the mailbox (R44, R132) -/

theorem Frame.mb_eq {fs : List Field} {s t : State} (h : Frame fs s t) (hf : Field.mbx ∉ fs) (c : Fin 128) : t.mb c = s.mb c :=
  congrArg (fun m => vget m c) (h .mbx hf)

/-- An extension changes one measurement register of the mailbox. -/
theorem State.extend_mb (s : State) (n : Fin 128) (i : Fin 8) (type : Nat) (info : List Nat) (v : Digest) :
    (s.extend n i type info v).mb n =
      { s.mb n with meas := vmod (s.mb n).meas i fun d => Config.sha384 (d.toList ++ v.toList) } := by
  simp [State.extend]

theorem State.releaseMeas_rev (s : State) (n : Fin 128) (st : ChState) (cause : Cause) (old : Phase) :
    ((s.releaseMeas n st cause old).mb n).rev = (s.mb n).rev := by
  unfold State.releaseMeas
  dsimp only
  split <;> simp [State.extend_mb]

theorem State.newWindow_mb (s : State) (n c : Fin 128) : (s.newWindow n).mb c = s.mb c :=
  (State.newWindow_frame (Frame.refl _ s) (Field.sub_refl _)).mb_eq (by decide) c

theorem State.publish_mb (s : State) (n c : Fin 128) : (s.publish n).mb c = s.mb c :=
  (State.publish_frame (Frame.refl _ s) (Field.sub_refl _)).mb_eq (by decide) c

/-- Arming inside a release extends no measurement register: the release extends MEAS2 itself. -/
theorem State.arm_inRelease_mb (s : State) (n c : Fin 128) : (s.arm n true).mb c = s.mb c := by
  simp [State.arm, State.publish_mb]

theorem State.releaseWdg_mb (s : State) (n c : Fin 128) : (s.releaseWdg n).mb c = s.mb c := by
  unfold State.releaseWdg
  dsimp only
  split
  · rw [State.publish_mb, State.newWindow_mb, State.modWdg_mb]
  · split
    · rw [State.newWindow_mb, State.arm_inRelease_mb, State.modWdg_mb]
    · rw [State.modWdg_mb]

theorem State.release_rev (s : State) (n : Fin 128) : ((s.release n).mb n).rev = 1 := by
  unfold State.release
  dsimp only
  rw [Frame.mb_eq (State.answerAll_frame (Frame.refl _ _) (Field.sub_refl _)) (by decide), State.releaseMeas_rev, State.releaseWdg_mb,
    Frame.mb_eq (State.releaseProof_frame (Frame.refl _ _) (Field.sub_refl _)) (by decide), State.modMbx_mb]
  rfl

/-- A release instant that releases a channel is the release of R132. -/
theorem release_of_releaseInstant {s t : State} {n : Fin 128} (h : exec (.releaseInstant n) s = .next t)
    (hs : (s.ch n).released = false) (ht : (t.ch n).released = true) : t = (s.until (s.releaseDue n)).release n := by
  rw [exec_releaseInstant] at h
  unfold execReleaseInstant at h
  dsimp only at h
  split at h
  · exact (Host.Outcome.next.inj h).symm
  · cases h
    rw [hs] at ht
    cases ht

/-! ## The end of phase BOOT (R46, R53) -/

theorem State.setPhase_phase (s : State) (n : Fin 128) (p : Phase) : ((s.setPhase n p).st n).phase = p := by
  unfold State.setPhase
  dsimp only
  split
  · assumption
  · split <;> simp [State.closeCdi]

/-- A change of phase leaves BOOT_DONE and the latched writes of the mailbox. -/
theorem State.setPhase_mb (s : State) (n : Fin 128) (p : Phase) :
    ((s.setPhase n p).mb n).bootDone = (s.mb n).bootDone ∧ ((s.setPhase n p).mb n).latched = (s.mb n).latched := by
  unfold State.setPhase
  dsimp only
  split
  · exact ⟨rfl, rfl⟩
  · split <;> simp [State.closeCdi, State.extend_mb]

theorem State.setPhase_now (s : State) (n : Fin 128) (p : Phase) : (s.setPhase n p).now = s.now :=
  State.setPhase_frame (Frame.refl _ s) (Field.sub_refl _) .now (by decide)

theorem State.setPhase_port (s : State) (n c : Fin 128) (p : Phase) : (s.setPhase n p).port c = s.port c :=
  congrArg (fun v => vget v c) (State.setPhase_frame (Frame.refl _ s) (Field.sub_refl _) .ports (by decide))

/-- What BOOT_DONE = 1 leaves of the mailbox, the phase and the port. -/
theorem State.bootDoneW_one (s : State) (n : Fin 128) :
    ((s.bootDoneW n 1).1.mb n).bootDone = true ∧ ((s.bootDoneW n 1).1.mb n).latched = (s.mb n).latched ∧
    ((s.bootDoneW n 1).1.st n).phase = (if (s.st n).phase = .boot then Phase.run else (s.st n).phase) ∧
    (s.bootDoneW n 1).1.port n = s.port n := by
  by_cases hb : (s.st n).phase = .boot
  · simp [State.bootDoneW, hb, State.setPhase_mb, State.setPhase_phase, State.setPhase_port]
  · simp [State.bootDoneW, hb]

theorem State.fieldProgram_bootDone (s : State) (n : Fin 128) (v : Nat) :
    s.fieldProgram n 0x0100 v = if v = 1 then (s.bootDoneW n 1).1 else s.mbxIgnored n := by
  have hw : s.fieldWrite n 0x0100 v = s.bootDoneW n v := rfl
  by_cases hv : v = 1
  · subst hv
    obtain ⟨-, hlatched, -⟩ := s.bootDoneW_one n
    rw [State.fieldProgram_unlatched (by rw [hw, hlatched]), hw]
    simp [State.bootDoneW]
  · rw [State.fieldProgram_unlatched (by simp [hw, State.bootDoneW, hv])]
    simp [hw, State.bootDoneW, hv]

end Sys2Proof.Machine
end

section
/-! CLAIMS. The statements of the chapter "Host channels and the virtual flash" on the host reset, the mailbox's revision and phase BOOT. -/

namespace Sys2Proof

open Sys2Proof.Machine

/-- Settles O15: RESET heard is `host_reset_armed` or `host_reset_unarmed`, and both ways in end in `HostPort.hostReset`. -/
theorem hostResetRestoresDefaults : Obligations.HostResetRestoresDefaults := by
  intro s n low
  refine ⟨?byCommand, ?unarmed, ?byPin, ?silent, ?recovered⟩
  case byCommand =>
    intro hh ha
    rw [exec_reset, State.host_reset_armed hh ha]
    rfl
  case unarmed =>
    intro hh ha
    rw [exec_reset, State.host_reset_unarmed hh ha]
  case byPin =>
    intro hrun hrel hpg hon
    rw [exec_hostRstPulse]
    simp only [execHostRstPulse, hrun, hrel, hpg, hon, usec, and_true]
    rfl
  case silent =>
    refine State.decodes_of_resetEnd (e := s.now + 30000) ?_ (by simp)
    rw [State.modPort_port]
  case recovered =>
    intro e he
    rw [exec_hostResetRecovered]
    simp only [execHostResetRecovered, he]
    rfl

/-- Settles O23: MBX_SELECT comes to the write of its field, and `release_rev` says what a release leaves. -/
theorem mailboxRevisionIsSelected : Obligations.MailboxRevisionIsSelected := by
  intro s n v
  refine ⟨s.mbxRev_bytes n, fun h => ?select, fun t h hs ht => ?release⟩
  case select =>
    rw [exec_mbxSelect, State.mbxPage_word v h (.inl rfl), State.fieldProgram_select]
    split <;> rw [State.keepCs_high (by simp)]
  case release => rw [release_of_releaseInstant h hs ht, State.release_rev]

/-- Settles O24: BOOT_DONE comes to the write of its field, and both ways out of BOOT are `setPhase` to RUN. -/
theorem bootEndsByWriteOrTimeout : Obligations.BootEndsByWriteOrTimeout := by
  intro s n v
  refine ⟨fun h => ⟨fun hv => ?done, fun hv => ?ignored⟩, fun hb => ?expired, fun hb => ?idle⟩
  case done =>
    obtain ⟨hdone, -, hphase, hport⟩ := (s.mbxTaken n).bootDoneW_one n
    have hexec : exec (.bootDone n v) s = .next ((s.mbxTaken n).bootDoneW n 1).1 := by
      rw [exec_bootDone, State.mbxPage_word v h (.inr (.inl rfl)), State.fieldProgram_bootDone, if_pos (by rw [hv]; rfl),
        State.keepCs_high (by rw [hport, State.mbxTaken_burstOpen])]
    refine ⟨_, hexec, hdone, ?_, by rw [hport, State.mbxTaken_ignored]⟩
    rw [hphase, State.mbxTaken_st]
  case ignored =>
    have hv' : v.toNat ≠ 1 := fun e => hv (BitVec.eq_of_toNat_eq e)
    rw [exec_bootDone, State.mbxPage_word v h (.inr (.inl rfl)), State.fieldProgram_bootDone, if_neg hv', State.keepCs_high (by simp)]
  case expired =>
    refine ⟨_, by rw [exec_bootTmoExpiry, if_pos hb], ?_, ?_, ?_⟩
    · simp [State.setPhase_phase]
    · simp
    · rw [State.modStn_now, State.setPhase_now]
      rfl
  case idle => rw [exec_bootTmoExpiry, if_neg hb]

end Sys2Proof
end


section
/-! SUPPORT. Every command completes, and changes only the parts that `Instr.touches` lists for it: chapter by chapter from the frames of the
shared operations, and from these for the register writes that act as another row. Then: what a host command other than a program leaves. -/

namespace Sys2Proof.Machine

open Sys2Proof

/-! ## Host commands other than PAGE PROGRAM -/

/-- The parts that a host command other than PAGE PROGRAM may change. -/
abbrev Field.hostParts : List Field :=
  [.ports, .mbx, .stn, .ctl, .wdg, .areas, .fps, .imm, .fca, .plat, .trace, .spdm, .rings, .views, .awaits, .dev]

/-- In the mailbox window only a program reaches the mailbox's fields. -/
theorem State.mailboxCmd_frame_unprogrammed {s₀ s : State} {n : Fin 128} {c : HostCmd} {a : Nat} (h : Frame Field.hostParts s₀ s)
    (hp : arrayClass c.op ≠ .program) : Frame Field.hostParts s₀ (s.mailboxCmd n c a) := by
  refine Frame.comp h ?_ (Field.sub_refl _)
  unfold State.mailboxCmd
  dsimp -proj only
  repeat' (with_reducible first
    | apply Frame.refl | apply State.shortRead_frame | apply State.serveBurst_frame
    | apply State.undecoded_frame | apply State.modPort_frame | apply State.ownOp_frame | exact absurd ‹_› hp | decide | intro _ | split)

theorem State.decodeCmd_frame_unprogrammed {s₀ s : State} {n : Fin 128} {c : HostCmd} (h : Frame Field.hostParts s₀ s)
    (hp : arrayClass c.op ≠ .program) : Frame Field.hostParts s₀ (s.decodeCmd n c) := by
  refine Frame.comp h ?_ (Field.sub_refl _)
  unfold State.decodeCmd
  extract_lets p io t ph r form frameOp space u
  have hu : Frame Field.hostParts s u := by
    simp only [u]
    split
    · exact State.modPort_frame (Frame.refl _ _) (by decide)
    · exact Frame.refl _ _
  clear_value u
  split
  · exact State.judgeCmd_frame hu (by decide)
  · split
    · split
      · exact State.mailboxCmd_frame_unprogrammed hu hp
      · exact State.judgeCmd_frame hu (by decide)
    · exact State.judgeCmd_frame hu (by decide)

theorem State.host_frame_unprogrammed {s : State} {n : Fin 128} {c : HostCmd} (hp : arrayClass c.op ≠ .program) :
    Frame Field.hostParts s (s.host n c) := by
  unfold State.host
  dsimp -proj only
  repeat' (with_reducible first
    | apply Frame.refl | exact hp | apply State.decodeCmd_frame_unprogrammed | apply State.reply_frame
    | apply State.csRise_frame | apply State.undecoded_frame | apply State.modPort_frame | decide | intro _ | split)

/-! ## The chapters -/

theorem exec_frame_host {c : Instr} (s : State) (h : c.chapter = .host) : ∃ t, exec c s = .next t ∧ Frame c.touches s t := by
  cases c
  all_goals first | exact Chapter.noConfusion h | refine ⟨_, rfl, ?_⟩
  case read | fastRead | quadOutputRead | quadIoRead | octalDdrRead | readStatus | readFlagStatus | clearFlagStatus | readId |
      readSfdp | readConfig | writeConfig | writeEnable | writeDisable | writeStatus | erase4Kib | erase64Kib |
      enter4ByteAddress | exit4ByteAddress | resetEnable | reset | deepPowerDown | releaseFromDeepPowerDown =>
    exact State.host_frame_unprogrammed (by simp only [HostCmd.bare, readCmd, regCmd]; first | decide | (split <;> decide))
  case chipErase => exact State.host_frame_unprogrammed (by simp only [HostCmd.bare]; split <;> decide)
  all_goals dsimp -proj only [Instr.touches]
  all_goals repeat' (with_reducible first
    | apply Frame.refl | decide | apply State.csRise_frame | apply State.endLines_frame | apply State.hold_frame | apply State.host_frame
    | apply State.modCtl_frame | apply State.modPort_frame | apply State.powerCycle_frame | apply State.raise_frame
    | apply State.resumeHeld_frame | apply State.startTaking_frame | apply State.undecoded_frame | apply State.until_frame | intro _
    | split)

theorem exec_frame_mailbox {c : Instr} (s : State) (h : c.chapter = .mailbox) : ∃ t, exec c s = .next t ∧ Frame c.touches s t := by
  cases c
  all_goals first | exact Chapter.noConfusion h | refine ⟨_, rfl, ?_⟩
  all_goals dsimp -proj only [Instr.touches]
  all_goals repeat' (with_reducible first
    | apply Frame.refl | decide | apply State.beginArm_frame | apply State.commitStaged_frame | apply State.endSession_frame
    | apply State.localDone_frame | apply State.mbxPage_frame | apply State.modMbx_frame | apply State.modPlt_frame
    | apply State.modStn_frame | apply State.setPhase_frame | apply State.storePool_frame | apply State.until_frame
    | apply State.verifyFailed_frame | intro _ | split)

theorem exec_frame_stencil {c : Instr} (s : State) (h : c.chapter = .stencil) : ∃ t, exec c s = .next t ∧ Frame c.touches s t := by
  cases c
  all_goals first | exact Chapter.noConfusion h | refine ⟨_, rfl, ?_⟩
  all_goals dsimp -proj only [Instr.touches]
  all_goals repeat' (with_reducible first
    | apply Frame.refl | decide | apply State.commitSlot_frame | apply State.discardShadow_frame | apply State.endDiscovery_frame
    | apply State.endForwarded_frame | apply State.enterPhase_frame | apply State.exitPhase_frame | apply State.ignoredWrite_frame
    | apply State.modFp_frame | apply State.modStn_frame | apply State.regW_frame | apply State.reqResult_frame
    | apply State.shdResult_frame | apply State.start_frame | apply State.startDiscovery_frame | apply State.until_frame | intro _
    | split)

theorem exec_frame_image {c : Instr} (s : State) (h : c.chapter = .image) : ∃ t, exec c s = .next t ∧ Frame c.touches s t := by
  cases c
  all_goals first | exact Chapter.noConfusion h | refine ⟨_, rfl, ?_⟩
  all_goals dsimp -proj only [Instr.touches]
  all_goals repeat' (with_reducible first
    | apply Frame.refl | decide | apply State.areasLost_frame | apply State.damage_frame | apply State.dropLeaf_frame
    | apply State.evictFor_frame | apply State.evictForLayout_frame | apply State.forAll_frame | apply State.holdBound_frame
    | apply State.ignoredWrite_frame | apply State.katFailed_frame | apply State.laneOut_frame | apply State.lanesCorrected_frame
    | apply State.log_frame | apply State.modAreas_frame | apply State.modDir_frame | apply State.modFarm_frame
    | apply State.modPlt_frame | apply State.modPool_frame | apply State.modPoolAll_frame | apply State.objectBad_frame
    | apply State.patrolStep_frame | apply State.pipeBack_frame | apply State.pipeOut_frame | apply State.plateBad_frame
    | apply State.poolDo_frame | apply State.poolOut_frame | apply State.raise_frame | apply State.reachHold_frame
    | apply State.regW_frame | apply State.resume_frame | apply State.resumeEntry_frame | apply State.retakeTaking_frame
    | apply State.switchCopy_frame | apply State.takeFails_frame | apply State.takeRebuilt_frame | apply State.unitBack_frame
    | apply State.unitOut_frame | intro _ | split | apply Frame.put_clk | apply Frame.put_fca | apply Frame.put_imm)

theorem exec_frame_control {c : Instr} (s : State) (h : c.chapter = .control) : ∃ t, exec c s = .next t ∧ Frame c.touches s t := by
  cases c
  all_goals first | exact Chapter.noConfusion h | refine ⟨_, rfl, ?_⟩
  all_goals dsimp -proj only [Instr.touches]
  all_goals repeat' (with_reducible first
    | apply Frame.refl | decide | apply State.becomeReady_frame | apply State.deliver_frame | apply State.endLines_frame
    | apply State.forAll_frame | apply State.forChans_frame | apply State.hold_frame | apply State.ignoredWrite_frame
    | apply State.modCtl_frame | apply State.modLine_frame | apply State.order_frame | apply State.ovdel_frame
    | apply State.powerStep3_frame | apply State.proofFails_frame | apply State.raise_frame | apply State.regOrder_frame
    | apply State.regW_frame | apply State.release_frame | apply State.requestPulse_frame | apply State.requestRelease_frame
    | apply State.revertFw_frame | apply State.select_frame | apply State.selftestAccept_frame | apply State.until_frame
    | apply State.withChan_frame | intro _ | split | apply Frame.put_plat)

theorem exec_frame_watchdog {c : Instr} (s : State) (h : c.chapter = .watchdog) : ∃ t, exec c s = .next t ∧ Frame c.touches s t := by
  cases c
  all_goals first | exact Chapter.noConfusion h | refine ⟨_, rfl, ?_⟩
  all_goals dsimp -proj only [Instr.touches]
  all_goals repeat' (with_reducible first
    | apply Frame.refl | decide | apply State.applyDeferred_frame | apply State.armByWrite_frame | apply State.assertFail_frame
    | apply State.clearConsec_frame | apply State.completeAdvances_frame | apply State.coreOut_frame | apply State.countInternal_frame
    | apply State.dispatchJobs_frame | apply State.endOtp_frame | apply State.expire_frame | apply State.flushLedger_frame
    | apply State.forAll_frame | apply State.forChans_frame | apply State.ignoredWrite_frame | apply State.internalExpiry_frame
    | apply State.log_frame | apply State.modMbx_frame | apply State.modMwd_frame | apply State.modRing_frame | apply State.modWdg_frame
    | apply State.mwdArm_frame | apply State.mwdExpire_frame | apply State.mwdService_frame | apply State.noteStep_frame
    | apply State.processLatched_frame | apply State.raise_frame | apply State.regW_frame | apply State.resumeCommits_frame
    | apply State.resumeHeld_frame | apply State.resumeMain_frame | apply State.setDev_frame | apply State.settleAll_frame
    | apply State.until_frame | apply State.waitedOrders_frame | apply State.wakeIfLost_frame | apply State.wakeUp_frame
    | apply State.warmInto_frame | intro _ | split | apply Frame.put_dev | apply Frame.put_devfw | apply Frame.put_intw
    | apply Frame.put_plat)

theorem exec_frame_attest {c : Instr} (s : State) (h : c.chapter = .attest) : ∃ t, exec c s = .next t ∧ Frame c.touches s t := by
  cases c
  all_goals first | exact Chapter.noConfusion h | refine ⟨_, rfl, ?_⟩
  all_goals dsimp -proj only [Instr.touches]
  all_goals repeat' (with_reducible first
    | apply Frame.refl | decide | apply State.attExt_frame | apply State.countMessage_frame | apply State.deliver_frame
    | apply State.finish_frame | apply State.i3cRefused_frame | apply State.log_frame | apply State.mctpAnswer_frame
    | apply State.mctpExecute_frame | apply State.modEp_frame | apply State.modI3c_frame | apply State.ovdel_frame
    | apply State.readTrace_frame | apply State.regW_frame | apply State.spdmFull_frame | apply State.spdmIn_frame
    | apply State.spdmLarge_frame | apply State.spdmReq_frame | apply State.spdmSay_frame | apply State.spdmSigned_frame
    | apply State.takeQuote_frame | apply State.until_frame | apply State.writeRecord_frame | intro _ | split | apply Frame.put_att)

theorem exec_frame_engine {c : Instr} (s : State) (h : c.chapter = .engine) : ∃ t, exec c s = .next t ∧ Frame c.touches s t := by
  cases c
  all_goals first | exact Chapter.noConfusion h | refine ⟨_, rfl, ?_⟩
  all_goals dsimp -proj only [Instr.touches]
  all_goals repeat' (with_reducible first
    | apply Frame.refl | decide | apply State.coreFaulted_frame | apply State.coreOut_frame | apply State.deliver_frame
    | apply State.dispatchJobs_frame | apply State.draw_frame | apply State.entropyFail_frame | apply State.entropyTest_frame
    | apply State.finish_frame | apply State.finishJob_frame | apply State.ignoredWrite_frame | apply State.jobDraws_frame
    | apply State.jobOutput_frame | apply State.modCore_frame | apply State.modHash_frame | apply State.modSlot_frame
    | apply State.ovdel_frame | apply State.regW_frame | apply State.toBuffer_frame | apply State.unitBack_frame
    | apply State.until_frame | intro _ | split | apply Frame.put_burin | apply Frame.put_drbg)

theorem exec_frame_ring {c : Instr} (s : State) (h : c.chapter = .ring) : ∃ t, exec c s = .next t ∧ Frame c.touches s t := by
  cases c
  all_goals first | exact Chapter.noConfusion h | refine ⟨_, rfl, ?_⟩
  all_goals dsimp -proj only [Instr.touches]
  all_goals repeat' (with_reducible first
    | apply Frame.refl | decide | apply State.abortSq_frame | apply State.consume_frame | apply State.consumeFast_frame
    | apply State.deliver_frame | apply State.disableHalf_frame | apply State.dmaFailed_frame | apply State.fetchFault_frame
    | apply State.getLogAns_frame | apply State.holdSq_frame | apply State.modAttView_frame | apply State.modHash_frame
    | apply State.modMwd_frame | apply State.modRing_frame | apply State.modView_frame | apply State.msix_frame | apply State.ovdel_frame
    | apply State.postToHost_frame | apply State.putCq_frame | apply State.putSq_frame | apply State.queueFault_frame
    | apply State.reapSq_frame | apply State.regW_frame | apply State.release_frame | apply State.reqResult_frame
    | apply State.ringDmaFailed_frame | apply State.served_frame | apply State.start_frame | apply State.stopCommand_frame
    | apply State.until_frame | apply State.wait_frame | intro _ | split | apply Frame.put_stn_ctl_plat_hdrs)

theorem exec_frame_plate {c : Instr} (s : State) (h : c.chapter = .plate) : ∃ t, exec c s = .next t ∧ Frame c.touches s t := by
  cases c
  all_goals first | exact Chapter.noConfusion h | refine ⟨_, rfl, ?_⟩
  all_goals dsimp -proj only [Instr.touches]
  all_goals repeat' (with_reducible first
    | apply Frame.refl | decide | apply State.acceptFw_frame | apply State.arm_frame | apply State.beginArm_frame
    | apply State.beginStaging_frame | apply State.commitFwMin_frame | apply State.commitMin_frame | apply State.commitVerified_frame
    | apply State.deliver_frame | apply State.erasePlate_frame | apply State.fwCommit_frame | apply State.fwStage_frame
    | apply State.internalJob_frame | apply State.ovdel_frame | apply State.revertBelow_frame | apply State.stagePart_frame
    | apply State.verifyFailed_frame | apply State.wait_frame | apply State.withChan_frame | apply State.withPlate_frame | intro _
    | split)

theorem exec_frame_policy {c : Instr} (s : State) (h : c.chapter = .policy) : ∃ t, exec c s = .next t ∧ Frame c.touches s t := by
  cases c
  all_goals first | exact Chapter.noConfusion h | refine ⟨_, rfl, ?_⟩
  all_goals dsimp -proj only [Instr.touches]
  all_goals repeat' (with_reducible first
    | apply Frame.refl | decide | apply State.applySections_frame | apply State.commitConfig_frame | apply State.commitPolicy_frame
    | apply State.deliver_frame | apply State.internalJob_frame | apply State.log_frame | apply State.ovdel_frame
    | apply State.raise_frame | apply State.tighten_frame | apply State.withChan_frame | intro _ | split)

theorem exec_frame_key {c : Instr} (s : State) (h : c.chapter = .key) : ∃ t, exec c s = .next t ∧ Frame c.touches s t := by
  cases c
  all_goals first | exact Chapter.noConfusion h | refine ⟨_, rfl, ?_⟩
  all_goals dsimp -proj only [Instr.touches]
  all_goals repeat' (with_reducible first
    | apply Frame.refl | decide | apply State.burnish_frame | apply State.deliver_frame | apply State.drawGeneral_frame
    | apply State.endPulses_frame | apply State.finalise_frame | apply State.internalJob_frame | apply State.keyUpdate_frame
    | apply State.lifecycleChanged_frame | apply State.noteKeyUpdate_frame | apply State.otpCommand_frame | apply State.ovdel_frame
    | apply State.ovdelOr_frame | apply State.refuseOtp_frame | apply State.regW_frame | apply State.tmpClear_frame
    | apply State.tmpRearm_frame | apply State.trip_frame | intro _ | split | apply Frame.put_otp | apply Frame.put_tamper)

theorem exec_frame_power {c : Instr} (s : State) (h : c.chapter = .power) : ∃ t, exec c s = .next t ∧ Frame c.touches s t := by
  cases c
  all_goals first | exact Chapter.noConfusion h | refine ⟨_, rfl, ?_⟩
  all_goals dsimp -proj only [Instr.touches]
  all_goals repeat' (with_reducible first
    | apply Frame.refl | decide | apply State.coldReset_frame | apply State.enterInhibit_frame | apply State.enterStandby_frame
    | apply State.flushLedger_frame | apply State.flushPool_frame | apply State.forAll_frame | apply State.forChans_frame
    | apply State.modCtl_frame | apply State.modI3c_frame | apply State.modPort_frame | apply State.modView_frame
    | apply State.poolDo_frame | apply State.poolOut_frame | apply State.raise_frame | apply State.resumeCommits_frame
    | apply State.resumeStandby_frame | apply State.revert_frame | apply State.setDev_frame | apply State.settleAll_frame
    | apply State.spdmSay_frame | apply State.start_frame | apply State.startTaking_frame | apply State.until_frame
    | apply State.wake_frame | apply State.wakeUp_frame | intro _ | split | apply Frame.put_clk | apply Frame.put_intw
    | apply Frame.put_plat | apply Frame.put_power)

/-! ## Register writes by offset -/

theorem exec_frame_unpaged {c : Instr} (s : State) (h : c.chapter ≠ .page) : ∃ t, exec c s = .next t ∧ Frame c.touches s t := by
  cases hc : c.chapter with
  | host => exact exec_frame_host s hc
  | mailbox => exact exec_frame_mailbox s hc
  | stencil => exact exec_frame_stencil s hc
  | image => exact exec_frame_image s hc
  | control => exact exec_frame_control s hc
  | watchdog => exact exec_frame_watchdog s hc
  | attest => exact exec_frame_attest s hc
  | engine => exact exec_frame_engine s hc
  | ring => exact exec_frame_ring s hc
  | plate => exact exec_frame_plate s hc
  | policy => exact exec_frame_policy s hc
  | key => exact exec_frame_key s hc
  | page => exact absurd hc h
  | power => exact exec_frame_power s hc

/-- The parts that a register write may change. -/
abbrev Field.pageParts : List Field :=
  [.ports, .mbx, .stn, .ctl, .plt, .wdg, .areas, .fps, .prof, .dcfg, .twl, .imm, .fca, .farm, .pool, .mins, .devfw, .plat, .mwd, .intw, .trace,
  .att, .spdm, .rings, .views, .awaits, .hdrs, .burin, .hash, .drbg, .drawn, .keys, .tamper, .otp, .power, .led, .dev]

/-- Those that it changes by itself, not as the row of another command does. -/
abbrev Field.pageOwn : List Field :=
  [.ports, .stn, .imm, .farm, .pool, .mwd, .att, .rings, .views, .hdrs, .keys, .tamper, .power]

/-- What a register write is made of: rows of other commands, changes of the pages' own parts, the end of a half's commands, the warm reset of
REARM, and the pump's selection. -/
inductive PageRun (s : State) : State → Prop
  | start : PageRun s s
  | row {t u : State} (c : Instr) (h : PageRun s t) (hc : c.chapter ≠ .page) (hr : ∀ n, c ≠ .releaseInstant n)
      (hs : Field.sub c.touches Field.pageParts = true) (hu : exec c t = .next u) : PageRun s u
  | own {t u : State} (h : PageRun s t) (hu : Frame Field.pageOwn t u) : PageRun s u
  | disable {t : State} (m : Mgr) (h : PageRun s t) : PageRun s (t.disableHalf m)
  | rearm {t : State} (h : PageRun s t) : PageRun s (t.warmReset none)
  | pump {t : State} (on : Bool) (h : PageRun s t) : PageRun s { t with otp := { t.otp with pumpOnly := on } }

theorem PageRun.of_own {s t : State} (h : Frame Field.pageOwn s t) : PageRun s t := .own .start h

theorem PageRun.ignored {s t : State} {m : Mgr} {off : Nat} (h : PageRun s t) : PageRun s (t.ignoredWrite m off) :=
  .own h (State.ignoredWrite_frame (Frame.refl _ _) (by decide))

/-- A register write that acts as the row of command c. -/
theorem PageRun.as_row {s t : State} {f : State → Out} (c : Instr) (hf : f t = exec c t) (h : PageRun s t) (hc : c.chapter ≠ .page)
    (hr : ∀ n, c ≠ .releaseInstant n) (hs : Field.sub c.touches Field.pageParts = true) : PageRun s (t.after f) := by
  obtain ⟨u, hu, -⟩ := exec_frame_unpaged t hc
  rw [State.after, hf, hu]
  exact .row c h hc hr hs hu

theorem State.shdWrite_run {s : State} {m : Mgr} {off : Nat} {a : Area} {v : Word} : PageRun s (s.shdWrite m off a v) := by
  unfold State.shdWrite
  split
  · split
    · exact .ignored .start
    · split
      · exact .of_own (State.requestCommit_frame (Frame.refl _ _) (by decide))
      · split
        · exact .as_row (.shdDiscard m _) rfl .start nofun nofun rfl
        · exact .start
  all_goals
    split
    · exact .ignored .start
    · exact .start

theorem State.headerWrite_run {s : State} {m : Mgr} {off : Nat} {a : Area} {o : Nat} {v : Word} : PageRun s (s.headerWrite m off a o v) := by
  unfold State.headerWrite
  split
  · exact .of_own (State.onHdr_frame (Frame.refl _ _) (by decide))
  · exact .of_own (State.onHdr_frame (Frame.refl _ _) (by decide))
  · exact .of_own (State.irqClear_frame (Frame.refl _ _) (by decide))
  · exact State.shdWrite_run
  · exact .of_own (State.lockWritten_frame (Frame.refl _ _) (by decide))
  · exact .of_own (State.errClear_frame (Frame.refl _ _) (by decide))
  · exact .ignored .start

theorem State.attWrite_run {s : State} {m : Mgr} {off o : Nat} {v : Word} : PageRun s (s.attWrite m off o v) := by
  unfold State.attWrite
  split
  · exact .of_own (State.holdLow_frame (Frame.refl _ _) (by decide))
  · exact .as_row (.attWallWrite m v none) rfl .start nofun nofun rfl
  · exact .as_row (.attExtGo m ⟨v, none, []⟩) rfl .start nofun nofun rfl
  · exact .of_own (State.modAttView_frame (Frame.refl _ _) (by decide))
  · split
    · exact .of_own (State.modAttView_frame (Frame.refl _ _) (by decide))
    · exact .ignored .start

theorem State.mwdWrite_run {s : State} {m : Mgr} {off o : Nat} {v : Word} : PageRun s (s.mwdWrite m off o v) := by
  unfold State.mwdWrite
  split
  · exact .as_row (.mwdCfgWrite m v) rfl .start nofun nofun rfl
  · exact .as_row (.mwdWinWrite m v) rfl .start nofun nofun rfl
  · exact .of_own (State.modMwd_frame (Frame.refl _ _) (by decide))
  · exact .as_row (.mwdToken m v) rfl .start nofun nofun rfl
  · split
    · exact .as_row (.mwdCntclr m) rfl .start nofun nofun rfl
    · exact .start
  · exact .ignored .start

theorem State.burWrite_run {s : State} {m : Mgr} {k : Fin 4} {off o : Nat} {v : Word} : PageRun s (s.burWrite m k off o v) := by
  unfold State.burWrite
  dsimp only
  have hout {u : State} (hu : PageRun s u) : PageRun s (u.after (execBurTakeOut m k)) := .as_row (.burTakeOut m k) rfl hu nofun nofun rfl
  have hback {u : State} (hu : PageRun s u) : PageRun s (u.after (execBurReturn m k)) := .as_row (.burReturn m k) rfl hu nofun nofun rfl
  have hclr {u : State} (hu : PageRun s u) : PageRun s (u.after (execBurCntclr m k)) := .as_row (.burCntclr m k) rfl hu nofun nofun rfl
  split
  · exact .ignored .start
  · repeat' (with_reducible first | apply hout | apply hback | apply hclr | exact .start | split)

theorem State.immWrite_run {s : State} {m : Mgr} {off o : Nat} {v : Word} : PageRun s (s.immWrite m off o v) := by
  unfold State.immWrite
  split
  · exact .as_row (.patrolPause m v) rfl .start nofun nofun rfl
  · exact .of_own (Frame.put_imm (Frame.refl _ _) (by decide))
  · exact .of_own (Frame.put_imm (Frame.refl _ _) (by decide))
  · exact .ignored .start

theorem State.fcaWrite_run {s : State} {m : Mgr} {off o : Nat} {v : Word} : PageRun s (s.fcaWrite m off o v) := by
  unfold State.fcaWrite
  dsimp only
  have hflush {u : State} (hu : PageRun s u) : PageRun s (u.after (execFcaFlush m)) := .as_row (.fcaFlush m) rfl hu nofun nofun rfl
  have hclr {u : State} (hu : PageRun s u) : PageRun s (u.after (execFcaCntclr m)) := .as_row (.fcaCntclr m) rfl hu nofun nofun rfl
  split
  · exact .ignored .start
  · repeat' (with_reducible first | apply hflush | apply hclr | exact .start | split)

theorem State.ctlWrite_run {s : State} {m : Mgr} {n : Fin 128} {off o : Nat} {v : Word} : PageRun s (s.ctlWrite m n off o v) := by
  unfold State.ctlWrite
  split
  · exact .ignored .start
  · split
    · exact .as_row (.ctlOrderHold m n none) rfl .start nofun nofun rfl
    · exact .as_row (.ctlOrderRelease m n ⟨none, false⟩) rfl .start nofun nofun rfl
    · exact .as_row (.ctlOrderQuarantine m n none) rfl .start nofun nofun rfl
    · exact .as_row (.ctlOrderReadmit m n none) rfl .start nofun nofun rfl
    · exact .as_row (.ctlOrderRestart m n none) rfl .start nofun nofun rfl
    · exact .ignored .start

theorem State.stnCntclr_frame {s : State} {m : Mgr} {n : Fin 128} {v : Word} : Frame Field.pageOwn s (s.after (execStnCntclr m n v)) := by
  refine State.after_frame (Frame.refl _ _) fun t ht => ?_
  obtain rfl := Host.Outcome.next.inj ht
  refine State.regW_frame (Frame.refl _ _) (by decide) fun u => ?_
  split
  · exact State.modStn_frame (Frame.refl _ _) (by decide)
  · exact Frame.refl _ _

theorem State.stnWrite_run {s : State} {m : Mgr} {n : Fin 128} {off o : Nat} {v : Word} : PageRun s (s.stnWrite m n off o v) := by
  unfold State.stnWrite
  split
  · exact .of_own (State.shadowWrite_frame (Frame.refl _ _) (by decide))
  · split
    · split
      · exact .as_row (.enterRecovery m n false) rfl .start nofun nofun rfl
      · exact .as_row (.exitRecovery m n false) rfl .start nofun nofun rfl
      · exact .ignored .start
    · exact .of_own State.stnCntclr_frame
    · exact .ignored .start

theorem State.wdgWrite_run {s : State} {m : Mgr} {n : Fin 128} {off o : Nat} {v : Word} : PageRun s (s.wdgWrite m n off o v) := by
  unfold State.wdgWrite
  dsimp only
  have hcfg {u : State} (hu : PageRun s u) : PageRun s (u.after (execWdgCfgWrite m n v)) := .as_row (.wdgCfgWrite m n v) rfl hu nofun nofun rfl
  have hwin {u : State} (hu : PageRun s u) : PageRun s (u.after (execWdgWinWrite m n v)) := .as_row (.wdgWinWrite m n v) rfl hu nofun nofun rfl
  have hfreeze {u : State} (hu : PageRun s u) : PageRun s (u.after (execWdgFreeze m n)) := .as_row (.wdgFreeze m n) rfl hu nofun nofun rfl
  have hthaw {u : State} (hu : PageRun s u) : PageRun s (u.after (execWdgThaw m n)) := .as_row (.wdgThaw m n) rfl hu nofun nofun rfl
  split
  · exact hcfg .start
  · exact hwin .start
  · repeat' (with_reducible first | apply hfreeze | apply hthaw | exact .start | split)
  · exact .ignored .start

theorem State.fpWrite_run {s : State} {m : Mgr} {f : Fin 64} {off o : Nat} {v : Word} : PageRun s (s.fpWrite m f off o v) := by
  unfold State.fpWrite
  dsimp only
  have hredo {u : State} (hu : PageRun s u) : PageRun s (u.after (execFpRediscover m f)) := .as_row (.fpRediscover m f) rfl hu nofun nofun rfl
  have herr {u : State} (hu : PageRun s u) : PageRun s (u.after (execFpErrclr m f)) := .as_row (.fpErrclr m f) rfl hu nofun nofun rfl
  split
  · exact .ignored .start
  · repeat' (with_reducible first | apply hredo | apply herr | exact .start | split)

theorem State.polWrite_run {s : State} {m : Mgr} {k : Fin 16} {off o : Nat} {v : Word} : PageRun s (s.polWrite m k off o v) := by
  unfold State.polWrite
  dsimp only
  have hout {u : State} (hu : PageRun s u) : PageRun s (u.after (execPolTakeOut m k)) := .as_row (.polTakeOut m k) rfl hu nofun nofun rfl
  split
  · exact .ignored .start
  · repeat' (with_reducible first | apply PageRun.ignored | apply hout | exact .start | split)

theorem State.tmpClear_frame_own {s : State} {m : Mgr} : Frame Field.pageOwn s (s.tmpClear m) :=
  State.tmpClear_frame (Frame.refl _ _) (by decide)

theorem State.tmpRearm_run {s t : State} {m : Mgr} (h : PageRun s t) : PageRun s (t.tmpRearm m) := by
  unfold State.tmpRearm
  split
  · exact .ignored h
  · exact .rearm h

theorem State.tmpWrite_run {s : State} {m : Mgr} {off o : Nat} {v : Word} : PageRun s (s.tmpWrite m off o v) := by
  have hclear {u : State} (hu : PageRun s u) : PageRun s (u.tmpClear m) := .own hu State.tmpClear_frame_own
  unfold State.tmpWrite
  dsimp only
  split
  · exact .ignored .start
  · repeat' (with_reducible first | apply hclear | apply State.tmpRearm_run | exact .start | split)

theorem State.rngWrite_run {s : State} {m : Mgr} {off o : Nat} {v : Word} : PageRun s (s.rngWrite m off o v) := by
  have ring {f : Ring → Ring} : PageRun s (s.modRing m f) := .of_own (State.modRing_frame (Frame.refl _ _) (by decide))
  have low {off : Nat} : PageRun s (s.holdLow m off v) := .of_own (State.holdLow_frame (Frame.refl _ _) (by decide))
  unfold State.rngWrite
  dsimp only
  repeat' first
    | exact ring
    | exact low
    | exact .ignored .start
    | exact .disable m .start
    | exact .start
    | split

theorem State.globalWrite_run {s : State} {m : Mgr} {k off o : Nat} {v : Word} : PageRun s (s.globalWrite m k off o v) := by
  unfold State.globalWrite
  split
  · exact .of_own (State.modView_frame (Frame.refl _ _) (by decide))
  · exact .of_own (State.pwrWrite_frame (Frame.refl _ _) (by decide))
  · exact .of_own (Frame.put_power (Frame.refl _ _) (by decide))
  · exact .pump _ .start
  · exact .of_own (Frame.put_keys (Frame.refl _ _) (by decide))
  · exact State.tmpWrite_run
  · exact State.rngWrite_run
  · exact .of_own (State.modRing_frame (Frame.refl _ _) (by decide))
  · split
    · exact .of_own (State.modRing_frame (Frame.refl _ _) (by decide))
    · exact .start
  · exact State.mwdWrite_run
  · exact .as_row (.twlForce m v) rfl .start nofun nofun rfl
  · exact .as_row (.twlPulse m v) rfl .start nofun nofun rfl
  · exact State.attWrite_run
  · exact .start
  · exact State.burWrite_run
  · exact State.burWrite_run
  · exact State.burWrite_run
  · exact State.burWrite_run
  · exact .of_own (Frame.put_farm (Frame.refl _ _) (by decide))
  · exact State.immWrite_run
  · exact State.fcaWrite_run
  · exact .of_own (Frame.put_pool (Frame.refl _ _) (by decide))
  · exact .ignored .start

theorem State.writeAt_run {s : State} {m : Mgr} {off : Nat} {v : Word} : PageRun s (s.writeAt m off v) := by
  unfold State.writeAt
  dsimp only
  split
  · exact .of_own (State.doorbellWrite_frame (Frame.refl _ _) (by decide))
  · exact .of_own (State.modView_frame (Frame.refl _ _) (by decide))
  · exact .start
  · split
    · exact State.headerWrite_run
    · split
      · exact State.ctlWrite_run
      · exact State.stnWrite_run
      · exact State.wdgWrite_run
      · exact .of_own (State.mbxWrite_frame (Frame.refl _ _) (by decide))
  · split
    · exact State.headerWrite_run
    · exact State.fpWrite_run
  · split
    · exact State.headerWrite_run
    · exact State.polWrite_run
  · split
    · exact State.headerWrite_run
    · exact State.globalWrite_run

theorem State.barWrite_run {s : State} {m : Mgr} {off : Nat} {v : Word} : PageRun s (s.barWrite m off v) := by
  unfold State.barWrite
  split
  · exact .of_own (State.badAccess_frame (Frame.refl _ _) (by decide))
  · split
    · exact State.writeAt_run
    · exact .of_own (State.countUnmapped_frame (Frame.refl _ _) (by decide))

theorem PageRun.frame {s t : State} (h : PageRun s t) : Frame Field.pageParts s t := by
  induction h with
  | start => exact Frame.refl _ _
  | row c _ hc _ hs hu ih =>
    obtain ⟨u, hu', hf⟩ := exec_frame_unpaged _ hc
    obtain rfl := Host.Outcome.next.inj (hu.symm.trans hu')
    exact Frame.comp ih hf hs
  | own _ hu ih => exact Frame.comp ih hu (by decide)
  | disable m _ ih => exact State.disableHalf_frame ih (by decide)
  | rearm _ ih => exact State.warmReset_frame ih (by decide)
  | pump on _ ih => exact Frame.put_otp ih (by decide)

/-- A register write at any offset of the page space, open or not. -/
theorem exec_registerWrite_run {m : Mgr} {off : Nat} {v : Word} {s t : State} (h : exec (.registerWrite m off v) s = .next t) :
    PageRun s t := by
  obtain rfl := Host.Outcome.next.inj h
  split
  · exact State.barWrite_run
  · exact .start

theorem exec_frame_page {c : Instr} (s : State) (h : c.chapter = .page) : ∃ t, exec c s = .next t ∧ Frame c.touches s t := by
  cases c
  all_goals first | exact Chapter.noConfusion h | refine ⟨_, rfl, ?_⟩
  case registerWrite m off v => exact (exec_registerWrite_run rfl).frame
  case evtLostclr m v =>
    dsimp -proj only [Instr.touches]
    refine State.regW_frame (Frame.refl _ _) (by decide) fun u => ?_
    change Frame _ u (if v.getLsbD 0 then u.modRing m fun r => { r with evtLost := 0 } else u)
    split
    · exact State.modRing_frame (Frame.refl _ _) (by decide)
    · exact Frame.refl _ _
  all_goals dsimp -proj only [Instr.touches]
  all_goals repeat' (with_reducible first
    | apply Frame.refl | decide | apply State.badAccess_frame | apply State.barRead_frame | apply State.countUnmapped_frame
    | apply State.errClear_frame | apply State.irqClear_frame | apply State.lockWritten_frame | apply State.mbxWrite_frame
    | apply State.modStn_frame | apply State.modView_frame | apply State.pwrWrite_frame | (apply State.regW_frame)
    | apply State.rngWrite_frame | intro _ | split)

/-- Every command completes, and changes only the parts listed for it. -/
theorem exec_frame (c : Instr) (s : State) : ∃ t, exec c s = .next t ∧ Frame c.touches s t :=
  if h : c.chapter = .page then exec_frame_page s h else exec_frame_unpaged s h

/-- What a command leaves keeps every part that is not listed for it. -/
theorem Frame.of_exec {c : Instr} {s t : State} (h : exec c s = .next t) : Frame c.touches s t := by
  obtain ⟨u, hu, hf⟩ := exec_frame c s
  obtain rfl := Host.Outcome.next.inj (h.symm.trans hu)
  exact hf

theorem pending_notMem_touches (c : Instr) : Field.pending ∉ c.touches := by
  unfold Instr.touches
  split <;> decide

end Sys2Proof.Machine

end

section
/-! SETTLED by the frames of all commands: that every command completes (O5), and the frames of the chapters (O10 to O12). -/

namespace Sys2Proof

open Sys2Proof.Machine

/-- Settles O5: every command completes, and the queue of waiting commands is no part that any command touches. -/
theorem everyCommandAnswersANextState : Obligations.EveryCommandAnswersANextState := by
  intro c s
  obtain ⟨t, ht, hf⟩ := exec_frame c s
  exact ⟨t, ht, hf .pending (pending_notMem_touches c)⟩

/-- Settles O10, by the frame of every command. -/
theorem hostSideCommandsKeepTheirFrame : Obligations.HostSideCommandsKeepTheirFrame := fun _ _ _ _ h => Frame.of_exec h

/-- Settles O11, by the frame of every command. -/
theorem controlCommandsKeepTheirFrame : Obligations.ControlCommandsKeepTheirFrame := fun _ _ _ _ h => Frame.of_exec h

/-- Settles O12, by the frame of every command. -/
theorem serviceCommandsKeepTheirFrame : Obligations.ServiceCommandsKeepTheirFrame := fun _ _ _ _ h => Frame.of_exec h

end Sys2Proof

end

section
/-! SETTLED: what belongs to another channel is left by a host's reads, register commands, erases and latches (O9). -/

namespace Sys2Proof.Machine

open Sys2Proof

theorem State.mailboxCmd_others {s₀ s : State} {n : Fin 128} {c : HostCmd} {a : Nat} (h : Others n s₀ s)
    (hp : arrayClass c.op ≠ .program) : Others n s₀ (s.mailboxCmd n c a) := by
  refine Others.comp h ?_
  unfold State.mailboxCmd
  dsimp -proj only
  repeat' (with_reducible first
    | apply Others.refl | apply State.shortRead_others | apply State.serveBurst_others
    | apply State.undecoded_others | apply State.modPort_others | apply State.ownOp_others | exact absurd ‹_› hp | intro _ | split)

theorem State.decodeCmd_others {s₀ s : State} {n : Fin 128} {c : HostCmd} (h : Others n s₀ s) (hp : arrayClass c.op ≠ .program) :
    Others n s₀ (s.decodeCmd n c) := by
  refine Others.comp h ?_
  unfold State.decodeCmd
  extract_lets p io t ph r form frameOp space u
  have hu : Others n s u := by
    simp only [u]
    split
    · exact State.modPort_others (Others.refl n s)
    · exact Others.refl n s
  clear_value u
  split
  · exact State.judgeCmd_others hu
  · split
    · split
      · exact State.mailboxCmd_others hu hp
      · exact State.judgeCmd_others hu
    · exact State.judgeCmd_others hu

theorem State.csRise_others {s : State} {n : Fin 128} : Others n s (s.csRise n) :=
  State.modStn_others (State.modPort_others (Others.refl n s))

theorem State.host_others {s : State} {n : Fin 128} {c : HostCmd} (hp : arrayClass c.op ≠ .program) : Others n s (s.host n c) := by
  unfold State.host
  dsimp -proj only
  repeat' (with_reducible first
    | apply Others.refl | exact hp | apply State.decodeCmd_others | apply State.reply_others
    | exact State.csRise_others | apply State.undecoded_others | apply State.modPort_others | intro _ | split)

/-- A command that comes to a host command other than a program leaves the other channels. -/
theorem Others.of_host {s t : State} {n : Fin 128} {c : Instr} (h : exec c s = .next t)
    (hc : ∃ x : HostCmd, arrayClass x.op ≠ .program ∧ exec c s = .next (s.host n x)) : Others n s t := by
  obtain ⟨x, hx, he⟩ := hc
  obtain rfl := Host.Outcome.next.inj (h.symm.trans he)
  exact State.host_others hx

end Sys2Proof.Machine

namespace Sys2Proof

open Sys2Proof.Machine

/-- Settles O9: each of the commands is a host command whose array class is not PROGRAM, and of those none reaches past its own channel. -/
theorem aHostChangesOnlyItsOwnChannel : Obligations.AHostChangesOnlyItsOwnChannel := by
  intro s t n q addr len period op v c hc ht
  refine Others.of_host ht ?_
  simp only [readForms, eraseForms, List.map_cons, List.map_nil, List.cons_append, List.nil_append, List.mem_cons, List.not_mem_nil,
    or_false] at hc
  obtain hchip | hother : c = .chipErase n op ∨ c ≠ .chipErase n op := em _
  · subst hchip
    refine ⟨_, ?_, rfl⟩
    simp only [HostCmd.bare]
    split <;> decide
  · rcases hc with rfl | rfl | rfl | rfl | rfl | rfl | rfl | rfl | rfl | rfl | rfl | rfl | rfl | rfl | rfl | rfl | rfl | rfl | rfl | rfl | rfl |
        rfl | rfl | rfl | rfl | rfl | rfl | rfl | rfl | rfl
    all_goals first | exact ⟨_, by simp only [HostCmd.bare, readCmd, regCmd]; decide, rfl⟩ | exact absurd rfl hother

end Sys2Proof

end

section
/-! SETTLED: device time (O6). First the operations that leave it, then the commands that wait for a due time, chapter by chapter. -/

namespace Sys2Proof.Machine
open Sys2Proof

/-- Every part of the state but the device time. -/
abbrev Field.timeless : List Field :=
  [.ports, .mbx, .stn, .ctl, .plt, .wdg, .areas, .fps, .pol, .polLedger, .polMin, .tamperPol, .prof, .profCfg, .dcfg, .twl, .poolProf,
    .cfgImg, .imm, .fca, .farm, .pool, .mins, .devfw, .plat, .mwd, .intw, .trace, .att, .spdm, .i3c, .rings, .arb, .views, .awaits, .hdrs,
    .burin, .hash, .drbg, .drawn, .keys, .tamper, .otp, .part, .power, .clk, .led, .dev]

@[simp] theorem State.endLines_now {s : State} : s.endLines.now = s.now :=
  State.endLines_frame (Frame.refl _ _) (Field.sub_refl _) .now (by decide)

@[simp] theorem State.powerCycle_now {s : State} {n : Fin 128} : (s.powerCycle n).now = s.now :=
  State.powerCycle_frame (Frame.refl _ _) (Field.sub_refl _) .now (by decide)

@[simp] theorem State.resumeHeld_now {s : State} {n : Fin 128} : (s.resumeHeld n).now = s.now :=
  State.resumeHeld_frame (Frame.refl _ _) (Field.sub_refl _) .now (by decide)

@[simp] theorem State.startTaking_now {s : State} {n : Fin 128} {cause : Cause} {asked : Bool} : (s.startTaking n cause asked).now = s.now :=
  State.startTaking_frame (Frame.refl _ _) (Field.sub_refl _) .now (by decide)

@[simp] theorem State.modLine_now {s : State} {t1 : Fin 16} {x : TwStep} : (s.modLine t1 x).now = s.now :=
  State.modLine_frame (Frame.refl _ _) (Field.sub_refl _) .now (by decide)

@[simp] theorem State.powerStep3_now {s : State} {n : Fin 128} : (s.powerStep3 n).now = s.now :=
  State.powerStep3_frame (Frame.refl _ _) (Field.sub_refl _) .now (by decide)

@[simp] theorem State.endForwarded_now {s : State} {f : Fin 64} {o : LocalOp} {failed : Bool} : (s.endForwarded f o failed).now = s.now :=
  State.endForwarded_frame (Frame.refl _ _) (Field.sub_refl _) .now (by decide)

@[simp] theorem State.startDiscovery_now {s : State} {f : Fin 64} : (s.startDiscovery f).now = s.now :=
  State.startDiscovery_frame (Frame.refl _ _) (Field.sub_refl _) .now (by decide)

@[simp] theorem State.release_now {s : State} {n : Fin 128} : (s.release n).now = s.now :=
  State.release_frame (Frame.refl _ _) (Field.sub_refl _) .now (by decide)

@[simp] theorem State.requestRelease_now {s : State} {n : Fin 128} : (s.requestRelease n).now = s.now :=
  State.requestRelease_frame (Frame.refl _ _) (Field.sub_refl _) .now (by decide)

@[simp] theorem State.proofFails_now {s : State} {n : Fin 128} {why : Nat} : (s.proofFails n why).now = s.now :=
  State.proofFails_frame (Frame.refl _ _) (Field.sub_refl _) .now (by decide)

@[simp] theorem State.expire_now {s : State} {n : Fin 128} {cause : ExpCause} : (s.expire n cause).now = s.now :=
  State.expire_frame (Frame.refl _ _) (Field.sub_refl _) .now (by decide)

@[simp] theorem State.revertFw_now {s : State} {cause : Nat} : (s.revertFw cause).now = s.now :=
  State.revertFw_frame (Frame.refl _ _) (Field.sub_refl _) .now (by decide)

@[simp] theorem State.clearConsec_now {s : State} {n : Fin 128} : (s.clearConsec n).now = s.now :=
  State.clearConsec_frame (Frame.refl _ _) (Field.sub_refl _) .now (by decide)

@[simp] theorem State.mwdExpire_now {s : State} {m : Mgr} : (s.mwdExpire m).now = s.now :=
  State.mwdExpire_frame (Frame.refl _ _) (Field.sub_refl _) .now (by decide)

@[simp] theorem State.wakeIfLost_now {s : State} {m : Mgr} {was : Bool} : (s.wakeIfLost m was).now = s.now :=
  State.wakeIfLost_frame (Frame.refl _ _) (Field.sub_refl _) .now (by decide)

@[simp] theorem State.internalExpiry_now {s : State} {src : Nat} {cluster : Bool} : (s.internalExpiry src cluster).now = s.now :=
  State.internalExpiry_frame (Frame.refl _ _) (Field.sub_refl _) .now (by decide)

@[simp] theorem State.wakeUp_now {s : State} : s.wakeUp.now = s.now := State.wakeUp_frame (Frame.refl _ _) (Field.sub_refl _) .now (by decide)

@[simp] theorem State.coreOut_now {s : State} {k1 : Fin 4} {reason : Nat} {test : Bool} : (s.coreOut k1 reason test).now = s.now :=
  State.coreOut_frame (Frame.refl _ _) (Field.sub_refl _) .now (by decide)

@[simp] theorem State.dispatchJobs_now {s : State} : s.dispatchJobs.now = s.now :=
  State.dispatchJobs_frame (Frame.refl _ _) (Field.sub_refl _) .now (by decide)

@[simp] theorem State.coreFaulted_now {s : State} {k1 : Fin 4} {j : BurinJob} {res : List Byte} : (s.coreFaulted k1 j res).now = s.now :=
  State.coreFaulted_frame (Frame.refl _ _) (Field.sub_refl _) .now (by decide)

@[simp] theorem State.finishJob_now {s : State} {j : BurinJob} {st : Status} {info : Nat} {result : List Byte} : (s.finishJob j st info result).now = s.now :=
  State.finishJob_frame (Frame.refl _ _) (Field.sub_refl _) .now (by decide)

@[simp] theorem State.jobDraws_now {s : State} {j : BurinJob} {slots : Nat} : (s.jobDraws j slots).now = s.now :=
  State.jobDraws_frame (Frame.refl _ _) (Field.sub_refl _) .now (by decide)

@[simp] theorem State.jobOutput_now {s : State} {j : BurinJob} {slots : Nat} {dma : Option DmaFail} {res : List Byte} : (s.jobOutput j slots dma res).now = s.now :=
  State.jobOutput_frame (Frame.refl _ _) (Field.sub_refl _) .now (by decide)

@[simp] theorem State.unitBack_now {s : State} {kind : Nat} {index : Nat} : (s.unitBack kind index).now = s.now :=
  State.unitBack_frame (Frame.refl _ _) (Field.sub_refl _) .now (by decide)

@[simp] theorem State.entropyTest_now {s : State} {pass : Bool} : (s.entropyTest pass).now = s.now :=
  State.entropyTest_frame (Frame.refl _ _) (Field.sub_refl _) .now (by decide)

@[simp] theorem State.fetchFault_now {s : State} {m : Mgr} {q : Byte} {x : Sq} : (s.fetchFault m q x).now = s.now :=
  State.fetchFault_frame (Frame.refl _ _) (Field.sub_refl _) .now (by decide)

@[simp] theorem State.putSq_now {s : State} {m : Mgr} {qid : Nat} {q : Sq} : (s.putSq m qid q).now = s.now :=
  State.putSq_frame (Frame.refl _ _) (Field.sub_refl _) .now (by decide)

@[simp] theorem State.queueFault_now {s : State} {m : Mgr} {q : Byte} {sq : Bool} : (s.queueFault m q sq).now = s.now :=
  State.queueFault_frame (Frame.refl _ _) (Field.sub_refl _) .now (by decide)

@[simp] theorem State.ringDmaFailed_now {s : State} {m : Mgr} {kind : BitVec 3} {addr : DWord} : (s.ringDmaFailed m kind addr).now = s.now :=
  State.ringDmaFailed_frame (Frame.refl _ _) (Field.sub_refl _) .now (by decide)

@[simp] theorem State.putCq_now {s : State} {m : Mgr} {qid : Nat} {c : Cq} : (s.putCq m qid c).now = s.now :=
  State.putCq_frame (Frame.refl _ _) (Field.sub_refl _) .now (by decide)

@[simp] theorem State.resumeStandby_now {s : State} : s.resumeStandby.now = s.now :=
  State.resumeStandby_frame (Frame.refl _ _) (Field.sub_refl _) .now (by decide)

@[simp] theorem State.wake_now {s : State} : s.wake.now = s.now := State.wake_frame (Frame.refl _ _) (Field.sub_refl _) .now (by decide)

@[simp] theorem State.enterStandby_now {s : State} : s.enterStandby.now = s.now :=
  State.enterStandby_frame (Frame.refl _ _) (Field.sub_refl _) .now (by decide)

@[simp] theorem State.revert_now {s : State} {n : Fin 128} {why : Nat} : (s.revert n why).now = s.now :=
  State.revert_frame (Frame.refl _ _) (Field.sub_refl _) .now (by decide)

theorem State.forChans_now {s : State} {f : Fin 128 → State → State} (h : ∀ n s, Frame Field.timeless s (f n s)) :
    (s.forChans f).now = s.now := State.forChans_frame (Frame.refl _ _) h .now (by decide)

theorem State.forAll_now {α : Type} {s : State} {f : α → State → State} {l : List α} (h : ∀ x s, Frame Field.timeless s (f x s)) :
    (s.forAll l f).now = s.now := State.forAll_frame (Frame.refl _ _) h .now (by decide)

@[simp] theorem State.until_now {s : State} {d : Nat} : (s.until d).now = max s.now d := rfl


theorem exec_now_le_host {c : Instr} (s : State) (hc : c.chapter = .host) (h : Field.now ∈ c.touches) :
    ∃ t, exec c s = .next t ∧ s.now ≤ t.now := by
  cases c
  all_goals first | exact Chapter.noConfusion hc | dsimp only [Instr.touches] at h
  all_goals first | exact absurd h (by decide) | refine ⟨_, rfl, ?_⟩
  all_goals simp -failIfUnchanged only []
  all_goals repeat' with_reducible split
  all_goals simp

theorem exec_now_le_mailbox {c : Instr} (s : State) (hc : c.chapter = .mailbox) (h : Field.now ∈ c.touches) :
    ∃ t, exec c s = .next t ∧ s.now ≤ t.now := by
  cases c
  all_goals first | exact Chapter.noConfusion hc | dsimp only [Instr.touches] at h
  all_goals first | exact absurd h (by decide) | refine ⟨_, rfl, ?_⟩
  all_goals simp -failIfUnchanged only []
  all_goals repeat' with_reducible split
  all_goals simp [State.setPhase_now]

theorem exec_now_le_stencil {c : Instr} (s : State) (hc : c.chapter = .stencil) (h : Field.now ∈ c.touches) :
    ∃ t, exec c s = .next t ∧ s.now ≤ t.now := by
  cases c
  all_goals first | exact Chapter.noConfusion hc | dsimp only [Instr.touches] at h
  all_goals first | exact absurd h (by decide) | refine ⟨_, rfl, ?_⟩
  all_goals simp -failIfUnchanged only []
  all_goals repeat' with_reducible split
  all_goals simp

theorem exec_now_le_control {c : Instr} (s : State) (hc : c.chapter = .control) (h : Field.now ∈ c.touches) :
    ∃ t, exec c s = .next t ∧ s.now ≤ t.now := by
  cases c
  all_goals first | exact Chapter.noConfusion hc | dsimp only [Instr.touches] at h
  all_goals first | exact absurd h (by decide) | refine ⟨_, rfl, ?_⟩
  case twPulseEnd l =>
    dsimp only
    split
    · rename_i cs _
      have hk (n : Fin 128) (u : State) : Frame Field.timeless u (if cs.contains n.1 && u.atStep3 l n.1 then u.powerStep3 n else u) := by
        split
        · exact State.powerStep3_frame (Frame.refl _ _) (by decide)
        · exact Frame.refl _ _
      rw [State.endLines_now, State.forChans_now hk]
      exact Nat.le_max_left _ _
    · exact Nat.le_refl _
  case rankBoundary =>
    split
    · have hk (n : Fin 128) (u : State) : Frame Field.timeless u (if (u.ch n).state = .ready then u.requestRelease n else u) := by
        split
        · exact State.requestRelease_frame (Frame.refl _ _) (by decide)
        · exact Frame.refl _ _
      dsimp only
      rw [State.forAll_now hk]
      exact Nat.le_max_left _ _
    · exact Nat.le_refl _
  all_goals simp -failIfUnchanged only []
  all_goals repeat' with_reducible split
  all_goals simp

theorem exec_now_le_watchdog {c : Instr} (s : State) (hc : c.chapter = .watchdog) (h : Field.now ∈ c.touches) :
    ∃ t, exec c s = .next t ∧ s.now ≤ t.now := by
  cases c
  all_goals first | exact Chapter.noConfusion hc | dsimp only [Instr.touches] at h
  all_goals first | exact absurd h (by decide) | refine ⟨_, rfl, ?_⟩
  all_goals simp -failIfUnchanged only []
  all_goals repeat' with_reducible split
  all_goals simp

theorem exec_now_le_attest {c : Instr} (s : State) (hc : c.chapter = .attest) (h : Field.now ∈ c.touches) :
    ∃ t, exec c s = .next t ∧ s.now ≤ t.now := by
  cases c
  all_goals first | exact Chapter.noConfusion hc | dsimp only [Instr.touches] at h
  all_goals first | exact absurd h (by decide) | refine ⟨_, rfl, ?_⟩
  all_goals repeat' with_reducible split
  all_goals simp

theorem exec_now_le_engine {c : Instr} (s : State) (hc : c.chapter = .engine) (h : Field.now ∈ c.touches) :
    ∃ t, exec c s = .next t ∧ s.now ≤ t.now := by
  cases c
  all_goals first | exact Chapter.noConfusion hc | dsimp only [Instr.touches] at h
  all_goals first | exact absurd h (by decide) | refine ⟨_, rfl, ?_⟩
  all_goals simp -failIfUnchanged only []
  all_goals repeat' with_reducible split
  all_goals simp

theorem exec_now_le_ring {c : Instr} (s : State) (hc : c.chapter = .ring) (h : Field.now ∈ c.touches) :
    ∃ t, exec c s = .next t ∧ s.now ≤ t.now := by
  cases c
  all_goals first | exact Chapter.noConfusion hc | dsimp only [Instr.touches] at h
  all_goals first | exact absurd h (by decide) | refine ⟨_, rfl, ?_⟩
  all_goals simp -failIfUnchanged only []
  all_goals repeat' with_reducible split
  all_goals simp

theorem exec_now_le_power {c : Instr} (s : State) (hc : c.chapter = .power) (h : Field.now ∈ c.touches) (hb : ∀ r, c ≠ .brownout r) (hr : ∀ l, c ≠ .resetPin l) :
    ∃ t, exec c s = .next t ∧ s.now ≤ t.now := by
  cases c
  all_goals first | exact Chapter.noConfusion hc | dsimp only [Instr.touches] at h
  all_goals first | exact absurd h (by decide) | refine ⟨_, rfl, ?_⟩
  case brownout r => exact absurd rfl (hb r)
  case resetPin l => exact absurd rfl (hr l)
  all_goals simp -failIfUnchanged only []
  all_goals repeat' with_reducible split
  all_goals simp

/-- A due time is the only thing that moves device time, but for the two cold resets. -/
theorem exec_now_le {c : Instr} {s t : State} (hb : ∀ r, c ≠ .brownout r) (hr : ∀ l, c ≠ .resetPin l) (ht : exec c s = .next t) :
    s.now ≤ t.now := by
  by_cases h : Field.now ∈ c.touches
  · suffices ∃ t, exec c s = .next t ∧ s.now ≤ t.now by
      obtain ⟨u, hu, hle⟩ := this
      obtain rfl := Host.Outcome.next.inj (ht.symm.trans hu)
      exact hle
    cases hc : c.chapter with
    | host => exact exec_now_le_host s hc h
    | mailbox => exact exec_now_le_mailbox s hc h
    | stencil => exact exec_now_le_stencil s hc h
    | control => exact exec_now_le_control s hc h
    | watchdog => exact exec_now_le_watchdog s hc h
    | attest => exact exec_now_le_attest s hc h
    | engine => exact exec_now_le_engine s hc h
    | ring => exact exec_now_le_ring s hc h
    | power => exact exec_now_le_power s hc h hb hr
    | image | plate | policy | key | page =>
      cases c
      all_goals first | exact Chapter.noConfusion hc | dsimp only [Instr.touches] at h
      all_goals exact absurd h (by decide)
  · exact Nat.le_of_eq (Frame.of_exec ht .now h : t.now = s.now).symm

end Sys2Proof.Machine

namespace Sys2Proof

open Sys2Proof.Machine

/-- Settles O6: a command that may touch device time moves it on to a due time. -/
theorem deviceTimeNeverGoesBack : Obligations.DeviceTimeNeverGoesBack := fun _ _ _ hb hr ht => exec_now_le hb hr ht

end Sys2Proof

end


section
/-! SUPPORT. A relation of two states that composes and looks at one part only is kept by every operation that leaves that part: one rule for
each operation, whatever the relation. The three invariants below (O4, O7, O8) are proved with these rules and with their own rules for the
operations that touch their part. -/

namespace Sys2Proof.Machine

open Sys2Proof

/-- R composes, and a run that leaves the part f of the state keeps it. -/
structure Respects (f : Field) (R : State → State → Prop) : Prop where
  refl : ∀ s, R s s
  comp : ∀ {s t u}, R s t → R t u → R s u
  of_frame : ∀ {fs : List Field} {s t : State}, Frame fs s t → f ∉ fs → R s t

theorem Respects.step {f : Field} {R : State → State → Prop} (hR : Respects f R) {fs : List Field} {s₀ s t : State} (h : R s₀ s)
    (hfr : Frame fs s t) (hf : f ∉ fs) : R s₀ t := hR.comp h (hR.of_frame hfr hf)

theorem KeepsMem.respects : Respects .areas KeepsMem := ⟨KeepsMem.refl, KeepsMem.comp, KeepsMem.of_frame⟩

theorem NoneReleased.respects : Respects .ctl NoneReleased := ⟨NoneReleased.refl, NoneReleased.comp, NoneReleased.of_frame⟩

section

variable {k : Field} {R : State → State → Prop} (hR : Respects k R) {s₀ s : State}

include hR

theorem State.log_keeps {type : Nat} {ch : Nat} {info : List Nat} (hf : k ∉ [.trace]) (h : R s₀ s) : R s₀ (State.log s type ch info) :=
  hR.step h (State.log_frame (Frame.refl _ _) (Field.sub_refl _)) hf

theorem State.holdBound_keeps {i : Fin 256}
    (hf : k ∉ [.ports, .stn, .ctl, .wdg, .plat, .trace, .spdm, .rings, .views, .awaits, .dev]) (h : R s₀ s) : R s₀ (State.holdBound s i) :=
  hR.step h (State.holdBound_frame (Frame.refl _ _) (Field.sub_refl _)) hf

theorem State.modDir_keeps {i : Fin 256} {f : Impression → Impression} (hf : k ∉ [.imm]) (h : R s₀ s) : R s₀ (State.modDir s i f) :=
  hR.step h (State.modDir_frame (Frame.refl _ _) (Field.sub_refl _)) hf

theorem State.evictForLayout_keeps {x : Nat} (hf : k ∉ [.imm, .fca, .trace]) (h : R s₀ s) : R s₀ (State.evictForLayout x s) :=
  hR.step h (State.evictForLayout_frame (Frame.refl _ _) (Field.sub_refl _)) hf

theorem State.unitOut_keeps {kind : Nat} {index : Nat} {reason : Nat} (hf : k ∉ [.rings]) (h : R s₀ s) :
    R s₀ (State.unitOut s kind index reason) :=
  hR.step h (State.unitOut_frame (Frame.refl _ _) (Field.sub_refl _)) hf

theorem State.retakeTaking_keeps {i : Fin 256}
    (hf : k ∉ [.mbx, .ctl, .plt, .wdg, .imm, .fca, .mins, .trace, .spdm, .rings, .views, .awaits, .drbg, .drawn, .led, .dev]) (h : R s₀ s) :
    R s₀ (State.retakeTaking s i) :=
  hR.step h (State.retakeTaking_frame (Frame.refl _ _) (Field.sub_refl _)) hf

theorem State.select_keeps {n : Fin 128}
    (hf : k ∉ [.mbx, .ctl, .plt, .wdg, .imm, .fca, .mins, .trace, .spdm, .rings, .views, .awaits, .drbg, .drawn, .led, .dev]) (h : R s₀ s) :
    R s₀ (State.select s n) :=
  hR.step h (State.select_frame (Frame.refl _ _) (Field.sub_refl _)) hf

theorem State.until_keeps {t1 : Nat} (hf : k ∉ [.now]) (h : R s₀ s) : R s₀ (State.until s t1) :=
  hR.step h (State.until_frame (Frame.refl _ _) (Field.sub_refl _)) hf

theorem State.selftestAccept_keeps (hf : k ∉ [.devfw, .trace, .rings, .led]) (h : R s₀ s) : R s₀ (State.selftestAccept s) :=
  hR.step h (State.selftestAccept_frame (Frame.refl _ _) (Field.sub_refl _)) hf

theorem State.assertFail_keeps (hf : k ∉ [.plat]) (h : R s₀ s) : R s₀ (State.assertFail s) :=
  hR.step h (State.assertFail_frame (Frame.refl _ _) (Field.sub_refl _)) hf

theorem State.endOtp_keeps {st : Status} (hf : k ∉ [.rings, .views, .awaits, .otp, .dev]) (h : R s₀ s) : R s₀ (State.endOtp s st) :=
  hR.step h (State.endOtp_frame (Frame.refl _ _) (Field.sub_refl _)) hf

theorem State.deliver_keeps {src : Src} {a : Answer} (hf : k ∉ [.rings, .views, .awaits, .dev]) (h : R s₀ s) :
    R s₀ (State.deliver s src a) :=
  hR.step h (State.deliver_frame (Frame.refl _ _) (Field.sub_refl _)) hf

theorem State.modRing_keeps {m : Mgr} {f : Ring → Ring} (hf : k ∉ [.rings]) (h : R s₀ s) : R s₀ (State.modRing s m f) :=
  hR.step h (State.modRing_frame (Frame.refl _ _) (Field.sub_refl _)) hf

theorem State.jobDraws_keeps {j : BurinJob} {slots : Nat} (hf : k ∉ [.drbg, .drawn]) (h : R s₀ s) : R s₀ (State.jobDraws s j slots) :=
  hR.step h (State.jobDraws_frame (Frame.refl _ _) (Field.sub_refl _)) hf

theorem State.jobOutput_keeps {j : BurinJob} {slots : Nat} {dma : Option DmaFail} {res : List Byte}
    (hf : k ∉ [.rings, .views, .awaits, .drbg, .drawn, .keys, .led, .dev]) (h : R s₀ s) : R s₀ (State.jobOutput s j slots dma res) :=
  hR.step h (State.jobOutput_frame (Frame.refl _ _) (Field.sub_refl _)) hf

theorem State.verifyFailed_keeps {n : Nat} {st : Status} {plate : Nat} {man : List Byte} {leaf : Nat}
    (hf : k ∉ [.trace, .rings]) (h : R s₀ s) : R s₀ (State.verifyFailed s n st plate man leaf) :=
  hR.step h (State.verifyFailed_frame (Frame.refl _ _) (Field.sub_refl _)) hf

theorem State.commitVerified_keeps {n : Fin 128} {p : PlateId} {mem : Option Memory}
    (hf : k ∉ [.plt, .imm, .pool, .trace, .rings, .led]) (h : R s₀ s) : R s₀ (State.commitVerified s n p mem) :=
  hR.step h (State.commitVerified_frame (Frame.refl _ _) (Field.sub_refl _)) hf

theorem State.commitPolicy_keeps {b : Bundle} (hf : k ∉ [.stn, .polLedger, .polMin, .tamperPol, .led]) (h : R s₀ s) :
    R s₀ (State.commitPolicy s b) :=
  hR.step h (State.commitPolicy_frame (Frame.refl _ _) (Field.sub_refl _)) hf

theorem State.applySections_keeps {b : Bundle} (hf : k ∉ [.mbx, .stn, .pol, .trace, .rings]) (h : R s₀ s) :
    R s₀ (State.applySections s b) :=
  hR.step h (State.applySections_frame (Frame.refl _ _) (Field.sub_refl _)) hf

theorem State.keyUpdate_keeps {m : Mgr} {msg : List Byte} (hf : k ∉ [.trace, .rings, .drawn, .keys, .led, .dev]) (h : R s₀ s) :
    R s₀ ((State.keyUpdate s m msg).1) :=
  hR.step h (State.keyUpdate_frame (Frame.refl _ _) (Field.sub_refl _)) hf

theorem State.noteKeyUpdate_keeps {st : Status} (hf : k ∉ [.keys]) (h : R s₀ s) : R s₀ (State.noteKeyUpdate s st) :=
  hR.step h (State.noteKeyUpdate_frame (Frame.refl _ _) (Field.sub_refl _)) hf

theorem State.localDone_keeps {n : Fin 128} (hf : k ∉ [.fps]) (h : R s₀ s) : R s₀ (State.localDone s n) :=
  hR.step h (State.localDone_frame (Frame.refl _ _) (Field.sub_refl _)) hf

theorem State.commitStaged_keeps {n : Fin 128} {p : PlateId} {man : List Byte} {host : Bool} {conf : Bool}
    (hf : k ∉ [.plt, .trace, .rings, .led]) (h : R s₀ s) : R s₀ (State.commitStaged s n p man host conf) :=
  hR.step h (State.commitStaged_frame (Frame.refl _ _) (Field.sub_refl _)) hf

theorem State.endSession_keeps {n : Fin 128} {st : Status} (hf : k ∉ [.mbx, .stn, .trace, .rings]) (h : R s₀ s) :
    R s₀ (State.endSession s n st) :=
  hR.step h (State.endSession_frame (Frame.refl _ _) (Field.sub_refl _)) hf

theorem State.storePool_keeps {man : List Byte} {img : Memory} (hf : k ∉ [.pool, .led]) (h : R s₀ s) : R s₀ (State.storePool s man img) :=
  hR.step h (State.storePool_frame (Frame.refl _ _) (Field.sub_refl _)) hf

theorem State.evictFor_keeps {need : Nat} {x : Nat} (hf : k ∉ [.imm, .fca, .trace]) (h : R s₀ s) : R s₀ (State.evictFor need x s) :=
  hR.step h (State.evictFor_frame (Frame.refl _ _) (Field.sub_refl _)) hf

theorem State.areasLost_keeps (hf : k ∉ [.areas, .rings]) (h : R s₀ s) : R s₀ (State.areasLost s) :=
  hR.step h (State.areasLost_frame (Frame.refl _ _) (Field.sub_refl _)) hf

theorem State.mwdService_keeps {m : Mgr} {token : DWord} (hf : k ∉ [.plt, .devfw, .mwd, .trace, .rings, .drbg, .drawn, .dev]) (h : R s₀ s) :
    R s₀ (State.mwdService s m token) :=
  hR.step h (State.mwdService_frame (Frame.refl _ _) (Field.sub_refl _)) hf

theorem State.mwdExpire_keeps {m : Mgr} (hf : k ∉ [.plt, .devfw, .mwd, .trace, .rings, .dev]) (h : R s₀ s) : R s₀ (State.mwdExpire s m) :=
  hR.step h (State.mwdExpire_frame (Frame.refl _ _) (Field.sub_refl _)) hf

theorem State.i3cRefused_keeps {ep : Fin 8} (hf : k ∉ [.i3c]) (h : R s₀ s) : R s₀ (State.i3cRefused s ep) :=
  hR.step h (State.i3cRefused_frame (Frame.refl _ _) (Field.sub_refl _)) hf

theorem State.modEp_keeps {e : Fin 8} {f : Endpoint → Endpoint} (hf : k ∉ [.spdm]) (h : R s₀ s) : R s₀ (State.modEp s e f) :=
  hR.step h (State.modEp_frame (Frame.refl _ _) (Field.sub_refl _)) hf

theorem State.countMessage_keeps {e : Fin 8} {packets : Half} (hf : k ∉ [.i3c, .views]) (h : R s₀ s) :
    R s₀ (State.countMessage s e packets) :=
  hR.step h (State.countMessage_frame (Frame.refl _ _) (Field.sub_refl _)) hf

theorem State.modMwd_keeps {m : Mgr} {f : Mwd → Mwd} (hf : k ∉ [.mwd]) (h : R s₀ s) : R s₀ (State.modMwd s m f) :=
  hR.step h (State.modMwd_frame (Frame.refl _ _) (Field.sub_refl _)) hf

theorem State.modAttView_keeps {m : Mgr} {f : AttView → AttView} (hf : k ∉ [.att]) (h : R s₀ s) : R s₀ (State.modAttView s m f) :=
  hR.step h (State.modAttView_frame (Frame.refl _ _) (Field.sub_refl _)) hf

theorem State.modView_keeps {m : Mgr} {f : View → View} (hf : k ∉ [.views]) (h : R s₀ s) : R s₀ (State.modView s m f) :=
  hR.step h (State.modView_frame (Frame.refl _ _) (Field.sub_refl _)) hf

theorem State.reqResult_keeps {m : Mgr} {n : Fin 128} {r : BitVec 2} (hf : k ∉ [.stn]) (h : R s₀ s) : R s₀ (State.reqResult s m n r) :=
  hR.step h (State.reqResult_frame (Frame.refl _ _) (Field.sub_refl _)) hf

theorem State.dmaFailed_keeps {m : Mgr} {kind : BitVec 3} {addr : DWord} (hf : k ∉ [.views]) (h : R s₀ s) :
    R s₀ (State.dmaFailed s m kind addr) :=
  hR.step h (State.dmaFailed_frame (Frame.refl _ _) (Field.sub_refl _)) hf

theorem State.ringDmaFailed_keeps {m : Mgr} {kind : BitVec 3} {addr : DWord} (hf : k ∉ [.rings, .views]) (h : R s₀ s) :
    R s₀ (State.ringDmaFailed s m kind addr) :=
  hR.step h (State.ringDmaFailed_frame (Frame.refl _ _) (Field.sub_refl _)) hf

theorem State.reapSq_keeps {m : Mgr} {qid : Nat} (hf : k ∉ [.rings, .views, .awaits]) (h : R s₀ s) : R s₀ (State.reapSq s m qid) :=
  hR.step h (State.reapSq_frame (Frame.refl _ _) (Field.sub_refl _)) hf

theorem State.putSq_keeps {m : Mgr} {qid : Nat} {q : Sq} (hf : k ∉ [.rings]) (h : R s₀ s) : R s₀ (State.putSq s m qid q) :=
  hR.step h (State.putSq_frame (Frame.refl _ _) (Field.sub_refl _)) hf

theorem State.arm_keeps {n : Fin 128} {inRelease : Bool} (hf : k ∉ [.mbx, .wdg, .trace, .rings, .drbg, .drawn]) (h : R s₀ s) :
    R s₀ (State.arm s n inRelease) :=
  hR.step h (State.arm_frame (Frame.refl _ _) (Field.sub_refl _)) hf

theorem State.commitMin_keeps {fam : List Byte} {v : Word} (hf : k ∉ [.mins, .trace, .led]) (h : R s₀ s) : R s₀ (State.commitMin s fam v) :=
  hR.step h (State.commitMin_frame (Frame.refl _ _) (Field.sub_refl _)) hf

theorem State.commitFwMin_keeps {v : Nat} (hf : k ∉ [.mins, .trace, .led]) (h : R s₀ s) : R s₀ (State.commitFwMin s v) :=
  hR.step h (State.commitFwMin_frame (Frame.refl _ _) (Field.sub_refl _)) hf

theorem State.flushPool_keeps (hf : k ∉ [.pool, .rings]) (h : R s₀ s) : R s₀ (State.flushPool s) :=
  hR.step h (State.flushPool_frame (Frame.refl _ _) (Field.sub_refl _)) hf

theorem State.wakeUp_keeps
    (hf : k ∉ [.mbx, .ctl, .plt, .wdg, .prof, .dcfg, .imm, .fca, .mins, .plat, .trace, .spdm, .rings, .views, .awaits, .drbg, .drawn, .led, .dev]) (h : R s₀ s) :
    R s₀ (State.wakeUp s) :=
  hR.step h (State.wakeUp_frame (Frame.refl _ _) (Field.sub_refl _)) hf

theorem State.coreOut_keeps {k1 : Fin 4} {reason : Nat} {test : Bool} (hf : k ∉ [.rings, .views, .awaits, .burin, .dev]) (h : R s₀ s) :
    R s₀ (State.coreOut s k1 reason test) :=
  hR.step h (State.coreOut_frame (Frame.refl _ _) (Field.sub_refl _)) hf

theorem State.dispatchJobs_keeps (hf : k ∉ [.rings, .views, .awaits, .burin, .keys, .dev]) (h : R s₀ s) : R s₀ (State.dispatchJobs s) :=
  hR.step h (State.dispatchJobs_frame (Frame.refl _ _) (Field.sub_refl _)) hf

theorem State.modCore_keeps {k1 : Fin 4} {f : Core → Core} (hf : k ∉ [.burin]) (h : R s₀ s) : R s₀ (State.modCore s k1 f) :=
  hR.step h (State.modCore_frame (Frame.refl _ _) (Field.sub_refl _)) hf

theorem State.finishJob_keeps {j : BurinJob} {st : Status} {info : Nat} {result : List Byte}
    (hf : k ∉ [.rings, .views, .awaits, .dev]) (h : R s₀ s) : R s₀ (State.finishJob s j st info result) :=
  hR.step h (State.finishJob_frame (Frame.refl _ _) (Field.sub_refl _)) hf

theorem State.wait_keeps {who : Asker} {n : Fin 128} {k3 : AwaitKind} (hf : k ∉ [.awaits]) (h : R s₀ s) : R s₀ (State.wait s who n k3) :=
  hR.step h (State.wait_frame (Frame.refl _ _) (Field.sub_refl _)) hf

theorem State.raise_keeps {code : Nat} {ch : Nat} {data : List Nat} (hf : k ∉ [.rings]) (h : R s₀ s) : R s₀ (State.raise s code ch data) :=
  hR.step h (State.raise_frame (Frame.refl _ _) (Field.sub_refl _)) hf

theorem State.releaseMeas_keeps {n : Fin 128} {st : ChState} {cause : Cause} {old : Phase} (hf : k ∉ [.mbx, .trace, .rings]) (h : R s₀ s) :
    R s₀ (State.releaseMeas s n st cause old) :=
  hR.step h (State.releaseMeas_frame (Frame.refl _ _) (Field.sub_refl _)) hf

theorem State.releaseWdg_keeps {n : Fin 128} (hf : k ∉ [.mbx, .wdg, .trace, .rings, .drbg, .drawn]) (h : R s₀ s) :
    R s₀ (State.releaseWdg s n) :=
  hR.step h (State.releaseWdg_frame (Frame.refl _ _) (Field.sub_refl _)) hf

theorem State.releaseProof_keeps {n : Fin 128} (hf : k ∉ [.plt]) (h : R s₀ s) : R s₀ (State.releaseProof s n) :=
  hR.step h (State.releaseProof_frame (Frame.refl _ _) (Field.sub_refl _)) hf

theorem State.regW_keeps {m : Mgr} {off : Nat} {body : State → State} (hf : k ∉ [.views]) (h : R s₀ s) (hb : ∀ s, R s (body s)) :
    R s₀ (State.regW s m off body) := by
  unfold State.regW
  split
  · exact h
  · split
    · exact hR.comp h (hb s)
    · exact hR.step h (State.countUnmapped_frame (Frame.refl _ _) (Field.sub_refl _)) hf

theorem State.ovdelOr_keeps {src : Src} {g : Gate} {refuse : Status → Nat → State → State} {body : State → State} (hf : k ∉ [.rings, .views])
    (hl : k ∉ [.led]) (h : R s₀ s) (hr : ∀ st i s, R s (refuse st i s)) (hb : ∀ s, R s (body s)) : R s₀ (State.ovdelOr s src g refuse body) := by
  have hbody : R s₀ ((body s).noteCommit s src) := by
    refine hR.step (hR.comp h (hb s)) ?_ hl
    unfold State.noteCommit
    split
    · exact Frame.refl _ _
    · exact Frame.put_led (Frame.refl _ _) (by decide)
  unfold State.ovdelOr
  split
  · exact h
  · split
    · exact hR.comp h (hr _ _ _)
    · split
      · exact hbody
      · exact hR.comp (hR.step h (State.ringDmaFailed_frame (Frame.refl _ _) (Field.sub_refl _)) hf) (hr _ _ _)
    · exact hbody

theorem State.ovdel_keeps {src : Src} {g : Gate} {body : State → State} (hf : k ∉ [.rings, .views, .awaits, .dev]) (hl : k ∉ [.led])
    (h : R s₀ s) (hb : ∀ s, R s (body s)) : R s₀ (State.ovdel s src g body) :=
  State.ovdelOr_keeps hR (by simp_all) hl h
    (fun _ _ s => hR.of_frame (State.deliver_frame (Frame.refl _ s) (Field.sub_refl _)) hf) hb

theorem State.withChan_keeps {src : Src} {ch : Half} {body : Fin 128 → State → State} (hf : k ∉ [.rings, .views, .awaits, .dev]) (h : R s₀ s)
    (hb : ∀ n s, R s (body n s)) : R s₀ (State.withChan s src ch body) := by
  have hd : R s₀ (s.deliver src (ans stInvalidField 6)) := hR.step h (State.deliver_frame (Frame.refl _ _) (Field.sub_refl _)) hf
  unfold State.withChan
  split
  · split
    · exact hR.comp h (hb _ s)
    · exact hd
  · exact hd

theorem State.withPlate_keeps {src : Src} {n : Fin 128} {plate : Byte} {body : PlateId → State → State}
    (hf : k ∉ [.rings, .views, .awaits, .dev]) (h : R s₀ s) (hb : ∀ p s, R s (body p s)) : R s₀ (State.withPlate s src n plate body) := by
  have hd (a : Answer) : R s₀ (s.deliver src a) := hR.step h (State.deliver_frame (Frame.refl _ _) (Field.sub_refl _)) hf
  unfold State.withPlate
  split
  · split
    · exact hd _
    · exact hR.comp h (hb _ s)
  · exact hd _

theorem State.forAll_keeps {α : Type} {g : α → State → State} {l : List α} (h : R s₀ s) (hg : ∀ x s, R s (g x s)) :
    R s₀ (s.forAll l g) := by
  unfold State.forAll
  induction l generalizing s with
  | nil => exact h
  | cons x l ih => exact ih (hR.comp h (hg x s))

theorem State.after_keeps {g : State → Out} (h : R s₀ s) (hg : ∀ t, g s = .next t → R s t) : R s₀ (s.after g) := by
  unfold State.after
  split
  · exact hR.comp h (hg _ (by assumption))
  · exact h
  · exact h

theorem Respects.put_dev {v} (hf : k ∉ [.dev]) (h : R s₀ s) : R s₀ { s with dev := v } :=
  hR.step h (Frame.put_dev (Frame.refl _ _) (by decide)) hf

theorem Respects.put_tamper {v} (hf : k ∉ [.tamper]) (h : R s₀ s) : R s₀ { s with tamper := v } :=
  hR.step h (Frame.put_tamper (Frame.refl _ _) (by decide)) hf

theorem Respects.put_imm {v} (hf : k ∉ [.imm]) (h : R s₀ s) : R s₀ { s with imm := v } :=
  hR.step h (Frame.put_imm (Frame.refl _ _) (by decide)) hf

theorem Respects.put_power {v} (hf : k ∉ [.power]) (h : R s₀ s) : R s₀ { s with power := v } :=
  hR.step h (Frame.put_power (Frame.refl _ _) (by decide)) hf

theorem Respects.put_hdrs {v} (hf : k ∉ [.hdrs]) (h : R s₀ s) : R s₀ { s with hdrs := v } :=
  hR.step h (Frame.put_hdrs (Frame.refl _ _) (by decide)) hf

theorem Respects.put_plat {v} (hf : k ∉ [.plat]) (h : R s₀ s) : R s₀ { s with plat := v } :=
  hR.step h (Frame.put_plat (Frame.refl _ _) (by decide)) hf

theorem Respects.put_devfw {v} (hf : k ∉ [.devfw]) (h : R s₀ s) : R s₀ { s with devfw := v } :=
  hR.step h (Frame.put_devfw (Frame.refl _ _) (by decide)) hf

end

/-- A register write keeps R where the rows of other commands do, and the three changes that the pages make to other parts. -/
theorem PageRun.keeps {k : Field} {R : State → State → Prop} (hR : Respects k R) (hk : k ∉ Field.pageOwn)
    (hrow : ∀ {c s t}, c.chapter ≠ .page → (∀ n, c ≠ .releaseInstant n) → exec c s = .next t → R s t)
    (hdisable : ∀ m s, R s (s.disableHalf m)) (hrearm : ∀ s, R s (s.warmReset none))
    (hpump : ∀ (s : State) on, R s { s with otp := { s.otp with pumpOnly := on } }) {s t : State} (h : PageRun s t) : R s t := by
  induction h with
  | start => exact hR.refl s
  | row c _ hc hr _ hu ih => exact hR.comp ih (hrow hc hr hu)
  | own _ hu ih => exact hR.step ih hu hk
  | disable m _ ih => exact hR.comp ih (hdisable m _)
  | rearm _ ih => exact hR.comp ih (hrearm _)
  | pump on _ ih => exact hR.comp ih (hpump _ on)

theorem State.regW_run {s : State} {m : Mgr} {off : Nat} {body : State → State} (hb : ∀ s, PageRun s (body s)) :
    PageRun s (s.regW m off body) := by
  unfold State.regW
  split
  · exact .start
  · split
    · exact hb s
    · exact .of_own (State.countUnmapped_frame (Frame.refl _ _) (by decide))

/-- Every command of the page chapter is such a run. -/
theorem exec_page_run {c : Instr} {s t : State} (hc : c.chapter = .page) (h : exec c s = .next t) : PageRun s t := by
  have small (hs : Field.sub c.touches Field.pageOwn = true) : PageRun s t :=
    .of_own (Frame.comp (Frame.refl _ _) (Frame.of_exec h) hs)
  cases c
  all_goals first | exact Chapter.noConfusion hc | skip
  case registerWrite m off v => exact exec_registerWrite_run h
  case evtLostclr m v =>
    obtain rfl := Host.Outcome.next.inj h
    exact State.regW_run fun _ => State.globalWrite_run
  case rngErrclr m v =>
    obtain rfl := Host.Outcome.next.inj h
    exact State.regW_run fun _ => State.rngWrite_run
  all_goals exact small rfl

end Sys2Proof.Machine

end

section
/-! SETTLED: KEEP and SCRATCH stay in canonical form (O4). A command that may touch the areas keeps their form, chapter by chapter; the others
leave the areas. -/

namespace Sys2Proof.Machine

open Sys2Proof

theorem exec_mem_host {c : Instr} (s : State) (hc : c.chapter = .host) (h : Field.areas ∈ c.touches) :
    ∃ t, exec c s = .next t ∧ KeepsMem s t := by
  cases c
  all_goals first | exact Chapter.noConfusion hc | dsimp only [Instr.touches] at h
  all_goals first | exact absurd h (by decide) | refine ⟨_, rfl, ?_⟩
  all_goals simp -failIfUnchanged only []
  all_goals repeat' (with_reducible first
    | apply KeepsMem.refl | exact rfl | apply State.csRise_mem | apply State.host_mem | apply State.modPort_mem
    | apply State.undecoded_mem | intro _ | split)

theorem exec_mem_mailbox {c : Instr} (s : State) (hc : c.chapter = .mailbox) (h : Field.areas ∈ c.touches) :
    ∃ t, exec c s = .next t ∧ KeepsMem s t := by
  cases c
  all_goals first | exact Chapter.noConfusion hc | dsimp only [Instr.touches] at h
  all_goals first | exact absurd h (by decide) | refine ⟨_, rfl, ?_⟩
  all_goals exact State.host_mem (KeepsMem.refl _)

theorem exec_mem_image {c : Instr} (s : State) (hc : c.chapter = .image) (h : Field.areas ∈ c.touches) :
    ∃ t, exec c s = .next t ∧ KeepsMem s t := by
  cases c
  all_goals first | exact Chapter.noConfusion hc | dsimp only [Instr.touches] at h
  all_goals first | exact absurd h (by decide) | refine ⟨_, rfl, ?_⟩
  case keepWriteback n blk =>
    dsimp only
    split
    · split
      · exact State.modAreas_mem (KeepsMem.refl _) fun _ ha => ha
      · exact KeepsMem.refl _
    · exact KeepsMem.refl _
  all_goals simp -failIfUnchanged only []
  all_goals repeat' (with_reducible first
    | apply KeepsMem.refl | exact rfl | apply State.areasLost_mem | apply State.evictForLayout_keeps KeepsMem.respects (by decide)
    | apply State.forAll_mem | apply State.holdBound_keeps KeepsMem.respects (by decide)
    | apply State.log_keeps KeepsMem.respects (by decide) | apply State.modAreas_mem
    | apply State.modDir_keeps KeepsMem.respects (by decide) | apply State.retakeTaking_keeps KeepsMem.respects (by decide)
    | apply State.unitOut_keeps KeepsMem.respects (by decide) | intro _ | split | (apply KeepsMem.respects.put_imm (by decide)))

theorem exec_mem_control {c : Instr} (s : State) (hc : c.chapter = .control) (h : Field.areas ∈ c.touches) :
    ∃ t, exec c s = .next t ∧ KeepsMem s t := by
  cases c
  all_goals first | exact Chapter.noConfusion hc | dsimp only [Instr.touches] at h
  all_goals first | exact absurd h (by decide) | refine ⟨_, rfl, ?_⟩
  all_goals simp -failIfUnchanged only []
  all_goals repeat' (with_reducible first
    | apply KeepsMem.refl | exact rfl | apply State.becomeReady_mem | apply State.release_mem | apply State.revertFw_mem
    | apply State.select_keeps KeepsMem.respects (by decide) | apply State.selftestAccept_keeps KeepsMem.respects (by decide)
    | apply State.until_keeps KeepsMem.respects (by decide) | intro _ | split)

theorem exec_mem_watchdog {c : Instr} (s : State) (hc : c.chapter = .watchdog) (h : Field.areas ∈ c.touches) :
    ∃ t, exec c s = .next t ∧ KeepsMem s t := by
  cases c
  all_goals first | exact Chapter.noConfusion hc | dsimp only [Instr.touches] at h
  all_goals first | exact absurd h (by decide) | refine ⟨_, rfl, ?_⟩
  all_goals simp -failIfUnchanged only []
  all_goals repeat' (with_reducible first
    | apply KeepsMem.refl | exact rfl | apply State.assertFail_keeps KeepsMem.respects (by decide) | apply State.coreOut_mem
    | apply State.dispatchJobs_mem | apply State.endOtp_keeps KeepsMem.respects (by decide) | apply State.internalExpiry_mem
    | apply State.modRing_keeps KeepsMem.respects (by decide) | apply State.until_keeps KeepsMem.respects (by decide)
    | apply State.wakeUp_mem | apply State.warmInto_mem | intro _ | split | (apply KeepsMem.respects.put_dev (by decide)))

theorem exec_mem_engine {c : Instr} (s : State) (hc : c.chapter = .engine) (h : Field.areas ∈ c.touches) :
    ∃ t, exec c s = .next t ∧ KeepsMem s t := by
  cases c
  all_goals first | exact Chapter.noConfusion hc | dsimp only [Instr.touches] at h
  all_goals first | exact absurd h (by decide) | refine ⟨_, rfl, ?_⟩
  all_goals simp -failIfUnchanged only []
  all_goals repeat' (with_reducible first
    | apply KeepsMem.refl | exact rfl | apply State.coreFaulted_mem | apply State.coreOut_mem | apply State.dispatchJobs_mem
    | apply State.finishJob_mem | apply State.jobDraws_keeps KeepsMem.respects (by decide)
    | apply State.jobOutput_keeps KeepsMem.respects (by decide) | apply State.modCore_mem
    | apply State.until_keeps KeepsMem.respects (by decide) | intro _ | split)

theorem exec_mem_plate {c : Instr} (s : State) (hc : c.chapter = .plate) (h : Field.areas ∈ c.touches) :
    ∃ t, exec c s = .next t ∧ KeepsMem s t := by
  cases c
  all_goals first | exact Chapter.noConfusion hc | dsimp only [Instr.touches] at h
  all_goals first | exact absurd h (by decide) | refine ⟨_, rfl, ?_⟩
  all_goals simp -failIfUnchanged only []
  all_goals repeat' (with_reducible first
    | apply KeepsMem.refl | exact rfl | apply State.commitVerified_keeps KeepsMem.respects (by decide)
    | apply State.deliver_keeps KeepsMem.respects (by decide) | apply State.fwCommit_mem | apply State.internalJob_mem
    | apply State.ovdel_keeps KeepsMem.respects (by decide) (by decide) | apply State.verifyFailed_keeps KeepsMem.respects (by decide)
    | apply State.withChan_keeps KeepsMem.respects (by decide) | apply State.withPlate_keeps KeepsMem.respects (by decide) | intro _
    | split)

theorem exec_mem_policy {c : Instr} (s : State) (hc : c.chapter = .policy) (h : Field.areas ∈ c.touches) :
    ∃ t, exec c s = .next t ∧ KeepsMem s t := by
  cases c
  all_goals first | exact Chapter.noConfusion hc | dsimp only [Instr.touches] at h
  all_goals first | exact absurd h (by decide) | refine ⟨_, rfl, ?_⟩
  all_goals simp -failIfUnchanged only []
  all_goals repeat' (with_reducible first
    | apply KeepsMem.refl | exact rfl | apply State.applySections_keeps KeepsMem.respects (by decide)
    | apply State.commitPolicy_keeps KeepsMem.respects (by decide) | apply State.deliver_keeps KeepsMem.respects (by decide)
    | apply State.internalJob_mem | apply State.log_keeps KeepsMem.respects (by decide)
    | apply State.ovdel_keeps KeepsMem.respects (by decide) (by decide) | apply State.raise_mem | intro _ | split)

theorem exec_mem_key {c : Instr} (s : State) (hc : c.chapter = .key) (h : Field.areas ∈ c.touches) :
    ∃ t, exec c s = .next t ∧ KeepsMem s t := by
  cases c
  all_goals first | exact Chapter.noConfusion hc | dsimp only [Instr.touches] at h
  all_goals first | exact absurd h (by decide) | refine ⟨_, rfl, ?_⟩
  all_goals simp -failIfUnchanged only []
  all_goals repeat' (with_reducible first
    | apply KeepsMem.refl | exact rfl | apply State.burnish_mem | apply State.deliver_keeps KeepsMem.respects (by decide)
    | apply State.internalJob_mem | apply State.keyUpdate_keeps KeepsMem.respects (by decide)
    | apply State.noteKeyUpdate_keeps KeepsMem.respects (by decide) | apply State.ovdel_keeps KeepsMem.respects (by decide) (by decide)
    | apply State.ovdelOr_keeps KeepsMem.respects (by decide) (by decide) | apply State.regW_keeps KeepsMem.respects (by decide)
    | apply State.tmpRearm_mem | apply State.trip_mem | intro _ | split | (apply KeepsMem.respects.put_tamper (by decide)))

theorem exec_mem_power {c : Instr} (s : State) (hc : c.chapter = .power) (h : Field.areas ∈ c.touches) :
    ∃ t, exec c s = .next t ∧ KeepsMem s t := by
  cases c
  all_goals first | exact Chapter.noConfusion hc | dsimp only [Instr.touches] at h
  all_goals first | exact absurd h (by decide) | refine ⟨_, rfl, ?_⟩
  all_goals simp -failIfUnchanged only []
  all_goals repeat' (with_reducible first
    | apply KeepsMem.refl | exact rfl | apply State.coldReset_mem | apply State.start_mem | intro _ | split
    | (apply KeepsMem.respects.put_power (by decide)))

theorem exec_mem_unpaged {c : Instr} {s t : State} (hp : c.chapter ≠ .page) (ht : exec c s = .next t) : KeepsMem s t := by
  by_cases h : Field.areas ∈ c.touches
  · suffices ∃ t, exec c s = .next t ∧ KeepsMem s t by
      obtain ⟨u, hu, hk⟩ := this
      obtain rfl := Host.Outcome.next.inj (ht.symm.trans hu)
      exact hk
    cases hc : c.chapter with
    | host => exact exec_mem_host s hc h
    | mailbox => exact exec_mem_mailbox s hc h
    | image => exact exec_mem_image s hc h
    | control => exact exec_mem_control s hc h
    | watchdog => exact exec_mem_watchdog s hc h
    | engine => exact exec_mem_engine s hc h
    | plate => exact exec_mem_plate s hc h
    | policy => exact exec_mem_policy s hc h
    | key => exact exec_mem_key s hc h
    | power => exact exec_mem_power s hc h
    | stencil | attest | ring =>
      cases c
      all_goals first | exact Chapter.noConfusion hc | dsimp only [Instr.touches] at h
      all_goals exact absurd h (by decide)
    | page => exact absurd hc hp
  · exact KeepsMem.of_frame (Frame.of_exec ht) h

theorem exec_mem {c : Instr} {s t : State} (ht : exec c s = .next t) : KeepsMem s t := by
  by_cases hp : c.chapter = .page
  · exact (exec_page_run hp ht).keeps KeepsMem.respects (by decide) (fun hc _ hu => exec_mem_unpaged hc hu)
      (fun m s => KeepsMem.of_frame (State.disableHalf_frame (Frame.refl _ s) (Field.sub_refl _)) (by decide))
      (fun s => State.warmReset_mem (KeepsMem.refl s)) fun s on => KeepsMem.refl s
  · exact exec_mem_unpaged hp ht

/-- The idle step changes no store. -/
theorem State.tick_mem (s : State) : KeepsMem s s.tick := by
  have htime : KeepsMem s { s with now := s.now + 10 } := KeepsMem.refl s
  exact htime.comp (KeepsMem.of_frame (State.flushSummaries_frame (Frame.refl _ _) (Field.sub_refl _)) (by decide))

end Sys2Proof.Machine

namespace Sys2Proof

open Sys2Proof.Machine

/-- Settles O4: the idle step leaves the stores, and every command keeps their form. -/
theorem byteStoresStayCanonical : Obligations.ByteStoresStayCanonical := by
  intro s t hs ht
  unfold step at ht
  split at ht
  · obtain rfl := Host.Outcome.next.inj ht
    exact s.tick_mem hs
  · exact exec_mem ht hs

end Sys2Proof

end

section
/-! SETTLED: only RELEASE_INSTANT releases a host (O8). Any other command that may touch platform control releases nobody, chapter by chapter. -/

namespace Sys2Proof.Machine

open Sys2Proof

theorem NoneReleased.of_ctl_map {s t : State} {f : Ctl → Ctl} (hc : t.ctl = s.ctl.map f) (hf : ∀ c, (f c).state = c.state) :
    NoneReleased s t := by
  intro n
  simp only [State.ch, hc, vget, Ctl.released, Vector.getElem_map, hf]
  exact id

theorem exec_norel_host {c : Instr} (s : State) (hc : c.chapter = .host) (h : Field.ctl ∈ c.touches) :
    ∃ t, exec c s = .next t ∧ NoneReleased s t := by
  cases c
  all_goals first | exact Chapter.noConfusion hc | dsimp only [Instr.touches] at h
  all_goals first | exact absurd h (by decide) | refine ⟨_, rfl, ?_⟩
  all_goals simp -failIfUnchanged only []
  all_goals repeat' (with_reducible first
    | apply NoneReleased.refl | exact rfl | apply State.csRise_norel | apply State.endLines_norel | apply State.hold_norel
    | apply State.host_norel | apply State.modCtl_norel | apply State.modPort_norel | apply State.powerCycle_norel
    | apply State.raise_norel | apply State.resumeHeld_norel | apply State.startTaking_norel | apply State.undecoded_norel
    | apply State.until_keeps NoneReleased.respects (by decide) | intro _ | split)

theorem exec_norel_mailbox {c : Instr} (s : State) (hc : c.chapter = .mailbox) (h : Field.ctl ∈ c.touches) :
    ∃ t, exec c s = .next t ∧ NoneReleased s t := by
  cases c
  all_goals first | exact Chapter.noConfusion hc | dsimp only [Instr.touches] at h
  all_goals first | exact absurd h (by decide) | refine ⟨_, rfl, ?_⟩
  all_goals simp -failIfUnchanged only []
  all_goals repeat' (with_reducible first
    | apply NoneReleased.refl | exact rfl | apply State.beginArm_norel | apply State.commitStaged_keeps NoneReleased.respects (by decide)
    | apply State.endSession_keeps NoneReleased.respects (by decide) | apply State.localDone_keeps NoneReleased.respects (by decide)
    | apply State.mbxPage_norel | apply State.modMbx_norel | apply State.modPlt_norel
    | apply State.storePool_keeps NoneReleased.respects (by decide) | apply State.verifyFailed_norel | intro _ | split)

theorem exec_norel_stencil {c : Instr} (s : State) (hc : c.chapter = .stencil) (h : Field.ctl ∈ c.touches) :
    ∃ t, exec c s = .next t ∧ NoneReleased s t := by
  cases c
  all_goals first | exact Chapter.noConfusion hc | dsimp only [Instr.touches] at h
  all_goals first | exact absurd h (by decide) | refine ⟨_, rfl, ?_⟩
  all_goals repeat' (with_reducible first
    | apply NoneReleased.refl | exact rfl | apply State.endDiscovery_norel | intro _ | split)

theorem exec_norel_image {c : Instr} (s : State) (hc : c.chapter = .image) (h : Field.ctl ∈ c.touches) :
    ∃ t, exec c s = .next t ∧ NoneReleased s t := by
  cases c
  all_goals first | exact Chapter.noConfusion hc | dsimp only [Instr.touches] at h
  all_goals first | exact absurd h (by decide) | refine ⟨_, rfl, ?_⟩
  all_goals simp -failIfUnchanged only []
  all_goals repeat' (with_reducible first
    | apply NoneReleased.refl | exact rfl | apply State.areasLost_keeps NoneReleased.respects (by decide)
    | apply State.evictFor_keeps NoneReleased.respects (by decide) | apply State.evictForLayout_keeps NoneReleased.respects (by decide)
    | apply State.forAll_norel | apply State.holdBound_norel | apply State.lanesCorrected_norel | apply State.log_norel
    | apply State.modDir_norel | apply State.modPlt_norel | apply State.plateBad_norel | apply State.raise_norel
    | apply State.reachHold_norel | apply State.resume_norel | apply State.resumeEntry_norel | apply State.retakeTaking_norel
    | apply State.switchCopy_norel | apply State.takeFails_norel | apply State.takeRebuilt_norel
    | apply State.unitOut_keeps NoneReleased.respects (by decide) | intro _ | split | (apply NoneReleased.respects.put_imm (by decide)))

theorem exec_norel_control {c : Instr} (s : State) (hc : c.chapter = .control) (h : Field.ctl ∈ c.touches)
    (hr : ∀ n, c ≠ .releaseInstant n) :
    ∃ t, exec c s = .next t ∧ NoneReleased s t := by
  cases c
  all_goals first | exact Chapter.noConfusion hc | dsimp only [Instr.touches] at h
  all_goals first | exact absurd h (by decide) | refine ⟨_, rfl, ?_⟩
  case releaseInstant n => exact absurd rfl (hr n)
  case rankBoundary =>
    have hone (n : Fin 128) (u : State) : NoneReleased u (if (u.ch n).state = .ready then u.requestRelease n else u) := by
      split
      · exact State.requestRelease_norel (NoneReleased.refl _)
      · exact NoneReleased.refl _
    split
    · have hall (l : List (Fin 128)) := State.forAll_norel (l := l) (State.until_keeps NoneReleased.respects (t1 := s.plat.nextBoundary) (by decide) (NoneReleased.refl s)) hone
      exact NoneReleased.respects.put_plat (by decide) (NoneReleased.respects.put_plat (by decide) (hall _))
    · exact NoneReleased.refl _
  all_goals simp -failIfUnchanged only []
  all_goals repeat' (with_reducible first
    | apply NoneReleased.refl | exact rfl | apply State.becomeReady_norel | apply State.endLines_norel | apply State.forChans_norel
    | apply State.hold_norel | apply State.ignoredWrite_norel | apply State.modCtl_norel | apply State.modLine_norel
    | apply State.order_norel | apply State.ovdel_keeps NoneReleased.respects (by decide) (by decide) | apply State.powerStep3_norel
    | apply State.proofFails_norel | apply State.raise_norel | apply State.regOrder_norel
    | apply State.regW_keeps NoneReleased.respects (by decide) | apply State.requestPulse_norel | apply State.revertFw_norel
    | apply State.select_norel | apply State.selftestAccept_keeps NoneReleased.respects (by decide)
    | apply State.until_keeps NoneReleased.respects (by decide) | apply State.withChan_keeps NoneReleased.respects (by decide) | intro _
    | split)

theorem exec_norel_watchdog {c : Instr} (s : State) (hc : c.chapter = .watchdog) (h : Field.ctl ∈ c.touches) :
    ∃ t, exec c s = .next t ∧ NoneReleased s t := by
  cases c
  all_goals first | exact Chapter.noConfusion hc | dsimp only [Instr.touches] at h
  all_goals first | exact absurd h (by decide) | refine ⟨_, rfl, ?_⟩
  all_goals simp -failIfUnchanged only []
  all_goals repeat' (with_reducible first
    | apply NoneReleased.refl | exact rfl | apply State.applyDeferred_norel | apply State.assertFail_norel
    | apply State.completeAdvances_norel | apply State.coreOut_norel | apply State.dispatchJobs_norel | apply State.endOtp_norel
    | apply State.expire_norel | apply State.flushLedger_norel | apply State.forAll_norel | apply State.forChans_norel
    | apply State.internalExpiry_norel | apply State.modMbx_norel | apply State.modRing_norel | apply State.modWdg_norel
    | apply State.mwdExpire_keeps NoneReleased.respects (by decide) | apply State.mwdService_keeps NoneReleased.respects (by decide)
    | apply State.processLatched_norel | apply State.raise_norel | apply State.regW_keeps NoneReleased.respects (by decide)
    | apply State.resumeCommits_norel | apply State.resumeHeld_norel | apply State.settleAll_norel
    | apply State.until_keeps NoneReleased.respects (by decide) | apply State.waitedOrders_norel | apply State.wakeIfLost_norel
    | apply State.wakeUp_norel | apply State.warmInto_norel | intro _ | split | (apply NoneReleased.respects.put_dev (by decide))
    | (apply NoneReleased.respects.put_devfw (by decide)))

theorem exec_norel_attest {c : Instr} (s : State) (hc : c.chapter = .attest) (h : Field.ctl ∈ c.touches) :
    ∃ t, exec c s = .next t ∧ NoneReleased s t := by
  cases c
  all_goals first | exact Chapter.noConfusion hc | dsimp only [Instr.touches] at h
  all_goals first | exact absurd h (by decide) | refine ⟨_, rfl, ?_⟩
  all_goals simp -failIfUnchanged only []
  all_goals repeat' (with_reducible first
    | apply NoneReleased.refl | exact rfl | apply State.countMessage_keeps NoneReleased.respects (by decide)
    | apply State.i3cRefused_keeps NoneReleased.respects (by decide) | apply State.mctpAnswer_norel | apply State.mctpExecute_norel
    | apply State.modEp_keeps NoneReleased.respects (by decide) | intro _ | split)

theorem exec_norel_engine {c : Instr} (s : State) (hc : c.chapter = .engine) (h : Field.ctl ∈ c.touches) :
    ∃ t, exec c s = .next t ∧ NoneReleased s t := by
  cases c
  all_goals first | exact Chapter.noConfusion hc | dsimp only [Instr.touches] at h
  all_goals first | exact absurd h (by decide) | refine ⟨_, rfl, ?_⟩
  all_goals simp -failIfUnchanged only []
  all_goals repeat' (with_reducible first
    | apply NoneReleased.refl | exact rfl | apply State.coreFaulted_norel | apply State.coreOut_norel | apply State.dispatchJobs_norel
    | apply State.finishJob_norel | apply State.jobDraws_keeps NoneReleased.respects (by decide)
    | apply State.jobOutput_keeps NoneReleased.respects (by decide) | apply State.modCore_norel
    | apply State.until_keeps NoneReleased.respects (by decide) | intro _ | split)

theorem exec_norel_ring {c : Instr} (s : State) (hc : c.chapter = .ring) (h : Field.ctl ∈ c.touches) :
    ∃ t, exec c s = .next t ∧ NoneReleased s t := by
  cases c
  all_goals first | exact Chapter.noConfusion hc | dsimp only [Instr.touches] at h
  all_goals first | exact absurd h (by decide) | refine ⟨_, rfl, ?_⟩
  case functionReset m =>
    split
    · exact NoneReleased.refl _
    · refine NoneReleased.comp ?_ (NoneReleased.of_ctl_map (f := fun c => { c with ordRes := c.ordRes.set m OrdRes.reset }) rfl fun _ => rfl)
      apply State.modMwd_keeps NoneReleased.respects (by decide)
      apply State.modHash_norel
      apply State.modAttView_keeps NoneReleased.respects (by decide)
      apply State.modView_keeps NoneReleased.respects (by decide)
      apply State.modRing_norel
      exact State.disableHalf_norel (NoneReleased.refl _)
  all_goals simp -failIfUnchanged only []
  all_goals repeat' (with_reducible first
    | apply NoneReleased.refl | exact rfl | apply State.abortSq_norel | apply State.deliver_keeps NoneReleased.respects (by decide)
    | apply State.disableHalf_norel | apply State.dmaFailed_keeps NoneReleased.respects (by decide)
    | apply State.ovdel_keeps NoneReleased.respects (by decide) (by decide) | apply State.putSq_keeps NoneReleased.respects (by decide)
    | apply State.reapSq_keeps NoneReleased.respects (by decide) | apply State.regW_keeps NoneReleased.respects (by decide)
    | apply State.ringDmaFailed_keeps NoneReleased.respects (by decide) | apply State.stopCommand_norel | apply State.wait_norel
    | intro _ | split)

theorem exec_norel_plate {c : Instr} (s : State) (hc : c.chapter = .plate) (h : Field.ctl ∈ c.touches) :
    ∃ t, exec c s = .next t ∧ NoneReleased s t := by
  cases c
  all_goals first | exact Chapter.noConfusion hc | dsimp only [Instr.touches] at h
  all_goals first | exact absurd h (by decide) | refine ⟨_, rfl, ?_⟩
  all_goals simp -failIfUnchanged only []
  all_goals repeat' (with_reducible first
    | apply NoneReleased.refl | exact rfl | apply State.arm_keeps NoneReleased.respects (by decide) | apply State.beginArm_norel
    | apply State.commitFwMin_keeps NoneReleased.respects (by decide) | apply State.commitMin_keeps NoneReleased.respects (by decide)
    | apply State.commitVerified_keeps NoneReleased.respects (by decide) | apply State.deliver_keeps NoneReleased.respects (by decide)
    | apply State.fwCommit_norel | apply State.internalJob_norel | apply State.ovdel_keeps NoneReleased.respects (by decide) (by decide)
    | apply State.revertBelow_norel | apply State.verifyFailed_norel | apply State.wait_norel
    | apply State.withChan_keeps NoneReleased.respects (by decide) | apply State.withPlate_keeps NoneReleased.respects (by decide)
    | intro _ | split)

theorem exec_norel_policy {c : Instr} (s : State) (hc : c.chapter = .policy) (h : Field.ctl ∈ c.touches) :
    ∃ t, exec c s = .next t ∧ NoneReleased s t := by
  cases c
  all_goals first | exact Chapter.noConfusion hc | dsimp only [Instr.touches] at h
  all_goals first | exact absurd h (by decide) | refine ⟨_, rfl, ?_⟩
  all_goals simp -failIfUnchanged only []
  all_goals repeat' (with_reducible first
    | apply NoneReleased.refl | exact rfl | apply State.applySections_keeps NoneReleased.respects (by decide)
    | apply State.commitConfig_norel | apply State.commitPolicy_keeps NoneReleased.respects (by decide)
    | apply State.deliver_keeps NoneReleased.respects (by decide) | apply State.internalJob_norel | apply State.log_norel
    | apply State.ovdel_keeps NoneReleased.respects (by decide) (by decide) | apply State.raise_norel | intro _ | split)

theorem exec_norel_key {c : Instr} (s : State) (hc : c.chapter = .key) (h : Field.ctl ∈ c.touches) :
    ∃ t, exec c s = .next t ∧ NoneReleased s t := by
  cases c
  all_goals first | exact Chapter.noConfusion hc | dsimp only [Instr.touches] at h
  all_goals first | exact absurd h (by decide) | refine ⟨_, rfl, ?_⟩
  all_goals simp -failIfUnchanged only []
  all_goals repeat' (with_reducible first
    | apply NoneReleased.refl | exact rfl | apply State.burnish_norel | apply State.deliver_keeps NoneReleased.respects (by decide)
    | apply State.internalJob_norel | apply State.keyUpdate_keeps NoneReleased.respects (by decide)
    | apply State.noteKeyUpdate_keeps NoneReleased.respects (by decide)
    | apply State.ovdel_keeps NoneReleased.respects (by decide) (by decide)
    | apply State.ovdelOr_keeps NoneReleased.respects (by decide) (by decide) | apply State.regW_keeps NoneReleased.respects (by decide)
    | apply State.tmpRearm_norel | apply State.trip_norel | intro _ | split | (apply NoneReleased.respects.put_tamper (by decide)))

theorem exec_norel_power {c : Instr} (s : State) (hc : c.chapter = .power) (h : Field.ctl ∈ c.touches) :
    ∃ t, exec c s = .next t ∧ NoneReleased s t := by
  cases c
  all_goals first | exact Chapter.noConfusion hc | dsimp only [Instr.touches] at h
  all_goals first | exact absurd h (by decide) | refine ⟨_, rfl, ?_⟩
  all_goals simp -failIfUnchanged only []
  all_goals repeat' (with_reducible first
    | apply NoneReleased.refl | exact rfl | apply State.coldReset_norel | apply State.enterStandby_norel | apply State.flushLedger_norel
    | apply State.flushPool_keeps NoneReleased.respects (by decide) | apply State.forChans_norel | apply State.modCtl_norel
    | apply State.raise_norel | apply State.resumeCommits_norel | apply State.resumeStandby_norel | apply State.revert_norel
    | apply State.settleAll_norel | apply State.start_norel | apply State.startTaking_norel
    | apply State.until_keeps NoneReleased.respects (by decide) | apply State.wake_norel | apply State.wakeUp_norel | intro _ | split
    | (apply NoneReleased.respects.put_power (by decide)))

theorem exec_norel_unpaged {c : Instr} {s t : State} (hp : c.chapter ≠ .page) (hr : ∀ n, c ≠ .releaseInstant n) (ht : exec c s = .next t) :
    NoneReleased s t := by
  by_cases h : Field.ctl ∈ c.touches
  · suffices ∃ t, exec c s = .next t ∧ NoneReleased s t by
      obtain ⟨u, hu, hk⟩ := this
      obtain rfl := Host.Outcome.next.inj (ht.symm.trans hu)
      exact hk
    cases hc : c.chapter with
    | host => exact exec_norel_host s hc h
    | mailbox => exact exec_norel_mailbox s hc h
    | stencil => exact exec_norel_stencil s hc h
    | image => exact exec_norel_image s hc h
    | control => exact exec_norel_control s hc h hr
    | watchdog => exact exec_norel_watchdog s hc h
    | attest => exact exec_norel_attest s hc h
    | engine => exact exec_norel_engine s hc h
    | ring => exact exec_norel_ring s hc h
    | plate => exact exec_norel_plate s hc h
    | policy => exact exec_norel_policy s hc h
    | key => exact exec_norel_key s hc h
    | power => exact exec_norel_power s hc h
    | page => exact absurd hc hp
  · exact NoneReleased.of_frame (Frame.of_exec ht) h

theorem exec_norel {c : Instr} {s t : State} (hr : ∀ n, c ≠ .releaseInstant n) (ht : exec c s = .next t) : NoneReleased s t := by
  by_cases hp : c.chapter = .page
  · exact (exec_page_run hp ht).keeps NoneReleased.respects (by decide) (fun hc hr hu => exec_norel_unpaged hc hr hu)
      (fun m s => State.disableHalf_norel (NoneReleased.refl s)) (fun s => State.warmReset_norel (NoneReleased.refl s))
      fun s on => NoneReleased.refl s
  · exact exec_norel_unpaged hp hr ht

theorem State.transition_ch_ne {s : State} {n c : Fin 128} {st : ChState} {cause : Cause} (hc : c ≠ n) :
    (s.transition n st cause).ch c = s.ch c := by
  unfold State.transition
  dsimp only
  split <;> simp [State.modCtl_ch_ne, hc]

/-- The release of channel n releases no other. -/
theorem State.release_released_ne {s : State} {n c : Fin 128} (hc : c ≠ n) (h : ((s.release n).ch c).released = true) :
    (s.ch c).released = true := by
  unfold State.release at h
  extract_lets old st cause s₁ plat s₂ s₃ s₄ s₅ s₆ s₇ s₈ s₉ s₁₀ s₁₁ ms at h
  have hrest : NoneReleased s₃ (s₁₁.answerAll n (fun k => k = .arm) stSuccess ms (leBytes 8 s₁₁.now)) := by
    refine State.answerAll_norel ?_
    refine State.releaseMeas_keeps NoneReleased.respects (by decide) (State.releaseWdg_keeps NoneReleased.respects (by decide)
      (State.releaseProof_keeps NoneReleased.respects (by decide) ?_))
    exact State.modMbx_norel (State.modPort_norel (State.csRise_norel (State.loadAreas_norel (State.modAreas_norel
      (State.modStn_norel (NoneReleased.refl s₃))))))
  have hmove : s₃.ch c = s₂.ch c := State.transition_ch_ne hc
  have hback : s₂.ch c = s.ch c := State.modCtl_ch_ne _ _ _ hc
  rw [← hback, ← hmove]
  exact hrest c h

/-- A release instant that releases a channel meets the conditions of a release, and releases that channel alone. -/
theorem exec_releaseInstant_releases {s t : State} {m n : Fin 128} (ht : exec (.releaseInstant m) s = .next t)
    (hs : (s.ch n).released = false) (hr : (t.ch n).released = true) : m = n ∧ (s.until (s.releaseDue m)).mayRelease m = true := by
  rw [exec_releaseInstant] at ht
  obtain rfl := Host.Outcome.next.inj ht
  dsimp only at hr
  split at hr
  · rename_i hmay
    simp only [Bool.and_eq_true] at hmay
    refine ⟨Decidable.byContradiction fun hne => ?_, hmay.1.1⟩
    have hbefore := State.release_released_ne (Ne.symm hne) hr
    rw [State.until_ch, hs] at hbefore
    exact Bool.false_ne_true hbefore
  · rw [hs] at hr
    exact absurd hr Bool.false_ne_true

end Sys2Proof.Machine

namespace Sys2Proof

open Sys2Proof.Machine

/-- Settles O8: RELEASE_INSTANT alone releases, and `mayRelease` holds the conditions. -/
theorem onlyAReleaseInstantReleasesAHost : Obligations.OnlyAReleaseInstantReleasesAHost := by
  intro c s t n ht hs hr
  by_cases hc : ∃ m, c = .releaseInstant m
  · obtain ⟨m, rfl⟩ := hc
    obtain ⟨rfl, hmay⟩ := exec_releaseInstant_releases ht hs hr
    unfold State.mayRelease at hmay
    simp only [Bool.and_eq_true, decide_eq_true_eq, Bool.not_eq_true', Bool.or_eq_true] at hmay
    obtain ⟨⟨⟨⟨⟨⟨⟨⟨⟨⟨hready, hasked⟩, hsink⟩, -⟩, -⟩, -⟩, hbound⟩, hport⟩, hsession⟩, hrunning⟩, hburnt⟩ := hmay
    exact ⟨rfl, hready, hasked, hsink, hrunning, hburnt, hsession, hport, hbound⟩
  · have hbefore := exec_norel (fun m h => hc ⟨m, h⟩) ht n hr
    rw [hs] at hbefore
    exact absurd hbefore Bool.false_ne_true

end Sys2Proof

end


section
/-! SETTLED: no step clears a fuse (O7). The pulses of OTP_PROGRAM and OTP_FINALISE only set bits at either margin; every other operation
leaves both margins as they are. -/

namespace Sys2Proof.Machine

open Sys2Proof

/-! ## The bits of a margin -/

theorem SMap.get?_put {α : Type} (m : SMap α) (a b : Nat) (v : α) : SMap.get? (SMap.put m a v) b = if a = b then some v else SMap.get? m b := by
  fun_induction SMap.put m a v with
  | case1 => simp [SMap.get?]
  | case2 k w t h => simp [SMap.get?]
  | case3 w t h => simp only [SMap.get?]; split <;> simp_all
  | case4 k w t h h' ih =>
    simp only [SMap.get?, ih]
    split <;> split <;> simp_all

/-- A bit of a margin's words. -/
def fuseBit (m : SMap Word) (b : Nat) : Bool := ((SMap.get? m (b / 32)).getD 0).getLsbD (b % 32)

theorem fuseBit_setFuse {m : SMap Word} {b c : Nat} (h : fuseBit m b = true) : fuseBit (setFuse m c) b = true := by
  unfold fuseBit setFuse at *
  rw [SMap.get?_put]
  split
  · rename_i hw
    rw [hw, Option.getD_some, BitVec.getLsbD_or, h, Bool.true_or]
  · exact h

theorem Otp.normalBit_eq (o : Otp) (b : Nat) : o.normalBit b = fuseBit o.normal b := rfl

theorem Otp.strictBit_eq (o : Otp) (b : Nat) : o.strictBit b = (fuseBit o.strict b && fuseBit o.normal b) := by
  simp [Otp.strictBit, Otp.s, Otp.n, fuseBit]

/-- The fuses of o are blown in o' too, at each margin. -/
def Otp.Grows (o o' : Otp) : Prop :=
  ∀ b, (o.normalBit b = true → o'.normalBit b = true) ∧ (o.strictBit b = true → o'.strictBit b = true)

theorem Otp.Grows.refl (o : Otp) : o.Grows o := fun _ => ⟨id, id⟩

theorem Otp.Grows.trans {o p q : Otp} (h : o.Grows p) (h' : p.Grows q) : o.Grows q :=
  fun b => ⟨fun x => (h' b).1 ((h b).1 x), fun x => (h' b).2 ((h b).2 x)⟩

theorem Otp.Grows.of_margins {o p : Otp} (hn : ∀ b, fuseBit o.normal b = true → fuseBit p.normal b = true)
    (hs : ∀ b, fuseBit o.strict b = true → fuseBit p.strict b = true) : o.Grows p := by
  intro b
  simp only [Otp.normalBit_eq, Otp.strictBit_eq, Bool.and_eq_true]
  exact ⟨hn b, fun h => ⟨hs b h.1, hn b h.2⟩⟩

theorem Otp.Grows.of_eq {o p : Otp} (hn : p.normal = o.normal) (hs : p.strict = o.strict) : o.Grows p :=
  .of_margins (fun _ h => hn ▸ h) fun _ h => hs ▸ h

/-! ## Pulses -/

theorem PulseRun.bit_grows (ev : PulseEv) (r : PulseRun) (b : Nat) : r.otp.Grows (r.bit ev b).otp := by
  unfold PulseRun.bit
  split
  · dsimp only [Otp.countPulses]
    split
    · exact .of_margins (fun _ h => fuseBit_setFuse h) fun _ h => h
    · exact .of_eq rfl rfl
  · exact .of_margins (fun _ h => fuseBit_setFuse h) fun _ h => fuseBit_setFuse h

theorem PulseRun.run_grows (ev : PulseEv) (l : List Nat) (r : PulseRun) : r.otp.Grows (r.run ev l).otp := by
  induction l generalizing r with
  | nil => exact .refl _
  | cons b l ih =>
    unfold PulseRun.run
    split
    · exact ih r
    · split
      · exact ih { r with stop := .inhibited }
      · split
        · exact ih { r with stop := .stuck }
        · exact (PulseRun.bit_grows ev r b).trans (ih _)

/-! ## Operations -/

/-- No fuse that is blown in s is whole in t. -/
def FusesKept (s t : State) : Prop := s.otp.Grows t.otp

theorem FusesKept.refl (s : State) : FusesKept s s := Otp.Grows.refl _

theorem FusesKept.comp {s t u : State} (h : FusesKept s t) (h' : FusesKept t u) : FusesKept s u := Otp.Grows.trans h h'

/-- Neither margin's words change. -/
theorem FusesKept.of_words {s t : State} (hn : t.otp.normal = s.otp.normal) (hs : t.otp.strict = s.otp.strict) : FusesKept s t :=
  Otp.Grows.of_eq hn hs

theorem FusesKept.respects : Respects .otp FusesKept := by
  refine ⟨FusesKept.refl, FusesKept.comp, fun {fs s t} h hf => ?_⟩
  have e : t.otp = s.otp := h .otp hf
  exact .of_words (by rw [e]) (by rw [e])

theorem FusesKept.put_otp {s₀ s : State} {o : Otp} (h : FusesKept s₀ s) (hn : o.normal = s.otp.normal) (hs : o.strict = s.otp.strict) :
    FusesKept s₀ { s with otp := o } := h.comp (.of_words hn hs)

section

variable {k : Field} {R : State → State → Prop} (hR : Respects k R) {s₀ s : State}

include hR

theorem State.endSessions_keeps (hf : k ∉ [.spdm]) (h : R s₀ s) : R s₀ (State.endSessions s) :=
  hR.step h (State.endSessions_frame (Frame.refl _ _) (Field.sub_refl _)) hf

theorem State.warmChan_keeps {n : Fin 128} (hf : k ∉ [.ctl, .trace, .rings]) (h : R s₀ s) : R s₀ (State.warmChan s n) :=
  hR.step h (State.warmChan_frame (Frame.refl _ _) (Field.sub_refl _)) hf

theorem State.sinkAll_keeps (hf : k ∉ [.ctl]) (h : R s₀ s) : R s₀ (State.sinkAll s) :=
  hR.step h (State.sinkAll_frame (Frame.refl _ _) (Field.sub_refl _)) hf

theorem State.setDev_keeps {d : DevState} (hf : k ∉ [.trace, .rings, .dev]) (h : R s₀ s) : R s₀ (State.setDev s d) :=
  hR.step h (State.setDev_frame (Frame.refl _ _) (Field.sub_refl _)) hf

theorem State.enterRecoveryDevice_keeps (hf : k ∉ [.ctl, .plat, .trace, .rings, .dev]) (h : R s₀ s) : R s₀ (State.enterRecoveryDevice s) :=
  hR.step h (State.enterRecoveryDevice_frame (Frame.refl _ _) (Field.sub_refl _)) hf

theorem State.logDevice_keeps {kind : Nat} {x : Nat} (hf : k ∉ [.trace]) (h : R s₀ s) : R s₀ (State.logDevice s kind x) :=
  hR.step h (State.logDevice_frame (Frame.refl _ _) (Field.sub_refl _)) hf

theorem State.commitFw_keeps {t1 : PTable} (hf : k ∉ [.devfw, .led]) (h : R s₀ s) : R s₀ (State.commitFw s t1) :=
  hR.step h (State.commitFw_frame (Frame.refl _ _) (Field.sub_refl _)) hf

theorem State.enterSafeHold_keeps (hf : k ∉ [.ports, .stn, .ctl, .wdg, .plat, .trace, .spdm, .rings, .views, .awaits, .dev]) (h : R s₀ s) :
    R s₀ (State.enterSafeHold s) :=
  hR.step h (State.enterSafeHold_frame (Frame.refl _ _) (Field.sub_refl _)) hf

theorem State.noteStep_keeps {src : Nat} {step : Nat} (hf : k ∉ [.intw, .trace, .rings]) (h : R s₀ s) : R s₀ (State.noteStep s src step) :=
  hR.step h (State.noteStep_frame (Frame.refl _ _) (Field.sub_refl _)) hf

theorem State.countInternal_keeps {src : Nat} (hf : k ∉ [.intw]) (h : R s₀ s) : R s₀ (State.countInternal s src) :=
  hR.step h (State.countInternal_frame (Frame.refl _ _) (Field.sub_refl _)) hf

theorem State.noteFwBad_keeps {l : List PlateId} (hf : k ∉ [.rings]) (h : R s₀ s) : R s₀ (State.noteFwBad s l) :=
  hR.step h (State.noteFwBad_frame (Frame.refl _ _) (Field.sub_refl _)) hf

theorem State.burnishChan_keeps {n : Fin 128}
    (hf : k ∉ [.ports, .mbx, .stn, .ctl, .plt, .wdg, .fps, .pol, .prof, .imm, .fca, .mins, .plat, .trace, .spdm, .rings, .views, .awaits, .drbg, .drawn, .led, .dev]) (h : R s₀ s) :
    R s₀ (State.burnishChan s n) :=
  hR.step h (State.burnishChan_frame (Frame.refl _ _) (Field.sub_refl _)) hf

theorem State.burnishKeys_keeps (hf : k ∉ [.wdg, .imm, .att, .rings, .views, .awaits, .burin, .keys, .dev]) (h : R s₀ s) :
    R s₀ (State.burnishKeys s) :=
  hR.step h (State.burnishKeys_frame (Frame.refl _ _) (Field.sub_refl _)) hf

theorem State.logKey_keeps {kind : Nat} {info : List Nat} (hf : k ∉ [.trace]) (h : R s₀ s) : R s₀ (State.logKey s kind info) :=
  hR.step h (State.logKey_frame (Frame.refl _ _) (Field.sub_refl _)) hf

theorem State.internalRun_keeps {time : Nat} (hf : k ∉ [.burin]) (h : R s₀ s) : R s₀ (State.internalRun s time) :=
  hR.step h (State.internalRun_frame (Frame.refl _ _) (Field.sub_refl _)) hf

theorem State.abortBurin_keeps {src : Src} (hf : k ∉ [.rings, .views, .awaits, .burin, .keys, .dev]) (h : R s₀ s) :
    R s₀ ((State.abortBurin s src).1) :=
  hR.step h (State.abortBurin_frame (Frame.refl _ _) (Field.sub_refl _)) hf

theorem State.abortHash_keeps {src : Src} (hf : k ∉ [.hash]) (h : R s₀ s) : R s₀ ((State.abortHash s src).1) :=
  hR.step h (State.abortHash_frame (Frame.refl _ _) (Field.sub_refl _)) hf

theorem State.endArming_keeps {n : Fin 128} {st : Status} (hf : k ∉ [.ctl, .plt, .spdm, .rings, .views, .awaits, .dev]) (h : R s₀ s) :
    R s₀ (State.endArming s n st) :=
  hR.step h (State.endArming_frame (Frame.refl _ _) (Field.sub_refl _)) hf

theorem State.finish_keeps {src : Src} {st : Status} {info : Nat} {result : List Byte} {more : optParam Bool Bool.false}
    (hf : k ∉ [.rings, .views, .awaits, .dev]) (h : R s₀ s) : R s₀ (State.finish s src st info result more) :=
  hR.step h (State.finish_frame (Frame.refl _ _) (Field.sub_refl _)) hf

theorem State.ignoredWrite_keeps {m : Mgr} {off : Nat} (hf : k ∉ [.views, .hdrs]) (h : R s₀ s) : R s₀ (State.ignoredWrite s m off) :=
  hR.step h (State.ignoredWrite_frame (Frame.refl _ _) (Field.sub_refl _)) hf

theorem State.fwReadTable_keeps (hf : k ∉ [.devfw, .rings, .led]) (h : R s₀ s) : R s₀ (State.fwReadTable s) :=
  hR.step h (State.fwReadTable_frame (Frame.refl _ _) (Field.sub_refl _)) hf

theorem State.checkLedgerKey_keeps
    (hf : k ∉ [.stn, .plt, .wdg, .polLedger, .polMin, .tamperPol, .cfgImg, .mins, .devfw, .intw, .trace, .att, .rings, .keys, .tamper, .led]) (h : R s₀ s) :
    R s₀ (State.checkLedgerKey s) :=
  hR.step h (State.checkLedgerKey_frame (Frame.refl _ _) (Field.sub_refl _)) hf

theorem State.deriveDevice_keeps (hf : k ∉ [.att, .keys]) (h : R s₀ s) : R s₀ (State.deriveDevice s) :=
  hR.step h (State.deriveDevice_frame (Frame.refl _ _) (Field.sub_refl _)) hf

theorem State.runStart_keeps {rep : StartReport}
    (hf : k ∉ [.ports, .mbx, .stn, .ctl, .plt, .wdg, .fps, .pol, .prof, .twl, .imm, .fca, .pool, .mins, .devfw, .plat, .mwd, .trace, .spdm, .rings, .views, .awaits, .burin, .drbg, .drawn, .keys, .power, .led, .dev]) (h : R s₀ s) :
    R s₀ (State.runStart s rep) :=
  hR.step h (State.runStart_frame (Frame.refl _ _) (Field.sub_refl _)) hf

theorem State.enterStart_keeps
    (hf : k ∉ [.plt, .wdg, .prof, .profCfg, .dcfg, .twl, .poolProf, .imm, .farm, .pool, .trace, .att, .i3c, .rings, .drbg, .drawn, .tamper, .power, .led, .dev]) (h : R s₀ s) :
    R s₀ (State.enterStart s) :=
  hR.step h (State.enterStart_frame (Frame.refl _ _) (Field.sub_refl _)) hf

theorem Respects.put_awaits {v} (hf : k ∉ [.awaits]) (h : R s₀ s) : R s₀ { s with awaits := v } :=
  hR.step h (Frame.put_awaits (Frame.refl _ _) (by decide)) hf

theorem Respects.put_burin {v} (hf : k ∉ [.burin]) (h : R s₀ s) : R s₀ { s with burin := v } :=
  hR.step h (Frame.put_burin (Frame.refl _ _) (by decide)) hf

theorem Respects.put_led {v} (hf : k ∉ [.led]) (h : R s₀ s) : R s₀ { s with led := v } :=
  hR.step h (Frame.put_led (Frame.refl _ _) (by decide)) hf

theorem State.forChans_keeps {g : Fin 128 → State → State} (h : R s₀ s) (hg : ∀ n s, R s (g n s)) : R s₀ (s.forChans g) :=
  State.forAll_keeps hR h hg

end

theorem State.noteOtp_fuses {s₀ s : State} {r : Nat} {st : Status} (h : FusesKept s₀ s) : FusesKept s₀ (State.noteOtp s r st) := by
  refine h.comp ?_
  unfold State.noteOtp
  repeat' (with_reducible first
    | apply FusesKept.refl | exact rfl | split | apply FusesKept.put_otp)

theorem State.refuseOtp_fuses {s₀ s : State} {src : Src} {r : Nat} {st : Status} {info : Nat} (h : FusesKept s₀ s) : FusesKept s₀ (State.refuseOtp s src r st info) := by
  refine h.comp ?_
  unfold State.refuseOtp
  repeat' (with_reducible first
    | apply FusesKept.refl | exact rfl | apply State.deliver_keeps FusesKept.respects (by decide) | apply State.noteOtp_fuses | split)

theorem State.shadowStep_fuses {s₀ s : State} (h : FusesKept s₀ s) : FusesKept s₀ (State.shadowStep s) := by
  refine h.comp ?_
  unfold State.shadowStep
  dsimp only
  refine State.forAll_keeps FusesKept.respects (.of_words rfl rfl) fun r s => ?_
  split
  · exact State.raise_keeps FusesKept.respects (by decide) (FusesKept.refl _)
  · exact State.raise_keeps FusesKept.respects (by decide) (FusesKept.refl _)
  · exact FusesKept.refl _

theorem State.warmClear_fuses {s₀ s : State} (h : FusesKept s₀ s) : FusesKept s₀ (State.warmClear s) := by
  refine h.comp ?_
  unfold State.warmClear
  extract_lets u
  have hu : FusesKept s u :=
    State.forChans_keeps FusesKept.respects (State.sinkAll_keeps FusesKept.respects (by decide) (FusesKept.refl s)) fun n s =>
      State.warmChan_keeps FusesKept.respects (by decide) (FusesKept.refl s)
  clear_value u
  exact hu.comp (.of_words rfl rfl)

theorem State.warmInto_fuses {s₀ s : State} {cause : Option Nat} {d : DevState} (h : FusesKept s₀ s) : FusesKept s₀ (State.warmInto s cause d) := by
  refine h.comp ?_
  unfold State.warmInto
  dsimp -proj only
  repeat' (with_reducible first
    | apply FusesKept.refl | exact rfl | apply State.warmClear_fuses | apply State.setDev_keeps FusesKept.respects (by decide) | split
    | apply Respects.put_dev FusesKept.respects (by decide))

theorem State.warmReset_fuses {s₀ s : State} {cause : Option Nat} (h : FusesKept s₀ s) : FusesKept s₀ (State.warmReset s cause) := by
  refine h.comp ?_
  unfold State.warmReset
  repeat' (with_reducible first
    | apply FusesKept.refl | exact rfl | apply State.warmInto_fuses | split)

theorem State.ccRestart_fuses {s₀ s : State} {cause : Nat} (h : FusesKept s₀ s) : FusesKept s₀ (State.ccRestart s cause) := by
  refine h.comp ?_
  unfold State.ccRestart
  extract_lets s₁
  have h₁ : FusesKept s s₁ :=
    State.raise_keeps FusesKept.respects (by decide) (State.endSessions_keeps FusesKept.respects (by decide) (FusesKept.refl s))
  clear_value s₁
  split
  · exact Respects.put_plat FusesKept.respects (by decide) (State.setDev_keeps FusesKept.respects (by decide) h₁)
  · exact Respects.put_plat FusesKept.respects (by decide) (State.setDev_keeps FusesKept.respects (by decide) h₁)
  · exact h₁
  · exact h₁
  all_goals exact h₁.comp (.of_words rfl rfl)

theorem State.runFw_fuses {s₀ s : State} {p : PlateId} {proof : Bool} (h : FusesKept s₀ s) : FusesKept s₀ (State.runFw s p proof) := by
  exact h.comp (.of_words rfl rfl)

theorem State.revertFw_fuses {s₀ s : State} {cause : Nat} (h : FusesKept s₀ s) : FusesKept s₀ (State.revertFw s cause) := by
  refine h.comp ?_
  unfold State.revertFw
  dsimp -proj only
  repeat' (with_reducible first
    | apply FusesKept.refl | exact rfl | apply State.ccRestart_fuses | apply State.warmClear_fuses
    | apply State.raise_keeps FusesKept.respects (by decide) | apply State.enterRecoveryDevice_keeps FusesKept.respects (by decide)
    | apply State.logDevice_keeps FusesKept.respects (by decide) | apply State.runFw_fuses
    | apply State.commitFw_keeps FusesKept.respects (by decide) | split | apply Respects.put_devfw FusesKept.respects (by decide)
    | apply Respects.put_led FusesKept.respects (by decide))

theorem State.internalExpiry_fuses {s₀ s : State} {src : Nat} {cluster : Bool} (h : FusesKept s₀ s) : FusesKept s₀ (State.internalExpiry s src cluster) := by
  refine h.comp ?_
  unfold State.internalExpiry
  dsimp -proj only
  repeat' (with_reducible first
    | apply FusesKept.refl | exact rfl | apply State.warmReset_fuses | apply State.enterSafeHold_keeps FusesKept.respects (by decide)
    | apply State.noteStep_keeps FusesKept.respects (by decide) | apply State.ccRestart_fuses
    | apply State.countInternal_keeps FusesKept.respects (by decide) | apply State.revertFw_fuses | split)

theorem State.fwSelect_fuses {s₀ s : State} (h : FusesKept s₀ s) : FusesKept s₀ (State.fwSelect s).1 := by
  refine h.comp ?_
  unfold State.fwSelect
  dsimp -proj only
  repeat' (with_reducible first
    | apply FusesKept.refl | exact rfl | apply State.noteFwBad_keeps FusesKept.respects (by decide) | apply State.runFw_fuses
    | apply State.commitFw_keeps FusesKept.respects (by decide) | apply State.raise_keeps FusesKept.respects (by decide) | split)

theorem State.fwCommit_fuses {s₀ s : State} {activate : Bool} (h : FusesKept s₀ s) : FusesKept s₀ (State.fwCommit s activate) := by
  refine h.comp ?_
  unfold State.fwCommit
  dsimp -proj only
  repeat' (with_reducible first
    | apply FusesKept.refl | exact rfl | apply State.ccRestart_fuses | apply State.warmReset_fuses
    | apply State.logDevice_keeps FusesKept.respects (by decide) | apply State.runFw_fuses
    | apply State.commitFw_keeps FusesKept.respects (by decide) | split | apply Respects.put_devfw FusesKept.respects (by decide))

theorem State.endOtp_fuses {s₀ s : State} {st : Status} (h : FusesKept s₀ s) : FusesKept s₀ (State.endOtp s st) := by
  refine h.comp ?_
  unfold State.endOtp
  repeat' (with_reducible first
    | apply FusesKept.refl | exact rfl | apply State.deliver_keeps FusesKept.respects (by decide) | split | apply FusesKept.put_otp)

theorem State.burnish_fuses {s₀ s : State} {source : Nat} {level : Nat} (h : FusesKept s₀ s) : FusesKept s₀ (State.burnish s source level) := by
  refine h.comp ?_
  unfold State.burnish
  extract_lets tam s₁ s₂ ended imm fca hashA hashB s₃
  have h₂ : FusesKept s s₂ := by
    refine State.burnishKeys_keeps FusesKept.respects (by decide) (State.endOtp_fuses (State.forChans_keeps FusesKept.respects ?_ ?_))
    · exact Respects.put_tamper FusesKept.respects (by decide) (FusesKept.refl s)
    · exact fun n s => State.burnishChan_keeps FusesKept.respects (by decide) (FusesKept.refl s)
  have h₃ : FusesKept s s₃ :=
    FusesKept.respects.step (State.endSessions_keeps FusesKept.respects (by decide) h₂)
      (Frame.put_mbx_areas_imm_fca_hash (fs := [.mbx, .areas, .imm, .fca, .hash]) (Frame.refl _ _) (by decide) (by decide) (by decide)
        (by decide) (by decide)) (by decide)
  exact State.dispatchJobs_keeps FusesKept.respects (by decide) (State.logKey_keeps FusesKept.respects (by decide)
    (State.raise_keeps FusesKept.respects (by decide) (State.raise_keeps FusesKept.respects (by decide) h₃)))

theorem State.trip_fuses {s₀ s : State} {sources : List Nat} (h : FusesKept s₀ s) : FusesKept s₀ (State.trip s sources) := by
  refine h.comp ?_
  unfold State.trip
  dsimp -proj only
  repeat' (with_reducible first
    | apply FusesKept.refl | exact rfl | apply State.forAll_keeps FusesKept.respects | apply State.burnish_fuses
    | apply State.logKey_keeps FusesKept.respects (by decide) | apply State.raise_keeps FusesKept.respects (by decide)
    | apply State.wakeUp_keeps FusesKept.respects (by decide) | intro _ | split
    | apply Respects.put_tamper FusesKept.respects (by decide))

theorem State.noteFault_fuses {s₀ s : State} (h : FusesKept s₀ s) : FusesKept s₀ (State.noteFault s) := by
  refine h.comp ?_
  unfold State.noteFault
  dsimp -proj only
  repeat' (with_reducible first
    | apply FusesKept.refl | exact rfl | apply State.trip_fuses | apply State.raise_keeps FusesKept.respects (by decide) | split
    | apply Respects.put_burin FusesKept.respects (by decide))

theorem State.coreFault_fuses {s₀ s : State} {k1 : Fin 4} {owner : Owner} {op : Nat} (h : FusesKept s₀ s) : FusesKept s₀ (State.coreFault s k1 owner op) := by
  refine h.comp ?_
  unfold State.coreFault
  dsimp -proj only
  repeat' (with_reducible first
    | apply FusesKept.refl | exact rfl | apply State.noteFault_fuses | apply State.coreOut_keeps FusesKept.respects (by decide)
    | apply State.modCore_keeps FusesKept.respects (by decide) | apply State.raise_keeps FusesKept.respects (by decide) | split)

theorem State.coreFaulted_fuses {s₀ s : State} {k1 : Fin 4} {j : BurinJob} {res : List Byte} (h : FusesKept s₀ s) : FusesKept s₀ (State.coreFaulted s k1 j res) := by
  refine h.comp ?_
  unfold State.coreFaulted
  dsimp -proj only
  repeat' (with_reducible first
    | apply FusesKept.refl | exact rfl | apply State.coreFault_fuses | apply State.dispatchJobs_keeps FusesKept.respects (by decide)
    | apply State.modCore_keeps FusesKept.respects (by decide) | apply State.finishJob_keeps FusesKept.respects (by decide) | split)

theorem State.internalJob_fuses {s₀ s : State} {op : Nat} {time : Nat} {faults : Nat} (h : FusesKept s₀ s) : FusesKept s₀ (State.internalJob s op time faults).2 := by
  refine h.comp ?_
  unfold State.internalJob
  dsimp -proj only
  repeat' (with_reducible first
    | apply FusesKept.refl | exact rfl | apply State.internalRun_keeps FusesKept.respects (by decide)
    | apply State.dispatchJobs_keeps FusesKept.respects (by decide) | apply State.coreFault_fuses | split)

theorem State.stopCommand_fuses {s₀ s : State} {src : Src} {info : Nat} (h : FusesKept s₀ s) : FusesKept s₀ (State.stopCommand s src info).1 := by
  refine h.comp ?_
  unfold State.stopCommand
  dsimp -proj only
  repeat' (with_reducible first
    | apply FusesKept.refl | exact rfl | apply State.abortBurin_keeps FusesKept.respects (by decide)
    | apply State.abortHash_keeps FusesKept.respects (by decide) | apply State.modRing_keeps FusesKept.respects (by decide)
    | apply State.endArming_keeps FusesKept.respects (by decide) | apply State.finish_keeps FusesKept.respects (by decide) | split
    | apply Respects.put_awaits FusesKept.respects (by decide) | apply FusesKept.put_otp)

theorem State.abortSq_fuses {s₀ s : State} {m : Mgr} {qid : Nat} (h : FusesKept s₀ s) : FusesKept s₀ (State.abortSq s m qid) := by
  refine h.comp ?_
  unfold State.abortSq
  split
  · exact State.forAll_keeps FusesKept.respects (FusesKept.refl s) fun f s => State.stopCommand_fuses (FusesKept.refl s)
  · exact FusesKept.refl s

theorem State.lifecycleChanged_fuses {s₀ s : State} {before : Nat} (h : FusesKept s₀ s) : FusesKept s₀ (State.lifecycleChanged s before) := by
  have hraise (data : List Nat) : FusesKept s (s.raise 0x0707 devCh data) :=
    State.raise_keeps FusesKept.respects (by decide) (FusesKept.refl s)
  refine h.comp ?_
  unfold State.lifecycleChanged
  dsimp only
  split
  · exact FusesKept.refl s
  · split
    · exact (hraise _).comp (.of_words rfl rfl)
    · exact hraise _

theorem State.tmpRearm_fuses {s₀ s : State} {m : Mgr} (h : FusesKept s₀ s) : FusesKept s₀ (State.tmpRearm s m) := by
  refine h.comp ?_
  unfold State.tmpRearm
  repeat' (with_reducible first
    | apply FusesKept.refl | exact rfl | apply State.warmReset_fuses | apply State.ignoredWrite_keeps FusesKept.respects (by decide)
    | split)

theorem State.runRom_fuses {s₀ s : State} (h : FusesKept s₀ s) : FusesKept s₀ (State.runRom s) := by
  refine h.comp ?_
  unfold State.runRom
  extract_lets s₁ r
  have h₁ : FusesKept s s₁ := State.checkLedgerKey_keeps FusesKept.respects (by decide) (FusesKept.refl s)
  have hr : FusesKept s r.1 := State.fwSelect_fuses (State.fwReadTable_keeps FusesKept.respects (by decide) h₁)
  split
  · exact h₁
  · split
    · exact State.enterRecoveryDevice_keeps FusesKept.respects (by decide) hr
    · exact State.setDev_keeps FusesKept.respects (by decide) (State.deriveDevice_keeps FusesKept.respects (by decide) hr)

theorem State.romThenStart_fuses {s₀ s : State} {rep : StartReport} (h : FusesKept s₀ s) : FusesKept s₀ (State.romThenStart s rep) := by
  refine h.comp ?_
  unfold State.romThenStart
  dsimp -proj only
  repeat' (with_reducible first
    | apply FusesKept.refl | exact rfl | apply State.runStart_keeps FusesKept.respects (by decide)
    | apply State.enterStart_keeps FusesKept.respects (by decide) | apply State.runRom_fuses | split)

theorem State.runShadow_fuses {s₀ s : State} {samples : BitVec 10} (h : FusesKept s₀ s) : FusesKept s₀ (State.runShadow s samples) := by
  refine h.comp ?_
  unfold State.runShadow
  repeat' (with_reducible first
    | apply FusesKept.refl | exact rfl | apply State.setDev_keeps FusesKept.respects (by decide) | apply State.trip_fuses
    | apply State.shadowStep_fuses | split)

theorem State.start_fuses {s₀ s : State} {rep : StartReport} (h : FusesKept s₀ s) : FusesKept s₀ (State.start s rep) := by
  refine h.comp ?_
  unfold State.start
  repeat' (with_reducible first
    | apply FusesKept.refl | exact rfl | apply State.romThenStart_fuses | apply State.runShadow_fuses
    | apply State.runStart_keeps FusesKept.respects (by decide) | split)

theorem State.coldReset_fuses {s : State} {cause : Nat} : FusesKept s (s.coldReset cause) := .of_words rfl rfl

theorem State.endPulses_fuses {s : State} {src : Src} {r code : Nat} {run : PulseRun} {l : List Nat} {st : Status}
    (hg : s.otp.Grows run.otp) : FusesKept s (s.endPulses src r code run l st) := by
  have hrun : FusesKept s { s with otp := run.otp } := hg
  unfold State.endPulses
  dsimp only
  split
  · exact hrun.comp (.of_words rfl rfl)
  · exact State.deliver_keeps FusesKept.respects (by decide) (State.noteOtp_fuses hrun)
  · exact State.deliver_keeps FusesKept.respects (by decide) (State.noteOtp_fuses hrun)

theorem State.finalise_fuses {s : State} {src : Src} {r : Nat} {ev : PulseEv} : FusesKept s (s.finalise src r ev) := by
  unfold State.finalise
  extract_lets weak r₁ digest r₂ r₃ t
  have h₁ : s.otp.Grows r₁.otp := PulseRun.run_grows ev weak s.pulseStart
  have h₂ : s.otp.Grows r₂.otp := h₁.trans (PulseRun.run_grows ev digest r₁)
  have h₃ : FusesKept s t := State.endPulses_fuses (h₂.trans (PulseRun.run_grows ev (lockBits r) r₂))
  split
  · exact State.endPulses_fuses h₁
  · split
    · exact State.endPulses_fuses h₁
    · split
      · exact State.endPulses_fuses h₂
      · split
        · exact State.raise_keeps FusesKept.respects (by decide) h₃
        · exact h₃

theorem State.otpCommand_fuses {s : State} {src : Src} {c : Instr} {r : Nat} {body : State → State} (hb : ∀ s, FusesKept s (body s)) :
    FusesKept s (s.otpCommand src c r body) := by
  unfold State.otpCommand
  split
  · exact FusesKept.refl s
  · refine State.ovdelOr_keeps FusesKept.respects (by decide) (by decide) (FusesKept.refl s) (fun st i s => ?_) fun s => ?_
    · split
      · exact State.deliver_keeps FusesKept.respects (by decide) (FusesKept.refl s)
      · exact State.refuseOtp_fuses (FusesKept.refl s)
    · split
      · exact State.refuseOtp_fuses (FusesKept.refl s)
      · exact hb s

/-! ## Commands -/

theorem exec_fuses_control {c : Instr} (s : State) (hc : c.chapter = .control) (h : Field.otp ∈ c.touches) :
    ∃ t, exec c s = .next t ∧ FusesKept s t := by
  cases c
  all_goals first | exact Chapter.noConfusion hc | dsimp only [Instr.touches] at h
  all_goals first | exact absurd h (by decide) | refine ⟨_, rfl, ?_⟩
  all_goals simp -failIfUnchanged only []
  all_goals repeat' (with_reducible first
    | apply FusesKept.refl | exact rfl | apply State.revertFw_fuses | apply State.selftestAccept_keeps FusesKept.respects (by decide)
    | apply State.until_keeps FusesKept.respects (by decide) | intro _ | split)

theorem exec_fuses_watchdog {c : Instr} (s : State) (hc : c.chapter = .watchdog) (h : Field.otp ∈ c.touches) :
    ∃ t, exec c s = .next t ∧ FusesKept s t := by
  cases c
  all_goals first | exact Chapter.noConfusion hc | dsimp only [Instr.touches] at h
  all_goals first | exact absurd h (by decide) | refine ⟨_, rfl, ?_⟩
  all_goals simp -failIfUnchanged only []
  all_goals repeat' (with_reducible first
    | apply FusesKept.refl | exact rfl | apply State.assertFail_keeps FusesKept.respects (by decide)
    | apply State.coreOut_keeps FusesKept.respects (by decide) | apply State.dispatchJobs_keeps FusesKept.respects (by decide)
    | apply State.endOtp_fuses | apply State.internalExpiry_fuses | apply State.modRing_keeps FusesKept.respects (by decide)
    | apply State.until_keeps FusesKept.respects (by decide) | apply State.wakeUp_keeps FusesKept.respects (by decide)
    | apply State.warmInto_fuses | intro _ | split | (apply FusesKept.respects.put_dev (by decide)))

theorem exec_fuses_engine {c : Instr} (s : State) (hc : c.chapter = .engine) (h : Field.otp ∈ c.touches) :
    ∃ t, exec c s = .next t ∧ FusesKept s t := by
  cases c
  all_goals first | exact Chapter.noConfusion hc | dsimp only [Instr.touches] at h
  all_goals first | exact absurd h (by decide) | refine ⟨_, rfl, ?_⟩
  all_goals simp -failIfUnchanged only []
  all_goals repeat' (with_reducible first
    | apply FusesKept.refl | exact rfl | apply State.coreFaulted_fuses | apply State.coreOut_keeps FusesKept.respects (by decide)
    | apply State.dispatchJobs_keeps FusesKept.respects (by decide) | apply State.finishJob_keeps FusesKept.respects (by decide)
    | apply State.jobDraws_keeps FusesKept.respects (by decide) | apply State.jobOutput_keeps FusesKept.respects (by decide)
    | apply State.modCore_keeps FusesKept.respects (by decide) | apply State.until_keeps FusesKept.respects (by decide) | intro _ | split)

theorem exec_fuses_ring {c : Instr} (s : State) (hc : c.chapter = .ring) (h : Field.otp ∈ c.touches) :
    ∃ t, exec c s = .next t ∧ FusesKept s t := by
  cases c
  all_goals first | exact Chapter.noConfusion hc | dsimp only [Instr.touches] at h
  all_goals first | exact absurd h (by decide) | refine ⟨_, rfl, ?_⟩
  all_goals simp -failIfUnchanged only []
  all_goals repeat' (with_reducible first
    | apply FusesKept.refl | exact rfl | apply State.abortSq_fuses | apply State.deliver_keeps FusesKept.respects (by decide)
    | apply State.dmaFailed_keeps FusesKept.respects (by decide) | apply State.ovdel_keeps FusesKept.respects (by decide) (by decide)
    | apply State.putSq_keeps FusesKept.respects (by decide) | apply State.reapSq_keeps FusesKept.respects (by decide)
    | apply State.ringDmaFailed_keeps FusesKept.respects (by decide) | apply State.stopCommand_fuses
    | apply State.wait_keeps FusesKept.respects (by decide) | intro _ | split)

theorem exec_fuses_plate {c : Instr} (s : State) (hc : c.chapter = .plate) (h : Field.otp ∈ c.touches) :
    ∃ t, exec c s = .next t ∧ FusesKept s t := by
  cases c
  all_goals first | exact Chapter.noConfusion hc | dsimp only [Instr.touches] at h
  all_goals first | exact absurd h (by decide) | refine ⟨_, rfl, ?_⟩
  all_goals simp -failIfUnchanged only []
  all_goals repeat' (with_reducible first
    | apply FusesKept.refl | exact rfl | apply State.commitVerified_keeps FusesKept.respects (by decide)
    | apply State.deliver_keeps FusesKept.respects (by decide) | apply State.fwCommit_fuses | apply State.internalJob_fuses
    | apply State.ovdel_keeps FusesKept.respects (by decide) (by decide) | apply State.verifyFailed_keeps FusesKept.respects (by decide)
    | apply State.withChan_keeps FusesKept.respects (by decide) | apply State.withPlate_keeps FusesKept.respects (by decide) | intro _
    | split)

theorem exec_fuses_policy {c : Instr} (s : State) (hc : c.chapter = .policy) (h : Field.otp ∈ c.touches) :
    ∃ t, exec c s = .next t ∧ FusesKept s t := by
  cases c
  all_goals first | exact Chapter.noConfusion hc | dsimp only [Instr.touches] at h
  all_goals first | exact absurd h (by decide) | refine ⟨_, rfl, ?_⟩
  all_goals simp -failIfUnchanged only []
  all_goals repeat' (with_reducible first
    | apply FusesKept.refl | exact rfl | apply State.applySections_keeps FusesKept.respects (by decide)
    | apply State.commitPolicy_keeps FusesKept.respects (by decide) | apply State.deliver_keeps FusesKept.respects (by decide)
    | apply State.internalJob_fuses | apply State.log_keeps FusesKept.respects (by decide)
    | apply State.ovdel_keeps FusesKept.respects (by decide) (by decide) | apply State.raise_keeps FusesKept.respects (by decide)
    | intro _ | split)

theorem exec_fuses_key {c : Instr} (s : State) (hc : c.chapter = .key) (h : Field.otp ∈ c.touches) :
    ∃ t, exec c s = .next t ∧ FusesKept s t := by
  cases c
  all_goals first | exact Chapter.noConfusion hc | dsimp only [Instr.touches] at h
  all_goals first | exact absurd h (by decide) | refine ⟨_, rfl, ?_⟩
  case otpRead src region off q =>
    refine State.ovdel_keeps FusesKept.respects (by decide) (by decide) (FusesKept.refl s) fun u => ?_
    have hanswer (a : Answer) : FusesKept u (u.deliver src a) :=
      State.deliver_keeps FusesKept.respects (by decide) (FusesKept.refl u)
    have hbusy (o : Otp) (hn : o.normal = u.otp.normal) (hs : o.strict = u.otp.strict) : FusesKept u { u with otp := o } :=
      FusesKept.put_otp (FusesKept.refl u) hn hs
    dsimp only
    repeat' (with_reducible first
      | exact FusesKept.refl u | exact hanswer _ | split)
    exact hbusy _ rfl rfl
  case otpProgram src region off bitmap ev =>
    refine State.otpCommand_fuses fun u => ?_
    dsimp only
    split
    · exact State.refuseOtp_fuses (FusesKept.refl u)
    · exact State.lifecycleChanged_fuses (State.endPulses_fuses (PulseRun.run_grows _ _ u.pulseStart))
  case otpFinalise src region ev =>
    refine State.otpCommand_fuses fun u => ?_
    dsimp only
    split
    · exact State.refuseOtp_fuses (FusesKept.refl u)
    · exact State.finalise_fuses
  all_goals simp -failIfUnchanged only []
  all_goals repeat' (with_reducible first
    | apply FusesKept.refl | exact rfl | apply State.burnish_fuses | apply State.deliver_keeps FusesKept.respects (by decide)
    | apply State.internalJob_fuses | apply State.keyUpdate_keeps FusesKept.respects (by decide)
    | apply State.noteKeyUpdate_keeps FusesKept.respects (by decide) | apply State.ovdel_keeps FusesKept.respects (by decide) (by decide)
    | apply State.ovdelOr_keeps FusesKept.respects (by decide) (by decide) | apply State.regW_keeps FusesKept.respects (by decide)
    | apply State.tmpRearm_fuses | apply State.trip_fuses | intro _ | split | (apply FusesKept.respects.put_tamper (by decide)))

theorem exec_fuses_power {c : Instr} (s : State) (hc : c.chapter = .power) (h : Field.otp ∈ c.touches) :
    ∃ t, exec c s = .next t ∧ FusesKept s t := by
  cases c
  all_goals first | exact Chapter.noConfusion hc | dsimp only [Instr.touches] at h
  all_goals first | exact absurd h (by decide) | refine ⟨_, rfl, ?_⟩
  case brownout r =>
    dsimp only
    split
    · exact FusesKept.refl s
    · exact Respects.put_power FusesKept.respects (by decide) State.coldReset_fuses
  case resetPin ns =>
    split
    · exact FusesKept.refl s
    · exact State.coldReset_fuses
  all_goals simp -failIfUnchanged only []
  all_goals repeat' (with_reducible first
    | apply FusesKept.refl | exact rfl | apply State.start_fuses | intro _ | split | (apply FusesKept.respects.put_power (by decide)))

theorem exec_fuses_unpaged {c : Instr} {s t : State} (hp : c.chapter ≠ .page) (ht : exec c s = .next t) : FusesKept s t := by
  by_cases h : Field.otp ∈ c.touches
  · suffices ∃ t, exec c s = .next t ∧ FusesKept s t by
      obtain ⟨u, hu, hk⟩ := this
      obtain rfl := Host.Outcome.next.inj (ht.symm.trans hu)
      exact hk
    cases hc : c.chapter with
    | control => exact exec_fuses_control s hc h
    | watchdog => exact exec_fuses_watchdog s hc h
    | engine => exact exec_fuses_engine s hc h
    | ring => exact exec_fuses_ring s hc h
    | plate => exact exec_fuses_plate s hc h
    | policy => exact exec_fuses_policy s hc h
    | key => exact exec_fuses_key s hc h
    | power => exact exec_fuses_power s hc h
    | host | mailbox | stencil | image | attest =>
      cases c
      all_goals first | exact Chapter.noConfusion hc | dsimp only [Instr.touches] at h
      all_goals exact absurd h (by decide)
    | page => exact absurd hc hp
  · exact FusesKept.respects.of_frame (Frame.of_exec ht) h

theorem exec_fuses {c : Instr} {s t : State} (ht : exec c s = .next t) : FusesKept s t := by
  by_cases hp : c.chapter = .page
  · exact (exec_page_run hp ht).keeps FusesKept.respects (by decide) (fun hc _ hu => exec_fuses_unpaged hc hu)
      (fun m s => FusesKept.respects.of_frame (State.disableHalf_frame (Frame.refl _ s) (Field.sub_refl _)) (by decide))
      (fun s => State.warmReset_fuses (FusesKept.refl s)) fun s on => .of_words rfl rfl
  · exact exec_fuses_unpaged hp ht

theorem State.tick_fuses (s : State) : FusesKept s s.tick := by
  have htime : FusesKept s (s.pass 10) := .of_words rfl rfl
  exact htime.comp (FusesKept.respects.of_frame (State.flushSummaries_frame (Frame.refl _ _) (Field.sub_refl _)) (by decide))

theorem step_fuses {s t : State} (ht : step s = .next t) : FusesKept s t := by
  unfold step at ht
  split at ht
  · obtain rfl := Host.Outcome.next.inj ht
    exact s.tick_fuses
  · rename_i c rest _
    have hc : FusesKept { s with pending := rest } t := exec_fuses ht
    exact hc

end Sys2Proof.Machine

namespace Sys2Proof

open Sys2Proof.Machine

/-- Settles O7: no step loses a fuse, and the words at STRICT are read under those at NORMAL. -/
theorem blownFusesStayBlown : Obligations.BlownFusesStayBlown := by
  intro s t ht b
  obtain ⟨hnormal, hstrict⟩ := step_fuses ht b
  refine ⟨hnormal, hstrict, fun h => ?_⟩
  rw [Otp.strictBit_eq, Bool.and_eq_true] at h
  exact h.2

end Sys2Proof

end


section
/-! SUPPORT. Host commands without an array address that are heard (chapter "Host channels and the virtual flash"): each changes its port
alone, and the change is that of `executeCmd`. -/

namespace Sys2Proof.Machine

open Sys2Proof

/-- What `seen` leaves of a port before the command's own change. -/
def HostPort.cleared (p : HostPort) : HostPort :=
  { p with resetArmed := false, reply := [], driven := 0, dqsDriven := false, burstOpen := false }

theorem State.seen_eq (s : State) (n : Fin 128) (f : HostPort → HostPort) :
    s.seen n f = (s.modPort n fun p => f p.cleared).modStn n fun t => { t with oldCmd := false } := rfl

/-- What a port keeps of a command's own address phase, where the command has one in the protocol in force. -/
def HostPort.addressPhase (op period : Nat) (p : HostPort) : HostPort :=
  if ownAddr op p.crIo.toNat = 0 then p else p.addressed period

/-- The port with which a command that is heard is executed. -/
def HostPort.ready (op period : Nat) (p : HostPort) : HostPort := p.cleared.addressPhase op period

theorem HostPort.arrive_eq_cleared {op : Nat} (p : HostPort) (h : op ≠ 0x99) : HostPort.arrive op p = p.cleared := by
  simp [HostPort.arrive, HostPort.cleared, h]

/-- The state in which a command that is heard is executed. -/
theorem State.heard_addressed (s : State) (n : Fin 128) {op : Nat} (period : Nat) (h : op ≠ 0x99) :
    (s.heard n op).addressed n op period = (s.modPort n (HostPort.ready op period)).modStn n fun t => { t with oldCmd := false } := by
  unfold State.heard State.addressed
  rw [State.modPort_modStn, State.modPort_twice]
  congr 1
  refine State.modPort_congr ?_
  simp only [HostPort.arrive_eq_cleared _ h]
  rfl

/-- A command whose execution is a change of the port alone. -/
theorem State.host_eq_seen {s : State} {n : Fin 128} {c : HostCmd} {op period : Nat} {f g : HostPort → HostPort} (h : s.hears n op)
    (hop : c.op = op) (hper : c.period = period) (hcs : c.csLow = false) (ha : arrayClass op = .none) (hr : op ≠ 0x99)
    (he : ∀ u, u = (s.heard n op).addressed n op period → u.executeCmd n op c = u.modPort n g)
    (hg : ({ g ((s.port n).ready op period) with burstOpen := false } : HostPort) = f (s.port n).cleared) : s.host n c = s.seen n f := by
  subst hop hper
  rw [State.host_plain h ha, he _ rfl, hcs, State.heard_addressed s n c.period hr]
  unfold State.keepCs
  rw [State.modPort_modStn, State.modPort_twice, State.modPort_modStn, State.modPort_twice, State.seen_eq]
  congr 1
  exact State.modPort_congr hg

theorem State.seen_congr {s : State} {n : Fin 128} {f g : HostPort → HostPort} (h : f (s.port n).cleared = g (s.port n).cleared) :
    s.seen n f = s.seen n g := by
  rw [State.seen_eq, State.seen_eq]
  congr 1
  exact State.modPort_congr h

theorem HostPort.delivers_closed {p : HostPort} {op : Nat} {bs : List Byte} (h : p.burstOpen = false) :
    ({ p.delivers op bs with burstOpen := false } : HostPort) = p.delivers op bs := by
  unfold HostPort.delivers
  rw [← h]

@[simp] theorem HostPort.ready_burstOpen (op period : Nat) (p : HostPort) : (p.ready op period).burstOpen = false := by
  unfold HostPort.ready HostPort.addressPhase; split <;> rfl

/-- A command that is answered with bytes. -/
theorem State.host_delivers {s : State} {n : Fin 128} {c : HostCmd} {op period : Nat} {bs : List Byte} (h : s.hears n op)
    (hop : c.op = op) (hper : c.period = period) (hcs : c.csLow = false) (ha : arrayClass op = .none) (hr : op ≠ 0x99)
    (he : ∀ u, u = (s.heard n op).addressed n op period → u.executeCmd n op c = u.reply n op bs) :
    s.host n c = s.seen n fun p => (p.addressPhase op period).delivers op bs :=
  State.host_eq_seen (g := fun p => p.delivers op bs) h hop hper hcs ha hr he (HostPort.delivers_closed (HostPort.ready_burstOpen _ _ _))

/-- What the execution sees: the port is ready, and the rest of the channel is as before but for its mark of an earlier epoch. -/
theorem State.ready_port (s : State) (n : Fin 128) {op : Nat} (period : Nat) (h : op ≠ 0x99) :
    ((s.heard n op).addressed n op period).port n = (s.port n).ready op period := by
  rw [State.heard_addressed s n period h]
  simp

@[simp] theorem HostPort.ready_wel (op period : Nat) (p : HostPort) : (p.ready op period).wel = p.wel := by
  unfold HostPort.ready HostPort.addressPhase; split <;> rfl

@[simp] theorem HostPort.ready_op (op period : Nat) (p : HostPort) : (p.ready op period).op = p.op := by
  unfold HostPort.ready HostPort.addressPhase; split <;> rfl

@[simp] theorem HostPort.ready_crIo (op period : Nat) (p : HostPort) : (p.ready op period).crIo = p.crIo := by
  unfold HostPort.ready HostPort.addressPhase; split <;> rfl

@[simp] theorem HostPort.ready_crDummy (op period : Nat) (p : HostPort) : (p.ready op period).crDummy = p.crDummy := by
  unfold HostPort.ready HostPort.addressPhase; split <;> rfl

@[simp] theorem HostPort.ready_ident (op period : Nat) (p : HostPort) : (p.ready op period).ident = p.ident := by
  unfold HostPort.ready HostPort.addressPhase; split <;> rfl

/-! ### The identity that a host reads depends on its table, pins, profile and flash port -/

section

variable {s u : State} {n : Fin 128} (ht : (u.st n).tbl = (s.st n).tbl) (hc : (u.ch n).pins = (s.ch n).pins)
  (hp : u.profOf n = s.profOf n) (hf : ∀ f, u.fp f = s.fp f)

include hp hf in
theorem State.liveLog2?_congr : u.liveLog2? n = s.liveLog2? n := by
  simp only [State.liveLog2?, hp, hf]

include hp hf in
theorem State.liveJedec_congr : u.liveJedec n = s.liveJedec n := by
  simp only [State.liveJedec, State.liveLog2?_congr hp hf, hp, hf]

include hf in
theorem State.localDummy_congr : u.localDummy n = s.localDummy n := by
  simp only [State.localDummy, hf]

include hf in
theorem State.passProto_congr : u.passProto n = s.passProto n := by
  simp only [State.passProto, hf]

include ht hf in
theorem State.needDummy_congr (io : Nat) : u.needDummy n io = s.needDummy n io := by
  simp only [State.needDummy, State.passProto_congr hf, State.localDummy_congr hf, ht]

include ht hc hf in
theorem State.vendorTable_congr : u.vendorTable n = s.vendorTable n := by
  simp only [State.vendorTable, State.localDummy_congr hf, State.needDummy_congr ht hf, ht, hc]

include ht hc hp hf in
theorem State.liveIdent_congr : u.liveIdent n = s.liveIdent n := by
  have hneed : u.needDummy n = s.needDummy n := funext (State.needDummy_congr ht hf)
  have hddr : u.ddrCounts n = s.ddrCounts n := by
    simp only [State.ddrCounts, State.passProto_congr hf, State.localDummy_congr hf, ht]
  simp only [State.liveIdent, State.liveLog2?_congr hp hf, State.liveJedec_congr hp hf, State.vendorTable_congr ht hc hf, hneed, hddr, hp,
    hf]

include ht hc hp hf in
theorem State.identOf_congr (hi : (u.port n).ident = (s.port n).ident) : u.identOf n = s.identOf n := by
  simp only [State.identOf, State.liveIdent_congr ht hc hp hf, hi]

include ht hf in
theorem State.effDummy_congr (hi : (u.port n).ident = (s.port n).ident) (hio : (u.port n).crIo = (s.port n).crIo)
    (hd : (u.port n).crDummy = (s.port n).crDummy) : u.effDummy n = s.effDummy n := by
  simp only [State.effDummy, State.advDummy, State.needDummy_congr ht hf, hi, hio, hd]

end

theorem State.ready_identOf (s : State) (n : Fin 128) {op : Nat} (period : Nat) (h : op ≠ 0x99) :
    ((s.heard n op).addressed n op period).identOf n = s.identOf n := by
  rw [State.heard_addressed s n period h]
  exact State.identOf_congr (by simp) rfl rfl (fun _ => rfl) (by simp)

theorem State.ready_effDummy (s : State) (n : Fin 128) {op : Nat} (period : Nat) (h : op ≠ 0x99) :
    ((s.heard n op).addressed n op period).effDummy n = s.effDummy n := by
  rw [State.heard_addressed s n period h]
  exact State.effDummy_congr (by simp) (fun _ => rfl) (by simp) (by simp) (by simp)

theorem State.ready_wip (s : State) (n : Fin 128) {op : Nat} (period : Nat) (h : op ≠ 0x99) :
    ((s.heard n op).addressed n op period).wip n = s.wip n := by
  rw [State.heard_addressed s n period h]
  simp [State.wip]

/-! ### The reads of registers and identities -/

theorem State.host_readStatus {s : State} {n : Fin 128} {len period : Nat} (h : s.hears n 0x05) :
    s.host n (regCmd 0x05 len period) = s.seen n fun p =>
      (p.addressPhase 0x05 period).delivers 0x05 (List.replicate len (if (s.port n).wel then 0x02 else 0x00)) := by
  refine State.host_delivers h rfl rfl rfl (by decide) (by decide) fun u hu => ?_
  have hw : u.wip n = false := by rw [hu, State.ready_wip s n _ (by decide)]; exact h.2.2.1
  have hl : (u.port n).wel = (s.port n).wel := by rw [hu, State.ready_port s n _ (by decide), HostPort.ready_wel]
  have hb : u.rdsr n = if (s.port n).wel then 0x02 else 0x00 := by
    rw [State.rdsr, hw, hl]
    cases (s.port n).wel <;> rfl
  rw [← hb]
  rfl

/-- The flag status register of a port without a program or erase in progress (R28). -/
def HostPort.flagStatus (p : HostPort) : Byte :=
  BitVec.ofNat 8 (0x80 + (if p.eraseFail then 0x20 else 0) + (if p.programFail then 0x10 else 0) + (if p.supplyFail then 0x08 else 0) +
    (if p.protFail then 0x02 else 0) + if p.four then 0x01 else 0)

theorem flagStatus_pack : ∀ erase program supply prot four : Bool,
    BitVec.ofNat 8 (pack [(7, bval !false), (5, bval erase), (4, bval program), (3, bval supply), (1, bval prot), (0, bval four)]) =
      BitVec.ofNat 8 (0x80 + (if erase then 0x20 else 0) + (if program then 0x10 else 0) + (if supply then 0x08 else 0) +
        (if prot then 0x02 else 0) + if four then 0x01 else 0) := by decide

theorem State.rdfsr_idle {s : State} {n : Fin 128} (h : s.wip n = false) : s.rdfsr n = (s.port n).flagStatus := by
  unfold State.rdfsr
  rw [h]
  exact flagStatus_pack _ _ _ _ _

theorem HostPort.ready_flagStatus (op period : Nat) (p : HostPort) : (p.ready op period).flagStatus = p.flagStatus := by
  unfold HostPort.ready HostPort.addressPhase; split <;> rfl

theorem State.host_readFlagStatus {s : State} {n : Fin 128} {len period : Nat} (h : s.hears n 0x70) :
    s.host n (regCmd 0x70 len period) = s.seen n fun p =>
      (p.addressPhase 0x70 period).delivers 0x70 (List.replicate len (s.port n).flagStatus) := by
  refine State.host_delivers h rfl rfl rfl (by decide) (by decide) fun u hu => ?_
  have hw : u.wip n = false := by rw [hu, State.ready_wip s n _ (by decide)]; exact h.2.2.1
  have hb : u.rdfsr n = (s.port n).flagStatus := by
    rw [State.rdfsr_idle hw, hu, State.ready_port s n _ (by decide), HostPort.ready_flagStatus]
  rw [← hb]
  rfl

theorem State.host_readId {s : State} {n : Fin 128} {len period : Nat} (h : s.hears n 0x9F) :
    s.host n (regCmd 0x9F len period) = s.seen n fun p =>
      (p.addressPhase 0x9F period).delivers 0x9F ((List.range len).map fun i => (s.identOf n).jedec.getD (i % 20) 0) := by
  refine State.host_delivers h rfl rfl rfl (by decide) (by decide) fun u hu => ?_
  have hi : u.identOf n = s.identOf n := hu ▸ State.ready_identOf s n _ (by decide)
  rw [← hi]
  rfl

theorem HostPort.ready_config (op period addr : Nat) (p : HostPort) : (p.ready op period).config addr = p.config addr := by
  unfold HostPort.ready HostPort.addressPhase; split <;> rfl

theorem State.host_readConfig {s : State} {n : Fin 128} {addr len period : Nat} (h : s.hears n 0x65) :
    s.host n { HostCmd.bare 0x65 with addr := addr, len := len, period := period } = s.seen n fun p =>
      (p.addressPhase 0x65 period).delivers 0x65 (List.replicate len ((s.port n).config addr)) := by
  refine State.host_delivers h rfl rfl rfl (by decide) (by decide) fun u hu => ?_
  have hc : (u.port n).config addr = (s.port n).config addr := by
    rw [hu, State.ready_port s n _ (by decide), HostPort.ready_config]
  rw [← hc]
  rfl

theorem HostPort.config_eq (p : HostPort) (addr : Nat) : p.config addr =
    if addr = 0 then p.crIo else if addr = 1 then p.crDummy else if addr = 2 then (if p.addr4 || p.crIo = 3 then 1 else 0)
      else if addr = 3 then p.crDrive.zeroExtend 8 else 0 := by
  rcases addr with _ | _ | _ | _ | addr <;> rfl

/-- The dummy cycles of READ SFDP (R33, R36). -/
def State.sfdpDummy (s : State) (n : Fin 128) : Nat := if (s.port n).crIo.toNat = 3 then s.effDummy n else 8

theorem State.ready_sfdpDummy (s : State) (n : Fin 128) {op : Nat} (period : Nat) (h : op ≠ 0x99) :
    ((s.heard n op).addressed n op period).sfdpDummy n = s.sfdpDummy n := by
  unfold State.sfdpDummy
  rw [State.ready_effDummy s n period h, State.ready_port s n period h, HostPort.ready_crIo]

theorem State.executeCmd_readSfdp (s : State) (n : Fin 128) (c : HostCmd) :
    s.executeCmd n 0x5A c = if s.sfdpDummy n * c.period < 508 then s.shortRead n 0x5A c.len (s.sfdpDummy n)
      else s.reply n 0x5A (s.sfdpBytes n c.addr c.len) := rfl

theorem State.host_readSfdp {s : State} {n : Fin 128} {addr len period : Nat} (h : s.hears n 0x5A)
    (hd : 508 ≤ s.sfdpDummy n * period) :
    s.host n { HostCmd.bare 0x5A with addr := addr, len := len, period := period } = s.seen n fun p =>
      (p.addressPhase 0x5A period).delivers 0x5A (s.sfdpBytes n addr len) := by
  refine State.host_delivers h rfl rfl rfl (by decide) (by decide) fun u hu => ?_
  have hi : u.identOf n = s.identOf n := hu ▸ State.ready_identOf s n _ (by decide)
  rw [State.executeCmd_readSfdp, hu, State.ready_sfdpDummy s n period (by decide), ← hu, if_neg (Nat.not_lt.mpr hd)]
  unfold State.sfdpBytes
  rw [hi]

/-! ### The address phases -/

theorem HostPort.addressPhase_space {op : Nat} (p : HostPort) (period : Nat) (h : spaceOp op = true) :
    p.addressPhase op period = p.addressed period := by
  unfold HostPort.addressPhase ownAddr
  rw [if_pos h, if_neg]
  split <;> decide

theorem HostPort.addressPhase_island {op : Nat} (p : HostPort) (period : Nat) (hs : spaceOp op = false) (h : islandOp op = true) :
    p.addressPhase op period = if p.crIo.toNat = 3 then p.addressed period else p := by
  unfold HostPort.addressPhase ownAddr
  rw [hs, if_neg Bool.false_ne_true, if_pos h]
  split <;> rfl

end Sys2Proof.Machine

namespace Sys2Proof

open Sys2Proof.Machine

/-- Settles O13: each of the five reads is a delivery of its bytes after its own address phase. -/
theorem registerReadsAnswer : Obligations.RegisterReadsAnswer := by
  intro s n addr len period
  refine ⟨fun h => ?status, fun h => ?flags, fun h => ?ident, fun h => ?config, fun h hd => ?sfdp⟩
  case status =>
    refine congrArg Host.Outcome.next ((State.host_readStatus h).trans (State.seen_congr ?_))
    rw [HostPort.addressPhase_island _ _ (by decide) (by decide)]
    rfl
  case flags =>
    refine congrArg Host.Outcome.next ((State.host_readFlagStatus h).trans (State.seen_congr ?_))
    rw [HostPort.addressPhase_island _ _ (by decide) (by decide)]
    rfl
  case ident =>
    refine congrArg Host.Outcome.next ((State.host_readId h).trans (State.seen_congr ?_))
    rw [HostPort.addressPhase_island _ _ (by decide) (by decide)]
  case config =>
    refine congrArg Host.Outcome.next ((State.host_readConfig h).trans (State.seen_congr ?_))
    rw [HostPort.addressPhase_space _ _ (by decide), HostPort.config_eq]
    rfl
  case sfdp =>
    refine congrArg Host.Outcome.next ((State.host_readSfdp h hd).trans (State.seen_congr ?_))
    rw [HostPort.addressPhase_space _ _ (by decide)]

end Sys2Proof

end

section
/-! SETTLED: the reads of registers and identities complete (O59). -/

namespace Sys2Proof.Machine

open Sys2Proof

@[simp] theorem State.seen_port (s : State) (n : Fin 128) (f : HostPort → HostPort) : (s.seen n f).port n = f (s.port n).cleared := by
  simp [State.seen_eq]

theorem State.seen_port_ne (s : State) (n : Fin 128) (f : HostPort → HostPort) {k : Fin 128} (hk : k ≠ n) :
    (s.seen n f).port k = s.port k := by
  rw [State.seen_eq, State.modStn_port, State.modPort_port_ne _ _ _ hk]

theorem State.seen_st_ne (s : State) (n : Fin 128) (f : HostPort → HostPort) {k : Fin 128} (hk : k ≠ n) : (s.seen n f).st k = s.st k := by
  rw [State.seen_eq, State.modStn_st_ne _ _ _ hk, State.modPort_st]

theorem State.seen_frame (s : State) (n : Fin 128) (f : HostPort → HostPort) : Frame [.ports, .stn] s (s.seen n f) :=
  State.modStn_frame (State.modPort_frame (Frame.refl _ s) (by decide)) (by decide)

/-- A command that is answered with bytes, as O59 says it. -/
theorem answers_of_delivers {s : State} {n : Fin 128} {c : Instr} {op period : Nat} {bs : List Byte}
    (h : exec c s = .next (s.seen n fun p => (p.addressPhase op period).delivers op bs)) :
    ∃ t, exec c s = .next t ∧ (t.port n).reply = bs ∧ Frame [.ports, .stn] s t ∧ ∀ k, k ≠ n → t.port k = s.port k ∧ t.st k = s.st k :=
  ⟨_, h, by rw [State.seen_port]; rfl, State.seen_frame s n _, fun _ hk => ⟨State.seen_port_ne s n _ hk, State.seen_st_ne s n _ hk⟩⟩

/-- READ SFDP with too short a dummy phase (R36), for a command given by its fields. -/
theorem State.host_shortSfdp {s : State} {n : Fin 128} {c : HostCmd} (h : s.hears n c.op) (ho : c.op = 0x5A) (hcs : c.csLow = false)
    (hd : s.sfdpDummy n * c.period < 508) :
    s.host n c = (((s.heard n 0x5A).addressed n 0x5A c.period).shortRead n 0x5A c.len (s.sfdpDummy n)).keepCs n false := by
  have ha : arrayClass c.op = .none := by rw [ho]; decide
  rw [State.host_plain h ha, ho, hcs, State.executeCmd_readSfdp, State.ready_sfdpDummy s n _ (by decide), if_pos hd]

/-- READ SFDP with too short a dummy phase answers ones (R36). -/
theorem State.host_readSfdp_short {s : State} {n : Fin 128} {addr len period : Nat} (h : s.hears n 0x5A)
    (hd : s.sfdpDummy n * period < 508) :
    let t := s.host n { HostCmd.bare 0x5A with addr := addr, len := len, period := period }
    (t.port n).reply = ones len ∧ (t.port n).shortDummy = satInc (s.port n).shortDummy := by
  have hp : ((s.heard n 0x5A).addressed n 0x5A period).port n = (s.port n).ready 0x5A period := State.ready_port s n period (by decide)
  have hs : ((s.port n).ready 0x5A period).shortDummy = (s.port n).shortDummy := by
    unfold HostPort.ready HostPort.addressPhase; split <;> rfl
  rw [State.host_shortSfdp h rfl rfl hd]
  simp [State.keepCs, State.shortRead, State.reply, hp, hs]

end Sys2Proof.Machine

namespace Sys2Proof

open Sys2Proof.Machine

/-- Settles O59, from the meanings of the five reads and the frame of `seen`. -/
theorem registerReadsComplete : Obligations.RegisterReadsComplete := by
  intro s n addr len period
  refine ⟨fun h => ?status, fun h => ?flags, fun h => ?ident, fun h v hv => ?config, fun h ha => ?zero, fun h => ?sfdp⟩
  case status => exact answers_of_delivers (congrArg Host.Outcome.next (State.host_readStatus h))
  case flags => exact answers_of_delivers (congrArg Host.Outcome.next (State.host_readFlagStatus h))
  case ident => exact answers_of_delivers (congrArg Host.Outcome.next (State.host_readId h))
  case config =>
    have hc : (s.port n).config addr = v := by
      simp only [List.mem_cons, Prod.mk.injEq, List.not_mem_nil, or_false] at hv
      rcases hv with ⟨rfl, rfl⟩ | ⟨rfl, rfl⟩ | ⟨rfl, rfl⟩ | ⟨rfl, rfl⟩ <;> rfl
    exact answers_of_delivers (hc ▸ congrArg Host.Outcome.next (State.host_readConfig h))
  case zero =>
    have hc : (s.port n).config addr = 0 := by
      rw [HostPort.config_eq, if_neg (by omega), if_neg (by omega), if_neg (by omega), if_neg (by omega)]
    exact answers_of_delivers (hc ▸ congrArg Host.Outcome.next (State.host_readConfig h))
  case sfdp =>
    by_cases hd : 508 ≤ s.sfdpDummy n * period
    · exact (if_pos hd).mpr (answers_of_delivers (congrArg Host.Outcome.next (State.host_readSfdp h hd)))
    · exact (if_neg hd).mpr ⟨_, rfl, State.host_readSfdp_short h (Nat.not_le.mp hd)⟩

end Sys2Proof

end


section
/-! SETTLED: latches and WRCR (O14), the front command (O1), the idle step (O2), the state at power-on (O3), completion entries (O60). -/

namespace Sys2Proof.Machine

open Sys2Proof

/-! ### Commands that only set or clear a latch -/

/-- A command of one byte, with or without a data byte, whose execution changes the port by `f`. -/
theorem exec_latch {s : State} {n : Fin 128} {op : Nat} {data : List Byte} {f : HostPort → HostPort} (h : s.hears n op)
    (ha : arrayClass op = .none) (hr : op ≠ 0x99)
    (he : ∀ u : State, u.executeCmd n op { HostCmd.bare op with data := data } = u.modPort n f)
    (hf : ∀ p, (f p).burstOpen = p.burstOpen) (ho : ∀ io, ownAddr op io = 0) :
    s.host n { HostCmd.bare op with data := data } = s.seen n f := by
  refine State.host_eq_seen (period := (HostCmd.bare op).period) h rfl rfl rfl ha hr (fun u _ => he u) ?_
  have hready : (s.port n).ready op (HostCmd.bare op).period = (s.port n).cleared := if_pos (ho _)
  have hb : (f (s.port n).cleared).burstOpen = false := hf _
  rw [hready]
  generalize f (s.port n).cleared = p at hb ⊢
  rw [← hb]

/-- What WRCR does to the port once its address phase is over. -/
def HostPort.wrcr (addr : Nat) (v : Byte) (p : HostPort) : HostPort :=
  { (if p.wel then p.setConfig addr v else p) with wel := false }

theorem HostPort.wrcr_burstOpen (addr : Nat) (v : Byte) (p : HostPort) : (p.wrcr addr v).burstOpen = p.burstOpen := by
  unfold HostPort.wrcr HostPort.setConfig
  repeat' split
  all_goals rfl

/-- WRCR by its registers (R25): without WEL nothing, else the register at the address where the value is one of its own. -/
theorem HostPort.wrcr_eq (addr : Nat) (v : Byte) (p : HostPort) :
    p.wrcr addr v =
      if !p.wel then { p with wel := false }
      else if addr = 0 ∧ v.toNat ≤ 3 then { p with wel := false, crIo := v, crDummy := 0 }
      else if addr = 1 ∧ (v = 0 ∨ 4 ≤ v.toNat ∧ v.toNat ≤ 40) then { p with wel := false, crDummy := v }
      else if addr = 2 then { p with wel := false, addr4 := v.getLsbD 0 }
      else if addr = 3 then { p with wel := false, crDrive := v.truncate 2 }
      else { p with wel := false } := by
  unfold HostPort.wrcr
  cases hw : p.wel with
  | false => rfl
  | true =>
    match addr with
    | 0 => by_cases h : v.toNat ≤ 3 <;> simp [HostPort.setConfig, h]
    | 1 => by_cases h : v = 0#8 ∨ 4 ≤ v.toNat ∧ v.toNat ≤ 40 <;> simp [HostPort.setConfig, h]
    | 2 => simp [HostPort.setConfig]
    | 3 => simp [HostPort.setConfig]
    | k + 4 => simp [HostPort.setConfig]

theorem State.executeCmd_writeConfig (s : State) (n : Fin 128) (addr period : Nat) (v : Byte) :
    s.executeCmd n 0x72 { HostCmd.bare 0x72 with addr := addr, data := [v], period := period } =
      s.modPort n fun p => p.wrcr addr v := by
  refine State.modPort_congr ?_
  simp [HostPort.wrcr]

theorem State.host_writeConfig {s : State} {n : Fin 128} {addr period : Nat} {v : Byte} (h : s.hears n 0x72) :
    s.host n { HostCmd.bare 0x72 with addr := addr, data := [v], period := period } =
      s.seen n fun p => (p.addressed period).wrcr addr v := by
  refine State.host_eq_seen h rfl rfl rfl (by decide) (by decide) (fun u _ => State.executeCmd_writeConfig u n addr period v) ?_
  have hready : (s.port n).ready 0x72 period = (s.port n).cleared.addressed period := HostPort.addressPhase_space _ _ (by decide)
  have hb : (((s.port n).cleared.addressed period).wrcr addr v).burstOpen = false := HostPort.wrcr_burstOpen _ _ _
  rw [hready]
  generalize HostPort.wrcr addr v _ = p at hb ⊢
  rw [← hb]

end Sys2Proof.Machine

namespace Sys2Proof

open Sys2Proof.Machine

/-- Settles O1, by the definition of a step. -/
theorem stepRunsTheFrontCommand : Obligations.StepRunsTheFrontCommand := fun _ _ _ => rfl

/-- Settles O14: each latch command is one change of the port, WRCR by `HostPort.wrcr_eq`. -/
theorem latchCommandsSetTheirLatch : Obligations.LatchCommandsSetTheirLatch := by
  intro s n addr period v
  have latch {op : Nat} {data : List Byte} {f : HostPort → HostPort} := @exec_latch s n op data f
  refine ⟨fun h => ?_, fun h => ?_, fun h => ?_, fun h => ?_, fun h => ?_, fun h => ?_, fun h => ?_, fun h => ?_, fun h => ?_, fun h => ?wrcr⟩
  case wrcr =>
    refine congrArg _ ((State.host_writeConfig h).trans (State.seen_congr ?_))
    rw [HostPort.wrcr_eq]
    rfl
  all_goals exact congrArg _ (latch h (by decide) (by decide) (fun _ => rfl) (fun _ => rfl) fun _ => rfl)

/-- Settles O2: the idle step is the tick, and the summary records change Tracing alone. -/
theorem stepOnAnEmptyQueuePassesTime : Obligations.StepOnAnEmptyQueuePassesTime := by
  intro s hs
  have ht : step s = .next { s with now := s.now + 10 }.flushSummaries := by
    unfold step
    split
    · rfl
    · rename_i h
      exact absurd (hs.symm.trans h) (by simp)
  refine ⟨ht, fun t h => ?_⟩
  obtain rfl : { s with now := s.now + 10 }.flushSummaries = t := Host.Outcome.next.inj (ht.symm.trans h)
  have hf : Frame [.trace] { s with now := s.now + 10 } _ := State.flushSummaries_frame (Frame.refl _ _) (by decide)
  exact ⟨hf .now (by decide), (hf .pending (by decide)).trans hs,
    State.flushSummaries_frame (Frame.put_now (Frame.refl _ _) (by decide)) (by decide)⟩

/-- Settles O3, by the values of the reset state. -/
theorem resetIsPowerOnWithEveryHostHeld : Obligations.ResetIsPowerOnWithEveryHostHeld := by
  unfold Obligations.ResetIsPowerOnWithEveryHostHeld
  refine ⟨rfl, rfl, rfl, fun n => ?ctl, fun n => ?wdg, fun m => ?ring, rfl, rfl, fun n => ?mem⟩
  case ctl => rw [State.ch, State.reset, vget, Vector.getElem_replicate]; exact ⟨rfl, rfl⟩
  case wdg => rw [State.wd, State.reset, vget, Vector.getElem_replicate]; exact ⟨rfl, rfl, rfl, rfl⟩
  case ring => cases m <;> exact ⟨rfl, rfl, rfl, rfl, rfl, rfl⟩
  case mem => rw [State.area, State.reset, vget, Vector.getElem_replicate]; exact ⟨Memory.wf_nil, Memory.wf_nil⟩

end Sys2Proof

namespace Sys2Proof.Machine

open Sys2Proof

/-! ### The segments of a byte string -/

theorem slice_length (bs : List Byte) (off n : Nat) : (slice bs off n).length = n := by simp [slice]

theorem leBytes_length (k v : Nat) : (leBytes k v).length = k := by
  induction k generalizing v with
  | zero => rfl
  | succ k ih => simp [leBytes, ih]

theorem slice_append_right {a b : List Byte} {off n : Nat} (h : a.length ≤ off) : slice (a ++ b) off n = slice b (off - a.length) n := by
  refine List.map_congr_left fun i _ => ?_
  rw [List.getD_append_right _ _ _ _ (by omega), Nat.sub_add_comm h]

theorem slice_head {b c : List Byte} {n : Nat} (hb : b.length = n) : slice (b ++ c) 0 n = b := by
  subst hb
  refine List.ext_getElem (slice_length _ _ _) fun i h _ => ?_
  have hi : i < b.length := by simpa [slice] using h
  simp [slice, List.getElem?_append_left hi, List.getElem?_eq_getElem hi]

theorem leAt_append_right {a b : List Byte} {off n : Nat} (h : a.length ≤ off) : leAt (a ++ b) off n = leAt b (off - a.length) n :=
  congrArg ofLe (slice_append_right h)

/-- A little-endian field at the head of a string. -/
theorem leAt_head {c : List Byte} {n v : Nat} (hv : v < 256 ^ n) : leAt (leBytes n v ++ c) 0 n = v := by
  rw [leAt, slice_head (leBytes_length _ _), ofLe_leBytes, Nat.mod_eq_of_lt hv]

/-- STATUS in bits 14:0 and MORE in bit 15 of one half word. -/
theorem status_more (st : BitVec 15) (more : Bool) :
    st.toNat + 0x8000 * more.toNat < 256 ^ 2 ∧ field (st.toNat + 0x8000 * more.toNat) 14 0 = st.toNat ∧
      bit (st.toNat + 0x8000 * more.toNat) 15 = more := by
  have h := st.isLt
  unfold field bit
  rw [Nat.testBit_eq_decide_div_mod_eq]
  cases more <;> simp <;> omega

end Sys2Proof.Machine

namespace Sys2Proof

open Sys2Proof.Machine

/-- Settles O60: the entry is the concatenation of its fields, each at the sum of the lengths before it. -/
theorem completionEntriesHaveTheirLayout : Obligations.CompletionEntriesHaveTheirLayout := by
  intro c b
  obtain ⟨hlt, hstatus, hmore⟩ := status_more c.status c.more
  have hb : b = slice c.result 0 16 ++ (leBytes 2 c.sqhd.toNat ++ (leBytes 2 c.sqid.toNat ++ (leBytes 2 c.cid.toNat ++
      (leBytes 2 (c.status.toNat + 0x8000 * c.more.toNat) ++ (leBytes 4 c.info.toNat ++ [0, 0, 0, if c.phase then 0x80 else 0]))))) := by
    simp [b, Completion.bytes]
  have at2 (x : Half) (r : List Byte) : leAt (leBytes 2 x.toNat ++ r) 0 2 = x.toNat := leAt_head x.isLt
  have at4 (x : Word) (r : List Byte) : leAt (leBytes 4 x.toNat ++ r) 0 4 = x.toNat := leAt_head x.isLt
  have hst (r : List Byte) : leAt (leBytes 2 (c.status.toNat + 0x8000 * c.more.toNat) ++ r) 0 2 = c.status.toNat + 0x8000 * c.more.toNat :=
    leAt_head hlt
  refine ⟨by simp [b, Completion.bytes, slice_length, leBytes_length], ?_⟩
  rw [hb]
  simp only [leAt_append_right, slice_head, slice_length, leBytes_length, at2, at4, hst, hstatus, hmore, Nat.reduceLeDiff, Nat.reduceSub,
    true_and]
  cases c.phase <;> decide

end Sys2Proof

end


section
/-! SUPPORT. Refusals of the Stencil (chapter "The Stencil", R52, R58, R59), and what a command with an array address comes to. -/

namespace Sys2Proof.Machine

open Sys2Proof

/-- What a refusal leaves in the Stencil's record of a channel. -/
theorem State.denied_st (s : State) (n : Fin 128) (op addr : Nat) (win : Option (Fin 32)) (r : Reason) (cls : RefClass) :
    (s.denied n op addr win r cls).st n =
      { s.st n with
        lastDeny := BitVec.ofNat 32 (pack [(0, op), (8, (win.map fun w => w.1).getD 31), (13, r.code), (16, (s.st n).phase.code),
          (18, (s.port n).crIo.toNat), (20, (s.st n).epoch.toNat % 4096)])
        lastAddr := BitVec.ofNat 32 addr
        deniedRead := if cls = .out ∧ r ≠ .pass then satInc (s.st n).deniedRead else (s.st n).deniedRead
        passOther := if cls = .out ∧ r = .pass then satInc (s.st n).passOther else (s.st n).passOther
        supplyCnt := if (cls = .change true ∨ cls = .change false) ∧ r = .supply then satInc (s.st n).supplyCnt else (s.st n).supplyCnt
        bucketCnt := if (cls = .change true ∨ cls = .change false) ∧ r = .bucket then satInc (s.st n).bucketCnt else (s.st n).bucketCnt
        protectedCnt := if (cls = .change true ∨ cls = .change false) ∧ r ≠ .supply ∧ r ≠ .bucket then satInc (s.st n).protectedCnt
          else (s.st n).protectedCnt
        ruleDeny := if cls = .other then satInc (s.st n).ruleDeny else (s.st n).ruleDeny } := by
  simp [State.denied]

@[simp] theorem State.denied_port (s : State) (n : Fin 128) (op addr : Nat) (win : Option (Fin 32)) (r : Reason) (cls : RefClass) (k : Fin 128) :
    (s.denied n op addr win r cls).port k = s.port k := by simp [State.denied]

@[simp] theorem State.denied_areas (s : State) (n : Fin 128) (op addr : Nat) (win : Option (Fin 32)) (r : Reason) (cls : RefClass) :
    (s.denied n op addr win r cls).areas = s.areas := by simp [State.denied]

@[simp] theorem State.denied_mbx (s : State) (n : Fin 128) (op addr : Nat) (win : Option (Fin 32)) (r : Reason) (cls : RefClass) :
    (s.denied n op addr win r cls).mbx = s.mbx := by simp [State.denied]

@[simp] theorem State.denied_fps (s : State) (n : Fin 128) (op addr : Nat) (win : Option (Fin 32)) (r : Reason) (cls : RefClass) :
    (s.denied n op addr win r cls).fps = s.fps := by simp [State.denied]

/-- A refused read answers ones (R59). -/
theorem State.refuse_out (s : State) (n : Fin 128) (c : HostCmd) (op addr : Nat) (win : Option (Fin 32)) (r : Reason) (wel : Bool) :
    s.refuse n c op addr win r .out wel = (s.denied n c.op addr win r .out).reply n op (ones c.len) := rfl

/-- A refused program or erase with WEL sets WIP (R28, R59). -/
theorem State.refuse_change (s : State) (n : Fin 128) (c : HostCmd) (op addr : Nat) (win : Option (Fin 32)) (r : Reason) (erase : Bool) :
    s.refuse n c op addr win r (.change erase) true =
      (s.denied n c.op addr win r (.change erase)).modPort n fun p => { p with op := some (.refused erase (r = .supply)) } := rfl

@[simp] theorem State.taken_st (s : State) (n : Fin 128) (op period : Nat) : (s.taken n op period).st n = { s.st n with oldCmd := false } := by
  simp [State.taken]

@[simp] theorem State.taken_port (s : State) (n : Fin 128) (op period : Nat) :
    (s.taken n op period).port n = (HostPort.arrive op (s.port n)).addressed period := by
  simp [State.taken]

theorem State.taken_frame (s : State) (n : Fin 128) (op period : Nat) : Frame [.ports, .stn] s (s.taken n op period) :=
  State.modPort_frame (State.modStn_frame (State.modPort_frame (Frame.refl _ s) (by decide)) (by decide)) (by decide)

theorem State.heard_frame (s : State) (n : Fin 128) (op : Nat) : Frame [.ports, .stn] s (s.heard n op) :=
  State.modStn_frame (State.modPort_frame (Frame.refl _ s) (by decide)) (by decide)

/-- The rules and the host set stand for the state after the address phase as before. -/
theorem State.taken_unruled {s : State} {n : Fin 128} {op : Nat} (period : Nat) (h : s.hears n op) :
    (∀ r, ((s.taken n op period).st n).tbl.ruleOp r op ((s.taken n op period).port n).crIo.toNat ((s.taken n op period).st n).phase.code = false) ∧
      inHostSet op ((s.taken n op period).port n).crIo.toNat = true := by
  obtain ⟨-, -, -, hs, hr⟩ := h
  simpa [HostPort.arrive, HostPort.addressed] using ⟨hr, hs⟩

/-- A read outside the mailbox is judged in the window of its address. -/
theorem State.host_read {s : State} {n : Fin 128} {c : HostCmd} {w : Fin 32} (h : s.hears n c.op) (ha : arrayClass c.op = .read)
    (hw : (s.st n).tbl.windowAt (s.arrayAddr n c.op c.addr) = some w) (hm : (s.st n).tbl.treat w ≠ 5) :
    s.host n c = ((s.taken n c.op c.period).judgeWindow n c.op c (s.arrayAddr n c.op c.addr) w 0 .out (s.port n).wel 256 1 none
      (s.port n).wel).keepCs n c.csLow := by
  obtain ⟨hr, hs⟩ := State.taken_unruled c.period h
  rw [State.host_array h (by simp [ha]) (by simp [ha]), State.judgeCmd_read hr hs ha]
  simp [hw, hm, HostPort.arrive, HostPort.addressed]

/-- A read at an address that no window covers is refused (R58). -/
theorem State.host_read_uncovered {s : State} {n : Fin 128} {c : HostCmd} (h : s.hears n c.op) (ha : arrayClass c.op = .read)
    (hw : (s.st n).tbl.windowAt (s.arrayAddr n c.op c.addr) = none) :
    s.host n c = ((s.taken n c.op c.period).refuse n c c.op (s.arrayAddr n c.op c.addr) none .window .out (s.port n).wel).keepCs n
      c.csLow := by
  obtain ⟨hr, hs⟩ := State.taken_unruled c.period h
  rw [State.host_array h (by simp [ha]) (by simp [ha]), State.judgeCmd_read hr hs ha]
  simp [hw, HostPort.arrive, HostPort.addressed]

/-- A command without any address phase that no rule names goes to the decision as one without an address. -/
theorem State.decodeCmd_unaddressed {s : State} {n : Fin 128} {c : HostCmd}
    (hr : ∀ r, (s.st n).tbl.ruleOp r c.op (s.port n).crIo.toNat (s.st n).phase.code = false)
    (ho : inHostSet c.op (s.port n).crIo.toNat = true → ownAddr c.op (s.port n).crIo.toNat = 0) :
    s.decodeCmd n c = s.judgeCmd n c false 0 := by
  unfold State.decodeCmd
  simp only [STable.frame_none hr]
  split
  · rename_i hs
    simp [ho hs]
  · simp

theorem ownAddr_chip {op : Nat} (io : Nat) (h : arrayClass op = .chip) : ownAddr op io = 0 := by
  have hnot : ∀ l : List Nat, l.all (fun o => arrayClass o ≠ .chip) = true → l.contains op = false := by
    intro l hl
    cases hc : l.contains op
    · rfl
    · exact absurd h (of_decide_eq_true (List.all_eq_true.mp hl _ (List.contains_iff_mem.mp hc)))
  have hsp : spaceOp op = false := hnot _ (by decide)
  have hil : islandOp op = false := hnot _ (by decide)
  simp [ownAddr, hsp, hil, h]

/-- The rules and the host set stand for the state after the arrival as before. -/
theorem State.heard_unruled {s : State} {n : Fin 128} {op : Nat}
    (hr : ∀ r, (s.st n).tbl.ruleOp r op (s.port n).crIo.toNat (s.st n).phase.code = false) (r : Fin 64) :
    ((s.heard n op).st n).tbl.ruleOp r op ((s.heard n op).port n).crIo.toNat ((s.heard n op).st n).phase.code = false := by
  simpa [HostPort.arrive] using hr r

theorem State.csRise_decodes (s : State) (n : Fin 128) : (s.csRise n).decodes n = s.decodes n := by
  simp [State.csRise, State.decodes]
  rfl

/-- What `csRise` leaves of a port. -/
theorem State.csRise_port (s : State) (n : Fin 128) :
    (s.csRise n).port n = { s.port n with reply := [], driven := 0, dqsDriven := false, burstOpen := false } := by
  simp [State.csRise]

theorem State.csRise_wip (s : State) (n : Fin 128) : (s.csRise n).wip n = s.wip n := by
  simp [State.csRise, State.wip]

theorem State.csRise_st_tbl (s : State) (n : Fin 128) : ((s.csRise n).st n).tbl = (s.st n).tbl := by simp [State.csRise]

theorem State.csRise_st_phase (s : State) (n : Fin 128) : ((s.csRise n).st n).phase = (s.st n).phase := by simp [State.csRise]

/-- RESET is in the host set of every protocol. -/
theorem inHostSet_reset (io : Nat) : inHostSet 0x99 io = true := by
  unfold inHostSet
  split <;> simp

/-- A command outside the host set that no rule names counts in UNDECODED (R27). -/
theorem State.host_undecoded {s : State} {n : Fin 128} {c : HostCmd} (hdec : s.decodes n = true) (hdpd : (s.port n).dpd = false)
    (hw : s.wip n = false) (hs : inHostSet c.op (s.port n).crIo.toNat = false) (hcs : c.csLow = false)
    (hr : ∀ r, (s.st n).tbl.ruleOp r c.op (s.port n).crIo.toNat (s.st n).phase.code = false) :
    s.host n c = (s.csRise n).modPort n fun p => { p with undecoded := satInc p.undecoded, resetArmed := false } := by
  have hop : c.op ≠ 0x99 := by
    intro h
    rw [h, inHostSet_reset] at hs
    exact Bool.true_eq_false.mp hs
  let u := (s.csRise n).modPort n fun p => { p with resetArmed := ((s.csRise n).port n).resetArmed && decide (c.op = 0x99) }
  have hu : (u.port n).crIo = (s.port n).crIo := by simp [u, State.csRise_port]
  have htbl : (u.st n).tbl = (s.st n).tbl := by simp [u, State.csRise_st_tbl]
  have hph : (u.st n).phase = (s.st n).phase := by simp [u, State.csRise_st_phase]
  have hur : ∀ r, (u.st n).tbl.ruleOp r c.op (u.port n).crIo.toNat (u.st n).phase.code = false := by rw [hu, htbl, hph]; exact hr
  have hus : inHostSet c.op (u.port n).crIo.toNat = false := by rw [hu]; exact hs
  have huw : u.wip n = false := by rw [← hw, ← State.csRise_wip s n]; simp [u, State.wip]
  have hj : u.judgeCmd n c false 0 = u.undecoded n := by
    unfold State.judgeCmd
    simp only [STable.findRule_none hur, Option.map_none, Option.getD_none, hus]
    rfl
  have hh : s.host n c = (u.decodeCmd n c).keepCs n c.csLow := by
    unfold State.host
    rw [if_pos (by rw [State.csRise_decodes, hdec]), if_neg (by simp [State.csRise_port, hdpd]), if_neg]
    · rfl
    · exact fun e => by rw [Bool.and_eq_true] at e; exact Bool.false_ne_true (huw.symm.trans e.1)
  rw [hh, State.decodeCmd_unaddressed hur (by simp [hus]), hj, hcs]
  simp only [u, State.undecoded, State.keepCs, State.modPort_twice]
  refine State.modPort_congr ?_
  simp [State.csRise_port, hop]

/-- CHIP ERASE is refused (R29). -/
theorem State.host_chip {s : State} {n : Fin 128} {c : HostCmd} (h : s.hears n c.op) (ha : arrayClass c.op = .chip) :
    s.host n c = (((s.heard n c.op).refuse n c c.op 0 none .span (.change true) (s.port n).wel).endWel n).keepCs n c.csLow := by
  rw [State.host_of_hears h]
  obtain ⟨-, -, -, hs, hr⟩ := h
  have hr' := State.heard_unruled hr
  rw [State.decodeCmd_unaddressed hr' fun _ => ownAddr_chip _ ha, State.judgeCmd_chip hr' (by simpa [HostPort.arrive] using hs) ha]
  simp [HostPort.arrive]

/-- A window with treatment DENY refuses (R58). -/
theorem State.judgeWindow_deny {s : State} {n : Fin 128} {op : Nat} {c : HostCmd} {a : Nat} {w : Fin 32} {cls : Nat} {rc : RefClass}
    {wel gate : Bool} {len cost : Nat} {frame : Option (List LocalCmd)} (ht : (s.st n).tbl.treat w = 0) :
    s.judgeWindow n op c a w cls rc wel len cost frame gate = s.refuse n c op a (some w) .window rc wel := by
  simp [State.judgeWindow, ht]

/-- A window without the permission of the phase refuses (R58). -/
theorem State.judgeWindow_noPerm {s : State} {n : Fin 128} {op : Nat} {c : HostCmd} {a : Nat} {w : Fin 32} {cls : Nat} {rc : RefClass}
    {wel gate : Bool} {len cost : Nat} {frame : Option (List LocalCmd)} (ht : (s.st n).tbl.treat w ≠ 0)
    (hp : (s.st n).tbl.perm w (s.st n).phase.code cls = false) :
    s.judgeWindow n op c a w cls rc wel len cost frame gate = s.refuse n c op a (some w) .permission rc wel := by
  simp [State.judgeWindow, ht, hp]

theorem arrayClass_readForms {n : Fin 128} {q : ReadArgs} {x : Nat × Instr} (hx : x ∈ readForms n q) :
    arrayClass x.1 = .read ∧ ∀ s, exec x.2 s = .next (s.host n (readCmd x.1 q)) := by
  simp only [readForms, List.mem_cons, List.not_mem_nil, or_false] at hx
  rcases hx with rfl | rfl | rfl | rfl | rfl | rfl | rfl | rfl | rfl <;> exact ⟨rfl, fun _ => rfl⟩

end Sys2Proof.Machine

namespace Sys2Proof

open Sys2Proof.Machine

/-- Settles O17. -/
theorem deniedReadAnswersOnes : Obligations.DeniedReadAnswersOnes := by
  intro s n q win reason x hx h t a hw hd
  obtain ⟨hc, he⟩ := arrayClass_readForms hx
  have key : ∃ r : Reason, r.code = reason ∧ r ≠ .pass ∧ s.host n (readCmd x.1 q) =
      ((s.taken n x.1 q.period).refuse n (readCmd x.1 q) x.1 a win r .out (s.port n).wel).keepCs n q.csLow := by
    cases win with
    | none => exact ⟨.window, hd.symm, by decide, State.host_read_uncovered (c := readCmd x.1 q) h hc hw⟩
    | some w =>
      have hm : t.treat w ≠ 5 := by omega
      have hr := State.host_read (c := readCmd x.1 q) h hc hw hm
      rcases hd with ⟨ht, hd⟩ | ⟨ht, -, hperm, hd⟩
      · exact ⟨.window, hd.symm, by decide, hr.trans (congrArg (·.keepCs n q.csLow) (State.judgeWindow_deny (by rw [State.taken_st]; exact ht)))⟩
      · exact ⟨.permission, hd.symm, by decide,
          hr.trans (congrArg (·.keepCs n q.csLow) (State.judgeWindow_noPerm (by rw [State.taken_st]; exact ht) (by rw [State.taken_st]; exact hperm)))⟩
  obtain ⟨r, rfl, hp, hh⟩ := key
  refine ⟨_, (he s).trans (congrArg _ hh), ?_⟩
  have hf := State.taken_frame s n x.1 q.period
  have ha : (s.taken n x.1 q.period).areas = s.areas := hf .areas (by decide)
  have hmb : (s.taken n x.1 q.period).mbx = s.mbx := hf .mbx (by decide)
  simp [State.refuse_out, State.keepCs, State.denied_st, hp, ha, hmb, State.reply, HostPort.arrive, HostPort.addressed, readCmd, t, a]

/-- Settles O20, clause by clause. -/
theorem refusalsSetWipThenTheirFlag : Obligations.RefusalsSetWipThenTheirFlag := by
  intro s n
  refine ⟨fun o => ?chip, fun er su h => ?wipEnd, fun h => ?done, fun o second hdec hdpd h => ?undecoded⟩
  case chip =>
    intro op h hw
    have hcls : arrayClass op = .chip := by simp only [op]; split <;> rfl
    refine ⟨_, congrArg Host.Outcome.next (State.host_chip (c := HostCmd.bare op) h hcls), ?_⟩
    have hf := State.heard_frame s n op
    have ha : (s.heard n op).areas = s.areas := hf .areas (by decide)
    have hfp : (s.heard n op).fps = s.fps := hf .fps (by decide)
    simp [hw, State.refuse_change, State.keepCs, State.endWel, State.denied_st, ha, hfp, HostPort.arrive, HostCmd.bare, Reason.code]
  case wipEnd =>
    refine congrArg Host.Outcome.next ?_
    simp only [h]
  case done => exact congrArg Host.Outcome.next (if_pos h)
  case undecoded =>
    refine congrArg Host.Outcome.next ?_
    by_cases hx : (s.port n).crIo = 3 ∧ second ≠ ~~~o
    · rw [if_pos (by simpa using hx), if_pos (by rw [State.csRise_decodes, hdec]), if_neg (by simp [State.csRise_port, hdpd])]
      simp only [State.undecoded, State.modPort_twice]
    · obtain ⟨hw, hs, hr⟩ := h.resolve_left hx
      rw [if_neg (by simpa using hx)]
      exact State.host_undecoded (c := HostCmd.bare o.toNat) hdec hdpd hw hs rfl hr

end Sys2Proof

end


section
/-! SUPPORT. Bursts (R37): what a read within one window delivers, and what its service leaves. -/

namespace Sys2Proof.Machine

open Sys2Proof

/-! ### The state after the address phase shows what the state before shows -/

section

variable (s : State) (n : Fin 128) (op period : Nat)

@[simp] theorem State.taken_now : (s.taken n op period).now = s.now := rfl
@[simp] theorem State.taken_mb : (s.taken n op period).mb n = s.mb n := rfl
@[simp] theorem State.taken_wd : (s.taken n op period).wd n = s.wd n := rfl
@[simp] theorem State.taken_ch : (s.taken n op period).ch n = s.ch n := rfl
@[simp] theorem State.taken_pl : (s.taken n op period).pl n = s.pl n := rfl
@[simp] theorem State.taken_area : (s.taken n op period).area n = s.area n := rfl
@[simp] theorem State.taken_areas : (s.taken n op period).areas = s.areas := rfl
@[simp] theorem State.taken_dirE (i : Fin 256) : (s.taken n op period).dirE i = s.dirE i := rfl
@[simp] theorem State.taken_staleLeaf (e : Impression) (k : Nat) : (s.taken n op period).staleLeaf e k = s.staleLeaf e k := rfl
@[simp] theorem State.taken_boundTo : (s.taken n op period).boundTo n = s.boundTo n := rfl
@[simp] theorem State.taken_profOf : (s.taken n op period).profOf n = s.profOf n := rfl
@[simp] theorem State.taken_fp (f : Fin 64) : (s.taken n op period).fp f = s.fp f := rfl

theorem State.taken_vfLog2? : (s.taken n op period).vfLog2? n = s.vfLog2? n := by
  simp only [State.vfLog2?, State.taken_port, State.liveLog2?_congr (State.taken_profOf s n op period) (State.taken_fp s n op period)]
  rfl

theorem State.taken_vfSize : (s.taken n op period).vfSize n = s.vfSize n := by simp only [State.vfSize, State.taken_vfLog2?]

theorem State.taken_needDummy (io : Nat) : (s.taken n op period).needDummy n io = s.needDummy n io :=
  State.needDummy_congr (by simp) (State.taken_fp s n op period) io

theorem State.taken_advDummy (io : Nat) : (s.taken n op period).advDummy n io = s.advDummy n io := by
  simp only [State.advDummy, State.taken_port, State.taken_needDummy]
  rfl

theorem State.taken_effDummy : (s.taken n op period).effDummy n = s.effDummy n := by
  simp only [State.effDummy, State.taken_port, State.taken_advDummy]
  rfl

theorem State.taken_mbxByte (off : Nat) : (s.taken n op period).mbxByte n off = s.mbxByte n off := by
  have hinfo : (s.taken n op period).chInfo n = s.chInfo n := by
    simp only [State.chInfo, State.taken_vfLog2?, State.taken_advDummy, State.taken_port, State.taken_st]
    rfl
  have hstate : (s.taken n op period).chStateWord n = s.chStateWord n := by
    simp only [State.chStateWord, State.taken_st]
    rfl
  simp only [State.mbxByte, State.mbxFields, hinfo, hstate]
  rfl

theorem State.taken_windowByte (w : Fin 32) (a : Nat) : (s.taken n op period).windowByte n w a = s.windowByte n w a := by
  simp only [State.windowByte, State.taken_mbxByte, State.taken_st]
  rfl

end

/-! ### The bytes of a burst -/

/-- No line of the impression that the channel is bound to is lost, bad or stale. -/
def State.impressionWhole (s : State) (n : Fin 128) : Prop :=
  ∀ i, s.boundTo n = some i → (s.dirE i).lost = false ∧ (s.dirE i).badLeaves = [] ∧
    ∀ k < (s.dirE i).leaves.toNat, s.staleLeaf (s.dirE i) k = false

/-- A readable window of the device's own bytes delivers the byte that it shows. -/
theorem State.burstCell_windowByte {s : State} {n : Fin 128} {w : Fin 32} {a : Nat} (hw : (s.st n).tbl.windowAt a = some w)
    (ht : (s.st n).tbl.treat w ∈ [1, 3, 4, 5]) (hp : (s.st n).tbl.perm w (s.st n).phase.code 0 = true) (hi : s.impressionWhole n) :
    s.burstCell n a false = .byte (s.windowByte n w a) := by
  simp only [List.mem_cons, List.not_mem_nil, or_false] at ht
  rcases ht with ht | ht | ht | ht <;> simp only [State.burstCell, State.windowByte, hw, hp, ht]
  case inl =>
    unfold State.impCell
    cases hb : s.boundTo n with
    | none => rfl
    | some i =>
      obtain ⟨hl, hbad, hst⟩ := hi i hb
      by_cases hoff : (s.dirE i).leaves.toNat * 4096 ≤ (s.st n).tbl.mapOff w a
      · simp [hoff]
      · have hk : (s.st n).tbl.mapOff w a / 4096 < (s.dirE i).leaves.toNat := by omega
        simp [hoff, hl, hbad, hst _ hk]
  all_goals rfl

/-- A burst that nothing stops delivers its bytes. -/
theorem State.burst_bytes {s : State} {n : Fin 128} {a0 size : Nat} {f : Nat → Byte} (len a : Nat)
    (h : ∀ i < len, s.burstCell n ((a + i) % size) false = .byte (f (a + i))) :
    s.burst n a0 size none len a = ((List.range len).map fun i => f (a + i), none) := by
  induction len generalizing a with
  | zero => rfl
  | succ len ih =>
    have h0 := h 0 (by omega)
    rw [Nat.add_zero] at h0
    have htail := ih (a + 1) fun i hi => by simpa [Nat.add_assoc, Nat.add_comm 1] using h (i + 1) (by omega)
    unfold State.burst
    simp [h0, htail, List.range_succ_eq_map, Nat.add_assoc, Nat.add_comm 1]

/-- The service of a burst that nothing stops: the reply, the front cache's lines, and the CDI closed where it is delivered. -/
theorem State.serveBurst_whole {s : State} {n : Fin 128} {c : HostCmd} {op a : Nat} {bs : List Byte}
    (h : s.burst n a (s.vfSize n) c.upset c.len a = (bs, none)) (hl : bs.length = c.len) :
    ∃ u, Frame [.fca] (s.reply n op bs) u ∧
      s.serveBurst n c op a = if s.burstCdi n a (s.vfSize n) c.len then u.closeCdi n else u := by
  unfold State.serveBurst
  simp only [h, hl]
  refine ⟨_, ?_, rfl⟩
  simp only [Nat.sub_self, ones, List.replicate_zero, List.append_nil]
  refine Frame.foldl (Frame.foldl (Frame.refl _ _) fun _ _ => ?_) fun _ _ => ?_
  · exact State.touchLine_frame (Frame.refl _ _) (by decide)
  · exact State.placeLine_frame (Frame.refl _ _) (by decide)

/-- What a read leaves that a burst serves to its end. -/
structure State.ServedRead (s t : State) (n : Fin 128) (c : HostCmd) (a : Nat) (bs : List Byte) : Prop where
  port : t.port n = { ((HostPort.arrive c.op (s.port n)).addressed c.period) with
    reply := bs, driven := if bs.isEmpty then 0 else dataLines c.op (s.port n).crIo.toNat,
    dqsDriven := !bs.isEmpty && (s.port n).crIo = 3, burstOpen := c.csLow && !bs.isEmpty }
  areas : t.areas = s.areas
  cdi : s.burstCdi n a (s.vfSize n) c.len = true → (t.mb n).cdiTaken = true ∧ (t.mb n).cdi = []

/-- A burst within one window serves the read to its end. -/
theorem State.serveBurst_served {s : State} {n : Fin 128} {c : HostCmd} {a : Nat} {w : Fin 32} (hu : c.upset = none)
    (hr : s.readsIn n c.op a c.len c.period w) :
    State.ServedRead s (((s.taken n c.op c.period).serveBurst n c c.op a).keepCs n c.csLow) n c a
      ((List.range c.len).map fun i => s.windowByte n w (a + i)) := by
  obtain ⟨hw, hsize, ht, hp, -, hi⟩ := hr
  have hcell : ∀ i < c.len, (s.taken n c.op c.period).burstCell n ((a + i) % s.vfSize n) false = .byte (s.windowByte n w (a + i)) := by
    intro i hlt
    rw [Nat.mod_eq_of_lt (by omega), ← State.taken_windowByte s n c.op c.period]
    exact State.burstCell_windowByte (by simpa using hw i (by omega)) (by simpa using ht) (by simpa using hp) hi
  have hb := State.burst_bytes (a0 := a) c.len a hcell
  have hlen : ((List.range c.len).map fun i => s.windowByte n w (a + i)).length = c.len := by simp
  generalize (List.range c.len).map (fun i => s.windowByte n w (a + i)) = bs at hb hlen ⊢
  obtain ⟨u, hf, hs⟩ := State.serveBurst_whole (c := c) (op := c.op) (a := a) (s := s.taken n c.op c.period) (n := n)
    (by rw [hu, State.taken_vfSize]; exact hb) hlen
  have hport : u.port n = ((s.taken n c.op c.period).reply n c.op bs).port n := congrArg (vget · n) (hf .ports (by decide))
  have hareas : u.areas = s.areas := hf .areas (by decide)
  have hcdi : (s.taken n c.op c.period).burstCdi n a (s.vfSize n) c.len = s.burstCdi n a (s.vfSize n) c.len := by
    simp only [State.burstCdi, State.taken_st]
  rw [State.taken_vfSize, hcdi] at hs
  rw [hs]
  have hp (v : State) (hv : v.port n = u.port n) : (v.keepCs n c.csLow).port n =
      { ((HostPort.arrive c.op (s.port n)).addressed c.period) with
        reply := bs, driven := if bs.isEmpty then 0 else dataLines c.op (s.port n).crIo.toNat,
        dqsDriven := !bs.isEmpty && (s.port n).crIo = 3, burstOpen := c.csLow && !bs.isEmpty } := by
    simp only [State.keepCs, State.modPort_port, hv, hport, State.reply, State.taken_port]
    rfl
  cases hx : s.burstCdi n a (s.vfSize n) c.len with
  | false => exact ⟨hp u rfl, hareas, fun h => absurd (hx.symm.trans h) Bool.false_ne_true⟩
  | true => exact ⟨hp (u.closeCdi n) (by simp [State.closeCdi]), hareas, fun _ => by simp [State.keepCs, State.closeCdi]⟩

/-- A read of the mailbox with time enough is a burst (R41, R42). -/
theorem State.mailboxCmd_read {s : State} {n : Fin 128} {c : HostCmd} {a : Nat} (hs : inHostSet c.op (s.port n).crIo.toNat = true)
    (ha : arrayClass c.op = .read) (hd : 508 ≤ dummyTime c.op (s.effDummy n) c.period) :
    s.mailboxCmd n c a = s.serveBurst n c c.op a := by
  unfold State.mailboxCmd
  simp only [hs, ha]
  exact if_neg (Nat.not_lt.mpr hd)

theorem tierBound_le (pinned : Bool) : tierBound pinned ≤ 508 := by cases pinned <;> decide

/-- A read in a readable window of the device's own bytes with time enough is a burst (R52). -/
theorem State.judgeWindow_read {s : State} {n : Fin 128} {c : HostCmd} {a : Nat} {w : Fin 32} {wel gate : Bool} {len cost : Nat}
    (ht : (s.st n).tbl.treat w ∈ [1, 3, 4]) (hp : (s.st n).tbl.perm w (s.st n).phase.code 0 = true)
    (hd : 508 ≤ dummyTime c.op (s.effDummy n) c.period) :
    s.judgeWindow n c.op c a w 0 .out wel len cost none gate = s.serveBurst n c c.op a := by
  have h0 : (s.st n).tbl.treat w ≠ 0 := by rintro h; simp [h] at ht
  have h2 : (s.st n).tbl.treat w ≠ 2 := by rintro h; simp [h] at ht
  have hb (pinned : Bool) : ¬ dummyTime c.op (s.effDummy n) c.period < tierBound pinned :=
    Nat.not_lt.mpr (Nat.le_trans (tierBound_le pinned) hd)
  simp [State.judgeWindow, h0, h2, hp, hb]

/-- A read within a readable window of the device's own bytes is served to its end. -/
theorem State.host_read_served {s : State} {n : Fin 128} {c : HostCmd} {w : Fin 32} (h : s.hears n c.op) (ha : arrayClass c.op = .read)
    (hu : c.upset = none) (hr : s.readsIn n c.op (s.arrayAddr n c.op c.addr) c.len c.period w) :
    State.ServedRead s (s.host n c) n c (s.arrayAddr n c.op c.addr)
      ((List.range c.len).map fun i => s.windowByte n w (s.arrayAddr n c.op c.addr + i)) := by
  have hserved := State.serveBurst_served hu hr
  obtain ⟨hw, hsize, ht, hp, hd, -⟩ := hr
  have hw0 := hw 0 (by omega)
  rw [Nat.add_zero] at hw0
  have hd' : 508 ≤ dummyTime c.op ((s.taken n c.op c.period).effDummy n) c.period := by rw [State.taken_effDummy]; exact hd
  by_cases h5 : (s.st n).tbl.treat w = 5
  · have hmb := State.mailboxCmd_read (a := s.arrayAddr n c.op c.addr) (State.taken_unruled c.period h).2 ha hd'
    rw [State.host_array h (by simp [ha]) (by simp [ha])]
    simp only [hw0, h5, if_true, hmb]
    exact hserved
  · have ht' : (s.st n).tbl.treat w ∈ [1, 3, 4] := by simpa [h5] using ht
    rw [State.host_read h ha hw0 h5, State.judgeWindow_read (by rw [State.taken_st]; exact ht') (by rw [State.taken_st]; exact hp) hd']
    exact hserved

/-- A burst that reaches the CDI of a MAILBOX window delivers it. -/
theorem State.burstCdi_of_mem {s : State} {n : Fin 128} {a len i : Nat} {w : Fin 32} (hs : a + len ≤ s.vfSize n)
    (hw : (s.st n).tbl.windowAt (a + i) = some w) (ht : (s.st n).tbl.treat w = 5) (hi : i < len)
    (hlo : (s.st n).tbl.mbxBase + 0x1000 ≤ a + i) (hhi : a + i < (s.st n).tbl.mbxBase + 0x1040) :
    s.burstCdi n a (s.vfSize n) len = true := by
  have hused : (s.st n).tbl.used w = true := by
    have := List.find?_some hw
    simp only [Bool.and_eq_true] at this
    exact this.1.1
  have hm : (s.st n).tbl.mailbox.isSome = true := List.find?_isSome.mpr ⟨w, List.mem_finRange w, by simp [hused, ht]⟩
  unfold State.burstCdi
  refine List.any_eq_true.mpr ⟨i, List.mem_range.mpr hi, ?_⟩
  simp [hm, Nat.mod_eq_of_lt (show a + i < s.vfSize n by omega), hlo, hhi]

end Sys2Proof.Machine

namespace Sys2Proof

open Sys2Proof.Machine

/-- Settles O16: a read in the mailbox goes to the mailbox, in another window to the Stencil's decision, and both serve the burst. -/
theorem readDeliversTheWindowsBytes : Obligations.ReadDeliversTheWindowsBytes := by
  intro s n q w hu x hx h hr
  obtain ⟨hc, he⟩ := arrayClass_readForms hx
  obtain ⟨hport, hareas, hcdi⟩ := State.host_read_served (c := readCmd x.1 q) h hc hu hr
  have hempty : ((List.range q.len).map fun i => s.windowByte n w (s.arrayAddr n x.1 q.addr + i)).isEmpty = decide (q.len = 0) := by
    cases q.len <;> simp [List.range_succ]
  have harm : x.1 ≠ 0x99 := by intro e; rw [e] at hc; exact ArrayClass.noConfusion hc
  refine ⟨_, he s, by rw [hport]; rfl, ?_, by rw [hport]; rfl, by rw [hport]; rfl, ?_, by rw [hport]; rfl, hareas, ?_⟩
  · rw [hport]
    simp [readCmd, hempty]
  · rw [hport]
    simp [HostPort.arrive, HostPort.addressed, readCmd, harm]
  · rintro h5 ⟨i, hi, hlo, hhi⟩
    obtain ⟨hw, hsize, -⟩ := hr
    exact hcdi (State.burstCdi_of_mem hsize (hw i (by omega)) h5 hi hlo hhi)

end Sys2Proof

end


section
/-! SUPPORT. Programs and erases of the device's own stores (R28, R29, R95, R96). -/

namespace Sys2Proof.Machine

open Sys2Proof

/-! ### The bytes of a page -/

theorem SMap.put_perm {α : Type} {m : SMap α} {a : Nat} (v : α) (h : ∀ c ∈ m, c.1 ≠ a) : (SMap.put m a v).Perm ((a, v) :: m) := by
  induction m with
  | nil => exact List.Perm.refl _
  | cons c m ih =>
    obtain ⟨k, w⟩ := c
    have hk : k ≠ a := h (k, w) List.mem_cons_self
    unfold SMap.put
    split
    · exact List.Perm.refl _
    · rw [if_neg (Ne.symm hk)]
      exact ((ih fun c hc => h c (List.mem_cons_of_mem _ hc)).cons _).trans (List.Perm.swap _ _ _)

theorem SMap.foldl_put_perm {α : Type} (l m : SMap α) (h : ((l ++ m).map (·.1)).Nodup) :
    (l.foldl (fun m x => SMap.put m x.1 x.2) m).Perm (l ++ m) := by
  induction l generalizing m with
  | nil => exact List.Perm.refl _
  | cons x l ih =>
    have hnd : (x.1 :: (l ++ m).map (·.1)).Nodup := h
    obtain ⟨hx, hlm⟩ := List.nodup_cons.mp hnd
    have hp : (SMap.put m x.1 x.2).Perm (x :: m) := SMap.put_perm x.2 fun c hc e =>
      hx (e ▸ List.mem_map.mpr ⟨c, List.mem_append_right _ hc, rfl⟩)
    have hmid : (l ++ SMap.put m x.1 x.2).Perm (x :: (l ++ m)) := (hp.append_left l).trans List.perm_middle
    exact (ih _ ((hmid.map _).nodup_iff.mpr h)).trans hmid

/-- Where byte i of a PAGE PROGRAM goes: it wraps within its page (R29). -/
def pageAddr (a i : Nat) : Nat := a / 256 * 256 + (a + i) % 256

/-- The cells of a PAGE PROGRAM of at most a page are its bytes at their addresses, each once. -/
theorem pageCells_perm {a : Nat} {data : List Byte} (h : data.length ≤ 256) :
    (pageCells a data).Perm (data.zipIdx.map fun x => (pageAddr a x.2, x.1)) ∧
      ((data.zipIdx.map fun x => (pageAddr a x.2, x.1)).map (·.1)).Nodup := by
  have hnd : ((data.zipIdx.map fun x => (pageAddr a x.2, x.1)).map (·.1)).Nodup := by
    have e : ((data.zipIdx.map fun x => (pageAddr a x.2, x.1)).map (·.1)) = (List.range data.length).map (pageAddr a) := by
      rw [List.map_map]
      refine List.ext_getElem (by simp) fun i _ _ => by simp
    rw [e]
    refine List.Nodup.map_on (fun i hi j hj hij => ?_) List.nodup_range
    simp only [List.mem_range] at hi hj
    unfold pageAddr at hij
    omega
  refine ⟨?_, hnd⟩
  have hp := SMap.foldl_put_perm (data.zipIdx.map fun x => (pageAddr a x.2, x.1)) [] (by simpa using hnd)
  rw [List.foldl_map, List.append_nil] at hp
  exact hp

/-- ANDing cells into a store, each at its own place. -/
def Memory.andCells (f : Nat → Nat) (cells : List (Nat × Byte)) (m : Memory) : Memory := cells.foldl (fun m d => m.andList (f d.1) [d.2]) m

theorem Memory.read_andList_one (m : Memory) (a o : Nat) (v : Byte) :
    (m.andList a [v]).read o = if a = o then m.read o &&& v else m.read o := by
  unfold Memory.andList Memory.andList
  rw [Memory.read_write]
  split
  · subst_vars; rfl
  · rfl

theorem Memory.read_andCells_ne {f : Nat → Nat} {cells : List (Nat × Byte)} {m : Memory} {o : Nat} (h : ∀ d ∈ cells, f d.1 ≠ o) :
    (m.andCells f cells).read o = m.read o := by
  induction cells generalizing m with
  | nil => rfl
  | cons d cells ih =>
    refine (ih fun d hd => h d (List.mem_cons_of_mem _ hd)).trans ?_
    rw [Memory.read_andList_one, if_neg (h d List.mem_cons_self)]

theorem Memory.read_andCells {f : Nat → Nat} {cells : List (Nat × Byte)} {m : Memory} (hnd : (cells.map fun d => f d.1).Nodup)
    {d : Nat × Byte} (hd : d ∈ cells) : (m.andCells f cells).read (f d.1) = m.read (f d.1) &&& d.2 := by
  induction cells generalizing m with
  | nil => cases hd
  | cons c cells ih =>
    obtain ⟨hc, hcs⟩ := List.nodup_cons.mp hnd
    have hfresh : ∀ x ∈ cells, f x.1 ≠ f c.1 := fun x hx e => hc (List.mem_map.mpr ⟨x, hx, e⟩)
    change Memory.read (Memory.andCells f cells (m.andList (f c.1) [c.2])) _ = _
    rcases List.mem_cons.mp hd with rfl | hd
    · rw [Memory.read_andCells_ne hfresh, Memory.read_andList_one, if_pos rfl]
    · rw [ih hcs hd, Memory.read_andList_one, if_neg (hfresh d hd).symm]

/-- A PAGE PROGRAM of at most a page, put into a store through a map that keeps the page's addresses apart. -/
theorem Memory.read_andPage {f : Nat → Nat} {a : Nat} {data : List Byte} {m : Memory} (h : data.length ≤ 256)
    (hf : ∀ i < data.length, ∀ j < data.length, f (pageAddr a i) = f (pageAddr a j) → pageAddr a i = pageAddr a j) :
    (∀ i, (hi : i < data.length) → (m.andCells f (pageCells a data)).read (f (pageAddr a i)) = m.read (f (pageAddr a i)) &&& data[i]) ∧
      ∀ o, (∀ i < data.length, f (pageAddr a i) ≠ o) → (m.andCells f (pageCells a data)).read o = m.read o := by
  obtain ⟨hperm, hnd⟩ := pageCells_perm (a := a) h
  have hmem : ∀ d ∈ pageCells a data, ∃ i, ∃ hi : i < data.length, d = (pageAddr a i, data[i]) := by
    intro d hd
    obtain ⟨x, hx, rfl⟩ := List.mem_map.mp (hperm.mem_iff.mp hd)
    obtain ⟨hi, he⟩ := List.mem_zipIdx' hx
    exact ⟨x.2, hi, by rw [← he]⟩
  constructor
  · intro i hi
    have hd : (pageAddr a i, data[i]) ∈ pageCells a data :=
      hperm.mem_iff.mpr (List.mem_map.mpr ⟨(data[i], i), by simp [List.mem_zipIdx_iff_getElem?], rfl⟩)
    refine Memory.read_andCells (d := (pageAddr a i, data[i])) ?_ hd
    have hn : ((pageCells a data).map (·.1)).Nodup := (hperm.map _).nodup_iff.mpr hnd
    have e : (pageCells a data).map (fun d => f d.1) = ((pageCells a data).map (·.1)).map f := by simp
    rw [e]
    refine List.Nodup.map_on (fun x hx y hy => ?_) hn
    obtain ⟨dx, hdx, rfl⟩ := List.mem_map.mp hx
    obtain ⟨dy, hdy, rfl⟩ := List.mem_map.mp hy
    obtain ⟨i, hi, rfl⟩ := hmem dx hdx
    obtain ⟨j, hj, rfl⟩ := hmem dy hdy
    exact hf i hi j hj
  · intro o ho
    refine Memory.read_andCells_ne fun d hd => ?_
    obtain ⟨i, hi, rfl⟩ := hmem d hd
    exact ho i hi

/-! ### KEEP's record of changed blocks leaves its bytes -/

@[simp] theorem Areas.markDirty_keep (now : Nat) (a : Areas) (blk : Nat) : (a.markDirty now blk).keep = a.keep := by
  unfold Areas.markDirty; split <;> rfl

@[simp] theorem Areas.markDirty_scratch (now : Nat) (a : Areas) (blk : Nat) : (a.markDirty now blk).scratch = a.scratch := by
  unfold Areas.markDirty; split <;> rfl

theorem Areas.keepErase_keep (now : Nat) (a : Areas) (addr len : Nat) : (a.keepErase now addr len).keep = a.keep.eraseRange addr len := by
  unfold Areas.keepErase
  generalize List.range _ = l
  have h (b : Areas) : (l.foldl (fun a k => a.markDirty now (addr / 4096 + k)) b).keep = b.keep := by
    induction l generalizing b with
    | nil => rfl
    | cons k l ih => exact (ih _).trans (Areas.markDirty_keep _ _ _)
  exact h _

theorem Areas.keepErase_scratch (now : Nat) (a : Areas) (addr len : Nat) : (a.keepErase now addr len).scratch = a.scratch := by
  unfold Areas.keepErase
  generalize List.range _ = l
  have h (b : Areas) : (l.foldl (fun a k => a.markDirty now (addr / 4096 + k)) b).scratch = b.scratch := by
    induction l generalizing b with
    | nil => rfl
    | cons k l ih => exact (ih _).trans (Areas.markDirty_scratch _ _ _)
  exact h _

theorem Areas.keepProgram_cells (now : Nat) (f : Nat → Nat) (cells : List (Nat × Byte)) (a : Areas) :
    (cells.foldl (fun x d => x.keepProgram now (f d.1) [d.2]) a).keep = a.keep.andCells f cells ∧
      (cells.foldl (fun x d => x.keepProgram now (f d.1) [d.2]) a).scratch = a.scratch := by
  induction cells generalizing a with
  | nil => exact ⟨rfl, rfl⟩
  | cons d cells ih =>
    obtain ⟨hk, hs⟩ := ih (a.keepProgram now (f d.1) [d.2])
    exact ⟨hk.trans (by simp [Areas.keepProgram, Memory.andCells]), hs.trans (by simp [Areas.keepProgram])⟩

/-! ### The decision on a program or an erase -/

/-- A program or erase that the Stencil permits in a KEEP or SCRATCH window is served, unless WEL was clear (R28, R52). -/
theorem State.judgeWindow_change {s : State} {n : Fin 128} {op : Nat} {c : HostCmd} {a : Nat} {w : Fin 32} {cls len cost : Nat} {rc : RefClass}
    {wel gate : Bool} (hc : cls ≠ 0) (ht : (s.st n).tbl.treat w ∈ [3, 4]) (hp : (s.st n).tbl.perm w (s.st n).phase.code cls = true)
    (htok : (s.st n).tokensFor w (cls = 2) cost = true) :
    s.judgeWindow n op c a w cls rc wel len cost none gate =
      if gate then s.serveChange n c a w (cls = 2) len cost (s.changeCmds n c op a (cls = 2)) else s := by
  have h0 : (s.st n).tbl.treat w ≠ 0 := by rintro h; simp [h] at ht
  have h2 : (s.st n).tbl.treat w ≠ 2 := by rintro h; simp [h] at ht
  simp [State.judgeWindow, h0, h2, hp, htok, hc]

/-- A program or an erase whose page or range lies in one KEEP or SCRATCH window, as the host sends it. -/
theorem State.host_change {s : State} {n : Fin 128} {c : HostCmd} {w : Fin 32} {cls len cost : Nat} (h : s.hears n c.op)
    (hk : arrayClass c.op = .program ∧ cls = 1 ∧ len = 256 ∧ cost = 1 ∨
      arrayClass c.op = .erase len ∧ cls = 2 ∧ cost = if len = 0x10000 then 16 else 1)
    (hx : s.changesIn n (s.arrayAddr n c.op c.addr) len cls cost w) :
    ∃ cs, s.host n c = ((if (s.port n).wel then
      (s.taken n c.op c.period).serveChange n c (s.arrayAddr n c.op c.addr) w (cls = 2) len cost cs else s.taken n c.op c.period).endWel n).keepCs
        n c.csLow := by
  obtain ⟨hw, hin, ht, hp, htok⟩ := hx
  obtain ⟨hr, hs⟩ := State.taken_unruled c.period h
  have h5 : (s.st n).tbl.treat w ≠ 5 := by rintro h; simp [h] at ht
  have hwel : ((s.taken n c.op c.period).port n).wel = (s.port n).wel := by rw [State.taken_port]; rfl
  have hc : cls ≠ 0 := by omega
  have hj := State.judgeWindow_change (s := s.taken n c.op c.period) (op := c.op) (c := c) (a := s.arrayAddr n c.op c.addr) (len := len)
    (rc := .change (cls = 2)) (wel := (s.port n).wel) (gate := (s.port n).wel) (w := w) (cost := cost) hc
    (by rw [State.taken_st]; exact ht) (by rw [State.taken_st]; exact hp) (by rw [State.taken_st]; exact htok)
  refine ⟨_, Eq.trans ?_ (congrArg (fun v => (v.endWel n).keepCs n c.csLow) hj)⟩
  rcases hk with ⟨ha, rfl, rfl, rfl⟩ | ⟨ha, rfl, rfl⟩
  · rw [State.host_array h (by simp [ha]) (by simp [ha]), State.judgeCmd_program hr hs ha]
    simp only [State.taken_st, hw, h5, hin, hwel, if_false]
    rfl
  · rw [State.host_array h (by simp [ha]) (by simp [ha]), State.judgeCmd_erase hr hs ha]
    simp only [State.taken_st, hw, h5, hin, hwel, if_false]
    rfl

theorem State.takeTokens_frame' (s : State) (n : Fin 128) (w : Fin 32) (erase : Bool) (cost : Nat) : Frame [.stn] s (s.takeTokens n w erase cost) :=
  State.takeTokens_frame (Frame.refl _ s) (by decide)

/-- What a served erase of KEEP or SCRATCH leaves. -/
theorem State.serveChange_erase {s : State} {n : Fin 128} {c : HostCmd} {a len cost : Nat} {w : Fin 32} {cs : List LocalCmd}
    (ht : (s.st n).tbl.treat w ∈ [3, 4]) :
    let t := s.serveChange n c a w true len cost cs
    (t.port n).op = some .own ∧
      (t.area n).bytesOf ((s.st n).tbl.treat w) =
        ((s.area n).bytesOf ((s.st n).tbl.treat w)).eraseRange ((s.st n).tbl.mapOff w (a / len * len)) len ∧
      (t.area n).bytesOf (7 - (s.st n).tbl.treat w) = (s.area n).bytesOf (7 - (s.st n).tbl.treat w) := by
  have hf := State.takeTokens_frame' s n w true cost
  have ha : (s.takeTokens n w true cost).area n = s.area n := congrArg (vget · n) (hf .areas (by decide))
  simp only [List.mem_cons, List.not_mem_nil, or_false] at ht
  rcases ht with ht | ht <;>
    simp [State.serveChange, ht, State.ownOp, ha, Areas.bytesOf, Areas.keepErase_keep, Areas.keepErase_scratch]

/-- What a served PAGE PROGRAM of KEEP or SCRATCH leaves. -/
theorem State.serveChange_program {s : State} {n : Fin 128} {c : HostCmd} {a len cost : Nat} {w : Fin 32} {cs : List LocalCmd}
    (ht : (s.st n).tbl.treat w ∈ [3, 4]) :
    let t := s.serveChange n c a w false len cost cs
    (t.port n).op = some .own ∧
      (t.area n).bytesOf ((s.st n).tbl.treat w) =
        ((s.area n).bytesOf ((s.st n).tbl.treat w)).andCells ((s.st n).tbl.mapOff w) (pageCells a c.data) ∧
      (t.area n).bytesOf (7 - (s.st n).tbl.treat w) = (s.area n).bytesOf (7 - (s.st n).tbl.treat w) := by
  have hf := State.takeTokens_frame' s n w false cost
  have ha : (s.takeTokens n w false cost).area n = s.area n := congrArg (vget · n) (hf .areas (by decide))
  have hk := Areas.keepProgram_cells (s.takeTokens n w false cost).now ((s.st n).tbl.mapOff w) (pageCells a c.data) (s.area n)
  simp only [List.mem_cons, List.not_mem_nil, or_false] at ht
  rcases ht with ht | ht <;> simp [State.serveChange, ht, State.ownOp, ha, Areas.bytesOf, hk, Memory.andCells]

/-- The offsets of a window's map keep apart the addresses from its base on. -/
theorem STable.mapOff_injective {t : STable} {w : Fin 32} {a b : Nat} (ha : t.base w * 4096 ≤ a) (hb : t.base w * 4096 ≤ b)
    (h : t.mapOff w a = t.mapOff w b) : a = b := by
  unfold STable.mapOff at h
  omega

theorem STable.base_le_of_windowOf {t : STable} {w : Fin 32} {a len : Nat} (h : t.windowOf a len = .win w) : t.base w * 4096 ≤ a := by
  unfold STable.windowOf at h
  split at h
  · rename_i v hv
    obtain rfl := Where.win.inj h
    have := List.find?_some hv
    simp only [Bool.and_eq_true, decide_eq_true_eq] at this
    exact this.1.2
  · split at h <;> exact Where.noConfusion h

/-- The end of WEL and of CS# leave the operation and the areas. -/
theorem State.endWel_keepCs (s : State) (n : Fin 128) (b : Bool) : (((s.endWel n).keepCs n b).port n).op = (s.port n).op ∧
    (((s.endWel n).keepCs n b).port n).wel = false ∧ ((s.endWel n).keepCs n b).area n = s.area n := by
  simp [State.endWel, State.keepCs]

/-- A PAGE PROGRAM with WEL that the Stencil permits: its operation runs, WEL is clear, and its cells are ANDed into the window's area. -/
theorem State.host_program {s : State} {n : Fin 128} {c : HostCmd} {w : Fin 32} (h : s.hears n c.op) (ha : arrayClass c.op = .program)
    (hw : (s.port n).wel = true) (hx : s.changesIn n (s.arrayAddr n c.op c.addr) 256 1 1 w) :
    ((s.host n c).port n).op = some .own ∧ ((s.host n c).port n).wel = false ∧
      ((s.host n c).area n).bytesOf ((s.st n).tbl.treat w) =
        ((s.area n).bytesOf ((s.st n).tbl.treat w)).andCells ((s.st n).tbl.mapOff w) (pageCells (s.arrayAddr n c.op c.addr) c.data) ∧
      ((s.host n c).area n).bytesOf (7 - (s.st n).tbl.treat w) = (s.area n).bytesOf (7 - (s.st n).tbl.treat w) := by
  obtain ⟨cs, hh⟩ := State.host_change h (.inl ⟨ha, rfl, rfl, rfl⟩) hx
  obtain ⟨-, -, ht, -⟩ := hx
  obtain ⟨hop, hbytes, hother⟩ := State.serveChange_program (s := s.taken n c.op c.period) (n := n) (len := 256) (cost := 1) (cs := cs) (c := c)
    (a := s.arrayAddr n c.op c.addr) (w := w) (by rw [State.taken_st]; exact ht)
  rw [State.taken_st, State.taken_area] at hbytes hother
  rw [hh, hw, if_pos rfl]
  obtain ⟨hp, hwel, har⟩ := State.endWel_keepCs
    ((s.taken n c.op c.period).serveChange n c (s.arrayAddr n c.op c.addr) w false 256 1 cs) n c.csLow
  exact ⟨hp.trans hop, hwel, (congrArg (Areas.bytesOf · _) har).trans hbytes, (congrArg (Areas.bytesOf · _) har).trans hother⟩

/-- An erase with WEL that the Stencil permits: its operation runs, WEL is clear, and its range of the window's area is unwritten. -/
theorem State.host_erase {s : State} {n : Fin 128} {c : HostCmd} {w : Fin 32} {len : Nat} (h : s.hears n c.op)
    (ha : arrayClass c.op = .erase len) (hw : (s.port n).wel = true)
    (hx : s.changesIn n (s.arrayAddr n c.op c.addr) len 2 (if len = 0x10000 then 16 else 1) w) :
    ((s.host n c).port n).op = some .own ∧ ((s.host n c).port n).wel = false ∧
      ((s.host n c).area n).bytesOf ((s.st n).tbl.treat w) =
        ((s.area n).bytesOf ((s.st n).tbl.treat w)).eraseRange ((s.st n).tbl.mapOff w (s.arrayAddr n c.op c.addr / len * len)) len ∧
      ((s.host n c).area n).bytesOf (7 - (s.st n).tbl.treat w) = (s.area n).bytesOf (7 - (s.st n).tbl.treat w) := by
  obtain ⟨cs, hh⟩ := State.host_change h (.inr ⟨ha, rfl, rfl⟩) hx
  obtain ⟨-, -, ht, -⟩ := hx
  obtain ⟨hop, hbytes, hother⟩ := State.serveChange_erase (s := s.taken n c.op c.period) (n := n) (len := len)
    (cost := if len = 0x10000 then 16 else 1) (cs := cs) (c := c)
    (a := s.arrayAddr n c.op c.addr) (w := w) (by rw [State.taken_st]; exact ht)
  rw [State.taken_st, State.taken_area] at hbytes hother
  rw [hh, hw, if_pos rfl]
  obtain ⟨hp, hwel, har⟩ := State.endWel_keepCs
    ((s.taken n c.op c.period).serveChange n c (s.arrayAddr n c.op c.addr) w true len (if len = 0x10000 then 16 else 1) cs) n c.csLow
  exact ⟨hp.trans hop, hwel, (congrArg (Areas.bytesOf · _) har).trans hbytes, (congrArg (Areas.bytesOf · _) har).trans hother⟩

theorem programForms_mem {n : Fin 128} {addr period : Nat} {data : List Byte} {x : Nat × Instr} (hx : x ∈ programForms n addr data period) :
    arrayClass x.1 = .program ∧ x.1 ≠ 0x99 ∧
      ∀ s, exec x.2 s = .next (s.host n { HostCmd.bare x.1 with addr := addr, data := data, period := period }) := by
  simp only [programForms, List.mem_cons, List.not_mem_nil, or_false] at hx
  rcases hx with rfl | rfl <;> exact ⟨rfl, nofun, fun _ => rfl⟩

theorem eraseForms_mem {n : Fin 128} {addr period : Nat} {x : Nat × Nat × Instr} (hx : x ∈ eraseForms n addr period) :
    arrayClass x.1 = .erase x.2.1 ∧ x.1 ≠ 0x99 ∧
      ∀ s, exec x.2.2 s = .next (s.host n { HostCmd.bare x.1 with addr := addr, period := period }) := by
  simp only [eraseForms, List.mem_cons, List.not_mem_nil, or_false] at hx
  rcases hx with rfl | rfl | rfl | rfl <;> exact ⟨rfl, nofun, fun _ => rfl⟩

/-- A command that leaves the port as its address phase did, seen on the channel. -/
theorem State.taken_endWel {s : State} {n : Fin 128} {op period : Nat} (ho : op ≠ 0x99) (hw : (s.port n).wel = false) :
    ((s.taken n op period).endWel n).keepCs n false = s.seen n fun p => p.addressed period := by
  unfold State.endWel State.keepCs State.taken State.heard
  rw [State.modPort_modStn, State.modPort_modStn, State.modPort_modStn, State.modPort_twice, State.modPort_twice, State.modPort_twice,
    State.seen_eq]
  congr 1
  refine State.modPort_congr ?_
  simp [HostPort.arrive_eq_cleared _ ho, HostPort.addressed, HostPort.cleared, hw]

end Sys2Proof.Machine

namespace Sys2Proof

open Sys2Proof.Machine

/-- Settles O19: without WEL the decision serves nothing. -/
theorem changeWithoutWriteEnableIsIgnored : Obligations.ChangeWithoutWriteEnableIsIgnored := by
  intro s n addr period data w hw seen
  refine ⟨fun x hx h hc => ?program, fun x hx h hc => ?erase⟩
  case program =>
    obtain ⟨ha, ho, he⟩ := programForms_mem hx
    obtain ⟨cs, hh⟩ := State.host_change (c := { HostCmd.bare x.1 with addr := addr, data := data, period := period }) h
      (.inl ⟨ha, rfl, rfl, rfl⟩) hc
    rw [hw, if_neg Bool.false_ne_true] at hh
    exact (he s).trans (congrArg _ (hh.trans (State.taken_endWel ho hw)))
  case erase =>
    obtain ⟨ha, ho, he⟩ := eraseForms_mem hx
    obtain ⟨cs, hh⟩ := State.host_change (c := { HostCmd.bare x.1 with addr := addr, period := period }) h (.inr ⟨ha, rfl, rfl⟩) hc
    rw [hw, if_neg Bool.false_ne_true] at hh
    exact (he s).trans (congrArg _ (hh.trans (State.taken_endWel ho hw)))

/-- Settles O18, from what the service of a program or an erase leaves. -/
theorem programAndEraseChangeExactlyTheirBytes : Obligations.ProgramAndEraseChangeExactlyTheirBytes := by
  intro s n addr period data w hw
  refine ⟨?program, ?erase⟩
  case program =>
    intro hlen x hx h a tr at_ hc
    obtain ⟨ha, -, he⟩ := programForms_mem hx
    obtain ⟨hop, hwel, hbytes, hother⟩ := State.host_program (c := { HostCmd.bare x.1 with addr := addr, data := data, period := period }) h
      ha hw hc
    have hbase := STable.base_le_of_windowOf hc.2.1
    obtain ⟨hcells, hrest⟩ := Memory.read_andPage (f := (s.st n).tbl.mapOff w) (a := a) (m := (s.area n).bytesOf tr) hlen
      fun i _ j _ => STable.mapOff_injective (Nat.le_trans hbase (Nat.le_add_right _ _)) (Nat.le_trans hbase (Nat.le_add_right _ _))
    exact ⟨_, he s, hop, hwel, fun i hi => (congrArg (Memory.read · _) hbytes).trans (hcells i hi),
      fun o ho => (congrArg (Memory.read · o) hbytes).trans (hrest o ho), hother⟩
  case erase =>
    intro x hx h a tr lo hc
    obtain ⟨ha, -, he⟩ := eraseForms_mem hx
    obtain ⟨hop, hwel, hbytes, hother⟩ := State.host_erase (c := { HostCmd.bare x.1 with addr := addr, period := period }) h ha hw hc
    exact ⟨_, he s, hop, hwel, fun o => (congrArg (Memory.read · o) hbytes).trans (Memory.read_eraseRange _ _ _ _), hother⟩

end Sys2Proof

end


section
/-! SUPPORT. Frames of ALLOW rules (R56, R57): a command outside the host set that one rule passes to a PASS window. -/

namespace Sys2Proof.Machine

open Sys2Proof

/-- A command that arrives on a decoding, idle channel is decoded in the state after its arrival. -/
theorem State.host_of_decodes {s : State} {n : Fin 128} {c : HostCmd} (hdec : s.decodes n = true) (hdpd : (s.port n).dpd = false)
    (hw : s.wip n = false) : s.host n c = ((s.heard n c.op).decodeCmd n c).keepCs n c.csLow := by
  have ho : (s.port n).op = none := by
    have h : (s.port n).op.isSome = false ∧ (s.ch n).holdWait = false := by simpa [State.wip] using hw
    simpa using h.1
  have hu : (s.csRise n).modPort n (fun p => { p with resetArmed := ((s.csRise n).port n).resetArmed && decide (c.op = 0x99) }) =
      s.heard n c.op := by
    unfold State.csRise
    rw [ho]
    simp only [Bool.and_false]
    rw [State.modPort_modStn, State.modPort_twice]
    unfold State.heard
    congr 1
    refine State.modPort_congr ?_
    simp [HostPort.arrive]
  have hwip : (s.heard n c.op).wip n = false := by rw [← hw]; simp [State.wip, State.heard, HostPort.arrive]
  unfold State.host
  rw [if_pos (by rw [State.csRise_decodes, hdec]), if_neg (by simp [State.csRise_port, hdpd]), if_neg]
  · exact congrArg (fun v => ((v.decodeCmd n c).keepCs n c.csLow)) hu
  · intro e
    rw [Bool.and_eq_true, hu] at e
    exact Bool.false_ne_true (hwip.symm.trans e.1)

/-- The one rule of a command is the rule that is found. -/
theorem find_unique {k : Nat} {p : Fin k → Bool} {r : Fin k} (h : ∀ r', p r' = true ↔ r' = r) : (List.finRange k).find? p = some r := by
  cases hf : (List.finRange k).find? p with
  | none => exact absurd ((h r).mpr rfl) (by simpa using List.find?_eq_none.mp hf r (List.mem_finRange r))
  | some r' => rw [(h r').mp (List.find?_some hf)]

/-- How a refusal of a command with the frame of a rule would appear: by the rule's class and direction (R56). -/
def STable.rRef (t : STable) (r : Fin 64) : RefClass :=
  if t.rClass r ≠ 0 then .change (t.rClass r = 2) else if t.rDir r = 2 then .out else .other

/-- One rule names the opcode: an ALLOW rule without an address, to the used PASS window w. -/
structure State.Allows (s : State) (n : Fin 128) (op : Nat) (r : Fin 64) (w : Fin 32) : Prop where
  outside : inHostSet op (s.port n).crIo.toNat = false
  rule : ∀ r', (s.st n).tbl.ruleOp r' op (s.port n).crIo.toNat (s.st n).phase.code = true ↔ r' = r
  action : (s.st n).tbl.rAction r = 1
  addr : (s.st n).tbl.rAddr r = 0
  win : (s.st n).tbl.rWin r = w.1
  used : (s.st n).tbl.used w = true
  treat : (s.st n).tbl.treat w = 2

/-- A command that one ALLOW rule without an address names is judged in the rule's PASS window (R56). -/
theorem State.decodeCmd_allowed {s : State} {n : Fin 128} {c : HostCmd} {r : Fin 64} {w : Fin 32} (h : s.Allows n c.op r w) :
    s.decodeCmd n c = s.judgeWindow n c.op c 0 w ((s.st n).tbl.rClass r) ((s.st n).tbl.rRef r) true 0x10000 1
      (some ((s.st n).tbl.frameCmds r c false 0)) true := by
  obtain ⟨hs, hr, ha, haddr, hwin, hu, ht⟩ := h
  have hop : (s.st n).tbl.rOp r = c.op := by
    have h := (hr r).mpr rfl
    unfold STable.ruleOp at h
    simp only [Bool.and_eq_true, decide_eq_true_eq] at h
    exact h.1.1.2
  have hform : (s.st n).tbl.ruleAddr r (s.port n).crIo.toNat = 0 := by simp [STable.ruleAddr, ha, hop, hs, haddr]
  have hfind : ((List.finRange 64).find? fun r' => ((s.st n).tbl.rAction r' = 1 || (s.st n).tbl.rAction r' = 3) &&
      (s.st n).tbl.ruleOp r' c.op (s.port n).crIo.toNat (s.st n).phase.code) = some r := by
    refine find_unique fun r' => ?_
    rw [Bool.and_eq_true, hr r']
    exact ⟨And.right, fun e => ⟨by simp [e, ha], e⟩⟩
  have hrule : (s.st n).tbl.findRule c.op (s.port n).crIo.toNat (s.st n).phase.code .noAddress = some r := by
    refine find_unique fun r' => ?_
    rw [STable.ruleHit, Bool.and_eq_true, hr r']
    exact ⟨And.left, fun e => ⟨e, by simp⟩⟩
  have hfin : fin? 32 ((s.st n).tbl.rWin r) = some w := by rw [hwin]; exact fin?_val _ w
  have hdec : s.decodeCmd n c = s.judgeCmd n c false 0 := by
    unfold State.decodeCmd
    simp only [hfind, hform]
    rfl
  rw [hdec]
  unfold State.judgeCmd
  simp [hrule, ha, hs, hfin, hu, ht, STable.rRef]

/-- What the Stencil permits to a PASS window: the rule's class in the phase, and a port ready for it (R58, R75). -/
theorem State.judgeWindow_passRead {s : State} {n : Fin 128} {c : HostCmd} {a : Nat} {w : Fin 32} {wel gate : Bool} {len cost : Nat}
    {cs : List LocalCmd} (ht : (s.st n).tbl.treat w = 2) (hp : (s.st n).tbl.perm w (s.st n).phase.code 0 = true)
    (hr : s.passReady n c.period = true) :
    s.judgeWindow n c.op c a w 0 .out wel len cost (some cs) gate = s.servePass n c c.op a w cs := by
  simp [State.judgeWindow, ht, hp, hr]

theorem State.judgeWindow_passChange {s : State} {n : Fin 128} {c : HostCmd} {a : Nat} {w : Fin 32} {cls len cost : Nat} {rc : RefClass}
    {wel : Bool} {cs : List LocalCmd} (hc : cls ≠ 0) (ht : (s.st n).tbl.treat w = 2)
    (hp : (s.st n).tbl.perm w (s.st n).phase.code cls = true) (hr : s.passReady n c.period = true) (hi : s.power.inhibit = false)
    (htok : (s.st n).tokensFor w (cls = 2) cost = true) :
    s.judgeWindow n c.op c a w cls rc wel len cost (some cs) true = (s.takeTokens n w (cls = 2) cost).forward n (cls = 2) len cs := by
  simp [State.judgeWindow, ht, hp, hr, hi, htok, hc, State.serveChange]

theorem STable.frameCmds_noAddress (t : STable) (r : Fin 64) (c : HostCmd) :
    t.frameCmds r c false 0 = (if t.rWren r then [LocalCmd.wren] else []) ++
      [{ op := c.op, addr := none, dummy := t.rDummy r, data := if t.rDir r = 1 then c.data.take 256 else [] }] := rfl

/-- Within the window, a PASS read is issued and answered with what the local flash drives. -/
theorem State.servePass_within {s : State} {n : Fin 128} {c : HostCmd} {op a : Nat} {w : Fin 32} {cs : List LocalCmd}
    (h : a + c.len ≤ ((s.st n).tbl.base w + (s.st n).tbl.size w) * 4096) :
    s.servePass n c op a w cs = (s.issue n cs).reply n op (slice c.localData 0 c.len) := by
  unfold State.servePass
  simp only
  rw [if_neg (by omega), Nat.min_eq_left (by omega), Nat.sub_self, ones, List.replicate_zero, List.append_nil]

theorem State.modPort_issue (s : State) (n : Fin 128) (f : HostPort → HostPort) (cs : List LocalCmd) :
    (s.issue n cs).modPort n f = (s.modPort n f).issue n cs := by
  unfold State.issue
  cases portOf n <;> rfl

theorem State.heard_passReady (s : State) (n : Fin 128) (op period : Nat) : (s.heard n op).passReady n period = s.passReady n period := by
  have ho : (s.heard n op).hostOwns n = s.hostOwns n := by
    simp only [State.hostOwns, State.heard_st]
    rfl
  simp only [State.passReady, ho, State.heard_port]
  rfl

theorem State.Allows.heard {s : State} {n : Fin 128} {op : Nat} {r : Fin 64} {w : Fin 32} (h : s.Allows n op r w) :
    (s.heard n op).Allows n op r w := by
  have hio : ((s.heard n op).port n).crIo = (s.port n).crIo := by simp [HostPort.arrive]
  obtain ⟨hs, hr, ha, haddr, hwin, hu, ht⟩ := h
  constructor <;> simp only [State.heard_st, hio] <;> assumption

section

variable {s : State} {n : Fin 128} {c : HostCmd} {r : Fin 64} {w : Fin 32} (h : s.Allows n c.op r w) (hdec : s.decodes n = true)
  (hdpd : (s.port n).dpd = false) (hw : s.wip n = false) (hready : s.passReady n c.period = true)
  (hperm : (s.st n).tbl.perm w (s.st n).phase.code ((s.st n).tbl.rClass r) = true)

include h hdec hdpd hw in
theorem State.host_allowed : s.host n c =
    ((s.heard n c.op).judgeWindow n c.op c 0 w ((s.st n).tbl.rClass r) ((s.st n).tbl.rRef r) true 0x10000 1
      (some ((s.st n).tbl.frameCmds r c false 0)) true).keepCs n c.csLow := by
  rw [State.host_of_decodes hdec hdpd hw, State.decodeCmd_allowed h.heard, State.heard_st]

include h hdec hdpd hw hready hperm in
/-- A read with the frame of an ALLOW rule: the port issues it, and the host reads what the local flash drives (R56, R57, R74). -/
theorem State.host_allowedRead (hc : (s.st n).tbl.rClass r = 0) (hd : (s.st n).tbl.rDir r = 2) (hl : c.len ≤ 4096) (ho : c.op ≠ 0x99) :
    s.host n c = (s.seen n fun p => { p.delivers c.op (slice c.localData 0 c.len) with burstOpen := c.csLow && c.len ≠ 0 }).issue n
      ((s.st n).tbl.frameCmds r c false 0) := by
  have hroom : 0 + c.len ≤ ((s.st n).tbl.base w + (s.st n).tbl.size w) * 4096 := by
    have hsize : (s.st n).tbl.size w ≠ 0 := by simpa [STable.used] using h.used
    omega
  have href : (s.st n).tbl.rRef r = .out := by simp [STable.rRef, hc, hd]
  have hempty : (slice c.localData 0 c.len).isEmpty = decide (c.len = 0) := by
    unfold slice
    cases c.len <;> simp [List.range_succ]
  rw [State.host_allowed h hdec hdpd hw, href, hc, State.judgeWindow_passRead (by rw [State.heard_st]; exact h.treat)
    (by rw [State.heard_st, ← hc]; exact hperm) (by rw [State.heard_passReady]; exact hready),
    State.servePass_within (by rw [State.heard_st]; exact hroom)]
  unfold State.reply State.keepCs
  rw [State.modPort_issue, State.modPort_issue, State.modPort_twice, State.seen_eq, State.heard, State.modPort_modStn, State.modPort_twice]
  congr 2
  refine State.modPort_congr ?_
  simp [HostPort.arrive_eq_cleared _ ho, HostPort.delivers, hempty]

include h hdec hdpd hw hready hperm in
/-- A program or erase with the frame of an ALLOW rule goes to the local flash (R57, R75). -/
theorem State.host_allowedChange {f : Fin 64} (hf : portOf n = some f) (hc : (s.st n).tbl.rClass r ≠ 0) (hi : s.power.inhibit = false)
    (htok : (s.st n).tokensFor w ((s.st n).tbl.rClass r = 2) 1 = true) :
    ((s.host n c).port n).op = some (.forwarded ((s.st n).tbl.rClass r = 2)) ∧ (s.host n c).areas = s.areas ∧ (s.host n c).mbx = s.mbx ∧
      ((s.host n c).fp f).issued = (s.st n).tbl.frameCmds r c false 0 ∧
      (((s.host n c).fp f).localOp.map fun o => (o.erase, o.host, o.start)) = some (decide ((s.st n).tbl.rClass r = 2), true, s.now) := by
  have hp : (s.heard n c.op).power = s.power := rfl
  have hfr := State.takeTokens_frame' (s.heard n c.op) n w ((s.st n).tbl.rClass r = 2) 1
  rw [State.host_allowed h hdec hdpd hw, State.judgeWindow_passChange hc (by rw [State.heard_st]; exact h.treat)
    (by rw [State.heard_st]; exact hperm) (by rw [State.heard_passReady]; exact hready) (by rw [hp]; exact hi)
    (by rw [State.heard_st]; exact htok)]
  generalize (s.heard n c.op).takeTokens n w ((s.st n).tbl.rClass r = 2) 1 = u at hfr
  have hareas : u.areas = s.areas := hfr .areas (by decide)
  have hmbx : u.mbx = s.mbx := hfr .mbx (by decide)
  have hnow : u.now = s.now := hfr .now (by decide)
  simp [State.forward, State.issue, hf, State.keepCs, hareas, hmbx, hnow]

end

end Sys2Proof.Machine

namespace Sys2Proof

open Sys2Proof.Machine

/-- Settles O21: the one ALLOW rule leads to the Stencil's decision on its PASS window, and that to the port. -/
theorem allowedFrameReachesTheLocalFlash : Obligations.AllowedFrameReachesTheLocalFlash := by
  intro s n op q data r w t sent hdec hdpd hw hs hr ha haddr hwin hused htreat hperm hready
  have h : s.Allows n op.toNat r w := ⟨hs, hr, ha, haddr, hwin, hused, htreat⟩
  refine ⟨fun hcls hdir hlen => ?read, fun hcls hinh htok => ?change⟩
  case read =>
    have ho : op.toNat ≠ 0x99 := fun e => by rw [e, inHostSet_reset] at hs; exact Bool.true_eq_false.mp hs
    have hsent : t.frameCmds r { readCmd op.toNat q with data := data } false 0 = sent [] := by
      have hin : ¬ t.rDir r = 1 := by rw [hdir]; decide
      rw [STable.frameCmds_noAddress]
      simp only [if_neg hin]
      rfl
    exact congrArg _ ((State.host_allowedRead (c := { readCmd op.toNat q with data := data }) h hdec hdpd hw hready hperm hcls hdir hlen
      ho).trans (congrArg (State.issue _ n) hsent))
  case change =>
    have hc : t.rClass r ≠ 0 := by omega
    cases hf : portOf n with
    | none =>
      have hf : s.passReady n q.period = false := by simp [State.passReady, hf]
      exact absurd (hf.symm.trans hready) Bool.false_ne_true
    | some f =>
      obtain ⟨hop, hareas, hmbx, hiss, hlocal⟩ := State.host_allowedChange (c := { readCmd op.toNat q with data := data }) h hdec hdpd hw
        hready hperm hf hc hinh htok
      refine ⟨_, rfl, hop, hareas, hmbx, fun f' hf' => ?_⟩
      obtain rfl := Option.some.inj hf'
      exact ⟨hiss, hlocal⟩

end Sys2Proof

end


section
/-! SETTLED: host messages (O28), phase requests (O30), token buckets (O31). -/

namespace Sys2Proof.Machine

open Sys2Proof

/-! ### The message boxes (R48) -/

@[simp] theorem State.mbxTaken_mb (s : State) (n : Fin 128) : (s.mbxTaken n).mb n = s.mb n := rfl

@[simp] theorem State.mbxTaken_dev (s : State) (n : Fin 128) : (s.mbxTaken n).dev = s.dev := rfl

@[simp] theorem State.mbxTaken_now (s : State) (n : Fin 128) : (s.mbxTaken n).now = s.now := rfl

theorem State.fieldProgram_hostMessage {s : State} {n : Fin 128} (v : Word) (ha : s.dev.ccAbsent = false) :
    s.fieldProgram n 0x8004 v.toNat =
      if v = (s.mb n).h2mSeq + 1 ∧ (s.mb n).h2mAck = (s.mb n).h2mSeq then
        (s.modMbx n fun b => { b with h2mSeq := v, posted := some { seq := v, time := s.now, bytes := b.h2mBytes } }).raise
          0x0104 n.1 [v.toNat, (s.mb n).h2mLen.toNat]
      else s.mbxIgnored n := by
  have hw : s.fieldWrite n 0x8004 v.toNat = s.postMessageAt n s.now v (s.mb n).h2mBytes := by
    simp [State.fieldWrite, ha]
  have hlen : (s.mb n).h2mBytes.length = (s.mb n).h2mLen.toNat := by simp [Mailbox.h2mBytes]
  have hlatched : ((s.fieldWrite n 0x8004 v.toNat).1.mb n).latched = (s.mb n).latched := by
    rw [hw]
    unfold State.postMessageAt
    dsimp only
    split <;> simp
  rw [State.fieldProgram_unlatched hlatched, hw]
  unfold State.postMessageAt
  dsimp only
  split
  · rw [hlen]
    rfl
  · rfl

theorem State.fieldProgram_m2hAck (s : State) (n : Fin 128) (v : Word) :
    s.fieldProgram n 0x8008 v.toNat = s.modMbx n fun b => { b with m2hAck := v } := by
  have hw : s.fieldWrite n 0x8008 v.toNat = (s.modMbx n fun b => { b with m2hAck := v }, false) := by simp [State.fieldWrite]
  rw [State.fieldProgram_unlatched (by rw [hw]; simp), hw]
  rfl

end Sys2Proof.Machine

namespace Sys2Proof

open Sys2Proof.Machine

/-- Settles O28: the writes of SEQ and M2H_ACK come to the writes of their fields. -/
theorem hostMessagesArePostedInSequence : Obligations.HostMessagesArePostedInSequence := by
  intro s n v b
  refine ⟨fun h ha => ?post, fun h => ?ack⟩
  case post =>
    have hp := State.fieldProgram_hostMessage (s := s.mbxTaken n) (n := n) v ha
    refine congrArg Host.Outcome.next ((State.mbxPage_word v h (by omega)).trans ((congrArg (State.keepCs · n false) hp).trans ?_))
    change State.keepCs (ite (v = b.h2mSeq + 1 ∧ b.h2mAck = b.h2mSeq) _ _) n false = _
    split <;> exact State.keepCs_high (by simp)
  case ack =>
    have hp := State.fieldProgram_m2hAck (s.mbxTaken n) n v
    refine congrArg Host.Outcome.next ((State.mbxPage_word v h (by omega)).trans ((congrArg (State.keepCs · n false) hp).trans ?_))
    exact State.keepCs_high (by simp)

end Sys2Proof

namespace Sys2Proof.Machine

open Sys2Proof

/-! ### Phase requests (R53, R65) -/

/-- A write that reaches its register has its effect. -/
theorem State.regW_reaches {s : State} {m : Mgr} {off : Nat} {body : State → State} (h : s.reaches m off) : s.regW m off body = body s := by
  obtain ⟨ho, hm⟩ := h
  simp [State.regW, ho, hm]

theorem Mgr.other_ne (m : Mgr) : m.other ≠ m := by cases m <;> nofun

@[simp] theorem State.reqResult_phase (s : State) (m : Mgr) (n : Fin 128) (r : BitVec 2) : ((s.reqResult m n r).st n).phase = (s.st n).phase := by
  simp [State.reqResult]

@[simp] theorem State.reqResult_same (s : State) (m : Mgr) (n : Fin 128) (r : BitVec 2) : ((s.reqResult m n r).st n).reqResult.get m = r := by
  simp [State.reqResult]

theorem State.reqResult_other (s : State) (m : Mgr) (n : Fin 128) (r : BitVec 2) :
    ((s.reqResult m.other n r).st n).reqResult.get m = (s.st n).reqResult.get m := by
  simp [State.reqResult, PerMgr.get_set_ne _ _ (Mgr.other_ne m).symm]

/-- EXIT_RECOVERY: the phase afterwards, and the manager's result. -/
theorem State.exitPhase_result (s : State) (m : Mgr) (n : Fin 128) :
    ((s.exitPhase m n).st n).phase = (if (s.st n).phase = .recovery then Phase.run else (s.st n).phase) ∧
      ((s.exitPhase m n).st n).reqResult.get m = (if (s.st n).phase = .recovery then 1 else 2) := by
  unfold State.exitPhase
  split <;> simp [State.setPhase_phase]

end Sys2Proof.Machine

namespace Sys2Proof

open Sys2Proof.Machine

/-- Settles O30: EXIT wins a shared slot, ENTER asks for RUN, the policy and a primary. -/
theorem recoveryPhaseRequestsAreJudged : Obligations.RecoveryPhaseRequestsAreJudged := by
  intro s m n h ph may
  have hw (body : State → State) : s.regW m (chanPage n 1 + 0x048) body = body s := State.regW_reaches h
  refine ⟨⟨_, congrArg Host.Outcome.next (hw _), fun hmay => ?entered, fun hmay => ?refused⟩,
    ⟨_, congrArg Host.Outcome.next (hw _), s.exitPhase_result m n⟩, ⟨_, congrArg Host.Outcome.next (hw _), ?enterRival⟩,
    ⟨_, congrArg Host.Outcome.next (hw _), ?exitRival⟩⟩
  case entered =>
    obtain ⟨hp, hpol, hsec⟩ := hmay
    have he : s.enterPhase m n = (s.setPhase n .recovery).reqResult m n 1 := if_pos (by simp [hpol, hsec, show (s.st n).phase = .run from hp])
    simp [he, State.setPhase_phase]
  case refused =>
    have he : s.enterPhase m n = s.reqResult m n 2 := if_neg (by simpa [may, ph] using hmay)
    simp [he, ph]
  case enterRival =>
    obtain ⟨hphase, -⟩ := s.exitPhase_result m.other n
    simp [hphase, ph]
  case exitRival =>
    obtain ⟨hphase, hres⟩ := s.exitPhase_result m n
    simp [hphase, hres, ph, State.reqResult_other]

/-- Settles O31: the refill is due at the end of the interval of a running, unfilled bucket. -/
theorem bucketGainsOneToken : Obligations.BucketGainsOneToken := by
  intro s n w erase img b
  have hexec : exec (.bucketRefill n w erase) s = .next (match b.due img with
      | some d => (s.until d).modStn n fun t =>
        if erase then { t with eTok := vmod t.eTok w (Bucket.refill img d) } else { t with pTok := vmod t.pTok w (Bucket.refill img d) }
      | none => s) := by
    cases erase <;> rfl
  refine ⟨fun since hs hon hlt => ?gains, fun h => ?stays⟩
  case gains =>
    have hdue : b.due img = some (since + bktNs img) := by simp [Bucket.due, hs, hon, hlt]
    rw [hdue] at hexec
    refine ⟨_, hexec, rfl, ?_⟩
    have hinc : (b.tokens + 1).toNat = b.tokens.toNat + 1 := by
      have hdepth : bktDepth img < 2 ^ 16 := Nat.mod_lt _ (by decide)
      rw [BitVec.toNat_add]
      exact Nat.mod_eq_of_lt (by rw [show (1 : Half).toNat = 1 from rfl]; omega)
    cases erase with
    | false =>
      refine ⟨?_, ?_, fun v hv => ?_, fun v => ?_, ?_, ?_⟩ <;> simp [Stencil.bucket, vget_vmod_ne, *]
      · exact hinc
      · rfl
    | true =>
      refine ⟨?_, ?_, fun v hv => ?_, fun v => ?_, ?_, ?_⟩ <;> simp [Stencil.bucket, vget_vmod_ne, *]
      · exact hinc
      · rfl
  case stays =>
    have hdue : b.due img = none := by
      unfold Bucket.due
      split
      · rename_i t ht
        rw [if_neg]
        rintro ⟨hon, hlt⟩
        rcases h with h | h | h
        · exact absurd (ht.symm.trans h) (by simp)
        · exact Bool.false_ne_true (h.symm.trans hon)
        · omega
      · rfl
    rw [hexec, hdue]

end Sys2Proof

end


section
/-! SUPPORT. Platform control (chapter "Platform control"): what the shared operations leave of a channel's control state. -/

namespace Sys2Proof.Machine

open Sys2Proof

/-! ## More operations that leave a part of the state, for any relation that looks at another part -/

section

variable {k : Field} {R : State → State → Prop} (hR : Respects k R) {s₀ s : State}

include hR

theorem State.takeAndWait_keeps {man : List Byte} (hf : k ∉ [.imm, .fca, .trace]) (h : R s₀ s) : R s₀ ((s.takeAndWait man).2) :=
  hR.step h (State.takeAndWait_frame (Frame.refl _ _) (Field.sub_refl _)) hf

theorem State.freeEntry_keeps {i : Fin 256} {why : Nat} (hf : k ∉ [.imm, .fca, .trace]) (h : R s₀ s) : R s₀ (State.freeEntry s i why) :=
  hR.step h (State.freeEntry_frame (Frame.refl _ _) (Field.sub_refl _)) hf

theorem State.mctpReply_keeps {e : Fin 8} {r : OvdelReply} (hf : k ∉ [.spdm]) (h : R s₀ s) : R s₀ (State.mctpReply s e r) :=
  hR.step h (State.mctpReply_frame (Frame.refl _ _) (Field.sub_refl _)) hf

theorem State.modMbx_keeps {n : Fin 128} {f : Mailbox → Mailbox} (hf : k ∉ [.mbx]) (h : R s₀ s) : R s₀ (State.modMbx s n f) :=
  hR.step h (State.modMbx_frame (Frame.refl _ _) (Field.sub_refl _)) hf

theorem State.modWdg_keeps {n : Fin 128} {f : Wdg → Wdg} (hf : k ∉ [.wdg]) (h : R s₀ s) : R s₀ (State.modWdg s n f) :=
  hR.step h (State.modWdg_frame (Frame.refl _ _) (Field.sub_refl _)) hf

theorem State.commitPlates_keeps {n : Fin 128} {t2 : PTable} {cause : Nat} (hf : k ∉ [.plt, .trace, .rings, .led]) (h : R s₀ s) :
    R s₀ (State.commitPlates s n t2 cause) :=
  hR.step h (State.commitPlates_frame (Frame.refl _ _) (Field.sub_refl _)) hf

theorem State.beginAttempt_keeps {n : Fin 128} (hf : k ∉ [.plt, .drbg, .drawn]) (h : R s₀ s) : R s₀ (State.beginAttempt s n) :=
  hR.step h (State.beginAttempt_frame (Frame.refl _ _) (Field.sub_refl _)) hf

theorem State.selNote_keeps {n : Fin 128} {w : SelWait} {p : PlateId} {r : Chk} {loud : Bool} (hf : k ∉ [.trace, .rings]) (h : R s₀ s) :
    R s₀ ((State.selNote s n w p r loud).1) :=
  hR.step h (State.selNote_frame (Frame.refl _ _) (Field.sub_refl _)) hf

theorem State.completeAdvances_keeps (hf : k ∉ [.mins, .trace, .led]) (h : R s₀ s) : R s₀ (State.completeAdvances s) :=
  hR.step h (State.completeAdvances_frame (Frame.refl _ _) (Field.sub_refl _)) hf

theorem State.wdgStop_keeps {n : Fin 128} (hf : k ∉ [.wdg]) (h : R s₀ s) : R s₀ (State.wdgStop s n) :=
  hR.step h (State.wdgStop_frame (Frame.refl _ _) (Field.sub_refl _)) hf

theorem State.modStn_keeps {n : Fin 128} {f : Stencil → Stencil} (hf : k ∉ [.stn]) (h : R s₀ s) : R s₀ (State.modStn s n f) :=
  hR.step h (State.modStn_frame (Frame.refl _ _) (Field.sub_refl _)) hf

theorem State.modPort_keeps {n : Fin 128} {f : HostPort → HostPort} (hf : k ∉ [.ports]) (h : R s₀ s) : R s₀ (State.modPort s n f) :=
  hR.step h (State.modPort_frame (Frame.refl _ _) (Field.sub_refl _)) hf

end

/-! ## Completions change nothing of a channel's control state but the result shown to its managers -/

/-- From s to t the control state of each channel is as before, but for CHn_CTL_ORDRES. -/
def OrdersAnswered (s t : State) : Prop := ∀ n, ∃ r, t.ch n = { s.ch n with ordRes := r }

theorem OrdersAnswered.refl (s : State) : OrdersAnswered s s := fun _ => ⟨_, rfl⟩

theorem OrdersAnswered.comp {s t u : State} (h : OrdersAnswered s t) (h' : OrdersAnswered t u) : OrdersAnswered s u := fun n => by
  obtain ⟨r, hr⟩ := h n
  obtain ⟨r', hr'⟩ := h' n
  exact ⟨r', by rw [hr', hr]⟩

theorem OrdersAnswered.of_frame {fs : List Field} {s t : State} (h : Frame fs s t) (hf : Field.ctl ∉ fs) : OrdersAnswered s t :=
  fun n => ⟨_, congrArg (vget · n) (h .ctl hf)⟩

theorem OrdersAnswered.respects : Respects .ctl OrdersAnswered := ⟨OrdersAnswered.refl, OrdersAnswered.comp, OrdersAnswered.of_frame⟩

/-- What a property of control states that does not look at ORDRES says is kept. -/
theorem OrdersAnswered.eq {α : Type} {s t : State} (h : OrdersAnswered s t) (n : Fin 128) (f : Ctl → α)
    (hf : ∀ c r, f { c with ordRes := r } = f c) : f (t.ch n) = f (s.ch n) := by
  obtain ⟨r, hr⟩ := h n
  rw [hr, hf]

theorem State.answer_orders {s : State} {who : Asker} {n : Fin 128} {st : Status} {info : Nat} {result : List Byte} :
    OrdersAnswered s (s.answer who n st info result) := by
  unfold State.answer
  split
  · exact State.finish_keeps OrdersAnswered.respects (by decide) (OrdersAnswered.refl _)
  · exact State.mctpReply_keeps OrdersAnswered.respects (by decide) (OrdersAnswered.refl _)
  · intro k
    by_cases hk : k = n
    · subst hk; exact ⟨_, State.modCtl_ch _ _ _⟩
    · exact ⟨_, State.modCtl_ch_ne _ _ _ hk⟩

theorem State.answerAll_orders {s : State} {n : Fin 128} {k : AwaitKind → Bool} {st : Status} {info : Nat} {result : List Byte} :
    OrdersAnswered s (s.answerAll n k st info result) := by
  unfold State.answerAll
  refine State.forAll_keeps OrdersAnswered.respects ?_ fun _ _ => State.answer_orders
  exact OrdersAnswered.of_frame (Frame.put_awaits (fs := [.awaits]) (Frame.refl _ s) (by decide)) (by decide)

/-! ## Transitions -/

/-- What a transition leaves of the channel's control state. -/
@[simp] theorem State.transition_ch (s : State) (n : Fin 128) (st : ChState) (cause : Cause) :
    (s.transition n st cause).ch n =
      { s.ch n with state := st, cause := cause, kind := if st = .held then (s.ch n).kind else .none } := by
  unfold State.transition
  dsimp only
  split <;> simp

/-! ## The wires of a channel -/

/-- The wires of a channel: HOLD# and the times of its last edges, CHn_PGOOD and PG_OK. -/
abbrev Ctl.wires (c : Ctl) : Bool × Nat × Nat × Bool × Nat × Bool := (c.sink, c.holdT, c.relT, c.pgood, c.pgRise, c.pgOk)

/-- From s to t the wires of every channel are as before. -/
def WiresKept (s t : State) : Prop := ∀ n, (t.ch n).wires = (s.ch n).wires

theorem WiresKept.refl (s : State) : WiresKept s s := fun _ => rfl

theorem WiresKept.comp {s t u : State} (h : WiresKept s t) (h' : WiresKept t u) : WiresKept s u := fun n => (h' n).trans (h n)

theorem WiresKept.of_frame {fs : List Field} {s t : State} (h : Frame fs s t) (hf : Field.ctl ∉ fs) : WiresKept s t :=
  fun n => congrArg (fun v => (vget v n).wires) (h .ctl hf)

theorem WiresKept.respects : Respects .ctl WiresKept := ⟨WiresKept.refl, WiresKept.comp, WiresKept.of_frame⟩

theorem State.modCtl_wires {s₀ s : State} {n : Fin 128} {f : Ctl → Ctl} (h : WiresKept s₀ s) (hf : ∀ c, (f c).wires = c.wires) :
    WiresKept s₀ (s.modCtl n f) := by
  refine h.comp fun k => ?_
  by_cases hk : k = n
  · subst hk; rw [State.modCtl_ch, hf]
  · rw [State.modCtl_ch_ne _ _ _ hk]

theorem State.answerAll_wires {s₀ s : State} {n : Fin 128} {k : AwaitKind → Bool} {st : Status} {info : Nat} {result : List Byte}
    (h : WiresKept s₀ s) : WiresKept s₀ (s.answerAll n k st info result) :=
  h.comp fun m => State.answerAll_orders.eq m Ctl.wires fun _ _ => rfl

theorem State.transition_wires {s₀ s : State} {n : Fin 128} {st : ChState} {cause : Cause} (h : WiresKept s₀ s) :
    WiresKept s₀ (s.transition n st cause) := by
  refine h.comp fun k => ?_
  by_cases hk : k = n
  · subst hk; rw [State.transition_ch]
  · rw [State.transition_ch_ne hk]

theorem State.checkPair_wires {s₀ : State} {s : State} {n : Fin 128} {man : List Byte} (h : WiresKept s₀ s) :
    WiresKept s₀ (State.checkPair s n man).2 := by
  refine h.comp ?_
  clear h
  unfold State.checkPair
  dsimp -failIfUnchanged -proj only
  repeat' (with_reducible first
    | assumption
    | apply WiresKept.refl
    | apply State.takeAndWait_keeps WiresKept.respects (by decide)
    | (apply State.modCtl_wires; rotate_left; (intro c; rfl))
    | apply State.freeEntry_keeps WiresKept.respects (by decide)
    | intro _
    | split)

theorem State.checkLeaves_wires {s₀ : State} {s : State} {n : Fin 128} {p : PlateId} (h : WiresKept s₀ s) :
    WiresKept s₀ (State.checkLeaves s n p).2 := by
  refine h.comp ?_
  clear h
  unfold State.checkLeaves
  dsimp -failIfUnchanged -proj only
  repeat' (with_reducible first
    | assumption
    | apply WiresKept.refl
    | apply State.checkPair_wires
    | intro _
    | split)

theorem State.checkPlate_wires {s₀ : State} {s : State} {n : Fin 128} {p : PlateId} (h : WiresKept s₀ s) :
    WiresKept s₀ (State.checkPlate s n p).2 := by
  refine h.comp ?_
  clear h
  unfold State.checkPlate
  dsimp -failIfUnchanged -proj only
  repeat' (with_reducible first
    | assumption
    | apply WiresKept.refl
    | apply State.checkLeaves_wires
    | intro _
    | split)

theorem State.unbind_wires {s₀ : State} {s : State} {n : Fin 128} (h : WiresKept s₀ s) : WiresKept s₀ (State.unbind s n) := by
  refine h.comp ?_
  clear h
  unfold State.unbind
  dsimp -failIfUnchanged -proj only
  repeat' (with_reducible first
    | assumption
    | apply WiresKept.refl
    | (apply State.modCtl_wires; rotate_left; (intro c; rfl))
    | apply State.modDir_keeps WiresKept.respects (by decide)
    | intro _
    | split)

theorem State.enterRecoveryState_wires {s₀ : State} {s : State} {n : Fin 128} (h : WiresKept s₀ s) :
    WiresKept s₀ (State.enterRecoveryState s n) := by
  refine h.comp ?_
  clear h
  unfold State.enterRecoveryState
  dsimp -failIfUnchanged -proj only
  repeat' (with_reducible first
    | assumption
    | apply WiresKept.refl
    | apply State.modMbx_keeps WiresKept.respects (by decide)
    | apply State.unbind_wires
    | apply State.transition_wires
    | apply State.raise_keeps WiresKept.respects (by decide)
    | apply State.modWdg_keeps WiresKept.respects (by decide)
    | apply State.answerAll_wires
    | (apply State.modCtl_wires; rotate_left; (intro c; rfl))
    | intro _
    | split)

theorem State.bind_wires {s₀ : State} {s : State} {n : Fin 128} {i : Fin 256} {p : PlateId} (h : WiresKept s₀ s) :
    WiresKept s₀ (State.bind s n i p) := by
  refine h.comp ?_
  clear h
  unfold State.bind
  dsimp -failIfUnchanged -proj only
  repeat' (with_reducible first
    | assumption
    | apply WiresKept.refl
    | apply State.unbind_wires
    | (apply State.modCtl_wires; rotate_left; (intro c; rfl))
    | intro _
    | split)

theorem State.selEnd_wires {s₀ : State} {s : State} {n : Fin 128} {w : SelWait} {t3 : PTable} {tie : Bool} {run : Option (PlateId × Fin 256)} {attempt : Bool} (h : WiresKept s₀ s) :
    WiresKept s₀ (State.selEnd s n w t3 tie run attempt) := by
  refine h.comp ?_
  clear h
  unfold State.selEnd
  dsimp -failIfUnchanged -proj only
  repeat' (with_reducible first
    | assumption
    | apply WiresKept.refl
    | apply State.enterRecoveryState_wires
    | apply State.bind_wires
    | apply State.answerAll_wires
    | apply State.commitPlates_keeps WiresKept.respects (by decide)
    | apply State.beginAttempt_keeps WiresKept.respects (by decide)
    | apply State.unbind_wires
    | (apply State.modCtl_wires; rotate_left; (intro c; rfl))
    | apply State.raise_keeps WiresKept.respects (by decide)
    | intro _
    | split)

theorem State.selectFrom_wires {s₀ : State} {n : Fin 128} {x : Nat} {x2 : SelWait} {x3 : State} (h : WiresKept s₀ x3) :
    WiresKept s₀ (State.selectFrom n x x2 x3) := by
  refine h.comp ?_
  clear h
  have key : ∀ (s₀ : State) (x2 : SelWait) (x3 : State), WiresKept s₀ x3 → WiresKept s₀ (State.selectFrom n x x2 x3) := by
    induction x with
    | zero => intro s₀ x2 x3 h; unfold State.selectFrom; exact h
    | succ k ih =>
      intro s₀ x2 x3 h; unfold State.selectFrom
      dsimp -failIfUnchanged -proj only
      repeat' (with_reducible first
        | assumption
        | apply ih
        | apply WiresKept.refl
        | apply State.selNote_keeps WiresKept.respects (by decide)
        | apply State.checkPlate_wires
        | (apply State.modCtl_wires; rotate_left; (intro c; rfl))
        | apply State.selEnd_wires
        | intro _
        | split)
  exact key _ x2 x3 (WiresKept.refl _)

theorem State.select_wires {s₀ : State} {s : State} {n : Fin 128} (h : WiresKept s₀ s) : WiresKept s₀ (State.select s n) := by
  refine h.comp ?_
  clear h
  unfold State.select
  dsimp -failIfUnchanged -proj only
  repeat' (with_reducible first
    | assumption
    | apply WiresKept.refl
    | apply State.completeAdvances_keeps WiresKept.respects (by decide)
    | apply State.selectFrom_wires
    | (apply State.modCtl_wires; rotate_left; (intro c; rfl))
    | intro _
    | split)

theorem State.stayHeld_wires {s₀ : State} {s : State} {n : Fin 128} (h : WiresKept s₀ s) : WiresKept s₀ (State.stayHeld s n) := by
  refine h.comp ?_
  clear h
  unfold State.stayHeld
  dsimp -failIfUnchanged -proj only
  repeat' (with_reducible first
    | assumption
    | apply WiresKept.refl
    | apply State.answerAll_wires
    | intro _
    | split)

theorem State.startTaking_wires {s₀ : State} {s : State} {n : Fin 128} {cause : Cause} {asked : Bool} (h : WiresKept s₀ s) :
    WiresKept s₀ (State.startTaking s n cause asked) := by
  refine h.comp ?_
  clear h
  unfold State.startTaking
  dsimp -failIfUnchanged -proj only
  repeat' (with_reducible first
    | assumption
    | apply WiresKept.refl
    | apply State.select_wires
    | apply State.unbind_wires
    | apply State.transition_wires
    | apply State.stayHeld_wires
    | (apply State.modCtl_wires; rotate_left; (intro c; rfl))
    | intro _
    | split)

theorem State.takeKept_wires {s₀ : State} {s : State} {n : Fin 128} {cause : Cause} (h : WiresKept s₀ s) :
    WiresKept s₀ (State.takeKept s n cause) := by
  refine h.comp ?_
  clear h
  unfold State.takeKept
  dsimp -failIfUnchanged -proj only
  repeat' (with_reducible first
    | assumption
    | apply WiresKept.refl
    | apply State.startTaking_wires
    | apply State.transition_wires
    | (apply State.modCtl_wires; rotate_left; (intro c; rfl))
    | intro _
    | split)

theorem State.resumeHeld_wires {s₀ : State} {s : State} {n : Fin 128} (h : WiresKept s₀ s) : WiresKept s₀ (State.resumeHeld s n) := by
  refine h.comp ?_
  clear h
  unfold State.resumeHeld
  dsimp -failIfUnchanged -proj only
  repeat' (with_reducible first
    | assumption
    | apply WiresKept.refl
    | apply State.startTaking_wires
    | apply State.takeKept_wires
    | intro _
    | split)

theorem State.stopHost_wires {s₀ : State} {s : State} {n : Fin 128} (h : WiresKept s₀ s) : WiresKept s₀ (State.stopHost s n) := by
  refine h.comp ?_
  clear h
  unfold State.stopHost
  dsimp -failIfUnchanged -proj only
  repeat' (with_reducible first
    | assumption
    | apply WiresKept.refl
    | apply State.wdgStop_keeps WiresKept.respects (by decide)
    | apply State.modStn_keeps WiresKept.respects (by decide)
    | apply State.modPort_keeps WiresKept.respects (by decide)
    | (apply State.modCtl_wires; rotate_left; (intro c; rfl))
    | intro _
    | split
    | (refine WiresKept.comp ?_ (WiresKept.of_frame (Frame.put_plat (fs := [.plat]) (Frame.refl _ _) (by decide)) (by decide))))

theorem State.hold_wires {s₀ : State} {s : State} {n : Fin 128} {kind : HoldKind} {cause : Cause} {seq : Option SeqKind} (h : WiresKept s₀ s) :
    WiresKept s₀ (State.hold s n kind cause seq) := by
  refine h.comp ?_
  clear h
  unfold State.hold
  dsimp -failIfUnchanged -proj only
  repeat' (with_reducible first
    | assumption
    | apply WiresKept.refl
    | apply State.stopHost_wires
    | apply State.answerAll_wires
    | apply State.transition_wires
    | (apply State.modCtl_wires; rotate_left; (intro c; rfl))
    | intro _
    | split)

theorem State.powerStep3_wires {s₀ : State} {s : State} {n : Fin 128} (h : WiresKept s₀ s) : WiresKept s₀ (State.powerStep3 s n) := by
  refine h.comp ?_
  clear h
  unfold State.powerStep3
  dsimp -failIfUnchanged -proj only
  repeat' (with_reducible first
    | assumption
    | apply WiresKept.refl
    | apply State.startTaking_wires
    | (apply State.modCtl_wires; rotate_left; (intro c; rfl))
    | intro _
    | split)

theorem State.requestRelease_wires {s₀ : State} {s : State} {n : Fin 128} (h : WiresKept s₀ s) : WiresKept s₀ (State.requestRelease s n) := by
  refine h.comp ?_
  clear h
  unfold State.requestRelease
  dsimp -failIfUnchanged -proj only
  repeat' (with_reducible first
    | assumption
    | apply WiresKept.refl
    | (apply State.modCtl_wires; rotate_left; (intro c; rfl))
    | intro _
    | split
    | (refine WiresKept.comp ?_ (WiresKept.of_frame (Frame.put_plat (fs := [.plat]) (Frame.refl _ _) (by decide)) (by decide))))

/-! ## Selection moves a channel from TAKING to RECOVERY, or not at all -/

/-- From s to t every channel keeps its state, but for one in TAKING that may come to RECOVERY. -/
def SelKept (s t : State) : Prop :=
  ∀ n, (t.ch n).state = (s.ch n).state ∨ (s.ch n).state = .taking ∧ (t.ch n).state = .recovery

theorem SelKept.refl (s : State) : SelKept s s := fun _ => .inl rfl

theorem SelKept.comp {s t u : State} (h : SelKept s t) (h' : SelKept t u) : SelKept s u := by
  intro n
  rcases h n with e | ⟨e, e'⟩ <;> rcases h' n with f | ⟨f, f'⟩
  · exact .inl (f.trans e)
  · exact .inr ⟨e.symm.trans f, f'⟩
  · exact .inr ⟨e, f.trans e'⟩
  · exact .inr ⟨e, f'⟩

theorem SelKept.of_frame {fs : List Field} {s t : State} (h : Frame fs s t) (hf : Field.ctl ∉ fs) : SelKept s t :=
  fun n => .inl (congrArg (fun v => (vget v n).state) (h .ctl hf))

theorem SelKept.respects : Respects .ctl SelKept := ⟨SelKept.refl, SelKept.comp, SelKept.of_frame⟩

theorem State.modCtl_sel {s₀ s : State} {n : Fin 128} {f : Ctl → Ctl} (h : SelKept s₀ s) (hf : ∀ c, (f c).state = c.state) :
    SelKept s₀ (s.modCtl n f) := by
  refine h.comp fun k => .inl ?_
  by_cases hk : k = n
  · subst hk; rw [State.modCtl_ch, hf]
  · rw [State.modCtl_ch_ne _ _ _ hk]

theorem State.answerAll_sel {s₀ s : State} {n : Fin 128} {k : AwaitKind → Bool} {st : Status} {info : Nat} {result : List Byte}
    (h : SelKept s₀ s) : SelKept s₀ (s.answerAll n k st info result) :=
  h.comp fun m => .inl (State.answerAll_orders.eq m Ctl.state fun _ _ => rfl)

theorem State.checkPair_sel {s₀ : State} {s : State} {n : Fin 128} {man : List Byte} (h : SelKept s₀ s) :
    SelKept s₀ (State.checkPair s n man).2 := by
  refine h.comp ?_
  clear h
  unfold State.checkPair
  dsimp -failIfUnchanged -proj only
  repeat' (with_reducible first
    | assumption
    | apply SelKept.refl
    | apply State.takeAndWait_keeps SelKept.respects (by decide)
    | (apply State.modCtl_sel; rotate_left; (intro c; rfl))
    | apply State.freeEntry_keeps SelKept.respects (by decide)
    | intro _
    | split)

theorem State.checkLeaves_sel {s₀ : State} {s : State} {n : Fin 128} {p : PlateId} (h : SelKept s₀ s) :
    SelKept s₀ (State.checkLeaves s n p).2 := by
  refine h.comp ?_
  clear h
  unfold State.checkLeaves
  dsimp -failIfUnchanged -proj only
  repeat' (with_reducible first
    | assumption
    | apply SelKept.refl
    | apply State.checkPair_sel
    | intro _
    | split)

theorem State.checkPlate_sel {s₀ : State} {s : State} {n : Fin 128} {p : PlateId} (h : SelKept s₀ s) :
    SelKept s₀ (State.checkPlate s n p).2 := by
  refine h.comp ?_
  clear h
  unfold State.checkPlate
  dsimp -failIfUnchanged -proj only
  repeat' (with_reducible first
    | assumption
    | apply SelKept.refl
    | apply State.checkLeaves_sel
    | intro _
    | split)

theorem State.unbind_sel {s₀ : State} {s : State} {n : Fin 128} (h : SelKept s₀ s) : SelKept s₀ (State.unbind s n) := by
  refine h.comp ?_
  clear h
  unfold State.unbind
  dsimp -failIfUnchanged -proj only
  repeat' (with_reducible first
    | assumption
    | apply SelKept.refl
    | (apply State.modCtl_sel; rotate_left; (intro c; rfl))
    | apply State.modDir_keeps SelKept.respects (by decide)
    | intro _
    | split)

theorem State.unbind_ch_state (s : State) (n : Fin 128) : ((s.unbind n).ch n).state = (s.ch n).state := by
  unfold State.unbind
  split
  · rfl
  · dsimp only
    split
    · split <;> simp
    · simp

theorem State.enterRecoveryState_sel {s₀ s : State} {n : Fin 128} (h : SelKept s₀ s) (ht : (s.ch n).state = .taking) :
    SelKept s₀ (s.enterRecoveryState n) := by
  refine h.comp ?_
  clear h
  unfold State.enterRecoveryState
  dsimp only
  refine State.answerAll_sel (State.modCtl_sel (State.raise_keeps SelKept.respects (by decide) fun k => ?_) fun _ => rfl)
  by_cases hk : k = n
  · subst hk
    exact .inr ⟨ht, by simp⟩
  · rw [State.transition_ch_ne hk]
    exact State.unbind_sel (State.modWdg_keeps SelKept.respects (by decide) (State.modMbx_keeps SelKept.respects (by decide) (SelKept.refl s))) k

theorem State.bind_sel {s₀ : State} {s : State} {n : Fin 128} {i : Fin 256} {p : PlateId} (h : SelKept s₀ s) :
    SelKept s₀ (State.bind s n i p) := by
  refine h.comp ?_
  clear h
  unfold State.bind
  dsimp -failIfUnchanged -proj only
  repeat' (with_reducible first
    | assumption
    | apply SelKept.refl
    | apply State.unbind_sel
    | (apply State.modCtl_sel; rotate_left; (intro c; rfl))
    | intro _
    | split)

theorem State.selEnd_sel {s₀ : State} {s : State} {n : Fin 128} {w : SelWait} {t3 : PTable} {tie : Bool} {run : Option (PlateId × Fin 256)} {attempt : Bool} (h : SelKept s₀ s) :
    SelKept s₀ (State.selEnd s n w t3 tie run attempt) := by
  refine h.comp ?_
  clear h
  unfold State.selEnd
  dsimp -failIfUnchanged -proj only
  repeat' (with_reducible first
    | assumption
    | apply SelKept.refl
    | (apply State.enterRecoveryState_sel; rotate_left; assumption)
    | apply State.bind_sel
    | apply State.answerAll_sel
    | apply State.commitPlates_keeps SelKept.respects (by decide)
    | apply State.beginAttempt_keeps SelKept.respects (by decide)
    | apply State.unbind_sel
    | (apply State.modCtl_sel; rotate_left; (intro c; rfl))
    | apply State.raise_keeps SelKept.respects (by decide)
    | intro _
    | split)

theorem State.selectFrom_sel {s₀ : State} {n : Fin 128} {x : Nat} {x2 : SelWait} {x3 : State} (h : SelKept s₀ x3) :
    SelKept s₀ (State.selectFrom n x x2 x3) := by
  refine h.comp ?_
  clear h
  have key : ∀ (s₀ : State) (x2 : SelWait) (x3 : State), SelKept s₀ x3 → SelKept s₀ (State.selectFrom n x x2 x3) := by
    induction x with
    | zero => intro s₀ x2 x3 h; unfold State.selectFrom; exact h
    | succ k ih =>
      intro s₀ x2 x3 h; unfold State.selectFrom
      dsimp -failIfUnchanged -proj only
      repeat' (with_reducible first
        | assumption
        | apply ih
        | apply SelKept.refl
        | apply State.selNote_keeps SelKept.respects (by decide)
        | apply State.checkPlate_sel
        | (apply State.modCtl_sel; rotate_left; (intro c; rfl))
        | apply State.selEnd_sel
        | intro _
        | split)
  exact key _ x2 x3 (SelKept.refl _)

theorem State.select_sel {s₀ : State} {s : State} {n : Fin 128} (h : SelKept s₀ s) : SelKept s₀ (State.select s n) := by
  refine h.comp ?_
  clear h
  unfold State.select
  dsimp -failIfUnchanged -proj only
  repeat' (with_reducible first
    | assumption
    | apply SelKept.refl
    | apply State.completeAdvances_keeps SelKept.respects (by decide)
    | apply State.selectFrom_sel
    | (apply State.modCtl_sel; rotate_left; (intro c; rfl))
    | intro _
    | split)

/-- A channel that starts to take is TAKING, or in RECOVERY where no plate can run; one whose port is in FAULT stays HELD. -/
theorem State.startTaking_state (s : State) (n : Fin 128) (cause : Cause) (asked : Bool)
    (hp : (s.ch n).state = .held → s.portFault n = false) :
    ((s.startTaking n cause asked).ch n).state = .taking ∨ ((s.startTaking n cause asked).ch n).state = .recovery := by
  have hno : ¬ ((decide ((s.ch n).state = .held) && s.portFault n) = true) := by
    intro h
    rw [Bool.and_eq_true, decide_eq_true_eq] at h
    rw [hp h.1] at h
    exact Bool.false_ne_true h.2
  have of_sel {u t : State} (h : SelKept u t) (hu : (u.ch n).state = .taking) : (t.ch n).state = .taking ∨ (t.ch n).state = .recovery := by
    rcases h n with e | ⟨-, e⟩
    · exact .inl (e.trans hu)
    · exact .inr e
  unfold State.startTaking
  rw [if_neg hno]
  dsimp only
  split
  · exact .inl (by simp)
  · split
    · exact of_sel (State.unbind_sel (SelKept.refl _)) (by simp)
    · split
      · exact .inl (by simp)
      · exact of_sel (State.select_sel (SelKept.refl _)) (by simp)

/-- A held channel whose port is in FAULT stays HELD. -/
theorem State.startTaking_fault (s : State) (n : Fin 128) (cause : Cause) (asked : Bool) (hs : (s.ch n).state = .held)
    (hp : s.portFault n = true) : OrdersAnswered s (s.startTaking n cause asked) := by
  unfold State.startTaking
  rw [if_pos (by simp [hs, hp])]
  exact State.answerAll_orders

end Sys2Proof.Machine

end


section
/-! SUPPORT. Holding a host (R130, R131). -/

namespace Sys2Proof.Machine

open Sys2Proof

theorem State.modCtl_congr {s : State} {n : Fin 128} {f g : Ctl → Ctl} (h : f (s.ch n) = g (s.ch n)) : s.modCtl n f = s.modCtl n g := by
  simp only [State.modCtl, vmod, State.ch] at h ⊢
  rw [h]

/-! ## What a hold leaves -/

@[simp] theorem State.wdgStop_ctl (s : State) (n : Fin 128) : (s.wdgStop n).ctl = s.ctl :=
  State.wdgStop_frame (Frame.refl _ s) (Field.sub_refl _) .ctl (by decide)

@[simp] theorem State.wdgStop_ch (s : State) (n k : Fin 128) : (s.wdgStop n).ch k = s.ch k := congrArg (vget · k) (s.wdgStop_ctl n)

/-! A change of the shared platform part alone leaves a channel's parts. -/

theorem State.put_plat_ch (u : State) (x : Platform) (n : Fin 128) : ({ u with plat := x } : State).ch n = u.ch n := rfl

theorem State.put_plat_wd (u : State) (x : Platform) (n : Fin 128) : ({ u with plat := x } : State).wd n = u.wd n := rfl

theorem State.put_plat_port (u : State) (x : Platform) (n : Fin 128) : ({ u with plat := x } : State).port n = u.port n := rfl

/-- What stopping the host leaves of the control state: HOLD# is to sink, and no wait goes on. -/
theorem State.stopHost_ch (s : State) (n : Fin 128) :
    (s.stopHost n).ch n =
      { s.ch n with
        holdWait := !(s.ch n).sink, relAsked := false, pgTmoAt := none, seq := none, standbyRun := false, ranked := false,
        sel := if (match (s.pl n).arming with | some a => !a.committed | none => false) then (s.ch n).sel else none } := by
  unfold State.stopHost
  dsimp only
  refine (State.modCtl_ch _ _ _).trans ?_
  simp only [State.modStn_ch, State.modPort_ch, State.wdgStop_ch] <;> rfl

/-- The channel's watchdog no longer counts. -/
theorem State.stopHost_wd (s : State) (n : Fin 128) : ((s.stopHost n).wd n).counting = false := by
  unfold State.stopHost
  dsimp only
  rw [State.put_plat_wd]
  simp only [State.modCtl_wd, State.modStn_wd, State.modPort_wd, State.wdgStop, State.modWdg_wd]

/-- The state of a channel that is held, as an order or a sequence leaves it. -/
structure Ctl.HeldBy (c₀ c : Ctl) (kind : HoldKind) (cause : Cause) (seq : Option SeqKind) : Prop where
  state : c.state = .held
  kind : c.kind = kind
  seq : c.seq = seq
  cause : c₀.state ≠ .held → c.cause = cause
  holdWait : c.holdWait = !c₀.sink
  wires : c.wires = c₀.wires
  bound : c.bound = c₀.bound
  pgTmoAt : c.pgTmoAt = none
  relAsked : c.relAsked = false

theorem State.hold_ch (s : State) (n : Fin 128) (kind : HoldKind) (cause : Cause) (seq : Option SeqKind) :
    (s.ch n).HeldBy ((s.hold n kind cause seq).ch n) kind cause seq := by
  have h0 : ((s.stopHost n).modCtl n fun c => { c with kind := kind, seq := seq }).ch n =
      { (s.stopHost n).ch n with kind := kind, seq := seq } := State.modCtl_ch _ _ _
  rw [State.stopHost_ch] at h0
  unfold State.hold
  dsimp only
  generalize (s.stopHost n).modCtl n (fun c => { c with kind := kind, seq := seq }) = u at h0
  have h1 : ∃ r, (if (s.ch n).state = .taking then u.answerAll n (fun k => k = .release) stAborted 0 [] else u).ch n =
      { u.ch n with ordRes := r } := by
    split
    · exact State.answerAll_orders n
    · exact ⟨_, rfl⟩
  obtain ⟨r, h1⟩ := h1
  generalize (if (s.ch n).state = .taking then u.answerAll n (fun k => k = .release) stAborted 0 [] else u) = v at h1
  split
  · rename_i hs
    constructor <;> rw [h1, h0]
    · exact hs
    · exact fun h => absurd hs h
  · have h2 : (v.transition n .held cause).ch n = { v.ch n with state := .held, cause := cause } := State.transition_ch v n .held cause
    constructor <;> rw [h2, h1, h0]
    exact fun _ => rfl

@[simp] theorem State.answerAll_wd (s : State) (n k : Fin 128) (f : AwaitKind → Bool) (st : Status) (info : Nat) (result : List Byte) :
    (s.answerAll n f st info result).wd k = s.wd k :=
  congrArg (vget · k) (State.answerAll_frame (Frame.refl _ s) (Field.sub_refl _) .wdg (by decide))

theorem State.hold_wd (s : State) (n : Fin 128) (kind : HoldKind) (cause : Cause) (seq : Option SeqKind) :
    ((s.hold n kind cause seq).wd n).counting = false := by
  have h := State.stopHost_wd s n
  unfold State.hold
  dsimp only
  repeat' split
  all_goals simpa using h

/-! ## PG_OK and the wires over the re-release of a channel -/

/-- Lines that end their sequence leave the channels as they are. -/
theorem State.endLines_wires {s₀ s : State} (h : WiresKept s₀ s) : WiresKept s₀ s.endLines :=
  h.comp (WiresKept.of_frame (State.endLines_frame (Frame.refl _ s) (Field.sub_refl _)) (by decide))

theorem WiresKept.pgood {s t : State} (h : WiresKept s t) (n : Fin 128) : (t.ch n).pgood = (s.ch n).pgood :=
  congrArg (fun w => w.2.2.2.1) (h n)

theorem WiresKept.pgOk {s t : State} (h : WiresKept s t) (n : Fin 128) : (t.ch n).pgOk = (s.ch n).pgOk :=
  congrArg (fun w => w.2.2.2.2.2) (h n)

theorem WiresKept.sink {s t : State} (h : WiresKept s t) (n : Fin 128) : (t.ch n).sink = (s.ch n).sink :=
  congrArg (fun w => w.1) (h n)

@[simp] theorem State.answerAll_port (s : State) (n k : Fin 128) (f : AwaitKind → Bool) (st : Status) (info : Nat) (result : List Byte) :
    (s.answerAll n f st info result).port k = s.port k :=
  congrArg (vget · k) (State.answerAll_frame (Frame.refl _ s) (Field.sub_refl _) .ports (by decide))

@[simp] theorem State.wdgStop_port (s : State) (n k : Fin 128) : (s.wdgStop n).port k = s.port k :=
  congrArg (vget · k) (State.wdgStop_frame (Frame.refl _ s) (Field.sub_refl _) .ports (by decide))

/-- Stopping the host ends its burst on the lines. -/
theorem State.stopHost_port (s : State) (n : Fin 128) :
    (s.stopHost n).port n = { s.port n with burstOpen := false, driven := 0, dqsDriven := false } := by
  unfold State.stopHost
  dsimp only
  rw [State.put_plat_port]
  simp

theorem State.hold_port (s : State) (n : Fin 128) (kind : HoldKind) (cause : Cause) (seq : Option SeqKind) :
    (s.hold n kind cause seq).port n = { s.port n with burstOpen := false, driven := 0, dqsDriven := false } := by
  have h := State.stopHost_port s n
  unfold State.hold
  dsimp only
  repeat' split
  all_goals simpa using h

/-- The fall of CHn_PGOOD before the host is held (R39, R127). -/
def State.pgFallen (s : State) (n : Fin 128) : State := (s.modCtl n fun c => { c with pgood := false, pgOk := false }).csRise n

theorem State.pgFallen_ch (s : State) (n : Fin 128) : (s.pgFallen n).ch n = { s.ch n with pgood := false, pgOk := false } := by
  simp [State.pgFallen, State.csRise]

theorem exec_pgoodFall {s : State} {n : Fin 128} (hpg : (s.ch n).pgood = true) (hon : s.chanOn n = true) :
    exec (.pgoodFall n) s = .next (
      if (s.ch n).released && s.dev.state = .running then ((s.pgFallen n).hold n .pgood .pgood none).raise 0x0105 n.1 [] else s.pgFallen n) := by
  have hrel : ((s.pgFallen n).ch n).released = (s.ch n).released := by rw [State.pgFallen_ch]; rfl
  have hdev : (s.pgFallen n).dev = s.dev := by simp [State.pgFallen, State.csRise]
  rw [← hrel, ← hdev]
  exact congrArg Host.Outcome.next (if_pos (by simp [hpg, hon]))

/-- PG_OK has settled, before a held channel goes on (R127). -/
def State.pgSettled (s : State) (n : Fin 128) : State :=
  let v := if (s.ch n).pgood then s.until ((s.ch n).pgRise + (s.profOf n).pgSettle * msec) else s
  v.modCtl n fun c => { c with pgood := true, pgRise := if c.pgood then c.pgRise else v.now - (s.profOf n).pgSettle * msec, pgOk := true }

theorem exec_pgOkSettled {s : State} {n : Fin 128} (hon : s.chanOn n = true) :
    exec (.pgOkSettled ⟨n, true⟩) s = .next (
      if (s.pgSettled n).dev.state ≠ .running then s.pgSettled n
      else if ((s.pgSettled n).ch n).state = .held && ((s.pgSettled n).ch n).kind = .sequence && ((s.pgSettled n).ch n).pgTmoAt.isSome then
        ((s.pgSettled n).startTaking n .powerCycle true).endLines
      else (s.pgSettled n).resumeHeld n) :=
  congrArg Host.Outcome.next (if_neg (by simp [hon]))

theorem State.pgSettled_dev (s : State) (n : Fin 128) : (s.pgSettled n).dev = s.dev := by
  unfold State.pgSettled
  dsimp only
  split <;> rfl

theorem State.pgSettled_high {s : State} {n : Fin 128} (h : (s.ch n).pgood = true) :
    s.pgSettled n = { s with now := max s.now ((s.ch n).pgRise + (s.profOf n).pgSettle * 1000000) }.modCtl n fun c => { c with pgOk := true } := by
  unfold State.pgSettled
  rw [if_pos h]
  refine State.modCtl_congr ?_
  have h' : ((s.until ((s.ch n).pgRise + (s.profOf n).pgSettle * msec)).ch n).pgood = true := h
  rw [if_pos h', ← h']

end Sys2Proof.Machine

namespace Sys2Proof

open Sys2Proof.Machine

/-- Settles O22: the fall holds a released host, the settling changes the wires as said and then keeps them. -/
theorem powerGoodHoldsTheHost : Obligations.PowerGoodHoldsTheHost := by
  intro s n hon
  refine ⟨fun hpg => ?fall, ?rise, ?settled⟩
  case rise => exact congrArg Host.Outcome.next (by simp [hon])
  case fall =>
    refine ⟨_, exec_pgoodFall hpg hon, ?_⟩
    have hch := s.pgFallen_ch n
    have hrep : ((s.pgFallen n).port n).reply = [] := by simp [State.pgFallen, State.csRise_port]
    by_cases hr : (s.ch n).released = true ∧ s.dev.state = .running
    · rw [if_pos (by simp [hr])]
      have hh := State.hold_ch (s.pgFallen n) n .pgood .pgood none
      have hport := State.hold_port (s.pgFallen n) n .pgood .pgood none
      have hwires := hh.wires
      rw [hch] at hwires
      simp only [Ctl.wires, Prod.mk.injEq] at hwires
      obtain ⟨-, -, -, hpgood, -, hpgOk⟩ := hwires
      simp only [State.raise_ch, State.raise_port]
      exact ⟨hpgood, hpgOk, by rw [hport]; exact hrep, fun _ _ => ⟨hh.state, hh.kind⟩, fun h => absurd (h.symm.trans hr.1) Bool.false_ne_true⟩
    · rw [if_neg (by simpa using hr)]
      exact ⟨by rw [hch], by rw [hch], hrep, fun h h' => absurd ⟨h, h'⟩ hr, fun _ => rfl⟩
  case settled =>
    have hpg : ((s.pgSettled n).ch n).pgood = true := by simp [State.pgSettled]
    have hok : ((s.pgSettled n).ch n).pgOk = true := by simp [State.pgSettled]
    refine ⟨_, exec_pgOkSettled hon, ?_⟩
    rw [State.pgSettled_dev]
    by_cases hd : s.dev.state = .running
    · rw [if_neg (by simp [hd])]
      refine ⟨?_, ?_, fun _ h => absurd hd h⟩
      all_goals split
      · exact (State.endLines_wires (State.startTaking_wires (WiresKept.refl _))).pgood n |>.trans hpg
      · exact (State.resumeHeld_wires (WiresKept.refl _)).pgood n |>.trans hpg
      · exact (State.endLines_wires (State.startTaking_wires (WiresKept.refl _))).pgOk n |>.trans hok
      · exact (State.resumeHeld_wires (WiresKept.refl _)).pgOk n |>.trans hok
    · rw [if_pos hd]
      exact ⟨hpg, hok, fun hp _ => State.pgSettled_high hp⟩

end Sys2Proof

end


section
/-! SUPPORT. Plate tables (R107 to R109, R120): what a commit leaves in use, and of the other channels. -/

namespace Sys2Proof.Machine

open Sys2Proof

/-! ## The two copies of a record -/

/-- A commit is the record in use afterwards. -/
theorem LPair.cur_commit {α : Type} (p : LPair α) (x : α) : (p.commit x).cur = some x := by
  obtain ⟨c0, c1⟩ := p
  cases c0 <;> cases c1 <;> simp only [LPair.commit, LPair.cur]
  case valid.valid q0 x0 q1 x1 =>
    have h0 : q0 ≤ (LPair.mk (.valid q0 x0) (.valid q1 x1)).seq := Nat.le_max_left _ _
    have h1 : q1 ≤ (LPair.mk (.valid q0 x0) (.valid q1 x1)).seq := Nat.le_max_right _ _
    by_cases hq : q1 ≤ q0
    · simp only [hq, if_true]
      exact if_neg (by omega)
    · simp only [hq, if_false]
      exact if_pos (by omega)
  case valid.zero q0 x0 =>
    have h0 : q0 ≤ (LPair.mk (.valid q0 x0) .zero).seq := Nat.le_max_left _ _
    exact if_neg (by omega)
  case valid.invalid q0 x0 =>
    have h0 : q0 ≤ (LPair.mk (.valid q0 x0) .invalid).seq := Nat.le_max_left _ _
    exact if_neg (by omega)
  case zero.valid q1 x1 =>
    have h1 : q1 ≤ (LPair.mk .zero (.valid q1 x1)).seq := Nat.le_max_right _ _
    exact if_pos (by omega)
  case invalid.valid q1 x1 =>
    have h1 : q1 ≤ (LPair.mk .invalid (.valid q1 x1)).seq := Nat.le_max_right _ _
    exact if_pos (by omega)

theorem LPair.seq_commit {α : Type} (p : LPair α) (x : α) : (p.commit x).seq = p.seq + 1 := by
  obtain ⟨c0, c1⟩ := p
  cases c0 <;> cases c1 <;> simp only [LPair.commit, LPair.seq, LCopy.seq?, Option.getD_some, Option.getD_none]
  case valid.valid q0 x0 q1 x1 =>
    by_cases hq : q1 ≤ q0 <;> simp only [hq, if_true, if_false, Option.getD_some] <;> omega
  all_goals omega

/-! ## Plates of a table -/

@[simp] theorem PTable.get_set_self (t : PTable) (p : PlateId) (x : Plate) : (t.set p x).get p = x := by cases p <;> rfl

theorem PTable.get_set_ne (t : PTable) {p q : PlateId} (x : Plate) (h : q ≠ p) : (t.set p x).get q = t.get q := by
  cases p <;> cases q <;> first | rfl | exact absurd rfl h

@[simp] theorem PTable.get_withState_self (t : PTable) (p : PlateId) (x : PState) : (t.withState p x).get p = { t.get p with state := x } :=
  PTable.get_set_self _ _ _

theorem PTable.get_withState_ne (t : PTable) {p q : PlateId} (x : PState) (h : q ≠ p) : (t.withState p x).get q = t.get q :=
  PTable.get_set_ne _ _ h

/-! ## Commits of a plate table -/

/-- The record that a commit of a table writes: FLAGS.CONFLICT of a tie that it resolves, and no ADV of an advance that has been made. -/
def State.recordOf (s : State) (n : Fin 128) (t : PTable) : PTable :=
  { t with conflict := (s.pl n).table.tied, a := clearAdv s.familyMin (s.plates n).a t.a, b := clearAdv s.familyMin (s.plates n).b t.b }

/-- Two plates that differ in ADV alone. -/
def Plate.noAdv (x : Plate) : Plate := { x with adv := false }

theorem clearAdv_noAdv (min : List Byte → Nat) (old new : Plate) : (clearAdv min old new).noAdv = new.noAdv := by
  unfold clearAdv
  split <;> rfl

theorem State.recordOf_noAdv (s : State) (n : Fin 128) (t : PTable) (p : PlateId) : ((s.recordOf n t).get p).noAdv = (t.get p).noAdv := by
  cases p
  · exact clearAdv_noAdv _ _ _
  · exact clearAdv_noAdv _ _ _
  · rfl

theorem State.commitTable_plt {s : State} {n : Fin 128} (t : PTable) (cause : Nat) (h : s.seqFull n = false) :
    (s.commitTable n t cause).plt = (s.modPlt n fun x => { x with table := x.table.commit (s.recordOf n t) }).plt := by
  have hlog : ∀ (l : List (PlateId × PState × PState)) (u : State) (f : PlateId × PState × PState → State → State),
      (∀ c u, (f c u).plt = u.plt) → (u.forAll l f).plt = u.plt := by
    intro l
    induction l with
    | nil => exact fun _ _ _ => rfl
    | cons c l ih => exact fun u f hf => (ih (f c u) f hf).trans (hf c u)
  unfold State.commitTable
  rw [h]
  exact (hlog _ _ _ fun c u => by simp).trans (by simp [State.recordOf])

theorem State.commitTable_pl {s : State} {n : Fin 128} (t : PTable) (cause : Nat) (h : s.seqFull n = false) :
    (s.commitTable n t cause).pl n = { s.pl n with table := (s.pl n).table.commit (s.recordOf n t) } := by
  rw [State.pl, State.commitTable_plt t cause h]
  exact State.modPlt_pl _ _ _

theorem State.commitTable_pl_ne {s : State} {n k : Fin 128} (t : PTable) (cause : Nat) (hk : k ≠ n) :
    (s.commitTable n t cause).pl k = s.pl k := by
  cases h : s.seqFull n with
  | true => unfold State.commitTable; rw [h]; rfl
  | false =>
    rw [State.pl, State.commitTable_plt t cause h]
    exact State.modPlt_pl_ne _ _ _ hk

theorem State.commitTable_plates {s : State} {n : Fin 128} (t : PTable) (cause : Nat) (h : s.seqFull n = false) :
    (s.commitTable n t cause).plates n = s.recordOf n t := by
  rw [State.plates, State.commitTable_pl t cause h, LPair.cur_commit, Option.getD_some]

/-- After a commit the plates are those of the table, but for an ADV that has been made. -/
theorem State.commitPlates_plate {s : State} {n : Fin 128} (t : PTable) (cause : Nat) (h : s.seqFull n = false) (p : PlateId) :
    (((s.commitPlates n t cause).plates n).get p).noAdv = (t.get p).noAdv := by
  unfold State.commitPlates
  split
  · rename_i he
    rw [Bool.and_eq_true, decide_eq_true_eq] at he
    rw [he.1]
  · rw [State.commitTable_plates t cause h, State.recordOf_noAdv]

theorem State.commitPlates_state {s : State} {n : Fin 128} (t : PTable) (cause : Nat) (h : s.seqFull n = false) (p : PlateId) :
    (((s.commitPlates n t cause).plates n).get p).state = (t.get p).state :=
  have hx := congrArg Plate.state (State.commitPlates_plate t cause h p)
  hx

theorem State.commitPlates_pl_ne {s : State} {n k : Fin 128} (t : PTable) (cause : Nat) (hk : k ≠ n) :
    (s.commitPlates n t cause).pl k = s.pl k := by
  unfold State.commitPlates
  split
  · rfl
  · exact State.commitTable_pl_ne t cause hk

/-! ## The BAD commit -/

/-- A plate becomes BAD, where it can. -/
def PTable.spoil1 (t : PTable) (p : PlateId) : PTable := if (t.get p).state.canBad then t.withState p .bad else t

/-- The plates of a list become BAD, where they can. -/
def PTable.spoil (t : PTable) (ps : List PlateId) : PTable := ps.foldl PTable.spoil1 t

theorem PTable.spoil1_get_ne (t : PTable) {p q : PlateId} (h : p ≠ q) : (t.spoil1 q).get p = t.get p := by
  unfold PTable.spoil1
  split
  · exact PTable.get_withState_ne _ _ h
  · rfl

theorem PTable.spoil1_self {t : PTable} {p : PlateId} (h : (t.get p).state.canBad = true) : ((t.spoil1 p).get p).state = .bad := by
  rw [PTable.spoil1, if_pos h, PTable.get_withState_self]

theorem PTable.spoil1_bad {t : PTable} {p : PlateId} (q : PlateId) (h : (t.get p).state = .bad) : ((t.spoil1 q).get p).state = .bad := by
  unfold PTable.spoil1
  by_cases hq : p = q
  · subst hq
    split
    · rw [PTable.get_withState_self]
    · exact h
  · split
    · rw [PTable.get_withState_ne _ _ hq, h]
    · exact h

theorem PTable.spoil_bad {t : PTable} {ps : List PlateId} {p : PlateId} (h : (t.get p).state = .bad) : ((t.spoil ps).get p).state = .bad := by
  induction ps generalizing t with
  | nil => exact h
  | cons q ps ih => exact ih (PTable.spoil1_bad q h)

theorem PTable.spoil_mem {t : PTable} {ps : List PlateId} {p : PlateId} (hp : p ∈ ps) (h : (t.get p).state.canBad = true) :
    ((t.spoil ps).get p).state = .bad := by
  induction ps generalizing t with
  | nil => cases hp
  | cons q ps ih =>
    by_cases hq : p = q
    · subst hq
      exact PTable.spoil_bad (t := t.spoil1 p) (PTable.spoil1_self h)
    · exact ih ((List.mem_cons.mp hp).resolve_left hq) (by rw [PTable.spoil1_get_ne _ hq]; exact h)

/-- Where a commit can be made, the plates of the list that can become BAD are BAD. -/
theorem State.plateBad_state {s : State} {n : Fin 128} {ps : List PlateId} {st : Status} {p : PlateId} (hc : s.noCommit = false)
    (hf : s.seqFull n = false) (hp : p ∈ ps) (hb : ((s.plates n).get p).state.canBad = true) :
    (((s.plateBad n ps st).plates n).get p).state = .bad := by
  have h := (State.commitPlates_state ((s.plates n).spoil ps) pcBad hf p).trans (PTable.spoil_mem hp hb)
  unfold State.plateBad
  rw [hc, if_neg Bool.false_ne_true]
  dsimp only
  split
  · rw [State.plates, State.modPlt_pl]
    exact h
  · exact h

theorem State.plateBad_pl_ne {s : State} {n k : Fin 128} {ps : List PlateId} {st : Status} (hk : k ≠ n) :
    (s.plateBad n ps st).pl k = s.pl k := by
  unfold State.plateBad
  split
  · rfl
  · dsimp only
    split
    · rw [State.modPlt_pl_ne _ _ _ hk, State.commitPlates_pl_ne _ _ hk]
    · exact State.commitPlates_pl_ne _ _ hk

/-! ## One channel of a change of all channels -/

/-- A change of every channel, seen from channel n: what comes before and after n's own turn keeps whatever the turns of the others keep. -/
theorem State.forChans_turn {R : State → State → Prop} (hrefl : ∀ s, R s s) (hcomp : ∀ s t u, R s t → R t u → R s u) (s : State) (n : Fin 128)
    {f : Fin 128 → State → State} (h : ∀ k, k ≠ n → ∀ s, R s (f k s)) : ∃ u, R s u ∧ R (f n u) (s.forChans f) := by
  have hfold : ∀ (l : List (Fin 128)), n ∉ l → ∀ s, R s (l.foldl (fun s k => f k s) s) := by
    intro l
    induction l with
    | nil => exact fun _ s => hrefl s
    | cons k l ih =>
      exact fun hl s => hcomp _ _ _ (h k (fun e => hl (e ▸ List.mem_cons_self)) s) (ih (fun hm => hl (List.mem_cons_of_mem _ hm)) _)
  obtain ⟨pre, post, hl⟩ := List.append_of_mem (List.mem_finRange n)
  have hnd : (pre ++ n :: post).Nodup := hl ▸ List.nodup_finRange 128
  have hpre : n ∉ pre := fun hm => (List.nodup_append.mp hnd).2.2 n hm n List.mem_cons_self rfl
  have hpost : n ∉ post := (List.nodup_cons.mp (List.nodup_append.mp hnd).2.1).1
  refine ⟨_, hfold pre hpre s, ?_⟩
  unfold State.forChans
  rw [hl, List.foldl_append, List.foldl_cons]
  exact hfold post hpost _

end Sys2Proof.Machine

end


section
/-! SUPPORT. The pool's channels (R99 to R103): what each change leaves of a channel and of the others. -/

namespace Sys2Proof.Machine

open Sys2Proof

/-- One block of a channel is retired. -/
def PoolChan.retired (x : PoolChan) : PoolChan := { x with grown := satInc x.grown, spare := x.spare - 1 }

@[simp] theorem State.modPool_chan (s : State) (k : Fin 16) (f : PoolChan → PoolChan) :
    vget (s.modPool k f).pool.chans k = f (vget s.pool.chans k) := vget_vmod_self _ _ _

theorem State.modPool_chan_ne (s : State) {k j : Fin 16} (f : PoolChan → PoolChan) (h : j ≠ k) :
    vget (s.modPool k f).pool.chans j = vget s.pool.chans j := vget_vmod_ne _ _ h

@[simp] theorem State.modPool_waiting (s : State) (k : Fin 16) (f : PoolChan → PoolChan) : (s.modPool k f).pool.waiting = s.pool.waiting := rfl

@[simp] theorem State.unitOut_pool (s : State) (kind index reason : Nat) : (s.unitOut kind index reason).pool = s.pool := by simp [State.unitOut]

@[simp] theorem State.unitBack_pool (s : State) (kind index : Nat) : (s.unitBack kind index).pool = s.pool := by simp [State.unitBack]

/-- Pool work under low-supply inhibit waits (R102). -/
theorem State.poolDo_inhibited {s : State} (h : s.inhibited = true) (w : PoolWork) :
    (s.poolDo w).pool = { s.pool with waiting := s.pool.waiting ++ [w] } := by simp [State.poolDo, h, State.modPoolAll]

/-- Whether the supply inhibits pool work is not changed by it. -/
theorem State.poolDo_inhibit (s : State) (w : PoolWork) : (s.poolDo w).inhibited = s.inhibited := by
  have h : Frame [.pool, .rings] s (s.poolDo w) := State.poolDo_frame (Frame.refl _ s) (by decide)
  have hp : (s.poolDo w).power = s.power := h .power (by decide)
  simp only [State.inhibited, hp]

theorem State.poolDo_refresh (s : State) (k : Nat) : (s.poolDo (.refresh k)).pool.chans = s.pool.chans := by
  unfold State.poolDo
  split <;> rfl

theorem State.poolDo_retire {s : State} (h : s.inhibited = false) (k : Fin 16) :
    (s.poolDo (.retire k.1)).pool = { s.pool with chans := vmod s.pool.chans k PoolChan.retired } := by
  unfold State.poolDo
  rw [if_neg (by simp [h])]
  simp only [fin?_val, State.retireBlock]
  split
  · exact State.raise_pool _ _ _ _
  · rfl

theorem State.poolDo_move {s : State} (h : s.inhibited = false) (k : Fin 16) (pe : Nat) :
    (s.poolDo (.move k.1 pe)).pool = { s.pool with chans := vmod s.pool.chans k fun x => { x with maxPe := BitVec.ofNat 16 pe } } := by
  unfold State.poolDo
  rw [if_neg (by simp [h])]
  simp only [fin?_val, State.modPool]

/-- A retirement counts a grown block and takes a spare, or waits for the supply. -/
theorem State.poolDo_retire_chans (s : State) (k : Fin 16) :
    (s.poolDo (.retire k.1)).pool.chans =
      if s.inhibited then s.pool.chans else vmod s.pool.chans k PoolChan.retired := by
  cases h : s.inhibited with
  | true => rw [State.poolDo_inhibited h]; rfl
  | false => rw [State.poolDo_retire h]; rfl

/-- The channels after the retirement that an event asks for. -/
theorem State.retireIf_chans (s : State) (k : Fin 16) (b : Bool) :
    (if b then s.poolDo (.retire k.1) else s).pool.chans =
      if !s.inhibited && b then vmod s.pool.chans k PoolChan.retired else s.pool.chans := by
  cases b with
  | false => simp
  | true =>
    rw [if_pos rfl, State.poolDo_retire_chans]
    cases s.inhibited <;> rfl

theorem State.refreshIf_inhibited (s : State) (w : PoolWork) (b : Bool) : (if b then s.poolDo w else s).inhibited = s.inhibited := by
  split
  · exact s.poolDo_inhibit w
  · rfl

theorem State.refreshIf_chans (s : State) (k : Nat) (b : Bool) : (if b then s.poolDo (.refresh k) else s).pool.chans = s.pool.chans := by
  split
  · exact s.poolDo_refresh k
  · rfl

/-- The counts that a patrol read leaves. -/
def PoolChan.counted (ev : EccEv) (x : PoolChan) : PoolChan :=
  { x with corrected := BitVec.ofNat 16 (min 0xFFFF (x.corrected.toNat + ev.corrected)),
           rebuilt := if ev.uncorrectable then satInc x.rebuilt else x.rebuilt }

/-- The channel that a patrol read leaves: its counts, the block that it retires, and its state at the last page of a returning channel's
check. -/
def PoolChan.patrolled (ev : EccEv) (inhibited : Bool) (x : PoolChan) : PoolChan :=
  let y := x.counted ev
  let y := if !inhibited && (ev.uncorrectable || (ev.weak && ev.stillWeak)) then y.retired else y
  if x.state = 4 && ev.last then { y with state := 2 } else y

theorem PoolChan.counted_state (ev : EccEv) (x : PoolChan) : (x.counted ev).state = x.state := rfl

theorem PoolChan.patrolled_fields (ev : EccEv) (inhibited : Bool) (x : PoolChan) :
    (x.patrolled ev inhibited).corrected = BitVec.ofNat 16 (min 0xFFFF (x.corrected.toNat + ev.corrected)) ∧
      (x.patrolled ev inhibited).rebuilt = (if ev.uncorrectable then satInc x.rebuilt else x.rebuilt) ∧
      (x.patrolled ev inhibited).state = (if x.state = 4 ∧ ev.last = true then 2 else x.state) ∧
      (x.patrolled ev inhibited).grown =
        if inhibited = false ∧ (ev.uncorrectable = true ∨ ev.weak = true ∧ ev.stillWeak = true) then satInc x.grown else x.grown := by
  have hl : ((decide (x.state = 4) && ev.last) = true) ↔ x.state = 4 ∧ ev.last = true := by rw [Bool.and_eq_true, decide_eq_true_eq]
  have hr : ((!inhibited && (ev.uncorrectable || (ev.weak && ev.stillWeak))) = true) ↔
      inhibited = false ∧ (ev.uncorrectable = true ∨ ev.weak = true ∧ ev.stillWeak = true) := by
    simp only [Bool.and_eq_true, Bool.or_eq_true, Bool.not_eq_true']
  unfold PoolChan.patrolled
  dsimp only
  simp only [hl, hr]
  split <;> split <;> exact ⟨rfl, rfl, rfl, rfl⟩

/-- A change of one channel by its present value alone. -/
theorem vmod_congr {α : Type} {k : Nat} {v : Vector α k} {i : Fin k} {f g : α → α} (h : f (vget v i) = g (vget v i)) : vmod v i f = vmod v i g := by
  simp only [vmod, h]

/-- The record of one bad leaf of an object (R101). -/
def PoolObj.auditMark (fam root : List Byte) (leaf : Nat) (o : PoolObj) : PoolObj :=
  if o.family = fam && o.root = root && !o.badLeaves.contains leaf then { o with badLeaves := o.badLeaves ++ [leaf] } else o

theorem PoolObj.auditMark_named (fam root : List Byte) (leaf : Nat) (o : PoolObj) :
    (decide ((o.auditMark fam root leaf).family = fam) && decide ((o.auditMark fam root leaf).root = root)) =
      (decide (o.family = fam) && decide (o.root = root)) := by
  unfold PoolObj.auditMark
  split <;> rfl

theorem PoolObj.auditMark_img (fam root : List Byte) (leaf : Nat) (o : PoolObj) : (o.auditMark fam root leaf).img = o.img := by
  unfold PoolObj.auditMark
  split <;> rfl

theorem PoolObj.mem_auditMark {fam root : List Byte} {o : PoolObj} (leaf : Nat) (h : (decide (o.family = fam) && decide (o.root = root)) = true) :
    leaf ∈ (o.auditMark fam root leaf).badLeaves := by
  unfold PoolObj.auditMark
  rw [h, Bool.true_and]
  cases hc : o.badLeaves.contains leaf with
  | true => exact List.contains_iff_mem.mp hc
  | false => exact List.mem_append_right _ (List.mem_singleton_self leaf)

/-- The objects after the audit's record. -/
theorem State.poolObj_audited {s t : State} {fam root : List Byte} {leaf : Nat} {o : PoolObj}
    (hp : t.pool = { s.pool with objs := s.pool.objs.map (PoolObj.auditMark fam root leaf) }) (ho : s.poolObj fam root = some o) :
    t.poolObj fam root = some (o.auditMark fam root leaf) := by
  unfold State.poolObj at ho ⊢
  cases hb : s.pool.mapBad with
  | true => rw [hb, if_pos rfl] at ho; cases ho
  | false =>
    rw [hb, if_neg Bool.false_ne_true] at ho
    rw [hp]
    dsimp only
    rw [hb, if_neg Bool.false_ne_true, List.find?_map,
      show ((fun o : PoolObj => decide (o.family = fam) && decide (o.root = root)) ∘ PoolObj.auditMark fam root leaf) =
        fun o => decide (o.family = fam) && decide (o.root = root) from funext (PoolObj.auditMark_named fam root leaf), ho]
    rfl

theorem State.poolObj_named {s : State} {fam root : List Byte} {o : PoolObj} (h : s.poolObj fam root = some o) :
    (decide (o.family = fam) && decide (o.root = root)) = true := by
  unfold State.poolObj at h
  split at h
  · cases h
  · have := List.find?_some h
    exact this

/-- What the turn of another channel keeps of channel n for a BAD commit. -/
def KeptForBad (n : Fin 128) (s t : State) : Prop := t.pl n = s.pl n ∧ t.noCommit = s.noCommit

theorem State.plateBad_keptForBad {s : State} {n k : Fin 128} (ps : List PlateId) (st : Status) (hk : n ≠ k) :
    KeptForBad n s (s.plateBad k ps st) := by
  have h : Frame [.plt, .trace, .rings, .led] s (s.plateBad k ps st) := State.plateBad_frame (Frame.refl _ s) (by decide)
  have hp : (s.plateBad k ps st).power = s.power := h .power (by decide)
  have hd : (s.plateBad k ps st).dev = s.dev := h .dev (by decide)
  exact ⟨State.plateBad_pl_ne hk, by rw [State.noCommit, hp, hd]; rfl⟩

/-- The turn of one channel in the BAD commits of an object. -/
def State.objectBadAt (s : State) (fam root : List Byte) (st : Status) (n : Fin 128) : State :=
  match [PlateId.a, .b, .recov].filter fun p =>
    ((s.plates n).get p).state.canBad && ((s.plates n).get p).src = 1 && ((s.plates n).get p).family = fam && ((s.plates n).get p).root = root with
  | [] => s
  | ps => s.plateBad n ps st

theorem State.objectBad_eq (s : State) (fam root : List Byte) (st : Status) :
    s.objectBad fam root st = s.forChans fun n s => s.objectBadAt fam root st n := rfl

/-- Where a commit can be made, a plate that names a bad object becomes BAD (R101). -/
theorem State.objectBad_state {s : State} {n : Fin 128} {p : PlateId} {fam root : List Byte} (st : Status) (hc : s.noCommit = false)
    (hf : s.seqFull n = false) (hb : ((s.plates n).get p).state.canBad = true) (hsrc : ((s.plates n).get p).src = 1)
    (hfam : ((s.plates n).get p).family = fam) (hroot : ((s.plates n).get p).root = root) :
    (((s.objectBad fam root st).plates n).get p).state = .bad := by
  have hturn : ∀ k, k ≠ n → ∀ s, KeptForBad n s (s.objectBadAt fam root st k) := by
    intro k hk s
    unfold State.objectBadAt
    split
    · exact ⟨rfl, rfl⟩
    · exact State.plateBad_keptForBad _ _ (Ne.symm hk)
  obtain ⟨u, ⟨hu, huc⟩, ht, -⟩ := State.forChans_turn (R := KeptForBad n) (fun _ => ⟨rfl, rfl⟩)
    (fun _ _ _ h1 h2 => ⟨h2.1.trans h1.1, h2.2.trans h1.2⟩) s n hturn
  have hpl : u.plates n = s.plates n := by rw [State.plates, hu]; rfl
  have hmem : p ∈ [PlateId.a, .b, .recov].filter fun p =>
      ((u.plates n).get p).state.canBad && ((u.plates n).get p).src = 1 && ((u.plates n).get p).family = fam && ((u.plates n).get p).root = root :=
    List.mem_filter.mpr ⟨by cases p <;> simp, by simp [hpl, hb, hsrc, hfam, hroot]⟩
  have hbad : (((u.objectBadAt fam root st n).plates n).get p).state = .bad := by
    unfold State.objectBadAt
    split
    · rename_i he
      rw [he] at hmem
      cases hmem
    · exact State.plateBad_state (huc.trans hc) (by rw [State.seqFull, hu]; exact hf) hmem (by rw [hpl]; exact hb)
  rw [State.objectBad_eq, State.plates, ht]
  exact hbad

/-- A patrol read of a channel in service or returning changes that channel alone. -/
theorem exec_poolEccPatrol {s : State} {k : Fin 16} {ev : EccEv} (h : (vget s.pool.chans k).state = 2 ∨ (vget s.pool.chans k).state = 4) :
    ∃ t, exec (.poolEccPatrol k ev) s = .next t ∧ t.pool.chans = vmod s.pool.chans k fun x => x.patrolled ev s.inhibited := by
  refine ⟨_, congrArg Host.Outcome.next (if_neg (by rcases h with h | h <;> simp [h])), ?_⟩
  dsimp only
  generalize hu : s.modPool k (fun x =>
    { x with corrected := BitVec.ofNat 16 (min 0xFFFF (x.corrected.toNat + ev.corrected)),
             rebuilt := if ev.uncorrectable then satInc x.rebuilt else x.rebuilt }) = u
  have hinh : u.inhibited = s.inhibited := by rw [← hu]; rfl
  have hchans : u.pool.chans = vmod s.pool.chans k (PoolChan.counted ev) := by rw [← hu]; rfl
  generalize hv : (if (ev.weak || ev.uncorrectable) = true then u.poolDo (.refresh k.1) else u) = v
  have hvc : v.pool.chans = u.pool.chans := hv ▸ State.refreshIf_chans u k.1 _
  have hvi : v.inhibited = u.inhibited := hv ▸ State.refreshIf_inhibited u _ _
  generalize hw : (if (ev.uncorrectable || (ev.weak && ev.stillWeak)) = true then v.poolDo (.retire k.1) else v) = w
  have hwc : w.pool.chans = if !s.inhibited && (ev.uncorrectable || (ev.weak && ev.stillWeak)) then
      vmod s.pool.chans k (fun x => (x.counted ev).retired) else vmod s.pool.chans k (PoolChan.counted ev) := by
    rw [← hw, State.retireIf_chans, hvi, hinh, hvc, hchans, vmod_vmod]
  have hfin : (if (decide ((vget s.pool.chans k).state = 4) && ev.last) = true then (w.modPool k fun x => { x with state := 2 }).unitBack unitPool k.1
      else w).pool.chans = if (decide ((vget s.pool.chans k).state = 4) && ev.last) = true then vmod w.pool.chans k fun x => { x with state := 2 }
      else w.pool.chans := by
    split
    · rw [State.unitBack_pool]; rfl
    · rfl
  rw [hfin, hwc]
  cases hr : !s.inhibited && (ev.uncorrectable || (ev.weak && ev.stillWeak)) <;>
    cases hl : decide ((vget s.pool.chans k).state = 4) && ev.last <;>
    simp only [Bool.false_eq_true, if_false, if_true, vmod_vmod] <;>
    exact vmod_congr (by simp only [PoolChan.patrolled, hr, hl, Bool.false_eq_true, if_false, if_true])

end Sys2Proof.Machine

namespace Sys2Proof

open Sys2Proof.Machine

/-- Settles O35, channel by channel; the audit by the turn of each channel in the BAD commits. -/
theorem poolChannelsLeaveAndReturn : Obligations.PoolChannelsLeaveAndReturn := by
  intro s m k reason ecc wear x at_ rest
  refine ⟨fun hon hst => ?out, fun hr => ⟨fun hst hn => ?takeOut, fun hst hn => ?refused, fun hst => ?back, ?untrained⟩, fun hst => ?patrol,
    fun hst hw => ?wear, fun hon => ⟨?failed, ?done⟩, fun family root o leaf ho => ?audit⟩
  case out =>
    refine ⟨_, congrArg Host.Outcome.next (if_pos ?_), ?_, fun j hj => ?_⟩
    · rcases hst with h | h | h <;> simp [hon, show (vget s.pool.chans k).state = _ from h]
    · simp [at_, State.poolOut, x]
    · simp [State.poolOut, State.modPool_chan_ne _ _ hj]
  case takeOut =>
    refine ⟨_, congrArg Host.Outcome.next (State.regW_reaches hr), ?_, fun j hj => ?_⟩
    · simp [at_, State.poolOut, x, show (vget s.pool.chans k).state = _ from hst, Nat.not_lt.mpr hn]
    · simp [State.poolOut, show (vget s.pool.chans k).state = _ from hst, Nat.not_lt.mpr hn, State.modPool_chan_ne _ _ hj]
  case refused =>
    refine congrArg Host.Outcome.next ((State.regW_reaches hr).trans ?_)
    simp [show (vget s.pool.chans k).state = _ from hst, hn]
  case back =>
    refine ⟨_, congrArg Host.Outcome.next (State.regW_reaches hr), ?_, fun j hj => ?_, ?_⟩
    · simp [at_, x, show (vget s.pool.chans k).state = _ from hst]
    · simp [show (vget s.pool.chans k).state = _ from hst, State.modPool_chan_ne _ _ hj]
    · simp [show (vget s.pool.chans k).state = _ from hst]
  case untrained =>
    refine congrArg Host.Outcome.next ((State.regW_reaches hr).trans ?_)
    simp
  case patrol =>
    obtain ⟨t, ht, hc⟩ := exec_poolEccPatrol (ev := ecc) hst
    have hk : at_ t = x.patrolled ecc s.inhibited := by simp [at_, hc, x]
    obtain ⟨hcorr, hreb, hstate, hgrown⟩ := x.patrolled_fields ecc s.inhibited
    refine ⟨t, ht, fun j hj => by rw [hc, vget_vmod_ne _ _ hj], ?_, ?_, ?_, ?_⟩ <;> rw [hk]
    · exact hcorr
    · exact hreb
    · exact hstate
    · exact hgrown
  case wear =>
    refine ⟨_, congrArg Host.Outcome.next (if_pos (by simp [show (vget s.pool.chans k).state = _ from hst, hw])), ?_⟩
    dsimp only
    cases hi : s.inhibited with
    | true =>
      have hp := State.poolDo_inhibited hi (.move k.1 wear.maxPe)
      rw [if_neg (by simp)]
      exact ⟨fun j _ => by rw [hp], nofun, fun _ => ⟨by simp only [at_, hp, x], by rw [hp]⟩⟩
    | false =>
      have hm := State.poolDo_move hi k wear.maxPe
      cases hb : wear.blockFailed with
      | true =>
        have hr := State.poolDo_retire ((s.poolDo_inhibit (.move k.1 wear.maxPe)).trans hi) k
        rw [hm] at hr
        rw [if_pos (by rfl)]
        exact ⟨fun j hj => by rw [hr, vmod_vmod, vget_vmod_ne _ _ hj],
          fun _ => by simp only [at_, hr, vmod_vmod, vget_vmod_self, PoolChan.retired, x, if_true, and_self], nofun⟩
      | false =>
        rw [if_neg (by simp)]
        exact ⟨fun j hj => by rw [hm, vget_vmod_ne _ _ hj], fun _ => by simp [at_, hm, x], nofun⟩
  case failed =>
    refine ⟨_, congrArg Host.Outcome.next (if_pos (by simp [hon])), ?_⟩
    cases hi : s.inhibited with
    | true =>
      have hp := State.poolDo_inhibited hi (.retire k.1)
      exact ⟨fun j _ => by rw [hp], nofun, fun _ => ⟨by simp only [at_, hp, x], by rw [hp]⟩⟩
    | false =>
      have hr := State.poolDo_retire hi k
      exact ⟨fun j hj => by rw [hr, vget_vmod_ne _ _ hj], fun _ => by simp only [at_, hr, vget_vmod_self, x]; rfl, nofun⟩
  case done => exact congrArg Host.Outcome.next (by simp)
  case audit =>
    refine ⟨_, congrArg Host.Outcome.next (by rw [ho]), ?_⟩
    dsimp only
    generalize hu : State.log _ _ _ _ = u
    have hpool : u.pool = { s.pool with objs := s.pool.objs.map (PoolObj.auditMark family root leaf) } := by
      rw [← hu, State.log_pool, State.raise_pool]
      rfl
    have hfr : Frame [.plt, .trace, .rings, .led] u (u.objectBad family root stDigestMismatch) :=
      State.objectBad_frame (Frame.refl _ u) (by decide)
    have htp : (u.objectBad family root stDigestMismatch).pool = u.pool := hfr .pool (by decide)
    refine ⟨by rw [htp, hpool], ⟨_, State.poolObj_audited (htp.trans hpool) ho, PoolObj.mem_auditMark leaf (State.poolObj_named ho),
      PoolObj.auditMark_img _ _ _ _⟩, fun hc n p hf hb hsrc hfam hroot => ?_⟩
    have hpl : u.plt = s.plt := by rw [← hu]; simp [State.modPoolAll]
    have hcc : u.noCommit = s.noCommit := by rw [← hu]; simp [State.noCommit, State.modPoolAll]
    have hplates : u.plates n = s.plates n := by rw [State.plates, State.pl, hpl]; rfl
    exact State.objectBad_state _ (hcc.trans hc) (by rw [State.seqFull, State.pl, hpl]; exact hf) (by rw [hplates]; exact hb)
      (by rw [hplates]; exact hsrc) (by rw [hplates]; exact hfam) (by rw [hplates]; exact hroot)

end Sys2Proof

end


section
/-! SUPPORT. The impression directory (R81 to R104): what the shared operations leave of the entries' states. -/

namespace Sys2Proof.Machine

open Sys2Proof

section

variable {k : Field} {R : State → State → Prop} (hR : Respects k R) {s₀ s : State}

include hR

theorem State.dropLines_keeps {i : Fin 256} (hf : k ∉ [.fca]) (h : R s₀ s) : R s₀ (State.dropLines s i) :=
  hR.step h (State.dropLines_frame (Frame.refl _ _) (Field.sub_refl _)) hf

theorem State.modCtl_keeps {n : Fin 128} {f : Ctl → Ctl} (hf : k ∉ [.ctl]) (h : R s₀ s) : R s₀ (State.modCtl s n f) :=
  hR.step h (State.modCtl_frame (Frame.refl _ _) (Field.sub_refl _)) hf

theorem State.transition_keeps {n : Fin 128} {st : ChState} {cause : Cause} (hf : k ∉ [.ctl, .trace, .rings]) (h : R s₀ s) :
    R s₀ (State.transition s n st cause) :=
  hR.step h (State.transition_frame (Frame.refl _ _) (Field.sub_refl _)) hf

theorem State.answerAll_keeps {n : Fin 128} {k2 : AwaitKind → Bool} {st : Status} {info : Nat} {result : List Byte}
    (hf : k ∉ [.ctl, .spdm, .rings, .views, .awaits, .dev]) (h : R s₀ s) : R s₀ (State.answerAll s n k2 st info result) :=
  hR.step h (State.answerAll_frame (Frame.refl _ _) (Field.sub_refl _)) hf

theorem State.stayHeld_keeps {n : Fin 128} (hf : k ∉ [.ctl, .spdm, .rings, .views, .awaits, .dev]) (h : R s₀ s) :
    R s₀ (State.stayHeld s n) :=
  hR.step h (State.stayHeld_frame (Frame.refl _ _) (Field.sub_refl _)) hf

theorem State.modPlt_keeps {n : Fin 128} {f : PlateSt → PlateSt} (hf : k ∉ [.plt]) (h : R s₀ s) : R s₀ (State.modPlt s n f) :=
  hR.step h (State.modPlt_frame (Frame.refl _ _) (Field.sub_refl _)) hf

end

/-! ## The directory's entries -/

/-- From s to t every entry keeps its state, or is free, or taking: entries are freed and takes begin, and nothing else happens. The layout
is as before. -/
def DirMoves (s t : State) : Prop :=
  t.imm.chIn = s.imm.chIn ∧ ∀ k, (t.dirE k).state = (s.dirE k).state ∨ (t.dirE k).state = .free ∨ (t.dirE k).state = .taking

theorem DirMoves.refl (s : State) : DirMoves s s := ⟨rfl, fun _ => .inl rfl⟩

theorem DirMoves.comp {s t u : State} (h : DirMoves s t) (h' : DirMoves t u) : DirMoves s u := ⟨h'.1.trans h.1, fun k => by
  rcases h'.2 k with h1 | h1
  · rw [h1]
    exact h.2 k
  · exact .inr h1⟩

theorem DirMoves.of_frame {fs : List Field} {s t : State} (h : Frame fs s t) (hf : Field.imm ∉ fs) : DirMoves s t :=
  ⟨congrArg (fun v => v.chIn) (h .imm hf), fun k => .inl (congrArg (fun v => (vget v.dir k).state) (h .imm hf))⟩

theorem DirMoves.respects : Respects .imm DirMoves := ⟨DirMoves.refl, DirMoves.comp, DirMoves.of_frame⟩

theorem State.modDir_dir {s₀ s : State} {i : Fin 256} {f : Impression → Impression} (h : DirMoves s₀ s)
    (hf : ∀ e, (f e).state = e.state ∨ (f e).state = .free ∨ (f e).state = .taking) : DirMoves s₀ (s.modDir i f) := by
  refine h.comp ⟨rfl, fun k => ?_⟩
  by_cases hk : k = i
  · subst hk; rw [State.modDir_dirE]; exact hf _
  · exact .inl (congrArg Impression.state (State.modDir_dirE_ne _ _ _ hk))

theorem DirMoves.put_gens {s₀ s : State} {g : SMap Word} (h : DirMoves s₀ s) :
    DirMoves s₀ { s with imm := { s.imm with gens := g } } := h.comp ⟨rfl, fun _ => .inl rfl⟩

theorem State.freeEntry_dir {s₀ s : State} {i : Fin 256} {why : Nat} (h : DirMoves s₀ s) :
    DirMoves s₀ (State.freeEntry s i why) := by
  refine DirMoves.comp h ?_
  clear h
  unfold State.freeEntry
  dsimp -failIfUnchanged -proj only
  repeat' (with_reducible first
    | assumption | apply DirMoves.refl | apply State.dropLines_keeps DirMoves.respects (by decide)
    | (refine State.modDir_dir ?_ (fun _ => .inr (.inl rfl))) | apply State.log_keeps DirMoves.respects (by decide) | intro _ | split)

theorem State.allocExtents_dir {s₀ s : State} {i : Fin 256} {leaves : Nat} (h : DirMoves s₀ s) :
    DirMoves s₀ (State.allocExtents s i leaves) := by
  refine DirMoves.comp h ?_
  clear h
  unfold State.allocExtents
  dsimp -failIfUnchanged -proj only
  repeat' (with_reducible first
    | assumption | apply DirMoves.refl | (refine State.modDir_dir ?_ (fun _ => .inl rfl)) | apply DirMoves.foldl | intro _ | split
    | apply DirMoves.put_gens)

theorem State.makeRoom_dir {s₀ s t : State} {need fuel : Nat} {i : Fin 256} (he : State.makeRoom need fuel s = some (i, t))
    (h : DirMoves s₀ s) : DirMoves s₀ t := by
  induction fuel generalizing s with
  | zero => simp [State.makeRoom] at he
  | succ k ih =>
    unfold State.makeRoom at he
    split at he
    · obtain ⟨-, rfl⟩ := Prod.mk.inj (Option.some.inj he)
      exact h
    · split at he
      · exact ih he (State.freeEntry_dir h)
      · cases he

theorem State.beginTake_dir {s₀ s t : State} {m : List Byte} {i : Fin 256} (he : State.beginTake s m = .inl (i, t)) (h : DirMoves s₀ s) :
    DirMoves s₀ t := by
  unfold State.beginTake at he
  split at he
  · cases he
  · split at he
    · cases he
    · split at he
      · cases he
      · rename_i hm
        obtain ⟨-, rfl⟩ := Prod.mk.inj (Sum.inl.inj he)
        exact State.allocExtents_dir (State.modDir_dir (State.makeRoom_dir hm h) fun _ => .inr (.inr rfl))

theorem State.takeAndWait_dir {s₀ s : State} {man : List Byte} (h : DirMoves s₀ s) : DirMoves s₀ (s.takeAndWait man).2 := by
  unfold State.takeAndWait
  split
  · rename_i hb
    exact State.beginTake_dir hb h
  · exact h

theorem State.checkPair_dir {s₀ s : State} {n : Fin 128} {man : List Byte} (h : DirMoves s₀ s) :
    DirMoves s₀ ((State.checkPair s n man).2) := by
  refine DirMoves.comp h ?_
  clear h
  unfold State.checkPair
  dsimp -failIfUnchanged -proj only
  repeat' (with_reducible first
    | assumption | apply DirMoves.refl | apply State.takeAndWait_dir | apply State.modCtl_keeps DirMoves.respects (by decide)
    | apply State.freeEntry_dir | intro _ | split)

theorem State.checkLeaves_dir {s₀ s : State} {n : Fin 128} {p : PlateId} (h : DirMoves s₀ s) :
    DirMoves s₀ ((State.checkLeaves s n p).2) := by
  refine DirMoves.comp h ?_
  clear h
  unfold State.checkLeaves
  dsimp -failIfUnchanged -proj only
  repeat' (with_reducible first
    | assumption | apply DirMoves.refl | apply State.checkPair_dir | intro _ | split)

theorem State.checkPlate_dir {s₀ s : State} {n : Fin 128} {p : PlateId} (h : DirMoves s₀ s) :
    DirMoves s₀ ((State.checkPlate s n p).2) := by
  refine DirMoves.comp h ?_
  clear h
  unfold State.checkPlate
  dsimp -failIfUnchanged -proj only
  repeat' (with_reducible first
    | assumption | apply DirMoves.refl | apply State.checkLeaves_dir | intro _ | split)

theorem State.unbind_dir {s₀ s : State} {n : Fin 128} (h : DirMoves s₀ s) :
    DirMoves s₀ (State.unbind s n) := by
  refine DirMoves.comp h ?_
  clear h
  unfold State.unbind
  dsimp -failIfUnchanged -proj only
  repeat' (with_reducible first
    | assumption | apply DirMoves.refl | apply State.modCtl_keeps DirMoves.respects (by decide)
    | (refine State.modDir_dir ?_ (fun _ => .inl rfl)) | intro _ | split)

theorem State.enterRecoveryState_dir {s₀ s : State} {n : Fin 128} (h : DirMoves s₀ s) :
    DirMoves s₀ (State.enterRecoveryState s n) := by
  refine DirMoves.comp h ?_
  clear h
  unfold State.enterRecoveryState
  dsimp -failIfUnchanged -proj only
  repeat' (with_reducible first
    | assumption | apply DirMoves.refl | apply State.modMbx_keeps DirMoves.respects (by decide) | apply State.unbind_dir
    | apply State.transition_keeps DirMoves.respects (by decide) | apply State.raise_keeps DirMoves.respects (by decide)
    | apply State.modWdg_keeps DirMoves.respects (by decide) | apply State.answerAll_keeps DirMoves.respects (by decide)
    | apply State.modCtl_keeps DirMoves.respects (by decide) | intro _ | split)

theorem State.bind_dir {s₀ s : State} {n : Fin 128} {i : Fin 256} {p : PlateId} (h : DirMoves s₀ s) :
    DirMoves s₀ (State.bind s n i p) := by
  refine DirMoves.comp h ?_
  clear h
  unfold State.bind
  dsimp -failIfUnchanged -proj only
  repeat' (with_reducible first
    | assumption | apply DirMoves.refl | apply State.unbind_dir | apply State.modCtl_keeps DirMoves.respects (by decide) | intro _
    | split)

theorem State.selEnd_dir {s₀ s : State} {n : Fin 128} {w : SelWait} {t3 : PTable} {tie : Bool} {run : Option (PlateId × Fin 256)} {attempt : Bool} (h : DirMoves s₀ s) :
    DirMoves s₀ (State.selEnd s n w t3 tie run attempt) := by
  refine DirMoves.comp h ?_
  clear h
  unfold State.selEnd
  dsimp -failIfUnchanged -proj only
  repeat' (with_reducible first
    | assumption | apply DirMoves.refl | apply State.enterRecoveryState_dir | apply State.bind_dir
    | apply State.answerAll_keeps DirMoves.respects (by decide) | apply State.commitPlates_keeps DirMoves.respects (by decide)
    | apply State.beginAttempt_keeps DirMoves.respects (by decide) | apply State.unbind_dir
    | apply State.modCtl_keeps DirMoves.respects (by decide) | apply State.raise_keeps DirMoves.respects (by decide) | intro _ | split)

theorem State.selectFrom_dir {s₀ s : State} {n : Fin 128} {fuel : Nat} {w : SelWait} (h : DirMoves s₀ s) :
    DirMoves s₀ (State.selectFrom n fuel w s) := by
  induction fuel generalizing w s with
  | zero => exact h
  | succ k ih =>
    unfold State.selectFrom
    dsimp -proj only
    repeat' (with_reducible first
      | assumption | apply ih | apply State.selNote_keeps DirMoves.respects (by decide) | apply State.checkPlate_dir
      | apply State.modCtl_keeps DirMoves.respects (by decide) | apply State.selEnd_dir | split)

theorem State.select_dir {s₀ s : State} {n : Fin 128} (h : DirMoves s₀ s) :
    DirMoves s₀ (State.select s n) := by
  refine DirMoves.comp h ?_
  clear h
  unfold State.select
  dsimp -failIfUnchanged -proj only
  repeat' (with_reducible first
    | assumption | apply DirMoves.refl | apply State.completeAdvances_keeps DirMoves.respects (by decide) | apply State.selectFrom_dir
    | apply State.modCtl_keeps DirMoves.respects (by decide) | intro _ | split)

theorem State.startTaking_dir {s₀ s : State} {n : Fin 128} {cause : Cause} {asked : Bool} (h : DirMoves s₀ s) :
    DirMoves s₀ (State.startTaking s n cause asked) := by
  refine DirMoves.comp h ?_
  clear h
  unfold State.startTaking
  dsimp -failIfUnchanged -proj only
  repeat' (with_reducible first
    | assumption | apply DirMoves.refl | apply State.select_dir | apply State.unbind_dir
    | apply State.transition_keeps DirMoves.respects (by decide) | apply State.stayHeld_keeps DirMoves.respects (by decide)
    | apply State.modCtl_keeps DirMoves.respects (by decide) | intro _ | split)

theorem State.takeKept_dir {s₀ s : State} {n : Fin 128} {cause : Cause} (h : DirMoves s₀ s) :
    DirMoves s₀ (State.takeKept s n cause) := by
  refine DirMoves.comp h ?_
  clear h
  unfold State.takeKept
  dsimp -failIfUnchanged -proj only
  repeat' (with_reducible first
    | assumption | apply DirMoves.refl | apply State.startTaking_dir | apply State.transition_keeps DirMoves.respects (by decide)
    | apply State.modCtl_keeps DirMoves.respects (by decide) | intro _ | split)

theorem State.armFail_dir {s₀ s : State} {n : Fin 128} {st : Status} (h : DirMoves s₀ s) :
    DirMoves s₀ (State.armFail s n st) := by
  refine DirMoves.comp h ?_
  clear h
  unfold State.armFail
  dsimp -failIfUnchanged -proj only
  repeat' (with_reducible first
    | assumption | apply DirMoves.refl | apply State.select_dir | apply State.takeKept_dir
    | apply State.endArming_keeps DirMoves.respects (by decide) | intro _ | split)

theorem State.armCommit_dir {s₀ s : State} {n : Fin 128} {a : Arming} {i : Fin 256} (h : DirMoves s₀ s) :
    DirMoves s₀ (State.armCommit s n a i) := by
  refine DirMoves.comp h ?_
  clear h
  unfold State.armCommit
  dsimp -failIfUnchanged -proj only
  repeat' (with_reducible first
    | assumption | apply DirMoves.refl | apply State.modPlt_keeps DirMoves.respects (by decide) | apply State.bind_dir
    | apply State.startTaking_dir | apply State.beginAttempt_keeps DirMoves.respects (by decide)
    | apply State.commitPlates_keeps DirMoves.respects (by decide) | apply State.modCtl_keeps DirMoves.respects (by decide) | intro _
    | split)

theorem State.armJudge_dir {s₀ s : State} {n : Fin 128} {a : Arming} {r : Chk} (h : DirMoves s₀ s) :
    DirMoves s₀ (State.armJudge s n a r) := by
  refine DirMoves.comp h ?_
  clear h
  unfold State.armJudge
  dsimp -failIfUnchanged -proj only
  repeat' (with_reducible first
    | assumption | apply DirMoves.refl | apply State.verifyFailed_keeps DirMoves.respects (by decide) | apply State.armFail_dir
    | apply State.armCommit_dir | apply State.raise_keeps DirMoves.respects (by decide)
    | apply State.commitPlates_keeps DirMoves.respects (by decide) | apply State.modCtl_keeps DirMoves.respects (by decide) | intro _
    | split | (refine DirMoves.comp ?_ (DirMoves.of_frame (Frame.put_led (fs := [.led]) (Frame.refl _ _) (by decide)) (by decide))))

theorem State.reselect_dir {s₀ s : State} {n : Fin 128} {w : SelWait} (h : DirMoves s₀ s) :
    DirMoves s₀ (State.reselect s n w) := by
  refine DirMoves.comp h ?_
  clear h
  unfold State.reselect
  dsimp -failIfUnchanged -proj only
  repeat' (with_reducible first
    | assumption | apply DirMoves.refl | apply State.selectFrom_dir | intro _ | split)

theorem State.armStep_dir {s₀ s : State} {n : Fin 128} (h : DirMoves s₀ s) :
    DirMoves s₀ (State.armStep s n) := by
  refine DirMoves.comp h ?_
  clear h
  unfold State.armStep
  dsimp -failIfUnchanged -proj only
  repeat' (with_reducible first
    | assumption | apply DirMoves.refl | apply State.armJudge_dir | apply State.checkPlate_dir
    | apply State.modCtl_keeps DirMoves.respects (by decide) | intro _ | split)

theorem State.resume_dir {s₀ s : State} {n : Fin 128} {out : Option Chk} (h : DirMoves s₀ s) :
    DirMoves s₀ (State.resume s n out) := by
  refine DirMoves.comp h ?_
  clear h
  unfold State.resume
  dsimp -failIfUnchanged -proj only
  repeat' (with_reducible first
    | assumption | apply DirMoves.refl | apply State.armJudge_dir | apply State.selNote_keeps DirMoves.respects (by decide)
    | apply State.reselect_dir | apply State.armStep_dir | apply State.modCtl_keeps DirMoves.respects (by decide) | intro _ | split)

theorem State.resumeEntry_dir {s₀ s : State} {i : Nat} {out : Option Chk} (h : DirMoves s₀ s) :
    DirMoves s₀ (State.resumeEntry s i out) := by
  refine DirMoves.comp h ?_
  clear h
  unfold State.resumeEntry
  dsimp -failIfUnchanged -proj only
  repeat' (with_reducible first
    | assumption | apply DirMoves.refl | apply State.forChans_keeps DirMoves.respects | apply State.resume_dir | intro _ | split)

theorem State.takeFails_dir {s₀ s : State} {i : Fin 256} {st : Status} {leaf : Nat} (h : DirMoves s₀ s) :
    DirMoves s₀ (State.takeFails s i st leaf) := by
  refine DirMoves.comp h ?_
  clear h
  unfold State.takeFails
  dsimp -failIfUnchanged -proj only
  repeat' (with_reducible first
    | assumption | apply DirMoves.refl | apply State.log_keeps DirMoves.respects (by decide) | apply State.freeEntry_dir
    | apply State.resumeEntry_dir | intro _ | split)

theorem State.retakeTaking_dir {s₀ s : State} {i : Fin 256} (h : DirMoves s₀ s) :
    DirMoves s₀ (State.retakeTaking s i) := by
  refine DirMoves.comp h ?_
  clear h
  unfold State.retakeTaking
  dsimp -failIfUnchanged -proj only
  repeat' (with_reducible first
    | assumption | apply DirMoves.refl | apply State.takeFails_dir | apply State.allocExtents_dir
    | (refine State.modDir_dir ?_ (fun _ => .inl rfl)) | intro _ | split)

theorem State.evictForLayout_dir {s₀ s : State} {fuel : Nat} (h : DirMoves s₀ s) : DirMoves s₀ (State.evictForLayout fuel s) := by
  induction fuel generalizing s with
  | zero => exact h
  | succ k ih =>
    unfold State.evictForLayout
    split
    · exact h
    · split
      · exact ih (State.freeEntry_dir h)
      · exact h


/-! ## Entries freed, and entries whose state a list of changes sets -/

theorem State.freeEntry_dirE (s : State) (i : Fin 256) (why : Nat) (k : Fin 256) :
    (s.freeEntry i why).dirE k = if k = i then Impression.free else s.dirE k := by
  have h : (s.freeEntry i why).imm = (s.modDir i fun _ => Impression.free).imm := State.log_imm _ _ _ _
  rw [State.dirE, h]
  split
  · rename_i hk
    subst hk
    exact State.modDir_dirE _ _ _
  · rename_i hk
    exact State.modDir_dirE_ne _ _ _ hk

/-- Evictions leave each entry as it was, or free. -/
theorem State.evictForLayout_dirE (s : State) (fuel : Nat) (k : Fin 256) :
    (State.evictForLayout fuel s).dirE k = s.dirE k ∨ (State.evictForLayout fuel s).dirE k = Impression.free := by
  induction fuel generalizing s with
  | zero => exact .inl rfl
  | succ m ih =>
    unfold State.evictForLayout
    split
    · exact .inl rfl
    · split
      · rename_i j _
        rcases ih (s.freeEntry j 2) with h | h
        · rw [h, State.freeEntry_dirE]
          split
          · exact .inr rfl
          · exact .inl rfl
        · exact .inr h
      · exact .inl rfl

/-- A list of entries is changed by an idempotent change. -/
theorem State.forAll_modDir_dirE (s : State) (l : List (Fin 256)) {f : Impression → Impression} (hf : ∀ e, f (f e) = f e) (k : Fin 256) :
    (s.forAll l fun i s => s.modDir i f).dirE k = if k ∈ l then f (s.dirE k) else s.dirE k := by
  unfold State.forAll
  induction l generalizing s with
  | nil => rfl
  | cons i l ih =>
    rw [List.foldl_cons, ih]
    by_cases hi : k = i
    · subst hi
      rw [State.modDir_dirE, hf, ite_self, if_pos List.mem_cons_self]
    · rw [State.modDir_dirE_ne _ _ _ hi]
      simp only [List.mem_cons, hi, false_or]

theorem getLsbD_putBit {w : Nat} (x : BitVec w) {i : Nat} (b : Bool) (hi : i < w) : (putBit x i b).getLsbD i = b := by
  have hbit : (BitVec.ofNat w (2 ^ i)).getLsbD i = true := by
    rw [BitVec.getLsbD_ofNat, Nat.testBit_two_pow_self, decide_eq_true hi]
    rfl
  cases b with
  | false =>
    rw [putBit, if_neg Bool.false_ne_true, BitVec.getLsbD_and, BitVec.getLsbD_not, hbit]
    simp
  | true =>
    rw [putBit, if_pos rfl, BitVec.getLsbD_or, hbit, Bool.or_true]

end Sys2Proof.Machine

namespace Sys2Proof.Machine

open Sys2Proof

/-! ## An image memory channel leaves service (R104) -/

/-- An impression to be retaken into the layout of seven channels. -/
def Impression.lose (e : Impression) : Impression := { e with state := .relocating, lost := true, badLeaves := [] }

/-- The entries that a lost channel makes relocating. -/
def State.heldEntries (s : State) : List (Fin 256) :=
  (List.finRange 256).filter fun i => (s.dirE i).state = .resident || (s.dirE i).state = .damaged || (s.dirE i).state = .relocating

/-- The layout without the channel, the idle impressions evicted for room and the takes in progress gone on. -/
def State.layoutWithout (s : State) (c : Fin 8) : State :=
  let s := { s with imm := { s.imm with chIn := putBit s.imm.chIn c.1 false } }.unitOut unitImage c.1 outChannel
  let s := s.evictForLayout 257
  s.forAll ((List.finRange 256).filter fun i => (s.dirE i).state = .taking) fun i s => s.retakeTaking i

/-- What follows once the layout has changed. -/
def State.relocateHeld (s : State) : State :=
  let held := s.heldEntries
  let s := s.forAll held fun i s => s.modDir i Impression.lose
  let s := { s with imm := { s.imm with relocating := !held.isEmpty } }
  let s := s.forAll held fun i s => s.log 0x0010 devCh [5, i.1, ofLe (s.dirE i).family, ofLe (s.dirE i).root]
  (s.forAll s.noRoom fun i s => s.holdBound i).areasLost

theorem exec_immChannelOut {s : State} {c : Fin 8} (h : s.imm.chIn.getLsbD c.1 = true) :
    exec (.immChannelOut c) s = .next (s.layoutWithout c).relocateHeld := by
  show execImmChannelOut c s = _
  unfold execImmChannelOut State.layoutWithout State.relocateHeld State.heldEntries Impression.lose
  simp only [h, Bool.not_true, Bool.false_eq_true, if_false]

/-- Which states an entry that was RESIDENT or DAMAGED has in the new layout. -/
theorem State.layoutWithout_state {s : State} {c : Fin 8} {k : Fin 256} (hk : (s.dirE k).state = .resident ∨ (s.dirE k).state = .damaged) :
    ((s.layoutWithout c).dirE k).state = (s.dirE k).state ∨ ((s.layoutWithout c).dirE k).state = .free ∨
      ((s.layoutWithout c).dirE k).state = .taking ∧ ∃ j, (s.dirE j).state = .taking := by
  unfold State.layoutWithout
  dsimp only
  generalize hu : State.unitOut _ unitImage c.1 outChannel = u
  have hdir : ∀ k, u.dirE k = s.dirE k := fun k => by rw [← hu, State.unitOut, State.dirE, State.raise_imm]; rfl
  have hev := fun k => u.evictForLayout_dirE 257 k
  simp only [hdir] at hev
  generalize State.evictForLayout 257 u = v at hev
  by_cases hj : ∃ j, (s.dirE j).state = .taking
  · have hm : DirMoves v _ := State.forAll_keeps (l := (List.finRange 256).filter fun i => (v.dirE i).state = .taking) DirMoves.respects
      (DirMoves.refl v) fun i w => State.retakeTaking_dir (i := i) (DirMoves.refl w)
    rcases hm.2 k with h | h | h
    · rcases hev k with h' | h' <;> rw [h, h']
      · exact .inl rfl
      · exact .inr (.inl rfl)
    · exact .inr (.inl h)
    · exact .inr (.inr ⟨h, hj⟩)
  · have hnone : ((List.finRange 256).filter fun i => (v.dirE i).state = .taking) = [] := by
      refine List.filter_eq_nil_iff.mpr fun i _ => ?_
      rw [decide_eq_true_eq]
      rcases hev i with h | h <;> rw [h]
      · exact fun he => hj ⟨i, he⟩
      · nofun
    rw [hnone]
    rcases hev k with h | h
    · exact .inl (congrArg _ h)
    · exact .inr (.inl (congrArg _ h))

theorem State.layoutWithout_chIn (s : State) (c : Fin 8) : (s.layoutWithout c).imm.chIn.getLsbD c.1 = false := by
  unfold State.layoutWithout
  dsimp only
  generalize hu : State.unitOut _ unitImage c.1 outChannel = u
  have hm : DirMoves u _ := State.forAll_keeps (l := (List.finRange 256).filter fun i => ((State.evictForLayout 257 u).dirE i).state = .taking)
    DirMoves.respects (State.evictForLayout_dir (fuel := 257) (DirMoves.refl u)) fun i w => State.retakeTaking_dir (i := i) (DirMoves.refl w)
  rw [hm.1, ← hu, State.unitOut, State.raise_imm]
  exact getLsbD_putBit _ _ c.2

/-- The areas' loss leaves the image memory. -/
theorem State.relocateHeld_imm (s : State) : s.relocateHeld.imm =
    { (s.forAll s.heldEntries fun i s => s.modDir i Impression.lose).imm with relocating := !s.heldEntries.isEmpty } := by
  unfold State.relocateHeld
  dsimp only
  have hlog : ∀ (u : State) (l : List (Fin 256)) (f : Fin 256 → State → List Nat),
      (u.forAll l fun i v => v.log 0x0010 devCh (f i v)).imm = u.imm := fun u l f =>
    (State.forAll_frame (L := [.trace]) (Frame.refl _ u) fun _ v => State.log_frame (Frame.refl _ v) (by decide)) .imm (by decide)
  have hhold : ∀ (u : State) (l : List (Fin 256)), (u.forAll l fun i v => v.holdBound i).areasLost.imm = u.imm := fun u l => by
    have h : Frame [.areas, .ports, .stn, .ctl, .wdg, .plat, .trace, .spdm, .rings, .views, .awaits, .dev] u
        (u.forAll l fun i v => v.holdBound i).areasLost :=
      State.areasLost_frame (State.forAll_frame (Frame.refl _ u) fun _ v => State.holdBound_frame (Frame.refl _ v) (by decide)) (by decide)
    exact h .imm (by decide)
  rw [hhold, hlog]

/-- An entry that was RESIDENT or DAMAGED is relocating and lost. -/
theorem State.relocateHeld_entry {s : State} {k : Fin 256} :
    s.relocateHeld.dirE k = if k ∈ s.heldEntries then (s.dirE k).lose else s.dirE k := by
  rw [State.dirE, State.relocateHeld_imm]
  exact s.forAll_modDir_dirE s.heldEntries (f := Impression.lose) (fun _ => rfl) k

theorem State.mem_heldEntries {s : State} {k : Fin 256} :
    k ∈ s.heldEntries ↔ (s.dirE k).state = .resident ∨ (s.dirE k).state = .damaged ∨ (s.dirE k).state = .relocating := by
  simp [State.heldEntries, or_assoc]

/-- The areas' loss leaves no SCRATCH area (R104). -/
theorem State.areasLost_scratch (s : State) (n : Fin 128) : (s.areasLost.area n).scratch = [] := by
  unfold State.areasLost
  have hraise : ∀ (m : Fin 128) (bs : List Nat) (u : State), (u.forAll bs fun b u => u.raise 0x0108 m.1 [b]).areas = u.areas := fun m bs u =>
    (State.forAll_frame (L := [.rings]) (Frame.refl _ u) fun _ v => State.raise_frame (Frame.refl _ v) (by decide)) .areas (by decide)
  obtain ⟨u, -, ht⟩ := State.forChans_turn (R := fun s t => t.area n = s.area n) (fun _ => rfl) (fun _ _ _ h h' => h'.trans h) s n
    (f := fun n s => (s.modAreas n fun x =>
      { (List.range ((s.profOf n).keepBlk * 16)).foldl (fun x b => x.restoreBlock s.keys.keepSalt b) x with scratch := [] }).forAll
        (List.range ((s.profOf n).keepBlk * 16)) fun b s => s.raise 0x0108 n.1 [b])
    (fun k hk u => by rw [State.area, hraise]; exact State.modAreas_area_ne _ _ _ (Ne.symm hk))
  refine (congrArg Areas.scratch ht).trans ?_
  rw [State.area, hraise]
  exact congrArg Areas.scratch (State.modAreas_area _ _ _)

theorem State.relocateHeld_chIn (s : State) : s.relocateHeld.imm.chIn = s.imm.chIn := by
  rw [State.relocateHeld_imm]
  have h : ∀ (l : List (Fin 256)) (u : State), (u.forAll l fun i s => s.modDir i Impression.lose).imm.chIn = u.imm.chIn := by
    intro l
    induction l with
    | nil => exact fun _ => rfl
    | cons i l ih => exact fun u => ih (u.modDir i Impression.lose)
  exact h s.heldEntries s

/-! ## The farm (R103) -/

@[simp] theorem State.unitOut_farm (s : State) (kind index reason : Nat) : (s.unitOut kind index reason).farm = s.farm := by simp [State.unitOut]

@[simp] theorem State.unitBack_farm (s : State) (kind index : Nat) : (s.unitBack kind index).farm = s.farm := by simp [State.unitBack]

theorem State.katFailed_farm (s : State) (code : Nat) :
    (s.katFailed code).farm = { s.farm with lastFailed := BitVec.ofNat 8 code, fails := satInc s.farm.fails } := State.log_farm _ _ _ _

/-- Bits out of which one is taken twice. -/
theorem putBit_false_of_clear {w : Nat} {x : BitVec w} {i : Nat} (h : x.getLsbD i = false) : putBit x i false = x := by
  apply BitVec.eq_of_getLsbD_eq
  intro k hk
  rw [putBit, if_neg Bool.false_ne_true, BitVec.getLsbD_and, BitVec.getLsbD_not, BitVec.getLsbD_ofNat, decide_eq_true hk, Bool.true_and,
    Bool.true_and, Nat.testBit_two_pow]
  by_cases hki : i = k
  · subst hki
    rw [h, Bool.false_and]
  · rw [decide_eq_false hki, Bool.not_false, Bool.and_true]

/-- A lane out of service, whether it was in service or not. -/
theorem State.laneOut_farm (s : State) (i : Fin 40) (reason : Nat) :
    (s.laneOut i reason).farm = { s.farm with lanes := putBit s.farm.lanes i.1 false } := by
  unfold State.laneOut
  cases h : s.farm.lanes.getLsbD i.1 with
  | true => rw [if_pos rfl, State.unitOut_farm]
  | false => rw [if_neg Bool.false_ne_true, putBit_false_of_clear h]

/-- A pipeline out of service. -/
theorem State.pipeOut_farm (s : State) (j : Fin 12) (reason : Nat) : (s.pipeOut j reason).farm.aesIn.getLsbD j.1 = false ∧
    (s.pipeOut j reason).farm.fails = s.farm.fails ∧ (s.pipeOut j reason).farm.lastFailed = s.farm.lastFailed := by
  unfold State.pipeOut
  cases h : s.farm.aesIn.getLsbD j.1 with
  | true =>
    rw [if_pos rfl]
    dsimp only
    rw [State.unitOut_farm]
    exact ⟨getLsbD_putBit _ _ j.2, rfl, rfl⟩
  | false =>
    rw [if_neg Bool.false_ne_true]
    exact ⟨h, rfl, rfl⟩

/-! ## KEEP writeback (R97) -/

theorem SMap.get?_del {α : Type} (m : SMap α) (a : Nat) : SMap.get? (SMap.del m a) a = none := by
  induction m with
  | nil => rfl
  | cons e m ih =>
    unfold SMap.del
    rw [List.filter_cons]
    split
    · rename_i he
      rw [SMap.get?, if_neg (by simpa using he)]
      exact ih
    · exact ih

/-- The areas after a writeback of a block under a key. -/
def Areas.writeback (a : Areas) (blk key : Nat) : Areas :=
  { a with
    dirty := SMap.del a.dirty blk,
    copies := SMap.put a.copies blk
      (((SMap.get? a.copies blk).getD { c0 := none, c1 := none }).store (some key) (a.keep.readList (4096 * blk) 4096) key) }

theorem exec_keepWriteback {s : State} {n : Fin 128} {blk since key : Nat} (hd : SMap.get? (s.area n).dirty blk = some since)
    (hk : s.keys.keepSalt = some key) (hp : s.poolWrites = true) :
    exec (.keepWriteback n blk) s = .next (s.modAreas n fun a => a.writeback blk key) := by
  refine congrArg Host.Outcome.next ?_
  simp only [hd, hk, hp, if_true] <;> rfl

/-- A snapshot is one of the two copies. -/
theorem KeepCopies.store_copy (salt : Option Nat) (k : KeepCopies) (bytes : List Byte) (key : Nat) :
    ∃ c : KeepCopy, ((k.store salt bytes key).c0 = some c ∨ (k.store salt bytes key).c1 = some c) ∧ c.salt = key ∧ c.bytes = bytes := by
  unfold KeepCopies.store
  dsimp only
  split
  · exact ⟨_, .inr rfl, rfl, rfl⟩
  · exact ⟨_, .inl rfl, rfl, rfl⟩

theorem Areas.writeback_fields (a : Areas) (blk key : Nat) :
    (a.writeback blk key).keep = a.keep ∧ SMap.get? (a.writeback blk key).dirty blk = none ∧
      ∃ cs cp, SMap.get? (a.writeback blk key).copies blk = some cs ∧ (cs.c0 = some cp ∨ cs.c1 = some cp) ∧ cp.salt = key ∧
        cp.bytes = a.keep.readList (4096 * blk) 4096 := by
  obtain ⟨cp, hcp⟩ := KeepCopies.store_copy (some key) ((SMap.get? a.copies blk).getD { c0 := none, c1 := none })
    (a.keep.readList (4096 * blk) 4096) key
  exact ⟨rfl, SMap.get?_del _ _, _, cp, by rw [Areas.writeback, SMap.get?_put, if_pos rfl], hcp⟩

end Sys2Proof.Machine

namespace Sys2Proof

open Sys2Proof.Machine

/-- Settles O36, unit by unit; a lost memory channel by the entries that the new layout leaves relocating. -/
theorem imageUnitsAndCachesAreKept : Obligations.ImageUnitsAndCachesAreKept := by
  intro s m n i j c blk v
  refine ⟨?laneBad, ?laneGood, ?pipeBad, ?pipeGood, fun hc => ?memory, fun since key hd hk hp => ?keep, fun hr => ?pause, fun hr => ⟨?flush, ?clear⟩⟩
  case memory =>
    refine ⟨_, exec_immChannelOut hc, ?_, fun k hk => ?_, fun n => State.areasLost_scratch _ n⟩
    · rw [State.relocateHeld_chIn]
      exact s.layoutWithout_chIn c
    · rw [State.relocateHeld_entry]
      rcases State.layoutWithout_state (c := c) hk with h | h | ⟨h, hj⟩
      · have hm : k ∈ (s.layoutWithout c).heldEntries := by
          rw [State.mem_heldEntries, h]
          exact hk.elim .inl fun hd => .inr (.inl hd)
        rw [if_pos hm]
        exact .inr (.inl ⟨rfl, rfl⟩)
      · refine .inl ?_
        rw [if_neg (by rw [State.mem_heldEntries, h]; decide), h]
      · refine .inr (.inr ⟨?_, hj⟩)
        rw [if_neg (by rw [State.mem_heldEntries, h]; decide), h]
  case laneBad => exact ⟨(s.katFailed i.1).laneOut i outTest, rfl, by rw [State.laneOut_farm]; exact getLsbD_putBit _ _ i.2, by rw [State.laneOut_farm, State.katFailed_farm],
    by rw [State.laneOut_farm, State.katFailed_farm]⟩
  case laneGood =>
    refine ⟨_, rfl, ?_⟩
    dsimp only
    cases h : s.farm.lanes.getLsbD i.1 with
    | true => exact ⟨h, rfl⟩
    | false =>
      rw [if_pos rfl, if_neg Bool.false_ne_true, State.unitBack_farm]
      exact ⟨getLsbD_putBit _ _ i.2, rfl⟩
  case pipeBad =>
    obtain ⟨hin, hf, hl⟩ := (s.katFailed (0x40 + j.1)).pipeOut_farm j outTest
    exact ⟨(s.katFailed (0x40 + j.1)).pipeOut j outTest, rfl, hin, by rw [hf, State.katFailed_farm], by rw [hl, State.katFailed_farm]⟩
  case pipeGood =>
    refine ⟨_, rfl, ?_⟩
    dsimp only
    cases h : s.farm.aesIn.getLsbD j.1 with
    | true => exact ⟨h, rfl⟩
    | false =>
      rw [if_pos rfl, if_neg Bool.false_ne_true, State.pipeBack, State.unitBack_farm]
      exact ⟨getLsbD_putBit _ _ j.2, rfl⟩
  case keep =>
    obtain ⟨hkeep, hdel, hcop⟩ := Areas.writeback_fields (s.area n) blk key
    refine ⟨_, exec_keepWriteback hd hk hp, ?_, ?_, ?_⟩ <;> rw [State.modAreas_area]
    · exact hkeep
    · exact hdel
    · exact hcop
  case pause => exact congrArg Host.Outcome.next ((State.regW_reaches hr).trans (by simp [field, clampTo]))
  case flush => exact congrArg Host.Outcome.next (State.regW_reaches hr)
  case clear => exact congrArg Host.Outcome.next (State.regW_reaches hr)

end Sys2Proof

end


section
/-! SUPPORT. Takes (R77, R80, R81): what the end of a take leaves of the directory. -/

namespace Sys2Proof.Machine

open Sys2Proof

/-- A change of every channel that leaves the state as it is at each channel's turn. -/
theorem State.forChans_eq {s : State} {f : Fin 128 → State → State} (h : ∀ n, f n s = s) : s.forChans f = s := by
  have hl : ∀ l : List (Fin 128), l.foldl (fun s n => f n s) s = s := by
    intro l
    induction l with
    | nil => rfl
    | cons n l ih => rw [List.foldl_cons, h n, ih]
  exact hl _

/-- Nothing goes on where no selection waits for the entry. -/
theorem State.resumeEntry_unclaimed {s : State} {i : Fin 256} (h : s.claimed i = false) (out : Option Chk) : s.resumeEntry i.1 out = s := by
  refine State.forChans_eq fun n => ?_
  have hn := List.any_eq_false.mp h n (List.mem_finRange n)
  split
  · rename_i w hw
    rw [hw] at hn
    exact if_neg (by simpa using hn)
  · rfl

/-- Whether an entry is claimed is a matter of the channels' control states. -/
theorem State.claimed_congr {s t : State} (h : t.ctl = s.ctl) (i : Fin 256) : t.claimed i = s.claimed i := by
  simp only [State.claimed, State.ch, h]

/-- The parts that a take's accounts change: lanes that leave service and rebuilt leaves. -/
theorem State.takeAccounts_frame (s : State) (e : Impression) (ev : TakeEv) :
    Frame [.farm, .pool, .rings] s ((s.lanesCorrected ev).takeRebuilt e ev) :=
  State.takeRebuilt_frame (State.lanesCorrected_frame (Frame.refl _ s) (by decide)) (by decide)

/-- A take that fails frees its entry and, where no selection waits for it, changes no other. -/
theorem State.takeFails_dirE {s : State} {i : Fin 256} (hc : s.claimed i = false) (st : Status) (leaf : Nat) (k : Fin 256) :
    (s.takeFails i st leaf).dirE k = if k = i then Impression.free else s.dirE k := by
  have hfree : Frame [.imm, .fca, .trace] s (s.freeEntry i 1) := State.freeEntry_frame (Frame.refl _ s) (by decide)
  have hctl : (s.freeEntry i 1).ctl = s.ctl := hfree .ctl (by decide)
  unfold State.takeFails
  dsimp only
  split
  · rw [State.resumeEntry_unclaimed ((State.claimed_congr hctl i).trans hc), State.freeEntry_dirE]
  · rw [State.resumeEntry_unclaimed ((State.claimed_congr (by rw [State.log_ctl, hctl]) i).trans hc), State.dirE, State.log_imm]
    exact State.freeEntry_dirE _ _ _ _

/-- The accounts of a take change nothing that judges its leaves. -/
theorem State.takeAccounts_take (s : State) (e : Impression) (ev : TakeEv) (i : Fin 256) :
    ((s.lanesCorrected ev).takeRebuilt e ev).dirE = s.dirE ∧ ((s.lanesCorrected ev).takeRebuilt e ev).claimed i = s.claimed i := by
  have h := s.takeAccounts_frame e ev
  have himm : ((s.lanesCorrected ev).takeRebuilt e ev).imm = s.imm := h .imm (by decide)
  exact ⟨funext fun k => congrArg (fun v : ImageMem => vget v.dir k) himm, State.claimed_congr (h .ctl (by decide)) i⟩

/-- From s to t the pool delivers the same leaves: the same objects, and channels in the same states. -/
structure SameReads (s t : State) : Prop where
  objs : t.pool.objs = s.pool.objs
  mapBad : t.pool.mapBad = s.pool.mapBad
  chan : ∀ k, (vget t.pool.chans k).state = (vget s.pool.chans k).state

theorem SameReads.refl (s : State) : SameReads s s := ⟨rfl, rfl, fun _ => rfl⟩

theorem SameReads.comp {s t u : State} (h : SameReads s t) (h' : SameReads t u) : SameReads s u :=
  ⟨h'.objs.trans h.objs, h'.mapBad.trans h.mapBad, fun k => (h'.chan k).trans (h.chan k)⟩

theorem SameReads.of_frame {fs : List Field} {s t : State} (h : Frame fs s t) (hf : Field.pool ∉ fs) : SameReads s t :=
  have hp : t.pool = s.pool := h .pool hf
  ⟨by rw [hp], by rw [hp], fun k => by rw [hp]⟩

theorem SameReads.respects : Respects .pool SameReads := ⟨SameReads.refl, SameReads.comp, SameReads.of_frame⟩

theorem State.modPool_reads (s : State) (k : Fin 16) {f : PoolChan → PoolChan} (hf : ∀ x, (f x).state = x.state) : SameReads s (s.modPool k f) := by
  refine ⟨rfl, rfl, fun j => ?_⟩
  by_cases hj : j = k
  · subst hj
    rw [State.modPool_chan, hf]
  · rw [State.modPool_chan_ne _ _ hj]

theorem State.takeAccounts_reads (s : State) (e : Impression) (ev : TakeEv) : SameReads s ((s.lanesCorrected ev).takeRebuilt e ev) := by
  have hl : Frame [.farm, .rings] s (s.lanesCorrected ev) := State.lanesCorrected_frame (Frame.refl _ s) (by decide)
  refine (SameReads.of_frame hl (by decide)).comp ?_
  generalize s.lanesCorrected ev = u
  unfold State.takeRebuilt
  split
  · refine State.forAll_keeps SameReads.respects (SameReads.refl u) fun i v => ?_
    split
    · exact v.modPool_reads _ fun _ => rfl
    · exact SameReads.refl v
  · exact SameReads.refl u

/-- What a source delivers of each leaf is a matter of the pool's reads and the plates. -/
theorem State.takeLeaf_congr {s t : State} (hr : SameReads s t) (hp : t.plt = s.plt) (e : Impression) (ev : TakeEv) :
    t.takeLeaf e ev = s.takeLeaf e ev := by
  have hobj : ∀ f r, t.poolObj f r = s.poolObj f r := fun f r => by rw [State.poolObj, hr.mapBad, hr.objs]; rfl
  have hto : t.takeObj e = s.takeObj e := by unfold State.takeObj; split <;> simp only [hobj]
  have hloc : ∀ d, t.takeLocal e d = s.takeLocal e d := fun d => by simp only [State.takeLocal, State.plates, State.pl, hp] <;> rfl
  have hreads : ∀ k, t.poolReads k = s.poolReads k := fun k => by simp only [State.poolReads, hr.chan]
  funext i
  simp only [State.takeLeaf, State.leafStored, hto, hloc, State.leafDelivered, State.leafReads, State.leafRebuilds, hreads] <;> rfl

theorem State.takeAccounts_leaf (s : State) (e : Impression) (ev : TakeEv) :
    ((s.lanesCorrected ev).takeRebuilt e ev).takeLeaf e ev = s.takeLeaf e ev :=
  State.takeLeaf_congr (s.takeAccounts_reads e ev) (s.takeAccounts_frame e ev .plt (by decide)) e ev

theorem State.plateKey_congr {s t : State} (h : t.keys = s.keys) (m : List Byte) : t.plateKey m = s.plateKey m := by
  simp only [State.plateKey, State.internalKey, State.slot, h] <;> rfl

end Sys2Proof.Machine

namespace Sys2Proof

open Sys2Proof.Machine

/-- Settles O33: no selection waits for the entry, so the end of the take changes that entry alone. -/
theorem takeEndsResidentOrFree : Obligations.TakeEndsResidentOrFree := by
  intro s i ev ht hcc hcl e
  obtain ⟨hdir, hclaim⟩ := s.takeAccounts_take e ev i
  refine ⟨_, congrArg Host.Outcome.next (if_neg (by rw [ht, hcc]; decide)), ?_⟩
  have hleaf := s.takeAccounts_leaf e ev
  have hkey : ((s.lanesCorrected ev).takeRebuilt e ev).plateKey e.man = s.plateKey e.man :=
    State.plateKey_congr (s.takeAccounts_frame e ev .keys (by decide)) e.man
  dsimp only
  generalize hu : (s.lanesCorrected ev).takeRebuilt e ev = u at hdir hclaim hleaf hkey
  rw [hkey, hleaf]
  cases streamLeaves e.man (s.plateKey e.man) (s.takeLeaf e ev) (manLeaves e.man) [] with
  | error x =>
    have hd := State.takeFails_dirE (hclaim.trans hcl) x.1 x.2
    refine ⟨fun j hj => ?_, ?_⟩
    · rw [hd, if_neg hj, hdir]
    · dsimp only
      rw [hd, if_pos rfl]
  | ok mem =>
    dsimp only
    generalize hv : State.log (u.modDir i _) _ _ _ = v
    have hclv : v.claimed i = false := (State.claimed_congr (by rw [← hv, State.log_ctl]; rfl) i).trans (hclaim.trans hcl)
    have hvd : ∀ k, v.dirE k = (u.modDir i fun e => { e with state := .resident, bytes := mem }).dirE k := fun k => by
      rw [← hv, State.dirE, State.log_imm]; rfl
    rw [State.resumeEntry_unclaimed hclv]
    refine ⟨fun j hj => ?_, ?_⟩
    · rw [hvd, State.modDir_dirE_ne _ _ _ hj, hdir]
    · rw [hvd, State.modDir_dirE, hdir]

end Sys2Proof

end


section
/-! SUPPORT. Leaves after the take (R84, R86, R92, R94, R104, R106): damage, patrol and a switch of copies. -/

namespace Sys2Proof.Machine

open Sys2Proof

@[simp] theorem State.dropLeaf_dirE (s : State) (i : Fin 256) (leaf : Nat) : (s.dropLeaf i leaf).dirE = s.dirE := rfl

/-- The entry that a leaf damages (R92). -/
def Impression.damaged (leaf : Nat) (e : Impression) : Impression := { e with state := .damaged, badLeaves := addLeaf e.badLeaves leaf }

theorem mem_addLeaf (l : List Nat) (leaf : Nat) : leaf ∈ addLeaf l leaf := by
  unfold addLeaf
  split
  · rename_i h
    exact List.contains_iff_mem.mp h
  · exact List.mem_append_right _ (List.mem_singleton_self _)

/-- Damage changes the image memory at its entry alone. -/
theorem State.damage_imm (s : State) (i : Fin 256) (leaf : Nat) : (s.damage i leaf).imm = (s.modDir i (Impression.damaged leaf)).imm := by
  unfold State.damage
  dsimp only
  generalize hu : State.log _ 0x0010 devCh _ = u
  have huimm : u.imm = (s.modDir i (Impression.damaged leaf)).imm := by rw [← hu, State.log_imm, State.raise_imm]; rfl
  rw [← huimm]
  split
  · have h : Frame [.plt, .trace, .rings, .led] u _ :=
      State.objectBad_frame (fam := (s.dirE i).family) (root := (s.dirE i).root) (st := stImageIncomplete) (Frame.refl _ u) (by decide)
    exact h .imm (by decide)
  · rename_i p _
    split
    · rename_i n _
      split
      · have h : Frame [.plt, .trace, .rings, .led] u _ :=
          State.plateBad_frame (n := n) (ps := [p]) (st := stImageIncomplete) (Frame.refl _ u) (by decide)
        exact h .imm (by decide)
      · rfl
    · rfl

theorem State.damage_dirE (s : State) (i : Fin 256) (leaf : Nat) : (s.damage i leaf).dirE i = (s.dirE i).damaged leaf := by
  rw [State.dirE, State.damage_imm]
  exact State.modDir_dirE _ _ _

theorem State.damage_ctl (s : State) (i : Fin 256) (leaf : Nat) : (s.damage i leaf).ctl = s.ctl := by
  have h : Frame [.imm, .plt, .trace, .rings, .led] s (s.damage i leaf) := State.damage_frame (Frame.refl _ s) (by decide)
  exact h .ctl (by decide)

/-! ## Patrol (R94) -/

theorem State.patrolStep_dirE (s : State) : s.patrolStep.dirE = s.dirE := by
  unfold State.patrolStep
  dsimp only
  split <;> rfl

theorem State.patrolStep_mismatch (s : State) : s.patrolStep.imm.patrolMismatch = s.imm.patrolMismatch := by
  unfold State.patrolStep
  dsimp only
  split <;> rfl

/-- The entry and the device's count after a patrol read of a leaf. -/
def Impression.patrolled (leaf : Nat) (leafOk tableOk : Bool) (e : Impression) : Impression :=
  let e := if leafOk then e else { e with patmis := satInc e.patmis, badLeaves := addLeaf e.badLeaves leaf }
  if tableOk then e else { e with state := .damaged, tableBad := true }

theorem exec_patrolLeaf {s : State} {i : Fin 256} {leaf : Nat} {ok table : Bool} (hst : (s.dirE i).state = .resident ∨ (s.dirE i).state = .damaged)
    (hl : leaf < (s.dirE i).leaves.toNat) (hp : s.imm.pause = false) (hcc : s.dev.ccAbsent = false) :
    ∃ t, exec (.patrolLeaf i leaf ok table) s = .next t ∧ t.dirE i = (s.dirE i).patrolled leaf ok table ∧
      t.imm.patrolMismatch = if ok then s.imm.patrolMismatch else satInc s.imm.patrolMismatch := by
  have hgo : ¬(((s.dirE i).state ≠ .resident ∧ (s.dirE i).state ≠ .damaged) ∨ (s.dirE i).leaves.toNat ≤ leaf ∨ s.imm.pause = true ∨
      s.dev.ccAbsent = true) := by
    rintro (⟨h1, h2⟩ | h | h | h)
    · exact hst.elim h1 h2
    · omega
    · rw [hp] at h; cases h
    · rw [hcc] at h; cases h
  refine ⟨_, congrArg Host.Outcome.next (if_neg hgo), ?_⟩
  dsimp only
  have hdir := congrFun s.patrolStep_dirE i
  have hmis := s.patrolStep_mismatch
  generalize s.patrolStep = u at hdir hmis
  generalize hv : (if ok = true then u else _ : State) = v
  have hvd : v.dirE i = if ok then s.dirE i else
      { s.dirE i with patmis := satInc (s.dirE i).patmis, badLeaves := addLeaf (s.dirE i).badLeaves leaf } := by
    rw [← hv]
    cases ok
    · rw [if_neg Bool.false_ne_true, if_neg Bool.false_ne_true, State.log_dirE, State.raise_dirE]
      refine (State.modDir_dirE _ _ _).trans ?_
      rw [hdir]
    · exact hdir
  have hvm : v.imm.patrolMismatch = if ok then s.imm.patrolMismatch else satInc s.imm.patrolMismatch := by
    rw [← hv]
    cases ok
    · rw [if_neg Bool.false_ne_true, State.log_imm, State.raise_imm]
      exact congrArg satInc hmis
    · exact hmis
  unfold Impression.patrolled
  rw [← hvd, ← hvm]
  cases table
  · rw [if_neg Bool.false_ne_true, if_neg Bool.false_ne_true, State.log_dirE, State.log_imm, State.modDir_dirE]
    exact ⟨rfl, rfl⟩
  · exact ⟨rfl, rfl⟩

theorem Impression.patrolled_fields (e : Impression) (leaf : Nat) (ok table : Bool) :
    (e.patrolled leaf ok table).patmis = (if ok then e.patmis else satInc e.patmis) ∧
      (e.patrolled leaf ok table).state = (if table then e.state else .damaged) ∧
      (e.patrolled leaf ok table).tableBad = (e.tableBad || !table) ∧
      (e.patrolled leaf ok table).badLeaves = if ok then e.badLeaves else addLeaf e.badLeaves leaf := by
  cases ok <;> cases table <;> simp [Impression.patrolled]

/-! ## Re-verification (R92) -/

theorem exec_leafReverifyDone {s : State} {i : Fin 256} {leaf : Nat} {ok : Bool} {src : Option (List Byte)}
    (hst : (s.dirE i).state = .resident ∨ (s.dirE i).state = .damaged) (hl : leaf < (s.dirE i).leaves.toNat) (hcc : s.dev.ccAbsent = false) :
    exec (.leafReverifyDone i leaf ok src) s = .next (
      let u := s.dropLeaf i leaf
      if ok && !(s.dirE i).badLeaves.contains leaf then { u with imm := { u.imm with transient := satInc u.imm.transient } }
      else if src.any fun d => leafGood (s.dirE i).man (s.plateKey (s.dirE i).man) leaf d then
        let v := u.modDir i fun e =>
          { e with badLeaves := e.badLeaves.filter fun l => l ≠ leaf,
                   state := if (e.badLeaves.filter fun l => l ≠ leaf).isEmpty && !e.tableBad then .resident else e.state }
        { v with imm := { v.imm with repaired := satInc v.imm.repaired } }
      else u.damage i leaf) := by
  have hgo : ¬(((s.dirE i).state ≠ .resident ∧ (s.dirE i).state ≠ .damaged) ∨ (s.dirE i).leaves.toNat ≤ leaf ∨ s.dev.ccAbsent = true) := by
    rintro (⟨h1, h2⟩ | h | h)
    · exact hst.elim h1 h2
    · omega
    · rw [hcc] at h; cases h
  refine congrArg Host.Outcome.next ((if_neg hgo).trans ?_)
  cases src <;> rfl

/-! ## Local confirmation (R84) -/

theorem exec_localConfirmationDone {s : State} {n : Fin 128} {p : PlateId} {data : Option (List Byte)}
    (hsrc : ((s.plates n).get p).src = 2) (he : ((s.plates n).get p).state ≠ .empty) (hg : ((s.plates n).get p).state ≠ .staging)
    (ho : s.hostOwns n = false) (hw : s.waitsLocal n p = false) (hcc : s.dev.ccAbsent = false) :
    exec (.localConfirmationDone n p data) s = .next (match data with
      | none => s
      | some d => match badLocalLeaf ((s.pl n).localMan.get p) (s.plateKey ((s.pl n).localMan.get p)) d with
        | none => s.modPlt n fun y => { y with confirmed := y.confirmed.set p true }
        | some leaf => ((s.raise 0x0305 n.1 [p.code, leaf]).log 0x0020 n.1 [stDigestMismatch.toNat,
            ofLe (manFamily ((s.pl n).localMan.get p)), ofLe (manRoot ((s.pl n).localMan.get p)), leaf]).plateBad n [p] stDigestMismatch) := by
  refine congrArg Host.Outcome.next ((if_neg (by simp [hsrc, he, hg, ho, hcc])).trans ?_)
  have hw' : ∀ t : State, t.ctl = s.ctl → t.waitsLocal n p = false := fun t ht => by rw [← hw]; simp only [State.waitsLocal, State.ch, ht]
  cases data with
  | none => exact if_neg (by rw [hw]; exact Bool.false_ne_true)
  | some d =>
    dsimp only
    cases badLocalLeaf ((s.pl n).localMan.get p) (s.plateKey ((s.pl n).localMan.get p)) d with
    | none => exact if_neg (ne_true_of_eq_false (hw' _ (by rfl)))
    | some leaf => exact if_neg (ne_true_of_eq_false (hw' _ (State.raise_ctl _ _ _ _)))

/-- The state in which a local plate's mismatch has been recorded. -/
def State.confirmMismatch (s : State) (n : Fin 128) (p : PlateId) (leaf : Nat) : State :=
  (s.raise 0x0305 n.1 [p.code, leaf]).log 0x0020 n.1 [stDigestMismatch.toNat, ofLe (manFamily ((s.pl n).localMan.get p)),
    ofLe (manRoot ((s.pl n).localMan.get p)), leaf]

/-- A plate with a leaf that does not check becomes BAD, where a commit can be made. -/
theorem State.confirmMismatch_bad {s : State} {n : Fin 128} {p : PlateId} (leaf : Nat) (hb : ((s.plates n).get p).state.canBad = true)
    (hc : s.noCommit = false) (hf : s.seqFull n = false) :
    ((((s.confirmMismatch n p leaf).plateBad n [p] stDigestMismatch).plates n).get p).state = .bad := by
  have hplt : (s.confirmMismatch n p leaf).plt = s.plt := by rw [State.confirmMismatch, State.log_plt, State.raise_plt]
  have hplates : (s.confirmMismatch n p leaf).plates n = s.plates n := by rw [State.plates, State.pl, hplt]; rfl
  have hno : (s.confirmMismatch n p leaf).noCommit = s.noCommit := by simp [State.confirmMismatch, State.noCommit]
  exact State.plateBad_state (hno.trans hc) (by rw [State.seqFull, State.pl, hplt]; exact hf) (List.mem_singleton_self _)
    (by rw [hplates]; exact hb)

/-! ## A switch of copies (R86, R94, R104) -/

/-- The leaves of an entry that its source cannot supply good. -/
def State.badOf (s : State) (e : Impression) (ev : TakeEv) : List Nat :=
  (List.range (manLeaves e.man)).filter fun l => !(s.takeLeaf e ev l).any fun d => leafGood e.man (s.plateKey e.man) l d

theorem State.badOf_eq_nil {s : State} {e : Impression} {ev : TakeEv} :
    s.badOf e ev = [] ↔ ∀ l < manLeaves e.man, ∃ d, s.takeLeaf e ev l = some d ∧ leafGood e.man (s.plateKey e.man) l d = true := by
  simp [State.badOf, List.filter_eq_nil_iff, Option.any_eq_true]

theorem State.releaseLost_none {s : State} {i : Fin 256}
    (h : ∀ m, ¬((s.ch m).bound = some i.1 ∧ (s.ch m).state = .held ∧ (s.ch m).kind = .impressionLost)) : s.releaseLost i = s :=
  State.forChans_eq fun n => if_neg (by simpa [and_assoc] using h n)

/-- The entry after a switch of copies, by its leaves that the source cannot supply. -/
def Impression.switched (e : Impression) (bad : List Nat) (x : List Extent) : Impression :=
  match bad with
  | [] => { e with state := .resident, lost := false, badLeaves := [], tableBad := false, extents := x }
  | l :: _ => { e with state := .damaged, lost := false, badLeaves := addLeaf bad l, tableBad := false, extents := x }

/-- Allocation changes the extents of its entry. -/
theorem State.allocExtents_dirE (s : State) (i : Fin 256) (leaves : Nat) :
    ∃ x, (s.allocExtents i leaves).dirE i = { s.dirE i with extents := x } := ⟨_, State.modDir_dirE _ _ _⟩

/-- A switch of copies for which no channel is held leaves its entry RESIDENT, or DAMAGED where a leaf is bad. -/
theorem State.switchCopy_dirE {s : State} {i : Fin 256} (ev : TakeEv)
    (h : ∀ m, ¬((s.ch m).bound = some i.1 ∧ (s.ch m).state = .held ∧ (s.ch m).kind = .impressionLost)) :
    ∃ x, (s.switchCopy i ev).dirE i = (s.dirE i).switched (s.badOf (s.dirE i) ev) x := by
  unfold State.switchCopy
  dsimp only
  have hacc := s.takeAccounts_frame (s.dirE i) ev
  have hdir := (s.takeAccounts_take (s.dirE i) ev i).1
  generalize (s.lanesCorrected ev).takeRebuilt (s.dirE i) ev = u at hacc hdir
  have huctl : u.ctl = s.ctl := hacc .ctl (by decide)
  change ∃ x, (State.releaseLost _ i).dirE i = (s.dirE i).switched (s.badOf (s.dirE i) ev) x
  rw [show ((List.range (manLeaves (s.dirE i).man)).filter fun l => !(s.takeLeaf (s.dirE i) ev l).any fun d =>
    leafGood (s.dirE i).man (s.plateKey (s.dirE i).man) l d) = s.badOf (s.dirE i) ev from rfl]
  generalize s.badOf (s.dirE i) ev = bad
  generalize hv : State.log (State.dropLines _ i) 0x0010 devCh _ = v
  have hvctl : v.ctl = s.ctl := by rw [← hv, State.log_ctl]; exact huctl
  have hvd : ∃ x, v.dirE i = { s.dirE i with state := .resident, lost := false, badLeaves := bad, tableBad := false, extents := x } := by
    obtain ⟨x, hx⟩ := State.allocExtents_dirE (u.modDir i fun e =>
      { e with state := .resident, lost := false, badLeaves := bad, tableBad := false }) i (s.dirE i).leaves.toNat
    refine ⟨x, ?_⟩
    rw [← hv, State.log_dirE]
    refine hx.trans ?_
    rw [State.modDir_dirE, hdir]
  obtain ⟨x, hvd⟩ := hvd
  refine ⟨x, ?_⟩
  generalize hw : State.forAll v bad.head?.toList _ = w
  have hwctl : w.ctl = s.ctl := by
    rw [← hw, ← hvctl]
    cases bad with
    | nil => rfl
    | cons l bad => exact v.damage_ctl i l
  have hwd : w.dirE i = (s.dirE i).switched bad x := by
    rw [← hw]
    cases bad with
    | nil => exact hvd
    | cons l bad =>
      refine (v.damage_dirE i l).trans ?_
      rw [hvd]
      rfl
  rw [State.releaseLost_none]
  · exact hwd
  · intro m
    have hm : w.ch m = s.ch m := by rw [State.ch, hwctl]; rfl
    exact fun hh => h m (hm ▸ hh)

/-- A retake from a source, of the entry as it is in the directory. -/
def State.retakeFrom (s : State) (i : Fin 256) (src : Source) (ev : TakeEv) : State :=
  (s.modDir i fun e => { e with source := src }).switchCopy i ev

theorem State.retakeFrom_dirE {s : State} {i : Fin 256} (src : Source) (ev : TakeEv)
    (h : ∀ m, ¬((s.ch m).bound = some i.1 ∧ (s.ch m).state = .held ∧ (s.ch m).kind = .impressionLost)) :
    ∃ x, (s.retakeFrom i src ev).dirE i =
      ({ s.dirE i with source := src } : Impression).switched (s.badOf { s.dirE i with source := src } ev) x := by
  obtain ⟨x, hx⟩ := State.switchCopy_dirE (s := s.modDir i fun e => { e with source := src }) (i := i) ev h
  refine ⟨x, hx.trans ?_⟩
  have hb : (s.modDir i fun e => { e with source := src }).badOf { s.dirE i with source := src } ev = s.badOf { s.dirE i with source := src } ev := by
    rw [State.badOf, State.badOf, State.takeLeaf_congr (s := s) ⟨rfl, rfl, fun _ => rfl⟩ rfl]
    rfl
  rw [State.modDir_dirE, hb]

theorem State.evictFor_enough {s : State} {need : Nat} (h : need ≤ s.freeExtents) : State.evictFor need 257 s = s := if_pos h

theorem State.evictForLayout_enough {s : State} (h : s.extentsHeld (fun _ => true) ≤ s.totalExtents) : State.evictForLayout 257 s = s := if_pos h

theorem exec_impressionCopySwitch {s : State} {i : Fin 256} {ev : TakeEv} {src : Source}
    (hs : s.sourceOf (s.dirE i).family (s.dirE i).root = some src) (hp : ¬(src = .pool ∧ s.poolFailed = true)) (hcc : s.dev.ccAbsent = false)
    (hst : ((s.dirE i).state = .damaged ∧ (s.dirE i).tableBad = true ∧ extentsOf (s.dirE i).leaves.toNat ≤ s.freeExtents) ∨
      ((s.dirE i).state = .relocating ∧ s.extentsHeld (fun _ => true) ≤ s.totalExtents ∧ s.relocFits i = true ∧
        ∀ j, s.lostOrder.find? (fun j => s.relocFits j) = some j → s.refs j ≤ s.refs i)) :
    exec (.impressionCopySwitch ⟨i, ev⟩) s = .next (s.retakeFrom i src ev) := by
  refine congrArg Host.Outcome.next ?_
  dsimp only
  rw [hs]
  dsimp only
  rw [if_neg (by simpa [hcc] using hp)]
  rcases hst with ⟨h1, h2, h3⟩ | ⟨h1, h2, h3, h4⟩
  · rw [if_neg (by rw [h1]; decide), if_pos (by rw [h1, h2]; decide), State.evictFor_enough h3, if_pos (by simp [h1, h3])]
    rfl
  · rw [if_pos h1, State.evictForLayout_enough h2, if_pos]
    · rfl
    · rw [h3, Bool.true_and, Option.all_eq_true]
      exact fun j hj => decide_eq_true (h4 j hj)

end Sys2Proof.Machine

namespace Sys2Proof

open Sys2Proof.Machine

/-- Settles O34, event by event: each leaves its own entry's leaves, and selections that wait do not hear of it. -/
theorem leavesAreRecheckedAndRepaired : Obligations.LeavesAreRecheckedAndRepaired := by
  intro s i leaf ok table src n p ev hcc e checks
  refine ⟨fun hst hl => ?leaf, ?confirm, ?switch⟩
  case leaf =>
    have hrv := exec_leafReverifyDone (ok := ok) (src := src) hst hl hcc
    have hchecks : (src.any fun d => leafGood e.man (s.plateKey e.man) leaf d) = true ↔ checks := by
      simp [checks, Option.any_eq_true]
    have hbad : ok = false ∨ leaf ∈ e.badLeaves → ¬(ok && !e.badLeaves.contains leaf) = true := by
      rintro (h | h)
      · simp [h]
      · simp [h]
    refine ⟨fun hok hn => ?_, fun hx hc => ?_, fun hx hc => ?_, fun hp => ?_⟩
    · refine ⟨_, hrv.trans (congrArg Host.Outcome.next (if_pos (by simp [hok, show leaf ∉ (s.dirE i).badLeaves from hn]))), rfl, rfl⟩
    · refine ⟨_, hrv.trans (congrArg Host.Outcome.next ((if_neg (hbad hx)).trans (if_pos (hchecks.mpr hc)))), ?_, rfl, ?_⟩
      · exact congrArg Impression.badLeaves (State.modDir_dirE _ _ _)
      · refine (congrArg Impression.state (State.modDir_dirE _ _ _)).trans ?_
        simp [e]
    · refine ⟨_, hrv.trans (congrArg Host.Outcome.next ((if_neg (hbad hx)).trans (if_neg fun h => hc (hchecks.mp h)))), ?_, ?_⟩
      · rw [State.damage_dirE]; rfl
      · rw [State.damage_dirE]; exact mem_addLeaf _ _
    · obtain ⟨t, ht, hd, hm⟩ := exec_patrolLeaf (ok := ok) (table := table) hst hl hp hcc
      obtain ⟨h1, h2, h3, h4⟩ := e.patrolled_fields leaf ok table
      refine ⟨t, ht, ?_, hm, ?_, ?_, ?_⟩ <;> rw [hd]
      · exact h1
      · exact h2
      · exact h3
      · exact h4
  case confirm =>
    intro x man hsrc he hg ho hw
    have hlc := fun data => exec_localConfirmationDone (data := data) hsrc he hg ho hw hcc
    refine ⟨hlc none, fun d => ⟨fun hb => ?_, fun l hb hbad hno hfull => ?_⟩⟩
    · simp only [man] at hb
      rw [hlc]
      dsimp only
      rw [hb]
    · simp only [man] at hb
      refine ⟨(s.confirmMismatch n p l).plateBad n [p] stDigestMismatch, ?_, State.confirmMismatch_bad l hbad hno hfull⟩
      rw [hlc]
      dsimp only
      rw [hb]
      rfl
  case switch =>
    intro from_ hs hp hheld hst whole
    obtain ⟨y, hy⟩ := s.retakeFrom_dirE from_ ev hheld
    have hw : s.badOf { e with source := from_ } ev = [] ↔ whole := State.badOf_eq_nil
    refine ⟨_, exec_impressionCopySwitch hs hp hcc hst, ?_⟩
    rw [hy]
    generalize s.badOf { e with source := from_ } ev = bad at hw
    cases bad with
    | nil => exact ⟨rfl, rfl, rfl, fun _ => ⟨rfl, rfl⟩, fun h => absurd (hw.mp rfl) h⟩
    | cons l bad => exact ⟨rfl, rfl, rfl, fun h => absurd (hw.mpr h) (List.cons_ne_nil _ _), fun _ => rfl⟩

end Sys2Proof


end


section
/-! SUPPORT. Flash-side ports (R70, R73, R75): discovery and the end of a local operation. -/

namespace Sys2Proof.Machine

open Sys2Proof

theorem fin?_of_val {k : Nat} {n : Fin k} {v : Nat} (h : n.1 = v) : fin? k v = some n := by
  subst h
  exact fin?_val k n

/-! ## Discovery -/

/-- The port after discovery has found a usable flash (R70). -/
def FlashPort.discovered (r : DiscReport) (x : FlashPort) : FlashPort :=
  { x with found := discoveryFound r, state := 2, fault := 0, densLog2 := BitVec.ofNat 8 r.density.log2, passDummy := r.passDummy, maxMhz := r.maxMhz,
           pageLog2 := BitVec.ofNat 4 r.pageSize.log2, xspi := r.xspi, progUs := r.progUs, erase4Ms := r.erase4Ms,
           erase64Ms := r.erase64Ms, id := (r.id ++ List.replicate 20 0).take 20, sfdp := r.sfdp }

/-- The port after discovery has ended in a fault (R70). -/
def FlashPort.faulted (r : DiscReport) (code : Nat) (x : FlashPort) : FlashPort :=
  { x with found := discoveryFound r, state := 3, fault := BitVec.ofNat 8 code, id := (r.id ++ List.replicate 20 0).take 20,
           discFails := satInc x.discFails }

/-- A re-release leaves the flash-side ports. -/
theorem State.resumeHeld_fps (s : State) (n : Fin 128) : ((s.resumeHeld n).endLines).fps = s.fps := by
  have h : Frame [.prof, .mbx, .ctl, .plt, .wdg, .twl, .imm, .fca, .mins, .plat, .trace, .spdm, .rings, .views, .awaits, .drbg, .drawn, .led, .dev] s
      ((s.resumeHeld n).endLines) := State.endLines_frame (State.resumeHeld_frame (Frame.refl _ s) (by decide)) (by decide)
  exact h .fps (by decide)

theorem State.resume_fps (s : State) (n : Fin 128) (out : Option Chk) : (s.resume n out).fps = s.fps := by
  have h : Frame [.mbx, .ctl, .plt, .wdg, .imm, .fca, .mins, .plat, .trace, .spdm, .rings, .views, .awaits, .drbg, .drawn, .led, .dev] s
      (s.resume n out) := State.resume_frame (Frame.refl _ s) (by decide)
  exact h .fps (by decide)

theorem State.endDiscovery_fp (s : State) (f : Fin 64) (r : DiscReport) :
    (s.endDiscovery f r).fp f =
      if s.discoveryFault f r = 0 then (s.fp f).discovered r else (s.fp f).faulted r (s.discoveryFault f r) := by
  unfold State.endDiscovery
  dsimp only
  split
  · generalize hu : State.modFp _ f _ = u
    have hfp : u.fp f = (s.fp f).discovered r := by rw [← hu, State.modFp_fp, State.modFp_fp]; rfl
    rw [← hfp]
    split
    · split
      · rw [State.fp, State.resumeHeld_fps]; rfl
      · rfl
    · rfl
  · generalize hu : State.raise _ 0x0107 f.1 _ = u
    have hfp : u.fp f = (s.fp f).faulted r (s.discoveryFault f r) := by
      rw [← hu, State.fp, State.raise_fps]
      exact (State.modFp_fp _ _ _).trans (by rw [State.modFp_fp]; rfl)
    rw [← hfp]
    split
    · split
      · split
        · rw [State.fp, State.resume_fps]; rfl
        · rfl
      · rfl
    · rfl

/-- The port that a discovery begins on, and the parts of the state that it leaves. -/
theorem State.startDiscovery_fp (s : State) (f : Fin 64) :
    ∃ p d, (s.startDiscovery f).fp f =
      { s.fp f with state := 1, fault := 0, user := 0, localOp := none, found := none, passProto := p, devMhz := d } := by
  have hmod : ∀ (u : State) (p : BitVec 2) (d : Byte), u.fps = s.fps →
      (u.modFp f fun x => { x with state := 1, fault := 0, user := 0, localOp := none, found := none, passProto := p, devMhz := d }).fp f =
        { s.fp f with state := 1, fault := 0, user := 0, localOp := none, found := none, passProto := p, devMhz := d } := by
    intro u p d hu
    rw [State.modFp_fp, State.fp, hu]
    rfl
  exact ⟨_, _, hmod _ _ _ (by split <;> rfl)⟩

theorem State.startDiscovery_frame' (s : State) (f : Fin 64) : Frame [.prof, .fps] s (s.startDiscovery f) :=
  State.startDiscovery_frame (Frame.refl _ s) (by decide)

/-! ## The end of a local operation -/

/-- The host's port after the end of its forwarded operation (R75). -/
def HostPort.forwardedEnd (o : LocalOp) (failed : Bool) (p : HostPort) : HostPort :=
  { p with op := match p.op with | some (.forwarded _) => none | x => x,
           eraseFail := p.eraseFail || (failed && o.erase), programFail := p.programFail || (failed && !o.erase) }

theorem State.endForwarded_fps (s : State) (f : Fin 64) (o : LocalOp) (failed : Bool) : (s.endForwarded f o failed).fps = s.fps := by
  have h : Frame [.ports, .stn] s (s.endForwarded f o failed) := State.endForwarded_frame (Frame.refl _ s) (by decide)
  exact h .fps (by decide)

theorem State.endForwarded_host {s : State} {f : Fin 64} {n : Fin 128} {o : LocalOp} (hn : n.1 = f.1) (ho : o.host = true) (failed : Bool) :
    (s.endForwarded f o failed).port n = (s.port n).forwardedEnd o failed := by
  unfold State.endForwarded
  rw [fin?_of_val hn, ho]
  exact (State.modStn_port _ _ _ _).trans (State.modPort_port _ _ _)

theorem State.endForwarded_device {s : State} {f : Fin 64} {o : LocalOp} (ho : o.host = false) (failed : Bool) :
    s.endForwarded f o failed = s := by
  unfold State.endForwarded
  rw [ho]
  split
  · rename_i h; cases h
  · rfl

end Sys2Proof.Machine

namespace Sys2Proof

open Sys2Proof.Machine

/-- Settles O32, by what discovery and the end of a local operation leave of the port and of its host. -/
theorem flashPortIsDiscoveredAndWatched : Obligations.FlashPortIsDiscoveredAndWatched := by
  intro s m f n r failed hn x
  have hfin := fin?_of_val hn
  refine ⟨fun hr => ⟨fun hh => ?start, fun hh => ?ignored, ?clear⟩, fun hst h0 => ?ready, fun hst h0 => ?fault, fun o ho => ⟨?done, ?timeout⟩⟩
  case start =>
    obtain ⟨p, d, hfp⟩ := s.startDiscovery_fp f
    have hfr := s.startDiscovery_frame' f
    refine ⟨s.startDiscovery f, congrArg Host.Outcome.next ((State.regW_reaches hr).trans ?_), ?_, ?_, ?_, hfr .ctl (by decide),
      hfr .ports (by decide)⟩
    · rw [hfin]
      exact if_pos hh
    all_goals rw [hfp]
  case ignored =>
    refine congrArg Host.Outcome.next ((State.regW_reaches hr).trans ?_)
    rw [hfin]
    exact if_neg hh
  case clear => exact congrArg Host.Outcome.next (State.regW_reaches hr)
  case ready =>
    exact ⟨_, congrArg Host.Outcome.next (if_pos hst), (s.endDiscovery_fp f r).trans (if_pos h0)⟩
  case fault =>
    refine ⟨_, congrArg Host.Outcome.next (if_pos hst), ?_⟩
    rw [s.endDiscovery_fp, if_neg h0]
    exact ⟨rfl, rfl, rfl⟩
  case done =>
    refine ⟨_, congrArg Host.Outcome.next (by rw [show (s.fp f).localOp = _ from ho]), ?_⟩
    dsimp only
    generalize hu : s.modFp f _ = u
    have hfp : u.fp f = { x with localOp := none, localFails := if failed then satInc x.localFails else x.localFails } := by
      rw [← hu]; exact State.modFp_fp _ _ _
    have hend : (u.endForwarded f o failed).fp f = u.fp f := by rw [State.fp, State.endForwarded_fps]; rfl
    have hports : u.ports = s.ports := by rw [← hu]; rfl
    rw [hend, hfp]
    refine ⟨rfl, rfl, fun hh => ?_, fun hh => ?_⟩
    · rw [State.endForwarded_host hn hh, State.port, hports]
      rfl
    · rw [State.endForwarded_device hh, hports]
  case timeout =>
    refine ⟨_, congrArg Host.Outcome.next (by rw [show (s.fp f).localOp = _ from ho]), ?_⟩
    dsimp only
    generalize hv : State.endForwarded (s.until (o.start + o.bound)) f o true = v
    have hvfp : v.fp f = x := by rw [← hv, State.fp, State.endForwarded_fps]; rfl
    have hvnow : v.now = max s.now (o.start + o.bound) := by rw [← hv, State.endForwarded_now]; rfl
    obtain ⟨p, d, hfp⟩ := v.startDiscovery_fp f
    have hfr := v.startDiscovery_frame' f
    rw [State.modFp_fp, hfp, hvfp]
    refine ⟨(hfr .now (by decide)).trans hvnow, rfl, rfl, rfl, rfl, fun hh => ?_⟩
    have hport : (v.startDiscovery f).port n = (s.port n).forwardedEnd o true := by
      have hp : (v.startDiscovery f).ports = v.ports := hfr .ports (by decide)
      rw [State.port, hp, ← hv]
      exact State.endForwarded_host hn hh true
    rw [State.modFp_port, hport]
    exact ⟨by simp [HostPort.forwardedEnd], by simp [HostPort.forwardedEnd]⟩

end Sys2Proof

end


section
/-! SUPPORT. A manager's commit of its shadow (R63, R64, R246, R247). -/

namespace Sys2Proof.Machine

open Sys2Proof

/-- A change of phase changes the phase alone of the channel's Stencil record. -/
theorem State.setPhase_st (s : State) (n : Fin 128) (p : Phase) : (s.setPhase n p).st n = { s.st n with phase := p } := by
  unfold State.setPhase
  dsimp only
  split
  · rename_i h
    rw [← h]
  · split <;> simp [State.closeCdi]

/-- What adopting a table leaves of the table, the epoch and the managers' shadows. -/
theorem State.adopt_st (s : State) (n : Fin 128) (t : STable) :
    ((s.adopt n t).st n).tbl = t ∧ ((s.adopt n t).st n).epoch = (s.st n).epoch + 1 ∧ ((s.adopt n t).st n).shadow = (s.st n).shadow := by
  unfold State.adopt
  dsimp only
  generalize hu : State.extend _ n 1 0x0013 _ _ = u
  have hst : (u.st n).tbl = t ∧ (u.st n).epoch = (s.st n).epoch + 1 ∧ (u.st n).shadow = (s.st n).shadow := by
    rw [← hu, State.extend_st, State.modStn_st]
    exact ⟨rfl, rfl, rfl⟩
  split
  · rw [State.modStn_st, State.setPhase_st]
    exact hst
  · exact hst

theorem State.adoptChanged_st (s : State) (n : Fin 128) (t : STable) :
    ((s.adoptChanged n t).st n).tbl = t ∧ ((s.adoptChanged n t).st n).epoch = (if t = (s.st n).tbl then (s.st n).epoch else (s.st n).epoch + 1) ∧
      ((s.adoptChanged n t).st n).shadow = (s.st n).shadow := by
  unfold State.adoptChanged
  split
  · rename_i h
    exact ⟨h.symm, rfl, rfl⟩
  · exact s.adopt_st n t

/-- A table that is judged COMMITTED differs from the one in force only by tightenings (R63). -/
theorem tighter_of_judge {a b : STable} {size : Nat} {marks : List Nat} (h : judge a b size marks = .committed) :
    ∀ x ∈ changed a b, tighter a b x.1 x.2.2 = true := by
  intro x hx
  have hnone : firstLoose a b = none := by
    unfold judge at h
    split at h
    · cases h
    · assumption
  simpa using List.find?_eq_none.mp hnone x hx

/-- A change of a page header is seen in it. -/
theorem State.modHdr_hdr (s : State) (m : Mgr) (page : Fin 1024) (f : Hdr → Hdr) :
    (vget (s.modHdr m page f).hdrs page).get m = f ((vget s.hdrs page).get m) := by
  unfold State.modHdr
  dsimp only
  split <;> simp

/-- The end of a commit or discard: the manager's shadow holds the active table, and its page header the result (R63, R246). -/
theorem State.discard_shdResult (s : State) (m : Mgr) (n : Fin 128) (res : BitVec 4) (err : Word) :
    let t := (s.discardShadow m n).shdResult m n res err
    t.st n = { s.st n with shadow := (s.st n).shadow.set m { tbl := (s.st n).tbl, marks := [] } } ∧
      (t.st n).shadow.get m = { tbl := (s.st n).tbl, marks := [] } ∧
      ((vget t.hdrs (stnPage n)).get m).result = res ∧ ((vget t.hdrs (stnPage n)).get m).shdErr = err ∧
      ((vget t.hdrs (stnPage n)).get m).shdDone = true := by
  dsimp only
  have hst : ((s.discardShadow m n).shdResult m n res err).st n =
      { s.st n with shadow := (s.st n).shadow.set m { tbl := (s.st n).tbl, marks := [] } } := by
    rw [State.shdResult_st]
    exact State.modStn_st _ _ _
  refine ⟨hst, ?_, ?_⟩
  · rw [hst]
    exact PerMgr.get_set_self _ _ _
  · rw [State.shdResult, State.modHdr_hdr]
    exact ⟨rfl, rfl, rfl⟩

end Sys2Proof.Machine

namespace Sys2Proof

open Sys2Proof.Machine

/-- Settles O29, by the judgement of the written registers. -/
theorem shadowCommitOnlyTightens : Obligations.ShadowCommitOnlyTightens := by
  intro s m n hr old mine new r hdr
  refine ⟨⟨_, congrArg Host.Outcome.next (State.regW_reaches hr), ?_⟩, _, congrArg Host.Outcome.next (State.regW_reaches hr), ?_⟩
  · show (r = .committed → ((s.commitSlot m n false).st n).tbl = new ∧ _) ∧ _
    have hcommit : s.commitSlot m n false =
        ((if r = .committed then s.adoptChanged n new else s).discardShadow m n).shdResult m n r.code r.err := rfl
    rw [hcommit]
    generalize hu : (if r = .committed then s.adoptChanged n new else s) = u
    obtain ⟨hst, hsh, h1, h2, h3⟩ := u.discard_shdResult m n r.code r.err
    have htbl : (((u.discardShadow m n).shdResult m n r.code r.err).st n).tbl = (u.st n).tbl := by rw [hst]
    refine ⟨fun hc => ?_, fun hc => ?_, by rw [hsh, htbl], h1, h2, h3⟩
    · rw [hst, ← hu, if_pos hc]
      obtain ⟨ht, he, -⟩ := s.adoptChanged_st n new
      exact ⟨ht, he, tighter_of_judge hc⟩
    · rw [hst, ← hu, if_neg hc]
      exact ⟨rfl, rfl, rfl, rfl, rfl⟩
  · obtain ⟨hst, hsh, h1, h2, h3⟩ := s.discard_shdResult m n 6 0
    exact ⟨by rw [hst], by rw [hst], hsh, h1, h2, h3⟩

end Sys2Proof

end


section
/-! SUPPORT. Services and extensions that a host writes (R148, R149, R152, R153). -/

namespace Sys2Proof.Machine

open Sys2Proof

/-! ## Programs of the mailbox's 8-byte and 16-byte fields -/

theorem ofLe_append (a b : List Byte) : ofLe (a ++ b) = ofLe a + 256 ^ a.length * ofLe b := by
  induction a with
  | nil => simp [ofLe]
  | cons x a ih => simp only [List.cons_append, ofLe, ih, List.length_cons, Nat.pow_succ']; ring

/-- A heard PAGE PROGRAM of an 8-byte field's value. -/
theorem State.mbxPage_dword {s : State} {n : Fin 128} {off : Nat} (v : DWord) (h : s.mbxTakes n off)
    (ho : off = 0x0050 ∨ off = 0x0088 ∨ off = 0x0200) :
    s.mbxPage n off (leBytes 8 v.toNat) = ((s.mbxTaken n).fieldProgram n off v.toNat).keepCs n false := by
  rw [State.mbxPage_eight h ho, Nat.mod_eq_of_lt v.isLt]

/-- A heard PAGE PROGRAM of WDG_EXTEND: the token, and the units above it. -/
theorem State.mbxPage_extend {s : State} {n : Fin 128} (token : DWord) (units : Word) (h : s.mbxTakes n 0x0058) :
    s.mbxPage n 0x0058 (leBytes 8 token.toNat ++ leBytes 4 units.toNat ++ leBytes 4 0) =
      ((s.mbxTaken n).fieldProgram n 0x0058 (token.toNat + 2 ^ 64 * units.toNat)).keepCs n false := by
  have hv : ofLe (leBytes 8 token.toNat ++ leBytes 4 units.toNat ++ leBytes 4 0) = token.toNat + 2 ^ 64 * units.toNat := by
    have ht : token.toNat % 256 ^ 8 = token.toNat := Nat.mod_eq_of_lt token.isLt
    have hu : units.toNat % 256 ^ 4 = units.toNat := Nat.mod_eq_of_lt units.isLt
    rw [ofLe_append, ofLe_append, ofLe_leBytes, ofLe_leBytes, ofLe_leBytes, leBytes_length, ht, hu, Nat.zero_mod, Nat.mul_zero, Nat.add_zero]
    rfl
  rw [State.mbxPage_program h (by simp [leBytes]), ← hv]
  exact congrArg (fun t => State.keepCs t n false) State.mbxProgram_sixteen

/-- The program of a field that acts. -/
theorem State.fieldProgram_acts {s u : State} {n : Fin 128} {off v : Nat} (hw : s.fieldWrite n off v = (u, false))
    (hl : (u.mb n).latched = (s.mb n).latched) : s.fieldProgram n off v = u := by
  rw [State.fieldProgram_unlatched (by rw [hw]; exact hl), hw]
  rfl

/-- The program of a field that is ignored. -/
theorem State.fieldProgram_ignored {s : State} {n : Fin 128} {off v : Nat} (hw : s.fieldWrite n off v = (s, true)) :
    s.fieldProgram n off v = s.mbxIgnored n := by
  rw [State.fieldProgram_unlatched (by rw [hw]), hw]
  rfl

/-! ## What a service and an extension leave of the watchdog -/

/-- The watchdog after a new challenge has been published. -/
def Wdg.published (c : DWord) (w : Wdg) : Wdg := { w with chal := c, seq := w.seq + 1 }

theorem State.publish_wd (s : State) (n : Fin 128) : (s.publish n).wd n = (s.wd n).published (Config.challenge s.drawn) :=
  State.modWdg_wd _ _ _

theorem State.publish_drawn (s : State) (n : Fin 128) : (s.publish n).drawn = s.drawn + 1 := rfl

/-- A service in the window with the right token. -/
theorem State.service_accepted {s : State} {n : Fin 128} {token : DWord} (hc : s.sampleCount n < (s.wd n).closeEff)
    (ho : (s.wd n).open_.toNat ≤ s.sampleCount n) (ht : s.tokenOk n token = true) :
    s.service n token = ((s.newWindow n).publish n).modWdg n fun w => { w with last := 1 } := by
  unfold State.service
  dsimp only
  rw [if_neg (by omega), if_neg (by omega), if_neg (by simp [ht])]

theorem State.service_early {s : State} {n : Fin 128} {token : DWord} (hc : s.sampleCount n < (s.wd n).closeEff)
    (ho : s.sampleCount n < (s.wd n).open_.toNat) : s.service n token = s.violation n true := by
  unfold State.service
  dsimp only
  rw [if_neg (by omega), if_pos ho]

/-- A violation below the limit of a counted watchdog counts, and nothing expires. -/
theorem State.violation_early {s : State} {n : Fin 128} (hc : (s.wd n).counted = true) (hv : (satInc (s.wd n).viols).toNat < (s.wd n).violN.toNat) :
    ∃ e, s.violation n true =
      ((s.modWdg n fun w => { w with viols := satInc w.viols, last := 2, vEarly := satInc w.vEarly }).raise 0x0202 n.1 e).summary 0x0031 n.1 := by
  unfold State.violation
  dsimp only
  refine ⟨_, if_neg ?_⟩
  rw [State.modWdg_wd]
  simp [hc, hv]

theorem State.extension_granted {s : State} {n : Fin 128} {token : DWord} {units : Word} (hc : s.sampleCount n < (s.wd n).closeEff)
    (ht : s.tokenOk n token = true) (hx : (s.polOf n).wdg.extMax ≠ 0) (hu : (s.wd n).extUsed = false) (h0 : units ≠ 0) :
    s.extension n token units =
      ((((s.modWdg n fun w =>
        { w with ext := BitVec.ofNat 32 (min units.toNat (s.polOf n).wdg.extMax.toNat), extUsed := true, last := 4,
                 xGranted := satInc w.xGranted }).publish n).raise 0x0203 n.1 [min units.toNat (s.polOf n).wdg.extMax.toNat]).log 0x0030 n.1
        [3, min units.toNat (s.polOf n).wdg.extMax.toNat]) := by
  unfold State.extension
  dsimp only
  rw [if_neg (by omega), if_neg (by simp [ht]), if_neg (by simpa [hu] using ⟨hx, h0⟩)]

theorem State.extension_refused {s : State} {n : Fin 128} {token : DWord} {units : Word} (hc : s.sampleCount n < (s.wd n).closeEff)
    (ht : s.tokenOk n token = true) (hx : (s.polOf n).wdg.extMax = 0 ∨ (s.wd n).extUsed = true ∨ units = 0) :
    s.extension n token units = s.modWdg n fun w => { w with last := 5, xRefused := satInc w.xRefused } := by
  unfold State.extension
  dsimp only
  rw [if_neg (by omega), if_neg (by simp [ht]), if_pos (by simpa [or_assoc] using hx)]

/-! ## The fields' writes -/

theorem State.fieldWrite_token (s : State) (n : Fin 128) (token : DWord) :
    s.fieldWrite n 0x0050 token.toNat =
      if !(s.wd n).armed then (s, true) else if s.watching n then (s.service n token, false) else (s, false) := by
  show s.wdgTokenW n token.toNat = _
  rw [State.wdgTokenW, BitVec.ofNat_toNat, BitVec.setWidth_eq]

theorem State.fieldWrite_extend (s : State) (n : Fin 128) (token : DWord) (units : Word) :
    s.fieldWrite n 0x0058 (token.toNat + 2 ^ 64 * units.toNat) =
      if !(s.wd n).armed then (s, true) else if s.watching n then (s.extension n token units, false) else (s, false) := by
  have ht : BitVec.ofNat 64 (token.toNat + 2 ^ 64 * units.toNat) = token := by
    apply BitVec.eq_of_toNat_eq
    rw [BitVec.toNat_ofNat, Nat.add_mul_mod_self_left, Nat.mod_eq_of_lt token.isLt]
  have hu : BitVec.ofNat 32 ((token.toNat + 2 ^ 64 * units.toNat) >>> 64) = units := by
    apply BitVec.eq_of_toNat_eq
    have := token.isLt
    rw [BitVec.toNat_ofNat, Nat.shiftRight_eq_div_pow, Nat.add_mul_div_left _ _ (by decide), Nat.div_eq_of_lt this, Nat.zero_add,
      Nat.mod_eq_of_lt units.isLt]
  show s.wdgExtendW n _ = _
  rw [State.wdgExtendW, ht, hu]

end Sys2Proof.Machine

namespace Sys2Proof

open Sys2Proof.Machine

/-- Settles O25: the mailbox's PAGE PROGRAM comes to a service or an extension of the watchdog. -/
theorem watchdogFieldsServeAndExtend : Obligations.WatchdogFieldsServeAndExtend := by
  intro s n token units w x
  let u := s.mbxTaken n
  have htoken : s.mbxTakes n 0x0050 → exec (.wdgToken n token) s = .next ((u.fieldProgram n 0x0050 token.toNat).keepCs n false) := fun h =>
    congrArg Host.Outcome.next (State.mbxPage_dword token h (.inl rfl))
  have hextend : s.mbxTakes n 0x0058 →
      exec (.wdgExtend n token units) s = .next ((u.fieldProgram n 0x0058 (token.toNat + 2 ^ 64 * units.toNat)).keepCs n false) := fun h =>
    congrArg Host.Outcome.next (State.mbxPage_extend token units h)
  have hcs : (u.port n).burstOpen = false := by simp [u, State.mbxTaken, State.seen]
  have hservice : s.mbxTakes n 0x0050 → w.armed = true → s.watching n = true → ((u.service n token).mb n).latched = (u.mb n).latched →
      exec (.wdgToken n token) s = .next ((u.service n token).keepCs n false) := fun ht ha hw hl => by
    have hf : u.fieldWrite n 0x0050 token.toNat = (u.service n token, false) := (State.fieldWrite_token u n token).trans
      ((if_neg (by rw [show (u.wd n).armed = true from ha]; decide)).trans (if_pos hw))
    rw [htoken ht, State.fieldProgram_acts hf hl]
  have hextension : s.mbxTakes n 0x0058 → w.armed = true → s.watching n = true →
      ((u.extension n token units).mb n).latched = (u.mb n).latched →
      exec (.wdgExtend n token units) s = .next ((u.extension n token units).keepCs n false) := fun ht ha hw hl => by
    have hf : u.fieldWrite n 0x0058 (token.toNat + 2 ^ 64 * units.toNat) = (u.extension n token units, false) :=
      (State.fieldWrite_extend u n token units).trans
        ((if_neg (by rw [show (u.wd n).armed = true from ha]; decide)).trans (if_pos hw))
    rw [hextend ht, State.fieldProgram_acts hf hl]
  refine ⟨fun i off hi ht => ?idle, fun harm hwat hclose => ⟨fun ht ho hok => ?accepted, fun ht ho hc hv => ?early,
    fun ht hok hx hu h0 => ?granted, fun ht hok hx => ?refused⟩⟩
  case idle =>
    have hfield : ∃ v, exec i s = .next ((u.fieldProgram n off v).keepCs n false) ∧
        (w.armed = false → u.fieldWrite n off v = (u, true)) ∧
        (w.armed = true → s.watching n = false → u.fieldWrite n off v = (u, false)) := by
      have hidle : ∀ q : State, (w.armed = false →
            (if (!(u.wd n).armed) = true then (u, true) else if u.watching n = true then (q, false) else (u, false)) = (u, true)) ∧
          (w.armed = true → s.watching n = false →
            (if (!(u.wd n).armed) = true then (u, true) else if u.watching n = true then (q, false) else (u, false)) = (u, false)) :=
        fun q => ⟨fun ha => if_pos (by rw [show (u.wd n).armed = false from ha]; rfl), fun ha hw =>
          (if_neg (by rw [show (u.wd n).armed = true from ha]; decide)).trans (if_neg (by rw [show u.watching n = false from hw]; decide))⟩
      rcases List.mem_cons.mp hi with h | h
      · obtain ⟨rfl, rfl⟩ := Prod.mk.inj h
        exact ⟨_, htoken ht, by rw [State.fieldWrite_token]; exact hidle _⟩
      · obtain ⟨rfl, rfl⟩ := Prod.mk.inj (List.mem_singleton.mp h)
        exact ⟨_, hextend ht, by rw [State.fieldWrite_extend]; exact hidle _⟩
    obtain ⟨v, he, hun, hidle⟩ := hfield
    refine ⟨fun ha => ?_, fun ha hw => ?_⟩
    · rw [he, State.fieldProgram_ignored (hun ha), State.keepCs_high]
      rw [State.mbxIgnored, State.modPort_port]
      exact hcs
    · rw [he, State.fieldProgram_acts (hidle ha hw) rfl, State.keepCs_high hcs]
  case accepted =>
    have hsv := State.service_accepted (s := u) (token := token) hclose ho hok
    refine ⟨(u.service n token).keepCs n false, hservice ht harm hwat (by rw [hsv]; rfl), by rw [hsv]; rfl, ?_⟩
    rw [hsv]
    refine (State.modWdg_wd _ _ _).trans ?_
    rw [State.publish_wd]
    exact congrArg (fun v : Wdg => { v.published (Config.challenge s.drawn) with last := 1 }) (State.modWdg_wd _ _ _)
  case early =>
    obtain ⟨e, hv⟩ := State.violation_early (s := u) hc hv
    have hsv := (State.service_early (s := u) (token := token) hclose ho).trans hv
    refine ⟨(u.service n token).keepCs n false, hservice ht harm hwat (by rw [hsv]; simp), ?_, ?_⟩ <;> rw [hsv]
    · exact (State.summary_ctl _ _ _).trans (State.raise_ctl _ _ _ _)
    · exact ((State.summary_wd _ _ _ _).trans (State.raise_wd _ _ _ _ _)).trans (State.modWdg_wd _ _ _)
  case granted =>
    have hex := State.extension_granted (s := u) hclose hok hx hu h0
    refine ⟨(u.extension n token units).keepCs n false, hextension ht harm hwat (by rw [hex]; simp [State.publish_mb]), ?_, ?_⟩ <;> rw [hex]
    · exact (State.log_drawn _ _ _ _).trans (State.raise_drawn _ _ _ _)
    · refine ((State.log_wd _ _ _ _ _).trans (State.raise_wd _ _ _ _ _)).trans ((State.publish_wd _ _).trans ?_)
      exact congrArg (Wdg.published (Config.challenge s.drawn)) (State.modWdg_wd _ _ _)
  case refused =>
    have hex := State.extension_refused (s := u) hclose hok hx
    refine ⟨(u.extension n token units).keepCs n false, hextension ht harm hwat (by rw [hex]; rfl), ?_, ?_⟩ <;> rw [hex]
    · rfl
    · exact State.modWdg_wd _ _ _

end Sys2Proof

end


section
/-! SUPPORT. Acceptance of a proof (R45, R117). -/

namespace Sys2Proof.Machine

open Sys2Proof

/-- Nothing is reverted where no plate is on proof. -/
theorem State.revertBelow_none {s : State} (h : ∀ m, (s.plates m).onProof = none) : s.revertBelow = s :=
  State.forChans_eq fun n => by rw [h n]

/-- The plate on proof of a table, from the states of its plates alone. -/
theorem PTable.onProof_congr {t u : PTable} (ha : u.a.state = t.a.state) (hb : u.b.state = t.b.state) : u.onProof = t.onProof := by
  rw [PTable.onProof, ha, hb]
  rfl

theorem PTable.onProof_state {t : PTable} {p : PlateId} (h : t.onProof = some p) : (t.get p).state = .proof := by
  unfold PTable.onProof at h
  split at h
  · cases h; assumption
  · split at h
    · cases h; assumption
    · cases h

/-- The table that an acceptance commits: the proof plate ACTIVE, an ACTIVE other plate PREVIOUS (R117). -/
def PTable.accepted (t : PTable) (p other : PlateId) (adv : Bool) : PTable :=
  let t := if (t.get other).state = .active then t.withState other .previous else t
  t.set p { t.get p with state := .active, adv := (t.get p).adv || adv }

theorem PTable.accepted_self (t : PTable) (p other : PlateId) (adv : Bool) : ((t.accepted p other adv).get p).state = .active := by
  rw [PTable.accepted, PTable.get_set_self]

theorem PTable.accepted_other (t : PTable) {p other : PlateId} (adv : Bool) (h : other ≠ p) :
    ((t.accepted p other adv).get other).state = if (t.get other).state = .active then PState.previous else (t.get other).state := by
  rw [PTable.accepted, PTable.get_set_ne _ _ h]
  split
  · rw [PTable.get_withState_self]
  · rfl

/-- The plate table after an acceptance has no plate on proof. -/
theorem PTable.accepted_onProof (t : PTable) {p other : PlateId} (adv : Bool) (hp : p = .a ∧ other = .b ∨ p = .b ∧ other = .a)
    (ho : (t.get other).state ≠ .proof) : (t.accepted p other adv).onProof = none := by
  have hself := t.accepted_self p other adv
  have hoth : ((t.accepted p other adv).get other).state ≠ .proof := by
    rw [PTable.accepted_other t adv (by rcases hp with ⟨rfl, rfl⟩ | ⟨rfl, rfl⟩ <;> nofun)]
    split
    · nofun
    · exact ho
  unfold PTable.onProof
  rcases hp with ⟨rfl, rfl⟩ | ⟨rfl, rfl⟩
  · rw [if_neg (show (t.accepted .a .b adv).a.state ≠ .proof by rw [show (t.accepted .a .b adv).a.state = _ from hself]; nofun),
      if_neg (show (t.accepted .a .b adv).b.state ≠ .proof from hoth)]
  · rw [if_neg (show (t.accepted .b .a adv).a.state ≠ .proof from hoth),
      if_neg (show (t.accepted .b .a adv).b.state ≠ .proof by rw [show (t.accepted .b .a adv).b.state = _ from hself]; nofun)]

/-- The end of a proof in platform control: a channel in PROOF is RUNNING. -/
def State.endProof (s : State) (n : Fin 128) : State :=
  if (s.ch n).state = .proof then
    (s.transition n .running .proof).log 0x0014 n.1
      [ChState.running.code, Cause.proof.code, ofLe (vget ((s.transition n .running .proof).mb n).meas 0).toList]
  else s

theorem State.endProof_frame (s : State) (n : Fin 128) : Frame [.ctl, .trace, .rings] s (s.endProof n) := by
  unfold State.endProof
  split
  · exact State.log_frame (State.transition_frame (Frame.refl _ s) (by decide)) (by decide)
  · exact Frame.refl _ s

/-- What an acceptance leaves of the plates, where no other channel is on proof. -/
theorem State.acceptCommit_plt {s : State} {n : Fin 128} {p other : PlateId} (time : Nat) (h : (s.plates n).onProof = some p)
    (hp : p = .a ∧ other = .b ∨ p = .b ∧ other = .a) (ho : ((s.plates n).get other).state ≠ .proof) (hf : s.seqFull n = false)
    (hm : ∀ m, m ≠ n → (s.plates m).onProof = none) :
    let t := (s.plates n).accepted p other (s.polOf n).fam.advOnAccept
    let u := s.commitPlates n t pcAccepted
    (s.acceptCommit n time).plt = (u.modPlt n fun x => { x with deadline := none, accepted := none, firstExpiry := none, show_ := 2 }).plt ∧
      (s.acceptCommit n time).ports = s.ports ∧ (s.acceptCommit n time).mbx = s.mbx := by
  intro t u
  have hoth : (if p = .a then PlateId.b else .a) = other := by rcases hp with ⟨rfl, rfl⟩ | ⟨rfl, rfl⟩ <;> rfl
  unfold State.acceptCommit
  rw [h]
  dsimp only
  rw [if_neg (by rw [hf]; exact Bool.false_ne_true), hoth]
  have hu : Frame [.plt, .trace, .rings, .led] s u := State.commitPlates_frame (Frame.refl _ s) (by decide)
  generalize hv : State.raise (u.modPlt n fun x => { x with deadline := none, accepted := none, firstExpiry := none, show_ := 2 }) 0x0406 n.1
    [p.code, time] = v
  have hvplt : v.plt = (u.modPlt n fun x => { x with deadline := none, accepted := none, firstExpiry := none, show_ := 2 }).plt := by
    rw [← hv, State.raise_plt]
  have hvports : v.ports = s.ports := by rw [← hv, State.raise_ports]; exact hu .ports (by decide)
  have hvmbx : v.mbx = s.mbx := by rw [← hv, State.raise_mbx]; exact hu .mbx (by decide)
  have hw : ∀ w : State, Frame [.ctl, .trace, .rings] v w →
      w.completeAdvances.revertBelow.plt = v.plt ∧ w.completeAdvances.revertBelow.ports = v.ports ∧
        w.completeAdvances.revertBelow.mbx = v.mbx := by
    intro w hvw
    have hadv : Frame [.ctl, .trace, .rings, .mins, .led] v w.completeAdvances :=
      State.completeAdvances_frame (Frame.comp (Frame.refl _ v) hvw (by decide)) (by decide)
    have hplt : w.completeAdvances.plt = v.plt := hadv .plt (by decide)
    rw [State.revertBelow_none]
    · exact ⟨hplt, hadv .ports (by decide), hadv .mbx (by decide)⟩
    · intro m
      rw [State.plates, State.pl, hplt, hvplt]
      by_cases hmn : m = n
      · subst hmn
        have hpl : vget (u.modPlt m fun x => { x with deadline := none, accepted := none, firstExpiry := none, show_ := 2 }).plt m = _ :=
          State.modPlt_pl _ _ _
        rw [hpl]
        show (u.plates m).onProof = none
        rw [PTable.onProof_congr (State.commitPlates_state t pcAccepted hf .a) (State.commitPlates_state t pcAccepted hf .b)]
        exact PTable.accepted_onProof _ _ hp ho
      · have hpl : vget (u.modPlt n fun x => { x with deadline := none, accepted := none, firstExpiry := none, show_ := 2 }).plt m = _ :=
          State.modPlt_pl_ne _ _ _ hmn
        rw [hpl, State.commitPlates_pl_ne t pcAccepted hmn]
        exact hm m hmn
  rw [← hvplt, ← hvports, ← hvmbx]
  have hend := hw (v.endProof n) (v.endProof_frame n)
  subst hv
  exact hend

/-- An acceptance that meets R45 and R117, with supply, commits. -/
theorem State.proofAcceptAt_commits {s : State} {n : Fin 128} {time : Nat} {v : DWord} (ho : s.onProof n = true) (hv : v = (s.pl n).challenge)
    (hd : ∀ d, (s.pl n).deadline = some d → time < d) (he : ∀ e, (s.pl n).firstExpiry = some e → time < e) (ha : (s.pl n).accepted = none)
    (hi : s.inhibited = false) : s.proofAcceptAt n time v = (s.acceptCommit n time, false) := by
  have hok : s.acceptOk n time v = true := by
    have hd' : (match (s.pl n).deadline with | some d => decide (time < d) | none => true) = true := by
      cases h : (s.pl n).deadline with
      | none => rfl
      | some d => exact decide_eq_true (hd d h)
    have he' : (match (s.pl n).firstExpiry with | some e => decide (time < e) | none => true) = true := by
      cases h : (s.pl n).firstExpiry with
      | none => rfl
      | some e => exact decide_eq_true (he e h)
    unfold State.acceptOk
    dsimp only
    rw [ho, decide_eq_true hv, Bool.true_and, Bool.true_and, Bool.and_eq_true]
    exact ⟨hd', he'⟩
  rw [State.proofAcceptAt, if_pos hok, State.judgeAccept, if_neg (by simp [hok, ha]), if_neg (by simp [hi])]

/-- Another value, or no proof, is ignored. -/
theorem State.proofAcceptAt_ignored {s : State} {n : Fin 128} {time : Nat} {v : DWord}
    (h : s.onProof n = false ∨ v ≠ (s.pl n).challenge) : s.proofAcceptAt n time v = (s, true) := by
  refine if_neg ?_
  unfold State.acceptOk
  rcases h with h | h <;> simp [h]

theorem State.fieldWrite_accept {s : State} (n : Fin 128) (v : DWord) (h : s.dev.ccAbsent = false) :
    s.fieldWrite n 0x0088 v.toNat = s.proofAcceptAt n s.now v := by
  show (if s.dev.ccAbsent then s.latch n (.proofAccept (BitVec.ofNat 64 v.toNat)) else s.proofAcceptAt n s.now (BitVec.ofNat 64 v.toNat)) = _
  rw [h, if_neg Bool.false_ne_true, BitVec.ofNat_toNat, BitVec.setWidth_eq]

end Sys2Proof.Machine

namespace Sys2Proof

open Sys2Proof.Machine

/-- Settles O26: no other proof is in course, so the acceptance's commit is all that changes. -/
theorem proofAcceptMakesThePlateActive : Obligations.ProofAcceptMakesThePlateActive := by
  intro s n v h hcc
  let u := s.mbxTaken n
  have hrun : exec (.proofAccept n v) s = .next ((u.fieldProgram n 0x0088 v.toNat).keepCs n false) :=
    congrArg Host.Outcome.next (State.mbxPage_dword v h (.inr (.inl rfl)))
  refine ⟨fun p other hp hpo hrw ho hv hd he ha hi hf hm => ?accepted, fun hx => ?ignored⟩
  case accepted =>
    have hon : u.onProof n = true := by
      show ((s.plates n).onProof.isSome && !(s.pl n).revertWaits) = true
      rw [hp, hrw]
      rfl
    have hw : u.fieldWrite n 0x0088 v.toNat = (u.acceptCommit n s.now, false) :=
      (State.fieldWrite_accept (s := u) n v hcc).trans (State.proofAcceptAt_commits (s := u) hon hv hd he ha hi)
    obtain ⟨hplt, hports, hmbx⟩ := State.acceptCommit_plt (s := u) s.now hp hpo ho hf hm
    have hl : ((u.acceptCommit n s.now).mb n).latched = (u.mb n).latched := by rw [State.mb, hmbx]; rfl
    refine ⟨(u.acceptCommit n s.now).keepCs n false, by rw [hrun, State.fieldProgram_acts hw hl], ?_⟩
    have hpl : ((u.acceptCommit n s.now).keepCs n false).pl n = _ := (congrArg (vget · n) hplt).trans (State.modPlt_pl _ _ _)
    have hport : (((u.acceptCommit n s.now).keepCs n false).port n).ignored = (s.port n).ignored := by
      refine (congrArg HostPort.ignored (State.modPort_port _ _ _)).trans ?_
      rw [State.port, hports]
      show (u.port n).ignored = (s.port n).ignored
      simp [u, State.mbxTaken, State.seen]
    have hst := State.commitPlates_state (s := u) ((s.plates n).accepted p other (s.polOf n).fam.advOnAccept) pcAccepted hf
    have hne : other ≠ p := by rcases hpo with ⟨rfl, rfl⟩ | ⟨rfl, rfl⟩ <;> nofun
    rw [State.plates, hpl]
    exact ⟨(hst p).trans (PTable.accepted_self _ _ _ _), (hst other).trans (PTable.accepted_other _ _ hne), rfl, rfl, hport⟩
  case ignored =>
    have hw : u.fieldWrite n 0x0088 v.toNat = (u, true) := (State.fieldWrite_accept (s := u) n v hcc).trans (State.proofAcceptAt_ignored (s := u) hx)
    rw [hrun, State.fieldProgram_ignored hw, State.keepCs_high]
    rw [State.mbxIgnored, State.modPort_port]
    simp [u, State.mbxTaken, State.seen]

end Sys2Proof

end


section
/-! SUPPORT. The update session of a host (R49, R112, R121). -/

namespace Sys2Proof.Machine

open Sys2Proof

/-- The registers of the update session that a host reads back. -/
abbrev Mailbox.update (b : Mailbox) : BitVec 3 × Byte × Half := (b.session, b.updPlate, b.updStatus)

theorem State.setPhase_update (s : State) (n : Fin 128) (p : Phase) : ((s.setPhase n p).mb n).update = (s.mb n).update := by
  unfold State.setPhase
  dsimp only
  split
  · rfl
  · split <;> simp [State.closeCdi, State.extend_mb]

theorem State.setPhase_plt (s : State) (n : Fin 128) (p : Phase) : (s.setPhase n p).plt = s.plt :=
  State.setPhase_frame (Frame.refl _ s) (Field.sub_refl _) .plt (by decide)

theorem State.setPhase_pol (s : State) (n : Fin 128) (p : Phase) : (s.setPhase n p).pol = s.pol :=
  State.setPhase_frame (Frame.refl _ s) (Field.sub_refl _) .pol (by decide)

/-- The phase in which a session's end leaves a channel. -/
def Phase.left (p : Phase) : Phase := if p = .update then .run else p

theorem State.leaveUpdate_parts (s : State) (n : Fin 128) :
    ((s.leaveUpdate n).st n).phase = (s.st n).phase.left ∧ ((s.leaveUpdate n).mb n).update = (s.mb n).update ∧
      ((s.leaveUpdate n).mb n).latched = (s.mb n).latched ∧ (s.leaveUpdate n).plt = s.plt ∧ (s.leaveUpdate n).pol = s.pol := by
  unfold State.leaveUpdate Phase.left
  split
  · exact ⟨State.setPhase_phase _ _ _, State.setPhase_update _ _ _, (State.setPhase_mb _ _ _).2, State.setPhase_plt _ _ _,
      State.setPhase_pol _ _ _⟩
  · exact ⟨rfl, rfl, rfl, rfl, rfl⟩

/-- The mailbox with the session in a state, with a status. -/
theorem State.setSession_mb (s : State) (n : Fin 128) (x : BitVec 3) (st : Status) :
    (s.setSession n x st).mb n = { s.mb n with session := x, updStatus := st.zeroExtend 16 } :=
  (State.raise_mb _ _ _ _ _).trans (State.modMbx_mb _ _ _)

/-- What the end of a session leaves (R49). -/
theorem State.endSession_parts (s : State) (n : Fin 128) (st : Status) :
    ((s.endSession n st).mb n).update = (if st = stSuccess then 3 else 4, (s.mb n).updPlate, st.zeroExtend 16) ∧
      ((s.endSession n st).mb n).latched = (s.mb n).latched ∧ ((s.endSession n st).st n).phase = (s.st n).phase.left ∧
      (s.endSession n st).plt = s.plt ∧ (s.endSession n st).pol = s.pol := by
  unfold State.endSession
  generalize hu : s.setSession n (if st = stSuccess then 3 else 4) st = u
  have hmb := s.setSession_mb n (if st = stSuccess then 3 else 4) st
  have hfr : Frame [.mbx, .rings] s u := hu ▸ State.setSession_frame (Frame.refl _ s) (by decide)
  rw [hu] at hmb
  obtain ⟨hp, hup, hl, hplt, hpol⟩ := u.leaveUpdate_parts n
  have hst : u.st n = s.st n := congrArg (vget · n) (hfr .stn (by decide))
  refine ⟨?_, ?_, ?_, hplt.trans (hfr .plt (by decide)), hpol.trans (hfr .pol (by decide))⟩
  · rw [hup, hmb]
  · rw [hl, hmb]
  · rw [hp, hst]

/-! ## UPD_OPEN -/

/-- The conditions on an open that its phase and the managers' claims leave (R49, R162). -/
def State.mayOpen (s : State) (n : Fin 128) (p : PlateId) : Prop :=
  s.onProof n = false ∧ (s.polOf n).hostUpd.getLsbD p.code = true ∧ ((s.plates n).get p).state ≠ .active ∧
    ((s.plates n).get p).state ≠ .proof ∧ s.fallback = false ∧ (s.st n).tbl.stagingWin.isSome = true ∧
    (p = .recov → (s.polOf n).plate.srcRec ≠ 0)

theorem State.openStatus_run {s : State} {n : Fin 128} {p : PlateId} (hr : (s.st n).phase = .run) (h : s.mayOpen n p) :
    s.openStatus n p (s.inRun n) = if ((s.pl n).staging.get p).managed then stBusy else stSuccess := by
  obtain ⟨h1, h2, h3, h4, h5, h6, h7⟩ := h
  have hin : s.inRun n = true := decide_eq_true hr
  refine if_neg ?_
  rw [hin, h1, h2, h5, Option.isNone_eq_false_iff.mpr h6]
  simpa [hr, h3, h4] using h7

theorem State.openStatus_phase {s : State} {n : Fin 128} {p : PlateId} (hr : (s.st n).phase ≠ .run) :
    s.openStatus n p (s.inRun n) = stNotPermitted := if_pos (by simp [hr])

/-- The mailbox that an open leaves before its session is judged. -/
def Mailbox.opened (p : PlateId) (v : Nat) (b : Mailbox) : Mailbox :=
  { b with updPlate := BitVec.ofNat 8 p.code, updLen := BitVec.ofNat 32 (v >>> 32), updLeaves := 0 }

theorem State.updOpenAt_success {s : State} {n : Fin 128} {inRun : Bool} {v : DWord} {p : PlateId} (hp : plateOf (v.toNat % 256) = some p)
    (h : s.openStatus n p inRun = stSuccess) :
    ∃ t, s.updOpenAt n inRun v = (t, false) ∧ (t.mb n).update = (1, BitVec.ofNat 8 p.code, 0) ∧ (t.mb n).latched = (s.mb n).latched ∧
      (t.st n).phase = .update := by
  refine ⟨((s.modMbx n (Mailbox.opened p v.toNat)).setSession n 1 stSuccess).setPhase n .update, ?_, ?_, ?_, State.setPhase_phase _ _ _⟩
  · unfold State.updOpenAt
    rw [hp]
    exact if_pos h
  · rw [State.setPhase_update, State.setSession_mb, State.modMbx_mb]
    rfl
  · rw [(State.setPhase_mb _ _ _).2, State.setSession_mb, State.modMbx_mb]
    rfl

theorem State.updOpenAt_failed {s : State} {n : Fin 128} {inRun : Bool} {v : DWord} {p : PlateId} {st : Status}
    (hp : plateOf (v.toNat % 256) = some p) (h : s.openStatus n p inRun = st) (hst : st ≠ stSuccess) :
    ∃ t, s.updOpenAt n inRun v = (t, false) ∧ (t.mb n).update = (4, BitVec.ofNat 8 p.code, st.zeroExtend 16) ∧
      (t.mb n).latched = (s.mb n).latched ∧ (t.st n).phase = (s.st n).phase.left := by
  obtain ⟨hup, hl, hph, -, -⟩ := (s.modMbx n (Mailbox.opened p v.toNat)).endSession_parts n st
  refine ⟨(s.modMbx n (Mailbox.opened p v.toNat)).endSession n st, ?_, ?_, ?_, hph⟩
  · unfold State.updOpenAt
    rw [hp]
    dsimp only
    rw [h]
    exact if_neg hst
  · rw [hup, if_neg hst, State.modMbx_mb]
    rfl
  · rw [hl, State.modMbx_mb]
    rfl

theorem State.fieldWrite_updOpen {s : State} (n : Fin 128) (v : DWord) (h : s.dev.ccAbsent = false) :
    s.fieldWrite n 0x0200 v.toNat = s.updOpenAt n (s.inRun n) v := by
  show (if s.dev.ccAbsent then s.latch n (.updOpen (BitVec.ofNat 64 v.toNat)) else s.updOpenAt n (s.inRun n) (BitVec.ofNat 64 v.toNat)) = _
  rw [h, if_neg Bool.false_ne_true, BitVec.ofNat_toNat, BitVec.setWidth_eq]

/-! ## UPD_COMMIT -/

theorem State.updCommitNow_verifying {s : State} {n : Fin 128} {p : PlateId} (hs : (s.mb n).session = 1) (hp : s.sessionPlate n = some p)
    (hi : s.inhibited = false) (hf : s.seqFull n = false) :
    ∃ t, s.updCommitNow n = (t, false) ∧ (t.mb n).session = 2 ∧ (t.mb n).latched = (s.mb n).latched ∧
      ((t.plates n).get p).state = .staging ∧ ((t.plates n).get p).host = true := by
  unfold State.updCommitNow
  rw [hp, decide_eq_true hs]
  dsimp only
  rw [if_neg (by rw [hi]; exact Bool.false_ne_true), if_neg (by rw [hf]; exact Bool.false_ne_true)]
  refine ⟨_, rfl, ?_⟩
  generalize hu : State.modPlt (s.setSession n 2 stSuccess) n _ = u
  have humb : u.mb n = { s.mb n with session := 2, updStatus := stSuccess.zeroExtend 16 } := by
    rw [← hu, State.modPlt_mb, State.setSession_mb]
  have hupl : (u.pl n).table = (s.pl n).table := by
    rw [← hu, State.modPlt_pl]
    have hfr : Frame [.mbx, .rings] s (s.setSession n 2 stSuccess) := State.setSession_frame (Frame.refl _ s) (by decide)
    exact congrArg (fun v => (vget v n).table) (hfr .plt (by decide))
  have huf : u.seqFull n = false := by rw [State.seqFull, hupl]; exact hf
  generalize he : (u.polOf n).plate.stagingEntry p true = e
  have hest : e.state = .staging ∧ e.host = true := by rw [← he]; exact ⟨rfl, rfl⟩
  generalize hw : u.commitTable n ((u.plates n).set p e) pcStaging = w
  have hwfr : Frame [.plt, .trace, .rings, .led] u w := hw ▸ State.commitTable_frame (Frame.refl _ u) (by decide)
  have hwmb : w.mb n = u.mb n := congrArg (vget · n) (hwfr .mbx (by decide))
  have hwp : ((w.plates n).get p).noAdv = e.noAdv := by
    rw [← hw, State.commitTable_plates _ _ huf, State.recordOf_noAdv, PTable.get_set_self]
  have hend : ∀ x : State, x.mbx = w.mbx → x.plt = w.plt → (x.mb n).session = 2 ∧ (x.mb n).latched = (s.mb n).latched ∧
      ((x.plates n).get p).state = .staging ∧ ((x.plates n).get p).host = true := by
    intro x hm hpl
    have hxp : x.plates n = w.plates n := by rw [State.plates, State.pl, hpl]; rfl
    have hxm : x.mb n = w.mb n := by rw [State.mb, hm]; rfl
    rw [hxp, hxm, hwmb, humb]
    exact ⟨rfl, rfl, (congrArg Plate.state hwp).trans hest.1, (congrArg Plate.host hwp).trans hest.2⟩
  split
  · have hl : Frame [.fps] w (w.localWrite n true 0) := State.localWrite_frame (Frame.refl _ w) (by decide)
    exact hend _ (hl .mbx (by decide)) (hl .plt (by decide))
  · exact hend w rfl rfl

theorem State.fieldWrite_updCommit {s : State} (n : Fin 128) (h : s.dev.ccAbsent = false) :
    s.fieldWrite n 0x0210 (1 : Word).toNat = s.updCommitNow n := by
  show (if (1 : Nat) ≠ 1 then (s, true) else if s.dev.ccAbsent then s.latch n .updCommit else s.updCommitNow n) = _
  rw [h, if_neg (by decide), if_neg Bool.false_ne_true]

/-! ## UPD_ABORT -/

theorem State.updAbortNow_parts {s : State} {n : Fin 128} (hs : (s.mb n).session = 1 ∨ (s.mb n).session = 2) :
    ∃ t, s.updAbortNow n = (t, false) ∧ (t.mb n).update = (4, (s.mb n).updPlate, stAborted.zeroExtend 16) ∧
      (t.mb n).latched = (s.mb n).latched ∧ (t.st n).phase = (s.st n).phase.left := by
  unfold State.updAbortNow
  rw [if_pos hs]
  dsimp only
  have hend : ∀ u : State, u.mb n = s.mb n → u.st n = s.st n →
      ∃ t, (u.endSession n stAborted, false) = (t, false) ∧ (t.mb n).update = (4, (s.mb n).updPlate, stAborted.zeroExtend 16) ∧
        (t.mb n).latched = (s.mb n).latched ∧ (t.st n).phase = (s.st n).phase.left := by
    intro u humb hust
    obtain ⟨hup, hl, hph, -, -⟩ := u.endSession_parts n stAborted
    rw [humb] at hup hl
    rw [hust] at hph
    exact ⟨_, rfl, hup, hl, hph⟩
  split
  · exact hend _ rfl rfl
  · exact hend s rfl rfl

theorem State.fieldWrite_updAbort {s : State} (n : Fin 128) (h : s.dev.ccAbsent = false) :
    s.fieldWrite n 0x0220 (1 : Word).toNat = s.updAbortNow n := by
  show (if (1 : Nat) ≠ 1 then (s, true) else if s.dev.ccAbsent then s.latch n .updAbort else s.updAbortNow n) = _
  rw [h, if_neg (by decide), if_neg Bool.false_ne_true]

/-! ## The end of the device's copy -/

/-- The state in which the outcome of the copy is put in the mailbox and on the plate. -/
def State.copied (s : State) (n : Fin 128) (p : PlateId) (leaves : Nat) : State :=
  (if ((s.plates n).get p).src = 2 then s.localDone n else s).modMbx n fun b =>
    { b with updLeaves := if leaves = 0xFFFFFFFF then b.updLeaves else BitVec.ofNat 32 leaves }

theorem State.copied_parts (s : State) (n : Fin 128) (p : PlateId) (leaves : Nat) :
    (s.copied n p leaves).plt = s.plt ∧ (s.copied n p leaves).pol = s.pol ∧ (s.copied n p leaves).stn = s.stn ∧
      ((s.copied n p leaves).mb n).updPlate = (s.mb n).updPlate := by
  unfold State.copied
  have hl : Frame [.fps] s (if ((s.plates n).get p).src = 2 then s.localDone n else s) := by
    split
    · exact State.localDone_frame (Frame.refl _ s) (by decide)
    · exact Frame.refl _ s
  generalize (if ((s.plates n).get p).src = 2 then s.localDone n else s) = u at hl ⊢
  refine ⟨hl .plt (by decide), hl .pol (by decide), hl .stn (by decide), ?_⟩
  rw [State.modMbx_mb]
  exact congrArg (fun v => (vget v n).updPlate) (hl .mbx (by decide))

/-- The commit of a staged plate. -/
theorem State.commitStaged_plate {s : State} {n : Fin 128} {p : PlateId} (man : List Byte) (host conf : Bool) (hf : s.seqFull n = false) :
    (((s.commitStaged n p man host conf).plates n).get p).state = .staged ∧
      (((s.commitStaged n p man host conf).plates n).get p).svn = BitVec.ofNat 32 (manSvn man) := by
  unfold State.commitStaged
  dsimp only
  generalize hu : s.modPlt n _ = u
  have huf : u.seqFull n = false := by
    rw [← hf, ← hu, State.seqFull, State.modPlt_pl]
    rfl
  have hp := State.commitPlates_plate (s := u) ((u.plates n).set p
    { (s.polOf n).plate.stagedEntry p man host with src := ((s.plates n).get p).src, locBase := ((s.plates n).get p).locBase }) pcStaged huf p
  rw [PTable.get_set_self] at hp
  exact ⟨congrArg Plate.state hp, congrArg Plate.svn hp⟩

theorem exec_updVerifyDone {s : State} {n : Fin 128} {ev : CopyEv} {p : PlateId} {w : Fin 32} (hcc : s.dev.ccAbsent = false)
    (hs : (s.mb n).session = 2) (hp : s.sessionPlate n = some p) (hw : (s.st n).tbl.stagingWin = some w)
    (ha : (s.polOf n).plate.hostArm = false) :
    let r := s.copyOutcome n p w ev.passData ev.stored
    let u := s.copied n p r.2.2.2
    (r.1 = stSuccess → ∃ v : State, v.plt = u.plt ∧ v.pol = u.pol ∧ v.stn = u.stn ∧ v.mbx = u.mbx ∧
      exec (.updVerifyDone n ev) s = .next ((v.commitStaged n p r.2.1 true false).endSession n stSuccess)) ∧
    (r.1 ≠ stSuccess → exec (.updVerifyDone n ev) s = .next (State.endSession
      ((u.verifyFailed n.1 r.1 p.code r.2.1 r.2.2.2).modPlt n fun x => { x with staging := x.staging.set p { x.staging.get p with claim := none } })
      n r.1)) := by
  intro r u
  have hexec : exec (.updVerifyDone n ev) s = .next (
      if r.1 = stSuccess then
        let v := if ((s.plates n).get p).src = 2 then u else u.storePool r.2.1 r.2.2.1
        let t := (v.commitStaged n p r.2.1 true false).endSession n stSuccess
        if (t.polOf n).plate.hostArm && !t.fallback && t.armStatus n p false = stSuccess then t.beginArm n p else t
      else State.endSession
        ((u.verifyFailed n.1 r.1 p.code r.2.1 r.2.2.2).modPlt n fun x => { x with staging := x.staging.set p { x.staging.get p with claim := none } })
        n r.1) := by
    refine congrArg Host.Outcome.next ((if_pos (by rw [hcc, decide_eq_true hs]; rfl)).trans ?_)
    rw [hp, hw]
    rfl
  have hpol : ∀ t : State, t.pol = s.pol → (t.polOf n).plate.hostArm = false := fun t ht => by rw [State.polOf, ht]; exact ha
  obtain ⟨hcplt, hcpol, -, -⟩ := s.copied_parts n p r.2.2.2
  refine ⟨fun hr => ⟨if ((s.plates n).get p).src = 2 then u else u.storePool r.2.1 r.2.2.1, ?_⟩, fun hr => ?_⟩
  · rw [hexec, if_pos hr]
    have hv : Frame [.pool, .led] u (if ((s.plates n).get p).src = 2 then u else u.storePool r.2.1 r.2.2.1) := by
      split
      · exact Frame.refl _ u
      · exact State.storePool_frame (Frame.refl _ u) (by decide)
    dsimp only
    generalize (if ((s.plates n).get p).src = 2 then u else u.storePool r.2.1 r.2.2.1) = v at hv
    have hst : Frame [.plt, .trace, .rings, .led] v (v.commitStaged n p r.2.1 true false) := State.commitStaged_frame (Frame.refl _ v) (by decide)
    have hpv : v.pol = s.pol := (hv .pol (by decide)).trans hcpol
    refine ⟨hv .plt (by decide), hv .pol (by decide), hv .stn (by decide), hv .mbx (by decide), congrArg Host.Outcome.next (if_neg ?_)⟩
    rw [hpol _ (((v.commitStaged n p r.2.1 true false).endSession_parts n stSuccess).2.2.2.2.trans ((hst .pol (by decide)).trans hpv))]
    simp
  · rw [hexec, if_neg hr]

end Sys2Proof.Machine

namespace Sys2Proof

open Sys2Proof.Machine

/-- Settles O27, field by field; the end of the device's copy by its outcome. -/
theorem updateSessionFollowsItsFields : Obligations.UpdateSessionFollowsItsFields := by
  intro s n v p w ev hcc pst back
  let u := s.mbxTaken n
  have hphase : (u.st n).phase = (s.st n).phase := by simp [u, State.mbxTaken, State.seen]
  have htbl : (u.st n).tbl = (s.st n).tbl := by simp [u, State.mbxTaken, State.seen]
  have hmayu : s.mayOpen n p → u.mayOpen n p := by
    rintro ⟨h1, h2, h3, h4, h5, h6, h7⟩
    exact ⟨h1, h2, h3, h4, h5, by rw [htbl]; exact h6, h7⟩
  have hopen : s.mbxTakes n 0x0200 → ∀ t, u.updOpenAt n (u.inRun n) v = (t, false) → (t.mb n).latched = (s.mb n).latched →
      exec (.updOpen n v) s = .next (t.keepCs n false) := fun h t ht hl =>
    congrArg Host.Outcome.next ((State.mbxPage_dword v h (.inr (.inr rfl))).trans (congrArg (State.keepCs · n false)
      (State.fieldProgram_acts ((State.fieldWrite_updOpen (s := u) n v hcc).trans ht) hl)))
  have hword : ∀ off t, s.mbxTakes n off → off = 0x0210 ∨ off = 0x0220 → u.fieldWrite n off (1 : Word).toNat = (t, false) →
      (t.mb n).latched = (s.mb n).latched → s.mbxPage n off (leBytes 4 (1 : Word).toNat) = t.keepCs n false := fun off t h ho ht hl =>
    (State.mbxPage_word 1 h (by omega)).trans (congrArg (State.keepCs · n false) (State.fieldProgram_acts ht hl))
  refine ⟨fun h hpl => ?opens, fun h hs hp hi hf => ?commit, fun h hs => ?abort, fun hs hp hw ha => ?verified⟩
  case opens =>
    intro may
    refine ⟨fun hrun hmay hman => ?_, fun hrun hmay hman => ?_, fun hrun => ?_⟩
    · have hst : u.openStatus n p (u.inRun n) = stSuccess := (State.openStatus_run (hphase.trans hrun) (hmayu hmay)).trans (if_neg (by
        rw [show ((u.pl n).staging.get p).managed = false from hman]; exact Bool.false_ne_true))
      obtain ⟨t, ht, hup, hl, hph⟩ := State.updOpenAt_success (s := u) hpl hst
      obtain ⟨h1, h2, -⟩ := Prod.mk.inj hup |>.imp id Prod.mk.inj
      exact ⟨_, hopen h t ht hl, h1, h2, hph⟩
    · have hst : u.openStatus n p (u.inRun n) = stBusy := (State.openStatus_run (hphase.trans hrun) (hmayu hmay)).trans (if_pos hman)
      obtain ⟨t, ht, hup, hl, hph⟩ := State.updOpenAt_failed (s := u) hpl hst (by decide)
      obtain ⟨h1, -, h2⟩ := Prod.mk.inj hup |>.imp id Prod.mk.inj
      refine ⟨_, hopen h t ht hl, h1, h2, hph.trans ?_⟩
      rw [hphase, hrun]
      rfl
    · obtain ⟨t, ht, hup, hl, hph⟩ := State.updOpenAt_failed (s := u) hpl (State.openStatus_phase (hphase ▸ hrun)) (by decide)
      obtain ⟨h1, -, h2⟩ := Prod.mk.inj hup |>.imp id Prod.mk.inj
      exact ⟨_, hopen h t ht hl, h1, h2, hph.trans (congrArg Phase.left hphase)⟩
  case commit =>
    obtain ⟨t, ht, hses, hl, hst, hhost⟩ := State.updCommitNow_verifying (s := u) hs hp hi hf
    exact ⟨_, congrArg Host.Outcome.next (hword _ t h (.inl rfl) ((State.fieldWrite_updCommit (s := u) n hcc).trans ht) hl), hses, hst, hhost⟩
  case abort =>
    obtain ⟨t, ht, hup, hl, hph⟩ := State.updAbortNow_parts (s := u) hs
    obtain ⟨h1, -, h2⟩ := Prod.mk.inj hup |>.imp id Prod.mk.inj
    exact ⟨_, congrArg Host.Outcome.next (hword _ t h (.inr rfl) ((State.fieldWrite_updAbort (s := u) n hcc).trans ht) hl), h1, h2, hph.trans (congrArg Phase.left hphase)⟩
  case verified =>
    intro r
    obtain ⟨hok, hbad⟩ := exec_updVerifyDone (ev := ev) hcc hs hp hw ha
    obtain ⟨hcplt, -, hcstn, -⟩ := s.copied_parts n p r.2.2.2
    refine ⟨fun hr hf => ?_, fun hr => ?_⟩
    · obtain ⟨t, htplt, -, htstn, -, he⟩ := hok hr
      have hts : (t.commitStaged n p r.2.1 true false).stn = t.stn :=
        State.commitStaged_frame (fs := [.plt, .trace, .rings, .led]) (Frame.refl _ t) (by decide) .stn (by decide)
      obtain ⟨hup, -, hph, hplt, -⟩ := (t.commitStaged n p r.2.1 true false).endSession_parts n stSuccess
      obtain ⟨h1, -, h2⟩ := Prod.mk.inj hup |>.imp id Prod.mk.inj
      have hseq : t.seqFull n = false := by rw [State.seqFull, State.pl, htplt, hcplt]; exact hf
      obtain ⟨hst, hsvn⟩ := State.commitStaged_plate r.2.1 true false hseq
      refine ⟨_, he, h1, h2, ?_, ?_, hph.trans ?_⟩
      · rw [State.plates, State.pl, hplt]; exact hst
      · rw [State.plates, State.pl, hplt]; exact hsvn
      · rw [State.st, hts, htstn, hcstn]; rfl
    · have he := hbad hr
      generalize hx : State.modPlt _ n _ = x at he
      have hxst : x.stn = s.stn := by
        rw [← hx]
        exact (State.verifyFailed_frame (fs := [.trace, .rings]) (Frame.refl _ _) (by decide) .stn (by decide)).trans hcstn
      obtain ⟨hup, -, hph, -, -⟩ := x.endSession_parts n r.1
      obtain ⟨h1, -, h2⟩ := Prod.mk.inj hup |>.imp id Prod.mk.inj
      refine ⟨_, he, h1.trans (if_neg hr), h2, hph.trans ?_⟩
      rw [State.st, hxst]
      rfl

end Sys2Proof


end


section
/-! SUPPORT. What an Ovdel command meets before its own rules (R19, R123, R162, R227, R228, R235, R269). -/

namespace Sys2Proof.Machine

open Sys2Proof

/-! ## A completion does not read the key store or the fuse array -/

/-- A state with other keys and fuses. -/
def State.swapKeys (s : State) (k : KeyStore) (o : Otp) : State := { s with keys := k, otp := o }

theorem State.post_swapKeys (s : State) (k : KeyStore) (o : Otp) (src : Src) (st : Status) (info : Nat) (result : List Byte) (more : Bool) :
    (s.swapKeys k o).post src st info result more = (s.post src st info result more).swapKeys k o := by
  have hring : (s.swapKeys k o).ring src.mgr = s.ring src.mgr := rfl
  have hup : (s.swapKeys k o).dmaUp src.mgr = s.dmaUp src.mgr := rfl
  have hnow : (s.swapKeys k o).now = s.now := rfl
  unfold State.post
  dsimp only
  rw [hring, hup, hnow]
  split
  · rfl
  · split
    · rfl
    · split
      · rfl
      · split <;> rfl

theorem State.reapSq_swapKeys (s : State) (k : KeyStore) (o : Otp) (m : Mgr) (q : Nat) :
    (s.swapKeys k o).reapSq m q = (s.reapSq m q).swapKeys k o := by
  have hring : (s.swapKeys k o).ring m = s.ring m := rfl
  have haw : ((s.swapKeys k o).modRing m fun r => { r with sqs := SMap.del r.sqs q }).awaits = s.awaits := rfl
  have haw' : (s.modRing m fun r => { r with sqs := SMap.del r.sqs q }).awaits = s.awaits := rfl
  unfold State.reapSq
  dsimp only
  rw [hring]
  split
  · split
    · rw [haw, haw']
      split
      · rename_i a _
        cases a.who with
        | cmd src' =>
          exact State.post_swapKeys { s.modRing m fun r => { r with sqs := SMap.del r.sqs q } with awaits := s.awaits.filter fun x => x ≠ a } k o
            src' stSuccess 0 [] false
        | mctp _ _ => rfl
        | reg _ _ => rfl
      · rfl
    · rfl
  · rfl

theorem State.finish_swapKeys (s : State) (k : KeyStore) (o : Otp) (src : Src) (st : Status) (info : Nat) (result : List Byte) (more : Bool) :
    (s.swapKeys k o).finish src st info result more = (s.finish src st info result more).swapKeys k o := by
  unfold State.finish
  refine Eq.trans ?_ (State.reapSq_swapKeys _ k o _ _)
  rw [← State.post_swapKeys]
  rfl

/-! ## Refusals -/

/-- A way to complete a refused command: it delivers the status, with INFO 0 but for an aborted one, and shows them in no other part than the
key store and the fuse array. -/
def Refuses (src : Src) (refuse : Status → Nat → State → State) : Prop :=
  ∀ st info s, info = 0 ∨ st = stAborted → ∃ k o, refuse st info s = (s.deliver src (ans st info)).swapKeys k o

theorem Refuses.deliver (src : Src) : Refuses src fun st info s => s.deliver src (ans st info) := fun st info s _ =>
  ⟨(s.deliver src (ans st info)).keys, (s.deliver src (ans st info)).otp, rfl⟩

/-- A completion in a state with other keys and fuses. -/
theorem State.deliver_swapKeys (s : State) (k : KeyStore) (o : Otp) (src : Src) (st : Status) (info : Nat) :
    (s.swapKeys k o).deliver src (ans st info) = (s.deliver src (ans st info)).swapKeys k o :=
  State.finish_swapKeys _ _ _ _ _ _ _ _

theorem Refuses.keyUpdate (src : Src) : Refuses src fun st info s =>
    State.deliver (if st = stInvalidOpcode then s else s.noteKeyUpdate st) src (ans st info) := by
  intro st info s h
  dsimp only
  split
  · exact Refuses.deliver src st info s h
  · exact ⟨_, _, State.deliver_swapKeys s _ s.otp src st info⟩

theorem Refuses.otp (src : Src) (r : Nat) : Refuses src fun st info s =>
    if st = stInvalidOpcode then s.deliver src (ans st) else s.refuseOtp src r st info := by
  intro st info s h
  dsimp only
  split
  · rename_i hst
    have h0 : info = 0 := h.resolve_right (by rw [hst]; decide)
    rw [h0]
    exact Refuses.deliver src st 0 s (.inl rfl)
  · exact ⟨_, _, State.deliver_swapKeys s s.keys _ src st info⟩

theorem State.swapKeys_frame (t : State) (k : KeyStore) (o : Otp) : Frame [.keys, .otp] t (t.swapKeys k o) :=
  Frame.put_otp (b := { t with keys := k }) (Frame.put_keys (Frame.refl _ t) (by decide)) (by decide)

/-- A refused command changes the parts of a completion, and what shows its status. -/
theorem Refuses.parts {src : Src} {refuse : Status → Nat → State → State} (h : Refuses src refuse) {st : Status} {info : Nat}
    (hi : info = 0 ∨ st = stAborted) (s : State) :
    (refuse st info s).rings = (s.deliver src (ans st info)).rings ∧ (refuse st info s).views = (s.deliver src (ans st info)).views ∧
      (refuse st info s).awaits = (s.deliver src (ans st info)).awaits ∧
      Frame [.rings, .views, .awaits, .dev, .keys, .otp] s (refuse st info s) := by
  obtain ⟨k, o, hr⟩ := h st info s hi
  rw [hr]
  exact ⟨rfl, rfl, rfl, Frame.comp (State.deliver_frame (Frame.refl _ s) (by decide)) (State.swapKeys_frame _ k o) (by decide)⟩

/-! ## Every command of the tables is gated -/

/-- A command of the tables runs behind its row: it waits, is refused or runs; the fuse array's own commands also wait while Graver is busy. -/
def Gated (c : Instr) (src : Src) (g : Gate) : Prop :=
  ∃ refuse body, Refuses src refuse ∧ (∀ s, s.waits src g = true → exec c s = .next s) ∧
    ∀ s, s.otp.busy = none → exec c s = .next (s.ovdelOr src g refuse body)

theorem State.ovdelOr_waits {s : State} {src : Src} {g : Gate} (refuse : Status → Nat → State → State) (body : State → State)
    (h : s.waits src g = true) : s.ovdelOr src g refuse body = s := if_pos h

theorem Gated.of_ovdelOr {c : Instr} {src : Src} {g : Gate} {refuse : Status → Nat → State → State} {body : State → State}
    (hr : Refuses src refuse) (h : ∀ s, exec c s = .next (s.ovdelOr src g refuse body)) : Gated c src g :=
  ⟨refuse, body, hr, fun s hw => by rw [h, State.ovdelOr_waits _ _ hw], fun s _ => h s⟩

theorem Gated.of_ovdel {c : Instr} {src : Src} {g : Gate} {body : State → State} (h : ∀ s, exec c s = .next (s.ovdel src g body)) :
    Gated c src g := Gated.of_ovdelOr (Refuses.deliver src) h

theorem Gated.of_otp {c : Instr} {src : Src} {r : Nat} {body : State → State} (h : ∀ s, exec c s = .next (s.otpCommand src c r body)) :
    Gated c src (gateOf c) := by
  refine ⟨_, fun s => if s.isSecondary src.mgr then s.refuseOtp src r stNotPermitted else body s, Refuses.otp src r, fun s hw => ?_,
    fun s hb => ?_⟩
  · rw [h, State.otpCommand]
    split
    · rfl
    · rw [State.ovdelOr_waits _ _ hw]
  · rw [h, State.otpCommand, hb]
    rfl

theorem gated_of_row {c : Instr} {src : Src} {g : Gate} (h : c.gate = some (src, g)) : Gated c src g := by
  cases c <;> cases h
  case keyUpdate => exact Gated.of_ovdelOr (Refuses.keyUpdate src) fun s => rfl
  case otpProgram => exact Gated.of_otp fun s => rfl
  case otpFinalise => exact Gated.of_otp fun s => rfl
  all_goals exact Gated.of_ovdel fun s => rfl

end Sys2Proof.Machine

namespace Sys2Proof

open Sys2Proof.Machine

/-- Settles O37: every command of the tables runs behind its row, and a refusal is a completion and no more. -/
theorem ovdelCommandsMeetTheirTable : Obligations.OvdelCommandsMeetTheirTable := by
  intro c s src g hg
  obtain ⟨refuse, body, hr, hwait, hrun⟩ := gated_of_row hg
  refine ⟨hwait s, fun st hw hst hb => ?refused, fun off f hw hst hb hd hup hf => ?unreachable⟩
  case refused =>
    have hov : s.ovdelOr src g refuse body = refuse st 0 s := by
      unfold State.ovdelOr
      rw [if_neg (by rw [hw]; exact Bool.false_ne_true), hst]
    exact ⟨_, hov ▸ hrun s hb, hr.parts (.inl rfl) s⟩
  case unreachable =>
    let v := s.ringDmaFailed src.mgr 5 (BitVec.ofNat 64 (leAt f.raw off 8))
    have hov : s.ovdelOr src g refuse body = refuse stAborted off v := by
      unfold State.ovdelOr
      rw [if_neg (by rw [hw]; exact Bool.false_ne_true), hst, hd]
      dsimp only
      rw [if_neg (by rw [hup]; exact Bool.false_ne_true), hf]
    obtain ⟨h1, h2, h3, h4⟩ := hr.parts (st := stAborted) (info := off) (.inr rfl) v
    have hv : Frame [.rings, .views, .awaits, .dev, .keys, .otp] s v := State.ringDmaFailed_frame (Frame.refl _ s) (by decide)
    exact ⟨_, hov ▸ hrun s hb, h1, h2, h3, Frame.comp hv h4 (by decide)⟩

end Sys2Proof


end


section
/-! SUPPORT. Selection, arming and re-release of a channel: which control state they change, and that they only complete commands. Each rule
holds for every relation of two states that allows what it does. -/

namespace Sys2Proof.Machine

open Sys2Proof

section

variable {k : Field} {R : State → State → Prop} (hR : Respects k R) {s₀ s : State}

include hR

theorem State.post_keeps {src : Src} {st : Status} {info : Nat} {result : List Byte} {more : Bool}
    (hf : k ∉ [.rings, .views]) (h : R s₀ s) : R s₀ (State.post s src st info result more) :=
  hR.step h (State.post_frame (Frame.refl _ _) (Field.sub_refl _)) hf

theorem State.unbind_keeps {n : Fin 128} (hf : k ∉ [.ctl, .imm]) (h : R s₀ s) : R s₀ (State.unbind s n) :=
  hR.step h (State.unbind_frame (Frame.refl _ _) (Field.sub_refl _)) hf

theorem State.bind_keeps {n : Fin 128} {i : Fin 256} {p : PlateId} (hf : k ∉ [.ctl, .imm]) (h : R s₀ s) : R s₀ (State.bind s n i p) :=
  hR.step h (State.bind_frame (Frame.refl _ _) (Field.sub_refl _)) hf

theorem State.checkPlate_keeps {n : Fin 128} {p : PlateId} (hf : k ∉ [.ctl, .imm, .fca, .trace]) (h : R s₀ s) :
    R s₀ ((State.checkPlate s n p).2) :=
  hR.step h (State.checkPlate_frame (Frame.refl _ _) (Field.sub_refl _)) hf

end

/-! ## The control state of one channel -/

/-- What selection, binding, arming and re-release leave of a channel's control state: the wires, the times of their edges, the counts. -/
abbrev Ctl.lasting (c : Ctl) : (Bool × Bool × Nat × Nat) × (Half × Half) × (Bool × Nat × Bool) × (Bool × List Nat × Word) :=
  ((c.sink, c.holdWait, c.holdT, c.relT), (c.releases, c.holds), (c.pgood, c.pgRise, c.pgOk), (c.firstRelease, c.tagFails, c.tagTotal))

/-- The relation R looks at the control states only and allows every change of channel n's that leaves its lasting part. -/
structure CtlMoves (n : Fin 128) (R : State → State → Prop) : Prop extends Respects .ctl R where
  move : ∀ s f, (∀ c : Ctl, (f c).lasting = c.lasting) → R s (s.modCtl n f)

section

variable {n : Fin 128} {R : State → State → Prop} (hC : CtlMoves n R)

include hC

theorem State.modCtl_moves {s₀ s : State} {f : Ctl → Ctl} (h : R s₀ s) (hf : ∀ c : Ctl, (f c).lasting = c.lasting) :
    R s₀ (s.modCtl n f) := hC.comp h (hC.move s f hf)

theorem State.transition_moves {s₀ s : State} {st : ChState} {cause : Cause} (h : R s₀ s) : R s₀ (s.transition n st cause) := by
  refine hC.comp h ?_
  clear h
  unfold State.transition
  dsimp -failIfUnchanged -proj only
  repeat' (with_reducible first
    | apply State.raise_keeps hC.toRespects (by decide)
    | apply State.log_keeps hC.toRespects (by decide)
    | (apply State.modCtl_moves hC; rotate_left; (intro c; rfl))
    | apply hC.refl
    | split)

theorem State.answer_moves {s₀ s : State} {who : Asker} {st : Status} {info : Nat} {result : List Byte} (h : R s₀ s) :
    R s₀ (s.answer who n st info result) := by
  unfold State.answer
  split
  · exact State.finish_keeps hC.toRespects (by decide) h
  · exact State.mctpReply_keeps hC.toRespects (by decide) h
  · exact State.modCtl_moves hC h fun _ => rfl

theorem State.answerAll_moves {s₀ s : State} {k : AwaitKind → Bool} {st : Status} {info : Nat} {result : List Byte} (h : R s₀ s) :
    R s₀ (s.answerAll n k st info result) := by
  unfold State.answerAll
  exact State.forAll_keeps hC.toRespects (hC.comp h (hC.of_frame (Frame.put_awaits (fs := [.awaits]) (Frame.refl _ _) (by decide)) (by decide)))
    fun _ _ => State.answer_moves hC (hC.refl _)

theorem State.checkPair_moves {s₀ s : State} {man : List Byte} (h : R s₀ s) : R s₀ (State.checkPair s n man).2 := by
  refine hC.comp h ?_
  clear h
  unfold State.checkPair
  dsimp -failIfUnchanged -proj only
  repeat' (with_reducible first
    | assumption
    | apply hC.refl
    | apply State.takeAndWait_keeps hC.toRespects (by decide)
    | (apply State.modCtl_moves hC; rotate_left; (intro c; rfl))
    | apply State.freeEntry_keeps hC.toRespects (by decide)
    | intro _
    | split)

theorem State.checkLeaves_moves {s₀ s : State} {p : PlateId} (h : R s₀ s) : R s₀ (State.checkLeaves s n p).2 := by
  refine hC.comp h ?_
  clear h
  unfold State.checkLeaves
  dsimp -failIfUnchanged -proj only
  repeat' (with_reducible first
    | assumption
    | apply hC.refl
    | apply State.checkPair_moves hC
    | intro _
    | split)

theorem State.checkPlate_moves {s₀ s : State} {p : PlateId} (h : R s₀ s) : R s₀ (State.checkPlate s n p).2 := by
  refine hC.comp h ?_
  clear h
  unfold State.checkPlate
  dsimp -failIfUnchanged -proj only
  repeat' (with_reducible first
    | assumption
    | apply hC.refl
    | apply State.checkLeaves_moves hC
    | intro _
    | split)

theorem State.unbind_moves {s₀ s : State} (h : R s₀ s) : R s₀ (State.unbind s n) := by
  refine hC.comp h ?_
  clear h
  unfold State.unbind
  dsimp -failIfUnchanged -proj only
  repeat' (with_reducible first
    | assumption
    | apply hC.refl
    | (apply State.modCtl_moves hC; rotate_left; (intro c; rfl))
    | apply State.modDir_keeps hC.toRespects (by decide)
    | intro _
    | split)

theorem State.enterRecoveryState_moves {s₀ s : State} (h : R s₀ s) : R s₀ (State.enterRecoveryState s n) := by
  refine hC.comp h ?_
  clear h
  unfold State.enterRecoveryState
  dsimp -failIfUnchanged -proj only
  repeat' (with_reducible first
    | assumption
    | apply hC.refl
    | apply State.modMbx_keeps hC.toRespects (by decide)
    | apply State.unbind_moves hC
    | apply State.transition_moves hC
    | apply State.raise_keeps hC.toRespects (by decide)
    | apply State.modWdg_keeps hC.toRespects (by decide)
    | apply State.answerAll_moves hC
    | (apply State.modCtl_moves hC; rotate_left; (intro c; rfl))
    | intro _
    | split)

theorem State.bind_moves {s₀ s : State} {i : Fin 256} {p : PlateId} (h : R s₀ s) : R s₀ (State.bind s n i p) := by
  refine hC.comp h ?_
  clear h
  unfold State.bind
  dsimp -failIfUnchanged -proj only
  repeat' (with_reducible first
    | assumption
    | apply hC.refl
    | apply State.unbind_moves hC
    | (apply State.modCtl_moves hC; rotate_left; (intro c; rfl))
    | intro _
    | split)

theorem State.selEnd_moves {s₀ s : State} {w : SelWait} {t3 : PTable} {tie : Bool} {run : Option (PlateId × Fin 256)} {attempt : Bool} (h : R s₀ s) :
    R s₀ (State.selEnd s n w t3 tie run attempt) := by
  refine hC.comp h ?_
  clear h
  unfold State.selEnd
  dsimp -failIfUnchanged -proj only
  repeat' (with_reducible first
    | assumption
    | apply hC.refl
    | apply State.enterRecoveryState_moves hC
    | apply State.bind_moves hC
    | apply State.answerAll_moves hC
    | apply State.commitPlates_keeps hC.toRespects (by decide)
    | apply State.beginAttempt_keeps hC.toRespects (by decide)
    | apply State.unbind_moves hC
    | (apply State.modCtl_moves hC; rotate_left; (intro c; rfl))
    | apply State.raise_keeps hC.toRespects (by decide)
    | intro _
    | split)

theorem State.selectFrom_moves {s₀ : State} {x : Nat} {w : SelWait} {u : State} (h : R s₀ u) : R s₀ (State.selectFrom n x w u) := by
  induction x generalizing s₀ w u with
  | zero => exact h
  | succ k ih =>
    refine hC.comp h ?_
    clear h
    unfold State.selectFrom
    dsimp -failIfUnchanged -proj only
    repeat' (with_reducible first
      | assumption
      | apply hC.refl
      | apply ih
      | apply State.selNote_keeps hC.toRespects (by decide)
      | apply State.checkPlate_moves hC
      | (apply State.modCtl_moves hC; rotate_left; (intro c; rfl))
      | apply State.selEnd_moves hC
      | intro _
      | split)

theorem State.select_moves {s₀ s : State} (h : R s₀ s) : R s₀ (State.select s n) := by
  refine hC.comp h ?_
  clear h
  unfold State.select
  dsimp -failIfUnchanged -proj only
  repeat' (with_reducible first
    | assumption
    | apply hC.refl
    | apply State.completeAdvances_keeps hC.toRespects (by decide)
    | apply State.selectFrom_moves hC
    | (apply State.modCtl_moves hC; rotate_left; (intro c; rfl))
    | intro _
    | split)

theorem State.stayHeld_moves {s₀ s : State} (h : R s₀ s) : R s₀ (State.stayHeld s n) := by
  refine hC.comp h ?_
  clear h
  unfold State.stayHeld
  dsimp -failIfUnchanged -proj only
  repeat' (with_reducible first
    | assumption
    | apply hC.refl
    | apply State.answerAll_moves hC
    | intro _
    | split)

theorem State.startTaking_moves {s₀ s : State} {cause : Cause} {asked : Bool} (h : R s₀ s) : R s₀ (State.startTaking s n cause asked) := by
  refine hC.comp h ?_
  clear h
  unfold State.startTaking
  dsimp -failIfUnchanged -proj only
  repeat' (with_reducible first
    | assumption
    | apply hC.refl
    | apply State.select_moves hC
    | apply State.unbind_moves hC
    | apply State.transition_moves hC
    | apply State.stayHeld_moves hC
    | (apply State.modCtl_moves hC; rotate_left; (intro c; rfl))
    | intro _
    | split)

theorem State.takeKept_moves {s₀ s : State} {cause : Cause} (h : R s₀ s) : R s₀ (State.takeKept s n cause) := by
  refine hC.comp h ?_
  clear h
  unfold State.takeKept
  dsimp -failIfUnchanged -proj only
  repeat' (with_reducible first
    | assumption
    | apply hC.refl
    | apply State.startTaking_moves hC
    | apply State.transition_moves hC
    | (apply State.modCtl_moves hC; rotate_left; (intro c; rfl))
    | intro _
    | split)

theorem State.endArming_moves {s₀ s : State} {st : Status} (h : R s₀ s) : R s₀ (State.endArming s n st) := by
  refine hC.comp h ?_
  clear h
  unfold State.endArming
  dsimp -failIfUnchanged -proj only
  repeat' (with_reducible first
    | assumption
    | apply hC.refl
    | apply State.modPlt_keeps hC.toRespects (by decide)
    | apply State.answerAll_moves hC
    | (apply State.modCtl_moves hC; rotate_left; (intro c; rfl))
    | intro _
    | split)

theorem State.armFail_moves {s₀ s : State} {st : Status} (h : R s₀ s) : R s₀ (State.armFail s n st) := by
  refine hC.comp h ?_
  clear h
  unfold State.armFail
  dsimp -failIfUnchanged -proj only
  repeat' (with_reducible first
    | assumption
    | apply hC.refl
    | apply State.select_moves hC
    | apply State.takeKept_moves hC
    | apply State.endArming_moves hC
    | intro _
    | split)

theorem State.armCommit_moves {s₀ s : State} {a : Arming} {i : Fin 256} (h : R s₀ s) : R s₀ (State.armCommit s n a i) := by
  refine hC.comp h ?_
  clear h
  unfold State.armCommit
  dsimp -failIfUnchanged -proj only
  repeat' (with_reducible first
    | assumption
    | apply hC.refl
    | apply State.modPlt_keeps hC.toRespects (by decide)
    | apply State.bind_moves hC
    | apply State.startTaking_moves hC
    | apply State.beginAttempt_keeps hC.toRespects (by decide)
    | apply State.commitPlates_keeps hC.toRespects (by decide)
    | (apply State.modCtl_moves hC; rotate_left; (intro c; rfl))
    | intro _
    | split)

theorem State.armJudge_moves {s₀ s : State} {a : Arming} {r : Chk} (h : R s₀ s) : R s₀ (State.armJudge s n a r) := by
  refine hC.comp h ?_
  clear h
  unfold State.armJudge
  dsimp -failIfUnchanged -proj only
  repeat' (with_reducible first
    | assumption
    | apply hC.refl
    | apply State.verifyFailed_keeps hC.toRespects (by decide)
    | apply State.armFail_moves hC
    | apply State.armCommit_moves hC
    | apply State.raise_keeps hC.toRespects (by decide)
    | apply State.commitPlates_keeps hC.toRespects (by decide)
    | (apply State.modCtl_moves hC; rotate_left; (intro c; rfl))
    | intro _
    | split
    | (refine hC.comp ?_ (hC.of_frame (Frame.put_led (fs := [.led]) (Frame.refl _ _) (by decide)) (by decide))))

theorem State.armStep_moves {s₀ s : State} (h : R s₀ s) : R s₀ (State.armStep s n) := by
  refine hC.comp h ?_
  clear h
  unfold State.armStep
  dsimp -failIfUnchanged -proj only
  repeat' (with_reducible first
    | assumption
    | apply hC.refl
    | apply State.armJudge_moves hC
    | apply State.checkPlate_moves hC
    | (apply State.modCtl_moves hC; rotate_left; (intro c; rfl))
    | intro _
    | split)

theorem State.powerStep3_moves {s₀ s : State} (h : R s₀ s) : R s₀ (State.powerStep3 s n) := by
  refine hC.comp h ?_
  clear h
  unfold State.powerStep3
  dsimp -failIfUnchanged -proj only
  repeat' (with_reducible first
    | assumption
    | apply hC.refl
    | apply State.startTaking_moves hC
    | (apply State.modCtl_moves hC; rotate_left; (intro c; rfl))
    | intro _
    | split)

theorem State.resumeHeld_moves {s₀ s : State} (h : R s₀ s) : R s₀ (State.resumeHeld s n) := by
  refine hC.comp h ?_
  clear h
  unfold State.resumeHeld
  dsimp -failIfUnchanged -proj only
  repeat' (with_reducible first
    | assumption
    | apply hC.refl
    | apply State.startTaking_moves hC
    | apply State.takeKept_moves hC
    | intro _
    | split)

end

/-! ## Commands are completed, none begins to wait -/

/-- The relation R looks at the waiting commands or at the device's word only, and allows that commands are completed. -/
structure Completes (k : Field) (R : State → State → Prop) : Prop extends Respects k R where
  only : k = .awaits ∨ k = .dev
  idle : ∀ (s : State) (t : Nat), R s { s with dev := { s.dev with idleSince := t } }
  drop : ∀ (s : State) (p : Await → Bool), R s { s with awaits := s.awaits.filter p }

theorem Completes.off {k : Field} {R : State → State → Prop} (hA : Completes k R) {fs : List Field} (h : .awaits ∉ fs ∧ .dev ∉ fs) :
    k ∉ fs := by
  rcases hA.only with rfl | rfl
  · exact h.1
  · exact h.2

section

variable {k : Field} {R : State → State → Prop} (hA : Completes k R)

include hA

theorem State.reapSq_completes {s₀ s : State} {m : Mgr} {q : Nat} (h : R s₀ s) : R s₀ (s.reapSq m q) := by
  refine hA.comp h ?_
  clear h
  unfold State.reapSq
  dsimp -failIfUnchanged -proj only
  repeat' (with_reducible first
    | apply hA.refl
    | apply State.modRing_keeps hA.toRespects (hA.off (by decide))
    | apply State.post_keeps hA.toRespects (hA.off (by decide))
    | (refine hA.comp ?_ (hA.drop _ _))
    | split)

theorem State.finish_completes {s₀ s : State} {src : Src} {st : Status} {info : Nat} {result : List Byte} {more : Bool} (h : R s₀ s) :
    R s₀ (s.finish src st info result more) :=
  State.reapSq_completes hA (State.post_keeps hA.toRespects (hA.off (by decide)) (hA.comp h (hA.idle s s.now)))

theorem State.answer_completes {s₀ s : State} {who : Asker} {n : Fin 128} {st : Status} {info : Nat} {result : List Byte} (h : R s₀ s) :
    R s₀ (s.answer who n st info result) := by
  unfold State.answer
  split
  · exact State.finish_completes hA h
  · exact State.mctpReply_keeps hA.toRespects (hA.off (by decide)) h
  · exact State.modCtl_keeps hA.toRespects (hA.off (by decide)) h

theorem State.answerAll_completes {s₀ s : State} {n : Fin 128} {k : AwaitKind → Bool} {st : Status} {info : Nat} {result : List Byte}
    (h : R s₀ s) : R s₀ (s.answerAll n k st info result) := by
  unfold State.answerAll
  exact State.forAll_keeps hA.toRespects (hA.comp h (hA.drop s _)) fun _ _ => State.answer_completes hA (hA.refl _)

theorem State.enterRecoveryState_completes {s₀ s : State} {n : Fin 128} (h : R s₀ s) :
    R s₀ (State.enterRecoveryState s n) := by
  refine hA.comp h ?_
  clear h
  unfold State.enterRecoveryState
  dsimp -failIfUnchanged -proj only
  repeat' (with_reducible first
    | assumption
    | apply hA.refl
    | apply State.modMbx_keeps hA.toRespects (hA.off (by decide))
    | apply State.unbind_keeps hA.toRespects (hA.off (by decide))
    | apply State.transition_keeps hA.toRespects (hA.off (by decide))
    | apply State.raise_keeps hA.toRespects (hA.off (by decide))
    | apply State.modWdg_keeps hA.toRespects (hA.off (by decide))
    | apply State.answerAll_completes hA
    | apply State.modCtl_keeps hA.toRespects (hA.off (by decide))
    | intro _
    | split)

theorem State.selEnd_completes {s₀ s : State} {n : Fin 128} {w : SelWait} {t3 : PTable} {tie : Bool} {run : Option (PlateId × Fin 256)} {attempt : Bool} (h : R s₀ s) :
    R s₀ (State.selEnd s n w t3 tie run attempt) := by
  refine hA.comp h ?_
  clear h
  unfold State.selEnd
  dsimp -failIfUnchanged -proj only
  repeat' (with_reducible first
    | assumption
    | apply hA.refl
    | apply State.enterRecoveryState_completes hA
    | apply State.bind_keeps hA.toRespects (hA.off (by decide))
    | apply State.answerAll_completes hA
    | apply State.commitPlates_keeps hA.toRespects (hA.off (by decide))
    | apply State.beginAttempt_keeps hA.toRespects (hA.off (by decide))
    | apply State.unbind_keeps hA.toRespects (hA.off (by decide))
    | apply State.modCtl_keeps hA.toRespects (hA.off (by decide))
    | apply State.raise_keeps hA.toRespects (hA.off (by decide))
    | intro _
    | split)

theorem State.selectFrom_completes {n : Fin 128} {s₀ : State} {x : Nat} {w : SelWait} {u : State} (h : R s₀ u) :
    R s₀ (State.selectFrom n x w u) := by
  induction x generalizing s₀ w u with
  | zero => exact h
  | succ k ih =>
    refine hA.comp h ?_
    clear h
    unfold State.selectFrom
    dsimp -failIfUnchanged -proj only
    repeat' (with_reducible first
      | assumption
      | apply hA.refl
      | apply ih
      | apply State.selNote_keeps hA.toRespects (hA.off (by decide))
      | apply State.checkPlate_keeps hA.toRespects (hA.off (by decide))
      | apply State.modCtl_keeps hA.toRespects (hA.off (by decide))
      | apply State.selEnd_completes hA
      | intro _
      | split)

theorem State.select_completes {s₀ s : State} {n : Fin 128} (h : R s₀ s) :
    R s₀ (State.select s n) := by
  refine hA.comp h ?_
  clear h
  unfold State.select
  dsimp -failIfUnchanged -proj only
  repeat' (with_reducible first
    | assumption
    | apply hA.refl
    | apply State.completeAdvances_keeps hA.toRespects (hA.off (by decide))
    | apply State.selectFrom_completes hA
    | apply State.modCtl_keeps hA.toRespects (hA.off (by decide))
    | intro _
    | split)

theorem State.stayHeld_completes {s₀ s : State} {n : Fin 128} (h : R s₀ s) :
    R s₀ (State.stayHeld s n) := by
  refine hA.comp h ?_
  clear h
  unfold State.stayHeld
  dsimp -failIfUnchanged -proj only
  repeat' (with_reducible first
    | assumption
    | apply hA.refl
    | apply State.answerAll_completes hA
    | intro _
    | split)

theorem State.startTaking_completes {s₀ s : State} {n : Fin 128} {cause : Cause} {asked : Bool} (h : R s₀ s) :
    R s₀ (State.startTaking s n cause asked) := by
  refine hA.comp h ?_
  clear h
  unfold State.startTaking
  dsimp -failIfUnchanged -proj only
  repeat' (with_reducible first
    | assumption
    | apply hA.refl
    | apply State.select_completes hA
    | apply State.unbind_keeps hA.toRespects (hA.off (by decide))
    | apply State.transition_keeps hA.toRespects (hA.off (by decide))
    | apply State.stayHeld_completes hA
    | apply State.modCtl_keeps hA.toRespects (hA.off (by decide))
    | intro _
    | split)

theorem State.takeKept_completes {s₀ s : State} {n : Fin 128} {cause : Cause} (h : R s₀ s) :
    R s₀ (State.takeKept s n cause) := by
  refine hA.comp h ?_
  clear h
  unfold State.takeKept
  dsimp -failIfUnchanged -proj only
  repeat' (with_reducible first
    | assumption
    | apply hA.refl
    | apply State.startTaking_completes hA
    | apply State.transition_keeps hA.toRespects (hA.off (by decide))
    | apply State.modCtl_keeps hA.toRespects (hA.off (by decide))
    | intro _
    | split)

theorem State.endArming_completes {s₀ s : State} {n : Fin 128} {st : Status} (h : R s₀ s) :
    R s₀ (State.endArming s n st) := by
  refine hA.comp h ?_
  clear h
  unfold State.endArming
  dsimp -failIfUnchanged -proj only
  repeat' (with_reducible first
    | assumption
    | apply hA.refl
    | apply State.modPlt_keeps hA.toRespects (hA.off (by decide))
    | apply State.answerAll_completes hA
    | apply State.modCtl_keeps hA.toRespects (hA.off (by decide))
    | intro _
    | split)

theorem State.armFail_completes {s₀ s : State} {n : Fin 128} {st : Status} (h : R s₀ s) :
    R s₀ (State.armFail s n st) := by
  refine hA.comp h ?_
  clear h
  unfold State.armFail
  dsimp -failIfUnchanged -proj only
  repeat' (with_reducible first
    | assumption
    | apply hA.refl
    | apply State.select_completes hA
    | apply State.takeKept_completes hA
    | apply State.endArming_completes hA
    | intro _
    | split)

theorem State.armCommit_completes {s₀ s : State} {n : Fin 128} {a : Arming} {i : Fin 256} (h : R s₀ s) :
    R s₀ (State.armCommit s n a i) := by
  refine hA.comp h ?_
  clear h
  unfold State.armCommit
  dsimp -failIfUnchanged -proj only
  repeat' (with_reducible first
    | assumption
    | apply hA.refl
    | apply State.modPlt_keeps hA.toRespects (hA.off (by decide))
    | apply State.bind_keeps hA.toRespects (hA.off (by decide))
    | apply State.startTaking_completes hA
    | apply State.beginAttempt_keeps hA.toRespects (hA.off (by decide))
    | apply State.commitPlates_keeps hA.toRespects (hA.off (by decide))
    | apply State.modCtl_keeps hA.toRespects (hA.off (by decide))
    | intro _
    | split)

theorem State.armJudge_completes {s₀ s : State} {n : Fin 128} {a : Arming} {r : Chk} (h : R s₀ s) :
    R s₀ (State.armJudge s n a r) := by
  refine hA.comp h ?_
  clear h
  unfold State.armJudge
  dsimp -failIfUnchanged -proj only
  repeat' (with_reducible first
    | assumption
    | apply hA.refl
    | apply State.verifyFailed_keeps hA.toRespects (hA.off (by decide))
    | apply State.armFail_completes hA
    | apply State.armCommit_completes hA
    | apply State.raise_keeps hA.toRespects (hA.off (by decide))
    | apply State.commitPlates_keeps hA.toRespects (hA.off (by decide))
    | apply State.modCtl_keeps hA.toRespects (hA.off (by decide))
    | intro _
    | split
    | (refine hA.comp ?_ (hA.of_frame (Frame.put_led (fs := [.led]) (Frame.refl _ _) (by decide)) (hA.off (by decide)))))

theorem State.armStep_completes {s₀ s : State} {n : Fin 128} (h : R s₀ s) :
    R s₀ (State.armStep s n) := by
  refine hA.comp h ?_
  clear h
  unfold State.armStep
  dsimp -failIfUnchanged -proj only
  repeat' (with_reducible first
    | assumption
    | apply hA.refl
    | apply State.armJudge_completes hA
    | apply State.checkPlate_keeps hA.toRespects (hA.off (by decide))
    | apply State.modCtl_keeps hA.toRespects (hA.off (by decide))
    | intro _
    | split)

theorem State.powerStep3_completes {s₀ s : State} {n : Fin 128} (h : R s₀ s) :
    R s₀ (State.powerStep3 s n) := by
  refine hA.comp h ?_
  clear h
  unfold State.powerStep3
  dsimp -failIfUnchanged -proj only
  repeat' (with_reducible first
    | assumption
    | apply hA.refl
    | apply State.startTaking_completes hA
    | apply State.modCtl_keeps hA.toRespects (hA.off (by decide))
    | intro _
    | split)

theorem State.resumeHeld_completes {s₀ s : State} {n : Fin 128} (h : R s₀ s) :
    R s₀ (State.resumeHeld s n) := by
  refine hA.comp h ?_
  clear h
  unfold State.resumeHeld
  dsimp -failIfUnchanged -proj only
  repeat' (with_reducible first
    | assumption
    | apply hA.refl
    | apply State.startTaking_completes hA
    | apply State.takeKept_completes hA
    | intro _
    | split)

end

end Sys2Proof.Machine

end


section
/-! SUPPORT. Channel orders (R137): a command that the device takes runs its own rules, and both forms of an order come to the same
judgement; what a hold, a departure and a hold instant leave. -/

namespace Sys2Proof.Machine

open Sys2Proof

/-! ## Instances of the rules on selection and arming -/

/-- From s to t every channel keeps its wires and counts. -/
def LastingKept (s t : State) : Prop := ∀ n, (t.ch n).lasting = (s.ch n).lasting

theorem LastingKept.moves (n : Fin 128) : CtlMoves n LastingKept where
  refl _ _ := rfl
  comp h h' k := (h' k).trans (h k)
  of_frame h hf k := congrArg (fun v => (vget v k).lasting) (h .ctl hf)
  move s f hf k := by
    by_cases hk : k = n
    · subst hk; rw [State.modCtl_ch, hf]
    · rw [State.modCtl_ch_ne _ _ _ hk]

/-- From s to t the control state of every channel but n is as before. -/
def OtherCtl (n : Fin 128) (s t : State) : Prop := ∀ k, k ≠ n → t.ch k = s.ch k

theorem OtherCtl.moves (n : Fin 128) : CtlMoves n (OtherCtl n) where
  refl _ _ _ := rfl
  comp h h' k hk := (h' k hk).trans (h k hk)
  of_frame h hf k _ := congrArg (vget · k) (h .ctl hf)
  move s f _ k hk := State.modCtl_ch_ne s n f hk

/-- Every command that waits in t waits in s. -/
def AwaitsKept (s t : State) : Prop := ∀ a ∈ t.awaits, a ∈ s.awaits

theorem AwaitsKept.completes : Completes .awaits AwaitsKept where
  refl _ _ h := h
  comp h h' a ha := h a (h' a ha)
  of_frame h hf a ha := (h .awaits hf : _ = _) ▸ ha
  only := .inl rfl
  idle _ _ _ h := h
  drop _ _ a ha := (List.mem_filter.mp ha).1

/-- From s to t nothing of the device's word changes but the time since which it is idle. -/
def DevKept (s t : State) : Prop := t.dev = { s.dev with idleSince := t.dev.idleSince }

theorem DevKept.completes : Completes .dev DevKept where
  refl _ := rfl
  comp {s t u} h h' := by
    unfold DevKept at *
    rw [h', h]
  of_frame h hf := by
    have e : _ = _ := h .dev hf
    unfold DevKept
    rw [e]
  only := .inr rfl
  idle _ _ := rfl
  drop _ _ := rfl

@[simp] theorem State.endLines_ch (s : State) (n : Fin 128) : s.endLines.ch n = s.ch n :=
  congrArg (vget · n) (State.endLines_frame (Frame.refl _ s) (Field.sub_refl _) .ctl (by decide))

/-! ## Commands that are taken -/

theorem State.ovdelOr_takes {s : State} {src : Src} {g : Gate} (refuse : Status → Nat → State → State) (body : State → State)
    (h : s.takes src g) : s.ovdelOr src g refuse body = (body s).noteCommit s src := by
  obtain ⟨hw, hg, hd⟩ := h
  unfold State.ovdelOr
  rw [if_neg (by simp [hw]), hg]
  cases hp : g.dptr with
  | none => rfl
  | some off => exact if_pos (hd (by rw [hp]; rfl))

/-- Noting the commits of a command changes the ledger alone. -/
theorem State.noteCommit_eq (t s : State) (src : Src) : ∃ l, t.noteCommit s src = { t with led := l } := by
  unfold State.noteCommit
  split
  · exact ⟨t.led, rfl⟩
  · exact ⟨_, rfl⟩

theorem State.withChan_on {s : State} {src : Src} {ch : Half} {n : Fin 128} (body : Fin 128 → State → State) (hch : ch.toNat = n.1)
    (hon : s.chanOn n = true) : s.withChan src ch body = body n s := by
  unfold State.withChan
  rw [fin?_of_val hch.symm]
  exact if_pos hon

/-! ## Both forms of an order -/

/-- The outcome is the judgement of the order on the state as it is, but for CHn_CTL_ORDRES; at most the ledger notes its commits. -/
def State.JudgesOrder (s : State) (src : Src) (n : Fin 128) (o : Order) (rival : Option Order) (hold : Bool) (out : Out) : Prop :=
  ∃ who v l, OrdersAnswered s { s with ctl := v } ∧ out = .next { ({ s with ctl := v } : State).order who src.mgr n o rival hold with led := l }

theorem State.judges_command {s : State} {src : Src} {ch : Half} {n : Fin 128} {rival : Option Order} {hold : Bool} {o : Order} {g : Gate}
    (ht : s.takes src g) (hch : ch.toNat = n.1) (hon : s.chanOn n = true) :
    s.JudgesOrder src n o rival hold
      (.next (s.ovdel src g fun s => s.withChan src ch fun n s => s.order (.cmd src) src.mgr n o rival hold)) := by
  rw [State.ovdel, State.ovdelOr_takes _ _ ht, State.withChan_on _ hch hon]
  obtain ⟨l, hl⟩ := State.noteCommit_eq (s.order (.cmd src) src.mgr n o rival hold) s src
  exact ⟨.cmd src, s.ctl, l, OrdersAnswered.refl s, by rw [hl]⟩

theorem State.judges_write {s : State} {src : Src} {n : Fin 128} {rival : Option Order} {hold : Bool} {o : Order} {off : Nat}
    (hr : s.reaches src.mgr off) (hcc : o.loosens = true → s.dev.ccAbsent = false) :
    s.JudgesOrder src n o rival hold (.next (s.regW src.mgr off fun s => s.regOrder src.mgr n o rival hold)) := by
  have hwait : (s.dev.ccAbsent && o.loosens) ≠ true := by
    intro h
    obtain ⟨h, h'⟩ := (Bool.and_eq_true _ _).mp h
    exact Bool.false_ne_true ((hcc h').symm.trans h)
  have hshown : OrdersAnswered s
      (s.modCtl n fun c => { c with ordRes := c.ordRes.set src.mgr { status := 0, done := false, order := o.code } }) := by
    intro k
    by_cases hk : k = n
    · subst hk; exact ⟨_, State.modCtl_ch s k _⟩
    · exact ⟨_, State.modCtl_ch_ne s n _ hk⟩
  rw [State.regW_reaches hr]
  exact ⟨.reg src.mgr o, _, _, hshown, congrArg Host.Outcome.next (if_neg hwait)⟩

/-- Both forms of an order that comes to be judged. -/
theorem exec_order {s : State} {src : Src} {ch : Half} {n : Fin 128} {rival : Option Order} {held : Bool} {o : Order} {c : Instr}
    (hc : c ∈ orderForms src ch n rival held o) (h : s.orders src ch n o c) :
    s.JudgesOrder src n o rival (decide (o = .release) && held) (exec c s) := by
  obtain ⟨hallow, hreg, hch, hon⟩ := h
  have hwrite : gateRow c = none → s.reaches src.mgr (chanPage n 0 + 0x060) ∧ (o.loosens = true → s.dev.ccAbsent = false) := hreg
  have hcmd : ∀ g, gateRow c = some (src, g) → s.takes src g := hallow src
  cases o
  all_goals
    simp only [orderForms, List.mem_cons, List.not_mem_nil, or_false] at hc
    rcases hc with rfl | rfl
    · exact State.judges_command (hcmd _ rfl) hch hon
    · exact State.judges_write (hwrite rfl).1 (hwrite rfl).2

/-! ## The judgement of an order -/

/-- An order that the manager may not give is answered, and that is all. -/
theorem State.order_refused {s : State} {src : Src} {who : Asker} {n : Fin 128} {o : Order} {rival : Option Order} {held : Bool}
    (h : ¬s.mayOrder src o rival held) :
    ∃ st, s.order who src.mgr n o rival (decide (o = .release) && held) = s.answer who n st := by
  unfold State.order
  split
  · exact ⟨_, rfl⟩
  · split
    · exact ⟨_, rfl⟩
    · rename_i h1 h2
      simp only [Bool.or_eq_true, Bool.and_eq_true, decide_eq_true_eq, not_or, not_and, Bool.not_eq_true] at h1 h2
      exact absurd ⟨h1.1, h1.2, h2.1, fun hr => h2.2 hr hr⟩ h

/-- The effect of an order that the manager may give. -/
def State.giveOrder (s : State) (who : Asker) (n : Fin 128) : Order → State
  | .hold => s.orderHold who n
  | .release => s.orderRelease who n
  | .quarantine => s.orderQuarantine who n
  | .readmit => s.orderReadmit who n
  | .restart => s.orderRestart who n

/-- An order that the manager may give has the effect of its kind. -/
theorem State.order_given {s : State} {src : Src} {who : Asker} {n : Fin 128} {o : Order} {rival : Option Order} {held : Bool}
    (h : s.mayOrder src o rival held) :
    s.order who src.mgr n o rival (decide (o = .release) && held) = s.giveOrder who n o := by
  obtain ⟨hdev, hsec, hlose, hheld⟩ := h
  unfold State.order
  rw [if_neg (by simpa [hdev] using hsec), if_neg (by simpa [hlose] using hheld)]
  cases o <;> rfl

/-! ## What an order leaves -/

/-- CHn_CTL_ORDRES does not show in what a hold leaves. -/
theorem Ctl.HeldBy.shown {c₀ c : Ctl} {kind : HoldKind} {cause : Cause} {seq : Option SeqKind} (h : c₀.HeldBy c kind cause seq)
    (r : PerMgr OrdRes) : c₀.HeldBy { c with ordRes := r } kind cause seq :=
  ⟨h.state, h.kind, h.seq, h.cause, h.holdWait, h.wires, h.bound, h.pgTmoAt, h.relAsked⟩

theorem Ctl.HeldBy.of_shown {c₀ c : Ctl} {kind : HoldKind} {cause : Cause} {seq : Option SeqKind} {r : PerMgr OrdRes}
    (h : ({ c₀ with ordRes := r } : Ctl).HeldBy c kind cause seq) : c₀.HeldBy c kind cause seq :=
  ⟨h.state, h.kind, h.seq, h.cause, h.holdWait, h.wires, h.bound, h.pgTmoAt, h.relAsked⟩

/-- HOLD of a live channel (R137). -/
theorem State.orderHold_live {s : State} {who : Asker} {n : Fin 128} (h : (s.ch n).state.live = true) :
    (s.ch n).HeldBy ((s.orderHold who n).ch n) .manager .manager none ∧ ((s.orderHold who n).wd n).counting = false := by
  have hh := State.hold_ch (s.wait who n .hold) n .manager .manager none
  have hw := State.hold_wd (s.wait who n .hold) n .manager .manager none
  unfold State.orderHold
  rw [if_pos h]
  dsimp only
  split
  · generalize leBytes 8 (((s.wait who n .hold).hold n .manager .manager none).ch n).holdT = result
    obtain ⟨r, hr⟩ := State.answerAll_orders (s := (s.wait who n .hold).hold n .manager .manager none) (n := n) (k := fun k => k = .hold)
      (st := stSuccess) (info := 0) (result := result) n
    exact ⟨by rw [hr]; exact hh.shown r, by rw [State.answerAll_wd]; exact hw⟩
  · exact ⟨hh, hw⟩

/-- HOLD of another channel leaves its state. -/
theorem State.orderHold_other {s : State} {who : Asker} {n : Fin 128} (h : (s.ch n).state.live = false) :
    ((s.orderHold who n).ch n).state = (s.ch n).state := by
  unfold State.orderHold
  rw [if_neg (by simp [h])]
  dsimp only
  refine (State.answer_orders.eq n Ctl.state fun _ _ => rfl).trans ?_
  split
  · rename_i hk
    simp only [Bool.and_eq_true, decide_eq_true_eq] at hk
    refine (congrArg Ctl.state (State.endLines_ch _ n)).trans ?_
    rw [(State.hold_ch s n .manager .manager none).state, hk.1.1]
  · rfl

/-- RESTART of a released channel (R138). -/
theorem State.orderRestart_released {s : State} {who : Asker} {n : Fin 128} (h : (s.ch n).released = true) :
    (s.ch n).HeldBy ((s.orderRestart who n).ch n) .sequence .restart (some .restart) ∧ ((s.orderRestart who n).wd n).counting = false := by
  unfold State.orderRestart
  rw [if_pos h]
  exact ⟨State.hold_ch (s.wait who n .restart) n _ _ _, State.hold_wd (s.wait who n .restart) n _ _ _⟩

theorem State.orderRestart_other {s : State} {who : Asker} {n : Fin 128} (h : (s.ch n).released = false) :
    ((s.orderRestart who n).ch n).state = (s.ch n).state := by
  unfold State.orderRestart
  rw [if_neg (by simp [h])]
  exact State.answer_orders.eq n Ctl.state fun _ _ => rfl

/-! ## Leaving service -/

@[simp] theorem State.unbind_ch (s : State) (n : Fin 128) :
    ((s.unbind n).ch n).bound = none ∧ ((s.unbind n).ch n).holdWait = (s.ch n).holdWait := by
  unfold State.unbind
  split
  · rename_i h
    exact ⟨h, rfl⟩
  · dsimp only
    split
    · split <;> simp
    · simp

/-- Ending an arming leaves the wires of the channel. -/
theorem State.endArming_lasting (s : State) (n : Fin 128) (st : Status) : LastingKept s (s.endArming n st) :=
  State.endArming_moves (LastingKept.moves n) ((LastingKept.moves n).refl s)

/-- What a channel that leaves service shows (R117, R85). -/
theorem State.leave_ch (s : State) (n : Fin 128) (st : ChState) (cause : Cause) :
    ((s.leave n st cause).ch n).state = st ∧ ((s.leave n st cause).ch n).bound = none ∧
      ((s.leave n st cause).ch n).holdWait = !(s.ch n).sink := by
  have hstop := State.stopHost_ch (s.endArming n stAborted) n
  have hsink : ((s.endArming n stAborted).ch n).sink = (s.ch n).sink := congrArg (fun x => x.1.1) (State.endArming_lasting s n stAborted n)
  unfold State.leave
  dsimp only
  generalize (s.endArming n stAborted).stopHost n = u at hstop
  have hans : ∀ b, ((if b = true then u.answerAll n (fun k => k = .release) stAborted 0 [] else u).ch n).holdWait = !(s.ch n).sink := by
    intro b
    split
    · rw [State.answerAll_orders.eq n Ctl.holdWait fun _ _ => rfl, hstop, hsink]
    · rw [hstop, hsink]
  generalize hv : (if (decide ((s.ch n).state = .taking) || decide ((s.ch n).state = .safe)) = true then
    u.answerAll n (fun k => k = .release) stAborted 0 [] else u) = v
  have hwait : (v.ch n).holdWait = !(s.ch n).sink := hv ▸ hans _
  have hun := State.unbind_ch (v.transition n st cause) n
  have hstate := State.unbind_ch_state (v.transition n st cause) n
  rw [State.transition_ch] at hun hstate
  have hall : ((((v.transition n st cause).unbind n).ch n).state = st ∧ (((v.transition n st cause).unbind n).ch n).bound = none ∧
      (((v.transition n st cause).unbind n).ch n).holdWait = !(s.ch n).sink) := ⟨hstate, hun.1, hun.2.trans hwait⟩
  generalize (v.transition n st cause).unbind n = x at hall
  split
  · have hr : (x.rejectProof n).ch n = x.ch n :=
      congrArg (vget · n) (State.rejectProof_frame (Frame.refl _ x) (Field.sub_refl _) .ctl (by decide))
    rwa [hr]
  · exact hall

/-- QUARANTINE of a channel in service (R137, R117). -/
theorem State.orderQuarantine_state (s : State) (who : Asker) (n : Fin 128) :
    ((s.orderQuarantine who n).ch n).state = if (s.ch n).state = .off then .off else .quarantined := by
  unfold State.orderQuarantine
  split
  case h_3 h1 h2 =>
    rw [State.answer_orders.eq n Ctl.state fun _ _ => rfl, State.endLines_ch, (State.leave_ch s n _ _).1, if_neg h1]
  all_goals
    rename_i h
    rw [State.answer_orders.eq n Ctl.state fun _ _ => rfl, h]
    rfl

theorem State.orderQuarantine_leaves {s : State} {who : Asker} {n : Fin 128} (h1 : (s.ch n).state ≠ .off) (h2 : (s.ch n).state ≠ .quarantined) :
    ((s.orderQuarantine who n).ch n).bound = none ∧ ((s.orderQuarantine who n).ch n).holdWait = !(s.ch n).sink := by
  unfold State.orderQuarantine
  split
  · contradiction
  · contradiction
  · obtain ⟨-, hb, hw⟩ := State.leave_ch s n .quarantined .quarantine
    rw [State.answer_orders.eq n Ctl.bound fun _ _ => rfl, State.answer_orders.eq n Ctl.holdWait fun _ _ => rfl, State.endLines_ch]
    exact ⟨hb, hw⟩

end Sys2Proof.Machine

end


section
/-! SUPPORT. The hold instant (R130). -/

namespace Sys2Proof.Machine

open Sys2Proof

/-- HOLD# has fallen, and what waited for that has been applied, before the lines and the sequences go on. -/
def State.sunk (s : State) (n : Fin 128) : State :=
  let s := s.modCtl n fun c => { c with sink := true, holdWait := false, holdT := s.now, holds := satInc c.holds }
  let s := ((s.modPort n HostPort.atHold).endOpenSession n stAborted).leaveUpdate n
  let s := (s.modStn n fun t => { t with oldCmd := false }).applyDeferred n
  s.answerAll n (fun k => k = .hold || k = .restart) stSuccess 0 (leBytes 8 s.now)

/-- What a sequence that waited for its hold instant does then. -/
def State.sequenceHeld (s : State) (n : Fin 128) : State :=
  match (s.ch n).seq with
  | some .arming => s.armStep n
  | some .revert => if s.dev.ccAbsent then s else s.startTaking n .proof true
  | some (.power t) => match fin? 16 t with
    | some t => (match s.lineAt t with | .waiting _ => s.powerStep3 n | _ => s)
    | none => s
  | _ => s

theorem State.sequenceHeld_def (u : State) (n : Fin 128) : u.sequenceHeld n = (match (u.ch n).seq with
    | some .arming => u.armStep n
    | some .revert => if u.dev.ccAbsent then u else u.startTaking n .proof true
    | some (.power t) => match fin? 16 t with
      | some t => (match u.lineAt t with | .waiting _ => u.powerStep3 n | _ => u)
      | none => u
    | _ => u) := rfl

theorem State.reachHold_eq (s : State) (n : Fin 128) :
    s.reachHold n = ((s.sunk n).forAll (List.finRange 16) fun t s => s.lineStep t).sequenceHeld n := by
  rw [State.sequenceHeld_def]
  unfold State.reachHold State.sunk
  dsimp only <;> generalize State.forAll _ (List.finRange 16) _ = u <;> rfl

/-- From s to t the part X that a step of the lines does not touch is as before. -/
theorem State.linesStepped_frame (s : State) : Frame [.plat] s (s.forAll (List.finRange 16) fun t s => s.lineStep t) :=
  State.forAll_frame (Frame.refl _ s) fun _ u => State.lineStep_frame (Frame.refl _ u) (Field.sub_refl _)

theorem State.sequenceHeld_moves {n : Fin 128} {R : State → State → Prop} (hC : CtlMoves n R) (s : State) : R s (s.sequenceHeld n) := by
  unfold State.sequenceHeld
  repeat' (with_reducible first
    | apply State.armStep_moves hC
    | apply State.startTaking_moves hC
    | apply State.powerStep3_moves hC
    | apply hC.refl
    | split)

theorem State.sequenceHeld_completes {k : Field} {R : State → State → Prop} (hA : Completes k R) (n : Fin 128) (s : State) :
    R s (s.sequenceHeld n) := by
  unfold State.sequenceHeld
  repeat' (with_reducible first
    | apply State.armStep_completes hA
    | apply State.startTaking_completes hA
    | apply State.powerStep3_completes hA
    | apply hA.refl
    | split)

/-- The parts of a host port lie outside what a sequence touches. -/
theorem State.sequenceHeld_frame (s : State) (n : Fin 128) :
    Frame [.mbx, .ctl, .plt, .wdg, .imm, .fca, .mins, .trace, .spdm, .rings, .views, .awaits, .drbg, .drawn, .led, .dev] s (s.sequenceHeld n) := by
  unfold State.sequenceHeld
  repeat' (with_reducible first
    | apply State.armStep_frame (Frame.refl _ _) (Field.sub_refl _)
    | apply State.startTaking_frame (Frame.refl _ _) (Field.sub_refl _)
    | apply State.powerStep3_frame (Frame.refl _ _) (Field.sub_refl _)
    | apply Frame.refl
    | split)

/-- What the hold instant itself leaves of the control state. -/
theorem State.sunk_ch (s : State) (n : Fin 128) :
    ∃ r, (s.sunk n).ch n = { s.ch n with sink := true, holdWait := false, holdT := s.now, holds := satInc (s.ch n).holds, ordRes := r } := by
  unfold State.sunk
  dsimp only
  generalize hu : State.applyDeferred _ n = u
  have hch : u.ch n = { s.ch n with sink := true, holdWait := false, holdT := s.now, holds := satInc (s.ch n).holds } := by
    subst hu
    rw [show ∀ x : State, (x.applyDeferred n).ch n = x.ch n from fun x =>
        congrArg (vget · n) (State.applyDeferred_frame (Frame.refl _ x) (Field.sub_refl _) .ctl (by decide)), State.modStn_ch,
      show ∀ x : State, (x.leaveUpdate n).ch n = x.ch n from fun x =>
        congrArg (vget · n) (State.leaveUpdate_frame (Frame.refl _ x) (Field.sub_refl _) .ctl (by decide)),
      show ∀ x : State, (x.endOpenSession n stAborted).ch n = x.ch n from fun x =>
        congrArg (vget · n) (State.endOpenSession_frame (Frame.refl _ x) (Field.sub_refl _) .ctl (by decide)), State.modPort_ch, State.modCtl_ch]
  obtain ⟨r, hr⟩ := State.answerAll_orders (s := u) (n := n) (k := fun k => k = .hold || k = .restart) (st := stSuccess) (info := 0)
    (result := leBytes 8 u.now) n
  exact ⟨r, by rw [hr, hch]⟩

theorem State.sunk_port (s : State) (n : Fin 128) : (s.sunk n).port n = (s.port n).atHold := by
  unfold State.sunk
  dsimp only
  rw [State.answerAll_port,
    show ∀ x : State, (x.applyDeferred n).port n = x.port n from fun x =>
      congrArg (vget · n) (State.applyDeferred_frame (Frame.refl _ x) (Field.sub_refl _) .ports (by decide)), State.modStn_port,
    show ∀ x : State, (x.leaveUpdate n).port n = x.port n from fun x =>
      congrArg (vget · n) (State.leaveUpdate_frame (Frame.refl _ x) (Field.sub_refl _) .ports (by decide)),
    show ∀ x : State, (x.endOpenSession n stAborted).port n = x.port n from fun x =>
      congrArg (vget · n) (State.endOpenSession_frame (Frame.refl _ x) (Field.sub_refl _) .ports (by decide)), State.modPort_port, State.modCtl_port]

/-- The commands that a test selects no longer wait once they are answered. -/
theorem State.answerAll_none_waits {s : State} {n : Fin 128} {k : AwaitKind → Bool} {st : Status} {info : Nat} {result : List Byte} {a : Await}
    (ha : a ∈ (s.answerAll n k st info result).awaits) (hn : a.ch = n.1) : k a.kind = false := by
  have hmem := State.forAll_keeps AwaitsKept.completes.toRespects (g := fun a s => State.answer s a.who n st info result)
    (l := s.awaits.filter fun a => a.ch = n.1 && k a.kind) (AwaitsKept.completes.refl { s with awaits := s.awaits.filter fun a => !(a.ch = n.1 && k a.kind) })
    (fun _ _ => State.answer_completes AwaitsKept.completes (AwaitsKept.completes.refl _)) a
    (by unfold State.answerAll at ha; exact ha)
  simpa [hn] using (List.mem_filter.mp hmem).2

theorem State.sunk_awaits {s : State} {n : Fin 128} {a : Await} (ha : a ∈ (s.sunk n).awaits) (hn : a.ch = n.1) :
    a.kind ≠ .hold ∧ a.kind ≠ .restart := by
  have h := State.answerAll_none_waits ha hn
  simpa using h

theorem exec_holdInstant {s : State} {n : Fin 128} (hw : (s.ch n).holdWait = true) (hb : s.localBusy n = false) :
    exec (.holdInstant n) s = .next (((s.sunk n).forAll (List.finRange 16) fun t s => s.lineStep t).sequenceHeld n) := by
  rw [← State.reachHold_eq]
  exact congrArg Host.Outcome.next (if_pos (by simp [hw, hb]))

/-- What the hold instant leaves (R130). -/
theorem State.reachHold_parts {s u t : State} {n : Fin 128} (hu : (s.sunk n).forAll (List.finRange 16) (fun t s => s.lineStep t) = u)
    (ht : u.sequenceHeld n = t) :
    (t.ch n).sink = true ∧ (t.ch n).holdWait = false ∧ (t.ch n).holdT = s.now ∧ (t.ch n).holds = satInc (s.ch n).holds ∧
      (t.port n).op = none ∧ (∀ a ∈ t.awaits, a.ch = n.1 → a.kind ≠ .hold ∧ a.kind ≠ .restart) ∧
      ((s.ch n).seq = none → (t.ch n).state = (s.ch n).state) := by
  obtain ⟨r, hch⟩ := s.sunk_ch n
  have hport := s.sunk_port n
  have hlines := State.linesStepped_frame (s.sunk n)
  rw [hu] at hlines
  have huch : u.ch n = (s.sunk n).ch n := congrArg (vget · n) (hlines .ctl (by decide))
  have huport : u.port n = (s.sunk n).port n := congrArg (vget · n) (hlines .ports (by decide))
  have huaw : u.awaits = (s.sunk n).awaits := hlines .awaits (by decide)
  have hlast : (t.ch n).lasting = (u.ch n).lasting := ht ▸ State.sequenceHeld_moves (LastingKept.moves n) u n
  have htport : t.port n = u.port n := ht ▸ congrArg (vget · n) (State.sequenceHeld_frame u n .ports (by decide))
  have htaw : ∀ a ∈ t.awaits, a ∈ u.awaits := ht ▸ State.sequenceHeld_completes AwaitsKept.completes n u
  rw [huch, hch] at hlast
  simp only [Ctl.lasting, Prod.mk.injEq] at hlast
  obtain ⟨⟨hsink, hwait, hholdT, -⟩, ⟨-, hholds⟩, -⟩ := hlast
  refine ⟨hsink, hwait, hholdT, hholds, ?_, fun a ha hn => ?_, fun hseq => ?_⟩
  · rw [htport, huport, hport]
    rfl
  · exact State.sunk_awaits (huaw ▸ htaw a ha) hn
  · have hnone : (u.ch n).seq = none := by rw [huch, hch]; exact hseq
    have htu : t = u := by rw [← ht, State.sequenceHeld, hnone]
    rw [htu, huch, hch]

end Sys2Proof.Machine

namespace Sys2Proof

open Sys2Proof.Machine

/-- The orders that stop a host, whichever way they come. -/
theorem exec_stoppingOrder {s : State} {src : Src} {ch : Half} {n : Fin 128} {rival : Option Order} {held : Bool} {o : Order} {c : Instr}
    (hc : c ∈ orderForms src ch n rival held o) (h : s.orders src ch n o c) :
    ∃ t, exec c s = .next t ∧
      (s.mayOrder src o rival held →
        (o = .hold → if (s.ch n).state.live then
            (t.ch n).state = .held ∧ (t.ch n).kind = .manager ∧ (t.ch n).cause = .manager ∧ (t.ch n).holdWait = !(s.ch n).sink ∧
              (t.wd n).counting = false
          else (t.ch n).state = (s.ch n).state) ∧
        (o = .restart → if (s.ch n).released then
            (t.ch n).state = .held ∧ (t.ch n).kind = .sequence ∧ (t.ch n).seq = some .restart ∧ (t.ch n).holdWait = !(s.ch n).sink ∧
              (t.wd n).counting = false
          else (t.ch n).state = (s.ch n).state) ∧
        (o = .quarantine → if (s.ch n).state = .off then (t.ch n).state = .off
          else (t.ch n).state = .quarantined ∧ ((s.ch n).state ≠ .quarantined → (t.ch n).bound = none ∧ (t.ch n).holdWait = !(s.ch n).sink))) ∧
      (¬s.mayOrder src o rival held →
        (t.ch n).state = (s.ch n).state ∧ (t.ch n).sink = (s.ch n).sink ∧ (t.ch n).holdWait = (s.ch n).holdWait ∧
          (t.ch n).bound = (s.ch n).bound) := by
  obtain ⟨who, v, l, hans, he⟩ := exec_order hc h
  refine ⟨_, he, fun hm => ?given, fun hm => ?refused⟩
  case refused =>
    obtain ⟨st, hst⟩ := State.order_refused (s := { s with ctl := v }) (who := who) (n := n) hm
    rw [hst]
    have hall : OrdersAnswered s (({ s with ctl := v } : State).answer who n st) := hans.comp State.answer_orders
    exact ⟨hall.eq n Ctl.state fun _ _ => rfl, hall.eq n Ctl.sink fun _ _ => rfl, hall.eq n Ctl.holdWait fun _ _ => rfl,
      hall.eq n Ctl.bound fun _ _ => rfl⟩
  case given =>
    rw [State.order_given (s := { s with ctl := v }) (who := who) (n := n) hm]
    obtain ⟨r, hv⟩ := hans n
    generalize ({ s with ctl := v } : State) = u at hv
    have hstate : (u.ch n).state = (s.ch n).state := by rw [hv]
    refine ⟨?_, ?_, ?_⟩
    · rintro rfl
      cases hl : (s.ch n).state.live
      · exact (State.orderHold_other (by rw [hstate]; exact hl)).trans hstate
      · have hh := State.orderHold_live (who := who) (show (u.ch n).state.live = true by rw [hstate]; exact hl)
        rw [hv] at hh
        have hhb := hh.1.of_shown
        exact ⟨hhb.state, hhb.kind, hhb.cause (by rintro e; rw [e] at hl; cases hl), hhb.holdWait, hh.2⟩
    · rintro rfl
      have hrel : (u.ch n).released = (s.ch n).released := by rw [hv]; rfl
      cases hl : (s.ch n).released
      · exact (State.orderRestart_other (hrel.trans hl)).trans hstate
      · have hh := State.orderRestart_released (who := who) (hrel.trans hl)
        rw [hv] at hh
        have hhb := hh.1.of_shown
        exact ⟨hhb.state, hhb.kind, hhb.seq, hhb.holdWait, hh.2⟩
    · rintro rfl
      have hq := State.orderQuarantine_state u who n
      rw [hstate] at hq
      split
      · rename_i hoff
        exact hq.trans (if_pos hoff)
      · rename_i hoff
        refine ⟨hq.trans (if_neg hoff), fun hnq => ?_⟩
        have hleft := State.orderQuarantine_leaves (who := who) (hstate ▸ hoff) (hstate ▸ hnq)
        rw [show (u.ch n).sink = (s.ch n).sink by rw [hv]] at hleft
        exact hleft

/-- Settles O38: both forms of an order come to one judgement, a hold leaves what `Ctl.HeldBy` says, and the hold instant dates HOLD#. -/
theorem holdQuarantineAndRestartOrdersStopTheHost : Obligations.HoldQuarantineAndRestartOrdersStopTheHost := by
  intro s src ch n rival held
  exact ⟨fun o _ c hc h => exec_stoppingOrder hc h, fun hw hb => ⟨_, exec_holdInstant hw hb, State.reachHold_parts rfl rfl⟩⟩

end Sys2Proof

end


section
/-! SUPPORT. The way back into service (R129 to R137): READY and the release instant. -/

namespace Sys2Proof.Machine

open Sys2Proof

section

variable {k : Field} {R : State → State → Prop} (hR : Respects k R) {s₀ s : State}

include hR

theorem State.logMeas_keeps {type : Nat} {ch : Nat} {i : Nat} {info : List Nat} {v : Digest} (hf : k ∉ [.trace]) (h : R s₀ s) :
    R s₀ (State.logMeas s type ch i info v) :=
  hR.step h (State.logMeas_frame (Frame.refl _ _) (Field.sub_refl _)) hf

theorem State.publish_keeps {n : Fin 128} (hf : k ∉ [.wdg, .drbg, .drawn]) (h : R s₀ s) : R s₀ (State.publish s n) :=
  hR.step h (State.publish_frame (Frame.refl _ _) (Field.sub_refl _)) hf

theorem State.newWindow_keeps {n : Fin 128} (hf : k ∉ [.wdg]) (h : R s₀ s) : R s₀ (State.newWindow s n) :=
  hR.step h (State.newWindow_frame (Frame.refl _ _) (Field.sub_refl _)) hf

end

/-! ## Measurements are all that an extension changes of a mailbox -/

/-- From s to t the mailboxes are as before but for the measurement registers. -/
def MeasExtended (s t : State) : Prop := ∀ n, ∃ m, t.mb n = { s.mb n with meas := m }

theorem MeasExtended.respects : Respects .mbx MeasExtended where
  refl _ _ := ⟨_, rfl⟩
  comp h h' n := by
    obtain ⟨m, hm⟩ := h n
    obtain ⟨m', hm'⟩ := h' n
    exact ⟨m', by rw [hm', hm]⟩
  of_frame h hf n := ⟨_, congrArg (vget · n) (h .mbx hf)⟩

theorem State.modMbx_measures {s₀ s : State} {n : Fin 128} {f : Mailbox → Mailbox} (h : MeasExtended s₀ s)
    (hf : ∀ b, ∃ m, f b = { b with meas := m }) : MeasExtended s₀ (s.modMbx n f) := by
  refine MeasExtended.respects.comp h fun k => ?_
  by_cases hk : k = n
  · subst hk; rw [State.modMbx_mb]; exact hf _
  · exact ⟨_, State.modMbx_mb_ne s n f hk⟩

theorem State.extend_measures {s₀ s : State} {n : Fin 128} {i : Fin 8} {type : Nat} {info : List Nat} {v : Digest} (h : MeasExtended s₀ s) :
    MeasExtended s₀ (s.extend n i type info v) :=
  State.logMeas_keeps MeasExtended.respects (by decide) (State.modMbx_measures h fun _ => ⟨_, rfl⟩)

theorem State.arm_measures {s₀ s : State} {n : Fin 128} {inRelease : Bool} (h : MeasExtended s₀ s) : MeasExtended s₀ (s.arm n inRelease) := by
  unfold State.arm
  dsimp -failIfUnchanged -proj only
  repeat' (with_reducible first
    | assumption
    | apply State.extend_measures
    | apply State.raise_keeps MeasExtended.respects (by decide)
    | apply State.publish_keeps MeasExtended.respects (by decide)
    | apply State.modWdg_keeps MeasExtended.respects (by decide)
    | split)

theorem State.releaseWdg_measures {s₀ s : State} {n : Fin 128} (h : MeasExtended s₀ s) : MeasExtended s₀ (s.releaseWdg n) := by
  unfold State.releaseWdg
  dsimp -failIfUnchanged -proj only
  repeat' (with_reducible first
    | assumption
    | apply State.arm_measures
    | apply State.newWindow_keeps MeasExtended.respects (by decide)
    | apply State.publish_keeps MeasExtended.respects (by decide)
    | apply State.modWdg_keeps MeasExtended.respects (by decide)
    | split)

theorem State.releaseMeas_measures {s₀ s : State} {n : Fin 128} {st : ChState} {cause : Cause} {old : Phase} (h : MeasExtended s₀ s) :
    MeasExtended s₀ (s.releaseMeas n st cause old) := by
  unfold State.releaseMeas
  dsimp -failIfUnchanged -proj only
  repeat' (with_reducible first
    | assumption
    | apply State.extend_measures
    | apply State.raise_keeps MeasExtended.respects (by decide)
    | (apply State.modMbx_measures; rotate_left; (intro b; exact ⟨_, rfl⟩))
    | split)

/-! ## READY -/

theorem State.loadAreas_ch (s : State) (n : Fin 128) : ∃ p, (s.loadAreas n).ch n = { s.ch n with pins := p } := by
  unfold State.loadAreas
  dsimp only
  split <;> exact ⟨_, State.modCtl_ch _ _ _⟩

theorem State.loadAreas_cdiOf (s : State) (n : Fin 128) : (s.loadAreas n).cdiOf n = s.cdiOf n := by
  have hb : (s.loadAreas n).boundTo n = s.boundTo n := by
    obtain ⟨p, hp⟩ := s.loadAreas_ch n
    unfold State.boundTo
    rw [hp]
  have hfr := State.loadAreas_frame (Frame.refl [.ctl, .prof] s) (n := n) (by decide)
  have hatt : (s.loadAreas n).att = s.att := hfr .att (by decide)
  have himm : (s.loadAreas n).imm = s.imm := hfr .imm (by decide)
  have hkeys : (s.loadAreas n).keys = s.keys := hfr .keys (by decide)
  have hstn : (s.loadAreas n).stn = s.stn := hfr .stn (by decide)
  unfold State.cdiOf State.boundRoot State.devKey State.slot State.dirE State.st
  rw [hb, hatt, himm, hkeys, hstn]

/-- A channel whose identity is derived and whose areas are loaded, before it is READY. -/
def State.prepared (s : State) (n : Fin 128) : State := ((s.loadAreas n).deriveIdentity n).restoreKeep n

theorem State.prepared_ch (s : State) (n : Fin 128) : ∃ p, (s.prepared n).ch n = { s.ch n with pins := p } := by
  obtain ⟨p, hp⟩ := s.loadAreas_ch n
  have h : (s.prepared n).ch n = (s.loadAreas n).ch n := congrArg (vget · n)
    (State.restoreKeep_frame (State.deriveIdentity_frame (Frame.refl [.mbx, .wdg, .drbg, .drawn, .areas] _) (by decide)) (by decide) .ctl
      (by decide))
  exact ⟨p, h.trans hp⟩

theorem State.prepared_mb (s : State) (n : Fin 128) :
    ((s.prepared n).mb n).cdi = s.cdiOf n ∧ ((s.prepared n).mb n).cdiTaken = true := by
  have h : (s.prepared n).mb n = ((s.loadAreas n).deriveIdentity n).mb n := congrArg (vget · n)
    (State.restoreKeep_frame (Frame.refl [.areas] _) (by decide) .mbx (by decide))
  have hd : ((((s.loadAreas n).deriveIdentity n).mb n).cdi = (s.loadAreas n).cdiOf n) ∧
      (((s.loadAreas n).deriveIdentity n).mb n).cdiTaken = true := by
    unfold State.deriveIdentity State.drawGeneral
    exact ⟨congrArg Mailbox.cdi (State.modMbx_mb _ _ _), congrArg Mailbox.cdiTaken (State.modMbx_mb _ _ _)⟩
  rw [h]
  exact ⟨hd.1.trans (s.loadAreas_cdiOf n), hd.2⟩

/-- A READY channel asks for its release, comes late, or waits. -/
def State.askOrWait (s : State) (n : Fin 128) : State :=
  if (s.ch n).relAsked then s.requestRelease n
  else if (s.ch n).ranked && s.plat.ranksBegun && (s.profOf n).rank < s.plat.nextRank then
    { s with plat := { s.plat with late := s.plat.late ++ [n.1] } }
  else s

theorem State.becomeReady_eq (s : State) (n : Fin 128) :
    ∃ pending, s.becomeReady n = ((((s.prepared n).transition n .ready ((s.prepared n).ch n).cause).askOrWait n).answerAll n
      (fun k => k = .release) stSuccess pending []) := ⟨_, rfl⟩

@[simp] theorem State.requestRelease_ch (s : State) (n : Fin 128) :
    (s.requestRelease n).ch n = { s.ch n with relAsked := true, ranked := false } := by
  unfold State.requestRelease
  dsimp only
  split
  · exact State.modCtl_ch _ _ _
  · exact (State.put_plat_ch _ _ n).trans (State.modCtl_ch _ _ _)

theorem State.requestRelease_queue (s : State) (n : Fin 128) : n.1 ∈ (s.requestRelease n).plat.queue := by
  unfold State.requestRelease
  dsimp only
  split
  · rename_i h
    simpa using h
  · simp

/-- READY is reached with HOLD# as it was, and the release is asked for if its cause asked. -/
theorem State.askOrWait_ch (s : State) (n : Fin 128) :
    ((s.askOrWait n).ch n).state = (s.ch n).state ∧ ((s.askOrWait n).ch n).sink = (s.ch n).sink ∧
      ((s.ch n).relAsked = true → n.1 ∈ (s.askOrWait n).plat.queue) := by
  unfold State.askOrWait
  split
  · rename_i h
    rw [State.requestRelease_ch]
    exact ⟨rfl, rfl, fun _ => s.requestRelease_queue n⟩
  · rename_i h
    split <;> exact ⟨rfl, rfl, fun h' => absurd h' h⟩

theorem State.becomeReady_parts (s : State) (n : Fin 128) :
    ((s.becomeReady n).ch n).state = .ready ∧ ((s.becomeReady n).ch n).sink = (s.ch n).sink ∧ ((s.becomeReady n).mb n).cdi = s.cdiOf n ∧
      ((s.becomeReady n).mb n).cdiTaken = true ∧ ((s.ch n).relAsked = true → n.1 ∈ (s.becomeReady n).plat.queue) := by
  obtain ⟨pending, he⟩ := s.becomeReady_eq n
  obtain ⟨p, hp⟩ := s.prepared_ch n
  have hmb := s.prepared_mb n
  generalize s.prepared n = u at *
  have htr := State.transition_ch u n .ready (u.ch n).cause
  have htm : (u.transition n .ready (u.ch n).cause).mbx = u.mbx :=
    State.transition_frame (Frame.refl _ u) (Field.sub_refl _) .mbx (by decide)
  generalize u.transition n .ready (u.ch n).cause = v at *
  obtain ⟨hstate, hsink, hq⟩ := v.askOrWait_ch n
  have hask : (v.askOrWait n).mbx = v.mbx := by
    unfold State.askOrWait
    repeat' split
    · exact State.requestRelease_frame (Frame.refl _ v) (Field.sub_refl _) .mbx (by decide)
    · rfl
    · rfl
  have hans := State.answerAll_frame (Frame.refl _ (v.askOrWait n)) (Field.sub_refl _) (n := n) (k2 := fun k => k = .release)
    (st := stSuccess) (info := pending) (result := [])
  have hmbx : (s.becomeReady n).mb n = u.mb n := by
    rw [he]
    exact congrArg (vget · n) ((hans .mbx (by decide)).trans (hask.trans htm))
  have hplat : (s.becomeReady n).plat = (v.askOrWait n).plat := by
    rw [he]
    exact hans .plat (by decide)
  rw [hmbx, hplat, he, State.answerAll_orders.eq n Ctl.state fun _ _ => rfl, State.answerAll_orders.eq n Ctl.sink fun _ _ => rfl, hstate, hsink,
    htr, hp]
  refine ⟨rfl, rfl, hmb.1, hmb.2, fun h => hq ?_⟩
  rw [htr, hp]
  exact h

/-! ## The release instant -/

/-- HOLD# is released: the channel's control state, windows, areas, port and mailbox at a release, before its records (R132, R44, R61). -/
def State.letGo (s : State) (n : Fin 128) (st : ChState) (cause : Cause) : State :=
  let s := s.modCtl n fun c =>
    { c with sink := false, relT := s.now, releases := satInc c.releases, relAsked := false, firstRelease := false, ranked := false }
  let s := { s with plat := { s.plat with queue := s.plat.queue.filter fun x => x ≠ n.1,
                                          instants := (s.plat.instants.filter fun t => s.now < t + 1000 * msec) ++ [s.now] } }
  let s := s.transition n st cause
  let s := s.modStn n fun t =>
    { t with phase := .boot, tmoHit := false, pTok := Vector.ofFn fun w => Bucket.full (vget t.tbl.pbkt w),
             eTok := Vector.ofFn fun w => Bucket.full (vget t.tbl.ebkt w) }
  let s := s.modAreas n fun a => { a with scratch := [] }
  let s := (s.loadAreas n).csRise n
  let s := s.modPort n fun p => { p.hostReset none with ident := some (s.liveIdent n) }
  s.modMbx n Mailbox.released

/-- The proof, the watchdog and the measurements at a release instant. -/
def State.letGoRecords (s : State) (n : Fin 128) (st : ChState) (cause : Cause) (old : Phase) : State :=
  ((s.releaseProof n).releaseWdg n).releaseMeas n st cause old

theorem State.release_eq (s : State) (n : Fin 128) :
    ∃ ms t, s.release n = State.answerAll ((s.letGo n (if s.onProof n then .proof else .running) (s.ch n).cause).letGoRecords n
      (if s.onProof n then .proof else .running) (s.ch n).cause (s.st n).phase) n (fun k => k = .arm) stSuccess ms t := by
  unfold State.release State.letGoRecords State.letGo
  exact ⟨_, _, rfl⟩

theorem State.letGoRecords_frame (s : State) (n : Fin 128) (st : ChState) (cause : Cause) (old : Phase) :
    Frame [.plt, .mbx, .wdg, .trace, .rings, .drbg, .drawn] s (s.letGoRecords n st cause old) :=
  State.releaseMeas_frame (State.releaseWdg_frame (State.releaseProof_frame (Frame.refl _ s) (by decide)) (by decide)) (by decide)

theorem State.letGoRecords_measures (s : State) (n : Fin 128) (st : ChState) (cause : Cause) (old : Phase) :
    MeasExtended s (s.letGoRecords n st cause old) :=
  State.releaseMeas_measures (State.releaseWdg_measures (State.releaseProof_keeps MeasExtended.respects (by decide)
    (MeasExtended.respects.refl s)))

/-- The control state, the mailbox and the queue when a host is let go. -/
theorem State.letGo_ch (s : State) (n : Fin 128) (st : ChState) (cause : Cause) :
    ((s.letGo n st cause).ch n).state = st ∧ ((s.letGo n st cause).ch n).sink = false ∧ ((s.letGo n st cause).ch n).relT = s.now ∧
      n.1 ∉ (s.letGo n st cause).plat.queue := by
  unfold State.letGo
  dsimp only
  rw [State.modMbx_ch, State.modPort_ch, State.modMbx_plat, State.modPort_plat,
    show ∀ x : State, ((x.csRise n).ch n = x.ch n) from fun x =>
      congrArg (vget · n) (State.csRise_frame (Frame.refl _ x) (Field.sub_refl _) .ctl (by decide)),
    show ∀ x : State, ((x.loadAreas n).csRise n).plat = x.plat from fun x =>
      State.csRise_frame (State.loadAreas_frame (Frame.refl [.ports, .stn, .ctl, .prof] x) (by decide)) (by decide) .plat (by decide)]
  generalize hu : State.transition _ n st cause = u
  obtain ⟨p, hp⟩ := State.loadAreas_ch ((u.modStn n fun t =>
    { t with phase := .boot, tmoHit := false, pTok := Vector.ofFn fun w => Bucket.full (vget t.tbl.pbkt w),
             eTok := Vector.ofFn fun w => Bucket.full (vget t.tbl.ebkt w) }).modAreas n fun a => { a with scratch := [] }) n
  have hch : u.ch n = { s.ch n with
      sink := false, relT := s.now, releases := satInc (s.ch n).releases, relAsked := false, firstRelease := false, ranked := false, state := st, cause := cause, kind := if st = .held then (s.ch n).kind else .none } := by
    rw [← hu, State.transition_ch, State.put_plat_ch, State.modCtl_ch]
  have hplat : u.plat.queue = s.plat.queue.filter fun x => x ≠ n.1 := by
    rw [← hu, show ∀ x : State, (x.transition n st cause).plat = x.plat from fun x =>
      State.transition_frame (Frame.refl _ x) (Field.sub_refl _) .plat (by decide)]
    rfl
  rw [hp, State.modAreas_ch, State.modStn_ch, hch, State.modAreas_plat, State.modStn_plat, hplat]
  exact ⟨rfl, rfl, rfl, by simp⟩

/-- The Stencil, the SCRATCH area, the port and the mailbox when a host is let go. -/
theorem State.letGo_parts (s : State) (n : Fin 128) (st : ChState) (cause : Cause) :
    ((s.letGo n st cause).st n).phase = .boot ∧
      (∀ w, vget ((s.letGo n st cause).st n).pTok w = Bucket.full (vget ((s.letGo n st cause).st n).tbl.pbkt w)) ∧
      (∀ w, vget ((s.letGo n st cause).st n).eTok w = Bucket.full (vget ((s.letGo n st cause).st n).tbl.ebkt w)) ∧
      ((s.letGo n st cause).area n).scratch = [] ∧ ((s.letGo n st cause).port n).wel = false ∧ ((s.letGo n st cause).mb n).rev = 1 := by
  unfold State.letGo
  dsimp only
  generalize State.transition _ n st cause = u
  have hst : ∀ x : State, ∃ b, ((x.loadAreas n).csRise n).st n = { x.st n with oldCmd := b } := fun x =>
    ⟨_, (State.modStn_st _ n _).trans (by
      rw [State.modPort_st, show (x.loadAreas n).st n = x.st n from
        congrArg (vget · n) (State.loadAreas_frame (Frame.refl _ x) (Field.sub_refl _) .stn (by decide))])⟩
  have harea : ∀ x : State, ((x.loadAreas n).csRise n).area n = x.area n := fun x =>
    congrArg (vget · n) (State.csRise_frame (State.loadAreas_frame (Frame.refl [.ports, .stn, .ctl, .prof] x) (by decide)) (by decide) .areas
      (by decide))
  obtain ⟨b, hb⟩ := hst ((u.modStn n fun t =>
    { t with phase := .boot, tmoHit := false, pTok := Vector.ofFn fun w => Bucket.full (vget t.tbl.pbkt w),
             eTok := Vector.ofFn fun w => Bucket.full (vget t.tbl.ebkt w) }).modAreas n fun a => { a with scratch := [] })
  simp only [State.modMbx_st, State.modPort_st, State.modMbx_area, State.modPort_area, State.modMbx_port, State.modPort_port, State.modMbx_mb,
    hb, harea, State.modAreas_st, State.modStn_st, State.modAreas_area]
  exact ⟨trivial, fun w => by simp [vget], fun w => by simp [vget], trivial, rfl, rfl⟩

theorem State.release_parts (s : State) (n : Fin 128) :
    ((s.release n).ch n).state = (if s.onProof n then .proof else .running) ∧ ((s.release n).ch n).sink = false ∧
      ((s.release n).ch n).relT = s.now ∧ ((s.release n).st n).phase = .boot ∧
      (∀ w, vget ((s.release n).st n).pTok w = Bucket.full (vget ((s.release n).st n).tbl.pbkt w)) ∧
      (∀ w, vget ((s.release n).st n).eTok w = Bucket.full (vget ((s.release n).st n).tbl.ebkt w)) ∧ ((s.release n).area n).scratch = [] ∧
      ((s.release n).port n).wel = false ∧ ((s.release n).mb n).rev = 1 ∧ n.1 ∉ (s.release n).plat.queue := by
  obtain ⟨ms, time, he⟩ := s.release_eq n
  obtain ⟨hstate, hsink, hrelT, hq⟩ := s.letGo_ch n (if s.onProof n then .proof else .running) (s.ch n).cause
  obtain ⟨hphase, hp, hE, hscr, hwel, hrev⟩ := s.letGo_parts n (if s.onProof n then .proof else .running) (s.ch n).cause
  generalize s.letGo n (if s.onProof n then .proof else .running) (s.ch n).cause = u at *
  have hfr := u.letGoRecords_frame n (if s.onProof n then .proof else .running) (s.ch n).cause (s.st n).phase
  obtain ⟨m, hm⟩ := u.letGoRecords_measures n (if s.onProof n then .proof else .running) (s.ch n).cause (s.st n).phase n
  generalize u.letGoRecords n (if s.onProof n then .proof else .running) (s.ch n).cause (s.st n).phase = v at *
  have hans := State.answerAll_frame (Frame.refl _ v) (Field.sub_refl _) (n := n) (k2 := fun k => k = .arm) (st := stSuccess) (info := ms)
    (result := time)
  have hord := State.answerAll_orders (s := v) (n := n) (k := fun k => k = .arm) (st := stSuccess) (info := ms) (result := time)
  rw [he]
  generalize v.answerAll n (fun k => k = .arm) stSuccess ms time = t at *
  have hvch : v.ch n = u.ch n := congrArg (vget · n) (hfr .ctl (by decide))
  have hst : t.st n = u.st n := congrArg (vget · n) ((hans .stn (by decide)).trans (hfr .stn (by decide)))
  have harea : t.area n = u.area n := congrArg (vget · n) ((hans .areas (by decide)).trans (hfr .areas (by decide)))
  have hport : t.port n = u.port n := congrArg (vget · n) ((hans .ports (by decide)).trans (hfr .ports (by decide)))
  have hplat : t.plat = u.plat := (hans .plat (by decide)).trans (hfr .plat (by decide))
  have hmb : t.mb n = v.mb n := congrArg (vget · n) (hans .mbx (by decide))
  rw [hord.eq n Ctl.state fun _ _ => rfl, hord.eq n Ctl.sink fun _ _ => rfl, hord.eq n Ctl.relT fun _ _ => rfl, hvch, hst, harea, hport, hplat,
    hmb, hm]
  exact ⟨hstate, hsink, hrelT, hphase, hp, hE, hscr, hwel, hrev, hq⟩

/-- The conditions of a release keep the 10 ms after the hold instant (R132). -/
theorem State.mayRelease_due {s : State} {n : Fin 128} (h : s.mayRelease n = true) (h0 : (s.ch n).holdT ≠ 0) :
    (s.ch n).holdT + 10 * msec ≤ s.now := by
  simp only [State.mayRelease, Bool.and_eq_true, Bool.or_eq_true, decide_eq_true_eq] at h
  obtain ⟨⟨⟨⟨⟨⟨⟨⟨⟨⟨-, -⟩, -⟩, -⟩, hdue⟩, -⟩, -⟩, -⟩, -⟩, -⟩, -⟩ := h
  exact hdue.resolve_left h0

/-! ## Orders that lead back into service -/

theorem State.startTaking_sink (s : State) (n : Fin 128) (cause : Cause) (asked : Bool) :
    ((s.startTaking n cause asked).ch n).sink = (s.ch n).sink := (State.startTaking_wires (WiresKept.refl s)).sink n

/-- A channel that a RELEASE of its manager takes back into service (R137, R159). -/
def State.releasable (s : State) (n : Fin 128) : Prop :=
  (s.ch n).state = .recovery ∨ (s.ch n).state = .safe ∧ s.inhibited = false ∨
    (s.ch n).state = .held ∧ (s.ch n).kind ∈ [HoldKind.manager, .pgood, .tagLimit, .config, .standby] ∧ s.portFault n = false

/-- Where the device may release, a RELEASE is decided by the channel's state and the kind of its hold. -/
theorem State.orderRelease_eq {s : State} {who : Asker} {n : Fin 128} (hb : s.tamper.burnt = false) (ho : s.unowned = false) :
    s.orderRelease who n = match (s.ch n).state with
    | .off | .quarantined => s.answer who n stNotPermitted
    | .taking | .ready | .running | .proof => s.answer who n stSuccess (bval (s.relPending n))
    | .recovery => (s.wait who n .release).startTaking n .manager true
    | .safe => (s.wait who n .release).releaseSafe n
    | .held => match (s.ch n).kind with
      | .sequence | .impressionLost => s.answer who n stBusy
      | .device | .none => s.answer who n stNotPermitted
      | .manager | .pgood | .tagLimit | .config | .standby => (s.wait who n .release).startTaking n .manager true := by
  unfold State.orderRelease
  exact if_neg (by simp [hb, ho])

theorem State.releaseSafe_safe {s : State} {n : Fin 128} (hs : (s.ch n).state = .safe) :
    (s.inhibited = false → (((s.releaseSafe n).ch n).state = .taking ∨ ((s.releaseSafe n).ch n).state = .recovery) ∧
      ((s.releaseSafe n).ch n).sink = (s.ch n).sink) ∧
    (s.inhibited = true → ((s.releaseSafe n).ch n).state = (s.ch n).state) := by
  have hch : (s.clearConsec n).ch n = s.ch n := congrArg (vget · n) (State.clearConsec_frame (Frame.refl _ s) (Field.sub_refl _) .ctl (by decide))
  unfold State.releaseSafe
  refine ⟨fun h => ?_, fun h => ?_⟩
  · rw [if_neg (by simp [h]), State.startTaking_sink, hch]
    refine ⟨State.startTaking_state _ n _ _ fun e => ?_, rfl⟩
    rw [hch, hs] at e
    cases e
  · rw [if_pos h]
    rfl

theorem State.orderRelease_goes {s : State} {who : Asker} {n : Fin 128} (hb : s.tamper.burnt = false) (ho : s.unowned = false)
    (h : s.releasable n) :
    (((s.orderRelease who n).ch n).state = .taking ∨ ((s.orderRelease who n).ch n).state = .recovery) ∧
      ((s.orderRelease who n).ch n).sink = (s.ch n).sink := by
  rw [State.orderRelease_eq hb ho]
  rcases h with h | ⟨h, hi⟩ | ⟨h, hk, hp⟩
  · rw [h]
    exact ⟨State.startTaking_state _ n _ _ fun e => absurd (h.symm.trans e) (by decide), State.startTaking_sink _ n _ _⟩
  · rw [h]
    exact (State.releaseSafe_safe (s := s.wait who n .release) h).1 hi
  · have hgo : ((((s.wait who n .release).startTaking n .manager true).ch n).state = .taking ∨
        (((s.wait who n .release).startTaking n .manager true).ch n).state = .recovery) ∧
        (((s.wait who n .release).startTaking n .manager true).ch n).sink = (s.ch n).sink :=
      ⟨State.startTaking_state _ n _ _ fun _ => hp, State.startTaking_sink _ n _ _⟩
    rw [h]
    dsimp only
    simp only [List.mem_cons, List.not_mem_nil, or_false] at hk
    rcases hk with hk | hk | hk | hk | hk
    all_goals
      rw [hk]
      exact hgo

theorem State.orderRelease_stays {s : State} {who : Asker} {n : Fin 128} (hb : s.tamper.burnt = false) (ho : s.unowned = false)
    (h : ¬s.releasable n) : ((s.orderRelease who n).ch n).state = (s.ch n).state := by
  have hans : ∀ st info, ((s.answer who n st info).ch n).state = (s.ch n).state := fun _ _ => State.answer_orders.eq n Ctl.state fun _ _ => rfl
  rw [State.orderRelease_eq hb ho]
  cases hs : (s.ch n).state
  case recovery => exact absurd (.inl hs) h
  case safe =>
    cases hi : s.inhibited
    · exact absurd (.inr (.inl ⟨hs, hi⟩)) h
    · exact ((State.releaseSafe_safe (s := s.wait who n .release) hs).2 hi).trans hs
  case held =>
    have hstay : (s.ch n).kind ∈ [HoldKind.manager, .pgood, .tagLimit, .config, .standby] →
        (((s.wait who n .release).startTaking n .manager true).ch n).state = .held := by
      intro hk
      have hp : s.portFault n = true := by
        cases hp : s.portFault n
        · exact absurd (.inr (.inr ⟨hs, hk, hp⟩)) h
        · rfl
      exact ((State.startTaking_fault (s.wait who n .release) n .manager true hs hp).eq n Ctl.state fun _ _ => rfl).trans hs
    dsimp only
    cases hk : (s.ch n).kind
    case sequence | impressionLost | device | none => exact (hans _ _).trans hs
    all_goals exact hstay (by simp [hk])
  all_goals exact (hans _ _).trans hs

/-- READMIT (R137). -/
theorem State.orderReadmit_state (s : State) (who : Asker) (n : Fin 128) :
    if (s.ch n).state = .quarantined then ((s.orderReadmit who n).ch n).state = .held ∧ ((s.orderReadmit who n).ch n).kind = .manager
    else ((s.orderReadmit who n).ch n).state = (s.ch n).state := by
  have hh := State.hold_ch s n .manager .manager none
  unfold State.orderReadmit
  split
  · rw [State.answer_orders.eq n Ctl.state fun _ _ => rfl, State.answer_orders.eq n Ctl.kind fun _ _ => rfl]
    exact ⟨hh.state, hh.kind⟩
  · exact State.answer_orders.eq n Ctl.state fun _ _ => rfl

/-- Ten milliseconds after the hold instant, a sequence takes its channel on (R138, R118). -/
theorem State.sequence_goes_on {s : State} {n : Fin 128} {due : Nat} {cause : Cause} (hs : (s.ch n).state = .held) (hsink : (s.ch n).sink = true) :
    (((s.until due).startTaking n cause true).now = max s.now due) ∧ (((s.until due).startTaking n cause true).ch n).sink = true ∧
      if s.portFault n then (((s.until due).startTaking n cause true).ch n).state = .held
      else (((s.until due).startTaking n cause true).ch n).state = .taking ∨ (((s.until due).startTaking n cause true).ch n).state = .recovery := by
  refine ⟨State.startTaking_frame (Frame.refl _ (s.until due)) (Field.sub_refl _) .now (by decide), ?_, ?_⟩
  · rw [State.startTaking_sink]
    exact hsink
  · split
    · rename_i hp
      exact ((State.startTaking_fault (s.until due) n cause true hs hp).eq n Ctl.state fun _ _ => rfl).trans hs
    · rename_i hp
      exact State.startTaking_state (s.until due) n cause true fun _ => Bool.eq_false_iff.mpr hp

theorem exec_sequenceHoldElapsed {s : State} {n : Fin 128} (hs : (s.ch n).state = .held) (hk : (s.ch n).kind = .sequence)
    (hsink : (s.ch n).sink = true) (hdev : s.dev.state = .running)
    (hq : (s.ch n).seq = some .restart ∨ (s.ch n).seq = some .revert ∧ s.dev.ccAbsent = false) :
    ∃ cause, exec (.sequenceHoldElapsed n) s = .next ((s.until ((s.ch n).holdT + 10 * msec)).startTaking n cause true) := by
  have he : exec (.sequenceHoldElapsed n) s = .next (match (s.ch n).seq with
      | some .restart => (s.until ((s.ch n).holdT + 10 * msec)).startTaking n .restart true
      | some .revert => if s.dev.ccAbsent then s else (s.until ((s.ch n).holdT + 10 * msec)).startTaking n .proof true
      | _ => s) := congrArg Host.Outcome.next ((if_pos (by simp [hs, hk, hsink, hdev])).trans (by rfl))
  rcases hq with h | ⟨h, hcc⟩
  · exact ⟨.restart, by rw [he, h]⟩
  · exact ⟨.proof, by rw [he, h]; exact congrArg Host.Outcome.next (if_neg (by simp [hcc]))⟩

theorem exec_channelReady {s : State} {n : Fin 128} (hcc : s.dev.ccAbsent = false) (hs : (s.ch n).state = .taking) (hsel : (s.ch n).sel = none)
    (harm : (s.pl n).arming = none) (hb : (s.ch n).bound.isSome = true ∨ s.exempt n = true) (hburnt : s.tamper.burnt = false) :
    exec (.channelReady n) s = .next (s.becomeReady n) :=
  congrArg Host.Outcome.next ((if_pos (by simp [hs, hsel, harm, hburnt, hcc])).trans (if_pos (by simpa using hb)))

end Sys2Proof.Machine

namespace Sys2Proof

open Sys2Proof.Machine

/-- The orders that take a host back, whichever way they come. -/
theorem exec_releasingOrder {s : State} {src : Src} {ch : Half} {n : Fin 128} {rival : Option Order} {held : Bool} {o : Order} {c : Instr}
    (hc : c ∈ orderForms src ch n rival held o) (h : s.orders src ch n o c) :
    ∃ t, exec c s = .next t ∧
      (¬s.mayOrder src o rival held → (t.ch n).state = (s.ch n).state ∧ (t.ch n).sink = (s.ch n).sink) ∧
      (s.mayOrder src o rival held → o = .release → s.tamper.burnt = false → s.unowned = false →
        if (s.ch n).state = .recovery ∨ (s.ch n).state = .safe ∧ s.inhibited = false ∨
            (s.ch n).state = .held ∧ (s.ch n).kind ∈ [HoldKind.manager, .pgood, .tagLimit, .config, .standby] ∧ s.portFault n = false then
          ((t.ch n).state = .taking ∨ (t.ch n).state = .recovery) ∧ (t.ch n).sink = (s.ch n).sink
        else (t.ch n).state = (s.ch n).state) ∧
      (s.mayOrder src o rival held → o = .readmit → if (s.ch n).state = .quarantined then (t.ch n).state = .held ∧ (t.ch n).kind = .manager
        else (t.ch n).state = (s.ch n).state) := by
  obtain ⟨who, v, l, hans, he⟩ := exec_order hc h
  have hstate := hans.eq n Ctl.state fun _ _ => rfl
  have hkind := hans.eq n Ctl.kind fun _ _ => rfl
  have hsink := hans.eq n Ctl.sink fun _ _ => rfl
  refine ⟨_, he, fun hm => ?refused, fun hm ho hb hu => ?release, fun hm ho => ?readmit⟩
  case refused =>
    obtain ⟨st, hst⟩ := State.order_refused (s := { s with ctl := v }) (who := who) (n := n) hm
    rw [hst]
    have hall : OrdersAnswered s (({ s with ctl := v } : State).answer who n st) := hans.comp State.answer_orders
    exact ⟨hall.eq n Ctl.state fun _ _ => rfl, hall.eq n Ctl.sink fun _ _ => rfl⟩
  case release =>
    subst ho
    rw [State.order_given (s := { s with ctl := v }) (who := who) (n := n) hm]
    have hcond : ({ s with ctl := v } : State).releasable n ↔ s.releasable n := by
      unfold State.releasable
      rw [hstate, hkind]
      rfl
    split
    · rename_i hr
      obtain ⟨hgo, hs'⟩ := State.orderRelease_goes (s := { s with ctl := v }) (who := who) hb hu (hcond.mpr hr)
      exact ⟨hgo, hs'.trans hsink⟩
    · rename_i hr
      exact (State.orderRelease_stays (s := { s with ctl := v }) (who := who) hb hu (fun h => hr (hcond.mp h))).trans hstate
  case readmit =>
    subst ho
    rw [State.order_given (s := { s with ctl := v }) (who := who) (n := n) hm]
    have hr := State.orderReadmit_state ({ s with ctl := v } : State) who n
    rw [hstate] at hr
    exact hr

/-- Settles O39: an order moves the channel to TAKING, whence it comes to READY with its identity, and at the release instant to its host. -/
theorem releaseOrdersLeadToTheReleaseInstant : Obligations.ReleaseOrdersLeadToTheReleaseInstant := by
  intro s src ch n rival held
  refine ⟨fun o _ c hc h => exec_releasingOrder hc h, fun hs hk hsink hdev hq => ?elapsed, fun hcc hs hsel harm hb hburnt => ?ready,
    fun hmay hfull hnext => ?release⟩
  case elapsed =>
    obtain ⟨cause, he⟩ := exec_sequenceHoldElapsed hs hk hsink hdev hq
    exact ⟨_, he, State.sequence_goes_on hs hsink⟩
  case ready => exact ⟨_, exec_channelReady hcc hs hsel harm hb hburnt, s.becomeReady_parts n⟩
  case release =>
    obtain ⟨hstate, hsink, hrelT, hrest⟩ := (s.until (s.releaseDue n)).release_parts n
    exact ⟨_, congrArg Host.Outcome.next (if_pos (by simp [hmay, hfull, hnext])), hstate, hsink, hrelT, State.mayRelease_due hmay, hrest⟩

end Sys2Proof

end


section
/-! SUPPORT. Tripwire lines, ranks and the shared platform part (R126 to R141). -/

namespace Sys2Proof.Machine

open Sys2Proof

/-! ## One element of a run over a list -/

/-- A run over a list, seen from one of its elements: what comes before and after keeps whatever every step keeps. -/
theorem State.forAll_turn {α : Type} {R : State → State → Prop} (hrefl : ∀ s, R s s) (hcomp : ∀ s t u, R s t → R t u → R s u) {f : α → State → State}
    (hf : ∀ x s, R s (f x s)) (s : State) {l : List α} {a : α} (ha : a ∈ l) : ∃ u, R s u ∧ R (f a u) (s.forAll l f) := by
  have hall : ∀ (l : List α) s, R s (State.forAll s l f) := by
    intro l
    induction l with
    | nil => exact hrefl
    | cons x l ih => exact fun s => hcomp _ _ _ (hf x s) (ih _)
  obtain ⟨pre, post, rfl⟩ := List.append_of_mem ha
  refine ⟨s.forAll pre f, hall pre s, ?_⟩
  unfold State.forAll
  rw [List.foldl_append, List.foldl_cons]
  exact hall post _

/-- A run over the channels that meet a test is a run over all of them. -/
theorem State.forAll_filter_finRange (s : State) (p : Fin 128 → Bool) (f : Fin 128 → State → State) :
    s.forAll ((List.finRange 128).filter p) f = s.forChans fun n s => if p n then f n s else s := by
  unfold State.forAll State.forChans
  rw [List.foldl_filter]

/-! ## Other channels -/

theorem State.stopHost_ch_ne {s : State} {n k : Fin 128} (hk : k ≠ n) : (s.stopHost n).ch k = s.ch k := by
  unfold State.stopHost
  dsimp only
  rw [State.put_plat_ch, State.modCtl_ch_ne _ _ _ hk]
  simp

theorem State.hold_other (s : State) (n : Fin 128) (kind : HoldKind) (cause : Cause) (seq : Option SeqKind) :
    OtherCtl n s (s.hold n kind cause seq) := by
  intro k hk
  unfold State.hold
  dsimp only
  generalize hu : (s.stopHost n).modCtl n (fun c => { c with kind := kind, seq := seq }) = u
  have huk : u.ch k = s.ch k := by rw [← hu, State.modCtl_ch_ne _ _ _ hk, State.stopHost_ch_ne hk]
  have hans : ∀ b, (if b = true then u.answerAll n (fun k => k = .release) stAborted 0 [] else u).ch k = s.ch k := by
    intro b
    split
    · exact (State.answerAll_moves (OtherCtl.moves n) ((OtherCtl.moves n).refl u) k hk).trans huk
    · exact huk
  have hans' := hans (decide ((s.ch n).state = .taking))
  simp only [decide_eq_true_eq] at hans'
  split
  · exact hans'
  · rw [State.transition_ch_ne hk]
    exact hans'

theorem State.powerStep3_other (s : State) (n : Fin 128) : OtherCtl n s (s.powerStep3 n) :=
  State.powerStep3_moves (OtherCtl.moves n) ((OtherCtl.moves n).refl s)

/-! ## Lines -/

theorem State.modLine_line (s : State) (t : Fin 16) (x : TwStep) : vget (s.modLine t x).plat.lines t = x := by
  simp [State.modLine, vget, vset]

theorem State.modLine_line_ne (s : State) {t k : Fin 16} (x : TwStep) (h : k ≠ t) :
    vget (s.modLine t x).plat.lines k = vget s.plat.lines k := by
  simp only [State.modLine, vget, vset]
  exact Vector.getElem_set_ne _ _ (fun e => h (Fin.ext e.symm))

/-- A line moves on from step 1 to step 2 or stays. -/
theorem State.lineStep_line {s : State} {t : Fin 16} {cs : List Nat} (h : vget s.plat.lines t = .holding cs) :
    vget (s.lineStep t).plat.lines t ≠ .idle := by
  unfold State.lineStep
  rw [h]
  dsimp only
  split
  · have hl : vget (s.modLine t (.sinking s.now cs)).plat.lines t ≠ .idle := by
      rw [State.modLine_line]
      exact TwStep.noConfusion
    exact hl
  · rw [h]
    exact TwStep.noConfusion

/-- A line stands where it is recorded, or its sequence is over. -/
theorem State.lineAt_or_idle (s : State) (t : Fin 16) : s.lineAt t = vget s.plat.lines t ∨ s.lineAt t = .idle := by
  unfold State.lineAt
  split
  · rename_i cs h
    split
    · exact .inl h.symm
    · exact .inr rfl
  · exact .inl rfl

/-- Lines that are set idle. -/
theorem State.idleLines_line (l : List (Fin 16)) (tw : Fin 16 → State → List Nat) (s : State) (t : Fin 16) :
    vget (s.forAll l fun t s => { s.modLine t .idle with twl := tw t s }).plat.lines t =
      if t ∈ l then .idle else vget s.plat.lines t := by
  induction l generalizing s with
  | nil => rfl
  | cons k l ih =>
    refine (ih _).trans ?_
    by_cases hk : t = k
    · subst hk
      rw [if_pos List.mem_cons_self]
      split
      · rfl
      · exact State.modLine_line s t .idle
    · have hmem : t ∈ k :: l ↔ t ∈ l := by simp [hk]
      simp only [hmem]
      split
      · rfl
      · exact State.modLine_line_ne s .idle hk

/-- Where sequences are over, their lines become idle; the others stay where they stand. -/
theorem State.endLines_line (s : State) (t : Fin 16) : vget s.endLines.plat.lines t = s.lineAt t := by
  have hmem : t ∈ ((List.finRange 16).filter fun t => vget s.plat.lines t ≠ s.lineAt t) ↔ vget s.plat.lines t ≠ s.lineAt t := by simp
  unfold State.endLines
  dsimp only
  generalize ((List.finRange 16).filter fun t => vget s.plat.lines t ≠ s.lineAt t) = ended at hmem
  split
  · rename_i he
    rw [List.isEmpty_iff.mp he] at hmem
    exact Decidable.not_not.mp fun h => absurd (hmem.mpr h) List.not_mem_nil
  · refine (State.idleLines_line ended (fun t s => s.twl.set t.1 (s.dcfg.twl.getD t.1 0)) s t).trans ?_
    split
    · rename_i h
      exact ((s.lineAt_or_idle t).resolve_left (fun e => hmem.mp h e.symm)).symm
    · rename_i h
      exact Decidable.not_not.mp fun h' => h (hmem.mpr h')

/-- Step 3 of a line is seen in the control states alone. -/
theorem State.atStep3_congr {s t : State} (h : t.ctl = s.ctl) (l : Fin 16) : t.atStep3 l = s.atStep3 l := by
  funext k
  unfold State.atStep3 State.ch
  rw [h]

/-! ## Words packed from single bits -/

/-- Bits packed from position `off` on. -/
theorem pack_bits {k : Nat} (b : Fin k → Bool) (off : Nat) :
    pack ((List.finRange k).map fun i => (off + i.1, bval (b i))) = 2 ^ off * Nat.ofBits b := by
  induction k generalizing off with
  | zero => rfl
  | succ k ih =>
    have htail := ih (b ∘ Fin.succ) (off + 1)
    have hval : bval (b 0) = (b 0).toNat := by cases b 0 <;> rfl
    rw [List.finRange_succ, List.map_cons, List.map_map, Nat.ofBits_succ]
    have hmap : ((fun i : Fin (k + 1) => (off + i.1, bval (b i))) ∘ Fin.succ) = fun i => (off + 1 + i.1, bval ((b ∘ Fin.succ) i)) := by
      funext i
      simp only [Function.comp_apply, Fin.val_succ, Prod.mk.injEq, and_true]
      omega
    rw [hmap]
    calc pack ((off + (0 : Fin (k + 1)).1, bval (b 0)) :: (List.finRange k).map fun i => (off + 1 + i.1, bval ((b ∘ Fin.succ) i)))
        = pack ((List.finRange k).map fun i => (off + 1 + i.1, bval ((b ∘ Fin.succ) i))) + bval (b 0) <<< off := rfl
      _ = 2 ^ off * (2 * Nat.ofBits (b ∘ Fin.succ) + (b 0).toNat) := by
        rw [htail, hval, Nat.shiftLeft_eq]
        ring

theorem pack_testBit {k : Nat} (b : Fin k → Bool) (i : Fin k) : (pack ((List.finRange k).map fun i => (i.1, bval (b i)))).testBit i.1 = b i := by
  have h := pack_bits b 0
  simp only [Nat.zero_add, pow_zero, Nat.one_mul] at h
  rw [h]
  exact Nat.testBit_ofBits_lt b i.1 i.2

/-! ## A write of TWL_PULSE (R139) -/

theorem exec_twlPulse {s : State} {m : Mgr} {l : Fin 16} {v : Word} (hr : s.reaches m 0x00D048) (hgo : v.getLsbD 8 = true)
    (hl : field v.toNat 3 0 = l.1) :
    exec (.twlPulse m v) s = .next (if s.lineRole l ≠ 1 then s.ignoredWrite m 0x00D048
      else if s.dev.state = .running then s.requestPulse l none else s) := by
  refine congrArg Host.Outcome.next ((State.regW_reaches hr).trans ?_)
  rw [fin?_of_val hl.symm, hgo] <;> rfl

/-- The channels that the sequence of a line holds when it starts. -/
def State.inSequence (s : State) (l : Fin 16) (n : Fin 128) : Bool :=
  (s.profOf n).rgrpEn && (s.profOf n).rgrp = l.1 && s.chanOn n && ((s.ch n).state.live || s.joins none n)

theorem State.requestPulse_idle {s : State} {l : Fin 16} (h : s.lineAt l = .idle) :
    s.requestPulse l none = ((((s.forChans fun n u => if s.inSequence l n then u.hold n .sequence .powerCycle (some (.power l.1)) else u).modLine l
      (.holding (((List.finRange 128).filter (s.inSequence l)).map fun n => n.1))).lineStep l)) := by
  rw [← State.forAll_filter_finRange]
  unfold State.requestPulse
  rw [h] <;> rfl

theorem State.requestPulse_merged {s : State} {l : Fin 16} (h : s.lineAt l ≠ .idle) :
    s.requestPulse l none = { s with plat := { s.plat with merged := satInc s.plat.merged } } := by
  unfold State.requestPulse
  cases hl : s.lineAt l with
  | idle => exact absurd hl h
  | holding _ => rfl
  | sinking _ _ => rfl
  | waiting _ => rfl

theorem State.lineStep_ch (s : State) (t : Fin 16) (n : Fin 128) : (s.lineStep t).ch n = s.ch n :=
  congrArg (vget · n) (State.lineStep_frame (Frame.refl _ s) (Field.sub_refl _) .ctl (by decide))

/-- A live channel of the line's group is held by the sequence that starts. -/
theorem State.requestPulse_holds {s : State} {l : Fin 16} {n : Fin 128} (h : s.lineAt l = .idle) (hn : s.inSequence l n = true) :
    ((s.requestPulse l none).ch n).state = .held ∧ ((s.requestPulse l none).ch n).kind = .sequence ∧
      ((s.requestPulse l none).ch n).seq = some (.power l.1) := by
  obtain ⟨u, -, hu⟩ := State.forChans_turn (R := fun s t => t.ch n = s.ch n) (fun _ => rfl) (fun _ _ _ h h' => h'.trans h) s n
    (f := fun n u => if s.inSequence l n then u.hold n .sequence .powerCycle (some (.power l.1)) else u) fun k hk u => by
      split
      · exact State.hold_other u k _ _ _ n (Ne.symm hk)
      · rfl
  rw [if_pos hn] at hu
  have hh := State.hold_ch u n .sequence .powerCycle (some (.power l.1))
  rw [State.requestPulse_idle h, State.lineStep_ch]
  rw [show ∀ (x : State) y, (x.modLine l y).ch n = x.ch n from fun _ _ => rfl, hu]
  exact ⟨hh.state, hh.kind, hh.seq⟩

/-! ## The end of a pulse (R139) -/

theorem DevKept.state {s t : State} (h : DevKept s t) : t.dev.state = s.dev.state := by
  unfold DevKept at h
  rw [h]

/-- From s to t nothing that the step 3 of channel n depends on changes. -/
structure StepThreeKept (n : Fin 128) (s t : State) : Prop where
  ch : t.ch n = s.ch n
  dev : DevKept s t
  now : t.now = s.now
  prof : t.prof = s.prof
  fps : t.fps = s.fps
  plat : t.plat = s.plat

theorem StepThreeKept.refl (n : Fin 128) (s : State) : StepThreeKept n s s := ⟨rfl, rfl, rfl, rfl, rfl, rfl⟩

theorem StepThreeKept.comp {n : Fin 128} {s t u : State} (h : StepThreeKept n s t) (h' : StepThreeKept n t u) : StepThreeKept n s u :=
  ⟨h'.ch.trans h.ch, DevKept.completes.comp h.dev h'.dev, h'.now.trans h.now, h'.prof.trans h.prof, h'.fps.trans h.fps, h'.plat.trans h.plat⟩

/-- What a step 3 of another channel leaves. -/
theorem State.powerStep3_kept (s : State) {n k : Fin 128} (hk : n ≠ k) : StepThreeKept n s (s.powerStep3 k) := by
  have hfr := State.powerStep3_frame (Frame.refl _ s) (Field.sub_refl _) (n := k)
  exact ⟨s.powerStep3_other k n hk, State.powerStep3_completes DevKept.completes rfl, hfr .now (by decide), hfr .prof (by decide),
    hfr .fps (by decide), hfr .plat (by decide)⟩

/-- Step 3 of one channel (R139, R70). -/
theorem State.powerStep3_ch (s : State) (n : Fin 128) (hs : (s.ch n).state = .held) :
    if (s.ch n).pgOk = true ∧ s.dev.state = .running ∧ s.portFault n = false then
      ((s.powerStep3 n).ch n).state = .taking ∨ ((s.powerStep3 n).ch n).state = .recovery
    else ((s.powerStep3 n).ch n).state = .held ∧ ((s.powerStep3 n).ch n).pgTmoAt = some (s.now + (s.profOf n).pgTmo * second) := by
  unfold State.powerStep3
  split
  · rename_i h
    rw [if_pos (by simp [h])]
    exact State.startTaking_state s n _ _ fun _ => h.2.2
  · rename_i h
    rw [if_neg (by simpa [and_assoc] using h), State.modCtl_ch]
    exact ⟨hs, rfl⟩

/-- The line is released: its sequence stands at step 3 for each of its channels. -/
def State.lineFreed (s : State) (l : Fin 16) (since : Nat) (cs : List Nat) : State := (s.until (since + s.linePulse l)).modLine l (.waiting cs)

/-- The step 3 of every channel that the sequence still holds. -/
def State.stepsThree (s : State) (l : Fin 16) (cs : List Nat) : State :=
  s.forChans fun n s => if cs.contains n.1 && s.atStep3 l n.1 then s.powerStep3 n else s

theorem exec_twPulseEnd {s : State} {l : Fin 16} {since : Nat} {cs : List Nat} (h : vget s.plat.lines l = .sinking since cs) :
    exec (.twPulseEnd l) s = .next ((s.lineFreed l since cs).stepsThree l cs).endLines := by
  have he : exec (.twPulseEnd l) s = .next (match vget s.plat.lines l with
    | .sinking since cs => ((s.lineFreed l since cs).stepsThree l cs).endLines
    | _ => s) := rfl
  rw [he, h]

/-- The steps 3 leave the time and the lines, and bring channel n to TAKING or to its wait for PG_OK. -/
theorem State.stepsThree_turn (s : State) (l : Fin 16) (cs : List Nat) (n : Fin 128) :
    ∃ u, StepThreeKept n s u ∧
      StepThreeKept n (if cs.contains n.1 && u.atStep3 l n.1 then u.powerStep3 n else u) (s.stepsThree l cs) :=
  State.forChans_turn (f := fun n u => if cs.contains n.1 && u.atStep3 l n.1 then u.powerStep3 n else u) (StepThreeKept.refl n)
    (fun _ _ _ => StepThreeKept.comp) s n fun k hk u => by
    split
    · exact u.powerStep3_kept (Ne.symm hk)
    · exact StepThreeKept.refl n u

theorem State.stepsThree_frame (s : State) (l : Fin 16) (cs : List Nat) :
    Frame [.mbx, .ctl, .plt, .wdg, .imm, .fca, .mins, .trace, .spdm, .rings, .views, .awaits, .drbg, .drawn, .led, .dev] s (s.stepsThree l cs) :=
  State.forChans_frame (Frame.refl _ s) fun n u => by
    split
    · exact State.powerStep3_frame (Frame.refl _ u) (Field.sub_refl _)
    · exact Frame.refl _ u

theorem State.atStep3_val (s : State) (l : Fin 16) (n : Fin 128) :
    s.atStep3 l n.1 = (decide ((s.ch n).state = .held) && decide ((s.ch n).seq = some (.power l.1))) := by
  unfold State.atStep3
  rw [fin?_val]

/-- A channel of the sequence after its step 3. -/
theorem State.stepsThree_ch {s : State} {l : Fin 16} {cs : List Nat} {n : Fin 128} (hn : n.1 ∈ cs) (hs : (s.ch n).state = .held)
    (hq : (s.ch n).seq = some (.power l.1)) :
    if (s.ch n).pgOk = true ∧ s.dev.state = .running ∧ s.portFault n = false then
      ((s.stepsThree l cs).ch n).state = .taking ∨ ((s.stepsThree l cs).ch n).state = .recovery
    else ((s.stepsThree l cs).ch n).state = .held ∧ ((s.stepsThree l cs).ch n).pgTmoAt = some (s.now + (s.profOf n).pgTmo * second) := by
  obtain ⟨u, hu, ht⟩ := s.stepsThree_turn l cs n
  have hat : (cs.contains n.1 && u.atStep3 l n.1) = true := by
    rw [State.atStep3_val, hu.ch, hs, hq]
    simp [hn]
  rw [if_pos hat] at ht
  have hturn := u.powerStep3_ch n (hu.ch ▸ hs)
  have hdev : u.dev.state = s.dev.state := hu.dev.state
  have hfault : u.portFault n = s.portFault n := by
    unfold State.portFault State.profOf State.fp
    rw [hu.prof, hu.fps]
  have hprof : u.profOf n = s.profOf n := congrArg (vget · n) hu.prof
  rw [hu.ch, hdev, hfault, hu.now, hprof] at hturn
  rw [ht.ch]
  exact hturn

/-- What the end of a pulse leaves (R139). -/
theorem State.pulseEnd_parts {s t : State} {l : Fin 16} {n : Fin 128} {since : Nat} {cs : List Nat}
    (ht : ((s.lineFreed l since cs).stepsThree l cs).endLines = t) :
    t.now = max s.now (since + s.linePulse l) ∧ vget t.plat.lines l = (if cs.any (t.atStep3 l) then .waiting cs else .idle) ∧
      (n.1 ∈ cs → (s.ch n).state = .held → (s.ch n).seq = some (.power l.1) →
        if (s.ch n).pgOk = true ∧ s.dev.state = .running ∧ s.portFault n = false then (t.ch n).state = .taking ∨ (t.ch n).state = .recovery
        else (t.ch n).state = .held ∧ (t.ch n).pgTmoAt = some (t.now + (s.profOf n).pgTmo * second)) := by
  have hfr := (s.lineFreed l since cs).stepsThree_frame l cs
  have hch := fun hn => State.stepsThree_ch (s := s.lineFreed l since cs) (l := l) (cs := cs) (n := n) hn
  generalize (s.lineFreed l since cs).stepsThree l cs = x at *
  have hend := State.endLines_frame (Frame.refl _ x) (Field.sub_refl _)
  have hline := x.endLines_line l
  rw [ht] at hend hline
  have hctl : t.ctl = x.ctl := hend .ctl (by decide)
  have hnow : t.now = max s.now (since + s.linePulse l) := (hend .now (by decide)).trans (hfr .now (by decide))
  have hlines : vget x.plat.lines l = .waiting cs := by
    rw [hfr .plat (by decide)]
    exact State.modLine_line _ l _
  refine ⟨hnow, ?_, fun hn hs hq => ?_⟩
  · rw [hline, State.lineAt, hlines, State.atStep3_congr hctl]
  · rw [show t.ch n = x.ch n from congrArg (vget · n) hctl, hnow]
    exact hch hn hs hq

/-! ## Ranks (R136) -/

/-- From s to t requests are only added: states stay, and what has been asked for stays asked for. -/
structure RequestsGrow (s t : State) : Prop where
  state : ∀ n, (t.ch n).state = (s.ch n).state
  asked : ∀ n, (s.ch n).relAsked = true → (t.ch n).relAsked = true
  queue : ∀ k ∈ s.plat.queue, k ∈ t.plat.queue
  boundary : t.plat.nextBoundary = s.plat.nextBoundary
  now : t.now = s.now

theorem RequestsGrow.refl (s : State) : RequestsGrow s s := ⟨fun _ => rfl, fun _ h => h, fun _ h => h, rfl, rfl⟩

theorem RequestsGrow.comp {s t u : State} (h : RequestsGrow s t) (h' : RequestsGrow t u) : RequestsGrow s u :=
  ⟨fun n => (h'.state n).trans (h.state n), fun n hn => h'.asked n (h.asked n hn), fun k hk => h'.queue k (h.queue k hk),
    h'.boundary.trans h.boundary, h'.now.trans h.now⟩

theorem State.requestRelease_grows (s : State) (n : Fin 128) : RequestsGrow s (s.requestRelease n) := by
  have hne : ∀ k, k ≠ n → (s.requestRelease n).ch k = s.ch k := by
    intro k hk
    unfold State.requestRelease
    dsimp only
    split
    · exact State.modCtl_ch_ne s n _ hk
    · exact (State.put_plat_ch _ _ k).trans (State.modCtl_ch_ne s n _ hk)
  have hplat : (s.requestRelease n).plat = s.plat ∨ (s.requestRelease n).plat = { s.plat with queue := s.plat.queue ++ [n.1] } := by
    unfold State.requestRelease
    dsimp only
    split
    · exact .inl rfl
    · exact .inr rfl
  refine ⟨fun k => ?_, fun k hk => ?_, fun k hk => ?_, ?_, State.requestRelease_frame (Frame.refl _ s) (Field.sub_refl _) .now (by decide)⟩
  · by_cases h : k = n
    · subst h; rw [State.requestRelease_ch]
    · rw [hne k h]
  · by_cases h : k = n
    · subst h; rw [State.requestRelease_ch]
    · rw [hne k h]; exact hk
  · rcases hplat with h | h <;> rw [h]
    · exact hk
    · exact List.mem_append_left _ hk
  · rcases hplat with h | h <;> rw [h]

/-- The rank whose boundary it is. -/
def State.rankDue (s : State) : Option Nat := s.ranksPresent.find? fun r => s.plat.nextRank ≤ r

/-- The channels whose release is requested at a boundary: the READY ones of its rank, then the late ones. -/
def State.atBoundary (s : State) : List (Fin 128) :=
  ((List.finRange 128).filter fun n =>
    (s.ch n).ranked && (s.ch n).state = .ready && some (s.profOf n).rank = s.rankDue && !s.plat.late.contains n.1) ++
  s.plat.late.filterMap fun k => fin? 128 k

theorem State.mem_atBoundary {s : State} {n : Fin 128} (hr : (s.ch n).ranked = true) (hs : (s.ch n).state = .ready)
    (hd : s.rankDue = some (s.profOf n).rank) : n ∈ s.atBoundary := by
  unfold State.atBoundary
  rw [List.mem_append]
  by_cases hl : n.1 ∈ s.plat.late
  · exact .inr (List.mem_filterMap.mpr ⟨n.1, hl, fin?_val 128 n⟩)
  · exact .inl (List.mem_filter.mpr ⟨List.mem_finRange n, by simp [hr, hs, hd, hl]⟩)

/-- The requests of a boundary. -/
def State.boundaryRequests (s : State) : State :=
  s.forAll s.atBoundary fun n s => if (s.ch n).state = .ready then s.requestRelease n else s

theorem State.boundaryRequests_asked {s : State} {n : Fin 128} (hn : n ∈ s.atBoundary) (hs : (s.ch n).state = .ready) :
    (s.boundaryRequests.ch n).relAsked = true ∧ n.1 ∈ s.boundaryRequests.plat.queue := by
  obtain ⟨u, hu, ht⟩ := State.forAll_turn RequestsGrow.refl (fun _ _ _ => RequestsGrow.comp)
    (f := fun n s => if (s.ch n).state = .ready then State.requestRelease s n else s) (fun k u => by
      split
      · exact u.requestRelease_grows k
      · exact RequestsGrow.refl u) s hn
  rw [if_pos ((hu.state n).trans hs)] at ht
  exact ⟨ht.asked n (by rw [State.requestRelease_ch]), ht.queue n.1 (u.requestRelease_queue n)⟩

theorem State.boundaryRequests_grows (s : State) : RequestsGrow s s.boundaryRequests := by
  unfold State.boundaryRequests State.forAll
  generalize s.atBoundary = l
  induction l generalizing s with
  | nil => exact RequestsGrow.refl s
  | cons k l ih =>
    rw [List.foldl_cons]
    refine RequestsGrow.comp ?_ (ih _)
    dsimp only
    split
    · exact s.requestRelease_grows k
    · exact RequestsGrow.refl s

/-- After the requests of a boundary: the next one, at the time `time`. -/
def State.nextBoundaryAt (s : State) (due : Option Nat) (time : Nat) : State :=
  let s := { s with plat := { s.plat with late := [], nextRank := match due with | some r => r + 1 | none => 128,
                                          nextBoundary := time } }
  { s with plat := { s.plat with ranksActive := s.rankedLeft } }

theorem State.nextBoundaryAt_parts (s : State) (due : Option Nat) (time : Nat) :
    (s.nextBoundaryAt due time).now = s.now ∧ (s.nextBoundaryAt due time).plat.nextBoundary = time ∧
      (∀ n, (s.nextBoundaryAt due time).ch n = s.ch n) ∧ (s.nextBoundaryAt due time).plat.queue = s.plat.queue :=
  ⟨rfl, rfl, fun _ => rfl, rfl⟩

theorem State.boundaryRequests_dcfg (s : State) : s.boundaryRequests.dcfg = s.dcfg :=
  State.forAll_frame (Frame.refl [.ctl, .plat] s) (fun k u => by
    split
    · exact State.requestRelease_frame (Frame.refl _ u) (by decide)
    · exact Frame.refl _ u) .dcfg (by decide)

theorem exec_rankBoundary {s u : State} (hd : s.dev.state = .running) (ha : s.plat.ranksActive = true)
    (hu : (s.until s.plat.nextBoundary).boundaryRequests = u) :
    exec .rankBoundary s =
      .next (u.nextBoundaryAt (s.until s.plat.nextBoundary).rankDue (u.plat.nextBoundary + u.dcfg.spacingMs * msec)) := by
  subst hu
  exact congrArg Host.Outcome.next (if_pos (by simp [hd, ha]))

end Sys2Proof.Machine

namespace Sys2Proof

open Sys2Proof.Machine

/-- Settles O40: a sequence is seen from one of its channels, a boundary from one of those that it asks for. -/
theorem linesRanksAndStatus : Obligations.LinesRanksAndStatus := by
  intro s m n l v src ch
  refine ⟨fun hr hgo hl => ?pulse, fun hr => ?force, fun since cs h => ⟨_, exec_twPulseEnd h, State.pulseEnd_parts rfl⟩,
    fun d hd hq hs hp => ?timeout, fun hd hb => ?begin_, fun hd ha => ?boundary, fun d hd => ?fail, fun bank => ?bank, fun ha hch hon => ?status⟩
  case pulse =>
    have he := exec_twlPulse hr hgo hl
    refine ⟨fun hrole => ?_, fun hrole hd hi => ?_, fun hrole hd hi => ?_⟩
    · rw [he, if_pos hrole]
    · rw [if_neg (by simp [hrole]), if_pos hd] at he
      refine ⟨_, he, ?_, fun hg hgl hon hlive => ?_⟩
      · rw [State.requestPulse_idle hi]
        exact State.lineStep_line (State.modLine_line _ l _)
      · exact State.requestPulse_holds hi (by simp [State.inSequence, hg, hgl, hon, hlive])
    · rw [he, if_neg (by simp [hrole]), if_pos hd, State.requestPulse_merged hi]
  case force =>
    refine ⟨_, congrArg Host.Outcome.next (State.regW_reaches hr), Frame.put_plat (Frame.refl _ s) (by decide), ?_⟩
    have hbit := pack_testBit (fun t : Fin 16 => v.getLsbD t.1 && s.lineRole t = 2) l
    have hget : ∀ x : Half, ((s.plat.force.set m x).get m).getLsbD l.1 = x.getLsbD l.1 := fun _ => by cases m <;> rfl
    refine (hget _).trans ?_
    rw [BitVec.getLsbD_ofNat, hbit, decide_eq_true l.2, Bool.true_and]
  case timeout =>
    have he : exec (.pgoodTimeout n) s = .next ((((s.until d).modCtl n fun c =>
        { c with kind := .manager, cause := .pgoodTimeout, seq := none, pgTmoAt := none }).raise 0x0106 n.1 [l.1]).endLines) := by
      have he' : exec (.pgoodTimeout n) s = .next (match (s.ch n).pgTmoAt, (s.ch n).seq with
        | some d, some (.power t) =>
          if (s.ch n).state = .held && !(s.ch n).pgOk then
            (((s.until d).modCtl n fun c =>
              { c with kind := .manager, cause := .pgoodTimeout, seq := none, pgTmoAt := none }).raise 0x0106 n.1 [t]).endLines
          else s
        | _, _ => s) := rfl
      rw [he', hd, hq]
      exact congrArg Host.Outcome.next (if_pos (by simp [hs, hp]))
    have hnow : ∀ x : State, x.endLines.now = x.now := fun x => State.endLines_frame (Frame.refl _ x) (Field.sub_refl _) .now (by decide)
    refine ⟨_, he, ?_⟩
    rw [hnow, State.endLines_ch, State.raise_ch, State.raise_now, State.modCtl_ch]
    exact ⟨rfl, hs, rfl, rfl, rfl⟩
  case begin_ =>
    refine ⟨_, congrArg Host.Outcome.next (if_pos (by simp [hd, hb])), ?_⟩
    split <;> exact ⟨rfl, rfl, rfl, rfl⟩
  case boundary =>
    have hask := fun hn => State.boundaryRequests_asked (s := s.until s.plat.nextBoundary) (n := n) hn
    have hdc := (s.until s.plat.nextBoundary).boundaryRequests_dcfg
    obtain ⟨-, -, -, hbound, hnow⟩ := (s.until s.plat.nextBoundary).boundaryRequests_grows
    have he := fun u hu => exec_rankBoundary (u := u) hd ha hu
    generalize (s.until s.plat.nextBoundary).boundaryRequests = u at *
    obtain ⟨hn, hb, hch, hq⟩ := u.nextBoundaryAt_parts (s.until s.plat.nextBoundary).rankDue (u.plat.nextBoundary + u.dcfg.spacingMs * msec)
    refine ⟨_, he u rfl, ?_⟩
    rw [hn, hb, hch, hq, hnow, hbound, hdc]
    exact ⟨rfl, rfl, fun hr hs hdue => hask (State.mem_atBoundary hr hs hdue) hs⟩
  case fail =>
    have he : exec .failPulseEnd s = .next (match s.plat.failUntil with
      | some t => { s.until t with plat := { s.plat with failOn := false, failUntil := none } }
      | none => s) := rfl
    rw [hd] at he
    exact ⟨_, he, rfl, rfl, rfl⟩
  case bank =>
    by_cases hd : s.dev.state = .por
    · refine ⟨_, congrArg Host.Outcome.next (if_pos hd), fun _ hn => ?_, fun h => absurd hd h⟩
      obtain ⟨u, -, ht⟩ := State.forChans_turn (R := fun s t => t.ch n = s.ch n)
        (f := fun n s => if n.1 / 16 = bank.1 then s.modCtl n fun c => { c with sink := true } else s) (fun _ => rfl)
        (fun _ _ _ h h' => h'.trans h) s n fun k hk u => by
          split
          · exact State.modCtl_ch_ne u k _ (Ne.symm hk)
          · rfl
      rw [if_pos hn, State.modCtl_ch] at ht
      rw [ht]
    · exact ⟨s, congrArg Host.Outcome.next (if_neg hd), fun h => absurd h hd, fun _ => rfl⟩
  case status =>
    have hled : ∀ a, (s.deliver src a).led = s.led := fun a => State.deliver_frame (Frame.refl _ s) (Field.sub_refl _) .led (by decide)
    have he : exec (.chStatus src ch) s = .next (s.ovdel src (gateOf (.chStatus src ch)) fun s =>
      s.withChan src ch fun n s => s.deliver src (okAns (s.chStatus n))) := rfl
    rw [he, State.ovdel, State.ovdelOr_takes _ _ (ha src (gateOf (.chStatus src ch)) rfl), State.withChan_on _ hch hon, State.noteCommit, if_pos (by rw [hled]) ]
    rfl

end Sys2Proof

end


section
/-! SUPPORT. Expiries of the channel watchdogs (R156 to R158): what the actions leave of a watchdog. -/

namespace Sys2Proof.Machine

open Sys2Proof

section

variable {k : Field} {R : State → State → Prop} (hR : Respects k R) {s₀ s : State}

include hR

theorem State.modLine_keeps {t1 : Fin 16} {x : TwStep} (hf : k ∉ [.plat]) (h : R s₀ s) : R s₀ (State.modLine s t1 x) :=
  hR.step h (State.modLine_frame (Frame.refl _ _) (Field.sub_refl _)) hf

theorem State.lineStep_keeps {t1 : Fin 16} (hf : k ∉ [.plat]) (h : R s₀ s) : R s₀ (State.lineStep s t1) :=
  hR.step h (State.lineStep_frame (Frame.refl _ _) (Field.sub_refl _)) hf

theorem State.rejectProof_keeps {n : Fin 128} (hf : k ∉ [.plt, .trace, .rings, .led]) (h : R s₀ s) : R s₀ (State.rejectProof s n) :=
  hR.step h (State.rejectProof_frame (Frame.refl _ _) (Field.sub_refl _)) hf

theorem State.wakeLink_keeps {m : Mgr} (hf : k ∉ [.views]) (h : R s₀ s) : R s₀ (State.wakeLink s m) :=
  hR.step h (State.wakeLink_frame (Frame.refl _ _) (Field.sub_refl _)) hf

theorem State.wake_keeps (hf : k ∉ [.prof, .dcfg, .trace, .rings, .dev]) (h : R s₀ s) : R s₀ (State.wake s) :=
  hR.step h (State.wake_frame (Frame.refl _ _) (Field.sub_refl _)) hf

end

/-! ## What an action leaves of a watchdog -/

/-- From w to x the record, the step and the fault shown stay, and a watchdog that does not count does not come to count. -/
abbrev Wdg.Quiet (w x : Wdg) : Prop :=
  x.shown = w.shown ∧ x.step = w.step ∧ x.clkFault = w.clkFault ∧ (x.counting = true → w.counting = true)

/-- From s to t no watchdog shows another record, step or fault, and none comes to count. -/
def WdgQuiet (s t : State) : Prop := ∀ n, (s.wd n).Quiet (t.wd n)

theorem WdgQuiet.refl (s : State) : WdgQuiet s s := fun _ => ⟨rfl, rfl, rfl, id⟩

theorem WdgQuiet.comp {s t u : State} (h : WdgQuiet s t) (h' : WdgQuiet t u) : WdgQuiet s u := fun n => by
  obtain ⟨h1, h2, h3, h4⟩ := h n
  obtain ⟨h1', h2', h3', h4'⟩ := h' n
  exact ⟨h1'.trans h1, h2'.trans h2, h3'.trans h3, fun hc => h4 (h4' hc)⟩

theorem WdgQuiet.of_frame {fs : List Field} {s t : State} (h : Frame fs s t) (hf : Field.wdg ∉ fs) : WdgQuiet s t := fun n => by
  have e : t.wd n = s.wd n := congrArg (vget · n) (h .wdg hf)
  rw [e]
  exact ⟨rfl, rfl, rfl, id⟩

theorem WdgQuiet.respects : Respects .wdg WdgQuiet := ⟨WdgQuiet.refl, WdgQuiet.comp, WdgQuiet.of_frame⟩

theorem State.modWdg_quiet {s₀ s : State} {n : Fin 128} {f : Wdg → Wdg} (h : WdgQuiet s₀ s) (hf : ∀ w : Wdg, w.Quiet (f w)) :
    WdgQuiet s₀ (s.modWdg n f) := by
  refine h.comp fun k => ?_
  by_cases hk : k = n
  · subst hk; rw [State.modWdg_wd]; exact hf _
  · rw [State.modWdg_wd_ne _ _ _ hk]; exact ⟨rfl, rfl, rfl, id⟩

theorem State.wdgStop_quiet {s₀ s : State} {n : Fin 128} (h : WdgQuiet s₀ s) : WdgQuiet s₀ (s.wdgStop n) :=
  State.modWdg_quiet h fun _ => ⟨rfl, rfl, rfl, fun hc => absurd hc Bool.false_ne_true⟩

theorem State.stopHost_quiet {s₀ s : State} {n : Fin 128} (h : WdgQuiet s₀ s) :
    WdgQuiet s₀ (State.stopHost s n) := by
  refine WdgQuiet.comp h ?_
  clear h
  unfold State.stopHost
  dsimp -failIfUnchanged -proj only
  repeat' (with_reducible first
    | assumption | apply WdgQuiet.refl | apply State.wdgStop_quiet | apply State.modStn_keeps WdgQuiet.respects (by decide)
    | apply State.modPort_keeps WdgQuiet.respects (by decide) | apply State.modCtl_keeps WdgQuiet.respects (by decide) | intro _ | split
    | (refine WdgQuiet.comp ?_ (WdgQuiet.of_frame (Frame.put_plat (fs := [.plat]) (Frame.refl _ _) (by decide)) (by decide))))

theorem State.hold_quiet {s₀ s : State} {n : Fin 128} {kind : HoldKind} {cause : Cause} {seq : Option SeqKind} (h : WdgQuiet s₀ s) :
    WdgQuiet s₀ (State.hold s n kind cause seq) := by
  refine WdgQuiet.comp h ?_
  clear h
  unfold State.hold
  dsimp -failIfUnchanged -proj only
  repeat' (with_reducible first
    | assumption | apply WdgQuiet.refl | apply State.stopHost_quiet | apply State.answerAll_keeps WdgQuiet.respects (by decide)
    | apply State.transition_keeps WdgQuiet.respects (by decide) | apply State.modCtl_keeps WdgQuiet.respects (by decide) | intro _
    | split)

theorem State.restartSeq_quiet {s₀ s : State} {n : Fin 128} {cause : Cause} (h : WdgQuiet s₀ s) :
    WdgQuiet s₀ (State.restartSeq s n cause) := by
  refine WdgQuiet.comp h ?_
  clear h
  unfold State.restartSeq
  dsimp -failIfUnchanged -proj only
  repeat' (with_reducible first
    | assumption | apply WdgQuiet.refl | apply State.hold_quiet | intro _ | split)

theorem State.enterSafe_quiet {s₀ s : State} {n : Fin 128} (h : WdgQuiet s₀ s) :
    WdgQuiet s₀ (State.enterSafe s n) := by
  refine WdgQuiet.comp h ?_
  clear h
  unfold State.enterSafe
  dsimp -failIfUnchanged -proj only
  repeat' (with_reducible first
    | assumption | apply WdgQuiet.refl | apply State.answerAll_keeps WdgQuiet.respects (by decide) | apply State.stopHost_quiet
    | apply State.transition_keeps WdgQuiet.respects (by decide) | intro _ | split)

theorem State.enterRecoveryState_quiet {s₀ s : State} {n : Fin 128} (h : WdgQuiet s₀ s) :
    WdgQuiet s₀ (State.enterRecoveryState s n) := by
  refine WdgQuiet.comp h ?_
  clear h
  unfold State.enterRecoveryState
  dsimp -failIfUnchanged -proj only
  repeat' (with_reducible first
    | assumption | apply WdgQuiet.refl | apply State.modMbx_keeps WdgQuiet.respects (by decide)
    | apply State.unbind_keeps WdgQuiet.respects (by decide) | apply State.transition_keeps WdgQuiet.respects (by decide)
    | apply State.raise_keeps WdgQuiet.respects (by decide)
    | (apply State.modWdg_quiet; rotate_left; (intro w; exact ⟨rfl, rfl, rfl, id⟩))
    | apply State.answerAll_keeps WdgQuiet.respects (by decide) | apply State.modCtl_keeps WdgQuiet.respects (by decide) | intro _
    | split)

theorem State.selEnd_quiet {s₀ s : State} {n : Fin 128} {w : SelWait} {t3 : PTable} {tie : Bool} {run : Option (PlateId × Fin 256)} {attempt : Bool} (h : WdgQuiet s₀ s) :
    WdgQuiet s₀ (State.selEnd s n w t3 tie run attempt) := by
  refine WdgQuiet.comp h ?_
  clear h
  unfold State.selEnd
  dsimp -failIfUnchanged -proj only
  repeat' (with_reducible first
    | assumption | apply WdgQuiet.refl | apply State.enterRecoveryState_quiet | apply State.bind_keeps WdgQuiet.respects (by decide)
    | apply State.answerAll_keeps WdgQuiet.respects (by decide) | apply State.commitPlates_keeps WdgQuiet.respects (by decide)
    | apply State.beginAttempt_keeps WdgQuiet.respects (by decide) | apply State.unbind_keeps WdgQuiet.respects (by decide)
    | apply State.modCtl_keeps WdgQuiet.respects (by decide) | apply State.raise_keeps WdgQuiet.respects (by decide) | intro _ | split)

theorem State.selectFrom_quiet {n : Fin 128} {s₀ : State} {x : Nat} {w : SelWait} {u : State} (h : WdgQuiet s₀ u) :
    WdgQuiet s₀ (State.selectFrom n x w u) := by
  induction x generalizing s₀ w u with
  | zero => exact h
  | succ k ih =>
    refine WdgQuiet.comp h ?_
    clear h
    unfold State.selectFrom
    dsimp -failIfUnchanged -proj only
    repeat' (with_reducible first
      | assumption
      | apply WdgQuiet.refl
      | apply ih
      | apply State.selNote_keeps WdgQuiet.respects (by decide)
      | apply State.checkPlate_keeps WdgQuiet.respects (by decide)
      | apply State.modCtl_keeps WdgQuiet.respects (by decide)
      | apply State.selEnd_quiet
      | intro _
      | split)

theorem State.select_quiet {s₀ s : State} {n : Fin 128} (h : WdgQuiet s₀ s) :
    WdgQuiet s₀ (State.select s n) := by
  refine WdgQuiet.comp h ?_
  clear h
  unfold State.select
  dsimp -failIfUnchanged -proj only
  repeat' (with_reducible first
    | assumption | apply WdgQuiet.refl | apply State.completeAdvances_keeps WdgQuiet.respects (by decide) | apply State.selectFrom_quiet
    | apply State.modCtl_keeps WdgQuiet.respects (by decide) | intro _ | split)

theorem State.startTaking_quiet {s₀ s : State} {n : Fin 128} {cause : Cause} {asked : Bool} (h : WdgQuiet s₀ s) :
    WdgQuiet s₀ (State.startTaking s n cause asked) := by
  refine WdgQuiet.comp h ?_
  clear h
  unfold State.startTaking
  dsimp -failIfUnchanged -proj only
  repeat' (with_reducible first
    | assumption | apply WdgQuiet.refl | apply State.select_quiet | apply State.unbind_keeps WdgQuiet.respects (by decide)
    | apply State.transition_keeps WdgQuiet.respects (by decide) | apply State.stayHeld_keeps WdgQuiet.respects (by decide)
    | apply State.modCtl_keeps WdgQuiet.respects (by decide) | intro _ | split)

theorem State.powerStep3_quiet {s₀ s : State} {n : Fin 128} (h : WdgQuiet s₀ s) :
    WdgQuiet s₀ (State.powerStep3 s n) := by
  refine WdgQuiet.comp h ?_
  clear h
  unfold State.powerStep3
  dsimp -failIfUnchanged -proj only
  repeat' (with_reducible first
    | assumption | apply WdgQuiet.refl | apply State.startTaking_quiet | apply State.modCtl_keeps WdgQuiet.respects (by decide) | intro _
    | split)

theorem State.requestPulse_quiet {s₀ s : State} {t1 : Fin 16} {own : Option (Fin 128)} (h : WdgQuiet s₀ s) :
    WdgQuiet s₀ (State.requestPulse s t1 own) := by
  refine WdgQuiet.comp h ?_
  clear h
  unfold State.requestPulse
  dsimp -failIfUnchanged -proj only
  repeat' (with_reducible first
    | assumption | apply WdgQuiet.refl | apply State.hold_quiet | apply State.forAll_keeps WdgQuiet.respects
    | apply State.modLine_keeps WdgQuiet.respects (by decide) | apply State.lineStep_keeps WdgQuiet.respects (by decide)
    | apply State.powerStep3_quiet | intro _ | split
    | (refine WdgQuiet.comp ?_ (WdgQuiet.of_frame (Frame.put_plat (fs := [.plat]) (Frame.refl _ _) (by decide)) (by decide))))

theorem State.powerCycle_quiet {s₀ s : State} {n : Fin 128} (h : WdgQuiet s₀ s) :
    WdgQuiet s₀ (State.powerCycle s n) := by
  refine WdgQuiet.comp h ?_
  clear h
  unfold State.powerCycle
  dsimp -failIfUnchanged -proj only
  repeat' (with_reducible first
    | assumption | apply WdgQuiet.refl | apply State.restartSeq_quiet | apply State.requestPulse_quiet | intro _ | split)

theorem State.revert_quiet {s₀ s : State} {n : Fin 128} {why : Nat} (h : WdgQuiet s₀ s) :
    WdgQuiet s₀ (State.revert s n why) := by
  refine WdgQuiet.comp h ?_
  clear h
  unfold State.revert
  dsimp -failIfUnchanged -proj only
  repeat' (with_reducible first
    | assumption | apply WdgQuiet.refl | apply State.modPlt_keeps WdgQuiet.respects (by decide) | apply State.select_quiet
    | apply State.hold_quiet | apply State.startTaking_quiet | apply State.endArming_keeps WdgQuiet.respects (by decide)
    | apply State.raise_keeps WdgQuiet.respects (by decide) | apply State.rejectProof_keeps WdgQuiet.respects (by decide)
    | apply State.modCtl_keeps WdgQuiet.respects (by decide) | intro _ | split)

theorem State.proofFails_quiet {s₀ s : State} {n : Fin 128} {why : Nat} (h : WdgQuiet s₀ s) :
    WdgQuiet s₀ (State.proofFails s n why) := by
  refine WdgQuiet.comp h ?_
  clear h
  unfold State.proofFails
  dsimp -failIfUnchanged -proj only
  repeat' (with_reducible first
    | assumption | apply WdgQuiet.refl | apply State.modPlt_keeps WdgQuiet.respects (by decide) | apply State.hold_quiet
    | apply State.revert_quiet | intro _ | split)

theorem State.takeAction_quiet {s₀ s : State} {n : Fin 128} {a : WdgAct} (h : WdgQuiet s₀ s) :
    WdgQuiet s₀ (State.takeAction s n a) := by
  refine WdgQuiet.comp h ?_
  clear h
  unfold State.takeAction
  dsimp -failIfUnchanged -proj only
  repeat' (with_reducible first
    | assumption | apply WdgQuiet.refl | apply State.restartSeq_quiet | apply State.enterSafe_quiet | apply State.powerCycle_quiet
    | apply State.proofFails_quiet | intro _ | split)

theorem State.takeKept_quiet {s₀ s : State} {n : Fin 128} {cause : Cause} (h : WdgQuiet s₀ s) :
    WdgQuiet s₀ (State.takeKept s n cause) := by
  refine WdgQuiet.comp h ?_
  clear h
  unfold State.takeKept
  dsimp -failIfUnchanged -proj only
  repeat' (with_reducible first
    | assumption | apply WdgQuiet.refl | apply State.startTaking_quiet | apply State.transition_keeps WdgQuiet.respects (by decide)
    | apply State.modCtl_keeps WdgQuiet.respects (by decide) | intro _ | split)

theorem State.resumeHeld_quiet {s₀ s : State} {n : Fin 128} (h : WdgQuiet s₀ s) :
    WdgQuiet s₀ (State.resumeHeld s n) := by
  refine WdgQuiet.comp h ?_
  clear h
  unfold State.resumeHeld
  dsimp -failIfUnchanged -proj only
  repeat' (with_reducible first
    | assumption | apply WdgQuiet.refl | apply State.startTaking_quiet | apply State.takeKept_quiet | intro _ | split)

theorem State.resumeStandby_quiet {s₀ s : State} (h : WdgQuiet s₀ s) :
    WdgQuiet s₀ (State.resumeStandby s) := by
  refine WdgQuiet.comp h ?_
  clear h
  unfold State.resumeStandby
  dsimp -failIfUnchanged -proj only
  repeat' (with_reducible first
    | assumption | apply WdgQuiet.refl | apply State.forChans_keeps WdgQuiet.respects | apply State.resumeHeld_quiet
    | apply State.startTaking_quiet | apply State.modCtl_keeps WdgQuiet.respects (by decide) | intro _ | split
    | (refine WdgQuiet.comp ?_ (WdgQuiet.of_frame (Frame.put_plat (fs := [.plat]) (Frame.refl _ _) (by decide)) (by decide))))

theorem State.wakeUp_quiet {s₀ s : State} (h : WdgQuiet s₀ s) :
    WdgQuiet s₀ (State.wakeUp s) := by
  refine WdgQuiet.comp h ?_
  clear h
  unfold State.wakeUp
  dsimp -failIfUnchanged -proj only
  repeat' (with_reducible first
    | assumption | apply WdgQuiet.refl | apply State.wakeLink_keeps WdgQuiet.respects (by decide) | apply State.resumeStandby_quiet
    | apply State.wake_keeps WdgQuiet.respects (by decide) | intro _ | split)

end Sys2Proof.Machine

end


section
/-! SUPPORT. An expiry of a channel watchdog, seen from its channel (R156 to R158), and arming by a write (R154). -/

namespace Sys2Proof.Machine

open Sys2Proof

/-! ## The record of an expiry -/

theorem State.putWdgRec_wd (s : State) (n : Fin 128) (r : WdgRec) :
    ((s.putWdgRec n r).wd n).shown = r ∧ ∀ k, k ≠ n → (s.putWdgRec n r).wd k = s.wd k := by
  unfold State.putWdgRec
  dsimp only
  split
  · exact ⟨congrArg Wdg.shown (State.modWdg_wd s n _), fun k hk => State.modWdg_wd_ne s n _ hk⟩
  · exact ⟨congrArg Wdg.shown (State.modWdg_wd s n _), fun k hk => State.modWdg_wd_ne s n _ hk⟩

/-- The watchdog of the channel that expires: recorded, stopped, its step shown (R156, R158). -/
theorem State.noteExpiry_wd (s : State) (n : Fin 128) (cause : ExpCause) :
    ((s.noteExpiry n cause).wd n).shown = s.expiryRec n cause ∧
      ((s.noteExpiry n cause).wd n).step = BitVec.ofNat 3 (s.expiryAct n cause).code ∧ ((s.noteExpiry n cause).wd n).counting = false := by
  have hput := (s.putWdgRec_wd n (s.expiryRec n cause)).1
  unfold State.noteExpiry
  dsimp only
  rw [State.log_wd, State.raise_wd]
  simp only [State.wdgStop, State.modWdg_wd]
  split <;> exact ⟨hput, trivial, trivial⟩

/-- The watchdog of another channel. -/
theorem State.noteExpiry_wd_ne (s : State) {n k : Fin 128} (cause : ExpCause) (hk : k ≠ n) : (s.noteExpiry n cause).wd k = s.wd k := by
  have hput := (s.putWdgRec_wd n (s.expiryRec n cause)).2 k hk
  unfold State.noteExpiry
  dsimp only
  rw [State.log_wd, State.raise_wd]
  simp only [State.wdgStop, State.modWdg_wd_ne _ _ _ hk]
  split <;> exact hput

theorem State.forAll_mem_keeps {α : Type} {R : State → State → Prop} (hrefl : ∀ s, R s s) (hcomp : ∀ s t u, R s t → R t u → R s u)
    {f : α → State → State} {l : List α} (hf : ∀ x ∈ l, ∀ s, R s (f x s)) (s : State) : R s (s.forAll l f) := by
  unfold State.forAll
  induction l generalizing s with
  | nil => exact hrefl s
  | cons x l ih => exact hcomp _ _ _ (hf x List.mem_cons_self s) (ih (fun y hy => hf y (List.mem_cons_of_mem _ hy)) _)

theorem State.takeAction_wdg (s : State) (n : Fin 128) (a : WdgAct) : WdgQuiet s (s.takeAction n a) := State.takeAction_quiet (WdgQuiet.refl s)

theorem State.takeActions_wdg (s : State) (l : List (Fin 128 × WdgAct)) : WdgQuiet s (s.forAll l fun x s => s.takeAction x.1 x.2) :=
  State.forAll_mem_keeps WdgQuiet.refl (fun _ _ _ => WdgQuiet.comp) (fun x _ u => u.takeAction_wdg x.1 x.2) s

/-- The channels of the same line whose windows close on this edge too, with their actions (R157). -/
def State.expiringWith (s : State) (n : Fin 128) (cause : ExpCause) : List (Fin 128 × WdgAct) :=
  if (s.expiryAct n cause).cycles then (s.coExpiring n).map fun k => (k, s.expiryAct k .close) else []

theorem State.mem_expiringWith_ne {s : State} {n : Fin 128} {cause : ExpCause} {x : Fin 128 × WdgAct} (h : x ∈ s.expiringWith n cause) : n ≠ x.1 := by
  unfold State.expiringWith at h
  split at h
  · obtain ⟨k, hk, rfl⟩ := List.mem_map.mp h
    unfold State.coExpiring at hk
    have hk' := (List.mem_filter.mp hk).2
    simp only [Bool.and_eq_true, decide_eq_true_eq] at hk'
    obtain ⟨⟨⟨⟨⟨⟨⟨hne, -⟩, -⟩, -⟩, -⟩, -⟩, -⟩, -⟩ := hk'
    exact Ne.symm hne
  · cases h

/-- The watchdog of the channel that expires, once every action is taken. -/
theorem State.expire_wd (s : State) (n : Fin 128) (cause : ExpCause) :
    ((s.expire n cause).wd n).shown = s.expiryRec n cause ∧
      ((s.expire n cause).wd n).step = BitVec.ofNat 3 (s.expiryAct n cause).code ∧ ((s.expire n cause).wd n).counting = false := by
  obtain ⟨hshown, hstep, hcount⟩ := s.noteExpiry_wd n cause
  have hothers : ((s.noteExpiry n cause).forAll (s.expiringWith n cause) fun x s => s.noteExpiry x.1 .close).wd n = (s.noteExpiry n cause).wd n :=
    State.forAll_mem_keeps (R := fun s t => t.wd n = s.wd n) (fun _ => rfl) (fun _ _ _ h h' => h'.trans h)
      (fun x hx u => u.noteExpiry_wd_ne .close (State.mem_expiringWith_ne hx)) _
  have hacts : WdgQuiet ((s.noteExpiry n cause).forAll (s.expiringWith n cause) fun x s => s.noteExpiry x.1 .close) (s.expire n cause) :=
    ((State.takeActions_wdg _ ((s.expiringWith n cause).filter fun x => !x.2.cycles)).comp (State.takeAction_wdg _ n (s.expiryAct n cause))).comp
      (State.takeActions_wdg _ ((s.expiringWith n cause).filter fun x => x.2.cycles))
  obtain ⟨h1, h2, -, h4⟩ := hacts n
  rw [hothers] at h1 h2 h4
  rw [h1, h2]
  refine ⟨hshown, hstep, Bool.eq_false_iff.mpr fun hc => ?_⟩
  rw [h4 hc] at hcount
  cases hcount

/-- An action that does not ask for the line is taken alone. -/
theorem State.expire_alone {s : State} {n : Fin 128} {cause : ExpCause} (h : (s.expiryAct n cause).cycles = false) :
    s.expire n cause = (s.noteExpiry n cause).takeAction n (s.expiryAct n cause) := by
  have hnone : s.expiringWith n cause = [] := if_neg (by simp [h])
  have he : s.expire n cause = State.forAll (((State.forAll (State.forAll (s.noteExpiry n cause) (s.expiringWith n cause) fun x s => s.noteExpiry x.1 .close)
      ((s.expiringWith n cause).filter fun x => !x.2.cycles) fun x s => s.takeAction x.1 x.2)).takeAction n (s.expiryAct n cause))
      ((s.expiringWith n cause).filter fun x => x.2.cycles) fun x s => s.takeAction x.1 x.2 := rfl
  rw [he, hnone]
  rfl

/-- SAFE is entered at once. -/
theorem State.enterSafe_state (s : State) (n : Fin 128) : ((s.enterSafe n).ch n).state = .safe := by
  unfold State.enterSafe
  exact congrArg Ctl.state (State.transition_ch _ n .safe .safe)

/-- An expiry, as R156 and R158 have it: the record, and the action with its step. -/
theorem State.expire_parts (s : State) (n : Fin 128) (cause : ExpCause) :
    ((s.expire n cause).wd n).counting = false ∧ ((s.expire n cause).wd n).shown = s.expiryRec n cause ∧
      (if s.onProof n = true ∧ s.acceptWaits n = false then ((s.expire n cause).wd n).step = 4
        else if (s.wd n).ladder = false then ((s.expire n cause).wd n).step = 5
        else if (s.polOf n).wdg.safeN.toNat ≤ (s.expiryRec n cause).consec.toNat then
          ((s.expire n cause).wd n).step = 3 ∧ ((s.expire n cause).ch n).state = .safe
        else if (s.expiryRec n cause).consec.toNat ≤ (s.polOf n).wdg.restarts.toNat then
          ((s.expire n cause).wd n).step = 1 ∧ ((s.expire n cause).ch n).state = .held ∧ ((s.expire n cause).ch n).kind = .sequence ∧
            ((s.expire n cause).ch n).seq = some .restart
        else ((s.expire n cause).wd n).step = 2) := by
  obtain ⟨hshown, hstep, hcount⟩ := s.expire_wd n cause
  refine ⟨hcount, hshown, ?_⟩
  have hact : s.expiryAct n cause = s.wdgAction n (s.expiryRec n cause).consec.toNat := rfl
  unfold State.wdgAction at hact
  dsimp only at hact
  split
  · rename_i h
    rw [if_pos (by simp [h])] at hact
    rw [hstep, hact]
    rfl
  · rename_i h
    rw [if_neg (by simpa using h)] at hact
    split
    · rename_i hl
      rw [if_pos (by simp [hl])] at hact
      rw [hstep, hact]
      rfl
    · rename_i hl
      rw [if_neg (by simpa using hl)] at hact
      split
      · rename_i hs
        rw [if_pos hs] at hact
        refine ⟨by rw [hstep, hact]; rfl, ?_⟩
        rw [State.expire_alone (by rw [hact]; rfl), hact]
        exact State.enterSafe_state _ n
      · rename_i hs
        rw [if_neg hs] at hact
        split
        · rename_i hr
          rw [if_pos hr] at hact
          refine ⟨by rw [hstep, hact]; rfl, ?_⟩
          rw [State.expire_alone (by rw [hact]; rfl), hact]
          have hh := State.hold_ch (s.noteExpiry n cause) n .sequence .restart (some .restart)
          exact ⟨hh.state, hh.kind, hh.seq⟩
        · rename_i hr
          rw [if_neg hr] at hact
          rw [hstep, hact]
          rfl

/-! ## Arming by a write (R154) -/

theorem State.arm_wd (s : State) (n : Fin 128) (b : Bool) :
    (s.arm n b).wd n = { s.wd n with armed := true, seq := 1, base := 0, chal := Config.challenge s.drawn } := by
  have hpub : ((s.modWdg n fun w => { w with armed := true, seq := 0, base := 0 }).publish n).wd n =
      { s.wd n with armed := true, seq := 1, base := 0, chal := Config.challenge s.drawn } := by
    rw [State.publish_wd, State.modWdg_wd]
    rfl
  unfold State.arm
  dsimp only
  split
  · rw [State.raise_wd, hpub]
  · rw [State.extend_wd, State.raise_wd, hpub]

theorem State.arm_ch (s : State) (n : Fin 128) (b : Bool) (k : Fin 128) : (s.arm n b).ch k = s.ch k :=
  congrArg (vget · k) (State.arm_frame (Frame.refl _ s) (Field.sub_refl _) .ctl (by decide))

theorem State.armByWrite_wd (s : State) (n : Fin 128) :
    ((s.armByWrite n).wd n).armed = true ∧ ((s.armByWrite n).wd n).seq = 1 ∧ ((s.armByWrite n).wd n).chal = Config.challenge s.drawn ∧
      ((s.armByWrite n).wd n).prescale = (s.wd n).prescale ∧ ((s.ch n).released = true → ((s.armByWrite n).wd n).counting = true) := by
  unfold State.armByWrite
  dsimp only
  rw [State.arm_ch]
  split
  · rw [State.newWindow, State.modWdg_wd, State.arm_wd]
    exact ⟨rfl, rfl, rfl, rfl, fun _ => rfl⟩
  · rename_i h
    rw [State.arm_wd]
    exact ⟨rfl, rfl, rfl, rfl, fun h' => absurd h' h⟩

/-! ## The clock-stop fault in STANDBY (R146, R166) -/

theorem State.setDev_state (s : State) (d : DevState) : (s.setDev d).dev.state = d := by
  unfold State.setDev
  split
  · rename_i h
    exact h
  · dsimp only
    rw [State.log_dev, State.raise_dev]

theorem State.resumeStandby_completes {k : Field} {R : State → State → Prop} (hA : Completes k R) (s : State) : R s s.resumeStandby := by
  unfold State.resumeStandby
  dsimp only
  refine hA.comp (State.forChans_keeps hA.toRespects (g := fun n s => State.resumeHeld s n) (hA.refl s)
    fun n u => State.resumeHeld_completes hA (hA.refl u)) ?_
  split
  · exact hA.refl _
  · refine hA.comp (hA.of_frame (Frame.put_plat (fs := [.plat]) (Frame.refl _ _) (by decide)) (hA.off (by decide)))
      (State.forChans_keeps hA.toRespects (hA.refl _) fun n u => ?_)
    split
    · exact State.modCtl_keeps hA.toRespects (hA.off (by decide)) (State.startTaking_completes hA (hA.refl u))
    · exact hA.refl u

/-- A wake leaves STANDBY. -/
theorem State.wakeUp_awake (s : State) : s.wakeUp.dev.state ≠ .standby := by
  have hlink : ∀ (u : State) m, (u.wakeLink m).dev = u.dev := fun u m => State.wakeLink_frame (Frame.refl _ u) (Field.sub_refl _) .dev (by decide)
  have hwake : s.wake.dev.state = .running := s.setDev_state .running
  unfold State.wakeUp
  split
  · rw [(State.resumeStandby_completes DevKept.completes _).state, hlink, hlink, hwake]
    exact DevState.noConfusion
  · assumption

theorem State.wakeUp_quiet_self (s : State) : WdgQuiet s s.wakeUp := State.wakeUp_quiet (WdgQuiet.refl s)

/-- The fault of a stopped clock, shown and raised (R146). -/
def State.clockFault (s : State) (n : Fin 128) : State := (s.modWdg n fun w => { w with clkFault := true }).raise 0x0205 n.1 [bval (s.wd n).clksel]

theorem exec_wdgClockStop {s : State} {n : Fin 128} : exec (.wdgClockStop n) s = .next (
    if !(s.wd n).armed || s.dev.clockHeld || (s.wd n).frozen.isSome then s
    else if (s.wd n).counting then s.expire n .clockLost
    else if (s.wd n).clkFault then s
    else (s.clockFault n).wakeUp) := rfl

/-- A stopped clock of a watchdog that does not count is shown as a fault, and wakes the device (R146, R166). -/
theorem State.clockFault_parts (s : State) (n : Fin 128) :
    ((s.clockFault n).wakeUp.wd n).clkFault = true ∧ ((s.clockFault n).wakeUp.wd n).shown = (s.wd n).shown ∧
      (s.clockFault n).wakeUp.dev.state ≠ .standby ∧
      (s.dev.state ≠ .standby → (s.clockFault n).wakeUp.wd n = { s.wd n with clkFault := true } ∧ (s.clockFault n).wakeUp.ctl = s.ctl) := by
  have hwd : (s.clockFault n).wd n = { s.wd n with clkFault := true } := by
    unfold State.clockFault
    rw [State.raise_wd, State.modWdg_wd]
  have hfr : Frame [.wdg, .rings] s (s.clockFault n) :=
    State.raise_frame (State.modWdg_frame (Frame.refl _ s) (by decide)) (by decide)
  obtain ⟨hshown, -, hfault, -⟩ := (s.clockFault n).wakeUp_quiet_self n
  refine ⟨by rw [hfault, hwd], by rw [hshown, hwd], State.wakeUp_awake _, fun hd => ?_⟩
  have hdev : (s.clockFault n).dev = s.dev := hfr .dev (by decide)
  have hsame : (s.clockFault n).wakeUp = s.clockFault n := if_neg (by rw [hdev]; exact hd)
  rw [hsame]
  exact ⟨hwd, hfr .ctl (by decide)⟩

end Sys2Proof.Machine

namespace Sys2Proof

open Sys2Proof.Machine

/-- A close and a clock stop of a counting watchdog are expiries. -/
theorem exec_expiry {s u : State} {n : Fin 128} {c : Instr} {cause : ExpCause}
    (hc : c = .wdgClose n ∧ cause = ExpCause.close ∧ u = s.until (s.wdgDue (s.wd n)) ∨ c = .wdgClockStop n ∧ cause = ExpCause.clockLost ∧ u = s)
    (ha : (s.wd n).armed = true) (hn : (s.wd n).counting = true) (hf : (s.wd n).frozen = none) (hk : s.dev.clockHeld = false) :
    exec c s = .next (u.expire n cause) := by
  rcases hc with ⟨rfl, rfl, rfl⟩ | ⟨rfl, rfl, rfl⟩
  · exact congrArg Host.Outcome.next (if_pos (by simp [State.watching, ha, hn, hf, hk]))
  · rw [exec_wdgClockStop, if_neg (by simp [ha, hf, hk]), if_pos hn]

theorem exec_wdgCfgWrite {s : State} {m : Mgr} {n : Fin 128} {v : Word} (hr : s.reaches m (chanPage n 2 + 0x040)) :
    exec (.wdgCfgWrite m n v) s = .next (
      if (s.wd n).auto || (s.wd n).armed || (v.getLsbD 0 && s.armRefused n ((s.wd n).withCfg v)) then s.ignoredWrite m (chanPage n 2 + 0x040)
      else if v.getLsbD 0 then (s.modWdg n fun _ => (s.wd n).withCfg v).armByWrite n else s.modWdg n fun _ => (s.wd n).withCfg v) :=
  congrArg Host.Outcome.next (State.regW_reaches hr)

/-- Settles O41: an expiry is recorded at its channel and takes one action; the other rows change the watchdog's own fields. -/
theorem channelWatchdogExpiresFreezesAndThaws : Obligations.ChannelWatchdogExpiresFreezesAndThaws := by
  intro s m n v
  refine ⟨fun c cause u hc ha hn hf hk => ?expiry, fun hk h => ?nothing, fun hk ha hf hn hc => ?fault, fun hr => ⟨fun h => ?locked,
    fun h1 h2 h3 => ?stored, fun h1 h2 h3 h4 => ?armed⟩, fun hr => ?window, fun hr => ⟨?freeze, ?thaw⟩, fun hr hc => ?clean⟩
  case expiry =>
    obtain ⟨hcount, hshown, hact⟩ := u.expire_parts n cause
    have hu : u.wd n = s.wd n ∧ u.polOf n = s.polOf n ∧ u.onProof n = s.onProof n ∧ u.dev = s.dev := by
      rcases hc with ⟨-, -, rfl⟩ | ⟨-, -, rfl⟩ <;> exact ⟨rfl, rfl, rfl, rfl⟩
    obtain ⟨hwd, hpol, hproof, hdev⟩ := hu
    have hrec : u.expiryRec n cause = {
        total := satInc (s.wd n).shown.total, consec := satInc (s.wd n).shown.consec,
        cause := BitVec.ofNat 8 cause.code, startNum := s.dev.startCount.truncate 16, time := BitVec.ofNat 64 u.now } := by
      unfold State.expiryRec WdgRec.count
      rw [hwd, hdev]
    rw [hrec, hwd, hpol, hproof] at hact
    refine ⟨_, exec_expiry hc ha hn hf hk, State.expire_frame (Frame.refl _ u) (Field.sub_refl _) .now (by decide), hcount, ?_, hact⟩
    rw [hshown, hrec]
  case nothing =>
    rw [exec_wdgClockStop]
    rcases h with h | h | ⟨h1, h2⟩
    · rw [if_pos (by simp [h])]
    · rw [if_pos (by simp [h])]
    · rw [h1, h2]
      split <;> rfl
  case fault =>
    refine ⟨_, ?_, s.clockFault_parts n⟩
    rw [exec_wdgClockStop, if_neg (by simp [ha, hf, hk]), if_neg (by simp [hn]), if_neg (by simp [hc])]
  case locked =>
    rw [exec_wdgCfgWrite hr]
    exact congrArg Host.Outcome.next (if_pos (by rcases h with h | h <;> simp [h]))
  case stored =>
    rw [exec_wdgCfgWrite hr, h1, h2, h3]
    simp only [State.modWdg, vmod]
    rfl
  case armed =>
    have h4' : s.armRefused n ((s.wd n).withCfg v) = false := h4
    refine ⟨(s.modWdg n fun _ => (s.wd n).withCfg v).armByWrite n, by rw [exec_wdgCfgWrite hr, h1, h2, h3, h4'] <;> rfl, ?_⟩
    have h := State.armByWrite_wd (s.modWdg n fun _ => (s.wd n).withCfg v) n
    rw [State.modWdg_wd, State.modWdg_ch] at h
    exact h
  case window =>
    refine congrArg Host.Outcome.next ((State.regW_reaches hr).trans ?_)
    by_cases h : (s.wd n).auto = false ∧ (s.wd n).armed = false ∧ windowOk (field v.toNat 15 0) (field v.toNat 31 16) = true
    · rw [if_pos h]
      exact if_neg (by simp [h])
    · rw [if_neg h]
      refine if_pos ?_
      simp only [Bool.or_eq_true, Bool.not_eq_true']
      simp only [not_and, Bool.not_eq_false, Bool.not_eq_true] at h
      cases h1 : (s.wd n).auto <;> cases h2 : (s.wd n).armed <;> simp_all
  case freeze =>
    split
    · rename_i h
      obtain ⟨hd, hs, hn, hf⟩ := h
      refine ⟨_, congrArg Host.Outcome.next ((State.regW_reaches hr).trans (if_neg (by simp [State.watching, hd, hs, hn, hf]))), ?_⟩
      dsimp only
      rw [State.log_wd, State.raise_wd, State.modWdg_wd]
    · rename_i h
      refine congrArg Host.Outcome.next ((State.regW_reaches hr).trans (if_pos ?_))
      rw [← Bool.not_eq_false]
      intro h'
      simp only [State.watching, Bool.or_eq_false_iff, Bool.not_eq_false', Bool.and_eq_true, Option.isNone_iff_eq_none] at h'
      obtain ⟨⟨h1, h2⟩, h3, h4⟩ := h'
      exact h ⟨h1, h2, h3, h4⟩
  case thaw =>
    have he : exec (.wdgThaw m n) s = .next (match (s.wd n).frozen with
        | none => s.ignoredWrite m (chanPage n 2 + 0x084)
        | some ticks => ((s.modWdg n fun w => { w with frozen := none, base := ticks, ref := s.nextEdge }).raise 0x0206 n.1 [0, mgrNum m]).log 0x0030
          n.1 [4, 0, mgrNum m]) := congrArg Host.Outcome.next ((State.regW_reaches hr).trans (by rfl))
    cases hf : (s.wd n).frozen with
    | none =>
      rw [hf] at he
      exact he
    | some ticks =>
      rw [hf] at he
      refine ⟨_, he, ?_⟩
      rw [State.log_wd, State.raise_wd, State.modWdg_wd]
      rfl
  case clean =>
    refine ⟨_, congrArg Host.Outcome.next (if_pos (by rw [hr, decide_eq_true hc] <;> rfl)), ?_, ?_⟩
    · exact (State.putWdgRec_wd _ n _).1
    · exact State.clearConsec_frame (Frame.refl _ _) (Field.sub_refl _) .now (by decide)

end Sys2Proof

end


section
/-! SUPPORT. Manager watchdogs (R160 to R162). -/

namespace Sys2Proof.Machine

open Sys2Proof

section

variable {k : Field} {R : State → State → Prop} (hR : Respects k R) {s₀ s : State}

include hR

theorem State.committed_keeps (hf : k ∉ [.led]) (h : R s₀ s) : R s₀ (State.committed s) :=
  hR.step h (State.committed_frame (Frame.refl _ _) (Field.sub_refl _)) hf

theorem State.drawChallenge_keeps (hf : k ∉ [.drbg, .drawn]) (h : R s₀ s) : R s₀ ((State.drawChallenge s).2) :=
  hR.step h (State.drawChallenge_frame (Frame.refl _ _) (Field.sub_refl _)) hf

theorem State.enterRecoveryState_keeps {n : Fin 128}
    (hf : k ∉ [.mbx, .ctl, .wdg, .imm, .trace, .spdm, .rings, .views, .awaits, .dev]) (h : R s₀ s) : R s₀ (State.enterRecoveryState s n) :=
  hR.step h (State.enterRecoveryState_frame (Frame.refl _ _) (Field.sub_refl _)) hf

end

/-! ## Staging is not touched by what a wake resumes -/

/-- From s to t every channel's staging is as before. -/
def StagingKept (s t : State) : Prop := ∀ n, (t.pl n).staging = (s.pl n).staging

theorem StagingKept.refl (s : State) : StagingKept s s := fun _ => rfl

theorem StagingKept.comp {s t u : State} (h : StagingKept s t) (h' : StagingKept t u) : StagingKept s u := fun n => (h' n).trans (h n)

theorem StagingKept.of_frame {fs : List Field} {s t : State} (h : Frame fs s t) (hf : Field.plt ∉ fs) : StagingKept s t :=
  fun n => congrArg (fun v => (vget v n).staging) (h .plt hf)

theorem StagingKept.respects : Respects .plt StagingKept := ⟨StagingKept.refl, StagingKept.comp, StagingKept.of_frame⟩

theorem State.modPlt_staging {s₀ s : State} {n : Fin 128} {f : PlateSt → PlateSt} (h : StagingKept s₀ s)
    (hf : ∀ x : PlateSt, (f x).staging = x.staging) : StagingKept s₀ (s.modPlt n f) := by
  refine h.comp fun k => ?_
  by_cases hk : k = n
  · subst hk; rw [State.modPlt_pl, hf]
  · rw [State.modPlt_pl_ne _ _ _ hk]

theorem State.commitTable_staging {s₀ s : State} {n : Fin 128} {t2 : PTable} {cause : Nat} (h : StagingKept s₀ s) :
    StagingKept s₀ (State.commitTable s n t2 cause) := by
  refine StagingKept.comp h ?_
  clear h
  unfold State.commitTable
  dsimp -failIfUnchanged -proj only
  repeat' (with_reducible first
    | assumption | apply StagingKept.refl | (apply State.modPlt_staging; rotate_left; (intro x; rfl))
    | apply State.committed_keeps StagingKept.respects (by decide) | apply State.forAll_keeps StagingKept.respects
    | apply State.log_keeps StagingKept.respects (by decide) | apply State.raise_keeps StagingKept.respects (by decide) | intro _ | split)

theorem State.commitPlates_staging {s₀ s : State} {n : Fin 128} {t2 : PTable} {cause : Nat} (h : StagingKept s₀ s) :
    StagingKept s₀ (State.commitPlates s n t2 cause) := by
  refine StagingKept.comp h ?_
  clear h
  unfold State.commitPlates
  dsimp -failIfUnchanged -proj only
  repeat' (with_reducible first
    | assumption | apply StagingKept.refl | apply State.commitTable_staging | intro _ | split)

theorem State.beginAttempt_staging {s₀ s : State} {n : Fin 128} (h : StagingKept s₀ s) :
    StagingKept s₀ (State.beginAttempt s n) := by
  refine StagingKept.comp h ?_
  clear h
  unfold State.beginAttempt
  dsimp -failIfUnchanged -proj only
  repeat' (with_reducible first
    | assumption | apply StagingKept.refl | (apply State.modPlt_staging; rotate_left; (intro x; rfl))
    | apply State.drawChallenge_keeps StagingKept.respects (by decide) | intro _ | split)

theorem State.selEnd_staging {s₀ s : State} {n : Fin 128} {w : SelWait} {t3 : PTable} {tie : Bool} {run : Option (PlateId × Fin 256)} {attempt : Bool} (h : StagingKept s₀ s) :
    StagingKept s₀ (State.selEnd s n w t3 tie run attempt) := by
  refine StagingKept.comp h ?_
  clear h
  unfold State.selEnd
  dsimp -failIfUnchanged -proj only
  repeat' (with_reducible first
    | assumption | apply StagingKept.refl | apply State.enterRecoveryState_keeps StagingKept.respects (by decide)
    | apply State.bind_keeps StagingKept.respects (by decide) | apply State.answerAll_keeps StagingKept.respects (by decide)
    | apply State.commitPlates_staging | apply State.beginAttempt_staging | apply State.unbind_keeps StagingKept.respects (by decide)
    | apply State.modCtl_keeps StagingKept.respects (by decide) | apply State.raise_keeps StagingKept.respects (by decide) | intro _
    | split)

theorem State.selectFrom_staging {n : Fin 128} {s₀ : State} {x : Nat} {w : SelWait} {u : State} (h : StagingKept s₀ u) :
    StagingKept s₀ (State.selectFrom n x w u) := by
  induction x generalizing s₀ w u with
  | zero => exact h
  | succ k ih =>
    refine StagingKept.comp h ?_
    clear h
    unfold State.selectFrom
    dsimp -failIfUnchanged -proj only
    repeat' (with_reducible first
      | assumption
      | apply StagingKept.refl
      | apply ih
      | apply State.selNote_keeps StagingKept.respects (by decide)
      | apply State.checkPlate_keeps StagingKept.respects (by decide)
      | apply State.modCtl_keeps StagingKept.respects (by decide)
      | apply State.selEnd_staging
      | intro _
      | split)

theorem State.select_staging {s₀ s : State} {n : Fin 128} (h : StagingKept s₀ s) :
    StagingKept s₀ (State.select s n) := by
  refine StagingKept.comp h ?_
  clear h
  unfold State.select
  dsimp -failIfUnchanged -proj only
  repeat' (with_reducible first
    | assumption | apply StagingKept.refl | apply State.completeAdvances_keeps StagingKept.respects (by decide)
    | apply State.selectFrom_staging | apply State.modCtl_keeps StagingKept.respects (by decide) | intro _ | split)

theorem State.startTaking_staging {s₀ s : State} {n : Fin 128} {cause : Cause} {asked : Bool} (h : StagingKept s₀ s) :
    StagingKept s₀ (State.startTaking s n cause asked) := by
  refine StagingKept.comp h ?_
  clear h
  unfold State.startTaking
  dsimp -failIfUnchanged -proj only
  repeat' (with_reducible first
    | assumption | apply StagingKept.refl | apply State.select_staging | apply State.unbind_keeps StagingKept.respects (by decide)
    | apply State.transition_keeps StagingKept.respects (by decide) | apply State.stayHeld_keeps StagingKept.respects (by decide)
    | apply State.modCtl_keeps StagingKept.respects (by decide) | intro _ | split)

theorem State.takeKept_staging {s₀ s : State} {n : Fin 128} {cause : Cause} (h : StagingKept s₀ s) :
    StagingKept s₀ (State.takeKept s n cause) := by
  refine StagingKept.comp h ?_
  clear h
  unfold State.takeKept
  dsimp -failIfUnchanged -proj only
  repeat' (with_reducible first
    | assumption | apply StagingKept.refl | apply State.startTaking_staging
    | apply State.transition_keeps StagingKept.respects (by decide) | apply State.modCtl_keeps StagingKept.respects (by decide) | intro _
    | split)

theorem State.resumeHeld_staging {s₀ s : State} {n : Fin 128} (h : StagingKept s₀ s) :
    StagingKept s₀ (State.resumeHeld s n) := by
  refine StagingKept.comp h ?_
  clear h
  unfold State.resumeHeld
  dsimp -failIfUnchanged -proj only
  repeat' (with_reducible first
    | assumption | apply StagingKept.refl | apply State.startTaking_staging | apply State.takeKept_staging | intro _ | split)

theorem State.resumeStandby_staging {s₀ s : State} (h : StagingKept s₀ s) :
    StagingKept s₀ (State.resumeStandby s) := by
  refine StagingKept.comp h ?_
  clear h
  unfold State.resumeStandby
  dsimp -failIfUnchanged -proj only
  repeat' (with_reducible first
    | assumption | apply StagingKept.refl | apply State.forChans_keeps StagingKept.respects | apply State.resumeHeld_staging
    | apply State.startTaking_staging | apply State.modCtl_keeps StagingKept.respects (by decide) | intro _ | split
    | (refine StagingKept.comp ?_ (StagingKept.of_frame (Frame.put_plat (fs := [.plat]) (Frame.refl _ _) (by decide)) (by decide))))

theorem State.wakeUp_staging {s₀ s : State} (h : StagingKept s₀ s) :
    StagingKept s₀ (State.wakeUp s) := by
  refine StagingKept.comp h ?_
  clear h
  unfold State.wakeUp
  dsimp -failIfUnchanged -proj only
  repeat' (with_reducible first
    | assumption | apply StagingKept.refl | apply State.wakeLink_keeps StagingKept.respects (by decide)
    | apply State.resumeStandby_staging | apply State.wake_keeps StagingKept.respects (by decide) | intro _ | split)

/-! ## A manager that is lost (R161) -/

theorem State.modMwd_get (s : State) (m : Mgr) (f : Mwd → Mwd) : (s.modMwd m f).mwd.get m = f (s.mwd.get m) := by
  unfold State.modMwd
  exact PerMgr.get_set_self _ _ _

/-- Manager m is lost after t, whose watchdog was w: counted, without claims, and the fallback is as its condition says. -/
def MwdLoses (m : Mgr) (w : Mwd) (t : State) : Prop :=
  (t.mwd.get m).lost = true ∧ (t.mwd.get m).lostCnt = satInc w.lostCnt ∧ t.dev.fallback = t.allLost ∧ t.devfw.claim ≠ some m ∧
    ∀ n, (t.pl n).staging.a.claim ≠ some (.manager m) ∧ (t.pl n).staging.b.claim ≠ some (.manager m) ∧
      (t.pl n).staging.recov.claim ≠ some (.manager m)

theorem State.updateFallback_holds (s : State) : s.updateFallback.dev.fallback = s.updateFallback.allLost := by
  have hlost : s.updateFallback.allLost = s.allLost := by
    have hfr := State.updateFallback_frame (Frame.refl _ s) (Field.sub_refl _)
    unfold State.allLost
    rw [show s.updateFallback.mwd = s.mwd from hfr .mwd (by decide), show s.updateFallback.part = s.part from hfr .part (by decide)]
  rw [hlost]
  unfold State.updateFallback
  split
  · assumption
  · dsimp only
    rw [show ∀ (u : State) a b, (u.logDevice a b).dev = u.dev from fun u a b =>
      State.logDevice_frame (Frame.refl _ u) (Field.sub_refl _) .dev (by decide), State.raise_dev]

theorem State.endClaims_none (s : State) (m : Mgr) (n : Fin 128) :
    (s.endClaims m).devfw.claim ≠ some m ∧ ((s.endClaims m).pl n).staging.a.claim ≠ some (.manager m) ∧
      ((s.endClaims m).pl n).staging.b.claim ≠ some (.manager m) ∧ ((s.endClaims m).pl n).staging.recov.claim ≠ some (.manager m) := by
  have hdrop : ∀ x : Staging, (if x.claim = some (.manager m) then { x with claim := none } else x).claim ≠ some (.manager m) := by
    intro x
    split
    · exact nofun
    · assumption
  have hfw : (s.endClaims m).devfw.claim ≠ some m := by
    unfold State.endClaims
    dsimp only
    split
    · exact nofun
    · assumption
  have hpl : (s.endClaims m).pl n = { s.pl n with staging := {
      a := if (s.pl n).staging.a.claim = some (.manager m) then { (s.pl n).staging.a with claim := none } else (s.pl n).staging.a
      b := if (s.pl n).staging.b.claim = some (.manager m) then { (s.pl n).staging.b with claim := none } else (s.pl n).staging.b
      recov := if (s.pl n).staging.recov.claim = some (.manager m) then { (s.pl n).staging.recov with claim := none }
        else (s.pl n).staging.recov } } := by
    simp only [State.endClaims, State.pl, vget, Vector.getElem_map, Fin.getElem_fin] <;> rfl
  rw [hpl]
  exact ⟨hfw, hdrop _, hdrop _, hdrop _⟩

/-- What an expiry of a manager watchdog leaves. -/
theorem State.mwdExpire_loses {s : State} {m : Mgr} (ha : (s.mwd.get m).armed = true) (hl : (s.mwd.get m).lost = false) :
    MwdLoses m (s.mwd.get m) (s.mwdExpire m) := by
  unfold State.mwdExpire
  dsimp only
  rw [if_neg (by simp [ha, hl])]
  generalize hu : State.log _ 0x0030 devCh [5, mgrNum m] = u
  have humwd : u.mwd = (s.modMwd m fun w => { w with lost := true, stopped := s.mwdTicks w, lostCnt := satInc w.lostCnt }).mwd := by
    rw [← hu, State.log_mwd, State.raise_mwd]
  have hfr : Frame [.trace, .rings, .dev] (u.endClaims m) (u.endClaims m).updateFallback :=
    State.updateFallback_frame (Frame.refl _ _) (by decide)
  have hclaims := u.endClaims_none m
  have hmwd : (u.endClaims m).updateFallback.mwd.get m =
      { s.mwd.get m with lost := true, stopped := s.mwdTicks (s.mwd.get m), lostCnt := satInc (s.mwd.get m).lostCnt } := by
    rw [show (u.endClaims m).updateFallback.mwd = u.mwd from hfr .mwd (by decide), humwd]
    exact State.modMwd_get s m _
  have hfw : (u.endClaims m).updateFallback.devfw = (u.endClaims m).devfw := hfr .devfw (by decide)
  have hpl : ∀ n, (u.endClaims m).updateFallback.pl n = (u.endClaims m).pl n := fun n => congrArg (vget · n) (hfr .plt (by decide))
  refine ⟨by rw [hmwd], by rw [hmwd], State.updateFallback_holds _, by rw [hfw]; exact (hclaims 0).1, fun n => ?_⟩
  rw [hpl]
  exact (hclaims n).2

/-- A wake keeps what the loss of a manager leaves. -/
theorem MwdLoses.wakeUp {m : Mgr} {w : Mwd} {t : State} (h : MwdLoses m w t) : MwdLoses m w t.wakeUp := by
  obtain ⟨h1, h2, h3, h4, h5⟩ := h
  have hfr := State.wakeUp_frame (Frame.refl _ t) (Field.sub_refl _)
  have hmwd : t.wakeUp.mwd = t.mwd := hfr .mwd (by decide)
  have hfw : t.wakeUp.devfw = t.devfw := hfr .devfw (by decide)
  have hlost : t.wakeUp.allLost = t.allLost := by
    unfold State.allLost
    rw [hmwd, show t.wakeUp.part = t.part from hfr .part (by decide)]
  have hstg : StagingKept t t.wakeUp := State.wakeUp_staging (StagingKept.refl t)
  have hfb : t.wakeUp.dev.fallback = t.dev.fallback := by
    have hlink : ∀ (u : State) m, (u.wakeLink m).dev = u.dev := fun u m => State.wakeLink_frame (Frame.refl _ u) (Field.sub_refl _) .dev (by decide)
    have hset : (t.setDev .running).dev.fallback = t.dev.fallback := by
      unfold State.setDev
      split
      · rfl
      · dsimp only
        rw [State.log_dev, State.raise_dev]
    unfold State.wakeUp
    split
    · rw [State.resumeStandby_completes DevKept.completes _, hlink, hlink]
      exact hset
    · rfl
  refine ⟨by rw [hmwd, h1], by rw [hmwd, h2], by rw [hfb, hlost, h3], by rw [hfw]; exact h4, fun n => ?_⟩
  rw [hstg n]
  exact h5 n

theorem MwdLoses.wakeIfLost {m : Mgr} {w : Mwd} {t : State} {was : Bool} (h : MwdLoses m w t) : MwdLoses m w (t.wakeIfLost m was) := by
  unfold State.wakeIfLost
  split
  · exact h.wakeUp
  · exact h

/-- A publication, seen from its manager's watchdog. -/
theorem State.mwdPublish_mwd (s : State) (m : Mgr) :
    (s.mwdPublish m).mwd.get m = { s.mwd.get m with chal := Config.challenge s.drawn, seq := (s.mwd.get m).seq + 1, ref := s.mainTick + 1 } :=
  State.modMwd_get s.drawChallenge.2 m _

/-! ## The service of a manager (R160, R161) -/

theorem exec_mwdToken {s : State} {m : Mgr} {v : Word} (hr : s.reaches m 0x00C060) :
    exec (.mwdToken m v) s = .next ((s.mwdService m (v ++ (s.mwd.get m).tokenLo)).wakeIfLost m (s.mwd.get m).lost) :=
  congrArg Host.Outcome.next (State.regW_reaches hr)

/-- No wake where the manager has not become lost. -/
theorem State.wakeIfLost_same {s : State} {m : Mgr} {was : Bool} (h : (s.mwd.get m).lost = true → was = true) : s.wakeIfLost m was = s := by
  refine if_neg ?_
  intro h'
  simp only [Bool.and_eq_true, Bool.not_eq_true'] at h'
  rw [h h'.1] at h'
  exact Bool.noConfusion h'.2

/-- A service in its window with the right token. -/
theorem State.mwdService_good {s : State} {m : Mgr} {token : DWord} (ha : (s.mwd.get m).armed = true) (hl : (s.mwd.get m).lost = false)
    (hok : token = s.mwdTokenFor m) (ho : (s.mwd.get m).open_.toNat ≤ countAt (s.mainTick + 1) (s.mwd.get m).ref (s.mwd.get m).prescale.toNat)
    (hc : countAt (s.mainTick + 1) (s.mwd.get m).ref (s.mwd.get m).prescale.toNat < (s.mwd.get m).close_.toNat) :
    s.mwdService m token = (s.modMwd m fun w => { w with last := 1 }).mwdPublish m := by
  unfold State.mwdService
  dsimp only
  rw [if_neg (by simp [ha]), if_neg (by simp [hl]), if_neg (by omega), if_neg (by omega), if_neg (by simp [hok])]

/-- Any other service of a manager that is not lost. -/
theorem State.mwdService_loses {s : State} {m : Mgr} {token : DWord} (ha : (s.mwd.get m).armed = true) (hl : (s.mwd.get m).lost = false)
    (h : ¬(token = s.mwdTokenFor m ∧ (s.mwd.get m).open_.toNat ≤ countAt (s.mainTick + 1) (s.mwd.get m).ref (s.mwd.get m).prescale.toNat ∧
      countAt (s.mainTick + 1) (s.mwd.get m).ref (s.mwd.get m).prescale.toNat < (s.mwd.get m).close_.toNat)) :
    MwdLoses m (s.mwd.get m) (s.mwdService m token) := by
  have hshown : ∀ x, MwdLoses m (s.mwd.get m) ((s.modMwd m fun w => { w with last := x }).mwdExpire m) := by
    intro x
    have hm : (s.modMwd m fun w => { w with last := x }).mwd.get m = { s.mwd.get m with last := x } := State.modMwd_get s m _
    have hx := State.mwdExpire_loses (s := s.modMwd m fun w => { w with last := x }) (m := m) (by rw [hm]; exact ha) (by rw [hm]; exact hl)
    rw [hm] at hx
    exact hx
  unfold State.mwdService
  dsimp only
  rw [if_neg (by simp [ha]), if_neg (by simp [hl])]
  split
  · exact State.mwdExpire_loses ha hl
  · rename_i hc
    split
    · exact hshown 2
    · rename_i ho
      rw [if_pos ?_]
      · exact hshown 3
      · simp only [Bool.not_eq_true', decide_eq_false_iff_not]
        exact fun hok => h ⟨hok, by omega, by omega⟩

/-- The reclaim of a lost manager (R161). -/
theorem State.mwdService_reclaims {s : State} {m : Mgr} {token : DWord} (ha : (s.mwd.get m).armed = true) (hl : (s.mwd.get m).lost = true)
    (hok : token = s.mwdTokenFor m) :
    (s.mwdService m token).mwd.get m =
        { s.mwd.get m with
          chal := Config.challenge s.drawn, seq := (s.mwd.get m).seq + 1, ref := s.mainTick + 1, lost := false, last := 1 } ∧
      (s.mwdService m token).dev.fallback = (s.mwdService m token).allLost := by
  unfold State.mwdService
  dsimp only
  rw [if_neg (by simp [ha]), if_pos hl, if_pos (by simp [hok])]
  refine ⟨?_, State.updateFallback_holds _⟩
  rw [show ∀ u : State, u.updateFallback.mwd = u.mwd from fun u =>
      State.updateFallback_frame (Frame.refl _ u) (Field.sub_refl _) .mwd (by decide), State.log_mwd, State.raise_mwd, State.mwdPublish_mwd,
    show (s.modMwd m fun w => { w with lost := false, last := 1 }).mwd.get m = { s.mwd.get m with lost := false, last := 1 } from
      State.modMwd_get s m _]
  rfl

end Sys2Proof.Machine

namespace Sys2Proof

open Sys2Proof.Machine

/-- Settles O42: a service is judged by its window and its token, and every loss of a manager is one expiry. -/
theorem managerWatchdogJudgesItsManager : Obligations.ManagerWatchdogJudgesItsManager := by
  intro s m v
  refine ⟨fun hr => ⟨fun ha => ?unarmed, fun ha hl => ?service, fun ha hl => ?reclaim⟩, fun hr => ?cfg, fun hr => ?window, fun hon hk ha hl => ?expiry,
    fun hr => congrArg Host.Outcome.next (State.regW_reaches hr), fun hd => congrArg Host.Outcome.next (if_pos hd), rfl, rfl⟩
  case unarmed =>
    have hs : s.mwdService m (v ++ (s.mwd.get m).tokenLo) = s := if_pos (by simp [ha])
    rw [exec_mwdToken hr, hs, State.wakeIfLost_same id]
  case service =>
    split
    · rename_i h
      obtain ⟨hok, ho, hc⟩ := h
      have hm : ((s.modMwd m fun w => { w with last := 1 }).mwdPublish m).mwd.get m =
          { s.mwd.get m with chal := Config.challenge s.drawn, seq := (s.mwd.get m).seq + 1, ref := s.mainTick + 1, last := 1 } := by
        rw [State.mwdPublish_mwd,
          show (s.modMwd m fun w => { w with last := 1 }).mwd.get m = { s.mwd.get m with last := 1 } from State.modMwd_get s m _]
        rfl
      refine ⟨_, ?_, hm, State.mwdPublish_frame (State.modMwd_frame (Frame.refl _ s) (by decide)) (by decide)⟩
      rw [exec_mwdToken hr, State.mwdService_good ha hl hok ho hc, State.wakeIfLost_same]
      rw [hm]
      exact fun h => absurd (hl.symm.trans h) Bool.false_ne_true
    · rename_i h
      exact ⟨_, exec_mwdToken hr, (State.mwdService_loses ha hl h).wakeIfLost⟩
  case reclaim =>
    split
    · rename_i hok
      exact ⟨_, by rw [exec_mwdToken hr, State.wakeIfLost_same fun _ => hl], State.mwdService_reclaims ha hl hok⟩
    · rename_i hok
      have hs : s.mwdService m (v ++ (s.mwd.get m).tokenLo) = s.modMwd m fun w => { w with badCnt := w.badCnt + 1 } := by
        unfold State.mwdService
        dsimp only
        rw [if_neg (by simp [ha]), if_pos hl, if_neg (by simpa using hok)]
      rw [exec_mwdToken hr, hs, State.wakeIfLost_same fun _ => hl]
  case cfg =>
    have he : exec (.mwdCfgWrite m v) s = .next (
        if (s.mwd.get m).armed || (v.getLsbD 0 && !windowOk (s.mwd.get m).open_.toNat (s.mwd.get m).close_.toNat) then s.ignoredWrite m 0x00C040
        else if v.getLsbD 0 then (s.modMwd m fun w => w.withCfg v).mwdArm m else s.modMwd m fun w => w.withCfg v) :=
      congrArg Host.Outcome.next (State.regW_reaches hr)
    intro cfg
    split
    · rename_i h
      rw [he]
      exact congrArg Host.Outcome.next (if_pos (by simpa using h))
    · rename_i h
      rw [if_neg (by simpa using h)] at he
      split
      · rename_i hv
        rw [if_pos hv] at he
        refine ⟨_, he, State.mwdArm_frame (State.modMwd_frame (Frame.refl _ s) (by decide)) (by decide), ?_⟩
        unfold State.mwdArm
        rw [State.mwdPublish_mwd,
          show ∀ (u : State) f, (u.modMwd m f).mwd.get m = f (u.mwd.get m) from fun u f => State.modMwd_get u m f,
          show ∀ (u : State) f, (u.modMwd m f).mwd.get m = f (u.mwd.get m) from fun u f => State.modMwd_get u m f]
        rfl
      · rename_i hv
        rw [if_neg hv] at he
        exact he
  case window =>
    refine congrArg Host.Outcome.next ((State.regW_reaches hr).trans ?_)
    by_cases h : (s.mwd.get m).armed = false ∧ windowOk (field v.toNat 15 0) (field v.toNat 31 16) = true
    · rw [if_pos h]
      exact if_neg (by simp [h])
    · rw [if_neg h]
      refine if_pos ?_
      simp only [not_and, Bool.not_eq_true] at h
      cases ha : (s.mwd.get m).armed
      · simp [h ha]
      · rfl
  case expiry =>
    have hx := State.mwdExpire_loses (s := s.until (1000 * ((s.mwd.get m).ref + (s.mwd.get m).close_.toNat * 2 ^ (s.mwd.get m).prescale.toNat)))
      (m := m) ha hl
    refine ⟨_, congrArg Host.Outcome.next (if_pos (by simp [hon, hk, ha, hl])), hx.wakeIfLost, ?_⟩
    have hnow : ∀ (u : State) b, (u.wakeIfLost m b).now = u.now := by
      intro u b
      unfold State.wakeIfLost
      split
      · exact State.wakeUp_frame (Frame.refl _ u) (Field.sub_refl _) .now (by decide)
      · rfl
    rw [hnow]
    exact State.mwdExpire_frame (Frame.refl _ _) (Field.sub_refl _) .now (by decide)

end Sys2Proof

end


section
/-! SUPPORT. What the control cluster's return carries on (R16 to R18): the device's word and the latched writes are left. -/

namespace Sys2Proof.Machine

open Sys2Proof

section

variable {k : Field} {R : State → State → Prop} (hR : Respects k R) {s₀ s : State}

include hR

theorem State.stopHost_keeps {n : Fin 128} (hf : k ∉ [.ports, .stn, .ctl, .wdg, .plat]) (h : R s₀ s) : R s₀ (State.stopHost s n) :=
  hR.step h (State.stopHost_frame (Frame.refl _ _) (Field.sub_refl _)) hf

theorem State.updCommitNow_keeps {n : Fin 128} (hf : k ∉ [.mbx, .stn, .plt, .fps, .trace, .rings, .led]) (h : R s₀ s) :
    R s₀ ((State.updCommitNow s n).1) :=
  hR.step h (State.updCommitNow_frame (Frame.refl _ _) (Field.sub_refl _)) hf

theorem State.updOpenAt_keeps {n : Fin 128} {inRun : Bool} {v : DWord} (hf : k ∉ [.mbx, .stn, .trace, .rings]) (h : R s₀ s) :
    R s₀ ((State.updOpenAt s n inRun v).1) :=
  hR.step h (State.updOpenAt_frame (Frame.refl _ _) (Field.sub_refl _)) hf

theorem State.postMessageAt_keeps {n : Fin 128} {time : Nat} {seq : Word} {bytes : List Byte} (hf : k ∉ [.mbx, .rings]) (h : R s₀ s) :
    R s₀ ((State.postMessageAt s n time seq bytes).1) :=
  hR.step h (State.postMessageAt_frame (Frame.refl _ _) (Field.sub_refl _)) hf

theorem State.updAbortNow_keeps {n : Fin 128} (hf : k ∉ [.mbx, .stn, .plt, .trace, .rings]) (h : R s₀ s) :
    R s₀ ((State.updAbortNow s n).1) :=
  hR.step h (State.updAbortNow_frame (Frame.refl _ _) (Field.sub_refl _)) hf

theorem State.mbxIgnored_keeps {n : Fin 128} (hf : k ∉ [.ports]) (h : R s₀ s) : R s₀ (State.mbxIgnored s n) :=
  hR.step h (State.mbxIgnored_frame (Frame.refl _ _) (Field.sub_refl _)) hf

theorem State.plateBad_keeps {n : Fin 128} {ps : List PlateId} {st : Status} (hf : k ∉ [.plt, .trace, .rings, .led]) (h : R s₀ s) :
    R s₀ (State.plateBad s n ps st) :=
  hR.step h (State.plateBad_frame (Frame.refl _ _) (Field.sub_refl _)) hf

theorem State.clearConsec_keeps {n : Fin 128} (hf : k ∉ [.wdg, .led]) (h : R s₀ s) : R s₀ (State.clearConsec s n) :=
  hR.step h (State.clearConsec_frame (Frame.refl _ _) (Field.sub_refl _)) hf

theorem State.acceptFw_keeps {by_ : Nat} (hf : k ∉ [.devfw, .trace, .rings, .led]) (h : R s₀ s) : R s₀ (State.acceptFw s by_) :=
  hR.step h (State.acceptFw_frame (Frame.refl _ _) (Field.sub_refl _)) hf

theorem State.endLines_keeps (hf : k ∉ [.prof, .twl, .plat]) (h : R s₀ s) : R s₀ (State.endLines s) :=
  hR.step h (State.endLines_frame (Frame.refl _ _) (Field.sub_refl _)) hf

theorem State.loadJob_keeps {k1 : Fin 4} {j : BurinJob} (hf : k ∉ [.burin]) (h : R s₀ s) : R s₀ (State.loadJob s k1 j) :=
  hR.step h (State.loadJob_frame (Frame.refl _ _) (Field.sub_refl _)) hf

theorem State.modSlot_keeps {k1 : Fin 256} {f : KeySlot → KeySlot} (hf : k ∉ [.keys]) (h : R s₀ s) : R s₀ (State.modSlot s k1 f) :=
  hR.step h (State.modSlot_frame (Frame.refl _ _) (Field.sub_refl _)) hf

theorem State.commitTable_keeps {n : Fin 128} {t2 : PTable} {cause : Nat} (hf : k ∉ [.plt, .trace, .rings, .led]) (h : R s₀ s) :
    R s₀ (State.commitTable s n t2 cause) :=
  hR.step h (State.commitTable_frame (Frame.refl _ _) (Field.sub_refl _)) hf

theorem State.localWrite_keeps {n : Fin 128} {erase : Bool} {len : Nat} (hf : k ∉ [.fps]) (h : R s₀ s) :
    R s₀ (State.localWrite s n erase len) :=
  hR.step h (State.localWrite_frame (Frame.refl _ _) (Field.sub_refl _)) hf

theorem State.hold_keeps {n : Fin 128} {kind : HoldKind} {cause : Cause} {seq : Option SeqKind}
    (hf : k ∉ [.ports, .stn, .ctl, .wdg, .plat, .trace, .spdm, .rings, .views, .awaits, .dev]) (h : R s₀ s) :
    R s₀ (State.hold s n kind cause seq) :=
  hR.step h (State.hold_frame (Frame.refl _ _) (Field.sub_refl _)) hf

theorem State.restartSeq_keeps {n : Fin 128} {cause : Cause}
    (hf : k ∉ [.ports, .stn, .ctl, .wdg, .plat, .trace, .spdm, .rings, .views, .awaits, .dev]) (h : R s₀ s) :
    R s₀ (State.restartSeq s n cause) :=
  hR.step h (State.restartSeq_frame (Frame.refl _ _) (Field.sub_refl _)) hf

theorem State.enterSafe_keeps {n : Fin 128}
    (hf : k ∉ [.ports, .stn, .ctl, .wdg, .plat, .trace, .spdm, .rings, .views, .awaits, .dev]) (h : R s₀ s) : R s₀ (State.enterSafe s n) :=
  hR.step h (State.enterSafe_frame (Frame.refl _ _) (Field.sub_refl _)) hf

theorem State.answer_keeps {who : Asker} {n : Fin 128} {st : Status} {info : Nat} {result : List Byte}
    (hf : k ∉ [.ctl, .spdm, .rings, .views, .awaits, .dev]) (h : R s₀ s) : R s₀ (State.answer s who n st info result) :=
  hR.step h (State.answer_frame (Frame.refl _ _) (Field.sub_refl _)) hf

theorem State.orderQuarantine_keeps {who : Asker} {n : Fin 128}
    (hf : k ∉ [.ports, .stn, .ctl, .plt, .wdg, .prof, .twl, .imm, .plat, .trace, .spdm, .rings, .views, .awaits, .led, .dev]) (h : R s₀ s) :
    R s₀ (State.orderQuarantine s who n) :=
  hR.step h (State.orderQuarantine_frame (Frame.refl _ _) (Field.sub_refl _)) hf

theorem State.orderReadmit_keeps {who : Asker} {n : Fin 128}
    (hf : k ∉ [.ports, .stn, .ctl, .wdg, .plat, .trace, .spdm, .rings, .views, .awaits, .dev]) (h : R s₀ s) :
    R s₀ (State.orderReadmit s who n) :=
  hR.step h (State.orderReadmit_frame (Frame.refl _ _) (Field.sub_refl _)) hf

theorem State.orderHold_keeps {who : Asker} {n : Fin 128}
    (hf : k ∉ [.ports, .stn, .ctl, .wdg, .prof, .twl, .plat, .trace, .spdm, .rings, .views, .awaits, .dev]) (h : R s₀ s) :
    R s₀ (State.orderHold s who n) :=
  hR.step h (State.orderHold_frame (Frame.refl _ _) (Field.sub_refl _)) hf

theorem State.orderRestart_keeps {who : Asker} {n : Fin 128}
    (hf : k ∉ [.ports, .stn, .ctl, .wdg, .plat, .trace, .spdm, .rings, .views, .awaits, .dev]) (h : R s₀ s) :
    R s₀ (State.orderRestart s who n) :=
  hR.step h (State.orderRestart_frame (Frame.refl _ _) (Field.sub_refl _)) hf

theorem State.applyIdentity_keeps {n : Fin 128} (hf : k ∉ [.fps, .prof]) (h : R s₀ s) : R s₀ (State.applyIdentity s n) :=
  hR.step h (State.applyIdentity_frame (Frame.refl _ _) (Field.sub_refl _)) hf

end

/-! ## The device's word -/

theorem DevKept.refl (s : State) : DevKept s s := DevKept.completes.refl s

theorem DevKept.comp {s t u : State} (h : DevKept s t) (h' : DevKept t u) : DevKept s u := DevKept.completes.comp h h'

theorem DevKept.of_frame {fs : List Field} {s t : State} (h : Frame fs s t) (hf : Field.dev ∉ fs) : DevKept s t :=
  DevKept.completes.of_frame h hf

theorem DevKept.respects : Respects .dev DevKept := DevKept.completes.toRespects

theorem State.hold_dev {s₀ s : State} {n : Fin 128} {kind : HoldKind} {cause : Cause} {seq : Option SeqKind} (h : DevKept s₀ s) :
    DevKept s₀ (State.hold s n kind cause seq) := by
  refine DevKept.comp h ?_
  clear h
  unfold State.hold
  dsimp -failIfUnchanged -proj only
  repeat' (with_reducible first
    | assumption | apply DevKept.refl | apply State.stopHost_keeps DevKept.respects (by decide)
    | apply State.answerAll_completes DevKept.completes | apply State.transition_keeps DevKept.respects (by decide)
    | apply State.modCtl_keeps DevKept.respects (by decide) | intro _ | split)

theorem State.revert_dev {s₀ s : State} {n : Fin 128} {why : Nat} (h : DevKept s₀ s) :
    DevKept s₀ (State.revert s n why) := by
  refine DevKept.comp h ?_
  clear h
  unfold State.revert
  dsimp -failIfUnchanged -proj only
  repeat' (with_reducible first
    | assumption | apply DevKept.refl | apply State.modPlt_keeps DevKept.respects (by decide)
    | apply State.select_completes DevKept.completes | apply State.hold_dev | apply State.startTaking_completes DevKept.completes
    | apply State.endArming_completes DevKept.completes | apply State.raise_keeps DevKept.respects (by decide)
    | apply State.rejectProof_keeps DevKept.respects (by decide) | apply State.modCtl_keeps DevKept.respects (by decide) | intro _
    | split)

theorem State.revertBelow_dev {s₀ s : State} (h : DevKept s₀ s) :
    DevKept s₀ (State.revertBelow s) := by
  refine DevKept.comp h ?_
  clear h
  unfold State.revertBelow
  dsimp -failIfUnchanged -proj only
  repeat' (with_reducible first
    | assumption | apply DevKept.refl | apply State.revert_dev | apply State.forChans_keeps DevKept.respects | intro _ | split)

theorem State.acceptCommit_dev {s₀ s : State} {n : Fin 128} {time : Nat} (h : DevKept s₀ s) :
    DevKept s₀ (State.acceptCommit s n time) := by
  refine DevKept.comp h ?_
  clear h
  unfold State.acceptCommit
  dsimp -failIfUnchanged -proj only
  repeat' (with_reducible first
    | assumption | apply DevKept.refl | apply State.modPlt_keeps DevKept.respects (by decide)
    | apply State.completeAdvances_keeps DevKept.respects (by decide) | apply State.revertBelow_dev
    | apply State.log_keeps DevKept.respects (by decide) | apply State.commitPlates_keeps DevKept.respects (by decide)
    | apply State.transition_keeps DevKept.respects (by decide) | apply State.raise_keeps DevKept.respects (by decide) | intro _ | split)

theorem State.judgeAccept_dev {s₀ s : State} {n : Fin 128} {time : Nat} {value : DWord} (h : DevKept s₀ s) :
    DevKept s₀ (State.judgeAccept s n time value) := by
  refine DevKept.comp h ?_
  clear h
  unfold State.judgeAccept
  dsimp -failIfUnchanged -proj only
  repeat' (with_reducible first
    | assumption | apply DevKept.refl | apply State.modPlt_keeps DevKept.respects (by decide) | apply State.acceptCommit_dev | intro _
    | split | (refine DevKept.comp ?_ (DevKept.of_frame (Frame.put_led (fs := [.led]) (Frame.refl _ _) (by decide)) (by decide))))

theorem State.proofAcceptAt_dev {s₀ s : State} {n : Fin 128} {time : Nat} {v : DWord} (h : DevKept s₀ s) :
    DevKept s₀ ((State.proofAcceptAt s n time v).1) := by
  refine DevKept.comp h ?_
  clear h
  unfold State.proofAcceptAt
  dsimp -failIfUnchanged -proj only
  repeat' (with_reducible first
    | assumption | apply DevKept.refl | apply State.judgeAccept_dev | intro _ | split)

theorem State.latchedAct_dev {s₀ s : State} {n : Fin 128} {x : Latched} {x3 : LatchedAct} (h : DevKept s₀ s) :
    DevKept s₀ ((State.latchedAct s n x x3).1) := by
  refine DevKept.comp h ?_
  clear h
  unfold State.latchedAct
  dsimp -failIfUnchanged -proj only
  repeat' (with_reducible first
    | assumption | apply DevKept.refl | apply State.updCommitNow_keeps DevKept.respects (by decide)
    | apply State.updOpenAt_keeps DevKept.respects (by decide) | apply State.postMessageAt_keeps DevKept.respects (by decide)
    | apply State.proofAcceptAt_dev | apply State.updAbortNow_keeps DevKept.respects (by decide) | intro _ | split)

theorem State.processLatched_dev {s₀ s : State} {n : Fin 128} {x : Latched} (h : DevKept s₀ s) : DevKept s₀ (s.processLatched n x) := by
  have hfold : ∀ (l : List LatchedAct) (a : State × Bool), DevKept s₀ a.1 →
      DevKept s₀ (l.foldl (fun (a : State × Bool) f => let q := a.1.latchedAct n x f; (q.1, a.2 || q.2)) a).1 := by
    intro l
    induction l with
    | nil => exact fun _ ha => ha
    | cons f l ih => exact fun a ha => ih _ (State.latchedAct_dev ha)
  have hacts := hfold x.acts (s, false) h
  unfold State.processLatched
  dsimp only
  split
  · exact State.mbxIgnored_keeps DevKept.respects (by decide) hacts
  · exact hacts

theorem State.restartSeq_dev {s₀ s : State} {n : Fin 128} {cause : Cause} (h : DevKept s₀ s) :
    DevKept s₀ (State.restartSeq s n cause) := by
  refine DevKept.comp h ?_
  clear h
  unfold State.restartSeq
  dsimp -failIfUnchanged -proj only
  repeat' (with_reducible first
    | assumption | apply DevKept.refl | apply State.hold_dev | intro _ | split)

theorem State.enterSafe_dev {s₀ s : State} {n : Fin 128} (h : DevKept s₀ s) :
    DevKept s₀ (State.enterSafe s n) := by
  refine DevKept.comp h ?_
  clear h
  unfold State.enterSafe
  dsimp -failIfUnchanged -proj only
  repeat' (with_reducible first
    | assumption | apply DevKept.refl | apply State.answerAll_completes DevKept.completes
    | apply State.stopHost_keeps DevKept.respects (by decide) | apply State.transition_keeps DevKept.respects (by decide) | intro _
    | split)

theorem State.requestPulse_dev {s₀ s : State} {t1 : Fin 16} {own : Option (Fin 128)} (h : DevKept s₀ s) :
    DevKept s₀ (State.requestPulse s t1 own) := by
  refine DevKept.comp h ?_
  clear h
  unfold State.requestPulse
  dsimp -failIfUnchanged -proj only
  repeat' (with_reducible first
    | assumption | apply DevKept.refl | apply State.hold_dev | apply State.forAll_keeps DevKept.respects
    | apply State.modLine_keeps DevKept.respects (by decide) | apply State.lineStep_keeps DevKept.respects (by decide)
    | apply State.powerStep3_completes DevKept.completes | intro _ | split
    | (refine DevKept.comp ?_ (DevKept.of_frame (Frame.put_plat (fs := [.plat]) (Frame.refl _ _) (by decide)) (by decide))))

theorem State.powerCycle_dev {s₀ s : State} {n : Fin 128} (h : DevKept s₀ s) :
    DevKept s₀ (State.powerCycle s n) := by
  refine DevKept.comp h ?_
  clear h
  unfold State.powerCycle
  dsimp -failIfUnchanged -proj only
  repeat' (with_reducible first
    | assumption | apply DevKept.refl | apply State.restartSeq_dev | apply State.requestPulse_dev | intro _ | split)

theorem State.proofFails_dev {s₀ s : State} {n : Fin 128} {why : Nat} (h : DevKept s₀ s) :
    DevKept s₀ (State.proofFails s n why) := by
  refine DevKept.comp h ?_
  clear h
  unfold State.proofFails
  dsimp -failIfUnchanged -proj only
  repeat' (with_reducible first
    | assumption | apply DevKept.refl | apply State.modPlt_keeps DevKept.respects (by decide) | apply State.hold_dev
    | apply State.revert_dev | intro _ | split)

theorem State.takeAction_dev {s₀ s : State} {n : Fin 128} {a : WdgAct} (h : DevKept s₀ s) :
    DevKept s₀ (State.takeAction s n a) := by
  refine DevKept.comp h ?_
  clear h
  unfold State.takeAction
  dsimp -failIfUnchanged -proj only
  repeat' (with_reducible first
    | assumption | apply DevKept.refl | apply State.restartSeq_dev | apply State.enterSafe_dev | apply State.powerCycle_dev
    | apply State.proofFails_dev | intro _ | split)

theorem State.settleAbsent_dev {s₀ s : State} {n : Fin 128} (h : DevKept s₀ s) :
    DevKept s₀ (State.settleAbsent s n) := by
  refine DevKept.comp h ?_
  clear h
  unfold State.settleAbsent
  dsimp -failIfUnchanged -proj only
  repeat' (with_reducible first
    | assumption | apply DevKept.refl | apply State.modPlt_keeps DevKept.respects (by decide)
    | apply State.modWdg_keeps DevKept.respects (by decide) | apply State.revert_dev | apply State.takeAction_dev
    | apply State.takeKept_completes DevKept.completes | intro _ | split)

theorem State.settleAll_dev {s₀ s : State} (h : DevKept s₀ s) :
    DevKept s₀ (State.settleAll s) := by
  refine DevKept.comp h ?_
  clear h
  unfold State.settleAll
  dsimp -failIfUnchanged -proj only
  repeat' (with_reducible first
    | assumption | apply DevKept.refl | apply State.settleAbsent_dev | apply State.forChans_keeps DevKept.respects | intro _ | split)

theorem State.flushOne_dev {s₀ s : State} {w : LedgerWork} (h : DevKept s₀ s) :
    DevKept s₀ (State.flushOne s w) := by
  refine DevKept.comp h ?_
  clear h
  unfold State.flushOne
  dsimp -failIfUnchanged -proj only
  repeat' (with_reducible first
    | assumption | apply DevKept.refl | apply State.modPlt_keeps DevKept.respects (by decide) | apply State.acceptCommit_dev
    | apply State.startTaking_completes DevKept.completes | apply State.plateBad_keeps DevKept.respects (by decide)
    | apply State.clearConsec_keeps DevKept.respects (by decide) | apply State.modWdg_keeps DevKept.respects (by decide)
    | apply State.acceptFw_keeps DevKept.respects (by decide) | apply State.commitPlates_keeps DevKept.respects (by decide)
    | apply State.commitFw_keeps DevKept.respects (by decide) | intro _ | split
    | (refine DevKept.comp ?_ (DevKept.of_frame (Frame.put_led (fs := [.led]) (Frame.refl _ _) (by decide)) (by decide))))

theorem State.flushLedger_dev {s₀ s : State} (h : DevKept s₀ s) :
    DevKept s₀ (State.flushLedger s) := by
  refine DevKept.comp h ?_
  clear h
  unfold State.flushLedger
  dsimp -failIfUnchanged -proj only
  repeat' (with_reducible first
    | assumption | apply DevKept.refl | apply State.forAll_keeps DevKept.respects | apply State.flushOne_dev | intro _ | split
    | (refine DevKept.comp ?_ (DevKept.of_frame (Frame.put_led (fs := [.led]) (Frame.refl _ _) (by decide)) (by decide))))

theorem State.reselect_dev {s₀ s : State} {n : Fin 128} {w : SelWait} (h : DevKept s₀ s) :
    DevKept s₀ (State.reselect s n w) := by
  refine DevKept.comp h ?_
  clear h
  unfold State.reselect
  dsimp -failIfUnchanged -proj only
  repeat' (with_reducible first
    | assumption | apply DevKept.refl | apply State.selectFrom_completes DevKept.completes | intro _ | split)

theorem State.resume_dev {s₀ s : State} {n : Fin 128} {out : Option Chk} (h : DevKept s₀ s) :
    DevKept s₀ (State.resume s n out) := by
  refine DevKept.comp h ?_
  clear h
  unfold State.resume
  dsimp -failIfUnchanged -proj only
  repeat' (with_reducible first
    | assumption | apply DevKept.refl | apply State.armJudge_completes DevKept.completes
    | apply State.selNote_keeps DevKept.respects (by decide) | apply State.reselect_dev | apply State.armStep_completes DevKept.completes
    | apply State.modCtl_keeps DevKept.respects (by decide) | intro _ | split)

theorem State.resumeEntry_dev {s₀ s : State} {i : Nat} {out : Option Chk} (h : DevKept s₀ s) :
    DevKept s₀ (State.resumeEntry s i out) := by
  refine DevKept.comp h ?_
  clear h
  unfold State.resumeEntry
  dsimp -failIfUnchanged -proj only
  repeat' (with_reducible first
    | assumption | apply DevKept.refl | apply State.forChans_keeps DevKept.respects | apply State.resume_dev | intro _ | split)

theorem State.resumeCommits_dev {s₀ s : State} (h : DevKept s₀ s) :
    DevKept s₀ (State.resumeCommits s) := by
  refine DevKept.comp h ?_
  clear h
  unfold State.resumeCommits
  dsimp -failIfUnchanged -proj only
  repeat' (with_reducible first
    | assumption | apply DevKept.refl | apply State.resumeEntry_dev | intro _ | split)

theorem State.leave_dev {s₀ s : State} {n : Fin 128} {st : ChState} {cause : Cause} (h : DevKept s₀ s) :
    DevKept s₀ (State.leave s n st cause) := by
  refine DevKept.comp h ?_
  clear h
  unfold State.leave
  dsimp -failIfUnchanged -proj only
  repeat' (with_reducible first
    | assumption | apply DevKept.refl | apply State.answerAll_completes DevKept.completes
    | apply State.stopHost_keeps DevKept.respects (by decide) | apply State.unbind_keeps DevKept.respects (by decide)
    | apply State.transition_keeps DevKept.respects (by decide) | apply State.rejectProof_keeps DevKept.respects (by decide)
    | apply State.endArming_completes DevKept.completes | intro _ | split)

theorem State.orderQuarantine_dev {s₀ s : State} {who : Asker} {n : Fin 128} (h : DevKept s₀ s) :
    DevKept s₀ (State.orderQuarantine s who n) := by
  refine DevKept.comp h ?_
  clear h
  unfold State.orderQuarantine
  dsimp -failIfUnchanged -proj only
  repeat' (with_reducible first
    | assumption | apply DevKept.refl | apply State.answer_completes DevKept.completes
    | apply State.endLines_keeps DevKept.respects (by decide) | apply State.leave_dev | intro _ | split)

theorem State.orderReadmit_dev {s₀ s : State} {who : Asker} {n : Fin 128} (h : DevKept s₀ s) :
    DevKept s₀ (State.orderReadmit s who n) := by
  refine DevKept.comp h ?_
  clear h
  unfold State.orderReadmit
  dsimp -failIfUnchanged -proj only
  repeat' (with_reducible first
    | assumption | apply DevKept.refl | apply State.hold_dev | apply State.answer_completes DevKept.completes | intro _ | split)

theorem State.orderHold_dev {s₀ s : State} {who : Asker} {n : Fin 128} (h : DevKept s₀ s) :
    DevKept s₀ (State.orderHold s who n) := by
  refine DevKept.comp h ?_
  clear h
  unfold State.orderHold
  dsimp -failIfUnchanged -proj only
  repeat' (with_reducible first
    | assumption | apply DevKept.refl | apply State.hold_dev | apply State.endLines_keeps DevKept.respects (by decide)
    | apply State.answerAll_completes DevKept.completes | apply State.answer_completes DevKept.completes
    | apply State.wait_keeps DevKept.respects (by decide) | intro _ | split)

theorem State.releaseSafe_dev {s₀ s : State} {n : Fin 128} (h : DevKept s₀ s) :
    DevKept s₀ (State.releaseSafe s n) := by
  refine DevKept.comp h ?_
  clear h
  unfold State.releaseSafe
  dsimp -failIfUnchanged -proj only
  repeat' (with_reducible first
    | assumption | apply DevKept.refl | apply State.startTaking_completes DevKept.completes
    | apply State.clearConsec_keeps DevKept.respects (by decide) | intro _ | split
    | (refine DevKept.comp ?_ (DevKept.of_frame (Frame.put_led (fs := [.led]) (Frame.refl _ _) (by decide)) (by decide))))

theorem State.orderRelease_dev {s₀ s : State} {who : Asker} {n : Fin 128} (h : DevKept s₀ s) :
    DevKept s₀ (State.orderRelease s who n) := by
  refine DevKept.comp h ?_
  clear h
  unfold State.orderRelease
  dsimp -failIfUnchanged -proj only
  repeat' (with_reducible first
    | assumption | apply DevKept.refl | apply State.startTaking_completes DevKept.completes
    | apply State.answer_completes DevKept.completes | apply State.releaseSafe_dev | apply State.wait_keeps DevKept.respects (by decide)
    | intro _ | split)

theorem State.orderRestart_dev {s₀ s : State} {who : Asker} {n : Fin 128} (h : DevKept s₀ s) :
    DevKept s₀ (State.orderRestart s who n) := by
  refine DevKept.comp h ?_
  clear h
  unfold State.orderRestart
  dsimp -failIfUnchanged -proj only
  repeat' (with_reducible first
    | assumption | apply DevKept.refl | apply State.restartSeq_dev | apply State.answer_completes DevKept.completes
    | apply State.wait_keeps DevKept.respects (by decide) | intro _ | split)

theorem State.order_dev {s₀ s : State} {who : Asker} {m : Mgr} {n : Fin 128} {o : Order} {rival : Option Order} {deviceHold : Bool} (h : DevKept s₀ s) :
    DevKept s₀ (State.order s who m n o rival deviceHold) := by
  refine DevKept.comp h ?_
  clear h
  unfold State.order
  dsimp -failIfUnchanged -proj only
  repeat' (with_reducible first
    | assumption | apply DevKept.refl | apply State.orderQuarantine_dev | apply State.orderReadmit_dev | apply State.orderHold_dev
    | apply State.orderRelease_dev | apply State.answer_completes DevKept.completes | apply State.orderRestart_dev | intro _ | split)

theorem State.waitedOrders_dev {s₀ s : State} (h : DevKept s₀ s) :
    DevKept s₀ (State.waitedOrders s) := by
  refine DevKept.comp h ?_
  clear h
  unfold State.waitedOrders
  dsimp -failIfUnchanged -proj only
  repeat' (with_reducible first
    | assumption | apply DevKept.refl | apply State.order_dev | apply State.forAll_keeps DevKept.respects | intro _ | split
    | (refine DevKept.comp ?_ (DevKept.of_frame (Frame.put_awaits (fs := [.awaits]) (Frame.refl _ _) (by decide)) (by decide))))

theorem State.finishJob_dev {s₀ s : State} {j : BurinJob} {st : Status} {info : Nat} {result : List Byte} (h : DevKept s₀ s) :
    DevKept s₀ (State.finishJob s j st info result) := by
  refine DevKept.comp h ?_
  clear h
  unfold State.finishJob
  dsimp -failIfUnchanged -proj only
  repeat' (with_reducible first
    | assumption | apply DevKept.refl | apply State.finish_completes DevKept.completes | intro _ | split)

theorem State.takeCore_dev {s₀ s : State} {k1 : Fin 4} {j : BurinJob} (h : DevKept s₀ s) :
    DevKept s₀ (State.takeCore s k1 j) := by
  refine DevKept.comp h ?_
  clear h
  unfold State.takeCore
  dsimp -failIfUnchanged -proj only
  repeat' (with_reducible first
    | assumption | apply DevKept.refl | apply State.finishJob_dev | apply State.loadJob_keeps DevKept.respects (by decide)
    | apply State.modSlot_keeps DevKept.respects (by decide) | intro _ | split
    | (refine DevKept.comp ?_ (DevKept.of_frame (Frame.put_burin (fs := [.burin]) (Frame.refl _ _) (by decide)) (by decide))))

theorem State.allocate_dev {s₀ s : State} (h : DevKept s₀ s) :
    DevKept s₀ (State.allocate s) := by
  refine DevKept.comp h ?_
  clear h
  unfold State.allocate
  dsimp -failIfUnchanged -proj only
  repeat' (with_reducible first
    | assumption | apply DevKept.refl | apply State.takeCore_dev | apply State.loadJob_keeps DevKept.respects (by decide)
    | apply State.modCore_keeps DevKept.respects (by decide) | intro _ | split)

theorem State.allocateN_dev {s₀ s : State} {k : Nat} (h : DevKept s₀ s) : DevKept s₀ (State.allocateN k s) := by
  induction k generalizing s with
  | zero => exact h
  | succ k ih => exact ih (State.allocate_dev h)

theorem State.dispatchJobs_dev {s₀ s : State} (h : DevKept s₀ s) :
    DevKept s₀ (State.dispatchJobs s) := by
  refine DevKept.comp h ?_
  clear h
  unfold State.dispatchJobs
  dsimp -failIfUnchanged -proj only
  repeat' (with_reducible first
    | assumption | apply DevKept.refl | apply State.allocateN_dev | intro _ | split)

/-! ## Latched mailbox writes -/

/-- From s to t every mailbox holds the latched writes that it held. -/
def LatchedKept (s t : State) : Prop := ∀ n, (t.mb n).latched = (s.mb n).latched

theorem LatchedKept.refl (s : State) : LatchedKept s s := fun _ => rfl

theorem LatchedKept.comp {s t u : State} (h : LatchedKept s t) (h' : LatchedKept t u) : LatchedKept s u := fun n => (h' n).trans (h n)

theorem LatchedKept.of_frame {fs : List Field} {s t : State} (h : Frame fs s t) (hf : Field.mbx ∉ fs) : LatchedKept s t :=
  fun n => congrArg (fun v => (vget v n).latched) (h .mbx hf)

theorem LatchedKept.respects : Respects .mbx LatchedKept := ⟨LatchedKept.refl, LatchedKept.comp, LatchedKept.of_frame⟩

theorem State.modMbx_latched {s₀ s : State} {n : Fin 128} {f : Mailbox → Mailbox} (h : LatchedKept s₀ s)
    (hf : ∀ b : Mailbox, (f b).latched = b.latched) : LatchedKept s₀ (s.modMbx n f) := by
  refine h.comp fun k => ?_
  by_cases hk : k = n
  · subst hk; rw [State.modMbx_mb, hf]
  · rw [State.modMbx_mb_ne _ _ _ hk]

theorem State.setSession_latched {s₀ s : State} {n : Fin 128} {session : BitVec 3} {st : Status} (h : LatchedKept s₀ s) :
    LatchedKept s₀ (State.setSession s n session st) := by
  refine LatchedKept.comp h ?_
  clear h
  unfold State.setSession
  dsimp -failIfUnchanged -proj only
  repeat' (with_reducible first
    | assumption | apply LatchedKept.refl | (apply State.modMbx_latched; rotate_left; (intro b; rfl))
    | apply State.raise_keeps LatchedKept.respects (by decide) | intro _ | split)

theorem State.closeCdi_latched {s₀ s : State} {n : Fin 128} (h : LatchedKept s₀ s) :
    LatchedKept s₀ (State.closeCdi s n) := by
  refine LatchedKept.comp h ?_
  clear h
  unfold State.closeCdi
  dsimp -failIfUnchanged -proj only
  repeat' (with_reducible first
    | assumption | apply LatchedKept.refl | (apply State.modMbx_latched; rotate_left; (intro b; rfl)) | intro _ | split)

theorem State.extend_latched {s₀ s : State} {n : Fin 128} {i : Fin 8} {type : Nat} {info : List Nat} {v : Digest} (h : LatchedKept s₀ s) :
    LatchedKept s₀ (State.extend s n i type info v) := by
  refine LatchedKept.comp h ?_
  clear h
  unfold State.extend
  dsimp -failIfUnchanged -proj only
  repeat' (with_reducible first
    | assumption | apply LatchedKept.refl | apply State.logMeas_keeps LatchedKept.respects (by decide)
    | (apply State.modMbx_latched; rotate_left; (intro b; rfl)) | intro _ | split)

theorem State.setPhase_latched {s₀ s : State} {n : Fin 128} {p : Phase} (h : LatchedKept s₀ s) :
    LatchedKept s₀ (State.setPhase s n p) := by
  refine LatchedKept.comp h ?_
  clear h
  unfold State.setPhase
  dsimp -failIfUnchanged -proj only
  repeat' (with_reducible first
    | assumption | apply LatchedKept.refl | apply State.closeCdi_latched | apply State.modStn_keeps LatchedKept.respects (by decide)
    | apply State.extend_latched | apply State.raise_keeps LatchedKept.respects (by decide) | intro _ | split)

theorem State.leaveUpdate_latched {s₀ s : State} {n : Fin 128} (h : LatchedKept s₀ s) :
    LatchedKept s₀ (State.leaveUpdate s n) := by
  refine LatchedKept.comp h ?_
  clear h
  unfold State.leaveUpdate
  dsimp -failIfUnchanged -proj only
  repeat' (with_reducible first
    | assumption | apply LatchedKept.refl | apply State.setPhase_latched | intro _ | split)

theorem State.endSession_latched {s₀ s : State} {n : Fin 128} {st : Status} (h : LatchedKept s₀ s) :
    LatchedKept s₀ (State.endSession s n st) := by
  refine LatchedKept.comp h ?_
  clear h
  unfold State.endSession
  dsimp -failIfUnchanged -proj only
  repeat' (with_reducible first
    | assumption | apply LatchedKept.refl | apply State.setSession_latched | apply State.leaveUpdate_latched | intro _ | split)

theorem State.updCommitNow_latched {s₀ s : State} {n : Fin 128} (h : LatchedKept s₀ s) :
    LatchedKept s₀ ((State.updCommitNow s n).1) := by
  refine LatchedKept.comp h ?_
  clear h
  unfold State.updCommitNow
  dsimp -failIfUnchanged -proj only
  repeat' (with_reducible first
    | assumption | apply LatchedKept.refl | apply State.modPlt_keeps LatchedKept.respects (by decide)
    | apply State.commitTable_keeps LatchedKept.respects (by decide) | apply State.setSession_latched
    | apply State.localWrite_keeps LatchedKept.respects (by decide) | apply State.endSession_latched | intro _ | split)

theorem State.updOpenAt_latched {s₀ s : State} {n : Fin 128} {inRun : Bool} {v : DWord} (h : LatchedKept s₀ s) :
    LatchedKept s₀ ((State.updOpenAt s n inRun v).1) := by
  refine LatchedKept.comp h ?_
  clear h
  unfold State.updOpenAt
  dsimp -failIfUnchanged -proj only
  repeat' (with_reducible first
    | assumption | apply LatchedKept.refl | apply State.setSession_latched | (apply State.modMbx_latched; rotate_left; (intro b; rfl))
    | apply State.endSession_latched | apply State.setPhase_latched | intro _ | split)

theorem State.postMessageAt_latched {s₀ s : State} {n : Fin 128} {time : Nat} {seq : Word} {bytes : List Byte} (h : LatchedKept s₀ s) :
    LatchedKept s₀ ((State.postMessageAt s n time seq bytes).1) := by
  refine LatchedKept.comp h ?_
  clear h
  unfold State.postMessageAt
  dsimp -failIfUnchanged -proj only
  repeat' (with_reducible first
    | assumption | apply LatchedKept.refl | (apply State.modMbx_latched; rotate_left; (intro b; rfl))
    | apply State.raise_keeps LatchedKept.respects (by decide) | intro _ | split)

theorem State.enterRecoveryState_latched {s₀ s : State} {n : Fin 128} (h : LatchedKept s₀ s) :
    LatchedKept s₀ (State.enterRecoveryState s n) := by
  refine LatchedKept.comp h ?_
  clear h
  unfold State.enterRecoveryState
  dsimp -failIfUnchanged -proj only
  repeat' (with_reducible first
    | assumption | apply LatchedKept.refl | (apply State.modMbx_latched; rotate_left; (intro b; rfl))
    | apply State.unbind_keeps LatchedKept.respects (by decide) | apply State.transition_keeps LatchedKept.respects (by decide)
    | apply State.raise_keeps LatchedKept.respects (by decide) | apply State.modWdg_keeps LatchedKept.respects (by decide)
    | apply State.answerAll_keeps LatchedKept.respects (by decide) | apply State.modCtl_keeps LatchedKept.respects (by decide) | intro _
    | split)

theorem State.selEnd_latched {s₀ s : State} {n : Fin 128} {w : SelWait} {t3 : PTable} {tie : Bool} {run : Option (PlateId × Fin 256)} {attempt : Bool} (h : LatchedKept s₀ s) :
    LatchedKept s₀ (State.selEnd s n w t3 tie run attempt) := by
  refine LatchedKept.comp h ?_
  clear h
  unfold State.selEnd
  dsimp -failIfUnchanged -proj only
  repeat' (with_reducible first
    | assumption | apply LatchedKept.refl | apply State.enterRecoveryState_latched
    | apply State.bind_keeps LatchedKept.respects (by decide) | apply State.answerAll_keeps LatchedKept.respects (by decide)
    | apply State.commitPlates_keeps LatchedKept.respects (by decide) | apply State.beginAttempt_keeps LatchedKept.respects (by decide)
    | apply State.unbind_keeps LatchedKept.respects (by decide) | apply State.modCtl_keeps LatchedKept.respects (by decide)
    | apply State.raise_keeps LatchedKept.respects (by decide) | intro _ | split)

theorem State.selectFrom_latched {n : Fin 128} {s₀ : State} {x : Nat} {w : SelWait} {u : State} (h : LatchedKept s₀ u) :
    LatchedKept s₀ (State.selectFrom n x w u) := by
  induction x generalizing s₀ w u with
  | zero => exact h
  | succ k ih =>
    refine LatchedKept.comp h ?_
    clear h
    unfold State.selectFrom
    dsimp -failIfUnchanged -proj only
    repeat' (with_reducible first
      | assumption
      | apply LatchedKept.refl
      | apply ih
      | apply State.selNote_keeps LatchedKept.respects (by decide)
      | apply State.checkPlate_keeps LatchedKept.respects (by decide)
      | apply State.modCtl_keeps LatchedKept.respects (by decide)
      | apply State.selEnd_latched
      | intro _
      | split)

theorem State.select_latched {s₀ s : State} {n : Fin 128} (h : LatchedKept s₀ s) :
    LatchedKept s₀ (State.select s n) := by
  refine LatchedKept.comp h ?_
  clear h
  unfold State.select
  dsimp -failIfUnchanged -proj only
  repeat' (with_reducible first
    | assumption | apply LatchedKept.refl | apply State.completeAdvances_keeps LatchedKept.respects (by decide)
    | apply State.selectFrom_latched | apply State.modCtl_keeps LatchedKept.respects (by decide) | intro _ | split)

theorem State.startTaking_latched {s₀ s : State} {n : Fin 128} {cause : Cause} {asked : Bool} (h : LatchedKept s₀ s) :
    LatchedKept s₀ (State.startTaking s n cause asked) := by
  refine LatchedKept.comp h ?_
  clear h
  unfold State.startTaking
  dsimp -failIfUnchanged -proj only
  repeat' (with_reducible first
    | assumption | apply LatchedKept.refl | apply State.select_latched | apply State.unbind_keeps LatchedKept.respects (by decide)
    | apply State.transition_keeps LatchedKept.respects (by decide) | apply State.stayHeld_keeps LatchedKept.respects (by decide)
    | apply State.modCtl_keeps LatchedKept.respects (by decide) | intro _ | split)

theorem State.revert_latched {s₀ s : State} {n : Fin 128} {why : Nat} (h : LatchedKept s₀ s) :
    LatchedKept s₀ (State.revert s n why) := by
  refine LatchedKept.comp h ?_
  clear h
  unfold State.revert
  dsimp -failIfUnchanged -proj only
  repeat' (with_reducible first
    | assumption | apply LatchedKept.refl | apply State.modPlt_keeps LatchedKept.respects (by decide) | apply State.select_latched
    | apply State.hold_keeps LatchedKept.respects (by decide) | apply State.startTaking_latched
    | apply State.endArming_keeps LatchedKept.respects (by decide) | apply State.raise_keeps LatchedKept.respects (by decide)
    | apply State.rejectProof_keeps LatchedKept.respects (by decide) | apply State.modCtl_keeps LatchedKept.respects (by decide)
    | intro _ | split)

theorem State.revertBelow_latched {s₀ s : State} (h : LatchedKept s₀ s) :
    LatchedKept s₀ (State.revertBelow s) := by
  refine LatchedKept.comp h ?_
  clear h
  unfold State.revertBelow
  dsimp -failIfUnchanged -proj only
  repeat' (with_reducible first
    | assumption | apply LatchedKept.refl | apply State.revert_latched | apply State.forChans_keeps LatchedKept.respects | intro _
    | split)

theorem State.acceptCommit_latched {s₀ s : State} {n : Fin 128} {time : Nat} (h : LatchedKept s₀ s) :
    LatchedKept s₀ (State.acceptCommit s n time) := by
  refine LatchedKept.comp h ?_
  clear h
  unfold State.acceptCommit
  dsimp -failIfUnchanged -proj only
  repeat' (with_reducible first
    | assumption | apply LatchedKept.refl | apply State.modPlt_keeps LatchedKept.respects (by decide)
    | apply State.completeAdvances_keeps LatchedKept.respects (by decide) | apply State.revertBelow_latched
    | apply State.log_keeps LatchedKept.respects (by decide) | apply State.commitPlates_keeps LatchedKept.respects (by decide)
    | apply State.transition_keeps LatchedKept.respects (by decide) | apply State.raise_keeps LatchedKept.respects (by decide) | intro _
    | split)

theorem State.judgeAccept_latched {s₀ s : State} {n : Fin 128} {time : Nat} {value : DWord} (h : LatchedKept s₀ s) :
    LatchedKept s₀ (State.judgeAccept s n time value) := by
  refine LatchedKept.comp h ?_
  clear h
  unfold State.judgeAccept
  dsimp -failIfUnchanged -proj only
  repeat' (with_reducible first
    | assumption | apply LatchedKept.refl | apply State.modPlt_keeps LatchedKept.respects (by decide) | apply State.acceptCommit_latched
    | intro _ | split
    | (refine LatchedKept.comp ?_ (LatchedKept.of_frame (Frame.put_led (fs := [.led]) (Frame.refl _ _) (by decide)) (by decide))))

theorem State.proofAcceptAt_latched {s₀ s : State} {n : Fin 128} {time : Nat} {v : DWord} (h : LatchedKept s₀ s) :
    LatchedKept s₀ ((State.proofAcceptAt s n time v).1) := by
  refine LatchedKept.comp h ?_
  clear h
  unfold State.proofAcceptAt
  dsimp -failIfUnchanged -proj only
  repeat' (with_reducible first
    | assumption | apply LatchedKept.refl | apply State.judgeAccept_latched | intro _ | split)

theorem State.updAbortNow_latched {s₀ s : State} {n : Fin 128} (h : LatchedKept s₀ s) :
    LatchedKept s₀ ((State.updAbortNow s n).1) := by
  refine LatchedKept.comp h ?_
  clear h
  unfold State.updAbortNow
  dsimp -failIfUnchanged -proj only
  repeat' (with_reducible first
    | assumption | apply LatchedKept.refl | apply State.modPlt_keeps LatchedKept.respects (by decide) | apply State.endSession_latched
    | intro _ | split)

theorem State.latchedAct_latched {s₀ s : State} {n : Fin 128} {x : Latched} {x3 : LatchedAct} (h : LatchedKept s₀ s) :
    LatchedKept s₀ ((State.latchedAct s n x x3).1) := by
  refine LatchedKept.comp h ?_
  clear h
  unfold State.latchedAct
  dsimp -failIfUnchanged -proj only
  repeat' (with_reducible first
    | assumption | apply LatchedKept.refl | apply State.updCommitNow_latched | apply State.updOpenAt_latched
    | apply State.postMessageAt_latched | apply State.proofAcceptAt_latched | apply State.updAbortNow_latched | intro _ | split)

theorem State.processLatched_latched {s₀ s : State} {n : Fin 128} {x : Latched} (h : LatchedKept s₀ s) : LatchedKept s₀ (s.processLatched n x) := by
  have hfold : ∀ (l : List LatchedAct) (a : State × Bool), LatchedKept s₀ a.1 →
      LatchedKept s₀ (l.foldl (fun (a : State × Bool) f => let q := a.1.latchedAct n x f; (q.1, a.2 || q.2)) a).1 := by
    intro l
    induction l with
    | nil => exact fun _ ha => ha
    | cons f l ih => exact fun a ha => ih _ (State.latchedAct_latched ha)
  have hacts := hfold x.acts (s, false) h
  unfold State.processLatched
  dsimp only
  split
  · exact State.mbxIgnored_keeps LatchedKept.respects (by decide) hacts
  · exact hacts

theorem State.powerStep3_latched {s₀ s : State} {n : Fin 128} (h : LatchedKept s₀ s) :
    LatchedKept s₀ (State.powerStep3 s n) := by
  refine LatchedKept.comp h ?_
  clear h
  unfold State.powerStep3
  dsimp -failIfUnchanged -proj only
  repeat' (with_reducible first
    | assumption | apply LatchedKept.refl | apply State.startTaking_latched | apply State.modCtl_keeps LatchedKept.respects (by decide)
    | intro _ | split)

theorem State.requestPulse_latched {s₀ s : State} {t1 : Fin 16} {own : Option (Fin 128)} (h : LatchedKept s₀ s) :
    LatchedKept s₀ (State.requestPulse s t1 own) := by
  refine LatchedKept.comp h ?_
  clear h
  unfold State.requestPulse
  dsimp -failIfUnchanged -proj only
  repeat' (with_reducible first
    | assumption | apply LatchedKept.refl | apply State.hold_keeps LatchedKept.respects (by decide)
    | apply State.forAll_keeps LatchedKept.respects | apply State.modLine_keeps LatchedKept.respects (by decide)
    | apply State.lineStep_keeps LatchedKept.respects (by decide) | apply State.powerStep3_latched | intro _ | split
    | (refine LatchedKept.comp ?_ (LatchedKept.of_frame (Frame.put_plat (fs := [.plat]) (Frame.refl _ _) (by decide)) (by decide))))

theorem State.powerCycle_latched {s₀ s : State} {n : Fin 128} (h : LatchedKept s₀ s) :
    LatchedKept s₀ (State.powerCycle s n) := by
  refine LatchedKept.comp h ?_
  clear h
  unfold State.powerCycle
  dsimp -failIfUnchanged -proj only
  repeat' (with_reducible first
    | assumption | apply LatchedKept.refl | apply State.restartSeq_keeps LatchedKept.respects (by decide)
    | apply State.requestPulse_latched | intro _ | split)

theorem State.proofFails_latched {s₀ s : State} {n : Fin 128} {why : Nat} (h : LatchedKept s₀ s) :
    LatchedKept s₀ (State.proofFails s n why) := by
  refine LatchedKept.comp h ?_
  clear h
  unfold State.proofFails
  dsimp -failIfUnchanged -proj only
  repeat' (with_reducible first
    | assumption | apply LatchedKept.refl | apply State.modPlt_keeps LatchedKept.respects (by decide)
    | apply State.hold_keeps LatchedKept.respects (by decide) | apply State.revert_latched | intro _ | split)

theorem State.takeAction_latched {s₀ s : State} {n : Fin 128} {a : WdgAct} (h : LatchedKept s₀ s) :
    LatchedKept s₀ (State.takeAction s n a) := by
  refine LatchedKept.comp h ?_
  clear h
  unfold State.takeAction
  dsimp -failIfUnchanged -proj only
  repeat' (with_reducible first
    | assumption | apply LatchedKept.refl | apply State.restartSeq_keeps LatchedKept.respects (by decide)
    | apply State.enterSafe_keeps LatchedKept.respects (by decide) | apply State.powerCycle_latched | apply State.proofFails_latched
    | intro _ | split)

theorem State.takeKept_latched {s₀ s : State} {n : Fin 128} {cause : Cause} (h : LatchedKept s₀ s) :
    LatchedKept s₀ (State.takeKept s n cause) := by
  refine LatchedKept.comp h ?_
  clear h
  unfold State.takeKept
  dsimp -failIfUnchanged -proj only
  repeat' (with_reducible first
    | assumption | apply LatchedKept.refl | apply State.startTaking_latched
    | apply State.transition_keeps LatchedKept.respects (by decide) | apply State.modCtl_keeps LatchedKept.respects (by decide) | intro _
    | split)

theorem State.settleAbsent_latched {s₀ s : State} {n : Fin 128} (h : LatchedKept s₀ s) :
    LatchedKept s₀ (State.settleAbsent s n) := by
  refine LatchedKept.comp h ?_
  clear h
  unfold State.settleAbsent
  dsimp -failIfUnchanged -proj only
  repeat' (with_reducible first
    | assumption | apply LatchedKept.refl | apply State.modPlt_keeps LatchedKept.respects (by decide)
    | apply State.modWdg_keeps LatchedKept.respects (by decide) | apply State.revert_latched | apply State.takeAction_latched
    | apply State.takeKept_latched | intro _ | split)

theorem State.settleAll_latched {s₀ s : State} (h : LatchedKept s₀ s) :
    LatchedKept s₀ (State.settleAll s) := by
  refine LatchedKept.comp h ?_
  clear h
  unfold State.settleAll
  dsimp -failIfUnchanged -proj only
  repeat' (with_reducible first
    | assumption | apply LatchedKept.refl | apply State.settleAbsent_latched | apply State.forChans_keeps LatchedKept.respects | intro _
    | split)

theorem State.flushOne_latched {s₀ s : State} {w : LedgerWork} (h : LatchedKept s₀ s) :
    LatchedKept s₀ (State.flushOne s w) := by
  refine LatchedKept.comp h ?_
  clear h
  unfold State.flushOne
  dsimp -failIfUnchanged -proj only
  repeat' (with_reducible first
    | assumption | apply LatchedKept.refl | apply State.modPlt_keeps LatchedKept.respects (by decide) | apply State.acceptCommit_latched
    | apply State.startTaking_latched | apply State.plateBad_keeps LatchedKept.respects (by decide)
    | apply State.clearConsec_keeps LatchedKept.respects (by decide) | apply State.modWdg_keeps LatchedKept.respects (by decide)
    | apply State.acceptFw_keeps LatchedKept.respects (by decide) | apply State.commitPlates_keeps LatchedKept.respects (by decide)
    | apply State.commitFw_keeps LatchedKept.respects (by decide) | intro _ | split
    | (refine LatchedKept.comp ?_ (LatchedKept.of_frame (Frame.put_led (fs := [.led]) (Frame.refl _ _) (by decide)) (by decide))))

theorem State.flushLedger_latched {s₀ s : State} (h : LatchedKept s₀ s) :
    LatchedKept s₀ (State.flushLedger s) := by
  refine LatchedKept.comp h ?_
  clear h
  unfold State.flushLedger
  dsimp -failIfUnchanged -proj only
  repeat' (with_reducible first
    | assumption | apply LatchedKept.refl | apply State.forAll_keeps LatchedKept.respects | apply State.flushOne_latched | intro _
    | split | (refine LatchedKept.comp ?_ (LatchedKept.of_frame (Frame.put_led (fs := [.led]) (Frame.refl _ _) (by decide)) (by decide))))

theorem State.armFail_latched {s₀ s : State} {n : Fin 128} {st : Status} (h : LatchedKept s₀ s) :
    LatchedKept s₀ (State.armFail s n st) := by
  refine LatchedKept.comp h ?_
  clear h
  unfold State.armFail
  dsimp -failIfUnchanged -proj only
  repeat' (with_reducible first
    | assumption | apply LatchedKept.refl | apply State.select_latched | apply State.takeKept_latched
    | apply State.endArming_keeps LatchedKept.respects (by decide) | intro _ | split)

theorem State.armCommit_latched {s₀ s : State} {n : Fin 128} {a : Arming} {i : Fin 256} (h : LatchedKept s₀ s) :
    LatchedKept s₀ (State.armCommit s n a i) := by
  refine LatchedKept.comp h ?_
  clear h
  unfold State.armCommit
  dsimp -failIfUnchanged -proj only
  repeat' (with_reducible first
    | assumption | apply LatchedKept.refl | apply State.modPlt_keeps LatchedKept.respects (by decide)
    | apply State.bind_keeps LatchedKept.respects (by decide) | apply State.startTaking_latched
    | apply State.beginAttempt_keeps LatchedKept.respects (by decide) | apply State.commitPlates_keeps LatchedKept.respects (by decide)
    | apply State.modCtl_keeps LatchedKept.respects (by decide) | intro _ | split)

theorem State.armJudge_latched {s₀ s : State} {n : Fin 128} {a : Arming} {r : Chk} (h : LatchedKept s₀ s) :
    LatchedKept s₀ (State.armJudge s n a r) := by
  refine LatchedKept.comp h ?_
  clear h
  unfold State.armJudge
  dsimp -failIfUnchanged -proj only
  repeat' (with_reducible first
    | assumption | apply LatchedKept.refl | apply State.verifyFailed_keeps LatchedKept.respects (by decide) | apply State.armFail_latched
    | apply State.armCommit_latched | apply State.raise_keeps LatchedKept.respects (by decide)
    | apply State.commitPlates_keeps LatchedKept.respects (by decide) | apply State.modCtl_keeps LatchedKept.respects (by decide)
    | intro _ | split
    | (refine LatchedKept.comp ?_ (LatchedKept.of_frame (Frame.put_led (fs := [.led]) (Frame.refl _ _) (by decide)) (by decide))))

theorem State.reselect_latched {s₀ s : State} {n : Fin 128} {w : SelWait} (h : LatchedKept s₀ s) :
    LatchedKept s₀ (State.reselect s n w) := by
  refine LatchedKept.comp h ?_
  clear h
  unfold State.reselect
  dsimp -failIfUnchanged -proj only
  repeat' (with_reducible first
    | assumption | apply LatchedKept.refl | apply State.selectFrom_latched | intro _ | split)

theorem State.armStep_latched {s₀ s : State} {n : Fin 128} (h : LatchedKept s₀ s) :
    LatchedKept s₀ (State.armStep s n) := by
  refine LatchedKept.comp h ?_
  clear h
  unfold State.armStep
  dsimp -failIfUnchanged -proj only
  repeat' (with_reducible first
    | assumption | apply LatchedKept.refl | apply State.armJudge_latched | apply State.checkPlate_keeps LatchedKept.respects (by decide)
    | apply State.modCtl_keeps LatchedKept.respects (by decide) | intro _ | split)

theorem State.resume_latched {s₀ s : State} {n : Fin 128} {out : Option Chk} (h : LatchedKept s₀ s) :
    LatchedKept s₀ (State.resume s n out) := by
  refine LatchedKept.comp h ?_
  clear h
  unfold State.resume
  dsimp -failIfUnchanged -proj only
  repeat' (with_reducible first
    | assumption | apply LatchedKept.refl | apply State.armJudge_latched | apply State.selNote_keeps LatchedKept.respects (by decide)
    | apply State.reselect_latched | apply State.armStep_latched | apply State.modCtl_keeps LatchedKept.respects (by decide) | intro _
    | split)

theorem State.resumeEntry_latched {s₀ s : State} {i : Nat} {out : Option Chk} (h : LatchedKept s₀ s) :
    LatchedKept s₀ (State.resumeEntry s i out) := by
  refine LatchedKept.comp h ?_
  clear h
  unfold State.resumeEntry
  dsimp -failIfUnchanged -proj only
  repeat' (with_reducible first
    | assumption | apply LatchedKept.refl | apply State.forChans_keeps LatchedKept.respects | apply State.resume_latched | intro _
    | split)

theorem State.resumeCommits_latched {s₀ s : State} (h : LatchedKept s₀ s) :
    LatchedKept s₀ (State.resumeCommits s) := by
  refine LatchedKept.comp h ?_
  clear h
  unfold State.resumeCommits
  dsimp -failIfUnchanged -proj only
  repeat' (with_reducible first
    | assumption | apply LatchedKept.refl | apply State.resumeEntry_latched | intro _ | split)

theorem State.resumeHeld_latched {s₀ s : State} {n : Fin 128} (h : LatchedKept s₀ s) :
    LatchedKept s₀ (State.resumeHeld s n) := by
  refine LatchedKept.comp h ?_
  clear h
  unfold State.resumeHeld
  dsimp -failIfUnchanged -proj only
  repeat' (with_reducible first
    | assumption | apply LatchedKept.refl | apply State.startTaking_latched | apply State.takeKept_latched | intro _ | split)

theorem State.releaseSafe_latched {s₀ s : State} {n : Fin 128} (h : LatchedKept s₀ s) :
    LatchedKept s₀ (State.releaseSafe s n) := by
  refine LatchedKept.comp h ?_
  clear h
  unfold State.releaseSafe
  dsimp -failIfUnchanged -proj only
  repeat' (with_reducible first
    | assumption | apply LatchedKept.refl | apply State.startTaking_latched
    | apply State.clearConsec_keeps LatchedKept.respects (by decide) | intro _ | split
    | (refine LatchedKept.comp ?_ (LatchedKept.of_frame (Frame.put_led (fs := [.led]) (Frame.refl _ _) (by decide)) (by decide))))

theorem State.orderRelease_latched {s₀ s : State} {who : Asker} {n : Fin 128} (h : LatchedKept s₀ s) :
    LatchedKept s₀ (State.orderRelease s who n) := by
  refine LatchedKept.comp h ?_
  clear h
  unfold State.orderRelease
  dsimp -failIfUnchanged -proj only
  repeat' (with_reducible first
    | assumption | apply LatchedKept.refl | apply State.startTaking_latched | apply State.answer_keeps LatchedKept.respects (by decide)
    | apply State.releaseSafe_latched | apply State.wait_keeps LatchedKept.respects (by decide) | intro _ | split)

theorem State.order_latched {s₀ s : State} {who : Asker} {m : Mgr} {n : Fin 128} {o : Order} {rival : Option Order} {deviceHold : Bool} (h : LatchedKept s₀ s) :
    LatchedKept s₀ (State.order s who m n o rival deviceHold) := by
  refine LatchedKept.comp h ?_
  clear h
  unfold State.order
  dsimp -failIfUnchanged -proj only
  repeat' (with_reducible first
    | assumption | apply LatchedKept.refl | apply State.orderQuarantine_keeps LatchedKept.respects (by decide)
    | apply State.orderReadmit_keeps LatchedKept.respects (by decide) | apply State.orderHold_keeps LatchedKept.respects (by decide)
    | apply State.orderRelease_latched | apply State.answer_keeps LatchedKept.respects (by decide)
    | apply State.orderRestart_keeps LatchedKept.respects (by decide) | intro _ | split)

theorem State.waitedOrders_latched {s₀ s : State} (h : LatchedKept s₀ s) :
    LatchedKept s₀ (State.waitedOrders s) := by
  refine LatchedKept.comp h ?_
  clear h
  unfold State.waitedOrders
  dsimp -failIfUnchanged -proj only
  repeat' (with_reducible first
    | assumption | apply LatchedKept.refl | apply State.order_latched | apply State.forAll_keeps LatchedKept.respects | intro _ | split
    | (refine LatchedKept.comp ?_ (LatchedKept.of_frame (Frame.put_awaits (fs := [.awaits]) (Frame.refl _ _) (by decide)) (by decide))))

theorem State.adopt_latched {s₀ s : State} {n : Fin 128} {t2 : STable} (h : LatchedKept s₀ s) :
    LatchedKept s₀ (State.adopt s n t2) := by
  refine LatchedKept.comp h ?_
  clear h
  unfold State.adopt
  dsimp -failIfUnchanged -proj only
  repeat' (with_reducible first
    | assumption | apply LatchedKept.refl | apply State.extend_latched | apply State.modStn_keeps LatchedKept.respects (by decide)
    | apply State.setPhase_latched | intro _ | split)

theorem State.applySection_latched {s₀ s : State} {n : Fin 128} (h : LatchedKept s₀ s) :
    LatchedKept s₀ (State.applySection s n) := by
  refine LatchedKept.comp h ?_
  clear h
  unfold State.applySection
  dsimp -failIfUnchanged -proj only
  repeat' (with_reducible first
    | assumption | apply LatchedKept.refl | apply State.modStn_keeps LatchedKept.respects (by decide) | apply State.adopt_latched
    | intro _ | split
    | (refine LatchedKept.comp ?_ (LatchedKept.of_frame (Frame.put_pol (fs := [.pol]) (Frame.refl _ _) (by decide)) (by decide))))

theorem State.applyDeferred_latched {s₀ s : State} {n : Fin 128} (h : LatchedKept s₀ s) :
    LatchedKept s₀ (State.applyDeferred s n) := by
  refine LatchedKept.comp h ?_
  clear h
  unfold State.applyDeferred
  dsimp -failIfUnchanged -proj only
  repeat' (with_reducible first
    | assumption | apply LatchedKept.refl | apply State.applyIdentity_keeps LatchedKept.respects (by decide)
    | apply State.applySection_latched | intro _ | split)

end Sys2Proof.Machine

end


section
/-! SUPPORT. The internal ladder (R163 to R165) and the control cluster's return (R16 to R18). -/

namespace Sys2Proof.Machine

open Sys2Proof

section

variable {k : Field} {R : State → State → Prop} (hR : Respects k R) {s₀ s : State}

include hR

theorem State.toBuffer_keeps {src : Src} {data : List Byte} (hf : k ∉ [.views]) (h : R s₀ s) : R s₀ (State.toBuffer s src data) :=
  hR.step h (State.toBuffer_frame (Frame.refl _ _) (Field.sub_refl _)) hf

end

/-! ## The device's word when jobs end -/

theorem State.abortCore_dev {s₀ s : State} {k1 : Fin 4} {wipe : Bool} (h : DevKept s₀ s) :
    DevKept s₀ (State.abortCore s k1 wipe) := by
  refine DevKept.comp h ?_
  clear h
  unfold State.abortCore
  dsimp -failIfUnchanged -proj only
  repeat' (with_reducible first
    | assumption | apply DevKept.refl | apply State.forAll_keeps DevKept.respects
    | apply State.modCore_keeps DevKept.respects (by decide) | apply State.finishJob_dev | intro _ | split)

theorem State.coreOut_dev {s₀ s : State} {k1 : Fin 4} {reason : Nat} {test : Bool} (h : DevKept s₀ s) :
    DevKept s₀ (State.coreOut s k1 reason test) := by
  refine DevKept.comp h ?_
  clear h
  unfold State.coreOut
  dsimp -failIfUnchanged -proj only
  repeat' (with_reducible first
    | assumption | apply DevKept.refl | apply State.abortCore_dev | apply State.modCore_keeps DevKept.respects (by decide)
    | apply State.unitOut_keeps DevKept.respects (by decide) | intro _ | split)

theorem State.deliver_dev {s₀ s : State} {src : Src} {a : Answer} (h : DevKept s₀ s) :
    DevKept s₀ (State.deliver s src a) := by
  refine DevKept.comp h ?_
  clear h
  unfold State.deliver
  dsimp -failIfUnchanged -proj only
  repeat' (with_reducible first
    | assumption | apply DevKept.refl | apply State.finish_completes DevKept.completes
    | apply State.toBuffer_keeps DevKept.respects (by decide) | intro _ | split)

theorem State.endOtp_dev {s₀ s : State} {st : Status} (h : DevKept s₀ s) :
    DevKept s₀ (State.endOtp s st) := by
  refine DevKept.comp h ?_
  clear h
  unfold State.endOtp
  dsimp -failIfUnchanged -proj only
  repeat' (with_reducible first
    | assumption | apply DevKept.refl | apply State.deliver_dev | intro _ | split
    | (refine DevKept.comp ?_ (DevKept.of_frame (Frame.put_otp (fs := [.otp]) (Frame.refl _ _) (by decide)) (by decide))))

/-! ## Warm resets -/

/-- A warm reset keeps the counts of the internal ladder. -/
theorem State.warmClear_intw (s : State) : s.warmClear.intw = { s.intw with halted := false } := by
  have h : (s.sinkAll.forChans fun n s => s.warmChan n).intw = s.intw :=
    State.forChans_frame (State.sinkAll_frame (Frame.refl [.ctl, .trace, .rings] s) (by decide))
      (fun n u => State.warmChan_frame (Frame.refl _ u) (by decide)) .intw (by decide)
  unfold State.warmClear
  dsimp only
  rw [← h]

theorem State.warmClear_onProof (s : State) : s.warmClear.devfw.onProof = false := rfl

/-- Entering a state changes nothing else of the device's word. -/
theorem State.setDev_dev (s : State) (d : DevState) : (s.setDev d).dev = { s.dev with state := d } := by
  unfold State.setDev
  split
  · rename_i h
    rw [← h]
  · dsimp only
    rw [State.log_dev, State.raise_dev]

theorem State.warmInto_dev (s : State) (c : Nat) (d : DevState) :
    (s.warmInto (some c) d).dev.state = d ∧ (s.warmInto (some c) d).dev.resetCause = BitVec.ofNat 4 c := by
  unfold State.warmInto
  dsimp only
  rw [State.setDev_dev]
  exact ⟨rfl, rfl⟩

theorem State.warmReset_dev (s : State) : (s.warmReset (some 3)).dev.state = .shadow ∧ (s.warmReset (some 3)).dev.resetCause = 3 := by
  unfold State.warmReset
  exact s.warmInto_dev 3 .shadow

theorem State.warmInto_intw (s : State) (c : Option Nat) (d : DevState) : (s.warmInto c d).intw = { s.intw with halted := false } := by
  unfold State.warmInto
  exact (State.setDev_intw _ d).trans s.warmClear_intw

/-! ## HOLD# sinks everywhere -/

theorem State.sinkAll_sink (s : State) (n : Fin 128) : (s.sinkAll.ch n).sink = true := by
  obtain ⟨u, -, h⟩ := State.forChans_turn (R := fun s t => t.ch n = s.ch n)
    (f := fun n s => if (s.ch n).sink then s
      else s.modCtl n fun c => { c with sink := true, holdWait := false, holdT := s.now, holds := satInc c.holds })
    (fun _ => rfl) (fun _ _ _ h h' => h'.trans h) s n fun k hk u => by
      split
      · rfl
      · exact State.modCtl_ch_ne u k _ (Ne.symm hk)
  unfold State.sinkAll
  rw [h]
  split
  · assumption
  · rw [State.modCtl_ch]

/-- A warm reset of a channel leaves HOLD#. -/
theorem State.warmChan_sink (s : State) (n k : Fin 128) : ((s.warmChan n).ch k).sink = (s.ch k).sink := by
  have htr : ∀ u : State, ((u.transition n .off .device).ch k).sink = (u.ch k).sink := by
    intro u
    by_cases hk : k = n
    · subst hk; rw [State.transition_ch]
    · rw [State.transition_ch_ne hk]
  unfold State.warmChan
  dsimp only
  by_cases hk : k = n
  · subst hk
    rw [State.modCtl_ch]
    split
    · rfl
    · exact htr s
  · rw [State.modCtl_ch_ne _ _ _ hk]
    split
    · rfl
    · exact htr s

theorem State.warmClear_sink (s : State) (n : Fin 128) : (s.warmClear.ch n).sink = true := by
  have hkeep : ∀ (l : List (Fin 128)) (u : State), (((l.foldl (fun s k => State.warmChan s k) u).ch n).sink) = (u.ch n).sink := by
    intro l
    induction l with
    | nil => exact fun _ => rfl
    | cons k l ih => exact fun u => (ih _).trans (u.warmChan_sink k n)
  have hw : s.warmClear.ctl = (s.sinkAll.forChans fun n s => s.warmChan n).ctl := by
    unfold State.warmClear
    rfl
  unfold State.ch
  rw [hw]
  exact (hkeep (List.finRange 128) s.sinkAll).trans (s.sinkAll_sink n)

/-! ## The steps of the ladder (R164) -/

/-- An expiry has been counted and its step recorded. -/
def State.expiryNoted (s : State) (src : Nat) : State := (s.countInternal src).noteStep src (s.countInternal src).ladderStep

theorem State.expiryNoted_intw (s : State) (src : Nat) :
    (s.expiryNoted src).intw = { (s.countInternal src).intw with step := BitVec.ofNat 3 (s.countInternal src).ladderStep } := by
  unfold State.expiryNoted State.noteStep
  dsimp only
  rw [State.log_intw, State.raise_intw]

theorem State.expiryNoted_frame (s : State) (src : Nat) : Frame [.intw, .trace, .rings] s (s.expiryNoted src) :=
  State.noteStep_frame (State.countInternal_frame (Frame.refl _ s) (by decide)) (by decide)

/-- The source, the counts and the step that an expiry of state s leaves. -/
def State.Counted (s : State) (src : Nat) (t : State) : Prop :=
  t.intw.src = BitVec.ofNat 3 src ∧ t.intw.consec = satInc s.intw.consec ∧ t.intw.total = satInc s.intw.total ∧
    t.intw.step = BitVec.ofNat 3 (if s.dcfg.tries ≤ (satInc s.intw.consec).toNat then 3 else if satInc s.intw.consec = 1 then 1 else 2)

theorem State.Counted.congr {s t u : State} {src : Nat} (h : s.Counted src t) (b : Bool) (hu : u.intw = { t.intw with halted := b }) :
    s.Counted src u := by
  unfold State.Counted
  rw [hu]
  exact h

theorem State.expiryNoted_counted (s : State) (src : Nat) : s.Counted src (s.expiryNoted src) := by
  unfold State.Counted
  rw [State.expiryNoted_intw]
  exact ⟨rfl, rfl, rfl, rfl⟩

theorem State.enterSafeHold_state (s : State) : s.enterSafeHold.dev.state = .safeHold := by
  unfold State.enterSafeHold
  split
  · assumption
  · dsimp only
    rw [State.assertFail_frame (Frame.refl _ _) (Field.sub_refl _) .dev (by decide)]
    exact State.setDev_state _ .safeHold

/-- Where a cluster restart is what an expiry asks for, the cluster is absent afterwards. -/
theorem State.ccRestart_absent {s : State} {cause : Nat} (h : s.dev.state ∈ [DevState.start, .running, .safeHold, .standby]) :
    (s.ccRestart cause).dev.ccAbsent = true ∧ (s.ccRestart cause).dev.state = s.dev.state := by
  have hdev : (s.endSessions.raise 0x080F devCh [Config.eventWord (64 + cause)]).dev = s.dev :=
    State.raise_frame (State.endSessions_frame (Frame.refl [.spdm, .rings] s) (by decide)) (by decide) .dev (by decide)
  unfold State.ccRestart
  dsimp only
  generalize s.endSessions.raise 0x080F devCh [Config.eventWord (64 + cause)] = u at hdev
  rw [← hdev] at h ⊢
  split
  case h_1 hs | h_2 hs | h_3 hs | h_4 hs =>
    rw [hs] at h
    exact absurd h (by decide)
  all_goals exact ⟨rfl, rfl⟩

/-- A failed device-firmware proof ends (R123). -/
theorem State.revertFw_ends {s : State} {cause : Nat} (h : s.fwTable.onProof.isSome = true) : (s.revertFw cause).devfw.onProof = false := by
  unfold State.revertFw
  cases hp : s.fwTable.onProof with
  | none => rw [hp] at h; cases h
  | some p =>
    dsimp only
    split
    · exact congrArg DevFw.onProof (State.ccRestart_frame (Frame.refl _ _) (Field.sub_refl _) .devfw (by decide))
    · exact congrArg DevFw.onProof (State.enterRecoveryDevice_frame (Frame.refl _ _) (Field.sub_refl _) .devfw (by decide))

/-- The end of a device-firmware proof keeps the counts of the ladder. -/
theorem State.revertFw_intw (s : State) (cause : Nat) : ∃ b, (s.revertFw cause).intw = { s.intw with halted := b } := by
  unfold State.revertFw
  split
  · exact ⟨s.intw.halted, rfl⟩
  · dsimp only
    generalize hx : State.logDevice _ 0x13 _ = x
    have hxi : x.intw = s.intw := by
      rw [← hx]
      refine State.logDevice_frame (fs := [.led, .devfw, .rings, .trace]) (State.raise_frame
        (Frame.put_devfw (b := if s.inhibited then { s with led := { s.led with waiting := s.led.waiting ++ [.devfw] } } else _) ?_ (by decide))
        (by decide)) (by decide) .intw (by decide)
      split
      · exact Frame.put_led (Frame.refl _ s) (by decide)
      · exact State.commitFw_frame (Frame.refl _ s) (by decide)
    split
    · exact ⟨s.intw.halted, (State.ccRestart_frame (State.runFw_frame (Frame.refl [.plat, .trace, .spdm, .rings, .burin, .otp, .dev, .devfw, .att] x)
        (by decide)) (by decide) .intw (by decide)).trans hxi⟩
    · exact ⟨false, (State.enterRecoveryDevice_frame (Frame.refl _ _) (Field.sub_refl _) .intw (by decide)).trans (by rw [State.warmClear_intw, hxi])⟩

/-! ## The main clock and the control cluster return (R165, R16 to R18) -/

/-- The clock has returned: the expiry is counted, and the device is in SHADOW. -/
def State.clockBack (s : State) (step : Nat) : State :=
  let s := (s.resumeMain.countInternal 6).noteStep 6 step
  State.setDev { s with dev := { s.dev with clockHeld := false, safeLatch := s.dev.safeLatch || step = 3 } } .shadow

theorem State.clockBack_parts (s : State) (step : Nat) :
    (s.clockBack step).dev = { s.dev with clockHeld := false, safeLatch := s.dev.safeLatch || step = 3, state := .shadow } ∧
      (s.clockBack step).intw.src = 6 ∧ (s.clockBack step).intw.consec = satInc s.intw.consec := by
  have hnote : ∀ u : State, (u.noteStep 6 step).dev = u.dev ∧ (u.noteStep 6 step).intw = { u.intw with step := BitVec.ofNat 3 step } := by
    intro u
    refine ⟨State.noteStep_frame (Frame.refl _ u) (Field.sub_refl _) .dev (by decide), ?_⟩
    unfold State.noteStep
    dsimp only
    rw [State.log_intw, State.raise_intw]
  obtain ⟨hd, hi⟩ := hnote (s.resumeMain.countInternal 6)
  unfold State.clockBack
  dsimp only
  rw [State.setDev_dev, State.setDev_intw, hd, hi]
  exact ⟨rfl, rfl, rfl⟩

theorem exec_mainClockReturn {s : State} (h : s.dev.clockHeld = true) :
    exec .mainClockReturn s = .next (
      if (s.clockBack (if s.dcfg.tries ≤ (satInc s.intw.consec).toNat then 3 else 2)).dev.safeLatch then
        s.clockBack (if s.dcfg.tries ≤ (satInc s.intw.consec).toNat then 3 else 2)
      else
        { s.clockBack (if s.dcfg.tries ≤ (satInc s.intw.consec).toNat then 3 else 2) with
          plat := { (s.clockBack (if s.dcfg.tries ≤ (satInc s.intw.consec).toNat then 3 else 2)).plat with
            failOn := false, failUntil := none } }) :=
  congrArg Host.Outcome.next (if_neg (by simp [h]))

/-- No mailbox write stays latched. -/
def State.unlatch (s : State) : State := s.forChans fun n s => s.modMbx n fun b => { b with latched := [] }

theorem State.unlatch_latched (s : State) (n : Fin 128) : (s.unlatch.mb n).latched = [] := by
  obtain ⟨u, -, h⟩ := State.forChans_turn (R := fun s t => t.mb n = s.mb n) (f := fun n s => s.modMbx n fun b => { b with latched := [] })
    (fun _ => rfl) (fun _ _ _ h h' => h'.trans h) s n fun k hk u => State.modMbx_mb_ne u k _ (Ne.symm hk)
  unfold State.unlatch
  rw [h, State.modMbx_mb]

/-- What the return of the control cluster carries on, once the latched writes l are taken from the mailboxes. -/
def State.carryOn (s : State) (l : List (Fin 128 × Latched)) : State :=
  let s := s.forAll l fun x s => s.processLatched x.1 x.2
  let s := s.settleAll
  let s := (s.forChans fun n s => if (s.ch n).released then s else s.applyDeferred n).flushLedger.settleAll.completeAdvances
  (s.resumeCommits.forChans fun n s => s.resumeHeld n).waitedOrders.dispatchJobs

theorem State.carryOn_dev (s : State) (l : List (Fin 128 × Latched)) : DevKept s (s.carryOn l) := by
  refine State.dispatchJobs_dev (State.waitedOrders_dev (State.forChans_keeps DevKept.respects (State.resumeCommits_dev ?_)
    fun _ u => State.resumeHeld_completes DevKept.completes (DevKept.refl u)))
  refine State.completeAdvances_keeps DevKept.respects (by decide) (State.settleAll_dev (State.flushLedger_dev ?_))
  refine State.forChans_keeps DevKept.respects (State.settleAll_dev (State.forAll_keeps DevKept.respects (DevKept.refl s)
    fun x u => State.processLatched_dev (DevKept.refl u))) fun n u => ?_
  split
  · exact DevKept.refl u
  · exact DevKept.of_frame (State.applyDeferred_frame (Frame.refl _ u) (Field.sub_refl _)) (by decide)

theorem State.carryOn_latched (s : State) (l : List (Fin 128 × Latched)) : LatchedKept s (s.carryOn l) := by
  refine State.dispatchJobs_keeps LatchedKept.respects (by decide) (State.waitedOrders_latched (State.forChans_keeps LatchedKept.respects
    (State.resumeCommits_latched ?_) fun _ u => State.resumeHeld_latched (LatchedKept.refl u)))
  refine State.completeAdvances_keeps LatchedKept.respects (by decide) (State.settleAll_latched (State.flushLedger_latched ?_))
  refine State.forChans_keeps LatchedKept.respects (State.settleAll_latched (State.forAll_keeps LatchedKept.respects (LatchedKept.refl s)
    fun x u => State.processLatched_latched (LatchedKept.refl u))) fun n u => ?_
  split
  · exact LatchedKept.refl u
  · exact State.applyDeferred_latched (LatchedKept.refl u)

/-- The control cluster is there again. -/
def State.clusterThere (s : State) : State := { s with dev := { s.dev with ccAbsent := false } }

/-- A firmware on proof gets its deadline d. -/
def State.fwDeadline (s : State) (d : Nat) : State :=
  if s.devfw.onProof && s.devfw.deadline.isNone then { s with devfw := { s.devfw with deadline := some d } } else s

theorem State.fwDeadline_parts (s : State) (d : Nat) : (s.fwDeadline d).dev = s.dev ∧ (s.fwDeadline d).mbx = s.mbx ∧
    ((s.fwDeadline d).devfw.onProof = true → (s.fwDeadline d).devfw.deadline.isSome = true) := by
  unfold State.fwDeadline
  split
  · exact ⟨rfl, rfl, fun _ => rfl⟩
  · rename_i h
    refine ⟨rfl, rfl, fun hp => ?_⟩
    cases hd : s.devfw.deadline with
    | none => exact absurd (by rw [hp, hd]; rfl) h
    | some d => rfl

theorem exec_ccRestartDone {s : State} (h : s.dev.ccAbsent = true) :
    exec .ccRestartDone s = .next ((s.clusterThere.unlatch.carryOn s.clusterThere.latchedWrites).fwDeadline
      ((s.clusterThere.unlatch.carryOn s.clusterThere.latchedWrites).now + 60 * second)) := by
  refine congrArg Host.Outcome.next ((if_neg (by simp [h])).trans ?_)
  unfold State.fwDeadline State.carryOn State.unlatch State.clusterThere
  dsimp only <;> rfl

/-- The state after an internal expiry of state s, whose cluster flag says where a firmware proof takes the place of steps 1 and 2. -/
def State.LadderTook (s : State) (src : Nat) (cluster : Bool) (t : State) : Prop :=
  t.intw.src = BitVec.ofNat 3 src ∧ t.intw.consec = satInc s.intw.consec ∧ t.intw.total = satInc s.intw.total ∧
    (if s.dcfg.tries ≤ (satInc s.intw.consec).toNat then t.intw.step = 3 ∧ t.dev.state = .safeHold
     else t.intw.step = (if satInc s.intw.consec = 1 then 1 else 2) ∧
      (if cluster = true ∧ s.devfw.onProof = true then s.fwTable.onProof.isSome = true → t.devfw.onProof = false
       else if satInc s.intw.consec = 1 then
         s.dev.state ∈ [DevState.start, .running, .safeHold, .standby] → t.dev.ccAbsent = true ∧ t.dev.state = s.dev.state
       else t.dev.state = .shadow ∧ t.dev.resetCause = 3))

theorem State.internalExpiry_eq (s : State) (src : Nat) (cluster : Bool) :
    s.internalExpiry src cluster =
      if (s.countInternal src).ladderStep = 3 then (s.expiryNoted src).enterSafeHold
      else if cluster && (s.expiryNoted src).devfw.onProof then (s.expiryNoted src).revertFw src
      else if (s.countInternal src).ladderStep = 1 then (s.expiryNoted src).ccRestart src
      else (s.expiryNoted src).warmReset (some 3) := rfl

theorem State.ladderStep_counted (s : State) (src : Nat) : (s.countInternal src).ladderStep =
    if s.dcfg.tries ≤ (satInc s.intw.consec).toNat then 3 else if satInc s.intw.consec = 1 then 1 else 2 := by
  unfold State.ladderStep State.countInternal
  rfl

/-- An internal expiry takes its step (R163, R164). -/
theorem State.internalExpiry_took (s : State) (src : Nat) (cluster : Bool) : s.LadderTook src cluster (s.internalExpiry src cluster) := by
  have hcnt := s.expiryNoted_counted src
  have hfr := s.expiryNoted_frame src
  have hdev : (s.expiryNoted src).dev = s.dev := hfr .dev (by decide)
  have hfw : (s.expiryNoted src).devfw = s.devfw := hfr .devfw (by decide)
  have htab : (s.expiryNoted src).fwTable = s.fwTable := by
    unfold State.fwTable
    rw [hfw]
  rw [State.internalExpiry_eq, s.ladderStep_counted src, hfw]
  generalize s.expiryNoted src = u at *
  unfold State.LadderTook
  have hparts : ∀ (t : State) b, t.intw = { u.intw with halted := b } → t.intw.src = BitVec.ofNat 3 src ∧
      t.intw.consec = satInc s.intw.consec ∧ t.intw.total = satInc s.intw.total ∧
      t.intw.step = BitVec.ofNat 3 (if s.dcfg.tries ≤ (satInc s.intw.consec).toNat then 3 else if satInc s.intw.consec = 1 then 1 else 2) :=
    fun t b h => hcnt.congr b h
  by_cases htries : s.dcfg.tries ≤ (satInc s.intw.consec).toNat
  · simp only [if_pos htries] at hparts ⊢
    have hi : u.enterSafeHold.intw = u.intw := State.enterSafeHold_frame (Frame.refl _ u) (Field.sub_refl _) .intw (by decide)
    obtain ⟨h1, h2, h3, h4⟩ := hparts u.enterSafeHold u.intw.halted hi
    exact ⟨h1, h2, h3, h4, u.enterSafeHold_state⟩
  · simp only [if_neg htries] at hparts ⊢
    by_cases hp : cluster = true ∧ s.devfw.onProof = true
    · rw [if_neg (by split <;> decide), if_pos (by simp [hp]), if_pos hp]
      obtain ⟨b, hb⟩ := u.revertFw_intw src
      obtain ⟨h1, h2, h3, h4⟩ := hparts _ b hb
      refine ⟨h1, h2, h3, ?_, fun h => State.revertFw_ends (htab ▸ h)⟩
      rw [h4]
      split <;> rfl
    · rw [if_neg (by split <;> decide), if_neg (by simpa using hp), if_neg hp]
      by_cases h1 : satInc s.intw.consec = 1
      · simp only [if_pos h1] at hparts ⊢
        rw [if_pos trivial]
        have hi : (u.ccRestart src).intw = u.intw := State.ccRestart_frame (Frame.refl _ u) (Field.sub_refl _) .intw (by decide)
        obtain ⟨h1, h2, h3, h4⟩ := hparts (u.ccRestart src) u.intw.halted hi
        refine ⟨h1, h2, h3, h4, fun h => ?_⟩
        have ha := State.ccRestart_absent (s := u) (cause := src) (hdev ▸ h)
        rw [hdev] at ha
        exact ha
      · simp only [if_neg h1] at hparts ⊢
        rw [if_neg (by decide)]
        obtain ⟨h1, h2, h3, h4⟩ := hparts (u.warmReset (some 3)) false (u.warmInto_intw (some 3) .shadow)
        exact ⟨h1, h2, h3, h4, u.warmReset_dev⟩

/-- What came before the expiry matters only by what the ladder reads. -/
theorem State.LadderTook.of_before {s u t : State} {src : Nat} {cluster : Bool} (h : u.LadderTook src cluster t) (hi : u.intw = s.intw)
    (hd : u.dcfg = s.dcfg) (hf : u.devfw = s.devfw) (hdev : u.dev.state = s.dev.state) : s.LadderTook src cluster t := by
  have htab : u.fwTable = s.fwTable := by
    unfold State.fwTable
    rw [hf]
  unfold State.LadderTook at h
  rw [hi, hd, hf, hdev, htab] at h
  exact h

end Sys2Proof.Machine

namespace Sys2Proof

open Sys2Proof.Machine

/-- The expiries that the ladder counts. -/
theorem exec_internalExpiry {s : State} {c : Instr} {src : Nat} {cluster : Bool}
    (h : c = .ccWatchdogExpiry ∧ src = 1 ∧ cluster = true ∧ s.clusterRuns = true ∧ s.intw.halted = false ∧ s.dev.state ≠ .standby ∨
        (∃ p, c = .lockstepMismatch p) ∧ src = 2 ∧ cluster = true ∧ s.clusterRuns = true ∨
        (∃ k, c = .burinCoreWatchdog k ∧ (s.core k).job.isSome = true) ∧ src = 3 ∧ cluster = false ∨
        c = .graverWatchdog ∧ src = 4 ∧ cluster = false ∧ (s.otp.busy.isSome = true ∨ s.dev.state = .shadow) ∨
        (∃ m, c = .ringEngineWatchdog m ∧ (s.ring m).sqs.any (s.takesPart m) = true) ∧ src = 5 ∧ cluster = false) :
    ∃ t, exec c s = .next t ∧ s.LadderTook src cluster t := by
  rcases h with ⟨rfl, rfl, rfl, hr, hh, hs⟩ | ⟨⟨p, rfl⟩, rfl, rfl, hr⟩ | ⟨⟨k, rfl, hj⟩, rfl, rfl⟩ | ⟨rfl, rfl, rfl, hb⟩ | ⟨⟨m, rfl, hq⟩, rfl, rfl⟩
  · exact ⟨_, congrArg Host.Outcome.next ((if_neg (by simp [hr, hh])).trans (if_neg hs)), s.internalExpiry_took 1 true⟩
  · exact ⟨_, congrArg Host.Outcome.next (if_pos hr), s.internalExpiry_took 2 true⟩
  · obtain ⟨j, hj⟩ := Option.isSome_iff_exists.mp hj
    have he : exec (.burinCoreWatchdog k) s =
        .next ((((s.until (j.since + 2 ^ 24)).coreOut k coreWatchdog true).dispatchJobs).internalExpiry 3 false) := by
      have he' : exec (.burinCoreWatchdog k) s = .next (match (s.core k).job with
        | some j => ((s.until (j.since + 2 ^ 24)).coreOut k coreWatchdog true).dispatchJobs.internalExpiry 3 false
        | none => s) := rfl
      rw [he', hj]
    have hfr : Frame [.now, .rings, .views, .awaits, .burin, .keys, .dev] s
        ((s.until (j.since + 2 ^ 24)).coreOut k coreWatchdog true).dispatchJobs :=
      State.dispatchJobs_frame (State.coreOut_frame (State.until_frame (Frame.refl _ s) (by decide)) (by decide)) (by decide)
    have hdev : DevKept (s.until (j.since + 2 ^ 24)) ((s.until (j.since + 2 ^ 24)).coreOut k coreWatchdog true).dispatchJobs :=
      State.dispatchJobs_dev (State.coreOut_dev (DevKept.refl _))
    exact ⟨_, he, (State.internalExpiry_took _ 3 false).of_before (hfr .intw (by decide)) (hfr .dcfg (by decide)) (hfr .devfw (by decide)) hdev.state⟩
  · have hfr := State.endOtp_frame (Frame.refl _ s) (Field.sub_refl _) (st := stAborted)
    have hdev : DevKept s (s.endOtp stAborted) := State.endOtp_dev (DevKept.refl s)
    exact ⟨_, congrArg Host.Outcome.next (if_pos (by simpa using hb)), (State.internalExpiry_took _ 4 false).of_before (hfr .intw (by decide))
      (hfr .dcfg (by decide)) (hfr .devfw (by decide)) hdev.state⟩
  · have he : exec (.ringEngineWatchdog m) s = .next (match ((s.ring m).sqs.filter fun e => s.takesPart m e).map fun e => e.2.fetchFrom with
      | t :: l => State.internalExpiry ((s.until (l.foldl min t + 2 ^ 20)).modRing m fun r => { r with
          sqs := r.sqs.map fun e => (e.1, { e.2 with prefetch := 0, fetchFrom := (s.until (l.foldl min t + 2 ^ 20)).now }) }) 5 false
      | [] => s) := rfl
    cases hl : ((s.ring m).sqs.filter fun e => s.takesPart m e).map fun e => e.2.fetchFrom with
    | nil =>
      obtain ⟨e, he, ht⟩ := List.any_eq_true.mp hq
      exact absurd (List.mem_filter.mpr ⟨he, ht⟩) (by rw [List.map_eq_nil_iff.mp hl]; exact List.not_mem_nil)
    | cons t l =>
      rw [hl] at he
      exact ⟨_, he, (State.internalExpiry_took _ 5 false).of_before rfl rfl rfl rfl⟩

/-- Settles O43: every expiry takes the ladder's step, and the return of the control cluster leaves its word and the emptied latches. -/
theorem internalLadderTakesItsStep : Obligations.InternalLadderTakesItsStep := by
  intro s
  refine ⟨fun c src cluster h => exec_internalExpiry h, fun hd => ?loss, fun hk => ?back, fun hcc => ?cluster⟩
  case loss =>
    have hch : ∀ n, ((s.warmInto (some 4) .por).ch n).sink = true := by
      intro n
      unfold State.ch State.warmInto
      rw [State.setDev_ctl]
      exact s.warmClear_sink n
    obtain ⟨hstate, hcause⟩ := s.warmInto_dev 4 .por
    refine ⟨_, congrArg Host.Outcome.next (if_neg hd), ?_⟩
    generalize s.warmInto (some 4) .por = u at *
    exact ⟨hstate, rfl, hcause, rfl, hch⟩
  case back =>
    have hb := fun step => s.clockBack_parts step
    have hend : ∀ u : State, ((if u.dev.safeLatch then u else { u with plat := { u.plat with failOn := false, failUntil := none } }).dev = u.dev) ∧
        (if u.dev.safeLatch then u else { u with plat := { u.plat with failOn := false, failUntil := none } }).intw = u.intw := by
      intro u
      split <;> exact ⟨rfl, rfl⟩
    refine ⟨_, exec_mainClockReturn hk, ?_⟩
    rw [(hend _).1, (hend _).2, (hb _).1, (hb _).2.1, (hb _).2.2]
    exact ⟨rfl, rfl, rfl, rfl, fun h => (Bool.or_eq_true _ _).mpr (.inr (decide_eq_true (if_pos h)))⟩
  case cluster =>
    have he := exec_ccRestartDone hcc
    have hkept := s.clusterThere.unlatch.carryOn_dev s.clusterThere.latchedWrites
    have hlatch := s.clusterThere.unlatch.carryOn_latched s.clusterThere.latchedWrites
    have hthere : s.clusterThere.unlatch.dev.ccAbsent = false := by
      have h : s.clusterThere.unlatch.dev = s.clusterThere.dev :=
        State.forChans_frame (Frame.refl [.mbx] s.clusterThere) (fun n u => State.modMbx_frame (Frame.refl _ u) (by decide)) .dev (by decide)
      rw [h]
      rfl
    generalize s.clusterThere.unlatch.carryOn s.clusterThere.latchedWrites = u at *
    obtain ⟨hdev, hmbx, hproof⟩ := u.fwDeadline_parts (u.now + 60 * second)
    refine ⟨_, he, ?_, fun n => ?_, hproof⟩
    · rw [hdev, hkept]
      exact hthere
    · unfold State.mb
      rw [hmbx]
      exact (hlatch n).trans (State.unlatch_latched _ n)

end Sys2Proof

end


section
/-! SUPPORT. The commands of plates that answer at once (R112, R229): IMAGE_STAGE, PLATE_ERASE and PLATE_STATUS. -/

namespace Sys2Proof.Machine

open Sys2Proof

/-! ## The outcome of an Ovdel command that is taken -/

theorem State.ovdel_takes {s : State} {src : Src} {g : Gate} (body : State → State) (h : s.takes src g) :
    s.ovdel src g body = (body s).noteCommit s src := State.ovdelOr_takes _ _ h

/-- Every part that neither an answer nor the ledger changes is as the command's own work leaves it. -/
theorem State.answered_frame (s u : State) (src : Src) (a : Answer) :
    Frame [.awaits, .dev, .rings, .views, .led] u ((u.deliver src a).noteCommit s src) := by
  obtain ⟨l, hl⟩ := State.noteCommit_eq (u.deliver src a) s src
  rw [hl]
  exact Frame.put_led (State.deliver_frame (Frame.refl _ u) (by decide)) (by decide)

theorem State.answered_plt (s u : State) (src : Src) (a : Answer) : ((u.deliver src a).noteCommit s src).plt = u.plt :=
  State.answered_frame s u src a .plt (by decide)

theorem State.answered_plates (s u : State) (src : Src) (a : Answer) (n : Fin 128) :
    ((u.deliver src a).noteCommit s src).plates n = u.plates n :=
  congrArg (fun v => ((vget v n).table.cur).getD PTable.empty) (State.answered_plt s u src a)

theorem State.answered_pl (s u : State) (src : Src) (a : Answer) (n : Fin 128) : ((u.deliver src a).noteCommit s src).pl n = u.pl n :=
  congrArg (fun v => vget v n) (State.answered_plt s u src a)

/-- An answer alone makes no commit. -/
theorem State.answered_alone (s : State) (src : Src) (a : Answer) : (s.deliver src a).noteCommit s src = s.deliver src a :=
  if_pos (congrArg Ledger.commits (State.deliver_led _ _ _))

theorem State.withPlate_on {s : State} {src : Src} {n : Fin 128} {plate : Byte} {p : PlateId} (body : PlateId → State → State)
    (hp : plateOf plate.toNat = some p) (hv : s.poolUnder13 src n p = false) : s.withPlate src n plate body = body p s := by
  unfold State.withPlate
  rw [hp]
  exact if_neg (by simp [hv])

/-! ## Parts of what one channel keeps about its plates -/

@[simp] theorem PerPlate.get_set_self {α : Type} (x : PerPlate α) (p : PlateId) (v : α) : (x.set p v).get p = v := by cases p <;> rfl

theorem PerPlate.set_get {α : Type} (x : PerPlate α) (p : PlateId) : x.set p (x.get p) = x := by cases p <;> rfl

/-- A part of the channel's plates that a commit of the table does not touch. -/
theorem State.commitPlates_pl (s : State) (n : Fin 128) (t : PTable) (cause : Nat) :
    ∃ v, (s.commitPlates n t cause).pl n = { s.pl n with table := v } := by
  unfold State.commitPlates
  split
  · exact ⟨_, rfl⟩
  · cases h : s.seqFull n with
    | true => exact ⟨(s.pl n).table, by unfold State.commitTable; rw [h]; rfl⟩
    | false => exact ⟨_, State.commitTable_pl t cause h⟩

/-! ## Staging -/

/-- The bytes of a run stand from its offset on, and every other byte is as it was. -/
theorem putBytes_get (data : List Byte) (m : SMap Byte) (off a : Nat) :
    SMap.get? (putBytes m off data) a = if off ≤ a ∧ a < off + data.length then data[a - off]? else SMap.get? m a := by
  unfold putBytes
  induction data generalizing m off with
  | nil => rw [if_neg (by rw [List.length_nil]; omega)]; rfl
  | cons b data ih =>
    rw [List.foldl_cons, ih, SMap.get?_put]
    simp only [List.length_cons]
    by_cases ha : off = a
    · subst ha
      rw [if_neg (by omega), if_pos rfl, if_pos (by omega), Nat.sub_self]
      rfl
    · rw [if_neg ha]
      by_cases hlt : off + 1 ≤ a ∧ a < off + 1 + data.length
      · rw [if_pos hlt, if_pos (by omega), show a - off = (a - (off + 1)) + 1 by omega, List.getElem?_cons_succ]
      · rw [if_neg hlt, if_neg (by omega)]

/-- The staging of the plate once the command's own staging has begun. -/
def State.begun (s : State) (m : Mgr) (n : Fin 128) (p : PlateId) : State := if s.stagesOwn m n p then s else s.beginStaging m n p

theorem State.begun_parts {s : State} {m : Mgr} {n : Fin 128} {p : PlateId} (hf : s.stagesOwn m n p = false → s.seqFull n = false) :
    (((s.begun m n p).plates n).get p).state = .staging ∧
      ((s.begun m n p).pl n).staging.get p = { s.stagedSoFar m n p with claim := some (.manager m) } := by
  unfold State.begun State.stagedSoFar
  cases ho : s.stagesOwn m n p with
  | true =>
    obtain ⟨hst, hcl⟩ : ((s.plates n).get p).state = .staging ∧ ((s.pl n).staging.get p).claim = some (.manager m) := by
      simpa [State.stagesOwn] using ho
    refine ⟨hst, ?_⟩
    rw [if_pos rfl, if_pos rfl, ← hcl]
  | false =>
    rw [if_neg Bool.false_ne_true, if_neg Bool.false_ne_true]
    have hf' := hf ho
    unfold State.beginStaging
    dsimp only
    generalize hu : s.modPlt n _ = u
    have huf : u.seqFull n = false := by
      rw [← hf', ← hu, State.seqFull, State.modPlt_pl]
      rfl
    constructor
    · rw [State.commitTable_plates _ _ huf]
      have hn := congrArg Plate.state (State.recordOf_noAdv u n ((u.plates n).set p ((u.polOf n).plate.stagingEntry p false)) p)
      rw [PTable.get_set_self] at hn
      exact hn
    · rw [State.commitTable_pl _ _ huf, ← hu, State.modPlt_pl]
      exact PerPlate.get_set_self _ _ _

theorem State.stagePart_pl (s : State) (n : Fin 128) (p : PlateId) (part : Byte) (off : Nat) (data : List Byte) :
    (s.stagePart n p part off data).pl n =
      { s.pl n with staging := (s.pl n).staging.set p (((s.pl n).staging.get p).withPart part off data) } := by
  unfold State.stagePart
  dsimp only
  split
  · exact (congrArg (fun v => vget v n) (State.localWrite_frame (Frame.refl [.fps] _) (by decide) .plt (by decide))).trans
      (State.modPlt_pl _ _ _)
  · exact State.modPlt_pl _ _ _

/-- One more part changes the bytes of that part alone. -/
theorem Staging.withPart_parts (x : Staging) (part : Byte) (off : Nat) (data : List Byte) :
    (x.withPart part off data).claim = x.claim ∧
      (if part = 0 then (x.withPart part off data).img else (x.withPart part off data).man) = (if part = 0 then x.img else x.man) ∧
      (if part = 0 then (x.withPart part off data).man else (x.withPart part off data).img) =
        putBytes (if part = 0 then x.man else x.img) off data := by
  unfold Staging.withPart
  by_cases h : part = 0
  · simp only [if_pos h, and_self]
  · simp only [if_neg h, and_self]

/-- IMAGE_STAGE of a command that is taken, of a plate that the version permits. -/
theorem exec_imageStage {s : State} {src : Src} {ch : Half} {n : Fin 128} {plate part : Byte} {p : PlateId} {offset : Nat} {data : List Byte}
    (hch : ch.toNat = n.1) (hon : s.chanOn n = true) (hp : plateOf plate.toNat = some p)
    (ha : s.allows (.imageStage src ch plate part offset data)) (hv : s.poolUnder13 src n p = false) (hpart : part.toNat ≤ 1) :
    exec (.imageStage src ch plate part offset data) s = .next
      (if s.stageStatus src.mgr n p part offset data = stSuccess then
        (((s.begun src.mgr n p).stagePart n p part offset data).deliver src (okAns []
          (bval (((s.begun src.mgr n p).stagePart n p part offset data).objectPresent n p)))).noteCommit s src
      else s.deliver src (ans (s.stageStatus src.mgr n p part offset data)
        (if s.stageStatus src.mgr n p part offset data = stInvalidField then
          (s.stageField src.mgr n p part offset data.length).getD 8 else 0))) := by
  have ht : s.takes src (gateOf (.imageStage src ch plate part offset data)) := ha _ _ rfl
  refine congrArg Host.Outcome.next ((State.ovdel_takes _ ht).trans ?_)
  rw [State.withChan_on _ hch hon, State.withPlate_on _ hp hv, if_neg (by omega)]
  by_cases hs : s.stageStatus src.mgr n p part offset data = stSuccess
  · rw [if_pos hs]
    exact congrArg (fun t : State => t.noteCommit s src) (if_neg (not_not.mpr hs))
  · rw [if_neg hs]
    exact (congrArg (fun t : State => t.noteCommit s src) (if_pos hs)).trans (State.answered_alone _ _ _)

/-- A part that is staged: the plate is STAGING, claimed by its manager, and the part's bytes alone change. -/
theorem State.staged_parts {s : State} {m : Mgr} {n : Fin 128} {p : PlateId} {part : Byte} {off : Nat} {data : List Byte}
    (hs : s.stageStatus m n p part off data = stSuccess) :
    ((((s.begun m n p).stagePart n p part off data).plates n).get p).state = .staging ∧
      (((s.begun m n p).stagePart n p part off data).pl n).staging.get p =
        { s.stagedSoFar m n p with claim := some (.manager m) }.withPart part off data := by
  have hf : s.stagesOwn m n p = false → s.seqFull n = false := fun ho => by
    unfold State.stageStatus at hs
    rw [ho] at hs
    by_contra hc
    simp only [Bool.not_eq_false] at hc
    simp only [hc, Bool.not_false, Bool.and_self, if_true] at hs
    split_ifs at hs <;> exact absurd hs (by decide)
  obtain ⟨hst, hx⟩ := State.begun_parts hf
  have hpl := State.stagePart_pl (s.begun m n p) n p part off data
  constructor
  · rw [State.plates, hpl]
    exact hst
  · rw [hpl, PerPlate.get_set_self, hx]

/-! ## Erasing -/

theorem State.dropObject_plt (s : State) (fam root : List Byte) : (s.dropObject fam root).plt = s.plt :=
  State.dropObject_frame (Frame.refl [.led, .pool] s) (by decide) .plt (by decide)

theorem State.localWrite_plt (s : State) (n : Fin 128) (erase : Bool) (len : Nat) : (s.localWrite n erase len).plt = s.plt :=
  State.localWrite_frame (Frame.refl [.fps] s) (by decide) .plt (by decide)

theorem State.seqFull_of_eraseStatus {s : State} {m : Mgr} {n : Fin 128} {p : PlateId} (h : s.eraseStatus m n p = stSuccess)
    (hf : s.seqFull n = true) : ((s.plates n).get p).state = .empty := by
  unfold State.eraseStatus at h
  by_contra hne
  simp only [hf, Bool.and_true, hne, ne_eq, not_false_eq_true, decide_true, if_true] at h
  split_ifs at h <;> exact absurd h (by decide)

/-- An erased plate is EMPTY, unclaimed, and holds no manifest. -/
theorem State.erasePlate_parts {s : State} {m : Mgr} {n : Fin 128} {p : PlateId} (h : s.eraseStatus m n p = stSuccess) :
    (((s.erasePlate n p).plates n).get p).state = .empty ∧ (((s.erasePlate n p).pl n).staging.get p).claim = none ∧
      ((s.erasePlate n p).pl n).localMan.get p = [] := by
  have hst : (((s.commitPlates n ((s.plates n).set p Plate.empty) pcErased).plates n).get p).state = .empty := by
    cases hf : s.seqFull n with
    | false => rw [State.commitPlates_state _ _ hf, PTable.get_set_self]; rfl
    | true =>
      have hsame : s.commitPlates n ((s.plates n).set p Plate.empty) pcErased = s := by
        unfold State.commitPlates State.commitTable
        rw [hf]
        split <;> rfl
      rw [hsame]
      exact State.seqFull_of_eraseStatus h hf
  unfold State.erasePlate
  dsimp only
  generalize s.commitPlates n ((s.plates n).set p Plate.empty) pcErased = u at hst
  have key : ∀ t : State, t.plt = (u.modPlt n fun y => { y with
      staging := y.staging.set p Staging.reset, localMan := y.localMan.set p [], confirmed := y.confirmed.set p false }).plt →
      ((t.plates n).get p).state = .empty ∧ ((t.pl n).staging.get p).claim = none ∧ (t.pl n).localMan.get p = [] := by
    intro t ht
    rw [State.plates, State.pl, ht]
    change (((((u.modPlt n _).pl n).table.cur).getD PTable.empty).get p).state = .empty ∧ (((u.modPlt n _).pl n).staging.get p).claim = none ∧
      ((u.modPlt n _).pl n).localMan.get p = []
    rw [State.modPlt_pl]
    exact ⟨hst, by rw [PerPlate.get_set_self]; rfl, PerPlate.get_set_self _ _ _⟩
  split
  · exact key _ (State.dropObject_plt _ _ _)
  · split
    · exact key _ (State.localWrite_plt _ _ _ _)
    · exact key _ rfl

theorem exec_plateErase {s : State} {src : Src} {ch : Half} {n : Fin 128} {plate : Byte} {p : PlateId} (hch : ch.toNat = n.1)
    (hon : s.chanOn n = true) (hp : plateOf plate.toNat = some p) (ha : s.allows (.plateErase src ch plate)) :
    exec (.plateErase src ch plate) s = .next
      (if s.eraseStatus src.mgr n p = stSuccess then ((s.erasePlate n p).deliver src okAns).noteCommit s src
      else s.deliver src (ans (s.eraseStatus src.mgr n p))) := by
  have ht : s.takes src (gateOf (.plateErase src ch plate)) := ha _ _ rfl
  refine congrArg Host.Outcome.next ((State.ovdel_takes _ ht).trans ?_)
  rw [State.withChan_on _ hch hon, hp]
  by_cases hs : s.eraseStatus src.mgr n p = stSuccess
  · rw [if_pos hs]
    exact congrArg (fun t : State => t.noteCommit s src) (if_pos hs)
  · rw [if_neg hs]
    exact (congrArg (fun t : State => t.noteCommit s src) (if_neg hs)).trans (State.answered_alone _ _ _)

/-! ## PLATE_STATUS -/

theorem exec_plateStatus {s : State} {src : Src} {ch : Half} {n : Fin 128} {len : Nat} (hch : ch.toNat = n.1) (hon : s.chanOn n = true)
    (ha : s.allows (.plateStatus src ch len)) :
    exec (.plateStatus src ch len) s = .next
      (if len < 304 then s.deliver src (ans stInvalidField 24)
      else s.deliver src { okAns ([BitVec.ofNat 8 (s.plates n).a.state.code, BitVec.ofNat 8 (s.plates n).b.state.code,
        BitVec.ofNat 8 (s.plates n).recov.state.code, 0] ++ leBytes 4 (s.pl n).table.seq ++ [BitVec.ofNat 8 (s.plateField n 0xFF)]) with
          data := some (s.plateRecord n) }) := by
  have ht : s.takes src (gateOf (.plateStatus src ch len)) := ha _ _ rfl
  refine congrArg Host.Outcome.next ((State.ovdel_takes _ ht).trans ?_)
  rw [State.withChan_on _ hch hon]
  dsimp only
  split <;> exact State.answered_alone _ _ _

end Sys2Proof.Machine
end


section
/-! SUPPORT. IMAGE_COMMIT (R112, R201): a job of the device on Burin, then the checks, and the plate that is verified. -/

namespace Sys2Proof.Machine

open Sys2Proof

/-! ## The job that verifies -/

/-- A job of the device without a fault runs on Burin alone. -/
theorem State.internalJob_clean (s : State) (op time : Nat) : s.internalJob op time 0 = (true, s.internalRun time) := rfl

/-- Two runs that fail make the operation fail (R201). -/
theorem State.internalJob_faulted (s : State) (op time : Nat) {faults : Nat} (h : 2 ≤ faults) : (s.internalJob op time faults).1 = false := by
  match faults, h with
  | k + 2, _ => rfl

/-- The state in which a commit is judged: before it, the conditions that need no job. -/
def State.commitJob (s : State) (m : Mgr) (n : Fin 128) (p : PlateId) (faults : Nat) : Bool × State :=
  if (s.commitEarly m n p).isSome then (true, s) else s.internalJob 0x02 210000 faults

theorem State.commitJob_clean (s : State) (m : Mgr) (n : Fin 128) (p : PlateId) :
    (s.commitJob m n p 0).1 = true ∧ Frame [.burin] s (s.commitJob m n p 0).2 := by
  unfold State.commitJob
  split
  · exact ⟨rfl, Frame.refl _ s⟩
  · exact ⟨rfl, State.internalRun_frame (Frame.refl _ s) (by decide)⟩

theorem State.commitJob_faulted {s : State} {m : Mgr} {n : Fin 128} {p : PlateId} {faults : Nat} (h : 2 ≤ faults)
    (he : s.commitEarly m n p = none) : (s.commitJob m n p faults).1 = false := by
  unfold State.commitJob
  rw [he]
  exact State.internalJob_faulted _ _ _ h

/-! ## A plate that is verified -/

theorem State.keepTaken_same (s : State) (n : Fin 128) (p : PlateId) (man : List Byte) (mem : Option Memory) :
    Frame [.imm, .trace] s (s.keepTaken n p man mem) := State.keepTaken_frame (Frame.refl _ s) (by decide)

theorem State.storePool_same (s : State) (man : List Byte) (img : Memory) : Frame [.led, .pool] s (s.storePool man img) :=
  State.storePool_frame (Frame.refl _ s) (by decide)

/-- What STAGED commits (R107, R112). -/
theorem State.commitStaged_parts {s : State} {n : Fin 128} {p : PlateId} (man : List Byte) (host conf : Bool) (hf : s.seqFull n = false) :
    (((s.commitStaged n p man host conf).plates n).get p).noAdv =
        { (s.polOf n).plate.stagedEntry p man host with src := ((s.plates n).get p).src, locBase := ((s.plates n).get p).locBase }.noAdv ∧
      (((s.commitStaged n p man host conf).pl n).staging.get p) = Staging.reset ∧ (s.commitStaged n p man host conf).pool = s.pool := by
  unfold State.commitStaged
  dsimp only
  generalize hu : s.modPlt n _ = u
  have huf : u.seqFull n = false := by
    rw [← hf, ← hu, State.seqFull, State.modPlt_pl]
    rfl
  have hp := State.commitPlates_plate (s := u) ((u.plates n).set p
    { (s.polOf n).plate.stagedEntry p man host with src := ((s.plates n).get p).src, locBase := ((s.plates n).get p).locBase }) pcStaged huf p
  rw [PTable.get_set_self] at hp
  refine ⟨hp, ?_, ?_⟩
  · obtain ⟨v, hv⟩ := State.commitPlates_pl u n ((u.plates n).set p
      { (s.polOf n).plate.stagedEntry p man host with src := ((s.plates n).get p).src, locBase := ((s.plates n).get p).locBase }) pcStaged
    rw [hv, ← hu, State.modPlt_pl]
    exact PerPlate.get_set_self _ _ _
  · refine (State.commitPlates_frame (Frame.refl [.led, .plt, .rings, .trace] u) (by decide) .pool (by decide)).trans ?_
    rw [← hu]
    rfl

theorem State.storePool_holds {s : State} {man : List Byte} (img : Memory) (h : s.poolHolds man = true) :
    ((s.storePool man img).poolObj (manFamily man) (manRoot man)).isSome = true := by
  unfold State.storePool
  split
  · assumption
  · rename_i hn
    unfold State.poolHolds State.poolFull at h
    have hb : s.pool.mapBad = false := by
      by_contra hb
      simp [hb, hn] at h
    simp [State.poolObj, State.setObjects, hb]

/-- The state in which STAGED is committed: the object stored, the impression kept. -/
def State.kept (s : State) (n : Fin 128) (p : PlateId) (mem : Option Memory) : State :=
  State.keepTaken (if ((s.plates n).get p).src = 2 || s.objectPresent n p then s
    else s.storePool ((s.pl n).staging.get p).manifest ((s.pl n).staging.get p).image) n p ((s.pl n).staging.get p).manifest mem

theorem State.commitVerified_eq (s : State) (n : Fin 128) (p : PlateId) (mem : Option Memory) :
    s.commitVerified n p mem = (s.kept n p mem).commitStaged n p ((s.pl n).staging.get p).manifest false (((s.plates n).get p).src = 2) := rfl

theorem State.kept_same (s : State) (n : Fin 128) (p : PlateId) (mem : Option Memory) : Frame [.led, .pool, .imm, .trace] s (s.kept n p mem) := by
  refine State.keepTaken_frame ?_ (by decide)
  split
  · exact Frame.refl _ s
  · exact State.storePool_frame (Frame.refl _ s) (by decide)

theorem State.kept_holds {s : State} {n : Fin 128} {p : PlateId} (mem : Option Memory) (h : ((s.plates n).get p).src ≠ 2)
    (hp : s.poolHolds ((s.pl n).staging.get p).manifest = true) :
    ((s.kept n p mem).poolObj (manFamily ((s.pl n).staging.get p).manifest) (manRoot ((s.pl n).staging.get p).manifest)).isSome = true := by
  unfold State.kept
  rw [State.poolObj, State.keepTaken_same _ _ _ _ _ .pool (by decide)]
  split
  · have ho : s.objectPresent n p = true := by
      rename_i hc
      simpa only [Bool.or_eq_true, decide_eq_true_eq, h, false_or] using hc
    unfold State.objectPresent at ho
    exact (Bool.and_eq_true_iff.mp ho).2
  · exact State.storePool_holds _ hp

theorem State.commitEarly_fails {s : State} {m : Mgr} {n : Fin 128} {p : PlateId} {st : Status} (h : s.commitEarly m n p = some st) :
    st ≠ stSuccess := by
  unfold State.commitEarly at h
  dsimp only at h
  split_ifs at h <;> exact Option.some.inj h ▸ by decide

/-- A verdict that reports SUCCESS only where the checks pass. -/
def Verdict.Honest (v : Verdict) : Prop := v.status = stSuccess → v = .ok

theorem Verdict.honest_ite {c : Prop} [Decidable c] {v w : Verdict} (hv : v.Honest) (hw : w.Honest) : (if c then v else w).Honest := by
  split
  · exact hv
  · exact hw

theorem Verdict.honest_ok : Verdict.ok.Honest := fun _ => rfl

theorem Verdict.honest_of_ne {v : Verdict} (h : v.status ≠ stSuccess) : v.Honest := fun hs => absurd hs h

/-- The checks of R79 report SUCCESS only where they pass. -/
theorem State.checkManifest_honest (s : State) (n : Fin 128) (man : List Byte) : (s.checkManifest n man).Honest := by
  unfold State.checkManifest
  dsimp only
  iterate 7 refine Verdict.honest_ite (Verdict.honest_of_ne (by decide)) ?_
  refine Verdict.honest_ite ?_ Verdict.honest_ok
  split
  · iterate 3 refine Verdict.honest_ite (Verdict.honest_of_ne (by decide)) ?_
    exact Verdict.honest_ok
  · exact Verdict.honest_of_ne (by decide)

/-- A commit that is judged good leaves room for its record, and in the pool for its object. -/
theorem State.room_of_commitStatus {s : State} {m : Mgr} {n : Fin 128} {p : PlateId} {readback : Option (List Byte)}
    (h : (s.imageCommitStatus m n p readback).1 = stSuccess) :
    s.seqFull n = false ∧ (((s.plates n).get p).src ≠ 2 → s.poolHolds ((s.pl n).staging.get p).manifest = true) := by
  unfold State.imageCommitStatus at h
  dsimp only at h
  split at h
  · exact absurd h (State.commitEarly_fails ‹_›)
  · split_ifs at h with hleaf hconf hroom hinh hfull
    · exact absurd h hleaf
    · exact absurd h (by decide)
    · exact absurd h (by decide)
    · exact absurd h (by decide)
    · exact absurd h (by decide)
    · refine ⟨Bool.not_eq_true _ ▸ hfull, fun hs => ?_⟩
      simp only [Bool.or_eq_true, Bool.and_eq_true, Bool.not_eq_true', decide_eq_true_eq, not_or, not_and, Bool.not_eq_false] at hroom
      exact hroom.2 hs
  · rename_i hne
    refine absurd ?_ hne
    dsimp only at h
    exact State.checkManifest_honest s n _ h

theorem State.poolObj_pool {s t : State} (h : t.pool = s.pool) (fam root : List Byte) : t.poolObj fam root = s.poolObj fam root := by
  unfold State.poolObj
  rw [h]

/-- The entry stands for the manifest, STAGED. -/
def Plate.StagedAs (e : Plate) (man : List Byte) : Prop :=
  e.state = .staged ∧ e.svn = BitVec.ofNat 32 (manSvn man) ∧ e.build = BitVec.ofNat 64 (manBuild man) ∧ e.family = manFamily man ∧
    e.root = manRoot man

theorem Plate.stagedAs_of_entry {e : Plate} {x : PlatePol} {p : PlateId} {man : List Byte} {host : Bool} {src : Byte} {base : Word}
    (h : e.noAdv = { x.stagedEntry p man host with src := src, locBase := base }.noAdv) : e.StagedAs man :=
  ⟨congrArg Plate.state h, congrArg Plate.svn h, congrArg Plate.build h, congrArg Plate.family h, congrArg Plate.root h⟩

/-- A commit that is judged good: STAGED under its manifest, the claim ended, a pool plate's object stored. -/
theorem State.commitVerified_parts {s : State} {m : Mgr} {n : Fin 128} {p : PlateId} {readback : Option (List Byte)} (mem : Option Memory)
    (h : (s.imageCommitStatus m n p readback).1 = stSuccess) :
    (((s.commitVerified n p mem).plates n).get p).StagedAs ((s.pl n).staging.get p).manifest ∧
      (((s.commitVerified n p mem).pl n).staging.get p).claim = none ∧
      (((s.plates n).get p).src ≠ 2 → ((s.commitVerified n p mem).poolObj (manFamily ((s.pl n).staging.get p).manifest)
        (manRoot ((s.pl n).staging.get p).manifest)).isSome = true) := by
  obtain ⟨hf, hroom⟩ := State.room_of_commitStatus h
  have hplt : (s.kept n p mem).plt = s.plt := State.kept_same s n p mem .plt (by decide)
  have hkf : (s.kept n p mem).seqFull n = false := by
    rw [State.seqFull, State.pl, hplt]
    exact hf
  obtain ⟨hentry, hstaging, hpool⟩ := State.commitStaged_parts (p := p) ((s.pl n).staging.get p).manifest false
    (((s.plates n).get p).src = 2) hkf
  rw [State.commitVerified_eq]
  refine ⟨Plate.stagedAs_of_entry hentry, by rw [hstaging]; rfl, fun hs => ?_⟩
  rw [State.poolObj_pool hpool]
  exact State.kept_holds mem hs (hroom hs)

/-! ## The command -/

/-- What the command's judgement says: the status, the leaf and the verified plaintext. -/
def State.commitJudged (s : State) (m : Mgr) (n : Fin 128) (p : PlateId) (readback : Option (List Byte)) (faults : Nat) :
    Status × Nat × Option Memory :=
  if (s.commitJob m n p faults).1 then (s.commitJob m n p faults).2.imageCommitStatus m n p readback else (stFaultDetected, 0, none)

/-- What a commit that is refused records. -/
def State.commitRefused (u : State) (n : Fin 128) (p : PlateId) (man : List Byte) (r : Status × Nat × Option Memory) : State :=
  if r.1 = stDigestMismatch ∨ r.1 = stSignatureFailed ∨ r.1 = stInvalidField ∨ r.1 = stVersionRollback then
    u.verifyFailed n.1 r.1 p.code man (if r.1 = stDigestMismatch then r.2.1 else 0xFFFFFFFF)
  else u

theorem State.commitRefused_same (u : State) (n : Fin 128) (p : PlateId) (man : List Byte) (r : Status × Nat × Option Memory) :
    Frame [.rings, .trace] u (u.commitRefused n p man r) := by
  unfold State.commitRefused
  split
  · exact State.verifyFailed_frame (Frame.refl _ u) (by decide)
  · exact Frame.refl _ u

/-- The answer to a commit that is verified. -/
def commitAnswer (man : List Byte) : Answer := okAns (leBytes 4 (manSvn man) ++ leBytes 4 (manLeaves man) ++ leBytes 8 (manBuild man))

/-- The answer to a commit that is refused. -/
def refusedAnswer (r : Status × Nat × Option Memory) : Answer := ans r.1 (if r.1 = stDigestMismatch then r.2.1 else 0)

theorem exec_imageCommit {s : State} {src : Src} {ch : Half} {n : Fin 128} {plate : Byte} {p : PlateId} {readback : Option (List Byte)}
    {faults : Nat} (hch : ch.toNat = n.1) (hon : s.chanOn n = true) (hp : plateOf plate.toNat = some p)
    (ha : s.allows (.imageCommit src ch plate ⟨readback, faults⟩)) (hv : s.poolUnder13 src n p = false)
    (hsec : s.isSecondary src.mgr = false) :
    exec (.imageCommit src ch plate ⟨readback, faults⟩) s = .next
      (if (s.commitJudged src.mgr n p readback faults).1 = stSuccess then
        (((s.commitJob src.mgr n p faults).2.commitVerified n p (s.commitJudged src.mgr n p readback faults).2.2).deliver src
          (commitAnswer ((s.pl n).staging.get p).manifest)).noteCommit s src
      else (((s.commitJob src.mgr n p faults).2.commitRefused n p ((s.pl n).staging.get p).manifest
        (s.commitJudged src.mgr n p readback faults)).deliver src (refusedAnswer (s.commitJudged src.mgr n p readback faults))).noteCommit s src) := by
  have ht : s.takes src (gateOf (.imageCommit src ch plate ⟨readback, faults⟩)) := ha _ _ rfl
  refine congrArg Host.Outcome.next ((State.ovdel_takes _ ht).trans ?_)
  rw [State.withChan_on _ hch hon, State.withPlate_on _ hp hv, if_neg (by simp [hsec])]
  exact apply_ite (fun t : State => t.noteCommit s src) _ _ _

/-- A job that a commit needs stands or fails with its status. -/
theorem State.commitJudged_success {s : State} {m : Mgr} {n : Fin 128} {p : PlateId} {readback : Option (List Byte)} {faults : Nat} :
    (s.commitJudged m n p readback faults).1 = stSuccess ↔
      (s.commitJob m n p faults).1 = true ∧ ((s.commitJob m n p faults).2.imageCommitStatus m n p readback).1 = stSuccess := by
  unfold State.commitJudged
  cases (s.commitJob m n p faults).1 with
  | true => simp
  | false => simp [show stFaultDetected ≠ stSuccess by decide]

end Sys2Proof.Machine
end


section
/-! SUPPORT. PLATE_ARM_PROOF (R115): the checks of a plate, arming a live host and arming an idle channel. -/

namespace Sys2Proof.Machine

open Sys2Proof

/-! ## A plate that passes its check -/

/-- What a passed check of an impression rests on: the entry of its pair, in a state that a channel may bind to. -/
def State.PairOk (s : State) (n : Fin 128) (man : List Byte) (i : Fin 256) : Prop :=
  s.lookupPair (manFamily man) (manRoot man) = some i ∧ s.pinsAllow n i = true ∧ (s.dirE i).state ≠ .taking ∧
    (s.dirE i).state ≠ .damaged ∧ ((s.dirE i).state = .relocating → s.relocFits i = true)

theorem State.takeAndWait_ne_ok (s : State) (man : List Byte) (i : Fin 256) : (s.takeAndWait man).1 ≠ .ok i := by
  unfold State.takeAndWait
  split <;> exact fun h => by cases h

theorem State.pairOk_of_check {s : State} {n : Fin 128} {man : List Byte} {i : Fin 256} (h : (s.checkPair n man).1 = .ok i) :
    s.PairOk n man i := by
  unfold State.checkPair at h
  split at h
  · exact absurd h (State.takeAndWait_ne_ok _ _ _)
  · rename_i j hj
    have pins : ∀ x : Chk, x = (if s.pinsAllow n j then .ok j else .unavailable stResourceExhausted) → x = .ok i →
        s.pinsAllow n j = true ∧ j = i := by
      rintro x rfl hx
      split at hx
      · exact ⟨‹_›, Chk.ok.inj hx⟩
      · cases hx
    split at h
    · cases h
    · split at h
      · exact absurd h (State.takeAndWait_ne_ok _ _ _)
      · cases h
    · rename_i hst
      split at h
      · cases h
      · rename_i hf
        obtain ⟨hp, rfl⟩ := pins _ rfl h
        exact ⟨hj, hp, by simp [hst], by simp [hst], fun _ => by simpa using hf⟩
    · rename_i ht hd hr
      obtain ⟨hp, rfl⟩ := pins _ rfl h
      exact ⟨hj, hp, ht, hd, fun hc => absurd hc hr⟩

theorem State.PairOk.check {s : State} {n : Fin 128} {man : List Byte} {i : Fin 256} (h : s.PairOk n man i) :
    s.checkPair n man = (.ok i, s) := by
  obtain ⟨hl, hp, ht, hd, hr⟩ := h
  unfold State.checkPair
  rw [hl]
  dsimp only
  split
  · exact absurd ‹_› ht
  · exact absurd ‹_› hd
  · rename_i hst
    rw [if_neg (by simp [hr hst]), if_pos hp]
  · rw [if_pos hp]

/-- What a passed check of a plate rests on. -/
def State.PlateOk (s : State) (n : Fin 128) (p : PlateId) (i : Fin 256) : Prop :=
  s.checkManifest n ((s.pl n).localMan.get p) = .ok ∧
    (decide (((s.plates n).get p).src = 2) && !(s.pl n).confirmed.get p) = false ∧ s.PairOk n ((s.pl n).localMan.get p) i

theorem State.plateOk_of_check {s : State} {n : Fin 128} {p : PlateId} {i : Fin 256} (h : (s.checkPlate n p).1 = .ok i) : s.PlateOk n p i := by
  unfold State.checkPlate at h
  split at h
  · cases h
  · cases h
  · cases h
  · rename_i hm
    unfold State.checkLeaves at h
    dsimp only at h
    split at h
    · split at h
      · split at h <;> cases h
      · cases h
    · exact ⟨hm, Bool.not_eq_true _ ▸ ‹_›, State.pairOk_of_check h⟩

theorem State.PlateOk.check {s : State} {n : Fin 128} {p : PlateId} {i : Fin 256} (h : s.PlateOk n p i) : s.checkPlate n p = (.ok i, s) := by
  obtain ⟨hm, hc, hp⟩ := h
  unfold State.checkPlate State.checkLeaves
  rw [hm]
  dsimp only
  rw [if_neg (by rw [hc]; decide)]
  exact hp.check

/-! ## Arming -/

/-- The state with the plate's arming begun and its command waiting. -/
def State.armingOf (s : State) (who : Asker) (n : Fin 128) (a : Arming) : State :=
  (s.wait who n .arm).modPlt n fun x => { x with arming := some a }

theorem State.armingOf_pl (s : State) (who : Asker) (n : Fin 128) (a : Arming) :
    (s.armingOf who n a).pl n = { s.pl n with arming := some a } := State.modPlt_pl _ _ _

theorem State.armingOf_plates (s : State) (who : Asker) (n : Fin 128) (a : Arming) : (s.armingOf who n a).plates n = s.plates n := by
  rw [State.plates, State.armingOf_pl]
  rfl

/-- Beginning to arm changes nothing that a check looks at. -/
theorem State.PlateOk.armingOf {s : State} {n : Fin 128} {p : PlateId} {i : Fin 256} (h : s.PlateOk n p i) (who : Asker) (a : Arming) :
    (s.armingOf who n a).PlateOk n p i := by
  obtain ⟨hm, hc, hl, hp, ht, hd, hr⟩ := h
  have hpl := State.armingOf_pl s who n a
  refine ⟨?_, ?_, ?_, ?_, ht, hd, hr⟩
  · rw [hpl]; exact hm
  · rw [hpl, State.armingOf_plates]; exact hc
  · rw [hpl]; exact hl
  · unfold State.pinsAllow
    rw [hpl]
    exact hp

/-! ## What goes on waiting -/

/-- The waiter waits in t if it does in s. -/
def StillWaits (a : Await) (s t : State) : Prop := a ∈ s.awaits → a ∈ t.awaits

theorem StillWaits.respects (a : Await) : Respects .awaits (StillWaits a) where
  refl _ h := h
  comp h h' ha := h' (h ha)
  of_frame h hf ha := (h .awaits hf : _ = _) ▸ ha

section

variable {a : Await} (ha : a.kind = .arm) {s₀ s : State}

include ha

theorem State.reapSq_waits {m : Mgr} {q : Nat} (h : StillWaits a s₀ s) : StillWaits a s₀ (s.reapSq m q) := by
  refine (StillWaits.respects a).comp h ?_
  clear h
  unfold State.reapSq
  dsimp -failIfUnchanged -proj only
  have drop : ∀ (u : State) (p : Await → Bool) (b : Await), u.awaits.find? p = some b → (p b = true → b.kind ≠ .arm) →
      StillWaits a u { u with awaits := u.awaits.filter fun x => x ≠ b } := fun u p b hb hk hm =>
    List.mem_filter.mpr ⟨hm, by
      simp only [decide_eq_true_eq]
      rintro rfl
      exact hk (List.find?_some hb) ha⟩
  split
  · split
    · split
      · rename_i b hb
        have hd := drop _ _ b hb (by
          intro hp
          simp only [Bool.and_eq_true, decide_eq_true_eq] at hp
          rw [hp.1]
          exact fun h => by cases h)
        have hs : StillWaits a s (s.modRing m fun r => { r with sqs := SMap.del r.sqs q }) := fun h => h
        split
        · exact State.post_keeps (StillWaits.respects a) (by decide) ((StillWaits.respects a).comp hs hd)
        · exact (StillWaits.respects a).comp hs hd
        · exact (StillWaits.respects a).comp hs hd
      · exact fun h => h
    · exact fun h => h
  · exact fun h => h

theorem State.finish_waits {src : Src} {st : Status} {info : Nat} {result : List Byte} {more : Bool} (h : StillWaits a s₀ s) :
    StillWaits a s₀ (s.finish src st info result more) :=
  State.reapSq_waits ha (State.post_keeps (StillWaits.respects a) (by decide) h)

theorem State.answer_waits {who : Asker} {n : Fin 128} {st : Status} {info : Nat} {result : List Byte} (h : StillWaits a s₀ s) :
    StillWaits a s₀ (s.answer who n st info result) := by
  unfold State.answer
  split
  · exact State.finish_waits ha h
  · exact State.mctpReply_keeps (StillWaits.respects a) (by decide) h
  · exact State.modCtl_keeps (StillWaits.respects a) (by decide) h

theorem State.answerAll_waits {n : Fin 128} {k : AwaitKind → Bool} {st : Status} {info : Nat} {result : List Byte} (hk : k .arm = false)
    (h : StillWaits a s₀ s) : StillWaits a s₀ (s.answerAll n k st info result) := by
  unfold State.answerAll
  refine State.forAll_keeps (StillWaits.respects a) ((StillWaits.respects a).comp h fun hm => ?_)
    fun _ _ => State.answer_waits ha ((StillWaits.respects a).refl _)
  exact List.mem_filter.mpr ⟨hm, by simp [ha, hk]⟩

theorem State.hold_waits {n : Fin 128} {kind : HoldKind} {cause : Cause} {seq : Option SeqKind} (h : StillWaits a s₀ s) :
    StillWaits a s₀ (s.hold n kind cause seq) := by
  have hstop : StillWaits a s₀ ((s.stopHost n).modCtl n fun c => { c with kind := kind, seq := seq }) :=
    State.modCtl_keeps (StillWaits.respects a) (by decide) (State.stopHost_keeps (StillWaits.respects a) (by decide) h)
  unfold State.hold
  dsimp only
  generalize (s.stopHost n).modCtl n (fun c => { c with kind := kind, seq := seq }) = u at hstop ⊢
  have hans : StillWaits a s₀ (if (s.ch n).state = .taking then u.answerAll n (fun k => k = .release) stAborted 0 [] else u) := by
    split
    · exact State.answerAll_waits ha rfl hstop
    · exact hstop
  split
  · exact hans
  · exact State.transition_keeps (StillWaits.respects a) (by decide) hans

end

/-! ## Arming a live host -/

/-- The host is held for the arming, which waits for its HOLD# to sink. -/
theorem State.beginArm_live {s : State} {who : Asker} {n : Fin 128} {p : PlateId} (hl : (s.ch n).state.live = true) (hk : (s.ch n).sink = false) :
    let t := (s.wait who n .arm).beginArm n p
    (t.ch n).state = .held ∧ (t.ch n).seq = some .arming ∧ (t.ch n).holdWait = true ∧
      (t.pl n).arming = some { plate := p, live := true, committed := false } ∧ t.plates n = s.plates n ∧
      { who := who, ch := n.1, kind := .arm } ∈ t.awaits := by
  have he : (s.wait who n .arm).beginArm n p =
      (s.armingOf who n { plate := p, live := true, committed := false }).hold n .sequence .proof (some .arming) := by
    have hlive : ((s.wait who n .arm).ch n).state.live = true := hl
    unfold State.beginArm
    dsimp only
    rw [hlive, if_pos rfl]
    have hh := State.hold_ch (s.armingOf who n { plate := p, live := true, committed := false }) n .sequence .proof (some .arming)
    have hsink : (((s.armingOf who n { plate := p, live := true, committed := false }).hold n .sequence .proof (some .arming)).ch n).sink
        = false := (congrArg Prod.fst hh.wires).trans hk
    exact if_neg (ne_true_of_eq_false hsink)
  intro t
  rw [show t = _ from he]
  have hh := State.hold_ch (s.armingOf who n { plate := p, live := true, committed := false }) n .sequence .proof (some .arming)
  have hplt : ((s.armingOf who n { plate := p, live := true, committed := false }).hold n .sequence .proof (some .arming)).plt =
      (s.armingOf who n { plate := p, live := true, committed := false }).plt :=
    State.hold_frame (Frame.refl [.ports, .stn, .ctl, .wdg, .plat, .trace, .spdm, .rings, .views, .awaits, .dev] _) (by decide) .plt (by decide)
  refine ⟨hh.state, hh.seq, hh.holdWait.trans ?_, ?_, ?_, ?_⟩
  · change (!(s.ch n).sink) = true
    rw [hk]
    rfl
  · rw [State.pl, hplt]
    exact congrArg PlateSt.arming (State.armingOf_pl _ _ _ _)
  · rw [State.plates, State.pl, hplt]
    exact State.armingOf_plates _ _ _ _
  · exact State.hold_waits (s₀ := s.armingOf who n { plate := p, live := true, committed := false }) rfl (fun h => h)
      (List.mem_append_right _ (List.mem_singleton.mpr rfl))

/-! ## Arming an idle channel -/

/-- The plate is bound and its proof attempt begins: what follows the commit (R115 steps 4 and 5). -/
def State.bindProof (s : State) (n : Fin 128) (i : Fin 256) (p : PlateId) : State := (s.bind n i p).beginAttempt n

theorem State.bindProof_frame (s : State) (n : Fin 128) (i : Fin 256) (p : PlateId) :
    Frame [.ctl, .imm, .plt, .drbg, .drawn] s (s.bindProof n i p) :=
  State.beginAttempt_frame (State.bind_frame (Frame.refl _ s) (by decide)) (by decide)

theorem State.bind_parts (s : State) (n : Fin 128) (i : Fin 256) (p : PlateId) :
    ((s.bind n i p).ch n).state = (s.ch n).state ∧ ((s.bind n i p).ch n).bound = some i.1 := by
  unfold State.bind
  dsimp only
  rw [State.modCtl_ch]
  exact ⟨State.unbind_ch_state s n, rfl⟩

theorem State.bindProof_parts (s : State) (n : Fin 128) (i : Fin 256) (p : PlateId) :
    (s.bindProof n i p).pl n =
        { s.pl n with challenge := Config.challenge s.drawn, deadline := none, firstExpiry := none, accepted := none } ∧
      ((s.bindProof n i p).ch n).state = (s.ch n).state ∧ ((s.bindProof n i p).ch n).bound = some i.1 := by
  have hpl : (s.bind n i p).pl n = s.pl n :=
    congrArg (vget · n) (State.bind_frame (Frame.refl [.ctl, .imm] s) (by decide) .plt (by decide))
  have hdr : (s.bind n i p).drawn = s.drawn := State.bind_frame (Frame.refl [.ctl, .imm] s) (by decide) .drawn (by decide)
  refine ⟨?_, State.bind_parts s n i p⟩
  rw [← hdr, ← hpl]
  exact State.modPlt_pl _ _ _

/-- A channel with a plate on proof that is bound goes to its release without a selection (R115). -/
theorem State.startTaking_bound {s : State} {n : Fin 128} (cause : Cause) (asked : Bool) (ha : (s.pl n).arming = none)
    (hp : s.onProof n = true) (hb : (s.ch n).bound.isSome = true) :
    (s.startTaking n cause asked).plt = s.plt ∧ ((s.ch n).state ≠ .held → ((s.startTaking n cause asked).ch n).state = .taking) := by
  unfold State.startTaking
  split
  · rename_i h
    simp only [Bool.and_eq_true, decide_eq_true_eq] at h
    exact ⟨State.stayHeld_frame (Frame.refl [.ctl, .spdm, .rings, .views, .awaits, .dev] s) (by decide) .plt (by decide), fun hn => absurd h.1 hn⟩
  · dsimp only
    generalize hu : (s.modCtl n fun c => { c with seq := none, pgTmoAt := none, relAsked := asked, standbyRun := false }).transition n .taking
      cause = u
    have hplt : u.plt = s.plt := by
      rw [← hu, State.transition_plt]
      rfl
    have hst : (u.ch n).state = .taking := by
      rw [← hu]
      simp
    have hbu : (u.ch n).bound = (s.ch n).bound := by
      rw [← hu]
      simp
    have hau : (u.pl n).arming.isSome = false := by
      rw [State.pl, hplt]
      exact congrArg Option.isSome ha
    rw [if_neg (by rw [hau]; decide)]
    split
    · exact ⟨(State.unbind_frame (Frame.refl [.ctl, .imm] _) (by decide) .plt (by decide)).trans hplt,
        fun _ => (State.unbind_ch_state _ n).trans (by rw [State.modCtl_ch]; exact hst)⟩
    · rw [if_pos]
      · exact ⟨hplt, fun _ => by rw [State.modCtl_ch]; exact hst⟩
      · rw [State.modCtl_ch, State.onProof, State.plates, State.pl]
        change ((((vget u.plt n).table.cur).getD PTable.empty).onProof.isSome && !(vget u.plt n).revertWaits && (u.ch n).bound.isSome) = true
        rw [hplt, hbu, Bool.and_eq_true]
        exact ⟨hp, hb⟩

/-- The table that arming commits (R115 step 3). -/
def PTable.armed (t : PTable) (p : PlateId) : PTable := t.set p { t.get p with state := .proof, attempts := 1 }

/-- The state in which the plate stands on proof, bound, with its attempt begun. -/
def State.onProofNow (s : State) (n : Fin 128) (p : PlateId) (i : Fin 256) : State :=
  ((s.commitPlates n ((s.plates n).armed p) pcArmed).bindProof n i p)

theorem PTable.onProof_of_get {t : PTable} {p : PlateId} (hp : p ≠ .recov) (h : (t.get p).state = .proof) : t.onProof.isSome = true := by
  unfold PTable.onProof
  cases p with
  | a => rw [if_pos (show t.a.state = .proof from h)]; rfl
  | b => split <;> simp [show t.b.state = .proof from h]
  | recov => exact absurd rfl hp

theorem State.onProofNow_parts {s : State} {n : Fin 128} {p : PlateId} {i : Fin 256} (hf : s.seqFull n = false) :
    (((s.onProofNow n p i).plates n).get p).state = .proof ∧ (((s.onProofNow n p i).plates n).get p).attempts = 1 ∧
      ((s.onProofNow n p i).pl n).challenge = Config.challenge s.drawn ∧
      ((s.onProofNow n p i).pl n).revertWaits = (s.pl n).revertWaits ∧
      ((s.onProofNow n p i).ch n).state = (s.ch n).state ∧ ((s.onProofNow n p i).ch n).bound = some i.1 ∧
      (s.onProofNow n p i).dev = s.dev := by
  have hfr := State.commitPlates_frame (Frame.refl [.plt, .trace, .rings, .led] s) (n := n) (t2 := (s.plates n).armed p) (cause := pcArmed) (by decide)
  obtain ⟨v, hv⟩ := State.commitPlates_pl s n ((s.plates n).armed p) pcArmed
  have hplate := State.commitPlates_plate ((s.plates n).armed p) pcArmed hf p
  unfold State.onProofNow
  generalize s.commitPlates n ((s.plates n).armed p) pcArmed = u at hfr hv hplate ⊢
  rw [PTable.armed, PTable.get_set_self] at hplate
  obtain ⟨hpl, hst, hbd⟩ := State.bindProof_parts u n i p
  have hpt : (u.bindProof n i p).plates n = u.plates n := by
    rw [State.plates, hpl]
    rfl
  have hch : u.ch n = s.ch n := congrArg (vget · n) (hfr .ctl (by decide))
  rw [hpt, hpl, hst, hbd, hch, hv]
  exact ⟨congrArg Plate.state hplate, congrArg Plate.attempts hplate, congrArg Config.challenge (hfr .drawn (by decide)), rfl, rfl, rfl,
    (State.bindProof_frame u n i p .dev (by decide)).trans (hfr .dev (by decide))⟩

/-- The state once the arming is over, before its way to the release. -/
def State.armOver (u : State) (n : Fin 128) (a : Arming) : State :=
  ((u.modPlt n fun x => { x with arming := some { a with committed := true } }).modCtl n fun c => { c with sel := none }).modPlt n
    fun x => { x with arming := none }

/-- An arming of an idle channel goes on to the release from RECOVERY, and from a hold that is not the device's. -/
theorem State.armCommit_eq {s : State} {n : Fin 128} {a : Arming} (i : Fin 256) (hl : a.live = false) :
    s.armCommit n a i =
      (let v := (s.onProofNow n a.plate i).armOver n a
       if ((v.ch n).state = .recovery ∨ (v.ch n).state = .held ∧ (v.ch n).kind ≠ .device) ∧ v.dev.state = .running
       then v.startTaking n .proof true else v) := by
  unfold State.armCommit
  refine if_congr (and_congr_left' ?_) rfl rfl
  rw [if_neg (by simp [hl])]
  rfl

theorem State.armOver_parts (u : State) (n : Fin 128) (a : Arming) :
    (u.armOver n a).pl n = { u.pl n with arming := none } ∧ (u.armOver n a).ch n = { u.ch n with sel := none } ∧ (u.armOver n a).dev = u.dev := by
  refine ⟨?_, ?_, rfl⟩
  · unfold State.armOver
    rw [State.modPlt_pl, State.modCtl_pl, State.modPlt_pl]
  · unfold State.armOver
    rw [State.modPlt_ch, State.modCtl_ch, State.modPlt_ch]

/-- The commit of an arming of an idle channel: the plate on proof under a fresh challenge; a channel in RECOVERY goes on to its release. -/
theorem State.armCommit_idle {s : State} {n : Fin 128} {i : Fin 256} {a : Arming} (hl : a.live = false) (hf : s.seqFull n = false)
    (hw : (s.pl n).revertWaits = false) (hr : s.dev.state = .running) (hp : a.plate ≠ .recov) :
    (((s.armCommit n a i).plates n).get a.plate).state = .proof ∧ (((s.armCommit n a i).plates n).get a.plate).attempts = 1 ∧
      ((s.armCommit n a i).pl n).challenge = Config.challenge s.drawn ∧
      ((s.ch n).state = .recovery → ((s.armCommit n a i).ch n).state = .taking) := by
  obtain ⟨hst, htr, hch, hrw, hcs, hbd, hdev⟩ := State.onProofNow_parts (p := a.plate) (i := i) hf
  rw [State.armCommit_eq i hl]
  generalize s.onProofNow n a.plate i = u at hst htr hch hrw hcs hbd hdev ⊢
  obtain ⟨hpl, hctl, hdv⟩ := u.armOver_parts n a
  dsimp only
  generalize u.armOver n a = v at hpl hctl hdv ⊢
  have hvp : v.plates n = u.plates n := by
    rw [State.plates, hpl]
    rfl
  have hon : v.onProof n = true := by
    rw [State.onProof, hvp, hpl, PTable.onProof_of_get hp hst]
    change (true && !(u.pl n).revertWaits) = true
    rw [hrw, hw]
    rfl
  obtain ⟨hplt, htak⟩ := State.startTaking_bound (s := v) (n := n) .proof true (by rw [hpl]) hon (by rw [hctl, hbd]; rfl)
  have hrec : (s.ch n).state = .recovery → (v.ch n).state = .recovery := fun h => by rw [hctl]; exact hcs.trans h
  have hres : ∀ t : State, t.plt = v.plt → ((t.plates n).get a.plate).state = .proof ∧ ((t.plates n).get a.plate).attempts = 1 ∧
      (t.pl n).challenge = Config.challenge s.drawn := fun t ht => by
    have htp : t.plates n = v.plates n := congrArg (fun x => ((vget x n).table.cur).getD PTable.empty) ht
    have htl : t.pl n = v.pl n := congrArg (vget · n) ht
    rw [htp, htl, hvp, hpl]
    exact ⟨hst, htr, hch⟩
  split
  · obtain ⟨h1, h2, h3⟩ := hres _ hplt
    exact ⟨h1, h2, h3, fun h => htak (by rw [hrec h]; decide)⟩
  · rename_i hgo
    obtain ⟨h1, h2, h3⟩ := hres v rfl
    exact ⟨h1, h2, h3, fun h => absurd ⟨.inl (hrec h), by rw [hdv, hdev]; exact hr⟩ hgo⟩

/-! ## The command -/

/-- Whether PLATE_ARM_PROOF may go on (R115, R227, R283). -/
def State.armAsked (s : State) (src : Src) (n : Fin 128) (p : PlateId) : Status :=
  if manVersion (s.plateMan n p) = 3 ∧ s.version src.mgr < 0x0201 then stVersionUnsupported
  else if s.unowned = true ∨ s.tamper.burnt = true then stNotPermitted else s.armStatus n p (s.isSecondary src.mgr)

theorem exec_plateArmProof {s : State} {src : Src} {ch : Half} {n : Fin 128} {plate : Byte} {p : PlateId} (hch : ch.toNat = n.1)
    (hon : s.chanOn n = true) (hp : plateOf plate.toNat = some p) (ha : s.allows (.plateArmProof src ch plate))
    (hv : s.poolUnder13 src n p = false) :
    exec (.plateArmProof src ch plate) s = .next
      (if s.armAsked src n p = stSuccess then ((s.wait (.cmd src) n .arm).beginArm n p).noteCommit s src
      else s.deliver src (ans (s.armAsked src n p))) := by
  have ht : s.takes src (gateOf (.plateArmProof src ch plate)) := ha _ _ rfl
  refine congrArg Host.Outcome.next ((State.ovdel_takes _ ht).trans ?_)
  rw [State.withChan_on _ hch hon, State.withPlate_on _ hp hv]
  have hst : (if manVersion (s.plateMan n p) = 3 ∧ s.version src.mgr < 0x0201 then stVersionUnsupported
      else if s.unowned || s.tamper.burnt then stNotPermitted else s.armStatus n p (s.isSecondary src.mgr)) = s.armAsked src n p := by
    unfold State.armAsked
    simp only [Bool.or_eq_true]
  dsimp only
  rw [hst]
  split
  · rfl
  · exact State.answered_alone _ _ _

/-- A command of an I/O queue that SAFE_HOLD and DEVICE_RECOVERY do not allow is taken in RUNNING alone. -/
theorem State.running_of_takes {s : State} {src : Src} {g : Gate} (h : s.takes src g) (hq : g.queue = .io) (hs : g.safeHold = false) :
    s.dev.state = .running := by
  obtain ⟨hw, hg, -⟩ := h
  have hcon : s.consumes src = true := by
    unfold State.waits at hw
    simp only [Bool.or_eq_false_iff, Bool.not_eq_false'] at hw
    exact hw.1.1.2
  have hparts : src.sq ≠ 0 ∧ s.dev.state ≠ .safeHold := by
    unfold State.gateStatus at hg
    rw [hq, hs] at hg
    split_ifs at hg with _ hwrong _ hsafe
    exact ⟨fun h0 => hwrong (by rw [h0]; rfl), fun hh => hsafe (by rw [hh]; rfl)⟩
  obtain ⟨hsq, hsafe⟩ := hparts
  unfold State.consumes at hcon
  cases hd : s.dev.state <;> simp_all

/-- What an arming that may go on rests on. -/
theorem State.armAsked_success {s : State} {src : Src} {n : Fin 128} {p : PlateId} (h : s.armAsked src n p = stSuccess) :
    p ≠ .recov ∧ s.seqFull n = false := by
  unfold State.armAsked State.armStatus at h
  dsimp only at h
  by_contra hc
  have hne : (((((s.plates n).get p).state ≠ .staged ∧ ((s.plates n).get p).state ≠ .rejected) ∨ p = .recov ∨
      ((s.plates n).get p).svn.toNat < s.familyMin ((s.plates n).get p).family) ∨ s.seqFull n = true) := by
    by_cases hp : p = .recov
    · exact .inl (.inr (.inl hp))
    · exact .inr (by simpa [hp] using hc)
  rcases hne with hne | hne
  · rw [if_pos hne] at h
    split_ifs at h <;> exact absurd h (by decide)
  · rw [hne] at h
    simp only [if_true] at h
    split_ifs at h <;> exact absurd h (by decide)

/-- PLATE_ARM_PROOF of an idle channel whose plate passes its check. -/
theorem State.beginArm_idle {s : State} {who : Asker} {n : Fin 128} {p : PlateId} {i : Fin 256} (hl : (s.ch n).state.live = false)
    (hc : (s.checkPlate n p).1 = .ok i) (hn : s.noCommit = false) (hf : s.seqFull n = false) :
    (s.wait who n .arm).beginArm n p = (s.armingOf who n { plate := p, live := false, committed := false }).armCommit n
      { plate := p, live := false, committed := false } i := by
  have hok := ((State.plateOk_of_check hc).armingOf who { plate := p, live := false, committed := false }).check
  have hlive : ((s.wait who n .arm).ch n).state.live = false := hl
  have hcc : s.dev.ccAbsent = false := (Bool.or_eq_false_iff.mp hn).2
  have hpl := State.armingOf_pl s who n { plate := p, live := false, committed := false }
  have hf' : (s.armingOf who n { plate := p, live := false, committed := false }).seqFull n = false := by
    rw [State.seqFull, hpl]
    exact hf
  unfold State.beginArm
  dsimp only
  rw [hlive, if_neg Bool.false_ne_true]
  change (s.armingOf who n { plate := p, live := false, committed := false }).armStep n = _
  have hn' : (s.armingOf who n { plate := p, live := false, committed := false }).noCommit = false := hn
  have hcc' : (s.armingOf who n { plate := p, live := false, committed := false }).dev.ccAbsent = false := hcc
  generalize s.armingOf who n { plate := p, live := false, committed := false } = u at hok hpl hf' hn' hcc' ⊢
  unfold State.armStep
  rw [hpl]
  dsimp only
  rw [if_neg Bool.false_ne_true, hcc', if_neg Bool.false_ne_true, hok]
  unfold State.armJudge
  dsimp only
  rw [hn', if_neg Bool.false_ne_true, hf', if_neg Bool.false_ne_true]

end Sys2Proof.Machine
end


section
/-! SUPPORT. Minimums and the end of a proof (R117 to R119): a minimum never falls, and a rejected plate stays rejected through the selection
that follows. -/

namespace Sys2Proof.Machine

open Sys2Proof

section

variable {k : Field} {R : State → State → Prop} (hR : Respects k R) {s₀ s : State}

include hR

theorem State.selectFrom_keeps {n : Fin 128} {x : Nat} {x2 : SelWait}
    (hf : k ∉ [.mbx, .ctl, .plt, .wdg, .imm, .fca, .trace, .spdm, .rings, .views, .awaits, .drbg, .drawn, .led, .dev]) (h : R s₀ s) :
    R s₀ (State.selectFrom n x x2 s) :=
  hR.step h (State.selectFrom_frame (Frame.refl _ _) (Field.sub_refl _)) hf

end

/-! ## Minimums only rise -/

/-- From s to t no family's minimum falls. -/
def MinsGrow (s t : State) : Prop := ∀ fam, s.familyMin fam ≤ t.familyMin fam

theorem MinsGrow.refl (s : State) : MinsGrow s s := fun _ => Nat.le_refl _

theorem MinsGrow.comp {s t u : State} (h : MinsGrow s t) (h' : MinsGrow t u) : MinsGrow s u := fun fam => Nat.le_trans (h fam) (h' fam)

/-- The minimum of a family, by the two copies of the table. -/
def minOf (m : LPair MinTable) (fam : List Byte) : Nat :=
  match ((m.cur).getD { devfw := 0, fams := [] }).fams.find? fun e => e.1 = fam with
  | some e => e.2.toNat
  | none => 0

theorem State.familyMin_eq (s : State) (fam : List Byte) : s.familyMin fam = minOf s.mins fam := rfl

theorem MinsGrow.of_frame {fs : List Field} {s t : State} (h : Frame fs s t) (hf : Field.mins ∉ fs) : MinsGrow s t := fun fam =>
  Nat.le_of_eq (congrArg (fun m => minOf m fam) (h .mins hf : t.mins = s.mins).symm)

theorem MinsGrow.respects : Respects .mins MinsGrow where
  refl := MinsGrow.refl
  comp := MinsGrow.comp
  of_frame := MinsGrow.of_frame

/-- A family's entry with its minimum raised. -/
def raiseEntry (fam : List Byte) (v : Word) (e : List Byte × Word) : List Byte × Word := if e.1 = fam then (fam, v) else e

theorem raiseEntry_fst (fam : List Byte) (v : Word) (e : List Byte × Word) : (raiseEntry fam v e).1 = e.1 := by
  unfold raiseEntry
  split
  · exact Eq.symm ‹_›
  · rfl

theorem MinTable.raiseTo_find (t : MinTable) (fam : List Byte) (v : Word) (f : List Byte) :
    (t.raiseTo fam v).fams.find? (fun e => e.1 = f) = if f = fam then some (fam, v) else t.fams.find? fun e => e.1 = f := by
  unfold MinTable.raiseTo
  split
  · rename_i h
    change (t.fams.map (raiseEntry fam v)).find? _ = _
    rw [List.find?_map]
    have hp : ((fun e : List Byte × Word => decide (e.1 = f)) ∘ raiseEntry fam v) = fun e => decide (e.1 = f) := by
      funext e
      simp only [Function.comp, raiseEntry_fst]
    rw [hp]
    by_cases hf : f = fam
    · obtain ⟨e, he, hef⟩ := List.any_eq_true.mp h
      subst hf
      cases hx : t.fams.find? fun e => decide (e.1 = f) with
      | none => exact absurd hef (List.find?_eq_none.mp hx e he)
      | some x =>
        have hxf : x.1 = f := by simpa using List.find?_some hx
        simp [raiseEntry, hxf]
    · rw [if_neg hf]
      cases hx : t.fams.find? fun e => decide (e.1 = f) with
      | none => rfl
      | some x =>
        have hxf : x.1 = f := by simpa using List.find?_some hx
        simp [raiseEntry, hxf, hf]
  · rename_i h
    rw [List.find?_append]
    by_cases hf : f = fam
    · subst hf
      have hx : t.fams.find? (fun e => decide (e.1 = f)) = none := List.find?_eq_none.mpr fun e he hef => h (List.any_eq_true.mpr ⟨e, he, hef⟩)
      simp [hx]
    · simp [hf, Ne.symm hf]

theorem State.commitMin_mins (s : State) (fam : List Byte) (v : Word) :
    (s.commitMin fam v).mins = s.mins.commit (s.minTable.raiseTo fam v) := by
  unfold State.commitMin
  rw [State.log_mins]
  rfl

/-- The commit of a minimum sets it, and leaves every other. -/
theorem State.commitMin_min (s : State) (fam : List Byte) (v : Word) (f : List Byte) :
    (s.commitMin fam v).familyMin f = if f = fam then v.toNat else s.familyMin f := by
  rw [State.familyMin_eq, State.commitMin_mins, minOf, LPair.cur_commit, Option.getD_some, MinTable.raiseTo_find]
  by_cases h : f = fam
  · rw [if_pos h, if_pos h]
  · rw [if_neg h, if_neg h]
    rfl

theorem State.commitMin_grow {s : State} {fam : List Byte} {v : Word} (h : s.familyMin fam ≤ v.toNat) : MinsGrow s (s.commitMin fam v) := by
  intro f
  rw [State.commitMin_min]
  split
  · rename_i he
    rw [he]
    exact h
  · exact Nat.le_refl _


theorem State.completeAdvances_grow {s₀ s : State} (h : MinsGrow s₀ s) : MinsGrow s₀ s.completeAdvances := by
  unfold State.completeAdvances
  split
  · exact h
  · refine State.forChans_keeps MinsGrow.respects h fun n u => State.forAll_keeps MinsGrow.respects (MinsGrow.refl _) fun p v => ?_
    dsimp only
    split
    · rename_i hc
      simp only [Bool.and_eq_true, decide_eq_true_eq] at hc
      exact State.commitMin_grow (Nat.le_of_lt hc.1.2)
    · exact MinsGrow.refl _

theorem State.select_grow {s₀ s : State} {n : Fin 128} (h : MinsGrow s₀ s) :
    MinsGrow s₀ (State.select s n) := by
  refine MinsGrow.comp h ?_
  clear h
  unfold State.select
  dsimp -failIfUnchanged -proj only
  repeat' (with_reducible first
    | assumption | apply MinsGrow.refl | apply State.completeAdvances_grow | apply State.selectFrom_keeps MinsGrow.respects (by decide)
    | apply State.modCtl_keeps MinsGrow.respects (by decide) | intro _ | split)

theorem State.startTaking_grow {s₀ s : State} {n : Fin 128} {cause : Cause} {asked : Bool} (h : MinsGrow s₀ s) :
    MinsGrow s₀ (State.startTaking s n cause asked) := by
  refine MinsGrow.comp h ?_
  clear h
  unfold State.startTaking
  dsimp -failIfUnchanged -proj only
  repeat' (with_reducible first
    | assumption | apply MinsGrow.refl | apply State.select_grow | apply State.unbind_keeps MinsGrow.respects (by decide)
    | apply State.transition_keeps MinsGrow.respects (by decide) | apply State.stayHeld_keeps MinsGrow.respects (by decide)
    | apply State.modCtl_keeps MinsGrow.respects (by decide) | intro _ | split)

theorem State.revert_grow {s₀ s : State} {n : Fin 128} {why : Nat} (h : MinsGrow s₀ s) :
    MinsGrow s₀ (State.revert s n why) := by
  refine MinsGrow.comp h ?_
  clear h
  unfold State.revert
  dsimp -failIfUnchanged -proj only
  repeat' (with_reducible first
    | assumption | apply MinsGrow.refl | apply State.modPlt_keeps MinsGrow.respects (by decide) | apply State.select_grow
    | apply State.hold_keeps MinsGrow.respects (by decide) | apply State.startTaking_grow
    | apply State.endArming_keeps MinsGrow.respects (by decide) | apply State.raise_keeps MinsGrow.respects (by decide)
    | apply State.rejectProof_keeps MinsGrow.respects (by decide) | apply State.modCtl_keeps MinsGrow.respects (by decide) | intro _
    | split)

theorem State.revertBelow_grow {s₀ s : State} (h : MinsGrow s₀ s) :
    MinsGrow s₀ (State.revertBelow s) := by
  refine MinsGrow.comp h ?_
  clear h
  unfold State.revertBelow
  dsimp -failIfUnchanged -proj only
  repeat' (with_reducible first
    | assumption | apply MinsGrow.refl | apply State.revert_grow | apply State.forChans_keeps MinsGrow.respects | intro _ | split)

/-- ADVANCE_MIN_VERSION of a family of the channel's policy. -/
theorem exec_advanceMinVersion {s : State} {src : Src} {ch : Half} {n : Fin 128} {fam : List Byte} {v : Word} (hch : ch.toNat = n.1)
    (hon : s.chanOn n = true) (ha : s.allows (.advanceMinVersion src ch fam v)) (hne : ch ≠ 0xFFFF)
    (hf : slice fam 0 16 = (s.polOf n).plate.family) :
    exec (.advanceMinVersion src ch fam v) s = .next
      (if s.advanceStatus (slice fam 0 16) v.toNat = stSuccess then
        (let u := if v.toNat = s.familyMin (slice fam 0 16) then s else (s.commitMin (slice fam 0 16) v).revertBelow
         (u.deliver src (okAns (leBytes 4 (u.familyMin (slice fam 0 16))))).noteCommit s src)
      else s.deliver src (ans (s.advanceStatus (slice fam 0 16) v.toNat))) := by
  have ht : s.takes src (gateOf (.advanceMinVersion src ch fam v)) := ha _ _ rfl
  refine congrArg Host.Outcome.next ((State.ovdel_takes _ ht).trans ?_)
  dsimp only
  rw [if_neg hne, State.withChan_on _ hch hon, if_neg (not_not.mpr hf)]
  by_cases hs : s.advanceStatus (slice fam 0 16) v.toNat = stSuccess
  · rw [if_pos hs]
    exact congrArg (fun t : State => t.noteCommit s src) (if_neg (not_not.mpr hs))
  · rw [if_neg hs]
    exact (congrArg (fun t : State => t.noteCommit s src) (if_pos hs)).trans (State.answered_alone _ _ _)

/-- What the advance leaves: the family's minimum is at least the one asked for. -/
theorem State.advanced_min {s : State} {fam : List Byte} {v : Word} (hs : s.advanceStatus fam v.toNat = stSuccess) :
    v.toNat ≤ (if v.toNat = s.familyMin fam then s else (s.commitMin fam v).revertBelow).familyMin fam := by
  split
  · rename_i he
    rw [← he]
  · refine Nat.le_trans ?_ (State.revertBelow_grow (MinsGrow.refl _) fam)
    rw [State.commitMin_min, if_pos rfl]

theorem State.answered_min (s u : State) (src : Src) (a : Answer) (fam : List Byte) :
    ((u.deliver src a).noteCommit s src).familyMin fam = u.familyMin fam :=
  congrArg (fun m => minOf m fam) (State.answered_frame s u src a .mins (by decide))

/-! ## A rejected plate through the selection that follows -/

theorem State.commitPlates_rejected {s : State} {n : Fin 128} {t : PTable} {p : PlateId} (cause : Nat)
    (hs : ((s.plates n).get p).state = .rejected) (ht : (t.get p).state = .rejected) :
    (((s.commitPlates n t cause).plates n).get p).state = .rejected := by
  cases hf : s.seqFull n with
  | false => rw [State.commitPlates_state t cause hf p, ht]
  | true =>
    have hsame : s.commitPlates n t cause = s := by
      unfold State.commitPlates State.commitTable
      rw [hf]
      split <;> rfl
    rw [hsame, hs]

theorem PTable.ne_of_onProof {t : PTable} {p q : PlateId} (hp : (t.get p).state = .rejected) (hq : t.onProof = some q) : p ≠ q := by
  rintro rfl
  unfold PTable.onProof at hq
  split at hq
  · injection hq with hq
    subst hq
    rename_i h
    rw [show (t.get PlateId.a).state = t.a.state from rfl, h] at hp
    cases hp
  · split at hq
    · injection hq with hq
      subst hq
      rename_i h
      rw [show (t.get PlateId.b).state = t.b.state from rfl, h] at hp
      cases hp
    · cases hq

theorem PTable.withState_ne (t : PTable) {p q : PlateId} (x : PState) (h : p ≠ q) : ((t.withState q x).get p) = t.get p :=
  PTable.get_set_ne t _ h

/-- The working table of a pass before its tie: the plate on proof judged. -/
def State.selJudged (s : State) (n : Fin 128) (w : SelWait) : PTable :=
  match (s.plates n).onProof with
  | some q =>
    if w.bad q then (s.plates n).withState q .bad
    else if (s.selProof n w).isSome || (s.pl n).revertWaits then s.plates n else (s.plates n).withState q .rejected
  | none => s.plates n

/-- The tie of two ACTIVE plates, resolved. -/
def PTable.tieBroken (t : PTable) : PTable :=
  if t.a.state = .active ∧ t.b.state = .active then
    (t.withState (if tieWinner t = .a then .b else .a) .previous).set (tieWinner t) { t.get (tieWinner t) with tie := true }
  else t

theorem State.selTable_eq (s : State) (n : Fin 128) (w : SelWait) : (s.selTable n w).1 = (s.selJudged n w).tieBroken := by
  have h : ∀ t : PTable, (if t.a.state = .active ∧ t.b.state = .active then
      ((t.withState (if tieWinner t = .a then .b else .a) .previous).set (tieWinner t) { t.get (tieWinner t) with tie := true }, true)
      else (t, false)).1 = t.tieBroken := fun t => by
    unfold PTable.tieBroken
    split <;> rfl
  exact h (s.selJudged n w)

theorem PTable.tieBroken_rejected {t : PTable} {p : PlateId} (h : (t.get p).state = .rejected) : (t.tieBroken.get p).state = .rejected := by
  unfold PTable.tieBroken
  split
  · rename_i hab
    have hp : p = .recov := by
      cases p with
      | a => exact absurd (hab.1.symm.trans h) (by decide)
      | b => exact absurd (hab.2.symm.trans h) (by decide)
      | recov => rfl
    subst hp
    have hw : tieWinner t ≠ .recov := by
      unfold tieWinner
      split <;> decide
    rw [PTable.get_set_ne _ _ hw.symm, PTable.withState_ne _ _ (by split <;> decide)]
    exact h
  · exact h

theorem State.selJudged_rejected {s : State} {n : Fin 128} (w : SelWait) {p : PlateId} (hp : ((s.plates n).get p).state = .rejected) :
    ((s.selJudged n w).get p).state = .rejected := by
  unfold State.selJudged
  split
  · rename_i q hq
    have hne := PTable.ne_of_onProof hp hq
    split
    · rw [PTable.withState_ne _ _ hne, hp]
    · split
      · exact hp
      · rw [PTable.withState_ne _ _ hne, hp]
  · exact hp

theorem State.selTable_rejected {s : State} {n : Fin 128} (w : SelWait) {p : PlateId} (hp : ((s.plates n).get p).state = .rejected) :
    ((s.selTable n w).1.get p).state = .rejected := by
  rw [State.selTable_eq]
  exact PTable.tieBroken_rejected (State.selJudged_rejected w hp)

theorem PTable.ne_of_candidate {t : PTable} {p q : PlateId} (hp : (t.get p).state = .rejected) (hq : q ∈ candidates t) : p ≠ q := by
  rintro rfl
  unfold candidates at hq
  rw [List.mem_append, List.mem_append, List.mem_filter, List.mem_filter, hp] at hq
  rcases hq with (⟨-, h⟩ | ⟨-, h⟩) | h
  · exact absurd h (by decide)
  · exact absurd h (by decide)
  · split at h
    · rename_i hr
      rw [List.mem_singleton] at h
      subst h
      exact absurd (hr.symm.trans hp) (by decide)
    · cases h

/-- The marks of a pass on the plates that it found bad. -/
def PTable.markBad (t : PTable) (w : SelWait) : PTable :=
  [PlateId.a, .b, .recov].foldl (fun x p => if w.bad p then x.withState p .bad else x) t

theorem PTable.markBad_rejected {t : PTable} {w : SelWait} {p : PlateId} (hb : w.bad p = false) (hp : (t.get p).state = .rejected) :
    ((t.markBad w).get p).state = .rejected := by
  have step : ∀ (l : List PlateId) (x : PTable), (x.get p).state = .rejected →
      ((l.foldl (fun x p => if w.bad p then x.withState p .bad else x) x).get p).state = .rejected := by
    intro l
    induction l with
    | nil => exact fun _ h => h
    | cons q l ih =>
      intro x hx
      refine ih _ ?_
      dsimp only
      split
      · rename_i hq
        have hne : p ≠ q := by
          rintro rfl
          exact absurd (hb.symm.trans hq) (by decide)
        rw [PTable.withState_ne _ _ hne, hx]
      · exact hx
  exact step _ _ hp

theorem selFinal_rejected {t : PTable} {w : SelWait} {run : Option PlateId} {p : PlateId} (hb : w.bad p = false)
    (hp : (t.get p).state = .rejected) (hr : ∀ q, run = some q → p ≠ q) : ((selFinal t w run).get p).state = .rejected := by
  have hm := PTable.markBad_rejected (w := w) hb hp
  unfold selFinal
  dsimp only
  split
  · rename_i q
    split
    · rw [PTable.withState_ne _ _ (hr q rfl)]
      exact hm
    · exact hm
  · exact hm

/-- From s to t the plate stays rejected. -/
def StaysRejected (n : Fin 128) (p : PlateId) (s t : State) : Prop :=
  ((s.plates n).get p).state = .rejected → ((t.plates n).get p).state = .rejected

section

variable {n : Fin 128} {p : PlateId}

theorem StaysRejected.refl (s : State) : StaysRejected n p s s := fun h => h

theorem StaysRejected.comp {s t u : State} (h : StaysRejected n p s t) (h' : StaysRejected n p t u) : StaysRejected n p s u := fun hs => h' (h hs)

theorem StaysRejected.of_frame {fs : List Field} {s t : State} (h : Frame fs s t) (hf : Field.plt ∉ fs) : StaysRejected n p s t := fun hs => by
  have ht : t.plates n = s.plates n := congrArg (fun v => ((vget v n).table.cur).getD PTable.empty) (h .plt hf : t.plt = s.plt)
  rw [ht]
  exact hs

theorem StaysRejected.respects : Respects .plt (StaysRejected n p) where
  refl := StaysRejected.refl
  comp := StaysRejected.comp
  of_frame := StaysRejected.of_frame

theorem State.modPlt_rejected {s₀ s : State} {f : PlateSt → PlateSt} (h : StaysRejected n p s₀ s) (hf : ∀ x, (f x).table = x.table) :
    StaysRejected n p s₀ (s.modPlt n f) := fun hs => by
  rw [State.plates, State.modPlt_pl, hf]
  exact h hs

theorem State.commitPlates_staysRejected {s₀ s : State} {t : PTable} {cause : Nat} (ht : (t.get p).state = .rejected)
    (h : StaysRejected n p s₀ s) : StaysRejected n p s₀ (s.commitPlates n t cause) := fun hs => State.commitPlates_rejected cause (h hs) ht

theorem State.beginAttempt_rejected {s₀ s : State} (h : StaysRejected n p s₀ s) : StaysRejected n p s₀ (s.beginAttempt n) := by
  refine StaysRejected.comp h ?_
  clear h
  unfold State.beginAttempt
  dsimp only
  refine State.modPlt_rejected (StaysRejected.of_frame (fs := [.drawn, .drbg]) ?_ (by decide)) fun _ => rfl
  exact State.drawChallenge_frame (Frame.refl _ s) (by decide)

theorem State.selEnd_rejected {s₀ s : State} {w : SelWait} {t : PTable} {tie : Bool} {run : Option (PlateId × Fin 256)} {attempt : Bool}
    (ht : (t.get p).state = .rejected) (h : StaysRejected n p s₀ s) : StaysRejected n p s₀ (s.selEnd n w t tie run attempt) := by
  refine StaysRejected.comp h ?_
  clear h
  unfold State.selEnd
  dsimp -failIfUnchanged -proj only
  repeat' (with_reducible first
    | assumption
    | apply StaysRejected.refl
    | apply State.modCtl_keeps StaysRejected.respects (by decide)
    | apply State.raise_keeps StaysRejected.respects (by decide)
    | apply State.commitPlates_staysRejected ht
    | apply State.answerAll_keeps StaysRejected.respects (by decide)
    | apply State.bind_keeps StaysRejected.respects (by decide)
    | apply State.beginAttempt_rejected
    | apply State.enterRecoveryState_keeps StaysRejected.respects (by decide)
    | apply State.unbind_keeps StaysRejected.respects (by decide)
    | split)

theorem State.selNote_bad {s : State} {w : SelWait} {q : PlateId} {r : Chk} {loud : Bool} (hb : w.bad p = false) (hq : p ≠ q) :
    (s.selNote n w q r loud).2.bad p = false := by
  unfold State.selNote
  split
  · unfold SelWait.bad
    rw [List.any_append, Bool.or_eq_false_iff]
    exact ⟨hb, by simp [Ne.symm hq]⟩
  · exact hb

/-- A pass judges no plate that is rejected, and so ends without touching it. -/
theorem State.selectFrom_rejected {k : Nat} {w : SelWait} {s₀ s : State} (hb : w.bad p = false) (h : StaysRejected n p s₀ s) :
    StaysRejected n p s₀ (State.selectFrom n k w s) := by
  refine StaysRejected.comp h ?_
  clear h
  induction k generalizing w s with
  | zero => exact StaysRejected.refl s
  | succ k ih =>
    intro hs
    unfold State.selectFrom
    have hcheck : ∀ q, StaysRejected n p s (s.checkPlate n q).2 := fun q =>
      State.checkPlate_keeps StaysRejected.respects (by decide) (StaysRejected.refl s)
    have hnote : ∀ (q : PlateId) (r : Chk) (loud : Bool), StaysRejected n p s (((s.checkPlate n q).2).selNote n w q r loud).1 := fun q r loud =>
      State.selNote_keeps StaysRejected.respects (by decide) (hcheck q)
    split
    · rename_i q hq
      have hpq : p ≠ q := by
        unfold State.selProof at hq
        split at hq
        · rename_i x hx
          split at hq
          · cases hq
          · exact Option.some.inj hq ▸ PTable.ne_of_onProof hs hx
        · cases hq
      dsimp only
      split
      · exact State.modCtl_keeps StaysRejected.respects (by decide) (hcheck q) hs
      · split
        · refine State.selEnd_rejected ?_ (StaysRejected.refl _) (hcheck q hs)
          rw [PTable.get_set_ne _ _ hpq]
          exact hcheck q hs
        · exact ih hb (hcheck q hs)
      · exact ih (State.selNote_bad hb hpq) (hnote q _ false hs)
    · dsimp only
      have ht := State.selTable_rejected w hs
      split
      · exact State.selEnd_rejected (selFinal_rejected hb ht (fun q hq => by cases hq)) (StaysRejected.refl s) hs
      · rename_i q hq
        have hpq : p ≠ q := PTable.ne_of_candidate ht (List.mem_of_find?_eq_some hq)
        split
        · exact State.modCtl_keeps StaysRejected.respects (by decide) (hcheck q) hs
        · exact State.selEnd_rejected (selFinal_rejected hb ht (fun x hx => Option.some.inj hx ▸ hpq)) (StaysRejected.refl _) (hcheck q hs)
        · exact ih (State.selNote_bad hb hpq) (hnote q _ true hs)

theorem State.select_rejected {s₀ s : State} (h : StaysRejected n p s₀ s) : StaysRejected n p s₀ (s.select n) := by
  unfold State.select
  split
  · exact State.modCtl_keeps StaysRejected.respects (by decide) h
  · exact State.selectFrom_rejected rfl (State.completeAdvances_keeps StaysRejected.respects (by decide) h)

theorem State.startTaking_rejected {s₀ s : State} {cause : Cause} {asked : Bool} (h : StaysRejected n p s₀ s) :
    StaysRejected n p s₀ (s.startTaking n cause asked) := by
  refine StaysRejected.comp h ?_
  clear h
  unfold State.startTaking
  dsimp -failIfUnchanged -proj only
  repeat' (with_reducible first
    | assumption
    | apply StaysRejected.refl
    | apply State.stayHeld_keeps StaysRejected.respects (by decide)
    | apply State.transition_keeps StaysRejected.respects (by decide)
    | apply State.modCtl_keeps StaysRejected.respects (by decide)
    | apply State.unbind_keeps StaysRejected.respects (by decide)
    | apply State.select_rejected
    | split)

end

/-! ## A proof that fails -/

/-- The state in which a failed proof is rejected: its arming over, its host held (R117, R118). -/
def State.revertHeld (s : State) (n : Fin 128) : State :=
  if (s.ch n).state.live then (s.endArming n stAborted).hold n .sequence .proof (some .revert)
  else if (s.ch n).seq = some .absent || (s.ch n).seq = some .arming then
    (s.endArming n stAborted).modCtl n fun c => { c with seq := some .revert }
  else s.endArming n stAborted

/-- The proof is rejected, and the next release follows a revert. -/
def State.rejected (s : State) (n : Fin 128) (p : PlateId) (why : Nat) : State :=
  ((s.rejectProof n).modPlt n fun x => { x with revertNext := true }).raise 0x0407 n.1 [p.code, Config.eventWord (96 + why)]

/-- Where the channel goes once its proof is rejected. -/
def State.afterReject (s : State) (n : Fin 128) (stays : Bool) : State :=
  if (s.ch n).state = .held then
    if (s.ch n).kind = .device then s
    else if stays then s.select n
    else if (s.ch n).seq = some .revert then (if (s.ch n).sink then s.startTaking n .proof true else s)
    else s.select n
  else s

theorem State.revert_eq {s : State} {n : Fin 128} {p : PlateId} (why : Nat) (hp : (s.plates n).onProof = some p)
    (hw : (s.pl n).revertWaits = false) :
    s.revert n why = ((s.revertHeld n).rejected n p why).afterReject n
      (decide ((s.ch n).state = .held) && decide ((s.ch n).kind ≠ .sequence)) := by
  unfold State.revert
  rw [hp]
  dsimp only
  rw [if_neg (by rw [hw]; decide)]
  rfl

theorem State.endArming_plates (s : State) (n : Fin 128) (st : Status) : ((s.endArming n st).pl n).table = (s.pl n).table ∧
    ((s.endArming n st).pl n).revertWaits = (s.pl n).revertWaits := by
  unfold State.endArming
  dsimp only
  rw [State.pl, State.answerAll_frame (Frame.refl [.ctl, .spdm, .rings, .views, .awaits, .dev] _) (by decide) .plt (by decide)]
  split
  · have h : (vget (((s.modPlt n fun x => { x with arming := none }).modCtl n fun c => { c with sel := none })).plt n) =
        { s.pl n with arming := none } := (State.modCtl_pl _ _ _ _).trans (State.modPlt_pl _ _ _)
    rw [h]
    exact ⟨rfl, rfl⟩
  · exact ⟨rfl, rfl⟩

theorem State.hold_plt (s : State) (n : Fin 128) (kind : HoldKind) (cause : Cause) (seq : Option SeqKind) :
    (s.hold n kind cause seq).plt = s.plt :=
  State.hold_frame (Frame.refl [.ports, .stn, .ctl, .wdg, .plat, .trace, .spdm, .rings, .views, .awaits, .dev] s) (by decide) .plt (by decide)

theorem State.revertHeld_table (s : State) (n : Fin 128) : ((s.revertHeld n).pl n).table = (s.pl n).table := by
  have h := (State.endArming_plates s n stAborted).1
  unfold State.revertHeld
  split
  · rw [State.pl, State.hold_plt]
    exact h
  · split
    · rw [State.modCtl_pl]
      exact h
    · exact h

theorem State.revertHeld_noCommit (s : State) (n : Fin 128) : (s.revertHeld n).noCommit = s.noCommit := by
  have hfr : Frame [.plt, .ports, .stn, .ctl, .wdg, .plat, .trace, .spdm, .rings, .views, .awaits, .dev] s (s.revertHeld n) := by
    unfold State.revertHeld
    split
    · exact State.hold_frame (State.endArming_frame (Frame.refl _ s) (by decide)) (by decide)
    · split
      · exact Frame.put_ctl (State.endArming_frame (Frame.refl _ s) (by decide)) (by decide)
      · exact State.endArming_frame (Frame.refl _ s) (by decide)
  have hdev : DevKept s (s.revertHeld n) := by
    have he := State.endArming_completes DevKept.completes (DevKept.completes.refl s) (n := n) (st := stAborted)
    unfold State.revertHeld
    split
    · exact State.hold_dev he
    · split
      · exact State.modCtl_keeps DevKept.respects (by decide) he
      · exact he
  unfold State.noCommit
  rw [hfr .power (by decide), hdev]

theorem State.rejectProof_rejected {s : State} {n : Fin 128} {p : PlateId} (hp : (s.plates n).onProof = some p) (hn : s.noCommit = false)
    (hf : s.seqFull n = false) : (((s.rejectProof n).plates n).get p).state = .rejected := by
  unfold State.rejectProof
  rw [hp]
  dsimp only
  generalize hu : s.modPlt n _ = u
  have hun : u.noCommit = false := hu ▸ hn
  have huf : u.seqFull n = false := by
    rw [← hf, ← hu, State.seqFull, State.modPlt_pl]
    rfl
  rw [if_neg (by rw [hun]; decide), State.commitPlates_state _ _ huf, PTable.get_withState_self]

theorem State.rejected_plate {s : State} {n : Fin 128} {p : PlateId} (why : Nat) (hp : (s.plates n).onProof = some p)
    (hn : s.noCommit = false) (hf : s.seqFull n = false) : (((s.rejected n p why).plates n).get p).state = .rejected := by
  unfold State.rejected
  refine State.raise_keeps StaysRejected.respects (by decide) (StaysRejected.refl _) ?_
  exact State.modPlt_rejected (StaysRejected.refl (s.rejectProof n)) (fun _ => rfl) (State.rejectProof_rejected hp hn hf)

theorem State.afterReject_rejected {s : State} {n : Fin 128} {stays : Bool} {p : PlateId} (h : ((s.plates n).get p).state = .rejected) :
    (((s.afterReject n stays).plates n).get p).state = .rejected := by
  unfold State.afterReject
  repeat' split
  · exact h
  · exact State.select_rejected (StaysRejected.refl s) h
  · exact State.startTaking_rejected (StaysRejected.refl s) h
  · exact h
  · exact State.select_rejected (StaysRejected.refl s) h
  · exact h

theorem State.rejected_ch (s : State) (n : Fin 128) (p : PlateId) (why : Nat) : (s.rejected n p why).ch n = s.ch n := by
  unfold State.rejected
  rw [State.raise_ch, State.modPlt_ch]
  exact congrArg (vget · n) (State.rejectProof_frame (Frame.refl [.plt, .led, .rings, .trace] s) (by decide) .ctl (by decide))

/-- A proof that fails on a running host: the host is held by a revert sequence until its HOLD# sinks. -/
theorem State.revertHeld_live {s : State} {n : Fin 128} (hl : (s.ch n).state.live = true) (hk : (s.ch n).sink = false) :
    ((s.revertHeld n).ch n).state = .held ∧ ((s.revertHeld n).ch n).kind = .sequence ∧ ((s.revertHeld n).ch n).seq = some .revert ∧
      ((s.revertHeld n).ch n).holdWait = true ∧ ((s.revertHeld n).ch n).sink = false := by
  unfold State.revertHeld
  rw [if_pos hl]
  have hh := State.hold_ch (s.endArming n stAborted) n .sequence .proof (some .revert)
  have hsink : ((s.endArming n stAborted).ch n).sink = false := (congrArg (fun x => x.1.1) (State.endArming_lasting s n stAborted n)).trans hk
  refine ⟨hh.state, hh.kind, hh.seq, hh.holdWait.trans (by rw [hsink]; rfl), (congrArg Prod.fst hh.wires).trans hsink⟩

theorem State.afterReject_waits {s : State} {n : Fin 128} (h : (s.ch n).state = .held) (hk : (s.ch n).kind = .sequence)
    (hs : (s.ch n).seq = some .revert) (hx : (s.ch n).sink = false) : s.afterReject n false = s := by
  unfold State.afterReject
  rw [if_pos h, if_neg (by rw [hk]; decide), if_neg Bool.false_ne_true, if_pos hs, if_neg (by rw [hx]; decide)]

/-- The revert of a proof: the plate REJECTED, a running host held by a revert sequence (R117, R118). -/
theorem State.revert_parts {s : State} {n : Fin 128} {p : PlateId} (why : Nat) (hp : (s.plates n).onProof = some p)
    (hw : (s.pl n).revertWaits = false) (hn : s.noCommit = false) (hf : s.seqFull n = false) :
    (((s.revert n why).plates n).get p).state = .rejected ∧
      ((s.ch n).state.live = true → (s.ch n).sink = false →
        ((s.revert n why).ch n).state = .held ∧ ((s.revert n why).ch n).seq = some .revert ∧ ((s.revert n why).ch n).holdWait = true) := by
  have htab := s.revertHeld_table n
  have hp' : ((s.revertHeld n).plates n).onProof = some p := by
    rw [State.plates, htab]
    exact hp
  have hf' : (s.revertHeld n).seqFull n = false := by
    rw [State.seqFull, htab]
    exact hf
  rw [State.revert_eq why hp hw]
  refine ⟨State.afterReject_rejected (State.rejected_plate why hp' ((s.revertHeld_noCommit n).trans hn) hf'), fun hl hk => ?_⟩
  obtain ⟨hst, hkind, hseq, hwait, hsink⟩ := State.revertHeld_live hl hk
  have hstay : (decide ((s.ch n).state = .held) && decide ((s.ch n).kind ≠ .sequence)) = false := by
    have : (s.ch n).state ≠ .held := fun h => by rw [h] at hl; exact absurd hl (by decide)
    simp [this]
  have hch := State.rejected_ch (s.revertHeld n) n p why
  rw [hstay, State.afterReject_waits (by rw [hch, hst]) (by rw [hch, hkind]) (by rw [hch, hseq]) (by rw [hch, hsink]), hch]
  exact ⟨hst, hseq, hwait⟩

theorem exec_proofDeadline {s : State} {n : Fin 128} {d : Nat} (hd : (s.pl n).deadline = some d) (ho : s.onProof n = true)
    (ha : (s.until d).acceptWaits n = false) (hn : s.noCommit = false) :
    exec (.proofDeadline n) s = .next ((s.until d).revert n 1) := by
  refine congrArg Host.Outcome.next ?_
  rw [hd]
  dsimp only
  rw [if_pos ho]
  unfold State.proofFails
  rw [ha, if_neg Bool.false_ne_true, if_neg]
  have hcc : s.dev.ccAbsent = false := (Bool.or_eq_false_iff.mp hn).2
  exact ne_true_of_eq_false hcc

end Sys2Proof.Machine
end


section
/-! SUPPORT. The outcomes of PLATE_ARM_PROOF and IMAGE_COMMIT in the terms of their statement. -/

namespace Sys2Proof.Machine

open Sys2Proof

/-- A statement by cases holds where each case does. -/
theorem ite_intro {c A B : Prop} [Decidable c] (ha : c → A) (hb : ¬c → B) : if c then A else B := by
  split
  · exact ha ‹_›
  · exact hb ‹_›

theorem State.answered_ch (s u : State) (src : Src) (a : Answer) (n : Fin 128) : ((u.deliver src a).noteCommit s src).ch n = u.ch n :=
  congrArg (vget · n) (State.answered_frame s u src a .ctl (by decide))

theorem State.answered_pool (s u : State) (src : Src) (a : Answer) : ((u.deliver src a).noteCommit s src).pool = u.pool :=
  State.answered_frame s u src a .pool (by decide)

/-- Noting a command's commits changes the ledger alone. -/
theorem State.noted_frame (t s : State) (src : Src) : Frame [.led] t (t.noteCommit s src) := by
  obtain ⟨l, hl⟩ := State.noteCommit_eq t s src
  rw [hl]
  exact Frame.put_led (Frame.refl _ t) (by decide)

theorem State.noted_ch (t s : State) (src : Src) (n : Fin 128) : (t.noteCommit s src).ch n = t.ch n :=
  congrArg (vget · n) (State.noted_frame t s src .ctl (by decide))

theorem State.noted_pl (t s : State) (src : Src) (n : Fin 128) : (t.noteCommit s src).pl n = t.pl n :=
  congrArg (vget · n) (State.noted_frame t s src .plt (by decide))

theorem State.noted_plates (t s : State) (src : Src) (n : Fin 128) : (t.noteCommit s src).plates n = t.plates n :=
  congrArg (fun v => ((vget v n).table.cur).getD PTable.empty) (State.noted_frame t s src .plt (by decide))

theorem State.noted_awaits (t s : State) (src : Src) : (t.noteCommit s src).awaits = t.awaits := State.noted_frame t s src .awaits (by decide)

/-- PLATE_ARM_PROOF of an idle channel whose plate passes its check: the plate stands on proof under a fresh challenge. -/
theorem State.beginArm_proof {s : State} {who : Asker} {src : Src} {n : Fin 128} {p : PlateId} {i : Fin 256}
    (hs : s.armAsked src n p = stSuccess) (hr : s.dev.state = .running) (hl : (s.ch n).state.live = false)
    (hc : (s.checkPlate n p).1 = .ok i) (hn : s.noCommit = false) (hw : (s.pl n).revertWaits = false) :
    let t := (s.wait who n .arm).beginArm n p
    ((t.plates n).get p).state = .proof ∧ ((t.plates n).get p).attempts = 1 ∧ (t.pl n).challenge = Config.challenge s.drawn ∧
      ((s.ch n).state = .recovery → (t.ch n).state = .taking) := by
  obtain ⟨hp, hf⟩ := State.armAsked_success hs
  rw [State.beginArm_idle hl hc hn hf]
  have hpl := State.armingOf_pl s who n { plate := p, live := false, committed := false }
  have hf' : (s.armingOf who n { plate := p, live := false, committed := false }).seqFull n = false := by
    rw [State.seqFull, hpl]
    exact hf
  exact State.armCommit_idle rfl hf' (by rw [hpl]; exact hw) hr hp

end Sys2Proof.Machine

namespace Sys2Proof

open Sys2Proof.Machine

/-- Settles O44: each command's own work is followed from the command that is taken to the plate table that it commits; the selection after a
rejected proof touches no rejected plate. -/
theorem plateCommandsStageCommitEraseAndArm : Obligations.PlateCommandsStageCommitEraseAndArm := by
  intro s src ch n plate part p offset len data readback faults fam v hch hon hp
  refine ⟨fun ha hv hpart => ?stage, fun ha hv hsec => ?commit, fun ha => ?erase, fun ha => ?status, fun ha hv => ?arm, fun ha hne hf => ?advance,
    fun d hd ho hpr hacc hn hf => ?deadline⟩
  case stage =>
    have he := exec_imageStage (offset := offset) (data := data) hch hon hp ha hv hpart
    refine ite_intro (fun hs => ⟨_, he.trans (congrArg Host.Outcome.next (if_pos hs)), ?_⟩)
      fun hs => he.trans (congrArg Host.Outcome.next (if_neg hs))
    obtain ⟨hst, hx⟩ := State.staged_parts hs
    obtain ⟨hclaim, hrest, hpick⟩ := Staging.withPart_parts { s.stagedSoFar src.mgr n p with claim := some (.manager src.mgr) } part offset data
    rw [State.answered_plates, State.answered_pl, hx]
    exact ⟨hst, hclaim, hrest, fun a => (congrArg (SMap.get? · a) hpick).trans (putBytes_get _ _ _ _)⟩
  case commit =>
    have he := exec_imageCommit hch hon hp ha hv hsec
    refine ⟨_, he, fun h0 => h0 ▸ State.commitJob_clean s src.mgr n p, fun h2 hn => State.commitJob_faulted h2 hn, ite_intro (fun hs => ?_) fun hs => ?_⟩
    · obtain ⟨⟨hst, hsvn, hbuild, hfam, hroot⟩, hclaim, hobj⟩ := State.commitVerified_parts (s.commitJudged src.mgr n p readback faults).2.2 hs.2
      rw [if_pos (State.commitJudged_success.mpr hs), State.answered_plates, State.answered_pl, State.poolObj_pool (State.answered_pool _ _ _ _)]
      exact ⟨hst, (congrArg BitVec.toNat hsvn).trans (BitVec.toNat_ofNat _ _), (congrArg BitVec.toNat hbuild).trans (BitVec.toNat_ofNat _ _), hfam,
        hroot, hclaim, hobj⟩
    · rw [if_neg (fun h => hs (State.commitJudged_success.mp h)), State.answered_plt, State.answered_pool]
      exact ⟨State.commitRefused_same _ _ _ _ _ .plt (by decide), State.commitRefused_same _ _ _ _ _ .pool (by decide)⟩
  case erase =>
    have he := exec_plateErase hch hon hp ha
    refine ite_intro (fun hs => ⟨_, he.trans (congrArg Host.Outcome.next (if_pos hs)), ?_⟩)
      fun hs => he.trans (congrArg Host.Outcome.next (if_neg hs))
    rw [State.answered_plates, State.answered_pl]
    exact State.erasePlate_parts hs
  case status => exact exec_plateStatus hch hon ha
  case arm =>
    have he := exec_plateArmProof hch hon hp ha hv
    refine ⟨fun hs => he.trans (congrArg Host.Outcome.next (if_neg hs)), fun hs =>
      ⟨_, he.trans (congrArg Host.Outcome.next (if_pos hs)), fun hl hk => ?_, fun i hl hc hn hw => ?_⟩⟩
    · rw [State.noted_ch, State.noted_pl, State.noted_plates, State.noted_awaits]
      exact State.beginArm_live hl hk
    · rw [State.noted_ch, State.noted_pl, State.noted_plates]
      exact State.beginArm_proof hs (State.running_of_takes (ha _ _ rfl) rfl rfl) hl hc hn hw
  case advance =>
    have he := exec_advanceMinVersion hch hon ha hne hf
    refine ite_intro (fun hs => ⟨_, he.trans (congrArg Host.Outcome.next (if_pos hs)), ?_⟩)
      fun hs => he.trans (congrArg Host.Outcome.next (if_neg hs))
    rw [State.answered_min]
    exact State.advanced_min hs
  case deadline =>
    have hw : (s.pl n).revertWaits = false := by simpa using (Bool.and_eq_true_iff.mp ho).2
    exact ⟨_, exec_proofDeadline hd ho hacc hn, State.revert_frame (Frame.refl _ (s.until d)) (Field.sub_refl _) .now (by decide),
      State.revert_parts (s := s.until d) 1 hpr hw hn hf⟩

end Sys2Proof

end


section
/-! SUPPORT. Device firmware (R122 to R124): the device's plate table, staging, commit, acceptance and revert. -/

namespace Sys2Proof.Machine

open Sys2Proof

/-! ## The device's plate table -/

theorem State.fwTable_of_devfw {s t : State} (h : t.devfw = s.devfw) : t.fwTable = s.fwTable := congrArg (fun d => (d.table.cur).getD PTable.empty) h

theorem State.commitFwTable_get (s : State) (t : PTable) (p : PlateId) : (s.commitFwTable t).fwTable.get p = t.get p := by
  change (((s.devfw.table.commit { t with conflict := s.devfw.table.tied }).cur).getD PTable.empty).get p = _
  rw [LPair.cur_commit, Option.getD_some]
  cases p <;> rfl

/-- A commit of the device's plate table leaves its plates. -/
theorem State.commitFw_get (s : State) (t : PTable) (p : PlateId) : (s.commitFw t).fwTable.get p = t.get p := by
  unfold State.commitFw
  split
  · rename_i h
    rw [Bool.and_eq_true, decide_eq_true_eq] at h
    rw [h.1]
  · exact State.commitFwTable_get s t p

/-- It changes nothing of the device firmware but the table. -/
theorem State.commitFw_devfw (s : State) (t : PTable) : ∃ v, (s.commitFw t).devfw = { s.devfw with table := v } := by
  unfold State.commitFw
  split
  · exact ⟨_, rfl⟩
  · exact ⟨_, rfl⟩

theorem State.commitFw_dev (s : State) (t : PTable) : (s.commitFw t).dev = s.dev :=
  State.commitFw_frame (Frame.refl [.devfw, .led] s) (by decide) .dev (by decide)

theorem State.logDevice_devfw (s : State) (kind x : Nat) : (s.logDevice kind x).devfw = s.devfw := State.log_devfw _ _ _ _

theorem State.logDevice_dev (s : State) (kind x : Nat) : (s.logDevice kind x).dev = s.dev := State.log_dev _ _ _ _

theorem State.ccRestart_devfw (s : State) (cause : Nat) : (s.ccRestart cause).devfw = s.devfw :=
  State.ccRestart_frame (Frame.refl _ s) (Field.sub_refl _) .devfw (by decide)

theorem State.answered_devfw (s u : State) (src : Src) (a : Answer) : ((u.deliver src a).noteCommit s src).devfw = u.devfw :=
  State.answered_frame s u src a .devfw (by decide)

theorem State.fwTarget_ab (s : State) : s.fwTarget = .a ∨ s.fwTarget = .b := by
  unfold State.fwTarget
  dsimp only
  split_ifs <;> simp

theorem PlateId.otherAB_ne {p : PlateId} (h : p ≠ .recov) : p.otherAB ≠ p := by
  cases p
  · decide
  · decide
  · exact absurd rfl h

theorem PTable.onProof_ab {t : PTable} {q : PlateId} (h : t.onProof = some q) : q ≠ .recov := by
  rintro rfl
  unfold PTable.onProof at h
  split_ifs at h <;> cases h

/-! ## Staging -/

/-- The state with the staging of the target plate begun. -/
def State.fwBegun (s : State) (m : Mgr) : State :=
  if (s.fwTable.get s.fwTarget).state = .staging ∧ s.devfw.claim = some m then s
  else (s.commitFwTable (s.fwTable.set s.fwTarget { Plate.empty with state := .staging, src := 3 })).logDevice 0x10 s.fwTarget.code

theorem State.fwBegun_parts (s : State) (m : Mgr) :
    ((s.fwBegun m).fwTable.get s.fwTarget).state = .staging ∧ ∃ v, (s.fwBegun m).devfw = { s.devfw with table := v } := by
  unfold State.fwBegun
  split
  · rename_i h
    exact ⟨h.1, _, rfl⟩
  · constructor
    · rw [State.fwTable_of_devfw (State.logDevice_devfw _ _ _), State.commitFwTable_get, PTable.get_set_self]
    · exact ⟨_, State.logDevice_devfw _ _ _⟩

/-- The package that a part is written into. -/
def State.fwSoFar (s : State) (m : Mgr) : SMap Byte :=
  if (s.fwTable.get s.fwTarget).state = .staging ∧ s.devfw.claim = some m then s.fwPkg s.fwTarget else []

/-- The device firmware with a package written for the plate, claimed. -/
def DevFw.written (d : DevFw) (m : Mgr) (p : PlateId) (pkg : SMap Byte) : DevFw :=
  if p = .a then { d with claim := some m, pkgA := pkg } else { d with claim := some m, pkgB := pkg }

theorem State.fwStage_eq (s : State) (m : Mgr) (off : Nat) (data : List Byte) :
    s.fwStage m off data =
      { s.fwBegun m with devfw := (s.fwBegun m).devfw.written m s.fwTarget (putBytes (s.fwSoFar m) off data) } := rfl

theorem State.fwStage_parts (s : State) (m : Mgr) (off : Nat) (data : List Byte) :
    ((s.fwStage m off data).fwTable.get s.fwTarget).state = .staging ∧ (s.fwStage m off data).devfw.claim = some m ∧
      (s.fwStage m off data).fwPkg s.fwTarget = putBytes (s.fwSoFar m) off data := by
  obtain ⟨hst, -⟩ := s.fwBegun_parts m
  rw [State.fwStage_eq]
  generalize s.fwBegun m = u at hst ⊢
  generalize putBytes (s.fwSoFar m) off data = pkg
  rcases s.fwTarget_ab with hp | hp
  · rw [hp] at hst ⊢
    exact ⟨hst, rfl, rfl⟩
  · rw [hp] at hst ⊢
    exact ⟨hst, rfl, rfl⟩

theorem State.fwSoFar_get (s : State) (m : Mgr) (a : Nat) : SMap.get? (s.fwSoFar m) a =
    if (s.fwTable.get s.fwTarget).state = .staging ∧ s.devfw.claim = some m then SMap.get? (s.fwPkg s.fwTarget) a else none := by
  unfold State.fwSoFar
  split <;> rfl

theorem exec_deviceFwStage {s : State} {src : Src} {off : Nat} {data : List Byte} (ha : s.allows (.deviceFwStage src off data)) :
    exec (.deviceFwStage src off data) s = .next
      (if s.fwStageStatus src.mgr off data.length = stSuccess then ((s.fwStage src.mgr off data).deliver src okAns).noteCommit s src
      else s.deliver src (ans (s.fwStageStatus src.mgr off data.length) (if s.fwStageStatus src.mgr off data.length ≠ stInvalidField then 0
        else if data.length = 0 ∨ 1048576 < data.length then 24 else 12))) := by
  have ht : s.takes src (gateOf (.deviceFwStage src off data)) := ha _ _ rfl
  refine congrArg Host.Outcome.next ((State.ovdel_takes _ ht).trans ?_)
  dsimp only
  split
  · rfl
  · exact State.answered_alone _ _ _

/-! ## Commit -/

/-- The state of a commit before it activates anything: a staging STAGED, the claim ended. -/
def State.fwVerified (s : State) : State :=
  let u := if (s.fwTable.get s.fwTarget).state = .staging then s.commitFw (s.fwTable.set s.fwTarget (s.fwEntry s.fwTarget .staged 0)) else s
  { u with devfw := { u.devfw with claim := none } }

/-- What a commit changes of the device firmware before it activates anything. -/
theorem State.fwVerified_parts (s : State) :
    (∃ v, s.fwVerified.devfw = { s.devfw with table := v, claim := none }) ∧ s.fwVerified.dev = s.dev ∧
      s.fwVerified.fwTable.get s.fwTarget =
        if (s.fwTable.get s.fwTarget).state = .staging then s.fwEntry s.fwTarget .staged 0 else s.fwTable.get s.fwTarget := by
  unfold State.fwVerified
  dsimp only
  split
  · obtain ⟨v, hv⟩ := s.commitFw_devfw (s.fwTable.set s.fwTarget (s.fwEntry s.fwTarget .staged 0))
    have hg := s.commitFw_get (s.fwTable.set s.fwTarget (s.fwEntry s.fwTarget .staged 0)) s.fwTarget
    have hd := s.commitFw_dev (s.fwTable.set s.fwTarget (s.fwEntry s.fwTarget .staged 0))
    rw [PTable.get_set_self] at hg
    generalize s.commitFw (s.fwTable.set s.fwTarget (s.fwEntry s.fwTarget .staged 0)) = u at hv hg hd
    exact ⟨⟨v, by rw [hv]⟩, hd, hg⟩
  · exact ⟨⟨_, rfl⟩, rfl, rfl⟩

/-- The proof that an activation commits. -/
def State.fwProof (s : State) (p : PlateId) (tries : Byte) : State :=
  (s.commitFw (s.fwTable.set p (s.fwEntry p .proof tries))).logDevice 0x11 (s.fwTable.get p).svn.toNat

theorem State.fwProof_parts (s : State) (p : PlateId) (tries : Byte) :
    (∃ v, (s.fwProof p tries).devfw = { s.devfw with table := v }) ∧ (s.fwProof p tries).dev = s.dev ∧
      (s.fwProof p tries).fwTable.get p = s.fwEntry p .proof tries := by
  unfold State.fwProof
  have hl := State.logDevice_devfw (s.commitFw (s.fwTable.set p (s.fwEntry p .proof tries))) 0x11 (s.fwTable.get p).svn.toNat
  refine ⟨?_, ?_, ?_⟩
  · obtain ⟨v, hv⟩ := s.commitFw_devfw (s.fwTable.set p (s.fwEntry p .proof tries))
    exact ⟨v, hl.trans hv⟩
  · rw [State.logDevice_dev, State.commitFw_dev]
  · rw [State.fwTable_of_devfw hl, State.commitFw_get, PTable.get_set_self]

theorem State.fwCommit_eq (s : State) (activate : Bool) :
    s.fwCommit activate =
      if (!(activate || decide (s.fwVerified.dev.state = .deviceRecovery))) = true then s.fwVerified
      else if s.fwVerified.dev.state = .deviceRecovery then
        (s.fwVerified.fwProof s.fwTarget (if s.fwVerified.dev.state = .deviceRecovery then 0 else 1)).warmReset (some 5)
      else ((s.fwVerified.fwProof s.fwTarget (if s.fwVerified.dev.state = .deviceRecovery then 0 else 1)).runFw s.fwTarget true).ccRestart
        fwActivate := rfl

theorem State.fwCommit_stays {s : State} (hr : s.dev.state ≠ .deviceRecovery) : s.fwCommit false = s.fwVerified := by
  rw [State.fwCommit_eq, s.fwVerified_parts.2.1, decide_eq_false hr]
  rfl

theorem State.fwCommit_activates {s : State} (hr : s.dev.state ≠ .deviceRecovery) :
    s.fwCommit true = ((s.fwVerified.fwProof s.fwTarget 1).runFw s.fwTarget true).ccRestart fwActivate := by
  rw [State.fwCommit_eq, s.fwVerified_parts.2.1, if_neg (by simp), if_neg hr, if_neg hr]

theorem State.fwCommit_recovers {s : State} (activate : Bool) (hr : s.dev.state = .deviceRecovery) :
    s.fwCommit activate = (s.fwVerified.fwProof s.fwTarget 0).warmReset (some 5) := by
  rw [State.fwCommit_eq, s.fwVerified_parts.2.1, if_neg (by simp [hr]), if_pos hr, if_pos hr]

/-- The entry of a staged package depends on the package alone. -/
theorem State.fwEntry_congr {s t : State} (p : PlateId) (st : PState) (tries : Byte) (h : t.fwPkg p = s.fwPkg p) :
    t.fwEntry p st tries = s.fwEntry p st tries := by
  unfold State.fwEntry
  rw [h]

theorem State.fwVerified_pkg (s : State) (p : PlateId) : s.fwVerified.fwPkg p = s.fwPkg p := by
  obtain ⟨⟨v, hv⟩, -, -⟩ := s.fwVerified_parts
  unfold State.fwPkg
  rw [hv]

theorem State.warmClear_devfw (s : State) : s.warmClear.devfw = { s.devfw with claim := none, deadline := none, onProof := false } := by
  have h : (s.sinkAll.forChans fun n s => s.warmChan n).devfw = s.devfw :=
    State.forChans_frame (State.sinkAll_frame (Frame.refl [.ctl, .trace, .rings] s) (by decide))
      (fun n u => State.warmChan_frame (Frame.refl _ u) (by decide)) .devfw (by decide)
  unfold State.warmClear
  dsimp only
  rw [← h]

theorem State.warmReset_devfw (s : State) (c : Option Nat) :
    (s.warmReset c).devfw = { s.devfw with claim := none, deadline := none, onProof := false } := by
  rw [← s.warmClear_devfw]
  unfold State.warmReset State.warmInto
  exact State.setDev_devfw _ _

theorem State.warmReset_fwTable (s : State) (c : Option Nat) : (s.warmReset c).fwTable = s.fwTable :=
  (congrArg (fun d : DevFw => (d.table.cur).getD PTable.empty) (s.warmReset_devfw c) :)

theorem State.warmReset_claim (s : State) (c : Option Nat) : (s.warmReset c).devfw.claim = none := congrArg DevFw.claim (s.warmReset_devfw c)

theorem State.warmReset_into (s : State) (c : Nat) :
    (s.warmReset (some c)).dev.state = .shadow ∧ (s.warmReset (some c)).dev.resetCause = BitVec.ofNat 4 c := by
  unfold State.warmReset
  exact s.warmInto_dev c .shadow

/-- A commit in DEVICE_RECOVERY: the plate on proof without an attempt, and the device back in SHADOW (R124). -/
theorem State.fwCommit_recovery {s : State} (activate : Bool) (hr : s.dev.state = .deviceRecovery) :
    (s.fwCommit activate).fwTable.get s.fwTarget = s.fwEntry s.fwTarget .proof 0 ∧ (s.fwCommit activate).devfw.claim = none ∧
      (s.fwCommit activate).dev.state = .shadow ∧ (s.fwCommit activate).dev.resetCause = 5 := by
  obtain ⟨-, -, hget⟩ := s.fwVerified.fwProof_parts s.fwTarget 0
  obtain ⟨hst, hcause⟩ := (s.fwVerified.fwProof s.fwTarget 0).warmReset_into 5
  rw [State.fwCommit_recovers activate hr]
  refine ⟨?_, ?_, hst, hcause⟩
  · rw [State.warmReset_fwTable, hget]
    exact State.fwEntry_congr _ _ _ (s.fwVerified_pkg _)
  · exact State.warmReset_claim _ _

/-- A commit that activates: the plate on proof in its first attempt, running, and the control cluster restarting (R122). -/
theorem State.fwCommit_activated {s : State} (hr : s.dev.state ∈ [DevState.start, .running, .safeHold, .standby]) :
    (s.fwCommit true).fwTable.get s.fwTarget = s.fwEntry s.fwTarget .proof 1 ∧ (s.fwCommit true).devfw.claim = none ∧
      (s.fwCommit true).devfw.running = s.fwTarget ∧ (s.fwCommit true).devfw.onProof = true ∧ (s.fwCommit true).dev.ccAbsent = true := by
  obtain ⟨⟨v, hv⟩, hvdev, -⟩ := s.fwVerified_parts
  obtain ⟨⟨w, hw⟩, hdev, hget⟩ := s.fwVerified.fwProof_parts s.fwTarget 1
  rw [State.fwCommit_activates (by rintro h; rw [h] at hr; exact absurd hr (by decide))]
  have hentry : s.fwVerified.fwEntry s.fwTarget .proof 1 = s.fwEntry s.fwTarget .proof 1 := State.fwEntry_congr _ _ _ (s.fwVerified_pkg _)
  generalize s.fwVerified.fwProof s.fwTarget 1 = u at hw hdev hget ⊢
  refine ⟨?_, ?_, ?_, ?_, ?_⟩
  · rw [State.fwTable_of_devfw (State.ccRestart_devfw _ _), ← hentry, ← hget]
    rfl
  · rw [State.ccRestart_devfw]
    change u.devfw.claim = none
    rw [hw, hv]
  · rw [State.ccRestart_devfw]
    rfl
  · rw [State.ccRestart_devfw]
    rfl
  · refine (State.ccRestart_absent ?_).1
    change u.dev.state ∈ _
    rw [hdev, hvdev]
    exact hr

/-- A commit that activates nothing leaves a staging STAGED. -/
theorem State.fwCommit_stayed {s : State} (hr : s.dev.state ≠ .deviceRecovery) :
    (s.fwCommit false).fwTable.get s.fwTarget =
        (if (s.fwTable.get s.fwTarget).state = .staging then s.fwEntry s.fwTarget .staged 0 else s.fwTable.get s.fwTarget) ∧
      (s.fwCommit false).devfw.claim = none ∧ (s.fwCommit false).dev = s.dev := by
  obtain ⟨⟨v, hv⟩, hdev, hget⟩ := s.fwVerified_parts
  rw [State.fwCommit_stays hr]
  exact ⟨hget, by rw [hv], hdev⟩

theorem State.consumed_state {s : State} {src : Src} {g : Gate} (h : s.takes src g) (hr : s.dev.state ≠ .deviceRecovery) :
    s.dev.state ∈ [DevState.start, .running, .safeHold, .standby] := by
  obtain ⟨hw, -, -⟩ := h
  have hcon : s.consumes src = true := by
    unfold State.waits at hw
    simp only [Bool.or_eq_false_iff, Bool.not_eq_false'] at hw
    exact hw.1.1.2
  unfold State.consumes at hcon
  cases hd : s.dev.state <;> simp_all

theorem exec_deviceFwCommit {s : State} {src : Src} {activate : Bool} (ha : s.allows (.deviceFwCommit src activate))
    (hsec : s.isSecondary src.mgr = false) :
    exec (.deviceFwCommit src activate) s = .next
      (if s.fwCommitStatus src.mgr activate = stSuccess then
        ((s.deliver src (okAns (leBytes 4 (Config.fwHeader (fwBytes (s.fwPkg s.fwTarget) 0 256)).svn))).fwCommit activate).noteCommit s src
      else s.deliver src (ans (s.fwCommitStatus src.mgr activate))) := by
  have ht : s.takes src (gateOf (.deviceFwCommit src activate)) := ha _ _ rfl
  refine congrArg Host.Outcome.next ((State.ovdel_takes _ ht).trans ?_)
  dsimp only
  rw [if_neg (by rw [hsec]; decide)]
  split
  · rfl
  · exact State.answered_alone _ _ _

/-! ## Acceptance and revert -/

/-- The plate of a proof that is accepted: ACTIVE, the proof over, a former ACTIVE one PREVIOUS. -/
theorem State.acceptFw_parts {s : State} {q : PlateId} (b : Nat) (hq : s.fwTable.onProof = some q) :
    ((s.acceptFw b).fwTable.get q).state = .active ∧ (s.acceptFw b).devfw.onProof = false ∧ (s.acceptFw b).devfw.deadline = none ∧
      ((s.fwTable.get q.otherAB).state = .active → ((s.acceptFw b).fwTable.get q.otherAB).state = .previous) := by
  have hne := PlateId.otherAB_ne (PTable.onProof_ab hq)
  unfold State.acceptFw
  rw [hq]
  dsimp only
  generalize ht : (if (s.fwTable.get q.otherAB).state = .active then s.fwTable.withState q.otherAB .previous else s.fwTable) = t
  have hg := State.commitFw_get s (t.withState q .active)
  generalize s.commitFw (t.withState q .active) = u at hg ⊢
  have hl := State.logDevice_devfw (({ u with devfw := { u.devfw with onProof := false, deadline := none } } : State).raise 0x0803 devCh
    [(t.get q).svn.toNat, Config.eventWord (80 + b)]) 0x12 (t.get q).svn.toNat
  rw [State.raise_devfw] at hl
  have hgt : ∀ p, (State.fwTable ((({ u with devfw := { u.devfw with onProof := false, deadline := none } } : State).raise 0x0803 devCh
    [(t.get q).svn.toNat, Config.eventWord (80 + b)]).logDevice 0x12 (t.get q).svn.toNat)).get p = (t.withState q .active).get p := fun p =>
      (congrArg (fun d : DevFw => ((d.table.cur).getD PTable.empty).get p) hl).trans (hg p)
  refine ⟨?_, by rw [hl], by rw [hl], fun ho => ?_⟩
  · rw [hgt, PTable.get_withState_self]
  · rw [hgt, PTable.get_withState_ne _ _ hne, ← ht, if_pos ho, PTable.get_withState_self]

/-- A device-firmware proof that fails: REJECTED, and the proof over. -/
theorem State.revertFw_parts {s : State} {q : PlateId} (cause : Nat) (hq : s.fwTable.onProof = some q) (hi : s.inhibited = false) :
    ((s.revertFw cause).fwTable.get q).state = .rejected ∧ (s.revertFw cause).devfw.onProof = false := by
  unfold State.revertFw
  rw [hq]
  dsimp only
  rw [hi, if_neg Bool.false_ne_true]
  have hg := State.commitFw_get s (s.fwTable.withState q .rejected) q
  rw [PTable.get_withState_self] at hg
  generalize s.commitFw (s.fwTable.withState q .rejected) = u at hg ⊢
  generalize (s.fwTable.get q).svn.toNat = v
  have hl := State.logDevice_devfw (({ u with devfw := { u.devfw with onProof := false, deadline := none } } : State).raise 0x0802 devCh
    [v, Config.eventWord (64 + cause)]) 0x13 v
  rw [State.raise_devfw] at hl
  generalize (({ u with devfw := { u.devfw with onProof := false, deadline := none } } : State).raise 0x0802 devCh
    [v, Config.eventWord (64 + cause)]).logDevice 0x13 v = w at hl ⊢
  have hw : (w.fwTable.get q).state = .rejected :=
    (congrArg (fun d : DevFw => (((d.table.cur).getD PTable.empty).get q).state) hl).trans (congrArg Plate.state hg)
  split
  · constructor
    · rw [State.fwTable_of_devfw (State.ccRestart_devfw _ _)]
      exact hw
    · rw [State.ccRestart_devfw]
      rfl
  · have he : (w.warmClear.enterRecoveryDevice).devfw = w.warmClear.devfw :=
      State.enterRecoveryDevice_frame (Frame.refl _ _) (Field.sub_refl _) .devfw (by decide)
    rw [w.warmClear_devfw] at he
    exact ⟨(congrArg (fun d : DevFw => (((d.table.cur).getD PTable.empty).get q).state) he).trans hw, by rw [he]⟩

theorem exec_deviceFwAccept {s : State} {src : Src} (ha : s.allows (.deviceFwAccept src)) (hsec : s.isSecondary src.mgr = false)
    (hon : s.devfw.onProof = true) (hi : s.inhibited = false) :
    exec (.deviceFwAccept src) s = .next (((s.acceptFw (mgrNum src.mgr)).deliver src okAns).noteCommit s src) := by
  have ht : s.takes src (gateOf (.deviceFwAccept src)) := ha _ _ rfl
  refine congrArg Host.Outcome.next ((State.ovdel_takes _ ht).trans ?_)
  rw [hsec, hon, hi]
  rfl

theorem exec_devfwSelftestDone {s : State} (pass : Bool) (hon : s.devfw.onProof = true) (hcc : s.dev.ccAbsent = false) :
    exec (.devfwSelftestDone pass) s = .next
      (if pass = false then s.revertFw fwSelftest else if s.selfAccepts then s.selftestAccept else s) := by
  refine congrArg Host.Outcome.next ?_
  rw [hon, hcc]
  cases pass <;> rfl

theorem exec_devfwProofDeadline {s : State} {d : Nat} (hd : s.devfw.deadline = some d) (hon : s.devfw.onProof = true) :
    exec .devfwProofDeadline s = .next ((s.until d).revertFw fwDeadline) := by
  refine congrArg Host.Outcome.next ?_
  rw [hd]
  exact if_pos hon

theorem State.selftestAccept_eq {s : State} (hi : s.inhibited = false) : s.selftestAccept = s.acceptFw 2 := by
  unfold State.selftestAccept
  rw [if_neg (by rw [hi]; decide)]

end Sys2Proof.Machine

namespace Sys2Proof

open Sys2Proof.Machine

/-- Settles O45: what each command or event commits to the device's plate table, and what it leaves of the proof. -/
theorem deviceFirmwareIsStagedProvedAndAccepted : Obligations.DeviceFirmwareIsStagedProvedAndAccepted := by
  intro s src offset data activate pass
  refine ⟨fun ha => ?stage, fun ha hsec => ?commit, fun q hq hon => ⟨fun ha hsec hi => ?accept, fun hcc hi => ?selftest, fun d hd hi => ?deadline⟩⟩
  case stage =>
    have he := exec_deviceFwStage ha
    refine ite_intro (fun hs => ⟨_, he.trans (congrArg Host.Outcome.next (if_pos hs)), ?_⟩)
      fun hs => he.trans (congrArg Host.Outcome.next (if_neg hs))
    obtain ⟨hst, hcl, hpk⟩ := s.fwStage_parts src.mgr offset data
    have hd := State.answered_devfw s (s.fwStage src.mgr offset data) src okAns
    rw [State.fwTable_of_devfw hd, hd]
    refine ⟨hst, hcl, fun a => ?_⟩
    have hg := (congrArg (SMap.get? · a) hpk).trans (putBytes_get data (s.fwSoFar src.mgr) offset a)
    rw [State.fwSoFar_get] at hg
    exact (congrArg (fun d : DevFw => SMap.get? (if s.fwTarget = .a then d.pkgA else d.pkgB) a) hd).trans hg
  case commit =>
    have he := exec_deviceFwCommit ha hsec
    refine ite_intro (fun hs => he.trans (congrArg Host.Outcome.next (if_neg hs))) fun hs =>
      ⟨_, he.trans (congrArg Host.Outcome.next (if_pos (not_not.mp hs))), ?_⟩
    have hd := State.deliver_devfw s src (okAns (leBytes 4 (Config.fwHeader (fwBytes (s.fwPkg s.fwTarget) 0 256)).svn))
    have hdev := (State.deliver_dev (DevKept.refl s) (src := src)
      (a := okAns (leBytes 4 (Config.fwHeader (fwBytes (s.fwPkg s.fwTarget) 0 256)).svn))).state
    generalize s.deliver src (okAns (leBytes 4 (Config.fwHeader (fwBytes (s.fwPkg s.fwTarget) 0 256)).svn)) = u at hd hdev ⊢
    have htar : u.fwTarget = s.fwTarget := by rw [State.fwTarget, State.fwTable_of_devfw hd]; rfl
    have hentry : ∀ st tries, u.fwEntry u.fwTarget st tries = s.fwEntry s.fwTarget st tries := fun st tries => by
      rw [htar]
      exact State.fwEntry_congr _ _ _ (by rw [State.fwPkg, hd]; rfl)
    have hst := State.consumed_state (ha _ _ rfl)
    have hn := State.noted_frame (u.fwCommit activate) s src
    rw [State.fwTable_of_devfw (hn .devfw (by decide)), (hn .devfw (by decide) : _ = _), (hn .dev (by decide) : _ = _)]
    by_cases hr : s.dev.state = .deviceRecovery
    · obtain ⟨hget, hcl, hshadow, hcause⟩ := State.fwCommit_recovery activate (hdev.trans hr)
      rw [hentry, htar] at hget
      rw [if_pos hr, hget]
      exact ⟨hcl, fun _ => ⟨BitVec.toNat_ofNat _ _, BitVec.toNat_ofNat _ _⟩, rfl, rfl, hshadow, hcause⟩
    · rw [if_neg hr]
      cases activate with
      | true =>
        obtain ⟨hget, hcl, hrun, honp, habs⟩ := State.fwCommit_activated (hdev.symm ▸ hst hr)
        rw [hentry, htar] at hget
        rw [htar] at hrun
        rw [if_pos rfl, hget]
        exact ⟨hcl, fun _ => ⟨BitVec.toNat_ofNat _ _, BitVec.toNat_ofNat _ _⟩, rfl, rfl, hrun, honp, habs⟩
      | false =>
        obtain ⟨hget, hcl, hdv⟩ := State.fwCommit_stayed (s := u) (fun h => hr (hdev.symm.trans h))
        rw [hentry, htar, State.fwTable_of_devfw hd] at hget
        rw [if_neg Bool.false_ne_true, hget, hdv]
        by_cases hs : (s.fwTable.get s.fwTarget).state = .staging
        · rw [if_pos hs, if_pos hs]
          exact ⟨hcl, fun _ => ⟨BitVec.toNat_ofNat _ _, BitVec.toNat_ofNat _ _⟩, rfl, hdev⟩
        · rw [if_neg hs, if_neg hs]
          exact ⟨hcl, fun h => h.elim (absurd · hs) (absurd · (by decide)), rfl, hdev⟩
  case accept =>
    refine ⟨_, exec_deviceFwAccept ha hsec hon hi, ?_⟩
    have hd := State.answered_devfw s (s.acceptFw (mgrNum src.mgr)) src okAns
    have hacc := State.acceptFw_parts (mgrNum src.mgr) hq
    rw [← State.fwTable_of_devfw hd, ← hd] at hacc
    exact hacc
  case selftest =>
    refine ⟨_, exec_devfwSelftestDone pass hon hcc, ?_⟩
    cases pass with
    | false => exact State.revertFw_parts _ hq hi
    | true =>
      rw [if_neg (by decide)]
      refine ite_intro (fun h => ?_) fun h => ?_
      · rw [if_pos h, State.selftestAccept_eq hi]
        exact State.acceptFw_parts _ hq
      · rw [if_neg h]
        rfl
  case deadline =>
    refine ⟨_, exec_devfwProofDeadline hd hon, ?_, State.revertFw_parts (s := s.until d) _ hq hi⟩
    exact State.revertFw_frame (Frame.refl _ (s.until d)) (Field.sub_refl _) .now (by decide)

end Sys2Proof

end


section
/-! SUPPORT. POLICY_LOAD and STENCIL_TIGHTEN (R68, R69). -/

namespace Sys2Proof.Machine

open Sys2Proof

@[simp] theorem vget_ofFn {α : Type} {k : Nat} (f : Fin k → α) (i : Fin k) : vget (Vector.ofFn f) i = f i := by
  unfold vget
  simp

/-! ## Adopting a table -/

/-- A table that is adopted leaves the overlay and the policy version of the channel. -/
theorem State.adopt_kept (s : State) (n : Fin 128) (t : STable) :
    ((s.adopt n t).st n).overlay = (s.st n).overlay ∧ ((s.adopt n t).st n).polver = (s.st n).polver := by
  unfold State.adopt
  dsimp only
  generalize hu : State.extend _ n 1 0x0013 _ _ = u
  have hst : (u.st n).overlay = (s.st n).overlay ∧ (u.st n).polver = (s.st n).polver := by
    rw [← hu, State.extend_st, State.modStn_st]
    exact ⟨rfl, rfl⟩
  split
  · rw [State.modStn_st, State.setPhase_st]
    exact hst
  · exact hst

theorem State.setPhase_st_ne (s : State) {n k : Fin 128} (p : Phase) (hk : k ≠ n) : (s.setPhase n p).st k = s.st k := by
  unfold State.setPhase
  dsimp only
  split
  · rfl
  · split <;> simp [State.closeCdi, State.modStn_st_ne _ _ _ hk]

theorem State.adopt_st_ne (s : State) {n k : Fin 128} (t : STable) (hk : k ≠ n) : (s.adopt n t).st k = s.st k := by
  unfold State.adopt
  dsimp only
  generalize hu : State.extend _ n 1 0x0013 _ _ = u
  have hst : u.st k = s.st k := by
    rw [← hu, State.extend_st, State.modStn_st_ne _ _ _ hk]
  split
  · rw [State.modStn_st_ne _ _ _ hk, State.setPhase_st_ne _ _ hk]
    exact hst
  · exact hst

theorem State.adopt_frame' (s : State) (n : Fin 128) (t : STable) : Frame [.stn, .mbx, .rings, .trace] s (s.adopt n t) :=
  State.adopt_frame (Frame.refl _ s) (by decide)

/-! ## A section of the policy -/

/-- What a section that takes effect leaves on its channel (R69). -/
theorem State.applySection_parts {s : State} {n : Fin 128} (ho : (s.st n).overlay = []) :
    (s.applySection n).polOf n = vget s.polLedger n ∧ ((s.applySection n).st n).tbl = (vget s.polLedger n).tbl ∧
      ((s.applySection n).st n).polver = (vget s.polLedger n).version ∧ ((s.applySection n).st n).overlay = [] := by
  unfold State.applySection
  dsimp only
  generalize hu : State.modStn _ n _ = u
  have hpol : u.polOf n = vget s.polLedger n := by
    rw [← hu]
    exact vget_vset_self _ _ _
  have hst : (u.st n).polver = (vget s.polLedger n).version ∧ (u.st n).overlay = [] := by
    rw [← hu, State.modStn_st]
    exact ⟨rfl, ho⟩
  have ho' : (State.st { s with pol := vset s.pol n (vget s.polLedger n) } n).overlay = [] := ho
  rw [ho']
  obtain ⟨htbl, -, -⟩ := u.adopt_st n (applyOverlay (vget s.polLedger n).tbl [])
  obtain ⟨hov, hpv⟩ := u.adopt_kept n (applyOverlay (vget s.polLedger n).tbl [])
  refine ⟨(congrArg (vget · n) (u.adopt_frame' n _ .pol (by decide))).trans hpol, htbl, hpv.trans hst.1, hov.trans hst.2⟩

/-- From s to t nothing of channel n's policy changes. -/
def PolicyKept (n : Fin 128) (s t : State) : Prop :=
  t.polOf n = s.polOf n ∧ t.st n = s.st n ∧ vget t.polLedger n = vget s.polLedger n ∧ t.ch n = s.ch n

theorem State.applySection_other (s : State) {n k : Fin 128} (hk : k ≠ n) : PolicyKept n s (s.applySection k) := by
  unfold State.applySection
  dsimp only
  generalize hu : State.modStn _ k _ = u
  have hs : PolicyKept n s u := by
    rw [← hu]
    exact ⟨vget_vset_ne _ _ hk.symm, State.modStn_st_ne _ _ _ hk.symm, rfl, rfl⟩
  obtain ⟨h1, h2, h3, h4⟩ := hs
  have hf := u.adopt_frame' k (applyOverlay (vget s.polLedger k).tbl
    (State.st { s with pol := vset s.pol k (vget s.polLedger k) } k).overlay)
  exact ⟨(congrArg (vget · n) (hf .pol (by decide))).trans h1, (State.adopt_st_ne _ _ hk.symm).trans h2,
    (congrArg (vget · n) (hf .polLedger (by decide))).trans h3, (congrArg (vget · n) (hf .ctl (by decide))).trans h4⟩

/-- What the sections of a bundle leave on channel n: its own where the bundle names it and it does not wait (R69). -/
theorem State.applySections_parts {s : State} {b : Bundle} {n : Fin 128} (ho : b.bitmap.getLsbD n.1 = true → (s.st n).overlay = []) :
    vget (s.applySections b).polLedger n = vget s.polLedger n ∧
      (if (b.bitmap.getLsbD n.1 && !s.defers n) = true then
        (s.applySections b).polOf n = vget s.polLedger n ∧ ((s.applySections b).st n).tbl = (vget s.polLedger n).tbl ∧
          ((s.applySections b).st n).polver = (vget s.polLedger n).version ∧ ((s.applySections b).st n).overlay = []
      else (s.applySections b).polOf n = s.polOf n ∧ (s.applySections b).st n = s.st n) := by
  obtain ⟨u, ⟨hup, hus, hul, huc⟩, ⟨htp, hts, htl, -⟩⟩ := State.forChans_turn (R := PolicyKept n)
    (f := fun n s => if b.bitmap.getLsbD n.1 && !s.defers n then s.applySection n else s)
    (fun _ => ⟨rfl, rfl, rfl, rfl⟩)
    (fun _ _ _ h h' => ⟨h'.1.trans h.1, h'.2.1.trans h.2.1, h'.2.2.1.trans h.2.2.1, h'.2.2.2.trans h.2.2.2⟩) s n fun k hk v => by
      split
      · exact State.applySection_other v hk
      · exact ⟨rfl, rfl, rfl, rfl⟩
  change (s.applySections b).polOf n = _ at htp
  change (s.applySections b).st n = _ at hts
  change vget (s.applySections b).polLedger n = _ at htl
  have hd : u.defers n = s.defers n := by
    unfold State.defers
    rw [hus, hul, huc]
  rw [hd] at htp hts htl
  rw [htp, hts, htl]
  split
  · rename_i hc
    have hob : (u.st n).overlay = [] := by
      rw [hus]
      exact ho (Bool.and_eq_true_iff.mp hc).1
    have hledger : vget (u.applySection n).polLedger n = vget u.polLedger n :=
      congrArg (vget · n) (State.applySection_frame (Frame.refl [.pol, .stn, .mbx, .rings, .trace] u) (by decide) .polLedger (by decide))
    obtain ⟨h1, h2, h3, h4⟩ := State.applySection_parts hob
    rw [hledger, h1, h2, h3, h4, hul]
    exact ⟨rfl, rfl, rfl, rfl, rfl⟩
  · exact ⟨hul, hup, hus⟩

/-! ## POLICY_LOAD -/

theorem Bundle.sectionFor_version (b : Bundle) (n : Fin 128) : (b.sectionFor n).version = b.version := by
  unfold Bundle.sectionFor
  dsimp only
  split <;> rfl

/-- The committed bundle, recorded, before its sections take effect. -/
def State.policyCommitted (s : State) (m : Mgr) (b : Bundle) : State :=
  ((s.commitPolicy b).raise 0x0706 devCh [b.version.toNat, mgrNum m]).log 0x0003 devCh
    [b.version.toNat, ofLe (Config.sha384 b.body).toList, b.bitmap.toNat]

theorem State.commitPolicy_ledger (s : State) (b : Bundle) : (s.commitPolicy b).polLedger =
    Vector.ofFn fun n : Fin 128 => if b.bitmap.getLsbD n.1 then b.sectionFor n else vget s.polLedger n := by
  unfold State.commitPolicy
  generalize (Vector.ofFn fun n : Fin 128 => if b.bitmap.getLsbD n.1 then b.sectionFor n else vget s.polLedger n) = v
  rfl

theorem State.commitPolicy_stn (s : State) (b : Bundle) : (s.commitPolicy b).stn =
    Vector.ofFn fun n : Fin 128 => if b.bitmap.getLsbD n.1 then { vget s.stn n with overlay := [] } else vget s.stn n := by
  unfold State.commitPolicy
  generalize (Vector.ofFn fun n : Fin 128 => if b.bitmap.getLsbD n.1 then { vget s.stn n with overlay := [] } else vget s.stn n) = v
  rfl

theorem State.policyCommitted_parts (s : State) (m : Mgr) (b : Bundle) (n : Fin 128) :
    (s.policyCommitted m b).polMin = b.version ∧ (s.policyCommitted m b).polOf n = s.polOf n ∧ (s.policyCommitted m b).ch n = s.ch n ∧
      vget (s.policyCommitted m b).polLedger n = (if b.bitmap.getLsbD n.1 then b.sectionFor n else vget s.polLedger n) ∧
      (s.policyCommitted m b).st n = if b.bitmap.getLsbD n.1 then { s.st n with overlay := [] } else s.st n := by
  unfold State.policyCommitted
  refine ⟨?_, ?_, ?_, ?_, ?_⟩
  · rw [State.log_polMin, State.raise_polMin]
    rfl
  · rw [State.polOf, State.log_pol, State.raise_pol]
    exact congrArg (vget · n) (State.commitPolicy_frame (Frame.refl _ s) (Field.sub_refl _) .pol (by decide))
  · rw [State.log_ch, State.raise_ch]
    exact congrArg (vget · n) (State.commitPolicy_frame (Frame.refl _ s) (Field.sub_refl _) .ctl (by decide))
  · rw [State.log_polLedger, State.raise_polLedger]
    rw [State.commitPolicy_ledger, vget_ofFn]
  · rw [State.log_st, State.raise_st]
    rw [State.st, State.commitPolicy_stn, vget_ofFn]
    rfl

theorem exec_policyLoad {s : State} {src : Src} {b : Bundle} {faults : Nat} (ha : s.allows (.policyLoad src ⟨b, faults⟩)) (hu : s.unowned = false)
    (hl : b.len ≤ 1048576) :
    exec (.policyLoad src ⟨b, faults⟩) s = .next
      (let st := s.policyStatus src.mgr b
       let j := if st.1 = stSuccess ∨ st.1 = stSignatureFailed then s.internalJob 0x02 210000 faults else (true, s)
       State.noteCommit (if (!j.1) = true then j.2.deliver src (ans stFaultDetected)
       else if st.1 = stSuccess then ((j.2.policyCommitted src.mgr b).applySections b).deliver src (okAns (leBytes 4 b.version.toNat))
       else j.2.deliver src (ans st.1 st.2)) s src) := by
  have ht : s.takes src (gateOf (.policyLoad src ⟨b, faults⟩)) := ha _ _ rfl
  refine congrArg Host.Outcome.next ((State.ovdel_takes _ ht).trans ?_)
  dsimp only
  rw [if_neg (by rw [hu]; decide), if_neg (by omega)]
  rfl

/-! ## A load whose verification fails twice -/

/-- Without a limit of faults, a failed check touches Burin and the waiting jobs alone. -/
theorem State.coreFault_quiet {s : State} (k : Fin 4) (owner : Owner) (op : Nat) (h : s.dcfg.faultN = 0) :
    Frame [.awaits, .burin, .dev, .rings, .views] s (s.coreFault k owner op) := by
  unfold State.coreFault
  dsimp only
  generalize hu : (State.coreOut _ k coreFaultReason true).raise 0x0806 devCh [k.1, op] = u
  have hf : Frame [.awaits, .burin, .dev, .rings, .views] s u := by
    rw [← hu]
    exact State.raise_frame (State.coreOut_frame (State.modCore_frame (Frame.refl _ s) (by decide)) (by decide)) (by decide)
  have hn : u.dcfg.faultN = 0 := (congrArg DevCfg.faultN (hf .dcfg (by decide))).trans h
  unfold State.noteFault
  dsimp only
  rw [if_neg (by simp [hn])]
  exact Frame.put_burin hf (by decide)

/-- Two failed runs of a job, without a limit of faults. -/
theorem State.internalJob_quiet {s : State} (op time : Nat) {faults : Nat} (h : s.dcfg.faultN = 0) (hf : 2 ≤ faults) :
    Frame [.awaits, .burin, .dev, .rings, .views, .keys] s (s.internalJob op time faults).2 := by
  have hfault : ∀ u : State, u.dcfg.faultN = 0 →
      Frame [.awaits, .burin, .dev, .rings, .views, .keys] u (match u.coreFor .internal with | some k => u.coreFault k .internal op | none => u) := by
    intro u hu
    split
    · exact fun k hk => State.coreFault_quiet _ _ _ hu k (fun hm => hk (by revert hm; simp only [List.mem_cons]; tauto))
    · exact Frame.refl _ u
  match faults, hf with
  | k + 2, _ =>
    refine State.dispatchJobs_frame ?_ (by decide)
    have h1 := hfault s h
    have h2 := hfault _ ((congrArg DevCfg.faultN (h1 .dcfg (by decide))).trans h)
    exact Frame.comp h1 h2 (by decide)

/-- An answer after a run of Burin makes no commit. -/
theorem State.answered_run (s : State) (time : Nat) (src : Src) (a : Answer) :
    ((s.internalRun time).deliver src a).noteCommit s src = (s.internalRun time).deliver src a :=
  if_pos (congrArg Ledger.commits ((State.deliver_led _ _ _).trans (State.internalRun_frame (Frame.refl [.burin] s) (by decide) .led (by decide))))

/-- A load that faults twice, without a limit of faults, changes no policy. -/
theorem policyLoad_faulted {s : State} {src : Src} {b : Bundle} {faults : Nat} (ha : s.allows (.policyLoad src ⟨b, faults⟩))
    (hu : s.unowned = false) (hl : b.len ≤ 1048576) (hf : 2 ≤ faults)
    (hst : (s.policyStatus src.mgr b).1 = stSuccess ∨ (s.policyStatus src.mgr b).1 = stSignatureFailed) :
    ∃ t, exec (.policyLoad src ⟨b, faults⟩) s = .next t ∧
      (s.dcfg.faultN = 0 → t.polMin = s.polMin ∧ t.polLedger = s.polLedger ∧ t.pol = s.pol ∧ t.stn = s.stn) := by
  refine ⟨((s.internalJob 0x02 210000 faults).2.deliver src (ans stFaultDetected)).noteCommit s src,
    (exec_policyLoad ha hu hl).trans (congrArg Host.Outcome.next ?_), fun h0 => ?_⟩
  · dsimp only
    rw [if_pos hst, State.internalJob_faulted _ _ _ hf]
    rfl
  · have hq := State.internalJob_quiet 0x02 210000 h0 hf
    have hfr := State.answered_frame s (s.internalJob 0x02 210000 faults).2 src (ans stFaultDetected)
    exact ⟨(hfr .polMin (by decide)).trans (hq .polMin (by decide)), (hfr .polLedger (by decide)).trans (hq .polLedger (by decide)),
      (hfr .pol (by decide)).trans (hq .pol (by decide)), (hfr .stn (by decide)).trans (hq .stn (by decide))⟩

/-- A bundle that passes: the minimum, the ledger and, where nothing keeps it waiting, the channel take it. -/
theorem policyLoad_success {s : State} {src : Src} {b : Bundle} (ha : s.allows (.policyLoad src ⟨b, 0⟩)) (hu : s.unowned = false)
    (hl : b.len ≤ 1048576) (hst : (s.policyStatus src.mgr b).1 = stSuccess) (n : Fin 128) :
    ∃ t, exec (.policyLoad src ⟨b, 0⟩) s = .next t ∧ t.polMin = b.version ∧
      (if b.bitmap.getLsbD n.1 = true then
        vget t.polLedger n = b.sectionFor n ∧ (t.st n).overlay = [] ∧
        (if (s.ch n).released = true ∧ (b.sectionFor n).tbl.mailboxBase ≠ (s.st n).tbl.mailboxBase then
          t.polOf n = s.polOf n ∧ (t.st n).tbl = (s.st n).tbl
        else t.polOf n = b.sectionFor n ∧ (t.st n).tbl = (b.sectionFor n).tbl ∧ (t.st n).polver = b.version)
      else vget t.polLedger n = vget s.polLedger n ∧ t.polOf n = s.polOf n ∧ t.st n = s.st n) := by
  have hrun := State.internalRun_frame (Frame.refl [.burin] s) (time := 210000) (by decide)
  obtain ⟨hmin, hpol, hch, hled, hstn⟩ := (s.internalRun 210000).policyCommitted_parts src.mgr b n
  refine ⟨((((s.internalRun 210000).policyCommitted src.mgr b).applySections b).deliver src (okAns (leBytes 4 b.version.toNat))).noteCommit s src,
    (exec_policyLoad ha hu hl).trans (congrArg Host.Outcome.next ?_), ?_⟩
  · dsimp only
    rw [if_pos (Or.inl hst), State.internalJob_clean, if_neg (show ¬(!true) = true by decide), if_pos hst]
  · have hfr := State.answered_frame s (((s.internalRun 210000).policyCommitted src.mgr b).applySections b) src (okAns (leBytes 4 b.version.toNat))
    generalize ((((s.internalRun 210000).policyCommitted src.mgr b).applySections b).deliver src (okAns (leBytes 4 b.version.toNat))).noteCommit s
      src = t at hfr ⊢
    have hs0 : (s.internalRun 210000).st n = s.st n := congrArg (vget · n) (hrun .stn (by decide))
    have hp0 : (s.internalRun 210000).polOf n = s.polOf n := congrArg (vget · n) (hrun .pol (by decide))
    have hc0 : (s.internalRun 210000).ch n = s.ch n := congrArg (vget · n) (hrun .ctl (by decide))
    have hl0 : vget (s.internalRun 210000).polLedger n = vget s.polLedger n := congrArg (vget · n) (hrun .polLedger (by decide))
    rw [hs0] at hstn
    rw [hp0] at hpol
    rw [hc0] at hch
    rw [hl0] at hled
    generalize (s.internalRun 210000).policyCommitted src.mgr b = u at hmin hpol hch hled hstn hfr ⊢
    have happ : (u.applySections b).polMin = u.polMin := State.applySections_frame (Frame.refl _ u) (Field.sub_refl _) .polMin (by decide)
    refine ⟨(hfr .polMin (by decide)).trans (happ.trans hmin), ?_⟩
    obtain ⟨hlast, hsec⟩ := State.applySections_parts (s := u) (b := b) (n := n) fun h => by rw [hstn, if_pos h]
    have htl : vget t.polLedger n = vget u.polLedger n := (congrArg (vget · n) (hfr .polLedger (by decide))).trans hlast
    have htp : t.polOf n = (u.applySections b).polOf n := congrArg (vget · n) (hfr .pol (by decide))
    have hts : t.st n = (u.applySections b).st n := congrArg (vget · n) (hfr .stn (by decide))
    rw [htl, htp, hts]
    by_cases hb : b.bitmap.getLsbD n.1 = true
    · rw [if_pos hb] at hled hstn ⊢
      have hd : u.defers n = decide ((s.ch n).released = true ∧ (b.sectionFor n).tbl.mailboxBase ≠ (s.st n).tbl.mailboxBase) := by
        unfold State.defers
        rw [hled, hch, hstn]
        simp
      have hver : (b.sectionFor n).version = b.version := b.sectionFor_version n
      rw [hb, hd, hled, Bool.true_and] at hsec
      by_cases hw : (s.ch n).released = true ∧ (b.sectionFor n).tbl.mailboxBase ≠ (s.st n).tbl.mailboxBase
      · rw [if_neg (by simp [hw])] at hsec
        rw [if_pos hw, hsec.1, hsec.2, hstn]
        exact ⟨hled, rfl, hpol, rfl⟩
      · rw [if_pos (by simp only [hw, decide_false, Bool.not_false])] at hsec
        obtain ⟨h1, h2, h3, h4⟩ := hsec
        rw [if_neg hw]
        exact ⟨hled, h4, h1, h2, h3.trans hver⟩
    · rw [if_neg hb] at hled hstn ⊢
      rw [Bool.eq_false_of_not_eq_true hb, Bool.false_and, if_neg Bool.false_ne_true] at hsec
      exact ⟨hled, hsec.1.trans hpol, hsec.2.trans hstn⟩

/-- A load that is refused. -/
theorem policyLoad_refused {s : State} {src : Src} {b : Bundle} (ha : s.allows (.policyLoad src ⟨b, 0⟩)) (hu : s.unowned = false)
    (hl : b.len ≤ 1048576) (hst : (s.policyStatus src.mgr b).1 ≠ stSuccess) :
    exec (.policyLoad src ⟨b, 0⟩) s = .next ((if (s.policyStatus src.mgr b).1 = stSignatureFailed then s.internalRun 210000 else s).deliver src
      (ans (s.policyStatus src.mgr b).1 (s.policyStatus src.mgr b).2)) := by
  refine (exec_policyLoad ha hu hl).trans (congrArg Host.Outcome.next ?_)
  dsimp only
  by_cases hs : (s.policyStatus src.mgr b).1 = stSignatureFailed
  · rw [if_pos (Or.inr hs), if_pos hs, State.internalJob_clean, if_neg (show ¬(!true) = true by decide), if_neg hst]
    exact State.answered_run _ _ _ _
  · rw [if_neg (show ¬((s.policyStatus src.mgr b).1 = stSuccess ∨ (s.policyStatus src.mgr b).1 = stSignatureFailed) from fun h => h.elim hst hs),
      if_neg hs, if_neg (show ¬(!true) = true by decide), if_neg hst]
    exact State.answered_alone _ _ _

/-! ## STENCIL_TIGHTEN -/

theorem State.adoptChanged_overlay (s : State) (n : Fin 128) (t : STable) : ((s.adoptChanged n t).st n).overlay = (s.st n).overlay := by
  unfold State.adoptChanged
  split
  · rfl
  · exact (s.adopt_kept n t).1

/-- The overlay that a tightening with PERSIST records. -/
def State.overlaid (s : State) (n : Fin 128) (persist : Bool) (c : SMap (Word × Word)) : State :=
  if persist then (s.modStn n fun t => { t with overlay := addOverlay t.overlay c [] }).committed else s

theorem State.overlaid_st (s : State) (n : Fin 128) (persist : Bool) (c : SMap (Word × Word)) :
    (s.overlaid n persist c).st n = { s.st n with overlay := if persist then addOverlay (s.st n).overlay c [] else (s.st n).overlay } := by
  unfold State.overlaid
  cases persist with
  | true =>
    rw [if_pos rfl, if_pos rfl]
    exact State.modStn_st _ _ _
  | false => rfl

theorem judge_ne_superseded (a b : STable) (size : Nat) (marks : List Nat) {g : SReg} {lo : Nat} : judge a b size marks ≠ .superseded g lo := by
  unfold judge
  split
  · exact fun h => by cases h
  · split
    · exact fun h => by cases h
    · split
      · exact fun h => by cases h
      · split
        · exact fun h => by cases h
        · split <;> exact fun h => by cases h

/-- A tightening alone in its slot is answered by what the judgement makes of it. -/
theorem State.tighten_eq (s : State) (src : Src) (n : Fin 128) (persist : Bool) (changes : List Change) :
    ∃ a, s.tighten src n persist changes false =
      (if judge (s.st n).tbl (applyOverlay (s.st n).tbl (combine changes)) (s.vfSize n) ((combine changes).map Prod.fst) = .committed then
        ((s.overlaid n persist (combine changes)).adoptChanged n (applyOverlay (s.st n).tbl (combine changes))).deliver src a
      else s.deliver src a) := by
  have hj : s.judgeChanges src.mgr n (combine changes) false =
      { table := if judge (s.st n).tbl (applyOverlay (s.st n).tbl (combine changes)) (s.vfSize n) ((combine changes).map Prod.fst) = .committed
          then applyOverlay (s.st n).tbl (combine changes) else (s.st n).tbl,
        mine := judge (s.st n).tbl (applyOverlay (s.st n).tbl (combine changes)) (s.vfSize n) ((combine changes).map Prod.fst),
        other := none } := rfl
  have hsame : s.adoptChanged n (s.st n).tbl = s := if_pos rfl
  unfold State.tighten
  dsimp only
  rw [hj]
  dsimp only
  generalize hr : judge (s.st n).tbl (applyOverlay (s.st n).tbl (combine changes)) (s.vfSize n) ((combine changes).map Prod.fst) = r
  cases r with
  | committed =>
    refine ⟨okAns (leBytes 4 ((((s.overlaid n persist (combine changes)).adoptChanged n
      (applyOverlay (s.st n).tbl (combine changes))).st n).epoch).toNat), ?_⟩
    cases persist <;> rfl
  | loosens g lo =>
    refine ⟨ans stNotPermitted (firstChange changes ((changed (s.st n).tbl (applyOverlay (s.st n).tbl (combine changes))).filter
      fun x => !tighter (s.st n).tbl (applyOverlay (s.st n).tbl (combine changes)) x.1 x.2.2)), ?_⟩
    rw [if_neg (by simp [CommitRes.code]), if_neg (fun h => by cases h), hsame]
    rfl
  | mismatch g lo =>
    refine ⟨ans stInvalidField (changeAt (firstChange changes ((g.fields.filter fun f => f.2 = lo).map fun f => (g, f)))), ?_⟩
    rw [if_neg (by simp [CommitRes.code]), if_neg (fun h => by cases h), hsame]
    rfl
  | superseded g lo => exact absurd hr (judge_ne_superseded _ _ _ _)

/-- A tightening alone in its slot: the table that is judged COMMITTED is adopted, with PERSIST recorded as the overlay. -/
theorem State.tighten_parts (s : State) (src : Src) (n : Fin 128) (persist : Bool) (changes : List Change) :
    (if judge (s.st n).tbl (applyOverlay (s.st n).tbl (combine changes)) (s.vfSize n) ((combine changes).map Prod.fst) = .committed then
      ((s.tighten src n persist changes false).st n).tbl = applyOverlay (s.st n).tbl (combine changes) ∧
        ((s.tighten src n persist changes false).st n).overlay =
          (if persist then addOverlay (s.st n).overlay (combine changes) [] else (s.st n).overlay)
    else ((s.tighten src n persist changes false).st n).tbl = (s.st n).tbl ∧
      ((s.tighten src n persist changes false).st n).overlay = (s.st n).overlay) := by
  obtain ⟨a, ha⟩ := s.tighten_eq src n persist changes
  rw [ha]
  refine ite_intro (fun h => ?_) fun h => ?_
  · rw [if_pos h, State.deliver_st]
    exact ⟨(State.adoptChanged_st _ _ _).1, by rw [State.adoptChanged_overlay, State.overlaid_st]⟩
  · rw [if_neg h, State.deliver_st]
    exact ⟨rfl, rfl⟩

theorem exec_stencilTighten {s : State} {src : Src} {ch : Half} {n : Fin 128} {persist : Bool} {lenField : Nat} {changes : List Change}
    (ha : s.allows (.stencilTighten src ch persist lenField changes false)) (hch : ch.toNat = n.1) (hon : s.chanOn n = true)
    (hp : persist = true → 0x0201 ≤ s.version src.mgr ∧ s.inhibited = false) :
    exec (.stencilTighten src ch persist lenField changes false) s = .next
      (match badTighten lenField changes with
      | some off => s.deliver src (ans stInvalidField off)
      | none => (s.tighten src n persist changes false).noteCommit s src) := by
  have ht : s.takes src (gateOf (.stencilTighten src ch persist lenField changes false)) := ha _ _ rfl
  refine congrArg Host.Outcome.next ((State.ovdel_takes _ ht).trans ?_)
  have h1 : ¬(persist && decide (s.version src.mgr < 0x0201)) = true := by
    intro h
    simp only [Bool.and_eq_true, decide_eq_true_eq] at h
    exact absurd (hp h.1).1 (by omega)
  have h2 : ¬(persist && s.inhibited) = true := by
    intro h
    simp only [Bool.and_eq_true] at h
    exact absurd ((hp h.1).2.symm.trans h.2) (by decide)
  rw [if_neg h1, State.withChan_on _ hch hon]
  cases badTighten lenField changes with
  | some off => exact State.answered_alone _ _ _
  | none => exact congrArg (fun t : State => t.noteCommit s src) (if_neg h2)

theorem State.noted_st (t s : State) (src : Src) (n : Fin 128) : (t.noteCommit s src).st n = t.st n :=
  congrArg (vget · n) (State.noted_frame t s src .stn (by decide))

end Sys2Proof.Machine
end


section
/-! SUPPORT. CONFIG_WRITE and CONFIG_READ (R312 to R315). -/

namespace Sys2Proof.Machine

open Sys2Proof

/-! ## A channel that leaves service, seen from another -/

theorem State.leave_other (s : State) (n : Fin 128) (st : ChState) (cause : Cause) : OtherCtl n s (s.leave n st cause) := by
  intro k hk
  have hr := (OtherCtl.moves n).toRespects
  unfold State.leave
  dsimp only
  generalize hu : (s.endArming n stAborted).stopHost n = u
  have huk : OtherCtl n s u := fun k hk => by
    rw [← hu, State.stopHost_ch_ne hk]
    exact State.endArming_moves (OtherCtl.moves n) ((OtherCtl.moves n).refl s) k hk
  have hans : OtherCtl n s (if (decide ((s.ch n).state = .taking) || decide ((s.ch n).state = .safe)) = true then
      u.answerAll n (fun k => k = .release) stAborted 0 [] else u) := by
    split
    · exact State.answerAll_moves (OtherCtl.moves n) huk
    · exact huk
  generalize (if (decide ((s.ch n).state = .taking) || decide ((s.ch n).state = .safe)) = true then
    u.answerAll n (fun k => k = .release) stAborted 0 [] else u) = v at hans ⊢
  have hv := State.unbind_moves (OtherCtl.moves n) (State.transition_moves (OtherCtl.moves n) hans (st := st) (cause := cause))
  generalize (v.transition n st cause).unbind n = x at hv ⊢
  split
  · exact State.rejectProof_keeps hr (by decide) hv k hk
  · exact hv k hk

/-! ## One channel's profile at a commit -/

/-- The profile's own fields at a commit (R315): PG values, ENABLED and the free lines. -/
def State.profileAt (s : State) (n : Fin 128) (q : ChanCfg) : ChanCfg :=
  let p := { s.profOf n with enabled := q.enabled, pgGate := q.pgGate, pgAct := q.pgAct, pgSettle := q.pgSettle, pgTmo := q.pgTmo }
  if s.linesFree p q then p.withLines q else p

theorem State.profileAt_enabled (s : State) (n : Fin 128) (q : ChanCfg) : (s.profileAt n q).enabled = q.enabled := by
  unfold State.profileAt
  dsimp only
  split <;> rfl

/-- The profile stored, with the identity of a channel that is not released. -/
def State.profileStored (s : State) (n : Fin 128) (q : ChanCfg) : State :=
  let u := { s with prof := vset s.prof n (s.profileAt n q), profCfg := vset s.profCfg n q }
  if (u.ch n).released then u else u.applyIdentity n

/-- Discovery of a local flash that is enabled now. -/
def State.discovered (s : State) (n : Fin 128) (start : Bool) : State :=
  if start then match portOf n with
    | some f => if (s.fp f).state = 0 then s.startDiscovery f else s
    | none => s
  else s

/-- The channel follows its ENABLED. -/
def State.followsEnabled (s : State) (n : Fin 128) (enabled : Bool) : State :=
  if s.chanOn n then
    if enabled && (s.ch n).state = .off then s.hold n .config .config none
    else if !enabled && (s.ch n).state ≠ .off then s.leave n .off .config
    else s
  else s

theorem State.applyProfile_eq (s : State) (n : Fin 128) (q : ChanCfg) :
    s.applyProfile n q = ((s.profileStored n q).discovered n (!(s.profOf n).enabled && q.enabled && ((s.profileStored n q).profOf n).isLocal)).followsEnabled
      n q.enabled := rfl

/-- From s to t the standing and present profile of channel k keep what a commit of another channel may not change. -/
def ProfileKept (k : Fin 128) (s t : State) : Prop :=
  vget t.profCfg k = vget s.profCfg k ∧ (t.profOf k).enabled = (s.profOf k).enabled ∧ t.ch k = s.ch k ∧ t.part = s.part

theorem ProfileKept.refl (k : Fin 128) (s : State) : ProfileKept k s s := ⟨rfl, rfl, rfl, rfl⟩

theorem ProfileKept.comp {k : Fin 128} {s t u : State} (h : ProfileKept k s t) (h' : ProfileKept k t u) : ProfileKept k s u :=
  ⟨h'.1.trans h.1, h'.2.1.trans h.2.1, h'.2.2.1.trans h.2.2.1, h'.2.2.2.trans h.2.2.2⟩

/-- Nothing but the profiles changes, and there no ENABLED. -/
theorem ProfileKept.of_prof {k : Fin 128} {s t : State} (hf : Frame [.prof, .fps] s t) (he : (t.profOf k).enabled = (s.profOf k).enabled) :
    ProfileKept k s t :=
  ⟨congrArg (vget · k) (hf .profCfg (by decide)), he, congrArg (vget · k) (hf .ctl (by decide)), hf .part (by decide)⟩

theorem profile_vmod {v : Vector ChanCfg 128} (n k : Fin 128) {f : ChanCfg → ChanCfg} (hf : ∀ p, (f p).enabled = p.enabled) :
    (vget (vmod v n f) k).enabled = (vget v k).enabled := by
  by_cases hk : k = n
  · subst hk
    rw [vget_vmod_self, hf]
  · rw [vget_vmod_ne _ _ hk]

theorem State.startDiscovery_profile (s : State) (f : Fin 64) (k : Fin 128) : ProfileKept k s (s.startDiscovery f) := by
  refine .of_prof (State.startDiscovery_frame (Frame.refl _ s) (by decide)) ?_
  unfold State.startDiscovery State.profOf
  dsimp only
  rw [State.modFp_prof]
  split
  · exact profile_vmod _ k fun _ => rfl
  · rfl

theorem State.applyIdentity_profile (s : State) (n k : Fin 128) : ProfileKept k s (s.applyIdentity n) := by
  have hs : ProfileKept k s { s with prof := vmod s.prof n fun p => p.withIdentity (vget s.profCfg n) } :=
    .of_prof (Frame.put_prof (Frame.refl _ s) (by decide)) (profile_vmod n k fun _ => rfl)
  unfold State.applyIdentity
  dsimp only
  split
  · split
    · exact hs.comp (State.startDiscovery_profile _ _ k)
    · exact hs
  · exact hs

theorem State.discovered_profile (s : State) (n : Fin 128) (start : Bool) (k : Fin 128) : ProfileKept k s (s.discovered n start) := by
  unfold State.discovered
  split
  · split
    · split
      · exact State.startDiscovery_profile _ _ k
      · exact .refl k s
    · exact .refl k s
  · exact .refl k s

theorem State.profileStored_other (s : State) {n k : Fin 128} (q : ChanCfg) (hk : k ≠ n) : ProfileKept k s (s.profileStored n q) := by
  have hs : ProfileKept k s { s with prof := vset s.prof n (s.profileAt n q), profCfg := vset s.profCfg n q } :=
    ⟨vget_vset_ne _ _ hk, congrArg ChanCfg.enabled (vget_vset_ne _ _ hk), rfl, rfl⟩
  unfold State.profileStored
  dsimp only
  split
  · exact hs
  · exact hs.comp (State.applyIdentity_profile _ n k)

theorem State.profileStored_parts (s : State) (n : Fin 128) (q : ChanCfg) :
    vget (s.profileStored n q).profCfg n = q ∧ ((s.profileStored n q).profOf n).enabled = q.enabled ∧
      (s.profileStored n q).ch n = s.ch n ∧ (s.profileStored n q).part = s.part := by
  have hq : vget (vset s.profCfg n q) n = q := vget_vset_self _ _ _
  have he : (vget (vset s.prof n (s.profileAt n q)) n).enabled = q.enabled := by
    rw [vget_vset_self]
    exact s.profileAt_enabled n q
  unfold State.profileStored
  dsimp only
  split
  · exact ⟨hq, he, rfl, rfl⟩
  · obtain ⟨h1, h2, h3, h4⟩ := State.applyIdentity_profile
      { s with prof := vset s.prof n (s.profileAt n q), profCfg := vset s.profCfg n q } n n
    exact ⟨h1.trans hq, h2.trans he, h3, h4⟩

theorem State.followsEnabled_frame (s : State) (n : Fin 128) (e : Bool) : Frame [.ctl, .plt, .imm, .wdg, .ports, .stn, .plat, .trace, .spdm,
    .rings, .views, .awaits, .led, .dev] s (s.followsEnabled n e) := by
  unfold State.followsEnabled
  split
  · split
    · exact State.hold_frame (Frame.refl _ s) (by decide)
    · split
      · exact State.leave_frame (Frame.refl _ s) (by decide)
      · exact Frame.refl _ s
  · exact Frame.refl _ s

theorem State.followsEnabled_other (s : State) {n k : Fin 128} (e : Bool) (hk : k ≠ n) : ProfileKept k s (s.followsEnabled n e) := by
  have hf := s.followsEnabled_frame n e
  refine ⟨congrArg (vget · k) (hf .profCfg (by decide)), congrArg (fun v => (vget v k).enabled) (hf .prof (by decide)), ?_, hf .part (by decide)⟩
  unfold State.followsEnabled
  split
  · split
    · exact State.hold_other s n _ _ _ k hk
    · split
      · exact State.leave_other s n _ _ k hk
      · rfl
  · rfl

/-- A channel that is enabled and was OFF is HELD, one that is disabled is OFF (R314, R315). -/
theorem State.followsEnabled_ch {s : State} {n : Fin 128} (hon : s.chanOn n = true) (e : Bool) :
    (e = true → (s.ch n).state = .off → ((s.followsEnabled n e).ch n).state = .held ∧ ((s.followsEnabled n e).ch n).kind = .config) ∧
      (e = false → ((s.followsEnabled n e).ch n).state = .off) := by
  unfold State.followsEnabled
  rw [if_pos hon]
  constructor
  · intro he ho
    rw [if_pos (by simp [he, ho])]
    have hh := State.hold_ch s n .config .config none
    exact ⟨hh.state, hh.kind⟩
  · intro he
    subst he
    rw [if_neg (by simp)]
    split
    · exact (State.leave_ch s n .off .config).1
    · rename_i ho
      simpa using ho

/-- A channel's profile at a commit, seen from another channel. -/
theorem State.applyProfile_other (s : State) {n k : Fin 128} (q : ChanCfg) (hk : k ≠ n) : ProfileKept k s (s.applyProfile n q) := by
  rw [State.applyProfile_eq]
  exact ((State.profileStored_other s q hk).comp (State.discovered_profile _ n _ k)).comp (State.followsEnabled_other _ _ hk)

/-- What a commit leaves of the channel. -/
theorem State.applyProfile_parts (s : State) (n : Fin 128) (q : ChanCfg) :
    vget (s.applyProfile n q).profCfg n = q ∧ ((s.applyProfile n q).profOf n).enabled = q.enabled ∧
      (s.chanOn n = true → q.enabled = true → (s.ch n).state = .off →
        ((s.applyProfile n q).ch n).state = .held ∧ ((s.applyProfile n q).ch n).kind = .config) ∧
      (s.chanOn n = true → q.enabled = false → ((s.applyProfile n q).ch n).state = .off) := by
  obtain ⟨h1, h2, h3, h4⟩ := s.profileStored_parts n q
  obtain ⟨g1, g2, g3, g4⟩ := State.discovered_profile (s.profileStored n q) n
    (!(s.profOf n).enabled && q.enabled && ((s.profileStored n q).profOf n).isLocal) n
  rw [State.applyProfile_eq]
  generalize (s.profileStored n q).discovered n _ = u at g1 g2 g3 g4 ⊢
  have hf := u.followsEnabled_frame n q.enabled
  have hon : s.chanOn n = true → u.chanOn n = true := fun h => by
    unfold State.chanOn
    rw [g4, h4]
    exact h
  refine ⟨(congrArg (vget · n) (hf .profCfg (by decide))).trans (g1.trans h1),
    (congrArg (fun v => (vget v n).enabled) (hf .prof (by decide))).trans (g2.trans h2), fun ho he hs => ?_, fun ho he => ?_⟩
  · exact (State.followsEnabled_ch (hon ho) _).1 he (by rw [g3, h3]; exact hs)
  · exact (State.followsEnabled_ch (hon ho) _).2 he

/-! ## The commit -/

theorem DevKept.configDefaulted {s t : State} (h : DevKept s t) : t.dev.configDefaulted = s.dev.configDefaulted := by
  unfold DevKept at h
  rw [h]

theorem State.applyProfile_dev {s₀ s : State} {n : Fin 128} {q : ChanCfg} (h : DevKept s₀ s) : DevKept s₀ (s.applyProfile n q) := by
  rw [State.applyProfile_eq]
  have hp : DevKept s₀ (s.profileStored n q) := by
    unfold State.profileStored
    dsimp only
    have hu : DevKept s₀ { s with prof := vset s.prof n (s.profileAt n q), profCfg := vset s.profCfg n q } := DevKept.comp h rfl
    split
    · exact hu
    · exact DevKept.comp hu (DevKept.of_frame (State.applyIdentity_frame (Frame.refl [.prof, .fps] _) (by decide)) (by decide))
  generalize (s.profileStored n q) = u at hp ⊢
  generalize (!(s.profOf n).enabled && q.enabled && (u.profOf n).isLocal) = b
  have hd : DevKept s₀ (u.discovered n b) := by
    unfold State.discovered
    split
    · split
      · split
        · exact DevKept.comp hp (DevKept.of_frame (State.startDiscovery_frame (Frame.refl [.prof, .fps] _) (by decide)) (by decide))
        · exact hp
      · exact hp
    · exact hp
  unfold State.followsEnabled
  split
  · split
    · exact State.hold_dev hd
    · split
      · exact State.leave_dev hd
      · exact hd
  · exact hd

/-- The settings of the device that follow the image at once. -/
def State.settingsApplied (s : State) (img : List Byte) : State :=
  let u := s.putDevCfg (s.dcfg.atCommit (parseDev img))
  { u with twl := (List.range 16).map fun t => if u.lineIdle t then (parseDev img).twl.getD t 0 else u.twl.getD t 0 }

theorem State.settingsApplied_frame (s : State) (img : List Byte) : Frame [.dcfg, .imm, .pool, .farm, .twl] s (s.settingsApplied img) :=
  Frame.put_twl (State.putDevCfg_frame (Frame.refl _ s) (by decide)) (by decide)

/-- The channels follow the image. -/
def State.profilesApplied (s : State) (img : List Byte) : State := s.forChans fun n s => s.applyProfile n (parseChan img n.1)

theorem State.applyConfig_eq (s : State) (img : List Byte) :
    s.applyConfig img = ((s.settingsApplied img).profilesApplied img).applyCalibration s := rfl

theorem State.profilesApplied_parts (s : State) (img : List Byte) (n : Fin 128) :
    vget (s.profilesApplied img).profCfg n = parseChan img n.1 ∧ ((s.profilesApplied img).profOf n).enabled = (parseChan img n.1).enabled ∧
      (s.chanOn n = true → (parseChan img n.1).enabled = true → (s.ch n).state = .off →
        ((s.profilesApplied img).ch n).state = .held ∧ ((s.profilesApplied img).ch n).kind = .config) ∧
      (s.chanOn n = true → (parseChan img n.1).enabled = false → ((s.profilesApplied img).ch n).state = .off) := by
  obtain ⟨u, ⟨-, -, hc, hp⟩, ⟨g1, g2, g3, -⟩⟩ := State.forChans_turn (R := ProfileKept n) (f := fun n s => s.applyProfile n (parseChan img n.1))
    (ProfileKept.refl n) (fun _ _ _ => ProfileKept.comp) s n fun k hk v => State.applyProfile_other v _ (Ne.symm hk)
  obtain ⟨h1, h2, h3, h4⟩ := u.applyProfile_parts n (parseChan img n.1)
  have hon : s.chanOn n = true → u.chanOn n = true := fun h => by
    unfold State.chanOn
    rw [hp]
    exact h
  change vget (s.profilesApplied img).profCfg n = _ at g1
  change ((s.profilesApplied img).profOf n).enabled = _ at g2
  change (s.profilesApplied img).ch n = _ at g3
  rw [g1, g2, g3]
  exact ⟨h1, h2, fun ho he hs => h3 (hon ho) he (by rw [hc]; exact hs), fun ho he => h4 (hon ho) he⟩

theorem State.profilesApplied_cfgImg (s : State) (img : List Byte) : (s.profilesApplied img).cfgImg = s.cfgImg :=
  State.forChans_frame (Frame.refl [.ctl, .plt, .imm, .wdg, .ports, .stn, .plat, .trace, .spdm, .rings, .views, .awaits, .led, .dev, .prof,
    .profCfg, .fps] s) (fun _ u => State.applyProfile_frame (Frame.refl _ u) (by decide)) .cfgImg (by decide)

theorem State.profilesApplied_dev (s : State) (img : List Byte) : DevKept s (s.profilesApplied img) :=
  State.forChans_keeps DevKept.respects (DevKept.refl s) fun _ _ => State.applyProfile_dev (DevKept.refl _)

/-- An image put into the ledger and recorded. -/
def State.configStored (s : State) (m : Mgr) (img : List Byte) : State :=
  let u := { s with cfgImg := s.cfgImg.commit (sparse img), dev := { s.dev with configDefaulted := false } }.committed
  (u.raise 0x0705 devCh [u.cfgSeq, mgrNum m]).log 0x0004 devCh [State.cfgSeq (u.raise 0x0705 devCh [u.cfgSeq, mgrNum m]),
    ofLe (Config.sha384 (State.cfgCopy (u.raise 0x0705 devCh [u.cfgSeq, mgrNum m]))).toList]

theorem State.configStored_parts (s : State) (m : Mgr) (img : List Byte) :
    (s.configStored m img).cfgImg = s.cfgImg.commit (sparse img) ∧ (s.configStored m img).dev = { s.dev with configDefaulted := false } ∧
      (s.configStored m img).part = s.part ∧ (s.configStored m img).ctl = s.ctl := by
  unfold State.configStored
  dsimp only
  refine ⟨?_, ?_, ?_, ?_⟩
  · rw [State.log_cfgImg, State.raise_cfgImg]; rfl
  · rw [State.log_dev, State.raise_dev]; rfl
  · rw [State.log_part, State.raise_part]; rfl
  · rw [State.log_ctl, State.raise_ctl]; rfl

theorem State.commitConfig_eq (s : State) (m : Mgr) (img : List Byte) : s.commitConfig m img = (s.configStored m img).applyConfig img := rfl

/-- What CONFIG_WRITE commits and puts into effect. -/
theorem State.commitConfig_parts (s : State) (m : Mgr) (img : List Byte) (n : Fin 128) :
    (s.commitConfig m img).cfgImg = s.cfgImg.commit (sparse img) ∧ (s.commitConfig m img).dev.configDefaulted = false ∧
      vget (s.commitConfig m img).profCfg n = parseChan img n.1 ∧
      ((s.commitConfig m img).profOf n).enabled = (parseChan img n.1).enabled ∧
      (s.chanOn n = true → (parseChan img n.1).enabled = true → (s.ch n).state = .off →
        ((s.commitConfig m img).ch n).state = .held ∧ ((s.commitConfig m img).ch n).kind = .config) ∧
      (s.chanOn n = true → (parseChan img n.1).enabled = false → ((s.commitConfig m img).ch n).state = .off) := by
  obtain ⟨hi, hd, hp, hc⟩ := s.configStored_parts m img
  rw [State.commitConfig_eq, State.applyConfig_eq]
  generalize s.configStored m img = u at hi hd hp hc ⊢
  have hset := u.settingsApplied_frame img
  obtain ⟨h1, h2, h3, h4⟩ := (u.settingsApplied img).profilesApplied_parts img n
  have hdev := (u.settingsApplied img).profilesApplied_dev img
  have himg := (u.settingsApplied img).profilesApplied_cfgImg img
  have hcal := State.applyCalibration_frame (s := (u.settingsApplied img).profilesApplied img) (old := u) (Frame.refl [.power, .rings] _) (by decide)
  generalize (u.settingsApplied img).profilesApplied img = v at h1 h2 h3 h4 hdev himg hcal ⊢
  have hon : s.chanOn n = true → (u.settingsApplied img).chanOn n = true := fun h => by
    unfold State.chanOn
    rw [hset .part (by decide), hp]
    exact h
  have hch : (u.settingsApplied img).ch n = s.ch n := congrArg (vget · n) ((hset .ctl (by decide)).trans hc)
  have hcd : v.dev.configDefaulted = false := by
    rw [hdev.configDefaulted, hset .dev (by decide), hd]
  have hvch : (v.applyCalibration u).ch n = v.ch n := congrArg (vget · n) (hcal .ctl (by decide))
  rw [hvch]
  refine ⟨(hcal .cfgImg (by decide)).trans (himg.trans ((hset .cfgImg (by decide)).trans hi)), ?_,
    (congrArg (vget · n) (hcal .profCfg (by decide))).trans h1, (congrArg (fun p => (vget p n).enabled) (hcal .prof (by decide))).trans h2,
    fun ho he hs => h3 (hon ho) he (by rw [hch]; exact hs), fun ho he => h4 (hon ho) he⟩
  exact (congrArg Device.configDefaulted (hcal .dev (by decide))).trans hcd

theorem exec_configWrite {s : State} {src : Src} {img : List Byte} (ha : s.allows (.configWrite src img)) (hsec : s.isSecondary src.mgr = false) :
    exec (.configWrite src img) s = .next
      (if (s.cfgStatus img).1 = stSuccess then
        ((s.commitConfig src.mgr img).deliver src (okAns (leBytes 4 (s.commitConfig src.mgr img).cfgSeq))).noteCommit s src
      else s.deliver src (ans (s.cfgStatus img).1 (s.cfgStatus img).2)) := by
  have ht : s.takes src (gateOf (.configWrite src img)) := ha _ _ rfl
  refine congrArg Host.Outcome.next ((State.ovdel_takes _ ht).trans ?_)
  dsimp only
  rw [if_neg (by rw [hsec]; decide)]
  split
  · rfl
  · exact State.answered_alone _ _ _

theorem exec_configRead {s : State} {src : Src} {len : Nat} (ha : s.allows (.configRead src len)) :
    exec (.configRead src len) s = .next (s.deliver src
      { okAns (leBytes 4 s.cfgSeq ++ [BitVec.ofNat 8 (bval s.dev.configDefaulted)]) with data := some (s.cfgCopy.take len) }) := by
  have ht : s.takes src (gateOf (.configRead src len)) := ha _ _ rfl
  refine congrArg Host.Outcome.next ((State.ovdel_takes _ ht).trans ?_)
  exact State.answered_alone _ _ _

end Sys2Proof.Machine

namespace Sys2Proof

open Sys2Proof.Machine

/-- Settles O46: the load, the tightening and the image each commit what is judged, and the channels take it one by one. -/
theorem policyAndConfigurationTakeEffect : Obligations.PolicyAndConfigurationTakeEffect := by
  intro s src b img ch n persist lenField len faults changes
  refine ⟨fun ha hu hl => ?load, fun ha hch hon hp => ?tighten, fun ha hsec => ?write, exec_configRead⟩
  case load =>
    refine ite_intro (fun h => policyLoad_faulted ha hu hl h.1 h.2) fun _ h0 => ?_
    subst h0
    exact ite_intro (fun hst => policyLoad_success ha hu hl hst n) fun hst => policyLoad_refused ha hu hl hst
  case tighten =>
    have he := exec_stencilTighten ha hch hon hp
    cases hb : badTighten lenField changes with
    | some off =>
      rw [hb] at he
      exact he
    | none =>
      rw [hb] at he
      refine ⟨_, he, ?_⟩
      rw [State.noted_st]
      exact s.tighten_parts src n persist changes
  case write =>
    have he := exec_configWrite ha hsec
    refine ite_intro (fun hs => ⟨_, he.trans (congrArg Host.Outcome.next (if_pos hs)), ?_⟩)
      fun hs => he.trans (congrArg Host.Outcome.next (if_neg hs))
    obtain ⟨himg, hdef, hcfg, hen, hheld, hoff⟩ := s.commitConfig_parts src.mgr img n
    generalize s.commitConfig src.mgr img = u at himg hdef hcfg hen hheld hoff ⊢
    have hf := State.answered_frame s u src (okAns (leBytes 4 u.cfgSeq))
    have hdev : ((u.deliver src (okAns (leBytes 4 u.cfgSeq))).noteCommit s src).dev.configDefaulted = u.dev.configDefaulted := by
      rw [(State.noted_frame _ s src .dev (by decide) : _ = _)]
      exact DevKept.configDefaulted (State.deliver_dev (DevKept.refl u))
    have himg' := (hf .cfgImg (by decide)).trans himg
    rw [State.answered_ch]
    refine ⟨?_, ?_, hdev.trans hdef, (congrArg (vget · n) (hf .profCfg (by decide))).trans hcfg,
      (congrArg (fun p => (vget p n).enabled) (hf .prof (by decide))).trans hen, hheld, hoff⟩
    · rw [himg', LPair.cur_commit]
    · rw [State.cfgSeq, himg', LPair.cur_commit, LPair.seq_commit]
      rfl

end Sys2Proof

end


section
/-! SUPPORT. The SPDM responder (R171, R185 to R188). -/

namespace Sys2Proof.Machine

open Sys2Proof

/-! ## A request that is heard -/

/-- From s to t only what counts messages and the endpoints change. -/
def Spoken (s t : State) : Prop := ∃ v w x, t = { s with views := v, i3c := w, spdm := x }

theorem State.countMessage_eq (s : State) (e : Fin 8) (k : Half) : ∃ v w, s.countMessage e k = { s with views := v, i3c := w } := by
  unfold State.countMessage
  split
  · exact ⟨_, _, rfl⟩
  · exact ⟨_, _, rfl⟩
  · split
    · split
      · exact ⟨_, _, rfl⟩
      · exact ⟨_, _, rfl⟩
    · exact ⟨_, _, rfl⟩

/-- The state in which a request on an endpoint is answered. -/
def State.spdmHeard (s : State) (e : Fin 8) : State := s.countMessage e (Config.spdmPackets s.now)

theorem State.spdmHeard_spoken (s : State) (e : Fin 8) : Spoken s (s.spdmHeard e) ∧ (s.spdmHeard e).spdm = s.spdm := by
  obtain ⟨v, w, h⟩ := s.countMessage_eq e (Config.spdmPackets s.now)
  rw [State.spdmHeard, h]
  exact ⟨⟨v, w, s.spdm, rfl⟩, rfl⟩

theorem Spoken.attests {s t : State} (h : Spoken s t) : t.attests = s.attests := by
  obtain ⟨v, w, x, rfl⟩ := h
  rfl

theorem Spoken.now {s t : State} (h : Spoken s t) : t.now = s.now := by
  obtain ⟨v, w, x, rfl⟩ := h
  rfl

theorem Spoken.chain {s t : State} (h : Spoken s t) : t.spdmChain = s.spdmChain := by
  obtain ⟨v, w, x, rfl⟩ := h
  rfl

theorem Spoken.measBlock {s t : State} (h : Spoken s t) (i : Nat) : t.measBlock i = s.measBlock i := by
  obtain ⟨v, w, x, rfl⟩ := h
  rfl

theorem Spoken.measAll {s t : State} (h : Spoken s t) : t.measAll = s.measAll :=
  congrArg (fun f => (List.range 144).filterMap f) (funext h.measBlock)

theorem Spoken.signs {s t : State} (h : Spoken s t) : t.att.spdmSigns = s.att.spdmSigns ∧ t.drawn = s.drawn ∧ t.drbg = s.drbg := by
  obtain ⟨v, w, x, rfl⟩ := h
  exact ⟨rfl, rfl, rfl⟩

theorem State.spdmReq_up {s : State} {e : Fin 8} (body : State → State) (h : s.spdmUp e = true) : s.spdmReq e body = body (s.spdmHeard e) := by
  unfold State.spdmReq
  rw [if_pos h]
  rfl

theorem State.spdmHeard_ep (s : State) (e k : Fin 8) : (s.spdmHeard e).ep k = s.ep k := congrArg (vget · k) (s.spdmHeard_spoken e).2

theorem State.spdmSay_ep (s : State) (e : Fin 8) (r : SpdmReply) : (s.spdmSay e r).ep e = { s.ep e with reply := r } := State.modEp_ep _ _ _

/-- Without an identity every request that needs one is answered UNSPECIFIED (R171). -/
theorem State.spdmFull_unowned {s : State} {e : Fin 8} (body : State → State) (h : s.spdmUp e = true) (ha : s.attests = false) :
    s.spdmFull e body = (s.spdmHeard e).spdmSay e (.error .unspecified) := by
  unfold State.spdmFull
  rw [State.spdmReq_up _ h]
  rw [(s.spdmHeard_spoken e).1.attests, ha]
  rfl

theorem State.spdmFull_open {s : State} {e : Fin 8} (body : State → State) (h : s.spdmUp e = true) (ha : s.attests = true)
    (hg : (s.ep e).algs = true) : s.spdmFull e body = body (s.spdmHeard e) := by
  unfold State.spdmFull
  rw [State.spdmReq_up _ h]
  rw [(s.spdmHeard_spoken e).1.attests, ha, State.spdmHeard_ep, hg]
  rfl

/-- A request inside a session that is not open (log entry 66). -/
theorem State.spdmIn_closed {s : State} {e : Fin 8} {session : Nat} (body : State → State) (h : s.spdmUp e = true) (ha : s.attests = true)
    (hg : (s.ep e).algs = true) (h0 : session ≠ 0) (hn : (s.ep e).session? session = none) :
    s.spdmIn e session body = (s.spdmHeard e).spdmSay e (.error .invalidRequest) := by
  unfold State.spdmIn
  rw [State.spdmFull_open _ h ha hg]
  rw [if_neg h0, State.spdmHeard_ep, hn]

/-- The state in which a request outside a session, or inside an open one, is answered; the session takes note of it. -/
def State.spdmNoted (s : State) (e : Fin 8) (session : Nat) : State :=
  if session = 0 then s.spdmHeard e else (s.spdmHeard e).modEp e fun x => x.touch session (s.spdmHeard e).now

theorem State.spdmIn_open {s : State} {e : Fin 8} {session : Nat} (body : State → State) (h : s.spdmUp e = true) (ha : s.attests = true)
    (hg : (s.ep e).algs = true) (hs : session = 0 ∨ ((s.ep e).session? session).isSome = true) :
    s.spdmIn e session body = body (s.spdmNoted e session) := by
  unfold State.spdmIn State.spdmNoted
  rw [State.spdmFull_open _ h ha hg]
  by_cases h0 : session = 0
  · rw [if_pos h0, if_pos h0]
  · rw [if_neg h0, if_neg h0, State.spdmHeard_ep]
    obtain ⟨x, hx⟩ := Option.isSome_iff_exists.mp (hs.resolve_left h0)
    rw [hx]

/-- The endpoint as the answer finds it. -/
def Endpoint.noted (x : Endpoint) (session now : Nat) : Endpoint := if session = 0 then x else x.touch session now

theorem State.spdmNoted_parts (s : State) (e : Fin 8) (session : Nat) :
    Spoken s (s.spdmNoted e session) ∧ (s.spdmNoted e session).ep e = (s.ep e).noted session s.now := by
  obtain ⟨hs, hsp⟩ := s.spdmHeard_spoken e
  unfold State.spdmNoted Endpoint.noted
  split
  · exact ⟨hs, s.spdmHeard_ep e e⟩
  · rw [State.modEp_ep, State.spdmHeard_ep, hs.now]
    obtain ⟨v, w, x, hx⟩ := hs
    exact ⟨by rw [hx]; exact ⟨v, w, _, rfl⟩, rfl⟩

/-! ## Answers and signatures -/

/-- An answer whose reply is the one asked for. -/
theorem told {o : Out} {u : State} {ep : Fin 8} {r : SpdmReply} {p : State → Prop} (h : o = .next (u.spdmSay ep r))
    (hp : p (u.spdmSay ep r)) : ∃ t, o = .next t ∧ (t.ep ep).reply = r ∧ p t :=
  ⟨_, h, congrArg Endpoint.reply (u.spdmSay_ep ep r), hp⟩

/-- From s to t one SPDM signature was made, and no endpoint changed. -/
def SpdmSigned (s t : State) : Prop :=
  t.att.spdmSigns = satInc s.att.spdmSigns ∧ t.drawn = s.drawn + 1 ∧ t.spdm = s.spdm

theorem State.spdmSigned_signed (s : State) : SpdmSigned s s.spdmSigned := by
  obtain ⟨b, hb⟩ : ∃ b, s.spdmSigned = { s.drawGeneral with att := { s.att with spdmSigns := satInc s.att.spdmSigns }, burin := b } := by
    unfold State.spdmSigned State.internalRun
    split
    · exact ⟨_, rfl⟩
    · exact ⟨_, rfl⟩
  rw [hb]
  exact ⟨rfl, rfl, rfl⟩

theorem SpdmSigned.ep {s t : State} (h : SpdmSigned s t) (e : Fin 8) : t.ep e = s.ep e := congrArg (vget · e) h.2.2

theorem Spoken.modEp {s t : State} (h : Spoken s t) (e : Fin 8) (f : Endpoint → Endpoint) : Spoken s (t.modEp e f) := by
  obtain ⟨v, w, x, rfl⟩ := h
  exact ⟨v, w, _, rfl⟩

/-- The signature of a request that was heard is counted from the state before it. -/
theorem Spoken.signed {s u v : State} (h : Spoken s u) (ha : v.att = u.spdmSigned.att) (hn : v.drawn = u.spdmSigned.drawn) :
    v.att.spdmSigns = satInc s.att.spdmSigns ∧ v.drawn = s.drawn + 1 := by
  obtain ⟨hu, hd, -⟩ := u.spdmSigned_signed
  obtain ⟨h1, h2, -⟩ := h.signs
  rw [ha, hn]
  exact ⟨hu.trans (congrArg satInc h1), hd.trans (congrArg (· + 1) h2)⟩

/-! ## Sessions -/

/-- A change of sessions that keeps their ids reaches the session asked for. -/
theorem Endpoint.session?_map {x y : Endpoint} {f : Session → Session} {id : Nat} (hy : y.sessions = x.sessions.map f)
    (hf : ∀ t, (f t).id = t.id) : y.session? id = (x.session? id).map f := by
  unfold Endpoint.session?
  rw [hy, List.find?_map]
  exact congrArg (fun p => (x.sessions.find? p).map f) (funext fun t => congrArg (fun k => decide (k = id)) (hf t))

theorem Endpoint.session?_id {x : Endpoint} {id : Nat} {t : Session} (h : x.session? id = some t) : t.id = id := by
  simpa using List.find?_some h

theorem Endpoint.session?_touch {x : Endpoint} {id now : Nat} {t : Session} (h : x.session? id = some t) :
    (x.touch id now).session? id = some { t with lastMsg := now } := by
  rw [Endpoint.session?_map (x := x) rfl (by intro t; split <;> rfl), h, Option.map_some, if_pos (Endpoint.session?_id h)]

/-- A session that was established answers as one (FINISH, R188). -/
theorem Endpoint.session?_establish {x : Endpoint} {id : Nat} {t : Session} (h : x.session? id = some t) :
    ({ x with sessions := x.sessions.map fun t => if t.id = id then { t with established := true } else t } : Endpoint).session? id =
      some { t with established := true } := by
  rw [Endpoint.session?_map (x := x) rfl (by intro t; split <;> rfl), h, Option.map_some, if_pos (Endpoint.session?_id h)]

theorem Endpoint.session?_removed (x : Endpoint) (id : Nat) :
    ({ x with sessions := x.sessions.filter fun t => t.id ≠ id } : Endpoint).session? id = none := by
  unfold Endpoint.session?
  rw [List.find?_eq_none]
  intro t ht
  simpa using (List.mem_filter.mp ht).2

/-- A noted message changes nothing of the chunks. -/
theorem Endpoint.noted_chunks (x : Endpoint) (session now : Nat) :
    (x.noted session now).chunkIn = x.chunkIn ∧ (x.noted session now).chunkSeq = x.chunkSeq ∧
      (x.noted session now).chunkOut = x.chunkOut ∧ (x.noted session now).chunkOutSeq = x.chunkOutSeq := by
  unfold Endpoint.noted
  split
  · exact ⟨rfl, rfl, rfl, rfl⟩
  · exact ⟨rfl, rfl, rfl, rfl⟩

/-! ## The requests -/

/-- What NEGOTIATE_ALGORITHMS selects of an offer: one of each kind that the offer names. -/
def selectedOf (offer : AlgOffer) : SpdmReply :=
  let pick := fun (b : Bool) (code : Nat) => if b then code else 0
  .algorithms (pick offer.p384 0x80) (pick offer.sha384 2) (pick offer.dmtf 4) (pick offer.dmtf 1) (pick offer.secp384r1 0x10)
    (pick offer.aes256gcm 2) (pick offer.spdmSchedule 1)

/-- The state in which MEASUREMENTS is sent: where a signature was asked for, it was made. -/
def State.spdmMeasured (s : State) (signed : Bool) : State := if signed then s.spdmSigned else s

/-- The blocks that an index other than 0 asks for (R187). -/
def State.measAt (s : State) (index : Nat) : List MeasBlock := if index = 0xFF then s.measAll else (s.measBlock index).toList

/-- The signature of a MEASUREMENTS response. -/
def State.measSig (s : State) (nonce : List Byte) (index : Nat) (signed : Bool) : Option (List Byte) :=
  if signed then some (Config.spdmSign s.aliasEc nonce (blockData (s.measAt index)) s.drawn) else none

theorem State.measSig_isSome (s : State) (nonce : List Byte) (index : Nat) (signed : Bool) : (s.measSig nonce index signed).isSome = signed := by
  cases signed
  · rfl
  · rfl

theorem Spoken.measAt {s t : State} (h : Spoken s t) (index : Nat) : t.measAt index = s.measAt index := by
  unfold State.measAt
  rw [h.measAll, h.measBlock]

section
variable {s : State} {ep : Fin 8} (hup : s.spdmUp ep = true)
include hup

theorem exec_getVersion : exec (.getVersion ep 0) s =
    .next (((s.spdmHeard ep).modEp ep fun x => { x.restart with versioned := true }).spdmSay ep (.version true true)) :=
  congrArg Host.Outcome.next (State.spdmReq_up _ hup)

theorem exec_getVersion_inside {session : Nat} (h : session ≠ 0) : exec (.getVersion ep session) s =
    .next (((s.spdmHeard ep).modEp ep fun x => x.touch session (s.spdmHeard ep).now).spdmSay ep (.error .unexpectedRequest)) :=
  congrArg Host.Outcome.next ((State.spdmReq_up _ hup).trans (if_pos h))

theorem exec_getCapabilities {version : Nat} (hv : (s.ep ep).versioned = true) (ha : (s.ep ep).algs = false)
    (hs : version = 12 ∨ version = 13) : exec (.getCapabilities ep version) s =
    .next (((s.spdmHeard ep).modEp ep fun x => { x with version := version, caps := true }).spdmSay ep
      (.capabilities spdmCaps spdmTransfer spdmMax)) := by
  refine congrArg Host.Outcome.next ((State.spdmReq_up _ hup).trans ?_)
  rw [s.spdmHeard_ep, hv, ha]
  refine (if_neg (by decide)).trans (if_neg ?_)
  omega

theorem exec_negotiate {offer : AlgOffer} (hc : (s.ep ep).caps = true)
    (ho : (offer.p384 || offer.sha384 || offer.secp384r1 || offer.aes256gcm || offer.dmtf || offer.spdmSchedule) = true) :
    exec (.negotiateAlgorithms ep offer) s =
      .next (((s.spdmHeard ep).modEp ep fun x => { x with algs := true }).spdmSay ep (selectedOf offer)) := by
  refine congrArg Host.Outcome.next ((State.spdmReq_up _ hup).trans ?_)
  rw [s.spdmHeard_ep, hc]
  refine (if_neg (by decide)).trans (if_neg ?_)
  rw [ho]
  decide

theorem exec_unsupportedSpdm (session : Nat) : exec (.unsupportedSpdmRequest ep session) s =
    .next (((s.spdmHeard ep).modEp ep fun x => x.touch session (s.spdmHeard ep).now).spdmSay ep
      (.error (if s.attests then .unsupportedRequest else .unspecified))) := by
  refine congrArg Host.Outcome.next ((State.spdmReq_up _ hup).trans ?_)
  rw [(s.spdmHeard_spoken ep).1.attests]

section
variable {session : Nat} (hat : s.attests = true) (hal : (s.ep ep).algs = true)
include hat hal

section
variable (hs : session = 0 ∨ ((s.ep ep).session? session).isSome = true)
include hs

theorem exec_getDigests : exec (.getDigests ⟨ep, session⟩) s =
    .next ((s.spdmNoted ep session).spdmSay ep (.digests 1 (Config.sha384 s.spdmChain))) := by
  refine congrArg Host.Outcome.next ((State.spdmIn_open _ hup hat hal hs).trans ?_)
  rw [(s.spdmNoted_parts ep session).1.chain]

theorem exec_getCertificate {offset : Nat} (len : Nat) (ho : offset < s.spdmChain.length) :
    exec (.getCertificate ⟨ep, session⟩ 0 offset len) s = .next ((s.spdmNoted ep session).spdmSay ep
      (.certificate ((s.spdmChain.drop offset).take len) (s.spdmChain.length - (offset + min len (s.spdmChain.length - offset))))) := by
  refine congrArg Host.Outcome.next ((State.spdmIn_open _ hup hat hal hs).trans ?_)
  rw [(s.spdmNoted_parts ep session).1.chain]
  exact if_neg (by omega)

theorem exec_challenge {summary : Nat} (nonce : List Byte) (hm : summary = 1 ∨ summary = 0xFF) :
    ∃ d g, exec (.challenge ⟨ep, session⟩ nonce summary) s =
      .next ((s.spdmNoted ep session).spdmSigned.spdmSay ep (.challengeAuth d g)) :=
  ⟨_, _, congrArg Host.Outcome.next ((State.spdmIn_open _ hup hat hal hs).trans (if_neg (by omega)))⟩

/-- MEASUREMENTS of an index other than 0: in one message where it fits, else in chunks. -/
theorem exec_getMeasurements {index : Nat} (signed : Bool) (nonce : List Byte) (h0 : index ≠ 0) (hb : s.measAt index ≠ []) :
    ∃ g bytes, g.isSome = signed ∧ exec (.getMeasurements ⟨ep, session⟩ index signed nonce) s =
      .next (if 4096 < measSize (s.measAt index).length signed then ((s.spdmNoted ep session).spdmMeasured signed).spdmLarge ep bytes
        else ((s.spdmNoted ep session).spdmMeasured signed).spdmSay ep (.measurements (s.measAt index).length (s.measAt index) g)) := by
  rw [← (s.spdmNoted_parts ep session).1.measAt] at hb ⊢
  refine ⟨(s.spdmNoted ep session).measSig nonce index signed,
    Config.spdmMeasurements (blockData ((s.spdmNoted ep session).measAt index)) (((s.spdmNoted ep session).measSig nonce index signed).getD []),
    State.measSig_isSome _ _ _ _, congrArg Host.Outcome.next ((State.spdmIn_open _ hup hat hal hs).trans ?_)⟩
  simp only [if_neg h0]
  exact if_neg fun h => hb h.2

/-- CHUNK_SEND in its turn. -/
theorem exec_chunkSend {seq : Nat} {data : List Byte} (last : Bool) (hq : seq = 0 ∨ seq = (s.ep ep).chunkSeq)
    (hd : data.length ≤ 4096) (hm : (s.ep ep).chunkIn.length + data.length ≤ 65536) :
    exec (.chunkSend ⟨ep, session⟩ seq data last) s = .next (((s.spdmNoted ep session).modEp ep fun x =>
      { x with chunkIn := if last then [] else (if seq = 0 then [] else (s.ep ep).chunkIn) ++ data,
               chunkSeq := if last then 0 else seq + 1 }).spdmSay ep (.chunkSendAck last)) := by
  refine congrArg Host.Outcome.next ((State.spdmIn_open _ hup hat hal hs).trans ?_)
  obtain ⟨h1, h2, -⟩ := (s.ep ep).noted_chunks session s.now
  rw [(s.spdmNoted_parts ep session).2]
  dsimp only
  rw [h1, h2]
  refine if_neg ?_
  unfold spdmTransfer spdmMax
  split <;> omega

/-- CHUNK_GET in its turn. -/
theorem exec_chunkGet {seq : Nat} (ho : (s.ep ep).chunkOut ≠ []) (hq : seq = (s.ep ep).chunkOutSeq) :
    exec (.chunkGet ⟨ep, session⟩ seq) s = .next (((s.spdmNoted ep session).modEp ep fun x =>
      { x with chunkOut := (s.ep ep).chunkOut.drop (4096 - (if seq = 0 then 16 else 12)), chunkOutSeq := seq + 1 }).spdmSay ep
        (.chunk ((s.ep ep).chunkOut.take (4096 - (if seq = 0 then 16 else 12)))
          ((s.ep ep).chunkOut.drop (4096 - (if seq = 0 then 16 else 12))).isEmpty)) := by
  refine congrArg Host.Outcome.next ((State.spdmIn_open _ hup hat hal hs).trans ?_)
  obtain ⟨-, -, h1, h2⟩ := (s.ep ep).noted_chunks session s.now
  rw [(s.spdmNoted_parts ep session).2]
  dsimp only
  rw [h1, h2]
  exact (if_neg ho).trans (if_neg (not_not.mpr hq))

end

theorem exec_keyExchange (exchange : List Byte) (hc : s.sessionCount < 8) (hl : (s.ep ep).sessions.length < 2)
    (hk : s.drbg.keyState = 1) : ∃ g, exec (.keyExchange ep exchange) s = .next (((s.spdmHeard ep).spdmSigned.modEp ep fun x =>
      { x with sessions := x.sessions ++ [{ id := s.drawn + 1, established := false, lastMsg := s.now }] }).spdmSay ep
        (.keyExchange (s.drawn + 1) 60 g)) := by
  obtain ⟨hp, hsp⟩ := s.spdmHeard_spoken ep
  obtain ⟨-, hd, hg⟩ := hp.signs
  refine ⟨Config.spdmSign (s.spdmHeard ep).aliasEc exchange [] s.drawn,
    congrArg Host.Outcome.next ((State.spdmFull_open _ hup hat hal).trans ?_)⟩
  have hc' : (s.spdmHeard ep).sessionCount = s.sessionCount := by
    unfold State.sessionCount
    rw [hsp]
  rw [hc', s.spdmHeard_ep, hg, hd, hp.now]
  exact (if_neg (by omega)).trans (if_neg (not_not.mpr hk))

/-- FINISH of a session that is not established. -/
theorem exec_finish {x : Session} (hx : (s.ep ep).session? session = some x) (he : x.established = false) :
    exec (.finish ep session) s = .next ((((s.spdmHeard ep).modEp ep fun x => x.touch session s.now).modEp ep fun x =>
      { x with sessions := x.sessions.map fun t => if t.id = session then { t with established := true } else t }).spdmSay ep .finish) := by
  refine congrArg Host.Outcome.next ((State.spdmFull_open _ hup hat hal).trans ?_)
  rw [s.spdmHeard_ep, hx, (s.spdmHeard_spoken ep).1.now]
  exact if_neg (by rw [he]; decide)

theorem exec_heartbeat {x : Session} (hx : (s.ep ep).session? session = some x) (he : x.established = true) :
    exec (.heartbeat ep session) s =
      .next (((s.spdmHeard ep).modEp ep fun x => x.touch session s.now).spdmSay ep .heartbeatAck) := by
  refine congrArg Host.Outcome.next ((State.spdmFull_open _ hup hat hal).trans ?_)
  rw [s.spdmHeard_ep, hx, (s.spdmHeard_spoken ep).1.now]
  exact if_pos he

theorem exec_endSession {x : Session} (hx : (s.ep ep).session? session = some x) (he : x.established = true) :
    exec (.endSession ep session) s = .next (((s.spdmHeard ep).modEp ep fun x =>
      { x with sessions := x.sessions.filter fun t => t.id ≠ session }).spdmSay ep .endSessionAck) := by
  refine congrArg Host.Outcome.next ((State.spdmFull_open _ hup hat hal).trans ?_)
  rw [s.spdmHeard_ep, hx]
  exact if_pos he

end

end

/-! ## What an answer leaves -/

theorem State.modEp_said (u : State) (ep : Fin 8) (f : Endpoint → Endpoint) (r : SpdmReply) :
    ((u.modEp ep f).spdmSay ep r).ep ep = { f (u.ep ep) with reply := r } :=
  (State.spdmSay_ep _ _ _).trans (congrArg (fun x : Endpoint => { x with reply := r }) (State.modEp_ep _ _ _))

theorem State.said_att (u : State) (ep : Fin 8) (f : Endpoint → Endpoint) (r : SpdmReply) : ((u.modEp ep f).spdmSay ep r).att = u.att := rfl

theorem State.said_drawn (u : State) (ep : Fin 8) (f : Endpoint → Endpoint) (r : SpdmReply) :
    ((u.modEp ep f).spdmSay ep r).drawn = u.drawn := rfl

theorem State.heard_said (s : State) (ep : Fin 8) (f : Endpoint → Endpoint) (r : SpdmReply) :
    (((s.spdmHeard ep).modEp ep f).spdmSay ep r).ep ep = { f (s.ep ep) with reply := r } :=
  (State.modEp_said _ _ _ _).trans (congrArg (fun x => { f x with reply := r }) (s.spdmHeard_ep ep ep))

theorem State.noted_said (s : State) (ep : Fin 8) (session : Nat) (f : Endpoint → Endpoint) (r : SpdmReply) :
    (((s.spdmNoted ep session).modEp ep f).spdmSay ep r).ep ep = { f ((s.ep ep).noted session s.now) with reply := r } :=
  (State.modEp_said _ _ _ _).trans (congrArg (fun x => { f x with reply := r }) (s.spdmNoted_parts ep session).2)

/-- A message inside a session dates it (R188). -/
theorem State.noted_session (s : State) (ep : Fin 8) {session : Nat} (r : SpdmReply) {x : Session} (h0 : session ≠ 0)
    (hx : (s.ep ep).session? session = some x) :
    (((s.spdmNoted ep session).spdmSay ep r).ep ep).session? session = some { x with lastMsg := s.now } := by
  rw [State.spdmSay_ep, (s.spdmNoted_parts ep session).2, Endpoint.noted, if_neg h0]
  exact Endpoint.session?_touch hx

/-- One signature was counted, and one draw. -/
def Signed (s t : State) : Prop := t.att.spdmSigns = satInc s.att.spdmSigns ∧ t.drawn = s.drawn + 1

theorem Spoken.measured {s u v : State} (h : Spoken s u) {signed : Bool} (hg : signed = true) (ha : v.att = (u.spdmMeasured signed).att)
    (hn : v.drawn = (u.spdmMeasured signed).drawn) : Signed s v := by
  subst hg
  exact h.signed ha hn

/-- A silent session is ended after twice its heartbeat period (R188). -/
theorem exec_spdmSessionTimeout {s : State} {ep : Fin 8} {session : Nat} {x : Session} (hx : (s.ep ep).session? session = some x) :
    ∃ t, exec (.spdmSessionTimeout ep session) s = .next t ∧ t.now = max s.now (x.lastMsg + 120 * second) ∧
      (t.ep ep).session? session = none := by
  refine ⟨(s.until (x.lastMsg + sessionLife)).modEp ep fun x => { x with sessions := x.sessions.filter fun t => t.id ≠ session },
    congrArg Host.Outcome.next ?_, rfl, ?_⟩
  · rw [hx]
  · rw [State.modEp_ep]
    exact Endpoint.session?_removed _ _

theorem exec_doeDiscovery {s : State} {m : Mgr} {ep : Fin 8} (hup : s.spdmUp ep = true) (hm : ep.1 = mgrNum m) :
    exec (.doeDiscovery m) s = .next (s.spdmSay ep (.doeTypes [0, 1, 2])) := by
  cases m
  · obtain rfl : ep = 0 := Fin.ext hm
    exact congrArg Host.Outcome.next (if_pos hup)
  · obtain rfl : ep = 1 := Fin.ext hm
    exact congrArg Host.Outcome.next (if_pos hup)

section
variable {s : State} {ep : Fin 8} {session : Nat} (hup : s.spdmUp ep = true) (hat : s.attests = true) (hal : (s.ep ep).algs = true)
  (hs : session = 0 ∨ ((s.ep ep).session? session).isSome = true)
include hup hat hal hs

/-- MEASUREMENTS that one message carries. -/
theorem measured_whole {index : Nat} (signed : Bool) (nonce : List Byte) (h0 : index ≠ 0) (hb : s.measAt index ≠ [])
    (hz : measSize (s.measAt index).length signed ≤ 4096) : ∃ g t, exec (.getMeasurements ⟨ep, session⟩ index signed nonce) s = .next t ∧
      (t.ep ep).reply = .measurements (s.measAt index).length (s.measAt index) g ∧ g.isSome = signed ∧ (signed = true → Signed s t) := by
  obtain ⟨g, bytes, hg, h⟩ := exec_getMeasurements hup hat hal hs signed nonce h0 hb
  rw [if_neg (by omega)] at h
  exact ⟨g, told (p := fun t => g.isSome = signed ∧ (signed = true → Signed s t)) h
    ⟨hg, fun hsg => (s.spdmNoted_parts ep session).1.measured hsg rfl rfl⟩⟩

/-- MEASUREMENTS of all blocks that one message cannot carry wait in chunks. -/
theorem measured_large {signed : Bool} (nonce : List Byte) (hz : 4096 < measSize s.measAll.length signed) :
    ∃ t, exec (.getMeasurements ⟨ep, session⟩ 0xFF signed nonce) s = .next t ∧ (t.ep ep).reply = .error .largeResponse ∧
      (t.ep ep).chunkOutSeq = 0 ∧ (signed = true → Signed s t) := by
  have hb : s.measAll ≠ [] := by
    intro hn
    rw [hn] at hz
    revert hz
    cases signed <;> decide
  obtain ⟨g, bytes, -, h⟩ := exec_getMeasurements hup hat hal hs signed nonce (index := 0xFF) (by decide) hb
  rw [if_pos (show 4096 < measSize (s.measAt 0xFF).length signed from hz)] at h
  refine told (p := fun t => (t.ep ep).chunkOutSeq = 0 ∧ (signed = true → Signed s t)) h
    ⟨?_, fun hsg => (s.spdmNoted_parts ep session).1.measured hsg rfl rfl⟩
  rw [State.modEp_said]

/-- MEASUREMENTS of one block. -/
theorem measured_one {index : Nat} (signed : Bool) (nonce : List Byte) {b : MeasBlock} (hb : s.measBlock index = some b) (h0 : index ≠ 0)
    (h1 : index ≠ 0xFF) : ∃ g t, exec (.getMeasurements ⟨ep, session⟩ index signed nonce) s = .next t ∧
      (t.ep ep).reply = .measurements 1 [b] g ∧ g.isSome = signed := by
  have hm : s.measAt index = [b] := by
    rw [State.measAt, if_neg h1, hb]
    rfl
  obtain ⟨g, t, h1, h2, h3, -⟩ := measured_whole hup hat hal hs signed nonce h0 (hm ▸ List.cons_ne_nil _ _)
    (by rw [hm, List.length_singleton]; cases signed <;> decide)
  rw [hm] at h2
  exact ⟨g, t, h1, h2, h3⟩

theorem told_challenge {summary : Nat} (nonce : List Byte) (hm : summary = 1 ∨ summary = 0xFF) :
    ∃ d g t, exec (.challenge ⟨ep, session⟩ nonce summary) s = .next t ∧ (t.ep ep).reply = .challengeAuth d g ∧ Signed s t := by
  obtain ⟨d, g, h⟩ := exec_challenge hup hat hal hs nonce hm
  exact ⟨d, g, told h ((s.spdmNoted_parts ep session).1.signed rfl rfl)⟩

omit hs in
theorem told_keyExchange (exchange : List Byte) (hc : s.sessionCount < 8) (hl : (s.ep ep).sessions.length < 2)
    (hk : s.drbg.keyState = 1) : ∃ g t, exec (.keyExchange ep exchange) s = .next t ∧ (t.ep ep).reply = .keyExchange (s.drawn + 1) 60 g ∧
      Signed s t ∧ (t.ep ep).sessions = (s.ep ep).sessions ++ [{ id := s.drawn + 1, established := false, lastMsg := s.now }] := by
  obtain ⟨g, h⟩ := exec_keyExchange hup hat hal exchange hc hl hk
  obtain ⟨hs, hr, hx⟩ := told h (p := fun t => Signed s t ∧
    (t.ep ep).sessions = (s.ep ep).sessions ++ [{ id := s.drawn + 1, established := false, lastMsg := s.now }])
    ⟨(s.spdmHeard_spoken ep).1.signed (State.said_att _ _ _ _) (State.said_drawn _ _ _ _), by rw [State.modEp_said, (State.spdmSigned_signed _).ep, s.spdmHeard_ep]⟩
  exact ⟨g, hs, hr, hx⟩

end

/-! ## Where a request finds no answer -/

/-- Without an identity (R171). -/
theorem told_unowned {s : State} {ep : Fin 8} {c : Instr} {body : State → State} (hup : s.spdmUp ep = true) (ha : s.attests = false)
    (hc : exec c s = .next (s.spdmFull ep body)) :
    ∃ t, exec c s = .next t ∧ (t.ep ep).reply = .error .unspecified ∧ True :=
  told (hc.trans (congrArg Host.Outcome.next (State.spdmFull_unowned body hup ha))) trivial

/-- Inside a session that is not open (log entry 66). -/
theorem told_closed {s : State} {ep : Fin 8} {session : Nat} {c : Instr} {body : State → State} (hup : s.spdmUp ep = true)
    (ha : s.attests = true) (hg : (s.ep ep).algs = true) (h0 : session ≠ 0) (hn : (s.ep ep).session? session = none)
    (hc : exec c s = .next (s.spdmIn ep session body)) :
    ∃ t, exec c s = .next t ∧ (t.ep ep).reply = .error .invalidRequest ∧ True :=
  told (hc.trans (congrArg Host.Outcome.next (State.spdmIn_closed body hup ha hg h0 hn))) trivial

/-- FINISH, HEARTBEAT and END_SESSION look their session up themselves. -/
theorem told_unknown {s : State} {ep : Fin 8} {session : Nat} {c : Instr} {body : State → Session → State} (hup : s.spdmUp ep = true)
    (ha : s.attests = true) (hg : (s.ep ep).algs = true) (hn : (s.ep ep).session? session = none)
    (hc : exec c s = .next (s.spdmFull ep fun u => match (u.ep ep).session? session with
      | none => u.spdmSay ep (.error .invalidRequest)
      | some t => body u t)) :
    ∃ t, exec c s = .next t ∧ (t.ep ep).reply = .error .invalidRequest ∧ True := by
  refine told (u := s.spdmHeard ep) (hc.trans (congrArg Host.Outcome.next ((State.spdmFull_open _ hup ha hg).trans ?_))) trivial
  rw [s.spdmHeard_ep, hn]

end Sys2Proof.Machine

namespace Sys2Proof

open Sys2Proof.Machine

/-- Settles O47, request by request: what an endpoint that is up answers, and what the answer leaves. -/
theorem spdmResponderAnswersEachRequest : Obligations.SpdmResponderAnswersEachRequest := by
  unfold Obligations.SpdmResponderAnswersEachRequest
  intro s m ep session version slot offset len summary index seq offer nonce exchange data signed last tells signs hup
  refine ⟨told (exec_getVersion hup) ?_, fun h => told (exec_getVersion_inside hup h) trivial,
    fun hv ha hs => told (exec_getCapabilities hup hv ha hs) ?_,
    fun hc ho => ⟨_, _, _, _, _, _, _, told (exec_negotiate hup hc ho) ?_⟩, told (exec_unsupportedSpdm hup session) trivial, ?_, ?_, ?_,
    fun x hx => exec_spdmSessionTimeout hx, fun hm => told (exec_doeDiscovery hup hm) trivial⟩
  · rw [State.heard_said]
    exact ⟨rfl, rfl, rfl⟩
  · rw [State.heard_said]
    exact ⟨rfl, rfl⟩
  · rw [State.heard_said]
  · intro ha c hc
    simp only [List.mem_cons, List.not_mem_nil, or_false] at hc
    obtain rfl | rfl | rfl | rfl | rfl | rfl | rfl | rfl | rfl | rfl := hc
    · exact told_unowned hup ha rfl
    · exact told_unowned hup ha rfl
    · exact told_unowned hup ha rfl
    · exact told_unowned hup ha rfl
    · exact told_unowned hup ha rfl
    · exact told_unowned hup ha rfl
    · exact told_unowned hup ha rfl
    · exact told_unowned hup ha rfl
    · exact told_unowned hup ha rfl
    · exact told_unowned hup ha rfl
  · intro ha hg h0 hn c hc
    simp only [List.mem_cons, List.not_mem_nil, or_false] at hc
    obtain rfl | rfl | rfl | rfl | rfl | rfl | rfl | rfl | rfl := hc
    · exact told_closed hup ha hg h0 hn rfl
    · exact told_closed hup ha hg h0 hn rfl
    · exact told_closed hup ha hg h0 hn rfl
    · exact told_closed hup ha hg h0 hn rfl
    · exact told_unknown hup ha hg hn rfl
    · exact told_unknown hup ha hg hn rfl
    · exact told_unknown hup ha hg hn rfl
    · exact told_closed hup ha hg h0 hn rfl
    · exact told_closed hup ha hg h0 hn rfl
  · intro hat hal hs
    refine ⟨told (exec_getDigests hup hat hal hs) fun x h0 hx => s.noted_session ep _ h0 hx,
      fun ho => told (exec_getCertificate hup hat hal hs len ho) trivial, fun hm => ?_, fun hb hz => ?_, fun hz => ?_,
      fun b hb h0 h1 => ?_, fun hc hl hk => ?_, fun x hx => ⟨fun he => ?_, fun he => ⟨?_, ?_⟩⟩, fun hq hd hm => ?_, fun ho hq => ?_⟩
    · exact told_challenge hup hat hal hs nonce hm
    · obtain ⟨g, h⟩ := measured_whole (index := 0xFF) hup hat hal hs signed nonce (by decide) hb hz
      exact ⟨g, h⟩
    · exact measured_large hup hat hal hs nonce hz
    · exact measured_one hup hat hal hs signed nonce hb h0 h1
    · exact told_keyExchange hup hat hal exchange hc hl hk
    · refine told (exec_finish hup hat hal hx he) ?_
      rw [State.modEp_said, State.modEp_ep, s.spdmHeard_ep]
      exact Endpoint.session?_establish (Endpoint.session?_touch hx)
    · refine told (exec_heartbeat hup hat hal hx he) ?_
      rw [State.heard_said]
      exact Endpoint.session?_touch hx
    · refine told (exec_endSession hup hat hal hx he) ?_
      rw [State.heard_said]
      exact Endpoint.session?_removed _ _
    · refine told (exec_chunkSend hup hat hal hs last hq hd hm) ?_
      rw [State.noted_said]
      exact ⟨rfl, rfl⟩
    · refine told (exec_chunkGet hup hat hal hs ho hq) ?_
      rw [State.noted_said]
      exact ⟨rfl, rfl⟩

end Sys2Proof
end


section
/-! SUPPORT. What a command writes in its manager's memory. -/

namespace Sys2Proof.Machine

open Sys2Proof

/-! ## The memory of a manager -/

/-- Of all that the device writes in the managers' memories, only completions are added from s to t. -/
def CompletionsOnly (s t : State) : Prop :=
  ∀ m, ∃ l, (t.view m).out = (s.view m).out ++ l ∧ ∀ x ∈ l, ∃ q i e, x = .completion q i e

theorem CompletionsOnly.of_out {s t : State} (h : ∀ m, (t.view m).out = (s.view m).out) : CompletionsOnly s t := fun m =>
  ⟨[], (h m).trans (List.append_nil _).symm, fun _ hx => absurd hx List.not_mem_nil⟩

theorem CompletionsOnly.of_views {s t : State} (h : t.views = s.views) : CompletionsOnly s t :=
  .of_out fun m => congrArg (fun v : PerMgr View => (v.get m).out) h

theorem CompletionsOnly.refl (s : State) : CompletionsOnly s s := .of_views rfl

theorem CompletionsOnly.trans {s t u : State} (h : CompletionsOnly s t) (k : CompletionsOnly t u) : CompletionsOnly s u := fun m => by
  obtain ⟨l, hl, hc⟩ := h m
  obtain ⟨l', hl', hc'⟩ := k m
  refine ⟨l ++ l', by rw [hl', hl, List.append_assoc], fun x hx => ?_⟩
  obtain hx | hx := List.mem_append.mp hx
  · exact hc x hx
  · exact hc' x hx

theorem State.view_modView (s : State) (m : Mgr) (f : View → View) (k : Mgr) :
    (s.modView m f).view k = if k = m then f (s.view k) else s.view k := by
  cases m <;> cases k <;> rfl

/-- A change of a view that adds nothing but completions to its manager's memory. -/
theorem CompletionsOnly.modView {s t : State} (h : CompletionsOnly s t) (m : Mgr) {f : View → View} {l : List Output}
    (hf : (f (t.view m)).out = (t.view m).out ++ l) (hl : ∀ x ∈ l, ∃ q i e, x = Output.completion q i e) :
    CompletionsOnly s (t.modView m f) := h.trans fun k => by
  rw [State.view_modView]
  split
  · next hk =>
    subst hk
    exact ⟨l, hf, hl⟩
  · exact CompletionsOnly.refl t k

theorem CompletionsOnly.modRing {s t : State} (h : CompletionsOnly s t) (m : Mgr) (f : Ring → Ring) : CompletionsOnly s (t.modRing m f) :=
  h.trans (.of_views rfl)

theorem CompletionsOnly.ringDmaFailed {s t : State} (h : CompletionsOnly s t) (m : Mgr) (kind : BitVec 3) (addr : DWord) :
    CompletionsOnly s (t.ringDmaFailed m kind addr) :=
  (h.modView m (List.append_nil _).symm fun _ hx => absurd hx List.not_mem_nil).modRing m _

theorem CompletionsOnly.queueFault {s t : State} (h : CompletionsOnly s t) (m : Mgr) (q : Byte) (sq : Bool) :
    CompletionsOnly s (t.queueFault m q sq) := h.trans (.of_views rfl)

/-- The post of a completion adds that completion and nothing else. -/
theorem CompletionsOnly.post {s t : State} (h : CompletionsOnly s t) (src : Src) (st : Status) (info : Nat) (result : List Byte)
    (more : Bool) : CompletionsOnly s (t.post src st info result more) := by
  unfold State.post
  dsimp only
  split
  · exact h
  · split
    · exact h.modRing _ _
    · split
      · exact h.modRing _ _
      · split
        · refine (h.modRing _ _).modView _ rfl fun x hx => ?_
          obtain rfl := List.mem_singleton.mp hx
          exact ⟨_, _, _, rfl⟩
        · exact ((h.modRing _ _).ringDmaFailed _ _ _).queueFault _ _ _

theorem CompletionsOnly.reapSq {s t : State} (h : CompletionsOnly s t) (m : Mgr) (q : Nat) : CompletionsOnly s (t.reapSq m q) := by
  unfold State.reapSq
  dsimp only
  split
  · split
    · split
      · split
        · refine CompletionsOnly.post ?_ _ _ _ _ _
          exact h.trans (.of_views rfl)
        · exact h.trans (.of_views rfl)
        · exact h.trans (.of_views rfl)
      · exact h.modRing _ _
    · exact h
  · exact h

theorem CompletionsOnly.finish {s t : State} (h : CompletionsOnly s t) (src : Src) (st : Status) (info : Nat) (result : List Byte)
    (more : Bool) : CompletionsOnly s (t.finish src st info result more) := by
  refine CompletionsOnly.reapSq (CompletionsOnly.post ?_ src st info result more) _ _
  exact h.trans (.of_views rfl)

theorem CompletionsOnly.mem {s t : State} (h : CompletionsOnly s t) {m : Mgr} {x : Output} (hx : x ∈ (s.view m).out) :
    x ∈ (t.view m).out := by
  obtain ⟨l, hl, -⟩ := h m
  rw [hl]
  exact List.mem_append_left _ hx

/-- What is no completion stood in the memory before. -/
theorem CompletionsOnly.buffer {s t : State} (h : CompletionsOnly s t) {m : Mgr} {q : Byte} {i : Half} {b : List Byte}
    (hx : Output.buffer q i b ∈ (t.view m).out) : Output.buffer q i b ∈ (s.view m).out := by
  obtain ⟨l, hl, hc⟩ := h m
  rw [hl] at hx
  refine (List.mem_append.mp hx).resolve_right fun hx => ?_
  obtain ⟨_, _, _, he⟩ := hc _ hx
  exact Output.noConfusion he

theorem State.toBuffer_out {s : State} {src : Src} (d : List Byte) (h : s.dmaUp src.mgr = true) :
    ((s.toBuffer src d).view src.mgr).out = (s.view src.mgr).out ++ [.buffer src.sq src.cid d] := by
  unfold State.toBuffer
  rw [if_pos h, State.view_modView, if_pos rfl]

/-- The bytes of an answer stand in the buffer of its command (R217). -/
theorem State.deliver_buffer {s : State} {src : Src} {a : Answer} {d : List Byte} (hd : a.data = some d) (h : s.dmaUp src.mgr = true) :
    Output.buffer src.sq src.cid d ∈ ((s.deliver src a).view src.mgr).out := by
  unfold State.deliver
  rw [hd]
  refine ((CompletionsOnly.refl _).finish src _ _ _ _).mem ?_
  rw [State.toBuffer_out d h]
  exact List.mem_append_right _ (List.mem_singleton_self _)

theorem State.noteCommit_views (t s : State) (src : Src) : (t.noteCommit s src).views = t.views := by
  obtain ⟨l, h⟩ := State.noteCommit_eq t s src
  rw [h]

end Sys2Proof.Machine
end


section
/-! SUPPORT. The writer of Tracing and the quote (R180, R182 to R184). -/

namespace Sys2Proof.Machine

open Sys2Proof

/-! ## The writer -/

/-- A full ring gives up its oldest record; the queue, the header's SEQ, the lost records and the running digest stay. -/
theorem State.dropOldest_parts (s : State) (h : TraceHdr) :
    let d := s.dropOldest h
    d.1.trace.queue = s.trace.queue ∧ d.1.trace.hdr = s.trace.hdr ∧ d.1.trace.lost = s.trace.lost ∧ d.2.run = h.run := by
  unfold State.dropOldest
  split
  · split
    · exact ⟨rfl, rfl, rfl, rfl⟩
    · dsimp only
      split
      · exact ⟨rfl, rfl, rfl, rfl⟩
      · exact ⟨rfl, rfl, rfl, rfl⟩
  · exact ⟨rfl, rfl, rfl, rfl⟩

/-- The records that the writer still has to write: those queued, and one for the gap where records were lost. -/
def Tracing.due (t : Tracing) : Nat := t.queue.length + if t.lost = 0 then 0 else 1

theorem enqueue_length (e : TraceEvt) (q : List TraceEvt) : (enqueue e q).length = q.length + 1 := by
  induction q with
  | nil => rfl
  | cons x q ih =>
    unfold enqueue
    split
    · rfl
    · rw [List.length_cons, ih, List.length_cons]

/-- A log of a gap record: the ring and its header stay. -/
theorem State.log_trace (s : State) (type ch : Nat) (info : List Nat) :
    (s.log type ch info).trace.ring = s.trace.ring ∧ (s.log type ch info).trace.hdr = s.trace.hdr := by
  unfold State.log State.pushTrace
  split
  · exact ⟨rfl, rfl⟩
  · exact ⟨rfl, rfl⟩

/-- What a log leaves of the queue and of the lost records. -/
theorem State.log_queue (s : State) (type ch : Nat) (info : List Nat) :
    ∃ e, (s.log type ch info).trace.queue = (if s.trace.queue.length < 4096 then enqueue e s.trace.queue else s.trace.queue) ∧
      (s.log type ch info).trace.lost = if s.trace.queue.length < 4096 then s.trace.lost else s.trace.lost + 1 := by
  refine ⟨{ time := s.now, start := s.dev.startCount, type := BitVec.ofNat 16 type, ch := BitVec.ofNat 16 ch, meas := 0xFF,
            info := info, v := Digest.zero }, ?_⟩
  unfold State.log State.pushTrace
  split
  · exact ⟨rfl, rfl⟩
  · exact ⟨rfl, rfl⟩

/-- The writer has taken e off the head of the queue: r is its record in the ring, and q is left, with the gap's record where it fits. -/
def Wrote (s t : State) (e : TraceEvt) (q : List TraceEvt) (r : TraceRec) : Prop :=
  r.evt = e ∧ r.seq = s.traceNewest + 1 ∧ t.traceNewest = r.seq ∧ r ∈ t.trace.ring ∧ t.traceHdr.run = chain s.traceHdr.run r ∧
    (s.trace.lost = 0 → t.trace.queue = q ∧ t.trace.lost = 0) ∧
    (s.trace.lost ≠ 0 → t.trace.due = q.length + 1 ∧ t.trace.queue ≠ [])

/-- The ring and its header with one more record, after what a full ring has given up. -/
def State.withRecord (s : State) (h : TraceHdr) (r : TraceRec) : State :=
  State.committed { s with trace := { s.trace with
    ring := s.trace.ring ++ [r], hdr := s.trace.hdr.commit { h with epoch := r.epoch, run := chain h.run r },
    gaps := if r.evt.type = 0x00FF then satInc s.trace.gaps else s.trace.gaps } }

theorem State.withRecord_parts (s : State) (h : TraceHdr) (r : TraceRec) :
    let t := s.withRecord h r
    t.trace.queue = s.trace.queue ∧ t.trace.lost = s.trace.lost ∧ t.traceNewest = s.traceNewest + 1 ∧ r ∈ t.trace.ring ∧
      t.traceHdr.run = chain h.run r := by
  refine ⟨rfl, rfl, LPair.seq_commit _ _, List.mem_append_right _ (List.mem_singleton_self _), ?_⟩
  unfold State.traceHdr
  exact congrArg (fun o : Option TraceHdr => (o.getD { oldest := 1, epoch := 0, base := Digest.zero, run := Digest.zero }).run)
    (LPair.cur_commit _ _)

/-- Records that were lost leave a gap record. -/
def State.gapLogged (s : State) : State :=
  if s.trace.lost = 0 then s
  else State.log { s with trace := { s.trace with lost := 0 } } 0x00FF devCh [s.trace.lost, s.trace.lostFrom, s.trace.lostTo]

theorem State.gapLogged_parts (s : State) :
    s.gapLogged.trace.ring = s.trace.ring ∧ s.gapLogged.trace.hdr = s.trace.hdr ∧
      (s.trace.lost = 0 → s.gapLogged.trace.queue = s.trace.queue ∧ s.gapLogged.trace.lost = 0) ∧
      (s.trace.lost ≠ 0 → s.gapLogged.trace.due = s.trace.queue.length + 1 ∧ s.gapLogged.trace.queue ≠ []) := by
  unfold State.gapLogged
  split
  · next h => exact ⟨rfl, rfl, fun _ => ⟨rfl, h⟩, fun hn => absurd h hn⟩
  · next h =>
    obtain ⟨h1, h2⟩ := State.log_trace { s with trace := { s.trace with lost := 0 } } 0x00FF devCh
      [s.trace.lost, s.trace.lostFrom, s.trace.lostTo]
    obtain ⟨g, h3, h4⟩ := State.log_queue { s with trace := { s.trace with lost := 0 } } 0x00FF devCh
      [s.trace.lost, s.trace.lostFrom, s.trace.lostTo]
    refine ⟨h1, h2, fun hz => absurd hz h, fun _ => ?_⟩
    unfold Tracing.due
    rw [h3, h4]
    dsimp only
    split
    · refine ⟨by rw [enqueue_length, if_pos rfl], fun hn => ?_⟩
      have := congrArg List.length hn
      rw [enqueue_length] at this
      exact Nat.succ_ne_zero _ this
    · next hf =>
      refine ⟨rfl, fun hn => hf ?_⟩
      rw [hn]
      decide

/-- The record that the writer makes of an event. -/
def State.traceRecOf (s : State) (h : TraceHdr) (e : TraceEvt) : TraceRec :=
  { seq := s.traceNewest + 1, epoch := if e.type = 0x0001 || e.type = 0x0060 then h.epoch + 1 else h.epoch, evt := e }

theorem State.writeRecord_eq {s : State} {e : TraceEvt} {q : List TraceEvt} (h : s.trace.queue = e :: q) :
    s.writeRecord =
      let d := State.dropOldest { s with trace := { s.trace with queue := q } } s.traceHdr
      (d.1.withRecord d.2 (s.traceRecOf d.2 e)).gapLogged := by
  unfold State.writeRecord
  rw [h]
  rfl

/-- The writer writes the head of the queue into the ring (R180). -/
theorem State.writeRecord_wrote {s : State} {e : TraceEvt} {q : List TraceEvt} (h : s.trace.queue = e :: q) :
    ∃ r, Wrote s s.writeRecord e q r := by
  rw [State.writeRecord_eq h]
  obtain ⟨hq, hh, hl, hr⟩ := State.dropOldest_parts { s with trace := { s.trace with queue := q } } s.traceHdr
  generalize State.dropOldest { s with trace := { s.trace with queue := q } } s.traceHdr = d at *
  obtain ⟨kq, kl, kn, kr, kc⟩ := d.1.withRecord_parts d.2 (s.traceRecOf d.2 e)
  dsimp only at *
  generalize hr' : s.traceRecOf d.2 e = r at *
  generalize d.1.withRecord d.2 r = u at *
  obtain ⟨gr, gh, gz, gn⟩ := u.gapLogged_parts
  subst hr'
  refine ⟨_, rfl, rfl, ?_, gr.symm ▸ kr, ?_, fun hz => ?_, fun hz => ?_⟩
  · calc u.gapLogged.traceNewest = u.traceNewest := congrArg LPair.seq gh
      _ = d.1.traceNewest + 1 := kn
      _ = s.traceNewest + 1 := congrArg (fun p : LPair TraceHdr => p.seq + 1) hh
  · calc u.gapLogged.traceHdr.run = u.traceHdr.run := by rw [State.traceHdr, gh]; rfl
      _ = _ := kc
      _ = _ := by rw [hr]
  · rw [kl, hl] at gz
    rw [(gz hz).1, kq, hq]
    exact ⟨rfl, (gz hz).2⟩
  · rw [kl, hl] at gn
    rw [kq, hq] at gn
    exact gn hz

/-- Every record written takes one from those due; the number of the newest does not fall. -/
theorem State.writeRecord_due {s : State} (h : s.trace.lost ≠ 0 → s.trace.queue ≠ []) :
    s.writeRecord.trace.due = s.trace.due - 1 ∧ (s.writeRecord.trace.lost ≠ 0 → s.writeRecord.trace.queue ≠ []) ∧
      s.traceNewest ≤ s.writeRecord.traceNewest := by
  cases hq : s.trace.queue with
  | nil =>
    have hz : s.trace.lost = 0 := not_not.mp fun hz => h hz hq
    have hw : s.writeRecord = s := by
      unfold State.writeRecord
      rw [hq]
    rw [hw]
    refine ⟨?_, fun hn => absurd hz hn, Nat.le_refl _⟩
    unfold Tracing.due
    rw [hq, hz]
    rfl
  | cons e q =>
    obtain ⟨r, -, hs, hn, -, -, hz, hl⟩ := State.writeRecord_wrote hq
    refine ⟨?_, fun hne => ?_, by omega⟩
    · by_cases h0 : s.trace.lost = 0
      · obtain ⟨h1, h2⟩ := hz h0
        unfold Tracing.due
        rw [h1, h2, hq, h0, if_pos rfl, List.length_cons]
        omega
      · rw [(hl h0).1]
        unfold Tracing.due
        rw [hq, if_neg h0, List.length_cons]
        omega
    · by_cases h0 : s.trace.lost = 0
      · exact absurd (hz h0).2 hne
      · exact (hl h0).2

/-- Enough records written leave nothing due. -/
theorem State.writeRecords_due (k : Nat) {s : State} (h : s.trace.lost ≠ 0 → s.trace.queue ≠ []) :
    (State.writeRecords k s).trace.due = s.trace.due - k ∧ s.traceNewest ≤ (State.writeRecords k s).traceNewest := by
  induction k generalizing s with
  | zero => exact ⟨rfl, Nat.le_refl _⟩
  | succ k ih =>
    obtain ⟨hd, hn, hle⟩ := State.writeRecord_due h
    obtain ⟨kd, kle⟩ := ih hn
    rw [State.writeRecords]
    exact ⟨by rw [kd, hd]; omega, Nat.le_trans hle kle⟩

theorem Tracing.due_zero {t : Tracing} (h : t.due = 0) : t.queue = [] ∧ t.lost = 0 := by
  unfold Tracing.due at h
  refine ⟨List.eq_nil_of_length_eq_zero (by omega), not_not.mp fun hn => ?_⟩
  rw [if_neg hn] at h
  omega


/-- The writer has written all that was queued, and the gap's record (R182). -/
theorem State.drainTrace_parts {s : State} (h : s.trace.lost ≠ 0 → s.trace.queue ≠ []) :
    s.drainTrace.trace.queue = [] ∧ s.drainTrace.trace.lost = 0 ∧ s.traceNewest ≤ s.drainTrace.traceNewest := by
  obtain ⟨hd, hle⟩ := State.writeRecords_due (s.trace.queue.length + 1) h
  have hz : s.drainTrace.trace.due = 0 := by
    unfold State.drainTrace
    rw [hd]
    unfold Tracing.due
    split <;> omega
  exact ⟨(Tracing.due_zero hz).1, (Tracing.due_zero hz).2, hle⟩

/-- The ledger after the record that closes the epoch (R182). -/
theorem State.closeEpoch_parts {s : State} (hq : s.trace.queue = []) (hl : s.trace.lost = 0) (type ch : Nat) (info : List Nat) :
    (s.log type ch info).writeRecord.trace.queue = [] ∧ (s.log type ch info).writeRecord.traceNewest = s.traceNewest + 1 := by
  obtain ⟨e, h1, h2⟩ := State.log_queue s type ch info
  rw [hq, if_pos (by decide)] at h1
  rw [hq, if_pos (by decide), hl] at h2
  obtain ⟨r, -, hs, hn, -, -, hz, -⟩ := State.writeRecord_wrote (s := s.log type ch info) (e := e) (q := []) h1
  exact ⟨(hz h2).1, by rw [hn, hs, State.traceNewest, (State.log_trace s type ch info).2]; rfl⟩

/-! ## The quote -/

/-- The state after the record that closes the epoch of a quote. -/
def State.epochClosed (s : State) (who : Nat) (nonce : List Byte) : State :=
  (s.drainTrace.log 0x0060 devCh [s.drainTrace.traceHdr.epoch.toNat, s.drainTrace.traceNewest,
    ofLe (Config.sha384 (slice nonce 0 32)).toList, who]).writeRecord

/-- The state after a quote. -/
def State.quoted (s : State) (who : Nat) (nonce : List Byte) : State :=
  State.internalRun { (s.epochClosed who nonce).drawGeneral with
    att := { (s.epochClosed who nonce).att with quotes := satInc (s.epochClosed who nonce).att.quotes } } 160000

theorem State.epochClosed_frame (s : State) (who : Nat) (nonce : List Byte) :
    Frame [.trace, .rings, .led] s (s.epochClosed who nonce) :=
  State.writeRecord_frame (State.log_frame (State.drainTrace_frame (Frame.refl _ s) (by decide)) (by decide)) (by decide)

theorem State.quoted_frame (s : State) (who : Nat) (nonce : List Byte) :
    Frame [.trace, .rings, .led, .burin, .att, .drbg, .drawn] s (s.quoted who nonce) :=
  State.internalRun_frame (Frame.put_att (State.drawGeneral_frame (Frame.comp (Frame.refl _ s) (s.epochClosed_frame who nonce) (by decide)) (by decide))
    (by decide)) (by decide)

theorem State.quoted_parts {s : State} (h : s.trace.lost ≠ 0 → s.trace.queue ≠ []) (who : Nat) (nonce : List Byte) :
    let t := s.quoted who nonce
    t.att.quotes = satInc s.att.quotes ∧ t.trace.queue = [] ∧ t.traceNewest = s.drainTrace.traceNewest + 1 ∧
      s.traceNewest < t.traceNewest := by
  obtain ⟨hq, hl, hn⟩ := State.drainTrace_parts h
  obtain ⟨kq, kn⟩ := State.closeEpoch_parts hq hl 0x0060 devCh [s.drainTrace.traceHdr.epoch.toNat, s.drainTrace.traceNewest,
    ofLe (Config.sha384 (slice nonce 0 32)).toList, who]
  have hatt : (s.epochClosed who nonce).att = s.att := (s.epochClosed_frame who nonce) .att (by decide)
  have hf := State.internalRun_frame (time := 160000) (Frame.refl [.burin] { (s.epochClosed who nonce).drawGeneral with
    att := { (s.epochClosed who nonce).att with quotes := satInc (s.epochClosed who nonce).att.quotes } }) (Field.sub_refl _)
  have htr : (s.quoted who nonce).trace = (s.epochClosed who nonce).trace := hf .trace (by decide)
  have hnew : (s.quoted who nonce).traceNewest = s.drainTrace.traceNewest + 1 :=
    (congrArg (fun t : Tracing => t.hdr.seq) htr).trans kn
  refine ⟨?_, (congrArg Tracing.queue htr).trans kq, hnew, by rw [hnew]; omega⟩
  exact (congrArg Attest.quotes (hf .att (by decide))).trans (congrArg (fun a : Attest => satInc a.quotes) hatt)

/-- A quote that is granted: what it leaves, and the bytes that it answers. -/
theorem State.takeQuote_granted {s : State} {len : Nat} (who : Nat) (nonce : List Byte) (hl : s.quoteLen ≤ len) (ha : s.attests = true)
    (hi : s.inhibited = false) : ∃ sig a, s.takeQuote who nonce len = (s.quoted who nonce, a) ∧
      a.data = some (s.quoteBody nonce s.drainTrace.traceHdr.epoch.toNat s.drainTrace.traceNewest s.drainTrace.traceHdr.run ++ sig) := by
  unfold State.takeQuote
  rw [if_neg (Nat.not_lt.mpr hl), ha, hi]
  exact ⟨_, _, rfl, rfl⟩

/-- QUOTE that is taken: the queue is written out, the epoch closed, the quote counted and its body answered (R182 to R184). -/
theorem exec_quote {s : State} {src : Src} {nonce : List Byte} {len : Nat} (hal : s.allows (.quote src nonce len)) (hl : s.quoteLen ≤ len)
    (ha : s.attests = true) (hi : s.inhibited = false) (hq : s.trace.lost ≠ 0 → s.trace.queue ≠ []) :
    ∃ t epoch run sig, exec (.quote src nonce len) s = .next t ∧ t.att.quotes = satInc s.att.quotes ∧ t.trace.queue = [] ∧
      s.traceNewest < t.traceNewest ∧
      .buffer src.sq src.cid (s.quoteBody nonce epoch (t.traceNewest - 1) run ++ sig) ∈ (t.view src.mgr).out := by
  have ht : s.takes src (gateOf (.quote src nonce len)) := hal _ _ rfl
  obtain ⟨sig, a, he, hd⟩ := State.takeQuote_granted (mgrNum src.mgr) nonce hl ha hi
  obtain ⟨h1, h2, h3, h4⟩ := State.quoted_parts hq (mgrNum src.mgr) nonce
  have hu : (s.quoted (mgrNum src.mgr) nonce).dmaUp src.mgr = true := by
    have hv := (s.quoted_frame (mgrNum src.mgr) nonce) .views (by decide)
    exact (congrArg (fun v : PerMgr View => (v.get src.mgr).linkUp && (v.get src.mgr).cfg.master) hv).trans (ht.2.2 rfl)
  have hex : exec (.quote src nonce len) s = .next (((s.quoted (mgrNum src.mgr) nonce).deliver src a).noteCommit s src) := by
    refine congrArg Host.Outcome.next ((State.ovdel_takes _ ht).trans ?_)
    rw [he]
  generalize s.quoted (mgrNum src.mgr) nonce = u at *
  have hf := State.answered_frame s u src a
  have htr := hf .trace (by decide)
  refine ⟨_, s.drainTrace.traceHdr.epoch.toNat, s.drainTrace.traceHdr.run, sig, hex, ?_, ?_, ?_, ?_⟩
  · exact (congrArg Attest.quotes (hf .att (by decide))).trans h1
  · exact (congrArg Tracing.queue htr).trans h2
  · exact Nat.lt_of_lt_of_eq h4 (congrArg (fun t : Tracing => t.hdr.seq) htr).symm
  · have hn : ((u.deliver src a).noteCommit s src).traceNewest - 1 = s.drainTrace.traceNewest := by
      rw [show ((u.deliver src a).noteCommit s src).traceNewest = u.traceNewest from congrArg (fun t : Tracing => t.hdr.seq) htr, h3]
      rfl
    rw [hn, State.view, State.noteCommit_views]
    exact State.deliver_buffer hd hu

/-! ## TRACING_READ -/

/-- The records that TRACING_READ returns. -/
def State.recordsFrom (s : State) (fromSeq len : Nat) : List TraceRec :=
  (s.trace.ring.filter fun r => max fromSeq s.traceHdr.oldest ≤ r.seq).take (len / 128)

/-- The state with a manager's read mark moved up to a record's number. -/
def State.markRead (s : State) (m : Mgr) (advance : Bool) (last : Nat) : State :=
  if advance && (s.trace.mark.get m).toNat < last then
    { s with trace := { s.trace with mark := s.trace.mark.set m (BitVec.ofNat 64 last) } }
  else s

theorem State.readTrace_whole {s : State} {m : Mgr} {fromSeq len : Nat} (advance : Bool) (h0 : len % 128 = 0) (h1 : 128 ≤ len)
    (hf : fromSeq ≠ 0) : ∃ a, s.readTrace (some m) fromSeq advance false len =
      (s.markRead m advance (((s.recordsFrom fromSeq len).getLast?.map fun r => r.seq).getD 0), a) ∧
      a.data = some ((s.recordsFrom fromSeq len).flatMap TraceRec.bytes) := by
  unfold State.readTrace
  rw [if_neg (show ¬ (len % 128 ≠ 0 ∨ len < if false = true then 256 else 128) from
    not_or.mpr ⟨not_not.mpr h0, Nat.not_lt.mpr h1⟩)]
  simp only [if_neg hf]
  exact ⟨_, rfl, rfl⟩

theorem State.markRead_frame (s : State) (m : Mgr) (advance : Bool) (last : Nat) : Frame [.trace] s (s.markRead m advance last) := by
  unfold State.markRead
  split
  · exact Frame.put_trace (Frame.refl _ s) (by decide)
  · exact Frame.refl _ s

theorem State.markRead_mark (s : State) (m : Mgr) {last : Nat} (h : last < 2 ^ 64) :
    ((s.markRead m true last).trace.mark.get m).toNat = max (s.trace.mark.get m).toNat last := by
  unfold State.markRead
  rw [Bool.true_and]
  split
  · next hl =>
    have hl' : (s.trace.mark.get m).toNat < last := of_decide_eq_true hl
    rw [PerMgr.get_set_self, BitVec.toNat_ofNat, Nat.mod_eq_of_lt h]
    omega
  · next hl =>
    have hl' : ¬ (s.trace.mark.get m).toNat < last := fun hc => hl (decide_eq_true hc)
    omega

/-- TRACING_READ that is taken (R231). -/
theorem exec_tracingRead {s : State} {src : Src} {fromSeq : DWord} {advance : Bool} {len : Nat}
    (hal : s.allows (.tracingRead src fromSeq advance false len)) (h0 : len % 128 = 0) (h1 : 128 ≤ len) (hf : fromSeq ≠ 0) :
    ∃ t, exec (.tracingRead src fromSeq advance false len) s = .next t ∧
      .buffer src.sq src.cid ((s.recordsFrom fromSeq.toNat len).flatMap TraceRec.bytes) ∈ (t.view src.mgr).out ∧
      (advance = false → t.trace = s.trace) ∧
      (∀ r, advance = true → (s.recordsFrom fromSeq.toNat len).getLast? = some r → r.seq < 2 ^ 64 →
        max (s.trace.mark.get src.mgr).toNat r.seq = (t.trace.mark.get src.mgr).toNat) := by
  have ht : s.takes src (gateOf (.tracingRead src fromSeq advance false len)) := hal _ _ rfl
  have hf' : fromSeq.toNat ≠ 0 := fun h => hf (BitVec.eq_of_toNat_eq h)
  obtain ⟨a, he, hd⟩ := State.readTrace_whole (s := s) (m := src.mgr) advance h0 h1 hf'
  have hex : exec (.tracingRead src fromSeq advance false len) s =
      .next (((s.markRead src.mgr advance (((s.recordsFrom fromSeq.toNat len).getLast?.map fun r => r.seq).getD 0)).deliver src a).noteCommit
        s src) := by
    refine congrArg Host.Outcome.next ((State.ovdel_takes _ ht).trans ?_)
    rw [he]
  have hm := s.markRead_frame src.mgr advance (((s.recordsFrom fromSeq.toNat len).getLast?.map fun r => r.seq).getD 0)
  have htr := State.answered_frame s
    (s.markRead src.mgr advance (((s.recordsFrom fromSeq.toNat len).getLast?.map fun r => r.seq).getD 0)) src a .trace (by decide)
  refine ⟨_, hex, ?_, fun hv => ?_, fun r hv hr hs => ?_⟩
  · rw [State.view, State.noteCommit_views]
    refine State.deliver_buffer hd ?_
    exact (congrArg (fun v : PerMgr View => (v.get src.mgr).linkUp && (v.get src.mgr).cfg.master) (hm .views (by decide))).trans
      (ht.2.2 rfl)
  · refine htr.trans ?_
    rw [hv]
    rfl
  · rw [hv, hr] at htr
    rw [hv, hr]
    refine (s.markRead_mark src.mgr hs).symm.trans ?_
    exact (congrArg (fun t : Tracing => (t.mark.get src.mgr).toNat) htr).symm

end Sys2Proof.Machine
end


section
/-! SUPPORT. Manager extensions, Ovdel over MCTP and the observer ports (R176, R185, R189, R236). -/

namespace Sys2Proof.Machine

open Sys2Proof

/-! ## Extensions (R176) -/

/-- The bytes of ATT_EXT_DATA. -/
def AttView.extBytes (x : AttView) : Digest :=
  Vector.ofFn fun j : Fin 48 => BitVec.ofNat 8 (((x.extData.toList.getD (j.1 / 4) 0).toNat) >>> (8 * (j.1 % 4)))

theorem State.extResult_att (s : State) (m : Mgr) (st : Status) :
    ((s.extResult m st).att.views.get m).extDone = true ∧ ((s.extResult m st).att.views.get m).extStatus = st ∧
      (s.extResult m st).mbx = s.mbx := by
  unfold State.extResult State.modAttView
  dsimp only
  rw [PerMgr.get_set_self]
  exact ⟨rfl, rfl, rfl⟩

theorem State.extend_meas (s : State) (n : Fin 128) (i : Fin 8) (type : Nat) (info : List Nat) (v : Digest) :
    ((s.extend n i type info v).mb n).meas = vmod (s.mb n).meas i fun d => Config.sha384 (d.toList ++ v.toList) := by
  have h := State.logMeas_frame (type := type) (ch := n.1) (i := i.1) (info := info) (v := v) (Frame.refl [.trace] (s.modMbx n fun b =>
    { b with meas := vmod b.meas i fun d => Config.sha384 (d.toList ++ v.toList) })) (Field.sub_refl _) .mbx (by decide)
  refine (congrArg (fun b : Vector Mailbox 128 => (vget b n).meas) h).trans ?_
  exact congrArg Mailbox.meas (vget_vmod_self _ _ _)

/-- What a write of ATT_EXT_CTRL with GO does to the register that it names. -/
theorem State.attExt_go {s : State} {m : Mgr} {v : Word} {n : Fin 128} {i : Fin 8} (released : List Nat) (hr : s.reaches m 0x00E0F0)
    (hg : v.getLsbD 31 = true) (hn : field v.toNat 6 0 = n.1) (hi : 4 + field v.toNat 9 8 = i.1) :
    s.attExt m v released =
      if !(s.ch n).released || released.contains n.1 then s.extResult m stNotPermitted
      else if (s.att.views.get m).extRelt ≠ 0 && (s.att.views.get m).extRelt.toNat ≠ (s.ch n).relT % 2 ^ 32 then s.extResult m stSuperseded
      else (s.extend n i 0x0040 [mgrNum m] (s.att.views.get m).extBytes).extResult m stSuccess := by
  unfold State.attExt
  rw [State.regW_reaches hr, hg, hn, hi, fin?_val, fin?_val]
  rfl

theorem AttView.extBytes_get (x : AttView) {k : Nat} (hk : k < 48) :
    x.extBytes.toList[k]? = some (BitVec.ofNat 8 ((x.extData.toList.getD (k / 4) 0).toNat >>> (8 * (k % 4)))) := by
  unfold AttView.extBytes
  rw [Vector.toList_ofFn, List.getElem?_ofFn, dif_pos hk]

/-- GO of an extension: granted, refused or superseded (R176). -/
theorem exec_attExtGo {s : State} {m : Mgr} {v : Word} {n : Fin 128} {i : Fin 8} {released : List Nat} (hr : s.reaches m 0x00E0F0)
    (hg : v.getLsbD 31 = true) (hn : field v.toNat 6 0 = n.1) (hi : 4 + field v.toNat 9 8 = i.1) :
    ∃ t, exec (.attExtGo m ⟨v, none, released⟩) s = .next t ∧ (t.att.views.get m).extDone = true ∧
      (let x := s.att.views.get m
       if (s.ch n).released = true ∧ n.1 ∉ released ∧ (x.extRelt = 0 ∨ x.extRelt.toNat = (s.ch n).relT % 2 ^ 32) then
         (t.att.views.get m).extStatus = stSuccess ∧ (∀ j, j ≠ i → vget (t.mb n).meas j = vget (s.mb n).meas j) ∧
         ∃ d : List Byte, d.length = 48 ∧ vget (t.mb n).meas i = Config.sha384 ((vget (s.mb n).meas i).toList ++ d) ∧
           ∀ k, k < 48 → d[k]? = some (BitVec.ofNat 8 ((x.extData.toList.getD (k / 4) 0).toNat >>> (8 * (k % 4))))
       else (t.att.views.get m).extStatus = (if (s.ch n).released = true ∧ n.1 ∉ released then stSuperseded else stNotPermitted) ∧
         t.mbx = s.mbx) := by
  refine ⟨_, congrArg Host.Outcome.next (State.attExt_go released hr hg hn hi), ?_⟩
  dsimp only
  by_cases h1 : (s.ch n).released = true ∧ n.1 ∉ released
  · obtain ⟨h1r, h1n⟩ := h1
    rw [if_neg (show ¬ (!(s.ch n).released || released.contains n.1) = true by simp [h1r, h1n])]
    by_cases h2 : (s.att.views.get m).extRelt = 0 ∨ (s.att.views.get m).extRelt.toNat = (s.ch n).relT % 2 ^ 32
    · rw [if_neg (show ¬ ((s.att.views.get m).extRelt ≠ 0 && (s.att.views.get m).extRelt.toNat ≠ (s.ch n).relT % 2 ^ 32) = true by
        simpa [Classical.or_iff_not_imp_left] using h2), if_pos ⟨h1r, h1n, h2⟩]
      obtain ⟨hd, hs, hm⟩ := (s.extend n i 0x0040 [mgrNum m] (s.att.views.get m).extBytes).extResult_att m stSuccess
      have hmeas := (congrArg (fun b : Vector Mailbox 128 => (vget b n).meas) hm).trans
        (s.extend_meas n i 0x0040 [mgrNum m] (s.att.views.get m).extBytes)
      refine ⟨hd, hs, fun j hj => ?_, (s.att.views.get m).extBytes.toList, Vector.length_toList, ?_, fun k hk => AttView.extBytes_get _ hk⟩
      · exact (congrArg (vget · j) hmeas).trans (vget_vmod_ne _ _ hj)
      · exact (congrArg (vget · i) hmeas).trans (vget_vmod_self _ _ _)
    · rw [if_pos (show ((s.att.views.get m).extRelt ≠ 0 && (s.att.views.get m).extRelt.toNat ≠ (s.ch n).relT % 2 ^ 32) = true by
        simpa [not_or] using h2), if_neg (fun h => h2 h.2.2), if_pos ⟨h1r, h1n⟩]
      exact s.extResult_att m stSuperseded
  · rw [if_pos (show (!(s.ch n).released || released.contains n.1) = true by
        simpa [Classical.or_iff_not_imp_left] using h1), if_neg (fun h => h1 ⟨h.1, h.2.1⟩), if_neg h1]
    exact s.extResult_att m stNotPermitted

/-! ## The wall clock and the writer -/

theorem exec_attWallWrite {s : State} {m : Mgr} {hi : Word} (hr : s.reaches m 0x00E06C) :
    ∃ t, exec (.attWallWrite m hi none) s = .next t ∧
      t.att.wall = hi ++ (SMap.get? (s.view m).held 0x00E068).getD (s.att.wall.truncate 32) := by
  have hw : (match m, (none : Option Word) with
      | .b, some r => (Mgr.a, r)
      | _, _ => (m, hi)) = (m, hi) := by cases m <;> rfl
  refine ⟨_, congrArg Host.Outcome.next (State.regW_reaches hr), ?_⟩
  dsimp only
  refine (congrArg Attest.wall (State.log_frame (Frame.refl [.trace] _) (Field.sub_refl _) .att (by decide))).trans ?_
  cases m
  · rfl
  · rfl

theorem exec_traceRecordWrite {s : State} {e : TraceEvt} {q : List TraceEvt} (hw : s.mayWrite = true) (hq : s.trace.queue = e :: q) :
    ∃ t r, exec .traceRecordWrite s = .next t ∧ r.evt = e ∧ r.seq = s.traceNewest + 1 ∧ t.traceNewest = r.seq ∧ r ∈ t.trace.ring ∧
      t.traceHdr.run = chain s.traceHdr.run r ∧ (s.trace.lost = 0 → t.trace.queue = q) := by
  obtain ⟨r, he, hs, hn, hm, hc, hz, -⟩ := State.writeRecord_wrote hq
  exact ⟨_, r, congrArg Host.Outcome.next (if_pos hw), he, hs, hn, hm, hc, fun h0 => (hz h0).1⟩

/-! ## Ovdel over MCTP (R236) -/

/-- The established session that carries a message of session 0, as the model looks it up. -/
def State.mctpInside (s : State) (ep : Fin 8) : Bool := match (s.ep ep).session? 0 with
  | some t => t.established
  | none => false

/-- The state in which a request over MCTP is answered. -/
def State.mctpHeard (s : State) (ep : Fin 8) : State :=
  if (s.spdmHeard ep).mctpInside ep then (s.spdmHeard ep).modEp ep fun x => x.touch 0 (s.spdmHeard ep).now else s.spdmHeard ep

theorem State.mctpHeard_spoken (s : State) (ep : Fin 8) :
    Spoken s (s.mctpHeard ep) ∧ ((s.mctpHeard ep).ep ep).answers = (s.ep ep).answers ∧ ((s.mctpHeard ep).ep ep).ovdel = (s.ep ep).ovdel := by
  unfold State.mctpHeard
  split
  · refine ⟨(s.spdmHeard_spoken ep).1.modEp ep _, ?_, ?_⟩
    · rw [State.modEp_ep, s.spdmHeard_ep]
      rfl
    · rw [State.modEp_ep, s.spdmHeard_ep]
      rfl
  · exact ⟨(s.spdmHeard_spoken ep).1, congrArg Endpoint.answers (s.spdmHeard_ep ep ep), congrArg Endpoint.ovdel (s.spdmHeard_ep ep ep)⟩

theorem State.mctpHeard_gate (s : State) (ep : Fin 8) (opc : Nat) : (s.mctpHeard ep).mctpGate ep opc = s.mctpGate ep opc := by
  obtain ⟨⟨v, w, x, hx⟩, -, ho⟩ := s.mctpHeard_spoken ep
  unfold State.mctpGate
  rw [ho, hx]

/-- No function's endpoint counts a refusal of an I3C port. -/
theorem State.i3cRefused_function {s : State} {ep : Fin 8} (h : ep.1 < 4) : s.i3cRefused ep = s := by
  unfold State.i3cRefused
  split
  · exact if_neg (by omega)
  · rfl

/-- A request on a function's endpoint, outside a session. -/
theorem exec_mctp {s : State} {ep : Fin 8} {units : List Byte} (hu : s.mctpUp ep (entryOf units).opc = true) (h4 : ep.1 < 4) :
    exec (.mctpOvdelRequest ep units 0) s = .next (match s.mctpGate ep (entryOf units).opc with
      | some st => (s.mctpHeard ep).mctpAnswer ep (entryOf units).cid (ans st)
      | none => (s.mctpHeard ep).mctpExecute ep (entryOf units)) := by
  rw [← s.mctpHeard_gate]
  have he : exec (.mctpOvdelRequest ep units 0) s = .next (match (s.mctpHeard ep).mctpGate ep (entryOf units).opc with
      | some st => (if mctpAccepts ep (entryOf units).opc then s.mctpHeard ep else (s.mctpHeard ep).i3cRefused ep).mctpAnswer ep
          (entryOf units).cid (ans st)
      | none => (s.mctpHeard ep).mctpExecute ep (entryOf units)) := by
    refine congrArg Host.Outcome.next ((if_neg (by rw [hu]; decide)).trans (if_neg ?_))
    have h4' : decide (4 ≤ ep.1) = false := decide_eq_false (by omega)
    rw [h4']
    simp
  rw [he]
  split
  · rw [State.i3cRefused_function h4, ite_self]
  · rfl

/-- The answer on an endpoint joins those sent. -/
theorem State.mctpAnswer_answers (s : State) (ep : Fin 8) (cid : Half) (a : Answer) (h : a.data = none) :
    ((s.mctpAnswer ep cid a).ep ep).answers = (s.ep ep).answers ++
      [{ cid := cid, status := a.st, more := a.more, info := BitVec.ofNat 32 a.info, result := res16 a.result, data := [] }] := by
  unfold State.mctpAnswer State.mctpReply Answer.toReply
  rw [h, State.modEp_ep]
  simp

theorem exec_mctp_refused {s : State} {ep : Fin 8} {units : List Byte} {st : Status} (hu : s.mctpUp ep (entryOf units).opc = true)
    (h4 : ep.1 < 4) (hg : s.mctpGate ep (entryOf units).opc = some st) :
    ∃ t, exec (.mctpOvdelRequest ep units 0) s = .next t ∧ (t.ep ep).answers = (s.ep ep).answers ++
      [{ cid := (entryOf units).cid, status := st, more := false, info := 0, result := res16 [], data := [] }] := by
  have he := exec_mctp hu h4
  rw [hg] at he
  refine ⟨_, he, ?_⟩
  rw [State.mctpAnswer_answers _ _ _ _ rfl, (s.mctpHeard_spoken ep).2.1]
  rfl

theorem Spoken.chStatus {s t : State} (h : Spoken s t) (k : Fin 128) : t.chStatus k = s.chStatus k := by
  obtain ⟨v, w, x, rfl⟩ := h
  rfl

/-- CH_STATUS over MCTP. -/
theorem exec_mctp_chStatus {s : State} {ep : Fin 8} {units : List Byte} {k : Fin 128} (hu : s.mctpUp ep (entryOf units).opc = true)
    (h4 : ep.1 < 4) (hg : s.mctpGate ep (entryOf units).opc = none) (ho : (entryOf units).opc = 0x0102)
    (hk : s.selChan (entryOf units).ch = some k) : ∃ t, exec (.mctpOvdelRequest ep units 0) s = .next t ∧
      (t.ep ep).answers = (s.ep ep).answers ++
        [{ cid := (entryOf units).cid, status := stSuccess, more := false, info := 0, result := res16 (s.chStatus k), data := [] }] := by
  have he := exec_mctp hu h4
  rw [hg] at he
  obtain ⟨hsp, ha, -⟩ := s.mctpHeard_spoken ep
  have hx : (s.mctpHeard ep).mctpExecute ep (entryOf units) =
      (s.mctpHeard ep).mctpAnswer ep (entryOf units).cid (okAns (s.chStatus k)) := by
    have hk' : (s.mctpHeard ep).selChan (entryOf units).ch = some k := by
      obtain ⟨v, w, x, hx⟩ := hsp
      rw [hx]
      exact hk
    rw [← hsp.chStatus]
    unfold State.mctpExecute
    rw [ho]
    exact congrArg (fun o : Option (Fin 128) => match o with
      | some n => (s.mctpHeard ep).mctpAnswer ep (entryOf units).cid (okAns ((s.mctpHeard ep).chStatus n))
      | none => (s.mctpHeard ep).mctpAnswer ep (entryOf units).cid (ans stInvalidField 6)) hk'
  refine ⟨_, he, ?_⟩
  dsimp only
  rw [hx, State.mctpAnswer_answers _ _ _ _ rfl, ha]
  rfl

/-! ## The observer ports (R185, R189) -/

/-- SETDASA takes the static address of the configuration, and a dynamic one where the port is enabled. -/
theorem exec_setdasa {s : State} (hu : s.portsUp = true) (p : Fin 4) (addr : BitVec 7) :
    ∃ t, exec (.setdasa p addr) s = .next t ∧ Frame [.i3c] s t ∧ (vget t.i3c p).saEn = bit (s.dcfg.i3c.getD p.1 0) 7 ∧
      ((vget t.i3c p).saEn = true → (vget t.i3c p).dynAddr = addr ∧ (vget t.i3c p).daValid = true) := by
  refine ⟨_, congrArg Host.Outcome.next (if_neg (by rw [hu]; decide)), ?_, ?_⟩
  · exact State.modI3c_frame (Frame.refl _ s) (by decide)
  · unfold State.modI3c
    rw [vget_vmod_self]
    dsimp only
    split
    · exact ⟨rfl, fun _ => ⟨rfl, rfl⟩⟩
    · next h => exact ⟨rfl, fun hs => absurd hs h⟩

theorem exec_setEndpointId {s : State} {m : Mgr} {eid : Byte} (hu : s.portsUp = true) (hm : s.mgrOn m = true) (h0 : eid ≠ 0)
    (hf : eid ≠ 0xFF) : exec (.setEndpointId m eid) s =
      .next (s.modView m fun v => { v with eid := eid, eidValid := true, msgs := v.msgs + 1 }) :=
  congrArg Host.Outcome.next (if_pos (by rw [hu, hm]; simpa using ⟨h0, hf⟩))

/-- Before START the ports hear nothing. -/
theorem exec_portsDown {s : State} (hu : s.portsUp = false) (p : Fin 4) (addr : BitVec 7) (on : Bool) (m : Mgr) (eid : Byte) :
    ∀ c ∈ [Instr.entdaa p addr, .setdasa p addr, .ibiEnable p on, .i3cTargetError p on, .setEndpointId m eid], exec c s = .next s := by
  intro c hc
  simp only [List.mem_cons, List.not_mem_nil, or_false] at hc
  obtain rfl | rfl | rfl | rfl | rfl := hc
  · exact congrArg Host.Outcome.next (if_neg (by rw [hu]; decide))
  · exact congrArg Host.Outcome.next (if_pos (by rw [hu]; rfl))
  · exact congrArg Host.Outcome.next (if_neg (by rw [hu]; decide))
  · exact congrArg Host.Outcome.next (if_pos (by rw [hu]; rfl))
  · exact congrArg Host.Outcome.next (if_neg (by rw [hu]; simp))

end Sys2Proof.Machine

namespace Sys2Proof

open Sys2Proof.Machine

/-- Settles O48, register by register and command by command. -/
theorem measurementsTracingAndObserversDoTheirPart : Obligations.MeasurementsTracingAndObserversDoTheirPart := by
  unfold Obligations.MeasurementsTracingAndObserversDoTheirPart
  intro s m v hi n i src nonce len fromSeq advance on ep units p addr eid released
  refine ⟨fun hr hg hn hi => exec_attExtGo hr hg hn hi, rfl, fun hr => exec_attWallWrite hr,
    fun e q hw hq => exec_traceRecordWrite hw hq, fun hal hl ha hi hq => exec_quote hal hl ha hi hq,
    fun hal h0 h1 hf => exec_tracingRead hal h0 h1 hf, fun hu h4 => ⟨fun st hg => exec_mctp_refused hu h4 hg,
      fun k hg ho hk => exec_mctp_chStatus hu h4 hg ho hk⟩, fun hu => ⟨?_, exec_setdasa hu p addr, ?_, ?_, ?_,
      fun hm h0 hf => exec_setEndpointId hu hm h0 hf⟩, fun hu => exec_portsDown hu p addr on m eid⟩
  · exact congrArg Host.Outcome.next (if_pos hu)
  · exact congrArg Host.Outcome.next (if_pos hu)
  · exact congrArg Host.Outcome.next (if_neg (by rw [hu]; decide))
  · exact congrArg Host.Outcome.next (if_neg (by rw [hu]; decide))

end Sys2Proof
end


section
/-! SUPPORT. The halves of the ring engine (R209, R210, R243). -/

namespace Sys2Proof.Machine

open Sys2Proof

/-! ## What ends commands -/

/-- R composes, is kept by completions, by events and where waiters are dropped, and holds where no ring, no view and no waiter changes. -/
structure Closes (R : State → State → Prop) : Prop where
  refl : ∀ s, R s s
  comp : ∀ {s t u}, R s t → R t u → R s u
  of_frame : ∀ {fs : List Field} {s t : State}, Frame fs s t → (∀ f ∈ [Field.rings, .views, .awaits], f ∉ fs) → R s t
  finish : ∀ s src st info result more, R s (s.finish src st info result more)
  raise : ∀ s code ch data, R s (s.raise code ch data)
  drop : ∀ (s : State) p, R s { s with awaits := s.awaits.filter p }

theorem related_ite {R : State → State → Prop} {c : Prop} [Decidable c] {s t u : State} (ht : R s t) (hu : R s u) :
    R s (if c then t else u) := by
  split
  · exact ht
  · exact hu

section

variable {R : State → State → Prop} (hC : Closes R) {s₀ s : State}

include hC

theorem Closes.step {fs : List Field} {t : State} (h : R s₀ s) (hf : Frame fs s t)
    (hs : ∀ f ∈ [Field.rings, .views, .awaits], f ∉ fs) : R s₀ t := hC.comp h (hC.of_frame hf hs)

theorem Closes.forAll {α : Type} {g : α → State → State} {l : List α} (h : R s₀ s) (hg : ∀ x s, R s (g x s)) : R s₀ (s.forAll l g) := by
  unfold State.forAll
  induction l generalizing s with
  | nil => exact h
  | cons x l ih => exact ih (hC.comp h (hg x s))

theorem Closes.modCore {k : Fin 4} {f : Core → Core} (h : R s₀ s) : R s₀ (s.modCore k f) :=
  hC.step h (State.modCore_frame (Frame.refl _ s) (Field.sub_refl _)) (by decide)

theorem Closes.loadJob {k : Fin 4} {j : BurinJob} (h : R s₀ s) : R s₀ (s.loadJob k j) :=
  hC.step h (State.loadJob_frame (Frame.refl _ s) (Field.sub_refl _)) (by decide)

theorem Closes.modSlot {i : Fin 256} {f : KeySlot → KeySlot} (h : R s₀ s) : R s₀ (s.modSlot i f) :=
  hC.step h (State.modSlot_frame (Frame.refl _ s) (Field.sub_refl _)) (by decide)

theorem Closes.put_burin {b : Burin} (h : R s₀ s) : R s₀ { s with burin := b } :=
  hC.step h (Frame.put_burin (Frame.refl [.burin] s) (by decide)) (by decide)

theorem Closes.finishJob {j : BurinJob} {st : Status} {info : Nat} {result : List Byte} (h : R s₀ s) : R s₀ (s.finishJob j st info result) := by
  unfold State.finishJob
  split
  · exact hC.comp h (hC.finish _ _ _ _ _ _)
  · exact h
  · exact h

theorem Closes.abortCore {k : Fin 4} {wipe : Bool} (h : R s₀ s) : R s₀ (s.abortCore k wipe) :=
  hC.forAll (hC.modCore h) fun _ _ => hC.finishJob (hC.refl _)

theorem Closes.coreOut {k : Fin 4} {reason : Nat} {test : Bool} (h : R s₀ s) : R s₀ (s.coreOut k reason test) :=
  hC.comp (hC.modCore (hC.abortCore h)) (hC.raise _ _ _ _)

theorem Closes.takeCore {k : Fin 4} {j : BurinJob} (h : R s₀ s) : R s₀ (s.takeCore k j) := by
  unfold State.takeCore
  have hw := hC.put_burin (b := { s.burin with waiting := s.burin.waiting.filter fun x => x.id ≠ j.id }) h
  dsimp only
  split
  · split
    · split
      · split
        · exact hC.loadJob (hC.modSlot hw)
        · exact hC.finishJob hw
      · exact hC.finishJob hw
    · exact hC.finishJob hw
  · exact hC.loadJob hw

theorem Closes.allocate (h : R s₀ s) : R s₀ s.allocate := by
  unfold State.allocate
  dsimp only
  split
  · split
    · exact hC.loadJob (hC.modCore h)
    · exact h
  · split
    · split
      · exact hC.takeCore h
      · exact h
    · exact h

theorem Closes.allocateN {k : Nat} (h : R s₀ s) : R s₀ (State.allocateN k s) := by
  induction k generalizing s with
  | zero => exact h
  | succ k ih => exact ih (hC.allocate h)

theorem Closes.dispatchJobs (h : R s₀ s) : R s₀ s.dispatchJobs := by
  unfold State.dispatchJobs
  split
  · exact hC.allocateN h
  · exact h

theorem Closes.abortBurin {src : Src} (h : R s₀ s) : R s₀ (s.abortBurin src).1 := by
  unfold State.abortBurin
  dsimp only
  split
  · exact hC.put_burin h
  · split
    · exact h
    · exact hC.dispatchJobs (related_ite (hC.coreOut (hC.modCore h)) (hC.modCore h))

theorem Closes.abortHash {src : Src} (h : R s₀ s) : R s₀ (s.abortHash src).1 :=
  hC.step h (State.abortHash_frame (Frame.refl _ s) (Field.sub_refl _)) (by decide)

theorem Closes.answer {who : Asker} {n : Fin 128} {st : Status} {info : Nat} {result : List Byte} (h : R s₀ s) :
    R s₀ (s.answer who n st info result) := by
  unfold State.answer
  split
  · exact hC.comp h (hC.finish _ _ _ _ _ _)
  · exact hC.step h (State.mctpReply_frame (Frame.refl _ s) (Field.sub_refl _)) (by decide)
  · exact hC.step h (State.modCtl_frame (Frame.refl _ s) (Field.sub_refl _)) (by decide)

theorem Closes.answerAll {n : Fin 128} {k : AwaitKind → Bool} {st : Status} {info : Nat} {result : List Byte} (h : R s₀ s) :
    R s₀ (s.answerAll n k st info result) :=
  hC.forAll (hC.comp h (hC.drop s _)) fun _ _ => hC.answer (hC.refl _)

theorem Closes.endArming {n : Fin 128} {st : Status} (h : R s₀ s) : R s₀ (s.endArming n st) := by
  unfold State.endArming
  refine hC.answerAll ?_
  split
  · exact hC.step (hC.step h (State.modPlt_frame (Frame.refl _ s) (Field.sub_refl _)) (by decide))
      (State.modCtl_frame (Frame.refl _ _) (Field.sub_refl _)) (by decide)
  · exact h

/-- A command is stopped (R233). Where it is a DELETE_SQ, its queue stays in place, which R has to allow. -/
theorem Closes.stopCommand {src : Src} {info : Nat} (hU : ∀ w ∈ s.awaits, w.who = .cmd src → ∀ q, w.kind = .delSq q → ∀ u : State,
    R u (u.modRing src.mgr fun r => { r with sqs := r.sqs.map fun e => if e.1 = q then (e.1, { e.2 with deleting := false }) else e }))
    (h : R s₀ s) : R s₀ (s.stopCommand src info).1 := by
  unfold State.stopCommand
  dsimp only
  split
  · exact hC.comp (hC.abortBurin h) (hC.finish _ _ _ _ _ _)
  · split
    · exact hC.comp (hC.abortHash h) (hC.finish _ _ _ _ _ _)
    · split
      · split
        · split
          · exact hC.comp h (hC.finish _ _ _ _ _ _)
          · split
            · refine hC.comp (hC.step h (Frame.put_otp (Frame.refl [.otp] s) (by decide)) (by decide)) (hC.finish _ _ _ _ _ _)
            · exact h
        · exact hC.comp h (hC.finish _ _ _ _ _ _)
      · next w hw =>
        split
        · next q hk =>
          have hm := List.mem_of_find?_eq_some hw
          have hwho : w.who = .cmd src := by simpa using List.find?_some hw
          refine hC.comp ?_ (hC.finish _ _ _ _ _ _)
          exact hC.comp (hC.comp h (hC.drop s _)) (hU w hm hwho q hk _)
        · rw [apply_ite Prod.fst]
          exact related_ite h (hC.endArming h)
        · exact h

end

/-! ## A half that is disabled stays empty -/

/-- A half that is disabled: no queue, the version of the reset. -/
def Ring.Idle (r : Ring) : Prop := r.en = false ∧ r.rdy = false ∧ r.version = 0x0103 ∧ r.sqs = [] ∧ r.cqs = []

/-- From s to t a half that is disabled stays so. -/
def Drained (s t : State) : Prop := ∀ m, (s.ring m).Idle → (t.ring m).Idle

theorem Drained.refl (s : State) : Drained s s := fun _ h => h

theorem Drained.comp {s t u : State} (h : Drained s t) (k : Drained t u) : Drained s u := fun m hm => k m (h m hm)

theorem Drained.of_rings {s t : State} (h : t.rings = s.rings) : Drained s t := fun m hm =>
  (congrArg (fun r : PerMgr Ring => (r.get m).Idle) h).mpr hm

theorem Drained.of_frame {fs : List Field} {s t : State} (h : Frame fs s t) (hf : Field.rings ∉ fs) : Drained s t :=
  .of_rings (h .rings hf)

theorem Drained.respects : Respects .rings Drained where
  refl := Drained.refl
  comp := Drained.comp
  of_frame := Drained.of_frame

theorem State.ring_modRing (s : State) (m : Mgr) (f : Ring → Ring) (k : Mgr) :
    (s.modRing m f).ring k = if k = m then f (s.ring k) else s.ring k := by
  cases m <;> cases k <;> rfl

/-- From s to t a half that is disabled stays so, but perhaps that of manager m. -/
def DrainedBut (m : Mgr) (s t : State) : Prop := ∀ k, k ≠ m → (s.ring k).Idle → (t.ring k).Idle

theorem DrainedBut.of_rings {m : Mgr} {s t : State} (h : t.rings = s.rings) : DrainedBut m s t := fun k _ => Drained.of_rings h k

theorem DrainedBut.comp {m : Mgr} {s t u : State} (h : DrainedBut m s t) (k : DrainedBut m t u) : DrainedBut m s u :=
  fun i hi hm => k i hi (h i hi hm)

theorem DrainedBut.modRing {m : Mgr} {s t : State} (h : DrainedBut m s t) (f : Ring → Ring) : DrainedBut m s (t.modRing m f) :=
  h.comp fun k hk hm => by
    rw [State.ring_modRing, if_neg hk]
    exact hm

/-- Where the half of manager m is not disabled, nothing is said of it. -/
theorem DrainedBut.drained {m : Mgr} {s t : State} (h : DrainedBut m s t) (hm : ¬ (s.ring m).Idle) : Drained s t := fun k hk =>
  h k (fun he => hm (he ▸ hk)) hk

theorem raiseAt_idle (now : Nat) (e : Event) {r : Ring} (h : r.Idle) : (raiseAt now e r).Idle := by
  unfold raiseAt
  split
  · exact h
  · split
    · exact h
    · split
      · exact h
      · exact h

theorem State.raise_drained {s₀ s : State} {code ch : Nat} {data : List Nat} (h : Drained s₀ s) : Drained s₀ (s.raise code ch data) :=
  h.comp fun m hm => by
    cases m
    · exact raiseAt_idle _ _ hm
    · exact raiseAt_idle _ _ hm

theorem Ring.not_idle_of_sq {r : Ring} {q : Nat} {x : Sq} (h : SMap.get? r.sqs q = some x) : ¬ r.Idle := fun hi => by
  rw [hi.2.2.2.1] at h
  cases h

theorem DrainedBut.ringDmaFailed {m : Mgr} {s t : State} (h : DrainedBut m s t) (kind : BitVec 3) (addr : DWord) :
    DrainedBut m s (t.ringDmaFailed m kind addr) := DrainedBut.modRing (t := t.dmaFailed m kind addr) (h.comp (.of_rings rfl)) _

theorem DrainedBut.queueFault {m : Mgr} {s t : State} (h : DrainedBut m s t) (q : Byte) (sq : Bool) :
    DrainedBut m s (t.queueFault m q sq) :=
  (h.modRing _).comp fun k _ hk => State.raise_drained (Drained.refl _) k hk

theorem DrainedBut.modView {m : Mgr} {s t : State} (h : DrainedBut m s t) (k : Mgr) (f : View → View) : DrainedBut m s (t.modView k f) :=
  h.comp (.of_rings rfl)

theorem Drained.put_awaits {s t : State} (h : Drained s t) (w : List Await) : Drained s { t with awaits := w } :=
  h.comp (.of_rings rfl)

/-- A completion is posted in a half that has its queue (R217). -/
theorem State.post_drained {s₀ s : State} {src : Src} {st : Status} {info : Nat} {result : List Byte} {more : Bool} (h : Drained s₀ s) :
    Drained s₀ (s.post src st info result more) := by
  refine h.comp ?_
  unfold State.post
  dsimp only
  split
  · exact Drained.refl s
  · next q hq =>
    refine DrainedBut.drained (m := src.mgr) ?_ (Ring.not_idle_of_sq hq)
    have h0 : DrainedBut src.mgr s s := .of_rings rfl
    split
    · exact h0.modRing _
    · split
      · exact h0.modRing _
      · split
        · exact (h0.modRing _).modView _ _
        · exact ((h0.modRing _).ringDmaFailed _ _).queueFault _ _

theorem State.reapSq_drained {s₀ s : State} {m : Mgr} {qid : Nat} (h : Drained s₀ s) : Drained s₀ (s.reapSq m qid) := by
  refine h.comp ?_
  unfold State.reapSq
  dsimp only
  split
  · next q hq =>
    split
    · have h0 : ∀ f, Drained s (s.modRing m f) := fun f =>
        DrainedBut.drained ((DrainedBut.of_rings rfl).modRing f) (Ring.not_idle_of_sq hq)
      split
      · split
        · refine State.post_drained ?_
          exact (h0 _).put_awaits _
        · exact (h0 _).put_awaits _
        · exact (h0 _).put_awaits _
      · exact h0 _
    · exact Drained.refl s
  · exact Drained.refl s

theorem State.finish_drained {s₀ s : State} {src : Src} {st : Status} {info : Nat} {result : List Byte} {more : Bool} (h : Drained s₀ s) :
    Drained s₀ (s.finish src st info result more) := by
  refine State.reapSq_drained (State.post_drained ?_)
  exact h.comp (.of_rings rfl)

theorem Drained.closes : Closes Drained where
  refl := Drained.refl
  comp := Drained.comp
  of_frame := fun h hf => .of_frame h (hf .rings (by decide))
  finish := fun _ _ _ _ _ _ => State.finish_drained (Drained.refl _)
  raise := fun _ _ _ _ => State.raise_drained (Drained.refl _)
  drop := fun s _ => (Drained.refl s).put_awaits _

/-! ## Claims stay -/

/-- From s to t no staging and no claim changes. -/
def ClaimsKept (s t : State) : Prop := ∀ n, (t.pl n).staging = (s.pl n).staging

theorem ClaimsKept.respects : Respects .plt ClaimsKept where
  refl := fun _ _ => rfl
  comp := fun h k n => (k n).trans (h n)
  of_frame := fun h hf n => congrArg (fun v : Vector PlateSt 128 => (vget v n).staging) (h .plt hf)

theorem State.endArming_claims (s : State) (n : Fin 128) (st : Status) : ClaimsKept s (s.endArming n st) := by
  unfold State.endArming
  refine ClaimsKept.respects.comp ?_ (ClaimsKept.respects.of_frame (State.answerAll_frame (Frame.refl _ _) (Field.sub_refl _)) (by decide))
  split
  · intro k
    refine (congrArg PlateSt.staging (?_ : _ = (s.modPlt n fun x => { x with arming := none }).pl k)).trans ?_
    · rfl
    · unfold State.modPlt State.pl
      by_cases hk : k = n
      · subst hk
        rw [vget_vmod_self]
      · rw [vget_vmod_ne _ _ hk]
  · exact ClaimsKept.respects.refl s

/-! ## Disabling a half -/

/-- The command of src is aborted in Burin and in the hash farm. -/
def State.jobsStopped (src : Src) (s : State) : State := ((s.abortBurin src).1.abortHash src).1

theorem State.jobsStopped_drained (src : Src) (s : State) : Drained s (s.jobsStopped src) :=
  (Drained.closes.abortBurin (Drained.refl s)).comp
    (Drained.of_frame (State.abortHash_frame (Frame.refl _ _) (Field.sub_refl _)) (by decide))

theorem State.jobsStopped_claims (src : Src) (s : State) : ClaimsKept s (s.jobsStopped src) :=
  ClaimsKept.respects.of_frame (State.abortHash_frame (State.abortBurin_frame (Frame.refl [.rings, .views, .awaits, .burin, .keys, .dev, .hash] s)
    (by decide)) (by decide)) (by decide)

/-- An arming that has not begun its work is ended with the half. -/
def State.armingStopped (n : Fin 128) (s : State) : State :=
  match (s.pl n).arming with
  | some x => if x.live || x.committed then s else s.endArming n stAborted
  | none => s

theorem State.armingStopped_drained (n : Fin 128) (s : State) : Drained s (s.armingStopped n) := by
  unfold State.armingStopped
  split
  · split
    · exact Drained.refl s
    · exact Drained.closes.endArming (Drained.refl s)
  · exact Drained.refl s

theorem State.armingStopped_claims (n : Fin 128) (s : State) : ClaimsKept s (s.armingStopped n) := by
  unfold State.armingStopped
  split
  · split
    · exact ClaimsKept.respects.refl s
    · exact s.endArming_claims n _
  · exact ClaimsKept.respects.refl s

/-- The half as EN = 0 leaves it, before its commands are stopped. -/
def State.halfOff (s : State) (m : Mgr) : State := { s.modRing m Ring.disable with dev := { s.dev with idleSince := s.now } }

theorem State.disableHalf_eq (s : State) (m : Mgr) : ∃ srcs w stop, s.disableHalf m =
    (State.forAll { (s.halfOff m).forAll srcs State.jobsStopped with awaits := w } stop State.armingStopped).modHash m
      fun h => { h with ctxs := [], jobs := [] } :=
  ⟨_, _, _, rfl⟩

theorem State.halfOff_idle (s : State) (m : Mgr) : ((s.halfOff m).ring m).Idle := by
  cases m
  · exact ⟨rfl, rfl, rfl, rfl, rfl⟩
  · exact ⟨rfl, rfl, rfl, rfl, rfl⟩

/-- What EN = 0 leaves of a half, of its manager's hash work and of the plates' claims (R210). -/
theorem State.disableHalf_parts (s : State) (m : Mgr) :
    ((s.disableHalf m).ring m).Idle ∧ ((s.disableHalf m).hash.get m).jobs = [] ∧ ((s.disableHalf m).hash.get m).ctxs = [] ∧
      ClaimsKept s (s.disableHalf m) := by
  obtain ⟨srcs, w, stop, he⟩ := s.disableHalf_eq m
  have h1 := State.forAll_keeps Drained.respects (l := srcs) (Drained.refl (s.halfOff m)) State.jobsStopped_drained
  have h2 := State.forAll_keeps Drained.respects (l := stop) (h1.put_awaits w) State.armingStopped_drained
  have k1 := State.forAll_keeps ClaimsKept.respects (l := srcs) (ClaimsKept.respects.refl (s.halfOff m)) State.jobsStopped_claims
  have k2 := State.forAll_keeps ClaimsKept.respects (l := stop) (s₀ := s.halfOff m)
    (s := { (s.halfOff m).forAll srcs State.jobsStopped with awaits := w }) k1 State.armingStopped_claims
  rw [he]
  refine ⟨h2 m (s.halfOff_idle m), ?_, ?_, k2⟩
  · unfold State.modHash
    dsimp only
    rw [PerMgr.get_set_self]
  · unfold State.modHash
    dsimp only
    rw [PerMgr.get_set_self]

end Sys2Proof.Machine
end


section
/-! SUPPORT. A completion leaves the link and the registers of its function (R217, R254), and doorbells (R214, R215, R220). -/

namespace Sys2Proof.Machine

open Sys2Proof

/-! ## What a completion leaves of its function -/

/-- The registers of a function, without what it has sent and what it records of a DMA that failed. -/
def View.lasting (v : View) : View :=
  { v with out := [], aer := [], dmaErr := 0, dmaKind := 0, dmaAddr := 0, cfg := { v.cfg with status := 0, aerUncor := 0 } }

/-- From s to t the functions change in nothing but what they have sent and the record of a DMA that failed. -/
def LinksKept (s t : State) : Prop := ∀ m, (t.view m).lasting = (s.view m).lasting

theorem LinksKept.refl (s : State) : LinksKept s s := fun _ => rfl

theorem LinksKept.comp {s t u : State} (h : LinksKept s t) (k : LinksKept t u) : LinksKept s u := fun m => (k m).trans (h m)

theorem LinksKept.of_views {s t : State} (h : t.views = s.views) : LinksKept s t := fun m =>
  congrArg (fun v : PerMgr View => (v.get m).lasting) h

theorem LinksKept.of_frame {fs : List Field} {s t : State} (h : Frame fs s t) (hf : Field.views ∉ fs) : LinksKept s t :=
  .of_views (h .views hf)

theorem LinksKept.respects : Respects .views LinksKept where
  refl := LinksKept.refl
  comp := LinksKept.comp
  of_frame := LinksKept.of_frame

theorem LinksKept.linkUp {s t : State} (h : LinksKept s t) (m : Mgr) : (t.view m).linkUp = (s.view m).linkUp :=
  (congrArg View.linkUp (h m) : (t.view m).lasting.linkUp = (s.view m).lasting.linkUp)

theorem LinksKept.dmaUp {s t : State} (h : LinksKept s t) (m : Mgr) : t.dmaUp m = s.dmaUp m :=
  (congrArg (fun v : View => v.linkUp && v.cfg.master) (h m) :
    ((t.view m).lasting.linkUp && (t.view m).lasting.cfg.master) = ((s.view m).lasting.linkUp && (s.view m).lasting.cfg.master))

theorem LinksKept.msix {s t : State} (h : LinksKept s t) (m : Mgr) : (t.view m).msix = (s.view m).msix :=
  (congrArg View.msix (h m) : (t.view m).lasting.msix = (s.view m).lasting.msix)

theorem LinksKept.modView {s t : State} (h : LinksKept s t) (m : Mgr) {f : View → View} (hf : ∀ v : View, (f v).lasting = v.lasting) :
    LinksKept s (t.modView m f) :=
  h.comp fun k => by
    rw [State.view_modView]
    split
    · exact hf _
    · rfl

theorem LinksKept.modRing {s t : State} (h : LinksKept s t) (m : Mgr) (f : Ring → Ring) : LinksKept s (t.modRing m f) :=
  h.comp (.of_views rfl)

theorem LinksKept.ringDmaFailed {s t : State} (h : LinksKept s t) (m : Mgr) (kind : BitVec 3) (addr : DWord) :
    LinksKept s (t.ringDmaFailed m kind addr) := LinksKept.modRing (t := t.dmaFailed m kind addr) (h.modView m fun _ => rfl) m _

theorem LinksKept.queueFault {s t : State} (h : LinksKept s t) (m : Mgr) (q : Byte) (sq : Bool) : LinksKept s (t.queueFault m q sq) :=
  h.comp (.of_views rfl)

theorem LinksKept.put_awaits {s t : State} (h : LinksKept s t) (w : List Await) : LinksKept s { t with awaits := w } :=
  h.comp (.of_views rfl)

theorem State.post_links {s₀ s : State} {src : Src} {st : Status} {info : Nat} {result : List Byte} {more : Bool} (h : LinksKept s₀ s) :
    LinksKept s₀ (s.post src st info result more) := by
  unfold State.post
  dsimp only
  split
  · exact h
  · split
    · exact h.modRing _ _
    · split
      · exact h.modRing _ _
      · split
        · exact (h.modRing _ _).modView _ fun _ => rfl
        · exact ((h.modRing _ _).ringDmaFailed _ _ _).queueFault _ _ _

theorem State.reapSq_links {s₀ s : State} {m : Mgr} {qid : Nat} (h : LinksKept s₀ s) : LinksKept s₀ (s.reapSq m qid) := by
  unfold State.reapSq
  dsimp only
  split
  · split
    · split
      · split
        · refine State.post_links ?_
          exact (h.modRing _ _).put_awaits _
        · exact (h.modRing _ _).put_awaits _
        · exact (h.modRing _ _).put_awaits _
      · exact h.modRing _ _
    · exact h
  · exact h

theorem State.finish_links {s₀ s : State} {src : Src} {st : Status} {info : Nat} {result : List Byte} {more : Bool} (h : LinksKept s₀ s) :
    LinksKept s₀ (s.finish src st info result more) := by
  refine State.reapSq_links (State.post_links ?_)
  exact h.comp (.of_views rfl)

theorem LinksKept.closes : Closes LinksKept where
  refl := LinksKept.refl
  comp := LinksKept.comp
  of_frame := fun h hf => .of_frame h (hf .views (by decide))
  finish := fun _ _ _ _ _ _ => State.finish_links (LinksKept.refl _)
  raise := fun _ _ _ _ => .of_views rfl
  drop := fun s _ => (LinksKept.refl s).put_awaits _

end Sys2Proof.Machine
end


section
/-! SUPPORT. What EN, a function reset and the doorbells leave (R209, R210, R214, R215, R220, R243). -/

namespace Sys2Proof.Machine

open Sys2Proof

/-! ## EN (R209, R210) -/

theorem State.jobsStopped_links (src : Src) (s : State) : LinksKept s (s.jobsStopped src) :=
  (LinksKept.closes.abortBurin (LinksKept.refl s)).comp
    (LinksKept.of_frame (State.abortHash_frame (Frame.refl _ _) (Field.sub_refl _)) (by decide))

theorem State.armingStopped_links (n : Fin 128) (s : State) : LinksKept s (s.armingStopped n) := by
  unfold State.armingStopped
  split
  · split
    · exact LinksKept.refl s
    · exact LinksKept.closes.endArming (LinksKept.refl s)
  · exact LinksKept.refl s

/-- Disabling a half leaves the links. -/
theorem State.disableHalf_links (s : State) (m : Mgr) : LinksKept s (s.disableHalf m) := by
  obtain ⟨srcs, w, stop, he⟩ := s.disableHalf_eq m
  have h1 := State.forAll_keeps LinksKept.respects (l := srcs) (s₀ := s) (s := s.halfOff m) (LinksKept.of_views rfl) State.jobsStopped_links
  have h2 := State.forAll_keeps LinksKept.respects (l := stop) (h1.put_awaits w) State.armingStopped_links
  rw [he]
  exact h2

theorem State.modRing_own (s : State) (m : Mgr) (f : Ring → Ring) :
    Frame [.rings] s (s.modRing m f) ∧ (s.modRing m f).ring m.other = s.ring m.other ∧ (s.modRing m f).ring m = f (s.ring m) := by
  refine ⟨State.modRing_frame (Frame.refl _ s) (by decide), ?_, ?_⟩
  · cases m <;> rfl
  · cases m <;> rfl

theorem State.modRing_same {s : State} {m : Mgr} {f : Ring → Ring} (h : f (s.ring m) = s.ring m) : s.modRing m f = s := by
  unfold State.modRing
  rw [show f (s.rings.get m) = s.rings.get m from h]
  cases m <;> rfl

/-- The values that EN = 1 checks. -/
theorem Ring.adminOk_iff (r : Ring) : r.adminOk = true ↔
    (∀ d ∈ [r.asqDepth.toNat, r.acqDepth.toNat], 16 ≤ d ∧ d ≤ 4096) ∧ r.asq.toNat % 4096 = 0 ∧ r.acq.toNat % 4096 = 0 := by
  unfold Ring.adminOk
  simp [and_assoc]

/-- RNG_CTRL.EN = 1 (R209). -/
theorem exec_ringEnable {s : State} {m : Mgr} (hr : s.reaches m 0x009040) : exec (.ringEnable m) s = .next (s.modRing m Ring.enable) :=
  congrArg Host.Outcome.next (State.regW_reaches hr)

theorem exec_ringDisable {s : State} {m : Mgr} (hr : s.reaches m 0x009040) :
    exec (.ringDisable m) s = .next (if (s.ring m).en then s.disableHalf m else s) :=
  congrArg Host.Outcome.next (State.regW_reaches hr)

/-! ## A function reset (R243) -/

/-- The registers of a manager's function, and what of the other parts is a copy of its own, as a reset leaves them. -/
def State.functionCleared (s : State) (m : Mgr) : State :=
  let s := s.modRing m fun _ => Ring.reset
  let s := (s.modView m View.functionReset).modAttView m fun _ => AttView.reset
  let s := s.modHash m fun _ => HashWork.reset
  let s := s.modMwd m fun w =>
    if w.armed then { w with tokenLo := 0 } else { w with tokenLo := 0, keyed := false, prescale := 10, open_ := 0, close_ := 0 }
  { s with
    hdrs := s.hdrs.map fun (p : PerMgr Hdr) => p.set m Hdr.reset,
    stn := s.stn.map fun (t : Stencil) => { t with shadow := t.shadow.set m { tbl := t.tbl, marks := [] }, reqResult := t.reqResult.set m 0 },
    ctl := s.ctl.map fun (c : Ctl) => { c with ordRes := c.ordRes.set m OrdRes.reset },
    plat := { s.plat with force := s.plat.force.set m 0 } }

theorem exec_functionReset (s : State) (m : Mgr) :
    exec (.functionReset m) s = .next (if !s.mgrOn m then s else (s.disableHalf m).functionCleared m) := rfl

/-- The configuration that a reset leaves of a manager watchdog. -/
def Mwd.functionReset (w : Mwd) : Mwd :=
  if w.armed then { w with tokenLo := 0 } else { w with tokenLo := 0, keyed := false, prescale := 10, open_ := 0, close_ := 0 }

/-- What the reset leaves of the function itself. -/
theorem State.functionCleared_function (s : State) (m : Mgr) :
    let t := s.functionCleared m
    t.ring m = Ring.reset ∧ t.view m = (s.view m).functionReset ∧ t.att.views.get m = AttView.reset ∧
      t.mwd.get m = (s.mwd.get m).functionReset := by
  have h1 : (s.functionCleared m).rings = s.rings.set m Ring.reset := rfl
  have h2 : (s.functionCleared m).views = s.views.set m (s.view m).functionReset := rfl
  have h3 : (s.functionCleared m).att.views = s.att.views.set m AttView.reset := rfl
  have h4 : (s.functionCleared m).mwd = s.mwd.set m (s.mwd.get m).functionReset := rfl
  refine ⟨?_, ?_, ?_, ?_⟩
  · rw [State.ring, h1, PerMgr.get_set_self]
  · rw [State.view, h2, PerMgr.get_set_self]
  · rw [h3, PerMgr.get_set_self]
  · rw [h4, PerMgr.get_set_self]

theorem vget_map {α β : Type} {k : Nat} (v : Vector α k) (f : α → β) (i : Fin k) : vget (v.map f) i = f (vget v i) :=
  Vector.getElem_map f i.2

/-- What the reset leaves of the pages and of the channels. -/
theorem State.functionCleared_pages (s : State) (m : Mgr) :
    let t := s.functionCleared m
    (∀ p, (vget t.hdrs p).get m = Hdr.reset) ∧
      ∀ n, (t.st n).shadow.get m = { tbl := (s.st n).tbl, marks := [] } ∧ (t.st n).tbl = (s.st n).tbl ∧
        (t.ch n).ordRes.get m = OrdRes.reset ∧ (t.pl n).staging = (s.pl n).staging := by
  have h1 : (s.functionCleared m).hdrs = s.hdrs.map fun (p : PerMgr Hdr) => p.set m Hdr.reset := rfl
  have h2 : (s.functionCleared m).stn = s.stn.map fun (t : Stencil) =>
    { t with shadow := t.shadow.set m { tbl := t.tbl, marks := [] }, reqResult := t.reqResult.set m 0 } := rfl
  have h3 : (s.functionCleared m).ctl = s.ctl.map fun (c : Ctl) => { c with ordRes := c.ordRes.set m OrdRes.reset } := rfl
  have h4 : (s.functionCleared m).plt = s.plt := by
    simp only [State.functionCleared, State.modMwd, State.modHash, State.modAttView, State.modView, State.modRing]
  refine ⟨fun p => ?_, fun n => ⟨?_, ?_, ?_, ?_⟩⟩
  · rw [h1, vget_map, PerMgr.get_set_self]
  · rw [State.st, h2, vget_map]
    dsimp only
    rw [PerMgr.get_set_self]
    rfl
  · rw [State.st, h2, vget_map]
    rfl
  · rw [State.ch, h3, vget_map]
    dsimp only
    rw [PerMgr.get_set_self]
  · rw [State.pl, h4]
    rfl

end Sys2Proof.Machine
end


section
/-! SUPPORT. Doorbells (R214, R215, R220). -/

namespace Sys2Proof.Machine

open Sys2Proof

/-! ## Writes that are ignored -/

/-- From r to t a doorbell write was ignored: counted, with its queue and its reason. -/
def Ring.DbIgnored (r t : Ring) (q : Byte) (sq : Bool) (why : BitVec 3) : Prop :=
  t.dbIgnored = satInc r.dbIgnored ∧ t.errQid = q ∧ t.errSq = sq ∧ t.errReason = why ∧ t.cqs = r.cqs

theorem Ring.ignored_ignored (r : Ring) (q : Byte) (sq : Bool) (why : Nat) :
    r.DbIgnored (r.ignored q sq why) q sq (BitVec.ofNat 3 why) ∧ (r.ignored q sq why).sqs = r.sqs :=
  ⟨⟨rfl, rfl, rfl, rfl, rfl⟩, rfl⟩

section
variable {r : Ring} {now : Nat} {q : Byte} {v : Word} {inval : Bool}

theorem Ring.tailDoorbell_none (h : SMap.get? r.sqs q.toNat = none) : r.tailDoorbell now q v inval = r.ignored q true 1 := by
  unfold Ring.tailDoorbell
  rw [h]

theorem Ring.headDoorbell_none (h : SMap.get? r.cqs q.toNat = none) : r.headDoorbell q v = r.ignored q false 1 := by
  unfold Ring.headDoorbell
  rw [h]

/-- A tail doorbell of a queue that exists. -/
theorem Ring.tailDoorbell_some {x : Sq} (h : SMap.get? r.sqs q.toNat = some x) :
    r.tailDoorbell now q v inval =
      if x.fault then r
      else if x.depth ≤ field v.toNat 12 0 then r.ignored q true 2
      else if inval then
        if ringDist x.depth (field v.toNat 12 0) x.head < ringDist x.depth x.cons x.head then
          { r.ignored q true 4 with sqs := SMap.put r.sqs q.toNat { x with prefetch := 0, retracted := false } }
        else { r with sqs := SMap.put r.sqs q.toNat (x.retract (field v.toNat 12 0)) }
      else if ringDist x.depth (field v.toNat 12 0) x.head < ringDist x.depth x.tail x.head then r.ignored q true 3
      else { r with sqs := SMap.put r.sqs q.toNat (x.post now (field v.toNat 12 0)).refill } := by
  unfold Ring.tailDoorbell
  rw [h]

theorem Ring.headDoorbell_some {x : Cq} (h : SMap.get? r.cqs q.toNat = some x) :
    r.headDoorbell q v =
      if x.fault then r
      else if x.depth ≤ field v.toNat 12 0 then r.ignored q false 2
      else if ringDist x.depth x.tail x.head < ringDist x.depth (field v.toNat 12 0) x.head then r.ignored q false 5
      else { r with cqs := SMap.put r.cqs q.toNat { x with head := field v.toNat 12 0 } } := by
  unfold Ring.headDoorbell
  rw [h]

end

theorem SMap.get?_put_self {α : Type} (m : SMap α) (a : Nat) (v : α) : SMap.get? (SMap.put m a v) a = some v := by
  rw [SMap.get?_put, if_pos rfl]

theorem SMap.get?_put_ne {α : Type} (m : SMap α) {a b : Nat} (v : α) (h : b ≠ a) : SMap.get? (SMap.put m a v) b = SMap.get? m b := by
  rw [SMap.get?_put, if_neg h.symm]

theorem Ring.headDoorbell_sqs (r : Ring) (q : Byte) (v : Word) : (r.headDoorbell q v).sqs = r.sqs := by
  unfold Ring.headDoorbell
  dsimp only
  split
  · rfl
  · split
    · rfl
    · split
      · rfl
      · split
        · rfl
        · rfl

/-- What EN = 1 leaves of a half (R209). -/
theorem Ring.enable_parts (r : Ring) :
    if r.en = true then r.enable = r
    else if (∀ d ∈ [r.asqDepth.toNat, r.acqDepth.toNat], 16 ≤ d ∧ d ≤ 4096) ∧ r.asq.toNat % 4096 = 0 ∧ r.acq.toNat % 4096 = 0 then
      r.enable.en = true ∧ r.enable.rdy = true ∧ r.enable.fatal = false ∧ r.enable.version = 0x0103 ∧
        (∃ x, r.enable.sqs = [(0, x)] ∧ x.depth = r.asqDepth.toNat ∧ x.base = r.asq ∧ x.cls = 2 ∧ x.cq = 0 ∧ x.tail = 0 ∧ x.cons = 0 ∧
          x.head = 0 ∧ x.phase = true ∧ x.flight = []) ∧
        (∃ x, r.enable.cqs = [(0, x)] ∧ x.depth = r.acqDepth.toNat ∧ x.base = r.acq ∧ x.vector = 0 ∧ x.ien = true ∧ x.event = false ∧
          x.coalN = 0 ∧ x.coalUs = 0 ∧ x.tail = 0 ∧ x.head = 0 ∧ x.phase = true ∧ x.reserved = 0)
    else r.enable.en = true ∧ r.enable.rdy = false ∧ r.enable.fatal = true ∧ r.enable.sqs = r.sqs := by
  unfold Ring.enable
  split
  · rfl
  · split
    · next hk =>
      rw [if_pos (r.adminOk_iff.mpr hk)]
      exact ⟨rfl, rfl, rfl, rfl, ⟨_, rfl, rfl, rfl, rfl, rfl, rfl, rfl, rfl, rfl, rfl⟩,
        ⟨_, rfl, rfl, rfl, rfl, rfl, rfl, rfl, rfl, rfl, rfl, rfl, rfl⟩⟩
    · next hk =>
      rw [if_neg fun h => hk (r.adminOk_iff.mp h)]
      exact ⟨rfl, rfl, rfl, rfl⟩

/-- What a function reset leaves (R243). -/
theorem functionReset_parts (s : State) (m : Mgr) :
    let t := (s.disableHalf m).functionCleared m
    t.ring m = Ring.reset ∧ (∀ p, (vget t.hdrs p).get m = Hdr.reset) ∧ t.att.views.get m = AttView.reset ∧
      (∀ n, (t.st n).shadow.get m = { tbl := (s.st n).tbl, marks := [] } ∧ (t.st n).tbl = (s.st n).tbl ∧
        (t.ch n).ordRes.get m = OrdRes.reset ∧ (t.pl n).staging = (s.pl n).staging) ∧
      (t.view m).latch = [] ∧ (t.view m).held = [] ∧ (t.view m).msix = [] ∧ (t.view m).cfg = PciCfg.reset ∧
      (t.view m).linkUp = (s.view m).linkUp ∧ t.mwd.get m = (s.mwd.get m).functionReset := by
  have hst : (s.disableHalf m).stn = s.stn := State.disableHalf_frame (Frame.refl _ s) (Field.sub_refl _) .stn (by decide)
  have hmw : (s.disableHalf m).mwd = s.mwd := State.disableHalf_frame (Frame.refl _ s) (Field.sub_refl _) .mwd (by decide)
  have hcl := (s.disableHalf_parts m).2.2.2
  have hlk := (s.disableHalf_links m).linkUp m
  generalize s.disableHalf m = u at *
  obtain ⟨h1, h2, h3, h4⟩ := u.functionCleared_function m
  obtain ⟨h5, h6⟩ := u.functionCleared_pages m
  have hs (n : Fin 128) : u.st n = s.st n := congrArg (vget · n) hst
  refine ⟨h1, h5, h3, fun n => ?_, congrArg View.latch h2, congrArg View.held h2, congrArg View.msix h2, congrArg View.cfg h2,
    (congrArg View.linkUp h2).trans hlk, ?_⟩
  · obtain ⟨k1, k2, k3, k4⟩ := h6 n
    rw [hs] at k1 k2
    exact ⟨k1, k2, k3, k4.trans (hcl n)⟩
  · rw [h4, hmw]

/-! ## The commands -/

section
variable {s : State} {m : Mgr} {q : Byte} {v : Word}

/-- The half of manager m is what f makes of it, and nothing else has changed. -/
def OwnHalf (s t : State) (m : Mgr) (f : Ring → Ring) : Prop :=
  (Frame [.rings] s t ∧ t.ring m.other = s.ring m.other) ∧ t.ring m = f (s.ring m)

theorem State.modRing_ownHalf (s : State) (m : Mgr) (f : Ring → Ring) : OwnHalf s (s.modRing m f) m f := by
  obtain ⟨h1, h2, h3⟩ := s.modRing_own m f
  exact ⟨⟨h1, h2⟩, h3⟩

theorem exec_sqTailDoorbell (hr : s.reaches m (0x400000 + 8 * q.toNat)) :
    exec (.sqTailDoorbell m q v) s = .next (s.modRing m fun r => r.tailDoorbell s.now q v (v.getLsbD 31)) :=
  congrArg Host.Outcome.next (State.regW_reaches hr)

theorem exec_sqTailRetract (hr : s.reaches m (0x400000 + 8 * q.toNat)) :
    exec (.sqTailRetract m q v) s = .next (s.modRing m fun r => r.tailDoorbell s.now q v true) :=
  congrArg Host.Outcome.next (State.regW_reaches hr)

theorem exec_cqHeadDoorbell (hr : s.reaches m (0x400004 + 8 * q.toNat)) :
    exec (.cqHeadDoorbell m q v) s = .next (s.modRing m fun r => r.headDoorbell q v) :=
  congrArg Host.Outcome.next (State.regW_reaches hr)

/-- Either tail doorbell of the queue. -/
theorem exec_tail (hr : s.reaches m (0x400000 + 8 * q.toNat)) {c : Instr} (hc : c ∈ [Instr.sqTailDoorbell m q v, .sqTailRetract m q v]) :
    ∃ inval, exec c s = .next (s.modRing m fun r => r.tailDoorbell s.now q v inval) := by
  simp only [List.mem_cons, List.not_mem_nil, or_false] at hc
  obtain rfl | rfl := hc
  · exact ⟨_, exec_sqTailDoorbell hr⟩
  · exact ⟨_, exec_sqTailRetract hr⟩

/-- A tail doorbell that names a reason is ignored for it. -/
theorem tail_ignored {inval : Bool} {why : Nat} (h : (s.ring m).tailDoorbell s.now q v inval = (s.ring m).ignored q true why) :
    let t := s.modRing m fun r => r.tailDoorbell s.now q v inval
    (Frame [.rings] s t ∧ t.ring m.other = s.ring m.other) ∧ (s.ring m).DbIgnored (t.ring m) q true (BitVec.ofNat 3 why) ∧
      (t.ring m).sqs = (s.ring m).sqs := by
  obtain ⟨h1, h2⟩ := s.modRing_ownHalf m fun r => r.tailDoorbell s.now q v inval
  refine ⟨h1, ?_⟩
  rw [h2.trans h]
  exact Ring.ignored_ignored _ _ _ _

/-- A tail doorbell without INVAL moves TAIL forward (R214). -/
theorem tail_posted {x : Sq} (hx : SMap.get? (s.ring m).sqs q.toNat = some x) (hf : x.fault = false) (hp : field v.toNat 12 0 < x.depth) :
    let r := s.ring m
    let t := s.modRing m fun r => r.tailDoorbell s.now q v false
    (Frame [.rings] s t ∧ t.ring m.other = s.ring m.other) ∧
      (if ringDist x.depth (field v.toNat 12 0) x.head < ringDist x.depth x.tail x.head then
         r.DbIgnored (t.ring m) q true 3 ∧ (t.ring m).sqs = r.sqs
       else (t.ring m).dbIgnored = r.dbIgnored ∧ (∀ i, i ≠ q.toNat → SMap.get? (t.ring m).sqs i = SMap.get? r.sqs i) ∧
         ∃ y, SMap.get? (t.ring m).sqs q.toNat = some y ∧ y.tail = field v.toNat 12 0 ∧ y.cons = x.cons ∧ y.head = x.head ∧
           y.phase = x.phase ∧ y.flight = x.flight ∧ y.held = false) := by
  obtain ⟨h1, h2⟩ := s.modRing_ownHalf m fun r => r.tailDoorbell s.now q v false
  have he := h2.trans ((Ring.tailDoorbell_some (now := s.now) (v := v) (inval := false) hx).trans ((if_neg (by rw [hf]; decide)).trans
    ((if_neg (Nat.not_le.mpr hp)).trans (if_neg (by decide)))))
  refine ⟨h1, ?_⟩
  rw [he]
  split
  · exact Ring.ignored_ignored _ _ _ _
  · exact ⟨rfl, fun i hi => SMap.get?_put_ne _ _ hi, _, SMap.get?_put_self _ _ _, rfl, rfl, rfl, rfl, rfl, rfl⟩

/-- A tail doorbell with INVAL drops the prefetch, and moves TAIL where no entry was consumed beyond it (R215). -/
theorem tail_retracted {x : Sq} (hx : SMap.get? (s.ring m).sqs q.toNat = some x) (hf : x.fault = false)
    (hp : field v.toNat 12 0 < x.depth) :
    let r := s.ring m
    let t := s.modRing m fun r => r.tailDoorbell s.now q v true
    (Frame [.rings] s t ∧ t.ring m.other = s.ring m.other) ∧ (∀ i, i ≠ q.toNat → SMap.get? (t.ring m).sqs i = SMap.get? r.sqs i) ∧
      ∃ y, SMap.get? (t.ring m).sqs q.toNat = some y ∧ y.prefetch = 0 ∧ y.cons = x.cons ∧ y.head = x.head ∧ y.flight = x.flight ∧
        (if ringDist x.depth (field v.toNat 12 0) x.head < ringDist x.depth x.cons x.head then
           r.DbIgnored (t.ring m) q true 4 ∧ y.tail = x.tail ∧ y.retracted = false
         else (t.ring m).dbIgnored = r.dbIgnored ∧ y.tail = field v.toNat 12 0 ∧ y.retracted = true) := by
  obtain ⟨h1, h2⟩ := s.modRing_ownHalf m fun r => r.tailDoorbell s.now q v true
  have he := h2.trans ((Ring.tailDoorbell_some (now := s.now) (v := v) (inval := true) hx).trans ((if_neg (by rw [hf]; decide)).trans
    ((if_neg (Nat.not_le.mpr hp)).trans (if_pos rfl))))
  refine ⟨h1, ?_⟩
  rw [he]
  split
  · exact ⟨fun i hi => SMap.get?_put_ne _ _ hi, _, SMap.get?_put_self _ _ _, rfl, rfl, rfl, rfl, (Ring.ignored_ignored _ _ _ _).1, rfl, rfl⟩
  · exact ⟨fun i hi => SMap.get?_put_ne _ _ hi, _, SMap.get?_put_self _ _ _, rfl, rfl, rfl, rfl, rfl, rfl, rfl⟩

/-- A head doorbell moves HEAD unless entries that were not posted would go (R220). -/
theorem head_moved (s : State) (m : Mgr) (q : Byte) (v : Word) :
    let r := s.ring m
    let t := s.modRing m fun r => r.headDoorbell q v
    (Frame [.rings] s t ∧ t.ring m.other = s.ring m.other) ∧ (t.ring m).sqs = r.sqs ∧
      (SMap.get? r.cqs q.toNat = none → r.DbIgnored (t.ring m) q false 1) ∧
      ∀ x, SMap.get? r.cqs q.toNat = some x →
        if x.fault = true then t = s
        else if x.depth ≤ field v.toNat 12 0 then r.DbIgnored (t.ring m) q false 2
        else if ringDist x.depth x.tail x.head < ringDist x.depth (field v.toNat 12 0) x.head then r.DbIgnored (t.ring m) q false 5
        else (t.ring m).dbIgnored = r.dbIgnored ∧ (∀ i, i ≠ q.toNat → SMap.get? (t.ring m).cqs i = SMap.get? r.cqs i) ∧
          SMap.get? (t.ring m).cqs q.toNat = some { x with head := field v.toNat 12 0 } := by
  obtain ⟨h1, h2⟩ := s.modRing_ownHalf m fun r => r.headDoorbell q v
  refine ⟨h1, ?_, fun hn => ?_, fun x hx => ?_⟩
  · rw [h2]
    exact Ring.headDoorbell_sqs _ _ _
  · rw [h2.trans (Ring.headDoorbell_none hn)]
    exact (Ring.ignored_ignored _ _ _ _).1
  · have he := h2.trans (Ring.headDoorbell_some (v := v) hx)
    split
    · next hf => exact State.modRing_same ((Ring.headDoorbell_some hx).trans (if_pos hf))
    · next hf =>
      rw [if_neg hf] at he
      split
      · next hd =>
        rw [he, if_pos hd]
        exact (Ring.ignored_ignored _ _ _ _).1
      · next hd =>
        rw [if_neg hd] at he
        split
        · next hw =>
          rw [he, if_pos hw]
          exact (Ring.ignored_ignored _ _ _ _).1
        · next hw =>
          rw [he, if_neg hw]
          exact ⟨rfl, fun i hi => SMap.get?_put_ne _ _ hi, SMap.get?_put_self _ _ _⟩

end

end Sys2Proof.Machine

namespace Sys2Proof

open Sys2Proof.Machine

/-- Settles O49, half by half and doorbell by doorbell. -/
theorem ringHalvesAndDoorbellsActAsWritten : Obligations.RingHalvesAndDoorbellsActAsWritten := by
  unfold Obligations.RingHalvesAndDoorbellsActAsWritten
  intro s m q v r pos ignored moved own
  refine ⟨fun hr => ⟨⟨_, exec_ringEnable hr, ?_⟩, ⟨_, exec_ringDisable hr, ?_⟩⟩, ⟨_, exec_functionReset s m, fun hm => ?_, fun hm => ?_⟩,
    fun hr => ⟨fun hv => ?_, fun hn c hc => ?_, fun x hx => ⟨fun hf => ⟨?_, ?_⟩, fun hf hp c hc => ?_, fun hf hp hv => ?_, fun hf hp => ?_⟩⟩,
    fun hr => ⟨_, exec_cqHeadDoorbell hr, ?_⟩⟩
  · obtain ⟨h1, h2⟩ := s.modRing_ownHalf m Ring.enable
    refine ⟨h1, ?_⟩
    rw [h2]
    exact Ring.enable_parts r
  · by_cases he : r.en = true
    · rw [if_pos he, if_pos he]
      obtain ⟨⟨h1, h2, h3, h4, h5⟩, h6, h7, h8⟩ := s.disableHalf_parts m
      exact ⟨h1, h2, h3, h4, h5, h6, h7, h8⟩
    · rw [if_neg he, if_neg he]
  · rw [hm]
    rfl
  · rw [hm]
    exact functionReset_parts s m
  · rw [exec_sqTailDoorbell hr, exec_sqTailRetract hr, hv]
  · obtain ⟨inval, he⟩ := exec_tail hr hc
    exact ⟨_, he, tail_ignored (Ring.tailDoorbell_none hn)⟩
  · rw [exec_sqTailDoorbell hr, State.modRing_same ((Ring.tailDoorbell_some hx).trans (if_pos hf))]
  · rw [exec_sqTailRetract hr, State.modRing_same ((Ring.tailDoorbell_some hx).trans (if_pos hf))]
  · obtain ⟨inval, he⟩ := exec_tail hr hc
    exact ⟨_, he, tail_ignored ((Ring.tailDoorbell_some hx).trans ((if_neg (by rw [hf]; decide)).trans (if_pos hp)))⟩
  · exact ⟨_, exec_sqTailDoorbell hr, by rw [hv]; exact tail_posted hx hf hp⟩
  · exact ⟨_, exec_sqTailRetract hr, tail_retracted hx hf hp⟩
  · exact head_moved s m q v

end Sys2Proof
end


section
/-! SUPPORT. A function that may start a DMA fails none by a completion (R254). -/

namespace Sys2Proof.Machine

open Sys2Proof

/-! ## What a completion leaves of a function whose DMA runs -/

/-- The registers of a function, without what it has sent. -/
def View.quiet (v : View) : View := { v with out := [] }

/-- From s to t a function that may start a DMA changes in nothing but what it has sent. -/
def Unfailed (s t : State) : Prop := ∀ m, s.dmaUp m = true → (t.view m).quiet = (s.view m).quiet

theorem View.quiet_dma {v w : View} (h : v.quiet = w.quiet) : (v.linkUp && v.cfg.master) = (w.linkUp && w.cfg.master) :=
  (congrArg (fun v : View => v.linkUp && v.cfg.master) h : (v.quiet.linkUp && v.quiet.cfg.master) = (w.quiet.linkUp && w.quiet.cfg.master))

theorem Unfailed.dmaUp {s t : State} (h : Unfailed s t) {m : Mgr} (hm : s.dmaUp m = true) : t.dmaUp m = true :=
  (View.quiet_dma (h m hm)).trans hm

theorem Unfailed.refl (s : State) : Unfailed s s := fun _ _ => rfl

theorem Unfailed.comp {s t u : State} (h : Unfailed s t) (k : Unfailed t u) : Unfailed s u := fun m hm =>
  (k m (h.dmaUp hm)).trans (h m hm)

theorem Unfailed.of_views {s t : State} (h : t.views = s.views) : Unfailed s t := fun m _ =>
  congrArg (fun v : PerMgr View => (v.get m).quiet) h

theorem Unfailed.of_frame {fs : List Field} {s t : State} (h : Frame fs s t) (hf : Field.views ∉ fs) : Unfailed s t :=
  .of_views (h .views hf)

theorem Unfailed.respects : Respects .views Unfailed where
  refl := Unfailed.refl
  comp := Unfailed.comp
  of_frame := Unfailed.of_frame

theorem Unfailed.modRing {s t : State} (h : Unfailed s t) (m : Mgr) (f : Ring → Ring) : Unfailed s (t.modRing m f) :=
  h.comp (.of_views rfl)

theorem Unfailed.put_awaits {s t : State} (h : Unfailed s t) (w : List Await) : Unfailed s { t with awaits := w } :=
  h.comp (.of_views rfl)

theorem Unfailed.modView {s t : State} (h : Unfailed s t) (m : Mgr) {f : View → View}
    (hf : t.dmaUp m = true → ∀ v : View, (f v).quiet = v.quiet) : Unfailed s (t.modView m f) :=
  h.comp fun k hk => by
    rw [State.view_modView]
    split
    · next hm => exact hf (hm ▸ hk) _
    · rfl

/-- A DMA fails only where the function may start none. -/
theorem Unfailed.dmaFailed {s t : State} (h : Unfailed s t) {m : Mgr} (hm : t.dmaUp m = false) (kind : BitVec 3) (addr : DWord) :
    Unfailed s (t.ringDmaFailed m kind addr) :=
  Unfailed.modRing (t := t.dmaFailed m kind addr) (h.modView m fun hc => absurd (hm.symm.trans hc) (by decide)) m _

theorem State.post_sound {s₀ s : State} {src : Src} {st : Status} {info : Nat} {result : List Byte} {more : Bool} (h : Unfailed s₀ s) :
    Unfailed s₀ (s.post src st info result more) := by
  unfold State.post
  dsimp only
  split
  · exact h
  · split
    · exact h.modRing _ _
    · split
      · exact h.modRing _ _
      · split
        · exact (h.modRing _ _).modView _ fun _ _ => rfl
        · next hd =>
          have hd' : s.dmaUp src.mgr = false := by simpa using hd
          exact ((h.modRing _ _).dmaFailed (t := s.modRing src.mgr _) hd' _ _).comp (.of_views rfl)

theorem State.reapSq_sound {s₀ s : State} {m : Mgr} {qid : Nat} (h : Unfailed s₀ s) : Unfailed s₀ (s.reapSq m qid) := by
  unfold State.reapSq
  dsimp only
  split
  · split
    · split
      · split
        · refine State.post_sound ?_
          exact (h.modRing _ _).put_awaits _
        · exact (h.modRing _ _).put_awaits _
        · exact (h.modRing _ _).put_awaits _
      · exact h.modRing _ _
    · exact h
  · exact h

theorem State.finish_sound {s₀ s : State} {src : Src} {st : Status} {info : Nat} {result : List Byte} {more : Bool} (h : Unfailed s₀ s) :
    Unfailed s₀ (s.finish src st info result more) := by
  refine State.reapSq_sound (State.post_sound ?_)
  exact h.comp (.of_views rfl)

theorem Unfailed.closes : Closes Unfailed where
  refl := Unfailed.refl
  comp := Unfailed.comp
  of_frame := fun h hf => .of_frame h (hf .views (by decide))
  finish := fun _ _ _ _ _ _ => State.finish_sound (Unfailed.refl _)
  raise := fun _ _ _ _ => .of_views rfl
  drop := fun s _ => (Unfailed.refl s).put_awaits _

/-! ## A DMA that fails on the link (R239, R254) -/

/-- The record of a failure on a function. -/
def FailedAt (s t : State) (m : Mgr) (kind : BitVec 3) (addr : DWord) : Prop :=
  (t.view m).aer = (s.view m).aer ++ [kind.toNat] ∧ (t.view m).dmaErr = satInc (s.view m).dmaErr ∧ (t.view m).dmaKind = kind ∧
    (t.view m).dmaAddr = addr

theorem State.dmaFailed_at (s : State) (m : Mgr) (kind : BitVec 3) (addr : DWord) :
    FailedAt s (s.dmaFailed m kind addr) m kind addr ∧ (s.dmaFailed m kind addr).dmaUp m = s.dmaUp m := by
  cases m
  · exact ⟨⟨rfl, rfl, rfl, rfl⟩, rfl⟩
  · exact ⟨⟨rfl, rfl, rfl, rfl⟩, rfl⟩

/-- The completions that follow keep the record. -/
theorem FailedAt.unfailed {s t u : State} {m : Mgr} {kind : BitVec 3} {addr : DWord} (h : FailedAt s t m kind addr) (k : Unfailed t u)
    (hm : t.dmaUp m = true) : FailedAt s u m kind addr := by
  have hq := k m hm
  obtain ⟨h1, h2, h3, h4⟩ := h
  exact ⟨(congrArg View.aer hq : (u.view m).quiet.aer = (t.view m).quiet.aer).trans h1,
    (congrArg View.dmaErr hq : (u.view m).quiet.dmaErr = (t.view m).quiet.dmaErr).trans h2,
    (congrArg View.dmaKind hq : (u.view m).quiet.dmaKind = (t.view m).quiet.dmaKind).trans h3,
    (congrArg View.dmaAddr hq : (u.view m).quiet.dmaAddr = (t.view m).quiet.dmaAddr).trans h4⟩

/-- A DMA failure is logged, counted and recorded. -/
theorem exec_dmaFailure {s : State} {m : Mgr} (kind : BitVec 3) (addr : DWord) (who : Option DmaUser) (hm : s.mgrOn m = true)
    (hw : who = none ∨ s.dmaUp m = true) : ∃ t, exec (.dmaFailure m kind addr who) s = .next t ∧ FailedAt s t m kind addr ∧
      (who = none → Frame [.views] s t) := by
  refine ⟨_, congrArg Host.Outcome.next (if_neg (by rw [hm]; decide)), ?_, fun hn => ?_⟩
  · obtain ⟨h1, h2⟩ := s.dmaFailed_at m kind addr
    cases who with
    | none => exact h1
    | some u =>
      have hup := hw.resolve_left (by simp)
      have h0 : FailedAt s (s.ringDmaFailed m kind addr) m kind addr := h1
      have hd : (s.ringDmaFailed m kind addr).dmaUp m = true := h2.trans hup
      dsimp only
      split
      · exact h0.unfailed (Unfailed.closes.stopCommand (fun _ _ _ _ _ _ => .of_views rfl) (Unfailed.refl _)) hd
      · exact h0
  · subst hn
    exact State.dmaFailed_frame (Frame.refl _ s) (by decide)

end Sys2Proof.Machine
end


section
/-! SUPPORT. A completion that reaches its queue (R217, R219, R220). -/

namespace Sys2Proof.Machine

open Sys2Proof

/-- A submission queue with the completion of its command cid: the entry is done, and leading entries that are done are released. -/
def Sq.completed (x : Sq) (cid : Half) : Sq :=
  Sq.release { x with
    flight := match x.flight.find? fun f => f.cid = cid && !f.done with
      | none => x.flight
      | some f => x.flight.map fun y => if y = f then { y with done := true } else y,
    fenced := false }

/-- What a completion leaves of its queue but HEAD, its flight and its FENCE. -/
theorem Sq.completed_kept (x : Sq) (cid : Half) : (x.completed cid).tail = x.tail ∧ (x.completed cid).cons = x.cons ∧
    (x.completed cid).phase = x.phase ∧ (x.completed cid).deleting = x.deleting := ⟨rfl, rfl, rfl, rfl⟩

/-- The completion of a command. -/
def completionOf (src : Src) (x : Sq) (c : Cq) (st : Status) (info : Nat) (result : List Byte) (more : Bool) : Completion :=
  { result := res16 result, sqhd := BitVec.ofNat 16 (x.completed src.cid).head, sqid := src.sq.zeroExtend 16,
    cid := src.cid, status := st, more := more, info := BitVec.ofNat 32 info, phase := c.phase }

/-- A completion queue with one more entry, its place no longer reserved. -/
def Cq.served (c : Cq) (now : Nat) (hit : Bool) : Cq := Cq.advance now { c with reserved := if hit then c.reserved - 1 else c.reserved }

theorem State.ring_modView (s : State) (m : Mgr) (f : View → View) (k : Mgr) : (s.modView m f).ring k = s.ring k := rfl

/-- From s to t the completion z is posted for src, whose queues are x and c. -/
def Posted (s t : State) (src : Src) (x : Sq) (c : Cq) (z : Completion) : Prop :=
  (t.view src.mgr).out = (s.view src.mgr).out ++ [.completion x.cq c.tail z] ∧
    SMap.get? (t.ring src.mgr).sqs src.sq.toNat = some (x.completed src.cid) ∧
    SMap.get? (t.ring src.mgr).cqs x.cq.toNat = some (c.served s.now (s.inFlight? src).isSome) ∧
    (t.ring src.mgr).badEntry = (s.ring src.mgr).badEntry

/-- The half with the completed command, before the completion's own queue takes it. -/
def Ring.answered (r : Ring) (now : Nat) (src : Src) (x : Sq) (opc : Half) (st : Status) (info : Nat) : Ring :=
  let r := { r with sqs := SMap.put r.sqs src.sq.toNat (x.completed src.cid) }
  if st = stSuccess then r else
    { r with errLog := (({ time := now, sq := src.sq.zeroExtend 16, cid := src.cid, opc := opc, status := st, info := BitVec.ofNat 32 info } :
      ErrLine) :: r.errLog).take 64 }

theorem Ring.answered_parts (r : Ring) (now : Nat) (src : Src) (x : Sq) (opc : Half) (st : Status) (info : Nat) :
    (r.answered now src x opc st info).sqs = SMap.put r.sqs src.sq.toNat (x.completed src.cid) ∧
      (r.answered now src x opc st info).cqs = r.cqs ∧ (r.answered now src x opc st info).badEntry = r.badEntry := by
  unfold Ring.answered
  dsimp only
  split
  · exact ⟨rfl, rfl, rfl⟩
  · exact ⟨rfl, rfl, rfl⟩

/-- The post of a completion in a half that has released the command's units from y. -/
def State.postTo (s : State) (src : Src) (y : Sq) (r : Ring) (hit : Bool) (st : Status) (info : Nat) (result : List Byte) (more : Bool) : State :=
  match SMap.get? r.cqs y.cq.toNat with
  | none => s.modRing src.mgr fun _ => r
  | some c =>
    let e : Completion :=
      { result := res16 result, sqhd := BitVec.ofNat 16 y.head, sqid := src.sq.zeroExtend 16,
        cid := src.cid, status := st, more := more, info := BitVec.ofNat 32 info, phase := c.phase }
    let used := { c with reserved := if hit then c.reserved - 1 else c.reserved }
    let put := fun (c : Cq) => s.modRing src.mgr fun _ => { r with cqs := SMap.put r.cqs y.cq.toNat c }
    if c.fault then put used
    else if s.dmaUp src.mgr then
      (put (used.advance s.now)).modView src.mgr fun v => { v with out := v.out ++ [.completion y.cq c.tail e] }
    else ((put used).ringDmaFailed src.mgr 5 (c.base + BitVec.ofNat 64 (32 * c.tail))).queueFault src.mgr y.cq false

theorem State.post_postTo {s : State} {src : Src} {x : Sq} (st : Status) (info : Nat) (result : List Byte) (more : Bool)
    (hx : SMap.get? (s.ring src.mgr).sqs src.sq.toNat = some x) : ∃ opc, s.post src st info result more =
      s.postTo src (x.completed src.cid) ((s.ring src.mgr).answered s.now src x opc st info) (s.inFlight? src).isSome st info result more := by
  refine ⟨((x.flight.find? fun f => f.cid = src.cid && !f.done).map fun f => f.opc).getD 0, ?_⟩
  unfold State.post State.inFlight?
  dsimp only
  rw [hx]
  rfl

/-- A completion is posted where its queue can take it (R217, R219, R220). -/
theorem State.post_posted {s : State} {src : Src} {x : Sq} {c : Cq} (st : Status) (info : Nat) (result : List Byte) (more : Bool)
    (hx : SMap.get? (s.ring src.mgr).sqs src.sq.toNat = some x) (hc : SMap.get? (s.ring src.mgr).cqs x.cq.toNat = some c)
    (hf : c.fault = false) (hd : s.dmaUp src.mgr = true) :
    Posted s (s.post src st info result more) src x c (completionOf src x c st info result more) := by
  obtain ⟨opc, he⟩ := State.post_postTo st info result more hx
  obtain ⟨h1, h2, h3⟩ := (s.ring src.mgr).answered_parts s.now src x opc st info
  rw [he]
  generalize (s.ring src.mgr).answered s.now src x opc st info = r at *
  have hp : s.postTo src (x.completed src.cid) r (s.inFlight? src).isSome st info result more =
      (s.modRing src.mgr fun _ => { r with cqs := SMap.put r.cqs x.cq.toNat (c.served s.now (s.inFlight? src).isSome) }).modView src.mgr
        fun v => { v with out := v.out ++ [.completion x.cq c.tail (completionOf src x c st info result more)] } := by
    unfold State.postTo
    rw [show SMap.get? r.cqs (x.completed src.cid).cq.toNat = some c from h2 ▸ hc]
    exact (if_neg (by rw [hf]; decide)).trans (if_pos hd)
  rw [hp]
  refine ⟨?_, ?_, ?_, ?_⟩
  · rw [State.view_modView, if_pos rfl]
    rfl
  · rw [State.ring_modView, State.ring_modRing, if_pos rfl, h1, SMap.get?_put_self]
  · rw [State.ring_modView, State.ring_modRing, if_pos rfl, SMap.get?_put_self]
  · rw [State.ring_modView, State.ring_modRing, if_pos rfl, h3]

/-- A queue that is not being deleted stays. -/
theorem State.reapSq_kept {s : State} {m : Mgr} {q : Nat} {y : Sq} (hy : SMap.get? (s.ring m).sqs q = some y) (hd : y.deleting = false) :
    s.reapSq m q = s := by
  unfold State.reapSq
  rw [hy]
  exact if_neg (by rw [hd]; simp)

/-- Where no DELETE_SQ waits for the queue, a completion is the whole of the finish. -/
theorem State.finish_posted {s : State} {src : Src} {x : Sq} {c : Cq} (st : Status) (info : Nat) (result : List Byte) (more : Bool)
    (hx : SMap.get? (s.ring src.mgr).sqs src.sq.toNat = some x) (hc : SMap.get? (s.ring src.mgr).cqs x.cq.toNat = some c)
    (hf : c.fault = false) (hd : s.dmaUp src.mgr = true) (hq : x.deleting = false) :
    Posted s (s.finish src st info result more) src x c (completionOf src x c st info result more) := by
  have h := State.post_posted (s := { s with dev := { s.dev with idleSince := s.now } }) st info result more hx hc hf hd
  have hr : s.finish src st info result more = State.post { s with dev := { s.dev with idleSince := s.now } } src st info result more :=
    State.reapSq_kept h.2.1 (by rw [(x.completed_kept src.cid).2.2.2, hq])
  rw [hr]
  exact h

end Sys2Proof.Machine
end


section
/-! SUPPORT. Entries are consumed and answered (R211 to R213, R216, R220, R222). -/

namespace Sys2Proof.Machine

open Sys2Proof

/-! ## An answer reaches its queue -/

theorem Cq.served_parts (c : Cq) (now : Nat) : (c.served now true).tail = (if c.tail + 1 = c.depth then 0 else c.tail + 1) ∧
    (c.served now true).phase = (if c.tail + 1 = c.depth then !c.phase else c.phase) ∧ (c.served now true).reserved = c.reserved - 1 :=
  ⟨rfl, rfl, rfl⟩

/-- The state from which an answer's completion is posted: its bytes are in the buffer. -/
def State.withBytes (s : State) (src : Src) (a : Answer) : State :=
  match a.data with
  | some d => s.toBuffer src d
  | none => s

theorem State.deliver_eq (s : State) (src : Src) (a : Answer) :
    s.deliver src a = (s.withBytes src a).finish src a.st a.info a.result a.more := rfl

theorem State.withBytes_kept (s : State) (src : Src) (a : Answer) : Frame [.views] s (s.withBytes src a) := by
  unfold State.withBytes
  split
  · exact State.toBuffer_frame (Frame.refl _ s) (by decide)
  · exact Frame.refl _ s

theorem State.withBytes_dmaUp (s : State) (src : Src) (a : Answer) (m : Mgr) : (s.withBytes src a).dmaUp m = s.dmaUp m := by
  unfold State.withBytes
  split
  · unfold State.toBuffer
    split
    · refine LinksKept.dmaUp ?_ m
      exact (LinksKept.refl s).modView src.mgr fun _ => rfl
    · rfl
  · rfl

/-- The completion of an answer (R217, R219). -/
theorem State.deliver_posted {s : State} {src : Src} {x : Sq} {c : Cq} (a : Answer)
    (hx : SMap.get? (s.ring src.mgr).sqs src.sq.toNat = some x) (hc : SMap.get? (s.ring src.mgr).cqs x.cq.toNat = some c)
    (hq : x.deleting = false) (hf : c.fault = false) (hd : s.dmaUp src.mgr = true) :
    Posted (s.withBytes src a) (s.deliver src a) src x c (completionOf src x c a.st a.info a.result a.more) := by
  have hr : (s.withBytes src a).ring src.mgr = s.ring src.mgr := congrArg (PerMgr.get · src.mgr) ((s.withBytes_kept src a) .rings (by decide))
  rw [State.deliver_eq]
  exact State.finish_posted a.st a.info a.result a.more (hr ▸ hx) (hr ▸ hc) hf ((s.withBytes_dmaUp src a src.mgr).trans hd) hq

/-! ## An entry is taken -/

/-- The record of an entry in flight. -/
def flightOf (e : Entry) (start k : Nat) : InFlight :=
  { cid := e.cid, opc := BitVec.ofNat 16 e.opc, start := start, units := k, fence := e.fence, fast := fastOpc e.opc, done := false, raw := e.raw }

/-- Where no entry was taken early, the entry at CONS joins those in flight and CONS moves over its units (R211). -/
theorem Sq.take_parts {q : Sq} (h : q.early = []) (now start k : Nat) (e : Entry) :
    let y := q.take now start k e false
    y.flight = q.flight ++ [flightOf e start k] ∧ y.tail = q.tail ∧ y.head = q.head ∧ y.cq = q.cq ∧ y.deleting = q.deleting ∧
      y.early = [] ∧
      (if q.cons + k < q.depth then y.cons = q.cons + k ∧ y.phase = q.phase else y.cons = 0 ∧ y.phase = !q.phase) := by
  unfold Sq.take
  rw [if_neg (by decide)]
  have hl : q.early.length = 0 := by rw [h]; rfl
  dsimp only
  rw [hl]
  unfold Sq.skipEarly Sq.advance
  dsimp only
  by_cases hk : q.cons + k < q.depth
  · rw [if_pos hk, if_pos hk]
    exact ⟨rfl, rfl, rfl, rfl, rfl, h, rfl, rfl⟩
  · rw [if_neg hk, if_neg hk]
    exact ⟨rfl, rfl, rfl, rfl, rfl, h, rfl, rfl⟩

/-- The state in which the entry at CONS has been taken: its queue had its turn, and a place in its CQ is reserved. -/
def State.entryTaken (s : State) (m : Mgr) (qid : Nat) (q : Sq) (k : Nat) (e : Entry) : State :=
  ((s.served m qid q.class).reserve m q).putSq m qid
    (Sq.take { q with toAbort := q.toAbort.filter fun c => c ≠ e.cid } ((s.served m qid q.class).reserve m q).now q.cons k e false)

theorem State.served_rings (s : State) (m : Mgr) (q cls : Nat) : (s.served m q cls).rings = s.rings :=
  State.served_frame (Frame.refl [.arb] s) (Field.sub_refl _) .rings (by decide)

theorem State.reserve_some {s : State} {m : Mgr} {q : Sq} {c : Cq} (hc : SMap.get? (s.ring m).cqs q.cq.toNat = some c) :
    s.reserve m q = s.putCq m q.cq.toNat { c with reserved := c.reserved + 1 } := by
  unfold State.reserve
  rw [hc]

/-- What the taking of an entry leaves. -/
theorem State.entryTaken_parts {s : State} {m : Mgr} {qid : Nat} {q : Sq} {c : Cq} (k : Nat) (e : Entry)
    (hc : SMap.get? (s.ring m).cqs q.cq.toNat = some c) :
    let t := s.entryTaken m qid q k e
    Frame [.rings, .arb] s t ∧
      SMap.get? (t.ring m).sqs qid = some (Sq.take { q with toAbort := q.toAbort.filter fun c => c ≠ e.cid } s.now q.cons k e false) ∧
      SMap.get? (t.ring m).cqs q.cq.toNat = some { c with reserved := c.reserved + 1 } ∧ (t.ring m).badEntry = (s.ring m).badEntry := by
  have hr : (s.served m qid q.class).ring m = s.ring m := congrArg (PerMgr.get · m) (s.served_rings m qid q.class)
  have hnow : ((s.served m qid q.class).reserve m q).now = s.now :=
    State.reserve_frame (State.served_frame (Frame.refl [.arb, .rings] s) (by decide)) (by decide) .now (by decide)
  refine ⟨State.putSq_frame (State.reserve_frame (State.served_frame (Frame.refl _ s) (by decide)) (by decide)) (by decide), ?_, ?_, ?_⟩
  · unfold State.entryTaken State.putSq
    rw [State.ring_modRing, if_pos rfl, SMap.get?_put_self, hnow]
  · unfold State.entryTaken State.putSq
    rw [State.reserve_some (hr ▸ hc), State.ring_modRing, if_pos rfl]
    unfold State.putCq
    rw [State.ring_modRing, if_pos rfl, SMap.get?_put_self]
  · unfold State.entryTaken State.putSq
    rw [State.reserve_some (hr ▸ hc), State.ring_modRing, if_pos rfl]
    unfold State.putCq
    rw [State.ring_modRing, if_pos rfl, hr]

/-- The turn of queue q of manager m, which may give an entry. -/
def State.turnOf (s : State) (m : Mgr) (q : Byte) (x : Sq) : Prop :=
  SMap.get? (s.ring m).sqs q.toNat = some x ∧ s.mgrOn m = true ∧ s.consumes { mgr := m, sq := q, cid := 0 } = true ∧
    s.dev.ccAbsent = false ∧ s.pickQueue = some (m, q.toNat) ∧ x.fault = false ∧ x.deleting = false ∧ (s.ring m).credit x = true ∧
    s.underLimit m = true

theorem exec_sqEntryConsume {s : State} {m : Mgr} {q : Byte} {x : Sq} (h : s.turnOf m q x) (units : List Byte) :
    exec (.sqEntryConsume m q units) s = .next (if s.dmaUp m then s.consume m q.toNat x units else s.fetchFault m q x) := by
  obtain ⟨hx, hm, hcon, hcc, hp, hf, hd, hcr, hu⟩ := h
  refine congrArg Host.Outcome.next ?_
  rw [hx]
  refine (if_neg (by rw [hm, hcon, hf, hd, hcr, hu]; decide)).trans ?_
  cases hdma : s.dmaUp m
  · exact if_pos (by simp [hcc, hp])
  · exact (if_neg (by simp [hcc])).trans ((if_neg (by rw [hcc]; decide)).trans (if_pos hp))

/-- The credit of a queue is that of its CQ. -/
theorem Ring.credit_some {r : Ring} {x : Sq} (h : r.credit x = true) : ∃ c, SMap.get? r.cqs x.cq.toNat = some c ∧ c.fault = false := by
  unfold Ring.credit at h
  split at h
  · next c hc =>
    simp only [Bool.and_eq_true, Bool.not_eq_true'] at h
    exact ⟨c, hc, h.1⟩
  · exact absurd h (by decide)

section
variable {s : State} {m : Mgr} {qid : Nat} {x : Sq} {units : List Byte}

theorem State.consume_held (hp : x.posted units 0 (min (entryOf units).units (x.depth - x.cons)) = false) :
    s.consume m qid x units = s.holdSq m qid x := if_pos (by rw [hp]; rfl)

theorem State.consume_fenced (hp : x.posted units 0 (min (entryOf units).units (x.depth - x.cons)) = true) (ho : (entryOf units).opc ≠ 0)
    (hf : x.fenceOk (entryOf units).fence = false) : s.consume m qid x units = s.putSq m qid { x with fenced := true } :=
  (if_neg (by rw [hp]; decide)).trans ((if_neg ho).trans (if_pos (by rw [hf]; rfl)))

/-- An entry that may start is taken, and answered at once where it cannot run. -/
theorem State.consume_taken (hp : x.posted units 0 (min (entryOf units).units (x.depth - x.cons)) = true) (ho : (entryOf units).opc ≠ 0)
    (hf : x.fenceOk (entryOf units).fence = true) :
    s.consume m qid x units =
      let e := entryOf units
      let t := s.entryTaken m qid x (min e.units (x.depth - x.cons)) e
      let src : Src := { mgr := m, sq := BitVec.ofNat 8 qid, cid := e.cid }
      if x.depth - x.cons < e.units then (t.modRing m fun r => { r with badEntry := satInc r.badEntry }).finish src stInvalidField 2
      else if x.toAbort.contains e.cid && e.opc ≠ 0x0008 then t.finish src stAborted
      else if !knownOpc e.opc then t.finish src (if t.dev.state = .deviceRecovery then stNotPermitted else stInvalidOpcode)
      else t := by
  refine (if_neg (by rw [hp]; decide)).trans ((if_neg ho).trans ?_)
  refine (if_neg (c := (!x.fenceOk (entryOf units).fence) = true) (by rw [hf]; decide)).trans ?_
  rfl

end

/-- Frames that leave the views leave what DMA may start. -/
theorem State.dmaUp_of_frame {fs : List Field} {s t : State} (h : Frame fs s t) (hf : Field.views ∉ fs) (m : Mgr) : t.dmaUp m = s.dmaUp m :=
  congrArg (fun v : PerMgr View => (v.get m).linkUp && (v.get m).cfg.master) (h .views hf)

section
variable {s : State} {m : Mgr} {q : Byte} {x : Sq} {units : List Byte}

/-- The queue of an entry that has been taken, with its completion or without. -/
def TakenAs (x y : Sq) (k : Nat) : Prop :=
  y.tail = x.tail ∧ if x.cons + k < x.depth then y.cons = x.cons + k ∧ y.phase = x.phase else y.cons = 0 ∧ y.phase = !x.phase

/-- A completion posted right after its entry was taken. -/
theorem taken_finished {t : State} {y : Sq} {c : Cq} {e : Entry} (st : Status) (info : Nat)
    (hy : SMap.get? (t.ring m).sqs q.toNat = some y) (hc : SMap.get? (t.ring m).cqs y.cq.toNat = some c) (hf : c.fault = false)
    (hd : t.dmaUp m = true) (hq : y.deleting = false) :
    let u := t.finish { mgr := m, sq := BitVec.ofNat 8 q.toNat, cid := e.cid } st info
    SMap.get? (u.ring m).sqs q.toNat = some (y.completed e.cid) ∧ (u.ring m).badEntry = (t.ring m).badEntry ∧
      ∃ at_ z, .completion y.cq at_ z ∈ (u.view m).out ∧ z.cid = e.cid ∧ z.status = st ∧ z.info = BitVec.ofNat 32 info := by
  have hq' : BitVec.ofNat 8 q.toNat = q := by simp
  rw [hq']
  obtain ⟨h1, h2, -, h4⟩ := State.finish_posted (src := { mgr := m, sq := q, cid := e.cid }) st info [] false hy hc hf hd hq
  refine ⟨h2, h4, c.tail, completionOf { mgr := m, sq := q, cid := e.cid } y c st info [] false, ?_, rfl, rfl, rfl⟩
  exact h1 ▸ List.mem_append_right _ (List.mem_singleton_self _)

/-- An entry that may start: CONS moves past it; it is in flight, or it is answered at once (R211, R212, R228). -/
theorem consumed_parts (hx : SMap.get? (s.ring m).sqs q.toNat = some x) (he : x.early = []) (hdl : x.deleting = false)
    (hcr : (s.ring m).credit x = true) (hd : s.dmaUp m = true) (ho : (entryOf units).opc ≠ 0)
    (hp : x.posted units 0 (min (entryOf units).units (x.depth - x.cons)) = true) (hf : x.fenceOk (entryOf units).fence = true) :
    let e := entryOf units
    let toEnd := x.depth - x.cons
    let r := s.ring m
    let t := s.consume m q.toNat x units
    ∃ y, SMap.get? (t.ring m).sqs q.toNat = some y ∧ TakenAs x y (min e.units toEnd) ∧
      (e.units ≤ toEnd → e.cid ∉ x.toAbort → knownOpc e.opc = true → y.head = x.head ∧ ∃ f, y.flight = x.flight ++ [f] ∧ f.cid = e.cid ∧
        f.start = x.cons ∧ f.units = e.units ∧ f.fence = e.fence ∧ f.done = false ∧ (t.view m).out = (s.view m).out ∧
        ∀ c, SMap.get? r.cqs x.cq.toNat = some c → SMap.get? (t.ring m).cqs x.cq.toNat = some { c with reserved := c.reserved + 1 }) ∧
      (e.units ≤ toEnd → e.cid ∉ x.toAbort → knownOpc e.opc = false → ∃ at_ c, .completion x.cq at_ c ∈ (t.view m).out ∧
        c.cid = e.cid ∧ c.status = if s.dev.state = .deviceRecovery then stNotPermitted else stInvalidOpcode) ∧
      (toEnd < e.units → (t.ring m).badEntry = satInc r.badEntry ∧
        ∃ at_ c, .completion x.cq at_ c ∈ (t.view m).out ∧ c.cid = e.cid ∧ c.status = stInvalidField ∧ c.info = 2) := by
  obtain ⟨c, hc, hcf⟩ := Ring.credit_some hcr
  dsimp only
  rw [State.consume_taken hp ho hf]
  dsimp only
  generalize entryOf units = e at *
  obtain ⟨hfr, hsq, hcq, hbad⟩ := State.entryTaken_parts (s := s) (m := m) (qid := q.toNat) (q := x) (min e.units (x.depth - x.cons)) e hc
  obtain ⟨yf, yt, yh, yc, yd, ye, yk⟩ := Sq.take_parts (q := { x with toAbort := x.toAbort.filter fun c => c ≠ e.cid }) he s.now x.cons
    (min e.units (x.depth - x.cons)) e
  have hdm := (State.dmaUp_of_frame hfr (by decide) m).trans hd
  have hst : (s.entryTaken m q.toNat x (min e.units (x.depth - x.cons)) e).dev = s.dev := hfr .dev (by decide)
  have hvw : (s.entryTaken m q.toNat x (min e.units (x.depth - x.cons)) e).views = s.views := hfr .views (by decide)
  generalize s.entryTaken m q.toNat x (min e.units (x.depth - x.cons)) e = t at *
  generalize Sq.take _ s.now x.cons (min e.units (x.depth - x.cons)) e false = y at *
  have htk : TakenAs x y (min e.units (x.depth - x.cons)) := ⟨yt, yk⟩
  split
  · next hpast =>
    obtain ⟨h1, h2, at_, z, h3, h4, h5, h6⟩ := taken_finished (m := m) (q := q) (e := e)
      (t := t.modRing m fun r => { r with badEntry := satInc r.badEntry }) (y := y) (c := { c with reserved := c.reserved + 1 })
      stInvalidField 2 (by rw [State.ring_modRing, if_pos rfl]; exact hsq) (by rw [State.ring_modRing, if_pos rfl, yc]; exact hcq) hcf hdm
      (yd.trans hdl)
    refine ⟨y.completed e.cid, h1, htk, fun hle => absurd hpast (by omega), fun hle => absurd hpast (by omega), fun _ => ⟨?_, at_, z, ?_⟩⟩
    · rw [h2, State.ring_modRing, if_pos rfl]
      exact congrArg satInc hbad
    · exact ⟨yc ▸ h3, h4, h5, h6⟩
  · next hpast =>
    split
    · next hab =>
      obtain ⟨h1, -⟩ := taken_finished (m := m) (q := q) (e := e) (t := t)
        (c := { c with reserved := c.reserved + 1 }) stAborted 0 hsq (yc.symm ▸ hcq) hcf hdm (yd.trans hdl)
      have hin : e.cid ∈ x.toAbort := by
        simp only [Bool.and_eq_true, List.contains_iff_mem] at hab
        exact hab.1
      exact ⟨y.completed e.cid, h1, htk, fun _ hn => absurd hin hn, fun _ hn => absurd hin hn, fun hlt => absurd hlt hpast⟩
    · split
      · next hk =>
        obtain ⟨h1, -, at_, z, h3, h4, h5, -⟩ := taken_finished (m := m) (q := q) (e := e) (t := t)
          (c := { c with reserved := c.reserved + 1 }) (if t.dev.state = .deviceRecovery then stNotPermitted else stInvalidOpcode) 0 hsq (yc.symm ▸ hcq) hcf hdm (yd.trans hdl)
        refine ⟨y.completed e.cid, h1, htk, fun _ _ hkn => ?_, fun _ _ _ => ⟨at_, z, yc ▸ h3, h4, ?_⟩, fun hlt => absurd hlt hpast⟩
        · rw [hkn] at hk
          exact absurd hk (by decide)
        · rw [h5, hst]
      · next hk =>
        have hkn : knownOpc e.opc = true := by simpa using hk
        refine ⟨y, hsq, htk, fun hle _ _ => ⟨yh, _, yf, rfl, rfl, ?_, rfl, rfl, ?_, fun c' hc' => ?_⟩, fun _ _ hkf => ?_,
          fun hlt => absurd hlt hpast⟩
        · exact Nat.min_eq_left hle
        · exact congrArg (fun v : PerMgr View => (v.get m).out) hvw
        · obtain rfl := Option.some.inj (hc.symm.trans hc')
          exact hcq
        · exact absurd (hkn.symm.trans hkf) (by decide)

end

end Sys2Proof.Machine
end


section
/-! SUPPORT. PAD, ageing, event slots, interrupts and ring faults (R212, R213, R221, R222, R224, R239). -/

namespace Sys2Proof.Machine

open Sys2Proof

/-! ## PAD and the re-read (R212, R213, R222) -/

section
variable {s : State} {m : Mgr} {q : Byte} {x : Sq} {units : List Byte}

/-- The queue after its PAD, which is done at once. -/
def Sq.padded (x : Sq) (now : Nat) (e : Entry) : Sq :=
  let y := x.take now x.cons (x.depth - x.cons) e false
  Sq.release { y with flight := y.flight.map fun (f : InFlight) => if f.start = x.cons && f.opc = 0 then { f with done := true, fence := false } else f }

/-- PAD takes the rest of the ring (R212). -/
theorem Sq.padded_parts (he : x.early = []) (hc : x.cons < x.depth) (now : Nat) {e : Entry} (ho : e.opc = 0) :
    (x.padded now e).cons = 0 ∧ (x.padded now e).phase = (!x.phase) ∧ (x.flight = [] → (x.padded now e).head = 0 ∧ (x.padded now e).flight = []) := by
  obtain ⟨yf, -, -, -, -, ye, yk⟩ := Sq.take_parts he now x.cons (x.depth - x.cons) e
  rw [if_neg (by omega)] at yk
  refine ⟨yk.1, yk.2, fun hf => ?_⟩
  unfold Sq.padded Sq.release
  dsimp only
  rw [yf, hf, ye, ← yk.1]
  simp [flightOf, ho]

theorem exec_pad (hx : SMap.get? (s.ring m).sqs q.toNat = some x) (hm : s.mgrOn m = true)
    (hcon : s.consumes { mgr := m, sq := q, cid := 0 } = true) (hcc : s.dev.ccAbsent = false) (hf : x.fault = false) (hdl : x.deleting = false)
    (ho : (entryOf units).opc = 0) (hd : s.dmaUp m = true) (hp : x.posted units 0 1 = true) :
    exec (.pad m q units) s = .next ((s.served m q.toNat x.class).putSq m q.toNat (x.padded s.now (entryOf units))) := by
  refine congrArg Host.Outcome.next ?_
  rw [hx]
  exact (if_neg (by rw [hm, hcon, hf, hdl, hcc, ho]; decide)).trans ((if_neg (by rw [hd]; decide)).trans (if_neg (by rw [hp]; decide)))

theorem exec_bulkAgeing (hx : SMap.get? (s.ring m).sqs q.toNat = some x) (hc : x.cls = 0) (hw : x.waiting ≠ 0) (hf : x.fault = false) :
    exec (.bulkAgeing m q) s = .next ((s.until (x.waitFrom + 10000000)).putSq m q.toNat { x with promoted := true }) := by
  refine congrArg Host.Outcome.next ?_
  rw [hx]
  exact if_pos (by simp [hc, hw, hf])

theorem exec_sqPhaseReread (hx : SMap.get? (s.ring m).sqs q.toNat = some x) {at_ : Nat} {rest : List Nat} (hr : x.rereads = at_ :: rest)
    (hf : x.fault = false) (hd : s.dmaUp m = true) : exec (.sqPhaseReread m q units) s = .next ((s.until at_).putSq m q.toNat
      (if x.posted units 0 (min (entryOf units).units (x.depth - x.cons)) then { x with held := false, rereads := [] }
       else { x with rereads := rest })) := by
  refine congrArg Host.Outcome.next ?_
  rw [hx]
  dsimp only
  rw [hr]
  refine (if_neg (by rw [hf]; decide)).trans ((if_neg (by rw [show (s.until at_).dmaUp m = s.dmaUp m from rfl, hd]; decide)).trans ?_)
  split
  · rfl
  · rfl

end

/-! ## Interrupts (R224, R252) -/

theorem State.msix_frame' (s : State) (m : Mgr) (v : Nat) : Frame [.views] s (s.msix m v) := State.msix_frame (Frame.refl _ s) (by decide)

/-- A vector that is signalled. -/
theorem State.msix_view (s : State) (m : Mgr) (vec : Nat) : (s.msix m vec).view m =
    (if !(s.view m).cfg.msixEn then s.view m
     else if ((SMap.get? (s.view m).msix vec).getD MsixEntry.fresh).masked || !(s.view m).cfg.signals then
       { s.view m with msix := SMap.put (s.view m).msix vec { (SMap.get? (s.view m).msix vec).getD MsixEntry.fresh with pend := true } }
     else { s.view m with out := (s.view m).out ++ [.msix vec] }) := by
  unfold State.msix
  rw [State.view_modView, if_pos rfl]

/-- A vector that software has written is signalled, left pending, or, while MSI-X is disabled, neither. -/
theorem State.msix_effect (s : State) (m : Mgr) {vec : Nat} {v : MsixEntry} (hv : SMap.get? (s.view m).msix vec = some v) :
    if (s.view m).cfg.msixEn = false then (s.msix m vec).view m = s.view m
    else if v.masked = true ∨ (s.view m).cfg.signals = false then
      SMap.get? ((s.msix m vec).view m).msix vec = some { v with pend := true } ∧ ((s.msix m vec).view m).out = (s.view m).out
    else ((s.msix m vec).view m).out = (s.view m).out ++ [.msix vec] := by
  rw [State.msix_view, hv, Option.getD_some]
  split
  · next h => rw [if_pos (by rw [h]; rfl)]
  · next h =>
    rw [if_neg (c := (!(s.view m).cfg.msixEn) = true) (by simpa using h)]
    split
    · next hk =>
      rw [if_pos (by simpa using hk)]
      exact ⟨SMap.get?_put_self _ _ _, rfl⟩
    · next hk => rw [if_neg (by simpa using hk)]

/-- A message stays in the memory. -/
theorem State.msix_mem {s : State} {m : Mgr} {x : Output} (vec : Nat) (h : x ∈ (s.view m).out) : x ∈ ((s.msix m vec).view m).out := by
  rw [State.msix_view]
  split
  · exact h
  · split
    · exact h
    · exact List.mem_append_left _ h

/-- When a CQ signals. -/
theorem Cq.signals_at {c : Cq} (h : c.ien = true ∧ c.unsignalled ≠ 0 ∧ c.fault = false) :
    (if c.fault then none else c.signalAt) = some (if c.coalN ≠ 0 ∧ c.coalN ≤ c.unsignalled then 0 else c.firstAt + c.coalUs * 1000) := by
  obtain ⟨hi, hu, hf⟩ := h
  unfold Cq.signalAt
  rw [if_neg (by rw [hf]; decide), if_neg (by simp [hi, hu])]
  by_cases hn : c.coalN ≠ 0 ∧ c.coalN ≤ c.unsignalled
  · rw [if_pos (by simpa using hn), if_pos hn]
  · rw [if_neg (by simpa using hn), if_neg hn]
    rfl

theorem Cq.signals_never {c : Cq} (h : ¬ (c.ien = true ∧ c.unsignalled ≠ 0 ∧ c.fault = false)) :
    (if c.fault then none else c.signalAt) = none := by
  cases hf : c.fault
  · rw [if_neg (by decide)]
    unfold Cq.signalAt
    refine if_pos ?_
    by_cases hi : c.ien = true
    · have hu : c.unsignalled = 0 := not_not.mp fun hu => h ⟨hi, hu, hf⟩
      simp [hu]
    · simp [hi]
  · exact if_pos rfl

/-- The interrupt of a CQ at its coalescing time. -/
theorem exec_cqInterrupt {s : State} {m : Mgr} {q : Byte} {c : Cq} (hc : SMap.get? (s.ring m).cqs q.toNat = some c) :
    ∃ t, exec (.cqInterrupt m q) s = .next t ∧
      (if c.ien = true ∧ c.unsignalled ≠ 0 ∧ c.fault = false then
        t.now = max s.now (if c.coalN ≠ 0 ∧ c.coalN ≤ c.unsignalled then 0 else c.firstAt + c.coalUs * 1000) ∧
        SMap.get? (t.ring m).cqs q.toNat = some { c with unsignalled := 0 } ∧
        ∀ v, SMap.get? (s.view m).msix c.vector = some v →
          if (s.view m).cfg.msixEn = false then t.view m = s.view m
          else if v.masked = true ∨ (s.view m).cfg.signals = false then
            SMap.get? (t.view m).msix c.vector = some { v with pend := true } ∧ (t.view m).out = (s.view m).out
          else (t.view m).out = (s.view m).out ++ [.msix c.vector]
       else t = s) := by
  by_cases h : c.ien = true ∧ c.unsignalled ≠ 0 ∧ c.fault = false
  · have he : exec (.cqInterrupt m q) s = .next (((s.until (if c.coalN ≠ 0 ∧ c.coalN ≤ c.unsignalled then 0 else
        c.firstAt + c.coalUs * 1000)).putCq m q.toNat { c with unsignalled := 0 }).msix m c.vector) := by
      refine congrArg Host.Outcome.next ?_
      rw [hc]
      dsimp only
      rw [Cq.signals_at h]
    refine ⟨_, he, ?_⟩
    rw [if_pos h]
    refine ⟨rfl, ?_, fun v hv => ?_⟩
    · refine (congrArg (fun r : PerMgr Ring => SMap.get? (r.get m).cqs q.toNat) (State.msix_frame' _ m c.vector .rings (by decide))).trans ?_
      unfold State.putCq
      exact (congrArg (fun r : Ring => SMap.get? r.cqs q.toNat) ((State.ring_modRing _ m _ m).trans (if_pos rfl))).trans
        (SMap.get?_put_self _ _ _)
    · exact State.msix_effect ((s.until (if c.coalN ≠ 0 ∧ c.coalN ≤ c.unsignalled then 0 else c.firstAt + c.coalUs * 1000)).putCq m q.toNat
        { c with unsignalled := 0 }) m hv
  · refine ⟨s, congrArg Host.Outcome.next ?_, ?_⟩
    · rw [hc]
      dsimp only
      rw [Cq.signals_never h]
    · rw [if_neg h]

/-! ## Event slots (R221) -/

/-- A slot that may be written now. -/
def slotDue (now : Nat) (y : EvtSlot) : Prop := coalesced y.ev.code = false ∨ y.time + 1000000 ≤ now

theorem slotDue_iff (now : Nat) (y : EvtSlot) : (!coalesced y.ev.code || decide (y.time + msec ≤ now)) = true ↔ slotDue now y := by
  unfold slotDue
  simp only [Bool.or_eq_true, Bool.not_eq_true', decide_eq_true_eq]
  rfl

/-- The oldest slot is the one written where it is due, or none is. -/
theorem oldest_written {slots : List EvtSlot} {x : EvtSlot} {now : Nat} (hx : slots.head? = some x)
    (hd : slotDue now x ∨ ∀ y ∈ slots, ¬ slotDue now y) :
    ((slots.find? fun x => !coalesced x.ev.code || decide (x.time + msec ≤ now)).orElse fun _ => slots.head?) = some x := by
  obtain ⟨l, rfl⟩ : ∃ l, slots = x :: l := by
    cases slots with
    | nil => exact absurd hx (by simp)
    | cons y l => exact ⟨l, by rw [Option.some.inj hx]⟩
  by_cases h : slotDue now x
  · rw [List.find?_cons_of_pos (p := fun x : EvtSlot => !coalesced x.ev.code || decide (x.time + msec ≤ now)) ((slotDue_iff now x).mpr h)]
    rfl
  · rw [List.find?_eq_none.mpr fun y hy => fun hc => hd.resolve_left h y hy ((slotDue_iff now y).mp hc)]
    rfl

/-- The completion queue of events with one more slot; one that cannot wait is signalled with it. -/
def Cq.slotted (c : Cq) (now : Nat) (atOnce : Bool) : Cq := if atOnce then { c.advance now with unsignalled := 0 } else c.advance now

/-- A slot x in place c.tail of the event CQ k. -/
def State.slotWritten (s : State) (m : Mgr) (k : Byte) (c : Cq) (x : EvtSlot) (d : Cq) : State :=
  (s.modRing m fun r => { r with slots := r.slots.filter fun y => y ≠ x, cqs := SMap.put r.cqs k.toNat d }).modView m
    fun v => { v with out := v.out ++ [.eventEntry k c.tail x c.phase] }

theorem State.slotWritten_parts (s : State) (m : Mgr) (k : Byte) (c : Cq) (x : EvtSlot) (d : Cq) :
    let t := s.slotWritten m k c x d
    .eventEntry k c.tail x c.phase ∈ (t.view m).out ∧ (t.ring m).slots = (s.ring m).slots.filter (fun y => y ≠ x) ∧
      t.now = s.now ∧ SMap.get? (t.ring m).cqs k.toNat = some d := by
  refine ⟨?_, ?_, rfl, ?_⟩
  · unfold State.slotWritten
    rw [State.view_modView, if_pos rfl]
    exact List.mem_append_right _ (List.mem_singleton_self _)
  · unfold State.slotWritten
    rw [State.ring_modView, State.ring_modRing, if_pos rfl]
  · unfold State.slotWritten
    rw [State.ring_modView, State.ring_modRing, if_pos rfl, SMap.get?_put_self]

/-- The oldest slot that is due goes to the event CQ. -/
theorem exec_eventSlotWrite {s : State} {m : Mgr} {k : Byte} {c : Cq} {x : EvtSlot} (hk : (s.ring m).evtCq = some k)
    (hc : SMap.get? (s.ring m).cqs k.toNat = some c) (hf : c.fault = false) (h0 : c.free ≠ 0) (hr : (s.ring m).rdy = true)
    (hd : s.dmaUp m = true) (hx : (s.ring m).slots.head? = some x)
    (hdue : slotDue s.now x ∨ ∀ y ∈ (s.ring m).slots, ¬ slotDue s.now y) :
    ∃ t, exec (.eventSlotWrite m) s = .next t ∧ .eventEntry k c.tail x c.phase ∈ (t.view m).out ∧
      (t.ring m).slots = (s.ring m).slots.filter (fun y => y ≠ x) ∧
      t.now = (if coalesced x.ev.code then max s.now (x.time + 1000000) else s.now) ∧
      ∃ d, SMap.get? (t.ring m).cqs k.toNat = some d ∧ d.tail = (if c.tail + 1 = c.depth then 0 else c.tail + 1) ∧ d.head = c.head := by
  let u : State := if coalesced x.ev.code then s.until (x.time + msec) else s
  have hu : u.ring m = s.ring m ∧ u.view m = s.view m ∧
      u.now = (if coalesced x.ev.code then max s.now (x.time + 1000000) else s.now) := by
    show (ite _ _ _ : State).ring m = _ ∧ (ite _ _ _ : State).view m = _ ∧ (ite _ _ _ : State).now = _
    split
    · exact ⟨rfl, rfl, rfl⟩
    · exact ⟨rfl, rfl, rfl⟩
  have he : exec (.eventSlotWrite m) s = .next (if urgentEvent x.ev.code && c.ien then
      (u.slotWritten m k c x (c.slotted u.now (urgentEvent x.ev.code && c.ien))).msix m c.vector
      else u.slotWritten m k c x (c.slotted u.now (urgentEvent x.ev.code && c.ien))) := by
    refine congrArg Host.Outcome.next ?_
    dsimp only
    rw [hk, oldest_written hx hdue]
    dsimp only
    rw [hc]
    exact (if_neg (by simp [hf, h0, hr])).trans (if_neg (by rw [hd]; decide))
  obtain ⟨h1, h2, h3, h4⟩ := u.slotWritten_parts m k c x (c.slotted u.now (urgentEvent x.ev.code && c.ien))
  have hd : (c.slotted u.now (urgentEvent x.ev.code && c.ien)).tail = (if c.tail + 1 = c.depth then 0 else c.tail + 1) ∧
      (c.slotted u.now (urgentEvent x.ev.code && c.ien)).head = c.head := by
    unfold Cq.slotted
    split
    · exact ⟨rfl, rfl⟩
    · exact ⟨rfl, rfl⟩
  rw [hu.1] at h2
  refine ⟨_, he, ?_⟩
  generalize u.slotWritten m k c x (c.slotted u.now (urgentEvent x.ev.code && c.ien)) = w at *
  split
  · have hr := State.msix_frame' w m c.vector .rings (by decide)
    refine ⟨State.msix_mem _ h1, ?_, h3.trans hu.2.2, _, ?_, hd⟩
    · exact (congrArg (fun r : PerMgr Ring => (r.get m).slots) hr).trans h2
    · exact (congrArg (fun r : PerMgr Ring => SMap.get? (r.get m).cqs k.toNat) hr).trans h4
  · exact ⟨h1, h2, h3.trans hu.2.2, _, h4, hd⟩

end Sys2Proof.Machine
end


section
/-! SUPPORT. Faults of queues (R239, R254). -/

namespace Sys2Proof.Machine

open Sys2Proof

/-- The value at a key of a map whose values have changed, but not their keys. -/
theorem SMap.get?_map {α : Type} (m : SMap α) {f : Nat × α → Nat × α} (hf : ∀ e, (f e).1 = e.1) (a : Nat) :
    SMap.get? (m.map f) a = (SMap.get? m a).map fun v => (f (a, v)).2 := by
  induction m with
  | nil => rfl
  | cons e m ih =>
    obtain ⟨k, v⟩ := e
    rw [List.map_cons]
    rcases hk : f (k, v) with ⟨k', v'⟩
    have hkk : k' = k := by
      have := hf (k, v)
      rw [hk] at this
      exact this
    subst hkk
    unfold SMap.get?
    by_cases h : k' = a
    · subst h
      rw [if_pos rfl, if_pos rfl, Option.map_some, hk]
    · rw [if_neg h, if_neg h]
      exact ih

/-- A half with queue q in fault. -/
def Ring.faulted (r : Ring) (q : Byte) (sq : Bool) : Ring :=
  { r with
    sqs := r.sqs.map fun e => if (sq && e.1 = q.toNat) || (!sq && e.2.cq = q) then (e.1, { e.2 with fault := true }) else e,
    cqs := r.cqs.map fun e => if !sq && e.1 = q.toNat then (e.1, { e.2 with fault := true }) else e,
    fatal := r.fatal || q = 0, errQid := q, errSq := sq, errReason := 6 }

/-- An event changes of a half its slots, and the count of events lost. -/
theorem raiseAt_parts (now : Nat) (e : Event) (r : Ring) : ∃ sl n, raiseAt now e r = { r with slots := sl, evtLost := n } := by
  unfold raiseAt
  split
  · exact ⟨_, _, rfl⟩
  · split
    · exact ⟨_, _, rfl⟩
    · split
      · exact ⟨_, _, rfl⟩
      · exact ⟨_, _, rfl⟩

theorem State.queueFault_ring (s : State) (m : Mgr) (q : Byte) (sq : Bool) :
    ∃ sl n, (s.queueFault m q sq).ring m = { (s.ring m).faulted q sq with slots := sl, evtLost := n } := by
  unfold State.queueFault
  cases m
  · exact raiseAt_parts _ _ _
  · exact raiseAt_parts _ _ _

/-- The half after a DMA failure on one of its queues. -/
theorem State.ringFault_parts (s : State) (m : Mgr) (q : Byte) (sq : Bool) (kind : BitVec 3) (addr : DWord) :
    let t := (s.ringDmaFailed m kind addr).queueFault m q sq
    Frame [.rings, .views] s t ∧ t.view m = (s.dmaFailed m kind addr).view m ∧
      ∃ sl n, t.ring m = { ({ s.ring m with dmaErr := satInc (s.ring m).dmaErr } : Ring).faulted q sq with slots := sl, evtLost := n } := by
  refine ⟨State.queueFault_frame (State.ringDmaFailed_frame (Frame.refl _ s) (by decide)) (by decide), ?_, ?_⟩
  · exact congrArg (PerMgr.get · m) (State.queueFault_frame (Frame.refl [.rings] (s.ringDmaFailed m kind addr)) (Field.sub_refl _) .views (by decide))
  · obtain ⟨sl, n, h⟩ := (s.ringDmaFailed m kind addr).queueFault_ring m q sq
    refine ⟨sl, n, h.trans ?_⟩
    rw [show (s.ringDmaFailed m kind addr).ring m = { s.ring m with dmaErr := satInc (s.ring m).dmaErr } by cases m <;> rfl]

theorem exec_ringDmaFault {s : State} {m : Mgr} {q : Byte} {f : RingFault}
    (h : (if f.sq then (SMap.get? (s.ring m).sqs q.toNat).isSome else (SMap.get? (s.ring m).cqs q.toNat).isSome) = true) :
    exec (.ringDmaFault m q f) s = .next ((s.ringDmaFailed m f.kind f.addr).queueFault m q f.sq) :=
  congrArg Host.Outcome.next (if_pos h)

/-- A DMA failure on a submission queue (R239). -/
theorem sq_faulted {s : State} {m : Mgr} {q : Byte} {x : Sq} (kind : BitVec 3) (addr : DWord)
    (hx : SMap.get? (s.ring m).sqs q.toNat = some x) : ∃ t, exec (.ringDmaFault m q ⟨true, kind, addr⟩) s = .next t ∧
      Frame [.rings, .views] s t ∧ t.view m = (s.dmaFailed m kind addr).view m ∧
      SMap.get? (t.ring m).sqs q.toNat = some { x with fault := true } ∧ (t.ring m).cqs = (s.ring m).cqs ∧
      (t.ring m).dmaErr = satInc (s.ring m).dmaErr ∧ (t.ring m).errQid = q ∧ (t.ring m).errSq = true ∧ (t.ring m).errReason = 6 ∧
      ((t.ring m).fatal = true ↔ (s.ring m).fatal = true ∨ q = 0) := by
  obtain ⟨h1, h2, sl, n, h3⟩ := s.ringFault_parts m q true kind addr
  refine ⟨_, exec_ringDmaFault (f := ⟨true, kind, addr⟩) (by rw [hx]; rfl), h1, h2, ?_⟩
  rw [h3]
  refine ⟨?_, ?_, rfl, rfl, rfl, rfl, by simp [Ring.faulted]⟩
  · unfold Ring.faulted
    dsimp only
    rw [SMap.get?_map _ (by intro e; split <;> rfl), hx]
    simp
  · unfold Ring.faulted
    simp

/-- A DMA failure on a completion queue takes its submission queues with it (R239). -/
theorem cq_faulted {s : State} {m : Mgr} {q : Byte} {c : Cq} (kind : BitVec 3) (addr : DWord)
    (hc : SMap.get? (s.ring m).cqs q.toNat = some c) : ∃ t, exec (.ringDmaFault m q ⟨false, kind, addr⟩) s = .next t ∧
      Frame [.rings, .views] s t ∧ t.view m = (s.dmaFailed m kind addr).view m ∧
      SMap.get? (t.ring m).cqs q.toNat = some { c with fault := true } ∧ (t.ring m).errSq = false ∧
      (∀ i x, SMap.get? (s.ring m).sqs i = some x → SMap.get? (t.ring m).sqs i = some { x with fault := x.fault || decide (x.cq = q) }) ∧
      ((t.ring m).fatal = true ↔ (s.ring m).fatal = true ∨ q = 0) := by
  obtain ⟨h1, h2, sl, n, h3⟩ := s.ringFault_parts m q false kind addr
  refine ⟨_, exec_ringDmaFault (f := ⟨false, kind, addr⟩) (by rw [if_neg (show ¬ false = true by decide), hc]; rfl), h1, h2, ?_⟩
  rw [h3]
  refine ⟨?_, rfl, fun i x hx => ?_, by simp [Ring.faulted]⟩
  · unfold Ring.faulted
    dsimp only
    rw [SMap.get?_map _ (by intro e; split <;> rfl), hc]
    simp
  · unfold Ring.faulted
    dsimp only
    rw [SMap.get?_map _ (by intro e; split <;> rfl), hx]
    by_cases hq : x.cq = q
    · simp [hq]
    · simp [hq]

/-- An answer's completion, and its bytes (R217, R219). -/
theorem delivered_parts {s : State} {src : Src} {x : Sq} {c : Cq} (a : Answer)
    (hx : SMap.get? (s.ring src.mgr).sqs src.sq.toNat = some x) (hc : SMap.get? (s.ring src.mgr).cqs x.cq.toNat = some c)
    (hdl : x.deleting = false) (hi : (s.inFlight? src).isSome = true) (hf : c.fault = false) (hd : s.dmaUp src.mgr = true) :
    let t := s.deliver src a
    ∃ z y, .completion x.cq c.tail z ∈ (t.view src.mgr).out ∧ z.cid = src.cid ∧ z.sqid.toNat = src.sq.toNat ∧ z.status = a.st ∧
      z.more = a.more ∧ z.info = BitVec.ofNat 32 a.info ∧ z.result = (a.result ++ List.replicate 16 0).take 16 ∧ z.phase = c.phase ∧
      SMap.get? (t.ring src.mgr).sqs src.sq.toNat = some y ∧ z.sqhd = BitVec.ofNat 16 y.head ∧ y.cons = x.cons ∧
      ∃ d, SMap.get? (t.ring src.mgr).cqs x.cq.toNat = some d ∧ d.tail = (if c.tail + 1 = c.depth then 0 else c.tail + 1) ∧
        d.phase = (if c.tail + 1 = c.depth then !c.phase else c.phase) ∧ d.reserved = c.reserved - 1 ∧
        (∀ b, a.data = some b → .buffer src.sq src.cid b ∈ (t.view src.mgr).out) := by
  obtain ⟨h1, h2, h3, -⟩ := State.deliver_posted a hx hc hdl hf hd
  have hfl : (s.withBytes src a).inFlight? src = s.inFlight? src := by
    unfold State.inFlight?
    rw [show (s.withBytes src a).ring src.mgr = s.ring src.mgr from
      congrArg (PerMgr.get · src.mgr) ((s.withBytes_kept src a) .rings (by decide))]
  rw [hfl, hi] at h3
  obtain ⟨k1, k2, k3⟩ := c.served_parts (s.withBytes src a).now
  refine ⟨completionOf src x c a.st a.info a.result a.more, x.completed src.cid, ?_, rfl, ?_, rfl, rfl, rfl, rfl, rfl, h2, rfl,
    (x.completed_kept src.cid).2.1, _, h3, k1, k2, k3, fun b hb => State.deliver_buffer hb hd⟩
  · rw [h1]
    exact List.mem_append_right _ (List.mem_singleton_self _)
  · show (src.sq.zeroExtend 16).toNat = _
    rw [BitVec.toNat_setWidth]
    exact Nat.mod_eq_of_lt (Nat.lt_trans src.sq.isLt (by decide))

end Sys2Proof.Machine

namespace Sys2Proof

open Sys2Proof.Machine

/-- Settles O50: the entry whose turn it is, PAD, the re-read, completions, event slots, interrupts and faults, one by one. -/
theorem queuesAreConsumedAndAnswered : Obligations.QueuesAreConsumedAndAnswered := by
  unfold Obligations.QueuesAreConsumedAndAnswered
  intro s m q units r e
  refine ⟨fun x hx => ⟨fun hm hcon hcc hp he hf hdl hcr hu ho => ?_, fun hm hcon hcc he hf hdl ho hd hp hc => ?_,
    fun hc hw hf => exec_bulkAgeing hx hc hw hf, fun at_ rest hr hf hd => exec_sqPhaseReread hx hr hf hd⟩,
    fun src a x c hx hc hdl hi hf hd => ?_, fun k c x hk hc hf h0 hr hd hx hdue => exec_eventSlotWrite hk hc hf h0 hr hd hx hdue,
    fun c hc => exec_cqInterrupt hc, fun x kind addr hx => sq_faulted kind addr hx, fun c kind addr hc => cq_faulted kind addr hc,
    fun kind addr who hm hw => ?_⟩
  · have ht : s.turnOf m q x := ⟨hx, hm, hcon, hcc, hp, hf, hdl, hcr, hu⟩
    have hex := exec_sqEntryConsume ht units
    refine ⟨fun hd => ?_, fun hd hpo hfe => ?_, fun hd => ⟨s.consume m q.toNat x units, ?_, fun hpo => ?_, fun hpo hfe => ?_⟩⟩
    · rw [hex, hd]
      rfl
    · rw [hex, hd, if_pos rfl, State.consume_fenced hpo ho hfe]
    · rw [hex, hd, if_pos rfl]
    · rw [State.consume_held hpo]
      refine ⟨State.holdSq_frame (Frame.refl _ s) (by decide), ?_⟩
      unfold State.holdSq State.putSq
      rw [State.ring_modRing, if_pos rfl, SMap.get?_put_self]
      rfl
    · obtain ⟨y, h1, ⟨h2, h3⟩, h4, h5, h6⟩ := consumed_parts hx he hdl hcr hd ho hpo hfe
      exact ⟨y, h1, h2, h3, h4, h5, h6⟩
  · obtain ⟨h1, h2, h3⟩ := Sq.padded_parts he hc s.now ho
    refine ⟨_, exec_pad hx hm hcon hcc hf hdl ho hd hp,
      State.putSq_frame (State.served_frame (Frame.refl _ s) (by decide)) (by decide), ?_, _, ?_, h1, h2, h3⟩
    · unfold State.putSq
      rw [State.ring_modRing, if_pos rfl]
      exact congrArg (fun r : PerMgr Ring => (r.get m).cqs) (s.served_rings m q.toNat x.class)
    · unfold State.putSq
      rw [State.ring_modRing, if_pos rfl, SMap.get?_put_self]
  · exact delivered_parts a hx hc hdl hi hf hd
  · obtain ⟨t, h1, ⟨h2, h3, h4, h5⟩, h6⟩ := exec_dmaFailure kind addr who hm hw
    exact ⟨t, h1, h2, h3, h4, h5, h6⟩

end Sys2Proof
end


section
/-! SUPPORT. The queue commands, the features and the logs (R226, R229, R231 to R234). -/

namespace Sys2Proof.Machine

open Sys2Proof

/-! ## A command that makes no commit of its own -/

/-- Where the command has made no ledger commit, its answer is the whole of its end. -/
theorem State.answered_led {s u : State} (h : u.led = s.led) (src : Src) (a : Answer) :
    (u.deliver src a).noteCommit s src = u.deliver src a :=
  if_pos (congrArg Ledger.commits ((State.deliver_led _ _ _).trans h))

/-- A taken command runs its own rules. -/
theorem exec_own {s : State} {src : Src} {c : Instr} {g : Gate} {body : State → State} (ha : s.allows c)
    (hg : c.gate = some (src, g)) (hx : exec c s = .next (s.ovdel src g body)) : exec c s = .next ((body s).noteCommit s src) := by
  rw [hx, State.ovdel_takes body (ha src g hg)]

/-- A taken command whose own rules answer a from a state u that has made no commit. -/
theorem exec_answers {s u : State} {src : Src} {c : Instr} {g : Gate} {body : State → State} {a : Answer} (ha : s.allows c)
    (hg : c.gate = some (src, g)) (hx : exec c s = .next (s.ovdel src g body)) (hb : body s = u.deliver src a) (hl : u.led = s.led) :
    exec c s = .next (u.deliver src a) := by
  rw [exec_own ha hg hx, hb, State.answered_led hl]

/-! ## CREATE_CQ and CREATE_SQ -/

theorem State.badCq_eq (s : State) (m : Mgr) (f : CqFields) : s.badCq m f =
    if f.qid = 0 ∨ 255 < f.qid.toNat ∨ (SMap.get? (s.ring m).cqs f.qid.toNat).isSome then some 8
    else if f.depth < 16 ∨ 4096 < f.depth then some 10
    else if 512 ≤ f.vector then some 12
    else if f.base.toNat % 4096 ≠ 0 then some 16
    else if 255 < f.coalN then some 24
    else if 1000 < f.coalUs then some 26
    else none := by
  unfold State.badCq
  simp only [Bool.or_eq_true, decide_eq_true_eq, or_assoc]

/-- A refusal with the field at fault, else the work done. -/
def State.orField (s : State) (src : Src) (good : State) (o : Option Nat) : State :=
  match o with
  | some off => s.deliver src (ans stInvalidField off)
  | none => good

theorem exec_orField {s u : State} {src : Src} {c : Instr} {g : Gate} {body : State → State} {o : Option Nat} (ha : s.allows c)
    (hg : c.gate = some (src, g)) (hx : exec c s = .next (s.ovdel src g body)) (hb : body s = s.orField src (u.deliver src okAns) o)
    (hl : u.led = s.led) : exec c s = .next (s.orField src (u.deliver src okAns) o) := by
  rw [exec_own ha hg hx, hb]
  cases o with
  | none =>
    show Host.Outcome.next ((u.deliver src okAns).noteCommit s src) = .next (u.deliver src okAns)
    rw [State.answered_led hl]
  | some off =>
    show Host.Outcome.next ((s.deliver src (ans stInvalidField off)).noteCommit s src) = .next (s.deliver src (ans stInvalidField off))
    rw [State.answered_led rfl]

/-- CREATE_CQ (R232). -/
theorem exec_createCq {s : State} {src : Src} {f : CqFields} (ha : s.allows (.createCq src f)) :
    let refuse := fun (off : Nat) => (Host.Outcome.next (s.deliver src (ans stInvalidField off)) : Out)
    exec (.createCq src f) s =
      (if f.qid = 0 ∨ 255 < f.qid.toNat ∨ (SMap.get? (s.ring src.mgr).cqs f.qid.toNat).isSome then refuse 8
       else if f.depth < 16 ∨ 4096 < f.depth then refuse 10
       else if 512 ≤ f.vector then refuse 12
       else if f.base.toNat % 4096 ≠ 0 then refuse 16
       else if 255 < f.coalN then refuse 24
       else if 1000 < f.coalUs then refuse 26
       else .next ((s.putCq src.mgr f.qid.toNat (Cq.fresh f.depth f.base f.vector f.ien f.event f.coalN f.coalUs)).deliver src okAns)) := by
  rw [exec_orField (o := s.badCq src.mgr f)
    (u := s.putCq src.mgr f.qid.toNat (Cq.fresh f.depth f.base f.vector f.ien f.event f.coalN f.coalUs)) ha rfl rfl rfl rfl, s.badCq_eq]
  simp only [apply_ite (s.orField src _), apply_ite Host.Outcome.next]
  rfl

theorem State.badSq_eq (s : State) (m : Mgr) (f : SqFields) : s.badSq m f =
    if f.qid = 0 ∨ 255 < f.qid.toNat ∨ (SMap.get? (s.ring m).sqs f.qid.toNat).isSome then some 8
    else if f.depth < 16 ∨ 4096 < f.depth then some 10
    else match SMap.get? (s.ring m).cqs f.cqid.toNat with
      | none => some 12
      | some c =>
        if c.event = true then some 12
        else if 2 < f.cls.toNat then some 14
        else if f.base.toNat % 4096 ≠ 0 then some 16
        else none := by
  unfold State.badSq
  simp only [Bool.or_eq_true, decide_eq_true_eq, or_assoc]
  congr 2
  cases SMap.get? (s.ring m).cqs f.cqid.toNat with
  | none => rfl
  | some c => rfl

/-- The new submission queue of CREATE_SQ. -/
def freshSq (f : SqFields) (faulty : Bool) : Sq :=
  { Sq.fresh f.depth f.base (f.cqid.truncate 8) (BitVec.ofNat 2 f.cls.toNat) with fault := faulty }

/-- CREATE_SQ (R232). -/
theorem exec_createSq {s : State} {src : Src} {f : SqFields} (ha : s.allows (.createSq src f)) :
    ∃ t, exec (.createSq src f) s = .next t ∧
      (let bad := fun (off : Nat) => t = s.deliver src (ans stInvalidField off)
       if f.qid = 0 ∨ 255 < f.qid.toNat ∨ (SMap.get? (s.ring src.mgr).sqs f.qid.toNat).isSome then bad 8
       else if f.depth < 16 ∨ 4096 < f.depth then bad 10
       else match SMap.get? (s.ring src.mgr).cqs f.cqid.toNat with
         | none => bad 12
         | some c =>
           if c.event = true then bad 12
           else if 2 < f.cls.toNat then bad 14
           else if f.base.toNat % 4096 ≠ 0 then bad 16
           else t = (s.putSq src.mgr f.qid.toNat (freshSq f c.fault)).deliver src okAns) := by
  refine ⟨_, exec_orField (o := s.badSq src.mgr f)
    (u := s.putSq src.mgr f.qid.toNat (freshSq f (match SMap.get? (s.ring src.mgr).cqs f.cqid.toNat with | some c => c.fault | none => false)))
    ha rfl rfl rfl rfl, ?_⟩
  rw [s.badSq_eq]
  dsimp only
  split
  · rfl
  · split
    · rfl
    · cases SMap.get? (s.ring src.mgr).cqs f.cqid.toNat with
      | none => rfl
      | some c =>
        dsimp only
        split
        · rfl
        · split
          · rfl
          · split
            · rfl
            · rfl

end Sys2Proof.Machine
end


section
/-! SUPPORT. DELETE_SQ (R232). -/

namespace Sys2Proof.Machine

open Sys2Proof

/-! ## What aborts and completions keep of a submission queue -/

/-- P holds of a queue that is gone, and a completion and a fault keep it. -/
structure SqStable (P : Option Sq → Prop) : Prop where
  none : P none
  completed : ∀ x cid, P (some x) → P (some (x.completed cid))
  fault : ∀ x b, P (some x) → P (some { x with fault := b })

/-- From s to t every submission queue keeps P. -/
def SqKept (P : Option Sq → Prop) (s t : State) : Prop := ∀ m k, P (SMap.get? (s.ring m).sqs k) → P (SMap.get? (t.ring m).sqs k)

section
variable {P : Option Sq → Prop}

theorem SqKept.refl (s : State) : SqKept P s s := fun _ _ h => h

theorem SqKept.comp {s t u : State} (h : SqKept P s t) (k : SqKept P t u) : SqKept P s u := fun m i hm => k m i (h m i hm)

theorem SqKept.of_sqs {s t : State} (h : ∀ m, (t.ring m).sqs = (s.ring m).sqs) : SqKept P s t := fun m k hk => by
  rw [h m]
  exact hk

theorem SqKept.of_rings {s t : State} (h : t.rings = s.rings) : SqKept P s t :=
  .of_sqs fun m => congrArg (fun r : PerMgr Ring => (r.get m).sqs) h

theorem SqKept.modRing {s t : State} {m : Mgr} {f : Ring → Ring} (h : SqKept P s t)
    (hf : ∀ k, P (SMap.get? (t.ring m).sqs k) → P (SMap.get? (f (t.ring m)).sqs k)) : SqKept P s (t.modRing m f) :=
  h.comp fun i k hk => by
    rw [State.ring_modRing]
    split
    · next hi =>
      subst hi
      exact hf k hk
    · exact hk

theorem SqKept.modView {s t : State} (h : SqKept P s t) (m : Mgr) (f : View → View) : SqKept P s (t.modView m f) :=
  h.comp (.of_rings rfl)

theorem SqKept.put_awaits {s t : State} (h : SqKept P s t) (w : List Await) : SqKept P s { t with awaits := w } :=
  h.comp (.of_rings rfl)

theorem SqKept.ringDmaFailed {s t : State} (h : SqKept P s t) (m : Mgr) (kind : BitVec 3) (addr : DWord) :
    SqKept P s (t.ringDmaFailed m kind addr) := SqKept.modRing (t := t.dmaFailed m kind addr) (h.comp (.of_rings rfl)) fun _ hk => hk

theorem raiseAt_sqs (now : Nat) (e : Event) (r : Ring) : (raiseAt now e r).sqs = r.sqs := by
  obtain ⟨sl, n, h⟩ := raiseAt_parts now e r
  rw [h]

theorem State.raise_sqs (s : State) (code ch : Nat) (data : List Nat) (m : Mgr) : ((s.raise code ch data).ring m).sqs = (s.ring m).sqs := by
  cases m
  · exact raiseAt_sqs _ _ _
  · exact raiseAt_sqs _ _ _

theorem SMap.get?_del_ne {α : Type} (m : SMap α) {a b : Nat} (h : b ≠ a) : SMap.get? (SMap.del m a) b = SMap.get? m b := by
  induction m with
  | nil => rfl
  | cons e m ih =>
    obtain ⟨k, v⟩ := e
    unfold SMap.del at ih ⊢
    by_cases hk : k = a
    · subst hk
      rw [List.filter_cons_of_neg (by simp), ih, SMap.get?, if_neg h.symm]
    · rw [List.filter_cons_of_pos (by simpa using hk), SMap.get?, SMap.get?, ih]

variable (hP : SqStable P)

include hP

theorem SqKept.queueFault {s t : State} {m : Mgr} {q : Byte} {sq : Bool} (h : SqKept P s t) : SqKept P s (t.queueFault m q sq) := by
  refine (h.modRing fun k hk => ?_).comp (.of_sqs fun i => State.raise_sqs _ _ _ _ i)
  rw [SMap.get?_map _ (by intro e; split <;> rfl)]
  cases hx : SMap.get? (t.ring m).sqs k with
  | none => exact hP.none
  | some x =>
    rw [hx] at hk
    rw [Option.map_some]
    split
    · exact hP.fault x true hk
    · exact hk

theorem SqKept.post {s t : State} {src : Src} {st : Status} {info : Nat} {result : List Byte} {more : Bool} (h : SqKept P s t) :
    SqKept P s (t.post src st info result more) := by
  refine h.comp ?_
  cases hx : SMap.get? (t.ring src.mgr).sqs src.sq.toNat with
  | none =>
    have he : t.post src st info result more = t := by
      unfold State.post
      dsimp only
      rw [hx]
    rw [he]
    exact SqKept.refl t
  | some x =>
    obtain ⟨opc, he⟩ := State.post_postTo st info result more hx
    obtain ⟨h1, h2, h3⟩ := (t.ring src.mgr).answered_parts t.now src x opc st info
    rw [he]
    generalize (t.ring src.mgr).answered t.now src x opc st info = r at *
    have hput (f : Ring → Ring) (hf : (f (t.ring src.mgr)).sqs = r.sqs) : SqKept P t (t.modRing src.mgr f) := by
      refine (SqKept.refl t).modRing fun k hk => ?_
      rw [hf, h1, SMap.get?_put]
      split
      · next hq =>
        subst hq
        rw [hx] at hk
        exact hP.completed x _ hk
      · exact hk
    unfold State.postTo
    split
    · exact hput _ rfl
    · dsimp only
      split
      · exact hput _ rfl
      · split
        · exact (hput _ rfl).modView _ _
        · exact SqKept.queueFault hP ((hput _ rfl).ringDmaFailed _ _ _)

theorem SqKept.reapSq {s t : State} {m : Mgr} {q : Nat} (h : SqKept P s t) : SqKept P s (t.reapSq m q) := by
  have hdel : SqKept P s (t.modRing m fun r => { r with sqs := SMap.del r.sqs q }) := h.modRing fun k hk => by
    by_cases hq : k = q
    · subst hq
      rw [SMap.get?_del]
      exact hP.none
    · rw [SMap.get?_del_ne _ hq]
      exact hk
  unfold State.reapSq
  dsimp only
  split
  · split
    · split
      · split
        · refine SqKept.post hP ?_
          exact hdel.put_awaits _
        · exact hdel.put_awaits _
        · exact hdel.put_awaits _
      · exact hdel
    · exact h
  · exact h

theorem SqKept.finish {s t : State} {src : Src} {st : Status} {info : Nat} {result : List Byte} {more : Bool} (h : SqKept P s t) :
    SqKept P s (t.finish src st info result more) := by
  refine SqKept.reapSq hP (SqKept.post hP ?_)
  exact h.comp (.of_rings rfl)

theorem SqKept.closes : Closes (SqKept P) where
  refl := SqKept.refl
  comp := SqKept.comp
  of_frame := fun h hf => .of_rings (h .rings (hf .rings (by decide)))
  finish := fun _ _ _ _ _ _ => SqKept.finish hP (SqKept.refl _)
  raise := fun _ _ _ _ => .of_sqs fun m => State.raise_sqs _ _ _ _ m
  drop := fun s _ => (SqKept.refl s).put_awaits _

end

/-! ## Waiters only go -/

/-- From s to t no waiter is added. -/
def NoNewAwaits (s t : State) : Prop := ∀ a ∈ t.awaits, a ∈ s.awaits

theorem NoNewAwaits.of_awaits {s t : State} (h : t.awaits = s.awaits) : NoNewAwaits s t := fun a ha => h ▸ ha

theorem NoNewAwaits.comp {s t u : State} (h : NoNewAwaits s t) (k : NoNewAwaits t u) : NoNewAwaits s u := fun a ha => h a (k a ha)

theorem State.post_awaits (s : State) (src : Src) (st : Status) (info : Nat) (result : List Byte) (more : Bool) :
    (s.post src st info result more).awaits = s.awaits :=
  State.post_frame (Frame.refl [.rings, .views] s) (Field.sub_refl _) .awaits (by decide)

theorem NoNewAwaits.finish (s : State) (src : Src) (st : Status) (info : Nat) (result : List Byte) (more : Bool) :
    NoNewAwaits s (s.finish src st info result more) := by
  have hp : ∀ u : State, u.awaits = s.awaits → NoNewAwaits s (u.post src st info result more) := fun u hu =>
    .of_awaits ((u.post_awaits src st info result more).trans hu)
  refine (hp { s with dev := { s.dev with idleSince := s.now } } rfl).comp ?_
  show NoNewAwaits _ (State.reapSq _ _ _)
  unfold State.reapSq
  dsimp only
  split
  · split
    · split
      · split
        · exact fun a ha => List.mem_of_mem_filter ((State.post_awaits _ _ _ _ _ _) ▸ ha)
        · exact fun a ha => List.mem_of_mem_filter ha
        · exact fun a ha => List.mem_of_mem_filter ha
      · exact .of_awaits rfl
    · exact .of_awaits rfl
  · exact .of_awaits rfl

theorem NoNewAwaits.closes : Closes NoNewAwaits where
  refl := fun _ => .of_awaits rfl
  comp := NoNewAwaits.comp
  of_frame := fun h hf => .of_awaits (h .awaits (hf .awaits (by decide)))
  finish := NoNewAwaits.finish
  raise := fun _ _ _ _ => .of_awaits rfl
  drop := fun _ _ _ ha => List.mem_of_mem_filter ha

/-! ## DELETE_SQ -/

/-- No command of an I/O queue waits for the end of a queue. -/
def State.OnAdmin (s : State) : Prop := ∀ a ∈ s.awaits, ∀ w k, a.who = .cmd w → a.kind = .delSq k → w.sq = 0

theorem State.OnAdmin.mono {s t : State} (h : NoNewAwaits s t) (hs : s.OnAdmin) : t.OnAdmin := fun a ha => hs a (h a ha)

/-- A rule of R233 for a command of an I/O queue: no DELETE_SQ is stopped. -/
theorem Closes.stopIo {R : State → State → Prop} (hC : Closes R) {s : State} (hs : s.OnAdmin) {src : Src} {info : Nat} (hsq : src.sq ≠ 0) :
    R s (s.stopCommand src info).1 :=
  hC.stopCommand (fun w hw hwho q hk => absurd (hs w hw src q hwho hk) hsq) (hC.refl s)

theorem SqKept.abortSq {P : Option Sq → Prop} (hP : SqStable P) {s : State} (hs : s.OnAdmin) {m : Mgr} {qid : Nat} (hq : BitVec.ofNat 8 qid ≠ 0) :
    SqKept P s (s.abortSq m qid) := by
  unfold State.abortSq
  split
  · next q hx =>
    clear hx
    unfold State.forAll
    induction q.flight.filter (fun f => !f.done) generalizing s with
    | nil => exact SqKept.refl s
    | cons f l ih =>
      exact (Closes.stopIo (SqKept.closes hP) hs hq).comp (ih (hs.mono (Closes.stopIo NoNewAwaits.closes hs hq)))
  · exact SqKept.refl s

theorem sqGone_stable : SqStable (· = none) where
  none := rfl
  completed := fun _ _ h => nomatch h
  fault := fun _ _ h => nomatch h

/-- A queue that is there is being deleted. -/
def SqDoomed (o : Option Sq) : Prop := ∀ y, o = some y → y.deleting = true

theorem sqDoomed_stable : SqStable SqDoomed where
  none := fun _ h => nomatch h
  completed := fun x _ h y hy => by
    cases hy
    exact h x rfl
  fault := fun x _ h y hy => by
    cases hy
    exact h x rfl

/-- A queue marked for deletion that carries nothing goes. -/
theorem State.reapSq_gone {s : State} {m : Mgr} {qid : Nat} {q : Sq} (hq : SMap.get? (s.ring m).sqs qid = some q) (hd : q.deleting = true)
    (hf : q.flight = []) : SMap.get? ((s.reapSq m qid).ring m).sqs qid = none := by
  have hdel : SMap.get? ((s.modRing m fun r => { r with sqs := SMap.del r.sqs qid }).ring m).sqs qid = none := by
    rw [State.ring_modRing, if_pos rfl]
    exact SMap.get?_del _ _
  have hc : (q.deleting && q.flight.isEmpty) = true := by rw [hd, hf]; rfl
  unfold State.reapSq
  dsimp only
  rw [hq]
  dsimp only
  rw [if_pos hc]
  split
  · split
    · exact SqKept.post sqGone_stable (SqKept.refl _) m qid hdel
    · exact hdel
    · exact hdel
  · exact hdel

/-- The state in which DELETE_SQ aborts the queue's commands: its queue is marked, and it waits. -/
def State.doomSq (s : State) (src : Src) (qid : Half) (q : Sq) : State :=
  (s.putSq src.mgr qid.toNat { q with deleting := true }).wait (.cmd src) 0 (.delSq qid.toNat)

theorem State.doomSq_self (s : State) (src : Src) (qid : Half) (q : Sq) :
    SMap.get? ((s.doomSq src qid q).ring src.mgr).sqs qid.toNat = some { q with deleting := true } := by
  show SMap.get? ((s.modRing src.mgr fun r => { r with sqs := SMap.put r.sqs qid.toNat { q with deleting := true } }).ring src.mgr).sqs qid.toNat = _
  rw [State.ring_modRing, if_pos rfl]
  exact SMap.get?_put_self _ _ _

theorem State.doomSq_onAdmin {s : State} {src : Src} (hs : s.OnAdmin) (h0 : src.sq = 0) (qid : Half) (q : Sq) : (s.doomSq src qid q).OnAdmin := by
  intro a ha w k hw hk
  rcases List.mem_append.1 ha with ha | ha
  · exact hs a ha w k hw hk
  · rw [List.mem_singleton.1 ha] at hw
    cases hw
    exact h0

theorem State.takes_sq {s : State} {src : Src} {g : Gate} (h : s.takes src g) (hg : g.queue = .admin) : src.sq = 0 := by
  obtain ⟨-, h, -⟩ := h
  by_contra hne
  unfold State.gateStatus at h
  rw [hg] at h
  split at h
  · cases h
  · rw [if_pos (show QueueKind.admin.wrong src.sq = true from decide_eq_true hne)] at h
    cases h

theorem State.noted_ring (t s : State) (src : Src) (m : Mgr) : (t.noteCommit s src).ring m = t.ring m :=
  congrArg (PerMgr.get · m) (State.noted_frame t s src .rings (by decide))

/-- DELETE_SQ (R232). -/
theorem exec_deleteSq {s : State} {src : Src} {qid : Half} (ha : s.allows (.deleteSq src qid)) :
    ∃ t, exec (.deleteSq src qid) s = .next t ∧
      (qid = 0 ∨ SMap.get? (s.ring src.mgr).sqs qid.toNat = none → t = s.deliver src (ans stInvalidField 8)) ∧
      ∀ q, SMap.get? (s.ring src.mgr).sqs qid.toNat = some q → qid ≠ 0 → qid.toNat ≤ 255 → s.OnAdmin →
        (q.flight = [] → SMap.get? (t.ring src.mgr).sqs qid.toNat = none) ∧
        (∀ y, SMap.get? (t.ring src.mgr).sqs qid.toNat = some y → y.deleting = true) := by
  refine ⟨_, exec_own ha rfl rfl, fun h => ?_, fun q hq h0 h255 hs => ?_⟩
  · cases hx : SMap.get? (s.ring src.mgr).sqs qid.toNat with
    | none =>
      dsimp only
      exact State.answered_alone _ _ _
    | some q =>
      dsimp only
      rw [if_pos (h.resolve_right (by simp [hx]))]
      exact State.answered_alone _ _ _
  · have hne : BitVec.ofNat 8 qid.toNat ≠ 0 := fun h => h0 (BitVec.eq_of_toNat_eq (by
      have := congrArg BitVec.toNat h
      rwa [BitVec.toNat_ofNat, Nat.mod_eq_of_lt (by omega)] at this))
    rw [hq]
    dsimp only
    rw [if_neg h0, State.noted_ring]
    have hself := s.doomSq_self src qid q
    refine ⟨fun hf => ?_, ?_⟩
    · show SMap.get? ((((s.doomSq src qid q).abortSq src.mgr qid.toNat).reapSq src.mgr qid.toNat).ring src.mgr).sqs qid.toNat = none
      have hab : (s.doomSq src qid q).abortSq src.mgr qid.toNat = s.doomSq src qid q := by
        unfold State.abortSq
        rw [hself]
        dsimp only
        rw [hf]
        rfl
      rw [hab]
      exact State.reapSq_gone hself rfl hf
    · have h1 := SqKept.abortSq sqDoomed_stable (m := src.mgr) (State.doomSq_onAdmin hs (State.takes_sq (ha _ _ rfl) rfl) qid q) hne
      refine (h1.reapSq sqDoomed_stable (m := src.mgr) (q := qid.toNat)) src.mgr qid.toNat ?_
      rw [hself]
      rintro y ⟨⟩
      rfl

end Sys2Proof.Machine
end


section
/-! SUPPORT. The other admin commands of a manager's half (R226, R231, R232, R233, R234) and O51. -/

namespace Sys2Proof.Machine

open Sys2Proof

/-! ## DELETE_CQ and SET_EVENT_RING -/

theorem exec_deleteCq {s : State} {src : Src} {qid : Half} (ha : s.allows (.deleteCq src qid)) :
    exec (.deleteCq src qid) s =
      (if qid = 0 ∨ SMap.get? (s.ring src.mgr).cqs qid.toNat = none then .next (s.deliver src (ans stInvalidField 8))
       else if (∃ e ∈ (s.ring src.mgr).sqs, e.2.cq.toNat = qid.toNat) ∨ ((s.ring src.mgr).evtCq.map fun k => k.toNat) = some qid.toNat then
         .next (s.deliver src (ans stBusy))
       else .next ((s.modRing src.mgr fun r => { r with cqs := SMap.del r.cqs qid.toNat }).deliver src okAns)) := by
  by_cases h1 : qid = 0 ∨ SMap.get? (s.ring src.mgr).cqs qid.toNat = none
  · rw [if_pos h1]
    exact exec_answers ha rfl rfl (if_pos (by simpa using h1)) rfl
  · rw [if_neg h1]
    by_cases h2 : (∃ e ∈ (s.ring src.mgr).sqs, e.2.cq.toNat = qid.toNat) ∨ ((s.ring src.mgr).evtCq.map fun k => k.toNat) = some qid.toNat
    · rw [if_pos h2]
      exact exec_answers ha rfl rfl ((if_neg (by simpa using h1)).trans
        (if_pos (by simpa only [Bool.or_eq_true, List.any_eq_true, decide_eq_true_eq] using h2))) rfl
    · rw [if_neg h2]
      exact exec_answers ha rfl rfl ((if_neg (by simpa using h1)).trans
        (if_neg (by simpa only [Bool.or_eq_true, List.any_eq_true, decide_eq_true_eq] using h2))) rfl

theorem exec_setEventRing {s : State} {src : Src} {qid : Half} {mask : Word} (ha : s.allows (.setEventRing src qid mask)) :
    exec (.setEventRing src qid mask) s =
      (let set := fun k => (Host.Outcome.next ((s.modRing src.mgr fun x => { x with evtCq := k, mask := mask.truncate 8 }).deliver src okAns) : Out)
       if qid = 0xFFFF then set none
       else if ((SMap.get? (s.ring src.mgr).cqs qid.toNat).map fun c => (c.event, c.fault)) = some (true, true) then
         .next (s.deliver src (ans stNotPermitted))
       else if ((SMap.get? (s.ring src.mgr).cqs qid.toNat).map fun c => c.event) = some true then set (some (qid.truncate 8))
       else .next (s.deliver src (ans stInvalidField 8))) := by
  dsimp only
  by_cases h1 : qid = 0xFFFF
  · rw [if_pos h1]
    exact exec_answers ha rfl rfl (if_pos h1) rfl
  · rw [if_neg h1]
    have hb := exec_own ha rfl rfl
    rw [if_neg h1] at hb
    rw [hb]
    cases hc : SMap.get? (s.ring src.mgr).cqs qid.toNat with
    | none => exact congrArg Host.Outcome.next (s.answered_alone src (ans stInvalidField 8))
    | some c =>
      simp only [Option.map_some, Option.some.injEq, Prod.mk.injEq]
      cases c.event
      · exact congrArg Host.Outcome.next (s.answered_alone src (ans stInvalidField 8))
      · rw [if_neg (by decide)]
        by_cases hf : c.fault = true
        · rw [if_pos hf, if_pos ⟨rfl, hf⟩]
          exact congrArg Host.Outcome.next (s.answered_alone src (ans stNotPermitted))
        · rw [if_neg hf, if_neg fun h => hf h.2, if_pos rfl]
          exact congrArg Host.Outcome.next (State.answered_led (u := s.modRing src.mgr fun r =>
            { r with evtCq := some (qid.truncate 8), mask := mask.truncate 8 }) rfl _ _)

/-! ## ABORT and NEGOTIATE -/

/-- ABORT of a command that is not in flight (R233). -/
theorem exec_abort {s : State} {src : Src} {qid cid : Half} {posted : Option Half} : s.allows (.abort src qid cid posted) →
    ∃ t, exec (.abort src qid cid posted) s = .next t ∧
      (SMap.get? (s.ring src.mgr).sqs qid.toNat = none → t = s.deliver src (okAns [] 1)) ∧
      ∀ q, SMap.get? (s.ring src.mgr).sqs qid.toNat = some q → (∀ f ∈ q.flight, f.cid ≠ cid ∨ f.done = true) →
        t = (match posted with
          | some opc => if opc = 0x0008 then s.deliver src (okAns [] 2)
            else (s.putSq src.mgr qid.toNat { q with toAbort := q.toAbort ++ [cid] }).deliver src okAns
          | none => s.deliver src (okAns [] 1)) := by
  intro ha
  refine ⟨_, exec_own ha rfl rfl, fun h => ?_, fun q hq hf => ?_⟩
  · rw [h]
    exact State.answered_alone _ _ _
  · have hn : q.flight.find? (fun f => f.cid = cid && !f.done) = none := List.find?_eq_none.2 fun f hm => by
      rcases hf f hm with h | h
      · simp [h]
      · simp [h]
    rw [hq]
    dsimp only
    rw [hn]
    cases posted with
    | none => exact State.answered_alone _ _ _
    | some opc =>
      dsimp only
      split
      · exact State.answered_alone _ _ _
      · exact State.answered_led rfl _ _

/-- The versions of R226. -/
def ovdelVersions : List Nat := [0x0103, 0x0200, 0x0201, 0x0202]

theorem agreeVersion_none {p : Nat} (h : p < 0x0103) : agreeVersion p = none := by
  unfold agreeVersion
  rw [if_neg (by omega), if_neg (by omega), if_neg (by omega), if_neg (by omega)]

/-- The version agreed on is the highest that is not above the one proposed. -/
theorem agreeVersion_some {p : Nat} (h : 0x0103 ≤ p) :
    ∃ v ∈ ovdelVersions, agreeVersion p = some v ∧ v ≤ p ∧ ∀ w ∈ ovdelVersions, w ≤ p → w ≤ v := by
  unfold agreeVersion
  have hall (v : Nat) (hv : ∀ w ∈ [0x0103, 0x0200, 0x0201, 0x0202], w ≤ p → w ≤ v) : ∀ w ∈ ovdelVersions, w ≤ p → w ≤ v := hv
  split
  · exact ⟨0x0202, by decide, rfl, by omega, hall _ (by simp)⟩
  · split
    · exact ⟨0x0201, by decide, rfl, by omega, hall _ (by simp; omega)⟩
    · split
      · exact ⟨0x0200, by decide, rfl, by omega, hall _ (by simp; omega)⟩
      · exact ⟨0x0103, by decide, rfl, h, hall _ (by simp; omega)⟩

theorem agreeResult_eq (v : Nat) : agreeResult v = [BitVec.ofNat 8 v, BitVec.ofNat 8 (v / 256), 0x0F, 0x00] := rfl

/-- NEGOTIATE (R226). -/
theorem exec_negotiate_versions {s : State} {src : Src} {sel : Half} (ha : s.allows (.negotiate src sel)) :
    ∃ t, exec (.negotiate src sel) s = .next t ∧
      (sel.toNat < 0x0103 → t = s.deliver src (ans stVersionUnsupported)) ∧
      (0x0103 ≤ sel.toNat → if (∃ e ∈ (s.ring src.mgr).sqs, e.1 ≠ 0) ∨ (∃ e ∈ (s.ring src.mgr).cqs, e.1 ≠ 0) then t = s.deliver src (ans stBusy)
        else ∃ v ∈ ovdelVersions, v ≤ sel.toNat ∧ (∀ w ∈ ovdelVersions, w ≤ sel.toNat → w ≤ v) ∧
          t = (s.modRing src.mgr fun x => { x with version := BitVec.ofNat 16 v }).deliver src
            (okAns [BitVec.ofNat 8 v, BitVec.ofNat 8 (v / 256), 0x0F, 0x00])) := by
  refine ⟨_, exec_own ha rfl rfl, fun h => ?_, fun h => ?_⟩
  · rw [agreeVersion_none h]
    exact State.answered_alone _ _ _
  · obtain ⟨v, hv, he, hle, hmax⟩ := agreeVersion_some h
    rw [he]
    dsimp only
    refine ite_intro (fun hb => ?_) fun hb => ⟨v, hv, hle, hmax, ?_⟩
    · rw [if_pos (by simpa only [Bool.or_eq_true, List.any_eq_true, decide_eq_true_eq] using hb)]
      exact State.answered_alone _ _ _
    · rw [if_neg (by simpa only [Bool.or_eq_true, List.any_eq_true, decide_eq_true_eq] using hb), agreeResult_eq]
      exact State.answered_led rfl _ _

/-! ## The features -/

theorem State.noted_ite {c : Prop} [Decidable c] {s t u : State} {src : Src} (ht : t.noteCommit s src = t) (hu : u.noteCommit s src = u) :
    (if c then t else u).noteCommit s src = if c then t else u := by
  split
  · exact ht
  · exact hu

/-- SET_FEATURE (R231, R48). -/
theorem exec_setFeature {s : State} {src : Src} {fid : Byte} {sel : Half} {value : Word} {data : List Byte}
    (ha : s.allows (.setFeature src fid sel value data)) :
    ∃ t, exec (.setFeature src fid sel value data) s = .next t ∧
      (fid = 1 → ∀ c, SMap.get? (s.ring src.mgr).cqs sel.toNat = some c → field value.toNat 25 16 ≤ 1000 →
        t = if c.fault = true then s.deliver src (ans stNotPermitted)
          else (s.putCq src.mgr sel.toNat { c with coalN := field value.toNat 7 0, coalUs := field value.toNat 25 16 }).deliver src okAns) ∧
      (fid = 2 → t = (s.modRing src.mgr fun x => { x with mask := value.truncate 8 }).deliver src okAns) ∧
      (fid = 3 → 0x0202 ≤ s.version src.mgr → ∀ n, s.selChan sel = some n → data.length ≤ 16368 → (s.mb n).m2hAck = (s.mb n).m2hSeq →
        t = (s.modMbx n fun b => { b with m2hSeq := b.m2hSeq + 1, m2hLen := BitVec.ofNat 32 data.length, m2hData := data }).deliver src okAns) ∧
      (fid = 4 → ∀ q, SMap.get? (s.ring src.mgr).sqs sel.toNat = some q → value.toNat ≤ 2 →
        t = if q.fault = true then s.deliver src (ans stNotPermitted)
          else (s.putSq src.mgr sel.toNat { q with cls := BitVec.ofNat 2 value.toNat, promoted := false }).deliver src okAns) ∧
      (fid ∉ [1, 2, 3, 4] → t = s.deliver src (ans stInvalidField 8)) := by
  refine ⟨_, exec_own ha rfl rfl, ?_, ?_, ?_, ?_, ?_⟩
  · rintro rfl c hc hv
    rw [show (1 : Byte).toNat = 1 from rfl]
    dsimp only
    rw [hc]
    dsimp only
    rw [if_neg (by omega)]
    exact State.noted_ite (State.answered_alone _ _ _) (State.answered_led rfl _ _)
  · rintro rfl
    exact State.answered_led rfl _ _
  · rintro rfl hv n hn hd hk
    rw [show (3 : Byte).toNat = 3 from rfl]
    dsimp only
    rw [if_neg (by omega), hn]
    dsimp only [State.postToHost]
    rw [if_neg (by omega), if_neg (not_not_intro hk)]
    exact State.answered_led rfl _ _
  · rintro rfl q hq hv
    rw [show (4 : Byte).toNat = 4 from rfl]
    simp only [hq]
    rw [if_neg (by omega)]
    exact State.noted_ite (State.answered_alone _ _ _) (State.answered_led rfl _ _)
  · intro hf
    split
    · next h => exact absurd (BitVec.eq_of_toNat_eq h : fid = 1) fun e => hf (by simp [e])
    · next h => exact absurd (BitVec.eq_of_toNat_eq h : fid = 2) fun e => hf (by simp [e])
    · next h => exact absurd (BitVec.eq_of_toNat_eq h : fid = 3) fun e => hf (by simp [e])
    · next h => exact absurd (BitVec.eq_of_toNat_eq h : fid = 4) fun e => hf (by simp [e])
    · exact State.answered_alone _ _ _

/-- GET_FEATURE (R231). -/
theorem exec_getFeature {s : State} {src : Src} {fid : Byte} {sel : Half} (ha : s.allows (.getFeature src fid sel)) :
    ∃ t, exec (.getFeature src fid sel) s = .next t ∧
      (fid = 1 → ∀ c, SMap.get? (s.ring src.mgr).cqs sel.toNat = some c →
        t = s.deliver src (okAns (leBytes 4 (pack [(0, c.coalN), (16, c.coalUs)])))) ∧
      (fid = 2 → t = s.deliver src (okAns (leBytes 4 (s.ring src.mgr).mask.toNat))) ∧
      (fid = 4 → ∀ q, SMap.get? (s.ring src.mgr).sqs sel.toNat = some q → t = s.deliver src (okAns (leBytes 4 q.cls.toNat))) ∧
      (fid ∉ [1, 2, 3, 4] → t = s.deliver src (ans stInvalidField 8)) := by
  refine ⟨_, exec_own ha rfl rfl, ?_, ?_, ?_, ?_⟩
  · rintro rfl c hc
    rw [show (1 : Byte).toNat = 1 from rfl]
    simp only [hc]
    exact State.answered_alone _ _ _
  · rintro rfl
    exact State.answered_alone _ _ _
  · rintro rfl q hq
    rw [show (4 : Byte).toNat = 4 from rfl]
    simp only [hq]
    exact State.answered_alone _ _ _
  · intro hf
    dsimp only
    split
    · next h => exact absurd (BitVec.eq_of_toNat_eq h : fid = 1) fun e => hf (by simp [e])
    · next h => exact absurd (BitVec.eq_of_toNat_eq h : fid = 2) fun e => hf (by simp [e])
    · next h => exact absurd (BitVec.eq_of_toNat_eq h : fid = 3) fun e => hf (by simp [e])
    · next h => exact absurd (BitVec.eq_of_toNat_eq h : fid = 4) fun e => hf (by simp [e])
    · exact State.answered_alone _ _ _

/-! ## IDENTIFY -/

theorem slice_slice (bs : List Byte) {off n m : Nat} (h : off + n ≤ m) : slice (slice bs 0 m) off n = slice bs off n := by
  refine List.map_congr_left fun i hi => ?_
  have hi : i < n := List.mem_range.1 hi
  have hm : off + i < m := by omega
  simp [slice, hm]

/-- A little-endian field after the bytes before it. -/
theorem ofLe_slice_at {a b c : List Byte} {off n v : Nat} (ha : a.length = off) (hb : b = leBytes n v) :
    ofLe (slice (a ++ b ++ c) off n) = v % 256 ^ n := by
  rw [List.append_assoc, slice_append_right ha.le, ha, Nat.sub_self, hb, slice_head (leBytes_length _ _), ofLe_leBytes]

theorem wordBytes_length (f : Nat → Word) (a k : Nat) : (wordBytes f a k).length = 4 * k := by
  unfold wordBytes
  simp [List.length_flatMap, leBytes_length]
  omega

/-- The device structure: hosts, versions supported and the version in force (R231). -/
theorem State.deviceInfo_fields (s : State) (c : Caller) (hv : c.version < 65536) :
    (s.deviceInfo c).length = 4096 ∧ ofLe (slice (s.deviceInfo c) 0x10 2) = s.part.hosts % 65536 ∧
      ofLe (slice (s.deviceInfo c) 0x28 2) = 0xF ∧ ofLe (slice (s.deviceInfo c) 0x2A 2) = c.version := by
  unfold State.deviceInfo
  dsimp only
  rw [slice_slice _ (by decide), slice_slice _ (by decide), slice_slice _ (by decide)]
  simp only [List.append_assoc, slice_append_right, leBytes_length, wordBytes_length, Nat.reduceMul, Nat.reduceLeDiff, Nat.reduceSub,
    slice_head, ofLe_leBytes]
  exact ⟨slice_length _ _ _, rfl, rfl, Nat.mod_eq_of_lt hv⟩

/-- The channel structure begins with CHn_CTL_STATE (R231). -/
theorem State.channelInfo_state (s : State) (n : Fin 128) :
    (s.channelInfo n).length = 256 ∧ ofLe (slice (s.channelInfo n) 0 4) = s.ctlState n % 2 ^ 32 := by
  unfold State.channelInfo
  rw [slice_slice _ (by decide)]
  simp only [List.append_assoc, slice_head, leBytes_length, ofLe_leBytes]
  exact ⟨slice_length _ _ _, rfl⟩

/-- IDENTIFY (R231). -/
theorem exec_identify {s : State} {src : Src} {cns : Byte} {sel : Half} {len : Nat} (ha : s.allows (.identify src cns sel len)) :
    ∃ t, exec (.identify src cns sel len) s = .next t ∧
      (cns = 0 → 4096 ≤ len → ∃ d : List Byte, d.length = 4096 ∧ t = s.deliver src { okAns with data := some d } ∧
        ofLe (slice d 0x10 2) = s.part.hosts % 65536 ∧ ofLe (slice d 0x28 2) = 0xF ∧ ofLe (slice d 0x2A 2) = s.version src.mgr) ∧
      (cns = 1 → ∀ n, s.selChan sel = some n → 256 ≤ len → ∃ d : List Byte, d.length = 256 ∧
        t = s.deliver src { okAns with data := some d } ∧ ofLe (slice d 0 4) = s.ctlState n % 2 ^ 32) ∧
      (2 ≤ cns.toNat → t = s.deliver src (ans stInvalidField 8)) := by
  refine ⟨s.deliver src (s.identifyAns (s.caller src) cns sel len), exec_answers ha rfl rfl rfl rfl, ?_, ?_, fun h => ?_⟩
  · rintro rfl hl
    obtain ⟨hd, h1, h2, h3⟩ := s.deviceInfo_fields (s.caller src) (s.ring src.mgr).version.isLt
    exact ⟨_, hd, congrArg (s.deliver src) (if_neg (by omega)), h1, h2, h3⟩
  · rintro rfl n hn hl
    obtain ⟨hd, h1⟩ := s.channelInfo_state n
    refine ⟨_, hd, congrArg (s.deliver src) ?_, h1⟩
    unfold State.identifyAns
    rw [show (1 : Byte).toNat = 1 from rfl]
    simp only [hn]
    exact if_neg (by omega)
  · unfold State.identifyAns
    split
    · omega
    · omega
    · rfl

/-! ## GET_LOG -/

theorem logPart_eq (p : List Byte) (offset len : Nat) : logPart p offset len =
    { st := stSuccess, info := 0, result := leBytes 4 (min len (p.length - offset)) ++ leBytes 4 p.length,
      data := some ((p.drop offset).take len), more := decide (offset + min len (p.length - offset) < p.length) } := by
  unfold logPart
  dsimp only
  rw [List.length_take, List.length_drop]

/-- A read up to the end of a posted message acknowledges it (R48). -/
theorem State.ackMessage_taken {s : State} {c : Caller} {n : Fin 128} {p : HostMsg} {len : Nat} (hm : c.mgr.isSome = true)
    (hp : (s.mb n).posted = some p) (hl : 16 + p.bytes.length ≤ len) :
    s.ackMessage c n 0 len = s.modMbx n fun b => { b with h2mAck := b.h2mSeq, posted := none } := by
  have ht : (s.messageLog n).length = 16 + p.bytes.length := by
    unfold State.messageLog
    rw [hp]
    simp [leBytes_length]
    omega
  unfold State.ackMessage
  dsimp only
  rw [ht, hm]
  exact if_pos (by simp; omega)

theorem State.answered_mb (s u : State) (src : Src) (a : Answer) (n : Fin 128) : ((u.deliver src a).noteCommit s src).mb n = u.mb n :=
  congrArg (vget · n) (State.answered_frame s u src a .mbx (by decide))

/-- GET_LOG (R234, R48). -/
theorem exec_getLog {s : State} {src : Src} {page : Byte} {sel : Half} {offset len : Nat} (ha : s.allows (.getLog src page sel offset len)) :
    ∃ t, exec (.getLog src page sel offset len) s = .next t ∧
      (page = 1 → t = s.deliver src (logPart ((s.ring src.mgr).errLog.flatMap ErrLine.bytes) offset len)) ∧
      (page = 2 → t = s.deliver src (logPart s.identityLog offset len)) ∧
      (page = 4 → 0x0202 ≤ s.version src.mgr → t = s.deliver src (logPart (s.unitsLog src.mgr) offset len)) ∧
      (page = 3 → 0x0202 ≤ s.version src.mgr → ∀ n p, s.selChan sel = some n → (s.mb n).posted = some p → offset = 0 →
        16 + p.bytes.length ≤ len → (t.mb n).posted = none ∧ (t.mb n).h2mAck = (s.mb n).h2mSeq) ∧
      (page ∉ [1, 2, 3, 4] → t = s.deliver src (ans stInvalidField 8)) := by
  refine ⟨_, exec_own ha rfl rfl, ?_, ?_, ?_, ?_, ?_⟩
  · rintro rfl
    exact State.answered_alone _ _ _
  · rintro rfl
    exact State.answered_alone _ _ _
  · rintro rfl hv
    have hg : s.getLogAns (s.caller src) 4 sel offset len = (s, logPart (s.unitsLog src.mgr) offset len) := if_neg (not_lt.2 hv)
    rw [hg]
    exact State.answered_alone _ _ _
  · rintro rfl hv n p hn hp rfl hl
    have hg : (s.getLogAns (s.caller src) 3 sel 0 len).1 = s.modMbx n fun b => { b with h2mAck := b.h2mSeq, posted := none } := by
      unfold State.getLogAns
      rw [show (3 : Byte).toNat = 3 from rfl]
      simp only [hn]
      rw [if_neg (show ¬(s.caller src).version < 0x0202 from not_lt.2 hv)]
      exact State.ackMessage_taken rfl hp hl
    dsimp only
    rw [State.answered_mb, hg, State.modMbx_mb]
    exact ⟨rfl, rfl⟩
  · intro hf
    have hg : s.getLogAns (s.caller src) page sel offset len = (s, ans stInvalidField 8) := by
      unfold State.getLogAns
      split
      · next h => exact absurd (BitVec.eq_of_toNat_eq h : page = 1) fun e => hf (by simp [e])
      · next h => exact absurd (BitVec.eq_of_toNat_eq h : page = 2) fun e => hf (by simp [e])
      · next h => exact absurd (BitVec.eq_of_toNat_eq h : page = 3) fun e => hf (by simp [e])
      · next h => exact absurd (BitVec.eq_of_toNat_eq h : page = 4) fun e => hf (by simp [e])
      · rfl
    rw [hg]
    exact State.answered_alone _ _ _

end Sys2Proof.Machine

namespace Sys2Proof

open Sys2Proof.Machine

/-- Settles O51. -/
theorem queueCommandsCreateDeleteAndReport : Obligations.QueueCommandsCreateDeleteAndReport := by
  intro s src cf sf qid sel cid mask value fid cns page data offset len posted
  refine ⟨exec_createCq, fun ha => ?_, exec_deleteSq, exec_deleteCq, exec_setEventRing, exec_abort, exec_negotiate_versions, exec_setFeature,
    exec_getFeature, exec_identify, fun ha => ?_⟩
  · obtain ⟨t, ht, h⟩ := exec_createSq ha
    refine ⟨t, ht, ?_⟩
    dsimp only at h ⊢
    refine (ite_intro (fun hq => ?_) fun hq => ite_intro (fun hd => ?_) fun hd => ?_)
    · rwa [if_pos hq] at h
    · rwa [if_neg hq, if_pos hd] at h
    · rw [if_neg hq, if_neg hd] at h
      cases hc : SMap.get? (s.ring src.mgr).cqs sf.cqid.toNat with
      | none => rwa [hc] at h
      | some c =>
        rw [hc] at h
        dsimp only at h ⊢
        refine (ite_intro (fun he => ?_) fun he => ite_intro (fun hl => ?_) fun hl => ite_intro (fun hb => ?_) fun hb => ?_)
        · rwa [if_pos he] at h
        · rwa [if_neg he, if_pos hl] at h
        · rwa [if_neg he, if_neg hl, if_pos hb] at h
        · rw [if_neg he, if_neg hl, if_neg hb] at h
          refine ⟨freshSq sf c.fault, h, rfl, rfl, BitVec.toNat_setWidth _ _, ?_, rfl, rfl, rfl, rfl, rfl, rfl⟩
          exact (BitVec.toNat_ofNat _ _).trans (Nat.mod_eq_of_lt (by omega))
  · obtain ⟨t, ht, h1, h2, h4, h3, h0⟩ := exec_getLog ha
    refine ⟨t, ht, ?_, ?_, ?_, h3, h0⟩
    · exact fun h => (h1 h).trans (congrArg (s.deliver src) (logPart_eq _ _ _))
    · exact fun h => (h2 h).trans (congrArg (s.deliver src) (logPart_eq _ _ _))
    · exact fun h hv => (h4 h hv).trans (congrArg (s.deliver src) (logPart_eq _ _ _))

end Sys2Proof
end


section
/-! SUPPORT. What the operations of the device do to the memory of its managers. -/

namespace Sys2Proof.Machine

open Sys2Proof

/-! ## Operations that answer commands -/

/-- R composes, is kept by completions, and holds where no view changes. -/
structure Serves (R : State → State → Prop) : Prop where
  refl : ∀ s, R s s
  comp : ∀ {s t u}, R s t → R t u → R s u
  of_frame : ∀ {fs : List Field} {s t : State}, Frame fs s t → .views ∉ fs → R s t
  finish' : ∀ s src st info result more, R s (s.finish src st info result more)

theorem Serves.respects {R : State → State → Prop} (hS : Serves R) : Respects .views R := ⟨hS.refl, hS.comp, hS.of_frame⟩

theorem Serves.closes {R : State → State → Prop} (hS : Serves R) : Closes R where
  refl := hS.refl
  comp := hS.comp
  of_frame := fun h hf => hS.of_frame h (hf .views (by decide))
  finish := hS.finish'
  raise := fun s code ch data => hS.of_frame (State.raise_frame (Frame.refl [.rings] s) (Field.sub_refl _)) (by decide)
  drop := fun s p => hS.of_frame (Frame.put_awaits (Frame.refl [.awaits] s) (by decide)) (by decide)

section

variable {k : Field} {R : State → State → Prop} (hR : Respects k R) {s₀ s : State}

include hR

theorem State.queueFault_keeps {m : Mgr} {q : Byte} {sq : Bool} (hf : k ∉ [.rings]) (h : R s₀ s) : R s₀ (State.queueFault s m q sq) :=
  hR.step h (State.queueFault_frame (Frame.refl _ _) (Field.sub_refl _)) hf

theorem State.endOpenSession_keeps {n : Fin 128} {st : Status} (hf : k ∉ [.mbx, .stn, .trace, .rings]) (h : R s₀ s) :
    R s₀ (State.endOpenSession s n st) :=
  hR.step h (State.endOpenSession_frame (Frame.refl _ _) (Field.sub_refl _)) hf

theorem State.applyDeferred_keeps {n : Fin 128} (hf : k ∉ [.mbx, .stn, .fps, .pol, .prof, .trace, .rings]) (h : R s₀ s) :
    R s₀ (State.applyDeferred s n) :=
  hR.step h (State.applyDeferred_frame (Frame.refl _ _) (Field.sub_refl _)) hf

theorem State.leaveUpdate_keeps {n : Fin 128} (hf : k ∉ [.mbx, .stn, .trace, .rings]) (h : R s₀ s) : R s₀ (State.leaveUpdate s n) :=
  hR.step h (State.leaveUpdate_frame (Frame.refl _ _) (Field.sub_refl _)) hf

end

/-! ## The stages of a Burnish (R271) -/

/-- The Burnish is recorded, and no second one follows it. -/
def State.burnishBegun (s : State) (source : Nat) : State :=
  { s with tamper := { s.tamper with
    last := BitVec.ofNat 5 source, burnishes := satInc s.tamper.burnishes, btime := BitVec.ofNat 64 s.now, burnt := true } }

/-- A copy of the vault without its SALT. -/
def LCopy.unsalted (c : LCopy VaultRec) : LCopy VaultRec :=
  match c with
  | .valid q v => LCopy.valid q { v with salt := none }
  | c => c

/-- The key store, both SALTs and the derived keys are gone. -/
def State.keysEmptied (s : State) : State :=
  { s with
    keys := { s.keys with
      slots := s.keys.slots.map fun (k : KeySlot) => { KeySlot.empty with stamp := k.stamp + 1 },
      vault := { c0 := s.keys.vault.c0.unsalted, c1 := s.keys.vault.c1.unsalted }, transport := false, keepSalt := none },
    wdg := s.wdg.map fun (w : Wdg) => { w with key := [] },
    att := { s.att with keysReady := false },
    imm := { s.imm with keyValid := false }, dev := { s.dev with zeroised := true } }

theorem State.burnishKeys_eq (s : State) :
    s.burnishKeys = s.keysEmptied.forAll (List.finRange 4) fun k s => s.abortCore k true := rfl

/-- The sessions, the caches and the stores of the device are empty. -/
def State.storesEmptied (s : State) : State :=
  { s.endSessions with
    fca := { s.fca with lines := [] }, mbx := s.mbx.map fun (b : Mailbox) => { b with cdi := [], cdiTaken := true },
    hash := { a := { s.hash.a with ctxs := [] }, b := { s.hash.b with ctxs := [] } },
    imm := { s.imm with dir := Vector.replicate 256 Impression.free, relocating := false },
    areas := s.areas.map Areas.restart }

/-- The channels are held and Graver's command ends. -/
def State.burnishHeld (s : State) (source : Nat) : State :=
  ((s.burnishBegun source).forChans fun n s => s.burnishChan n).endOtp stAborted

theorem State.burnish_eq (s : State) (source level : Nat) :
    s.burnish source level = (((((s.burnishHeld source).burnishKeys.storesEmptied.raise 0x0601 devCh [source, level]).raise 0x0602 devCh
      [source]).logKey 2 [source]).dispatchJobs) := by
  unfold State.burnish State.burnishHeld State.burnishBegun State.storesEmptied
  rfl

theorem State.burnishBegun_frame (s : State) (source : Nat) : Frame [.tamper] s (s.burnishBegun source) :=
  Frame.put_tamper (Frame.refl _ s) (by decide)

theorem State.keysEmptied_frame (s : State) : Frame [.wdg, .imm, .att, .keys, .dev] s s.keysEmptied :=
  Frame.put_wdg_imm_att_keys_dev (Frame.refl _ s) (by decide) (by decide) (by decide) (by decide) (by decide)

theorem State.storesEmptied_frame (s : State) : Frame [.spdm, .mbx, .areas, .imm, .fca, .hash] s s.storesEmptied :=
  Frame.put_mbx_areas_imm_fca_hash (State.endSessions_frame (Frame.refl _ s) (by decide)) (by decide) (by decide) (by decide) (by decide)
    (by decide)

section

variable {R : State → State → Prop} (hS : Serves R) {s₀ s : State}

include hS

theorem Serves.finish {src : Src} {st : Status} {info : Nat} {result : List Byte} {more : Bool} (h : R s₀ s) :
    R s₀ (s.finish src st info result more) := hS.comp h (hS.finish' _ _ _ _ _ _)

theorem State.hold_served {n : Fin 128} {kind : HoldKind} {cause : Cause} {seq : Option SeqKind} (h : R s₀ s) :
    R s₀ (State.hold s n kind cause seq) := by
  refine hS.comp h ?_
  clear h
  unfold State.hold
  dsimp -failIfUnchanged -proj only
  repeat' (with_reducible first
    | assumption | apply hS.refl | apply State.stopHost_keeps hS.respects (by decide) | apply Closes.answerAll hS.closes
    | apply State.transition_keeps hS.respects (by decide) | apply State.modCtl_keeps hS.respects (by decide) | intro _ | split)

theorem State.enterRecoveryState_served {n : Fin 128} (h : R s₀ s) :
    R s₀ (State.enterRecoveryState s n) := by
  refine hS.comp h ?_
  clear h
  unfold State.enterRecoveryState
  dsimp -failIfUnchanged -proj only
  repeat' (with_reducible first
    | assumption | apply hS.refl | apply State.modMbx_keeps hS.respects (by decide) | apply State.unbind_keeps hS.respects (by decide)
    | apply State.transition_keeps hS.respects (by decide) | apply State.raise_keeps hS.respects (by decide)
    | apply State.modWdg_keeps hS.respects (by decide) | apply Closes.answerAll hS.closes
    | apply State.modCtl_keeps hS.respects (by decide) | intro _ | split)

theorem State.selEnd_served {n : Fin 128} {w : SelWait} {t3 : PTable} {tie : Bool} {run : Option (PlateId × Fin 256)} {attempt : Bool} (h : R s₀ s) :
    R s₀ (State.selEnd s n w t3 tie run attempt) := by
  refine hS.comp h ?_
  clear h
  unfold State.selEnd
  dsimp -failIfUnchanged -proj only
  repeat' (with_reducible first
    | assumption | apply hS.refl | apply State.enterRecoveryState_served hS | apply State.bind_keeps hS.respects (by decide)
    | apply Closes.answerAll hS.closes | apply State.commitPlates_keeps hS.respects (by decide)
    | apply State.beginAttempt_keeps hS.respects (by decide) | apply State.unbind_keeps hS.respects (by decide)
    | apply State.modCtl_keeps hS.respects (by decide) | apply State.raise_keeps hS.respects (by decide) | intro _ | split)

theorem State.selectFrom_served {n : Fin 128} {x : Nat} {w : SelWait} {u : State} (h : R s₀ u) :
    R s₀ (State.selectFrom n x w u) := by
  induction x generalizing s₀ w u with
  | zero => exact h
  | succ k ih =>
    refine hS.comp h ?_
    clear h
    unfold State.selectFrom
    dsimp -failIfUnchanged -proj only
    repeat' (with_reducible first
      | assumption
      | apply hS.refl
      | apply ih
      | apply State.selNote_keeps hS.respects (by decide)
      | apply State.checkPlate_keeps hS.respects (by decide)
      | apply State.modCtl_keeps hS.respects (by decide)
      | apply State.selEnd_served hS
      | intro _
      | split)

theorem State.select_served {n : Fin 128} (h : R s₀ s) :
    R s₀ (State.select s n) := by
  refine hS.comp h ?_
  clear h
  unfold State.select
  dsimp -failIfUnchanged -proj only
  repeat' (with_reducible first
    | assumption | apply hS.refl | apply State.completeAdvances_keeps hS.respects (by decide) | apply State.selectFrom_served hS
    | apply State.modCtl_keeps hS.respects (by decide) | intro _ | split)

theorem State.stayHeld_served {n : Fin 128} (h : R s₀ s) :
    R s₀ (State.stayHeld s n) := by
  refine hS.comp h ?_
  clear h
  unfold State.stayHeld
  dsimp -failIfUnchanged -proj only
  repeat' (with_reducible first
    | assumption | apply hS.refl | apply Closes.answerAll hS.closes | intro _ | split)

theorem State.startTaking_served {n : Fin 128} {cause : Cause} {asked : Bool} (h : R s₀ s) :
    R s₀ (State.startTaking s n cause asked) := by
  refine hS.comp h ?_
  clear h
  unfold State.startTaking
  dsimp -failIfUnchanged -proj only
  repeat' (with_reducible first
    | assumption | apply hS.refl | apply State.select_served hS | apply State.unbind_keeps hS.respects (by decide)
    | apply State.transition_keeps hS.respects (by decide) | apply State.stayHeld_served hS
    | apply State.modCtl_keeps hS.respects (by decide) | intro _ | split)

theorem State.powerStep3_served {n : Fin 128} (h : R s₀ s) :
    R s₀ (State.powerStep3 s n) := by
  refine hS.comp h ?_
  clear h
  unfold State.powerStep3
  dsimp -failIfUnchanged -proj only
  repeat' (with_reducible first
    | assumption | apply hS.refl | apply State.startTaking_served hS | apply State.modCtl_keeps hS.respects (by decide) | intro _ | split)

theorem State.takeKept_served {n : Fin 128} {cause : Cause} (h : R s₀ s) :
    R s₀ (State.takeKept s n cause) := by
  refine hS.comp h ?_
  clear h
  unfold State.takeKept
  dsimp -failIfUnchanged -proj only
  repeat' (with_reducible first
    | assumption | apply hS.refl | apply State.startTaking_served hS | apply State.transition_keeps hS.respects (by decide)
    | apply State.modCtl_keeps hS.respects (by decide) | intro _ | split)

theorem State.armFail_served {n : Fin 128} {st : Status} (h : R s₀ s) :
    R s₀ (State.armFail s n st) := by
  refine hS.comp h ?_
  clear h
  unfold State.armFail
  dsimp -failIfUnchanged -proj only
  repeat' (with_reducible first
    | assumption | apply hS.refl | apply State.select_served hS | apply State.takeKept_served hS | apply Closes.endArming hS.closes | intro _
    | split)

theorem State.armCommit_served {n : Fin 128} {a : Arming} {i : Fin 256} (h : R s₀ s) :
    R s₀ (State.armCommit s n a i) := by
  refine hS.comp h ?_
  clear h
  unfold State.armCommit
  dsimp -failIfUnchanged -proj only
  repeat' (with_reducible first
    | assumption | apply hS.refl | apply State.modPlt_keeps hS.respects (by decide) | apply State.bind_keeps hS.respects (by decide)
    | apply State.startTaking_served hS | apply State.beginAttempt_keeps hS.respects (by decide)
    | apply State.commitPlates_keeps hS.respects (by decide) | apply State.modCtl_keeps hS.respects (by decide) | intro _ | split)

theorem State.armJudge_served {n : Fin 128} {a : Arming} {r : Chk} (h : R s₀ s) :
    R s₀ (State.armJudge s n a r) := by
  refine hS.comp h ?_
  clear h
  unfold State.armJudge
  dsimp -failIfUnchanged -proj only
  repeat' (with_reducible first
    | assumption | apply hS.refl | apply State.verifyFailed_keeps hS.respects (by decide) | apply State.armFail_served hS
    | apply State.armCommit_served hS | apply State.raise_keeps hS.respects (by decide)
    | apply State.commitPlates_keeps hS.respects (by decide) | apply State.modCtl_keeps hS.respects (by decide) | intro _ | split
    | (refine hS.comp ?_ (hS.of_frame (Frame.put_led (fs := [.led]) (Frame.refl _ _) (by decide)) (by decide))))

theorem State.armStep_served {n : Fin 128} (h : R s₀ s) :
    R s₀ (State.armStep s n) := by
  refine hS.comp h ?_
  clear h
  unfold State.armStep
  dsimp -failIfUnchanged -proj only
  repeat' (with_reducible first
    | assumption | apply hS.refl | apply State.armJudge_served hS | apply State.checkPlate_keeps hS.respects (by decide)
    | apply State.modCtl_keeps hS.respects (by decide) | intro _ | split)

theorem State.reachHold_served {n : Fin 128} (h : R s₀ s) :
    R s₀ (State.reachHold s n) := by
  refine hS.comp h ?_
  clear h
  unfold State.reachHold
  dsimp -failIfUnchanged -proj only
  repeat' (with_reducible first
    | assumption | apply hS.refl | apply State.forAll_keeps hS.respects | apply State.lineStep_keeps hS.respects (by decide)
    | apply State.endOpenSession_keeps hS.respects (by decide) | apply State.applyDeferred_keeps hS.respects (by decide)
    | apply State.startTaking_served hS | apply Closes.answerAll hS.closes | apply State.powerStep3_served hS
    | apply State.modStn_keeps hS.respects (by decide) | apply State.modPort_keeps hS.respects (by decide) | apply State.armStep_served hS
    | apply State.leaveUpdate_keeps hS.respects (by decide) | apply State.modCtl_keeps hS.respects (by decide) | intro _ | split)

theorem State.burnishChan_served {n : Fin 128} (h : R s₀ s) :
    R s₀ (State.burnishChan s n) := by
  refine hS.comp h ?_
  clear h
  unfold State.burnishChan
  dsimp -failIfUnchanged -proj only
  repeat' (with_reducible first
    | assumption | apply hS.refl | apply State.hold_served hS | apply State.reachHold_served hS
    | apply State.modCtl_keeps hS.respects (by decide) | apply Closes.endArming hS.closes | intro _ | split)

theorem State.burnishKeys_served (h : R s₀ s) : R s₀ s.burnishKeys := by
  rw [State.burnishKeys_eq]
  refine State.forAll_keeps hS.respects (hS.comp h (hS.of_frame s.keysEmptied_frame (by decide))) fun _ _ => ?_
  exact Closes.abortCore hS.closes (hS.refl _)

/-- Graver's command completes; a completion of this kind carries no bytes. -/
theorem State.endOtp_served {st : Status} (h : R s₀ s) : R s₀ (s.endOtp st) := by
  unfold State.endOtp
  split
  · refine hS.finish (hS.comp h ?_)
    exact hS.of_frame (Frame.put_otp (Frame.refl [.otp] s) (by decide)) (by decide)
  · exact h

theorem State.burnish_served {source level : Nat} (h : R s₀ s) : R s₀ (s.burnish source level) := by
  rw [State.burnish_eq]
  refine Closes.dispatchJobs hS.closes ?_
  refine State.logKey_keeps hS.respects (by decide) ?_
  refine State.raise_keeps hS.respects (by decide) (State.raise_keeps hS.respects (by decide) ?_)
  refine hS.comp (State.burnishKeys_served hS ?_) (hS.of_frame (State.storesEmptied_frame _) (by decide))
  refine State.endOtp_served hS (State.forChans_keeps hS.respects ?_ fun _ _ => State.burnishChan_served hS (hS.refl _))
  exact hS.comp h (hS.of_frame (State.burnishBegun_frame s source) (by decide))

end

end Sys2Proof.Machine
end


section
/-! SUPPORT. Trips of tamper sources (R267, R269) and faults of Burin cores (R201, R202). -/

namespace Sys2Proof.Machine

open Sys2Proof

/-! ## The stages of a trip -/

/-- The sources of a list that a trip makes active. -/
def State.tripNew (s : State) (sources : List Nat) : List Nat := sources.filter fun i => !s.tamper.active.getLsbD i

/-- The highest level among sources. -/
def State.topLevel (s : State) (l : List Nat) : Nat := l.foldl (fun a i => max a (s.tamperLevel i)) 0

/-- A source becomes active; `lvl`: the highest level of the trip. -/
def State.tripSource (lvl i : Nat) (s : State) : State :=
  let s := { s with tamper := { s.tamper with active := putBit s.tamper.active i true, trips := satInc s.tamper.trips } }
  let l := s.tamperLevel i
  if l = 0 then s
  else
    let s := { s with tamper := { s.tamper with latched := putBit s.tamper.latched i true } }
    if l = 3 || l < lvl then s else (s.raise 0x0601 devCh [i, l]).logKey 3 [i, l]

/-- LOCK where level 2 is the highest. -/
def State.tripLock (s : State) (lvl : Nat) : State :=
  if lvl = 2 then { s with tamper := { s.tamper with lock := true, ledger := (true, s.tamper.latched) } } else s

/-- The sources of a trip are recorded, and LOCK is set where level 2 is the highest. -/
def State.tripMarked (s : State) (sources : List Nat) : State :=
  (s.forAll (s.tripNew sources) (State.tripSource (s.topLevel (s.tripNew sources)))).tripLock (s.topLevel (s.tripNew sources))

/-- The Burnish of the first source of level 3. -/
def State.tripBurnt (s : State) (l : List Nat) : State :=
  match l.find? fun i => s.tamperLevel i = 3 with
  | some i => s.burnish i 3
  | none => s

theorem State.trip_eq (s : State) (sources : List Nat) : s.trip sources =
    if 2 ≤ s.topLevel (s.tripNew sources) then ((s.tripMarked sources).tripBurnt (s.tripNew sources)).wakeUp
    else (s.tripMarked sources).tripBurnt (s.tripNew sources) := rfl

theorem State.tripSource_frame (lvl i : Nat) (s : State) : Frame [.tamper, .trace, .rings] s (State.tripSource lvl i s) := by
  have hact : ∀ v, Frame [.tamper, .trace, .rings] s { s with tamper := v } := fun v => Frame.put_tamper (Frame.refl _ s) (by decide)
  unfold State.tripSource
  dsimp only
  split
  · exact hact _
  · split
    · exact hact _
    · exact State.logKey_frame (State.raise_frame (hact _) (by decide)) (by decide)

theorem State.tripLock_frame (s : State) (lvl : Nat) : Frame [.tamper, .trace, .rings] s (s.tripLock lvl) := by
  unfold State.tripLock
  split
  · exact Frame.put_tamper (Frame.refl _ s) (by decide)
  · exact Frame.refl _ s

theorem State.tripMarked_frame (s : State) (sources : List Nat) : Frame [.tamper, .trace, .rings] s (s.tripMarked sources) :=
  Frame.comp (State.forAll_frame (Frame.refl _ s) fun _ _ => State.tripSource_frame _ _ _) (State.tripLock_frame _ _) (by decide)

/-! ## A trip writes nothing but completions -/

theorem CompletionsOnly.of_frame {fs : List Field} {s t : State} (h : Frame fs s t) (hf : Field.views ∉ fs) : CompletionsOnly s t :=
  .of_views (h .views hf)

theorem CompletionsOnly.serves : Serves CompletionsOnly where
  refl := CompletionsOnly.refl
  comp := CompletionsOnly.trans
  of_frame := CompletionsOnly.of_frame
  finish' := fun s _ _ _ _ _ => (CompletionsOnly.refl s).finish _ _ _ _ _

theorem Unfailed.serves : Serves Unfailed where
  refl := Unfailed.refl
  comp := Unfailed.comp
  of_frame := Unfailed.of_frame
  finish' := fun _ _ _ _ _ _ => State.finish_sound (Unfailed.refl _)

theorem Serves.tripBurnt {R : State → State → Prop} (hS : Serves R) {s₀ s : State} {l : List Nat} (h : R s₀ s) : R s₀ (s.tripBurnt l) := by
  unfold State.tripBurnt
  split
  · exact State.burnish_served hS h
  · exact h

theorem Serves.resumeHeld {R : State → State → Prop} (hS : Serves R) {s₀ s : State} {n : Fin 128} (h : R s₀ s) : R s₀ (s.resumeHeld n) := by
  unfold State.resumeHeld
  dsimp only
  split
  · exact h
  · split
    · exact related_ite (State.startTaking_served hS h) h
    · exact related_ite (State.takeKept_served hS h) h
    · exact related_ite (State.startTaking_served hS h) h
    · exact related_ite (State.startTaking_served hS h) h
    · exact h

theorem Serves.resumeStandby {R : State → State → Prop} (hS : Serves R) {s₀ s : State} (h : R s₀ s) : R s₀ s.resumeStandby := by
  have h1 : R s₀ (s.forChans fun n s => s.resumeHeld n) := State.forChans_keeps hS.respects h fun _ _ => hS.resumeHeld (hS.refl _)
  unfold State.resumeStandby
  dsimp only
  split
  · exact h1
  · refine State.forChans_keeps hS.respects (hS.comp h1 ?_) fun n s => ?_
    · exact hS.of_frame (Frame.put_plat (Frame.refl [.plat] _) (by decide)) (by decide)
    · exact related_ite (hS.comp (State.startTaking_served hS (hS.refl s))
        (hS.of_frame (State.modCtl_frame (Frame.refl _ _) (Field.sub_refl _)) (by decide))) (hS.refl s)

theorem CompletionsOnly.wakeLink {s t : State} (h : CompletionsOnly s t) (m : Mgr) : CompletionsOnly s (t.wakeLink m) := by
  unfold State.wakeLink
  split
  · exact h.modView m (List.append_nil _).symm fun _ hx => absurd hx List.not_mem_nil
  · exact h

theorem CompletionsOnly.wakeUp {s t : State} (h : CompletionsOnly s t) : CompletionsOnly s t.wakeUp := by
  unfold State.wakeUp
  split
  · refine CompletionsOnly.serves.resumeStandby (CompletionsOnly.wakeLink (CompletionsOnly.wakeLink (h.trans ?_) _) _)
    exact .of_frame (State.wake_frame (Frame.refl _ _) (Field.sub_refl _)) (by decide)
  · exact h

theorem CompletionsOnly.trip {s t : State} (h : CompletionsOnly s t) (sources : List Nat) : CompletionsOnly s (t.trip sources) := by
  have h1 : CompletionsOnly s ((t.tripMarked sources).tripBurnt (t.tripNew sources)) :=
    CompletionsOnly.serves.tripBurnt (h.trans (.of_frame (t.tripMarked_frame sources) (by decide)))
  rw [State.trip_eq]
  split
  · exact h1.wakeUp
  · exact h1

/-! ## A fault of a core -/

/-- The time of a fault is noted (R202). -/
def State.faultNoted (s : State) : State := { s with burin := { s.burin with recent := s.recentFaults ++ [s.now] } }

theorem State.noteFault_eq (s : State) : s.noteFault =
    if s.dcfg.faultN ≠ 0 && s.dcfg.faultN ≤ (s.recentFaults ++ [s.now]).length then
      (s.faultNoted.raise 0x0603 devCh [(s.recentFaults ++ [s.now]).length, s.dcfg.faultS]).trip [9]
    else s.faultNoted := rfl

theorem CompletionsOnly.noteFault {s t : State} (h : CompletionsOnly s t) : CompletionsOnly s t.noteFault := by
  have h1 : CompletionsOnly s t.faultNoted := h.trans (.of_views rfl)
  rw [State.noteFault_eq]
  split
  · exact (CompletionsOnly.serves.closes.comp h1 (CompletionsOnly.serves.closes.raise _ _ _ _)).trip [9]
  · exact h1

/-- The core of a fault leaves service for its self-test. -/
def State.coreFailed (s : State) (k : Fin 4) (owner : Owner) (op : Nat) : State :=
  ((s.modCore k fun c => { c with job := none, lastOwner := owner, faults := satInc c.faults }).coreOut k coreFaultReason true).raise 0x0806
    devCh [k.1, op]

theorem State.coreFault_eq (s : State) (k : Fin 4) (owner : Owner) (op : Nat) : s.coreFault k owner op = (s.coreFailed k owner op).noteFault := rfl

theorem Closes.coreFailed {R : State → State → Prop} (hC : Closes R) {s₀ s : State} {k : Fin 4} {owner : Owner} {op : Nat} (h : R s₀ s) :
    R s₀ (s.coreFailed k owner op) := hC.comp (hC.coreOut (hC.modCore h)) (hC.raise _ _ _ _)

theorem CompletionsOnly.coreFaulted {s t : State} (h : CompletionsOnly s t) (k : Fin 4) (j : BurinJob) (res : List Byte) :
    CompletionsOnly s (t.coreFaulted k j res) := by
  have hC := CompletionsOnly.serves.closes
  refine hC.dispatchJobs ?_
  rw [State.coreFault_eq]
  exact (hC.coreFailed (hC.finishJob (hC.modCore h))).noteFault

end Sys2Proof.Machine
end


section
/-! SUPPORT. The allocation of Burin's cores (R203, R204). -/

namespace Sys2Proof.Machine

open Sys2Proof

/-! ## What an allocation does to a core -/

/-- A core that is not idle stays as it is; an idle one stays in service; neither counts an end, a yield nor a fault. -/
def Core.AllocatedTo (c d : Core) : Prop :=
  (c.state ≠ 0 → d = c) ∧ (c.state = 0 → d.state = 0 ∨ d.state = 1) ∧ d.jobs = c.jobs ∧ d.lastCycles = c.lastCycles

theorem Core.AllocatedTo.refl (c : Core) : c.AllocatedTo c := ⟨fun _ => rfl, fun h => .inl h, rfl, rfl⟩

theorem Core.AllocatedTo.trans {c d e : Core} (h : c.AllocatedTo d) (k : d.AllocatedTo e) : c.AllocatedTo e := by
  obtain ⟨h1, h2, h3, h4⟩ := h
  obtain ⟨k1, k2, k3, k4⟩ := k
  refine ⟨fun hc => ?_, fun hc => ?_, k3.trans h3, k4.trans h4⟩
  · have hd := h1 hc
    rw [k1 (hd ▸ hc), hd]
  · obtain hd | hd := h2 hc
    · exact k2 hd
    · rw [k1 (by rw [hd]; decide)]
      exact .inr hd

/-- From s to t cores are allocated, and nothing else becomes of them. -/
def Dispatched (s t : State) : Prop := ∀ k, (s.core k).AllocatedTo (t.core k)

theorem Dispatched.of_burin {s t : State} (h : t.burin.cores = s.burin.cores) : Dispatched s t := fun k => by
  rw [show t.core k = s.core k from congrArg (vget · k) h]
  exact .refl _

theorem Dispatched.comp {s t u : State} (h : Dispatched s t) (k : Dispatched t u) : Dispatched s u := fun i => (h i).trans (k i)

theorem Dispatched.respects : Respects .burin Dispatched where
  refl := fun _ => .of_burin rfl
  comp := Dispatched.comp
  of_frame := fun h hf => .of_burin (congrArg Burin.cores (h .burin hf))

theorem State.finishJob_burin (s : State) (j : BurinJob) (st : Status) (info : Nat) (result : List Byte) :
    (s.finishJob j st info result).burin = s.burin := by
  unfold State.finishJob
  split
  · exact State.finish_frame (Frame.refl [.rings, .views, .awaits, .dev] s) (by decide) .burin (by decide)
  · rfl
  · rfl

/-- A core with a job loaded: the device time, the core and the job. -/
def Core.loaded (now : Nat) (j : BurinJob) (c : Core) : Core :=
  let c := if c.lastOwner ≠ .none && c.lastOwner ≠ j.owner then c.wipe (max now c.wipeEnd) else c
  { c with state := 1, job := some { j with loaded := true, since := max now c.wipeEnd }, lastOwner := j.owner, wiped := false }

theorem State.loadJob_eq (s : State) (k : Fin 4) (j : BurinJob) : s.loadJob k j = s.modCore k (Core.loaded s.now j) := rfl

theorem Core.loaded_kept (now : Nat) (j : BurinJob) (c : Core) : (c.loaded now j).state = 1 ∧ (c.loaded now j).jobs = c.jobs ∧
    (c.loaded now j).lastCycles = c.lastCycles ∧ (c.loaded now j).yields = c.yields ∧ (c.loaded now j).susp = c.susp := by
  unfold Core.loaded
  dsimp only
  split
  · exact ⟨rfl, rfl, rfl, rfl, rfl⟩
  · exact ⟨rfl, rfl, rfl, rfl, rfl⟩

theorem Dispatched.loadJob {s t : State} (h : Dispatched s t) {k : Fin 4} (hk : (t.core k).state = 0) (j : BurinJob) :
    Dispatched s (t.loadJob k j) := h.comp fun i => by
  rw [State.loadJob_eq]
  by_cases hi : i = k
  · subst hi
    rw [State.modCore_core]
    obtain ⟨h1, h2, h3, -⟩ := Core.loaded_kept t.now j (t.core i)
    exact ⟨fun hn => absurd hk hn, fun _ => .inr h1, h2, h3⟩
  · rw [State.modCore_core_ne _ _ _ hi]
    exact .refl _

theorem State.coreFor_idle {s : State} {o : Owner} {k : Fin 4} (h : s.coreFor o = some k) : (s.core k).state = 0 := by
  unfold State.coreFor at h
  have hm : k ∈ (List.finRange 4).filter fun k => (s.core k).state = 0 := by
    obtain h | ⟨-, h⟩ := Option.or_eq_some_iff.1 h
    · exact List.mem_of_find?_eq_some h
    · exact List.mem_of_head? h
  simpa using (List.mem_filter.1 hm).2

theorem Dispatched.takeCore {s t : State} (h : Dispatched s t) {k : Fin 4} (hk : (t.core k).state = 0) (j : BurinJob) :
    Dispatched s (t.takeCore k j) := by
  have h1 : Dispatched s { t with burin := { t.burin with waiting := t.burin.waiting.filter fun x => x.id ≠ j.id } } := h.comp (.of_burin rfl)
  unfold State.takeCore
  dsimp only
  split
  · split
    · split
      · split
        · exact (h1.comp (.of_burin rfl)).loadJob hk _
        · exact h1.comp (.of_burin (congrArg Burin.cores (State.finishJob_burin _ _ _ _ _)))
      · exact h1.comp (.of_burin (congrArg Burin.cores (State.finishJob_burin _ _ _ _ _)))
    · exact h1.comp (.of_burin (congrArg Burin.cores (State.finishJob_burin _ _ _ _ _)))
  · exact h1.loadJob hk j

/-- A suspended context leaves an idle core's store. -/
def State.unsuspend (s : State) (k : Fin 4) (j : BurinJob) : State :=
  s.modCore k fun c => { c with susp := c.susp.filter fun x => x.id ≠ j.id }

theorem Dispatched.unsuspend {s t : State} (h : Dispatched s t) {k : Fin 4} (hk : (t.core k).state = 0) (j : BurinJob) :
    Dispatched s (t.unsuspend k j) ∧ ((t.unsuspend k j).core k).state = 0 := by
  have hc : (t.unsuspend k j).core k = { t.core k with susp := (t.core k).susp.filter fun x => x.id ≠ j.id } := State.modCore_core _ _ _
  refine ⟨h.comp fun i => ?_, by rw [hc]; exact hk⟩
  by_cases hi : i = k
  · subst hi
    rw [hc]
    exact ⟨fun hn => absurd hk hn, fun h => .inl h, rfl, rfl⟩
  · rw [State.unsuspend, State.modCore_core_ne _ _ _ hi]
    exact .refl _

/-- The idle cores. -/
def State.idleCores (s : State) : List (Fin 4) := (List.finRange 4).filter fun k => (s.core k).state = 0

theorem State.idleCores_idle {s : State} {k : Fin 4} (h : k ∈ s.idleCores) : (s.core k).state = 0 := by
  simpa using (List.mem_filter.1 h).2

/-- A suspended context goes before what waits. -/
def goesBack (suspended waiting : Option BurinJob) : Bool :=
  match suspended, waiting with
  | some c, some w => !w.before c
  | some _, none => true
  | none, _ => false

theorem State.allocate_eq (s : State) : s.allocate =
    match s.idleCores.find? fun k => goesBack (bestJob (s.core k).susp) (bestJob s.burin.waiting) with
    | some k => match bestJob (s.core k).susp with
      | some j => (s.unsuspend k j).loadJob k j
      | none => s
    | none => match bestJob s.burin.waiting with
      | some j => match s.coreFor j.owner with
        | some k => s.takeCore k j
        | none => s
      | none => s := rfl

theorem Dispatched.allocate {s t : State} (h : Dispatched s t) : Dispatched s t.allocate := by
  rw [State.allocate_eq]
  split
  · next k hk =>
    have h0 := State.idleCores_idle (List.mem_of_find?_eq_some hk)
    split
    · next j _ =>
      obtain ⟨h1, h2⟩ := h.unsuspend h0 j
      exact h1.loadJob h2 j
    · exact h
  · split
    · split
      · next hk => exact h.takeCore (State.coreFor_idle hk) _
      · exact h
    · exact h

theorem Dispatched.dispatchJobs {s t : State} (h : Dispatched s t) : Dispatched s t.dispatchJobs := by
  have hN : ∀ n u, Dispatched s u → Dispatched s (State.allocateN n u) := fun n => by
    induction n with
    | zero => exact fun _ hu => hu
    | succ n ih => exact fun u hu => ih _ hu.allocate
  unfold State.dispatchJobs
  split
  · exact hN _ _ h
  · exact h

theorem State.dispatchJobs_busy (s : State) {k : Fin 4} (hk : (s.core k).state ≠ 0) : s.dispatchJobs.core k = s.core k :=
  ((Dispatched.of_burin rfl : Dispatched s s).dispatchJobs k).1 hk

theorem State.dispatchJobs_inService (s : State) {k : Fin 4} (hk : (s.core k).state = 0) : (s.dispatchJobs.core k).inService = true := by
  obtain h | h := ((Dispatched.of_burin rfl : Dispatched s s).dispatchJobs k).2.1 hk
  · exact Bool.or_eq_true_iff.2 (.inl (decide_eq_true h))
  · exact Bool.or_eq_true_iff.2 (.inr (decide_eq_true h))

/-! ## The best job -/

theorem bestJob_mem {l : List BurinJob} {b : BurinJob} (h : bestJob l = some b) : b ∈ l := by
  induction l with
  | nil => cases h
  | cons j l ih =>
    unfold bestJob at h
    split at h
    · next k hk =>
      split at h
      · cases h
        exact List.mem_cons_of_mem _ (ih hk)
      · cases h
        exact List.mem_cons_self
    · cases h
      exact List.mem_cons_self

theorem BurinJob.class_of_before {j k : BurinJob} (h : k.before j = true) : j.class ≤ k.class := by
  unfold BurinJob.before at h
  simp only [Bool.or_eq_true, Bool.and_eq_true, decide_eq_true_eq] at h
  omega

theorem BurinJob.class_of_not_before {j k : BurinJob} (h : ¬k.before j = true) : k.class ≤ j.class := by
  unfold BurinJob.before at h
  simp only [Bool.or_eq_true, Bool.and_eq_true, decide_eq_true_eq] at h
  omega

/-- No job waits whose class is higher than that of the best one. -/
theorem bestJob_class {l : List BurinJob} {w : BurinJob} (hw : w ∈ l) : ∃ b, bestJob l = some b ∧ w.class ≤ b.class := by
  induction l with
  | nil => cases hw
  | cons j l ih =>
    unfold bestJob
    cases hl : bestJob l with
    | none =>
      dsimp only
      refine ⟨j, rfl, ?_⟩
      obtain rfl | hm := List.mem_cons.1 hw
      · exact le_rfl
      · obtain ⟨b, hb, -⟩ := ih hm
        cases hl.symm.trans hb
    | some k =>
      dsimp only
      have hk : w = j ∨ w.class ≤ k.class := by
        obtain rfl | hm := List.mem_cons.1 hw
        · exact .inl rfl
        · obtain ⟨b, hb, hle⟩ := ih hm
          cases hl.symm.trans hb
          exact .inr hle
      split
      · next hb =>
        refine ⟨k, rfl, ?_⟩
        obtain rfl | h := hk
        · exact BurinJob.class_of_before hb
        · exact h
      · next hb =>
        refine ⟨j, rfl, ?_⟩
        obtain rfl | h := hk
        · exact le_rfl
        · exact h.trans (BurinJob.class_of_not_before hb)

/-! ## Single allocations -/

/-- A waiting job leaves the list. -/
def State.unqueue (s : State) (j : BurinJob) : State :=
  { s with burin := { s.burin with waiting := s.burin.waiting.filter fun x => x.id ≠ j.id } }

/-- The best waiting job takes a core where it goes before every suspended context of an idle core. -/
theorem State.allocate_waiting {s : State} {b : BurinJob} {i : Fin 4} (hb : bestJob s.burin.waiting = some b) (hi : s.coreFor b.owner = some i)
    (hf : bit b.flags.toNat 1 = false) (hs : ∀ k, (s.core k).state = 0 → ∀ c, bestJob (s.core k).susp = some c → b.before c = true) :
    s.allocate = (s.unqueue b).loadJob i b := by
  have hback : s.idleCores.find? (fun k => goesBack (bestJob (s.core k).susp) (some b)) = none := List.find?_eq_none.2 fun k hk => by
    cases hc : bestJob (s.core k).susp with
    | none => simp [goesBack]
    | some c => simp [goesBack, hs k (State.idleCores_idle hk) c hc]
  rw [State.allocate_eq, hb, hback]
  dsimp only
  rw [hi]
  dsimp only
  unfold State.takeCore
  dsimp only
  rw [if_neg (by rw [hf]; decide)]
  rfl

/-- Nothing changes where no core is idle, or nothing waits. -/
theorem State.allocate_still {s : State} (h : (∀ k, (s.core k).state ≠ 0) ∨ s.burin.waiting = [] ∧ ∀ k, (s.core k).susp = []) :
    s.allocate = s := by
  have hback : s.idleCores.find? (fun k => goesBack (bestJob (s.core k).susp) (bestJob s.burin.waiting)) = none :=
    List.find?_eq_none.2 fun k hk => by
      obtain h | ⟨-, h⟩ := h
      · exact absurd (State.idleCores_idle hk) (h k)
      · rw [h k]
        simp [goesBack, bestJob]
  rw [State.allocate_eq, hback]
  dsimp only
  obtain h | ⟨h, -⟩ := h
  · split
    · split
      · next hk => exact absurd (State.coreFor_idle hk) (h _)
      · rfl
    · rfl
  · rw [h]
    rfl

theorem State.allocateN_still {s : State} (h : (∀ k, (s.core k).state ≠ 0) ∨ s.burin.waiting = [] ∧ ∀ k, (s.core k).susp = []) (n : Nat) :
    State.allocateN n s = s := by
  induction n with
  | zero => rfl
  | succ n ih =>
    show State.allocateN n s.allocate = s
    rw [State.allocate_still h, ih]

theorem State.dispatchJobs_still {s : State} (h : (∀ k, (s.core k).state ≠ 0) ∨ s.burin.waiting = [] ∧ ∀ k, (s.core k).susp = []) :
    s.dispatchJobs = s := by
  unfold State.dispatchJobs
  split
  · exact State.allocateN_still h _
  · rfl

/-- Where one allocation leaves nothing more to do, it is all that happens. -/
theorem State.dispatchJobs_once {s t : State} (hd : s.dev.state = .running) (hc : s.dev.ccAbsent = false) (ha : s.allocate = t)
    (h : (∀ k, (t.core k).state ≠ 0) ∨ t.burin.waiting = [] ∧ ∀ k, (t.core k).susp = []) : s.dispatchJobs = t := by
  unfold State.dispatchJobs
  rw [if_pos (by simp [hd, hc])]
  show State.allocateN (s.burin.waiting.length + 11) s.allocate = t
  rw [ha, State.allocateN_still h]

end Sys2Proof.Machine
end


section
/-! SUPPORT. BURIN_OP (R193, R194). -/

namespace Sys2Proof.Machine

open Sys2Proof

/-! ## A descriptor that passes -/

/-- A chain of tests that ends in SUCCESS has passed its first test. -/
theorem passed_of_success {c : Prop} [Decidable c] {a b : Status} (h : (if c then a else b) = stSuccess) (ha : a ≠ stSuccess) :
    ¬c ∧ b = stSuccess := by
  split at h
  · exact absurd h ha
  · exact ⟨‹_›, h⟩

/-- What the tests of R193 ask of a descriptor, as far as its job depends on it. -/
theorem State.burinCheck_passed {s : State} {m : Mgr} {raw : List Byte} {resLen : Nat} (h : s.burinCheck m raw resLen = stSuccess) :
    let d := burinDesc raw
    burinPair d.op d.pset = true ∧ d.flags < 16 ∧ (∀ r ∈ d.needs, r ∈ d.roles.map Prod.fst) ∧ (∀ r ∈ d.roles.map Prod.fst, r ∈ d.needs) ∧
      (burinPq d.op = true → s.part.pq = true) ∧ outLen d.op d.pset d.modbits (d.flag 3) ≤ resLen := by
  dsimp only
  unfold State.burinCheck at h
  dsimp only at h
  obtain ⟨hshape, h⟩ := passed_of_success h (by decide)
  obtain ⟨hpq, h⟩ := passed_of_success h (by decide)
  obtain ⟨-, h⟩ := passed_of_success h (by decide)
  obtain ⟨-, h⟩ := passed_of_success h (by decide)
  obtain ⟨-, h⟩ := passed_of_success h (by decide)
  obtain ⟨hres, -⟩ := passed_of_success h (by decide)
  simp only [Bool.or_eq_true, Bool.not_eq_true', decide_eq_true_eq, not_or, Bool.not_eq_false, not_le, List.all_eq_true,
    List.contains_iff_mem] at hshape
  obtain ⟨⟨⟨⟨⟨⟨⟨⟨hpair, -⟩, hfl⟩, -⟩, -⟩, -⟩, hneeds⟩, hroles⟩, -⟩ := hshape
  refine ⟨hpair, hfl, hneeds, hroles, fun hp => ?_, not_lt.1 hres⟩
  rw [hp] at hpq
  simpa using hpq

/-- The codes of R191 fit their fields. -/
theorem burinPair_small {op pset : Nat} (h : burinPair op pset = true) : op < 256 ∧ pset < 256 := by
  unfold burinPair at h
  split at h <;> simp at h <;> omega

/-! ## The job of a BURIN_OP -/

/-- The operands of a command as its descriptor gives their roles and lengths. -/
def operandsOf (d : BurinDesc) (ops : List (List Byte)) : List Operand :=
  (d.roles.zip ops).map fun x => { role := BitVec.ofNat 8 x.1.1, bytes := slice x.2 0 x.1.2 }

/-- The job of a command. -/
def State.jobFor (s : State) (src : Src) (d : BurinDesc) (ops : List (List Byte)) : BurinJob :=
  { id := s.burin.nextId, owner := .queue src.mgr src.sq, cid := src.cid, cls := s.queueClass src, arrived := s.now,
    promoted := false, op := BitVec.ofNat 8 d.op, pset := BitVec.ofNat 8 d.pset, flags := BitVec.ofNat 8 d.flags,
    keySlot := BitVec.ofNat 16 d.keySlot, outSlot := BitVec.ofNat 16 d.outSlot, hash := BitVec.ofNat 8 d.hash,
    modbits := BitVec.ofNat 32 d.modbits, expbits := BitVec.ofNat 32 d.expbits, operands := operandsOf d ops, key := [], loaded := false,
    keyStamp := (match fin? 256 d.keySlot with | some k => (s.slot k).stamp | none => 0), ran := 0, since := 0 }

/-- A job stands in the waiting list. -/
def State.queueJob (s : State) (j : BurinJob) : State :=
  { s with burin := { s.burin with waiting := s.burin.waiting ++ [j], nextId := s.burin.nextId + 1 } }

/-- The refusal of a descriptor with its field (R193). -/
def State.refuseJob (s : State) (src : Src) (desc : List Byte) (st : Status) : State :=
  s.deliver src (ans st (if st = stInvalidField then (if s.burinCheck src.mgr desc (2 ^ 32) = stInvalidField then 16 else 40) else 0))

/-- j is the job of the command of src with descriptor d and operands ops. -/
def State.IsJob (s : State) (src : Src) (d : BurinDesc) (ops : List (List Byte)) (j : BurinJob) : Prop :=
  j.id = s.burin.nextId ∧ j.owner = .queue src.mgr src.sq ∧ j.cid = src.cid ∧ j.op.toNat = d.op ∧ j.pset.toNat = d.pset ∧
    j.flags.toNat = d.flags ∧ j.ran = 0 ∧ j.cls = s.queueClass src ∧ j.operands = operandsOf d ops

theorem State.jobFor_isJob {s : State} {src : Src} {d : BurinDesc} {ops : List (List Byte)} (hp : burinPair d.op d.pset = true)
    (hf : d.flags < 16) : s.IsJob src d ops (s.jobFor src d ops) := by
  obtain ⟨ho, hps⟩ := burinPair_small hp
  have hsmall : ∀ {n : Nat}, n < 256 → (BitVec.ofNat 8 n).toNat = n := fun h => (BitVec.toNat_ofNat _ _).trans (Nat.mod_eq_of_lt h)
  exact ⟨rfl, rfl, rfl, hsmall ho, hsmall hps, hsmall (by omega), rfl, rfl, rfl⟩

/-- BURIN_OP (R193, R194): its checks in order, or its job. -/
theorem exec_burinOp {s : State} {src : Src} {desc : List Byte} {resLen : Nat} {ops : List (List Byte)}
    (ha : s.allows (.burinOp src desc resLen ops)) :
    exec (.burinOp src desc resLen ops) s = .next
      (if burinPq (burinDesc desc).op = true ∧ s.version src.mgr < 0x0201 then s.deliver src (ans stVersionUnsupported)
       else if desc.length < 32 ∨ 160 < desc.length then s.deliver src (ans stInvalidField 24)
       else if s.burinCheck src.mgr desc resLen ≠ stSuccess then s.refuseJob src desc (s.burinCheck src.mgr desc resLen)
       else if ((burinDesc desc).op = 0x10 ∨ (burinDesc desc).op = 0x11) ∧ s.drbg.keyState ≠ 1 then s.deliver src (ans stNotPermitted)
       else (s.queueJob (s.jobFor src (burinDesc desc) ops)).dispatchJobs.noteCommit s src) := by
  rw [exec_own ha rfl rfl]
  refine congrArg Host.Outcome.next ?_
  by_cases h1 : burinPq (burinDesc desc).op = true ∧ s.version src.mgr < 0x0201
  · rw [if_pos h1]
    refine (congrArg (fun t : State => t.noteCommit s src) (if_pos ?_)).trans (State.answered_alone _ _ _)
    simpa using h1
  rw [if_neg h1, if_neg (show ¬(burinPq (burinDesc desc).op && decide (s.version src.mgr < 0x0201)) = true by simpa using h1)]
  by_cases h2 : desc.length < 32 ∨ 160 < desc.length
  · rw [if_pos h2]
    refine (congrArg (fun t : State => t.noteCommit s src) (if_pos ?_)).trans (State.answered_alone _ _ _)
    simpa using h2
  rw [if_neg h2, if_neg (show ¬(decide (desc.length < 32) || decide (160 < desc.length)) = true by simpa using h2)]
  split
  · next h3 =>
    rw [if_neg (show ¬s.burinCheck src.mgr desc resLen ≠ stSuccess from not_not_intro h3)]
    by_cases h4 : ((burinDesc desc).op = 0x10 ∨ (burinDesc desc).op = 0x11) ∧ s.drbg.keyState ≠ 1
    · rw [if_pos h4]
      refine (congrArg (fun t : State => t.noteCommit s src) (if_pos ?_)).trans (State.answered_alone _ _ _)
      simpa using h4
    · rw [if_neg h4]
      refine congrArg (fun t : State => t.noteCommit s src) ((if_neg ?_).trans rfl)
      simpa using h4
  · next h3 =>
    rw [if_pos (show s.burinCheck src.mgr desc resLen ≠ stSuccess from h3)]
    exact State.answered_alone _ _ _

/-! ## Where the job goes -/

/-- A job leaves or enters neither the count of jobs when cores are allocated. -/
def SameIds (s t : State) : Prop := t.burin.nextId = s.burin.nextId

theorem SameIds.takeCore (s : State) (k : Fin 4) (j : BurinJob) : SameIds s (s.takeCore k j) := by
  have hfin : ∀ (u : State) st, u.burin.nextId = s.burin.nextId → SameIds s (u.finishJob j st) := fun u st hu =>
    (congrArg Burin.nextId (State.finishJob_burin u j st 0 [])).trans hu
  unfold State.takeCore
  dsimp only
  split
  · split
    · split
      · split
        · exact rfl
        · exact hfin _ _ rfl
      · exact hfin _ _ rfl
    · exact hfin _ _ rfl
  · exact rfl

theorem SameIds.allocate (s : State) : SameIds s s.allocate := by
  rw [State.allocate_eq]
  split
  · split
    · exact rfl
    · exact rfl
  · split
    · split
      · exact SameIds.takeCore _ _ _
      · exact rfl
    · exact rfl

theorem SameIds.dispatchJobs (s : State) : SameIds s s.dispatchJobs := by
  have hN : ∀ n u, SameIds u (State.allocateN n u) := fun n => by
    induction n with
    | zero => exact fun _ => rfl
    | succ n ih => exact fun u => (ih u.allocate).trans (SameIds.allocate u)
  unfold State.dispatchJobs
  split
  · exact hN _ _
  · exact rfl

/-- Where every core is busy, the job waits. -/
theorem State.queueJob_busy {s : State} (j : BurinJob) (h : ∀ i, (s.core i).state ≠ 0) :
    (s.queueJob j).dispatchJobs.burin.waiting = s.burin.waiting ++ [j] := by
  rw [State.dispatchJobs_still (s := s.queueJob j) (.inl h)]
  rfl

theorem State.coreFor_some {s : State} {i : Fin 4} (h : (s.core i).state = 0) (o : Owner) : ∃ k, s.coreFor o = some k := by
  have hi : i ∈ (List.finRange 4).filter fun k => (s.core k).state = 0 := List.mem_filter.2 ⟨List.mem_finRange _, decide_eq_true h⟩
  unfold State.coreFor
  dsimp only
  cases hl : (List.finRange 4).filter fun k => (s.core k).state = 0 with
  | nil => rw [hl] at hi; cases hi
  | cons k l =>
    cases (k :: l).find? fun k => (s.core k).lastOwner = o with
    | none => exact ⟨k, rfl⟩
    | some k' => exact ⟨k', rfl⟩

/-- An idle core that the owner used last goes first (R204). -/
theorem State.coreFor_own {s : State} {i k : Fin 4} {o : Owner} (hk : s.coreFor o = some k) (h : (s.core i).state = 0)
    (ho : (s.core i).lastOwner = o) : (s.core k).lastOwner = o := by
  have hi : i ∈ (List.finRange 4).filter fun k => (s.core k).state = 0 := List.mem_filter.2 ⟨List.mem_finRange _, decide_eq_true h⟩
  unfold State.coreFor at hk
  dsimp only at hk
  cases hf : ((List.finRange 4).filter fun k => (s.core k).state = 0).find? fun k => (s.core k).lastOwner = o with
  | none => exact absurd ho (by simpa using List.find?_eq_none.1 hf i hi)
  | some k' =>
    rw [hf] at hk
    cases hk
    simpa using List.find?_some hf

theorem Core.loaded_job (now : Nat) (j : BurinJob) (c : Core) : (c.loaded now j).job = some { j with
    loaded := true,
    since := max now c.wipeEnd + (if c.lastOwner ≠ .none ∧ c.lastOwner ≠ j.owner then 8000 else 0) } := by
  unfold Core.loaded
  dsimp only
  by_cases h : c.lastOwner ≠ .none ∧ c.lastOwner ≠ j.owner
  · rw [if_pos h, if_pos (by simpa using h)]
    have : max now (max now c.wipeEnd + 8 * usec) = max now c.wipeEnd + 8000 := max_eq_right (by omega)
    exact congrArg (fun x => some { j with loaded := true, since := x }) this
  · rw [if_neg h, if_neg (by simpa using h)]
    rfl

/-- Where a core is idle and nothing else waits, the job takes one. -/
theorem State.queueJob_idle {s : State} {j : BurinJob} {i : Fin 4} (hd : s.dev.state = .running) (hc : s.dev.ccAbsent = false)
    (hw : s.burin.waiting = []) (hs : ∀ i, (s.core i).susp = []) (hf : bit j.flags.toNat 1 = false) (hi : (s.core i).state = 0) :
    ∃ k, s.coreFor j.owner = some k ∧ (s.queueJob j).dispatchJobs = ((s.queueJob j).unqueue j).loadJob k j ∧
      ((s.queueJob j).dispatchJobs).burin.waiting = [] := by
  obtain ⟨k, hk⟩ := State.coreFor_some hi j.owner
  have hq : (s.queueJob j).burin.waiting = [j] := by
    show s.burin.waiting ++ [j] = [j]
    rw [hw]
    rfl
  have hal : (s.queueJob j).allocate = ((s.queueJob j).unqueue j).loadJob k j := by
    refine State.allocate_waiting (by rw [hq]; rfl) hk hf fun i _ c hc => ?_
    rw [show ((s.queueJob j).core i).susp = [] from hs i] at hc
    cases hc
  have hw' : (((s.queueJob j).unqueue j).loadJob k j).burin.waiting = [] := by
    show (s.queueJob j).burin.waiting.filter (fun x => x.id ≠ j.id) = []
    rw [hq]
    simp
  have hdis := State.dispatchJobs_once (s := s.queueJob j) hd hc hal (.inr ⟨hw', fun i => by
    rw [State.loadJob_eq]
    by_cases hik : i = k
    · subst hik
      rw [State.modCore_core]
      obtain ⟨-, -, -, -, h⟩ := Core.loaded_kept ((s.queueJob j).unqueue j).now j (((s.queueJob j).unqueue j).core i)
      exact h.trans (hs i)
    · rw [State.modCore_core_ne _ _ _ hik]
      exact hs i⟩)
  exact ⟨k, hk, hdis, by rw [hdis]; exact hw'⟩

/-- A chain of refusals that refuses nothing has passed its first test. -/
theorem passed_of_none {c : Prop} [Decidable c] {α : Type} {a : α} {b : Option α} (h : (if c then some a else b) = none) : ¬c ∧ b = none := by
  split at h
  · cases h
  · exact ⟨‹_›, h⟩

/-- A command of an I/O queue that is taken finds the device running with its control cluster. -/
theorem State.takes_running {s : State} {src : Src} {g : Gate} (h : s.takes src g) (hg : g.queue = .io) (hf : g.fast = false)
    (hs : g.safeHold = false) : s.dev.state = .running ∧ s.dev.ccAbsent = false := by
  obtain ⟨hw, hst, -⟩ := h
  unfold State.waits at hw
  rw [hf] at hw
  simp only [Bool.or_eq_false_iff, Bool.not_eq_false', Bool.not_false, Bool.and_true] at hw
  obtain ⟨⟨⟨-, hcons⟩, hcc⟩, -⟩ := hw
  refine ⟨?_, hcc⟩
  unfold State.gateStatus at hst
  rw [hg, hs] at hst
  have hio : src.sq ≠ 0 := fun h0 => by
    rw [show QueueKind.io.wrong src.sq = true from decide_eq_true h0] at hst
    split at hst
    · cases hst
    · cases hst
  unfold State.consumes at hcons
  cases hd : s.dev.state with
  | running => rfl
  | safeHold =>
    rw [hd] at hst
    obtain ⟨-, hst⟩ := passed_of_none hst
    obtain ⟨-, hst⟩ := passed_of_none hst
    obtain ⟨-, hst⟩ := passed_of_none hst
    obtain ⟨hst, -⟩ := passed_of_none hst
    exact absurd rfl hst
  | deviceRecovery =>
    rw [hd] at hcons
    exact absurd (of_decide_eq_true hcons) hio
  | start =>
    rw [hd] at hcons
    exact absurd (of_decide_eq_true hcons) hio
  | por => rw [hd] at hcons; cases hcons
  | shadow => rw [hd] at hcons; cases hcons
  | rom => rw [hd] at hcons; cases hcons
  | standby => rw [hd] at hcons; cases hcons

/-! ## The clause of the statement -/

/-- What a BURIN_OP that is accepted leaves. -/
theorem State.burinOp_accepted {s : State} {src : Src} {desc : List Byte} {resLen : Nat} {ops : List (List Byte)}
    (ha : s.allows (.burinOp src desc resLen ops)) (hok : s.burinCheck src.mgr desc resLen = stSuccess) :
    let d := burinDesc desc
    let t := (s.queueJob (s.jobFor src d ops)).dispatchJobs.noteCommit s src
    let own := Owner.queue src.mgr src.sq
    t.burin.nextId = s.burin.nextId + 1 ∧
      burinPair d.op d.pset = true ∧ (burinPq d.op = true → s.part.pq = true) ∧ outLen d.op d.pset d.modbits (d.flag 3) ≤ resLen ∧
      (∀ r ∈ d.needs, r ∈ d.roles.map Prod.fst) ∧ (∀ r ∈ d.roles.map Prod.fst, r ∈ d.needs) ∧
      ((∀ i, (s.core i).state ≠ 0) → ∃ j, s.IsJob src d ops j ∧ t.burin.waiting = s.burin.waiting ++ [j]) ∧
      (s.burin.waiting = [] → (∀ i, (s.core i).susp = []) → d.flag 1 = false → (∃ i, (s.core i).state = 0) →
        ∃ i j, s.IsJob src d ops j ∧ (s.core i).state = 0 ∧ (t.core i).state = 1 ∧ (t.core i).job = some j ∧ t.burin.waiting = [] ∧
          j.since = max s.now (s.core i).wipeEnd + (if (s.core i).lastOwner ≠ .none ∧ (s.core i).lastOwner ≠ own then 8000 else 0) ∧
          ((∃ i', (s.core i').state = 0 ∧ (s.core i').lastOwner = own) → (s.core i).lastOwner = own)) := by
  dsimp only
  obtain ⟨hp, hfl, hn, hr, hpq, hres⟩ := State.burinCheck_passed hok
  have hj := State.jobFor_isJob (s := s) (src := src) (ops := ops) hp hfl
  obtain ⟨hd, hc⟩ := State.takes_running (ha _ _ rfl) rfl rfl rfl
  generalize hjd : s.jobFor src (burinDesc desc) ops = j at hj
  have hb : ∀ u : State, (u.noteCommit s src).burin = u.burin := fun u => State.noted_frame u s src .burin (by decide)
  have hcore : ∀ (u : State) i, (u.noteCommit s src).core i = u.core i := fun u i => congrArg (fun b : Burin => vget b.cores i) (hb u)
  rw [hb]
  refine ⟨SameIds.dispatchJobs _, hp, hpq, hres, hn, hr, fun hbusy => ⟨j, hj, State.queueJob_busy j hbusy⟩, fun hw hs hflag ⟨i, hi⟩ => ?_⟩
  have hf : bit j.flags.toNat 1 = false := by rw [hj.2.2.2.2.2.1]; exact hflag
  obtain ⟨k, hk, hdis, hwait⟩ := State.queueJob_idle (j := j) hd hc hw hs hf hi
  have hown : j.owner = .queue src.mgr src.sq := hj.2.1
  have hload : (((s.queueJob j).unqueue j).loadJob k j).core k = (s.core k).loaded s.now j := by
    rw [State.loadJob_eq, State.modCore_core]
    rfl
  have htc : ((s.queueJob j).dispatchJobs.noteCommit s src).core k = (s.core k).loaded s.now j := by rw [hcore, hdis, hload]
  have hjob := Core.loaded_job s.now j (s.core k)
  obtain ⟨hst, -⟩ := Core.loaded_kept s.now j (s.core k)
  refine ⟨k, { j with
    loaded := true,
    since := max s.now (s.core k).wipeEnd + (if (s.core k).lastOwner ≠ .none ∧ (s.core k).lastOwner ≠ j.owner then 8000 else 0) },
    hj, State.coreFor_idle hk, by rw [htc]; exact hst, by rw [htc]; exact hjob, hwait, by rw [hown], fun ⟨i', h0, ho⟩ => ?_⟩
  rw [hown] at hk
  exact State.coreFor_own hk h0 ho

end Sys2Proof.Machine
end


section
/-! SUPPORT. Burin's cores leaving service (R201, R202) and the counters of their jobs. -/

namespace Sys2Proof.Machine

open Sys2Proof

/-! ## A core that leaves service -/

/-- A core whose jobs are aborted. -/
def Core.stopped (now : Nat) (wipe : Bool) (c : Core) : Core :=
  let c' := Core.abort { c with job := none, susp := [], state := if c.state = 1 then 0 else c.state,
                                lastOwner := match c.job with | some j => j.owner | none => c.lastOwner } (c.job.toList ++ c.susp).length
  if wipe || c.job.isSome then c'.wipe now else c'

theorem Core.stopped_parts (now : Nat) (wipe : Bool) (c : Core) : (c.stopped now wipe).job = none ∧ (c.stopped now wipe).susp = [] ∧
    (c.stopped now wipe).jobs = c.jobs ∧ (c.stopped now wipe).lastCycles = c.lastCycles ∧ (c.stopped now wipe).faults = c.faults := by
  unfold Core.stopped
  dsimp only
  split
  · exact ⟨rfl, rfl, rfl, rfl, rfl⟩
  · exact ⟨rfl, rfl, rfl, rfl, rfl⟩

theorem State.finishJobs_burin (s : State) (l : List BurinJob) (st : Status) : (s.forAll l fun j s => s.finishJob j st).burin = s.burin := by
  unfold State.forAll
  induction l generalizing s with
  | nil => rfl
  | cons j l ih => exact (ih _).trans (State.finishJob_burin s j st 0 [])

/-- The jobs of a core complete with ABORTED. -/
theorem State.abortCore_burin (s : State) (k : Fin 4) (wipe : Bool) :
    (s.abortCore k wipe).burin = (s.modCore k (Core.stopped s.now wipe)).burin := by
  unfold State.abortCore
  dsimp only
  rw [State.finishJobs_burin]
  exact congrArg (fun v => { s.burin with cores := v }) (vmod_congr rfl)

theorem State.core_of_burin {s t : State} (h : t.burin = s.burin) (k : Fin 4) : t.core k = s.core k :=
  congrArg (fun b : Burin => vget b.cores k) h

theorem State.abortCore_core (s : State) (k : Fin 4) (wipe : Bool) : (s.abortCore k wipe).core k = (s.core k).stopped s.now wipe :=
  (State.core_of_burin (s.abortCore_burin k wipe) k).trans (s.modCore_core _ _)

theorem State.abortCore_core_ne (s : State) {k i : Fin 4} (h : i ≠ k) (wipe : Bool) : (s.abortCore k wipe).core i = s.core i :=
  (State.core_of_burin (s.abortCore_burin k wipe) i).trans (s.modCore_core_ne _ _ h)

theorem State.coreOut_core (s : State) (k : Fin 4) (reason : Nat) (test : Bool) : (s.coreOut k reason test).core k =
    { (s.core k).stopped s.now test with state := if test then 3 else 4, outAfter := false, testEnd := s.now + 2000000 } := by
  have hn : (s.abortCore k test).now = s.now := State.abortCore_frame (Frame.refl _ s) (Field.sub_refl _) .now (by decide)
  unfold State.coreOut
  dsimp only
  rw [show ∀ u : State, (u.unitOut unitBurin k.1 reason).core k = u.core k from fun _ => rfl, State.modCore_core, State.abortCore_core, hn]
  rfl

theorem State.coreOut_core_ne (s : State) {k i : Fin 4} (h : i ≠ k) (reason : Nat) (test : Bool) :
    (s.coreOut k reason test).core i = s.core i :=
  (State.modCore_core_ne _ _ _ h).trans (s.abortCore_core_ne h test)

/-! ## Counters of ended jobs -/

/-- From s to t no core counts an ended job. -/
def Tallied (s t : State) : Prop := ∀ k, (t.core k).jobs = (s.core k).jobs ∧ (t.core k).lastCycles = (s.core k).lastCycles

theorem Tallied.comp {s t u : State} (h : Tallied s t) (k : Tallied t u) : Tallied s u := fun i =>
  ⟨(k i).1.trans (h i).1, (k i).2.trans (h i).2⟩

theorem Tallied.of_burin {s t : State} (h : t.burin.cores = s.burin.cores) : Tallied s t := fun k => by
  rw [show t.core k = s.core k from congrArg (vget · k) h]
  exact ⟨rfl, rfl⟩

theorem Tallied.respects : Respects .burin Tallied where
  refl := fun _ => .of_burin rfl
  comp := Tallied.comp
  of_frame := fun h hf => .of_burin (congrArg Burin.cores (h .burin hf))

theorem Tallied.of_core {s t : State} {k : Fin 4} (hne : ∀ i, i ≠ k → t.core i = s.core i)
    (hk : (t.core k).jobs = (s.core k).jobs ∧ (t.core k).lastCycles = (s.core k).lastCycles) : Tallied s t := fun i => by
  by_cases hi : i = k
  · subst hi
    exact hk
  · rw [hne i hi]
    exact ⟨rfl, rfl⟩

theorem Tallied.modCore {s t : State} (h : Tallied s t) {k : Fin 4} {f : Core → Core}
    (hf : (f (t.core k)).jobs = (t.core k).jobs ∧ (f (t.core k)).lastCycles = (t.core k).lastCycles) : Tallied s (t.modCore k f) :=
  h.comp (.of_core (k := k) (fun i hi => t.modCore_core_ne _ _ hi) (by rw [State.modCore_core]; exact hf))

theorem Tallied.abortCore {s t : State} (h : Tallied s t) (k : Fin 4) (wipe : Bool) : Tallied s (t.abortCore k wipe) := by
  obtain ⟨-, -, h1, h2, -⟩ := Core.stopped_parts t.now wipe (t.core k)
  exact h.comp (.of_core (k := k) (fun i hi => t.abortCore_core_ne hi wipe) (by rw [State.abortCore_core]; exact ⟨h1, h2⟩))

theorem Tallied.coreOut {s t : State} (h : Tallied s t) (k : Fin 4) (reason : Nat) (test : Bool) : Tallied s (t.coreOut k reason test) := by
  obtain ⟨-, -, h1, h2, -⟩ := Core.stopped_parts t.now test (t.core k)
  exact h.comp (.of_core (k := k) (fun i hi => t.coreOut_core_ne hi reason test) (by rw [State.coreOut_core]; exact ⟨h1, h2⟩))

theorem Tallied.dispatchJobs {s t : State} (h : Tallied s t) : Tallied s t.dispatchJobs := h.comp fun k =>
  ((Dispatched.of_burin rfl : Dispatched t t).dispatchJobs k).2.2

theorem Tallied.burnish {s t : State} (h : Tallied s t) (source level : Nat) : Tallied s (t.burnish source level) := by
  rw [State.burnish_eq]
  have hR := Tallied.respects
  have h1 : Tallied s (t.burnishHeld source) :=
    hR.step (State.forChans_keeps hR (hR.step h (t.burnishBegun_frame source) (by decide)) fun n u =>
      hR.of_frame (State.burnishChan_frame (Frame.refl _ u) (Field.sub_refl _)) (by decide))
      (State.endOtp_frame (Frame.refl _ _) (Field.sub_refl _)) (by decide)
  have h2 : Tallied s (t.burnishHeld source).burnishKeys := by
    rw [State.burnishKeys_eq]
    exact State.forAll_keeps hR (hR.step h1 (State.keysEmptied_frame _) (by decide)) fun k u => (hR.refl u).abortCore k true
  refine Tallied.dispatchJobs ?_
  exact State.logKey_keeps hR (by decide) (State.raise_keeps hR (by decide) (State.raise_keeps hR (by decide)
    (hR.step h2 (State.storesEmptied_frame _) (by decide))))

theorem Tallied.trip {s t : State} (h : Tallied s t) (sources : List Nat) : Tallied s (t.trip sources) := by
  have hR := Tallied.respects
  have h1 : Tallied s ((t.tripMarked sources).tripBurnt (t.tripNew sources)) := by
    have h0 : Tallied s (t.tripMarked sources) := hR.step h (t.tripMarked_frame sources) (by decide)
    unfold State.tripBurnt
    split
    · exact h0.burnish _ _
    · exact h0
  rw [State.trip_eq]
  split
  · exact hR.step h1 (State.wakeUp_frame (Frame.refl _ _) (Field.sub_refl _)) (by decide)
  · exact h1

theorem Tallied.noteFault {s t : State} (h : Tallied s t) : Tallied s t.noteFault := by
  rw [State.noteFault_eq]
  split
  · exact (h.comp (.of_burin (t := t.faultNoted.raise _ _ _) rfl)).trip [9]
  · exact h.comp (.of_burin rfl)

theorem Tallied.coreFaulted {s t : State} (h : Tallied s t) (k : Fin 4) (j : BurinJob) (res : List Byte) : Tallied s (t.coreFaulted k j res) := by
  refine Tallied.dispatchJobs ?_
  rw [State.coreFault_eq]
  refine Tallied.noteFault ?_
  have h1 : Tallied s ((t.modCore k fun c => { c with job := none }).finishJob j stFaultDetected 0 res) :=
    (h.modCore ⟨rfl, rfl⟩).comp (.of_burin (congrArg Burin.cores (State.finishJob_burin _ _ _ _ _)))
  exact ((h1.modCore ⟨rfl, rfl⟩).coreOut k coreFaultReason true).comp (.of_burin rfl)

/-! ## A fault without a Burnish -/

theorem State.tripNew_mem {s : State} {l : List Nat} {i : Nat} (h : i ∈ s.tripNew l) : i ∈ l := (List.mem_filter.1 h).1

theorem State.tamperLevel_of_frame {fs : List Field} {s t : State} (h : Frame fs s t) (hp : Field.tamperPol ∉ fs) (hd : Field.dcfg ∉ fs)
    (i : Nat) : t.tamperLevel i = s.tamperLevel i := by
  unfold State.tamperLevel
  rw [show t.tamperPol = s.tamperPol from h .tamperPol hp, show t.dcfg = s.dcfg from h .dcfg hd]

/-- A trip of sources below level 3 leaves Burin. -/
theorem State.trip_burin {s : State} {l : List Nat} (h : ∀ i ∈ l, s.tamperLevel i ≠ 3) : (s.trip l).burin = s.burin := by
  have h1 : ((s.tripMarked l).tripBurnt (s.tripNew l)).burin = s.burin := by
    have hn : (s.tripNew l).find? (fun i => (s.tripMarked l).tamperLevel i = 3) = none := List.find?_eq_none.2 fun i hi => by
      rw [State.tamperLevel_of_frame (s.tripMarked_frame l) (by decide) (by decide)]
      simpa using h i (State.tripNew_mem hi)
    unfold State.tripBurnt
    rw [hn]
    exact s.tripMarked_frame l .burin (by decide)
  rw [State.trip_eq]
  split
  · exact (State.wakeUp_frame (Frame.refl _ _) (Field.sub_refl _) .burin (by decide)).trans h1
  · exact h1

theorem State.noteFault_cores {s : State} (h : s.tamperLevel 9 ≠ 3) : s.noteFault.burin.cores = s.burin.cores := by
  rw [State.noteFault_eq]
  split
  · rw [State.trip_burin fun i hi => by rwa [List.mem_singleton.1 hi]]
    rfl
  · rfl

/-- A core whose job fails its check goes to its self-test (R201). -/
theorem State.coreFaulted_core {s : State} {k : Fin 4} {j : BurinJob} {res : List Byte} (h : s.tamperLevel 9 ≠ 3) :
    let c := (s.coreFaulted k j res).core k
    c.state = 3 ∧ c.job = none ∧ c.susp = [] ∧ c.faults = satInc (s.core k).faults ∧ c.testEnd = s.now + 2000000 := by
  dsimp only
  have hfr : Frame [.burin, .rings, .views, .awaits, .dev] s ((s.modCore k fun c => { c with job := none }).finishJob j stFaultDetected 0 res) :=
    State.finishJob_frame (State.modCore_frame (Frame.refl _ s) (by decide)) (by decide)
  have hcore : ((s.modCore k fun c => { c with job := none }).finishJob j stFaultDetected 0 res).core k = { s.core k with job := none } :=
    (State.core_of_burin (State.finishJob_burin _ _ _ _ _) k).trans (State.modCore_core _ _ _)
  unfold State.coreFaulted
  dsimp only
  generalize (s.modCore k fun c => { c with job := none }).finishJob j stFaultDetected 0 res = u at hfr hcore
  have hlev : (u.coreFailed k j.owner j.op.toNat).tamperLevel 9 ≠ 3 := by
    rw [State.tamperLevel_of_frame (fs := [.burin, .rings, .views, .awaits, .dev]) (s := u) ?_ (by decide) (by decide),
      State.tamperLevel_of_frame hfr (by decide) (by decide)]
    · exact h
    · exact State.raise_frame (State.coreOut_frame (State.modCore_frame (Frame.refl _ u) (by decide)) (by decide)) (by decide)
  have hfail : (u.coreFailed k j.owner j.op.toNat).core k =
      { ({ u.core k with job := none, lastOwner := j.owner, faults := satInc (u.core k).faults } : Core).stopped u.now true with
        state := 3, outAfter := false, testEnd := u.now + 2000000 } := by
    refine (State.coreOut_core _ _ coreFaultReason true).trans ?_
    rw [State.modCore_core]
    rfl
  have hnow : u.now = s.now := hfr .now (by decide)
  have hend : ((u.coreFault k j.owner j.op.toNat).dispatchJobs).core k = (u.coreFailed k j.owner j.op.toNat).core k := by
    have hc : (u.coreFault k j.owner j.op.toNat).core k = (u.coreFailed k j.owner j.op.toNat).core k := by
      rw [State.coreFault_eq]
      exact congrArg (vget · k) (State.noteFault_cores hlev)
    rw [State.dispatchJobs_busy _ (by rw [hc, hfail]; exact (by decide : (3 : BitVec 3) ≠ 0)), hc]
  rw [hend, hfail, hcore, hnow]
  exact ⟨rfl, rfl, rfl, rfl, rfl⟩

end Sys2Proof.Machine
end


section
/-! SUPPORT. The end of a Burin job (R197 to R202). -/

namespace Sys2Proof.Machine

open Sys2Proof

/-! ## The end of a job -/

/-- The attempt slots of a job (R198). -/
def BurinJob.slotsOf (j : BurinJob) (ev : JobEv) : Nat :=
  if j.op = 0x0A then (if ev.exhausted = true then 256 else max 1 (min 256 ev.slots.toNat)) else 0

/-- The status of a job's inputs, with the exhausted slots of an ML-DSA signature (R198, R199). -/
def BurinJob.edgeOf (j : BurinJob) (ev : JobEv) : Status := if j.op = 0x0A ∧ ev.exhausted = true then stResultInvalid else j.edge

/-- A job's computation is over: its end is counted and its time recorded. -/
def State.jobSpent (s : State) (k : Fin 4) (due time : Nat) : State :=
  (s.until due).modCore k fun c => { c with lastCycles := BitVec.ofNat 32 (min time (2 ^ 32 - 1)), jobs := satInc c.jobs }

/-- The core is idle after its job. -/
def State.jobLeft (s : State) (k : Fin 4) (j : BurinJob) : State :=
  s.modCore k fun c => { c with job := none, state := 0, lastOwner := j.owner }

/-- The job's command completes. -/
def State.jobAnswered (s : State) (j : BurinJob) (st : Status) (slots : Nat) (dma : Option DmaFail) (res : List Byte) : State :=
  if st = stSuccess then s.jobOutput j slots dma res else (s.jobDraws j slots).finishJob j st 0 res

/-- A core that TAKE_OUT waits for leaves service. -/
def State.takenOut (s : State) (k : Fin 4) : State := if (s.core k).outAfter then s.coreOut k coreTaken false else s

/-- The end of a job (R197 to R202). -/
theorem exec_burinJobDone {s : State} {k : Fin 4} {j : BurinJob} {ev : JobEv} (hj : (s.core k).job = some j) (hw : s.outWaits j = false) :
    exec (.burinJobDone k ev) s = .next
      (let slots := j.slotsOf ev
       let time := j.time slots (popCount s.farm.lanes)
       let e := s.jobSpent k (j.since + (time - j.ran)) time
       let res := burinResultBytes time slots k.1
       if ev.fault = true ∧ j.canFault (j.edgeOf ev) = true then (e.jobDraws j slots).coreFaulted k j res
       else (((e.jobLeft k j).jobAnswered j (j.edgeOf ev) slots ev.dma res).takenOut k).dispatchJobs) := by
  refine congrArg Host.Outcome.next ?_
  rw [hj]
  dsimp only
  rw [if_neg (by rw [hw]; decide)]
  have hedge : (if (decide (j.op = 0x0A) && ev.exhausted) = true then stResultInvalid else j.edge) = j.edgeOf ev := by
    unfold BurinJob.edgeOf
    simp only [Bool.and_eq_true, decide_eq_true_eq]
  rw [hedge]
  by_cases hf : ev.fault = true ∧ j.canFault (j.edgeOf ev) = true
  · rw [if_pos hf]
    exact if_pos (by simpa using hf)
  · rw [if_neg hf]
    exact if_neg (by simpa using hf)

/-! ## The output of a job -/

/-- The output has nowhere to go: its slot takes no secret, or KEY is not ready (R193, R206, R258). -/
def State.jobRefused (s : State) (m : Mgr) (j : BurinJob) : Prop :=
  bit j.flags.toNat 3 = true ∧ s.slotWritable m j.outSlot.toNat (secretType j.op.toNat j.pset.toNat) = false ∨
    s.jobNeedsKey j = true ∧ s.drbg.keyState ≠ 1

theorem State.jobDraws_keyState (s : State) (j : BurinJob) (slots : Nat) : (s.jobDraws j slots).drbg.keyState = s.drbg.keyState := by
  unfold State.jobDraws
  split
  · rfl
  · rfl

theorem State.jobRefused_tests (s : State) (m : Mgr) (j : BurinJob) (slots : Nat) : s.jobRefused m j ↔
    (bit j.flags.toNat 3 && !(s.jobDraws j slots).slotWritable m j.outSlot.toNat (secretType j.op.toNat j.pset.toNat)) = true ∨
      (s.jobNeedsKey j && decide ((s.jobDraws j slots).drbg.keyState ≠ 1)) = true := by
  have hfr : Frame [.drbg, .drawn] s (s.jobDraws j slots) := State.jobDraws_frame (Frame.refl _ s) (by decide)
  have hs : ∀ i, (s.jobDraws j slots).slot i = s.slot i := fun i => congrArg (fun x : KeyStore => vget x.slots i) (hfr .keys (by decide))
  have hl : (s.jobDraws j slots).tamper = s.tamper := hfr .tamper (by decide)
  unfold State.jobRefused State.slotWritable
  simp only [hs, hl, s.jobDraws_keyState, Bool.and_eq_true, Bool.not_eq_true', decide_eq_true_eq]

/-- The bytes that a job delivers. -/
def State.jobOut (s : State) (j : BurinJob) (slots : Nat) : List Byte := j.result (s.drawn + (max 1 slots - 1))

/-- A buffer that takes what the link let through. -/
def State.partBuffer (s : State) (src : Src) (d : List Byte) (n : Nat) : State := if n = 0 then s else s.toBuffer src (d.take n)

/-- A buffer that takes bytes, if there are some. -/
def State.wholeBuffer (s : State) (src : Src) (d : List Byte) : State := if d.isEmpty then s else s.toBuffer src d

section

variable {s : State} {j : BurinJob} {src : Src} {slots : Nat} {dma : Option DmaFail} {res : List Byte}
  (ho : j.owner = .queue src.mgr src.sq) (hcid : j.cid = src.cid)

include ho hcid

theorem State.jobOutput_refused (h : s.jobRefused src.mgr j) :
    s.jobOutput j slots dma res = (s.jobDraws j slots).finish src stNotPermitted 0 res := by
  have hr := (s.jobRefused_tests src.mgr j slots).1 h
  unfold State.jobOutput
  dsimp only
  rw [ho]
  dsimp only
  rw [hcid]
  split
  · rfl
  · next h1 => rw [if_pos (hr.resolve_left h1)]

theorem State.jobOutput_failed {f : DmaFail} (h : ¬s.jobRefused src.mgr j) (hout : s.jobOut j slots ≠ []) :
    s.jobOutput j slots (some f) res = ((((s.jobDraws j slots).partBuffer src (s.jobOut j slots) f.wrote).ringDmaFailed src.mgr f.kind
      f.addr).finish src stAborted 32 res) := by
  have hr := mt (s.jobRefused_tests src.mgr j slots).2 h
  rw [not_or] at hr
  unfold State.jobOutput
  dsimp only
  rw [ho]
  dsimp only
  rw [hcid, if_neg hr.1, if_neg hr.2, if_neg (show ¬(j.result (s.drawn + (max 1 slots - 1))).isEmpty = true by simpa [State.jobOut] using hout)]
  rfl

theorem State.jobOutput_good (h : ¬s.jobRefused src.mgr j) (hd : s.jobOut j slots = [] ∨ dma = none) :
    ∃ v, Frame [.drbg, .drawn, .keys, .led] s v ∧ s.jobOutput j slots dma res = (v.wholeBuffer src (s.jobOut j slots)).finish src stSuccess 0 res := by
  have hr := mt (s.jobRefused_tests src.mgr j slots).2 h
  rw [not_or] at hr
  have hnone : (if (s.jobOut j slots).isEmpty = true then none else dma) = none := by
    obtain h | h := hd
    · rw [h]; rfl
    · rw [h]; split <;> rfl
  have hfr : Frame [.drbg, .drawn, .keys, .led] s (s.jobDraws j slots) := State.jobDraws_frame (Frame.refl _ s) (by decide)
  unfold State.jobOutput
  dsimp only
  rw [ho]
  dsimp only
  rw [hcid, if_neg hr.1, if_neg hr.2]
  unfold State.jobOut at hnone
  rw [hnone]
  dsimp only
  refine ⟨_, ?_, rfl⟩
  split
  · split
    · split
      · exact State.commitVault_frame hfr (by decide)
      · exact Frame.put_keys hfr (by decide)
    · exact hfr
  · exact hfr

end

/-! ## Where the completion stands -/

theorem State.finish_out {s : State} {src : Src} {x : Sq} {c : Cq} (st : Status) (info : Nat) (result : List Byte) (more : Bool)
    (hx : SMap.get? (s.ring src.mgr).sqs src.sq.toNat = some x) (hc : SMap.get? (s.ring src.mgr).cqs x.cq.toNat = some c)
    (hf : c.fault = false) (hd : s.dmaUp src.mgr = true) :
    .completion x.cq c.tail (completionOf src x c st info result more) ∈ ((s.finish src st info result more).view src.mgr).out := by
  obtain ⟨h, -⟩ := State.post_posted (s := { s with dev := { s.dev with idleSince := s.now } }) st info result more hx hc hf hd
  refine CompletionsOnly.mem ((CompletionsOnly.refl _).reapSq src.mgr src.sq.toNat) ?_
  rw [h]
  exact List.mem_append_right _ (List.mem_singleton_self _)

end Sys2Proof.Machine
end


section
/-! SUPPORT. The completion of a Burin job (R194, R199, R219). -/

namespace Sys2Proof.Machine

open Sys2Proof

/-! ## A command that can be answered -/

/-- The command's queues are x and c, and a completion reaches c. -/
structure State.CanAnswer (s : State) (src : Src) (x : Sq) (c : Cq) : Prop where
  sq : SMap.get? (s.ring src.mgr).sqs src.sq.toNat = some x
  cq : SMap.get? (s.ring src.mgr).cqs x.cq.toNat = some c
  sound : c.fault = false
  dma : s.dmaUp src.mgr = true

theorem State.CanAnswer.mono {s t : State} {src : Src} {x : Sq} {c : Cq} (h : s.CanAnswer src x c)
    (hr : (t.ring src.mgr).sqs = (s.ring src.mgr).sqs ∧ (t.ring src.mgr).cqs = (s.ring src.mgr).cqs) (hd : t.dmaUp src.mgr = true) :
    t.CanAnswer src x c :=
  ⟨hr.1 ▸ h.sq, hr.2 ▸ h.cq, h.sound, hd⟩

theorem State.CanAnswer.of_frame {fs : List Field} {s t : State} {src : Src} {x : Sq} {c : Cq} (h : s.CanAnswer src x c) (hf : Frame fs s t)
    (hr : Field.rings ∉ fs) (hv : Field.views ∉ fs) : t.CanAnswer src x c := by
  have hring : t.ring src.mgr = s.ring src.mgr := congrArg (PerMgr.get · src.mgr) (hf .rings hr)
  exact h.mono ⟨congrArg Ring.sqs hring, congrArg Ring.cqs hring⟩ ((State.dmaUp_of_frame hf hv _).trans h.dma)

theorem State.CanAnswer.finish {s : State} {src : Src} {x : Sq} {c : Cq} (h : s.CanAnswer src x c) (st : Status) (info : Nat)
    (result : List Byte) (more : Bool) :
    .completion x.cq c.tail (completionOf src x c st info result more) ∈ ((s.finish src st info result more).view src.mgr).out :=
  State.finish_out st info result more h.sq h.cq h.sound h.dma

theorem Unfailed.toBuffer {s t : State} (h : Unfailed s t) (src : Src) (d : List Byte) : Unfailed s (t.toBuffer src d) := by
  unfold State.toBuffer
  split
  · exact h.modView src.mgr fun _ _ => rfl
  · exact h

/-- Bytes in a buffer: the queues stay, and the link. -/
theorem State.CanAnswer.toBuffer {s : State} {src : Src} {x : Sq} {c : Cq} (h : s.CanAnswer src x c) (d : List Byte) :
    (s.toBuffer src d).CanAnswer src x c := by
  have hring : (s.toBuffer src d).ring src.mgr = s.ring src.mgr := congrArg (PerMgr.get · src.mgr) (State.toBuffer_rings s src d)
  exact h.mono ⟨congrArg Ring.sqs hring, congrArg Ring.cqs hring⟩ (((Unfailed.refl s).toBuffer src d).dmaUp h.dma)

theorem State.ringDmaFailed_at (s : State) (m : Mgr) (kind : BitVec 3) (addr : DWord) :
    FailedAt s (s.ringDmaFailed m kind addr) m kind addr ∧ (s.ringDmaFailed m kind addr).dmaUp m = s.dmaUp m := s.dmaFailed_at m kind addr

theorem State.CanAnswer.ringDmaFailed {s : State} {src : Src} {x : Sq} {c : Cq} (h : s.CanAnswer src x c) (kind : BitVec 3) (addr : DWord) :
    (s.ringDmaFailed src.mgr kind addr).CanAnswer src x c := by
  refine h.mono ?_ ((s.ringDmaFailed_at src.mgr kind addr).2.trans h.dma)
  have hr : (s.ringDmaFailed src.mgr kind addr).ring src.mgr = { s.ring src.mgr with dmaErr := satInc (s.ring src.mgr).dmaErr } :=
    (State.ring_modRing _ _ _ _).trans (if_pos rfl)
  rw [hr]
  exact ⟨rfl, rfl⟩

theorem FailedAt.from {s s' t : State} {m : Mgr} {kind : BitVec 3} {addr : DWord} (h : FailedAt s' t m kind addr) (k : Unfailed s s')
    (hd : s.dmaUp m = true) : FailedAt s t m kind addr := by
  have hq := k m hd
  obtain ⟨h1, h2, h3, h4⟩ := h
  have ha : (s'.view m).aer = (s.view m).aer := (congrArg View.aer hq : (s'.view m).quiet.aer = (s.view m).quiet.aer)
  have he : (s'.view m).dmaErr = (s.view m).dmaErr := (congrArg View.dmaErr hq : (s'.view m).quiet.dmaErr = (s.view m).quiet.dmaErr)
  exact ⟨ha ▸ h1, he ▸ h2, h3, h4⟩

/-! ## The answer of a job -/

/-- The status that a job's command completes with, by the cases of R199. -/
def AnswersAs (ok refused whole : Prop) (edge st : Status) : Prop :=
  (¬ok → st = edge) ∧ (ok → refused → st = stNotPermitted) ∧ (ok → ¬refused → whole → st = stSuccess) ∧
    (ok → ¬refused → ¬whole → st = stAborted)

section

variable {s : State} {j : BurinJob} {src : Src} {slots : Nat} {res : List Byte}
  (ho : j.owner = .queue src.mgr src.sq) (hcid : j.cid = src.cid)

include ho hcid

theorem State.finishJob_eq (st : Status) (info : Nat) : s.finishJob j st info res = s.finish src st info res := by
  unfold State.finishJob
  rw [ho, hcid]

/-- The completion of a job's command. -/
theorem State.jobAnswered_status {dma : Option DmaFail} {edge : Status} {x : Sq} {c : Cq} (h : s.CanAnswer src x c) :
    ∃ st info, .completion x.cq c.tail (completionOf src x c st info res false) ∈ ((s.jobAnswered j edge slots dma res).view src.mgr).out ∧
      AnswersAs (edge = stSuccess) (s.jobRefused src.mgr j) (s.jobOut j slots = [] ∨ dma = none) edge st := by
  have hdraw := h.of_frame (State.jobDraws_frame (Frame.refl _ s) (Field.sub_refl _) : Frame [.drbg, .drawn] s (s.jobDraws j slots))
    (by decide) (by decide)
  unfold State.jobAnswered
  by_cases hok : edge = stSuccess
  · rw [if_pos hok]
    by_cases hr : s.jobRefused src.mgr j
    · rw [State.jobOutput_refused ho hcid hr]
      exact ⟨_, _, hdraw.finish _ _ _ _, fun h => absurd hok h, fun _ _ => rfl, fun _ h => absurd hr h, fun _ h => absurd hr h⟩
    · by_cases hw : s.jobOut j slots = [] ∨ dma = none
      · obtain ⟨v, hv, he⟩ := State.jobOutput_good (res := res) ho hcid hr hw
        rw [he]
        have hb : (v.wholeBuffer src (s.jobOut j slots)).CanAnswer src x c := by
          have hv' := h.of_frame hv (by decide) (by decide)
          unfold State.wholeBuffer
          split
          · exact hv'
          · exact hv'.toBuffer _
        exact ⟨_, _, hb.finish _ _ _ _, fun h => absurd hok h, fun _ h => absurd h hr, fun _ _ _ => rfl, fun _ _ h => absurd hw h⟩
      · obtain ⟨hout, hdma⟩ := not_or.1 hw
        obtain ⟨f, rfl⟩ := Option.ne_none_iff_exists'.1 hdma
        rw [State.jobOutput_failed ho hcid hr hout]
        have hb : ((s.jobDraws j slots).partBuffer src (s.jobOut j slots) f.wrote).CanAnswer src x c := by
          unfold State.partBuffer
          split
          · exact hdraw
          · exact hdraw.toBuffer _
        exact ⟨_, _, (hb.ringDmaFailed _ _).finish _ _ _ _, fun h => absurd hok h, fun _ h => absurd h hr, fun _ _ h => absurd h hw,
          fun _ _ _ => rfl⟩
  · rw [if_neg hok, State.finishJob_eq ho hcid]
    exact ⟨_, _, hdraw.finish _ _ _ _, fun _ => rfl, fun h => absurd h hok, fun h => absurd h hok, fun h => absurd h hok⟩

/-- A job that is not answered with its output writes nothing but a completion. -/
theorem State.jobAnswered_bare {dma : Option DmaFail} {edge : Status} (h : edge ≠ stSuccess ∨ s.jobRefused src.mgr j) :
    CompletionsOnly s (s.jobAnswered j edge slots dma res) := by
  have hdraw : CompletionsOnly s (s.jobDraws j slots) :=
    .of_frame (State.jobDraws_frame (Frame.refl _ s) (Field.sub_refl _) : Frame [.drbg, .drawn] s _) (by decide)
  unfold State.jobAnswered
  by_cases hok : edge = stSuccess
  · rw [if_pos hok, State.jobOutput_refused ho hcid (h.resolve_left (not_not_intro hok))]
    exact hdraw.finish _ _ _ _ _
  · rw [if_neg hok, State.finishJob_eq ho hcid]
    exact hdraw.finish _ _ _ _ _

/-- The output stands in the buffer where the link took it. -/
theorem State.jobAnswered_whole (hr : ¬s.jobRefused src.mgr j) (hout : s.jobOut j slots ≠ []) (hd : s.dmaUp src.mgr = true) :
    .buffer src.sq src.cid (s.jobOut j slots) ∈ ((s.jobAnswered j stSuccess slots none res).view src.mgr).out := by
  obtain ⟨v, hv, he⟩ := State.jobOutput_good (res := res) (dma := none) ho hcid hr (.inr rfl)
  unfold State.jobAnswered
  rw [if_pos rfl, he]
  refine CompletionsOnly.mem ((CompletionsOnly.refl _).finish _ _ _ _ _) ?_
  unfold State.wholeBuffer
  rw [if_neg (by simpa using hout), State.toBuffer_out _ ((State.dmaUp_of_frame hv (by decide) _).trans hd)]
  exact List.mem_append_right _ (List.mem_singleton_self _)

/-- A DMA that fails is recorded, and what the link took before stands in the buffer. -/
theorem State.jobAnswered_part {f : DmaFail} (hr : ¬s.jobRefused src.mgr j) (hout : s.jobOut j slots ≠ []) (hd : s.dmaUp src.mgr = true) :
    let t := s.jobAnswered j stSuccess slots (some f) res
    t.dmaUp src.mgr = true ∧ FailedAt s t src.mgr f.kind f.addr ∧
      (f.wrote ≠ 0 → .buffer src.sq src.cid ((s.jobOut j slots).take f.wrote) ∈ (t.view src.mgr).out) := by
  have hfr : Frame [.drbg, .drawn] s (s.jobDraws j slots) := State.jobDraws_frame (Frame.refl _ s) (by decide)
  have hu : Unfailed s ((s.jobDraws j slots).partBuffer src (s.jobOut j slots) f.wrote) := by
    have h0 : Unfailed s (s.jobDraws j slots) := .of_frame hfr (by decide)
    unfold State.partBuffer
    split
    · exact h0
    · exact h0.toBuffer _ _
  dsimp only
  unfold State.jobAnswered
  rw [if_pos rfl, State.jobOutput_failed ho hcid hr hout]
  obtain ⟨hat, hup⟩ := State.ringDmaFailed_at ((s.jobDraws j slots).partBuffer src (s.jobOut j slots) f.wrote) src.mgr f.kind f.addr
  have hup' := hup.trans (hu.dmaUp hd)
  have hfin := Unfailed.serves.finish' (((s.jobDraws j slots).partBuffer src (s.jobOut j slots) f.wrote).ringDmaFailed src.mgr f.kind f.addr) src
    stAborted 32 res false
  refine ⟨hfin.dmaUp hup', (hat.from hu hd).unfailed hfin hup', fun hw => ?_⟩
  refine CompletionsOnly.mem (((CompletionsOnly.refl _).ringDmaFailed _ _ _).finish _ _ _ _ _) ?_
  unfold State.partBuffer
  rw [if_neg hw, State.toBuffer_out _ ((State.dmaUp_of_frame hfr (by decide) _).trans hd)]
  exact List.mem_append_right _ (List.mem_singleton_self _)

end

end Sys2Proof.Machine
end


section
/-! SUPPORT. The end of a Burin job for its manager (R197 to R202, R219). -/

namespace Sys2Proof.Machine

open Sys2Proof

/-! ## The states between -/

theorem State.jobSpent_frame (s : State) (k : Fin 4) (due time : Nat) : Frame [.now, .burin] s (s.jobSpent k due time) :=
  State.modCore_frame (State.until_frame (Frame.refl _ s) (by decide)) (by decide)

theorem State.jobLeft_frame (s : State) (k : Fin 4) (j : BurinJob) : Frame [.burin] s (s.jobLeft k j) :=
  State.modCore_frame (Frame.refl _ s) (by decide)

theorem State.jobRefused_of_frame {fs : List Field} {s t : State} (h : Frame fs s t) (hk : Field.keys ∉ fs) (ht : Field.tamper ∉ fs)
    (hd : Field.drbg ∉ fs) (m : Mgr) (j : BurinJob) : t.jobRefused m j ↔ s.jobRefused m j := by
  have hs : ∀ i, t.slot i = s.slot i := fun i => congrArg (fun x : KeyStore => vget x.slots i) (h .keys hk)
  have hl : t.tamper = s.tamper := h .tamper ht
  have hg : t.drbg = s.drbg := h .drbg hd
  unfold State.jobRefused State.slotWritable State.jobNeedsKey
  simp only [hs, hl, hg]

theorem State.jobOut_of_frame {fs : List Field} {s t : State} (h : Frame fs s t) (hd : Field.drawn ∉ fs) (j : BurinJob) (slots : Nat) :
    t.jobOut j slots = s.jobOut j slots := by
  unfold State.jobOut
  rw [h .drawn hd]

theorem State.jobAnswered_frame (s : State) (j : BurinJob) (edge : Status) (slots : Nat) (dma : Option DmaFail) (res : List Byte) :
    Frame [.rings, .views, .awaits, .drbg, .drawn, .keys, .led, .dev] s (s.jobAnswered j edge slots dma res) := by
  unfold State.jobAnswered
  split
  · exact State.jobOutput_frame (Frame.refl _ s) (by decide)
  · exact State.finishJob_frame (State.jobDraws_frame (Frame.refl _ s) (by decide)) (by decide)

/-! ## What follows the answer -/

theorem Closes.takenOut {R : State → State → Prop} (hC : Closes R) {s₀ s : State} {k : Fin 4} (h : R s₀ s) : R s₀ (s.takenOut k) := by
  unfold State.takenOut
  exact related_ite (hC.coreOut h) h

/-- After the answer only completions are written, no DMA fails on a sound link, no end is counted and no time passes. -/
theorem State.jobSettled (u : State) (k : Fin 4) : CompletionsOnly u (u.takenOut k).dispatchJobs ∧ Unfailed u (u.takenOut k).dispatchJobs ∧
    Tallied u (u.takenOut k).dispatchJobs ∧ (u.takenOut k).dispatchJobs.now = u.now := by
  refine ⟨?_, ?_, ?_, ?_⟩
  · have hC := CompletionsOnly.serves.closes
    exact hC.dispatchJobs (hC.takenOut (hC.refl u))
  · exact Unfailed.closes.dispatchJobs (Unfailed.closes.takenOut (Unfailed.refl u))
  · refine Tallied.dispatchJobs ?_
    unfold State.takenOut
    exact related_ite ((Tallied.of_burin rfl : Tallied u u).coreOut k _ _) (.of_burin rfl)
  · have hn : (u.takenOut k).now = u.now := by
      unfold State.takenOut
      split
      · exact State.coreOut_frame (Frame.refl _ u) (Field.sub_refl _) .now (by decide)
      · rfl
    exact (State.dispatchJobs_frame (Frame.refl _ _) (Field.sub_refl _) .now (by decide)).trans hn

/-- The counters of a core after a job's end. -/
theorem State.jobSpent_core (s : State) (k : Fin 4) (due time : Nat) : ((s.jobSpent k due time).core k).jobs = satInc (s.core k).jobs ∧
    ((s.jobSpent k due time).core k).lastCycles.toNat = min time (2 ^ 32 - 1) ∧ ((s.jobSpent k due time).core k).faults = (s.core k).faults := by
  unfold State.jobSpent
  rw [State.modCore_core]
  refine ⟨rfl, ?_, rfl⟩
  exact (BitVec.toNat_ofNat _ _).trans (Nat.mod_eq_of_lt (by omega))

theorem burinResult_cycles (time slots core : Nat) : (res16 (burinResultBytes time slots core)).take 4 = leBytes 4 (min time (2 ^ 32 - 1)) := rfl

theorem CompletionsOnly.coreFault {s t : State} (h : CompletionsOnly s t) (k : Fin 4) (o : Owner) (op : Nat) :
    CompletionsOnly s (t.coreFault k o op) := by
  rw [State.coreFault_eq]
  exact (CompletionsOnly.serves.closes.coreFailed h).noteFault

section

variable {s : State} {j : BurinJob} {src : Src} {k : Fin 4} (ho : j.owner = .queue src.mgr src.sq) (hcid : j.cid = src.cid)

include ho hcid

/-- A failed check completes the command with FAULT_DETECTED (R201). -/
theorem State.coreFaulted_answer {res : List Byte} {x : Sq} {c : Cq} (h : s.CanAnswer src x c) :
    .completion x.cq c.tail (completionOf src x c stFaultDetected 0 res false) ∈ ((s.coreFaulted k j res).view src.mgr).out := by
  have h1 : (s.modCore k fun c => { c with job := none }).CanAnswer src x c :=
    h.of_frame (State.modCore_frame (Frame.refl [.burin] s) (by decide)) (by decide) (by decide)
  unfold State.coreFaulted
  dsimp only
  rw [State.finishJob_eq ho hcid]
  exact CompletionsOnly.mem (CompletionsOnly.serves.closes.dispatchJobs ((CompletionsOnly.refl _).coreFault k _ _)) (h1.finish _ _ _ _)

end

end Sys2Proof.Machine
end


section
/-! SUPPORT. What the end of a Burin job leaves (R197 to R202). -/

namespace Sys2Proof.Machine

open Sys2Proof

/-! ## The state in which the outcome is judged -/

/-- The time of a job that ends now. -/
def State.jobTime (s : State) (j : BurinJob) (ev : JobEv) : Nat := j.time (j.slotsOf ev) (popCount s.farm.lanes)

/-- The job's check fails. -/
def BurinJob.fails (j : BurinJob) (ev : JobEv) : Prop := ev.fault = true ∧ j.canFault (j.edgeOf ev) = true

/-- The job's computation is over. -/
def State.jobPast (s : State) (k : Fin 4) (j : BurinJob) (ev : JobEv) : State :=
  s.jobSpent k (j.since + (s.jobTime j ev - j.ran)) (s.jobTime j ev)

/-- RESULT of the job. -/
def State.jobBytes (s : State) (k : Fin 4) (j : BurinJob) (ev : JobEv) : List Byte := burinResultBytes (s.jobTime j ev) (j.slotsOf ev) k.1

theorem State.jobPast_frame (s : State) (k : Fin 4) (j : BurinJob) (ev : JobEv) : Frame [.now, .burin] s (s.jobPast k j ev) :=
  s.jobSpent_frame _ _ _

theorem State.jobPast_now (s : State) (k : Fin 4) (j : BurinJob) (ev : JobEv) :
    (s.jobPast k j ev).now = max s.now (j.since + (s.jobTime j ev - j.ran)) := rfl

/-- A job's end is counted, at its time. -/
def State.JobEnded (s t : State) (k : Fin 4) (j : BurinJob) (ev : JobEv) : Prop :=
  t.now = max s.now (j.since + (s.jobTime j ev - j.ran)) ∧ (t.core k).jobs = satInc (s.core k).jobs ∧
    (t.core k).lastCycles.toNat = min (s.jobTime j ev) (2 ^ 32 - 1)

theorem State.JobEnded.of_tallied {s t : State} {k : Fin 4} {j : BurinJob} {ev : JobEv} (h : Tallied (s.jobPast k j ev) t)
    (hn : t.now = (s.jobPast k j ev).now) : s.JobEnded t k j ev := by
  obtain ⟨h1, h2⟩ := h k
  obtain ⟨h3, h4, -⟩ := s.jobSpent_core k (j.since + (s.jobTime j ev - j.ran)) (s.jobTime j ev)
  exact ⟨hn, h1.trans h3, by rw [h2]; exact h4⟩

section

variable {s : State} {j : BurinJob} {src : Src} {k : Fin 4} {ev : JobEv}

/-- The state after a job whose check fails. -/
def State.jobFailed (s : State) (k : Fin 4) (j : BurinJob) (ev : JobEv) : State :=
  ((s.jobPast k j ev).jobDraws j (j.slotsOf ev)).coreFaulted k j (s.jobBytes k j ev)

/-- The state in which a job's command has completed. -/
def State.jobReplied (s : State) (k : Fin 4) (j : BurinJob) (ev : JobEv) : State :=
  ((s.jobPast k j ev).jobLeft k j).jobAnswered j (j.edgeOf ev) (j.slotsOf ev) ev.dma (s.jobBytes k j ev)

theorem exec_burinJobDone_fails (hj : (s.core k).job = some j) (hw : s.outWaits j = false) (hf : j.fails ev) :
    exec (.burinJobDone k ev) s = .next (s.jobFailed k j ev) :=
  (exec_burinJobDone hj hw).trans (congrArg Host.Outcome.next (if_pos hf))

theorem exec_burinJobDone_ends (hj : (s.core k).job = some j) (hw : s.outWaits j = false) (hf : ¬j.fails ev) :
    exec (.burinJobDone k ev) s = .next ((s.jobReplied k j ev).takenOut k).dispatchJobs :=
  (exec_burinJobDone hj hw).trans (congrArg Host.Outcome.next (if_neg hf))

/-! ## A check that fails -/

theorem State.jobDrawn_frame (s : State) (k : Fin 4) (j : BurinJob) (ev : JobEv) :
    Frame [.drbg, .drawn] (s.jobPast k j ev) ((s.jobPast k j ev).jobDraws j (j.slotsOf ev)) :=
  State.jobDraws_frame (Frame.refl _ _) (by decide)

theorem State.jobFailed_ended (s : State) (k : Fin 4) (j : BurinJob) (ev : JobEv) : s.JobEnded (s.jobFailed k j ev) k j ev := by
  refine .of_tallied ((Tallied.respects.of_frame (s.jobDrawn_frame k j ev) (by decide)).coreFaulted k j _) ?_
  exact (State.coreFaulted_frame (Frame.refl _ _) (Field.sub_refl _) .now (by decide)).trans (s.jobDrawn_frame k j ev .now (by decide))

theorem State.jobFailed_bare (s : State) (k : Fin 4) (j : BurinJob) (ev : JobEv) : CompletionsOnly s (s.jobFailed k j ev) :=
  CompletionsOnly.coreFaulted ((CompletionsOnly.of_frame (s.jobPast_frame k j ev) (by decide)).trans
    (.of_frame (s.jobDrawn_frame k j ev) (by decide))) k j _

theorem State.jobFailed_answer (ho : j.owner = .queue src.mgr src.sq) (hcid : j.cid = src.cid) {x : Sq} {c : Cq} (h : s.CanAnswer src x c) :
    .completion x.cq c.tail (completionOf src x c stFaultDetected 0 (s.jobBytes k j ev) false) ∈ ((s.jobFailed k j ev).view src.mgr).out :=
  State.coreFaulted_answer ho hcid ((h.of_frame (s.jobPast_frame k j ev) (by decide) (by decide)).of_frame (s.jobDrawn_frame k j ev)
    (by decide) (by decide))

theorem State.jobFailed_core (h : s.tamperLevel 9 ≠ 3) :
    let t := s.jobFailed k j ev
    (t.core k).state = 3 ∧ (t.core k).job = none ∧ (t.core k).susp = [] ∧ (t.core k).faults = satInc (s.core k).faults ∧
      (t.core k).testEnd = t.now + 2000000 := by
  have hlev : ((s.jobPast k j ev).jobDraws j (j.slotsOf ev)).tamperLevel 9 ≠ 3 := by
    rw [State.tamperLevel_of_frame (s.jobDrawn_frame k j ev) (by decide) (by decide),
      State.tamperLevel_of_frame (s.jobPast_frame k j ev) (by decide) (by decide)]
    exact h
  obtain ⟨h1, h2, h3, h4, h5⟩ := State.coreFaulted_core (k := k) (j := j) (res := s.jobBytes k j ev) hlev
  obtain ⟨-, -, h6⟩ := s.jobSpent_core k (j.since + (s.jobTime j ev - j.ran)) (s.jobTime j ev)
  have hc := State.core_of_burin (s.jobDrawn_frame k j ev .burin (by decide)) k
  refine ⟨h1, h2, h3, ?_, ?_⟩
  · rw [hc] at h4
    exact h4.trans (congrArg satInc h6)
  · refine h5.trans (congrArg (· + 2000000) ?_)
    exact (State.coreFaulted_frame (Frame.refl _ _) (Field.sub_refl _) .now (by decide)).symm

/-! ## A job that ends -/

theorem State.jobLast_frame (s : State) (k : Fin 4) (j : BurinJob) (ev : JobEv) :
    Frame [.now, .burin] s ((s.jobPast k j ev).jobLeft k j) :=
  Frame.comp (s.jobPast_frame k j ev) (State.jobLeft_frame _ k j) (by decide)

theorem State.jobEnds_ended (s : State) (k : Fin 4) (j : BurinJob) (ev : JobEv) :
    s.JobEnded ((s.jobReplied k j ev).takenOut k).dispatchJobs k j ev := by
  obtain ⟨-, -, htally, hnow⟩ := (s.jobReplied k j ev).jobSettled k
  have hfr := State.jobAnswered_frame ((s.jobPast k j ev).jobLeft k j) j (j.edgeOf ev) (j.slotsOf ev) ev.dma (s.jobBytes k j ev)
  have hleft : Tallied (s.jobPast k j ev) ((s.jobPast k j ev).jobLeft k j) :=
    (Tallied.of_burin rfl : Tallied (s.jobPast k j ev) _).modCore ⟨rfl, rfl⟩
  refine .of_tallied ((hleft.comp (Tallied.respects.of_frame hfr (by decide))).comp htally) ?_
  exact hnow.trans ((hfr .now (by decide)).trans (State.jobLeft_frame _ k j .now (by decide)))

theorem State.jobEnds_bare (ho : j.owner = .queue src.mgr src.sq) (hcid : j.cid = src.cid)
    (h : j.edgeOf ev ≠ stSuccess ∨ s.jobRefused src.mgr j) : CompletionsOnly s ((s.jobReplied k j ev).takenOut k).dispatchJobs := by
  have hfr := s.jobLast_frame k j ev
  refine ((CompletionsOnly.of_frame hfr (by decide)).trans (State.jobAnswered_bare ho hcid ?_)).trans ((s.jobReplied k j ev).jobSettled k).1
  exact h.imp_right (State.jobRefused_of_frame hfr (by decide) (by decide) (by decide) _ _).2

theorem State.jobEnds_answer (ho : j.owner = .queue src.mgr src.sq) (hcid : j.cid = src.cid) {x : Sq} {c : Cq} (h : s.CanAnswer src x c) :
    ∃ st info, .completion x.cq c.tail (completionOf src x c st info (s.jobBytes k j ev) false) ∈
        ((((s.jobReplied k j ev).takenOut k).dispatchJobs).view src.mgr).out ∧
      AnswersAs (j.edgeOf ev = stSuccess) (s.jobRefused src.mgr j) (s.jobOut j (j.slotsOf ev) = [] ∨ ev.dma = none) (j.edgeOf ev) st := by
  have hfr := s.jobLast_frame k j ev
  obtain ⟨st, info, hmem, hst⟩ := State.jobAnswered_status (slots := j.slotsOf ev) (res := s.jobBytes k j ev) (dma := ev.dma)
    (edge := j.edgeOf ev) ho hcid (h.of_frame hfr (by decide) (by decide))
  rw [State.jobOut_of_frame hfr (by decide), State.jobRefused_of_frame hfr (by decide) (by decide) (by decide)] at hst
  exact ⟨st, info, ((s.jobReplied k j ev).jobSettled k).1.mem hmem, hst⟩

/-- The output of a job that succeeds, as the link takes it. -/
theorem State.jobEnds_output (ho : j.owner = .queue src.mgr src.sq) (hcid : j.cid = src.cid) (hd : s.dmaUp src.mgr = true)
    (he : j.edgeOf ev = stSuccess) (hr : ¬s.jobRefused src.mgr j) (hout : s.jobOut j (j.slotsOf ev) ≠ []) :
    let t := ((s.jobReplied k j ev).takenOut k).dispatchJobs
    (ev.dma = none → .buffer src.sq src.cid (s.jobOut j (j.slotsOf ev)) ∈ (t.view src.mgr).out) ∧
      ∀ f, ev.dma = some f → FailedAt s t src.mgr f.kind f.addr ∧
        (f.wrote ≠ 0 → .buffer src.sq src.cid ((s.jobOut j (j.slotsOf ev)).take f.wrote) ∈ (t.view src.mgr).out) := by
  have hfr := s.jobLast_frame k j ev
  have hout' := State.jobOut_of_frame hfr (by decide) j (j.slotsOf ev)
  have hr' := mt (State.jobRefused_of_frame hfr (by decide) (by decide) (by decide) src.mgr j).1 hr
  have hd' := (State.dmaUp_of_frame hfr (by decide) src.mgr).trans hd
  obtain ⟨hcomp, hunf, -, -⟩ := (s.jobReplied k j ev).jobSettled k
  have hrep : s.jobReplied k j ev = ((s.jobPast k j ev).jobLeft k j).jobAnswered j stSuccess (j.slotsOf ev) ev.dma (s.jobBytes k j ev) := by
    rw [← he]
    rfl
  refine ⟨fun hn => hcomp.mem ?_, fun f hf => ?_⟩
  · rw [hrep, hn, ← hout']
    exact State.jobAnswered_whole ho hcid hr' (hout' ▸ hout) hd'
  · obtain ⟨hup, hat, hbuf⟩ := State.jobAnswered_part (f := f) (res := s.jobBytes k j ev) ho hcid hr' (hout' ▸ hout) hd'
    rw [hf] at hrep
    rw [← hrep] at hup hat hbuf
    refine ⟨(hat.from (.of_frame hfr (by decide)) hd).unfailed hunf hup, fun hw => hcomp.mem ?_⟩
    rw [← hout']
    exact hbuf hw

end

end Sys2Proof.Machine
end


section
/-! SUPPORT. Burin's other commands and O52 (R192 to R205). -/

namespace Sys2Proof.Machine

open Sys2Proof

/-! ## The status of a job's command -/

theorem AnswersAs.eq {refused whole : Prop} {edge st : Status} {_ : Decidable refused} {_ : Decidable whole}
    (h : AnswersAs (edge = stSuccess) refused whole edge st) :
    st = if edge ≠ stSuccess then edge else if refused then stNotPermitted else if whole then stSuccess else stAborted := by
  obtain ⟨h1, h2, h3, h4⟩ := h
  by_cases he : edge = stSuccess
  · rw [if_neg (not_not_intro he)]
    by_cases hr : refused
    · rw [if_pos hr, h2 he hr]
    · rw [if_neg hr]
      by_cases hw : whole
      · rw [if_pos hw, h3 he hr hw]
      · rw [if_neg hw, h4 he hr hw]
  · rw [if_pos he, h1 he]

/-! ## A yield -/

/-- A core whose job has yielded. -/
def Core.yielded (j : BurinJob) (now : Nat) (c : Core) : Core :=
  { c with job := none, state := 0, yields := satInc c.yields, susp := c.susp ++ [{ j with ran := j.done now }], lastOwner := j.owner }

def State.jobYielded (s : State) (k : Fin 4) (j : BurinJob) : State :=
  (s.until j.since).modCore k (Core.yielded j (s.until j.since).now)

theorem State.jobYielded_core (s : State) (k : Fin 4) (j : BurinJob) :
    (s.jobYielded k j).core k = (s.core k).yielded j (max s.now j.since) := State.modCore_core _ _ _

theorem State.jobYielded_core_ne (s : State) {k i : Fin 4} (h : i ≠ k) (j : BurinJob) : (s.jobYielded k j).core i = s.core i :=
  State.modCore_core_ne _ _ _ h

/-- A running job gives its core to a job of higher class (R203). -/
theorem exec_burinYield {s : State} {k : Fin 4} {j w : BurinJob} (hj : (s.core k).job = some j) (hy : j.yields = true)
    (hw : w ∈ s.burin.waiting) (hcls : j.class < w.class) (hbusy : ∀ i, (s.core i).state ≠ 0) (hs : (s.core k).susp = [])
    (hf : ∀ x ∈ s.burin.waiting, bit x.flags.toNat 1 = false) (hd : s.dev.state = .running) (hc : s.dev.ccAbsent = false) :
    ∃ t y, exec (.burinYield k) s = .next t ∧ t.now = max s.now j.since ∧ (t.core k).susp = [{ j with ran := j.done t.now }] ∧
      (t.core k).yields = satInc (s.core k).yields ∧ (t.core k).job = some y ∧ j.class < y.class := by
  obtain ⟨b, hb, hle⟩ := bestJob_class hw
  have hidle : ((List.finRange 4).any fun k => (s.core k).state = 0) = false := by simpa using hbusy
  have hwant : (s.burin.waiting.any fun w => j.class < w.class) = true := List.any_eq_true.2 ⟨w, hw, decide_eq_true hcls⟩
  have hexec : exec (.burinYield k) s = .next (s.jobYielded k j).dispatchJobs := by
    refine congrArg Host.Outcome.next ?_
    dsimp only
    rw [hj]
    refine if_neg ?_
    rw [hy, hwant, hidle, hs]
    decide
  have hcore := s.jobYielded_core k j
  have honly : ∀ i, ((s.jobYielded k j).core i).state = 0 → i = k := fun i hi => by
    by_contra hne
    rw [State.jobYielded_core_ne s hne] at hi
    exact hbusy i hi
  obtain ⟨i, hi⟩ := State.coreFor_some (s := s.jobYielded k j) (i := k) (by rw [hcore]; rfl) b.owner
  obtain rfl := honly i (State.coreFor_idle hi)
  have hal : (s.jobYielded i j).allocate = ((s.jobYielded i j).unqueue b).loadJob i b := by
    refine State.allocate_waiting hb hi (hf b (bestJob_mem hb)) fun k' hk' c hc => ?_
    obtain rfl := honly k' hk'
    rw [hcore] at hc
    have hsusp : ((s.core k').yielded j (max s.now j.since)).susp = [{ j with ran := j.done (max s.now j.since) }] := by
      show (s.core k').susp ++ _ = _
      rw [hs]
      rfl
    rw [hsusp] at hc
    cases hc
    exact Bool.or_eq_true_iff.2 (.inl (decide_eq_true (lt_of_lt_of_le hcls hle)))
  have hload : (((s.jobYielded i j).unqueue b).loadJob i b).core i = ((s.core i).yielded j (max s.now j.since)).loaded (max s.now j.since) b := by
    rw [State.loadJob_eq, State.modCore_core]
    exact congrArg (Core.loaded _ b) hcore
  obtain ⟨hst, -, -, hyl, hsu⟩ := Core.loaded_kept (max s.now j.since) b ((s.core i).yielded j (max s.now j.since))
  have hdis := State.dispatchJobs_once (s := s.jobYielded i j) hd hc hal (.inl fun i' => by
    by_cases h : i' = i
    · rw [h, hload, hst]
      decide
    · rw [State.loadJob_eq, State.modCore_core_ne _ _ _ h]
      exact (State.jobYielded_core_ne s h j) ▸ hbusy i')
  rw [hdis] at hexec
  obtain ⟨y, hjob, hclass⟩ : ∃ y, (((s.core i).yielded j (max s.now j.since)).loaded (max s.now j.since) b).job = some y ∧ y.class = b.class :=
    ⟨_, Core.loaded_job _ _ _, rfl⟩
  refine ⟨_, y, hexec, rfl, ?_, ?_, ?_, ?_⟩
  · rw [hload, hsu]
    show (s.core i).susp ++ _ = _
    rw [hs]
    rfl
  · rw [hload, hyl]
    rfl
  · rw [hload, hjob]
  · exact hclass ▸ lt_of_lt_of_le hcls hle

/-! ## A promotion, a self-test and the page -/

/-- A waiting BULK job is promoted (R203). -/
theorem exec_burinPromotion {s : State} {id : Nat} {w : BurinJob} (h : s.burin.waiting.find? (fun j => j.id = id && j.cls = 0) = some w) :
    ∃ t, exec (.burinPromotion id) s = .next t ∧ t.now = max s.now (w.arrived + 10000000) ∧ Frame [.now, .burin] s t ∧
      t.burin.waiting = s.burin.waiting.map fun j => if j.id = id then { j with promoted := true } else j := by
  refine ⟨_, congrArg Host.Outcome.next (by rw [h]), rfl, ?_, rfl⟩
  exact Frame.put_burin (State.until_frame (Frame.refl _ s) (by decide)) (by decide)

/-- A self-test ends (R201). -/
theorem exec_burinSelftestDone {s : State} {k : Fin 4} (pass : Bool) (h : (s.core k).state = 3) :
    ∃ t, exec (.burinSelftestDone k pass) s = .next t ∧ t.now = max s.now (s.core k).testEnd ∧
      (pass = true → (t.core k).inService = true) ∧ (pass = false → (t.core k).state = 4 ∧ (t.core k).dead = true) := by
  refine ⟨_, congrArg Host.Outcome.next (if_neg (not_not_intro h)), ?_⟩
  cases pass with
  | true =>
    refine ⟨?_, fun _ => State.dispatchJobs_inService _ ?_, fun h => absurd h (by decide)⟩
    · exact State.dispatchJobs_frame (Frame.refl _ _) (Field.sub_refl _) .now (by decide)
    · rw [show ∀ u : State, (u.unitBack unitBurin k.1).core k = u.core k from fun _ => rfl, State.modCore_core]
  | false =>
    refine ⟨rfl, fun h => absurd h (by decide), fun _ => ?_⟩
    have hc := (s.until (s.core k).testEnd).modCore_core k fun c => { c with state := 4, dead := true }
    exact ⟨congrArg Core.state hc, congrArg Core.dead hc⟩

section

variable {s : State} {m : Mgr} {k : Fin 4} (h : s.reaches m (0x010054 + 0x1000 * k.1))

include h

/-- TAKE_OUT (R201). -/
theorem exec_burTakeOut : ∃ t, exec (.burTakeOut m k) s = .next t ∧
    ((∃ i, i ≠ k ∧ (s.core i).inService = true ∧ (s.core i).outAfter = false) →
      ((s.core k).state = 0 → (t.core k).state = 4) ∧
      ((s.core k).state = 1 → t = s.modCore k fun c => { c with outAfter := true })) ∧
    ((∀ i, i ≠ k → (s.core i).inService = false ∨ (s.core i).outAfter = true) → t = s.ignoredWrite m (0x010054 + 0x1000 * k.1)) := by
  refine ⟨_, congrArg Host.Outcome.next (State.regW_reaches h), fun ⟨i, hne, hin, hout⟩ => ?_, fun hno => ?_⟩
  · have hany : ((List.finRange 4).any fun i => i ≠ k && (s.core i).inService && !(s.core i).outAfter) = true :=
      List.any_eq_true.2 ⟨i, List.mem_finRange _, by simp [hne, hin, hout]⟩
    dsimp only
    rw [hany]
    refine ⟨fun h0 => ?_, fun h1 => ?_⟩
    · rw [h0]
      have hc : ((s.coreOut k coreTaken false).core k).state = 4 := by rw [State.coreOut_core]; rfl
      show ((s.coreOut k coreTaken false).dispatchJobs.core k).state = 4
      rw [State.dispatchJobs_busy _ (by rw [hc]; decide), hc]
    · rw [h1]
      rfl
  · have hany : ((List.finRange 4).any fun i => i ≠ k && (s.core i).inService && !(s.core i).outAfter) = false :=
      List.any_eq_false.2 fun i _ => by
        by_cases hne : i = k
        · simp [hne]
        · obtain h | h := hno i hne
          · simp [h]
          · simp [h]
    dsimp only
    rw [hany]
    rfl

/-- RETURN (R201). -/
theorem exec_burReturn : exec (.burReturn m k) s = .next (if (s.core k).state = 4 ∧ (s.core k).dead = false
    then s.modCore k fun c => { c with state := 3, testEnd := s.now + 2000000 } else s.ignoredWrite m (0x010054 + 0x1000 * k.1)) := by
  refine congrArg Host.Outcome.next ((State.regW_reaches h).trans ?_)
  simp only [Bool.and_eq_true, decide_eq_true_eq, Bool.not_eq_true']
  rfl

theorem exec_burCntclr : exec (.burCntclr m k) s =
    .next (s.modCore k fun c => { c with jobs := 0, yields := 0, faults := 0, aborts := 0, wipes := 0 }) :=
  congrArg Host.Outcome.next (State.regW_reaches h)

end

end Sys2Proof.Machine

namespace Sys2Proof

open Sys2Proof.Machine

/-- Settles O52. -/
theorem burinRunsItsJobs : Obligations.BurinRunsItsJobs := by
  intro s src desc resLen ops k ev m pass id
  refine ⟨fun ha => ?_, ?_, fun j w hj hy hw hc hb hs hf hd hcc => exec_burinYield hj hy hw hc hb hs hf hd hcc,
    fun w => exec_burinPromotion, exec_burinSelftestDone pass, fun h => ⟨exec_burTakeOut h, exec_burReturn h, exec_burCntclr h⟩⟩
  · refine ⟨_, exec_burinOp ha, ?_⟩
    refine ite_intro (fun h1 => if_pos h1) fun h1 => ?_
    rw [if_neg h1]
    refine ite_intro (fun h2 => if_pos h2) fun h2 => ?_
    rw [if_neg h2]
    refine ite_intro (fun h3 => if_pos h3) fun h3 => ?_
    rw [if_neg h3]
    refine ite_intro (fun h4 => if_pos h4) fun h4 => ?_
    rw [if_neg h4]
    exact State.burinOp_accepted ha (not_not.1 h3)
  · intro j hj ho hcid hw hd
    dsimp only
    by_cases hf : j.fails ev
    · obtain ⟨hnow, hjobs, hcyc⟩ := s.jobFailed_ended k j ev
      refine ⟨_, exec_burinJobDone_fails hj hw hf, hnow, hjobs, hcyc, fun x c hx hc hs => ?_, fun h => absurd hf h,
        fun _ b hb => (s.jobFailed_bare k j ev).buffer hb, fun _ => State.jobFailed_core⟩
      exact ⟨_, State.jobFailed_answer ho hcid ⟨hx, hc, hs, hd⟩, rfl, rfl, (if_pos hf).symm⟩
    · obtain ⟨hnow, hjobs, hcyc⟩ := s.jobEnds_ended k j ev
      refine ⟨_, exec_burinJobDone_ends hj hw hf, hnow, hjobs, hcyc, fun x c hx hc hs => ?_, fun _ he hr hout => ?_, fun h b hb => ?_,
        fun h => absurd h hf⟩
      · obtain ⟨st, info, hmem, hst⟩ := State.jobEnds_answer (ev := ev) ho hcid ⟨hx, hc, hs, hd⟩
        exact ⟨_, hmem, rfl, rfl, (AnswersAs.eq hst).trans (if_neg hf).symm⟩
      · obtain ⟨h1, h2⟩ := State.jobEnds_output ho hcid hd he hr hout
        refine ⟨h1, fun f hf => ?_⟩
        obtain ⟨⟨-, hcount, -, haddr⟩, hbuf⟩ := h2 f hf
        exact ⟨hcount, haddr, hbuf⟩
      · exact (State.jobEnds_bare ho hcid (h.resolve_left hf)).buffer hb

end Sys2Proof
end


section
/-! SUPPORT. The hash farm, random numbers and O53 (R195, R196, R206, R207). -/

namespace Sys2Proof.Machine

open Sys2Proof

/-! ## HASH_OP -/

/-- The bytes that a descriptor's segments give. -/
def hashData (desc : List Byte) (segs : List (List Byte)) : List Byte :=
  ((List.range (leAt desc 3 1)).zip segs).flatMap fun x => slice x.2 0 (leAt desc (0x10 + 16 * x.1 + 8) 4)

theorem leAt_byte (bs : List Byte) (off : Nat) : leAt bs off 1 < 256 := by
  unfold leAt slice
  simp [ofLe]
  omega

theorem hashField_shape {desc : List Byte} {outLen total : Nat}
    (h : desc.length < 16 ∨ 64 < leAt desc 3 1 ∨ desc.length ≠ 16 + 16 * leAt desc 3 1) : hashField desc outLen total = some 24 := by
  unfold hashField
  exact if_pos (by simpa [or_assoc] using h)

theorem hashField_codes {desc : List Byte} {outLen total : Nat} (hl : desc.length = 16 + 16 * leAt desc 3 1) (hn : leAt desc 3 1 ≤ 64)
    (h : leAt desc 0 1 = 0 ∨ 10 < leAt desc 0 1 ∨ 4 < leAt desc 1 1) : hashField desc outLen total = some 16 := by
  unfold hashField
  refine (if_neg (by simp; omega)).trans (if_pos ?_)
  simp only [Bool.or_eq_true, decide_eq_true_eq]
  tauto

/-- What a descriptor without a faulty field says. -/
theorem hashField_none {desc : List Byte} {outLen total : Nat} (h : hashField desc outLen total = none) :
    leAt desc 0 1 ≤ 10 ∧ leAt desc 1 1 ≤ 4 := by
  unfold hashField at h
  obtain ⟨-, h⟩ := passed_of_none h
  obtain ⟨h, -⟩ := passed_of_none h
  simp only [Bool.or_eq_true, decide_eq_true_eq, not_or] at h
  omega

section

variable {s : State} {src : Src} {desc : List Byte} {outLen : Nat} {segs : List (List Byte)} (ha : s.allows (.hashOp src desc outLen segs))

include ha

/-- Below 2.2 only ONE_SHOT is supported (R195). -/
theorem exec_hashOp_version (hm : leAt desc 1 1 ≠ 0) (h4 : leAt desc 1 1 ≤ 4) (hv : s.version src.mgr < 0x0202) :
    exec (.hashOp src desc outLen segs) s = .next (s.deliver src (ans stVersionUnsupported 0)) :=
  exec_answers ha rfl rfl (if_pos (by simp [hm, h4, hv])) rfl

variable (hv : leAt desc 1 1 = 0 ∨ 0x0202 ≤ s.version src.mgr)

include hv

theorem hashOp_versioned : ¬(decide (leAt desc 1 1 ≠ 0) && decide (leAt desc 1 1 ≤ 4) && decide (s.version src.mgr < 0x0202)) = true := by
  simp only [Bool.and_eq_true, decide_eq_true_eq]
  omega

theorem exec_hashOp_field {off : Nat} (hf : hashField desc outLen (hashData desc segs).length = some off) :
    exec (.hashOp src desc outLen segs) s = .next (s.deliver src (ans stInvalidField off)) := by
  refine exec_answers ha rfl rfl ((if_neg (hashOp_versioned ha hv)).trans ?_) rfl
  unfold hashData at hf
  rw [hf]

variable (hf : hashField desc outLen (hashData desc segs).length = none)

include hf

theorem exec_hashOp_refused (h : (s.hashCheck src.mgr desc).1 ≠ stSuccess) : exec (.hashOp src desc outLen segs) s =
    .next (s.deliver src (ans (s.hashCheck src.mgr desc).1 (if (s.hashCheck src.mgr desc).1 = stInvalidField then 16 else 0))) := by
  refine exec_answers ha rfl rfl ((if_neg (hashOp_versioned ha hv)).trans ?_) rfl
  unfold hashData at hf
  rw [hf]
  exact if_pos h

end

/-- The context that a descriptor names. -/
def State.hashCtx (s : State) (m : Mgr) (desc : List Byte) : Option HashCtx := SMap.get? (s.hash.get m).ctxs (leAt desc 2 1)

theorem State.hashCheck_open {s : State} {m : Mgr} {desc : List Byte} (hm : leAt desc 1 1 = 1) (hc : (s.hashCtx m desc).isSome = true) :
    s.hashCheck m desc = (stBusy, []) := if_pos (by unfold State.hashCtx at hc; simp [hm, hc])

theorem State.hashCheck_closed {s : State} {m : Mgr} {desc : List Byte} (hm : 2 ≤ leAt desc 1 1) (hc : s.hashCtx m desc = none) :
    s.hashCheck m desc = (stNotPermitted, []) := by
  unfold State.hashCtx at hc
  refine (if_neg (by simp [hc])).trans (if_pos ?_)
  rw [hc]
  simp
  omega

theorem State.hashCheck_other {s : State} {m : Mgr} {desc : List Byte} {x : HashCtx} (hm : leAt desc 1 1 = 2 ∨ leAt desc 1 1 = 3)
    (hc : s.hashCtx m desc = some x) (hx : x.alg.toNat ≠ leAt desc 0 1) : s.hashCheck m desc = (stInvalidField, []) := by
  unfold State.hashCtx at hc
  refine (if_neg ?_).trans ((if_neg ?_).trans (if_pos ?_))
  · simp; omega
  · rw [hc]; simp
  · rw [hc]; simpa [hx] using hm

/-- A command without a key that R196 takes. -/
theorem State.hashCheck_taken {s : State} {m : Mgr} {desc : List Byte} (hh : algHmac (leAt desc 0 1) = false)
    (h : leAt desc 1 1 = 0 ∨ leAt desc 1 1 = 1 ∧ s.hashCtx m desc = none ∨
      ∃ x, s.hashCtx m desc = some x ∧ (leAt desc 1 1 = 4 ∨ 2 ≤ leAt desc 1 1 ∧ x.alg.toNat = leAt desc 0 1)) :
    s.hashCheck m desc = (stSuccess, []) := by
  unfold State.hashCtx at h
  have hkey : (match fin? 256 (leAt desc 4 2) with
    | some k => if (decide (leAt desc 1 1 = 0) || decide (leAt desc 1 1 = 1)) && algHmac (leAt desc 0 1) then ((s.slot k).material).getD []
      else []
    | none => []) = ([] : List Byte) := by
    rw [hh]
    split
    · simp
    · rfl
  refine (if_neg ?_).trans ((if_neg ?_).trans ((if_neg ?_).trans ((if_neg (by rw [hh]; simp)).trans ?_)))
  · obtain h | ⟨-, h⟩ | ⟨x, -, h⟩ := h
    · simp [h]
    · simp [h]
    · simp; omega
  · obtain h | ⟨h, -⟩ | ⟨x, h, -⟩ := h
    · simp [h]
    · simp [h]
    · simp [h]
  · obtain h | ⟨h, -⟩ | ⟨x, hx, h⟩ := h
    · simp [h]
    · simp [h]
    · rw [hx]
      obtain h | ⟨-, h⟩ := h
      · simp [h]
      · simp [h]
  · exact congrArg (Prod.mk stSuccess) hkey

/-- The job of a HASH_OP without a key. -/
def State.hashJobFor (s : State) (src : Src) (desc : List Byte) (segs : List (List Byte)) : HashJob :=
  { mgr := src.mgr, sq := src.sq, cid := src.cid, alg := BitVec.ofNat 8 (leAt desc 0 1), mode := BitVec.ofNat 8 (leAt desc 1 1),
    ctx := BitVec.ofNat 8 (leAt desc 2 1), key := [], outLen := leAt desc 6 2, data := hashData desc segs, cls := s.queueClass src,
    again := false }

/-- The manager's farm with a job more; START opens its context. -/
def HashWork.withJob (mode : Nat) (j : HashJob) (h : HashWork) : HashWork :=
  { h with jobs := h.jobs ++ [j],
           ctxs := if mode = 1 then SMap.put h.ctxs j.ctx.toNat { alg := j.alg, key := j.key, data := [] } else h.ctxs }

theorem exec_hashOp_taken {s : State} {src : Src} {desc : List Byte} {outLen : Nat} {segs : List (List Byte)}
    (ha : s.allows (.hashOp src desc outLen segs)) (hv : leAt desc 1 1 = 0 ∨ 0x0202 ≤ s.version src.mgr)
    (hf : hashField desc outLen (hashData desc segs).length = none) (hc : s.hashCheck src.mgr desc = (stSuccess, [])) :
    exec (.hashOp src desc outLen segs) s =
      .next (s.modHash src.mgr (HashWork.withJob (leAt desc 1 1) (s.hashJobFor src desc segs))) := by
  have hn : ∀ u : State, u.led = s.led → u.noteCommit s src = u := fun u hu => if_pos (congrArg Ledger.commits hu)
  rw [exec_own ha rfl rfl]
  refine congrArg Host.Outcome.next (Eq.trans ?_ (hn _ rfl))
  refine congrArg (fun u : State => u.noteCommit s src) ((if_neg (hashOp_versioned ha hv)).trans ?_)
  unfold hashData at hf
  rw [hf]
  dsimp only
  rw [hc]
  refine (if_neg (not_not_intro rfl)).trans ?_
  split
  · rfl
  · rfl

theorem State.modHash_get (s : State) (m : Mgr) (f : HashWork → HashWork) : (s.modHash m f).hash.get m = f (s.hash.get m) := by
  cases m <;> rfl

/-- What a HASH_OP that is taken leaves. -/
theorem hashOp_taken {s : State} {src : Src} {desc : List Byte} {outLen : Nat} {segs : List (List Byte)}
    (ha : s.allows (.hashOp src desc outLen segs)) (hv : leAt desc 1 1 = 0 ∨ 0x0202 ≤ s.version src.mgr)
    (hf : hashField desc outLen (hashData desc segs).length = none) (hc : s.hashCheck src.mgr desc = (stSuccess, [])) :
    ∃ t j, exec (.hashOp src desc outLen segs) s = .next t ∧ Frame [.hash] s t ∧
      (t.hash.get src.mgr).jobs = (s.hash.get src.mgr).jobs ++ [j] ∧ j.sq = src.sq ∧ j.cid = src.cid ∧ j.alg.toNat = leAt desc 0 1 ∧
      j.mode.toNat = leAt desc 1 1 ∧ j.ctx.toNat = leAt desc 2 1 ∧ j.data = hashData desc segs ∧ j.outLen = leAt desc 6 2 ∧
      j.cls = s.queueClass src ∧
      (leAt desc 1 1 = 1 → SMap.get? (t.hash.get src.mgr).ctxs (leAt desc 2 1) = some { alg := j.alg, key := [], data := [] }) := by
  obtain ⟨halg, hmode⟩ := hashField_none hf
  have hsmall : ∀ {n : Nat}, n < 256 → (BitVec.ofNat 8 n).toNat = n := fun h => (BitVec.toNat_ofNat _ _).trans (Nat.mod_eq_of_lt h)
  refine ⟨_, s.hashJobFor src desc segs, exec_hashOp_taken ha hv hf hc, State.modHash_frame (Frame.refl _ s) (by decide), ?_, rfl, rfl,
    hsmall (by omega), hsmall (by omega), hsmall (leAt_byte _ _), rfl, rfl, rfl, fun hm => ?_⟩
  · rw [State.modHash_get]
    rfl
  · rw [State.modHash_get]
    unfold HashWork.withJob
    rw [if_pos hm]
    have hctx : (s.hashJobFor src desc segs).ctx.toNat = leAt desc 2 1 := hsmall (leAt_byte _ _)
    rw [hctx]
    exact SMap.get?_put_self _ _ _

end Sys2Proof.Machine
end


section
/-! SUPPORT. The end of HASH_OP's jobs, RANDOM, the entropy source, and O53 (R195, R196, R206, R207, R222). -/

namespace Sys2Proof.Machine

open Sys2Proof

/-! ## The job that goes first -/

theorem firstHash_of_rest {j : HashJob} {l : List HashJob} (h : ∀ k ∈ l, k.cls.toNat ≤ j.cls.toNat) : firstHash (j :: l) = some j := by
  have hm : ∀ {l : List HashJob} {k}, firstHash l = some k → k ∈ l := fun {l} => by
    induction l with
    | nil => exact fun h => nomatch h
    | cons x l ih =>
      intro k hk
      unfold firstHash at hk
      split at hk
      · next y hy =>
        split at hk
        · cases hk
          exact List.mem_cons_of_mem _ (ih hy)
        · cases hk
          exact List.mem_cons_self
      · cases hk
        exact List.mem_cons_self
  unfold firstHash
  split
  · next k hk => exact if_neg (not_lt.2 (h k (hm hk)))
  · rfl

/-- The highest class goes first, the oldest within it. -/
theorem firstHash_of_before {j : HashJob} {before rest : List HashJob} (hb : ∀ k ∈ before, k.cls.toNat < j.cls.toNat)
    (hr : ∀ k ∈ rest, k.cls.toNat ≤ j.cls.toNat) : firstHash (before ++ j :: rest) = some j := by
  induction before with
  | nil => exact firstHash_of_rest hr
  | cons x l ih =>
    have h := ih fun k hk => hb k (List.mem_cons_of_mem _ hk)
    show (match firstHash (l ++ j :: rest) with
      | some k => if x.cls.toNat < k.cls.toNat then some k else some x
      | none => some x) = some j
    rw [h]
    exact if_pos (hb x List.mem_cons_self)

/-- The job leaves the list. -/
theorem erase_first {j : HashJob} {before rest : List HashJob} (hb : ∀ k ∈ before, k.cls.toNat < j.cls.toNat) :
    (before ++ j :: rest).erase j = before ++ rest := by
  rw [List.erase_append_right _ fun hm => absurd (hb j hm) (lt_irrefl _), List.erase_cons_head]

/-! ## A job done -/

/-- The farm without the job. -/
def HashWork.without (j : HashJob) (h : HashWork) : HashWork :=
  { h with jobs := h.jobs.erase j, done := h.done + 1, bytes := h.bytes + BitVec.ofNat 64 j.data.length }

/-- The context that a job finds, or that a START opens again after a restart of the cluster. -/
def HashJob.ctxIn (j : HashJob) (h : HashWork) : Option HashCtx :=
  match SMap.get? h.ctxs j.ctx.toNat with
  | some c => some c
  | none => if j.mode = 1 && j.again then some { alg := j.alg, key := j.key, data := [] } else none

/-- The command of a job. -/
def HashJob.src (j : HashJob) (m : Mgr) : Src := { mgr := m, sq := j.sq, cid := j.cid }

/-- The farm with the job's context closed. -/
def HashWork.closed (j : HashJob) (h : HashWork) : HashWork := { h with ctxs := SMap.del h.ctxs j.ctx.toNat }

/-- The farm with the job's bytes added to its context. -/
def HashWork.extended (j : HashJob) (c : HashCtx) (h : HashWork) : HashWork :=
  { h with ctxs := SMap.put h.ctxs j.ctx.toNat { c with data := c.data ++ j.data } }

/-- The end of a job from a state in which it has left the list. -/
def State.hashEnd (s : State) (m : Mgr) (j : HashJob) (ctx : Option HashCtx) : State :=
  let src := j.src m
  let res := leBytes 8 j.data.length
  let close := s.modHash m (HashWork.closed j)
  match j.mode.toNat, ctx with
  | 0, _ => (s.toBuffer src (hashOutput j.alg.toNat j.key j.data j.outLen)).finish src stSuccess 0 res
  | _, none => s.finish src stNotPermitted
  | 3, some c => (close.toBuffer src (hashOutput j.alg.toNat c.key (c.data ++ j.data) j.outLen)).finish src stSuccess 0 res
  | 4, some _ => close.finish src stSuccess 0 res
  | _, some c => (s.modHash m (HashWork.extended j c)).finish src stSuccess 0 res

theorem exec_hashJobDone_absent {s : State} {m : Mgr} (h : s.dev.ccAbsent = true) : exec (.hashJobDone m) s = .next s := by
  refine congrArg Host.Outcome.next ?_
  split
  · rfl
  · exact if_pos h

theorem exec_hashJobDone {s : State} {m : Mgr} {j : HashJob} (hcc : s.dev.ccAbsent = false) (hj : firstHash (s.hash.get m).jobs = some j) :
    exec (.hashJobDone m) s = .next ((s.modHash m (HashWork.without j)).hashEnd m j (j.ctxIn ((s.hash.get m).without j))) := by
  refine congrArg Host.Outcome.next ?_
  rw [hj]
  refine (if_neg (by rw [hcc]; decide)).trans ?_
  have hget : ((s.modHash m (HashWork.without j)).hash.get m) = (s.hash.get m).without j := State.modHash_get _ _ _
  rw [← hget]
  rfl

section

variable {s : State} {m : Mgr} {j : HashJob}

theorem State.hashEnd_oneShot (h : j.mode = 0) (ctx : Option HashCtx) : s.hashEnd m j ctx =
    (s.toBuffer (j.src m) (hashOutput j.alg.toNat j.key j.data j.outLen)).finish (j.src m) stSuccess 0 (leBytes 8 j.data.length) := by
  unfold State.hashEnd
  rw [h]
  rfl

theorem State.hashEnd_none (h : j.mode ≠ 0) : s.hashEnd m j none = s.finish (j.src m) stNotPermitted := by
  unfold State.hashEnd
  rcases hm : j.mode.toNat with _ | _ | _ | _ | _ | n
  · exact absurd (BitVec.eq_of_toNat_eq hm) h
  · rfl
  · rfl
  · rfl
  · rfl
  · rfl

theorem State.hashEnd_finish (h : j.mode = 3) (c : HashCtx) : s.hashEnd m j (some c) =
    ((s.modHash m (HashWork.closed j)).toBuffer (j.src m) (hashOutput j.alg.toNat c.key (c.data ++ j.data) j.outLen)).finish (j.src m) stSuccess 0
      (leBytes 8 j.data.length) := by
  unfold State.hashEnd
  rw [h]
  rfl

theorem State.hashEnd_drop (h : j.mode = 4) (c : HashCtx) : s.hashEnd m j (some c) =
    (s.modHash m (HashWork.closed j)).finish (j.src m) stSuccess 0 (leBytes 8 j.data.length) := by
  unfold State.hashEnd
  rw [h]
  rfl

theorem State.hashEnd_extend (h0 : j.mode ≠ 0) (h3 : j.mode ≠ 3) (h4 : j.mode ≠ 4) (c : HashCtx) : s.hashEnd m j (some c) =
    (s.modHash m (HashWork.extended j c)).finish (j.src m) stSuccess 0 (leBytes 8 j.data.length) := by
  unfold State.hashEnd
  rcases hm : j.mode.toNat with _ | _ | _ | _ | _ | n
  · exact absurd (BitVec.eq_of_toNat_eq hm) h0
  · rfl
  · rfl
  · exact absurd (BitVec.eq_of_toNat_eq hm) h3
  · exact absurd (BitVec.eq_of_toNat_eq hm) h4
  · rfl

end

/-- t is what a completion with a status and RESULT leaves of v: z is that completion. -/
def HashAnswered (v t : State) (src : Src) (x : Sq) (c : Cq) (st : Status) (res : List Byte) (z : Completion) : Prop :=
  .completion x.cq c.tail z ∈ (t.view src.mgr).out ∧ z.cid = src.cid ∧ z.status = st ∧ z.result = res16 res ∧ t.hash = v.hash

theorem State.CanAnswer.hashAnswered {v : State} {src : Src} {x : Sq} {c : Cq} (h : v.CanAnswer src x c) (st : Status) (res : List Byte) :
    ∃ z, HashAnswered v (v.finish src st 0 res) src x c st res z :=
  ⟨_, h.finish st 0 res false, rfl, rfl, rfl,
    State.finish_frame (Frame.refl [.rings, .views, .awaits, .dev] v) (by decide) .hash (by decide)⟩

theorem State.CanAnswer.buffered {v : State} {src : Src} {x : Sq} {c : Cq} (h : v.CanAnswer src x c) (st : Status) (res d : List Byte) :
    .buffer src.sq src.cid d ∈ (((v.toBuffer src d).finish src st 0 res).view src.mgr).out := by
  refine CompletionsOnly.mem ((CompletionsOnly.refl _).finish _ _ _ _ _) ?_
  rw [State.toBuffer_out _ h.dma]
  exact List.mem_append_right _ (List.mem_singleton_self _)

theorem State.CanAnswer.modHash {v : State} {src : Src} {x : Sq} {c : Cq} (h : v.CanAnswer src x c) (m : Mgr) (f : HashWork → HashWork) :
    (v.modHash m f).CanAnswer src x c :=
  h.of_frame (State.modHash_frame (Frame.refl [.hash] v) (by decide)) (by decide) (by decide)

/-- What the end of the first job leaves (R195, R196). -/
theorem hashJob_ended {s : State} {m : Mgr} {j : HashJob} {before rest : List HashJob} {x : Sq} {c : Cq} (hcc : s.dev.ccAbsent = false)
    (hd : s.dmaUp m = true) (hj : (s.hash.get m).jobs = before ++ j :: rest) (hb : ∀ k ∈ before, k.cls.toNat < j.cls.toNat)
    (hr : ∀ k ∈ rest, k.cls.toNat ≤ j.cls.toNat) (hx : SMap.get? (s.ring m).sqs j.sq.toNat = some x)
    (hc : SMap.get? (s.ring m).cqs x.cq.toNat = some c) (hf : c.fault = false) :
    ∃ t z, exec (.hashJobDone m) s = .next t ∧ (t.hash.get m).jobs = before ++ rest ∧ (t.hash.get m).done = (s.hash.get m).done + 1 ∧
      .completion x.cq c.tail z ∈ (t.view m).out ∧ z.cid = j.cid ∧
      (j.mode = 0 → z.status = stSuccess ∧ z.result.take 8 = leBytes 8 j.data.length ∧ (t.hash.get m).ctxs = (s.hash.get m).ctxs ∧
        .buffer j.sq j.cid (hashOutput j.alg.toNat j.key j.data j.outLen) ∈ (t.view m).out) ∧
      (SMap.get? (s.hash.get m).ctxs j.ctx.toNat = none → j.mode ≠ 0 →
        if j.mode = 1 ∧ j.again = true then z.status = stSuccess ∧
          SMap.get? (t.hash.get m).ctxs j.ctx.toNat = some { alg := j.alg, key := j.key, data := j.data }
        else z.status = stNotPermitted) ∧
      (∀ k, SMap.get? (s.hash.get m).ctxs j.ctx.toNat = some k →
        (j.mode = 3 → z.status = stSuccess ∧ SMap.get? (t.hash.get m).ctxs j.ctx.toNat = none ∧
          .buffer j.sq j.cid (hashOutput j.alg.toNat k.key (k.data ++ j.data) j.outLen) ∈ (t.view m).out) ∧
        (j.mode = 4 → z.status = stSuccess ∧ SMap.get? (t.hash.get m).ctxs j.ctx.toNat = none) ∧
        (j.mode = 1 ∨ j.mode = 2 → z.status = stSuccess ∧
          SMap.get? (t.hash.get m).ctxs j.ctx.toNat = some { k with data := k.data ++ j.data })) := by
  have hfirst : firstHash (s.hash.get m).jobs = some j := hj ▸ firstHash_of_before hb hr
  have hans : s.CanAnswer (j.src m) x c := ⟨hx, hc, hf, hd⟩
  have hrest : ((s.hash.get m).without j).jobs = before ++ rest := (congrArg (List.erase · j) hj).trans (erase_first hb)
  have hexec := exec_hashJobDone hcc hfirst
  have hu := hans.modHash m (HashWork.without j)
  have hget : (s.modHash m (HashWork.without j)).hash.get m = (s.hash.get m).without j := State.modHash_get _ _ _
  generalize s.modHash m (HashWork.without j) = u at hexec hu hget
  by_cases h0 : j.mode = 0
  · rw [State.hashEnd_oneShot h0] at hexec
    obtain ⟨z, hz, hcid, hst, hres, hh⟩ := (hu.toBuffer (hashOutput j.alg.toNat j.key j.data j.outLen)).hashAnswered stSuccess (leBytes 8 j.data.length)
    rw [State.toBuffer_frame (Frame.refl [.views] u) (by decide) .hash (by decide)] at hh
    refine ⟨_, z, hexec, ?_, ?_, hz, hcid, fun _ => ⟨hst, ?_, ?_, hu.buffered _ _ _⟩, fun _ h => absurd h0 h, fun k _ => ⟨?_, ?_, ?_⟩⟩
    · rw [hh, hget]; exact hrest
    · rw [hh, hget]; rfl
    · rw [hres]; rfl
    · rw [hh, hget]; rfl
    · intro h; rw [h0] at h; cases h
    · intro h; rw [h0] at h; cases h
    · intro h; rw [h0] at h; obtain h | h := h <;> cases h
  have hctxs : ∀ f : HashWork → HashWork, (u.modHash m f).hash.get m = f ((s.hash.get m).without j) := fun f => by
    rw [State.modHash_get, hget]
  have hextend : ∀ c', j.mode ≠ 3 → j.mode ≠ 4 → j.ctxIn ((s.hash.get m).without j) = some c' → ∃ t z,
      exec (.hashJobDone m) s = .next t ∧ (t.hash.get m).jobs = before ++ rest ∧ (t.hash.get m).done = (s.hash.get m).done + 1 ∧
      .completion x.cq c.tail z ∈ (t.view m).out ∧ z.cid = j.cid ∧ z.status = stSuccess ∧
      SMap.get? (t.hash.get m).ctxs j.ctx.toNat = some { c' with data := c'.data ++ j.data } := fun c' h3 h4 hctx => by
    rw [hctx, State.hashEnd_extend h0 h3 h4] at hexec
    obtain ⟨z, hz, hcid, hst, -, hh⟩ := (hu.modHash m (HashWork.extended j c')).hashAnswered stSuccess (leBytes 8 j.data.length)
    refine ⟨_, z, hexec, ?_, ?_, hz, hcid, hst, ?_⟩
    · rw [hh, hctxs]; exact hrest
    · rw [hh, hctxs]; rfl
    · rw [hh, hctxs]; exact SMap.get?_put_self _ _ _
  cases hk : SMap.get? (s.hash.get m).ctxs j.ctx.toNat with
  | none =>
    have hctx : j.ctxIn ((s.hash.get m).without j) = if j.mode = 1 && j.again then some { alg := j.alg, key := j.key, data := [] } else none := by
      unfold HashJob.ctxIn
      rw [show SMap.get? ((s.hash.get m).without j).ctxs j.ctx.toNat = none from hk]
    by_cases ha : j.mode = 1 ∧ j.again = true
    · obtain ⟨t, z, ht, h1, h2, h3, h4, h5, h6⟩ := hextend _ (by rw [ha.1]; decide) (by rw [ha.1]; decide) (hctx.trans (if_pos (by simp [ha])))
      refine ⟨t, z, ht, h1, h2, h3, h4, fun h => absurd h h0, fun _ _ => ?_, fun k hk => nomatch hk⟩
      rw [if_pos ha]
      exact ⟨h5, h6⟩
    · rw [hctx.trans (if_neg (by simpa using ha)), State.hashEnd_none h0] at hexec
      obtain ⟨z, hz, hcid, hst, -, hh⟩ := hu.hashAnswered stNotPermitted []
      refine ⟨_, z, hexec, ?_, ?_, hz, hcid, fun h => absurd h h0, fun _ _ => ?_, fun k hk => nomatch hk⟩
      · rw [hh, hget]; exact hrest
      · rw [hh, hget]; rfl
      · rw [if_neg ha]; exact hst
  | some k =>
    have hctx : j.ctxIn ((s.hash.get m).without j) = some k := by
      unfold HashJob.ctxIn
      rw [show SMap.get? ((s.hash.get m).without j).ctxs j.ctx.toNat = some k from hk]
    by_cases h3 : j.mode = 3
    · rw [hctx, State.hashEnd_finish h3] at hexec
      have hv := hu.modHash m (HashWork.closed j)
      obtain ⟨z, hz, hcid, hst, -, hh⟩ := (hv.toBuffer (hashOutput j.alg.toNat k.key (k.data ++ j.data) j.outLen)).hashAnswered stSuccess
        (leBytes 8 j.data.length)
      rw [State.toBuffer_frame (Frame.refl [.views] _) (by decide) .hash (by decide)] at hh
      refine ⟨_, z, hexec, ?_, ?_, hz, hcid, fun h => absurd h h0, fun h => (nomatch h), fun k' hk' => ⟨fun _ => ?_, fun h => ?_, fun h => ?_⟩⟩
      · rw [hh, hctxs]; exact hrest
      · rw [hh, hctxs]; rfl
      · cases hk'
        refine ⟨hst, ?_, hv.buffered _ _ _⟩
        rw [hh, hctxs]; exact SMap.get?_del _ _
      · rw [h3] at h; cases h
      · rw [h3] at h; obtain h | h := h <;> cases h
    by_cases h4 : j.mode = 4
    · rw [hctx, State.hashEnd_drop h4] at hexec
      obtain ⟨z, hz, hcid, hst, -, hh⟩ := (hu.modHash m (HashWork.closed j)).hashAnswered stSuccess (leBytes 8 j.data.length)
      refine ⟨_, z, hexec, ?_, ?_, hz, hcid, fun h => absurd h h0, fun h => (nomatch h), fun k' hk' => ⟨fun h => absurd h h3, fun _ => ?_, fun h => ?_⟩⟩
      · rw [hh, hctxs]; exact hrest
      · rw [hh, hctxs]; rfl
      · rw [hh, hctxs]; exact ⟨hst, SMap.get?_del _ _⟩
      · rw [h4] at h; obtain h | h := h <;> cases h
    · obtain ⟨t, z, ht, h1, h2, h3', h4', h5, h6⟩ := hextend k h3 h4 hctx
      refine ⟨t, z, ht, h1, h2, h3', h4', fun h => absurd h h0, fun h => (nomatch h), fun k' hk' => ⟨fun h => absurd h h3, fun h => absurd h h4, fun _ => ?_⟩⟩
      cases hk'
      exact ⟨h5, h6⟩

/-! ## RANDOM and the entropy source -/

/-- RANDOM (R206). -/
theorem exec_random {s : State} {src : Src} {len : Nat} (ha : s.allows (.random src len)) : ∃ t, exec (.random src len) s = .next t ∧
    (if len = 0 ∨ 4096 < len then t = s.deliver src (ans stInvalidField 24)
     else if s.drbg.keyState ≠ 1 then t = s.deliver src (ans stNotPermitted)
     else ∃ b : List Byte, b.length = len ∧ t.drawn = s.drawn + 1 ∧ .buffer src.sq src.cid b ∈ (t.view src.mgr).out) := by
  have hd : s.dmaUp src.mgr = true := (ha src _ rfl).2.2 rfl
  by_cases h1 : len = 0 ∨ 4096 < len
  · exact ⟨_, exec_answers ha rfl rfl (if_pos (by simpa using h1)) rfl, by rw [if_pos h1]⟩
  by_cases h2 : s.drbg.keyState ≠ 1
  · exact ⟨_, exec_answers ha rfl rfl ((if_neg (by simpa using h1)).trans (if_pos h2)) rfl, by rw [if_neg h1, if_pos h2]⟩
  · refine ⟨_, exec_answers ha rfl rfl ((if_neg (by simpa using h1)).trans (if_neg h2)) rfl, ?_⟩
    rw [if_neg h1, if_neg h2]
    refine ⟨(List.range len).map fun i => Config.randomByte s.drawn i, by simp, ?_, State.deliver_buffer rfl hd⟩
    exact State.deliver_frame (Frame.refl [.rings, .views, .awaits, .dev] _) (by decide) .drawn (by decide)

/-- What a failed test of the entropy source leaves of the generators (R207). -/
def DrbgFailed (d e : Drbg) : Prop := e.keyState = 2 ∧ e.genState = 2 ∧ e.healthFails = satInc d.healthFails

/-- What a passed test of the entropy source leaves of the generators (R207). -/
def DrbgPassed (d e : Drbg) : Prop := e.keyState = 1 ∧ e.genState = 1 ∧ e.reseeds = satInc d.reseeds ∧
  e.rctFail = false ∧ e.aptFail = false ∧ e.startupFail = false

theorem State.entropyTest_parts (s : State) (pass : Bool) : (s.entropyTest pass).now = s.now ∧
    if pass then DrbgPassed s.drbg (s.entropyTest pass).drbg else DrbgFailed s.drbg (s.entropyTest pass).drbg := by
  cases pass with
  | true => exact ⟨rfl, rfl, rfl, rfl, rfl, rfl, rfl⟩
  | false => exact ⟨rfl, rfl, rfl, rfl⟩

theorem exec_entropyHealthFail {s : State} (test : EntropyTest) (h : s.drbg.keyState ≠ 0) : ∃ t, exec (.entropyHealthFail test) s = .next t ∧
    DrbgFailed s.drbg t.drbg ∧ (test = .repetition → t.drbg.rctFail = true) ∧
    (test = .proportion → t.drbg.aptFail = true) ∧ (test = .startup → t.drbg.startupFail = true) := by
  refine ⟨_, congrArg Host.Outcome.next (if_neg h), ⟨rfl, rfl, rfl⟩, ?_, ?_, ?_⟩
  · rintro rfl
    exact Bool.or_true _
  · rintro rfl
    exact Bool.or_true _
  · rintro rfl
    exact Bool.or_true _

theorem exec_entropyRetest {s : State} (pass : Bool) (h : s.drbg.keyState = 2) : ∃ t, exec (.entropyRetest pass) s = .next t ∧
    t.now = max s.now (s.drbg.lastTest + 1000000000) ∧ if pass then DrbgPassed s.drbg t.drbg else DrbgFailed s.drbg t.drbg :=
  ⟨_, congrArg Host.Outcome.next (if_pos h), State.entropyTest_parts (s.until (s.drbg.lastTest + second)) pass⟩

theorem exec_drbRetest {s : State} {m : Mgr} (pass : Bool) (h : s.drbg.keyState ≠ 0) (hr : s.reaches m 0x00F04C) :
    ∃ t, exec (.drbRetest m pass) s = .next t ∧ t.now = s.now ∧ if pass then DrbgPassed s.drbg t.drbg else DrbgFailed s.drbg t.drbg :=
  ⟨_, congrArg Host.Outcome.next ((State.regW_reaches hr).trans (if_neg h)), s.entropyTest_parts pass⟩

/-- GENERAL reseeds (R206). -/
theorem exec_drbgReseed {s : State} (h : s.drbg.genState = 1) : ∃ t, exec .drbgReseed s = .next t ∧ Frame [.now, .drbg] s t ∧
    t.drbg.reseeds = satInc s.drbg.reseeds ∧ t.drbg.genReqs = 0 ∧ t.drbg.lastReseed = t.now ∧
    t.now = (if 65536 ≤ s.drbg.genReqs then s.now else max s.now (s.drbg.lastReseed + s.dcfg.reseedMs * 1000000)) := by
  refine ⟨_, congrArg Host.Outcome.next (if_pos h), ?_⟩
  dsimp only
  split
  · exact ⟨Frame.put_drbg (Frame.refl _ s) (by decide), rfl, rfl, rfl, rfl⟩
  · exact ⟨Frame.put_drbg (State.until_frame (Frame.refl _ s) (by decide)) (by decide), rfl, rfl, rfl, rfl⟩

end Sys2Proof.Machine

namespace Sys2Proof

open Sys2Proof.Machine

/-- Settles O53. -/
theorem hashAndRandomCommandsAnswer : Obligations.HashAndRandomCommandsAnswer := by
  intro s src desc outLen segs m test pass
  refine ⟨fun ha => ?_, exec_hashJobDone_absent, fun j before rest x c hcc hd hj hb hr hx hc hf => hashJob_ended hcc hd hj hb hr hx hc hf,
    fun len => exec_random, ⟨exec_entropyHealthFail test, exec_entropyRetest pass, exec_drbRetest pass⟩, exec_drbgReseed⟩
  dsimp only
  refine ⟨exec_hashOp_version ha, fun hv => ⟨fun h => exec_hashOp_field ha hv (hashField_shape h),
    fun hl hn h => exec_hashOp_field ha hv (hashField_codes hl hn h), fun hf => ?_⟩⟩
  have hrefused : ∀ st, s.hashCheck src.mgr desc = (st, []) → st ≠ stSuccess →
      exec (.hashOp src desc outLen segs) s = .next (s.deliver src (ans st (if st = stInvalidField then 16 else 0))) := fun st h hne => by
    have := exec_hashOp_refused ha hv hf (by rw [h]; exact hne)
    rwa [h] at this
  exact ⟨fun hm hc => hrefused _ (State.hashCheck_open hm hc) (by decide), fun hm hc => hrefused _ (State.hashCheck_closed hm hc) (by decide),
    fun x hm hc hx => hrefused _ (State.hashCheck_other hm hc hx) (by decide), fun hh h => hashOp_taken ha hv hf (State.hashCheck_taken hh h)⟩

end Sys2Proof
end


section
/-! SUPPORT. What a Burnish leaves of the channels (R271). -/

namespace Sys2Proof.Machine

open Sys2Proof

/-! ## A channel that nothing holds is held by nobody after a sequence -/

/-- From s to t channel n does not come to be HELD. -/
def StaysFree (n : Fin 128) (s t : State) : Prop := (s.ch n).state ≠ .held → (t.ch n).state ≠ .held

theorem StaysFree.refl (n : Fin 128) (s : State) : StaysFree n s s := id

theorem StaysFree.comp {n : Fin 128} {s t u : State} (h : StaysFree n s t) (h' : StaysFree n t u) : StaysFree n s u := h' ∘ h

theorem StaysFree.of_state {n : Fin 128} {s t : State} (h : (t.ch n).state = (s.ch n).state) : StaysFree n s t := fun hs => by rw [h]; exact hs

theorem StaysFree.of_frame {n : Fin 128} {fs : List Field} {s t : State} (h : Frame fs s t) (hf : Field.ctl ∉ fs) : StaysFree n s t :=
  .of_state (congrArg (fun v => (vget v n).state) (h .ctl hf))

theorem StaysFree.respects (n : Fin 128) : Respects .ctl (StaysFree n) := ⟨.refl n, .comp, .of_frame⟩

theorem StaysFree.of_sel {n : Fin 128} {s t : State} (h : SelKept s t) : StaysFree n s t := fun hs => by
  rcases h n with e | ⟨-, e⟩
  · rw [e]; exact hs
  · rw [e]; simp

theorem State.modCtl_free {n : Fin 128} {s₀ s : State} {f : Ctl → Ctl} (h : StaysFree n s₀ s) (hf : ∀ c : Ctl, (f c).state = c.state) :
    StaysFree n s₀ (s.modCtl n f) := h.comp (.of_state (by rw [State.modCtl_ch]; exact hf _))

theorem State.answerAll_free {n : Fin 128} {s₀ s : State} {k : AwaitKind → Bool} {st : Status} {info : Nat} {result : List Byte}
    (h : StaysFree n s₀ s) : StaysFree n s₀ (s.answerAll n k st info result) :=
  h.comp (.of_state (State.answerAll_orders.eq n Ctl.state fun _ _ => rfl))

theorem State.transition_free {n : Fin 128} {s₀ s : State} {st : ChState} {cause : Cause} (hst : st ≠ .held) :
    StaysFree n s₀ (s.transition n st cause) := fun _ => by rw [State.transition_ch]; exact hst

theorem State.startTaking_free {n : Fin 128} {s₀ s : State} {cause : Cause} {asked : Bool} (h : StaysFree n s₀ s) :
    StaysFree n s₀ (s.startTaking n cause asked) := by
  refine h.comp fun hs => ?_
  rcases State.startTaking_state s n cause asked (fun e => absurd e hs) with e | e <;> rw [e] <;> simp

theorem State.takeKept_free {n : Fin 128} {s₀ s : State} {cause : Cause} (h : StaysFree n s₀ s) : StaysFree n s₀ (s.takeKept n cause) := by
  unfold State.takeKept
  split
  · exact State.transition_free (by simp)
  · exact State.startTaking_free h

theorem State.powerStep3_free {n : Fin 128} {s₀ s : State} (h : StaysFree n s₀ s) : StaysFree n s₀ (s.powerStep3 n) := by
  unfold State.powerStep3
  split
  · exact State.startTaking_free h
  · exact State.modCtl_free h fun _ => rfl

theorem State.endArming_free {n : Fin 128} {s₀ s : State} {st : Status} (h : StaysFree n s₀ s) : StaysFree n s₀ (s.endArming n st) := by
  unfold State.endArming
  refine State.answerAll_free ?_
  split
  · exact State.modCtl_free (State.modPlt_keeps (StaysFree.respects n) (by decide) h) fun _ => rfl
  · exact h

theorem State.armFail_free {n : Fin 128} {s₀ s : State} {st : Status} (h : StaysFree n s₀ s) : StaysFree n s₀ (s.armFail n st) := by
  have h1 := State.endArming_free (st := st) h
  unfold State.armFail
  dsimp only
  split
  · exact State.takeKept_free h1
  · split
    · exact h1.comp (.of_sel (State.select_sel (SelKept.refl _)))
    · exact h1

theorem State.bind_free {n : Fin 128} {s₀ s : State} {i : Fin 256} {p : PlateId} (h : StaysFree n s₀ s) : StaysFree n s₀ (s.bind n i p) :=
  h.comp (.of_sel (State.bind_sel (SelKept.refl s)))

theorem State.armCommit_free {n : Fin 128} {s₀ s : State} {a : Arming} {i : Fin 256} (h : StaysFree n s₀ s) :
    StaysFree n s₀ (s.armCommit n a i) := by
  refine h.comp ?_
  clear h
  unfold State.armCommit
  dsimp -failIfUnchanged -proj only
  repeat' (with_reducible first
    | apply StaysFree.refl | apply State.startTaking_free | apply State.modPlt_keeps (StaysFree.respects n) (by decide)
    | apply State.beginAttempt_keeps (StaysFree.respects n) (by decide)
    | apply State.commitPlates_keeps (StaysFree.respects n) (by decide)
    | apply State.bind_free | (apply State.modCtl_free; rotate_left; (intro c; rfl)) | split)

theorem State.armJudge_free {n : Fin 128} {s₀ s : State} {a : Arming} {r : Chk} (h : StaysFree n s₀ s) :
    StaysFree n s₀ (s.armJudge n a r) := by
  have hwait : ∀ w : SelWait, StaysFree n s₀ (s.modCtl n fun c => { c with sel := some w }) := fun w => State.modCtl_free h fun _ => rfl
  unfold State.armJudge
  split
  · exact hwait _
  · exact related_ite (hwait _) (related_ite (State.armFail_free h) (State.armCommit_free h))
  · refine State.armFail_free (h.comp (.of_frame (fs := [.trace, .plt, .rings, .led]) ?_ (by decide)))
    split
    · exact Frame.put_led (State.raise_frame (State.verifyFailed_frame (Frame.refl _ s) (by decide)) (by decide)) (by decide)
    · exact State.commitPlates_frame (State.raise_frame (State.verifyFailed_frame (Frame.refl _ s) (by decide)) (by decide)) (by decide)
  · exact State.armFail_free h

theorem State.armStep_free {n : Fin 128} {s₀ s : State} (h : StaysFree n s₀ s) : StaysFree n s₀ (s.armStep n) := by
  unfold State.armStep
  split
  · split
    · exact h
    · split
      · exact State.modCtl_free h fun _ => rfl
      · exact State.armJudge_free (h.comp (.of_sel (State.checkPlate_sel (SelKept.refl _))))
  · exact h

theorem State.sequenceHeld_free {n : Fin 128} {s₀ s : State} (h : StaysFree n s₀ s) : StaysFree n s₀ (s.sequenceHeld n) := by
  unfold State.sequenceHeld
  repeat' (with_reducible first
    | exact h | apply State.armStep_free | apply State.startTaking_free | apply State.powerStep3_free | split)

/-! ## The hold instant -/

theorem State.linesStepped_ch (s : State) (n : Fin 128) : (s.forAll (List.finRange 16) fun t s => s.lineStep t).ch n = s.ch n :=
  congrArg (vget · n) (s.linesStepped_frame .ctl (by decide))

/-- A hold instant that no sequence waits for. -/
theorem State.reachHold_idle {s : State} {n : Fin 128} (hs : (s.ch n).seq = none) :
    ∃ r, (s.reachHold n).ch n =
      { s.ch n with sink := true, holdWait := false, holdT := s.now, holds := satInc (s.ch n).holds, ordRes := r } := by
  obtain ⟨r, hr⟩ := s.sunk_ch n
  refine ⟨r, ?_⟩
  rw [State.reachHold_eq]
  generalize hu : (s.sunk n).forAll (List.finRange 16) (fun t s => s.lineStep t) = u
  have hch : u.ch n = (s.sunk n).ch n := hu ▸ State.linesStepped_ch _ n
  have hno : u.sequenceHeld n = u := by
    unfold State.sequenceHeld
    rw [hch, hr, hs]
  rw [hno, hch, hr]

theorem State.reachHold_free {s : State} {n : Fin 128} : StaysFree n s (s.reachHold n) := by
  obtain ⟨r, hr⟩ := s.sunk_ch n
  rw [State.reachHold_eq]
  refine State.sequenceHeld_free (.of_state ?_)
  rw [State.linesStepped_ch, hr]

theorem State.reachHold_other (s : State) (n : Fin 128) : OtherCtl n s (s.reachHold n) := by
  have hM := OtherCtl.moves n
  rw [State.reachHold_eq]
  refine hM.comp ?_ (State.sequenceHeld_moves hM _)
  refine hM.comp ?_ fun k _ => State.linesStepped_ch _ k
  unfold State.sunk
  dsimp only
  refine State.answerAll_moves hM (State.applyDeferred_keeps hM.toRespects (by decide) ?_)
  refine State.modStn_keeps hM.toRespects (by decide) (State.leaveUpdate_keeps hM.toRespects (by decide) ?_)
  refine State.endOpenSession_keeps hM.toRespects (by decide) (State.modPort_keeps hM.toRespects (by decide) ?_)
  exact fun k hk => State.modCtl_ch_ne _ _ _ hk

theorem State.reachHold_sinks (s : State) (n : Fin 128) : ((s.reachHold n).ch n).sink = true := by
  rw [State.reachHold_eq]
  exact (State.reachHold_parts rfl rfl).1

theorem State.reachHold_dev (s : State) (n : Fin 128) : DevKept s (s.reachHold n) := by
  rw [State.reachHold_eq]
  refine DevKept.comp ?_ (State.sequenceHeld_completes DevKept.completes n _)
  refine DevKept.comp ?_ (.of_frame (State.linesStepped_frame _) (by decide))
  unfold State.sunk
  dsimp only
  refine State.answerAll_completes DevKept.completes (State.applyDeferred_keeps DevKept.respects (by decide) ?_)
  refine State.modStn_keeps DevKept.respects (by decide) (State.leaveUpdate_keeps DevKept.respects (by decide) ?_)
  refine State.endOpenSession_keeps DevKept.respects (by decide) (State.modPort_keeps DevKept.respects (by decide) ?_)
  exact State.modCtl_keeps DevKept.respects (by decide) (DevKept.refl s)

/-! ## A channel at the Burnish -/

/-- The states in which a Burnish holds the channel. -/
abbrev Ctl.holdable (c : Ctl) : Prop := c.state.live = true ∨ c.state = .held

/-- What a Burnish makes of a channel's control state. -/
structure Ctl.BurntTo (c₀ c : Ctl) : Prop where
  sink : c.sink = true
  bound : c.bound = none
  free : c.state = .held → c.kind = .device
  held : c₀.holdable → c.state = .held
  same : c₀.seq = none → ¬c₀.holdable → c.state = c₀.state

theorem State.endArming_ch (s : State) (n : Fin 128) (st : Status) :
    ((s.endArming n st).ch n).state = (s.ch n).state ∧ ((s.endArming n st).ch n).seq = (s.ch n).seq := by
  unfold State.endArming
  dsimp only
  obtain ⟨r, hr⟩ := State.answerAll_orders (s := if (s.pl n).arming.isSome then
      (s.modPlt n fun x => { x with arming := none }).modCtl n fun c => { c with sel := none } else s) (n := n) (k := fun k => k = .arm)
    (st := st) (info := 0) (result := []) n
  rw [hr]
  split
  · rw [State.modCtl_ch]
    exact ⟨rfl, rfl⟩
  · exact ⟨rfl, rfl⟩

/-- The hold of a Burnish. -/
def State.burnishHold (s : State) (n : Fin 128) : State :=
  if (s.ch n).state.live || (s.ch n).state = .held then s.hold n .device .device none else s

theorem State.burnishHold_other (s : State) (n : Fin 128) : OtherCtl n s (s.burnishHold n) := by
  unfold State.burnishHold
  split
  · exact s.hold_other n _ _ _
  · exact (OtherCtl.moves n).refl s

theorem State.burnishHold_pos {s : State} {n : Fin 128} (h : (s.ch n).holdable) :
    ((s.burnishHold n).ch n).state = .held ∧ ((s.burnishHold n).ch n).kind = .device ∧ ((s.burnishHold n).ch n).seq = none := by
  have hh := s.hold_ch n .device .device none
  unfold State.burnishHold
  rw [if_pos (by simpa using h)]
  exact ⟨hh.state, hh.kind, hh.seq⟩

theorem State.burnishHold_neg {s : State} {n : Fin 128} (h : ¬(s.ch n).holdable) : s.burnishHold n = s :=
  if_neg (by simpa using h)

/-- HOLD# sinks, unless it does already. -/
def State.burnishSink (s : State) (n : Fin 128) : State := if (s.ch n).sink then s else s.reachHold n

theorem State.burnishChan_eq (s : State) (n : Fin 128) : s.burnishChan n =
    (((s.endArming n stAborted).burnishHold n).burnishSink n).modCtl n fun c => { c with bound := none, plate := none, pins := [] } := rfl

theorem State.burnishSink_sinks (s : State) (n : Fin 128) : ((s.burnishSink n).ch n).sink = true := by
  unfold State.burnishSink
  split
  · assumption
  · exact s.reachHold_sinks n

theorem State.burnishSink_idle {s : State} {n : Fin 128} (hs : (s.ch n).seq = none) :
    ((s.burnishSink n).ch n).state = (s.ch n).state ∧ ((s.burnishSink n).ch n).kind = (s.ch n).kind := by
  unfold State.burnishSink
  split
  · exact ⟨rfl, rfl⟩
  · obtain ⟨r, hr⟩ := State.reachHold_idle hs
    rw [hr]
    exact ⟨rfl, rfl⟩

theorem State.burnishSink_free {s : State} {n : Fin 128} : StaysFree n s (s.burnishSink n) := by
  unfold State.burnishSink
  split
  · exact .refl n s
  · exact State.reachHold_free

theorem State.burnishChan_own (s : State) (n : Fin 128) : (s.ch n).BurntTo ((s.burnishChan n).ch n) := by
  obtain ⟨hst, hseq⟩ := s.endArming_ch n stAborted
  rw [State.burnishChan_eq, State.modCtl_ch]
  generalize s.endArming n stAborted = u at hst hseq
  by_cases h : (s.ch n).holdable
  · obtain ⟨hheld, hkind, hnone⟩ := State.burnishHold_pos (show (u.ch n).holdable by unfold Ctl.holdable; rw [hst]; exact h)
    obtain ⟨hs', hk'⟩ := State.burnishSink_idle hnone
    exact ⟨State.burnishSink_sinks _ n, rfl, fun _ => hk'.trans hkind, fun _ => hs'.trans hheld, fun _ hn => absurd h hn⟩
  · have hu : ¬(u.ch n).holdable := by unfold Ctl.holdable; rw [hst]; exact h
    have hfree : ((u.burnishSink n).ch n).state ≠ .held := State.burnishSink_free fun e => hu (.inr e)
    rw [State.burnishHold_neg hu]
    exact ⟨State.burnishSink_sinks _ n, rfl, fun e => absurd e hfree, fun e => absurd e h,
      fun hn _ => (State.burnishSink_idle (hseq.trans hn)).1.trans hst⟩

theorem State.burnishChan_other (s : State) (n : Fin 128) : OtherCtl n s (s.burnishChan n) := by
  have hM := OtherCtl.moves n
  rw [State.burnishChan_eq]
  refine State.modCtl_moves hM ?_ fun _ => rfl
  refine hM.comp (t := (s.endArming n stAborted).burnishHold n) ?_ ?_
  · exact hM.comp (State.endArming_moves hM (hM.refl s)) (State.burnishHold_other _ n)
  · unfold State.burnishSink
    split
    · exact hM.refl _
    · exact State.reachHold_other _ n

theorem State.burnishChan_dev (s : State) (n : Fin 128) : DevKept s (s.burnishChan n) := by
  have h1 : DevKept s (s.endArming n stAborted) := State.endArming_completes DevKept.completes (DevKept.refl s)
  rw [State.burnishChan_eq]
  refine State.modCtl_keeps DevKept.respects (by decide) (h1.comp ?_)
  generalize s.endArming n stAborted = u
  have h2 : DevKept u (u.burnishHold n) := by
    unfold State.burnishHold
    split
    · exact State.hold_dev (DevKept.refl u)
    · exact DevKept.refl u
  refine h2.comp ?_
  unfold State.burnishSink
  split
  · exact DevKept.refl _
  · exact State.reachHold_dev _ n

/-- Every channel at the Burnish. -/
theorem State.burnishChans_ch (s : State) (n : Fin 128) : (s.ch n).BurntTo ((s.forChans fun n s => s.burnishChan n).ch n) := by
  obtain ⟨u, hu, h⟩ := State.forChans_turn (R := fun s t => t.ch n = s.ch n) (f := fun n s => s.burnishChan n)
    (fun _ => rfl) (fun _ _ _ h h' => h'.trans h) s n fun k hk u => State.burnishChan_other u k n (Ne.symm hk)
  rw [h, ← hu]
  exact u.burnishChan_own n

end Sys2Proof.Machine
end


section
/-! SUPPORT. What a Burnish leaves (R271), and the wake from STANDBY that follows it (R274). -/

namespace Sys2Proof.Machine

open Sys2Proof

/-! ## Keys while jobs are dispatched -/

/-- From s to t no key material and no vault copy changes. -/
def SecretsKept (s t : State) : Prop := t.keys.vault = s.keys.vault ∧ ∀ k, (t.slot k).material = (s.slot k).material

theorem SecretsKept.refl (s : State) : SecretsKept s s := ⟨rfl, fun _ => rfl⟩

theorem SecretsKept.comp {s t u : State} (h : SecretsKept s t) (h' : SecretsKept t u) : SecretsKept s u :=
  ⟨h'.1.trans h.1, fun k => (h'.2 k).trans (h.2 k)⟩

theorem SecretsKept.of_frame {fs : List Field} {s t : State} (h : Frame fs s t) (hf : Field.keys ∉ fs) : SecretsKept s t :=
  ⟨congrArg KeyStore.vault (h .keys hf), fun k => congrArg (fun x : KeyStore => (vget x.slots k).material) (h .keys hf)⟩

/-- A use of a slot counts. -/
theorem State.modSlot_uses (s : State) (i : Fin 256) : SecretsKept s (s.modSlot i fun x => { x with uses := satInc x.uses }) := by
  refine ⟨rfl, fun k => ?_⟩
  unfold State.modSlot State.slot
  by_cases h : k = i
  · subst h
    rw [vget_vmod_self]
  · rw [vget_vmod_ne _ _ h]

theorem State.finishJob_secrets {s₀ s : State} {j : BurinJob} {st : Status} (h : SecretsKept s₀ s) : SecretsKept s₀ (s.finishJob j st) :=
  h.comp (.of_frame (State.finishJob_frame (Frame.refl _ s) (Field.sub_refl _)) (by decide))

theorem State.loadJob_secrets {s₀ s : State} {k : Fin 4} {j : BurinJob} (h : SecretsKept s₀ s) : SecretsKept s₀ (s.loadJob k j) :=
  h.comp (.of_frame (State.loadJob_frame (Frame.refl _ s) (Field.sub_refl _)) (by decide))

theorem State.takeCore_secrets (s : State) (k : Fin 4) (j : BurinJob) : SecretsKept s (s.takeCore k j) := by
  have h0 : ∀ b, SecretsKept s { s with burin := b } := fun b => .of_frame (Frame.put_burin (Frame.refl [.burin] s) (by decide)) (by decide)
  unfold State.takeCore
  dsimp only
  split
  · split
    · split
      · exact related_ite (State.loadJob_secrets ((h0 _).comp (State.modSlot_uses _ _))) (State.finishJob_secrets (h0 _))
      · exact State.finishJob_secrets (h0 _)
    · exact State.finishJob_secrets (h0 _)
  · exact State.loadJob_secrets (h0 _)

theorem State.allocate_secrets (s : State) : SecretsKept s s.allocate := by
  unfold State.allocate
  dsimp only
  split
  · split
    · exact State.loadJob_secrets (.of_frame (State.modCore_frame (Frame.refl _ s) (Field.sub_refl _)) (by decide))
    · exact .refl s
  · split
    · split
      · exact s.takeCore_secrets _ _
      · exact .refl s
    · exact .refl s

theorem State.allocateN_secrets (k : Nat) (s : State) : SecretsKept s (State.allocateN k s) := by
  induction k generalizing s with
  | zero => exact .refl s
  | succ k ih => exact s.allocate_secrets.comp (ih _)

theorem State.dispatchJobs_secrets (s : State) : SecretsKept s s.dispatchJobs := by
  unfold State.dispatchJobs
  split
  · exact State.allocateN_secrets _ s
  · exact .refl s

/-! ## The Burnish -/

/-- What the channels' holds and the end of Graver's command touch. -/
theorem State.burnishHeld_frame (s : State) (source : Nat) :
    Frame [.ports, .mbx, .stn, .ctl, .plt, .wdg, .fps, .pol, .prof, .imm, .fca, .mins, .plat, .trace, .spdm, .rings, .views, .awaits, .drbg,
      .drawn, .led, .dev, .otp] (s.burnishBegun source) (s.burnishHeld source) :=
  State.endOtp_frame (State.forChans_frame (Frame.refl _ _) fun _ _ => State.burnishChan_frame (Frame.refl _ _) (by decide)) (by decide)

theorem State.burnishHeld_ch (s : State) (source : Nat) (n : Fin 128) : (s.ch n).BurntTo ((s.burnishHeld source).ch n) := by
  have h : (s.burnishHeld source).ch n = ((s.burnishBegun source).forChans fun n s => s.burnishChan n).ch n :=
    congrArg (vget · n) (State.endOtp_frame (Frame.refl _ _) (Field.sub_refl _) .ctl (by decide))
  rw [h]
  exact (s.burnishBegun source).burnishChans_ch n

theorem State.burnishHeld_dev (s : State) (source : Nat) : DevKept s (s.burnishHeld source) := by
  have h : DevKept s ((s.burnishBegun source).forChans fun n s => s.burnishChan n) :=
    State.forChans_keeps DevKept.respects (.of_frame (s.burnishBegun_frame source) (by decide)) fun n s => s.burnishChan_dev n
  exact State.endOtp_dev h

theorem State.burnishKeys_frame' (s : State) : Frame [.rings, .views, .awaits, .burin, .dev] s.keysEmptied s.burnishKeys := by
  rw [State.burnishKeys_eq]
  exact State.forAll_frame (Frame.refl _ _) fun _ _ => State.abortCore_frame (Frame.refl _ _) (Field.sub_refl _)

theorem State.burnishKeys_dev (s : State) : DevKept s.keysEmptied s.burnishKeys := by
  rw [State.burnishKeys_eq]
  exact State.forAll_keeps DevKept.respects (DevKept.refl _) fun _ _ => State.abortCore_dev (DevKept.refl _)

/-- What a Burnish does once the stores are empty. -/
def State.burnishTold (s : State) (source level : Nat) : State :=
  (((s.raise 0x0601 devCh [source, level]).raise 0x0602 devCh [source]).logKey 2 [source]).dispatchJobs

theorem State.burnish_told (s : State) (source level : Nat) :
    s.burnish source level = (s.burnishHeld source).burnishKeys.storesEmptied.burnishTold source level := s.burnish_eq source level

theorem State.burnishTold_frame (s : State) (source level : Nat) :
    Frame [.trace, .rings, .views, .awaits, .burin, .keys, .dev] s (s.burnishTold source level) :=
  State.dispatchJobs_frame (State.logKey_frame (State.raise_frame (State.raise_frame (Frame.refl _ s) (by decide)) (by decide)) (by decide))
    (by decide)

theorem State.toldFirst_frame (s : State) (source level : Nat) :
    Frame [.trace, .rings] s (((s.raise 0x0601 devCh [source, level]).raise 0x0602 devCh [source]).logKey 2 [source]) :=
  State.logKey_frame (State.raise_frame (State.raise_frame (Frame.refl _ s) (by decide)) (by decide)) (by decide)

theorem State.burnishTold_secrets (s : State) (source level : Nat) : SecretsKept s (s.burnishTold source level) :=
  (SecretsKept.of_frame (s.toldFirst_frame source level) (by decide)).comp (State.dispatchJobs_secrets _)

theorem State.burnishTold_dev (s : State) (source level : Nat) : DevKept s (s.burnishTold source level) :=
  (DevKept.of_frame (s.toldFirst_frame source level) (by decide)).comp (State.dispatchJobs_dev (DevKept.refl _))

theorem DevKept.zeroised {s t : State} (h : DevKept s t) : t.dev.zeroised = s.dev.zeroised := by
  unfold DevKept at h
  rw [h]

theorem State.keysEmptied_dev (s : State) : s.keysEmptied.dev.state = s.dev.state ∧ s.keysEmptied.dev.zeroised = true := ⟨rfl, rfl⟩

/-- The device's word after a Burnish. -/
theorem State.burnish_dev (s : State) (source level : Nat) :
    (s.burnish source level).dev.state = s.dev.state ∧ (s.burnish source level).dev.zeroised = true := by
  have h1 := s.burnishHeld_dev source
  have h2 := (s.burnishHeld source).burnishKeys_dev
  have h3 : DevKept (s.burnishHeld source).burnishKeys (s.burnishHeld source).burnishKeys.storesEmptied :=
    .of_frame (State.storesEmptied_frame _) (by decide)
  have h4 := (h2.comp h3).comp (State.burnishTold_dev _ source level)
  rw [State.burnish_told]
  exact ⟨h4.state.trans ((State.keysEmptied_dev _).1.trans h1.state), h4.zeroised.trans (State.keysEmptied_dev _).2⟩

/-- What is gone after a Burnish, and how each channel of s stands after it. -/
structure Burnt (s : State) (source : Nat) (t : State) : Prop where
  tamper : t.tamper = { s.tamper with
    last := BitVec.ofNat 5 source, burnishes := satInc s.tamper.burnishes, btime := BitVec.ofNat 64 s.now, burnt := true }
  zeroised : t.dev.zeroised = true
  att : t.att.keysReady = false
  imm : t.imm.keyValid = false
  slots : ∀ k, (t.slot k).material = none
  salts : ∀ q v, t.keys.vault.c0 = .valid q v ∨ t.keys.vault.c1 = .valid q v → v.salt = none
  cdis : ∀ n, (t.mb n).cdi = []
  wdgs : ∀ n, (t.wd n).key = []
  dir : ∀ k, t.dirE k = Impression.free
  hashA : t.hash.a.ctxs = []
  hashB : t.hash.b.ctxs = []
  chs : ∀ n, (s.ch n).BurntTo (t.ch n)

theorem LCopy.unsalted_salt {c : LCopy VaultRec} {q : Nat} {v : VaultRec} (h : c.unsalted = .valid q v) : v.salt = none := by
  unfold LCopy.unsalted at h
  split at h
  · cases h
    rfl
  · next hc => exact absurd h (hc q v)

theorem State.keysEmptied_secrets (s : State) : (∀ k, (s.keysEmptied.slot k).material = none) ∧
    ∀ q v, s.keysEmptied.keys.vault.c0 = .valid q v ∨ s.keysEmptied.keys.vault.c1 = .valid q v → v.salt = none := by
  refine ⟨fun k => ?_, fun q v h => h.elim LCopy.unsalted_salt LCopy.unsalted_salt⟩
  exact congrArg KeySlot.material (vget_map s.keys.slots (fun k : KeySlot => { KeySlot.empty with stamp := k.stamp + 1 }) k)

/-- What comes after a Burnish without touching what it emptied or held. -/
theorem Burnt.step {s t u : State} {source : Nat} (h : Burnt s source t)
    (hf : Frame [.prof, .dcfg, .plat, .trace, .rings, .views, .awaits, .burin, .keys, .dev] t u) (hk : SecretsKept t u)
    (hz : u.dev.zeroised = true) : Burnt s source u where
  tamper := (hf .tamper (by decide)).trans h.tamper
  zeroised := hz
  att := (congrArg Attest.keysReady (hf .att (by decide))).trans h.att
  imm := (congrArg ImageMem.keyValid (hf .imm (by decide))).trans h.imm
  slots k := (hk.2 k).trans (h.slots k)
  salts := by rw [hk.1]; exact h.salts
  cdis n := (congrArg (fun v => (vget v n).cdi) (hf .mbx (by decide))).trans (h.cdis n)
  wdgs n := (congrArg (fun v => (vget v n).key) (hf .wdg (by decide))).trans (h.wdgs n)
  dir k := (congrArg (fun v : ImageMem => vget v.dir k) (hf .imm (by decide))).trans (h.dir k)
  hashA := (congrArg (fun v : PerMgr HashWork => v.a.ctxs) (hf .hash (by decide))).trans h.hashA
  hashB := (congrArg (fun v : PerMgr HashWork => v.b.ctxs) (hf .hash (by decide))).trans h.hashB
  chs n := by
    have hn : u.ch n = t.ch n := congrArg (vget · n) (hf .ctl (by decide))
    rw [hn]
    exact h.chs n

theorem Burnt.of_frame {s t u : State} {source : Nat} (h : Burnt s source t)
    (hf : Frame [.prof, .dcfg, .plat, .trace, .rings, .views, .awaits, .dev] t u) (hz : u.dev.zeroised = true) : Burnt s source u :=
  h.step (Frame.comp (Frame.refl _ t) hf (by decide)) (.of_frame hf (by decide)) hz

/-- The keys, once the cores' jobs have ended. -/
theorem State.burnishKeys_parts (s : State) :
    (s.burnishKeys.att.keysReady = false ∧ s.burnishKeys.imm.keyValid = false ∧ ∀ n, (s.burnishKeys.wd n).key = []) ∧
      (∀ k, (s.burnishKeys.slot k).material = none) ∧
      ∀ q v, s.burnishKeys.keys.vault.c0 = .valid q v ∨ s.burnishKeys.keys.vault.c1 = .valid q v → v.salt = none := by
  have hf := s.burnishKeys_frame'
  have hsec : SecretsKept s.keysEmptied s.burnishKeys := .of_frame hf (by decide)
  obtain ⟨hslots, hsalts⟩ := s.keysEmptied_secrets
  refine ⟨⟨congrArg Attest.keysReady (hf .att (by decide)), congrArg ImageMem.keyValid (hf .imm (by decide)), fun n => ?_⟩,
    fun k => (hsec.2 k).trans (hslots k), ?_⟩
  · exact (congrArg (fun v => (vget v n).key) (hf .wdg (by decide))).trans
      (congrArg Wdg.key (vget_map s.wdg (fun w : Wdg => { w with key := [] }) n))
  · rw [hsec.1]
    exact hsalts

theorem State.storesEmptied_parts (s : State) :
    (∀ n, (s.storesEmptied.mb n).cdi = []) ∧ (∀ k, s.storesEmptied.dirE k = Impression.free) ∧ s.storesEmptied.hash.a.ctxs = [] ∧
      s.storesEmptied.hash.b.ctxs = [] ∧ s.storesEmptied.imm.keyValid = s.imm.keyValid := by
  refine ⟨fun n => ?_, fun k => ?_, rfl, rfl, rfl⟩
  · exact congrArg Mailbox.cdi (vget_map s.mbx (fun b : Mailbox => { b with cdi := [], cdiTaken := true }) n)
  · show vget (Vector.replicate 256 Impression.free) k = _
    simp [vget]

theorem State.burnishHeld_tamper (s : State) (source : Nat) : (s.burnishHeld source).tamper = (s.burnishBegun source).tamper :=
  s.burnishHeld_frame source .tamper (by decide)

/-- The stores are empty, and the Burnish is still to be told. -/
theorem State.storesEmptied_burnt (s : State) (source : Nat) : Burnt s source (s.burnishHeld source).burnishKeys.storesEmptied := by
  have hch := s.burnishHeld_ch source
  have htam := s.burnishHeld_tamper source
  generalize s.burnishHeld source = a at hch htam
  obtain ⟨⟨hatt, himm, hwd⟩, hslots, hsalts⟩ := a.burnishKeys_parts
  have hf : Frame [.rings, .views, .awaits, .burin, .wdg, .imm, .att, .keys, .dev] a a.burnishKeys :=
    Frame.comp (Frame.comp (Frame.refl _ a) a.keysEmptied_frame (by decide)) a.burnishKeys_frame' (by decide)
  have hz : a.burnishKeys.dev.zeroised = true := a.burnishKeys_dev.zeroised
  generalize a.burnishKeys = w at hatt himm hwd hslots hsalts hf hz
  obtain ⟨hcdi, hdir, hha, hhb, hkv⟩ := w.storesEmptied_parts
  have hs := w.storesEmptied_frame
  generalize w.storesEmptied = t at hcdi hdir hha hhb hkv hs
  have hsec : SecretsKept w t := .of_frame hs (by decide)
  refine ⟨?_, ?_, ?_, hkv.trans himm, fun k => (hsec.2 k).trans (hslots k), ?_, hcdi, fun n => ?_, hdir, hha, hhb, fun n => ?_⟩
  · exact (hs .tamper (by decide)).trans ((hf .tamper (by decide)).trans htam)
  · exact (congrArg Device.zeroised (hs .dev (by decide))).trans hz
  · exact (congrArg Attest.keysReady (hs .att (by decide))).trans hatt
  · rw [hsec.1]
    exact hsalts
  · exact (congrArg (fun v => (vget v n).key) (hs .wdg (by decide))).trans (hwd n)
  · have hn : t.ch n = a.ch n := congrArg (vget · n) ((hs .ctl (by decide)).trans (hf .ctl (by decide)))
    rw [hn]
    exact hch n

theorem State.burnish_burnt (s : State) (source level : Nat) : Burnt s source (s.burnish source level) := by
  have hz := (s.burnish_dev source level).2
  rw [State.burnish_told] at hz ⊢
  exact (s.storesEmptied_burnt source).step (Frame.comp (Frame.refl _ _) (State.burnishTold_frame _ source level) (by decide))
    (State.burnishTold_secrets _ source level) hz

/-! ## The wake from STANDBY (R274, R310) -/

theorem State.wakeLink_frame' (s : State) (m : Mgr) : Frame [.views] s (s.wakeLink m) := State.wakeLink_frame (Frame.refl _ s) (Field.sub_refl _)

/-- STANDBY has ended, before the channels that it holds go on. -/
def State.woken (s : State) : State := (s.wake.wakeLink .a).wakeLink .b

theorem State.wakeUp_standby {s : State} (h : s.dev.state = .standby) : s.wakeUp = s.woken.resumeStandby := if_pos h

theorem State.woken_frame (s : State) : Frame [.prof, .dcfg, .trace, .rings, .views, .dev] s s.woken :=
  State.wakeLink_frame (State.wakeLink_frame (State.wake_frame (Frame.refl _ s) (by decide)) (by decide)) (by decide)

theorem State.wake_dev (s : State) : s.wake.dev = { s.dev with state := .running, runSince := s.now } := by
  have h := s.setDev_dev .running
  have hn : (s.setDev .running).now = s.now := State.setDev_frame (Frame.refl _ s) (Field.sub_refl _) .now (by decide)
  show { (s.setDev .running).dev with runSince := (s.setDev .running).now } = _
  rw [h, hn]

theorem State.woken_dev (s : State) : s.woken.dev = { s.dev with state := .running, runSince := s.now } := by
  have h : ∀ (u : State) m, (u.wakeLink m).dev = u.dev := fun u m => u.wakeLink_frame' m .dev (by decide)
  unfold State.woken
  rw [h, h, State.wake_dev]

/-- Channels that only the device holds do not go on when STANDBY ends. -/
theorem State.resumeStandby_frame' {s : State} (h : ∀ n, (s.ch n).state = .held → (s.ch n).kind = .device) :
    Frame [.plat] s s.resumeStandby := by
  have hheld : ∀ n, s.resumeHeld n = s := fun n => by
    unfold State.resumeHeld
    dsimp only
    split
    · rfl
    · next hn =>
      have hk : (s.ch n).kind = .device := by
        simp only [Bool.or_eq_true, decide_eq_true_eq, not_or, not_not] at hn
        exact h n hn.1.1
      rw [hk]
  have hresume : s.forChans (fun n s => s.resumeHeld n) = s := State.forChans_eq hheld
  unfold State.resumeStandby
  rw [hresume]
  dsimp only
  split
  · exact Frame.refl _ s
  · rw [State.forChans_eq]
    · exact Frame.put_plat (Frame.refl _ s) (by decide)
    · intro n
      refine if_neg fun e => ?_
      simp only [Bool.and_eq_true, decide_eq_true_eq] at e
      have hk : (s.ch n).kind = .standby := e.1.2
      rw [h n e.1.1.2] at hk
      cases hk

/-- After a Burnish a wake changes nothing that the Burnish emptied or held. -/
theorem Burnt.wakeUp {s t : State} {source : Nat} (h : Burnt s source t) : Burnt s source t.wakeUp := by
  by_cases hs : t.dev.state = .standby
  · rw [State.wakeUp_standby hs]
    have hw : Burnt s source t.woken :=
      h.of_frame (Frame.comp (Frame.refl _ t) t.woken_frame (by decide)) (by rw [State.woken_dev]; exact h.zeroised)
    have hp : Frame [.plat] t.woken t.woken.resumeStandby := State.resumeStandby_frame' fun n => (hw.chs n).free
    exact hw.of_frame (Frame.comp (Frame.refl _ _) hp (by decide)) (by rw [hp .dev (by decide)]; exact hw.zeroised)
  · have he : t.wakeUp = t := if_neg hs
    rw [he]
    exact h

/-- A re-release keeps the device's word. -/
theorem State.takeKept_dev {s₀ s : State} {n : Fin 128} {cause : Cause} (h : DevKept s₀ s) : DevKept s₀ (s.takeKept n cause) :=
  State.takeKept_completes DevKept.completes h

theorem State.resumeHeld_dev {s₀ s : State} {n : Fin 128} (h : DevKept s₀ s) : DevKept s₀ (s.resumeHeld n) := by
  have ht : ∀ {cause asked}, DevKept s₀ (s.startTaking n cause asked) := State.startTaking_completes DevKept.completes h
  unfold State.resumeHeld
  dsimp only
  split
  · exact h
  · split
    · exact related_ite ht h
    · exact related_ite (State.takeKept_dev h) h
    · exact related_ite ht h
    · exact related_ite ht h
    · exact h

theorem State.resumeStandby_dev (s : State) : DevKept s s.resumeStandby := by
  have h1 : DevKept s (s.forChans fun n s => s.resumeHeld n) :=
    State.forChans_keeps DevKept.respects (DevKept.refl s) fun _ _ => State.resumeHeld_dev (DevKept.refl _)
  unfold State.resumeStandby
  dsimp only
  split
  · exact h1
  · refine State.forChans_keeps DevKept.respects (h1.comp (.of_frame (Frame.put_plat (Frame.refl [.plat] _) (by decide)) (by decide))) fun n s => ?_
    exact related_ite (State.modCtl_keeps DevKept.respects (by decide) (State.startTaking_completes DevKept.completes (DevKept.refl s)))
      (DevKept.refl s)

theorem State.wakeUp_dev {s : State} (h : s.dev.state = .standby) : s.wakeUp.dev.state = .running ∧ s.wakeUp.dev.runSince = s.now := by
  have hk := s.woken.resumeStandby_dev
  rw [State.wakeUp_standby h]
  unfold DevKept at hk
  rw [hk, State.woken_dev]
  exact ⟨rfl, rfl⟩

end Sys2Proof.Machine
end


section
/-! SUPPORT. Trips of tamper sources and their response, and O55 (R267 to R273). -/

namespace Sys2Proof.Machine

open Sys2Proof

/-! ## The sources of a trip -/

theorem getLsbD_putBit_ne {w : Nat} (x : BitVec w) {i k : Nat} (b : Bool) (hk : k ≠ i) : (putBit x i b).getLsbD k = x.getLsbD k := by
  have hbit : (BitVec.ofNat w (2 ^ i)).getLsbD k = false := by
    rw [BitVec.getLsbD_ofNat, Nat.testBit_two_pow_of_ne (Ne.symm hk), Bool.and_false]
  by_cases h : k < w
  · cases b with
    | false => rw [putBit, if_neg Bool.false_ne_true, BitVec.getLsbD_and, BitVec.getLsbD_not, hbit, decide_eq_true h, Bool.not_false, Bool.and_true, Bool.and_true]
    | true => rw [putBit, if_pos rfl, BitVec.getLsbD_or, hbit, Bool.or_false]
  · rw [BitVec.getLsbD_of_ge _ _ (Nat.le_of_not_lt h), BitVec.getLsbD_of_ge _ _ (Nat.le_of_not_lt h)]

theorem getLsbD_putBit_true {w : Nat} (x : BitVec w) {i k : Nat} (hi : i < w) :
    (putBit x i true).getLsbD k = true ↔ x.getLsbD k = true ∨ k = i := by
  by_cases hk : k = i
  · subst hk
    simp [getLsbD_putBit x true hi]
  · simp [getLsbD_putBit_ne x true hk, hk]

theorem State.le_topLevel_from (s : State) (l : List Nat) (a : Nat) :
    (a ≤ l.foldl (fun a i => max a (s.tamperLevel i)) a) ∧ ∀ i ∈ l, s.tamperLevel i ≤ l.foldl (fun a i => max a (s.tamperLevel i)) a := by
  induction l generalizing a with
  | nil => exact ⟨le_refl a, fun _ h => absurd h List.not_mem_nil⟩
  | cons x l ih =>
    obtain ⟨h1, h2⟩ := ih (max a (s.tamperLevel x))
    refine ⟨(le_max_left _ _).trans h1, fun i hi => ?_⟩
    rcases List.mem_cons.1 hi with rfl | hi
    · exact (le_max_right _ _).trans h1
    · exact h2 i hi

theorem State.le_topLevel {s : State} {l : List Nat} {i : Nat} (h : i ∈ l) : s.tamperLevel i ≤ s.topLevel l := (s.le_topLevel_from l 0).2 i h

theorem State.topLevel_le {s : State} {l : List Nat} {k : Nat} (h : ∀ i ∈ l, s.tamperLevel i ≤ k) : s.topLevel l ≤ k := by
  have hall : ∀ (l : List Nat) a, a ≤ k → (∀ i ∈ l, s.tamperLevel i ≤ k) → l.foldl (fun a i => max a (s.tamperLevel i)) a ≤ k := by
    intro l
    induction l with
    | nil => exact fun a ha _ => ha
    | cons x l ih => exact fun a ha hl => ih _ (max_le ha (hl x List.mem_cons_self)) fun i hi => hl i (List.mem_cons_of_mem _ hi)
  exact hall l 0 (Nat.zero_le k) h

/-- A source in the tamper record: active, counted and, from level 1 on, latched. -/
def Tamper.marked (x : Tamper) (level i : Nat) : Tamper :=
  { x with active := putBit x.active i true, trips := satInc x.trips, latched := if level = 0 then x.latched else putBit x.latched i true }

theorem State.tripSource_tamper (lvl i : Nat) (s : State) : (State.tripSource lvl i s).tamper = s.tamper.marked (s.tamperLevel i) i := by
  have hl : ∀ x, ({ s with tamper := x } : State).tamperLevel i = s.tamperLevel i := fun _ => rfl
  have hkeep : ∀ (u : State) (ds : List Nat), ((u.raise 0x0601 devCh ds).logKey 3 ds).tamper = u.tamper := fun u ds =>
    State.logKey_frame (State.raise_frame (Frame.refl [.trace, .rings] u) (by decide)) (by decide) .tamper (by decide)
  unfold State.tripSource Tamper.marked
  simp only [hl]
  split
  · rfl
  · split
    · rfl
    · exact hkeep _ _

/-- From s to t the sources of l are marked. -/
structure Marks (s : State) (l : List Nat) (t : State) : Prop where
  active : ∀ k, t.tamper.active.getLsbD k = true ↔ s.tamper.active.getLsbD k = true ∨ k ∈ l
  latched : ∀ k, t.tamper.latched.getLsbD k = true ↔ s.tamper.latched.getLsbD k = true ∨ k ∈ l ∧ 1 ≤ s.tamperLevel k
  trips : ∀ i, l = [i] → t.tamper.trips = satInc s.tamper.trips
  rest : ∃ a b c, t.tamper = { s.tamper with active := a, latched := b, trips := c }

theorem State.tripSource_marks {lvl i : Nat} (s : State) (hi : i < 10) : Marks s [i] (State.tripSource lvl i s) := by
  have h := State.tripSource_tamper lvl i s
  refine ⟨fun k => ?_, fun k => ?_, fun _ _ => congrArg Tamper.trips h, ⟨_, _, _, h⟩⟩
  · rw [h, List.mem_singleton]
    exact getLsbD_putBit_true _ hi
  · rw [h, List.mem_singleton]
    show (if s.tamperLevel i = 0 then s.tamper.latched else putBit s.tamper.latched i true).getLsbD k = true ↔ _
    split
    · next h0 => exact ⟨.inl, fun e => e.elim id fun ⟨e, hk⟩ => by subst e; omega⟩
    · next h0 =>
      rw [getLsbD_putBit_true _ hi]
      exact or_congr_right ⟨fun e => ⟨e, by subst e; omega⟩, And.left⟩

theorem State.tripSources_marks {lvl : Nat} {l : List Nat} (hl : ∀ i ∈ l, i < 10) (s : State) : Marks s l (s.forAll l (State.tripSource lvl)) := by
  induction l generalizing s with
  | nil => exact ⟨fun k => by simp [State.forAll], fun k => by simp [State.forAll], nofun, ⟨_, _, _, rfl⟩⟩
  | cons i l ih =>
    have h1 := State.tripSource_marks (lvl := lvl) s (hl i List.mem_cons_self)
    have h2 := ih (fun k hk => hl k (List.mem_cons_of_mem _ hk)) (State.tripSource lvl i s)
    have hlev := State.tamperLevel_of_frame (State.tripSource_frame lvl i s) (by decide) (by decide)
    refine ⟨fun k => ?_, fun k => ?_, fun j hj => ?_, ?_⟩
    · rw [show s.forAll (i :: l) (State.tripSource lvl) = (State.tripSource lvl i s).forAll l (State.tripSource lvl) from rfl, h2.active,
        h1.active, List.mem_singleton, List.mem_cons, or_assoc]
    · rw [show s.forAll (i :: l) (State.tripSource lvl) = (State.tripSource lvl i s).forAll l (State.tripSource lvl) from rfl, h2.latched,
        h1.latched, hlev, List.mem_singleton, List.mem_cons]
      tauto
    · cases hj
      exact h1.trips i rfl
    · obtain ⟨_, _, _, e1⟩ := h1.rest
      obtain ⟨_, _, _, e2⟩ := h2.rest
      exact ⟨_, _, _, e2.trans (by rw [e1])⟩

/-- The record once a trip's sources are marked and LOCK is set. -/
structure TripMarks (s : State) (l : List Nat) (t : State) : Prop where
  active : ∀ k, t.tamper.active.getLsbD k = true ↔ s.tamper.active.getLsbD k = true ∨ k ∈ l
  latched : ∀ k, t.tamper.latched.getLsbD k = true ↔ s.tamper.latched.getLsbD k = true ∨ k ∈ l ∧ 1 ≤ s.tamperLevel k
  trips : ∀ i, l = [i] → t.tamper.trips = satInc s.tamper.trips
  locked : s.topLevel l = 2 → t.tamper.lock = true ∧ t.tamper.ledger = (true, t.tamper.latched)
  free : s.topLevel l ≠ 2 → t.tamper.lock = s.tamper.lock ∧ t.tamper.ledger = s.tamper.ledger
  burnt : t.tamper.burnt = s.tamper.burnt
  burnishes : t.tamper.burnishes = s.tamper.burnishes
  loops : t.tamper.loopKind = s.tamper.loopKind ∧ t.tamper.loopFails = s.tamper.loopFails

theorem State.tripMarked_marks {s : State} {sources : List Nat} (hs : ∀ i ∈ sources, i < 10) :
    TripMarks s (s.tripNew sources) (s.tripMarked sources) := by
  have hm := State.tripSources_marks (lvl := s.topLevel (s.tripNew sources)) (l := s.tripNew sources) (fun i hi => hs i (State.tripNew_mem hi)) s
  unfold State.tripMarked
  generalize s.forAll (s.tripNew sources) (State.tripSource (s.topLevel (s.tripNew sources))) = u at hm
  obtain ⟨a, b, c, hr⟩ := hm.rest
  have hlock : u.tamper.lock = s.tamper.lock ∧ u.tamper.ledger = s.tamper.ledger := by rw [hr]; exact ⟨rfl, rfl⟩
  have hburn : u.tamper.burnt = s.tamper.burnt ∧ u.tamper.burnishes = s.tamper.burnishes := by rw [hr]; exact ⟨rfl, rfl⟩
  have hloop : u.tamper.loopKind = s.tamper.loopKind ∧ u.tamper.loopFails = s.tamper.loopFails := by rw [hr]; exact ⟨rfl, rfl⟩
  unfold State.tripLock
  split
  · next h => exact ⟨hm.active, hm.latched, hm.trips, fun _ => ⟨rfl, rfl⟩, fun e => absurd h e, hburn.1, hburn.2, hloop⟩
  · next h => exact ⟨hm.active, hm.latched, hm.trips, fun e => absurd e h, fun _ => hlock, hburn.1, hburn.2, hloop⟩

/-! ## The response -/

/-- The state after a Burnish on source `source`, seen from the state s before the trip. -/
def Burnished (s t : State) (source : Nat) : Prop :=
  t.tamper.burnt = true ∧ t.tamper.last.toNat = source ∧
    t.tamper.burnishes = satInc s.tamper.burnishes ∧ t.dev.zeroised = true ∧ t.att.keysReady = false ∧ t.imm.keyValid = false ∧
    (∀ k, (t.slot k).material = none) ∧ (∀ q v, t.keys.vault.c0 = .valid q v ∨ t.keys.vault.c1 = .valid q v → v.salt = none) ∧
    (∀ n, (t.mb n).cdi = [] ∧ (t.wd n).key = []) ∧ (∀ k, t.dirE k = Impression.free) ∧ t.hash.a.ctxs = [] ∧ t.hash.b.ctxs = [] ∧
    ((∀ n, (s.ch n).seq = none) → ∀ n, (t.ch n).sink = true ∧ (t.ch n).bound = none ∧
      (if (s.ch n).state.live = true ∨ (s.ch n).state = .held then (t.ch n).state = .held ∧ (t.ch n).kind = .device
       else (t.ch n).state = (s.ch n).state))

theorem Burnt.burnished {s t u : State} {source : Nat} (h : Burnt u source t) (hn : source < 32)
    (hc : u.ctl = s.ctl) (hb : u.tamper.burnishes = s.tamper.burnishes) : Burnished s t source := by
  have hch : ∀ n, u.ch n = s.ch n := fun n => congrArg (vget · n) hc
  refine ⟨by rw [h.tamper], ?_, ?_, h.zeroised, h.att, h.imm, h.slots, h.salts, fun n => ⟨h.cdis n, h.wdgs n⟩, h.dir, h.hashA, h.hashB,
    fun hseq n => ?_⟩
  · rw [h.tamper]
    exact Nat.mod_eq_of_lt hn
  · rw [h.tamper, ← hb]
  · have hx := h.chs n
    rw [hch n] at hx
    refine ⟨hx.sink, hx.bound, ?_⟩
    split
    · next hl => exact ⟨hx.held hl, hx.free (hx.held hl)⟩
    · next hl => exact hx.same (hseq n) hl

/-- What follows when the sources of `new` trip at once. -/
def Tripped (s t : State) (new : Fin 10 → Prop) : Prop :=
  (∀ i : Fin 10, t.tamper.active.getLsbD i.1 = true ↔ s.tamper.active.getLsbD i.1 = true ∨ new i) ∧
    (∀ i : Fin 10, t.tamper.latched.getLsbD i.1 = true ↔ s.tamper.latched.getLsbD i.1 = true ∨ new i ∧ 1 ≤ s.tamperLevel i.1) ∧
    (∀ i, new i → (∀ k, k ≠ i → ¬new k) → t.tamper.trips = satInc s.tamper.trips) ∧
    ((∀ i, new i → s.tamperLevel i.1 ≤ 1) → t.tamper.lock = s.tamper.lock ∧ t.tamper.ledger = s.tamper.ledger ∧ t.ctl = s.ctl) ∧
    ((∃ i, new i ∧ s.tamperLevel i.1 = 2) → (∀ i, new i → s.tamperLevel i.1 ≤ 2) →
      t.tamper.lock = true ∧ t.tamper.ledger = (true, t.tamper.latched) ∧ (s.dev.state ≠ .standby → t.ctl = s.ctl)) ∧
    ((∀ i, new i → s.tamperLevel i.1 ≤ 2) → t.tamper.burnt = s.tamper.burnt ∧ t.keys = s.keys) ∧
    ((∃ i, new i ∧ 2 ≤ s.tamperLevel i.1) → s.dev.state = .standby → t.dev.state = .running) ∧
    (∀ i, new i → s.tamperLevel i.1 = 3 → (∀ k, new k → s.tamperLevel k.1 = 3 → i ≤ k) →
      t.tamper.lock = s.tamper.lock ∧ Burnished s t i.1)

/-- The Burnish of the first source of level 3 in a rising list. -/
theorem State.tripBurnt_first {v : State} {l : List Nat} {i : Nat} (hi : i ∈ l) (h3 : v.tamperLevel i = 3) (hsort : l.Pairwise (· < ·))
    (hmin : ∀ k ∈ l, v.tamperLevel k = 3 → i ≤ k) : v.tripBurnt l = v.burnish i 3 := by
  have hf : l.find? (fun i => v.tamperLevel i = 3) = some i := by
    obtain ⟨pre, post, rfl⟩ := List.append_of_mem hi
    rw [List.find?_append, List.find?_cons_of_pos (by simpa using h3), List.find?_eq_none.2, Option.none_or]
    intro k hk
    have hlt : k < i := (List.pairwise_append.1 hsort).2.2 k hk i List.mem_cons_self
    have hle := hmin k (List.mem_append_left _ hk)
    simp only [decide_eq_true_eq]
    exact fun e => absurd (hle e) (Nat.not_le.2 hlt)
  unfold State.tripBurnt
  rw [hf]

theorem State.tripBurnt_none {v : State} {l : List Nat} (h : ∀ k ∈ l, v.tamperLevel k ≤ 2) : v.tripBurnt l = v := by
  have hf : l.find? (fun i => v.tamperLevel i = 3) = none := List.find?_eq_none.2 fun k hk => by
    have := h k hk
    simp only [decide_eq_true_eq]
    omega
  unfold State.tripBurnt
  rw [hf]

theorem State.tripBurnt_dev (v : State) (l : List Nat) : (v.tripBurnt l).dev.state = v.dev.state := by
  unfold State.tripBurnt
  split
  · exact (v.burnish_dev _ 3).1
  · rfl

theorem State.wakeUp_tamper (v : State) : v.wakeUp.tamper = v.tamper := State.wakeUp_frame (Frame.refl _ v) (Field.sub_refl _) .tamper (by decide)

/-- The tamper record beside the fields of a Burnish. -/
def Tamper.flags (x : Tamper) : BitVec 10 × BitVec 10 × Half × Bool × (Bool × BitVec 10) × Vector (BitVec 3) 4 × Vector Nat 4 :=
  (x.active, x.latched, x.trips, x.lock, x.ledger, x.loopKind, x.loopFails)

theorem State.tripBurnt_flags (v : State) (l : List Nat) : (v.tripBurnt l).tamper.flags = v.tamper.flags := by
  unfold State.tripBurnt
  split
  · rw [(v.burnish_burnt _ 3).tamper]
    rfl
  · rfl

theorem State.trip_flags (s : State) (sources : List Nat) : (s.trip sources).tamper.flags = (s.tripMarked sources).tamper.flags := by
  rw [State.trip_eq]
  split
  · rw [State.wakeUp_tamper, State.tripBurnt_flags]
  · rw [State.tripBurnt_flags]

/-- Sources of a trip, as a rising list, and what they do. -/
theorem State.trip_tripped {s : State} {sources : List Nat} (hs : ∀ i ∈ sources, i < 10) (hsort : sources.Pairwise (· < ·)) :
    Tripped s (s.trip sources) fun i => i.1 ∈ s.tripNew sources := by
  have hm := State.tripMarked_marks (s := s) hs
  have hfr := s.tripMarked_frame sources
  have hflags := s.trip_flags sources
  have hlev : ∀ k, (s.tripMarked sources).tamperLevel k = s.tamperLevel k := State.tamperLevel_of_frame hfr (by decide) (by decide)
  have hnew : ∀ k ∈ s.tripNew sources, k < 10 := fun k hk => hs k (State.tripNew_mem hk)
  have hsort' : (s.tripNew sources).Pairwise (· < ·) := hsort.sublist List.filter_sublist
  have heq := s.trip_eq sources
  generalize s.tripMarked sources = v at hm hfr hflags hlev heq
  generalize s.trip sources = t at hflags heq
  generalize s.tripNew sources = l at hm hnew hsort' heq
  have hall : ∀ {x : Nat}, (∀ i : Fin 10, i.1 ∈ l → s.tamperLevel i.1 ≤ x) → ∀ k ∈ l, s.tamperLevel k ≤ x := fun h k hk => h ⟨k, hnew k hk⟩ hk
  have hnone : (∀ k ∈ l, s.tamperLevel k ≤ 2) → v.tripBurnt l = v := fun h => State.tripBurnt_none fun k hk => by rw [hlev]; exact h k hk
  simp only [Tamper.flags, Prod.mk.injEq] at hflags
  obtain ⟨hact, hlat, htrips, hlock, hledger, -, -⟩ := hflags
  have hctl : v.ctl = s.ctl := hfr .ctl (by decide)
  refine ⟨fun i => ?_, fun i => ?_, fun i hi hone => ?_, fun hle => ?_, fun ⟨i, hi, h2⟩ hle => ?_, fun hle => ?_, fun ⟨i, hi, h2⟩ hst => ?_,
    fun i hi h3 hmin => ?_⟩
  · rw [hact]
    exact hm.active i.1
  · rw [hlat]
    exact hm.latched i.1
  · rw [htrips]
    refine hm.trips i.1 (List.perm_singleton.1 ((List.perm_ext_iff_of_nodup (hsort'.imp fun h => Nat.ne_of_lt h) (by simp)).2 fun k => ?_))
    rw [List.mem_singleton]
    exact ⟨fun hk => by_contra fun hne => hone ⟨k, hnew k hk⟩ (fun e => hne (congrArg Fin.val e)) hk, fun e => e ▸ hi⟩
  · have htop : s.topLevel l ≤ 1 := State.topLevel_le (hall hle)
    rw [if_neg (by omega), hnone fun k hk => (hall hle k hk).trans (by decide)] at heq
    obtain ⟨h1, h2⟩ := hm.free (by omega)
    exact ⟨hlock.trans h1, hledger.trans h2, by rw [heq]; exact hctl⟩
  · have htop : s.topLevel l = 2 := le_antisymm (State.topLevel_le (hall hle)) (h2 ▸ State.le_topLevel hi)
    rw [if_pos (by omega), hnone (hall hle)] at heq
    obtain ⟨h1, h2⟩ := hm.locked htop
    refine ⟨hlock.trans h1, by rw [hledger, hlat]; exact h2, fun hst => ?_⟩
    have hno : v.wakeUp = v := if_neg fun e => hst ((congrArg Device.state (hfr .dev (by decide))).symm.trans e)
    rw [heq, hno]
    exact hctl
  · rw [hnone (hall hle)] at heq
    have hw : Frame [.mbx, .ctl, .plt, .wdg, .prof, .dcfg, .imm, .fca, .mins, .plat, .trace, .spdm, .rings, .views, .awaits, .drbg, .drawn, .led, .dev]
        v t := by
      rw [heq]
      split
      · exact State.wakeUp_frame (Frame.refl _ v) (Field.sub_refl _)
      · exact Frame.refl _ v
    exact ⟨(congrArg Tamper.burnt (hw .tamper (by decide))).trans hm.burnt, (hw .keys (by decide)).trans (hfr .keys (by decide))⟩
  · have htop : 2 ≤ s.topLevel l := h2.trans (State.le_topLevel hi)
    rw [if_pos htop] at heq
    rw [heq]
    refine (State.wakeUp_dev ?_).1
    rw [State.tripBurnt_dev]
    exact (congrArg Device.state (hfr .dev (by decide))).trans hst
  · have htop : 3 ≤ s.topLevel l := h3 ▸ State.le_topLevel hi
    rw [if_pos (by omega), State.tripBurnt_first hi ((hlev i.1).trans h3) hsort' fun k hk hk3 =>
      hmin ⟨k, hnew k hk⟩ hk ((hlev k).symm.trans hk3)] at heq
    refine ⟨hlock.trans (hm.free (by omega)).1, ?_⟩
    rw [heq]
    exact (v.burnish_burnt i.1 3).wakeUp.burnished (i.2.trans (by decide)) hctl hm.burnishes

theorem Tripped.congr {s t : State} {p q : Fin 10 → Prop} (h : Tripped s t p) (hpq : ∀ i, p i ↔ q i) : Tripped s t q := by
  have : p = q := funext fun i => propext (hpq i)
  exact this ▸ h

/-- A trip of no new source changes nothing. -/
theorem State.trip_nil {s : State} {sources : List Nat} (h : s.tripNew sources = []) : s.trip sources = s := by
  rw [State.trip_eq]
  unfold State.tripMarked
  rw [h]
  rfl

end Sys2Proof.Machine
end


section
/-! SUPPORT. The commands of the tamper page and O55 (R267 to R273). -/

namespace Sys2Proof.Machine

open Sys2Proof

/-! ## Trips and samples -/

theorem exec_tamperTrip (s : State) (sources : BitVec 10) : ∃ t, exec (.tamperTrip sources) s = .next t ∧
    Tripped s t (fun i => sources.getLsbD i.1 = true ∧ s.watched i.1 = true ∧ s.tamper.active.getLsbD i.1 = false) ∧
    ((∀ i : Fin 10, ¬(sources.getLsbD i.1 = true ∧ s.watched i.1 = true ∧ s.tamper.active.getLsbD i.1 = false)) → t = s) := by
  have hmem : ∀ i : Nat, i ∈ s.tripNew ((List.range 10).filter fun i => sources.getLsbD i && s.watched i) ↔
      i < 10 ∧ sources.getLsbD i = true ∧ s.watched i = true ∧ s.tamper.active.getLsbD i = false := fun i => by
    unfold State.tripNew
    rw [List.mem_filter, List.mem_filter, List.mem_range, Bool.and_eq_true, Bool.not_eq_true']
    tauto
  have ht := State.trip_tripped (s := s) (sources := (List.range 10).filter fun i => sources.getLsbD i && s.watched i)
    (fun i hi => List.mem_range.1 (List.mem_filter.1 hi).1) (List.pairwise_lt_range.sublist List.filter_sublist)
  refine ⟨_, rfl, ht.congr fun i => (hmem i.1).trans (and_iff_right i.2), fun hno => State.trip_nil (List.eq_nil_iff_forall_not_mem.2 fun i hi => ?_)⟩
  obtain ⟨hlt, h⟩ := (hmem i).1 hi
  exact hno ⟨i, hlt⟩ h

/-- The sample of a loop in the tamper record. -/
def State.sampled (s : State) (l : Fin 4) (kind : BitVec 3) : State :=
  { s with tamper := { s.tamper with
    loopKind := vset s.tamper.loopKind l kind,
    loopFails := vset s.tamper.loopFails l (if kind = 0 then 0 else vget s.tamper.loopFails l + 1) } }

/-- A sample changes nothing that a trip is judged by. -/
theorem Tripped.of_sampled {s t : State} {l : Fin 4} {kind : BitVec 3} {new : Fin 10 → Prop} (h : Tripped (s.sampled l kind) t new) :
    Tripped s t new := h

theorem exec_loopSample_eq {s : State} {l : Fin 4} {kind : BitVec 3} (hw : s.watched (5 + l.1) = true) (hk : kind.toNat ≤ 4) :
    exec (.loopSample l kind) s = .next (if kind ≠ 0 ∧ s.loopN ≤ vget s.tamper.loopFails l + 1 then (s.sampled l kind).trip [5 + l.1]
      else s.sampled l kind) := by
  refine congrArg Host.Outcome.next ((if_neg (by simp [hw]; omega)).trans ?_)
  have hf : (decide ((if kind = 0 then 0 else vget s.tamper.loopFails l + 1) ≠ 0) &&
      decide (s.loopN ≤ if kind = 0 then 0 else vget s.tamper.loopFails l + 1)) = true ↔
      kind ≠ 0 ∧ s.loopN ≤ vget s.tamper.loopFails l + 1 := by
    by_cases h0 : kind = 0
    · simp [h0]
    · rw [if_neg h0]
      simp only [Bool.and_eq_true, decide_eq_true_eq, ne_eq, Nat.add_eq_zero_iff, one_ne_zero, and_false, not_false_eq_true, true_and, h0]
  exact if_congr hf rfl rfl

/-- A trip leaves what the loops' samples record. -/
theorem State.trip_loops {s : State} {sources : List Nat} (hs : ∀ i ∈ sources, i < 10) :
    (s.trip sources).tamper.loopKind = s.tamper.loopKind ∧ (s.trip sources).tamper.loopFails = s.tamper.loopFails := by
  have h := s.trip_flags sources
  obtain ⟨h1, h2⟩ := (State.tripMarked_marks (s := s) hs).loops
  simp only [Tamper.flags, Prod.mk.injEq] at h
  obtain ⟨-, -, -, -, -, hk, hf⟩ := h
  exact ⟨hk.trans h1, hf.trans h2⟩

theorem exec_loopSample (s : State) (l : Fin 4) (kind : BitVec 3) : ∃ t, exec (.loopSample l kind) s = .next t ∧
    (s.watched (5 + l.1) = false ∨ 4 < kind.toNat → t = s) ∧
    (s.watched (5 + l.1) = true → kind.toNat ≤ 4 → vget t.tamper.loopKind l = kind ∧
      vget t.tamper.loopFails l = (if kind = 0 then 0 else vget s.tamper.loopFails l + 1) ∧
      (kind ≠ 0 → s.loopN ≤ vget s.tamper.loopFails l + 1 → s.tamper.active.getLsbD (5 + l.1) = false → Tripped s t fun i => i.1 = 5 + l.1) ∧
      (kind = 0 ∨ vget s.tamper.loopFails l + 1 < s.loopN → t.tamper.active = s.tamper.active ∧ t.tamper.trips = s.tamper.trips)) := by
  by_cases hw : s.watched (5 + l.1) = true ∧ kind.toNat ≤ 4
  · obtain ⟨hw, hk⟩ := hw
    have hl : ∀ i ∈ [5 + l.1], i < 10 := fun i hi => by rw [List.mem_singleton.1 hi]; omega
    refine ⟨_, exec_loopSample_eq hw hk, fun h => ?_, fun _ _ => ?_⟩
    · rcases h with h | h
      · rw [hw] at h; cases h
      · omega
    · have hkind : vget (s.sampled l kind).tamper.loopKind l = kind := vget_vset_self _ _ _
      have hfails : vget (s.sampled l kind).tamper.loopFails l = if kind = 0 then 0 else vget s.tamper.loopFails l + 1 := vget_vset_self _ _ _
      split
      · next h =>
        obtain ⟨h1, h2⟩ := State.trip_loops (s := s.sampled l kind) hl
        refine ⟨(congrArg (vget · l) h1).trans hkind, (congrArg (vget · l) h2).trans hfails, fun _ _ ha => ?_, fun hno => ?_⟩
        · refine (State.trip_tripped hl (List.pairwise_singleton _ _)).of_sampled.congr fun i => ?_
          have hnew : (s.sampled l kind).tripNew [5 + l.1] = [5 + l.1] := by
            unfold State.tripNew
            rw [List.filter_cons_of_pos (by rw [show (s.sampled l kind).tamper.active = s.tamper.active from rfl, ha]; rfl), List.filter_nil]
          rw [hnew, List.mem_singleton]
        · exact absurd h.2 (hno.elim (absurd · h.1) Nat.not_le.2)
      · next h =>
        exact ⟨hkind, hfails, fun h0 hn => absurd ⟨h0, hn⟩ h, fun _ => ⟨rfl, rfl⟩⟩
  · have hidle : exec (.loopSample l kind) s = .next s := by
      refine congrArg Host.Outcome.next (if_pos ?_)
      simp only [Bool.or_eq_true, Bool.not_eq_true', decide_eq_true_eq]
      rw [not_and_or, Bool.not_eq_true, Nat.not_le] at hw
      exact hw
    exact ⟨s, hidle, fun _ => rfl, fun h1 h2 => absurd ⟨h1, h2⟩ hw⟩

theorem exec_tamperInactive (s : State) (i : Fin 10) : ∃ t, exec (.tamperInactive i) s = .next t ∧ Frame [.tamper] s t ∧
    t.tamper.active.getLsbD i.1 = false ∧ (∀ k, k ≠ i.1 → t.tamper.active.getLsbD k = s.tamper.active.getLsbD k) ∧
    t.tamper.latched = s.tamper.latched ∧ t.tamper.lock = s.tamper.lock :=
  ⟨_, rfl, Frame.put_tamper (Frame.refl _ s) (by decide), getLsbD_putBit _ _ i.2, fun _ hk => getLsbD_putBit_ne _ _ hk, rfl, rfl⟩

theorem State.unwatched_of_level {s : State} {l : Fin 4} (h : s.tamperLevel (5 + l.1) = 0) : s.watched (5 + l.1) = false := by
  unfold State.watched
  simp only [h, Bool.or_eq_false_iff, Bool.not_eq_false', Bool.and_eq_true, decide_eq_true_eq, ne_eq, not_true_eq_false, decide_false, and_true]
  omega

/-! ## ZEROIZE -/

theorem Burnt.answered {s t : State} {n : Nat} (h : Burnt s n t) (src : Src) (a : Answer) : Burnt s n (t.deliver src a) :=
  h.of_frame (State.deliver_frame (Frame.refl _ t) (by decide)) ((State.deliver_dev (DevKept.refl t)).zeroised.trans h.zeroised)

/-- The ledger word that names the last commit is no part of a Burnish. -/
theorem Burnished.noted {s t : State} {n : Nat} (h : Burnished s t n) (u : State) (src : Src) : Burnished s (t.noteCommit u src) n := by
  obtain ⟨l, hl⟩ := State.noteCommit_eq t u src
  rw [hl]
  exact h

theorem exec_zeroize {s : State} {src : Src} {confirm : Word} (ha : s.allows (.zeroize src confirm)) :
    ∃ t, exec (.zeroize src confirm) s = .next t ∧
      if confirm = 0x5A45524F then Burnished s t 16 else t = s.deliver src (ans stInvalidField 8) := by
  by_cases hc : confirm = 0x5A45524F
  · refine ⟨_, exec_own ha rfl rfl, ?_⟩
    rw [if_pos hc]
    refine Burnished.noted ?_ s src
    rw [if_neg (not_not.2 hc)]
    exact ((s.burnish_burnt 16 3).answered src okAns).burnished (by decide) rfl rfl
  · refine ⟨_, exec_answers ha rfl rfl (if_pos hc) rfl, ?_⟩
    rw [if_neg hc]

/-! ## TMP_CTRL -/

theorem State.activeAt_iff {s : State} {lo : Nat} :
    s.activeAt lo = true ↔ ∃ k < 10, s.tamper.active.getLsbD k = true ∧ lo ≤ s.tamperLevel k := by
  unfold State.activeAt
  simp only [List.any_eq_true, List.mem_range, Bool.and_eq_true, decide_eq_true_eq]

theorem exec_tmpClear {s : State} {m : Mgr} (h : s.reaches m 0x007060) : ∃ t, exec (.tmpClear m) s = .next t ∧
    (s.isSecondary m = true ∨ (∃ k < 10, s.tamper.active.getLsbD k = true ∧ 2 ≤ s.tamperLevel k) → t = s.ignoredWrite m 0x007060) ∧
    (s.isSecondary m = false → ¬(∃ k < 10, s.tamper.active.getLsbD k = true ∧ 2 ≤ s.tamperLevel k) → t.tamper.lock = false ∧
      t.tamper.latched = s.tamper.latched &&& s.tamper.active ∧ t.tamper.active = s.tamper.active ∧ t.tamper.ledger = (false, t.tamper.latched)) := by
  refine ⟨_, congrArg Host.Outcome.next (State.regW_reaches h), fun hno => if_pos ?_, fun hsec hno => ?_⟩
  · rw [Bool.or_eq_true, State.activeAt_iff]
    exact hno
  · have hc : ¬(s.isSecondary m || s.activeAt 2) = true := by
      rw [Bool.or_eq_true, State.activeAt_iff, hsec]
      exact fun e => e.elim (fun e => nomatch e) hno
    have hraise : ∀ (u : State) (l : List Nat), (u.forAll l fun i s => s.raise 0x0604 devCh [i]).tamper = u.tamper := fun u l =>
      State.forAll_frame (Frame.refl [.rings] u) (fun _ s => State.raise_frame (Frame.refl _ s) (by decide)) .tamper (by decide)
    unfold State.tmpClear
    rw [if_neg hc]
    dsimp only
    rw [hraise]
    exact ⟨rfl, rfl, rfl, rfl⟩

theorem State.warmClear_dev (s : State) : s.warmClear.dev = { s.dev with ccAbsent := false, clockHeld := false, cold := false } := by
  have h : (s.sinkAll.forChans fun n s => s.warmChan n).dev = s.dev :=
    State.forChans_frame (State.sinkAll_frame (Frame.refl [.ctl, .trace, .rings] s) (by decide))
      (fun n u => State.warmChan_frame (Frame.refl _ u) (by decide)) .dev (by decide)
  unfold State.warmClear
  dsimp only
  rw [← h]

theorem State.warmReset_none (s : State) : (s.warmReset none).dev.state = .shadow ∧ (s.warmReset none).dev.warm = satInc s.dev.warm ∧
    (s.warmReset none).dev.resetCause = s.dev.resetCause ∧ ∀ n, ((s.warmReset none).ch n).sink = true := by
  have hctl : ∀ (u : State) d n, (u.setDev d).ch n = u.ch n := fun u d n =>
    congrArg (vget · n) (State.setDev_frame (Frame.refl _ u) (Field.sub_refl _) .ctl (by decide))
  have hd := s.warmClear_dev
  have hs := s.warmClear_sink
  unfold State.warmReset State.warmInto
  dsimp only
  generalize s.warmClear = u at hd hs
  rw [State.setDev_dev]
  have hwarm : u.dev.warm = s.dev.warm := by rw [hd]
  have hcause : u.dev.resetCause = s.dev.resetCause := by rw [hd]
  refine ⟨rfl, congrArg satInc hwarm, hcause, fun n => ?_⟩
  · rw [hctl]
    exact hs n

theorem exec_tmpRearm {s : State} {m : Mgr} (h : s.reaches m 0x007060) : ∃ t, exec (.tmpRearm m) s = .next t ∧
    (s.isSecondary m = true ∨ s.tamper.burnt = false ∨ (∃ k < 10, s.tamper.active.getLsbD k = true ∧ 3 ≤ s.tamperLevel k) →
      t = s.ignoredWrite m 0x007060) ∧
    (s.isSecondary m = false → s.tamper.burnt = true → ¬(∃ k < 10, s.tamper.active.getLsbD k = true ∧ 3 ≤ s.tamperLevel k) →
      t.dev.state = .shadow ∧ t.dev.warm = satInc s.dev.warm ∧ t.dev.resetCause = s.dev.resetCause ∧ ∀ n, (t.ch n).sink = true) := by
  have hc : (s.isSecondary m || !s.tamper.burnt || s.activeAt 3) = true ↔
      s.isSecondary m = true ∨ s.tamper.burnt = false ∨ ∃ k < 10, s.tamper.active.getLsbD k = true ∧ 3 ≤ s.tamperLevel k := by
    rw [Bool.or_eq_true, Bool.or_eq_true, State.activeAt_iff, Bool.not_eq_true', or_assoc]
  refine ⟨_, congrArg Host.Outcome.next (State.regW_reaches h), fun hno => if_pos (hc.2 hno), fun hsec hb hno => ?_⟩
  have he : s.tmpRearm m = s.warmReset none := if_neg fun e => by
    rcases hc.1 e with e | e | e
    · rw [hsec] at e; cases e
    · rw [hb] at e; cases e
    · exact hno e
  rw [he]
  exact s.warmReset_none

end Sys2Proof.Machine

namespace Sys2Proof

open Sys2Proof.Machine

/-- Settles O55. -/
theorem tamperSourcesActAtTheirLevels : Obligations.TamperSourcesActAtTheirLevels := by
  unfold Obligations.TamperSourcesActAtTheirLevels
  intro s sources i l kind src confirm m
  exact ⟨exec_tamperTrip s sources, State.unwatched_of_level, exec_loopSample s l kind, exec_tamperInactive s i, exec_zeroize,
    fun h => ⟨exec_tmpClear h, exec_tmpRearm h⟩⟩

end Sys2Proof
end


section
/-! SUPPORT. The map of BAR0, page headers and RWS registers (R10, R63, R240 to R245). -/

namespace Sys2Proof.Machine

open Sys2Proof

/-! ## Register images -/

/-- Fields, as (highest bit, lowest bit), that rise from bit b on without overlap. -/
def fieldsFrom : Nat → List (Nat × Nat) → Bool
  | _, [] => true
  | b, f :: fs => decide (b ≤ f.2) && decide (f.2 ≤ f.1) && fieldsFrom (f.1 + 1) fs

/-- The bits that fields cover. -/
def covered (fs : List (Nat × Nat)) (k : Nat) : Bool := fs.any fun f => decide (f.2 ≤ k) && decide (k ≤ f.1)

theorem field_testBit (n hi lo k : Nat) (h : lo ≤ hi) :
    (field n hi lo <<< lo).testBit k = (decide (lo ≤ k) && decide (k ≤ hi) && n.testBit k) := by
  unfold field
  rw [Nat.testBit_shiftLeft, Nat.testBit_mod_two_pow, Nat.testBit_shiftRight]
  by_cases hk : lo ≤ k
  · have h1 : decide (k - lo < hi + 1 - lo) = decide (k ≤ hi) := decide_eq_decide.2 (by omega)
    rw [h1, Nat.add_sub_cancel' hk]
    simp [hk]
  · simp [hk]

/-- Fields cut out of a number and packed again are the number's own bits where a field covers them. -/
theorem packFields_testBit (n : Nat) (fs : List (Nat × Nat)) (b : Nat) (h : fieldsFrom b fs = true) :
    2 ^ b ∣ pack (fs.map fun f => (f.2, field n f.1 f.2)) ∧
      ∀ k, (pack (fs.map fun f => (f.2, field n f.1 f.2))).testBit k = (covered fs k && n.testBit k) := by
  induction fs generalizing b with
  | nil => exact ⟨dvd_zero _, fun k => by simp [pack, covered]⟩
  | cons f fs ih =>
    simp only [fieldsFrom, Bool.and_eq_true, decide_eq_true_eq] at h
    obtain ⟨⟨hb, hlo⟩, hrest⟩ := h
    obtain ⟨hdvd, hbits⟩ := ih (f.1 + 1) hrest
    have hcons : pack ((f :: fs).map fun f => (f.2, field n f.1 f.2)) =
        pack (fs.map fun f => (f.2, field n f.1 f.2)) + field n f.1 f.2 <<< f.2 := rfl
    rw [hcons]
    generalize pack (fs.map fun f => (f.2, field n f.1 f.2)) = y at hdvd hbits
    refine ⟨?_, fun k => ?_⟩
    · refine dvd_add ((Nat.pow_dvd_pow 2 (by omega)).trans hdvd) ?_
      rw [Nat.shiftLeft_eq]
      exact (Nat.pow_dvd_pow 2 hb).trans (dvd_mul_left _ _)
    · obtain ⟨a, rfl⟩ := hdvd
      have hlt : field n f.1 f.2 <<< f.2 < 2 ^ (f.1 + 1) := by
        refine Nat.lt_pow_two_of_testBit _ fun i hi => ?_
        rw [field_testBit n f.1 f.2 i hlo, decide_eq_false (p := i ≤ f.1) (by omega)]
        simp
      rw [Nat.two_pow_add_eq_or_of_lt hlt, Nat.testBit_or, hbits, field_testBit n f.1 f.2 k hlo]
      simp only [covered, List.any_cons]
      cases n.testBit k <;> simp [Bool.or_comm]

/-- The fields of every RWS register rise from bit 0 and end below bit 32. -/
theorem SReg.fields_rise (g : SReg) : fieldsFrom 0 g.fields = true := by cases g <;> rfl

theorem SReg.clean_getLsbD (g : SReg) (v : Word) (k : Nat) : (g.clean v).getLsbD k = (covered g.fields k && v.getLsbD k) := by
  have h := (packFields_testBit v.toNat g.fields 0 g.fields_rise).2 k
  unfold SReg.clean
  rw [BitVec.getLsbD_ofNat, h]
  by_cases hk : k < 32
  · rw [decide_eq_true hk, Bool.true_and]
    rfl
  · rw [decide_eq_false hk, BitVec.getLsbD_of_ge v k (by omega)]
    simp

theorem SReg.clean_clean (g : SReg) (v : Word) : g.clean (g.clean v) = g.clean v := by
  refine BitVec.eq_of_getLsbD_eq fun k _ => ?_
  rw [SReg.clean_getLsbD, SReg.clean_getLsbD]
  cases covered g.fields k <;> rfl

/-- BOOT_TMO keeps 16 bits, and those are its field. -/
theorem SReg.clean_cfg (v : Word) : ((SReg.clean .cfg v).truncate 16).zeroExtend 32 = SReg.clean .cfg v := by
  refine BitVec.eq_of_getLsbD_eq fun k hk => ?_
  have hc : covered SReg.cfg.fields k = decide (k ≤ 15) := by simp [covered, SReg.fields]
  simp only [BitVec.getLsbD_setWidth, BitVec.truncate_eq_setWidth]
  rw [SReg.clean_getLsbD, hc, decide_eq_true hk, Bool.true_and]
  have hlt : decide (k < 16) = decide (k ≤ 15) := decide_eq_decide.2 (by omega)
  rw [hlt]
  cases decide (k ≤ 15) <;> rfl

theorem STable.get_put_self (t : STable) (g : SReg) (v : Word) : (t.put g (g.clean v)).get g = g.clean v := by
  cases g with
  | cfg => exact SReg.clean_cfg v
  | ruleA r => exact (vget_vset_self _ _ _).trans (SReg.clean_clean _ v)
  | ruleB r => exact (vget_vset_self _ _ _).trans (SReg.clean_clean _ v)
  | base w => exact (vget_vset_self _ _ _).trans (SReg.clean_clean _ v)
  | size w => exact (vget_vset_self _ _ _).trans (SReg.clean_clean _ v)
  | acc w => exact (vget_vset_self _ _ _).trans (SReg.clean_clean _ v)
  | map w => exact (vget_vset_self _ _ _).trans (SReg.clean_clean _ v)
  | pbkt w => exact (vget_vset_self _ _ _).trans (SReg.clean_clean _ v)
  | ebkt w => exact (vget_vset_self _ _ _).trans (SReg.clean_clean _ v)

theorem STable.get_put_ne (t : STable) {g h : SReg} (v : Word) (hne : h ≠ g) : (t.put g v).get h = t.get h := by
  cases g with
  | cfg => cases h with
    | cfg => exact absurd rfl hne
    | _ => rfl
  | ruleA r => cases h with
    | ruleA q => exact vget_vset_ne _ _ fun e => hne (by rw [e])
    | _ => rfl
  | ruleB r => cases h with
    | ruleB q => exact vget_vset_ne _ _ fun e => hne (by rw [e])
    | _ => rfl
  | base r => cases h with
    | base q => exact vget_vset_ne _ _ fun e => hne (by rw [e])
    | _ => rfl
  | size r => cases h with
    | size q => exact vget_vset_ne _ _ fun e => hne (by rw [e])
    | _ => rfl
  | acc r => cases h with
    | acc q => exact vget_vset_ne _ _ fun e => hne (by rw [e])
    | _ => rfl
  | map r => cases h with
    | map q => exact vget_vset_ne _ _ fun e => hne (by rw [e])
    | _ => rfl
  | pbkt r => cases h with
    | pbkt q => exact vget_vset_ne _ _ fun e => hne (by rw [e])
    | _ => rfl
  | ebkt r => cases h with
    | ebkt q => exact vget_vset_ne _ _ fun e => hne (by rw [e])
    | _ => rfl

/-- An index that a number gives. -/
theorem fin?_map_eq {α : Type} {k i : Nat} {f : Fin k → α} {x : α} (h : (fin? k i).map f = some x) : ∃ hi : i < k, f ⟨i, hi⟩ = x := by
  unfold fin? at h
  split at h
  · next hi => exact ⟨hi, Option.some.inj h⟩
  · cases h

/-- Where an RWS register lies. -/
theorem sregOf_off {o : Nat} {g : SReg} (h : sregOf o = some g) : g.off = o ∧ o % 4 = 0 ∧ 0x040 ≤ o ∧ o < 0x700 := by
  unfold sregOf at h
  split at h
  · next h1 =>
    cases h
    subst h1
    decide
  · next h4 =>
    split at h
    · cases h
    · next hm =>
      split at h
      · next hr =>
        obtain ⟨hi, hg⟩ := fin?_map_eq h
        subst hg
        split <;> (simp only [SReg.off]; omega)
      · split at h
        · next hr =>
          obtain ⟨hi, hg⟩ := fin?_map_eq h
          subst hg
          split
          · simp only [SReg.off]; omega
          · simp only [SReg.off]; omega
          · simp only [SReg.off]; omega
          · next h0 h1 h2 =>
            have h0 : (o - 0x400) % 16 / 4 ≠ 0 := h0
            have h1 : (o - 0x400) % 16 / 4 ≠ 1 := h1
            have h2 : (o - 0x400) % 16 / 4 ≠ 2 := h2
            simp only [SReg.off]
            omega
        · split at h
          · next hr =>
            obtain ⟨hi, hg⟩ := fin?_map_eq h
            subst hg
            split <;> (simp only [SReg.off]; omega)
          · cases h

/-! ## The map -/

/-- Below the doorbells an area is a whole page. -/
theorem areaAt_page {a b : Nat} (h : a / 4096 = b / 4096) (hb : b < 0x410000) : areaAt a = areaAt b := by
  have e1 : a < 0x01A000 ↔ b < 0x01A000 := by omega
  have e2 : (0x100000 ≤ a ∧ a < 0x300000) ↔ (0x100000 ≤ b ∧ b < 0x300000) := by omega
  have e3 : (0x300000 ≤ a ∧ a < 0x340000) ↔ (0x300000 ≤ b ∧ b < 0x340000) := by omega
  have e4 : (0x340000 ≤ a ∧ a < 0x350000) ↔ (0x340000 ≤ b ∧ b < 0x350000) := by omega
  have e5 : (0x400000 ≤ a ∧ a < 0x401000) ↔ (0x400000 ≤ b ∧ b < 0x401000) := by omega
  have e6 : (0x410000 ≤ a ∧ a < 0x412040) ↔ (0x410000 ≤ b ∧ b < 0x412040) := by omega
  have e7 : (a - 0x100000) / 0x4000 = (b - 0x100000) / 0x4000 := by omega
  have hsub : ∀ c, (a - 4096 * c) / 4096 = (b - 4096 * c) / 4096 := fun c => by rw [Nat.sub_mul_div, Nat.sub_mul_div, h]
  have e8 : (a - 0x300000) / 4096 = (b - 0x300000) / 4096 := hsub 0x300
  have e9 : (a - 0x340000) / 4096 = (b - 0x340000) / 4096 := hsub 0x340
  unfold areaAt
  simp only [e1, e2, e3, e4, e5, e6, e7, e8, e9, h]

theorem areaAt_global {off : Nat} (h : off < 0x01A000) : areaAt off = .global (off / 4096) := if_pos h

/-- A page of a channel's block. -/
theorem areaAt_chan (n : Fin 128) (j : Fin 4) (o : Nat) (ho : o < 4096) : areaAt (chanPage n j.1 + o) = .chan n j := by
  have hn := n.2
  have hj := j.2
  have e1 : ¬(chanPage n j.1 + o < 0x01A000) := by unfold chanPage; omega
  have e2 : 0x100000 ≤ chanPage n j.1 + o ∧ chanPage n j.1 + o < 0x300000 := by unfold chanPage; omega
  have e3 : fin? 128 ((chanPage n j.1 + o - 0x100000) / 0x4000) = some n := by
    have h : (chanPage n j.1 + o - 0x100000) / 0x4000 = n.1 := by unfold chanPage; omega
    rw [h, fin?, dif_pos hn]
  have e4 : fin? 4 ((chanPage n j.1 + o) / 4096 % 4) = some j := by
    have h : (chanPage n j.1 + o) / 4096 % 4 = j.1 := by unfold chanPage; omega
    rw [h, fin?, dif_pos hj]
  unfold areaAt
  rw [if_neg e1, if_pos e2, e3, e4]

theorem chanPage_mod (n : Fin 128) (j o : Nat) (ho : o < 4096) : (chanPage n j + o) % 4096 = o := by unfold chanPage; omega

/-- The high word of a 64-bit register lies in the page of its low word. -/
theorem lowWord_page {off : Nat} (h : isLowWord off = true) : areaAt (off + 4) = areaAt off := by
  have hlow : ∀ a : Area, ∀ o ∈ lowWords a, o < 4092 := by
    intro a
    unfold lowWords
    split
    · next j => fin_cases j <;> decide
    · split <;> decide
    all_goals exact fun _ h => absurd h List.not_mem_nil
  have hlt : off < 0x410000 := by
    by_contra hge
    have ha : lowWords (areaAt off) = [] := by
      unfold areaAt
      rw [if_neg (by omega), if_neg (by omega), if_neg (by omega), if_neg (by omega), if_neg (by omega)]
      split <;> rfl
    unfold isLowWord at h
    rw [ha] at h
    cases h
  have hmem : off % 4096 ∈ lowWords (areaAt off) := by simpa [isLowWord] using h
  have := hlow _ _ hmem
  exact areaAt_page (by omega) hlt

/-! ## Page headers -/

/-- From s to t header p of manager m changes by f, and no other header does. -/
def HdrSet (s t : State) (m : Mgr) (f : Hdr → Hdr) (p : Fin 1024) : Prop :=
  Frame [.hdrs, .views] s t ∧ (vget t.hdrs p).get m = f ((vget s.hdrs p).get m) ∧
    (vget t.hdrs p).get m.other = (vget s.hdrs p).get m.other ∧ ∀ q, q ≠ p → vget t.hdrs q = vget s.hdrs q

theorem State.modHdr_hdrs (s : State) (m : Mgr) (p : Fin 1024) (f : Hdr → Hdr) :
    (s.modHdr m p f).hdrs = vmod s.hdrs p fun x => x.set m (f ((vget s.hdrs p).get m)) := by
  unfold State.modHdr
  dsimp only
  split
  · exact State.msix_frame' _ _ _ .hdrs (by decide)
  · rfl

theorem State.modHdr_set (s : State) (m : Mgr) (p : Fin 1024) (f : Hdr → Hdr) : HdrSet s (s.modHdr m p f) m f p := by
  have hh := s.modHdr_hdrs m p f
  refine ⟨State.modHdr_frame (Frame.refl _ s) (by decide), State.modHdr_hdr s m p f, ?_, fun q hq => ?_⟩
  · rw [hh, vget_vmod_self, PerMgr.get_set_ne _ _ (Mgr.other_ne m)]
  · rw [hh, vget_vmod_ne _ _ hq]

/-- A message leaves the counts and the value that a view shows. -/
theorem State.msix_shown (s : State) (m : Mgr) (vec : Nat) :
    ((s.msix m vec).view m).sizeErr = (s.view m).sizeErr ∧ ((s.msix m vec).view m).readValue = (s.view m).readValue := by
  rw [State.msix_view]
  split
  · exact ⟨rfl, rfl⟩
  · split <;> exact ⟨rfl, rfl⟩

theorem State.modHdr_shown (s : State) (m : Mgr) (p : Fin 1024) (f : Hdr → Hdr) :
    ((s.modHdr m p f).view m).sizeErr = (s.view m).sizeErr ∧ ((s.modHdr m p f).view m).readValue = (s.view m).readValue := by
  unfold State.modHdr
  dsimp only
  split
  · exact State.msix_shown _ m _
  · exact ⟨rfl, rfl⟩

theorem State.onHdr_some {s : State} {m : Mgr} {page : Nat} {p : Fin 1024} (h : fin? 1024 page = some p) (f : Hdr → Hdr) :
    s.onHdr m page f = s.modHdr m p f := by
  unfold State.onHdr
  rw [h]

/-- The header of an ignored write. -/
def Hdr.ignoring (o : Nat) (h : Hdr) : Hdr := { h with ignored := true, errOffset := BitVec.ofNat 12 o }

theorem State.ignoredWrite_set {s : State} {m : Mgr} {off o : Nat} {p : Fin 1024} (hp : fin? 1024 (off / 4096) = some p) (ho : off % 4096 = o) :
    HdrSet s (s.ignoredWrite m off) m (Hdr.ignoring o) p := by
  have h : s.ignoredWrite m off = s.modHdr m p (Hdr.ignoring o) := by
    unfold State.ignoredWrite
    rw [hp, ho]
    rfl
  rw [h]
  exact s.modHdr_set m p _

/-- What happened to the views before a header changes does not count for the headers. -/
theorem HdrSet.of_view {s u t : State} {m : Mgr} {f : Hdr → Hdr} {p : Fin 1024} (h : HdrSet u t m f p) (hu : Frame [.views] s u) :
    HdrSet s t m f p := by
  obtain ⟨hf, h1, h2, h3⟩ := h
  have hh : u.hdrs = s.hdrs := hu .hdrs (by decide)
  rw [hh] at h1 h2 h3
  exact ⟨Frame.comp (Frame.comp (Frame.refl _ s) hu (by decide)) hf (by decide), h1, h2, h3⟩

end Sys2Proof.Machine
end


section
/-! SUPPORT. Register pages and O56 (R11, R63, R209, R241, R242, R245, R249). -/

namespace Sys2Proof.Machine

open Sys2Proof

/-! ## A closed BAR0 -/

theorem State.regW_closed {s : State} {m : Mgr} (h : s.barOpen m = false) (off : Nat) (body : State → State) : s.regW m off body = s := by
  unfold State.regW
  rw [h]
  rfl

/-- The commands that act on a register page. -/
theorem exec_page_closed {s : State} {m : Mgr} (h : s.barOpen m = false) (off page : Nat) (v : Word) (n : Fin 128) :
    ∀ c ∈ [Instr.registerWrite m off v, .bar0BadAccess m off, .bar0UnmappedAccess m off, .lowWordRead m off,
      .lockWrite m page v, .irqClr m page v, .errInfoClear m page v, .mbxErrclr m n v, .stnCntclr m n v, .evtLostclr m v, .rngErrclr m v,
      .pwrSeenClear m v], exec c s = .next s := by
  have hclosed : ∀ t : State, (if s.barOpen m then t else s) = s := fun t => if_neg (by rw [h]; exact Bool.false_ne_true)
  have hw := State.regW_closed h
  refine List.forall_mem_cons.2 ⟨congrArg Host.Outcome.next (hclosed _), ?_⟩
  refine List.forall_mem_cons.2 ⟨congrArg Host.Outcome.next (hclosed _), ?_⟩
  refine List.forall_mem_cons.2 ⟨congrArg Host.Outcome.next (if_neg (by rw [h]; exact Bool.false_ne_true)), ?_⟩
  refine List.forall_mem_cons.2 ⟨congrArg Host.Outcome.next (hclosed _), ?_⟩
  refine List.forall_mem_cons.2 ⟨congrArg Host.Outcome.next (hw _ _), ?_⟩
  refine List.forall_mem_cons.2 ⟨congrArg Host.Outcome.next (hw _ _), ?_⟩
  refine List.forall_mem_cons.2 ⟨congrArg Host.Outcome.next (hw _ _), ?_⟩
  refine List.forall_mem_cons.2 ⟨congrArg Host.Outcome.next (hw _ _), ?_⟩
  refine List.forall_mem_cons.2 ⟨congrArg Host.Outcome.next (hw _ _), ?_⟩
  refine List.forall_mem_cons.2 ⟨congrArg Host.Outcome.next (hw _ _), ?_⟩
  refine List.forall_mem_cons.2 ⟨congrArg Host.Outcome.next (hw _ _), ?_⟩
  exact List.forall_mem_cons.2 ⟨congrArg Host.Outcome.next (hw _ _), fun _ h => absurd h List.not_mem_nil⟩

section

variable {s : State} {m : Mgr} (ho : s.barOpen m = true)

include ho

/-! ## Bad and unmapped accesses -/

theorem exec_badAccess (off : Nat) : exec (.bar0BadAccess m off) s = .next (s.badAccess m off) :=
  congrArg Host.Outcome.next (if_pos ho)

/-- An access of the wrong size or alignment that a page answers. -/
theorem badAccess_mapped {off : Nat} (hm : s.mapped off = true) {p : Fin 1024} (hp : fin? 1024 (off / 4096) = some p) :
    HdrSet s (s.badAccess m off) m (fun h => { h with size := true, errOffset := BitVec.ofNat 12 (off % 4096) }) p ∧
      ((s.badAccess m off).view m).sizeErr = satInc (s.view m).sizeErr ∧ ((s.badAccess m off).view m).readValue = 0 := by
  have he : s.badAccess m off = (s.modView m fun x => { x with sizeErr := satInc x.sizeErr, readValue := 0 }).modHdr m p
      fun h => { h with size := true, errOffset := BitVec.ofNat 12 (off % 4096) } :=
    (if_pos hm).trans (State.onHdr_some hp _)
  have hv : (s.modView m fun x => { x with sizeErr := satInc x.sizeErr, readValue := 0 }).view m =
      { s.view m with sizeErr := satInc (s.view m).sizeErr, readValue := 0 } := by rw [State.view_modView, if_pos rfl]
  obtain ⟨h1, h2⟩ := State.modHdr_shown (s.modView m fun x => { x with sizeErr := satInc x.sizeErr, readValue := 0 }) m p
    fun h => { h with size := true, errOffset := BitVec.ofNat 12 (off % 4096) }
  rw [he]
  refine ⟨(State.modHdr_set _ m p _).of_view (State.modView_frame (Frame.refl _ s) (by decide)), h1.trans ?_, h2.trans ?_⟩
  · rw [hv]
  · rw [hv]

theorem exec_unmappedAccess {off : Nat} (hm : s.mapped off = false) : exec (.bar0UnmappedAccess m off) s = .next (s.modView m fun x =>
    { x with unmapped := satInc x.unmapped, readValue := 0 }) := by
  refine congrArg Host.Outcome.next ((if_pos (by rw [ho, hm]; rfl)).trans ?_)
  unfold State.countUnmapped State.modView
  cases m <;> rfl

/-! ## Reads -/

theorem exec_read_aligned {off : Nat} (hm : s.mapped off = true) (h4 : off % 4 = 0) : exec (.lowWordRead m off) s = .next (s.barRead m off) :=
  congrArg Host.Outcome.next (if_pos ho)

end

/-- A read of a low word latches its high word (R242). -/
def State.latched (s : State) (m : Mgr) (off : Nat) : State :=
  if isLowWord off then
    s.modView m fun x => { x with latch := SMap.put x.latch (off + 4) (BitVec.ofNat 32 (s.liveReg m (off + 4))) }
  else s

theorem State.barRead_mapped {s : State} {m : Mgr} {off : Nat} (hm : s.mapped off = true) (h4 : off % 4 = 0) :
    s.barRead m off = (s.latched m off).modView m fun x => { x with readValue := (s.latched m off).regRead m off } := by
  unfold State.barRead State.latched
  rw [if_neg (not_not.2 h4), if_pos hm]

theorem State.mapped_congr {s : State} {a b : Nat} (h : areaAt a = areaAt b) : s.mapped a = s.mapped b :=
  congrArg (fun x => s.present x && s.responds x) h

theorem State.mapped_modView (s : State) (m : Mgr) (f : View → View) (off : Nat) : (s.modView m f).mapped off = s.mapped off := rfl

theorem State.regRead_latched {t : State} {m : Mgr} {off : Nat} {w : Word} (hm : t.mapped (off + 4) = true) (hl : isLowWord off = true)
    (hw : SMap.get? (t.view m).latch (off + 4) = some w) : t.regRead m (off + 4) = w := by
  unfold State.regRead
  rw [hm, hw, Nat.add_sub_cancel, hl, decide_eq_true (show 4 ≤ off + 4 by omega)]
  rfl

theorem exec_lowWordRead {s : State} {m : Mgr} {off : Nat} (h : s.reaches m off) (h4 : off % 4 = 0) :
    ∃ t, exec (.lowWordRead m off) s = .next t ∧ Frame [.views] s t ∧ t.view m.other = s.view m.other ∧
      (if isLowWord off then t.regRead m (off + 4) = BitVec.ofNat 32 (s.liveReg m (off + 4)) else (t.view m).readValue = s.regRead m off) := by
  obtain ⟨ho, hm⟩ := h
  refine ⟨_, exec_read_aligned ho hm h4, ?_⟩
  rw [State.barRead_mapped hm h4]
  have hf : Frame [.views] s (s.latched m off) := by
    unfold State.latched
    split
    · exact State.modView_frame (Frame.refl _ s) (by decide)
    · exact Frame.refl _ s
  have hother : (s.latched m off).view m.other = s.view m.other := by
    unfold State.latched
    split
    · rw [State.view_modView, if_neg (Mgr.other_ne m)]
    · rfl
  refine ⟨State.modView_frame hf (by decide), ?_, ?_⟩
  · rw [State.view_modView, if_neg (Mgr.other_ne m), hother]
  · split
    · next hl =>
      refine State.regRead_latched ?_ hl ?_
      · rw [State.mapped_modView, State.latched, if_pos hl, State.mapped_modView, State.mapped_congr (lowWord_page hl)]
        exact hm
      · rw [State.view_modView, if_pos rfl, State.latched, if_pos hl]
        simp only [State.view_modView, if_true]
        exact SMap.get?_put_self _ _ _
    · next hl =>
      rw [State.view_modView, if_pos rfl, State.latched, if_neg hl]

/-! ## Headers -/

section

variable {s : State} {m : Mgr} {page : Nat} {p : Fin 1024} (hp : fin? 1024 page = some p)

include hp

theorem exec_lockWrite (v : Word) (h : s.reaches m (pageBase page + 0x028)) :
    ∃ t, exec (.lockWrite m page v) s = .next t ∧ HdrSet s t m (Hdr.ignoring 0x028) p := by
  refine ⟨_, congrArg Host.Outcome.next (State.regW_reaches h), State.ignoredWrite_set ?_ ?_⟩
  · rw [show (pageBase page + 0x028) / 4096 = page by unfold pageBase; omega]
    exact hp
  · unfold pageBase
    omega

theorem exec_irqClr {v : Word} (h : s.reaches m (pageBase page + 0x01C)) : ∃ t, exec (.irqClr m page v) s = .next t ∧ HdrSet s t m (fun h =>
    { h with ignored := h.ignored && !v.getLsbD 0, size := h.size && !v.getLsbD 0, shdDone := h.shdDone && !v.getLsbD 1 }) p :=
  ⟨_, congrArg Host.Outcome.next ((State.regW_reaches h).trans (State.onHdr_some hp _)), State.modHdr_set s m p _⟩

theorem exec_errInfoClear {v : Word} (h : s.reaches m (pageBase page + 0x02C)) : ∃ t, exec (.errInfoClear m page v) s = .next t ∧
    HdrSet s t m (fun h => { h with ignored := h.ignored && !v.getLsbD 0, size := h.size && !v.getLsbD 1 }) p :=
  ⟨_, congrArg Host.Outcome.next ((State.regW_reaches h).trans (State.onHdr_some hp _)), State.modHdr_set s m p _⟩

end

theorem exec_pwrSeenClear {s : State} {m : Mgr} {v : Word} (h : s.reaches m 0x001048) : ∃ t, exec (.pwrSeenClear m v) s = .next t ∧
    Frame [.power] s t ∧ t.power = { s.power with seen := t.power.seen } ∧
    ∀ i, i < 21 → t.power.seen.getLsbD i = (s.power.seen.getLsbD i && !v.getLsbD i) := by
  refine ⟨_, congrArg Host.Outcome.next (State.regW_reaches h), Frame.put_power (Frame.refl _ s) (by decide), rfl, fun i hi => ?_⟩
  show (s.power.seen &&& ~~~(BitVec.ofNat 21 v.toNat)).getLsbD i = _
  rw [BitVec.getLsbD_and, BitVec.getLsbD_not, BitVec.getLsbD_ofNat, decide_eq_true hi, Bool.true_and, Bool.true_and]
  rfl

/-! ## Writes by offset -/

theorem State.writeAt_ctl (s : State) (m : Mgr) (n : Fin 128) {o : Nat} (v : Word) (hlo : 0x040 ≤ o) (hhi : o < 4096) :
    s.writeAt m (chanPage n 0 + o) v = s.ctlWrite m n (chanPage n 0 + o) o v := by
  have ha : areaAt (chanPage n 0 + o) = .chan n 0 := areaAt_chan n 0 o hhi
  unfold State.writeAt
  rw [ha, chanPage_mod n 0 o hhi]
  exact if_neg (by omega)

theorem State.writeAt_stn (s : State) (m : Mgr) (n : Fin 128) {o : Nat} (v : Word) (hlo : 0x040 ≤ o) (hhi : o < 4096) :
    s.writeAt m (chanPage n 1 + o) v = s.stnWrite m n (chanPage n 1 + o) o v := by
  have ha : areaAt (chanPage n 1 + o) = .chan n 1 := areaAt_chan n 1 o hhi
  unfold State.writeAt
  rw [ha, chanPage_mod n 1 o hhi]
  exact if_neg (by omega)

section

variable {s : State} {m : Mgr} (ho : s.barOpen m = true)

include ho

theorem exec_write_misaligned {off : Nat} (v : Word) (h : off % 4 ≠ 0) : exec (.registerWrite m off v) s = exec (.bar0BadAccess m off) s :=
  (congrArg Host.Outcome.next ((if_pos ho).trans (if_pos h))).trans (exec_badAccess ho off).symm

theorem exec_write_unmapped {off : Nat} (v : Word) (h4 : off % 4 = 0) (h : s.mapped off = false) :
    exec (.registerWrite m off v) s = .next (s.modView m fun x => { x with unmapped := satInc x.unmapped }) :=
  congrArg Host.Outcome.next ((if_pos ho).trans ((if_neg (not_not.2 h4)).trans (if_neg (by rw [h]; exact Bool.false_ne_true))))

theorem exec_write_mapped {off : Nat} (v : Word) (h4 : off % 4 = 0) (h : s.mapped off = true) :
    exec (.registerWrite m off v) s = .next (s.writeAt m off v) :=
  congrArg Host.Outcome.next ((if_pos ho).trans ((if_neg (not_not.2 h4)).trans (if_pos h)))

/-- A register of a global page, beyond the header. -/
theorem exec_write_global {k o : Nat} (v : Word) (hk : k < 0x1A) (hlo : 0x040 ≤ o) (ho' : o < 4096) (h4 : o % 4 = 0)
    (h : s.mapped (4096 * k + o) = true) : exec (.registerWrite m (4096 * k + o) v) s = .next (s.globalWrite m k (4096 * k + o) o v) := by
  have ha : areaAt (4096 * k + o) = .global k := by
    rw [areaAt_global (by omega)]
    exact congrArg Area.global (by omega)
  have hmod : (4096 * k + o) % 4096 = o := by omega
  rw [exec_write_mapped ho v (by omega) h]
  unfold State.writeAt
  rw [ha, hmod]
  exact congrArg Host.Outcome.next (if_neg (by omega))

theorem exec_write_rngCtrl (v : Word) (h : s.mapped 0x009040 = true) : exec (.registerWrite m 0x009040 v) s =
    (if v.getLsbD 0 then exec (.ringEnable m) s else exec (.ringDisable m) s) := by
  have hw := exec_write_global (k := 9) (o := 0x040) ho v (by decide) (by decide) (by decide) (by decide) h
  have he : exec (.ringEnable m) s = .next (s.modRing m Ring.enable) := congrArg Host.Outcome.next (State.regW_reaches ⟨ho, h⟩)
  have hd : exec (.ringDisable m) s = .next (if (s.ring m).en then s.disableHalf m else s) :=
    congrArg Host.Outcome.next (State.regW_reaches ⟨ho, h⟩)
  rw [he, hd]
  refine hw.trans ?_
  show Host.Outcome.next (if v.getLsbD 0 then s.modRing m Ring.enable else if (s.ring m).en then s.disableHalf m else s) = _
  split <;> rfl

theorem exec_write_mwdToken (v : Word) (h : s.mapped 0x00C060 = true) : exec (.registerWrite m 0x00C060 v) s = exec (.mwdToken m v) s :=
  exec_write_global (k := 0xC) (o := 0x060) ho v (by decide) (by decide) (by decide) (by decide) h

theorem exec_write_tmpClear {v : Word} (h : s.mapped 0x007060 = true) (h0 : v.getLsbD 0 = true) (h1 : v.getLsbD 1 = false) :
    exec (.registerWrite m 0x007060 v) s = exec (.tmpClear m) s := by
  have hw := exec_write_global (k := 7) (o := 0x060) ho v (by decide) (by decide) (by decide) (by decide) h
  have hc : exec (.tmpClear m) s = .next (s.tmpClear m) := congrArg Host.Outcome.next (State.regW_reaches ⟨ho, h⟩)
  rw [hc]
  refine hw.trans ?_
  show Host.Outcome.next (if v.getLsbD 1 then (if v.getLsbD 0 then s.tmpClear m else s).tmpRearm m else if v.getLsbD 0 then s.tmpClear m else s) = _
  rw [h0, h1]
  rfl

theorem exec_write_orderHold {n : Fin 128} {v : Word} (h : s.mapped (chanPage n 0 + 0x060) = true) (hv : field v.toNat 2 0 = 1) :
    exec (.registerWrite m (chanPage n 0 + 0x060) v) s = exec (.ctlOrderHold m n none) s := by
  rw [exec_write_mapped ho v (by unfold chanPage; omega) h, State.writeAt_ctl s m n v (by decide) (by decide)]
  unfold State.ctlWrite
  rw [if_neg (by decide), hv]
  rfl

/-- The admin queue registers ignore writes while the half is enabled (R209). -/
theorem exec_write_adminLocked (v : Word) (h : s.mapped 0x009000 = true) (hen : (s.ring m).en = true) :
    ∀ o ∈ [0x048, 0x04C, 0x050, 0x054, 0x058], ∀ p, fin? 1024 9 = some p →
      ∃ t, exec (.registerWrite m (0x009000 + o) v) s = .next t ∧ HdrSet s t m (Hdr.ignoring o) p := by
  intro o hmem p hp
  have hrange : 0x040 ≤ o ∧ o < 4096 ∧ o % 4 = 0 := by
    simp only [List.mem_cons, List.not_mem_nil, or_false] at hmem
    omega
  obtain ⟨h1, h2, h3⟩ := hrange
  have hm : s.mapped (4096 * 9 + o) = true := (State.mapped_congr (areaAt_page (by omega) (by decide))).trans h
  have hw := exec_write_global (k := 9) ho v (by decide) h1 h2 h3 hm
  have hig : s.globalWrite m 9 (4096 * 9 + o) o v = s.ignoredWrite m (4096 * 9 + o) := by
    show s.rngWrite m (4096 * 9 + o) o v = _
    simp only [List.mem_cons, List.not_mem_nil, or_false] at hmem
    rcases hmem with rfl | rfl | rfl | rfl | rfl <;> exact if_pos hen
  refine ⟨_, hw.trans (congrArg Host.Outcome.next hig), State.ignoredWrite_set ?_ (by omega)⟩
  rw [show (4096 * 9 + o) / 4096 = 9 by omega]
  exact hp

/-- Page 0 has one register beyond the header that a manager writes. -/
theorem exec_write_glb (v : Word) (h : s.mapped 0x000000 = true) : ∀ o, 0x040 ≤ o → o < 4096 → o % 4 = 0 → o ≠ 0x064 →
    ∀ p, fin? 1024 0 = some p → ∃ t, exec (.registerWrite m o v) s = .next t ∧ HdrSet s t m (Hdr.ignoring o) p := by
  intro o h1 h2 h3 hne p hp
  have hm : s.mapped (4096 * 0 + o) = true := (State.mapped_congr (areaAt_page (by omega) (by decide))).trans h
  have hw := exec_write_global (k := 0) ho v (by decide) h1 h2 h3 hm
  rw [show 4096 * 0 + o = o by omega] at hw
  have hig : s.globalWrite m 0 o o v = s.ignoredWrite m o := by
    unfold State.globalWrite
    split
    any_goals omega
    rfl
  refine ⟨_, hw.trans (congrArg Host.Outcome.next hig), State.ignoredWrite_set ?_ (Nat.mod_eq_of_lt h2)⟩
  rw [show o / 4096 = 0 by omega]
  exact hp

/-- An RWS register takes a write in the writer's shadow (R63). -/
theorem exec_write_shadow {n : Fin 128} {o : Nat} {g : SReg} (v : Word) (hg : sregOf o = some g) (h : s.mapped (chanPage n 1 + o) = true) :
    ∃ t, exec (.registerWrite m (chanPage n 1 + o) v) s = .next t ∧
      Frame [.stn] s t ∧ (∀ k, k ≠ n → t.st k = s.st k) ∧ (t.st n).tbl = (s.st n).tbl ∧
      (t.st n).shadow.get m.other = (s.st n).shadow.get m.other ∧ ((t.st n).shadow.get m).tbl.get g = g.clean v ∧
      (∀ h, h ≠ g → ((t.st n).shadow.get m).tbl.get h = ((s.st n).shadow.get m).tbl.get h) ∧ o ∈ ((t.st n).shadow.get m).marks := by
  obtain ⟨hoff, h4, hlo, hhi⟩ := sregOf_off hg
  have hw := exec_write_mapped ho v (by unfold chanPage; omega) h
  rw [State.writeAt_stn s m n v hlo (by omega)] at hw
  have hs : s.stnWrite m n (chanPage n 1 + o) o v = s.shadowWrite m n g v := by
    unfold State.stnWrite
    rw [hg]
  refine ⟨_, hw.trans (congrArg Host.Outcome.next hs), State.shadowWrite_frame (Frame.refl _ s) (by decide), fun k hk => State.modStn_st_ne _ _ _ hk, ?_⟩
  unfold State.shadowWrite
  rw [State.modStn_st]
  dsimp only
  refine ⟨rfl, PerMgr.get_set_ne _ _ (Mgr.other_ne m), ?_, fun h hne => ?_, ?_⟩
  · rw [PerMgr.get_set_self]
    exact STable.get_put_self _ g v
  · rw [PerMgr.get_set_self]
    exact STable.get_put_ne _ _ hne
  · rw [PerMgr.get_set_self]
    show o ∈ (if ((s.st n).shadow.get m).marks.contains g.off then ((s.st n).shadow.get m).marks else ((s.st n).shadow.get m).marks ++ [g.off])
    rw [hoff]
    split
    · next hc => simpa using hc
    · exact List.mem_append_right _ (List.mem_singleton.2 rfl)

end

end Sys2Proof.Machine

namespace Sys2Proof

open Sys2Proof.Machine

/-- Settles O56. -/
theorem pageWritesActOrAreRefused : Obligations.PageWritesActOrAreRefused := by
  unfold Obligations.PageWritesActOrAreRefused
  intro s m off page v n
  refine ⟨fun h => exec_page_closed h off page v n, fun ho hm p hp => ⟨_, exec_badAccess ho off, badAccess_mapped ho hm hp⟩,
    fun ho hm => exec_unmappedAccess ho hm, exec_lowWordRead, fun p hp => ⟨exec_lockWrite hp v, exec_irqClr hp, exec_errInfoClear hp⟩,
    fun h => congrArg Host.Outcome.next (State.regW_reaches h), fun h => congrArg Host.Outcome.next (State.regW_reaches h),
    fun h => congrArg Host.Outcome.next (State.regW_reaches h), fun h => congrArg Host.Outcome.next (State.regW_reaches h), exec_pwrSeenClear,
    fun ho => ⟨exec_write_misaligned ho v, exec_write_unmapped ho v, exec_write_rngCtrl ho v, exec_write_mwdToken ho v, exec_write_tmpClear ho,
      exec_write_orderHold ho, exec_write_adminLocked ho v, fun o g => exec_write_shadow ho v, exec_write_glb ho v⟩⟩

end Sys2Proof
end


section
/-! SUPPORT. Supplies, resets, STANDBY and O57 (R299 to R302, R304, R305, R310, R311). -/

namespace Sys2Proof.Machine

open Sys2Proof

/-! ## Supplies -/

/-- A supply's warning is recorded, before the inhibit is entered. -/
def State.warned (s : State) (rail : Option (Fin 21)) : State :=
  match rail with
  | some r => { s with power := { s.power with warn := putBit s.power.warn r.1 true, seen := putBit s.power.seen r.1 true } }
  | none => { s with power := { s.power with pwrWarn := true } }

theorem State.warned_frame (s : State) (rail : Option (Fin 21)) : Frame [.power] s (s.warned rail) := by
  unfold State.warned
  split <;> exact Frame.put_power (Frame.refl _ s) (by decide)

theorem State.warned_rest (s : State) (rail : Option (Fin 21)) :
    (s.warned rail).power.inhibit = s.power.inhibit ∧ (s.warned rail).power.warns = s.power.warns := by
  unfold State.warned
  split <;> exact ⟨rfl, rfl⟩

theorem State.warned_bits (s : State) (rail : Option (Fin 21)) : (rail = none → (s.warned rail).power.pwrWarn = true) ∧
    ∀ r, rail = some r → (s.warned rail).power.warn.getLsbD r.1 = true ∧ (s.warned rail).power.seen.getLsbD r.1 = true := by
  refine ⟨fun h => ?_, fun r h => ?_⟩
  · subst h
    rfl
  · subst h
    exact ⟨getLsbD_putBit _ _ r.2, getLsbD_putBit _ _ r.2⟩

/-- The inhibit at a warning. -/
theorem State.enterInhibit_power (s : State) (rail : Option (Fin 21)) : (s.enterInhibit rail).power =
    if s.power.inhibit then (s.warned rail).power
    else { (s.warned rail).power with inhibit := true, warns := satInc s.power.warns } := by
  obtain ⟨hi, hw⟩ := s.warned_rest rail
  have he : s.enterInhibit rail = if (s.warned rail).power.inhibit then s.warned rail
      else ({ s.warned rail with power := { (s.warned rail).power with inhibit := true, warns := satInc (s.warned rail).power.warns } }).raise
        0x0501 devCh [match rail with | some r => r.1 | none => Config.eventWord 112] := by
    cases rail <;> rfl
  rw [he, hi, hw]
  split
  · rfl
  · exact State.raise_frame (Frame.refl [.rings] _) (by decide) .power (by decide)

theorem exec_supplyWarn {s : State} (rail : Fin 21) (h : s.dev.state ≠ .por) : ∀ r ∈ [none, some rail], ∃ t, exec (.supplyWarn r) s = .next t ∧
    Frame [.power, .rings] s t ∧ t.power.inhibit = true ∧ (r = none → t.power.pwrWarn = true) ∧
    (r = some rail → t.power.warn.getLsbD rail.1 = true ∧ t.power.seen.getLsbD rail.1 = true) ∧
    t.power.warns = (if s.power.inhibit then s.power.warns else satInc s.power.warns) := by
  intro r _
  have hp := s.enterInhibit_power r
  obtain ⟨hi, hw⟩ := s.warned_rest r
  obtain ⟨h1, h2⟩ := s.warned_bits r
  refine ⟨_, congrArg Host.Outcome.next (if_neg h), State.enterInhibit_frame (Frame.refl _ s) (by decide), ?_⟩
  rw [hp]
  split
  · next hinh => exact ⟨hi.trans hinh, h1, h2 rail, hw⟩
  · exact ⟨rfl, h1, h2 rail, rfl⟩

theorem exec_supplyOk {s : State} (h : s.power.inhibit = true) : ∃ t, exec .supplyOk s = .next t ∧
    t.power = { s.power with inhibit := false, pwrWarn := false, warn := 0 } := by
  refine ⟨_, congrArg Host.Outcome.next (if_neg (by rw [h]; exact Bool.false_ne_true)), ?_⟩
  have h4 : ∀ u : State, u.resumeCommits.power = u.power := fun u => State.resumeCommits_frame (Frame.refl _ u) (Field.sub_refl _) .power (by decide)
  have h3 : ∀ u : State, u.settleAll.power = u.power := fun u => State.settleAll_frame (Frame.refl _ u) (Field.sub_refl _) .power (by decide)
  have h2 : ∀ u : State, u.flushPool.power = u.power := fun u => State.flushPool_frame (Frame.refl _ u) (Field.sub_refl _) .power (by decide)
  have h1 : ∀ u : State, u.flushLedger.power = u.power := fun u => State.flushLedger_frame (Frame.refl _ u) (Field.sub_refl _) .power (by decide)
  dsimp only
  rw [h4, h3, h2, h1]
  exact State.raise_frame (Frame.refl [.rings] _) (by decide) .power (by decide)

/-! ## Cold resets -/

/-- What a cold reset for a cause leaves. -/
def ColdFrom (s t : State) (why : Nat) : Prop :=
  t.dev.state = .por ∧ t.dev.resetCause.toNat = why ∧ t.dev.warm = 0 ∧ t.now = 0 ∧ t.dev.startCount = s.dev.startCount ∧ t.pending = s.pending ∧
    (∀ k, (t.ch k).state = .off ∧ (t.ch k).sink = true ∧ (t.ch k).bound = none) ∧ (∀ m, (t.ring m).en = false ∧ (t.ring m).sqs = []) ∧
    (∀ i, t.dirE i = State.reset.dirE i) ∧ t.mwd = State.reset.mwd ∧ t.tamper = { Tamper.reset with ledger := s.tamper.ledger } ∧
    (∀ k, (t.pl k).table = (s.pl k).table ∧ (t.wd k).ledger = (s.wd k).ledger ∧ (t.st k).overlay = (s.st k).overlay) ∧ t.mins = s.mins ∧
    t.cfgImg = s.cfgImg ∧ t.polLedger = s.polLedger ∧ t.polMin = s.polMin ∧ t.otp.normal = s.otp.normal ∧ t.otp.strict = s.otp.strict ∧
    t.pool.objs = s.pool.objs ∧ t.keys.vault = s.keys.vault

/-- A channel's parts after a cold reset. -/
def Ctl.cold (c : Ctl) : Ctl := { Ctl.reset with pgood := c.pgood }
def PlateSt.cold (x : PlateSt) : PlateSt := { PlateSt.reset with table := x.table, localMan := x.localMan }
def Wdg.cold (w : Wdg) : Wdg := { Wdg.reset with shown := w.ledger, ledger := w.ledger }
def Stencil.cold (t : Stencil) : Stencil := { Stencil.reset with overlay := t.overlay }

theorem State.coldReset_ch (s : State) (cause : Nat) (k : Fin 128) :
    ((s.coldReset cause).ch k).state = .off ∧ ((s.coldReset cause).ch k).sink = true ∧ ((s.coldReset cause).ch k).bound = none := by
  have h : (s.coldReset cause).ch k = (s.ch k).cold := vget_map s.ctl Ctl.cold k
  rw [h]
  exact ⟨rfl, rfl, rfl⟩

theorem State.coldReset_kept (s : State) (cause : Nat) (k : Fin 128) : ((s.coldReset cause).pl k).table = (s.pl k).table ∧
    ((s.coldReset cause).wd k).ledger = (s.wd k).ledger ∧ ((s.coldReset cause).st k).overlay = (s.st k).overlay := by
  have h1 : (s.coldReset cause).pl k = (s.pl k).cold := vget_map s.plt PlateSt.cold k
  have h2 : (s.coldReset cause).wd k = (s.wd k).cold := vget_map s.wdg Wdg.cold k
  have h3 : (s.coldReset cause).st k = (s.st k).cold := vget_map s.stn Stencil.cold k
  rw [h1, h2, h3]
  exact ⟨rfl, rfl, rfl⟩

/-- The device's word and the clock after a cold reset. -/
theorem State.coldReset_dev (s : State) {cause : Nat} (hc : cause < 16) : (s.coldReset cause).dev.state = .por ∧
    (s.coldReset cause).dev.resetCause.toNat = cause ∧ (s.coldReset cause).dev.warm = 0 ∧ (s.coldReset cause).now = 0 ∧
    (s.coldReset cause).dev.startCount = s.dev.startCount := by
  have h : (s.coldReset cause).dev = { Device.reset with
      resetCause := BitVec.ofNat 4 cause, startCount := s.dev.startCount, zeroised := s.dev.zeroised } := rfl
  have hn : (s.coldReset cause).now = 0 := rfl
  rw [h, hn]
  exact ⟨rfl, Nat.mod_eq_of_lt hc, rfl, rfl, rfl⟩

theorem State.coldReset_ring (s : State) (cause : Nat) (m : Mgr) :
    ((s.coldReset cause).ring m).en = false ∧ ((s.coldReset cause).ring m).sqs = [] := by cases m <;> exact ⟨rfl, rfl⟩

theorem KeyStore.restart_vault (k : KeyStore) : k.restart.vault = k.vault := by
  unfold KeyStore.restart
  dsimp only

theorem State.coldReset_cold (s : State) {cause : Nat} (hc : cause < 16) : ColdFrom s (s.coldReset cause) cause := by
  obtain ⟨h1, h2, h3, h4, h5⟩ := s.coldReset_dev hc
  have a1 : (s.coldReset cause).pending = s.pending := rfl
  have a2 : ∀ i, (s.coldReset cause).dirE i = State.reset.dirE i := fun _ => rfl
  have a3 : (s.coldReset cause).mwd = State.reset.mwd := rfl
  have a4 : (s.coldReset cause).tamper = { Tamper.reset with ledger := s.tamper.ledger } := rfl
  have a5 : (s.coldReset cause).mins = s.mins := rfl
  have a6 : (s.coldReset cause).cfgImg = s.cfgImg := rfl
  have a7 : (s.coldReset cause).polLedger = s.polLedger ∧ (s.coldReset cause).polMin = s.polMin := ⟨rfl, rfl⟩
  have a8 : (s.coldReset cause).otp.normal = s.otp.normal ∧ (s.coldReset cause).otp.strict = s.otp.strict := ⟨rfl, rfl⟩
  have a9 : (s.coldReset cause).pool.objs = s.pool.objs ∧ (s.coldReset cause).keys = s.keys.restart := ⟨rfl, rfl⟩
  exact ⟨h1, h2, h3, h4, h5, a1, s.coldReset_ch cause, s.coldReset_ring cause, a2, a3, a4, s.coldReset_kept cause, a5, a6, a7.1, a7.2, a8.1,
    a8.2, a9.1, (congrArg KeyStore.vault a9.2).trans s.keys.restart_vault⟩

theorem exec_brownout {s : State} (rail : Fin 21) (h : s.dev.state ≠ .por) :
    ∃ t, exec (.brownout rail) s = .next t ∧ ColdFrom s t 2 ∧ t.power.brownRail = some rail.1 := by
  refine ⟨_, congrArg Host.Outcome.next (if_neg (by simp [h])), ?_, rfl⟩
  exact s.coldReset_cold (by decide)

theorem exec_resetPin (s : State) (lowNs : Nat) : ∃ t, exec (.resetPin lowNs) s = .next t ∧ if 10000 ≤ lowNs then ColdFrom s t 1 else t = s := by
  refine ⟨_, rfl, ?_⟩
  by_cases h : 10000 ≤ lowNs
  · rw [if_pos h, if_neg (show ¬lowNs < 10 * usec from Nat.not_lt.2 h)]
    exact s.coldReset_cold (by decide)
  · rw [if_neg h]
    exact if_pos (Nat.not_le.1 h)

/-! ## Overcurrent -/

theorem State.not_hears_of_cut {s : State} {n : Fin 128} {e : Nat} (h : (s.port n).cutEnd = some e) (op : Nat) : ¬s.hears n op := by
  rintro ⟨hd, -⟩
  simp only [State.decodes, h, Option.isNone_some, Bool.and_false] at hd
  cases hd

theorem exec_outputOvercurrent {s : State} {n : Fin 128} (hon : s.chanOn n = true) (hr : (s.ch n).released = true) :
    ∃ t, exec (.outputOvercurrent n) s = .next t ∧ Frame [.ports] s t ∧
      (t.port n).cutEnd = some (s.now + 10000000) ∧ (∀ op, ¬t.hears n op) ∧ ∀ k, k ≠ n → t.port k = s.port k := by
  have hcut : ((s.modPort n fun p => { p with cutEnd := some (s.now + 10 * msec), reply := [] }).port n).cutEnd = some (s.now + 10000000) := by
    rw [State.modPort_port]
    rfl
  exact ⟨_, congrArg Host.Outcome.next (if_pos (by simp [hon, hr])), State.modPort_frame (Frame.refl _ s) (by decide), hcut,
    State.not_hears_of_cut hcut, fun k hk => State.modPort_port_ne _ _ _ hk⟩

theorem exec_overcurrentHoldoffEnd {s : State} {n : Fin 128} (e : Nat) (h : (s.port n).cutEnd = some e) :
    ∃ t, exec (.overcurrentHoldoffEnd n) s = .next t ∧ Frame [.now, .ports] s t ∧ t.now = max s.now e ∧
      t.port n = { s.port n with cutEnd := none } := by
  have he : exec (.overcurrentHoldoffEnd n) s = .next ((s.until e).modPort n fun p => { p with cutEnd := none }) := by
    refine congrArg Host.Outcome.next ?_
    rw [h]
  exact ⟨_, he, State.modPort_frame (State.until_frame (Frame.refl _ s) (by decide)) (by decide), rfl, State.modPort_port _ _ _⟩

/-! ## STANDBY -/

/-- A released channel at the entry to STANDBY. -/
def State.standbyChan (n : Fin 128) (s : State) : State :=
  if (s.ch n).released then (s.hold n .standby .device none).modCtl n fun c => { c with standbyRun := true } else s

theorem State.enterStandby_eq (s : State) : s.enterStandby =
    State.setDev { s.keepLines.forChans State.standbyChan with
      dev := { (s.keepLines.forChans State.standbyChan).dev with standbySince := (s.keepLines.forChans State.standbyChan).now } } .standby := by
  unfold State.enterStandby State.standbyChan
  rfl

theorem State.standbyChan_other (n : Fin 128) (s : State) : OtherCtl n s (s.standbyChan n) := by
  intro k hk
  unfold State.standbyChan
  split
  · rw [State.modCtl_ch_ne _ _ _ hk]
    exact s.hold_other n _ _ _ k hk
  · rfl

theorem State.standbyChan_own {n : Fin 128} {s : State} (h : (s.ch n).released = true) :
    ((s.standbyChan n).ch n).state = .held ∧ ((s.standbyChan n).ch n).kind = .standby ∧ ((s.standbyChan n).ch n).standbyRun = true ∧
      ((s.standbyChan n).ch n).holdWait = !(s.ch n).sink := by
  have hh := s.hold_ch n .standby .device none
  unfold State.standbyChan
  rw [if_pos h, State.modCtl_ch]
  exact ⟨hh.state, hh.kind, rfl, hh.holdWait⟩

theorem State.enterStandby_dev (s : State) : s.enterStandby.dev.state = .standby := by
  rw [State.enterStandby_eq, State.setDev_dev]

theorem State.enterStandby_ch {s : State} {n : Fin 128} (h : (s.ch n).released = true) :
    (s.enterStandby.ch n).state = .held ∧ (s.enterStandby.ch n).kind = .standby ∧ (s.enterStandby.ch n).standbyRun = true ∧
      (s.enterStandby.ch n).holdWait = !(s.ch n).sink := by
  have hset : ∀ u : State, (u.setDev .standby).ch n = u.ch n := fun u =>
    congrArg (vget · n) (State.setDev_frame (Frame.refl _ u) (Field.sub_refl _) .ctl (by decide))
  have hkeep : s.keepLines.ch n = s.ch n := congrArg (vget · n) (State.keepLines_frame (Frame.refl _ s) (Field.sub_refl _) .ctl (by decide))
  obtain ⟨u, hu, hend⟩ := State.forChans_turn (R := fun s t => t.ch n = s.ch n) (f := State.standbyChan) (fun _ => rfl)
    (fun _ _ _ h h' => h'.trans h) s.keepLines n fun k hk u => State.standbyChan_other k u n (Ne.symm hk)
  have hun : u.ch n = s.ch n := hu.trans hkeep
  have he : s.enterStandby.ch n = (u.standbyChan n).ch n := by
    have hs := s.enterStandby_eq
    generalize s.keepLines.forChans State.standbyChan = w at hs hend
    exact (congrArg (fun x : State => x.ch n) hs).trans ((hset _).trans hend)
  rw [he, ← hun]
  exact State.standbyChan_own (by rw [hun]; exact h)

theorem State.enterStandby_power (s : State) : s.enterStandby.power = s.power :=
  State.enterStandby_frame (Frame.refl _ s) (Field.sub_refl _) .power (by decide)

theorem exec_sysPgoodLow (s : State) : ∃ t, exec .sysPgoodLow s = .next t ∧ t.power = { s.power with sysPgood := false } ∧
    (if s.dev.state = .running then t.dev.state = .standby ∧ ∀ k, (s.ch k).released = true →
       (t.ch k).state = .held ∧ (t.ch k).kind = .standby ∧ (t.ch k).standbyRun = true ∧ (t.ch k).holdWait = !(s.ch k).sink
     else Frame [.power] s t) := by
  by_cases h : s.dev.state = .running
  · refine ⟨_, congrArg Host.Outcome.next (if_pos h), State.enterStandby_power _, ?_⟩
    rw [if_pos h]
    exact ⟨State.enterStandby_dev _, fun k hk => State.enterStandby_ch (s := { s with power := { s.power with sysPgood := false } }) hk⟩
  · refine ⟨_, congrArg Host.Outcome.next (if_neg h), rfl, ?_⟩
    rw [if_neg h]
    exact Frame.put_power (Frame.refl _ s) (by decide)

theorem exec_standbyReturn {s : State} (hr : s.dev.state = .running) (hp : s.power.sysPgood = false) (hf : s.deviceInFlight = 0) :
    ∃ t, exec .standbyReturn s = .next t ∧ t.dev.state = .standby ∧ t.now = max s.now (max s.dev.idleSince s.dev.runSince + 1000000000) :=
  ⟨_, congrArg Host.Outcome.next (if_pos (by simp [hr, hp, hf])), State.enterStandby_dev _, State.enterStandby_now⟩

/-! ## Wakes -/

theorem LinksKept.serves : Serves LinksKept where
  refl := LinksKept.refl
  comp := LinksKept.comp
  of_frame := LinksKept.of_frame
  finish' := fun s _ _ _ _ _ => State.finish_links (LinksKept.refl s)

theorem LinksKept.wake {s t : State} (h : LinksKept s t) (m : Mgr) : (t.view m).wake = (s.view m).wake := (congrArg View.wake (h m) :)

theorem State.wake_links (s : State) : LinksKept s s.wake := .of_frame (State.wake_frame (Frame.refl _ s) (Field.sub_refl _)) (by decide)

theorem State.wakeLink_view (s : State) (m k : Mgr) (hk : k ≠ m) : (s.wakeLink m).view k = s.view k := by
  unfold State.wakeLink
  split
  · rw [State.view_modView, if_neg hk]
  · rfl

theorem State.wakeLink_wakes {s : State} {m : Mgr} (hon : s.mgrOn m = true) (hl : (s.view m).linkUp = false) :
    ((s.wakeLink m).view m).wake = true := by
  unfold State.wakeLink
  rw [if_pos hon, State.view_modView, if_pos rfl]
  simp [hl]

/-- A wake asserts WAKE# of a link that is down. -/
theorem State.wakeUp_wakes {s : State} {m : Mgr} (hs : s.dev.state = .standby) (hon : s.mgrOn m = true) (hl : (s.view m).linkUp = false) :
    (s.wakeUp.view m).wake = true := by
  have hon' : ∀ {u : State}, Frame [.prof, .dcfg, .trace, .rings, .views, .dev] s u → u.mgrOn m = true := fun hu => by
    unfold State.mgrOn at hon ⊢
    rw [show _ = s.part from hu .part (by decide)]
    exact hon
  have hw : Frame [.prof, .dcfg, .trace, .rings, .views, .dev] s s.wake := State.wake_frame (Frame.refl _ s) (by decide)
  have hlw : (s.wake.view m).linkUp = false := (s.wake_links.linkUp m).trans hl
  have hres : LinksKept s.woken s.woken.resumeStandby := LinksKept.serves.resumeStandby (LinksKept.refl _)
  rw [State.wakeUp_standby hs, hres.wake m]
  unfold State.woken
  cases m with
  | a =>
    rw [State.wakeLink_view _ .b .a (by decide)]
    exact State.wakeLink_wakes (hon' hw) hlw
  | b =>
    refine State.wakeLink_wakes (hon' (State.wakeLink_frame hw (by decide))) ?_
    rw [State.wakeLink_view _ .a .b (by decide)]
    exact hlw

/-- A wake by a doorbell. -/
theorem State.wake_resumed (s : State) : s.wake.resumeStandby.dev.state = .running ∧ s.wake.resumeStandby.dev.runSince = s.now ∧
    LinksKept s s.wake.resumeStandby := by
  have hk := s.wake.resumeStandby_dev
  have hr : s.wake.resumeStandby.dev.runSince = s.wake.dev.runSince := by
    unfold DevKept at hk
    rw [hk]
  rw [hk.state, hr, State.wake_dev]
  exact ⟨rfl, rfl, LinksKept.serves.resumeStandby s.wake_links⟩

theorem State.wakeUp_power (s : State) : s.wakeUp.power = s.power := State.wakeUp_frame (Frame.refl _ s) (Field.sub_refl _) .power (by decide)

/-- The wake for a cause, once the clock stands at it. -/
def State.wokenBy (s : State) (cause : WakeCause) : State := if cause = .doorbell then s.wake.resumeStandby else s.wakeUp

theorem State.wokenBy_parts {s : State} {m : Mgr} {cause : WakeCause} (hs : s.dev.state = .standby) :
    (s.wokenBy cause).dev.state = .running ∧ (s.wokenBy cause).dev.runSince = s.now ∧ (s.wokenBy cause).now = s.now ∧
      (s.wokenBy cause).power = s.power ∧
      (s.mgrOn m = true → (s.view m).linkUp = false → cause ≠ .doorbell → ((s.wokenBy cause).view m).wake = true) ∧
      (cause = .doorbell → ((s.wokenBy cause).view m).wake = (s.view m).wake) := by
  unfold State.wokenBy
  split
  · next hc =>
    obtain ⟨h1, h2, h3⟩ := s.wake_resumed
    have hp : s.wake.resumeStandby.power = s.power := (State.resumeStandby_frame (Frame.refl _ _) (Field.sub_refl _) .power (by decide)).trans
      (State.wake_frame (Frame.refl _ s) (Field.sub_refl _) .power (by decide))
    exact ⟨h1, h2, by simp, hp, fun _ _ hne => absurd hc hne, fun _ => h3.wake m⟩
  · next hc =>
    obtain ⟨h1, h2⟩ := State.wakeUp_dev hs
    exact ⟨h1, h2, State.wakeUp_now, s.wakeUp_power, fun hon hl _ => State.wakeUp_wakes hs hon hl, fun he => absurd he hc⟩

/-- The state at the time of a wake. -/
def State.wakeDue (s : State) (cause : WakeCause) : State :=
  let s := if cause = .sysPgood then { s with power := { s.power with sysPgood := true } } else s
  if cause = .stbyLimit then s.until (s.dev.standbySince + s.dcfg.stbyS * second) else s

theorem State.wakeDue_parts (s : State) (cause : WakeCause) : (s.wakeDue cause).dev = s.dev ∧ (s.wakeDue cause).views = s.views ∧
    (s.wakeDue cause).part = s.part ∧ (cause = .sysPgood → (s.wakeDue cause).power.sysPgood = true) ∧
    (s.wakeDue cause).now = (if cause = .stbyLimit then max s.now (s.dev.standbySince + s.dcfg.stbyS * 1000000000) else s.now) := by
  rw [show (1000000000 : Nat) = second from rfl]
  by_cases hp : cause = .sysPgood
  · subst hp
    have hn : (s.wakeDue .sysPgood).now = s.now := rfl
    exact ⟨rfl, rfl, rfl, fun _ => rfl, hn.trans (if_neg (by decide)).symm⟩
  · by_cases hl : cause = .stbyLimit
    · subst hl
      have hn : (s.wakeDue .stbyLimit).now = max s.now (s.dev.standbySince + s.dcfg.stbyS * second) := rfl
      exact ⟨rfl, rfl, rfl, nofun, hn.trans (if_pos rfl).symm⟩
    · have h : s.wakeDue cause = s := by
        unfold State.wakeDue
        rw [if_neg hl, if_neg hp]
      rw [h, if_neg hl]
      exact ⟨rfl, rfl, rfl, fun e => absurd e hp, rfl⟩

theorem exec_standbyWake_eq {s : State} (cause : WakeCause) (hs : s.dev.state = .standby) :
    exec (.standbyWake cause) s = .next ((s.wakeDue cause).wokenBy cause) := by
  have he : exec (.standbyWake cause) s = execStandbyWake cause s := rfl
  rw [he]
  unfold execStandbyWake State.wakeDue State.wokenBy
  cases cause <;> simp only [reduceCtorEq, if_true, if_false, hs]

theorem exec_standbyWake {s : State} {m : Mgr} {cause : WakeCause} (hs : s.dev.state = .standby) :
    ∃ t, exec (.standbyWake cause) s = .next t ∧ t.dev.state = .running ∧ t.dev.runSince = t.now ∧
      t.now = (if cause = .stbyLimit then max s.now (s.dev.standbySince + s.dcfg.stbyS * 1000000000) else s.now) ∧
      (cause = .sysPgood → t.power.sysPgood = true) ∧
      (s.mgrOn m = true → (s.view m).linkUp = false → cause ≠ .doorbell → (t.view m).wake = true) ∧
      (cause = .doorbell → (t.view m).wake = (s.view m).wake) := by
  obtain ⟨hdev, hviews, hpart, hpg, hnow⟩ := s.wakeDue_parts cause
  obtain ⟨h1, h2, h3, h4, h5, h6⟩ := State.wokenBy_parts (s := s.wakeDue cause) (m := m) (cause := cause) (by rw [hdev]; exact hs)
  have hview : (s.wakeDue cause).view m = s.view m := congrArg (PerMgr.get · m) hviews
  have hon : (s.wakeDue cause).mgrOn m = s.mgrOn m := by
    unfold State.mgrOn
    rw [hpart]
  rw [hview, hon] at h5
  rw [hview] at h6
  exact ⟨_, exec_standbyWake_eq cause hs, h1, h2.trans h3.symm, h3.trans hnow, fun h => (congrArg Power.sysPgood h4).trans (hpg h), h5, h6⟩

end Sys2Proof.Machine

namespace Sys2Proof

open Sys2Proof.Machine

/-- Settles O57. -/
theorem suppliesResetsAndStandbyAct : Obligations.SuppliesResetsAndStandbyAct := by
  unfold Obligations.SuppliesResetsAndStandbyAct
  intro s rail lowNs n m cause
  exact ⟨exec_supplyWarn rail, exec_supplyOk, exec_brownout rail, exec_resetPin s lowNs, exec_outputOvercurrent, exec_overcurrentHoldoffEnd,
    exec_sysPgoodLow s, exec_standbyReturn, exec_standbyWake⟩

end Sys2Proof
end


section
/-! SUPPORT. What the orders and the re-releases of a device start leave of the entropy source and of FAIL# (R141, R206, R217). -/

namespace Sys2Proof.Machine

open Sys2Proof

section

variable {k : Field} {R : State → State → Prop} (hR : Respects k R) {s₀ s : State}

include hR

theorem State.putDevKey_keeps {k1 : DevKey} {bytes : List Byte} (hf : k ∉ [.keys]) (h : R s₀ s) : R s₀ (State.putDevKey s k1 bytes) :=
  hR.step h (State.putDevKey_frame (Frame.refl _ _) (Field.sub_refl _)) hf

end

section

variable {k : Field} {R : State → State → Prop} (hR : Respects k R) {s₀ s : State}

include hR

theorem State.settleLines_keeps (hf : k ∉ [.prof]) (h : R s₀ s) : R s₀ (State.settleLines s) :=
  hR.step h (State.settleLines_frame (Frame.refl _ _) (Field.sub_refl _)) hf

theorem State.orderRelease_keeps {who : Asker} {n : Fin 128}
    (hf : k ∉ [.mbx, .ctl, .plt, .wdg, .imm, .fca, .mins, .trace, .spdm, .rings, .views, .awaits, .drbg, .drawn, .led, .dev]) (h : R s₀ s) :
    R s₀ (State.orderRelease s who n) :=
  hR.step h (State.orderRelease_frame (Frame.refl _ _) (Field.sub_refl _)) hf

theorem State.armStep_keeps {n : Fin 128}
    (hf : k ∉ [.mbx, .ctl, .plt, .wdg, .imm, .fca, .mins, .trace, .spdm, .rings, .views, .awaits, .drbg, .drawn, .led, .dev]) (h : R s₀ s) :
    R s₀ (State.armStep s n) :=
  hR.step h (State.armStep_frame (Frame.refl _ _) (Field.sub_refl _)) hf

end

/-! ## The state of KEY -/

/-- From s to t the state of KEY does not change. -/
def SeededAlike (s t : State) : Prop := t.drbg.keyState = s.drbg.keyState

theorem SeededAlike.refl (s : State) : SeededAlike s s := rfl

theorem SeededAlike.comp {s t u : State} (h : SeededAlike s t) (h' : SeededAlike t u) : SeededAlike s u := h'.trans h

theorem SeededAlike.of_frame {fs : List Field} {s t : State} (h : Frame fs s t) (hf : Field.drbg ∉ fs) : SeededAlike s t :=
  congrArg Drbg.keyState (h .drbg hf)

theorem SeededAlike.respects : Respects .drbg SeededAlike := ⟨SeededAlike.refl, SeededAlike.comp, SeededAlike.of_frame⟩

/-- A draw of GENERAL counts its requests. -/
theorem State.drawGeneral_seeded {s₀ s : State} {k : Nat} (h : SeededAlike s₀ s) : SeededAlike s₀ (s.drawGeneral k) := h

theorem State.drawChallenge_seeded {s₀ s : State} (h : SeededAlike s₀ s) :
    SeededAlike s₀ ((State.drawChallenge s).2) := by
  refine SeededAlike.comp h ?_
  clear h
  unfold State.drawChallenge
  dsimp -failIfUnchanged -proj only
  repeat' (with_reducible first
    | assumption | apply SeededAlike.refl | apply State.drawGeneral_seeded | intro _ | split)

theorem State.beginAttempt_seeded {s₀ s : State} {n : Fin 128} (h : SeededAlike s₀ s) :
    SeededAlike s₀ (State.beginAttempt s n) := by
  refine SeededAlike.comp h ?_
  clear h
  unfold State.beginAttempt
  dsimp -failIfUnchanged -proj only
  repeat' (with_reducible first
    | assumption | apply SeededAlike.refl | apply State.modPlt_keeps SeededAlike.respects (by decide) | apply State.drawChallenge_seeded
    | intro _ | split)

theorem State.selEnd_seeded {s₀ s : State} {n : Fin 128} {w : SelWait} {t3 : PTable} {tie : Bool} {run : Option (PlateId × Fin 256)} {attempt : Bool} (h : SeededAlike s₀ s) :
    SeededAlike s₀ (State.selEnd s n w t3 tie run attempt) := by
  refine SeededAlike.comp h ?_
  clear h
  unfold State.selEnd
  dsimp -failIfUnchanged -proj only
  repeat' (with_reducible first
    | assumption | apply SeededAlike.refl | apply State.enterRecoveryState_keeps SeededAlike.respects (by decide)
    | apply State.bind_keeps SeededAlike.respects (by decide) | apply State.answerAll_keeps SeededAlike.respects (by decide)
    | apply State.commitPlates_keeps SeededAlike.respects (by decide) | apply State.beginAttempt_seeded
    | apply State.unbind_keeps SeededAlike.respects (by decide) | apply State.modCtl_keeps SeededAlike.respects (by decide)
    | apply State.raise_keeps SeededAlike.respects (by decide) | intro _ | split)

theorem State.selectFrom_seeded {n : Fin 128} {s₀ : State} {x : Nat} {w : SelWait} {u : State} (h : SeededAlike s₀ u) :
    SeededAlike s₀ (State.selectFrom n x w u) := by
  induction x generalizing s₀ w u with
  | zero => exact h
  | succ k ih =>
    refine SeededAlike.comp h ?_
    clear h
    unfold State.selectFrom
    dsimp -failIfUnchanged -proj only
    repeat' (with_reducible first
      | assumption
      | apply SeededAlike.refl
      | apply ih
      | apply State.selNote_keeps SeededAlike.respects (by decide)
      | apply State.checkPlate_keeps SeededAlike.respects (by decide)
      | apply State.modCtl_keeps SeededAlike.respects (by decide)
      | apply State.selEnd_seeded
      | intro _
      | split)

theorem State.select_seeded {s₀ s : State} {n : Fin 128} (h : SeededAlike s₀ s) :
    SeededAlike s₀ (State.select s n) := by
  refine SeededAlike.comp h ?_
  clear h
  unfold State.select
  dsimp -failIfUnchanged -proj only
  repeat' (with_reducible first
    | assumption | apply SeededAlike.refl | apply State.completeAdvances_keeps SeededAlike.respects (by decide)
    | apply State.selectFrom_seeded | apply State.modCtl_keeps SeededAlike.respects (by decide) | intro _ | split)

theorem State.startTaking_seeded {s₀ s : State} {n : Fin 128} {cause : Cause} {asked : Bool} (h : SeededAlike s₀ s) :
    SeededAlike s₀ (State.startTaking s n cause asked) := by
  refine SeededAlike.comp h ?_
  clear h
  unfold State.startTaking
  dsimp -failIfUnchanged -proj only
  repeat' (with_reducible first
    | assumption | apply SeededAlike.refl | apply State.select_seeded | apply State.unbind_keeps SeededAlike.respects (by decide)
    | apply State.transition_keeps SeededAlike.respects (by decide) | apply State.stayHeld_keeps SeededAlike.respects (by decide)
    | apply State.modCtl_keeps SeededAlike.respects (by decide) | intro _ | split)

theorem State.startRanked_seeded {s₀ s : State} {n : Fin 128} (h : SeededAlike s₀ s) :
    SeededAlike s₀ (State.startRanked s n) := by
  refine SeededAlike.comp h ?_
  clear h
  unfold State.startRanked
  dsimp -failIfUnchanged -proj only
  repeat' (with_reducible first
    | assumption | apply SeededAlike.refl | apply State.startTaking_seeded | apply State.modCtl_keeps SeededAlike.respects (by decide)
    | intro _ | split)

theorem State.mwdPublish_seeded {s₀ s : State} {m : Mgr} (h : SeededAlike s₀ s) :
    SeededAlike s₀ (State.mwdPublish s m) := by
  refine SeededAlike.comp h ?_
  clear h
  unfold State.mwdPublish
  dsimp -failIfUnchanged -proj only
  repeat' (with_reducible first
    | assumption | apply SeededAlike.refl | apply State.modMwd_keeps SeededAlike.respects (by decide) | apply State.drawChallenge_seeded
    | intro _ | split)

theorem State.mwdArm_seeded {s₀ s : State} {m : Mgr} (h : SeededAlike s₀ s) :
    SeededAlike s₀ (State.mwdArm s m) := by
  refine SeededAlike.comp h ?_
  clear h
  unfold State.mwdArm
  dsimp -failIfUnchanged -proj only
  repeat' (with_reducible first
    | assumption | apply SeededAlike.refl | apply State.modMwd_keeps SeededAlike.respects (by decide) | apply State.mwdPublish_seeded
    | intro _ | split)

theorem State.startMwd_seeded {s₀ s : State} {m : Mgr} (h : SeededAlike s₀ s) :
    SeededAlike s₀ (State.startMwd s m) := by
  refine SeededAlike.comp h ?_
  clear h
  unfold State.startMwd
  dsimp -failIfUnchanged -proj only
  repeat' (with_reducible first
    | assumption | apply SeededAlike.refl | apply State.modMwd_keeps SeededAlike.respects (by decide) | apply State.mwdArm_seeded
    | intro _ | split)

theorem State.releaseSafe_seeded {s₀ s : State} {n : Fin 128} (h : SeededAlike s₀ s) :
    SeededAlike s₀ (State.releaseSafe s n) := by
  refine SeededAlike.comp h ?_
  clear h
  unfold State.releaseSafe
  dsimp -failIfUnchanged -proj only
  repeat' (with_reducible first
    | assumption | apply SeededAlike.refl | apply State.startTaking_seeded
    | apply State.clearConsec_keeps SeededAlike.respects (by decide) | intro _ | split
    | (refine SeededAlike.comp ?_ (SeededAlike.of_frame (Frame.put_led (fs := [.led]) (Frame.refl _ _) (by decide)) (by decide))))

theorem State.orderRelease_seeded {s₀ s : State} {who : Asker} {n : Fin 128} (h : SeededAlike s₀ s) :
    SeededAlike s₀ (State.orderRelease s who n) := by
  refine SeededAlike.comp h ?_
  clear h
  unfold State.orderRelease
  dsimp -failIfUnchanged -proj only
  repeat' (with_reducible first
    | assumption | apply SeededAlike.refl | apply State.startTaking_seeded | apply State.answer_keeps SeededAlike.respects (by decide)
    | apply State.releaseSafe_seeded | apply State.wait_keeps SeededAlike.respects (by decide) | intro _ | split)

theorem State.order_seeded {s₀ s : State} {who : Asker} {m : Mgr} {n : Fin 128} {o : Order} {rival : Option Order} {deviceHold : Bool} (h : SeededAlike s₀ s) :
    SeededAlike s₀ (State.order s who m n o rival deviceHold) := by
  refine SeededAlike.comp h ?_
  clear h
  unfold State.order
  dsimp -failIfUnchanged -proj only
  repeat' (with_reducible first
    | assumption | apply SeededAlike.refl | apply State.orderQuarantine_keeps SeededAlike.respects (by decide)
    | apply State.orderReadmit_keeps SeededAlike.respects (by decide) | apply State.orderHold_keeps SeededAlike.respects (by decide)
    | apply State.orderRelease_seeded | apply State.answer_keeps SeededAlike.respects (by decide)
    | apply State.orderRestart_keeps SeededAlike.respects (by decide) | intro _ | split)

theorem State.takeKept_seeded {s₀ s : State} {n : Fin 128} {cause : Cause} (h : SeededAlike s₀ s) :
    SeededAlike s₀ (State.takeKept s n cause) := by
  refine SeededAlike.comp h ?_
  clear h
  unfold State.takeKept
  dsimp -failIfUnchanged -proj only
  repeat' (with_reducible first
    | assumption | apply SeededAlike.refl | apply State.startTaking_seeded
    | apply State.transition_keeps SeededAlike.respects (by decide) | apply State.modCtl_keeps SeededAlike.respects (by decide) | intro _
    | split)

theorem State.armFail_seeded {s₀ s : State} {n : Fin 128} {st : Status} (h : SeededAlike s₀ s) :
    SeededAlike s₀ (State.armFail s n st) := by
  refine SeededAlike.comp h ?_
  clear h
  unfold State.armFail
  dsimp -failIfUnchanged -proj only
  repeat' (with_reducible first
    | assumption | apply SeededAlike.refl | apply State.select_seeded | apply State.takeKept_seeded
    | apply State.endArming_keeps SeededAlike.respects (by decide) | intro _ | split)

theorem State.armCommit_seeded {s₀ s : State} {n : Fin 128} {a : Arming} {i : Fin 256} (h : SeededAlike s₀ s) :
    SeededAlike s₀ (State.armCommit s n a i) := by
  refine SeededAlike.comp h ?_
  clear h
  unfold State.armCommit
  dsimp -failIfUnchanged -proj only
  repeat' (with_reducible first
    | assumption | apply SeededAlike.refl | apply State.modPlt_keeps SeededAlike.respects (by decide)
    | apply State.bind_keeps SeededAlike.respects (by decide) | apply State.startTaking_seeded | apply State.beginAttempt_seeded
    | apply State.commitPlates_keeps SeededAlike.respects (by decide) | apply State.modCtl_keeps SeededAlike.respects (by decide)
    | intro _ | split)

theorem State.armJudge_seeded {s₀ s : State} {n : Fin 128} {a : Arming} {r : Chk} (h : SeededAlike s₀ s) :
    SeededAlike s₀ (State.armJudge s n a r) := by
  refine SeededAlike.comp h ?_
  clear h
  unfold State.armJudge
  dsimp -failIfUnchanged -proj only
  repeat' (with_reducible first
    | assumption | apply SeededAlike.refl | apply State.verifyFailed_keeps SeededAlike.respects (by decide) | apply State.armFail_seeded
    | apply State.armCommit_seeded | apply State.raise_keeps SeededAlike.respects (by decide)
    | apply State.commitPlates_keeps SeededAlike.respects (by decide) | apply State.modCtl_keeps SeededAlike.respects (by decide)
    | intro _ | split
    | (refine SeededAlike.comp ?_ (SeededAlike.of_frame (Frame.put_led (fs := [.led]) (Frame.refl _ _) (by decide)) (by decide))))

theorem State.armStep_seeded {s₀ s : State} {n : Fin 128} (h : SeededAlike s₀ s) :
    SeededAlike s₀ (State.armStep s n) := by
  refine SeededAlike.comp h ?_
  clear h
  unfold State.armStep
  dsimp -failIfUnchanged -proj only
  repeat' (with_reducible first
    | assumption | apply SeededAlike.refl | apply State.armJudge_seeded | apply State.checkPlate_keeps SeededAlike.respects (by decide)
    | apply State.modCtl_keeps SeededAlike.respects (by decide) | intro _ | split)

theorem State.beginArm_seeded {s₀ s : State} {n : Fin 128} {p : PlateId} (h : SeededAlike s₀ s) :
    SeededAlike s₀ (State.beginArm s n p) := by
  refine SeededAlike.comp h ?_
  clear h
  unfold State.beginArm
  dsimp -failIfUnchanged -proj only
  repeat' (with_reducible first
    | assumption | apply SeededAlike.refl | apply State.modPlt_keeps SeededAlike.respects (by decide)
    | apply State.hold_keeps SeededAlike.respects (by decide) | apply State.armStep_seeded | intro _ | split)

theorem State.rerun_seeded {s₀ s : State} {a : Await} (h : SeededAlike s₀ s) :
    SeededAlike s₀ (State.rerun s a) := by
  refine SeededAlike.comp h ?_
  clear h
  unfold State.rerun
  dsimp -failIfUnchanged -proj only
  repeat' (with_reducible first
    | assumption | apply SeededAlike.refl | apply State.order_seeded | apply State.endArming_keeps SeededAlike.respects (by decide)
    | apply State.beginArm_seeded | intro _ | split
    | (refine SeededAlike.comp ?_ (SeededAlike.of_frame (Frame.put_awaits (fs := [.awaits]) (Frame.refl _ _) (by decide)) (by decide))))

theorem State.startImage_seeded {s₀ s : State} {trained : Byte} (h : SeededAlike s₀ s) :
    SeededAlike s₀ (State.startImage s trained) := by
  refine SeededAlike.comp h ?_
  clear h
  unfold State.startImage
  dsimp -failIfUnchanged -proj only
  repeat' (with_reducible first
    | assumption | apply SeededAlike.refl | apply State.forAll_keeps SeededAlike.respects
    | apply State.putDevKey_keeps SeededAlike.respects (by decide) | apply State.drawGeneral_seeded | intro _ | split
    | (refine SeededAlike.comp ?_ (SeededAlike.of_frame (Frame.put_imm_drawn (fs := [.imm, .drawn]) (Frame.refl _ _) (by decide) (by decide)) (by decide))))

/-! ## FAIL# -/

/-- From s to t FAIL# stays as it is. -/
def FailShown (s t : State) : Prop := t.plat.failOn = s.plat.failOn

theorem FailShown.refl (s : State) : FailShown s s := rfl

theorem FailShown.comp {s t u : State} (h : FailShown s t) (h' : FailShown t u) : FailShown s u := h'.trans h

theorem FailShown.of_frame {fs : List Field} {s t : State} (h : Frame fs s t) (hf : Field.plat ∉ fs) : FailShown s t :=
  congrArg Platform.failOn (h .plat hf)

theorem FailShown.respects : Respects .plat FailShown := ⟨FailShown.refl, FailShown.comp, FailShown.of_frame⟩

theorem FailShown.put_plat {s : State} (p : Platform) (h : p.failOn = s.plat.failOn) : FailShown s { s with plat := p } := h

theorem State.modLine_failing {s₀ s : State} {t1 : Fin 16} {x : TwStep} (h : FailShown s₀ s) :
    FailShown s₀ (State.modLine s t1 x) := by
  refine FailShown.comp h ?_
  clear h
  unfold State.modLine
  dsimp -failIfUnchanged -proj only
  repeat' (with_reducible first
    | assumption | apply FailShown.refl | intro _ | split | (refine FailShown.comp ?_ (FailShown.put_plat _ rfl)))

theorem State.endLines_failing {s₀ s : State} (h : FailShown s₀ s) : FailShown s₀ s.endLines := by
  unfold State.endLines
  dsimp only
  refine related_ite h (State.settleLines_keeps FailShown.respects (by decide) (State.forAll_keeps FailShown.respects h fun _ _ => rfl))

theorem State.stopHost_failing {s₀ s : State} {n : Fin 128} (h : FailShown s₀ s) :
    FailShown s₀ (State.stopHost s n) := by
  refine FailShown.comp h ?_
  clear h
  unfold State.stopHost
  dsimp -failIfUnchanged -proj only
  repeat' (with_reducible first
    | assumption | apply FailShown.refl | apply State.wdgStop_keeps FailShown.respects (by decide)
    | apply State.modStn_keeps FailShown.respects (by decide) | apply State.modPort_keeps FailShown.respects (by decide)
    | apply State.modCtl_keeps FailShown.respects (by decide) | intro _ | split | (refine FailShown.comp ?_ (FailShown.put_plat _ rfl)))

theorem State.leave_failing {s₀ s : State} {n : Fin 128} {st : ChState} {cause : Cause} (h : FailShown s₀ s) :
    FailShown s₀ (State.leave s n st cause) := by
  refine FailShown.comp h ?_
  clear h
  unfold State.leave
  dsimp -failIfUnchanged -proj only
  repeat' (with_reducible first
    | assumption | apply FailShown.refl | apply State.answerAll_keeps FailShown.respects (by decide) | apply State.stopHost_failing
    | apply State.unbind_keeps FailShown.respects (by decide) | apply State.transition_keeps FailShown.respects (by decide)
    | apply State.rejectProof_keeps FailShown.respects (by decide) | apply State.endArming_keeps FailShown.respects (by decide) | intro _
    | split)

theorem State.orderQuarantine_failing {s₀ s : State} {who : Asker} {n : Fin 128} (h : FailShown s₀ s) :
    FailShown s₀ (State.orderQuarantine s who n) := by
  refine FailShown.comp h ?_
  clear h
  unfold State.orderQuarantine
  dsimp -failIfUnchanged -proj only
  repeat' (with_reducible first
    | assumption | apply FailShown.refl | apply State.answer_keeps FailShown.respects (by decide) | apply State.endLines_failing
    | apply State.leave_failing | intro _ | split)

theorem State.hold_failing {s₀ s : State} {n : Fin 128} {kind : HoldKind} {cause : Cause} {seq : Option SeqKind} (h : FailShown s₀ s) :
    FailShown s₀ (State.hold s n kind cause seq) := by
  refine FailShown.comp h ?_
  clear h
  unfold State.hold
  dsimp -failIfUnchanged -proj only
  repeat' (with_reducible first
    | assumption | apply FailShown.refl | apply State.stopHost_failing | apply State.answerAll_keeps FailShown.respects (by decide)
    | apply State.transition_keeps FailShown.respects (by decide) | apply State.modCtl_keeps FailShown.respects (by decide) | intro _
    | split)

theorem State.orderReadmit_failing {s₀ s : State} {who : Asker} {n : Fin 128} (h : FailShown s₀ s) :
    FailShown s₀ (State.orderReadmit s who n) := by
  refine FailShown.comp h ?_
  clear h
  unfold State.orderReadmit
  dsimp -failIfUnchanged -proj only
  repeat' (with_reducible first
    | assumption | apply FailShown.refl | apply State.hold_failing | apply State.answer_keeps FailShown.respects (by decide) | intro _
    | split)

theorem State.orderHold_failing {s₀ s : State} {who : Asker} {n : Fin 128} (h : FailShown s₀ s) :
    FailShown s₀ (State.orderHold s who n) := by
  refine FailShown.comp h ?_
  clear h
  unfold State.orderHold
  dsimp -failIfUnchanged -proj only
  repeat' (with_reducible first
    | assumption | apply FailShown.refl | apply State.hold_failing | apply State.endLines_failing
    | apply State.answerAll_keeps FailShown.respects (by decide) | apply State.answer_keeps FailShown.respects (by decide)
    | apply State.wait_keeps FailShown.respects (by decide) | intro _ | split)

theorem State.restartSeq_failing {s₀ s : State} {n : Fin 128} {cause : Cause} (h : FailShown s₀ s) :
    FailShown s₀ (State.restartSeq s n cause) := by
  refine FailShown.comp h ?_
  clear h
  unfold State.restartSeq
  dsimp -failIfUnchanged -proj only
  repeat' (with_reducible first
    | assumption | apply FailShown.refl | apply State.hold_failing | intro _ | split)

theorem State.orderRestart_failing {s₀ s : State} {who : Asker} {n : Fin 128} (h : FailShown s₀ s) :
    FailShown s₀ (State.orderRestart s who n) := by
  refine FailShown.comp h ?_
  clear h
  unfold State.orderRestart
  dsimp -failIfUnchanged -proj only
  repeat' (with_reducible first
    | assumption | apply FailShown.refl | apply State.restartSeq_failing | apply State.answer_keeps FailShown.respects (by decide)
    | apply State.wait_keeps FailShown.respects (by decide) | intro _ | split)

theorem State.order_failing {s₀ s : State} {who : Asker} {m : Mgr} {n : Fin 128} {o : Order} {rival : Option Order} {deviceHold : Bool} (h : FailShown s₀ s) :
    FailShown s₀ (State.order s who m n o rival deviceHold) := by
  refine FailShown.comp h ?_
  clear h
  unfold State.order
  dsimp -failIfUnchanged -proj only
  repeat' (with_reducible first
    | assumption | apply FailShown.refl | apply State.orderQuarantine_failing | apply State.orderReadmit_failing
    | apply State.orderHold_failing | apply State.orderRelease_keeps FailShown.respects (by decide)
    | apply State.answer_keeps FailShown.respects (by decide) | apply State.orderRestart_failing | intro _ | split)

theorem State.beginArm_failing {s₀ s : State} {n : Fin 128} {p : PlateId} (h : FailShown s₀ s) :
    FailShown s₀ (State.beginArm s n p) := by
  refine FailShown.comp h ?_
  clear h
  unfold State.beginArm
  dsimp -failIfUnchanged -proj only
  repeat' (with_reducible first
    | assumption | apply FailShown.refl | apply State.modPlt_keeps FailShown.respects (by decide) | apply State.hold_failing
    | apply State.armStep_keeps FailShown.respects (by decide) | intro _ | split)

theorem State.rerun_failing {s₀ s : State} {a : Await} (h : FailShown s₀ s) :
    FailShown s₀ (State.rerun s a) := by
  refine FailShown.comp h ?_
  clear h
  unfold State.rerun
  dsimp -failIfUnchanged -proj only
  repeat' (with_reducible first
    | assumption | apply FailShown.refl | apply State.order_failing | apply State.endArming_keeps FailShown.respects (by decide)
    | apply State.beginArm_failing | intro _ | split
    | (refine FailShown.comp ?_ (FailShown.of_frame (Frame.put_awaits (fs := [.awaits]) (Frame.refl _ _) (by decide)) (by decide))))

end Sys2Proof.Machine
end


section
/-! SUPPORT. Clocks, links, configuration requests and the first steps of a device start (R124, R244, R277, R307, R309, R311). -/

namespace Sys2Proof.Machine

open Sys2Proof

/-! ## POR, and a start that does not go on -/

theorem exec_porRelease {s : State} (hs : s.dev.state = .por) (hc : s.dev.clockHeld = false) :
    ∃ t, exec .porRelease s = .next t ∧ t.dev.state = .shadow ∧ t.clk.refclk = true ∧ t.clk.fabric = true ∧ t.clk.mem = true ∧ t.clk.pool = true := by
  have hclk : ∀ u : State, (u.setDev .shadow).clk = u.clk := fun u => State.setDev_frame (Frame.refl _ u) (Field.sub_refl _) .clk (by decide)
  refine ⟨_, congrArg Host.Outcome.next (if_pos (by simp [hs, hc])), ?_, ?_⟩
  · rw [State.setDev_dev]
  · rw [hclk]
    exact ⟨rfl, rfl, rfl, rfl⟩

/-- What a device start does where the clock is not lost. -/
theorem State.start_eq {s : State} (rep : StartReport) (hc : s.dev.clockHeld = false) : s.start rep = match s.dev.state with
    | .shadow => (s.runShadow rep.tamper).romThenStart rep
    | .rom => s.romThenStart rep
    | .start => s.runStart rep
    | .por | .deviceRecovery | .running | .safeHold | .standby => s := by
  unfold State.start
  exact if_neg (by rw [hc]; exact Bool.false_ne_true)

theorem exec_deviceStart_idle {s : State} (rep : StartReport)
    (h : s.dev.clockHeld = true ∨ s.dev.state ∈ [DevState.por, .deviceRecovery, .running, .safeHold, .standby]) :
    exec (.deviceStart rep) s = .next s := by
  refine congrArg Host.Outcome.next ?_
  cases hc : s.dev.clockHeld with
  | true => exact if_pos hc
  | false =>
    rw [hc] at h
    rw [State.start_eq rep hc]
    simp only [Bool.false_eq_true, false_or, List.mem_cons, List.not_mem_nil, or_false] at h
    rcases h with h | h | h | h | h <;> rw [h]

theorem exec_deviceStart_absent {s : State} (rep : StartReport) (hc : s.dev.clockHeld = false) (hs : s.dev.state = .start)
    (ha : s.dev.ccAbsent = true) : exec (.deviceStart rep) s = .next s := by
  refine congrArg Host.Outcome.next ?_
  rw [State.start_eq rep hc, hs]
  exact if_pos ha

/-! ## SHADOW -/

/-- From s to t Graver's command may end, and no more of the fuse array changes. -/
def ArrayKept (s t : State) : Prop :=
  t.otp = { s.otp with busy := t.otp.busy, state := t.otp.state, lastStatus := t.otp.lastStatus, lastRegion := t.otp.lastRegion }

theorem ArrayKept.of_otp {s t : State} (h : t.otp = s.otp) : ArrayKept s t := by
  unfold ArrayKept
  rw [h]

theorem ArrayKept.comp {s t u : State} (h : ArrayKept s t) (h' : ArrayKept t u) : ArrayKept s u := by
  unfold ArrayKept at *
  rw [h', h]

theorem ArrayKept.of_frame {fs : List Field} {s t : State} (h : Frame fs s t) (hf : Field.otp ∉ fs) : ArrayKept s t := .of_otp (h .otp hf)

theorem State.endOtp_array (s : State) (st : Status) : ArrayKept s (s.endOtp st) := by
  unfold State.endOtp
  split
  · unfold ArrayKept
    dsimp only
    rw [show ∀ (u : State) src a, (State.deliver u src a).otp = u.otp from fun u src a =>
      State.deliver_frame (Frame.refl _ u) (Field.sub_refl _) .otp (by decide)]
    split <;> rfl
  · exact .of_otp rfl

theorem State.burnish_array (s : State) (source level : Nat) : ArrayKept s (s.burnish source level) := by
  have h1 : ArrayKept s ((s.burnishBegun source).forChans fun n s => s.burnishChan n) := .of_otp
    ((State.forChans_frame (Frame.refl _ _) (fun _ _ => State.burnishChan_frame (Frame.refl _ _) (Field.sub_refl _)) .otp (by decide)).trans
      (s.burnishBegun_frame source .otp (by decide)))
  have h2 : ArrayKept s (s.burnishHeld source) := h1.comp (State.endOtp_array _ stAborted)
  rw [State.burnish_told]
  generalize s.burnishHeld source = a at h2
  have h3 : ArrayKept a a.burnishKeys :=
    (ArrayKept.of_frame a.keysEmptied_frame (by decide)).comp (.of_frame a.burnishKeys_frame' (by decide))
  exact ((h2.comp h3).comp (.of_frame (State.storesEmptied_frame _) (by decide))).comp (.of_frame (State.burnishTold_frame _ source level) (by decide))

theorem DevKept.clock {s t : State} (h : DevKept s t) : t.dev.clockHeld = s.dev.clockHeld := by
  unfold DevKept at h
  rw [h]

theorem State.keysEmptied_clock (s : State) : s.keysEmptied.dev.clockHeld = s.dev.clockHeld := rfl

/-- A Burnish does not touch the record of a lost clock. -/
theorem State.burnish_clock (s : State) (source level : Nat) : (s.burnish source level).dev.clockHeld = s.dev.clockHeld := by
  have h1 := s.burnishHeld_dev source
  rw [State.burnish_told]
  generalize s.burnishHeld source = a at h1
  have h2 : DevKept a.keysEmptied (a.burnishKeys.storesEmptied.burnishTold source level) :=
    (a.burnishKeys_dev.comp (.of_frame (State.storesEmptied_frame _) (by decide))).comp (State.burnishTold_dev _ source level)
  exact h2.clock.trans (a.keysEmptied_clock.trans h1.clock)

/-- What holds of the clock and the array after a trip outside STANDBY. -/
theorem State.trip_start {s : State} (sources : List Nat) (hs : s.dev.state ≠ .standby) :
    ArrayKept s (s.trip sources) ∧ (s.trip sources).dev.clockHeld = s.dev.clockHeld ∧ (s.trip sources).part = s.part := by
  have hm := s.tripMarked_frame sources
  have hpart : (s.trip sources).part = s.part := State.trip_frame (Frame.refl _ s) (Field.sub_refl _) .part (by decide)
  have hstate : ((s.tripMarked sources).tripBurnt (s.tripNew sources)).dev.state ≠ .standby := by
    rw [State.tripBurnt_dev, show (s.tripMarked sources).dev = s.dev from hm .dev (by decide)]
    exact hs
  have heq : s.trip sources = (s.tripMarked sources).tripBurnt (s.tripNew sources) := by
    rw [State.trip_eq]
    split
    · exact if_neg hstate
    · rfl
  have hb : ∀ (v : State) l, ArrayKept v (v.tripBurnt l) ∧ (v.tripBurnt l).dev.clockHeld = v.dev.clockHeld := fun v l => by
    unfold State.tripBurnt
    split
    · exact ⟨v.burnish_array _ 3, v.burnish_clock _ 3⟩
    · exact ⟨.of_otp rfl, rfl⟩
  obtain ⟨h1, h2⟩ := hb (s.tripMarked sources) (s.tripNew sources)
  refine ⟨?_, ?_, hpart⟩
  · rw [heq]
    exact (ArrayKept.of_frame hm (by decide)).comp h1
  · rw [heq, h2]
    exact congrArg Device.clockHeld (hm .dev (by decide))

theorem State.shadowStep_otp (s : State) : s.shadowStep.otp = s.otp.fill ∧ s.shadowStep.part = partOf (s.otp.fill.shadowAt 0) ∧
    s.shadowStep.dev = s.dev := by
  have hf : Frame [.rings] { s with
      otp := s.otp.fill, part := partOf (s.otp.fill.shadowAt 0),
      clk := { s.clk with fabric := true, mem := true, pool := true, lpoTrimmed := !s.otp.fill.lpoUnusable } } s.shadowStep := by
    unfold State.shadowStep
    refine State.forAll_frame (Frame.refl _ _) fun r u => ?_
    split
    · exact State.raise_frame (Frame.refl _ u) (by decide)
    · exact State.raise_frame (Frame.refl _ u) (by decide)
    · exact Frame.refl _ u
  exact ⟨hf .otp (by decide), hf .part (by decide), hf .dev (by decide)⟩

/-- SHADOW resolves the array, takes the part's resources and goes on to ROM. -/
theorem State.runShadow_parts {s : State} (samples : BitVec 10) (hs : s.dev.state = .shadow) :
    (s.runShadow samples).dev.state = .rom ∧ (s.runShadow samples).dev.clockHeld = s.dev.clockHeld ∧
      (s.runShadow samples).part = partOf ((s.runShadow samples).otp.shadowAt 0) ∧
      (∀ r : Fin 6, vget (s.runShadow samples).otp.regions r = s.otp.regionAt r.1) ∧ (s.runShadow samples).otp.normal = s.otp.normal ∧
      (s.runShadow samples).otp.strict = s.otp.strict := by
  obtain ⟨hotp, hpart, hdev⟩ := s.shadowStep_otp
  obtain ⟨harr, hclock, htpart⟩ := State.trip_start (s := s.shadowStep) ((List.range 10).filter fun i => samples.getLsbD i)
    (by rw [hdev, hs]; decide)
  have hset : ∀ u : State, (u.setDev .rom).otp = u.otp ∧ (u.setDev .rom).part = u.part := fun u =>
    ⟨State.setDev_frame (Frame.refl _ u) (Field.sub_refl _) .otp (by decide), State.setDev_frame (Frame.refl _ u) (Field.sub_refl _) .part (by decide)⟩
  unfold State.runShadow
  generalize s.shadowStep.trip ((List.range 10).filter fun i => samples.getLsbD i) = v at harr hclock htpart
  obtain ⟨ho, hp⟩ := hset v
  unfold ArrayKept at harr
  rw [hotp] at harr
  have hshadow : v.otp.shadowAt 0 = s.otp.fill.shadowAt 0 := by rw [harr]; rfl
  have hregions : v.otp.regions = s.otp.fill.regions := by rw [harr]
  have hmargins : v.otp.normal = s.otp.normal ∧ v.otp.strict = s.otp.strict := by rw [harr]; exact ⟨rfl, rfl⟩
  rw [State.setDev_dev, ho, hp]
  refine ⟨rfl, hclock.trans (congrArg Device.clockHeld hdev), by rw [htpart, hpart, hshadow], fun r => ?_, hmargins⟩
  rw [hregions]
  show vget (Vector.ofFn fun r : Fin 6 => s.otp.regionAt r.1) r = _
  simp [vget]

theorem exec_deviceStart_shadow {s : State} (rep : StartReport) (hc : s.dev.clockHeld = false) (hs : s.dev.state = .shadow) :
    let u := s.runShadow rep.tamper
    exec (.deviceStart rep) s = exec (.deviceStart rep) u ∧ u.dev.state = .rom ∧ u.part = partOf (u.otp.shadowAt 0) ∧
      (∀ r : Fin 6, vget u.otp.regions r = s.otp.regionAt r.1) ∧ u.otp.normal = s.otp.normal ∧ u.otp.strict = s.otp.strict := by
  obtain ⟨hst, hclock, hpart, hregions, hn, hm⟩ := State.runShadow_parts rep.tamper hs
  refine ⟨congrArg Host.Outcome.next ?_, hst, hpart, hregions, hn, hm⟩
  rw [State.start_eq rep hc, State.start_eq rep (hclock.trans hc), hs, hst]

/-! ## ROM -/

theorem State.assertFail_shown (s : State) : s.assertFail.plat.failOn = true ∧ s.assertFail.dev = s.dev ∧ s.assertFail.ctl = s.ctl :=
  ⟨rfl, rfl, rfl⟩

theorem State.enterRecoveryDevice_parts (s : State) : s.enterRecoveryDevice.dev.state = .deviceRecovery ∧ s.enterRecoveryDevice.plat.failOn = true ∧
    ∀ n, (s.enterRecoveryDevice.ch n).sink = true := by
  have hset : ∀ u : State, (u.setDev .deviceRecovery).ctl = u.ctl := fun u =>
    State.setDev_frame (Frame.refl _ u) (Field.sub_refl _) .ctl (by decide)
  have hsink := s.sinkAll_sink
  unfold State.enterRecoveryDevice
  generalize s.sinkAll = u at hsink
  obtain ⟨hfail, hdev, hctl⟩ := (u.setDev .deviceRecovery).assertFail_shown
  refine ⟨?_, hfail, fun n => ?_⟩
  · rw [hdev, State.setDev_dev]
  · exact (congrArg (fun v => (vget v n).sink) (hctl.trans (hset u))).trans (hsink n)

theorem exec_deviceStart_rom {s : State} (rep : StartReport) (hc : s.dev.clockHeld = false) (hs : s.dev.state = .rom) (hi : s.inhibited = false)
    (hn : s.checkLedgerKey.fwReadTable.fwSelect.2 = none) : ∃ t, exec (.deviceStart rep) s = .next t ∧ t.dev.state = .deviceRecovery ∧
      t.plat.failOn = true ∧ ∀ n, (t.ch n).sink = true := by
  have hinh : s.checkLedgerKey.inhibited = false :=
    (congrArg Power.inhibit (State.checkLedgerKey_frame (Frame.refl _ s) (Field.sub_refl _) .power (by decide))).trans hi
  have hrom : s.runRom = s.checkLedgerKey.fwReadTable.fwSelect.1.enterRecoveryDevice := by
    unfold State.runRom
    dsimp only
    rw [hinh, hn]
    rfl
  obtain ⟨h1, h2, h3⟩ := s.checkLedgerKey.fwReadTable.fwSelect.1.enterRecoveryDevice_parts
  have hstart : s.start rep = s.checkLedgerKey.fwReadTable.fwSelect.1.enterRecoveryDevice := by
    rw [State.start_eq rep hc, hs]
    show (if s.runRom.dev.state = .start then s.runRom.enterStart.runStart rep else s.runRom) = _
    rw [hrom, h1]
    rfl
  refine ⟨_, congrArg Host.Outcome.next hstart, h1, h2, h3⟩

/-! ## Links and the pool PLL -/

theorem exec_linkUp {s : State} {m : Mgr} (speed : BitVec 3) (width : BitVec 4) (hon : s.mgrOn m = true) :
    ∃ t, exec (.linkUp m speed width) s = .next t ∧ Frame [.clk, .views] s t ∧ (t.view m).linkUp = true ∧
      (t.view m).linkSpeed = speed ∧ (t.view m).linkWidth = width ∧ (t.view m).wake = false ∧ t.clk.pcie.get m = true ∧
      (t.view m).retrains = (if (s.view m).linkUp then satInc (s.view m).retrains else (s.view m).retrains) ∧ t.view m.other = s.view m.other := by
  refine ⟨_, congrArg Host.Outcome.next (if_neg (by rw [hon]; exact Bool.false_ne_true)), ?_, ?_⟩
  · exact State.modView_frame (Frame.put_clk (Frame.refl _ s) (by decide)) (by decide)
  · rw [State.view_modView, if_pos rfl, State.view_modView, if_neg (Mgr.other_ne m)]
    exact ⟨rfl, rfl, rfl, rfl, PerMgr.get_set_self _ _ _, rfl, rfl⟩

theorem exec_linkDown {s : State} {m : Mgr} (hl : (s.view m).linkUp = true) : ∃ t, exec (.linkDown m) s = .next t ∧ Frame [.clk, .views] s t ∧
    (t.view m).linkUp = false ∧ t.clk.pcie.get m = false ∧ t.view m.other = s.view m.other := by
  refine ⟨_, congrArg Host.Outcome.next (if_neg (by rw [hl]; exact Bool.false_ne_true)), ?_, ?_⟩
  · exact State.modView_frame (Frame.put_clk (Frame.refl _ s) (by decide)) (by decide)
  · rw [State.view_modView, if_pos rfl, State.view_modView, if_neg (Mgr.other_ne m)]
    exact ⟨rfl, PerMgr.get_set_self _ _ _, rfl⟩

/-- A pool channel of the PLL that has lost lock. -/
def State.pllOut (k : Fin 16) (s : State) : State := if (vget s.pool.chans k).state = 2 then s.poolOut k outPll else s

theorem State.pllOut_own (k : Fin 16) (s : State) : (vget (s.pllOut k).pool.chans k).state ≠ 2 := by
  unfold State.pllOut
  split
  · have h : (vget (s.poolOut k outPll).pool.chans k) = { vget s.pool.chans k with state := 3 } :=
      (congrArg (fun p : Pool => vget p.chans k) (State.unitOut_frame (Frame.refl _ _) (Field.sub_refl _) .pool (by decide))).trans
        (vget_vmod_self _ _ _)
    rw [h]
    exact (by decide : (3 : BitVec 3) ≠ 2)
  · assumption

theorem State.pllOut_ne {k j : Fin 16} (hj : j ≠ k) (s : State) : vget (s.pllOut k).pool.chans j = vget s.pool.chans j := by
  unfold State.pllOut
  split
  · exact (congrArg (fun p : Pool => vget p.chans j) (State.unitOut_frame (Frame.refl _ _) (Field.sub_refl _) .pool (by decide))).trans
      (vget_vmod_ne _ _ hj)
  · rfl

theorem State.pllOut_all (s : State) (l : List (Fin 16)) : ∀ k, k ∈ l ∨ (vget s.pool.chans k).state ≠ 2 →
    (vget (s.forAll l State.pllOut).pool.chans k).state ≠ 2 := by
  induction l generalizing s with
  | nil => exact fun k h => h.elim (fun h => absurd h List.not_mem_nil) id
  | cons j l ih =>
    intro k h
    refine ih (s.pllOut j) k ?_
    by_cases hkj : k = j
    · subst hkj
      exact .inr (s.pllOut_own k)
    · rw [State.pllOut_ne hkj]
      exact h.imp (fun h => (List.mem_cons.1 h).resolve_left hkj) id

theorem exec_poolPllUnlock {s : State} (h : s.clk.pool = true) :
    ∃ t, exec .poolPllUnlock s = .next t ∧ t.clk.pool = false ∧ ∀ k, (vget t.pool.chans k).state ≠ 2 := by
  have he : exec .poolPllUnlock s = .next (({ s with clk := { s.clk with pool := false } } : State).forAll (List.finRange 16) State.pllOut) :=
    congrArg Host.Outcome.next (if_neg (by rw [h]; exact Bool.false_ne_true))
  refine ⟨_, he, ?_, fun k => State.pllOut_all _ _ k (.inl (List.mem_finRange k))⟩
  have hf : Frame [.pool, .rings] { s with clk := { s.clk with pool := false } }
      (({ s with clk := { s.clk with pool := false } } : State).forAll (List.finRange 16) State.pllOut) :=
    State.forAll_frame (Frame.refl _ _) fun k u => by
      unfold State.pllOut
      split
      · exact State.poolOut_frame (Frame.refl _ u) (by decide)
      · exact Frame.refl _ u
  exact congrArg Clk.pool (hf .clk (by decide))

/-! ## Configuration requests -/

/-- A function before the first START: it answers Request Retry Status. -/
def State.retries (s : State) : Bool := s.dev.cold && (s.dev.state = .por || s.dev.state = .shadow || s.dev.state = .rom)

theorem State.retries_iff (s : State) : s.retries = true ↔ s.dev.cold = true ∧ s.dev.state ∈ [DevState.por, .shadow, .rom] := by
  unfold State.retries
  simp [or_assoc]

/-- What a request makes of the function. -/
def View.requested (x : View) (retry : Bool) (reg : CfgReg) (write : Option Word) : View :=
  if retry then { x with cfgRetry := true }
  else match write with
    | none => { x with cfgRetry := false, cfgValue := x.cfg.read reg }
    | some v => View.flushMsix { x with cfgRetry := false, cfg := x.cfg.write v reg }

theorem exec_configurationRequest_eq {s : State} {m : Mgr} (reg : CfgReg) (write : Option Word) (hon : s.mgrOn m = true) :
    exec (.configurationRequest ⟨m, reg, write⟩) s = .next (s.modView m fun x => x.requested s.retries reg write) := by
  refine congrArg Host.Outcome.next ((if_neg (by rw [hon]; exact Bool.false_ne_true)).trans ?_)
  unfold View.requested
  cases hr : s.retries with
  | true => exact if_pos hr
  | false =>
    refine (if_neg (by unfold State.retries at hr; rw [hr]; exact Bool.false_ne_true)).trans ?_
    cases write <;> rfl

theorem View.flushMsix_cfg (x : View) : x.flushMsix.cfg = x.cfg ∧ x.flushMsix.cfgRetry = x.cfgRetry := by
  unfold View.flushMsix
  split <;> exact ⟨rfl, rfl⟩

theorem View.requested_retry (x : View) (retry : Bool) (reg : CfgReg) (write : Option Word) : (x.requested retry reg write).cfgRetry = retry := by
  cases retry with
  | true => rfl
  | false => cases write with
    | none => rfl
    | some v => exact (View.flushMsix_cfg _).2

theorem View.requested_read (x : View) (retry : Bool) (reg : CfgReg) : (x.requested retry reg none).cfg = x.cfg ∧
    ((x.requested retry reg none).cfgRetry = false → (x.requested retry reg none).cfgValue = x.cfg.read reg) := by
  cases retry with
  | true => exact ⟨rfl, nofun⟩
  | false => exact ⟨rfl, fun _ => rfl⟩

theorem View.requested_write {x : View} {retry : Bool} {reg : CfgReg} {v : Word} (h : (x.requested retry reg (some v)).cfgRetry = false) :
    (x.requested retry reg (some v)).cfg = x.cfg.write v reg := by
  rw [View.requested_retry] at h
  subst h
  exact (View.flushMsix_cfg _).1

/-- Command keeps Memory Space Enable and Bus Master Enable. -/
theorem PciCfg.write_command (c : PciCfg) (v : Word) : (c.write v .commandStatus).master = (v.getLsbD 2 && !c.d3) ∧
    (c.write v .commandStatus).memory = (v.getLsbD 1 && !c.d3) := by
  unfold PciCfg.write PciCfg.master PciCfg.memory
  simp [BitVec.getLsbD_and]

theorem exec_configurationRequest {s : State} {m : Mgr} {reg : CfgReg} {write : Option Word} (hon : s.mgrOn m = true) :
    ∃ t, exec (.configurationRequest ⟨m, reg, write⟩) s = .next t ∧ Frame [.views] s t ∧ t.view m.other = s.view m.other ∧
      ((t.view m).cfgRetry = true ↔ s.dev.cold = true ∧ s.dev.state ∈ [DevState.por, .shadow, .rom]) ∧
      (let normal := (t.view m).cfgRetry = false
       (write = none → (t.view m).cfg = (s.view m).cfg ∧ (normal → (t.view m).cfgValue = (s.view m).cfg.read reg)) ∧
       (∀ v, write = some v → normal →
         (reg = .commandStatus → (t.view m).cfg.master = (v.getLsbD 2 && !(s.view m).cfg.d3) ∧
           (t.view m).cfg.memory = (v.getLsbD 1 && !(s.view m).cfg.d3)) ∧
         (reg = .msixControl → (t.view m).cfg.msixEn = v.getLsbD 15 ∧ (t.view m).cfg.msixMask = v.getLsbD 14) ∧
         (reg ∈ [CfgReg.id, .msixTable, .msixPba] → (t.view m).cfg = (s.view m).cfg))) := by
  refine ⟨_, exec_configurationRequest_eq reg write hon, State.modView_frame (Frame.refl _ s) (by decide), ?_⟩
  rw [State.view_modView, if_neg (Mgr.other_ne m), State.view_modView, if_pos rfl]
  refine ⟨rfl, ?_, fun h => ?_, fun v h hr => ?_⟩
  · rw [View.requested_retry, State.retries_iff]
  · subst h
    exact View.requested_read _ _ reg
  · subst h
    rw [View.requested_write hr]
    refine ⟨fun e => ?_, fun e => ?_, fun e => ?_⟩
    · subst e
      exact PciCfg.write_command _ v
    · subst e
      exact ⟨rfl, rfl⟩
    · simp only [List.mem_cons, List.not_mem_nil, or_false] at e
      rcases e with e | e | e <;> subst e <;> rfl

end Sys2Proof.Machine
end


section
/-! SUPPORT. START, RUNNING and SAFE_HOLD at a device start, and O58 (R90, R141, R206, R217, R307). -/

namespace Sys2Proof.Machine

open Sys2Proof

/-! ## What runs again once the device serves -/

/-- From s to t the policy in force, the state of KEY, the supplies and the device's word stay. -/
structure StartKept (s t : State) : Prop where
  pol : t.pol = s.pol
  key : SeededAlike s t
  power : t.power = s.power
  dev : DevKept s t

theorem StartKept.refl (s : State) : StartKept s s := ⟨rfl, .refl s, rfl, .refl s⟩

theorem StartKept.comp {s t u : State} (h : StartKept s t) (h' : StartKept t u) : StartKept s u :=
  ⟨h'.pol.trans h.pol, h.key.comp h'.key, h'.power.trans h.power, h.dev.comp h'.dev⟩

theorem StartKept.of_frame {fs : List Field} {s t : State} (h : Frame fs s t)
    (hf : Field.pol ∉ fs ∧ Field.drbg ∉ fs ∧ Field.power ∉ fs ∧ Field.dev ∉ fs) : StartKept s t :=
  ⟨h .pol hf.1, .of_frame h hf.2.1, h .power hf.2.2.1, .of_frame h hf.2.2.2⟩

theorem State.beginArm_dev (s : State) (n : Fin 128) (p : PlateId) : DevKept s (s.beginArm n p) := by
  have h1 : ∀ f, DevKept s (s.modPlt n f) := fun f => State.modPlt_keeps DevKept.respects (by decide) (.refl s)
  have harm : ∀ {u : State}, DevKept s u → DevKept s (u.armStep n) := fun h => State.armStep_completes DevKept.completes h
  unfold State.beginArm
  dsimp only
  split
  · exact related_ite (harm (State.hold_dev (h1 _))) (State.hold_dev (h1 _))
  · exact harm (h1 _)

theorem State.rerun_dev (s : State) (a : Await) : DevKept s (s.rerun a) := by
  have hw : ∀ w, DevKept s { s with awaits := w } := fun w => .of_frame (Frame.put_awaits (Frame.refl [.awaits] s) (by decide)) (by decide)
  unfold State.rerun
  split
  · exact .refl s
  · exact .refl s
  · split
    · exact State.order_dev (.refl s)
    · dsimp only
      split
      · split
        · exact State.endArming_completes DevKept.completes (hw _)
        · split
          · exact related_ite (hw _) ((hw _).comp (State.beginArm_dev _ _ _))
          · exact hw _
      · exact hw _

theorem State.rerun_kept (s : State) (a : Await) : StartKept s (s.rerun a) := by
  have hf : Frame _ s (s.rerun a) := State.rerun_frame (Frame.refl _ s) (Field.sub_refl _)
  exact ⟨hf .pol (by decide), State.rerun_seeded (.refl s), hf .power (by decide), s.rerun_dev a⟩

theorem StartKept.forAll {α : Type} {f : α → State → State} (hf : ∀ x s, StartKept s (f x s)) (s : State) (l : List α) :
    StartKept s (s.forAll l f) := by
  induction l generalizing s with
  | nil => exact .refl s
  | cons x l ih => exact (hf x s).comp (ih _)

theorem State.rerunAll_kept (s : State) : StartKept s s.rerunAll := by
  unfold State.rerunAll
  refine StartKept.comp ?_ (StartKept.forAll (fun a u => u.rerun_kept a) _ _)
  exact .of_frame (Frame.put_awaits (Frame.refl [.awaits] s) (by decide)) (by decide)

theorem State.rerunAll_failing (s : State) : FailShown s s.rerunAll := by
  unfold State.rerunAll
  refine State.forAll_keeps FailShown.respects ?_ fun _ _ => State.rerun_failing (.refl _)
  exact .of_frame (Frame.put_awaits (Frame.refl [.awaits] s) (by decide)) (by decide)

theorem State.dispatchJobs_kept (s : State) : StartKept s s.dispatchJobs := by
  have hf : Frame _ s s.dispatchJobs := State.dispatchJobs_frame (Frame.refl _ s) (Field.sub_refl _)
  exact ⟨hf .pol (by decide), .of_frame hf (by decide), hf .power (by decide), State.dispatchJobs_dev (.refl s)⟩

/-- What waited at a warm reset runs again, and the cores take what waits. -/
def State.resumed (s : State) : State := s.rerunAll.restampJobs.dispatchJobs

theorem State.resumed_kept (s : State) : StartKept s s.resumed :=
  (s.rerunAll_kept.comp (.of_frame (State.restampJobs_frame (Frame.refl _ _) (Field.sub_refl _)) (by decide))).comp (State.dispatchJobs_kept _)

theorem State.resumed_failing (s : State) : FailShown s s.resumed :=
  (s.rerunAll_failing.comp (.of_frame (State.restampJobs_frame (Frame.refl _ _) (Field.sub_refl _)) (by decide))).comp
    (.of_frame (State.dispatchJobs_frame (Frame.refl _ _) (Field.sub_refl _)) (by decide))

/-! ## RUNNING -/

theorem State.startMwd_kept (s : State) (m : Mgr) : StartKept s (s.startMwd m) := by
  have hf : Frame _ s (s.startMwd m) := State.startMwd_frame (Frame.refl _ s) (Field.sub_refl _)
  exact ⟨hf .pol (by decide), State.startMwd_seeded (.refl s), hf .power (by decide), .of_frame hf (by decide)⟩

theorem State.startRanked_kept (s : State) (n : Fin 128) : StartKept s (s.startRanked n) := by
  have hf : Frame _ s (s.startRanked n) := State.startRanked_frame (Frame.refl _ s) (Field.sub_refl _)
  refine ⟨hf .pol (by decide), State.startRanked_seeded (.refl s), hf .power (by decide), ?_⟩
  unfold State.startRanked
  exact related_ite (State.modCtl_keeps DevKept.respects (by decide) (State.startTaking_completes DevKept.completes (.refl s))) (.refl s)

/-- The times of RUNNING, with the deadline of a device firmware on proof. -/
def State.serving (s : State) : State :=
  { s with
    dev := { s.dev with runSince := s.now, idleSince := s.now },
    devfw := { s.devfw with deadline := if s.devfw.onProof then some (s.now + 60 * second) else none } }

/-- The managers' watchdogs and the ranks begin. -/
def State.ranksOn (s : State) : State := ((s.startMwd .a).startMwd .b).forChans fun n s => s.startRanked n

/-- RUNNING, or STANDBY while SYS_PGOOD is low. -/
def State.orStandby (s : State) : State := if s.power.sysPgood then s else s.enterStandby

/-- RUNNING, with everything that begins there. -/
def State.inService (s : State) : State := (s.setDev .running).serving.ranksOn.resumed

theorem State.enterRunning_eq (s : State) : s.enterRunning = s.inService.orStandby := by
  unfold State.enterRunning State.inService
  extract_lets u f d v w
  have hv : v = (s.setDev .running).serving := rfl
  have hw : w = v.ranksOn.resumed := rfl
  rw [← hv, ← hw]
  clear_value w
  rfl

theorem State.ranksOn_kept (s : State) : StartKept s s.ranksOn :=
  ((State.startMwd_kept _ _).comp (State.startMwd_kept _ _)).comp (StartKept.forAll (fun n u => u.startRanked_kept n) _ _)

theorem State.serving_parts (s : State) : s.serving.dev.state = s.dev.state ∧ s.serving.dev.runSince = s.now ∧ s.serving.pol = s.pol ∧
    SeededAlike s s.serving ∧ s.serving.power = s.power := ⟨rfl, rfl, rfl, rfl, rfl⟩

theorem State.inService_parts (s : State) : s.inService.dev.state = .running ∧ s.inService.dev.runSince = s.now ∧
    s.inService.pol = s.pol ∧ SeededAlike s s.inService ∧ s.inService.power = s.power := by
  have hf : Frame [.trace, .rings, .dev] s (s.setDev .running) := State.setDev_frame (Frame.refl _ s) (Field.sub_refl _)
  have hs : (s.setDev .running).dev.state = .running := by rw [State.setDev_dev]
  unfold State.inService
  generalize s.setDev .running = u at hf hs
  obtain ⟨h1, h2, h3, h4, h5⟩ := u.serving_parts
  have hk : StartKept u.serving u.serving.ranksOn.resumed := (State.ranksOn_kept _).comp (State.resumed_kept _)
  have hkey : SeededAlike s u := .of_frame hf (by decide)
  have hd := hk.dev
  unfold DevKept at hd
  exact ⟨hk.dev.state.trans (h1.trans hs), (congrArg Device.runSince hd).trans (h2.trans (hf .now (by decide))),
    hk.pol.trans (h3.trans (hf .pol (by decide))), (hkey.comp h4).comp hk.key, hk.power.trans (h5.trans (hf .power (by decide)))⟩

theorem State.enterStandby_run (s : State) : s.enterStandby.dev.runSince = s.dev.runSince := by
  have h : DevKept s (s.keepLines.forChans State.standbyChan) := by
    refine State.forChans_keeps DevKept.respects ?_ fun n u => ?_
    · exact .of_frame (State.keepLines_frame (Frame.refl _ s) (Field.sub_refl _)) (by decide)
    · unfold State.standbyChan
      exact related_ite (State.modCtl_keeps DevKept.respects (by decide) (State.hold_dev (.refl u))) (.refl u)
  rw [State.enterStandby_eq, State.setDev_dev]
  generalize s.keepLines.forChans State.standbyChan = w at h
  unfold DevKept at h
  exact (congrArg Device.runSince h : _)

theorem State.enterRunning_parts (s : State) : s.enterRunning.pol = s.pol ∧ SeededAlike s s.enterRunning ∧
    s.enterRunning.dev.state = (if s.power.sysPgood then .running else .standby) ∧ s.enterRunning.dev.runSince = s.now := by
  obtain ⟨h1, h2, h3, h4, h5⟩ := s.inService_parts
  have hpg : s.inService.power.sysPgood = s.power.sysPgood := congrArg Power.sysPgood h5
  have hf : Frame _ s.inService s.inService.enterStandby := State.enterStandby_frame (Frame.refl _ _) (Field.sub_refl _)
  rw [State.enterRunning_eq]
  unfold State.orStandby
  rw [hpg]
  split
  · exact ⟨h3, h4, h1, h2⟩
  · exact ⟨(hf .pol (by decide)).trans h3, h4.comp (.of_frame hf (by decide)), State.enterStandby_dev _,
      (State.enterStandby_run _).trans h2⟩

/-! ## SAFE_HOLD -/

theorem State.enterSafeHold_parts {s : State} (hs : s.dev.state ≠ .safeHold) : s.enterSafeHold.dev.state = .safeHold ∧
    s.enterSafeHold.plat.failOn = true := by
  have he : ∃ u : State, s.enterSafeHold = (u.setDev .safeHold).assertFail := ⟨_, if_neg hs⟩
  obtain ⟨u, he⟩ := he
  obtain ⟨hfail, hdev, -⟩ := (u.setDev .safeHold).assertFail_shown
  rw [he, hdev, State.setDev_dev]
  exact ⟨rfl, hfail⟩

theorem State.safeStart_parts {s : State} (hs : s.dev.state ≠ .safeHold) : s.enterSafeHold.resumed.pol = s.pol ∧
    SeededAlike s s.enterSafeHold.resumed ∧ s.enterSafeHold.resumed.dev.state = .safeHold ∧ s.enterSafeHold.resumed.plat.failOn = true := by
  obtain ⟨h1, h2⟩ := State.enterSafeHold_parts hs
  have hf : Frame _ s s.enterSafeHold := State.enterSafeHold_frame (Frame.refl _ s) (Field.sub_refl _)
  have hk := s.enterSafeHold.resumed_kept
  exact ⟨hk.pol.trans (hf .pol (by decide)), (SeededAlike.of_frame hf (by decide)).comp hk.key, hk.dev.state.trans h1,
    (State.resumed_failing _).trans h2⟩

/-! ## START -/

/-- The vault at a start changes no more of the device's word than ZEROIZED. -/
theorem State.startVault_dev (s : State) (bad : List Nat) : ∃ z, (s.startVault bad).dev = { s.dev with zeroised := z } := by
  have hkeys : ∀ (u : State) d, (u.putVaultKeys d).dev = u.dev := fun u d => State.putVaultKeys_frame (Frame.refl _ u) (Field.sub_refl _) .dev (by decide)
  have hbad : ∀ (u : State) v b, (u.badEntries v b).dev = u.dev := fun u v b => State.badEntries_frame (Frame.refl _ u) (Field.sub_refl _) .dev (by decide)
  have hcommit : ∀ (u : State) k c, (u.commitVault k c).dev = u.dev := fun u k c => State.commitVault_frame (Frame.refl _ u) (Field.sub_refl _) .dev (by decide)
  have hlog : ∀ (u : State) k l, (u.logKey k l).dev = u.dev := fun u k l => State.logKey_frame (Frame.refl _ u) (Field.sub_refl _) .dev (by decide)
  unfold State.startVault
  dsimp only
  cases s.keys.vault.cur with
  | none =>
    refine ⟨s.keys.vault.lost, ?_⟩
    dsimp only
    split
    · rfl
    · split
      · rfl
      · split
        · exact (hlog _ _ _).trans (hcommit _ _ _)
        · exact hcommit _ _ _
  | some v =>
    refine ⟨v.salt.isNone, ?_⟩
    dsimp only
    split
    · rfl
    · split
      · rfl
      · split
        · exact (hkeys _ _).trans (hbad _ _ _)
        · exact hbad _ _ _

theorem State.startImage_imm (s : State) (trained : Byte) : (s.startImage trained).imm.chIn = trained := rfl

/-- The bring-up before the channels. -/
def State.broughtUp (s : State) (rep : StartReport) : State :=
  ((((s.startImage rep.imgChannels).mountPool rep).startPolicy.startVault rep.vaultBad).noteKeepLost.completeAdvances).startPorts

theorem State.bringUp_eq (s : State) (rep : StartReport) :
    s.bringUp rep = ((s.broughtUp rep).forChans fun n s => s.startChan n).noteBrownout := rfl

/-- What the steps of START leave, up to the choice of the device state. -/
structure BroughtUp (s : State) (rep : StartReport) (t : State) : Prop where
  pol : t.pol = s.polLedger
  key : SeededAlike s t
  state : t.dev.state = s.dev.state
  latch : t.dev.safeLatch = s.dev.safeLatch
  chIn : t.imm.chIn = rep.imgChannels
  otp : t.otp = s.otp
  sysPgood : t.power.sysPgood = s.power.sysPgood
  now : t.now = s.now

theorem BroughtUp.of_frame {fs : List Field} {s t u : State} {rep : StartReport} (h : BroughtUp s rep t) (hf : Frame fs t u)
    (hd : DevKept t u) (hfs : Field.pol ∉ fs ∧ Field.drbg ∉ fs ∧ Field.imm ∉ fs ∧ Field.otp ∉ fs ∧ Field.now ∉ fs)
    (hp : u.power.sysPgood = t.power.sysPgood) : BroughtUp s rep u where
  pol := (hf .pol hfs.1).trans h.pol
  key := h.key.comp (.of_frame hf hfs.2.1)
  state := hd.state.trans h.state
  latch := by
    unfold DevKept at hd
    exact (congrArg Device.safeLatch hd).trans h.latch
  chIn := (congrArg ImageMem.chIn (hf .imm hfs.2.2.1)).trans h.chIn
  otp := (hf .otp hfs.2.2.2.1).trans h.otp
  sysPgood := hp.trans h.sysPgood
  now := (hf .now hfs.2.2.2.2).trans h.now

theorem State.broughtUp_parts (s : State) (rep : StartReport) : BroughtUp s rep (s.broughtUp rep) := by
  have h1 : Frame [.imm, .drbg, .drawn, .keys, .pool, .rings] s ((s.startImage rep.imgChannels).mountPool rep) :=
    State.mountPool_frame (State.startImage_frame (Frame.refl _ s) (by decide)) (by decide)
  have hkey : SeededAlike s ((s.startImage rep.imgChannels).mountPool rep) :=
    (State.startImage_seeded (.refl s)).comp (.of_frame (State.mountPool_frame (Frame.refl _ _) (Field.sub_refl _)) (by decide))
  have hch : ((s.startImage rep.imgChannels).mountPool rep).imm.chIn = rep.imgChannels :=
    (congrArg ImageMem.chIn (State.mountPool_frame (Frame.refl _ _) (Field.sub_refl _) .imm (by decide))).trans (s.startImage_imm _)
  unfold State.broughtUp
  generalize (s.startImage rep.imgChannels).mountPool rep = a at h1 hkey hch
  have hpol : a.startPolicy.pol = s.polLedger := Eq.trans rfl (h1 .polLedger (by decide))
  have hp : Frame [.stn, .pol] a a.startPolicy := State.startPolicy_frame (Frame.refl _ a) (Field.sub_refl _)
  generalize a.startPolicy = b at hpol hp
  have hdev : b.dev = s.dev := (hp .dev (by decide)).trans (h1 .dev (by decide))
  have hb : BroughtUp s rep b :=
    ⟨hpol, hkey.comp (.of_frame hp (by decide)), congrArg Device.state hdev, congrArg Device.safeLatch hdev,
      (congrArg ImageMem.chIn (hp .imm (by decide))).trans hch, (hp .otp (by decide)).trans (h1 .otp (by decide)),
      congrArg Power.sysPgood ((hp .power (by decide)).trans (h1 .power (by decide))), (hp .now (by decide)).trans (h1 .now (by decide))⟩
  obtain ⟨z, hz⟩ := b.startVault_dev rep.vaultBad
  have hv : Frame _ b (b.startVault rep.vaultBad) := State.startVault_frame (Frame.refl _ b) (Field.sub_refl _)
  have hc : BroughtUp s rep (b.startVault rep.vaultBad) :=
    ⟨(hv .pol (by decide)).trans hb.pol, hb.key.comp (.of_frame hv (by decide)), (congrArg Device.state hz).trans hb.state,
      (congrArg Device.safeLatch hz).trans hb.latch, (congrArg ImageMem.chIn (hv .imm (by decide))).trans hb.chIn,
      (hv .otp (by decide)).trans hb.otp, (congrArg Power.sysPgood (hv .power (by decide))).trans hb.sysPgood, (hv .now (by decide)).trans hb.now⟩
  generalize b.startVault rep.vaultBad = c at hc
  have hf : Frame [.rings, .mins, .trace, .led, .fps, .prof] c (c.noteKeepLost.completeAdvances.startPorts) :=
    State.startPorts_frame (State.completeAdvances_frame (State.noteKeepLost_frame (Frame.refl _ c) (by decide)) (by decide)) (by decide)
  exact hc.of_frame hf (.of_frame hf (by decide)) (by decide) (congrArg Power.sysPgood (hf .power (by decide)))

theorem State.startChan_dev (s : State) (n : Fin 128) : DevKept s (s.startChan n) := by
  unfold State.startChan
  dsimp only
  refine related_ite (.refl s) (related_ite ?_ (State.hold_dev (.refl s)))
  exact (State.hold_dev (.refl s)).comp (.of_frame (State.transition_frame (Frame.refl _ _) (Field.sub_refl _)) (by decide))

theorem State.noteBrownout_pgood (s : State) : s.noteBrownout.power.sysPgood = s.power.sysPgood := by
  have hraise : ∀ (u : State) e c l, (u.raise e c l).power = u.power := fun u e c l =>
    State.raise_frame (Frame.refl [.rings] u) (by decide) .power (by decide)
  unfold State.noteBrownout
  split
  · exact (congrArg Power.sysPgood (hraise _ _ _ _)).trans rfl
  · rfl

/-- Every step up to the choice of the device state. -/
theorem State.bringUp_parts (s : State) (rep : StartReport) : BroughtUp s rep (s.bringUp rep).lockIdentity := by
  have h1 := s.broughtUp_parts rep
  rw [State.bringUp_eq]
  generalize s.broughtUp rep = a at h1
  have hf : Frame _ a (a.forChans fun n s => s.startChan n) :=
    State.forChans_frame (Frame.refl _ a) fun n u => State.startChan_frame (Frame.refl _ u) (Field.sub_refl _)
  have h2 : BroughtUp s rep (a.forChans fun n s => s.startChan n) :=
    h1.of_frame hf (State.forChans_keeps DevKept.respects (.refl a) fun n u => u.startChan_dev n) (by decide)
      (congrArg Power.sysPgood (hf .power (by decide)))
  generalize (a.forChans fun n s => s.startChan n) = b at h2
  have hb : Frame _ b b.noteBrownout := State.noteBrownout_frame (Frame.refl _ b) (Field.sub_refl _)
  have h3 : BroughtUp s rep b.noteBrownout := h2.of_frame hb (.of_frame hb (by decide)) (by decide) b.noteBrownout_pgood
  have hl : Frame _ b.noteBrownout b.noteBrownout.lockIdentity := State.lockIdentity_frame (Frame.refl _ _) (Field.sub_refl _)
  exact h3.of_frame hl (.of_frame hl (by decide)) (by decide) (congrArg Power.sysPgood (hl .power (by decide)))

/-- The reasons for SAFE_HOLD at a start. -/
abbrev State.mustHold (s : State) (trained : Byte) : Prop :=
  popCount trained < 7 ∨ s.dev.safeLatch = true ∨ (s.otp.region? 4 = .failed ∧ s.otp.lifecycle ≠ 0) ∨ s.otp.lifecycle = 3

theorem BroughtUp.startsSafe {s t : State} {rep : StartReport} (h : BroughtUp s rep t) : t.startsSafe = true ↔ s.mustHold rep.imgChannels := by
  unfold State.startsSafe State.mustHold
  rw [h.chIn, h.latch, h.otp]
  simp only [Bool.or_eq_true, Bool.and_eq_true, decide_eq_true_eq, or_assoc]

/-- The start once KEY is seeded. -/
def State.startOn (s : State) (rep : StartReport) : State :=
  if (s.bringUp rep).lockIdentity.startsSafe then (s.bringUp rep).lockIdentity.enterSafeHold.resumed
  else (s.bringUp rep).lockIdentity.enterRunning

theorem State.startOn_parts {s : State} (rep : StartReport) (hs : s.dev.state = .start) (hk : s.drbg.keyState = 1) :
    (s.startOn rep).drbg.keyState = 1 ∧ (s.startOn rep).pol = s.polLedger ∧
      if s.mustHold rep.imgChannels then (s.startOn rep).dev.state = .safeHold ∧ (s.startOn rep).plat.failOn = true
      else (s.startOn rep).dev.state = (if s.power.sysPgood then .running else .standby) ∧ (s.startOn rep).dev.runSince = s.now := by
  have hb := s.bringUp_parts rep
  unfold State.startOn
  generalize (s.bringUp rep).lockIdentity = b at hb
  have hkb : b.drbg.keyState = 1 := hb.key.trans hk
  by_cases hsafe : s.mustHold rep.imgChannels
  · obtain ⟨h1, h2, h3, h4⟩ := State.safeStart_parts (s := b) (by rw [hb.state, hs]; decide)
    rw [if_pos (hb.startsSafe.2 hsafe), if_pos hsafe]
    exact ⟨h2.trans hkb, h1.trans hb.pol, h3, h4⟩
  · obtain ⟨h1, h2, h3, h4⟩ := b.enterRunning_parts
    rw [if_neg fun e => hsafe (hb.startsSafe.1 e), if_neg hsafe]
    exact ⟨h2.trans hkb, h1.trans hb.pol, by rw [h3, hb.sysPgood], h4.trans hb.now⟩

theorem State.runStart_present {s : State} (rep : StartReport) (ha : s.dev.ccAbsent = false) : s.runStart rep =
    if (if s.drbg.keyState = 1 then s else s.entropyTest rep.entropyOk).drbg.keyState ≠ 1 then
      if s.drbg.keyState = 1 then s else s.entropyTest rep.entropyOk
    else (if s.drbg.keyState = 1 then s else s.entropyTest rep.entropyOk).startOn rep := by
  unfold State.runStart
  rw [if_neg (by rw [ha]; exact Bool.false_ne_true)]
  rfl

theorem State.entropyTest_key (s : State) (pass : Bool) : (s.entropyTest pass).drbg.keyState = if pass then 1 else 2 := by
  cases pass with
  | true => rfl
  | false => exact congrArg Drbg.keyState (State.raise_frame (Frame.refl [.rings] _) (by decide) .drbg (by decide))

theorem exec_deviceStart_start {s : State} (rep : StartReport) (hc : s.dev.clockHeld = false) (hs : s.dev.state = .start)
    (ha : s.dev.ccAbsent = false) : ∃ t, exec (.deviceStart rep) s = .next t ∧
      (if s.drbg.keyState ≠ 1 ∧ rep.entropyOk = false then t.dev.state = .start ∧ t.drbg.keyState = 2 ∧ t.ctl = s.ctl ∧ t.imm = s.imm
       else t.drbg.keyState = 1 ∧ t.pol = s.polLedger ∧
         if s.mustHold rep.imgChannels then t.dev.state = .safeHold ∧ t.plat.failOn = true
         else t.dev.state = (if s.power.sysPgood then .running else .standby) ∧ t.dev.runSince = s.now) := by
  have hexec : exec (.deviceStart rep) s = .next (s.runStart rep) := by
    refine congrArg Host.Outcome.next ?_
    rw [State.start_eq rep hc, hs]
  refine ⟨_, hexec, ?_⟩
  rw [State.runStart_present rep ha]
  have hf : Frame [.rings, .drbg] s (s.entropyTest rep.entropyOk) := State.entropyTest_frame (Frame.refl _ s) (by decide)
  have hk := s.entropyTest_key rep.entropyOk
  by_cases h1 : s.drbg.keyState = 1
  · rw [if_neg (c := s.drbg.keyState ≠ 1 ∧ _) fun e => e.1 h1]
    simp only [if_pos h1]
    rw [if_neg (not_not.2 h1)]
    exact State.startOn_parts rep hs h1
  · simp only [if_neg h1]
    generalize s.entropyTest rep.entropyOk = u at hf hk
    cases he : rep.entropyOk with
    | false =>
      rw [he] at hk
      have hk2 : u.drbg.keyState = 2 := hk
      rw [if_pos (c := u.drbg.keyState ≠ 1) (by rw [hk2]; decide), if_pos ⟨h1, rfl⟩]
      exact ⟨(congrArg Device.state (hf .dev (by decide))).trans hs, hk2, hf .ctl (by decide), hf .imm (by decide)⟩
    | true =>
      rw [he] at hk
      have hk1 : u.drbg.keyState = 1 := hk
      have hdev : u.dev = s.dev := hf .dev (by decide)
      have hotp : u.otp = s.otp := hf .otp (by decide)
      rw [if_neg (not_not.2 hk1), if_neg (c := s.drbg.keyState ≠ 1 ∧ _) fun e => Bool.noConfusion e.2]
      have h := State.startOn_parts (s := u) rep (by rw [hdev]; exact hs) hk1
      unfold State.mustHold at h
      rw [hdev, hotp, show u.polLedger = s.polLedger from hf .polLedger (by decide), show u.power = s.power from hf .power (by decide),
        show u.now = s.now from hf .now (by decide)] at h
      exact h

end Sys2Proof.Machine

namespace Sys2Proof

open Sys2Proof.Machine

/-- Settles O58. -/
theorem deviceStartStepsAndLinksAct : Obligations.DeviceStartStepsAndLinksAct := by
  unfold Obligations.DeviceStartStepsAndLinksAct
  intro s rep m speed width reg write
  exact ⟨exec_porRelease, exec_deviceStart_idle rep, exec_deviceStart_shadow rep, exec_deviceStart_rom rep, exec_deviceStart_absent rep,
    exec_deviceStart_start rep, exec_linkUp speed width, exec_linkDown, exec_poolPllUnlock, exec_configurationRequest⟩

end Sys2Proof
end
